-- ==== Sys2Proof/Word.lean ====
section
/-! DEFINITION. The widths the spec gives to what is held in registers and memories, and the shape of a register field. -/

namespace Sys2Proof

/-- A register or a bus word: 32 bits (R22). -/
abbrev Word := BitVec 32

/-- A byte of memory. -/
abbrev Byte := BitVec 8

/-- The bits of a register field, high and low (R24 and the register tables). -/
structure RField where
  hi : Nat
  lo : Nat
  deriving DecidableEq, Repr

end Sys2Proof
end

