-- ==== Sys2Proof/Syntax.lean ====
section
/-! DEFINITION. The commands the device takes from outside: one constructor for each row of spec/opcode_table.json, in the
table's order, with the operands the row's rule names. An operand without a narrower type is a number; WellFormed.lean says
its range. -/

namespace Sys2Proof

/-- The two safety channels (R32). -/
inductive Channel where
  | p | m
  deriving DecidableEq, Repr

/-- The two safety rings: Ring A (Cirrus) and Ring B (Cumulus) (R389). -/
inductive Ring where
  | a | b
  deriving DecidableEq, Repr

/-- What an error-checked word or frame shows: no error, a corrected error or an uncorrectable one. -/
inductive EccErr where
  | ok | corrected | uncorrectable
  deriving DecidableEq, Repr

/-- What BOOT meets in the flash (R446): its data, SFDP tables that cannot be parsed, no DQS in 8D-8D-8D, or no data. -/
inductive FlashRead where
  | ok | noSfdp | noDqs | failed
  deriving DecidableEq, Repr

/-- An upset of the context store (R211): the context, the word (0 to 127 of its record, 128 + i the staged state word of pool word i)
and whether the error cannot be corrected. -/
structure Upset where
  ctx : Nat
  word : Nat
  two : Bool
  deriving DecidableEq, Repr

/-- What a scrub of the context store meets: the word it reads, and upsets of other words that have come since the last one. -/
structure ScrubRead where
  err : EccErr
  ups : List Upset
  deriving DecidableEq, Repr

/-- What the patrol scrub meets (R449): its block, and errors of other blocks (block, whether it cannot be corrected). -/
structure PatrolRead where
  err : EccErr
  ups : List (Nat × Bool)
  deriving DecidableEq, Repr

/-- The vehicle time of a sync message, whether it is two-step, and its logSyncInterval (R439). -/
structure SyncTime where
  vt : Int
  twoStep : Bool
  logInterval : Int
  deriving DecidableEq, Repr

/-- A frame copy: its words, and the 8b/10b code errors of its symbols and of the idle before it (R406). -/
structure FrameCopy where
  words : List Word
  codes : Nat
  deriving DecidableEq, Repr

/-- The data of a received CAN frame, and whether the frame has an error, as a non-ISO CAN FD frame or a remote frame in CAN FD format
has. -/
structure CanData where
  bytes : List Byte
  err : Bool
  deriving DecidableEq, Repr

/-- The lanes of a PCIe link and the payload it was configured for (R441). -/
structure PcieLanes where
  width : Nat
  payload : Nat
  deriving DecidableEq, Repr

/-- The channel whose rail is out of range, and whether VDDIO still exceeds 2.9 V (R499). -/
structure RailWarn where
  ch : Channel
  vddio : Bool
  deriving DecidableEq, Repr

/-- The supply rails that are not required for reset release (R500). -/
inductive Rail where
  | vddSer | vdd2 | vddq | vgd | vexc | vddio
  deriving DecidableEq, Repr

/-- A bus read's address and its width in bytes (R22). -/
structure BusAt where
  addr : Nat
  width : Nat
  deriving DecidableEq, Repr

/-- The commands. Each constructor's comment gives its row's mnemonic, its rule and the table's summary. -/
inductive Instr where
  /-- REGISTER_WRITE (R25): A bus write to a register that has no row of its own is checked against access type, ownership and rights, and is applied or refused. -/
  | registerWrite (mid : Nat) (addr : Nat) (width : Nat) (val : Word)
  /-- PAGE_CLAIM (R514): A write of the writer's own MID to PG_CTRL.OWNER_MID in CONFIGURE claims an unowned page, or is refused. -/
  | pageClaim (mid : Nat) (page : Nat)
  /-- PAGE_RELEASE (R514): A write of 0xF to PG_CTRL.OWNER_MID by the holder releases the page. -/
  | pageRelease (mid : Nat) (page : Nat)
  /-- UNIT_CLAIM (R514): A write of the writer's own MID to the OWNER field of a claim register claims the unit, or sets CLAIM_CONFLICT. -/
  | unitClaim (mid : Nat) (addr : Nat)
  /-- UNIT_RELEASE (R514): A write of 0xF by the holder to the OWNER field of a claim register releases the unit. -/
  | unitRelease (mid : Nat) (addr : Nat)
  /-- KEY_FIRST_WORD (R29): A write of 0x5EED to PG_LOCK leaves a key sequence pending for the writer, or breaks a pending sequence. -/
  | keyFirstWord (mid : Nat) (page : Nat)
  /-- KEY_SECOND_WORD (R29): A write of 0xC10D to PG_LOCK opens or renews the key window, or sets KEY_ERR. -/
  | keySecondWord (mid : Nat) (page : Nat)
  /-- KEY_CLOSE (R29): A write of 0x0000 to PG_LOCK abandons the pending sequence or closes the opener's window, or sets KEY_ERR. -/
  | keyClose (mid : Nat) (page : Nat)
  /-- KEY_SEQUENCE_EXPIRY (R29): A pending key sequence lapses when 64 peripheral-bus cycles pass without its second word. -/
  | keySequenceExpiry (page : Nat)
  /-- KEY_WINDOW_EXPIRY (R29): An open key window closes when 65,536 peripheral-bus cycles have passed since it opened. -/
  | keyWindowExpiry (page : Nat)
  /-- LOW_WORD_READ (R21): A read of the low register of a 64-bit quantity latches the high register for the reading master. -/
  | lowWordRead (mid : Nat) (addr : BusAt)
  /-- TRK_ANG_READ (R69): A read of TRK_ANG latches TRK_SPD and TRK_STAT of the track for the reading master. -/
  | trkAngRead (mid : Nat) (trk : Nat)
  /-- ACC_RES0_READ (R127): A read of ACC_RES0 latches ACC_RES1, ACC_CNT and ACC_STAT for the reading master. -/
  | accRes0Read (mid : Nat) (acc : Nat)
  /-- MMX_MIN_READ (R132): A read of MMX_MIN latches MMX_MAX and MMX_STAT for the reading master. -/
  | mmxMinRead (mid : Nat) (mmx : Nat)
  /-- CTX_OUT0_READ (R212): A read of CTX_OUT0 latches the other OUT words, OMAP, CTX_SAT, CTX_RUNS and CTX_LAST for the reading master. -/
  | ctxOut0Read (mid : Nat) (ctx : Nat)
  /-- POS_ANG_READ (R186): A read of POS_ANG or SHD_ANG latches the speed, status and turn words of the interface for the reading master. -/
  | posAngRead (mid : Nat) (pos : Nat) (shadow : Bool)
  /-- TM_TQ_READ (R387): A read of TM_TQ latches the other words of the torque monitor entry for the reading master. -/
  | tmTqRead (mid : Nat) (entry : Nat)
  /-- SFX_FRAME_READ (R407): A read of word 0 of a stored frame in the SFX page latches the rest of that frame. -/
  | sfxFrameRead (mid : Nat) (src : Nat)
  /-- EVT_LAST_READ (R482): A read of EVT_LAST latches EVT_LAST_T for the reading master. -/
  | evtLastRead (mid : Nat)
  /-- PG_EVT_CLR (R476): A write of 1 to bits of PG_EVT_CLR clears the matching raw event bits, unless a raising coincides. -/
  | pgEvtClr (mid : Nat) (page : Nat) (val : Word)
  /-- EVT_OUT_PULSE_END (R481): An EVT_OUT pulse ends when its width has elapsed. -/
  | evtOutPulseEnd (pin : Nat)
  /-- LINK_FRAME_RX (R35): A data-lane frame arrives from the in-package link; a single-bit error is corrected in line. -/
  | linkFrameRx (err : EccErr)
  /-- LINK_HEARTBEAT_TIMEOUT (R36): No frame or heartbeat arrives for 40 ticks and the link has failed. -/
  | linkHeartbeatTimeout
  /-- CHANNEL_CLOCK_STOP (R38): A channel's clock stops and its enable keepers let its enables fall within 1 µs. -/
  | channelClockStop (ch : Channel)
  /-- SUPPLY_FAULT (R38): A channel's supply monitor reports a rail at its reset level or its own failure, and that channel's enables fall. -/
  | supplyFault (ch : Channel)
  /-- CLK_XCHK (R39): The two channel clocks differ by more than 2 % for 10 µs; both channels drop enables and the device enters SAFE_HOLD. -/
  | clkXchk (dev : Int)
  /-- PLL_UNLOCK (R479): A channel's PLL loses lock. -/
  | pllUnlock (ch : Channel)
  /-- ENA_READBACK (R43): An enable pin differs from its commanded level for more than 1 µs; both channels drop the group's enables. -/
  | enaReadback (grp : Nat) (ch : Channel)
  /-- STO_INPUT_ACTIVE (R364): STO_P or STO_M becomes active after its 1 µs filter and that channel drops its enables. -/
  | stoInputActive (ch : Channel)
  /-- STO_INPUT_RELEASE (R364): An STO input returns inactive; GENM returns on SAFE_ACK, or at once when STO_AUTO = 1. -/
  | stoInputRelease (ch : Channel)
  /-- TL_RATE_WRITE (R56): A write of TL_RATE sets the Channel P PLL rate offset, clamped to ±200,000 ppb. -/
  | tlRateWrite (mid : Nat) (val : Word)
  /-- VT_OFS_HI_WRITE (R86): A write of TL_VT_OFS_HI makes the new vehicle-time offset take effect. -/
  | vtOfsHiWrite (mid : Nat) (val : Word)
  /-- SYNC_MESSAGE (R58): A usable 802.1AS sync message updates the offset error, lock tracking and rate discipline. -/
  | syncMessage (err : Int) (tm : SyncTime)
  /-- SYNC_TIMEOUT (R58): No usable sync message for 3 sync intervals clears LOCKED and sets HOLDOVER. -/
  | syncTimeout
  /-- TRACK_UPDATE (R61): An update is applied to a track at t_a: error computed, then slew, jump, stop or reversal treatment. -/
  | trackUpdate (trk : Nat)
  /-- TRK_STALE (R67): No update has been applied for TRK_STALE ticks; the track sets STALE and clears VALID. -/
  | trkStale (trk : Nat)
  /-- TRK_ANG_WRITE (R70): A write of TRK_ANG forms a HOST update, or a jump in FREE mode. -/
  | trkAngWrite (mid : Nat) (trk : Nat) (val : Word)
  /-- TRK_SPD_WRITE (R70): A write of TRK_SPD stages a HOST speed, or sets the FREE speed from the next tick. -/
  | trkSpdWrite (mid : Nat) (trk : Nat) (val : Word)
  /-- TRK_CFG_WRITE (R70): A write of TRK_CFG clears the residual, discards a staged speed and restarts the stale count. -/
  | trkCfgWrite (mid : Nat) (trk : Nat) (val : Word)
  /-- SLOT_TRIG_WRITE (R79): A write of SLOT_TRIG updates the slot and, with ARMED = 1, arms it afresh. -/
  | slotTrigWrite (mid : Nat) (slot : Nat) (val : Word)
  /-- SLOT_ARG_WRITE (R79): A write of SLOT_ARG while armed arms the slot afresh. -/
  | slotArgWrite (mid : Nat) (slot : Nat) (val : Word)
  /-- ABSOLUTE_SLOT_DECIDE (R73): An absolute-time slot reaches its decision tick and fires once. -/
  | absoluteSlotDecide (slot : Nat)
  /-- PERIODIC_SLOT_DECIDE (R74): A periodic-time slot reaches its decision tick. -/
  | periodicSlotDecide (slot : Nat)
  /-- CARRIER_SLOT_DECIDE (R75): A carrier slot decides for a counted carrier event plus its offset. -/
  | carrierSlotDecide (slot : Nat)
  /-- ANGLE_SLOT_DECIDE (R76): An angle slot decides when a track's projected angle crosses its angle in an admitted direction. -/
  | angleSlotDecide (slot : Nat)
  /-- ANGLE_SLOT_REARM (R77): An angle slot with REARM = 1 re-arms once the projected angle is a quarter turn from its angle. -/
  | angleSlotRearm (slot : Nat)
  /-- ACC_OPEN (R119): At its effect tick, the ACC_OPEN action opens a window on an accumulator with none open. -/
  | accOpen (slot : Nat)
  /-- ACC_CLOSE (R119): At its effect tick, the ACC_CLOSE action closes the open window, or abandons it when one is pending. -/
  | accClose (slot : Nat)
  /-- ACC_SWAP (R119): At its effect tick, the ACC_SWAP action closes the open window and opens the next in one tick. -/
  | accSwap (slot : Nat)
  /-- CTX_RUN (R192): At its effect tick, the CTX_RUN action requests a normal pass of a context. -/
  | ctxRun (slot : Nat)
  /-- CTX_SPEC (R220): At its effect tick, the CTX_SPEC action requests a speculative pass, or a normal pass when suspended. -/
  | ctxSpec (slot : Nat)
  /-- POS_REQ (R173): At its effect tick, the POS_REQ action starts a serial frame, or issues an edge update in ABZ and Hall modes. -/
  | posReq (slot : Nat)
  /-- EXC_PHASE (R178): At its effect tick, the EXC_PHASE action sets the excitation phase to zero. -/
  | excPhase (slot : Nat)
  /-- BLANK_ON (R146): At its effect tick, the BLANK_ON action begins slot blanking of a comparator. -/
  | blankOn (slot : Nat)
  /-- BLANK_OFF (R146): At its effect tick, the BLANK_OFF action ends slot blanking of a comparator. -/
  | blankOff (slot : Nat)
  /-- OW_ON (R102): At its effect tick, the OW_ON action opens an open-wire window and drives the test current. -/
  | owOn (slot : Nat)
  /-- OW_OFF (R102): At its effect tick, the OW_OFF action closes an open-wire window. -/
  | owOff (slot : Nat)
  /-- REC_MARK (R81): At its effect tick, the REC_MARK action writes a MARK record. -/
  | recMark (slot : Nat)
  /-- SLOT_ARM (R79): At its effect tick, the SLOT_ARM action arms the target slots afresh. -/
  | slotArm (slot : Nat)
  /-- EVT_PULSE (R481): At its effect tick, the EVT_PULSE action drives a pulse of PARAM ticks on an EVT_OUT pin. -/
  | evtPulse (slot : Nat)
  /-- SLOT_DISARM (R81): At its effect tick, the SLOT_DISARM action disarms the target slots. -/
  | slotDisarm (slot : Nat)
  /-- ADA_SAMPLE (R90): A logical slice samples the input of its sequence entry at its grid tick. -/
  | adaSample (slice : Nat) (raw : Nat) (rawInc : Nat)
  /-- ADA_RESULT_ARRIVAL (R91): A corrected Bank A result arrives 40 ticks after sampling and enters its accumulators, trackers and limit checks. -/
  | adaResultArrival (slice : Nat)
  /-- ADA_SEQ_WRITE (R93): A write of ADA_SEQ is accepted or refused as a whole, and an accepted one abandons a running overlap. -/
  | adaSeqWrite (mid : Nat) (slice : Nat) (val : Word)
  /-- BOOT_SLICE_CALIBRATION_DONE (R94): Boot calibration of all slices completes and logical slices are bound to passed physical slices. -/
  | bootSliceCalibrationDone (cal : List (Int × Int))
  /-- SLICE_CALIBRATION_DONE (R95): A slice finishes its 2 ms calibration and enters SPARE or FAILED. -/
  | sliceCalibrationDone (phys : Nat) (ofs : Int) (gain : Int)
  /-- ROTATION_STEP (R96): At a rotation interval tick, an overlap starts for the next enabled served logical slice with the lowest spare. -/
  | rotationStep
  /-- OVERLAP_DECISION (R97): After OVL_N counted pairs the overlap comparison is decided, with handover or failure handling. -/
  | overlapDecision
  /-- CAL_STALE (R101): A serving slice's calibration becomes older than CAL_MAX. -/
  | calStale (slice : Nat)
  /-- OW_EVALUATION (R104): At F_off + 40 the open-wire samples are evaluated to OPEN, pass or inconclusive. -/
  | owEvaluation (input : Nat)
  /-- SDC_FAULT (R106): No edge is seen on an enabled modulator clock pin for 4 periods. -/
  | sdcFault (clk : Nat)
  /-- SINC3_OUTPUT (R108): A Bank B decimator emits an output every OSR clocks, with the clip check and copy to Channel P. -/
  | sinc3Output (sdd : Nat) (wave : List Bool)
  /-- ADB_COPY_ARRIVAL (R109): A Bank B copy arrives in Channel P and enters its accumulators stamped with its arrival tick. -/
  | adbCopyArrival (sdd : Nat)
  /-- SD_STUCK (R110): A bitstream shows no transition for STUCK_N modulator clocks. -/
  | sdStuck (sdd : Nat)
  /-- FAST_SINC3_OUTPUT (R110): The fast sinc3 emits an output that is compared against HI and LO. -/
  | fastSinc3Output (sdd : Nat) (wave : List Bool)
  /-- ACC_COMMIT (R120): A closed window commits at C: results, flags, SEQ and linked tracker values. -/
  | accCommit (acc : Nat)
  /-- ACC_CONFIG_WRITE (R122): A write of ACC_CFG, ACC_GAIN, ACC_OFS or ACC_EXP abandons open and pending windows. -/
  | accConfigWrite (mid : Nat) (acc : Nat) (word : Nat) (val : Word)
  /-- MMX_CLEAR (R133): A write of 1 to MMX_STAT.CLR clears the tracker's minimum and maximum. -/
  | mmxClear (mid : Nat) (mmx : Nat)
  /-- CMP_TRIP (R140): A comparator's input crosses a trip level and the trip network forces off or releases the routed legs. -/
  | cmpTrip (cmp : Nat) (uv : Int)
  /-- CMP_RELEASE (R140): A comparator's input passes the release level of a tripped side. -/
  | cmpRelease (cmp : Nat) (uv : Int)
  /-- CMP_START (R144): A comparator starts, takes the tripped level and holds its switches off. -/
  | cmpStart (cmp : Nat)
  /-- CMP_START_DONE (R144): REL_N consecutive untripped samples end STARTING. -/
  | cmpStartDone (cmp : Nat)
  /-- CMP_START_LATE (R144): A comparator start has not completed within its time limit. -/
  | cmpStartLate (cmp : Nat)
  /-- CMP_STROBE (R143): A SAMPLED comparator is powered at its strobe tick and decides 300 ns later. -/
  | cmpStrobe (cmp : Nat) (uv : Int)
  /-- CMP_SETTING_APPLIED (R145): A threshold, ramp or mode write takes effect at the A-die within 16 ticks. -/
  | cmpSettingApplied (cmp : Nat)
  /-- EDGE_BLANK_END (R146): An edge-blanking interval of AUTO_LEN ticks ends. -/
  | edgeBlankEnd (cmp : Nat)
  /-- CMP_BLANK_CAP (R147): A PROTECT comparator blanked for 800 ticks has its blanking cut. -/
  | cmpBlankCap (cmp : Nat)
  /-- CMP_CLEAR (R153): A write of 1 to CMP_STAT.CLR clears LATCHED, or sets CLR_FAIL. -/
  | cmpClear (mid : Nat) (cmp : Nat)
  /-- POS_EDGE_ACCEPT (R163): A filtered change on a position pin is accepted and decoded as a quadrature, index or Hall transition. -/
  | posEdgeAccept (pos : Nat) (a : Bool) (b : Bool) (z : Bool)
  /-- UPD_MIN_EXPIRY (R169): The UPD_MIN interval expires with an edge pending, and an update is issued. -/
  | updMinExpiry (pos : Nat)
  /-- DECAY_UPDATE (R171): No edge for twice the last interval issues a decay update. -/
  | decayUpdate (pos : Nat)
  /-- ZERO_SPD (R172): No edge for ZS microseconds issues a zero-speed update. -/
  | zeroSpd (pos : Nat)
  /-- UNC_CLR (R165): A write of 1 to POS_STAT.UNC_CLR clears UNCERT while IDX_EN = 0. -/
  | uncClr (mid : Nat) (pos : Nat)
  /-- SSI_WORD (R174): The last SSI bit is sampled and the word is decoded and applied. -/
  | ssiWord (pos : Nat) (word : Nat)
  /-- BISS_WORD (R175): The last BiSS-C CRC bit is sampled and the word is checked, decoded and applied. -/
  | bissWord (pos : Nat) (start : Nat) (word : Nat) (crc : Nat)
  /-- POS_TIMEOUT (R175): No BiSS-C start bit has been seen by TOUT. -/
  | posTimeout (pos : Nat)
  /-- RESOLVER_WORD (R179): At C + 2 after both resolver accumulators commit, a word is formed or rejected. -/
  | resolverWord (pos : Nat)
  /-- EXC_FAULT (R178): An excitation amplitude differs by more than 25 % for 4 periods; the operand is the readbacks of
  successive periods in millivolts, the newest first. -/
  | excFault (exc : Nat) (mvs : List Int)
  /-- SHADOW_EDGE_ACCEPT (R180): A shadow decoder accepts a change on the pins it hears and decodes it in Channel M. -/
  | shadowEdgeAccept (shd : Nat) (a : Bool) (b : Bool) (z : Bool)
  /-- SHADOW_EXC_LOSS (R181): A shadow resolver misses an excitation crossing for twice the last period. -/
  | shadowExcLoss (shd : Nat)
  /-- EMU_STEP (R183): An emulation output steps one count towards its target once MIN_EDGE has passed. -/
  | emuStep (out : Nat)
  /-- PASS_START (R194): At a frame boundary with the normal path free, the engine starts the earliest ready pass and takes its snapshot. -/
  | passStart (eng : Nat)
  /-- CTX_WAIT_TIMEOUT (R193): A pending pass's WAIT inputs are still not fresh at F + TOUT. -/
  | ctxWaitTimeout (ctx : Nat)
  /-- CTX_DROP (R195): A pass has not started by its LATE limit and is dropped. -/
  | ctxDrop (ctx : Nat)
  /-- PASS_COMMIT (R205): A normal pass commits at T_c: OUT words, state, targets, duties, demands and track updates. -/
  | passCommit (ctx : Nat)
  /-- CTX_ENABLE (R208): A write of EN = 1 to a context is checked and accepted, or refused with a cause. -/
  | ctxEnable (mid : Nat) (ctx : Nat) (val : Word)
  /-- CTX_DISABLE (R209): A write of EN = 0 discards a pending pass and stops triggers. -/
  | ctxDisable (mid : Nat) (ctx : Nat) (val : Word)
  /-- CTX_SCRUB (R211): The cluster scrubs one context-store word every 8 ticks. -/
  | ctxScrub (read : ScrubRead)
  /-- SPEC_STAGE (R224): A speculative pass stages its OUT values and predictions at T_st without committing. -/
  | specStage (ctx : Nat)
  /-- RECOMPUTE_START (R234): A queued recompute starts on the recompute path if it fits before H, or is cancelled. -/
  | recomputeStart (eng : Nat)
  /-- RECOMPUTE_COMMIT (R234): A recompute commits at T_s + 8 × D_r. -/
  | recomputeCommit (ctx : Nat)
  /-- SPEC_SUSP_CLEAR (R241): A write of 1 to CTX_SPEC.SUSP clears SUSP and FB_RUN. -/
  | specSuspClear (mid : Nat) (ctx : Nat)
  /-- PWM_GROUP_ENABLE (R273): A write of PG_CTRL.EN = 1 to a PWT or PWA page is checked and the group is scheduled to start. -/
  | pwmGroupEnable (mid : Nat) (grp : Nat)
  /-- PWM_GROUP_START (R273): A group starts at V_0 and RUN reads 1. -/
  | pwmGroupStart (grp : Nat)
  /-- PWM_GROUP_DISABLE (R273): Clearing EN commands all switches off 4 ticks later and discards shadow and carries. -/
  | pwmGroupDisable (mid : Nat) (grp : Nat)
  /-- CAPTURE_TICK (R283): At L − 8 the shadow is captured, the period fixed, the edge step run and the horizon fixed. -/
  | captureTick (grp : Nat)
  /-- LOAD_POINT (R280): A load point begins an update period, with carrier events, LIMIT latch clearing and forced states. -/
  | loadPoint (grp : Nat)
  /-- PWT_COMMIT (R281): A write of 1 to PWT_COMMIT.GO moves the staged duties into the shadow. -/
  | pwtCommit (mid : Nat) (grp : Nat)
  /-- LEG_FORCE_WRITE (R292): A write of PWT_LEGx.FORCE schedules a forced state for the next load point. -/
  | legForceWrite (mid : Nat) (grp : Nat) (leg : Nat) (val : Word)
  /-- FORCE_IMMEDIATE (R292): A forced state written with IMM = 1 takes effect 4 ticks after the write. -/
  | forceImmediate (grp : Nat) (leg : Nat)
  /-- DL_CALIBRATION_DONE (R288): A delay line finishes calibration and builds its table, or fails. -/
  | dlCalibrationDone (out : Nat) (line : Nat) (elems : List Nat)
  /-- DL_CALIBRATION_TIMEOUT (R289): A delay-line calibration does not complete within 100 µs and the line fails. -/
  | dlCalibrationTimeout (out : Nat) (line : Nat)
  /-- DRDY_READY (R302): DRDYgg is accepted high and the ready wait ends. -/
  | drdyReady (grp : Nat)
  /-- DRDY_TOUT (R302): The ready wait lasts DRDY_TOUT and the gate stays closed. -/
  | drdyTout (grp : Nat)
  /-- DRDY_LOST (R303): An accepted fall of DRDYgg during a grant releases all three legs. -/
  | drdyLost (grp : Nat)
  /-- ENA_CHK_FAIL (R303): DRDYgg is not low within ENA_OFF after an enable reads low, and all legs are released. -/
  | enaChkFail (grp : Nat)
  /-- LEG_FLT (R304): An accepted active fault level releases its leg. -/
  | legFlt (grp : Nat) (leg : Nat) (act : Bool)
  /-- LEG_SHOOT (R306): The interlock sees both commands of a leg on and releases it. -/
  | legShoot (grp : Nat) (leg : Nat)
  /-- LEG_OUT_RB (R307): A gate output mismatches its command beyond the readback limit and the leg is released. -/
  | legOutRb (grp : Nat) (leg : Nat)
  /-- LEG_CLEAR (R311): A write of 1 to LCMD.CLR clears a leg's release, or is refused. -/
  | legClear (mid : Nat) (grp : Nat) (mask : Nat)
  /-- LEG_SOFT_RELEASE (R309): A write of 1 to LCMD.REL releases a leg with cause SOFT. -/
  | legSoftRelease (mid : Nat) (grp : Nat) (mask : Nat)
  /-- COMM_STATE_WRITE (R315): A write of GDA_COMM.STATE sets the commutation state. -/
  | commStateWrite (mid : Nat) (aux : Nat) (val : Word)
  /-- BST_UV (R317): A bootstrap voltage stays below its UV level for 1 µs. -/
  | bstUv (aux : Nat) (leg : Nat)
  /-- BST_REFRESH_SAMPLE (R319): The bootstrap voltage is sampled at the end of a refresh and the refresh succeeds or fails. -/
  | bstRefreshSample (aux : Nat) (leg : Nat) (mv : Nat)
  /-- VGD_UV (R320): VGD stays below its undervoltage level for 1 µs and every auxiliary leg is released. -/
  | vgdUv
  /-- VGD_RECOVER (R501): VGD returns to range and VGD_OK is set. -/
  | vgdRecover (mv : Nat)
  /-- NOP (R427): The NOP command returns its argument words. -/
  | nop (ch : Nat)
  /-- VERSION (R427): The VERSION command returns the identity, Garmal version and image hash. -/
  | version (ch : Nat)
  /-- DEV_STATE (R428): The DEV_STATE command requests a device state transition. -/
  | devState (ch : Nat)
  /-- NOTIFY (R430): The NOTIFY command enables or disables notifications on a channel. -/
  | notify (ch : Nat)
  /-- MACH_DEFINE (R326): The MACH_DEFINE command writes descriptor words and claims the units they name. -/
  | machDefine (ch : Nat)
  /-- MACH_CLAIM (R326): The MACH_CLAIM command claims units for a machine. -/
  | machClaim (ch : Nat)
  /-- CFG_WRITE (R326): The CFG_WRITE command writes up to three registers as S0 in units held for a machine. -/
  | cfgWrite (ch : Nat)
  /-- MACH_START (R339): The MACH_START command moves a machine from STO to CATCH. -/
  | machStart (ch : Nat)
  /-- MACH_CMD (R328): The MACH_CMD command writes host CMD words of a machine's contexts. -/
  | machCmd (ch : Nat)
  /-- MACH_STOP (R344): The MACH_STOP command moves a running machine to STOP. -/
  | machStop (ch : Nat)
  /-- MACH_STO (R332): The MACH_STO command takes a machine to STO. -/
  | machSto (ch : Nat)
  /-- MACH_DISCHARGE (R351): The MACH_DISCHARGE command starts bleeder or winding discharge. -/
  | machDischarge (ch : Nat)
  /-- MACH_CLEAR (R352): The MACH_CLEAR command clears leg releases and comparator latches and returns the machine to STO. -/
  | machClear (ch : Nat)
  /-- MACH_STATUS (R330): The MACH_STATUS command returns a machine's status word. -/
  | machStatus (ch : Nat)
  /-- SPB_WRITE (R383): The SPB_WRITE command writes the safety parameter block from a window to flash. -/
  | spbWrite (ch : Nat)
  /-- RING_REJOIN (R403): The RING_REJOIN command starts the epoch protocol with a proposal. -/
  | ringRejoin (ch : Nat)
  /-- BRAKE_P (R427): The BRAKE_P command sets PBRK_P_REL. -/
  | brakeP (ch : Nat)
  /-- SAFE_ACK (R364): The SAFE_ACK command acknowledges machine entries to Channel M. -/
  | safeAck (ch : Nat)
  /-- SAFE_STO (R429): The SAFE_STO command sets and clears STO requests of entries. -/
  | safeSto (ch : Nat)
  /-- SAFE_SS1 (R429): The SAFE_SS1 command sets and clears SS1 requests of entries. -/
  | safeSs1 (ch : Nat)
  /-- OUT_M (R429): The OUT_M command sets Channel M brake release and discharge request. -/
  | outM (ch : Nat)
  /-- RING_REQ (R429): The RING_REQ command sets the STO and SS1 node masks sent in frames. -/
  | ringReq (ch : Nat)
  /-- MACH_EVALUATE (R334): Garmal evaluates a machine once per update period and carries out transitions and reactions. -/
  | machEvaluate (mach : Nat)
  /-- ARM_ENABLES_HIGH (R336): During arming, GENP, GENM and DRDY read high and Garmal writes FORCE = NONE. -/
  | armEnablesHigh (mach : Nat)
  /-- MACH_ARM_FAIL (R336): Arming has not completed within ARM_TOUT and the machine returns to STO. -/
  | machArmFail (mach : Nat)
  /-- CATCH_COMPLETE (R340): The catch measurement completes, at stable back-EMF or at 20 ms, and the next state is decided. -/
  | catchComplete (mach : Nat)
  /-- ALIGN_TIMEOUT (R342): ALIGN_T elapses and the machine enters START. -/
  | alignTimeout (mach : Nat)
  /-- START_WINDOW_EXPIRY (R342): START_WIN elapses without LOCKED_ON, leading to a retry or START_FAIL. -/
  | startWindowExpiry (mach : Nat)
  /-- RETRY_WAIT_EXPIRY (R342): RETRY_WAIT elapses and the machine enters CATCH again. -/
  | retryWaitExpiry (mach : Nat)
  /-- STOP_SPEED_TIMER (R344): Speed has stayed below STOP_SPD for 100 ms and the machine enters STO. -/
  | stopSpeedTimer (mach : Nat)
  /-- DISCHARGE_LATE (R351): DISCHARGE passes DIS_DL. -/
  | dischargeLate (mach : Nat)
  /-- TMON_EVALUATION (R357): A torque monitor evaluation estimates torque and speed for an entry and applies its checks. -/
  | tmonEvaluation (entry : Nat)
  /-- SAFE_REQ_SS1_WRITE (R365): A rise of a SAFE_REQ_SS1 bit starts SS1 for an entry. -/
  | safeReqSs1Write (mid : Nat) (val : Word)
  /-- SAFE_REQ_STO_WRITE (R364): A write of SAFE_REQ_STO requests or withdraws STO of entries. -/
  | safeReqStoWrite (mid : Nat) (val : Word)
  /-- SAFE_ACK_WRITE (R364): A write of SAFE_ACK acknowledges latched trips and STOs of entries. -/
  | safeAckWrite (mid : Nat) (val : Word)
  /-- SS1_FAIL (R365): SS1_TMAX passes before standstill and the machine trips. -/
  | ss1Fail (entry : Nat)
  /-- ASC_RELEASE_TIMER (R367): In SAFE_HOLD, speed below ASC_REL for 20 ms makes Channel M end the ASC. -/
  | ascReleaseTimer (entry : Nat)
  /-- DIS_M_LATE (R368): DIS_M passes DIS_DL_M. -/
  | disMLate (entry : Nat)
  /-- SPB_RECHECK (R382): Every 100 ms each channel recomputes the SPB CRC, entering SAFE_HOLD on mismatch. -/
  | spbRecheck
  /-- SAFE_CONFIRM_WRITE (R383): A write of SAFE_CONFIRM within the key window confirms the SPB, or counts a failure. -/
  | safeConfirmWrite (mid : Nat) (val : Word)
  /-- TEMP_HIGH (R373): A die sensor reads above 160 °C and the device enters SAFE_HOLD. -/
  | tempHigh (sensor : Nat) (temp : Int)
  /-- SUPPLY_WARN (R501): A rail is out of range above its reset level for 10 µs and the device enters SAFE_HOLD. -/
  | supplyWarn (warn : RailWarn)
  /-- LOCKSTEP (R485): A supervisor pair fails lockstep and is held in reset; the device enters SAFE_HOLD. -/
  | lockstep (ch : Channel)
  /-- SRAM_UNCORR (R479): An uncorrectable error in S0 or S1 SRAM is a fatal cause. -/
  | sramUncorr (ch : Channel)
  /-- SRAM_CORR (R479): A corrected error in S0 or S1 SRAM. -/
  | sramCorr (ch : Channel)
  /-- RING_INSERT (R390): A node opens its bypass switch once all insertion conditions hold. -/
  | ringInsert (ring : Ring)
  /-- BYPASS_FAULT (R390): The bypass switch position differs from its command for 10 µs. -/
  | bypassFault (ring : Ring)
  /-- RING_LINK (R405): An in-port loses or regains symbol lock. -/
  | ringLink (ring : Ring) (up : Bool)
  /-- FRAME_SEND (R393): A node sends its safety frame at its slot of the cycle on every ring it uses. -/
  | frameSend
  /-- COPY_RECEIVE (R395): A frame copy arrives, is validated and paired by source and SEQ. -/
  | copyReceive (ring : Ring) (frame : FrameCopy)
  /-- PAIR_TIMEOUT (R396): 40 µs after the first copy, the pair is decided without the second. -/
  | pairTimeout (src : Nat)
  /-- RING_SRC_LOST (R398): A source's deadline passes; it is latched lost and its loss action is applied. -/
  | ringSrcLost (src : Nat)
  /-- CYCLE_BOUNDARY (R401): At a ring cycle boundary SEQ advances, never-seen sources are lost and the split condition is judged. -/
  | cycleBoundary
  /-- EPOCH_COMMIT (R403): At the commit cycle every node takes the new epoch and clears losses. -/
  | epochCommit
  /-- EPOCH_FAIL (R403): No commit within EP_TOUT cycles returns the node to its old epoch. -/
  | epochFail
  /-- MBX_RIGHTS_WRITE (R409): A write of MBX_RIGHTS by S0 in BOOT or CONFIGURE sets master write rights. -/
  | mbxRightsWrite (mid : Nat) (val : Word)
  /-- MBX_BIND (R410): A write naming both sides of MBX_BIND binds a channel, or is refused. -/
  | mbxBind (mid : Nat) (ch : Nat) (val : Word)
  /-- MBX_UNBIND (R410): The binding owner writes 0xF to both sides and unbinds the channel, emptying its queues. -/
  | mbxUnbind (mid : Nat) (ch : Nat)
  /-- MBX_SEND (R411): A write of MBX_DATA appends a word to the outbound queue, or discards it when full. -/
  | mbxSend (mid : Nat) (ch : Nat) (val : Word)
  /-- MBX_RECEIVE (R411): A read of MBX_DATA removes and returns the oldest inbound word. -/
  | mbxReceive (mid : Nat) (ch : Nat)
  /-- MBX_FLUSH (R413): A write of 1 to MBX_CTRL.FLUSH by the binding owner empties both queues. -/
  | mbxFlush (mid : Nat) (ch : Nat)
  /-- LOCK_ACQUIRE (R416): A read of LCK_LOCKn acquires a free lock or reports its holder. -/
  | lockAcquire (mid : Nat) (lock : Nat)
  /-- LOCK_RELEASE (R418): The holder writes 0 to LCK_LOCKn and releases the lock. -/
  | lockRelease (mid : Nat) (lock : Nat)
  /-- LOCK_FORCED (R418): S0 writes LCK_FORCE within the key window and frees a lock. -/
  | lockForced (mid : Nat) (lock : Nat)
  /-- WIN_TAKE (R420): A master writes its MID to WIN_OWN.OWNER and takes a free window. -/
  | winTake (mid : Nat) (win : Nat) (owner : Nat)
  /-- WIN_GIVEN (R420): The owner writes a MID to GIVE and hands the window over. -/
  | winGiven (mid : Nat) (win : Nat) (dest : Nat)
  /-- WIN_RELEASE (R420): The owner writes 0xF to GIVE and frees the window. -/
  | winRelease (mid : Nat) (win : Nat)
  /-- WIN_FORCED (R420): S0 writes WIN_FORCE within the key window and frees a window. -/
  | winForced (mid : Nat) (win : Nat)
  /-- WIN_DATA_WRITE (R421): A write of window data is taken from the owner, or refused and counted. -/
  | winDataWrite (mid : Nat) (addr : Nat) (bytes : List Byte)
  /-- CAN_FRAME_RX (R436): A CAN frame is received and filtered into a receive buffer, or dropped. -/
  | canFrameRx (can : Nat) (ident : Word) (ctrl : Word) (data : CanData)
  /-- CAN_FRAME_TX (R436): A pending transmit buffer is sent on the bus. -/
  | canFrameTx (can : Nat) (ok : Bool)
  /-- CAN_RECOVER (R437): A write of 1 to CAN_CTRL.RECOVER starts bus-off recovery. -/
  | canRecover (mid : Nat) (can : Nat)
  /-- CAN_RECOVERY_DONE (R437): 128 sequences of 11 recessive bits complete the recovery. -/
  | canRecoveryDone (can : Nat)
  /-- ETH_FRAME_RX (R440): An Ethernet frame is received into the FIFO, or dropped; PTP frames go to Garmal. -/
  | ethFrameRx (eth : Nat) (bytes : List Byte)
  /-- ETH_TXD_WRITE (R440): A write of ETH_TXD adds a frame word and sends the frame at its last word. -/
  | ethTxdWrite (mid : Nat) (eth : Nat) (val : Word)
  /-- ETH_RXD_READ (R440): A read of ETH_RXD takes the next word of the oldest received frame. -/
  | ethRxdRead (mid : Nat) (eth : Nat)
  /-- ETH_RXPOP (R440): A write of 1 to ETH_RXPOP discards the rest of the head frame. -/
  | ethRxpop (mid : Nat) (eth : Nat)
  /-- PDELAY_REQUEST (R439): The device initiates Pdelay on its sync port once per second. -/
  | pdelayRequest (delay : Nat)
  /-- ETH_LINK (R450): An SGMII link goes up or down. -/
  | ethLink (eth : Nat) (up : Bool) (speed : Nat)
  /-- PCIE_LINK (R450): The PCIe link enters or leaves L0. -/
  | pcieLink (l0 : Bool) (speed : Nat) (lanes : PcieLanes) (d3 : Bool)
  /-- PCIE_FUNCTION_RESET (R442): PERST# or hot reset resets the PCIe function alone. -/
  | pcieFunctionReset
  /-- RD (R444): The SPI RD command reads COUNT words at consecutive addresses. -/
  | rd (frame : List Byte)
  /-- WR (R444): The SPI WR command writes COUNT words at consecutive addresses. -/
  | wr (frame : List Byte)
  /-- RD_FIX (R444): The SPI RD_FIX command reads COUNT words at one address. -/
  | rdFix (frame : List Byte)
  /-- WR_FIX (R444): The SPI WR_FIX command writes COUNT words at one address. -/
  | wrFix (frame : List Byte)
  /-- KEY (R444): The SPI KEY command writes both key words to a PG_LOCK in consecutive cycles. -/
  | key (frame : List Byte)
  /-- SPI_FRAME_ABORT (R445): SPI_CS rises before the request CRC ends and the frame is discarded. -/
  | spiFrameAbort
  /-- DDR_TRAINING_DONE (R448): LPDDR4X training completes, setting READY or TRAIN_FAIL. -/
  | ddrTrainingDone (ok : Bool) (fitted : Nat)
  /-- DDR_PATROL_SCRUB (R449): The patrol scrub reads one 64-byte block every 4 µs and corrects or records errors. -/
  | ddrPatrolScrub (read : PatrolRead)
  /-- REC_START (R458): A rise of REC_CTRL.EN starts a run with a START record and an anchor set. -/
  | recStart (mid : Nat)
  /-- REC_STOP (R460): Clearing REC_CTRL.EN completes the current block with PAD and stops recording. -/
  | recStop (mid : Nat)
  /-- REC_HOST_TRIGGER (R459): A write of 1 to REC_CTRL.TRIG triggers the recorder. -/
  | recHostTrigger (mid : Nat)
  /-- REC_REARM (R460): A write of 1 to REC_CTRL.REARM while frozen starts a new run. -/
  | recRearm (mid : Nat)
  /-- REC_FREEZE (R459): A write of 1 to REC_CTRL.FREEZE freezes the recorder at once. -/
  | recFreeze (mid : Nat)
  /-- REC_FROZEN (R459): REC_POST blocks after the trigger block complete and the recorder freezes. -/
  | recFrozen
  /-- BLOCK_COMPLETE (R453): A 4,096-byte stream block is completed and written to the ring. -/
  | blockComplete
  /-- ANCHOR_TIMER (R458): Every ANCH ms an anchor set is requested. -/
  | anchorTimer
  /-- REC_EXPORT (R462): A write of REC_EXP.GO copies blocks from the ring to a window, or is refused. -/
  | recExport (mid : Nat) (val : Word)
  /-- REC_EXP_DONE (R462): An export, load or dump copy completes and the window is given back. -/
  | recExpDone
  /-- RPL_LOAD (R462): A write of RPL_LOAD copies blocks from a window into the ring. -/
  | rplLoad (mid : Nat) (val : Word)
  /-- RPL_START (R463): A write of 1 to RPL_CTRL.START checks the stream and starts a replay, or refuses it. -/
  | rplStart (mid : Nat)
  /-- REPLAY_RECORD (R464): A recorded input is applied at its tick of replay time and reproduced records are compared. -/
  | replayRecord
  /-- RPL_ABORT (R465): A write of 1 to RPL_CTRL.ABORT ends the replay. -/
  | rplAbort (mid : Nat)
  /-- DUMP_RETENTION_DONE (R467): The dump sequencer finishes writing the retention SRAM and its header. -/
  | dumpRetentionDone
  /-- DUMP_EXT_DONE (R467): The dump region copy to LPDDR4X completes and EXT_VALID is set. -/
  | dumpExtDone
  /-- DMP_EXPORT (R471): A write of DMP_EXP.GO copies a dump chunk to a window. -/
  | dmpExport (mid : Nat) (val : Word)
  /-- DMP_CLEAR (R471): A write of 1 to DMP_CTRL.CLR clears the dump and releases the recorder. -/
  | dmpClear (mid : Nat)
  /-- POWER_ON_RESET (R483): The D-die core supply rises through its reset level and a cold reset begins. -/
  | powerOnReset
  /-- SUPPLY_RESET (R483): The D-die core supply falls below its reset level and a cold reset follows. -/
  | supplyReset
  /-- RESET_PIN (R483): RESET_N is held low for at least 1 µs and a warm reset follows. -/
  | resetPin
  /-- RST_SYS_RST_WRITE (R496): A write of 1 to RST_CTRL.SYS_RST within the key window schedules a warm reset. -/
  | rstSysRstWrite (mid : Nat)
  /-- DBG_SYS_RST_WRITE (R496): A write of DBG_CTRL.SYS_RST by Debug starts a warm reset. -/
  | dbgSysRstWrite (mid : Nat)
  /-- WARM_RESET (R484): A warm device reset takes effect, keeping retention SRAM and self-refresh. -/
  | warmReset
  /-- RESET_RELEASE (R500): Required rails in range and RESET_N high for 100 µs release reset. -/
  | resetRelease
  /-- PLL_LOCKED (R492): Both channel PLLs lock after reset release and the device enters BOOT. -/
  | pllLocked
  /-- IMAGE_VERIFIED (R489): Both supervisor pairs finish verifying an image slot and accept or reject it. -/
  | imageVerified (slot : Nat) (read : FlashRead) (agree : Bool)
  /-- BOOT_COMPLETE (R493): All BOOT steps complete with Garmal running on both pairs, and the device enters CONFIGURE. -/
  | bootComplete
  /-- LIFECYCLE_ADVANCE (R491): A write of SEC_LC_ADV.NEXT within the key window advances the lifecycle state. -/
  | lifecycleAdvance (mid : Nat) (val : Word)
  /-- DEBUG_HALT (R496): A write of DBG_CTRL.HALT_REQ halts the device for debug. -/
  | debugHalt (mid : Nat) (req : Bool)
  /-- DBG_ATTACH (R479): A debug session attaches or detaches. -/
  | dbgAttach (att : Bool)
  /-- LATE_RAIL_ARRIVAL (R500): A rail not required for reset release arrives later and takes effect from then. -/
  | lateRailArrival (rail : Rail)
  /-- SWITCH_EDGE (R286): A switch output of a group changes at the fine time its capture step placed, starting edge blanking of comparators that watch the group. -/
  | switchEdge (grp : Nat) (leg : Nat) (high : Bool)
  /-- DRDY_ACCEPTED_LOW (R303): DRDYgg is accepted low after an enable reads low, satisfying the removal check. -/
  | drdyAcceptedLow (grp : Nat)
  /-- BST_UV_CLEAR (R317): A bootstrap voltage rises 0.5 V above its UV level and BST_UV clears. -/
  | bstUvClear (aux : Nat) (leg : Nat) (mv : Nat)
  /-- A_DIE_SUPPLY_RECOVERY (R144): Supply monitor P reports recovery of the A-die supply and every comparator able to run starts. -/
  | aDieSupplyRecovery
  /-- VGD_OVERVOLTAGE (R501): VGD rises above 16.0 V and VGD_OK clears. -/
  | vgdOvervoltage (mv : Nat)
  /-- BAD_CODE (R426): A command message with an unknown code is answered with STATUS BAD_CODE. -/
  | badCode (ch : Nat)
  /-- SPI_UNKNOWN_CMD (R445): An SPI frame with an unknown CMD is refused with STATUS 0x02 and raises SPI_FRAME_ERR. -/
  | spiUnknownCmd (frame : List Byte)
  /-- UNSUPERVISED_CHECK (R374): In SAFE_HOLD with cause 0x4, S1 evaluates the unsupervised check for continuing machines every 1 ms. -/
  | unsupervisedCheck
  /-- RING_STATUS_POLL (R399): Garmal polls ring status every 100 µs and issues MACH_STOP and the overcast clamps for lost sources. -/
  | ringStatusPoll
  deriving DecidableEq, Repr

end Sys2Proof
end

