-- ==== Sys2Proof/Decode.lean ====
section
/-! DEFINITION. The commands that words spell. The device has no encoding for its commands: every row of spec/opcode_table.json is
without bits, so no word spells one. -/

namespace Sys2Proof

/-- The command a word of a table row's bits spells: no row has bits. -/
def decodeTableWord (_nbits _w : Nat) : Option Instr := none

end Sys2Proof
end

