-- ==== Sys2Proof/Machine/Bits.lean ====
section
/-! DEFINITION. Bit fields, sign extension and byte order: the helpers every register operation rests on (R14, R15, R22). -/

namespace Sys2Proof.Machine

/-- Width of a field in bits. -/
def fieldWidth (f : RField) : Nat := f.hi + 1 - f.lo

/-- The bits of a field set, all others clear. -/
def fieldMask (f : RField) : Word := BitVec.ofNat 32 ((2 ^ fieldWidth f - 1) * 2 ^ f.lo)

/-- The number a field holds. -/
def getF (w : Word) (f : RField) : Nat := w.toNat / 2 ^ f.lo % 2 ^ fieldWidth f

/-- A word with one field replaced; a number too large for the field keeps its low bits. -/
def setF (w : Word) (f : RField) (v : Nat) : Word :=
  (w &&& ~~~ fieldMask f) ||| BitVec.ofNat 32 (v % 2 ^ fieldWidth f * 2 ^ f.lo)

/-- One bit of a word. -/
def bitOf (w : Word) (i : Nat) : Bool := w.toNat / 2 ^ i % 2 == 1

/-- The word with the one bit `i` set. -/
def bitWord (i : Nat) : Word := BitVec.ofNat 32 (2 ^ i)

/-- Two's-complement reading of the low `n` bits of a number. -/
def sext (n v : Nat) : Int :=
  let r := v % 2 ^ n
  if 2 * r < 2 ^ n then (r : Int) else (r : Int) - (2 ^ n : Nat)

/-- The low `n` bits of the two's-complement form of an integer. -/
def wrapN (n : Nat) (x : Int) : Nat := (x % ((2 ^ n : Nat) : Int)).toNat

/-- An integer as a 32-bit word, two's complement, wrapping. -/
def wordOfInt (x : Int) : Word := BitVec.ofNat 32 (wrapN 32 x)

/-- An integer held to a closed range. -/
def clampI (lo hi x : Int) : Int := if x < lo then lo else if x > hi then hi else x

/-- A count held to a closed range. -/
def clampN (lo hi x : Nat) : Nat := if x < lo then lo else if x > hi then hi else x

/-- A saturating increment by one. -/
def satInc (top n : Nat) : Nat := if n ≥ top then top else n + 1

/-- Byte `i` of a word, least significant first (R22). -/
def byteOf (w : Word) (i : Nat) : Byte := BitVec.ofNat 8 (w.toNat / 2 ^ (8 * i) % 256)

/-- The four bytes of a word, least significant first (R22). -/
def bytesOfWord (w : Word) : List Byte := [byteOf w 0, byteOf w 1, byteOf w 2, byteOf w 3]

/-- A number from bytes, least significant first (R22). -/
def natOfBytes : List Byte → Nat
  | [] => 0
  | b :: bs => b.toNat + 256 * natOfBytes bs

/-- A word from up to four bytes, least significant first (R22). -/
def wordOfBytes (bs : List Byte) : Word := BitVec.ofNat 32 (natOfBytes bs)

/-- A number as `n` bytes, least significant first. -/
def bytesOfNat : Nat → Nat → List Byte
  | 0, _ => []
  | n + 1, v => BitVec.ofNat 8 (v % 256) :: bytesOfNat n (v / 256)

/-- A byte list cut into words of four bytes, least significant first; a short tail is filled with zeros. -/
def wordsOfBytes : List Byte → List Word
  | a :: b :: c :: d :: r => wordOfBytes [a, b, c, d] :: wordsOfBytes r
  | [] => []
  | r => [wordOfBytes r]

/-- A list entry, or a default past the end. -/
def nthD {α : Type} (dflt : α) : List α → Nat → α
  | [], _ => dflt
  | x :: _, 0 => x
  | _ :: xs, n + 1 => nthD dflt xs n

/-- A list with one entry replaced (unchanged past the end). -/
def replaceNth {α : Type} : List α → Nat → α → List α
  | [], _, _ => []
  | _ :: xs, 0, v => v :: xs
  | x :: xs, n + 1, v => x :: replaceNth xs n v

/-- One instance's number put into a 0/1 number. -/
def b2n (b : Bool) : Nat := if b then 1 else 0

end Sys2Proof.Machine
end

