-- ==== Sys2Proof/Machine/Hash.lean ====
section
/-! DEFINITION. The checks of the boot image (R487 to R489) and of the SPI frames (R443): SHA-256 (FIPS 180-4), the verification of
an ECDSA signature over curve P-256 (FIPS 186-5), CRC-16. Byte strings are big-endian. -/

namespace Sys2Proof.Machine

/-! ### CRC-16 (R443) -/

/-- One bit of the CRC-16 with polynomial 0x1021, most significant bit first. -/
def crc16Bit (c : Nat) : Nat := if 0x8000 ≤ c then Nat.xor (c * 2 % 65536) 0x1021 else c * 2

/-- One byte of the CRC-16. -/
def crc16Byte (c : Nat) (b : Byte) : Nat :=
  crc16Bit (crc16Bit (crc16Bit (crc16Bit (crc16Bit (crc16Bit (crc16Bit (crc16Bit (Nat.xor c (b.toNat * 256)))))))))

/-- CRC-16 over bytes: initial value 0xFFFF, no reflection, no final XOR. -/
def crc16 (bs : List Byte) : Nat := bs.foldl crc16Byte 0xFFFF

/-! ### Byte strings -/

/-- A number from bytes, the first the most significant. -/
def natBE (l : List Byte) : Nat := l.foldl (fun n b => 256 * n + b.toNat) 0

/-- A number as `n` bytes, the most significant first. -/
def bytesBE (n v : Nat) : List Byte := (bytesOfNat n v).reverse

/-! ### SHA-256 -/

/-- A divisor from 2 to below `n` is missing. -/
def isPrime (n : Nat) : Bool := decide (1 < n) && (List.range n).all fun q => decide (q < 2) || n % q != 0

/-- The integer `e`-th root of a number, over `bits` bits of it, from `r` upward. -/
def rootBits (e : Nat) : Nat → Nat → Nat → Nat
  | 0, _, r => r
  | b + 1, n, r => rootBits e b n (if (r + 2 ^ b) ^ e ≤ n then r + 2 ^ b else r)

/-- The first 32 bits of the fraction of the `e`-th root of a prime, as FIPS 180-4 forms its constants. -/
def rootFraction (e p : Nat) : Word := BitVec.ofNat 32 (rootBits e 40 (p * 2 ^ (32 * e)) 0)

/-- The round constants: of the cube roots of the first 64 primes. -/
def shaK : List Word := ((List.range 312).filter isPrime).map (rootFraction 3)

/-- The initial hash value: of the square roots of the first 8 primes. -/
def shaInit : List Word := ((List.range 20).filter isPrime).map (rootFraction 2)

/-- A word turned right by each of three counts, the results added bit by bit. -/
def turns (x : Word) (i j k : Nat) : Word := x.rotateRight i ^^^ x.rotateRight j ^^^ x.rotateRight k

/-- One round on the eight working words, with its constant and its schedule word added in `kw`. -/
def shaRound (kw : Word) (v : List Word) : List Word :=
  let x (i : Nat) : Word := nthD 0 v i
  let chosen := (x 4 &&& x 5) ||| (~~~ (x 4) &&& x 6)
  let most := (x 0 &&& (x 1 ||| x 2)) ||| (x 1 &&& x 2)
  let add1 := x 7 + turns (x 4) 6 11 25 + chosen + kw
  (add1 + turns (x 0) 2 13 22 + most) :: v.take 3 ++ (x 3 + add1) :: (v.drop 4).take 3

/-- The schedule word after sixteen of them, oldest first. -/
def shaNext (l : List Word) : Word :=
  let mix (x : Word) (i j k : Nat) : Word := x.rotateRight i ^^^ x.rotateRight j ^^^ x >>> k
  mix (nthD 0 l 14) 17 19 10 + nthD 0 l 9 + mix (nthD 0 l 1) 7 18 3 + nthD 0 l 0

/-- One block of sixteen words: a round for each constant, the schedule going on beside it, then the sum with what came in. -/
def shaBlock (v l : List Word) : List Word :=
  let run := shaK.foldl (fun (s : List Word × List Word) k =>
    (shaRound (k + nthD 0 s.2 0) s.1, s.2.drop 1 ++ [shaNext s.2])) (v, l)
  (v.zip run.1).map fun (p : Word × Word) => p.1 + p.2

/-- Words from bytes, most significant byte first. -/
def wordsBE : List Byte → List Word
  | a :: b :: c :: d :: r => BitVec.ofNat 32 (natBE [a, b, c, d]) :: wordsBE r
  | _ => []

/-- A message with its padding: a one bit, zeros, the length in bits. -/
def shaPad (bs : List Byte) : List Byte :=
  let n := bs.length
  bs ++ 0x80 :: List.replicate ((119 - n % 64) % 64) 0 ++ bytesBE 8 (8 * n)

/-- The SHA-256 digest of a message: 32 bytes. -/
def sha256 (bs : List Byte) : List Byte :=
  let p := wordsBE (shaPad bs)
  ((List.range (p.length / 16)).foldl (fun v i => shaBlock v ((p.drop (16 * i)).take 16)) shaInit).flatMap fun w => bytesBE 4 w.toNat

/-! ### P-256 -/

/-- The field's prime, the group's order, the curve's constant term, and the base point. -/
def p256P : Nat := 0xffffffff00000001000000000000000000000000ffffffffffffffffffffffff
def p256N : Nat := 0xffffffff00000000ffffffffffffffffbce6faada7179e84f3b9cac2fc632551
def p256B : Nat := 0x5ac635d8aa3a93e7b3ebbd55769886bc651d06b0cc53b0f63bce3c3e27d2604b
def p256Gx : Nat := 0x6b17d1f2e12c4247f8bce6e563a440f277037d812deb33a0f4a13945d898c296
def p256Gy : Nat := 0x4fe342e2fe1a7f9b8ee7eb4a7c0f9e162bce33576b315ececbb6406837bf51f5

/-- A power modulo `m`, over the bits of the exponent, `fuel` of them. -/
def powMod (m : Nat) : Nat → Nat → Nat → Nat
  | 0, _, _ => 1
  | fuel + 1, x, e =>
    let r := powMod m fuel (x * x % m) (e / 2)
    if e % 2 = 1 then x * r % m else r

/-- The inverse modulo a 256-bit prime. -/
def invMod (m x : Nat) : Nat := powMod m 256 (x % m) (m - 2)

/-- The difference modulo `m` of two reduced numbers. -/
def subMod (m x y : Nat) : Nat := (x + m - y) % m

/-- A point of the curve; none is the point at infinity. -/
abbrev Point := Option (Nat × Nat)

/-- The chord or tangent with slope `l` through two points. -/
def p256Chord (l x1 y1 x2 : Nat) : Point :=
  let x := subMod p256P (subMod p256P (l * l % p256P) x1) x2
  some (x, subMod p256P (l * subMod p256P x1 x % p256P) y1)

/-- The sum of two points. -/
def p256Add (a b : Point) : Point :=
  match a, b with
  | none, q => q
  | q, none => q
  | some (x1, y1), some (x2, y2) =>
    if x1 = x2 then
      if y1 = y2 ∧ y1 ≠ 0 then
        p256Chord ((3 * x1 * x1 + p256P - 3) % p256P * invMod p256P (2 * y1) % p256P) x1 y1 x2
      else none
    else p256Chord (subMod p256P y2 y1 * invMod p256P (subMod p256P x2 x1) % p256P) x1 y1 x2

/-- A multiple of a point, over the bits of the factor, `fuel` of them. -/
def p256Mul : Nat → Nat → Point → Point
  | 0, _, _ => none
  | fuel + 1, k, q =>
    let r := p256Mul fuel (k / 2) (p256Add q q)
    if k % 2 = 1 then p256Add q r else r

/-- Whether a pair of coordinates is a point of the curve. -/
def p256On (x y : Nat) : Bool :=
  decide (x < p256P) && decide (y < p256P) && y * y % p256P == (x * x * x + (p256P - 3) * x + p256B) % p256P

/-- The verification of a signature (r, then s) of a digest by a public key (X, then Y). -/
def ecdsaOk (key sig digest : List Byte) : Bool :=
  let x := natBE (key.take 32)
  let y := natBE (key.drop 32)
  let r := natBE (sig.take 32)
  let s := natBE (sig.drop 32)
  let w := invMod p256N s
  let u1 := natBE digest * w % p256N
  let u2 := r * w % p256N
  p256On x y && decide (0 < r) && decide (r < p256N) && decide (0 < s) && decide (s < p256N) &&
    (match p256Add (p256Mul 256 u1 (some (p256Gx, p256Gy))) (p256Mul 256 u2 (some (x, y))) with
    | some (v, _) => v % p256N == r
    | none => false)

end Sys2Proof.Machine
end

