-- ==== Sys2Proof/Machine/Num.lean ====
section
/-! DEFINITION. Exact numbers: fractions, powers of two, roots, and the roundings the spec names (R14, R91, R125, R201). -/

namespace Sys2Proof.Machine

/-- A fraction; a zero denominator stands for no number. -/
structure Frac where
  num : Int := 0
  den : Nat := 1
  deriving DecidableEq, Repr

/-- An operand: its value (counts where it is an angle), its exponent, whether it is in angle form (R198, R246). -/
structure Opd where
  x : Frac := {}
  e : Int := 0
  ang : Bool := false
  deriving DecidableEq, Repr

/-- The quotient of two integers, to the nearest integer, ties away from zero (R91, R125, R201). -/
def roundDiv (n : Int) (d : Nat) : Int :=
  if d = 0 then 0
  else
    let q : Nat := (2 * n.natAbs + d) / (2 * d)
    if n < 0 then -(q : Int) else (q : Int)

def Frac.ofInt (x : Int) : Frac := ⟨x, 1⟩

/-- 2 to an integer power. -/
def pow2 (k : Int) : Frac := if k < 0 then ⟨1, 2 ^ (-k).toNat⟩ else ⟨2 ^ k.toNat, 1⟩

def Frac.mul (a b : Frac) : Frac := ⟨a.num * b.num, a.den * b.den⟩
def Frac.add (a b : Frac) : Frac := ⟨a.num * b.den + b.num * a.den, a.den * b.den⟩
def Frac.neg (a : Frac) : Frac := ⟨-a.num, a.den⟩
def Frac.sub (a b : Frac) : Frac := a.add b.neg

/-- The quotient; by zero it has a zero denominator. -/
def Frac.div (a b : Frac) : Frac :=
  ⟨if b.num < 0 then -(a.num * b.den) else a.num * b.den, a.den * b.num.natAbs⟩

def Frac.lt (a b : Frac) : Bool := decide (a.num * b.den < b.num * a.den)
def Frac.le (a b : Frac) : Bool := decide (a.num * b.den ≤ b.num * a.den)
def Frac.isZero (a : Frac) : Bool := decide (a.num = 0)
def Frac.abs (a : Frac) : Frac := ⟨(a.num.natAbs : Int), a.den⟩
def Frac.min (a b : Frac) : Frac := if a.le b then a else b
def Frac.max (a b : Frac) : Frac := if a.le b then b else a
def Frac.clamp (lo hi x : Frac) : Frac := if x.lt lo then lo else if hi.lt x then hi else x

/-- A fraction times 2 to an integer power. -/
def Frac.shl (a : Frac) (k : Int) : Frac := a.mul (pow2 k)

/-- The nearest integer, ties away from zero. -/
def Frac.round (a : Frac) : Int := roundDiv a.num a.den

/-- The greatest integer not above. -/
def Frac.floor (a : Frac) : Int := a.num / (a.den : Int)

/-- Bits of an integer square root, the highest first. -/
def isqrtBits : Nat → Nat → Nat → Nat
  | 0, _, r => r
  | b + 1, n, r => if (r + 2 ^ b) * (r + 2 ^ b) ≤ n then isqrtBits b n (r + 2 ^ b) else isqrtBits b n r

/-- The integer square root. -/
def isqrt (n : Nat) : Nat := isqrtBits (n.log2 / 2 + 1) n 0

/-! ### BF20 (R14, R15) -/

/-- The limits of a mantissa. -/
def mantMin : Int := -(2 ^ 19)
def mantMax : Int := 2 ^ 19 - 1

/-- A mantissa bounded to its limits; whether it was outside. -/
def boundMant (m : Int) : Int × Bool := (clampI mantMin mantMax m, decide (m < mantMin) || decide (m > mantMax))

/-- The value a mantissa denotes at an exponent (R14). -/
def bfVal (m e : Int) : Frac := (Frac.ofInt m).shl (e - 19)

/-- A value as a mantissa at a fixed exponent, rounded once and bounded. -/
def mantOf (x : Frac) (e : Int) : Int × Bool := boundMant ((x.shl (19 - e)).round)

/-- The mantissa a register word holds (R15): bits 19:0. -/
def mantW (w : Word) : Int := sext 20 w.toNat

/-- A register word that holds a mantissa sign-extended (R15). -/
def wordMant (m : Int) : Word := wordOfInt m

end Sys2Proof.Machine
end

