-- ==== Sys2Proof/Machine/Crc.lean ====
section
/-! DEFINITION. The device's CRC-32C (R30). -/

namespace Sys2Proof.Machine

/-- One bit of the reflected CRC-32C with polynomial 0x1EDC6F41 (R30). -/
def crc32cBit (c : Nat) : Nat := if c % 2 = 1 then Nat.xor (c / 2) 0x82F63B78 else c / 2

/-- One byte of the CRC-32C. -/
def crc32cByte (c : Nat) (b : Byte) : Nat :=
  crc32cBit (crc32cBit (crc32cBit (crc32cBit (crc32cBit (crc32cBit (crc32cBit (crc32cBit (Nat.xor c b.toNat))))))))

/-- CRC-32C over bytes: initial value and final XOR 0xFFFFFFFF (R30). -/
def crc32c (bs : List Byte) : Word := BitVec.ofNat 32 (Nat.xor (bs.foldl crc32cByte 0xFFFFFFFF) 0xFFFFFFFF)

/-- CRC-32C over words, each least significant byte first (R30). -/
def crc32cWords (ws : List Word) : Word := crc32c (ws.flatMap bytesOfWord)

end Sys2Proof.Machine
end

