-- ==== Sys2Proof/Config.lean ====
section
/-! DEFINITION. What is fixed for one device and what the spec leaves open: the family member, and the free values. A free
value is a constant without a body: nothing can evaluate it, and a claim about it holds for every value. -/

namespace Sys2Proof

/-- The members of the Ehrestair family (R3, R513). -/
inductive Member where
  | ehz1208 | ehz0804 | ehz0402 | ehz0102
  deriving DecidableEq, Repr

/-- A word the spec leaves open, one for each count of the model's own counter (log entry 3, DESIGN CHOICE). -/
opaque Config.freeWord : Nat → Word

/-- Where the converters' reference voltage lies within its limits (R504): fixed for one device, its value is open (log entry 328). -/
opaque Config.vrefaPlace : Nat

/-- The converters' reference voltage VREFA in microvolts (R140, R504): between 2.997 V and 3.003 V. -/
def Config.vrefa : Nat := 2997000 + Config.vrefaPlace % 6001

/-- What the control word of a CAN buffer asks of its frame (R435, R436), whose layout the spec does not give: 0 a classical frame, 1 a CAN
FD frame, any other number one with bit-rate switching (log entry 260, DESIGN CHOICE). -/
opaque Config.canForm : Word → Nat

/-- Whether the boot flash that is fitted offers the 8D-8D-8D mode in its SFDP tables (R446; log entry 125, DESIGN CHOICE). -/
opaque Config.flashOctal : Bool

/-- The mid voltage V_mid of the excitation outputs in microvolts, half of VEXC (R178, 6.0 V typical): fixed for one device,
its value is open (log entry 308). -/
opaque Config.vmid : Int

/-- The SPD32 speed that stands for a product of a source's speed and PP outside the SPD32 range, which R60 does not state
(log entry 290, DESIGN CHOICE). -/
opaque Config.speedOver : Int → Word

/-- The station address of an Ethernet port, 48 bits (R438): the spec gives no place that holds it (log entry 327). -/
opaque Config.stationAddr : Nat → Nat

end Sys2Proof
end

