-- ==== Sys2Proof/Machine/RegMap.lean ====
section
/-! DEFINITION. The register map of the spec (R11, R13, R26, R45, R52 and the register tables R71 to R495): for every
register its address, its fields (bits, access type, reset), block by block. -/

namespace Sys2Proof.Machine

/-- The register blocks of the page map (R45). Traction and auxiliary PWM pages share one layout (R295). -/
inductive Block where
  | sysB
  | capB
  | clkB
  | pwrB
  | rstB
  | secB
  | evtB
  | mbxB
  | lckB
  | winB
  | tlB
  | tlsB
  | trkB
  | adaB
  | adbB
  | accB
  | mmxB
  | cmpB
  | posB
  | emuB
  | excB
  | lecB
  | leB
  | pwtB
  | pwaB
  | pwgB
  | gdtB
  | gdaB
  | safeB
  | tmonB
  | spbB
  | rgaB
  | rgbB
  | sfxB
  | canB
  | ethB
  | pcieB
  | spitB
  | xspiB
  | ddrB
  | recB
  | rplB
  | dmpB
  | dbgB
  | ctxB
  deriving DecidableEq, Repr

/-- Access types of R24. `w1n` is a W1C counter: writing 1 to its lowest bit clears the whole of it (the register tables say
so field by field). -/
inductive Access where
  | rw | ro | wo | w1c | w1n | w1s | rwc | rwm | rwk
  deriving DecidableEq, Repr

/-- A field of a register: its bits, its access type and its reset value. -/
structure FieldDef where
  f : RField
  acc : Access
  rst : Nat
  deriving DecidableEq, Repr

/-- A register, or an array of registers: first offset in the page, stride and number of its two indices, fields. -/
structure RegDef where
  base : Nat
  s1 : Nat
  n1 : Nat
  s2 : Nat
  n2 : Nat
  flds : List FieldDef
  deriving DecidableEq, Repr

/-- The page map (R45): first page, number of pages, block. -/
def pageMap : List (Nat × Nat × Block) :=
  [ (0x000, 1, .sysB), (0x001, 1, .capB), (0x002, 1, .clkB), (0x003, 1, .pwrB),
    (0x004, 1, .rstB), (0x005, 1, .secB), (0x008, 4, .evtB), (0x010, 1, .mbxB),
    (0x011, 1, .lckB), (0x012, 1, .winB), (0x020, 1, .tlB), (0x021, 4, .tlsB),
    (0x028, 1, .trkB), (0x030, 1, .adaB), (0x031, 1, .adbB), (0x032, 6, .accB),
    (0x038, 2, .mmxB), (0x040, 2, .cmpB), (0x048, 12, .posB), (0x054, 1, .emuB),
    (0x055, 1, .excB), (0x060, 1, .lecB), (0x061, 8, .leB), (0x080, 12, .pwtB) ]
  ++ [ (0x08C, 8, .pwaB), (0x094, 1, .pwgB), (0x098, 1, .gdtB), (0x099, 1, .gdaB),
    (0x0A0, 1, .safeB), (0x0A1, 1, .tmonB), (0x0A2, 1, .spbB), (0x0A8, 1, .rgaB),
    (0x0A9, 1, .rgbB), (0x0AA, 1, .sfxB), (0x0B0, 8, .canB), (0x0B8, 2, .ethB),
    (0x0BA, 1, .pcieB), (0x0BB, 1, .spitB), (0x0BC, 1, .xspiB), (0x0BD, 1, .ddrB),
    (0x0C0, 1, .recB), (0x0C1, 1, .rplB), (0x0C2, 1, .dmpB), (0x0F0, 1, .dbgB),
    (0x100, 24, .ctxB) ]

/-- Address of the first byte of page `n` (R45). -/
def pageBase (n : Nat) : Nat := 0x40000000 + 0x1000 * n

/-! Field constants: `F.<REGISTER>_<FIELD>`, the bits as the spec numbers them. -/
def F.SYS_ABSENT_CNT_ABSENT_WR : RField := ⟨31, 31⟩
def F.SYS_ABSENT_CNT_LAST_PAGE : RField := ⟨24, 16⟩
def F.SYS_ABSENT_CNT_COUNT : RField := ⟨15, 0⟩
def F.CAP_GROUPS_POS : RField := ⟨31, 24⟩
def F.CAP_GROUPS_LE : RField := ⟨23, 16⟩
def F.CAP_GROUPS_AUX : RField := ⟨15, 8⟩
def F.CAP_GROUPS_TRACTION : RField := ⟨7, 0⟩
def F.CAP_RES_AIN : RField := ⟨31, 24⟩
def F.CAP_RES_SDD : RField := ⟨23, 16⟩
def F.CAP_RES_CMP : RField := ⟨15, 8⟩
def F.CAP_RES_CTX : RField := ⟨7, 0⟩
def F.CAP_ACC_MMX : RField := ⟨31, 16⟩
def F.CAP_ACC_ACC : RField := ⟨15, 0⟩
def F.CAP_UNITS_TRACKS : RField := ⟨23, 16⟩
def F.CAP_UNITS_DDR : RField := ⟨3, 3⟩
def F.CAP_UNITS_RGB : RField := ⟨2, 2⟩
def F.CAP_UNITS_RGA : RField := ⟨1, 1⟩
def F.CAP_UNITS_PCIE : RField := ⟨0, 0⟩
def F.CAP_REC_REC_KIB : RField := ⟨31, 0⟩
def F.PG_LOCK_KEY_MID : RField := ⟨7, 4⟩
def F.PG_LOCK_KEY_ERR : RField := ⟨2, 2⟩
def F.PG_LOCK_KEY_OPEN : RField := ⟨1, 1⟩
def F.PG_LOCK_CLOCKED : RField := ⟨0, 0⟩
def F.SYS_STATE_LINK_OK : RField := ⟨17, 17⟩
def F.SYS_STATE_CAUSE_VALID : RField := ⟨16, 16⟩
def F.SYS_STATE_CAUSE : RField := ⟨15, 8⟩
def F.SYS_STATE_PREV : RField := ⟨7, 4⟩
def F.SYS_STATE_STATE : RField := ⟨3, 0⟩
def F.SLOT_TRIG_ARMED : RField := ⟨31, 31⟩
def F.SLOT_TRIG_REARM : RField := ⟨30, 30⟩
def F.SLOT_TRIG_TYPE : RField := ⟨29, 28⟩
def F.SLOT_TRIG_DIR : RField := ⟨27, 26⟩
def F.SLOT_TRIG_SRC : RField := ⟨25, 21⟩
def F.SLOT_TRIG_CEVT : RField := ⟨20, 19⟩
def F.SLOT_TRIG_CDIV : RField := ⟨18, 15⟩
def F.SLOT_TRIG_TGT_ABSENT : RField := ⟨12, 12⟩
def F.SLOT_TRIG_SKIPPED : RField := ⟨11, 11⟩
def F.SLOT_TRIG_FIRED : RField := ⟨10, 10⟩
def F.SLOT_ARG_ARG : RField := ⟨31, 0⟩
def F.SLOT_ACT_ACTION : RField := ⟨31, 28⟩
def F.SLOT_ACT_TARGET : RField := ⟨27, 18⟩
def F.SLOT_ACT_SPAN : RField := ⟨17, 15⟩
def F.SLOT_ACT_PARAM : RField := ⟨14, 8⟩
def F.SLOT_ACT_REC_FIRE : RField := ⟨7, 7⟩
def F.TL_CTRL_SYNC_PORT : RField := ⟨1, 1⟩
def F.TL_CTRL_SYNC_EN : RField := ⟨0, 0⟩
def F.TL_GTC_LO_GTC_LO : RField := ⟨31, 0⟩
def F.TL_GTC_HI_GTC_HI : RField := ⟨31, 0⟩
def F.TL_RATE_RATE : RField := ⟨31, 0⟩
def F.TL_VT_OFS_LO_OFS_LO : RField := ⟨31, 0⟩
def F.TL_VT_OFS_HI_OFS_HI : RField := ⟨31, 0⟩
def F.TL_SYNC_STAT_LOCKED : RField := ⟨31, 31⟩
def F.TL_SYNC_STAT_HOLDOVER : RField := ⟨30, 30⟩
def F.TL_SYNC_STAT_ERR : RField := ⟨15, 0⟩
def F.TL_ZS_INFO_KIND : RField := ⟨31, 28⟩
def F.TL_ZS_INFO_COUNT : RField := ⟨27, 16⟩
def F.TL_ZS_INFO_RESOURCE : RField := ⟨15, 0⟩
def F.TL_LAST_SKIP_COUNT : RField := ⟨31, 16⟩
def F.TL_LAST_SKIP_SLOT : RField := ⟨9, 0⟩
def F.TL_TRK_FLAG_TRACK : RField := ⟨23, 0⟩
def F.TL_SLOT_CLAIM_RESULT : RField := ⟨17, 16⟩
def F.TL_SLOT_CLAIM_OWNER : RField := ⟨3, 0⟩
def F.TRK_CFG_SRC : RField := ⟨31, 27⟩
def F.TRK_CFG_CTX : RField := ⟨23, 16⟩
def F.TRK_CFG_PP : RField := ⟨9, 5⟩
def F.TRK_CFG_INV : RField := ⟨4, 4⟩
def F.TRK_TOL_SLEW_TOL : RField := ⟨19, 0⟩
def F.TRK_JUMP_JUMP_LIM : RField := ⟨19, 0⟩
def F.TRK_SLEWMAX_SLEW_MAX : RField := ⟨31, 0⟩
def F.TRK_STALE_STALE : RField := ⟨31, 0⟩
def F.TRK_ANG_FRAC : RField := ⟨31, 20⟩
def F.TRK_ANG_ANG : RField := ⟨19, 0⟩
def F.TRK_SPD_SPD : RField := ⟨31, 0⟩
def F.TRK_STAT_VALID : RField := ⟨31, 31⟩
def F.TRK_STAT_STALE : RField := ⟨30, 30⟩
def F.TRK_STAT_STOPPED : RField := ⟨29, 29⟩
def F.TRK_STAT_DIR : RField := ⟨28, 28⟩
def F.TRK_STAT_SLEWING : RField := ⟨27, 27⟩
def F.TRK_STAT_UNCERT : RField := ⟨26, 26⟩
def F.TRK_STAT_LAST_ERR : RField := ⟨19, 0⟩
def F.TRK_CLAIM_RESULT : RField := ⟨17, 16⟩
def F.TRK_CLAIM_OWNER : RField := ⟨3, 0⟩
def F.ADA_CTRL_OW_EN : RField := ⟨1, 1⟩
def F.ADA_CTRL_ROT_EN : RField := ⟨0, 0⟩
def F.ADA_ROT_CFG_OVL : RField := ⟨31, 26⟩
def F.ADA_ROT_CFG_INTV : RField := ⟨23, 0⟩
def F.ADA_ROT_TOL_MAX : RField := ⟨31, 16⟩
def F.ADA_ROT_TOL_MEAN : RField := ⟨15, 0⟩
def F.ADA_CAL_CFG_SPARE_MIN : RField := ⟨27, 24⟩
def F.ADA_CAL_CFG_CAL_MAX : RField := ⟨23, 0⟩
def F.ADA_ROT_STAT_LAST_L : RField := ⟨31, 24⟩
def F.ADA_ROT_STAT_FAILED : RField := ⟨17, 12⟩
def F.ADA_ROT_STAT_SPARES : RField := ⟨11, 8⟩
def F.ADA_ROT_STAT_PTR : RField := ⟨5, 0⟩
def F.ADA_OW_OPEN_OPEN : RField := ⟨31, 0⟩
def F.ADA_OW_INC_INC : RField := ⟨31, 0⟩
def F.ADA_SEQ_LEN : RField := ⟨29, 28⟩
def F.ADA_SEQ_IN3 : RField := ⟨27, 21⟩
def F.ADA_SEQ_IN2 : RField := ⟨20, 14⟩
def F.ADA_SEQ_IN1 : RField := ⟨13, 7⟩
def F.ADA_SEQ_IN0 : RField := ⟨6, 0⟩
def F.ADA_LCFG_EN : RField := ⟨31, 31⟩
def F.ADA_LCFG_PHASE : RField := ⟨5, 0⟩
def F.ADA_LCLAIM_RESULT : RField := ⟨17, 16⟩
def F.ADA_LCLAIM_OWNER : RField := ⟨3, 0⟩
def F.ADA_LSTAT_SEQ_RESULT : RField := ⟨31, 30⟩
def F.ADA_LSTAT_CONF_L : RField := ⟨29, 24⟩
def F.ADA_LSTAT_CONF_IN : RField := ⟨22, 16⟩
def F.ADA_LSTAT_CAL_STALE : RField := ⟨9, 9⟩
def F.ADA_LSTAT_FORCED : RField := ⟨8, 8⟩
def F.ADA_LSTAT_PSL : RField := ⟨5, 0⟩
def F.ADA_OW_CFG_THR : RField := ⟨31, 24⟩
def F.ADA_OW_CFG_RECOVER : RField := ⟨23, 16⟩
def F.ADA_OW_CFG_SETTLE : RField := ⟨15, 8⟩
def F.ADA_OW_CFG_CUR : RField := ⟨2, 2⟩
def F.ADA_OW_CFG_MODE : RField := ⟨1, 0⟩
def F.ADA_PSL_GAIN_ERR : RField := ⟨31, 24⟩
def F.ADA_PSL_OFS : RField := ⟨21, 12⟩
def F.ADA_PSL_FAIL_CAUSE : RField := ⟨11, 10⟩
def F.ADA_PSL_LSL : RField := ⟨9, 4⟩
def F.ADA_PSL_STATE : RField := ⟨2, 0⟩
def F.ADB_CLK_EN : RField := ⟨31, 31⟩
def F.ADB_CLK_DIV : RField := ⟨5, 0⟩
def F.ADB_CFG_STUCK_N : RField := ⟨7, 0⟩
def F.ADB_CH_CFG_EN : RField := ⟨31, 31⟩
def F.ADB_CH_CFG_CLK : RField := ⟨27, 24⟩
def F.ADB_CH_CFG_EDGE : RField := ⟨23, 23⟩
def F.ADB_CH_CFG_DLY : RField := ⟨21, 16⟩
def F.ADB_CH_CFG_FAST_OSR : RField := ⟨15, 10⟩
def F.ADB_CH_CFG_ACC_COPY : RField := ⟨9, 9⟩
def F.ADB_CH_CFG_OSR : RField := ⟨8, 0⟩
def F.ADB_CH_OVR_LO : RField := ⟨31, 16⟩
def F.ADB_CH_OVR_HI : RField := ⟨15, 0⟩
def F.ADB_CH_STAT_RUN : RField := ⟨31, 31⟩
def F.ADB_CH_STAT_OVR : RField := ⟨2, 2⟩
def F.ADB_CH_STAT_CLIP : RField := ⟨1, 1⟩
def F.ADB_CH_STAT_STUCK : RField := ⟨0, 0⟩
def F.ACC_FLAG_ACC : RField := ⟨31, 0⟩
def F.ACC_CFG_MODE : RField := ⟨31, 30⟩
def F.ACC_CFG_SRC_KIND : RField := ⟨29, 29⟩
def F.ACC_CFG_SRC : RField := ⟨28, 22⟩
def F.ACC_CFG_OW_ACC : RField := ⟨21, 21⟩
def F.ACC_CFG_EXC : RField := ⟨20, 19⟩
def F.ACC_CFG_NMIN : RField := ⟨15, 0⟩
def F.ACC_GAIN_GAIN : RField := ⟨31, 0⟩
def F.ACC_OFS_OFS : RField := ⟨16, 0⟩
def F.ACC_EXP_SGN_DLY : RField := ⟨31, 24⟩
def F.ACC_EXP_RES1_EXP : RField := ⟨21, 16⟩
def F.ACC_EXP_RES0_EXP : RField := ⟨13, 8⟩
def F.ACC_EXP_GAIN_EXP : RField := ⟨5, 0⟩
def F.ACC_RES0_RES0 : RField := ⟨31, 0⟩
def F.ACC_RES1_RES1 : RField := ⟨31, 0⟩
def F.ACC_CNT_SEQ : RField := ⟨31, 24⟩
def F.ACC_CNT_N : RField := ⟨23, 0⟩
def F.ACC_STAT_OPEN : RField := ⟨31, 31⟩
def F.ACC_STAT_PEND : RField := ⟨30, 30⟩
def F.ACC_STAT_LOST : RField := ⟨23, 16⟩
def F.ACC_STAT_OVF : RField := ⟨4, 4⟩
def F.ACC_STAT_SHORT : RField := ⟨3, 3⟩
def F.ACC_STAT_EMPTY : RField := ⟨2, 2⟩
def F.ACC_STAT_SAT1 : RField := ⟨1, 1⟩
def F.ACC_STAT_SAT0 : RField := ⟨0, 0⟩
def F.ACC_CLAIM_RESULT : RField := ⟨17, 16⟩
def F.ACC_CLAIM_OWNER : RField := ⟨3, 0⟩
def F.MMX_FLAG_TRK : RField := ⟨31, 0⟩
def F.MMX_CFG_EN : RField := ⟨31, 31⟩
def F.MMX_CFG_HOLD : RField := ⟨30, 30⟩
def F.MMX_CFG_LINK : RField := ⟨28, 20⟩
def F.MMX_CFG_LIM_EN : RField := ⟨1, 1⟩
def F.MMX_MIN_MIN : RField := ⟨31, 0⟩
def F.MMX_MAX_MAX : RField := ⟨31, 0⟩
def F.MMX_STAT_CLR : RField := ⟨31, 31⟩
def F.MMX_STAT_LO_HIT : RField := ⟨3, 3⟩
def F.MMX_STAT_HI_HIT : RField := ⟨2, 2⟩
def F.MMX_STAT_EMPTY : RField := ⟨1, 1⟩
def F.MMX_STAT_SAT : RField := ⟨0, 0⟩
def F.MMX_LIM_HI_LIM_HI : RField := ⟨31, 0⟩
def F.MMX_LIM_LO_LIM_LO : RField := ⟨31, 0⟩
def F.MMX_CLAIM_RESULT : RField := ⟨17, 16⟩
def F.MMX_CLAIM_OWNER : RField := ⟨3, 0⟩
def F.CMP_FLAG0_CMP : RField := ⟨31, 0⟩
def F.CMP_FLAG1_CMP : RField := ⟨3, 0⟩
def F.CMP_CFG_EN : RField := ⟨31, 31⟩
def F.CMP_CFG_CLASS : RField := ⟨30, 30⟩
def F.CMP_CFG_MODE : RField := ⟨29, 27⟩
def F.CMP_CFG_HYST : RField := ⟨26, 25⟩
def F.CMP_CFG_HI_EN : RField := ⟨24, 24⟩
def F.CMP_CFG_LO_EN : RField := ⟨23, 23⟩
def F.CMP_CFG_OWMASK : RField := ⟨22, 22⟩
def F.CMP_CFG_REC_LIM : RField := ⟨21, 21⟩
def F.CMP_CFG_REL_N : RField := ⟨19, 16⟩
def F.CMP_CFG_INSEL : RField := ⟨6, 0⟩
def F.CMP_THR_HI : RField := ⟨25, 16⟩
def F.CMP_THR_LO : RField := ⟨9, 0⟩
def F.CMP_RAMP_RAMP_EN : RField := ⟨31, 31⟩
def F.CMP_RAMP_CEVT : RField := ⟨30, 29⟩
def F.CMP_RAMP_GRP : RField := ⟨28, 24⟩
def F.CMP_RAMP_FLOOR : RField := ⟨23, 14⟩
def F.CMP_RAMP_SLOPE : RField := ⟨11, 0⟩
def F.CMP_ROUTE_SW_SEL : RField := ⟨31, 30⟩
def F.CMP_ROUTE_LEGS : RField := ⟨26, 24⟩
def F.CMP_ROUTE_GROUPS : RField := ⟨19, 0⟩
def F.CMP_BLANK_AUTO_EN : RField := ⟨31, 31⟩
def F.CMP_BLANK_AUTO_GRP : RField := ⟨28, 24⟩
def F.CMP_BLANK_AUTO_LEN : RField := ⟨11, 0⟩
def F.CMP_STRB_DIV : RField := ⟨15, 0⟩
def F.CMP_STAT_CLR : RField := ⟨31, 31⟩
def F.CMP_STAT_CLR_FAIL : RField := ⟨30, 30⟩
def F.CMP_STAT_START_LATE : RField := ⟨29, 29⟩
def F.CMP_STAT_TRIP_CNT : RField := ⟨23, 8⟩
def F.CMP_STAT_LAST_LO : RField := ⟨5, 5⟩
def F.CMP_STAT_BLANKED : RField := ⟨4, 4⟩
def F.CMP_STAT_STARTING : RField := ⟨3, 3⟩
def F.CMP_STAT_BLANK_CAPPED : RField := ⟨2, 2⟩
def F.CMP_STAT_LATCHED : RField := ⟨1, 1⟩
def F.CMP_STAT_OUT : RField := ⟨0, 0⟩
def F.CMP_CLAIM_RESULT : RField := ⟨17, 16⟩
def F.CMP_CLAIM_OWNER : RField := ⟨3, 0⟩
def F.POS_CFG_MODE : RField := ⟨31, 29⟩
def F.POS_CFG_ELEC : RField := ⟨28, 28⟩
def F.POS_CFG_INV : RField := ⟨27, 27⟩
def F.POS_CFG_IDX_EN : RField := ⟨26, 26⟩
def F.POS_CFG_DECAY_EN : RField := ⟨24, 24⟩
def F.POS_CFG_FILT : RField := ⟨23, 16⟩
def F.POS_CFG_UPD_MIN : RField := ⟨15, 0⟩
def F.POS_LINES_LINES : RField := ⟨16, 0⟩
def F.POS_SPD_CFG_SPD_M : RField := ⟨31, 24⟩
def F.POS_SPD_CFG_ZS : RField := ⟨23, 0⟩
def F.POS_OFS_OFS : RField := ⟨19, 0⟩
def F.POS_IDX_EXP_EXP : RField := ⟨17, 0⟩
def F.POS_IDX_CTRL_CORR : RField := ⟨31, 31⟩
def F.POS_IDX_CTRL_QUAL : RField := ⟨30, 28⟩
def F.POS_IDX_CTRL_TOL : RField := ⟨15, 0⟩
def F.POS_COUNT_COUNT : RField := ⟨31, 0⟩
def F.POS_IDX_LATCH_LATCH : RField := ⟨31, 0⟩
def F.POS_IDX_DEV_DEV : RField := ⟨31, 0⟩
def F.POS_ANG_ANG : RField := ⟨19, 0⟩
def F.POS_SPD_SPD : RField := ⟨31, 0⟩
def F.POS_STAT_VALID : RField := ⟨31, 31⟩
def F.POS_STAT_UNCERT : RField := ⟨30, 30⟩
def F.POS_STAT_STOPPED : RField := ⟨29, 29⟩
def F.POS_STAT_DIR : RField := ⟨28, 28⟩
def F.POS_STAT_BUSY : RField := ⟨27, 27⟩
def F.POS_STAT_CFG_ERR : RField := ⟨26, 26⟩
def F.POS_STAT_CORRECTED : RField := ⟨25, 25⟩
def F.POS_STAT_IDX_SEEN : RField := ⟨24, 24⟩
def F.POS_STAT_UNC_CLR : RField := ⟨0, 0⟩
def F.POS_ERRCNT_QERR_CNT : RField := ⟨31, 16⟩
def F.POS_ERRCNT_ERR_CNT : RField := ⟨15, 0⟩
def F.POS_SER_CLK_SDLY : RField := ⟨31, 24⟩
def F.POS_SER_CLK_DIV : RField := ⟨15, 0⟩
def F.POS_SER_FMT_BITS : RField := ⟨31, 26⟩
def F.POS_SER_FMT_GRAY : RField := ⟨25, 25⟩
def F.POS_SER_FMT_ERR_EN : RField := ⟨24, 24⟩
def F.POS_SER_FMT_ERR_POL : RField := ⟨23, 23⟩
def F.POS_SER_FMT_ERR_POS : RField := ⟨22, 17⟩
def F.POS_SER_FMT_POS_LSB : RField := ⟨16, 11⟩
def F.POS_SER_FMT_POS_LEN : RField := ⟨10, 5⟩
def F.POS_SER_FMT_TURN_LEN : RField := ⟨4, 0⟩
def F.POS_SER_TIME_LAT : RField := ⟨31, 16⟩
def F.POS_SER_TIME_TOUT : RField := ⟨15, 0⟩
def F.POS_TURNS_TURNS : RField := ⟨31, 0⟩
def F.POS_RES_CFG_ACC_SIN : RField := ⟨24, 16⟩
def F.POS_RES_CFG_ACC_COS : RField := ⟨8, 0⟩
def F.POS_RES_AMP_AMP_HI : RField := ⟨31, 16⟩
def F.POS_RES_AMP_AMP_LO : RField := ⟨15, 0⟩
def F.POS_HALL_MAP : RField := ⟨23, 0⟩
def F.SHD_CFG_EN : RField := ⟨31, 31⟩
def F.SHD_CFG_MODE : RField := ⟨30, 28⟩
def F.SHD_CFG_SRC : RField := ⟨27, 24⟩
def F.SHD_CFG_FILT : RField := ⟨23, 16⟩
def F.SHD_CFG_SDLY : RField := ⟨15, 8⟩
def F.SHD_CFG_IDX_EN : RField := ⟨0, 0⟩
def F.SHD_GEOM_SPD_M : RField := ⟨31, 24⟩
def F.SHD_GEOM_LINES : RField := ⟨16, 0⟩
def F.SHD_OFS_OFS : RField := ⟨19, 0⟩
def F.SHD_RES_SDD_S : RField := ⟨29, 24⟩
def F.SHD_RES_SDD_C : RField := ⟨21, 16⟩
def F.SHD_RES_SDD_E : RField := ⟨13, 8⟩
def F.SHD_ANG_ANG : RField := ⟨19, 0⟩
def F.SHD_SPD_SPD : RField := ⟨31, 0⟩
def F.SHD_STAT_VALID : RField := ⟨31, 31⟩
def F.SHD_STAT_UNCERT : RField := ⟨30, 30⟩
def F.SHD_STAT_STOPPED : RField := ⟨29, 29⟩
def F.SHD_STAT_DIR : RField := ⟨28, 28⟩
def F.SHD_STAT_ERR_CNT : RField := ⟨15, 0⟩
def F.EXC_CFG_EN : RField := ⟨31, 31⟩
def F.EXC_CFG_PER : RField := ⟨16, 0⟩
def F.EXC_AMP_AMP : RField := ⟨7, 0⟩
def F.EXC_STAT_RUN : RField := ⟨31, 31⟩
def F.EXC_STAT_FAULT : RField := ⟨30, 30⟩
def F.EXC_STAT_PHASE : RField := ⟨19, 0⟩
def F.EXC_CLAIM_RESULT : RField := ⟨17, 16⟩
def F.EXC_CLAIM_OWNER : RField := ⟨3, 0⟩
def F.EMU_CFG_EN : RField := ⟨31, 31⟩
def F.EMU_CFG_INV : RField := ⟨30, 30⟩
def F.EMU_CFG_HOLD : RField := ⟨29, 29⟩
def F.EMU_CFG_TRK : RField := ⟨28, 24⟩
def F.EMU_CFG_LINES : RField := ⟨16, 0⟩
def F.EMU_EDGE_LAG_MAX : RField := ⟨31, 16⟩
def F.EMU_EDGE_MIN_EDGE : RField := ⟨15, 0⟩
def F.EMU_STAT_RUN : RField := ⟨31, 31⟩
def F.EMU_STAT_LAGGING : RField := ⟨30, 30⟩
def F.EMU_STAT_OUT : RField := ⟨17, 0⟩
def F.EMU_CLAIM_RESULT : RField := ⟨17, 16⟩
def F.EMU_CLAIM_OWNER : RField := ⟨3, 0⟩
def F.CTX_CTRL_EN : RField := ⟨31, 31⟩
def F.CTX_CTRL_SPEC_EN : RField := ⟨30, 30⟩
def F.CTX_CTRL_TO_ACT : RField := ⟨29, 29⟩
def F.CTX_CTRL_NSTAGE : RField := ⟨27, 24⟩
def F.CTX_CTRL_ENGINE : RField := ⟨22, 20⟩
def F.CTX_TIME_TOUT : RField := ⟨31, 16⟩
def F.CTX_TIME_LATE : RField := ⟨15, 0⟩
def F.CTX_TARGET_DUTY_GRP : RField := ⟨31, 27⟩
def F.CTX_TARGET_PUB : RField := ⟨26, 26⟩
def F.CTX_TARGET_TRK_ELEC : RField := ⟨25, 25⟩
def F.CTX_OMAP_EXP_H : RField := ⟨29, 24⟩
def F.CTX_OMAP_SEL_H : RField := ⟨23, 16⟩
def F.CTX_OMAP_EXP_L : RField := ⟨13, 8⟩
def F.CTX_OMAP_SEL_L : RField := ⟨7, 0⟩
def F.CTX_CMDEXP_CMD3_EXP : RField := ⟨29, 24⟩
def F.CTX_CMDEXP_CMD2_EXP : RField := ⟨21, 16⟩
def F.CTX_CMDEXP_CMD1_EXP : RField := ⟨13, 8⟩
def F.CTX_CMDEXP_CMD0_EXP : RField := ⟨5, 0⟩
def F.CTX_STAT_PENDING : RField := ⟨31, 31⟩
def F.CTX_STAT_RUNNING : RField := ⟨30, 30⟩
def F.CTX_STAT_CFG_ERR : RField := ⟨29, 29⟩
def F.CTX_STAT_CAUSE : RField := ⟨28, 24⟩
def F.CTX_STAT_SPEC_IGN : RField := ⟨23, 23⟩
def F.CTX_STAT_STALE_IN : RField := ⟨22, 22⟩
def F.CTX_STAT_IN_SAT : RField := ⟨21, 21⟩
def F.CTX_STAT_ECC_ERR : RField := ⟨20, 20⟩
def F.CTX_STAT_D : RField := ⟨7, 0⟩
def F.CTX_SAT_LAST : RField := ⟨27, 16⟩
def F.CTX_SAT_STICKY : RField := ⟨11, 0⟩
def F.CTX_RUNS_SEQ : RField := ⟨31, 16⟩
def F.CTX_RUNS_OVERRUN : RField := ⟨15, 11⟩
def F.CTX_RUNS_DROP : RField := ⟨10, 6⟩
def F.CTX_RUNS_TIMEOUT : RField := ⟨5, 0⟩
def F.CTX_LAST_TR : RField := ⟨31, 0⟩
def F.CTX_SD_KIND : RField := ⟨31, 26⟩
def F.CTX_SD_EXP : RField := ⟨25, 20⟩
def F.CTX_SD_EXPMODE : RField := ⟨19, 18⟩
def F.CTX_SD_HEAD : RField := ⟨17, 15⟩
def F.CTX_SD_POOL : RField := ⟨14, 8⟩
def F.CTX_SD_LEN : RField := ⟨7, 3⟩
def F.LEC_CTRL_ENG_EN : RField := ⟨7, 0⟩
def F.LEC_ECC_LAST_CTX : RField := ⟨31, 24⟩
def F.LEC_ECC_UNCORR : RField := ⟨23, 16⟩
def F.LEC_ECC_CORR : RField := ⟨15, 0⟩
def F.LEC_FLAG_CTX : RField := ⟨31, 0⟩
def F.LEC_CTX_CLAIM_RESULT : RField := ⟨17, 16⟩
def F.LEC_CTX_CLAIM_OWNER : RField := ⟨3, 0⟩
def F.LE_STAT_RUN_CTX : RField := ⟨31, 24⟩
def F.LE_STAT_RCP_CTX : RField := ⟨23, 16⟩
def F.LE_STAT_READY : RField := ⟨15, 8⟩
def F.LE_STAT_BOUND : RField := ⟨7, 0⟩
def F.LE_LOAD_NORM : RField := ⟨31, 16⟩
def F.LE_LOAD_RCP : RField := ⟨15, 0⟩
def F.LE_MAXWAIT_CTX : RField := ⟨23, 16⟩
def F.LE_MAXWAIT_MAX : RField := ⟨15, 0⟩
def F.LE_DROP_OVERRUN : RField := ⟨31, 16⟩
def F.LE_DROP_DROP : RField := ⟨15, 0⟩
def F.CTX_SPEC_STATE : RField := ⟨31, 30⟩
def F.CTX_SPEC_SUSP : RField := ⟨29, 29⟩
def F.CTX_SPEC_CMP1 : RField := ⟨28, 28⟩
def F.CTX_SPEC_PW_ERR : RField := ⟨27, 27⟩
def F.CTX_SPEC_OUTCOME : RField := ⟨26, 24⟩
def F.CTX_SPEC_FB_MAX : RField := ⟨23, 20⟩
def F.CTX_SPEC_FB_RUN : RField := ⟨19, 16⟩
def F.CTX_SPEC_CAUSE : RField := ⟨15, 12⟩
def F.CTX_SPEC_NPRED : RField := ⟨11, 8⟩
def F.CTX_SPEC_FB_CNT : RField := ⟨7, 0⟩
def F.CTX_TOL_TOL1 : RField := ⟨31, 16⟩
def F.CTX_TOL_TOL0 : RField := ⟨15, 0⟩
def F.PX_P4_EXP : RField := ⟨29, 24⟩
def F.PX_P3_EXP : RField := ⟨23, 18⟩
def F.PX_P2_EXP : RField := ⟨17, 12⟩
def F.PX_P1_EXP : RField := ⟨11, 6⟩
def F.PX_P0_EXP : RField := ⟨5, 0⟩
def F.CLARKE_CFG_N3 : RField := ⟨0, 0⟩
def F.PI_CFG_MSTAGE : RField := ⟨31, 28⟩
def F.PI_CFG_HOVER : RField := ⟨27, 16⟩
def F.PI_CFG_MODES : RField := ⟨15, 0⟩
def F.PID_ALPHA_DMEAS : RField := ⟨31, 31⟩
def F.PID_ALPHA_A16 : RField := ⟨15, 0⟩
def F.SVM_CFG_OVM : RField := ⟨2, 2⟩
def F.SVM_CFG_ZS : RField := ⟨1, 0⟩
def F.MODESEL_CFG_STICKY : RField := ⟨4, 4⟩
def F.MODESEL_CFG_DEFAULT : RField := ⟨3, 0⟩
def F.MODESEL_RULE_EN : RField := ⟨31, 31⟩
def F.MODESEL_RULE_COND : RField := ⟨30, 28⟩
def F.MODESEL_RULE_SRC : RField := ⟨27, 25⟩
def F.MODESEL_RULE_SEL : RField := ⟨24, 22⟩
def F.MODESEL_RULE_N : RField := ⟨21, 18⟩
def F.MODESEL_RULE_MODE : RField := ⟨3, 0⟩
def F.MODESEL_MST_PIM : RField := ⟨27, 16⟩
def F.MODESEL_MST_MODE : RField := ⟨3, 0⟩
def F.MODESEL_CNT_CNTr : RField := ⟨23, 0⟩
def F.PREDICT_CFG_EXTRAP : RField := ⟨31, 31⟩
def F.PREDICT_CFG_NEXP : RField := ⟨23, 0⟩
def F.TORQUE_CFG_FLUX : RField := ⟨31, 31⟩
def F.TORQUE_CFG_PP : RField := ⟨4, 0⟩
def F.INJECT_CFG_MSTAGE : RField := ⟨31, 28⟩
def F.INJECT_CFG_TYPE : RField := ⟨27, 26⟩
def F.INJECT_CFG_MODES : RField := ⟨15, 0⟩
def F.INJECT_DPH_DPH : RField := ⟨19, 0⟩
def F.INJECT_PH_PH : RField := ⟨19, 0⟩
def F.INJECT_LFSR_LFSR : RField := ⟨14, 0⟩
def F.CAPTURE_CFG_MSTAGE : RField := ⟨31, 28⟩
def F.CAPTURE_CFG_NP : RField := ⟨27, 16⟩
def F.CAPTURE_CFG_MODES : RField := ⟨15, 0⟩
def F.CAPTURE_CNT_CNT : RField := ⟨11, 0⟩
def F.PWT_CTRL_MODE : RField := ⟨31, 30⟩
def F.PWT_CTRL_DBL : RField := ⟨29, 29⟩
def F.PWT_CTRL_DSRC : RField := ⟨28, 28⟩
def F.PWT_CTRL_POLICY : RField := ⟨27, 26⟩
def F.PWT_CTRL_REF : RField := ⟨25, 24⟩
def F.PWT_CTRL_DITH_FORCE : RField := ⟨23, 23⟩
def F.PWT_PER_PER : RField := ⟨19, 0⟩
def F.PWT_PHASE_PHASE : RField := ⟨19, 0⟩
def F.PWT_DT_DTL : RField := ⟨27, 16⟩
def F.PWT_DT_DTH : RField := ⟨11, 0⟩
def F.PWT_MINP_MINP : RField := ⟨11, 0⟩
def F.PWT_PMIN_PMIN : RField := ⟨19, 0⟩
def F.PWT_PMAX_PMAX : RField := ⟨19, 0⟩
def F.PWT_TCON_TCON : RField := ⟨19, 0⟩
def F.PWT_ALK_NP : RField := ⟨31, 24⟩
def F.PWT_ALK_TRK : RField := ⟨20, 16⟩
def F.PWT_ALK_TH_TH0 : RField := ⟨19, 0⟩
def F.PWT_ALK_ON_ON : RField := ⟨31, 0⟩
def F.PWT_ALK_OFF_OFF : RField := ⟨31, 0⟩
def F.PWT_STAGE_DUTY : RField := ⟨31, 0⟩
def F.PWT_COMMIT_GO : RField := ⟨0, 0⟩
def F.PWT_ACT_DUTY : RField := ⟨31, 0⟩
def F.PWT_LEG_FORCE : RField := ⟨31, 30⟩
def F.PWT_LEG_IMM : RField := ⟨29, 29⟩
def F.PWT_LEG_SWAP : RField := ⟨28, 28⟩
def F.PWT_LEG_INV : RField := ⟨27, 27⟩
def F.PWT_CARRY_CARRY : RField := ⟨31, 0⟩
def F.PWT_STAT_RUN : RField := ⟨31, 31⟩
def F.PWT_STAT_ALOCKED : RField := ⟨30, 30⟩
def F.PWT_STAT_DITHER : RField := ⟨29, 29⟩
def F.PWT_STAT_VALID : RField := ⟨28, 28⟩
def F.PWT_STAT_CFG_ERR : RField := ⟨27, 27⟩
def F.PWT_STAT_CAUSE : RField := ⟨26, 24⟩
def F.PWT_STAT_DCLAMP : RField := ⟨23, 23⟩
def F.PWT_STAT_CARRY_LIM : RField := ⟨22, 22⟩
def F.PWT_STAT_ALK_CLAMP : RField := ⟨21, 21⟩
def F.PWT_STAT_LATE : RField := ⟨20, 20⟩
def F.PWT_STAT_FORCED : RField := ⟨2, 0⟩
def F.PWT_CNT_MINP_CNT : RField := ⟨31, 16⟩
def F.PWT_CNT_SKIP_CNT : RField := ⟨15, 0⟩
def F.PWT_PERIOD_P : RField := ⟨19, 0⟩
def F.PWT_VALLEY_GTC : RField := ⟨31, 0⟩
def F.PWG_DL_CTRL_BG_EN : RField := ⟨0, 0⟩
def F.PWG_DL_STAT_BOOT_DONE : RField := ⟨31, 31⟩
def F.PWG_DL_STAT_GRP_FAIL : RField := ⟨11, 0⟩
def F.PWG_DL_FAIL0_OUT : RField := ⟨31, 0⟩
def F.PWG_DL_FAIL1_OUT : RField := ⟨31, 0⟩
def F.PWG_DL_FAIL2_OUT : RField := ⟨7, 0⟩
def F.PWG_DITH_GRP : RField := ⟨19, 0⟩
def F.PWG_PAIR_PAIR : RField := ⟨5, 0⟩
def F.PWG_POFS_OFS : RField := ⟨15, 0⟩
def F.GDT_FLAG_GRP : RField := ⟨11, 0⟩
def F.GDT_GCFG_FLT_POL : RField := ⟨31, 31⟩
def F.GDT_GCFG_DRDY_EN : RField := ⟨30, 30⟩
def F.GDT_GCFG_ENA_CHK : RField := ⟨29, 29⟩
def F.GDT_GCFG_DRDY_TOUT : RField := ⟨15, 8⟩
def F.GDT_GCFG_ENA_OFF : RField := ⟨7, 0⟩
def F.GDT_ARM_ACT : RField := ⟨1, 0⟩
def F.GDT_LSTAT_GACT : RField := ⟨31, 31⟩
def F.GDT_LSTAT_NRDY : RField := ⟨28, 28⟩
def F.GDT_LSTAT_REL (x : Nat) : RField := ⟨8 * x + 7, 8 * x + 7⟩
def F.GDT_LSTAT_CLR_FAIL (x : Nat) : RField := ⟨8 * x + 6, 8 * x + 6⟩
def F.GDT_LSTAT_CAUSE (x : Nat) : RField := ⟨8 * x + 3, 8 * x⟩
def F.GDT_LCMD_CLR : RField := ⟨10, 8⟩
def F.GDT_LCMD_REL : RField := ⟨2, 0⟩
def F.GDT_PINS_GENP_CMD : RField := ⟨31, 31⟩
def F.GDT_PINS_GENP_PIN : RField := ⟨30, 30⟩
def F.GDT_PINS_GENM_PIN : RField := ⟨29, 29⟩
def F.GDT_PINS_DRDY : RField := ⟨28, 28⟩
def F.GDT_PINS_FLT : RField := ⟨26, 24⟩
def F.GDT_PINS_OUT : RField := ⟨5, 0⟩
def F.GDT_CNT_FLT_CNT : RField := ⟨31, 16⟩
def F.GDT_CNT_REL_CNT : RField := ⟨15, 0⟩
def F.GDA_FLAG_GRP : RField := ⟨7, 0⟩
def F.GDA_STAT_VGD_OK : RField := ⟨31, 31⟩
def F.GDA_STAT_ENM : RField := ⟨15, 8⟩
def F.GDA_STAT_ENP : RField := ⟨7, 0⟩
def F.GDA_GCFG_CMD : RField := ⟨31, 31⟩
def F.GDA_GCFG_COMM_SRC : RField := ⟨30, 30⟩
def F.GDA_GCFG_POS : RField := ⟨29, 26⟩
def F.GDA_GCFG_BST_POL : RField := ⟨25, 25⟩
def F.GDA_GCFG_UV : RField := ⟨24, 23⟩
def F.GDA_GCFG_SRC_I : RField := ⟨22, 21⟩
def F.GDA_GCFG_SNK_I : RField := ⟨20, 19⟩
def F.GDA_LSTAT_GACT : RField := ⟨31, 31⟩
def F.GDA_LSTAT_RF_CNT : RField := ⟨29, 24⟩
def F.GDA_LSTAT_REL (x : Nat) : RField := ⟨8 * x + 7, 8 * x + 7⟩
def F.GDA_LSTAT_CLR_FAIL (x : Nat) : RField := ⟨8 * x + 6, 8 * x + 6⟩
def F.GDA_LSTAT_UV (x : Nat) : RField := ⟨8 * x + 5, 8 * x + 5⟩
def F.GDA_LSTAT_CAUSE (x : Nat) : RField := ⟨8 * x + 3, 8 * x⟩
def F.GDA_COMM_CODE : RField := ⟨10, 8⟩
def F.GDA_COMM_STATE : RField := ⟨2, 0⟩
def F.GDA_CTAB_ACTION : RField := ⟨23, 0⟩
def F.GDA_CNT_SUP_CNT : RField := ⟨31, 16⟩
def F.GDA_CNT_REL_CNT : RField := ⟨15, 0⟩
def F.MD_CFG_SIX : RField := ⟨26, 26⟩
def F.MD_CFG_SENSORLESS : RField := ⟨25, 25⟩
def F.MD_CFG_ALIGN : RField := ⟨24, 24⟩
def F.MD_CFG_TRK : RField := ⟨23, 19⟩
def F.MD_CFG_DIS_MODE : RField := ⟨17, 16⟩
def F.MD_CFG_PP : RField := ⟨15, 8⟩
def F.MD_CFG_DEG_TQ : RField := ⟨7, 0⟩
def F.MD_CTX_CTX_MAIN : RField := ⟨31, 24⟩
def F.MD_CTX_CTX_SPD : RField := ⟨23, 16⟩
def F.MD_CTX_CTX_CATCH : RField := ⟨15, 8⟩
def F.MD_ACC_ACC_V : RField := ⟨26, 18⟩
def F.MD_ACC_ACC_I : RField := ⟨17, 9⟩
def F.MD_ACC_ACC_VDC : RField := ⟨8, 0⟩
def F.MD_MMX_ASC_IEND : RField := ⟨31, 16⟩
def F.MD_MMX_MMX_I : RField := ⟨6, 0⟩
def F.MD_SPD1_UCG : RField := ⟨31, 16⟩
def F.MD_SPD1_CATCH_MIN : RField := ⟨15, 0⟩
def F.MD_SPD2_CATCH_LIM : RField := ⟨31, 16⟩
def F.MD_SPD2_SL_MIN : RField := ⟨15, 0⟩
def F.MD_SPD3_ASC_OUT : RField := ⟨31, 16⟩
def F.MD_SPD3_STOP_SPD : RField := ⟨15, 0⟩
def F.MD_START1_F_RAMP : RField := ⟨31, 16⟩
def F.MD_START1_I_START : RField := ⟨15, 0⟩
def F.MD_START2_RETRY_PCT : RField := ⟨31, 24⟩
def F.MD_START2_RETRY : RField := ⟨23, 20⟩
def F.MD_START2_START_WIN : RField := ⟨15, 0⟩
def F.MD_LIM_TMAX : RField := ⟨31, 16⟩
def F.MD_LIM_IMAX : RField := ⟨15, 0⟩
def F.MD_LOCK_LOCK_TQ : RField := ⟨31, 16⟩
def F.MD_LOCK_LOCK_MIN : RField := ⟨15, 8⟩
def F.MD_OBS_LOCK_WIN : RField := ⟨31, 16⟩
def F.MD_OBS_PLAUS : RField := ⟨15, 8⟩
def F.MD_OBS_OBS_N : RField := ⟨7, 0⟩
def F.MD_J_HOVER_MS : RField := ⟨31, 16⟩
def F.MD_J_J : RField := ⟨15, 0⟩
def F.MD_DIS_DIS_DL : RField := ⟨31, 20⟩
def F.MD_DIS_IDIS : RField := ⟨15, 0⟩
def F.MD_DIS2_V_SAFE : RField := ⟨31, 16⟩
def F.MD_DIS2_EMF_MIN : RField := ⟨15, 0⟩
def F.MD_TIME_ARM_TOUT : RField := ⟨31, 24⟩
def F.MD_TIME_ALIGN_T : RField := ⟨23, 12⟩
def F.MD_TIME_RETRY_WAIT : RField := ⟨11, 0⟩
def F.MD_STAT_STATE : RField := ⟨31, 28⟩
def F.MD_STAT_PREV : RField := ⟨27, 24⟩
def F.MD_STAT_CAUSE : RField := ⟨23, 16⟩
def F.MD_STAT_LEG_CAUSE : RField := ⟨15, 12⟩
def F.MD_STAT_DEGRADED : RField := ⟨11, 11⟩
def F.MD_STAT_DIS_LATE : RField := ⟨10, 10⟩
def F.MD_STAT_SET : RField := ⟨9, 8⟩
def F.MD_STAT_ATTEMPT : RField := ⟨7, 4⟩
def F.SD_DEV_EVAL : RField := ⟨31, 24⟩
def F.SD_DEV_FILT_N : RField := ⟨23, 20⟩
def F.SD_DEV_STO_AUTO : RField := ⟨19, 19⟩
def F.SD_DEV_HOLD_EN : RField := ⟨18, 18⟩
def F.ME_CFG_EN : RField := ⟨31, 31⟩
def F.ME_CFG_TMON : RField := ⟨30, 30⟩
def F.ME_CFG_ANG_SRC : RField := ⟨29, 29⟩
def F.ME_CFG_SIX : RField := ⟨28, 28⟩
def F.ME_CFG_SLS_EN : RField := ⟨27, 27⟩
def F.ME_CFG_SLT_EN : RField := ⟨26, 26⟩
def F.ME_CFG_SDI_EN : RField := ⟨25, 25⟩
def F.ME_CFG_SDI_DIR : RField := ⟨24, 24⟩
def F.ME_CFG_ASC_HOLD : RField := ⟨23, 23⟩
def F.ME_CFG_WDIS_HOLD : RField := ⟨22, 22⟩
def F.ME_CFG_DIS_ON_STO : RField := ⟨21, 21⟩
def F.ME_CFG_BRK : RField := ⟨20, 20⟩
def F.ME_CFG_GRP : RField := ⟨19, 15⟩
def F.ME_CFG_PP : RField := ⟨14, 8⟩
def F.ME_CFG_CTX : RField := ⟨7, 0⟩
def F.ME_SDD_SDD_U : RField := ⟨29, 24⟩
def F.ME_SDD_SDD_V : RField := ⟨21, 16⟩
def F.ME_SDD_SDD_W : RField := ⟨13, 8⟩
def F.ME_SDD_SDD_VDC : RField := ⟨5, 0⟩
def F.ME_SDD2_SDD2_U : RField := ⟨29, 24⟩
def F.ME_SDD2_SDD2_V : RField := ⟨21, 16⟩
def F.ME_SDD2_SDD2_W : RField := ⟨13, 8⟩
def F.ME_SDD2_SHD : RField := ⟨5, 0⟩
def F.ME_FS_I_FS : RField := ⟨31, 16⟩
def F.ME_FS_V_FS : RField := ⟨15, 0⟩
def F.ME_PSI_PSI : RField := ⟨31, 0⟩
def F.ME_LD_LD : RField := ⟨31, 0⟩
def F.ME_LQ_LQ : RField := ⟨31, 0⟩
def F.ME_ANG_THOFS : RField := ⟨19, 0⟩
def F.ME_ANG2_SET2_OFS : RField := ⟨19, 0⟩
def F.ME_TQ_TQ_ABS : RField := ⟨31, 16⟩
def F.ME_TQ_TQ_REL : RField := ⟨15, 8⟩
def F.ME_LIM_SLT_LIM : RField := ⟨31, 16⟩
def F.ME_LIM_I_LIM : RField := ⟨15, 0⟩
def F.ME_SPD_SLS_LIM : RField := ⟨31, 16⟩
def F.ME_SPD_SPD_TOL : RField := ⟨15, 0⟩
def F.ME_SS1_SS1_DEC : RField := ⟨31, 16⟩
def F.ME_SS1_SS1_TMAX : RField := ⟨15, 4⟩
def F.ME_SS1_SS1_DLY : RField := ⟨3, 0⟩
def F.ME_ASC_ASC_REL : RField := ⟨31, 16⟩
def F.ME_ASC_DIS_DL_M : RField := ⟨15, 0⟩
def F.ME_MISC_V_SAFE_M : RField := ⟨31, 16⟩
def F.ME_MISC_UNC_MAX : RField := ⟨15, 8⟩
def F.ME_MISC_DEM_AGE : RField := ⟨7, 0⟩
def F.SAFE_STAT_CONFIRMED : RField := ⟨31, 31⟩
def F.SAFE_STAT_SPB_LOADED : RField := ⟨30, 30⟩
def F.SAFE_STAT_PAGE_OK : RField := ⟨29, 29⟩
def F.SAFE_STAT_STO_P_IN : RField := ⟨28, 28⟩
def F.SAFE_STAT_STO_M_IN : RField := ⟨27, 27⟩
def F.SAFE_STAT_CONF_LOCK : RField := ⟨26, 26⟩
def F.SAFE_STAT_CONF_FAILS : RField := ⟨25, 24⟩
def F.SAFE_STAT_SPB_ERR : RField := ⟨23, 16⟩
def F.SAFE_CONFIRM_VALUE : RField := ⟨31, 0⟩
def F.SAFE_CRC_P_CRC : RField := ⟨31, 0⟩
def F.SAFE_CRC_M_CRC : RField := ⟨31, 0⟩
def F.SAFE_HOLD_INFO_HOLD : RField := ⟨31, 31⟩
def F.SAFE_HOLD_INFO_CAUSE : RField := ⟨23, 16⟩
def F.SAFE_GRANT_GENM : RField := ⟨19, 0⟩
def F.SAFE_TRIP_TRIP : RField := ⟨19, 0⟩
def F.SAFE_REQ_STO_STO : RField := ⟨19, 0⟩
def F.SAFE_REQ_SS1_SS1 : RField := ⟨19, 0⟩
def F.SAFE_ACK_ACK : RField := ⟨19, 0⟩
def F.SAFE_OUT_DIS_M_LATE : RField := ⟨31, 31⟩
def F.SAFE_OUT_PINS : RField := ⟨19, 16⟩
def F.SAFE_OUT_PBRK_P_REL : RField := ⟨3, 3⟩
def F.SAFE_OUT_DIS_P_REQ : RField := ⟨2, 2⟩
def F.SAFE_OUT_PBRK_M_REL : RField := ⟨1, 1⟩
def F.SAFE_OUT_DIS_M_REQ : RField := ⟨0, 0⟩
def F.SAFE_FLAG_MACH : RField := ⟨19, 0⟩
def F.SAFE_SPBH_HDR : RField := ⟨31, 0⟩
def F.TMON_STAT_RUN0 : RField := ⟨31, 31⟩
def F.TMON_STAT_RUN1 : RField := ⟨30, 30⟩
def F.TMON_STAT_XCHK_CNT : RField := ⟨23, 16⟩
def F.TMON_STAT_EVAL_CNT : RField := ⟨15, 0⟩
def F.TM_TQ_TQ : RField := ⟨31, 0⟩
def F.TM_DEM_DEM : RField := ⟨31, 0⟩
def F.TM_SPD_SPD : RField := ⟨31, 0⟩
def F.TM_ANG_ANG : RField := ⟨19, 0⟩
def F.TM_STAT_VALID : RField := ⟨31, 31⟩
def F.TM_STAT_UNCERT : RField := ⟨30, 30⟩
def F.TM_STAT_LOWFLUX : RField := ⟨29, 29⟩
def F.TM_STAT_SS1_ACT : RField := ⟨28, 28⟩
def F.TM_STAT_STALE_DEM : RField := ⟨27, 27⟩
def F.TM_STAT_CAUSE : RField := ⟨23, 20⟩
def F.TM_CNT_CNT : RField := ⟨27, 0⟩
def F.RS_LOCAL_NODE : RField := ⟨31, 28⟩
def F.RS_LOCAL_RGA_EN : RField := ⟨27, 27⟩
def F.RS_LOCAL_RGB_EN : RField := ⟨26, 26⟩
def F.RS_RING_CYCLE : RField := ⟨31, 18⟩
def F.RS_RING_TOUT : RField := ⟨17, 14⟩
def F.RS_RING_EP_TOUT : RField := ⟨7, 0⟩
def F.RS_NODE_EXPECT : RField := ⟨31, 31⟩
def F.RS_NODE_PART : RField := ⟨29, 28⟩
def F.RS_LACT_LACT (s : Nat) : RField := ⟨2 * s + 1, 2 * s⟩
def F.RS_OVC_OVC_RAMP : RField := ⟨31, 16⟩
def F.RS_DEM_DEM_CTX (k : Nat) : RField := ⟨8 * k + 7, 8 * k⟩
def F.RS_OVCM_OVC_TQ : RField := ⟨31, 16⟩
def F.RS_OVCM_OVC_SPD : RField := ⟨15, 0⟩
def F.RG_CTRL_INSERT : RField := ⟨0, 0⟩
def F.RG_STAT_LOCK : RField := ⟨31, 31⟩
def F.RG_STAT_INSERTED : RField := ⟨30, 30⟩
def F.RG_STAT_BYP_ERR : RField := ⟨29, 29⟩
def F.RG_CNT_CRC_CNT : RField := ⟨31, 16⟩
def F.RG_CNT_CODE_CNT : RField := ⟨15, 0⟩
def F.RG_RTT_RTT : RField := ⟨15, 0⟩
def F.SFX_STAT_RING_OK : RField := ⟨31, 31⟩
def F.SFX_STAT_SPLIT : RField := ⟨30, 30⟩
def F.SFX_STAT_EP_PH : RField := ⟨29, 28⟩
def F.SFX_STAT_EPOCH : RField := ⟨15, 0⟩
def F.SFX_LOST_LOST : RField := ⟨15, 0⟩
def F.SFX_SEEN_SEEN_B : RField := ⟨31, 16⟩
def F.SFX_SEEN_SEEN_A : RField := ⟨15, 0⟩
def F.SFX_DEG_DEG_B : RField := ⟨31, 16⟩
def F.SFX_DEG_DEG_A : RField := ⟨15, 0⟩
def F.SFX_ERR_MM_CNT : RField := ⟨31, 16⟩
def F.SFX_ERR_LATE_CNT : RField := ⟨15, 0⟩
def F.SFX_TX_REQ_SS1_REQ : RField := ⟨31, 16⟩
def F.SFX_TX_REQ_STO_REQ : RField := ⟨15, 0⟩
def F.SFX_RX_REQ_SS1_SRC : RField := ⟨31, 16⟩
def F.SFX_RX_REQ_STO_SRC : RField := ⟨15, 0⟩
def F.SFX_EP_EP_NEW : RField := ⟨31, 16⟩
def F.SFX_EP_EP_ACK : RField := ⟨15, 0⟩
def F.MSG_CODE : RField := ⟨31, 24⟩
def F.MSG_TAG : RField := ⟨23, 16⟩
def F.MSG_TYPE : RField := ⟨15, 14⟩
def F.MSG_LEN : RField := ⟨10, 8⟩
def F.MSG_STATUS : RField := ⟨7, 0⟩
def F.MBX_RIGHTS_LOCKED : RField := ⟨31, 31⟩
def F.MBX_RIGHTS_DBG_WR : RField := ⟨2, 2⟩
def F.MBX_RIGHTS_SPI_WR : RField := ⟨1, 1⟩
def F.MBX_RIGHTS_HOST_WR : RField := ⟨0, 0⟩
def F.MBX_FLAG0_RX_A : RField := ⟨31, 0⟩
def F.MBX_FLAG1_RX_B : RField := ⟨31, 0⟩
def F.MBX_FULLF_FULL : RField := ⟨31, 0⟩
def F.MBX_BIND_LOCKED : RField := ⟨31, 31⟩
def F.MBX_BIND_VALID : RField := ⟨30, 30⟩
def F.MBX_BIND_REC : RField := ⟨29, 29⟩
def F.MBX_BIND_RESULT : RField := ⟨17, 16⟩
def F.MBX_BIND_OWNER : RField := ⟨15, 12⟩
def F.MBX_BIND_MID_B : RField := ⟨7, 4⟩
def F.MBX_BIND_MID_A : RField := ⟨3, 0⟩
def F.MBX_DATA_DATA : RField := ⟨31, 0⟩
def F.MBX_STAT_QFULL : RField := ⟨31, 31⟩
def F.MBX_STAT_EMPTY_RD : RField := ⟨30, 30⟩
def F.MBX_STAT_SIDE : RField := ⟨29, 28⟩
def F.MBX_STAT_TX_CNT : RField := ⟨19, 16⟩
def F.MBX_STAT_TX_FREE : RField := ⟨15, 12⟩
def F.MBX_STAT_RX_CNT : RField := ⟨11, 8⟩
def F.MBX_PEER_RST : RField := ⟨31, 31⟩
def F.MBX_PEER_SLEEP : RField := ⟨30, 30⟩
def F.MBX_PEER_RST_SEEN : RField := ⟨29, 29⟩
def F.MBX_PEER_ABSENT : RField := ⟨28, 28⟩
def F.MBX_PEER_UNKNOWN : RField := ⟨27, 27⟩
def F.MBX_CTRL_FLUSH : RField := ⟨0, 0⟩
def F.MBX_CNT_SENT : RField := ⟨31, 16⟩
def F.MBX_CNT_TAKEN : RField := ⟨15, 0⟩
def F.LCK_FORCE_LOCK : RField := ⟨5, 0⟩
def F.LCK_STAT_FORCED_CNT : RField := ⟨23, 16⟩
def F.LCK_STAT_LAST_HOLDER : RField := ⟨15, 12⟩
def F.LCK_STAT_LAST_LOCK : RField := ⟨5, 0⟩
def F.LCK_HELD0_HELD : RField := ⟨31, 0⟩
def F.LCK_HELD1_HELD : RField := ⟨31, 0⟩
def F.LCK_LOCK_HOLDER : RField := ⟨7, 4⟩
def F.LCK_LOCK_AGAIN : RField := ⟨2, 2⟩
def F.LCK_LOCK_HELD : RField := ⟨1, 1⟩
def F.LCK_LOCK_GOT : RField := ⟨0, 0⟩
def F.LCK_PEEK_HOLDER : RField := ⟨7, 4⟩
def F.LCK_PEEK_HELD : RField := ⟨1, 1⟩
def F.WIN_FORCE_WIN : RField := ⟨3, 0⟩
def F.WIN_FLAG_GIVEN : RField := ⟨15, 0⟩
def F.WIN_OWN_GEN : RField := ⟨31, 16⟩
def F.WIN_OWN_RESULT : RField := ⟨13, 12⟩
def F.WIN_OWN_GIVE : RField := ⟨11, 8⟩
def F.WIN_OWN_PREV : RField := ⟨7, 4⟩
def F.WIN_OWN_OWNER : RField := ⟨3, 0⟩
def F.WIN_CFG_RDSHARE : RField := ⟨0, 0⟩
def F.WIN_STAT_DENIED : RField := ⟨31, 31⟩
def F.WIN_STAT_DENIED_CNT : RField := ⟨15, 0⟩
def F.CAN_CTRL_FD_EN : RField := ⟨31, 31⟩
def F.CAN_CTRL_BRS_EN : RField := ⟨30, 30⟩
def F.CAN_CTRL_RECOVER : RField := ⟨29, 29⟩
def F.CAN_NBT_NBT : RField := ⟨31, 0⟩
def F.CAN_DBT_DBT : RField := ⟨31, 0⟩
def F.CAN_STAT_BUS_OFF : RField := ⟨31, 31⟩
def F.CAN_STAT_PASSIVE : RField := ⟨30, 30⟩
def F.CAN_STAT_TEC : RField := ⟨23, 16⟩
def F.CAN_STAT_REC : RField := ⟨15, 8⟩
def F.CAN_STAT_LEC : RField := ⟨2, 0⟩
def F.CAN_FLT_FLT : RField := ⟨31, 0⟩
def F.ETH_CTRL_RXPOP : RField := ⟨0, 0⟩
def F.ETH_STAT_LINK : RField := ⟨31, 31⟩
def F.ETH_STAT_SPEED : RField := ⟨30, 29⟩
def F.ETH_STAT_AS_CAP : RField := ⟨28, 28⟩
def F.ETH_STAT_TX_OVF : RField := ⟨27, 27⟩
def F.ETH_STAT_RX_DROP : RField := ⟨15, 0⟩
def F.ETH_TXLEN_LEN : RField := ⟨10, 0⟩
def F.ETH_RXLEN_LEN : RField := ⟨10, 0⟩
def F.ETH_TXD_DATA : RField := ⟨31, 0⟩
def F.ETH_RXD_DATA : RField := ⟨31, 0⟩
def F.ETH_PDLY_MAX : RField := ⟨31, 16⟩
def F.ETH_PDLY_DLY : RField := ⟨15, 0⟩
def F.ETH_MCAST_ADDR : RField := ⟨31, 0⟩
def F.PCIE_STAT_LINK_UP : RField := ⟨31, 31⟩
def F.PCIE_STAT_SPEED : RField := ⟨30, 29⟩
def F.PCIE_STAT_WIDTH : RField := ⟨28, 27⟩
def F.PCIE_STAT_D3HOT : RField := ⟨26, 26⟩
def F.SPIT_STAT_ABORT_CNT : RField := ⟨31, 16⟩
def F.SPIT_STAT_ERR_CNT : RField := ⟨15, 0⟩
def F.XSPI_STAT_OCTAL : RField := ⟨31, 31⟩
def F.XSPI_STAT_ERR : RField := ⟨30, 30⟩
def F.DDR_CFG_ECC_EN : RField := ⟨31, 31⟩
def F.DDR_STAT_READY : RField := ⟨31, 31⟩
def F.DDR_STAT_TRAIN_FAIL : RField := ⟨30, 30⟩
def F.DDR_STAT_USABLE : RField := ⟨15, 0⟩
def F.DDR_ECC_UNCORR : RField := ⟨31, 24⟩
def F.DDR_ECC_CORR : RField := ⟨23, 0⟩
def F.DDR_ECC_ADDR_BLOCK : RField := ⟨31, 0⟩
def F.REC_CTRL_EN : RField := ⟨31, 31⟩
def F.REC_CTRL_TRIG : RField := ⟨30, 30⟩
def F.REC_CTRL_REARM : RField := ⟨29, 29⟩
def F.REC_CTRL_FREEZE : RField := ⟨28, 28⟩
def F.REC_CFG_CLS_PROT : RField := ⟨31, 31⟩
def F.REC_CFG_CLS_MBX : RField := ⟨30, 30⟩
def F.REC_CFG_ANCH : RField := ⟨29, 16⟩
def F.REC_CFG_SIZE : RField := ⟨15, 0⟩
def F.REC_POST_POST : RField := ⟨31, 0⟩
def F.REC_STAT_RUN : RField := ⟨31, 31⟩
def F.REC_STAT_POST : RField := ⟨30, 30⟩
def F.REC_STAT_FROZEN : RField := ⟨29, 29⟩
def F.REC_STAT_ONCHIP : RField := ⟨28, 28⟩
def F.REC_STAT_HELD : RField := ⟨27, 27⟩
def F.REC_STAT_LOSS_CNT : RField := ⟨15, 0⟩
def F.REC_WSEQ_SEQ : RField := ⟨31, 0⟩
def F.REC_OLD_SEQ : RField := ⟨31, 0⟩
def F.REC_TRIG_SEQ_SEQ : RField := ⟨31, 0⟩
def F.REC_TRIG_INFO_VALID : RField := ⟨31, 31⟩
def F.REC_TRIG_INFO_MISSED : RField := ⟨23, 16⟩
def F.REC_TRIG_INFO_SRC : RField := ⟨8, 0⟩
def F.REC_APER_GIB : RField := ⟨2, 0⟩
def F.REC_EXP_GO : RField := ⟨31, 31⟩
def F.REC_EXP_BUSY : RField := ⟨30, 30⟩
def F.REC_EXP_RESULT : RField := ⟨29, 28⟩
def F.REC_EXP_CNT : RField := ⟨7, 4⟩
def F.REC_EXP_WIN : RField := ⟨3, 0⟩
def F.REC_EXP_SEQ_SEQ : RField := ⟨31, 0⟩
def F.REC_TRIG_EN_EN : RField := ⟨31, 0⟩
def F.RPL_CTRL_START : RField := ⟨31, 31⟩
def F.RPL_CTRL_ABORT : RField := ⟨30, 30⟩
def F.RPL_CTRL_DIV_STOP : RField := ⟨29, 29⟩
def F.RPL_FROM_SEQ : RField := ⟨31, 0⟩
def F.RPL_TO_SEQ : RField := ⟨31, 0⟩
def F.RPL_STAT_RUN : RField := ⟨31, 31⟩
def F.RPL_STAT_DONE : RField := ⟨30, 30⟩
def F.RPL_STAT_DIVERGED : RField := ⟨29, 29⟩
def F.RPL_STAT_DIRTY : RField := ⟨28, 28⟩
def F.RPL_STAT_REFUSE : RField := ⟨27, 24⟩
def F.RPL_STAT_END : RField := ⟨23, 20⟩
def F.RPL_DIV_POS_SEQ : RField := ⟨31, 0⟩
def F.RPL_DIV_REC_TYPE : RField := ⟨31, 24⟩
def F.RPL_DIV_REC_WORD : RField := ⟨23, 16⟩
def F.RPL_DIV_REC_OFS : RField := ⟨11, 0⟩
def F.RPL_DIV_RES_RES : RField := ⟨15, 0⟩
def F.RPL_DIV_REF_VALUE : RField := ⟨31, 0⟩
def F.RPL_DIV_GOT_VALUE : RField := ⟨31, 0⟩
def F.RPL_DIV_TICK_RT : RField := ⟨31, 0⟩
def F.RPL_CNT_CNT : RField := ⟨31, 0⟩
def F.RPL_LOAD_GO : RField := ⟨31, 31⟩
def F.RPL_LOAD_BUSY : RField := ⟨30, 30⟩
def F.RPL_LOAD_RESULT : RField := ⟨29, 28⟩
def F.RPL_LOAD_CNT : RField := ⟨7, 4⟩
def F.RPL_LOAD_WIN : RField := ⟨3, 0⟩
def F.DMP_CTRL_CLR : RField := ⟨31, 31⟩
def F.DMP_STAT_VALID : RField := ⟨31, 31⟩
def F.DMP_STAT_EXT_VALID : RField := ⟨30, 30⟩
def F.DMP_STAT_RET_ERR : RField := ⟨29, 29⟩
def F.DMP_STAT_CAUSE : RField := ⟨23, 16⟩
def F.DMP_STAT_NCAUSE : RField := ⟨15, 8⟩
def F.DMP_EXP_GO : RField := ⟨31, 31⟩
def F.DMP_EXP_BUSY : RField := ⟨30, 30⟩
def F.DMP_EXP_RESULT : RField := ⟨29, 28⟩
def F.DMP_EXP_CHUNK : RField := ⟨12, 4⟩
def F.DMP_EXP_WIN : RField := ⟨3, 0⟩
def F.EVT_LAST_SRC : RField := ⟨7, 0⟩
def F.EVT_LAST_T_GTC : RField := ⟨31, 0⟩
def F.EVT_STAT0_RAW : RField := ⟨31, 0⟩
def F.EVT_STAT1_RAW : RField := ⟨31, 0⟩
def F.EVT_RTE_S0_EN : RField := ⟨31, 31⟩
def F.EVT_RTE_S0_VEC : RField := ⟨28, 24⟩
def F.EVT_RTE_S1_EN : RField := ⟨23, 23⟩
def F.EVT_RTE_S1_VEC : RField := ⟨20, 16⟩
def F.EVT_RTE_MSI_EN : RField := ⟨15, 15⟩
def F.EVT_RTE_MSI_VEC : RField := ⟨12, 8⟩
def F.EVT_RTE_OUT_EN : RField := ⟨7, 7⟩
def F.EVT_RTE_OUT_SEL : RField := ⟨5, 4⟩
def F.SYS_UID0_UID : RField := ⟨31, 0⟩
def F.SYS_UID1_UID : RField := ⟨31, 0⟩
def F.SYS_PINOWN_RESULT : RField := ⟨17, 16⟩
def F.SYS_PINOWN_SRC : RField := ⟨5, 4⟩
def F.SYS_PINOWN_OWNER : RField := ⟨3, 0⟩
def F.CLK_STAT_PLL_P : RField := ⟨31, 31⟩
def F.CLK_STAT_PLL_M : RField := ⟨30, 30⟩
def F.CLK_STAT_XCHK : RField := ⟨29, 29⟩
def F.CLK_STAT_DEV : RField := ⟨15, 0⟩
def F.PWR_STAT_P_OK : RField := ⟨31, 31⟩
def F.PWR_STAT_M_OK : RField := ⟨30, 30⟩
def F.PWR_STAT_WARN_P : RField := ⟨29, 29⟩
def F.PWR_STAT_WARN_M : RField := ⟨28, 28⟩
def F.PWR_STAT_VDDIO_OK : RField := ⟨27, 27⟩
def F.PWR_TEMP_D_P : RField := ⟨31, 24⟩
def F.PWR_TEMP_D_M : RField := ⟨23, 16⟩
def F.PWR_TEMP_A_P : RField := ⟨15, 8⟩
def F.PWR_TEMP_A_M : RField := ⟨7, 0⟩
def F.RST_CAUSE_WARM : RField := ⟨31, 31⟩
def F.RST_CAUSE_POR : RField := ⟨4, 4⟩
def F.RST_CAUSE_SUPPLY : RField := ⟨3, 3⟩
def F.RST_CAUSE_PIN : RField := ⟨2, 2⟩
def F.RST_CAUSE_SOFT : RField := ⟨1, 1⟩
def F.RST_CAUSE_DBG : RField := ⟨0, 0⟩
def F.RST_CTRL_SYS_RST : RField := ⟨0, 0⟩
def F.RST_DOM_S0_HELD : RField := ⟨31, 31⟩
def F.RST_DOM_S1_HELD : RField := ⟨30, 30⟩
def F.RST_DOM_PCIE_RST : RField := ⟨29, 29⟩
def F.SEC_LC_ROLLBACK : RField := ⟨23, 16⟩
def F.SEC_LC_REVOKED : RField := ⟨11, 8⟩
def F.SEC_LC_LC : RField := ⟨3, 0⟩
def F.SEC_LC_ADV_NEXT : RField := ⟨3, 0⟩
def F.SEC_BOOT_VERSION : RField := ⟨31, 16⟩
def F.SEC_BOOT_ALT : RField := ⟨15, 15⟩
def F.SEC_BOOT_SLOT : RField := ⟨14, 14⟩
def F.SEC_BOOT_FAIL1 : RField := ⟨7, 4⟩
def F.SEC_BOOT_FAIL0 : RField := ⟨3, 0⟩
def F.SEC_HASH_HASH : RField := ⟨31, 0⟩
def F.DBG_CTRL_ATTACHED : RField := ⟨31, 31⟩
def F.DBG_CTRL_HALTED : RField := ⟨30, 30⟩
def F.DBG_CTRL_HALT_REQ : RField := ⟨1, 1⟩
def F.DBG_CTRL_SYS_RST : RField := ⟨0, 0⟩
def F.SHD_FMT_BITS : RField := ⟨31, 26⟩
def F.SHD_FMT_GRAY : RField := ⟨25, 25⟩
def F.SHD_FMT_ERR_EN : RField := ⟨24, 24⟩
def F.SHD_FMT_ERR_POL : RField := ⟨23, 23⟩
def F.SHD_FMT_ERR_POS : RField := ⟨22, 17⟩
def F.SHD_FMT_POS_LSB : RField := ⟨16, 11⟩
def F.SHD_FMT_POS_LEN : RField := ⟨10, 5⟩
def F.SHD_FMT_TURN_LEN : RField := ⟨4, 0⟩
def F.GDA_ARM_ACT : RField := ⟨1, 0⟩
def F.GDA_LCMD_CLR : RField := ⟨10, 8⟩
def F.GDA_LCMD_REL : RField := ⟨2, 0⟩
def F.ETH_MCASTH_ADDR_HI : RField := ⟨15, 0⟩
def F.SPB_DATA_DATA : RField := ⟨31, 0⟩
def F.CTX_IN_KIND : RField := ⟨31, 29⟩
def F.CTX_IN_WAIT : RField := ⟨28, 28⟩
def F.CTX_IN_ACC : RField := ⟨24, 16⟩
def F.CTX_IN_SPD_EXP : RField := ⟨27, 22⟩
def F.CTX_IN_TRK : RField := ⟨20, 16⟩
def F.CTX_IN_ADV : RField := ⟨15, 0⟩
def F.CTX_IN_CTX : RField := ⟨23, 16⟩
def F.CTX_IN_J : RField := ⟨3, 0⟩
def F.CTX_CMD_M : RField := ⟨31, 0⟩
def F.CTX_OUT_M : RField := ⟨31, 0⟩
def F.CTX_POOL_W : RField := ⟨31, 0⟩
def F.PCIE_MSIX_MSIX : RField := ⟨31, 0⟩
def F.PCIE_PBA_PEND : RField := ⟨31, 0⟩
def F.CAN_RAM_RAM : RField := ⟨31, 0⟩
def F.SFX_FRAME_FRAME : RField := ⟨31, 0⟩

/-! Register addresses: `R.<REGISTER>`; a unit spread over several pages is numbered through all of them. -/
def R.PG_ID (page : Nat) : Nat := pageBase page + 0x00
def R.PG_CAP (page : Nat) : Nat := pageBase page + 0x04
def R.PG_CTRL (page : Nat) : Nat := pageBase page + 0x08
def R.PG_STAT (page : Nat) : Nat := pageBase page + 0x0C
def R.PG_EVT_RAW (page : Nat) : Nat := pageBase page + 0x10
def R.PG_EVT_EN (page : Nat) : Nat := pageBase page + 0x14
def R.PG_EVT_CLR (page : Nat) : Nat := pageBase page + 0x18
def R.PG_EVT_ROUTE (page : Nat) : Nat := pageBase page + 0x1C
def R.PG_LOCK (page : Nat) : Nat := pageBase page + 0x20
def R.PG_CRC (page : Nat) : Nat := pageBase page + 0x24
def R.SYS_STATE : Nat := 0x40000040
def R.SYS_UID0 : Nat := 0x40000044
def R.SYS_UID1 : Nat := 0x40000048
def R.SYS_ABSENT_CNT : Nat := 0x40000080
def R.SYS_PINOWN (i : Nat) : Nat := 0x40000100 + 0x4 * i
def R.CAP_GROUPS : Nat := 0x40001040
def R.CAP_RES : Nat := 0x40001044
def R.CAP_ACC : Nat := 0x40001048
def R.CAP_UNITS : Nat := 0x4000104C
def R.CAP_REC : Nat := 0x40001050
def R.CLK_STAT : Nat := 0x40002040
def R.PWR_STAT : Nat := 0x40003040
def R.PWR_TEMP : Nat := 0x40003044
def R.RST_CAUSE : Nat := 0x40004040
def R.RST_CTRL : Nat := 0x40004044
def R.RST_DOM : Nat := 0x40004048
def R.SEC_LC : Nat := 0x40005040
def R.SEC_LC_ADV : Nat := 0x40005044
def R.SEC_BOOT : Nat := 0x40005048
def R.SEC_HASH (i : Nat) : Nat := 0x40005060 + 0x4 * i
def R.DBG_CTRL : Nat := 0x400F0040
def R.EVT_LAST : Nat := 0x40008040
def R.EVT_LAST_T : Nat := 0x40008044
def R.EVT_STAT0 (p : Nat) : Nat := 0x40008050 + 0x1000 * p
def R.EVT_STAT1 (p : Nat) : Nat := 0x40008054 + 0x1000 * p
def R.EVT_RTE (u : Nat) : Nat := 0x40008100 + 0x1000 * (u / 64) + 0x4 * (u % 64)
def R.MBX_RIGHTS : Nat := 0x40010040
def R.MBX_FLAG0 : Nat := 0x40010044
def R.MBX_FLAG1 : Nat := 0x40010048
def R.MBX_FULLF : Nat := 0x4001004C
def R.MBX_BIND (i : Nat) : Nat := 0x40010100 + 0x20 * i
def R.MBX_DATA (i : Nat) : Nat := 0x40010104 + 0x20 * i
def R.MBX_STAT (i : Nat) : Nat := 0x40010108 + 0x20 * i
def R.MBX_PEER (i : Nat) : Nat := 0x4001010C + 0x20 * i
def R.MBX_CTRL (i : Nat) : Nat := 0x40010110 + 0x20 * i
def R.MBX_CNT (i : Nat) : Nat := 0x40010114 + 0x20 * i
def R.LCK_FORCE : Nat := 0x40011040
def R.LCK_STAT : Nat := 0x40011044
def R.LCK_HELD0 : Nat := 0x40011048
def R.LCK_HELD1 : Nat := 0x4001104C
def R.LCK_LOCK (i : Nat) : Nat := 0x40011100 + 0x4 * i
def R.LCK_PEEK (i : Nat) : Nat := 0x40011200 + 0x4 * i
def R.WIN_FORCE : Nat := 0x40012040
def R.WIN_FLAG : Nat := 0x40012044
def R.WIN_OWN (i : Nat) : Nat := 0x40012100 + 0x10 * i
def R.WIN_CFG (i : Nat) : Nat := 0x40012104 + 0x10 * i
def R.WIN_STAT (i : Nat) : Nat := 0x40012108 + 0x10 * i
def R.TL_CTRL : Nat := 0x40020040
def R.TL_GTC_LO : Nat := 0x40020044
def R.TL_GTC_HI : Nat := 0x40020048
def R.TL_RATE : Nat := 0x4002004C
def R.TL_VT_OFS_LO : Nat := 0x40020050
def R.TL_VT_OFS_HI : Nat := 0x40020054
def R.TL_SYNC_STAT : Nat := 0x40020058
def R.TL_ZS_INFO : Nat := 0x4002005C
def R.TL_LAST_SKIP : Nat := 0x40020060
def R.TL_TRK_FLAG : Nat := 0x40020064
def R.TL_SLOT_CLAIM (i : Nat) : Nat := 0x40020080 + 0x4 * i
def R.SLOT_TRIG (u : Nat) : Nat := 0x40021040 + 0x1000 * (u / 256) + 0xC * (u % 256)
def R.SLOT_ARG (u : Nat) : Nat := 0x40021044 + 0x1000 * (u / 256) + 0xC * (u % 256)
def R.SLOT_ACT (u : Nat) : Nat := 0x40021048 + 0x1000 * (u / 256) + 0xC * (u % 256)
def R.TRK_CFG (i : Nat) : Nat := 0x40028040 + 0x40 * i
def R.TRK_TOL (i : Nat) : Nat := 0x40028044 + 0x40 * i
def R.TRK_JUMP (i : Nat) : Nat := 0x40028048 + 0x40 * i
def R.TRK_SLEWMAX (i : Nat) : Nat := 0x4002804C + 0x40 * i
def R.TRK_STALE (i : Nat) : Nat := 0x40028050 + 0x40 * i
def R.TRK_ANG (i : Nat) : Nat := 0x40028054 + 0x40 * i
def R.TRK_SPD (i : Nat) : Nat := 0x40028058 + 0x40 * i
def R.TRK_STAT (i : Nat) : Nat := 0x4002805C + 0x40 * i
def R.TRK_CLAIM (i : Nat) : Nat := 0x40028060 + 0x40 * i
def R.ADA_CTRL : Nat := 0x40030040
def R.ADA_ROT_CFG : Nat := 0x40030044
def R.ADA_ROT_TOL : Nat := 0x40030048
def R.ADA_CAL_CFG : Nat := 0x4003004C
def R.ADA_ROT_STAT : Nat := 0x40030050
def R.ADA_OW_OPEN (i : Nat) : Nat := 0x40030060 + 0x4 * i
def R.ADA_OW_INC (i : Nat) : Nat := 0x40030070 + 0x4 * i
def R.ADA_SEQ (i : Nat) : Nat := 0x40030100 + 0x10 * i
def R.ADA_LCFG (i : Nat) : Nat := 0x40030104 + 0x10 * i
def R.ADA_LCLAIM (i : Nat) : Nat := 0x40030108 + 0x10 * i
def R.ADA_LSTAT (i : Nat) : Nat := 0x4003010C + 0x10 * i
def R.ADA_OW_CFG (i : Nat) : Nat := 0x40030400 + 0x4 * i
def R.ADA_PSL (i : Nat) : Nat := 0x40030600 + 0x4 * i
def R.ADB_CLK (i : Nat) : Nat := 0x40031040 + 0x4 * i
def R.ADB_CFG : Nat := 0x40031080
def R.ADB_CH_CFG (i : Nat) : Nat := 0x40031100 + 0x10 * i
def R.ADB_CH_OVR (i : Nat) : Nat := 0x40031104 + 0x10 * i
def R.ADB_CH_STAT (i : Nat) : Nat := 0x4003110C + 0x10 * i
def R.ACC_FLAG (p n : Nat) : Nat := 0x40032040 + 0x1000 * p + 4 * n
def R.ACC_CFG (u : Nat) : Nat := 0x40032100 + 0x1000 * (u / 64) + 0x20 * (u % 64)
def R.ACC_GAIN (u : Nat) : Nat := 0x40032104 + 0x1000 * (u / 64) + 0x20 * (u % 64)
def R.ACC_OFS (u : Nat) : Nat := 0x40032108 + 0x1000 * (u / 64) + 0x20 * (u % 64)
def R.ACC_EXP (u : Nat) : Nat := 0x4003210C + 0x1000 * (u / 64) + 0x20 * (u % 64)
def R.ACC_RES0 (u : Nat) : Nat := 0x40032110 + 0x1000 * (u / 64) + 0x20 * (u % 64)
def R.ACC_RES1 (u : Nat) : Nat := 0x40032114 + 0x1000 * (u / 64) + 0x20 * (u % 64)
def R.ACC_CNT (u : Nat) : Nat := 0x40032118 + 0x1000 * (u / 64) + 0x20 * (u % 64)
def R.ACC_STAT (u : Nat) : Nat := 0x4003211C + 0x1000 * (u / 64) + 0x20 * (u % 64)
def R.ACC_CLAIM (u : Nat) : Nat := 0x40032900 + 0x1000 * (u / 64) + 0x4 * (u % 64)
def R.MMX_FLAG (p n : Nat) : Nat := 0x40038040 + 0x1000 * p + 4 * n
def R.MMX_CFG (u : Nat) : Nat := 0x40038100 + 0x1000 * (u / 64) + 0x20 * (u % 64)
def R.MMX_MIN (u : Nat) : Nat := 0x40038104 + 0x1000 * (u / 64) + 0x20 * (u % 64)
def R.MMX_MAX (u : Nat) : Nat := 0x40038108 + 0x1000 * (u / 64) + 0x20 * (u % 64)
def R.MMX_STAT (u : Nat) : Nat := 0x4003810C + 0x1000 * (u / 64) + 0x20 * (u % 64)
def R.MMX_LIM_HI (u : Nat) : Nat := 0x40038110 + 0x1000 * (u / 64) + 0x20 * (u % 64)
def R.MMX_LIM_LO (u : Nat) : Nat := 0x40038114 + 0x1000 * (u / 64) + 0x20 * (u % 64)
def R.MMX_CLAIM (u : Nat) : Nat := 0x40038118 + 0x1000 * (u / 64) + 0x20 * (u % 64)
def R.CMP_FLAG0 (p : Nat) : Nat := 0x40040040 + 0x1000 * p
def R.CMP_FLAG1 (p : Nat) : Nat := 0x40040044 + 0x1000 * p
def R.CMP_CFG (u : Nat) : Nat := 0x40040100 + 0x1000 * (u / 36) + 0x20 * (u % 36)
def R.CMP_THR (u : Nat) : Nat := 0x40040104 + 0x1000 * (u / 36) + 0x20 * (u % 36)
def R.CMP_RAMP (u : Nat) : Nat := 0x40040108 + 0x1000 * (u / 36) + 0x20 * (u % 36)
def R.CMP_ROUTE (u : Nat) : Nat := 0x4004010C + 0x1000 * (u / 36) + 0x20 * (u % 36)
def R.CMP_BLANK (u : Nat) : Nat := 0x40040110 + 0x1000 * (u / 36) + 0x20 * (u % 36)
def R.CMP_STRB (u : Nat) : Nat := 0x40040114 + 0x1000 * (u / 36) + 0x20 * (u % 36)
def R.CMP_STAT (u : Nat) : Nat := 0x40040118 + 0x1000 * (u / 36) + 0x20 * (u % 36)
def R.CMP_CLAIM (u : Nat) : Nat := 0x4004011C + 0x1000 * (u / 36) + 0x20 * (u % 36)
def R.POS_CFG (i : Nat) : Nat := 0x40048040 + 0x1000 * i
def R.POS_LINES (i : Nat) : Nat := 0x40048044 + 0x1000 * i
def R.POS_SPD_CFG (i : Nat) : Nat := 0x40048048 + 0x1000 * i
def R.POS_OFS (i : Nat) : Nat := 0x4004804C + 0x1000 * i
def R.POS_IDX_EXP (i : Nat) : Nat := 0x40048050 + 0x1000 * i
def R.POS_IDX_CTRL (i : Nat) : Nat := 0x40048054 + 0x1000 * i
def R.POS_COUNT (i : Nat) : Nat := 0x40048058 + 0x1000 * i
def R.POS_IDX_LATCH (i : Nat) : Nat := 0x4004805C + 0x1000 * i
def R.POS_IDX_DEV (i : Nat) : Nat := 0x40048060 + 0x1000 * i
def R.POS_ANG (i : Nat) : Nat := 0x40048064 + 0x1000 * i
def R.POS_SPD (i : Nat) : Nat := 0x40048068 + 0x1000 * i
def R.POS_STAT (i : Nat) : Nat := 0x4004806C + 0x1000 * i
def R.POS_ERRCNT (i : Nat) : Nat := 0x40048070 + 0x1000 * i
def R.POS_SER_CLK (i : Nat) : Nat := 0x40048074 + 0x1000 * i
def R.POS_SER_FMT (i : Nat) : Nat := 0x40048078 + 0x1000 * i
def R.POS_SER_TIME (i : Nat) : Nat := 0x4004807C + 0x1000 * i
def R.POS_TURNS (i : Nat) : Nat := 0x40048080 + 0x1000 * i
def R.POS_RES_CFG (i : Nat) : Nat := 0x40048084 + 0x1000 * i
def R.POS_RES_AMP (i : Nat) : Nat := 0x40048088 + 0x1000 * i
def R.POS_HALL (i : Nat) : Nat := 0x4004808C + 0x1000 * i
def R.SHD_CFG (i : Nat) : Nat := 0x400480C0 + 0x1000 * i
def R.SHD_FMT (i : Nat) : Nat := 0x400480C4 + 0x1000 * i
def R.SHD_GEOM (i : Nat) : Nat := 0x400480C8 + 0x1000 * i
def R.SHD_OFS (i : Nat) : Nat := 0x400480CC + 0x1000 * i
def R.SHD_RES (i : Nat) : Nat := 0x400480D0 + 0x1000 * i
def R.SHD_ANG (i : Nat) : Nat := 0x400480D4 + 0x1000 * i
def R.SHD_SPD (i : Nat) : Nat := 0x400480D8 + 0x1000 * i
def R.SHD_STAT (i : Nat) : Nat := 0x400480DC + 0x1000 * i
def R.EXC_CFG (i : Nat) : Nat := 0x40055040 + 0x10 * i
def R.EXC_AMP (i : Nat) : Nat := 0x40055044 + 0x10 * i
def R.EXC_STAT (i : Nat) : Nat := 0x40055048 + 0x10 * i
def R.EXC_CLAIM (i : Nat) : Nat := 0x4005504C + 0x10 * i
def R.EMU_CFG (i : Nat) : Nat := 0x40054040 + 0x10 * i
def R.EMU_EDGE (i : Nat) : Nat := 0x40054044 + 0x10 * i
def R.EMU_STAT (i : Nat) : Nat := 0x40054048 + 0x10 * i
def R.EMU_CLAIM (i : Nat) : Nat := 0x4005404C + 0x10 * i
def R.LEC_CTRL : Nat := 0x40060040
def R.LEC_ECC : Nat := 0x40060044
def R.LEC_FLAG (i : Nat) : Nat := 0x40060050 + 0x4 * i
def R.LEC_CTX_CLAIM (i : Nat) : Nat := 0x40060100 + 0x4 * i
def R.LE_STAT (i : Nat) : Nat := 0x40061040 + 0x1000 * i
def R.LE_LOAD (i : Nat) : Nat := 0x40061044 + 0x1000 * i
def R.LE_MAXWAIT (i : Nat) : Nat := 0x40061048 + 0x1000 * i
def R.LE_DROP (i : Nat) : Nat := 0x4006104C + 0x1000 * i
def R.CTX_CTRL (u : Nat) : Nat := 0x40100040 + 0x1000 * (u / 8) + 0x1C0 * (u % 8)
def R.CTX_TIME (u : Nat) : Nat := 0x40100044 + 0x1000 * (u / 8) + 0x1C0 * (u % 8)
def R.CTX_TARGET (u : Nat) : Nat := 0x40100048 + 0x1000 * (u / 8) + 0x1C0 * (u % 8)
def R.CTX_OMAP (u i : Nat) : Nat := 0x4010004C + 0x1000 * (u / 8) + 0x1C0 * (u % 8) + 4 * i
def R.CTX_CMDEXP (u : Nat) : Nat := 0x40100064 + 0x1000 * (u / 8) + 0x1C0 * (u % 8)
def R.CTX_SPEC (u : Nat) : Nat := 0x40100068 + 0x1000 * (u / 8) + 0x1C0 * (u % 8)
def R.CTX_TOL (u : Nat) : Nat := 0x4010006C + 0x1000 * (u / 8) + 0x1C0 * (u % 8)
def R.CTX_STAT (u : Nat) : Nat := 0x40100070 + 0x1000 * (u / 8) + 0x1C0 * (u % 8)
def R.CTX_SAT (u : Nat) : Nat := 0x40100074 + 0x1000 * (u / 8) + 0x1C0 * (u % 8)
def R.CTX_RUNS (u : Nat) : Nat := 0x40100078 + 0x1000 * (u / 8) + 0x1C0 * (u % 8)
def R.CTX_LAST (u : Nat) : Nat := 0x4010007C + 0x1000 * (u / 8) + 0x1C0 * (u % 8)
def R.CTX_IN (u i : Nat) : Nat := 0x40100080 + 0x1000 * (u / 8) + 0x1C0 * (u % 8) + 4 * i
def R.CTX_SD (u i : Nat) : Nat := 0x401000A0 + 0x1000 * (u / 8) + 0x1C0 * (u % 8) + 4 * i
def R.CTX_CMD (u i : Nat) : Nat := 0x401000D0 + 0x1000 * (u / 8) + 0x1C0 * (u % 8) + 4 * i
def R.CTX_OUT (u i : Nat) : Nat := 0x401000E0 + 0x1000 * (u / 8) + 0x1C0 * (u % 8) + 4 * i
def R.CTX_POOL (u i : Nat) : Nat := 0x40100110 + 0x1000 * (u / 8) + 0x1C0 * (u % 8) + 4 * i
def R.PWT_CTRL (i : Nat) : Nat := 0x40080040 + 0x1000 * i
def R.PWT_PER (i : Nat) : Nat := 0x40080044 + 0x1000 * i
def R.PWT_PHASE (i : Nat) : Nat := 0x40080048 + 0x1000 * i
def R.PWT_DT (i : Nat) : Nat := 0x4008004C + 0x1000 * i
def R.PWT_MINP (i : Nat) : Nat := 0x40080050 + 0x1000 * i
def R.PWT_PMIN (i : Nat) : Nat := 0x40080054 + 0x1000 * i
def R.PWT_PMAX (i : Nat) : Nat := 0x40080058 + 0x1000 * i
def R.PWT_TCON (i : Nat) : Nat := 0x4008005C + 0x1000 * i
def R.PWT_ALK (i : Nat) : Nat := 0x40080060 + 0x1000 * i
def R.PWT_ALK_TH (i : Nat) : Nat := 0x40080064 + 0x1000 * i
def R.PWT_ALK_ON (i : Nat) : Nat := 0x40080068 + 0x1000 * i
def R.PWT_ALK_OFF (i : Nat) : Nat := 0x4008006C + 0x1000 * i
def R.PWT_STAGE (i x : Nat) : Nat := 0x40080080 + 0x1000 * i + 0x4 * x
def R.PWT_COMMIT (i : Nat) : Nat := 0x4008008C + 0x1000 * i
def R.PWT_ACT (i x : Nat) : Nat := 0x40080090 + 0x1000 * i + 0x4 * x
def R.PWT_LEG (i x : Nat) : Nat := 0x400800A0 + 0x1000 * i + 0x4 * x
def R.PWT_CARRY (i x : Nat) : Nat := 0x400800B0 + 0x1000 * i + 0x4 * x
def R.PWT_STAT (i : Nat) : Nat := 0x400800C0 + 0x1000 * i
def R.PWT_CNT (i : Nat) : Nat := 0x400800C4 + 0x1000 * i
def R.PWT_PERIOD (i : Nat) : Nat := 0x400800C8 + 0x1000 * i
def R.PWT_VALLEY (i : Nat) : Nat := 0x400800CC + 0x1000 * i
def R.PWG_DL_CTRL : Nat := 0x40094040
def R.PWG_DL_STAT : Nat := 0x40094044
def R.PWG_DL_FAIL0 : Nat := 0x40094048
def R.PWG_DL_FAIL1 : Nat := 0x4009404C
def R.PWG_DL_FAIL2 : Nat := 0x40094050
def R.PWG_DITH : Nat := 0x40094054
def R.PWG_PAIR : Nat := 0x40094060
def R.PWG_POFS (i : Nat) : Nat := 0x40094080 + 0x4 * i
def R.GDT_FLAG : Nat := 0x40098040
def R.GDT_GCFG (i : Nat) : Nat := 0x40098100 + 0x20 * i
def R.GDT_ARM (i : Nat) : Nat := 0x40098104 + 0x20 * i
def R.GDT_LSTAT (i : Nat) : Nat := 0x40098108 + 0x20 * i
def R.GDT_LCMD (i : Nat) : Nat := 0x4009810C + 0x20 * i
def R.GDT_PINS (i : Nat) : Nat := 0x40098110 + 0x20 * i
def R.GDT_CNT (i : Nat) : Nat := 0x40098114 + 0x20 * i
def R.GDA_FLAG : Nat := 0x40099040
def R.GDA_STAT : Nat := 0x40099044
def R.GDA_GCFG (i : Nat) : Nat := 0x40099100 + 0x20 * i
def R.GDA_ARM (i : Nat) : Nat := 0x40099104 + 0x20 * i
def R.GDA_LSTAT (i : Nat) : Nat := 0x40099108 + 0x20 * i
def R.GDA_LCMD (i : Nat) : Nat := 0x4009910C + 0x20 * i
def R.GDA_COMM (i : Nat) : Nat := 0x40099110 + 0x20 * i
def R.GDA_CTAB (i x : Nat) : Nat := 0x40099114 + 0x20 * i + 0x4 * x
def R.GDA_CNT (i : Nat) : Nat := 0x40099200 + 0x4 * i
def R.SAFE_STAT : Nat := 0x400A0040
def R.SAFE_CONFIRM : Nat := 0x400A0044
def R.SAFE_CRC_P : Nat := 0x400A0048
def R.SAFE_CRC_M : Nat := 0x400A004C
def R.SAFE_HOLD_INFO : Nat := 0x400A0050
def R.SAFE_GRANT : Nat := 0x400A0054
def R.SAFE_TRIP : Nat := 0x400A0058
def R.SAFE_REQ_STO : Nat := 0x400A005C
def R.SAFE_REQ_SS1 : Nat := 0x400A0060
def R.SAFE_ACK : Nat := 0x400A0064
def R.SAFE_OUT : Nat := 0x400A0068
def R.SAFE_FLAG : Nat := 0x400A006C
def R.SAFE_SPBH (i : Nat) : Nat := 0x400A0100 + 0x4 * i
def R.TMON_STAT : Nat := 0x400A1040
def R.TM_TQ (i : Nat) : Nat := 0x400A1100 + 0x20 * i
def R.TM_DEM (i : Nat) : Nat := 0x400A1104 + 0x20 * i
def R.TM_SPD (i : Nat) : Nat := 0x400A1108 + 0x20 * i
def R.TM_ANG (i : Nat) : Nat := 0x400A110C + 0x20 * i
def R.TM_STAT (i : Nat) : Nat := 0x400A1110 + 0x20 * i
def R.TM_CNT (i : Nat) : Nat := 0x400A1114 + 0x20 * i
def R.SPB_DATA (i : Nat) : Nat := 0x400A2040 + 0x4 * i
def R.RG_CTRL (i : Nat) : Nat := 0x400A8040 + 0x1000 * i
def R.RG_STAT (i : Nat) : Nat := 0x400A8044 + 0x1000 * i
def R.RG_CNT (i : Nat) : Nat := 0x400A8048 + 0x1000 * i
def R.RG_RTT (i : Nat) : Nat := 0x400A804C + 0x1000 * i
def R.SFX_STAT : Nat := 0x400AA040
def R.SFX_LOST : Nat := 0x400AA044
def R.SFX_SEEN : Nat := 0x400AA048
def R.SFX_DEG : Nat := 0x400AA04C
def R.SFX_ERR : Nat := 0x400AA050
def R.SFX_TX_REQ : Nat := 0x400AA054
def R.SFX_RX_REQ : Nat := 0x400AA058
def R.SFX_EP : Nat := 0x400AA05C
def R.CAN_CTRL (i : Nat) : Nat := 0x400B0040 + 0x1000 * i
def R.CAN_NBT (i : Nat) : Nat := 0x400B0044 + 0x1000 * i
def R.CAN_DBT (i : Nat) : Nat := 0x400B0048 + 0x1000 * i
def R.CAN_STAT (i : Nat) : Nat := 0x400B004C + 0x1000 * i
def R.CAN_FLT (i x : Nat) : Nat := 0x400B0100 + 0x1000 * i + 0x4 * x
def R.ETH_CTRL (i : Nat) : Nat := 0x400B8040 + 0x1000 * i
def R.ETH_STAT (i : Nat) : Nat := 0x400B8044 + 0x1000 * i
def R.ETH_TXLEN (i : Nat) : Nat := 0x400B8050 + 0x1000 * i
def R.ETH_TXD (i : Nat) : Nat := 0x400B8054 + 0x1000 * i
def R.ETH_RXLEN (i : Nat) : Nat := 0x400B8058 + 0x1000 * i
def R.ETH_RXD (i : Nat) : Nat := 0x400B805C + 0x1000 * i
def R.ETH_PDLY (i : Nat) : Nat := 0x400B8060 + 0x1000 * i
def R.ETH_MCAST (i x : Nat) : Nat := 0x400B8080 + 0x1000 * i + 0x8 * x
def R.ETH_MCASTH (i x : Nat) : Nat := 0x400B8084 + 0x1000 * i + 0x8 * x
def R.PCIE_STAT : Nat := 0x400BA040
def R.SPIT_STAT : Nat := 0x400BB040
def R.XSPI_STAT : Nat := 0x400BC040
def R.DDR_CFG : Nat := 0x400BD040
def R.DDR_STAT : Nat := 0x400BD044
def R.DDR_ECC : Nat := 0x400BD048
def R.DDR_ECC_ADDR : Nat := 0x400BD04C
def R.REC_CTRL : Nat := 0x400C0040
def R.REC_CFG : Nat := 0x400C0044
def R.REC_POST : Nat := 0x400C0048
def R.REC_STAT : Nat := 0x400C004C
def R.REC_WSEQ : Nat := 0x400C0050
def R.REC_OLD : Nat := 0x400C0054
def R.REC_TRIG_SEQ : Nat := 0x400C0058
def R.REC_TRIG_INFO : Nat := 0x400C005C
def R.REC_APER : Nat := 0x400C0060
def R.REC_EXP : Nat := 0x400C0064
def R.REC_EXP_SEQ : Nat := 0x400C0068
def R.REC_TRIG_EN (i : Nat) : Nat := 0x400C0080 + 0x4 * i
def R.RPL_CTRL : Nat := 0x400C1040
def R.RPL_FROM : Nat := 0x400C1044
def R.RPL_TO : Nat := 0x400C1048
def R.RPL_STAT : Nat := 0x400C104C
def R.RPL_DIV_POS : Nat := 0x400C1050
def R.RPL_DIV_REC : Nat := 0x400C1054
def R.RPL_DIV_RES : Nat := 0x400C1058
def R.RPL_DIV_REF : Nat := 0x400C105C
def R.RPL_DIV_GOT : Nat := 0x400C1060
def R.RPL_DIV_TICK : Nat := 0x400C1064
def R.RPL_CNT : Nat := 0x400C1068
def R.RPL_LOAD : Nat := 0x400C106C
def R.DMP_CTRL : Nat := 0x400C2040
def R.DMP_STAT : Nat := 0x400C2044
def R.DMP_EXP : Nat := 0x400C2048
def R.PCIE_MSIX (i : Nat) : Nat := 0x400BA800 + 0x4 * i
def R.PCIE_PBA : Nat := 0x400BAA00
def R.CAN_RAM (i x : Nat) : Nat := 0x400B0400 + 0x1000 * i + 0x4 * x
def R.SFX_FRAME (i x : Nat) : Nat := 0x400AA400 + 0x40 * i + 0x4 * x

/-- Registers of the SYS block. -/
def regsSYS : List RegDef :=
  [ ⟨0x040, 0x0, 1, 0, 1,
      [⟨F.SYS_STATE_LINK_OK, .ro, 0⟩, ⟨F.SYS_STATE_CAUSE_VALID, .ro, 0⟩, ⟨F.SYS_STATE_CAUSE, .ro, 0⟩, 
       ⟨F.SYS_STATE_PREV, .ro, 0⟩, ⟨F.SYS_STATE_STATE, .ro, 0⟩]⟩,
    ⟨0x044, 0x0, 1, 0, 1,
      [⟨F.SYS_UID0_UID, .ro, 0⟩]⟩,
    ⟨0x048, 0x0, 1, 0, 1,
      [⟨F.SYS_UID1_UID, .ro, 0⟩]⟩,
    ⟨0x080, 0x0, 1, 0, 1,
      [⟨F.SYS_ABSENT_CNT_ABSENT_WR, .w1c, 0⟩, ⟨F.SYS_ABSENT_CNT_LAST_PAGE, .ro, 0⟩, 
       ⟨F.SYS_ABSENT_CNT_COUNT, .ro, 0⟩]⟩,
    ⟨0x100, 0x4, 4, 0, 1,
      [⟨F.SYS_PINOWN_RESULT, .ro, 0⟩, ⟨F.SYS_PINOWN_SRC, .rwc, 0⟩, ⟨F.SYS_PINOWN_OWNER, .rwc, 15⟩]⟩ ]

/-- Registers of the CAP block. -/
def regsCAP : List RegDef :=
  [ ⟨0x040, 0x0, 1, 0, 1,
      [⟨F.CAP_GROUPS_POS, .ro, 12⟩, ⟨F.CAP_GROUPS_LE, .ro, 8⟩, ⟨F.CAP_GROUPS_AUX, .ro, 8⟩, 
       ⟨F.CAP_GROUPS_TRACTION, .ro, 12⟩]⟩,
    ⟨0x044, 0x0, 1, 0, 1,
      [⟨F.CAP_RES_AIN, .ro, 96⟩, ⟨F.CAP_RES_SDD, .ro, 48⟩, ⟨F.CAP_RES_CMP, .ro, 72⟩, ⟨F.CAP_RES_CTX, .ro, 192⟩]⟩,
    ⟨0x048, 0x0, 1, 0, 1,
      [⟨F.CAP_ACC_MMX, .ro, 128⟩, ⟨F.CAP_ACC_ACC, .ro, 384⟩]⟩,
    ⟨0x04C, 0x0, 1, 0, 1,
      [⟨F.CAP_UNITS_TRACKS, .ro, 24⟩, ⟨F.CAP_UNITS_DDR, .ro, 1⟩, ⟨F.CAP_UNITS_RGB, .ro, 1⟩, 
       ⟨F.CAP_UNITS_RGA, .ro, 1⟩, ⟨F.CAP_UNITS_PCIE, .ro, 1⟩]⟩,
    ⟨0x050, 0x0, 1, 0, 1,
      [⟨F.CAP_REC_REC_KIB, .ro, 6291456⟩]⟩ ]

/-- Registers of the CLK block. -/
def regsCLK : List RegDef :=
  [ ⟨0x040, 0x0, 1, 0, 1,
      [⟨F.CLK_STAT_PLL_P, .ro, 0⟩, ⟨F.CLK_STAT_PLL_M, .ro, 0⟩, ⟨F.CLK_STAT_XCHK, .ro, 0⟩, 
       ⟨F.CLK_STAT_DEV, .ro, 0⟩]⟩ ]

/-- Registers of the PWR block. -/
def regsPWR : List RegDef :=
  [ ⟨0x040, 0x0, 1, 0, 1,
      [⟨F.PWR_STAT_P_OK, .ro, 0⟩, ⟨F.PWR_STAT_M_OK, .ro, 0⟩, ⟨F.PWR_STAT_WARN_P, .ro, 0⟩, 
       ⟨F.PWR_STAT_WARN_M, .ro, 0⟩, ⟨F.PWR_STAT_VDDIO_OK, .ro, 0⟩]⟩,
    ⟨0x044, 0x0, 1, 0, 1,
      [⟨F.PWR_TEMP_D_P, .ro, 0⟩, ⟨F.PWR_TEMP_D_M, .ro, 0⟩, ⟨F.PWR_TEMP_A_P, .ro, 0⟩, ⟨F.PWR_TEMP_A_M, .ro, 0⟩]⟩ ]

/-- Registers of the RST block. -/
def regsRST : List RegDef :=
  [ ⟨0x040, 0x0, 1, 0, 1,
      [⟨F.RST_CAUSE_WARM, .ro, 0⟩, ⟨F.RST_CAUSE_POR, .w1c, 1⟩, ⟨F.RST_CAUSE_SUPPLY, .w1c, 0⟩, 
       ⟨F.RST_CAUSE_PIN, .w1c, 0⟩, ⟨F.RST_CAUSE_SOFT, .w1c, 0⟩, ⟨F.RST_CAUSE_DBG, .w1c, 0⟩]⟩,
    ⟨0x044, 0x0, 1, 0, 1,
      [⟨F.RST_CTRL_SYS_RST, .rwk, 0⟩]⟩,
    ⟨0x048, 0x0, 1, 0, 1,
      [⟨F.RST_DOM_S0_HELD, .ro, 0⟩, ⟨F.RST_DOM_S1_HELD, .ro, 0⟩, ⟨F.RST_DOM_PCIE_RST, .ro, 0⟩]⟩ ]

/-- Registers of the SEC block. -/
def regsSEC : List RegDef :=
  [ ⟨0x040, 0x0, 1, 0, 1,
      [⟨F.SEC_LC_ROLLBACK, .ro, 0⟩, ⟨F.SEC_LC_REVOKED, .ro, 0⟩, ⟨F.SEC_LC_LC, .ro, 0⟩]⟩,
    ⟨0x044, 0x0, 1, 0, 1,
      [⟨F.SEC_LC_ADV_NEXT, .rwk, 0⟩]⟩,
    ⟨0x048, 0x0, 1, 0, 1,
      [⟨F.SEC_BOOT_VERSION, .ro, 0⟩, ⟨F.SEC_BOOT_ALT, .ro, 0⟩, ⟨F.SEC_BOOT_SLOT, .ro, 0⟩, 
       ⟨F.SEC_BOOT_FAIL1, .ro, 0⟩, ⟨F.SEC_BOOT_FAIL0, .ro, 0⟩]⟩,
    ⟨0x060, 0x4, 8, 0, 1,
      [⟨F.SEC_HASH_HASH, .ro, 0⟩]⟩ ]

/-- Registers of the EVT block. -/
def regsEVT : List RegDef :=
  [ ⟨0x040, 0x0, 1, 0, 1,
      [⟨F.EVT_LAST_SRC, .ro, 0⟩]⟩,
    ⟨0x044, 0x0, 1, 0, 1,
      [⟨F.EVT_LAST_T_GTC, .ro, 0⟩]⟩,
    ⟨0x050, 0x0, 1, 0, 1,
      [⟨F.EVT_STAT0_RAW, .ro, 0⟩]⟩,
    ⟨0x054, 0x0, 1, 0, 1,
      [⟨F.EVT_STAT1_RAW, .ro, 0⟩]⟩,
    ⟨0x100, 0x4, 64, 0, 1,
      [⟨F.EVT_RTE_S0_EN, .ro, 0⟩, ⟨F.EVT_RTE_S0_VEC, .ro, 0⟩, ⟨F.EVT_RTE_S1_EN, .ro, 0⟩, 
       ⟨F.EVT_RTE_S1_VEC, .ro, 0⟩, ⟨F.EVT_RTE_MSI_EN, .rwc, 0⟩, ⟨F.EVT_RTE_MSI_VEC, .rwc, 0⟩, 
       ⟨F.EVT_RTE_OUT_EN, .rwc, 0⟩, ⟨F.EVT_RTE_OUT_SEL, .rwc, 0⟩]⟩ ]

/-- Registers of the MBX block. -/
def regsMBX : List RegDef :=
  [ ⟨0x040, 0x0, 1, 0, 1,
      [⟨F.MBX_RIGHTS_LOCKED, .ro, 0⟩, ⟨F.MBX_RIGHTS_DBG_WR, .rwc, 0⟩, ⟨F.MBX_RIGHTS_SPI_WR, .rwc, 1⟩, 
       ⟨F.MBX_RIGHTS_HOST_WR, .rwc, 1⟩]⟩,
    ⟨0x044, 0x0, 1, 0, 1,
      [⟨F.MBX_FLAG0_RX_A, .ro, 0⟩]⟩,
    ⟨0x048, 0x0, 1, 0, 1,
      [⟨F.MBX_FLAG1_RX_B, .ro, 0⟩]⟩,
    ⟨0x04C, 0x0, 1, 0, 1,
      [⟨F.MBX_FULLF_FULL, .w1c, 0⟩]⟩,
    ⟨0x100, 0x20, 32, 0, 1,
      [⟨F.MBX_BIND_LOCKED, .ro, 0⟩, ⟨F.MBX_BIND_VALID, .ro, 0⟩, ⟨F.MBX_BIND_REC, .rwc, 0⟩, 
       ⟨F.MBX_BIND_RESULT, .ro, 0⟩, ⟨F.MBX_BIND_OWNER, .ro, 15⟩, ⟨F.MBX_BIND_MID_B, .rwc, 15⟩, 
       ⟨F.MBX_BIND_MID_A, .rwc, 15⟩]⟩,
    ⟨0x104, 0x20, 32, 0, 1,
      [⟨F.MBX_DATA_DATA, .rw, 0⟩]⟩,
    ⟨0x108, 0x20, 32, 0, 1,
      [⟨F.MBX_STAT_QFULL, .w1c, 0⟩, ⟨F.MBX_STAT_EMPTY_RD, .w1c, 0⟩, ⟨F.MBX_STAT_SIDE, .ro, 0⟩, 
       ⟨F.MBX_STAT_TX_CNT, .ro, 0⟩, ⟨F.MBX_STAT_TX_FREE, .ro, 8⟩, ⟨F.MBX_STAT_RX_CNT, .ro, 0⟩]⟩,
    ⟨0x10C, 0x20, 32, 0, 1,
      [⟨F.MBX_PEER_RST, .ro, 0⟩, ⟨F.MBX_PEER_SLEEP, .ro, 0⟩, ⟨F.MBX_PEER_RST_SEEN, .w1c, 0⟩, 
       ⟨F.MBX_PEER_ABSENT, .ro, 0⟩, ⟨F.MBX_PEER_UNKNOWN, .ro, 0⟩]⟩,
    ⟨0x110, 0x20, 32, 0, 1,
      [⟨F.MBX_CTRL_FLUSH, .wo, 0⟩]⟩,
    ⟨0x114, 0x20, 32, 0, 1,
      [⟨F.MBX_CNT_SENT, .ro, 0⟩, ⟨F.MBX_CNT_TAKEN, .ro, 0⟩]⟩ ]

/-- Registers of the LCK block. -/
def regsLCK : List RegDef :=
  [ ⟨0x040, 0x0, 1, 0, 1,
      [⟨F.LCK_FORCE_LOCK, .rwk, 0⟩]⟩,
    ⟨0x044, 0x0, 1, 0, 1,
      [⟨F.LCK_STAT_FORCED_CNT, .w1n, 0⟩, ⟨F.LCK_STAT_LAST_HOLDER, .ro, 0⟩, ⟨F.LCK_STAT_LAST_LOCK, .ro, 0⟩]⟩,
    ⟨0x048, 0x0, 1, 0, 1,
      [⟨F.LCK_HELD0_HELD, .ro, 0⟩]⟩,
    ⟨0x04C, 0x0, 1, 0, 1,
      [⟨F.LCK_HELD1_HELD, .ro, 0⟩]⟩,
    ⟨0x100, 0x4, 64, 0, 1,
      [⟨F.LCK_LOCK_HOLDER, .ro, 0⟩, ⟨F.LCK_LOCK_AGAIN, .ro, 0⟩, ⟨F.LCK_LOCK_HELD, .ro, 0⟩, 
       ⟨F.LCK_LOCK_GOT, .rw, 0⟩]⟩,
    ⟨0x200, 0x4, 64, 0, 1,
      [⟨F.LCK_PEEK_HOLDER, .ro, 0⟩, ⟨F.LCK_PEEK_HELD, .ro, 0⟩]⟩ ]

/-- Registers of the WIN block. -/
def regsWIN : List RegDef :=
  [ ⟨0x040, 0x0, 1, 0, 1,
      [⟨F.WIN_FORCE_WIN, .rwk, 0⟩]⟩,
    ⟨0x044, 0x0, 1, 0, 1,
      [⟨F.WIN_FLAG_GIVEN, .w1c, 0⟩]⟩,
    ⟨0x100, 0x10, 16, 0, 1,
      [⟨F.WIN_OWN_GEN, .ro, 0⟩, ⟨F.WIN_OWN_RESULT, .ro, 0⟩, ⟨F.WIN_OWN_GIVE, .wo, 0⟩, 
       ⟨F.WIN_OWN_PREV, .ro, 15⟩, ⟨F.WIN_OWN_OWNER, .rw, 15⟩]⟩,
    ⟨0x104, 0x10, 16, 0, 1,
      [⟨F.WIN_CFG_RDSHARE, .rwc, 0⟩]⟩,
    ⟨0x108, 0x10, 16, 0, 1,
      [⟨F.WIN_STAT_DENIED, .w1c, 0⟩, ⟨F.WIN_STAT_DENIED_CNT, .w1n, 0⟩]⟩ ]

/-- Registers of the TL block. -/
def regsTL : List RegDef :=
  [ ⟨0x040, 0x0, 1, 0, 1,
      [⟨F.TL_CTRL_SYNC_PORT, .rwc, 0⟩, ⟨F.TL_CTRL_SYNC_EN, .rwc, 0⟩]⟩,
    ⟨0x044, 0x0, 1, 0, 1,
      [⟨F.TL_GTC_LO_GTC_LO, .ro, 0⟩]⟩,
    ⟨0x048, 0x0, 1, 0, 1,
      [⟨F.TL_GTC_HI_GTC_HI, .ro, 0⟩]⟩,
    ⟨0x04C, 0x0, 1, 0, 1,
      [⟨F.TL_RATE_RATE, .rw, 0⟩]⟩,
    ⟨0x050, 0x0, 1, 0, 1,
      [⟨F.TL_VT_OFS_LO_OFS_LO, .rw, 0⟩]⟩,
    ⟨0x054, 0x0, 1, 0, 1,
      [⟨F.TL_VT_OFS_HI_OFS_HI, .rw, 0⟩]⟩,
    ⟨0x058, 0x0, 1, 0, 1,
      [⟨F.TL_SYNC_STAT_LOCKED, .ro, 0⟩, ⟨F.TL_SYNC_STAT_HOLDOVER, .ro, 0⟩, ⟨F.TL_SYNC_STAT_ERR, .ro, 0⟩]⟩,
    ⟨0x05C, 0x0, 1, 0, 1,
      [⟨F.TL_ZS_INFO_KIND, .ro, 0⟩, ⟨F.TL_ZS_INFO_COUNT, .w1n, 0⟩, ⟨F.TL_ZS_INFO_RESOURCE, .ro, 0⟩]⟩,
    ⟨0x060, 0x0, 1, 0, 1,
      [⟨F.TL_LAST_SKIP_COUNT, .w1n, 0⟩, ⟨F.TL_LAST_SKIP_SLOT, .ro, 0⟩]⟩,
    ⟨0x064, 0x0, 1, 0, 1,
      [⟨F.TL_TRK_FLAG_TRACK, .w1c, 0⟩]⟩ ]
  ++ [ ⟨0x080, 0x4, 32, 0, 1,
      [⟨F.TL_SLOT_CLAIM_RESULT, .ro, 0⟩, ⟨F.TL_SLOT_CLAIM_OWNER, .rwc, 15⟩]⟩ ]

/-- Registers of the TLS block. -/
def regsTLS : List RegDef :=
  [ ⟨0x040, 0xC, 256, 0, 1,
      [⟨F.SLOT_TRIG_ARMED, .rw, 0⟩, ⟨F.SLOT_TRIG_REARM, .rwc, 0⟩, ⟨F.SLOT_TRIG_TYPE, .rwc, 0⟩, 
       ⟨F.SLOT_TRIG_DIR, .rwc, 0⟩, ⟨F.SLOT_TRIG_SRC, .rwc, 0⟩, ⟨F.SLOT_TRIG_CEVT, .rwc, 0⟩, 
       ⟨F.SLOT_TRIG_CDIV, .rwc, 0⟩, ⟨F.SLOT_TRIG_TGT_ABSENT, .ro, 0⟩, ⟨F.SLOT_TRIG_SKIPPED, .ro, 0⟩, 
       ⟨F.SLOT_TRIG_FIRED, .ro, 0⟩]⟩,
    ⟨0x044, 0xC, 256, 0, 1,
      [⟨F.SLOT_ARG_ARG, .rw, 0⟩]⟩,
    ⟨0x048, 0xC, 256, 0, 1,
      [⟨F.SLOT_ACT_ACTION, .rwc, 0⟩, ⟨F.SLOT_ACT_TARGET, .rwc, 0⟩, ⟨F.SLOT_ACT_SPAN, .rwc, 0⟩, 
       ⟨F.SLOT_ACT_PARAM, .rwc, 0⟩, ⟨F.SLOT_ACT_REC_FIRE, .rwc, 0⟩]⟩ ]

/-- Registers of the TRK block. -/
def regsTRK : List RegDef :=
  [ ⟨0x040, 0x40, 24, 0, 1,
      [⟨F.TRK_CFG_SRC, .rwc, 0⟩, ⟨F.TRK_CFG_CTX, .rwc, 0⟩, ⟨F.TRK_CFG_PP, .rwc, 0⟩, ⟨F.TRK_CFG_INV, .rwc, 0⟩]⟩,
    ⟨0x044, 0x40, 24, 0, 1,
      [⟨F.TRK_TOL_SLEW_TOL, .rwc, 1024⟩]⟩,
    ⟨0x048, 0x40, 24, 0, 1,
      [⟨F.TRK_JUMP_JUMP_LIM, .rwc, 16384⟩]⟩,
    ⟨0x04C, 0x40, 24, 0, 1,
      [⟨F.TRK_SLEWMAX_SLEW_MAX, .rwc, 209715⟩]⟩,
    ⟨0x050, 0x40, 24, 0, 1,
      [⟨F.TRK_STALE_STALE, .rwc, 0⟩]⟩,
    ⟨0x054, 0x40, 24, 0, 1,
      [⟨F.TRK_ANG_FRAC, .rw, 0⟩, ⟨F.TRK_ANG_ANG, .rw, 0⟩]⟩,
    ⟨0x058, 0x40, 24, 0, 1,
      [⟨F.TRK_SPD_SPD, .rw, 0⟩]⟩,
    ⟨0x05C, 0x40, 24, 0, 1,
      [⟨F.TRK_STAT_VALID, .ro, 0⟩, ⟨F.TRK_STAT_STALE, .ro, 0⟩, ⟨F.TRK_STAT_STOPPED, .ro, 1⟩, 
       ⟨F.TRK_STAT_DIR, .ro, 0⟩, ⟨F.TRK_STAT_SLEWING, .ro, 0⟩, ⟨F.TRK_STAT_UNCERT, .ro, 0⟩, 
       ⟨F.TRK_STAT_LAST_ERR, .ro, 0⟩]⟩,
    ⟨0x060, 0x40, 24, 0, 1,
      [⟨F.TRK_CLAIM_RESULT, .ro, 0⟩, ⟨F.TRK_CLAIM_OWNER, .rwc, 15⟩]⟩ ]

/-- Registers of the ADA block. -/
def regsADA : List RegDef :=
  [ ⟨0x040, 0x0, 1, 0, 1,
      [⟨F.ADA_CTRL_OW_EN, .rwc, 1⟩, ⟨F.ADA_CTRL_ROT_EN, .rwc, 1⟩]⟩,
    ⟨0x044, 0x0, 1, 0, 1,
      [⟨F.ADA_ROT_CFG_OVL, .rwc, 16⟩, ⟨F.ADA_ROT_CFG_INTV, .rwc, 10000⟩]⟩,
    ⟨0x048, 0x0, 1, 0, 1,
      [⟨F.ADA_ROT_TOL_MAX, .rwc, 64⟩, ⟨F.ADA_ROT_TOL_MEAN, .rwc, 8⟩]⟩,
    ⟨0x04C, 0x0, 1, 0, 1,
      [⟨F.ADA_CAL_CFG_SPARE_MIN, .rwc, 2⟩, ⟨F.ADA_CAL_CFG_CAL_MAX, .rwc, 1000⟩]⟩,
    ⟨0x050, 0x0, 1, 0, 1,
      [⟨F.ADA_ROT_STAT_LAST_L, .ro, 0⟩, ⟨F.ADA_ROT_STAT_FAILED, .ro, 0⟩, ⟨F.ADA_ROT_STAT_SPARES, .ro, 4⟩, 
       ⟨F.ADA_ROT_STAT_PTR, .ro, 0⟩]⟩,
    ⟨0x060, 0x4, 3, 0, 1,
      [⟨F.ADA_OW_OPEN_OPEN, .w1c, 0⟩]⟩,
    ⟨0x070, 0x4, 3, 0, 1,
      [⟨F.ADA_OW_INC_INC, .w1c, 0⟩]⟩,
    ⟨0x100, 0x10, 48, 0, 1,
      [⟨F.ADA_SEQ_LEN, .rwc, 1⟩, ⟨F.ADA_SEQ_IN3, .rwc, 127⟩, ⟨F.ADA_SEQ_IN2, .rwc, 127⟩, 
       ⟨F.ADA_SEQ_IN1, .rwc, 0⟩, ⟨F.ADA_SEQ_IN0, .rwc, 0⟩]⟩,
    ⟨0x104, 0x10, 48, 0, 1,
      [⟨F.ADA_LCFG_EN, .rwc, 0⟩, ⟨F.ADA_LCFG_PHASE, .rwc, 0⟩]⟩,
    ⟨0x108, 0x10, 48, 0, 1,
      [⟨F.ADA_LCLAIM_RESULT, .ro, 0⟩, ⟨F.ADA_LCLAIM_OWNER, .rwc, 15⟩]⟩ ]
  ++ [ ⟨0x10C, 0x10, 48, 0, 1,
      [⟨F.ADA_LSTAT_SEQ_RESULT, .ro, 0⟩, ⟨F.ADA_LSTAT_CONF_L, .ro, 0⟩, ⟨F.ADA_LSTAT_CONF_IN, .ro, 0⟩, 
       ⟨F.ADA_LSTAT_CAL_STALE, .ro, 0⟩, ⟨F.ADA_LSTAT_FORCED, .ro, 0⟩, ⟨F.ADA_LSTAT_PSL, .ro, 0⟩]⟩,
    ⟨0x400, 0x4, 96, 0, 1,
      [⟨F.ADA_OW_CFG_THR, .rwc, 0⟩, ⟨F.ADA_OW_CFG_RECOVER, .rwc, 20⟩, ⟨F.ADA_OW_CFG_SETTLE, .rwc, 20⟩, 
       ⟨F.ADA_OW_CFG_CUR, .rwc, 0⟩, ⟨F.ADA_OW_CFG_MODE, .rwc, 0⟩]⟩,
    ⟨0x600, 0x4, 52, 0, 1,
      [⟨F.ADA_PSL_GAIN_ERR, .ro, 0⟩, ⟨F.ADA_PSL_OFS, .ro, 0⟩, ⟨F.ADA_PSL_FAIL_CAUSE, .ro, 0⟩, 
       ⟨F.ADA_PSL_LSL, .ro, 0⟩, ⟨F.ADA_PSL_STATE, .ro, 0⟩]⟩ ]

/-- Registers of the ADB block. -/
def regsADB : List RegDef :=
  [ ⟨0x040, 0x4, 12, 0, 1,
      [⟨F.ADB_CLK_EN, .rwm, 0⟩, ⟨F.ADB_CLK_DIV, .rwm, 20⟩]⟩,
    ⟨0x080, 0x0, 1, 0, 1,
      [⟨F.ADB_CFG_STUCK_N, .rwm, 64⟩]⟩,
    ⟨0x100, 0x10, 48, 0, 1,
      [⟨F.ADB_CH_CFG_EN, .rwm, 0⟩, ⟨F.ADB_CH_CFG_CLK, .rwm, 0⟩, ⟨F.ADB_CH_CFG_EDGE, .rwm, 0⟩, 
       ⟨F.ADB_CH_CFG_DLY, .rwm, 0⟩, ⟨F.ADB_CH_CFG_FAST_OSR, .rwm, 16⟩, ⟨F.ADB_CH_CFG_ACC_COPY, .rwm, 0⟩, 
       ⟨F.ADB_CH_CFG_OSR, .rwm, 64⟩]⟩,
    ⟨0x104, 0x10, 48, 0, 1,
      [⟨F.ADB_CH_OVR_LO, .rwm, 32768⟩, ⟨F.ADB_CH_OVR_HI, .rwm, 32767⟩]⟩,
    ⟨0x10C, 0x10, 48, 0, 1,
      [⟨F.ADB_CH_STAT_RUN, .ro, 0⟩, ⟨F.ADB_CH_STAT_OVR, .w1c, 0⟩, ⟨F.ADB_CH_STAT_CLIP, .w1c, 0⟩, 
       ⟨F.ADB_CH_STAT_STUCK, .w1c, 0⟩]⟩ ]

/-- Registers of the ACC block. -/
def regsACC : List RegDef :=
  [ ⟨0x040, 0x4, 2, 0, 1,
      [⟨F.ACC_FLAG_ACC, .w1c, 0⟩]⟩,
    ⟨0x100, 0x20, 64, 0, 1,
      [⟨F.ACC_CFG_MODE, .rwc, 3⟩, ⟨F.ACC_CFG_SRC_KIND, .rwc, 0⟩, ⟨F.ACC_CFG_SRC, .rwc, 0⟩, 
       ⟨F.ACC_CFG_OW_ACC, .rwc, 0⟩, ⟨F.ACC_CFG_EXC, .rwc, 0⟩, ⟨F.ACC_CFG_NMIN, .rwc, 0⟩]⟩,
    ⟨0x104, 0x20, 64, 0, 1,
      [⟨F.ACC_GAIN_GAIN, .rwc, 0⟩]⟩,
    ⟨0x108, 0x20, 64, 0, 1,
      [⟨F.ACC_OFS_OFS, .rwc, 0⟩]⟩,
    ⟨0x10C, 0x20, 64, 0, 1,
      [⟨F.ACC_EXP_SGN_DLY, .rwc, 0⟩, ⟨F.ACC_EXP_RES1_EXP, .rwc, 0⟩, ⟨F.ACC_EXP_RES0_EXP, .rwc, 0⟩, 
       ⟨F.ACC_EXP_GAIN_EXP, .rwc, 0⟩]⟩,
    ⟨0x110, 0x20, 64, 0, 1,
      [⟨F.ACC_RES0_RES0, .ro, 0⟩]⟩,
    ⟨0x114, 0x20, 64, 0, 1,
      [⟨F.ACC_RES1_RES1, .ro, 0⟩]⟩,
    ⟨0x118, 0x20, 64, 0, 1,
      [⟨F.ACC_CNT_SEQ, .ro, 0⟩, ⟨F.ACC_CNT_N, .ro, 0⟩]⟩,
    ⟨0x11C, 0x20, 64, 0, 1,
      [⟨F.ACC_STAT_OPEN, .ro, 0⟩, ⟨F.ACC_STAT_PEND, .ro, 0⟩, ⟨F.ACC_STAT_LOST, .w1n, 0⟩, 
       ⟨F.ACC_STAT_OVF, .ro, 0⟩, ⟨F.ACC_STAT_SHORT, .ro, 0⟩, ⟨F.ACC_STAT_EMPTY, .ro, 0⟩, 
       ⟨F.ACC_STAT_SAT1, .ro, 0⟩, ⟨F.ACC_STAT_SAT0, .ro, 0⟩]⟩,
    ⟨0x900, 0x4, 64, 0, 1,
      [⟨F.ACC_CLAIM_RESULT, .ro, 0⟩, ⟨F.ACC_CLAIM_OWNER, .rwc, 15⟩]⟩ ]

/-- Registers of the MMX block. -/
def regsMMX : List RegDef :=
  [ ⟨0x040, 0x4, 2, 0, 1,
      [⟨F.MMX_FLAG_TRK, .w1c, 0⟩]⟩,
    ⟨0x100, 0x20, 64, 0, 1,
      [⟨F.MMX_CFG_EN, .rwc, 0⟩, ⟨F.MMX_CFG_HOLD, .rwc, 0⟩, ⟨F.MMX_CFG_LINK, .rwc, 511⟩, 
       ⟨F.MMX_CFG_LIM_EN, .rwc, 0⟩]⟩,
    ⟨0x104, 0x20, 64, 0, 1,
      [⟨F.MMX_MIN_MIN, .ro, 0⟩]⟩,
    ⟨0x108, 0x20, 64, 0, 1,
      [⟨F.MMX_MAX_MAX, .ro, 0⟩]⟩,
    ⟨0x10C, 0x20, 64, 0, 1,
      [⟨F.MMX_STAT_CLR, .wo, 0⟩, ⟨F.MMX_STAT_LO_HIT, .w1c, 0⟩, ⟨F.MMX_STAT_HI_HIT, .w1c, 0⟩, 
       ⟨F.MMX_STAT_EMPTY, .ro, 1⟩, ⟨F.MMX_STAT_SAT, .ro, 0⟩]⟩,
    ⟨0x110, 0x20, 64, 0, 1,
      [⟨F.MMX_LIM_HI_LIM_HI, .rw, 524287⟩]⟩,
    ⟨0x114, 0x20, 64, 0, 1,
      [⟨F.MMX_LIM_LO_LIM_LO, .rw, 4294443008⟩]⟩,
    ⟨0x118, 0x20, 64, 0, 1,
      [⟨F.MMX_CLAIM_RESULT, .ro, 0⟩, ⟨F.MMX_CLAIM_OWNER, .rwc, 15⟩]⟩ ]

/-- Registers of the CMP block. -/
def regsCMP : List RegDef :=
  [ ⟨0x040, 0x0, 1, 0, 1,
      [⟨F.CMP_FLAG0_CMP, .w1c, 0⟩]⟩,
    ⟨0x044, 0x0, 1, 0, 1,
      [⟨F.CMP_FLAG1_CMP, .w1c, 0⟩]⟩,
    ⟨0x100, 0x20, 36, 0, 1,
      [⟨F.CMP_CFG_EN, .rw, 0⟩, ⟨F.CMP_CFG_CLASS, .rwc, 0⟩, ⟨F.CMP_CFG_MODE, .rw, 0⟩, 
       ⟨F.CMP_CFG_HYST, .rwc, 0⟩, ⟨F.CMP_CFG_HI_EN, .rwc, 0⟩, ⟨F.CMP_CFG_LO_EN, .rwc, 0⟩, 
       ⟨F.CMP_CFG_OWMASK, .rwc, 0⟩, ⟨F.CMP_CFG_REC_LIM, .rwc, 0⟩, ⟨F.CMP_CFG_REL_N, .rwc, 4⟩, 
       ⟨F.CMP_CFG_INSEL, .rwc, 127⟩]⟩,
    ⟨0x104, 0x20, 36, 0, 1,
      [⟨F.CMP_THR_HI, .rw, 1023⟩, ⟨F.CMP_THR_LO, .rw, 0⟩]⟩,
    ⟨0x108, 0x20, 36, 0, 1,
      [⟨F.CMP_RAMP_RAMP_EN, .rwc, 0⟩, ⟨F.CMP_RAMP_CEVT, .rwc, 0⟩, ⟨F.CMP_RAMP_GRP, .rwc, 0⟩, 
       ⟨F.CMP_RAMP_FLOOR, .rw, 0⟩, ⟨F.CMP_RAMP_SLOPE, .rw, 0⟩]⟩,
    ⟨0x10C, 0x20, 36, 0, 1,
      [⟨F.CMP_ROUTE_SW_SEL, .rwc, 2⟩, ⟨F.CMP_ROUTE_LEGS, .rwc, 0⟩, ⟨F.CMP_ROUTE_GROUPS, .rwc, 0⟩]⟩,
    ⟨0x110, 0x20, 36, 0, 1,
      [⟨F.CMP_BLANK_AUTO_EN, .rwc, 0⟩, ⟨F.CMP_BLANK_AUTO_GRP, .rwc, 0⟩, ⟨F.CMP_BLANK_AUTO_LEN, .rwc, 0⟩]⟩,
    ⟨0x114, 0x20, 36, 0, 1,
      [⟨F.CMP_STRB_DIV, .rwc, 4000⟩]⟩,
    ⟨0x118, 0x20, 36, 0, 1,
      [⟨F.CMP_STAT_CLR, .wo, 0⟩, ⟨F.CMP_STAT_CLR_FAIL, .w1c, 0⟩, ⟨F.CMP_STAT_START_LATE, .w1c, 0⟩, 
       ⟨F.CMP_STAT_TRIP_CNT, .w1n, 0⟩, ⟨F.CMP_STAT_LAST_LO, .ro, 0⟩, ⟨F.CMP_STAT_BLANKED, .ro, 0⟩, 
       ⟨F.CMP_STAT_STARTING, .ro, 0⟩, ⟨F.CMP_STAT_BLANK_CAPPED, .w1c, 0⟩, ⟨F.CMP_STAT_LATCHED, .ro, 0⟩, 
       ⟨F.CMP_STAT_OUT, .ro, 0⟩]⟩,
    ⟨0x11C, 0x20, 36, 0, 1,
      [⟨F.CMP_CLAIM_RESULT, .ro, 0⟩, ⟨F.CMP_CLAIM_OWNER, .rwc, 15⟩]⟩ ]

/-- Registers of the POS block. -/
def regsPOS : List RegDef :=
  [ ⟨0x040, 0x0, 1, 0, 1,
      [⟨F.POS_CFG_MODE, .rwc, 0⟩, ⟨F.POS_CFG_ELEC, .rwc, 0⟩, ⟨F.POS_CFG_INV, .rwc, 0⟩, 
       ⟨F.POS_CFG_IDX_EN, .rwc, 0⟩, ⟨F.POS_CFG_DECAY_EN, .rwc, 1⟩, ⟨F.POS_CFG_FILT, .rwc, 8⟩, 
       ⟨F.POS_CFG_UPD_MIN, .rwc, 400⟩]⟩,
    ⟨0x044, 0x0, 1, 0, 1,
      [⟨F.POS_LINES_LINES, .rwc, 1024⟩]⟩,
    ⟨0x048, 0x0, 1, 0, 1,
      [⟨F.POS_SPD_CFG_SPD_M, .rwc, 4⟩, ⟨F.POS_SPD_CFG_ZS, .rwc, 10000⟩]⟩,
    ⟨0x04C, 0x0, 1, 0, 1,
      [⟨F.POS_OFS_OFS, .rwc, 0⟩]⟩,
    ⟨0x050, 0x0, 1, 0, 1,
      [⟨F.POS_IDX_EXP_EXP, .ro, 0⟩]⟩,
    ⟨0x054, 0x0, 1, 0, 1,
      [⟨F.POS_IDX_CTRL_CORR, .w1s, 0⟩, ⟨F.POS_IDX_CTRL_QUAL, .rwc, 0⟩, ⟨F.POS_IDX_CTRL_TOL, .rwc, 2⟩]⟩,
    ⟨0x058, 0x0, 1, 0, 1,
      [⟨F.POS_COUNT_COUNT, .ro, 0⟩]⟩,
    ⟨0x05C, 0x0, 1, 0, 1,
      [⟨F.POS_IDX_LATCH_LATCH, .ro, 0⟩]⟩,
    ⟨0x060, 0x0, 1, 0, 1,
      [⟨F.POS_IDX_DEV_DEV, .ro, 0⟩]⟩,
    ⟨0x064, 0x0, 1, 0, 1,
      [⟨F.POS_ANG_ANG, .ro, 0⟩]⟩ ]
  ++ [ ⟨0x068, 0x0, 1, 0, 1,
      [⟨F.POS_SPD_SPD, .ro, 0⟩]⟩,
    ⟨0x06C, 0x0, 1, 0, 1,
      [⟨F.POS_STAT_VALID, .ro, 0⟩, ⟨F.POS_STAT_UNCERT, .ro, 0⟩, ⟨F.POS_STAT_STOPPED, .ro, 1⟩, 
       ⟨F.POS_STAT_DIR, .ro, 0⟩, ⟨F.POS_STAT_BUSY, .ro, 0⟩, ⟨F.POS_STAT_CFG_ERR, .ro, 0⟩, 
       ⟨F.POS_STAT_CORRECTED, .w1c, 0⟩, ⟨F.POS_STAT_IDX_SEEN, .ro, 0⟩, ⟨F.POS_STAT_UNC_CLR, .wo, 0⟩]⟩,
    ⟨0x070, 0x0, 1, 0, 1,
      [⟨F.POS_ERRCNT_QERR_CNT, .w1n, 0⟩, ⟨F.POS_ERRCNT_ERR_CNT, .w1n, 0⟩]⟩,
    ⟨0x074, 0x0, 1, 0, 1,
      [⟨F.POS_SER_CLK_SDLY, .rwc, 0⟩, ⟨F.POS_SER_CLK_DIV, .rwc, 40⟩]⟩,
    ⟨0x078, 0x0, 1, 0, 1,
      [⟨F.POS_SER_FMT_BITS, .rwc, 24⟩, ⟨F.POS_SER_FMT_GRAY, .rwc, 0⟩, ⟨F.POS_SER_FMT_ERR_EN, .rwc, 0⟩, 
       ⟨F.POS_SER_FMT_ERR_POL, .rwc, 0⟩, ⟨F.POS_SER_FMT_ERR_POS, .rwc, 0⟩, ⟨F.POS_SER_FMT_POS_LSB, .rwc, 0⟩, 
       ⟨F.POS_SER_FMT_POS_LEN, .rwc, 20⟩, ⟨F.POS_SER_FMT_TURN_LEN, .rwc, 0⟩]⟩,
    ⟨0x07C, 0x0, 1, 0, 1,
      [⟨F.POS_SER_TIME_LAT, .rwc, 0⟩, ⟨F.POS_SER_TIME_TOUT, .rwc, 4000⟩]⟩,
    ⟨0x080, 0x0, 1, 0, 1,
      [⟨F.POS_TURNS_TURNS, .ro, 0⟩]⟩,
    ⟨0x084, 0x0, 1, 0, 1,
      [⟨F.POS_RES_CFG_ACC_SIN, .rwc, 511⟩, ⟨F.POS_RES_CFG_ACC_COS, .rwc, 511⟩]⟩,
    ⟨0x088, 0x0, 1, 0, 1,
      [⟨F.POS_RES_AMP_AMP_HI, .rwc, 65535⟩, ⟨F.POS_RES_AMP_AMP_LO, .rwc, 0⟩]⟩,
    ⟨0x08C, 0x0, 1, 0, 1,
      [⟨F.POS_HALL_MAP, .rwc, 15647367⟩]⟩ ]
  ++ [ ⟨0x0C0, 0x0, 1, 0, 1,
      [⟨F.SHD_CFG_EN, .rwm, 0⟩, ⟨F.SHD_CFG_MODE, .rwm, 0⟩, ⟨F.SHD_CFG_SRC, .rwm, 0⟩, 
       ⟨F.SHD_CFG_FILT, .rwm, 8⟩, ⟨F.SHD_CFG_SDLY, .rwm, 0⟩, ⟨F.SHD_CFG_IDX_EN, .rwm, 0⟩]⟩,
    ⟨0x0C4, 0x0, 1, 0, 1,
      [⟨F.SHD_FMT_BITS, .rwm, 24⟩, ⟨F.SHD_FMT_GRAY, .rwm, 0⟩, ⟨F.SHD_FMT_ERR_EN, .rwm, 0⟩, 
       ⟨F.SHD_FMT_ERR_POL, .rwm, 0⟩, ⟨F.SHD_FMT_ERR_POS, .rwm, 0⟩, ⟨F.SHD_FMT_POS_LSB, .rwm, 0⟩, 
       ⟨F.SHD_FMT_POS_LEN, .rwm, 20⟩, ⟨F.SHD_FMT_TURN_LEN, .rwm, 0⟩]⟩,
    ⟨0x0C8, 0x0, 1, 0, 1,
      [⟨F.SHD_GEOM_SPD_M, .rwm, 4⟩, ⟨F.SHD_GEOM_LINES, .rwm, 1024⟩]⟩,
    ⟨0x0CC, 0x0, 1, 0, 1,
      [⟨F.SHD_OFS_OFS, .rwm, 0⟩]⟩,
    ⟨0x0D0, 0x0, 1, 0, 1,
      [⟨F.SHD_RES_SDD_S, .rwm, 63⟩, ⟨F.SHD_RES_SDD_C, .rwm, 63⟩, ⟨F.SHD_RES_SDD_E, .rwm, 63⟩]⟩,
    ⟨0x0D4, 0x0, 1, 0, 1,
      [⟨F.SHD_ANG_ANG, .ro, 0⟩]⟩,
    ⟨0x0D8, 0x0, 1, 0, 1,
      [⟨F.SHD_SPD_SPD, .ro, 0⟩]⟩,
    ⟨0x0DC, 0x0, 1, 0, 1,
      [⟨F.SHD_STAT_VALID, .ro, 0⟩, ⟨F.SHD_STAT_UNCERT, .ro, 0⟩, ⟨F.SHD_STAT_STOPPED, .ro, 1⟩, 
       ⟨F.SHD_STAT_DIR, .ro, 0⟩, ⟨F.SHD_STAT_ERR_CNT, .w1n, 0⟩]⟩ ]

/-- Registers of the EMU block. -/
def regsEMU : List RegDef :=
  [ ⟨0x040, 0x10, 4, 0, 1,
      [⟨F.EMU_CFG_EN, .rwc, 0⟩, ⟨F.EMU_CFG_INV, .rwc, 0⟩, ⟨F.EMU_CFG_HOLD, .rwc, 0⟩, 
       ⟨F.EMU_CFG_TRK, .rwc, 0⟩, ⟨F.EMU_CFG_LINES, .rwc, 1024⟩]⟩,
    ⟨0x044, 0x10, 4, 0, 1,
      [⟨F.EMU_EDGE_LAG_MAX, .rwc, 64⟩, ⟨F.EMU_EDGE_MIN_EDGE, .rwc, 20⟩]⟩,
    ⟨0x048, 0x10, 4, 0, 1,
      [⟨F.EMU_STAT_RUN, .ro, 0⟩, ⟨F.EMU_STAT_LAGGING, .ro, 0⟩, ⟨F.EMU_STAT_OUT, .ro, 0⟩]⟩,
    ⟨0x04C, 0x10, 4, 0, 1,
      [⟨F.EMU_CLAIM_RESULT, .ro, 0⟩, ⟨F.EMU_CLAIM_OWNER, .rwc, 15⟩]⟩ ]

/-- Registers of the EXC block. -/
def regsEXC : List RegDef :=
  [ ⟨0x040, 0x10, 4, 0, 1,
      [⟨F.EXC_CFG_EN, .rwc, 0⟩, ⟨F.EXC_CFG_PER, .rwc, 40000⟩]⟩,
    ⟨0x044, 0x10, 4, 0, 1,
      [⟨F.EXC_AMP_AMP, .rwc, 0⟩]⟩,
    ⟨0x048, 0x10, 4, 0, 1,
      [⟨F.EXC_STAT_RUN, .ro, 0⟩, ⟨F.EXC_STAT_FAULT, .w1c, 0⟩, ⟨F.EXC_STAT_PHASE, .ro, 0⟩]⟩,
    ⟨0x04C, 0x10, 4, 0, 1,
      [⟨F.EXC_CLAIM_RESULT, .ro, 0⟩, ⟨F.EXC_CLAIM_OWNER, .rwc, 15⟩]⟩ ]

/-- Registers of the LEC block. -/
def regsLEC : List RegDef :=
  [ ⟨0x040, 0x0, 1, 0, 1,
      [⟨F.LEC_CTRL_ENG_EN, .rwc, 255⟩]⟩,
    ⟨0x044, 0x0, 1, 0, 1,
      [⟨F.LEC_ECC_LAST_CTX, .ro, 0⟩, ⟨F.LEC_ECC_UNCORR, .w1n, 0⟩, ⟨F.LEC_ECC_CORR, .w1n, 0⟩]⟩,
    ⟨0x050, 0x4, 6, 0, 1,
      [⟨F.LEC_FLAG_CTX, .w1c, 0⟩]⟩,
    ⟨0x100, 0x4, 192, 0, 1,
      [⟨F.LEC_CTX_CLAIM_RESULT, .ro, 0⟩, ⟨F.LEC_CTX_CLAIM_OWNER, .rwc, 15⟩]⟩ ]

/-- Registers of the LE block. -/
def regsLE : List RegDef :=
  [ ⟨0x040, 0x0, 1, 0, 1,
      [⟨F.LE_STAT_RUN_CTX, .ro, 255⟩, ⟨F.LE_STAT_RCP_CTX, .ro, 255⟩, ⟨F.LE_STAT_READY, .ro, 0⟩, 
       ⟨F.LE_STAT_BOUND, .ro, 0⟩]⟩,
    ⟨0x044, 0x0, 1, 0, 1,
      [⟨F.LE_LOAD_NORM, .ro, 0⟩, ⟨F.LE_LOAD_RCP, .ro, 0⟩]⟩,
    ⟨0x048, 0x0, 1, 0, 1,
      [⟨F.LE_MAXWAIT_CTX, .ro, 0⟩, ⟨F.LE_MAXWAIT_MAX, .w1n, 0⟩]⟩,
    ⟨0x04C, 0x0, 1, 0, 1,
      [⟨F.LE_DROP_OVERRUN, .w1n, 0⟩, ⟨F.LE_DROP_DROP, .w1n, 0⟩]⟩ ]

/-- Registers of the PWT block. -/
def regsPWT : List RegDef :=
  [ ⟨0x040, 0x0, 1, 0, 1,
      [⟨F.PWT_CTRL_MODE, .rwc, 0⟩, ⟨F.PWT_CTRL_DBL, .rwc, 0⟩, ⟨F.PWT_CTRL_DSRC, .rwc, 0⟩, 
       ⟨F.PWT_CTRL_POLICY, .rwc, 0⟩, ⟨F.PWT_CTRL_REF, .rwc, 0⟩, ⟨F.PWT_CTRL_DITH_FORCE, .rwc, 0⟩]⟩,
    ⟨0x044, 0x0, 1, 0, 1,
      [⟨F.PWT_PER_PER, .rw, 20000⟩]⟩,
    ⟨0x048, 0x0, 1, 0, 1,
      [⟨F.PWT_PHASE_PHASE, .rwc, 0⟩]⟩,
    ⟨0x04C, 0x0, 1, 0, 1,
      [⟨F.PWT_DT_DTL, .rwc, 400⟩, ⟨F.PWT_DT_DTH, .rwc, 400⟩]⟩,
    ⟨0x050, 0x0, 1, 0, 1,
      [⟨F.PWT_MINP_MINP, .rwc, 100⟩]⟩,
    ⟨0x054, 0x0, 1, 0, 1,
      [⟨F.PWT_PMIN_PMIN, .rwc, 2000⟩]⟩,
    ⟨0x058, 0x0, 1, 0, 1,
      [⟨F.PWT_PMAX_PMAX, .rwc, 800000⟩]⟩,
    ⟨0x05C, 0x0, 1, 0, 1,
      [⟨F.PWT_TCON_TCON, .rw, 10000⟩]⟩,
    ⟨0x060, 0x0, 1, 0, 1,
      [⟨F.PWT_ALK_NP, .rwc, 1⟩, ⟨F.PWT_ALK_TRK, .rwc, 0⟩]⟩,
    ⟨0x064, 0x0, 1, 0, 1,
      [⟨F.PWT_ALK_TH_TH0, .rwc, 0⟩]⟩ ]
  ++ [ ⟨0x068, 0x0, 1, 0, 1,
      [⟨F.PWT_ALK_ON_ON, .rwc, 4294967295⟩]⟩,
    ⟨0x06C, 0x0, 1, 0, 1,
      [⟨F.PWT_ALK_OFF_OFF, .rwc, 0⟩]⟩,
    ⟨0x080, 0x4, 3, 0, 1,
      [⟨F.PWT_STAGE_DUTY, .rw, 0⟩]⟩,
    ⟨0x08C, 0x0, 1, 0, 1,
      [⟨F.PWT_COMMIT_GO, .wo, 0⟩]⟩,
    ⟨0x090, 0x4, 3, 0, 1,
      [⟨F.PWT_ACT_DUTY, .ro, 0⟩]⟩,
    ⟨0x0A0, 0x4, 3, 0, 1,
      [⟨F.PWT_LEG_FORCE, .rw, 0⟩, ⟨F.PWT_LEG_IMM, .rw, 0⟩, ⟨F.PWT_LEG_SWAP, .rwc, 0⟩, ⟨F.PWT_LEG_INV, .rwc, 0⟩]⟩,
    ⟨0x0B0, 0x4, 3, 0, 1,
      [⟨F.PWT_CARRY_CARRY, .ro, 0⟩]⟩,
    ⟨0x0C0, 0x0, 1, 0, 1,
      [⟨F.PWT_STAT_RUN, .ro, 0⟩, ⟨F.PWT_STAT_ALOCKED, .ro, 0⟩, ⟨F.PWT_STAT_DITHER, .ro, 0⟩, 
       ⟨F.PWT_STAT_VALID, .ro, 0⟩, ⟨F.PWT_STAT_CFG_ERR, .ro, 0⟩, ⟨F.PWT_STAT_CAUSE, .ro, 0⟩, 
       ⟨F.PWT_STAT_DCLAMP, .w1c, 0⟩, ⟨F.PWT_STAT_CARRY_LIM, .w1c, 0⟩, ⟨F.PWT_STAT_ALK_CLAMP, .w1c, 0⟩, 
       ⟨F.PWT_STAT_LATE, .w1c, 0⟩, ⟨F.PWT_STAT_FORCED, .ro, 0⟩]⟩,
    ⟨0x0C4, 0x0, 1, 0, 1,
      [⟨F.PWT_CNT_MINP_CNT, .w1n, 0⟩, ⟨F.PWT_CNT_SKIP_CNT, .w1n, 0⟩]⟩,
    ⟨0x0C8, 0x0, 1, 0, 1,
      [⟨F.PWT_PERIOD_P, .ro, 0⟩]⟩ ]
  ++ [ ⟨0x0CC, 0x0, 1, 0, 1,
      [⟨F.PWT_VALLEY_GTC, .ro, 0⟩]⟩ ]

/-- Registers of the PWG block. -/
def regsPWG : List RegDef :=
  [ ⟨0x040, 0x0, 1, 0, 1,
      [⟨F.PWG_DL_CTRL_BG_EN, .rwc, 1⟩]⟩,
    ⟨0x044, 0x0, 1, 0, 1,
      [⟨F.PWG_DL_STAT_BOOT_DONE, .ro, 0⟩, ⟨F.PWG_DL_STAT_GRP_FAIL, .ro, 0⟩]⟩,
    ⟨0x048, 0x0, 1, 0, 1,
      [⟨F.PWG_DL_FAIL0_OUT, .ro, 0⟩]⟩,
    ⟨0x04C, 0x0, 1, 0, 1,
      [⟨F.PWG_DL_FAIL1_OUT, .ro, 0⟩]⟩,
    ⟨0x050, 0x0, 1, 0, 1,
      [⟨F.PWG_DL_FAIL2_OUT, .ro, 0⟩]⟩,
    ⟨0x054, 0x0, 1, 0, 1,
      [⟨F.PWG_DITH_GRP, .ro, 1044480⟩]⟩,
    ⟨0x060, 0x0, 1, 0, 1,
      [⟨F.PWG_PAIR_PAIR, .rwc, 0⟩]⟩,
    ⟨0x080, 0x4, 6, 0, 1,
      [⟨F.PWG_POFS_OFS, .rwc, 0⟩]⟩ ]

/-- Registers of the GDT block. -/
def regsGDT : List RegDef :=
  [ ⟨0x040, 0x0, 1, 0, 1,
      [⟨F.GDT_FLAG_GRP, .w1c, 0⟩]⟩,
    ⟨0x100, 0x20, 12, 0, 1,
      [⟨F.GDT_GCFG_FLT_POL, .rwc, 0⟩, ⟨F.GDT_GCFG_DRDY_EN, .rwc, 1⟩, ⟨F.GDT_GCFG_ENA_CHK, .rwc, 1⟩, 
       ⟨F.GDT_GCFG_DRDY_TOUT, .rwc, 100⟩, ⟨F.GDT_GCFG_ENA_OFF, .rwc, 10⟩]⟩,
    ⟨0x104, 0x20, 12, 0, 1,
      [⟨F.GDT_ARM_ACT, .rw, 0⟩]⟩,
    ⟨0x108, 0x20, 12, 0, 1,
      [⟨F.GDT_LSTAT_GACT, .ro, 0⟩, ⟨F.GDT_LSTAT_NRDY, .ro, 0⟩, ⟨F.GDT_LSTAT_REL 0, .ro, 0⟩, 
       ⟨F.GDT_LSTAT_REL 1, .ro, 0⟩, ⟨F.GDT_LSTAT_REL 2, .ro, 0⟩, ⟨F.GDT_LSTAT_CLR_FAIL 0, .w1c, 0⟩, 
       ⟨F.GDT_LSTAT_CLR_FAIL 1, .w1c, 0⟩, ⟨F.GDT_LSTAT_CLR_FAIL 2, .w1c, 0⟩, ⟨F.GDT_LSTAT_CAUSE 0, .ro, 0⟩, 
       ⟨F.GDT_LSTAT_CAUSE 1, .ro, 0⟩, ⟨F.GDT_LSTAT_CAUSE 2, .ro, 0⟩]⟩,
    ⟨0x10C, 0x20, 12, 0, 1,
      [⟨F.GDT_LCMD_CLR, .wo, 0⟩, ⟨F.GDT_LCMD_REL, .wo, 0⟩]⟩,
    ⟨0x110, 0x20, 12, 0, 1,
      [⟨F.GDT_PINS_GENP_CMD, .ro, 0⟩, ⟨F.GDT_PINS_GENP_PIN, .ro, 0⟩, ⟨F.GDT_PINS_GENM_PIN, .ro, 0⟩, 
       ⟨F.GDT_PINS_DRDY, .ro, 0⟩, ⟨F.GDT_PINS_FLT, .ro, 0⟩, ⟨F.GDT_PINS_OUT, .ro, 0⟩]⟩,
    ⟨0x114, 0x20, 12, 0, 1,
      [⟨F.GDT_CNT_FLT_CNT, .w1n, 0⟩, ⟨F.GDT_CNT_REL_CNT, .w1n, 0⟩]⟩ ]

/-- Registers of the GDA block. -/
def regsGDA : List RegDef :=
  [ ⟨0x040, 0x0, 1, 0, 1,
      [⟨F.GDA_FLAG_GRP, .w1c, 0⟩]⟩,
    ⟨0x044, 0x0, 1, 0, 1,
      [⟨F.GDA_STAT_VGD_OK, .ro, 0⟩, ⟨F.GDA_STAT_ENM, .ro, 0⟩, ⟨F.GDA_STAT_ENP, .ro, 0⟩]⟩,
    ⟨0x100, 0x20, 8, 0, 1,
      [⟨F.GDA_GCFG_CMD, .rwc, 0⟩, ⟨F.GDA_GCFG_COMM_SRC, .rwc, 0⟩, ⟨F.GDA_GCFG_POS, .rwc, 0⟩, 
       ⟨F.GDA_GCFG_BST_POL, .rwc, 0⟩, ⟨F.GDA_GCFG_UV, .rwc, 2⟩, ⟨F.GDA_GCFG_SRC_I, .rwc, 0⟩, 
       ⟨F.GDA_GCFG_SNK_I, .rwc, 0⟩]⟩,
    ⟨0x104, 0x20, 8, 0, 1,
      [⟨F.GDA_ARM_ACT, .rw, 0⟩]⟩,
    ⟨0x108, 0x20, 8, 0, 1,
      [⟨F.GDA_LSTAT_GACT, .ro, 0⟩, ⟨F.GDA_LSTAT_RF_CNT, .ro, 0⟩, ⟨F.GDA_LSTAT_REL 0, .ro, 0⟩, 
       ⟨F.GDA_LSTAT_REL 1, .ro, 0⟩, ⟨F.GDA_LSTAT_REL 2, .ro, 0⟩, ⟨F.GDA_LSTAT_CLR_FAIL 0, .w1c, 0⟩, 
       ⟨F.GDA_LSTAT_CLR_FAIL 1, .w1c, 0⟩, ⟨F.GDA_LSTAT_CLR_FAIL 2, .w1c, 0⟩, ⟨F.GDA_LSTAT_UV 0, .ro, 0⟩, 
       ⟨F.GDA_LSTAT_UV 1, .ro, 0⟩, ⟨F.GDA_LSTAT_UV 2, .ro, 0⟩, ⟨F.GDA_LSTAT_CAUSE 0, .ro, 0⟩, 
       ⟨F.GDA_LSTAT_CAUSE 1, .ro, 0⟩, ⟨F.GDA_LSTAT_CAUSE 2, .ro, 0⟩]⟩,
    ⟨0x10C, 0x20, 8, 0, 1,
      [⟨F.GDA_LCMD_CLR, .wo, 0⟩, ⟨F.GDA_LCMD_REL, .wo, 0⟩]⟩,
    ⟨0x110, 0x20, 8, 0, 1,
      [⟨F.GDA_COMM_CODE, .ro, 0⟩, ⟨F.GDA_COMM_STATE, .rw, 0⟩]⟩,
    ⟨0x114, 0x20, 8, 4, 3,
      [⟨F.GDA_CTAB_ACTION, .rwc, 0⟩]⟩,
    ⟨0x200, 0x4, 8, 0, 1,
      [⟨F.GDA_CNT_SUP_CNT, .w1n, 0⟩, ⟨F.GDA_CNT_REL_CNT, .w1n, 0⟩]⟩ ]

/-- Registers of the SAFE block. -/
def regsSAFE : List RegDef :=
  [ ⟨0x040, 0x0, 1, 0, 1,
      [⟨F.SAFE_STAT_CONFIRMED, .ro, 0⟩, ⟨F.SAFE_STAT_SPB_LOADED, .ro, 0⟩, ⟨F.SAFE_STAT_PAGE_OK, .ro, 0⟩, 
       ⟨F.SAFE_STAT_STO_P_IN, .ro, 0⟩, ⟨F.SAFE_STAT_STO_M_IN, .ro, 0⟩, ⟨F.SAFE_STAT_CONF_LOCK, .ro, 0⟩, 
       ⟨F.SAFE_STAT_CONF_FAILS, .ro, 0⟩, ⟨F.SAFE_STAT_SPB_ERR, .ro, 0⟩]⟩,
    ⟨0x044, 0x0, 1, 0, 1,
      [⟨F.SAFE_CONFIRM_VALUE, .rwk, 0⟩]⟩,
    ⟨0x048, 0x0, 1, 0, 1,
      [⟨F.SAFE_CRC_P_CRC, .ro, 0⟩]⟩,
    ⟨0x04C, 0x0, 1, 0, 1,
      [⟨F.SAFE_CRC_M_CRC, .ro, 0⟩]⟩,
    ⟨0x050, 0x0, 1, 0, 1,
      [⟨F.SAFE_HOLD_INFO_HOLD, .ro, 0⟩, ⟨F.SAFE_HOLD_INFO_CAUSE, .ro, 0⟩]⟩,
    ⟨0x054, 0x0, 1, 0, 1,
      [⟨F.SAFE_GRANT_GENM, .ro, 0⟩]⟩,
    ⟨0x058, 0x0, 1, 0, 1,
      [⟨F.SAFE_TRIP_TRIP, .ro, 0⟩]⟩,
    ⟨0x05C, 0x0, 1, 0, 1,
      [⟨F.SAFE_REQ_STO_STO, .rwm, 0⟩]⟩,
    ⟨0x060, 0x0, 1, 0, 1,
      [⟨F.SAFE_REQ_SS1_SS1, .rwm, 0⟩]⟩,
    ⟨0x064, 0x0, 1, 0, 1,
      [⟨F.SAFE_ACK_ACK, .rwm, 0⟩]⟩ ]
  ++ [ ⟨0x068, 0x0, 1, 0, 1,
      [⟨F.SAFE_OUT_DIS_M_LATE, .w1c, 0⟩, ⟨F.SAFE_OUT_PINS, .ro, 0⟩, ⟨F.SAFE_OUT_PBRK_P_REL, .rw, 0⟩, 
       ⟨F.SAFE_OUT_DIS_P_REQ, .rw, 0⟩, ⟨F.SAFE_OUT_PBRK_M_REL, .rwm, 0⟩, ⟨F.SAFE_OUT_DIS_M_REQ, .rwm, 0⟩]⟩,
    ⟨0x06C, 0x0, 1, 0, 1,
      [⟨F.SAFE_FLAG_MACH, .w1c, 0⟩]⟩,
    ⟨0x100, 0x4, 16, 0, 1,
      [⟨F.SAFE_SPBH_HDR, .ro, 0⟩]⟩ ]

/-- Registers of the TMON block. -/
def regsTMON : List RegDef :=
  [ ⟨0x040, 0x0, 1, 0, 1,
      [⟨F.TMON_STAT_RUN0, .ro, 0⟩, ⟨F.TMON_STAT_RUN1, .ro, 0⟩, ⟨F.TMON_STAT_XCHK_CNT, .w1n, 0⟩, 
       ⟨F.TMON_STAT_EVAL_CNT, .ro, 0⟩]⟩,
    ⟨0x100, 0x20, 20, 0, 1,
      [⟨F.TM_TQ_TQ, .ro, 0⟩]⟩,
    ⟨0x104, 0x20, 20, 0, 1,
      [⟨F.TM_DEM_DEM, .ro, 0⟩]⟩,
    ⟨0x108, 0x20, 20, 0, 1,
      [⟨F.TM_SPD_SPD, .ro, 0⟩]⟩,
    ⟨0x10C, 0x20, 20, 0, 1,
      [⟨F.TM_ANG_ANG, .ro, 0⟩]⟩,
    ⟨0x110, 0x20, 20, 0, 1,
      [⟨F.TM_STAT_VALID, .ro, 0⟩, ⟨F.TM_STAT_UNCERT, .ro, 0⟩, ⟨F.TM_STAT_LOWFLUX, .ro, 0⟩, 
       ⟨F.TM_STAT_SS1_ACT, .ro, 0⟩, ⟨F.TM_STAT_STALE_DEM, .ro, 0⟩, ⟨F.TM_STAT_CAUSE, .ro, 0⟩]⟩,
    ⟨0x114, 0x20, 20, 0, 1,
      [⟨F.TM_CNT_CNT, .ro, 0⟩]⟩ ]

/-- Registers of the SPB block. -/
def regsSPB : List RegDef :=
  [ ⟨0x040, 0x4, 1008, 0, 1,
      [⟨F.SPB_DATA_DATA, .ro, 0⟩]⟩ ]

/-- Registers of the RGA block. -/
def regsRGA : List RegDef :=
  [ ⟨0x040, 0x0, 1, 0, 1,
      [⟨F.RG_CTRL_INSERT, .rwc, 0⟩]⟩,
    ⟨0x044, 0x0, 1, 0, 1,
      [⟨F.RG_STAT_LOCK, .ro, 0⟩, ⟨F.RG_STAT_INSERTED, .ro, 0⟩, ⟨F.RG_STAT_BYP_ERR, .w1c, 0⟩]⟩,
    ⟨0x048, 0x0, 1, 0, 1,
      [⟨F.RG_CNT_CRC_CNT, .w1n, 0⟩, ⟨F.RG_CNT_CODE_CNT, .w1n, 0⟩]⟩,
    ⟨0x04C, 0x0, 1, 0, 1,
      [⟨F.RG_RTT_RTT, .ro, 0⟩]⟩ ]

/-- Registers of the SFX block. -/
def regsSFX : List RegDef :=
  [ ⟨0x040, 0x0, 1, 0, 1,
      [⟨F.SFX_STAT_RING_OK, .ro, 0⟩, ⟨F.SFX_STAT_SPLIT, .ro, 0⟩, ⟨F.SFX_STAT_EP_PH, .ro, 0⟩, 
       ⟨F.SFX_STAT_EPOCH, .ro, 0⟩]⟩,
    ⟨0x044, 0x0, 1, 0, 1,
      [⟨F.SFX_LOST_LOST, .ro, 0⟩]⟩,
    ⟨0x048, 0x0, 1, 0, 1,
      [⟨F.SFX_SEEN_SEEN_B, .ro, 0⟩, ⟨F.SFX_SEEN_SEEN_A, .ro, 0⟩]⟩,
    ⟨0x04C, 0x0, 1, 0, 1,
      [⟨F.SFX_DEG_DEG_B, .w1n, 0⟩, ⟨F.SFX_DEG_DEG_A, .w1n, 0⟩]⟩,
    ⟨0x050, 0x0, 1, 0, 1,
      [⟨F.SFX_ERR_MM_CNT, .w1n, 0⟩, ⟨F.SFX_ERR_LATE_CNT, .w1n, 0⟩]⟩,
    ⟨0x054, 0x0, 1, 0, 1,
      [⟨F.SFX_TX_REQ_SS1_REQ, .rwm, 0⟩, ⟨F.SFX_TX_REQ_STO_REQ, .rwm, 0⟩]⟩,
    ⟨0x058, 0x0, 1, 0, 1,
      [⟨F.SFX_RX_REQ_SS1_SRC, .ro, 0⟩, ⟨F.SFX_RX_REQ_STO_SRC, .ro, 0⟩]⟩,
    ⟨0x05C, 0x0, 1, 0, 1,
      [⟨F.SFX_EP_EP_NEW, .ro, 0⟩, ⟨F.SFX_EP_EP_ACK, .ro, 0⟩]⟩,
    ⟨0x400, 0x40, 16, 4, 16,
      [⟨F.SFX_FRAME_FRAME, .ro, 0⟩]⟩ ]

/-- Registers of the CAN block. -/
def regsCAN : List RegDef :=
  [ ⟨0x040, 0x0, 1, 0, 1,
      [⟨F.CAN_CTRL_FD_EN, .rwc, 1⟩, ⟨F.CAN_CTRL_BRS_EN, .rwc, 1⟩, ⟨F.CAN_CTRL_RECOVER, .w1s, 0⟩]⟩,
    ⟨0x044, 0x0, 1, 0, 1,
      [⟨F.CAN_NBT_NBT, .rwc, 50405127⟩]⟩,
    ⟨0x048, 0x0, 1, 0, 1,
      [⟨F.CAN_DBT_DBT, .rwc, 1795⟩]⟩,
    ⟨0x04C, 0x0, 1, 0, 1,
      [⟨F.CAN_STAT_BUS_OFF, .ro, 0⟩, ⟨F.CAN_STAT_PASSIVE, .ro, 0⟩, ⟨F.CAN_STAT_TEC, .ro, 0⟩, 
       ⟨F.CAN_STAT_REC, .ro, 0⟩, ⟨F.CAN_STAT_LEC, .ro, 0⟩]⟩,
    ⟨0x100, 0x4, 32, 0, 1,
      [⟨F.CAN_FLT_FLT, .rwc, 0⟩]⟩,
    ⟨0x400, 0x4, 760, 0, 1,
      [⟨F.CAN_RAM_RAM, .rw, 0⟩]⟩ ]

/-- Registers of the ETH block. -/
def regsETH : List RegDef :=
  [ ⟨0x040, 0x0, 1, 0, 1,
      [⟨F.ETH_CTRL_RXPOP, .wo, 0⟩]⟩,
    ⟨0x044, 0x0, 1, 0, 1,
      [⟨F.ETH_STAT_LINK, .ro, 0⟩, ⟨F.ETH_STAT_SPEED, .ro, 0⟩, ⟨F.ETH_STAT_AS_CAP, .ro, 0⟩, 
       ⟨F.ETH_STAT_TX_OVF, .w1c, 0⟩, ⟨F.ETH_STAT_RX_DROP, .w1n, 0⟩]⟩,
    ⟨0x050, 0x0, 1, 0, 1,
      [⟨F.ETH_TXLEN_LEN, .rw, 0⟩]⟩,
    ⟨0x054, 0x0, 1, 0, 1,
      [⟨F.ETH_TXD_DATA, .wo, 0⟩]⟩,
    ⟨0x058, 0x0, 1, 0, 1,
      [⟨F.ETH_RXLEN_LEN, .ro, 0⟩]⟩,
    ⟨0x05C, 0x0, 1, 0, 1,
      [⟨F.ETH_RXD_DATA, .ro, 0⟩]⟩,
    ⟨0x060, 0x0, 1, 0, 1,
      [⟨F.ETH_PDLY_MAX, .rwc, 800⟩, ⟨F.ETH_PDLY_DLY, .ro, 0⟩]⟩,
    ⟨0x080, 0x8, 8, 0, 1,
      [⟨F.ETH_MCAST_ADDR, .rwc, 0⟩]⟩,
    ⟨0x084, 0x8, 8, 0, 1,
      [⟨F.ETH_MCASTH_ADDR_HI, .rwc, 0⟩]⟩ ]

/-- Registers of the PCIE block. -/
def regsPCIE : List RegDef :=
  [ ⟨0x040, 0x0, 1, 0, 1,
      [⟨F.PCIE_STAT_LINK_UP, .ro, 0⟩, ⟨F.PCIE_STAT_SPEED, .ro, 0⟩, ⟨F.PCIE_STAT_WIDTH, .ro, 0⟩, 
       ⟨F.PCIE_STAT_D3HOT, .ro, 0⟩]⟩,
    ⟨0x800, 0x4, 128, 0, 1,
      [⟨F.PCIE_MSIX_MSIX, .rw, 0⟩]⟩,
    ⟨0xA00, 0x0, 1, 0, 1,
      [⟨F.PCIE_PBA_PEND, .w1c, 0⟩]⟩ ]

/-- Registers of the SPIT block. -/
def regsSPIT : List RegDef :=
  [ ⟨0x040, 0x0, 1, 0, 1,
      [⟨F.SPIT_STAT_ABORT_CNT, .w1n, 0⟩, ⟨F.SPIT_STAT_ERR_CNT, .w1n, 0⟩]⟩ ]

/-- Registers of the XSPI block. -/
def regsXSPI : List RegDef :=
  [ ⟨0x040, 0x0, 1, 0, 1,
      [⟨F.XSPI_STAT_OCTAL, .ro, 0⟩, ⟨F.XSPI_STAT_ERR, .w1c, 0⟩]⟩ ]

/-- Registers of the DDR block. -/
def regsDDR : List RegDef :=
  [ ⟨0x040, 0x0, 1, 0, 1,
      [⟨F.DDR_CFG_ECC_EN, .rwc, 1⟩]⟩,
    ⟨0x044, 0x0, 1, 0, 1,
      [⟨F.DDR_STAT_READY, .ro, 0⟩, ⟨F.DDR_STAT_TRAIN_FAIL, .ro, 0⟩, ⟨F.DDR_STAT_USABLE, .ro, 0⟩]⟩,
    ⟨0x048, 0x0, 1, 0, 1,
      [⟨F.DDR_ECC_UNCORR, .w1n, 0⟩, ⟨F.DDR_ECC_CORR, .w1n, 0⟩]⟩,
    ⟨0x04C, 0x0, 1, 0, 1,
      [⟨F.DDR_ECC_ADDR_BLOCK, .ro, 0⟩]⟩ ]

/-- Registers of the REC block. -/
def regsREC : List RegDef :=
  [ ⟨0x040, 0x0, 1, 0, 1,
      [⟨F.REC_CTRL_EN, .rw, 0⟩, ⟨F.REC_CTRL_TRIG, .w1s, 0⟩, ⟨F.REC_CTRL_REARM, .w1s, 0⟩, 
       ⟨F.REC_CTRL_FREEZE, .w1s, 0⟩]⟩,
    ⟨0x044, 0x0, 1, 0, 1,
      [⟨F.REC_CFG_CLS_PROT, .rwc, 1⟩, ⟨F.REC_CFG_CLS_MBX, .rwc, 1⟩, ⟨F.REC_CFG_ANCH, .rwc, 1000⟩, 
       ⟨F.REC_CFG_SIZE, .rwc, 6144⟩]⟩,
    ⟨0x048, 0x0, 1, 0, 1,
      [⟨F.REC_POST_POST, .rw, 65536⟩]⟩,
    ⟨0x04C, 0x0, 1, 0, 1,
      [⟨F.REC_STAT_RUN, .ro, 0⟩, ⟨F.REC_STAT_POST, .ro, 0⟩, ⟨F.REC_STAT_FROZEN, .ro, 0⟩, 
       ⟨F.REC_STAT_ONCHIP, .ro, 0⟩, ⟨F.REC_STAT_HELD, .ro, 0⟩, ⟨F.REC_STAT_LOSS_CNT, .w1n, 0⟩]⟩,
    ⟨0x050, 0x0, 1, 0, 1,
      [⟨F.REC_WSEQ_SEQ, .ro, 0⟩]⟩,
    ⟨0x054, 0x0, 1, 0, 1,
      [⟨F.REC_OLD_SEQ, .ro, 0⟩]⟩,
    ⟨0x058, 0x0, 1, 0, 1,
      [⟨F.REC_TRIG_SEQ_SEQ, .ro, 0⟩]⟩,
    ⟨0x05C, 0x0, 1, 0, 1,
      [⟨F.REC_TRIG_INFO_VALID, .ro, 0⟩, ⟨F.REC_TRIG_INFO_MISSED, .w1n, 0⟩, ⟨F.REC_TRIG_INFO_SRC, .ro, 0⟩]⟩,
    ⟨0x060, 0x0, 1, 0, 1,
      [⟨F.REC_APER_GIB, .rw, 0⟩]⟩,
    ⟨0x064, 0x0, 1, 0, 1,
      [⟨F.REC_EXP_GO, .wo, 0⟩, ⟨F.REC_EXP_BUSY, .ro, 0⟩, ⟨F.REC_EXP_RESULT, .ro, 0⟩, ⟨F.REC_EXP_CNT, .rw, 0⟩, 
       ⟨F.REC_EXP_WIN, .rw, 0⟩]⟩ ]
  ++ [ ⟨0x068, 0x0, 1, 0, 1,
      [⟨F.REC_EXP_SEQ_SEQ, .rw, 0⟩]⟩,
    ⟨0x080, 0x4, 8, 0, 1,
      [⟨F.REC_TRIG_EN_EN, .rw, 0⟩]⟩ ]

/-- Registers of the RPL block. -/
def regsRPL : List RegDef :=
  [ ⟨0x040, 0x0, 1, 0, 1,
      [⟨F.RPL_CTRL_START, .w1s, 0⟩, ⟨F.RPL_CTRL_ABORT, .w1s, 0⟩, ⟨F.RPL_CTRL_DIV_STOP, .rw, 1⟩]⟩,
    ⟨0x044, 0x0, 1, 0, 1,
      [⟨F.RPL_FROM_SEQ, .rw, 0⟩]⟩,
    ⟨0x048, 0x0, 1, 0, 1,
      [⟨F.RPL_TO_SEQ, .rw, 0⟩]⟩,
    ⟨0x04C, 0x0, 1, 0, 1,
      [⟨F.RPL_STAT_RUN, .ro, 0⟩, ⟨F.RPL_STAT_DONE, .ro, 0⟩, ⟨F.RPL_STAT_DIVERGED, .ro, 0⟩, 
       ⟨F.RPL_STAT_DIRTY, .ro, 0⟩, ⟨F.RPL_STAT_REFUSE, .ro, 0⟩, ⟨F.RPL_STAT_END, .ro, 0⟩]⟩,
    ⟨0x050, 0x0, 1, 0, 1,
      [⟨F.RPL_DIV_POS_SEQ, .ro, 0⟩]⟩,
    ⟨0x054, 0x0, 1, 0, 1,
      [⟨F.RPL_DIV_REC_TYPE, .ro, 0⟩, ⟨F.RPL_DIV_REC_WORD, .ro, 0⟩, ⟨F.RPL_DIV_REC_OFS, .ro, 0⟩]⟩,
    ⟨0x058, 0x0, 1, 0, 1,
      [⟨F.RPL_DIV_RES_RES, .ro, 0⟩]⟩,
    ⟨0x05C, 0x0, 1, 0, 1,
      [⟨F.RPL_DIV_REF_VALUE, .ro, 0⟩]⟩,
    ⟨0x060, 0x0, 1, 0, 1,
      [⟨F.RPL_DIV_GOT_VALUE, .ro, 0⟩]⟩,
    ⟨0x064, 0x0, 1, 0, 1,
      [⟨F.RPL_DIV_TICK_RT, .ro, 0⟩]⟩ ]
  ++ [ ⟨0x068, 0x0, 1, 0, 1,
      [⟨F.RPL_CNT_CNT, .ro, 0⟩]⟩,
    ⟨0x06C, 0x0, 1, 0, 1,
      [⟨F.RPL_LOAD_GO, .wo, 0⟩, ⟨F.RPL_LOAD_BUSY, .ro, 0⟩, ⟨F.RPL_LOAD_RESULT, .ro, 0⟩, 
       ⟨F.RPL_LOAD_CNT, .rw, 0⟩, ⟨F.RPL_LOAD_WIN, .rw, 0⟩]⟩ ]

/-- Registers of the DMP block. -/
def regsDMP : List RegDef :=
  [ ⟨0x040, 0x0, 1, 0, 1,
      [⟨F.DMP_CTRL_CLR, .wo, 0⟩]⟩,
    ⟨0x044, 0x0, 1, 0, 1,
      [⟨F.DMP_STAT_VALID, .ro, 0⟩, ⟨F.DMP_STAT_EXT_VALID, .ro, 0⟩, ⟨F.DMP_STAT_RET_ERR, .ro, 0⟩, 
       ⟨F.DMP_STAT_CAUSE, .ro, 0⟩, ⟨F.DMP_STAT_NCAUSE, .ro, 0⟩]⟩,
    ⟨0x048, 0x0, 1, 0, 1,
      [⟨F.DMP_EXP_GO, .wo, 0⟩, ⟨F.DMP_EXP_BUSY, .ro, 0⟩, ⟨F.DMP_EXP_RESULT, .ro, 0⟩, 
       ⟨F.DMP_EXP_CHUNK, .rw, 0⟩, ⟨F.DMP_EXP_WIN, .rw, 0⟩]⟩ ]

/-- Registers of the DBG block. -/
def regsDBG : List RegDef :=
  [ ⟨0x040, 0x0, 1, 0, 1,
      [⟨F.DBG_CTRL_ATTACHED, .ro, 0⟩, ⟨F.DBG_CTRL_HALTED, .ro, 0⟩, ⟨F.DBG_CTRL_HALT_REQ, .rw, 0⟩, 
       ⟨F.DBG_CTRL_SYS_RST, .wo, 0⟩]⟩ ]

/-- Registers of the CTX block. -/
def regsCTX : List RegDef :=
  [ ⟨0x040, 0x1C0, 8, 0, 1,
      [⟨F.CTX_CTRL_EN, .rw, 0⟩, ⟨F.CTX_CTRL_SPEC_EN, .rwc, 0⟩, ⟨F.CTX_CTRL_TO_ACT, .rwc, 0⟩, 
       ⟨F.CTX_CTRL_NSTAGE, .rwc, 0⟩, ⟨F.CTX_CTRL_ENGINE, .rwc, 0⟩]⟩,
    ⟨0x044, 0x1C0, 8, 0, 1,
      [⟨F.CTX_TIME_TOUT, .rwc, 200⟩, ⟨F.CTX_TIME_LATE, .rwc, 0⟩]⟩,
    ⟨0x048, 0x1C0, 8, 0, 1,
      [⟨F.CTX_TARGET_DUTY_GRP, .rwc, 31⟩, ⟨F.CTX_TARGET_PUB, .rwc, 0⟩, ⟨F.CTX_TARGET_TRK_ELEC, .rwc, 0⟩]⟩,
    ⟨0x04C, 0x1C0, 8, 4, 6,
      [⟨F.CTX_OMAP_EXP_H, .ro, 0⟩, ⟨F.CTX_OMAP_SEL_H, .rwc, 0⟩, ⟨F.CTX_OMAP_EXP_L, .ro, 0⟩, 
       ⟨F.CTX_OMAP_SEL_L, .rwc, 0⟩]⟩,
    ⟨0x064, 0x1C0, 8, 0, 1,
      [⟨F.CTX_CMDEXP_CMD3_EXP, .rw, 0⟩, ⟨F.CTX_CMDEXP_CMD2_EXP, .rw, 0⟩, ⟨F.CTX_CMDEXP_CMD1_EXP, .rw, 0⟩, 
       ⟨F.CTX_CMDEXP_CMD0_EXP, .rw, 0⟩]⟩,
    ⟨0x068, 0x1C0, 8, 0, 1,
      [⟨F.CTX_SPEC_STATE, .ro, 0⟩, ⟨F.CTX_SPEC_SUSP, .w1c, 0⟩, ⟨F.CTX_SPEC_CMP1, .rwc, 0⟩, 
       ⟨F.CTX_SPEC_PW_ERR, .ro, 0⟩, ⟨F.CTX_SPEC_OUTCOME, .ro, 0⟩, ⟨F.CTX_SPEC_FB_MAX, .rwc, 4⟩, 
       ⟨F.CTX_SPEC_FB_RUN, .ro, 0⟩, ⟨F.CTX_SPEC_CAUSE, .ro, 0⟩, ⟨F.CTX_SPEC_NPRED, .ro, 0⟩, 
       ⟨F.CTX_SPEC_FB_CNT, .w1n, 0⟩]⟩,
    ⟨0x06C, 0x1C0, 8, 0, 1,
      [⟨F.CTX_TOL_TOL1, .rwc, 0⟩, ⟨F.CTX_TOL_TOL0, .rwc, 0⟩]⟩,
    ⟨0x070, 0x1C0, 8, 0, 1,
      [⟨F.CTX_STAT_PENDING, .ro, 0⟩, ⟨F.CTX_STAT_RUNNING, .ro, 0⟩, ⟨F.CTX_STAT_CFG_ERR, .ro, 0⟩, 
       ⟨F.CTX_STAT_CAUSE, .ro, 0⟩, ⟨F.CTX_STAT_SPEC_IGN, .w1c, 0⟩, ⟨F.CTX_STAT_STALE_IN, .ro, 0⟩, 
       ⟨F.CTX_STAT_IN_SAT, .w1c, 0⟩, ⟨F.CTX_STAT_ECC_ERR, .ro, 0⟩, ⟨F.CTX_STAT_D, .ro, 0⟩]⟩,
    ⟨0x074, 0x1C0, 8, 0, 1,
      [⟨F.CTX_SAT_LAST, .ro, 0⟩, ⟨F.CTX_SAT_STICKY, .w1c, 0⟩]⟩,
    ⟨0x078, 0x1C0, 8, 0, 1,
      [⟨F.CTX_RUNS_SEQ, .ro, 0⟩, ⟨F.CTX_RUNS_OVERRUN, .w1n, 0⟩, ⟨F.CTX_RUNS_DROP, .w1n, 0⟩, 
       ⟨F.CTX_RUNS_TIMEOUT, .w1n, 0⟩]⟩ ]
  ++ [ ⟨0x07C, 0x1C0, 8, 0, 1,
      [⟨F.CTX_LAST_TR, .ro, 0⟩]⟩,
    ⟨0x080, 0x1C0, 8, 4, 8,
      [⟨F.CTX_IN_KIND, .rwc, 0⟩, ⟨F.CTX_IN_WAIT, .rwc, 0⟩, ⟨F.CTX_IN_ACC, .rwc, 0⟩, 
       ⟨F.CTX_IN_SPD_EXP, .rwc, 0⟩, ⟨F.CTX_IN_TRK, .rwc, 0⟩, ⟨F.CTX_IN_ADV, .rwc, 0⟩, 
       ⟨F.CTX_IN_CTX, .rwc, 0⟩, ⟨F.CTX_IN_J, .rwc, 0⟩]⟩,
    ⟨0x0A0, 0x1C0, 8, 4, 12,
      [⟨F.CTX_SD_KIND, .rwc, 0⟩, ⟨F.CTX_SD_EXP, .rwc, 0⟩, ⟨F.CTX_SD_EXPMODE, .rwc, 0⟩, 
       ⟨F.CTX_SD_HEAD, .rwc, 0⟩, ⟨F.CTX_SD_POOL, .rwc, 0⟩, ⟨F.CTX_SD_LEN, .rwc, 0⟩]⟩,
    ⟨0x0D0, 0x1C0, 8, 4, 4,
      [⟨F.CTX_CMD_M, .rw, 0⟩]⟩,
    ⟨0x0E0, 0x1C0, 8, 4, 12,
      [⟨F.CTX_OUT_M, .ro, 0⟩]⟩,
    ⟨0x110, 0x1C0, 8, 4, 60,
      [⟨F.CTX_POOL_W, .rw, 0⟩]⟩ ]

/-- The block-specific registers of a block. -/
def blockRegs : Block → List RegDef
  | .sysB => regsSYS
  | .capB => regsCAP
  | .clkB => regsCLK
  | .pwrB => regsPWR
  | .rstB => regsRST
  | .secB => regsSEC
  | .evtB => regsEVT
  | .mbxB => regsMBX
  | .lckB => regsLCK
  | .winB => regsWIN
  | .tlB => regsTL
  | .tlsB => regsTLS
  | .trkB => regsTRK
  | .adaB => regsADA
  | .adbB => regsADB
  | .accB => regsACC
  | .mmxB => regsMMX
  | .cmpB => regsCMP
  | .posB => regsPOS
  | .emuB => regsEMU
  | .excB => regsEXC
  | .lecB => regsLEC
  | .leB => regsLE
  | .pwtB => regsPWT
  | .pwaB => regsPWT
  | .pwgB => regsPWG
  | .gdtB => regsGDT
  | .gdaB => regsGDA
  | .safeB => regsSAFE
  | .tmonB => regsTMON
  | .spbB => regsSPB
  | .rgaB => regsRGA
  | .rgbB => regsRGA
  | .sfxB => regsSFX
  | .canB => regsCAN
  | .ethB => regsETH
  | .pcieB => regsPCIE
  | .spitB => regsSPIT
  | .xspiB => regsXSPI
  | .ddrB => regsDDR
  | .recB => regsREC
  | .rplB => regsRPL
  | .dmpB => regsDMP
  | .dbgB => regsDBG
  | .ctxB => regsCTX

/-- PG_CAP of a present page on the EHZ-1208 (R26 and the page's own rule). -/
def blockCap : Block → Nat
  | .sysB => 0x00000001
  | .capB => 0x00000001
  | .clkB => 1
  | .pwrB => 1
  | .rstB => 1
  | .secB => 1
  | .evtB => 0x00004001
  | .mbxB => 0x00002001
  | .lckB => 0x00004001
  | .winB => 0x00001001
  | .tlB => 0x04000001
  | .tlsB => 0x01000001
  | .trkB => 0x00001801
  | .adaB => 0x60343001
  | .adbB => 0x000C3001
  | .accB => 0x00004001
  | .mmxB => 0x00004001
  | .cmpB => 0x00002401
  | .posB => 0x00001F01
  | .emuB => 0x00000401
  | .excB => 0x00000401
  | .lecB => 0x00C00801
  | .leB => 0x00002001
  | .pwtB => 0x00000301
  | .pwaB => 0x00000301
  | .pwgB => 0x00064801
  | .gdtB => 0x00000C01
  | .gdaB => 0x00000801
  | .safeB => 0x00001401
  | .tmonB => 0x00000201
  | .spbB => 0x00001001
  | .rgaB => 0x00001001
  | .rgbB => 0x00001001
  | .sfxB => 0x00001001
  | .canB => 0x00002801
  | .ethB => 0x00000801
  | .pcieB => 1
  | .spitB => 1
  | .xspiB => 1
  | .ddrB => 1
  | .recB => 0x00001001
  | .rplB => 1
  | .dmpB => 1
  | .dbgB => 1
  | .ctxB => 0x00000801

end Sys2Proof.Machine
end

