-- ==== Sys2Proof/Machine/Family.lean ====
section
/-! DEFINITION. The family: the counts of every member and what is absent (R3 to R10, R13, R513), the page map as a lookup
(R45, R46), and the reset value of every register. -/

namespace Sys2Proof.Machine

/-- One value for each member, in the order of R513's columns. -/
def pick {α : Type} (m : Member) (a b c d : α) : α :=
  match m with
  | .ehz1208 => a
  | .ehz0804 => b
  | .ehz0402 => c
  | .ehz0102 => d

/-! Counts of R513. -/
def nTraction (m : Member) : Nat := pick m 12 8 4 1
def nAux (m : Member) : Nat := pick m 8 4 2 2
def nPairs (m : Member) : Nat := pick m 6 4 2 0
def nEngines (m : Member) : Nat := pick m 8 6 4 2
def nPos (m : Member) : Nat := pick m 12 8 4 1
def nInputs (m : Member) : Nat := pick m 96 64 48 24
def nSlices (m : Member) : Nat := pick m 48 32 24 12
def nPhys (m : Member) : Nat := pick m 52 36 28 16
def nSdd (m : Member) : Nat := pick m 48 32 16 8
def nSdc (m : Member) : Nat := pick m 12 8 4 2
def nCmp (m : Member) : Nat := pick m 72 48 24 12
def nCtx (m : Member) : Nat := pick m 192 128 64 32
def nAcc (m : Member) : Nat := pick m 384 256 128 64
def nMmx (m : Member) : Nat := pick m 128 96 64 32
def nTracks : Nat := 24
def nSlots : Nat := 1024
def hasPcie (m : Member) : Bool := pick m true true false false
def hasRingB (m : Member) : Bool := pick m true true true false
def hasDdr (m : Member) : Bool := pick m true true true false

/-- A group code: 0 to 11 traction, 12 to 19 auxiliary; whether the member has it (R513). -/
def groupPresent (m : Member) (g : Nat) : Bool :=
  decide (g < nTraction m) || (decide (12 ≤ g) && decide (g < 12 + nAux m))

/-- The block a page belongs to and the instance within it (R45); none where the page map assigns nothing (R9). -/
def pageFind (page : Nat) : List (Nat × Nat × Block) → Option (Block × Nat)
  | [] => none
  | (p0, n, b) :: r => if p0 ≤ page ∧ page < p0 + n then some (b, page - p0) else pageFind page r

def pageInfo (page : Nat) : Option (Block × Nat) := pageFind page pageMap

/-- First page of a block, which is its type code in PG_ID (R45). -/
def blockFirst (b : Block) : List (Nat × Nat × Block) → Nat
  | [] => 0
  | (p0, _, b') :: r => if b = b' then p0 else blockFirst b r

/-- Whether the member has the page of instance `i` of a block (R4, R513). -/
def blockPresent (m : Member) : Block → Nat → Bool
  | .pwtB, i => decide (i < nTraction m)
  | .pwaB, i => decide (i < nAux m)
  | .leB, i => decide (i < nEngines m)
  | .posB, i => decide (i < nPos m)
  | .accB, i => decide (64 * i < nAcc m)
  | .mmxB, i => decide (64 * i < nMmx m)
  | .cmpB, i => decide (36 * i < nCmp m)
  | .ctxB, i => decide (8 * i < nCtx m)
  | .pcieB, _ => hasPcie m
  | .rgbB, _ => hasRingB m
  | .ddrB, _ => hasDdr m
  | _, _ => true

/-- Whether a page is assigned and present on the member. -/
def pagePresent (m : Member) (page : Nat) : Bool :=
  match pageInfo page with
  | some (b, i) => blockPresent m b i
  | none => false

/-- Index of an offset in a register array: the two indices, where the offset is one of the array's. -/
def regIndex (r : RegDef) (off : Nat) : Option (Nat × Nat) :=
  if off < r.base then none
  else
    let d := off - r.base
    let i := if r.s1 = 0 then 0 else d / r.s1
    let e := d - r.s1 * i
    let x := if r.s2 = 0 then 0 else e / r.s2
    if e = r.s2 * x ∧ i < r.n1 ∧ x < r.n2 then some (i, x) else none

/-- The register definition at an offset of a block, with its indices. -/
def regFind (off : Nat) : List RegDef → Option (RegDef × Nat × Nat)
  | [] => none
  | r :: rs =>
    match regIndex r off with
    | some (i, x) => some (r, i, x)
    | none => regFind off rs

def regAt (b : Block) (off : Nat) : Option (RegDef × Nat × Nat) := regFind off (blockRegs b)

/-- The reset value a register's fields give. -/
def fieldsReset : List FieldDef → Word
  | [] => 0
  | d :: r => setF (fieldsReset r) d.f d.rst

/-- Whether an offset of a present page belongs wholly to an absent instance (R5): block, its instance, and the offset. -/
def absentReg (m : Member) (b : Block) (i off : Nat) : Bool :=
  match b with
  | .adaB =>
    (decide (0x100 + 0x10 * nSlices m ≤ off) && decide (off < 0x400))
      || (decide (0x400 + 4 * nInputs m ≤ off) && decide (off < 0x580))
      || (decide (0x600 + 4 * nPhys m ≤ off) && decide (off < 0x6D0))
  | .adbB =>
    (decide (0x40 + 4 * nSdc m ≤ off) && decide (off < 0x70))
      || (decide (0x100 + 0x10 * nSdd m ≤ off) && decide (off < 0x400))
  | .mmxB => decide (0x100 ≤ off) && decide (nMmx m ≤ 64 * i + (off - 0x100) / 0x20) && decide (off < 0x900)
  | .cmpB => decide (0x100 ≤ off) && decide (nCmp m ≤ 36 * i + (off - 0x100) / 0x20) && decide (off < 0x580)
  | .lecB => decide (0x100 + 4 * nCtx m ≤ off) && decide (off < 0x400)
  | .pwgB => decide (0x80 + 4 * nPairs m ≤ off) && decide (off < 0x98)
  | .gdtB => decide (0x100 + 0x20 * nTraction m ≤ off) && decide (off < 0x280)
  | .gdaB =>
    (decide (0x100 + 0x20 * nAux m ≤ off) && decide (off < 0x200))
      || (decide (0x200 + 4 * nAux m ≤ off) && decide (off < 0x220))
  | _ => false

/-- The bits at and above position `n` of a word. -/
def bitsFrom (n : Nat) : Word := BitVec.ofNat 32 (2 ^ 32 - 2 ^ (min n 32))

/-- The bits of a shared register that belong to absent instances (R5). -/
def absentBits (m : Member) (b : Block) (i off : Nat) : Word :=
  match b with
  | .adaB =>
    if 0x60 ≤ off ∧ off ≤ 0x68 then bitsFrom (nInputs m - 8 * (off - 0x60))
    else if 0x70 ≤ off ∧ off ≤ 0x78 then bitsFrom (nInputs m - 8 * (off - 0x70)) else 0
  | .mmxB => if off = 0x40 ∨ off = 0x44 then bitsFrom (nMmx m - (64 * i + 8 * (off - 0x40))) else 0
  | .cmpB =>
    if off = 0x40 ∨ off = 0x44 then bitsFrom (nCmp m - (36 * i + 8 * (off - 0x40)))
    else if 0x100 ≤ off ∧ off % 0x20 = 0xC then (bitsFrom (nTraction m) &&& 0xFFF) ||| (bitsFrom (12 + nAux m) &&& 0xFF000)
    else 0
  | .lecB =>
    if off = 0x40 then bitsFrom (nEngines m) &&& 0xFF
    else if 0x50 ≤ off ∧ off ≤ 0x64 then bitsFrom (nCtx m - 8 * (off - 0x50)) else 0
  | .pwgB =>
    if off = 0x60 then bitsFrom (nPairs m) &&& 0x3F
    else if off = 0x44 then bitsFrom (nTraction m) &&& 0xFFF
    else if off = 0x48 ∨ off = 0x4C then bitsFrom (6 * nTraction m - 8 * (off - 0x48))
    else if off = 0x50 then bitsFrom (6 * nTraction m - 64) &&& 0xFF
    else if off = 0x54 then (bitsFrom (nTraction m) &&& 0xFFF) ||| (bitsFrom (12 + nAux m) &&& 0xFF000) else 0
  | .gdtB => if off = 0x40 then bitsFrom (nTraction m) &&& 0xFFF else 0
  | .gdaB =>
    let gone := bitsFrom (nAux m) &&& 0xFF
    if off = 0x40 then gone else if off = 0x44 then gone ||| (gone <<< 8) else 0
  | .sfxB => if (off = 0x48 ∨ off = 0x4C) ∧ hasRingB m = false then bitsFrom 16 else 0
  | .mbxB => if off = 0x40 ∧ hasPcie m = false then 1 else 0
  | _ => 0

/-- CAP registers of each member (R513), by offset. -/
def capWord (m : Member) (off : Nat) : Word :=
  if off = 0x40 then pick m 0x0C08080C 0x08060408 0x04040204 0x01020201
  else if off = 0x44 then pick m 0x603048C0 0x40203080 0x30101840 0x18080C20
  else if off = 0x48 then pick m 0x00800180 0x00600100 0x00400080 0x00200040
  else if off = 0x4C then pick m 0x0018000F 0x0018000F 0x0018000E 0x00180002
  else if off = 0x50 then pick m 0x00600000 0x00600000 0x00600000 0x00000200
  else 0

/-- PG_CAP of a present page (R26, R513). -/
def capOf (m : Member) (b : Block) : Word :=
  match b with
  | .adaB => pick m 0x60343001 0x40242001 0x301C1801 0x18100C01
  | .adbB => pick m 0x000C3001 0x00082001 0x00041001 0x00020801
  | b => BitVec.ofNat 32 (blockCap b)

/-- The reset values that depend on the instance: ADA_SEQ and ADA_LSTAT (R113), ADA_PSL.STATE, which is CAL until BOOT has calibrated
the slices (R94), PWT_ALK (R294), PWT_STAT of the PWA pages (R294), REC_STAT.ONCHIP of a member without LPDDR (R456). -/
def instanceReset (m : Member) (b : Block) (i off : Nat) (w : Word) : Word :=
  match b with
  | .capB => capWord m off
  | .adaB =>
    if 0x100 ≤ off ∧ off < 0x400 then
      let l := (off - 0x100) / 0x10
      if off % 0x10 = 0 then setF (setF w F.ADA_SEQ_IN1 (2 * l + 1)) F.ADA_SEQ_IN0 (2 * l)
      else if off % 0x10 = 0xC then setF w F.ADA_LSTAT_PSL l
      else w
    else if 0x600 ≤ off ∧ off < 0x6D0 then
      setF w F.ADA_PSL_STATE 2
    else w
  | .pwtB => if off = 0x60 then setF w F.PWT_ALK_TRK i else w
  | .pwaB => if off = 0x60 then setF w F.PWT_ALK_TRK (12 + i) else if off = 0xC0 then setF w F.PWT_STAT_DITHER 1 else w
  | .adbB => w
  | .recB => if off = 0x4C then setF w F.REC_STAT_ONCHIP (b2n !hasDdr m) else w
  | _ => w

/-- Page and offset of an address in the register space, which is 2 MiB from 0x40000000 (R45, R46). -/
def pageOf (a : Nat) : Nat := a % 0x200000 / 0x1000
def offOf (a : Nat) : Nat := a % 0x1000

/-- Reset value of the register at a bus address: what it reads where nothing has changed it. The stepping of PG_ID is A0 on every page
(R31; log entry 329, DESIGN CHOICE). -/
def resetWord (m : Member) (a : Nat) : Word :=
  let page := pageOf a
  let off := offOf a
  match pageInfo page with
  | none => 0
  | some (b, i) =>
    if !blockPresent m b i || absentReg m b i off then 0
    else if off = 0 then
      BitVec.ofNat 32 (blockFirst b pageMap * 0x10000 + i * 0x100 + 0xA0)
    else if off = 4 then capOf m b
    else if off = 8 then 0x000000F0
    else if off < 0x40 then 0
    else
      match regAt b off with
      | some (r, _, _) => instanceReset m b i off (fieldsReset r.flds) &&& ~~~ absentBits m b i off
      | none => 0

end Sys2Proof.Machine
end

