-- ==== Sys2Proof/Machine/Names.lean ====
section
/-! DEFINITION. The numbers of the event sources (R478), of the device states (R50) and of the pages (R45). -/

namespace Sys2Proof.Machine

/-! Event sources, by the names of R478. -/
def Ev.STATE_CHANGE : Nat := 0
def Ev.LINK_ERR : Nat := 1
def Ev.LINK_FAIL : Nat := 2
def Ev.CLK_XCHK : Nat := 3
def Ev.PLL_UNLOCK : Nat := 4
def Ev.SUPPLY_WARN : Nat := 5
def Ev.TEMP_HIGH : Nat := 6
def Ev.LOCKSTEP : Nat := 7
def Ev.BOOT_FAIL : Nat := 8
def Ev.SRAM_UNCORR : Nat := 9
def Ev.SRAM_CORR : Nat := 10
def Ev.BOOT_ALT : Nat := 11
def Ev.DBG_ATTACH : Nat := 12
def Ev.ZERO_SLACK : Nat := 32
def Ev.SLOT_SKIPPED : Nat := 33
def Ev.TRK_SLEW : Nat := 34
def Ev.TRK_JUMP : Nat := 35
def Ev.TRK_STOP : Nat := 36
def Ev.TRK_REV : Nat := 37
def Ev.TRK_STALE : Nat := 38
def Ev.SYNC_LOCK : Nat := 39
def Ev.SYNC_LOST : Nat := 40
def Ev.PWM_CFG_ERR : Nat := 48
def Ev.PWM_DCLAMP : Nat := 49
def Ev.PWM_MINP : Nat := 50
def Ev.PWM_CARRY_LIM : Nat := 51
def Ev.PWM_DL_FAIL : Nat := 52
def Ev.PWM_DITHER : Nat := 53
def Ev.PWM_ALK_ON : Nat := 54
def Ev.PWM_ALK_OFF : Nat := 55
def Ev.PWM_ALK_CLAMP : Nat := 56
def Ev.PWM_ALK_SKIP : Nat := 57
def Ev.LEG_SHOOT : Nat := 64
def Ev.LEG_FLT : Nat := 65
def Ev.LEG_REL : Nat := 66
def Ev.LEG_OUT_RB : Nat := 67
def Ev.DRDY_TOUT : Nat := 68
def Ev.DRDY_LOST : Nat := 69
def Ev.ENA_CHK_FAIL : Nat := 70
def Ev.GRP_ACT : Nat := 71
def Ev.REL_CLR_FAIL : Nat := 72
def Ev.BST_UV : Nat := 73
def Ev.BST_FAIL : Nat := 74
def Ev.VGD_UV : Nat := 75
def Ev.CMP_PROTECT : Nat := 84
def Ev.CMP_LIMIT : Nat := 85
def Ev.CMP_START_LATE : Nat := 86
def Ev.CMP_BLANK_CAP : Nat := 87
def Ev.CMP_CLR_FAIL : Nat := 88
def Ev.OVL_FAIL : Nat := 96
def Ev.SLICE_FAIL : Nat := 97
def Ev.SPARE_LOW : Nat := 98
def Ev.CAL_STALE : Nat := 99
def Ev.OPEN_WIRE : Nat := 100
def Ev.OW_INCONCL : Nat := 101
def Ev.SD_STUCK : Nat := 102
def Ev.SD_CLIP : Nat := 103
def Ev.SD_OVR : Nat := 104
def Ev.SDC_FAULT : Nat := 105
def Ev.ACC_SAT : Nat := 112
def Ev.ACC_EMPTY : Nat := 113
def Ev.ACC_SHORT : Nat := 114
def Ev.ACC_OVF : Nat := 115
def Ev.ACC_WIN_LOST : Nat := 116
def Ev.MMX_LIMIT : Nat := 117
def Ev.QERR : Nat := 128
def Ev.IDX_DEV : Nat := 129
def Ev.HALL_ERR : Nat := 130
def Ev.WORD_ERR : Nat := 131
def Ev.POS_TIMEOUT : Nat := 132
def Ev.POS_OVERRUN : Nat := 133
def Ev.ZERO_SPD : Nat := 134
def Ev.RES_LOS : Nat := 135
def Ev.RES_MISMATCH : Nat := 136
def Ev.SHD_ERR : Nat := 137
def Ev.EXC_FAULT : Nat := 138
def Ev.EMU_LAG : Nat := 139
def Ev.CTX_CFG_ERR : Nat := 160
def Ev.CTX_SAT : Nat := 161
def Ev.CTX_OVERRUN : Nat := 162
def Ev.CTX_TIMEOUT : Nat := 163
def Ev.CTX_DROP : Nat := 164
def Ev.CTX_ECC : Nat := 165
def Ev.LE_ECC_CORR : Nat := 166
def Ev.SPEC_RECOMPUTE : Nat := 168
def Ev.SPEC_FALLBACK : Nat := 169
def Ev.SPEC_FB_LIMIT : Nat := 170
def Ev.SPEC_EDGE_CLIP : Nat := 171
def Ev.SPEC_ABORT : Nat := 172
def Ev.ENA_READBACK : Nat := 192
def Ev.MACH_STATE : Nat := 193
def Ev.START_FAIL : Nat := 194
def Ev.LOCKED : Nat := 195
def Ev.OBS_LOST : Nat := 196
def Ev.DISCHARGE_LATE : Nat := 197
def Ev.MACH_ARM_FAIL : Nat := 198
def Ev.MACH_DEGRADED : Nat := 199
def Ev.MACH_CATCH_WAIT : Nat := 200
def Ev.TM_TRIP : Nat := 201
def Ev.STO_IN : Nat := 202
def Ev.SS1_FAIL : Nat := 203
def Ev.SPB_ERR : Nat := 204
def Ev.CONFIRM_FAIL : Nat := 205
def Ev.PAGE_CRC_ERR : Nat := 206
def Ev.SAFE_HOLD : Nat := 207
def Ev.TMON_XCHK : Nat := 208
def Ev.DIS_M_LATE : Nat := 209
def Ev.RING_SRC_LOST : Nat := 210
def Ev.DEGRADED_A : Nat := 211
def Ev.DEGRADED_B : Nat := 212
def Ev.FRAME_MISMATCH : Nat := 213
def Ev.RING_CRC_ERR : Nat := 214
def Ev.FRAME_LATE : Nat := 215
def Ev.RING_CFG_MISMATCH : Nat := 216
def Ev.RING_LINK : Nat := 217
def Ev.OVERCAST_ENTER : Nat := 218
def Ev.OVERCAST_DONE : Nat := 219
def Ev.EPOCH_COMMIT : Nat := 220
def Ev.EPOCH_FAIL : Nat := 221
def Ev.RING_REQ : Nat := 222
def Ev.BYPASS_FAULT : Nat := 223
def Ev.MBX_RX : Nat := 224
def Ev.MBX_SPACE : Nat := 225
def Ev.QUEUE_FULL : Nat := 226
def Ev.MBX_PEER_RST : Nat := 227
def Ev.LOCK_FORCED : Nat := 228
def Ev.WIN_GIVEN : Nat := 229
def Ev.WIN_FORCED : Nat := 230
def Ev.NOTIFY_LOST : Nat := 231
def Ev.SPI_FRAME_ERR : Nat := 232
def Ev.CAN_BUS_OFF : Nat := 233
def Ev.CAN_RX_OVF : Nat := 234
def Ev.ETH_LINK : Nat := 235
def Ev.PCIE_LINK : Nat := 236
def Ev.XSPI_ERR : Nat := 237
def Ev.DDR_ECC_CORR : Nat := 238
def Ev.DDR_ECC_UNCORR : Nat := 239
def Ev.REC_TRIG : Nat := 240
def Ev.REC_FROZEN : Nat := 241
def Ev.REC_LOSS : Nat := 242
def Ev.REC_EXP_DONE : Nat := 243
def Ev.REC_EXP_ERR : Nat := 244
def Ev.RPL_DONE : Nat := 245
def Ev.RPL_DIVERGE : Nat := 246
def Ev.RPL_REFUSED : Nat := 247
def Ev.DMP_VALID : Nat := 248

/-- The sources the device uses; the route words of all others read zero (R478, R482). -/
def usedSources : List (Nat × Nat) :=
  [(0, 12), (32, 40), (48, 57), (64, 75), (84, 88), (96, 105), (112, 117), (128, 139), (160, 166), (168, 172), (192, 248)]

def sourceUsed (s : Nat) : Bool := usedSources.any fun r => decide (r.1 ≤ s) && decide (s ≤ r.2)

/-! Device states (R50). -/
def DS.RESET : Nat := 0
def DS.BOOT : Nat := 1
def DS.CONFIGURE : Nat := 2
def DS.COMMISSION : Nat := 3
def DS.READY : Nat := 4
def DS.RUN : Nat := 5
def DS.OVERCAST : Nat := 8
def DS.SAFE_HOLD : Nat := 9
def DS.FATAL : Nat := 15

/-! Page numbers (R45). Instance pages take the instance; PWT and PWA pages take the group code. -/
def Pg.SYS : Nat := 0x000
def Pg.CAP : Nat := 0x001
def Pg.CLK : Nat := 0x002
def Pg.PWR : Nat := 0x003
def Pg.RST : Nat := 0x004
def Pg.SEC : Nat := 0x005
def Pg.EVT (i : Nat) : Nat := 0x008 + i
def Pg.MBX : Nat := 0x010
def Pg.LCK : Nat := 0x011
def Pg.WIN : Nat := 0x012
def Pg.TL : Nat := 0x020
def Pg.TLS (i : Nat) : Nat := 0x021 + i
def Pg.TRK : Nat := 0x028
def Pg.ADA : Nat := 0x030
def Pg.ADB : Nat := 0x031
def Pg.ACC (i : Nat) : Nat := 0x032 + i
def Pg.MMX (i : Nat) : Nat := 0x038 + i
def Pg.CMP (i : Nat) : Nat := 0x040 + i
def Pg.POS (i : Nat) : Nat := 0x048 + i
def Pg.EMU : Nat := 0x054
def Pg.EXC : Nat := 0x055
def Pg.LEC : Nat := 0x060
def Pg.LE (i : Nat) : Nat := 0x061 + i
def Pg.PWT (i : Nat) : Nat := 0x080 + i
def Pg.PWG : Nat := 0x094
def Pg.GDT : Nat := 0x098
def Pg.GDA : Nat := 0x099
def Pg.SAFE : Nat := 0x0A0
def Pg.TMON : Nat := 0x0A1
def Pg.SPB : Nat := 0x0A2
def Pg.RGA : Nat := 0x0A8
def Pg.RGB : Nat := 0x0A9
def Pg.SFX : Nat := 0x0AA
def Pg.CAN (i : Nat) : Nat := 0x0B0 + i
def Pg.ETH (i : Nat) : Nat := 0x0B8 + i
def Pg.PCIE : Nat := 0x0BA
def Pg.SPIT : Nat := 0x0BB
def Pg.XSPI : Nat := 0x0BC
def Pg.DDR : Nat := 0x0BD
def Pg.REC : Nat := 0x0C0
def Pg.RPL : Nat := 0x0C1
def Pg.DMP : Nat := 0x0C2
def Pg.DBG : Nat := 0x0F0
def Pg.CTX (i : Nat) : Nat := 0x100 + i

/-! Master identities (R47). -/
def Mid.S0 : Nat := 0
def Mid.S1 : Nat := 1
def Mid.TMON : Nat := 2
def Mid.LEC : Nat := 3
def Mid.PCIE : Nat := 4
def Mid.SPI : Nat := 5
def Mid.RING : Nat := 6
def Mid.DMA : Nat := 7
def Mid.DEBUG : Nat := 8

/-- The source that bit 0 of PG_EVT_RAW stands for in the pages of a block (R88, R112, R135, R159, R185, R217, R240, R293, R321,
R353, R385, R405, R431, R450, R472, R479). -/
def blockBase : Block → Nat
  | .sysB => 0
  | .capB => 0
  | .clkB => 0
  | .pwrB => 0
  | .rstB => 0
  | .secB => 0
  | .evtB => 0
  | .mbxB => 224
  | .lckB => 224
  | .winB => 224
  | .tlB => 32
  | .tlsB => 32
  | .trkB => 32
  | .adaB => 96
  | .adbB => 96
  | .accB => 112
  | .mmxB => 112
  | .cmpB => 84
  | .posB => 128
  | .emuB => 128
  | .excB => 128
  | .lecB => 160
  | .leB => 160
  | .pwtB => 48
  | .pwaB => 48
  | .pwgB => 48
  | .gdtB => 64
  | .gdaB => 64
  | .safeB => 192
  | .tmonB => 192
  | .spbB => 192
  | .rgaB => 192
  | .rgbB => 192
  | .sfxB => 192
  | .canB => 224
  | .ethB => 224
  | .pcieB => 224
  | .spitB => 224
  | .xspiB => 224
  | .ddrB => 224
  | .recB => 240
  | .rplB => 240
  | .dmpB => 240
  | .dbgB => 0
  | .ctxB => 160

/-- The bit of a page's PG_EVT_RAW that stands for a source (R476). -/
def evtBit (page src : Nat) : Nat :=
  match pageInfo page with
  | some (b, _) => (src - blockBase b) % 32
  | none => 0

end Sys2Proof.Machine
end

