-- ==== Sys2Proof/Machine/Sparse.lean ====
section
/-! DEFINITION. Sparse data in one canonical form: pairs of a key and a value, keys strictly rising, no value equal to what
an unlisted key reads as. Registers, unit records and byte memories are held this way, so that equal contents are equal
data. -/

namespace Sys2Proof.Machine

/-- Sparse data: keys and values. -/
abbrev Sparse (α : Type) := List (Nat × α)

/-- What key `k` reads as; `dflt` where it is not listed. -/
def spGet {α : Type} (dflt : α) : Sparse α → Nat → α
  | [], _ => dflt
  | (a, v) :: r, k => if a = k then v else spGet dflt r k

/-- The list without key `k`. -/
def spDel {α : Type} : Sparse α → Nat → Sparse α
  | [], _ => []
  | (a, v) :: r, k => if a = k then spDel r k else (a, v) :: spDel r k

/-- The list with a pair put in before the first greater key. -/
def spIns {α : Type} : Sparse α → Nat → α → Sparse α
  | [], k, v => [(k, v)]
  | (a, w) :: r, k, v => if k < a then (k, v) :: (a, w) :: r else (a, w) :: spIns r k v

/-- A write: an entry that reads as the default is not listed. -/
def spPut {α : Type} [DecidableEq α] (dflt : α) (l : Sparse α) (k : Nat) (v : α) : Sparse α :=
  if v = dflt then spDel l k else spIns (spDel l k) k v

/-- Every key of the list lies above `b`, keys rise strictly, and no listed value is the default. -/
def spWfFrom {α : Type} [DecidableEq α] (dflt : Nat → α) : Nat → Sparse α → Bool
  | _, [] => true
  | b, (a, v) :: r => decide (b ≤ a) && decide (v ≠ dflt a) && spWfFrom dflt (a + 1) r

/-- The canonical form. -/
def spWf {α : Type} [DecidableEq α] (dflt : Nat → α) (l : Sparse α) : Bool := spWfFrom dflt 0 l

/-- A byte memory: what a byte that is not listed reads as is zero (log entry 4, DESIGN CHOICE). -/
abbrev Memory := List Host.Cell

/-- Read of one byte. -/
def Memory.read (m : Memory) (a : Nat) : Byte := spGet 0 m a

/-- Write of one byte. -/
def Memory.write (m : Memory) (a : Nat) (b : Byte) : Memory := spPut 0 m a b

/-- The canonical form of a byte memory. -/
def Memory.wf (m : Memory) : Bool := spWf (fun _ => (0 : Byte)) m

/-- Read of `n` bytes from address `a` upward. -/
def Memory.readBytes (m : Memory) (a : Nat) : Nat → List Byte
  | 0 => []
  | n + 1 => m.read a :: Memory.readBytes m (a + 1) n

/-- Write of bytes from address `a` upward. -/
def Memory.writeBytes (m : Memory) (a : Nat) : List Byte → Memory
  | [] => m
  | b :: bs => Memory.writeBytes (m.write a b) (a + 1) bs

/-- Read of a word, least significant byte first (R22). -/
def Memory.readWord (m : Memory) (a : Nat) : Word := wordOfBytes (m.readBytes a 4)

/-- Write of words from address `a` upward. -/
def Memory.writeWords (m : Memory) (a : Nat) : List Word → Memory
  | [] => m
  | w :: ws => Memory.writeWords (m.writeBytes a (bytesOfWord w)) (a + 4) ws

end Sys2Proof.Machine
end

