-- ==== Sys2Proof/Machine/State.lean ====
section
/-! DEFINITION. The state of the device: plain data. Registers stand in one sparse file keyed by bus address (Family.lean
gives what an unlisted address reads as: its reset value). What the spec gives the device beside its registers stands in
records, one sparse list for each kind of unit, keyed by the unit's number. Byte memories stand apart in `Mems`; the
commands that wait stand in `pending`, first in, first out. -/

namespace Sys2Proof.Machine

/-- Key window of one page (R29): the writer of an accepted first word and its tick; the opener of an open window and the tick in which
its 65,536 cycles began. -/
structure KeySt where
  pend : Option (Nat × Nat) := none
  win : Option (Nat × Nat) := none
  deriving DecidableEq, Repr

/-- One raising of an event source: page, source, tick (R476). -/
structure Raising where
  page : Nat := 0
  src : Nat := 0
  tick : Nat := 0
  deriving DecidableEq, Repr

/-- Event delivery (R476 to R481): the raisings of the present bus cycle, the tick of the last raising, the supervisors' pending vectors,
the ends of EVT_OUT pulses by origin (0: no pulse), and the last 512 raisings (R468). -/
structure EvtSt where
  cyc : List Raising := []
  lastTick : Nat := 0
  s0vec : Word := 0
  s1vec : Word := 0
  outR : Sparse Nat := []
  outS : Sparse Nat := []
  log : List Raising := []
  deriving DecidableEq, Repr

/-- An update on its way to a track (R61): measured 40-bit angle, speed where the source gives one, tick of the measurement, tick of
application, whether the source word is valid, its UNCERTAIN flag. -/
structure Upd where
  m : Nat := 0
  v : Option Int := none
  ts : Nat := 0
  ta : Nat := 0
  valid : Bool := false
  unc : Bool := false
  zero : Bool := false
  logged : Bool := false
  deriving DecidableEq, Repr

/-- An angle track (R59 to R70): 40-bit angle, speed, slew residual, projected angle of the previous tick, staged HOST speed, tick from
which staleness counts, whether it has held a non-zero speed, tick after the last jump (0: none) and the jump, a FREE speed that takes
effect in the next tick, updates under way, oldest first, and whether the last applied one came from a valid source word. -/
structure TrkSt where
  ang : Nat := 0
  spd : Int := 0
  res : Int := 0
  pPrev : Nat := 0
  staged : Option Int := none
  base : Nat := 0
  hasSpd : Bool := false
  jumpAt : Nat := 0
  jump : Int := 0
  nextSpd : Option Int := none
  upds : List Upd := []
  good : Bool := false
  deriving DecidableEq, Repr

/-- A timeline slot (R71 to R79): arming tick, next effect tick of a periodic series, carrier events counted since arming and tick of the
last one considered, a carrier firing still due, whether the angle slot waits to re-arm, tick after its last decision (0: none). -/
structure SlotSt where
  armTick : Nat := 0
  nextF : Nat := 0
  cnt : Nat := 0
  lastEv : Nat := 0
  waitRearm : Bool := false
  decAt : Nat := 0
  deriving DecidableEq, Repr

/-- A slot action on its way to its effect tick (R72, R80). -/
structure Firing where
  slot : Nat := 0
  f : Nat := 0
  action : Nat := 0
  target : Nat := 0
  span : Nat := 0
  param : Nat := 0
  deriving DecidableEq, Repr

/-- Time discipline (R56 to R58): sync messages in a row within 100 ns, whether the offset has been written since SYNC_EN was set, the low
offset word waiting for its high word; tick after the last ZERO_SLACK case (R85). -/
structure SyncSt where
  inRange : Nat := 0
  offWritten : Bool := false
  ofsLo : Word := 0
  zsTick : Nat := 0
  deriving DecidableEq, Repr

/-- A mailbox channel (R411 to R415): the queue sent by side A and the queue sent by side B, oldest word first; the two sides' QFULL,
EMPTY_RD and RST_SEEN flags; words sent and taken by each side. -/
structure MbxSt where
  ab : List Word := []
  ba : List Word := []
  qfullA : Bool := false
  qfullB : Bool := false
  emptyA : Bool := false
  emptyB : Bool := false
  rstSeenA : Bool := false
  rstSeenB : Bool := false
  sentA : Nat := 0
  sentB : Nat := 0
  takenA : Nat := 0
  takenB : Nat := 0
  deriving DecidableEq, Repr

/-- Garmal's side of a command channel (R424, R425, R430): notifications enabled, their count, a lost notification still to be shown, the
words of a response that waits for space, whether it is the channel served last. -/
structure GarSt where
  notify : Bool := false
  tag : Nat := 0
  lost : Bool := false
  held : List Word := []
  last : Bool := false
  deriving DecidableEq, Repr

/-- A recorder record (R454): type, speculative mark, resource, tick, words after the header. -/
structure RecRec where
  ty : Nat := 0
  spec : Bool := false
  res : Nat := 0
  tick : Nat := 0
  data : List Word := []
  deriving DecidableEq, Repr

/-- A copy under way by the recorder's DMA (R462, R471): what (0 an export, 1 a load, 2 a dump copy), window, first block or chunk,
blocks. -/
structure JobSt where
  kind : Nat := 0
  win : Nat := 0
  at0 : Nat := 0
  n : Nat := 0
  deriving DecidableEq, Repr

/-- The recorder beside its registers (R452 to R462): records that have not reached the ring, lost records and the tick of the first, tick
after the trigger, contexts whose anchor is still to come, tick from which the interval to the next anchor set counts, whether the recorder
has completed its post phase and freezes, copies under way, first in first out; the cycle of a REARM whose run has not started; the last
cycle in which triggers met a frozen recorder, with the lowest of them (R460). -/
structure RecSt where
  fifo : List RecRec := []
  lost : Nat := 0
  lostTick : Nat := 0
  trigTick : Nat := 0
  ancLeft : List Nat := []
  ancAt : Nat := 0
  freeze : Bool := false
  jobs : List JobSt := []
  rearm : Option Nat := none
  missCyc : Nat := 0
  missSrc : Nat := 0
  deriving DecidableEq, Repr

/-- The device's one-time-programmable memory and the device number (R489, R491, R495). -/
structure NvSt where
  uid0 : Word := 0
  uid1 : Word := 0
  lc : Nat := 0
  rollback : Nat := 0
  revoked : Nat := 0
  digests : List (List Byte) := []
  deriving DecidableEq, Repr

/-- The PCIe link and function (R441, R442): whether the link is in L0, in L1, the function in D3hot, the function in reset, the payload
negotiated in bytes (0: none yet). -/
structure PcieSt where
  l0 : Bool := false
  l1 : Bool := false
  d3 : Bool := false
  fnRst : Bool := false
  payload : Nat := 0
  deriving DecidableEq, Repr

/-- The last transition of the device state (R53): tick after it (0: none) and the state it left. -/
structure TransSt where
  at1 : Nat := 0
  fromSt : Nat := 0
  deriving DecidableEq, Repr

/-- A switch edge still to come (R286): leg, which switch, on or off, fine time, whole tick at which it leaves. -/
structure EdgeSt where
  leg : Nat := 0
  hi : Bool := false
  on : Bool := false
  t : Int := 0
  tick : Nat := 0
  deriving DecidableEq, Repr

/-- A leg of a PWM group: the step of R283 (h, w, a and the carry before it, its high interval in fine time), whether a policy acted in
the last update period, the forced state in effect and the one that governs from the coming load point, a written forced state with its
tick and its IMM due tick, levels of the two switches after dead time, fine time of each one's last turn-off, whether a cleared leg waits
for its load point, tick after its release and after its latest cause, bootstrap refreshes: planned, and the tick of the sample; LIMIT
force-offs of the two pins; levels of the two pins when the comparators' edge blanking last looked at them (R146). -/
structure LegSt where
  h : Int := 0
  w : Int := 0
  a : Int := 0
  c0 : Int := 0
  rise : Int := 0
  fall : Int := 0
  acted : Bool := false
  force : Nat := 0
  fNext : Nat := 0
  fPend : Option (Nat × Nat) := none
  imm : Option (Nat × Nat) := none
  lvH : Bool := false
  lvL : Bool := false
  offH : Option Int := none
  offL : Option Int := none
  wait : Bool := false
  relAt : Nat := 0
  causeAt : Nat := 0
  rfPlan : Bool := false
  rfSample : Option Nat := none
  limH : Bool := false
  limL : Bool := false
  pinH : Bool := false
  pinL : Bool := false
  deriving DecidableEq, Repr

/-- A PWM group (R270 to R293): its announced carrier events, kind (0 valley, 1 peak, 2 load point) and tick; the vector in force and the
vector that entered the shadow since, with its tick (a duty is a mantissa and an exponent); the last committed vector and the update
period in which it first took effect; update periods captured; the next load point and whether it is a peak, whether it has been captured;
the last captured valley and its period; a secondary's coming valleys with their periods; enable tick; direction and index of an angle
lock; legs, and as they were before the last capture; edges to come; legs on which a policy acted in the update period before, while the
assessment of the last capture awaits the end of a speculation; the same kept for a late load, and whether the last capture set CARRY_LIM
(R230); ASC in effect;
earliest edge of the last capture; tick at which a stopped group's switches go off; ready wait, accepted ready, the ready gate closed
(R302), removal check; ARM before a write and its tick; dithering since a line failed (R289). -/
structure GrpSt where
  evs : List (Nat × Nat) := []
  vec : Option (List (Int × Int)) := none
  nextVec : Option (List (Int × Int) × Nat) := none
  comm : Option (List (Int × Int)) := none
  commIdx : Nat := 0
  idx : Nat := 0
  load : Option (Nat × Bool) := none
  capd : Bool := false
  v : Nat := 0
  p : Nat := 0
  vq : List (Nat × Nat) := []
  enAt : Nat := 0
  lockDir : Int := 0
  lockJ : Int := 0
  legs : Sparse LegSt := []
  legs0 : Sparse LegSt := []
  edges : List EdgeSt := []
  minpDue : Option (List Bool) := none
  minpOld : List Bool := []
  limNew : Bool := false
  asc : Bool := false
  eMin : Nat := 0
  offAt : Option Nat := none
  waitAt : Option Nat := none
  rdyAcc : Bool := false
  shut : Bool := false
  chkAt : Option Nat := none
  armOld : Option (Nat × Nat) := none
  failD : Bool := false
  deriving DecidableEq, Repr

/-- An accumulator window (R119, R123): opening tick, closing tick once closed, members, the two sums, overflow, least and greatest d,
timestamp of the latest member. -/
structure WinSt where
  fOpen : Nat := 0
  fClose : Nat := 0
  n : Nat := 0
  s1 : Int := 0
  s2 : Int := 0
  ovf : Bool := false
  dMin : Int := 0
  dMax : Int := 0
  last : Nat := 0
  deriving DecidableEq, Repr

/-- An accumulator (R121): the open window, the closed window that has not yet committed, and of the last commit the tick after it, the
opening tick and the closing tick; commits so far (R179, R193). -/
structure AccSt where
  cur : Option WinSt := none
  pend : Option WinSt := none
  cAt : Nat := 0
  cOpen : Nat := 0
  cClose : Nat := 0
  n : Nat := 0
  deriving DecidableEq, Repr

/-- A Bank A result on its way (R91): logical slice, input, sampling tick, corrected code of the serving slice, the incoming slice's code
while an overlap pairs it (R97). -/
structure SampSt where
  slice : Nat := 0
  input : Nat := 0
  ts : Nat := 0
  code : Nat := 0
  codeInc : Option Nat := none
  deriving DecidableEq, Repr

/-- The running overlap (R96 to R99): whether one runs, its logical slice, incoming physical slice, step tick, counted pairs, sum of
differences and greatest |difference|, and once decided for a handover its decision tick and whether it is forced. -/
structure RotSt where
  run : Bool := false
  slice : Nat := 0
  inc : Nat := 0
  step : Nat := 0
  pairs : Nat := 0
  sum : Int := 0
  top : Nat := 0
  hand : Option (Nat × Bool) := none
  deriving DecidableEq, Repr

/-- A logical slice's consecutive failed overlaps and the incoming slice of the first (R99). -/
structure OvlSt where
  fails : Nat := 0
  inc : Nat := 0
  deriving DecidableEq, Repr

/-- A physical slice: tick at which its running calibration began, tick at which it last finished one (R95, R101). -/
structure CalSt where
  start : Nat := 0
  done : Nat := 0
  deriving DecidableEq, Repr

/-- An open-wire window (R102 to R104): effect ticks of opening and closing, evaluated samples and their sum, whether it has been
evaluated. -/
structure OwSt where
  on : Nat := 0
  off : Option Nat := none
  n : Nat := 0
  sum : Nat := 0
  done : Bool := false
  deriving DecidableEq, Repr

/-- A sinc3 decimator (R108): three integrators, three comb delays, outputs since enable. -/
structure SincSt where
  i1 : Int := 0
  i2 : Int := 0
  i3 : Int := 0
  c1 : Int := 0
  c2 : Int := 0
  c3 : Int := 0
  outs : Nat := 0
  deriving DecidableEq, Repr

/-- A Bank B channel (R106 to R110): the decimator, the fast decimator, its last output, copies on their way to Channel P (value, tick of
the decimator output); its last bit, modulator clocks since the last transition, whether they have reached STUCK_N, and whether SD_STUCK
is still to be raised for it; whether a failed clock has stopped it. -/
structure SddSt where
  main : SincSt := {}
  fast : SincSt := {}
  y : Int := 0
  copies : List (Int × Nat) := []
  last : Option Bool := none
  still : Nat := 0
  stuck : Bool := false
  hit : Bool := false
  held : Bool := false
  deriving DecidableEq, Repr

/-- One stretch of an excitation output's history (R178): first tick, phase at it, period, whether the output runs. -/
structure ExcSeg where
  t0 : Nat := 0
  phi : Nat := 0
  per : Nat := 0
  run : Bool := false
  deriving DecidableEq, Repr

/-- A traction output's two delay lines (R288, R289): which line places edges, the tables of both, which have failed, which have been
calibrated since they last rested, tick of the last exchange, tap of the edge placed last. -/
structure DlSt where
  line : Nat := 0
  tab0 : List Nat := []
  tab1 : List Nat := []
  bad0 : Bool := false
  bad1 : Bool := false
  cal0 : Bool := false
  cal1 : Bool := false
  last : Nat := 0
  tap : Nat := 0
  deriving DecidableEq, Repr

/-- A comparator (R139 to R154): whether it has started since it became able to run, its sides' trips, start tick, untripped decisions in
a row, the settings still in force at the A-die while a write is on its way (CMP_THR, CMP_RAMP, MODE), slot blanking, end of edge
blanking, start of the present uninterrupted blanking, blanking cut until every source has ended, whether CMP_LIMIT has been raised in
this period, whether the present start has been found late, whether a MODE on its way starts the comparator. -/
structure CmpSt where
  on : Bool := false
  hiTrip : Bool := false
  loTrip : Bool := false
  startAt : Nat := 0
  relCnt : Nat := 0
  old : Option (Word × Word × Nat) := none
  slotBlank : Bool := false
  edgeEnd : Option Nat := none
  blankFrom : Option Nat := none
  capped : Bool := false
  limited : Bool := false
  late : Bool := false
  again : Bool := false
  deriving DecidableEq, Repr

/-- A serial word that a shadow decodes later than its interface (R180): the tick, the word, whether its CRC holds, F. -/
structure ShwSt where
  due : Nat := 0
  word : Nat := 0
  ok : Bool := false
  f : Nat := 0
  deriving DecidableEq, Repr

/-- A position decoder, of an interface or of a shadow (R163 to R181): accepted levels, whether the data line of a serial encoder rests
low, the true count, learned index count, an index waiting for its qualifier, whether a deviation has cleared VALID, tick of a write of
POS_IDX_CTRL and CORR before it, sector, adjacent transitions since a Hall error, timestamps
of the edges since the last change of direction with the one before it, newest first, acceptance tick, angle, speed and direction of the
last edge, tick after the last update, an edge pending, request tick of the running frame, of a BiSS-C frame whether the acknowledge has
been seen and the number of the start bit's sample; a shadow's word on its way, good words (timestamp, angle) newest first, resolver
commits used; a shadow resolver's sums, sign, crossing tick after it, and last period. -/
structure PosSt where
  a : Bool := false
  b : Bool := false
  z : Bool := false
  dataLow : Bool := false
  cnt : Int := 0
  exp : Nat := 0
  seen : Bool := false
  idxWait : Bool := false
  devOff : Bool := false
  corr : Option (Nat × Bool) := none
  sec : Option Nat := none
  adj : Nat := 0
  edges : List Nat := []
  accAt : Nat := 0
  ang : Nat := 0
  spd : Option Int := none
  back : Bool := false
  updAt : Nat := 0
  edgePend : Bool := false
  frame : Option Nat := none
  ack : Bool := false
  start : Option Nat := none
  shw : Option ShwSt := none
  words : List (Nat × Nat) := []
  useS : Nat := 0
  useC : Nat := 0
  sumS : Int := 0
  sumC : Int := 0
  eNeg : Bool := false
  crossAt : Nat := 0
  crossPer : Nat := 0
  lost : Bool := false
  deriving DecidableEq, Repr

/-- An encoder emulation output (R183, R184): tick after its last step, the count before it, tick after the write that set it running. -/
structure EmuSt where
  stepAt : Nat := 0
  prev : Nat := 0
  onAt : Nat := 0
  deriving DecidableEq, Repr

/-- What one input slot delivers to a pass (R198): its operands, the member count and tick of a partial view, qualifiers. -/
structure SlotIn where
  a : Opd := {}
  b : Opd := {}
  np : Nat := 0
  ptick : Nat := 0
  qual : List Bool := []
  deriving DecidableEq, Repr

/-- The snapshot of a pass (R197): T_r, record words 0 to 111, slots, committed OUT words, accumulator commits counted at T_r for each
slot, whether it runs on timed-out inputs, whether an input speed was bounded. -/
structure SnapSt where
  tr : Nat := 0
  words : List Word := []
  slots : List SlotIn := []
  outs : List Opd := []
  counts : List Nat := []
  stale : Bool := false
  deriving DecidableEq, Repr

/-- What a pass will commit (R205): OUT words with their exponents, state words of the pool, saturated stages. -/
structure PassSt where
  outs : List (Word × Nat) := []
  state : List (Nat × Word) := []
  sat : Nat := 0
  deriving DecidableEq, Repr

/-- A pending pass (R192, R193): F, whether it is speculative, the tick it became ready, slots stale at a timeout. -/
structure PendSt where
  f : Nat := 0
  spec : Bool := false
  ready : Option Nat := none
  stale : List Bool := []
  deriving DecidableEq, Repr

/-- A pass on the normal path (R191): its engine, F, whether it is speculative, commit tick, snapshot, result. -/
structure RunSt where
  eng : Fin 8 := 0
  f : Nat := 0
  spec : Bool := false
  tc : Nat := 0
  snap : SnapSt := {}
  res : PassSt := {}
  deriving DecidableEq, Repr

/-- A predicted window (R225): the predictor's stage, the accumulator, the opening tick (none: no window was open); once it has committed
the tick, RES0 and RES1, whether EMPTY, SHORT or OVF stood, SAT0 and SAT1, the commit count; whether it was lost. -/
structure PredWin where
  stage : Nat := 0
  acc : Nat := 0
  fOpen : Option Nat := none
  done : Option Nat := none
  m0 : Int := 0
  m1 : Int := 0
  bad : Bool := false
  sat0 : Bool := false
  sat1 : Bool := false
  count : Nat := 0
  lost : Bool := false
  deriving DecidableEq, Repr

/-- A speculation from the start of its pass to its resolution (R220 to R237, R242): F, snapshot, staged result, prediction words (stage,
whether RES1, mantissa), predicted windows, T_st, request tick and commit tick of its recompute, the engine that runs it. -/
structure SpecSt where
  f : Nat := 0
  snap : SnapSt := {}
  res : PassSt := {}
  preds : List (Nat × Bool × Int) := []
  wins : List PredWin := []
  tst : Option Nat := none
  rq : Option Nat := none
  rend : Option Nat := none
  reng : Fin 8 := 0
  deriving DecidableEq, Repr

/-- A target period (R226, R228): group, its load point, whether a peak, its horizon once fixed. -/
structure TgtSt where
  grp : Nat := 0
  load : Nat := 0
  peak : Bool := false
  h : Option Nat := none
  deriving DecidableEq, Repr

/-- A preset of PLL and FLUXOBS that awaits its first pass (R341): angle in counts and speed in rad/s as measured, tick of the
measurement. -/
structure PresetSt where
  theta : Frac := {}
  w : Frac := {}
  ts : Nat := 0
  deriving DecidableEq, Repr

/-- A loop context beyond its record words (R192, R193, R220): accumulator commits counted at the last read of each slot, the pending
pass, the pass on the normal path, the speculation, its target periods, tick after the last commit, the program fixed at the enable
(R191), words whose check bits show an error that cannot be corrected and words with a single-bit error that nothing has read yet (R211;
128 + i is the staged state word of pool word i), a preset that awaits its pass (R341). -/
structure CtxSt where
  seen : Sparse Nat := []
  pend : Option PendSt := none
  run : Option RunSt := none
  spec : Option SpecSt := none
  tgt : List TgtSt := []
  cAt : Nat := 0
  prog : List Word := []
  bad : List Nat := []
  soft : List Nat := []
  preset : Option PresetSt := none
  deriving DecidableEq, Repr

/-- A loop engine (R219): busy frames of the two paths in the present interval. -/
structure EngSt where
  norm : Nat := 0
  rcp : Nat := 0
  deriving DecidableEq, Repr

/-- A machine of Channel P as Garmal runs it (R324 to R352): whether it has a descriptor, the descriptor's words that differ from their
reset values, MD_STAT, whether forward is the negative direction, tick of the last transition, the state it is arming for with the tick of
the GENP command and whether FORCE = NONE has been written, a decision of CATCH that has not yet passed the arming checks, start of the
start window, whether a sensorless machine turns through zero in START mode, start of the retry pause, start of the uninterrupted
back-EMF, whether this catch has repeated, start of standstill, OUT10 of the previous period, implausible periods in a row, last trusted
speed, tick after which |OUT6| has been above LOCK_TQ, ticks of the latest sector transitions, last sector, whether a winding discharge
runs, whether a context error brought it to ASC, whether its soft releases still have to be cleared, speed demand at the entry into
OVERCAST and its tick, and the units claimed for it (KIND of R426 and number), whether the rotor was caught turning backward, tick and
speed at which the ramp of START began and the words it took the place of (stage and word), the update period of the last evaluation
(enable tick and number), the tick after the last reaction. -/
structure MachSt where
  defd : Bool := false
  md : Sparse Word := []
  stat : Word := 0
  neg : Bool := false
  since : Nat := 0
  target : Option Nat := none
  armAt : Nat := 0
  armed : Bool := false
  ready : Option Nat := none
  winAt : Option Nat := none
  rev : Bool := false
  retryAt : Option Nat := none
  emfAt : Option Nat := none
  again : Bool := false
  slowAt : Option Nat := none
  spdPrev : Option Frac := none
  badN : Nat := 0
  trust : Frac := {}
  lockFrom : Option Nat := none
  secAt : List Nat := []
  sector : Option Nat := none
  wind : Bool := false
  eccAsc : Bool := false
  clr : Bool := false
  ovcDem : Option (Int × Nat) := none
  units : List (Nat × Nat) := []
  back : Bool := false
  ramp : Option (Nat × Frac) := none
  rampOld : List (Nat × Word) := []
  evalAt : Nat × Nat := (0, 0)
  reactAt : Nat := 0
  deriving DecidableEq, Repr

/-- One output of a Bank B channel that an entry uses (R357): what the channel is to the entry (0 to 2 phases U, V, W, 3 to 5 the second
set or the phase voltages), its value, the electrical angle at its input instant in 40 bits (for an entry with an observer, its group
delay in half ticks until the evaluation gives the angle), its emission tick. -/
structure TmSmp where
  role : Nat := 0
  y : Int := 0
  ang : Nat := 0
  tick : Nat := 0
  deriving DecidableEq, Repr

/-- A stop under R365: request tick, ω_0, deceleration in 2^−8 rad/s per tick (a fraction), delay and time limit in ticks. -/
structure Ss1St where
  t0 : Nat := 0
  w0 : Int := 0
  num : Int := 0
  den : Nat := 0
  dly : Nat := 0
  tmax : Nat := 0
  deriving DecidableEq, Repr

/-- A commit of a demand context as Channel M sees it (R206, R357): its tick, whether OUT6 to OUT8 are published, their values. -/
structure DemSt where
  tick : Nat := 0
  pub : Bool := false
  o6 : Frac := {}
  o7 : Frac := {}
  o8 : Frac := {}
  deriving DecidableEq, Repr

/-- A machine entry as Channel M runs it (R355 to R367): outputs collected, those of the last interval, end of the next interval, the
commits of its demand context not yet taken, OUT6 (in 2^−8 N·m), OUT7 and OUT8 as taken last, the observer's stator flux in nWb and its
angle in 40 bits at the end of the last interval (R359), evaluations since the last committed pass, tick from which UNCERT stands, the
stop in force and its evaluations at standstill, whether an evaluation with valid inputs has completed, what is latched (the STO_M input;
a trip or an STO request; a completed SS1), tick from which |ω| has stayed below ASC_REL, last estimate, causes of the trips since the last
acknowledgement (R364). -/
structure TmSt where
  smp : List TmSmp := []
  old : List TmSmp := []
  next : Nat := 0
  dems : List DemSt := []
  dem : Int := 0
  dem7 : Frac := {}
  dem8 : Frac := {}
  flux : Int × Int := (0, 0)
  th : Nat := 0
  age : Nat := 0
  unc : Option Nat := none
  ss1 : Option Ss1St := none
  still : Nat := 0
  ok : Bool := false
  byIn : Bool := false
  byTrip : Bool := false
  byDone : Bool := false
  slow : Option Nat := none
  t : Int := 0
  trips : List Nat := []
  deriving DecidableEq, Repr


/-- A discharge that Channel M has started for an entry (R368): tick after its start, whether SDD_VDC has read at or below V_SAFE_M since,
whether DIS_M_LATE has been raised. -/
structure DisSt where
  at1 : Nat := 0
  low : Bool := false
  late : Bool := false
  deriving DecidableEq, Repr

/-- The safety functions beside their registers (R354 to R384, R399 to R402): machines that continue in SAFE_HOLD, the two channels'
copies of the safety parameter block (word number and word), tick of the entry into COMMISSION (none: not yet), discharges that Channel M
has started, whether SAFE_HOLD without continuation holds DIS_M, the entry next to be recomputed for each engine, machines that the entry
into OVERCAST stopped, whether OVERCAST_DONE has been raised, tick from which S1's next unsupervised check is due (R374), whether a channel's keeper has dropped its enables (R38). -/
structure SafeSt where
  keep : Nat := 0
  spbP : Sparse Word := []
  spbM : Sparse Word := []
  base : Option Nat := none
  disM : Sparse DisSt := []
  held : Bool := false
  xNext0 : Nat := 0
  xNext1 : Nat := 0
  ovcMach : Nat := 0
  ovcDone : Bool := false
  uncAt : Nat := 0
  deadP : Bool := false
  deadM : Bool := false
  deriving DecidableEq, Repr


/-- A valid copy that waits for its pair (R396): ring, words, arrival tick. -/
structure CopySt where
  b : Bool := false
  words : List Word := []
  tick : Nat := 0
  deriving DecidableEq, Repr

/-- A source as a node receives it (R395 to R398, R403): last accepted SEQ (none: NONE), tick after its last acceptance or the last
commit, whether it has been accepted in the current epoch and the tick after the last such acceptance, tick after the last valid copy of
each ring, words 0 to 3 and 7 of those copies, the EP_NEW values that its PROPOSE and ACCEPT copies have shown (ring, value, tick after the
last such copy), copies that wait. -/
structure SrcSt where
  last : Option Nat := none
  accAt : Nat := 0
  inEpoch : Bool := false
  epAt : Nat := 0
  seenA : Nat := 0
  seenB : Nat := 0
  epA : List Word := []
  epB : List Word := []
  props : List (Bool × Nat × Nat) := []
  wait : List CopySt := []
  deriving DecidableEq, Repr

/-- The rings beside their registers (R389 to R404): sources, own SEQ and whether a frame has been sent since the
reset (R397), the cycle in which the last frame was sent
(with 1 added), its tick and words, the cycle entered last, tick of Ring A's insertion, EPOCH values seen with their ticks, the
cycle of step 1 of the running protocol, S0's and S1's acceptance, the commit cycle, the cycle of the last commit, machines that Garmal
still has to stop at its next poll, tick of the entry into OVERCAST whose clamps it still has to set. -/
structure RingSt where
  srcs : Sparse SrcSt := []
  seq : Nat := 0
  began : Bool := false
  sentCyc : Int := 0
  txTick : Nat := 0
  tx : List Word := []
  cyc : Option Int := none
  insA : Option Nat := none
  greats : List (Nat × Nat) := []
  epStart : Int := 0
  okP : Bool := false
  okM : Bool := false
  commitAt : Option Int := none
  epCyc : Option Int := none
  stops : List Nat := []
  clamp : Option Nat := none
  deriving DecidableEq, Repr


/-- A record of a stream that a replay reads (R464): the record, its block, its byte offset there. -/
structure RefSt where
  r : RecRec := {}
  seq : Nat := 0
  ofs : Nat := 0
  deriving DecidableEq, Repr

/-- A running replay (R463 to R465): RT less GTC; GTC less the tick count in force while a part runs on RT; records still to come;
reproduced records not yet compared; PART records at hand; contexts that have joined and the named ones that have not; times in which
passes of contexts that have not joined occupy an engine (context, T_r, T_c); the END code after the last record; the last record; whether a
recorded write is being applied; the tick after the opening of the open window and of the closed one of each accumulator, as slot actions
and PART records show them (0: none known; R225). -/
structure RplSt where
  back : Int := 0
  shift : Int := 0
  ref : List RefSt := []
  got : List RecRec := []
  parts : List RefSt := []
  joined : List Nat := []
  todo : List Nat := []
  busy : List (Nat × Nat × Nat) := []
  stop : Nat := 0
  last : RecRec := {}
  applying : Bool := false
  wins : Sparse Nat := []
  pend : Sparse Nat := []
  deriving DecidableEq, Repr


/-- A CAN controller's buffers (R436): transmit buffers that are pending, receive buffers that hold a frame. -/
structure CanSt where
  pend : List Nat := []
  full : List Nat := []
  deriving DecidableEq, Repr

/-- An Ethernet port's FIFOs (R440): words of the frame being written, bytes of the last frame sent (the model's own output), received
frames oldest first, words already taken of the oldest, tick from which the next delay measurement is due (R439), receive timestamp of the
last Pdelay_Req answered (none: none yet; the model's own output). -/
structure EthSt where
  tx : List Word := []
  sent : List Byte := []
  rx : List (List Byte) := []
  pos : Nat := 0
  pdNext : Nat := 0
  pdAns : Option Nat := none
  deriving DecidableEq, Repr


/-- Writes to absent units in one bus cycle (R12): the cycle with 1 added (0: none), the lowest MID among them, their number. -/
structure AbsSt where
  cyc : Nat := 0
  mid : Nat := 0
  n : Nat := 0
  deriving DecidableEq, Repr

/-- What the present cycle of the peripheral bus has changed, where its other accesses still see it as it was (R412, R418, R420, R422):
the cycle with 1 added, locks released with their holders, windows with their owners before, sides of channels that met a full queue,
sides of channels that sent a word (once for each word). -/
structure CycSt where
  at1 : Nat := 0
  rel : List (Nat × Nat) := []
  own : List (Nat × Nat) := []
  full : List (Nat × Nat) := []
  sent : List (Nat × Nat) := []
  deriving DecidableEq, Repr

/-- Start-up and reset beside their registers (R448, R467, R483 to R493): a warm reset to come (its tick, bits of RST_CAUSE), whether
reset has been released, whether boot calibration has ended, slots whose verification has ended and the slot accepted, LPDDR4X fitted in
MiB, the block the patrol scrub reads next, blocks that it could not correct and nothing has written since, errors of
blocks that nothing has read yet (R449), phase of the dump (1
retention, 2 region, 3 done), words of its header from the entry; data-lane frames dropped in a row, whether the link has failed, the
slots of the latest dropped frames, newest first (R35, R36); the last writes to absent units (R12), what the present bus cycle has changed
(R412, R418, R422), tick from which the context store's next scrub is due (R211), whether VDDIO stands at or below 2.9 V (R499). -/
structure SysSt where
  rst : Option (Nat × Nat) := none
  released : Bool := false
  calDone : Bool := false
  tried : List Nat := []
  slot : Option Nat := none
  fitted : Nat := 0
  scrub : Nat := 0
  bad : List Nat := []
  ddrSoft : List (Nat × Bool) := []
  dump : Nat := 0
  head : List Word := []
  drops : Nat := 0
  linkDead : Bool := false
  cut : List Nat := []
  abs : AbsSt := {}
  cyc : CycSt := {}
  scrubbed : Nat := 0
  vddioLow : Bool := false
  deriving DecidableEq, Repr

/-- Everything of the device but its byte memories and the waiting commands. -/
structure Dev where
  member : Member
  gtc : Nat
  regs : Sparse Word
  rdata : Sparse Word
  latch : Sparse (Option Word)
  keys : Sparse KeySt
  free : Nat
  nv : NvSt
  evt : EvtSt
  trk : Sparse TrkSt
  slot : Sparse SlotSt
  firings : List Firing
  sync : SyncSt
  mbx : Sparse MbxSt
  gar : Sparse GarSt
  lck : Sparse (Option Nat)
  hamper : RecSt
  pcie : PcieSt
  trans : TransSt
  grp : Sparse GrpSt
  msiSent : Sparse Nat
  acc : Sparse AccSt
  samp : List SampSt
  rot : RotSt
  ovl : Sparse OvlSt
  cal : Sparse CalSt
  ow : Sparse (List OwSt)
  sdd : Sparse SddSt
  exc : Sparse (List ExcSeg)
  dl : Sparse DlSt
  cmp : Sparse CmpSt
  pos : Sparse PosSt
  emu : Sparse EmuSt
  ctx : Sparse CtxSt
  eng : Sparse EngSt
  mach : Sparse MachSt
  tm : Sparse TmSt
  safe : SafeSt
  ring : RingSt
  rpl : RplSt
  can : Sparse CanSt
  eth : Sparse EthSt
  sys : SysSt
  spiResp : List Byte
  deriving DecidableEq, Repr

/-- The byte memories: window memory (R419), LPDDR4X with the recorder ring and the dump region (R456, R470), the on-chip ring (R456), the
retention SRAM (R468) and the boot flash (R447). -/
structure Mems where
  win : Memory
  ddr : Memory
  chip : Memory
  ret : Memory
  flash : Memory
  deriving DecidableEq, Repr

/-- The state of the block: the device, its memories, and the commands that wait. -/
structure State where
  dev : Dev
  mems : Mems
  pending : List Instr
  deriving DecidableEq, Repr

/-- Why the machine stops with a fault. -/
inductive Fault where
  /-- A bus access (REGISTER_WRITE, LOW_WORD_READ and the other accesses at an address) outside the register space of R46 and the window
  memory of R419: the spec says nothing exists there. Safe: the machine stops where the spec gives no effect. -/
  | unmappedAddress
  deriving DecidableEq, Repr

/-- Why a command has no meaning. -/
inductive Refusal where
  /-- The command is not modelled: raised by Dispatch.lean alone. Safe. -/
  | notModelled (mnemonic : String)
  deriving DecidableEq, Repr

/-- The device right after reset: no register differs from its reset value (Family.lean), every queue is empty. The member, the device
number and the one-time-programmable memory are the model's choice (log entries 1 and 2). -/
def Dev.reset : Dev :=
  { member := .ehz1208, gtc := 0, regs := [], rdata := [], latch := [], keys := [], free := 0, nv := { lc := 1 }, evt := {},
    trk := [], slot := [], firings := [], sync := {}, mbx := [], gar := [], lck := [], hamper := {},
    pcie := {}, trans := {}, grp := [], msiSent := [], acc := [], samp := [], rot := {}, ovl := [], cal := [],
    ow := [], sdd := [], exc := [], dl := [], cmp := [], pos := [], emu := [], ctx := [], eng := [], mach := [],
    tm := [], safe := {}, ring := {}, rpl := {}, can := [], eth := [], sys := {}, spiResp := [] }

/-- Empty byte memories: every byte reads zero (R419 for the windows; log entry 4, DESIGN CHOICE for the others). -/
def Mems.reset : Mems := { win := [], ddr := [], chip := [], ret := [], flash := [] }

/-- The machine right after reset, with no command waiting. -/
def State.reset : State := { dev := Dev.reset, mems := Mems.reset, pending := [] }

end Sys2Proof.Machine
end

