-- ==== Sys2Proof/Machine/Ops.lean ====
section
/-! DEFINITION. The named operations over the register file and the unit records: every read and every write of a register
by the device goes through these. -/

namespace Sys2Proof.Machine

/-- The word a register holds. -/
def Dev.reg (d : Dev) (a : Nat) : Word := spGet (resetWord d.member a) d.regs a

/-- A register set to a word. -/
def Dev.setReg (d : Dev) (a : Nat) (w : Word) : Dev :=
  { d with regs := spPut (resetWord d.member a) d.regs a w }

/-- The number a register's field holds. -/
def Dev.get (d : Dev) (a : Nat) (f : RField) : Nat := getF (d.reg a) f

/-- A register's field set to a number. -/
def Dev.put (d : Dev) (a : Nat) (f : RField) (v : Nat) : Dev := d.setReg a (setF (d.reg a) f v)

/-- Whether a one-bit field reads 1. -/
def Dev.flag (d : Dev) (a : Nat) (f : RField) : Bool := d.get a f != 0

/-- A one-bit field set or cleared. -/
def Dev.putB (d : Dev) (a : Nat) (f : RField) (b : Bool) : Dev := d.put a f (b2n b)

/-- A counter field increased by `n`, saturating at its largest value. -/
def Dev.addSat (d : Dev) (a : Nat) (f : RField) (n : Nat) : Dev :=
  d.put a f (min (d.get a f + n) (2 ^ fieldWidth f - 1))

/-- A counter field increased by one, saturating. -/
def Dev.bump (d : Dev) (a : Nat) (f : RField) : Dev := d.addSat a f 1

/-- A count taken back; a saturated one stands. -/
def Dev.unbump (d : Dev) (a : Nat) (f : RField) : Dev :=
  if d.get a f = 2 ^ fieldWidth f - 1 then d else d.put a f (d.get a f - 1)

/-- A signed field. -/
def Dev.getI (d : Dev) (a : Nat) (f : RField) : Int := sext (fieldWidth f) (d.get a f)

/-- A signed field set, its low bits kept. -/
def Dev.putI (d : Dev) (a : Nat) (f : RField) (x : Int) : Dev := d.put a f (wrapN (fieldWidth f) x)

/-- Bits of a flag register set. -/
def Dev.orReg (d : Dev) (a : Nat) (w : Word) : Dev := d.setReg a (d.reg a ||| w)

/-- Bits of a flag register cleared. -/
def Dev.clrReg (d : Dev) (a : Nat) (w : Word) : Dev := d.setReg a (d.reg a &&& ~~~ w)

/-- The device state (R50). -/
def Dev.devState (d : Dev) : Nat := d.get R.SYS_STATE F.SYS_STATE_STATE

/-- Whether configuration is open: in CONFIGURE, and to a recorded write that a replay applies (R24, R464). -/
def Dev.inConfigure (d : Dev) : Bool := d.devState == DS.CONFIGURE || d.rpl.applying

/-- Whether the pins of a block that runs follow its rules: not in RESET, BOOT and FATAL (R486), nor without VDDIO (R499). -/
def Dev.pinsLive (d : Dev) : Bool :=
  d.devState != DS.RESET && d.devState != DS.BOOT && d.devState != DS.FATAL && !d.sys.vddioLow

/-- A fresh free value (log entry 3, DESIGN CHOICE): the word, and the device with the counter advanced. -/
def Dev.fresh (d : Dev) : Word × Dev := (Config.freeWord d.free, { d with free := d.free + 1 })

/-! Unit records. -/
def Dev.trkS (d : Dev) (k : Nat) : TrkSt := spGet {} d.trk k
def Dev.setTrk (d : Dev) (k : Nat) (v : TrkSt) : Dev := { d with trk := spPut {} d.trk k v }
def Dev.slotS (d : Dev) (k : Nat) : SlotSt := spGet {} d.slot k
def Dev.setSlot (d : Dev) (k : Nat) (v : SlotSt) : Dev := { d with slot := spPut {} d.slot k v }
def Dev.mbxS (d : Dev) (k : Nat) : MbxSt := spGet {} d.mbx k
def Dev.setMbx (d : Dev) (k : Nat) (v : MbxSt) : Dev := { d with mbx := spPut {} d.mbx k v }
def Dev.garS (d : Dev) (k : Nat) : GarSt := spGet {} d.gar k
def Dev.setGar (d : Dev) (k : Nat) (v : GarSt) : Dev := { d with gar := spPut {} d.gar k v }
def Dev.keyS (d : Dev) (k : Nat) : KeySt := spGet {} d.keys k
def Dev.setKey (d : Dev) (k : Nat) (v : KeySt) : Dev := { d with keys := spPut {} d.keys k v }
def Dev.lckS (d : Dev) (k : Nat) : Option Nat := spGet none d.lck k
def Dev.setLck (d : Dev) (k : Nat) (v : Option Nat) : Dev := { d with lck := spPut none d.lck k v }
def Dev.grpS (d : Dev) (k : Nat) : GrpSt := spGet {} d.grp k
def Dev.setGrp (d : Dev) (k : Nat) (v : GrpSt) : Dev := { d with grp := spPut {} d.grp k v }
def Dev.accS (d : Dev) (k : Nat) : AccSt := spGet {} d.acc k
def Dev.setAcc (d : Dev) (k : Nat) (v : AccSt) : Dev := { d with acc := spPut {} d.acc k v }
def Dev.ovlS (d : Dev) (k : Nat) : OvlSt := spGet {} d.ovl k
def Dev.setOvl (d : Dev) (k : Nat) (v : OvlSt) : Dev := { d with ovl := spPut {} d.ovl k v }
def Dev.calS (d : Dev) (k : Nat) : CalSt := spGet {} d.cal k
def Dev.setCal (d : Dev) (k : Nat) (v : CalSt) : Dev := { d with cal := spPut {} d.cal k v }
def Dev.owS (d : Dev) (k : Nat) : List OwSt := spGet [] d.ow k
def Dev.setOw (d : Dev) (k : Nat) (v : List OwSt) : Dev := { d with ow := spPut [] d.ow k v }
def Dev.sddS (d : Dev) (k : Nat) : SddSt := spGet {} d.sdd k
def Dev.setSdd (d : Dev) (k : Nat) (v : SddSt) : Dev := { d with sdd := spPut {} d.sdd k v }
def Dev.excS (d : Dev) (k : Nat) : List ExcSeg := spGet [] d.exc k
def Dev.setExc (d : Dev) (k : Nat) (v : List ExcSeg) : Dev := { d with exc := spPut [] d.exc k v }
def Dev.dlS (d : Dev) (k : Nat) : DlSt := spGet {} d.dl k
def Dev.setDl (d : Dev) (k : Nat) (v : DlSt) : Dev := { d with dl := spPut {} d.dl k v }
def Dev.cmpS (d : Dev) (k : Nat) : CmpSt := spGet {} d.cmp k
def Dev.setCmp (d : Dev) (k : Nat) (v : CmpSt) : Dev := { d with cmp := spPut {} d.cmp k v }
def Dev.posS (d : Dev) (k : Nat) : PosSt := spGet {} d.pos k
def Dev.setPos (d : Dev) (k : Nat) (v : PosSt) : Dev := { d with pos := spPut {} d.pos k v }
def Dev.emuS (d : Dev) (k : Nat) : EmuSt := spGet {} d.emu k
def Dev.setEmu (d : Dev) (k : Nat) (v : EmuSt) : Dev := { d with emu := spPut {} d.emu k v }
def Dev.ctxS (d : Dev) (k : Nat) : CtxSt := spGet {} d.ctx k
def Dev.setCtx (d : Dev) (k : Nat) (v : CtxSt) : Dev := { d with ctx := spPut {} d.ctx k v }
def Dev.engS (d : Dev) (k : Nat) : EngSt := spGet {} d.eng k
def Dev.setEng (d : Dev) (k : Nat) (v : EngSt) : Dev := { d with eng := spPut {} d.eng k v }

def Dev.machS (d : Dev) (k : Nat) : MachSt := spGet {} d.mach k
def Dev.setMach (d : Dev) (k : Nat) (v : MachSt) : Dev := { d with mach := spPut {} d.mach k v }

def Dev.tmS (d : Dev) (k : Nat) : TmSt := spGet {} d.tm k
def Dev.setTm (d : Dev) (k : Nat) (v : TmSt) : Dev := { d with tm := spPut {} d.tm k v }

/-- The value a master's last read returned: the model's own output (log entry 6, DESIGN CHOICE). -/
def Dev.answer (d : Dev) (mid : Nat) (w : Word) : Dev := { d with rdata := spPut 0 d.rdata mid w }

/-- The words of a longer answer (R419): word k of a master's last read that had as many, under key mid + 16·k. -/
def Dev.answerWords (d : Dev) (mid : Nat) : Nat → List Word → Dev
  | _, [] => d
  | k, w :: r => ({ d with rdata := spPut 0 d.rdata (mid + 16 * k) w } : Dev).answerWords mid (k + 1) r

/-- Key of a master's latch of the register at an address (R21, R69). -/
def latchKey (mid a : Nat) : Nat := mid * 2 ^ 32 + a

def Dev.canS (d : Dev) (k : Nat) : CanSt := spGet {} d.can k
def Dev.setCan (d : Dev) (k : Nat) (v : CanSt) : Dev := { d with can := spPut {} d.can k v }

def Dev.ethS (d : Dev) (k : Nat) : EthSt := spGet {} d.eth k
def Dev.setEth (d : Dev) (k : Nat) (v : EthSt) : Dev := { d with eth := spPut {} d.eth k v }

/-- Whether a replay runs (R464). -/
def Dev.replaying (d : Dev) : Bool := d.flag R.RPL_STAT F.RPL_STAT_RUN

/-- GTC, also while a part of the device runs on the time of a replay (R463, R464). -/
def Dev.now (d : Dev) : Nat := ((d.gtc : Int) + d.rpl.shift).toNat

/-- An operation of a part that runs on RT while a replay runs, and on GTC otherwise (R464). -/
def Dev.onRt (d : Dev) (f : Dev → Dev) : Dev :=
  if d.replaying && d.rpl.shift == 0 then
    let t := d.gtc
    let back := d.rpl.back
    let e := f { d with gtc := ((t : Int) + back).toNat, rpl := { d.rpl with shift := -back } }
    { e with gtc := t, rpl := { e.rpl with shift := 0 } }
  else f d

/-- The word a master's latch of a register holds; none before its first latching read. -/
def Dev.latched (d : Dev) (mid a : Nat) : Option Word := spGet none d.latch (latchKey mid a)

/-- A register's word latched for a master. -/
def Dev.latchW (d : Dev) (mid a : Nat) (w : Word) : Dev := { d with latch := spPut none d.latch (latchKey mid a) (some w) }

/-- A tick put off by a slot for every frame in a row that was dropped. -/
def putOff : Nat → List Nat → Nat → Nat
  | 0, _, t => t
  | n + 1, l, t => if l.contains (t / 2) then putOff n l (t + 2) else t

/-- The tick at which a command or setting word due over the link at tick `t` arrives (R35): a dropped frame is sent again in the next
frame slot. -/
def Dev.linkTick (d : Dev) (t : Nat) : Nat := putOff 3 d.sys.cut t

/-- The same operation over the numbers `0 … n-1`, in ascending order. -/
def forN {σ : Type} (n : Nat) (f : Nat → σ → σ) (s : σ) : σ := (List.range n).foldl (fun t i => f i t) s

/-- The number `v` where `c` holds, else the other one. -/
def sel {α : Type} (c : Bool) (a b : α) : α := if c then a else b

/-- An operation on a device that is not held in reset; in RESET nothing acts and no master observes anything (R50). -/
def Dev.live (d : Dev) (f : Dev → Dev) : Dev := if d.devState == DS.RESET then d else f d

/-- A device operation as a command's meaning: the memories and the waiting commands stand as they are. -/
def onDev (f : Dev → Dev) (s : State) : Host.Outcome State Fault Refusal := .next { s with dev := s.dev.live f }

/-- The meaning of a command of reset and start-up, which acts in RESET also. -/
def onReset (f : Dev → Dev) (s : State) : Host.Outcome State Fault Refusal := .next { s with dev := f s.dev }

/-- A change of the whole state as a command's meaning. -/
def onState (f : State → State) (s : State) : Host.Outcome State Fault Refusal :=
  .next (if s.dev.devState == DS.RESET then s else f s)

/-- The meaning of a command of the parts that run on RT while a replay runs (R464). -/
def onPart (f : Dev → Dev) (s : State) : Host.Outcome State Fault Refusal := .next { s with dev := s.dev.live fun d => d.onRt f }

/-- The meaning of a command of the parts that take no part in a replay (R464). -/
def onLive (f : Dev → Dev) (s : State) : Host.Outcome State Fault Refusal :=
  .next { s with dev := s.dev.live fun d => if d.replaying then d else f d }

end Sys2Proof.Machine
end

