-- ==== Sys2Proof/Machine/Events.lean ====
section
/-! DEFINITION. Raising an event: the raw bit, the router's outputs, the supervisors' vectors, the dump log, the recorder's
records and triggers, and Garmal's notifications (R430, R452 to R460, R476 to R482). -/

namespace Sys2Proof.Machine

/-! ### The bus cycle -/

/-- The present cycle of the peripheral bus, counted from 1: two ticks (R12, R29). -/
def Dev.busCycle (d : Dev) : Nat := d.now / 2 + 1

/-- What the present bus cycle has changed. -/
def Dev.cycS (d : Dev) : CycSt := if d.sys.cyc.at1 = d.busCycle then d.sys.cyc else { at1 := d.busCycle }
def Dev.setCyc (d : Dev) (v : CycSt) : Dev := { d with sys := { d.sys with cyc := v } }

/-! ### The router -/

/-- Keep the last `n` entries of a list. -/
def lastN {α : Type} (n : Nat) (l : List α) : List α := l.drop (l.length - n)

/-- Whether a raising of a page is delivered to the MSI-X and EVT_OUT outputs (R477). -/
def Dev.routed (d : Dev) (page src : Nat) : Bool :=
  bitOf (d.reg (R.PG_EVT_ROUTE page)) (evtBit page src) && bitOf (d.reg (R.PG_EVT_EN page)) (evtBit page src)

/-- A message of vector `v`, unless bit 0 of the fourth word of its table entry masks it (R441). -/
def Dev.msiSend (d : Dev) (v : Nat) : Dev :=
  if bitOf (d.reg (R.PCIE_MSIX (4 * v + 3))) 0 then d
  else { d with msiSent := spPut 0 d.msiSent v (spGet 0 d.msiSent v + 1) }

/-- The message-signalled vector `v` raised: its pending bit set; a rise while the vector is unmasked sends one message
(R441, R481). -/
def Dev.msiRaise (d : Dev) (v : Nat) : Dev :=
  if bitOf (d.reg R.PCIE_PBA) v then d else (d.orReg R.PCIE_PBA (bitWord v)).msiSend v

/-- A router pulse of 16 ticks on EVT_OUT pin `n`, which never shortens one (R481). -/
def Dev.pulseR (d : Dev) (n : Nat) : Dev :=
  { d with evt := { d.evt with outR := spPut 0 d.evt.outR n (max (spGet 0 d.evt.outR n) (d.now + 16)) } }

/-- A slot pulse of `w` ticks on EVT_OUT pin `n` (R81, R481). -/
def Dev.pulseS (d : Dev) (n w : Nat) : Dev :=
  { d with evt := { d.evt with outS := spPut 0 d.evt.outS n (max (spGet 0 d.evt.outS n) (d.now + w)) } }

/-- Whether a pulse stands on EVT_OUT pin `n`, as SYS_PINOWNn.SRC selects (R481, R486, R495). -/
def Dev.evtPin (d : Dev) (n : Nat) : Bool :=
  let src := d.get (R.SYS_PINOWN n) F.SYS_PINOWN_SRC
  let r := decide (d.now < spGet 0 d.evt.outR n)
  let s := decide (d.now < spGet 0 d.evt.outS n)
  d.pinsLive && (if src = 0 then r || s else if src = 1 then r else if src = 2 then s else false)

/-- The vectors of the two supervisors, by the source's route word (R477, R481). -/
def Dev.vecS0 (d : Dev) (a : Nat) : Dev :=
  if d.flag a F.EVT_RTE_S0_EN then
    { d with evt := { d.evt with s0vec := d.evt.s0vec ||| bitWord (d.get a F.EVT_RTE_S0_VEC) } } else d
def Dev.vecS1 (d : Dev) (a : Nat) : Dev :=
  if d.flag a F.EVT_RTE_S1_EN then
    { d with evt := { d.evt with s1vec := d.evt.s1vec ||| bitWord (d.get a F.EVT_RTE_S1_VEC) } } else d

/-- The message and the pulse, by the source's route word. -/
def Dev.toMsi (d : Dev) (a : Nat) : Dev := if d.flag a F.EVT_RTE_MSI_EN then d.msiRaise (d.get a F.EVT_RTE_MSI_VEC) else d
def Dev.toOut (d : Dev) (a : Nat) : Dev := if d.flag a F.EVT_RTE_OUT_EN then d.pulseR (d.get a F.EVT_RTE_OUT_SEL) else d

/-- The router's part of a raising: supervisor vectors always; MSI-X and EVT_OUT where the page delivers it (R477, R481). -/
def Dev.deliver (d : Dev) (page src : Nat) : Dev :=
  if d.routed page src then
    (((d.vecS0 (R.EVT_RTE src)).vecS1 (R.EVT_RTE src)).toMsi (R.EVT_RTE src)).toOut (R.EVT_RTE src)
  else (d.vecS0 (R.EVT_RTE src)).vecS1 (R.EVT_RTE src)

/-- EVT_LAST with the lowest source of the cycle (R482). -/
def Dev.noteLast (d : Dev) (src : Nat) : Dev :=
  if d.evt.lastTick = d.busCycle ∧ d.get R.EVT_LAST F.EVT_LAST_SRC ≤ src then d
  else (d.put R.EVT_LAST F.EVT_LAST_SRC src).setReg R.EVT_LAST_T (BitVec.ofNat 32 d.now)

/-- The raisings of the present cycle, and the log of the fatal dump up to the entry into FATAL (R468, R476). -/
def Dev.noteRaising (d : Dev) (page src : Nat) : Dev :=
  { d with evt := { d.evt with
    lastTick := d.busCycle
    cyc := { page := page, src := src, tick := d.now } :: d.evt.cyc.filter (fun x => x.tick / 2 == d.now / 2)
    log := if d.devState == DS.FATAL then d.evt.log
      else lastN 512 (d.evt.log ++ [{ page := page, src := src, tick := d.now }]) } }

/-- A raising without the recorder's and Garmal's part: the raw bit (R476), EVT_LAST, the log, the router. A source of an
absent page never fires (R7). -/
def Dev.raise0 (d : Dev) (page src : Nat) : Dev :=
  if pagePresent d.member page then
    (((d.orReg (R.PG_EVT_RAW page) (bitWord (evtBit page src))).noteLast src).noteRaising page src).deliver page src
  else d

/-! ### The recorder's stream -/

/-- Bytes of a record (R454). -/
def recSize (r : RecRec) : Nat := 8 + 4 * r.data.length

def recBytes (l : List RecRec) : Nat := (l.map recSize).sum

/-- The order of records: tick, then type, then resource (R454). -/
def recBefore (a b : RecRec) : Bool :=
  decide (a.tick < b.tick) || (a.tick == b.tick &&
    (decide (a.ty < b.ty) || (a.ty == b.ty && decide (a.res ≤ b.res))))

/-- A record put into the stream at its place. -/
def recInsert : List RecRec → RecRec → List RecRec
  | [], r => [r]
  | x :: l, r => if recBefore x r then x :: recInsert l r else r :: x :: l

/-- Whether the recorder runs and is not frozen. -/
def Dev.recording (d : Dev) : Bool :=
  d.flag R.REC_STAT F.REC_STAT_RUN && !d.flag R.REC_STAT F.REC_STAT_FROZEN && !d.hamper.freeze

/-- Record types that a replay compares (R465). -/
def rplCompared (ty : Nat) : Bool := ty == 0x10 || ty == 0x11 || ty == 0x17 || ty == 0x18

/-- A record reproduced in a replay: kept until the recorded one is read, where its context has joined (R464, R465). -/
def Dev.reproduce (d : Dev) (r : RecRec) : Dev :=
  if d.replaying && rplCompared r.ty && d.rpl.joined.contains r.res then
    { d with rpl := { d.rpl with got := d.rpl.got ++ [r] } }
  else d

/-- Whether the FIFO has room for a record, and for the LOSS record before it where one is due (R457). -/
def Dev.recFits (d : Dev) (r : RecRec) : Bool :=
  decide (recBytes d.hamper.fifo + (recSize r + (if d.hamper.lost = 0 then 0 else 12)) ≤ 65536)

/-- A record discarded for want of room. -/
def Dev.recDrop (d : Dev) (r : RecRec) : Dev :=
  { d with hamper := { d.hamper with
      lost := d.hamper.lost + 1, lostTick := if d.hamper.lost = 0 then r.tick else d.hamper.lostTick } }

/-- A record put into the FIFO at its place. -/
def Dev.recPut (d : Dev) (r : RecRec) : Dev := { d with hamper := { d.hamper with fifo := recInsert d.hamper.fifo r } }

/-- A record put, and the LOSS record of those discarded before it, each at its place (R454). -/
def Dev.recLossPut (d : Dev) (r : RecRec) : Dev :=
  { d with hamper := { d.hamper with lost := 0, fifo := recInsert (recInsert d.hamper.fifo
      { ty := 0x02, tick := d.hamper.lostTick, data := [BitVec.ofNat 32 d.hamper.lost] }) r } }

/-- A record into the 64 KiB FIFO (R457): discarded where it does not fit; after a loss a LOSS record goes first. The
second result says that a LOSS record was written. -/
def Dev.emit0 (d : Dev) (r : RecRec) : Dev × Bool :=
  if !d.recording then (d, false)
  else if !d.recFits r then (d.recDrop r, false)
  else if d.hamper.lost = 0 then (d.recPut r, false)
  else ((d.recLossPut r).bump R.REC_STAT F.REC_STAT_LOSS_CNT, true)

/-- The TIME record of a new value of GTC bits 63:32 (R454, R455). -/
def timeRec (hi : Nat) : RecRec := { ty := 0x01, data := [BitVec.ofNat 32 hi] }

/-- Records from the front of a list that fit into `room` bytes of a block, with the TIME records between them; `hi` is GTC bits
63:32 of the record before. The second result is what remains (R453, R454). -/
def fillBlock : Nat → Nat → List RecRec → List RecRec × List RecRec
  | _, _, [] => ([], [])
  | room, hi, r :: l =>
    let h := r.tick / 2 ^ 32
    let pre := if h = hi then [] else [timeRec h]
    let need := recSize r + recBytes pre
    if need ≤ room then
      let (b, rest) := fillBlock (room - need) h l
      (pre ++ r :: b, rest)
    else ([], r :: l)

/-- GTC bits 63:32 at the first record of a list. -/
def firstHi : List RecRec → Nat
  | [] => 0
  | r :: _ => r.tick / 2 ^ 32

/-- Bytes of a block after its header (R453). -/
def blockRoom : Nat := 4080

/-- The block being filled, and the records that no longer fit. -/
def nextBlock (l : List RecRec) : List RecRec × List RecRec := fillBlock blockRoom (firstHi l) l

/-- Records cut into blocks; every block takes at least one, so `fuel` is the length of the list. -/
def cutBlocks : Nat → List RecRec → List (List RecRec)
  | 0, _ => []
  | fuel + 1, l =>
    let (b, rest) := nextBlock l
    b :: (if rest.isEmpty then [] else cutBlocks fuel rest)

/-- The place of the block, counted from the one being filled, that holds the first TRIGGER record. -/
def trigBlock : List (List RecRec) → Nat
  | [] => 0
  | b :: l => if b.any (fun r => r.ty == 0x04) then 0 else trigBlock l + 1

/-- The TRIGGER record of a source (R455). -/
def Dev.trigRec (d : Dev) (src : Nat) : RecRec :=
  { ty := 0x04, res := src, tick := d.gtc, data := [BitVec.ofNat 32 (d.get R.REC_TRIG_INFO F.REC_TRIG_INFO_MISSED)] }

/-- The block that holds the TRIGGER record, counted as WSEQ counts (R459). -/
def Dev.trigSeq (d : Dev) : Nat :=
  d.get R.REC_WSEQ F.REC_WSEQ_SEQ + trigBlock (cutBlocks d.hamper.fifo.length d.hamper.fifo)

/-- The post phase begins: its tick, the latched block and source (R459). -/
def Dev.trigPost (d : Dev) (src : Nat) : Dev :=
  let e : Dev := { d with hamper := { d.hamper with trigTick := d.busCycle } }
  (((e.putB R.REC_STAT F.REC_STAT_POST true).setReg R.REC_TRIG_SEQ (BitVec.ofNat 32 d.trigSeq)).putB R.REC_TRIG_INFO
    F.REC_TRIG_INFO_VALID true).put R.REC_TRIG_INFO F.REC_TRIG_INFO_SRC src

/-- A further trigger of the cycle of the first lowers its source (R460). -/
def Dev.trigLower (d : Dev) (src : Nat) : Dev :=
  let e := d.put R.REC_TRIG_INFO F.REC_TRIG_INFO_SRC src
  { e with hamper := { d.hamper with
      fifo := d.hamper.fifo.map fun r => if r.ty = 0x04 ∧ r.tick / 2 = d.gtc / 2 then { r with res := src } else r } }

/-- Whether a source is set in REC_TRIG_ENr (R459). -/
def Dev.trigEnabled (d : Dev) (src : Nat) : Bool := bitOf (d.reg (R.REC_TRIG_EN (src / 32))) (src % 32)

/-- A trigger that starts no post phase (R460): a further one of the first one's cycle lowers the source; any other in the post phase or
while frozen is counted, and noted for a REARM of its cycle. -/
def Dev.trigMore (d : Dev) (src : Nat) : Dev :=
  if d.flag R.REC_STAT F.REC_STAT_POST && d.hamper.trigTick == d.busCycle then
    if src < d.get R.REC_TRIG_INFO F.REC_TRIG_INFO_SRC then d.trigLower src else d
  else if d.flag R.REC_STAT F.REC_STAT_POST || d.flag R.REC_STAT F.REC_STAT_FROZEN then
    let h := d.hamper
    ({ d with hamper := { h with
        missCyc := d.busCycle, missSrc := if h.missCyc = d.busCycle then min h.missSrc src else src } } : Dev).bump
      R.REC_TRIG_INFO F.REC_TRIG_INFO_MISSED
  else d

/-- A raising of the recorder's own while a post phase runs: it triggers like any other (R477). -/
def Dev.raisePost (d : Dev) (src : Nat) : Dev :=
  if d.trigEnabled src then (d.raise0 Pg.REC src).trigMore src else d.raise0 Pg.REC src

/-- A raising that REC_LOSS stands for, where records had been lost. -/
def Dev.lossIf (d : Dev) (lost : Bool) : Dev := if lost then d.raisePost Ev.REC_LOSS else d

/-- A trigger of the recorder (R459, R460): in a running recorder outside its post phase it writes a TRIGGER record, latches
its block and starts the post phase. -/
def Dev.trigger (d : Dev) (src : Nat) : Dev :=
  if d.recording && !d.flag R.REC_STAT F.REC_STAT_POST then
    (((d.emit0 (d.trigRec src)).1.trigPost src).raisePost Ev.REC_TRIG).lossIf (d.emit0 (d.trigRec src)).2
  else d.trigMore src

/-- A raising with its recorder trigger (R477). -/
def Dev.raiseR (d : Dev) (page src : Nat) : Dev :=
  if pagePresent d.member page then
    if d.trigEnabled src then (d.raise0 page src).trigger src else d.raise0 page src
  else d

/-- A record, with REC_LOSS where records had been discarded before it (R457). -/
def Dev.emit (d : Dev) (r : RecRec) : Dev :=
  (if (d.emit0 r).2 then (d.emit0 r).1.raiseR Pg.REC Ev.REC_LOSS else (d.emit0 r).1).reproduce r

/-- A record of the protection class (R452). -/
def Dev.emitProt (d : Dev) (r : RecRec) : Dev :=
  if d.flag R.REC_CFG F.REC_CFG_CLS_PROT then d.emit r else d

/-- A record of the present tick in the place of the one of its type and resource. -/
def Dev.recAmend (d : Dev) (n : RecRec) : Dev :=
  { d with hamper := { d.hamper with fifo := d.hamper.fifo.map fun (r : RecRec) =>
      if r.ty = n.ty ∧ r.res = n.res ∧ r.tick = n.tick then n else r } }

/-! ### Mailbox sends and notifications -/

/-- The side of a channel a master is bound to: 1 for A, 2 for B, 0 for neither (R410, R432). -/
def Dev.mbxSide (d : Dev) (c mid : Nat) : Nat :=
  if !d.flag (R.MBX_BIND c) F.MBX_BIND_VALID then 0
  else if d.get (R.MBX_BIND c) F.MBX_BIND_MID_A = mid then 1
  else if d.get (R.MBX_BIND c) F.MBX_BIND_MID_B = mid then 2 else 0

/-- Words in the queue a side sends into. -/
def MbxSt.out (q : MbxSt) (side : Nat) : List Word := if side = 1 then q.ab else q.ba

/-- Words in the queue a side receives from. -/
def MbxSt.inq (q : MbxSt) (side : Nat) : List Word := if side = 1 then q.ba else q.ab

/-- A word appended to a side's outbound queue, its SENT count advanced. -/
def MbxSt.push (q : MbxSt) (side : Nat) (w : Word) : MbxSt :=
  if side = 1 then { q with ab := q.ab ++ [w], sentA := (q.sentA + 1) % 65536 }
  else { q with ba := q.ba ++ [w], sentB := (q.sentB + 1) % 65536 }

/-- The MBX record of a word sent on a channel with REC = 1 (R423, R452). -/
def Dev.mbxRecord (d : Dev) (c side : Nat) (w : Word) : Dev :=
  if d.flag (R.MBX_BIND c) F.MBX_BIND_REC && d.flag R.REC_CFG F.REC_CFG_CLS_MBX then
    d.emit { ty := 0x16, res := c + (if side = 2 then 0x100 else 0), tick := d.gtc, data := [w] } else d

/-- A channel with a side's QFULL set. -/
def MbxSt.full (q : MbxSt) (side : Nat) : MbxSt := if side = 1 then { q with qfullA := true } else { q with qfullB := true }

/-- A send by one side of a channel (R411): appended, or discarded where the queue holds eight words; recorded first. -/
def Dev.mbxSend (d : Dev) (c side : Nat) (w : Word) : Dev :=
  let q := d.mbxS c
  let e := d.mbxRecord c side w
  if (q.out side).length ≥ 8 then
    let e := e.setCyc { e.cycS with full := (c, side) :: e.cycS.full }
    ((e.setMbx c (q.full side)).orReg R.MBX_FULLF (bitWord c)).raiseR Pg.MBX Ev.QUEUE_FULL
  else
    let e := e.setCyc { e.cycS with sent := (c, side) :: e.cycS.sent }
    if (q.out side).isEmpty then (e.setMbx c (q.push side w)).raiseR Pg.MBX Ev.MBX_RX
    else e.setMbx c (q.push side w)

/-- Several words sent in consecutive writes. -/
def Dev.mbxSendAll (d : Dev) (c side : Nat) (ws : List Word) : Dev := ws.foldl (fun e w => e.mbxSend c side w) d

/-- A message header (R424). -/
def msgHeader (code tag ty len status : Nat) : Word :=
  BitVec.ofNat 32 (code % 256 * 2 ^ 24 + tag % 256 * 2 ^ 16 + ty % 4 * 2 ^ 14 + len % 8 * 2 ^ 8 + status % 256)

/-- A notification on a channel where it is enabled (R430): three words where three are free, else dropped with
NOTIFY_LOST. `arg0` comes without the loss bit. While a response waits for space the free words are the response's, and the notification
is dropped (log entry 20, DEDUCED). -/
def Dev.notifyOn (d : Dev) (src : Nat) (arg0 : Nat) (c : Nat) : Dev :=
  let g := d.garS c
  if !g.notify then d
  else if 8 - ((d.mbxS c).out 1).length < 3 ∨ g.held ≠ [] then
    (d.setGar c { g with lost := true }).raiseR Pg.MBX Ev.NOTIFY_LOST
  else
    (d.setGar c { g with tag := (g.tag + 1) % 256, lost := false }).mbxSendAll c 1 [msgHeader src g.tag 2 2 0,
      BitVec.ofNat 32 (arg0 + (if g.lost then 2 ^ 31 else 0)),
      BitVec.ofNat 32 d.gtc]

/-- Whether the supervisor that posts on a channel runs (R374, R430). -/
def Dev.posts (d : Dev) (c : Nat) : Bool := !d.flag R.RST_DOM (if c < 2 then F.RST_DOM_S0_HELD else F.RST_DOM_S1_HELD)

/-- The channels on which Garmal notifies a source: S0's 0 and 1, S1's 2 and 3 (R430). -/
def notifyChannels (src : Nat) : List Nat :=
  if src = 0 ∨ (193 ≤ src ∧ src ≤ 200) ∨ (218 ≤ src ∧ src ≤ 221) then [0, 1]
  else if 201 ≤ src ∧ src ≤ 209 then [2, 3] else []

/-- A raising, whole (R476, R477), with the machine or resource its notification carries in bits 7:0 and the state code in
bits 11:8 (R430). -/
def Dev.raiseN (d : Dev) (page src arg0 : Nat) : Dev :=
  if pagePresent d.member page then ((notifyChannels src).filter d.posts).foldl (fun e c => e.notifyOn src arg0 c) (d.raiseR page src)
  else d

/-- A raising whose notification, if any, names no resource. -/
def Dev.raise (d : Dev) (page src : Nat) : Dev := d.raiseN page src 0xFF

/-- A raising where a condition holds. -/
def Dev.raiseIf (d : Dev) (c : Bool) (page src : Nat) : Dev := if c then d.raise page src else d

/-- A protection record and a flag raised together is a common shape: raise where `c` holds, with the resource. -/
def Dev.raiseNIf (d : Dev) (c : Bool) (page src arg0 : Nat) : Dev := if c then d.raiseN page src arg0 else d

end Sys2Proof.Machine
end

