-- ==== Sys2Proof/Machine/Access.lean ====
section
/-! DEFINITION. Who may write what: absent units (R4 to R12), access types (R24, R25), key windows (R28, R29), claims (R27,
R514), the rights of masters (R408), and the one generic register write that every plain register goes through. -/

namespace Sys2Proof.Machine

def F.PG_STAT_WR_DENIED : RField := ⟨31, 31⟩
def F.PG_CTRL_EN : RField := ⟨0, 0⟩
def F.PG_CTRL_FREEZE_ON_DEBUG : RField := ⟨1, 1⟩
def F.PG_CTRL_OWNER_MID : RField := ⟨7, 4⟩

/-- Whether a page's block is enabled (R27). -/
def Dev.pageEn (d : Dev) (page : Nat) : Bool := d.flag (R.PG_CTRL page) F.PG_CTRL_EN

/-- Whether a page's clocked state stands still: the device is halted for debug and the page freezes (R27). -/
def Dev.frozen (d : Dev) (page : Nat) : Bool :=
  d.flag R.DBG_CTRL F.DBG_CTRL_HALTED && d.flag (R.PG_CTRL page) F.PG_CTRL_FREEZE_ON_DEBUG

/-- What a page's clocked state does: nothing while it stands still (R27). -/
def Dev.clocked (d : Dev) (page : Nat) (f : Dev → Dev) : Dev := if d.frozen page then d else f d

def State.clocked (s : State) (page : Nat) (f : State → State) : State := if s.dev.frozen page then s else f s

/-- What a supervisor pair does: nothing while it is held in reset (R485). -/
def Dev.byS0 (d : Dev) (f : Dev → Dev) : Dev := if d.flag R.RST_DOM F.RST_DOM_S0_HELD then d else f d
def Dev.byS1 (d : Dev) (f : Dev → Dev) : Dev := if d.flag R.RST_DOM F.RST_DOM_S1_HELD then d else f d

/-- A refused write shows in its page (R25). -/
def Dev.deny (d : Dev) (page : Nat) : Dev := d.putB (R.PG_STAT page) F.PG_STAT_WR_DENIED true

def Dev.denyIf (d : Dev) (c : Bool) (page : Nat) : Dev := if c then d.deny page else d

/-- A write to an absent unit is kept with those of the same cycle (R12). -/
def Dev.noteAbsent (d : Dev) (mid : Nat) : Dev :=
  let q := d.sys.abs
  { d with sys := { d.sys with abs :=
      if q.cyc = d.busCycle then { q with mid := min mid q.mid, n := q.n + 1 } else { cyc := d.busCycle, mid := mid, n := 1 } } }

/-- Whether a master's write to an absent unit gives LAST_PAGE: of several in one cycle, the lowest MID's (R12). -/
def Dev.absentLeads (d : Dev) (mid : Nat) : Bool := d.sys.abs.cyc != d.busCycle || decide (mid ≤ d.sys.abs.mid)

/-- A write to an absent unit (R6, R11, R12). -/
def Dev.absentWrite (d : Dev) (mid page : Nat) : Dev :=
  let e := ((d.noteAbsent mid).bump R.SYS_ABSENT_CNT F.SYS_ABSENT_CNT_COUNT).putB
    R.SYS_ABSENT_CNT F.SYS_ABSENT_CNT_ABSENT_WR true
  if d.absentLeads mid then e.put R.SYS_ABSENT_CNT F.SYS_ABSENT_CNT_LAST_PAGE page else e

/-- A write of 1 to ABSENT_WR clears the register (R11); the absent writes of the same cycle are counted after the clear (R12). -/
def Dev.absentClear (d : Dev) : Dev :=
  if d.sys.abs.cyc = d.busCycle then
    d.put R.SYS_ABSENT_CNT F.SYS_ABSENT_CNT_COUNT (min d.sys.abs.n 0xFFFF)
  else d.setReg R.SYS_ABSENT_CNT 0

/-! ### Key windows (R28, R29) -/

/-- 64 peripheral-bus cycles, and 65,536 of them, in ticks. -/
def keySeqTicks : Nat := 128
def keyWinTicks : Nat := 131072

/-- The pending key sequence of a page, unless its 64 cycles have passed. -/
def Dev.keyPend (d : Dev) (page : Nat) : Option Nat :=
  match (d.keyS page).pend with
  | some (m, t) => if d.now ≤ t + keySeqTicks then some m else none
  | none => none

/-- The opener of a page's key window, while it is open. -/
def Dev.keyOpener (d : Dev) (page : Nat) : Option Nat :=
  match (d.keyS page).win with
  | some (m, t) => if d.now < t + keyWinTicks then some m else none
  | none => none

def Dev.keyOpenFor (d : Dev) (page mid : Nat) : Bool := d.keyOpener page == some mid

def Dev.keyErr (d : Dev) (page : Nat) (b : Bool) : Dev := d.putB (R.PG_LOCK page) F.PG_LOCK_KEY_ERR b

/-- A pending sequence broken (R29). -/
def Dev.keyBreak (d : Dev) (page : Nat) : Dev :=
  (d.setKey page { d.keyS page with pend := none }).keyErr page true

/-- A first word accepted: the sequence is pending for its writer. -/
def Dev.keyBegin (d : Dev) (mid page : Nat) : Dev := d.setKey page { d.keyS page with pend := some (mid, d.now) }

/-- A write of 0x5EED to PG_LOCK (R29). -/
def Dev.keyFirst (d : Dev) (mid page : Nat) : Dev :=
  match d.keyPend page with
  | some _ => d.keyBreak page
  | none =>
    match d.keyOpener page with
    | some o => if o = mid then d.keyBegin mid page else d.keyErr page true
    | none => d.keyBegin mid page

/-- A write of 0xC10D to PG_LOCK (R29). -/
def Dev.keySecond (d : Dev) (mid page : Nat) : Dev :=
  if d.keyPend page = some mid then
    (d.setKey page { pend := none, win := some (mid, d.now) }).keyErr page false
  else d.keyBreak page

/-- A write of 0x0000 to PG_LOCK (R29). -/
def Dev.keyClose (d : Dev) (mid page : Nat) : Dev :=
  match d.keyPend page with
  | some p =>
    if p = mid then
      d.setKey page (if d.keyOpener page = some mid then {} else { d.keyS page with pend := none })
    else d.keyBreak page
  | none =>
    match d.keyOpener page with
    | some o => if o = mid then d.setKey page { d.keyS page with win := none } else d.keyErr page true
    | none => d

/-- Any write to PG_LOCK, by its key word (R29). -/
def Dev.keyWrite (d : Dev) (mid page : Nat) (w : Word) : Dev :=
  let k := w.toNat % 65536
  if k = 0x5EED then d.keyFirst mid page
  else if k = 0xC10D then d.keySecond mid page
  else if k = 0 then d.keyClose mid page
  else d.keyBreak page

/-! ### Rights of masters (R408) -/

/-- Blocks that R32 assigns to Channel P. -/
def chanP : Block → Bool
  | .tlB | .tlsB | .trkB | .adaB | .accB | .mmxB | .cmpB | .posB | .emuB | .excB | .lecB | .leB | .ctxB
  | .pwtB | .pwaB | .pwgB | .gdtB | .gdaB => true
  | _ => false

/-- The pages open to every on-chip and host master (R408). -/
def sharedPage : Block → Bool
  | .mbxB | .lckB | .winB => true
  | _ => false

/-- Whether a master has S0's rights in a block (R408). -/
def Dev.asS0 (d : Dev) (mid : Nat) (b : Block) : Bool :=
  if mid = Mid.S0 then true
  else if mid = Mid.PCIE then sharedPage b || d.flag R.MBX_RIGHTS F.MBX_RIGHTS_HOST_WR
  else if mid = Mid.SPI then sharedPage b || d.flag R.MBX_RIGHTS F.MBX_RIGHTS_SPI_WR
  else if mid = Mid.DEBUG then
    d.flag R.MBX_RIGHTS F.MBX_RIGHTS_DBG_WR && d.devState != DS.RUN && d.devState != DS.OVERCAST
  else false

/-- Whether a master may claim pages and units of a block (R408, R514). -/
def Dev.mayClaim (d : Dev) (mid : Nat) (b : Block) : Bool := d.asS0 mid b || (mid == Mid.S1 && !chanP b)

/-- Whether a master may write PG_LOCK of a page (R29, R408). -/
def Dev.mayKey (d : Dev) (mid : Nat) (b : Block) : Bool := d.asS0 mid b || mid == Mid.S1

/-! ### Ownership (R27, R514) -/

/-- Who holds what a register belongs to: its page, another page (gate-drive groups), or a unit with its claim register. -/
inductive Own where
  | page (p : Nat)
  | unit (claim page : Nat)
  deriving DecidableEq, Repr

/-- What a block-specific register belongs to. -/
def ownOf (b : Block) (i page off : Nat) : Own :=
  match b with
  | .tlsB => .unit (R.TL_SLOT_CLAIM ((256 * i + (off - 0x40) / 12) / 32)) page
  | .trkB => .unit (R.TRK_CLAIM ((off - 0x40) / 0x40)) page
  | .adaB => if 0x100 ≤ off ∧ off < 0x400 then .unit (R.ADA_LCLAIM ((off - 0x100) / 0x10)) page else .page page
  | .accB =>
    if 0x900 ≤ off then .unit (R.ACC_CLAIM (64 * i + (off - 0x900) / 4)) page
    else if 0x100 ≤ off then .unit (R.ACC_CLAIM (64 * i + (off - 0x100) / 0x20)) page else .page page
  | .mmxB => if 0x100 ≤ off then .unit (R.MMX_CLAIM (64 * i + (off - 0x100) / 0x20)) page else .page page
  | .cmpB => if 0x100 ≤ off then .unit (R.CMP_CLAIM (36 * i + (off - 0x100) / 0x20)) page else .page page
  | .excB => .unit (R.EXC_CLAIM ((off - 0x40) / 0x10)) page
  | .emuB => .unit (R.EMU_CLAIM ((off - 0x40) / 0x10)) page
  | .ctxB => .unit (R.LEC_CTX_CLAIM (8 * i + (off - 0x40) / 0x1C0)) page
  | .sysB => if 0x100 ≤ off then .unit (R.SYS_PINOWN ((off - 0x100) / 4)) page else .page page
  | .gdtB => if 0x100 ≤ off then .page (Pg.PWT ((off - 0x100) / 0x20)) else .page page
  | .gdaB =>
    if 0x200 ≤ off then .page (Pg.PWT (12 + (off - 0x200) / 4))
    else if 0x100 ≤ off then .page (Pg.PWT (12 + (off - 0x100) / 0x20)) else .page page
  | _ => .page page

/-- The inputs a logical slice's sequence names: its first LEN entries, idle ones among them (R90, R93). -/
def Dev.seqEntries (d : Dev) (l : Nat) : List Nat :=
  let w := d.reg (R.ADA_SEQ l)
  [getF w F.ADA_SEQ_IN0, getF w F.ADA_SEQ_IN1, getF w F.ADA_SEQ_IN2, getF w F.ADA_SEQ_IN3].take (getF w F.ADA_SEQ_LEN + 1)

/-- The logical slice whose sequence names an input (R93), other than slice `skip`. -/
def Dev.inputHolder (d : Dev) (skip i : Nat) : Option Nat :=
  (List.range (nSlices d.member)).find? fun l => l != skip && (d.seqEntries l).contains i

/-- What a block-specific register belongs to now: ADA_OW_CFG belongs to the slice that names its input (R92). -/
def Dev.ownAt (d : Dev) (b : Block) (i page off : Nat) : Own :=
  if b = .adaB ∧ 0x400 ≤ off ∧ off < 0x580 then
    match d.inputHolder 0xFF ((off - 0x400) / 4) with
    | some l => .unit (R.ADA_LCLAIM l) page
    | none => .page page
  else ownOf b i page off

/-- The master that holds a page; 0xF where none does. -/
def Dev.pageOwner (d : Dev) (page : Nat) : Nat := d.get (R.PG_CTRL page) F.PG_CTRL_OWNER_MID

/-- OWNER and RESULT lie alike in every claim register (R83, R113, R136, R137, R160, R186 to R188, R218, R495). -/
def F.CLAIM_OWNER : RField := ⟨3, 0⟩
def F.CLAIM_RESULT : RField := ⟨17, 16⟩

/-- Whether ownership admits a master's write (R27, R514). -/
def Dev.ownOk (d : Dev) (mid : Nat) : Own → Bool
  | .page p => d.pageOwner p == 0xF || d.pageOwner p == mid
  | .unit c p => d.get c F.CLAIM_OWNER == mid || (d.get c F.CLAIM_OWNER == 0xF && d.pageOwner p == mid)

/-- Whether the master itself holds the unit or the page, as S1 must (R408). -/
def Dev.holds (d : Dev) (mid : Nat) : Own → Bool
  | .page p => d.pageOwner p == mid
  | .unit c p => d.get c F.CLAIM_OWNER == mid || (d.get c F.CLAIM_OWNER == 0xF && d.pageOwner p == mid)

/-- Claim registers of the units of a page. -/
def unitClaims (m : Member) (b : Block) (i : Nat) : List Nat :=
  match b with
  | .tlsB => (List.range 8).map fun k => R.TL_SLOT_CLAIM (8 * i + k)
  | .trkB => (List.range 24).map R.TRK_CLAIM
  | .adaB => (List.range (nSlices m)).map R.ADA_LCLAIM
  | .accB => (List.range 64).map fun k => R.ACC_CLAIM (64 * i + k)
  | .mmxB => (List.range (min 64 (nMmx m - 64 * i))).map fun k => R.MMX_CLAIM (64 * i + k)
  | .cmpB => (List.range (min 36 (nCmp m - 36 * i))).map fun k => R.CMP_CLAIM (36 * i + k)
  | .excB => (List.range 4).map R.EXC_CLAIM
  | .emuB => (List.range 4).map R.EMU_CLAIM
  | .ctxB => (List.range 8).map fun k => R.LEC_CTX_CLAIM (8 * i + k)
  | .sysB => (List.range 4).map R.SYS_PINOWN
  | _ => []

/-- The page a claim register's unit belongs to: a slot block's TLS page (R83), a context's record page, else the page the
claim register stands in (log entry 10, DEDUCED). -/
def claimPage (b : Block) (page off : Nat) : Nat :=
  match b with
  | .tlB => Pg.TLS ((off - 0x80) / 4 / 8)
  | .lecB => Pg.CTX ((off - 0x100) / 4 / 8)
  | _ => page

/-- A write to PG_CTRL.OWNER_MID (R27, R514): the claim or release of a whole page. -/
def Dev.pageClaim (d : Dev) (mid page v : Nat) : Dev :=
  match pageInfo page with
  | none => d
  | some (b, i) =>
    let o := d.pageOwner page
    if !d.mayClaim mid b || (v != mid && v != 0xF) then d.deny page
    else if v = o then d
    else if !d.inConfigure || (o != 0xF && o != mid) then d.deny page
    else if v = 0xF then d.put (R.PG_CTRL page) F.PG_CTRL_OWNER_MID 0xF
    else if (unitClaims d.member b i).any (fun c => d.get c F.CLAIM_OWNER != 0xF && d.get c F.CLAIM_OWNER != mid)
    then d.deny page
    else d.put (R.PG_CTRL page) F.PG_CTRL_OWNER_MID mid

/-- A write to the OWNER field of a claim register at an address (R83, R514). -/
def Dev.unitClaim (d : Dev) (mid a v : Nat) : Dev :=
  let page := pageOf a
  let off := offOf a
  match pageInfo page with
  | none => d
  | some (b, _) =>
    let o := d.get a F.CLAIM_OWNER
    let up := claimPage b page off
    let po := d.pageOwner up
    if !d.mayClaim mid b || (v != mid && v != 0xF) then d.deny page
    else if v = o then d
    else if !d.inConfigure then d.deny page
    else if o != 0xF && o != mid then d.put a F.CLAIM_RESULT 2
    else if v = 0xF then (d.put a F.CLAIM_OWNER 0xF).put a F.CLAIM_RESULT 0
    else if po != 0xF && po != mid then d.put a F.CLAIM_RESULT 2
    else (d.put a F.CLAIM_OWNER mid).put a F.CLAIM_RESULT 1

/-! ### The generic register write (R25) -/

/-- Bits that only Channel M masters clear: SHD_STAT.ERR_CNT (R186) and TMON_STAT.XCHK_CNT (R387), with DIS_M_LATE of
SAFE_OUT (R386). -/
def chanMOnly (b : Block) (off : Nat) (f : RField) : Bool :=
  match b with
  | .posB => decide (off = 0xDC)
  | .adbB => decide (0x100 ≤ off) && decide (off % 0x10 = 0xC)
  | .tmonB => decide (off = 0x40)
  | .safeB => decide (off = 0x68) && decide (f.lo = 31)
  | _ => false

/-- Whether a field accepts a master's write now, whatever the value (R24, R25, R27, R408). -/
def Dev.fieldOk (d : Dev) (mid : Nat) (b : Block) (i page off : Nat) (fd : FieldDef) : Bool :=
  let own := d.ownAt b i page off
  let s0 := d.asS0 mid b && d.ownOk mid own
  let s1 := mid == Mid.S1 && (d.holds mid own || sharedPage b)
  if chanMOnly b off fd.f then mid == Mid.S1
  else
    match fd.acc with
    | .ro => false
    | .rwm => mid == Mid.S1
    | .rwk => (d.asS0 mid b || mid == Mid.S1) && d.keyOpenFor page mid
    | .rwc => (s0 || s1) && d.inConfigure
    | _ => s0 || s1

/-- What a field becomes when a write it accepts carries word `w` (R24). -/
def fieldNext (fd : FieldDef) (cur w : Word) : Word :=
  match fd.acc with
  | .ro | .wo => cur
  | .w1c => cur &&& ~~~ (w &&& fieldMask fd.f)
  | .w1n => if bitOf w fd.f.lo then setF cur fd.f 0 else cur
  | .w1s => cur ||| (w &&& fieldMask fd.f)
  | _ => setF cur fd.f (getF w fd.f)

/-- Whether a write carries something for a field: a change for a writable field, a 1 for the others (log entry 8, DEDUCED). -/
def fieldTries (fd : FieldDef) (cur w : Word) : Bool :=
  match fd.acc with
  | .ro => false
  | .wo | .w1c | .w1s => getF w fd.f != 0
  | .w1n => bitOf w fd.f.lo
  | _ => getF w fd.f != getF cur fd.f

/-- The word a register holds after the fields have taken what they accept. -/
def applyFields (ok : FieldDef → Bool) (w : Word) : List FieldDef → Word → Word
  | [], cur => cur
  | fd :: r, cur => applyFields ok w r (if ok fd then fieldNext fd cur w else cur)

/-- Whether a write counts as refused (R25): no field accepts it, or a field that does not would have changed. -/
def writeRefused (ok : FieldDef → Bool) (cur w : Word) (l : List FieldDef) : Bool :=
  !(l.any ok) || l.any (fun fd => fd.acc != .ro && !ok fd && fieldTries fd cur w)

/-- The write of a register with fields `l` at an address. -/
def Dev.writeFields (d : Dev) (mid : Nat) (b : Block) (i page off : Nat) (l : List FieldDef) (w : Word) : Dev :=
  let a := pageBase page + off
  let cur := d.reg a
  let ok := d.fieldOk mid b i page off
  (d.setReg a (applyFields ok w l cur)).denyIf (writeRefused ok cur w l) page

/-- Whether any field accepts the write. -/
def Dev.writeTaken (d : Dev) (mid : Nat) (b : Block) (i page off : Nat) : Bool :=
  match regAt b off with
  | some (r, _, _) => r.flds.any (d.fieldOk mid b i page off)
  | none => false

/-- The bits of a present page's event sources that belong to an absent unit (R7, R10): DEGRADED_B without Ring B. -/
def absentSources (m : Member) : Block → Word
  | .sfxB => if hasRingB m then 0 else bitWord (evtBit Pg.SFX Ev.DEGRADED_B)
  | _ => 0

/-- Page-level fields of the header (R27): written by the page's owner, or by any master with the right while unowned. -/
def Dev.pageFieldOk (d : Dev) (mid : Nat) (b : Block) (page : Nat) : Bool :=
  (d.asS0 mid b && d.ownOk mid (.page page)) || (mid == Mid.S1 && (d.holds mid (.page page) || sharedPage b))

/-- The bits of a page's PG_EVT_RAW that only Channel M masters clear: SHD_ERR (R182). -/
def chanMEvt (page : Nat) : Block → Word
  | .posB => bitWord (evtBit page Ev.SHD_ERR)
  | _ => 0

/-- The bits of PG_EVT_CLR that a master may write (R27, R182). -/
def Dev.evtClrMask (d : Dev) (mid : Nat) (b : Block) (page : Nat) : Word :=
  (if d.pageFieldOk mid b page then ~~~ chanMEvt page b else 0) ||| (if mid = Mid.S1 then chanMEvt page b else 0)

/-- A write of PG_EVT_CLR (R476): a bit raised in the same cycle stays set. -/
def Dev.evtClr (d : Dev) (mid : Nat) (b : Block) (page : Nat) (w : Word) : Dev :=
  let may := d.evtClrMask mid b page
  let kept := (d.evt.cyc.filter fun r => r.page == page && r.tick / 2 == d.now / 2).foldl
    (fun (m : Word) r => m ||| bitWord (evtBit page r.src)) 0
  (d.clrReg (R.PG_EVT_RAW page) (w &&& may &&& ~~~ kept)).denyIf (w &&& ~~~ may != 0) page

/-- A write of PG_CTRL (R26, R27). -/
def Dev.ctrlWrite (d : Dev) (mid : Nat) (b : Block) (page : Nat) (w : Word) : Dev :=
  let ok := d.pageFieldOk mid b page
  let a := R.PG_CTRL page
  let en := getF w F.PG_CTRL_EN
  let fr := getF w F.PG_CTRL_FREEZE_ON_DEBUG
  let enNo := !ok && en != d.get a F.PG_CTRL_EN
  let frNo := !(ok && d.inConfigure) && fr != d.get a F.PG_CTRL_FREEZE_ON_DEBUG
  let d := d.denyIf (enNo || frNo) page
  let d := if ok then d.put a F.PG_CTRL_EN en else d
  let d := if ok && d.inConfigure then d.put a F.PG_CTRL_FREEZE_ON_DEBUG fr else d
  d.pageClaim mid page (getF w F.PG_CTRL_OWNER_MID)

/-- A write of a header register of a present page (R25 to R29). -/
def Dev.headerWrite (d : Dev) (mid : Nat) (b : Block) (page off : Nat) (w : Word) : Dev :=
  if off = 0x08 then d.ctrlWrite mid b page w
  else if off = 0x0C then
    if d.pageFieldOk mid b page then
      if bitOf w 31 then d.putB (R.PG_STAT page) F.PG_STAT_WR_DENIED false else d
    else d.denyIf (bitOf w 31) page
  else if off = 0x14 then
    if d.pageFieldOk mid b page then d.setReg (R.PG_EVT_EN page) (w &&& ~~~ absentSources d.member b) else d.deny page
  else if off = 0x18 then d.evtClr mid b page w
  else if off = 0x1C then
    if d.pageFieldOk mid b page && d.inConfigure then d.setReg (R.PG_EVT_ROUTE page) w else d.deny page
  else if off = 0x20 then if d.mayKey mid b then d.keyWrite mid page w else d.deny page
  else if off < 0x28 then d.deny page
  else d

/-- The generic write of a register word: absent units, reserved offsets, header, fields. -/
def Dev.plainWrite (d : Dev) (mid a : Nat) (w : Word) : Dev :=
  let page := pageOf a
  let off := offOf a
  match pageInfo page with
  | none => d
  | some (b, i) =>
    if !blockPresent d.member b i || absentReg d.member b i off then d.absentWrite mid page
    else if off < 0x40 then d.headerWrite mid b page off w
    else
      match regAt b off with
      | none => d
      | some (r, _, _) =>
        let ab := absentBits d.member b i off
        let d := if w &&& ab = 0 then d else d.absentWrite mid page
        d.writeFields mid b i page off r.flds (w &&& ~~~ ab)

/-- Whether a write to the register at an address is accepted by any of its fields (R25). -/
def Dev.takenAt (d : Dev) (mid a : Nat) : Bool :=
  let page := pageOf a
  let off := offOf a
  match pageInfo page with
  | none => false
  | some (b, i) =>
    blockPresent d.member b i && !absentReg d.member b i off && decide (0x40 ≤ off) && d.writeTaken mid b i page off

/-- A plain write of a register that holds a BF20 mantissa: it is kept sign-extended (R15). -/
def Dev.mantWrite (d : Dev) (mid a : Nat) (w : Word) : Dev :=
  if d.takenAt mid a then d.plainWrite mid a (wordOfInt (sext 20 w.toNat)) else d.plainWrite mid a w

/-! ### Device state (R50 to R53, R492) -/

/-- Rank of a target state where two transitions meet (R53). -/
def stateRank (s : Nat) : Nat := if s = DS.FATAL then 3 else if s = DS.SAFE_HOLD then 2 else if s = DS.OVERCAST then 1 else 0

/-- SYS_STATE written as one word (R52, R53). -/
def Dev.writeState (d : Dev) (st prev cause : Nat) (valid : Bool) : Dev :=
  let w := d.reg R.SYS_STATE
  let w := setF (setF w F.SYS_STATE_STATE st) F.SYS_STATE_PREV prev
  d.setReg R.SYS_STATE (setF (setF w F.SYS_STATE_CAUSE cause) F.SYS_STATE_CAUSE_VALID (b2n valid))

/-- Every key window closed; a page left with nothing is not listed. -/
def dropWindows : Sparse KeySt → Sparse KeySt
  | [] => []
  | (p, k) :: r => match k.pend with
    | none => dropWindows r
    | some x => (p, { pend := some x, win := none }) :: dropWindows r

/-- What every change of the device state brings with it: key windows close (R29); leaving CONFIGURE locks the bindings and
the rights (R409, R410); leaving COMMISSION for READY sets CLOCKED on every page (R28); the STATE record; STATE_CHANGE. -/
def Dev.afterState (d : Dev) (old new cause : Nat) : Dev :=
  let d := { d with keys := dropWindows d.keys }
  let d := if old = DS.CONFIGURE ∧ new ≠ DS.CONFIGURE then
      forN 32 (fun c e => e.putB (R.MBX_BIND c) F.MBX_BIND_LOCKED true) (d.putB R.MBX_RIGHTS F.MBX_RIGHTS_LOCKED true)
    else d
  let d := if old = DS.COMMISSION ∧ new = DS.READY then
      forN 0x200 (fun p e => if pagePresent e.member p then e.putB (R.PG_LOCK p) F.PG_LOCK_CLOCKED true else e) d
    else d
  let w : Word := BitVec.ofNat 32 (cause * 2 ^ 8 + old * 16 + new)
  let d := d.emitProt { ty := 0x23, res := 0xFFFF, tick := d.now, data := [w] }
  d.raiseN Pg.SYS Ev.STATE_CHANGE (0xFF + new * 2 ^ 8)

/-- A transition of the device state (R53): of two in one tick the one of higher rank stands, with the state before both as
PREV; two causes of one transition leave the lower source. -/
def Dev.setState (d : Dev) (new cause : Nat) (valid : Bool) : Dev :=
  let old := d.devState
  if d.trans.at1 = d.now + 1 then
    if stateRank new > stateRank old then
      (d.writeState new d.trans.fromSt cause valid).afterState d.trans.fromSt new cause
    else if new = old then
      if valid && decide (cause < d.get R.SYS_STATE F.SYS_STATE_CAUSE) then d.put R.SYS_STATE F.SYS_STATE_CAUSE cause else d
    else if stateRank new = 0 ∧ stateRank old = 0 then
      (({ d with trans := { at1 := d.now + 1, fromSt := old } }).writeState new old cause valid).afterState old new cause
    else d
  else
    (({ d with trans := { at1 := d.now + 1, fromSt := old } }).writeState new old cause valid).afterState old new cause

end Sys2Proof.Machine
end

