-- ==== Sys2Proof/Machine/Timeline.lean ====
section
/-! DEFINITION. Sundial (chapter 02): the timebase and its discipline (R55 to R58), the angle tracks (R59 to R70), the slots
(R71 to R83), arrival against timeout (R84, R85). -/

namespace Sys2Proof.Machine

/-! ### Timebase and vehicle time -/

/-- ZERO_SLACK with its resource (R84, R85): of several cases in one tick the lowest kind, then resource, stands. -/
def Dev.zeroSlack (d : Dev) (kind res : Nat) : Dev :=
  let d := d.bump R.TL_ZS_INFO F.TL_ZS_INFO_COUNT
  let k0 := d.get R.TL_ZS_INFO F.TL_ZS_INFO_KIND
  let r0 := d.get R.TL_ZS_INFO F.TL_ZS_INFO_RESOURCE
  let keep := d.sync.zsTick == d.gtc + 1 && (decide (k0 < kind) || (k0 == kind && decide (r0 ≤ res)))
  let d := if keep then d else (d.put R.TL_ZS_INFO F.TL_ZS_INFO_KIND kind).put R.TL_ZS_INFO F.TL_ZS_INFO_RESOURCE res
  ({ d with sync := { d.sync with zsTick := d.gtc + 1 } } : Dev).raise Pg.TL Ev.ZERO_SLACK

/-- Vehicle time in ticks (R57): GTC plus the signed 64-bit offset. -/
def Dev.vehicleTime (d : Dev) : Int :=
  (d.gtc : Int) + sext 64 ((d.reg R.TL_VT_OFS_HI).toNat * 2 ^ 32 + (d.reg R.TL_VT_OFS_LO).toNat)

/-- The rate limits of R56. -/
def clampRate (x : Int) : Int := clampI (-200000) 200000 x

/-- Who may write TL_RATE and TL_VT_OFS (R58, R86). -/
def Dev.tlOk (d : Dev) (mid : Nat) : Bool :=
  if d.flag R.TL_CTRL F.TL_CTRL_SYNC_EN then mid == Mid.S0
  else (d.asS0 mid .tlB && d.ownOk mid (.page Pg.TL)) || (mid == Mid.S1 && d.holds mid (.page Pg.TL))

/-- TL_RATE_WRITE (R56, R58): a rate outside the limits is clamped. -/
def Dev.tlRateWrite (d : Dev) (mid : Nat) (w : Word) : Dev :=
  if d.tlOk mid then d.setReg R.TL_RATE (wordOfInt (clampRate (sext 32 w.toNat))) else d.deny Pg.TL

/-- A write of TL_VT_OFS_LO waits for its high word (R86). -/
def Dev.vtOfsLoWrite (d : Dev) (mid : Nat) (w : Word) : Dev :=
  if d.tlOk mid then { d with sync := { d.sync with ofsLo := w } } else d.deny Pg.TL

/-- The vehicle-time offset written as a whole. -/
def Dev.setVtOfs (d : Dev) (lo hi : Word) : Dev :=
  let d := (d.setReg R.TL_VT_OFS_LO lo).setReg R.TL_VT_OFS_HI hi
  { d with sync := { d.sync with ofsLo := lo } }

/-- VT_OFS_HI_WRITE (R86): the offset takes effect. -/
def Dev.vtOfsHiWrite (d : Dev) (mid : Nat) (w : Word) : Dev :=
  if d.tlOk mid then d.setVtOfs d.sync.ofsLo w else d.deny Pg.TL

/-- Lock lost or never gained for too long (R58): HOLDOVER, the rate held; SYNC_LOST once (log entry 144, DEDUCED). -/
def Dev.syncLose (d : Dev) : Dev :=
  let was := d.flag R.TL_SYNC_STAT F.TL_SYNC_STAT_HOLDOVER
  let d := (d.putB R.TL_SYNC_STAT F.TL_SYNC_STAT_LOCKED false).putB R.TL_SYNC_STAT F.TL_SYNC_STAT_HOLDOVER true
  let d := { d with sync := { d.sync with inRange := 0 } }
  d.raiseIf (!was) Pg.TL Ev.SYNC_LOST

/-- The offset that makes vehicle time equal a grandmaster time (R57). -/
def Dev.writeOffset (d : Dev) (vt : Int) : Dev :=
  let o := wrapN 64 (vt - (d.gtc : Int))
  d.setVtOfs (BitVec.ofNat 32 (o % 2 ^ 32)) (BitVec.ofNat 32 (o / 2 ^ 32))

/-- Garmal's rate step (R56): at most 1,000 ppb a message; which step the spec leaves open, so it is free (log entry 3, DESIGN CHOICE). -/
def Dev.rateStep (d : Dev) : Dev :=
  let (w, d) := d.fresh
  let r := sext 32 (d.reg R.TL_RATE).toNat + ((w.toNat % 2001 : Nat) : Int) - 1000
  d.setReg R.TL_RATE (wordOfInt (clampRate r))

/-- The offset written at the first synchronisation after SYNC_EN is set, which is the first usable message (R57; log entry 291,
DESIGN CHOICE). -/
def Dev.firstOffset (d : Dev) (vt : Int) : Dev :=
  if d.sync.offWritten then d else ({ d with sync := { d.sync with offWritten := true } } : Dev).writeOffset vt

/-- Whether a Sync message is usable (R439): two-step, logSyncInterval from −5 to 0, and a port that is asCapable. -/
def Dev.syncUsable (d : Dev) (twoStep : Bool) (logInterval : Int) : Bool :=
  twoStep && decide (-5 ≤ logInterval) && decide (logInterval ≤ 0)
    && d.flag (R.ETH_STAT (d.get R.TL_CTRL F.TL_CTRL_SYNC_PORT)) F.ETH_STAT_AS_CAP

/-- SYNC_MESSAGE (R57, R58): a usable message with the measured offset error in ns and the grandmaster's time in ticks. Every message
counts, the first one too. A message within ±1 µs steps the rate also while HOLDOVER stands (log entry 291, DESIGN CHOICE). -/
def Dev.syncMessage (d : Dev) (err vt : Int) : Dev :=
  if !d.flag R.TL_CTRL F.TL_CTRL_SYNC_EN then d
  else
    let d := (d.putI R.TL_SYNC_STAT F.TL_SYNC_STAT_ERR (clampI (-32767) 32767 err)).firstOffset vt
    if err.natAbs > 1000 then d.syncLose
    else
      let d := d.rateStep
      let n := if err.natAbs ≤ 100 then min (d.sync.inRange + 1) 16 else 0
      let d := { d with sync := { d.sync with inRange := n } }
      if n = 16 ∧ !d.flag R.TL_SYNC_STAT F.TL_SYNC_STAT_LOCKED then
        let d := if d.flag R.TL_SYNC_STAT F.TL_SYNC_STAT_HOLDOVER then d.writeOffset vt else d
        let d := (d.putB R.TL_SYNC_STAT F.TL_SYNC_STAT_LOCKED true).putB R.TL_SYNC_STAT F.TL_SYNC_STAT_HOLDOVER false
        d.raise Pg.TL Ev.SYNC_LOCK
      else d

/-- SYNC_TIMEOUT (R58): no usable message for three sync intervals. -/
def Dev.syncTimeout (d : Dev) : Dev := if d.flag R.TL_CTRL F.TL_CTRL_SYNC_EN then d.syncLose else d

/-- What a write of TL_CTRL brings: a rising SYNC_EN begins a first synchronisation (R57). A falling one leaves LOCKED and HOLDOVER as
they stand (log entry 291, DESIGN CHOICE). -/
def Dev.afterTlCtrl (d : Dev) (was : Bool) : Dev :=
  if d.flag R.TL_CTRL F.TL_CTRL_SYNC_EN && !was then
    { d with sync := { d.sync with inRange := 0, offWritten := false } } else d

/-! ### Angle tracks -/

/-- One ANG20 count in the fraction units of a track (R59). -/
def cnt20 : Nat := 2 ^ 20

/-- Angles wrap modulo 2^40 (R59). -/
def wrap40 (x : Int) : Nat := wrapN 40 x

/-- Sources of TRK_CFG.SRC (R87). -/
def srcFREE : Nat := 0x1E
def srcHOST : Nat := 0x1F
def srcCTX : Nat := 0x10

/-- A speed that fits SPD32 (R18); any other is an unstated value (log entry 290, DESIGN CHOICE). -/
def fitSpd (x : Int) : Int := if -(2 ^ 31) ≤ x ∧ x < 2 ^ 31 then x else (Config.speedOver x).toInt

/-- Whether a SRC code names a source that delivers updates. -/
def srcUpdates (s : Nat) : Bool := (decide (1 ≤ s) && decide (s ≤ 12)) || s == srcCTX || s == srcHOST

def Dev.trkSrc (d : Dev) (k : Nat) : Nat := d.get (R.TRK_CFG k) F.TRK_CFG_SRC

/-- The projected angle P of a track (R76), modulo 2^40. -/
def Dev.trkP (d : Dev) (k : Nat) : Nat :=
  let s := d.trkS k
  wrap40 ((s.ang : Int) + 8 * s.spd)

/-- A track event with its flag bit (R86, R88). -/
def Dev.trkEvent (d : Dev) (k src : Nat) : Dev := (d.orReg R.TL_TRK_FLAG (bitWord k)).raiseN Pg.TL src k

def Dev.trkEventIf (d : Dev) (c : Bool) (k src : Nat) : Dev := if c then d.trkEvent k src else d

/-- A speed in force: DIR and the first speed (R66); TRK_REV where `rev` asks for it. -/
def Dev.trkDir (d : Dev) (k : Nat) (v : Int) (rev : Bool) : Dev :=
  if v = 0 then d
  else
    let s := d.trkS k
    let neg := decide (v < 0)
    let flip := s.hasSpd && (d.flag (R.TRK_STAT k) F.TRK_STAT_DIR != neg)
    let d := (d.setTrk k { s with hasSpd := true }).putB (R.TRK_STAT k) F.TRK_STAT_DIR neg
    d.trkEventIf (flip && rev) k Ev.TRK_REV

/-- JUMP_LIM as it is taken (R87), in counts. -/
def Dev.jumpLim (d : Dev) (k : Nat) : Nat :=
  min (max (d.get (R.TRK_JUMP k) F.TRK_JUMP_JUMP_LIM) (d.get (R.TRK_TOL k) F.TRK_TOL_SLEW_TOL)) 0x80000

/-- Whether the present tick is the one in which the stale check expires (R67, R84). -/
def Dev.staleNow (d : Dev) (k : Nat) : Bool :=
  let n := d.get (R.TRK_STALE k) F.TRK_STALE_STALE
  n != 0 && d.trkSrc k != srcFREE && !d.flag (R.TRK_STAT k) F.TRK_STAT_STALE && d.gtc == (d.trkS k).base + n

/-- Where an update's error leads (R62): kept as a residual, or a jump. -/
def Dev.updAngle (d : Dev) (k : Nat) (m' : Nat) (e : Int) : Dev :=
  let s := d.trkS k
  if e.natAbs > d.jumpLim k * cnt20 then
    (d.setTrk k { s with ang := m', res := 0, jumpAt := d.gtc + 1, jump := e }).trkEvent k Ev.TRK_JUMP
  else
    (d.setTrk k { s with res := e }).trkEventIf
      (decide (e.natAbs > d.get (R.TRK_TOL k) F.TRK_TOL_SLEW_TOL * cnt20)) k Ev.TRK_SLEW

/-- The stop part of an update (R65). -/
def Dev.updStop (d : Dev) (k : Nat) (v : Int) (zero : Bool) : Dev :=
  let was := d.flag (R.TRK_STAT k) F.TRK_STAT_STOPPED
  let stop := v == 0 || zero
  (d.putB (R.TRK_STAT k) F.TRK_STAT_STOPPED stop).trkEventIf (stop && !was) k Ev.TRK_STOP

/-- An update applied at the present tick (R61 to R68), recorded where its source is one the recorder writes (R455). LAST_ERR takes e
truncated toward zero (log entry 140, DEDUCED). -/
def Dev.applyUpd (d : Dev) (k : Nat) (u : Upd) : Dev :=
  let s := d.trkS k
  let v := u.v.getD s.spd
  let m' := wrap40 ((u.m : Int) + v * ((d.gtc : Int) - (u.ts : Int)))
  let e := sext 40 (wrap40 ((m' : Int) - (s.ang : Int)))
  let slack := d.staleNow k
  let a := R.TRK_STAT k
  let d := d.setTrk k { s with spd := v, base := d.gtc, good := u.valid }
  let d := (d.putB a F.TRK_STAT_VALID u.valid).putB a F.TRK_STAT_UNCERT u.unc
  let d := (d.putB a F.TRK_STAT_STALE false).putI a F.TRK_STAT_LAST_ERR
    (clampI (-(2 ^ 19)) (2 ^ 19 - 1) (e.tdiv (2 ^ 20)))
  let d := d.updAngle k m' e
  let d := d.updStop k v u.zero
  let d := d.trkDir k v true
  let hdr := u.m / cnt20 + b2n u.valid * 2 ^ 31 + b2n u.unc * 2 ^ 30 + b2n u.v.isSome * 2 ^ 29
  let d := if u.logged then
      d.emit { ty := 0x14, res := k, tick := d.gtc, data := [BitVec.ofNat 32 hdr, wordOfInt v, BitVec.ofNat 32 u.ts] }
    else d
  if slack then d.zeroSlack 6 k else d

/-- An update of a source in its own terms, taken to a track (R60): PP and INV; a product outside SPD32 is open (log entry 290, DESIGN
CHOICE). -/
def Dev.trkTerms (d : Dev) (k : Nat) (ang20 : Nat) (v : Option Int) : Nat × Option Int :=
  let pp := d.get (R.TRK_CFG k) F.TRK_CFG_PP
  let f : Int := (if pp = 0 then 1 else (pp : Int)) * (if d.flag (R.TRK_CFG k) F.TRK_CFG_INV then -1 else 1)
  (wrapN 20 ((ang20 : Int) * f) * cnt20, v.map fun x => fitSpd (x * f))

/-- An update queued for a track, to be applied at its tick `ta`. -/
def Dev.queueUpd (d : Dev) (k : Nat) (u : Upd) : Dev :=
  let s := d.trkS k
  d.setTrk k { s with upds := s.upds ++ [u] }

/-- An update given to a track: applied where its tick has come, else queued; a page that stands still only queues it (R27, R61). -/
def Dev.giveUpd (d : Dev) (k : Nat) (u : Upd) : Dev :=
  if u.ta ≤ d.gtc ∧ d.frozen Pg.TRK = false then d.applyUpd k u else d.queueUpd k u

/-- TRACK_UPDATE (R61): the first update under way whose tick has come is applied, unless the page stands still (R27). -/
def Dev.trackUpdate (d : Dev) (k : Nat) : Dev :=
  let s := d.trkS k
  if d.frozen Pg.TRK then d else
  match s.upds with
  | [] => d
  | u :: r => if u.ta ≤ d.gtc then (d.setTrk k { s with upds := r }).applyUpd k u else d

/-- Whether an update under way has come by a tick, so that it precedes a timeout of that tick (R84). -/
def Dev.updBy (d : Dev) (k t : Nat) : Bool := (d.trkS k).upds.any fun u => decide (u.ta ≤ t)

/-- TRK_STALE (R67): the check concerns every source but FREE (R70), and an update of the tick in which it expires is taken
instead (R84). -/
def Dev.trkStale (d : Dev) (k : Nat) : Dev :=
  let n := d.get (R.TRK_STALE k) F.TRK_STALE_STALE
  let due := (d.trkS k).base + n
  if n != 0 && d.trkSrc k != srcFREE && !d.frozen Pg.TRK && !d.flag (R.TRK_STAT k) F.TRK_STAT_STALE
      && decide (due ≤ d.gtc) && !d.updBy k due then
    ((d.putB (R.TRK_STAT k) F.TRK_STAT_STALE true).putB (R.TRK_STAT k) F.TRK_STAT_VALID false).trkEvent k Ev.TRK_STALE
  else d

/-- Whether TRK_ANG and TRK_SPD accept a master's write (R70). -/
def Dev.trkWriteOk (d : Dev) (mid k : Nat) : Bool :=
  let own := Own.unit (R.TRK_CLAIM k) Pg.TRK
  (d.asS0 mid .trkB && d.ownOk mid own) && (d.trkSrc k == srcHOST || d.trkSrc k == srcFREE)

/-- The 40-bit angle of a TRK_ANG word (R87). -/
def angOfWord (w : Word) : Nat := getF w F.TRK_ANG_ANG * 2 ^ 20 + getF w F.TRK_ANG_FRAC * 2 ^ 8

/-- TRK_ANG_WRITE (R70): a HOST update, or a jump in FREE mode. -/
def Dev.trkAngWrite (d : Dev) (mid k : Nat) (w : Word) : Dev :=
  if !d.trkWriteOk mid k then d.deny Pg.TRK
  else if d.trkSrc k = srcHOST then
    d.applyUpd k { m := angOfWord w, v := (d.trkS k).staged, ts := d.gtc, ta := d.gtc, valid := true, logged := true }
  else
    let s := d.trkS k
    d.setTrk k { s with ang := angOfWord w, res := 0, jumpAt := d.gtc + 1,
                        jump := sext 40 (wrap40 ((angOfWord w : Int) - (s.ang : Int))) }

/-- TRK_SPD_WRITE (R70): staged for HOST, in force from the next tick for FREE. -/
def Dev.trkSpdWrite (d : Dev) (mid k : Nat) (w : Word) : Dev :=
  if !d.trkWriteOk mid k then d.deny Pg.TRK
  else if d.trkSrc k = srcHOST then d.setTrk k { d.trkS k with staged := some (sext 32 w.toNat) }
  else d.setTrk k { d.trkS k with nextSpd := some (sext 32 w.toNat) }

/-- What an accepted write of TRK_CFG brings (R66 to R68, R70): a track that turns FREE is no longer STALE, so that VALID follows the
last applied update. The speed stands; where it is not zero, it is the track's first non-zero
speed and DIR takes its sign (log entry 141, DEDUCED). -/
def Dev.afterTrkCfg (d : Dev) (k : Nat) : Dev :=
  let s := d.trkS k
  let src := d.trkSrc k
  let base := if srcUpdates src then d.gtc else s.base
  let d := d.setTrk k { s with res := 0, staged := none, nextSpd := none, upds := [], base := base, hasSpd := false }
  let d := d.putB (R.TRK_STAT k) F.TRK_STAT_DIR false
  let d := if src = srcFREE then (d.putB (R.TRK_STAT k) F.TRK_STAT_STALE false).putB (R.TRK_STAT k) F.TRK_STAT_VALID s.good else d
  d.trkDir k s.spd false

/-- TRK_CFG_WRITE (R70): the register's own rules (R25), then its effects where the write is taken. -/
def Dev.trkCfgWrite (d : Dev) (mid k : Nat) (w : Word) : Dev :=
  let a := R.TRK_CFG k
  let taken := d.writeTaken mid .trkB 0 Pg.TRK (a - pageBase Pg.TRK)
  let d := d.plainWrite mid a w
  if taken then d.afterTrkCfg k else d

/-- The step of a track in one tick (R59, R63, R65): what the angle gains and what the residual loses. -/
def trkStep (spd res slewMax : Int) (stopped : Bool) : Int × Int :=
  let c := clampI (-slewMax) slewMax res
  let v := if stopped then 0 else spd
  let st := if v > 0 then max (v + c) 0 else if v < 0 then min (v + c) 0 else c
  (st, st - v)

/-- One track through one tick. The step into a tick takes the speed of the tick before, also where a FREE speed takes effect in the new
tick (log entry 331, DEDUCED). A FREE track moves with its speed whatever STOPPED reads, and a FREE speed of opposite sign flips DIR
without TRK_REV (log entry 292, DEDUCED). -/
def Dev.trkTick (d : Dev) (k : Nat) : Dev :=
  let s := d.trkS k
  let stopped := d.flag (R.TRK_STAT k) F.TRK_STAT_STOPPED && d.trkSrc k != srcFREE
  let (st, c) := trkStep s.spd s.res ((d.reg (R.TRK_SLEWMAX k)).toNat : Int) stopped
  let d := d.setTrk k
    { s with pPrev := d.trkP k, ang := wrap40 ((s.ang : Int) + st), res := s.res - c, spd := s.nextSpd.getD s.spd,
             nextSpd := none }
  match s.nextSpd with
  | some v => d.trkDir k v false
  | none => d

/-- A track through a tick in which its page stands still (R27): its stale count stands. -/
def Dev.trkHeld (d : Dev) (k : Nat) : Dev := d.setTrk k { d.trkS k with base := (d.trkS k).base + 1 }

/-- The tracks through one tick; in a replay they run on RT (R464). -/
def Dev.trksTick (d : Dev) : Dev :=
  d.onRt fun e => forN nTracks (fun k x => if e.frozen Pg.TRK then x.trkHeld k else x.trkTick k) e

/-- One tick of the 400 MHz timebase (R55, R59): GTC and the tracks (log entry 5, DESIGN CHOICE). -/
def Dev.tick (d : Dev) : Dev := ({ d with gtc := d.gtc + 1 } : Dev).trksTick

/-- TRK_ANG as it reads (R59, R87). -/
def Dev.trkAngWord (d : Dev) (k : Nat) : Word :=
  let a := (d.trkS k).ang
  BitVec.ofNat 32 (a / 2 ^ 20 % 2 ^ 20 + a / 2 ^ 8 % 2 ^ 12 * 2 ^ 20)

/-- TRK_STAT as it reads (R63, R68, R87): a FREE track is valid while its page is enabled. -/
def Dev.trkStatWord (d : Dev) (k : Nat) : Word :=
  let w := setF (d.reg (R.TRK_STAT k)) F.TRK_STAT_SLEWING (b2n ((d.trkS k).res != 0))
  if d.trkSrc k = srcFREE then setF w F.TRK_STAT_VALID (b2n (d.pageEn Pg.TRK)) else w

/-- Whether a track is valid (R68). -/
def Dev.trkValid (d : Dev) (k : Nat) : Bool := getF (d.trkStatWord k) F.TRK_STAT_VALID != 0

/-! ### Slots -/

/-- A slot armed afresh at the present tick (R79). FIRED keeps what a firing of this very tick set. -/
def Dev.armSlot (d : Dev) (s : Nat) : Dev :=
  let q := d.slotS s
  let a := R.SLOT_TRIG s
  let arg := max (d.get (R.SLOT_ARG s) F.SLOT_ARG_ARG) 16
  let d := d.setSlot s
    { armTick := d.gtc, nextF := d.gtc + arg, cnt := 0, lastEv := 0, waitRearm := false, decAt := q.decAt }
  let d := (d.putB a F.SLOT_TRIG_ARMED true).putB a F.SLOT_TRIG_TGT_ABSENT false
  if q.decAt = d.gtc + 1 then d else d.putB a F.SLOT_TRIG_FIRED false

/-- SLOT_TRIG_WRITE (R71, R79). -/
def Dev.slotTrigWrite (d : Dev) (mid s : Nat) (w : Word) : Dev :=
  let a := R.SLOT_TRIG s
  let taken := d.writeTaken mid .tlsB (s / 256) (Pg.TLS (s / 256)) (a - pageBase (Pg.TLS (s / 256)))
  let d := d.plainWrite mid a w
  if taken && bitOf w 31 then d.armSlot s else d

/-- SLOT_ARG_WRITE (R79): a write while armed arms afresh. -/
def Dev.slotArgWrite (d : Dev) (mid s : Nat) (w : Word) : Dev :=
  let a := R.SLOT_ARG s
  let taken := d.writeTaken mid .tlsB (s / 256) (Pg.TLS (s / 256)) (a - pageBase (Pg.TLS (s / 256)))
  let d := d.plainWrite mid a w
  if taken && d.flag (R.SLOT_TRIG s) F.SLOT_TRIG_ARMED then d.armSlot s else d

/-- Rank of an action within its effect tick (R80). -/
def actionRank (a : Nat) : Nat := if a = 2 ∨ a = 9 ∨ a = 0xB ∨ a = 0xF then 0 else 1

/-- The order of actions: effect tick, rank, slot (R80). -/
def firingBefore (a b : Firing) : Bool :=
  decide (a.f < b.f) || (a.f == b.f &&
    (decide (actionRank a.action < actionRank b.action)
      || (actionRank a.action == actionRank b.action && decide (a.slot ≤ b.slot))))

def firingInsert : List Firing → Firing → List Firing
  | [], r => [r]
  | x :: l, r => if firingBefore x r then x :: firingInsert l r else r :: x :: l

/-- The action of a slot, as its registers have it, on its way to an effect tick. -/
def Dev.slotFiring (d : Dev) (s f : Nat) : Firing :=
  let act := R.SLOT_ACT s
  { slot := s, f := f, action := d.get act F.SLOT_ACT_ACTION, target := d.get act F.SLOT_ACT_TARGET, span := d.get act F.SLOT_ACT_SPAN,
    param := d.get act F.SLOT_ACT_PARAM }

/-- Actions of the parts that take no part in a replay (R464): POS_REQ, EXC_PHASE, BLANK_ON, BLANK_OFF, OW_ON, OW_OFF. -/
def liveAction (code : Nat) : Bool := decide (6 ≤ code) && decide (code ≤ 0xB)

/-- A slot fires at the present tick, its decision tick (R72): FIRED, SKIPPED, one-shot disarming, the action on its way to
the effect tick, the recorder's SLOT record. -/
def Dev.fireSlot (d : Dev) (s : Nat) (skipped : Bool) : Dev :=
  let a := R.SLOT_TRIG s
  let act := R.SLOT_ACT s
  let ty := d.get a F.SLOT_TRIG_TYPE
  let stay := d.flag a F.SLOT_TRIG_REARM && ty != 0
  let d := (d.putB a F.SLOT_TRIG_FIRED true).putB a F.SLOT_TRIG_SKIPPED skipped
  let d := if stay then d else d.putB a F.SLOT_TRIG_ARMED false
  let d := d.setSlot s { d.slotS s with decAt := d.gtc + 1, waitRearm := stay && ty == 3 }
  let f := d.gtc + 8
  let code := d.get act F.SLOT_ACT_ACTION
  let r := d.slotFiring s f
  let d := if code = 0 ∨ (d.replaying ∧ liveAction code) then d else { d with firings := firingInsert d.firings r }
  let d := if d.flag act F.SLOT_ACT_REC_FIRE then
      d.emit { ty := 0x06, res := s, tick := f, data := [BitVec.ofNat 32 (b2n skipped)] } else d
  if skipped then
    ((d.bump R.TL_LAST_SKIP F.TL_LAST_SKIP_COUNT).put R.TL_LAST_SKIP F.TL_LAST_SKIP_SLOT s).raise Pg.TL Ev.SLOT_SKIPPED
  else d

/-- Whether a slot is armed with a trigger type (R71). -/
def Dev.slotReady (d : Dev) (s ty : Nat) : Bool :=
  decide (s < nSlots) && !d.frozen (Pg.TLS (s / 256)) && d.flag (R.SLOT_TRIG s) F.SLOT_TRIG_ARMED && d.get (R.SLOT_TRIG s) F.SLOT_TRIG_TYPE == ty

/-- ABSOLUTE_SLOT_DECIDE (R73). -/
def Dev.absoluteDecide (d : Dev) (s : Nat) : Dev :=
  let x := sext 32 (wrapN 32 ((d.reg (R.SLOT_ARG s)).toNat - (d.gtc % 2 ^ 32 : Nat) : Int))
  if d.slotReady s 0 && decide (x ≤ 8) then d.fireSlot s (decide (x < 8)) else d

/-- PERIODIC_SLOT_DECIDE (R74). -/
def Dev.periodicDecide (d : Dev) (s : Nat) : Dev :=
  let q := d.slotS s
  if d.slotReady s 1 && decide (q.nextF ≤ d.gtc + 8) then
    (d.setSlot s { q with nextF := q.nextF + max (d.get (R.SLOT_ARG s) F.SLOT_ARG_ARG) 16 }).fireSlot s false
  else d

/-- Whether a carrier event kind is selected by CEVT (R71). -/
def cevtHas (cevt kind : Nat) : Bool := if cevt = 3 then kind == 0 || kind == 1 else kind == cevt

/-- The selected carrier events of a slot's group not yet considered, by tick, that count from its arming (R75). -/
def Dev.slotEvents (d : Dev) (s : Nat) : List Nat :=
  let a := R.SLOT_TRIG s
  let q := d.slotS s
  let off := d.get (R.SLOT_ARG s) F.SLOT_ARG_ARG % 2 ^ 20
  let g := d.get a F.SLOT_TRIG_SRC
  if groupPresent d.member g then
    ((d.grpS g).evs.filter fun e => cevtHas (d.get a F.SLOT_TRIG_CEVT) e.1 && decide (q.lastEv ≤ e.2)
      && decide (q.armTick + 8 ≤ e.2 + off)).map (·.2)
  else []

/-- The events of a carrier slot whose decision has come: on time at event + offset − 8, or late where the next selected
event has occurred (R75); each with whether it is late. -/
def dueEvents (now off : Nat) : List Nat → List (Nat × Bool)
  | [] => []
  | e :: r =>
    if e + off ≤ now + 8 then (e, false) :: dueEvents now off r
    else match r with
      | [] => []
      | e2 :: _ => if e2 ≤ now then (e, true) :: dueEvents now off r else []

/-- Count of carrier events through a list of due ones: the new count, and the lateness of a firing if one falls due. -/
def countEvents (cdiv : Nat) : Nat → List (Nat × Bool) → Nat × Option Bool
  | c, [] => (c, none)
  | c, (_, late) :: r =>
    let (c', l) := if c + 1 > cdiv then (0, some late) else (c + 1, none)
    let (c2, f2) := countEvents cdiv c' r
    (c2, match f2 with
      | some x => some x
      | none => l)

/-- CARRIER_SLOT_DECIDE (R75). -/
def Dev.carrierDecide (d : Dev) (s : Nat) : Dev :=
  if !d.slotReady s 2 then d
  else
    let q := d.slotS s
    let off := d.get (R.SLOT_ARG s) F.SLOT_ARG_ARG % 2 ^ 20
    let due := dueEvents d.gtc off (d.slotEvents s)
    match due.getLast? with
    | none => d
    | some (e, _) =>
      let (c, fire) := countEvents (d.get (R.SLOT_TRIG s) F.SLOT_TRIG_CDIV) q.cnt due
      let d := d.setSlot s { q with cnt := c, lastEv := e + 1 }
      match fire with
      | some late => d.fireSlot s late
      | none => d

/-- The direction in which a track's projected angle crosses a slot's angle in the present tick (R76): 1 forward, −1 in
reverse, 0 not at all. -/
def Dev.crossing (d : Dev) (s : Nat) : Int :=
  let k := d.get (R.SLOT_TRIG s) F.SLOT_TRIG_SRC
  let t := d.trkS k
  let a : Nat := d.get (R.SLOT_ARG s) F.SLOT_ARG_ARG % 2 ^ 20 * 2 ^ 20
  let p1 := sext 40 (wrap40 ((d.trkP k : Int) - (t.pPrev : Int)))
  let g := wrap40 ((a : Int) - (t.pPrev : Int))
  if p1 > 0 ∧ 0 < g ∧ (g : Int) ≤ p1 then 1
  else if p1 < 0 ∧ p1 ≤ sext 40 g ∧ sext 40 g < 0 then -1 else 0

/-- ANGLE_SLOT_DECIDE (R76 to R78). -/
def Dev.angleDecide (d : Dev) (s : Nat) : Dev :=
  let a := R.SLOT_TRIG s
  let k := d.get a F.SLOT_TRIG_SRC
  let q := d.slotS s
  let t := d.trkS k
  let dir := d.get a F.SLOT_TRIG_DIR
  let x := d.crossing s
  let jump := t.jumpAt == d.gtc + 1
  let along := decide (0 < t.jump * t.spd) && decide (0 < t.jump * x)
  let admits := (x == 1 && (dir == 0 || dir == 1)) || (x == -1 && (dir == 0 || dir == 2))
  if d.slotReady s 3 && decide (k < nTracks) && !q.waitRearm && decide (q.armTick < d.gtc) && admits && (!jump || along) then
    d.fireSlot s jump
  else d

/-- ANGLE_SLOT_REARM (R77). -/
def Dev.angleRearm (d : Dev) (s : Nat) : Dev :=
  let k := d.get (R.SLOT_TRIG s) F.SLOT_TRIG_SRC
  let a : Nat := d.get (R.SLOT_ARG s) F.SLOT_ARG_ARG % 2 ^ 20 * 2 ^ 20
  let x := sext 40 (wrap40 ((d.trkP k : Int) - (a : Int)))
  let q := d.slotS s
  if d.slotReady s 3 && q.waitRearm && decide (x.natAbs ≥ 2 ^ 18 * cnt20) then
    d.setSlot s { q with waitRearm := false } else d

/-- Whether a firing can have its turn: its slot's page does not stand still (R27), and a phase command has crossed the link, whose
dropped frame is sent again (R35). -/
def Dev.firingOpen (d : Dev) (r : Firing) : Bool :=
  !d.frozen (Pg.TLS (r.slot / 256)) && (r.action != 7 || decide (d.linkTick r.f ≤ d.gtc))

/-- The firing whose turn it is (R80): the first in order of effect tick, rank and slot of those that can have it. -/
def Dev.nextFiring (d : Dev) : Option Firing := d.firings.find? d.firingOpen

/-- The firing of a slot and action, where it is due and its turn has come, and the device without it. -/
def Dev.takeFiring (d : Dev) (s code : Nat) : Option (Firing × Dev) :=
  match d.nextFiring with
  | none => none
  | some r =>
    if r.slot = s ∧ r.action = code ∧ r.f ≤ d.gtc then some (r, { d with firings := d.firings.erase r }) else none

/-- The targets of a firing within an action's range (R71, R81). -/
def firingTargets (r : Firing) (range : Nat) : List Nat :=
  ((List.range (r.span + 1)).map (r.target + ·)).filter fun t => decide (t < range)

/-- A due action of a slot applied to each of its targets; an absent target sets TGT_ABSENT (R82). -/
def Dev.runAction (d : Dev) (s code range : Nat) (present : Nat → Bool) (f : Nat → Dev → Dev) : Dev :=
  match d.takeFiring s code with
  | none => d
  | some (r, d) =>
    (firingTargets r range).foldl
      (fun e t => if present t then f t e else e.putB (R.SLOT_TRIG s) F.SLOT_TRIG_TGT_ABSENT true) d

/-- REC_MARK (R81): a MARK record with the mark code and the slot. -/
def Dev.recMark (d : Dev) (s : Nat) : Dev :=
  match d.takeFiring s 0xC with
  | none => d
  | some (r, d) => d.emit { ty := 0x05, res := r.param, tick := d.gtc, data := [BitVec.ofNat 32 s] }

/-- SLOT_ARM (R79). -/
def Dev.slotArm (d : Dev) (s : Nat) : Dev := d.runAction s 0xD nSlots (fun _ => true) fun t e => e.armSlot t

/-- SLOT_DISARM (R80, R81). -/
def Dev.slotDisarm (d : Dev) (s : Nat) : Dev :=
  d.runAction s 0xF nSlots (fun _ => true) fun t e => e.putB (R.SLOT_TRIG t) F.SLOT_TRIG_ARMED false

/-- EVT_PULSE (R81, R481): PARAM ticks, 0 taken as 1. -/
def Dev.evtPulse (d : Dev) (s : Nat) : Dev :=
  match d.takeFiring s 0xE with
  | none => d
  | some (r, d) => (firingTargets r 4).foldl (fun e t => e.pulseS t (max r.param 1)) d

/-- EVT_OUT_PULSE_END (R481): a pulse whose width has elapsed ends. -/
def Dev.pulseEnd (d : Dev) (n : Nat) : Dev :=
  let r := spGet 0 d.evt.outR n
  let s := spGet 0 d.evt.outS n
  { d with evt := { d.evt with
      outR := spPut 0 d.evt.outR n (if r ≤ d.gtc then 0 else r)
      outS := spPut 0 d.evt.outS n (if s ≤ d.gtc then 0 else s) } }

/-! ### Meanings -/

def execSyncMessage (err : Int) (tm : SyncTime) (s : State) :=
  onDev (fun d => if d.syncUsable tm.twoStep tm.logInterval then d.clocked Pg.TL fun d => d.syncMessage err tm.vt else d) s
def execSyncTimeout (s : State) := onDev (fun d => d.clocked Pg.TL fun d => d.syncTimeout) s
def execTrackUpdate (k : Nat) (s : State) := onPart (fun d => d.trackUpdate k) s
def execTrkStale (k : Nat) (s : State) := onPart (fun d => d.trkStale k) s
def execAbsoluteSlotDecide (slot : Nat) (s : State) := onPart (fun d => d.absoluteDecide slot) s
def execPeriodicSlotDecide (slot : Nat) (s : State) := onPart (fun d => d.periodicDecide slot) s
def execCarrierSlotDecide (slot : Nat) (s : State) := onPart (fun d => d.carrierDecide slot) s
def execAngleSlotDecide (slot : Nat) (s : State) := onPart (fun d => d.angleDecide slot) s
def execAngleSlotRearm (slot : Nat) (s : State) := onPart (fun d => d.angleRearm slot) s
def execRecMark (slot : Nat) (s : State) := onPart (fun d => d.recMark slot) s
def execSlotArm (slot : Nat) (s : State) := onPart (fun d => d.slotArm slot) s
def execEvtPulse (slot : Nat) (s : State) := onPart (fun d => d.evtPulse slot) s
def execSlotDisarm (slot : Nat) (s : State) := onPart (fun d => d.slotDisarm slot) s
def execEvtOutPulseEnd (pin : Nat) (s : State) := onDev (fun d => d.pulseEnd pin) s

end Sys2Proof.Machine
end

