-- ==== Sys2Proof/Machine/Accumulators.lean ====
section
/-! DEFINITION. Accumulators and min-max trackers (chapter 04, R115 to R137). -/

namespace Sys2Proof.Machine

/-! ### The excitation phase (R124, R178) -/

/-- The stretch of an output's history in which a tick lies. -/
def segAt (t : Nat) : List ExcSeg → Option ExcSeg
  | [] => none
  | s :: r => if s.t0 ≤ t then some s else segAt t r

/-- The phase φ of excitation output `k` at tick `t`, and its period; none where it does not run. -/
def Dev.excPhase (d : Dev) (k t : Nat) : Option (Nat × Nat) :=
  match segAt t (d.excS k) with
  | some s => if s.run && decide (0 < s.per) then some ((s.phi + (t - s.t0)) % s.per, s.per) else none
  | none => none

/-- The sign of a sample in SIGNWT mode (R124). -/
def Dev.excSign (d : Dev) (k t dly : Nat) : Int :=
  if t < dly then 1
  else match d.excPhase k (t - dly) with
    | some (phi, per) => if 2 * phi < per then 1 else -1
    | none => 1

/-! ### Configuration -/

def Dev.accMode (d : Dev) (a : Nat) : Nat := d.get (R.ACC_CFG a) F.ACC_CFG_MODE

/-- Whether an accumulator's page is present and enabled and its MODE is on (R122). -/
def Dev.accOn (d : Dev) (a : Nat) : Bool :=
  decide (a < nAcc d.member) && d.pageEn (Pg.ACC (a / 64)) && !d.frozen (Pg.ACC (a / 64)) && d.accMode a != 3

/-- x_in less OFS, clamped (R117); whether the clamp acted. -/
def Dev.accD (d : Dev) (a : Nat) (x : Int) : Int × Bool :=
  let y := x - d.getI (R.ACC_OFS a) F.ACC_OFS_OFS
  (clampI (-65535) 65535 y, decide (y.natAbs > 65535))

/-- G as a fraction (R125). -/
def Dev.accG (d : Dev) (a : Nat) : Frac := bfVal (mantW (d.reg (R.ACC_GAIN a))) (d.getI (R.ACC_EXP a) F.ACC_EXP_GAIN_EXP)

def Dev.accExp0 (d : Dev) (a : Nat) : Int := d.getI (R.ACC_EXP a) F.ACC_EXP_RES0_EXP
def Dev.accExp1 (d : Dev) (a : Nat) : Int := d.getI (R.ACC_EXP a) F.ACC_EXP_RES1_EXP

/-! ### Sums (R123) -/

/-- A 40-bit sum with one more summand, saturating; whether it saturated. -/
def satSum (s x : Int) : Int × Bool :=
  let y := s + x
  (clampI (-(2 ^ 39)) (2 ^ 39 - 1) y, decide (y < -(2 ^ 39)) || decide (y > 2 ^ 39 - 1))

/-- The summands of a sample by MODE: for the first sum and for the second. -/
def Dev.accTerms (d : Dev) (a : Nat) (x : Int) (ts : Nat) : Int × Int :=
  let m := d.accMode a
  if m = 1 then
    let q := roundDiv x 4
    (x, q * q)
  else if m = 2 then
    let e := R.ACC_EXP a
    (d.excSign (d.get (R.ACC_CFG a) F.ACC_CFG_EXC) ts (d.get e F.ACC_EXP_SGN_DLY) * x, x)
  else (x, 0)

/-- A member added to a window. -/
def Dev.accAdd (d : Dev) (a : Nat) (w : WinSt) (x : Int) (clamped : Bool) (ts : Nat) : WinSt :=
  let (t1, t2) := d.accTerms a x ts
  let (s1, o1) := satSum w.s1 t1
  let (s2, o2) := satSum w.s2 t2
  let on := decide (w.n ≥ 16777215)
  { w with n := (if on then w.n else w.n + 1), s1 := s1, s2 := s2, ovf := w.ovf || clamped || o1 || o2 || on,
           dMin := (if w.n = 0 then x else min w.dMin x), dMax := (if w.n = 0 then x else max w.dMax x),
           last := ts }

/-- Whether a timestamp lies in a closed window, in an open one (R119). -/
def inClosed (w : WinSt) (ts : Nat) : Bool := decide (w.fOpen ≤ ts) && decide (ts < w.fClose)

/-- A sample taken by an accumulator's windows, by its timestamp alone (R119). -/
def Dev.accTake (d : Dev) (a : Nat) (x : Int) (ts : Nat) : Dev :=
  let s := d.accS a
  let (y, c) := d.accD a x
  match s.pend with
  | some w =>
    if inClosed w ts then d.setAcc a { s with pend := some (d.accAdd a w y c ts) }
    else match s.cur with
      | some v => if v.fOpen ≤ ts then d.setAcc a { s with cur := some (d.accAdd a v y c ts) } else d
      | none => d
  | none =>
    match s.cur with
    | some v => if v.fOpen ≤ ts then d.setAcc a { s with cur := some (d.accAdd a v y c ts) } else d
    | none => d

/-! ### Trackers -/

/-- The accumulator a running tracker follows (R131). -/
def Dev.mmxLink (d : Dev) (t : Nat) : Option Nat :=
  let a := d.get (R.MMX_CFG t) F.MMX_CFG_LINK
  if decide (t < nMmx d.member) && d.pageEn (Pg.MMX (t / 64)) && !d.frozen (Pg.MMX (t / 64))
      && d.flag (R.MMX_CFG t) F.MMX_CFG_EN && decide (a < nAcc d.member) then some a else none

/-- v of R131: G × d rounded and bounded as RES0. -/
def Dev.accV (d : Dev) (a : Nat) (x : Int) : Int × Bool := mantOf ((d.accG a).mul (Frac.ofInt x)) (d.accExp0 a)

/-- One sample against a tracker's limits (R134). -/
def Dev.mmxLimit (d : Dev) (t a : Nat) (x : Int) : Dev :=
  if d.flag (R.MMX_CFG t) F.MMX_CFG_LIM_EN then
    let v := (d.accV a (d.accD a x).1).1
    let hi := decide (v > mantW (d.reg (R.MMX_LIM_HI t)))
    let lo := decide (v < mantW (d.reg (R.MMX_LIM_LO t)))
    let d := if hi then d.putB (R.MMX_STAT t) F.MMX_STAT_HI_HIT true else d
    let d := if lo then d.putB (R.MMX_STAT t) F.MMX_STAT_LO_HIT true else d
    if hi || lo then
      (d.orReg (R.MMX_FLAG (t / 64) (t % 64 / 32)) (bitWord (t % 32))).raiseN (Pg.MMX (t / 64)) Ev.MMX_LIMIT t
    else d
  else d

/-- A sample that arrives for an input (R117, R118, R134): every accumulator that takes it, and their trackers' limits. -/
def Dev.accSample (d : Dev) (sdd : Bool) (src : Nat) (x : Int) (ts : Nat) (marked : Bool) : Dev :=
  let takes (e : Dev) (a : Nat) : Bool :=
    e.flag (R.ACC_CFG a) F.ACC_CFG_SRC_KIND == sdd && e.get (R.ACC_CFG a) F.ACC_CFG_SRC == src
      && (!marked || e.flag (R.ACC_CFG a) F.ACC_CFG_OW_ACC)
  let d := forN (nAcc d.member) (fun a e => if takes e a && e.accOn a then e.accTake a x ts else e) d
  forN (nMmx d.member) (fun t e =>
    match e.mmxLink t with
    | some a => if takes e a then e.mmxLimit t a x else e
    | none => e) d

/-! ### Windows (R119 to R122) -/

/-- OPEN and PEND of ACC_STAT follow the two windows. -/
def Dev.accShow (d : Dev) (a : Nat) : Dev :=
  let s := d.accS a
  (d.putB (R.ACC_STAT a) F.ACC_STAT_OPEN s.cur.isSome).putB (R.ACC_STAT a) F.ACC_STAT_PEND s.pend.isSome

/-- An accumulator's event with its flag (R135). -/
def Dev.accEvent (d : Dev) (a src : Nat) : Dev :=
  (d.orReg (R.ACC_FLAG (a / 64) (a % 64 / 32)) (bitWord (a % 32))).raiseN (Pg.ACC (a / 64)) src a

def Dev.accEventIf (d : Dev) (c : Bool) (a src : Nat) : Dev := if c then d.accEvent a src else d

/-- ACC_OPEN at the present tick: ignored where a window is open (R119). -/
def Dev.accOpen (d : Dev) (a : Nat) : Dev :=
  if !d.accOn a || (d.accS a).cur.isSome then d
  else (d.setAcc a { d.accS a with cur := some { fOpen := d.gtc } }).accShow a

/-- The open window closes at the present tick; while another awaits its commit it is abandoned (R119, R121). -/
def Dev.accClose (d : Dev) (a : Nat) : Dev :=
  let s := d.accS a
  if !d.accOn a then d
  else match s.cur with
    | none => d
    | some w =>
      if s.pend.isSome then
        (((d.setAcc a { s with cur := none }).accShow a).bump (R.ACC_STAT a) F.ACC_STAT_LOST).accEvent a Ev.ACC_WIN_LOST
      else (d.setAcc a { s with cur := none, pend := some { w with fClose := d.gtc } }).accShow a

/-- ACC_SWAP (R119): close and open in one tick. -/
def Dev.accSwap (d : Dev) (a : Nat) : Dev := (d.accClose a).accOpen a

/-! In a replay accumulators take no part (R464); what remains of a window action is which window stands open, for the predicted windows of
R225: a window that closes commits where the stream has its ACC record at the commit tick of R120. -/

/-- Ticks from a window's close to its commit (R120). -/
def Dev.accLag (d : Dev) (a : Nat) : Nat := if d.flag (R.ACC_CFG a) F.ACC_CFG_SRC_KIND then 4 else 40

def Dev.rplOpen (d : Dev) (a : Nat) : Dev :=
  if spGet 0 d.rpl.wins a = 0 then { d with rpl := { d.rpl with wins := spPut 0 d.rpl.wins a (d.gtc + 1) } } else d

def Dev.rplClose (d : Dev) (a : Nat) : Dev :=
  let w := spGet 0 d.rpl.wins a
  let commits := d.rpl.ref.any fun (p : RefSt) => p.r.ty == 0x12 && p.r.res == a && p.r.tick == d.gtc + d.accLag a
  { d with rpl := { d.rpl with wins := spPut 0 d.rpl.wins a 0, pend := if commits then spPut 0 d.rpl.pend a w else d.rpl.pend } }

/-- The three window actions, on the accumulator or, in a replay, on what stands for it (R119, R464). -/
def Dev.accOpenAct (d : Dev) (a : Nat) : Dev := if d.replaying then d.rplOpen a else d.accOpen a
def Dev.accCloseAct (d : Dev) (a : Nat) : Dev := if d.replaying then d.rplClose a else d.accClose a
def Dev.accSwapAct (d : Dev) (a : Nat) : Dev := if d.replaying then (d.rplClose a).rplOpen a else d.accSwap a

/-- The opening tick of an accumulator's open window (R225). -/
def Dev.accFOpen (d : Dev) (a : Nat) : Option Nat :=
  if d.replaying then (if spGet 0 d.rpl.wins a = 0 then none else some (spGet 0 d.rpl.wins a - 1)) else ((d.accS a).cur).map (·.fOpen)

/-- Whether the window of an accumulator that opened at a tick stands, open or before its commit. -/
def Dev.accStands (d : Dev) (a f : Nat) : Bool :=
  let s := d.accS a
  let is (w : Option WinSt) : Bool := match w with
    | some w => w.fOpen == f
    | none => false
  if d.replaying then spGet 0 d.rpl.wins a == f + 1 || spGet 0 d.rpl.pend a == f + 1 else is s.cur || is s.pend

/-- Both windows abandoned without commit and without ACC_WIN_LOST (R122). -/
def Dev.accAbandon (d : Dev) (a : Nat) : Dev := (d.setAcc a { d.accS a with cur := none, pend := none }).accShow a

/-- An ACC page disabled (R122): every window of its accumulators is abandoned. -/
def Dev.accPageOff (d : Dev) (p : Nat) : Dev := forN 64 (fun j e => e.accAbandon (64 * p + j)) d

/-! ### Results (R125 to R127) -/

/-- RES0 and RES1 of a window's sums over `n` members, each with whether it was bounded (R125). -/
def Dev.accResults (d : Dev) (a : Nat) (w : WinSt) : (Int × Bool) × (Int × Bool) :=
  if w.n = 0 then ((0, false), (0, false))
  else
    let g := d.accG a
    let per (s : Int) : Frac := g.mul ⟨s, w.n⟩
    let m := d.accMode a
    let r1 : Frac := if m = 1 then (per w.s2).mul (g.mul (Frac.ofInt 16)) else if m = 2 then per w.s2 else Frac.ofInt 0
    (mantOf (per w.s1) (d.accExp0 a), mantOf r1 (d.accExp1 a))

/-- The partial view of an accumulator (R129): N_p, RES0, RES1, PTICK, which is 0 without a member (log entry 336, DESIGN CHOICE). -/
def Dev.accPartial (d : Dev) (a : Nat) : Nat × Int × Int × Nat :=
  match (d.accS a).cur with
  | none => (0, 0, 0, 0)
  | some w =>
    let r := d.accResults a w
    (w.n, r.1.1, r.2.1, if w.n = 0 then 0 else w.last)

/-- The least and greatest v of a window's members (R131, R132), and whether either was bounded. -/
def Dev.mmxWindow (d : Dev) (a : Nat) (w : WinSt) : Int × Int × Bool :=
  let x := d.accV a w.dMin
  let y := d.accV a w.dMax
  (min x.1 y.1, max x.1 y.1, x.2 || y.2)

/-- A linked window's commit in a tracker (R132). Log entry 298: under HOLD the window's values are loaded alone whenever
EMPTY is set, and an empty window leaves SAT. -/
def Dev.mmxCommit (d : Dev) (t a : Nat) (w : WinSt) : Dev :=
  let hold := d.flag (R.MMX_CFG t) F.MMX_CFG_HOLD
  let st := R.MMX_STAT t
  let put (e : Dev) (lo hi : Int) (sat : Bool) : Dev :=
    (((e.setReg (R.MMX_MIN t) (wordMant lo)).setReg (R.MMX_MAX t) (wordMant hi)).putB st F.MMX_STAT_EMPTY false).putB
      st F.MMX_STAT_SAT sat
  if w.n = 0 then
    if hold then d
    else (((d.setReg (R.MMX_MIN t) 0).setReg (R.MMX_MAX t) 0).putB st F.MMX_STAT_EMPTY true).putB st F.MMX_STAT_SAT false
  else
    let (lo, hi, sat) := d.mmxWindow a w
    if hold && !d.flag st F.MMX_STAT_EMPTY then
      put d (min lo (mantW (d.reg (R.MMX_MIN t)))) (max hi (mantW (d.reg (R.MMX_MAX t)))) sat
    else put d lo hi sat

/-- Every running tracker that follows accumulator `a` takes its window. -/
def Dev.mmxCommits (d : Dev) (a : Nat) (w : WinSt) : Dev :=
  forN (nMmx d.member) (fun t e => if e.mmxLink t = some a then e.mmxCommit t a w else e) d

/-- The window of an accumulator whose commit tick has come (R120). -/
def Dev.accDue (d : Dev) (a : Nat) : Option WinSt :=
  match (d.accS a).pend with
  | some w => if d.accOn a && decide (w.fClose + d.accLag a ≤ d.gtc) then some w else none
  | none => none

/-- The commit of a window (R125 to R127, R132, R135). -/
def Dev.accCommit (d : Dev) (a : Nat) (w : WinSt) : Dev :=
  let r := d.accResults a w
  let st := R.ACC_STAT a
  let nmin := d.get (R.ACC_CFG a) F.ACC_CFG_NMIN
  let empty := w.n == 0
  let short := decide (0 < w.n) && decide (w.n < nmin)
  let q := d.accS a
  let d := (d.setAcc a { q with pend := none, cAt := d.gtc + 1, cOpen := w.fOpen, cClose := w.fClose, n := q.n + 1 }).accShow a
  let d := (d.setReg (R.ACC_RES0 a) (wordMant r.1.1)).setReg (R.ACC_RES1 a) (wordMant r.2.1)
  let d := d.put (R.ACC_CNT a) F.ACC_CNT_SEQ ((d.get (R.ACC_CNT a) F.ACC_CNT_SEQ + 1) % 256)
  let d := d.put (R.ACC_CNT a) F.ACC_CNT_N w.n
  let d := (d.putB st F.ACC_STAT_SAT0 r.1.2).putB st F.ACC_STAT_SAT1 r.2.2
  let d := ((d.putB st F.ACC_STAT_EMPTY empty).putB st F.ACC_STAT_SHORT short).putB st F.ACC_STAT_OVF w.ovf
  let d := d.mmxCommits a w
  let d := d.accEventIf (r.1.2 || r.2.2) a Ev.ACC_SAT
  let d := d.accEventIf empty a Ev.ACC_EMPTY
  let d := d.accEventIf short a Ev.ACC_SHORT
  d.accEventIf w.ovf a Ev.ACC_OVF

/-! ### Writes -/

/-- A write of one of the four configuration words (R15, R122). -/
def Dev.accConfigWrite (d : Dev) (mid a word : Nat) (w : Word) : Dev :=
  let r := R.ACC_CFG a + 4 * word
  let taken := d.takenAt mid r
  let d := if word = 1 then d.mantWrite mid r w else d.plainWrite mid r w
  if taken then d.accAbandon a else d

/-- A write of MMX_CFG (R130): LINK names an accumulator of the writer alone, whatever LINK holds before. -/
def Dev.mmxCfgWrite (d : Dev) (mid t : Nat) (w : Word) : Dev :=
  let r := R.MMX_CFG t
  let link := getF w F.MMX_CFG_LINK
  let cur := d.get r F.MMX_CFG_LINK
  if link < 384 ∧ !d.holds mid (.unit (R.ACC_CLAIM link) (Pg.ACC (link / 64))) then
    (d.plainWrite mid r (setF w F.MMX_CFG_LINK cur)).denyIf (d.takenAt mid r) (Pg.MMX (t / 64))
  else d.plainWrite mid r w

/-- A tracker cleared (R133). -/
def Dev.mmxClear (d : Dev) (t : Nat) : Dev :=
  ((d.setReg (R.MMX_MIN t) 0).setReg (R.MMX_MAX t) 0).putB (R.MMX_STAT t) F.MMX_STAT_EMPTY true

/-- A write of MMX_STAT: CLR and the W1C bits (R133, R137). -/
def Dev.mmxStatWrite (d : Dev) (mid t : Nat) (w : Word) : Dev :=
  let r := R.MMX_STAT t
  let taken := d.takenAt mid r
  let d := d.plainWrite mid r w
  if taken && bitOf w 31 then d.mmxClear t else d

/-- A read of ACC_RES0 (R127): RES1, CNT and STAT are latched for the reader. -/
def Dev.accRes0Read (d : Dev) (mid a : Nat) : Dev :=
  let d := (d.latchW mid (R.ACC_RES1 a) (d.reg (R.ACC_RES1 a))).latchW mid (R.ACC_CNT a) (d.reg (R.ACC_CNT a))
  (d.latchW mid (R.ACC_STAT a) (d.reg (R.ACC_STAT a))).answer mid (d.reg (R.ACC_RES0 a))

/-- A read of MMX_MIN (R132): MMX_MAX and MMX_STAT are latched for the reader. -/
def Dev.mmxMinRead (d : Dev) (mid t : Nat) : Dev :=
  let d := d.latchW mid (R.MMX_MAX t) (d.reg (R.MMX_MAX t))
  (d.latchW mid (R.MMX_STAT t) (d.reg (R.MMX_STAT t))).answer mid (d.reg (R.MMX_MIN t))

/-! ### Meanings -/

def execAccOpen (slot : Nat) (s : State) :=
  onPart (fun d => d.runAction slot 1 384 (fun a => decide (a < nAcc d.member)) (fun a e => e.accOpenAct a)) s

end Sys2Proof.Machine
end

