-- ==== Sys2Proof/Machine/Converters.lean ====
section
/-! DEFINITION. The converter banks (chapter 03, R89 to R114): Bank A's grid, sequences, calibration and rotation, open-wire
windows; Bank B's decimators and checks. -/

namespace Sys2Proof.Machine

/-! ### Bank A: physical slices -/

def pslACTIVE : Nat := 0
def pslSPARE : Nat := 1
def pslCAL : Nat := 2
def pslOVERLAP : Nat := 3
def pslFAILED : Nat := 4

def Dev.pslState (d : Dev) (p : Nat) : Nat := d.get (R.ADA_PSL p) F.ADA_PSL_STATE

/-- How many physical slices are in a state. -/
def Dev.pslCount (d : Dev) (st : Nat) : Nat :=
  ((List.range (nPhys d.member)).filter fun p => d.pslState p == st).length

/-- SPARES and FAILED follow the slices' states (R113). -/
def Dev.pslCounts (d : Dev) : Dev :=
  (d.put R.ADA_ROT_STAT F.ADA_ROT_STAT_SPARES (d.pslCount pslSPARE)).put R.ADA_ROT_STAT F.ADA_ROT_STAT_FAILED
    (d.pslCount pslFAILED)

def Dev.spareMin (d : Dev) : Nat := d.get R.ADA_CAL_CFG F.ADA_CAL_CFG_SPARE_MIN

/-- A change of slices' states, with SPARE_LOW where SPARES falls below SPARE_MIN (R101). -/
def Dev.pslChange (d : Dev) (f : Dev → Dev) : Dev :=
  let was := d.get R.ADA_ROT_STAT F.ADA_ROT_STAT_SPARES
  let e := (f d).pslCounts
  let now := e.get R.ADA_ROT_STAT F.ADA_ROT_STAT_SPARES
  e.raiseIf (decide (d.spareMin ≤ was) && decide (now < d.spareMin)) Pg.ADA Ev.SPARE_LOW

def Dev.setPsl (d : Dev) (p st : Nat) : Dev := d.put (R.ADA_PSL p) F.ADA_PSL_STATE st
def Dev.setLsl (d : Dev) (p l : Nat) : Dev := d.put (R.ADA_PSL p) F.ADA_PSL_LSL l

/-- A slice enters CAL (R98, R99): its calibration begins. -/
def Dev.pslCal (d : Dev) (p : Nat) : Dev := (d.setPsl p pslCAL).setCal p { d.calS p with start := d.gtc }

/-- A slice enters FAILED (R95, R99). -/
def Dev.pslFail (d : Dev) (p cause : Nat) : Dev :=
  ((d.setPsl p pslFAILED).put (R.ADA_PSL p) F.ADA_PSL_FAIL_CAUSE cause).raiseN Pg.ADA Ev.SLICE_FAIL p

/-- Whether calibration values fail the limits (R95): more than 64 LSB, more than 1.00 %. -/
def calBad (ofs gain : Int) : Bool := decide (ofs.natAbs > 256) || decide (gain.natAbs > 100)

/-- The values a calibration derives (R91, R113), held to their fields. -/
def Dev.putCal (d : Dev) (p : Nat) (ofs gain : Int) : Dev :=
  let d := d.putI (R.ADA_PSL p) F.ADA_PSL_OFS (clampI (-512) 511 ofs)
  (d.putI (R.ADA_PSL p) F.ADA_PSL_GAIN_ERR (clampI (-128) 127 gain)).setCal p { d.calS p with done := d.gtc }

def calTicks : Nat := 800000

/-- The physical slice that serves a logical slice (R94); none while it is unserved. -/
def Dev.servedBy (d : Dev) (l : Nat) : Option Nat :=
  let p := d.get (R.ADA_LSTAT l) F.ADA_LSTAT_PSL
  if p = 0x3F then none else some p

/-- Logical slices bound to the passed physical slices in ascending order (R94). -/
def Dev.bindSlices (d : Dev) : List Nat → Nat → Nat → Dev
  | [], l, n => forN n (fun k e => if l ≤ k then e.put (R.ADA_LSTAT k) F.ADA_LSTAT_PSL 0x3F else e) d
  | p :: ps, l, n =>
    if l < n then (((d.put (R.ADA_LSTAT l) F.ADA_LSTAT_PSL p).setPsl p pslACTIVE).setLsl p l).bindSlices ps (l + 1) n
    else ((d.setPsl p pslSPARE).setLsl p 0).bindSlices ps l n

/-- One slice's boot calibration: its values, or FAILED (R94, R95). -/
def Dev.bootCal (d : Dev) (p : Nat) (c : Int × Int) : Dev :=
  let d := d.putCal p c.1 c.2
  if calBad c.1 c.2 then d.pslFail p 1 else d

/-- BOOT_SLICE_CALIBRATION_DONE (R94, R95): `cal` gives offset and gain error of every physical slice. -/
def Dev.bootCalDone (d : Dev) (cal : List (Int × Int)) : Dev :=
  if d.devState = DS.BOOT ∧ calTicks ≤ d.gtc ∧ cal.length = nPhys d.member then
    let d := forN (nPhys d.member) (fun p e => e.bootCal p (nthD (0, 0) cal p)) d
    let d : Dev := { d with sys := { d.sys with calDone := true } }
    let ok := (List.range (nPhys d.member)).filter fun p => d.pslState p != pslFAILED
    (d.bindSlices ok 0 (nSlices d.member)).pslCounts
  else d

/-- SPARE_LOW at the end of BOOT (R101). -/
def Dev.spareLowAtBoot (d : Dev) : Dev :=
  d.raiseIf (decide (d.get R.ADA_ROT_STAT F.ADA_ROT_STAT_SPARES < d.spareMin)) Pg.ADA Ev.SPARE_LOW

/-- SLICE_CALIBRATION_DONE (R95): a slice in CAL for 2 ms enters SPARE or FAILED. -/
def Dev.sliceCalDone (d : Dev) (p : Nat) (ofs gain : Int) : Dev :=
  if p < nPhys d.member ∧ d.sys.calDone = true ∧ d.frozen Pg.ADA = false ∧ d.pslState p = pslCAL ∧ (d.calS p).start + calTicks ≤ d.gtc then
    d.pslChange fun e =>
      let e := e.putCal p ofs gain
      if calBad ofs gain then e.pslFail p 1 else e.setPsl p pslSPARE
  else d

/-! ### Bank A: rotation (R96 to R101) -/

/-- Whether an overlap runs or its handover is still to be carried out: a step that falls between the decision and the handover is
skipped too (log entry 294, DESIGN CHOICE). -/
def Dev.rotBusy (d : Dev) : Bool := d.rot.run || d.rot.hand.isSome

def Dev.rotPtr (d : Dev) : Nat := d.get R.ADA_ROT_STAT F.ADA_ROT_STAT_PTR
def Dev.setPtr (d : Dev) (l : Nat) : Dev := d.put R.ADA_ROT_STAT F.ADA_ROT_STAT_PTR l

/-- The first enabled and served logical slice from PTR on (R96). -/
def Dev.rotNext (d : Dev) : Option Nat :=
  let n := nSlices d.member
  ((List.range n).map fun k => (d.rotPtr + k) % n).find? fun l =>
    d.flag (R.ADA_LCFG l) F.ADA_LCFG_EN && (d.servedBy l).isSome

/-- ROTATION_STEP (R96). -/
def Dev.rotationStep (d : Dev) : Dev :=
  let period := 400 * max (d.get R.ADA_ROT_CFG F.ADA_ROT_CFG_INTV) 1
  let spare := (List.range (nPhys d.member)).find? fun p => d.pslState p == pslSPARE
  if d.flag R.ADA_CTRL F.ADA_CTRL_ROT_EN && d.pageEn Pg.ADA && !d.frozen Pg.ADA && d.gtc % period == 0 && !d.rotBusy then
    match spare, d.rotNext with
    | some p, some l =>
      let d := (d.setPtr l).put R.ADA_ROT_STAT F.ADA_ROT_STAT_LAST_L l
      let d := { d with rot := { run := true, slice := l, inc := p, step := d.gtc } }
      d.pslChange fun e => (e.setPsl p pslOVERLAP).setLsl p l
    | _, _ => d
  else d

/-- OVL_N (R113). -/
def Dev.ovlN (d : Dev) : Nat := 16 * max (d.get R.ADA_ROT_CFG F.ADA_ROT_CFG_OVL) 4

/-- The handover at the first sampling instant after the decision tick (R98, R99). -/
def Dev.handover (d : Dev) (l : Nat) : Dev :=
  match d.rot.hand, d.servedBy l with
  | some (t, forced), some out =>
    if d.rot.slice = l ∧ t < d.gtc then
      let p := d.rot.inc
      let d := { d with rot := {} }
      let st := R.ADA_LSTAT l
      let d := ((d.put st F.ADA_LSTAT_PSL p).putB st F.ADA_LSTAT_FORCED forced).putB st F.ADA_LSTAT_CAL_STALE false
      let d := if forced then d else d.setPtr ((l + 1) % nSlices d.member)
      let d := d.setOvl l {}
      d.pslChange fun e =>
        let e := (e.setPsl p pslACTIVE).setLsl p l
        if forced then e.pslFail out 3 else e.pslCal out
    else d
  | _, _ => d

/-- A failed comparison (R99). -/
def Dev.overlapFail (d : Dev) : Dev :=
  let l := d.rot.slice
  let p := d.rot.inc
  let o := d.ovlS l
  let d := d.raiseN Pg.ADA Ev.OVL_FAIL l
  if o.fails = 0 then
    (({ d with rot := {} } : Dev).setOvl l { fails := 1, inc := p }).pslChange fun e => e.pslCal p
  else if o.inc = p then ({ d with rot := {} } : Dev).pslChange fun e => e.pslFail p 2
  else { d with rot := { d.rot with run := false, hand := some (d.gtc, true) } }

/-- Whether the counted pairs pass (R97). -/
def Dev.overlapPass (d : Dev) : Bool :=
  let r := d.rot
  decide (r.sum.natAbs ≤ d.get R.ADA_ROT_TOL F.ADA_ROT_TOL_MEAN * r.pairs)
    && decide (r.top ≤ d.get R.ADA_ROT_TOL F.ADA_ROT_TOL_MAX)

/-- OVERLAP_DECISION (R97 to R99). -/
def Dev.overlapDecision (d : Dev) : Dev :=
  if d.rot.run ∧ d.frozen Pg.ADA = false ∧ d.ovlN ≤ d.rot.pairs then
    if d.overlapPass then { d with rot := { d.rot with run := false, hand := some (d.gtc, false) } } else d.overlapFail
  else d

/-- A running overlap abandoned before its decision (R100). -/
def Dev.overlapAbandon (d : Dev) : Dev :=
  if d.rot.run then
    let p := d.rot.inc
    ({ d with rot := {} } : Dev).pslChange fun e => e.setPsl p pslSPARE
  else d

/-- CAL_STALE (R101). -/
def Dev.calStale (d : Dev) (l : Nat) : Dev :=
  let cm := d.get R.ADA_CAL_CFG F.ADA_CAL_CFG_CAL_MAX
  let st := R.ADA_LSTAT l
  match d.servedBy l with
  | some p =>
    if l < nSlices d.member ∧ d.frozen Pg.ADA = false ∧ cm ≠ 0 ∧ !d.flag st F.ADA_LSTAT_CAL_STALE ∧ (d.calS p).done + cm * 400000 < d.gtc then
      (d.putB st F.ADA_LSTAT_CAL_STALE true).raiseN Pg.ADA Ev.CAL_STALE l
    else d
  | none => d

/-! ### Bank A: samples (R90, R91) -/

/-- The corrected code (R91). -/
def Dev.codeC (d : Dev) (p raw : Nat) : Nat :=
  let ofs := d.getI (R.ADA_PSL p) F.ADA_PSL_OFS
  let g := d.getI (R.ADA_PSL p) F.ADA_PSL_GAIN_ERR
  (clampI 0 65535 (roundDiv ((4 * (min raw 16383 : Nat) - ofs) * 10000) (10000 + g).toNat)).toNat

/-- ADA_SAMPLE (R90, R97, R98): `raw` is the serving slice's result, `rawInc` the incoming slice's while an overlap pairs
them. -/
def Dev.adaSample (d : Dev) (l raw rawInc : Nat) : Dev :=
  let cfg := R.ADA_LCFG l
  let onGrid := d.gtc % 40 == min (d.get cfg F.ADA_LCFG_PHASE) 39
  if decide (l < nSlices d.member) && d.pageEn Pg.ADA && !d.frozen Pg.ADA && d.flag cfg F.ADA_LCFG_EN && onGrid
      && !d.samp.any (fun s => s.slice == l && s.ts == d.gtc) then
    let d := d.handover l
    let es := d.seqEntries l
    let i := nthD 0x7F es (d.gtc / 40 % es.length)
    match d.servedBy l with
    | some p =>
      if i < nInputs d.member then
        let pair := d.rot.run && d.rot.slice == l && decide (d.rot.step < d.gtc)
        let r : SampSt := { slice := l, input := i, ts := d.gtc, code := d.codeC p raw,
                            codeInc := if pair then some (d.codeC d.rot.inc rawInc) else none }
        { d with samp := d.samp ++ [r] }
      else d
    | none => d
  else d

/-- The ticks of an open-wire time in units of 40 (R113). -/
def Dev.owTicks (d : Dev) (i : Nat) (f : RField) : Nat := 40 * d.get (R.ADA_OW_CFG i) f

/-- Whether a sampling tick carries the OW mark (R103). -/
def Dev.owMarked (d : Dev) (i ts : Nat) : Bool :=
  (d.owS i).any fun w => decide (w.on ≤ ts) &&
    (match w.off with
     | none => true
     | some f => decide (ts < f + d.owTicks i F.ADA_OW_CFG_RECOVER))

/-- A sample entered into the open-wire windows that evaluate it (R104). -/
def Dev.owTake (d : Dev) (i ts code : Nat) : Dev :=
  let settle := d.owTicks i F.ADA_OW_CFG_SETTLE
  d.setOw i ((d.owS i).map fun w =>
    let inside := decide (w.on + settle ≤ ts) && (match w.off with
      | none => true
      | some f => decide (ts < f))
    if inside && !w.done then { w with n := w.n + 1, sum := w.sum + code } else w)

/-- A pair of results compared (R97). -/
def Dev.overlapPair (d : Dev) (r : SampSt) : Dev :=
  match r.codeInc with
  | some c =>
    if d.rot.run && d.rot.slice == r.slice && decide (d.rot.step < r.ts) && decide (d.rot.pairs < d.ovlN) then
      let x : Int := (c : Int) - (r.code : Int)
      { d with rot := { d.rot with pairs := d.rot.pairs + 1, sum := d.rot.sum + x, top := max d.rot.top x.natAbs } }
    else d
  | none => d

/-- ADA_RESULT_ARRIVAL (R91): the oldest result of a slice that has arrived. -/
def Dev.adaArrival (d : Dev) (l : Nat) : Dev :=
  if d.frozen Pg.ADA then d else
  match d.samp.find? (fun s => s.slice == l && decide (s.ts + 40 ≤ d.gtc)) with
  | none => d
  | some r =>
    let d := { d with samp := d.samp.erase r }
    let d := d.overlapPair r
    let marked := d.owMarked r.input r.ts
    let d := d.owTake r.input r.ts r.code
    d.accSample false r.input r.code r.ts marked

/-- A dropped link frame (R35): the results whose arrival ticks lie in its slot are lost. -/
def Dev.dropSamples (d : Dev) : Dev :=
  { d with samp := d.samp.filter fun s => (s.ts + 40) / 2 != d.gtc / 2 }

/-! ### Bank A: writes -/

/-- The first entry of a sequence that refuses it (R93): the input, and the slice that holds it (none: absent). -/
def Dev.seqConflict (d : Dev) (l : Nat) : List Nat → Option (Nat × Option Nat)
  | [] => none
  | i :: r =>
    if 0x60 ≤ i then d.seqConflict l r
    else if nInputs d.member ≤ i then some (i, none)
    else match d.inputHolder l i with
      | some h => some (i, some h)
      | none => d.seqConflict l r

/-- ADA_SEQ_WRITE (R93, R100). -/
def Dev.adaSeqWrite (d : Dev) (mid l : Nat) (w : Word) : Dev :=
  let r := R.ADA_SEQ l
  let st := R.ADA_LSTAT l
  if !d.takenAt mid r then d.plainWrite mid r w
  else
    let es := [getF w F.ADA_SEQ_IN0, getF w F.ADA_SEQ_IN1, getF w F.ADA_SEQ_IN2, getF w F.ADA_SEQ_IN3].take
      (getF w F.ADA_SEQ_LEN + 1)
    match d.seqConflict l es with
    | some (i, some h) =>
      ((d.put st F.ADA_LSTAT_SEQ_RESULT 2).put st F.ADA_LSTAT_CONF_IN i).put st F.ADA_LSTAT_CONF_L h
    | some (_, none) => d.put st F.ADA_LSTAT_SEQ_RESULT 3
    | none =>
      let d := (d.plainWrite mid r w).put st F.ADA_LSTAT_SEQ_RESULT 1
      if d.rot.slice = l then d.overlapAbandon else d

/-- What a write of ADA_CTRL, of an ADA_LCFG or of the page's EN brings (R100): ROT_EN, EN of the overlap's slice or the
page cleared. -/
def Dev.afterAda (d : Dev) : Dev :=
  if d.flag R.ADA_CTRL F.ADA_CTRL_ROT_EN && d.pageEn Pg.ADA && d.flag (R.ADA_LCFG d.rot.slice) F.ADA_LCFG_EN then d
  else d.overlapAbandon

/-! ### Open-wire windows (R102 to R105) -/

/-- OW_ON on an input (R102, R105). Windows that can mark no sample any more are dropped. -/
def Dev.owOn (d : Dev) (i : Nat) : Dev :=
  let mode := d.get (R.ADA_OW_CFG i) F.ADA_OW_CFG_MODE
  if (mode == 1 || mode == 2) && d.flag R.ADA_CTRL F.ADA_CTRL_OW_EN && !(d.owS i).any (fun w => w.off.isNone) then
    let rcv := d.owTicks i F.ADA_OW_CFG_RECOVER
    let kept := (d.owS i).filter fun w => !w.done || decide (d.gtc ≤ (w.off.getD 0) + rcv + 40)
    d.setOw i (kept ++ [{ on := d.gtc }])
  else d

/-- OW_OFF on an input (R102, R105). -/
def Dev.owOff (d : Dev) (i : Nat) : Dev :=
  d.setOw i ((d.owS i).map fun w => if w.off.isNone then { w with off := some d.gtc } else w)

/-- The test current on an input's pin while a window is open (R102), in µA: positive pulls up, negative pulls down. -/
def Dev.owCurrent (d : Dev) (i : Nat) : Int :=
  let cfg := R.ADA_OW_CFG i
  let mode := d.get cfg F.ADA_OW_CFG_MODE
  let ua : Int := if d.flag cfg F.ADA_OW_CFG_CUR then 50 else 10
  if !(d.owS i).any (fun w => w.off.isNone) then 0 else if mode = 1 then ua else if mode = 2 then -ua else 0

/-- Whether a verdict is OPEN (R104): the exact mean in LSB against THR × 64. -/
def owOpen (mode thr n sum : Nat) : Bool :=
  if mode = 1 then decide (thr * 64 * (4 * n) ≤ sum) else if mode = 2 then decide (sum ≤ thr * 64 * (4 * n)) else false

/-- The verdict of one window (R104), by MODE and THR as they stand at the evaluation (log entry 295, DESIGN CHOICE). -/
def Dev.owVerdict (d : Dev) (i : Nat) (w : OwSt) : Dev :=
  let cfg := R.ADA_OW_CFG i
  if w.n < 4 then (d.orReg (R.ADA_OW_INC (i / 32)) (bitWord (i % 32))).raiseN Pg.ADA Ev.OW_INCONCL i
  else if owOpen (d.get cfg F.ADA_OW_CFG_MODE) (d.get cfg F.ADA_OW_CFG_THR) w.n w.sum then
    (d.orReg (R.ADA_OW_OPEN (i / 32)) (bitWord (i % 32))).raiseN Pg.ADA Ev.OPEN_WIRE i
  else d

/-- OW_EVALUATION (R104): the first closed window whose evaluation tick has come. -/
def Dev.owEvaluation (d : Dev) (i : Nat) : Dev :=
  let due (w : OwSt) : Bool := !w.done && (match w.off with
    | some f => decide (f + 40 ≤ d.gtc)
    | none => false)
  if d.frozen Pg.ADA then d else
  match (d.owS i).find? due with
  | none => d
  | some w =>
    (d.setOw i ((d.owS i).map fun v => if v == w then { v with done := true } else v)).owVerdict i w

/-! ### Bank B (R106 to R111) -/

/-- DIV as it acts (R106). -/
def Dev.sdcDiv (d : Dev) (k : Nat) : Nat := clampN 16 40 (d.get (R.ADB_CLK k) F.ADB_CLK_DIV / 2 * 2)

/-- The level that SDCk is driven to in cycle `n` of Channel M's 400 MHz clock, counted from one of its rising edges: 50 % duty, low
while EN = 0 (R106). -/
def Dev.sdcPin (d : Dev) (k n : Nat) : Bool :=
  d.pinsLive && d.flag (R.ADB_CLK k) F.ADB_CLK_EN && decide (n % d.sdcDiv k < d.sdcDiv k / 2)

/-- The clock of a channel. -/
def Dev.sddClk (d : Dev) (c : Nat) : Nat := d.get (R.ADB_CH_CFG c) F.ADB_CH_CFG_CLK

/-- The sampling instant in a period of a channel's clock, in cycles of Channel M's 400 MHz clock from SDC's rising edge: DLY cycles after
the edge that EDGE selects (R107). -/
def Dev.sddPhase (d : Dev) (c : Nat) : Nat :=
  (if d.flag (R.ADB_CH_CFG c) F.ADB_CH_CFG_EDGE then d.sdcDiv (d.sddClk c) / 2 else 0) + d.get (R.ADB_CH_CFG c) F.ADB_CH_CFG_DLY

/-- `n` levels of a pin, one in every `div` cycles. -/
def everyNth (div : Nat) : Nat → List Bool → List Bool
  | 0, _ => []
  | n + 1, l => l.headD false :: everyNth div n (l.drop div)

/-- The bits of `n` periods of a channel's clock, from the levels of SDDc cycle by cycle (R107): none where the levels do not span those
periods up to their last sampling instant. -/
def Dev.sddBits (d : Dev) (c n : Nat) (wave : List Bool) : Option (List Bool) :=
  let div := d.sdcDiv (d.sddClk c)
  if wave.length = n * div + d.sddPhase c then some (everyNth div n (wave.drop (d.sddPhase c))) else none

/-- One modulator bit through the three integrators (R107, R108). -/
def sincBit (s : SincSt) (b : Bool) : SincSt :=
  let x : Int := if b then 1 else -1
  let i1 := s.i1 + x
  let i2 := s.i2 + i1
  { s with i1 := i1, i2 := i2, i3 := s.i3 + i2 }

/-- The comb stages at an output (R108): the filter sum S and the decimator after it. -/
def sincOut (s : SincSt) : Int × SincSt :=
  let a := s.i3 - s.c1
  let b := a - s.c2
  (b - s.c3, { s with c1 := s.i3, c2 := a, c3 := b, outs := s.outs + 1 })

/-- y = S / OSR³ as a signed 24-bit fraction, nearest, +1 saturated (R108). -/
def sincY (sum : Int) (osr : Nat) : Int := clampI (-(2 ^ 23)) (2 ^ 23 - 1) (roundDiv (sum * 2 ^ 23) (osr ^ 3))

/-- OSR and FAST_OSR as they are taken (R108, R114). -/
def Dev.sddOsr (d : Dev) (c : Nat) : Nat := clampN 16 256 (d.get (R.ADB_CH_CFG c) F.ADB_CH_CFG_OSR)
def Dev.sddFast (d : Dev) (c : Nat) : Nat := clampN 8 32 (d.get (R.ADB_CH_CFG c) F.ADB_CH_CFG_FAST_OSR)

/-- Whether a channel runs: enabled, on a clock that is present and runs (R107, R114), and not stopped by a clock that failed (R106). -/
def Dev.sddOn (d : Dev) (c : Nat) : Bool :=
  let k := d.get (R.ADB_CH_CFG c) F.ADB_CH_CFG_CLK
  decide (c < nSdd d.member) && d.flag (R.ADB_CH_CFG c) F.ADB_CH_CFG_EN && decide (k < nSdc d.member)
    && d.flag (R.ADB_CLK k) F.ADB_CLK_EN && !d.frozen Pg.ADB && !(d.sddS c).held

/-- STUCK_N as it is taken (R110, R114). -/
def Dev.stuckN (d : Dev) : Nat := max 16 (d.get R.ADB_CFG F.ADB_CFG_STUCK_N)

/-- The check for a stuck bitstream at one bit (R110): clocks without a transition; a stretch of `n` or more is found once. -/
def stuckBit (n : Nat) (s : SddSt) (b : Bool) : SddSt :=
  if s.last = some b then
    let stuck := decide (n ≤ s.still + 1)
    { s with still := s.still + 1, stuck := s.stuck || stuck, hit := s.hit || (stuck && !s.stuck) }
  else { s with last := some b, still := 0, stuck := false }

/-- One output period of a channel's bits through its decimator and its check (R108 to R110). -/
def Dev.sinc3Bits (d : Dev) (c : Nat) (bits : List Bool) : Dev :=
    let osr := d.sddOsr c
    let s := bits.foldl (stuckBit d.stuckN) (d.sddS c)
    let (sum, m) := sincOut (bits.foldl sincBit s.main)
    let y := sincY sum osr
    if m.outs ≤ 3 then d.setSdd c { s with main := m }
    else
      let st := R.ADB_CH_STAT c
      let copy := d.flag (R.ADB_CH_CFG c) F.ADB_CH_CFG_ACC_COPY
      let d := d.setSdd c { s with main := m, y := y, copies := if copy then s.copies ++ [(y, d.gtc)] else s.copies }
      let d := d.putB st F.ADB_CH_STAT_RUN true
      if 15 * 2 ^ 19 ≤ y.natAbs then (d.putB st F.ADB_CH_STAT_CLIP true).raiseN Pg.ADB Ev.SD_CLIP c else d

/-- SINC3_OUTPUT (R107 to R110): SDDc's levels through one output period. -/
def Dev.sinc3Output (d : Dev) (c : Nat) (wave : List Bool) : Dev :=
  match d.sddBits c (d.sddOsr c) wave with
  | some bits => if d.sddOn c then d.sinc3Bits c bits else d
  | none => d

/-- Whether the levels of an output period make the channel emit an output (R108). -/
def Dev.sincEmits (d : Dev) (c : Nat) (wave : List Bool) : Bool :=
  d.sddOn c && (d.sddBits c (d.sddOsr c) wave).isSome && decide (3 ≤ (d.sddS c).main.outs)

/-- ADB_COPY_ARRIVAL (R109, R117): the oldest copy, at least 6 ticks old. -/
def Dev.adbCopyArrival (d : Dev) (c : Nat) : Dev :=
  let s := d.sddS c
  match s.copies with
  | [] => d
  | (y, t) :: r =>
    if t + 6 ≤ d.gtc ∧ d.frozen Pg.ADB = false then (d.setSdd c { s with copies := r }).accSample true c (y / 256) d.gtc false else d

/-- Whether a channel's bitstream has gone STUCK_N clocks without a transition since it was last looked at (R110). -/
def Dev.stuckDue (d : Dev) (c : Nat) : Bool := d.sddOn c && (d.sddS c).hit

/-- SD_STUCK (R110). -/
def Dev.sdStuck (d : Dev) (c : Nat) : Dev :=
  if d.stuckDue c then
    ((d.setSdd c { d.sddS c with hit := false }).putB (R.ADB_CH_STAT c) F.ADB_CH_STAT_STUCK true).raiseN Pg.ADB Ev.SD_STUCK c
  else d

/-- One output period of a channel's fast detector (R110): y_f against HI and LO, signed Q15; +1 is saturated, as y is (R108, R114; log
entry 296, DEDUCED). -/
def Dev.fastBits (d : Dev) (c : Nat) (bits : List Bool) : Dev :=
    let osr := d.sddFast c
    let s := d.sddS c
    let (sum, m) := sincOut (bits.foldl sincBit s.fast)
    let d := d.setSdd c { s with fast := m }
    if m.outs ≤ 3 then d
    else
      let cube : Int := (osr ^ 3 : Nat)
      let y := min (sum * 2 ^ 15) (32767 * cube)
      let ovr := R.ADB_CH_OVR c
      if decide (y > d.getI ovr F.ADB_CH_OVR_HI * cube) || decide (y < d.getI ovr F.ADB_CH_OVR_LO * cube) then
        (d.putB (R.ADB_CH_STAT c) F.ADB_CH_STAT_OVR true).raiseN Pg.ADB Ev.SD_OVR c
      else d

/-- FAST_SINC3_OUTPUT (R107, R110): SDDc's levels through one period of the second sinc3. -/
def Dev.fastSinc3Output (d : Dev) (c : Nat) (wave : List Bool) : Dev :=
  match d.sddBits c (d.sddFast c) wave with
  | some bits => if d.sddOn c then d.fastBits c bits else d
  | none => d

/-- A channel stopped: RUN reads 0, its filters start afresh. -/
def Dev.sddStop (d : Dev) (c : Nat) : Dev :=
  (d.setSdd c { copies := (d.sddS c).copies }).putB (R.ADB_CH_STAT c) F.ADB_CH_STAT_RUN false

/-- A channel on a failed clock (R106): it delivers no more, until it or its clock is next disabled (log entry 297, DEDUCED). -/
def Dev.sddHold (d : Dev) (c : Nat) : Dev :=
  let e := d.sddStop c
  (e.setSdd c { e.sddS c with held := true }).putB (R.ADB_CH_STAT c) F.ADB_CH_STAT_STUCK true

/-- SDC_FAULT (R106): every channel on the clock stops and sets STUCK. -/
def Dev.sdcFault (d : Dev) (k : Nat) : Dev :=
  if k < nSdc d.member ∧ d.frozen Pg.ADB = false ∧ d.flag (R.ADB_CLK k) F.ADB_CLK_EN then
    let d := forN (nSdd d.member) (fun c e =>
      if e.get (R.ADB_CH_CFG c) F.ADB_CH_CFG_CLK = k ∧ e.flag (R.ADB_CH_CFG c) F.ADB_CH_CFG_EN then e.sddHold c else e) d
    d.raiseN Pg.ADB Ev.SDC_FAULT k
  else d

/-- A write of ADB_CH_CFG (R111): while EN = 1 the other fields refuse a change. A rising EN starts the filters afresh, a
falling one stops the channel (R107, R108). -/
def Dev.adbChWrite (d : Dev) (mid c : Nat) (w : Word) : Dev :=
  let r := R.ADB_CH_CFG c
  let cur := d.reg r
  let was := d.flag r F.ADB_CH_CFG_EN
  let w' := if was then setF cur F.ADB_CH_CFG_EN (getF w F.ADB_CH_CFG_EN) else w
  let taken := d.takenAt mid r
  let no := was && setF w F.ADB_CH_CFG_EN 0 &&& 0x0FBFFFFF != setF cur F.ADB_CH_CFG_EN 0
  let d := (d.plainWrite mid r w').denyIf (taken && no) Pg.ADB
  if taken && was != d.flag r F.ADB_CH_CFG_EN then d.sddStop c else d

/-- A write of ADB_CLK (R106, R107, R111): DIV is refused while EN = 1; a stopped clock stops its channels. -/
def Dev.adbClkWrite (d : Dev) (mid k : Nat) (w : Word) : Dev :=
  let r := R.ADB_CLK k
  let was := d.flag r F.ADB_CLK_EN
  let div := d.get r F.ADB_CLK_DIV
  let no := was && getF w F.ADB_CLK_DIV != div
  let taken := d.takenAt mid r
  let d := (d.plainWrite mid r (if was then setF w F.ADB_CLK_DIV div else w)).denyIf (taken && no) Pg.ADB
  if taken && was && !d.flag r F.ADB_CLK_EN then
    forN (nSdd d.member) (fun c e => if e.get (R.ADB_CH_CFG c) F.ADB_CH_CFG_CLK = k then e.sddStop c else e) d
  else d

/-! ### Meanings -/

def execAdaSample (slice raw rawInc : Nat) (s : State) := onLive (fun d => d.adaSample slice raw rawInc) s
def execAdaResultArrival (slice : Nat) (s : State) := onLive (fun d => d.adaArrival slice) s
def execBootSliceCalibrationDone (cal : List (Int × Int)) (s : State) := onDev (fun d => d.bootCalDone cal) s
def execSliceCalibrationDone (phys : Nat) (ofs gain : Int) (s : State) := onLive (fun d => d.sliceCalDone phys ofs gain) s
def execRotationStep (s : State) := onLive (fun d => d.rotationStep) s
def execOverlapDecision (s : State) := onLive (fun d => d.overlapDecision) s
def execCalStale (slice : Nat) (s : State) := onLive (fun d => d.calStale slice) s
def execOwEvaluation (input : Nat) (s : State) := onLive (fun d => d.owEvaluation input) s
def execAdbCopyArrival (sdd : Nat) (s : State) := onLive (fun d => d.adbCopyArrival sdd) s

end Sys2Proof.Machine
end

