-- ==== Sys2Proof/Machine/Pwm.lean ====
section
/-! DEFINITION. PWM generation (chapter 10, R270 to R296): periods and load points, carrier modes, the shadow, the edge step,
edge scheduling, forced states, fine placement. Groups are numbered by group code: 0 to 11 traction, 12 to 19 auxiliary. -/

namespace Sys2Proof.Machine

/-! ### Configuration -/

def Dev.legS (d : Dev) (g x : Nat) : LegSt := spGet {} (d.grpS g).legs x
def Dev.setLeg (d : Dev) (g x : Nat) (q : LegSt) : Dev :=
  d.setGrp g { d.grpS g with legs := spPut {} (d.grpS g).legs x q }

/-- The primary of a secondary group (R278). -/
def Dev.primOf (d : Dev) (g : Nat) : Option Nat :=
  if g < 12 ∧ g % 2 = 1 ∧ bitOf (d.reg R.PWG_PAIR) (g / 2) then some (g - 1) else none

/-- The secondary of a primary group (R278). -/
def Dev.secOf (d : Dev) (g : Nat) : Option Nat :=
  if g < 12 ∧ g % 2 = 0 ∧ bitOf (d.reg R.PWG_PAIR) (g / 2) then some (g + 1) else none

/-- The other group of a pair. -/
def Dev.pairOf (d : Dev) (g : Nat) : Option Nat := (d.primOf g).orElse fun _ => d.secOf g

/-- The group whose carrier configuration a group takes (R278). -/
def Dev.cfgG (d : Dev) (g : Nat) : Nat := (d.primOf g).getD g

/-- A period register's value, clamped and evened (R294). -/
def evenTicks (x : Nat) : Nat := clampN 2000 800000 x / 2 * 2

def Dev.pwmPer (d : Dev) (g : Nat) : Nat := evenTicks (d.get (R.PWT_PER (d.cfgG g)) F.PWT_PER_PER)
def Dev.pwmMin (d : Dev) (g : Nat) : Nat := evenTicks (d.get (R.PWT_PMIN (d.cfgG g)) F.PWT_PMIN_PMIN)
def Dev.pwmMax (d : Dev) (g : Nat) : Nat := evenTicks (d.get (R.PWT_PMAX (d.cfgG g)) F.PWT_PMAX_PMAX)
def Dev.pwmMode (d : Dev) (g : Nat) : Nat := d.get (R.PWT_CTRL (d.cfgG g)) F.PWT_CTRL_MODE

/-- DBL as it is taken (R271). -/
def Dev.pwmDbl (d : Dev) (g : Nat) : Bool :=
  d.flag (R.PWT_CTRL (d.cfgG g)) F.PWT_CTRL_DBL && decide (d.pwmMode g ≤ 1)

/-- The duty source as it is taken (R278, R281). -/
def Dev.pwmDsrc (d : Dev) (g : Nat) : Bool := d.flag (R.PWT_CTRL (d.cfgG g)) F.PWT_CTRL_DSRC

def Dev.pwmEn (d : Dev) (g : Nat) : Bool := groupPresent d.member g && d.pageEn (Pg.PWT g)
def Dev.pwmRun (d : Dev) (g : Nat) : Bool := d.flag (R.PWT_STAT g) F.PWT_STAT_RUN

def Dev.legInv (d : Dev) (g x : Nat) : Bool := d.flag (R.PWT_LEG g x) F.PWT_LEG_INV

/-- Dead times in fine units: the turn-on delay of the high switch, and of the low switch. -/
def Dev.dtH (d : Dev) (g : Nat) : Int := 64 * (d.get (R.PWT_DT g) F.PWT_DT_DTH : Nat)
def Dev.dtL (d : Dev) (g : Nat) : Int := 64 * (d.get (R.PWT_DT g) F.PWT_DT_DTL : Nat)

/-- Whether an auxiliary group's legs follow the commutation table (R314). -/
def Dev.isComm (d : Dev) (g : Nat) : Bool := decide (12 ≤ g) && d.flag (R.GDA_GCFG (g - 12)) F.GDA_GCFG_CMD

/-- The commutation action of a leg under the state in force (R314). -/
def Dev.commAct (d : Dev) (g x : Nat) : Nat :=
  let code := d.get (R.GDA_COMM (g - 12)) F.GDA_COMM_CODE
  (d.reg (R.GDA_CTAB (g - 12) x)).toNat / 2 ^ (3 * code) % 8

/-! ### Edge scheduling (R286, R290, R292) -/

/-- The 4-bit reversal of a number (R290). -/
def rev4 (p : Nat) : Nat := p % 2 * 8 + p / 2 % 2 * 4 + p / 4 % 2 * 2 + p / 8 % 2

/-- The whole tick at which an edge at fine time `t` leaves (R288, R290). -/
def edgeTick (dither : Bool) (p : Nat) (t : Int) : Nat :=
  let base := (t / 64).toNat
  let q := (((t % 64) + 2) / 4).toNat
  if !dither then base else if q = 16 then base + 1 else if rev4 p < q then base + 1 else base

/-- Whether a group dithers: from the load point after a line of it failed (R289, R290). -/
def Dev.dithers (d : Dev) (g : Nat) : Bool :=
  decide (12 ≤ g) || d.flag (R.PWT_CTRL g) F.PWT_CTRL_DITH_FORCE || (d.grpS g).failD

/-- An edge as a group places it now. -/
def Dev.mkEdge (d : Dev) (g x : Nat) (hi on : Bool) (t : Int) : EdgeSt :=
  { leg := x, hi := hi, on := on, t := t, tick := edgeTick (d.dithers g) ((d.grpS g).idx % 16) t }

/-- The level of a switch once its pending edges have passed. -/
def upAfter (es : List EdgeSt) (lv : Bool) (x : Nat) (hi : Bool) : Bool :=
  match (es.filter fun e => e.leg == x && e.hi == hi).getLast? with
  | some e => e.on
  | none => lv

/-- The last turn-off of a switch, pending ones included. -/
def offAfter (es : List EdgeSt) (off : Option Int) (x : Nat) (hi : Bool) : Option Int :=
  match (es.filter fun e => e.leg == x && e.hi == hi && !e.on).getLast? with
  | some e => some e.t
  | none => off

def LegSt.lv (q : LegSt) (hi : Bool) : Bool := if hi then q.lvH else q.lvL
def LegSt.off (q : LegSt) (hi : Bool) : Option Int := if hi then q.offH else q.offL

/-- A turn-on at `t` at the earliest, the delay after the other switch's last turn-off (R286). -/
def turnOn (t : Int) (off : Option Int) (dly : Int) : Int :=
  match off with
  | none => t
  | some o => max t (o + dly)

/-- The edges of a leg replaced from fine time `t` on by a held state: 1 both off, 2 low on, 3 high on (R292). -/
def holdEdges (mk : Bool → Bool → Int → EdgeSt) (q : LegSt) (x code : Nat) (t dth dtl : Int) (es : List EdgeSt) :
    List EdgeSt :=
  let es := es.filter fun e => e.leg != x || decide (e.t < t)
  let es := if upAfter es q.lvH x true && code != 3 then es ++ [mk true false t] else es
  let es := if upAfter es q.lvL x false && code != 2 then es ++ [mk false false t] else es
  let es := if code == 2 && !upAfter es q.lvL x false then
      es ++ [mk false true (turnOn t (offAfter es q.offH x true) dtl)] else es
  if code == 3 && !upAfter es q.lvH x true then
    es ++ [mk true true (turnOn t (offAfter es q.offL x false) dth)] else es

/-- The start of an interval in which switch `a` of a leg is on (R286): an interval that begins where the last one ends joins
it without an edge. `dA`, `dB` are the turn-on delays of that switch and of the other. -/
def riseEdges (mk : Bool → Bool → Int → EdgeSt) (q : LegSt) (x : Nat) (a both : Bool) (rise dA dB : Int)
    (es : List EdgeSt) : List EdgeSt :=
  if es.any (fun e => e.leg == x && e.hi == a && !e.on && e.t == rise) then
    es.filter fun e => !(e.leg == x && ((e.hi == a && !e.on && e.t == rise) || (e.hi != a && e.on && e.t == rise + dB)))
  else
    let es := es.filter fun e => !(e.leg == x && e.hi != a && e.on && decide (rise ≤ e.t))
    let es := if upAfter es (q.lv !a) x !a && both then es ++ [mk (!a) false rise] else es
    let t := max rise ((offAfter es (q.off !a) x !a).getD rise) + dA
    if upAfter es (q.lv a) x a then es else es ++ [mk a true t]

/-- The end of that interval (R286): a switch that would turn on at its end or later does not turn on at all. -/
def fallEdges (mk : Bool → Bool → Int → EdgeSt) (q : LegSt) (x : Nat) (a both : Bool) (fall dB : Int)
    (es : List EdgeSt) : List EdgeSt :=
  let es := es.filter fun e => !(e.leg == x && e.hi == a && e.on && decide (fall ≤ e.t))
  let es := if upAfter es (q.lv a) x a then es ++ [mk a false fall] else es
  if both && !upAfter es (q.lv !a) x !a then es ++ [mk (!a) true (fall + dB)] else es

/-- A stepped leg at a valley `t`, outside its interval (R286): an inner switch that is still on without an end, as after a LIMIT trip
(R287), goes off, and the outer one is on, or off where the leg does not follow with both. -/
def settleEdges (mk : Bool → Bool → Int → EdgeSt) (q : LegSt) (x : Nat) (a both : Bool) (t dB : Int) (es : List EdgeSt) :
    List EdgeSt :=
  let es := if upAfter es (q.lv a) x a then es ++ [mk a false t] else es
  let outer := upAfter es (q.lv !a) x !a
  if both && !outer then es ++ [mk (!a) true (turnOn t (offAfter es (q.off a) x a) dB)]
  else if !both && outer then
    (es.filter fun e => !(e.leg == x && e.hi != a && e.on && decide (t ≤ e.t))) ++ [mk (!a) false t]
  else es

/-! ### The edge step (R282, R283, R285) -/

/-- A requested duty, clamped to 0 to 1 (R282). -/
def dutyOf (v : Int × Int) : Frac := Frac.clamp ⟨0, 1⟩ ⟨1, 1⟩ (bfVal v.1 v.2)

/-- Whether the clamp acts. -/
def dutyClamped (v : Int × Int) : Bool :=
  let x := bfVal v.1 v.2
  x.lt ⟨0, 1⟩ || Frac.lt ⟨1, 1⟩ x

/-- The nearest integer, ties upward (R274). -/
def Frac.roundUp (a : Frac) : Int := (2 * a.num + a.den) / (2 * a.den : Nat)

/-- The valley step of R283: the width, the carry, whether the policy acts. -/
def valleyStep (pol : Nat) (mp dth dtl pf h carry : Int) : Int × Int × Bool :=
  let drop := pol == 0 || pol == 3
  let w := 2 * h + carry
  let (c, w) := if w < 0 then (w, 0) else if w > pf then (w - pf, pf) else (0, w)
  if w > 0 ∧ w - dth < mp then
    if pol = 1 then (mp + dth, c, true) else (0, if drop then c + w else c, true)
  else if w < pf ∧ pf - w - dtl < mp then
    if pol = 1 then (pf - mp - dtl, c, true) else (pf, if drop then c - (pf - w) else c, true)
  else (w, c, false)

/-- The peak step of R285: the width, the carry, whether the clamp acts. -/
def peakStep (pol : Nat) (mp dth dtl pf hp : Int) (q : LegSt) (h2 carry : Int) : Int × Int × Bool :=
  let drop := pol == 0 || pol == 3
  if 0 < q.w ∧ q.w < pf then
    let b := (q.w - q.a) + (h2 - q.h)
    let lo := max (mp + dth - q.a) 0
    let hi := min hp (pf - q.a - mp - dtl)
    let b2 := clampI lo hi b
    (q.a + b2, if drop then carry + (b - b2) else carry, decide (b ≠ b2))
  else (q.w, if drop then carry + (h2 - q.h) else carry, false)

def Dev.carry (d : Dev) (g x : Nat) : Int := sext 32 (d.reg (R.PWT_CARRY g x)).toNat
def Dev.setCarry (d : Dev) (g x : Nat) (c : Int) : Dev := d.setReg (R.PWT_CARRY g x) (wordOfInt c)

/-- A carry bounded to one period; a bound that acts is shown (R283). -/
def Dev.boundCarry (d : Dev) (g x : Nat) (c pf : Int) : Dev :=
  let d := d.setCarry g x (clampI (-pf) pf c)
  if c < -pf ∨ pf < c then (d.putB (R.PWT_STAT g) F.PWT_STAT_CARRY_LIM true).raiseN (Pg.PWT g) Ev.PWM_CARRY_LIM g else d

/-- The high interval a leg's step fixes for its coming update period (R283, R285), without edges: the leg's record, carry
and whether the policy acted. `peak` says which step runs; `dx` is the captured duty. -/
def Dev.stepLeg (d : Dev) (g x : Nat) (peak : Bool) (dx : Frac) : Dev :=
  let r := d.grpS g
  let q := d.legS g x
  let pf : Int := 64 * (r.p : Int)
  let hp := pf / 2
  let v : Int := 64 * (r.v : Int)
  let mp : Int := 64 * (d.get (R.PWT_MINP g) F.PWT_MINP_MINP : Nat)
  let pol := d.get (R.PWT_CTRL g) F.PWT_CTRL_POLICY
  let dx := if d.legInv g x then (Frac.ofInt 1).sub dx else dx
  let h := (dx.mul (Frac.ofInt hp)).roundUp
  let c0 := d.carry g x
  if peak then
    let (w, c, acted) := peakStep pol mp (d.dtH g) (d.dtL g) pf hp q h c0
    let rise := v + hp - q.a
    (d.setLeg g x { q with w := w, c0 := c0, rise := rise, fall := rise + w, acted := acted }).boundCarry g x c pf
  else
    let (w, c, acted) := valleyStep pol mp (d.dtH g) (d.dtL g) pf h c0
    let a := (w + 1) / 2
    let rise := v + hp - a
    (d.setLeg g x { q with h := h, w := w, a := a, c0 := c0, rise := rise, fall := rise + w, acted := acted }).boundCarry
      g x c pf

/-- A group's edges replaced. -/
def Dev.setEdges (d : Dev) (g : Nat) (es : List EdgeSt) : Dev := d.setGrp g { d.grpS g with edges := es }

/-- The switch of a leg that is on in the interval the step fixes: the high one, the low one with INV (R291). -/
def Dev.stepSw (d : Dev) (g x : Nat) : Bool := !d.legInv g x || d.isComm g

/-- The turn-on delay of a switch (R286). -/
def Dev.dtOf (d : Dev) (g : Nat) (hi : Bool) : Int := if hi then d.dtH g else d.dtL g

/-- The leg whose step a leg's switches follow: leg U in a commutated group (R314). -/
def Dev.srcLeg (d : Dev) (g x : Nat) : Nat := if d.isComm g then 0 else x

/-- A leg's action at stage 1 (R314): a stepped leg follows its step with both switches. -/
def Dev.legAct (d : Dev) (g x : Nat) : Nat := if d.isComm g then d.commAct g x else 1

/-- The held state of an action that does not follow the step (R314): LOW, HIGH, else OFF. -/
def actHold (act : Nat) : Nat := if act = 3 then 2 else if act = 4 then 3 else 1

/-- The edges of an interval that a capture places for a leg (R283, R285, R286). -/
def Dev.legEdges (d : Dev) (g x : Nat) (peak both : Bool) (es : List EdgeSt) : List EdgeSt :=
  let q := d.legS g x
  let u := d.legS g (d.srcLeg g x)
  let a := d.stepSw g x
  let mk := d.mkEdge g x
  let dB := d.dtOf g !a
  let es := if peak then es else settleEdges mk q x a both (64 * ((d.grpS g).v : Int)) dB es
  let live := decide (0 < u.w)
  let es := if live && !peak then riseEdges mk q x a both u.rise (d.dtOf g a) dB es else es
  if live && (peak || !d.pwmDbl g) then fallEdges mk q x a both u.fall dB es else es

/-- Whether the valley that comes has been captured. -/
def Dev.valleyCaptured (d : Dev) (g : Nat) : Bool :=
  (d.grpS g).capd && (match (d.grpS g).load with
    | some (_, pk) => !pk
    | none => false)

/-- Whether the end of the interval last fixed is known: with DBL the peak's capture fixes it (R285). -/
def Dev.fallFixed (d : Dev) (g : Nat) : Bool :=
  !d.pwmDbl g || (match (d.grpS g).load with
    | some (_, pk) => (d.grpS g).capd == pk
    | none => true)

/-- The edges of an interval `u` from fine time `t` on, for a leg in whatever state it is (R286). -/
def Dev.fromEdges (d : Dev) (g x : Nat) (u : LegSt) (both fixed : Bool) (t : Int) (es : List EdgeSt) : List EdgeSt :=
  let q := d.legS g x
  let a := d.stepSw g x
  let mk := d.mkEdge g x
  let hold (c : Nat) : List EdgeSt := holdEdges mk q x c t (d.dtH g) (d.dtL g) es
  let on := if a then 3 else 2
  let off := if both then (if a then 2 else 3) else 1
  let fin (l : List EdgeSt) : List EdgeSt := if fixed then fallEdges mk q x a both u.fall (d.dtOf g !a) l else l
  if 0 < u.w ∧ t < u.fall then
    if u.rise ≤ t then fin (hold on)
    else fin (riseEdges mk q x a both u.rise (d.dtOf g a) (d.dtOf g !a) (hold off))
  else hold off

/-- The interval in which a leg runs: where the coming valley has been captured, the one before it. -/
def Dev.nowLeg (d : Dev) (g x : Nat) : LegSt :=
  if d.valleyCaptured g then spGet {} (d.grpS g).legs0 x else d.legS g x

/-- A leg's edges with those of the coming period, where that has been captured. -/
def Dev.thenNext (d : Dev) (g x : Nat) (es : List EdgeSt) : List EdgeSt :=
  let act := d.legAct g x
  if d.valleyCaptured g && decide (act = 1 ∨ act = 2) then d.legEdges g x false (act == 1) es else es

/-- The edges of a leg that takes its stage 1 command from fine time `t` on (R283, R314). -/
def Dev.cmdEdges (d : Dev) (g x : Nat) (t : Int) (es : List EdgeSt) : List EdgeSt :=
  let act := d.legAct g x
  if act = 1 ∨ act = 2 then
    if d.valleyCaptured g && decide (t < 64 * ((d.grpS g).v : Int)) then
      d.thenNext g x (d.fromEdges g x (d.nowLeg g (d.srcLeg g x)) (act == 1) true t es)
    else d.fromEdges g x (d.legS g (d.srcLeg g x)) (act == 1) (d.fallFixed g) t es
  else holdEdges (d.mkEdge g x) (d.legS g x) x (actHold act) t (d.dtH g) (d.dtL g) es

/-- The edges of a leg that takes its command of stages 1 and 2 from fine time `t` on: a group action, a forced state or its
stage 1 command (R292, R297, R310). -/
def Dev.ownEdges (d : Dev) (g x : Nat) (t : Int) (es : List EdgeSt) : List EdgeSt :=
  let q := d.legS g x
  let hold (c : Nat) : List EdgeSt := holdEdges (d.mkEdge g x) q x c t (d.dtH g) (d.dtL g) es
  if (d.grpS g).asc then hold 2
  else if q.force ≠ 0 then hold q.force
  else if (d.grpS g).vec.isSome then d.cmdEdges g x t es
  else es

/-- Whether a leg follows its step: neither forced nor held by a group action (R292, R310). -/
def Dev.legFree (d : Dev) (g x : Nat) : Bool := (d.legS g x).fNext == 0 && !(d.grpS g).asc

/-- Whether a leg's captured duty is stepped (R292, R308, R314): not while a forced state governs; of a commutated group, leg
U's for the chop signal. -/
def Dev.stepsLeg (d : Dev) (g x : Nat) : Bool := if d.isComm g then x == 0 else (d.legS g x).fNext == 0

/-- The steps of every leg for the captured vector (R283, R285, R314). -/
def Dev.stepLegs (d : Dev) (g : Nat) (peak : Bool) (vec : List (Int × Int)) : Dev :=
  forN 3 (fun x e => if e.stepsLeg g x then e.stepLeg g x peak (dutyOf (nthD (0, 0) vec x)) else e) d

/-- Whether a forced state ends at the load point that is captured (R292). -/
def Dev.forceEnds (d : Dev) (g x : Nat) : Bool := d.legFree g x && (d.legS g x).force != 0

/-- The edges a capture places for a leg: those of its step; from the load point `lo` on its command where a forced state ends there, or
the held state of its action. -/
def Dev.placeLeg (d : Dev) (g x : Nat) (peak : Bool) (lo : Int) : Dev :=
  if !d.legFree g x then d
  else
    let act := d.legAct g x
    let es := (d.grpS g).edges
    d.setEdges g (if (act = 1 ∨ act = 2) ∧ d.forceEnds g x = false then d.legEdges g x peak (act == 1) es else d.cmdEdges g x lo es)

/-- A forced state that ends while no vector has entered leaves both switches off (R273, R282). -/
def Dev.unforce (d : Dev) (g x : Nat) (lo : Int) : Dev :=
  if d.forceEnds g x then
    d.setEdges g (holdEdges (d.mkEdge g x) (d.legS g x) x 1 lo (d.dtH g) (d.dtL g) (d.grpS g).edges)
  else d

/-- The step and the edges of every leg for the vector captured for the load point at fine time `lo` (R283, R285, R314). -/
def Dev.stepGroup (d : Dev) (g : Nat) (peak : Bool) (lo : Int) : Dev :=
  match (d.grpS g).vec with
  | none => forN 3 (fun x e => e.unforce g x lo) d
  | some vec => forN 3 (fun x e => e.placeLeg g x peak lo) (d.stepLegs g peak vec)

/-- A vector enters a group's shadow (R280, R282). A group that is not enabled discards it (R273). -/
def Dev.enterVec (d : Dev) (g : Nat) (vec : List (Int × Int)) : Dev :=
  if !d.pwmEn g then d
  else
    let d := if vec.any dutyClamped then
        (d.putB (R.PWT_STAT g) F.PWT_STAT_DCLAMP true).raiseN (Pg.PWT g) Ev.PWM_DCLAMP g else d
    let d := d.putB (R.PWT_STAT g) F.PWT_STAT_VALID true
    d.setGrp g { d.grpS g with nextVec := some (vec, d.gtc), comm := some vec, commIdx := 0 }

/-! ### Carrier modes (R274 to R276) -/

/-- The valley angle A_j (R275). -/
def valleyAngle (th0 np : Nat) (j : Int) : Nat := wrap40 ((th0 * 2 ^ 20 + (j % (np : Int)).toNat * 2 ^ 40 / np : Nat) : Int)

/-- The valley index just beyond an angle in direction `s` (R276); `rel` is the angle less that of valley 0. -/
def indexBeyond (np rel : Nat) (s : Int) : Int :=
  let at1 (j : Nat) : Nat := j * 2 ^ 40 / np
  let j0 := rel * np / 2 ^ 40
  if 0 < s then
    if rel < at1 j0 then j0 else if rel < at1 (j0 + 1) then (j0 + 1 : Nat) else (j0 + 2 : Nat)
  else if at1 (j0 + 1) < rel then (j0 + 1 : Nat) else if at1 j0 < rel then (j0 : Int) else (j0 : Int) - 1

/-- The search of R276: from index `j` on, the distance found, the index after it, and how many were passed over. An angle
further than a turn is met by going on into the following turns (log entry 23, DEDUCED). -/
def angleSearch (th0 np theta : Nat) (s : Int) (need : Nat) : Nat → Int → Nat → Nat × Int × Nat
  | 0, j, k => (need, j, k)
  | fuel + 1, j, k =>
    let dj := wrap40 (s * ((valleyAngle th0 np j : Int) - (theta : Int))) + k / np * 2 ^ 40
    if need ≤ dj then (dj, j + s, k) else angleSearch th0 np theta s need fuel (j + s) (k + 1)

/-- Lock or unlock of a group, shown in both groups of a pair (R275). -/
def Dev.setLock (d : Dev) (g : Nat) (on : Bool) : Dev :=
  let d := d.putB (R.PWT_STAT g) F.PWT_STAT_ALOCKED on
  let d := match d.secOf g with
    | some s => d.putB (R.PWT_STAT s) F.PWT_STAT_ALOCKED on
    | none => d
  d.raiseN (Pg.PWT g) (if on then Ev.PWM_ALK_ON else Ev.PWM_ALK_OFF) g

/-- P_k of a locked group (R276). -/
def Dev.lockedPeriod (d : Dev) (g k : Nat) : Nat × Dev :=
  let r := d.grpS g
  let v := (d.trkS k).spd
  let np := max (d.get (R.PWT_ALK g) F.PWT_ALK_NP) 1
  let th0 := d.get (R.PWT_ALK_TH g) F.PWT_ALK_TH_TH0
  let (dj, j, n) := angleSearch th0 np (d.trkP k) r.lockDir (d.pwmMin g * v.natAbs) (8 * np) r.lockJ 0
  let d := d.setGrp g { d.grpS g with lockJ := j }
  let d := d.addSat (R.PWT_CNT g) F.PWT_CNT_SKIP_CNT n
  let d := forN n (fun _ e => e.raiseN (Pg.PWT g) Ev.PWM_ALK_SKIP g) d
  let p := (2 * (Frac.mk dj (2 * v.natAbs)).roundUp).toNat
  if p > d.pwmMax g then
    (d.pwmMax g, (d.putB (R.PWT_STAT g) F.PWT_STAT_ALK_CLAMP true).raiseN (Pg.PWT g) Ev.PWM_ALK_CLAMP g)
  else (p, d)

/-- P_k in ANGLE mode: lock, unlock, period (R275, R276). -/
def Dev.anglePeriod (d : Dev) (g : Nat) : Nat × Dev :=
  let k := d.get (R.PWT_ALK g) F.PWT_ALK_TRK
  let v := (d.trkS k).spd
  let valid := decide (k < nTracks) && d.trkValid k
  let off := (d.reg (R.PWT_ALK_OFF g)).toNat
  let on := max (d.reg (R.PWT_ALK_ON g)).toNat off
  let s : Int := if v < 0 then -1 else 1
  if !d.flag (R.PWT_STAT g) F.PWT_STAT_ALOCKED then
    if valid && v != 0 && decide (on ≤ v.natAbs) then
      let d := d.setLock g true
      let np := max (d.get (R.PWT_ALK g) F.PWT_ALK_NP) 1
      let rel := wrap40 ((d.trkP k : Int) - (d.get (R.PWT_ALK_TH g) F.PWT_ALK_TH_TH0 * 2 ^ 20 : Nat))
      let d := d.setGrp g { d.grpS g with lockDir := s, lockJ := indexBeyond np rel s }
      d.lockedPeriod g k
    else (d.pwmPer g, d)
  else if !valid || decide (v.natAbs < off) || v == 0 || s != (d.grpS g).lockDir then (d.pwmPer g, d.setLock g false)
  else d.lockedPeriod g k

/-- The duty of the reference leg (R274). -/
def Dev.refDuty (d : Dev) (g : Nat) (vec : List (Int × Int)) : Frac :=
  let ds := vec.map dutyOf
  let a := nthD ⟨0, 1⟩ ds 0
  let b := nthD ⟨0, 1⟩ ds 1
  let c := nthD ⟨0, 1⟩ ds 2
  let r := d.get (R.PWT_CTRL g) F.PWT_CTRL_REF
  if r = 1 then a else if r = 2 then b else if r = 3 then c
  else if d.pwmMode g = 2 then (a.max b).max c else (a.min b).min c

/-- P_k as the carrier mode fixes it at a capture tick (R274). -/
def Dev.fixPeriod (d : Dev) (g : Nat) : Nat × Dev :=
  let m := d.pwmMode g
  if m = 1 then d.anglePeriod g
  else
    let d := if d.flag (R.PWT_STAT g) F.PWT_STAT_ALOCKED then d.setLock g false else d
    if m = 0 then (d.pwmPer g, d)
    else match (d.grpS g).vec with
      | none => (d.pwmMax g, d)
      | some vec =>
        let dr := d.refDuty g vec
        let x := if m = 2 then dr else (Frac.ofInt 1).sub dr
        if x.isZero then (d.pwmMax g, d)
        else
          let t : Int := (d.get (R.PWT_TCON g) F.PWT_TCON_TCON : Nat)
          (clampN (d.pwmMin g) (d.pwmMax g) (2 * ((Frac.ofInt t).div (x.mul (Frac.ofInt 2))).roundUp).toNat, d)

/-! ### Captures and load points (R270 to R272, R280) -/

/-- Carrier events announced; those too old to be counted by any slot are dropped (R75). -/
def Dev.announce (d : Dev) (g : Nat) (l : List (Nat × Nat)) : Dev :=
  let r := d.grpS g
  d.setGrp g { r with evs := (r.evs.filter fun e => decide (d.gtc ≤ e.2 + 2 ^ 20 + 16)) ++ l }

/-- The events a captured valley fixes (R272). -/
def Dev.announceValley (d : Dev) (g v p : Nat) : Dev :=
  let dbl := d.pwmDbl g
  let peak := [(1, v + p / 2)] ++ (if dbl then [(2, v + p / 2)] else [])
  d.announce g (if (d.primOf g).isSome then peak else peak ++ [(0, v + p), (2, v + p)])

/-- The target period of a speculation whose load point was not yet fixed gets it (R226, log entry 300). -/
def Dev.fixTarget (d : Dev) (g l : Nat) : Dev :=
  forN (nCtx d.member) (fun c e =>
    let s := e.ctxS c
    if s.tgt.any (fun t => t.grp == g && t.load == 0) then
      e.setCtx c { s with tgt := s.tgt.map fun t => if t.grp = g ∧ t.load = 0 then { t with load := l } else t }
    else e) d

/-- A primary's valley gives its secondary's (R272, R278): it is announced as soon as the secondary is enabled and starts no
later. -/
def Dev.secValley (d : Dev) (g v p : Nat) : Dev :=
  match d.secOf g with
  | none => d
  | some s =>
    let o := (2 * (Frac.mk (d.get (R.PWG_POFS (g / 2)) F.PWG_POFS_OFS * p : Nat) (2 ^ 17)).roundUp).toNat
    let r := d.grpS s
    let t := v + o
    let d := d.setGrp s { r with vq := (r.vq.filter fun e => decide (d.gtc ≤ e.1)) ++ [(t, p)] }
    if !d.pwmEn s || (r.load.isNone && !d.pwmRun s && decide (t < r.enAt + 16)) then d
    else
      let d := if r.load.isNone then d.setGrp s { d.grpS s with load := some (t, false) } else d
      (d.announce s [(0, t), (2, t)]).fixTarget s t

/-- Which forced state governs from the coming load point, for every leg (R292). -/
def Dev.captureForce (d : Dev) (g : Nat) : Dev :=
  forN 3 (fun x e =>
    let q := e.legS g x
    match q.fPend with
    | some (c, t) => if t < e.gtc then e.setLeg g x { q with fNext := c, fPend := none } else e
    | none => e) d

/-- The vector that governs from the coming load point (R226, R280): one that entered by L − 9, or the provisional one, or
the one in force. -/
def Dev.takeVec (d : Dev) (g l : Nat) (prov : Option (List (Int × Int))) : Dev :=
  let r := d.grpS g
  match r.nextVec with
  | some (v, t) =>
    if t + 9 ≤ l then d.setGrp g { r with vec := some v, nextVec := none, commIdx := if r.commIdx = 0 then r.idx + 1 else r.commIdx }
    else match prov with
      | some p => d.setGrp g { r with vec := some p }
      | none => d
  | none => match prov with
    | some p => d.setGrp g { r with vec := some p }
    | none => d

/-- The earliest edge of a capture (R228): the first of the edges it added, else the load point that ends the period. -/
def firstEdge (before after : List EdgeSt) (fin : Nat) : Nat :=
  ((after.filter fun e => !before.contains e).map fun e => (e.t / 64).toNat).foldl min fin

/-- The load point that ends the update period beginning at a captured load point. -/
def Dev.periodEnd (d : Dev) (g : Nat) (peak : Bool) : Nat :=
  let r := d.grpS g
  if d.pwmDbl g && !peak then r.v + r.p / 2 else r.v + r.p

/-- MINP_CNT and PWM_MINP of an update period (R283). -/
def Dev.minpCount (d : Dev) (g : Nat) (before : List Bool) : Dev :=
  let now := (List.range 3).map fun x => (d.legS g x).acted
  let fresh := (List.range 3).any fun x => nthD false now x && !nthD false before x
  let d := if now.any id then d.bump (R.PWT_CNT g) F.PWT_CNT_MINP_CNT else d
  d.raiseNIf fresh (Pg.PWT g) Ev.PWM_MINP g

/-- Whether a group's coming load point is to be captured now. -/
def Dev.captureDue (d : Dev) (g : Nat) : Option (Nat × Bool) :=
  let r := d.grpS g
  match r.load with
  | some (l, pk) => if d.pwmEn g && !d.frozen (Pg.PWT g) && !r.capd && decide (l ≤ d.gtc + 8) then some (l, pk) else none
  | none => none

/-- The period a secondary's valley brings with it (R278). -/
def secPeriod (dflt l : Nat) (q : List (Nat × Nat)) : Nat :=
  match q.find? (fun e => e.1 == l) with
  | some e => e.2
  | none => dflt

/-- The period that begins at a captured valley (R274, R278). -/
def Dev.periodAt (d : Dev) (g l : Nat) : Nat × Dev :=
  if (d.primOf g).isSome then (secPeriod (d.pwmPer g) l (d.grpS g).vq, d) else d.fixPeriod g

/-- The assessment that awaited the end of a speculation is counted (R230). -/
def Dev.minpFlush (d : Dev) (g : Nat) : Dev :=
  match (d.grpS g).minpDue with
  | some before => (d.setGrp g { d.grpS g with minpDue := none }).minpCount g before
  | none => d

/-- The capture for load point `l` (R274, R280, R283, R285), with a provisional vector where one is due (R226). While a
speculation may still replace the vector (`open1`), the policy's assessment waits (R230). -/
def Dev.capture (d : Dev) (g l : Nat) (peak : Bool) (prov : Option (List (Int × Int))) (open1 : Bool) : Dev :=
  let d := ((d.minpFlush g).captureForce g).takeVec g l prov
  let d := d.setGrp g { d.grpS g with idx := (d.grpS g).idx + 1, capd := true }
  let d :=
    if peak then d
    else
      let (p, d) := d.periodAt g l
      let d := d.setGrp g { d.grpS g with v := l, p := p }
      (d.announceValley g l p).secValley g l p
  let before := (d.grpS g).edges
  let acted := (List.range 3).map fun x => (d.legS g x).acted
  let lim := d.flag (R.PWT_STAT g) F.PWT_STAT_CARRY_LIM
  let d := d.setGrp g { d.grpS g with legs0 := (d.grpS g).legs, minpOld := acted }
  let d := forN 3 (fun x e => e.setLeg g x { e.legS g x with acted := false }) d
  let d := d.stepGroup g peak (64 * (l : Int))
  let d := d.setGrp g { d.grpS g with limNew := d.flag (R.PWT_STAT g) F.PWT_STAT_CARRY_LIM && !lim }
  let d := if open1 then d.setGrp g { d.grpS g with minpDue := some acted } else d.minpCount g acted
  d.setGrp g { d.grpS g with eMin := firstEdge before (d.grpS g).edges (d.periodEnd g peak) }

/-- A leg's record as it was before its last step (R230): interval, policy and carry. -/
def Dev.unstep (d : Dev) (g x : Nat) : Dev :=
  let q := d.legS g x
  let o := spGet {} (d.grpS g).legs0 x
  (d.setLeg g x { q with h := o.h, w := o.w, a := o.a, rise := o.rise, fall := o.fall, acted := false }).setCarry g x q.c0

/-- The on-time of an interval in [`s`, `t`). -/
def LegSt.onTime (q : LegSt) (s t : Int) : Int := if 0 < q.w then max 0 (min q.fall t - max q.rise s) else 0

/-- The volt-seconds that a late vector's interval asks for from the load point `st` to the tick `t16` from which it governs,
less those the leg has had under the interval `was` that it replaces (R229). -/
def lateError (was now : LegSt) (st t16 : Int) : Int :=
  now.onTime st t16 - (if 0 < was.w ∧ was.rise ≤ st ∧ st < was.fall then t16 - st else 0)

/-- PWT_ACTx (R282). -/
def Dev.showAct (d : Dev) (g : Nat) : Dev :=
  match (d.grpS g).vec with
  | none => d
  | some vec => forN 3 (fun x e =>
      e.setReg (R.PWT_ACT g x) (wordMant (((dutyOf (nthD (0, 0) vec x)).shl 18).roundUp))) d

/-- The assessment of the vector now in force where that of the replaced one has been counted (R230): MINP_CNT is taken back and counted
anew; PWM_MINP, once raised, stands (log entry 337). -/
def Dev.minpRedo (d : Dev) (g : Nat) (was : List Bool) : Dev :=
  let old := (d.grpS g).minpOld
  let fresh (l : List Bool) : Bool := (List.range 3).any fun x => nthD false l x && !nthD false old x
  let d := if was.any id then d.unbump (R.PWT_CNT g) F.PWT_CNT_MINP_CNT else d
  d.minpCount g (if fresh was then [true, true, true] else old)

/-- A vector that replaces the captured one through the late-load path (R229, R230): the step runs again from the state it
began with; edges before the present tick + 16 are placed there, and under DROP_CARRY the error is carried. A group that is not enabled
discards it (R273). -/
def Dev.lateLoad (d : Dev) (g : Nat) (vec : List (Int × Int)) (peak : Bool) : Dev :=
  if !d.pwmEn g then d else
  let r := d.grpS g
  let acted := (List.range 3).map fun x => (d.legS g x).acted
  let t16 : Int := 64 * ((d.gtc + 16 : Nat) : Int)
  let pf : Int := 64 * (r.p : Int)
  let st : Int := 64 * (r.v : Int) + (if peak then pf / 2 else 0)
  let d := if vec.any dutyClamped then
      (d.putB (R.PWT_STAT g) F.PWT_STAT_DCLAMP true).raiseN (Pg.PWT g) Ev.PWM_DCLAMP g else d
  let d := d.putB (R.PWT_STAT g) F.PWT_STAT_VALID true
  let d := d.setGrp g { d.grpS g with vec := some vec, nextVec := none, comm := some vec, commIdx := r.idx }
  let d := if r.limNew then d.putB (R.PWT_STAT g) F.PWT_STAT_CARRY_LIM false else d
  let d := (forN 3 (fun x e => if e.stepsLeg g x then e.unstep g x else e) d).stepLegs g peak vec
  let d := if r.minpDue.isSome then d.minpFlush g else d.minpRedo g acted
  let d := if r.capd then d else d.showAct g
  let d := forN 3 (fun x e => if e.legFree g x then e.setEdges g (e.cmdEdges g x t16 (e.grpS g).edges) else e) d
  let drop := d.get (R.PWT_CTRL g) F.PWT_CTRL_POLICY == 0 || d.get (R.PWT_CTRL g) F.PWT_CTRL_POLICY == 3
  let err (e : Dev) (x : Nat) : Int :=
    if e.stepsLeg g x && e.legFree g x then lateError (spGet {} r.legs x) (e.legS g x) st t16 else 0
  let any := (List.range 3).any fun x => err d x != 0
  let d := if drop then forN 3 (fun x e => if err e x = 0 then e else e.boundCarry g x (e.carry g x + err e x) pf) d else d
  d.raiseNIf any Pg.LEC Ev.SPEC_EDGE_CLIP g

/-- FORCED of PWT_STAT. -/
def Dev.showForced (d : Dev) (g : Nat) : Dev :=
  d.put (R.PWT_STAT g) F.PWT_STAT_FORCED
    ((List.range 3).foldl (fun n x => if (d.legS g x).force = 0 then n else n + 2 ^ x) 0)

/-- A forced state takes effect on a leg at fine time `t` (R292); a leg that a group action holds stays held (R310). -/
def Dev.applyForce (d : Dev) (g x code : Nat) (t : Int) : Dev :=
  let q := d.legS g x
  let d := if code = 0 then d.setLeg g x { q with force := 0, fNext := 0 }
    else
      let d := (d.setLeg g x { q with force := code, fNext := code }).setCarry g x 0
      d.setEdges g (d.ownEdges g x t (d.grpS g).edges)
  d.showForced g

/-- The load point after the present one (R270, R271, R278). -/
def Dev.nextLoad (d : Dev) (g : Nat) (peak : Bool) : Option (Nat × Bool) :=
  let r := d.grpS g
  if d.pwmDbl g && !peak then some (r.v + r.p / 2, true)
  else match d.primOf g with
    | some _ => (r.vq.find? (fun (e : Nat × Nat) => decide (r.v < e.1))).map (fun (e : Nat × Nat) => (e.1, false))
    | none => some (r.v + r.p, false)

/-- Whether the present tick is a group's captured load point. -/
def Dev.loadDue (d : Dev) (g : Nat) : Option Bool :=
  let r := d.grpS g
  match r.load with
  | some (l, pk) => if d.pwmEn g && r.capd && decide (l ≤ d.gtc) then some pk else none
  | none => none

/-- DITHER and the group's bit of PWG_DITH. -/
def Dev.putDither (d : Dev) (g : Nat) (b : Bool) : Dev :=
  (d.putB (R.PWT_STAT g) F.PWT_STAT_DITHER b).setReg R.PWG_DITH
    (if b then d.reg R.PWG_DITH ||| bitWord g else d.reg R.PWG_DITH &&& ~~~ bitWord g)

/-- DITH_FORCE makes a traction group dither at once, and lets it go where no line has failed (R289, log entry 27, DEDUCED). A
group that begins to dither raises PWM_DITHER (R293). -/
def Dev.forceDither (d : Dev) (g : Nat) : Dev :=
  if 12 ≤ g then d
  else
    let was := d.flag (R.PWT_STAT g) F.PWT_STAT_DITHER
    (d.putDither g (d.dithers g)).raiseNIf (d.dithers g && !was) (Pg.PWT g) Ev.PWM_DITHER g

/-- The failure of a line takes effect at the load point (R289): DITHER is shown, and the edges that follow are placed by
dithering. -/
def Dev.showDither (d : Dev) (g : Nat) : Dev :=
  let r := d.grpS g
  if 12 ≤ g ∨ r.failD ∨ !bitOf (d.reg R.PWG_DL_STAT) g then d
  else
    let es := r.edges.map fun e => if e.t < 64 * (d.gtc : Int) then e else { e with tick := edgeTick true (r.idx % 16) e.t }
    ((d.setGrp g { r with failD := true, edges := es }).putDither g true).raiseN (Pg.PWT g) Ev.PWM_DITHER g

/-- The pin that carries a switch command, and the command that a pin carries (R291). -/
def Dev.pinSw (d : Dev) (g x : Nat) (hi : Bool) : Bool := if d.flag (R.PWT_LEG g x) F.PWT_LEG_SWAP then !hi else hi

/-- The tap of an output's placing line for an edge at fine time `t` (R288); 0 where the group dithers. -/
def Dev.edgeTap (d : Dev) (g x : Nat) (hi : Bool) (t : Int) : Nat :=
  let q := d.dlS (6 * g + 2 * x + b2n !(d.pinSw g x hi))
  if d.dithers g then 0 else nthD 0 (if q.line = 0 then q.tab0 else q.tab1) (t % 64).toNat

/-- An edge leaves through its output's delay line, delayed by that tap (R288). -/
def Dev.placeTap (d : Dev) (g x : Nat) (hi : Bool) (t : Int) : Dev :=
  let o := 6 * g + 2 * x + b2n !(d.pinSw g x hi)
  if 12 ≤ g then d else d.setDl o { d.dlS o with tap := d.edgeTap g x hi t }

/-- Exchange of an output's delay lines at a load point (R288). Output `o` is 6g + 2x + s. -/
def Dev.dlExchange (d : Dev) (g x s : Nat) : Dev :=
  let o := 6 * g + 2 * x + s
  let q := d.dlS o
  let near := (d.grpS g).edges.any fun e =>
    e.leg == x && d.pinSw g x e.hi == (s == 0) && decide (e.t < 64 * ((d.gtc + 64 : Nat) : Int))
  let other := 1 - q.line
  let ready := if other = 0 then q.cal0 && !q.bad0 else q.cal1 && !q.bad1
  if d.flag R.PWG_DL_CTRL F.PWG_DL_CTRL_BG_EN && !near && ready && decide (q.last + 400000 ≤ d.gtc) then
    d.setDl o { q with line := other, last := d.gtc, cal0 := other == 0 && q.cal0, cal1 := other == 1 && q.cal1 }
  else d

def Dev.dlExchangeAll (d : Dev) (g : Nat) : Dev :=
  if 12 ≤ g then d else forN 6 (fun i e => e.dlExchange g (i / 2) (i % 2)) d

/-- The generator's part of a load point (R270, R280, R282, R288, R292). -/
def Dev.loadPoint (d : Dev) (g : Nat) (peak : Bool) : Dev :=
  let r := d.grpS g
  let d := d.showAct g
  let d := if peak then d
    else (d.put (R.PWT_PERIOD g) F.PWT_PERIOD_P r.p).setReg (R.PWT_VALLEY g) (BitVec.ofNat 32 r.v)
  let d := forN 3 (fun x e =>
    let q := e.legS g x
    let e := e.setLeg g x { q with wait := false }
    if q.fNext = q.force then e else e.applyForce g x q.fNext (64 * (e.gtc : Int))) d
  let d := (d.showDither g).dlExchangeAll g
  d.setGrp g { d.grpS g with load := d.nextLoad g peak, capd := false }

/-! ### Starting and stopping (R273, R278, R284, R296, R301) -/

/-- The first failing check of an enable; 0 where none fails (R296, R301). -/
def Dev.enableCause (d : Dev) (g : Nat) : Nat :=
  let mode := d.pwmMode g
  let need := 2 * (d.get (R.PWT_MINP g) F.PWT_MINP_MINP
    + max (d.get (R.PWT_DT g) F.PWT_DT_DTH) (d.get (R.PWT_DT g) F.PWT_DT_DTL))
  let per := d.pwmPer g
  let trk := d.get (R.PWT_ALK (d.cfgG g)) F.PWT_ALK_TRK
  let n := g - 12
  let rel := (List.range 3).any fun x =>
    if g < 12 then d.flag (R.GDT_LSTAT g) (F.GDT_LSTAT_REL x) else d.flag (R.GDA_LSTAT n) (F.GDA_LSTAT_REL x)
  let pos := d.get (R.GDA_GCFG n) F.GDA_GCFG_POS
  let hall := decide (12 ≤ g) && d.flag (R.GDA_GCFG n) F.GDA_GCFG_CMD && d.flag (R.GDA_GCFG n) F.GDA_GCFG_COMM_SRC
  if d.pwmMin g < need ∨ (mode ≤ 1 ∧ per < need) then 1
  else if d.pwmMax g < d.pwmMin g ∨ per < d.pwmMin g ∨ d.pwmMax g < per then 2
  else if mode = 1 ∧ (nTracks ≤ trk ∨ d.trkSrc trk = 0) then 3
  else if (match d.primOf g with
      | some p => !d.pwmEn p
      | none => false) then 4
  else if rel then 5
  else if hall && (decide (nPos d.member ≤ pos) || d.get (R.POS_CFG pos) F.POS_CFG_MODE != 2) then 6
  else if decide (12 ≤ g) && !d.flag R.GDA_STAT F.GDA_STAT_VGD_OK then 7
  else 0

/-- V_0 of a group on its own carrier (R273). -/
def firstValley (now per phase : Nat) : Nat :=
  let t := now + 16
  let ph := phase % per
  t + (ph + per - t % per) % per

/-- The record of a group whose enable is accepted (R273, R278). -/
def Dev.groupStartRec (d : Dev) (g : Nat) : Dev :=
  let r := d.grpS g
  let r0 : GrpSt := { legs := r.legs, edges := r.edges, vq := r.vq, enAt := d.gtc, waitAt := r.waitAt, rdyAcc := r.rdyAcc,
                      shut := r.shut, chkAt := r.chkAt, armOld := r.armOld, asc := r.asc, failD := r.failD }
  match d.primOf g with
  | some _ =>
    let l := r.vq.filter fun e => decide (d.gtc + 16 ≤ e.1)
    (d.setGrp g { r0 with load := l.head?.map fun e => (e.1, false) }).announce g (l.flatMap fun e => [(0, e.1), (2, e.1)])
  | none =>
    let v := firstValley d.gtc (d.pwmPer g) (d.get (R.PWT_PHASE g) F.PWT_PHASE_PHASE)
    (d.setGrp g { r0 with load := some (v, false) }).announce g [(0, v), (2, v)]

/-- The effect of an accepted write of PG_CTRL.EN = 1 (R273, R296). -/
def Dev.groupEnable (d : Dev) (g : Nat) : Dev :=
  let a := R.PWT_STAT g
  let c := d.enableCause g
  if c ≠ 0 then ((d.putB a F.PWT_STAT_CFG_ERR true).put a F.PWT_STAT_CAUSE c).raiseN (Pg.PWT g) Ev.PWM_CFG_ERR g
  else
    let d := (d.putB a F.PWT_STAT_CFG_ERR false).put a F.PWT_STAT_CAUSE 0
    let d := (d.putB a F.PWT_STAT_VALID false).putB (R.PG_CTRL (Pg.PWT g)) F.PG_CTRL_EN true
    d.groupStartRec g

/-- PWM_GROUP_START (R273): RUN reads 1 from V_0. -/
def Dev.pwmStart (d : Dev) (g : Nat) : Dev :=
  match (d.grpS g).load with
  | some (l, false) => if d.pwmEn g && decide (l ≤ d.gtc) then d.putB (R.PWT_STAT g) F.PWT_STAT_RUN true else d
  | _ => d

/-- One group stops (R273): every switch is commanded off 4 ticks later; shadow, carries and pending forced states are discarded.
A forced state that was in effect governs again from the next V_0 (log entry 301). -/
def Dev.groupStop (d : Dev) (g : Nat) : Dev :=
  let a := R.PWT_STAT g
  let t : Int := 64 * ((d.gtc + 4 : Nat) : Int)
  let d := d.putB (R.PG_CTRL (Pg.PWT g)) F.PG_CTRL_EN false
  let d := ((d.putB a F.PWT_STAT_RUN false).putB a F.PWT_STAT_VALID false).putB a F.PWT_STAT_ALOCKED false
  let d := forN 3 (fun x e =>
    let q := e.legS g x
    let e := e.setEdges g (holdEdges (e.mkEdge g x) q x 1 t (e.dtH g) (e.dtL g) (e.grpS g).edges)
    let keep := if q.force ≠ 0 ∧ q.fPend = none ∧ q.imm = none then some (q.force, e.gtc) else none
    (e.setLeg g x { lvH := q.lvH, lvL := q.lvL, offH := q.offH, offL := q.offL, wait := q.wait, relAt := q.relAt,
                    causeAt := q.causeAt, limH := q.limH, limL := q.limL, pinH := q.pinH, pinL := q.pinL, fPend := keep }).setCarry g x 0) d
  let r := d.grpS g
  let d := d.setGrp g { legs := r.legs, edges := r.edges, vq := r.vq, offAt := some (d.gtc + 4), waitAt := r.waitAt,
                        rdyAcc := r.rdyAcc, shut := r.shut, chkAt := r.chkAt, armOld := r.armOld, failD := r.failD }
  let d := if g < 12 then d.putB (R.GDT_LSTAT g) F.GDT_LSTAT_GACT false
    else d.putB (R.GDA_LSTAT (g - 12)) F.GDA_LSTAT_GACT false
  d.showForced g

/-- A group stops, with its secondary, whose coming valleys of this run are no more (R278). -/
def Dev.groupDisable (d : Dev) (g : Nat) : Dev :=
  let s := d.secOf g
  let d := d.groupStop g
  match s with
  | some s =>
    let d := if d.pwmEn s then d.groupStop s else d
    d.setGrp s { d.grpS s with vq := [] }
  | none => d

/-! ### Writes (R279, R281, R292) -/

/-- A write of PWT_STAGEx: refused while duties come from the engines (R281). -/
def Dev.stageWrite (d : Dev) (mid g x : Nat) (w : Word) : Dev :=
  if d.pwmDsrc g && groupPresent d.member g then d.deny (Pg.PWT g) else d.mantWrite mid (R.PWT_STAGE g x) w

/-- The staged duties. -/
def Dev.staged (d : Dev) (g : Nat) : List (Int × Int) := (List.range 3).map fun x => (mantW (d.reg (R.PWT_STAGE g x)), 1)

/-- A write of PWT_COMMIT (R281): refused while duties come from the engines; GO moves the staged duties into the shadow. -/
def Dev.commitWrite (d : Dev) (mid g : Nat) (w : Word) : Dev :=
  let a := R.PWT_COMMIT g
  if d.pwmDsrc g && groupPresent d.member g then d.deny (Pg.PWT g)
  else
    let taken := d.takenAt mid a
    let d := d.plainWrite mid a w
    if taken && bitOf w 0 then
      let late := d.pwmEn g && (match (d.grpS g).load with
        | some (l, _) => decide (l ≤ d.gtc + 8)
        | none => false)
      (if late then d.putB (R.PWT_STAT g) F.PWT_STAT_LATE true else d).enterVec g (d.staged g)
    else d

/-- A write of PWT_LEGx (R292): a forced state waits for a load point, or takes effect 4 ticks later with IMM; in a group that is
not enabled it waits for V_0. -/
def Dev.legForceWrite (d : Dev) (mid g x : Nat) (w : Word) : Dev :=
  let a := R.PWT_LEG g x
  let taken := d.takenAt mid a
  let d := d.plainWrite mid a w
  if !taken || !groupPresent d.member g then d
  else
    let code := d.get a F.PWT_LEG_FORCE
    let q := d.legS g x
    if d.pwmEn g && d.flag a F.PWT_LEG_IMM && code != 0 then d.setLeg g x { q with imm := some (code, d.gtc + 4), fPend := none }
    else d.setLeg g x { q with fPend := some (code, d.gtc), imm := none }

/-- FORCE_IMMEDIATE (R292). -/
def Dev.forceImmediate (d : Dev) (g x : Nat) : Dev :=
  let q := d.legS g x
  match q.imm with
  | some (c, t) =>
    if t ≤ d.gtc then (d.setLeg g x { q with imm := none }).applyForce g x c (64 * (d.gtc : Int)) else d
  | none => d

/-- Whether a master owns both groups of a pair and neither runs (R279). -/
def Dev.pairOk (d : Dev) (mid j : Nat) : Bool :=
  d.pageOwner (Pg.PWT (2 * j)) == mid && d.pageOwner (Pg.PWT (2 * j + 1)) == mid && !d.pwmEn (2 * j) && !d.pwmEn (2 * j + 1)

/-- A write of PWG_PAIR (R278, R279): each bit is a field of its own, RWC, that takes the write of the master R279 names. The write
is refused where no bit takes it, or one that does not would change (R25, log entry 8). -/
def Dev.pairWrite (d : Dev) (mid : Nat) (w : Word) : Dev :=
  let cur := d.reg R.PWG_PAIR
  let n := nPairs d.member
  let ok (j : Nat) : Bool := d.inConfigure && d.pairOk mid j
  let bits := List.range n
  let bad := !bits.any ok || bits.any fun j => !ok j && bitOf w j != bitOf cur j
  let d := if w.toNat % 64 / 2 ^ n = 0 then d else d.absentWrite mid Pg.PWG
  let new := bits.foldl (fun r j => if ok j then (if bitOf w j then r ||| bitWord j else r &&& ~~~ bitWord j) else r) cur
  (d.setReg R.PWG_PAIR new).denyIf bad Pg.PWG

/-- A write of PWG_POFSj (R279). -/
def Dev.pofsWrite (d : Dev) (mid j : Nat) (w : Word) : Dev :=
  if nPairs d.member ≤ j then d.absentWrite mid Pg.PWG
  else if d.inConfigure && d.pairOk mid j then d.put (R.PWG_POFS j) F.PWG_POFS_OFS (w.toNat % 65536)
  else d.deny Pg.PWG

/-! ### Delay lines (R288, R289) -/

/-- The delay of the first `n` elements, in femtoseconds. -/
def tapDelay (elems : List Nat) (n : Nat) : Nat := (elems.take n).sum

/-- The tap count whose delay lies nearest to `f` fine units of 39,062.5 fs (R288). -/
def nearestTap (elems : List Nat) (f : Nat) : Nat :=
  let err (n : Nat) : Nat := (2 * (tapDelay elems n : Int) - (78125 * f : Nat)).natAbs
  (List.range (elems.length + 1)).foldl (fun b n => if err n < err b then n else b) 0

/-- The calibration table (R288). -/
def dlTable (elems : List Nat) : List Nat := (List.range 64).map (nearestTap elems)

/-- Whether a calibrated line fails (R289): its elements span less than a tick, or two adjacent entries differ by more than
1.5 or less than 0.5 fine units. -/
def dlBad (elems : List Nat) : Bool :=
  let t := dlTable elems
  decide (elems.sum < 2500000) || (List.range 63).any fun i =>
    let x := 4 * ((tapDelay elems (nthD 0 t (i + 1)) : Int) - (tapDelay elems (nthD 0 t i) : Int))
    decide (x > 3 * 78125) || decide (x < 78125)

/-- A line fails (R289). -/
def Dev.dlFail (d : Dev) (o line : Nat) : Dev :=
  let q := d.dlS o
  let d := d.setDl o (if line = 0 then { q with bad0 := true } else { q with bad1 := true })
  let d := d.orReg (R.PWG_DL_FAIL0 + 4 * (o / 32)) (bitWord (o % 32))
  (d.orReg R.PWG_DL_STAT (bitWord (o / 6))).raiseN Pg.PWG Ev.PWM_DL_FAIL o

/-- Whether every present line has been calibrated or has failed. -/
def Dev.dlAllDone (d : Dev) : Bool :=
  (List.range (6 * nTraction d.member)).all fun o =>
    let q := d.dlS o
    (q.bad0 || q.tab0 != []) && (q.bad1 || q.tab1 != [])

def Dev.dlBootDone (d : Dev) : Dev := if d.dlAllDone then d.putB R.PWG_DL_STAT F.PWG_DL_STAT_BOOT_DONE true else d

/-- Whether a line can be the subject of a calibration: its output is present, it has not failed, and it does not place
edges, or the device boots (R288). -/
def Dev.dlCalOk (d : Dev) (o line : Nat) : Bool :=
  let q := d.dlS o
  decide (o < 6 * nTraction d.member) && decide (line < 2) && !(if line = 0 then q.bad0 else q.bad1)
    && (d.devState == DS.BOOT || (line != q.line && d.flag R.PWG_DL_CTRL F.PWG_DL_CTRL_BG_EN))

/-- DL_CALIBRATION_DONE (R288, R289): `elems` are the delays of the line's elements in femtoseconds. -/
def Dev.dlCalDone (d : Dev) (o line : Nat) (elems : List Nat) : Dev :=
  if !d.dlCalOk o line then d
  else if dlBad elems then (d.dlFail o line).dlBootDone
  else
    let q := d.dlS o
    let t := dlTable elems
    (d.setDl o (if line = 0 then { q with tab0 := t, cal0 := true } else { q with tab1 := t, cal1 := true })).dlBootDone

/-- DL_CALIBRATION_TIMEOUT (R289). -/
def Dev.dlTimeout (d : Dev) (o line : Nat) : Dev := if d.dlCalOk o line then (d.dlFail o line).dlBootDone else d

/-! ### Meanings -/

def execPwmGroupStart (grp : Nat) (s : State) := onPart (fun d => d.clocked (Pg.PWT grp) fun d => d.pwmStart grp) s
def execForceImmediate (grp leg : Nat) (s : State) := onPart (fun d => d.clocked (Pg.PWT grp) fun d => d.forceImmediate grp leg) s
def execDlCalibrationDone (out line : Nat) (elems : List Nat) (s : State) := onDev (fun d => d.clocked Pg.PWG fun d => d.dlCalDone out line elems) s
def execDlCalibrationTimeout (out line : Nat) (s : State) := onDev (fun d => d.clocked Pg.PWG fun d => d.dlTimeout out line) s

end Sys2Proof.Machine
end

