-- ==== Sys2Proof/Machine/GateDrive.lean ====
section
/-! DEFINITION. Gate drive and leg protection (chapter 11, R297 to R323): enables, ready and fault inputs, leg release and
group action, clearing, the auxiliary pre-drivers' commutation, bootstrap and gate supply. -/

namespace Sys2Proof.Machine

/-! ### Registers of a group by its code -/

def gdLstat (g : Nat) : Nat := if g < 12 then R.GDT_LSTAT g else R.GDA_LSTAT (g - 12)
def gdArm (g : Nat) : Nat := if g < 12 then R.GDT_ARM g else R.GDA_ARM (g - 12)
def gdLcmd (g : Nat) : Nat := if g < 12 then R.GDT_LCMD g else R.GDA_LCMD (g - 12)
def gdPage (g : Nat) : Nat := if g < 12 then Pg.GDT else Pg.GDA

/-- An event of a group, with its flag (R321). -/
def Dev.gdEvent (d : Dev) (g src : Nat) : Dev :=
  (if g < 12 then d.orReg R.GDT_FLAG (bitWord g) else d.orReg R.GDA_FLAG (bitWord (g - 12))).raiseN (gdPage g) src g

def Dev.legReleased (d : Dev) (g x : Nat) : Bool := d.flag (gdLstat g) (F.GDT_LSTAT_REL x)
def Dev.groupActs (d : Dev) (g : Nat) : Bool := d.flag (gdLstat g) F.GDT_LSTAT_GACT

/-! ### Enables (R41, R302, R303) -/

/-- Channel P's enable of a group as commanded (R322, R323). -/
def Dev.genP (d : Dev) (g : Nat) : Bool :=
  if g < 12 then d.flag (R.GDT_PINS g) F.GDT_PINS_GENP_CMD else bitOf (d.reg R.GDA_STAT) (g - 12)

/-- Channel M's enable of a group as it drives it. -/
def Dev.genM (d : Dev) (g : Nat) : Bool :=
  if g < 12 then d.flag (R.GDT_PINS g) F.GDT_PINS_GENM_PIN else bitOf (d.reg R.GDA_STAT) (g - 12 + 8)

/-- Whether a traction group's enable pins follow their commands: they are driven low up to READY, and while the group does not run or
has no vector (R298). -/
def Dev.enOpen (d : Dev) (g : Nat) : Bool :=
  decide (12 ≤ g) || (decide (DS.READY < d.devState) && !d.sys.vddioLow && d.pwmRun g && d.flag (R.PWT_STAT g) F.PWT_STAT_VALID)

/-- The enables of a group at their pins, or at their lanes. -/
def Dev.pinP (d : Dev) (g : Nat) : Bool := d.genP g && d.enOpen g
def Dev.pinM (d : Dev) (g : Nat) : Bool := d.genM g && d.enOpen g

def Dev.drdy (d : Dev) (g : Nat) : Bool := d.flag (R.GDT_PINS g) F.GDT_PINS_DRDY

def setBit (w : Word) (i : Nat) (b : Bool) : Word := if b then w ||| bitWord i else w &&& ~~~ bitWord i

/-- Whether stage 5 holds a traction group off (R302): from Channel P's commanding its enable high while DRDYgg reads low, and
after a ready wait that expired until the enable falls. -/
def Dev.nrdy (d : Dev) (g : Nat) : Bool :=
  decide (g < 12) && d.flag (R.GDT_GCFG g) F.GDT_GCFG_DRDY_EN && d.genP g && ((d.grpS g).shut || !d.drdy g)

/-- The removal check begins when an enable reads low while the driver still reports ready (R303). -/
def Dev.beginCheck (d : Dev) (g : Nat) : Dev :=
  let r := d.grpS g
  if d.flag (R.GDT_GCFG g) F.GDT_GCFG_ENA_CHK && d.drdy g && r.chkAt.isNone then d.setGrp g { r with chkAt := some d.gtc }
  else d

/-- Channel P's enable of a group commanded (R302): a rise begins the ready wait. -/
def Dev.setGenP (d : Dev) (g : Nat) (b : Bool) : Dev :=
  if !groupPresent d.member g || d.genP g == b then d
  else if 12 ≤ g then d.setReg R.GDA_STAT (setBit (d.reg R.GDA_STAT) (g - 12) b)
  else
    let a := R.GDT_PINS g
    let d := (d.putB a F.GDT_PINS_GENP_CMD b).putB a F.GDT_PINS_GENP_PIN b
    if b then
      let wait := d.nrdy g
      d.setGrp g { d.grpS g with waitAt := if wait then some d.gtc else none, rdyAcc := !wait, shut := wait }
    else (d.setGrp g { d.grpS g with waitAt := none, rdyAcc := false, shut := false }).beginCheck g

/-- Channel M's enable of a group commanded. -/
def Dev.setGenM (d : Dev) (g : Nat) (b : Bool) : Dev :=
  if !groupPresent d.member g || d.genM g == b then d
  else if 12 ≤ g then d.setReg R.GDA_STAT (setBit (d.reg R.GDA_STAT) (g - 12 + 8) b)
  else
    let d := d.putB (R.GDT_PINS g) F.GDT_PINS_GENM_PIN b
    if b then d else d.beginCheck g

/-- A group stops by a write (R273), and its enable pins fall (R298, R303). -/
def Dev.groupOff (d : Dev) (g : Nat) : Dev :=
  let low := (g :: (d.secOf g).toList).filter fun h => decide (h < 12) && (d.pinP h || d.pinM h)
  low.foldl (fun e h => e.beginCheck h) (d.groupDisable g)

/-- Every enable of a channel dropped (R36, R38, R44). -/
def Dev.dropAllP (d : Dev) : Dev := forN 20 (fun g e => e.setGenP g false) d
def Dev.dropAllM (d : Dev) : Dev := forN 20 (fun g e => e.setGenM g false) d

/-! ### Release of a leg (R308 to R310) -/

/-- The counter of releases by one sort of cause (R322, R323): FLT, or the two supplies. -/
def relCnt (g : Nat) : Nat × RField := if g < 12 then (R.GDT_CNT g, F.GDT_CNT_FLT_CNT) else (R.GDA_CNT (g - 12), F.GDA_CNT_SUP_CNT)
def relCounts (g cause : Nat) : Bool := if g < 12 then cause == 2 else cause == 7 || cause == 8

/-- Whether a cause replaces the one kept for a leg: of several registered in one tick the lowest code is kept (R309). -/
def Dev.retakes (d : Dev) (g x cause : Nat) : Bool :=
  d.legReleased g x && (d.legS g x).relAt == d.gtc + 1 && decide (cause < d.get (gdLstat g) (F.GDT_LSTAT_CAUSE x))

/-- A lower cause of the tick of a release in the place of the one kept: CAUSE, the counter and the record follow it. -/
def Dev.recause (d : Dev) (g x cause : Nat) : Dev :=
  let a := gdLstat g
  let c := relCnt g
  let was := d.get a (F.GDT_LSTAT_CAUSE x)
  let d := if relCounts g was && !relCounts g cause then d.unbump c.1 c.2
    else if relCounts g cause && !relCounts g was then d.bump c.1 c.2 else d
  let d := d.recAmend { ty := 0x21, res := 4 * g + x, tick := d.gtc, data := [BitVec.ofNat 32 cause] }
  d.put a (F.GDT_LSTAT_CAUSE x) cause

/-- One leg released (R309): the first cause is kept, of several in one tick the lowest code. The tick of the latest cause is
kept for a clear in it (R312). -/
def Dev.relLeg (d : Dev) (g x cause : Nat) : Dev :=
  let a := gdLstat g
  let d := d.setLeg g x { d.legS g x with causeAt := d.gtc + 1 }
  if d.legReleased g x then (if d.retakes g x cause then d.recause g x cause else d)
  else
    let d := (d.putB a (F.GDT_LSTAT_REL x) true).put a (F.GDT_LSTAT_CAUSE x) cause
    let d := d.setLeg g x { d.legS g x with relAt := d.gtc + 1 }
    let d := if g < 12 then d.bump (R.GDT_CNT g) F.GDT_CNT_REL_CNT else d.bump (R.GDA_CNT (g - 12)) F.GDA_CNT_REL_CNT
    let d := if relCounts g cause then d.bump (relCnt g).1 (relCnt g).2 else d
    let d := d.emitProt { ty := 0x21, res := 4 * g + x, tick := d.gtc, data := [BitVec.ofNat 32 cause] }
    d.gdEvent g Ev.LEG_REL

/-- The legs of a mask released. -/
def Dev.relMask (d : Dev) (g mask cause : Nat) : Dev :=
  forN 3 (fun x e => if mask / 2 ^ x % 2 = 1 then e.relLeg g x cause else e) d

/-- ACT as it stood at the start of the present tick (R310). -/
def Dev.armedAct (d : Dev) (g : Nat) : Nat :=
  match (d.grpS g).armOld with
  | some (t, a) => if t = d.gtc then a else d.get (gdArm g) F.GDT_ARM_ACT
  | none => d.get (gdArm g) F.GDT_ARM_ACT

/-- A held leg of an ASC (R310): high switch off, low switch on. -/
def Dev.ascLeg (d : Dev) (g x : Nat) : Dev :=
  if d.legReleased g x then d
  else d.setEdges g (d.ownEdges g x (64 * (d.gtc : Int)) (d.grpS g).edges)

/-- The group action applied (R310). -/
def Dev.groupAction (d : Dev) (g act : Nat) : Dev :=
  let show1 (e : Dev) (h : Nat) : Dev := (e.putB (gdLstat h) F.GDT_LSTAT_GACT true).gdEvent h Ev.GRP_ACT
  if act = 1 then
    let d := (show1 d g).setGrp g { (show1 d g).grpS g with asc := true }
    forN 3 (fun x e => e.ascLeg g x) d
  else if act = 2 then (show1 d g).relMask g 7 9
  else if act = 3 then
    let d := (show1 d g).relMask g 7 9
    match d.pairOf g with
    | some h => (if d.groupActs h then d else show1 d h).relMask h 7 9
    | none => d
  else d

/-- Legs of a group released for a cause (R309, R310): the first release of a group in which no action is in effect applies
the group's action, except for the causes GROUP, SOFT and DEVICE; a release that takes its cause in the same tick from such a one is that
cause's. -/
def Dev.release (d : Dev) (g mask cause : Nat) : Dev :=
  let new := (List.range 3).any fun x => mask / 2 ^ x % 2 == 1 && (!d.legReleased g x || d.retakes g x cause)
  let act := d.armedAct g
  let none0 := !d.groupActs g
  let d := d.relMask g mask cause
  if new && none0 && decide (cause ≤ 8) && act != 0 then d.groupAction g act else d

/-- Every leg of every present group released for a device fault (R36, R309). -/
def Dev.releaseAll (d : Dev) : Dev :=
  forN 20 (fun g e => if groupPresent e.member g then e.relMask g 7 0xB else e) d

/-! ### Inputs (R302 to R307) -/

/-- DRDY_READY (R302): DRDYgg is accepted high; it ends a ready wait that has not yet lasted its limit. -/
def Dev.drdyReady (d : Dev) (g : Nat) : Dev :=
  if !(decide (g < 12) && groupPresent d.member g) then d
  else
    let r := d.grpS g
    let lim := 4000 * max (d.get (R.GDT_GCFG g) F.GDT_GCFG_DRDY_TOUT) 1
    let d := d.putB (R.GDT_PINS g) F.GDT_PINS_DRDY true
    match r.waitAt with
    | some t =>
      if t + lim < d.gtc then d
      else
        let d := d.setGrp g { d.grpS g with waitAt := none, rdyAcc := true, shut := false }
        if t + lim = d.gtc then d.zeroSlack 4 g else d
    | none => d.setGrp g { d.grpS g with rdyAcc := d.genP g && !(d.grpS g).shut }

/-- DRDY_TOUT (R302): the wait has lasted too long; the gate stays closed. Answers whether it did. -/
def Dev.drdyTout (d : Dev) (g : Nat) : Option Dev :=
  match (d.grpS g).waitAt with
  | some t =>
    if t + 4000 * max (d.get (R.GDT_GCFG g) F.GDT_GCFG_DRDY_TOUT) 1 ≤ d.gtc then
      some ((d.setGrp g { d.grpS g with waitAt := none }).gdEvent g Ev.DRDY_TOUT)
    else none
  | none => none

/-- DRDYgg is accepted low (R303): a loss during a grant releases every leg; the removal check is satisfied. -/
def Dev.drdyFall (d : Dev) (g : Nat) : Dev :=
  if !(decide (g < 12) && groupPresent d.member g) then d
  else
    let lost := (d.grpS g).rdyAcc && d.genP g && d.flag (R.GDT_GCFG g) F.GDT_GCFG_DRDY_EN
    let d := d.putB (R.GDT_PINS g) F.GDT_PINS_DRDY false
    let d := d.setGrp g { d.grpS g with rdyAcc := false, chkAt := none }
    if lost then (d.release g 7 5).gdEvent g Ev.DRDY_LOST else d

/-- ENA_CHK_FAIL (R303): DRDYgg is still high after ENA_OFF. -/
def Dev.enaChkFail (d : Dev) (g : Nat) : Dev :=
  match (d.grpS g).chkAt with
  | some t =>
    if t + 400 * max (d.get (R.GDT_GCFG g) F.GDT_GCFG_ENA_OFF) 1 ≤ d.gtc ∧ d.drdy g then
      ((d.setGrp g { d.grpS g with chkAt := none }).release g 7 6).gdEvent g Ev.ENA_CHK_FAIL
    else d
  | none => d

/-- LEG_FLT (R304): a level of FLTgg_x passes the filter; an active one releases the leg (log entry 24, DEDUCED). -/
def Dev.legFlt (d : Dev) (g x : Nat) (act : Bool) : Dev :=
  if !(decide (g < 12) && groupPresent d.member g && decide (x < 3)) then d
  else
    let d := d.setReg (R.GDT_PINS g) (setBit (d.reg (R.GDT_PINS g)) (24 + x) act)
    if act then (d.release g (2 ^ x) 2).gdEvent g Ev.LEG_FLT else d

/-- A write of GDT_GCFG (R304): a new active level is compared with the accepted levels of the fault inputs at once. -/
def Dev.gcfgWrite (d : Dev) (mid g : Nat) (w : Word) : Dev :=
  let a := R.GDT_GCFG g
  let pol := d.flag a F.GDT_GCFG_FLT_POL
  let d := d.plainWrite mid a w
  if d.flag a F.GDT_GCFG_FLT_POL = pol then d
  else forN 3 (fun x e => e.legFlt g x (!bitOf (e.reg (R.GDT_PINS g)) (24 + x))) d

/-- LEG_SHOOT (R306). -/
def Dev.legShoot (d : Dev) (g x : Nat) : Dev :=
  if groupPresent d.member g ∧ x < 3 then (d.release g (2 ^ x) 1).gdEvent g Ev.LEG_SHOOT else d

/-- LEG_OUT_RB (R307): not compared while the leg is released. -/
def Dev.legOutRb (d : Dev) (g x : Nat) : Dev :=
  if groupPresent d.member g ∧ x < 3 ∧ !d.legReleased g x then (d.release g (2 ^ x) 4).gdEvent g Ev.LEG_OUT_RB else d

/-! ### Comparators routed to a leg (R144, R150 to R152, R311) -/

/-- Whether a comparator's route names a leg; a LIMIT comparator acts on the lowest group alone (R150, R151). -/
def Dev.cmpRoutes (d : Dev) (c g x : Nat) : Bool :=
  let r := d.reg (R.CMP_ROUTE c)
  let protect := d.flag (R.CMP_CFG c) F.CMP_CFG_CLASS
  let lowest := !(List.range g).any fun h => bitOf r h
  bitOf r g && bitOf r (24 + x) && (protect || lowest)

/-- Whether a PROTECT comparator routed to a leg forbids its clearing (R311). -/
def Dev.cmpBlocksClear (d : Dev) (g x : Nat) : Bool :=
  (List.range (nCmp d.member)).any fun c =>
    d.flag (R.CMP_CFG c) F.CMP_CFG_CLASS && d.cmpRoutes c g x
      && (d.flag (R.CMP_STAT c) F.CMP_STAT_LATCHED || d.flag (R.CMP_STAT c) F.CMP_STAT_STARTING)

/-- Whether a comparator in its start-up holds a switch off (R144). -/
def Dev.startHold (d : Dev) (g x : Nat) (hi : Bool) : Bool :=
  (List.range (nCmp d.member)).any fun c =>
    let sw := d.get (R.CMP_ROUTE c) F.CMP_ROUTE_SW_SEL
    d.flag (R.CMP_STAT c) F.CMP_STAT_STARTING && d.cmpRoutes c g x
      && (d.flag (R.CMP_CFG c) F.CMP_CFG_CLASS || sw == 2 || sw == 3 || (sw == 0 && hi) || (sw == 1 && !hi))

/-! ### The output chain (R297, R298) -/

/-- Whether a group's pins follow its switches (R298): it runs with a vector, or its stop is not 4 ticks old (R273), and the
device is beyond READY, with VDDIO valid (R499). -/
def Dev.pinsFollow (d : Dev) (g : Nat) : Bool :=
  decide (DS.READY < d.devState) && !d.sys.vddioLow && ((d.pwmRun g && d.flag (R.PWT_STAT g) F.PWT_STAT_VALID) || (match (d.grpS g).offAt with
    | some t => decide (d.gtc < t)
    | none => false))

/-- The level of a switch output after stage 8 (R297, R298): swap, ready gate, trip force-off, start-up hold, release. -/
def Dev.pinOut (d : Dev) (g x : Nat) (hi : Bool) : Bool :=
  let q := d.legS g x
  q.lv (d.pinSw g x hi) && d.pinsFollow g && !q.wait && !d.nrdy g && !(if hi then q.limH else q.limL)
    && !d.startHold g x hi && !d.legReleased g x && !(decide (12 ≤ g) && !(d.genP g && d.genM g))

/-- GDT_PINS as it reads (R322). -/
def Dev.gdtPinsWord (d : Dev) (g : Nat) : Word :=
  let w := setF (setF (d.reg (R.GDT_PINS g)) F.GDT_PINS_GENP_PIN (b2n (d.pinP g))) F.GDT_PINS_GENM_PIN (b2n (d.pinM g))
  setF w F.GDT_PINS_OUT
    ((List.range 6).foldl (fun n i => if d.pinOut g (i / 2) (i % 2 == 0) then n + 2 ^ (5 - i) else n) 0)

/-- GDT_LSTAT as it reads (R322). -/
def Dev.gdtLstatWord (d : Dev) (g : Nat) : Word := setF (d.reg (R.GDT_LSTAT g)) F.GDT_LSTAT_NRDY (b2n (d.nrdy g))

/-- The tick at which an edge reaches its output (R290): an auxiliary one crosses the link, whose dropped frame is sent again
(R35). -/
def Dev.edgeDue (d : Dev) (g : Nat) (e : EdgeSt) : Nat := if 12 ≤ g then d.linkTick e.tick else e.tick

/-- One due edge of a switch: its level after dead time and its last turn-off, and the tap of its delay line (R288). A high side
that falls due while its bootstrap is low does not turn on (R319). A group that stands still keeps its levels (R27). -/
def Dev.takeEdge (d : Dev) (g x : Nat) (hi : Bool) : Option Dev :=
  let r := d.grpS g
  match r.edges.find? (fun e => e.leg == x && e.hi == hi && decide (d.edgeDue g e ≤ d.gtc) && !d.frozen (Pg.PWT g)) with
  | none => none
  | some e =>
    let q := d.legS g x
    let low := decide (12 ≤ g) && d.pinSw g x hi && e.on && d.flag (gdLstat g) (F.GDA_LSTAT_UV x)
    let q := if hi then { q with lvH := e.on && !low, offH := if e.on then q.offH else some e.t }
      else { q with lvL := e.on && !low, offL := if e.on then q.offL else some e.t }
    let d := d.setGrp g { r with edges := r.edges.erase e }
    some ((d.setLeg g x q).placeTap g x hi e.t)

/-! ### Clearing (R311, R312) -/

/-- The action of a group ends when every leg has been cleared (R310); legs that it held take their own command again. -/
def Dev.endAction (d : Dev) (g : Nat) : Dev :=
  if (List.range 3).any (fun x => d.legReleased g x) then d
  else
    let was := (d.grpS g).asc
    let d := (d.setGrp g { d.grpS g with asc := false }).putB (gdLstat g) F.GDT_LSTAT_GACT false
    if was then forN 3 (fun x e => e.setEdges g (e.ownEdges g x (64 * (e.gtc : Int)) (e.grpS g).edges)) d else d

/-- Whether the clear of a leg is accepted now (R311). -/
def Dev.clearOk (d : Dev) (g x : Nat) : Bool :=
  let inputs := if g < 12 then !bitOf (d.reg (R.GDT_PINS g)) (24 + x)
    else !d.flag (gdLstat g) (F.GDA_LSTAT_UV x) && d.flag R.GDA_STAT F.GDA_STAT_VGD_OK
  !d.genP g && inputs && !d.cmpBlocksClear g x && d.devState != DS.FATAL && (d.legS g x).causeAt != d.gtc + 1

/-- One leg's clear (R311); an action that stays in effect holds it as every unreleased leg (R310). -/
def Dev.clearLeg (d : Dev) (g x : Nat) : Dev :=
  if !d.legReleased g x then d
  else if d.clearOk g x then
    let d := (d.putB (gdLstat g) (F.GDT_LSTAT_REL x) false).put (gdLstat g) (F.GDT_LSTAT_CAUSE x) 0
    let d := (d.setLeg g x { d.legS g x with wait := true }).endAction g
    if (d.grpS g).asc then d.ascLeg g x else d
  else (d.putB (gdLstat g) (F.GDT_LSTAT_CLR_FAIL x) true).gdEvent g Ev.REL_CLR_FAIL

def Dev.clearMask (d : Dev) (g mask : Nat) : Dev :=
  forN 3 (fun x e => if mask / 2 ^ x % 2 = 1 then e.clearLeg g x else e) d

/-- A write of LCMD (R309, R311): soft releases first, then clears. -/
def Dev.lcmdWrite (d : Dev) (mid g : Nat) (w : Word) : Dev :=
  let a := gdLcmd g
  let taken := d.takenAt mid a
  let d := d.plainWrite mid a w
  if taken then (d.relMask g (getF w F.GDT_LCMD_REL) 0xA).clearMask g (getF w F.GDT_LCMD_CLR) else d

/-- A write of ARM: what ACT was before the present tick is kept for a release in it (R310, R312). -/
def Dev.armWrite (d : Dev) (mid g : Nat) (w : Word) : Dev :=
  let a := gdArm g
  let old := d.armedAct g
  let taken := d.takenAt mid a
  let d := d.plainWrite mid a w
  if taken then d.setGrp g { d.grpS g with armOld := some (d.gtc, old) } else d

/-! ### Commutated command (R314, R315) -/

/-- A leg takes its action of the state in force at fine time `t` (R314). -/
def Dev.commLeg (d : Dev) (g x : Nat) (t : Int) : Dev :=
  if d.legFree g x then d.setEdges g (d.cmdEdges g x t (d.grpS g).edges) else d

/-- The commutation state of an auxiliary group changes (R315): the leg actions reach the gates 7 ticks later, one tick to
stage 3 and 6 over the link. -/
def Dev.commSet (d : Dev) (n code : Nat) : Dev :=
  let g := n + 12
  let d := d.put (R.GDA_COMM n) F.GDA_COMM_CODE code
  if d.pwmEn g && (d.grpS g).vec.isSome then forN 3 (fun x e => e.commLeg g x (64 * ((d.gtc + 7 : Nat) : Int))) d else d

/-- The Hall code that an interface has accepted (R163, R315). -/
def Dev.hallCode (d : Dev) (n : Nat) : Nat :=
  let s := d.posS n
  b2n s.a + 2 * b2n s.b + 4 * b2n s.z

/-- The state that COMM_SRC selects (R315): the host's, or the code that interface POS has accepted. -/
def Dev.commSel (d : Dev) (n : Nat) : Nat :=
  if d.flag (R.GDA_GCFG n) F.GDA_GCFG_COMM_SRC then d.hallCode (d.get (R.GDA_GCFG n) F.GDA_GCFG_POS)
  else d.get (R.GDA_COMM n) F.GDA_COMM_STATE

/-- A write of GDA_GCFG (R314, R315): the state that it selects is in force. -/
def Dev.gdaGcfgWrite (d : Dev) (mid n : Nat) (w : Word) : Dev :=
  let a := R.GDA_GCFG n
  let sel (e : Dev) : Nat := getF (e.reg a) F.GDA_GCFG_CMD + 2 * getF (e.reg a) F.GDA_GCFG_COMM_SRC + 4 * getF (e.reg a) F.GDA_GCFG_POS
  let was := sel d
  let d := d.plainWrite mid a w
  if d.isComm (n + 12) && sel d != was then d.commSet n (d.commSel n) else d

/-- COMM_STATE_WRITE (R315): in force where the host selects the state. -/
def Dev.commStateWrite (d : Dev) (mid n : Nat) (w : Word) : Dev :=
  let a := R.GDA_COMM n
  let taken := d.takenAt mid a
  let d := d.plainWrite mid a w
  if taken && d.isComm (n + 12) && !d.flag (R.GDA_GCFG n) F.GDA_GCFG_COMM_SRC then d.commSet n (d.get a F.GDA_COMM_STATE) else d

/-- A Hall code accepted by an interface commutates the groups that select it (R315). -/
def Dev.commHall (d : Dev) (pos code : Nat) : Dev :=
  forN (nAux d.member) (fun n e =>
    if e.isComm (n + 12) && e.flag (R.GDA_GCFG n) F.GDA_GCFG_COMM_SRC && e.get (R.GDA_GCFG n) F.GDA_GCFG_POS == pos then
      e.commSet n code else e) d

/-! ### Bootstrap and gate supply (R317 to R320) -/

/-- The bootstrap level of a group in mV (R323). -/
def Dev.uvLevel (d : Dev) (n : Nat) : Int := 7000 + 500 * (d.get (R.GDA_GCFG n) F.GDA_GCFG_UV : Nat)

def F.rfCnt (x : Nat) : RField := ⟨2 * x + 25, 2 * x + 24⟩

/-- BST_UV (R317, R318). -/
def Dev.bstUv (d : Dev) (n x : Nat) : Dev :=
  if !(decide (n < nAux d.member) && decide (x < 3)) then d
  else
    let g := n + 12
    let d := (d.putB (gdLstat g) (F.GDA_LSTAT_UV x) true).gdEvent g Ev.BST_UV
    if d.flag (R.GDA_GCFG n) F.GDA_GCFG_BST_POL then d.release g (2 ^ x) 7 else d

/-- BST_UV_CLEAR (R317): 0.5 V above the level. -/
def Dev.bstUvClear (d : Dev) (n x : Nat) (mv : Int) : Dev :=
  if n < nAux d.member ∧ x < 3 ∧ d.uvLevel n + 500 ≤ mv then d.putB (gdLstat (n + 12)) (F.GDA_LSTAT_UV x) false else d

/-- A failed refresh (R319): the third in a row releases the leg. -/
def Dev.refreshFail (d : Dev) (n x : Nat) : Dev :=
  let g := n + 12
  let d := d.bump (gdLstat g) (F.rfCnt x)
  if d.get (gdLstat g) (F.rfCnt x) = 3 ∧ !d.legReleased g x then (d.release g (2 ^ x) 7).gdEvent g Ev.BST_FAIL else d

/-- BST_REFRESH_SAMPLE (R319). -/
def Dev.bstSample (d : Dev) (n x : Nat) (mv : Int) : Dev :=
  let g := n + 12
  let q := d.legS g x
  match q.rfSample with
  | some t =>
    if t ≤ d.gtc then
      let d := d.setLeg g x { q with rfSample := none }
      if d.uvLevel n + 500 ≤ mv then (d.putB (gdLstat g) (F.GDA_LSTAT_UV x) false).put (gdLstat g) (F.rfCnt x) 0
      else d.refreshFail n x
    else d
  | none => d

/-- A refresh is planned at a valley's capture for every leg whose bootstrap is low (R318, R319). -/
def Dev.planRefresh (d : Dev) (g : Nat) : Dev :=
  if g < 12 then d
  else forN 3 (fun x e =>
    let plan := e.flag (gdLstat g) (F.GDA_LSTAT_UV x) && !e.flag (R.GDA_GCFG (g - 12)) F.GDA_GCFG_BST_POL
      && !e.legReleased g x
    e.setLeg g x { e.legS g x with rfPlan := plan }) d

/-- The first turn-off still to come of one of a leg's switches. -/
def nextOff (es : List EdgeSt) (x : Nat) (hi : Bool) : Option Int :=
  ((es.filter fun e => e.leg == x && e.hi == hi && !e.on).map fun e => e.t).head?

/-- Whether a leg's command holds it in one state: a forced state or a group action (R292, R310). -/
def Dev.legHeld (d : Dev) (g x : Nat) : Bool := (d.grpS g).asc || (d.legS g x).force != 0

/-- A planned refresh at a valley (R319): no pulse where the low switch stays on for 160 ticks, none while the leg is held; else
the high command is held off and the low switch conducts for 160 ticks, after which the leg takes its command again. The low
switch is the one behind the low gate, which with SWAP is driven by the high command (log entry 302). -/
def Dev.refreshLeg (d : Dev) (g x : Nat) : Dev :=
  let q := d.legS g x
  let d := d.setLeg g x { q with rfPlan := false }
  if !q.rfPlan || (d.grpS g).vec.isNone then d
  else
    let lo := d.pinSw g x false
    let v : Int := 64 * (d.gtc : Int)
    let es := (d.grpS g).edges
    let off := nextOff es x lo
    let long : Bool := match off with
      | some t => decide (v + 64 * 160 ≤ t)
      | none => true
    if q.lv lo && long then
      let last : Nat := match off with
        | some t => (t / 64).toNat - 1
        | none => d.gtc + (d.grpS g).p - 1
      d.setLeg g x { d.legS g x with rfSample := some last }
    else if d.legHeld g x then
      if !(d.grpS g).asc && q.force == (if lo then 2 else 3) then d.refreshFail (g - 12) x else d
    else
      let t0 := v + d.dtOf g lo
      let t1 := t0 + 64 * 160
      let mk := d.mkEdge g x
      let es := if q.lv lo then holdEdges mk q x (if lo then 3 else 2) v (d.dtH g) (d.dtL g) es
        else holdEdges mk q x 1 v (d.dtH g) (d.dtL g) es ++ [mk lo true t0]
      (d.setEdges g (d.cmdEdges g x t1 es)).setLeg g x { d.legS g x with rfSample := some ((t1 / 64).toNat - 1) }

/-- The refreshes of a valley. -/
def Dev.refreshAll (d : Dev) (g : Nat) : Dev := if g < 12 then d else forN 3 (fun x e => e.refreshLeg g x) d

/-- VGD_UV (R320): every auxiliary leg is released, whatever VGD_OK reads. -/
def Dev.vgdUv (d : Dev) : Dev :=
  let d := d.putB R.GDA_STAT F.GDA_STAT_VGD_OK false
  (forN (nAux d.member) (fun n e => e.release (n + 12) 7 8) d).raise Pg.GDA Ev.VGD_UV

/-- VGD_RECOVER (R320, R501): VGD_OK returns between 9.0 V and 15.5 V. -/
def Dev.vgdRecover (d : Dev) (mv : Int) : Dev :=
  if 9000 ≤ mv ∧ mv ≤ 15500 then d.putB R.GDA_STAT F.GDA_STAT_VGD_OK true else d

/-- VGD_OVERVOLTAGE (R501): VGD_OK clears above 16.0 V. -/
def Dev.vgdOver (d : Dev) (mv : Int) : Dev := if mv > 16000 then d.putB R.GDA_STAT F.GDA_STAT_VGD_OK false else d

/-! ### Meanings -/

def execDrdyReady (grp : Nat) (s : State) := onLive (fun d => d.clocked Pg.GDT fun d => d.drdyReady grp) s
def execDrdyLost (grp : Nat) (s : State) := onLive (fun d => d.drdyFall grp) s
def execDrdyAcceptedLow (grp : Nat) (s : State) := onLive (fun d => d.drdyFall grp) s
def execEnaChkFail (grp : Nat) (s : State) := onLive (fun d => d.clocked Pg.GDT fun d => d.enaChkFail grp) s
def execLegFlt (grp leg : Nat) (act : Bool) (s : State) := onLive (fun d => d.legFlt grp leg act) s
def execLegShoot (grp leg : Nat) (s : State) := onLive (fun d => d.legShoot grp leg) s
def execLegOutRb (grp leg : Nat) (s : State) := onLive (fun d => d.legOutRb grp leg) s
def execBstUv (aux leg : Nat) (s : State) := onLive (fun d => d.clocked Pg.GDA fun d => d.bstUv aux leg) s
def execBstUvClear (aux leg : Nat) (mv : Int) (s : State) := onLive (fun d => d.clocked Pg.GDA fun d => d.bstUvClear aux leg mv) s
def execBstRefreshSample (aux leg : Nat) (mv : Int) (s : State) := onLive (fun d => d.clocked Pg.GDA fun d => d.bstSample aux leg mv) s
def execVgdUv (s : State) := onLive (fun d => d.vgdUv) s
def execVgdRecover (mv : Int) (s : State) := onLive (fun d => d.clocked Pg.GDA fun d => d.vgdRecover mv) s
def execVgdOvervoltage (mv : Int) (s : State) := onLive (fun d => d.vgdOver mv) s

end Sys2Proof.Machine
end

