-- ==== Sys2Proof/Machine/Comparators.lean ====
section
/-! DEFINITION. Comparators and trip network (chapter 05, R138 to R160), with the steps of the PWM groups that meet them: load
points and switch edges. -/

namespace Sys2Proof.Machine

/-! ### Whether a comparator runs (R139, R144) -/

def Dev.cmpFlag (d : Dev) (c : Nat) (f : RField) : Bool := d.flag (R.CMP_CFG c) f

/-- Whether a comparator is able to run (R139). -/
def Dev.cmpAble (d : Dev) (c : Nat) : Bool :=
  decide (c < nCmp d.member) && d.pageEn (Pg.CMP (c / 36)) && d.cmpFlag c F.CMP_CFG_EN
    && decide (d.get (R.CMP_CFG c) F.CMP_CFG_INSEL < nInputs d.member)
    && (d.cmpFlag c F.CMP_CFG_HI_EN || d.cmpFlag c F.CMP_CFG_LO_EN)

def Dev.cmpProtect (d : Dev) (c : Nat) : Bool := d.cmpFlag c F.CMP_CFG_CLASS
def Dev.cmpStarting (d : Dev) (c : Nat) : Bool := d.flag (R.CMP_STAT c) F.CMP_STAT_STARTING

/-- Settings in force at the A-die (R145): thresholds, ramp, MODE. -/
def Dev.cmpSet (d : Dev) (c : Nat) : Word × Word × Nat :=
  (d.cmpS c).old.getD (d.reg (R.CMP_THR c), d.reg (R.CMP_RAMP c), d.get (R.CMP_CFG c) F.CMP_CFG_MODE)

/-- An event of a comparator, with its flag (R158). -/
def Dev.cmpEvent (d : Dev) (c src : Nat) : Dev :=
  let j := c % 36
  (if j < 32 then d.orReg (R.CMP_FLAG0 (c / 36)) (bitWord j) else d.orReg (R.CMP_FLAG1 (c / 36)) (bitWord (j - 32))).raiseN
    (Pg.CMP (c / 36)) src c

/-- OUT follows the start-up rule and the two sides (R140, R144). -/
def Dev.cmpShow (d : Dev) (c : Nat) : Dev :=
  let q := d.cmpS c
  d.putB (R.CMP_STAT c) F.CMP_STAT_OUT (d.cmpStarting c || q.hiTrip || q.loTrip)

/-- A start (R144): the tripped level, STARTING, the count afresh. -/
def Dev.cmpStart (d : Dev) (c : Nat) : Dev :=
  let d := d.setCmp c { d.cmpS c with on := true, hiTrip := false, loTrip := false, startAt := d.gtc, relCnt := 0, late := false }
  (d.putB (R.CMP_STAT c) F.CMP_STAT_STARTING true).cmpShow c

/-- A comparator that no longer runs reads untripped (R139). -/
def Dev.cmpStop (d : Dev) (c : Nat) : Dev :=
  let d := d.setCmp c { d.cmpS c with on := false, hiTrip := false, loTrip := false, relCnt := 0 }
  (d.putB (R.CMP_STAT c) F.CMP_STAT_STARTING false).cmpShow c

/-- The comparator follows its being able to run (R139, R144). -/
def Dev.cmpSync (d : Dev) (c : Nat) : Dev :=
  let q := d.cmpS c
  if d.cmpAble c then (if q.on then d else d.cmpStart c) else if q.on then d.cmpStop c else d

/-- Every comparator of a page, after its PG_CTRL.EN has changed (R139, R144). -/
def Dev.cmpPageSync (d : Dev) (p : Nat) : Dev := forN 36 (fun j e => e.cmpSync (36 * p + j)) d

/-! ### Levels (R140, R141) -/

/-- The tick of the last selected carrier event of a group at or before now (R141). -/
def Dev.lastEvent (d : Dev) (g cevt : Nat) : Option Nat :=
  ((((d.grpS g).evs.filter fun e => cevtHas cevt e.1 && decide (e.2 ≤ d.gtc)).map fun e => e.2).foldl
    (fun (b : Option Nat) t => some (max (b.getD 0) t)) none)

/-- HI_eff in sixteenths of a DAC step (R141). -/
def Dev.cmpHiEff (d : Dev) (c : Nat) : Int :=
  let (thr, ramp, _) := d.cmpSet c
  let hi : Int := 16 * (getF thr F.CMP_THR_HI : Nat)
  let g := d.get (R.CMP_RAMP c) F.CMP_RAMP_GRP
  if d.flag (R.CMP_RAMP c) F.CMP_RAMP_RAMP_EN && d.pwmEn g then
    match d.lastEvent g (d.get (R.CMP_RAMP c) F.CMP_RAMP_CEVT) with
    | some t => max ((hi * 1024 - 16 * (getF ramp F.CMP_RAMP_SLOPE * (d.gtc - t) : Nat)) / 1024)
        (16 * (getF ramp F.CMP_RAMP_FLOOR : Nat) : Int)
    | none => hi
  else hi

/-- Hysteresis in microvolts (R160). -/
def Dev.cmpHyst (d : Dev) (c : Nat) : Int :=
  let k := d.get (R.CMP_CFG c) F.CMP_CFG_HYST
  if k = 0 then 0 else if k = 1 then 5000 else if k = 2 then 10000 else 20000

/-- The two sides for a pin voltage in microvolts (R140): upper, lower. All quantities are taken 16,384-fold. -/
def Dev.cmpSides (d : Dev) (c : Nat) (uv : Int) : Bool × Bool :=
  let q := d.cmpS c
  let vref : Int := (Config.vrefa : Nat)
  let v := 16384 * uv
  let h := 16384 * d.cmpHyst c
  let hi := d.cmpHiEff c * vref
  let lo := 16 * (getF (d.cmpSet c).1 F.CMP_THR_LO : Nat) * vref
  (d.cmpFlag c F.CMP_CFG_HI_EN && (if q.hiTrip then !decide (v < hi - h) else decide (hi < v)),
   d.cmpFlag c F.CMP_CFG_LO_EN && (if q.loTrip then !decide (lo + h < v) else decide (v < lo)))

/-- Whether a voltage lies on the untripped side of every enabled side's release level (R144). -/
def Dev.cmpSafe (d : Dev) (c : Nat) (uv : Int) : Bool :=
  let vref : Int := (Config.vrefa : Nat)
  let v := 16384 * uv
  let h := 16384 * d.cmpHyst c
  (!d.cmpFlag c F.CMP_CFG_HI_EN || decide (v < d.cmpHiEff c * vref - h))
    && (!d.cmpFlag c F.CMP_CFG_LO_EN || decide (16 * (getF (d.cmpSet c).1 F.CMP_THR_LO : Nat) * vref + h < v))

/-! ### Trips (R150 to R152, R155) -/

/-- The generator's part of a LIMIT trip (R287, R297): commands of a leg cut at the present tick, `cH` the high one, `cL` the low
one. The rest of the interval whose switch is cut is lost and the other switch turns on; a cut of the other switch, while it is
on, brings the interval's switch on until the interval ends. The coming period runs as though no trip had occurred. A leg that
does not follow its step has nothing to cut. -/
def Dev.cutStep (d : Dev) (g x : Nat) (cH cL : Bool) : Dev :=
  let q := d.legS g x
  let act := d.legAct g x
  let both := act == 1
  let a := d.stepSw g x
  let cA := if a then cH else cL
  let cB := both && (if a then cL else cH)
  if !d.legFree g x || (d.grpS g).vec.isNone || !decide (act = 1 ∨ act = 2) || !(cA || (cB && q.lv !a)) then d
  else
    let t : Int := 64 * (d.gtc : Int)
    let on := if a then 3 else 2
    let other := if both then (if a then 2 else 3) else 1
    let code := if cA && cB then 1 else if cA then other else on
    let mk := d.mkEdge g x
    let u := d.nowLeg g (d.srcLeg g x)
    let es := holdEdges mk q x code t (d.dtH g) (d.dtL g) (d.grpS g).edges
    let ends := !cA && decide (0 < u.w ∧ t < u.fall) && (d.valleyCaptured g || d.fallFixed g)
    let es := if ends then fallEdges mk q x a both u.fall (d.dtOf g !a) es else es
    d.setEdges g (d.thenNext g x es)

/-- A LIMIT trip forces pins of a leg off until the next carrier period (R151, R297), and the generator cuts their commands. -/
def Dev.limitLeg (d : Dev) (g x : Nat) (offH offL : Bool) : Dev :=
  let q := d.legS g x
  let d := d.setLeg g x { q with limH := q.limH || offH, limL := q.limL || offL }
  let off (pin : Bool) : Bool := if pin then offH else offL
  d.cutStep g x (off (d.pinSw g x true)) (off (d.pinSw g x false))

/-- The lowest present group a comparator's route names (R151). -/
def Dev.cmpLowest (d : Dev) (c : Nat) : Option Nat := (List.range 20).find? fun g => bitOf (d.reg (R.CMP_ROUTE c)) g

/-- A LIMIT comparator's switches forced off for a trip of its upper side, its lower side or both (R151). -/
def Dev.limitForce (d : Dev) (c : Nat) (upper lower : Bool) : Dev :=
  match d.cmpLowest c with
  | none => d
  | some g =>
    let sw := d.get (R.CMP_ROUTE c) F.CMP_ROUTE_SW_SEL
    let offH := sw == 0 || sw == 2 || (sw == 3 && upper)
    let offL := sw == 1 || sw == 2 || (sw == 3 && lower)
    forN 3 (fun x e => if bitOf (e.reg (R.CMP_ROUTE c)) (24 + x) then e.limitLeg g x offH offL else e) d

/-- A PROTECT comparator's routed legs released (R152). -/
def Dev.protectRelease (d : Dev) (c : Nat) : Dev :=
  let r := d.reg (R.CMP_ROUTE c)
  let mask := r.toNat / 2 ^ 24 % 8
  forN 20 (fun g e => if bitOf r g && mask != 0 then e.release g mask 3 else e) d

/-- The record of a trip (R155). -/
def Dev.cmpRecord (d : Dev) (c : Nat) (lower : Bool) : Dev :=
  d.emitProt { ty := 0x20, res := c, tick := d.gtc, data := [BitVec.ofNat 32 (b2n lower)] }

/-- CMP_LIMIT at the first trip of a period (R151). A comparator whose route names no group has no period: it raises CMP_LIMIT at its
first trip, and its LATCHED clears by a write alone (log entry 335, DESIGN CHOICE). -/
def Dev.limitEvent (d : Dev) (c : Nat) : Dev :=
  let q := d.cmpS c
  if q.limited then d else (d.setCmp c { q with limited := true }).cmpEvent c Ev.CMP_LIMIT

/-- A trip of the upper side, the lower side or both that acts (R151, R152, R155); both at once are one trip, shown as the
upper side's (log entry 299). -/
def Dev.cmpAct (d : Dev) (c : Nat) (hi lo : Bool) : Dev :=
  let a := R.CMP_STAT c
  let lower := !hi
  let d := ((d.putB a F.CMP_STAT_LATCHED true).bump a F.CMP_STAT_TRIP_CNT).putB a F.CMP_STAT_LAST_LO lower
  if d.cmpProtect c then ((d.protectRelease c).cmpRecord c lower).cmpEvent c Ev.CMP_PROTECT
  else
    let d := d.limitForce c hi lo
    let d := if d.cmpFlag c F.CMP_CFG_REC_LIM then d.cmpRecord c lower else d
    d.limitEvent c

/-! ### Blanking (R146 to R149) -/

/-- Whether an open-wire window blanks a comparator (R149). -/
def Dev.cmpOwBlank (d : Dev) (c : Nat) : Bool :=
  d.cmpFlag c F.CMP_CFG_OWMASK && d.owMarked (d.get (R.CMP_CFG c) F.CMP_CFG_INSEL) d.gtc

/-- Whether any source of blanking is active (R146, R149). -/
def Dev.cmpBlankSrc (d : Dev) (c : Nat) : Bool :=
  let q := d.cmpS c
  q.slotBlank || d.cmpOwBlank c || (match q.edgeEnd with
    | some t => decide (d.gtc < t)
    | none => false)

def Dev.cmpBlanked (d : Dev) (c : Nat) : Bool := d.cmpBlankSrc c && !(d.cmpS c).capped

/-- A tripped output that is no longer masked acts as a fresh trip (R148). -/
def Dev.cmpUnmask (d : Dev) (c : Nat) : Dev :=
  let q := d.cmpS c
  if (q.hiTrip || q.loTrip) && !d.cmpStarting c then d.cmpAct c q.hiTrip q.loTrip else d

/-- The comparator's blanking follows its sources (R146 to R148). -/
def Dev.cmpBlankSync (d : Dev) (c : Nat) : Dev :=
  let q := d.cmpS c
  let was := d.flag (R.CMP_STAT c) F.CMP_STAT_BLANKED
  let src := d.cmpBlankSrc c
  let q := if src then { q with blankFrom := if q.capped then none else some (q.blankFrom.getD d.gtc) }
    else { q with blankFrom := none, capped := false }
  let q := match q.edgeEnd with
    | some t => if t ≤ d.gtc then { q with edgeEnd := none } else q
    | none => q
  let d := d.setCmp c q
  let now := d.cmpBlanked c
  let d := d.putB (R.CMP_STAT c) F.CMP_STAT_BLANKED now
  if was && !now then d.cmpUnmask c else d

def Dev.blankOn (d : Dev) (c : Nat) : Dev := (d.setCmp c { d.cmpS c with slotBlank := true }).cmpBlankSync c

/-- Whether a BLANK_ON of a comparator is due in the present tick. -/
def Dev.blankOnDue (d : Dev) (c : Nat) : Bool :=
  d.firings.any fun r => r.action == 8 && decide (r.f ≤ d.gtc) && (firingTargets r 72).contains c

/-- BLANK_OFF (R146): with a BLANK_ON in the same tick the comparator stays blanked without interruption. -/
def Dev.blankOff (d : Dev) (c : Nat) : Dev :=
  if d.blankOnDue c then d else (d.setCmp c { d.cmpS c with slotBlank := false }).cmpBlankSync c

/-- CMP_BLANK_CAP (R147), on a page whose clocked state runs (R27). -/
def Dev.cmpBlankCap (d : Dev) (c : Nat) : Dev :=
  let q := d.cmpS c
  match q.blankFrom with
  | some t =>
    if d.cmpProtect c && d.cmpBlanked c && decide (t + 800 ≤ d.gtc) && !d.frozen (Pg.CMP (c / 36)) then
      let d := d.setCmp c { q with capped := true, blankFrom := none }
      let d := (d.putB (R.CMP_STAT c) F.CMP_STAT_BLANKED false).putB (R.CMP_STAT c) F.CMP_STAT_BLANK_CAPPED true
      (d.cmpEvent c Ev.CMP_BLANK_CAP).cmpUnmask c
    else d
  | none => d

/-- An edge at a switch output of a group blanks the comparators that watch it (R146), on pages whose clocked state runs (R27). -/
def Dev.edgeBlank (d : Dev) (g : Nat) : Dev :=
  forN (nCmp d.member) (fun c e =>
    let a := R.CMP_BLANK c
    let len := e.get a F.CMP_BLANK_AUTO_LEN
    if e.flag a F.CMP_BLANK_AUTO_EN && !e.frozen (Pg.CMP (c / 36)) && e.get a F.CMP_BLANK_AUTO_GRP == g && len != 0 then
      (e.setCmp c { e.cmpS c with edgeEnd := some (e.gtc + len) }).cmpBlankSync c else e) d

/-- The pins of a group as they are, next to what edge blanking last saw of them. -/
def Dev.pinsMoved (d : Dev) (g : Nat) : Bool :=
  (List.range 3).any fun x => d.pinOut g x true != (d.legS g x).pinH || d.pinOut g x false != (d.legS g x).pinL

/-- Edge blanking looks at a group's pins (R146): where one has changed, by whatever stage, its comparators are blanked. -/
def Dev.pinLook (d : Dev) (g : Nat) : Dev :=
  if d.pinsMoved g then
    (forN 3 (fun x e => e.setLeg g x { e.legS g x with pinH := d.pinOut g x true, pinL := d.pinOut g x false }) d).edgeBlank g
  else d

def Dev.pinLookAll (d : Dev) : Dev := forN 20 (fun g e => e.pinLook g) d

/-- A comparator before its input is looked at: edges of the present tick have blanked it, blanking that has ended has let it act
(R146, R154). -/
def Dev.cmpLook (d : Dev) (c : Nat) : Dev := if c < nCmp d.member then d.pinLookAll.cmpBlankSync c else d

/-- EDGE_BLANK_END (R146), which also sees an open-wire window's end (R149; log entry 25, DEDUCED). -/
def Dev.edgeBlankEnd (d : Dev) (c : Nat) : Dev := if d.frozen (Pg.CMP (c / 36)) then d else d.cmpLook c

/-- Every comparator on an input, after an open-wire window has opened or closed on it (R149). -/
def Dev.owBlankSync (d : Dev) (i : Nat) : Dev :=
  forN (nCmp d.member) (fun c e =>
    if e.get (R.CMP_CFG c) F.CMP_CFG_INSEL == i then e.cmpBlankSync c else e) d

/-! ### Decisions (R140, R143, R144) -/

/-- A running comparator takes its sides for a voltage; sides that become tripped act unless it is blanked (R140, R148). -/
def Dev.cmpDecide (d : Dev) (c : Nat) (uv : Int) : Dev :=
  let q := d.cmpS c
  let (hi, lo) := d.cmpSides c uv
  let d := (d.setCmp c { q with hiTrip := hi, loTrip := lo }).cmpShow c
  let newHi := hi && !q.hiTrip
  let newLo := lo && !q.loTrip
  if (newHi || newLo) && !d.cmpBlanked c then d.cmpAct c newHi newLo else d

/-- Whether the comparator runs outside its start-up; the trip path holds no clocked register that a debug halt could stop (R156,
R27). -/
def Dev.cmpLive (d : Dev) (c : Nat) : Bool := decide (c < nCmp d.member) && (d.cmpS c).on && !d.cmpStarting c

def Dev.cmpSampled (d : Dev) (c : Nat) : Bool := (d.cmpSet c).2.2 == 4

/-- CMP_TRIP (R140): in the continuous modes, the input crosses a trip level. -/
def Dev.cmpTrip (d : Dev) (c : Nat) (uv : Int) : Dev :=
  let d := d.cmpLook c
  let q := d.cmpS c
  let (hi, lo) := d.cmpSides c uv
  if d.cmpLive c && !d.cmpSampled c && ((hi && !q.hiTrip) || (lo && !q.loTrip)) then d.cmpDecide c uv else d

/-- CMP_RELEASE (R140): in the continuous modes, the input passes a tripped side's release level. -/
def Dev.cmpRelease (d : Dev) (c : Nat) (uv : Int) : Dev :=
  let d := d.cmpLook c
  let q := d.cmpS c
  let (hi, lo) := d.cmpSides c uv
  if d.cmpLive c && !d.cmpSampled c && ((!hi && q.hiTrip) || (!lo && q.loTrip)) then d.cmpDecide c uv else d

/-- DIV as it is taken (R143). -/
def Dev.cmpDiv (d : Dev) (c : Nat) : Nat := clampN 400 40000 (d.get (R.CMP_STRB c) F.CMP_STRB_DIV)

def Dev.cmpRelN (d : Dev) (c : Nat) : Nat := max (d.get (R.CMP_CFG c) F.CMP_CFG_REL_N) 1

/-- CMP_STROBE (R143, R144): the decision 300 ns after a strobe tick; in start-up it counts untripped decisions, on a page whose
clocked state runs (R27). -/
def Dev.cmpStrobe (d : Dev) (c : Nat) (uv : Int) : Dev :=
  if d.cmpSampled c && (d.cmpS c).on && decide (120 ≤ d.gtc) && (d.gtc - 120) % d.cmpDiv c == 0 then
    if !d.cmpStarting c then (d.cmpLook c).cmpDecide c uv
    else if d.frozen (Pg.CMP (c / 36)) then d
    else d.setCmp c { d.cmpS c with relCnt := if d.cmpSafe c uv then (d.cmpS c).relCnt + 1 else 0 }
  else d

/-- CMP_START (R144). -/
def Dev.cmpStartCmd (d : Dev) (c : Nat) : Dev := if d.cmpAble c && !(d.cmpS c).on then d.cmpStart c else d

/-- CMP_START_DONE (R144): REL_N untripped samples in a row, one a tick in the continuous modes. -/
def Dev.cmpStartDone (d : Dev) (c : Nat) : Dev :=
  let q := d.cmpS c
  let enough := if d.cmpSampled c then decide (d.cmpRelN c ≤ q.relCnt) else decide (q.startAt + d.cmpRelN c ≤ d.gtc)
  if d.cmpStarting c && q.on && enough && !d.frozen (Pg.CMP (c / 36)) then (d.putB (R.CMP_STAT c) F.CMP_STAT_STARTING false).cmpShow c else d

/-- CMP_START_LATE (R144): once in each start. -/
def Dev.cmpStartLate (d : Dev) (c : Nat) : Dev :=
  let lim := 400000 + (if d.cmpSampled c then d.cmpRelN c * d.cmpDiv c else 0)
  if d.cmpStarting c && !(d.cmpS c).late && decide ((d.cmpS c).startAt + lim ≤ d.gtc) && !d.frozen (Pg.CMP (c / 36)) then
    ((d.setCmp c { d.cmpS c with late := true }).putB (R.CMP_STAT c) F.CMP_STAT_START_LATE true).cmpEvent c Ev.CMP_START_LATE
  else d

/-- CMP_SETTING_APPLIED (R144, R145): the written settings take effect, in a frame slot that is not dropped (R35); a MODE that was
changed while EN = 1 starts the comparator. -/
def Dev.cmpApplied (d : Dev) (c : Nat) : Dev :=
  let q := d.cmpS c
  if q.old = none ∨ d.linkTick d.gtc ≠ d.gtc then d
  else
    let d := d.setCmp c { q with old := none, again := false }
    if q.again && d.cmpAble c then d.cmpStart c else d

/-- A_DIE_SUPPLY_RECOVERY (R144). -/
def Dev.aDieRecovery (d : Dev) : Dev :=
  forN (nCmp d.member) (fun c e => if e.cmpAble c then e.cmpStart c else e) d

/-! ### Writes (R145, R153) -/

/-- A write that the A-die takes up to 16 ticks later: what was in force stays (R145). -/
def Dev.cmpKeep (d : Dev) (c : Nat) (before : Word × Word × Nat) : Dev :=
  let q := d.cmpS c
  let now := (d.reg (R.CMP_THR c), d.reg (R.CMP_RAMP c), d.get (R.CMP_CFG c) F.CMP_CFG_MODE)
  if q.old.isSome || before == now then d else d.setCmp c { q with old := some before }

/-- A side that is no longer enabled is not tripped (R140). -/
def Dev.cmpSidesOff (d : Dev) (c : Nat) : Dev :=
  let q := d.cmpS c
  (d.setCmp c { q with hiTrip := q.hiTrip && d.cmpFlag c F.CMP_CFG_HI_EN, loTrip := q.loTrip && d.cmpFlag c F.CMP_CFG_LO_EN }).cmpShow c

/-- A MODE other than `m` written over it while EN = 1, as `en` says, starts the comparator when it takes effect (R144). -/
def Dev.cmpModeSet (d : Dev) (c m : Nat) (en : Bool) : Dev :=
  if en && m != d.get (R.CMP_CFG c) F.CMP_CFG_MODE then d.setCmp c { d.cmpS c with again := true } else d

/-- A write of CMP_CFG, CMP_THR or CMP_RAMP (R139, R140, R144, R145), which may also begin or end blanking (R148, R149). EN is
taken as it was before the write: one that raises EN and changes MODE starts once, by EN (log entry 330, DEDUCED). -/
def Dev.cmpWrite (d : Dev) (mid c a : Nat) (w : Word) : Dev :=
  let before := (d.reg (R.CMP_THR c), d.reg (R.CMP_RAMP c), d.get (R.CMP_CFG c) F.CMP_CFG_MODE)
  let en := d.cmpFlag c F.CMP_CFG_EN
  if d.takenAt mid a then
    (((((d.plainWrite mid a w).cmpKeep c before).cmpModeSet c before.2.2 en).cmpSync c).cmpSidesOff c).cmpBlankSync c
  else d.plainWrite mid a w

/-- A write of CMP_STAT (R153): CLR clears LATCHED only while the output is untripped and no start is under way. -/
def Dev.cmpStatWrite (d : Dev) (mid c : Nat) (w : Word) : Dev :=
  let a := R.CMP_STAT c
  let taken := d.takenAt mid a
  let d := d.plainWrite mid a w
  if taken && bitOf w 31 then
    if !d.flag a F.CMP_STAT_OUT && !d.cmpStarting c then d.putB a F.CMP_STAT_LATCHED false
    else (d.putB a F.CMP_STAT_CLR_FAIL true).cmpEvent c Ev.CMP_CLR_FAIL
  else d

/-! ### Load points and edges -/

/-- LIMIT latches at the start of a group's carrier period (R151, R154): they clear; an output still tripped latches again, which is
no trip to be counted or recorded (log entry 184, DEDUCED). -/
def Dev.limitPeriod (d : Dev) (g : Nat) : Dev :=
  let d := forN 3 (fun x e => e.setLeg g x { e.legS g x with limH := false, limL := false }) d
  forN (nCmp d.member) (fun c e =>
    if !e.cmpProtect c && e.cmpLowest c == some g then
      let q := e.cmpS c
      let e := (e.setCmp c { q with limited := false }).putB (R.CMP_STAT c) F.CMP_STAT_LATCHED false
      if (q.hiTrip || q.loTrip) && !e.cmpStarting c && !e.cmpBlanked c then
        let e := (e.putB (R.CMP_STAT c) F.CMP_STAT_LATCHED true).limitForce c q.hiTrip q.loTrip
        e.limitEvent c
      else e
    else e) d

/-- LOAD_POINT (R151, R270 to R272, R280, R292, R319). -/
def Dev.loadPointCmd (d : Dev) (g : Nat) : Dev :=
  match d.loadDue g with
  | none => d
  | some peak =>
    let d := if peak then d else d.limitPeriod g
    let d := d.loadPoint g peak
    if peak then d else d.refreshAll g

/-- SWITCH_EDGE (R146, R286): a due edge; where a pin changes, comparators that watch the group are blanked. -/
def Dev.switchEdge (d : Dev) (g x : Nat) (hi : Bool) : Dev :=
  match d.takeEdge g x hi with
  | none => d
  | some e => e.pinLook g

/-! ### Meanings -/

def cmpPresent (d : Dev) (c : Nat) : Bool := decide (c < nCmp d.member)

def execBlankOn (slot : Nat) (s : State) := onLive (fun d => d.runAction slot 8 72 (cmpPresent d) (fun c e => e.blankOn c)) s
def execBlankOff (slot : Nat) (s : State) := onLive (fun d => d.runAction slot 9 72 (cmpPresent d) (fun c e => e.blankOff c)) s
def execCmpTrip (cmp : Nat) (uv : Int) (s : State) := onLive (fun d => d.cmpTrip cmp uv) s
def execCmpRelease (cmp : Nat) (uv : Int) (s : State) := onLive (fun d => d.cmpRelease cmp uv) s
def execCmpStart (cmp : Nat) (s : State) := onLive (fun d => d.cmpStartCmd cmp) s
def execCmpStartDone (cmp : Nat) (s : State) := onLive (fun d => d.cmpStartDone cmp) s
def execCmpStartLate (cmp : Nat) (s : State) := onLive (fun d => d.cmpStartLate cmp) s
def execCmpStrobe (cmp : Nat) (uv : Int) (s : State) := onLive (fun d => d.cmpStrobe cmp uv) s
def execCmpSettingApplied (cmp : Nat) (s : State) := onLive (fun d => d.cmpApplied cmp) s
def execEdgeBlankEnd (cmp : Nat) (s : State) := onLive (fun d => d.edgeBlankEnd cmp) s
def execCmpBlankCap (cmp : Nat) (s : State) := onLive (fun d => d.cmpBlankCap cmp) s
def execADieSupplyRecovery (s : State) := onLive (fun d => d.aDieRecovery) s
def execSwitchEdge (grp leg : Nat) (high : Bool) (s : State) := onPart (fun d => d.switchEdge grp leg high) s
def execOwOn (slot : Nat) (s : State) :=
  onLive (fun d => d.runAction slot 0xA 96 (fun i => decide (i < nInputs d.member))
    (fun i e => (e.owOn i).owBlankSync i)) s
def execOwOff (slot : Nat) (s : State) :=
  onLive (fun d => d.runAction slot 0xB 96 (fun i => decide (i < nInputs d.member))
    (fun i e => (e.owOff i).owBlankSync i)) s

end Sys2Proof.Machine
end

