-- ==== Sys2Proof/Machine/Trig.lean ====
section
/-! DEFINITION. Sine, cosine and the four-quadrant arc tangent in integer fixed point with 128 fraction bits: exact enough
that one rounding of the result is the rounding of the true value (R179, R201). Integer series, no table. -/

namespace Sys2Proof.Machine

/-- One in the fixed point used here. -/
def fxOne : Int := 2 ^ 128

/-- π in that fixed point. -/
def fxPi : Int := 0x3243F6A8885A308D313198A2E03707344

def fxMul (a b : Int) : Int := a * b / fxOne

/-- Series of the sine for a small angle in radians: terms from `k` on, `t` the present term. -/
def sinSeries : Nat → Nat → Int → Int → Int
  | 0, _, _, _ => 0
  | n + 1, k, x2, t => t + sinSeries n (k + 2) x2 (-(fxMul t x2) / ((k + 1) * (k + 2) : Nat))

/-- Sine and cosine of an angle in radians of at most π/4. -/
def sinCosSmall (x : Int) : Int × Int :=
  let x2 := fxMul x x
  (sinSeries 18 1 x2 x, sinSeries 18 0 x2 fxOne)

/-- Sine and cosine of `num / den` of a turn: the octant first, then the series. -/
def sinCosTurn (num : Int) (den : Nat) : Int × Int :=
  let a : Int := num % (den : Int)
  let q : Int := (8 * a + den) / (2 * (den : Int))
  let r : Int := 4 * a - q * den
  let x : Int := if den = 0 then 0 else r * fxPi / (2 * (den : Int))
  let (s, c) := sinCosSmall x
  if q % 4 = 0 then (s, c) else if q % 4 = 1 then (c, -s) else if q % 4 = 2 then (-s, -c) else (-c, s)

/-- Series of the arc tangent for a small ratio. -/
def atanSeries : Nat → Nat → Int → Int → Int
  | 0, _, _, _ => 0
  | n + 1, k, x2, p => p / (k : Int) + atanSeries n (k + 2) x2 (-(fxMul p x2))

/-- Halving of an arc tangent's angle: atan t = 2 atan (t / (1 + √(1 + t²))). -/
def atanHalve (t : Int) : Int :=
  let r : Int := (isqrt ((fxOne * fxOne + t * t).toNat) : Nat)
  t * fxOne / (fxOne + r)

/-- Arc tangent, in radians, of a ratio between 0 and 1. -/
def atanUnit (t : Int) : Int :=
  let u := atanHalve (atanHalve (atanHalve t))
  8 * atanSeries 22 1 (fxMul u u) u

/-- The angle of the vector (x, y) in fixed point of a turn, from 0 up to one turn; a zero vector has none and gives 0. -/
def atan2Turn (y x : Int) : Int :=
  let ay : Int := (y.natAbs : Nat)
  let ax : Int := (x.natAbs : Nat)
  let quarter := fxOne / 4
  let base : Int :=
    if ay = 0 then 0
    else if ax = 0 then quarter
    else if ay = ax then quarter / 2
    else if ay < ax then atanUnit (ay * fxOne / ax) * fxOne / (2 * fxPi)
    else quarter - atanUnit (ax * fxOne / ay) * fxOne / (2 * fxPi)
  let a := if x < 0 then fxOne / 2 - base else base
  if y < 0 then fxOne - a else a

/-- The angle of a vector in ANG20, rounded to nearest. -/
def atan2Ang20 (y x : Int) : Nat := wrapN 20 (roundDiv (atan2Turn y x * 2 ^ 20) (2 ^ 128))

end Sys2Proof.Machine
end

