-- ==== Sys2Proof/Machine/Position.lean ====
section
/-! DEFINITION. Position and speed feedback (chapter 06, R161 to R188): interfaces, shadow decoders, excitation outputs and
encoder emulation. A decoder is named by a number: `n` is interface n, `16 + n` is its shadow in Channel M. What a shadow has
no field for takes the reset value of the interface's field (log entry 30, DEDUCED). -/

namespace Sys2Proof.Machine

/-! ### What governs a decoder -/

def isShadow (x : Nat) : Bool := decide (16 ≤ x)

/-- The interface whose page holds a decoder's registers. -/
def posIfc (x : Nat) : Nat := x % 16

/-- The field of an interface's register, or a shadow's own value. -/
def Dev.posField (d : Dev) (x : Nat) (a : Nat → Nat) (f : RField) (shadow : Nat) : Nat :=
  if isShadow x then shadow else d.get (a (posIfc x)) f

def mdABZ : Nat := 1
def mdHALL : Nat := 2
def mdSSI : Nat := 3
def mdBISS : Nat := 4
def mdRES : Nat := 5

/-- MODE as it acts: 0 where the decoder does not run (R161, R180). -/
def Dev.posMode (d : Dev) (x : Nat) : Nat :=
  let n := posIfc x
  let m := if isShadow x then
      (if d.flag (R.SHD_CFG n) F.SHD_CFG_EN then d.get (R.SHD_CFG n) F.SHD_CFG_MODE else 0)
    else d.get (R.POS_CFG n) F.POS_CFG_MODE
  if decide (n < nPos d.member) && !d.frozen (Pg.POS n) && decide (m ≤ 5) then m else 0

/-- The interface whose pins a shadow hears. -/
def Dev.shdSrc (d : Dev) (n : Nat) : Nat := d.get (R.SHD_CFG n) F.SHD_CFG_SRC

def Dev.posInv (d : Dev) (x : Nat) : Bool := d.posField x R.POS_CFG F.POS_CFG_INV 0 != 0
def Dev.posIdxEn (d : Dev) (x : Nat) : Bool :=
  d.posField x R.POS_CFG F.POS_CFG_IDX_EN (d.get (R.SHD_CFG (posIfc x)) F.SHD_CFG_IDX_EN) != 0
def Dev.posFilt (d : Dev) (x : Nat) : Nat :=
  d.posField x R.POS_CFG F.POS_CFG_FILT (d.get (R.SHD_CFG (posIfc x)) F.SHD_CFG_FILT)
def Dev.posOfs (d : Dev) (x : Nat) : Nat :=
  d.posField x R.POS_OFS F.POS_OFS_OFS (d.get (R.SHD_OFS (posIfc x)) F.SHD_OFS_OFS)
def Dev.posTol (d : Dev) (x : Nat) : Nat := d.posField x R.POS_IDX_CTRL F.POS_IDX_CTRL_TOL 2
def Dev.posQual (d : Dev) (x : Nat) : Nat := d.posField x R.POS_IDX_CTRL F.POS_IDX_CTRL_QUAL 0
def Dev.posMap (d : Dev) (x : Nat) : Nat := d.posField x R.POS_HALL F.POS_HALL_MAP 0xEEC287
def Dev.posZs (d : Dev) (x : Nat) : Nat := d.posField x R.POS_SPD_CFG F.POS_SPD_CFG_ZS 10000
def Dev.posLat (d : Dev) (x : Nat) : Nat := d.posField x R.POS_SER_TIME F.POS_SER_TIME_LAT 0
def Dev.posFmt (d : Dev) (x : Nat) : Word := d.reg (if isShadow x then R.SHD_FMT (posIfc x) else R.POS_SER_FMT (posIfc x))

/-- SPD_M, 0 taken as 1. -/
def Dev.posSpdM (d : Dev) (x : Nat) : Nat :=
  max 1 (d.posField x R.POS_SPD_CFG F.POS_SPD_CFG_SPD_M (d.get (R.SHD_GEOM (posIfc x)) F.SHD_GEOM_SPD_M))

/-- Counts per revolution (R164); sectors per turn in Hall mode. -/
def Dev.posCpr (d : Dev) (x : Nat) : Nat :=
  4 * clampN 1 65536 (d.posField x R.POS_LINES F.POS_LINES_LINES (d.get (R.SHD_GEOM (posIfc x)) F.SHD_GEOM_LINES))

def Dev.posUpdMin (d : Dev) (n : Nat) : Nat := max 1 (d.get (R.POS_CFG n) F.POS_CFG_UPD_MIN)

/-- Whether a word or an edge is electrical (R161): Hall mode always is. -/
def Dev.posElec (d : Dev) (n : Nat) : Bool := d.flag (R.POS_CFG n) F.POS_CFG_ELEC || d.posMode n == mdHALL

/-- The status word of a decoder: bits 31:28 lie alike in both. -/
def posStat (x : Nat) : Nat := if isShadow x then R.SHD_STAT (posIfc x) else R.POS_STAT (posIfc x)

/-- A decoder's error (R165, R168, R176, R179, R182). -/
def Dev.posErr (d : Dev) (x ev : Nat) : Dev :=
  let n := posIfc x
  if isShadow x then (d.bump (R.SHD_STAT n) F.SHD_STAT_ERR_CNT).raiseN (Pg.POS n) Ev.SHD_ERR n
  else
    (d.bump (R.POS_ERRCNT n) (if ev = Ev.QERR then F.POS_ERRCNT_QERR_CNT else F.POS_ERRCNT_ERR_CNT)).raiseN (Pg.POS n) ev n

def Dev.posValid (d : Dev) (x : Nat) (b : Bool) : Dev := d.putB (posStat x) F.POS_STAT_VALID b
def Dev.posUncert (d : Dev) (x : Nat) (b : Bool) : Dev := d.putB (posStat x) F.POS_STAT_UNCERT b

/-! ### Delivery (R162) -/

/-- A delivery shows in the decoder's angle and speed registers; an interface's goes to every track that names it, applied
at `ta`, or at once where that tick has come. A speed outside SPD32 is an unstated value (log entry 290, DESIGN CHOICE). -/
def Dev.posDeliver (d : Dev) (x m : Nat) (speed : Option Int) (ts ta : Nat) (zero : Bool) : Dev :=
  let n := posIfc x
  let v := speed.map fitSpd
  if isShadow x then
    let d := d.put (R.SHD_ANG n) F.SHD_ANG_ANG m
    match v with
    | some s => d.setReg (R.SHD_SPD n) (wordOfInt s)
    | none => d
  else
    let d := d.put (R.POS_ANG n) F.POS_ANG_ANG m
    let d := match v with
      | some s => d.setReg (R.POS_SPD n) (wordOfInt s)
      | none => d
    let elec := d.posElec n
    let valid := d.flag (R.POS_STAT n) F.POS_STAT_VALID
    let unc := d.flag (R.POS_STAT n) F.POS_STAT_UNCERT
    forN nTracks (fun k e =>
      if e.trkSrc k = n + 1 then
        let f : Int := if e.flag (R.TRK_CFG k) F.TRK_CFG_INV then -1 else 1
        let t : Nat × Option Int := if elec then (wrapN 20 ((m : Int) * f) * cnt20, v.map fun y => fitSpd (y * f)) else e.trkTerms k m v
        let u : Upd := { m := t.1, v := t.2, ts := ts, ta := ta, valid := valid, unc := unc, zero := zero, logged := true }
        e.giveUpd k u
      else e) d

/-- An update of the latest edge issued in the present tick (R169). -/
def Dev.edgeUpdate (d : Dev) (n ta : Nat) : Dev :=
  let s := d.posS n
  match s.edges with
  | [] => d
  | ts :: _ => (d.setPos n { s with updAt := d.gtc + 1, edgePend := false }).posDeliver n s.ang s.spd ts ta false

/-- Whether UPD_MIN has passed since the last update (R169). -/
def Dev.updMinPast (d : Dev) (n : Nat) : Bool :=
  let s := d.posS n
  s.updAt == 0 || decide (s.updAt + d.posUpdMin n ≤ d.gtc + 1)

/-! ### Edges (R164 to R170) -/

/-- Speed of `m` counts in `dt` ticks, in SPD32 for `cpr` counts per turn, rounded to nearest (R170). -/
def edgeSpd (m : Int) (dt cpr : Nat) : Int := roundDiv (m * 2 ^ 40) (cpr * dt)

/-- An accepted edge: its timestamp among those since the last change of direction, its speed, the angle `m` (R170). -/
def Dev.edge (d : Dev) (x m cpr : Nat) (back : Bool) : Dev :=
  let s := d.posS x
  let ts := d.gtc - (d.posFilt x + 2)
  let l := if s.back = back then (ts :: s.edges).take 257 else ts :: s.edges.take 1
  let n := min (d.posSpdM x) (l.length - 1)
  let v : Option Int := match l.drop n with
    | t0 :: _ => if n = 0 then none else some (edgeSpd (if back then -(n : Int) else n) (ts - t0) cpr)
    | [] => none
  let d := d.setPos x { s with edges := l, accAt := d.gtc, ang := m, spd := v, back := back }
  (d.putB (posStat x) F.POS_STAT_STOPPED false).putB (posStat x) F.POS_STAT_DIR back

/-- What follows an edge: an interface issues or holds an update, a shadow shows the edge. -/
def Dev.afterEdge (d : Dev) (x : Nat) : Dev :=
  let s := d.posS x
  if isShadow x then d.posDeliver x s.ang s.spd d.gtc d.gtc false
  else if d.updMinPast x then d.edgeUpdate x (d.gtc + 2)
  else d.setPos x { s with edgePend := true }

/-- Place of (A, B) in the forward sequence (R164). -/
def quadPos (a b : Bool) : Nat := if a then (if b then 2 else 1) else (if b then 3 else 0)

/-- The delivered angle of a count (R164). -/
def Dev.quadAngle (d : Dev) (x : Nat) : Nat :=
  let s := d.posS x
  let cpr := d.posCpr x
  let e : Int := if d.posIdxEn x then (s.exp : Int) else 0
  let r : Int := (s.cnt - e) % (cpr : Int)
  (r.toNat * 2 ^ 20 / cpr + d.posOfs x) % 2 ^ 20

/-- The true count set; POS_COUNT shows its low 32 bits. -/
def Dev.setCount (d : Dev) (x : Nat) (c : Int) : Dev :=
  let d := d.setPos x { d.posS x with cnt := c }
  if isShadow x then d else d.setReg (R.POS_COUNT x) (wordOfInt c)

/-- A difference of counts read as signed about half a turn (R166). -/
def signedMod (y : Int) (cpr : Nat) : Int :=
  let r : Int := y % (cpr : Int)
  if 2 * r < cpr then r else r - cpr

/-- CORR as an index of the present tick takes it: a write of the same tick is for the following index (R166). -/
def Dev.idxCorr (d : Dev) (n : Nat) : Bool :=
  let now := d.flag (R.POS_IDX_CTRL n) F.POS_IDX_CTRL_CORR
  match (d.posS n).corr with
  | some (t, was) => if t = d.gtc then was else now
  | none => now

/-- An index (R166, R167); `qerr` where A and B changed together in this tick. VALID that a deviation has cleared is remembered until
CORR or a new enable returns it. -/
def Dev.posIndex (d : Dev) (x : Nat) (qerr : Bool) : Dev :=
  let n := posIfc x
  let main := !isShadow x
  let s := d.posS x
  let cpr := d.posCpr x
  let lat := (s.cnt % (cpr : Int)).toNat
  let d := if main then d.setReg (R.POS_IDX_LATCH n) (wordOfInt s.cnt) else d
  let dev := if s.seen then signedMod ((lat : Int) - s.exp) cpr else 0
  let d := if s.seen then
      let d := if main then d.setReg (R.POS_IDX_DEV n) (wordOfInt dev) else d
      if dev.natAbs ≤ d.posTol x then (if qerr then d else d.posUncert x false)
      else
        let d := (d.setPos x { d.posS x with devOff := true }).posValid x false
        if main then d.raiseN (Pg.POS n) Ev.IDX_DEV n else d
    else
      let d := (d.setPos x { s with exp := lat, seen := true }).posValid x true
      if main then (d.put (R.POS_IDX_EXP n) F.POS_IDX_EXP_EXP lat).putB (R.POS_STAT n) F.POS_STAT_IDX_SEEN true else d
  if main && d.idxCorr n then
    let d := (d.setCount x ((d.posS x).cnt - dev)).posValid x true
    let d := d.setPos x { d.posS x with devOff := false }
    let d := if qerr then d else d.posUncert x false
    let fresh := (match s.corr with
      | some (t, _) => decide (t = d.gtc)
      | none => false) && d.flag (R.POS_IDX_CTRL n) F.POS_IDX_CTRL_CORR
    (d.putB (R.POS_IDX_CTRL n) F.POS_IDX_CTRL_CORR fresh).putB (R.POS_STAT n) F.POS_STAT_CORRECTED true
  else d

/-- Whether the levels of A and B are those QUAL asks for with an index (R166). -/
def Dev.idxFits (d : Dev) (x : Nat) (a b : Bool) : Bool :=
  let q := d.posQual x
  decide (q < 4) || (a == (q / 2 % 2 == 1) && b == (q % 2 == 1))

/-- A change accepted in ABZ mode (R164 to R167). -/
def Dev.quadAccept (d : Dev) (x : Nat) (a b z : Bool) : Dev :=
  let s := d.posS x
  let step := (quadPos a b + 4 - quadPos s.a s.b) % 4
  let qerr := step == 2
  let rose := z && !s.z
  let d := d.setPos x { s with a := a, b := b, z := z }
  let back := (step == 3) != d.posInv x
  let counted := step == 1 || step == 3
  let d := if counted then d.setCount x (s.cnt + (if back then -1 else 1)) else d
  let d := if qerr then (d.posErr x Ev.QERR).posUncert x true else d
  let wait := d.posIdxEn x && z && (rose || (s.idxWait && decide (4 ≤ d.posQual x)))
  let fits := d.idxFits x a b
  let d := d.setPos x { d.posS x with idxWait := wait && !fits }
  let d := if wait && fits then d.posIndex x qerr else d
  let d := if counted && !d.posIdxEn x && !s.devOff then d.posValid x true else d
  if counted then (d.edge x (d.quadAngle x) (d.posCpr x) back).afterEdge x else d

/-- The sector of a Hall code (R168); 6 and 7 are none. -/
def Dev.hallSector (d : Dev) (x code : Nat) : Option Nat :=
  let v := d.posMap x / 8 ^ code % 8
  if v < 6 then some v else none

/-- A change accepted in Hall mode (R168). -/
def Dev.hallAccept (d : Dev) (x : Nat) (u v w : Bool) : Dev :=
  let s := d.posS x
  let code := b2n u + 2 * b2n v + 4 * b2n w
  let d := if isShadow x then d else d.commHall x code
  let at6 (k : Nat) : Nat := (k % 6 * 2 ^ 20 / 6 + d.posOfs x) % 2 ^ 20
  match d.hallSector x code with
  | none => ((d.setPos x { s with a := u, b := v, z := w, adj := 0 }).posErr x Ev.HALL_ERR).posValid x false
  | some k =>
    let s1 := { s with a := u, b := v, z := w, sec := some k }
    let next (back : Bool) (m : Nat) : Dev :=
      let n := s.adj + 1
      let d := (d.setPos x { s1 with adj := n }).posValid x true
      let d := if n = 2 then d.posUncert x false else d
      (d.edge x m 6 back).afterEdge x
    match s.sec with
    | none => (d.setPos x s1).posValid x true
    | some p =>
      if k = (p + 1) % 6 then next false (at6 k)
      else if k = (p + 5) % 6 then next true (at6 (k + 1))
      else if k = p then (d.setPos x s1).posValid x true
      else (((d.setPos x { s1 with adj := 0 }).posErr x Ev.HALL_ERR).posUncert x true).posValid x true

/-- A change accepted at a decoder's pins (R163): decoded by mode. The data line's level is kept in every mode for R173 (log entry
31, DEDUCED). -/
def Dev.posAccept (d : Dev) (x : Nat) (a b z : Bool) : Dev :=
  let m := d.posMode x
  if nPos d.member ≤ posIfc x then d
  else
    let d := d.setPos x { d.posS x with dataLow := !b }
    if m = mdABZ then d.quadAccept x a b z
    else if m = mdHALL then d.hallAccept x a b z
    else d.setPos x { d.posS x with a := a, b := b, z := z }

/-! ### Updates of their own (R169 to R172) -/

/-- UPD_MIN_EXPIRY (R169). -/
def Dev.updMinExpiry (d : Dev) (n : Nat) : Dev :=
  let s := d.posS n
  if s.edgePend && d.updMinPast n && (d.posMode n == mdABZ || d.posMode n == mdHALL) then
    match s.edges with
    | ts :: _ => d.edgeUpdate n (ts + d.posFilt n + 4)
    | [] => d
  else d

/-- Counts per turn of a decoder in its mode. -/
def Dev.edgeCpr (d : Dev) (x : Nat) : Nat := if d.posMode x = mdHALL then 6 else d.posCpr x

/-- DECAY_UPDATE (R171), also after a zero-speed report. -/
def Dev.decayUpdate (d : Dev) (n : Nat) : Dev :=
  let s := d.posS n
  match s.edges with
  | t1 :: t0 :: _ =>
    if (d.posMode n == mdABZ || d.posMode n == mdHALL) && d.flag (R.POS_CFG n) F.POS_CFG_DECAY_EN
        && d.updMinPast n && decide (2 * (t1 - t0) < d.gtc - s.accAt) then
      let v := edgeSpd (if s.back then -1 else 1) (d.gtc - t1) (d.edgeCpr n)
      (d.setPos n { s with updAt := d.gtc + 1, edgePend := false }).posDeliver n s.ang (some v) t1 d.gtc false
    else d
  | _ => d

/-- A decoder whose zero-speed time has expired (R172). -/
def Dev.zeroSpd (d : Dev) (x : Nat) : Dev :=
  let s := d.posS x
  let zs := d.posZs x
  match s.edges with
  | [] => d
  | ts :: _ =>
    if (d.posMode x == mdABZ || d.posMode x == mdHALL) && zs != 0 && !d.flag (posStat x) F.POS_STAT_STOPPED
        && decide (s.accAt + 400 * zs ≤ d.gtc) then
      let d := (d.setPos x { s with updAt := d.gtc + 1, edgePend := false }).putB (posStat x) F.POS_STAT_STOPPED true
      let d := d.posDeliver x s.ang (some 0) ts d.gtc true
      if isShadow x then d else d.raiseN (Pg.POS x) Ev.ZERO_SPD x
    else d

/-- A write of POS_STAT (R165, R186). -/
def Dev.posStatWrite (d : Dev) (mid n : Nat) (w : Word) : Dev :=
  let r := R.POS_STAT n
  let taken := d.takenAt mid r
  let d := d.plainWrite mid r w
  if taken && bitOf w 0 && !d.flag (R.POS_CFG n) F.POS_CFG_IDX_EN then d.posUncert n false else d

/-! ### Serial words (R173 to R177) -/

/-- A word format, its fields clamped (R176, R186). -/
def fmtBits (f : Word) : Nat := clampN 8 40 (getF f F.POS_SER_FMT_BITS)
def fmtLen (f : Word) : Nat := clampN 1 32 (getF f F.POS_SER_FMT_POS_LEN)
def fmtLsb (f : Word) : Nat := getF f F.POS_SER_FMT_POS_LSB
def fmtTurn (f : Word) : Nat := getF f F.POS_SER_FMT_TURN_LEN

/-- Whether a format's fields stay within its bits (R176). -/
def fmtOk (f : Word) : Bool :=
  decide (fmtLsb f + fmtLen f + fmtTurn f ≤ fmtBits f)
    && (getF f F.POS_SER_FMT_ERR_EN == 0 || decide (getF f F.POS_SER_FMT_ERR_POS < fmtBits f))

/-- Gray code to binary over `n` bits. -/
def grayDecode : Nat → Nat → Nat
  | 0, g => g
  | n + 1, g => Nat.xor g (grayDecode n (g / 2))

/-- The position as ANG20 and the multi-turn field of a word (R176). -/
def fmtFields (f : Word) (word : Nat) : Nat × Nat :=
  let len := fmtLen f
  let raw := word / 2 ^ fmtLsb f % 2 ^ (len + fmtTurn f)
  let v := if getF f F.POS_SER_FMT_GRAY = 0 then raw else grayDecode (len + fmtTurn f) raw
  let p := v % 2 ^ len
  (if len > 20 then p / 2 ^ (len - 20) else p * 2 ^ (20 - len), v / 2 ^ len)

/-- Whether a word's error bit rejects it (R176). -/
def fmtBad (f : Word) (word : Nat) : Bool :=
  getF f F.POS_SER_FMT_ERR_EN != 0
    && word / 2 ^ getF f F.POS_SER_FMT_ERR_POS % 2 == getF f F.POS_SER_FMT_ERR_POL

/-- T in ticks (R186). -/
def Dev.serT (d : Dev) (n : Nat) : Nat := clampN 40 4000 (d.get (R.POS_SER_CLK n) F.POS_SER_CLK_DIV) / 2 * 2

def Dev.posSdly (d : Dev) (n : Nat) : Nat := d.get (R.POS_SER_CLK n) F.POS_SER_CLK_SDLY

/-- CRC of BiSS-C (R175): x⁶ + x + 1 from 0 over the data bits, most significant first. -/
def crc6 : Nat → Nat → Nat
  | 0, _ => 0
  | n + 1, w =>
    let c := crc6 n (w / 2)
    let b := (c / 32 + w) % 2
    Nat.xor (c * 2 % 64) (if b = 1 then 3 else 0)

/-- A request not served (R173). -/
def Dev.posOverrun (d : Dev) (n : Nat) : Dev := d.posErr n Ev.POS_OVERRUN

/-- POS_REQ at interface `n` (R162, R169, R173). CFG_ERR of a format is judged here (R176; log entry 333, DEDUCED). -/
def Dev.posReq (d : Dev) (n : Nat) : Dev :=
  let m := d.posMode n
  let s := d.posS n
  if m = mdABZ ∨ m = mdHALL then d.edgeUpdate n d.gtc
  else if m = mdSSI ∨ m = mdBISS then
    let bad := !fmtOk (d.posFmt n)
    let d := d.putB (R.POS_STAT n) F.POS_STAT_CFG_ERR bad
    if s.frame.isSome || s.dataLow then d.posOverrun n
    else if bad then d
    else (d.setPos n { s with frame := some d.gtc, ack := false, start := none }).putB (R.POS_STAT n) F.POS_STAT_BUSY true
  else d

/-- The clock of a frame at tick `t` (R173, R174): low from F, high in the second half of every period from the first bit on; it
stays high after the last of `n` bits. The sample delay does not move it (log entry 307). -/
def clkLevel (per f n t : Nat) : Bool :=
  let k := (t - f) / per
  decide (n < k) || (decide (1 ≤ k) && decide (per ≤ 2 * ((t - f) % per)))

/-- The level that an interface drives at POSnn_A (R161, R174, R175): the SSI clock or MA, idle high; none where the pin is an
input, as it is in RESET, BOOT and FATAL (R486). A BiSS-C clock runs until the frame ends. -/
def Dev.posClk (d : Dev) (n : Nat) : Option Bool :=
  let m := d.posMode n
  if d.pinsLive = true ∧ (m = mdSSI ∨ m = mdBISS) then
    match (d.posS n).frame with
    | some f => some (clkLevel (d.serT n) f (if m = mdSSI then fmtBits (d.posFmt n) else d.gtc) d.gtc)
    | none => some true
  else none

/-- A sample of SLO in a BiSS-C frame (R175): the acknowledge, then the start bit; one in the tick in which TOUT expires is
ZERO_SLACK (R84). -/
def Dev.bissSample (d : Dev) (n : Nat) : Dev :=
  let s := d.posS n
  match s.frame with
  | some f =>
    let at1 := f + d.get (R.POS_SER_TIME n) F.POS_SER_TIME_TOUT
    let x := d.gtc - (f + d.posSdly n)
    if d.posMode n ≠ mdBISS ∨ s.start.isSome ∨ x < d.serT n ∨ x % d.serT n ≠ 0 ∨ at1 < d.gtc then d
    else if !s.ack then d.setPos n { s with ack := !s.b }
    else if s.b then
      let d := d.setPos n { s with start := some (x / d.serT n) }
      if d.gtc = at1 then d.zeroSlack 2 n else d
    else d
  | none => d

/-- The speed of a good word against the earlier ones (R177). -/
def wordSpd (m ts spdM : Nat) (l : List (Nat × Nat)) : Option Int :=
  let n := min spdM l.length
  match l.drop (n - 1) with
  | (t0, m0) :: _ => some (roundDiv (sext 20 (wrapN 20 ((m : Int) - m0)) * 2 ^ 20) (ts - t0))
  | [] => none

/-- A good word (R176, R177). DIR follows the sign of its speed and stands at speed 0 (log entry 332, DEDUCED). -/
def Dev.goodWord (d : Dev) (x m ts : Nat) : Dev :=
  let s := d.posS x
  let v := wordSpd m ts (d.posSpdM x) s.words
  let d := (d.setPos x { s with words := ((ts, m) :: s.words).take 256 }).posValid x true
  let d := match v with
    | some y => if y = 0 then d else d.putB (posStat x) F.POS_STAT_DIR (decide (y < 0))
    | none => d
  d.posDeliver x m v ts d.gtc false

/-- A serial word judged by a decoder (R176). -/
def Dev.serialWord (d : Dev) (x word ts : Nat) (crcOk : Bool) : Dev :=
  let f := d.posFmt x
  if fmtBad f word || !crcOk then (d.posErr x Ev.WORD_ERR).posValid x false
  else
    let (p, t) := fmtFields f word
    let d := if isShadow x then d else d.setReg (R.POS_TURNS x) (BitVec.ofNat 32 t)
    d.goodWord x ((p + d.posOfs x) % 2 ^ 20) ts

/-- Whether the CRC of a BiSS-C word holds (R175). -/
def crcHolds (bits word crc : Nat) : Bool := crc == 63 - crc6 bits word

/-- What a shadow with its own format decodes of a frame of `bits` data bits (R180): none where the clock stops before its last
bit; else its word, whether its CRC holds, and the tick of its last sample. `bis` gives a BiSS-C frame's start bit and CRC. -/
def Dev.shadowWord (d : Dev) (k n bits word f : Nat) (bis : Option (Nat × Nat)) : Option ShwSt :=
  let b := fmtBits (d.posFmt (16 + k))
  let dly := d.get (R.SHD_CFG k) F.SHD_CFG_SDLY
  if bits < b then none
  else match bis with
    | none => some { due := f + (b + 1) * d.serT n + dly, word := word / 2 ^ (bits - b), ok := true, f := f }
    | some (start, crc) =>
      let w := (word * 64 + crc) / 2 ^ (bits - b)
      some { due := f + (start + b + 7) * d.serT n + dly, word := w / 64, ok := crcHolds b (w / 64) (w % 64), f := f }

/-- A shadow's word is applied at the tick of its last sample. -/
def Dev.shadowApply (d : Dev) (k : Nat) : Dev :=
  match (d.posS (16 + k)).shw with
  | some w =>
    if w.due ≤ d.gtc then (d.setPos (16 + k) { d.posS (16 + k) with shw := none }).serialWord (16 + k) w.word w.f w.ok else d
  | none => d

/-- The word of a frame that began at `f`, at the interface and at every shadow that hears its pins (R180). -/
def Dev.frameWord (d : Dev) (n word f : Nat) (bis : Option (Nat × Nat)) : Dev :=
  let m := d.posMode n
  let bits := fmtBits (d.posFmt n)
  let crcOk := match bis with
    | some (_, crc) => crcHolds bits word crc
    | none => true
  let d := (d.setPos n { d.posS n with frame := none }).putB (R.POS_STAT n) F.POS_STAT_BUSY false
  let d := d.serialWord n word (f + d.posLat n) crcOk
  forN 12 (fun k e =>
    if e.posMode (16 + k) == m && e.shdSrc k == n && fmtOk (e.posFmt (16 + k)) then
      (e.setPos (16 + k) { e.posS (16 + k) with shw := e.shadowWord k n bits word f bis }).shadowApply k
    else e) d

/-- SSI_WORD (R174). -/
def Dev.ssiWord (d : Dev) (n word : Nat) : Dev :=
  match (d.posS n).frame with
  | some f =>
    if d.posMode n = mdSSI ∧ f + (fmtBits (d.posFmt n) + 1) * d.serT n + d.posSdly n ≤ d.gtc then d.frameWord n word f none
    else d
  | none => d

/-- BISS_WORD (R175): the start bit is the sample numbered `start`; the CRC comes as received. A start bit that the accepted levels
of the pin have not shown is judged here (log entry 191). -/
def Dev.bissWord (d : Dev) (n start word crc : Nat) : Dev :=
  match (d.posS n).frame with
  | some f =>
    let bits := fmtBits (d.posFmt n)
    let at1 := start * d.serT n + d.posSdly n
    let tout := d.get (R.POS_SER_TIME n) F.POS_SER_TIME_TOUT
    if d.posMode n = mdBISS ∧ at1 ≤ tout ∧ f + (start + bits + 7) * d.serT n + d.posSdly n ≤ d.gtc then
      let d := if at1 = tout ∧ (d.posS n).start = none then d.zeroSlack 2 n else d
      d.frameWord n word f (some (start, crc))
    else d
  | none => d

/-- POS_TIMEOUT (R175): no start bit has been seen by F + TOUT. -/
def Dev.posTimeout (d : Dev) (n : Nat) : Dev :=
  match (d.posS n).frame with
  | some f =>
    if d.posMode n = mdBISS ∧ (d.posS n).start = none ∧ f + d.get (R.POS_SER_TIME n) F.POS_SER_TIME_TOUT ≤ d.gtc then
      ((d.setPos n { d.posS n with frame := none }).putB (R.POS_STAT n) F.POS_STAT_BUSY false).posErr n Ev.POS_TIMEOUT
    else d
  | none => d

/-! ### Resolvers (R178, R179) -/

/-- Whether an accumulator's last commit can serve a resolver word (R179). -/
def Dev.accLos (d : Dev) (a : Nat) : Bool :=
  let st := R.ACC_STAT a
  d.flag st F.ACC_STAT_EMPTY || d.flag st F.ACC_STAT_SHORT || d.flag st F.ACC_STAT_SAT0
    || d.flag (R.EXC_STAT (d.get (R.ACC_CFG a) F.ACC_CFG_EXC)) F.EXC_STAT_FAULT

/-- A resolver word lost (R179). -/
def Dev.resLos (d : Dev) (n : Nat) : Dev := (d.posErr n Ev.RES_LOS).posValid n false

/-- The angle of a sine and a cosine; that of a zero vector the spec does not state (log entry 3, DESIGN CHOICE). -/
def Dev.vecAngle (d : Dev) (s c : Int) : Nat × Dev :=
  if s = 0 ∧ c = 0 then
    let (w, e) := d.fresh
    (w.toNat % 2 ^ 20, e)
  else (atan2Ang20 s c, d)

/-- Whether an accumulator has committed since the last word; one that does not exist has none to wait for (R179). -/
def Dev.resFresh (d : Dev) (used a : Nat) : Bool := decide (384 ≤ a) || (decide (used < (d.accS a).cAt) && decide ((d.accS a).cAt + 1 ≤ d.gtc))

/-- The commits that an interface's two accumulators have made so far count as used (R179). -/
def Dev.resSync (d : Dev) (n : Nat) : Dev :=
  let i := d.get (R.POS_RES_CFG n) F.POS_RES_CFG_ACC_SIN
  let j := d.get (R.POS_RES_CFG n) F.POS_RES_CFG_ACC_COS
  d.setPos n { d.posS n with useS := (d.accS i).cAt, useC := (d.accS j).cAt }

/-- RESOLVER_WORD (R179): both accumulators have committed since the last word, the later of them two ticks ago. Of several rows of
the table the first stands alone: CFG_ERR, the mismatch, the loss (log entry 334, DEDUCED). -/
def Dev.resolverWord (d : Dev) (n : Nat) : Dev :=
  let s := d.posS n
  let i := d.get (R.POS_RES_CFG n) F.POS_RES_CFG_ACC_SIN
  let j := d.get (R.POS_RES_CFG n) F.POS_RES_CFG_ACC_COS
  let p := d.accS i
  let q := d.accS j
  let bad := decide (384 ≤ i) || decide (384 ≤ j) || d.accExp0 i != d.accExp0 j
  if d.posMode n ≠ mdRES then d
  else if d.resFresh s.useS i && d.resFresh s.useC j then
    let d := (d.resSync n).putB (R.POS_STAT n) F.POS_STAT_CFG_ERR bad
    if bad then d
    else if p.cAt ≠ q.cAt ∨ p.cOpen ≠ q.cOpen then d.posErr n Ev.RES_MISMATCH
    else if d.accLos i || d.accLos j then d.resLos n
    else
      let y := mantW (d.reg (R.ACC_RES0 i))
      let x := mantW (d.reg (R.ACC_RES0 j))
      let lo : Int := 8 * (d.get (R.POS_RES_AMP n) F.POS_RES_AMP_AMP_LO : Nat)
      let hi : Int := 8 * (d.get (R.POS_RES_AMP n) F.POS_RES_AMP_AMP_HI : Nat)
      if y * y + x * x < lo * lo ∨ hi * hi < y * y + x * x then d.resLos n
      else
        let (a, d) := d.vecAngle y x
        d.goodWord n ((a + d.posOfs n) % 2 ^ 20) ((p.cOpen + p.cClose) / 2)
  else d

/-- PER of an output as it is taken (R178). -/
def Dev.excPer (d : Dev) (k : Nat) : Nat := clampN 20000 80000 (d.get (R.EXC_CFG k) F.EXC_CFG_PER)

/-- The part of an output's history that a delayed sign can still ask for. -/
def trimSegs (now : Nat) : List ExcSeg → List ExcSeg
  | [] => []
  | s :: r => if s.t0 + 2 ^ 17 ≤ now then [s] else s :: trimSegs now r

/-- A new stretch of an output from the present tick on. -/
def Dev.excPush (d : Dev) (k phi per : Nat) (run : Bool) : Dev :=
  let s : ExcSeg := { t0 := d.gtc, phi := phi, per := per, run := run }
  d.setExc k (trimSegs d.gtc (s :: (d.excS k).filter fun t => decide (t.t0 < d.gtc)))

/-- An output after a write of its configuration or of the page's enable (R178). -/
def Dev.excSync (d : Dev) (k : Nat) : Dev :=
  let run := d.flag (R.EXC_CFG k) F.EXC_CFG_EN && d.pageEn Pg.EXC
  let per := d.excPer k
  let d := d.putB (R.EXC_STAT k) F.EXC_STAT_RUN run
  match d.excPhase k d.gtc with
  | some (phi, p) => if !run then d.excPush k 0 per false else if p = per then d else d.excPush k (phi % per) per true
  | none => if run then d.excPush k 0 per true else d

/-- EXC_STAT.PHASE (R178, R187). -/
def Dev.excPhaseField (d : Dev) (k : Nat) : Nat :=
  match d.excPhase k d.gtc with
  | some (phi, per) => phi * 2 ^ 20 / per
  | none => 0

/-- EXC_PHASE at its effect tick (R178). -/
def Dev.excZero (d : Dev) (k : Nat) : Dev :=
  if d.frozen Pg.EXC then d
  else match d.excPhase k d.gtc with
    | some (_, per) => d.excPush k 0 per true
    | none => d

/-- The peak amplitude an output is commanded to, in millivolts (R178, R509). -/
def Dev.excAmp (d : Dev) (k : Nat) : Int := 40 * (min 125 (d.get (R.EXC_AMP k) F.EXC_AMP_AMP) : Nat)

/-- The voltage at pin EXCk in microvolts, to nearest (R178): the sine about V_mid, or V_mid. -/
def Dev.excPin (d : Dev) (k : Nat) : Int :=
  match (if d.pinsLive then d.excPhase k d.gtc else none) with
  | some (phi, per) => Config.vmid + roundDiv (1000 * d.excAmp k * (sinCosTurn phi per).1) (2 ^ 128)
  | none => Config.vmid

/-- Whether an amplitude read back, in millivolts, differs from the commanded one by more than 25 % (R178). -/
def Dev.excOff (d : Dev) (k : Nat) (mv : Int) : Bool := decide (d.excAmp k < 4 * ((mv - d.excAmp k).natAbs : Int))

/-- EXC_FAULT (R178): `mvs` are the amplitudes read back in successive periods up to the present one, newest first; the newest four
are off. -/
def Dev.excFault (d : Dev) (k : Nat) (mvs : List Int) : Dev :=
  if k < 4 ∧ (d.excPhase k d.gtc).isSome ∧ 4 ≤ mvs.length ∧ (mvs.take 4).all (d.excOff k) ∧ d.frozen Pg.EXC = false then
    (d.putB (R.EXC_STAT k) F.EXC_STAT_FAULT true).raiseN Pg.EXC Ev.EXC_FAULT k
  else d

/-! ### Shadow resolver (R181) -/

/-- A shadow's error. -/
def Dev.shdLoss (d : Dev) (n : Nat) : Dev := (d.posErr (16 + n) Ev.SHD_ERR).posValid (16 + n) false

/-- The word between two crossings (R181, R182): whether its amplitude is outside the shadow's limits, which the spec does
not state, is free (log entry 33, DESIGN CHOICE). -/
def Dev.shdResWord (d : Dev) (n : Nat) : Dev :=
  let s := d.posS (16 + n)
  let (w, d) := d.fresh
  if bitOf w 0 then d.shdLoss n
  else
    let (a, d) := d.vecAngle s.sumS s.sumC
    d.goodWord (16 + n) ((a + d.posOfs (16 + n)) % 2 ^ 20) ((s.crossAt - 1 + d.gtc) / 2)

/-- A Bank B output at a shadow in resolver mode. -/
def Dev.shdResSample (d : Dev) (n c : Nat) (y : Int) : Dev :=
  let r := R.SHD_RES n
  let x := 16 + n
  if d.posMode x ≠ mdRES then d
  else
    let s := d.posS x
    let f : Int := if s.eNeg then -1 else 1
    let s := if d.get r F.SHD_RES_SDD_S = c then { s with sumS := s.sumS + f * y } else s
    let s := if d.get r F.SHD_RES_SDD_C = c then { s with sumC := s.sumC + f * y } else s
    let d := d.setPos x s
    if d.get r F.SHD_RES_SDD_E = c then
      if s.eNeg && decide (0 ≤ y) then
        let d := if s.crossAt = 0 then d else d.shdResWord n
        let t := d.posS x
        d.setPos x { t with eNeg := false, sumS := 0, sumC := 0, lost := false, crossAt := d.gtc + 1,
                            crossPer := if s.crossAt = 0 then 0 else d.gtc + 1 - s.crossAt }
      else d.setPos x { s with eNeg := decide (y < 0) }
    else d

/-- A Bank B output at every shadow. -/
def Dev.shdSample (d : Dev) (c : Nat) (y : Int) : Dev := forN (nPos d.member) (fun n e => e.shdResSample n c y) d

/-- SHADOW_EXC_LOSS (R181). -/
def Dev.shdExcLoss (d : Dev) (n : Nat) : Dev :=
  let s := d.posS (16 + n)
  if d.posMode (16 + n) = mdRES ∧ s.crossPer ≠ 0 ∧ s.lost = false ∧ s.crossAt + 2 * s.crossPer ≤ d.gtc + 1 then
    (d.setPos (16 + n) { s with lost := true }).shdLoss n
  else d

/-! ### Enabling -/

/-- A decoder that begins afresh in a mode: VALID cleared, STOPPED set, a running frame dropped, UNCERT as it stood (log entry 34,
DEDUCED); an index, edges, words and commits count from here (R166, R170, R177, R179). The index
count that POS_IDX_EXP shows stays (R164). -/
def Dev.posRestart (d : Dev) (x : Nat) : Dev :=
  let s := d.posS x
  let d := d.setPos x { a := s.a, b := s.b, z := s.z, dataLow := s.dataLow, cnt := s.cnt, exp := s.exp }
  let d := if d.posMode x = mdHALL then
      d.setPos x { d.posS x with sec := d.hallSector x (b2n s.a + 2 * b2n s.b + 4 * b2n s.z) } else d
  let d := (d.posValid x false).putB (posStat x) F.POS_STAT_STOPPED true
  if isShadow x then d
  else
    let d := if d.posMode x = mdHALL then d.commHall x (d.hallCode x) else d
    ((d.putB (R.POS_STAT x) F.POS_STAT_BUSY false).putB (R.POS_STAT x) F.POS_STAT_IDX_SEEN false).resSync x

/-- A write of POS_CFG or SHD_CFG at an address: a change of the mode in force is an enable (log entry 34, DEDUCED). An index that
becomes awaited takes VALID until it comes (R166). -/
def Dev.posCfgWrite (d : Dev) (mid x a : Nat) (w : Word) : Dev :=
  let was := d.posMode x
  let idx := d.posIdxEn x
  let d := d.plainWrite mid a w
  if d.posMode x ≠ was then d.posRestart x
  else if d.posMode x = mdABZ ∧ d.posIdxEn x ∧ !idx ∧ !(d.posS x).seen then d.posValid x false
  else d

/-- A write of POS_IDX_CTRL (R166): levels that a waiting index now asks for give it in this tick, and an index asked for without
levels comes with the next change of Z alone; CORR acts at the following index. -/
def Dev.idxCtrlWrite (d : Dev) (mid n a : Nat) (w : Word) : Dev :=
  let had := d.idxCorr n
  let taken := d.takenAt mid a
  let d := d.plainWrite mid a w
  let d := if taken then d.setPos n { d.posS n with corr := some (d.gtc, had) } else d
  let s := d.posS n
  if d.posMode n = mdABZ ∧ d.posIdxEn n ∧ s.idxWait ∧ s.z ∧ d.idxFits n s.a s.b then
    let d := d.setPos n { s with idxWait := false }
    if 4 ≤ d.posQual n then d.posIndex n false else d
  else d

/-- A write of POS_RES_CFG: commits made before it are no part of a word (R179). -/
def Dev.resCfgWrite (d : Dev) (mid n a : Nat) (w : Word) : Dev :=
  let was := d.reg a
  let d := d.plainWrite mid a w
  if d.reg a = was then d else d.resSync n

/-! ### Encoder emulation (R183, R184) -/

def Dev.emuRuns (d : Dev) (n : Nat) : Bool :=
  decide (n < 4) && d.flag (R.EMU_CFG n) F.EMU_CFG_EN && decide (d.get (R.EMU_CFG n) F.EMU_CFG_TRK < nTracks)
    && !d.frozen Pg.EMU

def Dev.emuCpr (d : Dev) (n : Nat) : Nat := 4 * clampN 1 65536 (d.get (R.EMU_CFG n) F.EMU_CFG_LINES)

/-- The target count. -/
def Dev.emuTarget (d : Dev) (n : Nat) : Nat := (d.trkS (d.get (R.EMU_CFG n) F.EMU_CFG_TRK)).ang * d.emuCpr n / 2 ^ 40

def Dev.emuOut (d : Dev) (n : Nat) : Nat := d.get (R.EMU_STAT n) F.EMU_STAT_OUT

/-- d of R183, from −CPR/2 + 1 to CPR/2. -/
def Dev.emuDist (d : Dev) (n : Nat) : Int :=
  let c := d.emuCpr n
  let r : Int := ((d.emuTarget n : Int) - d.emuOut n) % (c : Int)
  if 2 * r ≤ c then r else r - c

/-- LAGGING follows the distance; EMU_LAG each time it is set (R184). -/
def Dev.emuLag (d : Dev) (n : Nat) : Dev :=
  if !d.emuRuns n then d
  else
    let was := d.flag (R.EMU_STAT n) F.EMU_STAT_LAGGING
    let lag := decide (d.get (R.EMU_EDGE n) F.EMU_EDGE_LAG_MAX < (d.emuDist n).natAbs)
    (d.putB (R.EMU_STAT n) F.EMU_STAT_LAGGING lag).raiseNIf (lag && !was) Pg.EMU Ev.EMU_LAG n

/-- EMU_STEP (R183, R184). -/
def Dev.emuStep (d : Dev) (n : Nat) : Dev :=
  let s := d.emuS n
  let x := d.emuDist n
  let trk := d.get (R.EMU_CFG n) F.EMU_CFG_TRK
  let hold := d.flag (R.EMU_CFG n) F.EMU_CFG_HOLD && !d.trkValid trk
  let gap := max 20 (d.get (R.EMU_EDGE n) F.EMU_EDGE_MIN_EDGE)
  if d.emuRuns n && x != 0 && !hold && (s.stepAt == 0 || decide (s.stepAt + gap ≤ d.gtc + 1)) then
    let out := d.emuOut n
    let c := d.emuCpr n
    let next := if 0 < x then (out + 1) % c else (out + c - 1) % c
    ((d.setEmu n { s with stepAt := d.gtc + 1, prev := out }).put (R.EMU_STAT n) F.EMU_STAT_OUT next).emuLag n
  else d

/-- The levels of an output's pins (A, B, Z): two ticks behind its count; none where it does not drive them, as up to the tick in
which EN rises (R183, R184). -/
def Dev.emuPins (d : Dev) (n : Nat) : Option (Bool × Bool × Bool) :=
  let s := d.emuS n
  if d.pinsLive = true ∧ d.flag (R.EMU_STAT n) F.EMU_STAT_RUN = true ∧ s.onAt < d.gtc + 1 then
    let o := if s.stepAt ≠ 0 ∧ d.gtc < s.stepAt + 1 then s.prev else d.emuOut n
    let a := o % 4 == 1 || o % 4 == 2
    let b := o % 4 == 2 || o % 4 == 3
    some (if d.flag (R.EMU_CFG n) F.EMU_CFG_INV then (b, a, o == 0) else (a, b, o == 0))
  else none

/-- A write of EMU_CFG (R184): where EN rises, OUT takes the target. -/
def Dev.emuCfgWrite (d : Dev) (mid n a : Nat) (w : Word) : Dev :=
  let was := d.emuRuns n
  let d := d.plainWrite mid a w
  let d := d.putB (R.EMU_STAT n) F.EMU_STAT_RUN (d.emuRuns n)
  if d.emuRuns n && !was then (d.setEmu n { onAt := d.gtc + 1 }).put (R.EMU_STAT n) F.EMU_STAT_OUT (d.emuTarget n)
  else if !d.emuRuns n then d.putB (R.EMU_STAT n) F.EMU_STAT_LAGGING false
  else d.emuLag n

/-! ### What a tick brings -/

/-- Shadows' zero speed and words, samples of SLO and the emulation outputs' lag have no row of their own: they are judged in
every tick. -/
def Dev.posTick (d : Dev) : Dev :=
  let d := forN (nPos d.member) (fun n e =>
    let e := e.bissSample n
    if e.posMode (16 + n) = 0 then e else (e.zeroSpd (16 + n)).shadowApply n) d
  forN 4 (fun n e => e.emuLag n) d

/-! ### Latching reads (R186) -/

def Dev.posAngRead (d : Dev) (mid n : Nat) (shadow : Bool) : Dev :=
  let l (e : Dev) (a : Nat) : Dev := e.latchW mid a (e.reg a)
  if shadow then (l (l d (R.SHD_SPD n)) (R.SHD_STAT n)).answer mid (d.reg (R.SHD_ANG n))
  else (l (l (l d (R.POS_SPD n)) (R.POS_STAT n)) (R.POS_TURNS n)).answer mid (d.reg (R.POS_ANG n))

/-! ### Meanings -/

def execPosReq (slot : Nat) (s : State) :=
  onLive (fun d => d.runAction slot 6 12 (fun n => decide (n < nPos d.member)) (fun n e => e.posReq n)) s
def execExcPhase (slot : Nat) (s : State) := onLive (fun d => d.runAction slot 7 4 (fun _ => true) (fun k e => e.excZero k)) s
def execPosEdgeAccept (pos : Nat) (a b z : Bool) (s : State) :=
  onLive (fun d => if pos < nPos d.member then d.posAccept pos a b z else d) s
def execUpdMinExpiry (pos : Nat) (s : State) := onLive (fun d => if pos < nPos d.member then d.updMinExpiry pos else d) s
def execDecayUpdate (pos : Nat) (s : State) := onLive (fun d => if pos < nPos d.member then d.decayUpdate pos else d) s
def execZeroSpd (pos : Nat) (s : State) := onLive (fun d => if pos < nPos d.member then d.zeroSpd pos else d) s
def execSsiWord (pos word : Nat) (s : State) := onLive (fun d => if pos < nPos d.member then d.ssiWord pos word else d) s
def execBissWord (pos start word crc : Nat) (s : State) :=
  onLive (fun d => if pos < nPos d.member then d.bissWord pos start word crc else d) s
def execPosTimeout (pos : Nat) (s : State) := onLive (fun d => if pos < nPos d.member then d.posTimeout pos else d) s
def execResolverWord (pos : Nat) (s : State) := onLive (fun d => if pos < nPos d.member then d.resolverWord pos else d) s
def execExcFault (exc : Nat) (mvs : List Int) (s : State) := onLive (fun d => d.excFault exc mvs) s
def execShadowEdgeAccept (shd : Nat) (a b z : Bool) (s : State) :=
  onLive (fun d => if shd < nPos d.member then d.posAccept (16 + shd) a b z else d) s
def execShadowExcLoss (shd : Nat) (s : State) := onLive (fun d => if shd < nPos d.member then d.shdExcLoss shd else d) s
def execEmuStep (out : Nat) (s : State) := onLive (fun d => d.emuStep out) s

end Sys2Proof.Machine
end

