-- ==== Sys2Proof/Machine/Stages.lean ====
section
/-! DEFINITION. The stage library (chapter 09, R243 to R269): what every kind of stage computes, in exact arithmetic with the
roundings of R201 to R203 and R247. -/

namespace Sys2Proof.Machine

/-! ### Values and roundings -/

/-- What a stage writes as an output: an exact value, the square root of one, or an angle in counts (R204, R247). -/
inductive Val where
  | num (x : Frac)
  | root (x : Frac)
  | angle (x : Frac)
  deriving DecidableEq, Repr

/-- What a stage writes into a pool word: a value at EXP, an angle state, a word (R244). -/
inductive WVal where
  | e (x : Frac)
  | a (x : Frac)
  | u (w : Nat)
  deriving DecidableEq, Repr

/-- The square root of a fraction, to the nearest integer (ties up); of a negative one 0 (R247 rule 6). -/
def rootRound (x : Frac) : Int :=
  if x.num ≤ 0 ∨ x.den = 0 then 0 else (((isqrt (4 * x.num.toNat / x.den) + 1) / 2 : Nat) : Int)

/-- A value as a mantissa at an exponent, rounded once and bounded; an angle as ANG20. -/
def Val.mant (v : Val) (e : Int) : Int × Bool :=
  match v with
  | .num x => mantOf x e
  | .root x => boundMant (rootRound (x.shl (2 * (19 - e))))
  | .angle x => ((wrapN 20 x.floor : Nat), false)

def Val.isAngle : Val → Bool
  | .angle _ => true
  | _ => false

def Val.isZero : Val → Bool
  | .num x => x.isZero
  | .root x => x.isZero
  | .angle _ => true

/-- The power of two `n` for which a positive fraction, divided by it, lies from 2^31 up to below 2^32. -/
def sigExp (num den : Nat) : Int :=
  let k : Int := (num.log2 : Int) - (den.log2 : Int) - 31
  if Frac.le ((pow2 (k + 32))) ⟨num, den⟩ then k + 1 else if Frac.lt ⟨num, den⟩ (pow2 (k + 31)) then k - 1 else k

/-- A value rounded to 32 significant bits, ties away from zero (R247 rule 1). -/
def sig32 (x : Frac) : Frac :=
  if x.num = 0 ∨ x.den = 0 then ⟨0, 1⟩
  else
    let n := sigExp x.num.natAbs x.den
    (Frac.ofInt (x.shl (-n)).round).shl n

/-- A square root rounded to 32 significant bits (R247 rules 1, 2 and 6). -/
def rootSig32 (x : Frac) : Frac :=
  if x.num ≤ 0 ∨ x.den = 0 then ⟨0, 1⟩
  else
    let k : Int := sigExp x.num.toNat x.den
    let n := (k - 31) / 2
    let m := if Frac.le (pow2 64) (x.shl (-2 * n)) then n + 1 else if Frac.lt (x.shl (-2 * n)) (pow2 62) then n - 1 else n
    (Frac.ofInt (rootRound (x.shl (-2 * m)))).shl m

/-- The constants of R247 rule 1. -/
def kSqrt3 : Frac := rootSig32 ⟨3, 1⟩
def kInvSqrt3 : Frac := rootSig32 ⟨1, 3⟩
def kTwoPi : Frac := sig32 ⟨2 * fxPi, 2 ^ 128⟩
def kInvTwoPi : Frac := sig32 ⟨2 ^ 128, (2 * fxPi).toNat⟩

/-- √3 / 2: the constant halved. -/
def kHalfSqrt3 : Frac := kSqrt3.shl (-1)

/-- Sine and cosine of an angle in counts, to the nearest multiple of 2^−30 (R247 rule 3). -/
def sinCosCounts (a : Frac) : Frac × Frac :=
  let (s, c) := sinCosTurn a.num (a.den * 2 ^ 20)
  (⟨roundDiv (s * 2 ^ 30) (2 ^ 128), 2 ^ 30⟩, ⟨roundDiv (c * 2 ^ 30) (2 ^ 128), 2 ^ 30⟩)

/-- Radians to counts (R247 rule 3). -/
def toCounts (x : Frac) : Frac := (x.shl 20).mul kInvTwoPi

/-- clamp and sign of R247 rule 4. -/
def fclamp (x lo hi : Frac) : Frac := (x.max lo).min hi
def fsign (x : Frac) : Frac := if x.num < 0 then ⟨-1, 1⟩ else ⟨1, 1⟩
def fzero : Frac := ⟨0, 1⟩
def fone : Frac := ⟨1, 1⟩
def fhalf : Frac := ⟨1, 2⟩

/-- A count as a fraction. -/
def frN (n : Nat) (d : Nat := 1) : Frac := ⟨(n : Int), d⟩

/-! ### Kinds (R249) -/

/-- The classes and forms of pool words (R243, R244); `u` carries the bits its fields take (R269). -/
inductive WCls where
  | k | p | s
  deriving DecidableEq, Repr

inductive WForm where
  | link | px | e | a
  | pn (n : Nat)
  | u (mask : Nat)
  deriving DecidableEq, Repr

def wLink : WCls × WForm := (.k, .link)
def wPx : WCls × WForm := (.k, .px)
def wP (n : Nat) : WCls × WForm := (.p, .pn n)
def wE : WCls × WForm := (.s, .e)
def wKU (m : Nat) : WCls × WForm := (.k, .u m)

/-- Operand roles (R246). -/
inductive Role where
  | v | g | none
  deriving DecidableEq, Repr

/-- One row of R249 with the kind's words: frames, words, roles of A to D, outputs, the angle-form output. -/
structure Kind where
  code : Nat
  f : Nat
  words : List (WCls × WForm)
  roles : List Role
  outs : Nat
  angOut : Option Nat := none
  deriving DecidableEq, Repr

def kCLARKE : Nat := 1
def kPARK : Nat := 2
def kIPARK : Nat := 3
def kPI : Nat := 4
def kPID : Nat := 5
def kDECOUPLE : Nat := 6
def kSVM : Nat := 7
def kMTPA : Nat := 8
def kFW : Nat := 9
def kFLUXOBS : Nat := 10
def kPLL : Nat := 11
def kPROFILE : Nat := 12
def kBIQUAD : Nat := 13
def kTABLE : Nat := 14
def kDCLIM : Nat := 15
def kMODESEL : Nat := 16
def kPREDICT : Nat := 17
def kTORQUE : Nat := 18
def kINJECT : Nat := 19
def kCAPTURE : Nat := 20

def roles4 (a b c d : Role) : List Role := [a, b, c, d]

/-- The kinds of R249 with the word tables of R250 to R269. -/
def kindTable : List Kind :=
  [⟨kCLARKE, 1, [wLink, wKU 1], roles4 .v .v .v .none, 3, none⟩,
   ⟨kPARK, 2, [wLink], roles4 .v .v .g .g, 2, none⟩,
   ⟨kIPARK, 2, [wLink], roles4 .v .v .g .g, 2, none⟩,
   ⟨kPI, 1, [wLink, wPx, wKU 0xFFFFFFFF, wP 0, wP 1, wP 2, wP 3, wE, wE, wE], roles4 .v .v .v .v, 3, none⟩,
   ⟨kPID, 2, [wLink, wPx, wKU 0xFFFFFFFF, wP 0, wP 1, wP 2, wP 3, wP 4, (.p, .u 0x8000FFFF), wE, wE, wE, wE, wE],
     roles4 .v .v .v .v, 3, none⟩,
   ⟨kDECOUPLE, 1, [wLink, wPx, wP 0, wP 1, wP 2], roles4 .v .v .v .none, 2, none⟩,
   ⟨kSVM, 2, [wLink, wPx, wKU 7, wP 0, wP 1], roles4 .v .v .v .none, 4, none⟩,
   ⟨kMTPA, 2, [wLink, wPx, wP 0] ++ List.replicate 9 (wP 1) ++ List.replicate 9 (wP 2), roles4 .v .none .none .none, 2, none⟩,
   ⟨kFW, 2, [wLink, wPx, wP 0, wP 1, wP 2, wP 3, wE], roles4 .v .v .v .none, 3, none⟩,
   ⟨kFLUXOBS, 2, [wLink, wPx, wP 0, wP 1, wP 2, wP 3, wP 4, wE, wE], roles4 .v .v .v .v, 4, none⟩] ++
  [⟨kPLL, 2, [wLink, wPx, wP 0, wP 1, wP 2, wP 3, (.s, .a), wE], roles4 .v .v .v .none, 2, some 0⟩,
   ⟨kPROFILE, 2, [wLink, wPx, wP 0, wP 1, wP 2, wE, wE], roles4 .v .none .none .none, 3, none⟩,
   ⟨kBIQUAD, 1, [wLink, wPx, wP 0, wP 1, wP 2, wP 3, wP 4, wE, wE], roles4 .v .none .none .none, 1, none⟩,
   ⟨kTABLE, 1, [wLink, wPx, wP 0, wP 1] ++ List.replicate 8 (wP 2), roles4 .v .none .none .none, 1, none⟩,
   ⟨kDCLIM, 1, [wLink, wPx, wP 0, wP 1, wP 2, wP 3], roles4 .v .v .v .none, 2, none⟩,
   ⟨kMODESEL, 1, [wLink, wPx, wP 0, wP 1, wP 2, wP 3, wKU 0x1F] ++ List.replicate 6 (wKU 0xFFFC000F)
      ++ [(.s, .u 0x0FFF000F), (.s, .u 0x00FFFFFF)], roles4 .v .v .v .v, 4, none⟩,
   ⟨kPREDICT, 1, [wLink, wPx, wP 0, wKU 0x80FFFFFF], roles4 .v .v .v .v, 2, none⟩,
   ⟨kTORQUE, 1, [wLink, wPx, wKU 0x8000001F, wP 0, wP 1, wP 2], roles4 .v .v .v .v, 1, none⟩,
   ⟨kINJECT, 1, [wLink, wPx, wKU 0xFC00FFFF, (.p, .u 0xFFFFF), wP 0, (.s, .u 0xFFFFF), (.s, .u 0x7FFF)],
     roles4 .v .none .none .none, 3, some 2⟩,
   ⟨kCAPTURE, 2, [wLink, wKU 0xFFFFFFFF, wE, wE, (.s, .u 0xFFF), wE, wE], roles4 .v .g .none .none, 3, none⟩]

/-- The row of a kind. -/
def kindOf (code : Nat) : Option Kind := kindTable.find? fun k => k.code == code

/-- Where the CFG of a kind with MSTAGE stands (R248). -/
def modeWord (code : Nat) : Option Nat :=
  if code = kPI ∨ code = kPID ∨ code = kINJECT then some 2 else if code = kCAPTURE then some 1 else none

/-! ### One stage's run -/

/-- What a stage reads: kind, EXP, its pool words, operands A to D, whether the pass is speculative, CMP1, activity under
R248, the qualifiers of the eight slots, and N_p of a predictor's PART slot. -/
structure StgIn where
  kind : Nat := 0
  exp : Int := 0
  words : List Word := []
  ops : List Opd := []
  spec : Bool := false
  cmp1 : Bool := false
  act : Bool := true
  enter : Bool := false
  quals : List (List Bool) := []
  np : Nat := 0
  deriving DecidableEq, Repr

/-- What a stage yields: outputs, pool words, the mode and the former mode of a MODESEL stage, predictions. -/
structure StgOut where
  outs : List Val := []
  words : List (Nat × WVal) := []
  mode : Option (Nat × Nat) := none
  preds : List (Bool × Frac) := []
  deriving DecidableEq, Repr

def StgIn.w (i : StgIn) (n : Nat) : Word := nthD 0 i.words n
def StgIn.op (i : StgIn) (n : Nat) : Frac := (nthD {} i.ops n).x

/-- A parameter word at its PX exponent (R244, R245). -/
def StgIn.p (i : StgIn) (n e : Nat) : Frac := bfVal (mantW (i.w n)) (sext 6 ((i.w 1).toNat / 2 ^ (6 * e)))

/-- A state word at EXP, the value one becomes when it is stored, and an angle state in counts (R244). -/
def StgIn.e (i : StgIn) (n : Nat) : Frac := bfVal (mantW (i.w n)) i.exp
def StgIn.stored (i : StgIn) (x : Frac) : Frac := bfVal (mantOf x i.exp).1 i.exp
def StgIn.angle (i : StgIn) (n : Nat) : Frac := frN ((i.w n).toNat % 2 ^ 20 * 2 ^ 12 + (i.w n).toNat / 2 ^ 20) (2 ^ 12)

/-- CLARKE (R250). -/
def stClarke (i : StgIn) : StgOut :=
  let a := i.op 0
  let b := i.op 1
  if bitOf (i.w 1) 0 then
    let c := i.op 2
    { outs := [.num ((((a.shl 1).sub b).sub c).mul ⟨1, 3⟩), .num ((b.sub c).mul kInvSqrt3),
               .num (((a.add b).add c).mul ⟨1, 3⟩)] }
  else { outs := [.num a, .num ((a.add (b.shl 1)).mul kInvSqrt3), .num fzero] }

/-- θ′ of PARK and IPARK (R251). -/
def StgIn.theta (i : StgIn) : Frac := (i.op 2).add (i.op 3)

def stPark (i : StgIn) : StgOut :=
  let (s, c) := sinCosCounts i.theta
  { outs := [.num (((i.op 0).mul c).add ((i.op 1).mul s)), .num (((i.op 1).mul c).sub ((i.op 0).mul s))] }

def stIpark (i : StgIn) : StgOut :=
  let (s, c) := sinCosCounts i.theta
  { outs := [.num (((i.op 0).mul c).sub ((i.op 1).mul s)), .num (((i.op 0).mul s).add ((i.op 1).mul c))] }

/-- The common part of PI and PID (R252, R253): gains and limits, the word of the integrator, the first of the two hand-over
words, and DF′. -/
def piCore (i : StgIn) (kp ki hi lo : Frac) (iw dw : Nat) (df : Frac) : StgOut :=
  let eps := (i.op 0).sub (i.op 1)
  let c := i.op 2
  let dd := i.op 3
  if !i.act then
    { outs := [.num dd, .num (i.e iw), .num dd], words := [(dw, .e fzero), (dw + 1, .e fzero)] }
  else
    let ic := if i.enter then ((dd.sub (kp.mul eps)).sub df).sub c else (i.e iw).add (ki.mul eps)
    let v := (((kp.mul eps).add ic).add df).add c
    let u := fclamp v lo hi
    let i' := ic.sub (v.sub u)
    let hover := (i.w 2).toNat / 2 ^ 16 % 2 ^ 12
    let old := i.e dw
    let dlt :=
      if i.enter then (if hover = 0 then fzero else dd.sub u)
      else (fsign old).mul ((old.abs.sub (i.e (dw + 1))).max fzero)
    let stp := if i.enter then (if hover = 0 then fzero else dlt.abs.div (frN hover)) else i.e (dw + 1)
    { outs := [.num (u.add (i.stored dlt)), .num i', .num v], words := [(iw, .e i'), (dw, .e dlt), (dw + 1, .e stp)] }

/-- PI (R252). -/
def stPi (i : StgIn) : StgOut := piCore i (i.p 3 0) (i.p 4 1) (i.p 5 2) (i.p 6 3) 7 8 fzero

/-- PID (R253). -/
def stPid (i : StgIn) : StgOut :=
  let al := i.w 8
  let a : Frac := frN (al.toNat % 65536) 65536
  let x := if bitOf al 31 then (i.op 1).neg else (i.op 0).sub (i.op 1)
  let ue := (i.p 5 2).mul x
  let df := if i.act then (a.mul (i.e 10)).add ((fone.sub a).mul (ue.sub (i.e 11))) else fzero
  let r := piCore i (i.p 3 0) (i.p 4 1) (i.p 6 3) (i.p 7 4) 9 12 df
  { r with words := [(10, .e df), (11, .e ue)] ++ r.words }

/-- DECOUPLE (R254). -/
def stDecouple (i : StgIn) : StgOut :=
  { outs := [.num (((i.op 0).mul (i.p 3 1)).mul (i.op 2)).neg,
             .num ((i.op 0).mul (((i.p 2 0).mul (i.op 1)).add (i.p 4 2)))] }

/-- SVM (R255). -/
def stSvm (i : StgIn) : StgOut :=
  let a := i.op 0
  let b := i.op 1
  let c := i.op 2
  if c.num ≤ 0 then { outs := [.num fhalf, .num fhalf, .num fhalf, .num fzero] }
  else
    let h := kHalfSqrt3.mul b
    let ha := a.shl (-1)
    let m := (rootSig32 ((a.mul a).add (b.mul b))).div (c.mul kInvSqrt3)
    let m32 := sig32 m
    let big := bitOf (i.w 2) 2 && fone.lt m32
    let sc (x : Frac) : Frac := if big then sig32 (x.div m32) else x
    let u := sc a
    let v := sc (ha.neg.add h)
    let w := sc (ha.neg.sub h)
    let hi := (u.max v).max w
    let lo := (u.min v).min w
    let zs := (i.w 2).toNat % 4
    let hc := c.shl (-1)
    let v0 := if zs = 1 then fzero
      else if zs = 2 then (if (hi.add lo).num < 0 then hc.neg.sub lo else hc.sub hi)
      else ((hi.add lo).shl (-1)).neg
    let duty (x : Frac) : Val := .num (fclamp (fhalf.add (sig32 ((x.add v0).div c))) (i.p 3 0) (i.p 4 1))
    { outs := [duty u, duty v, duty w, .num m] }

/-- MTPA (R256). -/
def stMtpa (i : StgIn) : StgOut :=
  let a := i.op 0
  let ts := i.p 2 0
  let sg := fsign a
  if ts.num ≤ 0 then { outs := [.num (i.p 3 1), .num (sg.mul (i.p 12 2))] }
  else
    let x := sig32 (a.abs.div ts)
    let k := min x.floor.toNat 7
    let f := (x.sub (frN k)).min fone
    let d0 := i.p (3 + k) 1
    let q0 := i.p (12 + k) 2
    { outs := [.num (d0.add (f.mul ((i.p (4 + k) 1).sub d0))),
               .num (sg.mul (q0.add (f.mul ((i.p (13 + k) 2).sub q0))))] }

/-- FW (R257). -/
def stFw (i : StgIn) : StgOut :=
  let idmin := i.p 4 2
  let imax := i.p 5 3
  let dl := fclamp ((i.e 6).add ((i.p 2 0).mul ((i.p 3 1).sub (i.op 2)))) idmin fzero
  let id := ((i.op 0).add dl).max idmin
  let q := rootSig32 ((imax.mul imax).sub (id.mul id))
  { outs := [.num id, .num (fclamp (i.op 1) q.neg q), .num dl], words := [(6, .e dl)] }

/-- FLUXOBS (R258). -/
def stFluxobs (i : StgIn) : StgOut :=
  let a := i.op 0
  let b := i.op 1
  let t := i.p 2 0
  let r := i.p 3 1
  let lq := i.p 4 2
  let g := i.p 6 4
  let sa := (i.e 7).add (t.mul ((i.op 2).sub (r.mul a)))
  let sb := (i.e 8).add (t.mul ((i.op 3).sub (r.mul b)))
  let pa := sa.sub (lq.mul a)
  let pb := sb.sub (lq.mul b)
  let mm := (pa.mul pa).add (pb.mul pb)
  let m := rootSig32 mm
  let res := m.sub (i.p 5 3)
  let fix (s p : Frac) : Frac := s.sub (sig32 ((((t.mul g).mul res).mul p).div m))
  let on := !m.isZero && !g.isZero
  { outs := [.num pa, .num pb, .root mm, .num res],
    words := [(7, .e (if on then fix sa pa else sa)), (8, .e (if on then fix sb pb else sb))] }

/-- PLL (R259). -/
def stPll (i : StgIn) : StgOut :=
  let a := i.op 0
  let b := i.op 1
  let th := i.angle 6
  let n := rootSig32 ((a.mul a).add (b.mul b))
  let (s, c) := sinCosCounts th
  let eps := if n.isZero then fzero else sig32 (((b.mul c).sub (a.mul s)).div n)
  let wm := i.p 5 3
  let i' := fclamp ((i.e 7).add ((i.p 4 2).mul eps)) wm.neg wm
  let w := fclamp ((i'.add ((i.p 3 1).mul eps)).add (i.op 2)) wm.neg wm
  let tc := th.add (toCounts eps)
  { outs := [.angle tc, .num w], words := [(6, .a (tc.add (toCounts (w.mul (i.p 2 0))))), (7, .e i')] }

/-- PROFILE (R260). -/
def stProfile (i : StgIn) : StgOut :=
  let vm := i.p 2 0
  let jt := i.p 4 2
  let t := fclamp (i.op 0) vm.neg vm
  let dl := t.sub (i.e 5)
  let (v, dv) :=
    if dl.isZero then (t, fzero)
    else
      let g := (fsign dl).mul ((i.p 3 1).min (rootSig32 ((jt.shl 1).mul dl.abs)))
      let dv := (i.e 6).add (fclamp (g.sub (i.e 6)) jt.neg jt)
      let v := (i.e 5).add dv
      if ((t.sub v).mul dl).num ≤ 0 then (t, fzero) else (v, dv)
  { outs := [.num v, .num dv, .num (t.sub v)], words := [(5, .e v), (6, .e dv)] }

/-- BIQUAD (R261). -/
def stBiquad (i : StgIn) : StgOut :=
  let a := i.op 0
  let y := ((i.p 2 0).mul a).add (i.e 7)
  { outs := [.num y],
    words := [(7, .e ((((i.p 3 1).mul a).sub ((i.p 5 3).mul y)).add (i.e 8))),
              (8, .e (((i.p 4 2).mul a).sub ((i.p 6 4).mul y)))] }

/-- TABLE (R262). -/
def stTable (i : StgIn) : StgOut :=
  let dx := i.p 3 1
  if dx.num ≤ 0 then { outs := [.num (i.p 4 2)] }
  else
    let x := fclamp (sig32 (((i.op 0).sub (i.p 2 0)).div dx)) fzero ⟨7, 1⟩
    let k := min x.floor.toNat 6
    let y := i.p (4 + k) 2
    { outs := [.num (y.add ((x.sub (frN k)).mul ((i.p (5 + k) 2).sub y)))] }

/-- A limit factor of DCLIM (R263): 1 at `full`, 0 at `none`, linear between; with no room between, a step. -/
def dcFactor (x on off : Frac) : Frac := sig32 ((x.sub off).div (on.sub off))

/-- DCLIM (R263). -/
def stDclim (i : StgIn) : StgOut :=
  let a := i.op 0
  let b := i.op 1
  let on := i.p 2 0
  let full := i.p 3 1
  let lon := i.p 4 2
  let lfull := i.p 5 3
  let khi :=
    if full.le on then (if b.lt full then fone else fzero)
    else if b.le on then fone else if full.le b then fzero else dcFactor b on full
  let klo :=
    if lon.le lfull then (if lfull.lt b then fone else fzero)
    else if lon.le b then fone else if b.le lfull then fzero else dcFactor b lon lfull
  let y := a.mul (if (a.mul (i.op 2)).num < 0 then khi else klo)
  { outs := [.num y, .num (a.sub y)] }

/-- Whether a rule's condition holds (R264). -/
def StgIn.ruleTrue (i : StgIn) (w : Word) : Bool :=
  let cond := w.toNat / 2 ^ 28 % 8
  let src := w.toNat / 2 ^ 25 % 8
  let sl := w.toNat / 2 ^ 22 % 8
  let x := i.op src
  let th := i.p (2 + sl) sl
  let q := nthD false (nthD [] i.quals src) sl
  if cond = 0 then th.lt x else if cond = 1 then x.lt th else if cond = 2 then th.lt x.abs else if cond = 3 then x.abs.lt th
  else if cond = 4 then q else if cond = 5 then !q else cond == 6

/-- MODESEL (R264). -/
def stModesel (i : StgIn) : StgOut :=
  let mst := (i.w 13).toNat
  let prev := mst % 16
  let rules := List.range 6
  let holds (r : Nat) : Bool := bitOf (i.w (7 + r)) 31 && i.ruleTrue (i.w (7 + r))
  let cnt (r : Nat) : Nat := if holds r then min ((i.w 14).toNat / 16 ^ r % 16 + 1) 15 else 0
  let fires (r : Nat) : Bool := holds r && decide (max 1 ((i.w (7 + r)).toNat / 2 ^ 18 % 16) ≤ cnt r)
  let m := match rules.find? fires with
    | some r => (i.w (7 + r)).toNat % 16
    | none => if bitOf (i.w 6) 4 then prev else (i.w 6).toNat % 16
  let pim := if m = prev then min (mst / 2 ^ 16 % 2 ^ 12 + 1) 4095 else 1
  let mask := rules.foldl (fun n r => if holds r then n + 2 ^ r else n) 0
  { outs := [.num (frN m), .num (frN (b2n (m != prev))), .num (frN mask), .num (frN pim)],
    words := [(13, .u (pim * 2 ^ 16 + m)), (14, .u (rules.foldl (fun n r => n + cnt r * 16 ^ r) 0))],
    mode := some (m, prev) }

/-- PREDICT (R222, R265). -/
def stPredict (i : StgIn) : StgOut :=
  let c := i.op 2
  let dd := i.op 3
  if !i.spec then { outs := [.num c, .num (if i.cmp1 then dd else fzero)] }
  else
    let nexp := (i.w 3).toNat % 2 ^ 24
    let f := if nexp = 0 then fzero else sig32 (frN (nexp - i.np) nexp)
    let kf := (i.p 2 0).mul f
    let pred (part full : Frac) : Frac :=
      if i.np = 0 then full else if bitOf (i.w 3) 31 then part.add (kf.mul (part.sub full)) else part
    let p0 := pred (i.op 0) c
    let p1 := pred (i.op 1) dd
    { outs := [.num p0, .num (if i.cmp1 then p1 else fzero)],
      preds := if i.cmp1 then [(false, p0), (true, p1)] else [(false, p0)] }

/-- TORQUE (R266). -/
def stTorque (i : StgIn) : StgOut :=
  let a := i.op 0
  let b := i.op 1
  let k : Frac := frN (3 * ((i.w 2).toNat % 32)) 2
  let t := if bitOf (i.w 2) 31 then (a.mul (i.op 3)).sub (b.mul (i.op 2))
    else ((i.p 5 2).mul b).add ((((i.p 3 0).sub (i.p 4 1)).mul a).mul b)
  { outs := [.num (k.mul t)] }

/-- INJECT (R267). -/
def stInject (i : StgIn) : StgOut :=
  let a := i.op 0
  if !i.act then { outs := [.num a, .num fzero, .angle fzero] }
  else
    let ph := if i.enter then 0 else (i.w 5).toNat % 2 ^ 20
    let lf := if i.enter then 1 else (i.w 6).toNat % 2 ^ 15
    let dph := (i.w 3).toNat % 2 ^ 20
    let amp := i.p 4 0
    let ty := (i.w 2).toNat / 2 ^ 26 % 4
    let out (s : Frac) (o : Nat) (ph' lf' : Nat) : StgOut :=
      { outs := [.num (a.add s), .num s, .angle (frN o)], words := [(5, .u ph'), (6, .u lf')] }
    if ty = 0 then out (amp.mul (sinCosCounts (frN ph)).1) ph ((ph + dph) % 2 ^ 20) lf
    else if ty = 1 then out (if ph < 2 ^ 19 then amp else amp.neg) ph ((ph + dph) % 2 ^ 20) lf
    else if ty = 2 then
      let s := if lf % 2 = 1 then amp else amp.neg
      if max dph 1 ≤ ph + 1 then out s 0 0 (lf * 2 % 2 ^ 15 + (lf / 2 ^ 14 + lf / 2 ^ 13) % 2) else out s 0 (ph + 1) lf
    else out fzero 0 ph lf

/-- CAPTURE (R268). -/
def stCapture (i : StgIn) : StgOut :=
  let done (ri rq : Frac) (l : List (Nat × WVal)) : StgOut :=
    { outs := [.num ri, .num rq, .root ((ri.mul ri).add (rq.mul rq))], words := l }
  if !i.act then done (i.e 5) (i.e 6) []
  else
    let p := max ((i.w 1).toNat / 2 ^ 16 % 2 ^ 12) 1
    let (s, c) := sinCosCounts (i.op 1)
    let a2 := (i.op 0).shl 1
    let term (x : Frac) : Frac := sig32 ((a2.mul x).div (frN p))
    let ss := (if i.enter then fzero else i.e 2).add (term s)
    let sc := (if i.enter then fzero else i.e 3).add (term c)
    let cnt := (if i.enter then 0 else (i.w 4).toNat % 2 ^ 12) + 1
    if p ≤ cnt then done ss sc [(2, .e fzero), (3, .e fzero), (4, .u 0), (5, .e ss), (6, .e sc)]
    else done (i.e 5) (i.e 6) [(2, .e ss), (3, .e sc), (4, .u cnt)]

/-- A stage's equations, by kind (R249). -/
def stage (i : StgIn) : StgOut :=
  match i.kind with
  | 1 => stClarke i
  | 2 => stPark i
  | 3 => stIpark i
  | 4 => stPi i
  | 5 => stPid i
  | 6 => stDecouple i
  | 7 => stSvm i
  | 8 => stMtpa i
  | 9 => stFw i
  | 10 => stFluxobs i
  | 11 => stPll i
  | 12 => stProfile i
  | 13 => stBiquad i
  | 14 => stTable i
  | 15 => stDclim i
  | 16 => stModesel i
  | 17 => stPredict i
  | 18 => stTorque i
  | 19 => stInject i
  | 20 => stCapture i
  | _ => {}

/-- The word a pool word becomes (R201, R244, R247 rule 5), and whether it was bounded. -/
def WVal.word (v : WVal) (exp : Int) : Word × Bool :=
  match v with
  | .e x =>
    let r := mantOf x exp
    (wordMant r.1, r.2)
  | .a x =>
    let q := wrapN 32 ((x.shl 12).add fhalf).floor
    (BitVec.ofNat 32 (q % 2 ^ 12 * 2 ^ 20 + q / 2 ^ 12), false)
  | .u n => (BitVec.ofNat 32 n, false)

/-- The exponent of AUTO (R202): the smallest from `e` on, within `n` steps, at which every output fits. -/
def autoExp (outs : List Val) : Nat → Int → Int
  | 0, e => e
  | n + 1, e => if outs.all fun v => !(v.mant e).2 then e else autoExp outs n (e + 1)

/-- The exponent of a stage's outputs and whether an INHERIT exponent was clamped (R202, R203). -/
def outExp (mode : Nat) (exp : Int) (head : Nat) (eA : Int) (outs : List Val) : Int × Bool :=
  if mode = 1 then
    if outs.all Val.isZero then (exp, false)
    else (autoExp outs ((min (exp + head) 31) - exp).toNat exp, false)
  else if mode = 2 then
    let e := eA + exp
    (clampI (-32) 31 e, decide (e < -32) || decide (e > 31))
  else (exp, false)

end Sys2Proof.Machine
end

