-- ==== Sys2Proof/Machine/Engines.lean ====
section
/-! DEFINITION. Loop engines and contexts (chapter 07, R189 to R219): triggers, waiting, passes, commit, enabling, the record's
writes. -/

namespace Sys2Proof.Machine

/-! ### The record (R212 to R216) -/

/-- Address of word `w` of context `c`. -/
def ctxA (c w : Nat) : Nat := R.CTX_CTRL c + 4 * w

def Dev.ctxPresent (d : Dev) (c : Nat) : Bool := decide (c < nCtx d.member)
def Dev.ctxEn (d : Dev) (c : Nat) : Bool := d.ctxPresent c && d.flag (R.CTX_CTRL c) F.CTX_CTRL_EN
def Dev.ctxEng (d : Dev) (c : Nat) : Nat := d.get (R.CTX_CTRL c) F.CTX_CTRL_ENGINE

/-- Words 0 to 111 of a record as stored. -/
def Dev.rawWords (d : Dev) (c : Nat) : List Word := (List.range 112).map fun w => d.reg (ctxA c w)

def recW (l : List Word) (w : Nat) : Word := nthD 0 l w
def recStages (l : List Word) : Nat := min (getF (recW l 0) F.CTX_CTRL_NSTAGE) 12
def recSd (l : List Word) (k : Nat) : Word := recW l (24 + k)
def recKind (l : List Word) (k : Nat) : Nat := getF (recSd l k) F.CTX_SD_KIND
def recPool (l : List Word) (k : Nat) : Nat := getF (recSd l k) F.CTX_SD_POOL
def recExp (l : List Word) (k : Nat) : Int := sext 6 (getF (recSd l k) F.CTX_SD_EXP)

/-- The class and form of a pool word (R243). -/
def poolWord (l : List Word) (i : Nat) : Option (WCls × WForm) :=
  match (List.range (recStages l)).find? fun k =>
      match kindOf (recKind l k) with
      | some q => decide (recPool l k ≤ i) && decide (i < recPool l k + min (getF (recSd l k) F.CTX_SD_LEN) q.words.length)
      | none => false with
  | some k => match kindOf (recKind l k) with
    | some q => some (nthD wLink q.words (i - recPool l k))
    | none => none
  | none => none

/-- What a pool word holds and reads, by its form (R15, R23, R244, R245, R269). -/
def poolStore (l : List Word) (i : Nat) (w : Word) : Word :=
  match poolWord l i with
  | some (_, .pn _) => wordOfInt (sext 20 w.toNat)
  | some (_, .e) => wordOfInt (sext 20 w.toNat)
  | some (_, .px) => w &&& 0x3FFFFFFF
  | some (_, .u m) => w &&& BitVec.ofNat 32 m
  | _ => w

/-- A record's words under its own stages: pool words in their forms, whenever they were written (R244, R245, R269). -/
def recShape (l : List Word) : List Word :=
  (List.range 112).map fun w => if w < 52 then recW l w else poolStore l (w - 52) (recW l w)

/-- Words 0 to 111 of a record. -/
def Dev.ctxWords (d : Dev) (c : Nat) : List Word := recShape (d.rawWords c)

/-- Whether a word is part of the program that the engine fixes at the enable: NSTAGE, OMAP, SD (R191). -/
def progWord (w : Nat) : Bool := w == 0 || (decide (3 ≤ w) && decide (w < 9)) || (decide (24 ≤ w) && decide (w < 36))

/-- The words a pass runs on: of an enabled context, with the program of its enable (R191, log entry 311). -/
def Dev.progWords (d : Dev) (c : Nat) : List Word :=
  let l := d.rawWords c
  let p := (d.ctxS c).prog
  if d.flag (R.CTX_CTRL c) F.CTX_CTRL_EN then recShape ((List.range 112).map fun w => if progWord w then recW p w else recW l w)
  else recShape l

/-- Word `n` of stage `k` (R243). -/
def recStageW (l : List Word) (k n : Nat) : Word := if recPool l k + n < 60 then recW l (52 + recPool l k + n) else 0

/-- Selector of operand `i` of stage `k` (R216). -/
def recSel (l : List Word) (k i : Nat) : Nat := (recStageW l k 0).toNat / 2 ^ (8 * i) % 256

/-- Selector of OUT word `j`. -/
def recOmap (l : List Word) (j : Nat) : Nat :=
  getF (recW l (3 + j / 2)) (if j % 2 = 1 then F.CTX_OMAP_SEL_H else F.CTX_OMAP_SEL_L)

def inNONE : Nat := 0
def inACC : Nat := 1
def inPART : Nat := 2
def inTRACK : Nat := 3
def inCTX : Nat := 4

def recIn (l : List Word) (i : Nat) : Word := recW l (16 + i)
def inKind (w : Word) : Nat := getF w F.CTX_IN_KIND

/-- Whether a selector of context `c` names an angle-form source (R246); `fuel` bounds the chain of OUT words. -/
def Dev.selAngle (d : Dev) : Nat → Nat → Nat → Bool
  | 0, _, _ => false
  | fuel + 1, c, s =>
    if 0x10 ≤ s ∧ s < 0x20 then
      let w := d.reg (R.CTX_IN c ((s - 0x10) / 2))
      if inKind w = inTRACK then s % 2 == 0
      else if inKind w = inCTX then
        let c' := getF w F.CTX_IN_CTX
        let j := getF w F.CTX_IN_J + s % 2
        if d.ctxPresent c' ∧ j < 12 then d.selAngle fuel c' (recOmap (d.rawWords c') j) else false
      else false
    else if 0x20 ≤ s ∧ s < 0x50 then
      match kindOf (recKind (d.rawWords c) ((s - 0x20) / 4)) with
      | some k => k.angOut == some ((s - 0x20) % 4)
      | none => false
    else if 0x60 ≤ s ∧ s < 0x6C then d.selAngle fuel c (recOmap (d.rawWords c) (s - 0x60))
    else false

/-- Links enough for the longest chain of OUT words. -/
def angFuel : Nat := 2304

def Dev.outAngle (d : Dev) (c j : Nat) : Bool := d.selAngle angFuel c (recOmap (d.rawWords c) j)

/-- The master that holds a context. -/
def Dev.ctxOwner (d : Dev) (c : Nat) : Nat :=
  let o := d.get (R.LEC_CTX_CLAIM c) F.CLAIM_OWNER
  if o = 0xF then d.pageOwner (Pg.CTX (c / 8)) else o

/-- An event of a context with its flag (R217). -/
def Dev.ctxEvent (d : Dev) (c src : Nat) : Dev := (d.orReg (R.LEC_FLAG (c / 32)) (bitWord (c % 32))).raiseN Pg.LEC src c

/-- Whether the cluster runs (R189, R515). -/
def Dev.lecOn (d : Dev) : Bool :=
  let s := d.devState
  s != DS.BOOT && s != DS.FATAL && d.pageEn Pg.LEC && !d.frozen Pg.LEC

/-- Whether an engine's clocked state stands still: the cluster's page or the engine's own freezes (R27). -/
def Dev.engHeld (d : Dev) (e : Nat) : Bool := d.frozen Pg.LEC || d.frozen (Pg.LE e)

/-- Whether an engine is enabled in a cluster that is (R515). -/
def Dev.engEn (d : Dev) (e : Nat) : Bool :=
  d.devState != DS.BOOT && d.devState != DS.FATAL && d.pageEn Pg.LEC && bitOf (d.reg R.LEC_CTRL) e

/-- Whether an engine runs (R27, R515). -/
def Dev.engOn (d : Dev) (e : Nat) : Bool := d.engEn e && !d.engHeld e

/-- What the engine of a present context does for it, unless the engine stands still (R27). -/
def Dev.onCtx (d : Dev) (c : Nat) (f : Dev → Dev) : Dev := if d.ctxPresent c && !d.engHeld (d.ctxEng c) then f d else d

/-! ### The enable check (R208, R246, R264, R265) -/

/-- A failing selector of stage `s` (12: of OMAP): 0 where it is good, else its CAUSE, the first of R208's table (log entry 40,
DEDUCED). -/
def selCause (l : List Word) (s x : Nat) : Nat :=
  if x = 0 ∨ (0x10 ≤ x ∧ x < 0x20) ∨ (0x50 ≤ x ∧ x < 0x54) ∨ (0x60 ≤ x ∧ x < 0x6C) then 0
  else if 0x20 ≤ x ∧ x < 0x50 then
    let k := (x - 0x20) / 4
    if recStages l ≤ k then 5
    else match kindOf (recKind l k) with
      | some q => if q.outs ≤ (x - 0x20) % 4 then 5 else if s ≤ k then 6 else 0
      | none => 5
  else 5

/-- The operand roles a stage uses under its CFG (R246, R250, R266). -/
def rolesUsed (l : List Word) (k : Nat) (q : Kind) : List Role :=
  if q.code = kCLARKE ∧ !bitOf (recStageW l k 1) 0 then [.v, .v, .none, .none]
  else if q.code = kTORQUE ∧ !bitOf (recStageW l k 2) 31 then [.v, .v, .none, .none]
  else q.roles

/-- Whether an operand's selector breaks its role (R246). -/
def roleBad (r : Role) (x : Nat) (ang : Bool) : Bool :=
  match r with
  | .none => x != 0
  | .v => ang
  | .g => !(x == 0 || ang)

/-- One operand of a stage: the cause its selector fails with, the first of R208's table. -/
def Dev.operandCause (d : Dev) (c : Nat) (l : List Word) (k i : Nat) (r : Role) : Nat :=
  let x := recSel l k i
  if roleBad r x (d.selAngle angFuel c x) then 5 else selCause l k x

/-- The selection of a predictor (R265). -/
def predictBad (l : List Word) (k : Nat) : Bool :=
  let a := recSel l k 0
  let c := recSel l k 2
  let i := (a - 0x10) / 2
  let j := (c - 0x10) / 2
  let cmp1 := getF (recW l 10) F.CTX_SPEC_CMP1 != 0
  !(decide (0x10 ≤ a) && decide (a < 0x20) && a % 2 == 0 && decide (0x10 ≤ c) && decide (c < 0x20) && c % 2 == 0
    && inKind (recIn l i) == inPART && inKind (recIn l j) == inACC
    && getF (recIn l i) F.CTX_IN_ACC == getF (recIn l j) F.CTX_IN_ACC
    && recSel l k 1 == (if cmp1 then a + 1 else 0) && recSel l k 3 == (if cmp1 then c + 1 else 0))

/-- A bad rule of a MODESEL stage (R264). -/
def ruleBad (w : Word) : Bool :=
  let cond := w.toNat / 2 ^ 28 % 8
  let src := w.toNat / 2 ^ 25 % 8
  let sl := w.toNat / 2 ^ 22 % 8
  bitOf w 31 && ((decide (cond ≤ 3) && (decide (3 < src) || decide (3 < sl))) || ((cond == 4 || cond == 5) && decide (4 < sl)))

/-- MSTAGE of a stage (R246, R248, R269): the stage itself gives 0x06, as R246 says, though it is no MODESEL stage (log entry 40,
DEDUCED). -/
def mstageCause (l : List Word) (k : Nat) (code : Nat) : Nat :=
  match modeWord code with
  | none => 0
  | some n =>
    let m := (recStageW l k n).toNat / 2 ^ 28
    if m = 0 then 0
    else if recStages l < m then 5
    else if m = k + 1 then 6
    else if recKind l (m - 1) ≠ kMODESEL then 5
    else if k < m then 6 else 0

/-- Every cause from 0x05 and 0x06 that a stage gives. -/
def Dev.stageCauses (d : Dev) (c : Nat) (l : List Word) (k : Nat) : List Nat :=
  match kindOf (recKind l k) with
  | none => []
  | some q =>
    let ops := if q.code = kPREDICT then [if predictBad l k then 5 else 0]
      else (List.range 4).map fun i => d.operandCause c l k i (nthD .none (rolesUsed l k q) i)
    let rules := if q.code = kMODESEL ∧ (List.range 6).any (fun r => ruleBad (recStageW l k (7 + r))) then [5] else []
    ops ++ rules ++ [mstageCause l k q.code]

/-- Whether pool areas overlap or leave the pool (R208). -/
def poolsBad (l : List Word) : Bool :=
  let n := recStages l
  let len (k : Nat) : Nat := getF (recSd l k) F.CTX_SD_LEN
  (List.range n).any fun k => decide (60 < recPool l k + len k) ||
    (List.range k).any fun j => decide (recPool l j < recPool l k + len k) && decide (recPool l k < recPool l j + len j)

def Dev.dutyGrp (d : Dev) (c : Nat) : Nat := d.get (R.CTX_TARGET c) F.CTX_TARGET_DUTY_GRP

/-- The groups a context hands duties to, each with its first OUT word (R206): DUTY_GRP and, where that is paired, the other group. -/
def Dev.dutyGroups (d : Dev) (c : Nat) : List (Nat × Nat) :=
  let g := d.dutyGrp c
  if 20 ≤ g then []
  else (g, 0) :: match d.pairOf g with
    | some x => [(x, 3)]
    | none => []

/-- Whether a context hands duties to a group that another enabled context drives (R208). -/
def Dev.dutyTaken (d : Dev) (c : Nat) : Bool :=
  let mine := (d.dutyGroups c).map (·.1)
  !mine.isEmpty && (List.range (nCtx d.member)).any fun x =>
    x != c && d.ctxEn x && (d.dutyGroups x).any fun g => mine.contains g.1

/-- Units a record names (R208), the groups its duties go to among them (R281): each with whether it is absent and whether the context's
owner has not claimed it. -/
def Dev.ctxUnits (d : Dev) (c : Nat) (l : List Word) : List (Bool × Bool) :=
  let own := d.ctxOwner c
  let unit (present : Bool) (o : Own) : Bool × Bool := (!present, present && !d.holds own o)
  let slots := (List.range 8).map fun i =>
    let w := recIn l i
    let a := getF w F.CTX_IN_ACC
    let t := getF w F.CTX_IN_TRK
    let x := getF w F.CTX_IN_CTX
    if inKind w = inACC ∨ inKind w = inPART then unit (decide (a < nAcc d.member)) (.unit (R.ACC_CLAIM a) (Pg.ACC (a / 64)))
    else if inKind w = inTRACK then unit (decide (t < nTracks)) (.unit (R.TRK_CLAIM t) Pg.TRK)
    else if inKind w = inCTX then unit (d.ctxPresent x) (.unit (R.LEC_CTX_CLAIM x) (Pg.CTX (x / 8)))
    else (false, false)
  slots ++ (d.dutyGroups c).map fun g => unit (groupPresent d.member g.1) (.page (Pg.PWT g.1))

/-- Whether a track takes a context (R206). -/
def Dev.trkTakes (d : Dev) (k c : Nat) : Bool := d.trkSrc k == srcCTX && d.get (R.TRK_CFG k) F.TRK_CFG_CTX == c

/-- The first failing check of an enable, in the order of R208; 0 where none fails. -/
def Dev.ctxCause (d : Dev) (c : Nat) : Nat :=
  let l := d.ctxWords c
  let nst := getF (recW l 0) F.CTX_CTRL_NSTAGE
  let ks := List.range (recStages l)
  let causes := (ks.flatMap fun k => d.stageCauses c l k) ++ (List.range 12).map fun j => selCause l 12 (recOmap l j)
  let units := d.ctxUnits c l
  if nst = 0 ∨ 12 < nst then 1
  else if ks.any (fun k => (kindOf (recKind l k)).isNone || getF (recSd l k) F.CTX_SD_EXPMODE == 3) then 2
  else if ks.any (fun k => match kindOf (recKind l k) with
      | some q => getF (recSd l k) F.CTX_SD_LEN != q.words.length
      | none => true) then 3
  else if poolsBad l then 4
  else if causes.contains 5 then 5
  else if causes.contains 6 then 6
  else if (List.range 8).any (fun i => decide (4 < inKind (recIn l i))) || units.any (·.2) then 7
  else if units.any (·.1) then 8
  else if d.dutyTaken c then 9
  else if !bitOf (d.reg R.LEC_CTRL) (d.ctxEng c) then 0xA
  else if (List.range nTracks).any (fun k => d.trkTakes k c) && !d.selAngle angFuel c (recOmap l 9) then 0xB
  else 0

/-- D of R191. -/
def passFrames (l : List Word) : Nat :=
  2 + ((List.range (recStages l)).map fun k => match kindOf (recKind l k) with
    | some q => q.f
    | none => 0).sum

/-- The stages that predict (R222), with the slot of operand C. -/
def predictors (l : List Word) : List (Nat × Nat) :=
  ((List.range (recStages l)).filter fun k => recKind l k == kPREDICT).map fun k => (k, (recSel l k 2 - 0x10) / 2)

/-- NPRED and PW_ERR (R223). -/
def Dev.setNpred (d : Dev) (c : Nat) : Dev :=
  let a := R.CTX_SPEC c
  let n := (predictors (d.ctxWords c)).length * (if d.flag a F.CTX_SPEC_CMP1 then 2 else 1)
  (d.put a F.CTX_SPEC_NPRED (min n 15)).putB a F.CTX_SPEC_PW_ERR (n == 0 || decide (4 < n))

/-- Commits so far of the accumulator an ACC slot names. -/
def Dev.slotCount (d : Dev) (c i : Nat) : Nat :=
  let w := d.reg (R.CTX_IN c i)
  if inKind w = inACC then (d.accS (getF w F.CTX_IN_ACC)).n else 0

/-- A pending pass discarded; the state of a speculation that was only pending returns to idle. -/
def Dev.ctxDiscard (d : Dev) (c : Nat) : Dev :=
  let s := d.ctxS c
  let d := d.setCtx c { s with pend := none }
  match s.pend with
  | some p => if p.spec && s.spec.isNone then d.put (R.CTX_SPEC c) F.CTX_SPEC_STATE 0 else d
  | none => d

/-- What an accepted write of EN = 1 does (R208); `was` is EN before it. The program is fixed (R191). A refused enable leaves EN at 0,
also of a context that was enabled, as a write of EN = 0 would (log entry 311). -/
def Dev.ctxEnable (d : Dev) (c : Nat) (was : Bool) : Dev :=
  let a := R.CTX_STAT c
  let cause := d.ctxCause c
  if cause ≠ 0 then
    let d := ((d.putB a F.CTX_STAT_CFG_ERR true).put a F.CTX_STAT_CAUSE cause).ctxEvent c Ev.CTX_CFG_ERR
    if was then (d.putB (R.CTX_CTRL c) F.CTX_CTRL_EN false).ctxDiscard c else d
  else
    let d := (d.putB a F.CTX_STAT_CFG_ERR false).put a F.CTX_STAT_CAUSE 0
    let d := (d.putB a F.CTX_STAT_ECC_ERR false).put a F.CTX_STAT_D (passFrames (d.ctxWords c))
    let d := (d.putB (R.CTX_CTRL c) F.CTX_CTRL_EN true).setNpred c
    let s := d.ctxS c
    d.setCtx c { s with prog := d.rawWords c, seen := if was then s.seen else forN 8 (fun i l => spPut 0 l i (d.slotCount c i)) [] }

/-- A write of CTX_CTRL (R208 to R210): the other fields, then EN; every write of EN = 1 is checked. After a replay no context can be
enabled (R464). -/
def Dev.ctxCtrlWrite (d : Dev) (mid c : Nat) (w : Word) : Dev :=
  let a := R.CTX_CTRL c
  let was := d.flag a F.CTX_CTRL_EN
  let en := getF w F.CTX_CTRL_EN != 0
  let taken := d.takenAt mid a
  let d := d.plainWrite mid a (setF w F.CTX_CTRL_EN (if was then getF w F.CTX_CTRL_EN else 0))
  let d := d.denyIf (!taken && en && !was && d.ctxPresent c) (Pg.CTX (c / 8))
  if !taken then d
  else if en then
    if d.flag R.RPL_STAT F.RPL_STAT_DIRTY && !d.replaying then d.deny (Pg.CTX (c / 8)) else d.ctxEnable c was
  else if was then d.ctxDiscard c else d

/-- A write of a pool word (R210, R243): parameters at any time, the others while EN = 0. -/
def Dev.ctxPoolWrite (d : Dev) (mid c i : Nat) (w : Word) : Dev :=
  let a := R.CTX_POOL c i
  let l := d.progWords c
  let par := match poolWord l i with
    | some (.p, _) => true
    | _ => false
  if d.takenAt mid a && !par && d.ctxEn c then d.deny (Pg.CTX (c / 8)) else d.plainWrite mid a (poolStore l i w)

/-- The bits of CTX_INn that its KIND gives a field (R215). -/
def inMask (w : Word) : Word :=
  let k := inKind w
  if k = inACC then 0xF1FF0000 else if k = inPART then 0xE1FF0000 else if k = inTRACK then 0xEFDFFFFF
  else if k = inCTX then 0xE0FF000F else 0xE0000000

/-- A write of CTX_INn. -/
def Dev.ctxInWrite (d : Dev) (mid c i : Nat) (w : Word) : Dev := d.plainWrite mid (R.CTX_IN c i) (w &&& inMask w)

/-- A write of CTX_SPEC (R241): a 1 to SUSP clears FB_RUN too. -/
def Dev.ctxSpecWrite (d : Dev) (mid c : Nat) (w : Word) : Dev :=
  let a := R.CTX_SPEC c
  let taken := d.takenAt mid a
  let d := d.plainWrite mid a w
  if taken && bitOf w 29 then d.put a F.CTX_SPEC_FB_RUN 0 else d

/-- A write of LEC_CTRL (R219): a bit with enabled contexts bound to it is not cleared. -/
def Dev.lecCtrlWrite (d : Dev) (mid : Nat) (w : Word) : Dev :=
  let cur := d.reg R.LEC_CTRL
  let no := (List.range 8).any fun e => bitOf cur e && !bitOf w e &&
    (List.range (nCtx d.member)).any fun c => d.ctxEn c && d.ctxEng c == e
  if no && d.takenAt mid R.LEC_CTRL then d.deny Pg.LEC else d.plainWrite mid R.LEC_CTRL w

/-! ### Triggers and readiness (R192, R193) -/

/-- The slots a pass waits for. -/
def Dev.waitSlots (d : Dev) (c : Nat) : List Nat :=
  (List.range 8).filter fun i =>
    let w := d.reg (R.CTX_IN c i)
    inKind w == inACC && getF w F.CTX_IN_WAIT != 0

/-- Whether a slot's accumulator has committed since the context last read it. -/
def Dev.slotFresh (d : Dev) (c i : Nat) : Bool := decide (spGet 0 (d.ctxS c).seen i < d.slotCount c i)

def Dev.allFresh (d : Dev) (c : Nat) : Bool := (d.waitSlots c).all fun i => d.slotFresh c i

/-- A pending pass that has become ready in the present tick is marked (R193, R220, R221). -/
def Dev.ctxReady (d : Dev) (c : Nat) : Dev :=
  let s := d.ctxS c
  match s.pend with
  | some p =>
    let ok := p.spec || p.stale != [] || d.allFresh c
    if p.ready.isNone && s.spec.isNone && ok then d.setCtx c { s with pend := some { p with ready := some d.gtc } } else d
  | none => d

def Dev.ctxReadyAll (d : Dev) : Dev :=
  forN (nCtx d.member) (fun c e => if (e.ctxS c).pend.isSome then e.ctxReady c else e) d

def ctxTout (d : Dev) (c : Nat) : Nat := max 8 (d.get (R.CTX_TIME c) F.CTX_TIME_TOUT)
def ctxLate (d : Dev) (c : Nat) : Nat := d.get (R.CTX_TIME c) F.CTX_TIME_LATE

/-- A PASS record without a commit (R455), with T_r and STALE_IN of the pass it names. -/
def Dev.passRecordAt (d : Dev) (c outcome tr : Nat) (stale : Bool) : Dev :=
  let w := d.get (R.CTX_RUNS c) F.CTX_RUNS_SEQ * 2 ^ 16 + d.get (R.CTX_STAT c) F.CTX_STAT_D * 2 ^ 8 + b2n stale * 16 + outcome
  d.emit { ty := 0x11, res := c, tick := d.gtc, data := [BitVec.ofNat 32 tr, BitVec.ofNat 32 w, 0] }

/-- The PASS record of a pass that never started. -/
def Dev.passRecord (d : Dev) (c outcome : Nat) : Dev := d.passRecordAt c outcome 0 false

/-- A trigger of an enabled context (R192). -/
def Dev.ctxTrigger (d : Dev) (c : Nat) (spec : Bool) : Dev :=
  let d := d.emit { ty := 0x10, spec := spec, res := c, tick := d.gtc }
  let s := d.ctxS c
  if s.pend.isSome then
    let d := (d.bump (R.CTX_RUNS c) F.CTX_RUNS_OVERRUN).bump (R.LE_DROP (d.ctxEng c)) F.LE_DROP_OVERRUN
    (d.passRecord c 4).ctxEvent c Ev.CTX_OVERRUN
  else
    let d := d.setCtx c { s with pend := some { f := d.gtc, spec := spec } }
    let d := if spec && s.spec.isNone then d.put (R.CTX_SPEC c) F.CTX_SPEC_STATE 1 else d
    d.ctxReady c

/-- CTX_RUN at a context (R192, R515). -/
def Dev.ctxRun (d : Dev) (c : Nat) : Dev := if d.lecOn && d.ctxEn c then d.ctxTrigger c false else d

/-- CTX_SPEC at a context (R192, R220). -/
def Dev.ctxSpec (d : Dev) (c : Nat) : Dev :=
  let g := d.dutyGrp c
  if !(d.lecOn && d.ctxEn c) then d
  else if !d.flag (R.CTX_CTRL c) F.CTX_CTRL_SPEC_EN || decide (20 ≤ g) || !d.pageEn (Pg.PWT g)
      || d.flag (R.CTX_SPEC c) F.CTX_SPEC_PW_ERR then
    d.putB (R.CTX_STAT c) F.CTX_STAT_SPEC_IGN true
  else d.ctxTrigger c (!d.flag (R.CTX_SPEC c) F.CTX_SPEC_SUSP)

/-- Whether every awaited slot is fresh or is made so by a window whose commit falls due by a tick, which precedes a timeout of that
tick (R84). -/
def Dev.freshBy (d : Dev) (c t : Nat) : Bool :=
  (d.waitSlots c).all fun i => d.slotFresh c i ||
    (let a := getF (d.reg (R.CTX_IN c i)) F.CTX_IN_ACC
     match d.accDue a with
     | some w => decide (w.fClose + d.accLag a ≤ t)
     | none => false)

/-- CTX_WAIT_TIMEOUT (R193): a commit of the tick in which the wait ends is taken instead (R84). -/
def Dev.ctxWaitTimeout (d : Dev) (c : Nat) : Dev :=
  let s := d.ctxS c
  match s.pend with
  | some p =>
    if p.spec || p.stale != [] || p.ready.isSome || decide (d.gtc < p.f + ctxTout d c) || d.freshBy c (p.f + ctxTout d c) then d
    else
      let late := (List.range 8).map fun i => (d.waitSlots c).contains i && !d.slotFresh c i
      let d := d.bump (R.CTX_RUNS c) F.CTX_RUNS_TIMEOUT
      let d := if d.flag (R.CTX_CTRL c) F.CTX_CTRL_TO_ACT then
          (d.setCtx c { s with pend := some { p with stale := late } }).ctxReady c
        else (d.setCtx c { s with pend := none }).passRecord c 2
      d.ctxEvent c Ev.CTX_TIMEOUT
  | none => d

/-- CTX_DROP (R195): the first boundary after F + LATE. -/
def Dev.ctxDrop (d : Dev) (c : Nat) : Dev :=
  let s := d.ctxS c
  match s.pend with
  | some p =>
    let l := ctxLate d c
    if l ≠ 0 ∧ d.gtc % 8 = 0 ∧ p.f + l < d.gtc then
      let d := (d.ctxDiscard c).bump (R.CTX_RUNS c) F.CTX_RUNS_DROP
      ((d.bump (R.LE_DROP (d.ctxEng c)) F.LE_DROP_DROP).passRecord c 3).ctxEvent c Ev.CTX_DROP
    else d
  | none => d

/-- An accumulator's commit at the contexts that wait for it: ready passes are marked; where the present tick is the one in
which the wait would have expired, ZERO_SLACK (R193, R84). -/
def Dev.ctxAccCommit (d : Dev) (a : Nat) : Dev :=
  forN (nCtx d.member) (fun c e =>
    let s := e.ctxS c
    match s.pend with
    | some p =>
      let mine := (e.waitSlots c).filter fun i => getF (e.reg (R.CTX_IN c i)) F.CTX_IN_ACC == a
      if p.spec || mine.isEmpty || p.stale != [] then e
      else
        let first := mine.all fun i => e.slotCount c i == spGet 0 s.seen i + 1
        let e := if first && p.f + ctxTout e c == e.gtc && p.ready.isNone then e.zeroSlack 3 a else e
        e.ctxReady c
    | none => e) d

/-! ### Snapshot (R197 to R200) -/

/-- A mantissa as an operand. -/
def mantOpd (w : Word) (e : Int) : Opd := { x := bfVal (mantW w) e, e := e }

/-- A committed OUT word as an operand (R198). -/
def Dev.outOpd (d : Dev) (c j : Nat) : Opd :=
  if !d.ctxPresent c || decide (12 ≤ j) then {}
  else
    let w := d.reg (R.CTX_OUT c j)
    if d.outAngle c j then { x := Frac.ofInt (w.toNat % 2 ^ 20 : Nat), ang := true }
    else mantOpd w (sext 6 (d.get (R.CTX_OMAP c (j / 2)) (if j % 2 = 1 then F.CTX_OMAP_EXP_H else F.CTX_OMAP_EXP_L)))

/-- Speed of a track in rad/s (R199), exactly; and back to SPD32 (R206). -/
def radPerS (v : Int) : Frac := ⟨v * 2 * fxPi * 400000000, 2 ^ 168⟩
def spdOfRad (x : Frac) : Int := (x.div (radPerS 1)).round

/-- A TRACK slot (R199); whether its speed was bounded. -/
def Dev.trackSlot (d : Dev) (w : Word) : SlotIn × Bool :=
  let k := getF w F.CTX_IN_TRK
  if nTracks ≤ k then ({}, false)
  else
    let t := d.trkS k
    let e := sext 6 (getF w F.CTX_IN_SPD_EXP)
    let ang := wrap40 ((t.ang : Int) + t.spd * (getF w F.CTX_IN_ADV : Nat)) / 2 ^ 20
    let r := mantOf (radPerS t.spd) e
    let st := d.trkStatWord k
    ({ a := { x := Frac.ofInt (ang : Nat), ang := true }, b := { x := bfVal r.1 e, e := e },
       qual := [getF st F.TRK_STAT_VALID != 0, getF st F.TRK_STAT_UNCERT != 0, getF st F.TRK_STAT_STALE != 0] }, r.2)

/-- The PART record at hand for a read of an accumulator at the present tick of a replay (R464). -/
def Dev.rplPart (d : Dev) (a : Nat) : Option RefSt :=
  d.rpl.parts.find? fun (p : RefSt) => p.r.res == a && p.r.tick % 2 ^ 32 == d.gtc % 2 ^ 32

/-- The partial view that a replay takes from the stream (R464). -/
def Dev.rplSlot (d : Dev) (a : Nat) : SlotIn :=
  match d.rplPart a with
  | none => { a := { e := d.accExp0 a }, b := { e := d.accExp1 a }, qual := [true] }
  | some p =>
    let w (k : Nat) : Word := nthD 0 p.r.data k
    { a := { x := bfVal (mantW (w 0)) (d.accExp0 a), e := d.accExp0 a }, b := { x := bfVal (mantW (w 1)) (d.accExp1 a), e := d.accExp1 a },
      np := (w 2).toNat, ptick := (w 3).toNat, qual := [w 2 == 0, false, false, false] }

/-- Whether a pass of a context that has not joined a replay occupies an engine (R464). -/
def Dev.rplBusy (d : Dev) (e : Nat) : Bool :=
  d.rpl.busy.any fun (x : Nat × Nat × Nat) => d.ctxEng x.1 == e && decide (x.2.1 ≤ d.gtc) && decide (d.gtc < x.2.2)

/-- An input slot at the present tick (R198); whether an input speed was bounded. -/
def Dev.slotIn (d : Dev) (w : Word) (stale : Bool) : SlotIn × Bool :=
  let k := inKind w
  let a := getF w F.CTX_IN_ACC
  if (k = inACC ∨ k = inPART) ∧ nAcc d.member ≤ a then ({}, false)
  else if k = inACC then
    let st := R.ACC_STAT a
    ({ a := mantOpd (d.reg (R.ACC_RES0 a)) (d.accExp0 a), b := mantOpd (d.reg (R.ACC_RES1 a)) (d.accExp1 a),
       qual := [d.flag st F.ACC_STAT_EMPTY, d.flag st F.ACC_STAT_SHORT, d.flag st F.ACC_STAT_SAT0, d.flag st F.ACC_STAT_SAT1,
                stale] }, false)
  else if k = inPART ∧ d.replaying = true then (d.rplSlot a, false)
  else if k = inPART then
    match (d.accS a).cur with
    | none => ({ a := { e := d.accExp0 a }, b := { e := d.accExp1 a }, qual := [true] }, false)
    | some win =>
      let r := d.accResults a win
      let pt := if win.n = 0 then 0 else win.last
      ({ a := { x := bfVal r.1.1 (d.accExp0 a), e := d.accExp0 a }, b := { x := bfVal r.2.1 (d.accExp1 a), e := d.accExp1 a },
         np := win.n, ptick := pt, qual := [win.n == 0, false, r.1.2, r.2.2] }, false)
  else if k = inTRACK then d.trackSlot w
  else if k = inCTX then
    let c := getF w F.CTX_IN_CTX
    let j := getF w F.CTX_IN_J
    ({ a := d.outOpd c j, b := d.outOpd c (j + 1), qual := [d.ctxEn c] }, false)
  else ({}, false)

/-- The snapshot of a pass at the present tick; whether an input speed was bounded. -/
def Dev.snapshot (d : Dev) (c : Nat) (stale : List Bool) : SnapSt × Bool :=
  let l := d.progWords c
  let ins := (List.range 8).map fun i => d.slotIn (recIn l i) (nthD false stale i)
  ({ tr := d.gtc, words := l, slots := ins.map (·.1), outs := (List.range 12).map (d.outOpd c),
     counts := (List.range 8).map (d.slotCount c), stale := stale.any id }, ins.any (·.2))

/-! ### The stages of a pass (R201 to R204, R222) -/

/-- What the stages have yielded so far: outputs and modes of each, saturated stages, pool words, predictions. -/
structure PassAcc where
  outs : List (List Opd) := []
  modes : List (Option (Nat × Nat)) := []
  sat : Nat := 0
  state : List (Nat × Word) := []
  preds : List (Nat × Bool × Frac) := []
  deriving DecidableEq, Repr

/-- The operand a selector names (R216). -/
def SnapSt.opd (s : SnapSt) (outs : List (List Opd)) (x : Nat) : Opd :=
  if 0x10 ≤ x ∧ x < 0x20 then
    let i := nthD {} s.slots ((x - 0x10) / 2)
    if x % 2 = 0 then i.a else i.b
  else if 0x20 ≤ x ∧ x < 0x50 then nthD {} (nthD [] outs ((x - 0x20) / 4)) (x % 4)
  else if 0x50 ≤ x ∧ x < 0x54 then
    mantOpd (recW s.words (36 + (x - 0x50))) (sext 6 ((recW s.words 9).toNat / 2 ^ (8 * (x - 0x50))))
  else if 0x60 ≤ x ∧ x < 0x6C then nthD {} s.outs (x - 0x60)
  else {}

/-- Whether a stage is active and whether it enters (R248). -/
def stageActive (l : List Word) (k code : Nat) (modes : List (Option (Nat × Nat))) : Bool × Bool :=
  match modeWord code with
  | none => (true, false)
  | some n =>
    let w := recStageW l k n
    let m := w.toNat / 2 ^ 28
    if m = 0 then (true, false)
    else match nthD none modes (m - 1) with
      | some (now, prev) => (bitOf w now, bitOf w now && !bitOf w prev)
      | none => (true, false)

/-- An output as an operand of later stages. -/
def outOpdOf (v : Val) (e : Int) : Opd × Bool :=
  let r := v.mant e
  if v.isAngle then ({ x := Frac.ofInt r.1, ang := true }, false) else ({ x := bfVal r.1 e, e := e }, r.2)

/-- Stage `k` of a pass; `ov` gives a recompute's operands C and D (R234). -/
def runStage (s : SnapSt) (spec : Bool) (ov : List (Nat × Opd × Opd)) (k : Nat) (p : PassAcc) : PassAcc :=
  let l := s.words
  let sd := recSd l k
  let code := recKind l k
  match kindOf code with
  | none => p
  | some q =>
    let ops := (List.range 4).map fun i => s.opd p.outs (recSel l k i)
    let ops := if code = kPREDICT then
        match ov.find? (fun (o : Nat × Opd × Opd) => o.1 == k) with
        | some (_, c, d) => [nthD {} ops 0, nthD {} ops 1, c, d]
        | none => ops
      else ops
    let act := stageActive l k code p.modes
    let r := stage {
      kind := code, exp := recExp l k, words := (List.range q.words.length).map (recStageW l k), ops := ops, spec := spec
      cmp1 := getF (recW l 10) F.CTX_SPEC_CMP1 != 0, act := act.1, enter := act.2, quals := s.slots.map (·.qual)
      np := (nthD {} s.slots ((recSel l k 0 - 0x10) / 2)).np }
    let vals := r.outs.filter fun v => !v.isAngle
    let e := outExp (getF sd F.CTX_SD_EXPMODE) (recExp l k) (getF sd F.CTX_SD_HEAD) (nthD {} ops 0).e vals
    let outs := r.outs.map fun v => outOpdOf v e.1
    let ws := r.words.map fun (w : Nat × WVal) => (recPool l k + w.1, w.2.word (recExp l k))
    let sat := e.2 || outs.any (·.2) || ws.any fun w => w.2.2
    { outs := p.outs ++ [outs.map (·.1)], modes := p.modes ++ [r.mode], sat := if sat then p.sat + 2 ^ k else p.sat
      state := p.state ++ ws.map (fun w => (w.1, w.2.1)), preds := p.preds ++ r.preds.map fun x => (k, x.1, x.2) }

/-- An OUT word and the exponent field that goes with it (R205, R213). -/
def outWord (o : Opd) : Word × Nat :=
  if o.ang then (BitVec.ofNat 32 (wrapN 20 o.x.floor), 0) else (wordMant (mantOf o.x o.e).1, wrapN 6 o.e)

/-- All stages of a pass on a snapshot. -/
def SnapSt.eval (s : SnapSt) (spec : Bool) (ov : List (Nat × Opd × Opd)) : PassSt × List (Nat × Bool × Frac) :=
  let p := (List.range (recStages s.words)).foldl (fun p k => runStage s spec ov k p) {}
  ({ outs := (List.range 12).map fun j => outWord (s.opd p.outs (recOmap s.words j)), state := p.state, sat := p.sat }, p.preds)

/-! ### Starting a pass (R191, R194) -/

/-- The reads of a pass (R193): every ACC slot. -/
def Dev.markRead (d : Dev) (c : Nat) (counts : List Nat) : Dev :=
  let s := d.ctxS c
  d.setCtx c { s with seen := forN 8 (fun i l =>
    if inKind (d.reg (R.CTX_IN c i)) = inACC then spPut 0 l i (nthD 0 counts i) else l) s.seen }

/-- A divergence (R465): the first one is latched. -/
def Dev.diverge (d : Dev) (p : RefSt) (word : Nat) (ref got : Word) : Dev :=
  if d.flag R.RPL_STAT F.RPL_STAT_DIVERGED then d
  else
    let d := (d.setReg R.RPL_DIV_POS (BitVec.ofNat 32 p.seq)).setReg R.RPL_DIV_RES (BitVec.ofNat 32 p.r.res)
    let d := d.setReg R.RPL_DIV_REC (setF (setF (setF 0 F.RPL_DIV_REC_TYPE p.r.ty) F.RPL_DIV_REC_WORD word) F.RPL_DIV_REC_OFS p.ofs)
    let d := (d.setReg R.RPL_DIV_REF ref).setReg R.RPL_DIV_GOT got
    let d := d.setReg R.RPL_DIV_TICK (BitVec.ofNat 32 d.gtc)
    (d.putB R.RPL_STAT F.RPL_STAT_DIVERGED true).raise Pg.RPL Ev.RPL_DIVERGE

/-- A read of a partial view in a replay: its PART record is used up; without one it is a divergence (R465). Members in the view show a
window that has stood open since before T_A, where none else is known (log entry 285). -/
def Dev.rplRead (d : Dev) (a : Nat) : Dev :=
  match d.rplPart a with
  | some p =>
    let open1 := spGet 0 d.rpl.wins a = 0 ∧ nthD 0 p.r.data 2 ≠ 0
    { d with rpl := { d.rpl with
        parts := d.rpl.parts.erase p, wins := if open1 then spPut 0 d.rpl.wins a 1 else d.rpl.wins } }
  | none =>
    let p := d.rpl.ref.headD {}
    d.diverge { p with r := { ty := 0x13, res := a } } 1 0 (BitVec.ofNat 32 d.gtc)

/-- PART records of the partial views a pass reads (R129, R455). -/
def Dev.partRecords (d : Dev) (s : SnapSt) : Dev :=
  forN 8 (fun i e =>
    let w := recIn s.words i
    if inKind w = inPART ∧ e.replaying = true then e.rplRead (getF w F.CTX_IN_ACC)
    else if inKind w = inPART then
      let a := getF w F.CTX_IN_ACC
      let r := e.accPartial a
      e.emit { ty := 0x13, res := a, tick := e.gtc,
               data := [wordMant r.2.1, wordMant r.2.2.1, BitVec.ofNat 32 r.1, BitVec.ofNat 32 r.2.2.2] }
    else e) d

/-- The predicted windows of a speculative pass at T_r (R225). -/
def Dev.predWins (d : Dev) (l : List Word) : List PredWin :=
  (predictors l).map fun p =>
    let a := getF (recIn l p.2) F.CTX_IN_ACC
    { stage := p.1, acc := a, fOpen := d.accFOpen a }

/-- The first load point of a group after the present tick (R226), with its horizon where it has been captured. A secondary's
may not be fixed yet: its primary's next capture gives it (R278, log entry 300). -/
def Dev.targetOf (d : Dev) (g : Nat) : List TgtSt :=
  let r := d.grpS g
  let later : List TgtSt := if (d.primOf g).isSome && d.pwmEn g then [{ grp := g }] else []
  match r.load with
  | none => later
  | some (l, pk) =>
    if d.gtc < l then [{ grp := g, load := l, peak := pk, h := if r.capd then some (r.eMin - 16) else none }]
    else match d.nextLoad g pk with
      | some (l2, pk2) => [{ grp := g, load := l2, peak := pk2 }]
      | none => later

/-- Contexts of an engine that could start at the present boundary, with F. -/
def Dev.startable (d : Dev) (e : Nat) : List (Nat × Nat) :=
  (List.range (nCtx d.member)).filterMap fun c =>
    match (d.ctxS c).pend with
    | some p =>
      let l := ctxLate d c
      if p.ready.isSome && d.ctxEng c == e && (l == 0 || decide (d.gtc ≤ p.f + l)) && (d.ctxS c).run.isNone then some (p.f, c)
      else none
    | none => none

/-- The earliest of them; the list rises in context number. -/
def earliest : List (Nat × Nat) → Option (Nat × Nat)
  | [] => none
  | x :: r => match earliest r with
    | some y => if y.1 < x.1 then some y else some x
    | none => some x

/-- The largest wait from ready to start (R219). -/
def Dev.maxWait (d : Dev) (e c wait : Nat) : Dev :=
  let a := R.LE_MAXWAIT e
  let w := min wait 65535
  if d.get a F.LE_MAXWAIT_MAX < w then (d.put a F.LE_MAXWAIT_MAX w).put a F.LE_MAXWAIT_CTX c else d

/-- Prediction words (R223, R224): rounded to the accumulator's exponents and bounded. -/
def Dev.predWords (d : Dev) (wins : List PredWin) (l : List (Nat × Bool × Frac)) : List (Nat × Bool × Int) :=
  l.map fun p =>
    let a := match wins.find? (fun w => w.stage == p.1) with
      | some w => w.acc
      | none => 0
    (p.1, p.2.1, (mantOf p.2.2 (if p.2.1 then d.accExp1 a else d.accExp0 a)).1)

/-- The stages of a record of one kind. -/
def stagesOf (l : List Word) (code : Nat) : List Nat := (List.range (recStages l)).filter fun k => recKind l k == code

/-- A parameter word at its PX exponent. -/
def recParam (l : List Word) (k n e : Nat) : Frac :=
  bfVal (mantW (recStageW l k n)) (sext 6 ((recStageW l k 1).toNat / 2 ^ (6 * e)))

/-- The magnet flux linkage of a record: PSI of DECOUPLE, else PSI0 of FLUXOBS. -/
def recPsi (l : List Word) : Frac :=
  match stagesOf l kDECOUPLE with
  | k :: _ => recParam l k 4 2
  | [] => match stagesOf l kFLUXOBS with
    | k :: _ => recParam l k 5 3
    | [] => fzero

/-- The pool words of the preset of PLL and FLUXOBS, its angle brought forward to tick `t` (R341). -/
def presetWords (l : List Word) (p : PresetSt) (t : Nat) : List (Nat × Word) :=
  let th := p.theta.add ((toCounts p.w).mul (frN (t - p.ts) 400000000))
  let e (k n : Nat) (x : Frac) : Nat × Word := (recPool l k + n, wordMant (mantOf x (recExp l k)).1)
  let pll := match stagesOf l kPLL with
    | k :: _ => [(recPool l k + 6, (WVal.word (.a th) 0).1), e k 7 p.w]
    | [] => []
  let obs := match stagesOf l kFLUXOBS with
    | k :: _ =>
      let (sn, cs) := sinCosCounts th
      [e k 7 ((recPsi l).mul cs), e k 8 ((recPsi l).mul sn)]
    | [] => []
  (pll ++ obs).filter fun x => decide (x.1 < 60)

/-- A preset completed at the T_r of the first pass (R341, log entry 313): Garmal's words are recorded as its writes. -/
def Dev.presetDone (d : Dev) (c : Nat) : Dev :=
  let s := d.ctxS c
  match s.preset with
  | none => d
  | some p =>
    let d := (presetWords (d.progWords c) p d.gtc).foldl (fun (e : Dev) (x : Nat × Word) =>
      let a := R.CTX_POOL c x.1
      (e.setReg a x.2).emit { ty := 0x15, res := Mid.S0, tick := e.gtc, data := [BitVec.ofNat 32 a, x.2] }) d
    d.setCtx c { s with preset := none }

/-- A pass begins (R191, R197, R224). -/
def Dev.passBegin (d : Dev) (e c : Nat) (p : PendSt) : Dev :=
  let d := d.presetDone c
  let (snap, insat) := d.snapshot c p.stale
  let d := d.partRecords snap
  let d := if insat then (d.putB (R.CTX_STAT c) F.CTX_STAT_IN_SAT true).ctxEvent c Ev.CTX_SAT else d
  let (res, preds) := snap.eval p.spec []
  let tc := d.gtc + 8 * d.get (R.CTX_STAT c) F.CTX_STAT_D
  let d := d.maxWait e c (d.gtc - p.ready.getD d.gtc)
  let d := d.put (R.LE_STAT e) F.LE_STAT_RUN_CTX c
  let run : RunSt := { eng := Fin.ofNat 8 e, f := p.f, spec := p.spec, tc := tc, snap := snap, res := res }
  let s := d.ctxS c
  if p.spec then
    let wins := d.predWins snap.words
    let sp : SpecSt := { f := p.f, snap := snap, res := res, preds := d.predWords wins preds, wins := wins }
    let tgt := (d.dutyGroups c).flatMap fun (g : Nat × Nat) => d.targetOf g.1
    d.setCtx c { s with pend := none, run := some run, spec := some sp, tgt := tgt }
  else (d.setCtx c { s with pend := none, run := some run }).markRead c snap.counts

/-! ### Commit (R203 to R206) -/

/-- The state words of a commit, in ascending order, and DIGEST (R455). -/
def Dev.passDigest (d : Dev) (c : Nat) (res : PassSt) : Word :=
  let pool := (List.range 60).filter fun i => res.state.any fun w => w.1 == i
  crc32cWords ((List.range 12).map (fun j => d.reg (R.CTX_OUT c j)) ++ (List.range 6).map (fun j => d.reg (R.CTX_OMAP c j))
    ++ pool.map fun i => d.reg (R.CTX_POOL c i))

/-- The duties of a group in a commit: mantissa and exponent of each leg. -/
def passDuties (res : PassSt) (j : Nat) : List (Int × Int) :=
  (List.range 3).map fun x =>
    let w := nthD (0, 0) res.outs (j + x)
    (mantW w.1, sext 6 w.2)

/-- Whether a group's last capture was that of a speculation's target period; not where the group has been stopped since (R273). -/
def Dev.captured (d : Dev) (t : TgtSt) : Bool :=
  let r := d.grpS t.grp
  t.h.isSome && decide (t.load ≤ d.gtc + 8) && t.load == (if t.peak then r.v + r.p / 2 else r.v)

/-- Duties handed over (R206, R229): before the capture tick of the target period an ordinary commit, later the late-load
path, which is a speculation's alone. A group whose duties come from the host discards them (R281). -/
def Dev.handOver (d : Dev) (c : Nat) (res : PassSt) (late : Bool) : Dev :=
  (d.dutyGroups c).foldl (fun (e : Dev) (g : Nat × Nat) =>
    let v := passDuties res g.2
    if !e.pwmDsrc g.1 then e
    else match (e.ctxS c).tgt.find? fun t => t.grp == g.1 with
    | some t => if late && e.captured t then e.lateLoad g.1 v t.peak else e.enterVec g.1 v
    | none => e.enterVec g.1 v) d

/-- The updates of the tracks that take a context (R206). -/
def Dev.ctxTracks (d : Dev) (c tr : Nat) : Dev :=
  let m : Nat := (d.reg (R.CTX_OUT c 9)).toNat % 2 ^ 20
  let v := spdOfRad (d.outOpd c 10).x
  let elec := d.flag (R.CTX_TARGET c) F.CTX_TARGET_TRK_ELEC
  forN nTracks (fun k e =>
    if e.trkTakes k c then
      let f : Int := if e.flag (R.TRK_CFG k) F.TRK_CFG_INV then -1 else 1
      let t : Nat × Option Int := if elec then (wrapN 20 ((m : Int) * f) * cnt20, some (v * f)) else e.trkTerms k m (some v)
      e.giveUpd k { m := t.1, v := t.2, ts := tr, ta := e.gtc, valid := true }
    else e) d

/-- Whether a context is idle (R458). -/
def Dev.ctxIdle (d : Dev) (c : Nat) : Bool :=
  let s := d.ctxS c
  s.pend.isNone && s.run.isNone && s.spec.isNone

/-- The anchor of a context that waited for its first idle commit (R458). -/
def Dev.ctxAnchor (d : Dev) (c : Nat) : Dev :=
  if d.hamper.ancLeft.contains c && d.ctxIdle c then
    let d := { d with hamper := { d.hamper with ancLeft := d.hamper.ancLeft.erase c } }
    d.emit { ty := 0x30, res := c, tick := d.gtc, data := d.ctxWords c }
  else d

/-! ### What Channel M sees of a commit (R206, R357) -/

/-- The word of Channel M's copy at a byte offset. -/
def Dev.spb (d : Dev) (o : Nat) : Word := spGet 0 d.safe.spbM (o / 4)

/-- Word k of machine entry m (R379). -/
def Dev.me (d : Dev) (m k : Nat) (f : RField) : Nat := getF (d.spb (0x1C0 + 0x80 * m + 4 * k)) f

/-- Whether entry m of the loaded block is enabled. -/
def Dev.meEn (d : Dev) (m : Nat) : Bool := decide (m < 20) && d.me m 0 F.ME_CFG_EN == 1

/-- The last commit of a context as Channel M sees it: OUT6 to OUT8 are published while CTX_TARGET.PUB = 1. -/
def Dev.demNow (d : Dev) (c tick : Nat) : DemSt :=
  { tick := tick, pub := d.flag (R.CTX_TARGET c) F.CTX_TARGET_PUB, o6 := (d.outOpd c 6).x, o7 := (d.outOpd c 7).x,
    o8 := (d.outOpd c 8).x }

/-- A commit noted for every enabled entry whose demands come from the context. -/
def Dev.demNote (d : Dev) (c : Nat) : Dev :=
  forN 20 (fun m e =>
    if e.meEn m && e.me m 0 F.ME_CFG_CTX == c then
      let s := e.tmS m
      e.setTm m { s with dems := s.dems ++ [e.demNow c e.gtc] }
    else e) d

/-- Words that are written anew hold no error (R211, log entry 194). -/
def CtxSt.mend (s : CtxSt) (w : Nat → Bool) : CtxSt := { s with bad := s.bad.filter (!w ·), soft := s.soft.filter (!w ·) }

/-- A pass commits (R203, R205, R206): every OUT word, exponent and state word, status, targets. -/
def Dev.ctxCommit (d : Dev) (c : Nat) (snap : SnapSt) (res : PassSt) (late : Bool) : Dev :=
  let d := forN 12 (fun j e =>
    let w := nthD (0, 0) res.outs j
    (e.setReg (R.CTX_OUT c j) w.1).put (R.CTX_OMAP c (j / 2)) (if j % 2 = 1 then F.CTX_OMAP_EXP_H else F.CTX_OMAP_EXP_L) w.2) d
  let d := res.state.foldl (fun e w => e.setReg (R.CTX_POOL c w.1) w.2) d
  let d := (d.put (R.CTX_SAT c) F.CTX_SAT_LAST res.sat).orReg (R.CTX_SAT c) (BitVec.ofNat 32 res.sat)
  let d := (d.putB (R.CTX_STAT c) F.CTX_STAT_STALE_IN snap.stale).setReg (R.CTX_LAST c) (BitVec.ofNat 32 snap.tr)
  let seq := (d.get (R.CTX_RUNS c) F.CTX_RUNS_SEQ + 1) % 65536
  let d := d.put (R.CTX_RUNS c) F.CTX_RUNS_SEQ seq
  let written (w : Nat) : Bool := (decide (12 ≤ w) && decide (w < 16)) || (decide (40 ≤ w) && decide (w < 52))
    || res.state.any fun x => 52 + x.1 == w
  let d := d.setCtx c { (d.ctxS c).mend written with cAt := d.gtc + 1 }
  let w := seq * 2 ^ 16 + d.get (R.CTX_STAT c) F.CTX_STAT_D * 2 ^ 8 + b2n snap.stale * 16 + 1
  let d := d.emit { ty := 0x11, spec := late, res := c, tick := d.gtc,
                    data := [BitVec.ofNat 32 snap.tr, BitVec.ofNat 32 w, d.passDigest c res] }
  let d := if res.sat = 0 then d else d.ctxEvent c Ev.CTX_SAT
  ((d.handOver c res late).demNote c).ctxTracks c snap.tr

/-- PASS_COMMIT (R205). -/
def Dev.passCommit (d : Dev) (c : Nat) : Dev :=
  let s := d.ctxS c
  match s.run with
  | some r =>
    if r.spec || decide (d.gtc < r.tc) || d.devState == DS.FATAL then d
    else
      let d := (d.setCtx c { s with run := none }).put (R.LE_STAT r.eng) F.LE_STAT_RUN_CTX 0xFF
      (d.ctxCommit c r.snap r.res false).ctxAnchor c
  | none => d

/-! ### Views and the frame count (R214, R219) -/

/-- CTX_STAT with PENDING and RUNNING as they stand (R214, R221). -/
def Dev.ctxStatWord (d : Dev) (c : Nat) : Word :=
  let s := d.ctxS c
  setF (setF (d.reg (R.CTX_STAT c)) F.CTX_STAT_PENDING (b2n s.pend.isSome)) F.CTX_STAT_RUNNING (b2n (s.run.isSome || s.spec.isSome))

/-- LE_STAT with READY and BOUND as they stand. -/
def Dev.leStatWord (d : Dev) (e : Nat) : Word :=
  let cs := List.range (nCtx d.member)
  let ready := (cs.filter fun c => d.ctxEng c == e && (match (d.ctxS c).pend with
    | some p => p.ready.isSome
    | none => false)).length
  let bound := (cs.filter fun c => d.ctxEn c && d.ctxEng c == e).length
  setF (setF (d.reg (R.LE_STAT e)) F.LE_STAT_READY (min ready 255)) F.LE_STAT_BOUND (min bound 255)

/-- An engine through the tick that ends (R219): a frame is counted at the boundary with which it begins; the counts of an interval
show from its end. -/
def Dev.engFrame (d : Dev) (e : Nat) : Dev :=
  let q := d.engS e
  let n := q.norm + b2n (d.get (R.LE_STAT e) F.LE_STAT_RUN_CTX != 0xFF)
  let r := q.rcp + b2n (d.get (R.LE_STAT e) F.LE_STAT_RCP_CTX != 0xFF)
  if d.engHeld e then d
  else if d.gtc % 8 = 0 then d.setEng e { norm := n, rcp := r }
  else if (d.gtc + 1) % 40000 = 0 then
    ((d.setEng e {}).put (R.LE_LOAD e) F.LE_LOAD_NORM q.norm).put (R.LE_LOAD e) F.LE_LOAD_RCP q.rcp
  else d

/-- Every engine through the tick that ends. -/
def Dev.engTick (d : Dev) : Dev := forN (nEngines d.member) (fun e x => x.engFrame e) d

/-- A read of CTX_OUT0 (R212). -/
def Dev.ctxOut0Read (d : Dev) (mid c : Nat) : Dev :=
  let l (e : Dev) (a : Nat) : Dev := e.latchW mid a (e.reg a)
  let d := forN 11 (fun j e => l e (R.CTX_OUT c (j + 1))) d
  let d := forN 6 (fun j e => l e (R.CTX_OMAP c j)) d
  (l (l (l d (R.CTX_SAT c)) (R.CTX_RUNS c)) (R.CTX_LAST c)).answer mid (d.reg (R.CTX_OUT c 0))

/-! ### Meanings -/

def execCtxRun (slot : Nat) (s : State) := onPart (fun d => d.runAction slot 4 192 d.ctxPresent (fun c e => e.ctxRun c)) s
def execCtxSpec (slot : Nat) (s : State) := onPart (fun d => d.runAction slot 5 192 d.ctxPresent (fun c e => e.ctxSpec c)) s
def execCtxWaitTimeout (ctx : Nat) (s : State) := onPart (fun d => d.onCtx ctx fun d => d.ctxWaitTimeout ctx) s
def execCtxDrop (ctx : Nat) (s : State) := onPart (fun d => d.onCtx ctx fun d => d.ctxDrop ctx) s
def execPassCommit (ctx : Nat) (s : State) := onPart (fun d => d.onCtx ctx fun d => d.passCommit ctx) s

end Sys2Proof.Machine
end

