-- ==== Sys2Proof/Machine/Horizon.lean ====
section
/-! DEFINITION. Horizon (chapter 08, R220 to R242): staging, resolution, recompute, fallback, the commit horizon; the capture
tick of a group (R226, R228, R272), the commit of a window (R120) and the closing of windows, which speculation watches. -/

namespace Sys2Proof.Machine

/-! ### Horizon and outcome -/

/-- The earlier of the horizons that have been fixed (R228). -/
def minH : List TgtSt → Option Nat
  | [] => none
  | t :: r => match t.h, minH r with
    | some a, some b => some (min a b)
    | some a, none => some a
    | none, x => x

def Dev.ctxH (d : Dev) (c : Nat) : Option Nat := minH (d.ctxS c).tgt

/-- An event of Horizon: the contexts concerned are named by CTX_SPEC and the records, not by LEC_FLAG (R240). -/
def Dev.specEvent (d : Dev) (c src : Nat) : Dev := d.raiseN Pg.LEC src c

/-- The speculation of a context ends with an outcome: the decision record, STATE, and a pending pass that may now be ready
(R221, R239, R241, R242). -/
def Dev.specEnd (d : Dev) (c outcome cause td commit : Nat) : Dev :=
  let a := R.CTX_SPEC c
  let h := (d.ctxH c).getD 0
  let s := d.ctxS c
  let d := (d.put a F.CTX_SPEC_OUTCOME outcome).put a F.CTX_SPEC_CAUSE cause
  let next := match s.pend with
    | some p => b2n p.spec
    | none => 0
  let d := s.tgt.foldl (fun e t => if t.grp < 20 then e.minpFlush t.grp else e) d
  let d := (d.setCtx c { s.mend (112 ≤ ·) with spec := none }).put a F.CTX_SPEC_STATE next
  let w (n : Nat) : Word := BitVec.ofNat 32 n
  let d := d.emit { ty := 0x18, spec := true, res := c, tick := d.gtc, data := [w (outcome * 16 + cause), w td, w h, w commit] }
  d.ctxReady c

/-- A fallback (R235). -/
def Dev.specFall (d : Dev) (c cause : Nat) : Dev :=
  let a := R.CTX_SPEC c
  let lim := d.get a F.CTX_SPEC_FB_MAX
  let old := d.get a F.CTX_SPEC_FB_RUN
  let td := match (d.ctxS c).spec with
    | some s => s.rq.getD d.gtc
    | none => d.gtc
  let d := (d.bump a F.CTX_SPEC_FB_RUN).bump a F.CTX_SPEC_FB_CNT
  let reached := lim != 0 && decide (old < lim) && decide (lim ≤ d.get a F.CTX_SPEC_FB_RUN)
  let d := if reached then d.putB a F.CTX_SPEC_SUSP true else d
  let d := d.specEvent c Ev.SPEC_FALLBACK
  let d := if reached then d.specEvent c Ev.SPEC_FB_LIMIT else d
  d.specEnd c 3 cause td 0

/-- The reads a commit of a speculation counts as (R233): every ACC slot at T_r, each predicted window at T_d. -/
def Dev.specReads (d : Dev) (c : Nat) (s : SpecSt) : Dev :=
  let d := d.markRead c s.snap.counts
  s.wins.foldl (fun e w =>
    let q := e.ctxS c
    e.setCtx c { q with seen := forN 8 (fun i l =>
      let x := e.reg (R.CTX_IN c i)
      if inKind x = inACC ∧ getF x F.CTX_IN_ACC = w.acc then spPut 0 l i (max (spGet 0 l i) w.count) else l) q.seen }) d

/-- A commit of a speculation in the present tick (R233, R234, R236). -/
def Dev.specCommit (d : Dev) (c outcome cause td : Nat) (s : SpecSt) (res : PassSt) : Dev :=
  let d := if d.ctxH c = some d.gtc then d.zeroSlack 5 (d.dutyGrp c) else d
  let d := (d.ctxCommit c s.snap res true).specReads c s
  let d := d.put (R.CTX_SPEC c) F.CTX_SPEC_FB_RUN 0
  (d.specEnd c outcome cause td d.gtc).ctxAnchor c

/-! ### Errors of the store (R211, R237) -/

/-- An uncorrectable error of a context's words: the pass, the pending pass and the speculation are abandoned, the context disabled. -/
def Dev.ctxUncorr (d : Dev) (c : Nat) : Dev :=
  let s := d.ctxS c
  let d := match s.run with
    | some r => (d.put (R.LE_STAT r.eng) F.LE_STAT_RUN_CTX 0xFF).passRecordAt c 5 r.snap.tr r.snap.stale
    | none => d
  let d := match s.spec with
    | some p =>
      let d := if p.rend.isSome then d.put (R.LE_STAT p.reng) F.LE_STAT_RCP_CTX 0xFF else d
      let d := d.setCtx c { s with pend := none, run := none }
      (d.specEnd c 4 7 d.gtc 0).specEvent c Ev.SPEC_ABORT
    | none => (d.ctxDiscard c).setCtx c { (d.ctxDiscard c).ctxS c with run := none }
  let d := (d.putB (R.CTX_CTRL c) F.CTX_CTRL_EN false).putB (R.CTX_STAT c) F.CTX_STAT_ECC_ERR true
  let d := (d.bump R.LEC_ECC F.LEC_ECC_UNCORR).put R.LEC_ECC F.LEC_ECC_LAST_CTX c
  d.ctxEvent c Ev.CTX_ECC

/-- A single-bit error is corrected where the word is read, and counted (R211). -/
def Dev.ctxFix (d : Dev) (c w : Nat) : Dev :=
  let s := d.ctxS c
  if s.soft.contains w then
    ((d.setCtx c { s with soft := s.soft.filter (· != w) }).bump R.LEC_ECC F.LEC_ECC_CORR).raiseN Pg.LEC Ev.LE_ECC_CORR c
  else d

/-- The single-bit errors of the words that a read takes. -/
def Dev.ctxFixes (d : Dev) (c : Nat) (p : Nat → Bool) : Dev :=
  ((d.ctxS c).soft.filter p).foldl (fun e w => e.ctxFix c w) d

/-- An upset of the store. -/
def Dev.ctxUpset (d : Dev) (u : Upset) : Dev :=
  let s := d.ctxS u.ctx
  if !d.ctxPresent u.ctx || s.bad.contains u.word then d
  else if u.two then
    d.setCtx u.ctx { s with bad := u.word :: s.bad, soft := s.soft.filter (· != u.word) }
  else if s.soft.contains u.word then d else d.setCtx u.ctx { s with soft := u.word :: s.soft }

/-- The prediction words, which the decision reads; the staged OUT words and state words, which a confirmation reads (R224, R233). -/
def predArea (w : Nat) : Bool := decide (124 ≤ w) && decide (w < 128)
def stagedArea (s : SpecSt) (w : Nat) : Bool :=
  (decide (112 ≤ w) && decide (w < 124)) || s.res.state.any fun x => 128 + x.1 == w

/-! ### Resolution (R231 to R233) -/

/-- Whether a result flag fails the comparison; whether a tolerance does (R232). -/
def Dev.specCompare (d : Dev) (c : Nat) (s : SpecSt) : Bool × Bool :=
  let t0 := d.get (R.CTX_TOL c) F.CTX_TOL_TOL0
  let t1 := d.get (R.CTX_TOL c) F.CTX_TOL_TOL1
  let win (k : Nat) : PredWin := (s.wins.find? fun w => w.stage == k).getD {}
  let flag := s.wins.any (·.bad) || s.preds.any fun p => if p.2.1 then (win p.1).sat1 else (win p.1).sat0
  let tol := s.preds.any fun p =>
    if p.2.1 then decide (t1 < ((win p.1).m1 - p.2.2).natAbs) else decide (t0 < ((win p.1).m0 - p.2.2).natAbs)
  (flag, tol)

/-- The resolution of a staged speculation, where its decision can be taken (R225, R231 to R233) and its engine does not stand still
(R27). -/
def Dev.specTry (d : Dev) (c : Nat) : Dev :=
  match (d.ctxS c).spec with
  | none => d
  | some s =>
    match s.tst with
    | none => d
    | some tst =>
      let h := d.ctxH c
      let after (t : Nat) : Bool := match h with
        | some x => decide (x < t)
        | none => false
      if s.rq.isSome || d.devState == DS.FATAL || d.engHeld (d.ctxEng c) then d
      else if s.wins.any (fun w => w.lost || w.fOpen.isNone) then d.specFall c 3
      else if after tst then d.specFall c 4
      else if s.wins.any (fun w => match w.done with
          | some t => after t
          | none => false) then d.specFall c 5
      else if s.wins.any (fun w => w.done.isNone) then d
      else if (d.ctxS c).bad.any predArea then d.ctxUncorr c
      else
        let (flag, tol) := d.specCompare c s
        let d := d.ctxFixes c predArea
        if !flag && !tol then
          if (d.ctxS c).bad.any (stagedArea s) then d.ctxUncorr c
          else (d.ctxFixes c (stagedArea s)).specCommit c 1 0 d.gtc s s.res
        else if !d.engEn (d.ctxEng c) then d.specFall c 6
        else
          let d := d.setCtx c { d.ctxS c with spec := some { s with rq := some d.gtc } }
          (d.put (R.CTX_SPEC c) F.CTX_SPEC_STATE 3).put (R.CTX_SPEC c) F.CTX_SPEC_CAUSE (if flag then 2 else 1)

/-- Every context's speculation looked at again. -/
def Dev.specTryAll (d : Dev) : Dev :=
  forN (nCtx d.member) (fun c e => if (e.ctxS c).spec.isSome then e.specTry c else e) d

/-- Predicted windows of a speculation rewritten. -/
def Dev.mapWins (d : Dev) (c : Nat) (f : PredWin → PredWin) : Dev :=
  let s := d.ctxS c
  match s.spec with
  | some p => d.setCtx c { s with spec := some { p with wins := p.wins.map f } }
  | none => d

def Dev.mapWinsAll (d : Dev) (f : PredWin → PredWin) : Dev := forN (nCtx d.member) (fun c e => e.mapWins c f) d

/-- The commit of the window opened at a tick, seen by the predicted windows (R225). -/
def Dev.specSee (d : Dev) (a fOpen : Nat) : Dev :=
  let st := R.ACC_STAT a
  let m0 := mantW (d.reg (R.ACC_RES0 a))
  let m1 := mantW (d.reg (R.ACC_RES1 a))
  let bad := d.flag st F.ACC_STAT_EMPTY || d.flag st F.ACC_STAT_SHORT || d.flag st F.ACC_STAT_OVF
  let s0 := d.flag st F.ACC_STAT_SAT0
  let s1 := d.flag st F.ACC_STAT_SAT1
  let n := (d.accS a).n
  d.mapWinsAll fun p =>
    if p.acc = a ∧ p.done = none ∧ p.fOpen = some fOpen then
      { p with done := some d.gtc, m0 := m0, m1 := m1, bad := bad, sat0 := s0, sat1 := s1, count := n }
    else p

/-- Predicted windows that no longer stand in their accumulator are lost (R121, R122, R231). -/
def Dev.specSweep (d : Dev) : Dev :=
  let d := d.mapWinsAll fun p =>
    match p.fOpen with
    | some f => if p.done.isNone && !d.accStands p.acc f then { p with lost := true } else p
    | none => p
  d.specTryAll

/-! ### Windows -/

/-- Whether an ACC slot of an enabled context names an accumulator (R455). -/
def Dev.accRecorded (d : Dev) (a : Nat) : Bool :=
  (List.range (nCtx d.member)).any fun c => d.ctxEn c && (List.range 8).any fun i =>
    let w := d.reg (R.CTX_IN c i)
    inKind w == inACC && getF w F.CTX_IN_ACC == a

/-- The ACC record of a commit (R455). -/
def Dev.accRecord (d : Dev) (a : Nat) : Dev :=
  if d.accRecorded a then
    let w := d.get (R.ACC_CNT a) F.ACC_CNT_N + (d.reg (R.ACC_STAT a)).toNat % 32 * 2 ^ 24
    d.emit { ty := 0x12, res := a, tick := d.gtc,
             data := [d.reg (R.ACC_RES0 a), d.reg (R.ACC_RES1 a), BitVec.ofNat 32 w] }
  else d

/-- ACC_COMMIT (R120, R193, R232). -/
def Dev.accCommitCmd (d : Dev) (a : Nat) : Dev :=
  match d.accDue a with
  | none => d
  | some w =>
    let d := (d.accCommit a w).accRecord a
    ((d.ctxAccCommit a).specSee a w.fOpen).specTryAll

/-! ### Staging and recompute (R224, R234) -/

/-- A prediction word as R242 lays it out. -/
def predWord (wins : List PredWin) (p : Nat × Bool × Int) : Word :=
  let a := match wins.find? (fun w => w.stage == p.1) with
    | some w => w.acc
    | none => 0
  BitVec.ofNat 32 (2 ^ 31 + b2n p.2.1 * 2 ^ 30 + a * 2 ^ 20 + wrapN 20 p.2.2)

/-- The staged OUT words as R242 lays them out; zero outside a staged speculation. -/
def Dev.stgOut (d : Dev) (c j : Nat) : Word :=
  match (d.ctxS c).spec with
  | some s =>
    if s.tst.isSome then
      let o := nthD (0, 0) s.res.outs j
      BitVec.ofNat 32 (2 ^ 31 + o.2 * 2 ^ 20 + o.1.toNat % 2 ^ 20)
    else 0
  | none => 0

/-- SPEC_STAGE (R224). -/
def Dev.specStage (d : Dev) (c : Nat) : Dev :=
  let q := d.ctxS c
  match q.run, q.spec with
  | some r, some s =>
    if !r.spec || decide (d.gtc < r.tc) || d.devState == DS.FATAL then d
    else
      let d := d.setCtx c { q.mend (112 ≤ ·) with run := none, spec := some { s with tst := some d.gtc } }
      let d := (d.put (R.LE_STAT r.eng) F.LE_STAT_RUN_CTX 0xFF).put (R.CTX_SPEC c) F.CTX_SPEC_STATE 2
      let w (n : Nat) : Word := BitVec.ofNat 32 n
      let d := d.emit { ty := 0x17, spec := true, res := c, tick := d.gtc,
                        data := [w s.f, w s.snap.tr, w s.preds.length] ++ s.preds.map (predWord s.wins) }
      d.specTry c
  | _, _ => d

/-- D_r of R196, of the program the speculation runs. -/
def SpecSt.recompFrames (s : SpecSt) : Nat := 2 + 3 * (passFrames s.snap.words - 2)

/-- Contexts whose recompute waits on an engine, with the request tick. -/
def Dev.recompQueue (d : Dev) (e : Nat) : List (Nat × Nat) :=
  (List.range (nCtx d.member)).filterMap fun c =>
    match (d.ctxS c).spec with
    | some s => match s.rq with
      | some t => if s.rend.isNone && d.ctxEng c == e then some (t, c) else none
      | none => none
    | none => none

/-- A recompute begins, or is cancelled where it would end after H; whether it began (R234). -/
def Dev.recompTry (d : Dev) (e c : Nat) : Dev × Bool :=
  let q := d.ctxS c
  match q.spec with
  | none => (d, false)
  | some s =>
    let fin := d.gtc + 8 * s.recompFrames
    let fits := match d.ctxH c with
      | some h => decide (fin ≤ h)
      | none => true
    if fits then
      let d := d.setCtx c { q with spec := some { s with rend := some fin, reng := Fin.ofNat 8 e } }
      ((d.put (R.LE_STAT e) F.LE_STAT_RCP_CTX c).specEvent c Ev.SPEC_RECOMPUTE, true)
    else (d.specFall c 6, false)

/-- The queue served at a boundary: the earliest that fits starts. -/
def Dev.recompServe (d : Dev) (e : Nat) : Nat → Dev
  | 0 => d
  | n + 1 =>
    match earliest (d.recompQueue e) with
    | none => d
    | some (_, c) =>
      let (d, began) := d.recompTry e c
      if began then d else d.recompServe e n

/-- RECOMPUTE_START (R196, R234). -/
def Dev.recompStart (d : Dev) (e : Nat) : Dev :=
  if decide (e < nEngines d.member) && d.engOn e && d.gtc % 8 == 0 && d.get (R.LE_STAT e) F.LE_STAT_RCP_CTX == 0xFF then
    d.recompServe e (nCtx d.member)
  else d

/-- A recompute's result (R234): the same snapshot, the predictors' operands C and D from the committed windows. -/
def Dev.recompResult (d : Dev) (s : SpecSt) : PassSt :=
  let ov := s.wins.map fun w =>
    let e0 := d.accExp0 w.acc
    let e1 := d.accExp1 w.acc
    let a : Opd := { x := bfVal w.m0 e0, e := e0 }
    let b : Opd := { x := bfVal w.m1 e1, e := e1 }
    (w.stage, a, b)
  (s.snap.eval false ov).1

/-- RECOMPUTE_COMMIT (R234). -/
def Dev.recompCommit (d : Dev) (c : Nat) : Dev :=
  match (d.ctxS c).spec with
  | some s => match s.rend with
    | some t =>
      if d.gtc < t ∨ d.devState = DS.FATAL then d
      else
        let res := d.recompResult s
        let d := d.put (R.LE_STAT s.reng) F.LE_STAT_RCP_CTX 0xFF
        d.specCommit c 2 (d.get (R.CTX_SPEC c) F.CTX_SPEC_CAUSE) (s.rq.getD d.gtc) s res
    | none => d
  | none => d

/-! ### The capture tick (R226 to R228, R272, R318) -/

/-- Step 1 to 5 of R227: three duties rotated by an angle in counts. -/
def rotateVec (v : List (Int × Int)) (counts : Frac) : List (Int × Int) :=
  let x (j : Nat) : Frac := dutyOf (nthD (0, 0) v j)
  let (s, c) := sinCosCounts counts
  let d0 := sig32 ((((x 0).add (x 1)).add (x 2)).mul ⟨1, 3⟩)
  let al := (x 0).sub d0
  let be := ((x 1).sub (x 2)).mul kInvSqrt3
  let a' := (al.mul c).sub (be.mul s)
  let b' := ((al.mul s).add (be.mul c)).mul kHalfSqrt3
  let h := a'.shl (-1)
  let fit (y : Frac) (j : Nat) : Int × Int :=
    let e := (nthD (0, 0) v j).2
    ((mantOf (fclamp y fzero fone) e).1, e)
  [fit (d0.add a') 0, fit ((d0.sub h).add b') 1, fit ((d0.sub h).sub b') 2]

/-- The fallback vector of a group at a capture (R227). -/
def Dev.fallbackVec (d : Dev) (g : Nat) : Option (List (Int × Int)) :=
  let r := d.grpS g
  match r.comm with
  | none => none
  | some v =>
    let q := d.cfgG g
    if d.pwmMode g = 1 ∧ d.flag (R.PWT_STAT q) F.PWT_STAT_ALOCKED ∧ r.commIdx ≠ 0 then
      let k := r.idx + 1 - r.commIdx
      let np := max (d.get (R.PWT_ALK q) F.PWT_ALK_NP) 1 * (if d.pwmDbl g then 2 else 1)
      some (rotateVec v (frN (k * 2 ^ 20 % (np * 2 ^ 20)) np))
    else some v

/-- Whether a load point of a group is the target period of some speculation (R226). -/
def Dev.isTarget (d : Dev) (g l : Nat) : Bool :=
  (List.range (nCtx d.member)).any fun c => (d.ctxS c).tgt.any fun t => t.grp == g && t.load == l

/-- Whether a speculation that is not yet resolved may replace what a load point's capture takes (R229, R230). -/
def Dev.specOpen (d : Dev) (g l : Nat) : Bool :=
  (List.range (nCtx d.member)).any fun c => (d.ctxS c).spec.isSome && (d.ctxS c).tgt.any fun t => t.grp == g && t.load == l

/-- A running recompute that would end after the horizon is cancelled, and its speculation falls back (R234). -/
def Dev.recompCancel (d : Dev) (c : Nat) : Dev :=
  match (d.ctxS c).spec, d.ctxH c with
  | some s, some h => match s.rend with
    | some t => if h < t then (d.put (R.LE_STAT s.reng) F.LE_STAT_RCP_CTX 0xFF).specFall c 6 else d
    | none => d
  | _, _ => d

/-- The horizon fixed at a capture (R228), and what it decides at once. -/
def Dev.fixH (d : Dev) (g l : Nat) : Dev :=
  let h := (d.grpS g).eMin - 16
  forN (nCtx d.member) (fun c e =>
    let s := e.ctxS c
    if s.tgt.any fun t => t.grp == g && t.load == l then
      let e := e.setCtx c { s with tgt := s.tgt.map fun t => if t.grp = g ∧ t.load = l then { t with h := some h } else t }
      (e.recompCancel c).specTry c
    else e) d

/-- CAPTURE_TICK. -/
def Dev.captureTick (d : Dev) (g : Nat) : Dev :=
  match d.captureDue g with
  | none => d
  | some (l, pk) =>
    let prov := if d.isTarget g l then d.fallbackVec g else none
    let d := d.capture g l pk prov (d.specOpen g l)
    let d := if pk then d else d.planRefresh g
    d.fixH g l

/-! ### The scrub and reads of the store, and the cluster stopped (R211, R515) -/

/-- The context whose word the scrub reads in the present tick: one word every 8 ticks (R211). -/
def Dev.scrubCtx (d : Dev) : Nat := d.gtc / 8 % 24576 / 128

/-- The word of that context's record. -/
def Dev.scrubWord (d : Dev) : Nat := d.gtc / 8 % 128

/-- Whether the scrub reads a word in the present tick: one every 8 ticks (R211). -/
def Dev.scrubDue (d : Dev) : Bool := d.gtc % 8 == 0 && decide (d.sys.scrubbed ≤ d.gtc)

/-- A record word written anew holds no error. -/
def Dev.ctxMend (d : Dev) (c w : Nat) : Dev :=
  let s := d.ctxS c
  if s.bad.contains w || s.soft.contains w then d.setCtx c (s.mend (· == w)) else d

/-- CTX_SCRUB (R211) but for the machine's reaction. The operands are the error of the word that the scrub reads and the upsets that other
words have met; an error that cannot be corrected stands until the word is written again (log entry 194). -/
def Dev.ctxScrub (d : Dev) (err : EccErr) (ups : List Upset) : Dev :=
  let c := d.scrubCtx
  let w := d.scrubWord
  if !d.scrubDue then d
  else
    let d := { d with sys := { d.sys with scrubbed := d.gtc + 8 } }
    let d := ups.foldl Dev.ctxUpset d
    let d := match err with
      | .ok => d
      | .corrected => d.ctxUpset ⟨c, w, false⟩
      | .uncorrectable => d.ctxUpset ⟨c, w, true⟩
    if !d.ctxPresent c then d else if (d.ctxS c).bad.contains w then d.ctxUncorr c else d.ctxFix c w

/-- A bus read of a failing record word (R211): it returns zero, and the error is found. -/
def Dev.ctxBadRead (d : Dev) (mid c : Nat) : Dev := (d.ctxUncorr c).answer mid 0

/-- The words that a read of CTX_OUT0 latches (R212). -/
def out0Words (w : Nat) : Bool :=
  (decide (3 ≤ w) && decide (w < 9)) || (decide (13 ≤ w) && decide (w < 16)) || (decide (41 ≤ w) && decide (w < 52))

/-- A bus read of word `n` of a context's record (R211, R212): errors are corrected or found in the words that the read takes. A failing
word is latched as zero. -/
def Dev.ctxWordRead (d : Dev) (mid c n : Nat) (plain : Dev → Dev) : Dev :=
  if (d.ctxS c).bad.contains n then d.ctxBadRead mid c
  else
    let d := d.ctxFix c n
    if n ≠ 40 then plain d
    else
      let fails := (d.ctxS c).bad.filter out0Words
      let d := (d.ctxFixes c out0Words).ctxOut0Read mid c
      let d := fails.foldl (fun e w => e.latchW mid (ctxA c w) 0) d
      if fails.isEmpty then d else d.ctxUncorr c

/-! ### PASS_START -/

/-- Whether a pass on a record reads its word `w` (R197): status is not read, and of its own OUT words only those that a selector names. -/
def ownRead (l : List Word) (w : Nat) : Bool :=
  let named (x : Nat) : Bool := (List.range (recStages l)).any (fun k => (List.range 4).any fun i => recSel l k i == x)
    || (List.range 12).any fun j => recOmap l j == x
  if 40 ≤ w ∧ w < 52 then named (0x60 + (w - 40)) else decide (w < 12) || (decide (16 ≤ w) && decide (w < 112))

/-- Whether a pass of context `c` reads word `w` of context `x` (R197): its own record, and the OUT and OMAP words of a CTX slot. -/
def Dev.passReads (d : Dev) (c x w : Nat) : Bool :=
  (x == c && ownRead (d.progWords c) w) || (List.range 8).any fun i =>
    let q := d.reg (R.CTX_IN c i)
    let j := getF q F.CTX_IN_J
    inKind q == inCTX && getF q F.CTX_IN_CTX == x && [j, j + 1].any fun o => decide (o < 12) && (w == 40 + o || w == 3 + o / 2)

/-- The contexts in whose words a pass of context `c` meets an error that cannot be corrected. -/
def Dev.passBad (d : Dev) (c : Nat) : List Nat :=
  (List.range (nCtx d.member)).filter fun x => (d.ctxS x).bad.any (d.passReads c x)

/-- The single-bit errors a pass of context `c` meets. -/
def Dev.passFix (d : Dev) (c : Nat) : Dev :=
  forN (nCtx d.member) (fun x e => e.ctxFixes x (d.passReads c x)) d

/-- PASS_START (R194); a pass that reads a failing word is abandoned, and the context whose word fails is disabled (R211, log entry 194). -/
def Dev.passStart (d : Dev) (e : Nat) : Dev :=
  if decide (e < nEngines d.member) && d.engOn e && d.gtc % 8 == 0 && d.get (R.LE_STAT e) F.LE_STAT_RUN_CTX == 0xFF
      && !d.rplBusy e then
    match earliest (d.startable e) with
    | some (_, c) => match (d.ctxS c).pend with
      | some p =>
        let fails := d.passBad c
        if fails.isEmpty then (d.passFix c).passBegin e c p
        else fails.foldl (fun e x => e.ctxUncorr x) ((d.passRecordAt c 5 d.gtc (p.stale.any id)).ctxDiscard c)
      | none => d
    | none => d
  else d

/-- A recompute that waits on an engine that does not run is not started (R515). -/
def Dev.recompDrop (d : Dev) : Dev :=
  forN (nCtx d.member) (fun c e => match (e.ctxS c).spec with
    | some s => if s.rq.isSome && s.rend.isNone && !e.engEn (e.ctxEng c) then e.specFall c 6 else e
    | none => e) d

/-- The LEC page disabled (R515): pending passes are discarded; a recompute that waits is not started. -/
def Dev.lecOff (d : Dev) : Dev :=
  (forN (nCtx d.member) (fun c e => if (e.ctxS c).pend.isSome then e.ctxDiscard c else e) d).recompDrop

/-- A write of LEC_CTRL and what it stops (R219, R515). -/
def Dev.engCtrlWrite (d : Dev) (mid : Nat) (w : Word) : Dev := (d.lecCtrlWrite mid w).recompDrop

/-! ### Meanings -/

def execAccClose (slot : Nat) (s : State) :=
  onPart (fun d => (d.runAction slot 2 384 (fun a => decide (a < nAcc d.member)) (fun a e => e.accCloseAct a)).specSweep) s
def execAccSwap (slot : Nat) (s : State) :=
  onPart (fun d => (d.runAction slot 3 384 (fun a => decide (a < nAcc d.member)) (fun a e => e.accSwapAct a)).specSweep) s
def execAccCommit (acc : Nat) (s : State) := onLive (fun d => d.accCommitCmd acc) s
def execSpecStage (ctx : Nat) (s : State) := onPart (fun d => d.onCtx ctx fun d => d.specStage ctx) s
def execPassStart (eng : Nat) (s : State) := onPart (fun d => d.passStart eng) s
def execRecomputeStart (eng : Nat) (s : State) := onPart (fun d => d.recompStart eng) s
def execRecomputeCommit (ctx : Nat) (s : State) := onPart (fun d => d.onCtx ctx fun d => d.recompCommit ctx) s
def execCaptureTick (grp : Nat) (s : State) := onPart (fun d => d.captureTick grp) s

end Sys2Proof.Machine
end

