-- ==== Sys2Proof/Machine/Mailbox.lean ====
section
/-! DEFINITION. Rights, mailboxes, hardware locks and shared windows (chapter 15, R408 to R422). -/

namespace Sys2Proof.Machine

/-! ### Rights -/

/-- Whether a lifecycle state's row of R491 gives DBG_WR = 1. -/
def lcDebug (lc : Nat) : Bool := lc == 1 || lc == 3

/-- Whether MBX_RIGHTS accepts a write (R409): S0 alone, in BOOT and CONFIGURE, and no DBG_WR where the lifecycle has none. -/
def Dev.rightsOk (d : Dev) (mid : Nat) (w : Word) : Bool :=
  mid == Mid.S0 && (d.devState == DS.BOOT || d.inConfigure) && (!bitOf w 2 || lcDebug d.nv.lc)

/-- The rights bits of the masters the member has (R5). -/
def rightsBits (m : Member) (w : Word) : Nat := if hasPcie m then w.toNat % 8 else w.toNat / 2 % 4 * 2

/-- The three rights bits written; HOST_WR reads zero where the member lacks PCIe (R5). -/
def Dev.setRights (d : Dev) (w : Word) : Dev :=
  d.setReg R.MBX_RIGHTS (setF (d.reg R.MBX_RIGHTS) ⟨2, 0⟩ (rightsBits d.member w))

/-- A 1 written to HOST_WR where the member lacks PCIe counts as a write to an absent unit (R5). -/
def Dev.noteHostRight (d : Dev) (mid : Nat) (w : Word) : Dev :=
  if bitOf w 0 && !hasPcie d.member then d.absentWrite mid Pg.MBX else d

/-- MBX_RIGHTS_WRITE (R409). -/
def Dev.mbxRightsWrite (d : Dev) (mid : Nat) (w : Word) : Dev :=
  let d := d.noteHostRight mid w
  if d.rightsOk mid w then d.setRights w else d.deny Pg.MBX

/-! ### Mailboxes -/

/-- The masters that can be bound (R410). -/
def bindable (mid : Nat) : Bool := mid == 0 || mid == 1 || mid == 4 || mid == 5 || mid == 8

/-- Whether a master may write the MBX, LCK and WIN pages at all (R408). -/
def Dev.sharedOk (d : Dev) (mid : Nat) : Bool := d.asS0 mid .mbxB || mid == Mid.S1

/-- Whether a bindable master is a unit the member lacks (R410). -/
def mastAbsent (m : Member) (mid : Nat) : Bool := mid == Mid.PCIE && !hasPcie m

/-- A channel bound (R410). -/
def Dev.bindChannel (d : Dev) (c a b owner : Nat) (rc : Bool) : Dev :=
  let r := R.MBX_BIND c
  let d := (d.put r F.MBX_BIND_MID_A a).put r F.MBX_BIND_MID_B b
  let d := ((d.putB r F.MBX_BIND_REC rc).putB r F.MBX_BIND_VALID true).put r F.MBX_BIND_OWNER owner
  d.put r F.MBX_BIND_RESULT 1

/-- A channel unbound: both queues empty, and one that was full is so no more (R410, R411). -/
def Dev.unbindChannel (d : Dev) (c : Nat) : Dev :=
  let r := R.MBX_BIND c
  let q := d.mbxS c
  let full := decide (q.ab.length = 8) || decide (q.ba.length = 8)
  let d := (d.setMbx c { q with ab := [], ba := [] }).raiseIf full Pg.MBX Ev.MBX_SPACE
  let d := (d.put r F.MBX_BIND_MID_A 0xF).put r F.MBX_BIND_MID_B 0xF
  let d := ((d.putB r F.MBX_BIND_REC false).putB r F.MBX_BIND_VALID false).put r F.MBX_BIND_OWNER 0xF
  d.put r F.MBX_BIND_RESULT 0

/-- A write of MBX_BIND (R410): binding, unbinding, or one of the refusals. -/
def Dev.mbxBindWrite (d : Dev) (mid c : Nat) (w : Word) : Dev :=
  let r := R.MBX_BIND c
  let a := getF w F.MBX_BIND_MID_A
  let b := getF w F.MBX_BIND_MID_B
  let valid := d.flag r F.MBX_BIND_VALID
  let states := d.inConfigure || (d.devState == DS.BOOT && mid == Mid.S0)
  if !d.sharedOk mid || !states then d.deny Pg.MBX
  else if a = 0xF ∧ b = 0xF then
    if !valid then d
    else if d.flag r F.MBX_BIND_LOCKED then d.deny Pg.MBX
    else if d.get r F.MBX_BIND_OWNER = mid ∧ d.inConfigure then d.unbindChannel c
    else d.put r F.MBX_BIND_RESULT 2
  else if valid then d.put r F.MBX_BIND_RESULT 2
  else if a = b ∨ !bindable a ∨ !bindable b then d.deny Pg.MBX
  else if mastAbsent d.member a || mastAbsent d.member b then d.put r F.MBX_BIND_RESULT 3
  else d.bindChannel c a b mid (bitOf w 29)

/-- MBX_SEND (R411). -/
def Dev.mbxSendCmd (d : Dev) (mid c : Nat) (w : Word) : Dev :=
  let side := d.mbxSide c mid
  if side = 0 ∨ !d.sharedOk mid then d.deny Pg.MBX else d.mbxSend c side w

/-- Garmal's waiting response goes out as soon as the queue has room for all of it (R424, R425). -/
def Dev.sendHeld (d : Dev) (c : Nat) : Dev :=
  let g := d.garS c
  if g.held = [] then d
  else if ((d.mbxS c).out 1).length + g.held.length ≤ 8 then
    (d.setGar c { g with held := [] }).mbxSendAll c 1 g.held
  else d

/-- A side's inbound queue without its oldest word, the TAKEN count advanced. -/
def MbxSt.pop (q : MbxSt) (side : Nat) : MbxSt :=
  if side = 1 then { q with ba := q.ba.drop 1, takenA := (q.takenA + 1) % 65536 }
  else { q with ab := q.ab.drop 1, takenB := (q.takenB + 1) % 65536 }

/-- A read of an empty queue marked on the reader's side. -/
def MbxSt.markEmpty (q : MbxSt) (side : Nat) : MbxSt :=
  if side = 1 then { q with emptyA := true } else { q with emptyB := true }

/-- MBX_RECEIVE (R411): the oldest inbound word is taken and returned. -/
def Dev.mbxReceive (d : Dev) (mid c : Nat) : Dev :=
  let side := d.mbxSide c mid
  let q := d.mbxS c
  if side = 0 then d.answer mid 0
  else
    match q.inq side with
    | [] => (d.setMbx c (q.markEmpty side)).answer mid 0
    | w :: r =>
      let d := (d.setMbx c (q.pop side)).answer mid w
      let d := d.raiseIf (decide (r.length = 7)) Pg.MBX Ev.MBX_SPACE
      if side = 2 then d.sendHeld c else d

/-- Words that a side of a channel has sent in the present bus cycle, which a flush of that cycle leaves (R412). -/
def Dev.sentNow (d : Dev) (c side : Nat) : Nat := (d.cycS.sent.filter fun (p : Nat × Nat) => p == (c, side)).length

/-- MBX_FLUSH (R412, R413): the binding owner empties both queues; a word sent in the same cycle remains. -/
def Dev.mbxFlush (d : Dev) (mid c : Nat) : Dev :=
  let r := R.MBX_BIND c
  let q := d.mbxS c
  if d.flag r F.MBX_BIND_VALID && d.get r F.MBX_BIND_OWNER == mid && d.sharedOk mid then
    let full := decide (q.ab.length = 8) || decide (q.ba.length = 8)
    let d := (d.setMbx c { q with ab := lastN (d.sentNow c 1) q.ab, ba := lastN (d.sentNow c 2) q.ba }).raiseIf full Pg.MBX Ev.MBX_SPACE
    d.sendHeld c
  else d.deny Pg.MBX

/-- A bound peer enters reset (R415): RST_SEEN on the other side of each of its channels. -/
def Dev.peerReset (d : Dev) (mid : Nat) : Dev :=
  forN 32 (fun c e =>
    let side := e.mbxSide c mid
    if side = 0 then e
    else
      let q := e.mbxS c
      (e.setMbx c (if side = 1 then { q with rstSeenB := true } else { q with rstSeenA := true })).raise
        Pg.MBX Ev.MBX_PEER_RST) d

/-- Whether a master is in reset as its peer sees it (R415). -/
def Dev.peerRst (d : Dev) (mid : Nat) : Bool :=
  if mid = Mid.S0 then d.flag R.RST_DOM F.RST_DOM_S0_HELD
  else if mid = Mid.S1 then d.flag R.RST_DOM F.RST_DOM_S1_HELD
  else if mid = Mid.PCIE then !d.pcie.l0 || d.pcie.fnRst
  else if mid = Mid.DEBUG then !d.flag R.DBG_CTRL F.DBG_CTRL_ATTACHED
  else false

/-- Whether every inbound queue of a master is empty. -/
def Dev.inboundEmpty (d : Dev) (mid : Nat) : Bool :=
  (List.range 32).all fun c =>
    let side := d.mbxSide c mid
    side == 0 || ((d.mbxS c).inq side).isEmpty

/-- Whether a master sleeps as its peer sees it (R415). -/
def Dev.peerSleep (d : Dev) (mid : Nat) : Bool :=
  if mid = Mid.S0 ∨ mid = Mid.S1 then !d.peerRst mid && d.inboundEmpty mid
  else if mid = Mid.PCIE then d.pcie.d3 || d.pcie.l1
  else false

/-- MBX_STAT as the side of a master reads it (R411, R432). -/
def Dev.mbxStatWord (d : Dev) (c mid : Nat) : Word :=
  let side := d.mbxSide c mid
  let q := d.mbxS c
  if side = 0 then 0
  else
    let tx := (q.out side).length
    let w := setF (setF 0 F.MBX_STAT_SIDE side) F.MBX_STAT_TX_CNT tx
    let w := setF (setF w F.MBX_STAT_TX_FREE (8 - tx)) F.MBX_STAT_RX_CNT (q.inq side).length
    let w := setF w F.MBX_STAT_QFULL (b2n (if side = 1 then q.qfullA else q.qfullB))
    setF w F.MBX_STAT_EMPTY_RD (b2n (if side = 1 then q.emptyA else q.emptyB))

/-- MBX_PEER as the side of a master reads it (R415). -/
def Dev.mbxPeerWord (d : Dev) (c mid : Nat) : Word :=
  let side := d.mbxSide c mid
  let q := d.mbxS c
  if side = 0 then 0
  else
    let peer := d.get (R.MBX_BIND c) (if side = 1 then F.MBX_BIND_MID_B else F.MBX_BIND_MID_A)
    let w := setF (setF 0 F.MBX_PEER_RST (b2n (d.peerRst peer))) F.MBX_PEER_SLEEP (b2n (d.peerSleep peer))
    let w := setF w F.MBX_PEER_RST_SEEN (b2n (if side = 1 then q.rstSeenA else q.rstSeenB))
    let w := setF w F.MBX_PEER_ABSENT (b2n (mastAbsent d.member peer))
    setF w F.MBX_PEER_UNKNOWN (b2n (peer == Mid.SPI))

/-- MBX_CNT as the side of a master reads it (R432). -/
def Dev.mbxCntWord (d : Dev) (c mid : Nat) : Word :=
  let side := d.mbxSide c mid
  let q := d.mbxS c
  if side = 1 then setF (setF 0 F.MBX_CNT_SENT q.sentA) F.MBX_CNT_TAKEN q.takenA
  else if side = 2 then setF (setF 0 F.MBX_CNT_SENT q.sentB) F.MBX_CNT_TAKEN q.takenB else 0

/-- MBX_FLAG0 and MBX_FLAG1 (R432): which channels hold inbound words for side A, side B. -/
def Dev.mbxFlagWord (d : Dev) (side : Nat) : Word :=
  (List.range 32).foldl (fun w c => if ((d.mbxS c).inq side).isEmpty then w else w ||| bitWord c) 0

/-- A write to MBX_STAT (R412, R432): W1C bits of the writer's own side; QFULL set in the same cycle stays set. -/
def Dev.mbxStatWrite (d : Dev) (mid c : Nat) (w : Word) : Dev :=
  let side := d.mbxSide c mid
  let q := d.mbxS c
  let kept := d.cycS.full.contains (c, side)
  if side = 0 ∨ !d.sharedOk mid then d.denyIf (bitOf w 31 || bitOf w 30) Pg.MBX
  else if side = 1 then
    d.setMbx c { q with qfullA := q.qfullA && (!bitOf w 31 || kept), emptyA := q.emptyA && !bitOf w 30 }
  else d.setMbx c { q with qfullB := q.qfullB && (!bitOf w 31 || kept), emptyB := q.emptyB && !bitOf w 30 }

/-- A write to MBX_PEER: RST_SEEN of the writer's own side. -/
def Dev.mbxPeerWrite (d : Dev) (mid c : Nat) (w : Word) : Dev :=
  let side := d.mbxSide c mid
  let q := d.mbxS c
  if side = 0 ∨ !d.sharedOk mid then d.denyIf (bitOf w 29) Pg.MBX
  else if side = 1 then d.setMbx c { q with rstSeenA := q.rstSeenA && !bitOf w 29 }
  else d.setMbx c { q with rstSeenB := q.rstSeenB && !bitOf w 29 }

/-! ### Hardware locks -/

/-- The holder of a lock as the present cycle sees it: a release takes effect at the end of its cycle (R418). -/
def Dev.lockNow (d : Dev) (n : Nat) : Option Nat := (d.cycS.rel.lookup n).orElse fun _ => d.lckS n

/-- A lock freed (R418). -/
def Dev.lockFree (d : Dev) (n h : Nat) : Dev := (d.setLck n none).setCyc { d.cycS with rel := (n, h) :: d.cycS.rel }

/-- A lock as LCK_PEEKn reads it (R416, R433). -/
def Dev.lockPeek (d : Dev) (n : Nat) : Word :=
  match d.lockNow n with
  | none => 0
  | some h => BitVec.ofNat 32 (h * 16 + 2)

/-- LOCK_ACQUIRE (R416, R417). -/
def Dev.lockAcquire (d : Dev) (mid n : Nat) : Dev :=
  if mid = Mid.DEBUG then d.answer mid (d.lockPeek n)
  else
    match d.lockNow n with
    | none => (d.setLck n (some mid)).answer mid (BitVec.ofNat 32 (mid * 16 + 1))
    | some h => d.answer mid (if h = mid then BitVec.ofNat 32 (mid * 16 + 5) else BitVec.ofNat 32 (h * 16 + 2))

/-- LOCK_RELEASE (R418). -/
def Dev.lockRelease (d : Dev) (mid n : Nat) : Dev :=
  if d.lckS n = some mid ∧ d.sharedOk mid then d.lockFree n mid else d.deny Pg.LCK

/-- LOCK_FORCED (R418): S0 within the key window of the LCK page. -/
def Dev.lockForce (d : Dev) (mid n : Nat) : Dev :=
  if mid = Mid.S0 ∧ d.keyOpenFor Pg.LCK mid then
    match d.lckS n with
    | none => d
    | some h =>
      let d := (d.lockFree n h).bump R.LCK_STAT F.LCK_STAT_FORCED_CNT
      let d := (d.put R.LCK_STAT F.LCK_STAT_LAST_HOLDER h).put R.LCK_STAT F.LCK_STAT_LAST_LOCK n
      d.raiseN Pg.LCK Ev.LOCK_FORCED n
  else d.deny Pg.LCK

/-- LCK_HELD0 and LCK_HELD1 (R433). -/
def Dev.lockHeldWord (d : Dev) (base : Nat) : Word :=
  (List.range 32).foldl (fun w b => if (d.lockNow (base + b)).isSome then w ||| bitWord b else w) 0

/-! ### Shared windows -/

def Dev.winOwner (d : Dev) (w : Nat) : Nat := d.get (R.WIN_OWN w) F.WIN_OWN_OWNER

/-- The owner of a window as the present cycle sees it: a change takes effect at the end of its cycle (R420 to R422). -/
def Dev.winHeld (d : Dev) (w : Nat) : Nat := (d.cycS.own.lookup w).getD (d.winOwner w)

/-- A change of a window's owner (R420): GEN and PREV. -/
def Dev.winSet (d : Dev) (w o : Nat) : Dev :=
  let a := R.WIN_OWN w
  let old := d.get a F.WIN_OWN_OWNER
  if o = old then d
  else
    let d := d.setCyc { d.cycS with own := if (d.cycS.own.lookup w).isSome then d.cycS.own else (w, old) :: d.cycS.own }
    let d := (d.put a F.WIN_OWN_OWNER o).put a F.WIN_OWN_PREV old
    d.put a F.WIN_OWN_GEN ((d.get a F.WIN_OWN_GEN + 1) % 65536)

/-- WIN_TAKE (R420): a free window is taken in the taker's own name. -/
def Dev.winTake (d : Dev) (mid w owner : Nat) : Dev :=
  if !d.sharedOk mid then d.deny Pg.WIN
  else if d.winOwner w ≠ 0xF ∨ d.winHeld w ≠ 0xF then d.put (R.WIN_OWN w) F.WIN_OWN_RESULT 2
  else if owner ≠ mid then d.deny Pg.WIN
  else (d.winSet w mid).put (R.WIN_OWN w) F.WIN_OWN_RESULT 1

/-- WIN_RELEASE (R420). -/
def Dev.winRelease (d : Dev) (mid w : Nat) : Dev :=
  if d.winOwner w = mid ∧ d.sharedOk mid then d.winSet w 0xF else d.deny Pg.WIN

/-- A window given by the device or a master to a master (R420). -/
def Dev.winGiveTo (d : Dev) (w dest : Nat) : Dev :=
  ((d.winSet w dest).orReg R.WIN_FLAG (bitWord w)).raiseN Pg.WIN Ev.WIN_GIVEN w

/-- WIN_GIVEN (R420): the owner gives the window to a master. -/
def Dev.winGive (d : Dev) (mid w dest : Nat) : Dev :=
  if d.winOwner w ≠ mid ∨ !d.sharedOk mid then d.deny Pg.WIN
  else if dest = 0xF then d.winRelease mid w
  else if dest ≤ 8 then d.winGiveTo w dest
  else d.deny Pg.WIN

/-- A window freed by force (R420, R422): GEN counts once in a cycle. -/
def Dev.winFree (d : Dev) (w : Nat) : Dev :=
  match d.cycS.own.lookup w with
  | some old => (d.put (R.WIN_OWN w) F.WIN_OWN_OWNER 0xF).put (R.WIN_OWN w) F.WIN_OWN_PREV old
  | none => d.winSet w 0xF

/-- WIN_FORCED (R420): S0 within the key window of the WIN page. -/
def Dev.winForce (d : Dev) (mid w : Nat) : Dev :=
  if mid = Mid.S0 ∧ d.keyOpenFor Pg.WIN mid then
    if d.winHeld w = 0xF then d else (d.winFree w).raiseN Pg.WIN Ev.WIN_FORCED w
  else d.deny Pg.WIN

/-- Base of the window memory (R419). -/
def winBase : Nat := 0x48000000

/-- Window of an address in the window memory, and its offset in the 1 MiB (R419). -/
def winOf (a : Nat) : Nat := a % 2 ^ 20 / 0x10000
def winOfs (a : Nat) : Nat := a % 2 ^ 20

/-- Whether an access is one the window memory accepts (R419): 1, 2, 4 or 8 bytes, naturally aligned; PCIe bursts of at most `top` bytes. -/
def winAccessOk (mid a n top : Nat) : Bool :=
  (n == 1 || n == 2 || n == 4 || n == 8) && a % n == 0 || (mid == Mid.PCIE && decide (0 < n) && decide (n ≤ top))

/-- Whether a master may write data of a window (R408, R421): its owner, where R408 gives that master such writes. -/
def Dev.winWritable (d : Dev) (mid w : Nat) : Bool := d.winHeld w == mid && (d.sharedOk mid || mid == Mid.DMA)

/-- A write of window data (R421): only the owner writes; a refused write is counted; a burst ends with its window. -/
def State.winWrite (s : State) (mid a : Nat) (bs : List Byte) : State :=
  let w := winOf a
  if !winAccessOk mid a bs.length s.dev.pcie.payload then s
  else if s.dev.winWritable mid w then
    let room := 0x10000 - a % 0x10000
    { s with mems := { s.mems with win := s.mems.win.writeBytes (winOfs a) (bs.take room) } }
  else
    { s with dev := (s.dev.bump (R.WIN_STAT w) F.WIN_STAT_DENIED_CNT).putB (R.WIN_STAT w) F.WIN_STAT_DENIED true }

/-- WIN_DATA_WRITE (R419, R421). -/
def winDataWrite (mid a : Nat) (bs : List Byte) (s : State) : Host.Outcome State Fault Refusal :=
  if a < winBase ∨ winBase + 2 ^ 20 ≤ a then .fault .unmappedAddress
  else onState (fun s => s.winWrite mid a bs) s

/-- Whether a master can read a window's data (R421). -/
def Dev.winReadable (d : Dev) (mid w : Nat) : Bool := d.winHeld w == mid || d.flag (R.WIN_CFG w) F.WIN_CFG_RDSHARE

/-- A write of WIN_CFG (R434): by the owner, or by any master while the window is free; RWC. -/
def Dev.winCfgWrite (d : Dev) (mid w : Nat) (v : Word) : Dev :=
  if d.inConfigure && d.sharedOk mid && (d.winOwner w == mid || d.winOwner w == 0xF) then
    d.putB (R.WIN_CFG w) F.WIN_CFG_RDSHARE (bitOf v 0) else d.deny Pg.WIN

/-! ### Meanings -/

def execWinDataWrite (mid addr : Nat) (bs : List Byte) (s : State) := winDataWrite mid addr bs s

end Sys2Proof.Machine
end

