-- ==== Sys2Proof/Machine/Writes.lean ====
section
/-! DEFINITION. Register writes of Channel P's blocks and of the shared mailbox, lock and window pages: which operation a
write at an address is, the WRITE records of the recorder (R210, R452, R464), and the commands that are such writes. Bus.lean
adds the other blocks. -/

namespace Sys2Proof.Machine

/-! ### PG_CTRL and its consequences -/

/-- What a change of a page's EN brings with it (R67, R100, R121, R144, R187, R515). -/
def Dev.afterEn (d : Dev) (b : Block) (i : Nat) : Dev :=
  match b with
  | .trkB => if d.pageEn Pg.TRK then forN nTracks (fun k e => e.setTrk k { e.trkS k with base := e.gtc }) d else d
  | .adaB => d.afterAda
  | .accB => if d.pageEn (Pg.ACC i) then d else (d.accPageOff i).specSweep
  | .cmpB => d.cmpPageSync i
  | .excB => forN 4 (fun k e => e.excSync k) d
  | .lecB => if d.pageEn Pg.LEC then d else d.lecOff
  | _ => d

/-- A write of EN of a PWM group's page (R273, R296): the enabling checks stand before it. -/
def Dev.pwmCtrlWrite (d : Dev) (mid : Nat) (b : Block) (page : Nat) (w : Word) : Dev :=
  let g := page - Pg.PWT 0
  let was := d.pageEn page
  let en := getF w F.PG_CTRL_EN != 0
  let ok := d.pageFieldOk mid b page
  let d := (d.ctrlWrite mid b page (setF w F.PG_CTRL_EN (b2n was))).denyIf (!ok && en != was) page
  if !ok || en == was then d else if en then d.groupEnable g else d.groupOff g

/-- A write of PG_CTRL of a present page. -/
def Dev.pgCtrlWrite (d : Dev) (mid : Nat) (b : Block) (i page : Nat) (w : Word) : Dev :=
  match b with
  | .pwtB | .pwaB => d.pwmCtrlWrite mid b page w
  | _ =>
    let was := d.pageEn page
    let d := d.ctrlWrite mid b page w
    if d.pageEn page = was then d else d.afterEn b i

/-! ### Block by block -/

/-- A write in the MBX page (R409 to R413, R432). -/
def Dev.mbxPageWrite (d : Dev) (mid off a : Nat) (w : Word) : Dev :=
  let c := (off - 0x100) / 0x20
  let r := (off - 0x100) % 0x20
  if off = 0x40 then d.mbxRightsWrite mid w
  else if off < 0x100 ∨ 0x500 ≤ off then d.plainWrite mid a w
  else if r = 0 then d.mbxBindWrite mid c w
  else if r = 4 then d.mbxSendCmd mid c w
  else if r = 8 then d.mbxStatWrite mid c w
  else if r = 0xC then d.mbxPeerWrite mid c w
  else if r = 0x10 ∧ bitOf w 0 then d.mbxFlush mid c
  else if r = 0x14 then d.deny Pg.MBX
  else d

/-- A write in the LCK page (R418, R433). -/
def Dev.lckPageWrite (d : Dev) (mid off a : Nat) (w : Word) : Dev :=
  if off = 0x40 then d.lockForce mid (w.toNat % 64)
  else if 0x100 ≤ off ∧ off < 0x200 then
    if w = 0 then d.lockRelease mid ((off - 0x100) / 4) else d.deny Pg.LCK
  else d.plainWrite mid a w

/-- A write of WIN_OWN (R420): a take of a free window, else the owner's GIVE. -/
def Dev.winOwnWrite (d : Dev) (mid k : Nat) (w : Word) : Dev :=
  let o := d.winOwner k
  if o = 0xF then d.winTake mid k (getF w F.WIN_OWN_OWNER)
  else if o = mid then d.winGive mid k (getF w F.WIN_OWN_GIVE)
  else if getF w F.WIN_OWN_OWNER = mid then d.winTake mid k mid
  else d.deny Pg.WIN

/-- A write in the WIN page (R420, R421, R434). -/
def Dev.winPageWrite (d : Dev) (mid off a : Nat) (w : Word) : Dev :=
  let k := (off - 0x100) / 0x10
  let r := (off - 0x100) % 0x10
  if off = 0x40 then d.winForce mid (w.toNat % 16)
  else if off < 0x100 ∨ 0x200 ≤ off then d.plainWrite mid a w
  else if r = 0 then d.winOwnWrite mid k w
  else if r = 4 then d.winCfgWrite mid k w
  else if r = 8 then d.plainWrite mid a w
  else d

/-- A write in the TL page (R56 to R58, R83, R86). -/
def Dev.tlPageWrite (d : Dev) (mid off a : Nat) (w : Word) : Dev :=
  if off = 0x40 then (d.plainWrite mid a w).afterTlCtrl (d.flag R.TL_CTRL F.TL_CTRL_SYNC_EN)
  else if off = 0x4C then d.tlRateWrite mid w
  else if off = 0x50 then d.vtOfsLoWrite mid w
  else if off = 0x54 then d.vtOfsHiWrite mid w
  else if 0x80 ≤ off ∧ off < 0x100 then d.unitClaim mid a (getF w F.CLAIM_OWNER)
  else d.plainWrite mid a w

/-- A write of a slot word (R71, R79). -/
def Dev.slotPageWrite (d : Dev) (mid i off a : Nat) (w : Word) : Dev :=
  let s := 256 * i + (off - 0x40) / 12
  let r := (off - 0x40) % 12
  if 0x40 + 12 * 256 ≤ off then d
  else if r = 0 then d.slotTrigWrite mid s w
  else if r = 4 then d.slotArgWrite mid s w
  else d.plainWrite mid a w

/-- A write in the TRK page (R70, R87). -/
def Dev.trkPageWrite (d : Dev) (mid off a : Nat) (w : Word) : Dev :=
  let k := (off - 0x40) / 0x40
  let r := (off - 0x40) % 0x40
  if nTracks ≤ k then d
  else if r = 0 then d.trkCfgWrite mid k w
  else if r = 0x14 then d.trkAngWrite mid k w
  else if r = 0x18 then d.trkSpdWrite mid k w
  else if r = 0x20 then d.unitClaim mid a (getF w F.CLAIM_OWNER)
  else d.plainWrite mid a w

/-- A write in the ADA page (R93, R100, R113). -/
def Dev.adaPageWrite (d : Dev) (mid off a : Nat) (w : Word) : Dev :=
  let l := (off - 0x100) / 0x10
  let r := (off - 0x100) % 0x10
  if 0x100 ≤ off ∧ off < 0x400 then
    if r = 0 then d.adaSeqWrite mid l w
    else if r = 8 then d.unitClaim mid a (getF w F.CLAIM_OWNER)
    else (d.plainWrite mid a w).afterAda
  else (d.plainWrite mid a w).afterAda

/-- A write in the ADB page (R106, R107, R111). -/
def Dev.adbPageWrite (d : Dev) (mid off a : Nat) (w : Word) : Dev :=
  if 0x40 ≤ off ∧ off < 0x70 then d.adbClkWrite mid ((off - 0x40) / 4) w
  else if 0x100 ≤ off ∧ off < 0x400 ∧ (off - 0x100) % 0x10 = 0 then d.adbChWrite mid ((off - 0x100) / 0x10) w
  else d.plainWrite mid a w

/-- A write in an ACC page (R122, R136). -/
def Dev.accPageWrite (d : Dev) (mid i off a : Nat) (w : Word) : Dev :=
  if 0x900 ≤ off ∧ off < 0xA00 then d.unitClaim mid a (getF w F.CLAIM_OWNER)
  else if 0x100 ≤ off ∧ off < 0x900 ∧ (off - 0x100) % 0x20 < 0x10 then
    (d.accConfigWrite mid (64 * i + (off - 0x100) / 0x20) ((off - 0x100) % 0x20 / 4) w).specSweep
  else d.plainWrite mid a w

/-- A write in an MMX page (R130, R133, R137). -/
def Dev.mmxPageWrite (d : Dev) (mid i off a : Nat) (w : Word) : Dev :=
  let t := 64 * i + (off - 0x100) / 0x20
  let r := (off - 0x100) % 0x20
  if off < 0x100 ∨ 0x900 ≤ off then d.plainWrite mid a w
  else if r = 0 then d.mmxCfgWrite mid t w
  else if r = 0xC then d.mmxStatWrite mid t w
  else if r = 0x10 ∨ r = 0x14 then d.mantWrite mid a w
  else if r = 0x18 then d.unitClaim mid a (getF w F.CLAIM_OWNER)
  else d.plainWrite mid a w

/-- A write in a CMP page (R139, R145, R153, R160). -/
def Dev.cmpPageWrite (d : Dev) (mid i off a : Nat) (w : Word) : Dev :=
  let c := 36 * i + (off - 0x100) / 0x20
  let r := (off - 0x100) % 0x20
  if off < 0x100 ∨ 0x580 ≤ off then d.plainWrite mid a w
  else if r = 0x18 then d.cmpStatWrite mid c w
  else if r = 0x1C then d.unitClaim mid a (getF w F.CLAIM_OWNER)
  else d.cmpWrite mid c a w

/-- A write in a POS page (R165, R186): a change of the mode in force restarts the decoder. -/
def Dev.posPageWrite (d : Dev) (mid i off a : Nat) (w : Word) : Dev :=
  if off = 0x6C then d.posStatWrite mid i w
  else if off = 0xC0 then d.posCfgWrite mid (16 + i) a w
  else if off = 0x54 then d.idxCtrlWrite mid i a w
  else if off = 0x84 then d.resCfgWrite mid i a w
  else d.posCfgWrite mid i a w

/-- A write in the EMU page (R184, R188). -/
def Dev.emuPageWrite (d : Dev) (mid off a : Nat) (w : Word) : Dev :=
  let n := (off - 0x40) / 0x10
  let r := (off - 0x40) % 0x10
  if 4 ≤ n then d
  else if r = 0 then d.emuCfgWrite mid n a w
  else if r = 4 then (d.plainWrite mid a w).emuLag n
  else if r = 0xC then d.unitClaim mid a (getF w F.CLAIM_OWNER)
  else d.plainWrite mid a w

/-- A write in the EXC page (R178, R187). -/
def Dev.excPageWrite (d : Dev) (mid off a : Nat) (w : Word) : Dev :=
  let n := (off - 0x40) / 0x10
  let r := (off - 0x40) % 0x10
  if 4 ≤ n then d
  else if r = 0xC then d.unitClaim mid a (getF w F.CLAIM_OWNER)
  else (d.plainWrite mid a w).excSync n

/-- A write in the LEC page (R218, R219). -/
def Dev.lecPageWrite (d : Dev) (mid off a : Nat) (w : Word) : Dev :=
  if off = 0x40 then d.engCtrlWrite mid w
  else if 0x100 ≤ off ∧ off < 0x400 then d.unitClaim mid a (getF w F.CLAIM_OWNER)
  else d.plainWrite mid a w

/-- Whether a write of word `n` of a context record is accepted (R210). -/
def Dev.ctxTaken (d : Dev) (mid c n a : Nat) : Bool :=
  let par := match poolWord (d.progWords c) (n - 52) with
    | some (.p, _) => true
    | _ => false
  d.takenAt mid a && !(decide (52 ≤ n) && d.ctxEn c && !par)

/-- A write of a context record's word (R210, R213); an accepted one ends an error of the word (R211). -/
def Dev.ctxPageWrite (d : Dev) (mid i off a : Nat) (w : Word) : Dev :=
  let c := 8 * i + (off - 0x40) / 0x1C0
  let n := (off - 0x40) % 0x1C0 / 4
  let d := if off < 0xE40 ∧ d.ctxTaken mid c n a then d.ctxMend c n else d
  if 0xE40 ≤ off then d
  else if n = 0 then d.ctxCtrlWrite mid c w
  else if n = 10 then d.ctxSpecWrite mid c w
  else if 16 ≤ n ∧ n < 24 then d.ctxInWrite mid c (n - 16) w
  else if 36 ≤ n ∧ n < 40 then d.mantWrite mid a w
  else if 52 ≤ n then d.ctxPoolWrite mid c (n - 52) w
  else d.plainWrite mid a w

/-- A write in a PWM group's page (R281, R292). -/
def Dev.pwmPageWrite (d : Dev) (mid g off a : Nat) (w : Word) : Dev :=
  if off = 0x40 then (d.plainWrite mid a w).forceDither g
  else if 0x80 ≤ off ∧ off < 0x8C then d.stageWrite mid g ((off - 0x80) / 4) w
  else if off = 0x8C then d.commitWrite mid g w
  else if 0xA0 ≤ off ∧ off < 0xAC then d.legForceWrite mid g ((off - 0xA0) / 4) w
  else d.plainWrite mid a w

/-- A write in the PWG page (R279). -/
def Dev.pwgPageWrite (d : Dev) (mid off a : Nat) (w : Word) : Dev :=
  if off = 0x60 then d.pairWrite mid w
  else if 0x80 ≤ off ∧ off < 0x98 then d.pofsWrite mid ((off - 0x80) / 4) w
  else d.plainWrite mid a w

/-- A write in the GDT page (R309 to R312). -/
def Dev.gdtPageWrite (d : Dev) (mid off a : Nat) (w : Word) : Dev :=
  let g := (off - 0x100) / 0x20
  let r := (off - 0x100) % 0x20
  if off < 0x100 ∨ 0x280 ≤ off then d.plainWrite mid a w
  else if r = 0 then d.gcfgWrite mid g w
  else if r = 4 then d.armWrite mid g w
  else if r = 0xC then d.lcmdWrite mid g w
  else d.plainWrite mid a w

/-- A write in the GDA page (R309 to R315). -/
def Dev.gdaPageWrite (d : Dev) (mid off a : Nat) (w : Word) : Dev :=
  let n := (off - 0x100) / 0x20
  let r := (off - 0x100) % 0x20
  if off < 0x100 ∨ 0x200 ≤ off then d.plainWrite mid a w
  else if r = 0 then d.gdaGcfgWrite mid n w
  else if r = 4 then d.armWrite mid (12 + n) w
  else if r = 0xC then d.lcmdWrite mid (12 + n) w
  else if r = 0x10 then d.commStateWrite mid n w
  else d.plainWrite mid a w

/-- A write of SYS_PINOWN (R495): SRC by the pin's owner, then the claim. -/
def Dev.pinWrite (d : Dev) (mid a : Nat) (w : Word) : Dev :=
  let d := if getF w F.SYS_PINOWN_SRC = d.get a F.SYS_PINOWN_SRC then d
    else d.plainWrite mid a (setF (setF w F.CLAIM_OWNER (d.get a F.CLAIM_OWNER)) F.CLAIM_RESULT 0)
  d.unitClaim mid a (getF w F.CLAIM_OWNER)

/-- A write in the SYS page (R11, R495). -/
def Dev.sysPageWrite (d : Dev) (mid off a : Nat) (w : Word) : Dev :=
  if 0x100 ≤ off ∧ off < 0x110 then d.pinWrite mid a w
  else if off = 0x80 ∧ bitOf w 31 ∧ d.takenAt mid a then d.absentClear
  else d.plainWrite mid a w

/-- A write of a block-specific register of a present page. -/
def Dev.routeWrite (d : Dev) (mid : Nat) (b : Block) (i off a : Nat) (w : Word) : Dev :=
  match b with
  | .sysB => d.sysPageWrite mid off a w
  | .mbxB => d.mbxPageWrite mid off a w
  | .lckB => d.lckPageWrite mid off a w
  | .winB => d.winPageWrite mid off a w
  | .tlB => d.tlPageWrite mid off a w
  | .tlsB => d.slotPageWrite mid i off a w
  | .trkB => d.trkPageWrite mid off a w
  | .adaB => d.adaPageWrite mid off a w
  | .adbB => d.adbPageWrite mid off a w
  | .accB => d.accPageWrite mid i off a w
  | .mmxB => d.mmxPageWrite mid i off a w
  | .cmpB => d.cmpPageWrite mid i off a w
  | .posB => d.posPageWrite mid i off a w
  | .emuB => d.emuPageWrite mid off a w
  | .excB => d.excPageWrite mid off a w
  | .lecB => d.lecPageWrite mid off a w
  | .ctxB => d.ctxPageWrite mid i off a w
  | .pwtB => d.pwmPageWrite mid i off a w
  | .pwaB => d.pwmPageWrite mid (12 + i) off a w
  | .pwgB => d.pwgPageWrite mid off a w
  | .gdtB => d.gdtPageWrite mid off a w
  | .gdaB => d.gdaPageWrite mid off a w
  | _ => d.plainWrite mid a w

/-! ### WRITE records -/

/-- Whether a register's accepted writes are inputs of the loop engines (R210, R464). -/
def engineInput (b : Block) (off : Nat) : Bool :=
  match b with
  | .ctxB => decide (0x40 ≤ off)
  | .trkB => decide (0x40 ≤ off) && ((off - 0x40) % 0x40 == 0x14 || (off - 0x40) % 0x40 == 0x18)
  | .tlsB => decide (0x40 ≤ off)
  | .pwtB | .pwaB | .pwgB => true
  | _ => false

/-- Whether a write of a header register is accepted (R25 to R29). -/
def Dev.headerTaken (d : Dev) (mid : Nat) (b : Block) (page off : Nat) : Bool :=
  if off = 0x08 ∨ off = 0x0C ∨ off = 0x14 ∨ off = 0x18 then d.pageFieldOk mid b page
  else if off = 0x1C then d.pageFieldOk mid b page && d.inConfigure
  else if off = 0x20 then d.mayKey mid b
  else false

/-- Whether a write of an engine input is accepted (R70, R210, R279, R281). -/
def Dev.inputTaken (d : Dev) (mid : Nat) (b : Block) (i page off a : Nat) : Bool :=
  if off < 0x40 then d.headerTaken mid b page off
  else
    match b with
    | .trkB => d.trkWriteOk mid ((off - 0x40) / 0x40)
    | .ctxB => d.ctxTaken mid (8 * i + (off - 0x40) / 0x1C0) ((off - 0x40) % 0x1C0 / 4) a
    | .pwtB | .pwaB =>
      let g := page - Pg.PWT 0
      d.takenAt mid a && !(decide (0x80 ≤ off) && decide (off ≤ 0x8C) && d.pwmDsrc g)
    | .pwgB =>
      if off = 0x60 then d.inConfigure && (List.range (nPairs d.member)).any fun j => d.pairOk mid j
      else if 0x80 ≤ off ∧ off < 0x98 then d.inConfigure && d.pairOk mid ((off - 0x80) / 4)
      else d.takenAt mid a
    | _ => d.takenAt mid a

/-- Blocks that run on RT while a replay runs (R464). -/
def onRtBlock : Block → Bool
  | .trkB | .tlsB | .ctxB | .lecB | .leB | .pwtB | .pwaB | .pwgB => true
  | _ => false

/-- A write of a 32-bit register at an aligned address. -/
def Dev.pWriteIn (d : Dev) (mid a : Nat) (w : Word) : Dev :=
  let page := pageOf a
  let off := offOf a
  match pageInfo page with
  | none => d
  | some (b, i) =>
    if !blockPresent d.member b i || absentReg d.member b i off then d.absentWrite mid page
    else
      let note := engineInput b off && d.inputTaken mid b i page off a
      let d := if off = 0x08 then d.pgCtrlWrite mid b i page w
        else if off < 0x40 then d.headerWrite mid b page off w
        else d.routeWrite mid b i off a w
      if note then d.emit { ty := 0x15, res := mid, tick := d.gtc, data := [BitVec.ofNat 32 a, w] } else d

/-- A write of a 32-bit register at an aligned address (R22, R25): absent units, header, block. An accepted write of an
engine input is recorded at its completion (R452). -/
def Dev.pWrite (d : Dev) (mid a : Nat) (w : Word) : Dev :=
  match pageInfo (pageOf a) with
  | some (b, _) => if onRtBlock b then d.onRt fun e => e.pWriteIn mid a w else d.pWriteIn mid a w
  | none => d

/-! ### Meanings: commands that are writes of one register -/

/-- A write of the register of unit `n`, where the device's register map has that unit. -/
def Dev.unitWrite (d : Dev) (top n mid a : Nat) (w : Word) : Dev := if n < top then d.pWrite mid a w else d

def execTlRateWrite (mid : Nat) (v : Word) (s : State) := onDev (fun d => d.pWrite mid R.TL_RATE v) s
def execVtOfsHiWrite (mid : Nat) (v : Word) (s : State) := onDev (fun d => d.pWrite mid R.TL_VT_OFS_HI v) s
def execTrkAngWrite (mid trk : Nat) (v : Word) (s : State) := onDev (fun d => d.unitWrite 24 trk mid (R.TRK_ANG trk) v) s
def execTrkSpdWrite (mid trk : Nat) (v : Word) (s : State) := onDev (fun d => d.unitWrite 24 trk mid (R.TRK_SPD trk) v) s
def execTrkCfgWrite (mid trk : Nat) (v : Word) (s : State) := onDev (fun d => d.unitWrite 24 trk mid (R.TRK_CFG trk) v) s
def execSlotTrigWrite (mid slot : Nat) (v : Word) (s : State) :=
  onDev (fun d => d.unitWrite 1024 slot mid (R.SLOT_TRIG slot) v) s
def execSlotArgWrite (mid slot : Nat) (v : Word) (s : State) :=
  onDev (fun d => d.unitWrite 1024 slot mid (R.SLOT_ARG slot) v) s
def execAdaSeqWrite (mid slice : Nat) (v : Word) (s : State) :=
  onDev (fun d => d.unitWrite 48 slice mid (R.ADA_SEQ slice) v) s
def execAccConfigWrite (mid acc word : Nat) (v : Word) (s : State) :=
  onDev (fun d => if word < 4 then d.unitWrite 384 acc mid (R.ACC_CFG acc + 4 * word) v else d) s
def execMmxClear (mid mmx : Nat) (s : State) := onDev (fun d => d.unitWrite 128 mmx mid (R.MMX_STAT mmx) 0x80000000) s
def execCmpClear (mid cmp : Nat) (s : State) := onDev (fun d => d.unitWrite 72 cmp mid (R.CMP_STAT cmp) 0x80000000) s
def execUncClr (mid pos : Nat) (s : State) := onDev (fun d => d.unitWrite 12 pos mid (R.POS_STAT pos) 1) s
/-- The word of the command with EN set. -/
def execCtxEnable (mid ctx : Nat) (v : Word) (s : State) :=
  onDev (fun d => d.unitWrite 192 ctx mid (R.CTX_CTRL ctx) (setF v F.CTX_CTRL_EN 1)) s
/-- The word of the command with EN clear. -/
def execCtxDisable (mid ctx : Nat) (v : Word) (s : State) :=
  onDev (fun d => d.unitWrite 192 ctx mid (R.CTX_CTRL ctx) (setF v F.CTX_CTRL_EN 0)) s
/-- A 1 written to SUSP, the other fields as they stand. -/
def execSpecSuspClear (mid ctx : Nat) (s : State) :=
  onDev (fun d => d.unitWrite 192 ctx mid (R.CTX_SPEC ctx)
    (setF (setF 0x20000000 F.CTX_SPEC_CMP1 (d.get (R.CTX_SPEC ctx) F.CTX_SPEC_CMP1))
      F.CTX_SPEC_FB_MAX (d.get (R.CTX_SPEC ctx) F.CTX_SPEC_FB_MAX))) s
def execPwmGroupEnable (mid grp : Nat) (s : State) :=
  onDev (fun d => d.unitWrite 20 grp mid (R.PG_CTRL (Pg.PWT grp)) (setF (d.reg (R.PG_CTRL (Pg.PWT grp))) F.PG_CTRL_EN 1)) s
def execPwmGroupDisable (mid grp : Nat) (s : State) :=
  onDev (fun d => d.unitWrite 20 grp mid (R.PG_CTRL (Pg.PWT grp)) (setF (d.reg (R.PG_CTRL (Pg.PWT grp))) F.PG_CTRL_EN 0)) s
def execPwtCommit (mid grp : Nat) (s : State) := onDev (fun d => d.unitWrite 20 grp mid (R.PWT_COMMIT grp) 1) s
def execLegForceWrite (mid grp leg : Nat) (v : Word) (s : State) :=
  onDev (fun d => if leg < 3 then d.unitWrite 20 grp mid (R.PWT_LEG grp leg) v else d) s
def execLegClear (mid grp mask : Nat) (s : State) :=
  onDev (fun d => d.unitWrite 20 grp mid (gdLcmd grp) (setF 0 F.GDT_LCMD_CLR mask)) s
def execLegSoftRelease (mid grp mask : Nat) (s : State) :=
  onDev (fun d => d.unitWrite 20 grp mid (gdLcmd grp) (setF 0 F.GDT_LCMD_REL mask)) s
def execCommStateWrite (mid aux : Nat) (v : Word) (s : State) :=
  onDev (fun d => d.unitWrite 8 aux mid (R.GDA_COMM aux) v) s
def execMbxRightsWrite (mid : Nat) (v : Word) (s : State) := onDev (fun d => d.pWrite mid R.MBX_RIGHTS v) s
def execMbxBind (mid ch : Nat) (v : Word) (s : State) := onDev (fun d => d.unitWrite 32 ch mid (R.MBX_BIND ch) v) s
def execMbxUnbind (mid ch : Nat) (s : State) := onDev (fun d => d.unitWrite 32 ch mid (R.MBX_BIND ch) 0xFF) s
def execMbxSend (mid ch : Nat) (v : Word) (s : State) := onDev (fun d => d.unitWrite 32 ch mid (R.MBX_DATA ch) v) s
def execMbxReceive (mid ch : Nat) (s : State) := onDev (fun d => if ch < 32 then d.mbxReceive mid ch else d) s
def execMbxFlush (mid ch : Nat) (s : State) := onDev (fun d => d.unitWrite 32 ch mid (R.MBX_CTRL ch) 1) s
def execLockAcquire (mid lock : Nat) (s : State) := onDev (fun d => if lock < 64 then d.lockAcquire mid lock else d) s
def execLockRelease (mid lock : Nat) (s : State) := onDev (fun d => d.unitWrite 64 lock mid (R.LCK_LOCK lock) 0) s
def execLockForced (mid lock : Nat) (s : State) :=
  onDev (fun d => d.unitWrite 64 lock mid R.LCK_FORCE (BitVec.ofNat 32 lock)) s
def execWinTake (mid win owner : Nat) (s : State) := onDev (fun d => if win < 16 then d.winTake mid win owner else d) s
def execWinGiven (mid win dest : Nat) (s : State) := onDev (fun d => if win < 16 then d.winGive mid win dest else d) s
def execWinRelease (mid win : Nat) (s : State) := onDev (fun d => if win < 16 then d.winRelease mid win else d) s
def execWinForced (mid win : Nat) (s : State) :=
  onDev (fun d => d.unitWrite 16 win mid R.WIN_FORCE (BitVec.ofNat 32 win)) s

end Sys2Proof.Machine
end

