-- ==== Sys2Proof/Machine/MachineCtl.lean ====
section
/-! DEFINITION. Running a machine (chapter 12, R324 to R353): descriptors, machine states, arming, catching and starting,
reactions, discharge. What Garmal writes into registers it writes as S0 through the register operations. -/

namespace Sys2Proof.Machine

/-! ### The descriptor (R329, R330) -/

def F.MD_SIX : RField := ⟨26, 26⟩
def F.MD_SENSORLESS : RField := ⟨25, 25⟩
def F.MD_ALIGN : RField := ⟨24, 24⟩
def F.MD_TRK : RField := ⟨23, 19⟩
def F.MD_DIS_MODE : RField := ⟨17, 16⟩
def F.MD_PP : RField := ⟨15, 8⟩
def F.MD_DEG_TQ : RField := ⟨7, 0⟩
def F.MD_CTX_MAIN : RField := ⟨31, 24⟩
def F.MD_CTX_SPD : RField := ⟨23, 16⟩
def F.MD_CTX_CATCH : RField := ⟨15, 8⟩
def F.MD_ACC_V : RField := ⟨26, 18⟩
def F.MD_ACC_I : RField := ⟨17, 9⟩
def F.MD_ACC_VDC : RField := ⟨8, 0⟩
def F.MD_MMX_I : RField := ⟨6, 0⟩
def F.MD_HI : RField := ⟨31, 16⟩
def F.MD_LO : RField := ⟨15, 0⟩
def F.MD_RETRY_PCT : RField := ⟨31, 24⟩
def F.MD_RETRY : RField := ⟨23, 20⟩
def F.MD_BYTE1 : RField := ⟨15, 8⟩
def F.MD_BYTE0 : RField := ⟨7, 0⟩
def F.MD_DIS_DL : RField := ⟨31, 20⟩
def F.MD_ARM_TOUT : RField := ⟨31, 24⟩
def F.MD_ALIGN_T : RField := ⟨23, 12⟩
def F.MD_RETRY_WAIT : RField := ⟨11, 0⟩
def F.MD_STATE : RField := ⟨31, 28⟩
def F.MD_PREV : RField := ⟨27, 24⟩
def F.MD_CAUSE : RField := ⟨23, 16⟩
def F.MD_LEG_CAUSE : RField := ⟨15, 12⟩
def F.MD_DEGRADED : RField := ⟨11, 11⟩
def F.MD_DIS_LATE : RField := ⟨10, 10⟩
def F.MD_SET : RField := ⟨9, 8⟩
def F.MD_ATTEMPT : RField := ⟨7, 4⟩

/-- Reset value of a descriptor's word (R329). -/
def mdReset (m k : Nat) : Word :=
  BitVec.ofNat 32 (match k with
    | 0 => m * 2 ^ 19 + 1 * 2 ^ 8 + 50
    | 1 => 0xFFFFFF00
    | 2 => 0x1FF * 2 ^ 18 + 0x1FF * 2 ^ 9 + 0x1FF
    | 3 => 0x7F
    | 8 => 25 * 2 ^ 24 + 3 * 2 ^ 20 + 2000
    | 10 => 2 * 2 ^ 8
    | 11 => 500 * 2 ^ 16 + 32 * 2 ^ 8 + 8
    | 12 => 20 * 2 ^ 16
    | 13 => 2000 * 2 ^ 20
    | 14 => 600 * 2 ^ 16
    | 15 => 10 * 2 ^ 24 + 200 * 2 ^ 12 + 200
    | _ => 0)

/-- Bits of a descriptor's word that are not reserved (R329). -/
def mdMask (k : Nat) : Word :=
  BitVec.ofNat 32 (match k with
    | 0 => 0x07FBFFFF
    | 1 => 0xFFFFFF00
    | 2 => 0x07FFFFFF
    | 3 => 0xFFFF007F
    | 8 => 0xFFF0FFFF
    | 10 => 0xFFFFFF00
    | 13 => 0xFFF0FFFF
    | _ => 0xFFFFFFFF)

def Dev.mdWord (d : Dev) (m k : Nat) : Word := spGet (mdReset m k) (d.machS m).md k
def Dev.md (d : Dev) (m k : Nat) (f : RField) : Nat := getF (d.mdWord m k) f
def Dev.setMd (d : Dev) (m k : Nat) (w : Word) : Dev :=
  let s := d.machS m
  d.setMach m { s with md := spPut (mdReset m k) s.md k (w &&& mdMask k) }

def Dev.mSix (d : Dev) (m : Nat) : Bool := d.md m 0 F.MD_SIX == 1
def Dev.mSensorless (d : Dev) (m : Nat) : Bool := d.md m 0 F.MD_SENSORLESS == 1
def Dev.mTrk (d : Dev) (m : Nat) : Nat := d.md m 0 F.MD_TRK
def Dev.mPp (d : Dev) (m : Nat) : Nat := d.md m 0 F.MD_PP
def Dev.mMain (d : Dev) (m : Nat) : Nat := d.md m 1 F.MD_CTX_MAIN
def Dev.mSpd (d : Dev) (m : Nat) : Nat := d.md m 1 F.MD_CTX_SPD
def Dev.mCatch (d : Dev) (m : Nat) : Nat := d.md m 1 F.MD_CTX_CATCH

/-- A speed of the descriptor in rad/s: units of 0.25 rad/s (R329). -/
def Dev.mdSpeed (d : Dev) (m k : Nat) (f : RField) : Frac := ⟨(d.md m k f : Nat), 4⟩

/-- A descriptor's quantity in units of a tenth. -/
def Dev.mdTenth (d : Dev) (m k : Nat) (f : RField) : Frac := ⟨(d.md m k f : Nat), 10⟩

/-- Milliseconds as ticks. -/
def msTicks (ms : Nat) : Nat := 400000 * ms

/-! ### Machine states (R331) -/

def MS.OFF : Nat := 0
def MS.STO : Nat := 1
def MS.ASC : Nat := 2
def MS.DISCHARGE : Nat := 3
def MS.CATCH : Nat := 4
def MS.ALIGN : Nat := 5
def MS.START : Nat := 6
def MS.RUN : Nat := 7
def MS.STOP : Nat := 8
def MS.FAULT : Nat := 15

def Dev.mState (d : Dev) (m : Nat) : Nat := getF (d.machS m).stat F.MD_STATE
def Dev.mStat (d : Dev) (m : Nat) (f : RField) : Nat := getF (d.machS m).stat f
def Dev.setMStat (d : Dev) (m : Nat) (f : RField) (v : Nat) : Dev :=
  d.setMach m { d.machS m with stat := setF (d.machS m).stat f v }

/-- Whether a machine's number names a machine with a descriptor (R324). -/
def Dev.mDefined (d : Dev) (m : Nat) : Bool := decide (m < 20) && (d.machS m).defd

/-- The groups of a machine: its own, and the secondary of a six-phase one. -/
def Dev.mGroups (d : Dev) (m : Nat) : List Nat :=
  if d.mSix m then (match d.secOf m with
    | some s => [m, s]
    | none => [m]) else [m]

/-- The machine of a group, where one is defined. -/
def Dev.machOf (d : Dev) (g : Nat) : Option Nat :=
  if d.mDefined g then some g
  else match d.primOf g with
    | some p => if d.mDefined p && d.mSix p then some p else none
    | none => none

/-- A machine event, its flag, its notification (R353, R385, R430). -/
def Dev.machEvent (d : Dev) (m src : Nat) : Dev :=
  (d.orReg R.SAFE_FLAG (bitWord m)).raiseN Pg.SAFE src m

/-! ### What Garmal writes (as S0) -/

/-- The same operation for every leg of a machine. -/
def Dev.mLegs (d : Dev) (m : Nat) (f : Nat → Nat → Dev → Dev) : Dev :=
  (d.mGroups m).foldl (fun e g => forN 3 (fun x e => f g x e) e) d

/-- FORCE of every leg written. -/
def Dev.mForce (d : Dev) (m code : Nat) (imm : Bool) : Dev :=
  d.mLegs m fun g x e =>
    e.pWrite Mid.S0 (R.PWT_LEG g x) (setF (setF (e.reg (R.PWT_LEG g x)) F.PWT_LEG_FORCE code) F.PWT_LEG_IMM (b2n imm))

/-- Every leg released by LCMD.REL. -/
def Dev.mRelease (d : Dev) (m : Nat) : Dev :=
  (d.mGroups m).foldl (fun e g => e.pWrite Mid.S0 (gdLcmd g) (setF 0 F.GDT_LCMD_REL 7)) d

/-- Legs of a machine cleared by LCMD.CLR: those whose release has a cause that `p` admits. -/
def Dev.mClear (d : Dev) (m : Nat) (p : Nat → Bool) : Dev :=
  (d.mGroups m).foldl (fun e g =>
    let mask := (List.range 3).foldl (fun n x =>
      if e.legReleased g x && p (e.get (gdLstat g) (F.GDT_LSTAT_CAUSE x)) then n + 2 ^ x else n) 0
    if mask = 0 then e else e.pWrite Mid.S0 (gdLcmd g) (setF 0 F.GDT_LCMD_CLR mask)) d

/-- GENP of a machine's groups dropped. -/
def Dev.mDrop (d : Dev) (m : Nat) : Dev := (d.mGroups m).foldl (fun e g => e.setGenP g false) d

/-- Whether Channel P may command an enable high (R354, R464). -/
def Dev.genpOk (d : Dev) : Bool :=
  !d.flag R.SAFE_STAT F.SAFE_STAT_STO_P_IN && !d.safe.deadP && d.devState != DS.FATAL && !d.flag R.RPL_STAT F.RPL_STAT_RUN

def Dev.mGrant (d : Dev) (m : Nat) : Dev := (d.mGroups m).foldl (fun e g => e.setGenP g true) d

/-- A context enabled or disabled; 0xFF names none. -/
def Dev.mCtx (d : Dev) (c : Nat) (on : Bool) : Dev :=
  if d.ctxPresent c && d.flag (R.CTX_CTRL c) F.CTX_CTRL_EN != on then
    d.pWrite Mid.S0 (R.CTX_CTRL c) (setF (d.reg (R.CTX_CTRL c)) F.CTX_CTRL_EN (b2n on))
  else d

/-- Exponent of a CMD word. -/
def Dev.cmdExp (d : Dev) (c k : Nat) : Int := sext 6 ((d.reg (R.CTX_CMDEXP c)).toNat / 2 ^ (8 * k))

/-- A value written to a CMD word at its exponent. -/
def Dev.mCmd (d : Dev) (c k : Nat) (x : Frac) : Dev :=
  if d.ctxPresent c then d.pWrite Mid.S0 (R.CTX_CMD c k) (wordMant (mantOf x (d.cmdExp c k)).1) else d

/-- The context in which a machine's demand of STOP stands (R344): the speed context, else the main one. -/
def Dev.mDemCtx (d : Dev) (m : Nat) : Nat := if d.ctxPresent (d.mSpd m) then d.mSpd m else d.mMain m

/-! ### What Garmal reads -/

/-- A committed output of the main context (R327, R334). -/
def Dev.mOut (d : Dev) (m j : Nat) : Frac := (d.outOpd (d.mMain m) j).x

/-- The mode OUT8 reports. -/
def Dev.mOut8 (d : Dev) (m : Nat) : Int := (d.mOut m 8).round


/-- Electrical speed of a machine's track in rad/s. -/
def Dev.mTrkSpeed (d : Dev) (m : Nat) : Frac := radPerS (d.trkS (d.mTrk m)).spd

/-- ω of the leg policy and of the reactions (R346): the track's, for a sensorless machine the last trusted one. -/
def Dev.mSpeed (d : Dev) (m : Nat) : Frac := if d.mSensorless m then (d.machS m).trust else d.mTrkSpeed m

/-- The carrier period of a group in ticks (R274): the one last fixed; PER before the first. -/
def Dev.carTicks (d : Dev) (g : Nat) : Nat :=
  let p := (d.grpS g).p
  if d.pwmEn g && p != 0 then p else d.pwmPer g

/-- Update period of a group in ticks (R271). -/
def Dev.updTicks (d : Dev) (g : Nat) : Nat := if d.pwmDbl g then d.carTicks g / 2 else d.carTicks g

/-- Current of start attempt `k` (R342). -/
def Dev.startCurrent (d : Dev) (m k : Nat) : Frac :=
  let i0 := d.mdTenth m 7 F.MD_LO
  let p := d.md m 8 F.MD_RETRY_PCT
  (i0.mul ⟨((100 + p) ^ k : Nat), 100 ^ k⟩).min (d.mdTenth m 9 F.MD_LO)

/-- An accumulator's committed RES0. -/
def Dev.accValue (d : Dev) (a : Nat) : Frac := bfVal (mantW (d.reg (R.ACC_RES0 a))) (d.accExp0 a)

/-- The peak phase current of the trackers (R347). -/
def Dev.mPeak (d : Dev) (m : Nat) : Option Frac :=
  let t := d.md m 3 F.MD_MMX_I
  if t = 0x7F then none
  else some ((List.range 3).foldl (fun p i =>
    let e := match d.mmxLink (t + i) with
      | some a => d.accExp0 a
      | none => 0
    (p.max (bfVal (mantW (d.reg (R.MMX_MIN (t + i)))) e).abs).max (bfVal (mantW (d.reg (R.MMX_MAX (t + i)))) e).abs) fzero)

/-! ### Transitions (R332) -/

/-- First release cause of a machine (R309, R330): the earliest release, of several the lowest code; GROUP stands after. -/
def Dev.firstCause (d : Dev) (m : Nat) : Nat :=
  let l := (d.mGroups m).flatMap fun g => ((List.range 3).filter fun x => d.legReleased g x).map fun x =>
    ((d.legS g x).relAt, d.get (gdLstat g) (F.GDT_LSTAT_CAUSE x))
  (l.foldl (fun (b : Nat × Nat) (x : Nat × Nat) =>
    if b.2 = 0 ∨ x.1 < b.1 ∨ (x.1 = b.1 ∧ x.2 < b.2) then x else b) (0, 0)).2

/-- Whether any leg of a machine is released. -/
def Dev.mReleased (d : Dev) (m : Nat) : Bool :=
  (d.mGroups m).any fun g => (List.range 3).any fun x => d.legReleased g x

/-- Whether a machine is in one of the four states in which it drives its rotor. -/
def drives (st : Nat) : Bool := st == MS.ALIGN || st == MS.START || st == MS.RUN || st == MS.STOP

/-- The continuation of a machine in SAFE_HOLD ends (R374): Channel M's enables of its groups fall. -/
def Dev.keepEnds (d : Dev) (m : Nat) : Dev :=
  if d.safe.keep / 2 ^ m % 2 = 1 then
    let d := { d with safe := { d.safe with keep := d.safe.keep - 2 ^ m } }
    let d := d.setReg R.SAFE_GRANT (setBit (d.reg R.SAFE_GRANT) m false)
    (m :: (d.secOf m).toList).foldl (fun e g => e.setGenM g false) d
  else d

/-- A transition recorded: MD_STAT, the STATE record, MACH_STATE. Timers of the former state stop; the
locked-rotor check runs on through START and RUN (R349), the count of implausible periods through the states that drive (R348). A
machine that leaves the ASC or the discharge which SAFE_HOLD kept ends its continuation (R374). -/
def Dev.machGo (d : Dev) (m new cause : Nat) : Dev :=
  let s := d.machS m
  let old := getF s.stat F.MD_STATE
  let w := setF (setF (setF s.stat F.MD_PREV old) F.MD_STATE new) F.MD_CAUSE cause
  let w := if cause = 1 then setF w F.MD_LEG_CAUSE (d.firstCause m) else w
  let low := new = MS.STO ∨ new = MS.FAULT ∨ new = MS.OFF ∨ new = MS.CATCH
  let w := if low then setF (setF w F.MD_DEGRADED 0) F.MD_SET 0 else w
  let w := if new = MS.DISCHARGE then setF w F.MD_DIS_LATE 0 else w
  let turn := (old == MS.START || old == MS.RUN) && (new == MS.START || new == MS.RUN)
  let d := d.setMach m { s with
    stat := w
    since := d.gtc
    target := none
    armed := false
    ready := none
    winAt := if new = MS.START then some d.gtc else none
    rev := false
    retryAt := none
    emfAt := none
    again := false
    slowAt := none
    badN := if drives old && drives new then s.badN else 0
    spdPrev := if drives old && drives new then s.spdPrev else none
    lockFrom := if turn then s.lockFrom else none
    secAt := if turn then s.secAt else []
    sector := if turn then s.sector else none
    ramp := if new = MS.START then some (d.gtc, fzero) else none
    wind := false }
  let d := d.emitProt { ty := 0x23, res := m, tick := d.gtc, data := [BitVec.ofNat 32 (cause * 2 ^ 8 + old * 16 + new)] }
  let d := d.keepEnds m
  (d.orReg R.SAFE_FLAG (bitWord m)).raiseN Pg.SAFE Ev.MACH_STATE (m + new * 2 ^ 8)

/-- DIS_P of SAFE_OUT follows the machines in bleeder DISCHARGE (R351). -/
def Dev.disP (d : Dev) : Dev :=
  d.putB R.SAFE_OUT F.SAFE_OUT_DIS_P_REQ
    ((List.range 20).any fun m => d.mState m == MS.DISCHARGE && (!(d.machS m).wind || d.md m 0 F.MD_DIS_MODE == 2))

/-- The main and the catch context of a machine disabled. -/
def Dev.mCtxOff (d : Dev) (m : Nat) : Dev := (d.mCtx (d.mMain m) false).mCtx (d.mCatch m) false

/-- Entry into STO (R331). -/
def Dev.toSto (d : Dev) (m cause : Nat) : Dev :=
  (((((d.mDrop m).mForce m 1 true).mCtxOff m).machGo m MS.STO cause)).disP

/-- Entry into FAULT (R331): released legs stay as released. -/
def Dev.toFault (d : Dev) (m cause : Nat) : Dev :=
  (((((d.mDrop m).mForce m 1 true).mCtxOff m).machGo m MS.FAULT cause)).disP

/-- Entry into STO, or into FAULT where a leg is released (R332). -/
def Dev.toStoFault (d : Dev) (m cause : Nat) : Dev := if d.mReleased m then d.toFault m cause else d.toSto m cause

/-- Entry into CATCH (R331, R340): the catch context measures once the soft releases are cleared. -/
def Dev.toCatch (d : Dev) (m cause : Nat) : Dev :=
  let d := (((d.mDrop m).mForce m 1 true).mCtxOff m).machGo m MS.CATCH cause
  let d := d.disP
  if d.mSensorless m && !(d.machS m).clr then d.mCtx (d.mCatch m) true else d

/-- Entry into ASC (R331): GENP as it stands, the main context disabled. -/
def Dev.toAsc (d : Dev) (m cause : Nat) : Dev := (d.mCtxOff m).machGo m MS.ASC cause

/-- Entry into OFF (R333): the groups do not run. -/
def Dev.toOff (d : Dev) (m : Nat) : Dev :=
  let d := (d.mDrop m).mCtxOff m
  let d := (d.mGroups m).foldl (fun e g =>
    if e.pwmEn g then e.pWrite Mid.S0 (R.PG_CTRL (Pg.PWT g)) (setF (e.reg (R.PG_CTRL (Pg.PWT g))) F.PG_CTRL_EN 0) else e) d
  (d.machGo m MS.OFF 8).disP

/-- Entry into STO from OFF (R332, R337): Garmal enables the groups, the primary first. -/
def Dev.offToSto (d : Dev) (m : Nat) : Dev :=
  let d := (d.mGroups m).foldl (fun e g =>
    if e.pwmEn g then e else e.pWrite Mid.S0 (R.PG_CTRL (Pg.PWT g)) (setF (e.reg (R.PG_CTRL (Pg.PWT g))) F.PG_CTRL_EN 1)) d
  d.toSto m 8

/-! ### Arming (R336) -/

/-- The checks of step 1. -/
def Dev.armOk (d : Dev) (m target : Nat) : Bool :=
  (d.devState == DS.RUN || (d.devState == DS.SAFE_HOLD && (target == MS.ASC || target == MS.DISCHARGE)))
    && !d.mReleased m && (d.mGroups m).all (fun g => d.flag (R.PWT_STAT g) F.PWT_STAT_VALID) && d.genpOk

/-- Step 2: every leg forced off, GENP commanded high. -/
def Dev.armBegin (d : Dev) (m target : Nat) : Dev :=
  let d := (d.mForce m 1 true).mGrant m
  d.setMach m { d.machS m with target := some target, armAt := d.gtc, armed := false, ready := none }

/-- Whether the pins show both enables, and ready (step 3). -/
def Dev.armHigh (d : Dev) (m : Nat) : Bool :=
  (d.mGroups m).all fun g =>
    d.pinP g && d.pinM g && (decide (12 ≤ g) || d.drdy g)

/-- Step 4: FORCE = NONE. -/
def Dev.armDone (d : Dev) (m : Nat) : Dev :=
  let d := d.mForce m 0 false
  d.setMach m { d.machS m with armed := true }

/-- ARM_ENABLES_HIGH. -/
def Dev.armEnablesHigh (d : Dev) (m : Nat) : Dev :=
  if d.mDefined m && (d.machS m).target.isSome && !(d.machS m).armed && d.armHigh m then d.armDone m else d

/-- Arming fails (R336): back to STO; from STO no transition takes place. -/
def Dev.armFail (d : Dev) (m : Nat) : Dev :=
  let d := if d.mState m = MS.STO then
      let d := (d.mDrop m).mCtxOff m
      (d.setMach m { d.machS m with target := none, armed := false, wind := false }).setMStat m F.MD_CAUSE 5
    else d.toSto m 5
  d.machEvent m Ev.MACH_ARM_FAIL

/-- Whether ARM_TOUT has passed before both enables were seen high (R336). -/
def Dev.armLate (d : Dev) (m : Nat) : Bool :=
  let s := d.machS m
  d.mDefined m && s.target.isSome && !s.armed && decide (s.armAt + msTicks (max 1 (d.md m 15 F.MD_ARM_TOUT)) ≤ d.gtc)

/-- An arming given up where the device state no longer permits it (R333, R354). -/
def Dev.armAbort (d : Dev) (m : Nat) : Dev :=
  let d := ((d.mDrop m).mForce m 1 true).mCtxOff m
  d.setMach m { d.machS m with target := none, armed := false, ready := none, wind := false }

/-- DRDY_TOUT (R302, R350): the machine that is arming falls back. -/
def Dev.drdyToutCmd (d : Dev) (g : Nat) : Dev :=
  match d.drdyTout g with
  | none => d
  | some e =>
    match e.machOf g with
    | some m => if (e.machS m).target.isSome && !(e.machS m).armed then e.armFail m else e
    | none => e

/-- A load point of a machine's primary group after FORCE = NONE has taken effect: the machine enters its target. -/
def Dev.machLoad (d : Dev) (g : Nat) : Dev :=
  let s := d.machS g
  if d.mDefined g && s.armed && (List.range 3).all (fun x => (d.legS g x).force == 0) then
    match s.target with
    | some t =>
      let w := s.wind
      let d := d.machGo g t (if t = MS.DISCHARGE then 0 else 0xA)
      (d.setMach g { d.machS g with wind := w }).disP
    | none => d
  else d

/-! ### Presets (R341, R345) -/

/-- A pool word of a stage written. -/
def Dev.poolPut (d : Dev) (c k n : Nat) (w : Word) : Dev :=
  let i := recPool (d.ctxWords c) k + n
  if d.ctxPresent c && decide (i < 60) then d.pWrite Mid.S0 (R.CTX_POOL c i) w else d

/-- A state word in E form. -/
def Dev.poolE (d : Dev) (c k n : Nat) (x : Frac) : Dev := d.poolPut c k n (wordMant (mantOf x (recExp (d.ctxWords c) k)).1)

/-- The PI stage nearest before a selector; `n` bounds the chain of stages. -/
def piBehind (l : List Word) : Nat → Nat → Option Nat
  | 0, _ => none
  | n + 1, x =>
    if 0x20 ≤ x ∧ x < 0x50 then
      let k := (x - 0x20) / 4
      if recKind l k = kPI then some k else (List.range 4).findSome? fun i => piBehind l n (recSel l k i)
    else none

/-- The PI stages of an axis: those behind operand `i` of the IPARK stages. -/
def axisPi (l : List Word) (i : Nat) : List Nat := (stagesOf l kIPARK).filterMap fun k => piBehind l 12 (recSel l k i)

/-- Every integrator of a context set to 0: I of the PI, PID and PLL stages. -/
def Dev.zeroIntegrators (d : Dev) (c : Nat) : Dev :=
  let l := d.ctxWords c
  let d := (stagesOf l kPI).foldl (fun e k => e.poolPut c k 7 0) d
  let d := (stagesOf l kPID).foldl (fun e k => e.poolPut c k 9 0) d
  (stagesOf l kPLL).foldl (fun e k => e.poolPut c k 7 0) d

/-- Ticks between the passes of a context (R345): the period of the armed slot that runs it; for angle slots, each of which fires once
a turn, the turn of the track through their number; else the group's update period (log entry 314). -/
def Dev.passTicks (d : Dev) (m c : Nat) : Nat :=
  let runs (s : Nat) : Bool :=
    let a := d.reg (R.SLOT_ACT s)
    let code := getF a F.SLOT_ACT_ACTION
    let t := getF a F.SLOT_ACT_TARGET
    d.flag (R.SLOT_TRIG s) F.SLOT_TRIG_ARMED && (code == 4 || code == 5) && decide (t ≤ c)
      && decide (c ≤ t + getF a F.SLOT_ACT_SPAN)
  match (List.range nSlots).find? runs with
  | some s =>
    let w := d.reg (R.SLOT_TRIG s)
    let ty := getF w F.SLOT_TRIG_TYPE
    if ty = 1 then (d.reg (R.SLOT_ARG s)).toNat
    else if ty = 2 then
      let g := getF w F.SLOT_TRIG_SRC % 32
      let e := getF w F.SLOT_TRIG_CEVT
      (getF w F.SLOT_TRIG_CDIV + 1) * (if e = 2 then d.updTicks g else if e = 3 then d.carTicks g / 2 else d.carTicks g)
    else if ty = 3 then
      let k := getF w F.SLOT_TRIG_SRC
      let n := ((List.range nSlots).filter fun x =>
        runs x && d.get (R.SLOT_TRIG x) F.SLOT_TRIG_TYPE == 3 && d.get (R.SLOT_TRIG x) F.SLOT_TRIG_SRC == k).length
      let v := (d.trkS k).spd.natAbs
      if v = 0 then d.updTicks m else 2 ^ 40 / (v * n)
    else d.updTicks m
  | none => d.updTicks m

/-- The start ramp reaches the PROFILE stages of the main context (R342, R343): their acceleration per pass becomes F_RAMP times the pass
interval, and what stood there is kept (log entry 312, DESIGN CHOICE). -/
def Dev.rampSet (d : Dev) (m : Nat) : Dev :=
  let c := d.mMain m
  let l := d.ctxWords c
  let ks := stagesOf l kPROFILE
  if (d.machS m).rampOld != [] || !d.ctxPresent c then d
  else
    let x := frN (d.md m 7 F.MD_HI * d.passTicks m c) 400000000
    let d := d.setMach m { d.machS m with rampOld := ks.map fun k => (k, recStageW l k 3) }
    ks.foldl (fun e k => e.poolPut c k 3 (wordMant (mantOf x (sext 6 ((recStageW l k 1).toNat / 2 ^ 6))).1)) d

/-- The acceleration that stood before the ramp. -/
def Dev.rampClear (d : Dev) (m : Nat) : Dev :=
  let old := (d.machS m).rampOld
  if old = [] then d
  else
    let d := d.setMach m { d.machS m with rampOld := [] }
    old.foldl (fun (e : Dev) (x : Nat × Word) => e.poolPut (e.mMain m) x.1 3 x.2) d

/-- A ramp from rest: V and DV of those stages, written while the context is disabled. -/
def Dev.rampRest (d : Dev) (m : Nat) : Dev :=
  let c := d.mMain m
  if !d.ctxPresent c then d
  else (stagesOf (d.ctxWords c) kPROFILE).foldl (fun e k => (e.poolPut c k 5 0).poolPut c k 6 0) d

/-- The mode request and the amplitude or factor that goes with it (R328). -/
def Dev.mMode (d : Dev) (m mode : Nat) (cmd2 : Frac) : Dev :=
  let c := d.mMain m
  let d := (d.mCmd c 2 cmd2).mCmd c 3 (frN mode)
  if mode = 1 ∨ mode = 2 then d.rampSet m else d.rampClear m

/-- HOVER of every PI and PID stage of a context (R345): a multiple of passes, rounded up, that fits its 12 bits. -/
def Dev.putHover (d : Dev) (m c : Nat) : Dev :=
  if !d.ctxPresent c then d
  else
    let l := d.ctxWords c
    let t := max 1 (d.passTicks m c)
    let n := min ((msTicks (d.md m 12 F.MD_HI) + t - 1) / t) 4095
    (stagesOf l kPI ++ stagesOf l kPID).foldl (fun e k =>
      e.poolPut c k 2 (setF (recStageW l k 2) ⟨27, 16⟩ n)) d

/-- The back-EMF of a sensorless machine in the measured frame, d then q (R341): the phase voltages that ACC_V has committed, by the
equations of CLARKE and PARK; without them the amplitude on OUT11, on the q axis (log entry 313). -/
def Dev.catchEmf (d : Dev) (m : Nat) (w theta : Frac) : Frac × Frac :=
  let a := d.md m 2 F.MD_ACC_V
  let x := (d.outOpd (d.mCatch m) 11).x
  if a + 2 < nAcc d.member then
    let u (i : Nat) : Frac := d.accValue (a + i)
    let al := (((u 0).mul (frN 2)).sub ((u 1).add (u 2))).mul (frN 1 3)
    let be := ((u 1).sub (u 2)).mul kInvSqrt3
    let (sn, cs) := sinCosCounts theta
    ((al.mul cs).add (be.mul sn), (be.mul cs).sub (al.mul sn))
  else (fzero, if w.num < 0 then x.neg else x)

/-- The tick at which the catch context took its measurement (R341): T_r of its last pass. -/
def Dev.catchTs (d : Dev) (m : Nat) : Nat :=
  let tr := (d.reg (R.CTX_LAST (d.mCatch m))).toNat
  d.gtc - (d.gtc + 2 ^ 32 - tr) % 2 ^ 32

/-- The preset of a machine that is caught turning (R341): E_d and E_q − ω_c·PSI, which is 0 for a sensored machine; for a sensorless one
PLL and FLUXOBS too, which its first pass completes. -/
def Dev.presetTurning (d : Dev) (m : Nat) (w : Frac) (theta : Frac) : Dev :=
  let c := d.mMain m
  let l := d.ctxWords c
  let d := if !d.ctxPresent c then d
    else if d.mSensorless m then
      let (ed, eq) := d.catchEmf m w theta
      let d := (axisPi l 0).foldl (fun e k => e.poolE c k 7 ed) d
      let d := (axisPi l 1).foldl (fun e k => e.poolE c k 7 (eq.sub (w.mul (recPsi l)))) d
      let p : PresetSt := { theta := theta, w := w, ts := d.catchTs m }
      let d := (presetWords l p d.gtc).foldl (fun (e : Dev) (x : Nat × Word) => e.pWrite Mid.S0 (R.CTX_POOL c x.1) x.2) d
      d.setCtx c { d.ctxS c with preset := some p }
    else (axisPi l 0 ++ axisPi l 1).foldl (fun e k => e.poolPut c k 7 0) d
  let s := d.mSpd m
  if !d.ctxPresent s then d
  else
    let ls := d.ctxWords s
    let d := (stagesOf ls kPROFILE).foldl (fun e k =>
      (e.poolE s k 5 (w.div (frN (max 1 (e.mPp m))))).poolPut s k 6 0) d
    (stagesOf ls kPI).foldl (fun e k => e.poolPut s k 7 0) d

/-- Both contexts disabled, HOVER written, the preset or zero integrators, the mode, then both enabled again, speed first. -/
def Dev.prepare (d : Dev) (m mode : Nat) (cmd2 : Frac) (f : Dev → Dev) : Dev :=
  let d := ((d.mCtx (d.mMain m) false).mCtx (d.mSpd m) false).mCtx (d.mCatch m) false
  let d := d.setCtx (d.mMain m) { d.ctxS (d.mMain m) with preset := none }
  let d := f (((d.putHover m (d.mMain m)).putHover m (d.mSpd m)).putHover m (d.mCatch m))
  let d := d.mMode m mode cmd2
  (d.mCtx (d.mSpd m) true).mCtx (d.mMain m) true

/-! ### Catching and starting (R340, R342, R343) -/

/-- The measurement of CATCH, once it is complete (R340): the speed in rad/s where the rotor turns measurably, and the angle
in counts. -/
def Dev.catchResult (d : Dev) (m : Nat) : Option (Option (Frac × Frac)) :=
  let s := d.machS m
  if d.mSensorless m then
    let c := d.mCatch m
    let emf := (d.outOpd c 11).x
    let w := (d.outOpd c 10).x
    let ok := (d.mdTenth m 14 F.MD_LO).le emf
    let periods : Bool := match s.emfAt with
      | some t => ok && (kTwoPi.mul (frN 3)).le (w.abs.mul (frN (d.gtc - t) 400000000))
      | none => false
    if periods || decide (s.since + msTicks 20 ≤ d.gtc) then
      some (if ok then some (w, (d.outOpd c 9).x) else none)
    else none
  else if s.since + d.updTicks m ≤ d.gtc then
    let k := d.mTrk m
    some (if d.trkValid k then some (d.mTrkSpeed m, frN (d.trkS k).ang (2 ^ 20)) else none)
  else none

/-- What Garmal decides on a complete measurement (R340); forward under R339 tells whether R343 follows. -/
def Dev.catchDecide (d : Dev) (m : Nat) (r : Option (Frac × Frac)) : Dev :=
  let attempt := d.mStat m F.MD_ATTEMPT
  let slow : Bool := match r with
    | some (w, _) => w.abs.lt (d.mdSpeed m 4 F.MD_LO)
    | none => true
  let go (e : Dev) (t : Nat) : Dev := e.setMach m { e.machS m with ready := some t }
  let back : Bool := match r with
    | some (w, _) => !slow && (decide (w.num < 0) != (d.machS m).neg)
    | none => false
  let d := d.setMach m { d.machS m with back := back }
  if slow then
    if !d.mSensorless m then
      go (d.prepare m 0 fone fun e => (e.zeroIntegrators (e.mMain m)).zeroIntegrators (e.mSpd m)) MS.RUN
    else if d.md m 0 F.MD_ALIGN = 1 ∧ attempt = 0 then go (d.prepare m 2 (d.startCurrent m 0) fun e => e.rampRest m) MS.ALIGN
    else go (d.prepare m 1 (d.startCurrent m attempt) fun e => e.rampRest m) MS.START
  else
    match r with
    | some (w, th) =>
      if w.abs.le (d.mdSpeed m 5 F.MD_HI) then
        let d := d.setMach m { d.machS m with trust := if d.mSensorless m then w else (d.machS m).trust }
        go (d.prepare m 0 fone fun e => e.presetTurning m w th) MS.RUN
      else
        let first := !(d.machS m).again
        let d := d.setMach m { d.machS m with since := d.gtc, emfAt := none, again := true }
        if first then d.machEvent m Ev.MACH_CATCH_WAIT else d
    | none => d

/-- Arming of a decided target, as soon as the checks pass. -/
def Dev.catchArm (d : Dev) (m : Nat) : Dev :=
  match (d.machS m).ready with
  | some t => if (d.machS m).target.isNone && d.armOk m t then d.armBegin m t else d
  | none => d

/-- CATCH_COMPLETE (R340). -/
def Dev.catchComplete (d : Dev) (m : Nat) : Dev :=
  let s := d.machS m
  if d.mDefined m && d.mState m == MS.CATCH && s.ready.isNone && s.target.isNone && !s.clr then
    match d.catchResult m with
    | some r => (d.catchDecide m r).catchArm m
    | none => d
  else d

/-- ALIGN_TIMEOUT (R342); not on the way to a winding discharge (log entry 338). -/
def Dev.alignTimeout (d : Dev) (m : Nat) : Dev :=
  if d.mDefined m && d.mState m == MS.ALIGN && (d.machS m).target.isNone && decide ((d.machS m).since + msTicks (d.md m 15 F.MD_ALIGN_T) ≤ d.gtc) then
    (d.mMode m 1 (d.startCurrent m 0)).machGo m MS.START 0xA
  else d

/-- The mode request of RUN and STOP (R328, R331): RUN, or that of the set which still runs. -/
def Dev.runCode (d : Dev) (m : Nat) : Nat :=
  if d.mStat m F.MD_DEGRADED = 0 then 0 else if d.mStat m F.MD_SET = 1 then 4 else 5

/-- CMD3 and CMD2 of RUN: the torque-limit factor is 1, or DEG_TQ / 100 on one set (R338). -/
def Dev.runMode (d : Dev) (m : Nat) : Dev :=
  d.mMode m (d.runCode m) (if d.mStat m F.MD_DEGRADED = 0 then fone else frN (d.md m 0 F.MD_DEG_TQ) 100)

/-- LOCKED_ON (R342, R343): closed-loop control with the torque limit of RUN. -/
def Dev.lockedOn (d : Dev) (m : Nat) : Dev :=
  let d := d.runMode m
  if d.mState m = MS.START then (d.machGo m MS.RUN 0xA).setMStat m F.MD_ATTEMPT 0
  else d.setMach m { d.machS m with rev := false, winAt := none, back := false, ramp := none }

/-- The speed of the angle on which START drives its current, in electrical rad/s (R342, R343): from the speed at its beginning it rises
at F_RAMP in the forward direction (log entry 312). -/
def Dev.rampSpeed (d : Dev) (m : Nat) : Frac :=
  match (d.machS m).ramp with
  | none => fzero
  | some (t, w) =>
    let x := frN (d.md m 7 F.MD_HI * (d.gtc - t)) 400000000
    if (d.machS m).neg then w.sub x else w.add x

/-- Whether |ω| lies below SL_MIN (R343). -/
def Dev.belowSl (d : Dev) (m : Nat) : Bool := (d.mSpeed m).abs.lt (d.mdSpeed m 5 F.MD_LO)

/-- Whether OUT8 reports LOCKED_ON; of a machine that turns through zero, as its ramp has come above SL_MIN (R342, R343, log entry 312). -/
def Dev.lockSeen (d : Dev) (m : Nat) : Bool :=
  d.mOut8 m == 8 && !((d.machS m).rev && (d.rampSpeed m).abs.lt (d.mdSpeed m 5 F.MD_LO))

/-- START_FAIL: the machine enters FAULT (R342, R343). -/
def Dev.startFail (d : Dev) (m : Nat) : Dev := (d.toFault m 2).machEvent m Ev.START_FAIL

/-- Whether START_WIN has elapsed (R342, R343). -/
def Dev.startLate (d : Dev) (m : Nat) : Bool :=
  let s := d.machS m
  let due : Bool := match s.winAt with
    | some t => decide (t + msTicks (d.md m 8 F.MD_LO) ≤ d.gtc)
    | none => false
  d.mDefined m && due && (d.mState m == MS.START || s.rev) && s.retryAt.isNone && s.target.isNone

/-- Whether no attempt is left (R342, R343). -/
def Dev.startLast (d : Dev) (m : Nat) : Bool := (d.machS m).rev || decide (d.md m 8 F.MD_RETRY ≤ d.mStat m F.MD_ATTEMPT)

/-- RETRY_WAIT_EXPIRY (R342): a further attempt begins with CATCH. -/
def Dev.retryWaitExpiry (d : Dev) (m : Nat) : Dev :=
  match (d.machS m).retryAt with
  | some t =>
    if d.mDefined m && d.mState m == MS.START && decide (t + msTicks (d.md m 15 F.MD_RETRY_WAIT) ≤ d.gtc) then
      let k := d.mStat m F.MD_ATTEMPT
      (d.toCatch m 0xA).setMStat m F.MD_ATTEMPT (k + 1)
    else d
  | none => d

/-- STOP_SPEED_TIMER (R344): |ω| has stayed below STOP_SPD for 100 ms. -/
def Dev.stopSpeedTimer (d : Dev) (m : Nat) : Dev :=
  match (d.machS m).slowAt with
  | some t =>
    if d.mDefined m && d.mState m == MS.STOP && (d.machS m).target.isNone && decide (t + msTicks 100 ≤ d.gtc) then d.toSto m 0xA
    else d
  | none => d

/-- DISCHARGE_LATE (R351). -/
def Dev.dischargeLate (d : Dev) (m : Nat) : Dev :=
  if d.mDefined m && d.mState m == MS.DISCHARGE && d.mStat m F.MD_DIS_LATE == 0
      && decide ((d.machS m).since + msTicks (d.md m 13 F.MD_DIS_DL) ≤ d.gtc) then
    (d.setMStat m F.MD_DIS_LATE 1).machEvent m Ev.DISCHARGE_LATE
  else d

/-! ### The evaluation (R334, R335, R346 to R350) -/

/-- The leg policy (R346). -/
def Dev.legPolicy (d : Dev) (m : Nat) : Dev :=
  let w := (d.mSpeed m).abs
  let ucg := d.mdSpeed m 4 F.MD_HI
  let act : Option Nat :=
    if d.mSix m then some 2
    else if ucg.le w then some 1
    else if w.lt (ucg.mul ⟨95, 100⟩) then some 2 else none
  match act with
  | none => d
  | some a => (d.mGroups m).foldl (fun e g =>
      if e.get (gdArm g) F.GDT_ARM_ACT = a then e
      else e.pWrite Mid.S0 (gdArm g) (setF (e.reg (gdArm g)) F.GDT_ARM_ACT a)) d

/-- Whether OUT10 has changed by more than R348 permits since the previous period. -/
def Dev.implausible (d : Dev) (m : Nat) : Bool :=
  match (d.machS m).spdPrev with
  | none => false
  | some p =>
    let j := frN (d.md m 12 F.MD_LO) 100
    let bound := (frN (d.md m 11 F.MD_BYTE1 * d.md m 9 F.MD_HI * d.mPp m) 16).mul (frN (d.updTicks m) 400000000)
    bound.lt (((d.mOut m 10).sub p).abs.mul j)

/-- What an evaluation notes of the observer (R346, R348): implausible periods, the last trusted speed. -/
def Dev.noteSpeed (d : Dev) (m : Nat) : Dev :=
  let s := d.machS m
  if d.mSensorless m then
    let bad := d.implausible m
    let n := if bad then s.badN + 1 else 0
    let ok := !bad && d.mOut8 m != 9
    d.setMach m { s with badN := n, spdPrev := some (d.mOut m 10), trust := if ok then d.mOut m 10 else s.trust }
  else if d.flag (R.TRK_STAT (d.mTrk m)) F.TRK_STAT_STALE then d
  else d.setMach m { s with trust := d.mTrkSpeed m }

/-- Whether the observer, or a sensored machine's track, is lost (R348, R350). -/
def Dev.obsLost (d : Dev) (m : Nat) : Bool :=
  if d.mSensorless m then
    let n := d.md m 11 F.MD_BYTE0
    d.mOut8 m == 9 || (n != 0 && decide (n ≤ (d.machS m).badN))
  else d.flag (R.TRK_STAT (d.mTrk m)) F.TRK_STAT_STALE

/-- Sector of the machine's track (R349). -/
def Dev.mSector (d : Dev) (m : Nat) : Nat := 6 * ((d.trkS (d.mTrk m)).ang / 2 ^ 20) / 2 ^ 20

/-- What an evaluation notes for the locked-rotor check (R349). -/
def Dev.noteLock (d : Dev) (m : Nat) : Dev :=
  let s := d.machS m
  let x := d.mSector m
  let tq := d.md m 10 F.MD_HI
  let hi := decide (0 < tq) && (frN tq).lt (d.mOut m 6).abs
  let moved : Bool := match s.sector with
    | some y => x != y
    | none => false
  let secAt := (if moved then d.gtc :: s.secAt else s.secAt).take (max 1 (d.md m 10 F.MD_BYTE1))
  let fr := if hi then some (s.lockFrom.getD d.gtc) else none
  d.setMach m { s with sector := some x, secAt := secAt, lockFrom := fr }

/-- Whether a locked rotor is recognised (R349). -/
def Dev.locked (d : Dev) (m : Nat) : Bool :=
  let win := msTicks (d.md m 11 F.MD_HI)
  match (d.machS m).lockFrom with
  | some t => decide (t + win ≤ d.gtc)
      && decide (((d.machS m).secAt.filter fun x => decide (d.gtc < x + win)).length < d.md m 10 F.MD_BYTE1)
  | none => false

/-- The released sets of a six-phase machine: bit 0 the primary, bit 1 the secondary. -/
def Dev.setsReleased (d : Dev) (m : Nat) : Nat :=
  let any (g : Nat) : Bool := (List.range 3).any fun x => d.legReleased g x
  match d.secOf m with
  | some s => b2n (any m) + 2 * b2n (any s)
  | none => b2n (any m)

/-- Reaction to a leg release (R346). -/
def Dev.reactRelease (d : Dev) (m : Nat) : Dev :=
  if d.mSix m then
    let sets := d.setsReleased m
    let st := d.mState m
    if sets = 3 ∨ (st ≠ MS.RUN ∧ st ≠ MS.STOP) then d.toFault m 1
    else if d.mStat m F.MD_DEGRADED = 1 then d
    else
      let d := d.mMode m (if sets = 1 then 4 else 5) (frN (d.md m 0 F.MD_DEG_TQ) 100)
      let d := ((d.setMStat m F.MD_DEGRADED 1).setMStat m F.MD_SET sets).setMStat m F.MD_LEG_CAUSE (d.firstCause m)
      d.machEvent m Ev.MACH_DEGRADED
  else if (d.grpS m).asc then d.toAsc m 1
  else d.toFault m 1

/-- Whether a leg release calls for a reaction: on a degraded machine, only one in the remaining set. -/
def Dev.releaseNew (d : Dev) (m : Nat) : Bool :=
  d.mReleased m && !(d.mStat m F.MD_DEGRADED == 1 && d.setsReleased m == d.mStat m F.MD_SET)

/-- Loss of the observer (R348). -/
def Dev.reactLost (d : Dev) (m : Nat) : Dev :=
  if (d.mdSpeed m 4 F.MD_HI).le (d.machS m).trust.abs then (d.mForce m 2 true).toAsc m 4
  else
    let d := (((d.mForce m 1 true).mRelease m).setMach m
      { ((d.mForce m 1 true).mRelease m).machS m with clr := true })
    d.toCatch m 4

/-- An uncorrectable error of a machine context (R350). -/
def Dev.reactEcc (d : Dev) (m : Nat) : Dev :=
  if !d.mSix m && (d.mdSpeed m 4 F.MD_HI).le (d.mSpeed m).abs then
    let d := (d.mForce m 2 true).toAsc m 6
    d.setMach m { d.machS m with eccAsc := true }
  else (d.mRelease m).toFault m 6

def Dev.ctxEcc (d : Dev) (c : Nat) : Bool := d.ctxPresent c && d.flag (R.CTX_STAT c) F.CTX_STAT_ECC_ERR

/-- The end of an ASC (R347); in SAFE_HOLD, which permits no CATCH, in STO (R333). -/
def Dev.ascEnd (d : Dev) (m : Nat) : Dev :=
  let slow := d.trkValid (d.mTrk m) && (d.mTrkSpeed m).abs.lt (d.mdSpeed m 6 F.MD_HI)
  let weak : Bool := match d.mPeak m with
    | some p => p.lt (d.mdTenth m 3 F.MD_HI)
    | none => false
  if !(slow || weak) then d
  else
    let hard := (d.mGroups m).any fun g => (List.range 3).any fun x =>
      let c := d.get (gdLstat g) (F.GDT_LSTAT_CAUSE x)
      d.legReleased g x && c != 0xA && c != 9
    let d := (d.mRelease m).mDrop m
    if (d.machS m).eccAsc then
      (d.setMach m { d.machS m with eccAsc := false }).toFault m 6
    else if hard then d.toFault m 0xA
    else
      let d := d.setMach m { d.machS m with clr := true }
      if d.devState = DS.SAFE_HOLD then d.toSto m 0xA else d.toCatch m 0xA

/-- The end of a discharge (R351). -/
def Dev.dischargeEnd (d : Dev) (m : Nat) : Dev :=
  let a := d.md m 2 F.MD_ACC_VDC
  if a < nAcc d.member ∧ (d.accValue a).le (d.mdTenth m 14 F.MD_HI) then d.toSto m 0xA else d

/-- Demand held at 0 in STOP (R344); in OVERCAST ramped down from its value at the entry (R402). -/
def Dev.stopDemand (d : Dev) (m : Nat) : Dev :=
  let c := d.mDemCtx m
  let x : Frac := match (d.machS m).ovcDem with
    | some (m0, t0) =>
      let ramp := msTicks ((spGet 0 d.safe.spbP (0xC0C / 4)).toNat / 2 ^ 16)
      let gone := d.gtc - t0
      if d.devState = DS.OVERCAST ∧ gone < ramp then (bfVal m0 (d.cmdExp c 0)).mul (frN (ramp - gone) ramp) else fzero
    | none => fzero
  let w := wordMant (mantOf x (d.cmdExp c 0)).1
  if !d.ctxPresent c || d.reg (R.CTX_CMD c 0) == w then d else d.pWrite Mid.S0 (R.CTX_CMD c 0) w

/-- Whether a machine was caught turning backward, or is commanded through zero: its speed demand has the other sign (R343). -/
def Dev.toZero (d : Dev) (m : Nat) : Bool := (d.machS m).back || decide (((d.mOut m 7).mul (d.mSpeed m)).num < 0)

/-- Such a sensorless machine in RUN that falls below SL_MIN turns through zero in START mode; at LOCKED_ON above SL_MIN it
returns (R343). -/
def Dev.throughZero (d : Dev) (m : Nat) : Dev :=
  let s := d.machS m
  if !d.mSensorless m then d
  else if !s.rev && d.belowSl m && d.toZero m then
    let d := d.mMode m 1 (d.startCurrent m 0)
    d.setMach m { d.machS m with rev := true, winAt := some d.gtc, ramp := some (d.gtc, d.mSpeed m) }
  else if s.rev && d.lockSeen m then d.lockedOn m
  else d

/-- Standstill noted for STOP (R344). -/
def Dev.noteSlow (d : Dev) (m : Nat) : Dev :=
  let s := d.machS m
  let low := (d.mSpeed m).abs.lt (d.mdSpeed m 6 F.MD_LO)
  d.setMach m { s with slowAt := if low then some (s.slowAt.getD d.gtc) else none }

/-- The soft releases cleared (R347, R348). -/
def Dev.clearSoft (d : Dev) (m : Nat) : Dev :=
  let d := d.mClear m fun c => c == 0xA
  d.setMach m { d.machS m with clr := false }

/-- Back-EMF noted in CATCH (R340); soft releases are cleared and the catch context enabled before (R347, R348). -/
def Dev.noteCatch (d : Dev) (m : Nat) : Dev :=
  let d := if (d.machS m).clr then
      let d := d.clearSoft m
      let d := d.setMach m { d.machS m with since := d.gtc }
      if d.mSensorless m then d.mCtx (d.mCatch m) true else d
    else d
  let s := d.machS m
  let ok := (d.mdTenth m 14 F.MD_LO).le (d.outOpd (d.mCatch m) 11).x && d.ctxEn (d.mCatch m)
  let d := d.setMach m { s with emfAt := if ok then some (s.emfAt.getD d.gtc) else none }
  d.catchArm m

/-- Whether Channel M reads an enable low while Channel P commands it high (R332); not before an arming has seen it high. -/
def Dev.genmGone (d : Dev) (m : Nat) : Bool :=
  ((d.machS m).target.isNone || (d.machS m).armed) && (d.mGroups m).any fun g => d.pinP g && !d.pinM g

/-- OBS_LOST and LOCKED as an evaluation finds them (R348, R349). -/
def Dev.seesLost (d : Dev) (m : Nat) : Bool := drives (d.mState m) && (d.machS m).retryAt.isNone && d.obsLost m
def Dev.seesLock (d : Dev) (m : Nat) : Bool :=
  (d.mState m == MS.START || d.mState m == MS.RUN) && (d.machS m).retryAt.isNone && d.locked m

/-- The first cause that stands, in the order of R335: 1 leg release, 2 STO_P, 3 removal of GENM, 4 CTX_ECC, 5 OBS_LOST, 6 LOCKED; 0 where
none does. STO_P takes a machine in STO only out of an arming, and one in FAULT only where no leg is released (R332). -/
def Dev.reactCode (d : Dev) (m : Nat) : Nat :=
  let st := d.mState m
  let stop := st != MS.STO && st != MS.FAULT || (d.machS m).target.isSome
  if !d.mDefined m || st == MS.OFF then 0
  else if drives st && d.releaseNew m then 1
  else if (stop || (st == MS.FAULT && !d.mReleased m)) && d.flag R.SAFE_STAT F.SAFE_STAT_STO_P_IN then 2
  else if stop && d.genmGone m then 3
  else if drives st && (d.ctxEcc (d.mMain m) || d.ctxEcc (d.mSpd m) || d.ctxEcc (d.mCatch m)) then 4
  else if d.seesLost m then 5
  else if d.seesLock m then 6
  else 0

/-- The reaction to a cause. -/
def Dev.react (d : Dev) (m code : Nat) : Dev :=
  if code = 1 then d.reactRelease m
  else if code = 2 then d.toStoFault m 7
  else if code = 3 then d.toStoFault m 9
  else if code = 4 then d.reactEcc m
  else if code = 5 then d.reactLost m
  else d.toFault m 3

/-- The events of expiries that an evaluation discards (R335). -/
def Dev.lostExpiry (d : Dev) (m : Nat) : Dev :=
  let d := if d.startLate m && d.startLast m && !d.lockSeen m then d.machEvent m Ev.START_FAIL else d
  if d.armLate m && !d.armHigh m then d.machEvent m Ev.MACH_ARM_FAIL else d

/-- A reaction is noted: a command of the same evaluation loses to it (R335). -/
def Dev.reacted (d : Dev) (m : Nat) : Dev := d.setMach m { d.machS m with reactAt := d.gtc + 1 }

/-- START_WINDOW_EXPIRY (R342, R343): a higher cause discards it, and a LOCKED_ON of the same evaluation is taken (R335). -/
def Dev.startWindowExpiry (d : Dev) (m : Nat) : Dev :=
  if !d.startLate m then d
  else if d.reactCode m ≠ 0 then (d.lostExpiry m).setMach m { (d.lostExpiry m).machS m with winAt := none }
  else if d.lockSeen m then d.lockedOn m
  else if d.startLast m then (d.startFail m).reacted m
  else ((d.mDrop m).setMach m { (d.mDrop m).machS m with retryAt := some d.gtc, winAt := none }).reacted m

/-- MACH_ARM_FAIL: ARM_TOUT has passed. A higher cause discards it, and a completion in the same evaluation is taken (R335). -/
def Dev.machArmFail (d : Dev) (m : Nat) : Dev :=
  if !d.armLate m then d
  else if d.reactCode m ≠ 0 then (d.lostExpiry m).setMach m { (d.lostExpiry m).machS m with armAt := d.gtc }
  else if d.armHigh m then d.armDone m else (d.armFail m).reacted m

/-- The update period of a machine's primary group that runs: its enable tick and its number; 0 before the first. -/
def Dev.updKey (d : Dev) (m : Nat) : Nat × Nat := ((d.grpS m).enAt, (d.grpS m).idx - b2n (d.grpS m).capd)

/-- Whether Garmal has yet to evaluate a machine in the present update period (R334). -/
def Dev.evalDue (d : Dev) (m : Nat) : Bool := (d.updKey m).2 != 0 && (d.machS m).evalAt != d.updKey m

/-- Whether START_WIN or ARM_TOUT has expired without the completion it limits (R335). -/
def Dev.expired (d : Dev) (m : Nat) : Bool := (d.startLate m && !d.lockSeen m) || (d.armLate m && !d.armHigh m)

/-- Whether a command loses to a reaction of the same evaluation (R335): a cause or an expiry stands, or its reaction fell into this
tick. -/
def Dev.cmdLoses (d : Dev) (m : Nat) : Bool := d.reactCode m != 0 || d.expired m || (d.machS m).reactAt == d.gtc + 1

/-- What an evaluation does where no cause stands; a machine on its way to another state keeps what it was given for it. -/
def Dev.evalCalm (d : Dev) (m : Nat) : Dev :=
  let st := d.mState m
  if st = MS.CATCH then d.noteCatch m
  else if drives st && (d.machS m).target.isSome then d
  else if st = MS.START then
    if d.lockSeen m && (d.machS m).retryAt.isNone then d.lockedOn m else d
  else if st = MS.RUN then d.throughZero m
  else if st = MS.STOP then (d.stopDemand m).noteSlow m
  else if st = MS.ASC then d.ascEnd m
  else if st = MS.DISCHARGE then d.dischargeEnd m
  else if st = MS.STO ∧ (d.machS m).clr then d.clearSoft m
  else d

/-- MACH_EVALUATE (R334, R335), once in every update period: what is noted, the leg policy, then the first cause of R335; the events of
the others are still raised. -/
def Dev.machEvaluate (d : Dev) (m : Nat) : Dev :=
  if !d.mDefined m || d.mState m == MS.OFF || !d.evalDue m then d
  else
    let d := d.setMach m { d.machS m with evalAt := d.updKey m }
    let d := if drives (d.mState m) then (d.noteSpeed m).noteLock m else d
    let d := d.legPolicy m
    let d := if d.seesLost m then d.machEvent m Ev.OBS_LOST else d
    let d := if d.seesLock m then d.machEvent m Ev.LOCKED else d
    let code := d.reactCode m
    if code = 0 then d.evalCalm m
    else
      ((d.lostExpiry m).react m code).reacted m

/-! ### The device state and the machines (R333) -/

/-- The overcast clamps of a machine (R402), set at Garmal's ring status poll (R399): the torque limit, the speed demand limited
and ramped from the entry's tick `t0`, and the machine in STOP. A machine that Garmal does not enable, in CATCH or waiting for its next
start, has no torque to ramp and enters STO (log entry 340, DEDUCED). -/
def Dev.machOvercast (d : Dev) (m t0 : Nat) : Dev :=
  let st := d.mState m
  if !d.mDefined m || !(drives st || st == MS.CATCH) then d
  else
    let turns := st == MS.ALIGN || st == MS.START || (d.machS m).rev
    let d := if turns then d.runMode m else d
    let ovc := spGet 0 d.safe.spbP ((0xC14 + 4 * m) / 4)
    let tmax := d.md m 9 F.MD_HI
    let d := d.mCmd (d.mMain m) 2 (if tmax = 0 then fone else (frN (ovc.toNat / 2 ^ 16) tmax).min fone)
    let c := d.mDemCtx m
    let lim := frN (ovc.toNat % 2 ^ 16) (4 * max 1 (d.mPp m))
    let dem := if c = d.mSpd m then fclamp (bfVal (mantW (d.reg (R.CTX_CMD c 0))) (d.cmdExp c 0)) lim.neg lim else fzero
    let d := d.setMach m { d.machS m with ovcDem := some ((mantOf dem (d.cmdExp c 0)).1, t0) }
    if st = MS.CATCH ∨ (d.mGroups m).any (fun g => !d.genP g) = true then d.toSto m 8
    else (if st = MS.STOP then d else d.machGo m MS.STOP 8).stopDemand m

/-- What a change of the device state brings each machine (R333, R354). -/
def Dev.machDevState (d : Dev) (m new : Nat) : Dev :=
  let st := d.mState m
  if !d.mDefined m then d
  else if new = DS.CONFIGURE ∨ new = DS.COMMISSION then if st = MS.OFF then d else d.toOff m
  else if new = DS.READY then
    if st = MS.OFF then d.offToSto m
    else if st = MS.STO then d.armAbort m
    else if st = MS.FAULT ∨ (st = MS.DISCHARGE ∧ (d.machS m).wind = false) then d
    else d.toStoFault m 8
  else if new = DS.SAFE_HOLD then
    if d.safe.keep / 2 ^ m % 2 = 1 ∨ st = MS.FAULT ∨ st = MS.OFF then d
    else if st = MS.STO then d.armAbort m
    else d.toSto m 8
  else d

/-- A transition of the device state with what it brings the machines, whose states Garmal writes on S0 (R485, log entry 342). -/
def Dev.goState (d : Dev) (new cause : Nat) (valid : Bool) : Dev :=
  let old := d.devState
  let d := d.setState new cause valid
  if d.devState = new ∧ old ≠ new then d.byS0 fun d => forN 20 (fun m e => e.machDevState m new) d else d

/-- MACH_STOP as it acts (R332, R344): STOP is mode RUN, also for a machine that turns through zero (R331). A machine on its way to a winding
discharge goes on (log entry 338). -/
def Dev.machStop (d : Dev) (m cause : Nat) : Dev :=
  if d.mDefined m && d.mState m == MS.RUN && (d.machS m).target.isNone then
    ((if (d.machS m).rev then d.runMode m else d).machGo m MS.STOP cause).stopDemand m
  else d

/-! ### Meanings -/

/-- A load point, with the machine's entry into its target state (R336). -/
def Dev.loadPointMach (d : Dev) (g : Nat) : Dev :=
  let e := d.loadPointCmd g
  if e.mDefined g then e.machLoad g else e

def execLoadPoint (grp : Nat) (s : State) := onPart (fun d => d.clocked (Pg.PWT grp) fun d => d.loadPointMach grp) s
def execDrdyTout (grp : Nat) (s : State) := onLive (fun d => d.clocked Pg.GDT fun d => if grp < 12 then d.drdyToutCmd grp else d) s
def execCtxScrub (read : ScrubRead) (s : State) := onPart (fun d => d.clocked Pg.LEC fun d => d.ctxScrub read.err read.ups) s
def execArmEnablesHigh (mach : Nat) (s : State) := onLive (fun d => d.byS0 fun d => d.armEnablesHigh mach) s
def execMachArmFail (mach : Nat) (s : State) := onLive (fun d => d.byS0 fun d => d.machArmFail mach) s
def execCatchComplete (mach : Nat) (s : State) := onLive (fun d => d.byS0 fun d => d.catchComplete mach) s
def execAlignTimeout (mach : Nat) (s : State) := onLive (fun d => d.byS0 fun d => d.alignTimeout mach) s
def execStartWindowExpiry (mach : Nat) (s : State) := onLive (fun d => d.byS0 fun d => d.startWindowExpiry mach) s
def execRetryWaitExpiry (mach : Nat) (s : State) := onLive (fun d => d.byS0 fun d => d.retryWaitExpiry mach) s
def execStopSpeedTimer (mach : Nat) (s : State) := onLive (fun d => d.byS0 fun d => d.stopSpeedTimer mach) s
def execDischargeLate (mach : Nat) (s : State) := onLive (fun d => d.byS0 fun d => d.dischargeLate mach) s

end Sys2Proof.Machine
end

