-- ==== Sys2Proof/Machine/SafetyFns.lean ====
section
/-! DEFINITION. Safety functions (chapter 13, R354 to R388): the safety parameter block and its checks, the torque monitors,
the grant of Channel M, STO, SS1, discharge and brake, SAFE_HOLD. -/

namespace Sys2Proof.Machine

/-! ### The safety parameter block (R376 to R379, R391) -/

def Dev.sdDev (d : Dev) (f : RField) : Nat := getF (d.spb 0x40) f

/-- Entries that satisfy a condition. -/
def entriesThat (p : Nat → Bool) : List Nat := (List.range 20).filter p

/-- The groups an entry grants: its own and that group's secondary (R355). -/
def Dev.meGroups (d : Dev) (m : Nat) : List Nat :=
  match d.secOf m with
  | some s => [m, s]
  | none => [m]

/-- CRC-32C of a copy over bytes 0x000 to 0xFF7 (R376). -/
def spbCrc (l : Sparse Word) : Word := crc32cWords ((List.range 1022).map fun k => spGet 0 l k)

/-- A copy read from the boot flash. -/
def spbOf (flash : Memory) (a : Nat) : Sparse Word :=
  ((List.range 1024).map fun k => (k, flash.readWord (a + 4 * k))).filter fun (p : Nat × Word) => p.2 != 0

/-- The two copies' places in the boot flash (R447). -/
def spbFlash0 : Nat := 0x1100000
def spbFlash1 : Nat := 0x1110000

/-- Whether a copy's CHECK matches its CRC (R376). -/
def spbValid (l : Sparse Word) : Bool := spGet 0 l 1023 == spbCrc l

/-- The copy used at boot and at the entry into COMMISSION (R376); where neither matches, copy 0 (log entry 50, DESIGN CHOICE). -/
def spbPick (flash : Memory) : Sparse Word :=
  let a := spbOf flash spbFlash0
  let b := spbOf flash spbFlash1
  if spbValid a then a else if spbValid b then b else a

/-! ### PG_CRC (R30, R380) -/

/-- The commissioning-locked registers of a page, in ascending offset order. -/
def lockedOffs (b : Block) : List Nat :=
  ((List.range 1008).map fun k => 0x40 + 4 * k).filter fun o =>
    match regAt b o with
    | some (r, _, _) => r.flds.any fun f => f.acc == .rwc || f.acc == .rwk
    | none => false

/-- SAFE_CONFIRM as it reads (R386). -/
def Dev.confirmWord (d : Dev) : Word := if d.flag R.SAFE_STAT F.SAFE_STAT_CONFIRMED then spGet 0 d.safe.spbM 1023 else 0

/-- PG_CRC of a page, over what its locked registers read; an absent page reads 0. -/
def Dev.pgCrc (d : Dev) (page : Nat) : Word :=
  match pageInfo page with
  | some (b, i) =>
    if blockPresent d.member b i then
      crc32cWords ((lockedOffs b).map fun o =>
        if absentReg d.member b i o then 0
        else if b = .safeB ∧ o = 0x44 then d.confirmWord else d.reg (pageBase page + o))
    else 0
  | none => 0

/-! ### Checks of the block (R381, R392) -/

/-- Bank B channels an entry names as currents, as anything, and its shadow decoder (0x3F: none). -/
def Dev.meCur (d : Dev) (m : Nat) : List Nat :=
  let a := [d.me m 1 F.ME_SDD_SDD_U, d.me m 1 F.ME_SDD_SDD_V, d.me m 1 F.ME_SDD_SDD_W]
  let b := [d.me m 2 F.ME_SDD2_SDD2_U, d.me m 2 F.ME_SDD2_SDD2_V, d.me m 2 F.ME_SDD2_SDD2_W]
  (if d.me m 0 F.ME_CFG_SIX = 1 then a ++ b else a).filter (· != 0x3F)

def Dev.meSdd (d : Dev) (m : Nat) : List Nat :=
  ([d.me m 1 F.ME_SDD_SDD_U, d.me m 1 F.ME_SDD_SDD_V, d.me m 1 F.ME_SDD_SDD_W, d.me m 2 F.ME_SDD2_SDD2_U,
    d.me m 2 F.ME_SDD2_SDD2_V, d.me m 2 F.ME_SDD2_SDD2_W, d.me m 1 F.ME_SDD_SDD_VDC]).filter (· != 0x3F)

def Dev.meShd (d : Dev) (m : Nat) : Nat := d.me m 2 F.ME_SDD2_SHD

/-- Whether a page CRC entry is valid, its page and its expected PG_CRC (R377). -/
def Dev.crcEntry (d : Dev) (k : Nat) : Bool × Nat × Word :=
  let w := d.spb (0xC0 + 8 * k)
  (bitOf w 31, w.toNat % 512, d.spb (0xC4 + 8 * k))

/-- Whether a valid page CRC entry's page has another PG_CRC. -/
def Dev.crcDiffers (d : Dev) (k : Nat) : Bool :=
  let (v, p, c) := d.crcEntry k
  v && (pageInfo p).isSome && d.pgCrc p != c

def Dev.rsLocal (d : Dev) (f : RField) : Nat := getF (d.spb 0xBC0) f
def Dev.rsRing (d : Dev) (f : RField) : Nat := getF (d.spb 0xBC4) f
def Dev.rsExpect (d : Dev) (n : Nat) : Bool := decide (n < 16) && getF (d.spb (0xBC8 + 4 * n)) F.RS_NODE_EXPECT == 1
def Dev.rsPart (d : Dev) (n : Nat) : Nat := getF (d.spb (0xBC8 + 4 * n)) F.RS_NODE_PART
def Dev.rsNode (d : Dev) : Nat := d.rsLocal F.RS_LOCAL_NODE

/-- One check of the loaded block fails. -/
def Dev.spbFails (d : Dev) (code : Nat) : Bool :=
  let en := entriesThat d.meEn
  match code with
  | 0x01 => d.spb 0 != 0x53504231 || d.spb 4 != 1
  | 0x02 => d.spb 8 != d.reg R.CAP_GROUPS
  | 0x03 => en.any fun m => !groupPresent d.member m || (d.primOf m).isSome || d.me m 0 F.ME_CFG_GRP != m
  | 0x04 => en.any fun m => !d.mDefined m || d.me m 0 F.ME_CFG_CTX != d.mMain m
  | 0x05 => (en.any fun m => (d.meSdd m).any (fun c => decide (nSdd d.member ≤ c))
        || (d.meShd m != 0x3F && decide (nPos d.member ≤ d.meShd m)))
      || (en.any fun m => en.any fun n => m != n && (d.meCur m).any fun c => (d.meCur n).contains c)
  | 0x06 => en.any fun m =>
      if d.me m 0 F.ME_CFG_ANG_SRC = 1 then d.me m 0 F.ME_CFG_SDI_EN == 1 || d.me m 0 F.ME_CFG_SIX == 1
      else d.meShd m == 0x3F
  | 0x07 =>
    let e := d.sdDev F.SD_DEV_EVAL
    decide (e < 25) || decide (200 < e) || d.sdDev F.SD_DEV_FILT_N == 0 || en.any fun m => d.me m 0 F.ME_CFG_PP == 0
  | 0x08 => (List.range 32).any fun k => (d.crcEntry k).1 && (pageInfo (d.crcEntry k).2.1).isNone
  | 0x09 => spbCrc d.safe.spbP != spbCrc d.safe.spbM
  | 0x0A => (List.range 32).any d.crcDiffers
  | 0x0B =>
    let c := d.rsRing F.RS_RING_CYCLE
    !d.rsExpect d.rsNode || decide (c < 100) || decide (10000 < c) || d.rsRing F.RS_RING_TOUT == 0
  | 0x0C => (d.rsLocal F.RS_LOCAL_RGB_EN == 1 && !hasRingB d.member)
      || (d.rsLocal F.RS_LOCAL_RGA_EN == 0 && (List.range 16).any fun n => n != d.rsNode && d.rsExpect n)
  | _ => false

/-- The codes of the failing checks, ascending. -/
def Dev.spbFailing (d : Dev) : List Nat := ((List.range 13).filter fun c => d.spbFails c)

/-! ### Grant (R355, R374) -/

def Dev.tripped (d : Dev) (m : Nat) : Bool := bitOf (d.reg R.SAFE_TRIP) m
def Dev.granted (d : Dev) (m : Nat) : Bool := bitOf (d.reg R.SAFE_GRANT) m

/-- Whether Channel M holds GENM of an entry's groups high (R355). -/
def Dev.grantOk (d : Dev) (m : Nat) : Bool :=
  let st := d.devState
  let inState := st == DS.RUN || (st == DS.OVERCAST && !d.safe.ovcDone && d.granted m)
    || (st == DS.SAFE_HOLD && d.safe.keep / 2 ^ m % 2 == 1)
  d.meEn m && inState && d.flag R.SAFE_STAT F.SAFE_STAT_CONFIRMED && !d.flag R.SAFE_STAT F.SAFE_STAT_STO_M_IN
    && !d.tripped m && !bitOf (d.reg R.SAFE_REQ_STO) m && !d.safe.deadM && !d.flag R.RPL_STAT F.RPL_STAT_RUN && (d.tmS m).ok

/-- GENM of every group and SAFE_GRANT follow R355; a group that no enabled entry names is low. -/
def Dev.grantAll (d : Dev) : Dev :=
  let ok := entriesThat d.grantOk
  let w := ok.foldl (fun (w : Word) m => w ||| bitWord m) 0
  let groups := ok.flatMap d.meGroups
  forN 20 (fun g e => e.setGenM g (groups.contains g)) (d.put R.SAFE_GRANT F.SAFE_GRANT_GENM w.toNat)

/-- SAFE_TRIP shows what is latched for an entry (R386). -/
def Dev.showLatch (d : Dev) (m : Nat) : Dev :=
  let s := d.tmS m
  d.setReg R.SAFE_TRIP (setBit (d.reg R.SAFE_TRIP) m (s.byIn || s.byTrip || s.byDone))

/-- The first cause of an entry (R362). -/
def Dev.noteCause (d : Dev) (m c : Nat) : Dev :=
  if d.get (R.TM_STAT m) F.TM_STAT_CAUSE = 0 then d.put (R.TM_STAT m) F.TM_STAT_CAUSE c else d

/-- Whether a discharge still stands (R368): its DC link has not read low, or its request stands. -/
def Dev.disStands (d : Dev) (m : Nat) : Bool :=
  let s := spGet {} d.safe.disM m
  s.at1 != 0 && (!s.low || d.safe.held || (d.tripped m && d.me m 0 F.ME_CFG_DIS_ON_STO == 1)
    || d.flag R.SAFE_OUT F.SAFE_OUT_DIS_M_REQ)

/-- Channel M starts the discharge of an entry it stops (R368); one that stood already, `was`, goes on with its deadline and with what it
has read. -/
def Dev.startDis (d : Dev) (was : Bool) (m : Nat) : Dev :=
  if was then d else { d with safe := { d.safe with disM := spPut {} d.safe.disM m { at1 := d.gtc + 1 } } }

def Dev.disOnSto (d : Dev) (was : Bool) (m : Nat) : Dev := if d.me m 0 F.ME_CFG_DIS_ON_STO = 1 then d.startDis was m else d

def Dev.ss1Off (d : Dev) (m : Nat) : Dev :=
  (d.setTm m { d.tmS m with ss1 := none, still := 0 }).putB (R.TM_STAT m) F.TM_STAT_SS1_ACT false

/-- An STO latched for an entry (R364): a trip, a request or the STO_M input. -/
def Dev.latchSto (d : Dev) (m cause : Nat) (input : Bool) : Dev :=
  let s := d.tmS m
  let was := d.disStands m
  let d := d.setTm m (if input then { s with byIn := true } else { s with byTrip := true, ok := false })
  ((d.noteCause m cause).showLatch m).disOnSto was m

/-- A trip (R362): the checks that have tripped are kept until the acknowledgement. -/
def Dev.tmTrip (d : Dev) (m cause : Nat) : Dev :=
  let d := (d.latchSto m cause false).ss1Off m
  let d := d.setTm m { d.tmS m with trips := cause :: (d.tmS m).trips.filter (· != cause) }
  let d := d.emitProt { ty := 0x22, res := m, tick := d.gtc, data := [BitVec.ofNat 32 cause] }
  ((d.keepEnds m).machEvent m Ev.TM_TRIP).grantAll

/-- A device state entered, with what it brings the machines and the grant. -/
def Dev.goSafe (d : Dev) (new cause : Nat) (valid : Bool) : Dev := (d.goState new cause valid).grantAll

/-! ### SAFE_HOLD (R374, R375) -/

/-- Machines that continue (R374): granted at the entry, in an ASC or a winding discharge that the block permits. -/
def Dev.continuing (d : Dev) (cause : Nat) : List Nat :=
  if (cause = 4 ∨ cause = 6 ∨ cause = 7) ∧ d.sdDev F.SD_DEV_HOLD_EN = 1 then
    entriesThat fun m => d.granted m && !d.tripped m &&
      ((d.mState m == MS.ASC && d.me m 0 F.ME_CFG_ASC_HOLD == 1)
        || (d.mState m == MS.DISCHARGE && (d.machS m).wind && d.me m 0 F.ME_CFG_WDIS_HOLD == 1
          && d.flag (R.CTX_TARGET (d.me m 0 F.ME_CFG_CTX)) F.CTX_TARGET_PUB && d.mOut8 m == 3))
  else []

/-- SAFE_HOLD goes on without continuation (R368, R374): the enables that were kept drop, and the discharge starts. -/
def Dev.holdAll (d : Dev) : Dev :=
  let was := (entriesThat d.meEn).map fun m => (m, d.disStands m)
  let d := { d with safe := { d.safe with keep := 0, held := true } }
  was.foldl (fun e (p : Nat × Bool) => e.startDis p.2 p.1) d

/-- A cause of SAFE_HOLD (R374): entered from CONFIGURE to OVERCAST; of two causes in one cycle the lowest is recorded (R375), and one
without continuation ends what the other kept. -/
def Dev.enterHold (d : Dev) (cause src : Nat) : Dev :=
  let st := d.devState
  if st = DS.SAFE_HOLD then
    if d.trans.at1 = d.gtc + 1 then
      let d := (d.setState DS.SAFE_HOLD src true).put R.SAFE_HOLD_INFO F.SAFE_HOLD_INFO_CAUSE
        (min cause (d.get R.SAFE_HOLD_INFO F.SAFE_HOLD_INFO_CAUSE))
      if cause = 4 ∨ cause = 6 ∨ cause = 7 then d
      else (d.holdAll.byS0 fun d => forN 20 (fun m e => e.machDevState m DS.SAFE_HOLD) d).grantAll
    else d
  else if st = DS.RESET ∨ st = DS.BOOT ∨ st = DS.FATAL then d
  else
    let l := d.continuing cause
    let d := { d with safe := { d.safe with uncAt := d.gtc + msTicks 1 } }
    let d := if l.isEmpty then d.holdAll else { d with safe := { d.safe with keep := (l.map fun m => 2 ^ m).sum, held := false } }
    let d := (d.putB R.SAFE_HOLD_INFO F.SAFE_HOLD_INFO_HOLD true).put R.SAFE_HOLD_INFO F.SAFE_HOLD_INFO_CAUSE cause
    (d.goSafe DS.SAFE_HOLD src true).raise Pg.SAFE Ev.SAFE_HOLD

/-! ### What the block makes of the rings (R390, R391, R403) -/

/-- Whether the loaded block uses a ring. -/
def Dev.ringUsed (d : Dev) (b : Bool) : Bool :=
  if b then hasRingB d.member && d.rsLocal F.RS_LOCAL_RGB_EN == 1 else d.rsLocal F.RS_LOCAL_RGA_EN == 1

/-- Nodes with EXPECT = 1 other than the own. -/
def Dev.peers (d : Dev) : List Nat := (List.range 16).filter fun n => n != d.rsNode && d.rsExpect n

def Dev.epoch (d : Dev) : Nat := d.get R.SFX_STAT F.SFX_STAT_EPOCH
def Dev.lost (d : Dev) (s : Nat) : Bool := bitOf (d.reg R.SFX_LOST) s

/-- RING_OK (R403). -/
def Dev.ringOk (d : Dev) : Dev := d.putB R.SFX_STAT F.SFX_STAT_RING_OK (d.epoch != 0 && !d.peers.any d.lost)

/-- What a loaded block leaves of the rings (R390, R403; log entry 322, DEDUCED): a ring that it does not use, or whose section is not
checked, has its switch closed; RING_OK follows. -/
def Dev.ringReload (d : Dev) (ok : Bool) : Dev :=
  let close (b : Bool) (e : Dev) : Dev :=
    if ok && e.ringUsed b then e else e.putB (R.RG_STAT (b2n b)) F.RG_STAT_INSERTED false
  let d := close true (close false d)
  let used := d.ringUsed false || d.ringUsed true
  let d := if d.flag (R.RG_STAT 0) F.RG_STAT_INSERTED then d else { d with ring := { d.ring with insA := none } }
  if used then d.ringOk else d.putB R.SFX_STAT F.SFX_STAT_RING_OK false

/-! ### Loading the block (R381, R382) -/

/-- READY reached from COMMISSION: the block is confirmed. -/
def Dev.spbPass (d : Dev) : Dev :=
  (d.putB R.SAFE_STAT F.SAFE_STAT_CONFIRMED true).goSafe DS.READY 0 false

/-- An entry begins its evaluations anew with a loaded block (R357). What is latched stays until SAFE_ACK (R362, R364, R365), and a stop
that runs goes on (log entry 320, DEDUCED). The demands of the context's last commit count from the first evaluation on. -/
def Dev.tmRestart (d : Dev) (m : Nat) : Dev :=
  let s := d.tmS m
  let en := d.meEn m
  let c := d.me m 0 F.ME_CFG_CTX
  let ss1 := if en then s.ss1 else none
  let latched := s.byIn || s.byTrip || s.byDone
  let cause := d.get (R.TM_STAT m) F.TM_STAT_CAUSE
  let d := d.setTm m { next := if en then d.gtc + 400 * d.sdDev F.SD_DEV_EVAL else 0, byIn := s.byIn, byTrip := s.byTrip,
                       byDone := s.byDone, trips := s.trips, ss1 := ss1, still := if ss1.isSome then s.still else 0,
                       dems := if en && (d.ctxS c).cAt != 0 then [d.demNow c ((d.ctxS c).cAt - 1)] else [] }
  let d := ((d.setReg (R.TM_STAT m) 0).setReg (R.TM_CNT m) 0).put (R.TM_STAT m) F.TM_STAT_CAUSE (if latched then cause else 0)
  (d.putB (R.TM_STAT m) F.TM_STAT_SS1_ACT ss1.isSome).showLatch m

/-- STO of an entry that the block enables while STO_M is active or its STO is requested (R364). -/
def Dev.tmRelatch (d : Dev) (m : Nat) : Dev :=
  if !d.meEn m then d
  else
    let d := if d.flag R.SAFE_STAT F.SAFE_STAT_STO_M_IN && !(d.tmS m).byIn then d.latchSto m 0xB true else d
    if (bitOf (d.reg R.SAFE_REQ_STO) m || d.get R.SFX_RX_REQ F.SFX_RX_REQ_STO_SRC != 0) && !(d.tmS m).byTrip then d.latchSto m 0xC false else d

/-- What S1 writes from a block whose checks have passed (R381): the ADB registers of the Bank B channels, and the SHD registers of the
shadow decoder, that an enabled entry names. The block holds no words for them and the rule gives none: each word is free (log entry 230,
DESIGN CHOICE). -/
def Dev.s1Writes (d : Dev) : Dev :=
  let l := (entriesThat d.meEn).flatMap fun m =>
    ((d.meSdd m).flatMap fun c => [R.ADB_CH_CFG c, R.ADB_CH_OVR c])
      ++ (if d.meShd m = 0x3F then [] else
        [R.SHD_CFG (d.meShd m), R.SHD_FMT (d.meShd m), R.SHD_GEOM (d.meShd m), R.SHD_OFS (d.meShd m), R.SHD_RES (d.meShd m)])
  l.foldl (fun e a =>
    let (w, e) := e.fresh
    e.pWrite Mid.S1 a w) d

/-- Both channels load their copy and check it (R381). Every failing check raises SPB_ERR. A discharge that runs goes on until its DC link
has read low (R368). -/
def Dev.spbLoad (d : Dev) (flash : Memory) : Dev :=
  let l : Sparse Word := spbPick flash
  let d := { d with safe := { d.safe with spbP := l, spbM := l, base := some d.gtc, xNext0 := 0, xNext1 := 0 } }
  let d := (d.setReg R.SAFE_CRC_P (spbCrc l)).setReg R.SAFE_CRC_M (spbCrc l)
  let d := forN 20 (fun m e => (e.tmRestart m).tmRelatch m) d
  let d := d.putB R.SAFE_STAT F.SAFE_STAT_SPB_LOADED true
  let bad : List Nat := d.spbFailing
  let d := d.putB R.SAFE_STAT F.SAFE_STAT_PAGE_OK (!bad.contains 0x0A)
  let d := d.put R.SAFE_STAT F.SAFE_STAT_SPB_ERR (bad.headD 0)
  let d := (d.putB R.TMON_STAT F.TMON_STAT_RUN0 ((entriesThat d.meEn).any fun m => d.me m 0 F.ME_CFG_TMON == 0)).putB
    R.TMON_STAT F.TMON_STAT_RUN1 ((entriesThat d.meEn).any fun m => d.me m 0 F.ME_CFG_TMON == 1)
  let d := bad.foldl (fun x _ => x.raise Pg.SAFE Ev.SPB_ERR) (d.ringReload bad.isEmpty)
  let d := d.raiseIf (bad.contains 0x0A) Pg.SAFE Ev.PAGE_CRC_ERR
  let d := (if bad.isEmpty then d.s1Writes else d).grantAll
  if bad.isEmpty && d.spb 0xFF8 == 1 && d.spb 0xFFC == spbCrc l then d.spbPass else d

/-- Entry into COMMISSION (R381, R384), with the loading and its checks. -/
def Dev.toCommission (d : Dev) (flash : Memory) : Dev :=
  ((d.putB R.SAFE_STAT F.SAFE_STAT_CONFIRMED false).goSafe DS.COMMISSION 0 false).spbLoad flash

/-- The words that a confirmation writes to a copy (R383). -/
def spbConfirm (l : Sparse Word) (w : Word) : Sparse Word := spPut 0 (spPut 0 l 1022 1) 1023 w

/-- A block written to the two flash copies in turn (R376, R447): where copy 0 alone is valid copy 1 comes first, so that the copy being
written is never the only valid one. -/
def flashCopies (flash : Memory) (ws : List Word) : Memory :=
  if spbValid (spbOf flash spbFlash0) && !spbValid (spbOf flash spbFlash1) then
    (flash.writeWords spbFlash1 ws).writeWords spbFlash0 ws
  else (flash.writeWords spbFlash0 ws).writeWords spbFlash1 ws

/-- CHECK and CONF_MARK written to both flash copies (R383), over the whole of the confirmed block. -/
def flashSpb (flash : Memory) (l : Sparse Word) : Memory := flashCopies flash ((List.range 1024).map fun k => spGet 0 l k)

/-- A failed confirmation (R383, R384). -/
def Dev.confirmFail (d : Dev) : Dev :=
  let n := min 3 (d.get R.SAFE_STAT F.SAFE_STAT_CONF_FAILS + 1)
  ((d.put R.SAFE_STAT F.SAFE_STAT_CONF_FAILS n).putB R.SAFE_STAT F.SAFE_STAT_CONF_LOCK
    (d.flag R.SAFE_STAT F.SAFE_STAT_CONF_LOCK || n == 3)).raise Pg.SAFE Ev.CONFIRM_FAIL

/-- Whether a write of SAFE_CONFIRM is taken (R384): the key window is the writer's, the cycle in which it closes by time included;
CONF_LOCK refuses it. -/
def Dev.confirmOk (d : Dev) (mid : Nat) : Bool :=
  let open1 : Bool := match (d.keyS Pg.SAFE).win with
    | some (m, t) => m == mid && decide (d.gtc < t + keyWinTicks + 2)
    | none => false
  (d.asS0 mid .safeB || mid == Mid.S1) && open1 && !d.flag R.SAFE_STAT F.SAFE_STAT_CONF_LOCK

/-- SAFE_CONFIRM_WRITE (R383): a confirmation counts in COMMISSION, with a loaded block whose checks passed (log entry 51, DEDUCED). -/
def safeConfirm (d : Dev) (flash : Memory) (mid : Nat) (w : Word) : Dev × Memory :=
  if !d.confirmOk mid then (d.deny Pg.SAFE, flash)
  else if w = d.reg R.SAFE_CRC_P ∧ w = d.reg R.SAFE_CRC_M ∧ d.devState = DS.COMMISSION
      ∧ d.flag R.SAFE_STAT F.SAFE_STAT_SPB_LOADED = true ∧ d.get R.SAFE_STAT F.SAFE_STAT_SPB_ERR = 0 then
    let l := spbConfirm d.safe.spbM w
    let d := { d with safe := { d.safe with spbP := spbConfirm d.safe.spbP w, spbM := l } }
    (d.spbPass, flashSpb flash l)
  else (d.confirmFail, flash)

/-- SPB_RECHECK (R382). -/
def Dev.spbRecheck (d : Dev) : Dev :=
  if (d.devState = DS.READY ∨ d.devState = DS.RUN)
      ∧ (spbCrc d.safe.spbP ≠ d.reg R.SAFE_CRC_P ∨ spbCrc d.safe.spbM ≠ d.reg R.SAFE_CRC_M) then
    d.enterHold 5 Ev.SAFE_HOLD
  else d

/-! ### The torque monitors (R357 to R361) -/

/-- An exact value stored in 32 bits: one that falls outside is free (log entry 52, DESIGN CHOICE). -/
def Dev.fit32 (d : Dev) (x : Int) : Int × Dev :=
  if -(2 ^ 31) ≤ x ∧ x < 2 ^ 31 then (x, d)
  else
    let (w, d) := d.fresh
    (sext 32 w.toNat, d)

/-- The timestamp of a shadow decoder's angle: its latest edge's, or its latest good word's. -/
def Dev.shdTime (d : Dev) (n : Nat) : Nat :=
  let s := d.posS (16 + n)
  match s.edges with
  | t :: _ => t
  | [] => match s.words with
    | (t, _) :: _ => t
    | [] => d.gtc

/-- Pole pairs that take the shadow's angle to the machine's: a Hall decoder's is electrical already (R161; log entry 53, DEDUCED). -/
def Dev.mePp (d : Dev) (m : Nat) : Nat := if d.posMode (16 + d.meShd m) = mdHALL then 1 else d.me m 0 F.ME_CFG_PP

/-- The electrical angle, in 40 bits of a turn, at `half` half ticks before the present one (R357): the shadow's angle extrapolated by its
speed, times PP, plus THOFS. -/
def Dev.tmAngle (d : Dev) (m : Nat) (half : Int) : Nat :=
  let n := d.meShd m
  let a : Int := d.get (R.SHD_ANG n) F.SHD_ANG_ANG * 2 ^ 20
  let v := sext 32 (d.reg (R.SHD_SPD n)).toNat
  let x := a + v * (2 * ((d.gtc : Int) - d.shdTime n) - half) / 2
  wrap40 (x * d.mePp m + d.me m 7 F.ME_ANG_THOFS * 2 ^ 20)

/-- Group delay of a channel in half ticks (R108). -/
def Dev.sddDelay2 (d : Dev) (c : Nat) : Nat := (3 * d.sddOsr c - 3) * d.sdcDiv (d.get (R.ADB_CH_CFG c) F.ADB_CH_CFG_CLK)

/-- What a channel is to an entry. -/
def Dev.tmRoles (d : Dev) (m c : Nat) : List Nat :=
  (([d.me m 1 F.ME_SDD_SDD_U, d.me m 1 F.ME_SDD_SDD_V, d.me m 1 F.ME_SDD_SDD_W, d.me m 2 F.ME_SDD2_SDD2_U,
    d.me m 2 F.ME_SDD2_SDD2_V, d.me m 2 F.ME_SDD2_SDD2_W].zip (List.range 6)).filter fun (p : Nat × Nat) =>
      p.1 == c && (decide (p.2 < 3) || d.me m 0 F.ME_CFG_SIX == 1 || d.me m 0 F.ME_CFG_ANG_SRC == 1)).map (·.2)

/-- A DC-link reading (R368): at or below V_SAFE_M. -/
def Dev.tmVdc (d : Dev) (m c : Nat) (y : Int) : Dev :=
  let s := spGet {} d.safe.disM m
  if d.me m 1 F.ME_SDD_SDD_VDC = c ∧ s.at1 ≠ 0 ∧ y * d.me m 3 F.ME_FS_V_FS ≤ d.me m 14 F.ME_MISC_V_SAFE_M * 2 ^ 23 then
    { d with safe := { d.safe with disM := spPut {} d.safe.disM m { s with low := true } } }
  else d

/-- An output of a Bank B channel at the torque monitors (R357). An observer's angle at the input instant is known at the evaluation;
until then the output keeps its group delay. -/
def Dev.tmSample (d : Dev) (c : Nat) (y : Int) : Dev :=
  forN 20 (fun m e =>
    if !e.meEn m then e
    else
      let e := e.tmVdc m c y
      let roles := e.tmRoles m c
      if roles.isEmpty then e
      else
        let a : Nat := if e.me m 0 F.ME_CFG_ANG_SRC = 1 then e.sddDelay2 c else e.tmAngle m (e.sddDelay2 c)
        let s := e.tmS m
        e.setTm m { s with smp := s.smp ++ roles.map fun r => { role := r, y := y, ang := a, tick := e.gtc } }) d

/-- Sine and cosine in Q30, truncated, of a 40-bit angle less k thirds of a turn. -/
def tmTrig (a k : Nat) : Int × Int :=
  let (s, c) := sinCosTurn (3 * (a : Int) - k * 2 ^ 40) (3 * 2 ^ 40)
  (s.tdiv (2 ^ 98), c.tdiv (2 ^ 98))

/-- A current in units of 2^−12 A (R357). -/
def tmCurrent (ifs : Nat) (y : Int) : Int := (y * (ifs : Int) * 4096).tdiv (10 * 2 ^ 23)

/-- The mean of a list, truncated. -/
def meanT (l : List Int) : Int := if l.isEmpty then 0 else l.sum.tdiv l.length

/-- The components of one set (R358): each output transformed at its own angle, the mean of each phase over the interval; the current of a
phase that no channel carries is the negative sum of the other two (log entry 55, DEDUCED). `base` is 0 or 3. -/
def tmVector (l : List TmSmp) (ifs base ofs : Nat) : Option (Int × Int) :=
  let of (r : Nat) : List TmSmp := l.filter fun (x : TmSmp) => x.role == base + r
  let named := (List.range 3).filter fun r => !(of r).isEmpty
  let part (r : Nat) (sub : Option Nat) : Int × Int :=
    let f (x : TmSmp) : Int × Int :=
      let a := x.ang + ofs * 2 ^ 20
      let i := tmCurrent ifs x.y
      let (s, c) := tmTrig a r
      let (s2, c2) : Int × Int := match sub with
        | some q => tmTrig a q
        | none => (0, 0)
      ((i * (c - c2)).tdiv (2 ^ 30), (i * (s - s2)).tdiv (2 ^ 30))
    let v := (of r).map f
    (meanT (v.map (·.1)), meanT (v.map (·.2)))
  let total (sub : Option Nat) : Int × Int :=
    let p := named.map fun r => part r sub
    ((2 * (p.map (·.1)).sum).tdiv 3, (-2 * (p.map (·.2)).sum).tdiv 3)
  if named.length = 3 then some (total none)
  else if named.length = 2 then some (total ((List.range 3).find? fun r => !named.contains r)) else none

/-- The torque of one set in 2^−8 N·m (R358): 1.5·PP·(ψ·i_q + (L_d − L_q)·i_d·i_q), ψ in µWb, L in nH. -/
def tmTorque (pp psi ld lq : Nat) (i : Int × Int) : Int :=
  (3 * (pp : Int) * 256 * ((psi : Int) * 1000 * 4096 * i.2 + ((ld : Int) - (lq : Int)) * (i.1 * i.2))).tdiv
    (2 * 1000000000 * 2 ^ 24)

/-- Whether an interval holds an output of every channel the entry names for its currents. -/
def Dev.tmHas (d : Dev) (m : Nat) (l : List TmSmp) : Bool :=
  let need (base : Nat) (cs : List Nat) : Bool :=
    (cs.zip (List.range 3)).all fun (p : Nat × Nat) => p.1 == 0x3F || l.any fun (x : TmSmp) => x.role == base + p.2
  need 0 [d.me m 1 F.ME_SDD_SDD_U, d.me m 1 F.ME_SDD_SDD_V, d.me m 1 F.ME_SDD_SDD_W]
    && ((d.me m 0 F.ME_CFG_SIX == 0 && d.me m 0 F.ME_CFG_ANG_SRC == 0)
      || need 3 [d.me m 2 F.ME_SDD2_SDD2_U, d.me m 2 F.ME_SDD2_SDD2_V, d.me m 2 F.ME_SDD2_SDD2_W])

/-- The torque and the first set's current vector of an interval; none where the inputs do not give them. -/
def Dev.tmEstimate (d : Dev) (m : Nat) (l : List TmSmp) : Option (Int × (Int × Int)) :=
  let pp := d.me m 0 F.ME_CFG_PP
  let t := tmTorque pp (d.me m 4 F.ME_PSI_PSI) (d.me m 5 F.ME_LD_LD) (d.me m 6 F.ME_LQ_LQ)
  let ifs := d.me m 3 F.ME_FS_I_FS
  if !d.tmHas m l then none
  else
    match tmVector l ifs 0 0 with
    | none => none
    | some i =>
      if d.me m 0 F.ME_CFG_SIX = 1 then
        match tmVector l ifs 3 (d.me m 8 F.ME_ANG2_SET2_OFS) with
        | some j => some (t i + t j, i)
        | none => none
      else some (t i, i)

/-- An angle that passes in e ticks, in 40 bits of a turn, as a speed in 2^−8 rad/s. -/
def turnSpeed (a : Int) (e : Nat) : Int := (a * 2 * fxPi * 400000000 * 256).tdiv ((max 1 e : Nat) * 2 ^ 168)

/-- The electrical speed in 2^−8 rad/s from the shadow (R358). -/
def Dev.tmSpeed (d : Dev) (m : Nat) : Int :=
  turnSpeed (sext 32 (d.reg (R.SHD_SPD (d.meShd m))).toNat * d.mePp m) 1

/-- What Channel M's observer gives for an interval (R359): the electrical speed, the angle at the interval's midpoint in 40 bits,
LOWFLUX, the current vector in the stator's frame, the outputs with their angles. -/
structure TmObs where
  w : Int
  a : Nat
  low : Bool
  i : Int × Int
  l : List TmSmp

/-- The observer over an interval of e ticks that begins at `start` (R359): the stator flux integrates the mean phase voltage, less a
drift removal at 1 Hz, plus a free term on each axis for the resistive drop and the fixed-point form that are not stated; the active flux
is the stator flux less L_q·i. The angle runs evenly from one interval's end to the next (log entry 54, DESIGN CHOICE). -/
def Dev.tmObserve (d : Dev) (m : Nat) (l : List TmSmp) (start e : Nat) : TmObs × Dev :=
  let s := d.tmS m
  let l0 := l.map fun (x : TmSmp) => { x with ang := 0 }
  let i := (tmVector l0 (d.me m 3 F.ME_FS_I_FS) 0 0).getD (0, 0)
  let v := (tmVector l0 (d.me m 3 F.ME_FS_V_FS) 3 0).getD (0, 0)
  let (a, d) := d.fresh
  let (b, d) := d.fresh
  let step (p u : Int) (x : Word) : Int :=
    p + (u * e * 1000).tdiv (4096 * 400) - (2 * fxPi * e * p).tdiv (2 ^ 128 * 400000000) + sext 32 x.toNat
  let f := (step s.flux.1 v.1 a, step s.flux.2 v.2 b)
  let lq : Int := d.me m 6 F.ME_LQ_LQ
  let act := (f.1 - (lq * i.1).tdiv 4096, f.2 - (lq * i.2).tdiv 4096)
  let (t, d) := d.vecAngle act.2 act.1
  let th : Nat := t * 2 ^ 20
  let adv := sext 40 (wrap40 ((th : Int) - s.th))
  let psi : Int := d.me m 4 F.ME_PSI_PSI * 1000
  let d := d.setTm m { d.tmS m with flux := f, th := th }
  ({ w := turnSpeed adv e, a := wrap40 (s.th + adv / 2), low := decide (4 * (act.1 * act.1 + act.2 * act.2) < psi * psi), i := i,
     l := l.map fun (x : TmSmp) =>
       { x with ang := wrap40 (s.th + adv * (2 * ((x.tick : Int) - start) - x.ang) / (2 * (max 1 e : Nat))) } }, d)

/-- The speed, the angle, LOWFLUX, the current held against I_LIM and the outputs with their angles, of an interval (R357 to R359). -/
def Dev.tmInputs (d : Dev) (m : Nat) (l : List TmSmp) (start e : Nat) : TmObs × Dev :=
  if d.me m 0 F.ME_CFG_ANG_SRC = 1 then d.tmObserve m l start e
  else ({ w := d.tmSpeed m, a := d.tmAngle m ((e : Int) + 2 * ((d.gtc : Int) - start - e)), low := false, i := (0, 0), l := l }, d)

/-- A torque in 2^−8 N·m. -/
def torque8 (x : Frac) : Int := if x.den = 0 then 0 else (x.num * 256).tdiv x.den

/-- The demands of the interval that ends at `next` (R206, R357): the latest published commit in it or before, and the age of the
context's last commit in evaluations (R361). Where nothing has been published since, the values taken last stand. -/
def Dev.tmDemand (d : Dev) (m start next : Nat) : Dev :=
  let s := d.tmS m
  let now := s.dems.filter fun (x : DemSt) => decide (x.tick < next)
  let s := { s with dems := s.dems.filter fun (x : DemSt) => !decide (x.tick < next),
                    age := if now.any fun (x : DemSt) => decide (start ≤ x.tick) then 0 else s.age + 1 }
  match (now.filter (·.pub)).getLast? with
  | some x =>
    let (t, d) := d.fit32 (torque8 x.o6)
    d.setTm m { s with dem := t, dem7 := x.o7, dem8 := x.o8 }
  | none => d.setTm m s

/-- Field i of TM_CNT. -/
def tmCntF (i : Nat) : RField := ⟨4 * i + 3, 4 * i⟩

/-- One check with its counter (R360): it trips where the counter reaches FILT_N. -/
def Dev.tmCheck (d : Dev) (m i cause : Nat) (fails : Bool) : Dev :=
  let a := R.TM_CNT m
  if !fails then d.put a (tmCntF i) 0
  else
    let n := min 15 (d.get a (tmCntF i) + 1)
    let was := d.get a (tmCntF i)
    let d := d.put a (tmCntF i) n
    if was < d.sdDev F.SD_DEV_FILT_N ∧ d.sdDev F.SD_DEV_FILT_N ≤ n then d.tmTrip m cause else d

/-- A check at once (R360): it trips unless its trip is latched already. -/
def Dev.tmAtOnce (d : Dev) (m cause : Nat) (fails : Bool) : Dev :=
  if fails && !(d.tmS m).trips.contains cause then d.tmTrip m cause else d

/-- A quantity of the block in 2^−8 units: `per` of its units make one. -/
def q8 (v per : Nat) : Int := ((v * 256 : Nat) : Int).tdiv per

/-- Bound of |ω| under a stop at a tick (R365). -/
def ss1Bound (x : Ss1St) (tol : Int) (t : Nat) : Int :=
  (x.w0.natAbs : Int) + tol - (if x.den = 0 then 0 else (x.num * ((t - x.t0 - x.dly : Nat) : Int)).tdiv x.den)

/-- SPD_TOL of an entry in 2^−8 rad/s. -/
def Dev.tmTol (d : Dev) (m : Nat) : Int := q8 (d.me m 11 F.ME_SPD_SPD_TOL) 4

/-- SS1 completes (R365): STO is latched for the entry. -/
def Dev.ss1Done (d : Dev) (m : Nat) : Dev :=
  let d := d.ss1Off m
  let d := d.setTm m { d.tmS m with byDone := true, ok := false }
  ((d.noteCause m 0xC).showLatch m).grantAll

/-- The envelope of SS1 in an evaluation (R365). -/
def Dev.tmSs1 (d : Dev) (m : Nat) (t : Nat) (w : Int) : Dev :=
  match (d.tmS m).ss1 with
  | none => d.put (R.TM_CNT m) (tmCntF 4) 0
  | some x => d.tmCheck m 4 5 (decide (ss1Bound x (d.tmTol m) t < (w.natAbs : Int)))

/-- Standstill under SS1 (R365), unless the evaluation has tripped. -/
def Dev.tmStill (d : Dev) (m : Nat) (w : Int) : Dev :=
  let s := d.tmS m
  if s.ss1.isNone then d
  else
    let n := if (w.natAbs : Int) ≤ d.tmTol m then s.still + 1 else 0
    let d := d.setTm m { s with still := n }
    if d.sdDev F.SD_DEV_FILT_N ≤ n then d.ss1Done m else d

/-- What UNCERT and the speed keep running: the times of UNC_MAX and ASC_REL (R360, R367). -/
def Dev.tmTimers (d : Dev) (m : Nat) (w : Int) : Dev :=
  let s := d.tmS m
  let unc := d.flag (R.SHD_STAT (d.meShd m)) F.SHD_STAT_UNCERT && d.meShd m != 0x3F
  let low := decide ((w.natAbs : Int) < q8 (d.me m 13 F.ME_ASC_ASC_REL) 4)
  let d := d.setTm m { s with unc := if unc then some (s.unc.getD d.gtc) else none,
                              slow := if low && d.devState == DS.SAFE_HOLD then some (s.slow.getD d.gtc) else none }
  d.putB (R.TM_STAT m) F.TM_STAT_UNCERT unc

/-- UNC_MAX (R360). -/
def Dev.tmUnc (d : Dev) (m : Nat) : Dev :=
  match (d.tmS m).unc with
  | some t => d.tmAtOnce m 0xA (decide (t + 4000000 * d.me m 14 F.ME_MISC_UNC_MAX < d.gtc))
  | none => d

/-- The checks of torque on a valid interval (R360, R361); `old` is the previous evaluation's demand. -/
def Dev.tmChecks (d : Dev) (m : Nat) (t w old : Int) (i : Int × Int) (stale lowFlux : Bool) : Dev :=
  let dem := (d.tmS m).dem
  let abs (x : Int) : Int := x.natAbs
  let tqAbs := q8 (d.me m 9 F.ME_TQ_TQ_ABS) 10
  let dt0 := tqAbs + (d.me m 9 F.ME_TQ_TQ_REL * abs dem).tdiv 256
  let dt := if d.flag (R.TM_STAT m) F.TM_STAT_UNCERT then 2 * dt0 else dt0
  let sign : Int := if w < 0 then -1 else if w = 0 then 0 else 1
  let lim : Int := d.me m 10 F.ME_LIM_I_LIM * 4096
  let d := if lowFlux then (d.tmCheck m 6 1 (decide (lim * lim < 100 * (i.1 * i.1 + i.2 * i.2)))).put (R.TM_CNT m) (tmCntF 0) 0
    else
      let d := d.put (R.TM_CNT m) (tmCntF 6) 0
      if stale then d.tmCheck m 0 9 (decide (tqAbs < t * sign))
      else d.tmCheck m 0 1 (decide (dt < abs (t - dem)) && decide (dt < abs (t - old)))
  let slt := d.me m 0 F.ME_CFG_SLT_EN == 1 && decide (q8 (d.me m 10 F.ME_LIM_SLT_LIM) 1 < abs t)
  let ovc := d.devState == DS.OVERCAST && d.safe.ovcMach / 2 ^ m % 2 == 1
    && decide (q8 (getF (d.spb (0xC14 + 4 * m)) F.RS_OVCM_OVC_TQ) 1 + tqAbs < abs t)
  d.tmCheck m 1 2 (slt || ovc)

/-- The checks of speed (R360, R365), in the table's order. -/
def Dev.tmSpeedChecks (d : Dev) (m : Nat) (w : Int) (lowFlux : Bool) (tick : Nat) : Dev :=
  let abs (x : Int) : Int := x.natAbs
  let d := d.tmCheck m 2 3 (d.me m 0 F.ME_CFG_SLS_EN == 1 && !lowFlux
    && decide (q8 (d.me m 11 F.ME_SPD_SLS_LIM) 4 < abs w))
  let s : Int := if d.me m 0 F.ME_CFG_SDI_DIR = 0 then 1 else -1
  let d := d.tmCheck m 3 4 (d.me m 0 F.ME_CFG_SDI_EN == 1 && decide (w * s < -(d.tmTol m)))
  d.tmSs1 m tick w

/-- Whether a channel of an entry has clipped in an interval (R110). -/
def tmClip (l : List TmSmp) : Bool := l.any fun (x : TmSmp) => decide (15 * 2 ^ 19 ≤ x.y.natAbs)

/-- The end of a continued winding discharge (R374): OUT8, as Channel M has it, no longer reads 3. -/
def Dev.wdisEnd (d : Dev) (m : Nat) : Dev :=
  if d.devState == DS.SAFE_HOLD && d.safe.keep / 2 ^ m % 2 == 1 && d.mState m == MS.DISCHARGE && (d.tmS m).dem8.round != 3 then
    (d.keepEnds m).grantAll
  else d

/-- The mutual recomputation of R363: the next entry of the other engine, from that engine's inputs. -/
def Dev.tmCross (d : Dev) (eng : Nat) : Dev :=
  let other := entriesThat fun m => d.meEn m && d.me m 0 F.ME_CFG_TMON != eng
  let from1 := if eng = 0 then d.safe.xNext0 else d.safe.xNext1
  match ((other.filter fun m => decide (from1 ≤ m)) ++ other).head? with
  | none => d
  | some m =>
    let d := { d with safe := if eng = 0 then { d.safe with xNext0 := m + 1 } else { d.safe with xNext1 := m + 1 } }
    match d.tmEstimate m (d.tmS m).old with
    | some (t, _) =>
      if 16 < (t - (d.tmS m).t).natAbs then
        let d := (d.bump R.TMON_STAT F.TMON_STAT_XCHK_CNT).raise Pg.SAFE Ev.TMON_XCHK
        d.enterHold 4 Ev.TMON_XCHK
      else d
    | none => d

/-- OVERCAST_DONE (R402): every machine that the entry stopped has completed its stop and stands in STO or FAULT. -/
def Dev.overcastDone (d : Dev) : Dev :=
  if d.devState = DS.OVERCAST ∧ d.safe.ovcDone = false
      ∧ ((entriesThat fun m => d.safe.ovcMach / 2 ^ m % 2 == 1).all fun m => !d.granted m && !drives (d.mState m)) then
    let d := { d with safe := { d.safe with ovcDone := true } }
    let d := (d.putB R.SAFE_OUT F.SAFE_OUT_PBRK_M_REL false).putB R.SAFE_OUT F.SAFE_OUT_PBRK_P_REL false
    (d.grantAll).raise Pg.SFX Ev.OVERCAST_DONE
  else d

/-- Bank B faults that stand on a channel an entry names (R360): at once, whenever they were raised. -/
def Dev.tmStanding (d : Dev) (m : Nat) : Dev :=
  let chan (f : RField) : Bool := (d.meSdd m).any fun c => d.flag (R.ADB_CH_STAT c) f
  (d.tmAtOnce m 7 (chan F.ADB_CH_STAT_STUCK)).tmAtOnce m 8 (chan F.ADB_CH_STAT_OVR)

/-- TMON_EVALUATION (R357 to R363): the interval of an entry that has ended. The checks run in the order of the table, so that the first
of several is the recorded cause. Without valid inputs the checks of torque are neither passed nor failed; those of speed, with SS1, take
the speed as it stands in every evaluation (log entry 56, DEDUCED). -/
def Dev.tmEvaluate (d : Dev) (m : Nat) : Dev :=
  let s := d.tmS m
  let e := 400 * d.sdDev F.SD_DEV_EVAL
  let untrusted := d.devState == DS.SAFE_HOLD && d.get R.SAFE_HOLD_INFO F.SAFE_HOLD_INFO_CAUSE == 4
  if !d.meEn m || d.safe.base.isNone || decide (d.gtc < s.next) || untrusted then d
  else
    let obs := d.me m 0 F.ME_CFG_ANG_SRC == 1
    let l := s.smp.filter fun (x : TmSmp) => decide (x.tick < s.next)
    let rest := s.smp.filter fun (x : TmSmp) => !decide (x.tick < s.next)
    let st := R.TM_STAT m
    let tick := s.next
    let n := (tick - d.safe.base.getD 0) / max 1 e
    let d := ((d.setTm m { s with smp := rest, next := tick + e }).tmDemand m (tick - e) tick).wdisEnd m
    let stale := decide (max 1 (d.me m 14 F.ME_MISC_DEM_AGE) ≤ (d.tmS m).age)
    let d := (d.put R.TMON_STAT F.TMON_STAT_EVAL_CNT n).putB st F.TM_STAT_STALE_DEM stale
    let d := d.setReg (R.TM_DEM m) (wordOfInt (d.tmS m).dem)
    let (x, d) := d.tmInputs m l (tick - e) e
    let d := d.setTm m { d.tmS m with old := x.l }
    let (w, d) := d.fit32 x.w
    let d := (d.setReg (R.TM_SPD m) (wordOfInt w)).put (R.TM_ANG m) F.TM_ANG_ANG (x.a / 2 ^ 20)
    let d := (d.putB st F.TM_STAT_LOWFLUX x.low).tmTimers m w
    let est := d.tmEstimate m x.l
    let shadow := if obs then est.isSome else d.flag (R.SHD_STAT (d.meShd m)) F.SHD_STAT_VALID
    let valid := shadow && est.isSome
    let d := d.putB st F.TM_STAT_VALID valid
    let d := match est with
      | some (t, _) =>
        let d := d.setTm m { d.tmS m with t := t }
        let (t, d) := d.fit32 t
        let d := d.setReg (R.TM_TQ m) (wordOfInt t)
        if shadow then (d.setTm m { d.tmS m with ok := true }).tmChecks m t w s.dem x.i stale x.low else d
      | none => d
    let d := d.tmSpeedChecks m w x.low tick
    let d := (((d.tmCheck m 5 6 (!valid || tmClip l)).tmStanding m).tmUnc m)
    let d := d.tmStill m w
    (d.grantAll.tmCross (d.me m 0 F.ME_CFG_TMON)).overcastDone

/-- UNSUPERVISED_CHECK (R374): in SAFE_HOLD with cause 0x4, S1's check of the continuing machines, 1 ms after the entry or after the last
check. -/
def Dev.unsupervised (d : Dev) : Dev :=
  if d.devState = DS.SAFE_HOLD ∧ d.get R.SAFE_HOLD_INFO F.SAFE_HOLD_INFO_CAUSE = 4 ∧ d.safe.uncAt ≤ d.gtc then
    let d := { d with safe := { d.safe with uncAt := d.gtc + msTicks 1 } }
    forN 20 (fun m e =>
      if e.safe.keep / 2 ^ m % 2 = 0 then e
      else
        let s := e.tmS m
        let e := ((e.setTm m { s with smp := [] }).tmDemand m (e.gtc - msTicks 1) e.gtc).wdisEnd m
        let (x, e) := e.tmInputs m s.smp (e.gtc - msTicks 1) (msTicks 1)
        let w := x.w
        let e := ((e.setTm m { e.tmS m with old := x.l }).tmTimers m w).tmUnc m
        match e.tmEstimate m x.l with
        | some (t, _) =>
          let sign : Int := if w < 0 then -1 else if w = 0 then 0 else 1
          e.tmCheck m 0 9 (decide (q8 (e.me m 9 F.ME_TQ_TQ_ABS) 10 < t * sign))
        | none => e) d
  else d

/-! ### Trips at once (R110, R360) -/

/-- A trip of every enabled entry that names a channel. -/
def Dev.sddTrip (d : Dev) (cause : Nat) (p : Nat → Bool) : Dev :=
  forN 20 (fun m e => if e.meEn m && (e.meSdd m).any p then e.tmAtOnce m cause true else e) d

/-- SD_STUCK with Channel M's reaction. -/
def Dev.sdStuckTrip (d : Dev) (c : Nat) : Dev := if d.stuckDue c then (d.sdStuck c).sddTrip 7 (· == c) else d

/-- SDC_FAULT with Channel M's reaction: every channel on the clock. -/
def Dev.sdcFaultTrip (d : Dev) (k : Nat) : Dev :=
  if k < nSdc d.member ∧ d.frozen Pg.ADB = false ∧ d.flag (R.ADB_CLK k) F.ADB_CLK_EN then
    (d.sdcFault k).sddTrip 7 fun c =>
      decide (c < 48) && d.get (R.ADB_CH_CFG c) F.ADB_CH_CFG_CLK == k && d.flag (R.ADB_CH_CFG c) F.ADB_CH_CFG_EN
  else d

/-- FAST_SINC3_OUTPUT with Channel M's reaction to SD_OVR: the flag as this output alone would set it. -/
def Dev.fastSincTrip (d : Dev) (c : Nat) (bits : List Bool) : Dev :=
  let st := R.ADB_CH_STAT c
  let was := d.flag st F.ADB_CH_STAT_OVR
  let e := (d.putB st F.ADB_CH_STAT_OVR false).fastSinc3Output c bits
  if e.flag st F.ADB_CH_STAT_OVR then e.sddTrip 8 (· == c) else e.putB st F.ADB_CH_STAT_OVR was

/-- SINC3_OUTPUT with its readers: the shadows and the torque monitors (R109, R181). -/
def Dev.sincDeliver (d : Dev) (c : Nat) (bits : List Bool) : Dev :=
  let out := d.sincEmits c bits
  let d := d.sinc3Output c bits
  let y := (d.sddS c).y
  if out then (d.shdSample c y).tmSample c y else d

/-! ### STO and SS1 (R364, R365) -/

/-- STO_INPUT_ACTIVE: an input accepted active (R44, R364). -/
def Dev.stoActive (d : Dev) (p : Bool) : Dev :=
  let f := if p then F.SAFE_STAT_STO_P_IN else F.SAFE_STAT_STO_M_IN
  if d.flag R.SAFE_STAT f then d
  else
    let d := (d.putB R.SAFE_STAT f true).raise Pg.SAFE Ev.STO_IN
    if p then d.dropAllP
    else ((entriesThat d.meEn).foldl (fun e m => (e.latchSto m 0xB true).ss1Off m) d).grantAll

/-- STO_INPUT_RELEASE (R364): with STO_AUTO = 1 the input's latch ends with it. -/
def Dev.stoRelease (d : Dev) (p : Bool) : Dev :=
  let f := if p then F.SAFE_STAT_STO_P_IN else F.SAFE_STAT_STO_M_IN
  if !d.flag R.SAFE_STAT f then d
  else
    let d := d.putB R.SAFE_STAT f false
    if p || d.sdDev F.SD_DEV_STO_AUTO == 0 then d
    else
      (forN 20 (fun m e =>
        let s := e.tmS m
        if s.byIn then
          let e := (e.setTm m { s with byIn := false }).showLatch m
          if !e.tripped m && e.get (R.TM_STAT m) F.TM_STAT_CAUSE == 0xB then e.put (R.TM_STAT m) F.TM_STAT_CAUSE 0 else e
        else e) d).grantAll

/-- An STO requested for an entry (R364). -/
def Dev.stoRequest (d : Dev) (m : Nat) : Dev := if d.meEn m then (d.latchSto m 0xC false).ss1Off m else d

/-- A stop of an entry begins (R365). A stop that runs goes on. -/
def Dev.ss1Begin (d : Dev) (m : Nat) (x : Ss1St) : Dev :=
  let s := d.tmS m
  if !d.meEn m || s.ss1.isSome then d
  else (d.setTm m { s with ss1 := some x, still := 0 }).putB (R.TM_STAT m) F.TM_STAT_SS1_ACT true

/-- The stop that an entry's own words describe (R365). -/
def Dev.ss1Of (d : Dev) (m : Nat) : Ss1St :=
  { t0 := d.gtc, w0 := sext 32 (d.reg (R.TM_SPD m)).toNat, num := d.me m 12 F.ME_SS1_SS1_DEC * 256, den := 400000000,
    dly := 4000000 * d.me m 12 F.ME_SS1_SS1_DLY, tmax := 4000000 * d.me m 12 F.ME_SS1_SS1_TMAX }

def Dev.ss1Request (d : Dev) (m : Nat) : Dev := d.ss1Begin m (d.ss1Of m)

/-- A request register written (R386): the entries whose bit rises are requested. -/
def Dev.safeReqWrite (d : Dev) (mid a : Nat) (w : Word) (f : Nat → Dev → Dev) : Dev :=
  let was := d.reg a
  let d := d.plainWrite mid a w
  let now := d.reg a
  (forN 20 (fun m e => if bitOf now m && !bitOf was m then f m e else e) d).grantAll

def Dev.safeReqSto (d : Dev) (mid : Nat) (w : Word) : Dev := d.safeReqWrite mid R.SAFE_REQ_STO w fun m e => e.stoRequest m
def Dev.safeReqSs1 (d : Dev) (mid : Nat) (w : Word) : Dev := d.safeReqWrite mid R.SAFE_REQ_SS1 w fun m e => e.ss1Request m

/-- Whether a lost source's reaction is STO (R399). -/
def Dev.lactSto (d : Dev) : Bool :=
  (List.range 16).any fun s => bitOf (d.reg R.SFX_LOST) s && decide (2 ≤ getF (d.spb 0xC08) (F.RS_LACT_LACT s))

/-- Whether what latched an entry is still present, so that an acknowledgement is ignored (R364, R365): an input, a request, a lost
source, or any check that has tripped. -/
def Dev.ackBlocked (d : Dev) (m : Nat) : Bool :=
  let s := d.tmS m
  let cnt (i : Nat) : Bool := d.get (R.TM_CNT m) (tmCntF i) != 0
  let stops := bitOf (d.reg R.SAFE_REQ_SS1) m || d.get R.SFX_RX_REQ F.SFX_RX_REQ_SS1_SRC != 0 || d.devState == DS.OVERCAST
  let chan (f : RField) : Bool := (d.meSdd m).any fun k => d.flag (R.ADB_CH_STAT k) f
  d.flag R.SAFE_STAT F.SAFE_STAT_STO_M_IN || bitOf (d.reg R.SAFE_REQ_STO) m || d.get R.SFX_RX_REQ F.SFX_RX_REQ_STO_SRC != 0
    || d.lactSto || (s.byDone && stops)
    || s.trips.any fun c => (match c with
        | 1 => cnt 0 || cnt 6
        | 2 => cnt 1
        | 3 => cnt 2
        | 4 => cnt 3
        | 5 => stops
        | 6 => cnt 5
        | 7 => chan F.ADB_CH_STAT_STUCK
        | 8 => chan F.ADB_CH_STAT_OVR
        | 9 => cnt 0
        | 0xA => s.unc.isSome
        | _ => false)

/-- SAFE_ACK for one entry. -/
def Dev.ackEntry (d : Dev) (m : Nat) : Dev :=
  if !d.tripped m || d.ackBlocked m then d
  else
    let d := d.setTm m { d.tmS m with byIn := false, byTrip := false, byDone := false, trips := [], ok := false }
    (d.put (R.TM_STAT m) F.TM_STAT_CAUSE 0).showLatch m

/-- SAFE_ACK_WRITE (R364, R386). -/
def Dev.safeAck (d : Dev) (mid : Nat) (w : Word) : Dev :=
  let ok := d.takenAt mid R.SAFE_ACK
  let d := (d.plainWrite mid R.SAFE_ACK w).setReg R.SAFE_ACK 0
  if ok then (forN 20 (fun m e => if bitOf w m then e.ackEntry m else e) d).grantAll else d

/-- SS1_FAIL (R365): SS1_TMAX is reached before standstill. -/
def Dev.ss1Fail (d : Dev) (m : Nat) : Dev :=
  match (d.tmS m).ss1 with
  | some x => if d.meEn m && decide (x.t0 + x.tmax ≤ d.gtc) then ((d.tmTrip m 5).machEvent m Ev.SS1_FAIL).overcastDone else d
  | none => d

/-- ASC_RELEASE_TIMER (R367): |ω| < ASC_REL has held for 20 ms. -/
def Dev.ascRelease (d : Dev) (m : Nat) : Dev :=
  match (d.tmS m).slow with
  | some t =>
    if d.meEn m && d.devState == DS.SAFE_HOLD && d.me m 0 F.ME_CFG_ASC_HOLD == 1 && d.mState m == MS.ASC
        && d.safe.keep / 2 ^ m % 2 == 1 && decide (t + msTicks 20 ≤ d.gtc) then
      (d.keepEnds m).grantAll
    else d
  | none => d

/-! ### Discharge and brake (R368, R369) -/

def Dev.pinDisP (d : Dev) : Bool := d.pinsLive && d.flag R.SAFE_OUT F.SAFE_OUT_DIS_P_REQ

def Dev.pinDisM (d : Dev) : Bool :=
  d.pinsLive && (d.flag R.SAFE_OUT F.SAFE_OUT_DIS_M_REQ || d.safe.held || (List.range 20).any d.disStands)

/-- The brake's common condition (R369): every entry of the parking-brake set is granted. -/
def Dev.brakeSet (d : Dev) : Bool :=
  d.pinsLive && d.devState != DS.SAFE_HOLD
    && (entriesThat fun m => d.meEn m && d.me m 0 F.ME_CFG_BRK == 1).all d.granted

def Dev.pinBrkP (d : Dev) : Bool :=
  d.brakeSet && d.flag R.SAFE_OUT F.SAFE_OUT_PBRK_P_REL && !d.flag R.SAFE_STAT F.SAFE_STAT_STO_P_IN

def Dev.pinBrkM (d : Dev) : Bool :=
  d.brakeSet && d.flag R.SAFE_OUT F.SAFE_OUT_PBRK_M_REL && !d.flag R.SAFE_STAT F.SAFE_STAT_STO_M_IN

/-- SAFE_OUT as it reads. -/
def Dev.safeOutWord (d : Dev) : Word :=
  setF (d.reg R.SAFE_OUT) F.SAFE_OUT_PINS (b2n d.pinDisP + 2 * b2n d.pinDisM + 4 * b2n d.pinBrkP + 8 * b2n d.pinBrkM)

/-- A write of SAFE_OUT (R386): a request of S1 that begins starts the discharge of every entry with a DC-link channel. -/
def Dev.safeOutWrite (d : Dev) (mid : Nat) (w : Word) : Dev :=
  let was := d.flag R.SAFE_OUT F.SAFE_OUT_DIS_M_REQ
  let l := (entriesThat fun m => d.meEn m && d.me m 1 F.ME_SDD_SDD_VDC != 0x3F).map fun m => (m, d.disStands m)
  let d := d.plainWrite mid R.SAFE_OUT w
  if d.flag R.SAFE_OUT F.SAFE_OUT_DIS_M_REQ && !was then l.foldl (fun e (p : Nat × Bool) => e.startDis p.2 p.1) d else d

/-- DIS_M_LATE (R368). -/
def Dev.disMLate (d : Dev) (m : Nat) : Dev :=
  let s := spGet {} d.safe.disM m
  if d.meEn m && s.at1 != 0 && !s.low && !s.late && decide (s.at1 + msTicks (d.me m 13 F.ME_ASC_DIS_DL_M) ≤ d.gtc + 1) then
    let d := { d with safe := { d.safe with disM := spPut {} d.safe.disM m { s with late := true } } }
    (d.putB R.SAFE_OUT F.SAFE_OUT_DIS_M_LATE true).raiseN Pg.SAFE Ev.DIS_M_LATE m
  else d

/-! ### Meanings -/

def execMachEvaluate (mach : Nat) (s : State) := onLive (fun d => (d.byS0 fun d => d.machEvaluate mach).overcastDone) s
def execTmonEvaluation (entry : Nat) (s : State) := onLive (fun d => d.clocked Pg.TMON fun d => d.tmEvaluate entry) s
def execUnsupervisedCheck (s : State) := onLive (fun d => d.byS1 fun d => d.unsupervised) s
def execSdStuck (sdd : Nat) (s : State) := onLive (fun d => d.sdStuckTrip sdd) s
def execSdcFault (clk : Nat) (s : State) := onLive (fun d => d.sdcFaultTrip clk) s
def execFastSinc3Output (sdd : Nat) (bits : List Bool) (s : State) := onLive (fun d => d.fastSincTrip sdd bits) s
def execSinc3Output (sdd : Nat) (bits : List Bool) (s : State) := onLive (fun d => d.sincDeliver sdd bits) s
def execStoInputActive (ch : Channel) (s : State) := onDev (fun d => d.stoActive (ch == .p)) s
def execStoInputRelease (ch : Channel) (s : State) := onDev (fun d => d.stoRelease (ch == .p)) s
def execSafeReqStoWrite (mid : Nat) (val : Word) (s : State) := onDev (fun d => d.safeReqSto mid val) s
def execSafeReqSs1Write (mid : Nat) (val : Word) (s : State) := onDev (fun d => d.safeReqSs1 mid val) s
def execSafeAckWrite (mid : Nat) (val : Word) (s : State) := onDev (fun d => d.safeAck mid val) s
def execSs1Fail (entry : Nat) (s : State) := onDev (fun d => d.clocked Pg.TMON fun d => d.ss1Fail entry) s
def execAscReleaseTimer (entry : Nat) (s : State) := onDev (fun d => d.clocked Pg.SAFE fun d => d.ascRelease entry) s
def execDisMLate (entry : Nat) (s : State) := onDev (fun d => d.clocked Pg.SAFE fun d => d.disMLate entry) s
def execSpbRecheck (s : State) := onDev (fun d => d.clocked Pg.SAFE fun d => d.spbRecheck) s
def execSafeConfirmWrite (mid : Nat) (val : Word) (s : State) :=
  onState (fun s =>
    let r := safeConfirm s.dev s.mems.flash mid val
    { s with dev := r.1, mems := { s.mems with flash := r.2 } }) s

end Sys2Proof.Machine
end

