-- ==== Sys2Proof/Machine/Rings.lean ====
section
/-! DEFINITION. Cirrus and Cumulus (chapter 14, R389 to R407): bypass, frames, copies and pairs, loss of a source, OVERCAST, the
epoch protocol. Ring A is `false`, Ring B is `true` where a ring is a Bool. -/

namespace Sys2Proof.Machine

def ringIx (b : Bool) : Nat := b2n b
def ringPage (b : Bool) : Nat := if b then Pg.RGB else Pg.RGA

def Dev.srcS (d : Dev) (s : Nat) : SrcSt := spGet {} d.ring.srcs s
def Dev.setSrc (d : Dev) (s : Nat) (v : SrcSt) : Dev := { d with ring := { d.ring with srcs := spPut {} d.ring.srcs s v } }

/-! ### Nodes, cycle and time (R391, R393) -/

/-- CYCLE in ticks. -/
def Dev.cycTicks (d : Dev) : Nat := 400 * max 1 (d.rsRing F.RS_RING_CYCLE)

/-- The present cycle number. -/
def Dev.cycNow (d : Dev) : Int := d.vehicleTime / (d.cycTicks : Int)

/-- TOUT cycles in ticks. -/
def Dev.toutTicks (d : Dev) : Nat := d.rsRing F.RS_RING_TOUT * d.cycTicks

def Dev.ringsUsed (d : Dev) : List Bool := [false, true].filter d.ringUsed

def Dev.inserted (d : Dev) (b : Bool) : Bool := d.flag (R.RG_STAT (ringIx b)) F.RG_STAT_INSERTED

/-- RCFG: the check of the shared part (R391). -/
def Dev.rcfg (d : Dev) : Word := crc32cWords ((List.range 17).map fun k => d.spb (0xBC4 + 4 * k))

def Dev.epPh (d : Dev) : Nat := d.get R.SFX_STAT F.SFX_STAT_EP_PH
def Dev.epNew (d : Dev) : Nat := d.get R.SFX_EP F.SFX_EP_EP_NEW

/-- Whether a tick (with 1 added; 0: never) lies within the last TOUT cycles. -/
def Dev.recent (d : Dev) (t : Nat) : Bool := t != 0 && decide (d.gtc + 1 ≤ t + d.toutTicks)

/-- SFX_SEEN as it reads (R407). -/
def Dev.seenWord (d : Dev) : Word :=
  (List.range 16).foldl (fun (w : Word) s =>
    let x := d.srcS s
    setBit (setBit w s (d.recent x.seenA)) (16 + s) (d.recent x.seenB)) 0

/-! ### Bypass (R390) -/

/-- RING_INSERT. -/
def Dev.ringInsert (d : Dev) (b : Bool) : Dev :=
  let st := d.devState
  let spaced : Bool := !b || (match d.ring.insA with
    | some t => decide (t + 2 * d.cycTicks ≤ d.gtc)
    | none => !d.ringUsed false)
  if d.flag (R.RG_CTRL (ringIx b)) F.RG_CTRL_INSERT && d.flag R.SAFE_STAT F.SAFE_STAT_SPB_LOADED
      && d.get R.SAFE_STAT F.SAFE_STAT_SPB_ERR == 0 && d.ringUsed b && d.flag (R.RG_STAT (ringIx b)) F.RG_STAT_LOCK
      && st != DS.RESET && st != DS.BOOT && st != DS.FATAL && !d.inserted b && spaced then
    let d := d.putB (R.RG_STAT (ringIx b)) F.RG_STAT_INSERTED true
    if b then d else { d with ring := { d.ring with insA := some d.gtc } }
  else d

/-- The switches close (R390, R480). -/
def Dev.ringClose (d : Dev) : Dev :=
  let d := (d.putB (R.RG_STAT 0) F.RG_STAT_INSERTED false).putB (R.RG_STAT 1) F.RG_STAT_INSERTED false
  { d with ring := { d.ring with insA := none } }

def Dev.ringPresent (d : Dev) (b : Bool) : Bool := !b || hasRingB d.member

/-- BYPASS_FAULT. -/
def Dev.bypassFault (d : Dev) (b : Bool) : Dev :=
  if d.ringPresent b then (d.putB (R.RG_STAT (ringIx b)) F.RG_STAT_BYP_ERR true).raise (ringPage b) Ev.BYPASS_FAULT else d

/-- RING_LINK (R405): an in-port gains or loses symbol lock. -/
def Dev.ringLink (d : Dev) (b up : Bool) : Dev :=
  if d.ringPresent b && d.flag (R.RG_STAT (ringIx b)) F.RG_STAT_LOCK != up then
    (d.putB (R.RG_STAT (ringIx b)) F.RG_STAT_LOCK up).raise (ringPage b) Ev.RING_LINK
  else d

/-! ### The frame (R394) -/

/-- Frame word DEMk: exponent and mantissa of OUT6 as last committed. -/
def Dev.demWord (d : Dev) (k : Nat) : Word :=
  let c := getF (d.spb 0xC10) (F.RS_DEM_DEM_CTX k)
  if d.ctxPresent c then
    let o := d.outOpd c 6
    BitVec.ofNat 32 (wrapN 6 o.e * 2 ^ 20 + wrapN 20 (mantOf o.x o.e).1)
  else 0

/-- Sources accepted in the current epoch during the last TOUT cycles. -/
def Dev.seenMask (d : Dev) : Nat :=
  ((List.range 16).filter fun s => (d.srcS s).inEpoch && d.recent (d.srcS s).epAt).foldl (fun n s => n + 2 ^ s) 0

/-- The two checks over the first 14 words, each behind its channel's byte. -/
def frameCrc (tag : Byte) (ws : List Word) : Word := crc32c (tag :: (ws.take 14).flatMap bytesOfWord)

/-- The frame of the present tick. -/
def Dev.frame (d : Dev) : List Word :=
  let n := d.rsNode
  let st := d.devState
  let w (x : Nat) : Word := BitVec.ofNat 32 x
  let w3 := st * 2 ^ 28 + d.rsPart n * 2 ^ 26 + b2n (d.flag R.SAFE_STAT F.SAFE_STAT_STO_P_IN) * 2 ^ 25
    + b2n (d.flag R.SAFE_STAT F.SAFE_STAT_STO_M_IN) * 2 ^ 24 + b2n (st == DS.SAFE_HOLD) * 2 ^ 23
    + b2n (st == DS.OVERCAST) * 2 ^ 22 + d.epPh * 2 ^ 20 + b2n d.ring.okP * 2 ^ 19 + b2n d.ring.okM * 2 ^ 18 + d.seenMask
  let ws : List Word :=
    [w (0xC5 * 2 ^ 24 + 2 ^ 20 + n * 2 ^ 16 + d.epoch), w d.ring.seq, w (wrapN 32 d.cycNow), w w3, d.reg R.SAFE_GRANT,
     d.reg R.SAFE_TRIP, d.reg R.SFX_TX_REQ, d.reg R.SFX_EP, d.demWord 0, d.demWord 1, d.demWord 2, d.demWord 3, d.rcfg, 0]
  ws ++ [frameCrc 0x50 ws, frameCrc 0x4D ws]

def fw (ws : List Word) (k : Nat) : Word := nthD 0 ws k
def fwEpoch (ws : List Word) : Nat := (fw ws 0).toNat % 2 ^ 16
def fwSrc (ws : List Word) : Nat := (fw ws 0).toNat / 2 ^ 16 % 16
def fwPh (w3 : Word) : Nat := w3.toNat / 2 ^ 20 % 4

/-! ### The epoch protocol (R403) -/

/-- Words 0 to 3 and 7 of a source's last valid copy on a ring, and the tick after it. -/
def srcEp (s : SrcSt) (b : Bool) : List Word := if b then s.epB else s.epA
def srcSeen (s : SrcSt) (b : Bool) : Nat := if b then s.seenB else s.seenA

/-- The proposals of a source's copies within the last TOUT cycles (R403): ring, EP_NEW, tick after the last such copy. -/
def Dev.recentProps (d : Dev) (s : Nat) : List (Bool × Nat × Nat) := (d.srcS s).props.filter fun p => d.recent p.2.2

/-- Whether a source has proposed the node's EP_NEW on every used ring within the last TOUT cycles (R403). -/
def Dev.proposes (d : Dev) (s : Nat) : Bool :=
  d.ringsUsed.all fun b => (d.recentProps s).any fun p => p.1 == b && p.2.1 == d.epNew

/-- Whether words show ACCEPT with both bits and an EP_NEW in a cycle. -/
def showsAccept (w3 w7 cycW : Word) (new : Nat) (c : Int) : Bool :=
  fwPh w3 == 2 && bitOf w3 19 && bitOf w3 18 && w7.toNat / 2 ^ 16 == new && cycW.toNat == wrapN 32 c

/-- The protocol's steps 2 to 4 on what has been seen. Accepting needs TL_SYNC_STAT.LOCKED (R393) and both supervisor pairs (R485). -/
def Dev.epUpdate (d : Dev) : Dev :=
  if d.epPh = 0 then d
  else
    let mask := (d.peers.filter d.proposes).foldl (fun n s => n + 2 ^ s) (2 ^ d.rsNode)
    let d := d.put R.SFX_EP F.SFX_EP_EP_ACK mask
    let up := !d.flag R.RST_DOM F.RST_DOM_S0_HELD && !d.flag R.RST_DOM F.RST_DOM_S1_HELD
    let all := up && d.peers.all fun s => mask / 2 ^ s % 2 == 1
    let d := if all && d.epPh == 1 && d.flag R.TL_SYNC_STAT F.TL_SYNC_STAT_LOCKED then
        ({ d with ring := { d.ring with okP := true, okM := true } } : Dev).put R.SFX_STAT F.SFX_STAT_EP_PH 2
      else d
    let c := d.ring.sentCyc - 1
    let tx := d.ring.tx
    let shown := showsAccept (fw tx 3) (fw tx 7) (fw tx 2) d.epNew c && d.peers.all fun s => d.ringsUsed.all fun b =>
      let e := srcEp (d.srcS s) b
      showsAccept (fw e 3) (fw e 4) (fw e 2) d.epNew c
    if d.epPh = 2 ∧ d.ring.commitAt = none ∧ shown = true then
      { d with ring := { d.ring with commitAt := some ((c + 2 + 15) / 16 * 16) } }
    else d

/-- A valid copy at the protocol (R396, R397): what it shows is kept; a greater EP_NEW is taken. -/
def Dev.epCopy (d : Dev) (b : Bool) (ws : List Word) : Dev :=
  let s := fwSrc ws
  let x := d.srcS s
  let e := (ws.take 4) ++ [fw ws 7]
  let new := (fw ws 7).toNat / 2 ^ 16
  let keep := (d.recentProps s).filter fun (p : Bool × Nat × Nat) => !(p.1 == b && p.2.1 == new)
  let x : SrcSt := { x with props := if fwPh (fw ws 3) = 1 ∨ fwPh (fw ws 3) = 2 then (b, new, d.gtc + 1) :: keep else x.props }
  let d := d.setSrc s (if b then { x with seenB := d.gtc + 1, epB := e } else { x with seenA := d.gtc + 1, epA := e })
  let old := d.ring.greats.filter fun (p : Nat × Nat) => d.recent p.1
  let d := { d with ring := { d.ring with greats := (d.gtc + 1, fwEpoch ws) :: old } }
  let d := if d.epPh ≠ 0 ∧ d.epNew < new then
      let d := (d.put R.SFX_EP F.SFX_EP_EP_NEW new).put R.SFX_STAT F.SFX_STAT_EP_PH 1
      { d with ring := { d.ring with okP := false, okM := false, commitAt := none } }
    else d
  d.epUpdate

/-- The EP_NEW of step 1 (R403): one more than the greatest EPOCH or EP_NEW of the last TOUT cycles, the node's own among them; a greater
one that frames show is taken itself (R404). -/
def Dev.firstNew (d : Dev) : Nat :=
  let top := ((d.ring.greats.filter fun (p : Nat × Nat) => d.recent p.1).map fun (p : Nat × Nat) => p.2).foldl max
    (max d.epoch d.epNew)
  let shown := ((List.range 16).flatMap fun s => (d.recentProps s).map fun p => p.2.1).foldl max 0
  if top < shown then shown else if 65535 ≤ top then 1 else top + 1

/-- The rejoin command (R403, step 1); none where it is refused. -/
def Dev.rejoin (d : Dev) : Option Dev :=
  let st := d.devState
  if (st = DS.READY ∧ (d.epoch = 0 ∨ d.flag R.SFX_STAT F.SFX_STAT_SPLIT = true)) ∨ (st = DS.OVERCAST ∧ d.safe.ovcDone = true) then
    let d := (d.put R.SFX_EP F.SFX_EP_EP_NEW d.firstNew).put R.SFX_STAT F.SFX_STAT_EP_PH 1
    let d := { d with ring := { d.ring with epStart := d.cycNow, okP := false, okM := false, commitAt := none } }
    some d.epUpdate
  else none

/-- Back to NORMAL. -/
def Dev.epNormal (d : Dev) : Dev :=
  let d := (d.setReg R.SFX_EP 0).put R.SFX_STAT F.SFX_STAT_EP_PH 0
  { d with ring := { d.ring with okP := false, okM := false, commitAt := none } }

/-- EPOCH_COMMIT: the commit cycle has begun. -/
def Dev.epochCommit (d : Dev) : Dev :=
  match d.ring.commitAt with
  | some c =>
    if d.epPh = 2 ∧ c ≤ d.cycNow then
      let d := (d.put R.SFX_STAT F.SFX_STAT_EPOCH d.epNew).putB R.SFX_STAT F.SFX_STAT_SPLIT false
      let d := (d.setReg R.SFX_LOST 0).epNormal
      let d := d.peers.foldl (fun e s =>
        e.setSrc s { e.srcS s with last := none, accAt := e.gtc + 1, inEpoch := false }) d
      let d := ({ d with ring := { d.ring with epCyc := some d.cycNow } } : Dev)
      let d := d.ringOk.raise Pg.SFX Ev.EPOCH_COMMIT
      if d.devState = DS.OVERCAST then d.goSafe DS.READY Ev.EPOCH_COMMIT true else d
    else d
  | none => d

/-- EPOCH_FAIL. -/
def Dev.epochFail (d : Dev) : Dev :=
  if d.epPh ≠ 0 ∧ d.ring.epStart + (max 1 (d.rsRing F.RS_RING_EP_TOUT) : Nat) ≤ d.cycNow then
    d.epNormal.raise Pg.SFX Ev.EPOCH_FAIL
  else d

/-! ### Reception (R395 to R397) -/

/-- FRAME_SEND (R393): the own slot of the cycle has come, on a ring the node is inserted in. -/
def Dev.frameSend (d : Dev) : Dev :=
  let c := d.cycNow
  let into := d.vehicleTime - c * (d.cycTicks : Int)
  if (d.inserted false || d.inserted true) && decide ((800 * (d.rsNode + 1) : Nat) ≤ into) && d.ring.sentCyc != c + 1 then
    let d := if d.ring.began then d else { d with ring := { d.ring with seq := 1, began := true } }
    let ws := d.frame
    ({ d with ring := { d.ring with sentCyc := c + 1, txTick := d.gtc, tx := ws } } : Dev).epUpdate
  else d

/-- The deadline of a source (R398); none before its first acceptance. -/
def Dev.deadline (d : Dev) (s : Nat) : Option Nat :=
  let t := (d.srcS s).accAt
  if t = 0 then none else some (t - 1 + d.toutTicks)

/-- Requests of an accepted frame of the current epoch (R400). -/
def Dev.frameReqs (d : Dev) (s : Nat) (ws : List Word) : Dev :=
  let n := d.rsNode
  let w6 := fw ws 6
  let sto := bitOf w6 n
  let ss1 := bitOf w6 (16 + n)
  let hadSto := bitOf (d.reg R.SFX_RX_REQ) s
  let hadSs1 := bitOf (d.reg R.SFX_RX_REQ) (16 + s)
  let d := d.setReg R.SFX_RX_REQ (setBit (setBit (d.reg R.SFX_RX_REQ) s sto) (16 + s) ss1)
  let d := if sto && !hadSto then (entriesThat d.meEn).foldl (fun e m => e.stoRequest m) d else d
  let d := if ss1 && !hadSs1 then (entriesThat d.meEn).foldl (fun e m => e.ss1Request m) d else d
  let d := if (sto && !hadSto) || (ss1 && !hadSs1) then d.grantAll else d
  d.raiseNIf ((sto && !hadSto) || (ss1 && !hadSs1)) Pg.SFX Ev.RING_REQ s

/-- The SEQ test of a frame (R396, R397). -/
def Dev.seqNewer (d : Dev) (ws : List Word) : Bool :=
  match (d.srcS (fwSrc ws)).last with
  | none => true
  | some p => decide (0 < sext 32 (wrapN 32 (((fw ws 1).toNat : Int) - p)))

/-- A frame accepted from its pair (R396 to R398). -/
def Dev.frameAccept (d : Dev) (ws : List Word) : Dev :=
  let s := fwSrc ws
  let x := d.srcS s
  let q := (fw ws 1).toNat
  if !d.seqNewer ws then d
  else
    let slack := !d.lost s && d.deadline s == some d.gtc
    let cur := d.epoch != 0 && fwEpoch ws == d.epoch
    let d := d.setSrc s { x with
      last := some q
      accAt := d.gtc + 1
      inEpoch := x.inEpoch || cur
      epAt := if cur then d.gtc + 1 else x.epAt }
    let d := if slack then d.zeroSlack 1 s else d
    let d := forN 16 (fun k e => e.setReg (R.SFX_FRAME s k) (fw ws k)) d
    if cur && !d.lost s then d.frameReqs s ws else d

/-- A single copy accepted after its pair's time (R396): the missing copy of a used ring shows, unless the frame is discarded. -/
def Dev.singleAccept (d : Dev) (c : CopySt) : Dev :=
  let d := if !d.seqNewer c.words then d
    else if c.b then
      (if d.ringUsed false then (d.bump R.SFX_DEG F.SFX_DEG_DEG_A).raiseN Pg.SFX Ev.DEGRADED_A (fwSrc c.words) else d)
    else if d.ringUsed true then (d.bump R.SFX_DEG F.SFX_DEG_DEG_B).raiseN Pg.SFX Ev.DEGRADED_B (fwSrc c.words) else d
  d.frameAccept c.words

/-- 40 µs in ticks. -/
def pairTicks : Nat := 16000

/-- A valid copy at the pairing (R396). A first copy whose 40 µs have passed is decided alone. -/
def Dev.pairCopy (d : Dev) (b : Bool) (ws : List Word) : Dev :=
  let s := fwSrc ws
  let x := d.srcS s
  match x.wait.find? fun (c : CopySt) => fw c.words 1 == fw ws 1 with
  | none => d.setSrc s { x with wait := x.wait ++ [{ b := b, words := ws, tick := d.gtc }] }
  | some c =>
    let d1 := d.setSrc s { x with wait := x.wait.erase c }
    if c.tick + pairTicks < d.gtc then
      let d := d1.singleAccept c
      d.setSrc s { d.srcS s with wait := (d.srcS s).wait ++ [{ b := b, words := ws, tick := d.gtc }] }
    else if c.b = b then d
    else
      let d := d1
      let d := if c.tick + pairTicks = d.gtc then d.zeroSlack 1 s else d
      if c.words = ws then d.frameAccept ws
      else (d.bump R.SFX_ERR F.SFX_ERR_MM_CNT).raiseN Pg.SFX Ev.FRAME_MISMATCH s

/-- 8b/10b code errors at an in-port (R406), with or without an open switch. -/
def Dev.codeErrs (d : Dev) (b : Bool) (n : Nat) : Dev :=
  if d.ringPresent b then d.addSat (R.RG_CNT (ringIx b)) F.RG_CNT_CODE_CNT n else d

/-- COPY_RECEIVE (R393, R395): the own frame measures the round trip; any other copy is checked. -/
def Dev.copyReceive (d : Dev) (b : Bool) (ws : List Word) : Dev :=
  if ws.length ≠ 16 ∨ d.inserted b = false then d
  else if fw ws 14 ≠ frameCrc 0x50 ws ∨ fw ws 15 ≠ frameCrc 0x4D ws then
    (d.bump (R.RG_CNT (ringIx b)) F.RG_CNT_CRC_CNT).raise (ringPage b) Ev.RING_CRC_ERR
  else if (fw ws 0).toNat / 2 ^ 20 ≠ 0xC51 then d
  else if fwSrc ws = d.rsNode then d.put (R.RG_RTT (ringIx b)) F.RG_RTT_RTT (min 65535 (d.gtc - d.ring.txTick))
  else if d.rsExpect (fwSrc ws) = false then d
  else
    let badCfg := fw ws 12 != d.rcfg
    let off := sext 32 (wrapN 32 ((fw ws 2).toNat - d.cycNow))
    let late := decide (off < -1) || decide (1 < off)
    let d := if badCfg then (d.bump R.SFX_ERR F.SFX_ERR_LATE_CNT).raiseN Pg.SFX Ev.RING_CFG_MISMATCH (fwSrc ws) else d
    let d := if late then (d.bump R.SFX_ERR F.SFX_ERR_LATE_CNT).raiseN Pg.SFX Ev.FRAME_LATE (fwSrc ws) else d
    if badCfg || late then d else (d.epCopy b ws).pairCopy b ws

/-- PAIR_TIMEOUT (R396). -/
def Dev.pairTimeout (d : Dev) (s : Nat) : Dev :=
  let x := d.srcS s
  match x.wait.find? fun (c : CopySt) => decide (c.tick + pairTicks ≤ d.gtc) with
  | some c => (d.setSrc s { x with wait := x.wait.erase c }).singleAccept c
  | none => d

/-! ### Loss of a source, OVERCAST (R398 to R402) -/

/-- A source lost with its reaction (R398, R399). -/
def Dev.srcLost (d : Dev) (s : Nat) : Dev :=
  let x := d.srcS s
  let d := (d.setSrc s { x with last := none }).setReg R.SFX_LOST (setBit (d.reg R.SFX_LOST) s true)
  let d := d.ringOk.raiseN Pg.SFX Ev.RING_SRC_LOST s
  let act := getF (d.spb 0xC08) (F.RS_LACT_LACT s)
  let en := entriesThat d.meEn
  if act = 0 then d
  else if act = 1 then
    let d := en.foldl (fun e m => e.ss1Request m) d
    { d with ring := { d.ring with stops := en } }
  else en.foldl (fun e m => e.tmTrip m 0xC) d

/-- RING_SRC_LOST: the deadline has passed. -/
def Dev.ringSrcLost (d : Dev) (s : Nat) : Dev :=
  match d.deadline s with
  | some t => if d.peers.contains s && !d.lost s && decide (t ≤ d.gtc) then d.srcLost s else d
  | none => d

/-- Whether the node is split (R401). -/
def Dev.isSplit (d : Dev) : Bool :=
  let other := d.peers.filter fun s => d.rsPart s != d.rsPart d.rsNode
  !other.isEmpty && other.all d.lost

/-- The stop of an entry in OVERCAST (R402): a stop that runs keeps its start. -/
def Dev.overcastStop (d : Dev) (m : Nat) : Dev :=
  let ramp := max 1 (400000 * getF (d.spb 0xC0C) F.RS_OVC_OVC_RAMP)
  let w := sext 32 (d.reg (R.TM_SPD m)).toNat
  match (d.tmS m).ss1 with
  | some x => d.setTm m { d.tmS m with ss1 := some { x with num := (x.w0.natAbs : Int), den := ramp, tmax := 2 * ramp } }
  | none => d.ss1Begin m { t0 := d.gtc, w0 := w, num := (w.natAbs : Int), den := ramp, dly := 0, tmax := 2 * ramp }

/-- Machines that the entry into OVERCAST stops (R402): granted, and not in ASC, DISCHARGE, STO or FAULT. -/
def Dev.overcastSet (d : Dev) : List Nat :=
  entriesThat fun m => d.granted m && !d.tripped m && (drives (d.mState m) || d.mState m == MS.CATCH)

/-- Entry into OVERCAST (R401, R402). -/
def Dev.enterOvercast (d : Dev) : Dev :=
  let l := d.overcastSet
  let d := { d with safe := { d.safe with ovcMach := (l.map fun m => 2 ^ m).sum, ovcDone := false } }
  let d := { d with ring := { d.ring with clamp := some d.gtc } }
  let d := d.goSafe DS.OVERCAST Ev.OVERCAST_ENTER true
  if d.devState = DS.OVERCAST then ((l.foldl (fun e m => e.overcastStop m) d).raise Pg.SFX Ev.OVERCAST_ENTER).overcastDone
  else d

/-- CYCLE_BOUNDARY (R397, R398, R401): a new cycle has begun. -/
def Dev.cycleBoundary (d : Dev) : Dev :=
  let c := d.cycNow
  if d.flag R.SAFE_STAT F.SAFE_STAT_SPB_LOADED && d.ring.cyc != some c then
    let d := { d with ring := { d.ring with cyc := some c, seq := if d.ring.began then (d.ring.seq + 1) % 2 ^ 32 else d.ring.seq } }
    let d := d.peers.foldl (fun e s => if e.epoch != 0 && e.ring.epCyc != some c && !(e.srcS s).inEpoch && !e.lost s then
        e.srcLost s else e) d
    let d := d.epUpdate
    if d.isSplit && !d.flag R.SFX_STAT F.SFX_STAT_SPLIT then
      if d.devState = DS.RUN then (d.putB R.SFX_STAT F.SFX_STAT_SPLIT true).enterOvercast
      else if d.devState = DS.READY then d.putB R.SFX_STAT F.SFX_STAT_SPLIT true else d
    else d.overcastDone
  else d

/-- RING_STATUS_POLL (R399): Garmal issues MACH_STOP for what has been lost and sets the overcast clamps, in OVERCAST also of a
machine that has come to RUN since (R333). A stop that meets a reaction is discarded (R335). -/
def Dev.ringPoll (d : Dev) : Dev :=
  let d := d.ring.stops.foldl (fun e m => if e.cmdLoses m then e else e.machStop m 0) d
  let d := { d with ring := { d.ring with stops := [] } }
  match d.ring.clamp with
  | some t =>
    if d.devState = DS.OVERCAST then
      forN 20 (fun m e => if ((e.machS m).ovcDem.map (·.2)) == some t then e else e.machOvercast m t) d
    else { d with ring := { d.ring with clamp := none } }
  | none => d

/-- SFX_FRAME_READ (R407): a read of word 0 latches the frame for the reader. -/
def Dev.sfxFrameRead (d : Dev) (mid s : Nat) : Dev :=
  if s < 16 then (forN 16 (fun k e => e.latchW mid (R.SFX_FRAME s k) (e.reg (R.SFX_FRAME s k))) d).answer mid (d.reg (R.SFX_FRAME s 0))
  else d

/-- TM_TQ_READ (R387). -/
def Dev.tmTqRead (d : Dev) (mid m : Nat) : Dev :=
  if m < 20 then
    (forN 6 (fun k e => if k = 0 then e else e.latchW mid (R.TM_TQ m + 4 * k) (e.reg (R.TM_TQ m + 4 * k))) d).answer mid
      (d.reg (R.TM_TQ m))
  else d

/-! ### Meanings -/

def execRingInsert (ring : Ring) (s : State) := onDev (fun d => d.clocked (ringPage (ring == .b)) fun d => d.ringInsert (ring == .b)) s
def execBypassFault (ring : Ring) (s : State) := onDev (fun d => d.bypassFault (ring == .b)) s
def execRingLink (ring : Ring) (up : Bool) (s : State) := onDev (fun d => d.clocked (ringPage (ring == .b)) fun d => d.ringLink (ring == .b) up) s
def execFrameSend (s : State) := onDev (fun d => d.clocked Pg.SFX fun d => d.frameSend) s
def execCopyReceive (ring : Ring) (frame : FrameCopy) (s : State) :=
  onDev (fun d => d.clocked (ringPage (ring == .b)) fun d => (d.codeErrs (ring == .b) frame.codes).copyReceive (ring == .b) frame.words) s
def execPairTimeout (src : Nat) (s : State) := onDev (fun d => d.clocked Pg.SFX fun d => d.pairTimeout src) s
def execRingSrcLost (src : Nat) (s : State) := onDev (fun d => d.clocked Pg.SFX fun d => d.ringSrcLost src) s
def execCycleBoundary (s : State) := onDev (fun d => d.clocked Pg.SFX fun d => d.cycleBoundary) s
def execEpochCommit (s : State) := onDev (fun d => d.clocked Pg.SFX fun d => d.epochCommit) s
def execEpochFail (s : State) := onDev (fun d => d.clocked Pg.SFX fun d => d.epochFail) s
def execRingStatusPoll (s : State) := onDev (fun d => d.byS0 fun d => d.ringPoll) s
def execSfxFrameRead (mid src : Nat) (s : State) := onDev (fun d => d.sfxFrameRead mid src) s
def execTmTqRead (mid entry : Nat) (s : State) := onDev (fun d => d.tmTqRead mid entry) s

end Sys2Proof.Machine
end

