-- ==== Sys2Proof/Machine/Garmal.lean ====
section
/-! DEFINITION. The Garmal command protocol (chapter 15, R423 to R430): messages, responses, and the commands that S0 and S1
serve on channels 0 to 3. -/

namespace Sys2Proof.Machine

/-! ### Messages (R424 to R426) -/

def ST.OK : Nat := 0
def ST.CLAIM_CONFLICT : Nat := 1
def ST.CLAIM_ABSENT : Nat := 2
def ST.MACH_UNDEFINED : Nat := 3
def ST.MACH_CFG_ERR : Nat := 4
def ST.MACH_BUSY : Nat := 5
def ST.BAD_STATE : Nat := 6
def ST.BAD_ARG : Nat := 7
def ST.BAD_CODE : Nat := 8
def ST.DENIED : Nat := 9
def ST.WIN_ERR : Nat := 0xA
def ST.BAD_LEN : Nat := 0xB

/-- What a command yields: the device, the status and the arguments of its response. -/
structure Ans where
  dev : Dev
  st : Nat := 0
  args : List Word := []
  deriving DecidableEq, Repr

/-- Whether the supervisor that serves a channel runs (R427, R485): after BOOT, with its binding, and not held in reset. -/
def Dev.garAlive (d : Dev) (ch : Nat) : Bool :=
  let st := d.devState
  decide (ch < 4) && st != DS.RESET && st != DS.BOOT && d.flag (R.MBX_BIND ch) F.MBX_BIND_VALID
    && !d.peerRst (if ch < 2 then Mid.S0 else Mid.S1)

/-- The header of the complete message that waits on a served channel whose last response has gone out (R424, R425). -/
def Dev.garReady (d : Dev) (ch : Nat) : Option Word :=
  let q := (d.mbxS ch).ba
  match q with
  | [] => none
  | h :: _ =>
    if d.garAlive ch && (d.garS ch).held.isEmpty && decide (h.toNat / 2 ^ 8 % 8 + 1 ≤ q.length) then some h else none

/-- The channel whose turn is next (R425): the one after the channel served last. -/
def Dev.garTurn (d : Dev) : Nat :=
  match (List.range 4).find? fun c => (d.garS c).last with
  | some c => (c + 1) % 4
  | none => 0

/-- The header of the message that Garmal takes next, where its channel is this one (R425): channels are served in turn, in ascending order,
and one without a complete message is passed over. -/
def Dev.garHead (d : Dev) (ch : Nat) : Option Word :=
  match ((List.range 4).map fun k => (d.garTurn + k) % 4).find? fun c => (d.garReady c).isSome with
  | some c => if c = ch then d.garReady ch else none
  | none => none

/-- The words of the message taken; the channel has had its turn. -/
def Dev.garTake (d : Dev) (ch n : Nat) : Dev :=
  let d := forN 4 (fun c e => e.setGar c { e.garS c with last := c == ch }) d
  let q := d.mbxS ch
  let full := decide (q.ba.length = 8)
  (d.setMbx ch ((List.range n).foldl (fun (s : MbxSt) _ => s.pop 1) q)).raiseIf full Pg.MBX Ev.MBX_SPACE

/-- Arguments of the message at the head of a channel. -/
def Dev.garArgs (d : Dev) (ch : Nat) (h : Word) : List Word := ((d.mbxS ch).ba.drop 1).take (h.toNat / 2 ^ 8 % 8)

/-- The one response (R424, R425). -/
def Dev.respond (d : Dev) (ch : Nat) (h : Word) (st : Nat) (args : List Word) : Dev :=
  let r := msgHeader (h.toNat / 2 ^ 24) (h.toNat / 2 ^ 16) 1 args.length st :: args
  (d.setGar ch { d.garS ch with held := r }).sendHeld ch

/-- Codes that a supervisor serves (R427, R429). -/
def servedCodes (ch : Nat) : List Nat :=
  if ch < 2 then [0x01, 0x02, 0x03, 0x04, 0x10, 0x11, 0x12, 0x20, 0x21, 0x22, 0x23, 0x24, 0x25, 0x26, 0x30, 0x31, 0x32]
  else [0x01, 0x02, 0x04, 0x40, 0x41, 0x42, 0x43, 0x44]

/-- Whether the message is a command that its supervisor serves. -/
def servedMsg (ch : Nat) (h : Word) : Bool := h.toNat / 2 ^ 14 % 4 == 0 && (servedCodes ch).contains (h.toNat / 2 ^ 24)

/-- A command of one code on a channel: the message is taken, LEN and the device state are checked, the command is carried out,
the response is sent. Without such a message nothing happens. -/
def garCmd (ch code : Nat) (len : List Word → Bool) (states : Nat → Bool) (f : Dev → Mems → List Word → Ans × Mems) (s : State) :
    Host.Outcome State Fault Refusal :=
  let d := s.dev
  match d.garHead ch with
  | none => .next s
  | some h =>
    if servedMsg ch h && h.toNat / 2 ^ 24 == code then
      let args := d.garArgs ch h
      let e := d.garTake ch (args.length + 1)
      if !len args then .next { s with dev := e.respond ch h ST.BAD_LEN [] }
      else if !states e.devState then .next { s with dev := e.respond ch h ST.BAD_STATE [] }
      else
        let r := f e s.mems args
        .next { s with dev := r.1.dev.respond ch h r.1.st r.1.args, mems := r.2 }
    else .next s

/-- A command that leaves the memories as they are. -/
def garDev (ch code : Nat) (len : List Word → Bool) (states : Nat → Bool) (f : Dev → List Word → Ans) (s : State) :
    Host.Outcome State Fault Refusal := garCmd ch code len states (fun d m args => (f d args, m)) s

def lenIs (n : Nat) (args : List Word) : Bool := args.length == n
def anyState (_ : Nat) : Bool := true
def fromConfigure (st : Nat) : Bool := decide (DS.CONFIGURE ≤ st)
def fromCommission (st : Nat) : Bool := decide (DS.COMMISSION ≤ st)
def fromReady (st : Nat) : Bool := decide (DS.READY ≤ st)
def readyRun (st : Nat) : Bool := st == DS.READY || st == DS.RUN

/-! ### Units of machines (R325, R326, R426) -/

/-- What the ownership of a unit rests on, by its KIND. -/
def kindOwn (k n : Nat) : Own :=
  match k with
  | 0x1 => .unit (R.TL_SLOT_CLAIM n) (Pg.TLS (n / 8))
  | 0x2 => .unit (R.CMP_CLAIM n) (Pg.CMP (n / 36))
  | 0x3 => .unit (R.ADA_LCLAIM n) Pg.ADA
  | 0x4 => .page (Pg.POS n)
  | 0x5 => .unit (R.EXC_CLAIM n) Pg.EXC
  | 0x6 => .unit (R.EMU_CLAIM n) Pg.EMU
  | 0x7 => .unit (R.ACC_CLAIM n) (Pg.ACC (n / 64))
  | 0x8 => .unit (R.MMX_CLAIM n) (Pg.MMX (n / 64))
  | 0x9 => .unit (R.LEC_CTX_CLAIM n) (Pg.CTX (n / 8))
  | 0xA => .unit (R.TRK_CLAIM n) Pg.TRK
  | _ => .page (Pg.PWT n)

/-- Whether the member has a unit. -/
def kindPresent (m : Member) (k n : Nat) : Bool :=
  match k with
  | 0x1 => decide (n < 32)
  | 0x2 => decide (n < nCmp m)
  | 0x3 => decide (n < nSlices m)
  | 0x4 => decide (n < nPos m)
  | 0x5 => decide (n < 4)
  | 0x6 => decide (n < 4)
  | 0x7 => decide (n < nAcc m)
  | 0x8 => decide (n < nMmx m)
  | 0x9 => decide (n < nCtx m)
  | 0xA => decide (n < nTracks)
  | 0xB => groupPresent m n
  | _ => false

/-- The master that holds what ownership rests on; 0xF where none does. -/
def Dev.holder (d : Dev) : Own → Nat
  | .page p => d.pageOwner p
  | .unit c p => if d.get c F.CLAIM_OWNER = 0xF then d.pageOwner p else d.get c F.CLAIM_OWNER

/-- A claim by S0. -/
def Dev.claimUnit (d : Dev) (o : Own) : Dev :=
  match o with
  | .page p => if d.pageOwner p = 0 then d else d.pageClaim Mid.S0 p 0
  | .unit c _ => if d.get c F.CLAIM_OWNER = 0 then d else d.unitClaim Mid.S0 c 0

/-- A unit as an argument of a response. -/
def unitArg (k n : Nat) : Word := BitVec.ofNat 32 (k % 16 * 2 ^ 12 + n % 2 ^ 10)

/-- Claims for a machine (R326): checked all before the first is made. -/
def Dev.claimAll (d : Dev) (m : Nat) (us : List (Nat × Nat)) (after : Dev → Dev) : Ans :=
  let o (u : Nat × Nat) : Own := kindOwn u.1 u.2
  let held := us.find? fun (u : Nat × Nat) => kindPresent d.member u.1 u.2 && d.holder (o u) != 0xF && d.holder (o u) != 0
  match held with
  | some u => { dev := d, st := ST.CLAIM_CONFLICT, args := [unitArg u.1 u.2, BitVec.ofNat 32 (d.holder (o u))] }
  | none => match us.find? fun (u : Nat × Nat) => !kindPresent d.member u.1 u.2 with
    | some u => { dev := d, st := ST.CLAIM_ABSENT, args := [unitArg u.1 u.2] }
    | none =>
      let e := us.foldl (fun (x : Dev) (u : Nat × Nat) => x.claimUnit (o u)) d
      match us.find? fun (u : Nat × Nat) => e.holder (o u) != 0 with
      | some u => { dev := e, st := ST.CLAIM_CONFLICT, args := [unitArg u.1 u.2, BitVec.ofNat 32 (e.holder (o u))] }
      | none =>
        let s := e.machS m
        { dev := after (e.setMach m { s with units := s.units ++ us.filter fun (u : Nat × Nat) => !s.units.contains u }) }

/-- The machine an argument names, or the refusal (R324). -/
def Dev.machArg (d : Dev) (w : Word) : Nat × Option Ans :=
  let m := w.toNat % 32
  if 20 ≤ m then (m, some { dev := d, st := ST.BAD_ARG })
  else if !groupPresent d.member m then (m, some { dev := d, st := ST.CLAIM_ABSENT, args := [unitArg 0xB m] })
  else if (d.primOf m).isSome then (m, some { dev := d, st := ST.MACH_UNDEFINED })
  else (m, none)

/-- A command that needs a machine with a descriptor. -/
def Dev.withMach (d : Dev) (args : List Word) (f : Nat → Ans) : Ans :=
  match d.machArg (nthD 0 args 0) with
  | (_, some a) => a
  | (m, none) => if d.mDefined m then f m else { dev := d, st := ST.MACH_UNDEFINED }

/-- LEN of a command whose argument 0 gives a count in bits 14:12 (R427): a count out of range is BAD_ARG. -/
def lenCount (args : List Word) : Bool :=
  let n := (nthD 0 args 0).toNat / 2 ^ 12 % 8
  !args.isEmpty && (n == 0 || n == 7 || args.length == n + 1)

/-- Units that descriptor word `k` names (R325, R427). -/
def Dev.wordUnits (d : Dev) (m k : Nat) (w : Word) : List (Nat × Nat) :=
  let run (kind n none1 len : Nat) : List (Nat × Nat) := if n = none1 then [] else (List.range len).map fun i => (kind, n + i)
  match k with
  | 0 => (0xA, getF w F.MD_TRK) :: (if getF w F.MD_SIX = 1 then (match d.secOf m with
    | some s => [(0xB, s)]
    | none => []) else [])
  | 1 => run 0x9 (getF w F.MD_CTX_MAIN) 0xFF 1 ++ run 0x9 (getF w F.MD_CTX_SPD) 0xFF 1 ++ run 0x9 (getF w F.MD_CTX_CATCH) 0xFF 1
  | 2 => run 0x7 (getF w F.MD_ACC_V) 0x1FF 3 ++ run 0x7 (getF w F.MD_ACC_I) 0x1FF 3 ++ run 0x7 (getF w F.MD_ACC_VDC) 0x1FF 1
  | 3 => run 0x8 (getF w F.MD_MMX_I) 0x7F 3
  | _ => []

/-- MACH_DEFINE. -/
def Dev.garDefine (d : Dev) (args : List Word) : Ans :=
  let a := nthD 0 args 0
  let i := a.toNat / 2 ^ 8 % 16
  let n := a.toNat / 2 ^ 12 % 8
  match d.machArg a with
  | (_, some r) => r
  | (m, none) =>
    let ws := (List.range n).map fun k => (i + k, nthD 0 args (k + 1))
    let six := ws.any fun (x : Nat × Word) => x.1 == 0 && getF x.2 F.MD_SIX == 1
    if n = 0 ∨ n = 7 ∨ 16 < i + n ∨ (six = true ∧ d.secOf m = none) then { dev := d, st := ST.BAD_ARG }
    else
      let us := (if d.mDefined m then [] else [(0xB, m)]) ++ ws.flatMap fun (x : Nat × Word) => d.wordUnits m x.1 x.2
      d.claimAll m us fun e =>
        let e := ws.foldl (fun (y : Dev) (x : Nat × Word) => y.setMd m x.1 x.2) e
        e.setMach m { e.machS m with defd := true }

/-- MACH_CLAIM. -/
def Dev.garClaim (d : Dev) (args : List Word) : Ans :=
  let a := nthD 0 args 0
  let k := a.toNat / 2 ^ 8 % 16
  let n := a.toNat / 2 ^ 12 % 8
  d.withMach args fun m =>
    if n = 0 ∨ n = 7 ∨ k = 0 ∨ 0xB < k then { dev := d, st := ST.BAD_ARG }
    else d.claimAll m ((args.drop 1).map fun w => (k, w.toNat)) id

/-! ### CFG_WRITE (R326, R328) -/

/-- Whether an address lies in a unit that S0 holds for a defined machine. -/
def Dev.inMachUnit (d : Dev) (a : Nat) : Bool :=
  let page := pageOf a
  let off := offOf a
  decide (0x40000000 ≤ a) && decide (a < 0x40200000) && a % 4 == 0 &&
    (match pageInfo page with
    | none => false
    | some (b, i) =>
      let o := if off < 0x40 then Own.page page else d.ownAt b i page off
      d.holder o == 0 && (List.range 20).any fun m =>
        d.mDefined m && (d.machS m).units.any fun (u : Nat × Nat) => kindOwn u.1 u.2 == o)

/-- Whether an address is CMD2 or CMD3 of a machine's main context. -/
def Dev.garmalCmd (d : Dev) (a : Nat) : Bool :=
  (List.range 20).any fun m => d.mDefined m && d.ctxPresent (d.mMain m)
    && (a == R.CTX_CMD (d.mMain m) 2 || a == R.CTX_CMD (d.mMain m) 3)

/-- A write together with whether it was refused under R25: whether it sets WR_DENIED of its page. -/
def Dev.tryWrite (d : Dev) (page : Nat) (f : Dev → Dev) : Dev × Bool :=
  let st := R.PG_STAT page
  (f d, (f (d.putB st F.PG_STAT_WR_DENIED false)).flag st F.PG_STAT_WR_DENIED)

/-- The pairs of a CFG_WRITE, in order, up to the first refusal. -/
def Dev.cfgPairs (d : Dev) (done : Nat) : List Word → Ans
  | a :: w :: r =>
    let ad := a.toNat
    let stop (e : Dev) : Ans := { dev := e, st := ST.DENIED, args := [BitVec.ofNat 32 done, a] }
    if !d.inMachUnit ad || d.garmalCmd ad then stop d
    else
      let x := d.tryWrite (pageOf ad) fun e => e.pWrite Mid.S0 ad w
      if x.2 then stop x.1 else x.1.cfgPairs (done + 1) r
  | _ => { dev := d, args := [BitVec.ofNat 32 done] }

/-! ### Machines (R327, R328, R332, R339, R351, R352) -/

/-- Whether rule `r` of MODESEL stage `k` compares CMD3 and selects the mode that CMD3 requests (R264, R327): it holds for the CMD3 that
requests its mode. -/
def ruleFollows (l : List Word) (k r : Nat) : Bool :=
  let w := recStageW l k (7 + r)
  let cond := w.toNat / 2 ^ 28 % 8
  let x := frN (w.toNat % 16)
  let th := recParam l k (2 + w.toNat / 2 ^ 22 % 8) (w.toNat / 2 ^ 22 % 8)
  bitOf w 31 && decide (cond ≤ 3) && recSel l k (w.toNat / 2 ^ 25 % 8) == 0x53 && decide (w.toNat % 16 ≤ 5)
    && (if cond % 2 = 0 then th.lt x else x.lt th)

/-- The mode rule of R327: the MODESEL stage behind OUT8 has an enabled rule on CMD3 that selects the mode which CMD3 requests. -/
def modeRule (l : List Word) : Bool :=
  let x := recOmap l 8
  let k := (x - 0x20) / 4
  decide (0x20 ≤ x) && decide (x < 0x50) && (x - 0x20) % 4 == 0 && decide (k < recStages l) && recKind l k == kMODESEL
    && (List.range 6).any fun r => ruleFollows l k r

/-- The operands of a stage through which a demand of torque or torque-producing current acts: the reference of a controller, the q axis of
IPARK (R338, log entry 315), else every one. -/
def demandOps (code : Nat) : List Nat :=
  if code = kPI ∨ code = kPID then [0] else if code = kIPARK then [1] else [0, 1, 2, 3]

/-- Whether a selector carries a demand of host software (CMD0, CMD1) or of another context that no DCLIM stage has limited; `n` bounds
the chain of stages. -/
def bareDemand (l : List Word) : Nat → Nat → Bool
  | 0, _ => false
  | n + 1, x =>
    if x = 0x50 ∨ x = 0x51 then true
    else if 0x10 ≤ x ∧ x < 0x20 then inKind (recIn l ((x - 0x10) / 2)) == inCTX
    else if 0x20 ≤ x ∧ x < 0x50 then
      let k := (x - 0x20) / 4
      !(recKind l k == kDCLIM && (x - 0x20) % 4 == 0) && (demandOps (recKind l k)).any fun i => bareDemand l n (recSel l k i)
    else false

/-- Whether a DCLIM stage lies in the path of every torque or current demand (R327): none reaches a duty word around it (log entry
315). -/
def dclimOk (l : List Word) : Bool :=
  !(stagesOf l kDCLIM).isEmpty && (List.range 6).all fun j => !bareDemand l 12 (recOmap l j)

/-- The conditions of R327 that a record shows. -/
def Dev.startCheck (d : Dev) (m : Nat) : Bool :=
  let c := d.mMain m
  let l := d.ctxWords c
  let named (k j : Nat) : Bool := recOmap (d.ctxWords k) j != 0
  d.ctxPresent c && d.dutyGrp c == m && d.flag (R.CTX_TARGET c) F.CTX_TARGET_PUB && named c 6 && named c 7 && modeRule l
    && dclimOk l
    && (!d.mSensorless m || (named c 9 && named c 10 && d.trkTakes (d.mTrk m) c && d.ctxPresent (d.mCatch m)))
    && (d.mCatch m == 0xFF || (d.ctxPresent (d.mCatch m) && named (d.mCatch m) 9 && named (d.mCatch m) 10 && named (d.mCatch m) 11))

/-- A command that asks for a transition or a demand: it loses to a reaction (R335). -/
def Dev.withCmd (d : Dev) (args : List Word) (f : Nat → Ans) : Ans :=
  d.withMach args fun m => if d.cmdLoses m then { dev := d, st := ST.MACH_BUSY } else f m

/-- MACH_START. -/
def Dev.garStart (d : Dev) (args : List Word) : Ans :=
  d.withCmd args fun m =>
    if d.mState m ≠ MS.STO ∨ (d.machS m).target.isSome then { dev := d, st := ST.MACH_BUSY }
    else if !d.startCheck m then { dev := d, st := ST.MACH_CFG_ERR }
    else
      let d := d.setMach m { d.machS m with neg := bitOf (nthD 0 args 0) 8 }
      { dev := (d.setMStat m F.MD_ATTEMPT 0).toCatch m 0 }

/-- Numbers of the bits set in a mask of four. -/
def maskBits (n : Nat) : List Nat := (List.range 4).filter fun k => n / 2 ^ k % 2 == 1

def lenMask (args : List Word) : Bool :=
  !args.isEmpty && args.length == 1 + (maskBits ((nthD 0 args 0).toNat / 2 ^ 12)).length

/-- MACH_CMD: CMD0 and CMD1 of the main context, every CMD word of the speed context; DENIED where a write is refused (R426). -/
def Dev.garMachCmd (d : Dev) (args : List Word) : Ans :=
  d.withCmd args fun m =>
    let a := nthD 0 args 0
    let ks := maskBits (a.toNat / 2 ^ 12)
    let spd := bitOf a 8
    let c := if spd then d.mSpd m else d.mMain m
    if d.mState m = MS.STOP ∨ d.mState m = MS.DISCHARGE then { dev := d, st := ST.MACH_BUSY }
    else if !d.ctxPresent c || (!spd && ks.any fun k => decide (2 ≤ k)) then { dev := d, st := ST.BAD_ARG }
    else
      let r := (ks.zip (args.drop 1)).foldl (fun (r : Dev × Bool) (x : Nat × Word) =>
        let y := r.1.tryWrite (pageOf (R.CTX_CMD c x.1)) fun e => e.pWrite Mid.S0 (R.CTX_CMD c x.1) x.2
        (y.1, r.2 || y.2)) (d, false)
      { dev := r.1, st := if r.2 then ST.DENIED else ST.OK }

/-- MACH_STOP. -/
def Dev.garStop (d : Dev) (args : List Word) : Ans :=
  d.withCmd args fun m =>
    if d.mState m = MS.RUN ∧ (d.machS m).target = none then { dev := d.machStop m 0 } else { dev := d, st := ST.MACH_BUSY }

/-- MACH_STO. -/
def Dev.garSto (d : Dev) (args : List Word) : Ans :=
  d.withCmd args fun m =>
    if d.mState m = MS.OFF then { dev := d, st := ST.MACH_BUSY } else { dev := d.toStoFault m 0 }

/-- Bleeder discharge. -/
def Dev.bleed (d : Dev) (m : Nat) : Dev :=
  ((((d.mDrop m).mForce m 1 true).mCtxOff m).machGo m MS.DISCHARGE 0).disP

/-- MACH_DISCHARGE. -/
def Dev.garDischarge (d : Dev) (args : List Word) : Ans :=
  d.withCmd args fun m =>
    let st := d.mState m
    let mode := d.md m 0 F.MD_DIS_MODE
    let wind := mode == 1 || mode == 2
    let ok := d.devState == DS.RUN && !d.mReleased m && (d.mSpeed m).abs.lt (d.mdSpeed m 4 F.MD_HI) && d.armOk m MS.DISCHARGE
    if st = MS.OFF ∨ st = MS.FAULT then { dev := d, st := ST.MACH_BUSY }
    else if wind && ok then
      let d := d.prepare m 3 (d.mdTenth m 13 F.MD_LO) fun e => (e.zeroIntegrators (e.mMain m)).zeroIntegrators (e.mSpd m)
      let d := d.armBegin m MS.DISCHARGE
      { dev := d.setMach m { d.machS m with wind := true } }
    else if mode = 1 then { dev := d, st := ST.MACH_BUSY }
    else { dev := d.bleed m }

/-- MACH_CLEAR. -/
def Dev.garClear (d : Dev) (args : List Word) : Ans :=
  d.withCmd args fun m =>
    if d.mState m ≠ MS.FAULT then { dev := d, st := ST.MACH_BUSY }
    else
      let cmps := ((d.machS m).units.filter fun (u : Nat × Nat) => u.1 == 2).map fun (u : Nat × Nat) => u.2
      let d := d.mClear m fun _ => true
      let d := cmps.foldl (fun (e : Dev) c =>
        if e.flag (R.CMP_STAT c) F.CMP_STAT_LATCHED then e.pWrite Mid.S0 (R.CMP_STAT c) 0x80000000 else e) d
      if d.mReleased m || cmps.any fun c => d.flag (R.CMP_STAT c) F.CMP_STAT_LATCHED then { dev := d, st := ST.MACH_BUSY }
      else { dev := d.toSto m 0 }

/-! ### The device (R428) -/

/-- What holds the device back from RUN (R428, R463, R491, R492, R403). -/
def Dev.runOk (d : Dev) : Bool :=
  d.flag R.SAFE_STAT F.SAFE_STAT_CONFIRMED && !d.replaying && !d.flag R.RPL_STAT F.RPL_STAT_DIRTY
    && !d.flag R.SFX_STAT F.SFX_STAT_SPLIT && d.nv.lc != 3 && (d.ringsUsed.isEmpty || d.flag R.SFX_STAT F.SFX_STAT_RING_OK)

/-- DEV_STATE. -/
def garDevState (d : Dev) (mems : Mems) (args : List Word) : Ans × Mems :=
  let st := d.devState
  let t := (nthD 0 args 0).toNat
  let done (e : Dev) : Ans := { dev := e, args := [e.reg R.SYS_STATE] }
  if st = DS.CONFIGURE ∧ t = DS.COMMISSION then (done (d.toCommission mems.flash), mems)
  else if st = DS.READY ∧ t = DS.RUN ∧ d.runOk = true then (done (d.goSafe DS.RUN 0 false), mems)
  else if st = DS.RUN ∧ t = DS.READY then (done (d.goSafe DS.READY 0 false), mems)
  else ({ dev := d, st := ST.BAD_STATE }, mems)

/-- The host of a command channel (R423). -/
def chanHost (ch : Nat) : Nat := if ch % 2 = 0 then Mid.PCIE else Mid.SPI

/-- SPB_WRITE (R383, R384, R428): both flash copies, then the check of the new block. -/
def garSpbWrite (ch : Nat) (d : Dev) (mems : Mems) (args : List Word) : Ans × Mems :=
  let w := (nthD 0 args 0).toNat
  let o := (nthD 0 args 1).toNat
  if 15 < w ∨ 0xF000 < o ∨ o % 4 ≠ 0 then ({ dev := d, st := ST.BAD_ARG }, mems)
  else if d.winOwner w ≠ Mid.S0 then ({ dev := d, st := ST.WIN_ERR, args := [BitVec.ofNat 32 w] }, mems)
  else
    let ws := (List.range 1024).map fun k => mems.win.readWord (w * 0x10000 + o + 4 * k)
    let flash := flashCopies mems.flash ws
    let d := d.putB R.SAFE_STAT F.SAFE_STAT_CONFIRMED false
    let d := if d.devState = DS.READY then d.goSafe DS.COMMISSION 0 false else d.grantAll
    let d := if d.devState = DS.COMMISSION then d.spbLoad flash else d
    ({ dev := d.winGiveTo w (chanHost ch), args := [crc32cWords (ws.take 1022)] }, { mems with flash := flash })

/-- The command that S0 passes to S1 over channel 4, and that S1 takes (R428); its TAG is free (log entry 323, DESIGN CHOICE). -/
def Dev.passToS1 (d : Dev) : Dev :=
  let (w, d) := d.fresh
  let d := d.mbxSend 4 1 (msgHeader 0x31 w.toNat 0 0 0)
  d.setMbx 4 ((d.mbxS 4).pop 2)

/-- RING_REJOIN. -/
def Dev.garRejoin (d : Dev) : Ans :=
  match d.rejoin with
  | some e => { dev := e.passToS1 }
  | none => { dev := d, st := ST.MACH_BUSY }

/-- BRAKE_P: PBRK_P_REL written by S0; DENIED where the write is refused (R426). -/
def Dev.garBrakeP (d : Dev) (args : List Word) : Ans :=
  let w := setF (d.reg R.SAFE_OUT) F.SAFE_OUT_DIS_M_LATE 0
  let y := d.tryWrite Pg.SAFE fun e => e.safeOutWrite Mid.S0 (setF w F.SAFE_OUT_PBRK_P_REL (b2n (bitOf (nthD 0 args 0) 0)))
  { dev := y.1, st := if y.2 then ST.DENIED else ST.OK }

/-- VERSION. -/
def Dev.garVersion (d : Dev) : Ans :=
  { dev := d, args := [d.reg (R.PG_ID Pg.SYS), BitVec.ofNat 32 (d.get R.SEC_BOOT F.SEC_BOOT_VERSION)]
      ++ (List.range 4).map fun k => d.reg (R.SEC_HASH k) }

/-- NOTIFY. -/
def Dev.garNotify (d : Dev) (ch : Nat) (args : List Word) : Ans :=
  { dev := d.setGar ch { d.garS ch with notify := bitOf (nthD 0 args 0) 0 } }

/-! ### S1's commands (R429) -/

/-- A request register after a command: the clear mask first, the set mask second. -/
def maskedReq (cur : Word) (args : List Word) : Word := (cur &&& ~~~ nthD 0 args 1) ||| (nthD 0 args 0 &&& 0xFFFFF)

/-- SAFE_ACK: the entries acknowledged. -/
def Dev.garSafeAck (d : Dev) (args : List Word) : Ans :=
  let was := d.reg R.SAFE_TRIP
  let e := d.safeAck Mid.S1 (nthD 0 args 0 &&& 0xFFFFF)
  { dev := e, args := [was &&& ~~~ e.reg R.SAFE_TRIP] }

def Dev.garSafeSto (d : Dev) (args : List Word) : Ans :=
  let e := d.safeReqSto Mid.S1 (maskedReq (d.reg R.SAFE_REQ_STO) args)
  { dev := e, args := [e.reg R.SAFE_REQ_STO] }

def Dev.garSafeSs1 (d : Dev) (args : List Word) : Ans :=
  let e := d.safeReqSs1 Mid.S1 (maskedReq (d.reg R.SAFE_REQ_SS1) args)
  { dev := e, args := [e.reg R.SAFE_REQ_SS1] }

def Dev.garOutM (d : Dev) (args : List Word) : Ans :=
  let a := nthD 0 args 0
  let w := setF (d.reg R.SAFE_OUT) F.SAFE_OUT_DIS_M_LATE 0
  let e := d.safeOutWrite Mid.S1 (setF (setF w F.SAFE_OUT_PBRK_M_REL (b2n (bitOf a 0))) F.SAFE_OUT_DIS_M_REQ (b2n (bitOf a 1)))
  { dev := e, args := [e.safeOutWord] }

def Dev.garRingReq (d : Dev) (args : List Word) : Ans :=
  let lo := (nthD 0 args 0).toNat % 2 ^ 16
  let hi := (nthD 0 args 1).toNat % 2 ^ 16
  { dev := d.plainWrite Mid.S1 R.SFX_TX_REQ (BitVec.ofNat 32 (hi * 2 ^ 16 + lo)) }

/-- A message that no supervisor's table serves (R426, R429). -/
def Dev.garBadCode (d : Dev) (ch : Nat) : Dev :=
  match d.garHead ch with
  | none => d
  | some h =>
    if servedMsg ch h then d
    else (d.garTake ch (h.toNat / 2 ^ 8 % 8 + 1)).respond ch h ST.BAD_CODE []

/-! ### Meanings -/

def execNop (ch : Nat) (s : State) := garDev ch 0x01 (fun _ => true) anyState (fun d args => { dev := d, args := args }) s
def execVersion (ch : Nat) (s : State) := garDev ch 0x02 (lenIs 0) anyState (fun d _ => d.garVersion) s
def execDevState (ch : Nat) (s : State) := garCmd ch 0x03 (lenIs 1) anyState garDevState s
def execNotify (ch : Nat) (s : State) := garDev ch 0x04 (lenIs 1) anyState (fun d args => d.garNotify ch args) s
def execMachDefine (ch : Nat) (s : State) := garDev ch 0x10 lenCount (· == DS.CONFIGURE) (fun d args => d.garDefine args) s
def execMachClaim (ch : Nat) (s : State) := garDev ch 0x11 lenCount (· == DS.CONFIGURE) (fun d args => d.garClaim args) s
def execCfgWrite (ch : Nat) (s : State) :=
  garDev ch 0x12 (fun args => args.length % 2 == 0 && decide (2 ≤ args.length))
    (fun st => decide (DS.CONFIGURE ≤ st) && decide (st ≤ DS.RUN)) (fun d args => d.cfgPairs 0 args) s
def execMachStart (ch : Nat) (s : State) := garDev ch 0x20 (lenIs 1) (· == DS.RUN) (fun d args => d.garStart args) s
def execMachCmd (ch : Nat) (s : State) := garDev ch 0x21 lenMask readyRun (fun d args => d.garMachCmd args) s
def execMachStop (ch : Nat) (s : State) := garDev ch 0x22 (lenIs 1) (· == DS.RUN) (fun d args => d.garStop args) s
def execMachSto (ch : Nat) (s : State) := garDev ch 0x23 (lenIs 1) fromReady (fun d args => d.garSto args) s
def execMachDischarge (ch : Nat) (s : State) := garDev ch 0x24 (lenIs 1) readyRun (fun d args => d.garDischarge args) s
def execMachClear (ch : Nat) (s : State) := garDev ch 0x25 (lenIs 1) readyRun (fun d args => d.garClear args) s
def execMachStatus (ch : Nat) (s : State) :=
  garDev ch 0x26 (lenIs 1) fromConfigure (fun d args => d.withMach args fun m => { dev := d, args := [(d.machS m).stat] }) s
def execSpbWrite (ch : Nat) (s : State) :=
  garCmd ch 0x30 (lenIs 2) (fun st => st == DS.CONFIGURE || st == DS.COMMISSION || st == DS.READY) (garSpbWrite ch) s
def execRingRejoin (ch : Nat) (s : State) := garDev ch 0x31 (lenIs 0) anyState (fun d _ => d.garRejoin) s
def execBrakeP (ch : Nat) (s : State) := garDev ch 0x32 (lenIs 1) fromReady (fun d args => d.garBrakeP args) s
def execSafeAck (ch : Nat) (s : State) :=
  garDev ch 0x40 (lenIs 1) (fun st => readyRun st || st == DS.OVERCAST) (fun d args => d.garSafeAck args) s
def execSafeSto (ch : Nat) (s : State) := garDev ch 0x41 (lenIs 2) fromCommission (fun d args => d.garSafeSto args) s
def execSafeSs1 (ch : Nat) (s : State) :=
  garDev ch 0x42 (lenIs 2) (fun st => st == DS.RUN || st == DS.OVERCAST) (fun d args => d.garSafeSs1 args) s
def execOutM (ch : Nat) (s : State) := garDev ch 0x43 (lenIs 1) fromReady (fun d args => d.garOutM args) s
def execRingReq (ch : Nat) (s : State) := garDev ch 0x44 (lenIs 2) fromReady (fun d args => d.garRingReq args) s
def execBadCode (ch : Nat) (s : State) := onDev (fun d => d.garBadCode ch) s

end Sys2Proof.Machine
end

