-- ==== Sys2Proof/Machine/Recorder.lean ====
section
/-! DEFINITION. Hamper's recorder (chapter 17, R452 to R462, R471): blocks and the ring, the run start with its anchors, freezing,
exports, loads and dump copies. -/

namespace Sys2Proof.Machine

/-! ### Blocks (R453, R454) -/

/-- The words of a record (R454). -/
def recWords (r : RecRec) : List Word :=
  BitVec.ofNat 32 (r.ty * 2 ^ 24 + b2n r.spec * 2 ^ 23 + r.data.length % 128 * 2 ^ 16 + r.res % 2 ^ 16)
    :: BitVec.ofNat 32 r.tick :: r.data

/-- The filling of `n` words at the end of a block: a PAD record; what NW cannot count is zero words (log entry 70, DEDUCED). -/
def padWords (n : Nat) : List Word :=
  if n < 2 then List.replicate n 0
  else BitVec.ofNat 32 (min 112 (n - 2) * 2 ^ 16) :: List.replicate (n - 1) 0

/-- The 1,024 words of a block (R453). -/
def blockWords (seq : Nat) (b : List RecRec) : List Word :=
  let recs := b.flatMap recWords
  let body := recs ++ padWords (1020 - recs.length)
  let flags := b2n (b.any fun r => r.ty == 0x04) + 2 * b2n (b.any fun r => r.ty == 0x02)
  [BitVec.ofNat 32 (0x484D0100 + flags), BitVec.ofNat 32 seq, BitVec.ofNat 32 (firstHi b), crc32cWords body] ++ body

/-! ### The ring (R456) -/

/-- Whether the ring is the on-chip memory (R448, R456). -/
def Dev.recOnChip (d : Dev) : Bool := !(hasDdr d.member && d.flag R.DDR_STAT F.DDR_STAT_READY)

/-- SIZE as it is taken, in MiB (R456). -/
def Dev.recSizeMiB (d : Dev) : Nat :=
  let top := min (min ((d.reg R.CAP_REC).toNat / 1024) 6144) (d.get R.DDR_STAT F.DDR_STAT_USABLE - 16)
  min (max 64 (d.get R.REC_CFG F.REC_CFG_SIZE)) top

/-- NBLK (R456). -/
def Dev.recNblk (d : Dev) : Nat := if d.recOnChip then 128 else max 1 (d.recSizeMiB * 256)

/-- The byte offset of a block in the ring (R456). -/
def Dev.recOffset (d : Dev) (seq : Nat) : Nat := seq % d.recNblk * 4096

/-- A word of the ring. -/
def State.ringWord (s : State) (a : Nat) : Word := if s.dev.recOnChip then s.mems.chip.readWord a else s.mems.ddr.readWord a

/-- The words of the block at a sequence number's place. -/
def State.ringBlock (s : State) (seq : Nat) : List Word :=
  (List.range 1024).map fun k => s.ringWord (s.dev.recOffset seq + 4 * k)

/-- The 64-byte blocks that cannot be corrected, after `n` bytes from `a` on have been written (R449). -/
def Dev.ddrHeal (d : Dev) (a n : Nat) : Dev :=
  { d with sys := { d.sys with
    bad := d.sys.bad.filter fun b => decide (b < a / 64) || decide (a + n ≤ 64 * b)
    ddrSoft := d.sys.ddrSoft.filter fun u => decide (u.1 < a / 64) || decide (a + n ≤ 64 * u.1) } }

/-- An error found in a 64-byte block (R449): a corrected one is written back, a block that cannot be corrected reads as zero. -/
def State.ddrError (s : State) (b : Nat) (two : Bool) : State :=
  let d := s.dev
  if two then
    let d := (d.bump R.DDR_ECC F.DDR_ECC_UNCORR).setReg R.DDR_ECC_ADDR (BitVec.ofNat 32 b)
    let d : Dev := { d with sys := { d.sys with bad := b :: d.sys.bad.erase b } }
    { s with dev := d.raise Pg.DDR Ev.DDR_ECC_UNCORR, mems := { s.mems with ddr := s.mems.ddr.writeBytes (64 * b) (List.replicate 64 0) } }
  else { s with dev := (d.bump R.DDR_ECC F.DDR_ECC_CORR).raise Pg.DDR Ev.DDR_ECC_CORR }

/-- The errors that a read of `n` bytes from `a` on finds (R449): those that stand in its blocks, and blocks that could not be corrected
before. -/
def State.ddrRead (s : State) (a n : Nat) : State :=
  if !(s.dev.flag R.DDR_STAT F.DDR_STAT_READY && s.dev.flag R.DDR_CFG F.DDR_CFG_ECC_EN) then s
  else
    let hit (b : Nat) : Bool := decide (a / 64 ≤ b) && decide (64 * b < a + n)
    let soft := s.dev.sys.ddrSoft.filter fun u => hit u.1
    let bad := (s.dev.sys.bad.filter hit).map fun b => (b, true)
    let d := s.dev
    let d := { d with sys := { d.sys with ddrSoft := d.sys.ddrSoft.filter fun u => !hit u.1 } }
    (bad ++ soft).foldl (fun t u => t.ddrError u.1 u.2) { s with dev := d }

/-- Words written at the place of a block. -/
def State.ringPlace (s : State) (seq : Nat) (ws : List Word) : State :=
  let a := s.dev.recOffset seq
  if s.dev.recOnChip then { s with mems := { s.mems with chip := s.mems.chip.writeWords a ws } }
  else { s with dev := s.dev.ddrHeal a 4096, mems := { s.mems with ddr := s.mems.ddr.writeWords a ws } }

/-- A read of the block at a sequence number's place, with the errors it finds (R449). -/
def State.ringFix (s : State) (seq : Nat) : State := if s.dev.recOnChip then s else s.ddrRead (s.dev.recOffset seq) 4096

/-- MAGIC and BCRC of a block (R453, R463). -/
def blockGood (ws : List Word) : Bool :=
  (nthD 0 ws 0).toNat / 2 ^ 16 == 0x484D && nthD 0 ws 3 == crc32cWords (ws.drop 4)

def blockSeq (ws : List Word) : Nat := (nthD 0 ws 1).toNat

def Dev.recWseq (d : Dev) : Nat := (d.reg R.REC_WSEQ).toNat
def Dev.recOld (d : Dev) : Nat := (d.reg R.REC_OLD).toNat

/-- Whether a block is held: complete and not overwritten (R462). -/
def Dev.recHeld (d : Dev) (seq : Nat) : Bool := decide (d.recOld ≤ seq) && decide (seq < d.recWseq)

/-- The word of BAR4 at a byte offset (R461): the aperture onto the ring; beyond an on-chip ring it reads zero. -/
def State.bar4Word (s : State) (ofs : Nat) : Word :=
  if s.dev.recOnChip then (if ofs < 0x80000 then s.mems.chip.readWord (ofs / 4 * 4) else 0)
  else s.mems.ddr.readWord (s.dev.get R.REC_APER F.REC_APER_GIB * 2 ^ 30 + ofs / 4 * 4)

/-- Whether a read of BAR4 is answered by a poisoned completion (R449). -/
def State.bar4Poisoned (s : State) (ofs : Nat) : Bool :=
  !s.dev.recOnChip && s.dev.sys.bad.contains ((s.dev.get R.REC_APER F.REC_APER_GIB * 2 ^ 30 + ofs) / 64)

/-- The block being filled reaches the ring; the next one is begun (R453, R456). -/
def State.putBlock (s : State) (b rest : List RecRec) : State :=
  let n := s.dev.recWseq
  let s := s.ringPlace n (blockWords n b)
  let d := s.dev
  let d := { d with hamper := { d.hamper with fifo := rest } }
  let d := (d.setReg R.REC_WSEQ (BitVec.ofNat 32 (n + 1))).setReg R.REC_OLD (BitVec.ofNat 32 (max d.recOld (n + 1 - d.recNblk)))
  { s with dev := d }

/-- Every record that waits reaches the ring, the last block completed with PAD (R459, R460). -/
def State.flush : Nat → State → State
  | 0, s => s
  | fuel + 1, s =>
    if s.dev.hamper.fifo.isEmpty then s
    else
      let (b, rest) := nextBlock s.dev.hamper.fifo
      (s.putBlock b rest).flush fuel

def State.flushAll (s : State) : State := s.flush s.dev.hamper.fifo.length

/-- BLOCK_COMPLETE: the next record no longer fits into the block being filled, and none can still come before its last one, of which the
tick has passed (R454). Behind the last block of a post phase the recorder freezes (R459). -/
def State.blockComplete (s : State) : State :=
  if !s.dev.recording then s
  else
    let (b, rest) := nextBlock s.dev.hamper.fifo
    if rest.isEmpty || b.any (fun r => decide (s.dev.gtc ≤ r.tick)) then s
    else
      let n := s.dev.recWseq
      let s := s.putBlock b rest
      let d := s.dev
      if d.flag R.REC_STAT F.REC_STAT_POST && decide ((d.reg R.REC_TRIG_SEQ).toNat + (d.reg R.REC_POST).toNat ≤ n) then
        { s with dev := { d with hamper := { d.hamper with freeze := true } } }
      else s

/-! ### Freezing (R459) -/

/-- The recorder stands frozen. -/
def Dev.frozenNow (d : Dev) : Dev :=
  let d := { d with hamper := { d.hamper with freeze := false } }
  let d := (d.putB R.REC_STAT F.REC_STAT_RUN false).putB R.REC_STAT F.REC_STAT_POST false
  (d.putB R.REC_STAT F.REC_STAT_FROZEN true).raise Pg.REC Ev.REC_FROZEN

/-- The block being filled is completed with PAD, and the recorder freezes. -/
def State.recFreeze (s : State) : State :=
  let s := s.flushAll
  { s with dev := s.dev.frozenNow }

/-- REC_FROZEN: REC_POST blocks after the trigger block are complete. -/
def State.recFrozen (s : State) : State :=
  if s.dev.hamper.freeze && s.dev.flag R.REC_STAT F.REC_STAT_RUN then s.recFreeze else s

/-! ### Run start and anchors (R455, R458) -/

/-- CHECK of Channel P's copy; 0 where the block is not confirmed (R463, R469). -/
def Dev.spbCheck (d : Dev) : Word := if d.flag R.SAFE_STAT F.SAFE_STAT_CONFIRMED then spGet 0 d.safe.spbP 1023 else 0

/-- The pages whose PG_CRC a START record holds (R455). -/
def startPages : List Nat :=
  [Pg.TL, Pg.TLS 0, Pg.TLS 1, Pg.TLS 2, Pg.TLS 3, Pg.TRK, Pg.LEC] ++ (List.range 20).map Pg.PWT ++ [Pg.PWG]

def Dev.hashWords (d : Dev) : List Word := (List.range 8).map fun i => d.reg (R.SEC_HASH i)

/-- The words of a START record (R455). -/
def Dev.startWords (d : Dev) : List Word :=
  [d.reg (R.PG_ID Pg.SYS), spGet 0 d.safe.spbP 1023] ++ d.hashWords ++ startPages.map d.pgCrc

def wordN (n : Nat) : Word := BitVec.ofNat 32 n

/-- The words of an ANC_TRK record. -/
def Dev.ancTrkWords (d : Dev) (k : Nat) : List Word :=
  let t := d.trkS k
  let r := wrap40 t.res
  [wordN t.ang, wordN (t.ang / 2 ^ 32), wordOfInt t.spd, wordN r, wordN (r / 2 ^ 32), d.trkStatWord k]

/-- A duty of the shadow as ANC_PWM lays it out. -/
def dutyWord (v : Int × Int) : Word := wordN (wrapN 6 v.2 * 2 ^ 20 + wrapN 20 v.1)

/-- The vector in a group's shadow. -/
def GrpSt.shadow (r : GrpSt) : List (Int × Int) :=
  match r.nextVec with
  | some (v, _) => v
  | none => r.vec.getD []

/-- The words of an ANC_PWM record. -/
def Dev.ancPwmWords (d : Dev) (g : Nat) : List Word :=
  let r := d.grpS g
  let page := (List.range 12).map fun i => d.reg (pageBase (Pg.PWT g) + 0x40 + 4 * i)
  let legs := (List.range 3).map fun x => d.reg (R.PWT_LEG g x)
  let duties := (List.range 3).map fun x => dutyWord (nthD (0, 0) r.shadow x)
  let carries := (List.range 3).map fun x => d.reg (R.PWT_CARRY g x)
  let lock := b2n (d.flag (R.PWT_STAT g) F.PWT_STAT_ALOCKED) * 2 ^ 31 + b2n (decide (r.lockDir < 0)) * 2 ^ 30
    + b2n (d.flag (R.PWT_STAT g) F.PWT_STAT_VALID) * 2 ^ 29 + (r.lockJ % 256).toNat
  page ++ legs ++ duties ++ carries ++ [wordN r.p, wordN r.v, wordN (r.v / 2 ^ 32), wordN lock]

/-- An anchor set requested at the present tick (R458). -/
def Dev.anchorSet (d : Dev) : Dev :=
  let d := forN nTracks (fun k e =>
    if e.trkSrc k = 0 then e else e.emit { ty := 0x31, res := k, tick := e.gtc, data := e.ancTrkWords k }) d
  let d := forN 20 (fun g e =>
    if groupPresent e.member g && e.pwmRun g then e.emit { ty := 0x32, res := g, tick := e.gtc, data := e.ancPwmWords g } else e) d
  let en := (List.range (nCtx d.member)).filter d.ctxEn
  let d := en.foldl (fun (e : Dev) c =>
    if e.ctxIdle c then e.emit { ty := 0x30, res := c, tick := e.gtc, data := e.ctxWords c } else e) d
  { d with hamper := { d.hamper with ancLeft := en.filter fun c => !d.ctxIdle c } }

/-- The interval of the anchor timer in ticks; 0 where there is none. -/
def Dev.ancTicks (d : Dev) : Nat := 400000 * d.get R.REC_CFG F.REC_CFG_ANCH

/-- The start of a run (R458): START, then an anchor set. -/
def Dev.runStart (d : Dev) : Dev :=
  let d := { d with hamper := { jobs := d.hamper.jobs, ancAt := d.gtc } }
  let d := ((d.putB R.REC_STAT F.REC_STAT_FROZEN false).putB R.REC_STAT F.REC_STAT_POST false).putB R.REC_STAT F.REC_STAT_RUN true
  let d := (d.putB R.REC_STAT F.REC_STAT_ONCHIP d.recOnChip).setReg R.REC_TRIG_INFO 0
  (d.emit { ty := 0x03, tick := d.gtc, data := d.startWords }).anchorSet

/-- ANCHOR_TIMER (R458): a set is due when ANCH ms have passed since the run start or the set before, with ANCH as it stands now. -/
def Dev.anchorTimer (d : Dev) : Dev :=
  let t := d.hamper.ancAt
  let n := d.ancTicks
  if d.recording && decide (0 < n) && decide (t + n ≤ d.gtc) then
    ({ d with hamper := { d.hamper with ancAt := t + (d.gtc - t) / n * n } } : Dev).anchorSet
  else d

/-! ### REC_CTRL (R459, R460, R473) -/

/-- The run of a REARM, in the first tick of the cycle after it (R460), with the post phase of a trigger of the REARM's cycle or of that
tick. -/
def Dev.rearmTick (d : Dev) : Dev :=
  match d.hamper.rearm with
  | some k =>
    if k < d.busCycle then
      let d := { d with hamper := { d.hamper with rearm := none } }
      if d.devState == DS.FATAL then d
      else if d.hamper.missCyc = k ∨ d.hamper.missCyc = d.busCycle then d.runStart.trigger d.hamper.missSrc else d.runStart
    else d
  | none => d

/-- EN falls (R460): the block being filled is completed with PAD, and recording stops without freezing. -/
def State.recStop (s : State) : State :=
  if s.dev.flag R.REC_STAT F.REC_STAT_RUN then
    let s := s.flushAll
    let d := (s.dev.putB R.REC_STAT F.REC_STAT_RUN false).putB R.REC_STAT F.REC_STAT_POST false
    { s with dev := { d with hamper := { jobs := d.hamper.jobs } } }
  else s

def State.onDevS (s : State) (f : Dev → Dev) : State := { s with dev := f s.dev }

/-- A write of REC_CTRL: EN, then REARM, TRIG and FREEZE. While the stream of a dump is kept, a write of EN = 1 is refused
(R471). -/
def State.recCtrlWrite (s : State) (mid : Nat) (w : Word) : State :=
  let d := s.dev
  let a := R.REC_CTRL
  let was := d.flag a F.REC_CTRL_EN
  let rise := getF w F.REC_CTRL_EN != 0 && !was
  let kept := rise && d.flag R.REC_STAT F.REC_STAT_HELD
  let taken := d.takenAt mid a
  let d := d.plainWrite mid a (setF w F.REC_CTRL_EN (if kept then 0 else getF w F.REC_CTRL_EN))
  if !taken then { s with dev := d }
  else
    let d := (d.denyIf kept Pg.REC).setReg a (d.reg a &&& fieldMask F.REC_CTRL_EN)
    let s := { s with dev := d }
    let en := d.flag a F.REC_CTRL_EN
    let s := if rise && !kept then s.onDevS Dev.runStart else if was && !en then s.recStop else s
    let s := s.onDevS fun e => { e with hamper := { e.hamper with
      rearm := if !en then none
        else if bitOf w 29 && e.flag R.REC_STAT F.REC_STAT_FROZEN then some e.busCycle else e.hamper.rearm } }
    let s := if bitOf w 30 then s.onDevS fun e => e.trigger 0x100 else s
    if bitOf w 28 && s.dev.flag R.REC_STAT F.REC_STAT_RUN then s.recFreeze else s

/-- REC_CTRL written with EN as it stands and further bits. -/
def State.recCtrlBits (s : State) (mid : Nat) (bits : Word) : State :=
  s.recCtrlWrite mid ((s.dev.reg R.REC_CTRL &&& fieldMask F.REC_CTRL_EN) ||| bits)

/-! ### Export, load and dump copy (R462, R471) -/

/-- The three registers of the copies; their fields lie alike. -/
def jobReg (kind : Nat) : Nat := if kind = 0 then R.REC_EXP else if kind = 1 then R.RPL_LOAD else R.DMP_EXP

def Dev.jobResult (d : Dev) (kind res : Nat) : Dev :=
  (d.putB (jobReg kind) F.REC_EXP_BUSY false).put (jobReg kind) F.REC_EXP_RESULT res

/-- A refusal or failure of a copy. -/
def Dev.jobRefuse (d : Dev) (kind res : Nat) : Dev := (d.jobResult kind res).raise Pg.REC Ev.REC_EXP_ERR

def Dev.jobStart (d : Dev) (j : JobSt) : Dev :=
  let d := (d.putB (jobReg j.kind) F.REC_EXP_BUSY true).put (jobReg j.kind) F.REC_EXP_RESULT 0
  { d with hamper := { d.hamper with jobs := d.hamper.jobs ++ [j] } }

/-- A copy asked for, with whether what it copies is held: the window must be the DMA's. -/
def Dev.jobAsk (d : Dev) (j : JobSt) (held : Bool) : Dev :=
  if d.winOwner j.win ≠ Mid.DMA then d.jobRefuse j.kind 3 else if !held then d.jobRefuse j.kind 2 else d.jobStart j

/-- A write of REC_EXP (R462). -/
def Dev.recExpWrite (d : Dev) (mid : Nat) (w : Word) : Dev :=
  let a := R.REC_EXP
  let taken := d.takenAt mid a
  let d := d.plainWrite mid a w
  if taken && bitOf w 31 && !d.flag a F.REC_EXP_BUSY then
    let n := d.get a F.REC_EXP_CNT + 1
    let first := (d.reg R.REC_EXP_SEQ).toNat
    d.jobAsk { kind := 0, win := d.get a F.REC_EXP_WIN, at0 := first, n := n } ((List.range n).all fun i => d.recHeld (first + i))
  else d

/-- A write of RPL_LOAD (R462, R471): refused while the recorder is enabled or holds a dump's stream. -/
def Dev.rplLoadWrite (d : Dev) (mid : Nat) (w : Word) : Dev :=
  let a := R.RPL_LOAD
  let taken := d.takenAt mid a
  if taken && (d.flag R.REC_CTRL F.REC_CTRL_EN || d.flag R.REC_STAT F.REC_STAT_HELD) then d.deny Pg.RPL
  else
    let d := d.plainWrite mid a w
    if taken && bitOf w 31 && !d.flag a F.RPL_LOAD_BUSY then
      d.jobAsk { kind := 1, win := d.get a F.RPL_LOAD_WIN, n := d.get a F.RPL_LOAD_CNT + 1 } true
    else d

/-- Whether a chunk of the dump is valid (R471). -/
def Dev.chunkValid (d : Dev) (k : Nat) : Bool :=
  if k < 4 then d.flag R.DMP_STAT F.DMP_STAT_VALID else decide (k < 260) && d.flag R.DMP_STAT F.DMP_STAT_EXT_VALID

/-- A write of DMP_EXP (R471). -/
def Dev.dmpExpWrite (d : Dev) (mid : Nat) (w : Word) : Dev :=
  let a := R.DMP_EXP
  let taken := d.takenAt mid a
  let d := d.plainWrite mid a w
  if taken && bitOf w 31 && !d.flag a F.DMP_EXP_BUSY then
    let k := d.get a F.DMP_EXP_CHUNK
    d.jobAsk { kind := 2, win := d.get a F.DMP_EXP_WIN, at0 := k, n := 1 } (d.chunkValid k)
  else d

/-- A write of DMP_CTRL (R471, R475): S0 and the page's owner clear the dump and release the recorder. -/
def Dev.dmpCtrlWrite (d : Dev) (mid : Nat) (w : Word) : Dev :=
  if mid = Mid.S0 ∨ d.pageOwner Pg.DMP = mid then
    if bitOf w 31 then
      ((d.putB R.DMP_STAT F.DMP_STAT_VALID false).putB R.DMP_STAT F.DMP_STAT_EXT_VALID false).putB R.REC_STAT F.REC_STAT_HELD false
    else d
  else d.deny Pg.DMP

/-- First byte of the dump region in LPDDR4X: the last 16 MiB of usable memory (R456). -/
def Dev.dumpBase (d : Dev) : Nat := (d.get R.DDR_STAT F.DDR_STAT_USABLE - 16) * 2 ^ 20

/-- Blocks of a window placed in the ring by their own numbers, up to the first bad one; whether all were good (R462). -/
def State.loadBlocks (w : Nat) : Nat → Nat → State → State × Bool
  | 0, _, s => (s, true)
  | n + 1, i, s =>
    let ws := (List.range 1024).map fun k => s.mems.win.readWord (w * 0x10000 + i * 4096 + 4 * k)
    if blockGood ws then State.loadBlocks w n (i + 1) (s.ringPlace (blockSeq ws) ws) else (s, false)

/-- Bytes copied into a window. -/
def State.winCopy (s : State) (w : Nat) (bs : List Byte) : State :=
  { s with mems := { s.mems with win := s.mems.win.writeBytes (w * 0x10000) bs } }

/-- What a copy moves; whether it came to its end. -/
def State.jobRun (s : State) (j : JobSt) : State × Bool :=
  if j.kind = 0 then
    let s := forN j.n (fun i t => t.ringFix (j.at0 + i)) s
    (s.winCopy j.win ((List.range j.n).flatMap fun i => (s.ringBlock (j.at0 + i)).flatMap bytesOfWord), true)
  else if j.kind = 1 then State.loadBlocks j.win j.n 0 s
  else if j.at0 < 4 then (s.winCopy j.win (s.mems.ret.readBytes (j.at0 * 0x10000) 0x10000), true)
  else
    let a := s.dev.dumpBase + (j.at0 - 4) * 0x10000
    let s := s.ddrRead a 0x10000
    (s.winCopy j.win (s.mems.ddr.readBytes a 0x10000), true)

/-- REC_EXP_DONE (R462, R471): the first copy under way comes to its end, and the window goes back to the master that gave it. A
window that has been taken from the DMA meanwhile is not written (R421). -/
def State.jobDone (s : State) : State :=
  match s.dev.hamper.jobs with
  | [] => s
  | j :: r =>
    let s := s.onDevS fun d => { d with hamper := { d.hamper with jobs := r } }
    if s.dev.winOwner j.win ≠ Mid.DMA then s.onDevS fun d => d.jobRefuse j.kind 3
    else
      let (s, good) := s.jobRun j
      s.onDevS fun d =>
        let d := d.winGiveTo j.win (d.get (R.WIN_OWN j.win) F.WIN_OWN_PREV)
        if good then (d.jobResult j.kind 1).raise Pg.REC Ev.REC_EXP_DONE else d.jobRefuse j.kind 2

/-! ### Meanings -/

def execRecStart (mid : Nat) (s : State) := onState (fun s => s.recCtrlWrite mid (fieldMask F.REC_CTRL_EN)) s
def execRecStop (mid : Nat) (s : State) := onState (fun s => s.recCtrlWrite mid 0) s
def execRecHostTrigger (mid : Nat) (s : State) := onState (fun s => s.recCtrlBits mid (fieldMask F.REC_CTRL_TRIG)) s
def execRecRearm (mid : Nat) (s : State) := onState (fun s => s.recCtrlBits mid (fieldMask F.REC_CTRL_REARM)) s
def execRecFreeze (mid : Nat) (s : State) := onState (fun s => s.recCtrlBits mid (fieldMask F.REC_CTRL_FREEZE)) s
def execRecFrozen (s : State) := onState (fun s => s.clocked Pg.REC State.recFrozen) s
def execBlockComplete (s : State) := onState (fun s => s.clocked Pg.REC State.blockComplete) s
def execAnchorTimer (s : State) := onDev (fun d => d.clocked Pg.REC fun d => d.anchorTimer) s
def execRecExport (mid : Nat) (val : Word) (s : State) := onDev (fun d => d.recExpWrite mid (val ||| fieldMask F.REC_EXP_GO)) s
def execRecExpDone (s : State) := onState (fun s => s.clocked Pg.REC State.jobDone) s
def execRplLoad (mid : Nat) (val : Word) (s : State) := onDev (fun d => d.rplLoadWrite mid (val ||| fieldMask F.RPL_LOAD_GO)) s
def execDmpExport (mid : Nat) (val : Word) (s : State) := onDev (fun d => d.dmpExpWrite mid (val ||| fieldMask F.DMP_EXP_GO)) s
def execDmpClear (mid : Nat) (s : State) := onDev (fun d => d.dmpCtrlWrite mid (fieldMask F.DMP_CTRL_CLR)) s

end Sys2Proof.Machine
end

