-- ==== Sys2Proof/Machine/Replay.lean ====
section
/-! DEFINITION. Replay (chapter 17, R463 to R466): reading a stream, the checks of a start, the anchors, records applied at their
ticks, comparison, the end. -/

namespace Sys2Proof.Machine

/-! ### Reading a stream -/

/-- The records of a block from word `ofs / 4` on, with full ticks; a PAD record ends them (R453, R454). -/
def parseWords (seq : Nat) : Nat → Nat → Nat → List Word → List RefSt
  | 0, _, _, _ => []
  | fuel + 1, hi, ofs, ws =>
    match ws with
    | h :: t :: rest =>
      let ty := h.toNat / 2 ^ 24
      let nw := h.toNat / 2 ^ 16 % 128
      let data := rest.take nw
      if ty = 0 then []
      else if ty = 1 then parseWords seq fuel (nthD 0 data 0).toNat (ofs + 8 + 4 * nw) (rest.drop nw)
      else
        let r : RecRec := { ty := ty, spec := bitOf h 23, res := h.toNat % 2 ^ 16, tick := hi * 2 ^ 32 + t.toNat, data := data }
        { r := r, seq := seq, ofs := ofs } :: parseWords seq fuel hi (ofs + 8 + 4 * nw) (rest.drop nw)
    | _ => []

/-- The records of a block. -/
def parseBlock (seq : Nat) (ws : List Word) : List RefSt := parseWords seq 512 (nthD 0 ws 2).toNat 16 (ws.drop 4)

/-- The stream from a block on, up to block `to1` (0: the last complete one), and the END code behind it (R465, R474). -/
def State.readStream (s : State) (to1 : Nat) : Nat → Nat → List RefSt × Nat
  | 0, _ => ([], 0)
  | fuel + 1, n =>
    if to1 ≠ 0 ∧ to1 < n then ([], 0)
    else
      let ws := s.ringBlock n
      if blockGood ws && blockSeq ws == n then
        let (l, stop) := s.readStream to1 fuel (n + 1)
        (parseBlock n ws ++ l, stop)
      else if to1 = 0 ∧ s.dev.recWseq ≤ n then ([], 0)
      else ([], 3)

/-- The records of the good blocks from a block on (R463), bad ones left out where more of the stream is held behind them. -/
def State.readGood (s : State) (to1 : Nat) : Nat → Nat → List RefSt
  | 0, _ => []
  | fuel + 1, n =>
    let ws := s.ringBlock n
    if to1 ≠ 0 ∧ to1 < n then []
    else if blockGood ws && blockSeq ws == n then parseBlock n ws ++ s.readGood to1 fuel (n + 1)
    else if n < s.dev.recWseq ∨ n < to1 then s.readGood to1 fuel (n + 1) else []

/-- The ring as a start reads it, with the errors it finds (R449). -/
def State.ringRead (s : State) : State := if s.dev.recOnChip then s else s.ddrRead 0 (s.dev.recNblk * 4096)

/-- The latest START record of a block's records, before record `lim` where that is given and of this block. -/
def startIn (l : List RefSt) (lim : Option RefSt) : Option RefSt :=
  (l.filter fun (p : RefSt) => p.r.ty == 0x03 && (match lim with
    | some q => p.seq != q.seq || decide (p.ofs < q.ofs)
    | none => true)).getLast?

/-- The latest START record in the blocks from `n` downward, before record `lim` of block `n` where that is given; whether every
block on the way is good. A good block of another number ends the search: there the stream has been overwritten. `b` is the ring's
blocks. -/
def startFrom (b : Nat → List Word) (lim : Option RefSt) : Nat → Nat → Bool → Option RefSt × Bool
  | 0, _, ok => (none, ok)
  | fuel + 1, n, ok =>
    let good := blockGood (b n)
    let mine := blockSeq (b n) == n
    if good && !mine then (none, ok)
    else
      match (if mine then startIn (parseBlock n (b n)) lim else none) with
      | some p => (some p, ok && good)
      | none => if n = 0 then (none, ok && good) else startFrom b lim fuel (n - 1) (ok && good)

/-- The latest START record before a record, and whether every block on the way to it is good (R463). -/
def State.findStart (s : State) (fuel n : Nat) (lim : Option RefSt) (ok : Bool) : Option RefSt × Bool :=
  startFrom s.ringBlock lim fuel n ok

/-! ### The anchor set -/

def isAnchor (p : RefSt) : Bool := decide (0x30 ≤ p.r.ty) && decide (p.r.ty ≤ 0x32)

/-- Whether an ANC_CTX record came late, behind the commit of its context in the same tick (R458). -/
def lateAnchor (l : List RefSt) (p : RefSt) : Bool :=
  p.r.ty == 0x30 && l.any fun (q : RefSt) => q.r.ty == 0x11 && q.r.res == p.r.res && q.r.tick == p.r.tick

/-- The ticks at which sets were requested: those of anchor records that did not come late. -/
def setTicks : List RefSt → List RefSt → List Nat
  | _, [] => []
  | all, p :: r => if isAnchor p && !lateAnchor all p then p.r.tick :: setTicks all r else setTicks all r

/-- The records before the first LOSS record. -/
def beforeLoss (l : List RefSt) : List RefSt := l.takeWhile fun (p : RefSt) => p.r.ty != 0x02

/-- Contexts of which a set holds an anchor, those whose anchor came late among them, up to the next set. -/
def setContexts (l : List RefSt) (ta : Nat) : List (Nat × Nat) :=
  (l.filter fun (p : RefSt) => p.r.ty == 0x30 && decide (ta ≤ p.r.tick)).map fun (p : RefSt) => (p.r.res, p.r.tick)

/-- Contexts that a recorded write has enabled behind a set's tick (R464): the set does not hold them. -/
def enabledSince (l : List RefSt) (ta : Nat) : List Nat :=
  (l.filter fun (p : RefSt) => p.r.ty == 0x15 && decide (ta ≤ p.r.tick) && getF (nthD 0 p.r.data 1) F.CTX_CTRL_EN != 0).flatMap fun p =>
    (List.range 192).filter fun c => R.CTX_CTRL c == (nthD 0 p.r.data 0).toNat

/-- Whether every context that triggers or passes behind a set's tick has an anchor behind it, or has been enabled only then (log entry
74, DEDUCED). -/
def setComplete (l : List RefSt) (ta : Nat) : Bool :=
  let named := (setContexts l ta).map (fun (x : Nat × Nat) => x.1) ++ enabledSince l ta
  l.all fun (p : RefSt) => !(p.r.ty == 0x10 || p.r.ty == 0x11) || decide (p.r.tick ≤ ta) || named.contains p.r.res

/-- T_A of the first complete set (R463). -/
def firstSet (l : List RefSt) : Option Nat :=
  let m := beforeLoss l
  (setTicks m m).find? fun ta => setComplete m ta

/-! ### Starting states (R464) -/

/-- The words of a context's record from its anchor. -/
def Dev.joinCtx (d : Dev) (c : Nat) (ws : List Word) : Dev :=
  if !d.ctxPresent c then d
  else
    let d := forN 112 (fun i e => e.setReg (ctxA c i) (nthD 0 ws i)) d
    let d := d.setCtx c { seen := forN 8 (fun i l => spPut 0 l i (d.slotCount c i)) [] }
    { d with rpl := { d.rpl with joined := d.rpl.joined ++ [c], todo := d.rpl.todo.erase c } }

/-- A track from its anchor. -/
def Dev.joinTrk (d : Dev) (k : Nat) (ws : List Word) : Dev :=
  if nTracks ≤ k then d
  else
    let w (i : Nat) : Nat := (nthD 0 ws i).toNat
    let v := sext 32 (w 2)
    let d := d.setReg (R.TRK_STAT k) (BitVec.ofNat 32 (w 5))
    let d := d.setTrk k { ang := w 0 + w 1 % 256 * 2 ^ 32, spd := v, res := sext 40 (w 3 + w 4 % 256 * 2 ^ 32), base := d.gtc,
                          hasSpd := v != 0 }
    d.setTrk k { d.trkS k with pPrev := d.trkP k }

/-- A group from its anchor. -/
def Dev.joinPwm (d : Dev) (g : Nat) (ws : List Word) : Dev :=
  if !groupPresent d.member g then d
  else
    let w (i : Nat) : Nat := (nthD 0 ws i).toNat
    let d := d.putB (R.PG_CTRL (Pg.PWT g)) F.PG_CTRL_EN true
    let d := forN 12 (fun i e => e.setReg (pageBase (Pg.PWT g) + 0x40 + 4 * i) (nthD 0 ws i)) d
    let d := forN 3 (fun x e => (e.setReg (R.PWT_LEG g x) (nthD 0 ws (12 + x))).setReg (R.PWT_CARRY g x) (nthD 0 ws (18 + x))) d
    let vec := (List.range 3).map fun x => (sext 20 (w (15 + x)), sext 6 (w (15 + x) / 2 ^ 20))
    let a := R.PWT_STAT g
    let valid := bitOf (nthD 0 ws 24) 29
    let d := ((d.putB a F.PWT_STAT_RUN true).putB a F.PWT_STAT_VALID valid).putB a F.PWT_STAT_ALOCKED (bitOf (nthD 0 ws 24) 31)
    let v := w 22 + w 23 * 2 ^ 32
    let p := w 21
    let sh := if valid then some vec else none
    let s : Int := if bitOf (nthD 0 ws 24) 30 then -1 else 1
    let d := d.setGrp g { vec := sh, comm := sh, v := v, p := p, lockDir := s, lockJ := (w 24 % 256 : Nat) }
    let mid := v + p / 2
    let load := if d.pwmDbl g && decide (d.gtc < mid) then (mid, true) else (v + p, false)
    d.setGrp g { d.grpS g with load := some load }

/-- One anchor record applied. -/
def Dev.applyAnchor (d : Dev) (p : RefSt) : Dev :=
  if p.r.ty = 0x30 then d.joinCtx p.r.res p.r.data
  else if p.r.ty = 0x31 then d.joinTrk p.r.res p.r.data
  else if p.r.ty = 0x32 then d.joinPwm p.r.res p.r.data else d

/-- The full tick of 32 bits that lie at or before a tick. -/
def tickBefore (t lo : Nat) : Nat := t - (t + 2 ^ 32 - lo % 2 ^ 32) % 2 ^ 32

/-- The intervals of the passes of contexts that join late (R464): of a pass that commits or is abandoned from T_r to its PASS record, of a
speculative pass from T_r to its staging. -/
def busyOf (l : List RefSt) (late : List (Nat × Nat)) : List (Nat × Nat × Nat) :=
  l.filterMap fun (p : RefSt) =>
    let w (i : Nat) : Nat := (nthD 0 p.r.data i).toNat
    let from1 (t : Nat) : Option (Nat × Nat × Nat) := some (p.r.res, tickBefore p.r.tick t, p.r.tick)
    if !late.any fun (x : Nat × Nat) => x.1 == p.r.res && decide (p.r.tick ≤ x.2) then none
    else if p.r.ty = 0x11 ∧ p.r.spec = false ∧ (w 1 % 16 = 1 ∨ w 1 % 16 = 5) then from1 (w 0)
    else if p.r.ty = 0x17 then from1 (w 1) else none

/-! ### Slots (R464, log entry 286)

An anchor set does not hold the phase of a slot. A replay takes it from the stream: from the first effect tick that a record shows. -/

/-- The slot whose action a record shows: the one a SLOT or MARK record names, the lowest that aims at the context of a REQ record. -/
def Dev.slotShown (d : Dev) (p : RefSt) : Option Nat :=
  if p.r.ty = 0x06 then some p.r.res
  else if p.r.ty = 0x05 then some (nthD 0 p.r.data 0).toNat
  else if p.r.ty = 0x10 then (List.range nSlots).find? fun s =>
    let r := d.slotFiring s 0
    r.action == (if p.r.spec then 5 else 4) && (firingTargets r 192).contains p.r.res
  else none

/-- The effect ticks that a stream shows, with their slots. -/
def Dev.slotShows (d : Dev) (l : List RefSt) : List (Nat × Nat) :=
  l.filterMap fun (p : RefSt) => (d.slotShown p).map fun s => (s, p.r.tick)

/-- Actions under way at T_A: decided before it, they take effect up to 8 ticks after (R72). -/
def Dev.slotsUnder (d : Dev) (shows : List (Nat × Nat)) (ta : Nat) : List Firing :=
  (shows.filter fun (x : Nat × Nat) => decide (ta ≤ x.2) && decide (x.2 < ta + 8)).foldl (fun (l : List Firing) x =>
    let r := d.slotFiring x.1 x.2
    if r.action = 0 ∨ liveAction r.action ∨ l.contains r then l else firingInsert l r) []

/-- A slot's ticks moved. -/
def SlotSt.shift (q : SlotSt) (by1 : Int) : SlotSt :=
  let t (x : Nat) : Nat := ((x : Int) + by1).toNat
  { q with armTick := t q.armTick, nextF := t q.nextF, lastEv := 0, decAt := 0 }

/-- A slot at T_A: its next effect is the next one the stream shows; where it shows none, the slot keeps its phase. -/
def Dev.slotOnRt (d : Dev) (shows : List (Nat × Nat)) (ta : Nat) (by1 : Int) (s : Nat) : SlotSt :=
  let q := d.slotS s
  match shows.find? fun (x : Nat × Nat) => x.1 == s && decide (ta + 8 ≤ x.2) with
  | some x =>
    let ty := d.get (R.SLOT_TRIG s) F.SLOT_TRIG_TYPE
    { armTick := if ty = 3 then x.2 - 9 else x.2 - 8, nextF := x.2, cnt := d.get (R.SLOT_TRIG s) F.SLOT_TRIG_CDIV }
  | none => q.shift by1

/-- The stream behind the anchors of a set's tick. -/
def behindSet (l : List RefSt) (ta : Nat) : List RefSt :=
  (l.dropWhile fun (p : RefSt) => !(isAnchor p && p.r.tick == ta)).dropWhile fun (p : RefSt) => isAnchor p && p.r.tick == ta

/-- The device at the start of a replay: T_A is the present RT. -/
def Dev.replayBegin (d : Dev) (l : List RefSt) (ta stop : Nat) : Dev :=
  let here := l.filter fun (p : RefSt) => isAnchor p && p.r.tick == ta
  let named := here.filterMap fun (p : RefSt) => if p.r.ty = 0x30 then some p.r.res else none
  let later := ((setContexts (beforeLoss l) ta).filter fun (x : Nat × Nat) => !named.contains x.1).foldl
    (fun (m : List (Nat × Nat)) x => if m.any (fun (y : Nat × Nat) => y.1 == x.1) then m else m ++ [x]) []
  let rest := behindSet l ta
  let shows := d.slotShows (here ++ rest)
  let back : Int := (ta : Int) - (d.gtc : Int)
  let d := d.dropAllP
  let d := (d.setReg R.RPL_STAT (d.reg R.RPL_STAT &&& fieldMask F.RPL_STAT_DIRTY)).putB R.RPL_STAT F.RPL_STAT_RUN true
  let d := (d.setReg R.RPL_CNT 0).grantAll
  let d := { d with
    slot := d.slot.map fun (x : Nat × SlotSt) => (x.1, d.slotOnRt shows ta back x.1)
    firings := d.slotsUnder shows ta
    rpl := { back := back, ref := rest, todo := later.map (fun (x : Nat × Nat) => x.1), busy := busyOf rest later, stop := stop,
             last := ((here ++ rest).getLast?.map (fun (p : RefSt) => p.r)).getD {} } }
  d.onRt fun (e : Dev) =>
    let e := forN (nCtx e.member) (fun c (x : Dev) => (x.putB (R.CTX_CTRL c) F.CTX_CTRL_EN false).setCtx c {}) e
    let e := forN 20 (fun g (x : Dev) => if x.pwmEn g then x.groupDisable g else x) e
    let e := forN (nAcc e.member) (fun a (x : Dev) => x.setAcc a { x.accS a with cur := none, pend := none }) e
    let e := forN (nEngines e.member) (fun k (x : Dev) => (x.put (R.LE_STAT k) F.LE_STAT_RUN_CTX 0xFF).put (R.LE_STAT k) F.LE_STAT_RCP_CTX 0xFF) e
    here.foldl Dev.applyAnchor e

/-! ### The checks of a start (R463) -/

/-- The conditions on a START record, in order: the first failing code; 0 where none fails. -/
def Dev.startFails (d : Dev) (p : Option RefSt) : Nat :=
  match p with
  | none => 3
  | some p =>
    let w (i : Nat) : Word := nthD 0 p.r.data i
    if (w 0).toNat % 256 ≠ (d.reg (R.PG_ID Pg.SYS)).toNat % 256 then 3
    else if w 1 ≠ d.spbCheck ∨ d.flag R.SAFE_STAT F.SAFE_STAT_CONFIRMED = false then 4
    else if (p.r.data.drop 2).take 8 ≠ d.hashWords then 5
    else if (p.r.data.drop 10).take 28 ≠ startPages.map d.pgCrc then 6 else 0

/-- Anchor records of a set's tick. -/
def setSize (l : List RefSt) (ta : Nat) : Nat := (l.filter fun (p : RefSt) => isAnchor p && p.r.tick == ta).length

/-- RPL_START (R463): the set and the checks; the stream is read from the set on. -/
def State.replayStart (s : State) : State :=
  let s := if s.dev.devState = DS.READY ∧ s.dev.flag R.REC_CTRL F.REC_CTRL_EN = false then s.ringRead else s
  let d := s.dev
  let from1 := (d.reg R.RPL_FROM).toNat
  let to1 := (d.reg R.RPL_TO).toNat
  let all := s.readGood to1 d.recNblk from1
  let ta := firstSet all
  let first := match ta with
    | some t => all.find? fun (p : RefSt) => isAnchor p && p.r.tick == t
    | none => none
  let (l, stop) := s.readStream to1 d.recNblk ((first.map (·.seq)).getD from1)
  let whole := match ta with
    | some t => setComplete (beforeLoss l) t && setSize l t == setSize all t
    | none => true
  let (st, good) := s.findStart d.recNblk ((first.map (·.seq)).getD from1) first true
  let code := if d.devState ≠ DS.READY then 1
    else if d.flag R.REC_CTRL F.REC_CTRL_EN then 2
    else if d.startFails st ≠ 0 then d.startFails st
    else if ta.isNone then 7
    else if !(good && whole) then 8 else 0
  match ta with
  | some t =>
    if code = 0 then s.onDevS fun d => d.replayBegin l t stop
    else s.onDevS fun d => (d.put R.RPL_STAT F.RPL_STAT_REFUSE code).raise Pg.RPL Ev.RPL_REFUSED
  | none => s.onDevS fun d => (d.put R.RPL_STAT F.RPL_STAT_REFUSE code).raise Pg.RPL Ev.RPL_REFUSED

/-! ### The end (R464, R465) -/

/-- A replay ends with an END code: every context stays disabled. -/
def Dev.replayEnd (d : Dev) (code : Nat) : Dev :=
  let a := R.RPL_STAT
  let d := (((d.putB a F.RPL_STAT_RUN false).putB a F.RPL_STAT_DONE true).putB a F.RPL_STAT_DIRTY true).put a F.RPL_STAT_END code
  let d := forN (nCtx d.member) (fun c e => (e.putB (R.CTX_CTRL c) F.CTX_CTRL_EN false).setCtx c {}) d
  let d := forN (nEngines d.member) (fun k e => (e.put (R.LE_STAT k) F.LE_STAT_RUN_CTX 0xFF).put (R.LE_STAT k) F.LE_STAT_RCP_CTX 0xFF) d
  let d := forN (nAcc d.member) (fun a e => e.setAcc a { e.accS a with cur := none, pend := none }) d
  let back := d.rpl.back
  ({ d with rpl := {}, firings := [], slot := d.slot.map fun (x : Nat × SlotSt) => (x.1, x.2.shift (-back)) } : Dev).grantAll.raise Pg.RPL Ev.RPL_DONE

/-! ### Records applied and compared (R464, R465) -/

/-- A window commit taken from the stream. -/
def Dev.applyAcc (d : Dev) (p : RefSt) : Dev :=
  let a := p.r.res
  if nAcc d.member ≤ a then d
  else
    let w (i : Nat) : Word := nthD 0 p.r.data i
    let q := d.accS a
    let d := d.setAcc a { q with cAt := d.gtc + 1, n := q.n + 1 }
    let d := (d.setReg (R.ACC_RES0 a) (w 0)).setReg (R.ACC_RES1 a) (w 1)
    let d := (d.put (R.ACC_CNT a) F.ACC_CNT_N ((w 2).toNat % 2 ^ 24)).put (R.ACC_CNT a) F.ACC_CNT_SEQ
      ((d.get (R.ACC_CNT a) F.ACC_CNT_SEQ + 1) % 256)
    let st := R.ACC_STAT a
    let d := d.setReg st ((d.reg st &&& ~~~ (0x1F : Word)) ||| BitVec.ofNat 32 ((w 2).toNat / 2 ^ 24 % 32))
    let d := d.ctxAccCommit a
    let w := spGet 0 d.rpl.pend a
    let d := { d with rpl := { d.rpl with pend := spPut 0 d.rpl.pend a 0 } }
    if w = 0 then d else (d.specSee a (w - 1)).specTryAll

/-- A track update taken from the stream. -/
def Dev.applyRecUpd (d : Dev) (p : RefSt) : Dev :=
  if nTracks ≤ p.r.res then d
  else
    let h := nthD 0 p.r.data 0
    let v := if bitOf h 29 then some (sext 32 (nthD 0 p.r.data 1).toNat) else none
    d.applyUpd p.r.res { m := h.toNat % 2 ^ 20 * cnt20, v := v, ts := tickBefore p.r.tick (nthD 0 p.r.data 2).toNat, ta := d.gtc,
                         valid := bitOf h 31, unc := bitOf h 30 }

/-- The register that holds the owner of what a register belongs to, and the field. -/
def ownReg : Own → Nat × RField
  | .page p => (R.PG_CTRL p, F.PG_CTRL_OWNER_MID)
  | .unit c _ => (c, F.CLAIM_OWNER)

/-- A recorded write applied (R464): it was accepted when it was recorded, so neither who holds the unit now nor the device's state
matters. -/
def Dev.applyRecWrite (d : Dev) (p : RefSt) : Dev :=
  let a := (nthD 0 p.r.data 0).toNat
  let page := pageOf a
  let off := offOf a
  match pageInfo page with
  | some (b, i) =>
    let o := ownReg (if off < 0x40 then .page page else d.ownAt b i page off)
    let old := d.get o.1 o.2
    let d : Dev := { d with rpl := { d.rpl with applying := true } }
    let d := ((d.put o.1 o.2 Mid.S0).pWrite Mid.S0 a (nthD 0 p.r.data 1)).put o.1 o.2 old
    { d with rpl := { d.rpl with applying := false } }
  | none => d

/-- The first word in which two records differ, with both words: 0 is the header, 1 TICK, 2 onward the words after them. -/
def firstDiff : Nat → List Word → List Word → Option (Nat × Word × Word)
  | _, [], [] => none
  | n, x :: xs, y :: ys => if x = y then firstDiff (n + 1) xs ys else some (n, x, y)
  | n, x :: _, [] => some (n, x, 0)
  | n, [], y :: _ => some (n, 0, y)

/-- The head of the stream taken off. -/
def Dev.refDrop (d : Dev) : Dev := { d with rpl := { d.rpl with ref := d.rpl.ref.drop 1 } }

/-- A recorded record that is compared, with its reproduction if there is one. In its own tick it waits for it. -/
def Dev.compareRec (d : Dev) (p : RefSt) : Dev :=
  match d.rpl.got.find? fun (g : RecRec) => g.ty == p.r.ty && g.res == p.r.res with
  | some g =>
    let d := { d with rpl := { d.rpl with got := d.rpl.got.erase g } }
    let d := (d.refDrop).setReg R.RPL_CNT (d.reg R.RPL_CNT + 1)
    match firstDiff 0 (recWords p.r) (recWords g) with
    | some (n, x, y) => d.diverge p n x y
    | none => d
  | none => if d.gtc ≤ p.r.tick then d else d.refDrop.diverge p 1 (BitVec.ofNat 32 p.r.tick) (BitVec.ofNat 32 d.gtc)

/-- Reproduced records that the stream does not hold, and PART records that no pass has read at their tick, of those that `past` says the
stream has passed; `p` is the place in it. -/
def Dev.surplus (d : Dev) (p : RefSt) (past : RecRec → Bool) : Dev :=
  let got := d.rpl.got.filter past
  let parts := d.rpl.parts.filter fun (q : RefSt) => past q.r
  let d := { d with rpl := { d.rpl with
    got := d.rpl.got.filter fun (g : RecRec) => !past g
    parts := d.rpl.parts.filter fun (q : RefSt) => !past q.r } }
  let d := parts.foldl (fun (e : Dev) q => e.diverge q 1 (BitVec.ofNat 32 q.r.tick) 0) d
  got.foldl (fun (e : Dev) g => e.diverge { p with r := g } 1 (BitVec.ofNat 32 p.r.tick) (BitVec.ofNat 32 g.tick)) d

/-- A record that is neither compared nor an end, applied. -/
def Dev.applyRec (d : Dev) (p : RefSt) : Dev :=
  let d := d.refDrop
  let t := p.r.ty
  if t = 0x12 then d.applyAcc p
  else if t = 0x13 then { d with rpl := { d.rpl with parts := d.rpl.parts ++ [p] } }
  else if t = 0x14 then d.applyRecUpd p
  else if t = 0x15 then d.applyRecWrite p
  else if t = 0x30 ∧ d.rpl.todo.contains p.r.res = true then d.joinCtx p.r.res p.r.data
  else d

/-- REPLAY_RECORD on RT: the first record still to come, at its tick. -/
def Dev.replayRecord (d : Dev) : Dev :=
  match d.rpl.ref with
  | [] => d
  | p :: _ =>
    if d.gtc < p.r.tick then d
    else
      let d := d.surplus p fun r => decide (r.tick < p.r.tick)
      if rplCompared p.r.ty && d.rpl.joined.contains p.r.res then d.compareRec p
      else if p.r.ty = 0x02 then d
      else d.applyRec p

/-- Behind the last record's tick: what the stream up to that record does not hold, and PART records that no pass has read (R465). -/
def Dev.lastSurplus (d : Dev) : Dev := d.surplus { r := d.rpl.last } fun r => recBefore r d.rpl.last

/-- REPLAY_RECORD (R464, R465), with the end it may bring: behind the tick of the last record. -/
def Dev.replayStep (d : Dev) : Dev :=
  if !d.replaying then d
  else
    let loss := match d.rpl.ref with
      | p :: _ => decide ((p.r.tick : Int) ≤ (d.gtc : Int) + d.rpl.back) && p.r.ty == 0x02
      | [] => false
    let d := d.onRt Dev.replayRecord
    let past := d.rpl.ref.isEmpty && decide ((d.rpl.last.tick : Int) < (d.gtc : Int) + d.rpl.back)
    let d := if past then d.onRt Dev.lastSurplus else d
    if d.flag R.RPL_STAT F.RPL_STAT_DIVERGED && d.flag R.RPL_CTRL F.RPL_CTRL_DIV_STOP then d.replayEnd 1
    else if loss then d.replayEnd 2 else if past then d.replayEnd d.rpl.stop else d

/-- A write of RPL_CTRL (R463, R465): START, then ABORT. A START while a replay runs is without effect. -/
def State.rplCtrlWrite (s : State) (mid : Nat) (w : Word) : State :=
  let a := R.RPL_CTRL
  let taken := s.dev.takenAt mid a
  let s := s.onDevS fun d => d.plainWrite mid a w
  if !taken then s
  else
    let s := s.onDevS fun d => d.setReg a (d.reg a &&& fieldMask F.RPL_CTRL_DIV_STOP)
    let s := if bitOf w 31 && !s.dev.replaying then s.replayStart else s
    if bitOf w 30 && s.dev.replaying then s.onDevS fun d => d.replayEnd 4 else s

/-- RPL_CTRL written with DIV_STOP as it stands and a further bit. -/
def State.rplCtrlBits (s : State) (mid : Nat) (bits : Word) : State :=
  s.rplCtrlWrite mid ((s.dev.reg R.RPL_CTRL &&& fieldMask F.RPL_CTRL_DIV_STOP) ||| bits)

/-! ### Meanings -/

def execRplStart (mid : Nat) (s : State) := onState (fun s => s.rplCtrlBits mid (fieldMask F.RPL_CTRL_START)) s
def execReplayRecord (s : State) := onDev (fun d => d.clocked Pg.RPL fun d => d.replayStep) s
def execRplAbort (mid : Nat) (s : State) := onState (fun s => s.rplCtrlBits mid (fieldMask F.RPL_CTRL_ABORT)) s

end Sys2Proof.Machine
end

