-- ==== Sys2Proof/Machine/Ports.lean ====
section
/-! DEFINITION. External ports and memory (chapter 16, R435 to R442, R448 to R451): CAN FD, Ethernet, the PCIe endpoint, LPDDR4X.
The SPI target's frames stand in Frames.lean. -/

namespace Sys2Proof.Machine

/-! ### CAN FD (R435 to R437) -/

def nCan : Nat := 8
def nEth : Nat := 2

/-- Address of word `w` of buffer `b`: 0 identifier, 1 control, 2 timestamp, 3 to 18 data (R436). -/
def canBuf (k b w : Nat) : Nat := R.CAN_RAM k (19 * b + w)

/-- PASSIVE follows the error counts (ISO 11898-1, log entry 80, PRESUMED). -/
def Dev.canPassive (d : Dev) (k : Nat) : Dev :=
  d.putB (R.CAN_STAT k) F.CAN_STAT_PASSIVE
    (decide (127 < d.get (R.CAN_STAT k) F.CAN_STAT_TEC) || decide (127 < d.get (R.CAN_STAT k) F.CAN_STAT_REC))

/-- Whether an acceptance filter takes an identifier word: EN, IDE and identifier (R436, R451). -/
def Dev.canAccepts (d : Dev) (k : Nat) (ident : Word) : Bool :=
  (List.range 32).any fun n =>
    let f := (d.reg (R.CAN_FLT k n)).toNat
    decide (2 ^ 31 ≤ f) && f % 2 ^ 30 == ident.toNat % 2 ^ 30

/-- Words written into a buffer from word `w` on. -/
def Dev.canFill (d : Dev) (k b w : Nat) : List Word → Dev
  | [] => d
  | x :: r => Dev.canFill (d.setReg (canBuf k b w) x) k b (w + 1) r

/-- Whether a controller takes part in a frame's format (R435, R451): CAN FD where FD_EN permits it, bit-rate switching where BRS_EN does. -/
def Dev.canTakes (d : Dev) (k : Nat) (ctrl : Word) (fd : Bool) : Bool :=
  let a := R.CAN_CTRL k
  (d.flag a F.CAN_CTRL_FD_EN || !(fd || Config.canForm ctrl != 0)) && (d.flag a F.CAN_CTRL_BRS_EN || decide (Config.canForm ctrl < 2))

/-- Whether a controller sends a buffer (R435, R451): a CAN FD frame where FD_EN permits it; without BRS_EN it is sent at one bit rate. -/
def Dev.canSends (d : Dev) (k : Nat) (ctrl : Word) : Bool := d.flag (R.CAN_CTRL k) F.CAN_CTRL_FD_EN || Config.canForm ctrl == 0

/-- A frame received with an error (R435, ISO 11898-1; log entry 80, PRESUMED). -/
def Dev.canRxError (d : Dev) (k : Nat) : Dev :=
  let (w, d) := d.fresh
  ((d.addSat (R.CAN_STAT k) F.CAN_STAT_REC 1).put (R.CAN_STAT k) F.CAN_STAT_LEC w.toNat).canPassive k

/-- CAN_FRAME_RX (R436). A frame of more than 8 data bytes is a CAN FD frame. A frame of a format that the controller does not take passes it
by (log entry 260). -/
def Dev.canFrameRx (d : Dev) (k : Nat) (ident ctrl : Word) (data : List Byte) (err : Bool) : Dev :=
  let q := d.canS k
  if nCan ≤ k ∨ d.flag (R.CAN_STAT k) F.CAN_STAT_BUS_OFF then d
  else if err then d.canRxError k
  else if !d.canTakes k ctrl (decide (8 < data.length)) then d
  else
    let d := d.put (R.CAN_STAT k) F.CAN_STAT_REC (d.get (R.CAN_STAT k) F.CAN_STAT_REC - 1)
    let d := d.canPassive k
    if !d.canAccepts k ident then d
    else
      match ((List.range 24).map (· + 16)).find? fun b => !q.full.contains b with
      | some b =>
        let d := d.canFill k b 0 ([ident, ctrl, BitVec.ofNat 32 d.gtc] ++ wordsOfBytes (data.take 64))
        d.setCan k { q with full := q.full ++ [b] }
      | none => d.raiseN (Pg.CAN k) Ev.CAN_RX_OVF k

/-- The pending buffer with the lowest identifier, then the lowest number (R436), among those that the controller sends. -/
def Dev.canNext (d : Dev) (k : Nat) : Option Nat :=
  ((List.range 16).filter fun b => (d.canS k).pend.contains b && d.canSends k (d.reg (canBuf k b 1))).foldl (fun (m : Option Nat) b => match m with
    | none => some b
    | some x => if (d.reg (canBuf k b 0)).toNat % 2 ^ 29 < (d.reg (canBuf k x 0)).toNat % 2 ^ 29 then some b else some x) none

/-- CAN_FRAME_TX (R436, R437): a success frees the buffer; a failure counts 8 and the buffer stays pending. -/
def Dev.canFrameTx (d : Dev) (k : Nat) (ok : Bool) : Dev :=
  let a := R.CAN_STAT k
  if nCan ≤ k ∨ d.flag a F.CAN_STAT_BUS_OFF then d
  else match d.canNext k with
    | none => d
    | some b =>
      let q := d.canS k
      let t := d.get a F.CAN_STAT_TEC
      if ok then
        let d := (d.setCan k { q with pend := q.pend.erase b }).setReg (canBuf k b 2) (BitVec.ofNat 32 d.gtc)
        ((d.put a F.CAN_STAT_TEC (t - 1)).put a F.CAN_STAT_LEC 0).canPassive k
      else
        let (w, d) := d.fresh
        let d := ((d.put a F.CAN_STAT_TEC (min 255 (t + 8))).put a F.CAN_STAT_LEC w.toNat).canPassive k
        if 255 < t + 8 then (d.putB a F.CAN_STAT_BUS_OFF true).raiseN (Pg.CAN k) Ev.CAN_BUS_OFF k else d

/-- A write of CAN_CTRL (R437): RECOVER stands while the recovery of a bus-off controller runs. -/
def Dev.canCtrlWrite (d : Dev) (mid k : Nat) (w : Word) : Dev :=
  let d := d.plainWrite mid (R.CAN_CTRL k) w
  if d.flag (R.CAN_STAT k) F.CAN_STAT_BUS_OFF then d else d.putB (R.CAN_CTRL k) F.CAN_CTRL_RECOVER false

/-- A write into the message RAM: the control word of a transmit buffer makes it pending, that of a receive buffer frees it (log
entry 81). -/
def Dev.canRamWrite (d : Dev) (mid k x : Nat) (w : Word) : Dev :=
  let a := R.CAN_RAM k x
  let taken := d.takenAt mid a
  let d := d.plainWrite mid a w
  let b := x / 19
  let q := d.canS k
  if !taken || x % 19 != 1 then d
  else if b < 16 then d.setCan k { q with pend := if q.pend.contains b then q.pend else q.pend ++ [b] }
  else d.setCan k { q with full := q.full.erase b }

/-- Writes in the CAN pages. -/
def Dev.canPageWrite (d : Dev) (mid k off a : Nat) (w : Word) : Dev :=
  if off = 0x40 then d.canCtrlWrite mid k w
  else if 0x400 ≤ off ∧ off < 0xFE0 then d.canRamWrite mid k ((off - 0x400) / 4) w
  else d.plainWrite mid a w

/-- CAN_RECOVERY_DONE (R437): the bus has shown 128 sequences of 11 recessive bits since RECOVER was written. -/
def Dev.canRecovered (d : Dev) (k : Nat) : Dev :=
  let a := R.CAN_STAT k
  if decide (k < nCan) && d.flag a F.CAN_STAT_BUS_OFF && d.flag (R.CAN_CTRL k) F.CAN_CTRL_RECOVER then
    let d := ((d.putB a F.CAN_STAT_BUS_OFF false).put a F.CAN_STAT_TEC 0).put a F.CAN_STAT_REC 0
    (d.putB (R.CAN_CTRL k) F.CAN_CTRL_RECOVER false).canPassive k
  else d

/-! ### Ethernet (R438 to R440) -/

/-- Bytes of a frame FIFO (R440), and the longest frame (R438). -/
def ethFifo : Nat := 16384
def ethMax : Nat := 1522

/-- EtherType of a frame, behind a VLAN tag where there is one. -/
def etherType (bs : List Byte) : Nat :=
  let t := natBE ((bs.drop 12).take 2)
  if t = 0x8100 then natBE ((bs.drop 16).take 2) else t

/-- The address filter of a port (R438). -/
def Dev.ethAccepts (d : Dev) (k : Nat) (bs : List Byte) : Bool :=
  let dst := natBE (bs.take 6)
  dst == 2 ^ 48 - 1 || dst == Config.stationAddr k % 2 ^ 48 ||
    (List.range 8).any fun n =>
      dst == (d.reg (R.ETH_MCAST k n)).toNat + d.get (R.ETH_MCASTH k n) F.ETH_MCASTH_ADDR_HI * 2 ^ 32
        && dst / 2 ^ 40 % 2 == 1

/-- Bytes that a frame takes in a FIFO: whole words. -/
def frameSpace (bs : List Byte) : Nat := (bs.length + 3) / 4 * 4

/-- Whether a frame holds a Pdelay_Req of domain 0: messageType in bits 3:0 of the first byte behind the EtherType, domainNumber in the
fifth (IEEE 802.1AS, PRESUMED, log entry 341). -/
def isPdelayReq (bs : List Byte) : Bool :=
  let p := bs.drop (if natBE ((bs.drop 12).take 2) = 0x8100 then 18 else 14)
  etherType bs == 0x88F7 && (nthD 0 p 0).toNat % 16 == 2 && nthD 0 p 4 == 0 && decide (5 ≤ p.length)

/-- Garmal answers a Pdelay_Req on either port with its timestamp at the start-frame delimiter (R439). -/
def Dev.pdelayAnswer (d : Dev) (k : Nat) : Dev :=
  if d.flag R.RST_DOM F.RST_DOM_S0_HELD || d.devState == DS.BOOT then d else d.setEth k { d.ethS k with pdAns := some d.gtc }

/-- ETH_FRAME_RX (R438 to R440): a frame of EtherType 0x88F7 goes to Garmal alone. -/
def Dev.ethFrameRx (d : Dev) (k : Nat) (bs : List Byte) : Dev :=
  let q := d.ethS k
  if nEth ≤ k ∨ !d.flag (R.ETH_STAT k) F.ETH_STAT_LINK ∨ ethMax < bs.length ∨ bs.length < 14 then d
  else if etherType bs = 0x88F7 then (if isPdelayReq bs then d.pdelayAnswer k else d)
  else if !d.ethAccepts k bs then d
  else if ethFifo < (q.rx.map frameSpace).sum + frameSpace bs then d.bump (R.ETH_STAT k) F.ETH_STAT_RX_DROP
  else d.setEth k { q with rx := q.rx ++ [bs] }

/-- A write of ETH_TXD (R440): the frame is sent with its last word. -/
def Dev.ethTxdWrite (d : Dev) (mid k : Nat) (w : Word) : Dev :=
  let q := d.ethS k
  let len := d.get (R.ETH_TXLEN k) F.ETH_TXLEN_LEN
  if !d.takenAt mid (R.ETH_TXD k) then d.deny (Pg.ETH k)
  else if ethFifo ≤ 4 * q.tx.length then d.putB (R.ETH_STAT k) F.ETH_STAT_TX_OVF true
  else
    let tx := q.tx ++ [w]
    if 0 < len ∧ len ≤ ethMax ∧ len ≤ 4 * tx.length then
      d.setEth k { q with tx := [], sent := (tx.flatMap bytesOfWord).take len }
    else d.setEth k { q with tx := tx }

/-- A write of ETH_TXLEN: a new frame begins. -/
def Dev.ethTxlenWrite (d : Dev) (mid k : Nat) (w : Word) : Dev :=
  let taken := d.takenAt mid (R.ETH_TXLEN k)
  let d := d.plainWrite mid (R.ETH_TXLEN k) w
  if taken then d.setEth k { d.ethS k with tx := [] } else d

/-- ETH_RXLEN as it reads (R440). -/
def Dev.ethRxlen (d : Dev) (k : Nat) : Word := BitVec.ofNat 32 ((d.ethS k).rx.headD []).length

/-- The word that a read of ETH_RXD takes; 0 where there is none. -/
def Dev.ethRxdWord (d : Dev) (k : Nat) : Word :=
  let q := d.ethS k
  wordOfBytes (((q.rx.headD []).drop (4 * q.pos)).take 4)

/-- A read of ETH_RXD: the oldest frame's words in order; with its last word the frame leaves. -/
def Dev.ethRxdRead (d : Dev) (mid k : Nat) : Dev :=
  let q := d.ethS k
  let d := d.answer mid (d.ethRxdWord k)
  match q.rx with
  | [] => d
  | f :: r => if f.length ≤ 4 * (q.pos + 1) then d.setEth k { q with rx := r, pos := 0 } else d.setEth k { q with pos := q.pos + 1 }

/-- A write of ETH_CTRL: RXPOP discards what remains of the oldest frame. -/
def Dev.ethCtrlWrite (d : Dev) (mid k : Nat) (w : Word) : Dev :=
  if !d.takenAt mid (R.ETH_CTRL k) then d.denyIf (bitOf w 0) (Pg.ETH k)
  else if bitOf w 0 then d.setEth k { d.ethS k with rx := (d.ethS k).rx.drop 1, pos := 0 } else d

/-- AS_CAP follows the measured delay and its limit (R439). -/
def Dev.ethAsCap (d : Dev) (k : Nat) (measured : Bool) : Dev :=
  d.putB (R.ETH_STAT k) F.ETH_STAT_AS_CAP
    (measured && decide (d.get (R.ETH_PDLY k) F.ETH_PDLY_DLY < d.get (R.ETH_PDLY k) F.ETH_PDLY_MAX))

/-- A write of ETH_PDLY: a new limit. -/
def Dev.ethPdlyWrite (d : Dev) (mid k : Nat) (w : Word) : Dev :=
  (d.plainWrite mid (R.ETH_PDLY k) w).ethAsCap k (d.flag (R.ETH_STAT k) F.ETH_STAT_AS_CAP)

/-- Writes in the ETH pages. -/
def Dev.ethPageWrite (d : Dev) (mid k off a : Nat) (w : Word) : Dev :=
  if off = 0x40 then d.ethCtrlWrite mid k w
  else if off = 0x50 then d.ethTxlenWrite mid k w
  else if off = 0x54 then d.ethTxdWrite mid k w
  else if off = 0x60 then d.ethPdlyWrite mid k w
  else d.plainWrite mid a w

/-- The port that SYNC_PORT selects. -/
def Dev.syncPort (d : Dev) : Nat := d.get R.TL_CTRL F.TL_CTRL_SYNC_PORT

/-- PDELAY_REQUEST (R439): a measurement in ns on the port that SYNC_PORT selects, once per second. -/
def Dev.pdelay (d : Dev) (ns : Nat) : Dev :=
  let k := d.syncPort
  if nEth ≤ k ∨ d.gtc < (d.ethS k).pdNext then d
  else
    let d := d.setEth k { d.ethS k with pdNext := d.gtc + 400000000 }
    (d.put (R.ETH_PDLY k) F.ETH_PDLY_DLY (min ns 65535)).ethAsCap k true

/-- ETH_LINK (R450). -/
def Dev.ethLink (d : Dev) (k : Nat) (up : Bool) (speed : Nat) : Dev :=
  if nEth ≤ k then d
  else
    let a := R.ETH_STAT k
    let was := d.flag a F.ETH_STAT_LINK
    let d := d.putB a F.ETH_STAT_LINK up
    let d := if up then d.put a F.ETH_STAT_SPEED speed else d
    d.raiseNIf (up != was) (Pg.ETH k) Ev.ETH_LINK k

/-! ### PCIe (R441, R442, R450) -/

/-- Vendor ID, device ID and the subsystem's two IDs, from bytes 8 to 15 of the boot header (R442, R487). -/
def pcieIds (flash : Memory) : List Nat := [8, 10, 12, 14].map fun a => natBE (flash.readBytes a 2).reverse

/-- A change of the link or of the function, with what the peers see of it (R415). -/
def Dev.pcieChange (d : Dev) (p : PcieSt) : Dev :=
  let was := d.peerRst Mid.PCIE
  let d : Dev := { d with pcie := p }
  let d := d.putB R.RST_DOM F.RST_DOM_PCIE_RST p.fnRst
  if !was && d.peerRst Mid.PCIE then d.peerReset Mid.PCIE else d

/-- The endpoint's BARs (R441): number, whether prefetchable, size in bytes; each is a 64-bit BAR. -/
def pcieBars : List (Nat × Bool × Nat) := [(0, false, 0x200000), (2, false, 0x100000), (4, true, 0x40000000)]

/-- The on-chip address of a byte of BAR0 or BAR2 (R46, R419, R441); BAR4 is the aperture of R461. -/
def pcieAddr (bar ofs : Nat) : Option Nat :=
  if bar = 0 ∧ ofs < 0x200000 then some (0x40000000 + ofs) else if bar = 2 ∧ ofs < 0x100000 then some (winBase + ofs) else none

/-- A link that the endpoint can have (R441): up to PCIe 3.0 and two lanes, a payload of at most 256 bytes; in L0 it is up. -/
def pcieLinkOk (l0 : Bool) (speed width payload : Nat) : Bool :=
  decide (payload ≤ 256) && if l0 || speed != 0 then decide (1 ≤ speed) && decide (speed ≤ 3) && decide (1 ≤ width) && decide (width ≤ 2) else true

/-- PCIE_LINK: whether the link is in L0, its generation and lanes (none: it is down), whether the function is in D3hot, the payload
negotiated. In L0 the function has left its reset. A link that the endpoint cannot have (R441) comes about never. -/
def Dev.pcieLink (d : Dev) (l0 : Bool) (speed width : Nat) (d3 : Bool) (payload : Nat) : Dev :=
  if !hasPcie d.member || !pcieLinkOk l0 speed width payload then d
  else
    let up := l0 || speed != 0
    let was := d.pcie.l0
    let a := R.PCIE_STAT
    let d := (d.putB a F.PCIE_STAT_LINK_UP up).put a F.PCIE_STAT_SPEED (if up then speed else 0)
    let d := (d.put a F.PCIE_STAT_WIDTH (if up then width else 0)).putB a F.PCIE_STAT_D3HOT d3
    let d := d.pcieChange { l0 := l0, l1 := up && !l0, d3 := d3, fnRst := d.pcie.fnRst && !l0, payload := if up then payload else 0 }
    d.raiseIf (l0 != was) Pg.PCIE Ev.PCIE_LINK

/-- PCIE_FUNCTION_RESET (R442): the function alone; locks and windows that the host holds stay. -/
def Dev.pcieFunctionReset (d : Dev) : Dev :=
  if !hasPcie d.member then d
  else
    let d := forN 128 (fun i e => e.setReg (R.PCIE_MSIX i) (resetWord e.member (R.PCIE_MSIX i))) d
    let d := (d.setReg R.PCIE_PBA 0).putB R.PCIE_STAT F.PCIE_STAT_D3HOT false
    d.pcieChange { d.pcie with d3 := false, fnRst := true, payload := 0 }

/-! ### LPDDR4X (R448, R449) -/

/-- USABLE for the memory fitted (R449). -/
def Dev.ddrUsable (d : Dev) : Nat :=
  if d.flag R.DDR_CFG F.DDR_CFG_ECC_EN then d.sys.fitted * 7 / 8 else d.sys.fitted

/-- DDR_TRAINING_DONE (R448), with the memory fitted in MiB. -/
def Dev.ddrTraining (d : Dev) (ok : Bool) (fitted : Nat) : Dev :=
  if !hasDdr d.member || d.devState != DS.BOOT then d
  else
    let a := R.DDR_STAT
    let d : Dev := { d with sys := { d.sys with fitted := if ok then fitted else 0, scrub := 0 } }
    let d := (d.putB a F.DDR_STAT_READY ok).putB a F.DDR_STAT_TRAIN_FAIL !ok
    let d := d.put a F.DDR_STAT_USABLE (if ok then d.ddrUsable else 0)
    d.putB R.REC_STAT F.REC_STAT_ONCHIP d.recOnChip

/-- A write of DDR_CFG: the check bits take their eighth or give it back. -/
def Dev.ddrCfgWrite (d : Dev) (mid : Nat) (w : Word) : Dev :=
  let d := d.plainWrite mid R.DDR_CFG w
  if d.flag R.DDR_STAT F.DDR_STAT_READY then d.put R.DDR_STAT F.DDR_STAT_USABLE d.ddrUsable else d

/-- DDR_PATROL_SCRUB (R449): one 64-byte block every 4 µs. A block that cannot be corrected reads as zero on the chip, and poisoned
through BAR4, until it is written; each later read finds it again. -/
def State.ddrScrub (s : State) (err : EccErr) (ups : List (Nat × Bool)) : State :=
  let d := { s.dev with sys := { s.dev.sys with ddrSoft := s.dev.sys.ddrSoft ++ ups } }
  let s := { s with dev := d }
  if !(d.flag R.DDR_STAT F.DDR_STAT_READY && d.flag R.DDR_CFG F.DDR_CFG_ECC_EN) || d.gtc % 1600 != 0 then s
  else
    let b := d.sys.scrub
    let n := d.get R.DDR_STAT F.DDR_STAT_USABLE * 16384
    let d : Dev := { d with sys := { d.sys with scrub := if n ≤ b + 1 then 0 else b + 1 } }
    let s := { s with dev := d }
    match err with
    | .ok => s.ddrRead (64 * b) 64
    | .corrected => (s.ddrError b false).ddrRead (64 * b) 64
    | .uncorrectable => ({ s with dev := s.dev.ddrHeal (64 * b) 64 } : State).ddrError b true

/-! ### Meanings -/

def execCanFrameRx (can : Nat) (ident ctrl : Word) (data : CanData) (s : State) :=
  onDev (fun d => d.clocked (Pg.CAN can) fun d => d.canFrameRx can ident ctrl data.bytes data.err) s
def execCanFrameTx (can : Nat) (ok : Bool) (s : State) := onDev (fun d => d.clocked (Pg.CAN can) fun d => d.canFrameTx can ok) s
def execCanRecover (mid can : Nat) (s : State) :=
  onDev (fun d => if can < nCan then d.canCtrlWrite mid can (d.reg (R.CAN_CTRL can) ||| fieldMask F.CAN_CTRL_RECOVER) else d) s
def execCanRecoveryDone (can : Nat) (s : State) := onDev (fun d => d.clocked (Pg.CAN can) fun d => d.canRecovered can) s
def execEthFrameRx (eth : Nat) (bytes : List Byte) (s : State) := onDev (fun d => d.clocked (Pg.ETH eth) fun d => d.ethFrameRx eth bytes) s
def execEthTxdWrite (mid eth : Nat) (val : Word) (s : State) := onDev (fun d => if eth < nEth then d.ethTxdWrite mid eth val else d) s
def execEthRxdRead (mid eth : Nat) (s : State) := onDev (fun d => if eth < nEth then d.ethRxdRead mid eth else d) s
def execEthRxpop (mid eth : Nat) (s : State) := onDev (fun d => if eth < nEth then d.ethCtrlWrite mid eth 1 else d) s
def execPdelayRequest (delay : Nat) (s : State) := onDev (fun d => d.clocked (Pg.ETH d.syncPort) fun d => d.pdelay delay) s
def execEthLink (eth : Nat) (up : Bool) (speed : Nat) (s : State) := onDev (fun d => d.clocked (Pg.ETH eth) fun d => d.ethLink eth up speed) s
def execPcieLink (l0 : Bool) (speed : Nat) (lanes : PcieLanes) (d3 : Bool) (s : State) :=
  onDev (fun d => d.clocked Pg.PCIE fun d => d.pcieLink l0 speed lanes.width d3 lanes.payload) s
def execPcieFunctionReset (s : State) := onDev (fun d => d.pcieFunctionReset) s
def execDdrTrainingDone (ok : Bool) (fitted : Nat) (s : State) := onDev (fun d => d.clocked Pg.DDR fun d => d.ddrTraining ok fitted) s
def execDdrPatrolScrub (read : PatrolRead) (s : State) := onState (fun s => s.clocked Pg.DDR (·.ddrScrub read.err read.ups)) s

end Sys2Proof.Machine
end

