-- ==== Sys2Proof/Machine/System.lean ====
section
/-! DEFINITION. The link and the channels (chapter 1, R35 to R43), the device's faults (R373, R374, R479, R480, R485), reset (R483,
R484), secure boot and BOOT (R487 to R493), lifecycle and debug (R491, R496). -/

namespace Sys2Proof.Machine

/-! ### FATAL (R36, R467, R480, R486) -/

/-- The recorder at the entry into FATAL: it freezes at once, and what has not reached the ring stays in the FIFO for the dump. -/
def Dev.fatalRecorder (d : Dev) : Dev := if d.flag R.REC_STAT F.REC_STAT_RUN then d.frozenNow else d

/-- The words of the dump header that are taken at the entry (R469): CAUSE, STATE, GTC (two words), WSEQ, OLD, TRIG_SEQ, FLAGS. -/
def Dev.fatalHead (d : Dev) (src : Nat) (state : Word) (ran : Bool) : List Word :=
  [wordN src, state, wordN d.gtc, wordN (d.gtc / 2 ^ 32), d.reg R.REC_WSEQ, d.reg R.REC_OLD, d.reg R.REC_TRIG_SEQ,
    wordN (b2n ran + 2 * b2n (d.flag R.REC_TRIG_INFO F.REC_TRIG_INFO_VALID))]

/-- A replay that runs at the entry into FATAL runs no further. -/
def Dev.fatalReplay (d : Dev) : Dev :=
  if d.replaying then { d.putB R.RPL_STAT F.RPL_STAT_RUN false with rpl := {} } else d

/-- Of fatal causes in one tick the lowest source is the first one (R53, R469). -/
def Dev.fatalFirst (d : Dev) : Dev :=
  let c := d.get R.SYS_STATE F.SYS_STATE_CAUSE
  let d := d.put R.DMP_STAT F.DMP_STAT_CAUSE c
  { d with sys := { d.sys with head := [wordN c, d.reg R.SYS_STATE] ++ d.sys.head.drop 2 } }

/-- A further fatal cause in FATAL (R53, R467): raised, counted while the dump runs. -/
def Dev.fatalAgain (d : Dev) (page src : Nat) : Dev :=
  let d := d.raise page src
  let d := if d.trans.at1 = d.now + 1 then (d.setState DS.FATAL src true).fatalFirst else d
  if d.sys.dump = 1 ∨ d.sys.dump = 2 then d.bump R.DMP_STAT F.DMP_STAT_NCAUSE else d

/-- A fatal cause (R480): raised; it takes the device to FATAL, where every output is released, the bypass switches close and the
dump begins; in FATAL it is counted while the dump runs (R467). -/
def Dev.enterFatal (d : Dev) (page src : Nat) : Dev :=
  if d.devState = DS.RESET then d
  else if d.devState = DS.FATAL then d.fatalAgain page src
  else
    let ran := d.flag R.REC_STAT F.REC_STAT_RUN
    let d := (d.raise page src).fatalReplay
    let d := (d.goSafe DS.FATAL src true).putB R.SAFE_HOLD_INFO F.SAFE_HOLD_INFO_HOLD false
    let d := (d.dropAllP.dropAllM.releaseAll).ringClose
    let head := d.fatalHead src (d.reg R.SYS_STATE) ran
    let d := d.fatalRecorder
    let d := (d.put R.DMP_STAT F.DMP_STAT_CAUSE src).put R.DMP_STAT F.DMP_STAT_NCAUSE 1
    { d with sys := { d.sys with dump := 1, head := head } }

/-- A link failure (R36): the link has failed once for all. -/
def Dev.linkFail (d : Dev) : Dev :=
  if d.sys.linkDead then d
  else
    let d : Dev := { d with sys := { d.sys with linkDead := true } }
    (d.putB R.SYS_STATE F.SYS_STATE_LINK_OK false).enterFatal Pg.SYS Ev.LINK_FAIL

/-- A dropped data-lane frame (R35): its results are lost, its command and setting words wait for the next slot. -/
def Dev.dropFrame (d : Dev) : Dev :=
  { d.dropSamples with sys := { d.sys with drops := d.sys.drops + 1, cut := (d.gtc / 2 :: d.sys.cut).take 3 } }

/-- LINK_FRAME_RX (R35, R36): a frame that cannot be corrected is dropped with its results; the third in a row is a failure. After
a failure the link stays down. -/
def Dev.linkFrame (d : Dev) (err : EccErr) : Dev :=
  if d.sys.linkDead then d
  else match err with
    | .uncorrectable =>
      let d := d.dropFrame.raise Pg.SYS Ev.LINK_ERR
      if 3 ≤ d.sys.drops then d.linkFail else d
    | _ => ({ d with sys := { d.sys with drops := 0 } } : Dev).putB R.SYS_STATE F.SYS_STATE_LINK_OK true

/-! ### Pins at rest (R486) -/

/-- The rows of R486's table. -/
inductive PinRow where
  | traction
  | enables
  | auxiliary
  | safetyOut
  | emulation
  | excitation
  | sdClock
  | position
  | bypass
  | eventOut
  | canTx
  | spiMiso
  deriving DecidableEq, Repr

/-- What a pin shows while its block does not drive it: the words of R486's table. -/
inductive PinRest where
  | weakDown
  | clamp
  | floating
  | input
  | closed
  | low
  | sinkOn
  | pulledDown
  | midSupply
  | recessive
  deriving DecidableEq, Repr

/-- The column "unpowered". -/
def restUnpowered : PinRow → PinRest
  | .traction | .enables | .safetyOut | .sdClock | .eventOut => .weakDown
  | .auxiliary => .clamp
  | .emulation | .excitation | .canTx | .spiMiso => .floating
  | .position => .input
  | .bypass => .closed

/-- The column of RESET with VDDIO valid. -/
def restReset : PinRow → PinRest
  | .traction | .enables | .safetyOut | .sdClock | .eventOut => .low
  | .auxiliary => .sinkOn
  | .emulation | .excitation | .spiMiso => .floating
  | .position => .input
  | .bypass => .closed
  | .canTx => .recessive

/-- The column of BOOT; none: the pin follows its block. -/
def restBoot : PinRow → Option PinRest
  | .excitation => some .midSupply
  | .spiMiso => none
  | p => some (restReset p)

/-- The column of FATAL; none: the pin follows its block. -/
def restFatal : PinRow → Option PinRest
  | .traction | .emulation => some .floating
  | .auxiliary => some .pulledDown
  | .enables | .safetyOut => some .low
  | p => restBoot p

/-- VDDIO above 2.9 V or not (R499), with VDDIO_OK (R479). -/
def Dev.putVddio (d : Dev) (ok : Bool) : Dev :=
  ({ d with sys := { d.sys with vddioLow := !ok } } : Dev).putB R.PWR_STAT F.PWR_STAT_VDDIO_OK ok

/-- What a pin shows (R486, R499); none: it follows the chapter of its block. -/
def Dev.pinRest (d : Dev) (p : PinRow) : Option PinRest :=
  if d.sys.vddioLow then some (restUnpowered p)
  else if d.devState = DS.RESET then some (restReset p)
  else if d.devState = DS.BOOT then restBoot p
  else if d.devState = DS.FATAL then restFatal p
  else none

/-! ### The channels' own reactions (R38, R39, R43) -/

/-- A channel's keeper lets its enables fall (R38). -/
def Dev.keeperFalls (d : Dev) (ch : Channel) : Dev :=
  match ch with
  | .p => ({ d with safe := { d.safe with deadP := true } } : Dev).dropAllP
  | .m => ({ d with safe := { d.safe with deadM := true } } : Dev).grantAll.dropAllM

/-- One of two fields, by the channel. -/
def chanField (ch : Channel) (p m : RField) : RField :=
  match ch with
  | .p => p
  | .m => m

/-- SUPPLY_FAULT (R38, R501). -/
def Dev.supplyFault (d : Dev) (ch : Channel) : Dev :=
  (d.putB R.PWR_STAT (chanField ch F.PWR_STAT_P_OK F.PWR_STAT_M_OK) false).keeperFalls ch

/-- PLL_UNLOCK (R479). -/
def Dev.pllUnlock (d : Dev) (ch : Channel) : Dev :=
  ((d.putB R.CLK_STAT (chanField ch F.CLK_STAT_PLL_P F.CLK_STAT_PLL_M) false).raise Pg.CLK Ev.PLL_UNLOCK).keeperFalls ch

/-- CLK_XCHK (R39): the deviation in 0.01 %; beyond 2 % both channels drop their enables and SAFE_HOLD is entered. In SAFE_HOLD it ends
what continues (log entry 339, DEDUCED). -/
def Dev.clkXchk (d : Dev) (dev : Int) : Dev :=
  let d := d.putI R.CLK_STAT F.CLK_STAT_DEV (clampI (-32768) 32767 dev)
  if 200 < dev.natAbs then
    let d := (d.putB R.CLK_STAT F.CLK_STAT_XCHK true).raise Pg.CLK Ev.CLK_XCHK
    let d := if d.devState = DS.SAFE_HOLD ∧ d.safe.keep ≠ 0 then d.holdAll.grantAll else d
    d.dropAllP.dropAllM.enterHold 1 Ev.CLK_XCHK
  else d

/-- ENA_READBACK (R43): both channels drop the group's enables, and its machine enters FAULT. -/
def Dev.enaReadback (d : Dev) (g : Nat) : Dev :=
  if !groupPresent d.member g then d
  else
    let mo := d.machOf g
    let d := d.raiseN Pg.SAFE Ev.ENA_READBACK (mo.getD g)
    let d := (d.setGenP g false).setGenM g false
    match mo with
    | some m => if d.mState m = MS.OFF ∨ d.mState m = MS.FAULT then d else d.toFault m 9
    | none => d

/-! ### Causes of SAFE_HOLD (R373, R374, R479, R501) -/

/-- The fields of the four die sensors (R496). -/
def tempField (k : Nat) : RField :=
  if k = 0 then F.PWR_TEMP_D_P else if k = 1 then F.PWR_TEMP_D_M else if k = 2 then F.PWR_TEMP_A_P else F.PWR_TEMP_A_M

/-- TEMP_HIGH (R373): a sensor's reading in °C, kept as the code that gives c − 64. -/
def Dev.tempHigh (d : Dev) (k : Nat) (temp : Int) : Dev :=
  if 4 ≤ k then d
  else
    let d := d.put R.PWR_TEMP (tempField k) (clampI 0 255 (temp + 64)).toNat
    if 160 < temp then (d.raise Pg.PWR Ev.TEMP_HIGH).enterHold 6 Ev.TEMP_HIGH else d

/-- SUPPLY_WARN (R501). -/
def Dev.supplyWarn (d : Dev) (ch : Channel) (vddio : Bool) : Dev :=
  let d := d.putVddio vddio
  let d := d.putB R.PWR_STAT (chanField ch F.PWR_STAT_WARN_P F.PWR_STAT_WARN_M) true
  let d := d.putB R.PWR_STAT (chanField ch F.PWR_STAT_P_OK F.PWR_STAT_M_OK) false
  (d.raise Pg.PWR Ev.SUPPLY_WARN).enterHold 7 Ev.SUPPLY_WARN

/-- LOCKSTEP (R485): the pair is held, its peers see it in reset, its channel's enables fall. -/
def Dev.lockstep (d : Dev) (ch : Channel) : Dev :=
  let f := chanField ch F.RST_DOM_S0_HELD F.RST_DOM_S1_HELD
  if d.flag R.RST_DOM f then d
  else
    let mid := match ch with
      | .p => Mid.S0
      | .m => Mid.S1
    let d := ((d.raise Pg.SYS Ev.LOCKSTEP).putB R.RST_DOM f true).peerReset mid
    (d.keeperFalls ch).enterHold (if mid = Mid.S0 then 2 else 3) Ev.LOCKSTEP

/-! ### Reset (R483, R484, R492, R500) -/

/-- Bits of RST_CAUSE. -/
def causePor : Nat := 16
def causeSupply : Nat := 8
def causePin : Nat := 4
def causeSoft : Nat := 2
def causeDbg : Nat := 1

/-- The device after a device reset: every register at its reset value, every queue empty, GTC from zero; RST_CAUSE keeps the cause.
The member, its device number and its one-time-programmable memory stay, and VDDIO is what it is. -/
def Dev.cleared (d : Dev) (cause : Nat) (warm : Bool) : Dev :=
  ({ Dev.reset with member := d.member, nv := d.nv, free := d.free, sys := { vddioLow := d.sys.vddioLow } } : Dev).setReg R.RST_CAUSE
    (wordN (cause + 2 ^ 31 * b2n warm))

/-- A cold reset: nothing survives but the flash. -/
def State.coldReset (s : State) (cause : Nat) : State :=
  { s with dev := s.dev.cleared cause false, mems := { Mems.reset with flash := s.mems.flash } }

/-- A warm reset: the retention SRAM, the LPDDR4X and the recorder's ring keep their contents (R471, R484). -/
def State.warmReset (s : State) (cause : Nat) : State :=
  let d := s.dev.cleared cause true
  { s with dev := { d with sys := { d.sys with bad := s.dev.sys.bad, ddrSoft := s.dev.sys.ddrSoft } }, mems := { s.mems with win := [] } }

/-- POWER_ON_RESET (R483). The SUPPLY flag of a supply that fell before stays. -/
def State.powerOn (s : State) : State := s.coldReset (causePor + (s.dev.reg R.RST_CAUSE).toNat / 8 % 2 * 8)

/-- A warm reset asked for: it stands until the tick given. -/
def Dev.askReset (d : Dev) (tick cause : Nat) : Dev :=
  { d with sys := { d.sys with rst := match d.sys.rst with
    | some (t, c) => some (min t tick, Nat.lor c cause)
    | none => some (tick, cause) } }

/-- WARM_RESET (R484): due, and not held by steps 1 and 2 of a dump. -/
def State.warmDue (s : State) : State :=
  match s.dev.sys.rst with
  | some (t, c) => if decide (t ≤ s.dev.gtc) && s.dev.sys.dump != 1 then s.warmReset c else s
  | none => s

/-- RESET_PIN (R483, R484): a warm reset at once; in RESET it keeps the device there. -/
def State.resetPin (s : State) : State :=
  if s.dev.devState = DS.RESET then
    { s with dev := { s.dev.orReg R.RST_CAUSE (wordN causePin) with sys := { s.dev.sys with released := false } } }
  else ({ s with dev := s.dev.askReset s.dev.gtc causePin } : State).warmDue

/-- A write of RST_CTRL (R496): within the RST key window SYS_RST starts a warm reset 1 µs later. -/
def Dev.rstCtrlWrite (d : Dev) (mid : Nat) (w : Word) : Dev :=
  let taken := d.takenAt mid R.RST_CTRL
  let d := (d.plainWrite mid R.RST_CTRL w).setReg R.RST_CTRL 0
  if taken && bitOf w 0 then d.askReset (d.gtc + 400) causeSoft else d

/-- Whether a write of DBG_CTRL is taken: Debug's alone, with the rights of R408. -/
def Dev.dbgOk (d : Dev) (mid : Nat) : Bool := mid == Mid.DEBUG && d.asS0 mid .dbgB

/-- HALT_REQ of DBG_CTRL (R27, R496): the device halts, and goes on. -/
def Dev.haltWrite (d : Dev) (mid : Nat) (req : Bool) : Dev :=
  if d.dbgOk mid then (d.putB R.DBG_CTRL F.DBG_CTRL_HALT_REQ req).putB R.DBG_CTRL F.DBG_CTRL_HALTED req
  else d.denyIf (req != d.flag R.DBG_CTRL F.DBG_CTRL_HALT_REQ) Pg.DBG

/-- A write of DBG_CTRL (R496). -/
def State.dbgCtrlWrite (s : State) (mid : Nat) (w : Word) : State :=
  let s := s.onDevS fun d => d.haltWrite mid (bitOf w 1)
  if !bitOf w 0 then s
  else if s.dev.dbgOk mid then (s.onDevS fun d => d.askReset d.gtc causeDbg).warmDue
  else s.onDevS fun d => d.deny Pg.DBG

/-- RESET_RELEASE (R500): the required rails and RESET_N have held for 100 µs. -/
def Dev.resetRelease (d : Dev) : Dev :=
  if d.devState = DS.RESET then
    let d : Dev := { d with sys := { d.sys with released := true } }
    ((d.putB R.PWR_STAT F.PWR_STAT_P_OK true).putB R.PWR_STAT F.PWR_STAT_M_OK true).putVddio true
  else d

/-- PLL_LOCKED (R492): both PLLs lock; with reset released the device enters BOOT. -/
def Dev.pllLocked (d : Dev) : Dev :=
  if d.devState = DS.RESET ∧ d.sys.released = false then d
  else
    let d := (d.putB R.CLK_STAT F.CLK_STAT_PLL_P true).putB R.CLK_STAT F.CLK_STAT_PLL_M true
    if d.devState = DS.RESET then d.goSafe DS.BOOT 0 false else d

/-- LATE_RAIL_ARRIVAL (R500): VGD_OK rises with VGD, the pins leave their unpowered states as VDDIO exceeds 2.9 V (R499); the other rails
show through the links and their own events. -/
def Dev.lateRail (d : Dev) (r : Rail) : Dev :=
  match r with
  | .vgd => d.putB R.GDA_STAT F.GDA_STAT_VGD_OK true
  | .vddio => d.putVddio true
  | _ => d

/-! ### Verification of an image (R487 to R490) -/

/-- The slot that the boot header marks active. -/
def activeSlot (flash : Memory) : Nat := (flash.read 4).toNat % 2

/-- First byte of an image slot in the flash (R447). -/
def slotBase (slot : Nat) : Nat := 0x100000 + slot * 0x800000

/-- Whether bytes are all zero. -/
def allZero (l : List Byte) : Bool := l.all (· == 0)

/-- The image hash: the header without its signature, then the body. -/
def imageHash (flash : Memory) (slot : Nat) : List Byte :=
  let b := slotBase slot
  sha256 (flash.readBytes b 0xFC0 ++ flash.readBytes (b + 0x1000) (flash.readWord (b + 8)).toNat)

/-- Whether MAGIC, LENGTH and the fields marked zero are right (R488). -/
def headerGood (flash : Memory) (slot : Nat) : Bool :=
  let b := slotBase slot
  let v := (flash.readWord (b + 4)).toNat
  flash.readWord b == 0x4741524D && decide ((flash.readWord (b + 8)).toNat ≤ 0x7FF000) && v / 2 ^ 17 % 8 == 0
    && v / 2 ^ 22 == 0 && flash.readWord (b + 12) == 0 && allZero (flash.readBytes (b + 0x50) 3952)

/-- VERSION, ADV and KEY of an image. -/
def imageVersion (flash : Memory) (slot : Nat) : Nat := (flash.readWord (slotBase slot + 4)).toNat % 2 ^ 16
def imageAdv (flash : Memory) (slot : Nat) : Bool := bitOf (flash.readWord (slotBase slot + 4)) 16
def imageKey (flash : Memory) (slot : Nat) : Nat := (flash.readWord (slotBase slot + 4)).toNat / 2 ^ 20 % 4

/-- The failure code of an image that has been read (R490); 0: it passes. -/
def imageCode (nv : NvSt) (flash : Memory) (slot : Nat) : Nat :=
  let b := slotBase slot
  let k := imageKey flash slot
  let pub := flash.readBytes (b + 0x10) 64
  if !headerGood flash slot then 1
  else if nv.revoked / 2 ^ k % 2 = 1 ∨ nthD [] nv.digests k ≠ sha256 pub then 2
  else if !ecdsaOk pub (flash.readBytes (b + 0xFC0) 64) (imageHash flash slot) then 3
  else if imageVersion flash slot < 256 * nv.rollback then 4
  else 0

/-- SEC_HASH0 to SEC_HASH7 from a digest read as one big-endian number. -/
def Dev.setHash (d : Dev) (digest : List Byte) : Dev :=
  forN 8 (fun i e => e.setReg (R.SEC_HASH i) (wordN (natBE digest / 2 ^ (32 * i)))) d

/-- A slot accepted by both pairs. -/
def Dev.slotAccept (d : Dev) (flash : Memory) (slot : Nat) : Dev :=
  let alt := slot != activeSlot flash
  let a := R.SEC_BOOT
  let d : Dev := { d with sys := { d.sys with slot := some slot } }
  let d := ((d.put a F.SEC_BOOT_VERSION (imageVersion flash slot)).putB a F.SEC_BOOT_ALT alt).put a F.SEC_BOOT_SLOT slot
  (d.setHash (imageHash flash slot)).raiseIf alt Pg.SEC Ev.BOOT_ALT

/-- A slot refused; after the second there is none left (R490). -/
def Dev.slotRefuse (d : Dev) (slot code : Nat) : Dev :=
  let d := d.put R.SEC_BOOT (if slot = 0 then F.SEC_BOOT_FAIL0 else F.SEC_BOOT_FAIL1) code
  let d : Dev := { d with sys := { d.sys with tried := d.sys.tried ++ [slot] } }
  if 2 ≤ d.sys.tried.length then d.enterFatal Pg.SEC Ev.BOOT_FAIL else d

/-- A flash read or an SFDP parse that failed (R446). -/
def Dev.flashFail (d : Dev) : Dev := (d.putB R.XSPI_STAT F.XSPI_STAT_ERR true).raise Pg.XSPI Ev.XSPI_ERR

/-- The slot whose verification comes next (R489). -/
def Dev.nextSlot (d : Dev) (flash : Memory) : Nat := if d.sys.tried.isEmpty then activeSlot flash else 1 - activeSlot flash

/-- The SFDP tables read in a BOOT (R446): 8D-8D-8D where they can be parsed and offer it, else 1S-1S-1S throughout. -/
def Dev.flashMode (d : Dev) (read : FlashRead) : Dev :=
  if d.sys.tried.isEmpty then d.putB R.XSPI_STAT F.XSPI_STAT_OCTAL (read != .noSfdp && Config.flashOctal) else d

/-- IMAGE_VERIFIED (R446, R489, R490): both pairs have come to the end of a slot; what the flash showed, and whether the pairs agree. DQS is
captured in 8D-8D-8D alone. -/
def Dev.imageVerified (d : Dev) (flash : Memory) (slot : Nat) (read : FlashRead) (agree : Bool) : Dev :=
  if d.devState ≠ DS.BOOT ∨ d.sys.slot.isSome ∨ slot ≠ d.nextSlot flash then d
  else
    let d := d.flashMode read
    if read = .noSfdp ∨ read = .failed ∨ (read = .noDqs ∧ d.flag R.XSPI_STAT F.XSPI_STAT_OCTAL) then d.flashFail.slotRefuse slot 5
    else
      let code := imageCode d.nv flash slot
      if code ≠ 0 then d.slotRefuse slot code
      else if !agree then d.slotRefuse slot 6
      else d.slotAccept flash slot

/-! ### The end of BOOT (R423, R471, R481, R490, R491, R493) -/

/-- ROLLBACK raised to the accepted image's (R490). -/
def Dev.raiseRollback (d : Dev) (flash : Memory) (slot : Nat) : Dev :=
  let n := imageVersion flash slot / 256
  if imageAdv flash slot && decide (d.nv.rollback < n) then { d with nv := { d.nv with rollback := n } } else d

/-- A channel that Garmal binds (R423): REC = 1, and locked; also where the member lacks the PCIe host (log entry 84, DEDUCED). -/
def Dev.bootBind (d : Dev) (c a b : Nat) : Dev :=
  (d.bindChannel c a b Mid.S0 true).putB (R.MBX_BIND c) F.MBX_BIND_LOCKED true

/-- Channels 0 to 4 (R423). -/
def Dev.bootBindings (d : Dev) : Dev :=
  ((((d.bootBind 0 Mid.S0 Mid.PCIE).bootBind 1 Mid.S0 Mid.SPI).bootBind 2 Mid.S1 Mid.PCIE).bootBind 3 Mid.S1 Mid.SPI).bootBind
    4 Mid.S0 Mid.S1

/-- The rights of the lifecycle state (R491). -/
def Dev.bootRights (d : Dev) : Dev := d.mbxRightsWrite Mid.S0 (BitVec.ofNat 32 (rightsBits d.member (if lcDebug d.nv.lc then 7 else 3)))

/-- The vectors that Garmal writes into a route word (R481): which ones is not stated, so they are free (log entry 3, DESIGN CHOICE). -/
def Dev.bootRoute (d : Dev) (s : Nat) : Dev :=
  let (w, d) := d.fresh
  d.setReg (R.EVT_RTE s) ((d.reg (R.EVT_RTE s) &&& 0x6060FFFF) ||| (w &&& 0x9F9F0000))

def Dev.bootRoutes (d : Dev) : Dev := forN 256 (fun s e => if sourceUsed s then e.bootRoute s else e) d

/-- HCRC of the dump in the retention SRAM (R469). -/
def dumpCrc (ret : Memory) : Word :=
  crc32c (ret.readBytes 0 0x50 ++ ret.readBytes 0x54 0xA8 ++ ret.readBytes 0x100 0x3FF00)

/-- The dump found after a warm reset (R471): a header whose CRC holds is shown, and the recorder is held with its positions; one
whose CRC fails sets RET_ERR; without MAGIC there is none. -/
def Dev.dumpFound (d : Dev) (ret : Memory) : Dev :=
  let a := R.DMP_STAT
  if !d.flag R.RST_CAUSE F.RST_CAUSE_WARM || ret.readWord 0 != 0x44554D50 then d
  else if ret.readWord 0xFC ≠ dumpCrc ret then d.putB a F.DMP_STAT_RET_ERR true
  else
    let d := ((d.putB a F.DMP_STAT_VALID true).putB a F.DMP_STAT_EXT_VALID (bitOf (ret.readWord 0x50) 0)).put a F.DMP_STAT_CAUSE
      (ret.read 8).toNat
    let d := (d.put a F.DMP_STAT_NCAUSE (ret.read 12).toNat).putB R.REC_STAT F.REC_STAT_HELD true
    let d := ((d.setReg R.REC_WSEQ (ret.readWord 0x44)).setReg R.REC_OLD (ret.readWord 0x48)).setReg R.REC_TRIG_SEQ (ret.readWord 0x4C)
    d.raise Pg.DMP Ev.DMP_VALID

/-- Whether every step of BOOT has come to its end and Garmal can run on both pairs (R493). -/
def Dev.bootDone (d : Dev) : Bool :=
  d.devState == DS.BOOT && d.sys.slot.isSome && d.sys.calDone && d.flag R.PWG_DL_STAT F.PWG_DL_STAT_BOOT_DONE
    && (!hasDdr d.member || d.flag R.DDR_STAT F.DDR_STAT_READY || d.flag R.DDR_STAT F.DDR_STAT_TRAIN_FAIL)
    && !d.peerRst Mid.S0 && !d.peerRst Mid.S1

/-- BOOT_COMPLETE (R493). -/
def Dev.bootComplete (d : Dev) (mems : Mems) : Dev :=
  if d.bootDone then
    let d := d.raiseRollback mems.flash (d.sys.slot.getD 0)
    let d := d.bootRoutes.bootBindings.bootRights.spareLowAtBoot
    (d.dumpFound mems.ret).goSafe DS.CONFIGURE 0 false
  else d

/-! ### Lifecycle and debug (R491, R496) -/

/-- A write of SEC_LC_ADV (R491): the next code, from S0, in CONFIGURE, within the SEC key window. -/
def Dev.lcWrite (d : Dev) (mid : Nat) (w : Word) : Dev :=
  let n := w.toNat % 16
  if mid = Mid.S0 ∧ d.inConfigure = true ∧ d.keyOpenFor Pg.SEC mid = true ∧ n = d.nv.lc + 1 ∧ n ≤ 3 then
    ({ d with nv := { d.nv with lc := n } } : Dev).put R.SEC_LC_ADV F.SEC_LC_ADV_NEXT n
  else d.deny Pg.SEC

/-- DBG_ATTACH (R479, R491): FIELD refuses a session. -/
def Dev.dbgAttach (d : Dev) (att : Bool) : Dev :=
  let f := F.DBG_CTRL_ATTACHED
  if att == d.flag R.DBG_CTRL f || (att && !lcDebug d.nv.lc) then d
  else
    let d := (d.putB R.DBG_CTRL f att).raise Pg.DBG Ev.DBG_ATTACH
    if att then d else d.peerReset Mid.DEBUG

/-! ### Meanings -/

def execLinkFrameRx (err : EccErr) (s : State) := onDev (fun d => d.linkFrame err) s
def execLinkHeartbeatTimeout (s : State) := onDev (fun d => d.linkFail) s
def execChannelClockStop (ch : Channel) (s : State) := onDev (fun d => d.keeperFalls ch) s
def execSupplyFault (ch : Channel) (s : State) := onDev (fun d => d.supplyFault ch) s
def execClkXchk (dev : Int) (s : State) := onDev (fun d => d.clkXchk dev) s
def execPllUnlock (ch : Channel) (s : State) := onDev (fun d => d.pllUnlock ch) s
/-- Whichever channel reads its own pin differing, both drop the group's enables. -/
def execEnaReadback (grp : Nat) (_ch : Channel) (s : State) := onDev (fun d => d.enaReadback grp) s
def execTempHigh (sensor : Nat) (temp : Int) (s : State) := onDev (fun d => d.tempHigh sensor temp) s
def execSupplyWarn (warn : RailWarn) (s : State) := onDev (fun d => d.supplyWarn warn.ch warn.vddio) s
def execLockstep (ch : Channel) (s : State) := onDev (fun d => d.lockstep ch) s
/-- The error of either pair's SRAM is fatal. -/
def execSramUncorr (_ch : Channel) (s : State) := onDev (fun d => d.enterFatal Pg.SYS Ev.SRAM_UNCORR) s
/-- A corrected error of either pair's SRAM raises the one source. -/
def execSramCorr (_ch : Channel) (s : State) := onDev (fun d => d.raise Pg.SYS Ev.SRAM_CORR) s
def execPowerOnReset (s : State) : Host.Outcome State Fault Refusal := .next s.powerOn
def execSupplyReset (s : State) : Host.Outcome State Fault Refusal := .next (s.coldReset causeSupply)
def execResetPin (s : State) : Host.Outcome State Fault Refusal := .next s.resetPin
def execRstSysRstWrite (mid : Nat) (s : State) := onDev (fun d => d.rstCtrlWrite mid 1) s
def execDbgSysRstWrite (mid : Nat) (s : State) :=
  onState (fun s => s.dbgCtrlWrite mid (wordN (1 + 2 * b2n (s.dev.flag R.DBG_CTRL F.DBG_CTRL_HALT_REQ)))) s
def execWarmReset (s : State) := onState State.warmDue s
def execResetRelease (s : State) := onReset (fun d => d.resetRelease) s
def execPllLocked (s : State) := onReset (fun d => d.pllLocked) s
def execImageVerified (slot : Nat) (read : FlashRead) (agree : Bool) (s : State) :=
  onState (fun s => s.onDevS fun d => d.imageVerified s.mems.flash slot read agree) s
def execBootComplete (s : State) := onState (fun s => s.onDevS fun d => d.bootComplete s.mems) s
def execLifecycleAdvance (mid : Nat) (val : Word) (s : State) := onDev (fun d => d.lcWrite mid val) s
def execDebugHalt (mid : Nat) (req : Bool) (s : State) := onDev (fun d => d.haltWrite mid req) s
def execDbgAttach (att : Bool) (s : State) := onDev (fun d => d.dbgAttach att) s
def execLateRailArrival (rail : Rail) (s : State) := onReset (fun d => d.lateRail rail) s

end Sys2Proof.Machine
end

