-- ==== Sys2Proof/Machine/Bus.lean ====
section
/-! DEFINITION. The bus as masters see it (R21 to R29, R46, R419, R421): a write and a read at an address, what every register
reads as, and the commands that are bus accesses without a register of their own. -/

namespace Sys2Proof.Machine

/-! ### The address space (R46, R419) -/

def inRegs (a : Nat) : Bool := decide (0x40000000 ≤ a) && decide (a < 0x40200000)
def inWins (a : Nat) : Bool := decide (winBase ≤ a) && decide (a < winBase + 2 ^ 20)

/-! ### Writes -/

/-- MSI-X vectors raised in the present cycle: their pending bits stay (R481). -/
def Dev.msiKept (d : Dev) : Word :=
  (d.evt.cyc.filter fun r => r.tick / 2 == d.now / 2 && d.routed r.page r.src && d.flag (R.EVT_RTE r.src) F.EVT_RTE_MSI_EN).foldl
    (fun (m : Word) r => m ||| bitWord (d.get (R.EVT_RTE r.src) F.EVT_RTE_MSI_VEC)) 0

/-- Writes in the EVT pages (R482): the route words of unused sources and EVT_LAST outside its page are reserved. -/
def Dev.evtPageWrite (d : Dev) (mid i off a : Nat) (w : Word) : Dev :=
  if 0x100 ≤ off ∧ off < 0x200 ∧ sourceUsed (64 * i + (off - 0x100) / 4) = false then d
  else if (off = 0x40 ∨ off = 0x44) ∧ i ≠ 0 then d
  else d.plainWrite mid a w

/-- Writes in the SAFE page, SAFE_CONFIRM apart (R386). -/
def Dev.safePageWrite (d : Dev) (mid off a : Nat) (w : Word) : Dev :=
  if off = 0x5C then d.safeReqSto mid w
  else if off = 0x60 then d.safeReqSs1 mid w
  else if off = 0x64 then d.safeAck mid w
  else if off = 0x68 then d.safeOutWrite mid w
  else d.plainWrite mid a w

/-- A write of a block-specific register of a present page that concerns the device alone. -/
def Dev.devWrite (d : Dev) (mid : Nat) (b : Block) (i off a : Nat) (w : Word) : Dev :=
  match b with
  | .evtB => d.evtPageWrite mid i off a w
  | .safeB => d.safePageWrite mid off a w
  | .recB => if off = 0x64 then d.recExpWrite mid w else d.plainWrite mid a w
  | .rplB => if off = 0x6C then d.rplLoadWrite mid w else d.plainWrite mid a w
  | .dmpB => if off = 0x40 then d.dmpCtrlWrite mid w else if off = 0x48 then d.dmpExpWrite mid w else d.plainWrite mid a w
  | .rstB => if off = 0x44 then d.rstCtrlWrite mid w else d.plainWrite mid a w
  | .secB => if off = 0x44 then d.lcWrite mid w else d.plainWrite mid a w
  | .canB => d.canPageWrite mid i off a w
  | .ethB => d.ethPageWrite mid i off a w
  | .ddrB => if off = 0x40 then d.ddrCfgWrite mid w else d.plainWrite mid a w
  | .pcieB => d.plainWrite mid a (if off = 0xA00 then w &&& ~~~ d.msiKept else w)
  | _ => d.pWrite mid a w

/-- SAFE_CONFIRM (R383): the confirmed value goes into the flash. -/
def State.confirmWrite (s : State) (mid : Nat) (w : Word) : State :=
  let r := safeConfirm s.dev s.mems.flash mid w
  { s with dev := r.1, mems := { s.mems with flash := r.2 } }

/-- A write of a 32-bit register at an aligned address of the register space (R22, R25). -/
def State.regWrite (s : State) (mid a : Nat) (w : Word) : State :=
  let off := offOf a
  match pageInfo (pageOf a) with
  | none => s
  | some (b, i) =>
    if !blockPresent s.dev.member b i || absentReg s.dev.member b i off || decide (off < 0x40) then
      s.onDevS fun d => d.pWrite mid a w
    else if b = .safeB ∧ off = 0x44 then s.confirmWrite mid w
    else if b = .recB ∧ off = 0x40 then s.recCtrlWrite mid w
    else if b = .rplB ∧ off = 0x40 then s.rplCtrlWrite mid w
    else if b = .dbgB ∧ off = 0x40 then s.dbgCtrlWrite mid w
    else s.onDevS fun d => d.devWrite mid b i off a w

/-- A bus write of `width` bytes (R22, R46, R419, R421): an access to a register of another width or alignment is ignored. -/
def busWrite (mid a width : Nat) (w : Word) (s : State) : Host.Outcome State Fault Refusal :=
  if inWins a then winDataWrite mid a ((bytesOfWord w).take width) s
  else if !inRegs a then .fault .unmappedAddress
  else onState (fun s => if width = 4 ∧ a % 4 = 0 then s.regWrite mid a w else s) s

/-! ### What a register reads as -/

/-- PG_LOCK as it reads (R28). -/
def Dev.lockWord (d : Dev) (page : Nat) : Word :=
  let w := d.reg (R.PG_LOCK page)
  match d.keyOpener page with
  | some m => setF (setF w F.PG_LOCK_KEY_MID m) F.PG_LOCK_KEY_OPEN 1
  | none => w

/-- The header of a present page as it reads; PG_EVT_CLR reads the raw bits (R24, R26). -/
def Dev.headerWord (d : Dev) (page off : Nat) : Word :=
  if off = 0x18 then d.reg (R.PG_EVT_RAW page)
  else if off = 0x20 then d.lockWord page
  else if off = 0x24 then d.pgCrc page
  else d.reg (pageBase page + off)

/-- The raw bits of one page, as far as they stand for the sources `first` to `first + 31` (R476, R482). -/
def Dev.rawOf (d : Dev) (first : Nat) (p : Nat × Nat × Block) : Word :=
  if blockBase p.2.2 / 64 = first / 64 then
    (List.range p.2.1).foldl (fun (m : Word) i =>
      m ||| BitVec.ofNat 32 ((d.reg (R.PG_EVT_RAW (p.1 + i))).toNat * 2 ^ (blockBase p.2.2 % 64) / 2 ^ (first % 64))) 0
  else 0

/-- EVT_STAT0 and EVT_STAT1 (R482). -/
def Dev.evtStat (d : Dev) (first : Nat) : Word := pageMap.foldl (fun (m : Word) p => m ||| d.rawOf first p) 0

/-- SEC_LC from the one-time-programmable memory (R491). -/
def Dev.lcWord (d : Dev) : Word :=
  setF (setF (setF 0 F.SEC_LC_ROLLBACK d.nv.rollback) F.SEC_LC_REVOKED d.nv.revoked) F.SEC_LC_LC d.nv.lc

/-- A mailbox channel's words as a master's side reads them; MBX_DATA shows nothing here. -/
def Dev.mbxWord (d : Dev) (mid off a : Nat) : Word :=
  let c := (off - 0x100) / 0x20
  let r := (off - 0x100) % 0x20
  if off = 0x44 then d.mbxFlagWord 1
  else if off = 0x48 then d.mbxFlagWord 2
  else if off < 0x100 ∨ 0x500 ≤ off then d.reg a
  else if r = 0 then d.reg a
  else if r = 8 then d.mbxStatWord c mid
  else if r = 0xC then d.mbxPeerWord c mid
  else if r = 0x14 then d.mbxCntWord c mid
  else 0

def Dev.lckWord (d : Dev) (off a : Nat) : Word :=
  if off = 0x48 then d.lockHeldWord 0
  else if off = 0x4C then d.lockHeldWord 32
  else if 0x100 ≤ off ∧ off < 0x200 then d.lockPeek ((off - 0x100) / 4)
  else if 0x200 ≤ off ∧ off < 0x300 then d.lockPeek ((off - 0x200) / 4)
  else d.reg a

def Dev.tlWord (d : Dev) (off a : Nat) : Word :=
  if off = 0x44 then BitVec.ofNat 32 d.now
  else if off = 0x48 then BitVec.ofNat 32 (d.now / 2 ^ 32)
  else d.reg a

def Dev.trkWord (d : Dev) (off a : Nat) : Word :=
  let k := (off - 0x40) / 0x40
  let r := (off - 0x40) % 0x40
  if nTracks ≤ k then d.reg a
  else if r = 0x14 then d.trkAngWord k
  else if r = 0x18 then wordOfInt (d.trkS k).spd
  else if r = 0x1C then d.trkStatWord k
  else d.reg a

def Dev.excWord (d : Dev) (off a : Nat) : Word :=
  let n := (off - 0x40) / 0x10
  if n < 4 ∧ (off - 0x40) % 0x10 = 8 then setF (d.reg a) F.EXC_STAT_PHASE (d.excPhaseField n) else d.reg a

def Dev.safeWord (d : Dev) (off a : Nat) : Word :=
  if off = 0x44 then d.confirmWord
  else if off = 0x68 then d.safeOutWord
  else if 0x100 ≤ off ∧ off < 0x140 then spGet 0 d.safe.spbM ((off - 0x100) / 4)
  else d.reg a

def Dev.gdtWord (d : Dev) (off a : Nat) : Word :=
  let g := (off - 0x100) / 0x20
  let r := (off - 0x100) % 0x20
  if off < 0x100 ∨ 0x280 ≤ off then d.reg a
  else if r = 8 then d.gdtLstatWord g
  else if r = 0x10 then d.gdtPinsWord g
  else d.reg a

def Dev.ethWord (d : Dev) (k off a : Nat) : Word :=
  if off = 0x58 then d.ethRxlen k else if off = 0x5C then d.ethRxdWord k else d.reg a

/-- A word of a context record as a read shows it: a failing word zero (R211), a pool word in its form (R244, R245, R269). -/
def Dev.ctxWordAt (d : Dev) (c w : Nat) : Word :=
  if (d.ctxS c).bad.contains w then 0
  else if w = 12 then d.ctxStatWord c
  else if 52 ≤ w then poolStore (d.progWords c) (w - 52) (d.reg (ctxA c w))
  else d.reg (ctxA c w)

/-- Word k of the safety parameter block before one is loaded: the reset column of R378, R379 and R391 (log entry 321, DEDUCED). -/
def spbUnwritten (k : Nat) : Word :=
  if k = 16 then 0x32800000
  else if k = 753 then 0x03E8C064
  else if k = 771 then 0x0BB80000
  else if k = 772 then 0xFFFFFFFF
  else if k < 112 ∨ 752 ≤ k then 0
  else
    let j := (k - 112) % 32
    if j = 1 ∨ j = 2 then 0x3F3F3F3F else if j = 13 then 0x000007D0 else if j = 14 then 0x02580A04 else 0

/-- A block-specific register of a present page as it stands, read without any effect; `mid` is the side of a mailbox channel. -/
def Dev.blockWord (d : Dev) (mid : Nat) (b : Block) (i off a : Nat) : Word :=
  match b with
  | .sysB => if off = 0x44 then d.nv.uid0 else if off = 0x48 then d.nv.uid1 else d.reg a
  | .secB => if off = 0x40 then d.lcWord else d.reg a
  | .evtB => if off = 0x50 then d.evtStat (64 * i) else if off = 0x54 then d.evtStat (64 * i + 32) else d.reg a
  | .mbxB => d.mbxWord mid off a
  | .lckB => d.lckWord off a
  | .tlB => d.tlWord off a
  | .trkB => d.trkWord off a
  | .excB => d.excWord off a
  | .ctxB => if off < 0xE40 then d.ctxWordAt (8 * i + (off - 0x40) / 0x1C0) ((off - 0x40) % 0x1C0 / 4) else d.reg a
  | .leB => if off = 0x40 then d.leStatWord i else d.reg a
  | .gdtB => d.gdtWord off a
  | .safeB => d.safeWord off a
  | .spbB => if d.flag R.SAFE_STAT F.SAFE_STAT_SPB_LOADED then spGet 0 d.safe.spbM (off / 4) else spbUnwritten (off / 4)
  | .sfxB => if off = 0x48 then d.seenWord else d.reg a
  | .ethB => d.ethWord i off a
  | _ => d.reg a

/-- The word at an aligned address of the register space as it stands (R9, R23): absent units, unassigned pages and reserved
offsets read zero. -/
def Dev.view (d : Dev) (mid a : Nat) : Word :=
  let page := pageOf a
  let off := offOf a
  match pageInfo page with
  | none => 0
  | some (b, i) =>
    if !blockPresent d.member b i || absentReg d.member b i off then 0
    else if off < 0x40 then d.headerWord page off
    else match regAt b off with
      | some _ => d.blockWord mid b i off a
      | none => 0

/-! ### Reads by a master -/

/-- Registers that read what an earlier read of another register latched (R21, R69, R127, R132, R186, R212, R387, R407, R482). -/
def latchedReg (b : Block) (i off : Nat) : Bool :=
  match b with
  | .sysB => decide (off = 0x48)
  | .evtB => decide (i = 0) && decide (off = 0x44)
  | .tlB => decide (off = 0x48) || decide (off = 0x54)
  | .trkB => decide ((off - 0x40) % 0x40 = 0x18) || decide ((off - 0x40) % 0x40 = 0x1C)
  | .accB => decide (0x100 ≤ off) && decide (off < 0x900) && decide (0x10 < (off - 0x100) % 0x20)
  | .mmxB => decide (0x100 ≤ off) && decide (off < 0x900) && (decide ((off - 0x100) % 0x20 = 8) || decide ((off - 0x100) % 0x20 = 0xC))
  | .posB => decide (off = 0x68) || decide (off = 0x6C) || decide (off = 0x80) || decide (off = 0xD8) || decide (off = 0xDC)
  | .tmonB => decide (0x100 ≤ off) && decide (off < 0x380) && decide (0 < (off - 0x100) % 0x20)
  | .sfxB => decide (0x400 ≤ off) && decide (off < 0x800) && decide (0 < (off - 0x400) % 0x40)
  | _ => false

/-- The registers of a context that a read of CTX_OUT0 latches (R212). -/
def ctxLatched (c a : Nat) : Bool :=
  (List.range 11).any (fun j => a == R.CTX_OUT c (j + 1)) || (List.range 6).any (fun j => a == R.CTX_OMAP c j)
    || a == R.CTX_SAT c || a == R.CTX_RUNS c || a == R.CTX_LAST c

/-- A read of a low word: the high word as it stands is latched for the reader (R21). -/
def Dev.lowRead (d : Dev) (mid lo hi : Nat) : Dev := (d.latchW mid hi (d.view mid hi)).answer mid (d.view mid lo)

/-- A read of TRK_ANG (R69). -/
def Dev.trkAngRead (d : Dev) (mid k : Nat) : Dev :=
  let d := d.latchW mid (R.TRK_SPD k) (wordOfInt (d.trkS k).spd)
  (d.latchW mid (R.TRK_STAT k) (d.trkStatWord k)).answer mid (d.trkAngWord k)

/-- A read of EVT_LAST (R482). -/
def Dev.evtLastRead (d : Dev) (mid : Nat) : Dev :=
  (d.latchW mid R.EVT_LAST_T (d.reg R.EVT_LAST_T)).answer mid (d.reg R.EVT_LAST)

/-- A read without effect: the latched word of a latched register, once the reader has latched one (log entry 18, DEDUCED), else the
register as it stands. -/
def Dev.plainRead (d : Dev) (mid : Nat) (b : Block) (i off a : Nat) : Dev :=
  let c := 8 * i + (off - 0x40) / 0x1C0
  if latchedReg b i off || (b == .ctxB && decide (0x40 ≤ off) && decide (off < 0xE40) && ctxLatched c a) then
    d.answer mid ((d.latched mid a).getD (d.view mid a))
  else d.answer mid (d.view mid a)

/-- A master's read of a block-specific register of a present page, with its effect. -/
def Dev.blockRead (d : Dev) (mid : Nat) (b : Block) (i off a : Nat) : Dev :=
  let plain := d.plainRead mid b i off a
  match b with
  | .sysB => if off = 0x44 then d.lowRead mid a (a + 4) else plain
  | .evtB => if i = 0 ∧ off = 0x40 then d.evtLastRead mid else plain
  | .mbxB => if 0x100 ≤ off ∧ off < 0x500 ∧ (off - 0x100) % 0x20 = 4 then d.mbxReceive mid ((off - 0x100) / 0x20) else plain
  | .lckB => if 0x100 ≤ off ∧ off < 0x200 then d.lockAcquire mid ((off - 0x100) / 4) else plain
  | .tlB => if off = 0x44 ∨ off = 0x50 then d.lowRead mid a (a + 4) else plain
  | .trkB => if (off - 0x40) / 0x40 < nTracks ∧ (off - 0x40) % 0x40 = 0x14 then d.trkAngRead mid ((off - 0x40) / 0x40) else plain
  | .accB => if 0x100 ≤ off ∧ off < 0x900 ∧ (off - 0x100) % 0x20 = 0x10 then d.accRes0Read mid (64 * i + (off - 0x100) / 0x20) else plain
  | .mmxB => if 0x100 ≤ off ∧ off < 0x900 ∧ (off - 0x100) % 0x20 = 4 then d.mmxMinRead mid (64 * i + (off - 0x100) / 0x20) else plain
  | .ctxB =>
    let c := 8 * i + (off - 0x40) / 0x1C0
    if off < 0xE40 then d.ctxWordRead mid c ((off - 0x40) % 0x1C0 / 4) (·.plainRead mid b i off a) else plain
  | .posB => if off = 0x64 then d.posAngRead mid i false else if off = 0xD4 then d.posAngRead mid i true else plain
  | .tmonB => if 0x100 ≤ off ∧ off < 0x380 ∧ (off - 0x100) % 0x20 = 0 then d.tmTqRead mid ((off - 0x100) / 0x20) else plain
  | .sfxB => if 0x400 ≤ off ∧ off < 0x800 ∧ (off - 0x400) % 0x40 = 0 then d.sfxFrameRead mid ((off - 0x400) / 0x40) else plain
  | .ethB => if off = 0x5C then d.ethRxdRead mid i else plain
  | _ => plain

/-- A read of a 32-bit register at an aligned address of the register space. -/
def Dev.regRead (d : Dev) (mid a : Nat) : Dev :=
  let page := pageOf a
  let off := offOf a
  match pageInfo page with
  | none => d.answer mid 0
  | some (b, i) =>
    if !blockPresent d.member b i || absentReg d.member b i off || decide (off < 0x40) || (regAt b off).isNone then
      d.answer mid (d.view mid a)
    else d.blockRead mid b i off a

/-- The longest read request of the PCIe host (R441). -/
def pcieReadMax : Nat := 512

/-- The words of `width` bytes of the window memory as a master reads them, the lowest address in the low byte of the first: a refused read
returns zero (R421), and so does one the windows do not accept (R419). A burst ends with its window (log entry 152, DEDUCED). -/
def winRead (d : Dev) (win : Memory) (mid a width : Nat) : List Word :=
  let n := min width (0x10000 - a % 0x10000)
  if d.winReadable mid (winOf a) && winAccessOk mid a width (if d.pcie.payload = 0 then 0 else pcieReadMax) then
    wordsOfBytes (win.readBytes (winOfs a) n) ++ List.replicate ((width + 3) / 4 - (n + 3) / 4) 0
  else List.replicate ((width + 3) / 4) 0

/-- A bus read of `width` bytes at an address inside the register space or the windows: in the register space a read of another width or
alignment returns zero and has no effect (R22). -/
def Dev.busRead (d : Dev) (win : Memory) (mid a width : Nat) : Dev :=
  if inWins a then d.answerWords mid 0 (winRead d win mid a width)
  else if width = 4 ∧ a % 4 = 0 then d.regRead mid a
  else d.answer mid 0

/-! ### Claims and key words -/

/-- Whether an address is that of a claim register (R514). -/
def claimReg (b : Block) (off : Nat) : Bool :=
  match b with
  | .sysB => decide (0x100 ≤ off) && decide (off < 0x110)
  | .tlB => decide (0x80 ≤ off) && decide (off < 0x100)
  | .trkB => decide (0x40 ≤ off) && decide (off < 0x640) && decide ((off - 0x40) % 0x40 = 0x20)
  | .adaB => decide (0x100 ≤ off) && decide (off < 0x400) && decide (off % 0x10 = 8)
  | .accB => decide (0x900 ≤ off) && decide (off < 0xA00)
  | .mmxB => decide (0x100 ≤ off) && decide (off < 0x900) && decide (off % 0x20 = 0x18)
  | .cmpB => decide (0x100 ≤ off) && decide (off < 0x580) && decide (off % 0x20 = 0x1C)
  | .excB => decide (0x40 ≤ off) && decide (off < 0x80) && decide (off % 0x10 = 0xC)
  | .emuB => decide (0x40 ≤ off) && decide (off < 0x80) && decide (off % 0x10 = 0xC)
  | .lecB => decide (0x100 ≤ off) && decide (off < 0x400)
  | _ => false

/-- A write of OWNER in a claim register, its other fields as they stand. -/
def Dev.ownerWrite (d : Dev) (mid a v : Nat) : Dev :=
  match pageInfo (pageOf a) with
  | some (b, _) => if claimReg b (offOf a) && inRegs a && a % 4 == 0 then d.pWrite mid a (setF (d.reg a) F.CLAIM_OWNER v) else d
  | none => d

/-- A write of OWNER_MID in PG_CTRL, its other fields as they stand. -/
def Dev.pageOwnerWrite (d : Dev) (mid page v : Nat) : Dev :=
  d.pWrite mid (R.PG_CTRL page) (setF (d.reg (R.PG_CTRL page)) F.PG_CTRL_OWNER_MID v)

/-- A word written to PG_LOCK. -/
def Dev.keyWordWrite (d : Dev) (mid page : Nat) (w : Word) : Dev := d.pWrite mid (R.PG_LOCK page) w

/-- KEY_SEQUENCE_EXPIRY (R29): 64 cycles have passed without the second word. -/
def Dev.keySequenceExpiry (d : Dev) (page : Nat) : Dev :=
  if (d.keyPend page).isNone then d.setKey page { d.keyS page with pend := none } else d

/-- KEY_WINDOW_EXPIRY (R29): 65,536 cycles have passed since the window opened. -/
def Dev.keyWindowExpiry (d : Dev) (page : Nat) : Dev :=
  if (d.keyOpener page).isNone then d.setKey page { d.keyS page with win := none } else d

/-! ### Meanings -/

def execRegisterWrite (mid addr width : Nat) (val : Word) (s : State) := busWrite mid addr width val s
def execPageClaim (mid page : Nat) (s : State) := onDev (fun d => d.pageOwnerWrite mid page mid) s
def execPageRelease (mid page : Nat) (s : State) := onDev (fun d => d.pageOwnerWrite mid page 0xF) s
def execUnitClaim (mid addr : Nat) (s : State) := onDev (fun d => d.ownerWrite mid addr mid) s
def execUnitRelease (mid addr : Nat) (s : State) := onDev (fun d => d.ownerWrite mid addr 0xF) s
def execKeyFirstWord (mid page : Nat) (s : State) := onDev (fun d => d.keyWordWrite mid page 0x5EED) s
def execKeySecondWord (mid page : Nat) (s : State) := onDev (fun d => d.keyWordWrite mid page 0xC10D) s
def execKeyClose (mid page : Nat) (s : State) := onDev (fun d => d.keyWordWrite mid page 0) s
def execKeySequenceExpiry (page : Nat) (s : State) := onDev (fun d => d.keySequenceExpiry page) s
def execKeyWindowExpiry (page : Nat) (s : State) := onDev (fun d => d.keyWindowExpiry page) s
def execLowWordRead (mid : Nat) (addr : BusAt) (s : State) : Host.Outcome State Fault Refusal :=
  if inRegs addr.addr || inWins addr.addr then onState (fun s => s.onDevS fun d => d.busRead s.mems.win mid addr.addr addr.width) s
  else .fault .unmappedAddress
def execTrkAngRead (mid trk : Nat) (s : State) := onDev (fun d => if trk < nTracks then d.trkAngRead mid trk else d) s
def execAccRes0Read (mid acc : Nat) (s : State) := onDev (fun d => if acc < nAcc d.member then d.accRes0Read mid acc else d) s
def execMmxMinRead (mid mmx : Nat) (s : State) := onDev (fun d => if mmx < nMmx d.member then d.mmxMinRead mid mmx else d) s
/-- Word 40 of the record is CTX_OUT0 (R212); a failing one reads as zero (R211). -/
def execCtxOut0Read (mid ctx : Nat) (s : State) := onDev (fun d =>
  if ctx < nCtx d.member then d.ctxWordRead mid ctx 40 id else d) s
def execPosAngRead (mid pos : Nat) (shadow : Bool) (s : State) :=
  onDev (fun d => if pos < nPos d.member then d.posAngRead mid pos shadow else d) s
def execEvtLastRead (mid : Nat) (s : State) := onDev (fun d => d.evtLastRead mid) s
def execPgEvtClr (mid page : Nat) (val : Word) (s : State) := onDev (fun d => d.pWrite mid (R.PG_EVT_CLR page) val) s

end Sys2Proof.Machine
end

