-- ==== Sys2Proof/Machine/Frames.lean ====
section
/-! DEFINITION. Frames of the SPI target (R443 to R445) and the sequencer of the fatal dump (R467 to R470). -/

namespace Sys2Proof.Machine

/-! ### SPI frames -/

/-- Commands of R444. -/
def cmdRD : Nat := 0x01
def cmdWR : Nat := 0x02
def cmdKEY : Nat := 0x03
def cmdRDFIX : Nat := 0x11
def cmdWRFIX : Nat := 0x12

def cmdKnown (c : Nat) : Bool := c == cmdRD || c == cmdWR || c == cmdKEY || c == cmdRDFIX || c == cmdWRFIX
def cmdWrites (c : Nat) : Bool := c == cmdWR || c == cmdWRFIX
def cmdReads (c : Nat) : Bool := c == cmdRD || c == cmdRDFIX

/-- CMD, ADDR and COUNT of a frame. -/
def frCmd (f : List Byte) : Nat := (nthD 0 f 0).toNat
def frAddr (f : List Byte) : Nat := natBE ((f.drop 1).take 4)
def frCount (f : List Byte) : Nat := (nthD 0 f 5).toNat

/-- Bytes of CMD to DATA. -/
def frBody (f : List Byte) : Nat := 6 + (if cmdWrites (frCmd f) then 4 * frCount f else 0)

/-- Whether SPI_CS rose before the end of the request CRC. -/
def frShort (f : List Byte) : Bool := decide (f.length < 6) || decide (f.length < frBody f + 2)

/-- Whether the request CRC is right. -/
def frCrcOk (f : List Byte) : Bool := crc16 (f.take (frBody f)) == natBE ((f.drop (frBody f)).take 2)

/-- Data word `i` of a write frame, most significant byte first. -/
def frWord (f : List Byte) (i : Nat) : Word := BitVec.ofNat 32 (natBE ((f.drop (6 + 4 * i)).take 4))

/-- Words between the first and the last address of a frame. -/
def frSpan (f : List Byte) : Nat := if frCmd f = cmdRD ∨ frCmd f = cmdWR then frCount f else 1

/-- Whether `n` words from an address on lie in the register space or in the windows (R444). -/
def frRange (a n : Nat) : Bool :=
  (decide (0x40000000 ≤ a) && decide (a + 4 * n ≤ 0x40200000)) || (decide (winBase ≤ a) && decide (a + 4 * n ≤ winBase + 2 ^ 20))

/-- STATUS before anything is performed (R445): the CRC, the command, COUNT, the range, in this order (log entry 83, DEDUCED). -/
def frCheck (f : List Byte) : Nat :=
  if !frCrcOk f then 1
  else if !cmdKnown (frCmd f) then 2
  else if frCmd f ≠ cmdKEY ∧ (frCount f = 0 ∨ 16 < frCount f) then 5
  else if !frRange (frAddr f) (frSpan f) then 3
  else 0

/-- A write together with whether it was refused under R25. -/
def State.tryWrite (s : State) (page : Nat) (f : State → State) : State × Bool :=
  let st := R.PG_STAT page
  (f s, (f (s.onDevS fun d => d.putB st F.PG_STAT_WR_DENIED false)).dev.flag st F.PG_STAT_WR_DENIED)

/-- One word written by the SPI host (R444). -/
def State.spiWord (s : State) (a : Nat) (w : Word) : State × Bool :=
  if inWins a then (s.winWrite Mid.SPI a (bytesOfWord w), false)
  else if a % 4 ≠ 0 then (s, false)
  else s.tryWrite (pageOf a) fun t => t.regWrite Mid.SPI a w

/-- Words written in consecutive cycles; whether any was refused. -/
def State.spiWords : List (Nat × Word) → State → State × Bool
  | [], s => (s, false)
  | p :: r, s =>
    let x := s.spiWord p.1 p.2
    let y := State.spiWords r x.1
    (y.1, x.2 || y.2)

/-- Words read in consecutive cycles. -/
def State.spiReads : List Nat → State → State × List Word
  | [], s => (s, [])
  | a :: r, s =>
    let t := s.onDevS fun d => d.busRead s.mems.win Mid.SPI a 4
    let y := State.spiReads r t
    (y.1, spGet 0 t.dev.rdata Mid.SPI :: y.2)

/-- The addresses of a frame's words. -/
def frAddrs (f : List Byte) : List Nat :=
  (List.range (frCount f)).map fun i => if frCmd f = cmdRD then frAddr f + 4 * i else frAddr f

/-- The writes of a frame: its data words, or the two key words. -/
def frWrites (f : List Byte) : List (Nat × Word) :=
  if frCmd f = cmdKEY then [(frAddr f, 0x5EED), (frAddr f, 0xC10D)]
  else if cmdWrites (frCmd f) then (List.range (frCount f)).map fun i =>
    (if frCmd f = cmdWR then frAddr f + 4 * i else frAddr f, frWord f i)
  else []

/-- The device's part of a frame: STATUS, RDATA, RCRC (R443). -/
def frAnswer (status : Nat) (ws : List Word) : List Byte :=
  let l := BitVec.ofNat 8 status :: ws.flatMap fun w => bytesBE 4 w.toNat
  l ++ bytesBE 2 (crc16 l)

/-- Bytes of the device's part that a frame clocks out (R443, R445): what SPI_CS leaves behind the request CRC and the turnaround. -/
def frClocked (f : List Byte) : Nat := f.length - (frBody f + 6)

/-- The response that the host takes (R443); what SPI_CS cuts off is lost (R445). -/
def State.spiAnswer (s : State) (f : List Byte) (status : Nat) (ws : List Word) : State :=
  s.onDevS fun d => { d with spiResp := (frAnswer status ws).take (frClocked f) }

/-- A frame that is refused (R445). -/
def Dev.spiRefused (d : Dev) : Dev := (d.bump R.SPIT_STAT F.SPIT_STAT_ERR_CNT).raise Pg.SPIT Ev.SPI_FRAME_ERR

/-- A frame that is discarded (R445). -/
def Dev.spiAbort (d : Dev) : Dev := (d.bump R.SPIT_STAT F.SPIT_STAT_ABORT_CNT).raise Pg.SPIT Ev.SPI_FRAME_ERR

/-- A frame performed. -/
def State.spiPerform (s : State) (f : List Byte) : State :=
  if cmdReads (frCmd f) then
    let x := State.spiReads (frAddrs f) s
    x.1.spiAnswer f 0 x.2
  else
    let x := State.spiWords (frWrites f) s
    x.1.spiAnswer f (if x.2 then 4 else 0) []

/-- A frame from the falling to the rising SPI_CS (R443 to R445). -/
def State.spiFrame (s : State) (f : List Byte) : State :=
  if frShort f then s.onDevS Dev.spiAbort
  else
    let c := frCheck f
    if c = 0 then s.spiPerform f else (s.onDevS Dev.spiRefused).spiAnswer f c []

/-- The frame of a row: one whose CMD is another's brings nothing here. -/
def State.spiRow (s : State) (row : Nat → Bool) (f : List Byte) : State := if row (frCmd f) then s.spiFrame f else s

/-! ### The fatal dump (R467 to R470) -/

/-- A memory that holds bytes from an address on, in canonical form. -/
def memOf : Nat → List Byte → Memory
  | _, [] => []
  | a, b :: r => if b = 0 then memOf (a + 1) r else (a, b) :: memOf (a + 1) r

/-- Bytes put over a stretch of a memory. -/
def blit (m : Memory) (a : Nat) (bs : List Byte) : Memory :=
  m.filter (fun (c : Nat × Byte) => decide (c.1 < a)) ++ memOf a bs ++ m.filter (fun (c : Nat × Byte) => decide (a + bs.length ≤ c.1))

/-- Words whose contents the spec does not give: free values (log entry 3, DESIGN CHOICE). -/
def freeWords : Nat → Dev → List Word × Dev
  | 0, d => ([], d)
  | n + 1, d =>
    let x := d.fresh
    let y := freeWords n x.2
    (x.1 :: y.1, y.2)

/-- A page as the sequencer reads it: nothing latches, nothing is taken, no mailbox side is its own (R467). -/
def Dev.pageWords (d : Dev) (page : Nat) : List Word := (List.range 1024).map fun k => d.view 0xF (pageBase page + 4 * k)

/-- The header but for HCRC, EXT_VALID zero (R469). -/
def Dev.dumpHeader (d : Dev) : List Word :=
  let h (k : Nat) : Word := nthD 0 d.sys.head k
  [0x44554D50, 1, h 0, wordN (d.get R.DMP_STAT F.DMP_STAT_NCAUSE), h 1, h 2, h 3] ++ d.hashWords
    ++ [d.spbCheck, d.reg (R.PG_ID Pg.SYS), h 4, h 5, h 6, 0, h 7] ++ List.replicate 41 0

/-- The event log: source, then GTC bits 31:0 (R468). -/
def Dev.logWords (d : Dev) : List Word :=
  let l := d.evt.log.flatMap fun r => [wordN r.src, wordN r.tick]
  l ++ List.replicate (1024 - l.length) 0

/-- A LOSS record for what the FIFO has discarded since the last (R457). -/
def Dev.lossTail (d : Dev) : List RecRec :=
  if d.hamper.lost = 0 then [] else [{ ty := 0x02, tick := d.hamper.lostTick, data := [wordN d.hamper.lost] }]

/-- The FIFO's records with their TIME records, then the FATAL record, for which room is kept (R467). -/
def Dev.tailRecs (d : Dev) : List RecRec :=
  let h (k : Nat) : Nat := (nthD 0 d.sys.head k).toNat
  let b := (fillBlock (65536 - 48) 0 d.hamper.fifo).1
  let hi := match b.getLast? with
    | some r => if r.ty = 0x01 then (nthD 0 r.data 0).toNat else r.tick / 2 ^ 32
    | none => 0
  let fatal : RecRec := { ty := 0xFE, res := h 0, tick := h 2 + 2 ^ 32 * h 3, data := [nthD 0 d.sys.head 1] }
  b ++ d.lossTail ++ (if hi = h 3 then [] else [timeRec (h 3)]) ++ [fatal]

def Dev.tailWords (d : Dev) : List Word :=
  let l := d.tailRecs.flatMap recWords
  l ++ List.replicate (16384 - l.length) 0

/-- The pages of the retention SRAM (R468). -/
def dumpPages : List Nat := [Pg.SYS, Pg.PWR, Pg.RST, Pg.SAFE, Pg.TMON, Pg.SFX, Pg.GDT, Pg.GDA, Pg.LEC, Pg.TL]

/-- The last machine states as the dump keeps them (R333): MD_STAT of each machine, the first words of S0's log area (log entry 316,
DESIGN CHOICE). -/
def Dev.lastStates (d : Dev) : List Word := (List.range 20).map fun m => (d.machS m).stat

/-- The words of the retention SRAM but HCRC (R468); core state and the rest of Garmal's log areas are free. -/
def Dev.retWords (d : Dev) : List Word × Dev :=
  let (core, e) := freeWords 512 d
  let (rest, e) := freeWords 36844 e
  let logs := d.lastStates ++ rest
  (d.dumpHeader ++ [0] ++ d.logWords ++ core ++ List.replicate 448 0 ++ dumpPages.flatMap d.pageWords ++ d.tailWords ++ logs, e)

/-- DUMP_RETENTION_DONE (R467): steps 1 and 2 have come to their end. -/
def State.dumpRetention (s : State) : State :=
  if s.dev.sys.dump ≠ 1 then s
  else
    let (ws, d) := s.dev.retWords
    let ret := memOf 0 (ws.flatMap bytesOfWord)
    let ret := ret.writeBytes 0xFC (bytesOfWord (dumpCrc ret))
    let d : Dev := { d with sys := { d.sys with dump := if d.flag R.DDR_STAT F.DDR_STAT_READY then 2 else 3 } }
    { s with dev := d, mems := { s.mems with ret := ret } }

/-- A record of the context store: its mapped words, then the speculation area (R242, R470). -/
def Dev.storeWords (d : Dev) (c : Nat) : List Word :=
  let preds := match (d.ctxS c).spec with
    | some s => if s.tst.isSome then s.preds.map (predWord s.wins) else []
    | none => []
  (List.range 112).map (fun k => d.view 0xF (ctxA c k)) ++ (List.range 12).map (d.stgOut c)
    ++ (preds ++ List.replicate (4 - preds.length) 0).take 4

/-- DUMP_EXT_DONE (R467, R470): step 3 has come to its end. The supervisors' SRAM is free. -/
def State.dumpExt (s : State) : State :=
  if s.dev.sys.dump ≠ 2 then s
  else
    let b := s.dev.dumpBase
    let (sram, d) := freeWords (2 ^ 20) s.dev
    let bytes (ws : List Word) : List Byte := ws.flatMap bytesOfWord
    let ddr := blit s.mems.ddr b (bytes sram)
    let ddr := blit ddr (b + 0x400000) (bytes ((List.range (nCtx d.member)).flatMap s.dev.storeWords))
    let ddr := blit ddr (b + 0x500000) (s.mems.win.readBytes 0 (2 ^ 20))
    let ddr := blit ddr (b + 0x600000) (bytes ((List.range 512).flatMap s.dev.pageWords))
    let d := ({ d with sys := { d.sys with dump := 3 } } : Dev).ddrHeal b (16 * 2 ^ 20)
    { s with dev := d, mems := { s.mems with ddr := ddr, ret := s.mems.ret.writeBytes 0x50 [1] } }

/-! ### Meanings -/

def execRd (frame : List Byte) (s : State) := onState (fun s => s.spiRow (· == cmdRD) frame) s
def execWr (frame : List Byte) (s : State) := onState (fun s => s.spiRow (· == cmdWR) frame) s
def execRdFix (frame : List Byte) (s : State) := onState (fun s => s.spiRow (· == cmdRDFIX) frame) s
def execWrFix (frame : List Byte) (s : State) := onState (fun s => s.spiRow (· == cmdWRFIX) frame) s
def execKey (frame : List Byte) (s : State) := onState (fun s => s.spiRow (· == cmdKEY) frame) s
def execSpiUnknownCmd (frame : List Byte) (s : State) := onState (fun s => s.spiRow (fun c => !cmdKnown c) frame) s
def execSpiFrameAbort (s : State) := onDev (fun d => d.spiAbort) s
def execDumpRetentionDone (s : State) := onState State.dumpRetention s
def execDumpExtDone (s : State) := onState State.dumpExt s

end Sys2Proof.Machine
end

