-- ==== Sys2Proof/Machine/Clock.lean ====
section
/-! DEFINITION. What one tick of the 400 MHz timebase brings while no command waits (R19, R20, R55; log entry 5, DESIGN CHOICE). -/

namespace Sys2Proof.Machine

/-! ### Pages that stand still (R27; log entry 293)

A count that the model keeps as a tick stands still by moving with GTC. -/

/-- A tick that is kept as the tick after it, 0 for none. -/
def later (t : Nat) : Nat := if t = 0 then 0 else t + 1

/-- Calibrations and their ages (R95, R101). -/
def Dev.standAda (d : Dev) : Dev :=
  forN (nPhys d.member) (fun p e => e.setCal p { start := (e.calS p).start + 1, done := (e.calS p).done + 1 }) d

/-- Starts and blanking of a page's comparators (R144 to R147). -/
def Dev.standCmp (d : Dev) (p : Nat) : Dev :=
  forN 36 (fun j e =>
    let q := e.cmpS (36 * p + j)
    if q = {} then e
    else e.setCmp (36 * p + j)
      { q with startAt := q.startAt + 1, edgeEnd := q.edgeEnd.map (· + 1), blankFrom := q.blankFrom.map (· + 1) }) d

/-- The frame, the updates and the zero-speed time of a decoder (R169 to R176, R181). -/
def Dev.standPos (d : Dev) (x : Nat) : Dev :=
  let s := d.posS x
  if s = {} then d
  else d.setPos x
    { s with frame := s.frame.map (· + 1), updAt := later s.updAt, accAt := s.accAt + 1, crossAt := later s.crossAt,
             shw := s.shw.map fun w => { w with due := w.due + 1 } }

/-- The phase of an excitation output (R178). -/
def Dev.standExc (d : Dev) (k : Nat) : Dev :=
  match d.excS k with
  | [] => d
  | s :: r => d.setExc k ({ s with t0 := s.t0 + 1 } :: r)

/-- A PWM group: the carrier, its coming events, steps and edges (R270 to R286, R292). -/
def Dev.standGrp (d : Dev) (g : Nat) : Dev :=
  let r := d.grpS g
  let edge (e : EdgeSt) : EdgeSt := { e with t := e.t + 64, tick := e.tick + 1 }
  let leg (p : Nat × LegSt) : Nat × LegSt :=
    (p.1, { p.2 with rise := p.2.rise + 64, fall := p.2.fall + 64, imm := p.2.imm.map fun i => (i.1, i.2 + 1) })
  if r = {} then d
  else d.setGrp g
    { r with evs := r.evs.map fun e => if d.gtc ≤ e.2 then (e.1, e.2 + 1) else e,
             load := r.load.map fun l => (l.1 + 1, l.2), v := r.v + 1, vq := r.vq.map fun v => (v.1 + 1, v.2),
             eMin := r.eMin + 1, legs := r.legs.map leg, legs0 := r.legs0.map leg, edges := r.edges.map edge }

/-- Ready wait and removal check of a group's enables (R302, R303). -/
def Dev.standGate (d : Dev) (g : Nat) : Dev :=
  let r := d.grpS g
  if r = {} then d else d.setGrp g { r with waitAt := r.waitAt.map (· + 1), chkAt := r.chkAt.map (· + 1) }

/-- Bootstrap refreshes of an auxiliary group (R319). -/
def Dev.standBst (d : Dev) (g : Nat) : Dev :=
  forN 3 (fun x e =>
    match (e.legS g x).rfSample with
    | some t => e.setLeg g x { e.legS g x with rfSample := some (t + 1) }
    | none => e) d

/-- The passes of a context: the wait, the normal path, the speculation (R192 to R195, R220 to R235). -/
def Dev.standCtx (d : Dev) (c : Nat) : Dev :=
  let s := d.ctxS c
  if s = {} then d
  else d.setCtx c
    { s with pend := s.pend.map fun p => { p with f := p.f + 1, ready := p.ready.map (· + 1) },
             run := s.run.map fun r => { r with tc := r.tc + 1 },
             spec := s.spec.map fun q => { q with tst := q.tst.map (· + 1), rq := q.rq.map (· + 1), rend := q.rend.map (· + 1) } }

/-- A machine entry's evaluations and its stop (R357 to R365). -/
def Dev.standTm (d : Dev) (m : Nat) : Dev :=
  let s := d.tmS m
  if s = {} then d
  else d.setTm m { s with next := s.next + 1, unc := s.unc.map (· + 1), ss1 := s.ss1.map fun x => { x with t0 := x.t0 + 1 } }

/-- The timers of ASC and discharge (R367, R368). -/
def Dev.standSafe (d : Dev) (m : Nat) : Dev :=
  let s := d.tmS m
  let d := match s.slow with
    | some t => d.setTm m { s with slow := some (t + 1) }
    | none => d
  { d with safe := { d.safe with disM := d.safe.disM.map fun p =>
      if p.1 = m then (p.1, { p.2 with at1 := later p.2.at1 }) else p } }

/-- The deadlines of a ring source (R396, R398). -/
def standSrc (x : SrcSt) : SrcSt :=
  { x with accAt := later x.accAt, epAt := later x.epAt, seenA := later x.seenA, seenB := later x.seenB,
           props := x.props.map fun p => (p.1, p.2.1, later p.2.2), wait := x.wait.map fun c => { c with tick := c.tick + 1 } }

/-- The slots of a page and their actions under way (R71 to R80). -/
def Dev.standTls (d : Dev) (p : Nat) : Dev :=
  { d with
    slot := d.slot.map fun s => if s.1 / 256 = p then (s.1, { s.2 with nextF := s.2.nextF + 1 }) else s,
    firings := (d.firings.map fun r => if r.slot / 256 = p then { r with f := r.f + 1 } else r).foldl firingInsert [] }

/-- An operation on a page of which the clocked state stands still. -/
def Dev.onStill (d : Dev) (page : Nat) (f : Dev → Dev) : Dev := if d.frozen page then f d else d

/-- Speculations whose decision a halt has put off. -/
def Dev.specTryHeld (d : Dev) : Dev :=
  d.ctx.foldl (fun e c => if (e.ctxS c.1).spec.isSome then e.specTry c.1 else e) d

/-- One tick of what stands still. -/
def Dev.standTick (d : Dev) : Dev :=
  if !d.flag R.DBG_CTRL F.DBG_CTRL_HALTED then d.specTryHeld
  else
    let d := d.onStill Pg.ADA Dev.standAda
    let d := forN 2 (fun p e => e.onStill (Pg.CMP p) fun e => e.standCmp p) d
    let d := forN 12 (fun n e => e.onStill (Pg.POS n) fun e => (e.standPos n).standPos (16 + n)) d
    let d := d.onStill Pg.EXC fun e => forN 4 (fun k e => e.standExc k) e
    let d := d.onStill Pg.EMU fun e =>
      forN 4 (fun k e => let q := e.emuS k; e.setEmu k { q with stepAt := later q.stepAt }) e
    let d := forN 20 (fun g e => e.onStill (Pg.PWT g) fun e => e.standGrp g) d
    let d := d.onStill Pg.GDT fun e => forN 12 (fun g e => e.standGate g) e
    let d := d.onStill Pg.GDA fun e => forN 8 (fun n e => (e.standGate (12 + n)).standBst (12 + n)) e
    let d := forN (nCtx d.member) (fun c e => if e.engHeld (e.ctxEng c) then e.standCtx c else e) d
    let d := d.onStill Pg.LEC fun e => { e with sys := { e.sys with scrubbed := e.sys.scrubbed + 1 } }
    let d := d.onStill Pg.TMON fun e => forN 20 (fun m e => e.standTm m) e
    let d := d.onStill Pg.SAFE fun e => forN 20 (fun m e => e.standSafe m) e
    let d := d.onStill Pg.SFX fun e =>
      { e with ring := { e.ring with srcs := e.ring.srcs.map fun p => (p.1, standSrc p.2) } }
    let d := d.onStill Pg.PWG fun e => { e with dl := e.dl.map fun p => (p.1, { p.2 with last := p.2.last + 1 }) }
    let d := d.onStill Pg.REC fun e => { e with hamper := { e.hamper with ancAt := e.hamper.ancAt + 1 } }
    let d := d.onStill (Pg.ETH d.syncPort) fun e =>
      let q := e.ethS e.syncPort
      e.setEth e.syncPort { q with pdNext := q.pdNext + 1 }
    forN 4 (fun p e => e.onStill (Pg.TLS p) fun e => e.standTls p) d

/-! ### A tick -/

/-- The parts whose time a debug halt may stop, or that a replay takes over, as one tick passes (R27, R464). -/
def Dev.liveTick (d : Dev) : Dev := if d.replaying then d else d.posTick

/-- One tick (R55): the pins' edges of the tick that ends (R146), the engines' busy frames of the tick that ends, GTC and the tracks, what
stands still (R27), what the new tick shows at once, the run of a REARM (R460). -/
def Dev.idle (d : Dev) : Dev := ((((d.pinLookAll.onRt Dev.engTick).tick).onRt Dev.standTick).liveTick).clocked Pg.REC Dev.rearmTick

end Sys2Proof.Machine
end

