-- ==== Sys2Proof/Machine/Dispatch.lean ====
section
/-! DEFINITION. Every command to its meaning, one arm each, in the order of spec/opcode_table.json. -/

namespace Sys2Proof.Machine

def exec (i : Instr) (s : State) : Host.Outcome State Fault Refusal :=
  match i with
  | .registerWrite mid addr width val => Sys2Proof.Machine.execRegisterWrite mid addr width val s
  | .pageClaim mid page => Sys2Proof.Machine.execPageClaim mid page s
  | .pageRelease mid page => Sys2Proof.Machine.execPageRelease mid page s
  | .unitClaim mid addr => Sys2Proof.Machine.execUnitClaim mid addr s
  | .unitRelease mid addr => Sys2Proof.Machine.execUnitRelease mid addr s
  | .keyFirstWord mid page => Sys2Proof.Machine.execKeyFirstWord mid page s
  | .keySecondWord mid page => Sys2Proof.Machine.execKeySecondWord mid page s
  | .keyClose mid page => Sys2Proof.Machine.execKeyClose mid page s
  | .keySequenceExpiry page => Sys2Proof.Machine.execKeySequenceExpiry page s
  | .keyWindowExpiry page => Sys2Proof.Machine.execKeyWindowExpiry page s
  | .lowWordRead mid addr => Sys2Proof.Machine.execLowWordRead mid addr s
  | .trkAngRead mid trk => Sys2Proof.Machine.execTrkAngRead mid trk s
  | .accRes0Read mid acc => Sys2Proof.Machine.execAccRes0Read mid acc s
  | .mmxMinRead mid mmx => Sys2Proof.Machine.execMmxMinRead mid mmx s
  | .ctxOut0Read mid ctx => Sys2Proof.Machine.execCtxOut0Read mid ctx s
  | .posAngRead mid pos shadow => Sys2Proof.Machine.execPosAngRead mid pos shadow s
  | .tmTqRead mid entry => Sys2Proof.Machine.execTmTqRead mid entry s
  | .sfxFrameRead mid src => Sys2Proof.Machine.execSfxFrameRead mid src s
  | .evtLastRead mid => Sys2Proof.Machine.execEvtLastRead mid s
  | .pgEvtClr mid page val => Sys2Proof.Machine.execPgEvtClr mid page val s
  | .evtOutPulseEnd pin => Sys2Proof.Machine.execEvtOutPulseEnd pin s
  | .linkFrameRx err => Sys2Proof.Machine.execLinkFrameRx err s
  | .linkHeartbeatTimeout => Sys2Proof.Machine.execLinkHeartbeatTimeout s
  | .channelClockStop ch => Sys2Proof.Machine.execChannelClockStop ch s
  | .supplyFault ch => Sys2Proof.Machine.execSupplyFault ch s
  | .clkXchk dev => Sys2Proof.Machine.execClkXchk dev s
  | .pllUnlock ch => Sys2Proof.Machine.execPllUnlock ch s
  | .enaReadback grp ch => Sys2Proof.Machine.execEnaReadback grp ch s
  | .stoInputActive ch => Sys2Proof.Machine.execStoInputActive ch s
  | .stoInputRelease ch => Sys2Proof.Machine.execStoInputRelease ch s
  | .tlRateWrite mid val => Sys2Proof.Machine.execTlRateWrite mid val s
  | .vtOfsHiWrite mid val => Sys2Proof.Machine.execVtOfsHiWrite mid val s
  | .syncMessage err tm => Sys2Proof.Machine.execSyncMessage err tm s
  | .syncTimeout => Sys2Proof.Machine.execSyncTimeout s
  | .trackUpdate trk => Sys2Proof.Machine.execTrackUpdate trk s
  | .trkStale trk => Sys2Proof.Machine.execTrkStale trk s
  | .trkAngWrite mid trk val => Sys2Proof.Machine.execTrkAngWrite mid trk val s
  | .trkSpdWrite mid trk val => Sys2Proof.Machine.execTrkSpdWrite mid trk val s
  | .trkCfgWrite mid trk val => Sys2Proof.Machine.execTrkCfgWrite mid trk val s
  | .slotTrigWrite mid slot val => Sys2Proof.Machine.execSlotTrigWrite mid slot val s
  | .slotArgWrite mid slot val => Sys2Proof.Machine.execSlotArgWrite mid slot val s
  | .absoluteSlotDecide slot => Sys2Proof.Machine.execAbsoluteSlotDecide slot s
  | .periodicSlotDecide slot => Sys2Proof.Machine.execPeriodicSlotDecide slot s
  | .carrierSlotDecide slot => Sys2Proof.Machine.execCarrierSlotDecide slot s
  | .angleSlotDecide slot => Sys2Proof.Machine.execAngleSlotDecide slot s
  | .angleSlotRearm slot => Sys2Proof.Machine.execAngleSlotRearm slot s
  | .accOpen slot => Sys2Proof.Machine.execAccOpen slot s
  | .accClose slot => Sys2Proof.Machine.execAccClose slot s
  | .accSwap slot => Sys2Proof.Machine.execAccSwap slot s
  | .ctxRun slot => Sys2Proof.Machine.execCtxRun slot s
  | .ctxSpec slot => Sys2Proof.Machine.execCtxSpec slot s
  | .posReq slot => Sys2Proof.Machine.execPosReq slot s
  | .excPhase slot => Sys2Proof.Machine.execExcPhase slot s
  | .blankOn slot => Sys2Proof.Machine.execBlankOn slot s
  | .blankOff slot => Sys2Proof.Machine.execBlankOff slot s
  | .owOn slot => Sys2Proof.Machine.execOwOn slot s
  | .owOff slot => Sys2Proof.Machine.execOwOff slot s
  | .recMark slot => Sys2Proof.Machine.execRecMark slot s
  | .slotArm slot => Sys2Proof.Machine.execSlotArm slot s
  | .evtPulse slot => Sys2Proof.Machine.execEvtPulse slot s
  | .slotDisarm slot => Sys2Proof.Machine.execSlotDisarm slot s
  | .adaSample slice raw rawInc => Sys2Proof.Machine.execAdaSample slice raw rawInc s
  | .adaResultArrival slice => Sys2Proof.Machine.execAdaResultArrival slice s
  | .adaSeqWrite mid slice val => Sys2Proof.Machine.execAdaSeqWrite mid slice val s
  | .bootSliceCalibrationDone cal => Sys2Proof.Machine.execBootSliceCalibrationDone cal s
  | .sliceCalibrationDone phys ofs gain => Sys2Proof.Machine.execSliceCalibrationDone phys ofs gain s
  | .rotationStep => Sys2Proof.Machine.execRotationStep s
  | .overlapDecision => Sys2Proof.Machine.execOverlapDecision s
  | .calStale slice => Sys2Proof.Machine.execCalStale slice s
  | .owEvaluation input => Sys2Proof.Machine.execOwEvaluation input s
  | .sdcFault clk => Sys2Proof.Machine.execSdcFault clk s
  | .sinc3Output sdd wave => Sys2Proof.Machine.execSinc3Output sdd wave s
  | .adbCopyArrival sdd => Sys2Proof.Machine.execAdbCopyArrival sdd s
  | .sdStuck sdd => Sys2Proof.Machine.execSdStuck sdd s
  | .fastSinc3Output sdd wave => Sys2Proof.Machine.execFastSinc3Output sdd wave s
  | .accCommit acc => Sys2Proof.Machine.execAccCommit acc s
  | .accConfigWrite mid acc word val => Sys2Proof.Machine.execAccConfigWrite mid acc word val s
  | .mmxClear mid mmx => Sys2Proof.Machine.execMmxClear mid mmx s
  | .cmpTrip cmp uv => Sys2Proof.Machine.execCmpTrip cmp uv s
  | .cmpRelease cmp uv => Sys2Proof.Machine.execCmpRelease cmp uv s
  | .cmpStart cmp => Sys2Proof.Machine.execCmpStart cmp s
  | .cmpStartDone cmp => Sys2Proof.Machine.execCmpStartDone cmp s
  | .cmpStartLate cmp => Sys2Proof.Machine.execCmpStartLate cmp s
  | .cmpStrobe cmp uv => Sys2Proof.Machine.execCmpStrobe cmp uv s
  | .cmpSettingApplied cmp => Sys2Proof.Machine.execCmpSettingApplied cmp s
  | .edgeBlankEnd cmp => Sys2Proof.Machine.execEdgeBlankEnd cmp s
  | .cmpBlankCap cmp => Sys2Proof.Machine.execCmpBlankCap cmp s
  | .cmpClear mid cmp => Sys2Proof.Machine.execCmpClear mid cmp s
  | .posEdgeAccept pos a b z => Sys2Proof.Machine.execPosEdgeAccept pos a b z s
  | .updMinExpiry pos => Sys2Proof.Machine.execUpdMinExpiry pos s
  | .decayUpdate pos => Sys2Proof.Machine.execDecayUpdate pos s
  | .zeroSpd pos => Sys2Proof.Machine.execZeroSpd pos s
  | .uncClr mid pos => Sys2Proof.Machine.execUncClr mid pos s
  | .ssiWord pos word => Sys2Proof.Machine.execSsiWord pos word s
  | .bissWord pos start word crc => Sys2Proof.Machine.execBissWord pos start word crc s
  | .posTimeout pos => Sys2Proof.Machine.execPosTimeout pos s
  | .resolverWord pos => Sys2Proof.Machine.execResolverWord pos s
  | .excFault exc mvs => Sys2Proof.Machine.execExcFault exc mvs s
  | .shadowEdgeAccept shd a b z => Sys2Proof.Machine.execShadowEdgeAccept shd a b z s
  | .shadowExcLoss shd => Sys2Proof.Machine.execShadowExcLoss shd s
  | .emuStep out => Sys2Proof.Machine.execEmuStep out s
  | .passStart eng => Sys2Proof.Machine.execPassStart eng s
  | .ctxWaitTimeout ctx => Sys2Proof.Machine.execCtxWaitTimeout ctx s
  | .ctxDrop ctx => Sys2Proof.Machine.execCtxDrop ctx s
  | .passCommit ctx => Sys2Proof.Machine.execPassCommit ctx s
  | .ctxEnable mid ctx val => Sys2Proof.Machine.execCtxEnable mid ctx val s
  | .ctxDisable mid ctx val => Sys2Proof.Machine.execCtxDisable mid ctx val s
  | .ctxScrub read => Sys2Proof.Machine.execCtxScrub read s
  | .specStage ctx => Sys2Proof.Machine.execSpecStage ctx s
  | .recomputeStart eng => Sys2Proof.Machine.execRecomputeStart eng s
  | .recomputeCommit ctx => Sys2Proof.Machine.execRecomputeCommit ctx s
  | .specSuspClear mid ctx => Sys2Proof.Machine.execSpecSuspClear mid ctx s
  | .pwmGroupEnable mid grp => Sys2Proof.Machine.execPwmGroupEnable mid grp s
  | .pwmGroupStart grp => Sys2Proof.Machine.execPwmGroupStart grp s
  | .pwmGroupDisable mid grp => Sys2Proof.Machine.execPwmGroupDisable mid grp s
  | .captureTick grp => Sys2Proof.Machine.execCaptureTick grp s
  | .loadPoint grp => Sys2Proof.Machine.execLoadPoint grp s
  | .pwtCommit mid grp => Sys2Proof.Machine.execPwtCommit mid grp s
  | .legForceWrite mid grp leg val => Sys2Proof.Machine.execLegForceWrite mid grp leg val s
  | .forceImmediate grp leg => Sys2Proof.Machine.execForceImmediate grp leg s
  | .dlCalibrationDone out line elems => Sys2Proof.Machine.execDlCalibrationDone out line elems s
  | .dlCalibrationTimeout out line => Sys2Proof.Machine.execDlCalibrationTimeout out line s
  | .drdyReady grp => Sys2Proof.Machine.execDrdyReady grp s
  | .drdyTout grp => Sys2Proof.Machine.execDrdyTout grp s
  | .drdyLost grp => Sys2Proof.Machine.execDrdyLost grp s
  | .enaChkFail grp => Sys2Proof.Machine.execEnaChkFail grp s
  | .legFlt grp leg act => Sys2Proof.Machine.execLegFlt grp leg act s
  | .legShoot grp leg => Sys2Proof.Machine.execLegShoot grp leg s
  | .legOutRb grp leg => Sys2Proof.Machine.execLegOutRb grp leg s
  | .legClear mid grp mask => Sys2Proof.Machine.execLegClear mid grp mask s
  | .legSoftRelease mid grp mask => Sys2Proof.Machine.execLegSoftRelease mid grp mask s
  | .commStateWrite mid aux val => Sys2Proof.Machine.execCommStateWrite mid aux val s
  | .bstUv aux leg => Sys2Proof.Machine.execBstUv aux leg s
  | .bstRefreshSample aux leg mv => Sys2Proof.Machine.execBstRefreshSample aux leg mv s
  | .vgdUv => Sys2Proof.Machine.execVgdUv s
  | .vgdRecover mv => Sys2Proof.Machine.execVgdRecover mv s
  | .nop ch => Sys2Proof.Machine.execNop ch s
  | .version ch => Sys2Proof.Machine.execVersion ch s
  | .devState ch => Sys2Proof.Machine.execDevState ch s
  | .notify ch => Sys2Proof.Machine.execNotify ch s
  | .machDefine ch => Sys2Proof.Machine.execMachDefine ch s
  | .machClaim ch => Sys2Proof.Machine.execMachClaim ch s
  | .cfgWrite ch => Sys2Proof.Machine.execCfgWrite ch s
  | .machStart ch => Sys2Proof.Machine.execMachStart ch s
  | .machCmd ch => Sys2Proof.Machine.execMachCmd ch s
  | .machStop ch => Sys2Proof.Machine.execMachStop ch s
  | .machSto ch => Sys2Proof.Machine.execMachSto ch s
  | .machDischarge ch => Sys2Proof.Machine.execMachDischarge ch s
  | .machClear ch => Sys2Proof.Machine.execMachClear ch s
  | .machStatus ch => Sys2Proof.Machine.execMachStatus ch s
  | .spbWrite ch => Sys2Proof.Machine.execSpbWrite ch s
  | .ringRejoin ch => Sys2Proof.Machine.execRingRejoin ch s
  | .brakeP ch => Sys2Proof.Machine.execBrakeP ch s
  | .safeAck ch => Sys2Proof.Machine.execSafeAck ch s
  | .safeSto ch => Sys2Proof.Machine.execSafeSto ch s
  | .safeSs1 ch => Sys2Proof.Machine.execSafeSs1 ch s
  | .outM ch => Sys2Proof.Machine.execOutM ch s
  | .ringReq ch => Sys2Proof.Machine.execRingReq ch s
  | .machEvaluate mach => Sys2Proof.Machine.execMachEvaluate mach s
  | .armEnablesHigh mach => Sys2Proof.Machine.execArmEnablesHigh mach s
  | .machArmFail mach => Sys2Proof.Machine.execMachArmFail mach s
  | .catchComplete mach => Sys2Proof.Machine.execCatchComplete mach s
  | .alignTimeout mach => Sys2Proof.Machine.execAlignTimeout mach s
  | .startWindowExpiry mach => Sys2Proof.Machine.execStartWindowExpiry mach s
  | .retryWaitExpiry mach => Sys2Proof.Machine.execRetryWaitExpiry mach s
  | .stopSpeedTimer mach => Sys2Proof.Machine.execStopSpeedTimer mach s
  | .dischargeLate mach => Sys2Proof.Machine.execDischargeLate mach s
  | .tmonEvaluation entry => Sys2Proof.Machine.execTmonEvaluation entry s
  | .safeReqSs1Write mid val => Sys2Proof.Machine.execSafeReqSs1Write mid val s
  | .safeReqStoWrite mid val => Sys2Proof.Machine.execSafeReqStoWrite mid val s
  | .safeAckWrite mid val => Sys2Proof.Machine.execSafeAckWrite mid val s
  | .ss1Fail entry => Sys2Proof.Machine.execSs1Fail entry s
  | .ascReleaseTimer entry => Sys2Proof.Machine.execAscReleaseTimer entry s
  | .disMLate entry => Sys2Proof.Machine.execDisMLate entry s
  | .spbRecheck => Sys2Proof.Machine.execSpbRecheck s
  | .safeConfirmWrite mid val => Sys2Proof.Machine.execSafeConfirmWrite mid val s
  | .tempHigh sensor temp => Sys2Proof.Machine.execTempHigh sensor temp s
  | .supplyWarn warn => Sys2Proof.Machine.execSupplyWarn warn s
  | .lockstep ch => Sys2Proof.Machine.execLockstep ch s
  | .sramUncorr ch => Sys2Proof.Machine.execSramUncorr ch s
  | .sramCorr ch => Sys2Proof.Machine.execSramCorr ch s
  | .ringInsert ring => Sys2Proof.Machine.execRingInsert ring s
  | .bypassFault ring => Sys2Proof.Machine.execBypassFault ring s
  | .ringLink ring up => Sys2Proof.Machine.execRingLink ring up s
  | .frameSend => Sys2Proof.Machine.execFrameSend s
  | .copyReceive ring frame => Sys2Proof.Machine.execCopyReceive ring frame s
  | .pairTimeout src => Sys2Proof.Machine.execPairTimeout src s
  | .ringSrcLost src => Sys2Proof.Machine.execRingSrcLost src s
  | .cycleBoundary => Sys2Proof.Machine.execCycleBoundary s
  | .epochCommit => Sys2Proof.Machine.execEpochCommit s
  | .epochFail => Sys2Proof.Machine.execEpochFail s
  | .mbxRightsWrite mid val => Sys2Proof.Machine.execMbxRightsWrite mid val s
  | .mbxBind mid ch val => Sys2Proof.Machine.execMbxBind mid ch val s
  | .mbxUnbind mid ch => Sys2Proof.Machine.execMbxUnbind mid ch s
  | .mbxSend mid ch val => Sys2Proof.Machine.execMbxSend mid ch val s
  | .mbxReceive mid ch => Sys2Proof.Machine.execMbxReceive mid ch s
  | .mbxFlush mid ch => Sys2Proof.Machine.execMbxFlush mid ch s
  | .lockAcquire mid lock => Sys2Proof.Machine.execLockAcquire mid lock s
  | .lockRelease mid lock => Sys2Proof.Machine.execLockRelease mid lock s
  | .lockForced mid lock => Sys2Proof.Machine.execLockForced mid lock s
  | .winTake mid win owner => Sys2Proof.Machine.execWinTake mid win owner s
  | .winGiven mid win dest => Sys2Proof.Machine.execWinGiven mid win dest s
  | .winRelease mid win => Sys2Proof.Machine.execWinRelease mid win s
  | .winForced mid win => Sys2Proof.Machine.execWinForced mid win s
  | .winDataWrite mid addr bytes => Sys2Proof.Machine.execWinDataWrite mid addr bytes s
  | .canFrameRx can ident ctrl data => Sys2Proof.Machine.execCanFrameRx can ident ctrl data s
  | .canFrameTx can ok => Sys2Proof.Machine.execCanFrameTx can ok s
  | .canRecover mid can => Sys2Proof.Machine.execCanRecover mid can s
  | .canRecoveryDone can => Sys2Proof.Machine.execCanRecoveryDone can s
  | .ethFrameRx eth bytes => Sys2Proof.Machine.execEthFrameRx eth bytes s
  | .ethTxdWrite mid eth val => Sys2Proof.Machine.execEthTxdWrite mid eth val s
  | .ethRxdRead mid eth => Sys2Proof.Machine.execEthRxdRead mid eth s
  | .ethRxpop mid eth => Sys2Proof.Machine.execEthRxpop mid eth s
  | .pdelayRequest delay => Sys2Proof.Machine.execPdelayRequest delay s
  | .ethLink eth up speed => Sys2Proof.Machine.execEthLink eth up speed s
  | .pcieLink l0 speed lanes d3 => Sys2Proof.Machine.execPcieLink l0 speed lanes d3 s
  | .pcieFunctionReset => Sys2Proof.Machine.execPcieFunctionReset s
  | .rd frame => Sys2Proof.Machine.execRd frame s
  | .wr frame => Sys2Proof.Machine.execWr frame s
  | .rdFix frame => Sys2Proof.Machine.execRdFix frame s
  | .wrFix frame => Sys2Proof.Machine.execWrFix frame s
  | .key frame => Sys2Proof.Machine.execKey frame s
  | .spiFrameAbort => Sys2Proof.Machine.execSpiFrameAbort s
  | .ddrTrainingDone ok fitted => Sys2Proof.Machine.execDdrTrainingDone ok fitted s
  | .ddrPatrolScrub read => Sys2Proof.Machine.execDdrPatrolScrub read s
  | .recStart mid => Sys2Proof.Machine.execRecStart mid s
  | .recStop mid => Sys2Proof.Machine.execRecStop mid s
  | .recHostTrigger mid => Sys2Proof.Machine.execRecHostTrigger mid s
  | .recRearm mid => Sys2Proof.Machine.execRecRearm mid s
  | .recFreeze mid => Sys2Proof.Machine.execRecFreeze mid s
  | .recFrozen => Sys2Proof.Machine.execRecFrozen s
  | .blockComplete => Sys2Proof.Machine.execBlockComplete s
  | .anchorTimer => Sys2Proof.Machine.execAnchorTimer s
  | .recExport mid val => Sys2Proof.Machine.execRecExport mid val s
  | .recExpDone => Sys2Proof.Machine.execRecExpDone s
  | .rplLoad mid val => Sys2Proof.Machine.execRplLoad mid val s
  | .rplStart mid => Sys2Proof.Machine.execRplStart mid s
  | .replayRecord => Sys2Proof.Machine.execReplayRecord s
  | .rplAbort mid => Sys2Proof.Machine.execRplAbort mid s
  | .dumpRetentionDone => Sys2Proof.Machine.execDumpRetentionDone s
  | .dumpExtDone => Sys2Proof.Machine.execDumpExtDone s
  | .dmpExport mid val => Sys2Proof.Machine.execDmpExport mid val s
  | .dmpClear mid => Sys2Proof.Machine.execDmpClear mid s
  | .powerOnReset => Sys2Proof.Machine.execPowerOnReset s
  | .supplyReset => Sys2Proof.Machine.execSupplyReset s
  | .resetPin => Sys2Proof.Machine.execResetPin s
  | .rstSysRstWrite mid => Sys2Proof.Machine.execRstSysRstWrite mid s
  | .dbgSysRstWrite mid => Sys2Proof.Machine.execDbgSysRstWrite mid s
  | .warmReset => Sys2Proof.Machine.execWarmReset s
  | .resetRelease => Sys2Proof.Machine.execResetRelease s
  | .pllLocked => Sys2Proof.Machine.execPllLocked s
  | .imageVerified slot read agree => Sys2Proof.Machine.execImageVerified slot read agree s
  | .bootComplete => Sys2Proof.Machine.execBootComplete s
  | .lifecycleAdvance mid val => Sys2Proof.Machine.execLifecycleAdvance mid val s
  | .debugHalt mid req => Sys2Proof.Machine.execDebugHalt mid req s
  | .dbgAttach att => Sys2Proof.Machine.execDbgAttach att s
  | .lateRailArrival rail => Sys2Proof.Machine.execLateRailArrival rail s
  | .switchEdge grp leg high => Sys2Proof.Machine.execSwitchEdge grp leg high s
  | .drdyAcceptedLow grp => Sys2Proof.Machine.execDrdyAcceptedLow grp s
  | .bstUvClear aux leg mv => Sys2Proof.Machine.execBstUvClear aux leg mv s
  | .aDieSupplyRecovery => Sys2Proof.Machine.execADieSupplyRecovery s
  | .vgdOvervoltage mv => Sys2Proof.Machine.execVgdOvervoltage mv s
  | .badCode ch => Sys2Proof.Machine.execBadCode ch s
  | .spiUnknownCmd frame => Sys2Proof.Machine.execSpiUnknownCmd frame s
  | .unsupervisedCheck => Sys2Proof.Machine.execUnsupervisedCheck s
  | .ringStatusPoll => Sys2Proof.Machine.execRingStatusPoll s

end Sys2Proof.Machine
end

