-- ==== Sys2Proof/Safety.lean ====
section
/-! DEFINITION. What claims are stated in: the canonical form of the memories, the invariant of a state, what a command leaves as it
was. -/

namespace Sys2Proof.Machine

/-- Every byte memory in its canonical form. -/
def Mems.wf (m : Mems) : Bool := Memory.wf m.win && Memory.wf m.ddr && Memory.wf m.chip && Memory.wf m.ret && Memory.wf m.flash

/-- The invariant that every step keeps: the memories are canonical, so that equal contents are equal data. -/
def State.Inv (s : State) : Prop := s.mems.wf = true

/-- An outcome that is a next state with a property. -/
def NextWith (o : Host.Outcome State Fault Refusal) (P : State → Prop) : Prop := ∃ t, o = .next t ∧ P t

/-- The state with its device changed, the memories and the waiting commands as they are. -/
def State.withDev (s : State) (d : Dev) : State := { s with dev := d }

/-- An outcome that is a next state in which the device alone has changed, to one with a property. -/
def DevNext (o : Host.Outcome State Fault Refusal) (s : State) (P : Dev → Prop) : Prop :=
  ∃ e, o = .next (s.withDev e) ∧ P e

/-- A device out of reset (R50). -/
def State.Up (s : State) : Prop := s.dev.devState ≠ DS.RESET

/-- A device out of reset in which no replay runs (R50, R464). -/
def State.Live (s : State) : Prop := s.Up ∧ s.dev.replaying = false

/-! ### What a raising may change (R411, R430, R441, R452 to R460, R476 to R482) -/

/-- Registers that the delivery of events changes: the raw bits of every page, EVT_LAST and EVT_LAST_T, the pending bits of MSI-X,
REC_STAT, REC_TRIG_SEQ and REC_TRIG_INFO, MBX_FULLF. -/
def eventReg (a : Nat) : Bool :=
  offOf a == 0x10 || a == R.EVT_LAST || a == R.EVT_LAST_T || a == R.PCIE_PBA || a == R.REC_STAT || a == R.REC_TRIG_SEQ
    || a == R.REC_TRIG_INFO || a == R.MBX_FULLF

/-- The device without its registers and without what the delivery of events, records and messages changes, the notes of the present bus
cycle among it (log entry 101). -/
def Dev.calm (d : Dev) : Dev :=
  { d with regs := [], evt := {}, hamper := {}, mbx := [], gar := [], msiSent := [], rpl := { d.rpl with got := [] },
           sys := { d.sys with cyc := {} } }

/-- From one device to another nothing has changed but by the delivery of events, records and messages; no raw bit has been cleared. -/
def Quiet (d e : Dev) : Prop :=
  e.calm = d.calm ∧ (∀ a, eventReg a = false → e.reg a = d.reg a) ∧
    ∀ p i, bitOf (d.reg (R.PG_EVT_RAW p)) i = true → bitOf (e.reg (R.PG_EVT_RAW p)) i = true

/-- From one device to another nothing has changed but by the delivery of events, records and messages, and in the registers of a list. -/
def Frame (d e : Dev) (l : List Nat) : Prop :=
  e.calm = d.calm ∧ (∀ a, eventReg a = false → a ∉ l → e.reg a = d.reg a) ∧
    ∀ p i, R.PG_EVT_RAW p ∉ l → bitOf (d.reg (R.PG_EVT_RAW p)) i = true → bitOf (e.reg (R.PG_EVT_RAW p)) i = true

/-! ### Register writes (R5, R11, R12, R24, R25) -/

/-- Registers a write of which does nothing but store into their fields: no other operation of the device takes the write. -/
def plainReg (b : Block) (i off : Nat) : Bool :=
  match b with
  | .sysB => off != 0x80 && (off < 0x100 || 0x110 ≤ off)
  | .evtB => !(0x100 ≤ off && off < 0x200 && !sourceUsed (64 * i + (off - 0x100) / 4)) && !((off == 0x40 || off == 0x44) && i != 0)
  | .rstB | .secB => off != 0x44
  | .mbxB => off != 0x40 && (off < 0x100 || 0x500 ≤ off)
  | .lckB => off != 0x40 && (off < 0x100 || 0x200 ≤ off)
  | .winB => off != 0x40 && (off < 0x100 || 0x200 ≤ off)
  | .tlB => !([0x40, 0x4C, 0x50, 0x54].contains off) && off < 0x80
  | .tlsB => off < 0x40 + 12 * 256 && (off - 0x40) % 12 == 8
  | .trkB => (off - 0x40) / 0x40 < nTracks && !([0, 0x14, 0x18, 0x20].contains ((off - 0x40) % 0x40))
  | .adaB | .ctxB | .posB | .excB => false
  | .adbB => 0x70 ≤ off && !(0x100 ≤ off && off < 0x400 && (off - 0x100) % 0x10 == 0)
  | .accB => off < 0x900 && !(0x100 ≤ off && (off - 0x100) % 0x20 < 0x10)
  | .mmxB | .cmpB => off < 0x100
  | .lecB => off != 0x40 && off < 0x100
  | .emuB => off < 0x80 && (off - 0x40) % 0x10 == 8
  | .pwtB | .pwaB => off != 0x40 && !(0x80 ≤ off && off < 0x90) && !(0xA0 ≤ off && off < 0xAC)
  | .pwgB => off != 0x60 && !(0x80 ≤ off && off < 0x98)
  | .gdtB => off < 0x100 || 0x280 ≤ off
  | .gdaB => off < 0x100 || 0x200 ≤ off
  | .safeB => !([0x44, 0x5C, 0x60, 0x64, 0x68].contains off)
  | .recB => off != 0x40 && off != 0x64
  | .rplB => off != 0x40 && off != 0x6C
  | .dmpB => off != 0x40 && off != 0x48
  | .canB => off != 0x40 && !(0x400 ≤ off && off < 0xFE0)
  | .ethB => !([0x40, 0x50, 0x54, 0x60].contains off)
  | .ddrB | .dbgB => off != 0x40
  | .pcieB => off != 0xA00
  | _ => true

/-- A write of a word has acted on a field of the register at an address by the field's access type (R24), where the field accepted it; a
field that did not stands. -/
def FieldTaken (d e : Dev) (ok : Bool) (a : Nat) (fd : FieldDef) (w : Word) : Prop :=
  let bits := fun (p : Bool → Bool → Bool) => ∀ k, fd.f.lo ≤ k → k ≤ fd.f.hi → bitOf (e.reg a) k = p (bitOf (d.reg a) k) (bitOf w k)
  (ok = false → e.get a fd.f = d.get a fd.f) ∧
    (ok = true → match fd.acc with
      | .ro | .wo => e.get a fd.f = d.get a fd.f
      | .w1c => bits fun was one => was && !one
      | .w1s => bits fun was one => was || one
      | .w1n => e.get a fd.f = if bitOf w fd.f.lo then 0 else d.get a fd.f
      | .rw | .rwc | .rwm | .rwk => e.get a fd.f = getF w fd.f)

/-- A write of a plain register by a master: every field has taken its part of the word or refused it, the write shows in WR_DENIED where it
counts as refused (R25), and nothing else has changed but in the registers of a list. -/
def FieldsTaken (d e : Dev) (mid : Nat) (b : Block) (i a : Nat) (l : List FieldDef) (w : Word) (other : List Nat) : Prop :=
  let ok := d.fieldOk mid b i (pageOf a) (offOf a)
  Frame ({ d with sys := { d.sys with abs := e.sys.abs } }.denyIf (writeRefused ok (d.reg a) w l) (pageOf a)) e (a :: other) ∧
    ∀ fd ∈ l, FieldTaken d e (ok fd) a fd w

/-- A write to an absent unit has been counted with its page (R6, R11, R12): COUNT and ABSENT_WR; LAST_PAGE, but where a master of a lower
MID wrote to an absent unit in the same bus cycle. -/
def AbsentCounted (d e : Dev) (mid page : Nat) : Prop :=
  let a := R.SYS_ABSENT_CNT
  let q := d.sys.abs
  e.get a F.SYS_ABSENT_CNT_COUNT = min (d.get a F.SYS_ABSENT_CNT_COUNT + 1) 0xFFFF ∧ e.flag a F.SYS_ABSENT_CNT_ABSENT_WR = true ∧
    e.get a F.SYS_ABSENT_CNT_LAST_PAGE =
      (if q.cyc = d.busCycle ∧ q.mid < mid then d.get a F.SYS_ABSENT_CNT_LAST_PAGE else page) ∧
    e.sys.abs = (if q.cyc = d.busCycle then { cyc := q.cyc, mid := min mid q.mid, n := q.n + 1 }
      else { cyc := d.busCycle, mid := mid, n := 1 })

/-- A read leaves all but its answer and the reader's latches. -/
def OnlyRead (d e : Dev) : Prop := e = { d with rdata := e.rdata, latch := e.latch }

/-- What a master's last read answered (log entry 6, DESIGN CHOICE). -/
def Dev.answered (d : Dev) (mid : Nat) : Word := spGet 0 d.rdata mid

/-- A source stands in the raw bits of its page (R476). -/
def Raised (d : Dev) (page src : Nat) : Prop := bitOf (d.reg (R.PG_EVT_RAW page)) (evtBit page src) = true

/-- The firing that a slot's action word asks for at the present tick (R72). -/
def Dev.firingOf (d : Dev) (n : Nat) : Firing :=
  { slot := n, f := d.gtc + 8, action := d.get (R.SLOT_ACT n) F.SLOT_ACT_ACTION, target := d.get (R.SLOT_ACT n) F.SLOT_ACT_TARGET,
    span := d.get (R.SLOT_ACT n) F.SLOT_ACT_SPAN, param := d.get (R.SLOT_ACT n) F.SLOT_ACT_PARAM }

/-- A slot has fired (R72): FIRED and SKIPPED, ARMED where it re-arms, its action on the way to the effect tick eight ticks on; nothing
else has changed. -/
def Fires (d e : Dev) (n : Nat) (skipped : Bool) : Prop :=
  let a := R.SLOT_TRIG n
  let stay := d.flag a F.SLOT_TRIG_REARM && d.get a F.SLOT_TRIG_TYPE != 0
  Frame { d with slot := e.slot, firings := e.firings } e [a, R.TL_LAST_SKIP] ∧ (∀ j, j ≠ n → e.slotS j = d.slotS j) ∧
    e.flag a F.SLOT_TRIG_FIRED = true ∧ e.flag a F.SLOT_TRIG_SKIPPED = skipped ∧
    e.flag a F.SLOT_TRIG_ARMED = (d.flag a F.SLOT_TRIG_ARMED && stay) ∧ (e.slotS n).decAt = d.gtc + 1 ∧
    e.firings = (if (d.firingOf n).action = 0 then d.firings else firingInsert d.firings (d.firingOf n)) ∧
    (skipped = true → e.get R.TL_LAST_SKIP F.TL_LAST_SKIP_SLOT = n ∧ Raised e Pg.TL Ev.SLOT_SKIPPED) ∧
    (skipped = false → e.reg R.TL_LAST_SKIP = d.reg R.TL_LAST_SKIP)

/-- A slot armed at the present tick with an argument (R79). -/
def Dev.armedWith (d : Dev) (n arg : Nat) : SlotSt :=
  { armTick := d.gtc, nextF := d.gtc + max arg 16, decAt := (d.slotS n).decAt }

/-- A sample of a source at a timestamp has reached the accumulators (R117 to R119): the open window of each that takes it has one more
member, the others stand. -/
def SampleTaken (d e : Dev) (sdd : Bool) (src : Nat) (x : Int) (ts : Nat) (marked : Bool) : Prop :=
  ∀ a,
    let takes := d.accOn a && d.flag (R.ACC_CFG a) F.ACC_CFG_SRC_KIND == sdd && d.get (R.ACC_CFG a) F.ACC_CFG_SRC == src
      && (!marked || d.flag (R.ACC_CFG a) F.ACC_CFG_OW_ACC)
    (takes = false → e.accS a = d.accS a) ∧
    ∀ w : WinSt, takes = true → (d.accS a).pend = none → (d.accS a).cur = some w → w.fOpen ≤ ts →
      e.accS a = { d.accS a with cur := some (d.accAdd a w (d.accD a x).1 (d.accD a x).2 ts) }

/-- What the limits of the trackers change: MMX_STAT and MMX_FLAG. -/
def mmxRegs (m : Member) : List Nat :=
  (List.range (nMmx m)).map R.MMX_STAT ++ (List.range 2).flatMap fun p => [R.MMX_FLAG p 0, R.MMX_FLAG p 1]

/-- No context holds a speculation (R220). -/
def Dev.NoSpec (d : Dev) : Prop := ∀ c, (d.ctxS c).spec = none

/-- Registers that a commit of an accumulator's window writes: its own, its page's flags, and those of the trackers (R125 to R135). -/
def accRegs (m : Member) (a : Nat) : List Nat :=
  [R.ACC_RES0 a, R.ACC_RES1 a, R.ACC_CNT a, R.ACC_STAT a, R.ACC_FLAG (a / 64) (a % 64 / 32), R.TL_ZS_INFO]
    ++ (List.range (nMmx m)).flatMap fun t => [R.MMX_MIN t, R.MMX_MAX t, R.MMX_STAT t]

/-- Legs of a group have been released; the cause is that of a leg which was not released before (R309). -/
def Released (d e : Dev) (g mask cause : Nat) : Prop :=
  ∀ x, x < 3 → mask / 2 ^ x % 2 = 1 →
    e.legReleased g x = true ∧ (d.legReleased g x = false → e.get (gdLstat g) (F.GDT_LSTAT_CAUSE x) = cause)

/-- A comparator has acted on a trip of its upper side, its lower side or both (R151, R152, R155): latched, counted, its side noted; a
PROTECT comparator has released the legs it routes to, a LIMIT comparator forces switches of the lowest group off until the next period.
-/
def CmpActed (d e : Dev) (c : Nat) (upper lower : Bool) : Prop :=
  let a := R.CMP_STAT c
  let r := d.reg (R.CMP_ROUTE c)
  let sw := d.get (R.CMP_ROUTE c) F.CMP_ROUTE_SW_SEL
  e.flag a F.CMP_STAT_LATCHED = true ∧ e.flag a F.CMP_STAT_LAST_LO = !upper ∧
    e.get a F.CMP_STAT_TRIP_CNT = min (d.get a F.CMP_STAT_TRIP_CNT + 1) (2 ^ fieldWidth F.CMP_STAT_TRIP_CNT - 1) ∧
    (d.cmpProtect c = true → Raised e (Pg.CMP (c / 36)) Ev.CMP_PROTECT ∧
      ∀ g, g < 20 → bitOf r g = true → Released d e g (r.toNat / 2 ^ 24 % 8) 3) ∧
    (d.cmpProtect c = false → (e.cmpS c).limited = true ∧
      ((d.cmpS c).limited = false → Raised e (Pg.CMP (c / 36)) Ev.CMP_LIMIT) ∧
      ∀ g x, d.cmpLowest c = some g → x < 3 → bitOf r (24 + x) = true →
        (sw = 0 ∨ sw = 2 ∨ (sw = 3 ∧ upper = true) → (e.legS g x).limH = true) ∧
        (sw = 1 ∨ sw = 2 ∨ (sw = 3 ∧ lower = true) → (e.legS g x).limL = true))

/-- A comparator has taken its sides for a voltage (R140): its output follows them, and a side that turns tripped without being blanked
acts. -/
def Decided (d e : Dev) (c : Nat) (uv : Int) : Prop :=
  let q := d.cmpS c
  let x := d.cmpSides c uv
  (∀ j, j ≠ c → e.cmpS j = d.cmpS j) ∧ (e.cmpS c).hiTrip = x.1 ∧ (e.cmpS c).loTrip = x.2 ∧
    e.flag (R.CMP_STAT c) F.CMP_STAT_OUT = (d.cmpStarting c || x.1 || x.2) ∧
    let hi := x.1 && !q.hiTrip
    let lo := x.2 && !q.loTrip
    if (hi || lo) = true ∧ d.cmpBlanked c = false then CmpActed d e c hi lo
    else Frame { d with cmp := e.cmp } e [R.CMP_STAT c] ∧
      e.flag (R.CMP_STAT c) F.CMP_STAT_LATCHED = d.flag (R.CMP_STAT c) F.CMP_STAT_LATCHED

/-- The blanking of a comparator has ended (R146 to R148); an output still tripped acts as a fresh trip. -/
def Unblanked (d e : Dev) (c : Nat) : Prop :=
  let q := d.cmpS c
  (∀ j, j ≠ c → e.cmpS j = d.cmpS j) ∧ (e.cmpS c).blankFrom = none ∧ (e.cmpS c).capped = false ∧
    e.flag (R.CMP_STAT c) F.CMP_STAT_BLANKED = false ∧
    if d.flag (R.CMP_STAT c) F.CMP_STAT_BLANKED = true ∧ (q.hiTrip || q.loTrip) = true ∧ d.cmpStarting c = false then
      CmpActed d e c q.hiTrip q.loTrip
    else Frame { d with cmp := e.cmp } e [R.CMP_STAT c]

/-- A comparator has started (R144): the tripped level, STARTING, the count of its start afresh. -/
def Started (d e : Dev) (c : Nat) : Prop :=
  (e.cmpS c).on = true ∧ (e.cmpS c).hiTrip = false ∧ (e.cmpS c).loTrip = false ∧ (e.cmpS c).startAt = d.gtc ∧
    (e.cmpS c).relCnt = 0 ∧ e.cmpStarting c = true ∧ e.flag (R.CMP_STAT c) F.CMP_STAT_OUT = true

/-- Registers that updates of tracks write (R61 to R68). -/
def trkRegs : List Nat := (List.range nTracks).map R.TRK_STAT ++ [R.TL_TRK_FLAG, R.TL_ZS_INFO]

/-- Registers that the decoder of an interface writes, and those of a shadow (R164 to R182, R186). -/
def posRegs (n : Nat) : List Nat :=
  [R.POS_STAT n, R.POS_ANG n, R.POS_SPD n, R.POS_TURNS n, R.POS_COUNT n, R.POS_ERRCNT n, R.POS_IDX_LATCH n, R.POS_IDX_DEV n,
    R.POS_IDX_EXP n, R.POS_IDX_CTRL n]
def shdRegs (n : Nat) : List Nat := [R.SHD_STAT n, R.SHD_ANG n, R.SHD_SPD n]

/-- What updates of an interface's decoder may change besides the registers: decoders, tracks, the tick of ZERO_SLACK. -/
def Dev.posPart (d e : Dev) : Dev := { d with pos := e.pos, trk := e.trk, sync := e.sync }

/-- An interface has delivered an angle and a speed (R162): its registers show them, every track that names it has the update under way,
or applied where its tick has come, and the other tracks stand. -/
def Delivered (d e : Dev) (n m : Nat) (v : Option Int) (ts ta : Nat) : Prop :=
  e.get (R.POS_ANG n) F.POS_ANG_ANG = m % 2 ^ 20 ∧ (∀ x, v = some x → e.reg (R.POS_SPD n) = wordOfInt (fitSpd x)) ∧
    ∀ k, k < nTracks →
      (d.trkSrc k ≠ n + 1 → e.trkS k = d.trkS k) ∧
      (d.trkSrc k = n + 1 → d.gtc < ta → ∃ u : Upd, u.ts = ts ∧ u.ta = ta ∧ e.trkS k = { d.trkS k with upds := (d.trkS k).upds ++ [u] }) ∧
      (d.trkSrc k = n + 1 → ta ≤ d.gtc → d.frozen Pg.TRK = false → (e.trkS k).base = d.gtc ∧ e.flag (R.TRK_STAT k) F.TRK_STAT_STALE = false)

/-- A serial word has been judged by its interface (R174 to R177): a good one is delivered and kept for the speed, a bad one counted. -/
def WordJudged (d e : Dev) (n word ts : Nat) (good : Bool) : Prop :=
  let st := R.POS_STAT n
  let x := fmtFields (d.posFmt n) word
  let m := (x.1 + d.posOfs n) % 2 ^ 20
  Frame (d.posPart e) e (posRegs n ++ (List.range 12).flatMap shdRegs ++ trkRegs) ∧ (∀ j, j ≠ n → j < 16 → e.posS j = d.posS j) ∧
    (e.posS n).frame = none ∧ e.flag st F.POS_STAT_BUSY = false ∧ e.flag st F.POS_STAT_VALID = good ∧
    if good then
      (e.posS n).words = ((ts, m) :: (d.posS n).words).take 256 ∧ e.reg (R.POS_TURNS n) = BitVec.ofNat 32 x.2 ∧
        Delivered d e n m (wordSpd m ts (d.posSpdM n) (d.posS n).words) ts d.gtc
    else Raised e (Pg.POS n) Ev.WORD_ERR ∧ (e.posS n).words = (d.posS n).words ∧ e.reg (R.POS_ANG n) = d.reg (R.POS_ANG n) ∧
      ∀ k, e.trkS k = d.trkS k

/-- From one device to another nothing has changed but by the delivery of events, records and messages, and in the registers of a list of
pages. -/
def FrameP (d e : Dev) (pages : List Nat) : Prop :=
  e.calm = d.calm ∧ ∀ a, eventReg a = false → pageOf a ∉ pages → e.reg a = d.reg a

/-- A counter has gone up by one, or stands at its largest value. -/
def Counted (d e : Dev) (a : Nat) (f : RField) : Prop := e.get a f = min (d.get a f + 1) (2 ^ fieldWidth f - 1)

/-- Registers that the commit of a pass of a context writes: its own, its engine's, those of its targets (R205, R206, R229, R230). -/
def passRegs (c eng : Nat) : List Nat :=
  (List.range 12).map (R.CTX_OUT c) ++ (List.range 6).map (R.CTX_OMAP c) ++ (List.range 60).map (R.CTX_POOL c) ++
    [R.CTX_SAT c, R.CTX_STAT c, R.CTX_LAST c, R.CTX_RUNS c, R.CTX_SPEC c, R.LE_STAT eng, R.LEC_FLAG (c / 32)] ++
    (List.range 20).flatMap (fun g => [R.PWT_STAT g, R.PWT_CNT g, R.PWT_CARRY g 0, R.PWT_CARRY g 1, R.PWT_CARRY g 2,
      R.PWT_ACT g 0, R.PWT_ACT g 1, R.PWT_ACT g 2]) ++ trkRegs

/-- Words of a context's record and speculation area have been written anew: its errors are those it had, but for those words (R211). -/
def Mended (q p : CtxSt) (written : Nat → Prop) : Prop :=
  (∀ w, w ∈ p.bad ↔ w ∈ q.bad ∧ ¬written w) ∧ ∀ w, w ∈ p.soft ↔ w ∈ q.soft ∧ ¬written w

/-- The words that a commit of a result writes: status, OUT words, state words. -/
def PassSt.writes (r : PassSt) (w : Nat) : Prop := (12 ≤ w ∧ w < 16) ∨ (40 ≤ w ∧ w < 52) ∨ ∃ x ∈ r.state, 52 + x.1 = w

/-- A context has committed a result (R203, R205, R213): OUT words, exponents, saturated stages, SEQ, the tick of the snapshot. -/
def Committed (d e : Dev) (c : Nat) (tr : Nat) (stale : Bool) (r : PassSt) : Prop :=
  (∀ j, j < 12 → e.reg (R.CTX_OUT c j) = (nthD (0, 0) r.outs j).1 ∧
    e.get (R.CTX_OMAP c (j / 2)) (if j % 2 = 1 then F.CTX_OMAP_EXP_H else F.CTX_OMAP_EXP_L) = (nthD (0, 0) r.outs j).2 % 64) ∧
  e.get (R.CTX_SAT c) F.CTX_SAT_LAST = r.sat ∧ e.flag (R.CTX_STAT c) F.CTX_STAT_STALE_IN = stale ∧
  e.reg (R.CTX_LAST c) = BitVec.ofNat 32 tr ∧
  e.get (R.CTX_RUNS c) F.CTX_RUNS_SEQ = (d.get (R.CTX_RUNS c) F.CTX_RUNS_SEQ + 1) % 65536 ∧
  (r.sat ≠ 0 → Raised e Pg.LEC Ev.CTX_SAT)

/-- What a result of a pass may name: words of the pool, stages (R204, R205). -/
def PassSt.wf (r : PassSt) : Prop := (∀ w ∈ r.state, w.1 < 60) ∧ r.sat < 2 ^ 12

/-- Registers that the stop of a group writes (R273). -/
def stopRegs (g : Nat) : List Nat :=
  [R.PG_CTRL (Pg.PWT g), R.PWT_STAT g, R.PWT_CARRY g 0, R.PWT_CARRY g 1, R.PWT_CARRY g 2, gdLstat g]

/-- Registers that releases in a group and the group's action write (R309, R310). -/
def relRegs (g : Nat) : List Nat :=
  [R.GDT_FLAG, R.GDA_FLAG] ++ [g, g + 1, g - 1].flatMap fun h =>
    [gdLstat h, if h < 12 then R.GDT_CNT h else R.GDA_CNT (h - 12)]

/-- A group has been stopped (R273): nothing in its shadow, no load point to come, no carry, no forced state; every switch is off from 4
ticks on. -/
def GroupStopped (d e : Dev) (g : Nat) : Prop :=
  e.pageEn (Pg.PWT g) = false ∧ e.pwmRun g = false ∧ (e.grpS g).load = none ∧ (e.grpS g).vec = none ∧ (e.grpS g).nextVec = none ∧
  (e.grpS g).offAt = some (d.gtc + 4) ∧
  ∀ x, x < 3 → e.carry g x = 0 ∧ (e.legS g x).force = 0 ∧
    (∀ hi, upAfter (e.grpS g).edges ((d.legS g x).lv hi) x hi = false) ∧
    ∀ y ∈ (e.grpS g).edges, y.leg = x → y.t ≤ 64 * ((d.gtc + 4 : Nat) : Int)

/-- Pages that Garmal writes for a machine, and those of the events (R324, R331, R336). -/
def machPages (d : Dev) (m : Nat) : List Nat :=
  [Pg.PWT m, Pg.PWT (m + 1), Pg.GDT, Pg.GDA, Pg.LEC, Pg.SAFE, Pg.SYS] ++
    [d.mMain m, d.mSpd m, d.mCatch m].map fun c => Pg.CTX (c / 8)

/-- A machine of Channel P has done something (R331 to R345): its record, its groups and contexts and their registers, the count of absent
units, its continuation in SAFE_HOLD; other machines stand. -/
def MachOnly (d e : Dev) (m : Nat) : Prop :=
  FrameP { d with mach := e.mach, grp := e.grp, ctx := e.ctx, free := e.free, sys := { d.sys with abs := e.sys.abs },
                  safe := { d.safe with keep := e.safe.keep } } e (machPages d m) ∧
    ∀ j, j ≠ m → e.machS j = d.machS j

/-- A machine has entered a state for a cause (R332). -/
def Entered (d e : Dev) (m st cause : Nat) : Prop :=
  e.mState m = st ∧ e.mStat m F.MD_CAUSE = cause ∧ (e.machS m).target = none ∧ (e.machS m).since = d.gtc ∧ Raised e Pg.SAFE Ev.MACH_STATE

/-- Channel P's enables of a machine's groups are low (R331). -/
def EnablesLow (d e : Dev) (m : Nat) : Prop := ∀ g ∈ d.mGroups m, groupPresent d.member g = true → e.genP g = false

/-- Registers that Channel M's safety functions write: their status, the entries', the enables (R355, R386, R387). -/
def safeRegs : List Nat :=
  [R.SAFE_STAT, R.SAFE_TRIP, R.SAFE_GRANT, R.SAFE_REQ_STO, R.SAFE_REQ_SS1, R.SAFE_ACK, R.SAFE_OUT, R.SAFE_FLAG, R.PG_STAT Pg.SAFE, R.GDA_STAT]
    ++ (List.range 20).flatMap (fun m => [R.TM_STAT m, R.TM_CNT m]) ++ (List.range 12).map R.GDT_PINS

/-- What they change besides. -/
def Dev.safePart (d e : Dev) : Dev := { d with grp := e.grp, tm := e.tm, safe := e.safe }

/-- An entry of Channel M has its STO latched (R362, R364): the first cause, no grant. -/
def Latched (d e : Dev) (m cause : Nat) : Prop :=
  e.tripped m = true ∧ e.granted m = false ∧ (e.tmS m).ss1 = none ∧
  e.get (R.TM_STAT m) F.TM_STAT_CAUSE =
    (if d.get (R.TM_STAT m) F.TM_STAT_CAUSE = 0 then cause else d.get (R.TM_STAT m) F.TM_STAT_CAUSE)

/-- The owner of a shared window has changed (R420): OWNER, PREV and GEN. -/
def WinNow (d e : Dev) (w o : Nat) : Prop :=
  e.winOwner w = o ∧ e.get (R.WIN_OWN w) F.WIN_OWN_PREV = d.winOwner w ∧
    e.get (R.WIN_OWN w) F.WIN_OWN_GEN = (d.get (R.WIN_OWN w) F.WIN_OWN_GEN + 1) % 65536

/-- Channels but one stand. -/
def MbxElse (d e : Dev) (c : Nat) : Prop := ∀ j, j ≠ c → e.mbxS j = d.mbxS j

/-- Sources of the rings but one stand. -/
def SrcElse (d e : Dev) (s : Nat) : Prop := ∀ j, j ≠ s → e.srcS j = d.srcS j

/-- A frame of the rings is newer than the last accepted one of its source (R397). -/
def Dev.newer (d : Dev) (ws : List Word) : Prop :=
  ∀ p, (d.srcS (fwSrc ws)).last = some p → 0 < sext 32 (wrapN 32 (((fw ws 1).toNat : Int) - p))

/-- A frame has been accepted (R396, R400, R407): its sequence number and time, its words, in the current epoch its source's requests. -/
def FrameTaken (d e : Dev) (ws : List Word) : Prop :=
  let s := fwSrc ws
  (e.srcS s).last = some (fw ws 1).toNat ∧ (e.srcS s).accAt = d.gtc + 1 ∧
  (∀ k, k < 16 → e.reg (R.SFX_FRAME s k) = fw ws k) ∧
  (d.epoch ≠ 0 → fwEpoch ws = d.epoch → d.lost s = false → (e.srcS s).inEpoch = true ∧
    bitOf (e.reg R.SFX_RX_REQ) s = bitOf (fw ws 6) d.rsNode ∧
    bitOf (e.reg R.SFX_RX_REQ) (16 + s) = bitOf (fw ws 6) (16 + d.rsNode))

/-- A supervisor has carried out a command and answers it with a status and arguments (R424 to R426); the memories stand. -/
def Responds (o : Host.Outcome State Fault Refusal) (s : State) (ch : Nat) (h : Word) (st : Nat) (args : Dev → List Word) (P : Dev → Prop) :
    Prop :=
  ∃ e, o = .next (s.withDev (e.respond ch h st (args e))) ∧ P e

/-- A message of a code that its supervisor serves waits on a channel (R424, R425). -/
def Dev.asks (d : Dev) (ch code : Nat) (h : Word) : Prop :=
  d.garHead ch = some h ∧ servedMsg ch h = true ∧ h.toNat / 2 ^ 24 = code

/-- A row of the tables of R427 and R429: a command's code, the command on a channel, the arguments whose number is right, the device states
in which it is served. -/
structure GarRow where
  code : Nat
  cmd : Nat → Instr
  len : List Word → Prop
  states : Nat → Prop

/-- The rows of both tables; DEV_STATE and RING_REJOIN decide by the device state themselves (R428, R403). -/
def garTable : List GarRow :=
  let any := fun (_ : Nat) => True
  let from0 := fun (n st : Nat) => n ≤ st
  let one := fun (l : List Word) => l.length = 1
  let two := fun (l : List Word) => l.length = 2
  let count := fun (l : List Word) => ∃ a r, l = a :: r ∧
    let n := a.toNat / 2 ^ 12 % 8
    n = 0 ∨ n = 7 ∨ r.length = n
  let mask := fun (l : List Word) => ∃ a r, l = a :: r ∧ r.length = ((List.range 4).filter fun k => bitOf a (12 + k)).length
  let readyRun := fun (st : Nat) => st = DS.READY ∨ st = DS.RUN
  [⟨0x01, .nop, fun _ => True, any⟩, ⟨0x02, .version, fun l => l = [], any⟩, ⟨0x03, .devState, one, any⟩, ⟨0x04, .notify, one, any⟩,
    ⟨0x10, .machDefine, count, fun st => st = DS.CONFIGURE⟩, ⟨0x11, .machClaim, count, fun st => st = DS.CONFIGURE⟩,
    ⟨0x12, .cfgWrite, fun l => l ≠ [] ∧ l.length % 2 = 0, fun st => DS.CONFIGURE ≤ st ∧ st ≤ DS.RUN⟩,
    ⟨0x20, .machStart, one, fun st => st = DS.RUN⟩, ⟨0x21, .machCmd, mask, readyRun⟩, ⟨0x22, .machStop, one, fun st => st = DS.RUN⟩,
    ⟨0x23, .machSto, one, from0 DS.READY⟩, ⟨0x24, .machDischarge, one, readyRun⟩, ⟨0x25, .machClear, one, readyRun⟩,
    ⟨0x26, .machStatus, one, from0 DS.CONFIGURE⟩,
    ⟨0x30, .spbWrite, two, fun st => st = DS.CONFIGURE ∨ st = DS.COMMISSION ∨ st = DS.READY⟩, ⟨0x31, .ringRejoin, fun l => l = [], any⟩,
    ⟨0x32, .brakeP, one, from0 DS.READY⟩, ⟨0x40, .safeAck, one, fun st => st = DS.READY ∨ st = DS.RUN ∨ st = DS.OVERCAST⟩,
    ⟨0x41, .safeSto, two, from0 DS.COMMISSION⟩, ⟨0x42, .safeSs1, two, fun st => st = DS.RUN ∨ st = DS.OVERCAST⟩,
    ⟨0x43, .outM, one, from0 DS.READY⟩, ⟨0x44, .ringReq, two, from0 DS.READY⟩]

/-- The device with the waiting message of a channel taken. -/
def Dev.asked (d : Dev) (ch : Nat) (h : Word) : Dev := d.garTake ch ((d.garArgs ch h).length + 1)

/-- A machine with a descriptor that commands may name (R324). -/
def Dev.machUsable (d : Dev) (m : Nat) : Prop := d.mDefined m = true ∧ groupPresent d.member m = true ∧ d.primOf m = none

/-- What keeps a unit from being claimed for S0: another master holds it. -/
def Dev.heldOther (d : Dev) (u : Nat × Nat) : Bool :=
  kindPresent d.member u.1 u.2 && d.holder (kindOwn u.1 u.2) != 0xF && d.holder (kindOwn u.1 u.2) != 0

/-- Units are claimed for S0 and belong to a machine (R326). -/
def Claimed (e : Dev) (m : Nat) (us : List (Nat × Nat)) : Prop :=
  ∀ u ∈ us, e.holder (kindOwn u.1 u.2) = 0 ∧ u ∈ (e.machS m).units

/-- Every unit of a list is present and can be claimed for S0 in turn. -/
def Dev.claimable (d : Dev) (us : List (Nat × Nat)) : Prop :=
  (∀ u ∈ us, kindPresent d.member u.1 u.2 = true ∧ d.heldOther u = false) ∧
    ∀ u ∈ us, (us.foldl (fun (x : Dev) (u : Nat × Nat) => x.claimUnit (kindOwn u.1 u.2)) d).holder (kindOwn u.1 u.2) = 0

/-- An outcome that is a next state in which the device and the recorder's ring have changed. -/
def RingNext (o : Host.Outcome State Fault Refusal) (s : State) (P : State → Prop) : Prop :=
  ∃ t, o = .next t ∧ t = { s with dev := t.dev, mems := { s.mems with chip := t.mems.chip, ddr := t.mems.ddr } } ∧ P t

/-- The block being filled has reached the ring (R453, R456). -/
def Stored (s t : State) (b : List RecRec) : Prop :=
  t.ringBlock s.dev.recWseq = blockWords s.dev.recWseq b ∧ t.dev.recWseq = (s.dev.recWseq + 1) % 2 ^ 32

/-- Every record that waits fits into the block being filled, and there is one. -/
def Dev.oneBlock (d : Dev) : Prop := d.hamper.fifo ≠ [] ∧ (nextBlock d.hamper.fifo).2 = []

/-- The device is frozen in FATAL for a cause (R36, R467, R480): every output released, the bypass switches closed, the dump begun; PREV
is the state it was in, but where another transition fell into the same tick (R53). -/
def Fatal (d e : Dev) (page src : Nat) : Prop :=
  e.devState = DS.FATAL ∧ (d.trans.at1 ≠ d.now + 1 → e.get R.SYS_STATE F.SYS_STATE_PREV = d.devState) ∧ Raised e page src ∧
  (∀ g, g < 20 → groupPresent d.member g = true → e.genP g = false ∧ e.genM g = false ∧ ∀ x, x < 3 → e.legReleased g x = true) ∧
  e.inserted false = false ∧ e.inserted true = false ∧
  e.sys.dump = 1 ∧ e.get R.DMP_STAT F.DMP_STAT_CAUSE = src ∧ e.get R.DMP_STAT F.DMP_STAT_NCAUSE = 1

/-- States in which a cause of SAFE_HOLD takes the device there (R374). -/
def Dev.holds1 (d : Dev) : Prop :=
  d.devState ≠ DS.RESET ∧ d.devState ≠ DS.BOOT ∧ d.devState ≠ DS.FATAL ∧ d.devState ≠ DS.SAFE_HOLD

/-- The device is in SAFE_HOLD for a cause (R374). -/
def Held (e : Dev) (cause : Nat) : Prop :=
  e.devState = DS.SAFE_HOLD ∧ e.flag R.SAFE_HOLD_INFO F.SAFE_HOLD_INFO_HOLD = true ∧
    e.get R.SAFE_HOLD_INFO F.SAFE_HOLD_INFO_CAUSE = cause ∧ Raised e Pg.SAFE Ev.SAFE_HOLD

/-- A channel's enables are low at every group (R38). -/
def ChanLow (d e : Dev) (ch : Channel) : Prop :=
  ∀ g, g < 20 → groupPresent d.member g = true → match ch with
    | .p => e.genP g = false
    | .m => e.genM g = false

/-- A device after a device reset (R483, R484): every register but RST_CAUSE at its reset value, the timebase from zero. -/
def Cleared (d e : Dev) (cause : Nat) (warm : Bool) : Prop :=
  e.devState = DS.RESET ∧ e.gtc = 0 ∧ e.member = d.member ∧ e.nv = d.nv ∧
    (∀ a, a ≠ R.RST_CAUSE → e.reg a = resetWord d.member a) ∧
    e.flag R.RST_CAUSE F.RST_CAUSE_WARM = warm ∧ (e.reg R.RST_CAUSE).toNat % 32 = cause % 32

/-- The memories after a warm reset (R471, R484): the windows are empty, everything else is kept. -/
def Mems.warm (m : Mems) : Mems := { m with win := [] }

end Sys2Proof.Machine
end

