-- ==== Sys2Proof/Certificates/Slice0/Obligations.lean ====
section
/-! DEFINITION. What the provers are asked to prove of the model, chapter by chapter. `DevNext o s P` says that `o` is the next state in
which memories and waiting commands stand and the device has property `P`; `Quiet d e` that `e` is `d` but for the delivery of events,
records and messages. -/

open Sys2Proof Sys2Proof.Machine

/-! ### The whole block -/

/-- The queue, the model's own (log entry 7, DESIGN CHOICE): a step with a command in front runs that command on the state with the
queue's rest. -/
def Obligations.StepRunsFront : Prop :=
  ∀ (s : State) (c : Instr) (r : List Instr), s.pending = c :: r → step s = exec c { s with pending := r }

/-- R55 and log entry 5 (the model's choice of what an empty queue brings): a step on an empty queue advances GTC by one out of reset,
outside a replay, and leaves memories and queue; in RESET it leaves the state. -/
def Obligations.EmptyQueueTicks : Prop :=
  (∀ s : State, s.pending = [] → s.Live → DevNext (step s) s fun e => e.gtc = s.dev.gtc + 1 ∧ e.member = s.dev.member) ∧
  ∀ s : State, s.pending = [] → ¬s.Up → step s = .next s

/-- No command changes the queue of the commands that wait. Every command completes in every state but a bus access outside the register
space and the windows, which stops with unmappedAddress; and every such access does. R50: in RESET a command either leaves the state, or
is one of the supplies, of reset and of start-up, or stops off the map. The model's reading where the rules leave one open: log entries 13
and 100. -/
def Obligations.ExecEnds : Prop :=
  (∀ (c : Instr) (s t : State), exec c s = .next t → t.pending = s.pending) ∧
  (∀ (c : Instr) (s : State),
     (∃ t, exec c s = .next t) ∨
     (exec c s = .fault .unmappedAddress ∧ ∃ a, inRegs a = false ∧ inWins a = false ∧
       ((∃ m w v, c = .registerWrite m a w v) ∨ (∃ m w, c = .lowWordRead m ⟨a, w⟩)))
     ∨ (exec c s = .fault .unmappedAddress ∧ ∃ m a bs, inWins a = false ∧ c = .winDataWrite m a bs)) ∧
  (∀ (s : State) (m a w : Nat), inWins a = false →
     (∀ v, inRegs a = false → exec (.registerWrite m a w v) s = .fault .unmappedAddress) ∧
     (inRegs a = false → exec (.lowWordRead m ⟨a, w⟩) s = .fault .unmappedAddress) ∧
     ∀ bs, exec (.winDataWrite m a bs) s = .fault .unmappedAddress) ∧
  (∀ (c : Instr) (s : State), ¬s.Up →
     exec c s = .next s ∨ exec c s = .fault .unmappedAddress ∨ (∃ r, c = .lateRailArrival r) ∨
     c ∈ [.powerOnReset, .supplyReset, .resetPin, .resetRelease, .pllLocked])

/-- The memories of the machine after reset are canonical: the model's own form of sparse data (log entry 4, DESIGN CHOICE). -/
def Obligations.ResetHoldsInv : Prop := State.reset.Inv

/-- Every step keeps the canonical form of every memory, the model's own (log entry 4, DESIGN CHOICE), so that equal contents are equal
data. -/
def Obligations.StepKeepsInv : Prop :=
  ∀ s t : State, s.Inv → step s = .next t → t.Inv

/-! ### The bus: writes, claims, keys, reads -/

/-- R4 to R6, R9, R11, R12: a write to an absent unit, or to the register of an absent instance, changes the count of such writes alone:
COUNT, LAST_PAGE, ABSENT_WR; a read of one answers zero and is not counted. An unassigned page reads zero and a write to it leaves the
state. A write to a shared register that carries a non-zero value into bits of absent instances is counted, and its other bits take effect
as usual. A 1 written to ABSENT_WR clears the register, but for the writes to absent units of the same bus cycle, which stay counted. The
model's reading of the cycle: log entries 101 and 324. -/
def Obligations.AbsentUnits : Prop :=
  ∀ (s : State) (mid a : Nat), s.Live → inRegs a = true → a % 4 = 0 →
    let d := s.dev
    let cnt := R.SYS_ABSENT_CNT
    (pageInfo (pageOf a) = none →
      (∀ w, exec (.registerWrite mid a 4 w) s = .next s) ∧ exec (.lowWordRead mid ⟨a, 4⟩) s = .next (s.withDev (d.answer mid 0))) ∧
    (∀ (b : Block) (i : Nat), pageInfo (pageOf a) = some (b, i) →
      (blockPresent d.member b i = false ∨ absentReg d.member b i (offOf a) = true →
        (∀ w, DevNext (exec (.registerWrite mid a 4 w) s) s fun e =>
          Frame { d with sys := { d.sys with abs := e.sys.abs } } e [cnt] ∧ AbsentCounted d e mid (pageOf a)) ∧
        exec (.lowWordRead mid ⟨a, 4⟩) s = .next (s.withDev (d.answer mid 0))) ∧
      ∀ (rd : RegDef) (x y : Nat) (w : Word), blockPresent d.member b i = true → absentReg d.member b i (offOf a) = false →
        0x40 ≤ offOf a → regAt b (offOf a) = some (rd, x, y) → plainReg b i (offOf a) = true →
        w &&& absentBits d.member b i (offOf a) ≠ 0 →
        DevNext (exec (.registerWrite mid a 4 w) s) s fun e =>
          FieldsTaken d e mid b i a rd.flds (w &&& ~~~ absentBits d.member b i (offOf a)) [cnt] ∧ AbsentCounted d e mid (pageOf a)) ∧
    ∀ w : Word, a = cnt → bitOf w 31 = true → d.takenAt mid a = true →
      DevNext (exec (.registerWrite mid a 4 w) s) s fun e => Frame d e [cnt] ∧
        (d.sys.abs.cyc ≠ d.busCycle → e.reg cnt = 0) ∧
        (d.sys.abs.cyc = d.busCycle → e.get cnt F.SYS_ABSENT_CNT_COUNT = min d.sys.abs.n 0xFFFF ∧
          e.get cnt F.SYS_ABSENT_CNT_LAST_PAGE = d.get cnt F.SYS_ABSENT_CNT_LAST_PAGE ∧
          e.flag cnt F.SYS_ABSENT_CNT_ABSENT_WR = d.flag cnt F.SYS_ABSENT_CNT_ABSENT_WR)

/-- R23 to R25, R27, R408: a write of a register that only stores, by any master: every field takes its part by its access type where the
master may write it: RW and W1C with S0's rights and the ownership, RWC in CONFIGURE besides, RWM as S1 (the RWK registers have commands of their own); a
field that refuses stands; WR_DENIED shows a refused write; nothing else changes; a reserved offset takes nothing. R7, R26: a write of
PG_EVT_EN by a master that may write the page sets it, but for sources of absent units, and nothing else; a refused one sets WR_DENIED and
nothing else; R22: an access of another width or off alignment is ignored. The model's reading where the rules leave one open: log entry
8. -/
def Obligations.RegisterWrite : Prop :=
  (∀ (s : State) (mid a : Nat) (b : Block) (i : Nat) (w : Word), s.Live → inRegs a = true → a % 4 = 0 →
    pageInfo (pageOf a) = some (b, i) → blockPresent s.dev.member b i = true → absentReg s.dev.member b i (offOf a) = false →
    0x40 ≤ offOf a → plainReg b i (offOf a) = true →
    let d := s.dev
    let s0 := d.asS0 mid b = true ∧ d.ownOk mid (d.ownAt b i (pageOf a) (offOf a)) = true
    (regAt b (offOf a) = none → exec (.registerWrite mid a 4 w) s = .next s) ∧
    ∀ (rd : RegDef) (x y : Nat), regAt b (offOf a) = some (rd, x, y) → w &&& absentBits d.member b i (offOf a) = 0 →
      DevNext (exec (.registerWrite mid a 4 w) s) s fun e =>
        e.sys.abs = d.sys.abs ∧ FieldsTaken d e mid b i a rd.flds w [] ∧
        ∀ fd ∈ rd.flds, chanMOnly b (offOf a) fd.f = false →
          (s0 → fd.acc = .rw ∨ (fd.acc = .rwc ∧ d.inConfigure = true) → e.get a fd.f = getF w fd.f) ∧
          (s0 → fd.acc = .w1c → ∀ k, fd.f.lo ≤ k → k ≤ fd.f.hi → bitOf (e.reg a) k = (bitOf (d.reg a) k && !bitOf w k)) ∧
          (fd.acc = .rwm → e.get a fd.f = if mid = Mid.S1 then getF w fd.f else d.get a fd.f) ∧
          (fd.acc = .rwc → d.inConfigure = false → e.get a fd.f = d.get a fd.f)) ∧
  (∀ (s : State) (mid page : Nat) (b : Block) (i : Nat) (w : Word), s.Live → pageInfo page = some (b, i) →
    blockPresent s.dev.member b i = true →
    DevNext (exec (.registerWrite mid (R.PG_EVT_EN page) 4 w) s) s fun e =>
      Quiet (if s.dev.pageFieldOk mid b page then s.dev.setReg (R.PG_EVT_EN page) (w &&& ~~~ absentSources s.dev.member b)
        else s.dev.putB (R.PG_STAT page) F.PG_STAT_WR_DENIED true) e) ∧
  ∀ (s : State) (mid a width : Nat) (w : Word), inRegs a = true → width ≠ 4 ∨ a % 4 ≠ 0 →
    exec (.registerWrite mid a width w) s = .next s

/-- R514, R27: in CONFIGURE a master with the right claims an unowned page whose units no other master holds, and its owner releases it; a
page that another master holds stays, with WR_DENIED. R514: in CONFIGURE a claim of a free unit, whose page no other master holds, writes
OWNER and RESULT 1; one of a unit that another master holds writes RESULT 2; its owner's release writes OWNER 0xF and RESULT 0. The
model's reading where the rules leave one open: log entry 10. -/
def Obligations.Claims : Prop :=
  (∀ (s : State) (mid page : Nat) (b : Block) (i : Nat), s.Live → pageInfo page = some (b, i) →
     blockPresent s.dev.member b i = true → s.dev.inConfigure = true → s.dev.mayClaim mid b = true →
     (s.dev.pageOwner page = 0xF →
       (∀ c ∈ unitClaims s.dev.member b i, s.dev.get c F.CLAIM_OWNER = 0xF ∨ s.dev.get c F.CLAIM_OWNER = mid) →
       DevNext (exec (.pageClaim mid page) s) s fun e =>
         Quiet (s.dev.put (R.PG_CTRL page) F.PG_CTRL_OWNER_MID mid) e) ∧
     (s.dev.pageOwner page = mid →
       DevNext (exec (.pageRelease mid page) s) s fun e =>
         Quiet (s.dev.put (R.PG_CTRL page) F.PG_CTRL_OWNER_MID 0xF) e) ∧
     (s.dev.pageOwner page ≠ 0xF → s.dev.pageOwner page ≠ mid →
       DevNext (exec (.pageClaim mid page) s) s fun e =>
         Quiet (s.dev.putB (R.PG_STAT page) F.PG_STAT_WR_DENIED true) e)) ∧
  (∀ (s : State) (mid a : Nat) (b : Block) (i : Nat), s.Live → inRegs a = true → a % 4 = 0 →
     pageInfo (pageOf a) = some (b, i) → claimReg b (offOf a) = true → blockPresent s.dev.member b i = true →
     absentReg s.dev.member b i (offOf a) = false → s.dev.inConfigure = true → s.dev.mayClaim mid b = true →
     let owner := s.dev.get a F.CLAIM_OWNER
     let po := s.dev.pageOwner (claimPage b (pageOf a) (offOf a))
     (owner = 0xF → po = 0xF ∨ po = mid →
       exec (.unitClaim mid a) s = .next (s.withDev ((s.dev.put a F.CLAIM_OWNER mid).put a F.CLAIM_RESULT 1))) ∧
     (owner ≠ 0xF → owner ≠ mid →
       exec (.unitClaim mid a) s = .next (s.withDev (s.dev.put a F.CLAIM_RESULT 2))) ∧
     (owner = mid →
       exec (.unitRelease mid a) s = .next (s.withDev ((s.dev.put a F.CLAIM_OWNER 0xF).put a F.CLAIM_RESULT 0))))

/-- R29: the two key words of one master, the second within 64 cycles, open the page's key window for it and clear KEY_ERR; a word of zero
from its opener closes it; a sequence and a window that have lapsed are dropped. R476: a write of PG_EVT_CLR clears the raw bits it names
but for those raised in the same bus cycle; R481: the pulses of an EVT_OUT pin that have ended are dropped. Nothing else changes. The
model's reading where the rules leave one open: log entries 15 and 161. -/
def Obligations.KeysAndEventClears : Prop :=
  ((∀ (s : State) (mid page : Nat) (b : Block) (i : Nat), s.Live → pageInfo page = some (b, i) →
     blockPresent s.dev.member b i = true → s.dev.mayKey mid b = true →
     (s.dev.keyPend page = none → s.dev.keyOpener page = none →
       DevNext (exec (.keyFirstWord mid page) s) s fun e =>
         Quiet (s.dev.setKey page { s.dev.keyS page with pend := some (mid, s.dev.now) }) e ∧ e.keyPend page = some mid) ∧
     (s.dev.keyPend page = some mid →
       DevNext (exec (.keySecondWord mid page) s) s fun e =>
         Quiet ((s.dev.setKey page { pend := none, win := some (mid, s.dev.now) }).putB (R.PG_LOCK page) F.PG_LOCK_KEY_ERR false) e
           ∧ e.keyOpener page = some mid ∧ e.keyPend page = none) ∧
     (s.dev.keyPend page = none → s.dev.keyOpener page = some mid →
       DevNext (exec (.keyClose mid page) s) s fun e =>
         Quiet (s.dev.setKey page { s.dev.keyS page with win := none }) e ∧ e.keyOpener page = none)) ∧
   ∀ (s : State) (page m t : Nat), s.Up →
     ((s.dev.keyS page).pend = some (m, t) → t + 128 < s.dev.now →
       exec (.keySequenceExpiry page) s = .next (s.withDev (s.dev.setKey page { s.dev.keyS page with pend := none }))) ∧
     ((s.dev.keyS page).win = some (m, t) → t + 131072 ≤ s.dev.now →
       exec (.keyWindowExpiry page) s = .next (s.withDev (s.dev.setKey page { s.dev.keyS page with win := none })))) ∧
  ((∀ (s : State) (mid page : Nat) (b : Block) (i : Nat) (w : Word), s.Live → pageInfo page = some (b, i) →
     blockPresent s.dev.member b i = true → w &&& ~~~ s.dev.evtClrMask mid b page = 0 →
     (∀ r ∈ s.dev.evt.cyc, r.page = page → r.tick / 2 ≠ s.dev.now / 2) → engineInput b 0x18 = false →
     exec (.pgEvtClr mid page w) s = .next (s.withDev (s.dev.clrReg (R.PG_EVT_RAW page) w))) ∧
   ∀ (s : State) (pin : Nat), s.Up → spGet 0 s.dev.evt.outR pin ≤ s.dev.gtc → spGet 0 s.dev.evt.outS pin ≤ s.dev.gtc →
     exec (.evtOutPulseEnd pin) s = .next (s.withDev { s.dev with evt := { s.dev.evt with
       outR := spPut 0 s.dev.evt.outR pin 0, outS := spPut 0 s.dev.evt.outS pin 0 } }))

/-- R21, R22, R69, R127, R132: a read of a low word answers it and latches its companions for the reader in the same cycle; a read changes
nothing else; a later read of the high word answers what the latch holds; a register read of another width or alignment answers zero and
latches nothing. R186, R212, R387, R407: reads of a context's OUT0, of an interface's and a shadow's angle, of an entry's torque and of a
source's frame answer the word and latch their companions for the reader; they change nothing else; a failing OUT0 reads zero (R211). The model's reading where the rules
leave one open: log entries 13, 18 and 130. -/
def Obligations.LatchingReads : Prop :=
  (∀ (s : State) (mid : Nat), s.Up →
     DevNext (exec (.lowWordRead mid ⟨R.TL_GTC_LO, 4⟩) s) s (fun e => OnlyRead s.dev e ∧
       e.answered mid = BitVec.ofNat 32 s.dev.now ∧ e.latched mid R.TL_GTC_HI = some (BitVec.ofNat 32 (s.dev.now / 2 ^ 32))) ∧
     (∀ k, k < nTracks →
       DevNext (exec (.trkAngRead mid k) s) s (fun e => OnlyRead s.dev e ∧ e.answered mid = s.dev.trkAngWord k ∧
         e.latched mid (R.TRK_SPD k) = some (wordOfInt (s.dev.trkS k).spd) ∧
         e.latched mid (R.TRK_STAT k) = some (s.dev.trkStatWord k))) ∧
     (∀ k, k < nAcc s.dev.member →
       DevNext (exec (.accRes0Read mid k) s) s (fun e => OnlyRead s.dev e ∧ e.answered mid = s.dev.reg (R.ACC_RES0 k) ∧
         ∀ a ∈ [R.ACC_RES1 k, R.ACC_CNT k, R.ACC_STAT k], e.latched mid a = some (s.dev.reg a))) ∧
     (∀ k, k < nMmx s.dev.member →
       DevNext (exec (.mmxMinRead mid k) s) s (fun e => OnlyRead s.dev e ∧ e.answered mid = s.dev.reg (R.MMX_MIN k) ∧
         ∀ a ∈ [R.MMX_MAX k, R.MMX_STAT k], e.latched mid a = some (s.dev.reg a))) ∧
     DevNext (exec (.evtLastRead mid) s) s (fun e => OnlyRead s.dev e ∧ e.answered mid = s.dev.reg R.EVT_LAST ∧
       e.latched mid R.EVT_LAST_T = some (s.dev.reg R.EVT_LAST_T)) ∧
     (∀ w, s.dev.latched mid R.TL_GTC_HI = some w →
       DevNext (exec (.lowWordRead mid ⟨R.TL_GTC_HI, 4⟩) s) s fun e => OnlyRead s.dev e ∧ e.answered mid = w) ∧
     ∀ a n, inRegs a = true → n ≠ 4 ∨ a % 4 ≠ 0 →
       DevNext (exec (.lowWordRead mid ⟨a, n⟩) s) s fun e => e = s.dev.answer mid 0) ∧
  (∀ (s : State) (mid : Nat), s.Up →
     (∀ c, c < nCtx s.dev.member →
       ((∀ w ∈ (s.dev.ctxS c).bad ++ (s.dev.ctxS c).soft, w ≠ 40 ∧ out0Words w = false) →
         DevNext (exec (.ctxOut0Read mid c) s) s (fun e => OnlyRead s.dev e ∧ e.answered mid = s.dev.reg (R.CTX_OUT c 0) ∧
           ∀ a, ctxLatched c a = true → e.latched mid a = some (s.dev.reg a))) ∧
       ((s.dev.ctxS c).bad.contains 40 = true → DevNext (exec (.ctxOut0Read mid c) s) s fun e => e.answered mid = 0)) ∧
     (∀ n, n < nPos s.dev.member →
       DevNext (exec (.posAngRead mid n false) s) s (fun e => OnlyRead s.dev e ∧ e.answered mid = s.dev.reg (R.POS_ANG n) ∧
         ∀ a ∈ [R.POS_SPD n, R.POS_STAT n, R.POS_TURNS n], e.latched mid a = some (s.dev.reg a)) ∧
       DevNext (exec (.posAngRead mid n true) s) s (fun e => OnlyRead s.dev e ∧ e.answered mid = s.dev.reg (R.SHD_ANG n) ∧
         ∀ a ∈ [R.SHD_SPD n, R.SHD_STAT n], e.latched mid a = some (s.dev.reg a))) ∧
     (∀ m, m < 20 →
       DevNext (exec (.tmTqRead mid m) s) s (fun e => OnlyRead s.dev e ∧ e.answered mid = s.dev.reg (R.TM_TQ m) ∧
         ∀ a ∈ [R.TM_DEM m, R.TM_SPD m, R.TM_ANG m, R.TM_STAT m, R.TM_CNT m], e.latched mid a = some (s.dev.reg a))) ∧
     ∀ n, n < 16 →
       DevNext (exec (.sfxFrameRead mid n) s) s (fun e => OnlyRead s.dev e ∧ e.answered mid = s.dev.reg (R.SFX_FRAME n 0) ∧
         ∀ k < 16, e.latched mid (R.SFX_FRAME n k) = some (s.dev.reg (R.SFX_FRAME n k))))

/-! ### The timeline -/

/-- R56, R57, R86: the master in charge of the timebase sets the rate, held to ±200,000, and the vehicle-time offset, whose low word was
written before; any other write is refused with WR_DENIED. R57, R58: the first usable sync message sets the offset so that vehicle time is
the grandmaster's; the sixteenth message in a row within 100 ns sets LOCKED, with SYNC_LOCK; an error above 1,000 ns, and three intervals
without a message, lose the lock: HOLDOVER, SYNC_LOST where it did not stand; a message that is not usable (R439) leaves the state. The
model's reading where the rules leave one open: log entries 144, 291 and 341. -/
def Obligations.Synchronisation : Prop :=
  (∀ (s : State) (mid : Nat) (w : Word), s.Live →
     (s.dev.tlOk mid = true →
       exec (.tlRateWrite mid w) s = .next (s.withDev (s.dev.setReg R.TL_RATE (wordOfInt (clampI (-200000) 200000 w.toInt)))) ∧
       exec (.vtOfsHiWrite mid w) s = .next (s.withDev (s.dev.setVtOfs s.dev.sync.ofsLo w))) ∧
     (s.dev.tlOk mid = false →
       exec (.tlRateWrite mid w) s = .next (s.withDev (s.dev.deny Pg.TL)) ∧
       exec (.vtOfsHiWrite mid w) s = .next (s.withDev (s.dev.deny Pg.TL)))) ∧
  (∀ (s : State) (err vt logInterval : Int) (twoStep : Bool), s.Up → s.dev.frozen Pg.TL = false → s.dev.flag R.TL_CTRL F.TL_CTRL_SYNC_EN = true →
     -(2 ^ 63) ≤ vt - s.dev.gtc → vt - s.dev.gtc < 2 ^ 63 →
     let sync := exec (.syncMessage err ⟨vt, twoStep, logInterval⟩) s
     (s.dev.syncUsable twoStep logInterval = false → sync = .next s) ∧
     (s.dev.syncUsable twoStep logInterval = true → s.dev.sync.offWritten = false →
       DevNext sync s fun e =>
         e.vehicleTime = vt ∧ e.sync.offWritten = true ∧ e.gtc = s.dev.gtc ∧
         Frame { s.dev with sync := e.sync, free := e.free } e [R.TL_SYNC_STAT, R.TL_VT_OFS_LO, R.TL_VT_OFS_HI, R.TL_RATE]) ∧
     (s.dev.syncUsable twoStep logInterval = true → err.natAbs ≤ 100 → s.dev.sync.inRange = 15 →
       s.dev.flag R.TL_SYNC_STAT F.TL_SYNC_STAT_LOCKED = false →
       DevNext sync s fun e =>
         e.flag R.TL_SYNC_STAT F.TL_SYNC_STAT_LOCKED = true ∧ e.flag R.TL_SYNC_STAT F.TL_SYNC_STAT_HOLDOVER = false ∧
         Raised e Pg.TL Ev.SYNC_LOCK) ∧
     (s.dev.syncUsable twoStep logInterval = true → 1000 < err.natAbs →
       DevNext sync s fun e =>
         e.flag R.TL_SYNC_STAT F.TL_SYNC_STAT_HOLDOVER = true ∧ e.flag R.TL_SYNC_STAT F.TL_SYNC_STAT_LOCKED = false ∧
         e.reg R.TL_RATE = s.dev.reg R.TL_RATE ∧
         (s.dev.flag R.TL_SYNC_STAT F.TL_SYNC_STAT_HOLDOVER = false → Raised e Pg.TL Ev.SYNC_LOST)) ∧
     DevNext (exec .syncTimeout s) s fun e =>
       e.flag R.TL_SYNC_STAT F.TL_SYNC_STAT_HOLDOVER = true ∧ e.flag R.TL_SYNC_STAT F.TL_SYNC_STAT_LOCKED = false ∧
       e.reg R.TL_RATE = s.dev.reg R.TL_RATE ∧
       (s.dev.flag R.TL_SYNC_STAT F.TL_SYNC_STAT_HOLDOVER = false → Raised e Pg.TL Ev.SYNC_LOST))

/-! ### The angle tracks -/

/-- R59 to R65: an update whose tick has come sets the speed; an error beyond JUMP_LIM is taken as a jump with TRK_JUMP, any other stays
as the residual that is slewed; the status says what the update said; the other tracks stand. R67: a track with any source but FREE to
which no update has been applied for STALE ticks, and none is due, turns STALE and not VALID, with its flag and TRK_STALE (R84); before
that the command leaves the state. -/
def Obligations.TrackUpdates : Prop :=
  (∀ (s : State) (k : Nat) (u : Upd) (r : List Upd), s.Live → k < nTracks → (s.dev.trkS k).upds = u :: r → u.ta ≤ s.dev.gtc →
     s.dev.frozen Pg.TRK = false →
     let d := s.dev
     let v := u.v.getD (d.trkS k).spd
     let m := wrap40 (u.m + v * ((d.gtc : Int) - u.ts))
     let err := sext 40 (wrap40 ((m : Int) - (d.trkS k).ang))
     DevNext (exec (.trackUpdate k) s) s fun e =>
       Frame { d with trk := e.trk, sync := e.sync } e [R.TRK_STAT k, R.TL_TRK_FLAG, R.TL_ZS_INFO] ∧
       (∀ j, j ≠ k → e.trkS j = d.trkS j) ∧ (e.trkS k).spd = v ∧ (e.trkS k).upds = r ∧ (e.trkS k).base = d.gtc ∧
       (if d.jumpLim k * 2 ^ 20 < err.natAbs then
         (e.trkS k).ang = m ∧ (e.trkS k).res = 0 ∧ Raised e Pg.TL Ev.TRK_JUMP
       else (e.trkS k).ang = (d.trkS k).ang ∧ (e.trkS k).res = err) ∧
       e.flag (R.TRK_STAT k) F.TRK_STAT_VALID = u.valid ∧ e.flag (R.TRK_STAT k) F.TRK_STAT_UNCERT = u.unc ∧
       e.flag (R.TRK_STAT k) F.TRK_STAT_STALE = false ∧ e.flag (R.TRK_STAT k) F.TRK_STAT_STOPPED = (v == 0 || u.zero) ∧
       (v ≠ 0 → e.flag (R.TRK_STAT k) F.TRK_STAT_DIR = decide (v < 0))) ∧
  (∀ (s : State) (k : Nat), s.Live → k < nTracks →
     let d := s.dev
     let n := d.get (R.TRK_STALE k) F.TRK_STALE_STALE
     let a := R.TRK_STAT k
     (n ≠ 0 → d.trkSrc k ≠ srcFREE → d.frozen Pg.TRK = false → d.flag a F.TRK_STAT_STALE = false → (d.trkS k).base + n ≤ d.gtc →
       (∀ u ∈ (d.trkS k).upds, (d.trkS k).base + n < u.ta) →
       DevNext (exec (.trkStale k) s) s fun e =>
         Quiet (((d.putB a F.TRK_STAT_STALE true).putB a F.TRK_STAT_VALID false).orReg R.TL_TRK_FLAG (bitWord k)) e ∧
         Raised e Pg.TL Ev.TRK_STALE) ∧
     (d.gtc < (d.trkS k).base + n → exec (.trkStale k) s = .next s))

/-- R70: writes of a track's angle and speed. Source HOST: the speed is staged, the angle delivers an update at the present tick. FREE:
the angle is set, the speed is in force from the next tick. Any other source, or another master: WR_DENIED. R66, R67, R70: in CONFIGURE
the track's owner writes TRK_CFG whole; angle and speed stand, the residual, the staged words and the updates under way are dropped, the
stale count starts where the source delivers updates. The model's reading where the rules leave one open: log entry 141. -/
def Obligations.TrackWrites : Prop :=
  (∀ (s : State) (mid k : Nat) (w : Word), s.Live → k < nTracks →
     let d := s.dev
     let t := d.trkS k
     (d.trkWriteOk mid k = false →
       DevNext (exec (.trkAngWrite mid k w) s) s (Quiet (d.deny Pg.TRK)) ∧
       DevNext (exec (.trkSpdWrite mid k w) s) s (Quiet (d.deny Pg.TRK))) ∧
     (d.trkWriteOk mid k = true → d.trkSrc k = srcFREE →
       DevNext (exec (.trkAngWrite mid k w) s) s
         (let x := sext 40 (wrap40 ((angOfWord w : Int) - t.ang))
          Quiet (d.setTrk k { t with ang := angOfWord w, res := 0, jumpAt := d.gtc + 1, jump := x })) ∧
       DevNext (exec (.trkSpdWrite mid k w) s) s (Quiet (d.setTrk k { t with nextSpd := some w.toInt }))) ∧
     (d.trkWriteOk mid k = true → d.trkSrc k = srcHOST →
       DevNext (exec (.trkSpdWrite mid k w) s) s (Quiet (d.setTrk k { t with staged := some w.toInt })) ∧
       DevNext (exec (.trkAngWrite mid k w) s) s fun e =>
         Frame { d with trk := e.trk, sync := e.sync } e [R.TRK_STAT k, R.TL_TRK_FLAG, R.TL_ZS_INFO] ∧
         (∀ j, j ≠ k → e.trkS j = d.trkS j) ∧ (e.trkS k).spd = t.staged.getD t.spd ∧ (e.trkS k).base = d.gtc ∧
         (let err := sext 40 (wrap40 ((angOfWord w : Int) - t.ang))
          if d.jumpLim k * 2 ^ 20 < err.natAbs then (e.trkS k).ang = angOfWord w ∧ (e.trkS k).res = 0
          else (e.trkS k).ang = t.ang ∧ (e.trkS k).res = err) ∧
         e.flag (R.TRK_STAT k) F.TRK_STAT_VALID = true ∧ e.flag (R.TRK_STAT k) F.TRK_STAT_STALE = false)) ∧
  (∀ (s : State) (mid k : Nat) (w : Word), s.Live → k < nTracks → s.dev.inConfigure = true → s.dev.asS0 mid .trkB = true →
     s.dev.ownOk mid (.unit (R.TRK_CLAIM k) Pg.TRK) = true →
     DevNext (exec (.trkCfgWrite mid k w) s) s fun e =>
       Frame { s.dev with trk := e.trk } e [R.TRK_CFG k, R.TRK_STAT k] ∧ (∀ j, j ≠ k → e.trkS j = s.dev.trkS j) ∧
       (∀ f ∈ [F.TRK_CFG_SRC, F.TRK_CFG_CTX, F.TRK_CFG_PP, F.TRK_CFG_INV], e.get (R.TRK_CFG k) f = getF w f) ∧
       (e.trkS k).ang = (s.dev.trkS k).ang ∧ (e.trkS k).spd = (s.dev.trkS k).spd ∧ (e.trkS k).res = 0 ∧
       (e.trkS k).staged = none ∧ (e.trkS k).nextSpd = none ∧ (e.trkS k).upds = [] ∧
       (e.trkS k).base = if srcUpdates (getF w F.TRK_CFG_SRC) then s.dev.gtc else (s.dev.trkS k).base)

/-! ### The slots -/

/-- R79: a write of SLOT_TRIG by the slot's owner sets its fields; with bit 31 it arms the slot afresh, without it disarms. A write of
SLOT_ARG sets the argument and arms an armed slot afresh. The other slots stand. R79 to R82, R481: the timeline's own actions, at their
effect tick. REC_MARK writes a record and changes nothing else; SLOT_ARM arms its target, SLOT_DISARM disarms it, EVT_PULSE holds the pin
for PARAM ticks; a target out of range is left out. The model's reading where the rules leave one open: log entry 143. -/
def Obligations.SlotWritesAndActions : Prop :=
  (∀ (s : State) (mid n : Nat) (w : Word), s.Live → n < nSlots → s.dev.asS0 mid .tlsB = true →
     s.dev.ownOk mid (.unit (R.TL_SLOT_CLAIM (n / 32)) (Pg.TLS (n / 256))) = true →
     (s.dev.inConfigure = true →
       DevNext (exec (.slotTrigWrite mid n w) s) s fun e =>
         Frame { s.dev with slot := e.slot } e [R.SLOT_TRIG n] ∧ (∀ j, j ≠ n → e.slotS j = s.dev.slotS j) ∧
         (∀ f ∈ [F.SLOT_TRIG_REARM, F.SLOT_TRIG_TYPE, F.SLOT_TRIG_DIR, F.SLOT_TRIG_SRC, F.SLOT_TRIG_CEVT, F.SLOT_TRIG_CDIV],
           e.get (R.SLOT_TRIG n) f = getF w f) ∧
         e.flag (R.SLOT_TRIG n) F.SLOT_TRIG_ARMED = bitOf w 31 ∧
         e.slotS n = if bitOf w 31 then s.dev.armedWith n (s.dev.get (R.SLOT_ARG n) F.SLOT_ARG_ARG) else s.dev.slotS n) ∧
     DevNext (exec (.slotArgWrite mid n w) s) s fun e =>
       Frame { s.dev with slot := e.slot } e [R.SLOT_ARG n, R.SLOT_TRIG n] ∧ (∀ j, j ≠ n → e.slotS j = s.dev.slotS j) ∧
       e.reg (R.SLOT_ARG n) = w ∧
       e.flag (R.SLOT_TRIG n) F.SLOT_TRIG_ARMED = s.dev.flag (R.SLOT_TRIG n) F.SLOT_TRIG_ARMED ∧
       e.slotS n = if s.dev.flag (R.SLOT_TRIG n) F.SLOT_TRIG_ARMED then s.dev.armedWith n w.toNat else s.dev.slotS n) ∧
  (∀ (s : State) (n : Nat) (r : Firing) (d : Dev), s.Live →
     (s.dev.takeFiring n 0xC = some (r, d) → DevNext (exec (.recMark n) s) s (Quiet d)) ∧
     (s.dev.takeFiring n 0xD = some (r, d) → r.span = 0 → r.target < nSlots →
       DevNext (exec (.slotArm n) s) s fun e => Frame { d with slot := e.slot } e [R.SLOT_TRIG r.target] ∧
         e.flag (R.SLOT_TRIG r.target) F.SLOT_TRIG_ARMED = true ∧ (∀ j, j ≠ r.target → e.slotS j = d.slotS j) ∧
         e.slotS r.target = d.armedWith r.target (d.get (R.SLOT_ARG r.target) F.SLOT_ARG_ARG)) ∧
     (s.dev.takeFiring n 0xF = some (r, d) → r.span = 0 → r.target < nSlots →
       exec (.slotDisarm n) s = .next (s.withDev (d.putB (R.SLOT_TRIG r.target) F.SLOT_TRIG_ARMED false))) ∧
     (s.dev.takeFiring n 0xE = some (r, d) → r.span = 0 →
       exec (.evtPulse n) s = .next (s.withDev (if r.target < 4 then d.pulseS r.target (max r.param 1) else d))))

/-- R72 to R74: an armed ABSOLUTE slot fires eight ticks before its argument, SKIPPED where that tick has passed, and waits before; an
armed PERIODIC slot fires when its next effect tick is eight ticks away, which then advances by the argument, at least 16. R75: a CARRIER
slot counts a selected event eight ticks before event plus offset, and fires at the event after CDIV of them; where the next selected
event has occurred first, it fires late, SKIPPED. R76 to R78: an ANGLE slot fires when its track's projected angle crosses its angle in an
admitted direction, SKIPPED where a jump in the direction of travel carried it across, and then waits until the angle is a quarter turn
away. The model's reading where the rules leave one open: log entry 142. -/
def Obligations.SlotsFire : Prop :=
  (∀ (s : State) (n : Nat), s.Live →
     (s.dev.slotReady n 0 = true →
       let x := sext 32 (wrapN 32 ((s.dev.reg (R.SLOT_ARG n)).toNat - (s.dev.gtc % 2 ^ 32 : Nat) : Int))
       (x ≤ 8 → DevNext (exec (.absoluteSlotDecide n) s) s fun e => Fires s.dev e n (decide (x < 8))) ∧
       (8 < x → exec (.absoluteSlotDecide n) s = .next s)) ∧
     (s.dev.slotReady n 1 = true →
       ((s.dev.slotS n).nextF ≤ s.dev.gtc + 8 →
         DevNext (exec (.periodicSlotDecide n) s) s fun e => Fires s.dev e n false ∧
           (e.slotS n).nextF = (s.dev.slotS n).nextF + max (s.dev.get (R.SLOT_ARG n) F.SLOT_ARG_ARG) 16) ∧
       (s.dev.gtc + 8 < (s.dev.slotS n).nextF → exec (.periodicSlotDecide n) s = .next s))) ∧
  (∀ (s : State) (n e1 e2 : Nat), s.Live → s.dev.slotReady n 2 = true →
     let q := s.dev.slotS n
     let off := s.dev.get (R.SLOT_ARG n) F.SLOT_ARG_ARG % 2 ^ 20
     let cdiv := s.dev.get (R.SLOT_TRIG n) F.SLOT_TRIG_CDIV
     (s.dev.slotEvents n = [e1] → e1 + off ≤ s.dev.gtc + 8 →
       (q.cnt < cdiv →
         exec (.carrierSlotDecide n) s = .next (s.withDev (s.dev.setSlot n { q with cnt := q.cnt + 1, lastEv := e1 + 1 }))) ∧
       (cdiv ≤ q.cnt →
         DevNext (exec (.carrierSlotDecide n) s) s fun e =>
           Fires s.dev e n false ∧ (e.slotS n).cnt = 0 ∧ (e.slotS n).lastEv = e1 + 1)) ∧
     (s.dev.slotEvents n = [e1, e2] → s.dev.gtc + 8 < e1 + off → e2 ≤ s.dev.gtc → s.dev.gtc + 8 < e2 + off → cdiv ≤ q.cnt →
       DevNext (exec (.carrierSlotDecide n) s) s fun e =>
         Fires s.dev e n true ∧ (e.slotS n).cnt = 0 ∧ (e.slotS n).lastEv = e1 + 1)) ∧
  (∀ (s : State) (n : Nat), s.Live → s.dev.slotReady n 3 = true →
     let d := s.dev
     let k := d.get (R.SLOT_TRIG n) F.SLOT_TRIG_SRC
     let dir := d.get (R.SLOT_TRIG n) F.SLOT_TRIG_DIR
     let far := (sext 40 (wrap40 ((d.trkP k : Int) - (d.get (R.SLOT_ARG n) F.SLOT_ARG_ARG % 2 ^ 20 * 2 ^ 20 : Nat)))).natAbs
     (k < nTracks → (d.slotS n).waitRearm = false → (d.slotS n).armTick < d.gtc →
       (d.crossing n = 1 ∧ (dir = 0 ∨ dir = 1)) ∨ (d.crossing n = -1 ∧ (dir = 0 ∨ dir = 2)) →
       ((d.trkS k).jumpAt ≠ d.gtc + 1 → DevNext (exec (.angleSlotDecide n) s) s fun e =>
         Fires d e n false ∧ (e.slotS n).waitRearm = d.flag (R.SLOT_TRIG n) F.SLOT_TRIG_REARM) ∧
       ((d.trkS k).jumpAt = d.gtc + 1 → 0 < (d.trkS k).jump * (d.trkS k).spd →
         0 < (d.trkS k).jump * d.crossing n →
         DevNext (exec (.angleSlotDecide n) s) s fun e => Fires d e n true) ∧
       ((d.trkS k).jumpAt = d.gtc + 1 → (d.trkS k).jump * (d.trkS k).spd ≤ 0 → exec (.angleSlotDecide n) s = .next s)) ∧
     ((d.slotS n).waitRearm = true → 2 ^ 38 ≤ far →
       exec (.angleSlotRearm n) s = .next (s.withDev (d.setSlot n { d.slotS n with waitRearm := false }))) ∧
     (far < 2 ^ 38 → exec (.angleSlotRearm n) s = .next s))

/-! ### The converters -/

/-- R90, R91, R97, R98: at its sampling instant an enabled, served slice samples the input its sequence names, and the code is corrected
(with zero offset and gain error it is four times the raw result), with the incoming slice's code while an overlap pairs them; the first
sampling instant after a passed comparison hands the slice over. R91, R109, R117 to R119: a result 40 ticks after its sampling instant,
and a copy of Bank B 6 ticks after its output, reach every accumulator and tracker that takes their source; nothing else of the converters
changes but what the result belongs to. -/
def Obligations.SliceSampling : Prop :=
  (∀ (s : State) (l raw rawInc p : Nat), s.Live →
     let d := s.dev
     let es := d.seqEntries l
     let i := nthD 0x7F es (d.gtc / 40 % es.length)
     l < nSlices d.member → d.pageEn Pg.ADA = true → d.frozen Pg.ADA = false → d.flag (R.ADA_LCFG l) F.ADA_LCFG_EN = true →
     d.gtc % 40 = min (d.get (R.ADA_LCFG l) F.ADA_LCFG_PHASE) 39 → (∀ r ∈ d.samp, ¬(r.slice = l ∧ r.ts = d.gtc)) →
     d.servedBy l = some p →
     (d.rot.hand = none → i < nInputs d.member →
       let inc := if d.rot.run ∧ d.rot.slice = l ∧ d.rot.step < d.gtc then some (d.codeC d.rot.inc rawInc) else none
       let r : SampSt := { slice := l, input := i, ts := d.gtc, code := d.codeC p raw, codeInc := inc }
       exec (.adaSample l raw rawInc) s = .next (s.withDev { d with samp := d.samp ++ [r] }) ∧
       (d.getI (R.ADA_PSL p) F.ADA_PSL_OFS = 0 → d.getI (R.ADA_PSL p) F.ADA_PSL_GAIN_ERR = 0 →
         d.codeC p raw = 4 * min raw 16383)) ∧
     ∀ t, d.rot.hand = some (t, false) → d.rot.slice = l → t < d.gtc → d.rot.inc < nPhys d.member → p < nPhys d.member →
       p ≠ d.rot.inc →
       DevNext (exec (.adaSample l raw rawInc) s) s fun e =>
         e.rot = {} ∧ e.servedBy l = some d.rot.inc ∧ e.pslState d.rot.inc = pslACTIVE ∧ e.pslState p = pslCAL ∧
         e.rotPtr = (l + 1) % nSlices d.member ∧ (e.ovlS l).fails = 0 ∧
         e.flag (R.ADA_LSTAT l) F.ADA_LSTAT_FORCED = false ∧ e.flag (R.ADA_LSTAT l) F.ADA_LSTAT_CAL_STALE = false) ∧
  (∀ (s : State), s.Live → s.dev.frozen Pg.ADA = false → s.dev.frozen Pg.ADB = false →
     (∀ (l : Nat) (r : SampSt), s.dev.samp.find? (fun x => x.slice == l && decide (x.ts + 40 ≤ s.dev.gtc)) = some r →
       DevNext (exec (.adaResultArrival l) s) s fun e =>
         Frame { s.dev with samp := s.dev.samp.erase r, acc := e.acc, rot := e.rot, ow := e.ow } e (mmxRegs s.dev.member) ∧
         SampleTaken s.dev e false r.input r.code r.ts (s.dev.owMarked r.input r.ts)) ∧
     ∀ (c : Nat) (y : Int) (t : Nat) (q : List (Int × Nat)), (s.dev.sddS c).copies = (y, t) :: q → t + 6 ≤ s.dev.gtc →
       DevNext (exec (.adbCopyArrival c) s) s fun e =>
         Frame { s.dev.setSdd c { s.dev.sddS c with copies := q } with acc := e.acc } e (mmxRegs s.dev.member) ∧
         SampleTaken s.dev e true c (y / 256) s.dev.gtc false)

/-- R94, R95, R101: after 2 ms of BOOT the physical slices serve the logical ones in order and the rest are spare, where all passed; a
slice in CAL for 2 ms becomes spare with its new values, or FAILED with cause 1; a served slice not calibrated for CAL_MAX ms is marked
stale. -/
def Obligations.SliceCalibration : Prop :=
  ∀ (s : State), s.Live →
    let d := s.dev
    (∀ cal : List (Int × Int), d.devState = DS.BOOT → 800000 ≤ d.gtc → cal.length = nPhys d.member →
      (∀ c ∈ cal, calBad c.1 c.2 = false) → (∀ p, p < nPhys d.member → d.pslState p ≠ pslFAILED) →
      DevNext (exec (.bootSliceCalibrationDone cal) s) s fun e =>
        Frame { d with cal := e.cal, sys := { d.sys with calDone := true } } e
          (R.ADA_ROT_STAT :: (List.range (nPhys d.member)).map R.ADA_PSL ++ (List.range (nSlices d.member)).map R.ADA_LSTAT) ∧
        (∀ l, l < nSlices d.member → e.servedBy l = some l ∧ e.pslState l = pslACTIVE) ∧
        (∀ p, nSlices d.member ≤ p → p < nPhys d.member → e.pslState p = pslSPARE) ∧
        ∀ p, p < nPhys d.member → e.getI (R.ADA_PSL p) F.ADA_PSL_OFS = (nthD (0, 0) cal p).1 ∧
          e.getI (R.ADA_PSL p) F.ADA_PSL_GAIN_ERR = (nthD (0, 0) cal p).2) ∧
    (∀ (p : Nat) (ofs gain : Int), p < nPhys d.member → d.sys.calDone = true → d.frozen Pg.ADA = false → d.pslState p = pslCAL →
      (d.calS p).start + 800000 ≤ d.gtc →
      DevNext (exec (.sliceCalibrationDone p ofs gain) s) s fun e =>
        Frame { d with cal := e.cal } e [R.ADA_PSL p, R.ADA_ROT_STAT] ∧ (e.calS p).done = d.gtc ∧
        (∀ q, q ≠ p → e.calS q = d.calS q) ∧
        (calBad ofs gain = false → e.pslState p = pslSPARE ∧ e.getI (R.ADA_PSL p) F.ADA_PSL_OFS = ofs ∧
          e.getI (R.ADA_PSL p) F.ADA_PSL_GAIN_ERR = gain) ∧
        (calBad ofs gain = true → e.pslState p = pslFAILED ∧ e.get (R.ADA_PSL p) F.ADA_PSL_FAIL_CAUSE = 1 ∧
          Raised e Pg.ADA Ev.SLICE_FAIL)) ∧
    ∀ l p : Nat, l < nSlices d.member → d.servedBy l = some p →
      let cm := d.get R.ADA_CAL_CFG F.ADA_CAL_CFG_CAL_MAX
      (cm ≠ 0 → d.flag (R.ADA_LSTAT l) F.ADA_LSTAT_CAL_STALE = false → (d.calS p).done + cm * 400000 < d.gtc →
        d.frozen Pg.ADA = false → DevNext (exec (.calStale l) s) s fun e =>
          Quiet (d.putB (R.ADA_LSTAT l) F.ADA_LSTAT_CAL_STALE true) e ∧ Raised e Pg.ADA Ev.CAL_STALE) ∧
      (cm = 0 → exec (.calStale l) s = .next s)

/-- R96 to R99: a rotation step takes the first spare slice into an overlap with the first enabled and served slice from PTR on; a passing
comparison hands over, a failing one sends the incoming slice to calibration, then, failing again with the same slice, to FAILED with
cause 2, or forces the handover with another. R93, R100: a sequence that its slice's owner writes is taken whole where no other slice
names its inputs; an input of another slice, or one that the member lacks, refuses it with SEQ_RESULT 2 or 3 and leaves the sequence. The
model's reading where the rules leave one open: log entries 170 and 171. -/
def Obligations.SliceRotation : Prop :=
  (∀ (s : State), s.Live →
     let d := s.dev
     (∀ p l : Nat, d.flag R.ADA_CTRL F.ADA_CTRL_ROT_EN = true → d.pageEn Pg.ADA = true → d.frozen Pg.ADA = false →
       d.gtc % (400 * max (d.get R.ADA_ROT_CFG F.ADA_ROT_CFG_INTV) 1) = 0 → d.rotBusy = false →
       (List.range (nPhys d.member)).find? (fun q => d.pslState q == pslSPARE) = some p → d.rotNext = some l →
       DevNext (exec .rotationStep s) s fun e =>
         Frame { d with rot := { run := true, slice := l, inc := p, step := d.gtc } } e [R.ADA_ROT_STAT, R.ADA_PSL p] ∧
         e.rotPtr = l ∧ e.get R.ADA_ROT_STAT F.ADA_ROT_STAT_LAST_L = l ∧ e.pslState p = pslOVERLAP ∧
         e.get (R.ADA_PSL p) F.ADA_PSL_LSL = l) ∧
     (d.rot.run = true → d.frozen Pg.ADA = false → d.ovlN ≤ d.rot.pairs → d.rot.inc < nPhys d.member → d.rot.slice < nSlices d.member →
       let l := d.rot.slice
       let p := d.rot.inc
       (d.overlapPass = true → exec .overlapDecision s
         = .next (s.withDev { d with rot := { d.rot with run := false, hand := some (d.gtc, false) } })) ∧
       (d.overlapPass = false → DevNext (exec .overlapDecision s) s fun e =>
         Raised e Pg.ADA Ev.OVL_FAIL ∧ e.rotPtr = d.rotPtr ∧
         ((d.ovlS l).fails = 0 →
           Frame { { d with rot := {} }.setOvl l { fails := 1, inc := p } with cal := e.cal } e [R.ADA_ROT_STAT, R.ADA_PSL p] ∧
           e.pslState p = pslCAL ∧ (e.calS p).start = d.gtc) ∧
         ((d.ovlS l).fails ≠ 0 → (d.ovlS l).inc = p →
           Frame { d with rot := {} } e [R.ADA_ROT_STAT, R.ADA_PSL p] ∧ e.pslState p = pslFAILED ∧
           e.get (R.ADA_PSL p) F.ADA_PSL_FAIL_CAUSE = 2 ∧ Raised e Pg.ADA Ev.SLICE_FAIL) ∧
         ((d.ovlS l).fails ≠ 0 → (d.ovlS l).inc ≠ p →
           Quiet { d with rot := { d.rot with run := false, hand := some (d.gtc, true) } } e)))) ∧
  (∀ (s : State) (mid l : Nat) (w : Word), s.Live → l < nSlices s.dev.member → s.dev.takenAt mid (R.ADA_SEQ l) = true →
     let d := s.dev
     let st := R.ADA_LSTAT l
     let es := [getF w F.ADA_SEQ_IN0, getF w F.ADA_SEQ_IN1, getF w F.ADA_SEQ_IN2, getF w F.ADA_SEQ_IN3].take
       (getF w F.ADA_SEQ_LEN + 1)
     (∀ i h, d.seqConflict l es = some (i, some h) →
       exec (.adaSeqWrite mid l w) s = .next (s.withDev (((d.put st F.ADA_LSTAT_SEQ_RESULT 2).put st F.ADA_LSTAT_CONF_IN i).put st
         F.ADA_LSTAT_CONF_L h))) ∧
     (∀ i, d.seqConflict l es = some (i, none) →
       exec (.adaSeqWrite mid l w) s = .next (s.withDev (d.put st F.ADA_LSTAT_SEQ_RESULT 3))) ∧
     (d.seqConflict l es = none → d.rot = {} →
       DevNext (exec (.adaSeqWrite mid l w) s) s fun e =>
         Frame d e [R.ADA_SEQ l, st] ∧ e.get st F.ADA_LSTAT_SEQ_RESULT = 1 ∧
         ∀ f ∈ [F.ADA_SEQ_LEN, F.ADA_SEQ_IN0, F.ADA_SEQ_IN1, F.ADA_SEQ_IN2, F.ADA_SEQ_IN3], e.get (R.ADA_SEQ l) f = getF w f))

/-- R102, R104, R105: OW_ON opens a window on its input in mode 1 or 2 where none is open, and drives the test current of its
configuration onto the pin; OW_OFF closes it at the present tick, and the current ends; forty ticks after its end a window of fewer than
four samples is inconclusive, one whose mean passes the threshold shows an open wire. The model's reading where the rules leave one open:
log entry 295. -/
def Obligations.OpenWireWindows : Prop :=
  ∀ (s : State), s.Live →
    (∀ (n : Nat) (r : Firing) (d : Dev), s.dev.takeFiring n 0xA = some (r, d) → r.span = 0 → r.target < nInputs d.member →
      let mode := d.get (R.ADA_OW_CFG r.target) F.ADA_OW_CFG_MODE
      mode = 1 ∨ mode = 2 → d.flag R.ADA_CTRL F.ADA_CTRL_OW_EN = true → (∀ w ∈ d.owS r.target, w.off ≠ none) →
      DevNext (exec (.owOn n) s) s fun e => { on := d.gtc } ∈ e.owS r.target ∧ (∀ i, i ≠ r.target → e.owS i = d.owS i) ∧
        e.owCurrent r.target = (if mode = 1 then 1 else -1) * (if d.flag (R.ADA_OW_CFG r.target) F.ADA_OW_CFG_CUR then 50 else 10)) ∧
    (∀ (n : Nat) (r : Firing) (d : Dev), s.dev.takeFiring n 0xB = some (r, d) → r.span = 0 → r.target < nInputs d.member →
      DevNext (exec (.owOff n) s) s fun e => (∀ i, i ≠ r.target → e.owS i = d.owS i) ∧ e.owCurrent r.target = 0 ∧
        e.owS r.target = (d.owS r.target).map fun w => if w.off = none then { w with off := some d.gtc } else w) ∧
    ∀ (i : Nat) (w : OwSt), i < 96 → s.dev.frozen Pg.ADA = false →
      (s.dev.owS i).find? (fun v => !v.done && v.off.any fun f => decide (f + 40 ≤ s.dev.gtc)) = some w →
      let d := s.dev.setOw i ((s.dev.owS i).map fun v => if v = w then { v with done := true } else v)
      let mode := d.get (R.ADA_OW_CFG i) F.ADA_OW_CFG_MODE
      let lim := d.get (R.ADA_OW_CFG i) F.ADA_OW_CFG_THR * 64 * (4 * w.n)
      (w.n < 4 → DevNext (exec (.owEvaluation i) s) s fun e =>
        Quiet (d.orReg (R.ADA_OW_INC (i / 32)) (bitWord (i % 32))) e ∧ Raised e Pg.ADA Ev.OW_INCONCL) ∧
      (4 ≤ w.n → (mode = 1 ∧ lim ≤ w.sum) ∨ (mode = 2 ∧ w.sum ≤ lim) → DevNext (exec (.owEvaluation i) s) s fun e =>
        Quiet (d.orReg (R.ADA_OW_OPEN (i / 32)) (bitWord (i % 32))) e ∧ Raised e Pg.ADA Ev.OPEN_WIRE) ∧
      (4 ≤ w.n → ¬((mode = 1 ∧ lim ≤ w.sum) ∨ (mode = 2 ∧ w.sum ≤ lim)) → exec (.owEvaluation i) s = .next (s.withDev d))

/-- R106 to R110: a running channel takes its input's level once a period of its clock, DLY cycles after the edge that EDGE selects; its
fourth and later outputs deliver the filter's value (CLIP from 15/16 of full scale on); STUCK_N clocks without a transition, a failed
clock and a value beyond HI or LO set STUCK and OVR of the channels concerned; a channel on a failed clock runs no more. What Channel M
makes of them is stated with the trips: here no enabled entry of the safety parameter block names the channels. The model's reading where
the rules leave one open: log entries 172, 175, 296 and 297. -/
def Obligations.BankB : Prop :=
  ∀ (s : State) (c : Nat), s.Live → (∀ m, s.dev.meEn m = false) →
    let d := s.dev
    let st := R.ADB_CH_STAT c
    (d.sddOn c = true →
      ((d.sddS c).hit = true → DevNext (exec (.sdStuck c) s) s (fun e =>
        Quiet ((d.setSdd c { d.sddS c with hit := false }).putB st F.ADB_CH_STAT_STUCK true) e ∧ Raised e Pg.ADB Ev.SD_STUCK)) ∧
      ((d.sddS c).hit = false → exec (.sdStuck c) s = .next s) ∧
      (∀ bits wave : List Bool, bits.length = d.sddOsr c → wave.length = d.sddOsr c * d.sdcDiv (d.sddClk c) + d.sddPhase c →
        (∀ j, j < d.sddOsr c → nthD false bits j = nthD false wave (j * d.sdcDiv (d.sddClk c) + d.sddPhase c)) →
        3 ≤ (d.sddS c).main.outs →
        let y := sincY (sincOut (bits.foldl sincBit (d.sddS c).main)).1 (d.sddOsr c)
        DevNext (exec (.sinc3Output c wave) s) s fun e =>
          ((∀ b ∈ bits, (d.sddS c).last = some b) → (d.sddS c).stuck = false → d.stuckN ≤ (d.sddS c).still + d.sddOsr c →
            (e.sddS c).hit = true) ∧
          (e.sddS c).y = y ∧ e.flag st F.ADB_CH_STAT_RUN = true ∧
          (e.sddS c).copies = (d.sddS c).copies ++ (if d.flag (R.ADB_CH_CFG c) F.ADB_CH_CFG_ACC_COPY then [(y, d.gtc)] else []) ∧
          (15 * 2 ^ 19 ≤ y.natAbs → e.flag st F.ADB_CH_STAT_CLIP = true ∧ Raised e Pg.ADB Ev.SD_CLIP) ∧
          ∀ k, k ≠ c → e.sddS k = d.sddS k) ∧
      ∀ bits wave : List Bool, d.sddBits c (d.sddFast c) wave = some bits → 3 ≤ (d.sddS c).fast.outs →
        let cube : Int := (d.sddFast c : Int) ^ 3
        let x := min ((sincOut (bits.foldl sincBit (d.sddS c).fast)).1 * 2 ^ 15) (32767 * cube)
        DevNext (exec (.fastSinc3Output c wave) s) s fun e =>
          Frame (d.setSdd c { d.sddS c with fast := (sincOut (bits.foldl sincBit (d.sddS c).fast)).2 }) e [st] ∧
          (d.getI (R.ADB_CH_OVR c) F.ADB_CH_OVR_HI * cube < x ∨ x < d.getI (R.ADB_CH_OVR c) F.ADB_CH_OVR_LO * cube →
            e.flag st F.ADB_CH_STAT_OVR = true ∧ Raised e Pg.ADB Ev.SD_OVR)) ∧
    ∀ k, k < nSdc d.member → d.frozen Pg.ADB = false → d.flag (R.ADB_CLK k) F.ADB_CLK_EN = true →
      DevNext (exec (.sdcFault k) s) s fun e =>
        Raised e Pg.ADB Ev.SDC_FAULT ∧ ∀ j, j < nSdd d.member → d.get (R.ADB_CH_CFG j) F.ADB_CH_CFG_CLK = k →
          d.flag (R.ADB_CH_CFG j) F.ADB_CH_CFG_EN = true →
          e.flag (R.ADB_CH_STAT j) F.ADB_CH_STAT_STUCK = true ∧ e.flag (R.ADB_CH_STAT j) F.ADB_CH_STAT_RUN = false ∧
          e.sddOn j = false

/-! ### Accumulators and trackers -/

/-- R119, R121, R122: an ACC_OPEN opens a window at the present tick where none is open; ACC_CLOSE closes the open window, which waits for
its commit, or abandons it with ACC_WIN_LOST where one already waits; ACC_SWAP does both in one tick. (What closing does to a speculation
that predicts the window is stated with Horizon.) R122, R133: in CONFIGURE a configuration word of an accumulator takes every field
written by its owner, and its windows are abandoned without commit; a clear by its owner empties a tracker and leaves its hit bits. -/
def Obligations.AccumulatorWindows : Prop :=
  (∀ (s : State) (n : Nat) (r : Firing) (d : Dev), s.Live → d.NoSpec → r.span = 0 → r.target < nAcc d.member →
     d.accOn r.target = true →
     let a := r.target
     let q := d.accS a
     let st := R.ACC_STAT a
     let alone := fun (e : Dev) => ∀ j, j ≠ a → e.accS j = d.accS j
     (s.dev.takeFiring n 1 = some (r, d) →
       (q.cur = none → DevNext (exec (.accOpen n) s) s fun e => Frame { d with acc := e.acc } e [st] ∧ alone e ∧
         e.accS a = { q with cur := some { fOpen := d.gtc } } ∧ e.flag st F.ACC_STAT_OPEN = true) ∧
       (q.cur ≠ none → exec (.accOpen n) s = .next (s.withDev d))) ∧
     (s.dev.takeFiring n 2 = some (r, d) →
       (q.cur = none → DevNext (exec (.accClose n) s) s (Quiet d)) ∧
       ∀ w, q.cur = some w → DevNext (exec (.accClose n) s) s fun e =>
         Frame { d with acc := e.acc } e [st, R.ACC_FLAG (a / 64) (a % 64 / 32)] ∧ alone e ∧ e.flag st F.ACC_STAT_OPEN = false ∧
         (q.pend = none → e.accS a = { q with cur := none, pend := some { w with fClose := d.gtc } } ∧
           e.flag st F.ACC_STAT_PEND = true) ∧
         (q.pend ≠ none → e.accS a = { q with cur := none } ∧ Raised e (Pg.ACC (a / 64)) Ev.ACC_WIN_LOST)) ∧
     (s.dev.takeFiring n 3 = some (r, d) →
       ∀ w, q.cur = some w → q.pend = none → DevNext (exec (.accSwap n) s) s fun e =>
         Frame { d with acc := e.acc } e [st] ∧ alone e ∧
         e.accS a = { q with cur := some { fOpen := d.gtc }, pend := some { w with fClose := d.gtc } })) ∧
  (∀ (s : State) (mid : Nat), s.Live → s.dev.NoSpec →
     (∀ (a k : Nat) (w : Word), a < nAcc s.dev.member → k < 4 → s.dev.takenAt mid (R.ACC_CFG a + 4 * k) = true →
       let r := R.ACC_CFG a + 4 * k
       let v := if k = 1 then wordOfInt (sext 20 w.toNat) else w
       DevNext (exec (.accConfigWrite mid a k w) s) s fun e =>
         Frame { s.dev with acc := e.acc } e [r, R.ACC_STAT a] ∧ (∀ j, j ≠ a → e.accS j = s.dev.accS j) ∧
         e.accS a = { s.dev.accS a with cur := none, pend := none } ∧ e.flag (R.ACC_STAT a) F.ACC_STAT_OPEN = false ∧
         e.flag (R.ACC_STAT a) F.ACC_STAT_PEND = false ∧
         ∀ rd i x, regAt .accB (offOf r) = some (rd, i, x) → ∀ f ∈ rd.flds, e.get r f.f = getF v f.f) ∧
     ∀ t, t < nMmx s.dev.member → s.dev.takenAt mid (R.MMX_STAT t) = true →
       DevNext (exec (.mmxClear mid t) s) s fun e =>
         Frame s.dev e [R.MMX_MIN t, R.MMX_MAX t, R.MMX_STAT t] ∧ e.reg (R.MMX_MIN t) = 0 ∧ e.reg (R.MMX_MAX t) = 0 ∧
         e.flag (R.MMX_STAT t) F.MMX_STAT_EMPTY = true ∧
         ∀ f ∈ [F.MMX_STAT_HI_HIT, F.MMX_STAT_LO_HIT, F.MMX_STAT_SAT], e.get (R.MMX_STAT t) f = s.dev.get (R.MMX_STAT t) f)

/-- R120, R125 to R127, R132, R135: the commit of a window writes the results, the member count, the sequence and the status bits, raises
what they ask for, and gives every linked tracker the window's extremes. R123: in SUM a member adds its d to the first sum, in SUMSQ the
square of its rounded quarter to the second; the count, the extremes and the last timestamp follow. The model's reading where the rules
leave one open: log entry 172. -/
def Obligations.AccumulatorCommits : Prop :=
  (∀ (s : State) (a : Nat) (w : WinSt), s.Live → s.dev.NoSpec → a < nAcc s.dev.member → s.dev.accDue a = some w →
     let d := s.dev
     let st := R.ACC_STAT a
     let r := d.accResults a w
     let short := decide (0 < w.n) && decide (w.n < d.get (R.ACC_CFG a) F.ACC_CFG_NMIN)
     DevNext (exec (.accCommit a) s) s fun e =>
       Frame { d with acc := e.acc, ctx := e.ctx, sync := e.sync } e (accRegs d.member a) ∧
       (∀ j, j ≠ a → e.accS j = d.accS j) ∧ (e.accS a).pend = none ∧ (e.accS a).cur = (d.accS a).cur ∧
       e.reg (R.ACC_RES0 a) = wordMant r.1.1 ∧ e.reg (R.ACC_RES1 a) = wordMant r.2.1 ∧ (w.n = 0 → r.1.1 = 0 ∧ r.2.1 = 0) ∧
       e.get (R.ACC_CNT a) F.ACC_CNT_SEQ = (d.get (R.ACC_CNT a) F.ACC_CNT_SEQ + 1) % 256 ∧
       (w.n < 2 ^ 24 → e.get (R.ACC_CNT a) F.ACC_CNT_N = w.n) ∧
       e.flag st F.ACC_STAT_PEND = false ∧ e.flag st F.ACC_STAT_EMPTY = (w.n == 0) ∧ e.flag st F.ACC_STAT_SHORT = short ∧
       e.flag st F.ACC_STAT_OVF = w.ovf ∧ e.flag st F.ACC_STAT_SAT0 = r.1.2 ∧ e.flag st F.ACC_STAT_SAT1 = r.2.2 ∧
       (w.n = 0 → Raised e (Pg.ACC (a / 64)) Ev.ACC_EMPTY) ∧ (short = true → Raised e (Pg.ACC (a / 64)) Ev.ACC_SHORT) ∧
       (w.ovf = true → Raised e (Pg.ACC (a / 64)) Ev.ACC_OVF) ∧ (r.1.2 || r.2.2 → Raised e (Pg.ACC (a / 64)) Ev.ACC_SAT) ∧
       ∀ t, d.mmxLink t = some a → d.flag (R.MMX_CFG t) F.MMX_CFG_HOLD = false → w.n ≠ 0 →
         e.reg (R.MMX_MIN t) = wordMant (d.mmxWindow a w).1 ∧ e.reg (R.MMX_MAX t) = wordMant (d.mmxWindow a w).2.1 ∧
         e.flag (R.MMX_STAT t) F.MMX_STAT_EMPTY = false) ∧
  (∀ (d : Dev) (a : Nat) (w : WinSt) (x : Int) (c : Bool) (ts : Nat), w.n < 16777215 →
     -(2 ^ 39) ≤ w.s1 + x → w.s1 + x < 2 ^ 39 →
     let v := d.accAdd a w x c ts
     v.n = w.n + 1 ∧ v.last = ts ∧ v.fOpen = w.fOpen ∧ (w.n = 0 → v.dMin = x ∧ v.dMax = x) ∧
     (w.n ≠ 0 → v.dMin = min w.dMin x ∧ v.dMax = max w.dMax x) ∧
     (d.accMode a = 0 → v.s1 = w.s1 + x ∧ (-(2 ^ 39) ≤ w.s2 → w.s2 < 2 ^ 39 → v.s2 = w.s2 ∧ v.ovf = (w.ovf || c))) ∧
     (d.accMode a = 1 → v.s2 = clampI (-(2 ^ 39)) (2 ^ 39 - 1) (w.s2 + roundDiv x 4 * roundDiv x 4)))

/-! ### Comparators -/

/-- R140, R143, R148, R151, R152: in the continuous modes a crossing of a trip level and of a release level, in SAMPLED mode every strobe
of a running comparator, makes it take its sides, after the edges and the blanking of the tick have been looked at; in its start-up a
strobe only counts untripped decisions. R139, R144, R145: a comparator that is able to run starts; its start ends after REL_N untripped
samples and is late after 1 ms; a written setting takes effect at the A-die, in a frame slot that is not dropped (R35), and a MODE that was
changed while EN = 1 starts the comparator afresh, as does a recovered A-die supply. The model's reading where the rules leave one open: log entry 190. -/
def Obligations.ComparatorDecisions : Prop :=
  (∀ (s : State) (c : Nat) (uv : Int), s.Live → c < nCmp s.dev.member →
     let d := s.dev
     let f := d.cmpLook c
     let q := f.cmpS c
     let x := f.cmpSides c uv
     (f.cmpLive c = true → f.cmpSampled c = false →
       ((x.1 = true ∧ q.hiTrip = false) ∨ (x.2 = true ∧ q.loTrip = false) →
         DevNext (exec (.cmpTrip c uv) s) s fun e => Decided f e c uv) ∧
       ((x.1 = false ∧ q.hiTrip = true) ∨ (x.2 = false ∧ q.loTrip = true) →
         DevNext (exec (.cmpRelease c uv) s) s fun e => Decided f e c uv)) ∧
     (d.cmpSampled c = true → (d.cmpS c).on = true → 120 ≤ d.gtc → (d.gtc - 120) % d.cmpDiv c = 0 →
       (d.cmpStarting c = false → DevNext (exec (.cmpStrobe c uv) s) s fun e => Decided f e c uv) ∧
       (d.cmpStarting c = true → d.frozen (Pg.CMP (c / 36)) = false → exec (.cmpStrobe c uv) s
         = .next (s.withDev (d.setCmp c { d.cmpS c with relCnt := if d.cmpSafe c uv then (d.cmpS c).relCnt + 1 else 0 }))))) ∧
  (∀ (s : State) (c : Nat), s.Live → c < nCmp s.dev.member →
     let d := s.dev
     let q := d.cmpS c
     let st := R.CMP_STAT c
     let alone := fun (e : Dev) => ∀ j, j ≠ c → e.cmpS j = d.cmpS j
     (d.cmpAble c = true → q.on = false → DevNext (exec (.cmpStart c) s) s fun e =>
       Frame { d with cmp := e.cmp } e [st] ∧ alone e ∧ Started d e c) ∧
     (d.cmpStarting c = true → q.on = true → d.frozen (Pg.CMP (c / 36)) = false →
       (if d.cmpSampled c then d.cmpRelN c ≤ q.relCnt else q.startAt + d.cmpRelN c ≤ d.gtc) →
       DevNext (exec (.cmpStartDone c) s) s fun e => Frame d e [st] ∧ e.cmpStarting c = false ∧
         e.flag st F.CMP_STAT_OUT = (q.hiTrip || q.loTrip)) ∧
     (d.cmpStarting c = true → q.late = false → d.frozen (Pg.CMP (c / 36)) = false →
       q.startAt + (400000 + if d.cmpSampled c then d.cmpRelN c * d.cmpDiv c else 0) ≤ d.gtc →
       DevNext (exec (.cmpStartLate c) s) s fun e => Frame (d.setCmp c { q with late := true }) e [st, R.CMP_FLAG0 (c / 36), R.CMP_FLAG1 (c / 36)] ∧
         e.flag st F.CMP_STAT_START_LATE = true ∧ Raised e (Pg.CMP (c / 36)) Ev.CMP_START_LATE) ∧
     (∀ x y m, q.old = some (x, y, m) →
       (d.linkTick d.gtc = d.gtc → DevNext (exec (.cmpSettingApplied c) s) s fun e => Frame { d with cmp := e.cmp } e [st] ∧ alone e ∧
         (e.cmpS c).old = none ∧ (e.cmpS c).again = false ∧ (q.again = true → d.cmpAble c = true → Started d e c) ∧
         (q.again = false → e.cmpS c = { q with old := none, again := false })) ∧
       (d.linkTick d.gtc ≠ d.gtc → exec (.cmpSettingApplied c) s = .next s)) ∧
     DevNext (exec .aDieSupplyRecovery s) s fun e =>
       Frame { d with cmp := e.cmp } e ((List.range (nCmp d.member)).map R.CMP_STAT) ∧
       (d.cmpAble c = true → Started d e c) ∧ (d.cmpAble c = false → e.cmpS c = q))

/-- R146 to R149: BLANK_ON masks a comparator, BLANK_OFF and the end of edge blanking let it act again where no other source masks it; a
PROTECT comparator's blanking is cut after 2 us with CMP_BLANK_CAP. R153: its owner's clear of a comparator clears LATCHED only while the
output is untripped and no start is under way; else it sets CLR_FAIL and raises CMP_CLR_FAIL. The model's reading where the rules leave
one open: log entry 25. -/
def Obligations.ComparatorBlanking : Prop :=
  (∀ (s : State), s.Live →
     (∀ (n : Nat) (r : Firing) (d : Dev), r.span = 0 → r.target < nCmp d.member →
       let c := r.target
       let q := d.cmpS c
       (s.dev.takeFiring n 8 = some (r, d) → q.capped = false → DevNext (exec (.blankOn n) s) s fun e =>
         Frame { d with cmp := e.cmp } e [R.CMP_STAT c] ∧ (∀ j, j ≠ c → e.cmpS j = d.cmpS j) ∧ (e.cmpS c).slotBlank = true ∧
         (e.cmpS c).blankFrom = some (q.blankFrom.getD d.gtc) ∧ e.flag (R.CMP_STAT c) F.CMP_STAT_BLANKED = true) ∧
       (s.dev.takeFiring n 9 = some (r, d) → d.blankOnDue c = false → d.cmpOwBlank c = false → (∀ t, q.edgeEnd = some t → t ≤ d.gtc) →
         DevNext (exec (.blankOff n) s) s fun e => Unblanked d e c ∧ (e.cmpS c).slotBlank = false)) ∧
     ∀ c, c < nCmp s.dev.member →
       let d := s.dev
       let q := d.cmpS c
       let f := d.pinLookAll
       d.frozen (Pg.CMP (c / 36)) = false →
       (∀ t, (f.cmpS c).edgeEnd = some t → t ≤ d.gtc → (f.cmpS c).slotBlank = false → f.cmpOwBlank c = false →
         DevNext (exec (.edgeBlankEnd c) s) s fun e => Unblanked f e c ∧ (e.cmpS c).edgeEnd = none) ∧
       ∀ t, q.blankFrom = some t → d.cmpProtect c = true → d.cmpBlanked c = true → t + 800 ≤ d.gtc →
         DevNext (exec (.cmpBlankCap c) s) s fun e =>
           (∀ j, j ≠ c → e.cmpS j = d.cmpS j) ∧ (e.cmpS c).capped = true ∧ (e.cmpS c).blankFrom = none ∧
           e.flag (R.CMP_STAT c) F.CMP_STAT_BLANKED = false ∧ e.flag (R.CMP_STAT c) F.CMP_STAT_BLANK_CAPPED = true ∧
           Raised e (Pg.CMP (c / 36)) Ev.CMP_BLANK_CAP ∧
           ((q.hiTrip || q.loTrip) = true → d.cmpStarting c = false → CmpActed d e c q.hiTrip q.loTrip)) ∧
  (∀ (s : State) (mid c : Nat), s.Live → c < nCmp s.dev.member → s.dev.takenAt mid (R.CMP_STAT c) = true →
     let d := s.dev
     let st := R.CMP_STAT c
     (d.flag st F.CMP_STAT_OUT = false → d.cmpStarting c = false →
       DevNext (exec (.cmpClear mid c) s) s fun e => Frame d e [st] ∧ e.flag st F.CMP_STAT_LATCHED = false) ∧
     (d.flag st F.CMP_STAT_OUT = true ∨ d.cmpStarting c = true →
       DevNext (exec (.cmpClear mid c) s) s fun e => Frame d e [st, R.CMP_FLAG0 (c / 36), R.CMP_FLAG1 (c / 36)] ∧
         e.flag st F.CMP_STAT_LATCHED = d.flag st F.CMP_STAT_LATCHED ∧ e.flag st F.CMP_STAT_CLR_FAIL = true ∧
         Raised e (Pg.CMP (c / 36)) Ev.CMP_CLR_FAIL))

/-! ### Position and speed -/

/-- R164 to R168, R180: a change accepted at the pins of a decoder, an interface's or a shadow's. In ABZ mode without an index one step
counts, sets the direction and the angle's validity, where no index deviation has cleared it, two steps are an error; in Hall mode the next sector counts as an edge, a code
outside the map is an error. Other decoders stand. R166: the first index of an encoder with IDX_EN, at a level its qualifier admits, is
learned and makes the angle valid. The model's reading where the rules leave one open: log entries 192 and 193. -/
def Obligations.PositionEdges : Prop :=
  (∀ (s : State) (n : Nat) (sh a b z : Bool), s.Live → n < nPos s.dev.member →
     let d := s.dev
     let x := if sh then 16 + n else n
     let q := d.posS x
     let o := exec (if sh then .shadowEdgeAccept n a b z else .posEdgeAccept n a b z) s
     let step := (quadPos a b + 4 - quadPos q.a q.b) % 4
     let regs := posRegs n ++ shdRegs n ++ trkRegs
     let alone := fun (e : Dev) => ∀ j, j ≠ x → e.posS j = d.posS j
     (d.posMode x = mdABZ → d.posIdxEn x = false →
       (step = 1 ∨ step = 3 → DevNext o s fun e =>
         let back := (step == 3) != d.posInv x
         Frame (d.posPart e) e regs ∧ alone e ∧ (e.posS x).cnt = q.cnt + (if back then -1 else 1) ∧
         ((e.posS x).a, (e.posS x).b, (e.posS x).z, (e.posS x).back) = (a, b, z, back) ∧
         e.flag (posStat x) F.POS_STAT_VALID = (!q.devOff || d.flag (posStat x) F.POS_STAT_VALID) ∧
         e.flag (posStat x) F.POS_STAT_STOPPED = false ∧ e.flag (posStat x) F.POS_STAT_DIR = back) ∧
       (step = 2 → DevNext o s fun e => Frame (d.posPart e) e regs ∧ alone e ∧ (e.posS x).cnt = q.cnt ∧
         ((e.posS x).a, (e.posS x).b, (e.posS x).z) = (a, b, z) ∧ e.flag (posStat x) F.POS_STAT_UNCERT = true ∧
         Raised e (Pg.POS n) (if sh then Ev.SHD_ERR else Ev.QERR)) ∧
       (step = 0 → DevNext o s fun e => Frame { d with pos := e.pos } e [] ∧ alone e ∧
         e.posS x = { q with a := a, b := b, z := z, dataLow := !b, idxWait := false })) ∧
     (d.posMode x = mdHALL →
       let code := b2n a + 2 * b2n b + 4 * b2n z
       (d.hallSector x code = none → DevNext o s fun e => alone e ∧ e.posS x = { q with a := a, b := b, z := z, dataLow := !b, adj := 0 } ∧
         e.flag (posStat x) F.POS_STAT_VALID = false ∧ Raised e (Pg.POS n) (if sh then Ev.SHD_ERR else Ev.HALL_ERR)) ∧
       ∀ k p, d.hallSector x code = some k → q.sec = some p → k = (p + 1) % 6 → DevNext o s fun e => alone e ∧
         (e.posS x).sec = some k ∧ (e.posS x).adj = q.adj + 1 ∧ (e.posS x).ang = (k % 6 * 2 ^ 20 / 6 + d.posOfs x) % 2 ^ 20 ∧
         e.flag (posStat x) F.POS_STAT_VALID = true ∧ e.flag (posStat x) F.POS_STAT_DIR = false)) ∧
  (∀ (s : State) (n : Nat) (a b : Bool), s.Live → n < nPos s.dev.member → s.dev.posMode n = mdABZ → s.dev.posIdxEn n = true →
     let d := s.dev
     let q := d.posS n
     (q.a, q.b, q.z) = (a, b, false) → q.seen = false → d.posQual n < 4 ∨ (a = (d.posQual n / 2 % 2 == 1) ∧ b = (d.posQual n % 2 == 1)) →
     d.idxCorr n = false →
     DevNext (exec (.posEdgeAccept n a b true) s) s fun e =>
       Frame { d with pos := e.pos } e (posRegs n) ∧ (e.posS n).seen = true ∧ (e.posS n).cnt = q.cnt ∧
       (e.posS n).exp = (q.cnt % (d.posCpr n : Int)).toNat ∧ e.reg (R.POS_IDX_LATCH n) = wordOfInt q.cnt ∧
       e.flag (R.POS_STAT n) F.POS_STAT_VALID = true ∧ e.flag (R.POS_STAT n) F.POS_STAT_IDX_SEEN = true)

/-- R169, R171, R172: a held edge is delivered when UPD_MIN has passed, a decaying speed between edges, and zero speed with ZERO_SPD after
ZS; each delivery is the last edge's angle. The model's reading where the rules leave one open: log entry 32. -/
def Obligations.PositionUpdates : Prop :=
  ∀ (s : State) (n ts : Nat) (l : List Nat), s.Live → n < nPos s.dev.member → (s.dev.posS n).edges = ts :: l →
    s.dev.posMode n = mdABZ ∨ s.dev.posMode n = mdHALL →
    let d := s.dev
    let q := d.posS n
    let st := R.POS_STAT n
    let same := fun (e : Dev) => Frame (d.posPart e) e ([R.POS_ANG n, R.POS_SPD n, st] ++ trkRegs) ∧
      (∀ j, j ≠ n → e.posS j = d.posS j) ∧ e.posS n = { q with updAt := d.gtc + 1, edgePend := false }
    (q.edgePend = true → d.updMinPast n = true → DevNext (exec (.updMinExpiry n) s) s fun e =>
      same e ∧ Delivered d e n q.ang q.spd ts (ts + d.posFilt n + 4)) ∧
    (∀ t0 r, l = t0 :: r → d.flag (R.POS_CFG n) F.POS_CFG_DECAY_EN = true →
      d.updMinPast n = true → 2 * (ts - t0) < d.gtc - q.accAt → DevNext (exec (.decayUpdate n) s) s fun e =>
        same e ∧ Delivered d e n q.ang (some (edgeSpd (if q.back then -1 else 1) (d.gtc - ts) (d.edgeCpr n))) ts d.gtc) ∧
    (d.posZs n ≠ 0 → d.flag st F.POS_STAT_STOPPED = false → q.accAt + 400 * d.posZs n ≤ d.gtc →
      DevNext (exec (.zeroSpd n) s) s fun e => same e ∧ Delivered d e n q.ang (some 0) ts d.gtc ∧
        e.flag st F.POS_STAT_STOPPED = true ∧ Raised e (Pg.POS n) Ev.ZERO_SPD)

/-- R162, R173 to R176: a request delivers the latest edge of an edge decoder at once, and begins a frame of a serial encoder, refused
with POS_OVERRUN while one runs; the frame's word is judged when its bits have come, and a frame without a start bit times out. The
model's reading where the rules leave one open: log entry 31. -/
def Obligations.PositionRequests : Prop :=
  ∀ (s : State), s.Live →
    (∀ (k : Nat) (r : Firing) (d : Dev), s.dev.takeFiring k 6 = some (r, d) → r.span = 0 → r.target < nPos d.member →
      let n := r.target
      let q := d.posS n
      let st := R.POS_STAT n
      (∀ ts l, d.posMode n = mdABZ ∨ d.posMode n = mdHALL → q.edges = ts :: l →
        DevNext (exec (.posReq k) s) s fun e => Delivered d e n q.ang q.spd ts d.gtc) ∧
      (d.posMode n = mdSSI ∨ d.posMode n = mdBISS →
        (q.frame = none → q.dataLow = false → fmtOk (d.posFmt n) = true → DevNext (exec (.posReq k) s) s fun e =>
          Frame (d.setPos n { q with frame := some d.gtc, ack := false, start := none }) e [st] ∧ e.flag st F.POS_STAT_BUSY = true ∧
          e.flag st F.POS_STAT_CFG_ERR = false) ∧
        (q.frame ≠ none ∨ q.dataLow = true → DevNext (exec (.posReq k) s) s fun e =>
          Frame d e [st, R.POS_ERRCNT n] ∧ Raised e (Pg.POS n) Ev.POS_OVERRUN))) ∧
    ∀ n f, n < nPos s.dev.member → (s.dev.posS n).frame = some f →
      let d := s.dev
      let bits := fmtBits (d.posFmt n)
      let tout := d.get (R.POS_SER_TIME n) F.POS_SER_TIME_TOUT
      (∀ word, d.posMode n = mdSSI → f + (bits + 1) * d.serT n + d.posSdly n ≤ d.gtc →
        DevNext (exec (.ssiWord n word) s) s fun e =>
          WordJudged d e n word (f + d.posLat n) !(fmtBad (d.posFmt n) word)) ∧
      (∀ start word crc, d.posMode n = mdBISS → start * d.serT n + d.posSdly n ≤ tout →
        f + (start + bits + 7) * d.serT n + d.posSdly n ≤ d.gtc →
        DevNext (exec (.bissWord n start word crc) s) s fun e =>
          WordJudged d e n word (f + d.posLat n) (!(fmtBad (d.posFmt n) word) && crc == 63 - crc6 bits word)) ∧
      (d.posMode n = mdBISS → (d.posS n).start = none → f + tout ≤ d.gtc → DevNext (exec (.posTimeout n) s) s fun e =>
        Frame (d.setPos n { d.posS n with frame := none }) e [R.POS_STAT n, R.POS_ERRCNT n] ∧
        e.flag (R.POS_STAT n) F.POS_STAT_BUSY = false ∧ Raised e (Pg.POS n) Ev.POS_TIMEOUT)

/-- R178, R179, R181: two accumulators that have committed one window each give a resolver word, one that mixes windows is a mismatch, a
flagged one or one outside the amplitude limits a loss of signal; an excitation read back wrong in four periods in a row raises EXC_FAULT,
EXC_PHASE restarts an output's period, a shadow without crossings loses its angle. R165, R183, R184, R186: UNC_CLR by the page's owner
clears UNCERT of an encoder without index; a running emulation output moves by one count towards its track's angle, no faster than
MIN_EDGE. -/
def Obligations.Resolvers : Prop :=
  (∀ (s : State), s.Live →
     let d := s.dev
     (∀ n, n < nPos d.member → d.posMode n = mdRES →
       let q := d.posS n
       let st := R.POS_STAT n
       let i := d.get (R.POS_RES_CFG n) F.POS_RES_CFG_ACC_SIN
       let j := d.get (R.POS_RES_CFG n) F.POS_RES_CFG_ACC_COS
       let p := d.accS i
       let r := d.accS j
       let y := mantW (d.reg (R.ACC_RES0 i))
       let x := mantW (d.reg (R.ACC_RES0 j))
       let lo : Int := 8 * (d.get (R.POS_RES_AMP n) F.POS_RES_AMP_AMP_LO : Nat)
       let hi : Int := 8 * (d.get (R.POS_RES_AMP n) F.POS_RES_AMP_AMP_HI : Nat)
       let out := y * y + x * x < lo * lo ∨ hi * hi < y * y + x * x
       let same := fun (e : Dev) => Frame { d.posPart e with free := e.free } e (posRegs n ++ trkRegs) ∧
         (∀ k, k ≠ n → e.posS k = d.posS k) ∧ (e.posS n).useS = p.cAt ∧ (e.posS n).useC = r.cAt
       (384 ≤ i ∨ 384 ≤ j ∨ d.accExp0 i ≠ d.accExp0 j → d.resFresh q.useS i = true → d.resFresh q.useC j = true →
         exec (.resolverWord n) s = .next (s.withDev ((d.resSync n).putB st F.POS_STAT_CFG_ERR true))) ∧
       (d.resFresh q.useS i = false ∨ d.resFresh q.useC j = false → exec (.resolverWord n) s = .next s) ∧
       (i < 384 → j < 384 → d.accExp0 i = d.accExp0 j → q.useS < p.cAt → q.useC < r.cAt → max p.cAt r.cAt + 1 ≤ d.gtc →
         (p.cAt ≠ r.cAt ∨ p.cOpen ≠ r.cOpen → DevNext (exec (.resolverWord n) s) s fun e =>
           same e ∧ Raised e (Pg.POS n) Ev.RES_MISMATCH ∧ e.flag st F.POS_STAT_VALID = d.flag st F.POS_STAT_VALID) ∧
         (p.cAt = r.cAt → p.cOpen = r.cOpen →
           (d.accLos i = true ∨ d.accLos j = true ∨ out → DevNext (exec (.resolverWord n) s) s fun e =>
             same e ∧ Raised e (Pg.POS n) Ev.RES_LOS ∧ e.flag st F.POS_STAT_VALID = false) ∧
           (d.accLos i = false → d.accLos j = false → ¬out → DevNext (exec (.resolverWord n) s) s fun e =>
             same e ∧ e.flag st F.POS_STAT_VALID = true ∧ ∃ ang : Nat, (¬(y = 0 ∧ x = 0) → ang = atan2Ang20 y x) ∧
               let m := (ang + d.posOfs n) % 2 ^ 20
               let ts := (p.cOpen + p.cClose) / 2
               (e.posS n).words = ((ts, m) :: q.words).take 256 ∧
               Delivered d e n m (wordSpd m ts (d.posSpdM n) q.words) ts d.gtc)))) ∧
     (∀ (k : Nat) (mvs : List Int), k < 4 → (d.excPhase k d.gtc).isSome = true → d.frozen Pg.EXC = false →
       let a : Int := 40 * (min 125 (d.get (R.EXC_AMP k) F.EXC_AMP_AMP) : Nat)
       let off := fun (mv : Int) => a < 4 * ((mv - a).natAbs : Int)
       (4 ≤ mvs.length → (∀ mv ∈ mvs.take 4, off mv) → DevNext (exec (.excFault k mvs) s) s fun e =>
         Quiet (d.putB (R.EXC_STAT k) F.EXC_STAT_FAULT true) e ∧ Raised e Pg.EXC Ev.EXC_FAULT) ∧
       (mvs.length < 4 ∨ (∃ mv ∈ mvs.take 4, ¬off mv) → exec (.excFault k mvs) s = .next s)) ∧
     (∀ (k : Nat) (r : Firing) (f : Dev) (phi per : Nat), d.takeFiring k 7 = some (r, f) → r.span = 0 → r.target < 4 →
       f.frozen Pg.EXC = false → f.excPhase r.target f.gtc = some (phi, per) → DevNext (exec (.excPhase k) s) s fun e =>
         Frame { f with exc := e.exc } e [] ∧ e.excPhase r.target f.gtc = some (0, per) ∧
         ∀ j, j ≠ r.target → e.excS j = f.excS j) ∧
     ∀ n, n < nPos d.member →
       let q := d.posS (16 + n)
       d.posMode (16 + n) = mdRES → q.crossPer ≠ 0 → q.lost = false → q.crossAt + 2 * q.crossPer ≤ d.gtc + 1 →
       DevNext (exec (.shadowExcLoss n) s) s fun e => Frame (d.setPos (16 + n) { q with lost := true }) e [R.SHD_STAT n] ∧
         e.flag (R.SHD_STAT n) F.POS_STAT_VALID = false ∧ Raised e (Pg.POS n) Ev.SHD_ERR) ∧
  (∀ (s : State), s.Live →
     let d := s.dev
     (∀ mid n, n < nPos d.member → d.takenAt mid (R.POS_STAT n) = true →
       (d.flag (R.POS_CFG n) F.POS_CFG_IDX_EN = false → DevNext (exec (.uncClr mid n) s) s fun e =>
         Frame d e [R.POS_STAT n] ∧ e.flag (R.POS_STAT n) F.POS_STAT_UNCERT = false ∧
         e.flag (R.POS_STAT n) F.POS_STAT_VALID = d.flag (R.POS_STAT n) F.POS_STAT_VALID) ∧
       (d.flag (R.POS_CFG n) F.POS_CFG_IDX_EN = true → DevNext (exec (.uncClr mid n) s) s (Quiet d))) ∧
     ∀ n, d.emuRuns n = true →
       let x := d.emuDist n
       x ≠ 0 → (d.flag (R.EMU_CFG n) F.EMU_CFG_HOLD = false ∨
         d.trkValid (d.get (R.EMU_CFG n) F.EMU_CFG_TRK) = true) →
       ((d.emuS n).stepAt = 0 ∨ (d.emuS n).stepAt + max 20 (d.get (R.EMU_EDGE n) F.EMU_EDGE_MIN_EDGE) ≤ d.gtc + 1) →
       DevNext (exec (.emuStep n) s) s fun e =>
         Frame (d.setEmu n { d.emuS n with stepAt := d.gtc + 1, prev := d.emuOut n }) e [R.EMU_STAT n] ∧
         e.emuOut n = (if 0 < x then (d.emuOut n + 1) % d.emuCpr n else (d.emuOut n + d.emuCpr n - 1) % d.emuCpr n))

/-! ### Loop engines -/

/-- R192, R193, R195, R220: CTX_RUN requests a normal pass, CTX_SPEC a speculative one, each ready at once where what it waits for is
fresh; a request over a pending pass is counted as OVERRUN; a wait past TOUT, with no commit due in that tick (R84), goes on with stale inputs or is dropped, as
TO_ACT says; a pass not started by LATE is dropped. -/
def Obligations.PassRequests : Prop :=
  ∀ (s : State), s.Live →
    (∀ (n : Nat) (r : Firing) (d : Dev), r.span = 0 → r.target < nCtx d.member → d.lecOn = true → d.ctxEn r.target = true →
      let c := r.target
      let q := d.ctxS c
      let others := fun (e : Dev) => ∀ j, j ≠ c → e.ctxS j = d.ctxS j
      let missed := fun (e : Dev) => Frame d e [R.CTX_RUNS c, R.LE_DROP (d.ctxEng c), R.LEC_FLAG (c / 32)] ∧
        Counted d e (R.CTX_RUNS c) F.CTX_RUNS_OVERRUN ∧ Raised e Pg.LEC Ev.CTX_OVERRUN
      (s.dev.takeFiring n 4 = some (r, d) →
        (q.pend = none → DevNext (exec (.ctxRun n) s) s fun e => Frame { d with ctx := e.ctx } e [] ∧ others e ∧
          e.ctxS c = { q with pend := some { f := d.gtc, ready := if q.spec = none ∧ d.allFresh c = true then some d.gtc else none } }) ∧
        (q.pend ≠ none → DevNext (exec (.ctxRun n) s) s missed)) ∧
      (s.dev.takeFiring n 5 = some (r, d) →
        (d.flag (R.CTX_CTRL c) F.CTX_CTRL_SPEC_EN = false →
          exec (.ctxSpec n) s = .next (s.withDev (d.putB (R.CTX_STAT c) F.CTX_STAT_SPEC_IGN true))) ∧
        (d.flag (R.CTX_CTRL c) F.CTX_CTRL_SPEC_EN = true → d.dutyGrp c < 20 → d.pageEn (Pg.PWT (d.dutyGrp c)) = true →
          d.flag (R.CTX_SPEC c) F.CTX_SPEC_PW_ERR = false →
          let susp := d.flag (R.CTX_SPEC c) F.CTX_SPEC_SUSP
          let at1 := if q.spec = none ∧ (susp = false ∨ d.allFresh c = true) then some d.gtc else none
          (q.pend = none → DevNext (exec (.ctxSpec n) s) s fun e => Frame { d with ctx := e.ctx } e [R.CTX_SPEC c] ∧ others e ∧
            (susp = false → q.spec = none → e.get (R.CTX_SPEC c) F.CTX_SPEC_STATE = 1) ∧
            e.ctxS c = { q with pend := some { f := d.gtc, spec := !susp, ready := at1 } }) ∧
          (q.pend ≠ none → DevNext (exec (.ctxSpec n) s) s missed)))) ∧
    ∀ (c : Nat) (p : PendSt), c < nCtx s.dev.member → (s.dev.ctxS c).pend = some p →
      let d := s.dev
      let q := d.ctxS c
      let late := (List.range 8).map fun i => (d.waitSlots c).contains i && !d.slotFresh c i
      let next := { p with stale := late, ready := if q.spec = none then some d.gtc else none }
      d.engHeld (d.ctxEng c) = false →
      (p.spec = false → p.stale = [] → p.ready = none → p.f + ctxTout d c ≤ d.gtc → d.freshBy c (p.f + ctxTout d c) = false →
        DevNext (exec (.ctxWaitTimeout c) s) s fun e =>
          Frame { d with ctx := e.ctx } e [R.CTX_RUNS c, R.LEC_FLAG (c / 32)] ∧ (∀ j, j ≠ c → e.ctxS j = d.ctxS j) ∧
          Counted d e (R.CTX_RUNS c) F.CTX_RUNS_TIMEOUT ∧ Raised e Pg.LEC Ev.CTX_TIMEOUT ∧
          e.ctxS c = { q with pend := if d.flag (R.CTX_CTRL c) F.CTX_CTRL_TO_ACT then some next else none }) ∧
      (ctxLate d c ≠ 0 → d.gtc % 8 = 0 → p.f + ctxLate d c < d.gtc →
        DevNext (exec (.ctxDrop c) s) s fun e =>
          Frame { d with ctx := e.ctx } e [R.CTX_RUNS c, R.LE_DROP (d.ctxEng c), R.CTX_SPEC c, R.LEC_FLAG (c / 32)] ∧
          (∀ j, j ≠ c → e.ctxS j = d.ctxS j) ∧ e.ctxS c = { q with pend := none } ∧
          Counted d e (R.CTX_RUNS c) F.CTX_RUNS_DROP ∧ Counted d e (R.LE_DROP (d.ctxEng c)) F.LE_DROP_DROP ∧
          Raised e Pg.LEC Ev.CTX_DROP)

/-- R191, R194, R197, R205, R206: at a frame boundary a free engine takes the earliest ready pass and its snapshot; at T_c the pass
commits the result of the stages on that snapshot, all words at once, and hands its duties to its group. R208, R209, R211, R241: a write
of EN = 1 to a context enables it where every check passes, else shows the first cause that fails; EN = 0 discards its pending pass; SUSP
is cleared by a 1, with FB_RUN; the scrub, a pass or a read counts a corrected word and abandons and disables the context of an
uncorrectable one. The model's reading where the rules leave one open: log entry 194. -/
def Obligations.Passes : Prop :=
  (∀ (s : State), s.Live →
     let d := s.dev
     (∀ (n c f : Nat) (p : PendSt), n < nEngines d.member → d.engOn n = true → d.gtc % 8 = 0 →
       d.get (R.LE_STAT n) F.LE_STAT_RUN_CTX = 0xFF → d.rplBusy n = false → earliest (d.startable n) = some (f, c) →
       (d.ctxS c).pend = some p →
       (d.passBad c ≠ [] → DevNext (exec (.passStart n) s) s fun e => (e.ctxS c).pend = none ∧
         e.get (R.LE_STAT n) F.LE_STAT_RUN_CTX = 0xFF ∧ ∀ x ∈ d.passBad c, e.flag (R.CTX_CTRL x) F.CTX_CTRL_EN = false ∧ e.flag (R.CTX_STAT x) F.CTX_STAT_ECC_ERR = true ∧
           Raised e Pg.LEC Ev.CTX_ECC) ∧
       (d.passBad c = [] → ∀ x w, x < nCtx d.member → w ∈ (d.ctxS x).soft → d.passReads c x w = true →
         DevNext (exec (.passStart n) s) s fun e => Raised e Pg.LEC Ev.LE_ECC_CORR ∧ w ∉ (e.ctxS x).soft ∧
           e.get (R.LE_STAT n) F.LE_STAT_RUN_CTX = c) ∧
       ((d.ctxS c).preset = none → d.passBad c = [] → (∀ x, x < nCtx d.member → (d.ctxS x).soft.any (d.passReads c x) = false) →
       DevNext (exec (.passStart n) s) s fun e =>
         let snap := (d.snapshot c p.stale).1
         let tc := d.gtc + 8 * d.get (R.CTX_STAT c) F.CTX_STAT_D
         let run : RunSt := { eng := Fin.ofNat 8 n, f := p.f, spec := p.spec, tc := tc, snap := snap, res := (snap.eval p.spec []).1 }
         Frame { d with ctx := e.ctx } e [R.LE_STAT n, R.LE_MAXWAIT n, R.CTX_STAT c, R.LEC_FLAG (c / 32)] ∧
         (∀ j, j ≠ c → e.ctxS j = d.ctxS j) ∧ (e.ctxS c).pend = none ∧ e.get (R.LE_STAT n) F.LE_STAT_RUN_CTX = c ∧
         (e.ctxS c).run = some run)) ∧
     ∀ (c : Nat) (r : RunSt), c < nCtx d.member → (d.ctxS c).run = some r → r.spec = false → r.tc ≤ d.gtc →
       d.devState ≠ DS.FATAL → d.engHeld (d.ctxEng c) = false → r.res.wf →
       DevNext (exec (.passCommit c) s) s fun e =>
         Frame { d with ctx := e.ctx, grp := e.grp, trk := e.trk, sync := e.sync, tm := e.tm } e (passRegs c r.eng) ∧
         (∀ j, j ≠ c → e.ctxS j = d.ctxS j) ∧ Mended (d.ctxS c) (e.ctxS c) r.res.writes ∧
         e.ctxS c = { d.ctxS c with run := none, cAt := d.gtc + 1, bad := (e.ctxS c).bad, soft := (e.ctxS c).soft } ∧
         e.get (R.LE_STAT r.eng) F.LE_STAT_RUN_CTX = 0xFF ∧ Committed d e c r.snap.tr r.snap.stale r.res ∧
         (d.dutyGrp c < 20 → d.pwmEn (d.dutyGrp c) = true → d.pwmDsrc (d.dutyGrp c) = true →
           (e.grpS (d.dutyGrp c)).nextVec = some (passDuties r.res 0, d.gtc))) ∧
  (∀ (s : State), s.Live →
     let d := s.dev
     (∀ (mid c : Nat) (w : Word), c < nCtx d.member → d.takenAt mid (R.CTX_CTRL c) = true →
       let a := R.CTX_CTRL c
       let st := R.CTX_STAT c
       let was := d.flag a F.CTX_CTRL_EN
       let x := d.plainWrite mid a (setF w F.CTX_CTRL_EN (b2n was))
       let q : CtxSt := (d.ctxS c).mend (· == 0)
       let others := fun (e : Dev) => ∀ j, j ≠ c → e.ctxS j = d.ctxS j
       (d.flag R.RPL_STAT F.RPL_STAT_DIRTY = false →
         (x.ctxCause c ≠ 0 → DevNext (exec (.ctxEnable mid c w) s) s fun e =>
           Frame { d with ctx := e.ctx } e [a, st, R.CTX_SPEC c, R.LEC_FLAG (c / 32), R.PG_STAT (Pg.CTX (c / 8))] ∧ others e ∧
           e.flag a F.CTX_CTRL_EN = false ∧ e.ctxS c = (if was then { q with pend := none } else q) ∧
           e.flag st F.CTX_STAT_CFG_ERR = true ∧ e.get st F.CTX_STAT_CAUSE = x.ctxCause c ∧ Raised e Pg.LEC Ev.CTX_CFG_ERR) ∧
         (x.ctxCause c = 0 → DevNext (exec (.ctxEnable mid c w) s) s fun e =>
           Frame { d with ctx := e.ctx } e [a, st, R.CTX_SPEC c, R.PG_STAT (Pg.CTX (c / 8))] ∧ others e ∧
           e.flag a F.CTX_CTRL_EN = true ∧ e.flag st F.CTX_STAT_CFG_ERR = false ∧ e.get st F.CTX_STAT_CAUSE = 0 ∧
           e.get st F.CTX_STAT_D = passFrames (x.ctxWords c) % 256 ∧
           e.ctxS c = { q with prog := e.rawWords c, seen := (e.ctxS c).seen } ∧
           if was then (e.ctxS c).seen = q.seen else ∀ i, i < 8 → spGet 0 (e.ctxS c).seen i = d.slotCount c i)) ∧
       (was = true → DevNext (exec (.ctxDisable mid c w) s) s fun e =>
         Frame { d with ctx := e.ctx } e [a, R.CTX_SPEC c, R.PG_STAT (Pg.CTX (c / 8))] ∧ others e ∧
         e.flag a F.CTX_CTRL_EN = false ∧ e.ctxS c = { q with pend := none })) ∧
     (∀ mid c, c < nCtx d.member → d.takenAt mid (R.CTX_SPEC c) = true →
       DevNext (exec (.specSuspClear mid c) s) s fun e => Frame { d with ctx := e.ctx } e [R.CTX_SPEC c] ∧
         (∀ j, j ≠ c → e.ctxS j = d.ctxS j) ∧ e.ctxS c = (d.ctxS c).mend (· == 10) ∧
         e.flag (R.CTX_SPEC c) F.CTX_SPEC_SUSP = false ∧ e.get (R.CTX_SPEC c) F.CTX_SPEC_FB_RUN = 0 ∧
         ∀ f ∈ [F.CTX_SPEC_STATE, F.CTX_SPEC_OUTCOME, F.CTX_SPEC_FB_MAX, F.CTX_SPEC_FB_CNT, F.CTX_SPEC_NPRED],
           e.get (R.CTX_SPEC c) f = d.get (R.CTX_SPEC c) f) ∧
     (∀ err ups, d.scrubDue = false → exec (.ctxScrub ⟨err, ups⟩) s = .next s) ∧
     (∀ err ups, d.scrubDue = true → d.frozen Pg.LEC = false → DevNext (exec (.ctxScrub ⟨err, ups⟩) s) s fun e =>
       ∀ u ∈ ups, d.ctxPresent u.ctx = true → u.two = true → u.word < 112 → u.word ∈ (e.ctxS u.ctx).bad) ∧
     (d.scrubDue = true → d.frozen Pg.LEC = false → d.scrubCtx < nCtx d.member →
       d.scrubWord ∉ (d.ctxS d.scrubCtx).bad → d.scrubWord ∉ (d.ctxS d.scrubCtx).soft →
       let c := d.scrubCtx
       let x : Dev := { d with sys := { d.sys with scrubbed := d.gtc + 8 } }
       let engs := (d.ctxS c).run.toList.map (fun r => R.LE_STAT r.eng) ++ (d.ctxS c).spec.toList.map fun q => R.LE_STAT q.reng
       exec (.ctxScrub ⟨.ok, []⟩) s = .next (s.withDev x) ∧
       DevNext (exec (.ctxScrub ⟨.corrected, []⟩) s) s (fun e => Frame { x with ctx := e.ctx } e [R.LEC_ECC] ∧
         (∀ j, e.ctxS j = d.ctxS j) ∧ Counted d e R.LEC_ECC F.LEC_ECC_CORR ∧ Raised e Pg.LEC Ev.LE_ECC_CORR) ∧
       DevNext (exec (.ctxScrub ⟨.uncorrectable, []⟩) s) s (fun e =>
         Frame { x with ctx := e.ctx, grp := e.grp } e ([R.CTX_CTRL c, R.CTX_STAT c, R.CTX_SPEC c, R.LEC_ECC, R.LEC_FLAG (c / 32)]
           ++ engs ++ (List.range 20).map R.PWT_CNT) ∧
         (∀ j, j ≠ c → e.ctxS j = d.ctxS j) ∧
         (let q := e.ctxS c
          q = { d.ctxS c with pend := none, run := none, spec := none, bad := q.bad, soft := q.soft } ∧
            (∀ w ∈ q.bad, w = d.scrubWord ∨ w ∈ (d.ctxS c).bad) ∧ ((d.ctxS c).spec = none ∨ d.scrubWord < 112 → d.scrubWord ∈ q.bad)) ∧
         e.flag (R.CTX_CTRL c) F.CTX_CTRL_EN = false ∧ e.flag (R.CTX_STAT c) F.CTX_STAT_ECC_ERR = true ∧
         Counted d e R.LEC_ECC F.LEC_ECC_UNCORR ∧ e.get R.LEC_ECC F.LEC_ECC_LAST_CTX = c ∧ Raised e Pg.LEC Ev.CTX_ECC)))

/-- R224, R234, R235: a speculative pass is staged at T_st and commits nothing; a queued recompute starts where it ends before the
horizon, else its speculation falls back; at its end it commits the result with the measured windows. -/
def Obligations.Speculation : Prop :=
  ∀ (s : State), s.Live →
    let d := s.dev
    let fell := fun (e : Dev) (c cause : Nat) => (e.ctxS c).spec = none ∧ e.get (R.CTX_SPEC c) F.CTX_SPEC_OUTCOME = 3 ∧
      e.get (R.CTX_SPEC c) F.CTX_SPEC_CAUSE = cause ∧ Raised e Pg.LEC Ev.SPEC_FALLBACK
    (∀ (c : Nat) (r : RunSt) (q : SpecSt), c < nCtx d.member → (d.ctxS c).run = some r → (d.ctxS c).spec = some q → r.spec = true →
      r.tc ≤ d.gtc → d.devState ≠ DS.FATAL → d.engHeld (d.ctxEng c) = false → q.rq = none → (∀ w ∈ q.wins, w.lost = false ∧ w.fOpen ≠ none) →
      ((∀ h, d.ctxH c = some h → d.gtc ≤ h ∧ ∀ w ∈ q.wins, ∀ t, w.done = some t → t ≤ h) → (∃ w ∈ q.wins, w.done = none) →
        DevNext (exec (.specStage c) s) s fun e =>
          Frame { d with ctx := e.ctx } e [R.LE_STAT r.eng, R.CTX_SPEC c] ∧ (∀ j, j ≠ c → e.ctxS j = d.ctxS j) ∧
          e.ctxS c = { (d.ctxS c).mend (112 ≤ ·) with run := none, spec := some { q with tst := some d.gtc } } ∧
          e.get (R.CTX_SPEC c) F.CTX_SPEC_STATE = 2 ∧ e.get (R.LE_STAT r.eng) F.LE_STAT_RUN_CTX = 0xFF) ∧
      (∀ h, d.ctxH c = some h → h < d.gtc → DevNext (exec (.specStage c) s) s fun e =>
        Frame { d with ctx := e.ctx, grp := e.grp } e ([R.LE_STAT r.eng, R.CTX_SPEC c] ++ (List.range 20).map R.PWT_CNT) ∧
        (∀ j, j ≠ c → e.ctxS j = d.ctxS j) ∧ (e.ctxS c).run = none ∧ fell e c 4)) ∧
    (∀ (n c t : Nat) (q : SpecSt), n < nEngines d.member → d.engOn n = true → d.gtc % 8 = 0 →
      d.get (R.LE_STAT n) F.LE_STAT_RCP_CTX = 0xFF → earliest (d.recompQueue n) = some (t, c) → (d.ctxS c).spec = some q →
      let fin := d.gtc + 8 * q.recompFrames
      ((∀ h, d.ctxH c = some h → fin ≤ h) → DevNext (exec (.recomputeStart n) s) s fun e =>
        Frame { d with ctx := e.ctx } e [R.LE_STAT n] ∧ (∀ j, j ≠ c → e.ctxS j = d.ctxS j) ∧
        e.ctxS c = { d.ctxS c with spec := some { q with rend := some fin, reng := Fin.ofNat 8 n } } ∧
        e.get (R.LE_STAT n) F.LE_STAT_RCP_CTX = c ∧ Raised e Pg.LEC Ev.SPEC_RECOMPUTE) ∧
      (∀ h, d.ctxH c = some h → h < fin → DevNext (exec (.recomputeStart n) s) s fun e => fell e c 6)) ∧
    ∀ (c t : Nat) (q : SpecSt), c < nCtx d.member → (d.ctxS c).spec = some q → q.rend = some t → t ≤ d.gtc →
      d.devState ≠ DS.FATAL → d.engHeld (d.ctxEng c) = false → (d.recompResult q).wf →
      DevNext (exec (.recomputeCommit c) s) s fun e =>
        Frame { d with ctx := e.ctx, grp := e.grp, trk := e.trk, sync := e.sync, tm := e.tm } e (passRegs c q.reng) ∧
        (∀ j, j ≠ c → e.ctxS j = d.ctxS j) ∧ (e.ctxS c).spec = none ∧ e.get (R.LE_STAT q.reng) F.LE_STAT_RCP_CTX = 0xFF ∧
        e.get (R.CTX_SPEC c) F.CTX_SPEC_OUTCOME = 2 ∧ e.get (R.CTX_SPEC c) F.CTX_SPEC_FB_RUN = 0 ∧
        Committed d e c q.snap.tr q.snap.stale (d.recompResult q)

/-! ### PWM -/

/-- R273, R278, R296, R301: its page's owner enables a group that passes the checks, which gives it its first valley, or sees the first
cause that fails; at the first valley it runs; disabled, it stops with its secondary, every switch off 4 ticks later. R281: a commit moves
the staged duties into the shadow of a running group. R270, R274, R280, R292: eight ticks before a load point the shadow is captured where
it was entered in time, and the period fixed; at the load point the group shows period and valley, forced states take effect, and the next
load point is known. -/
def Obligations.PwmGroups : Prop :=
  (∀ (s : State) (mid g : Nat), s.Live → g < 20 → groupPresent s.dev.member g = true →
     let d := s.dev
     let b := if g < 12 then Block.pwtB else Block.pwaB
     let pg := Pg.PWT g
     let st := R.PWT_STAT g
     let alone := fun (e : Dev) => ∀ j, j ≠ g → e.grpS j = d.grpS j
     (d.asS0 mid b = true → d.ownOk mid (.page pg) = true →
       (d.pageEn pg = false →
         (d.enableCause g ≠ 0 → DevNext (exec (.pwmGroupEnable mid g) s) s fun e => Frame d e [st] ∧
           e.flag st F.PWT_STAT_CFG_ERR = true ∧ e.get st F.PWT_STAT_CAUSE = d.enableCause g ∧ Raised e pg Ev.PWM_CFG_ERR) ∧
         (d.enableCause g = 0 → DevNext (exec (.pwmGroupEnable mid g) s) s fun e =>
           Frame { d with grp := e.grp } e [st, R.PG_CTRL pg] ∧ alone e ∧ e.pageEn pg = true ∧
           e.flag st F.PWT_STAT_CFG_ERR = false ∧ e.get st F.PWT_STAT_CAUSE = 0 ∧ e.flag st F.PWT_STAT_VALID = false ∧
           (e.grpS g).enAt = d.gtc ∧ (e.grpS g).vec = none ∧ (e.grpS g).nextVec = none ∧ (e.grpS g).capd = false ∧
           (e.grpS g).load = match d.primOf g with
             | none => some (firstValley d.gtc (d.pwmPer g) (d.get (R.PWT_PHASE g) F.PWT_PHASE_PHASE), false)
             | some _ => ((d.grpS g).vq.find? fun x => decide (d.gtc + 16 ≤ x.1)).map fun x => (x.1, false))) ∧
       (d.pageEn pg = true → DevNext (exec (.pwmGroupDisable mid g) s) s fun e =>
         Frame { d with grp := e.grp } e (stopRegs g ++ ((d.secOf g).map stopRegs).getD []) ∧
         (∀ j, j ≠ g → d.secOf g ≠ some j → e.grpS j = d.grpS j) ∧ GroupStopped d e g ∧
         ∀ h, d.secOf g = some h → d.pwmEn h = true → GroupStopped d e h)) ∧
     (∀ l, (d.grpS g).load = some (l, false) → d.pageEn pg = true → d.frozen pg = false → l ≤ d.gtc →
       exec (.pwmGroupStart g) s = .next (s.withDev (d.putB st F.PWT_STAT_RUN true))) ∧
     (d.takenAt mid (R.PWT_COMMIT g) = true → d.pwmDsrc g = false → d.pageEn pg = true →
       DevNext (exec (.pwtCommit mid g) s) s fun e => Frame { d with grp := e.grp } e [st] ∧ alone e ∧
         e.grpS g = { d.grpS g with nextVec := some (d.staged g, d.gtc), comm := some (d.staged g), commIdx := 0 } ∧
         e.flag st F.PWT_STAT_VALID = true ∧ (∀ v ∈ d.staged g, dutyClamped v = true → e.flag st F.PWT_STAT_DCLAMP = true))) ∧
  (∀ (s : State) (g : Nat), s.Live → g < 20 →
     let d := s.dev
     let r := d.grpS g
     (∀ l pk, d.NoSpec → d.captureDue g = some (l, pk) → DevNext (exec (.captureTick g) s) s fun e =>
       FrameP { d with grp := e.grp, ctx := e.ctx } e ([g, g + 1].map Pg.PWT) ∧
       (∀ j, j ≠ g → d.secOf g ≠ some j → e.grpS j = d.grpS j) ∧
       (e.grpS g).capd = true ∧ (e.grpS g).load = some (l, pk) ∧ (e.grpS g).idx = r.idx + 1 ∧
       (∀ v t, r.nextVec = some (v, t) → t + 9 ≤ l → (e.grpS g).vec = some v ∧ (e.grpS g).nextVec = none) ∧
       ((∀ v t, r.nextVec = some (v, t) → l < t + 9) → d.isTarget g l = false →
         (e.grpS g).vec = r.vec ∧ (e.grpS g).nextVec = r.nextVec) ∧
       (pk = true → (e.grpS g).v = r.v ∧ (e.grpS g).p = r.p) ∧ (pk = false → (e.grpS g).v = l) ∧
       (pk = false → d.primOf g = none → d.pwmMode g = 0 → (e.grpS g).p = d.pwmPer g)) ∧
     (∀ pk, d.loadDue g = some pk → d.frozen (Pg.PWT g) = false → DevNext (exec (.loadPoint g) s) s fun e =>
       FrameP { d with grp := e.grp, cmp := e.cmp, dl := e.dl, mach := e.mach, safe := { d.safe with keep := e.safe.keep } } e
         [Pg.PWT g, Pg.PWG, Pg.GDT, Pg.GDA, Pg.CMP 0, Pg.CMP 1, Pg.SAFE] ∧
       (e.grpS g).capd = false ∧ (e.grpS g).load = d.nextLoad g pk ∧
       (pk = false → r.p < 2 ^ 20 →
         e.get (R.PWT_PERIOD g) F.PWT_PERIOD_P = r.p ∧ e.reg (R.PWT_VALLEY g) = BitVec.ofNat 32 r.v) ∧
       ∀ x, x < 3 → (e.legS g x).force = (d.legS g x).fNext ∧ (e.legS g x).wait = false))

/-- R286, R292, R288, R289, R146: a forced state waits for a load point, or with IMM takes effect 4 ticks after the write: both switches
off, one of them on; a due edge changes its switch, and where a pin of the group has changed the comparators that watch it are blanked; a
calibrated delay line has its table, a bad or late one fails. The model's reading where the rules leave one open: log entry 182. -/
def Obligations.PwmEdges : Prop :=
  ∀ (s : State), s.Live →
    let d := s.dev
    (∀ (g x : Nat), g < 20 → x < 3 →
      let q := d.legS g x
      let alone := fun (e : Dev) => (∀ j, j ≠ g → e.grpS j = d.grpS j) ∧ ∀ y, y ≠ x → e.legS g y = d.legS g y
      (∀ (mid : Nat) (w : Word), d.takenAt mid (R.PWT_LEG g x) = true → groupPresent d.member g = true →
        let code := getF w F.PWT_LEG_FORCE
        DevNext (exec (.legForceWrite mid g x w) s) s fun e =>
          Frame { d with grp := e.grp } e [R.PWT_LEG g x, R.PG_STAT (Pg.PWT g)] ∧ alone e ∧
          e.get (R.PWT_LEG g x) F.PWT_LEG_FORCE = code ∧
          e.legS g x = if d.pwmEn g ∧ bitOf w 29 ∧ code ≠ 0 then { q with imm := some (code, d.gtc + 4), fPend := none }
            else { q with fPend := some (code, d.gtc), imm := none }) ∧
      (∀ c t, q.imm = some (c, t) → t ≤ d.gtc → c < 4 → d.frozen (Pg.PWT g) = false → DevNext (exec (.forceImmediate g x) s) s fun e =>
        Frame { d with grp := e.grp } e [R.PWT_CARRY g x, R.PWT_STAT g] ∧ alone e ∧
        (e.legS g x).force = c ∧ (e.legS g x).imm = none ∧ (c ≠ 0 → e.carry g x = 0 ∧ ((d.grpS g).asc = false →
          ∀ hi, upAfter (e.grpS g).edges (q.lv hi) x hi = (c == if hi then 3 else 2)))) ∧
      ∀ (hi : Bool) (y : EdgeSt) (f : Dev),
        d.frozen (Pg.PWT g) = false →
        (d.grpS g).edges.find? (fun z => z.leg == x && z.hi == hi && decide (d.edgeDue g z ≤ d.gtc)) = some y →
        d.takeEdge g x hi = some f →
        let low := decide (12 ≤ g) && d.pinSw g x hi && d.flag (gdLstat g) (F.GDA_LSTAT_UV x)
        Frame { d with grp := f.grp, dl := f.dl } f [] ∧ alone f ∧ (f.grpS g).edges = (d.grpS g).edges.erase y ∧
        (f.legS g x).lv hi = (y.on && !low) ∧ (f.legS g x).lv (!hi) = q.lv (!hi) ∧ (y.on = false → (f.legS g x).off hi = some y.t) ∧
        (f.pinsMoved g = false → exec (.switchEdge g x hi) s = .next (s.withDev f)) ∧
        (f.pinsMoved g = true → DevNext (exec (.switchEdge g x hi) s) s fun e =>
          FrameP { f with grp := e.grp, cmp := e.cmp } e [Pg.CMP 0, Pg.CMP 1, Pg.GDT, Pg.GDA] ∧
          (∀ z, (e.legS g x).lv z = (f.legS g x).lv z) ∧ ∀ c, c < nCmp d.member →
            let len := d.get (R.CMP_BLANK c) F.CMP_BLANK_AUTO_LEN
            d.flag (R.CMP_BLANK c) F.CMP_BLANK_AUTO_EN = true → d.get (R.CMP_BLANK c) F.CMP_BLANK_AUTO_GRP = g → len ≠ 0 →
            d.frozen (Pg.CMP (c / 36)) = false →
            (e.cmpS c).edgeEnd = some (d.gtc + len) ∧ ((d.cmpS c).capped = false → e.flag (R.CMP_STAT c) F.CMP_STAT_BLANKED = true))) ∧
    ∀ (o line : Nat), d.dlCalOk o line = true → d.frozen Pg.PWG = false →
      let q := d.dlS o
      let failed := fun (e : Dev) => Frame { d with dl := e.dl } e [R.PWG_DL_FAIL0 + 4 * (o / 32), R.PWG_DL_STAT] ∧
        (∀ j, j ≠ o → e.dlS j = d.dlS j) ∧ e.dlS o = (if line = 0 then { q with bad0 := true } else { q with bad1 := true }) ∧
        bitOf (e.reg (R.PWG_DL_FAIL0 + 4 * (o / 32))) (o % 32) = true ∧ bitOf (e.reg R.PWG_DL_STAT) (o / 6) = true ∧
        Raised e Pg.PWG Ev.PWM_DL_FAIL
      (∀ l, dlBad l = true → DevNext (exec (.dlCalibrationDone o line l) s) s failed) ∧
      DevNext (exec (.dlCalibrationTimeout o line) s) s failed ∧
      (∀ l, dlBad l = false → DevNext (exec (.dlCalibrationDone o line l) s) s fun e =>
        Frame { d with dl := e.dl } e [R.PWG_DL_STAT] ∧ (∀ j, j ≠ o → e.dlS j = d.dlS j) ∧
        e.dlS o = if line = 0 then { q with tab0 := dlTable l, cal0 := true } else { q with tab1 := dlTable l, cal1 := true })

/-! ### Gate drive -/

/-- R302, R303: an accepted DRDYgg ends the ready wait, a wait past DRDY_TOUT leaves the gate closed and sends an arming machine back; a
loss during a grant releases every leg with cause 5, a removal that is not seen within ENA_OFF with cause 6; a fall otherwise satisfies
the removal check. R317 to R320, R501: a low bootstrap is shown, and releases its leg where the policy says so; a refresh that restores it
ends the count, the third in a row that fails releases the leg; VGD too low releases every auxiliary leg; its return and an overvoltage
set and clear VGD_OK. The model's reading where the rules leave one open: log entries 24 and 26. -/
def Obligations.GateReadiness : Prop :=
  (∀ (s : State) (g : Nat), s.Live → g < 12 → groupPresent s.dev.member g = true →
     let d := s.dev
     let r := d.grpS g
     let pins := R.GDT_PINS g
     let alone := fun (e : Dev) => ∀ j, j ≠ g → e.grpS j = d.grpS j
     let granted := r.rdyAcc && d.genP g && d.flag (R.GDT_GCFG g) F.GDT_GCFG_DRDY_EN
     let lim := 4000 * max (d.get (R.GDT_GCFG g) F.GDT_GCFG_DRDY_TOUT) 1
     (d.frozen Pg.GDT = false →
       (r.waitAt = none → DevNext (exec (.drdyReady g) s) s fun e => Frame { d with grp := e.grp } e [pins] ∧ alone e ∧
         e.drdy g = true ∧ e.grpS g = { r with rdyAcc := d.genP g && !r.shut }) ∧
       (∀ t, r.waitAt = some t → d.gtc ≤ t + lim → DevNext (exec (.drdyReady g) s) s fun e =>
         Frame { d with grp := e.grp, sync := e.sync } e [pins, R.TL_ZS_INFO] ∧ alone e ∧ e.drdy g = true ∧
         e.grpS g = { r with waitAt := none, rdyAcc := true, shut := false }) ∧
       (∀ t, r.waitAt = some t → t + lim < d.gtc →
         exec (.drdyReady g) s = .next (s.withDev (d.putB pins F.GDT_PINS_DRDY true)))) ∧
     (granted = true → DevNext (exec (.drdyLost g) s) s fun e =>
       Frame { d with grp := e.grp } e (pins :: relRegs g) ∧ e.drdy g = false ∧ Released d e g 7 5 ∧ Raised e Pg.GDT Ev.DRDY_LOST) ∧
     (granted = false → DevNext (exec (.drdyAcceptedLow g) s) s fun e => Frame { d with grp := e.grp } e [pins] ∧ alone e ∧
       e.drdy g = false ∧ e.grpS g = { r with rdyAcc := false, chkAt := none }) ∧
     (∀ t, r.chkAt = some t → t + 400 * max (d.get (R.GDT_GCFG g) F.GDT_GCFG_ENA_OFF) 1 ≤ d.gtc → d.drdy g = true → d.frozen Pg.GDT = false →
       DevNext (exec (.enaChkFail g) s) s fun e => Frame { d with grp := e.grp } e (relRegs g) ∧ (e.grpS g).chkAt = none ∧
         Released d e g 7 6 ∧ Raised e Pg.GDT Ev.ENA_CHK_FAIL) ∧
     ∀ t, r.waitAt = some t → t + lim ≤ d.gtc → d.frozen Pg.GDT = false →
       DevNext (exec (.drdyTout g) s) s fun e => Raised e Pg.GDT Ev.DRDY_TOUT ∧ (e.grpS g).waitAt = none ∧ e.drdy g = d.drdy g ∧
         (d.machOf g = none → Frame { d with grp := e.grp } e [R.GDT_FLAG] ∧ alone e ∧ (e.grpS g).shut = r.shut) ∧
         ∀ m, d.machOf g = some m → (d.machS m).target ≠ none → (d.machS m).armed = false →
           (e.machS m).target = none ∧ e.mState m = MS.STO ∧ Raised e Pg.SAFE Ev.MACH_ARM_FAIL) ∧
  (∀ (s : State), s.Live →
     let d := s.dev
     (∀ (n x mv : Nat), n < nAux d.member → x < 3 → d.frozen Pg.GDA = false →
       let g := n + 12
       let l := R.GDA_LSTAT n
       let uv := F.GDA_LSTAT_UV x
       DevNext (exec (.bstUv n x) s) s (fun e => Frame { d with grp := e.grp } e (relRegs g) ∧ e.flag l uv = true ∧
         Raised e Pg.GDA Ev.BST_UV ∧ (d.flag (R.GDA_GCFG n) F.GDA_GCFG_BST_POL = true → Released d e g (2 ^ x) 7) ∧
         (d.flag (R.GDA_GCFG n) F.GDA_GCFG_BST_POL = false → Frame d e [l, R.GDA_FLAG])) ∧
       (d.uvLevel n + 500 ≤ (mv : Int) → exec (.bstUvClear n x mv) s = .next (s.withDev (d.putB l uv false))) ∧
       ∀ t, (d.legS g x).rfSample = some t → t ≤ d.gtc →
         (d.uvLevel n + 500 ≤ (mv : Int) → DevNext (exec (.bstRefreshSample n x mv) s) s fun e =>
           Frame { d with grp := e.grp } e [l] ∧ e.legS g x = { d.legS g x with rfSample := none } ∧ e.flag l uv = false ∧
           e.get l (F.rfCnt x) = 0) ∧
         ((mv : Int) < d.uvLevel n + 500 → DevNext (exec (.bstRefreshSample n x mv) s) s fun e =>
           Frame { d with grp := e.grp } e (relRegs g) ∧ (e.legS g x).rfSample = none ∧ e.flag l uv = d.flag l uv ∧
           Counted d e l (F.rfCnt x) ∧
           (2 ≤ d.get l (F.rfCnt x) → Released d e g (2 ^ x) 7 ∧ (d.legReleased g x = false → Raised e Pg.GDA Ev.BST_FAIL)))) ∧
     DevNext (exec .vgdUv s) s (fun e =>
       FrameP { d with grp := e.grp } e [Pg.GDA] ∧ e.flag R.GDA_STAT F.GDA_STAT_VGD_OK = false ∧ Raised e Pg.GDA Ev.VGD_UV ∧
       ∀ n, n < nAux d.member → Released d e (n + 12) 7 8) ∧
     ∀ mv : Nat,
       (9000 ≤ mv → mv ≤ 15500 → d.frozen Pg.GDA = false → exec (.vgdRecover mv) s = .next (s.withDev (d.putB R.GDA_STAT F.GDA_STAT_VGD_OK true))) ∧
       (16000 < mv → exec (.vgdOvervoltage mv) s = .next (s.withDev (d.putB R.GDA_STAT F.GDA_STAT_VGD_OK false))))

/-- R304, R306, R307, R309, R311, R315: what releases a leg, with its cause; a soft release; a clear, accepted only while the cause is
gone and the enable low; the commutation state of the host. The model's reading where the rules leave one open: log entry 24. -/
def Obligations.LegReleases : Prop :=
  ∀ (s : State) (g x : Nat), s.Live → g < 20 → x < 3 → groupPresent s.dev.member g = true →
    let d := s.dev
    let l := gdLstat g
    let frame := fun (e : Dev) => Frame { d with grp := e.grp } e (relRegs g)
    (g < 12 → DevNext (exec (.legFlt g x true) s) s (fun e => Frame { d with grp := e.grp } e (R.GDT_PINS g :: relRegs g) ∧
        bitOf (e.reg (R.GDT_PINS g)) (24 + x) = true ∧ Released d e g (2 ^ x) 2 ∧ Raised e Pg.GDT Ev.LEG_FLT) ∧
      exec (.legFlt g x false) s
        = .next (s.withDev (d.setReg (R.GDT_PINS g) (d.reg (R.GDT_PINS g) &&& ~~~ bitWord (24 + x))))) ∧
    DevNext (exec (.legShoot g x) s) s (fun e => frame e ∧ Released d e g (2 ^ x) 1 ∧ Raised e (gdPage g) Ev.LEG_SHOOT) ∧
    (d.legReleased g x = false → DevNext (exec (.legOutRb g x) s) s fun e =>
      frame e ∧ Released d e g (2 ^ x) 4 ∧ Raised e (gdPage g) Ev.LEG_OUT_RB) ∧
    (∀ mid mask, mask < 8 → d.takenAt mid (gdLcmd g) = true →
      DevNext (exec (.legSoftRelease mid g mask) s) s (fun e => frame e ∧ Released d e g mask 0xA ∧
        (mask / 2 ^ x % 2 = 0 → e.legReleased g x = d.legReleased g x ∧ e.legS g x = d.legS g x)) ∧
      DevNext (exec (.legClear mid g mask) s) s fun e => frame e ∧
        (mask / 2 ^ x % 2 = 1 → d.legReleased g x = true →
          (d.clearOk g x = true → e.legReleased g x = false ∧ e.get l (F.GDT_LSTAT_CAUSE x) = 0 ∧ (e.legS g x).wait = true) ∧
          (d.clearOk g x = false → e.legReleased g x = true ∧ e.flag l (F.GDT_LSTAT_CLR_FAIL x) = true ∧
            Raised e (gdPage g) Ev.REL_CLR_FAIL)) ∧
        (mask / 2 ^ x % 2 = 0 → e.legReleased g x = d.legReleased g x ∧ e.legS g x = d.legS g x)) ∧
    ∀ (mid n : Nat) (w : Word), n < nAux d.member → d.takenAt mid (R.GDA_COMM n) = true → d.isComm (n + 12) = true →
      d.flag (R.GDA_GCFG n) F.GDA_GCFG_COMM_SRC = false →
      DevNext (exec (.commStateWrite mid n w) s) s fun e => Frame { d with grp := e.grp } e [R.GDA_COMM n] ∧
        (∀ j, j ≠ n + 12 → e.grpS j = d.grpS j) ∧ e.get (R.GDA_COMM n) F.GDA_COMM_STATE = getF w F.GDA_COMM_STATE ∧
        e.get (R.GDA_COMM n) F.GDA_COMM_CODE = getF w F.GDA_COMM_STATE

/-! ### Machine control -/

/-- R336, R340, R342, R344, R351: arming completes when both enables and ready are seen, or fails after ARM_TOUT with the machine in STO;
a complete catch measurement decides the next state; ALIGN, the start window (where no higher cause discards its expiry), the retry pause
and standstill end as their timers say; a late discharge is shown. R485: while S0 is held in reset none of them acts. The model's reading
where the rules leave one open: log entries 208, 211 and 338. -/
def Obligations.MachineTimers : Prop :=
  ∀ (s : State) (m : Nat), s.Live → s.dev.mDefined m = true →
    let d := s.dev
    let q := d.machS m
    let st := d.mState m
    (d.flag R.RST_DOM F.RST_DOM_S0_HELD = true → ∀ c ∈ [Instr.armEnablesHigh m, .machArmFail m, .catchComplete m, .alignTimeout m,
      .startWindowExpiry m, .retryWaitExpiry m, .stopSpeedTimer m, .dischargeLate m], exec c s = .next s) ∧
    (d.flag R.RST_DOM F.RST_DOM_S0_HELD = false →
    (q.target ≠ none → q.armed = false → d.armHigh m = true → DevNext (exec (.armEnablesHigh m) s) s fun e =>
      MachOnly d e m ∧ e.machS m = { q with armed := true } ∧
      ∀ g ∈ d.mGroups m, ∀ x, x < 3 → d.takenAt Mid.S0 (R.PWT_LEG g x) = true → e.get (R.PWT_LEG g x) F.PWT_LEG_FORCE = 0) ∧
    (q.target ≠ none → q.armed = false → d.armHigh m = false → d.reactCode m = 0 → q.armAt + msTicks (max 1 (d.md m 15 F.MD_ARM_TOUT)) ≤ d.gtc →
      DevNext (exec (.machArmFail m) s) s fun e => MachOnly d e m ∧ e.mState m = MS.STO ∧ e.mStat m F.MD_CAUSE = 5 ∧
        (e.machS m).target = none ∧ EnablesLow d e m ∧ Raised e Pg.SAFE Ev.MACH_ARM_FAIL) ∧
    (∀ r, st = MS.CATCH → q.ready = none → q.target = none → q.clr = false → d.catchResult m = some r →
      let slow := match r with
        | some (w, _) => w.abs.lt (d.mdSpeed m 4 F.MD_LO)
        | none => true
      let goes := fun (e : Dev) (t : Nat) => (e.machS m).ready = some t ∨ (e.machS m).target = some t
      DevNext (exec (.catchComplete m) s) s fun e => MachOnly d e m ∧ e.mState m = MS.CATCH ∧
        (slow = true → d.mSensorless m = false → goes e MS.RUN) ∧
        (slow = true → d.mSensorless m = true →
          goes e (if d.md m 0 F.MD_ALIGN = 1 ∧ d.mStat m F.MD_ATTEMPT = 0 then MS.ALIGN else MS.START)) ∧
        ∀ w th, slow = false → r = some (w, th) →
          (w.abs.le (d.mdSpeed m 5 F.MD_HI) = true → goes e MS.RUN) ∧
          (w.abs.le (d.mdSpeed m 5 F.MD_HI) = false →
            e.machS m = { q with since := d.gtc, emfAt := none, again := true, back := decide (w.num < 0) != q.neg } ∧
            (q.again = false → Raised e Pg.SAFE Ev.MACH_CATCH_WAIT))) ∧
    (st = MS.ALIGN → q.target = none → q.since + msTicks (d.md m 15 F.MD_ALIGN_T) ≤ d.gtc → DevNext (exec (.alignTimeout m) s) s fun e =>
      MachOnly d e m ∧ Entered d e m MS.START 0xA ∧ (e.machS m).winAt = some d.gtc) ∧
    (∀ t, st = MS.START → q.winAt = some t → t + msTicks (d.md m 8 F.MD_LO) ≤ d.gtc → q.retryAt = none → q.rev = false → d.reactCode m = 0 →
      q.target = none → DevNext (exec (.startWindowExpiry m) s) s fun e => MachOnly d e m ∧
        (d.mOut8 m = 8 → Entered d e m MS.RUN 0xA ∧ e.mStat m F.MD_ATTEMPT = 0) ∧
        (d.mOut8 m ≠ 8 → EnablesLow d e m ∧
          (d.md m 8 F.MD_RETRY ≤ d.mStat m F.MD_ATTEMPT → Entered d e m MS.FAULT 2 ∧ Raised e Pg.SAFE Ev.START_FAIL) ∧
          (d.mStat m F.MD_ATTEMPT < d.md m 8 F.MD_RETRY → e.machS m = { q with retryAt := some d.gtc, winAt := none, reactAt := d.gtc + 1 }))) ∧
    (∀ t, st = MS.START → q.retryAt = some t → t + msTicks (d.md m 15 F.MD_RETRY_WAIT) ≤ d.gtc →
      DevNext (exec (.retryWaitExpiry m) s) s fun e => MachOnly d e m ∧ Entered d e m MS.CATCH 0xA ∧ EnablesLow d e m ∧
        e.mStat m F.MD_ATTEMPT = (d.mStat m F.MD_ATTEMPT + 1) % 16) ∧
    (∀ t, st = MS.STOP → q.target = none → q.slowAt = some t → t + msTicks 100 ≤ d.gtc →
      DevNext (exec (.stopSpeedTimer m) s) s fun e => MachOnly d e m ∧ Entered d e m MS.STO 0xA ∧ EnablesLow d e m) ∧
    (st = MS.DISCHARGE → d.mStat m F.MD_DIS_LATE = 0 → q.since + msTicks (d.md m 13 F.MD_DIS_DL) ≤ d.gtc →
      DevNext (exec (.dischargeLate m) s) s fun e => Frame { d with mach := e.mach } e [R.SAFE_FLAG] ∧
        (∀ j, j ≠ m → e.machS j = d.machS j) ∧ e.machS m = { q with stat := setF q.stat F.MD_DIS_LATE 1 } ∧
        Raised e Pg.SAFE Ev.DISCHARGE_LATE))

/-- R334, R335, R346, R349, R350, R351: the evaluation of a machine, once in an update period, takes the first cause of the list: a leg
release, the STO input, a withdrawn grant, a context error, a lost observer, a locked rotor; else what its state waits for. R485: while S0 is held in
reset there is none. The model's reading where the rules leave one open: log entries 200 and 204. -/
def Obligations.MachineEvaluation : Prop :=
  ∀ (s : State) (m : Nat), s.Live → s.dev.mDefined m = true →
    let d := s.dev
    let st := d.mState m
    let f := d.setMach m { d.machS m with evalAt := d.updKey m }
    let x := (if drives st then (f.noteSpeed m).noteLock m else f).legPolicy m
    let o := exec (.machEvaluate m) s
    let stop := st ≠ MS.STO ∧ st ≠ MS.FAULT ∨ (d.machS m).target ≠ none
    let low := if d.mReleased m then MS.FAULT else MS.STO
    let lost := drives st && (d.machS m).retryAt.isNone && x.obsLost m
    let lock := (st == MS.START || st == MS.RUN) && (d.machS m).retryAt.isNone && x.locked m
    let released := drives st && d.releaseNew m
    let held := d.flag R.RST_DOM F.RST_DOM_S0_HELD
    st ≠ MS.OFF →
    (d.evalDue m = false ∨ held = true → d.devState ≠ DS.OVERCAST → o = .next s) ∧
    (d.evalDue m = true → held = false →
    (DevNext o s fun e => (d.devState ≠ DS.OVERCAST → MachOnly d e m) ∧ (e.machS m).evalAt = d.updKey m) ∧
    (released = true → d.mSix m = false →
      ((d.grpS m).asc = false → DevNext o s fun e => Entered d e m MS.FAULT 1 ∧ EnablesLow d e m) ∧
      ((d.grpS m).asc = true → DevNext o s fun e => Entered d e m MS.ASC 1)) ∧
    (released = true → d.mSix m = true →
      (d.setsReleased m = 3 ∨ (st ≠ MS.RUN ∧ st ≠ MS.STOP) → DevNext o s fun e => Entered d e m MS.FAULT 1 ∧ EnablesLow d e m) ∧
      (d.setsReleased m ≠ 3 → st = MS.RUN ∨ st = MS.STOP → d.mStat m F.MD_DEGRADED = 0 → DevNext o s fun e =>
        e.mState m = st ∧ e.mStat m F.MD_DEGRADED = 1 ∧ e.mStat m F.MD_SET = d.setsReleased m ∧
        Raised e Pg.SAFE Ev.MACH_DEGRADED)) ∧
    (released = false → stop ∨ (st = MS.FAULT ∧ d.mReleased m = false) → d.flag R.SAFE_STAT F.SAFE_STAT_STO_P_IN = true →
      DevNext o s fun e => Entered d e m low 7 ∧ EnablesLow d e m) ∧
    (released = false → d.flag R.SAFE_STAT F.SAFE_STAT_STO_P_IN = false →
      (stop → d.genmGone m = true → DevNext o s fun e => Entered d e m low 9 ∧ EnablesLow d e m) ∧
      (d.genmGone m = false ∨ ¬stop →
        let ecc := drives st && (d.ctxEcc (d.mMain m) || d.ctxEcc (d.mSpd m) || d.ctxEcc (d.mCatch m))
        (ecc = true → d.mSix m = true → DevNext o s fun e => Entered d e m MS.FAULT 6 ∧ EnablesLow d e m) ∧
        (ecc = false → lost = false → lock = true → DevNext o s fun e =>
          Entered d e m MS.FAULT 3 ∧ EnablesLow d e m ∧ Raised e Pg.SAFE Ev.LOCKED) ∧
        (ecc = false → lost = true → DevNext o s fun e => Raised e Pg.SAFE Ev.OBS_LOST ∧
          if (d.mdSpeed m 4 F.MD_HI).le (x.machS m).trust.abs then Entered d e m MS.ASC 4 else Entered d e m MS.CATCH 4) ∧
        (ecc = false → lost = false → lock = false →
          (st = MS.START → x.lockSeen m = true → (d.machS m).retryAt = none → (d.machS m).target = none → DevNext o s fun e => Entered d e m MS.RUN 0xA) ∧
          (st = MS.DISCHARGE → d.md m 2 F.MD_ACC_VDC < nAcc d.member →
            (d.accValue (d.md m 2 F.MD_ACC_VDC)).le (d.mdTenth m 14 F.MD_HI) = true →
            DevNext o s fun e => Entered d e m MS.STO 0xA ∧ EnablesLow d e m)))))

/-! ### Safety functions -/

/-- R44, R364, R365, R367, R368: an STO input drops its channel's enables and latches every entry, its release ends the input's latch
where STO_AUTO says so; a request latches an entry, an acknowledgement clears what is no longer present; SS1 begins with a request and
fails at its time limit; the ASC of SAFE_HOLD ends and a late discharge is shown as their timers say. The model's reading where the rules
leave one open: log entries 235 and 239. -/
def Obligations.SafeTorqueOff : Prop :=
  ∀ (s : State), s.Up →
    let d := s.dev
    let part := fun (e : Dev) => Frame (d.safePart e) e safeRegs
    (d.flag R.SAFE_STAT F.SAFE_STAT_STO_P_IN = false → DevNext (exec (.stoInputActive .p) s) s fun e => part e ∧
      e.flag R.SAFE_STAT F.SAFE_STAT_STO_P_IN = true ∧ Raised e Pg.SAFE Ev.STO_IN ∧ e.reg R.SAFE_TRIP = d.reg R.SAFE_TRIP ∧
      ∀ g, g < 20 → groupPresent d.member g = true → e.genP g = false ∧ e.genM g = d.genM g) ∧
    (d.flag R.SAFE_STAT F.SAFE_STAT_STO_M_IN = false → DevNext (exec (.stoInputActive .m) s) s fun e => part e ∧
      e.flag R.SAFE_STAT F.SAFE_STAT_STO_M_IN = true ∧ Raised e Pg.SAFE Ev.STO_IN ∧
      (∀ g, g < 20 → groupPresent d.member g = true → e.genM g = false ∧ e.genP g = d.genP g) ∧
      ∀ m, d.meEn m = true → Latched d e m 0xB ∧ (e.tmS m).byIn = true) ∧
    (d.flag R.SAFE_STAT F.SAFE_STAT_STO_P_IN = true →
      exec (.stoInputRelease .p) s = .next (s.withDev (d.putB R.SAFE_STAT F.SAFE_STAT_STO_P_IN false))) ∧
    (d.flag R.SAFE_STAT F.SAFE_STAT_STO_M_IN = true →
      (d.sdDev F.SD_DEV_STO_AUTO = 0 →
        exec (.stoInputRelease .m) s = .next (s.withDev (d.putB R.SAFE_STAT F.SAFE_STAT_STO_M_IN false))) ∧
      (d.sdDev F.SD_DEV_STO_AUTO ≠ 0 → DevNext (exec (.stoInputRelease .m) s) s fun e => part e ∧
        e.flag R.SAFE_STAT F.SAFE_STAT_STO_M_IN = false ∧
        ∀ m, m < 20 → e.tmS m = { d.tmS m with byIn := false } ∧
          ((d.tmS m).byIn = true → e.tripped m = ((d.tmS m).byTrip || (d.tmS m).byDone)))) ∧
    (∀ (mid : Nat) (w : Word), d.takenAt mid R.SAFE_REQ_STO = true → DevNext (exec (.safeReqStoWrite mid w) s) s fun e => part e ∧
      ∀ m, m < 20 → bitOf (e.reg R.SAFE_REQ_STO) m = bitOf w m ∧
        (bitOf w m = true → bitOf (d.reg R.SAFE_REQ_STO) m = false → d.meEn m = true →
          Latched d e m 0xC ∧ (e.tmS m).byTrip = true) ∧
        (bitOf w m = false → e.tripped m = d.tripped m ∧ e.tmS m = d.tmS m)) ∧
    (∀ (mid : Nat) (w : Word), d.takenAt mid R.SAFE_REQ_SS1 = true → DevNext (exec (.safeReqSs1Write mid w) s) s fun e => part e ∧
      ∀ m, m < 20 → bitOf (e.reg R.SAFE_REQ_SS1) m = bitOf w m ∧
        (bitOf w m = true → bitOf (d.reg R.SAFE_REQ_SS1) m = false → d.meEn m = true → (d.tmS m).ss1 = none →
          e.tmS m = { d.tmS m with ss1 := some (d.ss1Of m), still := 0 } ∧ e.flag (R.TM_STAT m) F.TM_STAT_SS1_ACT = true)) ∧
    (∀ (mid : Nat) (w : Word), d.takenAt mid R.SAFE_ACK = true → DevNext (exec (.safeAckWrite mid w) s) s fun e => part e ∧
      ∀ m, m < 20 → (bitOf w m = false ∨ d.ackBlocked m = true → e.tripped m = d.tripped m ∧ e.tmS m = d.tmS m) ∧
        (bitOf w m = true → d.ackBlocked m = false → d.tripped m = true → e.tripped m = false ∧ e.granted m = false ∧
          e.get (R.TM_STAT m) F.TM_STAT_CAUSE = 0 ∧
          e.tmS m = { d.tmS m with byIn := false, byTrip := false, byDone := false, trips := [], ok := false })) ∧
    ∀ m, d.meEn m = true →
      (∀ x, (d.tmS m).ss1 = some x → d.frozen Pg.TMON = false → x.t0 + x.tmax ≤ d.gtc → DevNext (exec (.ss1Fail m) s) s fun e => part e ∧
        Latched d e m 5 ∧
        (e.tmS m).byTrip = true ∧ Raised e Pg.SAFE Ev.SS1_FAIL ∧ Raised e Pg.SAFE Ev.TM_TRIP) ∧
      (∀ t, (d.tmS m).slow = some t → d.frozen Pg.SAFE = false → t + msTicks 20 ≤ d.gtc → d.devState = DS.SAFE_HOLD → d.me m 0 F.ME_CFG_ASC_HOLD = 1 →
        d.mState m = MS.ASC → d.safe.keep / 2 ^ m % 2 = 1 → DevNext (exec (.ascReleaseTimer m) s) s fun e => part e ∧
          e.safe = { d.safe with keep := d.safe.keep - 2 ^ m } ∧ e.granted m = false ∧
          ∀ g ∈ d.meGroups m, groupPresent d.member g = true →
            (∀ j, j ≠ m → d.meEn j = true → g ∉ d.meGroups j) → e.genM g = false) ∧
      ∀ q, spGet {} d.safe.disM m = q → d.frozen Pg.SAFE = false → q.at1 ≠ 0 → q.low = false → q.late = false →
        q.at1 + msTicks (d.me m 13 F.ME_ASC_DIS_DL_M) ≤ d.gtc + 1 → DevNext (exec (.disMLate m) s) s fun e =>
          Frame { d with safe := e.safe } e [R.SAFE_OUT] ∧ spGet {} e.safe.disM m = { q with late := true } ∧
          e.flag R.SAFE_OUT F.SAFE_OUT_DIS_M_LATE = true ∧ Raised e Pg.SAFE Ev.DIS_M_LATE

/-- R357, R358, R360, R374: an evaluation of a torque monitor shows demand, speed and torque of the interval that has ended and trips
where a check has failed FILT_N times; the unsupervised check of SAFE_HOLD likewise, once in 1 ms. R382, R383, R384: a safety parameter block whose CRC
no longer matches leads to SAFE_HOLD; a confirmation with the CRC of both copies is written to the flash and leads to READY, any other
value counts as a failure, of which the third locks; a write without the key is refused. The model's reading where the rules leave one
open: log entries 51, 56 and 232. -/
def Obligations.TorqueMonitor : Prop :=
  (∀ (s : State) (m : Nat), s.Live → s.dev.meEn m = true →
     let d := s.dev
     let q := d.tmS m
     let len := 400 * d.sdDev F.SD_DEV_EVAL
     let n := d.sdDev F.SD_DEV_FILT_N
     let fits := fun (x : Int) => -(2 ^ 31) ≤ x ∧ x < 2 ^ 31
     (d.frozen Pg.TMON = false → d.safe.base ≠ none → q.next ≤ d.gtc →
       ¬(d.devState = DS.SAFE_HOLD ∧ d.get R.SAFE_HOLD_INFO F.SAFE_HOLD_INFO_CAUSE = 4) → d.me m 0 F.ME_CFG_ANG_SRC = 0 →
       let l := q.smp.filter fun y => decide (y.tick < q.next)
       let ok := d.flag (R.SHD_STAT (d.meShd m)) F.SHD_STAT_VALID && (d.tmEstimate m l).isSome
       DevNext (exec (.tmonEvaluation m) s) s fun e =>
         (∀ j, j ≠ m → e.tmS j = d.tmS j) ∧ (e.tmS m).next = q.next + len ∧ (e.tmS m).old = l ∧
         (e.tmS m).smp = (q.smp.filter fun y => !decide (y.tick < q.next)) ∧
         e.reg (R.TM_DEM m) = wordOfInt ((d.tmDemand m (q.next - len) q.next).tmS m).dem ∧
         (fits (d.tmSpeed m) → e.reg (R.TM_SPD m) = wordOfInt (d.tmSpeed m)) ∧
         e.flag (R.TM_STAT m) F.TM_STAT_VALID = ok ∧
         (∀ t i, d.tmEstimate m l = some (t, i) → fits t → e.reg (R.TM_TQ m) = wordOfInt t) ∧
         (ok = false → d.get (R.TM_CNT m) (tmCntF 5) < n → n ≤ d.get (R.TM_CNT m) (tmCntF 5) + 1 →
           e.tripped m = true ∧ Raised e Pg.SAFE Ev.TM_TRIP)) ∧
     (d.safe.uncAt > d.gtc ∨ d.flag R.RST_DOM F.RST_DOM_S1_HELD = true → exec .unsupervisedCheck s = .next s) ∧
     (d.devState = DS.SAFE_HOLD → d.get R.SAFE_HOLD_INFO F.SAFE_HOLD_INFO_CAUSE = 4 → d.safe.keep / 2 ^ m % 2 = 1 →
       d.safe.uncAt ≤ d.gtc → d.flag R.RST_DOM F.RST_DOM_S1_HELD = false →
       let w := d.tmSpeed m
       let sign : Int := if w < 0 then -1 else if w = 0 then 0 else 1
       DevNext (exec .unsupervisedCheck s) s fun e => e.safe.uncAt = d.gtc + msTicks 1 ∧ (e.tmS m).smp = [] ∧ (d.me m 0 F.ME_CFG_ANG_SRC = 0 → (e.tmS m).old = q.smp ∧
         ∀ t i, d.tmEstimate m q.smp = some (t, i) → q8 (d.me m 9 F.ME_TQ_TQ_ABS) 10 < t * sign →
           d.get (R.TM_CNT m) (tmCntF 0) < n → n ≤ d.get (R.TM_CNT m) (tmCntF 0) + 1 →
           e.tripped m = true ∧ e.safe.keep / 2 ^ m % 2 = 0 ∧ Raised e Pg.SAFE Ev.TM_TRIP))) ∧
  (∀ (s : State), s.Live →
     let d := s.dev
     (d.frozen Pg.SAFE = false → d.devState = DS.READY ∨ d.devState = DS.RUN →
       spbCrc d.safe.spbP ≠ d.reg R.SAFE_CRC_P ∨ spbCrc d.safe.spbM ≠ d.reg R.SAFE_CRC_M →
       DevNext (exec .spbRecheck s) s fun e => e.devState = DS.SAFE_HOLD ∧ e.flag R.SAFE_HOLD_INFO F.SAFE_HOLD_INFO_HOLD = true ∧
         e.get R.SAFE_HOLD_INFO F.SAFE_HOLD_INFO_CAUSE = 5 ∧ Raised e Pg.SAFE Ev.SAFE_HOLD) ∧
     ∀ (mid : Nat) (w : Word),
       let good := w = d.reg R.SAFE_CRC_P ∧ w = d.reg R.SAFE_CRC_M ∧ d.devState = DS.COMMISSION ∧
         d.flag R.SAFE_STAT F.SAFE_STAT_SPB_LOADED = true ∧ d.get R.SAFE_STAT F.SAFE_STAT_SPB_ERR = 0
       let fails := d.get R.SAFE_STAT F.SAFE_STAT_CONF_FAILS
       (d.confirmOk mid = true → good → ∃ e : Dev, exec (.safeConfirmWrite mid w) s = .next
           { s with dev := e, mems := { s.mems with flash := flashSpb s.mems.flash (spbConfirm d.safe.spbM w) } } ∧
         e.devState = DS.READY ∧ e.flag R.SAFE_STAT F.SAFE_STAT_CONFIRMED = true) ∧
       (d.confirmOk mid = true → ¬good → DevNext (exec (.safeConfirmWrite mid w) s) s fun e => Frame d e [R.SAFE_STAT] ∧
         e.get R.SAFE_STAT F.SAFE_STAT_CONF_FAILS = min 3 (fails + 1) ∧
         (2 ≤ fails → e.flag R.SAFE_STAT F.SAFE_STAT_CONF_LOCK = true) ∧ Raised e Pg.SAFE Ev.CONFIRM_FAIL) ∧
       (d.confirmOk mid = false → exec (.safeConfirmWrite mid w) s = .next (s.withDev (d.deny Pg.SAFE))))


/-! ### Mailboxes, locks, windows -/

/-- R409 to R413: S0 sets the rights in BOOT and CONFIGURE; a free channel is bound to two masters of its binder's choice and unbound by
its owner; a word sent is appended, or discarded with QFULL where eight wait; a receive takes the oldest word; the owner's flush empties
both queues but for what was sent in its own cycle. R5: a right of the host where the member lacks it counts as a write to an absent unit.
The model's reading where the rules leave one open: log entry 150. -/
def Obligations.Mailboxes : Prop :=
  ∀ (s : State) (mid c : Nat) (w : Word), s.Up → c < 32 →
    let d := s.dev
    let r := R.MBX_BIND c
    let q := d.mbxS c
    let bound := fun (e : Dev) (a b owner res : Nat) (v : Bool) =>
      e.get r F.MBX_BIND_MID_A = a ∧ e.get r F.MBX_BIND_MID_B = b ∧ e.get r F.MBX_BIND_OWNER = owner ∧
        e.flag r F.MBX_BIND_VALID = v ∧ e.get r F.MBX_BIND_RESULT = res
    let a := getF w F.MBX_BIND_MID_A
    let b := getF w F.MBX_BIND_MID_B
    let side := d.mbxSide c mid
    (d.rightsOk mid w = true → exec (.mbxRightsWrite mid w) s = .next (s.withDev ((d.noteHostRight mid w).setRights w))) ∧
    (d.rightsOk mid w = false → exec (.mbxRightsWrite mid w) s = .next (s.withDev ((d.noteHostRight mid w).deny Pg.MBX))) ∧
    (d.sharedOk mid = true → d.inConfigure = true ∨ (d.devState = DS.BOOT ∧ mid = Mid.S0) → d.flag r F.MBX_BIND_VALID = false →
      a ≠ b → bindable a = true → bindable b = true → mastAbsent d.member a = false → mastAbsent d.member b = false →
      DevNext (exec (.mbxBind mid c w) s) s fun e =>
        Frame d e [r] ∧ bound e a b mid 1 true ∧ e.flag r F.MBX_BIND_REC = bitOf w 29 ∧ ∀ j, e.mbxS j = d.mbxS j) ∧
    (d.sharedOk mid = true → d.inConfigure = true → d.flag r F.MBX_BIND_VALID = true → d.flag r F.MBX_BIND_LOCKED = false →
      d.get r F.MBX_BIND_OWNER = mid →
      DevNext (exec (.mbxUnbind mid c) s) s fun e =>
        Frame d e [r] ∧ bound e 0xF 0xF 0xF 0 false ∧ MbxElse d e c ∧ e.mbxS c = { q with ab := [], ba := [] } ∧
        (q.ab.length = 8 ∨ q.ba.length = 8 → Raised e Pg.MBX Ev.MBX_SPACE)) ∧
    (side ≠ 0 → d.sharedOk mid = true →
      DevNext (exec (.mbxSend mid c w) s) s fun e => Quiet d e ∧ MbxElse d e c ∧
        ((q.out side).length < 8 → e.mbxS c = q.push side w ∧ ((q.out side) = [] → Raised e Pg.MBX Ev.MBX_RX)) ∧
        (8 ≤ (q.out side).length →
          e.mbxS c = q.full side ∧ bitOf (e.reg R.MBX_FULLF) c = true ∧ Raised e Pg.MBX Ev.QUEUE_FULL)) ∧
    (side ≠ 0 → q.inq side = [] →
      DevNext (exec (.mbxReceive mid c) s) s fun e => Quiet { d with rdata := e.rdata } e ∧ MbxElse d e c ∧
        e.answered mid = 0 ∧ e.mbxS c = q.markEmpty side) ∧
    (∀ x l, side ≠ 0 → q.inq side = x :: l →
      DevNext (exec (.mbxReceive mid c) s) s fun e => Quiet { d with rdata := e.rdata } e ∧ MbxElse d e c ∧
        e.answered mid = x ∧ (side = 1 ∨ (d.garS c).held = [] → e.mbxS c = q.pop side) ∧
        (l.length = 7 → Raised e Pg.MBX Ev.MBX_SPACE)) ∧
    (d.flag r F.MBX_BIND_VALID = true → d.get r F.MBX_BIND_OWNER = mid → d.sharedOk mid = true →
      DevNext (exec (.mbxFlush mid c) s) s fun e => Quiet d e ∧ MbxElse d e c ∧
        ((d.garS c).held = [] → e.mbxS c = { q with ab := lastN (d.sentNow c 1) q.ab, ba := lastN (d.sentNow c 2) q.ba }) ∧
        (q.ab.length = 8 ∨ q.ba.length = 8 → Raised e Pg.MBX Ev.MBX_SPACE))

/-- R416: a read of LCK_LOCKn acquires a free lock for its reader, with GOT and HOLDER; to its holder it says AGAIN, to any other master
HELD and HOLDER, and changes nothing; Debug's is a read of LCK_PEEKn, which never acquires. -/
def Obligations.LockReads : Prop :=
  ∀ (s : State) (mid n : Nat), s.Up → n < 64 → mid < 16 →
    let d := s.dev
    let peek := exec (.lowWordRead mid ⟨R.LCK_PEEK n, 4⟩) s
    let lock := fun (e : Dev) (got held again holder : Nat) =>
      e.answered mid = BitVec.ofNat 32 (got + 2 * held + 4 * again + 16 * holder)
    (∀ o, o = exec (.lockAcquire mid n) s ∨ o = exec (.lowWordRead mid ⟨R.LCK_LOCK n, 4⟩) s →
      (mid ≠ Mid.DEBUG →
        (d.lockNow n = none → DevNext o s fun e => Quiet { d with lck := e.lck, rdata := e.rdata } e ∧ e.lckS n = some mid ∧
          (∀ j, j ≠ n → e.lckS j = d.lckS j) ∧ lock e 1 0 0 mid) ∧
        (d.lockNow n = some mid → DevNext o s fun e => OnlyRead d e ∧ lock e 1 0 1 mid) ∧
        (∀ h, d.lockNow n = some h → h ≠ mid → DevNext o s fun e => OnlyRead d e ∧ lock e 0 1 0 h)) ∧
      (mid = Mid.DEBUG → o = peek)) ∧
    (d.lockNow n = none → DevNext peek s fun e => OnlyRead d e ∧ e.answered mid = 0) ∧
    (∀ h, d.lockNow n = some h → DevNext peek s fun e => OnlyRead d e ∧ lock e 0 1 0 h) ∧
    (d.lockNow n = none → DevNext (exec (.lockAcquire Mid.S0 n) s) s (fun e => e.answered Mid.S0 = 0x00000001) ∧
      DevNext (exec (.lockAcquire Mid.PCIE n) s) s (fun e => e.answered Mid.PCIE = 0x00000041))

/-- R418: the holder frees a lock from the end of the cycle on, any other master's write is refused, S0 frees it by force within the key
window. R420: a free window is taken in the taker's own name, given by its owner to a master or back, freed by S0 within the key window,
each time with PREV and GEN, which counts once in a cycle (R422). The model's reading where the rules leave one open: log entries 153 and
154. -/
def Obligations.LocksAndWindows : Prop :=
  ∀ (s : State) (mid n : Nat), s.Up →
    let d := s.dev
    let own := d.winOwner n
    let held := d.winHeld n
    let lockFree := fun (e : Dev) => e.lckS n = none ∧ ∀ j, j ≠ n → e.lckS j = d.lckS j
    (n < 64 →
      (d.lckS n = some mid → d.sharedOk mid = true → DevNext (exec (.lockRelease mid n) s) s fun e =>
        Quiet { d with lck := e.lck } e ∧ lockFree e ∧ e.lockNow n = some mid) ∧
      (d.lckS n ≠ some mid → exec (.lockRelease mid n) s = .next (s.withDev (d.deny Pg.LCK))) ∧
      (d.keyOpenFor Pg.LCK Mid.S0 = true →
        (∀ h, d.lckS n = some h → DevNext (exec (.lockForced Mid.S0 n) s) s fun e =>
          Frame { d with lck := e.lck } e [R.LCK_STAT] ∧ lockFree e ∧ Counted d e R.LCK_STAT F.LCK_STAT_FORCED_CNT ∧
          e.get R.LCK_STAT F.LCK_STAT_LAST_HOLDER = h % 16 ∧ e.get R.LCK_STAT F.LCK_STAT_LAST_LOCK = n ∧
          Raised e Pg.LCK Ev.LOCK_FORCED) ∧
        (d.lckS n = none → exec (.lockForced Mid.S0 n) s = .next s))) ∧
    (n < 16 →
      let a := R.WIN_OWN n
      (d.sharedOk mid = true →
        (own = 0xF → held = 0xF → DevNext (exec (.winTake mid n mid) s) s fun e =>
          Frame d e [a] ∧ WinNow d e n mid ∧ e.get a F.WIN_OWN_RESULT = 1) ∧
        (∀ v, own ≠ 0xF ∨ held ≠ 0xF → exec (.winTake mid n v) s = .next (s.withDev (d.put a F.WIN_OWN_RESULT 2))) ∧
        (∀ v, own = 0xF → held = 0xF → v ≠ mid → exec (.winTake mid n v) s = .next (s.withDev (d.deny Pg.WIN)))) ∧
      (own = mid → d.sharedOk mid = true →
        (∀ v, v ≤ 8 → v ≠ mid → DevNext (exec (.winGiven mid n v) s) s fun e => Frame d e [a, R.WIN_FLAG] ∧ WinNow d e n v ∧
          bitOf (e.reg R.WIN_FLAG) n = true ∧ Raised e Pg.WIN Ev.WIN_GIVEN) ∧
        (DevNext (exec (.winRelease mid n) s) s fun e => Frame d e [a] ∧ WinNow d e n 0xF) ∧
        exec (.winGiven mid n 0xF) s = exec (.winRelease mid n) s) ∧
      (own ≠ mid → exec (.winGiven mid n 0) s = .next (s.withDev (d.deny Pg.WIN)) ∧
        exec (.winRelease mid n) s = .next (s.withDev (d.deny Pg.WIN))) ∧
      (d.keyOpenFor Pg.WIN Mid.S0 = true →
        (held ≠ 0xF → DevNext (exec (.winForced Mid.S0 n) s) s fun e =>
          Frame d e [a] ∧ e.winOwner n = 0xF ∧ e.get a F.WIN_OWN_PREV = held % 16 ∧ Raised e Pg.WIN Ev.WIN_FORCED ∧
          e.get a F.WIN_OWN_GEN = (d.get a F.WIN_OWN_GEN + if d.cycS.own.lookup n = none then 1 else 0) % 65536) ∧
        (held = 0xF → exec (.winForced Mid.S0 n) s = .next s)))

/-- R408, R419, R421: a write of window data by the window's owner stores its bytes and nothing else; any other is discarded whole, counted
and shown, without a bus error; the owner reads the data in whole accesses of every width, with RDSHARE every master does, and a refused
read answers zero. Two clauses are the model's reading, no words of the rules: of an access that runs past the end of its window the bytes
inside it alone take part (log entry 152, DEDUCED), and a write that the window memory does not accept leaves the state, a read of that
kind answers zero (an inference from R419). -/
def Obligations.WindowData : Prop :=
  ∀ (s : State) (mid a : Nat) (bs : List Byte), s.Up → inWins a = true →
    let d := s.dev
    let w := winOf a
    let n := min bs.length (0x10000 - a % 0x10000)
    let may := d.winHeld w = mid ∧ (d.sharedOk mid = true ∨ mid = Mid.DMA)
    (winAccessOk mid a bs.length d.pcie.payload = true →
      (may → NextWith (exec (.winDataWrite mid a bs) s) fun t =>
        t = { s with mems := { s.mems with win := t.mems.win } } ∧
        (∀ i, i < n → t.mems.win.read (winOfs a + i) = nthD 0 bs i) ∧
        ∀ x, x < winOfs a ∨ winOfs a + n ≤ x → t.mems.win.read x = s.mems.win.read x) ∧
      (¬may → DevNext (exec (.winDataWrite mid a bs) s) s fun e => Frame d e [R.WIN_STAT w] ∧
        Counted d e (R.WIN_STAT w) F.WIN_STAT_DENIED_CNT ∧ e.flag (R.WIN_STAT w) F.WIN_STAT_DENIED = true)) ∧
    (winAccessOk mid a bs.length d.pcie.payload = false → exec (.winDataWrite mid a bs) s = .next s) ∧
    (∀ width, DevNext (exec (.lowWordRead mid ⟨a, width⟩) s) s fun e => OnlyRead d e ∧
      let shown := (d.winHeld w = mid ∨ d.flag (R.WIN_CFG w) F.WIN_CFG_RDSHARE = true) ∧
        winAccessOk mid a width (if d.pcie.payload = 0 then 0 else 512) = true
      let byte := fun (i : Nat) => if shown ∧ i < width ∧ i < 0x10000 - a % 0x10000 then s.mems.win.read (winOfs a + i) else 0
      ∀ k, 4 * k < width → spGet 0 e.rdata (mid + 16 * k) = wordOfBytes ((List.range 4).map fun j => byte (4 * k + j)))

/-! ### The rings -/

/-- R390, R393, R394, R403, R405: a node is inserted where everything holds, Ring B two cycles after Ring A; a bypass fault and a change
of symbol lock are shown; the own frame is sent once in its slot of a cycle, with its own checks; a protocol that has lasted too long
fails. The model's reading where the rules leave one open: log entry 252. -/
def Obligations.RingPorts : Prop :=
  ∀ (s : State) (r : Ring), s.Up →
    let d := s.dev
    let b := r == .b
    let i := ringIx b
    let st := R.RG_STAT i
    let ready := d.flag (R.RG_CTRL i) F.RG_CTRL_INSERT = true ∧ d.flag R.SAFE_STAT F.SAFE_STAT_SPB_LOADED = true ∧
      d.get R.SAFE_STAT F.SAFE_STAT_SPB_ERR = 0 ∧ d.ringUsed b = true ∧ d.flag st F.RG_STAT_LOCK = true ∧ d.devState ≠ DS.BOOT ∧
      d.devState ≠ DS.FATAL ∧ d.inserted b = false
    let spaced := b = true → (∀ t, d.ring.insA = some t → t + 2 * d.cycTicks ≤ d.gtc) ∧ (d.ring.insA = none → d.ringUsed false = false)
    let into := d.vehicleTime - d.cycNow * (d.cycTicks : Int)
    let runs := d.frozen (ringPage b) = false
    (runs → ready → spaced → DevNext (exec (.ringInsert r) s) s fun e =>
      Frame { d with ring := { d.ring with insA := if b then d.ring.insA else some d.gtc } } e [st] ∧ e.inserted b = true ∧
      e.flag st F.RG_STAT_LOCK = true) ∧
    (¬(ready ∧ spaced) → exec (.ringInsert r) s = .next s) ∧
    (d.ringPresent b = true →
      (DevNext (exec (.bypassFault r) s) s fun e =>
        Quiet (d.putB st F.RG_STAT_BYP_ERR true) e ∧ Raised e (ringPage b) Ev.BYPASS_FAULT) ∧
      ∀ up, (runs → d.flag st F.RG_STAT_LOCK ≠ up → DevNext (exec (.ringLink r up) s) s fun e =>
          Quiet (d.putB st F.RG_STAT_LOCK up) e ∧ Raised e (ringPage b) Ev.RING_LINK) ∧
        (d.flag st F.RG_STAT_LOCK = up → exec (.ringLink r up) s = .next s)) ∧
    (d.frozen Pg.SFX = false → d.inserted b = true → (800 * (d.rsNode + 1) : Nat) ≤ into → d.ring.sentCyc ≠ d.cycNow + 1 →
      DevNext (exec .frameSend s) s fun e => Frame { d with ring := e.ring } e [R.SFX_EP, R.SFX_STAT] ∧
        let x := e.ring.tx
        e.ring.sentCyc = d.cycNow + 1 ∧ e.ring.txTick = d.gtc ∧ e.ring.began = true ∧
        e.ring.seq = (if d.ring.began then d.ring.seq else 1) ∧
        x.length = 16 ∧ fwSrc x = d.rsNode ∧ fwEpoch x = d.epoch ∧ fw x 1 = BitVec.ofNat 32 e.ring.seq ∧
        fw x 2 = wordOfInt d.cycNow ∧ fw x 6 = d.reg R.SFX_TX_REQ ∧ fw x 12 = d.rcfg ∧
        fw x 14 = frameCrc 0x50 x ∧ fw x 15 = frameCrc 0x4D x ∧ ∀ j, e.srcS j = d.srcS j) ∧
    (d.ring.sentCyc = d.cycNow + 1 → exec .frameSend s = .next s) ∧
    (d.frozen Pg.SFX = false → d.epPh ≠ 0 → d.ring.epStart + (max 1 (d.rsRing F.RS_RING_EP_TOUT) : Nat) ≤ d.cycNow →
      DevNext (exec .epochFail s) s fun e =>
        Frame { d with ring := { d.ring with okP := false, okM := false, commitAt := none } } e [R.SFX_EP, R.SFX_STAT] ∧
        e.reg R.SFX_EP = 0 ∧ e.epPh = 0 ∧ e.epoch = d.epoch ∧ Raised e Pg.SFX Ev.EPOCH_FAIL)

/-- R393, R395 to R397, R406: code errors of the in-port are counted; a copy with a wrong check is counted; the own frame gives the round trip; one of another configuration or far from
the cycle is counted as late; of the others the first copy waits for the second of the other ring; two that agree are accepted, two that
differ counted; a copy that has waited 40 µs is accepted alone, with the missing ring shown where it is used, and a copy that comes later
waits anew; a frame that is not newer than the last one is discarded without an event. The model's reading where the rules leave one open: log entry 251. -/
def Obligations.RingFrames : Prop :=
  ∀ (s : State) (r : Ring) (ws : List Word) (codes : Nat), s.Up → ws.length = 16 →
    let d := s.dev
    let b := r == .b
    let cnt := R.RG_CNT (ringIx b)
    let n := fwSrc ws
    let x := d.srcS n
    let o := exec (.copyReceive r ⟨ws, codes⟩) s
    let good := fw ws 14 = frameCrc 0x50 ws ∧ fw ws 15 = frameCrc 0x4D ws
    let off := sext 32 (wrapN 32 ((fw ws 2).toNat - d.cycNow))
    let late := off < -1 ∨ 1 < off
    let kept := fun (e : Dev) => if b then (e.srcS n).seenB = d.gtc + 1 ∧ (e.srcS n).epB = ws.take 4 ++ [fw ws 7]
      else (e.srcS n).seenA = d.gtc + 1 ∧ (e.srcS n).epA = ws.take 4 ++ [fw ws 7]
    (d.frozen (ringPage b) = false → d.ringPresent b = true →
      (DevNext o s fun e => e.get cnt F.RG_CNT_CODE_CNT = min (d.get cnt F.RG_CNT_CODE_CNT + codes) (2 ^ fieldWidth F.RG_CNT_CODE_CNT - 1)) ∧
      (d.inserted b = false → DevNext o s fun e => Frame d e [cnt])) ∧
    (d.frozen (ringPage b) = false → d.inserted b = true → d.ringPresent b = true →
      (¬good → DevNext o s fun e => Frame d e [cnt] ∧ Counted d e cnt F.RG_CNT_CRC_CNT ∧
        Raised e (ringPage b) Ev.RING_CRC_ERR) ∧
      (good → (fw ws 0).toNat / 2 ^ 20 = 0xC51 →
        (n = d.rsNode → DevNext o s fun e => Frame d e [R.RG_RTT (ringIx b), cnt] ∧
          e.get (R.RG_RTT (ringIx b)) F.RG_RTT_RTT = min 65535 (d.gtc - d.ring.txTick)) ∧
        (n ≠ d.rsNode → d.rsExpect n = true →
          (fw ws 12 ≠ d.rcfg ∨ late → DevNext o s fun e => Frame d e [R.SFX_ERR, cnt] ∧
            (fw ws 12 ≠ d.rcfg → Raised e Pg.SFX Ev.RING_CFG_MISMATCH) ∧ (late → Raised e Pg.SFX Ev.FRAME_LATE) ∧
            (¬(fw ws 12 ≠ d.rcfg ∧ late) → Counted d e R.SFX_ERR F.SFX_ERR_LATE_CNT)) ∧
          (fw ws 12 = d.rcfg → ¬late →
            let same := fun (c : CopySt) => fw c.words 1 == fw ws 1
            (x.wait.find? same = none → DevNext o s fun e =>
              Frame { d with ring := e.ring } e [R.SFX_EP, R.SFX_STAT, cnt] ∧ SrcElse d e n ∧ kept e ∧
              (e.srcS n).wait = x.wait ++ [{ b := b, words := ws, tick := d.gtc }] ∧ (e.srcS n).last = x.last) ∧
            ∀ c, x.wait.find? same = some c → c.b ≠ b →
              (c.words = ws → d.newer ws → DevNext o s fun e => FrameTaken d e ws ∧ kept e ∧
                (e.srcS n).wait = x.wait.erase c ++ if c.tick + pairTicks < d.gtc then [{ b := b, words := ws, tick := d.gtc }] else []) ∧
              (c.words ≠ ws → d.gtc ≤ c.tick + pairTicks → DevNext o s fun e =>
                Frame { d with ring := e.ring, sync := e.sync } e [R.SFX_EP, R.SFX_STAT, R.SFX_ERR, R.TL_ZS_INFO, cnt] ∧ SrcElse d e n ∧
                (e.srcS n).wait = x.wait.erase c ∧ (e.srcS n).last = x.last ∧ Counted d e R.SFX_ERR F.SFX_ERR_MM_CNT ∧
                Raised e Pg.SFX Ev.FRAME_MISMATCH))))) ∧
    ∀ c, d.frozen Pg.SFX = false → x.wait.find? (fun c => decide (c.tick + pairTicks ≤ d.gtc)) = some c → c.words = ws →
      DevNext (exec (.pairTimeout n) s) s fun e => (e.srcS n).wait = x.wait.erase c ∧ (d.newer ws → FrameTaken d e ws) ∧
        (¬d.newer ws → Frame { d with ring := e.ring } e []) ∧
        (d.newer ws → c.b = true → d.ringUsed false = true → Counted d e R.SFX_DEG F.SFX_DEG_DEG_A ∧ Raised e Pg.SFX Ev.DEGRADED_A) ∧
        (d.newer ws → c.b = false → d.ringUsed true = true → Counted d e R.SFX_DEG F.SFX_DEG_DEG_B ∧ Raised e Pg.SFX Ev.DEGRADED_B)

/-- R398 to R403: a source whose deadline has passed is lost, with its reaction; a new cycle counts the sequence number, loses sources not
yet seen in the epoch, but for its commit cycle, and in RUN takes a split node to OVERCAST; in the commit cycle the new epoch holds, with
no source lost; the next poll of Garmal stops the machines that a loss has named and those that OVERCAST clamps, and one that it does not
enable enters STO; a held pair polls nothing. The model's reading where the rules leave one open: log entries 240, 250 and 340. -/
def Obligations.RingEpochs : Prop :=
  ∀ (s : State), s.Live →
    let d := s.dev
    let alone := d.trans.at1 ≠ d.now + 1
    let runs := d.frozen Pg.SFX = false
    (∀ n t, runs → d.deadline n = some t → t ≤ d.gtc → n ∈ d.peers → d.lost n = false →
      let act := getF (d.spb 0xC08) (F.RS_LACT_LACT n)
      DevNext (exec (.ringSrcLost n) s) s fun e => e.lost n = true ∧ (∀ j, j ≠ n → e.lost j = d.lost j) ∧ SrcElse d e n ∧
        (e.srcS n).last = none ∧ e.flag R.SFX_STAT F.SFX_STAT_RING_OK = false ∧ Raised e Pg.SFX Ev.RING_SRC_LOST ∧
        (act = 0 → Frame { d with ring := e.ring } e [R.SFX_LOST, R.SFX_STAT]) ∧
        (act = 1 → e.ring.stops = entriesThat d.meEn ∧
          ∀ m, d.meEn m = true → (d.tmS m).ss1 = none → (e.tmS m).ss1 = some (d.ss1Of m)) ∧
        (2 ≤ act → ∀ m, d.meEn m = true → Latched d e m 0xC)) ∧
    (runs → d.flag R.SAFE_STAT F.SAFE_STAT_SPB_LOADED = true → d.ring.cyc ≠ some d.cycNow →
      let lost := fun n => d.lost n = true ∨ (d.epoch ≠ 0 ∧ d.ring.epCyc ≠ some d.cycNow ∧ (d.srcS n).inEpoch = false)
      let other := d.peers.filter fun n => d.rsPart n != d.rsPart d.rsNode
      DevNext (exec .cycleBoundary s) s fun e => e.ring.cyc = some d.cycNow ∧
        e.ring.seq = (if d.ring.began then (d.ring.seq + 1) % 2 ^ 32 else d.ring.seq) ∧ (∀ n ∈ d.peers, lost n → e.lost n = true) ∧
        (other ≠ [] → (∀ n ∈ other, lost n) → d.flag R.SFX_STAT F.SFX_STAT_SPLIT = false →
          (d.devState = DS.RUN → alone → e.flag R.SFX_STAT F.SFX_STAT_SPLIT = true ∧ e.devState = DS.OVERCAST ∧
            e.ring.clamp = some d.gtc ∧ Raised e Pg.SFX Ev.OVERCAST_ENTER) ∧
          (d.devState = DS.READY → e.flag R.SFX_STAT F.SFX_STAT_SPLIT = true ∧ e.devState = DS.READY))) ∧
    (d.ring.cyc = some d.cycNow → exec .cycleBoundary s = .next s) ∧
    (∀ c, runs → d.ring.commitAt = some c → d.epPh = 2 → c ≤ d.cycNow → DevNext (exec .epochCommit s) s fun e =>
      e.epoch = d.epNew ∧ e.epPh = 0 ∧ e.reg R.SFX_LOST = 0 ∧ e.reg R.SFX_EP = 0 ∧ e.flag R.SFX_STAT F.SFX_STAT_SPLIT = false ∧
      e.flag R.SFX_STAT F.SFX_STAT_RING_OK = (d.epNew != 0) ∧ e.ring.commitAt = none ∧ Raised e Pg.SFX Ev.EPOCH_COMMIT ∧
      (∀ n ∈ d.peers, (e.srcS n).last = none ∧ (e.srcS n).inEpoch = false ∧ (e.srcS n).accAt = d.gtc + 1) ∧
      (d.devState ≠ DS.OVERCAST → Frame { d with ring := e.ring } e [R.SFX_STAT, R.SFX_LOST, R.SFX_EP]) ∧
      (d.devState = DS.OVERCAST → alone → e.devState = DS.READY)) ∧
    let held := d.flag R.RST_DOM F.RST_DOM_S0_HELD
    (held = true → exec .ringStatusPoll s = .next s) ∧
    (held = false → DevNext (exec .ringStatusPoll s) s fun e =>
      e.ring = { d.ring with stops := [], clamp := if d.devState = DS.OVERCAST then d.ring.clamp else none } ∧
      ∀ m, d.mDefined m = true → (∀ j g, j ≠ m → g ∈ d.mGroups m → g ∉ d.mGroups j) →
        let st := d.mState m
        let low := ∃ g ∈ d.mGroups m, d.genP g = false
        (m ∈ d.ring.stops → st = MS.RUN → d.cmdLoses m = false → (d.machS m).target = none → d.safe.keep = 0 →
          d.ring.clamp = none ∨ ¬low → e.mState m = MS.STOP ∧ e.mStat m F.MD_CAUSE = 0 ∧ Raised e Pg.SAFE Ev.MACH_STATE) ∧
        ∀ t, m ∉ d.ring.stops → d.ring.clamp = some t → (d.machS m).ovcDem.map (·.2) ≠ some t → d.devState = DS.OVERCAST →
          (st = MS.CATCH ∨ (drives st = true ∧ low) → Entered d e m MS.STO 8 ∧ EnablesLow d e m) ∧
          (drives st = true → ¬low → st ≠ MS.STOP → Entered d e m MS.STOP 8) ∧
          (st = MS.STOP → ¬low → e.mState m = MS.STOP))

/-! ### Garmal's commands -/

/-- R424 to R429: a complete message is taken whole, its one response appended where it fits or kept until it does; NOP answers its own
arguments, VERSION the image, NOTIFY sets the channel's switch, MACH_STATUS answers the machine's word, RING_REJOIN proposes a greater
epoch, BRAKE_P, OUT_M and RING_REQ set their bits; of every code of the tables a message of a wrong length gets BAD_LEN, one in a wrong
device state BAD_STATE, and a command without its message leaves the state; a message that no table serves gets BAD_CODE. The model's
reading where the rules leave one open: log entries 20 and 289. -/
def Obligations.GarmalMessages : Prop :=
  ∀ (s : State) (ch : Nat) (h : Word), s.dev.garHead ch = some h →
    let args := s.dev.garArgs ch h
    let d := s.dev.asked ch h
    let asks := fun (code : Nat) => s.dev.asks ch code h
    let same := fun (o : Host.Outcome State Fault Refusal) (st : Nat) (l : List Word) =>
      o = .next (s.withDev (d.respond ch h st l))
    (∀ row ∈ garTable, let o := exec (row.cmd ch) s
      (asks row.code → ¬row.len args → same o ST.BAD_LEN []) ∧
      (asks row.code → row.len args → ¬row.states d.devState → same o ST.BAD_STATE []) ∧ (¬asks row.code → o = .next s)) ∧
    (servedMsg ch h = true ↔ h.toNat / 2 ^ 14 % 4 = 0 ∧ ∃ row ∈ garTable, row.code = h.toNat / 2 ^ 24 ∧
      (if ch < 2 then row.code < 0x40 else row.code ∈ [0x01, 0x02, 0x04] ∨ 0x40 ≤ row.code)) ∧
    (Quiet s.dev d ∧ MbxElse s.dev d ch ∧ (d.mbxS ch).ba = (s.dev.mbxS ch).ba.drop (args.length + 1) ∧
      (d.mbxS ch).ab = (s.dev.mbxS ch).ab) ∧
    (∀ (st : Nat) (l : List Word), l.length ≤ 7 →
      let r := msgHeader (h.toNat / 2 ^ 24) (h.toNat / 2 ^ 16) 1 l.length st :: l
      let e := d.respond ch h st l
      Quiet d e ∧ MbxElse d e ch ∧
        if (d.mbxS ch).ab.length + r.length ≤ 8 then (e.mbxS ch).ab = (d.mbxS ch).ab ++ r ∧ (e.garS ch).held = []
        else e.mbxS ch = d.mbxS ch ∧ (e.garS ch).held = r) ∧
    (asks 0x01 → same (exec (.nop ch) s) ST.OK args) ∧
    (asks 0x02 → args = [] → same (exec (.version ch) s) ST.OK
      ([s.dev.reg (R.PG_ID Pg.SYS), BitVec.ofNat 32 (s.dev.get R.SEC_BOOT F.SEC_BOOT_VERSION)] ++
        (List.range 4).map fun k => s.dev.reg (R.SEC_HASH k))) ∧
    (∀ x, args = [x] →
      let m := x.toNat % 32
      (asks 0x04 → Responds (exec (.notify ch) s) s ch h ST.OK (fun _ => []) fun e => Quiet d e ∧ (e.garS ch).notify = bitOf x 0) ∧
      (asks 0x26 → fromConfigure d.devState = true →
        (d.machUsable m → same (exec (.machStatus ch) s) ST.OK [(d.machS m).stat]) ∧
        (20 ≤ m → same (exec (.machStatus ch) s) ST.BAD_ARG [])) ∧
      (asks 0x32 → fromReady d.devState = true → d.takenAt Mid.S0 R.SAFE_OUT = true →
        Responds (exec (.brakeP ch) s) s ch h ST.OK (fun _ => []) fun e => Frame d e [R.SAFE_OUT] ∧
          e.flag R.SAFE_OUT F.SAFE_OUT_PBRK_P_REL = bitOf x 0 ∧
          ∀ f ∈ [F.SAFE_OUT_DIS_M_LATE, F.SAFE_OUT_DIS_P_REQ, F.SAFE_OUT_PBRK_M_REL, F.SAFE_OUT_DIS_M_REQ],
            e.get R.SAFE_OUT f = d.get R.SAFE_OUT f) ∧
      (asks 0x43 → fromReady d.devState = true →
        Responds (exec (.outM ch) s) s ch h ST.OK (fun e => [e.safeOutWord]) fun e => Frame { d with safe := e.safe } e [R.SAFE_OUT] ∧
          e.flag R.SAFE_OUT F.SAFE_OUT_PBRK_M_REL = bitOf x 0 ∧ e.flag R.SAFE_OUT F.SAFE_OUT_DIS_M_REQ = bitOf x 1 ∧
          e.get R.SAFE_OUT F.SAFE_OUT_PBRK_P_REL = d.get R.SAFE_OUT F.SAFE_OUT_PBRK_P_REL)) ∧
    (∀ x y, args = [x, y] → asks 0x44 → fromReady d.devState = true →
      Responds (exec (.ringReq ch) s) s ch h ST.OK (fun _ => []) fun e => Frame d e [R.SFX_TX_REQ] ∧
        e.get R.SFX_TX_REQ F.SFX_TX_REQ_STO_REQ = x.toNat % 65536 ∧ e.get R.SFX_TX_REQ F.SFX_TX_REQ_SS1_REQ = y.toNat % 65536) ∧
    (asks 0x31 → args = [] →
      let can := (d.devState = DS.READY ∧ (d.epoch = 0 ∨ d.flag R.SFX_STAT F.SFX_STAT_SPLIT = true)) ∨
        (d.devState = DS.OVERCAST ∧ d.safe.ovcDone = true)
      (can → Responds (exec (.ringRejoin ch) s) s ch h ST.OK (fun _ => []) fun e =>
        Frame { d with ring := e.ring, free := e.free } e [R.SFX_EP, R.SFX_STAT] ∧ e.epPh ≠ 0 ∧ e.epoch = d.epoch ∧ e.ring.epStart = d.cycNow ∧
        ((∀ n < 16, ∀ p ∈ (d.srcS n).props, p.2.1 < 2 ^ 16) → e.epNew = d.firstNew ∧ (d.epoch < e.epNew ∨ e.epNew = 1))) ∧
      (¬can → same (exec (.ringRejoin ch) s) ST.MACH_BUSY [])) ∧
    (servedMsg ch h = false → same (exec (.badCode ch) s) ST.BAD_CODE []) ∧ (servedMsg ch h = true → exec (.badCode ch) s = .next s)

/-- R324 to R328, R332, R339, R344, R351, R352, R427: MACH_DEFINE and MACH_CLAIM claim every unit or name what prevents it; CFG_WRITE
writes as S0 in the machine's units; MACH_START enters CATCH, MACH_STOP STOP, MACH_STO STO or FAULT, MACH_DISCHARGE a discharge,
MACH_CLEAR STO; MACH_CMD writes the demands; in another machine state, and where a reaction of the same evaluation wins (R335), each
answers MACH_BUSY and changes nothing. The model's reading where the rules leave one open: log entries 212, 214, 216 and 217. -/
def Obligations.GarmalMachines : Prop :=
  ∀ (s : State) (ch : Nat) (h a : Word) (l : List Word), s.Live → s.dev.garHead ch = some h → s.dev.garArgs ch h = a :: l →
    let d := s.dev.asked ch h
    let m := a.toNat % 32
    let asks := fun (code : Nat) => s.dev.asks ch code h
    let st := d.mState m
    let busy := fun (o : Host.Outcome State Fault Refusal) => o = .next (s.withDev (d.respond ch h ST.MACH_BUSY []))
    let does := fun (o : Host.Outcome State Fault Refusal) (P : Dev → Prop) => Responds o s ch h ST.OK (fun _ => []) P
    let n := a.toNat / 2 ^ 12 % 8
    let i := a.toNat / 2 ^ 8 % 16
    (d.devState = DS.CONFIGURE → n ≠ 0 → n ≠ 7 → l.length = n →
      (asks 0x10 → m < 20 → groupPresent d.member m = true → d.primOf m = none → i + n ≤ 16 →
        let ws := (List.range n).map fun k => (i + k, nthD 0 l k)
        let us := (if d.mDefined m then [] else [(0xB, m)]) ++ ws.flatMap fun (x : Nat × Word) => d.wordUnits m x.1 x.2
        ¬((∃ x ∈ ws, x.1 = 0 ∧ getF x.2 F.MD_SIX = 1) ∧ d.secOf m = none) →
        (d.claimable us → does (exec (.machDefine ch) s) fun e => e.mDefined m = true ∧ Claimed e m us ∧
          (∀ x ∈ ws, e.mdWord m x.1 = x.2 &&& mdMask x.1) ∧ ∀ j, j ≠ m → e.machS j = d.machS j) ∧
        ∀ u, us.find? d.heldOther = some u → exec (.machDefine ch) s = .next (s.withDev
          (d.respond ch h ST.CLAIM_CONFLICT [unitArg u.1 u.2, BitVec.ofNat 32 (d.holder (kindOwn u.1 u.2))]))) ∧
      (asks 0x11 → d.machUsable m → i ≠ 0 → i ≤ 0xB →
        let us := l.map fun w => (i, w.toNat)
        (d.claimable us → does (exec (.machClaim ch) s) fun e => Claimed e m us ∧ ∀ j, j ≠ m → e.machS j = d.machS j) ∧
        ∀ u, us.find? d.heldOther = some u → exec (.machClaim ch) s = .next (s.withDev
          (d.respond ch h ST.CLAIM_CONFLICT [unitArg u.1 u.2, BitVec.ofNat 32 (d.holder (kindOwn u.1 u.2))])))) ∧
    (∀ w r, asks 0x12 → l = w :: r → r.length % 2 = 0 → DS.CONFIGURE ≤ d.devState → d.devState ≤ DS.RUN →
      let x := d.tryWrite (pageOf a.toNat) fun e => e.pWrite Mid.S0 a.toNat w
      let may := d.inMachUnit a.toNat = true ∧ d.garmalCmd a.toNat = false
      (may → x.2 = false → r = [] → exec (.cfgWrite ch) s = .next (s.withDev ((d.pWrite Mid.S0 a.toNat w).respond ch h ST.OK [1]))) ∧
      (may → x.2 = false → let y := (d.pWrite Mid.S0 a.toNat w).cfgPairs 1 r
        exec (.cfgWrite ch) s = .next (s.withDev (y.dev.respond ch h y.st y.args))) ∧
      (may → x.2 = true → exec (.cfgWrite ch) s = .next (s.withDev ((d.pWrite Mid.S0 a.toNat w).respond ch h ST.DENIED [0, a]))) ∧
      (¬may → exec (.cfgWrite ch) s = .next (s.withDev (d.respond ch h ST.DENIED [0, a])))) ∧
    (d.machUsable m → d.cmdLoses m = true →
      (asks 0x20 → l = [] → d.devState = DS.RUN → busy (exec (.machStart ch) s)) ∧
      (asks 0x21 → lenMask (a :: l) = true → readyRun d.devState = true → busy (exec (.machCmd ch) s)) ∧
      (asks 0x22 → l = [] → d.devState = DS.RUN → busy (exec (.machStop ch) s)) ∧
      (asks 0x23 → l = [] → fromReady d.devState = true → busy (exec (.machSto ch) s)) ∧
      (asks 0x24 → l = [] → readyRun d.devState = true → busy (exec (.machDischarge ch) s)) ∧
      (asks 0x25 → l = [] → readyRun d.devState = true → busy (exec (.machClear ch) s))) ∧
    (d.machUsable m → d.cmdLoses m = false →
      (asks 0x20 → l = [] → d.devState = DS.RUN →
        (st = MS.STO → (d.machS m).target = none → d.startCheck m = true → does (exec (.machStart ch) s) fun e =>
          MachOnly d e m ∧ Entered d e m MS.CATCH 0 ∧ EnablesLow d e m ∧ e.mStat m F.MD_ATTEMPT = 0 ∧
          (e.machS m).neg = bitOf a 8) ∧
        (st = MS.STO → (d.machS m).target = none → d.startCheck m = false →
          exec (.machStart ch) s = .next (s.withDev (d.respond ch h ST.MACH_CFG_ERR []))) ∧
        (st ≠ MS.STO ∨ (d.machS m).target ≠ none → busy (exec (.machStart ch) s))) ∧
      (asks 0x21 → lenMask (a :: l) = true → readyRun d.devState = true →
        let ks := maskBits (a.toNat / 2 ^ 12)
        let c := if bitOf a 8 then d.mSpd m else d.mMain m
        (st ≠ MS.STOP → st ≠ MS.DISCHARGE → d.ctxPresent c = true → (bitOf a 8 = true ∨ ∀ k ∈ ks, k < 2) →
          (∀ k ∈ ks, d.takenAt Mid.S0 (R.CTX_CMD c k) = true) → does (exec (.machCmd ch) s) fun e =>
            FrameP d e [Pg.CTX (c / 8)] ∧ ∀ x ∈ ks.zip l, e.reg (R.CTX_CMD c x.1) = wordOfInt (sext 20 x.2.toNat)) ∧
        (st = MS.STOP ∨ st = MS.DISCHARGE → busy (exec (.machCmd ch) s))) ∧
      (asks 0x22 → l = [] → d.devState = DS.RUN →
        (st = MS.RUN → (d.machS m).target = none → does (exec (.machStop ch) s) fun e => MachOnly d e m ∧ Entered d e m MS.STOP 0) ∧
        (st ≠ MS.RUN ∨ (d.machS m).target ≠ none → busy (exec (.machStop ch) s))) ∧
      (asks 0x23 → l = [] → fromReady d.devState = true →
        (st ≠ MS.OFF → does (exec (.machSto ch) s) fun e => MachOnly d e m ∧ EnablesLow d e m ∧
          Entered d e m (if d.mReleased m then MS.FAULT else MS.STO) 0) ∧
        (st = MS.OFF → busy (exec (.machSto ch) s))) ∧
      (asks 0x24 → l = [] → readyRun d.devState = true →
        let mode := d.md m 0 F.MD_DIS_MODE
        let wind := (mode = 1 ∨ mode = 2) ∧ d.devState = DS.RUN ∧ d.mReleased m = false ∧
          (d.mSpeed m).abs.lt (d.mdSpeed m 4 F.MD_HI) = true ∧ d.armOk m MS.DISCHARGE = true
        (st ≠ MS.OFF → st ≠ MS.FAULT → ¬wind → mode ≠ 1 → does (exec (.machDischarge ch) s) fun e => MachOnly d e m ∧
          EnablesLow d e m ∧ Entered d e m MS.DISCHARGE 0 ∧ e.flag R.SAFE_OUT F.SAFE_OUT_DIS_P_REQ = true) ∧
        (st ≠ MS.OFF → st ≠ MS.FAULT → wind → does (exec (.machDischarge ch) s) fun e => MachOnly d e m ∧ e.mState m = st ∧
          (e.machS m).target = some MS.DISCHARGE ∧ (e.machS m).wind = true ∧ (e.machS m).armAt = d.gtc) ∧
        (st = MS.OFF ∨ st = MS.FAULT ∨ (¬wind ∧ mode = 1) → busy (exec (.machDischarge ch) s))) ∧
      (asks 0x25 → l = [] → readyRun d.devState = true →
        let cmps := ((d.machS m).units.filter fun (u : Nat × Nat) => u.1 == 2).map fun (u : Nat × Nat) => u.2
        let x := cmps.foldl (fun (e : Dev) c =>
          if e.flag (R.CMP_STAT c) F.CMP_STAT_LATCHED then e.pWrite Mid.S0 (R.CMP_STAT c) 0x80000000 else e) (d.mClear m fun _ => true)
        let stuck := x.mReleased m = true ∨ ∃ c ∈ cmps, x.flag (R.CMP_STAT c) F.CMP_STAT_LATCHED = true
        (st = MS.FAULT → ¬stuck → does (exec (.machClear ch) s) fun e =>
          MachOnly x e m ∧ EnablesLow x e m ∧ Entered x e m MS.STO 0) ∧
        (st = MS.FAULT → stuck → exec (.machClear ch) s = .next (s.withDev (x.respond ch h ST.MACH_BUSY []))) ∧
        (st ≠ MS.FAULT → busy (exec (.machClear ch) s))))

/-- R364, R365, R381 to R384, R428, R429: DEV_STATE changes the device's state where it may, from CONFIGURE with the safety parameter
block loaded; SPB_WRITE writes both flash copies from S0's window and gives the window to the channel's host; S1 acknowledges entries and
sets and clears requests of STO and SS1. The model's reading where the rules leave one open: log entries 219 and 235. -/
def Obligations.GarmalDevice : Prop :=
  ∀ (s : State) (ch : Nat) (h a : Word) (l : List Word), s.Live → s.dev.garHead ch = some h → s.dev.garArgs ch h = a :: l →
    let d := s.dev.asked ch h
    let asks := fun (code : Nat) => s.dev.asks ch code h
    let st := d.devState
    let alone := d.trans.at1 ≠ d.now + 1
    let word := fun (e : Dev) => [e.reg R.SYS_STATE]
    let bits := fun (f : Nat → Bool) (m : Nat) => bitOf a m || (f m && !bitOf (nthD 0 l 0) m)
    (asks 0x03 → l = [] → alone →
      let o := exec (.devState ch) s
      (st = DS.CONFIGURE → a.toNat = DS.COMMISSION → Responds o s ch h ST.OK word fun e =>
        (e.devState = DS.COMMISSION ∨ e.devState = DS.READY) ∧ e.flag R.SAFE_STAT F.SAFE_STAT_SPB_LOADED = true ∧
        (e.get R.SAFE_STAT F.SAFE_STAT_SPB_ERR ≠ 0 → e.devState = DS.COMMISSION) ∧
        e.reg R.SAFE_CRC_P = spbCrc (spbPick s.mems.flash)) ∧
      (st = DS.READY → a.toNat = DS.RUN → d.runOk = true → Responds o s ch h ST.OK word fun e =>
        e.devState = DS.RUN ∧ e.get R.SYS_STATE F.SYS_STATE_PREV = DS.READY ∧ Raised e Pg.SYS Ev.STATE_CHANGE) ∧
      (st = DS.RUN → a.toNat = DS.READY → Responds o s ch h ST.OK word fun e =>
        e.devState = DS.READY ∧ e.get R.SYS_STATE F.SYS_STATE_PREV = DS.RUN ∧ Raised e Pg.SYS Ev.STATE_CHANGE) ∧
      (st ≠ DS.CONFIGURE ∨ a.toNat ≠ DS.COMMISSION → st ≠ DS.READY ∨ a.toNat ≠ DS.RUN ∨ d.runOk = false →
        st ≠ DS.RUN ∨ a.toNat ≠ DS.READY → o = .next (s.withDev (d.respond ch h ST.BAD_STATE [])))) ∧
    (∀ b, asks 0x30 → l = [b] → st = DS.CONFIGURE ∨ st = DS.COMMISSION ∨ st = DS.READY → a.toNat ≤ 15 → b.toNat ≤ 0xF000 →
      b.toNat % 4 = 0 →
      let ws := (List.range 1024).map fun k => s.mems.win.readWord (a.toNat * 0x10000 + b.toNat + 4 * k)
      (∀ m, flashCopies m ws = (m.writeWords spbFlash0 ws).writeWords spbFlash1 ws ∨
        flashCopies m ws = (m.writeWords spbFlash1 ws).writeWords spbFlash0 ws) ∧
      (d.winOwner a.toNat = Mid.S0 → ∃ e, exec (.spbWrite ch) s = .next { s with
          dev := e.respond ch h ST.OK [crc32cWords (ws.take 1022)]
          mems := { s.mems with flash := flashCopies s.mems.flash ws } } ∧
        e.winOwner a.toNat = chanHost ch ∧ Raised e Pg.WIN Ev.WIN_GIVEN ∧
        (st = DS.CONFIGURE → e.devState = st ∧ e.flag R.SAFE_STAT F.SAFE_STAT_CONFIRMED = false)) ∧
      (d.winOwner a.toNat ≠ Mid.S0 →
        exec (.spbWrite ch) s = .next (s.withDev (d.respond ch h ST.WIN_ERR [BitVec.ofNat 32 a.toNat])))) ∧
    (asks 0x40 → l = [] → readyRun st = true ∨ st = DS.OVERCAST →
      Responds (exec (.safeAck ch) s) s ch h ST.OK (fun e => [d.reg R.SAFE_TRIP &&& ~~~ e.reg R.SAFE_TRIP]) fun e =>
        Frame (d.safePart e) e safeRegs ∧ ∀ m, m < 20 →
          (bitOf a m = false ∨ d.ackBlocked m = true → e.tripped m = d.tripped m ∧ e.tmS m = d.tmS m) ∧
          (bitOf a m = true → d.ackBlocked m = false → d.tripped m = true → e.tripped m = false ∧ e.granted m = false ∧
            e.get (R.TM_STAT m) F.TM_STAT_CAUSE = 0)) ∧
    (asks 0x41 → l.length = 1 → fromCommission st = true →
      Responds (exec (.safeSto ch) s) s ch h ST.OK (fun e => [e.reg R.SAFE_REQ_STO]) fun e => Frame (d.safePart e) e safeRegs ∧
        ∀ m, m < 20 → bitOf (e.reg R.SAFE_REQ_STO) m = bits (bitOf (d.reg R.SAFE_REQ_STO)) m ∧
          (bitOf a m = true → bitOf (d.reg R.SAFE_REQ_STO) m = false → d.meEn m = true → Latched d e m 0xC)) ∧
    (asks 0x42 → l.length = 1 → st = DS.RUN ∨ st = DS.OVERCAST →
      Responds (exec (.safeSs1 ch) s) s ch h ST.OK (fun e => [e.reg R.SAFE_REQ_SS1]) fun e => Frame (d.safePart e) e safeRegs ∧
        ∀ m, m < 20 → bitOf (e.reg R.SAFE_REQ_SS1) m = bits (bitOf (d.reg R.SAFE_REQ_SS1)) m ∧
          (bitOf a m = true → bitOf (d.reg R.SAFE_REQ_SS1) m = false → d.meEn m = true → (d.tmS m).ss1 = none →
            e.tmS m = { d.tmS m with ss1 := some (d.ss1Of m), still := 0 }))

/-! ### Ports and memory -/

/-- R435 to R437: an accepted CAN frame, of the CAN FD format only with FD_EN and with a second bit rate only with BRS_EN, fills the lowest
free receive buffer, or is lost with CAN_RX_OVF; a frame with an error is counted; of the pending frames that FD_EN admits the one with the
lowest identifier is sent, a success frees its buffer and a failure counts 8, to BUS_OFF beyond 255; RECOVER and 128 sequences bring the
controller back. The model's reading where the rules leave one open: log entries 80, 81 and 260. -/
def Obligations.CanBuses : Prop :=
  ∀ (s : State) (k : Nat), s.Up → k < nCan →
    let d := s.dev
    let st := R.CAN_STAT k
    let q := d.canS k
    let off := d.flag st F.CAN_STAT_BUS_OFF
    let others := fun (e : Dev) => ∀ j, j ≠ k → e.canS j = d.canS j
    let tec := d.get st F.CAN_STAT_TEC
    let runs := d.frozen (Pg.CAN k) = false
    let fdEn := d.flag (R.CAN_CTRL k) F.CAN_CTRL_FD_EN
    let sends := fun (b : Nat) => fdEn = true ∨ Config.canForm (d.reg (canBuf k b 1)) = 0
    (∀ (ident ctrl : Word) (data : List Byte),
      let o := exec (.canFrameRx k ident ctrl ⟨data, false⟩) s
      let free := ((List.range 24).map (· + 16)).find? fun b => !q.full.contains b
      let fits := (fdEn = true ∨ (data.length ≤ 8 ∧ Config.canForm ctrl = 0)) ∧
        (d.flag (R.CAN_CTRL k) F.CAN_CTRL_BRS_EN = true ∨ Config.canForm ctrl < 2)
      (runs → off = false → DevNext (exec (.canFrameRx k ident ctrl ⟨data, true⟩) s) s fun e => Frame { d with free := e.free } e [st] ∧
        e.canS k = q ∧ Counted d e st F.CAN_STAT_REC) ∧
      (off = true ∨ ¬fits → o = .next s) ∧
      (runs → fits → off = false → d.canAccepts k ident = false → DevNext o s fun e => Frame d e [st] ∧ e.canS k = q ∧
        e.get st F.CAN_STAT_REC = d.get st F.CAN_STAT_REC - 1) ∧
      (∀ b, runs → fits → off = false → d.canAccepts k ident = true → free = some b → DevNext o s fun e =>
        Frame { d with can := e.can } e (st :: (List.range 19).map (canBuf k b)) ∧ others e ∧
        e.canS k = { q with full := q.full ++ [b] } ∧ e.reg (canBuf k b 0) = ident ∧ e.reg (canBuf k b 1) = ctrl ∧
        e.reg (canBuf k b 2) = BitVec.ofNat 32 d.gtc ∧
        ∀ j, j < (wordsOfBytes (data.take 64)).length → e.reg (canBuf k b (3 + j)) = nthD 0 (wordsOfBytes (data.take 64)) j) ∧
      (runs → fits → off = false → d.canAccepts k ident = true → free = none → DevNext o s fun e => Frame d e [st] ∧ e.canS k = q ∧
        Raised e (Pg.CAN k) Ev.CAN_RX_OVF)) ∧
    (d.canNext k = none → ∀ ok, exec (.canFrameTx k ok) s = .next s) ∧
    (∀ b, runs → off = false → d.canNext k = some b →
      (b ∈ q.pend ∧ sends b ∧ ∀ x ∈ q.pend, x < 16 → sends x → (d.reg (canBuf k b 0)).toNat % 2 ^ 29 ≤ (d.reg (canBuf k x 0)).toNat % 2 ^ 29) ∧
      (DevNext (exec (.canFrameTx k true) s) s fun e => Frame { d with can := e.can } e [st, canBuf k b 2] ∧ others e ∧
        e.canS k = { q with pend := q.pend.erase b } ∧ e.reg (canBuf k b 2) = BitVec.ofNat 32 d.gtc ∧
        e.get st F.CAN_STAT_TEC = tec - 1 ∧ e.get st F.CAN_STAT_LEC = 0) ∧
      DevNext (exec (.canFrameTx k false) s) s fun e => Frame { d with free := e.free } e [st] ∧ e.canS k = q ∧
        e.get st F.CAN_STAT_TEC = min 255 (tec + 8) ∧
        (255 < tec + 8 → e.flag st F.CAN_STAT_BUS_OFF = true ∧ Raised e (Pg.CAN k) Ev.CAN_BUS_OFF) ∧
        (tec + 8 ≤ 255 → e.flag st F.CAN_STAT_BUS_OFF = false)) ∧
    (∀ mid, d.takenAt mid (R.CAN_CTRL k) = true → DevNext (exec (.canRecover mid k) s) s fun e => Frame d e [R.CAN_CTRL k] ∧
      e.flag (R.CAN_CTRL k) F.CAN_CTRL_RECOVER = off) ∧
    (runs → off = true → d.flag (R.CAN_CTRL k) F.CAN_CTRL_RECOVER = true → DevNext (exec (.canRecoveryDone k) s) s fun e =>
      Frame d e [st, R.CAN_CTRL k] ∧ e.flag st F.CAN_STAT_BUS_OFF = false ∧ e.get st F.CAN_STAT_TEC = 0 ∧
      e.get st F.CAN_STAT_REC = 0 ∧ e.flag st F.CAN_STAT_PASSIVE = false ∧ e.flag (R.CAN_CTRL k) F.CAN_CTRL_RECOVER = false)

/-- R438 to R440, R450: a frame that passes a port's filter waits in its FIFO, or is counted where it does not fit; EtherType 0x88F7 goes
to Garmal alone, which answers a Pdelay_Req on either port with its receive time; a frame is sent with its last word; reads take the oldest frame word by word, RXPOP drops it; a measured delay below its
limit, taken once per second, makes the port capable; a change of the link is shown. The model's reading where the rules leave one open:
log entries 261, 262, 263 and 341. -/
def Obligations.EthernetPorts : Prop :=
  ∀ (s : State) (k : Nat), s.Up → k < nEth →
    let d := s.dev
    let st := R.ETH_STAT k
    let q := d.ethS k
    let len := d.get (R.ETH_TXLEN k) F.ETH_TXLEN_LEN
    let up := d.flag st F.ETH_STAT_LINK
    let runs := d.frozen (Pg.ETH k) = false
    let set := fun (o : Host.Outcome State Fault Refusal) (x : EthSt) => o = .next (s.withDev (d.setEth k x))
    (∀ bs : List Byte,
      let o := exec (.ethFrameRx k bs) s
      let ok := up = true ∧ etherType bs ≠ 0x88F7 ∧ 14 ≤ bs.length ∧ bs.length ≤ ethMax ∧ d.ethAccepts k bs = true
      let used := (q.rx.map frameSpace).sum + frameSpace bs
      (runs → ok → used ≤ ethFifo → set o { q with rx := q.rx ++ [bs] }) ∧
      (runs → ok → ethFifo < used → DevNext o s fun e => Frame d e [st] ∧ Counted d e st F.ETH_STAT_RX_DROP) ∧
      let asked := up = true ∧ 14 ≤ bs.length ∧ bs.length ≤ ethMax ∧ isPdelayReq bs = true ∧ d.flag R.RST_DOM F.RST_DOM_S0_HELD = false ∧
        d.devState ≠ DS.BOOT
      (runs → asked → set o { q with pdAns := some d.gtc }) ∧ (¬ok → ¬asked → o = .next s)) ∧
    (∀ (mid : Nat) (w : Word),
      let o := exec (.ethTxdWrite mid k w) s
      let tx := q.tx ++ [w]
      let whole := 0 < len ∧ len ≤ ethMax ∧ len ≤ 4 * tx.length
      (d.takenAt mid (R.ETH_TXD k) = true → 4 * q.tx.length < ethFifo →
        (whole → set o { q with tx := [], sent := (tx.flatMap bytesOfWord).take len }) ∧ (¬whole → set o { q with tx := tx })) ∧
      (d.takenAt mid (R.ETH_TXD k) = true → ethFifo ≤ 4 * q.tx.length →
        DevNext o s fun e => Frame d e [st] ∧ e.flag st F.ETH_STAT_TX_OVF = true ∧ e.ethS k = q) ∧
      (d.takenAt mid (R.ETH_TXD k) = false → o = .next (s.withDev (d.deny (Pg.ETH k))))) ∧
    (∀ mid f r, q.rx = f :: r → DevNext (exec (.ethRxdRead mid k) s) s fun e =>
      Quiet { d with rdata := e.rdata, eth := e.eth } e ∧ (∀ j, j ≠ k → e.ethS j = d.ethS j) ∧
      e.answered mid = wordOfBytes ((f.drop (4 * q.pos)).take 4) ∧
      e.ethS k = if f.length ≤ 4 * (q.pos + 1) then { q with rx := r, pos := 0 } else { q with pos := q.pos + 1 }) ∧
    (∀ mid, q.rx = [] → DevNext (exec (.ethRxdRead mid k) s) s fun e => OnlyRead d e ∧ e.answered mid = 0) ∧
    (∀ mid, d.takenAt mid (R.ETH_CTRL k) = true → set (exec (.ethRxpop mid k) s) { q with rx := q.rx.drop 1, pos := 0 }) ∧
    (∀ ns, d.get R.TL_CTRL F.TL_CTRL_SYNC_PORT = k →
      (runs → q.pdNext ≤ d.gtc → DevNext (exec (.pdelayRequest ns) s) s fun e => Frame { d with eth := e.eth } e [R.ETH_PDLY k, st] ∧
        (∀ j, e.ethS j = if j = k then { q with pdNext := d.gtc + 400000000 } else d.ethS j) ∧
        e.get (R.ETH_PDLY k) F.ETH_PDLY_DLY = min ns 65535 ∧
        e.flag st F.ETH_STAT_AS_CAP = decide (min ns 65535 < d.get (R.ETH_PDLY k) F.ETH_PDLY_MAX)) ∧
      (d.gtc < q.pdNext → exec (.pdelayRequest ns) s = .next s)) ∧
    ∀ b v, runs → DevNext (exec (.ethLink k b v) s) s fun e => Frame d e [st] ∧ e.flag st F.ETH_STAT_LINK = b ∧
      (b = true → e.get st F.ETH_STAT_SPEED = v % 4) ∧ (b ≠ up → Raised e (Pg.ETH k) Ev.ETH_LINK)

/-- R415, R441, R442, R448 to R450: the link and the function of PCIe, with what the peers of the host see; a link that the endpoint cannot
have comes about never; training makes LPDDR4X usable; the patrol scrub goes through its blocks, counts what it finds, errors that stood
there before among it, and a block that cannot be corrected reads as zero. The model's reading where the rules leave one open: log entries
264 and 265. -/
def Obligations.PcieAndMemory : Prop :=
  ∀ s : State, s.Up →
    let d := s.dev
    (hasPcie d.member = true →
      (∀ l0 speed width d3 payload, d.frozen Pg.PCIE = false →
        let up := l0 || speed != 0
        let legal := payload ≤ 256 ∧ (up = true → 1 ≤ speed ∧ speed ≤ 3 ∧ 1 ≤ width ∧ width ≤ 2)
        let o := exec (.pcieLink l0 speed ⟨width, payload⟩ d3) s
        (legal → DevNext o s fun e => Frame { d with pcie := e.pcie } e [R.PCIE_STAT, R.RST_DOM] ∧
          e.pcie = { l0 := l0, l1 := up && !l0, d3 := d3, fnRst := d.pcie.fnRst && !l0, payload := if up then payload else 0 } ∧
          e.flag R.PCIE_STAT F.PCIE_STAT_LINK_UP = up ∧ e.get R.PCIE_STAT F.PCIE_STAT_SPEED = (if up then speed else 0) ∧
          e.get R.PCIE_STAT F.PCIE_STAT_WIDTH = (if up then width else 0) ∧ e.flag R.PCIE_STAT F.PCIE_STAT_D3HOT = d3 ∧
          (l0 ≠ d.pcie.l0 → Raised e Pg.PCIE Ev.PCIE_LINK)) ∧
        (¬legal → o = .next s)) ∧
      DevNext (exec .pcieFunctionReset s) s fun e =>
        Frame { d with pcie := { d.pcie with d3 := false, fnRst := true, payload := 0 } } e
          ([R.PCIE_STAT, R.RST_DOM] ++ (List.range 128).map R.PCIE_MSIX) ∧
        e.flag R.PCIE_STAT F.PCIE_STAT_D3HOT = false ∧ e.flag R.RST_DOM F.RST_DOM_PCIE_RST = true ∧
        (∀ i, i < 128 → e.reg (R.PCIE_MSIX i) = resetWord d.member (R.PCIE_MSIX i)) ∧
        (d.peerRst Mid.PCIE = false → ∀ c, c < 32 →
          (d.mbxSide c Mid.PCIE = 1 → (e.mbxS c).rstSeenB = true) ∧ (d.mbxSide c Mid.PCIE = 2 → (e.mbxS c).rstSeenA = true))) ∧
    (hasPcie d.member = false → exec .pcieFunctionReset s = .next s ∧ ∀ l0 v w d3 n, exec (.pcieLink l0 v ⟨w, n⟩ d3) s = .next s) ∧
    (∀ ok n, d.frozen Pg.DDR = false → hasDdr d.member = true → d.devState = DS.BOOT → DevNext (exec (.ddrTrainingDone ok n) s) s fun e =>
      Frame { d with sys := { d.sys with fitted := if ok then n else 0, scrub := 0 } } e [R.DDR_STAT, R.REC_STAT] ∧
      e.flag R.DDR_STAT F.DDR_STAT_READY = ok ∧ e.flag R.DDR_STAT F.DDR_STAT_TRAIN_FAIL = !ok ∧
      e.flag R.REC_STAT F.REC_STAT_ONCHIP = !ok ∧
      e.get R.DDR_STAT F.DDR_STAT_USABLE
        = if ok then (if d.flag R.DDR_CFG F.DDR_CFG_ECC_EN then n * 7 / 8 else n) % 65536 else 0) ∧
    ∀ ups : List (Nat × Bool), d.frozen Pg.DDR = false →
      let soft := d.sys.ddrSoft ++ ups
      let on := d.flag R.DDR_STAT F.DDR_STAT_READY = true ∧ d.flag R.DDR_CFG F.DDR_CFG_ECC_EN = true ∧ d.gtc % 1600 = 0
      let b := d.sys.scrub
      let n := d.get R.DDR_STAT F.DDR_STAT_USABLE * 16384
      let x := { d with sys := { d.sys with ddrSoft := soft, scrub := if n ≤ b + 1 then 0 else b + 1 } }
      let lost := fun (t : State) => t = { s with dev := t.dev, mems := { s.mems with ddr := t.mems.ddr } } ∧
        Frame { x with sys := { x.sys with bad := t.dev.sys.bad, ddrSoft := t.dev.sys.ddrSoft } } t.dev [R.DDR_ECC, R.DDR_ECC_ADDR] ∧
        (∀ c, c ∈ t.dev.sys.bad ↔ c = b ∨ c ∈ d.sys.bad) ∧ (∀ u, u ∈ t.dev.sys.ddrSoft ↔ u ∈ soft ∧ u.1 ≠ b) ∧
        Counted d t.dev R.DDR_ECC F.DDR_ECC_UNCORR ∧ t.dev.reg R.DDR_ECC_ADDR = BitVec.ofNat 32 b ∧
        (hasDdr d.member = true → Raised t.dev Pg.DDR Ev.DDR_ECC_UNCORR) ∧
        ∀ a, t.mems.ddr.read a = if 64 * b ≤ a ∧ a < 64 * b + 64 then 0 else s.mems.ddr.read a
      (¬on → ∀ r, exec (.ddrPatrolScrub ⟨r, ups⟩) s = .next (s.withDev { d with sys := { d.sys with ddrSoft := soft } })) ∧
      (on → (b ∉ d.sys.bad → (∀ u ∈ soft, u.1 ≠ b) → exec (.ddrPatrolScrub ⟨.ok, ups⟩) s = .next (s.withDev x) ∧
          DevNext (exec (.ddrPatrolScrub ⟨.corrected, ups⟩) s) s fun e => Frame x e [R.DDR_ECC] ∧ Counted d e R.DDR_ECC F.DDR_ECC_CORR ∧
            (hasDdr d.member = true → Raised e Pg.DDR Ev.DDR_ECC_CORR)) ∧
        (b ∉ d.sys.bad → soft.filter (fun u => u.1 == b) = [(b, false)] → DevNext (exec (.ddrPatrolScrub ⟨.ok, ups⟩) s) s fun e =>
          Frame { x with sys := { x.sys with ddrSoft := soft.filter fun u => u.1 != b } } e [R.DDR_ECC] ∧
          Counted d e R.DDR_ECC F.DDR_ECC_CORR ∧ (hasDdr d.member = true → Raised e Pg.DDR Ev.DDR_ECC_CORR)) ∧
        (b ∉ d.sys.bad → soft.filter (fun u => u.1 == b) = [(b, true)] → NextWith (exec (.ddrPatrolScrub ⟨.ok, ups⟩) s) lost) ∧
        NextWith (exec (.ddrPatrolScrub ⟨.uncorrectable, ups⟩) s) lost)

/-- R443 to R445: a frame that ends before its request CRC is discarded and counted; one that fails a check changes nothing but its
counter and answers the code; RD answers the words of successive bus reads at its address, four bytes on each time, RD_FIX those of
successive reads at its address itself; WR and WR_FIX write their words likewise, in order, each as a bus write of the SPI host, and answer
4 where one was refused, the key frame writes the two key words; of every response the host takes what SPI_CS leaves of it; a frame of
another command leaves the state. The model's reading where the rules leave one open: log entries 83 and 267. -/
def Obligations.SpiFrames : Prop :=
  ∀ (s : State) (f : List Byte), s.Up →
    let d := s.dev
    let c := frCmd f
    let n := frCount f
    let takes := fun (status : Nat) (ws : List Word) => (frAnswer status ws).take (f.length - (frBody f + 6))
    let seen := fun (step i : Nat) => (List.range i).foldl (fun (x : Dev) k => x.busRead s.mems.win Mid.SPI (frAddr f + step * k) 4) d
    let reads := fun (o : Host.Outcome State Fault Refusal) (step : Nat) => o = .next (s.withDev { seen step n with
      spiResp := takes 0 ((List.range n).map fun i => (seen step (i + 1)).answered Mid.SPI) })
    let writes := fun (o : Host.Outcome State Fault Refusal) (l : List (Nat × Word)) =>
      let x := State.spiWords l s
      x.1 = l.foldl (fun t p => (t.spiWord p.1 p.2).1) s ∧
        o = .next (x.1.withDev { x.1.dev with spiResp := takes (if x.2 then 4 else 0) [] })
    let abort := fun (e : Dev) => Frame d e [R.SPIT_STAT] ∧ Counted d e R.SPIT_STAT F.SPIT_STAT_ABORT_CNT ∧
      Raised e Pg.SPIT Ev.SPI_FRAME_ERR
    let refused := fun (e : Dev) => Frame { d with spiResp := takes (frCheck f) [] } e [R.SPIT_STAT] ∧
      Counted d e R.SPIT_STAT F.SPIT_STAT_ERR_CNT ∧ Raised e Pg.SPIT Ev.SPI_FRAME_ERR
    DevNext (exec .spiFrameAbort s) s abort ∧
    (∀ i : Instr, (i = .rd f ∧ c = cmdRD) ∨ (i = .wr f ∧ c = cmdWR) ∨ (i = .rdFix f ∧ c = cmdRDFIX) ∨ (i = .wrFix f ∧ c = cmdWRFIX) ∨
        (i = .key f ∧ c = cmdKEY) ∨ (i = .spiUnknownCmd f ∧ cmdKnown c = false) →
      (frShort f = true → DevNext (exec i s) s abort) ∧ (frShort f = false → frCheck f ≠ 0 → DevNext (exec i s) s refused)) ∧
    (frShort f = false → frCrcOk f = true → cmdKnown c = false → DevNext (exec (.spiUnknownCmd f) s) s refused ∧ frCheck f = 2) ∧
    (frCrcOk f = true → cmdKnown c = true → c = cmdKEY ∨ (0 < n ∧ n ≤ 16) → frRange (frAddr f) (frSpan f) = true → frCheck f = 0) ∧
    (frCrcOk f = false → frCheck f = 1) ∧
    (frShort f = false → frCheck f = 0 →
      (c = cmdRD → reads (exec (.rd f) s) 4) ∧ (c = cmdRDFIX → reads (exec (.rdFix f) s) 0) ∧
      (c = cmdWR → writes (exec (.wr f) s) ((List.range n).map fun i => (frAddr f + 4 * i, frWord f i))) ∧
      (c = cmdWRFIX → writes (exec (.wrFix f) s) ((List.range n).map fun i => (frAddr f, frWord f i))) ∧
      (c = cmdKEY → writes (exec (.key f) s) [(frAddr f, 0x5EED), (frAddr f, 0xC10D)])) ∧
    (∀ (t : State) (a : Nat) (w : Word), t.Up → inRegs a = true ∨ inWins a = true →
      exec (.registerWrite Mid.SPI a 4 w) t = .next (t.spiWord a w).1) ∧
    (c ≠ cmdRD → exec (.rd f) s = .next s) ∧ (c ≠ cmdWR → exec (.wr f) s = .next s) ∧ (c ≠ cmdRDFIX → exec (.rdFix f) s = .next s) ∧
    (c ≠ cmdWRFIX → exec (.wrFix f) s = .next s) ∧ (c ≠ cmdKEY → exec (.key f) s = .next s) ∧
    (cmdKnown c = true → exec (.spiUnknownCmd f) s = .next s)

/-! ### The recorder, replay, the fatal dump -/

/-- R453, R454, R456, R458 to R460, R473: EN starts a run at once and REARM of a frozen recorder one with the next bus cycle, with a START
record first and the anchors at their interval; EN falling stops it without freezing, FREEZE and the end of a post phase freeze it; a host
trigger begins a post phase; a block that the next record no longer fits into reaches the ring, once the ticks of its records have passed. The model's reading where the rules leave one open: log entries 280 and 281. -/
def Obligations.Recorder : Prop :=
  ∀ (s : State) (mid : Nat), s.Up →
    let d := s.dev
    let on := d.flag R.REC_CTRL F.REC_CTRL_EN
    let run := d.flag R.REC_STAT F.REC_STAT_RUN
    let froz := d.flag R.REC_STAT F.REC_STAT_FROZEN
    let taken := d.takenAt mid R.REC_CTRL
    let b := nextBlock d.hamper.fifo
    let runs := d.frozen Pg.REC = false
    let page := fun (t : State) =>
      FrameP { d with sys := { d.sys with bad := t.dev.sys.bad, ddrSoft := t.dev.sys.ddrSoft } } t.dev [Pg.REC]
    let run1 := fun (e : Dev) => e.flag R.REC_CTRL F.REC_CTRL_EN = true ∧
      e.flag R.REC_STAT F.REC_STAT_RUN = true ∧ e.flag R.REC_STAT F.REC_STAT_FROZEN = false ∧
      e.flag R.REC_STAT F.REC_STAT_ONCHIP = d.recOnChip ∧ e.hamper.jobs = d.hamper.jobs ∧ e.hamper.ancAt = e.gtc ∧
      e.hamper.fifo.head?.map (fun r => (r.ty, r.tick)) = some (3, e.gtc)
    let started := fun (e : Dev) => FrameP d e [Pg.REC] ∧ run1 e
    let frozen := fun (t : State) => t.dev.flag R.REC_STAT F.REC_STAT_RUN = false ∧ t.dev.flag R.REC_STAT F.REC_STAT_POST = false ∧
      t.dev.flag R.REC_STAT F.REC_STAT_FROZEN = true ∧ Raised t.dev Pg.REC Ev.REC_FROZEN ∧ (d.oneBlock → Stored s t b.1)
    (taken = true → on = false → d.flag R.REC_STAT F.REC_STAT_HELD = false → DevNext (exec (.recStart mid) s) s started) ∧
    (taken = true → on = false → d.flag R.REC_STAT F.REC_STAT_HELD = true → DevNext (exec (.recStart mid) s) s fun e =>
      FrameP d e [Pg.REC] ∧ e.flag R.REC_CTRL F.REC_CTRL_EN = false ∧ e.flag R.REC_STAT F.REC_STAT_RUN = run ∧
      e.flag (R.PG_STAT Pg.REC) F.PG_STAT_WR_DENIED = true) ∧
    (taken = true → on = true → froz = true → DevNext (exec (.recRearm mid) s) s fun e => FrameP d e [Pg.REC] ∧
      e.hamper.rearm = some d.busCycle ∧ e.flag R.REC_STAT F.REC_STAT_FROZEN = true ∧ e.flag R.REC_STAT F.REC_STAT_RUN = run) ∧
    (∀ k, s.pending = [] → s.Live → runs → d.hamper.rearm = some k → d.devState ≠ DS.FATAL → on = true →
      (2 * k ≤ d.gtc + 1 → DevNext (step s) s fun e => e.gtc = d.gtc + 1 ∧ e.hamper.rearm = none ∧ run1 e ∧
        (d.hamper.missCyc = k → e.flag R.REC_STAT F.REC_STAT_POST = true) ∧
        (d.hamper.missCyc < k → (∀ i, i < 8 → d.reg (R.REC_TRIG_EN i) = 0) → e.flag R.REC_STAT F.REC_STAT_POST = false)) ∧
      (d.gtc + 1 < 2 * k → DevNext (step s) s fun e => e.hamper.rearm = some k)) ∧
    (taken = true → on = true → run = true → RingNext (exec (.recStop mid) s) s fun t => page t ∧
      t.dev.flag R.REC_CTRL F.REC_CTRL_EN = false ∧ t.dev.flag R.REC_STAT F.REC_STAT_RUN = false ∧
      t.dev.flag R.REC_STAT F.REC_STAT_POST = false ∧ t.dev.flag R.REC_STAT F.REC_STAT_FROZEN = froz ∧ t.dev.hamper.fifo = [] ∧
      (d.oneBlock → Stored s t b.1)) ∧
    (taken = true → run = true → RingNext (exec (.recFreeze mid) s) s fun t => page t ∧ frozen t) ∧
    (taken = true → on = true → d.recording = true → d.flag R.REC_STAT F.REC_STAT_POST = false →
      DevNext (exec (.recHostTrigger mid) s) s fun e => FrameP d e [Pg.REC] ∧ e.flag R.REC_STAT F.REC_STAT_POST = true ∧
        e.flag R.REC_TRIG_INFO F.REC_TRIG_INFO_VALID = true ∧ e.get R.REC_TRIG_INFO F.REC_TRIG_INFO_SRC = 0x100 ∧
        Raised e Pg.REC Ev.REC_TRIG) ∧
    (runs → d.hamper.freeze = true → run = true → RingNext (exec .recFrozen s) s fun t => page t ∧ frozen t) ∧
    (d.hamper.freeze = false → exec .recFrozen s = .next s) ∧
    (runs → d.recording = true → b.2 ≠ [] → b.1 ≠ [] → (∀ r ∈ b.1, r.tick < d.gtc) → RingNext (exec .blockComplete s) s fun t => Stored s t b.1 ∧ t.dev.hamper.fifo = b.2 ∧
      page t ∧
      (d.flag R.REC_STAT F.REC_STAT_POST = true → (d.reg R.REC_TRIG_SEQ).toNat + (d.reg R.REC_POST).toNat ≤ d.recWseq →
        t.dev.hamper.freeze = true)) ∧
    (d.recording = true → b.2 = [] ∨ (∃ r ∈ b.1, d.gtc ≤ r.tick) → exec .blockComplete s = .next s) ∧
    let n := d.ancTicks
    let t := d.hamper.ancAt
    (runs → d.recording = true → 0 < n → t + n ≤ d.gtc → DevNext (exec .anchorTimer s) s fun e => Quiet d e ∧
      e.hamper.ancAt = t + (d.gtc - t) / n * n ∧
      e.hamper.ancLeft = ((List.range (nCtx d.member)).filter d.ctxEn).filter fun c => !d.ctxIdle c) ∧
    (n = 0 ∨ d.gtc < t + n → exec .anchorTimer s = .next s)

/-- R462, R471: an export, a load and a copy of the dump are begun where the window is the DMA's and what they copy is held, else refused
with the reason; at their end the data stand in the window or in the ring and the window goes back; DMP_CLR releases the dump. R467 to
R471: the first part of a dump fills the retention SRAM, its header with MAGIC, CAUSE and its own CRC; the second fills the region of
LPDDR4X, the windows among it, and marks it; after another phase neither does anything. The model's reading where the rules leave one
open: log entries 127, 282, 283 and 287. -/
def Obligations.RecorderCopies : Prop :=
  (∀ (s : State), s.Up →
     let d := s.dev
     let begun := fun (o : Host.Outcome State Fault Refusal) (j : JobSt) => DevNext o s fun e => Frame d e [jobReg j.kind] ∧
       e.flag (jobReg j.kind) F.REC_EXP_BUSY = true ∧ e.get (jobReg j.kind) F.REC_EXP_RESULT = 0 ∧
       e.hamper.jobs = d.hamper.jobs ++ [j]
     let refused := fun (o : Host.Outcome State Fault Refusal) (k res : Nat) => DevNext o s fun e => Frame d e [jobReg k] ∧
       e.flag (jobReg k) F.REC_EXP_BUSY = false ∧ e.get (jobReg k) F.REC_EXP_RESULT = res ∧ e.hamper.jobs = d.hamper.jobs ∧
       Raised e Pg.REC Ev.REC_EXP_ERR
     (∀ (mid : Nat) (v : Word),
       let w := getF v F.REC_EXP_WIN
       let n := getF v F.REC_EXP_CNT + 1
       let at0 := (d.reg R.REC_EXP_SEQ).toNat
       let chunk := getF v F.DMP_EXP_CHUNK
       let dma := d.winOwner w = Mid.DMA
       let all := ∀ i, i < n → d.recHeld (at0 + i) = true
       (d.takenAt mid R.REC_EXP = true → d.flag R.REC_EXP F.REC_EXP_BUSY = false →
         (dma → all → begun (exec (.recExport mid v) s) { kind := 0, win := w, at0 := at0, n := n }) ∧
         (dma → ¬all → refused (exec (.recExport mid v) s) 0 2) ∧ (¬dma → refused (exec (.recExport mid v) s) 0 3)) ∧
       (d.takenAt mid R.RPL_LOAD = true → d.flag R.REC_CTRL F.REC_CTRL_EN = true ∨ d.flag R.REC_STAT F.REC_STAT_HELD = true →
         exec (.rplLoad mid v) s = .next (s.withDev (d.deny Pg.RPL))) ∧
       (d.takenAt mid R.RPL_LOAD = true → d.flag R.REC_CTRL F.REC_CTRL_EN = false → d.flag R.REC_STAT F.REC_STAT_HELD = false →
         d.flag R.RPL_LOAD F.RPL_LOAD_BUSY = false →
         (dma → begun (exec (.rplLoad mid v) s) { kind := 1, win := w, n := n }) ∧ (¬dma → refused (exec (.rplLoad mid v) s) 1 3)) ∧
       (d.takenAt mid R.DMP_EXP = true → d.flag R.DMP_EXP F.DMP_EXP_BUSY = false →
         (dma → d.chunkValid chunk = true → begun (exec (.dmpExport mid v) s) { kind := 2, win := w, at0 := chunk, n := 1 }) ∧
         (dma → d.chunkValid chunk = false → refused (exec (.dmpExport mid v) s) 2 2) ∧
         (¬dma → refused (exec (.dmpExport mid v) s) 2 3)) ∧
       (mid = Mid.S0 ∨ d.pageOwner Pg.DMP = mid → DevNext (exec (.dmpClear mid) s) s fun e => Frame d e [R.DMP_STAT, R.REC_STAT] ∧
         e.flag R.DMP_STAT F.DMP_STAT_VALID = false ∧ e.flag R.DMP_STAT F.DMP_STAT_EXT_VALID = false ∧
         e.flag R.REC_STAT F.REC_STAT_HELD = false)) ∧
     ∀ (j : JobSt) (r : List JobSt), d.frozen Pg.REC = false → d.hamper.jobs = j :: r →
       let o := exec .recExpDone s
       let ends := fun (t : State) (res ev : Nat) => t.dev.hamper.jobs = r ∧ t.dev.flag (jobReg j.kind) F.REC_EXP_BUSY = false ∧
         t.dev.get (jobReg j.kind) F.REC_EXP_RESULT = res ∧ Raised t.dev Pg.REC ev
       let back := fun (t : State) => t.dev.winOwner j.win = d.get (R.WIN_OWN j.win) F.WIN_OWN_PREV ∧ Raised t.dev Pg.WIN Ev.WIN_GIVEN
       let ws := (List.range 1024).map fun k => s.mems.win.readWord (j.win * 0x10000 + 4 * k)
       (d.winOwner j.win ≠ Mid.DMA → NextWith o fun t => t.mems = s.mems ∧ ends t 3 Ev.REC_EXP_ERR) ∧
       (d.winOwner j.win = Mid.DMA → j.win < 16 →
         (j.kind = 0 → d.recOnChip = true ∨ (d.sys.bad = [] ∧ d.sys.ddrSoft = []) → NextWith o fun t => ends t 1 Ev.REC_EXP_DONE ∧ back t ∧ t.mems = { s.mems with win := t.mems.win } ∧
           ∀ i k, i < j.n → k < 1024 →
             t.mems.win.readWord (j.win * 0x10000 + 4096 * i + 4 * k) = nthD 0 (s.ringBlock (j.at0 + i)) k) ∧
         (j.kind = 1 → 0 < j.n → blockGood ws = false → NextWith o fun t => ends t 2 Ev.REC_EXP_ERR ∧ back t ∧ t.mems = s.mems) ∧
         (j.kind = 1 → j.n = 1 → blockGood ws = true → NextWith o fun t => ends t 1 Ev.REC_EXP_DONE ∧ back t ∧
           t.ringBlock (blockSeq ws) = ws ∧ t.mems.win = s.mems.win) ∧
         (j.kind = 2 → j.at0 < 4 → NextWith o fun t => ends t 1 Ev.REC_EXP_DONE ∧ back t ∧ t.mems = { s.mems with win := t.mems.win } ∧
           ∀ x, x < 0x10000 → t.mems.win.read (j.win * 0x10000 + x) = s.mems.ret.read (j.at0 * 0x10000 + x)))) ∧
  (∀ s : State, s.Up →
     let d := s.dev
     let keeps := fun (t : State) => Quiet { d with sys := t.dev.sys, free := t.dev.free } t.dev
     (d.sys.dump = 1 → NextWith (exec .dumpRetentionDone s) fun t =>
       t.mems = { s.mems with ret := t.mems.ret } ∧ keeps t ∧
       t.dev.sys = { d.sys with dump := if d.flag R.DDR_STAT F.DDR_STAT_READY then 2 else 3 } ∧
       t.mems.ret.readWord 0 = 0x44554D50 ∧ t.mems.ret.readWord 8 = nthD 0 d.sys.head 0 ∧
       t.mems.ret.readWord 0xFC = dumpCrc t.mems.ret) ∧
     (d.sys.dump ≠ 1 → exec .dumpRetentionDone s = .next s) ∧
     (d.sys.dump = 2 → NextWith (exec .dumpExtDone s) fun t =>
       t.mems = { s.mems with ddr := t.mems.ddr, ret := t.mems.ret } ∧ keeps t ∧
       t.dev.sys = { d.sys with dump := 3, bad := t.dev.sys.bad, ddrSoft := t.dev.sys.ddrSoft } ∧ (∀ b ∈ t.dev.sys.bad, b ∈ d.sys.bad) ∧
       (∀ a, t.mems.ret.read a = if a = 0x50 then 1 else s.mems.ret.read a) ∧
       ∀ x, x < 2 ^ 20 → t.mems.ddr.read (d.dumpBase + 0x500000 + x) = s.mems.win.read x) ∧
     (d.sys.dump ≠ 2 → exec .dumpExtDone s = .next s))

/-- R463 to R465: a start that fails a check names the first one; a replay that starts begins at the first complete anchor set, with every
output of the device low; a record is applied at its tick: a window commit and a track update stand where the recorded ones stood, a write
is taken whatever the device's state, a partial view waits for its pass; a trigger is compared with the one reproduced, the first difference
is latched; an abort, a loss, a difference with DIV_STOP and the end of the stream end the replay with every context disabled. The model's
reading where the rules leave one open: log entries 74, 284, 285 and 286. -/
def Obligations.Replay : Prop :=
  ∀ (s : State) (mid : Nat), s.Up →
    let d := s.dev
    let taken := d.takenAt mid R.RPL_CTRL
    let o := exec (.rplStart mid) s
    let from1 := (d.reg R.RPL_FROM).toNat
    let to1 := (d.reg R.RPL_TO).toNat
    let all := s.readGood to1 d.recNblk from1
    let refused := fun (code : Nat) => DevNext o s fun e => FrameP d e [Pg.RPL] ∧ e.replaying = false ∧
      e.get R.RPL_STAT F.RPL_STAT_REFUSE = code ∧ Raised e Pg.RPL Ev.RPL_REFUSED
    let ended := fun (e : Dev) (code : Nat) => e.replaying = false ∧ e.flag R.RPL_STAT F.RPL_STAT_DONE = true ∧
      e.flag R.RPL_STAT F.RPL_STAT_DIRTY = true ∧ e.get R.RPL_STAT F.RPL_STAT_END = code % 16 ∧ e.rpl = {} ∧ e.firings = [] ∧
      e.gtc = d.gtc ∧ Raised e Pg.RPL Ev.RPL_DONE ∧ ∀ c, c < nCtx d.member → e.flag (R.CTX_CTRL c) F.CTX_CTRL_EN = false
    (taken = true → d.replaying = false →
      (d.devState ≠ DS.READY → refused 1) ∧
      (d.devState = DS.READY → d.flag R.REC_CTRL F.REC_CTRL_EN = true → refused 2) ∧
      (d.devState = DS.READY → d.flag R.REC_CTRL F.REC_CTRL_EN = false → d.recOnChip = true ∨ (d.sys.bad = [] ∧ d.sys.ddrSoft = []) →
        (firstSet all = none →
          let st := s.findStart d.recNblk from1 none true
          refused (if d.startFails st.1 ≠ 0 then d.startFails st.1 else 7)) ∧
        ∀ ta p, firstSet all = some ta → all.find? (fun (y : RefSt) => isAnchor y && y.r.tick == ta) = some p →
          let l := (s.readStream to1 d.recNblk p.seq).1
          let st := s.findStart d.recNblk p.seq (some p) true
          let whole := st.2 = true ∧ setComplete (beforeLoss l) ta = true ∧ setSize l ta = setSize all ta
          (d.startFails st.1 ≠ 0 → refused (d.startFails st.1)) ∧
          (d.startFails st.1 = 0 → ¬whole → refused 8) ∧
          (d.startFails st.1 = 0 → whole → DevNext o s fun e => e.replaying = true ∧ e.gtc = d.gtc ∧
            e.rpl.back = (ta : Int) - (d.gtc : Int) ∧ e.rpl.ref = behindSet l ta ∧ e.reg R.RPL_CNT = 0 ∧
            ∀ g, g < 20 → groupPresent d.member g = true → e.genP g = false ∧ e.genM g = false))) ∧
    (taken = true → d.replaying = true → DevNext (exec (.rplAbort mid) s) s fun e => ended e 4) ∧
    let t := (d.gtc : Int) + d.rpl.back
    let diverged := d.flag R.RPL_STAT F.RPL_STAT_DIVERGED
    let stops := d.flag R.RPL_CTRL F.RPL_CTRL_DIV_STOP
    let o := exec .replayRecord s
    (d.frozen Pg.RPL = false → d.replaying = true → d.rpl.shift = 0 → 0 ≤ t → ¬(diverged = true ∧ stops = true) →
      (d.rpl.ref = [] → d.rpl.parts = [] →
        (d.rpl.got = [] → ((d.rpl.last.tick : Int) < t → DevNext o s fun e => ended e d.rpl.stop) ∧
          (t ≤ d.rpl.last.tick → o = .next s)) ∧
        (∀ g, d.rpl.got = [g] → recBefore g d.rpl.last = true → (d.rpl.last.tick : Int) < t → DevNext o s fun e =>
          e.flag R.RPL_STAT F.RPL_STAT_DIVERGED = true ∧ ended e (if stops then 1 else d.rpl.stop))) ∧
      ∀ p r, d.rpl.ref = p :: r → d.rpl.parts = [] →
        let w := fun (i : Nat) => nthD 0 p.r.data i
        let n := p.r.res
        let goes := r ≠ [] ∨ t ≤ d.rpl.last.tick
        (t < p.r.tick → o = .next s) ∧
        ((p.r.tick : Int) ≤ t → d.rpl.got = [] → p.r.ty = 0x02 → DevNext o s fun e => ended e 2) ∧
        ((p.r.tick : Int) ≤ t → d.rpl.got = [] → goes →
          (p.r.ty = 0x13 → o = .next (s.withDev { d with rpl := { d.rpl with ref := r, parts := [p] } })) ∧
          (p.r.ty = 0x10 → n ∉ d.rpl.joined → o = .next (s.withDev { d with rpl := { d.rpl with ref := r } })) ∧
          (p.r.ty = 0x12 → n < nAcc d.member → DevNext o s fun e => e.replaying = true ∧ e.rpl.ref = r ∧
            e.reg (R.ACC_RES0 n) = w 0 ∧ e.reg (R.ACC_RES1 n) = w 1 ∧ e.get (R.ACC_CNT n) F.ACC_CNT_N = (w 2).toNat % 2 ^ 24 ∧
            e.get (R.ACC_CNT n) F.ACC_CNT_SEQ = (d.get (R.ACC_CNT n) F.ACC_CNT_SEQ + 1) % 256 ∧
            (e.reg (R.ACC_STAT n)).toNat % 32 = (w 2).toNat / 2 ^ 24 % 32) ∧
          (p.r.ty = 0x14 → n < nTracks → DevNext o s fun e => e.replaying = true ∧ e.rpl.ref = r ∧ (e.trkS n).base = t.toNat ∧
            (e.trkS n).spd = (if bitOf (w 0) 29 then sext 32 (w 1).toNat else (d.trkS n).spd) ∧
            e.flag (R.TRK_STAT n) F.TRK_STAT_VALID = bitOf (w 0) 31 ∧ e.flag (R.TRK_STAT n) F.TRK_STAT_UNCERT = bitOf (w 0) 30 ∧
            e.flag (R.TRK_STAT n) F.TRK_STAT_STALE = false ∧ ∀ j, j ≠ n → e.trkS j = d.trkS j) ∧
          (p.r.ty = 0x15 → ∀ c k, w 0 = BitVec.ofNat 32 (R.CTX_CMD c k) → d.ctxPresent c = true → k < 4 →
            DevNext o s fun e => e.replaying = true ∧ e.rpl.ref = r ∧ e.reg (R.CTX_CMD c k) = wordOfInt (sext 20 (w 1).toNat)) ∧
          (p.r.ty = 0x15 →
            let a := (w 0).toNat
            ∀ (b : Block) (i x y : Nat) (rd : RegDef), inRegs a = true → a % 4 = 0 → pageInfo (pageOf a) = some (b, i) →
              blockPresent d.member b i = true → absentReg d.member b i (offOf a) = false → 0x40 ≤ offOf a →
              plainReg b i (offOf a) = true → regAt b (offOf a) = some (rd, x, y) → w 1 &&& absentBits d.member b i (offOf a) = 0 →
              DevNext o s fun e => Frame { d with rpl := { d.rpl with ref := r } } e [a, R.PG_STAT (pageOf a)] ∧
                ∀ fd ∈ rd.flds, chanMOnly b (offOf a) fd.f = false →
                  (fd.acc = .rw ∨ fd.acc = .rwc → e.get a fd.f = getF (w 1) fd.f) ∧
                  (fd.acc = .w1c → ∀ k, fd.f.lo ≤ k → k ≤ fd.f.hi → bitOf (e.reg a) k = (bitOf (d.reg a) k && !bitOf (w 1) k)))) ∧
        (∀ g, p.r.ty = 0x10 → n ∈ d.rpl.joined → (p.r.tick : Int) ≤ t → d.rpl.got = [g] → g.ty = 0x10 → g.res = n → p.r.tick ≤ g.tick → goes →
          (recWords p.r = recWords g → DevNext o s fun e => Frame { d with rpl := { d.rpl with ref := r } } e [R.RPL_CNT] ∧ e.rpl.got = [] ∧
            e.reg R.RPL_CNT = d.reg R.RPL_CNT + 1) ∧
          (recWords p.r ≠ recWords g → DevNext o s fun e => e.flag R.RPL_STAT F.RPL_STAT_DIVERGED = true ∧
            (diverged = false → e.reg R.RPL_DIV_POS = BitVec.ofNat 32 p.seq ∧ e.reg R.RPL_DIV_RES = BitVec.ofNat 32 n ∧
              e.get R.RPL_DIV_REC F.RPL_DIV_REC_TYPE = 0x10 ∧ Raised e Pg.RPL Ev.RPL_DIVERGE) ∧
            (stops = true → ended e 1) ∧ (stops = false → e.replaying = true ∧ e.rpl.ref = r ∧ e.rpl.got = []))) ∧
        (p.r.ty = 0x10 → n ∈ d.rpl.joined → d.rpl.got = [] → ((p.r.tick : Int) = t → o = .next s) ∧
          ((p.r.tick : Int) < t → goes → DevNext o s fun e => e.flag R.RPL_STAT F.RPL_STAT_DIVERGED = true ∧
            (stops = true → ended e 1) ∧ (stops = false → e.replaying = true ∧ e.rpl.ref = r))))

/-! ### Faults, reset, start-up -/

/-- R35, R36, R38, R53, R480: a lost frame of the link is counted, its results dropped and its words put off, also in FATAL; the third in
a row, a missing heartbeat and an uncorrectable error of the supervisors' SRAM take the device to FATAL; in FATAL a further cause is
raised and counted, and one of the tick of the entry may lower CAUSE; a link that has failed carries nothing more; a channel whose clock
stops or whose supply fails drops its enables. The model's reading where the rules leave one open: log entries 105, 110 and 111. -/
def Obligations.LinkAndChannelFaults : Prop :=
  ∀ s : State, s.Live →
    let d := s.dev
    let low := fun (ch : Channel) (e : Dev) => ChanLow d e ch ∧ (match ch with
      | .p => e.safe.deadP = true ∧ e.safe.deadM = d.safe.deadM
      | .m => e.safe.deadM = true ∧ e.safe.deadP = d.safe.deadP ∧ e.get R.SAFE_GRANT F.SAFE_GRANT_GENM = 0)
    let part := fun (e : Dev) (l : List Nat) =>
      Frame { d with safe := e.safe, grp := e.grp } e (l ++ [R.GDA_STAT, R.SAFE_GRANT] ++ (List.range 12).map R.GDT_PINS)
    let fails := fun (e : Dev) => (d.devState ≠ DS.FATAL → Fatal d e Pg.SYS Ev.LINK_FAIL) ∧
      e.flag R.SYS_STATE F.SYS_STATE_LINK_OK = false ∧ e.sys.linkDead = true ∧ e.devState = DS.FATAL ∧ Raised e Pg.SYS Ev.LINK_FAIL
    (d.sys.linkDead = false →
      (∀ r, r ≠ .uncorrectable → DevNext (exec (.linkFrameRx r) s) s fun e =>
        Frame { d with sys := { d.sys with drops := 0 } } e [R.SYS_STATE] ∧ e.flag R.SYS_STATE F.SYS_STATE_LINK_OK = true ∧
        e.devState = d.devState) ∧
      (d.sys.drops < 2 → DevNext (exec (.linkFrameRx .uncorrectable) s) s fun e =>
        Quiet { d.dropSamples with sys := { d.sys with drops := d.sys.drops + 1, cut := (d.gtc / 2 :: d.sys.cut).take 3 } } e ∧
        Raised e Pg.SYS Ev.LINK_ERR) ∧
      (2 ≤ d.sys.drops → DevNext (exec (.linkFrameRx .uncorrectable) s) s fails) ∧
      DevNext (exec .linkHeartbeatTimeout s) s fails) ∧
    (d.sys.linkDead = true → (∀ r, exec (.linkFrameRx r) s = .next s) ∧ exec .linkHeartbeatTimeout s = .next s) ∧
    (d.devState ≠ DS.FATAL → ∀ ch, DevNext (exec (.sramUncorr ch) s) s fun e => Fatal d e Pg.SYS Ev.SRAM_UNCORR) ∧
    (d.devState = DS.FATAL → ∀ ch, d.sys.dump = 1 ∨ d.sys.dump = 2 →
      (d.trans.at1 ≠ d.now + 1 → DevNext (exec (.sramUncorr ch) s) s fun e =>
        Frame d e [R.DMP_STAT] ∧ Counted d e R.DMP_STAT F.DMP_STAT_NCAUSE) ∧
      (d.trans.at1 = d.now + 1 → DevNext (exec (.sramUncorr ch) s) s fun e =>
        Frame { d with sys := e.sys } e [R.DMP_STAT, R.SYS_STATE] ∧ Counted d e R.DMP_STAT F.DMP_STAT_NCAUSE ∧
        e.get R.SYS_STATE F.SYS_STATE_CAUSE = min (d.get R.SYS_STATE F.SYS_STATE_CAUSE) Ev.SRAM_UNCORR ∧
        e.get R.DMP_STAT F.DMP_STAT_CAUSE = e.get R.SYS_STATE F.SYS_STATE_CAUSE)) ∧
    ∀ ch,
      (DevNext (exec (.sramCorr ch) s) s fun e => Quiet d e ∧ Raised e Pg.SYS Ev.SRAM_CORR) ∧
      (DevNext (exec (.channelClockStop ch) s) s fun e => part e [] ∧ low ch e) ∧
      (DevNext (exec (.supplyFault ch) s) s fun e => part e [R.PWR_STAT] ∧ low ch e ∧
        e.flag R.PWR_STAT (chanField ch F.PWR_STAT_P_OK F.PWR_STAT_M_OK) = false) ∧
      DevNext (exec (.pllUnlock ch) s) s fun e => part e [R.CLK_STAT] ∧ low ch e ∧
        e.flag R.CLK_STAT (chanField ch F.CLK_STAT_PLL_P F.CLK_STAT_PLL_M) = false ∧ Raised e Pg.CLK Ev.PLL_UNLOCK

/-- R39, R43, R373, R374, R485, R496, R500, R501: clocks that deviate by more than 2 %, a die above 160 °C, a supply out of range and a
lockstep mismatch lead to SAFE_HOLD with their causes, the first also ends what continues in it; a readback of an enable that differs drops
the group and faults its machine; R499: without VDDIO the pins are in their unpowered states; a late rail shows. The model's reading where
the rules leave one open: log entries 112, 113, 114 and 339. -/
def Obligations.HoldCauses : Prop :=
  ∀ s : State, s.Live →
    let d := s.dev
    (∀ x : Int, DevNext (exec (.clkXchk x) s) s fun e => e.getI R.CLK_STAT F.CLK_STAT_DEV = clampI (-32768) 32767 x ∧
      (x.natAbs ≤ 200 → Frame d e [R.CLK_STAT]) ∧
      (200 < x.natAbs → e.flag R.CLK_STAT F.CLK_STAT_XCHK = true ∧ Raised e Pg.CLK Ev.CLK_XCHK ∧
        ((d.holds1 ∨ d.devState = DS.BOOT) → ChanLow d e .p ∧ ChanLow d e .m) ∧ (d.holds1 → Held e 1) ∧
        (d.devState = DS.SAFE_HOLD → ChanLow d e .p ∧ ChanLow d e .m ∧ e.safe.keep = 0))) ∧
    (∀ k (t : Int), k < 4 → DevNext (exec (.tempHigh k t) s) s fun e =>
      (e.get R.PWR_TEMP (tempField k) : Int) = clampI 0 255 (t + 64) ∧
      (t ≤ 160 → Frame d e [R.PWR_TEMP]) ∧ (160 < t → Raised e Pg.PWR Ev.TEMP_HIGH ∧ (d.holds1 → Held e 6))) ∧
    (∀ ch,
      (∀ v, DevNext (exec (.supplyWarn ⟨ch, v⟩) s) s fun e => e.flag R.PWR_STAT (chanField ch F.PWR_STAT_WARN_P F.PWR_STAT_WARN_M) = true ∧
        e.flag R.PWR_STAT F.PWR_STAT_VDDIO_OK = v ∧ (v = false → ∀ p, e.pinRest p = some (restUnpowered p)) ∧
        e.flag R.PWR_STAT (chanField ch F.PWR_STAT_P_OK F.PWR_STAT_M_OK) = false ∧ Raised e Pg.PWR Ev.SUPPLY_WARN ∧
        (d.holds1 → Held e 7)) ∧
      let f := chanField ch F.RST_DOM_S0_HELD F.RST_DOM_S1_HELD
      (d.flag R.RST_DOM f = false → DevNext (exec (.lockstep ch) s) s fun e => e.flag R.RST_DOM f = true ∧
        Raised e Pg.SYS Ev.LOCKSTEP ∧ ChanLow d e ch ∧
        (d.holds1 → Held e (match ch with
          | .p => 2
          | .m => 3))) ∧
      (d.flag R.RST_DOM f = true → exec (.lockstep ch) s = .next s)) ∧
    (∀ g ch, g < 20 → groupPresent d.member g = true → DevNext (exec (.enaReadback g ch) s) s fun e =>
      e.genP g = false ∧ e.genM g = false ∧ Raised e Pg.SAFE Ev.ENA_READBACK ∧
      ∀ m, d.machOf g = some m → d.mState m ≠ MS.OFF → d.mState m ≠ MS.FAULT → Entered d e m MS.FAULT 9) ∧
    DevNext (exec (.lateRailArrival .vgd) s) s (fun e => Frame d e [R.GDA_STAT] ∧ e.flag R.GDA_STAT F.GDA_STAT_VGD_OK = true) ∧
    DevNext (exec (.lateRailArrival .vddio) s) s (fun e =>
      Frame { d with sys := { d.sys with vddioLow := false } } e [R.PWR_STAT] ∧ e.flag R.PWR_STAT F.PWR_STAT_VDDIO_OK = true) ∧
    ∀ r, r ≠ .vgd → r ≠ .vddio → exec (.lateRailArrival r) s = .next s

/-- R483, R484, R496, R499, R500: power-on and supply resets leave every register at its reset value and of the memories the flash alone; the
pin, RST_CTRL and DBG_CTRL bring a warm reset, which keeps the retention SRAM, LPDDR4X and the ring, RST_CTRL 1 µs later; RST_CAUSE says
which. The model's reading where the rules leave one open: log entries 120, 121, 122 and 343. -/
def Obligations.Resets : Prop :=
  ∀ s : State,
    let d := s.dev
    let cold := fun (o : Host.Outcome State Fault Refusal) (c : Nat) => NextWith o fun t =>
      Cleared d t.dev c false ∧ t.mems = { Mems.reset with flash := s.mems.flash } ∧ t.pending = s.pending
    let warm := fun (o : Host.Outcome State Fault Refusal) (c : Nat) => NextWith o fun t =>
      Cleared d t.dev c true ∧ t.mems = s.mems.warm ∧ t.pending = s.pending ∧ t.dev.sys.vddioLow = d.sys.vddioLow ∧
      t.dev.sys.bad = d.sys.bad ∧ t.dev.sys.ddrSoft = d.sys.ddrSoft
    cold (exec .powerOnReset s) (causePor + if d.flag R.RST_CAUSE F.RST_CAUSE_SUPPLY then causeSupply else 0) ∧
    NextWith (exec .powerOnReset s) (fun t => ∀ p, t.dev.pinRest p = some (if d.sys.vddioLow then restUnpowered p else restReset p)) ∧
    cold (exec .supplyReset s) causeSupply ∧
    (s.Up → d.sys.rst = none →
      (d.sys.dump ≠ 1 → warm (exec .resetPin s) causePin) ∧
      (d.sys.dump = 1 → exec .resetPin s = .next (s.withDev { d with sys := { d.sys with rst := some (d.gtc, causePin) } })) ∧
      (∀ mid, d.takenAt mid R.RST_CTRL = true → DevNext (exec (.rstSysRstWrite mid) s) s fun e =>
        Frame { d with sys := { d.sys with rst := some (d.gtc + 400, causeSoft) } } e [R.RST_CTRL]) ∧
      (∀ mid, d.dbgOk mid = true → d.sys.dump ≠ 1 → warm (exec (.dbgSysRstWrite mid) s) causeDbg) ∧
      (∀ mid, d.dbgOk mid = false → DevNext (exec (.dbgSysRstWrite mid) s) s fun e =>
        Frame d e [R.PG_STAT Pg.DBG] ∧ e.flag (R.PG_STAT Pg.DBG) F.PG_STAT_WR_DENIED = true)) ∧
    (¬s.Up → DevNext (exec .resetPin s) s fun e => Frame { d with sys := { d.sys with released := false } } e [R.RST_CAUSE] ∧
      e.flag R.RST_CAUSE F.RST_CAUSE_PIN = true) ∧
    ∀ t c, s.Up → d.sys.rst = some (t, c) →
      (t ≤ d.gtc → d.sys.dump ≠ 1 → warm (exec .warmReset s) c) ∧ (d.gtc < t → exec .warmReset s = .next s) ∧
      (d.sys.dump = 1 → exec .warmReset s = .next s)

/-- R446, R487 to R493, R496, R500: reset is released and the PLLs lock into BOOT; of the image slots the first that passes is accepted, a
failing one leaves its code and the second FATAL; the flash is read in the mode it offers, and one that cannot be read shows it; the end of BOOT binds Garmal's channels and enters CONFIGURE; S0 advances the lifecycle
by one; Debug halts, and attaches where the lifecycle admits it. The model's reading where the rules leave one open: log entries 84, 123,
124, 125, 126 and 129. -/
def Obligations.StartUp : Prop :=
  ∀ s : State,
    let d := s.dev
    (¬s.Up → DevNext (exec .resetRelease s) s fun e => Frame { d with sys := { d.sys with released := true, vddioLow := false } } e [R.PWR_STAT] ∧
      ∀ f ∈ [F.PWR_STAT_P_OK, F.PWR_STAT_M_OK, F.PWR_STAT_VDDIO_OK], e.flag R.PWR_STAT f = true) ∧
    (s.Up → exec .resetRelease s = .next s) ∧
    (¬s.Up → d.sys.released = false → exec .pllLocked s = .next s) ∧
    (¬s.Up → d.sys.released = true → DevNext (exec .pllLocked s) s fun e => e.devState = DS.BOOT ∧
      e.flag R.CLK_STAT F.CLK_STAT_PLL_P = true ∧ e.flag R.CLK_STAT F.CLK_STAT_PLL_M = true) ∧
    (∀ (n : Nat) (read : FlashRead) (agree : Bool), d.devState = DS.BOOT → d.sys.slot = none → n = d.nextSlot s.mems.flash →
      let octal := if d.sys.tried = [] then read != .noSfdp && Config.flashOctal else d.flag R.XSPI_STAT F.XSPI_STAT_OCTAL
      let bad := read = .noSfdp ∨ read = .failed ∨ (read = .noDqs ∧ octal = true)
      let code := if bad then 5 else if imageCode d.nv s.mems.flash n ≠ 0 then imageCode d.nv s.mems.flash n
        else if agree = false then 6 else 0
      DevNext (exec (.imageVerified n read agree) s) s fun e => e.flag R.XSPI_STAT F.XSPI_STAT_OCTAL = octal ∧
        (bad → e.flag R.XSPI_STAT F.XSPI_STAT_ERR = true ∧ Raised e Pg.XSPI Ev.XSPI_ERR) ∧
        if code = 0 then
          e.devState = DS.BOOT ∧ e.sys.slot = some n ∧ e.get R.SEC_BOOT F.SEC_BOOT_SLOT = n ∧
            e.get R.SEC_BOOT F.SEC_BOOT_VERSION = imageVersion s.mems.flash n ∧
            (n ≠ activeSlot s.mems.flash → e.flag R.SEC_BOOT F.SEC_BOOT_ALT = true ∧ Raised e Pg.SEC Ev.BOOT_ALT)
        else
          e.sys.slot = none ∧ e.sys.tried = d.sys.tried ++ [n] ∧
            e.get R.SEC_BOOT (if n = 0 then F.SEC_BOOT_FAIL0 else F.SEC_BOOT_FAIL1) = code ∧
            (d.sys.tried = [] → e.devState = DS.BOOT) ∧ (d.sys.tried.length = 1 → Fatal d e Pg.SEC Ev.BOOT_FAIL)) ∧
    (d.bootDone = true → DevNext (exec .bootComplete s) s fun e => e.devState = DS.CONFIGURE ∧
      (∀ c, c < 5 → e.flag (R.MBX_BIND c) F.MBX_BIND_VALID = true ∧ e.flag (R.MBX_BIND c) F.MBX_BIND_LOCKED = true ∧
        e.get (R.MBX_BIND c) F.MBX_BIND_MID_A = (if c = 2 ∨ c = 3 then Mid.S1 else Mid.S0)) ∧
      e.get R.MBX_RIGHTS ⟨2, 0⟩ = rightsBits d.member (if lcDebug d.nv.lc then 7 else 3)) ∧
    (d.bootDone = false → exec .bootComplete s = .next s) ∧
    (s.Up → ∀ (mid : Nat) (w : Word),
      let n := w.toNat % 16
      let ok := mid = Mid.S0 ∧ d.inConfigure = true ∧ d.keyOpenFor Pg.SEC mid = true ∧ n = d.nv.lc + 1 ∧ n ≤ 3
      (ok → DevNext (exec (.lifecycleAdvance mid w) s) s fun e => Frame { d with nv := { d.nv with lc := n } } e [R.SEC_LC_ADV] ∧
        e.get R.SEC_LC_ADV F.SEC_LC_ADV_NEXT = n) ∧
      (¬ok → exec (.lifecycleAdvance mid w) s = .next (s.withDev (d.deny Pg.SEC)))) ∧
    (s.Up → ∀ mid b, d.dbgOk mid = true → DevNext (exec (.debugHalt mid b) s) s fun e => Frame d e [R.DBG_CTRL] ∧
      e.flag R.DBG_CTRL F.DBG_CTRL_HALTED = b ∧ e.flag R.DBG_CTRL F.DBG_CTRL_HALT_REQ = b) ∧
    (s.Up → ∀ b, b ≠ d.flag R.DBG_CTRL F.DBG_CTRL_ATTACHED → (b = true → lcDebug d.nv.lc = true) →
      DevNext (exec (.dbgAttach b) s) s fun e => Frame d e [R.DBG_CTRL] ∧ e.flag R.DBG_CTRL F.DBG_CTRL_ATTACHED = b ∧
        Raised e Pg.DBG Ev.DBG_ATTACH ∧
        (b = false → ∀ c, c < 32 → d.mbxSide c Mid.DEBUG = 1 → (e.mbxS c).rstSeenB = true)) ∧
    (s.Up → d.flag R.DBG_CTRL F.DBG_CTRL_ATTACHED = false → lcDebug d.nv.lc = false → exec (.dbgAttach true) s = .next s)
end

