-- ==== Sys2Proof/Laws/Bits.lean ====
section
/-! SUPPORT. Laws of bit fields: what a field reads as after a write to it or to another field. -/

namespace Sys2Proof.Machine

theorem fieldMask_bit (f : RField) (i : Nat) (hi : i < 32) :
    (fieldMask f).getLsbD i = (decide (f.lo ≤ i) && decide (i - f.lo < fieldWidth f)) := by
  rw [fieldMask, BitVec.getLsbD_ofNat, Nat.testBit_mul_two_pow, Nat.testBit_two_pow_sub_one]; simp [hi]

/-- A bit of a word after a field has been set: the field's bits come from the number, the others stand. -/
theorem setF_bit (w : Word) (f : RField) (v i : Nat) (hi : i < 32) :
    (setF w f v).getLsbD i =
      if f.lo ≤ i ∧ i - f.lo < fieldWidth f then v.testBit (i - f.lo) else w.getLsbD i := by
  simp only [setF, BitVec.getLsbD_or, BitVec.getLsbD_and, BitVec.getLsbD_not, fieldMask_bit f i hi, hi, decide_true,
    Bool.true_and, BitVec.getLsbD_ofNat, Nat.testBit_mul_two_pow, Nat.testBit_mod_two_pow]
  by_cases h1 : f.lo ≤ i <;> by_cases h2 : i - f.lo < fieldWidth f <;> simp [h1, h2]

/-- A bit of the number a field holds. -/
theorem getF_bit (w : Word) (f : RField) (i : Nat) :
    (getF w f).testBit i = (decide (i < fieldWidth f) && w.getLsbD (i + f.lo)) := by
  simp [getF, Nat.testBit_mod_two_pow, Nat.testBit_div_two_pow, BitVec.testBit_toNat]

/-- The field written reads as the number, reduced to the field's width. -/
@[simp] theorem getF_setF_self (w : Word) (f : RField) (v : Nat) (h : f.lo + fieldWidth f ≤ 32) :
    getF (setF w f v) f = v % 2 ^ fieldWidth f := by
  apply Nat.eq_of_testBit_eq
  intro i
  rw [getF_bit, Nat.testBit_mod_two_pow]
  by_cases hi : i < fieldWidth f
  · rw [setF_bit _ _ _ _ (by omega), if_pos ⟨by omega, by omega⟩]; simp
  · simp [hi]

/-- A field apart from the one written reads as before. -/
theorem getF_setF_ne (w : Word) (f g : RField) (v : Nat) (h : f.lo + fieldWidth f ≤ g.lo ∨ g.lo + fieldWidth g ≤ f.lo) :
    getF (setF w f v) g = getF w g := by
  apply Nat.eq_of_testBit_eq
  intro i
  rw [getF_bit, getF_bit]
  by_cases hi : i < fieldWidth g
  · by_cases hw : i + g.lo < 32
    · rw [setF_bit _ _ _ _ hw, if_neg (by omega)]
    · rw [BitVec.getLsbD_of_ge _ _ (by omega), BitVec.getLsbD_of_ge _ _ (by omega)]
  · simp [hi]

/-- The number a field holds fits its width. -/
theorem getF_lt (w : Word) (f : RField) : getF w f < 2 ^ fieldWidth f := Nat.mod_lt _ (Nat.two_pow_pos _)

/-- A field set to what it holds leaves the word. -/
theorem setF_getF (w : Word) (f : RField) : setF w f (getF w f) = w := by
  apply BitVec.eq_of_getLsbD_eq
  intro i hi
  rw [setF_bit _ _ _ _ hi]
  split
  · next h => rw [getF_bit]; simp [h.1, h.2]
  · rfl

theorem bitOf_eq (w : Word) (i : Nat) : bitOf w i = w.getLsbD i := by
  rw [← BitVec.testBit_toNat, Nat.testBit_eq_decide_div_mod_eq, bitOf]; rfl

theorem bitWord_bit (i j : Nat) (hj : j < 32) : (bitWord i).getLsbD j = decide (i = j) := by
  rw [bitWord, BitVec.getLsbD_ofNat, Nat.testBit_two_pow]; simp [hj]

/-- Setting bits keeps every bit that stands. -/
theorem bitOf_or (w x : Word) (i : Nat) : bitOf (w ||| x) i = (bitOf w i || bitOf x i) := by
  simp [bitOf_eq]

theorem bitOf_bitWord (i : Nat) (h : i < 32) : bitOf (bitWord i) i = true := by
  simp [bitOf_eq, bitWord_bit i i h]

end Sys2Proof.Machine
end

