-- ==== Sys2Proof/Laws/Sparse.lean ====
section
/-! SUPPORT. Laws of sparse data and byte memories: what is read after a write, and that every write keeps the canonical form. -/

namespace Sys2Proof.Machine

section
variable {α : Type} {dflt : α}

@[simp] theorem spGet_nil (k : Nat) : spGet dflt [] k = dflt := rfl

theorem spGet_spDel_self (l : Sparse α) (k : Nat) : spGet dflt (spDel l k) k = dflt := by
  induction l with
  | nil => rfl
  | cons p r ih => by_cases h : p.1 = k <;> simp_all [spDel, spGet]

theorem spGet_spDel_ne (l : Sparse α) {k j : Nat} (h : j ≠ k) : spGet dflt (spDel l k) j = spGet dflt l j := by
  induction l with
  | nil => rfl
  | cons p r ih =>
    by_cases hk : p.1 = k
    · have : ¬ k = j := fun e => h e.symm
      simp [spDel, spGet, hk, this, ih]
    · simp [spDel, spGet, hk, ih]

theorem spGet_spIns_ne (l : Sparse α) {k j : Nat} (v : α) (h : j ≠ k) : spGet dflt (spIns l k v) j = spGet dflt l j := by
  have hk : ¬ k = j := fun e => h e.symm
  induction l with
  | nil => simp [spIns, spGet, hk]
  | cons p r ih => by_cases hlt : k < p.1 <;> simp [spIns, spGet, hlt, hk, ih]

/-- A key that a list does not hold is found where it is put in. -/
theorem spGet_spIns_self (l : Sparse α) (k : Nat) (v : α) (h : ∀ p ∈ l, p.1 ≠ k) : spGet dflt (spIns l k v) k = v := by
  induction l with
  | nil => simp [spIns, spGet]
  | cons p r ih =>
    have hp := h p (by simp)
    have hr := ih fun q hq => h q (by simp [hq])
    by_cases hlt : k < p.1 <;> simp [spIns, spGet, hlt, hp, hr]

theorem spDel_keys (l : Sparse α) (k : Nat) : ∀ p ∈ spDel l k, p.1 ≠ k := by
  induction l with
  | nil => simp [spDel]
  | cons p r ih =>
    by_cases h : p.1 = k
    · simpa [spDel, h] using ih
    · simpa [spDel, h] using ih

variable [DecidableEq α]

/-- Read after write: the key written reads as the value. -/
@[simp] theorem spGet_spPut_self (l : Sparse α) (k : Nat) (v : α) : spGet dflt (spPut dflt l k v) k = v := by
  unfold spPut
  split
  · next h => simpa [h] using spGet_spDel_self l k
  · exact spGet_spIns_self _ _ _ (spDel_keys l k)

/-- Read after write: every other key reads as before. -/
theorem spGet_spPut_ne {other : α} (l : Sparse α) {k j : Nat} (v : α) (h : j ≠ k) :
    spGet other (spPut dflt l k v) j = spGet other l j := by
  unfold spPut
  split
  · exact spGet_spDel_ne l h
  · rw [spGet_spIns_ne _ v h, spGet_spDel_ne l h]

theorem spGet_spPut (l : Sparse α) (k j : Nat) (v : α) :
    spGet dflt (spPut dflt l k v) j = if j = k then v else spGet dflt l j := by
  split
  · next h => subst h; simp
  · next h => exact spGet_spPut_ne l v h

/-! ### The canonical form -/

theorem spWfFrom_mono (f : Nat → α) {b c : Nat} (hbc : b ≤ c) {l : Sparse α} (h : spWfFrom f c l = true) :
    spWfFrom f b l = true := by
  cases l with
  | nil => rfl
  | cons p r => simp [spWfFrom] at h ⊢; exact ⟨⟨by omega, h.1.2⟩, h.2⟩

theorem spWfFrom_spDel (f : Nat → α) (k : Nat) {l : Sparse α} {b : Nat} (h : spWfFrom f b l = true) :
    spWfFrom f b (spDel l k) = true := by
  induction l generalizing b with
  | nil => rfl
  | cons p r ih =>
    simp only [spWfFrom, Bool.and_eq_true, decide_eq_true_eq] at h
    have hr := ih h.2
    by_cases hp : p.1 = k
    · simpa [spDel, hp] using spWfFrom_mono f (by omega) hr
    · simp [spDel, hp, spWfFrom, h.1.1, h.1.2, hr]

theorem spWfFrom_spIns (f : Nat → α) {k : Nat} {v : α} (hv : v ≠ f k) {l : Sparse α} {b : Nat} (hb : b ≤ k)
    (hk : ∀ p ∈ l, p.1 ≠ k) (h : spWfFrom f b l = true) : spWfFrom f b (spIns l k v) = true := by
  induction l generalizing b with
  | nil => simp [spIns, spWfFrom, hb, hv]
  | cons p r ih =>
    have hp := hk p (by simp)
    simp only [spWfFrom, Bool.and_eq_true, decide_eq_true_eq] at h
    by_cases hlt : k < p.1
    · simp [spIns, hlt, spWfFrom, hb, hv, h.1.2, h.2]
    · have hr := ih (b := p.1 + 1) (by omega) (fun q hq => hk q (by simp [hq])) h.2
      simp [spIns, hlt, spWfFrom, h.1.1, h.1.2, hr]

/-- A write keeps the canonical form. -/
theorem spWf_spPut {d : α} {l : Sparse α} (k : Nat) (v : α) (h : spWf (fun _ => d) l = true) :
    spWf (fun _ => d) (spPut d l k v) = true := by
  unfold spPut spWf at *
  split
  · exact spWfFrom_spDel _ k h
  · next hv => exact spWfFrom_spIns _ hv (Nat.zero_le k) (spDel_keys l k) (spWfFrom_spDel _ k h)

end

/-! ### Byte memories -/

@[simp] theorem Memory.read_write (m : Memory) (a b : Nat) (v : Byte) :
    (m.write a v).read b = if b = a then v else m.read b := spGet_spPut m a b v

theorem Memory.wf_write {m : Memory} (a : Nat) (v : Byte) (h : m.wf = true) : (m.write a v).wf = true :=
  spWf_spPut a v h

theorem Memory.wf_writeBytes (bs : List Byte) {m : Memory} (a : Nat) (h : m.wf = true) : (m.writeBytes a bs).wf = true := by
  induction bs generalizing m a with
  | nil => exact h
  | cons b bs ih => exact ih _ (Memory.wf_write a b h)

theorem Memory.wf_writeWords (ws : List Word) {m : Memory} (a : Nat) (h : m.wf = true) : (m.writeWords a ws).wf = true := by
  induction ws generalizing m a with
  | nil => exact h
  | cons w ws ih => exact ih _ (Memory.wf_writeBytes _ _ h)

/-- What a byte reads as after bytes have been written from `a` on. -/
theorem Memory.read_writeBytes (bs : List Byte) (m : Memory) (a b : Nat) :
    (m.writeBytes a bs).read b = if a ≤ b ∧ b < a + bs.length then nthD 0 bs (b - a) else m.read b := by
  induction bs generalizing m a with
  | nil => simp [Memory.writeBytes]
  | cons x bs ih =>
    simp only [Memory.writeBytes, ih, Memory.read_write, List.length_cons]
    by_cases hab : b = a
    · subst hab; simp [nthD]
    · by_cases h1 : a + 1 ≤ b ∧ b < a + 1 + bs.length
      · have : b - a = (b - (a + 1)) + 1 := by omega
        rw [if_pos h1, if_pos (by omega), this]; rfl
      · rw [if_neg h1, if_neg hab, if_neg (by omega)]

/-- Bytes outside those written read as before. -/
theorem Memory.read_writeBytes_out (bs : List Byte) (m : Memory) {a b : Nat} (h : b < a ∨ a + bs.length ≤ b) :
    (m.writeBytes a bs).read b = m.read b := by
  rw [Memory.read_writeBytes, if_neg (by omega)]

/-- A word is its bytes. -/
theorem wordOfBytes_bytesOfWord (w : Word) : wordOfBytes (bytesOfWord w) = w := by
  apply BitVec.eq_of_toNat_eq
  have hw := w.isLt
  simp only [wordOfBytes, bytesOfWord, natOfBytes, byteOf, BitVec.toNat_ofNat]
  omega

/-- A word outside the bytes written reads as before. -/
theorem Memory.readWord_writeBytes_out (bs : List Byte) (m : Memory) {a b : Nat} (h : b + 4 ≤ a ∨ a + bs.length ≤ b) :
    (m.writeBytes a bs).readWord b = m.readWord b := by
  simp only [Memory.readWord, Memory.readBytes]
  rw [read_writeBytes_out, read_writeBytes_out, read_writeBytes_out, read_writeBytes_out] <;> omega

/-- A word that has been written reads as written. -/
theorem Memory.readWord_writeBytes_self (m : Memory) (a : Nat) (w : Word) :
    (m.writeBytes a (bytesOfWord w)).readWord a = w := by
  have h : (m.writeBytes a (bytesOfWord w)).readBytes a 4 = bytesOfWord w := by
    simp [Memory.readBytes, Memory.read_writeBytes, bytesOfWord, nthD, Nat.add_assoc]
  rw [Memory.readWord, h, wordOfBytes_bytesOfWord]

/-- A word outside the words written reads as before. -/
theorem Memory.readWord_writeWords_out (ws : List Word) (m : Memory) {a b : Nat} (h : b + 4 ≤ a ∨ a + 4 * ws.length ≤ b) :
    (m.writeWords a ws).readWord b = m.readWord b := by
  induction ws generalizing m a with
  | nil => rfl
  | cons w ws ih =>
    simp only [List.length_cons] at h
    rw [Memory.writeWords, ih _ (by omega), Memory.readWord_writeBytes_out _ _ (by simp [bytesOfWord]; omega)]

/-- Words written read back. -/
theorem Memory.readWord_writeWords (ws : List Word) (m : Memory) (a k : Nat) (h : k < ws.length) :
    (m.writeWords a ws).readWord (a + 4 * k) = nthD 0 ws k := by
  induction ws generalizing m a k with
  | nil => exact absurd h (Nat.not_lt_zero k)
  | cons w ws ih =>
    cases k with
    | zero =>
      rw [Memory.writeWords, Memory.readWord_writeWords_out _ _ (.inl (by omega))]
      exact Memory.readWord_writeBytes_self m a w
    | succ k =>
      have e : a + 4 * (k + 1) = (a + 4) + 4 * k := by omega
      rw [Memory.writeWords, e, ih _ _ _ (by simpa using h), nthD]

/-- A list is its entries in order. -/
theorem map_nthD_range {α : Type} (dflt : α) (l : List α) : (List.range l.length).map (nthD dflt l) = l := by
  induction l with
  | nil => rfl
  | cons x l ih => 
    rw [List.length_cons, List.range_succ_eq_map, List.map_cons, List.map_map]
    exact congrArg (x :: ·) ih

/-- Words written read back as a list. -/
theorem Memory.words_writeWords (ws : List Word) (m : Memory) (a : Nat) :
    ((List.range ws.length).map fun k => (m.writeWords a ws).readWord (a + 4 * k)) = ws := by
  conv_rhs => rw [← map_nthD_range 0 ws]
  exact List.map_congr_left fun k hk => Memory.readWord_writeWords ws m a k (List.mem_range.mp hk)

/-! ### A memory from bytes, and bytes put over a stretch -/

theorem spWfFrom_memOf (bs : List Byte) (a : Nat) : spWfFrom (fun _ => (0 : Byte)) a (memOf a bs) = true := by
  induction bs generalizing a with
  | nil => rfl
  | cons b r ih =>
    by_cases h : b = 0
    · rw [memOf, if_pos h]; exact spWfFrom_mono _ (Nat.le_succ a) (ih (a + 1))
    · rw [memOf, if_neg h, spWfFrom, ih]; simpa using h

theorem Memory.wf_memOf (bs : List Byte) : Memory.wf (memOf 0 bs) = true := spWfFrom_memOf bs 0

/-- The keys of a memory from bytes lie in their stretch. -/
theorem memOf_keys (bs : List Byte) (a : Nat) : ∀ p ∈ memOf a bs, p.1 < a + bs.length := by
  induction bs generalizing a with
  | nil => simp [memOf]
  | cons b r ih =>
    intro p hp
    by_cases h : b = 0
    · rw [memOf, if_pos h] at hp; have := ih (a + 1) p hp; simp; omega
    · rw [memOf, if_neg h, List.mem_cons] at hp
      rcases hp with rfl | hp
      · simp
      · have := ih (a + 1) p hp; simp; omega

/-- Two canonical stretches, one behind the other, are canonical. -/
theorem spWfFrom_append {α : Type} [DecidableEq α] (f : Nat → α) {l r : Sparse α} {b c : Nat} (hbc : b ≤ c)
    (hl : spWfFrom f b l = true) (hk : ∀ p ∈ l, p.1 < c) (hr : spWfFrom f c r = true) : spWfFrom f b (l ++ r) = true := by
  induction l generalizing b with
  | nil => exact spWfFrom_mono f hbc hr
  | cons p l ih =>
    simp only [spWfFrom, Bool.and_eq_true, decide_eq_true_eq] at hl
    have hp := hk p (by simp)
    simp [spWfFrom, hl.1.1, hl.1.2, ih hp hl.2 fun q hq => hk q (by simp [hq])]

theorem spWfFrom_filter {α : Type} [DecidableEq α] (f : Nat → α) (g : Nat × α → Bool) {l : Sparse α} {b : Nat}
    (h : spWfFrom f b l = true) : spWfFrom f b (l.filter g) = true := by
  induction l generalizing b with
  | nil => rfl
  | cons p l ih =>
    simp only [spWfFrom, Bool.and_eq_true, decide_eq_true_eq] at h
    by_cases hg : g p = true
    · simp [hg, spWfFrom, h.1.1, h.1.2, ih h.2]
    · simpa [hg] using spWfFrom_mono f (by omega) (ih h.2)

theorem spWfFrom_raise {α : Type} [DecidableEq α] (f : Nat → α) {l : Sparse α} {b c : Nat} (h : spWfFrom f b l = true)
    (hk : ∀ p ∈ l, c ≤ p.1) : spWfFrom f c l = true := by
  cases l with
  | nil => rfl
  | cons p l =>
    simp only [spWfFrom, Bool.and_eq_true, decide_eq_true_eq] at h ⊢
    exact ⟨⟨hk p (by simp), h.1.2⟩, h.2⟩

/-- Bytes put over a stretch keep the canonical form. -/
theorem Memory.wf_blit {m : Memory} (a : Nat) (bs : List Byte) (h : m.wf = true) : Memory.wf (blit m a bs) = true := by
  have h0 : spWfFrom (fun _ => (0 : Byte)) 0 m = true := h
  have hhi : spWfFrom (fun _ => (0 : Byte)) (a + bs.length)
      (m.filter fun (c : Nat × Byte) => decide (a + bs.length ≤ c.1)) = true :=
    spWfFrom_raise _ (spWfFrom_filter _ _ h0) (by simp)
  have hmid := spWfFrom_append _ (Nat.le_add_right a bs.length) (spWfFrom_memOf bs a) (memOf_keys bs a) hhi
  have hlo := spWfFrom_append _ (Nat.zero_le a) (spWfFrom_filter _ (fun (c : Nat × Byte) => decide (c.1 < a)) h0)
    (by simp) hmid
  simpa [Memory.wf, spWf, blit, List.append_assoc] using hlo

end Sys2Proof.Machine
end

