-- ==== Sys2Proof/Laws/State.lean ====
section
/-! SUPPORT. The small lemmas of State: what each named update leaves of every field, and registers read after a write. -/

namespace Sys2Proof.Machine

variable (d : Dev) (a b k j : Nat) (f g : RField) (v : Nat) (w : Word)

/-! ### A register write and the other fields of the device -/

@[simp] theorem Dev.setReg_member : (d.setReg a w).member = d.member := by rw [Dev.setReg]
@[simp] theorem Dev.setReg_gtc : (d.setReg a w).gtc = d.gtc := by rw [Dev.setReg]
@[simp] theorem Dev.setReg_rdata : (d.setReg a w).rdata = d.rdata := by rw [Dev.setReg]
@[simp] theorem Dev.setReg_latch : (d.setReg a w).latch = d.latch := by rw [Dev.setReg]
@[simp] theorem Dev.setReg_keys : (d.setReg a w).keys = d.keys := by rw [Dev.setReg]
@[simp] theorem Dev.setReg_free : (d.setReg a w).free = d.free := by rw [Dev.setReg]
@[simp] theorem Dev.setReg_nv : (d.setReg a w).nv = d.nv := by rw [Dev.setReg]
@[simp] theorem Dev.setReg_evt : (d.setReg a w).evt = d.evt := by rw [Dev.setReg]
@[simp] theorem Dev.setReg_trk : (d.setReg a w).trk = d.trk := by rw [Dev.setReg]
@[simp] theorem Dev.setReg_slot : (d.setReg a w).slot = d.slot := by rw [Dev.setReg]
@[simp] theorem Dev.setReg_firings : (d.setReg a w).firings = d.firings := by rw [Dev.setReg]
@[simp] theorem Dev.setReg_sync : (d.setReg a w).sync = d.sync := by rw [Dev.setReg]
@[simp] theorem Dev.setReg_mbx : (d.setReg a w).mbx = d.mbx := by rw [Dev.setReg]
@[simp] theorem Dev.setReg_gar : (d.setReg a w).gar = d.gar := by rw [Dev.setReg]
@[simp] theorem Dev.setReg_lck : (d.setReg a w).lck = d.lck := by rw [Dev.setReg]
@[simp] theorem Dev.setReg_hamper : (d.setReg a w).hamper = d.hamper := by rw [Dev.setReg]
@[simp] theorem Dev.setReg_pcie : (d.setReg a w).pcie = d.pcie := by rw [Dev.setReg]
@[simp] theorem Dev.setReg_trans : (d.setReg a w).trans = d.trans := by rw [Dev.setReg]
@[simp] theorem Dev.setReg_grp : (d.setReg a w).grp = d.grp := by rw [Dev.setReg]
@[simp] theorem Dev.setReg_msiSent : (d.setReg a w).msiSent = d.msiSent := by rw [Dev.setReg]
@[simp] theorem Dev.setReg_acc : (d.setReg a w).acc = d.acc := by rw [Dev.setReg]
@[simp] theorem Dev.setReg_samp : (d.setReg a w).samp = d.samp := by rw [Dev.setReg]
@[simp] theorem Dev.setReg_rot : (d.setReg a w).rot = d.rot := by rw [Dev.setReg]
@[simp] theorem Dev.setReg_ovl : (d.setReg a w).ovl = d.ovl := by rw [Dev.setReg]
@[simp] theorem Dev.setReg_cal : (d.setReg a w).cal = d.cal := by rw [Dev.setReg]
@[simp] theorem Dev.setReg_ow : (d.setReg a w).ow = d.ow := by rw [Dev.setReg]
@[simp] theorem Dev.setReg_sdd : (d.setReg a w).sdd = d.sdd := by rw [Dev.setReg]
@[simp] theorem Dev.setReg_exc : (d.setReg a w).exc = d.exc := by rw [Dev.setReg]
@[simp] theorem Dev.setReg_dl : (d.setReg a w).dl = d.dl := by rw [Dev.setReg]
@[simp] theorem Dev.setReg_cmp : (d.setReg a w).cmp = d.cmp := by rw [Dev.setReg]
@[simp] theorem Dev.setReg_pos : (d.setReg a w).pos = d.pos := by rw [Dev.setReg]
@[simp] theorem Dev.setReg_emu : (d.setReg a w).emu = d.emu := by rw [Dev.setReg]
@[simp] theorem Dev.setReg_ctx : (d.setReg a w).ctx = d.ctx := by rw [Dev.setReg]
@[simp] theorem Dev.setReg_eng : (d.setReg a w).eng = d.eng := by rw [Dev.setReg]
@[simp] theorem Dev.setReg_mach : (d.setReg a w).mach = d.mach := by rw [Dev.setReg]
@[simp] theorem Dev.setReg_tm : (d.setReg a w).tm = d.tm := by rw [Dev.setReg]
@[simp] theorem Dev.setReg_safe : (d.setReg a w).safe = d.safe := by rw [Dev.setReg]
@[simp] theorem Dev.setReg_ring : (d.setReg a w).ring = d.ring := by rw [Dev.setReg]
@[simp] theorem Dev.setReg_rpl : (d.setReg a w).rpl = d.rpl := by rw [Dev.setReg]
@[simp] theorem Dev.setReg_can : (d.setReg a w).can = d.can := by rw [Dev.setReg]
@[simp] theorem Dev.setReg_eth : (d.setReg a w).eth = d.eth := by rw [Dev.setReg]
@[simp] theorem Dev.setReg_sys : (d.setReg a w).sys = d.sys := by rw [Dev.setReg]
@[simp] theorem Dev.setReg_spiResp : (d.setReg a w).spiResp = d.spiResp := by rw [Dev.setReg]

@[simp] theorem Dev.put_member : (d.put a f v).member = d.member := d.setReg_member a _
@[simp] theorem Dev.put_gtc : (d.put a f v).gtc = d.gtc := d.setReg_gtc a _
@[simp] theorem Dev.put_rdata : (d.put a f v).rdata = d.rdata := d.setReg_rdata a _
@[simp] theorem Dev.put_latch : (d.put a f v).latch = d.latch := d.setReg_latch a _
@[simp] theorem Dev.put_keys : (d.put a f v).keys = d.keys := d.setReg_keys a _
@[simp] theorem Dev.put_free : (d.put a f v).free = d.free := d.setReg_free a _
@[simp] theorem Dev.put_nv : (d.put a f v).nv = d.nv := d.setReg_nv a _
@[simp] theorem Dev.put_evt : (d.put a f v).evt = d.evt := d.setReg_evt a _
@[simp] theorem Dev.put_trk : (d.put a f v).trk = d.trk := d.setReg_trk a _
@[simp] theorem Dev.put_slot : (d.put a f v).slot = d.slot := d.setReg_slot a _
@[simp] theorem Dev.put_firings : (d.put a f v).firings = d.firings := d.setReg_firings a _
@[simp] theorem Dev.put_sync : (d.put a f v).sync = d.sync := d.setReg_sync a _
@[simp] theorem Dev.put_mbx : (d.put a f v).mbx = d.mbx := d.setReg_mbx a _
@[simp] theorem Dev.put_gar : (d.put a f v).gar = d.gar := d.setReg_gar a _
@[simp] theorem Dev.put_lck : (d.put a f v).lck = d.lck := d.setReg_lck a _
@[simp] theorem Dev.put_hamper : (d.put a f v).hamper = d.hamper := d.setReg_hamper a _
@[simp] theorem Dev.put_pcie : (d.put a f v).pcie = d.pcie := d.setReg_pcie a _
@[simp] theorem Dev.put_trans : (d.put a f v).trans = d.trans := d.setReg_trans a _
@[simp] theorem Dev.put_grp : (d.put a f v).grp = d.grp := d.setReg_grp a _
@[simp] theorem Dev.put_msiSent : (d.put a f v).msiSent = d.msiSent := d.setReg_msiSent a _
@[simp] theorem Dev.put_acc : (d.put a f v).acc = d.acc := d.setReg_acc a _
@[simp] theorem Dev.put_samp : (d.put a f v).samp = d.samp := d.setReg_samp a _
@[simp] theorem Dev.put_rot : (d.put a f v).rot = d.rot := d.setReg_rot a _
@[simp] theorem Dev.put_ovl : (d.put a f v).ovl = d.ovl := d.setReg_ovl a _
@[simp] theorem Dev.put_cal : (d.put a f v).cal = d.cal := d.setReg_cal a _
@[simp] theorem Dev.put_ow : (d.put a f v).ow = d.ow := d.setReg_ow a _
@[simp] theorem Dev.put_sdd : (d.put a f v).sdd = d.sdd := d.setReg_sdd a _
@[simp] theorem Dev.put_exc : (d.put a f v).exc = d.exc := d.setReg_exc a _
@[simp] theorem Dev.put_dl : (d.put a f v).dl = d.dl := d.setReg_dl a _
@[simp] theorem Dev.put_cmp : (d.put a f v).cmp = d.cmp := d.setReg_cmp a _
@[simp] theorem Dev.put_pos : (d.put a f v).pos = d.pos := d.setReg_pos a _
@[simp] theorem Dev.put_emu : (d.put a f v).emu = d.emu := d.setReg_emu a _
@[simp] theorem Dev.put_ctx : (d.put a f v).ctx = d.ctx := d.setReg_ctx a _
@[simp] theorem Dev.put_eng : (d.put a f v).eng = d.eng := d.setReg_eng a _
@[simp] theorem Dev.put_mach : (d.put a f v).mach = d.mach := d.setReg_mach a _
@[simp] theorem Dev.put_tm : (d.put a f v).tm = d.tm := d.setReg_tm a _
@[simp] theorem Dev.put_safe : (d.put a f v).safe = d.safe := d.setReg_safe a _
@[simp] theorem Dev.put_ring : (d.put a f v).ring = d.ring := d.setReg_ring a _
@[simp] theorem Dev.put_rpl : (d.put a f v).rpl = d.rpl := d.setReg_rpl a _
@[simp] theorem Dev.put_can : (d.put a f v).can = d.can := d.setReg_can a _
@[simp] theorem Dev.put_eth : (d.put a f v).eth = d.eth := d.setReg_eth a _
@[simp] theorem Dev.put_sys : (d.put a f v).sys = d.sys := d.setReg_sys a _
@[simp] theorem Dev.put_spiResp : (d.put a f v).spiResp = d.spiResp := d.setReg_spiResp a _

/-! ### Registers after a register write -/

@[simp] theorem Dev.reg_setReg_self : (d.setReg a w).reg a = w := spGet_spPut_self _ _ _

theorem Dev.reg_setReg_ne {a b : Nat} (h : b ≠ a) : (d.setReg a w).reg b = d.reg b := by
  unfold Dev.reg Dev.setReg
  exact spGet_spPut_ne _ _ h

theorem Dev.reg_setReg : (d.setReg a w).reg b = if b = a then w else d.reg b := by
  split
  · next h => subst h; simp
  · next h => exact d.reg_setReg_ne w h

theorem Dev.reg_put : (d.put a f v).reg b = if b = a then setF (d.reg a) f v else d.reg b := d.reg_setReg a b _

theorem Dev.reg_put_ne {a b : Nat} (h : b ≠ a) : (d.put a f v).reg b = d.reg b := d.reg_setReg_ne _ h

/-- A field just written reads as the number, reduced to its width. -/
theorem Dev.get_put_self (h : f.lo + fieldWidth f ≤ 32) : (d.put a f v).get a f = v % 2 ^ fieldWidth f := by
  simp [Dev.get, Dev.reg_put, getF_setF_self _ _ _ h]

/-- A field apart from the one written stands. -/
theorem Dev.get_put_field (h : f.lo + fieldWidth f ≤ g.lo ∨ g.lo + fieldWidth g ≤ f.lo) :
    (d.put a f v).get b g = d.get b g := by
  by_cases hb : b = a
  · subst hb; simp [Dev.get, Dev.reg_put, getF_setF_ne _ _ _ _ h]
  · simp [Dev.get, Dev.reg_put_ne _ _ _ hb]

/-- A field of another register stands. -/
theorem Dev.get_put_ne {a b : Nat} (h : b ≠ a) : (d.put a f v).get b g = d.get b g := by
  simp [Dev.get, Dev.reg_put_ne _ _ _ h]

theorem Dev.flag_putB_self (c : Bool) (h1 : fieldWidth f = 1) (h : f.lo < 32) : (d.putB a f c).flag a f = c := by
  have := d.get_put_self a f (b2n c) (by omega)
  cases c <;> simp_all [Dev.flag, Dev.putB, b2n]

theorem Dev.reg_orReg : (d.orReg a w).reg b = if b = a then d.reg a ||| w else d.reg b := d.reg_setReg a b _

theorem Dev.reg_clrReg : (d.clrReg a w).reg b = if b = a then d.reg a &&& ~~~ w else d.reg b := d.reg_setReg a b _

/-- What an operation leaves of the registers may be read through any field. -/
theorem Dev.get_of_reg {d e : Dev} {a : Nat} (h : e.reg a = d.reg a) (f : RField) : e.get a f = d.get a f := by
  rw [Dev.get, h]; rfl

/-! ### Unit records -/

@[simp] theorem Dev.reg_setTrk (x : TrkSt) : (d.setTrk k x).reg a = d.reg a := by rw [Dev.setTrk]; rfl
theorem Dev.trkS_setTrk (x : TrkSt) : (d.setTrk k x).trkS j = if j = k then x else d.trkS j := spGet_spPut _ _ _ _
@[simp] theorem Dev.trkS_setTrk_self (x : TrkSt) : (d.setTrk k x).trkS k = x := spGet_spPut_self _ _ _
@[simp] theorem Dev.trkS_setReg : (d.setReg a w).trkS k = d.trkS k := by rw [Dev.setReg]; rfl
@[simp] theorem Dev.trkS_put : (d.put a f v).trkS k = d.trkS k := d.trkS_setReg a k _
@[simp] theorem Dev.setTrk_member (x : TrkSt) : (d.setTrk k x).member = d.member := by rw [Dev.setTrk]
@[simp] theorem Dev.setTrk_gtc (x : TrkSt) : (d.setTrk k x).gtc = d.gtc := by rw [Dev.setTrk]
@[simp] theorem Dev.reg_setSlot (x : SlotSt) : (d.setSlot k x).reg a = d.reg a := by rw [Dev.setSlot]; rfl
theorem Dev.slotS_setSlot (x : SlotSt) : (d.setSlot k x).slotS j = if j = k then x else d.slotS j := spGet_spPut _ _ _ _
@[simp] theorem Dev.slotS_setSlot_self (x : SlotSt) : (d.setSlot k x).slotS k = x := spGet_spPut_self _ _ _
@[simp] theorem Dev.slotS_setReg : (d.setReg a w).slotS k = d.slotS k := by rw [Dev.setReg]; rfl
@[simp] theorem Dev.slotS_put : (d.put a f v).slotS k = d.slotS k := d.slotS_setReg a k _
@[simp] theorem Dev.setSlot_member (x : SlotSt) : (d.setSlot k x).member = d.member := by rw [Dev.setSlot]
@[simp] theorem Dev.setSlot_gtc (x : SlotSt) : (d.setSlot k x).gtc = d.gtc := by rw [Dev.setSlot]
@[simp] theorem Dev.reg_setMbx (x : MbxSt) : (d.setMbx k x).reg a = d.reg a := by rw [Dev.setMbx]; rfl
theorem Dev.mbxS_setMbx (x : MbxSt) : (d.setMbx k x).mbxS j = if j = k then x else d.mbxS j := spGet_spPut _ _ _ _
@[simp] theorem Dev.mbxS_setMbx_self (x : MbxSt) : (d.setMbx k x).mbxS k = x := spGet_spPut_self _ _ _
@[simp] theorem Dev.mbxS_setReg : (d.setReg a w).mbxS k = d.mbxS k := by rw [Dev.setReg]; rfl
@[simp] theorem Dev.mbxS_put : (d.put a f v).mbxS k = d.mbxS k := d.mbxS_setReg a k _
@[simp] theorem Dev.setMbx_member (x : MbxSt) : (d.setMbx k x).member = d.member := by rw [Dev.setMbx]
@[simp] theorem Dev.setMbx_gtc (x : MbxSt) : (d.setMbx k x).gtc = d.gtc := by rw [Dev.setMbx]
@[simp] theorem Dev.reg_setGar (x : GarSt) : (d.setGar k x).reg a = d.reg a := by rw [Dev.setGar]; rfl
theorem Dev.garS_setGar (x : GarSt) : (d.setGar k x).garS j = if j = k then x else d.garS j := spGet_spPut _ _ _ _
@[simp] theorem Dev.garS_setGar_self (x : GarSt) : (d.setGar k x).garS k = x := spGet_spPut_self _ _ _
@[simp] theorem Dev.garS_setReg : (d.setReg a w).garS k = d.garS k := by rw [Dev.setReg]; rfl
@[simp] theorem Dev.garS_put : (d.put a f v).garS k = d.garS k := d.garS_setReg a k _
@[simp] theorem Dev.setGar_member (x : GarSt) : (d.setGar k x).member = d.member := by rw [Dev.setGar]
@[simp] theorem Dev.setGar_gtc (x : GarSt) : (d.setGar k x).gtc = d.gtc := by rw [Dev.setGar]
@[simp] theorem Dev.reg_setKey (x : KeySt) : (d.setKey k x).reg a = d.reg a := by rw [Dev.setKey]; rfl
theorem Dev.keyS_setKey (x : KeySt) : (d.setKey k x).keyS j = if j = k then x else d.keyS j := spGet_spPut _ _ _ _
@[simp] theorem Dev.keyS_setKey_self (x : KeySt) : (d.setKey k x).keyS k = x := spGet_spPut_self _ _ _
@[simp] theorem Dev.keyS_setReg : (d.setReg a w).keyS k = d.keyS k := by rw [Dev.setReg]; rfl
@[simp] theorem Dev.keyS_put : (d.put a f v).keyS k = d.keyS k := d.keyS_setReg a k _
@[simp] theorem Dev.setKey_member (x : KeySt) : (d.setKey k x).member = d.member := by rw [Dev.setKey]
@[simp] theorem Dev.setKey_gtc (x : KeySt) : (d.setKey k x).gtc = d.gtc := by rw [Dev.setKey]
@[simp] theorem Dev.reg_setLck (x : Option Nat) : (d.setLck k x).reg a = d.reg a := by rw [Dev.setLck]; rfl
theorem Dev.lckS_setLck (x : Option Nat) : (d.setLck k x).lckS j = if j = k then x else d.lckS j := spGet_spPut _ _ _ _
@[simp] theorem Dev.lckS_setLck_self (x : Option Nat) : (d.setLck k x).lckS k = x := spGet_spPut_self _ _ _
@[simp] theorem Dev.lckS_setReg : (d.setReg a w).lckS k = d.lckS k := by rw [Dev.setReg]; rfl
@[simp] theorem Dev.lckS_put : (d.put a f v).lckS k = d.lckS k := d.lckS_setReg a k _
@[simp] theorem Dev.setLck_member (x : Option Nat) : (d.setLck k x).member = d.member := by rw [Dev.setLck]
@[simp] theorem Dev.setLck_gtc (x : Option Nat) : (d.setLck k x).gtc = d.gtc := by rw [Dev.setLck]
@[simp] theorem Dev.reg_setGrp (x : GrpSt) : (d.setGrp k x).reg a = d.reg a := by rw [Dev.setGrp]; rfl
theorem Dev.grpS_setGrp (x : GrpSt) : (d.setGrp k x).grpS j = if j = k then x else d.grpS j := spGet_spPut _ _ _ _
@[simp] theorem Dev.grpS_setGrp_self (x : GrpSt) : (d.setGrp k x).grpS k = x := spGet_spPut_self _ _ _
@[simp] theorem Dev.grpS_setReg : (d.setReg a w).grpS k = d.grpS k := by rw [Dev.setReg]; rfl
@[simp] theorem Dev.grpS_put : (d.put a f v).grpS k = d.grpS k := d.grpS_setReg a k _
@[simp] theorem Dev.setGrp_member (x : GrpSt) : (d.setGrp k x).member = d.member := by rw [Dev.setGrp]
@[simp] theorem Dev.setGrp_gtc (x : GrpSt) : (d.setGrp k x).gtc = d.gtc := by rw [Dev.setGrp]
@[simp] theorem Dev.reg_setAcc (x : AccSt) : (d.setAcc k x).reg a = d.reg a := by rw [Dev.setAcc]; rfl
theorem Dev.accS_setAcc (x : AccSt) : (d.setAcc k x).accS j = if j = k then x else d.accS j := spGet_spPut _ _ _ _
@[simp] theorem Dev.accS_setAcc_self (x : AccSt) : (d.setAcc k x).accS k = x := spGet_spPut_self _ _ _
@[simp] theorem Dev.accS_setReg : (d.setReg a w).accS k = d.accS k := by rw [Dev.setReg]; rfl
@[simp] theorem Dev.accS_put : (d.put a f v).accS k = d.accS k := d.accS_setReg a k _
@[simp] theorem Dev.setAcc_member (x : AccSt) : (d.setAcc k x).member = d.member := by rw [Dev.setAcc]
@[simp] theorem Dev.setAcc_gtc (x : AccSt) : (d.setAcc k x).gtc = d.gtc := by rw [Dev.setAcc]
@[simp] theorem Dev.reg_setOvl (x : OvlSt) : (d.setOvl k x).reg a = d.reg a := by rw [Dev.setOvl]; rfl
theorem Dev.ovlS_setOvl (x : OvlSt) : (d.setOvl k x).ovlS j = if j = k then x else d.ovlS j := spGet_spPut _ _ _ _
@[simp] theorem Dev.ovlS_setOvl_self (x : OvlSt) : (d.setOvl k x).ovlS k = x := spGet_spPut_self _ _ _
@[simp] theorem Dev.ovlS_setReg : (d.setReg a w).ovlS k = d.ovlS k := by rw [Dev.setReg]; rfl
@[simp] theorem Dev.ovlS_put : (d.put a f v).ovlS k = d.ovlS k := d.ovlS_setReg a k _
@[simp] theorem Dev.setOvl_member (x : OvlSt) : (d.setOvl k x).member = d.member := by rw [Dev.setOvl]
@[simp] theorem Dev.setOvl_gtc (x : OvlSt) : (d.setOvl k x).gtc = d.gtc := by rw [Dev.setOvl]
@[simp] theorem Dev.reg_setCal (x : CalSt) : (d.setCal k x).reg a = d.reg a := by rw [Dev.setCal]; rfl
theorem Dev.calS_setCal (x : CalSt) : (d.setCal k x).calS j = if j = k then x else d.calS j := spGet_spPut _ _ _ _
@[simp] theorem Dev.calS_setCal_self (x : CalSt) : (d.setCal k x).calS k = x := spGet_spPut_self _ _ _
@[simp] theorem Dev.calS_setReg : (d.setReg a w).calS k = d.calS k := by rw [Dev.setReg]; rfl
@[simp] theorem Dev.calS_put : (d.put a f v).calS k = d.calS k := d.calS_setReg a k _
@[simp] theorem Dev.setCal_member (x : CalSt) : (d.setCal k x).member = d.member := by rw [Dev.setCal]
@[simp] theorem Dev.setCal_gtc (x : CalSt) : (d.setCal k x).gtc = d.gtc := by rw [Dev.setCal]
@[simp] theorem Dev.reg_setOw (x : List OwSt) : (d.setOw k x).reg a = d.reg a := by rw [Dev.setOw]; rfl
theorem Dev.owS_setOw (x : List OwSt) : (d.setOw k x).owS j = if j = k then x else d.owS j := spGet_spPut _ _ _ _
@[simp] theorem Dev.owS_setOw_self (x : List OwSt) : (d.setOw k x).owS k = x := spGet_spPut_self _ _ _
@[simp] theorem Dev.owS_setReg : (d.setReg a w).owS k = d.owS k := by rw [Dev.setReg]; rfl
@[simp] theorem Dev.owS_put : (d.put a f v).owS k = d.owS k := d.owS_setReg a k _
@[simp] theorem Dev.setOw_member (x : List OwSt) : (d.setOw k x).member = d.member := by rw [Dev.setOw]
@[simp] theorem Dev.setOw_gtc (x : List OwSt) : (d.setOw k x).gtc = d.gtc := by rw [Dev.setOw]
@[simp] theorem Dev.reg_setSdd (x : SddSt) : (d.setSdd k x).reg a = d.reg a := by rw [Dev.setSdd]; rfl
theorem Dev.sddS_setSdd (x : SddSt) : (d.setSdd k x).sddS j = if j = k then x else d.sddS j := spGet_spPut _ _ _ _
@[simp] theorem Dev.sddS_setSdd_self (x : SddSt) : (d.setSdd k x).sddS k = x := spGet_spPut_self _ _ _
@[simp] theorem Dev.sddS_setReg : (d.setReg a w).sddS k = d.sddS k := by rw [Dev.setReg]; rfl
@[simp] theorem Dev.sddS_put : (d.put a f v).sddS k = d.sddS k := d.sddS_setReg a k _
@[simp] theorem Dev.setSdd_member (x : SddSt) : (d.setSdd k x).member = d.member := by rw [Dev.setSdd]
@[simp] theorem Dev.setSdd_gtc (x : SddSt) : (d.setSdd k x).gtc = d.gtc := by rw [Dev.setSdd]
@[simp] theorem Dev.reg_setExc (x : List ExcSeg) : (d.setExc k x).reg a = d.reg a := by rw [Dev.setExc]; rfl
theorem Dev.excS_setExc (x : List ExcSeg) : (d.setExc k x).excS j = if j = k then x else d.excS j := spGet_spPut _ _ _ _
@[simp] theorem Dev.excS_setExc_self (x : List ExcSeg) : (d.setExc k x).excS k = x := spGet_spPut_self _ _ _
@[simp] theorem Dev.excS_setReg : (d.setReg a w).excS k = d.excS k := by rw [Dev.setReg]; rfl
@[simp] theorem Dev.excS_put : (d.put a f v).excS k = d.excS k := d.excS_setReg a k _
@[simp] theorem Dev.setExc_member (x : List ExcSeg) : (d.setExc k x).member = d.member := by rw [Dev.setExc]
@[simp] theorem Dev.setExc_gtc (x : List ExcSeg) : (d.setExc k x).gtc = d.gtc := by rw [Dev.setExc]
@[simp] theorem Dev.reg_setDl (x : DlSt) : (d.setDl k x).reg a = d.reg a := by rw [Dev.setDl]; rfl
theorem Dev.dlS_setDl (x : DlSt) : (d.setDl k x).dlS j = if j = k then x else d.dlS j := spGet_spPut _ _ _ _
@[simp] theorem Dev.dlS_setDl_self (x : DlSt) : (d.setDl k x).dlS k = x := spGet_spPut_self _ _ _
@[simp] theorem Dev.dlS_setReg : (d.setReg a w).dlS k = d.dlS k := by rw [Dev.setReg]; rfl
@[simp] theorem Dev.dlS_put : (d.put a f v).dlS k = d.dlS k := d.dlS_setReg a k _
@[simp] theorem Dev.setDl_member (x : DlSt) : (d.setDl k x).member = d.member := by rw [Dev.setDl]
@[simp] theorem Dev.setDl_gtc (x : DlSt) : (d.setDl k x).gtc = d.gtc := by rw [Dev.setDl]
@[simp] theorem Dev.reg_setCmp (x : CmpSt) : (d.setCmp k x).reg a = d.reg a := by rw [Dev.setCmp]; rfl
theorem Dev.cmpS_setCmp (x : CmpSt) : (d.setCmp k x).cmpS j = if j = k then x else d.cmpS j := spGet_spPut _ _ _ _
@[simp] theorem Dev.cmpS_setCmp_self (x : CmpSt) : (d.setCmp k x).cmpS k = x := spGet_spPut_self _ _ _
@[simp] theorem Dev.cmpS_setReg : (d.setReg a w).cmpS k = d.cmpS k := by rw [Dev.setReg]; rfl
@[simp] theorem Dev.cmpS_put : (d.put a f v).cmpS k = d.cmpS k := d.cmpS_setReg a k _
@[simp] theorem Dev.setCmp_member (x : CmpSt) : (d.setCmp k x).member = d.member := by rw [Dev.setCmp]
@[simp] theorem Dev.setCmp_gtc (x : CmpSt) : (d.setCmp k x).gtc = d.gtc := by rw [Dev.setCmp]
@[simp] theorem Dev.reg_setPos (x : PosSt) : (d.setPos k x).reg a = d.reg a := by rw [Dev.setPos]; rfl
theorem Dev.posS_setPos (x : PosSt) : (d.setPos k x).posS j = if j = k then x else d.posS j := spGet_spPut _ _ _ _
@[simp] theorem Dev.posS_setPos_self (x : PosSt) : (d.setPos k x).posS k = x := spGet_spPut_self _ _ _
@[simp] theorem Dev.posS_setReg : (d.setReg a w).posS k = d.posS k := by rw [Dev.setReg]; rfl
@[simp] theorem Dev.posS_put : (d.put a f v).posS k = d.posS k := d.posS_setReg a k _
@[simp] theorem Dev.setPos_member (x : PosSt) : (d.setPos k x).member = d.member := by rw [Dev.setPos]
@[simp] theorem Dev.setPos_gtc (x : PosSt) : (d.setPos k x).gtc = d.gtc := by rw [Dev.setPos]
@[simp] theorem Dev.reg_setEmu (x : EmuSt) : (d.setEmu k x).reg a = d.reg a := by rw [Dev.setEmu]; rfl
theorem Dev.emuS_setEmu (x : EmuSt) : (d.setEmu k x).emuS j = if j = k then x else d.emuS j := spGet_spPut _ _ _ _
@[simp] theorem Dev.emuS_setEmu_self (x : EmuSt) : (d.setEmu k x).emuS k = x := spGet_spPut_self _ _ _
@[simp] theorem Dev.emuS_setReg : (d.setReg a w).emuS k = d.emuS k := by rw [Dev.setReg]; rfl
@[simp] theorem Dev.emuS_put : (d.put a f v).emuS k = d.emuS k := d.emuS_setReg a k _
@[simp] theorem Dev.setEmu_member (x : EmuSt) : (d.setEmu k x).member = d.member := by rw [Dev.setEmu]
@[simp] theorem Dev.setEmu_gtc (x : EmuSt) : (d.setEmu k x).gtc = d.gtc := by rw [Dev.setEmu]
@[simp] theorem Dev.reg_setCtx (x : CtxSt) : (d.setCtx k x).reg a = d.reg a := by rw [Dev.setCtx]; rfl
theorem Dev.ctxS_setCtx (x : CtxSt) : (d.setCtx k x).ctxS j = if j = k then x else d.ctxS j := spGet_spPut _ _ _ _
@[simp] theorem Dev.ctxS_setCtx_self (x : CtxSt) : (d.setCtx k x).ctxS k = x := spGet_spPut_self _ _ _
@[simp] theorem Dev.ctxS_setReg : (d.setReg a w).ctxS k = d.ctxS k := by rw [Dev.setReg]; rfl
@[simp] theorem Dev.ctxS_put : (d.put a f v).ctxS k = d.ctxS k := d.ctxS_setReg a k _
@[simp] theorem Dev.setCtx_member (x : CtxSt) : (d.setCtx k x).member = d.member := by rw [Dev.setCtx]
@[simp] theorem Dev.setCtx_gtc (x : CtxSt) : (d.setCtx k x).gtc = d.gtc := by rw [Dev.setCtx]
@[simp] theorem Dev.reg_setEng (x : EngSt) : (d.setEng k x).reg a = d.reg a := by rw [Dev.setEng]; rfl
theorem Dev.engS_setEng (x : EngSt) : (d.setEng k x).engS j = if j = k then x else d.engS j := spGet_spPut _ _ _ _
@[simp] theorem Dev.engS_setEng_self (x : EngSt) : (d.setEng k x).engS k = x := spGet_spPut_self _ _ _
@[simp] theorem Dev.engS_setReg : (d.setReg a w).engS k = d.engS k := by rw [Dev.setReg]; rfl
@[simp] theorem Dev.engS_put : (d.put a f v).engS k = d.engS k := d.engS_setReg a k _
@[simp] theorem Dev.setEng_member (x : EngSt) : (d.setEng k x).member = d.member := by rw [Dev.setEng]
@[simp] theorem Dev.setEng_gtc (x : EngSt) : (d.setEng k x).gtc = d.gtc := by rw [Dev.setEng]
@[simp] theorem Dev.reg_setMach (x : MachSt) : (d.setMach k x).reg a = d.reg a := by rw [Dev.setMach]; rfl
theorem Dev.machS_setMach (x : MachSt) : (d.setMach k x).machS j = if j = k then x else d.machS j := spGet_spPut _ _ _ _
@[simp] theorem Dev.machS_setMach_self (x : MachSt) : (d.setMach k x).machS k = x := spGet_spPut_self _ _ _
@[simp] theorem Dev.machS_setReg : (d.setReg a w).machS k = d.machS k := by rw [Dev.setReg]; rfl
@[simp] theorem Dev.machS_put : (d.put a f v).machS k = d.machS k := d.machS_setReg a k _
@[simp] theorem Dev.setMach_member (x : MachSt) : (d.setMach k x).member = d.member := by rw [Dev.setMach]
@[simp] theorem Dev.setMach_gtc (x : MachSt) : (d.setMach k x).gtc = d.gtc := by rw [Dev.setMach]
@[simp] theorem Dev.reg_setTm (x : TmSt) : (d.setTm k x).reg a = d.reg a := by rw [Dev.setTm]; rfl
theorem Dev.tmS_setTm (x : TmSt) : (d.setTm k x).tmS j = if j = k then x else d.tmS j := spGet_spPut _ _ _ _
@[simp] theorem Dev.tmS_setTm_self (x : TmSt) : (d.setTm k x).tmS k = x := spGet_spPut_self _ _ _
@[simp] theorem Dev.tmS_setReg : (d.setReg a w).tmS k = d.tmS k := by rw [Dev.setReg]; rfl
@[simp] theorem Dev.tmS_put : (d.put a f v).tmS k = d.tmS k := d.tmS_setReg a k _
@[simp] theorem Dev.setTm_member (x : TmSt) : (d.setTm k x).member = d.member := by rw [Dev.setTm]
@[simp] theorem Dev.setTm_gtc (x : TmSt) : (d.setTm k x).gtc = d.gtc := by rw [Dev.setTm]
@[simp] theorem Dev.reg_setCan (x : CanSt) : (d.setCan k x).reg a = d.reg a := by rw [Dev.setCan]; rfl
theorem Dev.canS_setCan (x : CanSt) : (d.setCan k x).canS j = if j = k then x else d.canS j := spGet_spPut _ _ _ _
@[simp] theorem Dev.canS_setCan_self (x : CanSt) : (d.setCan k x).canS k = x := spGet_spPut_self _ _ _
@[simp] theorem Dev.canS_setReg : (d.setReg a w).canS k = d.canS k := by rw [Dev.setReg]; rfl
@[simp] theorem Dev.canS_put : (d.put a f v).canS k = d.canS k := d.canS_setReg a k _
@[simp] theorem Dev.setCan_member (x : CanSt) : (d.setCan k x).member = d.member := by rw [Dev.setCan]
@[simp] theorem Dev.setCan_gtc (x : CanSt) : (d.setCan k x).gtc = d.gtc := by rw [Dev.setCan]
@[simp] theorem Dev.reg_setEth (x : EthSt) : (d.setEth k x).reg a = d.reg a := by rw [Dev.setEth]; rfl
theorem Dev.ethS_setEth (x : EthSt) : (d.setEth k x).ethS j = if j = k then x else d.ethS j := spGet_spPut _ _ _ _
@[simp] theorem Dev.ethS_setEth_self (x : EthSt) : (d.setEth k x).ethS k = x := spGet_spPut_self _ _ _
@[simp] theorem Dev.ethS_setReg : (d.setReg a w).ethS k = d.ethS k := by rw [Dev.setReg]; rfl
@[simp] theorem Dev.ethS_put : (d.put a f v).ethS k = d.ethS k := d.ethS_setReg a k _
@[simp] theorem Dev.setEth_member (x : EthSt) : (d.setEth k x).member = d.member := by rw [Dev.setEth]
@[simp] theorem Dev.setEth_gtc (x : EthSt) : (d.setEth k x).gtc = d.gtc := by rw [Dev.setEth]

/-! ### Outputs and latches -/

@[simp] theorem Dev.reg_answer : (d.answer k w).reg a = d.reg a := by rw [Dev.answer]; rfl
@[simp] theorem Dev.reg_latchW : (d.latchW k b w).reg a = d.reg a := by rw [Dev.latchW]; rfl

theorem Dev.rdata_answer : spGet 0 (d.answer k w).rdata j = if j = k then w else spGet 0 d.rdata j := spGet_spPut _ _ _ _

@[simp] theorem Dev.latched_latchW : (d.latchW k a w).latched k a = some w := by
  simp only [Dev.latched, Dev.latchW, spGet_spPut_self]

end Sys2Proof.Machine
end

