-- ==== Sys2Proof/Laws/Events.lean ====
section
/-! SUPPORT. What the delivery of an event, a record or a message can change, said once: everything else stands, no raw bit is
cleared, and the source's own bit is set. -/

namespace Sys2Proof.Machine

/-! ### What a bus cycle remembers -/

@[simp] theorem Dev.reg_setCyc (d : Dev) (x : CycSt) (a : Nat) : (d.setCyc x).reg a = d.reg a := rfl
@[simp] theorem Dev.setCyc_member (d : Dev) (x : CycSt) : (d.setCyc x).member = d.member := rfl
@[simp] theorem Dev.setCyc_gtc (d : Dev) (x : CycSt) : (d.setCyc x).gtc = d.gtc := rfl
@[simp] theorem Dev.busCycle_setCyc (d : Dev) (x : CycSt) : (d.setCyc x).busCycle = d.busCycle := rfl

/-- The memory of the present cycle always counts as the present one's. -/
@[simp] theorem Dev.cycS_at1 (d : Dev) : d.cycS.at1 = d.busCycle := by
  unfold Dev.cycS
  split
  · next h => exact h
  · rfl

theorem Dev.cycS_setCyc (d : Dev) {x : CycSt} (h : x.at1 = d.busCycle) : (d.setCyc x).cycS = x := if_pos h

/-! ### The relation -/

theorem Quiet.refl (d : Dev) : Quiet d d := ⟨rfl, fun _ _ => rfl, fun _ _ h => h⟩

theorem Quiet.trans {d e f : Dev} (h : Quiet d e) (k : Quiet e f) : Quiet d f :=
  ⟨k.1.trans h.1, fun a ha => (k.2.1 a ha).trans (h.2.1 a ha), fun p i x => k.2.2 p i (h.2.2 p i x)⟩

theorem Quiet.ite {d e f : Dev} (c : Prop) [Decidable c] (h : c → Quiet d e) (k : ¬c → Quiet d f) :
    Quiet d (if c then e else f) := by
  split
  · next x => exact h x
  · next x => exact k x

/-- A change of the parts that events use, with the registers as they are. -/
theorem Quiet.of_regs {d e : Dev} (hc : e.calm = d.calm) (hr : ∀ a, e.reg a = d.reg a) : Quiet d e :=
  ⟨hc, fun a _ => hr a, fun p i h => by rw [hr]; exact h⟩

theorem eventReg_raw (p : Nat) : eventReg (R.PG_EVT_RAW p) = true := by
  have : offOf (R.PG_EVT_RAW p) = 0x10 := by simp only [offOf, R.PG_EVT_RAW, pageBase]; omega
  simp [eventReg, this]

/-- A write of a register of the event system that is no raw register. -/
theorem Quiet.setReg (d : Dev) {a : Nat} (w : Word) (h : eventReg a = true) (hn : offOf a ≠ 0x10) : Quiet d (d.setReg a w) := by
  refine ⟨by rw [Dev.setReg]; rfl, fun b hb => d.reg_setReg_ne w (fun e => ?_), fun p i x => ?_⟩
  · rw [e, h] at hb; cases hb
  · rw [d.reg_setReg_ne w]
    · exact x
    · rintro rfl; exact hn (by simp only [offOf, R.PG_EVT_RAW, pageBase]; omega)

theorem Quiet.put (d : Dev) {a : Nat} (f : RField) (v : Nat) (h : eventReg a = true) (hn : offOf a ≠ 0x10) :
    Quiet d (d.put a f v) := Quiet.setReg d _ h hn

theorem Quiet.orReg (d : Dev) {a : Nat} (w : Word) (h : eventReg a = true) : Quiet d (d.orReg a w) := by
  refine ⟨by rw [Dev.orReg, Dev.setReg]; rfl, fun b hb => d.reg_setReg_ne _ (fun e => ?_), fun p i x => ?_⟩
  · rw [e, h] at hb; cases hb
  · rw [Dev.reg_orReg]
    split
    · next e => rw [bitOf_or, ← e, x]; rfl
    · exact x

/-! ### The router -/

theorem Dev.msiSend_quiet (d : Dev) (v : Nat) : Quiet d (d.msiSend v) :=
  Quiet.ite _ (fun _ => Quiet.refl d) fun _ => Quiet.of_regs rfl fun _ => rfl

theorem Dev.msiRaise_quiet (d : Dev) (v : Nat) : Quiet d (d.msiRaise v) :=
  Quiet.ite _ (fun _ => Quiet.refl d) fun _ => (Quiet.orReg d (bitWord v) (by decide)).trans (Dev.msiSend_quiet _ v)

theorem Dev.pulseR_quiet (d : Dev) (n : Nat) : Quiet d (d.pulseR n) := Quiet.of_regs rfl fun _ => rfl

theorem Dev.vecS0_quiet (d : Dev) (a : Nat) : Quiet d (d.vecS0 a) :=
  Quiet.ite _ (fun _ => Quiet.of_regs rfl fun _ => rfl) fun _ => Quiet.refl d

theorem Dev.vecS1_quiet (d : Dev) (a : Nat) : Quiet d (d.vecS1 a) :=
  Quiet.ite _ (fun _ => Quiet.of_regs rfl fun _ => rfl) fun _ => Quiet.refl d

theorem Dev.toMsi_quiet (d : Dev) (a : Nat) : Quiet d (d.toMsi a) :=
  Quiet.ite _ (fun _ => d.msiRaise_quiet _) fun _ => Quiet.refl d

theorem Dev.toOut_quiet (d : Dev) (a : Nat) : Quiet d (d.toOut a) :=
  Quiet.ite _ (fun _ => d.pulseR_quiet _) fun _ => Quiet.refl d

theorem Dev.deliver_quiet (d : Dev) (page src : Nat) : Quiet d (d.deliver page src) := by
  have h := (d.vecS0_quiet (R.EVT_RTE src)).trans (Dev.vecS1_quiet _ (R.EVT_RTE src))
  exact Quiet.ite _ (fun _ => h.trans ((Dev.toMsi_quiet _ _).trans (Dev.toOut_quiet _ _))) fun _ => h

theorem evtBit_lt (page src : Nat) : evtBit page src < 32 := by
  unfold evtBit
  split
  · exact Nat.mod_lt _ (by decide)
  · decide

theorem Dev.noteLast_quiet (d : Dev) (src : Nat) : Quiet d (d.noteLast src) :=
  Quiet.ite _ (fun _ => Quiet.refl d) fun _ =>
    (Quiet.put d _ _ (by decide) (by decide)).trans (Quiet.setReg _ _ (by decide) (by decide))

theorem Dev.noteRaising_quiet (d : Dev) (page src : Nat) : Quiet d (d.noteRaising page src) :=
  Quiet.of_regs rfl fun _ => rfl

/-- What follows the raw bit in a raising. -/
theorem Dev.raise0_tail_quiet (d : Dev) (page src : Nat) :
    Quiet d (((d.noteLast src).noteRaising page src).deliver page src) :=
  (d.noteLast_quiet src).trans ((Dev.noteRaising_quiet _ page src).trans (Dev.deliver_quiet _ page src))

theorem Dev.raise0_quiet (d : Dev) (page src : Nat) : Quiet d (d.raise0 page src) :=
  Quiet.ite _ (fun _ => (Quiet.orReg d _ (eventReg_raw page)).trans (Dev.raise0_tail_quiet _ page src)) fun _ => Quiet.refl d

/-- A raising sets the raw bit of its source, in a page that the member has (R7, R476). -/
theorem Dev.raise0_raised (d : Dev) {page src : Nat} (h : pagePresent d.member page = true) :
    Raised (d.raise0 page src) page src := by
  unfold Dev.raise0
  rw [if_pos h]
  refine (Dev.raise0_tail_quiet _ page src).2.2 _ _ ?_
  rw [Dev.reg_orReg, if_pos rfl, bitOf_or, bitOf_bitWord _ (evtBit_lt page src), Bool.or_true]

/-! ### Records and triggers -/

theorem Dev.emit0_quiet (d : Dev) (r : RecRec) : Quiet d (d.emit0 r).1 := by
  unfold Dev.emit0
  split
  · exact Quiet.refl d
  · split
    · exact Quiet.of_regs rfl fun _ => rfl
    · split
      · exact Quiet.of_regs rfl fun _ => rfl
      · refine Quiet.trans ?_ (Quiet.put (d.recLossPut r) _ _ (by decide) (by decide))
        exact Quiet.of_regs rfl fun _ => rfl

theorem Dev.trigPost_quiet (d : Dev) (src : Nat) : Quiet d (d.trigPost src) := by
  unfold Dev.trigPost
  refine Quiet.trans ?_ (Quiet.put _ _ _ (by decide) (by decide))
  refine Quiet.trans ?_ (Quiet.put _ _ _ (by decide) (by decide))
  refine Quiet.trans ?_ (Quiet.setReg _ _ (by decide) (by decide))
  refine Quiet.trans ?_ (Quiet.put _ _ _ (by decide) (by decide))
  exact Quiet.of_regs rfl fun _ => rfl

theorem Dev.trigLower_quiet (d : Dev) (src : Nat) : Quiet d (d.trigLower src) :=
  (Quiet.put d _ _ (by decide) (by decide)).trans (Quiet.of_regs rfl fun _ => rfl)

theorem Dev.trigMore_quiet (d : Dev) (src : Nat) : Quiet d (d.trigMore src) := by
  unfold Dev.trigMore
  refine Quiet.ite _ (fun _ => ?_) fun _ => Quiet.ite _ (fun _ => ?_) fun _ => Quiet.refl d
  · exact Quiet.ite _ (fun _ => d.trigLower_quiet src) fun _ => Quiet.refl d
  · exact Quiet.trans (Quiet.of_regs rfl fun _ => rfl) (Quiet.put _ _ _ (by decide) (by decide))

theorem Dev.raisePost_quiet (d : Dev) (src : Nat) : Quiet d (d.raisePost src) :=
  Quiet.ite _ (fun _ => (d.raise0_quiet _ _).trans (Dev.trigMore_quiet _ _)) fun _ => d.raise0_quiet _ _

theorem Dev.lossIf_quiet (d : Dev) (lost : Bool) : Quiet d (d.lossIf lost) :=
  Quiet.ite _ (fun _ => d.raisePost_quiet _) fun _ => Quiet.refl d

theorem Dev.trigger_quiet (d : Dev) (src : Nat) : Quiet d (d.trigger src) := by
  unfold Dev.trigger
  refine Quiet.ite _ (fun _ => ?_) fun _ => d.trigMore_quiet src
  exact (Dev.emit0_quiet d _).trans ((Dev.trigPost_quiet _ _).trans ((Dev.raisePost_quiet _ _).trans (Dev.lossIf_quiet _ _)))

theorem Dev.raiseR_quiet (d : Dev) (page src : Nat) : Quiet d (d.raiseR page src) := by
  unfold Dev.raiseR
  refine Quiet.ite _ (fun _ => Quiet.ite _ (fun _ => ?_) fun _ => d.raise0_quiet page src) fun _ => Quiet.refl d
  exact (d.raise0_quiet page src).trans (Dev.trigger_quiet _ _)

theorem Dev.raiseR_raised (d : Dev) {page src : Nat} (h : pagePresent d.member page = true) :
    Raised (d.raiseR page src) page src := by
  unfold Dev.raiseR
  have hr := d.raise0_raised (src := src) h
  rw [if_pos h]
  split
  · exact (Dev.trigger_quiet _ _).2.2 _ _ hr
  · exact hr

theorem Dev.reproduce_quiet (d : Dev) (r : RecRec) : Quiet d (d.reproduce r) :=
  Quiet.ite _ (fun _ => Quiet.of_regs rfl fun _ => rfl) fun _ => Quiet.refl d

theorem Dev.emit_quiet (d : Dev) (r : RecRec) : Quiet d (d.emit r) :=
  Quiet.trans (Quiet.ite _ (fun _ => (d.emit0_quiet r).trans (Dev.raiseR_quiet _ _ _)) fun _ => d.emit0_quiet r)
    (Dev.reproduce_quiet _ r)

theorem Dev.emitProt_quiet (d : Dev) (r : RecRec) : Quiet d (d.emitProt r) :=
  Quiet.ite _ (fun _ => Dev.emit_quiet d r) fun _ => Quiet.refl d

/-! ### Messages and notifications -/

theorem Dev.setMbx_quiet (d : Dev) (c : Nat) (q : MbxSt) : Quiet d (d.setMbx c q) := Quiet.of_regs rfl fun _ => rfl

theorem Dev.setGar_quiet (d : Dev) (c : Nat) (g : GarSt) : Quiet d (d.setGar c g) := Quiet.of_regs rfl fun _ => rfl

theorem Dev.mbxRecord_quiet (d : Dev) (c side : Nat) (w : Word) : Quiet d (d.mbxRecord c side w) :=
  Quiet.ite _ (fun _ => Dev.emit_quiet d _) fun _ => Quiet.refl d

theorem Dev.setCyc_quiet (d : Dev) (v : CycSt) : Quiet d (d.setCyc v) := Quiet.of_regs rfl fun _ => rfl

theorem Dev.mbxSend_quiet (d : Dev) (c side : Nat) (w : Word) : Quiet d (d.mbxSend c side w) := by
  unfold Dev.mbxSend
  have r := d.mbxRecord_quiet c side w
  generalize d.mbxRecord c side w = e at r ⊢
  have h := fun v => r.trans (e.setCyc_quiet v)
  dsimp only
  split
  · exact (h _).trans ((Dev.setMbx_quiet (e.setCyc _) _ _).trans ((Quiet.orReg _ _ (by decide)).trans (Dev.raiseR_quiet _ _ _)))
  · split
    · exact (h _).trans ((Dev.setMbx_quiet (e.setCyc _) _ _).trans (Dev.raiseR_quiet _ _ _))
    · exact (h _).trans (Dev.setMbx_quiet (e.setCyc _) _ _)

theorem Dev.mbxSendAll_quiet (ws : List Word) (d : Dev) (c side : Nat) : Quiet d (d.mbxSendAll c side ws) := by
  induction ws generalizing d with
  | nil => exact Quiet.refl d
  | cons w ws ih => exact (Dev.mbxSend_quiet d c side w).trans (ih _)

theorem Dev.notifyOn_quiet (d : Dev) (src arg0 c : Nat) : Quiet d (d.notifyOn src arg0 c) := by
  unfold Dev.notifyOn
  refine Quiet.ite _ (fun _ => Quiet.refl d) fun _ => Quiet.ite _ (fun _ => ?_) fun _ => ?_
  · exact (Dev.setGar_quiet _ _ _).trans (Dev.raiseR_quiet _ _ _)
  · exact (Dev.setGar_quiet _ _ _).trans (Dev.mbxSendAll_quiet _ _ _ _)

theorem quiet_foldl {α : Type} (l : List α) (f : Dev → α → Dev) (h : ∀ d x, Quiet d (f d x)) (d : Dev) :
    Quiet d (l.foldl f d) := by
  induction l generalizing d with
  | nil => exact Quiet.refl d
  | cons x l ih => exact (h d x).trans (ih _)

/-- A raising, whole: nothing changes but by the delivery of events, records and messages (R476, R477). -/
theorem Dev.raiseN_quiet (d : Dev) (page src arg0 : Nat) : Quiet d (d.raiseN page src arg0) := by
  unfold Dev.raiseN
  refine Quiet.ite _ (fun _ => ?_) fun _ => Quiet.refl d
  exact (Dev.raiseR_quiet d page src).trans (quiet_foldl _ _ (fun e c => Dev.notifyOn_quiet e src arg0 c) _)

/-- A raising, whole: its raw bit is set, in a page that the member has. -/
theorem Dev.raiseN_raised (d : Dev) {page src : Nat} (arg0 : Nat) (h : pagePresent d.member page = true) :
    Raised (d.raiseN page src arg0) page src := by
  unfold Dev.raiseN
  rw [if_pos h]
  exact (quiet_foldl _ _ (fun e c => Dev.notifyOn_quiet e src arg0 c) _).2.2 _ _ (d.raiseR_raised h)

theorem Dev.raise_quiet (d : Dev) (page src : Nat) : Quiet d (d.raise page src) := d.raiseN_quiet page src 0xFF

theorem Dev.raise_raised (d : Dev) {page src : Nat} (h : pagePresent d.member page = true) : Raised (d.raise page src) page src :=
  d.raiseN_raised 0xFF h

theorem Dev.raiseIf_quiet (d : Dev) (c : Bool) (page src : Nat) : Quiet d (d.raiseIf c page src) :=
  Quiet.ite _ (fun _ => d.raise_quiet page src) fun _ => Quiet.refl d

theorem Dev.raiseNIf_quiet (d : Dev) (c : Bool) (page src arg0 : Nat) : Quiet d (d.raiseNIf c page src arg0) :=
  Quiet.ite _ (fun _ => d.raiseN_quiet page src arg0) fun _ => Quiet.refl d

/-! ### What stands under the relation -/

variable {d e : Dev}

theorem Quiet.reg (h : Quiet d e) {a : Nat} (ha : eventReg a = false) : e.reg a = d.reg a := h.2.1 a ha

theorem Quiet.get (h : Quiet d e) {a : Nat} (ha : eventReg a = false) (f : RField) : e.get a f = d.get a f :=
  Dev.get_of_reg (h.reg ha) f

theorem Quiet.member (h : Quiet d e) : e.member = d.member := (congrArg Dev.member h.1 : e.calm.member = d.calm.member)
theorem Quiet.gtc (h : Quiet d e) : e.gtc = d.gtc := (congrArg Dev.gtc h.1 : e.calm.gtc = d.calm.gtc)
theorem Quiet.devState (h : Quiet d e) : e.devState = d.devState := h.get (by decide) _

end Sys2Proof.Machine
end

