-- ==== Sys2Proof/Laws/Run.lean ====
section
/-! SUPPORT. How a command's meaning runs: what `onDev`, `onPart`, `onLive` and `onState` answer in and out of RESET, in and out of a
replay. -/

namespace Sys2Proof.Machine

theorem Dev.live_up {s : State} (h : s.Up) (f : Dev → Dev) : s.dev.live f = f s.dev := by
  have : (s.dev.devState == DS.RESET) = false := by simpa [State.Up] using h
  simp [Dev.live, this]

theorem Dev.live_reset {s : State} (h : ¬s.Up) (f : Dev → Dev) : s.dev.live f = s.dev := by
  have : (s.dev.devState == DS.RESET) = true := by simpa [State.Up] using h
  simp [Dev.live, this]

theorem Dev.onRt_live {d : Dev} (h : d.replaying = false) (f : Dev → Dev) : d.onRt f = f d := by simp [Dev.onRt, h]

variable {s : State} {f : Dev → Dev} {P : Dev → Prop}

theorem onDev_up (h : s.Up) : onDev f s = .next (s.withDev (f s.dev)) := by rw [onDev, Dev.live_up h]; rfl
theorem onDev_reset (h : ¬s.Up) : onDev f s = .next s := by rw [onDev, Dev.live_reset h]

theorem onPart_live (h : s.Live) : onPart f s = .next (s.withDev (f s.dev)) := by
  rw [onPart, Dev.live_up h.1, Dev.onRt_live h.2]; rfl
theorem onPart_reset (h : ¬s.Up) : onPart f s = .next s := by rw [onPart, Dev.live_reset h]

theorem onLive_live (h : s.Live) : onLive f s = .next (s.withDev (f s.dev)) := by
  rw [onLive, Dev.live_up h.1, h.2]; rfl
theorem onLive_reset (h : ¬s.Up) : onLive f s = .next s := by rw [onLive, Dev.live_reset h]

theorem onState_up (h : s.Up) (g : State → State) : onState g s = .next (g s) := by
  have : (s.dev.devState == DS.RESET) = false := by simpa [State.Up] using h
  simp [onState, this]
theorem onState_reset (h : ¬s.Up) (g : State → State) : onState g s = .next s := by
  have : (s.dev.devState == DS.RESET) = true := by simpa [State.Up] using h
  simp [onState, this]

theorem DevNext.onDev (h : s.Up) (p : P (f s.dev)) : DevNext (onDev f s) s P := ⟨_, onDev_up h, p⟩
theorem DevNext.onPart (h : s.Live) (p : P (f s.dev)) : DevNext (onPart f s) s P := ⟨_, onPart_live h, p⟩
theorem DevNext.onLive (h : s.Live) (p : P (f s.dev)) : DevNext (onLive f s) s P := ⟨_, onLive_live h, p⟩

/-! ### A register write at an address, taken to its block -/

/-- Outside a replay a write is the block's own (R464). -/
theorem Dev.pWrite_live {d : Dev} (h : d.replaying = false) {a : Nat} {b : Block} {i : Nat}
    (hp : pageInfo (pageOf a) = some (b, i)) (mid : Nat) (w : Word) : d.pWrite mid a w = d.pWriteIn mid a w := by
  simp [Dev.pWrite, hp, Dev.onRt_live h]

/-- A write of a present register that is no input of the engines (R452). -/
theorem Dev.pWriteIn_block {d : Dev} {a : Nat} {b : Block} {i : Nat} (hp : pageInfo (pageOf a) = some (b, i))
    (hb : blockPresent d.member b i = true) (ha : absentReg d.member b i (offOf a) = false) (ho : 0x40 ≤ offOf a)
    (he : engineInput b (offOf a) = false) (mid : Nat) (w : Word) :
    d.pWriteIn mid a w = d.routeWrite mid b i (offOf a) a w := by
  have h8 : offOf a ≠ 8 := by omega
  have h40 : ¬offOf a < 0x40 := by omega
  simp [Dev.pWriteIn, hp, hb, ha, he, h8, h40]

/-- A write of a present register, up to the record of an engine's input. -/
theorem Dev.pWriteIn_quiet {d : Dev} {a : Nat} {b : Block} {i : Nat} (hp : pageInfo (pageOf a) = some (b, i))
    (hb : blockPresent d.member b i = true) (ha : absentReg d.member b i (offOf a) = false) (ho : 0x40 ≤ offOf a)
    (mid : Nat) (w : Word) : Quiet (d.routeWrite mid b i (offOf a) a w) (d.pWriteIn mid a w) := by
  have h8 : offOf a ≠ 8 := by omega
  have h40 : ¬offOf a < 0x40 := by omega
  simp only [Dev.pWriteIn, hp, hb, ha, h8, h40, Bool.not_true, Bool.or_self, Bool.false_eq_true, if_false]
  exact Quiet.ite _ (fun _ => Dev.emit_quiet _ _) fun _ => Quiet.refl _

/-- The header of a present page has no absent register. -/
theorem absentReg_header (m : Member) (b : Block) (i : Nat) {off : Nat} (h : off < 0x40) : absentReg m b i off = false := by
  cases b <;> simp [absentReg] <;> omega

/-- A write of a header register but PG_CTRL. -/
theorem Dev.pWriteIn_header {d : Dev} {a : Nat} {b : Block} {i : Nat} (hp : pageInfo (pageOf a) = some (b, i))
    (hb : blockPresent d.member b i = true) (ho : offOf a < 0x40) (h8 : offOf a ≠ 8) (mid : Nat) (w : Word) :
    Quiet (d.headerWrite mid b (pageOf a) (offOf a) w) (d.pWriteIn mid a w) := by
  simp only [Dev.pWriteIn, hp, hb, absentReg_header _ b i ho, h8, ho, Bool.not_true, Bool.or_self, Bool.false_eq_true, if_false,
    if_true]
  exact Quiet.ite _ (fun _ => Dev.emit_quiet _ _) fun _ => Quiet.refl _

/-- A write of PG_CTRL. -/
theorem Dev.pWriteIn_ctrl {d : Dev} {a : Nat} {b : Block} {i : Nat} (hp : pageInfo (pageOf a) = some (b, i))
    (hb : blockPresent d.member b i = true) (h8 : offOf a = 8) (mid : Nat) (w : Word) :
    Quiet (d.pgCtrlWrite mid b i (pageOf a) w) (d.pWriteIn mid a w) := by
  simp only [Dev.pWriteIn, hp, hb, absentReg_header _ b i (show 8 < 0x40 by decide), h8, Bool.not_true, Bool.or_self,
    Bool.false_eq_true, if_false, if_true]
  exact Quiet.ite _ (fun _ => Dev.emit_quiet _ _) fun _ => Quiet.refl _

/-- Page and offset of an address that is a page's base and an offset. -/
theorem pageOf_base {page off : Nat} (hp : page < 0x200) (ho : off < 0x1000) : pageOf (pageBase page + off) = page := by
  simp only [pageOf, pageBase]; omega

theorem offOf_base {page off : Nat} (ho : off < 0x1000) : offOf (pageBase page + off) = off := by
  simp only [offOf, pageBase]; omega

/-- A page that the map assigns lies in the register space (R45, R46). -/
theorem pageInfo_lt {page : Nat} {x : Block × Nat} (h : pageInfo page = some x) : page < 0x200 := by
  by_contra hn
  have : pageInfo page = none := by
    simp only [pageInfo, pageMap, List.cons_append, List.nil_append, pageFind]
    repeat rw [if_neg (by omega)]
  simp [this] at h

/-! ### Congruence of the relation with further changes -/

theorem Quiet.congr_setReg {d e : Dev} (h : Quiet d e) {a : Nat} (ha : eventReg a = false) (w : Word) :
    Quiet (d.setReg a w) (e.setReg a w) := by
  have hm : offOf a ≠ 0x10 := by intro x; simp [eventReg, x] at ha
  refine ⟨?_, fun b hb => ?_, fun p i x => ?_⟩
  · rw [Dev.setReg, Dev.setReg]; exact h.1
  · rw [Dev.reg_setReg, Dev.reg_setReg, h.2.1 b hb]
  · have hp : R.PG_EVT_RAW p ≠ a := by rintro rfl; exact hm (by simp only [offOf, R.PG_EVT_RAW, pageBase]; omega)
    rw [Dev.reg_setReg_ne _ _ hp] at x ⊢; exact h.2.2 p i x

theorem Quiet.congr_put {d e : Dev} (h : Quiet d e) {a : Nat} (ha : eventReg a = false) (f : RField) (v : Nat) :
    Quiet (d.put a f v) (e.put a f v) := by
  rw [Dev.put, Dev.put, h.reg ha]; exact h.congr_setReg ha _

theorem Quiet.congr_putB {d e : Dev} (h : Quiet d e) {a : Nat} (ha : eventReg a = false) (f : RField) (c : Bool) :
    Quiet (d.putB a f c) (e.putB a f c) := h.congr_put ha f _

end Sys2Proof.Machine
end

