-- ==== Sys2Proof/Laws/Memory.lean ====
section
/-! SUPPORT. What the shared operations on memories change: a read of LPDDR4X with the errors it finds, a block placed in the ring, the two
copies of the flash; each keeps the canonical form. -/

namespace Sys2Proof.Machine

theorem Mems.wf_iff (m : Mems) : m.wf = true ↔
    Memory.wf m.win = true ∧ Memory.wf m.ddr = true ∧ Memory.wf m.chip = true ∧ Memory.wf m.ret = true ∧ Memory.wf m.flash = true := by
  simp [Mems.wf, and_assoc]

theorem State.Inv.withDdr {s : State} (h : s.Inv) {m : Memory} (hm : Memory.wf m = true) (d : Dev) :
    ({ s with dev := d, mems := { s.mems with ddr := m } } : State).Inv := by
  have := (Mems.wf_iff s.mems).1 h
  exact (Mems.wf_iff _).2 ⟨this.1, hm, this.2.2⟩

/-- A held supervisor changes nothing; a running one does its part. -/
theorem Dev.byS0_held {d : Dev} (h : d.flag R.RST_DOM F.RST_DOM_S0_HELD = true) (f : Dev → Dev) : d.byS0 f = d := by simp [Dev.byS0, h]
theorem Dev.byS0_runs {d : Dev} (h : d.flag R.RST_DOM F.RST_DOM_S0_HELD = false) (f : Dev → Dev) : d.byS0 f = f d := by simp [Dev.byS0, h]

/-- An error found in LPDDR4X: of the memories that one alone changes, where the block cannot be corrected; the queue stands. -/
theorem State.ddrError_mems (s : State) (b : Nat) (two : Bool) : (s.ddrError b two).mems = { s.mems with
    ddr := if two then s.mems.ddr.writeBytes (64 * b) (List.replicate 64 0) else s.mems.ddr } := by
  unfold State.ddrError
  cases two <;> simp

theorem State.ddrError_pending (s : State) (b : Nat) (two : Bool) : (s.ddrError b two).pending = s.pending := by
  unfold State.ddrError
  cases two <;> simp

theorem State.ddrError_inv {s : State} (h : s.Inv) (b : Nat) (two : Bool) : (s.ddrError b two).Inv := by
  have w := (Mems.wf_iff s.mems).1 h
  rw [State.Inv, State.ddrError_mems, Mems.wf_iff]
  refine ⟨w.1, ?_, w.2.2⟩
  generalize List.replicate 64 (0 : Byte) = l
  change Memory.wf (if two then s.mems.ddr.writeBytes (64 * b) l else s.mems.ddr) = true
  split
  · exact Memory.wf_writeBytes _ _ w.2.1
  · exact w.2.1

/-- Without memory, or without its check bits, a read of LPDDR4X finds nothing. -/
theorem State.ddrRead_off {s : State} (h : (s.dev.flag R.DDR_STAT F.DDR_STAT_READY && s.dev.flag R.DDR_CFG F.DDR_CFG_ECC_EN) = false)
    (a n : Nat) : s.ddrRead a n = s := by
  unfold State.ddrRead; rw [h]; rfl

theorem State.foldErrors_inv (l : List (Nat × Bool)) {s : State} (h : s.Inv) :
    (l.foldl (fun t u => t.ddrError u.1 u.2) s).Inv := by
  induction l generalizing s with
  | nil => exact h
  | cons u r ih => exact ih (State.ddrError_inv h u.1 u.2)

theorem State.ddrRead_inv {s : State} (h : s.Inv) (a n : Nat) : (s.ddrRead a n).Inv := by
  unfold State.ddrRead
  split
  · exact h
  · exact State.foldErrors_inv _ h

theorem State.ringFix_inv {s : State} (h : s.Inv) (n : Nat) : (s.ringFix n).Inv := by
  unfold State.ringFix
  split
  · exact h
  · exact State.ddrRead_inv h _ _

theorem State.ringRead_inv {s : State} (h : s.Inv) : s.ringRead.Inv := by
  unfold State.ringRead
  split
  · exact h
  · exact State.ddrRead_inv h _ _

/-- A block placed in the ring: the ring's memory alone, in canonical form. -/
theorem State.ringPlace_inv {s : State} (h : s.Inv) (n : Nat) (ws : List Word) : (s.ringPlace n ws).Inv := by
  have w := (Mems.wf_iff s.mems).1 h
  unfold State.ringPlace
  simp only
  split
  · exact (Mems.wf_iff _).2 ⟨w.1, w.2.1, Memory.wf_writeWords _ _ w.2.2.1, w.2.2.2⟩
  · exact h.withDdr (Memory.wf_writeWords _ _ w.2.1) _

/-- The two flash copies of a block, in whichever order. -/
theorem flashCopies_wf {m : Memory} (h : Memory.wf m = true) (ws : List Word) : Memory.wf (flashCopies m ws) = true := by
  unfold flashCopies
  split <;> exact Memory.wf_writeWords _ _ (Memory.wf_writeWords _ _ h)

end Sys2Proof.Machine
end

