-- ==== Sys2Proof/WellFormed.lean ====
section
/-! DEFINITION. Which commands are well formed: every number within the range its kind has in the largest member (R47, R54, R513). The
meanings do not rest on it: a unit that the device does not have never acts (R7). -/

namespace Sys2Proof

/-- A bus access has 1, 2 or 4 bytes here (R22, R419). -/
def widthOk (n : Nat) : Bool := n == 1 || n == 2 || n == 4

/-- Every number of a list below a bound. -/
def below (l : List (Nat × Nat)) : Bool := l.all fun p => decide (p.1 < p.2)

/-- Well-formed commands. -/
def Instr.wf : Instr → Bool
  | .registerWrite mid addr width _ => below [(mid, 16), (addr, 2 ^ 32)] && widthOk width
  | .pageClaim mid page => below [(mid, 16), (page, 512)]
  | .pageRelease mid page => below [(mid, 16), (page, 512)]
  | .unitClaim mid addr => below [(mid, 16), (addr, 2 ^ 32)]
  | .unitRelease mid addr => below [(mid, 16), (addr, 2 ^ 32)]
  | .keyFirstWord mid page => below [(mid, 16), (page, 512)]
  | .keySecondWord mid page => below [(mid, 16), (page, 512)]
  | .keyClose mid page => below [(mid, 16), (page, 512)]
  | .keySequenceExpiry page => below [(page, 512)]
  | .keyWindowExpiry page => below [(page, 512)]
  | .lowWordRead mid addr => below [(mid, 16), (addr.addr, 2 ^ 32)] && (widthOk addr.width || addr.width == 8 || (mid == 4 && decide (0 < addr.width) && decide (addr.width ≤ 512)))
  | .trkAngRead mid trk => below [(mid, 16), (trk, 24)]
  | .accRes0Read mid acc => below [(mid, 16), (acc, 384)]
  | .mmxMinRead mid mmx => below [(mid, 16), (mmx, 128)]
  | .ctxOut0Read mid ctx => below [(mid, 16), (ctx, 192)]
  | .posAngRead mid pos _ => below [(mid, 16), (pos, 12)]
  | .tmTqRead mid entry => below [(mid, 16), (entry, 20)]
  | .sfxFrameRead mid src => below [(mid, 16), (src, 16)]
  | .evtLastRead mid => below [(mid, 16)]
  | .pgEvtClr mid page _ => below [(mid, 16), (page, 512)]
  | .evtOutPulseEnd pin => below [(pin, 4)]
  | .linkFrameRx _ => true
  | .linkHeartbeatTimeout => true
  | .channelClockStop _ => true
  | .supplyFault _ => true
  | .clkXchk _ => true
  | .pllUnlock _ => true
  | .enaReadback grp _ => below [(grp, 20)]
  | .stoInputActive _ => true
  | .stoInputRelease _ => true
  | .tlRateWrite mid _ => below [(mid, 16)]
  | .vtOfsHiWrite mid _ => below [(mid, 16)]
  | .syncMessage _ _ => true
  | .syncTimeout => true
  | .trackUpdate trk => below [(trk, 24)]
  | .trkStale trk => below [(trk, 24)]
  | .trkAngWrite mid trk _ => below [(mid, 16), (trk, 24)]
  | .trkSpdWrite mid trk _ => below [(mid, 16), (trk, 24)]
  | .trkCfgWrite mid trk _ => below [(mid, 16), (trk, 24)]
  | .slotTrigWrite mid slot _ => below [(mid, 16), (slot, 1024)]
  | .slotArgWrite mid slot _ => below [(mid, 16), (slot, 1024)]
  | .absoluteSlotDecide slot => below [(slot, 1024)]
  | .periodicSlotDecide slot => below [(slot, 1024)]
  | .carrierSlotDecide slot => below [(slot, 1024)]
  | .angleSlotDecide slot => below [(slot, 1024)]
  | .angleSlotRearm slot => below [(slot, 1024)]
  | .accOpen slot => below [(slot, 1024)]
  | .accClose slot => below [(slot, 1024)]
  | .accSwap slot => below [(slot, 1024)]
  | .ctxRun slot => below [(slot, 1024)]
  | .ctxSpec slot => below [(slot, 1024)]
  | .posReq slot => below [(slot, 1024)]
  | .excPhase slot => below [(slot, 1024)]
  | .blankOn slot => below [(slot, 1024)]
  | .blankOff slot => below [(slot, 1024)]
  | .owOn slot => below [(slot, 1024)]
  | .owOff slot => below [(slot, 1024)]
  | .recMark slot => below [(slot, 1024)]
  | .slotArm slot => below [(slot, 1024)]
  | .evtPulse slot => below [(slot, 1024)]
  | .slotDisarm slot => below [(slot, 1024)]
  | .adaSample slice raw rawInc => below [(slice, 48), (raw, 16384), (rawInc, 16384)]
  | .adaResultArrival slice => below [(slice, 48)]
  | .adaSeqWrite mid slice _ => below [(mid, 16), (slice, 48)]
  | .bootSliceCalibrationDone _ => true
  | .sliceCalibrationDone phys _ _ => below [(phys, 52)]
  | .rotationStep => true
  | .overlapDecision => true
  | .calStale slice => below [(slice, 48)]
  | .owEvaluation input => below [(input, 96)]
  | .sdcFault clk => below [(clk, 12)]
  | .sinc3Output sdd _ => below [(sdd, 48)]
  | .adbCopyArrival sdd => below [(sdd, 48)]
  | .sdStuck sdd => below [(sdd, 48)]
  | .fastSinc3Output sdd _ => below [(sdd, 48)]
  | .accCommit acc => below [(acc, 384)]
  | .accConfigWrite mid acc word _ => below [(mid, 16), (acc, 384), (word, 4)]
  | .mmxClear mid mmx => below [(mid, 16), (mmx, 128)]
  | .cmpTrip cmp _ => below [(cmp, 72)]
  | .cmpRelease cmp _ => below [(cmp, 72)]
  | .cmpStart cmp => below [(cmp, 72)]
  | .cmpStartDone cmp => below [(cmp, 72)]
  | .cmpStartLate cmp => below [(cmp, 72)]
  | .cmpStrobe cmp _ => below [(cmp, 72)]
  | .cmpSettingApplied cmp => below [(cmp, 72)]
  | .edgeBlankEnd cmp => below [(cmp, 72)]
  | .cmpBlankCap cmp => below [(cmp, 72)]
  | .cmpClear mid cmp => below [(mid, 16), (cmp, 72)]
  | .posEdgeAccept pos _ _ _ => below [(pos, 12)]
  | .updMinExpiry pos => below [(pos, 12)]
  | .decayUpdate pos => below [(pos, 12)]
  | .zeroSpd pos => below [(pos, 12)]
  | .uncClr mid pos => below [(mid, 16), (pos, 12)]
  | .ssiWord pos _ => below [(pos, 12)]
  | .bissWord pos _ _ _ => below [(pos, 12)]
  | .posTimeout pos => below [(pos, 12)]
  | .resolverWord pos => below [(pos, 12)]
  | .excFault exc _ => below [(exc, 4)]
  | .shadowEdgeAccept shd _ _ _ => below [(shd, 12)]
  | .shadowExcLoss shd => below [(shd, 12)]
  | .emuStep out => below [(out, 4)]
  | .passStart eng => below [(eng, 8)]
  | .ctxWaitTimeout ctx => below [(ctx, 192)]
  | .ctxDrop ctx => below [(ctx, 192)]
  | .passCommit ctx => below [(ctx, 192)]
  | .ctxEnable mid ctx _ => below [(mid, 16), (ctx, 192)]
  | .ctxDisable mid ctx _ => below [(mid, 16), (ctx, 192)]
  | .ctxScrub read => below (read.ups.flatMap fun u => [(u.ctx, 192), (u.word, 188)])
  | .specStage ctx => below [(ctx, 192)]
  | .recomputeStart eng => below [(eng, 8)]
  | .recomputeCommit ctx => below [(ctx, 192)]
  | .specSuspClear mid ctx => below [(mid, 16), (ctx, 192)]
  | .pwmGroupEnable mid grp => below [(mid, 16), (grp, 20)]
  | .pwmGroupStart grp => below [(grp, 20)]
  | .pwmGroupDisable mid grp => below [(mid, 16), (grp, 20)]
  | .captureTick grp => below [(grp, 20)]
  | .loadPoint grp => below [(grp, 20)]
  | .pwtCommit mid grp => below [(mid, 16), (grp, 20)]
  | .legForceWrite mid grp leg _ => below [(mid, 16), (grp, 20), (leg, 3)]
  | .forceImmediate grp leg => below [(grp, 20), (leg, 3)]
  | .dlCalibrationDone out line _ => below [(out, 72), (line, 2)]
  | .dlCalibrationTimeout out line => below [(out, 72), (line, 2)]
  | .drdyReady grp => below [(grp, 20)]
  | .drdyTout grp => below [(grp, 20)]
  | .drdyLost grp => below [(grp, 20)]
  | .enaChkFail grp => below [(grp, 20)]
  | .legFlt grp leg _ => below [(grp, 20), (leg, 3)]
  | .legShoot grp leg => below [(grp, 20), (leg, 3)]
  | .legOutRb grp leg => below [(grp, 20), (leg, 3)]
  | .legClear mid grp mask => below [(mid, 16), (grp, 20), (mask, 8)]
  | .legSoftRelease mid grp mask => below [(mid, 16), (grp, 20), (mask, 8)]
  | .commStateWrite mid aux _ => below [(mid, 16), (aux, 8)]
  | .bstUv aux leg => below [(aux, 8), (leg, 3)]
  | .bstRefreshSample aux leg _ => below [(aux, 8), (leg, 3)]
  | .vgdUv => true
  | .vgdRecover _ => true
  | .nop ch => below [(ch, 32)]
  | .version ch => below [(ch, 32)]
  | .devState ch => below [(ch, 32)]
  | .notify ch => below [(ch, 32)]
  | .machDefine ch => below [(ch, 32)]
  | .machClaim ch => below [(ch, 32)]
  | .cfgWrite ch => below [(ch, 32)]
  | .machStart ch => below [(ch, 32)]
  | .machCmd ch => below [(ch, 32)]
  | .machStop ch => below [(ch, 32)]
  | .machSto ch => below [(ch, 32)]
  | .machDischarge ch => below [(ch, 32)]
  | .machClear ch => below [(ch, 32)]
  | .machStatus ch => below [(ch, 32)]
  | .spbWrite ch => below [(ch, 32)]
  | .ringRejoin ch => below [(ch, 32)]
  | .brakeP ch => below [(ch, 32)]
  | .safeAck ch => below [(ch, 32)]
  | .safeSto ch => below [(ch, 32)]
  | .safeSs1 ch => below [(ch, 32)]
  | .outM ch => below [(ch, 32)]
  | .ringReq ch => below [(ch, 32)]
  | .machEvaluate mach => below [(mach, 20)]
  | .armEnablesHigh mach => below [(mach, 20)]
  | .machArmFail mach => below [(mach, 20)]
  | .catchComplete mach => below [(mach, 20)]
  | .alignTimeout mach => below [(mach, 20)]
  | .startWindowExpiry mach => below [(mach, 20)]
  | .retryWaitExpiry mach => below [(mach, 20)]
  | .stopSpeedTimer mach => below [(mach, 20)]
  | .dischargeLate mach => below [(mach, 20)]
  | .tmonEvaluation entry => below [(entry, 20)]
  | .safeReqSs1Write mid _ => below [(mid, 16)]
  | .safeReqStoWrite mid _ => below [(mid, 16)]
  | .safeAckWrite mid _ => below [(mid, 16)]
  | .ss1Fail entry => below [(entry, 20)]
  | .ascReleaseTimer entry => below [(entry, 20)]
  | .disMLate entry => below [(entry, 20)]
  | .spbRecheck => true
  | .safeConfirmWrite mid _ => below [(mid, 16)]
  | .tempHigh sensor _ => below [(sensor, 4)]
  | .supplyWarn _ => true
  | .lockstep _ => true
  | .sramUncorr _ => true
  | .sramCorr _ => true
  | .ringInsert _ => true
  | .bypassFault _ => true
  | .ringLink _ _ => true
  | .frameSend => true
  | .copyReceive _ frame => frame.words.length == 16
  | .pairTimeout src => below [(src, 16)]
  | .ringSrcLost src => below [(src, 16)]
  | .cycleBoundary => true
  | .epochCommit => true
  | .epochFail => true
  | .mbxRightsWrite mid _ => below [(mid, 16)]
  | .mbxBind mid ch _ => below [(mid, 16), (ch, 32)]
  | .mbxUnbind mid ch => below [(mid, 16), (ch, 32)]
  | .mbxSend mid ch _ => below [(mid, 16), (ch, 32)]
  | .mbxReceive mid ch => below [(mid, 16), (ch, 32)]
  | .mbxFlush mid ch => below [(mid, 16), (ch, 32)]
  | .lockAcquire mid lock => below [(mid, 16), (lock, 64)]
  | .lockRelease mid lock => below [(mid, 16), (lock, 64)]
  | .lockForced mid lock => below [(mid, 16), (lock, 64)]
  | .winTake mid win owner => below [(mid, 16), (win, 16), (owner, 16)]
  | .winGiven mid win dest => below [(mid, 16), (win, 16), (dest, 16)]
  | .winRelease mid win => below [(mid, 16), (win, 16)]
  | .winForced mid win => below [(mid, 16), (win, 16)]
  | .winDataWrite mid addr bytes => below [(mid, 16), (addr, 2 ^ 32)] && decide (bytes.length ≤ 4096)
  | .canFrameRx can _ _ _ => below [(can, 8)]
  | .canFrameTx can _ => below [(can, 8)]
  | .canRecover mid can => below [(mid, 16), (can, 8)]
  | .canRecoveryDone can => below [(can, 8)]
  | .ethFrameRx eth _ => below [(eth, 2)]
  | .ethTxdWrite mid eth _ => below [(mid, 16), (eth, 2)]
  | .ethRxdRead mid eth => below [(mid, 16), (eth, 2)]
  | .ethRxpop mid eth => below [(mid, 16), (eth, 2)]
  | .pdelayRequest _ => true
  | .ethLink eth _ _ => below [(eth, 2)]
  | .pcieLink _ speed lanes _ => below [(speed, 4), (lanes.width, 3), (lanes.payload, 257)]
  | .pcieFunctionReset => true
  | .rd frame => decide (1 ≤ frame.length)
  | .wr frame => decide (1 ≤ frame.length)
  | .rdFix frame => decide (1 ≤ frame.length)
  | .wrFix frame => decide (1 ≤ frame.length)
  | .key frame => decide (1 ≤ frame.length)
  | .spiFrameAbort => true
  | .ddrTrainingDone _ _ => true
  | .ddrPatrolScrub read => read.ups.all fun u => below [(u.1, 2 ^ 32)]
  | .recStart mid => below [(mid, 16)]
  | .recStop mid => below [(mid, 16)]
  | .recHostTrigger mid => below [(mid, 16)]
  | .recRearm mid => below [(mid, 16)]
  | .recFreeze mid => below [(mid, 16)]
  | .recFrozen => true
  | .blockComplete => true
  | .anchorTimer => true
  | .recExport mid _ => below [(mid, 16)]
  | .recExpDone => true
  | .rplLoad mid _ => below [(mid, 16)]
  | .rplStart mid => below [(mid, 16)]
  | .replayRecord => true
  | .rplAbort mid => below [(mid, 16)]
  | .dumpRetentionDone => true
  | .dumpExtDone => true
  | .dmpExport mid _ => below [(mid, 16)]
  | .dmpClear mid => below [(mid, 16)]
  | .powerOnReset => true
  | .supplyReset => true
  | .resetPin => true
  | .rstSysRstWrite mid => below [(mid, 16)]
  | .dbgSysRstWrite mid => below [(mid, 16)]
  | .warmReset => true
  | .resetRelease => true
  | .pllLocked => true
  | .imageVerified slot _ _ => below [(slot, 2)]
  | .bootComplete => true
  | .lifecycleAdvance mid _ => below [(mid, 16)]
  | .debugHalt mid _ => below [(mid, 16)]
  | .dbgAttach _ => true
  | .lateRailArrival _ => true
  | .switchEdge grp leg _ => below [(grp, 20), (leg, 3)]
  | .drdyAcceptedLow grp => below [(grp, 20)]
  | .bstUvClear aux leg _ => below [(aux, 8), (leg, 3)]
  | .aDieSupplyRecovery => true
  | .vgdOvervoltage _ => true
  | .badCode ch => below [(ch, 32)]
  | .spiUnknownCmd frame => decide (1 ≤ frame.length)
  | .unsupervisedCheck => true
  | .ringStatusPoll => true

end Sys2Proof
end

