-- ==== Sys2Proof/Tests/Slice0.lean ====
section
/-! SUPPORT. The model's own tests. For every statement of Certificates/Slice0/Obligations.lean with hypotheses, the theorem
`witness_<its name>` shows concrete states and operands that meet them, clause by clause, at the bounds where clauses meet; `test_…` are
small checks of values that the spec gives; `refused_…` show that WellFormed refuses an ill-formed term of each check. -/

set_option maxRecDepth 20000

namespace Sys2Proof.Tests

open Sys2Proof Sys2Proof.Machine

/-- A device in a state at a tick, with what a test puts into it. -/
def dv (st t : Nat) (f : Dev → Dev) : Dev := f { Dev.reset.put R.SYS_STATE F.SYS_STATE_STATE st with gtc := t }

/-- A state with a device. -/
def sv (d : Dev) : State := { State.reset with dev := d }

/-- A state in which the firing of one slot alone is on its way. -/
def turnOf (s : State) (n : Nat) : State :=
  { s with dev := { s.dev with firings := s.dev.firings.filter fun (r : Firing) => r.slot == n } }

/-- A state in CONFIGURE, in READY and in RUN at tick 1000. -/
def sC : State := sv (dv DS.CONFIGURE 1000 id)
def sR : State := sv (dv DS.READY 1000 id)
def sX : State := sv (dv DS.RUN 1000 id)

/-! ### The whole block -/

theorem witness_StepRunsFront :
    ({ sR with pending := [.bootComplete, .pllLocked] } : State).pending = .bootComplete :: [.pllLocked] := rfl

theorem witness_EmptyQueueTicks : (sR.pending = [] ∧ sR.Live) ∧ State.reset.pending = [] ∧ ¬State.reset.Up := by
  unfold State.Live State.Up; decide

theorem witness_ExecEnds : exec .pllLocked State.reset = .next State.reset ∧ ¬State.reset.Up ∧ inRegs 0 = false ∧ inWins 0 = false :=
  ⟨rfl, by unfold State.Up; decide⟩

theorem witness_StepKeepsInv :
    ({ sR with pending := [.bootComplete] } : State).Inv ∧ step { sR with pending := [.bootComplete] } = .next sR :=
  ⟨by unfold State.Inv; decide, rfl⟩

/-! ### The bus -/

/-- The smallest member, with 3 writes to absent units counted, none or two of them in the present bus cycle. -/
def sAbs (n : Nat) : State := sv (dv DS.READY 1000 fun d =>
  { d.setReg R.SYS_ABSENT_CNT 0x80060003 with member := .ehz0102, sys := { d.sys with abs := { cyc := if n = 0 then 0 else d.busCycle, mid := 5, n } } })

/-- An unassigned page, an absent block, the register of an absent instance, absent bits of a shared register, the count itself. -/
theorem witness_AbsentUnits :
    ((sAbs 0).Live ∧ (sAbs 2).Live ∧ inRegs (R.PG_ID 6) = true ∧ pageInfo (pageOf (R.PG_ID 6)) = none) ∧
    (pageInfo 51 = some (.accB, 1) ∧ blockPresent .ehz0102 .accB 1 = false ∧ pageInfo 48 = some (.adaB, 0) ∧
      absentReg .ehz0102 .adaB 0 0x1C0 = true) ∧
    (let a := R.PG_ID 56 + 0x44
     inRegs a = true ∧ a % 4 = 0 ∧ pageInfo (pageOf a) = some (.mmxB, 0) ∧ offOf a = 0x44 ∧ blockPresent .ehz0102 .mmxB 0 = true ∧
      absentReg .ehz0102 .mmxB 0 0x44 = false ∧ (regAt .mmxB 0x44).isSome = true ∧ plainReg .mmxB 0 0x44 = true ∧
      (0xFFFFFFFF : Word) &&& absentBits .ehz0102 .mmxB 0 0x44 ≠ 0) ∧
    (bitOf (0x80000000 : Word) 31 = true ∧ ∀ n ∈ [0, 2], (sAbs n).dev.takenAt Mid.S0 R.SYS_ABSENT_CNT = true ∧
      decide ((sAbs n).dev.sys.abs.cyc = (sAbs n).dev.busCycle) = decide (n = 2)) := by
  unfold State.Live State.Up; decide

/-- Plain registers with a field of each access type, and a reserved offset: EVT_ROUTE, RST_CAUSE, a request of the rings, a group's period. -/
theorem witness_RegisterWrite_plain : ∀ x ∈ [(8, Block.evtB, 0, 0x100, Access.rwc), (4, .rstB, 0, 0x40, .w1c), (170, .sfxB, 0, 0x54, .rwm),
      (128, .pwtB, 0, 0x44, .rw)],
    let a := R.PG_ID x.1 + x.2.2.2.1
    inRegs a = true ∧ a % 4 = 0 ∧ pageInfo (pageOf a) = some (x.2.1, x.2.2.1) ∧ offOf a = x.2.2.2.1 ∧
      blockPresent sC.dev.member x.2.1 x.2.2.1 = true ∧ absentReg sC.dev.member x.2.1 x.2.2.1 x.2.2.2.1 = false ∧ 0x40 ≤ x.2.2.2.1 ∧
      plainReg x.2.1 x.2.2.1 x.2.2.2.1 = true ∧ absentBits sC.dev.member x.2.1 x.2.2.1 x.2.2.2.1 = 0 ∧
      ((regAt x.2.1 x.2.2.2.1).any fun r => r.1.flds.any fun fd => fd.acc == x.2.2.2.2 && !chanMOnly x.2.1 x.2.2.2.1 fd.f) = true ∧
      sC.dev.asS0 Mid.S0 x.2.1 = true ∧ sC.dev.ownOk Mid.S0 (sC.dev.ownAt x.2.1 x.2.2.1 x.1 x.2.2.2.1) = true := by
  decide

theorem witness_RegisterWrite_reserved :
    sC.Live ∧ sR.Live ∧ sC.dev.inConfigure = true ∧ sR.dev.inConfigure = false ∧ plainReg .sysB 0 0x4C = true ∧ regAt .sysB 0x4C = none := by
  unfold State.Live State.Up; decide

/-- S0 may write the page of SYS; S1 may not write that of TL. The first and the last width or alignment refused. -/
theorem witness_RegisterWrite :
    (sR.Live ∧ pageInfo Pg.SYS = some (.sysB, 0) ∧ blockPresent sR.dev.member .sysB 0 = true ∧
      sR.dev.pageFieldOk Mid.S0 .sysB Pg.SYS = true) ∧
    (pageInfo Pg.TL = some (.tlB, 0) ∧ blockPresent sR.dev.member .tlB 0 = true ∧ sR.dev.pageFieldOk Mid.S1 .tlB Pg.TL = false) ∧
    inRegs R.SAFE_ACK = true ∧ (2 ≠ 4 ∨ R.SAFE_ACK % 4 ≠ 0) ∧ inRegs (R.SAFE_ACK + 1) = true ∧ (4 ≠ 4 ∨ (R.SAFE_ACK + 1) % 4 ≠ 0) := by
  unfold State.Live State.Up; decide

/-- CONFIGURE: page 0 of the accumulators is S0's, page 1 the PCIe host's; track 1 is the PCIe host's, track 2 S0's. -/
def sClaims : State := sv (dv DS.CONFIGURE 1000 fun d =>
  (((d.put (R.PG_CTRL (Pg.ACC 0)) F.PG_CTRL_OWNER_MID Mid.S0).put (R.PG_CTRL (Pg.ACC 1)) F.PG_CTRL_OWNER_MID Mid.PCIE).put
    (R.TRK_CLAIM 1) F.CLAIM_OWNER Mid.PCIE).put (R.TRK_CLAIM 2) F.CLAIM_OWNER Mid.S0)

theorem witness_Claims :
    (sClaims.Live ∧ sClaims.dev.inConfigure = true ∧ sClaims.dev.mayClaim Mid.S0 .accB = true ∧ sClaims.dev.mayClaim Mid.S0 .trkB = true) ∧
    (pageInfo (Pg.ACC 2) = some (.accB, 2) ∧ blockPresent sClaims.dev.member .accB 2 = true ∧ sClaims.dev.pageOwner (Pg.ACC 2) = 0xF ∧
      ∀ c ∈ unitClaims sClaims.dev.member .accB 2, sClaims.dev.get c F.CLAIM_OWNER = 0xF ∨ sClaims.dev.get c F.CLAIM_OWNER = Mid.S0) ∧
    (pageInfo (Pg.ACC 0) = some (.accB, 0) ∧ sClaims.dev.pageOwner (Pg.ACC 0) = Mid.S0) ∧
    (pageInfo (Pg.ACC 1) = some (.accB, 1) ∧ sClaims.dev.pageOwner (Pg.ACC 1) ≠ 0xF ∧ sClaims.dev.pageOwner (Pg.ACC 1) ≠ Mid.S0) ∧
    ∀ k ∈ [0, 1, 2], inRegs (R.TRK_CLAIM k) = true ∧ R.TRK_CLAIM k % 4 = 0 ∧ pageInfo (pageOf (R.TRK_CLAIM k)) = some (.trkB, 0) ∧
      claimReg .trkB (offOf (R.TRK_CLAIM k)) = true ∧ absentReg sClaims.dev.member .trkB 0 (offOf (R.TRK_CLAIM k)) = false ∧
      sClaims.dev.get (R.TRK_CLAIM k) F.CLAIM_OWNER = nthD 0 [0xF, Mid.PCIE, Mid.S0] k ∧
      sClaims.dev.pageOwner (claimPage .trkB (pageOf (R.TRK_CLAIM k)) (offOf (R.TRK_CLAIM k))) = 0xF := by
  unfold State.Live State.Up; decide

/-- On page 1 a pending sequence of S0, on page 2 a window of S0; on page 3 both have lapsed by the last tick. Pin 0 of EVT_OUT has ended its
pulses. -/
def sKeys : State := sv (dv DS.READY 200000 fun d =>
  { d with
    keys := [(Pg.CAP, { pend := some (0, 199900) }), (Pg.CLK, { win := some (0, 199900) }),
      (Pg.PWR, { pend := some (0, 199871), win := some (0, 68928) })]
    evt := { d.evt with outR := [(0, 200000)], outS := [(0, 5)] } })

theorem witness_KeysAndEventClears :
    (sKeys.Live ∧ sKeys.dev.mayKey Mid.S0 .sysB = true ∧ pageInfo Pg.SYS = some (.sysB, 0) ∧ pageInfo Pg.CAP = some (.capB, 0) ∧
      pageInfo Pg.CLK = some (.clkB, 0) ∧ sKeys.dev.mayKey Mid.S0 .capB = true ∧ sKeys.dev.mayKey Mid.S0 .clkB = true ∧
      blockPresent sKeys.dev.member .sysB 0 = true ∧ blockPresent sKeys.dev.member .capB 0 = true ∧
      blockPresent sKeys.dev.member .clkB 0 = true) ∧
    (sKeys.dev.keyPend Pg.SYS = none ∧ sKeys.dev.keyOpener Pg.SYS = none) ∧ sKeys.dev.keyPend Pg.CAP = some Mid.S0 ∧
    (sKeys.dev.keyPend Pg.CLK = none ∧ sKeys.dev.keyOpener Pg.CLK = some Mid.S0) ∧
    ((sKeys.dev.keyS Pg.PWR).pend = some (0, 199871) ∧ 199871 + 128 < sKeys.dev.now) ∧
    ((sKeys.dev.keyS Pg.PWR).win = some (0, 68928) ∧ 68928 + 131072 ≤ sKeys.dev.now) ∧
    (sKeys.dev.pageFieldOk Mid.S0 .sysB Pg.SYS = true ∧ engineInput .sysB 0x18 = false ∧
      ∀ r ∈ sKeys.dev.evt.cyc, r.page = Pg.SYS → r.tick / 2 ≠ sKeys.dev.now / 2) ∧
    spGet 0 sKeys.dev.evt.outR 0 ≤ sKeys.dev.gtc ∧ spGet 0 sKeys.dev.evt.outS 0 ≤ sKeys.dev.gtc := by
  unfold State.Live State.Up; decide

/-- The first and the last unit of each kind. -/
theorem witness_LatchingReads :
    sR.Up ∧ 0 < nTracks ∧ 23 < nTracks ∧ 383 < nAcc sR.dev.member ∧ 127 < nMmx sR.dev.member ∧ 191 < nCtx sR.dev.member ∧
    11 < nPos sR.dev.member ∧ 19 < 20 ∧ 15 < 16 ∧ ctxLatched 191 (R.CTX_OUT 191 1) = true ∧ (sR.dev.ctxS 191).bad ++ (sR.dev.ctxS 191).soft = [] := by
  unfold State.Up; decide

/-- S0's latch of GTC_HI holds 3; OUT0 of context 5 fails; a read of a byte and one off alignment. -/
def sLatch : State := sv (dv DS.READY 1000 fun d =>
  { d.latchW Mid.S0 R.TL_GTC_HI 3 with ctx := [(5, { bad := [40] })] })

theorem witness_LatchingReads_more :
    sLatch.Up ∧ sLatch.dev.latched Mid.S0 R.TL_GTC_HI = some 3 ∧ (sLatch.dev.ctxS 5).bad.contains 40 = true ∧
    (inRegs R.TL_GTC_LO = true ∧ 1 ≠ 4) ∧ inRegs (R.TL_GTC_LO + 2) = true ∧ (R.TL_GTC_LO + 2) % 4 ≠ 0 := by
  unfold State.Up; decide

/-! ### The timeline -/

/-- SYNC_EN set; in the second the offset has been written. -/
def sSync : State := sv (dv DS.READY 1000 fun d => (d.putB R.TL_CTRL F.TL_CTRL_SYNC_EN true).putB (R.ETH_STAT 0) F.ETH_STAT_AS_CAP true)
def sSynced : State := { sSync with dev := { sSync.dev with sync := { offWritten := true, inRange := 15 } } }

theorem witness_Synchronisation :
    (sSync.Live ∧ sSync.dev.tlOk Mid.S0 = true ∧ sSync.dev.tlOk Mid.S1 = false) ∧
    (sSync.dev.flag R.TL_CTRL F.TL_CTRL_SYNC_EN = true ∧ -(2 ^ 63) ≤ (5000 : Int) - sSync.dev.gtc ∧ (5000 : Int) - sSync.dev.gtc < 2 ^ 63 ∧
      sSync.dev.sync.offWritten = false) ∧
    (∀ s ∈ [sSync, sSynced], s.dev.syncUsable true 0 = true ∧ s.dev.syncUsable true (-5) = true ∧ s.dev.syncUsable true 1 = false ∧
      s.dev.syncUsable false 0 = false ∧ s.dev.frozen Pg.TL = false) ∧
    ((-100 : Int).natAbs ≤ 100 ∧ sSynced.dev.sync.inRange = 15 ∧ sSynced.dev.flag R.TL_SYNC_STAT F.TL_SYNC_STAT_LOCKED = false) ∧
    sSynced.Up ∧ sSynced.dev.flag R.TL_CTRL F.TL_CTRL_SYNC_EN = true ∧ sSynced.dev.sync.offWritten = true ∧ 1000 < (1001 : Int).natAbs ∧
    sSynced.dev.flag R.TL_SYNC_STAT F.TL_SYNC_STAT_HOLDOVER = false := by
  unfold State.Live State.Up; decide

/-- Fields of registers set in turn. -/
def puts (d : Dev) (l : List (Nat × RField × Nat)) : Dev := l.foldl (fun e x => e.put x.1 x.2.1 x.2.2) d

/-- Track 0 has an update that jumps, track 1 one within JUMP_LIM; track 2 turns stale in this tick, track 3 in the next. -/
def sTrk : State := sv (dv DS.READY 1000 fun d => { puts d [(R.TRK_JUMP 1, F.TRK_JUMP_JUMP_LIM, 2), (R.TRK_JUMP 0, F.TRK_JUMP_JUMP_LIM, 2),
    (R.TRK_CFG 2, F.TRK_CFG_SRC, 1), (R.TRK_STALE 2, F.TRK_STALE_STALE, 100), (R.TRK_CFG 3, F.TRK_CFG_SRC, 1),
    (R.TRK_STALE 3, F.TRK_STALE_STALE, 100)] with
  trk := [(0, { upds := [{ m := 2 ^ 21 + 1, v := some 0, ts := 990, ta := 1000, valid := true }] }),
    (1, { upds := [{ m := 2 ^ 21 - 50, v := some 5, ts := 990, ta := 999, valid := true }, { ta := 1200 }] }),
    (2, { base := 900 }), (3, { base := 901 })] })

theorem witness_TrackUpdates :
    sTrk.Live ∧ (∀ k ∈ [0, 1, 2, 3], k < nTracks) ∧ ((sTrk.dev.trkS 0).upds.map (·.ta) = [1000] ∧ 1000 ≤ sTrk.dev.gtc) ∧
    ((sTrk.dev.trkS 1).upds.map (·.ta) = [999, 1200] ∧ 999 ≤ sTrk.dev.gtc) ∧
    (sTrk.dev.get (R.TRK_STALE 2) F.TRK_STALE_STALE ≠ 0 ∧ sTrk.dev.trkSrc 2 ≠ srcFREE ∧ (sTrk.dev.trkS 2).upds = [] ∧ sTrk.dev.frozen Pg.TRK = false ∧
      sTrk.dev.flag (R.TRK_STAT 2) F.TRK_STAT_STALE = false ∧ (sTrk.dev.trkS 2).base + 100 ≤ sTrk.dev.gtc) ∧
    sTrk.dev.gtc < (sTrk.dev.trkS 3).base + sTrk.dev.get (R.TRK_STALE 3) F.TRK_STALE_STALE := by
  unfold State.Live State.Up; decide

/-- CONFIGURE; S0 holds tracks 1 (FREE) and 2 (HOST). -/
def sTrkW : State := sv (dv DS.CONFIGURE 1000 fun d => puts d [(R.TRK_CLAIM 1, F.CLAIM_OWNER, 0), (R.TRK_CLAIM 2, F.CLAIM_OWNER, 0),
  (R.TRK_CFG 1, F.TRK_CFG_SRC, srcFREE), (R.TRK_CFG 2, F.TRK_CFG_SRC, srcHOST), (R.TRK_JUMP 2, F.TRK_JUMP_JUMP_LIM, 2)])

theorem witness_TrackWrites :
    sTrkW.Live ∧ sTrkW.dev.trkWriteOk 0 0 = false ∧ (sTrkW.dev.trkWriteOk 0 1 = true ∧ sTrkW.dev.trkSrc 1 = srcFREE) ∧
    (sTrkW.dev.trkWriteOk 0 2 = true ∧ sTrkW.dev.trkSrc 2 = srcHOST) ∧ sTrkW.dev.inConfigure = true ∧ sTrkW.dev.asS0 0 .trkB = true ∧
    sTrkW.dev.ownOk 0 (.unit (R.TRK_CLAIM 2) Pg.TRK) = true := by
  unfold State.Live State.Up; decide

/-- CONFIGURE; S0 holds the first 32 slots; slots 1 to 4 have due firings; slot 5 is armed. -/
def sSlot : State := sv (dv DS.CONFIGURE 1000 fun d =>
  { puts d [(R.TL_SLOT_CLAIM 0, F.CLAIM_OWNER, 0), (R.SLOT_TRIG 5, F.SLOT_TRIG_ARMED, 1)] with
    firings := [{ slot := 1, f := 1000, action := 0xC }, { slot := 2, f := 1000, action := 0xD, target := 1023 },
      { slot := 3, f := 1000, action := 0xF, target := 5 }, { slot := 4, f := 999, action := 0xE, target := 3, param := 7 },
      { slot := 6, f := 999, action := 0xE, target := 4 }] })

theorem witness_SlotWritesAndActions :
    (sSlot.Live ∧ 31 < nSlots ∧ sSlot.dev.asS0 0 .tlsB = true ∧ sSlot.dev.inConfigure = true ∧
      sSlot.dev.ownOk 0 (.unit (R.TL_SLOT_CLAIM (31 / 32)) (Pg.TLS (31 / 256))) = true) ∧
    (((turnOf sSlot 1).dev.takeFiring 1 0xC).isSome ∧ ((turnOf sSlot 2).dev.takeFiring 2 0xD).map (fun x => (x.1.span, x.1.target)) = some (0, 1023) ∧
      1023 < nSlots ∧ ((turnOf sSlot 3).dev.takeFiring 3 0xF).map (fun x => (x.1.span, x.1.target)) = some (0, 5) ∧
      ((turnOf sSlot 4).dev.takeFiring 4 0xE).map (fun x => (x.1.span, x.1.target)) = some (0, 3) ∧
      ((turnOf sSlot 6).dev.takeFiring 6 0xE).map (fun x => (x.1.span, x.1.target)) = some (0, 4)) := by
  unfold State.Live State.Up; decide

/-- A slot armed with a type, a track or group, an argument. -/
def armed (n ty src arg : Nat) (dir : Nat := 0) : List (Nat × RField × Nat) :=
  [(R.SLOT_TRIG n, F.SLOT_TRIG_ARMED, 1), (R.SLOT_TRIG n, F.SLOT_TRIG_TYPE, ty), (R.SLOT_TRIG n, F.SLOT_TRIG_SRC, src),
    (R.SLOT_TRIG n, F.SLOT_TRIG_DIR, dir), (R.SLOT_ARG n, F.SLOT_ARG_ARG, arg)]

/-- ABSOLUTE slots 0 to 2 for the 7th, 8th and 9th tick from now; PERIODIC slots 3 and 4 for the 8th and the 9th. -/
def sFire : State := sv (dv DS.READY 1000 fun d =>
  { puts d (armed 0 0 0 1007 ++ armed 1 0 0 1008 ++ armed 2 0 0 1009 ++ armed 3 1 0 16 ++ armed 4 1 0 500) with
    slot := [(3, { nextF := 1008 }), (4, { nextF := 1009 })] })

/-- CARRIER slots on group 1 with two events: slot 0 counts the second, slot 1 fires at it, slot 2 fires late. -/
def sCarr : State := sv (dv DS.READY 1000 fun d =>
  { puts d (armed 0 2 1 8 ++ armed 1 2 1 8 ++ armed 2 2 1 20 ++ [(R.SLOT_TRIG 0, F.SLOT_TRIG_CDIV, 1)]) with
    slot := [(0, { lastEv := 996 }), (1, { lastEv := 996 })]
    grp := [(1, { evs := [(0, 995), (0, 1000)] })] })

/-- ANGLE slots at angle 5 on tracks that cross it forwards, in a jump, and backwards; slots 3 and 4 wait at a quarter turn and just
below. -/
def sAng : State := sv (dv DS.READY 1000 fun d =>
  { puts d (armed 0 3 0 5 1 ++ armed 1 3 1 5 ++ armed 2 3 2 5 2 ++ armed 3 3 3 5 ++ armed 4 3 4 5) with
    slot := [(3, { waitRearm := true }), (4, { waitRearm := true })]
    trk := [(0, { ang := 5 * 2 ^ 20, pPrev := 5 * 2 ^ 20 - 1 }), (1, { ang := 5 * 2 ^ 20 - 8, spd := 1, pPrev := 5 * 2 ^ 20 - 1, jumpAt := 1001, jump := 7 }),
      (2, { ang := 5 * 2 ^ 20, pPrev := 5 * 2 ^ 20 + 1 }), (3, { ang := 5 * 2 ^ 20 + 2 ^ 38 }), (4, { ang := 5 * 2 ^ 20 + 2 ^ 38 - 1 })] })

/-- The same with a jump against the direction of travel. -/
def sAngBack : State := { sAng with dev := sAng.dev.setTrk 1 { sAng.dev.trkS 1 with jump := -7 } }

theorem witness_SlotsFire :
    (sFire.Live ∧ (∀ n ∈ [0, 1, 2], sFire.dev.slotReady n 0 = true) ∧
      (∀ n ∈ [0, 1, 2], sext 32 (wrapN 32 ((sFire.dev.reg (R.SLOT_ARG n)).toNat - (sFire.dev.gtc % 2 ^ 32 : Nat) : Int)) = n + 7) ∧
      (sFire.dev.slotReady 3 1 = true ∧ (sFire.dev.slotS 3).nextF ≤ sFire.dev.gtc + 8) ∧
      sFire.dev.slotReady 4 1 = true ∧ sFire.dev.gtc + 8 < (sFire.dev.slotS 4).nextF) ∧
    (sCarr.Live ∧ (∀ n ∈ [0, 1, 2], sCarr.dev.slotReady n 2 = true) ∧ sCarr.dev.slotEvents 0 = [1000] ∧ 1000 + 8 ≤ sCarr.dev.gtc + 8 ∧
      (sCarr.dev.slotS 0).cnt < sCarr.dev.get (R.SLOT_TRIG 0) F.SLOT_TRIG_CDIV ∧ sCarr.dev.slotEvents 1 = [1000] ∧
      sCarr.dev.get (R.SLOT_TRIG 1) F.SLOT_TRIG_CDIV ≤ (sCarr.dev.slotS 1).cnt ∧ sCarr.dev.slotEvents 2 = [995, 1000] ∧
      sCarr.dev.gtc + 8 < 995 + 20 ∧ 1000 ≤ sCarr.dev.gtc ∧ sCarr.dev.gtc + 8 < 1000 + 20 ∧
      sCarr.dev.get (R.SLOT_TRIG 2) F.SLOT_TRIG_CDIV ≤ (sCarr.dev.slotS 2).cnt) ∧
    sAng.Live ∧ (∀ n ∈ [0, 1, 2, 3, 4], sAng.dev.slotReady n 3 = true) ∧
    (∀ n ∈ [0, 1, 2], sAng.dev.crossing n = nthD 0 [1, 1, -1] n ∧ sAng.dev.get (R.SLOT_TRIG n) F.SLOT_TRIG_DIR = nthD 0 [1, 0, 2] n ∧
      (sAng.dev.slotS n).waitRearm = false ∧ (sAng.dev.slotS n).armTick < sAng.dev.gtc) ∧
    (sAng.dev.trkS 0).jumpAt ≠ sAng.dev.gtc + 1 ∧ (sAng.dev.trkS 2).jumpAt ≠ sAng.dev.gtc + 1 ∧
    ((sAng.dev.trkS 1).jumpAt = sAng.dev.gtc + 1 ∧ 0 < (sAng.dev.trkS 1).jump * (sAng.dev.trkS 1).spd ∧
      0 < (sAng.dev.trkS 1).jump * sAng.dev.crossing 1) ∧
    ((sAngBack.dev.trkS 1).jumpAt = sAngBack.dev.gtc + 1 ∧ (sAngBack.dev.trkS 1).jump * (sAngBack.dev.trkS 1).spd ≤ 0 ∧
      sAngBack.dev.crossing 1 = 1 ∧ sAngBack.dev.slotReady 1 3 = true ∧ sAngBack.dev.get (R.SLOT_TRIG 1) F.SLOT_TRIG_DIR = 0) ∧
    (∀ n ∈ [3, 4], (sAng.dev.slotS n).waitRearm = true ∧ (sext 40 (wrap40 ((sAng.dev.trkP n : Int) - (5 * 2 ^ 20 : Nat)))).natAbs
      = nthD 0 [2 ^ 38, 2 ^ 38 - 1] (n - 3)) := by
  unfold State.Live State.Up; decide

/-! ### The converters -/

/-- Page ADA enabled; slice 0 is served by physical slice 2 and samples input 5; its result of 40 ticks ago is on its way, and a copy of
channel 0 of Bank B of 6 ticks ago. Accumulator 0 takes input 5, accumulator 1 channel 0. -/
def sAda : State := sv (dv DS.READY 1000 fun d =>
  { puts d [(R.PG_CTRL Pg.ADA, F.PG_CTRL_EN, 1), (R.ADA_LCFG 0, F.ADA_LCFG_EN, 1), (R.ADA_SEQ 0, F.ADA_SEQ_IN0, 5),
      (R.ADA_SEQ 0, F.ADA_SEQ_LEN, 0), (R.ADA_LSTAT 0, F.ADA_LSTAT_PSL, 2), (R.PG_CTRL (Pg.ACC 0), F.PG_CTRL_EN, 1),
      (R.ACC_CFG 0, F.ACC_CFG_MODE, 0), (R.ACC_CFG 0, F.ACC_CFG_SRC, 5), (R.ACC_CFG 1, F.ACC_CFG_MODE, 1),
      (R.ACC_CFG 1, F.ACC_CFG_SRC_KIND, 1)] with
    samp := [{ slice := 0, input := 5, ts := 960, code := 77 }]
    sdd := [(0, { copies := [(512, 994)] })]
    acc := [(0, { cur := some { fOpen := 900 } }), (1, { cur := some { fOpen := 900 } })] })

/-- The same with a handover of slice 0 to physical slice 3 decided a tick ago. -/
def sHand : State := { sAda with dev := { sAda.dev with rot := { slice := 0, inc := 3, hand := some (999, false) } } }

theorem witness_SliceSampling :
    sAda.Live ∧ (∀ s ∈ [sAda, sHand], 0 < nSlices s.dev.member ∧ s.dev.pageEn Pg.ADA = true ∧ s.dev.frozen Pg.ADA = false ∧
      s.dev.flag (R.ADA_LCFG 0) F.ADA_LCFG_EN = true ∧ s.dev.gtc % 40 = min (s.dev.get (R.ADA_LCFG 0) F.ADA_LCFG_PHASE) 39 ∧
      (∀ r ∈ s.dev.samp, ¬(r.slice = 0 ∧ r.ts = s.dev.gtc)) ∧ s.dev.servedBy 0 = some 2) ∧
    (sAda.dev.rot.hand = none ∧ sAda.dev.seqEntries 0 = [5] ∧ 5 < nInputs sAda.dev.member ∧ sAda.dev.getI (R.ADA_PSL 2) F.ADA_PSL_OFS = 0 ∧
      sAda.dev.getI (R.ADA_PSL 2) F.ADA_PSL_GAIN_ERR = 0) ∧
    (sHand.Live ∧ sHand.dev.rot.hand = some (999, false) ∧ 999 < sHand.dev.gtc ∧ sHand.dev.rot.inc < nPhys sHand.dev.member ∧
      2 < nPhys sHand.dev.member ∧ 2 ≠ sHand.dev.rot.inc) ∧
    (sAda.dev.samp.find? fun x => x.slice == 0 && decide (x.ts + 40 ≤ sAda.dev.gtc)).isSome ∧
    (sAda.dev.sddS 0).copies = (512, 994) :: [] ∧ 994 + 6 ≤ sAda.dev.gtc := by
  unfold State.Live State.Up; decide

/-- The smallest member in BOOT for 2 ms. -/
def sBootCal : State := sv (dv DS.BOOT 800000 fun d => { d with member := .ehz0102 })

/-- Physical slice 3 has been in CAL for 2 ms; slice 0 is calibrated CAL_MAX ms ago and one tick, in the second state without a CAL_MAX. -/
def sCal : State := sv (dv DS.READY 1000000 fun d => { puts { d with member := .ehz0102 } [(R.ADA_PSL 3, F.ADA_PSL_STATE, pslCAL),
    (R.ADA_CAL_CFG, F.ADA_CAL_CFG_CAL_MAX, 1), (R.ADA_LSTAT 0, F.ADA_LSTAT_PSL, 0)] with
  cal := [(0, { done := 599999 }), (3, { start := 200000 })] })
def sCal0 : State := { sCal with dev := sCal.dev.put R.ADA_CAL_CFG F.ADA_CAL_CFG_CAL_MAX 0 }

theorem witness_SliceCalibration :
    (sBootCal.Live ∧ sBootCal.dev.devState = DS.BOOT ∧ 800000 ≤ sBootCal.dev.gtc ∧
      (List.replicate 16 ((256 : Int), (-100 : Int))).length = nPhys sBootCal.dev.member ∧
      (∀ c ∈ List.replicate 16 ((256 : Int), (-100 : Int)), calBad c.1 c.2 = false) ∧
      ∀ p, p < nPhys sBootCal.dev.member → sBootCal.dev.pslState p ≠ pslFAILED) ∧
    (sCal.Live ∧ 3 < nPhys sCal.dev.member ∧ sCal.dev.pslState 3 = pslCAL ∧ (sCal.dev.calS 3).start + 800000 ≤ sCal.dev.gtc ∧
      calBad 256 100 = false ∧ calBad 257 0 = true ∧ calBad 0 (-101) = true) ∧
    (0 < nSlices sCal.dev.member ∧ sCal.dev.servedBy 0 = some 0 ∧ sCal.dev.get R.ADA_CAL_CFG F.ADA_CAL_CFG_CAL_MAX = 1 ∧
      sCal.dev.flag (R.ADA_LSTAT 0) F.ADA_LSTAT_CAL_STALE = false ∧ (sCal.dev.calS 0).done + 400000 < sCal.dev.gtc) ∧
    sCal0.Live ∧ sCal0.dev.servedBy 0 = some 0 ∧ sCal0.dev.get R.ADA_CAL_CFG F.ADA_CAL_CFG_CAL_MAX = 0 := by
  unfold State.Live State.Up; decide

/-- A rotation step is due, physical slice 5 is spare, slice 0 enabled and served; S0 holds slice 0, slice 1 names input 9. -/
def sRot : State := sv (dv DS.CONFIGURE 1200 fun d => puts { d with member := .ehz0102 } [(R.PG_CTRL Pg.ADA, F.PG_CTRL_EN, 1),
  (R.ADA_CTRL, F.ADA_CTRL_ROT_EN, 1), (R.ADA_ROT_CFG, F.ADA_ROT_CFG_INTV, 1), (R.ADA_ROT_CFG, F.ADA_ROT_CFG_OVL, 4),
  (R.ADA_PSL 5, F.ADA_PSL_STATE, pslSPARE), (R.ADA_LCFG 0, F.ADA_LCFG_EN, 1), (R.ADA_LSTAT 0, F.ADA_LSTAT_PSL, 0),
  (R.ADA_LCLAIM 0, F.CLAIM_OWNER, 0), (R.ADA_SEQ 1, F.ADA_SEQ_IN0, 9)])

/-- An overlap with all its pairs counted: it passes; it fails, as the first of slice 0, again with the same slice, again with another. -/
def sOvl (top fails inc : Nat) : State := { sRot with
  dev := { sRot.dev with rot := { run := true, slice := 0, inc := 5, step := 400, pairs := 64, top := top }, ovl := [(0, { fails, inc })] } }

theorem witness_SliceRotation :
    (sRot.Live ∧ sRot.dev.flag R.ADA_CTRL F.ADA_CTRL_ROT_EN = true ∧ sRot.dev.pageEn Pg.ADA = true ∧ sRot.dev.frozen Pg.ADA = false ∧
      sRot.dev.gtc % (400 * max (sRot.dev.get R.ADA_ROT_CFG F.ADA_ROT_CFG_INTV) 1) = 0 ∧ sRot.dev.rotBusy = false ∧
      (List.range (nPhys sRot.dev.member)).find? (fun q => sRot.dev.pslState q == pslSPARE) = some 5 ∧ sRot.dev.rotNext = some 0) ∧
    (∀ s ∈ [sOvl 0 1 0, sOvl 65535 0 0, sOvl 65535 1 5, sOvl 65535 1 6], s.dev.rot.run = true ∧ s.dev.ovlN ≤ s.dev.rot.pairs ∧
      s.dev.rot.inc < nPhys s.dev.member ∧ s.dev.rot.slice < nSlices s.dev.member) ∧
    ((sOvl 0 1 0).Live ∧ (sOvl 0 1 0).dev.overlapPass = true ∧ (sOvl 65535 0 0).Live ∧ (sOvl 65535 0 0).dev.overlapPass = false ∧
      ((sOvl 65535 0 0).dev.ovlS 0).fails = 0 ∧ ((sOvl 65535 1 5).dev.ovlS 0).inc = 5 ∧ ((sOvl 65535 1 6).dev.ovlS 0).inc ≠ 5) ∧
    (0 < nSlices sRot.dev.member ∧ sRot.dev.takenAt 0 (R.ADA_SEQ 0) = true ∧ sRot.dev.seqConflict 0 [9] = some (9, some 1) ∧
      sRot.dev.seqConflict 0 [24] = some (24, none) ∧ sRot.dev.seqConflict 0 [0, 0x7F] = none ∧ sRot.dev.rot = {}) := by
  unfold State.Live State.Up; decide

/-- Slots 1 and 2 open and close a window of input 5; inputs 6, 7, 8 and 9 have windows that ended 40 ticks ago, of three samples, at the
threshold, one below it, and below it in mode 2. -/
def sOw : State := sv (dv DS.READY 1000 fun d =>
  { puts d [(R.ADA_CTRL, F.ADA_CTRL_OW_EN, 1), (R.ADA_OW_CFG 5, F.ADA_OW_CFG_MODE, 1), (R.ADA_OW_CFG 7, F.ADA_OW_CFG_MODE, 1),
      (R.ADA_OW_CFG 7, F.ADA_OW_CFG_THR, 1), (R.ADA_OW_CFG 8, F.ADA_OW_CFG_MODE, 1), (R.ADA_OW_CFG 8, F.ADA_OW_CFG_THR, 1),
      (R.ADA_OW_CFG 9, F.ADA_OW_CFG_MODE, 2), (R.ADA_OW_CFG 9, F.ADA_OW_CFG_THR, 1)] with
    firings := [{ slot := 1, f := 1000, action := 0xA, target := 5 }, { slot := 2, f := 1000, action := 0xB, target := 6 }]
    ow := [(6, [{ on := 1, off := some 960, n := 3 }, { on := 970 }]), (7, [{ off := some 960, n := 4, sum := 1024 }]),
      (8, [{ off := some 960, n := 4, sum := 1023 }]), (9, [{ off := some 960, n := 4, sum := 1023 }])] })

theorem witness_OpenWireWindows :
    (sOw.Live ∧ ((turnOf sOw 1).dev.takeFiring 1 0xA).map (fun x => (x.1.span, x.1.target)) = some (0, 5) ∧ 5 < nInputs sOw.dev.member ∧
      (((turnOf sOw 1).dev.takeFiring 1 0xA).any fun x => x.2.get (R.ADA_OW_CFG 5) F.ADA_OW_CFG_MODE == 1 && x.2.flag R.ADA_CTRL F.ADA_CTRL_OW_EN &&
        (x.2.owS 5).all fun w => w.off.isSome) = true) ∧
    ((turnOf sOw 2).dev.takeFiring 2 0xB).map (fun x => (x.1.span, x.1.target)) = some (0, 6) ∧ 6 < nInputs sOw.dev.member ∧
    ∀ i ∈ [6, 7, 8, 9], i < 96 ∧ ((sOw.dev.owS i).find? fun v => !v.done && v.off.any fun f => decide (f + 40 ≤ sOw.dev.gtc)).map
      (fun w => (w.n, w.sum)) = some (nthD (0, 0) [(3, 0), (4, 1024), (4, 1023), (4, 1023)] (i - 6)) := by
  unfold State.Live State.Up; decide

/-- Channel 0 of Bank B runs on clock 0 with its fourth outputs due. -/
def sBankB : State := sv (dv DS.READY 1000 fun d =>
  { puts d [(R.ADB_CH_CFG 0, F.ADB_CH_CFG_EN, 1), (R.ADB_CLK 0, F.ADB_CLK_EN, 1), (R.ADB_CH_CFG 0, F.ADB_CH_CFG_ACC_COPY, 1),
      (R.ADB_CH_CFG 0, F.ADB_CH_CFG_OSR, 16), (R.ADB_CH_CFG 0, F.ADB_CH_CFG_FAST_OSR, 8), (R.ADB_CH_OVR 0, F.ADB_CH_OVR_HI, 100)] with
    sdd := [(0, { main := { outs := 3, i3 := 50 }, fast := { outs := 3 } })] })

theorem witness_BankB :
    (sBankB.Live ∧ sBankB.dev.sddOn 0 = true ∧ 0 < nSdc sBankB.dev.member ∧ sBankB.dev.flag (R.ADB_CLK 0) F.ADB_CLK_EN = true ∧
      (List.replicate 16 true).length = sBankB.dev.sddOsr 0 ∧ 3 ≤ (sBankB.dev.sddS 0).main.outs ∧
      (List.replicate 8 true).length = sBankB.dev.sddFast 0 ∧ 3 ≤ (sBankB.dev.sddS 0).fast.outs) ∧
    ∀ m, sBankB.dev.meEn m = false := by
  refine ⟨by unfold State.Live State.Up; decide, fun m => ?_⟩
  unfold Dev.meEn
  unfold Dev.me Dev.spb
  rw [show sBankB.dev.safe.spbM = [] by decide, show getF (spGet 0 [] ((0x1C0 + 0x80 * m + 4 * 0) / 4)) F.ME_CFG_EN = 0 by
    simp only [spGet]; decide]
  exact Bool.and_false _

/-! ### Accumulators and comparators -/

/-- CONFIGURE; accumulators 0 to 5 run; slots 1 to 6 open, close and swap them; S0 holds accumulator 7 and tracker 0. -/
def sAcc : State := sv (dv DS.CONFIGURE 1000 fun d =>
  { puts d ((R.PG_CTRL (Pg.ACC 0), F.PG_CTRL_EN, 1) :: (R.ACC_CLAIM 7, F.CLAIM_OWNER, 0) :: (R.MMX_CLAIM 0, F.CLAIM_OWNER, 0) ::
      (List.range 6).map fun a => (R.ACC_CFG a, F.ACC_CFG_MODE, 0)) with
    firings := [{ slot := 1, f := 1000, action := 1, target := 0 }, { slot := 2, f := 1000, action := 1, target := 1 },
      { slot := 3, f := 1000, action := 2, target := 2 }, { slot := 4, f := 1000, action := 2, target := 3 },
      { slot := 5, f := 1000, action := 2, target := 4 }, { slot := 6, f := 1000, action := 3, target := 5 }]
    acc := [(1, { cur := some {} }), (3, { cur := some { fOpen := 5 } }), (4, { cur := some {}, pend := some {} }),
      (5, { cur := some { fOpen := 9 } })] })

theorem witness_AccumulatorWindows :
    (sAcc.Live ∧ ∀ n ∈ [1, 2, 3, 4, 5, 6], (((turnOf sAcc n).dev.takeFiring n (nthD 0 [1, 1, 2, 2, 2, 3] (n - 1))).any fun x =>
      x.1.span == 0 && x.1.target == n - 1 && decide (x.1.target < nAcc x.2.member) && x.2.accOn (n - 1)) = true) ∧
    ((sAcc.dev.accS 0).cur = none ∧ (sAcc.dev.accS 1).cur ≠ none ∧ (sAcc.dev.accS 2).cur = none ∧
      ((sAcc.dev.accS 3).cur = some { fOpen := 5 } ∧ (sAcc.dev.accS 3).pend = none) ∧
      ((sAcc.dev.accS 4).cur = some {} ∧ (sAcc.dev.accS 4).pend ≠ none) ∧
      (sAcc.dev.accS 5).cur = some { fOpen := 9 } ∧ (sAcc.dev.accS 5).pend = none) ∧
    (7 < nAcc sAcc.dev.member ∧ ∀ k ∈ [0, 1, 2, 3], sAcc.dev.takenAt 0 (R.ACC_CFG 7 + 4 * k) = true) ∧
    (0 < nMmx sAcc.dev.member ∧ sAcc.dev.takenAt 0 (R.MMX_STAT 0) = true) ∧
    sAcc.dev.NoSpec ∧ ∀ n ∈ [1, 2, 3, 4, 5, 6], ∀ x, (turnOf sAcc n).dev.takeFiring n (nthD 0 [1, 1, 2, 2, 2, 3] (n - 1)) = some x → x.2.NoSpec := by
  refine ⟨by unfold State.Live State.Up; decide, by decide, by decide, by decide, fun _ => rfl, fun n _ x h => ?_⟩
  unfold Dev.takeFiring at h
  split at h
  · cases h
  · split at h
    · cases h; exact fun _ => rfl
    · cases h

/-- Windows whose commit tick has come: empty, too short, complete, overflowed; tracker 0 follows accumulator 2. -/
def sCommit : State := sv (dv DS.READY 1000 fun d =>
  { puts d ((R.PG_CTRL (Pg.ACC 0), F.PG_CTRL_EN, 1) :: (R.PG_CTRL (Pg.MMX 0), F.PG_CTRL_EN, 1) :: (R.MMX_CFG 0, F.MMX_CFG_EN, 1) ::
      (R.MMX_CFG 0, F.MMX_CFG_LINK, 2) :: (R.ACC_GAIN 2, F.ACC_GAIN_GAIN, 0x40000) :: (R.ACC_CFG 1, F.ACC_CFG_NMIN, 4) ::
      (List.range 4).map fun a => (R.ACC_CFG a, F.ACC_CFG_MODE, a % 2)) with
    acc := [(0, { pend := some { fOpen := 900, fClose := 960 } }), (1, { pend := some { fClose := 960, n := 3, s1 := 90, dMin := 5, dMax := 50 } }),
      (2, { pend := some { fClose := 950, n := 2, s1 := 100, s2 := 7, dMin := -3, dMax := 103 }, cur := some { fOpen := 955 } }),
      (3, { pend := some { fClose := 950, n := 9, ovf := true } })] })

theorem witness_AccumulatorCommits :
    (sCommit.Live ∧ (∀ a ∈ [0, 1, 2, 3], a < nAcc sCommit.dev.member ∧ (sCommit.dev.accDue a).map (·.n) = some (nthD 0 [0, 3, 2, 9] a)) ∧
      3 < sCommit.dev.get (R.ACC_CFG 1) F.ACC_CFG_NMIN ∧ sCommit.dev.mmxLink 0 = some 2 ∧
      sCommit.dev.flag (R.MMX_CFG 0) F.MMX_CFG_HOLD = false ∧ 2 ≠ 0) ∧
    (sCommit.dev.accMode 0 = 0 ∧ sCommit.dev.accMode 1 = 1 ∧ (16777214 < 16777215 ∧ -(2 ^ 39) ≤ (2 ^ 39 - 2 : Int) + 1 ∧
      (2 ^ 39 - 2 : Int) + 1 < 2 ^ 39)) ∧ sCommit.dev.NoSpec :=
  ⟨by unfold State.Live State.Up; decide, by decide, fun _ => rfl⟩

/-- A running comparator with its upper level at 0 V. -/
def cmpOn (c cls mode : Nat) : List (Nat × RField × Nat) :=
  [(R.CMP_CFG c, F.CMP_CFG_EN, 1), (R.CMP_CFG c, F.CMP_CFG_HI_EN, 1), (R.CMP_CFG c, F.CMP_CFG_CLASS, cls), (R.CMP_CFG c, F.CMP_CFG_MODE, mode),
    (R.CMP_CFG c, F.CMP_CFG_INSEL, 3), (R.CMP_THR c, F.CMP_THR_HI, 0), (R.CMP_CFG c, F.CMP_CFG_HYST, 0), (R.CMP_RAMP c, F.CMP_RAMP_RAMP_EN, 0)]

/-- Comparators 0 (PROTECT) and 1 (LIMIT) trip, 2 releases, 3 and 4 are strobed (4 in its start-up), 5 starts, 6 and 7 end their start, 8 is
late, 9 and 10 take a written setting, 9 with another MODE. -/
def sCmp : State := sv (dv DS.READY 400520 fun d =>
  { puts d ([(R.PG_CTRL (Pg.CMP 0), F.PG_CTRL_EN, 1), (R.CMP_ROUTE 0, F.CMP_ROUTE_GROUPS, 8), (R.CMP_ROUTE 0, F.CMP_ROUTE_LEGS, 3),
      (R.CMP_ROUTE 1, F.CMP_ROUTE_GROUPS, 4), (R.CMP_ROUTE 1, F.CMP_ROUTE_LEGS, 1), (R.CMP_ROUTE 1, F.CMP_ROUTE_SW_SEL, 3),
      (R.CMP_STRB 3, F.CMP_STRB_DIV, 400), (R.CMP_STRB 4, F.CMP_STRB_DIV, 400), (R.CMP_STRB 7, F.CMP_STRB_DIV, 400),
      (R.CMP_STAT 4, F.CMP_STAT_STARTING, 1), (R.CMP_STAT 6, F.CMP_STAT_STARTING, 1), (R.CMP_STAT 7, F.CMP_STAT_STARTING, 1),
      (R.CMP_STAT 8, F.CMP_STAT_STARTING, 1), (R.CMP_CFG 6, F.CMP_CFG_REL_N, 1), (R.CMP_CFG 7, F.CMP_CFG_REL_N, 2)] ++
      [(0, 1, 0), (1, 0, 0), (2, 0, 0), (3, 1, 4), (4, 1, 4), (5, 1, 0), (6, 1, 0), (7, 1, 4), (8, 1, 0), (9, 1, 0), (10, 1, 0)].flatMap
        fun x => cmpOn x.1 x.2.1 x.2.2) with
    cmp := [(0, { on := true }), (1, { on := true }), (2, { on := true, hiTrip := true }), (3, { on := true }), (4, { on := true }),
      (6, { on := true, startAt := 400519 }), (7, { on := true, startAt := 300000, relCnt := 2 }), (8, { on := true, startAt := 520 }),
      (9, { on := true, old := some (0, 0, 2), again := true }), (10, { on := true, old := some (0, 0, 0) })] })

/-- The same with the frame of the present tick dropped. -/
def sCmpCut : State := { sCmp with dev := { sCmp.dev with sys := { sCmp.dev.sys with cut := [200260] } } }

theorem witness_ComparatorDecisions :
    sCmp.Live ∧ 10 < nCmp sCmp.dev.member ∧
    (∀ c ∈ [0, 1, 2], (sCmp.dev.cmpLook c).cmpLive c = true ∧ (sCmp.dev.cmpLook c).cmpSampled c = false ∧
      ((sCmp.dev.cmpLook c).cmpS c).hiTrip = (c == 2)) ∧
    (∀ c ∈ [3, 4], sCmp.dev.cmpSampled c = true ∧ (sCmp.dev.cmpS c).on = true ∧ 120 ≤ sCmp.dev.gtc ∧
      (sCmp.dev.gtc - 120) % sCmp.dev.cmpDiv c = 0 ∧ sCmp.dev.frozen (Pg.CMP (c / 36)) = false ∧ sCmp.dev.cmpStarting c = (c == 4)) ∧
    (sCmp.dev.cmpAble 5 = true ∧ (sCmp.dev.cmpS 5).on = false) ∧
    (sCmp.dev.cmpStarting 6 = true ∧ (sCmp.dev.cmpS 6).on = true ∧ sCmp.dev.cmpSampled 6 = false ∧
      (sCmp.dev.cmpS 6).startAt + sCmp.dev.cmpRelN 6 ≤ sCmp.dev.gtc) ∧
    (sCmp.dev.cmpStarting 7 = true ∧ (sCmp.dev.cmpS 7).on = true ∧ sCmp.dev.cmpSampled 7 = true ∧
      sCmp.dev.cmpRelN 7 ≤ (sCmp.dev.cmpS 7).relCnt) ∧
    (sCmp.dev.cmpStarting 8 = true ∧ sCmp.dev.flag (R.CMP_STAT 8) F.CMP_STAT_START_LATE = false ∧ sCmp.dev.cmpSampled 8 = false ∧
      (sCmp.dev.cmpS 8).late = false ∧ (sCmp.dev.cmpS 8).startAt + 400000 ≤ sCmp.dev.gtc) ∧
    (sCmp.dev.frozen (Pg.CMP 0) = false ∧ (sCmp.dev.cmpS 9).old = some (0, 0, 2) ∧ (sCmp.dev.cmpS 9).again = true ∧ sCmp.dev.cmpAble 9 = true ∧
      (sCmp.dev.cmpS 10).old = some (0, 0, 0) ∧ (sCmp.dev.cmpS 10).again = false ∧ sCmp.dev.linkTick sCmp.dev.gtc = sCmp.dev.gtc ∧
      sCmpCut.dev.linkTick sCmpCut.dev.gtc ≠ sCmpCut.dev.gtc) := by
  unfold State.Live State.Up; decide

/-- The comparators of `sCmp` trip at 1 µV and are released at −1 µV, whatever VREFA is. -/
theorem witness_comparator_sides :
    (sCmp.dev.cmpSides 0 1).1 = true ∧ (sCmp.dev.cmpSides 1 1).1 = true ∧ (sCmp.dev.cmpSides 2 (-1)).1 = false := by
  refine ⟨?_, ?_, ?_⟩ <;> unfold Dev.cmpSides <;> simp only []
  · rw [show sCmp.dev.cmpFlag 0 F.CMP_CFG_HI_EN = true by decide, show sCmp.dev.cmpHiEff 0 = 0 by decide, Int.zero_mul]; decide
  · rw [show sCmp.dev.cmpFlag 1 F.CMP_CFG_HI_EN = true by decide, show sCmp.dev.cmpHiEff 1 = 0 by decide, Int.zero_mul]; decide
  · rw [show sCmp.dev.cmpFlag 2 F.CMP_CFG_HI_EN = true by decide, show sCmp.dev.cmpHiEff 2 = 0 by decide, Int.zero_mul]; decide

/-- Slot 1 blanks comparator 11, slot 2 ends the blanking of 12, tripped; the edge blanking of 13 ends; PROTECT comparator 14 is blanked for
2 us; S0 holds 0, with its output low, and 15, tripped. -/
def sBlank : State := sv (dv DS.READY 400520 fun d =>
  { puts d ((R.PG_CTRL (Pg.CMP 0), F.PG_CTRL_EN, 1) :: (R.CMP_CLAIM 0, F.CLAIM_OWNER, 0) :: (R.CMP_CLAIM 15, F.CLAIM_OWNER, 0) ::
      (R.CMP_STAT 12, F.CMP_STAT_BLANKED, 1) :: (R.CMP_STAT 13, F.CMP_STAT_BLANKED, 1) :: (R.CMP_STAT 14, F.CMP_STAT_BLANKED, 1) ::
      (R.CMP_STAT 0, F.CMP_STAT_LATCHED, 1) :: (R.CMP_STAT 0, F.CMP_STAT_OUT, 0) :: (R.CMP_STAT 15, F.CMP_STAT_LATCHED, 1) ::
      (R.CMP_STAT 15, F.CMP_STAT_OUT, 1) :: (R.CMP_ROUTE 12, F.CMP_ROUTE_GROUPS, 8) :: (R.CMP_ROUTE 12, F.CMP_ROUTE_LEGS, 3) ::
      [0, 11, 12, 13, 14, 15].flatMap fun c => cmpOn c 1 0) with
    cmp := [(11, { on := true }), (12, { on := true, hiTrip := true, slotBlank := true, blankFrom := some 400000 }),
      (13, { on := true, edgeEnd := some 400520, blankFrom := some 400510 }),
      (14, { on := true, loTrip := true, slotBlank := true, blankFrom := some 399720 }), (15, { on := true, hiTrip := true })]
    firings := [{ slot := 1, f := 400000, action := 8, target := 11 }, { slot := 2, f := 400000, action := 9, target := 12 }] })

theorem witness_ComparatorBlanking :
    (sBlank.Live ∧ ((turnOf sBlank 1).dev.takeFiring 1 8).map (fun x => (x.1.span, x.1.target, (x.2.cmpS 11).capped)) = some (0, 11, false) ∧
      ((turnOf sBlank 2).dev.takeFiring 2 9).map (fun x => (x.1.span, x.1.target, x.2.blankOnDue 12, x.2.cmpOwBlank 12, (x.2.cmpS 12).edgeEnd))
        = some (0, 12, false, false, none) ∧ sBlank.dev.frozen (Pg.CMP 0) = false ∧
      15 < nCmp sBlank.dev.member) ∧
    ((sBlank.dev.pinLookAll.cmpS 13).edgeEnd = some 400520 ∧ 400520 ≤ sBlank.dev.gtc ∧ (sBlank.dev.pinLookAll.cmpS 13).slotBlank = false ∧
      sBlank.dev.pinLookAll.cmpOwBlank 13 = false) ∧
    ((sBlank.dev.cmpS 14).blankFrom = some 399720 ∧ sBlank.dev.cmpProtect 14 = true ∧ sBlank.dev.cmpBlanked 14 = true ∧
      399720 + 800 ≤ sBlank.dev.gtc) ∧
    (sBlank.dev.takenAt 0 (R.CMP_STAT 0) = true ∧ sBlank.dev.flag (R.CMP_STAT 0) F.CMP_STAT_OUT = false ∧ sBlank.dev.cmpStarting 0 = false) ∧
    sBlank.dev.takenAt 0 (R.CMP_STAT 15) = true ∧ sBlank.dev.flag (R.CMP_STAT 15) F.CMP_STAT_OUT = true := by
  unfold State.Live State.Up; decide

/-! ### Position and speed -/

/-- Interface 0 and shadow 2 in ABZ mode, 1 and shadow 3 in Hall mode in their last sector, 4 with an index that its encoder has not met. -/
def sEdge : State := sv (dv DS.READY 1000 fun d =>
  { puts d [(R.POS_CFG 0, F.POS_CFG_MODE, 1), (R.POS_CFG 1, F.POS_CFG_MODE, 2), (R.SHD_CFG 2, F.SHD_CFG_EN, 1),
      (R.SHD_CFG 2, F.SHD_CFG_MODE, 1), (R.SHD_CFG 3, F.SHD_CFG_EN, 1), (R.SHD_CFG 3, F.SHD_CFG_MODE, 2), (R.POS_CFG 4, F.POS_CFG_MODE, 1),
      (R.POS_CFG 4, F.POS_CFG_IDX_EN, 1), (R.TRK_CFG 0, F.TRK_CFG_SRC, 1), (R.TRK_CFG 1, F.TRK_CFG_SRC, 2)] with
    pos := [(1, { sec := some 5 }), (4, { a := true, cnt := -7 }), (18, { edges := [900] }), (19, { sec := some 5 })] })

theorem witness_PositionEdges :
    (sEdge.Live ∧ 4 < nPos sEdge.dev.member ∧ (∀ x ∈ [0, 16 + 2], sEdge.dev.posMode x = mdABZ ∧ sEdge.dev.posIdxEn x = false) ∧
      ∀ x ∈ [0, 18], ∀ y ∈ [(true, false, 1), (true, true, 2), (false, true, 3), (false, false, 0)],
        (quadPos y.1 y.2.1 + 4 - quadPos (sEdge.dev.posS x).a (sEdge.dev.posS x).b) % 4 = y.2.2) ∧
    (∀ x ∈ [1, 16 + 3], sEdge.dev.posMode x = mdHALL ∧ sEdge.dev.hallSector x 0 = none ∧ sEdge.dev.hallSector x 7 = none ∧
      sEdge.dev.hallSector x 1 = some 0 ∧ (sEdge.dev.posS x).sec = some 5 ∧ 0 = (5 + 1) % 6) ∧
    (sEdge.dev.posMode 4 = mdABZ ∧ sEdge.dev.posIdxEn 4 = true ∧
      ((sEdge.dev.posS 4).a, (sEdge.dev.posS 4).b, (sEdge.dev.posS 4).z) = (true, false, false) ∧ (sEdge.dev.posS 4).seen = false ∧
      sEdge.dev.posQual 4 < 4 ∧ sEdge.dev.idxCorr 4 = false) := by
  unfold State.Live State.Up; decide

/-- Edge decoders: 4 holds an edge back, 5 decays, 6 has stood for ZS; track 0 follows 4, track 1 follows 6. -/
def sUpd : State := sv (dv DS.READY 1000 fun d =>
  { puts d [(R.POS_CFG 4, F.POS_CFG_MODE, 1), (R.POS_CFG 5, F.POS_CFG_MODE, 2), (R.POS_CFG 6, F.POS_CFG_MODE, 1),
      (R.POS_CFG 5, F.POS_CFG_DECAY_EN, 1), (R.POS_SPD_CFG 6, F.POS_SPD_CFG_ZS, 1), (R.TRK_CFG 0, F.TRK_CFG_SRC, 5),
      (R.TRK_CFG 1, F.TRK_CFG_SRC, 7), (R.POS_STAT 5, F.POS_STAT_STOPPED, 0), (R.POS_STAT 6, F.POS_STAT_STOPPED, 0)] with
    pos := [(4, { edges := [998, 980], ang := 77, spd := some 5, edgePend := true }),
      (5, { edges := [990, 980], accAt := 979, ang := 3, back := true }), (6, { edges := [590], accAt := 600, ang := 9 })] })

theorem witness_PositionUpdates :
    sUpd.Live ∧ (∀ n ∈ [4, 5, 6], n < nPos sUpd.dev.member ∧ (sUpd.dev.posMode n = mdABZ ∨ sUpd.dev.posMode n = mdHALL)) ∧
    ((sUpd.dev.posS 4).edges = 998 :: [980] ∧ (sUpd.dev.posS 4).edgePend = true ∧ sUpd.dev.updMinPast 4 = true) ∧
    ((sUpd.dev.posS 5).edges = 990 :: 980 :: [] ∧ sUpd.dev.flag (R.POS_CFG 5) F.POS_CFG_DECAY_EN = true ∧
      sUpd.dev.flag (R.POS_STAT 5) F.POS_STAT_STOPPED = false ∧ sUpd.dev.updMinPast 5 = true ∧
      2 * (990 - 980) < sUpd.dev.gtc - (sUpd.dev.posS 5).accAt) ∧
    ((sUpd.dev.posS 6).edges = 590 :: [] ∧ sUpd.dev.posZs 6 ≠ 0 ∧ sUpd.dev.flag (R.POS_STAT 6) F.POS_STAT_STOPPED = false ∧
      (sUpd.dev.posS 6).accAt + 400 * sUpd.dev.posZs 6 ≤ sUpd.dev.gtc) := by
  unfold State.Live State.Up; decide

/-- A serial encoder of 8 bits at the shortest clock period. -/
def serial (n mode : Nat) : List (Nat × RField × Nat) :=
  [(R.POS_CFG n, F.POS_CFG_MODE, mode), (R.POS_SER_CLK n, F.POS_SER_CLK_DIV, 40), (R.POS_SER_FMT n, F.POS_SER_FMT_BITS, 8),
    (R.POS_SER_FMT n, F.POS_SER_FMT_POS_LEN, 8), (R.POS_SER_TIME n, F.POS_SER_TIME_TOUT, 600)]

/-- Slot 1 asks edge decoder 4, slots 2 and 3 the SSI encoders 7 and 8, of which 8 has a frame; 9 is a BiSS encoder with one. -/
def sReq : State := sv (dv DS.READY 1000 fun d =>
  { puts d ((R.POS_CFG 4, F.POS_CFG_MODE, 1) :: (R.TRK_CFG 0, F.TRK_CFG_SRC, 5) :: (R.TRK_CFG 1, F.TRK_CFG_SRC, 10) ::
      serial 7 3 ++ serial 8 3 ++ serial 9 4) with
    pos := [(4, { edges := [900], ang := 77 }), (8, { frame := some 640 }), (9, { frame := some 400, words := [(300, 5)] })]
    firings := [{ slot := 1, f := 1000, action := 6, target := 4 }, { slot := 2, f := 1000, action := 6, target := 7 },
      { slot := 3, f := 1000, action := 6, target := 8 }] })

theorem witness_PositionRequests :
    (sReq.Live ∧ ∀ k ∈ [(1, 4), (2, 7), (3, 8)], ((turnOf sReq k.1).dev.takeFiring k.1 6).map (fun x => (x.1.span, x.1.target)) = some (0, k.2) ∧
      k.2 < nPos sReq.dev.member) ∧
    (sReq.dev.posMode 4 = mdABZ ∧ (sReq.dev.posS 4).edges = 900 :: []) ∧
    (sReq.dev.posMode 7 = mdSSI ∧ (sReq.dev.posS 7).frame = none ∧ (sReq.dev.posS 7).dataLow = false ∧ fmtOk (sReq.dev.posFmt 7) = true) ∧
    (sReq.dev.posMode 8 = mdSSI ∧ (sReq.dev.posS 8).frame = some 640 ∧
      640 + (fmtBits (sReq.dev.posFmt 8) + 1) * sReq.dev.serT 8 + sReq.dev.posSdly 8 ≤ sReq.dev.gtc) ∧
    (sReq.dev.posMode 9 = mdBISS ∧ (sReq.dev.posS 9).frame = some 400 ∧
      0 * sReq.dev.serT 9 + sReq.dev.posSdly 9 ≤ sReq.dev.get (R.POS_SER_TIME 9) F.POS_SER_TIME_TOUT ∧
      400 + (0 + fmtBits (sReq.dev.posFmt 9) + 7) * sReq.dev.serT 9 + sReq.dev.posSdly 9 ≤ sReq.dev.gtc ∧
      400 + sReq.dev.get (R.POS_SER_TIME 9) F.POS_SER_TIME_TOUT ≤ sReq.dev.gtc) := by
  unfold State.Live State.Up; decide

/-- Resolvers of interfaces 0 to 3 on accumulators 0 and 1, 2 and 3, an absent one, 0 and 1 again with too small an amplitude; shadow 5 has
lost its excitation; output 0 runs with slot 1 to restart it; interface 6 has no index, 7 has one; emulation output 0 lags track 0. -/
def sRes : State := sv (dv DS.READY 10000 fun d =>
  { puts d ([(R.POS_RES_CFG 0, F.POS_RES_CFG_ACC_SIN, 0), (R.POS_RES_CFG 0, F.POS_RES_CFG_ACC_COS, 1), (R.POS_RES_AMP 0, F.POS_RES_AMP_AMP_LO, 0),
      (R.POS_RES_AMP 0, F.POS_RES_AMP_AMP_HI, 1), (R.POS_RES_CFG 1, F.POS_RES_CFG_ACC_SIN, 2), (R.POS_RES_CFG 1, F.POS_RES_CFG_ACC_COS, 3),
      (R.POS_RES_CFG 2, F.POS_RES_CFG_ACC_SIN, 384), (R.POS_RES_CFG 3, F.POS_RES_CFG_ACC_SIN, 0), (R.POS_RES_CFG 3, F.POS_RES_CFG_ACC_COS, 1),
      (R.POS_RES_AMP 3, F.POS_RES_AMP_AMP_LO, 1), (R.ACC_RES0 0, F.ACC_RES0_RES0, 3), (R.ACC_RES0 1, F.ACC_RES0_RES0, 4),
      (R.SHD_CFG 5, F.SHD_CFG_EN, 1), (R.SHD_CFG 5, F.SHD_CFG_MODE, 5), (R.EXC_CFG 0, F.EXC_CFG_EN, 1), (R.EXC_AMP 0, F.EXC_AMP_AMP, 10),
      (R.POS_CFG 7, F.POS_CFG_IDX_EN, 1), (R.POS_STAT 6, F.POS_STAT_UNCERT, 1), (R.EMU_CFG 0, F.EMU_CFG_EN, 1), (R.EMU_CFG 0, F.EMU_CFG_LINES, 1)] ++
      (List.range 4).map (fun n => (R.POS_CFG n, F.POS_CFG_MODE, 5)) ++ (List.range 4).map fun a => (R.ACC_STAT a, F.ACC_STAT_EMPTY, 0)) with
    acc := [(0, { cAt := 9999, cOpen := 9000, cClose := 9950 }), (1, { cAt := 9999, cOpen := 9000, cClose := 9950 }),
      (2, { cAt := 9999, cOpen := 9000 }), (3, { cAt := 9998, cOpen := 9000 })]
    pos := [(0, { words := [(5000, 9)] }), (21, { crossAt := 8001, crossPer := 1000 })]
    exc := [(0, [{ t0 := 0, phi := 0, per := 40000, run := true }])]
    trk := [(0, { ang := 2 ^ 39 })]
    firings := [{ slot := 1, f := 1000, action := 7, target := 0 }] })

/-- The same with the words of interface 0 taken already. -/
def sResOld : State := { sRes with dev := sRes.dev.setPos 0 { sRes.dev.posS 0 with useS := 9999, useC := 9999 } }

theorem witness_Resolvers :
    (sRes.Live ∧ (∀ n ∈ [0, 1, 2, 3], n < nPos sRes.dev.member ∧ sRes.dev.posMode n = mdRES) ∧
      384 ≤ sRes.dev.get (R.POS_RES_CFG 2) F.POS_RES_CFG_ACC_SIN ∧ sRes.dev.resFresh (sRes.dev.posS 2).useS 384 = true ∧
      sRes.dev.resFresh (sRes.dev.posS 2).useC (sRes.dev.get (R.POS_RES_CFG 2) F.POS_RES_CFG_ACC_COS) = true ∧
      sResOld.Live ∧ sResOld.dev.resFresh (sResOld.dev.posS 0).useS 0 = false ∧ sRes.dev.frozen Pg.EXC = false ∧
      (∀ a ∈ [0, 1, 2, 3], sRes.dev.accExp0 a = sRes.dev.accExp0 0 ∧ (sRes.dev.posS a).useS < (sRes.dev.accS a).cAt ∧
        (sRes.dev.posS a).useC < (sRes.dev.accS a).cAt ∧ (sRes.dev.accS a).cAt + 1 ≤ sRes.dev.gtc ∧ sRes.dev.accLos a = false)) ∧
    ((sRes.dev.accS 2).cAt ≠ (sRes.dev.accS 3).cAt ∧ (sRes.dev.accS 0).cAt = (sRes.dev.accS 1).cAt ∧
      (sRes.dev.accS 0).cOpen = (sRes.dev.accS 1).cOpen ∧ mantW (sRes.dev.reg (R.ACC_RES0 0)) = 3 ∧ mantW (sRes.dev.reg (R.ACC_RES0 1)) = 4 ∧
      8 * sRes.dev.get (R.POS_RES_AMP 0) F.POS_RES_AMP_AMP_HI = 8 ∧ 8 * sRes.dev.get (R.POS_RES_AMP 3) F.POS_RES_AMP_AMP_LO = 8) ∧
    (0 < 4 ∧ (sRes.dev.excPhase 0 sRes.dev.gtc).isSome = true ∧ (400 : Int) < 4 * (((501 : Int) - 400).natAbs : Int) ∧
      ((turnOf sRes 1).dev.takeFiring 1 7).map (fun x => (x.1.span, x.1.target, (x.2.excPhase 0 x.2.gtc).isSome)) = some (0, 0, true)) ∧
    (sRes.dev.posMode (16 + 5) = mdRES ∧ (sRes.dev.posS 21).crossPer ≠ 0 ∧ (sRes.dev.posS 21).lost = false ∧
      (sRes.dev.posS 21).crossAt + 2 * (sRes.dev.posS 21).crossPer ≤ sRes.dev.gtc + 1) ∧
    (sRes.dev.takenAt 0 (R.POS_STAT 6) = true ∧ sRes.dev.flag (R.POS_CFG 6) F.POS_CFG_IDX_EN = false ∧
      sRes.dev.takenAt 0 (R.POS_STAT 7) = true ∧ sRes.dev.flag (R.POS_CFG 7) F.POS_CFG_IDX_EN = true) ∧
    sRes.dev.emuRuns 0 = true ∧ sRes.dev.emuDist 0 ≠ 0 ∧ sRes.dev.flag (R.EMU_CFG 0) F.EMU_CFG_HOLD = false ∧ (sRes.dev.emuS 0).stepAt = 0 := by
  unfold State.Live State.Up; decide

/-! ### Loop engines -/

/-- Contexts 0 to 4 are asked by slots 1 to 5, 1 and 4 over a pending pass, 2 without SPEC_EN; 5 and 6 have waited for accumulator 0 past
TOUT; 7 is late. -/
def sPassReq : State := sv (dv DS.READY 1000 fun d =>
  { puts { d with member := .ehz0102 } ([(R.PG_CTRL Pg.LEC, F.PG_CTRL_EN, 1), (R.PG_CTRL (Pg.PWT 0), F.PG_CTRL_EN, 1),
      (R.CTX_CTRL 3, F.CTX_CTRL_SPEC_EN, 1), (R.CTX_CTRL 4, F.CTX_CTRL_SPEC_EN, 1), (R.CTX_CTRL 5, F.CTX_CTRL_TO_ACT, 1),
      (R.CTX_TIME 7, F.CTX_TIME_LATE, 100), (R.CTX_TARGET 3, F.CTX_TARGET_DUTY_GRP, 0), (R.CTX_TARGET 4, F.CTX_TARGET_DUTY_GRP, 0)] ++
      (List.range 8).map (fun c => (R.CTX_CTRL c, F.CTX_CTRL_EN, 1)) ++ [5, 6].flatMap fun c =>
        [(R.CTX_TIME c, F.CTX_TIME_TOUT, 900), (R.CTX_IN c 0, F.CTX_IN_KIND, 1), (R.CTX_IN c 0, F.CTX_IN_WAIT, 1)]) with
    ctx := [(1, { pend := some {} }), (4, { pend := some {} }), (5, { pend := some { f := 100 } }), (6, { pend := some { f := 100 } }),
      (7, { pend := some { f := 899 } })]
    firings := [{ slot := 1, f := 1000, action := 4, target := 0 }, { slot := 2, f := 1000, action := 4, target := 1 },
      { slot := 3, f := 1000, action := 5, target := 2 }, { slot := 4, f := 1000, action := 5, target := 3 },
      { slot := 5, f := 1000, action := 5, target := 4 }] })

theorem witness_PassRequests :
    (sPassReq.Live ∧ ∀ k ∈ [(1, 4, 0), (2, 4, 1), (3, 5, 2), (4, 5, 3), (5, 5, 4)], (((turnOf sPassReq k.1).dev.takeFiring k.1 k.2.1).any fun x =>
      x.1.span == 0 && x.1.target == k.2.2 && decide (k.2.2 < nCtx x.2.member) && x.2.lecOn && x.2.ctxEn k.2.2) = true) ∧
    ((sPassReq.dev.ctxS 0).pend = none ∧ (sPassReq.dev.ctxS 1).pend ≠ none ∧ sPassReq.dev.flag (R.CTX_CTRL 2) F.CTX_CTRL_SPEC_EN = false ∧
      (∀ c ∈ [3, 4], sPassReq.dev.flag (R.CTX_CTRL c) F.CTX_CTRL_SPEC_EN = true ∧ sPassReq.dev.dutyGrp c < 20 ∧
        sPassReq.dev.pageEn (Pg.PWT (sPassReq.dev.dutyGrp c)) = true ∧ sPassReq.dev.flag (R.CTX_SPEC c) F.CTX_SPEC_PW_ERR = false) ∧
      (sPassReq.dev.ctxS 3).pend = none ∧ (sPassReq.dev.ctxS 4).pend ≠ none) ∧
    (∀ c ∈ [5, 6], (sPassReq.dev.ctxS c).pend = some { f := 100 } ∧ 100 + ctxTout sPassReq.dev c ≤ sPassReq.dev.gtc ∧
      sPassReq.dev.freshBy c (100 + ctxTout sPassReq.dev c) = false ∧ sPassReq.dev.engHeld (sPassReq.dev.ctxEng c) = false) ∧
    (sPassReq.dev.ctxS 7).pend = some { f := 899 } ∧ sPassReq.dev.engHeld (sPassReq.dev.ctxEng 7) = false ∧ ctxLate sPassReq.dev 7 ≠ 0 ∧ sPassReq.dev.gtc % 8 = 0 ∧
    899 + ctxLate sPassReq.dev 7 < sPassReq.dev.gtc := by
  unfold State.Live State.Up; decide

/-- Engine 0 is free and context 8 ready; context 9 has run to its T_c on engine 1 for group 0; S0 holds contexts 10 to 13: 10 without a
stage, 11 with one of the first kind, 12 enabled. -/
def sPass : State := sv (dv DS.READY 1000 fun d =>
  { puts { d with member := .ehz0102 } ([(R.PG_CTRL Pg.LEC, F.PG_CTRL_EN, 1), (R.PG_CTRL (Pg.PWT 0), F.PG_CTRL_EN, 1),
      (R.LE_STAT 0, F.LE_STAT_RUN_CTX, 0xFF), (R.LE_STAT 1, F.LE_STAT_RUN_CTX, 9), (R.CTX_CTRL 9, F.CTX_CTRL_ENGINE, 1),
      (R.CTX_CTRL 8, F.CTX_CTRL_EN, 1), (R.CTX_CTRL 9, F.CTX_CTRL_EN, 1), (R.CTX_CTRL 12, F.CTX_CTRL_EN, 1),
      (R.CTX_TARGET 9, F.CTX_TARGET_DUTY_GRP, 0), (R.CTX_CTRL 11, F.CTX_CTRL_NSTAGE, 1), (R.CTX_STAT 8, F.CTX_STAT_D, 5), (R.LEC_CTRL, F.LEC_CTRL_ENG_EN, 3),
      (R.CTX_SD 11 0, F.CTX_SD_KIND, (nthD ⟨0, 0, [], [], 0, none⟩ kindTable 0).code),
      (R.CTX_SD 11 0, F.CTX_SD_LEN, (nthD ⟨0, 0, [], [], 0, none⟩ kindTable 0).words.length), (R.CTX_SPEC 13, F.CTX_SPEC_SUSP, 1),
      (R.CTX_SPEC 13, F.CTX_SPEC_FB_RUN, 3)] ++ [10, 11, 12, 13].map fun c => (R.LEC_CTX_CLAIM c, F.CLAIM_OWNER, 0)) with
    ctx := [(8, { pend := some { f := 990, ready := some 995 } }), (9, { run := some { f := 900, tc := 1000, snap := { tr := 900 } } }),
      (12, { pend := some {} })] })

/-- The same with words of context 8 that a pass meets: one that cannot be corrected, one that can. -/
def sPassBad (bad soft : List Nat) : State := { sPass with dev := sPass.dev.setCtx 8 { sPass.dev.ctxS 8 with bad, soft } }

theorem witness_Passes_errors :
    (sPassBad [5] []).Live ∧ (sPassBad [] [5]).Live ∧ (sPassBad [5] []).dev.passBad 8 = [8] ∧ (sPassBad [] [5]).dev.passBad 8 = [] ∧
    (sPassBad [] [5]).dev.passReads 8 8 5 = true ∧ (∀ s ∈ [sPassBad [5] [], sPassBad [] [5]], earliest (s.dev.startable 0) = some (990, 8)) ∧
    (sPass.dev.passBad 8 = [] ∧ (sPass.dev.ctxS 8).preset.isNone = true ∧
      ∀ x, x < nCtx sPass.dev.member → (sPass.dev.ctxS x).soft.any (sPass.dev.passReads 8 x) = false) ∧
    (sPass.dev.scrubDue = true ∧ sPass.dev.frozen Pg.LEC = false ∧ sPass.dev.ctxPresent 0 = true ∧
      sPass.dev.scrubWord ∉ (sPass.dev.ctxS sPass.dev.scrubCtx).bad ∧ sPass.dev.scrubWord ∉ (sPass.dev.ctxS sPass.dev.scrubCtx).soft) ∧
    { sPass.dev with sys := { sPass.dev.sys with scrubbed := 1001 } }.scrubDue = false := by
  unfold State.Live State.Up; decide

/-- EN = 1 with a number of stages. -/
def enWord (n : Nat) : Word := setF (setF 0 F.CTX_CTRL_EN 1) F.CTX_CTRL_NSTAGE n

theorem witness_Passes :
    (sPass.Live ∧ 0 < nEngines sPass.dev.member ∧ sPass.dev.engOn 0 = true ∧ sPass.dev.engHeld (sPass.dev.ctxEng 9) = false ∧ sPass.dev.gtc % 8 = 0 ∧
      sPass.dev.get (R.LE_STAT 0) F.LE_STAT_RUN_CTX = 0xFF ∧ sPass.dev.rplBusy 0 = false ∧
      earliest (sPass.dev.startable 0) = some (990, 8) ∧ (sPass.dev.ctxS 8).pend ≠ none) ∧
    (9 < nCtx sPass.dev.member ∧ ((sPass.dev.ctxS 9).run.map fun r => (r.spec, r.tc, r.res.state, r.res.sat)) = some (false, 1000, [], 0) ∧
      1000 ≤ sPass.dev.gtc ∧ sPass.dev.devState ≠ DS.FATAL ∧ sPass.dev.dutyGrp 9 < 20 ∧ sPass.dev.pwmEn (sPass.dev.dutyGrp 9) = true) := by
  unfold State.Live State.Up; decide

theorem witness_Passes_enable :
    (∀ c ∈ [10, 11, 12], c < nCtx sPass.dev.member ∧ sPass.dev.takenAt 0 (R.CTX_CTRL c) = true ∧
      sPass.dev.flag (R.CTX_CTRL c) F.CTX_CTRL_EN = (c == 12)) ∧
    (sPass.dev.flag R.RPL_STAT F.RPL_STAT_DIRTY = false ∧
      (sPass.dev.plainWrite 0 (R.CTX_CTRL 10) (setF (enWord 0) F.CTX_CTRL_EN 0)).ctxCause 10 ≠ 0) ∧
    sPass.dev.takenAt 0 (R.CTX_SPEC 13) = true ∧ sPass.dev.scrubCtx < nCtx sPass.dev.member := by
  decide

theorem witness_Passes_enabled : (sPass.dev.plainWrite 0 (R.CTX_CTRL 11) (setF (enWord 1) F.CTX_CTRL_EN 0)).ctxCause 11 = 0 := by decide

/-- Speculative passes of contexts 0 and 1 end, that of 1 past its horizon; recomputes of 2 and 3 are asked for on engines 0 and 1, that of 3
too late; the recompute of 4 has ended. -/
def sSpec : State := sv (dv DS.READY 1000 fun d =>
  { puts { d with member := .ehz0102 } [(R.PG_CTRL Pg.LEC, F.PG_CTRL_EN, 1), (R.CTX_CTRL 3, F.CTX_CTRL_ENGINE, 1),
      (R.LE_STAT 0, F.LE_STAT_RCP_CTX, 0xFF), (R.LE_STAT 1, F.LE_STAT_RCP_CTX, 0xFF), (R.CTX_STAT 2, F.CTX_STAT_D, 5)] with
    ctx := [(0, { run := some { spec := true, tc := 1000 }, spec := some { wins := [{ fOpen := some 900 }] } }),
      (1, { run := some { spec := true, tc := 1000 }, spec := some {}, tgt := [{ h := some 999 }] }),
      (2, { spec := some { rq := some 900 } }), (3, { spec := some { rq := some 900 }, tgt := [{ h := some 1001 }] }),
      (4, { spec := some { rq := some 900, rend := some 1000 } })] })

theorem witness_Speculation :
    (sSpec.Live ∧ (∀ c ∈ [0, 1], c < nCtx sSpec.dev.member ∧ ((sSpec.dev.ctxS c).run.map fun r => (r.spec, r.tc)) = some (true, 1000) ∧
        ((sSpec.dev.ctxS c).spec.map (·.rq)) = some none) ∧ 1000 ≤ sSpec.dev.gtc ∧ sSpec.dev.devState ≠ DS.FATAL ∧
      (∀ c ∈ [0, 1, 4], sSpec.dev.engHeld (sSpec.dev.ctxEng c) = false) ∧
      sSpec.dev.ctxH 0 = none ∧ ((sSpec.dev.ctxS 0).spec.map (·.wins)) = some [{ fOpen := some 900 }] ∧ sSpec.dev.ctxH 1 = some 999 ∧
      ((sSpec.dev.ctxS 1).spec.map (·.wins)) = some []) ∧
    (sSpec.dev.gtc % 8 = 0 ∧ (∀ n ∈ [0, 1], n < nEngines sSpec.dev.member ∧ sSpec.dev.engOn n = true ∧
        sSpec.dev.get (R.LE_STAT n) F.LE_STAT_RCP_CTX = 0xFF ∧ earliest (sSpec.dev.recompQueue n) = some (900, n + 2)) ∧
      sSpec.dev.ctxH 2 = none ∧ sSpec.dev.ctxH 3 = some 1001 ∧ 1001 < sSpec.dev.gtc + 8 * ((sSpec.dev.ctxS 3).spec.getD {}).recompFrames) ∧
    ((sSpec.dev.ctxS 4).spec = some { rq := some 900, rend := some 1000 } ∧
      (sSpec.dev.recompResult { rq := some 900, rend := some 1000 }).state = [] ∧
      (sSpec.dev.recompResult { rq := some 900, rend := some 1000 }).sat < 2 ^ 12) := by
  unfold State.Live State.Up; decide

/-! ### PWM -/

/-- Groups 0 and 1 are a pair, 2 and 3 another, both of the first enabled; group 4 waits for its first valley, the least period of group 5
is below what its dead times need. -/
def sPwm : State := sv (dv DS.READY 1000 fun d =>
  { puts d [(R.PG_CTRL (Pg.PWT 0), F.PG_CTRL_EN, 1), (R.PG_CTRL (Pg.PWT 1), F.PG_CTRL_EN, 1),
      (R.PG_CTRL (Pg.PWT 4), F.PG_CTRL_EN, 1), (R.PG_CTRL (Pg.PWT 2), F.PG_CTRL_EN, 1), (R.PWT_MINP 5, F.PWT_MINP_MINP, 601),
      (R.PWT_PER 5, F.PWT_PER_PER, 2000), (R.PG_CTRL (Pg.PWT 6), F.PG_CTRL_EN, 1), (R.PG_CTRL (Pg.PWT 12), F.PG_CTRL_EN, 1),
      (R.PG_CTRL (Pg.PWT 7), F.PG_CTRL_EN, 1), (R.PWT_CTRL 6, F.PWT_CTRL_DBL, 1)] with
    grp := [(0, { load := some (1008, false), nextVec := some ([(1, 0), (1, 0), (1, 0)], 999) }),
      (1, { load := some (1008, false), nextVec := some ([(1, 0), (1, 0), (1, 0)], 1000) }),
      (2, { load := some (1000, false), capd := true, v := 1000, p := 20000 }), (3, { vq := [(1016, 20000)] }),
      (4, { load := some (1000, false) }),
      (6, { load := some (1000, true), capd := true, v := 1000, p := 20000 }), (7, { load := some (1008, true), v := 500, p := 20000 })] }.setReg
        R.PWG_PAIR 3)

theorem witness_PwmGroups :
    (sPwm.Live ∧ sPwm.dev.asS0 0 .pwtB = true ∧ ∀ g ∈ [0, 1, 2, 3, 4, 5], groupPresent sPwm.dev.member g = true ∧
      sPwm.dev.ownOk 0 (.page (Pg.PWT g)) = true) ∧
    (sPwm.dev.pageEn (Pg.PWT 5) = false ∧ sPwm.dev.enableCause 5 ≠ 0 ∧ sPwm.dev.primOf 5 = none) ∧
    (sPwm.dev.pageEn (Pg.PWT 3) = false ∧ sPwm.dev.enableCause 3 = 0 ∧ sPwm.dev.primOf 3 = some 2) ∧
    (sPwm.dev.pageEn (Pg.PWT 8) = false ∧ sPwm.dev.enableCause 8 = 0 ∧ sPwm.dev.primOf 8 = none) ∧
    (sPwm.dev.pageEn (Pg.PWT 0) = true ∧ sPwm.dev.secOf 0 = some 1 ∧ sPwm.dev.pwmEn 1 = true) ∧
    ((sPwm.dev.grpS 4).load = some (1000, false) ∧ sPwm.dev.pageEn (Pg.PWT 4) = true ∧ 1000 ≤ sPwm.dev.gtc) ∧
    (sPwm.dev.takenAt 0 (R.PWT_COMMIT 4) = true ∧ sPwm.dev.pwmDsrc 4 = false ∧ ∀ g ∈ [2, 4, 6], sPwm.dev.frozen (Pg.PWT g) = false) := by
  unfold State.Live State.Up; decide

/-- A capture with a vector that came in time, one with a vector a tick too late, one of a peak; load points at a valley and at a peak. -/
theorem witness_PwmGroups_capture :
    (sPwm.dev.NoSpec ∧ sPwm.dev.captureDue 0 = some (1008, false) ∧ (sPwm.dev.grpS 0).nextVec = some ([(1, 0), (1, 0), (1, 0)], 999) ∧
      999 + 9 ≤ 1008 ∧ sPwm.dev.primOf 0 = none ∧ sPwm.dev.pwmMode 0 = 0) ∧
    (sPwm.dev.captureDue 1 = some (1008, false) ∧ (sPwm.dev.grpS 1).nextVec = some ([(1, 0), (1, 0), (1, 0)], 1000) ∧
      1008 < 1000 + 9 ∧ sPwm.dev.isTarget 1 1008 = false) ∧
    sPwm.dev.captureDue 7 = some (1008, true) ∧ sPwm.dev.loadDue 2 = some false ∧ (sPwm.dev.grpS 2).p < 2 ^ 20 ∧
    sPwm.dev.loadDue 6 = some true :=
  ⟨⟨fun _ => rfl, by decide⟩, by decide⟩

/-- Group 0 runs: leg 0 has a forced state that takes effect now, leg 1 a due turn-on that changes its output, leg 2 one of a leg whose
gates are closed; auxiliary group 12 has a due turn-on of a high side with a low bootstrap. Output 0 calibrates its line 1. -/
def sEdges : State := sv (dv DS.RUN 1000 fun d =>
  { puts { d with member := .ehz0102 } [(R.PG_CTRL (Pg.PWT 0), F.PG_CTRL_EN, 1), (R.PG_CTRL (Pg.PWT 12), F.PG_CTRL_EN, 1),
      (R.PWT_STAT 0, F.PWT_STAT_RUN, 1), (R.PWT_STAT 0, F.PWT_STAT_VALID, 1), (R.GDT_PINS 0, F.GDT_PINS_GENP_CMD, 1), (R.GDT_PINS 0, F.GDT_PINS_GENM_PIN, 1), (R.GDT_PINS 0, F.GDT_PINS_GENP_PIN, 1), (R.GDT_PINS 0, F.GDT_PINS_DRDY, 1),
      (R.GDA_LSTAT 0, F.GDA_LSTAT_UV 0, 1), (R.GDT_LSTAT 0, F.GDT_LSTAT_REL 2, 1), (R.PWG_DL_CTRL, F.PWG_DL_CTRL_BG_EN, 1),
      (R.CMP_BLANK 0, F.CMP_BLANK_AUTO_EN, 1), (R.CMP_BLANK 0, F.CMP_BLANK_AUTO_GRP, 0), (R.CMP_BLANK 0, F.CMP_BLANK_AUTO_LEN, 100)] with
    grp := [(0, { legs := [(0, { imm := some (3, 1000) })], edges := [{ leg := 1, hi := true, on := true, t := 64000, tick := 1000 },
        { leg := 2, hi := true, on := true, t := 64000, tick := 1000 }, { leg := 1, hi := false, on := false, t := 64064, tick := 1001 }] }),
      (12, { edges := [{ leg := 0, hi := true, on := true, t := 64000, tick := 1000 }] })] })

theorem witness_PwmEdges :
    sEdges.Live ∧ (sEdges.dev.takenAt 0 (R.PWT_LEG 0 1) = true ∧ sEdges.dev.pwmEn 0 = true) ∧
    ((sEdges.dev.legS 0 0).imm = some (3, 1000) ∧ 1000 ≤ sEdges.dev.gtc) ∧
    (∀ k ∈ [(0, 1), (0, 2), (12, 0)], ((sEdges.dev.grpS k.1).edges.find? fun z => z.leg == k.2 && z.hi && decide (z.tick ≤ sEdges.dev.gtc))
      = some { leg := k.2, hi := true, on := true, t := 64000, tick := 1000 }) ∧
    (∀ k ∈ [(0, 1, true), (0, 2, false), (12, 0, false)], (sEdges.dev.takeEdge k.1 k.2.1 true).map (·.pinsMoved k.1) = some k.2.2 ∧
      sEdges.dev.frozen (Pg.PWT k.1) = false) ∧ sEdges.dev.frozen Pg.PWG = false ∧
    ((sEdges.dev.takeEdge 0 1 true).map (·.pinOut 0 1 true)) = some true ∧ sEdges.dev.pinOut 0 1 true = false ∧
    ((sEdges.dev.takeEdge 0 2 true).map fun f => (f.pinOut 0 2 true, f.pinOut 0 2 false)) =
      some (sEdges.dev.pinOut 0 2 true, sEdges.dev.pinOut 0 2 false) ∧
    (12 ≤ 12 ∧ sEdges.dev.flag (gdLstat 12) (F.GDA_LSTAT_UV 0) = true ∧ (sEdges.dev.takeEdge 12 0 true).isSome = true) ∧
    (0 < nCmp sEdges.dev.member ∧ sEdges.dev.flag (R.CMP_BLANK 0) F.CMP_BLANK_AUTO_EN = true ∧
      sEdges.dev.get (R.CMP_BLANK 0) F.CMP_BLANK_AUTO_GRP = 0 ∧ sEdges.dev.get (R.CMP_BLANK 0) F.CMP_BLANK_AUTO_LEN = 100) ∧
    sEdges.dev.dlCalOk 0 1 = true := by
  unfold State.Live State.Up; decide

theorem witness_PwmEdges_lines : dlBad (List.replicate 64 39063) = false ∧ dlBad (List.replicate 64 39000) = true := by decide

/-! ### Gate drive -/

/-- Group 0 grants, group 1 does not; group 2 reports ready for its ENA_OFF after its removal; groups 3 and 4 have waited for ready for
their DRDY_TOUT, 4 in an arming machine; auxiliary group 12 refreshes its legs, leg 1 for the third time; only group 13 releases on a low
bootstrap. -/
def sGate : State := sv (dv DS.READY 5000 fun d =>
  { puts d [(R.GDT_PINS 0, F.GDT_PINS_GENP_CMD, 1), (R.GDT_GCFG 0, F.GDT_GCFG_DRDY_EN, 1), (R.GDT_PINS 2, F.GDT_PINS_DRDY, 1),
      (R.GDT_GCFG 2, F.GDT_GCFG_ENA_OFF, 1), (R.GDT_GCFG 3, F.GDT_GCFG_DRDY_TOUT, 1), (R.GDT_GCFG 4, F.GDT_GCFG_DRDY_TOUT, 1),
      (R.GDA_GCFG 0, F.GDA_GCFG_BST_POL, 0), (R.GDA_GCFG 1, F.GDA_GCFG_BST_POL, 1), (R.GDA_GCFG 0, F.GDA_GCFG_UV, 0),
      (R.GDA_LSTAT 0, F.rfCnt 1, 2), (R.GDA_STAT, F.GDA_STAT_VGD_OK, 1)] with
    grp := [(0, { rdyAcc := true }), (2, { chkAt := some 4600 }), (3, { waitAt := some 1000 }), (4, { waitAt := some 1000 }),
      (12, { legs := [(0, { rfSample := some 5000 }), (1, { rfSample := some 4999 })] })]
    mach := [(4, { defd := true, stat := 0x10000000, target := some MS.RUN })] })

theorem witness_GateReadiness :
    (sGate.Live ∧ ∀ g ∈ [0, 1, 2, 3, 4], groupPresent sGate.dev.member g = true) ∧
    ((sGate.dev.grpS 0).rdyAcc && sGate.dev.genP 0 && sGate.dev.flag (R.GDT_GCFG 0) F.GDT_GCFG_DRDY_EN) = true ∧
    ((sGate.dev.grpS 1).rdyAcc && sGate.dev.genP 1 && sGate.dev.flag (R.GDT_GCFG 1) F.GDT_GCFG_DRDY_EN) = false ∧
    ((sGate.dev.grpS 2).chkAt = some 4600 ∧ 4600 + 400 * max (sGate.dev.get (R.GDT_GCFG 2) F.GDT_GCFG_ENA_OFF) 1 = sGate.dev.gtc ∧
      sGate.dev.drdy 2 = true) ∧
    (∀ g ∈ [3, 4], (sGate.dev.grpS g).waitAt = some 1000 ∧
      1000 + 4000 * max (sGate.dev.get (R.GDT_GCFG g) F.GDT_GCFG_DRDY_TOUT) 1 = sGate.dev.gtc) ∧
    (sGate.dev.frozen Pg.GDT = false ∧ sGate.dev.frozen Pg.GDA = false ∧ (sGate.dev.grpS 0).waitAt = none ∧
      5000 < { sGate.dev with gtc := 5001 }.gtc) ∧
    sGate.dev.machOf 3 = none ∧ sGate.dev.machOf 4 = some 4 ∧ (sGate.dev.machS 4).target ≠ none ∧ (sGate.dev.machS 4).armed = false := by
  unfold State.Live State.Up; decide

theorem witness_GateReadiness_aux :
    (0 < nAux sGate.dev.member ∧ 1 < nAux sGate.dev.member ∧ sGate.dev.flag (R.GDA_GCFG 0) F.GDA_GCFG_BST_POL = false ∧
      sGate.dev.flag (R.GDA_GCFG 1) F.GDA_GCFG_BST_POL = true ∧ sGate.dev.uvLevel 0 + 500 = 7500) ∧
    ((sGate.dev.legS 12 0).rfSample = some 5000 ∧ 5000 ≤ sGate.dev.gtc) ∧ ((sGate.dev.legS 12 1).rfSample = some 4999 ∧
      sGate.dev.get (R.GDA_LSTAT 0) (F.rfCnt 1) = 2 ∧ sGate.dev.legReleased 12 1 = false) ∧
    sGate.dev.flag R.GDA_STAT F.GDA_STAT_VGD_OK = true := by
  decide

/-- Legs 0 and 1 of group 0 are released, the fault input of leg 1 is still active; auxiliary group 12 is commutated by the host. -/
def sLegs : State := sv (dv DS.READY 1000 fun d =>
  (puts d [(R.GDT_LSTAT 0, F.GDT_LSTAT_REL 0, 1), (R.GDT_LSTAT 0, F.GDT_LSTAT_REL 1, 1), (R.GDT_LSTAT 0, F.GDT_LSTAT_CAUSE 0, 2),
    (R.GDA_GCFG 0, F.GDA_GCFG_CMD, 1)]).setReg (R.GDT_PINS 0) 0x02000000)

theorem witness_LegReleases :
    (sLegs.Live ∧ ∀ g ∈ [0, 11, 12, 19], groupPresent sLegs.dev.member g = true) ∧ sLegs.dev.legReleased 0 2 = false ∧
    (sLegs.dev.legReleased 0 0 = true ∧ sLegs.dev.legReleased 0 1 = true ∧ sLegs.dev.clearOk 0 0 = true ∧ sLegs.dev.clearOk 0 1 = false ∧
      sLegs.dev.takenAt 0 (gdLcmd 0) = true) ∧
    (0 < nAux sLegs.dev.member ∧ sLegs.dev.takenAt 0 (R.GDA_COMM 0) = true ∧ sLegs.dev.isComm 12 = true ∧
      sLegs.dev.flag (R.GDA_GCFG 0) F.GDA_GCFG_COMM_SRC = false) := by
  unfold State.Live State.Up; decide

/-! ### Machine control -/

/-- A machine in a state. -/
def mst (st : Nat) : MachSt := { defd := true, stat := BitVec.ofNat 32 (st * 2 ^ 28) }

/-- Word 0 of the descriptor of a machine without a sensor. -/
def sensorless (m : Nat) : Word := setF (mdReset m 0) F.MD_SENSORLESS 1

/-- Machines 0 and 1 arm; 2 to 6 have measured; the timers of 7 to 13 have just expired; context 0 reports LOCKED_ON for machine 8. -/
def sTimers : State := sv (dv DS.RUN 1000000000 fun d =>
  { puts d [(R.PWT_STAT 0, F.PWT_STAT_RUN, 1), (R.PWT_STAT 0, F.PWT_STAT_VALID, 1), (R.GDT_PINS 0, F.GDT_PINS_GENP_CMD, 1),
      (R.GDT_PINS 0, F.GDT_PINS_GENP_PIN, 1), (R.GDT_PINS 0, F.GDT_PINS_GENM_PIN, 1), (R.GDT_PINS 0, F.GDT_PINS_DRDY, 1),
      (R.PG_CTRL (Pg.PWT 0), F.PG_CTRL_EN, 1), (R.TRK_STAT 3, F.TRK_STAT_VALID, 1), (R.TRK_STAT 4, F.TRK_STAT_VALID, 1),
      (R.CTX_OMAP 0 4, F.CTX_OMAP_EXP_L, 4), (R.CTX_CTRL 0, F.CTX_CTRL_EN, 1)] with
    trk := [(4, { spd := 1000000 })]
    mach := [(0, { mst MS.STO with target := some MS.RUN }), (1, { mst MS.STO with target := some MS.RUN, armAt := 996000000 }),
      (2, { mst MS.CATCH with since := 999980000 }), (3, { mst MS.CATCH with since := 999980000 }),
      (4, { mst MS.CATCH with since := 999980000 }),
      (5, { mst MS.CATCH with since := 992000000, md := [(0, setF (sensorless 5) F.MD_ALIGN 1), (4, 1)] }),
      (6, { mst MS.CATCH with since := 992000000, md := [(0, sensorless 6), (4, 1)] }),
      (7, { mst MS.ALIGN with since := 920000000 }), (8, { mst MS.START with winAt := some 200000000, md := [(1, 0x00FFFF00)] }),
      (9, { defd := true, stat := 0x60000030, winAt := some 200000000 }), (10, { defd := true, stat := 0x60000020, winAt := some 200000000 }),
      (11, { mst MS.START with retryAt := some 920000000 }), (12, { mst MS.STOP with slowAt := some 960000000 }),
      (13, { mst MS.DISCHARGE with since := 200000000 })] }.setReg (R.CTX_OUT 0 8) 0x40000)

/-- The same while S0 is held in reset. -/
def sTimersHeld : State := { sTimers with dev := sTimers.dev.put R.RST_DOM F.RST_DOM_S0_HELD 1 }

theorem witness_MachineTimers :
    (sTimers.Live ∧ sTimers.dev.flag R.RST_DOM F.RST_DOM_S0_HELD = false ∧ ∀ m ∈ List.range 14, sTimers.dev.mDefined m = true) ∧
    (∀ m ∈ [1, 8, 9, 10], sTimers.dev.reactCode m = 0) ∧ sTimersHeld.Live ∧ sTimersHeld.dev.flag R.RST_DOM F.RST_DOM_S0_HELD = true ∧
    sTimersHeld.dev.mState 0 ≠ MS.OFF ∧
    (∀ m ∈ [0, 1], (sTimers.dev.machS m).target ≠ none ∧ (sTimers.dev.machS m).armed = false ∧ sTimers.dev.armHigh m = (m == 0)) ∧
    (sTimers.dev.mGroups 0 = [0] ∧ sTimers.dev.takenAt Mid.S0 (R.PWT_LEG 0 2) = true) ∧
    (sTimers.dev.machS 1).armAt + msTicks (max 1 (sTimers.dev.md 1 15 F.MD_ARM_TOUT)) = sTimers.dev.gtc ∧
    (∀ m ∈ [2, 3, 4, 5, 6], sTimers.dev.mState m = MS.CATCH ∧ (sTimers.dev.machS m).ready = none ∧ (sTimers.dev.machS m).target = none ∧
      (sTimers.dev.machS m).clr = false ∧ (sTimers.dev.catchResult m).isSome = true) ∧
    (sTimers.dev.catchResult 2 = some none ∧ sTimers.dev.mSensorless 2 = false) ∧
    (∀ k ∈ [(3, false, true), (4, false, false), (5, true, true), (6, true, true)],
      (sTimers.dev.catchResult k.1).map (·.map fun r =>
          (r.1.abs.lt (sTimers.dev.mdSpeed k.1 4 F.MD_LO), r.1.abs.le (sTimers.dev.mdSpeed k.1 5 F.MD_HI)))
        = some (some k.2)) ∧
    (sTimers.dev.mSensorless 5 = true ∧ sTimers.dev.md 5 0 F.MD_ALIGN = 1 ∧ sTimers.dev.mStat 5 F.MD_ATTEMPT = 0 ∧
      sTimers.dev.mSensorless 6 = true ∧ sTimers.dev.md 6 0 F.MD_ALIGN = 0) := by
  unfold State.Live State.Up; decide

theorem witness_MachineTimers_ends :
    (sTimers.dev.mState 7 = MS.ALIGN ∧ (sTimers.dev.machS 7).since + msTicks (sTimers.dev.md 7 15 F.MD_ALIGN_T) = sTimers.dev.gtc) ∧
    (∀ m ∈ [8, 9, 10], sTimers.dev.mState m = MS.START ∧ (sTimers.dev.machS m).winAt = some 200000000 ∧
      200000000 + msTicks (sTimers.dev.md m 8 F.MD_LO) = sTimers.dev.gtc ∧ (sTimers.dev.machS m).retryAt = none ∧
      (sTimers.dev.machS m).rev = false ∧ (sTimers.dev.mOut8 m = 8) = (m = 8)) ∧
    (sTimers.dev.md 9 8 F.MD_RETRY = sTimers.dev.mStat 9 F.MD_ATTEMPT ∧ sTimers.dev.mStat 10 F.MD_ATTEMPT < sTimers.dev.md 10 8 F.MD_RETRY) ∧
    (sTimers.dev.mState 11 = MS.START ∧ (sTimers.dev.machS 11).retryAt = some 920000000 ∧
      920000000 + msTicks (sTimers.dev.md 11 15 F.MD_RETRY_WAIT) = sTimers.dev.gtc) ∧
    (sTimers.dev.mState 12 = MS.STOP ∧ (sTimers.dev.machS 12).slowAt = some 960000000 ∧ 960000000 + msTicks 100 = sTimers.dev.gtc ∧
      sTimers.dev.devState ≠ DS.OVERCAST) ∧
    (sTimers.dev.mState 13 = MS.DISCHARGE ∧ sTimers.dev.mStat 13 F.MD_DIS_LATE = 0 ∧
      (sTimers.dev.machS 13).since + msTicks (sTimers.dev.md 13 13 F.MD_DIS_DL) = sTimers.dev.gtc) := by
  decide

/-- Word 0 of the descriptor of a six-phase machine. -/
def sixPhase (m : Nat) : Word := setF (mdReset m 0) F.MD_SIX 1

/-- Machines 1 and 2 have a released leg, 2 in ASC; the pairs 4/5 and 6/7 have released both sets and one; Channel M has withdrawn its
enable of group 10; context 1 of six-phase machine 8 has an uncorrectable error; machine 3 is locked, 11 has lost its observer above
UCG, 12 below; 13 reports LOCKED_ON; 14 is discharged. -/
def sEval : State := sv (dv DS.RUN 1000000000 fun d =>
  { puts d [(R.PWT_STAT 10, F.PWT_STAT_RUN, 1), (R.PWT_STAT 10, F.PWT_STAT_VALID, 1), (R.GDT_LSTAT 1, F.GDT_LSTAT_REL 0, 1), (R.GDT_LSTAT 2, F.GDT_LSTAT_REL 0, 1), (R.GDT_LSTAT 4, F.GDT_LSTAT_REL 0, 1),
      (R.GDT_LSTAT 5, F.GDT_LSTAT_REL 2, 1), (R.GDT_LSTAT 6, F.GDT_LSTAT_REL 0, 1), (R.GDT_PINS 10, F.GDT_PINS_GENP_CMD, 1),
      (R.CTX_STAT 1, F.CTX_STAT_ECC_ERR, 1), (R.TRK_STAT 11, F.TRK_STAT_STALE, 1), (R.TRK_STAT 12, F.TRK_STAT_STALE, 1),
      (R.CTX_OMAP 0 4, F.CTX_OMAP_EXP_L, 4), (R.CTX_OMAP 2 3, F.CTX_OMAP_EXP_L, 4)] with
    grp := (List.range 15).map fun g => (g, { idx := 1, asc := g == 2 })
    mach := [(0, mst MS.STO), (1, mst MS.RUN), (2, mst MS.RUN), (3, { mst MS.RUN with
        lockFrom := some 800000000, md := [(1, 0x02FFFF00), (10, 0x00010200), (11, mdReset 3 11)] }),
      (4, { mst MS.RUN with md := [(0, sixPhase 4)] }), (6, { mst MS.STOP with md := [(0, sixPhase 6)] }),
      (8, { mst MS.RUN with md := [(0, sixPhase 8), (1, 0x01FFFF00)] }), (10, mst MS.RUN), (11, mst MS.RUN),
      (12, { mst MS.RUN with md := [(4, 0x00010000)] }), (13, { mst MS.START with md := [(1, 0x00FFFF00)] }),
      (14, { mst MS.DISCHARGE with md := [(2, 0)] })] }.setReg (R.CTX_OUT 0 8) 0x40000 |>.setReg (R.CTX_OUT 2 6) 0x40000 |>.setReg R.PWG_PAIR 0x1C)

/-- The same with machine 0 evaluated in this period. -/
def sEvalDone : State := { sEval with dev := sEval.dev.setMach 0 { sEval.dev.machS 0 with evalAt := (0, 1) } }

theorem witness_MachineEvaluation :
    (sEval.Live ∧ sEval.dev.flag R.RST_DOM F.RST_DOM_S0_HELD = false ∧ sEval.dev.devState ≠ DS.OVERCAST ∧
      ∀ m ∈ [0, 1, 2, 3, 4, 6, 8, 10, 11, 12, 13, 14], sEval.dev.mDefined m = true ∧ sEval.dev.mState m ≠ MS.OFF ∧ sEval.dev.evalDue m = true) ∧
    (sEvalDone.Live ∧ sEvalDone.dev.evalDue 0 = false ∧ sEvalDone.dev.mDefined 0 = true ∧ sEvalDone.dev.mState 0 ≠ MS.OFF) ∧
    (∀ m ∈ [1, 2, 4, 6], drives (sEval.dev.mState m) = true ∧ sEval.dev.releaseNew m = true ∧ sEval.dev.mSix m = decide (4 ≤ m) ∧
      (sEval.dev.grpS m).asc = (m == 2)) ∧
    (sEval.dev.setsReleased 4 = 3 ∧ sEval.dev.setsReleased 6 = 1 ∧ sEval.dev.mState 6 = MS.STOP ∧ sEval.dev.mStat 6 F.MD_DEGRADED = 0) ∧
    (sEval.dev.flag R.SAFE_STAT F.SAFE_STAT_STO_P_IN = false ∧ sEval.dev.genmGone 10 = true ∧
      ∀ m ∈ [0, 3, 8, 11, 12, 13, 14], sEval.dev.genmGone m = false ∧ sEval.dev.releaseNew m = false) ∧
    (sEval.dev.ctxEcc (sEval.dev.mMain 8) = true ∧ sEval.dev.mSix 8 = true) := by
  unfold State.Live State.Up; decide

/-- The device after what an evaluation notes first. -/
def noted (s : State) (m : Nat) : Dev :=
  let f := s.dev.setMach m { s.dev.machS m with evalAt := s.dev.updKey m }
  (if drives (s.dev.mState m) then (f.noteSpeed m).noteLock m else f).legPolicy m

theorem witness_MachineEvaluation_lost :
    (∀ m ∈ [3, 11, 12, 13], drives (sEval.dev.mState m) = true ∧ (sEval.dev.machS m).retryAt = none ∧
      sEval.dev.ctxEcc (sEval.dev.mMain m) = false ∧ sEval.dev.ctxEcc (sEval.dev.mSpd m) = false ∧
      (noted sEval m).obsLost m = (m == 11 || m == 12)) ∧ (noted sEval 3).locked 3 = true ∧ (noted sEval 13).locked 13 = false ∧
    (sEval.dev.mdSpeed 11 4 F.MD_HI).le ((noted sEval 11).machS 11).trust.abs = true ∧
    (sEval.dev.mdSpeed 12 4 F.MD_HI).le ((noted sEval 12).machS 12).trust.abs = false ∧ (noted sEval 13).mOut8 13 = 8 ∧
    (sEval.dev.mState 14 = MS.DISCHARGE ∧ sEval.dev.md 14 2 F.MD_ACC_VDC = 0 ∧ 0 < nAcc sEval.dev.member ∧
      (sEval.dev.accValue 0).le (sEval.dev.mdTenth 14 14 F.MD_HI) = true) := by
  decide

/-- The STO input of Channel P falls while machine 0 runs and machine 1 stands in FAULT to arm. -/
def sEvalSto : State := sv (dv DS.READY 1000 fun d =>
  { d.put R.SAFE_STAT F.SAFE_STAT_STO_P_IN 1 with
    mach := [(0, mst MS.RUN), (1, { mst MS.FAULT with target := some MS.STO })], grp := [(0, { idx := 1 }), (1, { idx := 1 })] })

theorem witness_MachineEvaluation_sto :
    sEvalSto.Live ∧ sEvalSto.dev.flag R.SAFE_STAT F.SAFE_STAT_STO_P_IN = true ∧ ∀ m ∈ [0, 1], sEvalSto.dev.mDefined m = true ∧
      sEvalSto.dev.evalDue m = true ∧ sEvalSto.dev.releaseNew m = false ∧ (sEvalSto.dev.mState m ≠ MS.FAULT ∨ (sEvalSto.dev.machS m).target ≠ none) := by
  unfold State.Live State.Up; decide

/-! ### Safety functions -/

/-- Channel M's copy of a safety parameter block: its device word, words of entries 0 to 3, each enabled, and further words. -/
def blockM (dev : Word) (l : Sparse Word) : Sparse Word :=
  ([(16, dev), (112, 0x80000100), (144, 0x80000100), (176, 0x80000100), (208, 0x80800100)] ++ l).foldl (fun a (x : Nat × Word) => spPut 0 a x.1 x.2) []

/-- READY, no input active: entry 0 has a stop whose time is up, entry 1 a trip that may be acknowledged, entry 2 one whose counter still
stands, entry 3 a late discharge. -/
def sSto : State := sv (dv DS.READY 1000000000 fun d =>
  { puts (d.setReg R.SAFE_TRIP 6) [(R.TM_STAT 1, F.TM_STAT_CAUSE, 2), (R.TM_STAT 2, F.TM_STAT_CAUSE, 2), (R.TM_CNT 2, tmCntF 1, 1)] with
    safe := { d.safe with spbM := blockM 0 [], disM := [(3, { at1 := 1000000001 })] }
    tm := [(0, { ss1 := some { t0 := 999999000, tmax := 1000 } }), (1, { byTrip := true, trips := [2] }),
      (2, { byTrip := true, trips := [2] })] })

theorem witness_SafeTorqueOff :
    sSto.Up ∧ (sSto.dev.frozen Pg.TMON = false ∧ sSto.dev.frozen Pg.SAFE = false ∧ sSto.dev.flag R.SAFE_STAT F.SAFE_STAT_STO_P_IN = false ∧ sSto.dev.flag R.SAFE_STAT F.SAFE_STAT_STO_M_IN = false) ∧
    (∀ a ∈ [R.SAFE_REQ_STO, R.SAFE_REQ_SS1, R.SAFE_ACK], sSto.dev.takenAt Mid.S1 a = true) ∧
    (∀ m ∈ [0, 1, 2, 3], sSto.dev.meEn m = true ∧ bitOf (sSto.dev.reg R.SAFE_REQ_STO) m = false ∧
      bitOf (sSto.dev.reg R.SAFE_REQ_SS1) m = false) ∧
    (sSto.dev.tmS 1).ss1 = none ∧ (sSto.dev.tripped 1 = true ∧ sSto.dev.ackBlocked 1 = false) ∧ sSto.dev.ackBlocked 2 = true ∧
    ((sSto.dev.tmS 0).ss1 = some { t0 := 999999000, tmax := 1000 } ∧ 999999000 + 1000 ≤ sSto.dev.gtc) ∧
    (spGet {} sSto.dev.safe.disM 3 = { at1 := 1000000001 } ∧
      1000000001 + msTicks (sSto.dev.me 3 13 F.ME_ASC_DIS_DL_M) = sSto.dev.gtc + 1) := by
  unfold State.Up; decide

/-- Both inputs are active and have latched entry 0; a device whose STO_AUTO reads `a`. -/
def sStoIn (a : Nat) : State := sv (dv DS.READY 1000 fun d =>
  { puts (d.setReg R.SAFE_TRIP 1) [(R.SAFE_STAT, F.SAFE_STAT_STO_P_IN, 1), (R.SAFE_STAT, F.SAFE_STAT_STO_M_IN, 1)] with
    safe := { d.safe with spbM := blockM (setF 0 F.SD_DEV_STO_AUTO a) [] }
    tm := [(0, { byIn := true })] })

theorem witness_SafeTorqueOff_release : ∀ a ∈ [0, 1], (sStoIn a).dev.devState ≠ DS.RESET ∧
    (sStoIn a).dev.flag R.SAFE_STAT F.SAFE_STAT_STO_P_IN = true ∧ (sStoIn a).dev.flag R.SAFE_STAT F.SAFE_STAT_STO_M_IN = true ∧
    (sStoIn a).dev.sdDev F.SD_DEV_STO_AUTO = a ∧ ((sStoIn a).dev.tmS 0).byIn = true := by
  decide

/-- SAFE_HOLD after a demand fault: machine 3 continues in ASC and has been slow for 20 ms; entry 0 continues too, its outputs give a
torque in the direction of its speed, above a limit of 0. -/
def sHoldAsc : State := sv (dv DS.SAFE_HOLD 1000000000 fun d =>
  { puts d [(R.SAFE_HOLD_INFO, F.SAFE_HOLD_INFO_CAUSE, 4), (R.SHD_STAT 0, F.SHD_STAT_VALID, 1)] with
    safe := { d.safe with keep := 9, spbM := blockM 0x00100000 [(113, 0x00013F00), (115, 0x00640000), (116, 100000)] }
    tm := [(3, { slow := some 992000000 }), (0, { smp := [{ role := 0, y := -80000, ang := 0x4000000000 }, { role := 1, y := 4000000 }] })]
    mach := [(3, mst MS.ASC)] }.setReg (R.SHD_SPD 0) 0x10000000)

theorem witness_SafeTorqueOff_hold :
    sHoldAsc.Up ∧ sHoldAsc.dev.meEn 3 = true ∧ (sHoldAsc.dev.tmS 3).slow = some 992000000 ∧ 992000000 + msTicks 20 = sHoldAsc.dev.gtc ∧
    sHoldAsc.dev.devState = DS.SAFE_HOLD ∧ sHoldAsc.dev.me 3 0 F.ME_CFG_ASC_HOLD = 1 ∧ sHoldAsc.dev.mState 3 = MS.ASC ∧
    sHoldAsc.dev.safe.keep / 2 ^ 3 % 2 = 1 ∧ sHoldAsc.dev.frozen Pg.SAFE = false := by
  unfold State.Up; decide

/-- The interval of entries 0 and 1 has ended; entry 0 has both its currents and a valid shadow, entry 1 no output at all. -/
def sTmon : State := sv (dv DS.RUN 1000000 fun d =>
  { puts d [(R.SHD_STAT 0, F.SHD_STAT_VALID, 1)] with
    safe := { d.safe with base := some 0, spbM := blockM 0x19100000 [(113, 0x00013F00), (115, 0x00640000), (116, 100000)] }
    tm := [(0, { next := 1000000, smp := [{ role := 0, y := -80000, ang := 0x4000000000 }, { role := 1, y := 4000000 },
      { role := 1, tick := 1000000 }] }), (1, { next := 1000000 })] }.setReg (R.SHD_SPD 0) 0x10000000)

theorem witness_TorqueMonitor :
    sTmon.Live ∧ sTmon.dev.safe.base ≠ none ∧ (∀ m ∈ [0, 1], sTmon.dev.meEn m = true ∧ (sTmon.dev.tmS m).next ≤ sTmon.dev.gtc ∧
      sTmon.dev.me m 0 F.ME_CFG_ANG_SRC = 0) ∧ sTmon.dev.devState ≠ DS.SAFE_HOLD ∧
    (-(2 ^ 31) ≤ sTmon.dev.tmSpeed 0 ∧ sTmon.dev.tmSpeed 0 < 2 ^ 31) ∧ sTmon.dev.frozen Pg.TMON = false ∧
    sTmon.dev.flag (R.SHD_STAT (sTmon.dev.meShd 0)) F.SHD_STAT_VALID = true ∧
    (sTmon.dev.tmEstimate 1 ((sTmon.dev.tmS 1).smp.filter fun y => decide (y.tick < (sTmon.dev.tmS 1).next)) = none ∧
      sTmon.dev.get (R.TM_CNT 1) (tmCntF 5) = 0 ∧ sTmon.dev.sdDev F.SD_DEV_FILT_N = 1) := by
  unfold State.Live State.Up; decide

theorem witness_TorqueMonitor_estimate :
    sTmon.dev.tmEstimate 0 ((sTmon.dev.tmS 0).smp.filter fun y => decide (y.tick < (sTmon.dev.tmS 0).next)) = some (215, -224, 22941) := by
  decide

/-- The same while S1 is held in reset. -/
def sHold1 : State := { sHoldAsc with dev := sHoldAsc.dev.put R.RST_DOM F.RST_DOM_S1_HELD 1 }

theorem witness_TorqueMonitor_hold :
    (sHoldAsc.Live ∧ sHoldAsc.dev.meEn 0 = true ∧ sHoldAsc.dev.safe.uncAt ≤ sHoldAsc.dev.gtc ∧ sHoldAsc.dev.flag R.RST_DOM F.RST_DOM_S1_HELD = false) ∧
    (sHold1.Live ∧ sHold1.dev.meEn 0 = true ∧ sHold1.dev.flag R.RST_DOM F.RST_DOM_S1_HELD = true) ∧ sHoldAsc.dev.get R.SAFE_HOLD_INFO F.SAFE_HOLD_INFO_CAUSE = 4 ∧
    sHoldAsc.dev.safe.keep / 2 ^ 0 % 2 = 1 ∧ sHoldAsc.dev.me 0 0 F.ME_CFG_ANG_SRC = 0 ∧ sHoldAsc.dev.tmEstimate 0 (sHoldAsc.dev.tmS 0).smp = some (215, -224, 22941) ∧
    0 < sHoldAsc.dev.tmSpeed 0 ∧ q8 (sHoldAsc.dev.me 0 9 F.ME_TQ_TQ_ABS) 10 < 215 ∧
    sHoldAsc.dev.get (R.TM_CNT 0) (tmCntF 0) = 0 ∧ sHoldAsc.dev.sdDev F.SD_DEV_FILT_N = 1 := by
  unfold State.Live State.Up; decide

/-- RUN; the copies of the block are equal, the two channels' CRCs are not, so that one of them no longer matches. -/
def sRecheck : State := sv (dv DS.RUN 1000 fun d => d.setReg R.SAFE_CRC_P 1)

theorem witness_TorqueMonitor_recheck :
    sRecheck.Live ∧ (sRecheck.dev.devState = DS.RUN ∧ sRecheck.dev.frozen Pg.SAFE = false) ∧ (spbCrc sRecheck.dev.safe.spbP ≠ sRecheck.dev.reg R.SAFE_CRC_P ∨
      spbCrc sRecheck.dev.safe.spbM ≠ sRecheck.dev.reg R.SAFE_CRC_M) := by
  refine ⟨by unfold State.Live State.Up; decide, by decide, ?_⟩
  by_cases h : spbCrc sRecheck.dev.safe.spbP = sRecheck.dev.reg R.SAFE_CRC_P
  · exact .inr fun g => absurd ((show spbCrc sRecheck.dev.safe.spbM = spbCrc sRecheck.dev.safe.spbP from rfl).symm.trans g)
      (by rw [h]; decide)
  · exact .inl h

/-- COMMISSION with a loaded block; S0 has the key of SAFE; the CRCs read 5 and `m`, two confirmations have failed. -/
def sConfirm (m : Word) : State := sv (dv DS.COMMISSION 1000 fun d =>
  (((puts d [(R.SAFE_STAT, F.SAFE_STAT_SPB_LOADED, 1), (R.SAFE_STAT, F.SAFE_STAT_CONF_FAILS, 2)]).setKey Pg.SAFE
    { win := some (0, 1000) }).setReg R.SAFE_CRC_P 5).setReg R.SAFE_CRC_M m)

theorem witness_TorqueMonitor_confirm :
    (sConfirm 5).Live ∧ (sConfirm 5).dev.confirmOk 0 = true ∧ (sConfirm 6).dev.confirmOk 0 = true ∧
    (sConfirm 5).dev.confirmOk Mid.PCIE = false := by
  unfold State.Live State.Up; decide

theorem witness_TorqueMonitor_good :
    ((5 : Word) = (sConfirm 5).dev.reg R.SAFE_CRC_P ∧ (5 : Word) = (sConfirm 5).dev.reg R.SAFE_CRC_M ∧
      (sConfirm 5).dev.devState = DS.COMMISSION ∧ (sConfirm 5).dev.flag R.SAFE_STAT F.SAFE_STAT_SPB_LOADED = true ∧
      (sConfirm 5).dev.get R.SAFE_STAT F.SAFE_STAT_SPB_ERR = 0) ∧
    (5 : Word) ≠ (sConfirm 6).dev.reg R.SAFE_CRC_M ∧ (sConfirm 6).dev.get R.SAFE_STAT F.SAFE_STAT_CONF_FAILS = 2 := by
  decide

/-! ### Mailboxes, locks, windows -/

/-- A channel bound between S0 as side A and S1 as side B, by S0. -/
def boundTo (d : Dev) (c : Nat) : Dev :=
  puts d [(R.MBX_BIND c, F.MBX_BIND_VALID, 1), (R.MBX_BIND c, F.MBX_BIND_MID_A, 0), (R.MBX_BIND c, F.MBX_BIND_MID_B, 1),
    (R.MBX_BIND c, F.MBX_BIND_OWNER, 0)]

/-- CONFIGURE: channel 2 is free, 3 to 5 are bound between S0 and S1, by S0; 3 has 7 words on their way from S0, 4 has 8, 5 has 8 on
their way to S0. -/
def sMbx : State := sv (dv DS.CONFIGURE 1000 fun d =>
  { boundTo (boundTo (boundTo d 3) 4) 5 with
    mbx := [(3, { ab := List.replicate 7 5 }), (4, { ab := List.replicate 8 5 }), (5, { ba := List.replicate 8 5 })] })

theorem witness_Mailboxes :
    sMbx.Up ∧ (sMbx.dev.rightsOk 0 3 = true ∧ sMbx.dev.rightsOk 1 3 = false) ∧
    (sMbx.dev.sharedOk 0 = true ∧ sMbx.dev.inConfigure = true) ∧
    (sMbx.dev.flag (R.MBX_BIND 2) F.MBX_BIND_VALID = false ∧ getF 0x10 F.MBX_BIND_MID_A = 0 ∧ getF 0x10 F.MBX_BIND_MID_B = 1 ∧
      bindable 0 = true ∧ bindable 1 = true ∧ mastAbsent sMbx.dev.member 0 = false ∧ mastAbsent sMbx.dev.member 1 = false) ∧
    (∀ c ∈ [3, 4, 5], sMbx.dev.flag (R.MBX_BIND c) F.MBX_BIND_VALID = true ∧ sMbx.dev.flag (R.MBX_BIND c) F.MBX_BIND_LOCKED = false ∧
      sMbx.dev.get (R.MBX_BIND c) F.MBX_BIND_OWNER = 0 ∧ sMbx.dev.mbxSide c 0 = 1 ∧ sMbx.dev.mbxSide c 1 = 2) ∧
    (((sMbx.dev.mbxS 3).out 1).length = 7 ∧ ((sMbx.dev.mbxS 3).out 2) = [] ∧ ((sMbx.dev.mbxS 4).out 1).length = 8 ∧
      (sMbx.dev.mbxS 3).inq 1 = [] ∧ (sMbx.dev.mbxS 5).inq 1 = 5 :: List.replicate 7 5 ∧ (sMbx.dev.garS 5).held = []) := by
  unfold State.Up; decide

/-- Lock 0 is free, S0 holds lock 1, the PCIe host lock 63; S0 has the keys of locks and windows; window 0 is free, S0 owns 1, S1 owns 15
with RDSHARE. -/
def sLcks : State := sv (dv DS.READY 1000 fun d =>
  { puts ((d.setKey Pg.LCK { win := some (0, 1000) }).setKey Pg.WIN { win := some (0, 1000) }) [(R.WIN_OWN 1, F.WIN_OWN_OWNER, 0),
      (R.WIN_OWN 15, F.WIN_OWN_OWNER, 1), (R.WIN_CFG 15, F.WIN_CFG_RDSHARE, 1)] with
    lck := [(1, some 0), (63, some Mid.PCIE)] })

theorem witness_LockReads :
    sLcks.Up ∧ sLcks.dev.lockNow 0 = none ∧ sLcks.dev.lockNow 1 = some Mid.S0 ∧ sLcks.dev.lockNow 63 = some Mid.PCIE ∧ Mid.PCIE ≠ Mid.S0 ∧
    Mid.S0 ≠ Mid.DEBUG ∧ Mid.DEBUG < 16 := by
  unfold State.Up; decide

theorem witness_LocksAndWindows :
    (sLcks.dev.lckS 1 = some 0 ∧ sLcks.dev.sharedOk 0 = true ∧ sLcks.dev.lckS 63 ≠ some 0 ∧ sLcks.dev.keyOpenFor Pg.LCK Mid.S0 = true ∧
      sLcks.dev.lckS 0 = none) ∧
    (sLcks.dev.winOwner 0 = 0xF ∧ sLcks.dev.winOwner 1 = 0 ∧ sLcks.dev.winOwner 15 = 1 ∧ sLcks.dev.keyOpenFor Pg.WIN Mid.S0 = true) ∧
    ∀ n ∈ [0, 1, 15], sLcks.dev.winHeld n = sLcks.dev.winOwner n := by
  decide

/-- S0 has freed lock 2 and released window 2, and taken window 3, in the present cycle. -/
def sCycle : State := sv ((((sLcks.dev.setLck 2 (some 0)).lockFree 2 0).put (R.WIN_OWN 2) F.WIN_OWN_OWNER 0).winSet 2 0xF |>.winSet 3 0)

theorem witness_LocksAndWindows_cycle :
    sCycle.Up ∧ (sCycle.dev.lckS 2 = none ∧ sCycle.dev.lockNow 2 = some 0) ∧ sCycle.dev.keyOpenFor Pg.WIN Mid.S0 = true ∧
    (sCycle.dev.winOwner 2 = 0xF ∧ sCycle.dev.winHeld 2 = 0 ∧ sCycle.dev.cycS.own.lookup 2 = some 0) ∧
    (sCycle.dev.winOwner 3 = 0 ∧ sCycle.dev.winHeld 3 = 0xF) := by
  unfold State.Up; decide

/-- The same with a PCIe link of a payload of 256 bytes; the PCIe host owns window 2, Debug without its right window 3. -/
def sWinP : State := sv { (sLcks.dev.put (R.WIN_OWN 2) F.WIN_OWN_OWNER Mid.PCIE).put (R.WIN_OWN 3) F.WIN_OWN_OWNER Mid.DEBUG with
  pcie := { payload := 256 } }

theorem witness_WindowData :
    sLcks.Up ∧ (inWins winBase = true ∧ inWins (winBase + 0xFFFFF) = true) ∧
    (winOf (winBase + 0x10008) = 1 ∧ sLcks.dev.winHeld 1 = 0 ∧ sLcks.dev.sharedOk 0 = true ∧ winAccessOk 0 (winBase + 0x10008) 8 0 = true) ∧
    (winOf (winBase + 0xFFFFF) = 15 ∧ sLcks.dev.winHeld 15 ≠ 0 ∧ winAccessOk 0 (winBase + 0xFFFFF) 1 0 = true) ∧
    (sWinP.Up ∧ sWinP.dev.pcie.payload = 256 ∧ sWinP.dev.winHeld 2 = Mid.PCIE ∧ sWinP.dev.sharedOk Mid.PCIE = true ∧
      winAccessOk Mid.PCIE (winBase + 0x2FFF0) 256 256 = true ∧ winAccessOk Mid.PCIE (winBase + 0x20000) 257 256 = false ∧
      winAccessOk Mid.PCIE (winBase + 0x20000) 512 512 = true) ∧
    (sWinP.dev.winHeld 3 = Mid.DEBUG ∧ sWinP.dev.sharedOk Mid.DEBUG = false ∧ Mid.DEBUG ≠ Mid.DMA) ∧
    (winAccessOk 0 winBase 3 0 = false ∧ winAccessOk 0 (winBase + 1) 2 0 = false) ∧
    (winBase + 0xF0000) % 4 = 0 ∧ sLcks.dev.flag (R.WIN_CFG 15) F.WIN_CFG_RDSHARE = true := by
  unfold State.Up; decide

/-! ### The rings -/

/-- A block of node 1 on both rings, a cycle of 100 µs, TOUT 3, EP_TOUT 5; nodes 0 to 3 are expected, 2 in another part; a loss of source
2 asks for SS1, of source 3 for STO; entry 0 is enabled. -/
def ringSpb : Sparse Word :=
  [(112, 0x80000100), (752, 0x1C000000), (753, 0x0190C005), (754, 0x80000000), (755, 0x80000000), (756, 0x90000000), (757, 0x80000000),
    (770, 0x00000090)]

/-- A device with that block at tick 1002000, 2000 ticks into cycle 25, both ports in lock. -/
def ringDev (st : Nat) (ins : Nat) : Dev := dv st 1002000 fun d =>
  { puts d [(R.SAFE_STAT, F.SAFE_STAT_SPB_LOADED, 1), (R.RG_CTRL 0, F.RG_CTRL_INSERT, 1), (R.RG_CTRL 1, F.RG_CTRL_INSERT, 1),
      (R.RG_STAT 0, F.RG_STAT_LOCK, 1), (R.RG_STAT 1, F.RG_STAT_LOCK, 1), (R.RG_STAT 0, F.RG_STAT_INSERTED, ins)] with
    safe := { d.safe with spbM := ringSpb } }

/-- Neither ring is inserted; then Ring A, two cycles ago, with a rejoin that has lasted EP_TOUT. -/
def sRing : State := sv (ringDev DS.READY 0)
def sRingA : State := sv { (ringDev DS.READY 1).put R.SFX_STAT F.SFX_STAT_EP_PH 1 with
  ring := { insA := some 922000, epStart := 20 } }

theorem witness_RingPorts :
    (sRing.Up ∧ sRing.dev.cycNow = 25 ∧ sRing.dev.cycTicks = 40000) ∧
    (∀ s ∈ [(sRing, false), (sRing, true), (sRingA, true)],
      s.1.dev.flag (R.RG_CTRL (ringIx s.2)) F.RG_CTRL_INSERT = true ∧ s.1.dev.flag R.SAFE_STAT F.SAFE_STAT_SPB_LOADED = true ∧
      s.1.dev.get R.SAFE_STAT F.SAFE_STAT_SPB_ERR = 0 ∧ s.1.dev.ringUsed s.2 = true ∧
      s.1.dev.flag (R.RG_STAT (ringIx s.2)) F.RG_STAT_LOCK = true ∧ s.1.dev.devState ≠ DS.BOOT ∧ s.1.dev.devState ≠ DS.FATAL ∧
      s.1.dev.inserted s.2 = false ∧ s.1.dev.frozen (ringPage s.2) = false) ∧ sRing.dev.frozen Pg.SFX = false ∧
    (sRing.dev.ring.began = false ∧ sRing.dev.flag (R.RG_STAT 0) F.RG_STAT_LOCK ≠ false) ∧
    (sRing.dev.ring.insA = none ∧ sRing.dev.ringUsed false = true) ∧
    (sRingA.dev.ring.insA = some 922000 ∧ 922000 + 2 * sRingA.dev.cycTicks = sRingA.dev.gtc) ∧
    (sRingA.dev.inserted false = true ∧ sRingA.dev.ring.sentCyc ≠ sRingA.dev.cycNow + 1 ∧
      (800 * (sRingA.dev.rsNode + 1) : Nat) ≤ sRingA.dev.vehicleTime - sRingA.dev.cycNow * (sRingA.dev.cycTicks : Int)) ∧
    (sRingA.dev.epPh ≠ 0 ∧ sRingA.dev.ring.epStart + (max 1 (sRingA.dev.rsRing F.RS_RING_EP_TOUT) : Nat) = sRingA.dev.cycNow) ∧
    (∀ b : Bool, sRing.dev.ringPresent b = true) := by
  unfold State.Up; decide

/-- A frame of a source with its two checks. -/
def frameOf (src seq cyc : Nat) (cfg : Word) (w4 : Word) : List Word :=
  let l : List Word := [BitVec.ofNat 32 (0xC5100000 + src * 0x10000), BitVec.ofNat 32 seq, BitVec.ofNat 32 cyc, 0, w4, 0, 0, 0, 0, 0, 0, 0, cfg, 0]
  l ++ [frameCrc 0x50 l, frameCrc 0x4D l]

/-- RCFG of that block. -/
def ringCfg : Word := (ringDev DS.READY 1).rcfg

/-- Ring A is inserted; a copy of Ring B waits for 40 µs from source 2, another from source 3. -/
def sRingRx : State := sv { ringDev DS.READY 1 with
  ring := { srcs := [(2, { wait := [{ b := true, words := frameOf 2 7 25 ringCfg 0, tick := 986000 }] }),
    (3, { wait := [{ b := true, words := frameOf 3 7 25 ringCfg 1, tick := 1001999 }] })] } }

theorem witness_RingFrames :
    sRingRx.Up ∧ sRingRx.dev.inserted false = true ∧ sRingRx.dev.ringPresent false = true ∧ sRingRx.dev.rsNode = 1 ∧
    (∀ n ∈ [0, 2, 3], sRingRx.dev.rsExpect n = true) ∧ sRingRx.dev.cycNow = 25 ∧ (sRingRx.dev.srcS 0).wait = [] ∧
    (sRingRx.dev.srcS 2).last = none ∧ 986000 + pairTicks = sRingRx.dev.gtc ∧ sRingRx.dev.ringUsed false = true := by
  unfold State.Up; decide

/-- The same, a tick after the 40 µs of source 2's copy. -/
def sRingLate : State := { sRingRx with dev := { sRingRx.dev with gtc := sRingRx.dev.gtc + 1 } }

theorem witness_RingFrames_late :
    sRingLate.Up ∧ sRingLate.dev.inserted false = true ∧ sRingLate.dev.cycNow = 25 ∧ 986000 + pairTicks < sRingLate.dev.gtc := by
  unfold State.Up; decide

/-- A good frame, one from the node itself, one a cycle off, one two cycles off, one with a wrong check. -/
theorem witness_RingFrames_words :
    (∀ (src seq cyc : Nat) (cfg w4 : Word), let ws := frameOf src seq cyc cfg w4
      ws.length = 16 ∧ fw ws 14 = frameCrc 0x50 ws ∧ fw ws 15 = frameCrc 0x4D ws ∧ fw ws 12 = cfg) ∧
    (∀ n ∈ [0, 1, 2, 3], fwSrc (frameOf n 7 25 0 0) = n ∧ (fw (frameOf n 7 25 0 0) 0).toNat / 2 ^ 20 = 0xC51) ∧
    (sext 32 (wrapN 32 ((fw (frameOf 0 7 24 0 0) 2).toNat - 25)) = -1 ∧ sext 32 (wrapN 32 ((fw (frameOf 0 7 27 0 0) 2).toNat - 25)) = 2) ∧
    fw (List.replicate 16 0) 14 ≠ frameCrc 0x50 (List.replicate 16 0) := by
  refine ⟨fun _ _ _ _ _ => ⟨rfl, rfl, rfl, rfl⟩, ?_⟩
  decide

theorem witness_RingFrames_pairs :
    (sRingRx.dev.srcS 2).wait.find? (fun c => fw c.words 1 == fw (frameOf 2 7 25 ringCfg 0) 1)
      = some { b := true, words := frameOf 2 7 25 ringCfg 0, tick := 986000 } ∧
    (sRingRx.dev.srcS 3).wait.find? (fun c => fw c.words 1 == fw (frameOf 3 7 25 ringCfg 0) 1)
      = some { b := true, words := frameOf 3 7 25 ringCfg 1, tick := 1001999 } ∧
    frameOf 3 7 25 ringCfg 1 ≠ frameOf 3 7 25 ringCfg 0 :=
  ⟨rfl, rfl, fun h => absurd (congrArg (fun l => fw l 4) h) (by decide)⟩

/-- The deadlines of sources 0, 2 and 3 have passed; source 2, the other part, is not yet in epoch 1. -/
def sEpoch (st : Nat) : State := sv { (ringDev st 1).put R.SFX_STAT F.SFX_STAT_EPOCH 1 with
  ring := { srcs := [(0, { accAt := 882001, inEpoch := true }), (2, { accAt := 882001 }), (3, { accAt := 882001, inEpoch := true })] } }

theorem witness_RingEpochs :
    (sEpoch DS.RUN).Live ∧ (sEpoch DS.READY).Live ∧ (sEpoch DS.RUN).dev.trans.at1 ≠ (sEpoch DS.RUN).dev.now + 1 ∧
    (∀ n ∈ [0, 2, 3], (sEpoch DS.RUN).dev.deadline n = some 1002000 ∧ 1002000 ≤ (sEpoch DS.RUN).dev.gtc ∧
      n ∈ (sEpoch DS.RUN).dev.peers ∧ (sEpoch DS.RUN).dev.lost n = false) ∧
    [0, 2, 3].map (fun s => getF ((sEpoch DS.RUN).dev.spb 0xC08) (F.RS_LACT_LACT s)) = [0, 1, 2] ∧
    ((sEpoch DS.RUN).dev.meEn 0 = true ∧ ((sEpoch DS.RUN).dev.tmS 0).ss1 = none) ∧
    (∀ st ∈ [DS.RUN, DS.READY], (sEpoch st).dev.devState = st ∧ (sEpoch st).dev.flag R.SAFE_STAT F.SAFE_STAT_SPB_LOADED = true ∧
      (sEpoch st).dev.ring.cyc ≠ some (sEpoch st).dev.cycNow ∧ (sEpoch st).dev.flag R.SFX_STAT F.SFX_STAT_SPLIT = false) ∧
    ((sEpoch DS.RUN).dev.peers.filter fun n => (sEpoch DS.RUN).dev.rsPart n != (sEpoch DS.RUN).dev.rsPart (sEpoch DS.RUN).dev.rsNode) = [2] ∧
    ((sEpoch DS.RUN).dev.epoch ≠ 0 ∧ ((sEpoch DS.RUN).dev.srcS 2).inEpoch = false) := by
  unfold State.Live State.Up; decide

/-- A commit that is due; machine 0 is to stop, machine 1 is clamped by OVERCAST. -/
def sEpCommit (st : Nat) : State := sv { puts (ringDev st 1) [(R.SFX_STAT, F.SFX_STAT_EP_PH, 2), (R.SFX_EP, F.SFX_EP_EP_NEW, 2)] with
  ring := { commitAt := some 25, stops := [0], clamp := some 1001000, cyc := some 25 }
  mach := [(0, mst MS.RUN), (1, mst MS.RUN)] }

theorem witness_RingEpochs_commit : ∀ st ∈ [DS.READY, DS.OVERCAST], (sEpCommit st).dev.devState = st ∧ st ≠ DS.RESET ∧
    (sEpCommit st).dev.ring.commitAt = some 25 ∧ (sEpCommit st).dev.epPh = 2 ∧ (sEpCommit st).dev.cycNow = 25 ∧
    (sEpCommit st).dev.trans.at1 ≠ (sEpCommit st).dev.now + 1 ∧ (sEpCommit st).dev.ring.cyc = some (sEpCommit st).dev.cycNow ∧
    (∀ m ∈ [0, 1], (sEpCommit st).dev.mDefined m = true ∧ (sEpCommit st).dev.mState m = MS.RUN) ∧ 0 ∈ (sEpCommit st).dev.ring.stops ∧
    1 ∉ (sEpCommit st).dev.ring.stops ∧ (sEpCommit st).dev.ring.clamp = some 1001000 := by
  decide

/-! ### Garmal's commands -/

/-- A header of a command. -/
def cmdH (code len : Nat) : Word := msgHeader code 1 0 len 0

/-- A device state in which a message waits on a channel, machine 0 has a descriptor, its main context 0 and comparator 5. -/
def sGar (st ch : Nat) (msg : List Word) (f : Dev → Dev) : State := sv (dv st 1000 fun d =>
  f { puts d [(R.MBX_BIND ch, F.MBX_BIND_VALID, 1), (R.CMP_CLAIM 5, F.CLAIM_OWNER, 0), (R.LEC_CTX_CLAIM 0, F.CLAIM_OWNER, 0)] with
    mbx := [(ch, { ba := msg })]
    mach := [(0, { mst MS.STO with md := [(1, 0x00FFFF00)], units := [(2, 5)] })] })

/-- A command that waits with its arguments. -/
def sCmd (st ch code : Nat) (args : List Word) (f : Dev → Dev := id) : State := sGar st ch (cmdH code args.length :: args) f

/-- Every command with a device state in which it is served, on a channel of its supervisor. -/
theorem witness_GarmalMessages : ∀ x ∈ ([(DS.READY, 0, 0x01, [5]), (DS.READY, 0, 0x01, []), (DS.READY, 3, 0x02, []), (DS.READY, 1, 0x02, [1]),
      (DS.READY, 2, 0x04, [1]), (DS.CONFIGURE, 0, 0x26, [0]), (DS.CONFIGURE, 0, 0x26, [20]), (DS.READY, 1, 0x32, [1]),
      (DS.COMMISSION, 1, 0x32, [1]), (DS.READY, 2, 0x43, [3]), (DS.READY, 3, 0x44, [3, 2]), (DS.READY, 0, 0x31, []),
      (DS.CONFIGURE, 0, 0x31, [])] : List (Nat × Nat × Nat × List Word)),
    let s := sCmd x.1 x.2.1 x.2.2.1 x.2.2.2
    s.dev.asks x.2.1 x.2.2.1 (cmdH x.2.2.1 x.2.2.2.length) ∧ s.dev.garArgs x.2.1 (cmdH x.2.2.1 x.2.2.2.length) = x.2.2.2 ∧
      s.dev.devState = x.1 := by
  unfold Dev.asks; decide

theorem witness_GarmalMessages_more :
    (sCmd DS.CONFIGURE 0 0x26 [0]).dev.machUsable 0 ∧ (sCmd DS.READY 1 0x32 [1]).dev.takenAt Mid.S0 R.SAFE_OUT = true ∧
    (fromReady DS.READY = true ∧ fromReady DS.COMMISSION = false) ∧ (sCmd DS.READY 0 0x31 []).dev.epoch = 0 ∧
    ((sCmd DS.READY 2 0x40 [7]).dev.garHead 2 = some (cmdH 0x40 1) ∧ servedMsg 0 (cmdH 0x40 1) = false ∧
      (sCmd DS.READY 0 0x40 [7]).dev.garHead 0 = some (cmdH 0x40 1)) := by
  unfold Dev.machUsable; decide

/-- A device whose context 0 meets R327 for machine 0: group 0, PUB, OUT6 to OUT8 named, OUT8 by a MODESEL stage that compares CMD3, and a
DCLIM stage. -/
def startable (d : Dev) : Dev :=
  ((puts d [(R.CTX_CTRL 0, F.CTX_CTRL_NSTAGE, 2), (R.CTX_TARGET 0, F.CTX_TARGET_DUTY_GRP, 0), (R.CTX_TARGET 0, F.CTX_TARGET_PUB, 1),
    (R.CTX_OMAP 0 3, F.CTX_OMAP_SEL_L, 1), (R.CTX_OMAP 0 3, F.CTX_OMAP_SEL_H, 1), (R.CTX_OMAP 0 4, F.CTX_OMAP_SEL_L, 0x20),
    (R.CTX_SD 0 0, F.CTX_SD_KIND, kMODESEL), (R.CTX_SD 0 1, F.CTX_SD_KIND, kDCLIM)]).setReg (R.CTX_POOL 0 0) 0x53).setReg
    (R.CTX_POOL 0 7) 0x80000001

/-- A device with its machine 0 in a state. -/
def machIn (st : Nat) (d : Dev) : Dev := d.setMach 0 { d.machS 0 with stat := BitVec.ofNat 32 (st * 2 ^ 28) }

/-- Machine 0 may wind down: DIS_MODE 1, its speed below UCG, its group's duties valid. -/
def windable (d : Dev) : Dev :=
  (d.setMach 0 { d.machS 0 with md := [(0, setF (mdReset 0 0) F.MD_DIS_MODE 1), (1, 0x00FFFF00), (4, 0x00010000)] }).put (R.PWT_STAT 0)
    F.PWT_STAT_VALID 1

/-- Group 0 belongs to the PCIe host. -/
def taken0 (d : Dev) : Dev := { d.put (R.PG_CTRL (Pg.PWT 0)) F.PG_CTRL_OWNER_MID Mid.PCIE with mach := [] }

/-- The cases of the statement, each with a device state, a command and arguments. -/
def machCases : List (Nat × Nat × List Word × (Dev → Dev)) :=
  [(DS.CONFIGURE, 0x10, [0x1100, 0x00FFFF00], fun d => { d with mach := [] }), (DS.CONFIGURE, 0x10, [0x1100, 0x00FFFF00], taken0),
   (DS.CONFIGURE, 0x11, [0x1200, 6], id), (DS.CONFIGURE, 0x11, [0x1200, 6], fun d => d.put (R.CMP_CLAIM 6) F.CLAIM_OWNER Mid.PCIE),
   (DS.CONFIGURE, 0x12, [BitVec.ofNat 32 (R.CMP_CFG 5), 0], id),
   (DS.READY, 0x12, [BitVec.ofNat 32 (R.CMP_CFG 5), 0x80000000], id), (DS.READY, 0x12, [BitVec.ofNat 32 (R.CMP_CFG 6), 0, 0, 0], id),
   (DS.RUN, 0x20, [0x100], startable), (DS.RUN, 0x20, [0], id), (DS.RUN, 0x20, [0], machIn MS.RUN),
   (DS.READY, 0x21, [0x3000, 5, 6], id), (DS.READY, 0x21, [0x1000, 5], machIn MS.STOP), (DS.RUN, 0x22, [0], machIn MS.RUN),
   (DS.RUN, 0x22, [0], id), (DS.READY, 0x23, [0], machIn MS.RUN), (DS.READY, 0x23, [0], machIn MS.OFF), (DS.READY, 0x24, [0], id),
   (DS.RUN, 0x24, [0], windable), (DS.READY, 0x24, [0], windable), (DS.READY, 0x25, [0], machIn MS.FAULT),
   (DS.READY, 0x25, [0], fun d => ((machIn MS.FAULT d).put (R.GDT_LSTAT 0) (F.GDT_LSTAT_REL 0) 1).setReg (R.GDT_PINS 0) 0x01000000),
   (DS.READY, 0x25, [0], id)]

theorem witness_GarmalMachines : ∀ x ∈ machCases,
    let s := sCmd x.1 0 x.2.1 x.2.2.1 x.2.2.2
    let h := cmdH x.2.1 x.2.2.1.length
    s.Live ∧ s.dev.asks 0 x.2.1 h ∧ s.dev.garArgs 0 h = x.2.2.1 ∧ (s.dev.asked 0 h).devState = x.1 := by
  unfold State.Live State.Up Dev.asks; decide

/-- The device of a case once its message is taken. -/
def asked (st code : Nat) (args : List Word) (f : Dev → Dev) : Dev := (sCmd st 0 code args f).dev.asked 0 (cmdH code args.length)

theorem witness_GarmalMachines_claims :
    (let d := asked DS.CONFIGURE 0x10 [0x1100, 0x00FFFF00] (fun d => { d with mach := [] });
      groupPresent d.member 0 = true ∧ d.primOf 0 = none ∧ d.mDefined 0 = false ∧ d.wordUnits 0 1 0x00FFFF00 = [(9, 0)] ∧
        d.claimable [(0xB, 0), (9, 0)]) ∧
    ([(0xB, 0), (9, 0)].find? (asked DS.CONFIGURE 0x10 [0x1100, 0x00FFFF00] taken0).heldOther = some (0xB, 0)) ∧
    (let d := asked DS.CONFIGURE 0x11 [0x1200, 6] id;
      d.machUsable 0 ∧ d.claimable [(2, 6)]) ∧
    [(2, 6)].find? (asked DS.CONFIGURE 0x11 [0x1200, 6] fun d => d.put (R.CMP_CLAIM 6) F.CLAIM_OWNER Mid.PCIE).heldOther = some (2, 6) := by
  unfold Dev.claimable Dev.machUsable; decide

theorem witness_GarmalMachines_cfg :
    (∀ x ∈ [(DS.CONFIGURE, (0 : Word), false), (DS.READY, 0x80000000, true)],
      let d := asked x.1 0x12 [BitVec.ofNat 32 (R.CMP_CFG 5), x.2.1] id;
      d.inMachUnit (R.CMP_CFG 5) = true ∧ d.garmalCmd (R.CMP_CFG 5) = false ∧
        (d.tryWrite (pageOf (R.CMP_CFG 5)) fun e => e.pWrite Mid.S0 (R.CMP_CFG 5) x.2.1).2 = x.2.2) ∧
    (asked DS.READY 0x12 [BitVec.ofNat 32 (R.CMP_CFG 6), 0, 0, 0] id).inMachUnit (R.CMP_CFG 6) = false := by
  decide

theorem witness_GarmalMachines_runs :
    ((asked DS.RUN 0x20 [0x100] startable).mState 0 = MS.STO ∧ ((asked DS.RUN 0x20 [0x100] startable).machS 0).target = none ∧
      (asked DS.RUN 0x20 [0x100] startable).startCheck 0 = true ∧ (asked DS.RUN 0x20 [0] id).startCheck 0 = false ∧
      (asked DS.RUN 0x20 [0] (machIn MS.RUN)).mState 0 ≠ MS.STO) ∧
    ((asked DS.RUN 0x20 [0x100] startable).cmdLoses 0 = false ∧ (asked DS.READY 0x21 [0x3000, 5, 6] id).cmdLoses 0 = false ∧
      (asked DS.RUN 0x22 [0] (machIn MS.RUN)).cmdLoses 0 = false ∧ (asked DS.READY 0x24 [0] id).cmdLoses 0 = false ∧
      (asked DS.READY 0x25 [0] (machIn MS.FAULT)).cmdLoses 0 = false ∧
      (asked DS.READY 0x21 [0x1000, 5] fun d => d.setMach 0 { d.machS 0 with reactAt := d.gtc + 1 }).cmdLoses 0 = true) ∧
    (maskBits ((0x3000 : Word).toNat / 2 ^ 12) = [0, 1] ∧ ∀ k ∈ [0, 1], (asked DS.READY 0x21 [0x3000, 5, 6] id).takenAt Mid.S0
      (R.CTX_CMD ((asked DS.READY 0x21 [0x3000, 5, 6] id).mMain 0) k) = true) ∧
    ((asked DS.READY 0x21 [0x3000, 5, 6] id).ctxPresent ((asked DS.READY 0x21 [0x3000, 5, 6] id).mMain 0) = true ∧
      lenMask [0x3000, 5, 6] = true ∧ lenMask [0x1000, 5] = true) ∧
    ((asked DS.READY 0x24 [0] id).md 0 0 F.MD_DIS_MODE = 0) ∧
    (let d := asked DS.RUN 0x24 [0] windable;
      d.md 0 0 F.MD_DIS_MODE = 1 ∧ d.mReleased 0 = false ∧ (d.mSpeed 0).abs.lt (d.mdSpeed 0 4 F.MD_HI) = true ∧
        d.armOk 0 MS.DISCHARGE = true) ∧
    ((asked DS.READY 0x25 [0] (machIn MS.FAULT)).mState 0 = MS.FAULT ∧
      ((asked DS.READY 0x25 [0] (machIn MS.FAULT)).mClear 0 fun _ => true).mReleased 0 = false) ∧
    (let d := asked DS.READY 0x25 [0]
        (fun d => ((machIn MS.FAULT d).put (R.GDT_LSTAT 0) (F.GDT_LSTAT_REL 0) 1).setReg (R.GDT_PINS 0) 0x01000000);
      (d.mClear 0 fun _ => true).mReleased 0 = true) := by
  decide

/-- Commands to the device: the three changes of state and one that is refused, SPB_WRITE with window 0 in S0's hands and without, SAFE_ACK,
SAFE_STO and SAFE_SS1. -/
def devCases : List (Nat × Nat × Nat × List Word × (Dev → Dev)) :=
  [(DS.CONFIGURE, 0, 0x03, [3], id), (DS.READY, 0, 0x03, [5], fun d => d.put R.SAFE_STAT F.SAFE_STAT_CONFIRMED 1), (DS.RUN, 0, 0x03, [4], id),
   (DS.CONFIGURE, 1, 0x03, [5], id), (DS.READY, 0, 0x30, [0, 0xF000], fun d => d.put (R.WIN_OWN 0) F.WIN_OWN_OWNER 0),
   (DS.CONFIGURE, 0, 0x30, [15, 0], id), (DS.OVERCAST, 2, 0x40, [6],
      fun d => { puts (d.setReg R.SAFE_TRIP 6) [(R.TM_STAT 1, F.TM_STAT_CAUSE, 2), (R.TM_STAT 2, F.TM_STAT_CAUSE, 2),
        (R.TM_CNT 2, tmCntF 1, 1)] with safe := { d.safe with spbM := blockM 0 [] }, tm := [(1, { byTrip := true, trips := [2] }), (2, { byTrip := true, trips := [2] })] }),
   (DS.COMMISSION, 3, 0x41, [1, 2], fun d => { d with safe := { d.safe with spbM := blockM 0 [] } }),
   (DS.RUN, 2, 0x42, [1, 2], fun d => { d with safe := { d.safe with spbM := blockM 0 [] } })]

theorem witness_GarmalDevice : ∀ x ∈ devCases,
    let s := sCmd x.1 x.2.1 x.2.2.1 x.2.2.2.1 x.2.2.2.2
    let h := cmdH x.2.2.1 x.2.2.2.1.length
    s.Live ∧ s.dev.asks x.2.1 x.2.2.1 h ∧ s.dev.garArgs x.2.1 h = x.2.2.2.1 ∧ (s.dev.asked x.2.1 h).devState = x.1 ∧
      (s.dev.asked x.2.1 h).trans.at1 ≠ (s.dev.asked x.2.1 h).now + 1 := by
  unfold State.Live State.Up Dev.asks; decide

theorem witness_GarmalDevice_cases :
    (asked DS.READY 0x03 [5] fun d => d.put R.SAFE_STAT F.SAFE_STAT_CONFIRMED 1).runOk = true ∧
    (asked DS.READY 0x30 [0, 0xF000] fun d => d.put (R.WIN_OWN 0) F.WIN_OWN_OWNER 0).winOwner 0 = Mid.S0 ∧
    (asked DS.CONFIGURE 0x30 [15, 0] id).winOwner 15 ≠ Mid.S0 ∧ (0xF000 : Word).toNat ≤ 0xF000 ∧ (0xF000 : Word).toNat % 4 = 0 ∧
    (let d := ((sCmd DS.OVERCAST 2 0x40 [6] fun d => { puts (d.setReg R.SAFE_TRIP 6) [(R.TM_STAT 1, F.TM_STAT_CAUSE, 2),
          (R.TM_STAT 2, F.TM_STAT_CAUSE, 2), (R.TM_CNT 2, tmCntF 1, 1)] with safe := { d.safe with spbM := blockM 0 [] }, tm := [(1, { byTrip := true, trips := [2] }), (2, { byTrip := true, trips := [2] })] }).dev.asked 2
        (cmdH 0x40 1));
      d.tripped 1 = true ∧ d.ackBlocked 1 = false ∧ d.ackBlocked 2 = true) ∧
    (fromCommission DS.COMMISSION = true ∧ bitOf (1 : Word) 0 = true ∧
      ∀ x ∈ [(DS.COMMISSION, 3, 0x41), (DS.RUN, 2, 0x42)],
        let s := sCmd x.1 x.2.1 x.2.2 [1, 2] (fun d => { d with safe := { d.safe with spbM := blockM 0 [] } });
        s.dev.meEn 0 = true ∧ bitOf (s.dev.reg R.SAFE_REQ_STO) 0 = false ∧ bitOf (s.dev.reg R.SAFE_REQ_SS1) 0 = false ∧
          (s.dev.tmS 0).ss1 = none) := by
  decide

/-! ### Ports and memory -/

/-- Bus 0 accepts identifier 5, has buffers 1 and 3 pending, 3 with the lower identifier, and its first failure count at the limit; bus 1
accepts 5, has no buffer free and goes beyond the limit; both have FD_EN and BRS_EN; bus 2 is off and recovers; bus 3 has neither bit. -/
def sCan : State := sv (dv DS.READY 1000 fun d =>
  { puts ((((d.setReg (R.CAN_FLT 0 0) 0x80000005).setReg (R.CAN_FLT 1 31) 0x80000005).setReg (canBuf 0 1 0) 9).setReg (canBuf 0 3 0) 7)
      ([(R.CAN_STAT 0, F.CAN_STAT_TEC, 247), (R.CAN_STAT 1, F.CAN_STAT_TEC, 248), (R.CAN_STAT 2, F.CAN_STAT_BUS_OFF, 1),
        (R.CAN_CTRL 2, F.CAN_CTRL_RECOVER, 1), (R.CAN_CTRL 3, F.CAN_CTRL_FD_EN, 0), (R.CAN_CTRL 3, F.CAN_CTRL_BRS_EN, 0)] ++ [0, 1].flatMap fun k => [(R.CAN_CTRL k, F.CAN_CTRL_FD_EN, 1), (R.CAN_CTRL k, F.CAN_CTRL_BRS_EN, 1)]) with
    can := [(0, { pend := [1, 3], full := [16] }), (1, { pend := [2], full := (List.range 24).map (· + 16) })] })

theorem witness_CanBuses :
    sCan.Up ∧ 3 < nCan ∧ (∀ k ∈ [0, 1, 3], sCan.dev.flag (R.CAN_CTRL k) F.CAN_CTRL_FD_EN = (k != 3) ∧
      sCan.dev.flag (R.CAN_CTRL k) F.CAN_CTRL_BRS_EN = (k != 3) ∧ sCan.dev.frozen (Pg.CAN k) = false) ∧ sCan.dev.canNext 3 = none ∧
    ¬(List.replicate 12 (0 : Byte)).length ≤ 8 ∧ (∀ k ∈ [0, 1, 2], sCan.dev.flag (R.CAN_STAT k) F.CAN_STAT_BUS_OFF = (k == 2)) ∧
    (sCan.dev.canAccepts 0 5 = true ∧ sCan.dev.canAccepts 1 5 = true ∧ sCan.dev.canAccepts 0 6 = false) ∧
    (((List.range 24).map (· + 16)).find? (fun b => !(sCan.dev.canS 0).full.contains b) = some 17 ∧
      ((List.range 24).map (· + 16)).find? (fun b => !(sCan.dev.canS 1).full.contains b) = none) ∧
    (sCan.dev.canNext 0 = some 3 ∧ sCan.dev.get (R.CAN_STAT 0) F.CAN_STAT_TEC + 8 = 255 ∧ sCan.dev.canNext 1 = some 2 ∧
      sCan.dev.get (R.CAN_STAT 1) F.CAN_STAT_TEC + 8 = 256) ∧
    sCan.dev.takenAt 0 (R.CAN_CTRL 2) = true ∧ sCan.dev.flag (R.CAN_CTRL 2) F.CAN_CTRL_RECOVER = true := by
  unfold State.Up; decide

/-- A broadcast frame of `n` bytes with an EtherType. -/
def bcast (t0 t1 : Byte) (n : Nat) : List Byte := List.replicate 6 0xFF ++ List.replicate 6 1 ++ [t0, t1] ++ List.replicate (n - 14) 0

/-- A Pdelay_Req of domain 0 of `n` bytes. -/
def pdReq (n : Nat) : List Byte := List.replicate 12 1 ++ [0x88, 0xF7, 0x02] ++ List.replicate (n - 15) 0

/-- Port 0 is up, has one frame of two words, of which one has been read, and writes a frame of 8 bytes; port 1's FIFOs are full. -/
def sEth : State := sv (dv DS.READY 1000 fun d =>
  { puts d [(R.ETH_STAT 0, F.ETH_STAT_LINK, 1), (R.ETH_STAT 1, F.ETH_STAT_LINK, 1), (R.ETH_TXLEN 0, F.ETH_TXLEN_LEN, 8),
      (R.ETH_PDLY 0, F.ETH_PDLY_MAX, 800)] with
    eth := [(0, { tx := [1], rx := [[1, 2, 3, 4, 5, 6, 7]], pos := 1, pdNext := 1000 }),
      (1, { tx := List.replicate 4096 0, rx := List.replicate 10 (List.replicate 1522 0) ++ [List.replicate 1132 0] })] })

theorem witness_EthernetPorts :
    sEth.Up ∧ 1 < nEth ∧ (∀ k ∈ [0, 1], sEth.dev.flag (R.ETH_STAT k) F.ETH_STAT_LINK = true) ∧
    (∀ bs ∈ [bcast 8 0 14, bcast 8 0 20], etherType bs ≠ 0x88F7 ∧ 14 ≤ bs.length ∧ bs.length ≤ ethMax ∧ sEth.dev.ethAccepts 0 bs = true ∧
      sEth.dev.ethAccepts 1 bs = true) ∧
    (((sEth.dev.ethS 0).rx.map frameSpace).sum + frameSpace (bcast 8 0 14) ≤ ethFifo) ∧ etherType (bcast 0x88 0xF7 20) = 0x88F7 ∧
    (isPdelayReq (bcast 0x88 0xF7 20) = false ∧ isPdelayReq (pdReq 20) = true ∧ (pdReq 20).length ≤ ethMax ∧
      sEth.dev.flag R.RST_DOM F.RST_DOM_S0_HELD = false ∧ sEth.dev.devState ≠ DS.BOOT ∧ ∀ k ∈ [0, 1], sEth.dev.frozen (Pg.ETH k) = false) ∧
    (sEth.dev.takenAt 0 (R.ETH_TXD 0) = true ∧ sEth.dev.takenAt 0 (R.ETH_TXD 1) = true ∧ sEth.dev.takenAt Mid.S1 (R.ETH_TXD 0) = false) ∧
    (sEth.dev.get (R.ETH_TXLEN 0) F.ETH_TXLEN_LEN = 4 * ((sEth.dev.ethS 0).tx ++ [2]).length ∧ 4 * (sEth.dev.ethS 0).tx.length < ethFifo) ∧
    (sEth.dev.takenAt 0 (R.ETH_CTRL 0) = true ∧ sEth.dev.get R.TL_CTRL F.TL_CTRL_SYNC_PORT = 0 ∧ (sEth.dev.ethS 0).pdNext = sEth.dev.gtc) := by
  unfold State.Up; decide

/-- The same a tick before the next measurement is due. -/
theorem witness_EthernetPorts_early : { sEth.dev with gtc := 999 }.gtc < ({ sEth.dev with gtc := 999 }.ethS 0).pdNext := by decide

theorem witness_EthernetPorts_full :
    ethFifo = 4 * (sEth.dev.ethS 1).tx.length ∧ ethFifo < ((sEth.dev.ethS 1).rx.map frameSpace).sum + frameSpace (bcast 8 0 14) := by
  decide

/-- The PCIe host is side A of channel 0 and side B of channel 1; LPDDR4X is ready with ECC, its patrol stands at block 5. -/
def sMem : State := sv (dv DS.BOOT 1600 fun d =>
  { puts d [(R.MBX_BIND 0, F.MBX_BIND_VALID, 1), (R.MBX_BIND 0, F.MBX_BIND_MID_A, Mid.PCIE), (R.MBX_BIND 1, F.MBX_BIND_VALID, 1),
      (R.MBX_BIND 1, F.MBX_BIND_MID_A, 1), (R.MBX_BIND 1, F.MBX_BIND_MID_B, Mid.PCIE), (R.DDR_STAT, F.DDR_STAT_READY, 1),
      (R.DDR_CFG, F.DDR_CFG_ECC_EN, 1), (R.DDR_STAT, F.DDR_STAT_USABLE, 1)] with
    sys := { d.sys with scrub := 16383 }
    pcie := { l0 := true } })

theorem witness_PcieAndMemory :
    sMem.Up ∧ hasPcie sMem.dev.member = true ∧ hasPcie .ehz0102 = false ∧ hasDdr sMem.dev.member = true ∧ sMem.dev.devState = DS.BOOT ∧
    (sMem.dev.peerRst Mid.PCIE = false ∧ sMem.dev.mbxSide 0 Mid.PCIE = 1 ∧ sMem.dev.mbxSide 1 Mid.PCIE = 2) ∧
    (sMem.dev.flag R.DDR_STAT F.DDR_STAT_READY = true ∧ sMem.dev.flag R.DDR_CFG F.DDR_CFG_ECC_EN = true ∧ sMem.dev.gtc % 1600 = 0 ∧
      sMem.dev.get R.DDR_STAT F.DDR_STAT_USABLE * 16384 = sMem.dev.sys.scrub + 1) := by
  unfold State.Up; decide

/-- The same with one error in the block that the patrol reads next, of one bit or of two; with that block lost already. -/
def sMemBit (two : Bool) : State := { sMem with dev := { sMem.dev with sys := { sMem.dev.sys with ddrSoft := [(16383, two)] } } }
def sMemLost : State := { sMem with dev := { sMem.dev with sys := { sMem.dev.sys with bad := [16383] } } }

theorem witness_PcieAndMemory_errors :
    sMem.dev.frozen Pg.PCIE = false ∧ sMem.dev.frozen Pg.DDR = false ∧ (16383 ∉ sMem.dev.sys.bad ∧ ∀ u ∈ sMem.dev.sys.ddrSoft ++ [], u.1 ≠ 16383) ∧
    (∀ two, (sMemBit two).Up ∧ (sMemBit two).dev.sys.scrub = 16383 ∧
      ((sMemBit two).dev.sys.ddrSoft ++ [(5, false)]).filter (fun u => u.1 == 16383) = [(16383, two)]) ∧
    (sMemLost.Up ∧ 16383 ∈ sMemLost.dev.sys.bad) ∧ (sR.Up ∧ sR.dev.flag R.DDR_STAT F.DDR_STAT_READY = false) := by
  unfold State.Up; decide

/-- A request frame of the SPI host with its CRC. -/
def spiReq (cmd addr count : Nat) (ws : List Nat) : List Byte :=
  let l := BitVec.ofNat 8 cmd :: bytesBE 4 addr ++ [BitVec.ofNat 8 count] ++ ws.flatMap fun w => bytesBE 4 w
  l ++ bytesBE 2 (crc16 l)

theorem witness_SpiFrames :
    sLcks.Up ∧ (frShort [] = true ∧ frShort ((spiReq cmdRD R.SYS_STATE 1 []).take 7) = true) ∧
    (∀ f ∈ [spiReq cmdRD R.SYS_STATE 1 [], spiReq cmdRDFIX winBase 16 [], spiReq cmdWR R.SAFE_ACK 2 [1, 2], spiReq cmdWRFIX winBase 1 [5],
        spiReq cmdKEY (R.PG_LOCK Pg.LCK) 0 []], frShort f = false ∧ frCheck f = 0) ∧
    (frCheck (spiReq cmdRD R.SYS_STATE 17 []) = 5 ∧ frCheck (spiReq cmdRD 0 1 []) = 3 ∧
      frCheck ((spiReq cmdRD R.SYS_STATE 1 []).take 6 ++ [0, 0]) = 1) ∧
    (cmdKnown 0x55 = false ∧ frCrcOk (spiReq 0x55 0 0 []) = true ∧ frShort (spiReq 0x55 0 0 []) = false) ∧
    ([spiReq cmdRD R.SYS_STATE 1 [], spiReq cmdRDFIX winBase 16 [], spiReq cmdWR R.SAFE_ACK 2 [1, 2], spiReq cmdWRFIX winBase 1 [5],
        spiReq cmdKEY (R.PG_LOCK Pg.LCK) 0 []].map frCmd = [cmdRD, cmdRDFIX, cmdWR, cmdWRFIX, cmdKEY] ∧
      frRange (frAddr (spiReq cmdRDFIX winBase 16 [])) (frSpan (spiReq cmdRDFIX winBase 16 [])) = true ∧
      frCount (spiReq cmdRDFIX winBase 16 []) = 16 ∧ (inRegs R.SYS_STATE = true ∧ inWins winBase = true)) ∧
    (frCmd (spiReq cmdWRFIX (winBase + 0xF0000) 1 [5]) = cmdWRFIX ∧ frCount (spiReq cmdWRFIX (winBase + 0xF0000) 1 [5]) = 1 ∧
      frAddr (spiReq cmdWRFIX (winBase + 0xF0000) 1 [5]) = winBase + 0xF0000) := by
  unfold State.Up; decide

/-- Window 0 is the SPI host's. -/
def sSpi : State := sv (sR.dev.put (R.WIN_OWN 0) F.WIN_OWN_OWNER Mid.SPI)

theorem witness_SpiFrames_window :
    sSpi.Up ∧ inWins (frAddr (spiReq cmdWR winBase 1 [5])) = true ∧ frAddr (spiReq cmdWR winBase 1 [5]) % 4 = 0 ∧
      sSpi.dev.winHeld (winOf (frAddr (spiReq cmdWR winBase 1 [5]))) = Mid.SPI := by
  unfold State.Up; decide

/-! ### The recorder, replay, the fatal dump -/

/-- A record of type 0x10 with `n` words. -/
def someRec (n : Nat) : RecRec := { ty := 0x10, tick := 900, data := List.replicate n 7 }

/-- The recorder with EN, RUN and FROZEN as given, what waits, and more. -/
def sRec (en run froz : Nat) (l : List RecRec) (f : Dev → Dev := id) : State := sv (dv DS.READY 1000 fun d =>
  f { puts d [(R.REC_CTRL, F.REC_CTRL_EN, en), (R.REC_STAT, F.REC_STAT_RUN, run), (R.REC_STAT, F.REC_STAT_FROZEN, froz)] with
    hamper := { fifo := l } })

/-- The recorder in the post phase, with more waiting than a block holds. -/
def sRecPost : State := sRec 1 1 0 (List.replicate 10 (someRec 112)) (fun d => (d.put R.REC_STAT F.REC_STAT_POST 1).setReg R.REC_POST 0)

theorem witness_Recorder :
    (sRec 0 0 0 []).Up ∧ (sRec 0 0 0 []).dev.takenAt 0 R.REC_CTRL = true ∧ (sRec 1 0 1 []).dev.takenAt 0 R.REC_CTRL = true ∧
    (sRec 0 0 0 []).dev.flag R.REC_CTRL F.REC_CTRL_EN = false ∧ (sRec 0 0 0 []).dev.flag R.REC_STAT F.REC_STAT_HELD = false ∧
    (sRec 0 0 0 [] fun d => d.put R.REC_STAT F.REC_STAT_HELD 1).dev.flag R.REC_STAT F.REC_STAT_HELD = true ∧
    ((sRec 1 0 1 []).dev.flag R.REC_CTRL F.REC_CTRL_EN = true ∧ (sRec 1 0 1 []).dev.flag R.REC_STAT F.REC_STAT_FROZEN = true) ∧
    ((sRec 1 1 0 [someRec 3]).dev.flag R.REC_STAT F.REC_STAT_RUN = true ∧ (sRec 1 1 0 [someRec 3]).dev.oneBlock ∧
      (sRec 1 1 0 [someRec 3]).dev.recording = true ∧ (sRec 1 1 0 [someRec 3]).dev.flag R.REC_STAT F.REC_STAT_POST = false ∧
      (sRec 1 1 0 [someRec 3]).dev.frozen Pg.REC = false ∧ (sRec 1 1 0 [someRec 3]).dev.hamper.freeze = false) ∧
    (sRec 1 1 0 [] fun d => { d with hamper := { d.hamper with freeze := true } }).dev.hamper.freeze = true := by
  unfold State.Up Dev.oneBlock; decide

/-- A recorder whose last set of anchors is an interval old, and one that records none. -/
def sAnc (anch : Nat) : State := { sRec 1 1 0 [] with dev := { (sRec 1 1 0 []).dev.put R.REC_CFG F.REC_CFG_ANCH anch with gtc := 400000 } }

/-- A frozen recorder that takes up recording in the present cycle's or the next cycle's first tick, with a trigger in that cycle or before. -/
def sRearm (k miss : Nat) : State := sRec 1 0 1 [] fun d => { d with hamper := { d.hamper with rearm := some k, missCyc := miss } }

theorem witness_Recorder_again :
    (∀ n ∈ [0, 1, 2], (sAnc n).Up ∧ (sAnc n).dev.recording = true ∧ (sAnc n).dev.ancTicks = 400000 * n ∧
      (sAnc n).dev.hamper.ancAt = 0 ∧ (sAnc n).dev.gtc = 400000) ∧
    ∀ x ∈ [(500, 500), (500, 499), (501, 0)], (sRearm x.1 x.2).pending = [] ∧ (sRearm x.1 x.2).Live ∧
      (sRearm x.1 x.2).dev.hamper.rearm = some x.1 ∧ (sRearm x.1 x.2).dev.devState ≠ DS.FATAL ∧
      (sRearm x.1 x.2).dev.flag R.REC_CTRL F.REC_CTRL_EN = true ∧ (sRearm x.1 x.2).dev.gtc = 1000 ∧
      ∀ i, i < 8 → (sRearm x.1 x.2).dev.reg (R.REC_TRIG_EN i) = 0 := by
  unfold State.Live State.Up; decide

theorem witness_Recorder_block :
    (∀ r ∈ (nextBlock sRecPost.dev.hamper.fifo).1, r.tick < sRecPost.dev.gtc) ∧
    (∃ r ∈ (nextBlock [someRec 3]).1, { sRecPost.dev with gtc := 900 }.gtc ≤ r.tick) ∧
    sRecPost.dev.recording = true ∧ (nextBlock sRecPost.dev.hamper.fifo).1.length = 8 ∧ (nextBlock sRecPost.dev.hamper.fifo).2.length = 2 ∧
    sRecPost.dev.flag R.REC_STAT F.REC_STAT_POST = true ∧
    (sRecPost.dev.reg R.REC_TRIG_SEQ).toNat + (sRecPost.dev.reg R.REC_POST).toNat ≤ sRecPost.dev.recWseq := by
  decide

/-- Window 0 is the DMA's, which it has from S0; blocks 0 and 1 are held; the first part of a dump is valid; a copy of each kind has
begun. -/
def sJob (j : List JobSt) (f : Dev → Dev := id) : State := sv (dv DS.READY 1000 fun d =>
  f { puts (d.setReg R.REC_WSEQ 2) [(R.WIN_OWN 0, F.WIN_OWN_OWNER, Mid.DMA), (R.WIN_OWN 0, F.WIN_OWN_PREV, 0),
      (R.DMP_STAT, F.DMP_STAT_VALID, 1)] with hamper := { jobs := j } })

theorem witness_RecorderCopies :
    (sJob []).Up ∧ ((sJob []).dev.recOnChip = true ∧ (sJob []).dev.frozen Pg.REC = false) ∧ (∀ a ∈ [R.REC_EXP, R.RPL_LOAD, R.DMP_EXP], (sJob []).dev.takenAt 0 a = true ∧ (sJob []).dev.flag a F.REC_EXP_BUSY = false) ∧
    ((sJob []).dev.winOwner (getF 0x80000010 F.REC_EXP_WIN) = Mid.DMA ∧ getF 0x80000010 F.REC_EXP_CNT + 1 = 2 ∧
      (∀ i, i < 2 → (sJob []).dev.recHeld (((sJob []).dev.reg R.REC_EXP_SEQ).toNat + i) = true) ∧ (sJob []).dev.recHeld 2 = false ∧
      (sJob []).dev.winOwner (getF 0x80000011 F.REC_EXP_WIN) ≠ Mid.DMA) ∧
    ((sJob []).dev.flag R.REC_CTRL F.REC_CTRL_EN = false ∧ (sJob []).dev.flag R.REC_STAT F.REC_STAT_HELD = false ∧
      (sJob [] fun d => d.put R.REC_STAT F.REC_STAT_HELD 1).dev.flag R.REC_STAT F.REC_STAT_HELD = true) ∧
    ((sJob []).dev.chunkValid (getF 0x80000030 F.DMP_EXP_CHUNK) = true ∧ (sJob []).dev.chunkValid (getF 0x80000040 F.DMP_EXP_CHUNK) = false) ∧
    (∀ k ∈ [0, 1, 2], (sJob [{ kind := k, n := 1 }]).dev.winOwner 0 = Mid.DMA) ∧ (sJob [{ win := 1 }]).dev.winOwner 1 ≠ Mid.DMA := by
  unfold State.Up; decide

/-- A load of one block begun; the windows hold `m`. -/
def sLoad (m : Memory) : State := ⟨(sJob [{ kind := 1, n := 1 }]).dev, ⟨m, [], [], [], []⟩, []⟩

theorem recWords_length (r : RecRec) : (recWords r).length = r.data.length + 2 := rfl

theorem padWords_length {n : Nat} (h : 1 < n) : (padWords n).length = n := by
  rw [padWords, if_neg (by omega), List.length_cons, List.length_replicate]; omega

theorem blockWords_length (n : Nat) (l : List RecRec) (h : (l.flatMap recWords).length < 1019) : (blockWords n l).length = 1024 := by
  have e := padWords_length (n := 1020 - (l.flatMap recWords).length) (by omega)
  simp only [blockWords, List.length_append, List.length_cons, List.length_nil, e]; omega

theorem blockGood_blockWords (n : Nat) : blockGood (blockWords n []) = true := by simp [blockGood, blockWords, nthD, b2n]

theorem sLoad_win (m : Memory) : (sLoad m).mems.win = m := rfl

theorem witness_RecorderCopies_load (m : Memory) :
    (sLoad m).dev.hamper.jobs = [{ kind := 1, n := 1 }] ∧ (sLoad m).dev.winOwner 0 = Mid.DMA ∧ (sLoad m).mems.win = m :=
  ⟨by change (sJob [{ kind := 1, n := 1 }]).dev.hamper.jobs = _; decide,
    by change (sJob [{ kind := 1, n := 1 }]).dev.winOwner 0 = _; decide, rfl⟩

theorem witness_RecorderCopies_bad :
    blockGood ((List.range 1024).map fun k => (sLoad []).mems.win.readWord (0 * 0x10000 + 4 * k)) = false := by decide

theorem witness_RecorderCopies_good :
    ∃ m : Memory, blockGood ((List.range 1024).map fun k => (sLoad m).mems.win.readWord (0 * 0x10000 + 4 * k)) = true := by
  refine ⟨Memory.writeWords [] 0 (blockWords 5 []), ?_⟩
  have h := Memory.words_writeWords (blockWords 5 []) [] 0
  rw [blockWords_length 5 [] (by decide)] at h
  have g := blockGood_blockWords 5
  rw [← h] at g
  simpa only [Nat.zero_mul, sLoad_win] using g

/-- A dump at each of its first phases. -/
def sDump (n : Nat) : State := sv (dv DS.FATAL 1000 fun d => { d with sys := { d.sys with dump := n } })

theorem witness_RecorderCopies_dump : ∀ n ∈ [0, 1, 2, 3], (sDump n).dev.devState ≠ DS.RESET ∧ (sDump n).dev.sys.dump = n := by decide

/-- READY with a confirmed block; the ring holds the START record of this configuration, in a block that is good or not, and an anchor of
track 0 in block 1. -/
def rplDev : Dev := dv DS.READY 1000 fun d =>
  ((d.put R.SAFE_STAT F.SAFE_STAT_CONFIRMED 1).setReg R.RPL_FROM 1).setReg R.REC_WSEQ 2
def rplBlock (good : Bool) (words : List Word) : List Word :=
  (if good then 0x484D0100 else 0) :: (blockWords 0 [{ ty := 3, tick := 400, data := words }]).tail
def rplTail : List Word :=
  blockWords 1 [{ ty := 0x31, tick := 500, data := List.replicate 6 0 }, { ty := 0x13, tick := 600, data := [1] }]
def rplChip (good : Bool) (words : List Word) : Memory := Memory.writeWords (Memory.writeWords [] 0 (rplBlock good words)) 4096 rplTail
def sRplOf (m : Memory) : State := ⟨rplDev, ⟨[], [], m, [], []⟩, []⟩
def sRpl (good : Bool) (words : List Word) : State := sRplOf (rplChip good words)

theorem rpl_word (m : Memory) (a : Nat) : (sRplOf m).ringWord a = m.readWord a := by
  have ho : (sRplOf m).dev.recOnChip = true := by change rplDev.recOnChip = true; decide
  rw [State.ringWord, if_pos ho]; rfl

theorem rpl_block (m : Memory) (n : Nat) (h : n < 3) :
    (sRplOf m).ringBlock n = (List.range 1024).map fun k => m.readWord (n * 4096 + 4 * k) := by
  have hb : rplDev.recNblk = 128 := by decide
  have hf : (sRplOf m).dev.recOffset n = n * 4096 := by
    change n % rplDev.recNblk * 4096 = _
    rw [hb, Nat.mod_eq_of_lt (by omega)]
  simp only [State.ringBlock, hf, rpl_word]

theorem rplBlock_length (good : Bool) (words : List Word) (h : words.length = 38) : (rplBlock good words).length = 1024 := by
  have e := blockWords_length 0 [{ ty := 3, tick := 400, data := words }] (by
    have e : (([{ ty := 3, tick := 400, data := words }] : List RecRec).flatMap recWords).length = words.length + 2 := by
      rw [List.flatMap_cons, List.flatMap_nil, List.append_nil, recWords_length]
    omega)
  simp only [rplBlock, List.length_cons, List.length_tail, e]

theorem rplTail_length : rplTail.length = 1024 := blockWords_length _ _ (by decide)

theorem sRpl_block0 (good : Bool) (words : List Word) (h : words.length = 38) : (sRpl good words).ringBlock 0 = rplBlock good words := by
  have hl := rplBlock_length good words h
  have h1 := Memory.words_writeWords (rplBlock good words) [] 0
  rw [hl] at h1
  rw [sRpl, rpl_block _ _ (by omega)]
  conv_rhs => rw [← h1]
  refine List.map_congr_left fun k hk => ?_
  have := List.mem_range.mp hk
  rw [rplChip, Nat.zero_mul, Memory.readWord_writeWords_out _ _ (.inl (by omega))]

theorem sRpl_block1 (good : Bool) (words : List Word) : (sRpl good words).ringBlock 1 = rplTail := by
  have h1 := Memory.words_writeWords rplTail (Memory.writeWords [] 0 (rplBlock good words)) 4096
  rw [rplTail_length] at h1
  rw [sRpl, rpl_block _ _ (by omega), rplChip, Nat.one_mul]
  exact h1

theorem sRpl_block2 (good : Bool) (words : List Word) (h : words.length = 38) : nthD 0 ((sRpl good words).ringBlock 2) 0 = 0 := by
  have hl := rplBlock_length good words h
  rw [sRpl, rpl_block _ _ (by omega), List.range_succ_eq_map, List.map_cons, nthD, rplChip,
    Memory.readWord_writeWords_out _ _ (.inr (by rw [rplTail_length])),
    Memory.readWord_writeWords_out _ _ (.inr (by rw [hl]; omega))]
  rfl

def rplSet : List RefSt := parseBlock 1 rplTail

theorem readStream_good (s : State) (fuel n : Nat) (h : blockGood (s.ringBlock n) = true) (hn : blockSeq (s.ringBlock n) = n) :
    s.readStream 0 (fuel + 1) n = (parseBlock n (s.ringBlock n) ++ (s.readStream 0 fuel (n + 1)).1, (s.readStream 0 fuel (n + 1)).2) := by
  simp [State.readStream, h, hn]

theorem readStream_end (s : State) (fuel n : Nat) (h : blockGood (s.ringBlock n) = false) (hn : s.dev.recWseq ≤ n) :
    s.readStream 0 (fuel + 1) n = ([], 0) := by
  simp [State.readStream, h, hn]

theorem sRpl_stream (good : Bool) (words : List Word) (h : words.length = 38) :
    (sRpl good words).readStream 0 128 1 = (rplSet ++ [], 0) := by
  have z := sRpl_block2 good words h
  have g2 : blockGood ((sRpl good words).ringBlock 2) = false := by
    simp only [blockGood]; rw [z]; rfl
  have w : (sRpl good words).dev.recWseq ≤ 2 := by change rplDev.recWseq ≤ 2; decide
  have e : (sRpl good words).readStream 0 127 2 = ([], 0) := readStream_end _ 126 2 g2 w
  have f := readStream_good (sRpl good words) 127 1
  rw [sRpl_block1] at f
  refine (f (by simp [rplTail, blockGood, blockWords, nthD, b2n, -List.reduceReplicate]) (by decide)).trans ?_
  rw [e]; rfl

theorem readGood_good (s : State) (fuel n : Nat) (h : blockGood (s.ringBlock n) = true) (hn : blockSeq (s.ringBlock n) = n) :
    s.readGood 0 (fuel + 1) n = parseBlock n (s.ringBlock n) ++ s.readGood 0 fuel (n + 1) := by
  simp [State.readGood, h, hn]

theorem readGood_end (s : State) (fuel n : Nat) (h : blockGood (s.ringBlock n) = false) (hn : s.dev.recWseq ≤ n) :
    s.readGood 0 (fuel + 1) n = [] := by
  simp [State.readGood, h, hn]

theorem readGood_skip (s : State) (fuel n : Nat) (h : blockGood (s.ringBlock n) = false) (hn : n < s.dev.recWseq) :
    s.readGood 0 (fuel + 1) n = s.readGood 0 fuel (n + 1) := by
  simp [State.readGood, h, hn]

theorem sRpl_good (good : Bool) (words : List Word) (h : words.length = 38) : (sRpl good words).readGood 0 128 1 = rplSet ++ [] := by
  have z := sRpl_block2 good words h
  have g2 : blockGood ((sRpl good words).ringBlock 2) = false := by
    simp only [blockGood]; rw [z]; rfl
  have w : (sRpl good words).dev.recWseq ≤ 2 := by change rplDev.recWseq ≤ 2; decide
  have f := readGood_good (sRpl good words) 127 1
  rw [sRpl_block1] at f
  refine (f (by simp [rplTail, blockGood, blockWords, nthD, b2n, -List.reduceReplicate]) (by decide)).trans ?_
  rw [readGood_end _ 126 2 g2 w]; rfl

/-- The same device with an empty ring: no set. -/
theorem sRplOf_empty (n : Nat) (h : n < 3) : blockGood ((sRplOf []).ringBlock n) = false := by
  have z : nthD 0 ((sRplOf []).ringBlock n) 0 = 0 := by
    rw [rpl_block _ _ h, List.range_succ_eq_map, List.map_cons]; rfl
  simp only [blockGood]; rw [z]; rfl

theorem witness_Replay_empty :
    (sRplOf []).Up ∧ (sRplOf []).dev.takenAt 0 R.RPL_CTRL = true ∧ firstSet ((sRplOf []).readGood 0 128 1) = none := by
  have a : rplDev.devState ≠ DS.RESET ∧ rplDev.takenAt 0 R.RPL_CTRL = true ∧ rplDev.recWseq = 2 := by decide
  refine ⟨a.1, a.2.1, ?_⟩
  rw [readGood_skip _ 127 1 (sRplOf_empty 1 (by decide)) (by change 1 < rplDev.recWseq; rw [a.2.2]; decide),
    readGood_end _ 126 2 (sRplOf_empty 2 (by decide)) (by change rplDev.recWseq ≤ 2; rw [a.2.2])]
  rfl

theorem recHead (r : RecRec) (h1 : r.ty < 256) (h3 : r.data.length < 128) :
    let w : Word := BitVec.ofNat 32 (r.ty * 2 ^ 24 + b2n r.spec * 2 ^ 23 + r.data.length % 128 * 2 ^ 16 + r.res % 2 ^ 16)
    w.toNat / 2 ^ 24 = r.ty ∧ w.toNat / 2 ^ 16 % 128 = r.data.length ∧ bitOf w 23 = r.spec ∧ w.toNat % 2 ^ 16 = r.res % 2 ^ 16 := by
  have hb : b2n r.spec < 2 := by cases r.spec <;> decide
  have e : (BitVec.ofNat 32 (r.ty * 2 ^ 24 + b2n r.spec * 2 ^ 23 + r.data.length % 128 * 2 ^ 16 + r.res % 2 ^ 16)).toNat =
      r.ty * 2 ^ 24 + b2n r.spec * 2 ^ 23 + r.data.length * 2 ^ 16 + r.res % 2 ^ 16 := by
    rw [BitVec.toNat_ofNat]; omega
  refine ⟨by simp only [e]; omega, by simp only [e]; omega, ?_, by simp only [e]; omega⟩
  simp only [bitOf, e]
  cases h : r.spec <;> simp only [h, b2n] at hb ⊢ <;> simp <;> omega

theorem parse_rec (seq fuel ofs : Nat) (r : RecRec) (rest : List Word) (h1 : 1 < r.ty ∧ r.ty < 256) (h2 : r.res < 2 ^ 16)
    (h3 : r.data.length < 128) (h4 : r.tick < 2 ^ 32) :
    parseWords seq (fuel + 1) 0 ofs (recWords r ++ rest) = ⟨r, seq, ofs⟩ :: parseWords seq fuel 0 (ofs + 8 + 4 * r.data.length) rest := by
  have h := recHead r h1.2 h3
  obtain ⟨a, b, c, e⟩ := h
  rw [recWords, List.cons_append, List.cons_append, parseWords]
  simp only [a, b, c, e]
  rw [if_neg (by omega), if_neg (by omega), List.take_left, List.drop_left, BitVec.toNat_ofNat, Nat.mod_eq_of_lt h4,
    Nat.mod_eq_of_lt h2, Nat.zero_mul, Nat.zero_add]

theorem parse_pad (seq fuel hi ofs n : Nat) (h : 1 < n) : parseWords seq (fuel + 1) hi ofs (padWords n) = [] := by
  obtain ⟨k, rfl⟩ : ∃ k, n = k + 2 := ⟨n - 2, by omega⟩
  rw [padWords, if_neg (by omega), show k + 2 - 1 = k + 1 by omega, List.replicate_succ, parseWords]
  have e : (BitVec.ofNat 32 (min 112 (k + 2 - 2) * 2 ^ 16)).toNat / 2 ^ 24 = 0 := by rw [BitVec.toNat_ofNat]; omega
  simp only [e, if_true]

theorem parse_block (seq m : Nat) (l : List RecRec) : parseBlock seq (blockWords m l) =
    parseWords seq 512 (BitVec.ofNat 32 (firstHi l)).toNat 16 (l.flatMap recWords ++ padWords (1020 - (l.flatMap recWords).length)) := rfl

theorem rplSet_eq : rplSet = [⟨{ ty := 0x31, tick := 500, data := List.replicate 6 0 }, 1, 16⟩, ⟨{ ty := 0x13, tick := 600, data := [1] }, 1, 48⟩] := by
  rw [rplSet, rplTail, parse_block, List.flatMap_cons, List.flatMap_cons, List.flatMap_nil, List.append_nil, List.append_assoc,
    List.length_append, recWords_length, recWords_length, show (BitVec.ofNat 32 (firstHi _)).toNat = 0 from rfl,
    parse_rec 1 511 16 { ty := 0x31, tick := 500, data := List.replicate 6 0 } _ (by decide) (by decide) (by decide) (by decide),
    parse_rec 1 510 _ { ty := 0x13, tick := 600, data := [1] } _ (by decide) (by decide) (by decide) (by decide), parse_pad 1 509 0 _ _ (by decide)]
  rfl

theorem sRpl_set : firstSet (rplSet ++ []) = some 500 ∧
    ((rplSet ++ []).find? fun (y : RefSt) => isAnchor y && y.r.tick == 500).map (fun (p : RefSt) => (p.seq, p.ofs)) = some (1, 16) := by
  rw [rplSet_eq]; decide

def rplFirst : RefSt := ⟨{ ty := 0x31, tick := 500, data := List.replicate 6 0 }, 1, 16⟩
def rplRec (words : List Word) : RefSt := ⟨{ ty := 3, tick := 400, data := words }, 0, 16⟩

theorem sRpl_parse0 (good : Bool) (words : List Word) (h : words.length = 38) : parseBlock 0 (rplBlock good words) = [rplRec words] := by
  change parseBlock 0 (blockWords 0 [{ ty := 3, tick := 400, data := words }]) = _
  rw [parse_block, List.flatMap_cons, List.flatMap_nil, List.append_nil, recWords_length,
    show (BitVec.ofNat 32 (firstHi [{ ty := 3, tick := 400, data := words }])).toNat = 0 by simp [firstHi],
    parse_rec 0 511 16 { ty := 3, tick := 400, data := words } _ (by simp) (by simp) (by simp [h]) (by simp),
    parse_pad 0 510 0 _ _ (by simp only [h]; decide), rplRec]

theorem findStart_none (s : State) (fuel n : Nat) (lim : Option RefSt) (ok : Bool) (h : blockSeq (s.ringBlock n) = n)
    (hl : startIn (parseBlock n (s.ringBlock n)) lim = none) (hn : n ≠ 0) :
    s.findStart (fuel + 1) n lim ok = s.findStart fuel (n - 1) lim (ok && blockGood (s.ringBlock n)) := by
  simp only [State.findStart, startFrom, h, hl, beq_self_eq_true, Bool.not_true, Bool.and_false, Bool.false_eq_true, if_true, if_false, hn]

theorem findStart_some (s : State) (fuel n : Nat) (lim : Option RefSt) (ok : Bool) (p : RefSt) (h : blockSeq (s.ringBlock n) = n)
    (hl : startIn (parseBlock n (s.ringBlock n)) lim = some p) :
    s.findStart (fuel + 1) n lim ok = (some p, ok && blockGood (s.ringBlock n)) := by
  simp only [State.findStart, startFrom, h, hl, beq_self_eq_true, Bool.not_true, Bool.and_false, Bool.false_eq_true, if_true, if_false]

theorem sRpl_start (good : Bool) (words : List Word) (h : words.length = 38) :
    (sRpl good words).findStart 128 1 (some rplFirst) true = (some (rplRec words), good) := by
  have e1 : blockSeq rplTail = 1 := by decide
  have e0 : blockSeq (rplBlock good words) = 0 := rfl
  have g1 : blockGood rplTail = true := by simp [rplTail, blockGood, blockWords, nthD, b2n, -List.reduceReplicate]
  have g0 : blockGood (rplBlock good words) = good := by
    cases good <;> simp [rplBlock, blockGood, blockWords, nthD]
  have p1 : parseBlock 1 rplTail = [rplFirst, ⟨{ ty := 0x13, tick := 600, data := [1] }, 1, 48⟩] := rplSet_eq
  have f1 := findStart_none (sRpl good words) 127 1 (some rplFirst) true
  rw [sRpl_block1] at f1
  have f0 := findStart_some (sRpl good words) 126 0 (some rplFirst) true
  rw [sRpl_block0 _ _ h] at f0
  have s1 : (sRpl good words).findStart 128 1 (some rplFirst) true = (sRpl good words).findStart 127 0 (some rplFirst) true := by
    refine (f1 e1 (by rw [p1]; decide) (by decide)).trans ?_
    rw [g1]; rfl
  have s0 : (sRpl good words).findStart 127 0 (some rplFirst) true = (some (rplRec words), good) := by
    refine (f0 (rplRec words) e0 ?_).trans (by rw [g0]; rfl)
    rw [sRpl_parse0 good words h]; rfl
  exact s1.trans s0

theorem rpl_fails : rplDev.startFails (some (rplRec [])) = 3 ∧ rplDev.startFails (some (rplRec rplDev.startWords)) = 0 := by
  refine ⟨by decide, ?_⟩
  have h : rplDev.flag R.SAFE_STAT F.SAFE_STAT_CONFIRMED = true := by decide
  have n : startPages.length = 28 := by decide
  have hh : rplDev.hashWords.length = 8 := rfl
  have t : (startPages.map rplDev.pgCrc).take 28 = startPages.map rplDev.pgCrc := List.take_of_length_le (by rw [List.length_map, n])
  simp only [Dev.startFails, rplRec, Dev.startWords, List.cons_append, List.nil_append, nthD, ne_eq, not_true_eq_false, if_false, h,
    Dev.spbCheck, Bool.true_eq_false, List.drop_succ_cons, List.drop_zero]
  rw [List.take_left' hh, List.drop_left' hh, t]
  simp

theorem witness_Replay_start (good : Bool) (words : List Word) (h : words.length = 38) :
    (sRpl good words).Up ∧ (sRpl good words).dev.takenAt 0 R.RPL_CTRL = true ∧ (sRpl good words).dev.replaying = false ∧
    (sRpl good words).dev.devState = DS.READY ∧ (sRpl good words).dev.flag R.REC_CTRL F.REC_CTRL_EN = false ∧
    (sRpl good words).dev.recOnChip = true ∧
    (let all := (sRpl good words).readGood ((sRpl good words).dev.reg R.RPL_TO).toNat (sRpl good words).dev.recNblk
      ((sRpl good words).dev.reg R.RPL_FROM).toNat
     let l := ((sRpl good words).readStream ((sRpl good words).dev.reg R.RPL_TO).toNat (sRpl good words).dev.recNblk rplFirst.seq).1
     firstSet all = some 500 ∧ all.find? (fun (y : RefSt) => isAnchor y && y.r.tick == 500) = some rplFirst ∧
       setComplete (beforeLoss l) 500 = true ∧ setSize l 500 = setSize all 500) ∧
    (let st := (sRpl good words).findStart (sRpl good words).dev.recNblk rplFirst.seq (some rplFirst) true
     st.2 = good ∧ (sRpl good words).dev.startFails st.1 = rplDev.startFails (some (rplRec words))) := by
  have hd : (sRpl good words).dev = rplDev := rfl
  have a : rplDev.recNblk = 128 ∧ (rplDev.reg R.RPL_TO).toNat = 0 ∧ (rplDev.reg R.RPL_FROM).toNat = 1 := by decide
  have b : rplDev.devState ≠ DS.RESET ∧ rplDev.takenAt 0 R.RPL_CTRL = true ∧ rplDev.replaying = false ∧
    rplDev.devState = DS.READY ∧ rplDev.flag R.REC_CTRL F.REC_CTRL_EN = false ∧ rplDev.recOnChip = true := by decide
  rw [State.Up, hd, a.1, a.2.1, a.2.2, sRpl_good good words h, show rplFirst.seq = 1 from rfl, sRpl_stream good words h]
  have e := sRpl_start good words h
  change _ ∧ _ ∧ _ ∧ _ ∧ _ ∧ _ ∧ _ ∧ _
  refine ⟨b.1, b.2.1, b.2.2.1, b.2.2.2.1, b.2.2.2.2.1, b.2.2.2.2.2, by rw [rplSet_eq]; decide, ?_⟩
  rw [e]
  exact ⟨rfl, rfl⟩

/-- What a start is tried with: a record of this configuration, and one of another. -/
theorem witness_Replay_words :
    rplDev.startWords.length = 38 ∧ rplDev.startFails (some (rplRec rplDev.startWords)) = 0 ∧
    (List.replicate 38 (0 : Word)).length = 38 ∧ rplDev.startFails (some (rplRec (List.replicate 38 0))) = 3 :=
  ⟨rfl, rpl_fails.2, by decide, by decide⟩

theorem witness_Replay_refused :
    (sC.Up ∧ sC.dev.takenAt 0 R.RPL_CTRL = true ∧ sC.dev.replaying = false ∧ sC.dev.devState ≠ DS.READY) ∧
    (let s := sRec 1 0 0 []
     s.Up ∧ s.dev.takenAt 0 R.RPL_CTRL = true ∧ s.dev.replaying = false ∧ s.dev.devState = DS.READY ∧
       s.dev.flag R.REC_CTRL F.REC_CTRL_EN = true) := by
  unfold State.Up; decide

/-- A replay that runs, its RT 500 ticks behind GTC, with the records to come. -/
def sReplay (l : List RefSt) (f : RplSt → RplSt := id) : State := sv (dv DS.READY 1000 fun d =>
  { d.put R.RPL_STAT F.RPL_STAT_RUN 1 with rpl := f { back := -500, ref := l, stop := 3 } })

/-- A record at a tick. -/
def aRef (ty tick : Nat) (data : List Word := []) : RefSt := ⟨{ ty, tick, data }, 1, 16⟩

/-- A write of a plain register, and one of a command word. -/
def aWrite (a : Nat) : RefSt := aRef 0x15 500 [BitVec.ofNat 32 a, 5]

theorem witness_Replay : ∀ l ∈ [[], [aRef 0x13 501], [aRef 0x02 500], [aRef 0x13 500, aRef 0x02 500], [aRef 0x10 500, aRef 0x02 500],
      [aRef 0x12 500 [1, 2, 3], aRef 0x02 500], [aRef 0x14 500 [0xA0000000, 7, 0], aRef 0x02 500], [aWrite (R.CTX_CMD 0 3), aRef 0x02 500],
      [aWrite (R.PG_ID (Pg.PWT 0) + 0x44), aRef 0x02 500]],
    (sReplay l).Up ∧ (sReplay l).dev.takenAt 0 R.RPL_CTRL = true ∧ (sReplay l).dev.replaying = true ∧ (sReplay l).dev.rpl.shift = 0 ∧
    0 ≤ ((sReplay l).dev.gtc : Int) + (sReplay l).dev.rpl.back ∧ (sReplay l).dev.flag R.RPL_STAT F.RPL_STAT_DIVERGED = false ∧
    (sReplay l).dev.rpl.ref = l ∧ (sReplay l).dev.rpl.got = [] ∧ (sReplay l).dev.rpl.parts = [] ∧
    ((sReplay l).dev.gtc : Int) + (sReplay l).dev.rpl.back = 500 ∧ (sReplay l).dev.frozen Pg.RPL = false ∧ 0 ∉ (sReplay l).dev.rpl.joined := by
  unfold State.Up; decide

/-- The end of the stream with a surplus record, and before its last tick; a trigger of a joined context that is reproduced alike, with
another word, not yet and not at all. -/
theorem witness_Replay_compared :
    ((sReplay [] fun q => { q with last := { tick := 499 } }).dev.rpl.last.tick < 500 ∧
      500 ≤ (sReplay [] fun q => { q with last := { tick := 500 } }).dev.rpl.last.tick) ∧
    (let s := sReplay [] fun q => { q with last := { ty := 0x10, tick := 450 }, got := [{ ty := 0x10, tick := 400 }] }
     s.Up ∧ s.dev.replaying = true ∧ recBefore { ty := 0x10, tick := 400 } s.dev.rpl.last = true) ∧
    (∀ w ∈ [(0 : Word), 1], let s := sReplay [aRef 0x10 500 [0], aRef 0x13 500] fun q => { q with joined := [0], got := [{ ty := 0x10, tick := 500, data := [w] }] }
     s.Up ∧ s.dev.replaying = true ∧ 0 ∈ s.dev.rpl.joined ∧ (recWords (aRef 0x10 500 [0]).r = recWords { ty := 0x10, tick := 500, data := [w] }) = (w = 0)) ∧
    ∀ t ∈ [500, 499], (sReplay [aRef 0x10 t, aRef 0x13 500] fun q => { q with joined := [0] }).dev.rpl.got = [] := by
  unfold State.Up
  refine ⟨by decide, by decide, fun w hw => ?_, by decide⟩
  simp only [List.mem_cons, List.not_mem_nil, or_false] at hw
  rcases hw with rfl | rfl
  · refine ⟨by decide, by decide, by decide, ?_⟩; simp [recWords, aRef]
  · refine ⟨by decide, by decide, by decide, ?_⟩; simp [recWords, aRef]

theorem witness_Replay_writes :
    (sReplay []).dev.ctxPresent 0 = true ∧
    (let a := R.PG_ID (Pg.PWT 0) + 0x44
     inRegs a = true ∧ a % 4 = 0 ∧ pageInfo (pageOf a) = some (.pwtB, 0) ∧ offOf a = 0x44 ∧ blockPresent (sReplay []).dev.member .pwtB 0 = true ∧
       absentReg (sReplay []).dev.member .pwtB 0 0x44 = false ∧ plainReg .pwtB 0 0x44 = true ∧ (regAt .pwtB 0x44).isSome = true ∧
       (5 : Word) &&& absentBits (sReplay []).dev.member .pwtB 0 0x44 = 0) := by
  decide

/-! ### Faults, reset, start-up -/

/-- Two frames dropped; and FATAL with the dump at a phase. -/
def sDrops (n : Nat) : State := sv (dv DS.RUN 1000 fun d => { d with sys := { d.sys with drops := n } })

theorem witness_LinkAndChannelFaults :
    (∀ n ∈ [0, 1, 2, 3], (sDrops n).Live ∧ (sDrops n).dev.devState ≠ DS.FATAL ∧ (sDrops n).dev.sys.drops = n) ∧
    (∀ n ∈ [1, 2], (sDump n).Live ∧ (sDump n).dev.devState = DS.FATAL ∧ (sDump n).dev.sys.dump = n) := by
  unfold State.Live State.Up; decide

/-- RESET with the pin released; and BOOT after `l` has been tried. -/
def sReleased : State := sv { Dev.reset with sys := { Dev.reset.sys with released := true } }
def sBoot (l : List Nat) (f : Dev → Dev := id) : State := sv (dv DS.BOOT 1000 fun d => f { d with sys := { d.sys with tried := l } })

/-- Machine 0 has its groups enabled; M0 is held already; and a state in BOOT. -/
def sHold : State := sv (dv DS.RUN 1000 fun d =>
  { d.put R.RST_DOM F.RST_DOM_S1_HELD 1 with mach := [(0, mst MS.RUN)] })

theorem witness_HoldCauses :
    sHold.Live ∧ sHold.dev.holds1 ∧ (sBoot []).Live ∧ (sBoot []).dev.devState = DS.BOOT ∧ (∀ x ∈ [(-200 : Int), 200], x.natAbs ≤ 200) ∧
    (∀ x ∈ [(-201 : Int), 201, 40000], 200 < x.natAbs) ∧ ((160 : Int) ≤ 160 ∧ (160 : Int) < 161) ∧
    sHold.dev.flag R.RST_DOM F.RST_DOM_S0_HELD = false ∧ sHold.dev.flag R.RST_DOM F.RST_DOM_S1_HELD = true ∧
    groupPresent sHold.dev.member 0 = true ∧ groupPresent sHold.dev.member 19 = true ∧
    (sHold.dev.machOf 0 = some 0 ∧ sHold.dev.mState 0 ≠ MS.OFF ∧ sHold.dev.mState 0 ≠ MS.FAULT) ∧
    (sHoldAsc.Live ∧ sHoldAsc.dev.devState = DS.SAFE_HOLD) ∧ Rail.vddSer ≠ Rail.vgd ∧ Rail.vddSer ≠ Rail.vddio := by
  unfold State.Live State.Up Dev.holds1; decide

/-- The key window of RST is S0's, and Debug is attached with its right. -/
def sRst (f : Dev → Dev := id) : State := sv (dv DS.READY 1000 fun d =>
  f ((puts d [(R.MBX_RIGHTS, F.MBX_RIGHTS_DBG_WR, 1), (R.DBG_CTRL, F.DBG_CTRL_ATTACHED, 1)]).setKey Pg.RST { win := some (Mid.S0, 1000) }))

theorem witness_Resets :
    (sRst.Up ∧ sRst.dev.sys.rst = none ∧ sRst.dev.sys.dump ≠ 1 ∧ sRst.dev.takenAt Mid.S0 R.RST_CTRL = true ∧
      sRst.dev.dbgOk Mid.DEBUG = true ∧ sRst.dev.dbgOk Mid.S0 = false) ∧
    ((sDump 1).Up ∧ (sDump 1).dev.sys.rst = none ∧ (sDump 1).dev.sys.dump = 1) ∧ ¬State.reset.Up ∧
    (∀ t ∈ [1000, 1001], let s := sRst (fun d => { d with sys := { d.sys with rst := some (t, causeSoft) } });
      s.Up ∧ s.dev.sys.rst = some (t, causeSoft) ∧ s.dev.gtc = 1000 ∧ s.dev.sys.dump ≠ 1) ∧
    (let s := sRst (fun d => { d with sys := { d.sys with rst := some (1000, causePin), dump := 1 } });
      s.Up ∧ s.dev.sys.rst = some (1000, causePin) ∧ s.dev.sys.dump = 1) := by
  unfold State.Up; decide

/-- All that BOOT_COMPLETE waits for. -/
def sBooted : State := sBoot [] fun d =>
  { puts d [(R.PWG_DL_STAT, F.PWG_DL_STAT_BOOT_DONE, 1), (R.DDR_STAT, F.DDR_STAT_READY, 1)] with
    sys := { d.sys with slot := some 0, calDone := true } }

/-- CONFIGURE with the key window of SEC; the lifecycle is `n`. -/
def sLc (n : Nat) : State := sv (dv DS.CONFIGURE 1000 fun d =>
  { d.setKey Pg.SEC { win := some (Mid.S0, 1000) } with nv := { d.nv with lc := n } })

theorem witness_StartUp :
    (¬State.reset.Up ∧ State.reset.dev.sys.released = false) ∧ (¬sReleased.Up ∧ sReleased.dev.sys.released = true) ∧
    ((sBoot []).Up ∧ (sBoot []).dev.devState = DS.BOOT ∧ (sBoot []).dev.sys.slot = none ∧ (sBoot []).dev.nextSlot [] = 0 ∧
      (sBoot []).dev.nextSlot [(4, 1)] = 1) ∧
    ((sBoot [0]).dev.sys.tried.length = 1 ∧ (sBoot [0]).dev.devState = DS.BOOT ∧ (sBoot [0]).dev.sys.slot = none ∧
      (sBoot [0]).dev.nextSlot [] = 1) ∧ imageCode (sBoot []).dev.nv [] 0 ≠ 0 ∧
    sBooted.dev.bootDone = true ∧ (sBoot []).dev.bootDone = false ∧
    (∀ n ∈ [0, 1, 2], (sLc n).Up ∧ (sLc n).dev.inConfigure = true ∧ (sLc n).dev.keyOpenFor Pg.SEC Mid.S0 = true ∧ n + 1 ≤ 3 ∧
      (sLc n).dev.nv.lc = n) ∧ sRst.dev.dbgOk Mid.DEBUG = true ∧ false ≠ sRst.dev.flag R.DBG_CTRL F.DBG_CTRL_ATTACHED ∧
    ((sBoot [0] fun d => d.put R.XSPI_STAT F.XSPI_STAT_OCTAL 1).dev.flag R.XSPI_STAT F.XSPI_STAT_OCTAL = true) ∧
    (∀ n ∈ [1, 3], true ≠ (sLc n).dev.flag R.DBG_CTRL F.DBG_CTRL_ATTACHED ∧ lcDebug (sLc n).dev.nv.lc = true) ∧
    (∀ n ∈ [0, 2], (sLc n).dev.flag R.DBG_CTRL F.DBG_CTRL_ATTACHED = false ∧ lcDebug (sLc n).dev.nv.lc = false) := by
  unfold State.Up; decide

/-- In the states above no page's clocked state stands still (R27): the premise that statements of clocked rows share. -/
theorem witness_clocked : ∀ s ∈ [sC, sR, sX, sSync, sSynced, sTrk, sTrkW, sSlot, sFire, sCarr, sAng, sAda, sHand, sCal, sRot, sOw, sBankB, sAcc,
    sCommit, sCmp, sBlank, sEdge, sUpd, sReq, sRes, sPassReq, sPass, sSpec, sPwm, sEdges, sGate, sLegs, sTimers, sEval, sSto, sHoldAsc, sTmon,
    sRecheck, sRing, sRingA, sRingRx, sRingLate, sEpoch DS.RUN, sEpCommit DS.OVERCAST, sCan, sEth, sMem, sRecPost, sJob [], sReplay []],
    s.dev.flag R.DBG_CTRL F.DBG_CTRL_HALTED = false := by decide

/-! ### Ill-formed commands: one for each check of WellFormed -/

theorem refused_1 : ∀ i ∈ ([
    .registerWrite 16 0 4 0, .registerWrite 0 4294967296 4 0, .registerWrite 0 0 0 0, .registerWrite 0 0 3 0,
    .registerWrite 0 0 5 0, .pageClaim 16 0, .pageClaim 0 512, .pageRelease 16 0, .pageRelease 0 512, .unitClaim 16 0,
    .unitClaim 0 4294967296, .unitRelease 16 0, .unitRelease 0 4294967296, .keyFirstWord 16 0, .keyFirstWord 0 512,
    .keySecondWord 16 0, .keySecondWord 0 512, .keyClose 16 0, .keyClose 0 512, .keySequenceExpiry 512,
    .keyWindowExpiry 512, .lowWordRead 16 ⟨0, 4⟩, .lowWordRead 0 ⟨4294967296, 4⟩,
    .lowWordRead 0 ⟨0, 3⟩, .trkAngRead 16 0, .trkAngRead 0 24,
    .accRes0Read 16 0, .accRes0Read 0 384, .mmxMinRead 16 0, .mmxMinRead 0 128, .ctxOut0Read 16 0, .ctxOut0Read 0 192,
    .posAngRead 16 0 false, .posAngRead 0 12 false, .tmTqRead 16 0, .tmTqRead 0 20, .sfxFrameRead 16 0] : List Instr), i.wf = false := by decide

theorem refused_2 : ∀ i ∈ ([
    .sfxFrameRead 0 16, .evtLastRead 16, .pgEvtClr 16 0 0, .pgEvtClr 0 512 0, .evtOutPulseEnd 4, .enaReadback 20 .p,
    .tlRateWrite 16 0, .vtOfsHiWrite 16 0, .trackUpdate 24, .trkStale 24, .trkAngWrite 16 0 0, .trkAngWrite 0 24 0,
    .trkSpdWrite 16 0 0, .trkSpdWrite 0 24 0, .trkCfgWrite 16 0 0, .trkCfgWrite 0 24 0, .slotTrigWrite 16 0 0,
    .slotTrigWrite 0 1024 0, .slotArgWrite 16 0 0, .slotArgWrite 0 1024 0, .absoluteSlotDecide 1024,
    .periodicSlotDecide 1024, .carrierSlotDecide 1024, .angleSlotDecide 1024, .angleSlotRearm 1024, .accOpen 1024,
    .accClose 1024, .accSwap 1024, .ctxRun 1024, .ctxSpec 1024, .posReq 1024, .excPhase 1024, .blankOn 1024,
    .blankOff 1024, .owOn 1024, .owOff 1024] : List Instr), i.wf = false := by decide

theorem refused_3 : ∀ i ∈ ([
    .recMark 1024, .slotArm 1024, .evtPulse 1024, .slotDisarm 1024, .adaSample 48 0 0, .adaSample 0 16384 0,
    .adaSample 0 0 16384, .adaResultArrival 48, .adaSeqWrite 16 0 0, .adaSeqWrite 0 48 0, .sliceCalibrationDone 52 0 0,
    .calStale 48, .owEvaluation 96, .sdcFault 12, .sinc3Output 48 [], .adbCopyArrival 48, .sdStuck 48,
    .fastSinc3Output 48 [], .accCommit 384, .accConfigWrite 16 0 0 0, .accConfigWrite 0 384 0 0, .accConfigWrite 0 0 4 0,
    .mmxClear 16 0, .mmxClear 0 128, .cmpTrip 72 0, .cmpRelease 72 0, .cmpStart 72, .cmpStartDone 72, .cmpStartLate 72,
    .cmpStrobe 72 0, .cmpSettingApplied 72, .edgeBlankEnd 72, .cmpBlankCap 72, .cmpClear 16 0, .cmpClear 0 72,
    .posEdgeAccept 12 false false false] : List Instr), i.wf = false := by decide

theorem refused_4 : ∀ i ∈ ([
    .updMinExpiry 12, .decayUpdate 12, .zeroSpd 12, .uncClr 16 0, .uncClr 0 12, .ssiWord 12 0, .bissWord 12 0 0 0,
    .posTimeout 12, .resolverWord 12, .excFault 4 [], .shadowEdgeAccept 12 false false false, .shadowExcLoss 12, .emuStep 4,
    .passStart 8, .ctxWaitTimeout 192, .ctxDrop 192, .passCommit 192, .ctxEnable 16 0 0, .ctxEnable 0 192 0,
    .ctxDisable 16 0 0, .ctxDisable 0 192 0, .specStage 192, .recomputeStart 8, .recomputeCommit 192, .specSuspClear 16 0,
    .specSuspClear 0 192, .pwmGroupEnable 16 0, .pwmGroupEnable 0 20, .pwmGroupStart 20, .pwmGroupDisable 16 0,
    .pwmGroupDisable 0 20, .captureTick 20, .loadPoint 20, .pwtCommit 16 0, .pwtCommit 0 20, .legForceWrite 16 0 0 0] : List Instr), i.wf = false := by decide

theorem refused_5 : ∀ i ∈ ([
    .legForceWrite 0 20 0 0, .legForceWrite 0 0 3 0, .forceImmediate 20 0, .forceImmediate 0 3, .dlCalibrationDone 72 0 [],
    .dlCalibrationDone 0 2 [], .dlCalibrationTimeout 72 0, .dlCalibrationTimeout 0 2, .drdyReady 20, .drdyTout 20,
    .drdyLost 20, .enaChkFail 20, .legFlt 20 0 false, .legFlt 0 3 false, .legShoot 20 0, .legShoot 0 3, .legOutRb 20 0,
    .legOutRb 0 3, .legClear 16 0 0, .legClear 0 20 0, .legClear 0 0 8, .legSoftRelease 16 0 0, .legSoftRelease 0 20 0,
    .legSoftRelease 0 0 8, .commStateWrite 16 0 0, .commStateWrite 0 8 0, .bstUv 8 0, .bstUv 0 3, .bstRefreshSample 8 0 0,
    .bstRefreshSample 0 3 0, .nop 32, .version 32, .devState 32, .notify 32, .machDefine 32, .machClaim 32] : List Instr), i.wf = false := by decide

theorem refused_6 : ∀ i ∈ ([
    .cfgWrite 32, .machStart 32, .machCmd 32, .machStop 32, .machSto 32, .machDischarge 32, .machClear 32, .machStatus 32,
    .spbWrite 32, .ringRejoin 32, .brakeP 32, .safeAck 32, .safeSto 32, .safeSs1 32, .outM 32, .ringReq 32,
    .machEvaluate 20, .armEnablesHigh 20, .machArmFail 20, .catchComplete 20, .alignTimeout 20, .startWindowExpiry 20,
    .retryWaitExpiry 20, .stopSpeedTimer 20, .dischargeLate 20, .tmonEvaluation 20, .safeReqSs1Write 16 0,
    .safeReqStoWrite 16 0, .safeAckWrite 16 0, .ss1Fail 20, .ascReleaseTimer 20, .disMLate 20, .safeConfirmWrite 16 0,
    .tempHigh 4 0, .copyReceive .a ⟨List.replicate 15 0, 0⟩, .copyReceive .a ⟨List.replicate 17 0, 0⟩] : List Instr), i.wf = false := by decide

theorem refused_7 : ∀ i ∈ ([
    .pairTimeout 16, .ringSrcLost 16, .mbxRightsWrite 16 0, .mbxBind 16 0 0, .mbxBind 0 32 0, .mbxUnbind 16 0,
    .mbxUnbind 0 32, .mbxSend 16 0 0, .mbxSend 0 32 0, .mbxReceive 16 0, .mbxReceive 0 32, .mbxFlush 16 0, .mbxFlush 0 32,
    .lockAcquire 16 0, .lockAcquire 0 64, .lockRelease 16 0, .lockRelease 0 64, .lockForced 16 0, .lockForced 0 64,
    .winTake 16 0 0, .winTake 0 16 0, .winTake 0 0 16, .winGiven 16 0 0, .winGiven 0 16 0, .winGiven 0 0 16,
    .winRelease 16 0, .winRelease 0 16, .winForced 16 0, .winForced 0 16, .winDataWrite 16 0 [],
    .winDataWrite 0 4294967296 [], .winDataWrite 0 0 (List.replicate 4097 0), .canFrameRx 8 0 0 ⟨[], false⟩, .canFrameTx 8 false,
    .canRecover 16 0, .canRecover 0 8] : List Instr), i.wf = false := by decide

theorem refused_8 : ∀ i ∈ ([
    .canRecoveryDone 8, .ethFrameRx 2 [], .ethTxdWrite 16 0 0, .ethTxdWrite 0 2 0, .ethRxdRead 16 0, .ethRxdRead 0 2,
    .ethRxpop 16 0, .ethRxpop 0 2, .ethLink 2 false 0, .pcieLink false 4 ⟨1, 0⟩ false, .pcieLink false 1 ⟨3, 0⟩ false, .pcieLink false 1 ⟨1, 257⟩ false, .rd [], .wr [], .rdFix [], .wrFix [],
    .key [], .recStart 16, .recStop 16, .recHostTrigger 16, .recRearm 16, .recFreeze 16, .recExport 16 0, .rplLoad 16 0,
    .rplStart 16, .rplAbort 16, .dmpExport 16 0, .dmpClear 16, .rstSysRstWrite 16, .dbgSysRstWrite 16,
    .imageVerified 2 .ok false, .ctxScrub ⟨.ok, [⟨192, 0, false⟩]⟩, .ctxScrub ⟨.ok, [⟨0, 188, false⟩]⟩, .ddrPatrolScrub ⟨.ok, [(4294967296, false)]⟩, .lifecycleAdvance 16 0, .debugHalt 16 false, .switchEdge 20 0 false,
    .switchEdge 0 3 false, .drdyAcceptedLow 20, .bstUvClear 8 0 0, .bstUvClear 0 3 0] : List Instr), i.wf = false := by decide

theorem refused_9 : ∀ i ∈ ([
    .badCode 32, .spiUnknownCmd []] : List Instr), i.wf = false := by decide

/-! ### Values that the spec gives -/

/-- R30: the check value of the CRC. -/
theorem test_crc32c : crc32c [0x31, 0x32, 0x33, 0x34, 0x35, 0x36, 0x37, 0x38, 0x39] = 0xE3069283 := by decide

/-- 01_architecture.md, the example of R45. -/
theorem test_pg_id : R.PG_ID (Pg.PWT 7) / 4096 * 4096 = 0x40087000 ∧ Dev.reset.reg (R.PG_ID (Pg.PWT 7)) = 0x008007A0 := by decide

/-- 00_scope.md, the field example: 412.5 A at exponent 10. -/
theorem test_mantissa : mantOf ⟨4125, 10⟩ 10 = (211200, false) ∧ wordOfInt (sext 20 (wordOfInt (-211200)).toNat) = 0xFFFCC700 := by decide

/-- 05_comparators.md, the field example. -/
theorem test_cmp_fields :
    setF (setF 0 F.CMP_THR_HI 981) F.CMP_THR_LO 43 = 0x03D5002B := by decide

/-- 06_position.md, the field example of the serial interfaces: a position of 120,000 in 17 bits. -/
theorem test_ssi_position :
    fmtFields (setF (setF (setF 0 F.POS_SER_FMT_BITS 18) F.POS_SER_FMT_POS_LSB 1) F.POS_SER_FMT_POS_LEN 17) (120000 * 2) = (960000, 0) := by
  decide

/-- 06_position.md, the field example of the resolvers: the angle of s = −157,286 and c = 272,427. -/
theorem test_resolver_angle : atan2Ang20 (-157286) 272427 = 961195 := by decide

/-- 09_stage_library.md, the field example: SVM at EXP = 1 with v_α = 300 V, v_β = 150 V and 720 V, DMIN = 0 and DMAX = 1. -/
def svmIn (zs : Nat) : StgIn :=
  { kind := kSVM
    exp := 1
    words := [0, BitVec.ofNat 32 (1 + 2 ^ 6), BitVec.ofNat 32 zs, 0, 262144]
    ops := [{ x := ⟨300, 1⟩ }, { x := ⟨150, 1⟩ }, { x := ⟨720, 1⟩ }] }

theorem test_svm : (stSvm (svmIn 0)).outs.map (fun v => v.mant 1) = [(236640, false), (120097, false), (25504, false), (211517, false)] := by
  decide

theorem test_dpwm : ((stSvm (svmIn 2)).outs.map fun v => v.mant 1).take 1 = [(262144, false)] := by decide

/-- 10_pwm.md, the first field example: DROP_CARRY at a duty of 0.02, two periods. -/
theorem test_drop_carry :
    valleyStep 0 12800 25600 25600 1280000 12800 0 = (0, 25600, true) ∧
    valleyStep 0 12800 25600 25600 1280000 12800 25600 = (51200, 0, false) ∧
    valleyStep 1 12800 25600 25600 1280000 12800 0 = (38400, 0, true) := by decide

/-- 15_masters_mailboxes.md, the field example: the host takes window 3 and gives it to S0. -/
theorem test_win_take :
    let s := sv (dv DS.COMMISSION 1000 fun d => { d with pcie := { l0 := true } })
    let t := exec (.winTake Mid.PCIE 3 Mid.PCIE) s
    (match t with
      | .next t => t.dev.reg (R.WIN_OWN 3)
      | _ => 0) = 0x000110F4 := by decide

theorem test_win_give :
    let s := sv ((dv DS.COMMISSION 1000 fun d => { d with pcie := { l0 := true } }).setReg (R.WIN_OWN 3) 0x000110F4)
    (match exec (.winGiven Mid.PCIE 3 Mid.S0) s with
      | .next t => t.dev.reg (R.WIN_OWN 3)
      | _ => 0) = 0x00021040 := by decide

/-- 02_angle_timeline.md, the field example: the angle is 0 at the request, the word came 2,000 counts ahead, at the same speed. -/
theorem test_track_update :
    let s := sv (dv DS.RUN 2520 fun d =>
      { ((puts d [(R.TRK_CFG 4, F.TRK_CFG_SRC, 5), (R.TRK_CFG 4, F.TRK_CFG_PP, 8)]).setReg (R.TRK_TOL 4) 1024).setReg (R.TRK_JUMP 4) 16384 with
        trk := [(4, { ang := 549756 * 1520, spd := 549756, base := 2520,
                      upds := [{ m := 2000 * 2 ^ 20, v := some 549756, ts := 1000, ta := 2520, valid := true }] })] })
    (match exec (.trackUpdate 4) s with
      | .next t => (t.dev.getI (R.TRK_STAT 4) F.TRK_STAT_LAST_ERR, getF (t.dev.trkStatWord 4) F.TRK_STAT_SLEWING,
          (t.dev.trkS 4).res == 2000 * 2 ^ 20)
      | _ => (0, 0, false)) = (2000, 1, true) := by decide

/-- 10_pwm.md, the second field example: the period 500 counts past a valley angle at 4,500 rpm. -/
theorem test_angle_period :
    (2 * (Frac.mk 32794246174 (2 * 1649267)).roundUp, 2 * (Frac.mk 33318534174 (2 * 1649267)).roundUp) = (19884, 20202) ∧
    valleyAngle 0 33 1 / 10 = 3331853417 := by decide

/-- 19_electrical.md, the field example: 87 °C reads 151. -/
theorem test_temperature :
    (match exec (.tempHigh 0 87) sR with
      | .next t => t.dev.get R.PWR_TEMP (tempField 0)
      | _ => 0) = 151 := by decide

/-- 17_hamper_replay.md, the field example: the place of block 9,000,000 in a ring of 6,144 MiB. -/
theorem test_ring_offset :
    let d := dv DS.READY 0 fun d => puts d [(R.DDR_STAT, F.DDR_STAT_READY, 1), (R.DDR_STAT, F.DDR_STAT_USABLE, 8191), (R.REC_CFG, F.REC_CFG_SIZE, 6144)]
    d.recNblk = 1572864 ∧ d.recOffset 9000000 = 4651745280 := by decide

/-- 16_ports_memory.md, the field example: a KEY frame opens the window of SAFE for MID 5. -/
theorem test_spi_key :
    (match exec (.key (spiReq cmdKEY (R.PG_LOCK Pg.SAFE) 0 [])) (sv (dv DS.COMMISSION 1000 id)) with
      | .next t => (t.dev.keyS Pg.SAFE).win
      | _ => none).map (fun (p : Nat × Nat) => p.1) = some Mid.SPI := by decide

end Sys2Proof.Tests
end

section
/-! PROOFS. Angle tracks (chapter 02, R59 to R70): what an event of a track, ZERO_SLACK and an applied update change, and the statement
about updates and staleness. -/

namespace Sys2Proof.Machine

/-! ### Registers of the tracks -/

theorem eventReg_trkStat {k : Nat} (hk : k < nTracks) : eventReg (R.TRK_STAT k) = false :=
  (by decide : ∀ k < nTracks, eventReg (R.TRK_STAT k) = false) k hk

theorem trkJump_ne_trkStat (j k : Nat) : R.TRK_JUMP j ≠ R.TRK_STAT k := by simp only [R.TRK_JUMP, R.TRK_STAT]; omega
theorem trkTol_ne_trkStat (j k : Nat) : R.TRK_TOL j ≠ R.TRK_STAT k := by simp only [R.TRK_TOL, R.TRK_STAT]; omega

/-! ### What a step of the tracks may change -/

/-- From one device to another, tracks of a list have been updated (R61 to R68): their records and status, the flags of the tracks,
ZERO_SLACK; for the empty list no track, only what its events bring. -/
structure TrkStep (ks : List Nat) (d e : Dev) : Prop where
  frame : Frame { d with trk := e.trk, sync := e.sync } e (ks.map R.TRK_STAT ++ [R.TL_TRK_FLAG, R.TL_ZS_INFO])
  others : ∀ j, j ∉ ks → e.trkS j = d.trkS j

section
variable {ks : List Nat} {d e f : Dev} {k j : Nat}

theorem TrkStep.trans (h : TrkStep ks d e) (g : TrkStep ks e f) : TrkStep ks d f := by
  obtain ⟨⟨hcalm, hreg, hraw⟩, hoth⟩ := h
  obtain ⟨⟨gcalm, greg, graw⟩, goth⟩ := g
  refine ⟨⟨?_, fun a ha hl => (greg a ha hl).trans (hreg a ha hl), fun p i hp x => graw p i hp (hraw p i hp x)⟩,
    fun j hj => (goth j hj).trans (hoth j hj)⟩
  exact gcalm.trans (congrArg (fun x : Dev => { x with trk := f.trk, sync := f.sync }) hcalm)

theorem Quiet.trk (h : Quiet d e) : e.trk = d.trk := (congrArg Dev.trk h.1 : e.calm.trk = d.calm.trk)
theorem Quiet.sync (h : Quiet d e) : e.sync = d.sync := (congrArg Dev.sync h.1 : e.calm.sync = d.calm.sync)

theorem Quiet.trkS (h : Quiet d e) (j : Nat) : e.trkS j = d.trkS j :=
  congrArg (fun l : Sparse TrkSt => spGet ({} : TrkSt) l j) h.trk

theorem Quiet.trkStep (h : Quiet d e) (ks : List Nat) : TrkStep ks d e := by
  refine ⟨?_, fun j _ => h.trkS j⟩
  rw [h.trk, h.sync]
  obtain ⟨hcalm, hreg, hraw⟩ := h
  exact ⟨hcalm, fun a ha _ => hreg a ha, fun p i _ => hraw p i⟩

theorem TrkStep.refl (ks : List Nat) (d : Dev) : TrkStep ks d d := (Quiet.refl d).trkStep ks

theorem TrkStep.ite {c : Prop} [Decidable c] (h : TrkStep ks d e) (g : TrkStep ks d f) : TrkStep ks d (if c then e else f) := by
  split
  · exact h
  · exact g

theorem TrkStep.setReg (d : Dev) {a : Nat} (w : Word) (h : a ∈ ks.map R.TRK_STAT ++ [R.TL_TRK_FLAG, R.TL_ZS_INFO]) :
    TrkStep ks d (d.setReg a w) := by
  refine ⟨⟨rfl, fun b _ hb => ?_, fun p i hp x => ?_⟩, fun j _ => d.trkS_setReg a j w⟩
  · exact d.reg_setReg_ne w fun hba => hb (hba ▸ h)
  · rw [d.reg_setReg_ne w]
    · exact x
    · rintro rfl; exact hp h

theorem TrkStep.put (d : Dev) {a : Nat} (f : RField) (v : Nat) (h : a ∈ ks.map R.TRK_STAT ++ [R.TL_TRK_FLAG, R.TL_ZS_INFO]) :
    TrkStep ks d (d.put a f v) := TrkStep.setReg d _ h

theorem TrkStep.putStat (d : Dev) (k : Nat) (f : RField) (v : Nat) : TrkStep [k] d (d.put (R.TRK_STAT k) f v) :=
  TrkStep.put d f v (by simp)

theorem TrkStep.setTrk (d : Dev) (k : Nat) (x : TrkSt) : TrkStep [k] d (d.setTrk k x) :=
  ⟨⟨rfl, fun a _ _ => d.reg_setTrk a k x, fun p i _ h => by rw [d.reg_setTrk]; exact h⟩,
    fun j hj => by rw [Dev.trkS_setTrk, if_neg (by simpa using hj)]⟩

/-- Where no track has been updated, every track's status stands. -/
theorem TrkStep.reg_trkStat (h : TrkStep [] d e) (hk : k < nTracks) : e.reg (R.TRK_STAT k) = d.reg (R.TRK_STAT k) := by
  refine h.frame.2.1 _ (eventReg_trkStat hk) ?_
  simp only [List.map_nil, List.nil_append, List.mem_cons, List.not_mem_nil, or_false, R.TRK_STAT, R.TL_TRK_FLAG, R.TL_ZS_INFO]
  omega

theorem TrkStep.trkS_eq (h : TrkStep [] d e) (j : Nat) : e.trkS j = d.trkS j := h.others j (by simp)

/-- A source of the timeline's page that stands stays raised. -/
theorem TrkStep.raised (h : TrkStep [k] d e) {src : Nat} (hr : Raised d Pg.TL src) : Raised e Pg.TL src := by
  refine h.frame.2.2 _ _ ?_ hr
  simp only [List.map_cons, List.map_nil, List.cons_append, List.nil_append, List.mem_cons, List.not_mem_nil, or_false,
    R.PG_EVT_RAW, pageBase, Pg.TL, R.TRK_STAT, R.TL_TRK_FLAG, R.TL_ZS_INFO]
  omega

end

/-! ### The events of a track -/

section
variable (ks : List Nat) (d : Dev) (k j src : Nat) (c : Bool)

theorem Dev.trkEvent_quiet : Quiet (d.orReg R.TL_TRK_FLAG (bitWord k)) (d.trkEvent k src) := Dev.raiseN_quiet _ _ _ _

theorem Dev.trkEvent_raised : Raised (d.trkEvent k src) Pg.TL src := Dev.raiseN_raised _ _ rfl

theorem Dev.trkEvent_step : TrkStep ks d (d.trkEvent k src) :=
  (TrkStep.setReg d _ (by simp)).trans ((d.trkEvent_quiet k src).trkStep ks)

theorem Dev.trkEventIf_step : TrkStep ks d (d.trkEventIf c k src) := TrkStep.ite (d.trkEvent_step ks k src) (TrkStep.refl ks d)

/-- ZERO_SLACK (R84, R85) leaves the tracks. -/
theorem Dev.zeroSlack_step (kind res : Nat) : TrkStep ks d (d.zeroSlack kind res) := by
  have zs : ∀ (e : Dev) f v, TrkStep ks e (e.put R.TL_ZS_INFO f v) := fun e f v => TrkStep.put e f v (by simp)
  have noted : ∀ (e : Dev) (y : SyncSt), TrkStep ks e { e with sync := y } := fun e y =>
    ⟨⟨rfl, fun _ _ _ => rfl, fun _ _ _ h => h⟩, fun _ _ => rfl⟩
  have event : ∀ e : Dev, TrkStep ks e (e.raise Pg.TL Ev.ZERO_SLACK) := fun e => (e.raise_quiet _ _).trkStep ks
  exact (zs d _ _).trans (((TrkStep.refl ks _).ite ((zs _ _ _).trans (zs _ _ _))).trans ((noted _ _).trans (event _)))

end

/-! ### The stages of an update -/

section
variable (d : Dev) (k : Nat) (u : Upd)

/-- The speed after an update: the source's, or the one in force (R61). -/
def Dev.updSpd : Int := u.v.getD (d.trkS k).spd

/-- The measured angle taken to the present tick (R61). -/
def Dev.updAng : Nat := wrap40 ((u.m : Int) + d.updSpd k u * ((d.gtc : Int) - (u.ts : Int)))

/-- The error of a track's angle against an update (R62). -/
def Dev.updErr : Int := sext 40 (wrap40 ((d.updAng k u : Int) - ((d.trkS k).ang : Int)))

/-- The status word of a track that an update's first stage writes: what its source word said, and the error. -/
def updStat0 (w : Word) (u : Upd) (err : Int) : Word :=
  setF (setF (setF (setF w F.TRK_STAT_VALID (b2n u.valid)) F.TRK_STAT_UNCERT (b2n u.unc)) F.TRK_STAT_STALE (b2n false))
    F.TRK_STAT_LAST_ERR (wrapN (fieldWidth F.TRK_STAT_LAST_ERR) (clampI (-(2 ^ 19)) (2 ^ 19 - 1) (err.tdiv (2 ^ 20))))

/-- The status word of a track after a whole update at a speed. -/
def updStat (w : Word) (u : Upd) (err v : Int) : Word :=
  let w := setF (updStat0 w u err) F.TRK_STAT_STOPPED (b2n (v == 0 || u.zero))
  if v = 0 then w else setF w F.TRK_STAT_DIR (b2n (decide (v < 0)))

/-- The first stage of an update: the speed, the tick from which staleness counts, the status. -/
def Dev.updBase : Dev :=
  ((((d.setTrk k { d.trkS k with spd := d.updSpd k u, base := d.gtc, good := u.valid }).putB (R.TRK_STAT k) F.TRK_STAT_VALID
    u.valid).putB (R.TRK_STAT k) F.TRK_STAT_UNCERT u.unc).putB (R.TRK_STAT k) F.TRK_STAT_STALE false).putI (R.TRK_STAT k)
    F.TRK_STAT_LAST_ERR (clampI (-(2 ^ 19)) (2 ^ 19 - 1) ((d.updErr k u).tdiv (2 ^ 20)))

/-- An update but for its record and ZERO_SLACK. -/
def Dev.updCore : Dev :=
  (((d.updBase k u).updAngle k (d.updAng k u) (d.updErr k u)).updStop k (d.updSpd k u) u.zero).trkDir k (d.updSpd k u) true

/-- An update is its stages, followed by what leaves the tracks. -/
theorem Dev.applyUpd_step (ks : List Nat) : TrkStep ks (d.updCore k u) (d.applyUpd k u) :=
  (((Dev.emit_quiet _ _).trkStep ks).ite (TrkStep.refl ks _)).trans ((Dev.zeroSlack_step ks _ _ _).ite (TrkStep.refl ks _))

/-- An update taken off its track's list is applied to the same speed and angle. -/
theorem Dev.updErr_setTrk_upds (r : List Upd) :
    let e := d.setTrk k { d.trkS k with upds := r }
    e.updSpd k u = d.updSpd k u ∧ e.updAng k u = d.updAng k u ∧ e.updErr k u = d.updErr k u := by
  simp [Dev.updErr, Dev.updAng, Dev.updSpd]

/-! #### The first stage -/

theorem Dev.updBase_step : TrkStep [k] d (d.updBase k u) :=
  (TrkStep.setTrk d k _).trans ((TrkStep.putStat _ k _ _).trans ((TrkStep.putStat _ k _ _).trans
    ((TrkStep.putStat _ k _ _).trans (TrkStep.putStat _ k _ _))))

theorem Dev.trkS_updBase :
    (d.updBase k u).trkS k = { d.trkS k with spd := d.updSpd k u, base := d.gtc, good := u.valid } := by
  simp [Dev.updBase, Dev.putB, Dev.putI]

theorem Dev.reg_updBase_stat : (d.updBase k u).reg (R.TRK_STAT k) = updStat0 (d.reg (R.TRK_STAT k)) u (d.updErr k u) := by
  simp [Dev.updBase, Dev.putB, Dev.putI, Dev.reg_put, updStat0]

theorem Dev.jumpLim_updBase : (d.updBase k u).jumpLim k = d.jumpLim k := by
  simp [Dev.jumpLim, Dev.updBase, Dev.putB, Dev.putI, Dev.get, Dev.reg_put_ne _ _ _ (trkJump_ne_trkStat k k),
    Dev.reg_put_ne _ _ _ (trkTol_ne_trkStat k k)]

/-! #### The angle: a jump, or a residual (R62) -/

variable (m : Nat) (err v : Int) (zero rev : Bool)

theorem Dev.updAngle_jump (h : d.jumpLim k * cnt20 < err.natAbs) : d.updAngle k m err =
    (d.setTrk k { d.trkS k with ang := m, res := 0, jumpAt := d.gtc + 1, jump := err }).trkEvent k Ev.TRK_JUMP := if_pos h

theorem Dev.updAngle_slew (h : ¬d.jumpLim k * cnt20 < err.natAbs) : d.updAngle k m err =
    (d.setTrk k { d.trkS k with res := err }).trkEventIf
      (decide (err.natAbs > d.get (R.TRK_TOL k) F.TRK_TOL_SLEW_TOL * cnt20)) k Ev.TRK_SLEW := if_neg h

theorem Dev.updAngle_step : TrkStep [k] d (d.updAngle k m err) :=
  ((TrkStep.setTrk d k _).trans (Dev.trkEvent_step _ _ _ _)).ite ((TrkStep.setTrk d k _).trans (Dev.trkEventIf_step _ _ _ _ _))

theorem Dev.trkS_updAngle : (d.updAngle k m err).trkS k =
    if d.jumpLim k * cnt20 < err.natAbs then { d.trkS k with ang := m, res := 0, jumpAt := d.gtc + 1, jump := err }
    else { d.trkS k with res := err } := by
  split
  · next h => rw [d.updAngle_jump k m err h, (Dev.trkEvent_step [] _ _ _).trkS_eq, Dev.trkS_setTrk_self]
  · next h => rw [d.updAngle_slew k m err h, (Dev.trkEventIf_step [] _ _ _ _).trkS_eq, Dev.trkS_setTrk_self]

theorem Dev.reg_updAngle_stat (hk : k < nTracks) : (d.updAngle k m err).reg (R.TRK_STAT k) = d.reg (R.TRK_STAT k) := by
  by_cases h : d.jumpLim k * cnt20 < err.natAbs
  · rw [d.updAngle_jump k m err h, (Dev.trkEvent_step [] _ _ _).reg_trkStat hk, Dev.reg_setTrk]
  · rw [d.updAngle_slew k m err h, (Dev.trkEventIf_step [] _ _ _ _).reg_trkStat hk, Dev.reg_setTrk]

/-! #### The stop and the direction (R65, R66) -/

theorem Dev.updStop_step : TrkStep [k] d (d.updStop k v zero) :=
  (TrkStep.putStat d k _ _).trans (Dev.trkEventIf_step _ _ _ _ _)

theorem Dev.trkS_updStop : (d.updStop k v zero).trkS k = d.trkS k :=
  ((Dev.trkEventIf_step [] _ _ _ _).trkS_eq k).trans (d.trkS_put _ _ _ _)

theorem Dev.reg_updStop_stat (hk : k < nTracks) : (d.updStop k v zero).reg (R.TRK_STAT k) =
    setF (d.reg (R.TRK_STAT k)) F.TRK_STAT_STOPPED (b2n (v == 0 || zero)) :=
  ((Dev.trkEventIf_step [] _ _ _ _).reg_trkStat hk).trans (d.reg_setReg_self _ _)

theorem Dev.trkDir_zero : d.trkDir k 0 rev = d := if_pos rfl

theorem Dev.trkDir_nonzero (hv : v ≠ 0) : ∃ c, d.trkDir k v rev = Dev.trkEventIf ((d.setTrk k { d.trkS k with hasSpd := true }).putB
    (R.TRK_STAT k) F.TRK_STAT_DIR (decide (v < 0))) c k Ev.TRK_REV := ⟨_, if_neg hv⟩

theorem Dev.trkDir_step : TrkStep [k] d (d.trkDir k v rev) := by
  by_cases hv : v = 0
  · subst hv; rw [d.trkDir_zero]; exact TrkStep.refl _ d
  · obtain ⟨c, hc⟩ := d.trkDir_nonzero k v rev hv
    rw [hc]; exact (TrkStep.setTrk d k _).trans ((TrkStep.putStat _ k _ _).trans (Dev.trkEventIf_step _ _ _ _ _))

theorem Dev.trkS_trkDir : ∃ b, (d.trkDir k v rev).trkS k = { d.trkS k with hasSpd := b } := by
  by_cases hv : v = 0
  · subst hv; exact ⟨(d.trkS k).hasSpd, by rw [d.trkDir_zero]⟩
  · obtain ⟨c, hc⟩ := d.trkDir_nonzero k v rev hv
    exact ⟨true, by rw [hc, (Dev.trkEventIf_step [] _ _ _ _).trkS_eq, Dev.putB, Dev.trkS_put, Dev.trkS_setTrk_self]⟩

theorem Dev.reg_trkDir_stat (hk : k < nTracks) : (d.trkDir k v rev).reg (R.TRK_STAT k) =
    if v = 0 then d.reg (R.TRK_STAT k) else setF (d.reg (R.TRK_STAT k)) F.TRK_STAT_DIR (b2n (decide (v < 0))) := by
  split
  · next hv => subst hv; rw [d.trkDir_zero]
  · next hv =>
    obtain ⟨c, hc⟩ := d.trkDir_nonzero k v rev hv
    rw [hc, (Dev.trkEventIf_step [] _ _ _ _).reg_trkStat hk, Dev.putB, Dev.reg_put, if_pos rfl, Dev.reg_setTrk]

/-! ### An update as a whole (R61 to R66) -/

/-- An applied update changes its own track, its status, and what its events bring. -/
theorem Dev.applyUpd_trkStep : TrkStep [k] d (d.applyUpd k u) :=
  (d.updBase_step k u).trans ((Dev.updAngle_step _ _ _ _).trans ((Dev.updStop_step _ _ _ _).trans
    ((Dev.trkDir_step _ _ _ _).trans (d.applyUpd_step k u [k]))))

/-- The track's record after an update is the one its second stage leaves, but for the note of a speed. -/
theorem Dev.trkS_applyUpd : ∃ b, (d.applyUpd k u).trkS k =
    { ((d.updBase k u).updAngle k (d.updAng k u) (d.updErr k u)).trkS k with hasSpd := b } := by
  obtain ⟨b, hb⟩ := Dev.trkS_trkDir (((d.updBase k u).updAngle k (d.updAng k u) (d.updErr k u)).updStop k (d.updSpd k u) u.zero) k
    (d.updSpd k u) true
  exact ⟨b, by rw [(d.applyUpd_step k u []).trkS_eq, Dev.updCore, hb, Dev.trkS_updStop]⟩

/-- The track's record after an update that jumps. -/
theorem Dev.trkS_applyUpd_jump (h : d.jumpLim k * cnt20 < (d.updErr k u).natAbs) : ∃ b x, (d.applyUpd k u).trkS k =
    { d.trkS k with spd := d.updSpd k u, base := d.gtc, good := u.valid, hasSpd := b, ang := d.updAng k u, res := 0, jumpAt := x,
                    jump := d.updErr k u } := by
  obtain ⟨b, hb⟩ := d.trkS_applyUpd k u
  rw [← d.jumpLim_updBase k u] at h
  rw [Dev.trkS_updAngle, if_pos h, Dev.trkS_updBase] at hb
  exact ⟨b, _, hb⟩

/-- The track's record after an update within JUMP_LIM. -/
theorem Dev.trkS_applyUpd_slew (h : ¬d.jumpLim k * cnt20 < (d.updErr k u).natAbs) : ∃ b, (d.applyUpd k u).trkS k =
    { d.trkS k with spd := d.updSpd k u, base := d.gtc, good := u.valid, hasSpd := b, res := d.updErr k u } := by
  obtain ⟨b, hb⟩ := d.trkS_applyUpd k u
  rw [← d.jumpLim_updBase k u] at h
  rw [Dev.trkS_updAngle, if_neg h, Dev.trkS_updBase] at hb
  exact ⟨b, hb⟩

/-- The track's status after an update. -/
theorem Dev.reg_applyUpd_stat (hk : k < nTracks) :
    (d.applyUpd k u).reg (R.TRK_STAT k) = updStat (d.reg (R.TRK_STAT k)) u (d.updErr k u) (d.updSpd k u) := by
  rw [(d.applyUpd_step k u []).reg_trkStat hk, Dev.updCore, Dev.reg_trkDir_stat _ _ _ _ hk, Dev.reg_updStop_stat _ _ _ _ hk,
    Dev.reg_updAngle_stat _ _ _ _ hk, Dev.reg_updBase_stat]
  rfl

/-- An error beyond JUMP_LIM raises TRK_JUMP (R62). -/
theorem Dev.applyUpd_raised_jump (h : d.jumpLim k * cnt20 < (d.updErr k u).natAbs) : Raised (d.applyUpd k u) Pg.TL Ev.TRK_JUMP := by
  rw [← d.jumpLim_updBase k u] at h
  refine TrkStep.raised (k := k) ((Dev.updStop_step _ _ _ _).trans ((Dev.trkDir_step _ _ _ _).trans (d.applyUpd_step k u [k]))) ?_
  rw [Dev.updAngle_jump _ _ _ _ h]
  exact Dev.trkEvent_raised _ _ _

/-- The speed is the update's, staleness counts from the present tick; the updates under way stand (R61, R67). -/
theorem Dev.applyUpd_record : ((d.applyUpd k u).trkS k).spd = d.updSpd k u ∧ ((d.applyUpd k u).trkS k).upds = (d.trkS k).upds ∧
    ((d.applyUpd k u).trkS k).base = d.gtc := by
  by_cases h : d.jumpLim k * cnt20 < (d.updErr k u).natAbs
  · obtain ⟨b, x, hb⟩ := d.trkS_applyUpd_jump k u h
    rw [hb]; exact ⟨rfl, rfl, rfl⟩
  · obtain ⟨b, hb⟩ := d.trkS_applyUpd_slew k u h
    rw [hb]; exact ⟨rfl, rfl, rfl⟩

/-- An error beyond JUMP_LIM is a jump, any other is the residual (R62). -/
theorem Dev.applyUpd_angle :
    if d.jumpLim k * cnt20 < (d.updErr k u).natAbs then
      ((d.applyUpd k u).trkS k).ang = d.updAng k u ∧ ((d.applyUpd k u).trkS k).res = 0 ∧ Raised (d.applyUpd k u) Pg.TL Ev.TRK_JUMP
    else ((d.applyUpd k u).trkS k).ang = (d.trkS k).ang ∧ ((d.applyUpd k u).trkS k).res = d.updErr k u := by
  split
  · next h =>
    obtain ⟨b, x, hb⟩ := d.trkS_applyUpd_jump k u h
    rw [hb]; exact ⟨rfl, rfl, d.applyUpd_raised_jump k u h⟩
  · next h =>
    obtain ⟨b, hb⟩ := d.trkS_applyUpd_slew k u h
    rw [hb]; exact ⟨rfl, rfl⟩

end

/-! ### The fields of the status -/

theorem getF_setF_flag (w : Word) (f : RField) (c : Bool) (h1 : fieldWidth f = 1) (h : f.lo < 32) :
    (getF (setF w f (b2n c)) f != 0) = c := by
  rw [getF_setF_self _ _ _ (by omega), h1]
  cases c <;> rfl

section
variable (w : Word) (u : Upd) (err v : Int)

/-- A field of the status apart from the direction. -/
theorem getF_updStat {f : RField} (h : F.TRK_STAT_DIR.lo + fieldWidth F.TRK_STAT_DIR ≤ f.lo ∨ f.lo + fieldWidth f ≤ F.TRK_STAT_DIR.lo) :
    getF (updStat w u err v) f = getF (setF (updStat0 w u err) F.TRK_STAT_STOPPED (b2n (v == 0 || u.zero))) f := by
  unfold updStat
  split
  · rfl
  · exact getF_setF_ne _ _ _ _ h

theorem updStat_stopped : (getF (updStat w u err v) F.TRK_STAT_STOPPED != 0) = (v == 0 || u.zero) := by
  rw [getF_updStat _ _ _ _ (by decide), getF_setF_flag _ _ _ (by decide) (by decide)]

theorem updStat_dir (hv : v ≠ 0) : (getF (updStat w u err v) F.TRK_STAT_DIR != 0) = decide (v < 0) := by
  simp only [updStat, if_neg hv]
  exact getF_setF_flag _ _ _ (by decide) (by decide)

/-- What the source word said stands through the later stages. -/
theorem updStat_source : (getF (updStat w u err v) F.TRK_STAT_VALID != 0) = u.valid ∧
    (getF (updStat w u err v) F.TRK_STAT_UNCERT != 0) = u.unc ∧ (getF (updStat w u err v) F.TRK_STAT_STALE != 0) = false := by
  simp (disch := decide) only [getF_updStat, updStat0, getF_setF_ne, getF_setF_flag, and_self]

/-- The status after an update says what its source word said, whether the track stands still, and its direction (R65 to R68). -/
theorem Dev.applyUpd_flags (d : Dev) {k : Nat} (hk : k < nTracks) (u : Upd) :
    let e := d.applyUpd k u
    e.flag (R.TRK_STAT k) F.TRK_STAT_VALID = u.valid ∧ e.flag (R.TRK_STAT k) F.TRK_STAT_UNCERT = u.unc ∧
      e.flag (R.TRK_STAT k) F.TRK_STAT_STALE = false ∧ e.flag (R.TRK_STAT k) F.TRK_STAT_STOPPED = (d.updSpd k u == 0 || u.zero) ∧
      (d.updSpd k u ≠ 0 → e.flag (R.TRK_STAT k) F.TRK_STAT_DIR = decide (d.updSpd k u < 0)) := by
  simp only [Dev.flag, Dev.get, d.reg_applyUpd_stat k u hk]
  obtain ⟨hvalid, hunc, hstale⟩ := updStat_source (d.reg (R.TRK_STAT k)) u (d.updErr k u) (d.updSpd k u)
  exact ⟨hvalid, hunc, hstale, updStat_stopped _ _ _ _, updStat_dir _ _ _ _⟩

end

/-! ### The commands -/

section
variable {d : Dev} {k : Nat}

/-- TRACK_UPDATE takes the first update whose tick has come (R61). -/
theorem Dev.trackUpdate_due {u : Upd} {r : List Upd} (hu : (d.trkS k).upds = u :: r) (ht : u.ta ≤ d.gtc)
    (hf : d.frozen Pg.TRK = false) : d.trackUpdate k = (d.setTrk k { d.trkS k with upds := r }).applyUpd k u := by
  simp [Dev.trackUpdate, hf, hu, ht]

/-- Before STALE ticks have passed since the last update the check leaves the device (R67). -/
theorem Dev.trkStale_early (h : d.gtc < (d.trkS k).base + d.get (R.TRK_STALE k) F.TRK_STALE_STALE) : d.trkStale k = d :=
  if_neg (by simp [Nat.not_le.2 h])

/-- The check expires (R67, R84): the source delivers updates, none is due, the track is not stale yet. -/
theorem Dev.trkStale_due (hn : d.get (R.TRK_STALE k) F.TRK_STALE_STALE ≠ 0) (hs : d.trkSrc k ≠ srcFREE) (hf : d.frozen Pg.TRK = false)
    (hst : d.flag (R.TRK_STAT k) F.TRK_STAT_STALE = false) (ht : (d.trkS k).base + d.get (R.TRK_STALE k) F.TRK_STALE_STALE ≤ d.gtc)
    (hu : ∀ u ∈ (d.trkS k).upds, (d.trkS k).base + d.get (R.TRK_STALE k) F.TRK_STALE_STALE < u.ta) :
    d.trkStale k =
      ((d.putB (R.TRK_STAT k) F.TRK_STAT_STALE true).putB (R.TRK_STAT k) F.TRK_STAT_VALID false).trkEvent k Ev.TRK_STALE := by
  have hby : d.updBy k ((d.trkS k).base + d.get (R.TRK_STALE k) F.TRK_STALE_STALE) = false := by
    simpa [Dev.updBy, List.any_eq_false] using hu
  exact if_pos (by simp [hn, hs, hf, hst, ht, hby])

end

/-- Settles O12: the update taken off the list is applied stage by stage, and the events, the record and ZERO_SLACK after the stages leave
every track; the stale check either expires or leaves the state. -/
theorem trackUpdates : Obligations.TrackUpdates := by
  refine ⟨fun s k u r hlive hk hu ht hf => ?_, fun s k hlive hk => ⟨fun hn hs hf hst hdue hnone => ?_, fun hearly => ?_⟩⟩
  · refine DevNext.onPart hlive ?_
    rw [Dev.trackUpdate_due hu ht hf]
    obtain ⟨hspd, hang, herr⟩ := s.dev.updErr_setTrk_upds k u r
    have hstep := TrkStep.setTrk s.dev k { s.dev.trkS k with upds := r }
    generalize hx : s.dev.setTrk k { s.dev.trkS k with upds := r } = x at hspd hang herr hstep ⊢
    have hself : x.trkS k = { s.dev.trkS k with upds := r } := by rw [← hx, Dev.trkS_setTrk_self]
    have hgtc : x.gtc = s.dev.gtc := by rw [← hx, Dev.setTrk_gtc]
    have hlim : x.jumpLim k = s.dev.jumpLim k := by rw [← hx]; rfl
    have happ := hstep.trans (x.applyUpd_trkStep k u)
    obtain ⟨espd, eupds, ebase⟩ := x.applyUpd_record k u
    have hangle := x.applyUpd_angle k u
    have hflags := x.applyUpd_flags hk u
    rw [hspd] at espd hflags
    rw [hself] at eupds
    rw [hgtc] at ebase
    rw [hlim, hang, herr, hself] at hangle
    exact ⟨happ.frame, fun j hj => happ.others j (by simpa using hj), espd, eupds, ebase, hangle, hflags⟩
  · refine DevNext.onPart hlive ?_
    rw [Dev.trkStale_due hn hs hf hst hdue hnone]
    exact ⟨Dev.trkEvent_quiet _ _ _, Dev.trkEvent_raised _ _ _⟩
  · exact (onPart_live hlive).trans (by rw [Dev.trkStale_early hearly]; rfl)

end Sys2Proof.Machine
end

section
/-! PROOFS. Locks (chapter 15, R416): what a read of a register answers outside its page's header, what a read of LCK_LOCKn and of LCK_PEEKn
does, and the statement about them. -/

namespace Sys2Proof.Machine

/-! ### Answers -/

section
variable (d : Dev) (mid : Nat) (w : Word)

@[simp] theorem Dev.answered_answer : (d.answer mid w).answered mid = w := spGet_spPut_self _ _ _

@[simp] theorem Dev.lckS_answer (k : Nat) : (d.answer mid w).lckS k = d.lckS k := rfl

theorem Dev.answer_onlyRead : OnlyRead d (d.answer mid w) := rfl

end

/-! ### A read of a register, taken to its block -/

theorem inRegs_iff {a : Nat} : inRegs a = true ↔ 0x40000000 ≤ a ∧ a < 0x40200000 := by
  simp only [inRegs, Bool.and_eq_true, decide_eq_true_eq]

/-- The register space ends below the windows (R46, R419). -/
theorem inWins_of_inRegs {a : Nat} (h : inRegs a = true) : inWins a = false := by
  have hlow : ¬winBase ≤ a := by have := (inRegs_iff.1 h).2; unfold winBase; omega
  rw [inWins, decide_eq_false hlow, Bool.false_and]

theorem exec_lowWordRead_reg {s : State} (hs : s.Up) (mid : Nat) {a : Nat} (hr : inRegs a = true) (h4 : a % 4 = 0) :
    exec (.lowWordRead mid ⟨a, 4⟩) s = .next (s.withDev (s.dev.regRead mid a)) := by
  have hexec : exec (.lowWordRead mid ⟨a, 4⟩) s = onState (fun s => s.onDevS fun d => d.busRead s.mems.win mid a 4) s := by
    change execLowWordRead mid ⟨a, 4⟩ s = _
    simp [execLowWordRead, hr]
  rw [hexec, onState_up hs]
  simp [State.onDevS, State.withDev, Dev.busRead, inWins_of_inRegs hr, h4]

section
variable (d : Dev) (mid : Nat) {a : Nat} {b : Block} {i : Nat}

/-- A register that the member has, beyond the header of its page: the block of the page and its number among those of the block. -/
structure RegHere (a : Nat) (b : Block) (i : Nat) : Prop where
  info : pageInfo (pageOf a) = some (b, i)
  there : blockPresent d.member b i = true
  present : absentReg d.member b i (offOf a) = false
  beyond : ¬offOf a < 0x40
  defined : (regAt b (offOf a)).isSome = true

variable {d}

/-- A read of a present register is its block's own. -/
theorem Dev.regRead_block (h : RegHere d a b i) : d.regRead mid a = d.blockRead mid b i (offOf a) a := by
  obtain ⟨hinfo, hthere, hpresent, hbeyond, hdefined⟩ := h
  have hsome : (regAt b (offOf a)).isNone = false := by rw [← Option.not_isSome, hdefined]; rfl
  simp [Dev.regRead, hinfo, hthere, hpresent, hbeyond, hsome]

/-- The word of a present register is its block's own. -/
theorem Dev.view_block (h : RegHere d a b i) : d.view mid a = d.blockWord mid b i (offOf a) a := by
  obtain ⟨hinfo, hthere, hpresent, hbeyond, hdefined⟩ := h
  obtain ⟨r, hr⟩ := Option.isSome_iff_exists.1 hdefined
  simp [Dev.view, hinfo, hthere, hpresent, hbeyond, hr]

end

/-! ### Where the registers of a lock stand -/

section
variable {n : Nat} (hn : n < 64)
include hn

theorem offOf_lckLock : offOf (R.LCK_LOCK n) = 0x100 + 4 * n := by simp only [offOf, R.LCK_LOCK]; omega
theorem offOf_lckPeek : offOf (R.LCK_PEEK n) = 0x200 + 4 * n := by simp only [offOf, R.LCK_PEEK]; omega
theorem pageOf_lckLock : pageOf (R.LCK_LOCK n) = Pg.LCK := by simp only [pageOf, R.LCK_LOCK, Pg.LCK]; omega
theorem pageOf_lckPeek : pageOf (R.LCK_PEEK n) = Pg.LCK := by simp only [pageOf, R.LCK_PEEK, Pg.LCK]; omega

theorem regAt_lckLock : (regAt .lckB (0x100 + 4 * n)).isSome = true :=
  (by decide : ∀ n < 64, (regAt .lckB (0x100 + 4 * n)).isSome = true) n hn

theorem regAt_lckPeek : (regAt .lckB (0x200 + 4 * n)).isSome = true :=
  (by decide : ∀ n < 64, (regAt .lckB (0x200 + 4 * n)).isSome = true) n hn

theorem lckLock_here (d : Dev) : RegHere d (R.LCK_LOCK n) .lckB 0 :=
  ⟨by rw [pageOf_lckLock hn]; rfl, rfl, rfl, by rw [offOf_lckLock hn]; omega, by rw [offOf_lckLock hn]; exact regAt_lckLock hn⟩

theorem lckPeek_here (d : Dev) : RegHere d (R.LCK_PEEK n) .lckB 0 :=
  ⟨by rw [pageOf_lckPeek hn]; rfl, rfl, rfl, by rw [offOf_lckPeek hn]; omega, by rw [offOf_lckPeek hn]; exact regAt_lckPeek hn⟩

/-! ### A read of LCK_LOCKn and of LCK_PEEKn (R416) -/

/-- A read of LCK_LOCKn is LOCK_ACQUIRE. -/
theorem Dev.regRead_lckLock (d : Dev) (mid : Nat) : d.regRead mid (R.LCK_LOCK n) = d.lockAcquire mid n := by
  have hidx : (0x100 + 4 * n - 0x100) / 4 = n := by omega
  rw [Dev.regRead_block mid (lckLock_here hn d), offOf_lckLock hn]
  exact (if_pos (by omega)).trans (by rw [hidx])

/-- The word of LCK_PEEKn shows the lock. -/
theorem Dev.view_lckPeek (d : Dev) (mid : Nat) : d.view mid (R.LCK_PEEK n) = d.lockPeek n := by
  have hidx : (0x200 + 4 * n - 0x200) / 4 = n := by omega
  rw [Dev.view_block mid (lckPeek_here hn d), offOf_lckPeek hn]
  change d.lckWord _ _ = _
  rw [Dev.lckWord, if_neg (by omega), if_neg (by omega), if_neg (by omega), if_pos (by omega), hidx]

/-- A read of LCK_PEEKn answers its word, without effect. -/
theorem Dev.regRead_lckPeek (d : Dev) (mid : Nat) : d.regRead mid (R.LCK_PEEK n) = d.answer mid (d.lockPeek n) := by
  rw [Dev.regRead_block mid (lckPeek_here hn d), offOf_lckPeek hn, ← d.view_lckPeek hn mid]
  exact if_neg (by omega)

variable {s : State} (hs : s.Up) (mid : Nat)
include hs

theorem exec_lockAcquire : exec (.lockAcquire mid n) s = .next (s.withDev (s.dev.lockAcquire mid n)) :=
  (onDev_up hs).trans (by simp only [if_pos hn])

theorem exec_read_lckLock : exec (.lowWordRead mid ⟨R.LCK_LOCK n, 4⟩) s = .next (s.withDev (s.dev.lockAcquire mid n)) := by
  rw [exec_lowWordRead_reg hs, Dev.regRead_lckLock hn]
  · rw [inRegs_iff, R.LCK_LOCK]; omega
  · simp only [R.LCK_LOCK]; omega

theorem exec_read_lckPeek : exec (.lowWordRead mid ⟨R.LCK_PEEK n, 4⟩) s =
    .next (s.withDev (s.dev.answer mid (s.dev.lockPeek n))) := by
  rw [exec_lowWordRead_reg hs, Dev.regRead_lckPeek hn]
  · rw [inRegs_iff, R.LCK_PEEK]; omega
  · simp only [R.LCK_PEEK]; omega

end

/-! ### What a lock answers (R416) -/

/-- The word of LCK_LOCKn and LCK_PEEKn with GOT, HELD, AGAIN and HOLDER (R433). -/
def lockShown (got held again holder : Nat) : Word := BitVec.ofNat 32 (got + 2 * held + 4 * again + 16 * holder)

theorem ofNat_eq_lockShown (got held again holder : Nat) :
    BitVec.ofNat 32 (holder * 16 + (got + 2 * held + 4 * again)) = lockShown got held again holder := by
  rw [lockShown, Nat.add_comm, Nat.mul_comm holder]

section
variable {d : Dev} {mid n h : Nat}

theorem Dev.lockPeek_free (hl : d.lockNow n = none) : d.lockPeek n = 0 := by simp only [Dev.lockPeek, hl]

theorem Dev.lockPeek_held (hl : d.lockNow n = some h) : d.lockPeek n = lockShown 0 1 0 h := by
  simp only [Dev.lockPeek, hl]
  exact ofNat_eq_lockShown 0 1 0 h

theorem Dev.lockAcquire_debug : d.lockAcquire Mid.DEBUG n = d.answer Mid.DEBUG (d.lockPeek n) := if_pos rfl

variable (hm : mid ≠ Mid.DEBUG)
include hm

theorem Dev.lockAcquire_free (hl : d.lockNow n = none) :
    d.lockAcquire mid n = (d.setLck n (some mid)).answer mid (lockShown 1 0 0 mid) := by
  simp only [Dev.lockAcquire, if_neg hm, hl, ← ofNat_eq_lockShown]

theorem Dev.lockAcquire_again (hl : d.lockNow n = some mid) : d.lockAcquire mid n = d.answer mid (lockShown 1 0 1 mid) := by
  simp only [Dev.lockAcquire, if_neg hm, hl, if_true, ← ofNat_eq_lockShown]

theorem Dev.lockAcquire_held (hl : d.lockNow n = some h) (hh : h ≠ mid) :
    d.lockAcquire mid n = d.answer mid (lockShown 0 1 0 h) := by
  simp only [Dev.lockAcquire, if_neg hm, hl, if_neg hh, ← ofNat_eq_lockShown]

/-- A lock acquired changes the locks and the answer alone. -/
theorem Dev.lockAcquire_free_quiet (hl : d.lockNow n = none) :
    Quiet { d with lck := (d.lockAcquire mid n).lck, rdata := (d.lockAcquire mid n).rdata } (d.lockAcquire mid n) := by
  rw [Dev.lockAcquire_free hm hl]
  exact Quiet.refl _

/-- A lock acquired is the reader's; the others stand. -/
theorem Dev.lckS_lockAcquire_free (hl : d.lockNow n = none) (j : Nat) :
    (d.lockAcquire mid n).lckS j = if j = n then some mid else d.lckS j := by
  rw [Dev.lockAcquire_free hm hl, Dev.lckS_answer, Dev.lckS_setLck]

theorem Dev.answered_lockAcquire_free (hl : d.lockNow n = none) : (d.lockAcquire mid n).answered mid = lockShown 1 0 0 mid := by
  rw [Dev.lockAcquire_free hm hl, Dev.answered_answer]

end

/-- Settles O41: LOCK_ACQUIRE and a read of LCK_LOCKn are one operation, whose cases are the lock free, held by the reader, held by another,
and the reader Debug, whose read is that of LCK_PEEKn. -/
theorem lockReads : Obligations.LockReads := by
  intro s mid n hs hn _
  have hpeek := exec_read_lckPeek hn hs mid
  refine ⟨fun o ho => ?_, fun hl => ?_, fun h hl => ?_, fun hl => ⟨?_, ?_⟩⟩
  · have hnext : o = .next (s.withDev (s.dev.lockAcquire mid n)) := by
      obtain rfl | rfl := ho
      · exact exec_lockAcquire hn hs mid
      · exact exec_read_lckLock hn hs mid
    refine ⟨fun hm => ⟨fun hl => ⟨_, hnext, Dev.lockAcquire_free_quiet hm hl, ?_, fun j hj => ?_, ?_⟩,
      fun hl => ⟨_, hnext, ?_⟩, fun h hl hh => ⟨_, hnext, ?_⟩⟩, ?_⟩
    · rw [Dev.lckS_lockAcquire_free hm hl, if_pos rfl]
    · rw [Dev.lckS_lockAcquire_free hm hl, if_neg hj]
    · exact Dev.answered_lockAcquire_free hm hl
    · rw [Dev.lockAcquire_again hm hl]
      exact ⟨Dev.answer_onlyRead _ _ _, Dev.answered_answer _ _ _⟩
    · rw [Dev.lockAcquire_held hm hl hh]
      exact ⟨Dev.answer_onlyRead _ _ _, Dev.answered_answer _ _ _⟩
    · rintro rfl
      rw [hnext, hpeek, Dev.lockAcquire_debug]
  · rw [Dev.lockPeek_free hl] at hpeek
    exact ⟨_, hpeek, Dev.answer_onlyRead _ _ _, Dev.answered_answer _ _ _⟩
  · rw [Dev.lockPeek_held hl] at hpeek
    exact ⟨_, hpeek, Dev.answer_onlyRead _ _ _, Dev.answered_answer _ _ _⟩
  · exact ⟨_, exec_lockAcquire hn hs Mid.S0, Dev.answered_lockAcquire_free (by decide) hl⟩
  · exact ⟨_, exec_lockAcquire hn hs Mid.PCIE, Dev.answered_lockAcquire_free (by decide) hl⟩

end Sys2Proof.Machine
end

section
/-! PROOFS. The step as a whole, and the canonical form of the memories (log entry 4): every operation on memories keeps it, and so does
every command. -/

namespace Sys2Proof.Machine

/-- Settles O1: a step with a command in front is the command's run, by definition. -/
theorem stepRunsFront : Obligations.StepRunsFront := by
  intro s c r h
  rw [step, h]

/-- Settles O4: five empty memories are canonical. -/
theorem resetHoldsInv : Obligations.ResetHoldsInv := by
  rw [Obligations.ResetHoldsInv, State.Inv]
  rfl

/-! ### Changes of the state and the canonical form -/

section
variable {s t : State}

/-- The canonical form is that of the memories alone. -/
theorem State.Inv.of_mems (h : s.Inv) (hm : t.mems = s.mems) : t.Inv := by rw [State.Inv, hm]; exact h

theorem State.Inv.onDevS (h : s.Inv) (f : Dev → Dev) : (s.onDevS f).Inv := h.of_mems rfl

theorem State.Inv.win (h : s.Inv) : Memory.wf s.mems.win = true := ((Mems.wf_iff _).1 h).1
theorem State.Inv.ddr (h : s.Inv) : Memory.wf s.mems.ddr = true := ((Mems.wf_iff _).1 h).2.1
theorem State.Inv.chip (h : s.Inv) : Memory.wf s.mems.chip = true := ((Mems.wf_iff _).1 h).2.2.1
theorem State.Inv.ret (h : s.Inv) : Memory.wf s.mems.ret = true := ((Mems.wf_iff _).1 h).2.2.2.1
theorem State.Inv.flash (h : s.Inv) : Memory.wf s.mems.flash = true := ((Mems.wf_iff _).1 h).2.2.2.2

theorem Mems.wf_mk {win ddr chip ret flash : Memory} (hw : Memory.wf win = true) (hd : Memory.wf ddr = true)
    (hc : Memory.wf chip = true) (hr : Memory.wf ret = true) (hf : Memory.wf flash = true) : (Mems.mk win ddr chip ret flash).wf = true :=
  (Mems.wf_iff _).2 ⟨hw, hd, hc, hr, hf⟩

theorem State.Inv.mk {d : Dev} {win ddr chip ret flash : Memory} {l : List Instr} (hw : Memory.wf win = true) (hd : Memory.wf ddr = true)
    (hc : Memory.wf chip = true) (hr : Memory.wf ret = true) (hf : Memory.wf flash = true) :
    (State.mk d ⟨win, ddr, chip, ret, flash⟩ l).Inv := Mems.wf_mk hw hd hc hr hf

theorem State.Inv.withFlash (h : s.Inv) {m : Memory} (hm : Memory.wf m = true) (d : Dev) :
    ({ s with dev := d, mems := { s.mems with flash := m } } : State).Inv := State.Inv.mk h.win h.ddr h.chip h.ret hm

theorem State.Inv.ite (c : Prop) [Decidable c] (h : c → s.Inv) (k : ¬c → t.Inv) : (if c then s else t).Inv := by
  split
  · next hc => exact h hc
  · next hc => exact k hc

theorem State.Inv.clocked (h : s.Inv) (page : Nat) {f : State → State} (hf : s.Inv → (f s).Inv) : (s.clocked page f).Inv :=
  State.Inv.ite _ (fun _ => h) fun _ => hf h

end

/-! ### The recorder's ring and the copies (R456 to R462) -/

theorem State.putBlock_inv {s : State} (h : s.Inv) (b rest : List RecRec) : (s.putBlock b rest).Inv :=
  (State.ringPlace_inv h s.dev.recWseq (blockWords s.dev.recWseq b)).of_mems rfl

theorem State.flush_inv (n : Nat) {s : State} (h : s.Inv) : (s.flush n).Inv := by
  induction n generalizing s with
  | zero => exact h
  | succ n ih => exact State.Inv.ite _ (fun _ => h) fun _ => ih (State.putBlock_inv h _ _)

theorem State.flushAll_inv {s : State} (h : s.Inv) : s.flushAll.Inv := State.flush_inv _ h

theorem State.blockComplete_inv {s : State} (h : s.Inv) : s.blockComplete.Inv := by
  refine State.Inv.ite _ (fun _ => h) fun _ => State.Inv.ite _ (fun _ => h) fun _ => ?_
  have hput := State.putBlock_inv h (nextBlock s.dev.hamper.fifo).1 (nextBlock s.dev.hamper.fifo).2
  exact State.Inv.ite _ (fun _ => hput.of_mems rfl) fun _ => hput

theorem State.recFreeze_inv {s : State} (h : s.Inv) : s.recFreeze.Inv := (State.flushAll_inv h).of_mems rfl

theorem State.recFrozen_inv {s : State} (h : s.Inv) : s.recFrozen.Inv := State.Inv.ite _ (fun _ => State.recFreeze_inv h) fun _ => h

theorem State.recStop_inv {s : State} (h : s.Inv) : s.recStop.Inv :=
  State.Inv.ite _ (fun _ => (State.flushAll_inv h).of_mems rfl) fun _ => h

theorem State.recCtrlWrite_inv {s : State} (h : s.Inv) (mid : Nat) (w : Word) : (s.recCtrlWrite mid w).Inv := by
  refine State.Inv.ite _ (fun _ => h.of_mems rfl) fun _ => ?_
  have hen : ∀ (t : State) (rise stop : Bool), t.Inv → (if rise then t.onDevS Dev.runStart else if stop then t.recStop else t).Inv :=
    fun t rise stop ht => State.Inv.ite _ (fun _ => ht.onDevS _) fun _ => State.Inv.ite _ (fun _ => State.recStop_inv ht) fun _ => ht
  have htrig : ∀ (t : State) (b : Bool), t.Inv → (if b then t.onDevS fun e => e.trigger 0x100 else t).Inv :=
    fun t b ht => State.Inv.ite _ (fun _ => ht.onDevS _) fun _ => ht
  have hfreeze : ∀ (t : State) (b : Bool), t.Inv → (if b && t.dev.flag R.REC_STAT F.REC_STAT_RUN then t.recFreeze else t).Inv :=
    fun t b ht => State.Inv.ite _ (fun _ => State.recFreeze_inv ht) fun _ => ht
  refine hfreeze _ _ (htrig _ _ (State.Inv.onDevS (hen _ _ _ ?_) _))
  exact h.of_mems rfl

theorem State.winCopy_inv {s : State} (h : s.Inv) (w : Nat) (bs : List Byte) : (s.winCopy w bs).Inv := by
  unfold State.winCopy
  generalize w * 0x10000 = a
  exact State.Inv.mk (Memory.wf_writeBytes _ _ h.win) h.ddr h.chip h.ret h.flash

theorem State.loadBlocks_inv (w n i : Nat) {s : State} (h : s.Inv) : (State.loadBlocks w n i s).1.Inv := by
  induction n generalizing i s with
  | zero => exact h
  | succ n ih =>
    unfold State.loadBlocks
    dsimp only
    split
    · exact ih _ (State.ringPlace_inv h _ _)
    · exact h

theorem forN_inv {n : Nat} {f : Nat → State → State} (hf : ∀ i t, t.Inv → (f i t).Inv) {s : State} (h : s.Inv) : (forN n f s).Inv := by
  unfold forN
  induction List.range n generalizing s with
  | nil => exact h
  | cons i l ih => exact ih (hf i s h)

theorem State.jobRun_inv {s : State} (h : s.Inv) (j : JobSt) : (s.jobRun j).1.Inv := by
  unfold State.jobRun
  split
  · exact State.winCopy_inv (forN_inv (fun i t ht => State.ringFix_inv ht _) h) _ _
  · split
    · exact State.loadBlocks_inv _ _ _ h
    · split
      · exact State.winCopy_inv h _ _
      · exact State.winCopy_inv (State.ddrRead_inv h _ _) _ _

theorem State.jobDone_inv {s : State} (h : s.Inv) : s.jobDone.Inv := by
  unfold State.jobDone
  split
  · exact h
  · exact State.Inv.ite _ (fun _ => (h.onDevS _).onDevS _) fun _ => (State.jobRun_inv (h.onDevS _) _).onDevS _

/-! ### Replay (R463) -/

theorem State.replayStart_inv {s : State} (h : s.Inv) : s.replayStart.Inv := by
  have hread : (if s.dev.devState = DS.READY ∧ s.dev.flag R.REC_CTRL F.REC_CTRL_EN = false then s.ringRead else s).Inv :=
    State.Inv.ite _ (fun _ => State.ringRead_inv h) fun _ => h
  unfold State.replayStart
  generalize (if s.dev.devState = DS.READY ∧ s.dev.flag R.REC_CTRL F.REC_CTRL_EN = false then s.ringRead else s) = t at hread ⊢
  dsimp only
  split
  · exact State.Inv.ite _ (fun _ => hread.onDevS _) fun _ => hread.onDevS _
  · exact hread.onDevS _

theorem State.rplCtrlWrite_inv {s : State} (h : s.Inv) (mid : Nat) (w : Word) : (s.rplCtrlWrite mid w).Inv := by
  refine State.Inv.ite _ (fun _ => h.onDevS _) fun _ => ?_
  have hstart : ∀ (t : State) (b : Bool), t.Inv → (if b then t.replayStart else t).Inv :=
    fun t b ht => State.Inv.ite _ (fun _ => State.replayStart_inv ht) fun _ => ht
  have habort : ∀ (t : State) (b : Bool), t.Inv → (if b && t.dev.replaying then t.onDevS fun d => d.replayEnd 4 else t).Inv :=
    fun t b ht => State.Inv.ite _ (fun _ => ht.onDevS _) fun _ => ht
  refine habort _ _ (hstart _ _ (State.Inv.onDevS ?_ _))
  exact h.onDevS _

/-! ### Resets (R483, R484) -/

theorem State.coldReset_inv {s : State} (h : s.Inv) (cause : Nat) : (s.coldReset cause).Inv := State.Inv.mk rfl rfl rfl rfl h.flash

theorem State.warmReset_inv {s : State} (h : s.Inv) (cause : Nat) : (s.warmReset cause).Inv := State.Inv.mk rfl h.ddr h.chip h.ret h.flash

theorem State.warmDue_inv {s : State} (h : s.Inv) : s.warmDue.Inv := by
  unfold State.warmDue
  split
  · exact State.Inv.ite _ (fun _ => State.warmReset_inv h _) fun _ => h
  · exact h

theorem State.resetPin_inv {s : State} (h : s.Inv) : s.resetPin.Inv :=
  State.Inv.ite _ (fun _ => h.of_mems rfl) fun _ => State.warmDue_inv (h.of_mems rfl)

theorem State.dbgCtrlWrite_inv {s : State} (h : s.Inv) (mid : Nat) (w : Word) : (s.dbgCtrlWrite mid w).Inv := by
  have ht := h.onDevS fun d => d.haltWrite mid (bitOf w 1)
  exact State.Inv.ite _ (fun _ => ht) fun _ => State.Inv.ite _ (fun _ => State.warmDue_inv (ht.onDevS _)) fun _ => ht.onDevS _

/-! ### The bus and the SPI host (R419 to R421, R443 to R445) -/

theorem flashSpb_wf {m : Memory} (h : Memory.wf m = true) (l : Sparse Word) : Memory.wf (flashSpb m l) = true := by
  unfold flashSpb
  generalize (List.range 1024).map _ = ws
  exact flashCopies_wf h ws

theorem safeConfirm_wf {m : Memory} (h : Memory.wf m = true) (d : Dev) (mid : Nat) (w : Word) : Memory.wf (safeConfirm d m mid w).2 = true := by
  unfold safeConfirm
  dsimp only
  split
  · exact h
  · split
    · dsimp only
      exact flashSpb_wf h _
    · exact h

theorem State.confirmWrite_inv {s : State} (h : s.Inv) (mid : Nat) (w : Word) : (s.confirmWrite mid w).Inv :=
  h.withFlash (safeConfirm_wf h.flash _ _ _) _

theorem State.winWrite_inv {s : State} (h : s.Inv) (mid a : Nat) (bs : List Byte) : (s.winWrite mid a bs).Inv := by
  unfold State.winWrite
  dsimp only
  split
  · exact h
  · split
    · generalize bs.take (0x10000 - a % 0x10000) = l
      exact State.Inv.mk (Memory.wf_writeBytes _ _ h.win) h.ddr h.chip h.ret h.flash
    · exact h.of_mems rfl

theorem State.regWrite_inv {s : State} (h : s.Inv) (mid a : Nat) (w : Word) : (s.regWrite mid a w).Inv := by
  unfold State.regWrite
  dsimp only
  split
  · exact h
  · exact State.Inv.ite _ (fun _ => h.onDevS _) fun _ => State.Inv.ite _ (fun _ => State.confirmWrite_inv h _ _) fun _ =>
      State.Inv.ite _ (fun _ => State.recCtrlWrite_inv h _ _) fun _ => State.Inv.ite _ (fun _ => State.rplCtrlWrite_inv h _ _) fun _ =>
      State.Inv.ite _ (fun _ => State.dbgCtrlWrite_inv h _ _) fun _ => h.onDevS _

theorem State.spiWord_inv {s : State} (h : s.Inv) (a : Nat) (w : Word) : (s.spiWord a w).1.Inv := by
  unfold State.spiWord
  split
  · exact State.winWrite_inv h _ _ _
  · split
    · exact h
    · exact State.regWrite_inv h _ _ _

theorem State.spiWords_inv (l : List (Nat × Word)) {s : State} (h : s.Inv) : (State.spiWords l s).1.Inv := by
  induction l generalizing s with
  | nil => exact h
  | cons p r ih => exact ih (State.spiWord_inv h _ _)

theorem State.spiReads_inv (l : List Nat) {s : State} (h : s.Inv) : (State.spiReads l s).1.Inv := by
  induction l generalizing s with
  | nil => exact h
  | cons a r ih => exact ih (h.onDevS _)

theorem State.spiRow_inv {s : State} (h : s.Inv) (row : Nat → Bool) (f : List Byte) : (s.spiRow row f).Inv := by
  refine State.Inv.ite _ (fun _ => State.Inv.ite _ (fun _ => h.onDevS _) fun _ => ?_) fun _ => h
  refine State.Inv.ite _ (fun _ => State.Inv.ite _ (fun _ => ?_) fun _ => ?_) fun _ => (h.onDevS _).onDevS _
  · exact (State.spiReads_inv _ h).onDevS _
  · exact (State.spiWords_inv _ h).onDevS _

/-! ### Dump and scrub (R449, R467 to R470) -/

theorem State.dumpRetention_inv {s : State} (h : s.Inv) : s.dumpRetention.Inv := by
  unfold State.dumpRetention
  split
  · exact h
  · generalize s.dev.retWords = x
    obtain ⟨ws, d⟩ := x
    exact State.Inv.mk h.win h.ddr h.chip (Memory.wf_writeBytes _ _ (Memory.wf_memOf _)) h.flash

theorem State.dumpExt_inv {s : State} (h : s.Inv) : s.dumpExt.Inv := by
  unfold State.dumpExt
  split
  · exact h
  · generalize freeWords (2 ^ 20) s.dev = x
    obtain ⟨sram, d⟩ := x
    dsimp only
    refine State.Inv.mk h.win ?_ h.chip (Memory.wf_writeBytes _ _ h.ret) h.flash
    exact Memory.wf_blit _ _ (Memory.wf_blit _ _ (Memory.wf_blit _ _ (Memory.wf_blit _ _ h.ddr)))

theorem State.ddrScrub_inv {s : State} (h : s.Inv) (err : EccErr) (ups : List (Nat × Bool)) : (s.ddrScrub err ups).Inv := by
  have hread : ∀ (t : State) (a : Nat), t.mems = s.mems → (t.ddrRead a 64).Inv := fun t a ht => State.ddrRead_inv (h.of_mems ht) _ _
  have herr : ∀ (t : State) (b : Nat) (two : Bool), t.mems = s.mems → (t.ddrError b two).Inv :=
    fun t b two ht => State.ddrError_inv (h.of_mems ht) _ _
  unfold State.ddrScrub
  dsimp only
  split
  · exact h.of_mems rfl
  · cases err with
    | ok => exact hread _ _ rfl
    | corrected =>
      refine State.ddrRead_inv (herr _ _ _ ?_) _ _
      rfl
    | uncorrectable =>
      refine herr _ _ _ ?_
      rfl

/-! ### Outcomes -/

/-- The next state of an outcome, where it is one, is canonical. -/
def NextInv (o : Host.Outcome State Fault Refusal) : Prop := ∀ t, o = .next t → t.Inv

section
variable {s : State}

theorem NextInv.next {t : State} (h : t.Inv) : NextInv (.next t) := by rintro _ ⟨⟩; exact h

theorem NextInv.fault (r : Fault) : NextInv (.fault r) := by rintro _ ⟨⟩

/-- A command that changes the device alone. -/
theorem NextInv.dev (h : s.Inv) (d : Dev) : NextInv (.next { s with dev := d }) := .next (h.of_mems rfl)

theorem NextInv.onState (h : s.Inv) {f : State → State} (hf : (f s).Inv) : NextInv (onState f s) :=
  .next (State.Inv.ite _ (fun _ => h) fun _ => hf)

theorem NextInv.garCmd (h : s.Inv) {ch code : Nat} {len : List Word → Bool} {states : Nat → Bool} {f : Dev → Mems → List Word → Ans × Mems}
    (hf : ∀ d args, (f d s.mems args).2.wf = true) : NextInv (garCmd ch code len states f s) := by
  unfold Machine.garCmd
  dsimp only
  split
  · exact .next h
  · split
    · split
      · exact .dev h _
      · split
        · exact .dev h _
        · exact .next (hf _ _)
    · exact .next h

theorem NextInv.garDev (h : s.Inv) {ch code : Nat} {len : List Word → Bool} {states : Nat → Bool} {f : Dev → List Word → Ans} :
    NextInv (garDev ch code len states f s) := .garCmd h fun _ _ => h

theorem NextInv.winDataWrite (h : s.Inv) (mid a : Nat) (bs : List Byte) : NextInv (winDataWrite mid a bs s) := by
  unfold Machine.winDataWrite
  split
  · exact .fault _
  · exact .onState h (State.winWrite_inv h _ _ _)

theorem NextInv.busWrite (h : s.Inv) (mid a width : Nat) (w : Word) : NextInv (busWrite mid a width w s) := by
  unfold Machine.busWrite
  split
  · exact .winDataWrite h _ _ _
  · split
    · exact .fault _
    · exact .onState h (State.Inv.ite _ (fun _ => State.regWrite_inv h _ _ _) fun _ => h)

theorem NextInv.lowWordRead (h : s.Inv) (mid : Nat) (a : BusAt) : NextInv (execLowWordRead mid a s) := by
  unfold execLowWordRead
  split
  · exact .onState h (h.onDevS _)
  · exact .fault _

theorem garDevState_wf (h : s.Inv) (d : Dev) (args : List Word) : (garDevState d s.mems args).2.wf = true := by
  unfold garDevState
  dsimp only
  split
  · exact h
  · split
    · exact h
    · split <;> exact h

theorem garSpbWrite_wf (h : s.Inv) (ch : Nat) (d : Dev) (args : List Word) : (garSpbWrite ch d s.mems args).2.wf = true := by
  have hflash : ∀ ws : List Word, ({ s.mems with flash := flashCopies s.mems.flash ws } : Mems).wf = true :=
    fun ws => Mems.wf_mk h.win h.ddr h.chip h.ret (flashCopies_wf h.flash ws)
  unfold garSpbWrite
  dsimp only
  split
  · exact h
  · split
    · exact h
    · dsimp only
      exact hflash _

end

/-- Every command keeps the canonical form: those that act on memories by the lemmas above, all others change the device alone. -/
theorem exec_inv {s : State} (h : s.Inv) (c : Instr) : NextInv (exec c s) := by
  unfold exec
  cases c with
  | registerWrite mid a width w => exact .busWrite h mid a width w
  | lowWordRead mid a => exact .lowWordRead h mid a
  | winDataWrite mid a bs => exact .winDataWrite h mid a bs
  | safeConfirmWrite mid w => exact .onState h (State.confirmWrite_inv h mid w)
  | devState ch => exact .garCmd h (garDevState_wf h)
  | spbWrite ch => exact .garCmd h (garSpbWrite_wf h ch)
  | nop | version | notify | machDefine | machClaim | cfgWrite | machStart | machCmd | machStop | machSto | machDischarge | machClear
  | machStatus | ringRejoin | brakeP | safeAck | safeSto | safeSs1 | outM | ringReq => exact .garDev h
  | rd f | wr f | rdFix f | wrFix f | key f | spiUnknownCmd f => exact .onState h (State.spiRow_inv h _ f)
  | ddrPatrolScrub r => exact .onState h (h.clocked _ fun h => State.ddrScrub_inv h _ _)
  | recStart mid | recStop mid | recHostTrigger mid | recRearm mid | recFreeze mid => exact .onState h (State.recCtrlWrite_inv h mid _)
  | recFrozen => exact .onState h (h.clocked _ State.recFrozen_inv)
  | blockComplete => exact .onState h (h.clocked _ State.blockComplete_inv)
  | recExpDone => exact .onState h (h.clocked _ State.jobDone_inv)
  | rplStart mid | rplAbort mid => exact .onState h (State.rplCtrlWrite_inv h mid _)
  | dumpRetentionDone => exact .onState h (State.dumpRetention_inv h)
  | dumpExtDone => exact .onState h (State.dumpExt_inv h)
  | powerOnReset => exact .next (State.coldReset_inv h _)
  | supplyReset => exact .next (State.coldReset_inv h _)
  | resetPin => exact .next (State.resetPin_inv h)
  | dbgSysRstWrite mid => exact .onState h (State.dbgCtrlWrite_inv h mid _)
  | warmReset => exact .onState h (State.warmDue_inv h)
  | imageVerified | bootComplete => exact .onState h (h.onDevS _)
  | _ => exact .dev h _

/-- Settles O5: an empty queue's tick changes the device alone, and every command keeps the canonical form. -/
theorem stepKeepsInv : Obligations.StepKeepsInv := by
  intro s t h hstep
  unfold step at hstep
  split at hstep
  · exact NextInv.dev h _ t hstep
  · next c r _ =>
    have hr : ({ s with pending := r } : State).Inv := h.of_mems rfl
    exact exec_inv hr c t hstep

end Sys2Proof.Machine
end

section
/-! PROOFS. Frames, said once: registers that the delivery of events leaves, what stands under the relations, and how a frame grows along
a chain of operations. -/

namespace Sys2Proof.Machine

/-! ### Registers of the event system -/

theorem eventReg_eq_false {a : Nat} : eventReg a = false ↔ a % 0x1000 ≠ 0x10 ∧ a ≠ 0x40008040 ∧ a ≠ 0x40008044 ∧ a ≠ 0x400BAA00 ∧
    a ≠ 0x400C004C ∧ a ≠ 0x400C0058 ∧ a ≠ 0x400C005C ∧ a ≠ 0x4001004C := by
  simp only [eventReg, offOf, R.EVT_LAST, R.EVT_LAST_T, R.PCIE_PBA, R.REC_STAT, R.REC_TRIG_SEQ, R.REC_TRIG_INFO, R.MBX_FULLF,
    Bool.or_eq_false_iff, beq_eq_false_iff_ne, and_assoc]

/-! ### What stands where only events have been delivered -/

section
variable {d e : Dev}

theorem Quiet.rdata (h : Quiet d e) : e.rdata = d.rdata := (congrArg Dev.rdata h.1 : e.calm.rdata = d.calm.rdata)
theorem Quiet.latch (h : Quiet d e) : e.latch = d.latch := (congrArg Dev.latch h.1 : e.calm.latch = d.calm.latch)
theorem Quiet.keys (h : Quiet d e) : e.keys = d.keys := (congrArg Dev.keys h.1 : e.calm.keys = d.calm.keys)
theorem Quiet.free (h : Quiet d e) : e.free = d.free := (congrArg Dev.free h.1 : e.calm.free = d.calm.free)
theorem Quiet.nv (h : Quiet d e) : e.nv = d.nv := (congrArg Dev.nv h.1 : e.calm.nv = d.calm.nv)
theorem Quiet.slot (h : Quiet d e) : e.slot = d.slot := (congrArg Dev.slot h.1 : e.calm.slot = d.calm.slot)
theorem Quiet.firings (h : Quiet d e) : e.firings = d.firings := (congrArg Dev.firings h.1 : e.calm.firings = d.calm.firings)
theorem Quiet.lck (h : Quiet d e) : e.lck = d.lck := (congrArg Dev.lck h.1 : e.calm.lck = d.calm.lck)
theorem Quiet.pcie (h : Quiet d e) : e.pcie = d.pcie := (congrArg Dev.pcie h.1 : e.calm.pcie = d.calm.pcie)
theorem Quiet.transSt (h : Quiet d e) : e.trans = d.trans := (congrArg Dev.trans h.1 : e.calm.trans = d.calm.trans)
theorem Quiet.grp (h : Quiet d e) : e.grp = d.grp := (congrArg Dev.grp h.1 : e.calm.grp = d.calm.grp)
theorem Quiet.acc (h : Quiet d e) : e.acc = d.acc := (congrArg Dev.acc h.1 : e.calm.acc = d.calm.acc)
theorem Quiet.samp (h : Quiet d e) : e.samp = d.samp := (congrArg Dev.samp h.1 : e.calm.samp = d.calm.samp)
theorem Quiet.rot (h : Quiet d e) : e.rot = d.rot := (congrArg Dev.rot h.1 : e.calm.rot = d.calm.rot)
theorem Quiet.ovl (h : Quiet d e) : e.ovl = d.ovl := (congrArg Dev.ovl h.1 : e.calm.ovl = d.calm.ovl)
theorem Quiet.cal (h : Quiet d e) : e.cal = d.cal := (congrArg Dev.cal h.1 : e.calm.cal = d.calm.cal)
theorem Quiet.ow (h : Quiet d e) : e.ow = d.ow := (congrArg Dev.ow h.1 : e.calm.ow = d.calm.ow)
theorem Quiet.sdd (h : Quiet d e) : e.sdd = d.sdd := (congrArg Dev.sdd h.1 : e.calm.sdd = d.calm.sdd)
theorem Quiet.exc (h : Quiet d e) : e.exc = d.exc := (congrArg Dev.exc h.1 : e.calm.exc = d.calm.exc)
theorem Quiet.dl (h : Quiet d e) : e.dl = d.dl := (congrArg Dev.dl h.1 : e.calm.dl = d.calm.dl)
theorem Quiet.cmp (h : Quiet d e) : e.cmp = d.cmp := (congrArg Dev.cmp h.1 : e.calm.cmp = d.calm.cmp)
theorem Quiet.pos (h : Quiet d e) : e.pos = d.pos := (congrArg Dev.pos h.1 : e.calm.pos = d.calm.pos)
theorem Quiet.emu (h : Quiet d e) : e.emu = d.emu := (congrArg Dev.emu h.1 : e.calm.emu = d.calm.emu)
theorem Quiet.ctx (h : Quiet d e) : e.ctx = d.ctx := (congrArg Dev.ctx h.1 : e.calm.ctx = d.calm.ctx)
theorem Quiet.eng (h : Quiet d e) : e.eng = d.eng := (congrArg Dev.eng h.1 : e.calm.eng = d.calm.eng)
theorem Quiet.mach (h : Quiet d e) : e.mach = d.mach := (congrArg Dev.mach h.1 : e.calm.mach = d.calm.mach)
theorem Quiet.tm (h : Quiet d e) : e.tm = d.tm := (congrArg Dev.tm h.1 : e.calm.tm = d.calm.tm)
theorem Quiet.safe (h : Quiet d e) : e.safe = d.safe := (congrArg Dev.safe h.1 : e.calm.safe = d.calm.safe)
theorem Quiet.ring (h : Quiet d e) : e.ring = d.ring := (congrArg Dev.ring h.1 : e.calm.ring = d.calm.ring)
theorem Quiet.can (h : Quiet d e) : e.can = d.can := (congrArg Dev.can h.1 : e.calm.can = d.calm.can)
theorem Quiet.eth (h : Quiet d e) : e.eth = d.eth := (congrArg Dev.eth h.1 : e.calm.eth = d.calm.eth)
theorem Quiet.spiResp (h : Quiet d e) : e.spiResp = d.spiResp := (congrArg Dev.spiResp h.1 : e.calm.spiResp = d.calm.spiResp)
theorem Quiet.sysAbs (h : Quiet d e) : e.sys.abs = d.sys.abs := (congrArg (fun x : Dev => x.sys.abs) h.1 : e.calm.sys.abs = d.calm.sys.abs)
theorem Quiet.rplShift (h : Quiet d e) : e.rpl.shift = d.rpl.shift := (congrArg (fun x : Dev => x.rpl.shift) h.1 : e.calm.rpl.shift = d.calm.rpl.shift)

theorem Quiet.slotS (h : Quiet d e) (j : Nat) : e.slotS j = d.slotS j := congrArg (fun l => spGet _ l j) h.slot
theorem Quiet.keyS (h : Quiet d e) (j : Nat) : e.keyS j = d.keyS j := congrArg (fun l => spGet _ l j) h.keys
theorem Quiet.lckS (h : Quiet d e) (j : Nat) : e.lckS j = d.lckS j := congrArg (fun l => spGet _ l j) h.lck
theorem Quiet.grpS (h : Quiet d e) (j : Nat) : e.grpS j = d.grpS j := congrArg (fun l => spGet _ l j) h.grp
theorem Quiet.accS (h : Quiet d e) (j : Nat) : e.accS j = d.accS j := congrArg (fun l => spGet _ l j) h.acc
theorem Quiet.ovlS (h : Quiet d e) (j : Nat) : e.ovlS j = d.ovlS j := congrArg (fun l => spGet _ l j) h.ovl
theorem Quiet.calS (h : Quiet d e) (j : Nat) : e.calS j = d.calS j := congrArg (fun l => spGet _ l j) h.cal
theorem Quiet.owS (h : Quiet d e) (j : Nat) : e.owS j = d.owS j := congrArg (fun l => spGet _ l j) h.ow
theorem Quiet.sddS (h : Quiet d e) (j : Nat) : e.sddS j = d.sddS j := congrArg (fun l => spGet _ l j) h.sdd
theorem Quiet.excS (h : Quiet d e) (j : Nat) : e.excS j = d.excS j := congrArg (fun l => spGet _ l j) h.exc
theorem Quiet.dlS (h : Quiet d e) (j : Nat) : e.dlS j = d.dlS j := congrArg (fun l => spGet _ l j) h.dl
theorem Quiet.cmpS (h : Quiet d e) (j : Nat) : e.cmpS j = d.cmpS j := congrArg (fun l => spGet _ l j) h.cmp
theorem Quiet.posS (h : Quiet d e) (j : Nat) : e.posS j = d.posS j := congrArg (fun l => spGet _ l j) h.pos
theorem Quiet.emuS (h : Quiet d e) (j : Nat) : e.emuS j = d.emuS j := congrArg (fun l => spGet _ l j) h.emu
theorem Quiet.ctxS (h : Quiet d e) (j : Nat) : e.ctxS j = d.ctxS j := congrArg (fun l => spGet _ l j) h.ctx
theorem Quiet.engS (h : Quiet d e) (j : Nat) : e.engS j = d.engS j := congrArg (fun l => spGet _ l j) h.eng
theorem Quiet.machS (h : Quiet d e) (j : Nat) : e.machS j = d.machS j := congrArg (fun l => spGet _ l j) h.mach
theorem Quiet.tmS (h : Quiet d e) (j : Nat) : e.tmS j = d.tmS j := congrArg (fun l => spGet _ l j) h.tm
theorem Quiet.canS (h : Quiet d e) (j : Nat) : e.canS j = d.canS j := congrArg (fun l => spGet _ l j) h.can
theorem Quiet.ethS (h : Quiet d e) (j : Nat) : e.ethS j = d.ethS j := congrArg (fun l => spGet _ l j) h.eth

theorem Quiet.now (h : Quiet d e) : e.now = d.now := by rw [Dev.now, Dev.now, h.gtc, h.rplShift]

theorem Quiet.raised (h : Quiet d e) {page src : Nat} (hr : Raised d page src) : Raised e page src := h.2.2 _ _ hr

theorem Quiet.flag (h : Quiet d e) {a : Nat} (ha : eventReg a = false) (f : RField) : e.flag a f = d.flag a f := by
  rw [Dev.flag, Dev.flag, h.get ha]

end

/-! ### A command's next state, by what its operation gives -/

section
variable {s : State} {g : Dev → Dev} {x : Dev}

theorem onDev_eq (h : s.Up) (hx : g s.dev = x) : onDev g s = .next (s.withDev x) := hx ▸ onDev_up h
theorem onPart_eq (h : s.Live) (hx : g s.dev = x) : onPart g s = .next (s.withDev x) := hx ▸ onPart_live h
theorem onLive_eq (h : s.Live) (hx : g s.dev = x) : onLive g s = .next (s.withDev x) := hx ▸ onLive_live h

theorem onDev_same (h : s.Up) (hx : g s.dev = s.dev) : onDev g s = .next s := onDev_eq h hx
theorem onPart_same (h : s.Live) (hx : g s.dev = s.dev) : onPart g s = .next s := onPart_eq h hx
theorem onLive_same (h : s.Live) (hx : g s.dev = s.dev) : onLive g s = .next s := onLive_eq h hx

end

/-! ### Frames along a chain of operations -/

/-- An operation that copies parts of its second device into its first: what a frame leaves out beside registers. -/
structure Part (p : Dev → Dev → Dev) : Prop where
  self : ∀ d, p d d = d
  reg : ∀ d e a, (p d e).reg a = d.reg a
  calm : ∀ d e, (p d e).calm = p d.calm e
  again : ∀ d e f, p (p d e) f = p d f

/-- From one device to another nothing has changed but parts, registers of a list, and what events bring. -/
def FrameOn (p : Dev → Dev → Dev) (l : List Nat) (d e : Dev) : Prop := Frame (p d e) e l

/-- No part beside registers. -/
def noPart (d _ : Dev) : Dev := d

theorem noPart_part : Part noPart := ⟨fun _ => rfl, fun _ _ _ => rfl, fun _ _ => rfl, fun _ _ _ => rfl⟩

section
variable {p : Dev → Dev → Dev} {l : List Nat} {d e f : Dev}

theorem Frame.of_quiet (h : Quiet d e) (l : List Nat) : Frame d e l := ⟨h.1, fun a ha _ => h.2.1 a ha, fun q i _ => h.2.2 q i⟩

theorem Frame.mono {m : List Nat} (h : Frame d e l) (hl : ∀ a ∈ l, a ∈ m) : Frame d e m :=
  ⟨h.1, fun a ha hm => h.2.1 a ha fun hx => hm (hl a hx), fun q i hm => h.2.2 q i fun hx => hm (hl _ hx)⟩

theorem FrameOn.reg (hp : Part p) (h : FrameOn p l d e) {a : Nat} (ha : eventReg a = false) (hl : a ∉ l) : e.reg a = d.reg a :=
  (h.2.1 a ha hl).trans (hp.reg d e a)

theorem FrameOn.raised (hp : Part p) (h : FrameOn p l d e) {page src : Nat} (hl : R.PG_EVT_RAW page ∉ l) (hr : Raised d page src) :
    Raised e page src := h.2.2 _ _ hl (by rw [hp.reg]; exact hr)

theorem FrameOn.refl (hp : Part p) (l : List Nat) (d : Dev) : FrameOn p l d d := by
  rw [FrameOn, hp.self]; exact Frame.of_quiet (Quiet.refl d) l

theorem FrameOn.trans (hp : Part p) (h : FrameOn p l d e) (g : FrameOn p l e f) : FrameOn p l d f := by
  obtain ⟨hcalm, hreg, hraw⟩ := h
  obtain ⟨gcalm, greg, graw⟩ := g
  refine ⟨?_, fun a ha hl => ?_, fun q i hq x => graw q i hq ?_⟩
  · rw [gcalm, hp.calm, hcalm, hp.calm, hp.again, ← hp.calm]
  · rw [greg a ha hl, hp.reg, hreg a ha hl, hp.reg, hp.reg]
  · rw [hp.reg]
    refine hraw q i hq ?_
    rw [hp.reg] at x ⊢
    exact x

/-- Where only the parts differ, the rest is that of the device before. -/
theorem Part.calm_of_eq (hp : Part p) (h : f.calm = e.calm) : f.calm = (p e f).calm := by
  rw [hp.calm, ← h, ← hp.calm, hp.self]

/-- One more operation: it changes parts, and registers of the list. -/
theorem FrameOn.step (hp : Part p) (h : FrameOn p l d e) (hc : f.calm = (p e f).calm) (hr : ∀ a, a ∉ l → f.reg a = e.reg a) :
    FrameOn p l d f := by
  refine h.trans hp ⟨hc, fun a _ hl => by rw [hp.reg]; exact hr a hl, fun q i hq x => ?_⟩
  rw [hr _ hq, ← hp.reg e f]
  exact x

theorem FrameOn.part (hp : Part p) (h : FrameOn p l d e) (hc : f.calm = (p e f).calm) (hr : ∀ a, f.reg a = e.reg a) :
    FrameOn p l d f := h.step hp hc fun a _ => hr a

theorem FrameOn.quiet (hp : Part p) (h : FrameOn p l d e) (hq : Quiet e f) : FrameOn p l d f := by
  refine h.trans hp ⟨hp.calm_of_eq hq.1, fun a ha _ => by rw [hp.reg]; exact hq.2.1 a ha, fun q i _ x => hq.2.2 q i ?_⟩
  rw [hp.reg] at x
  exact x

theorem FrameOn.setReg (hp : Part p) (h : FrameOn p l d e) {a : Nat} (w : Word) (ha : a ∈ l) : FrameOn p l d (e.setReg a w) :=
  h.step hp (hp.calm_of_eq rfl) fun _ hb => e.reg_setReg_ne w fun hba => hb (hba ▸ ha)

theorem FrameOn.put (hp : Part p) (h : FrameOn p l d e) {a : Nat} (f : RField) (v : Nat) (ha : a ∈ l) : FrameOn p l d (e.put a f v) :=
  h.setReg hp _ ha

theorem FrameOn.putB (hp : Part p) (h : FrameOn p l d e) {a : Nat} (f : RField) (c : Bool) (ha : a ∈ l) : FrameOn p l d (e.putB a f c) :=
  h.setReg hp _ ha

theorem FrameOn.orReg (hp : Part p) (h : FrameOn p l d e) {a : Nat} (w : Word) (ha : a ∈ l) : FrameOn p l d (e.orReg a w) :=
  h.setReg hp _ ha

theorem FrameOn.ite {c : Prop} [Decidable c] (h : c → FrameOn p l d e) (g : ¬c → FrameOn p l d f) :
    FrameOn p l d (if c then e else f) := by
  split
  · next hc => exact h hc
  · next hc => exact g hc

end

end Sys2Proof.Machine
end

section
/-! PROOFS. Writes of plain registers (R4 to R12, R22 to R27, R408): what a write's fields take, what a write to an absent unit counts, and
the statements about them. -/

namespace Sys2Proof.Machine

/-! ### Fields of a register -/

/-- Two fields share no bit. -/
def fieldApart (x y : FieldDef) : Bool := decide (x.f.hi < y.f.lo) || decide (y.f.hi < x.f.lo)

/-- The fields of a register lie in its 32 bits and share none. -/
def fieldsApart : List FieldDef → Bool
  | [] => true
  | fd :: r => decide (fd.f.lo ≤ fd.f.hi) && decide (fd.f.hi < 32) && r.all (fieldApart fd) && fieldsApart r

/-- The register map's fields share no bit. The records of contexts are left out: their writes are no plain ones. -/
theorem blockRegs_apart {b : Block} (hb : b ≠ .ctxB) : (blockRegs b).all (fun r => fieldsApart r.flds) = true := by
  cases b with
  | ctxB => exact absurd rfl hb
  | _ => rfl

theorem regFind_mem {off : Nat} {l : List RegDef} {rd : RegDef} {x y : Nat} (h : regFind off l = some (rd, x, y)) : rd ∈ l := by
  induction l with
  | nil => cases h
  | cons r l ih =>
    unfold regFind at h
    split at h
    · cases h; exact List.mem_cons_self
    · exact List.mem_cons_of_mem _ (ih h)

theorem regAt_apart {b : Block} (hb : b ≠ .ctxB) {off : Nat} {rd : RegDef} {x y : Nat} (h : regAt b off = some (rd, x, y)) :
    fieldsApart rd.flds = true := List.all_eq_true.1 (blockRegs_apart hb) rd (regFind_mem h)

section
variable {fd : FieldDef} {cur w : Word} {k : Nat}

theorem mem_field_iff {f : RField} {k : Nat} (hf : f.lo ≤ f.hi) : (f.lo ≤ k ∧ k - f.lo < fieldWidth f) ↔ f.lo ≤ k ∧ k ≤ f.hi := by
  simp only [fieldWidth]; omega

/-- Outside a field nothing is taken by it. -/
theorem fieldNext_out (hk : k < 32) (hf : fd.f.lo ≤ fd.f.hi) (ho : k < fd.f.lo ∨ fd.f.hi < k) :
    (fieldNext fd cur w).getLsbD k = cur.getLsbD k := by
  have hset : ∀ v, (setF cur fd.f v).getLsbD k = cur.getLsbD k := fun v => by
    rw [setF_bit _ _ _ _ hk, if_neg]
    rw [mem_field_iff hf]; omega
  have hmask : (fieldMask fd.f).getLsbD k = false := by
    rw [fieldMask_bit _ _ hk]
    rw [Bool.and_eq_false_iff, decide_eq_false_iff_not, decide_eq_false_iff_not, ← not_and_or, mem_field_iff hf]
    omega
  unfold fieldNext
  cases fd.acc with
  | ro | wo => rfl
  | w1c => simp only [BitVec.getLsbD_and, BitVec.getLsbD_not, hmask, Bool.and_false, Bool.not_false, hk, decide_true, Bool.and_true]
  | w1s => simp only [BitVec.getLsbD_and, BitVec.getLsbD_or, hmask, Bool.and_false, Bool.or_false]
  | w1n => dsimp only; split; exacts [hset 0, rfl]
  | rw | rwc | rwm | rwk => exact hset _

/-- Within a field what it takes rests on its own bits. -/
theorem fieldNext_congr {cur' : Word} (hf : fd.f.lo ≤ fd.f.hi) (hhi : fd.f.hi < 32)
    (h : ∀ k, fd.f.lo ≤ k → k ≤ fd.f.hi → cur'.getLsbD k = cur.getLsbD k) :
    ∀ k, fd.f.lo ≤ k → k ≤ fd.f.hi → (fieldNext fd cur' w).getLsbD k = (fieldNext fd cur w).getLsbD k := by
  intro k hlo hk
  have hset : ∀ v, (setF cur' fd.f v).getLsbD k = (setF cur fd.f v).getLsbD k := fun v => by
    have hin := (mem_field_iff hf).2 ⟨hlo, hk⟩
    rw [setF_bit _ _ _ _ (by omega), setF_bit _ _ _ _ (by omega), if_pos hin, if_pos hin]
  unfold fieldNext
  cases fd.acc with
  | ro | wo => exact h k hlo hk
  | w1c => simp only [BitVec.getLsbD_and, h k hlo hk]
  | w1s => simp only [BitVec.getLsbD_or, h k hlo hk]
  | w1n => dsimp only; split; exacts [hset 0, h k hlo hk]
  | rw | rwc | rwm | rwk => exact hset _

theorem applyFields_out {ok : FieldDef → Bool} {l : List FieldDef} (hk : k < 32)
    (hl : ∀ fd ∈ l, fd.f.lo ≤ fd.f.hi ∧ (k < fd.f.lo ∨ fd.f.hi < k)) : (applyFields ok w l cur).getLsbD k = cur.getLsbD k := by
  induction l generalizing cur with
  | nil => rfl
  | cons fd l ih =>
    obtain ⟨hf, ho⟩ := hl fd List.mem_cons_self
    rw [applyFields, ih fun g hg => hl g (List.mem_cons_of_mem _ hg)]
    split
    · exact fieldNext_out hk hf ho
    · rfl

theorem fieldsApart_cons {l : List FieldDef} (h : fieldsApart (fd :: l) = true) :
    fd.f.lo ≤ fd.f.hi ∧ fd.f.hi < 32 ∧ (∀ g ∈ l, fd.f.hi < g.f.lo ∨ g.f.hi < fd.f.lo) ∧ fieldsApart l = true := by
  simp only [fieldsApart, Bool.and_eq_true, decide_eq_true_eq, List.all_eq_true, fieldApart, Bool.or_eq_true] at h
  exact ⟨h.1.1.1, h.1.1.2, h.1.2, h.2⟩

theorem fieldsApart_mem {l : List FieldDef} (h : fieldsApart l = true) (hfd : fd ∈ l) : fd.f.lo ≤ fd.f.hi ∧ fd.f.hi < 32 := by
  induction l with
  | nil => cases hfd
  | cons g l ih =>
    obtain ⟨hlo, hhi, -, hl⟩ := fieldsApart_cons h
    rcases List.mem_cons.1 hfd with rfl | hm
    · exact ⟨hlo, hhi⟩
    · exact ih hl hm

/-- Every field of a register takes its part of a write, or stands where it does not accept it. -/
theorem applyFields_in {ok : FieldDef → Bool} {l : List FieldDef} (h : fieldsApart l = true) (hfd : fd ∈ l) (hlo : fd.f.lo ≤ k)
    (hhi : k ≤ fd.f.hi) : (applyFields ok w l cur).getLsbD k = (if ok fd then fieldNext fd cur w else cur).getLsbD k := by
  induction l generalizing cur with
  | nil => cases hfd
  | cons g l ih =>
    obtain ⟨hg, hg32, hap, hl⟩ := fieldsApart_cons h
    rw [applyFields]
    rcases List.mem_cons.1 hfd with rfl | hm
    · exact applyFields_out (by omega) fun x hx => ⟨(fieldsApart_mem hl hx).1, by have := hap x hx; omega⟩
    · obtain ⟨hf, hf32⟩ := fieldsApart_mem hl hm
      have hpre : ∀ j, fd.f.lo ≤ j → j ≤ fd.f.hi → (if ok g then fieldNext g cur w else cur).getLsbD j = cur.getLsbD j := by
        intro j hj hj'
        split
        · exact fieldNext_out (by omega) hg (by have := hap fd hm; omega)
        · rfl
      rw [ih hl hm]
      split
      · exact fieldNext_congr hf hf32 hpre k hlo hhi
      · exact hpre k hlo hhi

/-- A field's number rests on its bits. -/
theorem getF_congr {w x : Word} {f : RField} (h : ∀ k, f.lo ≤ k → k ≤ f.hi → w.getLsbD k = x.getLsbD k) : getF w f = getF x f := by
  apply Nat.eq_of_testBit_eq
  intro i
  rw [getF_bit, getF_bit]
  by_cases hi : i < fieldWidth f
  · rw [h (i + f.lo) (by omega) (by rw [fieldWidth] at hi; omega)]
  · simp [hi]

/-- The word that a write leaves acts on every field by its access type. -/
theorem fieldTaken_applyFields {d e : Dev} {ok : FieldDef → Bool} {a : Nat} {l : List FieldDef} (h : fieldsApart l = true) (hfd : fd ∈ l)
    (he : e.reg a = applyFields ok w l (d.reg a)) : FieldTaken d e (ok fd) a fd w := by
  obtain ⟨hf, hf32⟩ := fieldsApart_mem h hfd
  have hbit : ∀ k, fd.f.lo ≤ k → k ≤ fd.f.hi → (e.reg a).getLsbD k = (if ok fd then fieldNext fd (d.reg a) w else d.reg a).getLsbD k :=
    fun k hlo hhi => by rw [he]; exact applyFields_in h hfd hlo hhi
  have hget := getF_congr hbit
  have hw : fd.f.lo + fieldWidth fd.f ≤ 32 := by rw [fieldWidth]; omega
  refine ⟨fun hno => ?_, fun hyes => ?_⟩
  · rw [hno] at hget; exact hget
  · simp only [hyes, if_true] at hbit hget
    have hmask : ∀ k, fd.f.lo ≤ k → k ≤ fd.f.hi → (fieldMask fd.f).getLsbD k = true := fun k hlo hhi => by
      have := (mem_field_iff hf).2 ⟨hlo, hhi⟩
      rw [fieldMask_bit _ _ (by omega)]; simp [this]
    unfold fieldNext at hbit hget
    cases hacc : fd.acc with
    | ro | wo => rw [hacc] at hget; exact hget
    | w1c =>
      intro k hlo hhi
      rw [hacc] at hbit
      simp only [bitOf_eq, hbit k hlo hhi, BitVec.getLsbD_and, BitVec.getLsbD_not, hmask k hlo hhi, Bool.and_true,
        show k < 32 by omega, decide_true, Bool.true_and]
    | w1s =>
      intro k hlo hhi
      rw [hacc] at hbit
      simp only [bitOf_eq, hbit k hlo hhi, BitVec.getLsbD_and, BitVec.getLsbD_or, hmask k hlo hhi, Bool.and_true]
    | w1n =>
      rw [hacc] at hget
      dsimp only at hget ⊢
      rw [Dev.get, hget]
      split
      · rw [getF_setF_self _ _ _ hw, Nat.zero_mod]
      · rfl
    | rw | rwc | rwm | rwk =>
      rw [hacc] at hget
      dsimp only at hget ⊢
      rw [Dev.get, hget, getF_setF_self _ _ _ hw, Nat.mod_eq_of_lt (getF_lt w fd.f)]

end

/-! ### A write taken to its register -/

theorem exec_registerWrite_reg {s : State} (hs : s.Up) {a : Nat} (hr : inRegs a = true) (h4 : a % 4 = 0) (mid : Nat) (w : Word) :
    exec (.registerWrite mid a 4 w) s = .next (s.regWrite mid a w) := by
  change busWrite mid a 4 w s = _
  simp only [busWrite, inWins_of_inRegs hr, hr, Bool.false_eq_true, Bool.not_true, if_false]
  rw [onState_up hs, if_pos ⟨trivial, h4⟩]

section
variable {b : Block} {i off : Nat}

/-- No other operation of the page's takes a write of a plain register. -/
theorem Dev.routeWrite_plain (h : plainReg b i off = true) (d : Dev) (mid a : Nat) (w : Word) :
    d.routeWrite mid b i off a w = d.plainWrite mid a w := by
  cases b with
  | sysB =>
    simp only [plainReg, Bool.and_eq_true, Bool.or_eq_true, bne_iff_ne, decide_eq_true_eq] at h
    simp only [Dev.routeWrite, Dev.sysPageWrite]
    rw [if_neg (by omega), if_neg (by omega)]
  | mbxB =>
    simp only [plainReg, Bool.and_eq_true, Bool.or_eq_true, bne_iff_ne, decide_eq_true_eq] at h
    simp only [Dev.routeWrite, Dev.mbxPageWrite]
    rw [if_neg h.1, if_pos h.2]
  | lckB =>
    simp only [plainReg, Bool.and_eq_true, Bool.or_eq_true, bne_iff_ne, decide_eq_true_eq] at h
    simp only [Dev.routeWrite, Dev.lckPageWrite]
    rw [if_neg h.1, if_neg (by omega)]
  | winB =>
    simp only [plainReg, Bool.and_eq_true, Bool.or_eq_true, bne_iff_ne, decide_eq_true_eq] at h
    simp only [Dev.routeWrite, Dev.winPageWrite]
    rw [if_neg h.1, if_pos h.2]
  | tlB =>
    simp only [plainReg, Bool.and_eq_true, List.contains_cons, List.contains_nil, Bool.not_eq_true', Bool.or_eq_false_iff,
      beq_eq_false_iff_ne, decide_eq_true_eq] at h
    simp only [Dev.routeWrite, Dev.tlPageWrite]
    rw [if_neg (by omega), if_neg (by omega), if_neg (by omega), if_neg (by omega), if_neg (by omega)]
  | tlsB =>
    simp only [plainReg, Bool.and_eq_true, beq_iff_eq, decide_eq_true_eq] at h
    simp only [Dev.routeWrite, Dev.slotPageWrite]
    rw [if_neg (by omega), if_neg (by omega), if_neg (by omega)]
  | trkB =>
    simp only [plainReg, Bool.and_eq_true, List.contains_cons, List.contains_nil, Bool.not_eq_true', Bool.or_eq_false_iff,
      beq_eq_false_iff_ne, decide_eq_true_eq] at h
    simp only [Dev.routeWrite, Dev.trkPageWrite]
    rw [if_neg (by omega), if_neg (by omega), if_neg (by omega), if_neg (by omega), if_neg (by omega)]
  | adbB =>
    simp only [plainReg, Bool.and_eq_true, Bool.not_eq_true', Bool.and_eq_false_iff, beq_eq_false_iff_ne, decide_eq_true_eq,
      decide_eq_false_iff_not] at h
    simp only [Dev.routeWrite, Dev.adbPageWrite]
    rw [if_neg (by omega), if_neg (by omega)]
  | accB =>
    simp only [plainReg, Bool.and_eq_true, Bool.not_eq_true', Bool.and_eq_false_iff, decide_eq_true_eq, decide_eq_false_iff_not] at h
    simp only [Dev.routeWrite, Dev.accPageWrite]
    rw [if_neg (by omega), if_neg (by omega)]
  | mmxB | cmpB =>
    simp only [plainReg, decide_eq_true_eq] at h
    simp only [Dev.routeWrite, Dev.mmxPageWrite, Dev.cmpPageWrite]
    rw [if_pos (by omega)]
  | lecB =>
    simp only [plainReg, Bool.and_eq_true, bne_iff_ne, decide_eq_true_eq] at h
    simp only [Dev.routeWrite, Dev.lecPageWrite]
    rw [if_neg h.1, if_neg (by omega)]
  | emuB =>
    simp only [plainReg, Bool.and_eq_true, beq_iff_eq, decide_eq_true_eq] at h
    simp only [Dev.routeWrite, Dev.emuPageWrite]
    rw [if_neg (by omega), if_neg (by omega), if_neg (by omega), if_neg (by omega)]
  | pwtB | pwaB =>
    simp only [plainReg, Bool.and_eq_true, Bool.not_eq_true', Bool.and_eq_false_iff, bne_iff_ne, decide_eq_false_iff_not] at h
    simp only [Dev.routeWrite, Dev.pwmPageWrite]
    rw [if_neg (by omega), if_neg (by omega), if_neg (by omega), if_neg (by omega)]
  | pwgB =>
    simp only [plainReg, Bool.and_eq_true, Bool.not_eq_true', Bool.and_eq_false_iff, bne_iff_ne, decide_eq_false_iff_not] at h
    simp only [Dev.routeWrite, Dev.pwgPageWrite]
    rw [if_neg (by omega), if_neg (by omega)]
  | gdtB | gdaB =>
    simp only [plainReg, Bool.or_eq_true, decide_eq_true_eq] at h
    simp only [Dev.routeWrite, Dev.gdtPageWrite, Dev.gdaPageWrite]
    rw [if_pos (by omega)]
  | adaB | ctxB | posB | excB => cases h
  | _ => rfl

/-- A write of a plain register stores, beside the record of an engine's input. -/
theorem Dev.devWrite_plain (h : plainReg b i off = true) (d : Dev) (mid a : Nat) (w : Word) :
    d.devWrite mid b i off a w = d.plainWrite mid a w ∨ d.devWrite mid b i off a w = d.pWrite mid a w := by
  cases b with
  | evtB =>
    simp only [plainReg, Bool.and_eq_true, Bool.not_eq_true', Bool.and_eq_false_iff, Bool.or_eq_false_iff, bne_eq_false_iff_eq,
      beq_eq_false_iff_ne, decide_eq_false_iff_not, Bool.not_eq_false'] at h
    obtain ⟨hroute, hlast⟩ := h
    simp only [Dev.devWrite, Dev.evtPageWrite]
    rw [if_neg (by rintro ⟨h1, h2, h3⟩; simp [h3] at hroute; omega), if_neg (by omega)]
    exact .inl rfl
  | canB =>
    simp only [plainReg, Bool.and_eq_true, Bool.not_eq_true', Bool.and_eq_false_iff, bne_iff_ne, decide_eq_false_iff_not] at h
    refine .inl ?_
    simp only [Dev.devWrite, Dev.canPageWrite]
    rw [if_neg h.1, if_neg (by omega)]
  | rstB | secB | ethB | ddrB | pcieB | safeB | recB | rplB | dmpB =>
    simp only [plainReg, Bool.and_eq_true, Bool.not_eq_true', Bool.or_eq_false_iff, bne_iff_ne, List.contains_cons,
      List.contains_nil, beq_eq_false_iff_ne] at h
    refine .inl ?_
    simp only [Dev.devWrite, Dev.ethPageWrite, Dev.safePageWrite, h, if_false]
  | _ => exact .inr rfl

end

/-! ### Writes to absent units (R6, R11, R12) -/

section
variable (d : Dev) (mid page : Nat)

/-- The device with a write to an absent unit noted among those of its cycle. -/
def Dev.withAbs (d : Dev) (x : AbsSt) : Dev := { d with sys := { d.sys with abs := x } }

@[simp] theorem Dev.reg_withAbs (x : AbsSt) (a : Nat) : (d.withAbs x).reg a = d.reg a := rfl

theorem Dev.absentWrite_eq : d.absentWrite mid page =
    let e := (((d.withAbs (d.noteAbsent mid).sys.abs).bump R.SYS_ABSENT_CNT F.SYS_ABSENT_CNT_COUNT).putB
      R.SYS_ABSENT_CNT F.SYS_ABSENT_CNT_ABSENT_WR true)
    if d.absentLeads mid then e.put R.SYS_ABSENT_CNT F.SYS_ABSENT_CNT_LAST_PAGE page else e := rfl

/-- Of the registers such a write changes the count alone. -/
theorem Dev.reg_absentWrite_ne {a : Nat} (ha : a ≠ R.SYS_ABSENT_CNT) : (d.absentWrite mid page).reg a = d.reg a := by
  rw [Dev.absentWrite_eq]
  dsimp only
  split
  · simp only [Dev.reg_put_ne _ _ _ ha, Dev.putB, Dev.bump, Dev.addSat, Dev.reg_withAbs]
  · simp only [Dev.reg_put_ne _ _ _ ha, Dev.putB, Dev.bump, Dev.addSat, Dev.reg_withAbs]

/-- Beside registers it changes the note alone. -/
theorem Dev.absentWrite_rest : { d.absentWrite mid page with regs := d.regs } = d.withAbs (d.absentWrite mid page).sys.abs ∧
    (d.absentWrite mid page).sys.abs = (d.noteAbsent mid).sys.abs := by
  rw [Dev.absentWrite_eq]
  dsimp only
  split <;> exact ⟨rfl, rfl⟩

theorem Dev.absentWrite_counted (hp : page < 0x200) : AbsentCounted d (d.absentWrite mid page) mid page := by
  obtain ⟨-, habs⟩ := d.absentWrite_rest mid page
  have hleads : d.absentLeads mid = true ↔ ¬(d.sys.abs.cyc = d.busCycle ∧ d.sys.abs.mid < mid) := by
    simp only [Dev.absentLeads, Bool.or_eq_true, bne_iff_ne, decide_eq_true_eq]
    omega
  refine ⟨?_, ?_, ?_, ?_⟩
  · rw [Dev.absentWrite_eq]
    dsimp only
    split
    all_goals
      simp (disch := decide) only [Dev.get_put_field, Dev.get_put_self, Dev.putB, Dev.bump, Dev.addSat]
      exact Nat.mod_eq_of_lt (by simp only [fieldWidth, F.SYS_ABSENT_CNT_COUNT]; omega)
  · rw [Dev.absentWrite_eq]
    dsimp only
    split
    all_goals simp (disch := decide) only [Dev.flag, Dev.get_put_field, Dev.get_put_self, Dev.putB, b2n, if_true]; rfl
  · rw [Dev.absentWrite_eq]
    dsimp only
    split
    · next h =>
      rw [Dev.get_put_self _ _ _ _ (by decide), if_neg (hleads.1 h)]
      exact Nat.mod_eq_of_lt hp
    · next h =>
      rw [if_pos (by simpa using mt hleads.2 h)]
      simp (disch := decide) only [Dev.get_put_field, Dev.putB, Dev.bump, Dev.addSat]
      rfl
  · rw [habs]
    unfold Dev.noteAbsent
    dsimp only

end

/-! ### What the fields of a register take -/

theorem Dev.reg_denyIf (d : Dev) (c : Bool) (page x : Nat) : (d.denyIf c page).reg x =
    if c = true ∧ x = R.PG_STAT page then setF (d.reg x) F.PG_STAT_WR_DENIED 1 else d.reg x := by
  unfold Dev.denyIf Dev.deny Dev.putB
  cases c with
  | false => rw [if_neg (by decide), if_neg (by simp)]
  | true =>
    rw [if_pos rfl, Dev.reg_put]
    by_cases hx : x = R.PG_STAT page
    · rw [if_pos hx, if_pos ⟨rfl, hx⟩, hx]; rfl
    · rw [if_neg hx, if_neg fun h => hx h.2]

theorem Dev.calm_denyIf (d : Dev) (c : Bool) (page : Nat) : (d.denyIf c page).calm = d.calm := by cases c <;> rfl

theorem Dev.denyIf_sysAbs (d : Dev) (c : Bool) (page : Nat) : (d.denyIf c page).sys.abs = d.sys.abs := by cases c <;> rfl

/-- An address is its page's base and its offset. -/
theorem pageBase_pageOf {a : Nat} (h : inRegs a = true) : pageBase (pageOf a) + offOf a = a := by
  have := inRegs_iff.1 h
  simp only [pageBase, pageOf, offOf]
  omega

theorem ne_header {a p k : Nat} (ha : 0x40 ≤ offOf a) (hk : k < 0x40) : a ≠ pageBase p + k := by
  rintro rfl
  simp only [offOf, pageBase] at ha
  omega

section
variable {d d' e : Dev} {mid : Nat} {b : Block} {i a : Nat} {l : List FieldDef} {w : Word} {other : List Nat}

/-- A write of a register with its fields, in a device that differs by the notes of absent units. -/
theorem Dev.writeFields_taken (hreg : ∀ x, x ∉ other → d'.reg x = d.reg x) (hrest : { d' with regs := d.regs } = d.withAbs d'.sys.abs)
    (hok : d'.fieldOk mid b i (pageOf a) (offOf a) = d.fieldOk mid b i (pageOf a) (offOf a)) (hr : inRegs a = true) (ho : 0x40 ≤ offOf a)
    (hother : ∀ x ∈ other, 0x40 ≤ offOf x) (hanot : a ∉ other) (hap : fieldsApart l = true)
    (hq : Quiet (d'.writeFields mid b i (pageOf a) (offOf a) l w) e)
    (hea : e.reg a = (d'.writeFields mid b i (pageOf a) (offOf a) l w).reg a) : FieldsTaken d e mid b i a l w other := by
  have hwrite : d'.writeFields mid b i (pageOf a) (offOf a) l w =
      (d'.setReg a (applyFields (d.fieldOk mid b i (pageOf a) (offOf a)) w l (d.reg a))).denyIf
        (writeRefused (d.fieldOk mid b i (pageOf a) (offOf a)) (d.reg a) w l) (pageOf a) := by
    simp only [Dev.writeFields, pageBase_pageOf hr, hok, hreg a hanot]
  rw [hwrite] at hq hea
  have hhead : ∀ p k, k < 0x40 → pageBase p + k ≠ a ∧ pageBase p + k ∉ other :=
    fun p k hk => ⟨(ne_header ho hk).symm, fun hx => ne_header (hother _ hx) hk rfl⟩
  obtain ⟨hstA, hstO⟩ := hhead (pageOf a) 0x0C (by decide)
  have habs : e.sys.abs = d'.sys.abs := by rw [hq.sysAbs, Dev.denyIf_sysAbs]; rfl
  have hsame : ∀ c x, x ≠ a → x ∉ other →
      ((d'.setReg a (applyFields (d.fieldOk mid b i (pageOf a) (offOf a)) w l (d.reg a))).denyIf c (pageOf a)).reg x =
        ((d.withAbs e.sys.abs).denyIf c (pageOf a)).reg x := fun c x hxa hxo => by
    rw [Dev.reg_denyIf, Dev.reg_denyIf, Dev.reg_setReg_ne _ _ hxa, hreg x hxo, Dev.reg_withAbs]
  refine ⟨⟨?_, fun x hx hxl => ?_, fun p k hp hraw => ?_⟩, fun fd hfd => fieldTaken_applyFields hap hfd ?_⟩
  · rw [hq.1, Dev.calm_denyIf, Dev.calm_denyIf]
    change d'.calm = (d.withAbs e.sys.abs).calm
    rw [habs, ← hrest]
    rfl
  · rw [List.mem_cons, not_or] at hxl
    rw [hq.2.1 x hx]
    exact hsame _ x hxl.1 hxl.2
  · obtain ⟨hpa, hpo⟩ := hhead p 0x10 (by decide)
    refine hq.2.2 p k ?_
    rw [hsame _ (R.PG_EVT_RAW p) hpa hpo]
    exact hraw
  · rw [hea, Dev.reg_denyIf, if_neg fun h => hstA h.2.symm, Dev.reg_setReg_self]

end

/-! ### Rights do not rest on the count of absent writes -/

theorem ownOf_claim_ne {b : Block} {i page off c p : Nat} (h : ownOf b i page off = .unit c p) : c ≠ R.SYS_ABSENT_CNT := by
  have hne : ∀ x, 0x40000100 ≤ x → x ≠ R.SYS_ABSENT_CNT := fun x hx => by unfold R.SYS_ABSENT_CNT; omega
  cases b with
  | tlsB => cases h; exact hne _ (by unfold R.TL_SLOT_CLAIM; omega)
  | trkB => cases h; exact hne _ (by unfold R.TRK_CLAIM; omega)
  | excB => cases h; exact hne _ (by unfold R.EXC_CLAIM; omega)
  | emuB => cases h; exact hne _ (by unfold R.EMU_CLAIM; omega)
  | ctxB => cases h; exact hne _ (by unfold R.LEC_CTX_CLAIM; omega)
  | adaB => unfold ownOf at h; dsimp only at h; split at h <;> cases h; exact hne _ (by unfold R.ADA_LCLAIM; omega)
  | mmxB => unfold ownOf at h; dsimp only at h; split at h <;> cases h; exact hne _ (by unfold R.MMX_CLAIM; omega)
  | cmpB => unfold ownOf at h; dsimp only at h; split at h <;> cases h; exact hne _ (by unfold R.CMP_CLAIM; omega)
  | sysB => unfold ownOf at h; dsimp only at h; split at h <;> cases h; exact hne _ (by unfold R.SYS_PINOWN; omega)
  | accB =>
    unfold ownOf at h
    dsimp only at h
    split at h
    · cases h; exact hne _ (by unfold R.ACC_CLAIM; omega)
    · split at h <;> cases h
      exact hne _ (by unfold R.ACC_CLAIM; omega)
  | gdtB => unfold ownOf at h; dsimp only at h; split at h <;> cases h
  | gdaB =>
    unfold ownOf at h
    dsimp only at h
    split at h
    · cases h
    · split at h <;> cases h
  | _ => cases h

section
variable {d e : Dev} (hreg : ∀ x, x ≠ R.SYS_ABSENT_CNT → e.reg x = d.reg x)
include hreg

theorem Dev.get_of_notAbsent {x : Nat} (hx : x ≠ R.SYS_ABSENT_CNT) (f : RField) : e.get x f = d.get x f := Dev.get_of_reg (hreg x hx) f

theorem Dev.pageOwner_of_notAbsent (p : Nat) : e.pageOwner p = d.pageOwner p :=
  Dev.get_of_notAbsent hreg (by simp only [R.PG_CTRL, pageBase, R.SYS_ABSENT_CNT]; omega) _

theorem Dev.devState_of_notAbsent : e.devState = d.devState := Dev.get_of_notAbsent hreg (by decide) _

theorem Dev.asS0_of_notAbsent (mid : Nat) (b : Block) : e.asS0 mid b = d.asS0 mid b := by
  simp only [Dev.asS0, Dev.flag, Dev.get_of_notAbsent hreg (show R.MBX_RIGHTS ≠ R.SYS_ABSENT_CNT by decide),
    Dev.devState_of_notAbsent hreg]

theorem Dev.ownOk_of_notAbsent {own : Own} (h : ∀ c p, own = .unit c p → c ≠ R.SYS_ABSENT_CNT) (mid : Nat) :
    e.ownOk mid own = d.ownOk mid own ∧ e.holds mid own = d.holds mid own := by
  cases own with
  | page p => simp only [Dev.ownOk, Dev.holds, Dev.pageOwner_of_notAbsent hreg, and_self]
  | unit c p =>
    simp only [Dev.ownOk, Dev.holds, Dev.pageOwner_of_notAbsent hreg, Dev.get_of_notAbsent hreg (h c p rfl), and_self]

theorem Dev.inputHolder_of_notAbsent (hm : e.member = d.member) (skip i : Nat) : e.inputHolder skip i = d.inputHolder skip i := by
  have hseq : ∀ l, e.seqEntries l = d.seqEntries l := fun l => by
    simp only [Dev.seqEntries, hreg (R.ADA_SEQ l) (by unfold R.ADA_SEQ R.SYS_ABSENT_CNT; omega)]
  simp only [Dev.inputHolder, hm, hseq]

theorem Dev.ownAt_of_notAbsent (hm : e.member = d.member) (b : Block) (i page off : Nat) : e.ownAt b i page off = d.ownAt b i page off := by
  simp only [Dev.ownAt, Dev.inputHolder_of_notAbsent hreg hm]

/-- Whether a field accepts a write rests on no register that a write to an absent unit changes. -/
theorem Dev.fieldOk_of_notAbsent (hm : e.member = d.member) (hk : e.keys = d.keys) (hn : e.now = d.now) (ha : e.rpl = d.rpl)
    (mid : Nat) (b : Block) (i page off : Nat) : e.fieldOk mid b i page off = d.fieldOk mid b i page off := by
  funext fd
  have hown : ∀ c p, d.ownAt b i page off = .unit c p → c ≠ R.SYS_ABSENT_CNT := fun c p h => by
    unfold Dev.ownAt at h
    split at h
    · split at h <;> cases h
      unfold R.ADA_LCLAIM R.SYS_ABSENT_CNT; omega
    · exact ownOf_claim_ne h
  obtain ⟨hok, hholds⟩ := Dev.ownOk_of_notAbsent hreg hown mid
  have hkey : e.keyOpenFor page mid = d.keyOpenFor page mid := by simp only [Dev.keyOpenFor, Dev.keyOpener, Dev.keyS, hk, hn]
  have hconf : e.inConfigure = d.inConfigure := by simp only [Dev.inConfigure, Dev.devState_of_notAbsent hreg, ha]
  simp only [Dev.fieldOk, Dev.ownAt_of_notAbsent hreg hm, Dev.asS0_of_notAbsent hreg, hok, hholds, hkey, hconf]

end

/-! ### A write of a plain register as a whole -/

/-- No register of the event system is an input of the engines. -/
theorem eventReg_of_engineInput {a : Nat} {b : Block} {i : Nat} (hp : pageInfo (pageOf a) = some (b, i)) (ho : 0x40 ≤ offOf a)
    (he : engineInput b (offOf a) = true) : eventReg a = false := by
  have hno : ∀ c : Nat, ∀ b' : Block, pageInfo (pageOf c) = some (b', 0) → engineInput b' (offOf c) = false → a ≠ c := by
    rintro c b' hc hin rfl
    rw [hp] at hc
    cases hc
    rw [hin] at he
    cases he
  rw [eventReg_eq_false]
  refine ⟨fun h => ?_, hno _ .evtB rfl rfl, hno _ .evtB rfl rfl, hno _ .pcieB rfl rfl, hno _ .recB rfl rfl, hno _ .recB rfl rfl,
    hno _ .recB rfl rfl, hno _ .mbxB rfl rfl⟩
  rw [offOf, h] at ho
  exact absurd ho (by decide)

section
variable {s : State} {a : Nat} {b : Block} {i : Nat}

/-- What a write of a plain register presupposes: its page and itself are there, and no other operation takes it. -/
structure PlainAt (d : Dev) (a : Nat) (b : Block) (i : Nat) : Prop where
  space : inRegs a = true
  info : pageInfo (pageOf a) = some (b, i)
  there : blockPresent d.member b i = true
  present : absentReg d.member b i (offOf a) = false
  beyond : 0x40 ≤ offOf a
  plain : plainReg b i (offOf a) = true

theorem PlainAt.not_ctx {d : Dev} (h : PlainAt d a b i) : b ≠ .ctxB := by
  rintro rfl
  exact Bool.false_ne_true h.plain

theorem State.regWrite_plain (h : PlainAt s.dev a b i) (mid : Nat) (w : Word) :
    s.regWrite mid a w = s.withDev (s.dev.devWrite mid b i (offOf a) a w) := by
  obtain ⟨-, hinfo, hthere, hpresent, hbeyond, hplain⟩ := h
  have hno : ∀ b' c, plainReg b' i c = false → ¬(b = b' ∧ offOf a = c) := by
    rintro b' c hf ⟨rfl, hc⟩
    rw [← hc, hplain] at hf
    cases hf
  simp only [State.regWrite, hinfo, hthere, hpresent, Bool.not_true, Bool.or_self, Bool.false_or, decide_eq_true_eq]
  rw [if_neg (by omega), if_neg (hno _ _ rfl), if_neg (hno _ _ rfl), if_neg (hno _ _ rfl), if_neg (hno _ _ rfl)]
  rfl

variable {d : Dev} (h : PlainAt d a b i) (hl : d.replaying = false)
include h hl

/-- A plain register is stored; the record of an engine's input is all that may come with it. -/
theorem Dev.devWrite_stores (mid : Nat) (w : Word) : Quiet (d.plainWrite mid a w) (d.devWrite mid b i (offOf a) a w) ∧
    (d.devWrite mid b i (offOf a) a w).reg a = (d.plainWrite mid a w).reg a := by
  rcases Dev.devWrite_plain h.plain d mid a w with heq | heq
  · rw [heq]; exact ⟨Quiet.refl _, rfl⟩
  · rw [heq, Dev.pWrite_live hl h.info]
    have hq := Dev.pWriteIn_quiet h.info h.there h.present h.beyond mid w
    rw [Dev.routeWrite_plain h.plain] at hq
    refine ⟨hq, ?_⟩
    cases hin : engineInput b (offOf a) with
    | true => exact hq.reg (eventReg_of_engineInput h.info h.beyond hin)
    | false => rw [Dev.pWriteIn_block h.info h.there h.present h.beyond hin, Dev.routeWrite_plain h.plain]

/-- A reserved offset takes nothing, and no record is written of it. -/
theorem Dev.devWrite_reserved (hn : regAt b (offOf a) = none) (mid : Nat) (w : Word) : d.devWrite mid b i (offOf a) a w = d := by
  obtain ⟨-, hinfo, hthere, hpresent, hbeyond, hplain⟩ := h
  have hb : ¬offOf a < 0x40 := by omega
  have hw : d.plainWrite mid a w = d := by simp [Dev.plainWrite, hinfo, hthere, hpresent, hb, hn]
  rcases Dev.devWrite_plain hplain d mid a w with heq | heq
  · rw [heq, hw]
  · have hnot : (engineInput b (offOf a) && d.inputTaken mid b i (pageOf a) (offOf a) a) = false := by
      have htaken : d.takenAt mid a = false := by simp [Dev.takenAt, hinfo, Dev.writeTaken, hn]
      cases b with
      | ctxB => cases hplain
      | trkB =>
        simp only [plainReg, Bool.and_eq_true, List.contains_cons, List.contains_nil, Bool.not_eq_true', Bool.or_eq_false_iff] at hplain
        simp [engineInput, hplain]
      | pwgB =>
        simp only [plainReg, Bool.and_eq_true, Bool.not_eq_true', Bool.and_eq_false_iff, bne_iff_ne, decide_eq_false_iff_not] at hplain
        simp only [engineInput, Dev.inputTaken, Bool.true_and]
        rw [if_neg hb, if_neg (by omega), if_neg (by omega), htaken]
      | tlsB | pwtB | pwaB => simp [Dev.inputTaken, hb, htaken]
      | _ => rfl
    have h8 : offOf a ≠ 8 := by omega
    rw [heq, Dev.pWrite_live hl hinfo]
    simp [Dev.pWriteIn, hinfo, hthere, hpresent, h8, hb, hnot, Dev.routeWrite_plain hplain, hw]

end

section
variable {d : Dev} {a : Nat} {b : Block} {i : Nat} {rd : RegDef} {x y : Nat}

/-- A plain write of a register: its bits of absent instances are counted, its fields take the others (R5, R25). -/
theorem Dev.plainWrite_reg (h : PlainAt d a b i) (hr : regAt b (offOf a) = some (rd, x, y)) (mid : Nat) (w : Word) :
    d.plainWrite mid a w = (if w &&& absentBits d.member b i (offOf a) = 0 then d else d.absentWrite mid (pageOf a)).writeFields mid b i
      (pageOf a) (offOf a) rd.flds (w &&& ~~~ absentBits d.member b i (offOf a)) := by
  obtain ⟨-, hinfo, hthere, hpresent, hbeyond, -⟩ := h
  have hb : ¬offOf a < 0x40 := by omega
  simp [Dev.plainWrite, hinfo, hthere, hpresent, hb, hr]

theorem and_not_of_and_eq_zero {w m : Word} (h : w &&& m = 0) : w &&& ~~~ m = w := by
  apply BitVec.eq_of_getLsbD_eq
  intro k hk
  have hbit : (w.getLsbD k && m.getLsbD k) = false := by rw [← BitVec.getLsbD_and, h]; exact BitVec.getLsbD_zero
  rw [BitVec.getLsbD_and, BitVec.getLsbD_not]
  cases hw : w.getLsbD k with
  | false => rfl
  | true => rw [hw, Bool.true_and] at hbit; rw [hbit]; simp only [hk, decide_true, Bool.not_false, Bool.and_self]

/-- A write that names nothing absent. -/
theorem Dev.devWrite_taken (h : PlainAt d a b i) (hl : d.replaying = false) (hr : regAt b (offOf a) = some (rd, x, y)) (mid : Nat)
    {w : Word} (hw : w &&& absentBits d.member b i (offOf a) = 0) :
    FieldsTaken d (d.devWrite mid b i (offOf a) a w) mid b i a rd.flds w [] ∧ (d.devWrite mid b i (offOf a) a w).sys.abs = d.sys.abs := by
  obtain ⟨hq, hreg⟩ := Dev.devWrite_stores h hl mid w
  rw [Dev.plainWrite_reg h hr, if_pos hw, and_not_of_and_eq_zero hw] at hq hreg
  refine ⟨Dev.writeFields_taken (fun _ _ => rfl) rfl rfl h.space h.beyond (by simp) (by simp) (regAt_apart h.not_ctx hr) hq hreg, ?_⟩
  rw [hq.sysAbs, Dev.writeFields, Dev.denyIf_sysAbs]
  rfl

end

/-! ### The statement about plain writes -/

section
variable {d : Dev} {mid : Nat} {b : Block} {i page off : Nat} {fd : FieldDef} (hc : chanMOnly b off fd.f = false)
include hc

theorem Dev.fieldOk_owner (hs : d.asS0 mid b = true ∧ d.ownOk mid (d.ownAt b i page off) = true)
    (ha : fd.acc = .rw ∨ fd.acc = .w1c ∨ (fd.acc = .rwc ∧ d.inConfigure = true)) : d.fieldOk mid b i page off fd = true := by
  rcases ha with ha | ha | ⟨ha, hconf⟩
  · simp [Dev.fieldOk, hc, ha, hs]
  · simp [Dev.fieldOk, hc, ha, hs]
  · simp [Dev.fieldOk, hc, ha, hs, hconf]

theorem Dev.fieldOk_rwm (ha : fd.acc = .rwm) : d.fieldOk mid b i page off fd = (mid == Mid.S1) := by simp [Dev.fieldOk, hc, ha]

theorem Dev.fieldOk_rwc_closed (ha : fd.acc = .rwc) (hconf : d.inConfigure = false) : d.fieldOk mid b i page off fd = false := by
  simp [Dev.fieldOk, hc, ha, hconf]

end

/-- What a taken field reads as, by its access type. -/
theorem FieldTaken.get_eq {d e : Dev} {ok : Bool} {a : Nat} {fd : FieldDef} {w : Word} (h : FieldTaken d e ok a fd w) (hok : ok = true)
    (ha : fd.acc = .rw ∨ fd.acc = .rwc ∨ fd.acc = .rwm) : e.get a fd.f = getF w fd.f := by
  have := h.2 hok
  rcases ha with ha | ha | ha
  · rw [ha] at this; exact this
  · rw [ha] at this; exact this
  · rw [ha] at this; exact this

/-- A write of PG_EVT_EN (R7, R26). -/
theorem Dev.pWriteIn_evtEn {d : Dev} {page : Nat} {b : Block} {i : Nat} (hp : pageInfo page = some (b, i))
    (hb : blockPresent d.member b i = true) (mid : Nat) (w : Word) :
    Quiet (if d.pageFieldOk mid b page then d.setReg (R.PG_EVT_EN page) (w &&& ~~~ absentSources d.member b)
      else d.putB (R.PG_STAT page) F.PG_STAT_WR_DENIED true) (d.pWriteIn mid (R.PG_EVT_EN page) w) := by
  have hpage : pageOf (R.PG_EVT_EN page) = page := pageOf_base (pageInfo_lt hp) (by decide)
  have hoff : offOf (R.PG_EVT_EN page) = 0x14 := offOf_base (by decide)
  have hq := Dev.pWriteIn_header (a := R.PG_EVT_EN page) (hpage.symm ▸ hp) hb (by rw [hoff]; decide) (by rw [hoff]; decide) mid w
  rw [hpage, hoff] at hq
  exact hq

theorem State.regWrite_header {s : State} (hl : s.dev.replaying = false) {page k : Nat} {b : Block} {i : Nat}
    (hp : pageInfo page = some (b, i)) (hk : k < 0x40) (mid : Nat) (w : Word) :
    s.regWrite mid (pageBase page + k) w = s.withDev (s.dev.pWriteIn mid (pageBase page + k) w) := by
  have hpage : pageOf (pageBase page + k) = page := pageOf_base (pageInfo_lt hp) (by omega)
  have hoff : offOf (pageBase page + k) = k := offOf_base (by omega)
  simp only [State.regWrite, hpage, hp, hoff, hk, decide_true, Bool.or_true, if_true]
  rw [← Dev.pWrite_live hl (b := b) (i := i) (hpage.symm ▸ hp)]
  rfl

theorem inRegs_header {page k : Nat} {x : Block × Nat} (hp : pageInfo page = some x) (hk : k < 0x40) : inRegs (pageBase page + k) = true := by
  have := pageInfo_lt hp
  rw [inRegs_iff, pageBase]
  omega

/-- Settles O7: every field takes its part by its access type, PG_EVT_EN is set or refused, and an access of another width is ignored. -/
theorem registerWrite : Obligations.RegisterWrite := by
  refine ⟨fun s mid a b i w hlive hr h4 hp hb ha ho hplain => ?_, fun s mid page b i w hlive hp hb => ?_, fun s mid a width w hr hw => ?_⟩
  · have hat : PlainAt s.dev a b i := ⟨hr, hp, hb, ha, ho, hplain⟩
    have hexec : exec (.registerWrite mid a 4 w) s = .next (s.withDev (s.dev.devWrite mid b i (offOf a) a w)) := by
      rw [exec_registerWrite_reg hlive.1 hr h4, State.regWrite_plain hat]
    refine ⟨fun hnone => ?_, fun rd x y hreg hzero => ⟨_, hexec, ?_⟩⟩
    · rw [hexec, Dev.devWrite_reserved hat hlive.2 hnone]
      rfl
    · obtain ⟨htaken, habs⟩ := Dev.devWrite_taken hat hlive.2 hreg mid hzero
      refine ⟨habs, htaken, fun fd hfd hchan => ?_⟩
      have hfield := htaken.2 fd hfd
      refine ⟨fun hs hacc => ?_, fun hs hacc => ?_, fun hacc => ?_, fun hacc hconf => ?_⟩
      · exact hfield.get_eq (Dev.fieldOk_owner hchan hs (by tauto)) (by tauto)
      · have hbits := hfield.2 (Dev.fieldOk_owner hchan hs (.inr (.inl hacc)))
        rw [hacc] at hbits
        exact hbits
      · rw [Dev.fieldOk_rwm hchan hacc] at hfield
        by_cases hm : mid = Mid.S1
        · rw [if_pos hm]; exact hfield.get_eq (beq_iff_eq.2 hm) (by tauto)
        · rw [if_neg hm]; exact hfield.1 (beq_eq_false_iff_ne.2 hm)
      · exact hfield.1 (Dev.fieldOk_rwc_closed hchan hacc hconf)
  · have hregs : inRegs (R.PG_EVT_EN page) = true := inRegs_header (k := 0x14) hp (by decide)
    have halign : R.PG_EVT_EN page % 4 = 0 := by simp only [R.PG_EVT_EN, pageBase]; omega
    refine ⟨_, ?_, Dev.pWriteIn_evtEn hp hb mid w⟩
    rw [exec_registerWrite_reg hlive.1 hregs halign]
    exact congrArg _ (State.regWrite_header (k := 0x14) hlive.2 hp (by decide) mid w)
  · change busWrite mid a width w s = _
    simp only [busWrite, inWins_of_inRegs hr, hr, Bool.false_eq_true, Bool.not_true, if_false]
    rw [onState, if_neg (show ¬(width = 4 ∧ a % 4 = 0) by omega)]
    exact congrArg _ (ite_self s)

/-! ### The statement about absent units -/

section
variable {s : State} {a : Nat} {b : Block} {i : Nat}

theorem State.regWrite_absent (hl : s.dev.replaying = false) (hp : pageInfo (pageOf a) = some (b, i))
    (h : blockPresent s.dev.member b i = false ∨ absentReg s.dev.member b i (offOf a) = true) (mid : Nat) (w : Word) :
    s.regWrite mid a w = s.withDev (s.dev.absentWrite mid (pageOf a)) := by
  have hgone : (!blockPresent s.dev.member b i || absentReg s.dev.member b i (offOf a)) = true := by
    rcases h with h | h <;> simp [h]
  simp only [State.regWrite, hp, hgone, Bool.true_or, if_true]
  refine congrArg s.withDev ((Dev.pWrite_live hl hp mid w).trans ?_)
  simp [Dev.pWriteIn, hp, hgone]

theorem Dev.regRead_absent {d : Dev} (hp : pageInfo (pageOf a) = some (b, i))
    (h : blockPresent d.member b i = false ∨ absentReg d.member b i (offOf a) = true) (mid : Nat) : d.regRead mid a = d.answer mid 0 := by
  have hgone : (!blockPresent d.member b i || absentReg d.member b i (offOf a)) = true := by
    rcases h with h | h <;> simp [h]
  simp only [Dev.regRead, Dev.view, hp, hgone, Bool.true_or, if_true]

/-- A write to an absent unit changes the count alone. -/
theorem Dev.absentWrite_frame (d : Dev) (mid page : Nat) :
    Frame { d with sys := { d.sys with abs := (d.absentWrite mid page).sys.abs } } (d.absentWrite mid page) [R.SYS_ABSENT_CNT] := by
  obtain ⟨hrest, -⟩ := d.absentWrite_rest mid page
  refine ⟨?_, fun x _ hx => d.reg_absentWrite_ne mid page (by simpa using hx), fun p k hp h => ?_⟩
  · exact (congrArg Dev.calm hrest : _)
  · rw [d.reg_absentWrite_ne mid page (by simpa using hp)]; exact h

end

/-- The count's register has no bits of absent instances. -/
theorem ne_absentCnt_of_absentBits {m : Member} {a : Nat} {b : Block} {i : Nat} (hp : pageInfo (pageOf a) = some (b, i)) {w : Word}
    (hw : w &&& absentBits m b i (offOf a) ≠ 0) : a ≠ R.SYS_ABSENT_CNT := by
  rintro rfl
  have hsys : pageInfo (pageOf R.SYS_ABSENT_CNT) = some (.sysB, 0) := rfl
  rw [hsys] at hp
  cases hp
  exact hw (BitVec.and_zero)

/-- A write that carries a non-zero value into bits of absent instances (R5, R12). -/
theorem Dev.devWrite_shared {d : Dev} {a : Nat} {b : Block} {i : Nat} {rd : RegDef} {x y : Nat} (h : PlainAt d a b i)
    (hl : d.replaying = false) (hr : regAt b (offOf a) = some (rd, x, y)) (mid : Nat) {w : Word}
    (hw : w &&& absentBits d.member b i (offOf a) ≠ 0) :
    FieldsTaken d (d.devWrite mid b i (offOf a) a w) mid b i a rd.flds (w &&& ~~~ absentBits d.member b i (offOf a)) [R.SYS_ABSENT_CNT] ∧
      AbsentCounted d (d.devWrite mid b i (offOf a) a w) mid (pageOf a) := by
  have hne := ne_absentCnt_of_absentBits h.info hw
  obtain ⟨hq, hreg⟩ := Dev.devWrite_stores h hl mid w
  rw [Dev.plainWrite_reg h hr, if_neg hw] at hq hreg
  obtain ⟨hrest, -⟩ := d.absentWrite_rest mid (pageOf a)
  have hregs : ∀ z, z ≠ R.SYS_ABSENT_CNT → (d.absentWrite mid (pageOf a)).reg z = d.reg z := fun z => d.reg_absentWrite_ne mid (pageOf a)
  have hok : (d.absentWrite mid (pageOf a)).fieldOk mid b i (pageOf a) (offOf a) = d.fieldOk mid b i (pageOf a) (offOf a) :=
    Dev.fieldOk_of_notAbsent hregs (congrArg Dev.member hrest : _) (congrArg Dev.keys hrest : _) (congrArg Dev.now hrest : _)
      (congrArg Dev.rpl hrest : _) mid b i _ _
  have hcount := d.absentWrite_counted mid _ (pageInfo_lt h.info)
  refine ⟨Dev.writeFields_taken (fun z hz => hregs z (by simpa using hz)) hrest hok h.space h.beyond (by simp; decide) (by simpa using hne)
    (regAt_apart h.not_ctx hr) hq hreg, ?_⟩
  have hcnt : (d.devWrite mid b i (offOf a) a w).reg R.SYS_ABSENT_CNT = (d.absentWrite mid (pageOf a)).reg R.SYS_ABSENT_CNT := by
    rw [hq.reg (by decide), Dev.writeFields, Dev.reg_denyIf, if_neg, Dev.reg_setReg_ne]
    · rw [pageBase_pageOf h.space]; exact hne.symm
    · rintro ⟨-, hx⟩
      simp only [R.SYS_ABSENT_CNT, R.PG_STAT, pageBase] at hx
      omega
  have habs : (d.devWrite mid b i (offOf a) a w).sys.abs = (d.absentWrite mid (pageOf a)).sys.abs := by
    rw [hq.sysAbs, Dev.writeFields, Dev.denyIf_sysAbs]; rfl
  obtain ⟨hn, hflag, hlast, hnote⟩ := hcount
  refine ⟨(Dev.get_of_reg hcnt _).trans hn, ?_, (Dev.get_of_reg hcnt _).trans hlast, habs.trans hnote⟩
  rw [Dev.flag, Dev.get_of_reg hcnt]
  exact hflag

/-- A write of 1 to ABSENT_WR is the clear of the count (R11). -/
theorem State.regWrite_absentClear {s : State} (hl : s.dev.replaying = false) {mid : Nat} {w : Word} (hw : bitOf w 31 = true)
    (ht : s.dev.takenAt mid R.SYS_ABSENT_CNT = true) : s.regWrite mid R.SYS_ABSENT_CNT w = s.withDev s.dev.absentClear := by
  have hp : pageInfo (pageOf R.SYS_ABSENT_CNT) = some (.sysB, 0) := rfl
  have hdev : s.regWrite mid R.SYS_ABSENT_CNT w = s.withDev (s.dev.pWrite mid R.SYS_ABSENT_CNT w) := rfl
  rw [hdev, Dev.pWrite_live hl hp, Dev.pWriteIn_block hp rfl rfl (by decide) rfl]
  simp only [Dev.routeWrite, Dev.sysPageWrite, hw, ht]
  rfl

theorem Dev.absentClear_frame (d : Dev) : Frame d d.absentClear [R.SYS_ABSENT_CNT] := by
  have h := FrameOn.refl noPart_part [R.SYS_ABSENT_CNT] d
  exact FrameOn.ite (fun _ => h.put noPart_part _ _ (by simp)) fun _ => h.setReg noPart_part _ (by simp)

/-- Settles O6: an absent unit's write is counted, a shared register's other bits are taken besides, and the clear keeps the cycle's own. -/
theorem absentUnits : Obligations.AbsentUnits := by
  intro s mid a hlive hr h4 d cnt
  refine ⟨fun hnone => ⟨fun w => ?_, ?_⟩, fun b i hp => ⟨fun hgone => ⟨fun w => ⟨_, ?_, Dev.absentWrite_frame _ _ _,
    Dev.absentWrite_counted _ _ _ (pageInfo_lt hp)⟩, ?_⟩, fun rd x y w hb ha ho hreg hplain hw => ⟨_, ?_, Dev.devWrite_shared
    ⟨hr, hp, hb, ha, ho, hplain⟩ hlive.2 hreg mid hw⟩⟩, ?_⟩
  · rw [exec_registerWrite_reg hlive.1 hr h4]
    simp only [State.regWrite, hnone]
  · rw [exec_lowWordRead_reg hlive.1 mid hr h4]
    simp only [Dev.regRead, hnone]
    rfl
  · rw [exec_registerWrite_reg hlive.1 hr h4, State.regWrite_absent hlive.2 hp hgone]
  · rw [exec_lowWordRead_reg hlive.1 mid hr h4, Dev.regRead_absent hp hgone]
  · rw [exec_registerWrite_reg hlive.1 hr h4, State.regWrite_plain ⟨hr, hp, hb, ha, ho, hplain⟩]
  · rintro w rfl hbit htaken
    refine ⟨_, by rw [exec_registerWrite_reg hlive.1 hr h4, State.regWrite_absentClear hlive.2 hbit htaken],
      Dev.absentClear_frame _, fun hcyc => ?_, fun hcyc => ?_⟩
    · rw [Dev.absentClear, if_neg hcyc, Dev.reg_setReg_self]
    · rw [Dev.absentClear, if_pos hcyc]
      refine ⟨?_, Dev.get_put_field _ _ _ _ _ _ (by decide), ?_⟩
      · rw [Dev.get_put_self _ _ _ _ (by decide)]
        exact Nat.mod_eq_of_lt (by simp only [fieldWidth, F.SYS_ABSENT_CNT_COUNT]; omega)
      · rw [Dev.flag, Dev.get_put_field _ _ _ _ _ _ (by decide)]; rfl

end Sys2Proof.Machine
end

section
/-! PROOFS. Claims of pages and units, key sequences and windows, clears of raw bits, ends of pulses (R27, R29, R476, R481, R514). -/

namespace Sys2Proof.Machine

/-! ### Claims of pages -/

theorem mid_lt_of_mayClaim {d : Dev} {mid : Nat} {b : Block} (h : d.mayClaim mid b = true) : mid < 0xF := by
  by_contra hn
  have hne : ∀ m, m < 0xF → mid ≠ m := by omega
  have hs1 : (mid == Mid.S1) = false := beq_eq_false_iff_ne.2 (hne _ (by decide))
  simp [Dev.mayClaim, Dev.asS0, hs1, hne Mid.S0 (by decide), hne Mid.PCIE (by decide), hne Mid.SPI (by decide), hne Mid.DEBUG (by decide)] at h

section
variable {d : Dev} {mid page : Nat} {b : Block} {i : Nat} (hp : pageInfo page = some (b, i)) (hmay : d.mayClaim mid b = true)
  (hconf : d.inConfigure = true)
include hp hmay hconf

theorem Dev.pageClaim_free (ho : d.pageOwner page = 0xF)
    (hu : ∀ c ∈ unitClaims d.member b i, d.get c F.CLAIM_OWNER = 0xF ∨ d.get c F.CLAIM_OWNER = mid) :
    d.pageClaim mid page mid = d.put (R.PG_CTRL page) F.PG_CTRL_OWNER_MID mid := by
  have hmid := mid_lt_of_mayClaim hmay
  have hunits : (unitClaims d.member b i).any (fun c => d.get c F.CLAIM_OWNER != 0xF && d.get c F.CLAIM_OWNER != mid) = false := by
    rw [List.any_eq_false]
    intro c hc
    rcases hu c hc with h | h <;> simp [h]
  simp [Dev.pageClaim, hp, hmay, hconf, ho, hunits, show mid ≠ 0xF by omega]

theorem Dev.pageClaim_release (ho : d.pageOwner page = mid) :
    d.pageClaim mid page 0xF = d.put (R.PG_CTRL page) F.PG_CTRL_OWNER_MID 0xF := by
  have hmid := mid_lt_of_mayClaim hmay
  simp [Dev.pageClaim, hp, hmay, hconf, ho, show (0xF : Nat) ≠ mid by omega]

omit hconf in
theorem Dev.pageClaim_held (hf : d.pageOwner page ≠ 0xF) (ho : d.pageOwner page ≠ mid) :
    d.pageClaim mid page mid = d.putB (R.PG_STAT page) F.PG_STAT_WR_DENIED true := by
  simp [Dev.pageClaim, hp, hmay, hf, ho, ho.symm, Dev.deny]

end

/-- Devices that differ in nothing but how their registers are listed. -/
def SameRegs (d e : Dev) : Prop := e = { d with regs := e.regs } ∧ ∀ a, e.reg a = d.reg a

section
variable {d e : Dev}

theorem SameRegs.quiet (h : SameRegs d e) : Quiet d e := Quiet.of_regs (by rw [h.1]; rfl) h.2
theorem SameRegs.get (h : SameRegs d e) (a : Nat) (f : RField) : e.get a f = d.get a f := Dev.get_of_reg (h.2 a) f

/-- A field written with what it holds. -/
theorem SameRegs.put (h : SameRegs d e) {a : Nat} {f : RField} {v : Nat} (hv : v = d.get a f) : SameRegs d (e.put a f v) := by
  refine ⟨?_, fun x => ?_⟩
  · rw [h.1]; rfl
  · rw [Dev.reg_put]
    split
    · next hx => rw [hx, h.2, hv]; exact setF_getF _ _
    · exact h.2 x

theorem SameRegs.member (h : SameRegs d e) : e.member = d.member := by rw [h.1]

theorem SameRegs.mayClaim (h : SameRegs d e) (mid : Nat) (b : Block) : e.mayClaim mid b = d.mayClaim mid b := by
  simp only [Dev.mayClaim, Dev.asS0, Dev.flag, Dev.devState, h.get]

theorem SameRegs.inConfigure (h : SameRegs d e) : e.inConfigure = d.inConfigure := by
  have hrpl : e.rpl = d.rpl := by rw [h.1]
  simp only [Dev.inConfigure, Dev.devState, h.get, hrpl]

end

/-- The word of PG_CTRL with another owner. -/
def Dev.ownerWord (d : Dev) (page v : Nat) : Word := setF (d.reg (R.PG_CTRL page)) F.PG_CTRL_OWNER_MID v

/-- A write of OWNER_MID alone is the claim alone (R26, R27). -/
theorem Dev.ctrlWrite_owner (d : Dev) (mid : Nat) (b : Block) (page : Nat) {v : Nat} (hv : v < 16) :
    ∃ e, SameRegs d e ∧ d.ctrlWrite mid b page (d.ownerWord page v) = e.pageClaim mid page v := by
  have hen : getF (d.ownerWord page v) F.PG_CTRL_EN = d.get (R.PG_CTRL page) F.PG_CTRL_EN := getF_setF_ne _ _ _ _ (by decide)
  have hfr : getF (d.ownerWord page v) F.PG_CTRL_FREEZE_ON_DEBUG = d.get (R.PG_CTRL page) F.PG_CTRL_FREEZE_ON_DEBUG :=
    getF_setF_ne _ _ _ _ (by decide)
  have how : getF (d.ownerWord page v) F.PG_CTRL_OWNER_MID = v :=
    (getF_setF_self _ _ _ (by decide)).trans (Nat.mod_eq_of_lt hv)
  have hself : SameRegs d d := ⟨rfl, fun _ => rfl⟩
  generalize d.ownerWord page v = w at hen hfr how ⊢
  by_cases hok : d.pageFieldOk mid b page = true
  · have h1 : SameRegs d (d.put (R.PG_CTRL page) F.PG_CTRL_EN (d.get (R.PG_CTRL page) F.PG_CTRL_EN)) := hself.put rfl
    by_cases hconf : d.inConfigure = true
    · refine ⟨_, h1.put (a := R.PG_CTRL page) (f := F.PG_CTRL_FREEZE_ON_DEBUG) rfl, ?_⟩
      rw [Dev.ctrlWrite]
      simp only [hen, hfr, how, hok, hconf, h1.inConfigure, bne_self_eq_false, Bool.and_false, Bool.or_false, Bool.and_self, Dev.denyIf,
        Bool.false_eq_true, if_false, if_true]
    · refine ⟨_, h1, ?_⟩
      rw [Dev.ctrlWrite]
      simp only [hen, hfr, how, hok, hconf, h1.inConfigure, bne_self_eq_false, Bool.and_false, Bool.or_false, Dev.denyIf,
        Bool.false_eq_true, if_false, if_true]
  · refine ⟨d, hself, ?_⟩
    rw [Dev.ctrlWrite]
    simp only [hen, hfr, how, hok, bne_self_eq_false, Bool.and_false, Bool.false_and, Bool.or_false, Dev.denyIf, Bool.false_eq_true,
      if_false]

theorem Dev.deny_pageEn (d : Dev) (q p : Nat) : (d.deny q).pageEn p = d.pageEn p := by
  simp only [Dev.pageEn, Dev.flag, Dev.deny, Dev.putB]
  rw [Dev.get_put_field _ _ _ _ _ _ (by decide)]

theorem Dev.putOwner_pageEn (d : Dev) (q x p : Nat) : (d.put (R.PG_CTRL q) F.PG_CTRL_OWNER_MID x).pageEn p = d.pageEn p := by
  simp only [Dev.pageEn, Dev.flag]
  rw [Dev.get_put_field _ _ _ _ _ _ (by decide)]

/-- A claim leaves EN. -/
theorem Dev.pageClaim_en (d : Dev) (mid page v p : Nat) : (d.pageClaim mid page v).pageEn p = d.pageEn p := by
  cases hp : pageInfo page with
  | none => simp only [Dev.pageClaim, hp]
  | some x =>
    simp only [Dev.pageClaim, hp]
    split
    · exact d.deny_pageEn _ _
    split
    · rfl
    split
    · exact d.deny_pageEn _ _
    split
    · exact d.putOwner_pageEn _ _ _
    split
    · exact d.deny_pageEn _ _
    · exact d.putOwner_pageEn _ _ _

theorem setF_b2n {w : Word} {f : RField} (h : fieldWidth f = 1) : setF w f (b2n (getF w f != 0)) = w := by
  have hlt := getF_lt w f
  rw [h] at hlt
  have : b2n (getF w f != 0) = getF w f := by
    rcases (by omega : getF w f = 0 ∨ getF w f = 1) with h0 | h1
    · rw [h0]; rfl
    · rw [h1]; rfl
  rw [this, setF_getF]

/-- A write of OWNER_MID alone, whatever the page's block. -/
theorem Dev.pgCtrlWrite_owner (d : Dev) (mid : Nat) (b : Block) (i page : Nat) {v : Nat} (hv : v < 16) :
    ∃ e, SameRegs d e ∧ d.pgCtrlWrite mid b i page (d.ownerWord page v) = e.pageClaim mid page v := by
  obtain ⟨e, he, hw⟩ := d.ctrlWrite_owner mid b page hv
  refine ⟨e, he, ?_⟩
  have hen : (getF (d.ownerWord page v) F.PG_CTRL_EN != 0) = d.pageEn page :=
    congrArg (· != 0) (getF_setF_ne _ _ _ _ (by decide) : getF (d.ownerWord page v) F.PG_CTRL_EN = d.get (R.PG_CTRL page) F.PG_CTRL_EN)
  have hsame : setF (d.ownerWord page v) F.PG_CTRL_EN (b2n (d.pageEn page)) = d.ownerWord page v := by
    rw [← hen]; exact setF_b2n (by decide)
  have hkeep : (e.pageClaim mid page v).pageEn page = d.pageEn page := by
    rw [Dev.pageClaim_en, Dev.pageEn, Dev.flag, he.get]; rfl
  have hpwm : d.pwmCtrlWrite mid b page (d.ownerWord page v) = e.pageClaim mid page v := by
    simp only [Dev.pwmCtrlWrite, hsame, hw, hen, bne_self_eq_false, Bool.and_false, Dev.denyIf, Bool.false_eq_true, if_false, BEq.rfl,
      Bool.or_true, if_true]
  cases b with
  | pwtB | pwaB => exact hpwm
  | _ => exact (if_pos (by rw [hw]; exact hkeep)).trans hw

/-- A claim or release of a page by its own command. -/
theorem Dev.pageOwnerWrite_quiet {d : Dev} (hl : d.replaying = false) {page : Nat} {b : Block} {i : Nat}
    (hp : pageInfo page = some (b, i)) (hb : blockPresent d.member b i = true) (mid : Nat) {v : Nat} (hv : v < 16) :
    ∃ e, SameRegs d e ∧ Quiet (e.pageClaim mid page v) (d.pageOwnerWrite mid page v) := by
  have hpage : pageOf (R.PG_CTRL page) = page := pageOf_base (pageInfo_lt hp) (by decide)
  have hoff : offOf (R.PG_CTRL page) = 8 := offOf_base (by decide)
  obtain ⟨e, he, hw⟩ := d.pgCtrlWrite_owner mid b i page hv
  refine ⟨e, he, ?_⟩
  rw [Dev.pageOwnerWrite, Dev.pWrite_live hl (hpage.symm ▸ hp), ← hw]
  have hq := Dev.pWriteIn_ctrl (a := R.PG_CTRL page) (hpage.symm ▸ hp) hb hoff mid (d.ownerWord page v)
  rwa [hpage] at hq

/-! ### Claims of units -/

section
variable {d : Dev} {a : Nat} {b : Block} {i : Nat}

theorem not_engineInput_of_claimReg {off : Nat} (h : claimReg b off = true) : engineInput b off = false := by
  cases b with
  | trkB => simp [claimReg] at h; simp [engineInput]; omega
  | _ => simp [claimReg] at h <;> rfl

theorem le_of_claimReg {off : Nat} (h : claimReg b off = true) : 0x40 ≤ off := by
  cases b with
  | _ => simp [claimReg] at h <;> omega

/-- A write of OWNER in a pin's word leaves SRC, and is the claim alone. -/
theorem Dev.pinWrite_owner (d : Dev) (mid a v : Nat) :
    d.pinWrite mid a (setF (d.reg a) F.CLAIM_OWNER v) = d.unitClaim mid a (getF (setF (d.reg a) F.CLAIM_OWNER v) F.CLAIM_OWNER) := by
  have hsrc : getF (setF (d.reg a) F.CLAIM_OWNER v) F.SYS_PINOWN_SRC = d.get a F.SYS_PINOWN_SRC := getF_setF_ne _ _ _ _ (by decide)
  rw [Dev.pinWrite, if_pos hsrc]

theorem Dev.routeWrite_claim (h : claimReg b (offOf a) = true) (mid i v : Nat) :
    d.routeWrite mid b i (offOf a) a (setF (d.reg a) F.CLAIM_OWNER v)
      = d.unitClaim mid a (getF (setF (d.reg a) F.CLAIM_OWNER v) F.CLAIM_OWNER) := by
  have hpin := d.pinWrite_owner mid a v
  generalize setF (d.reg a) F.CLAIM_OWNER v = w at hpin ⊢
  generalize offOf a = off at h ⊢
  cases b with
  | sysB =>
    simp [claimReg] at h
    simp only [Dev.routeWrite, Dev.sysPageWrite]
    rw [if_pos h, hpin]
  | tlB =>
    simp [claimReg] at h
    simp only [Dev.routeWrite, Dev.tlPageWrite]
    rw [if_neg (by omega), if_neg (by omega), if_neg (by omega), if_neg (by omega), if_pos h]
  | trkB =>
    simp [claimReg] at h
    simp only [Dev.routeWrite, Dev.trkPageWrite]
    rw [if_neg (by simp only [nTracks]; omega), if_neg (by omega), if_neg (by omega), if_neg (by omega), if_pos (by omega)]
  | adaB =>
    simp [claimReg] at h
    simp only [Dev.routeWrite, Dev.adaPageWrite]
    rw [if_pos (by omega), if_neg (by omega), if_pos (by omega)]
  | accB =>
    simp [claimReg] at h
    simp only [Dev.routeWrite, Dev.accPageWrite]
    rw [if_pos (by omega)]
  | mmxB =>
    simp [claimReg] at h
    simp only [Dev.routeWrite, Dev.mmxPageWrite]
    rw [if_neg (by omega), if_neg (by omega), if_neg (by omega), if_neg (by omega), if_pos (by omega)]
  | cmpB =>
    simp [claimReg] at h
    simp only [Dev.routeWrite, Dev.cmpPageWrite]
    rw [if_neg (by omega), if_neg (by omega), if_pos (by omega)]
  | excB =>
    simp [claimReg] at h
    simp only [Dev.routeWrite, Dev.excPageWrite]
    rw [if_neg (by omega), if_pos (by omega)]
  | emuB =>
    simp [claimReg] at h
    simp only [Dev.routeWrite, Dev.emuPageWrite]
    rw [if_neg (by omega), if_neg (by omega), if_neg (by omega), if_pos (by omega)]
  | lecB =>
    simp [claimReg] at h
    simp only [Dev.routeWrite, Dev.lecPageWrite]
    rw [if_neg (by omega), if_pos (by omega)]
  | _ => simp [claimReg] at h

/-- A claim or release of a unit by its own command. -/
theorem Dev.ownerWrite_eq (hl : d.replaying = false) (hr : inRegs a = true) (h4 : a % 4 = 0) (hp : pageInfo (pageOf a) = some (b, i))
    (hc : claimReg b (offOf a) = true) (hb : blockPresent d.member b i = true) (ha : absentReg d.member b i (offOf a) = false)
    (mid : Nat) {v : Nat} (hv : v < 16) : d.ownerWrite mid a v = d.unitClaim mid a v := by
  have how : getF (setF (d.reg a) F.CLAIM_OWNER v) F.CLAIM_OWNER = v :=
    (getF_setF_self _ _ _ (by decide)).trans (Nat.mod_eq_of_lt hv)
  simp only [Dev.ownerWrite, hp, hc, hr, h4, BEq.rfl, Bool.and_self, if_true]
  rw [Dev.pWrite_live hl hp, Dev.pWriteIn_block hp hb ha (le_of_claimReg hc) (not_engineInput_of_claimReg hc), Dev.routeWrite_claim hc, how]

end

section
variable {d : Dev} {mid a : Nat} {b : Block} {i : Nat} (hp : pageInfo (pageOf a) = some (b, i)) (hmay : d.mayClaim mid b = true)
  (hconf : d.inConfigure = true)
include hp hmay hconf

theorem Dev.unitClaim_free (ho : d.get a F.CLAIM_OWNER = 0xF)
    (hpo : d.pageOwner (claimPage b (pageOf a) (offOf a)) = 0xF ∨ d.pageOwner (claimPage b (pageOf a) (offOf a)) = mid) :
    d.unitClaim mid a mid = (d.put a F.CLAIM_OWNER mid).put a F.CLAIM_RESULT 1 := by
  have hmid := mid_lt_of_mayClaim hmay
  have hpage : (d.pageOwner (claimPage b (pageOf a) (offOf a)) != 0xF && d.pageOwner (claimPage b (pageOf a) (offOf a)) != mid) = false := by
    rcases hpo with h | h <;> simp [h]
  simp [Dev.unitClaim, hp, hmay, hconf, ho, hpage, show mid ≠ 0xF by omega]

theorem Dev.unitClaim_held (hf : d.get a F.CLAIM_OWNER ≠ 0xF) (ho : d.get a F.CLAIM_OWNER ≠ mid) :
    d.unitClaim mid a mid = d.put a F.CLAIM_RESULT 2 := by
  simp [Dev.unitClaim, hp, hmay, hconf, hf, ho, ho.symm]

theorem Dev.unitClaim_release (ho : d.get a F.CLAIM_OWNER = mid) :
    d.unitClaim mid a 0xF = (d.put a F.CLAIM_OWNER 0xF).put a F.CLAIM_RESULT 0 := by
  have hmid := mid_lt_of_mayClaim hmay
  simp [Dev.unitClaim, hp, hmay, hconf, ho, show (0xF : Nat) ≠ mid by omega]

end

/-- Header registers but the raw bits are no registers of the event system. -/
theorem eventReg_header {page k : Nat} (hk : k < 0x40) (h : k ≠ 0x10) : eventReg (pageBase page + k) = false := by
  rw [eventReg_eq_false]
  simp only [pageBase]
  omega

theorem eventReg_ctrl (page : Nat) : eventReg (R.PG_CTRL page) = false := eventReg_header (k := 8) (by decide) (by decide)
theorem eventReg_stat (page : Nat) : eventReg (R.PG_STAT page) = false := eventReg_header (k := 0xC) (by decide) (by decide)

/-- Settles O8, by the claim that each write of OWNER is. -/
theorem claims : Obligations.Claims := by
  refine ⟨fun s mid page b i hlive hp hb hconf hmay => ?_, fun s mid a b i hlive hr h4 hp hc hb ha hconf hmay => ?_⟩
  · have hmid := mid_lt_of_mayClaim hmay
    obtain ⟨e, he, hclaim⟩ := Dev.pageOwnerWrite_quiet hlive.2 hp hb mid (v := mid) (by omega)
    obtain ⟨f, hf, hrelease⟩ := Dev.pageOwnerWrite_quiet hlive.2 hp hb mid (v := 0xF) (by decide)
    refine ⟨fun ho hu => DevNext.onDev hlive.1 ?_, fun ho => DevNext.onDev hlive.1 ?_, fun hfree ho => DevNext.onDev hlive.1 ?_⟩
    · rw [Dev.pageClaim_free hp ((he.mayClaim _ _).trans hmay) (he.inConfigure.trans hconf) ((he.get _ _).trans ho)
        (by simpa only [he.member, he.get] using hu)] at hclaim
      exact (he.quiet.congr_put (eventReg_ctrl page) _ _).trans hclaim
    · rw [Dev.pageClaim_release hp ((hf.mayClaim _ _).trans hmay) (hf.inConfigure.trans hconf) ((hf.get _ _).trans ho)] at hrelease
      exact (hf.quiet.congr_put (eventReg_ctrl page) _ _).trans hrelease
    · rw [Dev.pageClaim_held hp ((he.mayClaim _ _).trans hmay) (fun h => hfree ((he.get _ _).symm.trans h))
        (fun h => ho ((he.get _ _).symm.trans h))] at hclaim
      exact (he.quiet.congr_putB (eventReg_stat page) _ _).trans hclaim
  · have hmid := mid_lt_of_mayClaim hmay
    have hclaim := Dev.ownerWrite_eq hlive.2 hr h4 hp hc hb ha mid (v := mid) (by omega)
    have hrelease := Dev.ownerWrite_eq hlive.2 hr h4 hp hc hb ha mid (v := 0xF) (by decide)
    refine ⟨fun ho hpo => ?_, fun hf ho => ?_, fun ho => ?_⟩
    · refine onDev_eq hlive.1 (hclaim.trans ?_)
      exact Dev.unitClaim_free hp hmay hconf ho hpo
    · refine onDev_eq hlive.1 (hclaim.trans ?_)
      exact Dev.unitClaim_held hp hmay hconf hf ho
    · refine onDev_eq hlive.1 (hrelease.trans ?_)
      exact Dev.unitClaim_release hp hmay hconf ho

/-! ### Keys -/

section
variable {d : Dev} {mid page : Nat}

/-- A word written to PG_LOCK by a master with the right. -/
theorem Dev.keyWordWrite_quiet (hl : d.replaying = false) {b : Block} {i : Nat} (hp : pageInfo page = some (b, i))
    (hb : blockPresent d.member b i = true) (hk : d.mayKey mid b = true) (w : Word) :
    Quiet (d.keyWrite mid page w) (d.keyWordWrite mid page w) := by
  have hpage : pageOf (R.PG_LOCK page) = page := pageOf_base (pageInfo_lt hp) (by decide)
  have hoff : offOf (R.PG_LOCK page) = 0x20 := offOf_base (by decide)
  rw [Dev.keyWordWrite, Dev.pWrite_live hl (hpage.symm ▸ hp)]
  have hq := Dev.pWriteIn_header (a := R.PG_LOCK page) (hpage.symm ▸ hp) hb (by rw [hoff]; decide) (by rw [hoff]; decide) mid w
  rw [hpage, hoff] at hq
  have hhead : d.headerWrite mid b page 0x20 w = d.keyWrite mid page w := by simp [Dev.headerWrite, hk]
  rwa [hhead] at hq

theorem Dev.keyWrite_first (w : Word) (hw : w = 0x5EED) (hpend : d.keyPend page = none) (hopen : d.keyOpener page = none) :
    d.keyWrite mid page w = d.setKey page { d.keyS page with pend := some (mid, d.now) } := by
  subst hw
  simp [Dev.keyWrite, Dev.keyFirst, hpend, hopen, Dev.keyBegin]

theorem Dev.keyWrite_second (w : Word) (hw : w = 0xC10D) (hpend : d.keyPend page = some mid) :
    d.keyWrite mid page w = (d.setKey page { pend := none, win := some (mid, d.now) }).putB (R.PG_LOCK page) F.PG_LOCK_KEY_ERR false := by
  subst hw
  simp [Dev.keyWrite, Dev.keySecond, hpend, Dev.keyErr]

theorem Dev.keyWrite_close (hpend : d.keyPend page = none) (hopen : d.keyOpener page = some mid) :
    d.keyWrite mid page 0 = d.setKey page { d.keyS page with win := none } := by
  simp [Dev.keyWrite, Dev.keyClose, hpend, hopen]

/-- What a page's sequence is, said of its record. -/
theorem Dev.keyPend_of {e : Dev} {m t : Nat} (h : (e.keyS page).pend = some (m, t)) (ht : e.now ≤ t + 128) : e.keyPend page = some m := by
  simp only [Dev.keyPend, h]
  exact if_pos ht

theorem Dev.keyPend_none {e : Dev} (h : (e.keyS page).pend = none) : e.keyPend page = none := by
  simp only [Dev.keyPend, h]

theorem Dev.keyOpener_of {e : Dev} {m t : Nat} (h : (e.keyS page).win = some (m, t)) (ht : e.now < t + 131072) :
    e.keyOpener page = some m := by
  simp only [Dev.keyOpener, h]
  exact if_pos ht

theorem Dev.keyOpener_none {e : Dev} (h : (e.keyS page).win = none) : e.keyOpener page = none := by
  simp only [Dev.keyOpener, h]

theorem Dev.keySequenceExpiry_lapsed {m t : Nat} (h : (d.keyS page).pend = some (m, t)) (ht : t + 128 < d.now) :
    d.keySequenceExpiry page = d.setKey page { d.keyS page with pend := none } := by
  have hnone : d.keyPend page = none := by
    simp only [Dev.keyPend, h]
    exact if_neg (by simp only [keySeqTicks]; omega)
  rw [Dev.keySequenceExpiry, hnone]
  rfl

theorem Dev.keyWindowExpiry_lapsed {m t : Nat} (h : (d.keyS page).win = some (m, t)) (ht : t + 131072 ≤ d.now) :
    d.keyWindowExpiry page = d.setKey page { d.keyS page with win := none } := by
  have hnone : d.keyOpener page = none := by
    simp only [Dev.keyOpener, h]
    exact if_neg (by simp only [keyWinTicks]; omega)
  rw [Dev.keyWindowExpiry, hnone]
  rfl

end

/-! ### Clears of raw bits, ends of pulses -/

/-- A clear by a master that may clear every bit it names, none of them raised in the same bus cycle (R476). -/
theorem Dev.evtClr_all {d : Dev} {mid page : Nat} {b : Block} {w : Word} (hw : w &&& ~~~ d.evtClrMask mid b page = 0)
    (hcyc : ∀ r ∈ d.evt.cyc, r.page = page → r.tick / 2 ≠ d.now / 2) : d.evtClr mid b page w = d.clrReg (R.PG_EVT_RAW page) w := by
  have hnone : d.evt.cyc.filter (fun r => r.page == page && r.tick / 2 == d.now / 2) = [] := by
    rw [List.filter_eq_nil_iff]
    intro r hr
    simp only [Bool.and_eq_true, beq_iff_eq, not_and]
    exact hcyc r hr
  have hmay : w &&& d.evtClrMask mid b page = w := by
    have := and_not_of_and_eq_zero hw
    rwa [BitVec.not_not] at this
  have hkept : w &&& ~~~(0 : Word) = w := BitVec.and_allOnes
  simp only [Dev.evtClr, hnone, List.foldl_nil, hmay, hw, hkept, bne_self_eq_false, Dev.denyIf, Bool.false_eq_true, if_false]

theorem Dev.pWrite_evtClr {d : Dev} (hl : d.replaying = false) {page : Nat} {b : Block} {i : Nat} (hp : pageInfo page = some (b, i))
    (hb : blockPresent d.member b i = true) (he : engineInput b 0x18 = false) (mid : Nat) (w : Word) :
    d.pWrite mid (R.PG_EVT_CLR page) w = d.evtClr mid b page w := by
  have hpage : pageOf (R.PG_EVT_CLR page) = page := pageOf_base (pageInfo_lt hp) (by decide)
  have hoff : offOf (R.PG_EVT_CLR page) = 0x18 := offOf_base (by decide)
  rw [Dev.pWrite_live hl (hpage.symm ▸ hp)]
  simp [Dev.pWriteIn, hpage, hp, hoff, hb, absentReg_header, he, Dev.headerWrite]

/-- Settles O9, by what each key word does, and by the mask of the bits that a clear keeps. -/
theorem keysAndEventClears : Obligations.KeysAndEventClears := by
  refine ⟨⟨fun s mid page b i hlive hp hb hk => ?_, fun s page m t hup => ⟨fun h ht => ?_, fun h ht => ?_⟩⟩,
    fun s mid page b i w hlive hp hb hw hcyc he => ?_, fun s pin hup hr hs => ?_⟩
  · have hword := fun w => Dev.keyWordWrite_quiet hlive.2 hp hb hk w
    refine ⟨fun hpend hopen => DevNext.onDev hlive.1 ?_, fun hpend => DevNext.onDev hlive.1 ?_, fun hpend hopen => DevNext.onDev hlive.1 ?_⟩
    · have hq := hword 0x5EED
      rw [Dev.keyWrite_first _ rfl hpend hopen] at hq
      refine ⟨hq, Dev.keyPend_of (t := s.dev.now) ?_ ?_⟩
      · rw [hq.keyS, Dev.keyS_setKey_self]
      · rw [hq.now]; exact Nat.le_add_right _ _
    · have hq := hword 0xC10D
      rw [Dev.keyWrite_second _ rfl hpend] at hq
      have hkey : (s.dev.keyWordWrite mid page 0xC10D).keyS page = { pend := none, win := some (mid, s.dev.now) } := by
        rw [hq.keyS, Dev.putB, Dev.keyS_put, Dev.keyS_setKey_self]
      refine ⟨hq, Dev.keyOpener_of (t := s.dev.now) (by rw [hkey]) ?_, Dev.keyPend_none (by rw [hkey])⟩
      rw [hq.now]; exact Nat.lt_add_of_pos_right (by decide)
    · have hq := hword 0
      rw [Dev.keyWrite_close hpend hopen] at hq
      refine ⟨hq, Dev.keyOpener_none ?_⟩
      rw [hq.keyS, Dev.keyS_setKey_self]
  · exact onDev_eq hup ((Dev.keySequenceExpiry_lapsed h ht))
  · exact onDev_eq hup ((Dev.keyWindowExpiry_lapsed h ht))
  · exact onDev_eq hlive.1 (((Dev.pWrite_evtClr hlive.2 hp hb he mid w).trans (Dev.evtClr_all hw hcyc)))
  · refine onDev_eq hup ?_
    simp only [Dev.pulseEnd, if_pos hr, if_pos hs]

end Sys2Proof.Machine
end

section
/-! PROOFS. Reads that latch their companions for the reader (R21, R22, R69, R127, R132, R186, R212, R387, R407). -/

namespace Sys2Proof.Machine

/-! ### Runs over the numbers below a bound -/

theorem forN_keeps {σ : Type} {P : σ → Prop} {f : Nat → σ → σ} (n : Nat) (h : ∀ i < n, ∀ s, P s → P (f i s)) {s : σ} (hs : P s) :
    P (forN n f s) := by
  unfold forN
  refine List.foldlRecOn _ _ hs fun t ht i hi => h i (List.mem_range.1 hi) t ht

theorem forN_succ {σ : Type} (n : Nat) (f : Nat → σ → σ) (s : σ) : forN (n + 1) f s = f n (forN n f s) := by
  rw [forN, List.range_succ, List.foldl_append]; rfl

/-! ### Latching registers as they stand -/

/-- Registers latched for a reader, each as it stands. -/
def Dev.latchRegs (d : Dev) (mid : Nat) (l : List Nat) : Dev := l.foldl (fun e a => e.latchW mid a (e.reg a)) d

theorem latchKey_inj {mid a b : Nat} (h : latchKey mid a = latchKey mid b) : a = b := by
  simp only [latchKey] at h; omega

theorem Dev.latched_latchW_ne (d : Dev) (mid : Nat) {a b : Nat} (w : Word) (h : b ≠ a) :
    (d.latchW mid a w).latched mid b = d.latched mid b := by
  simp only [Dev.latched, Dev.latchW]
  exact spGet_spPut_ne _ _ fun hk => h (latchKey_inj hk)

theorem Dev.latched_answer (d : Dev) (mid m a : Nat) (w : Word) : (d.answer m w).latched mid a = d.latched mid a := rfl

theorem OnlyRead.latchW {d e : Dev} (h : OnlyRead d e) (mid a : Nat) (w : Word) : OnlyRead d (e.latchW mid a w) := by
  rw [OnlyRead] at h ⊢
  rw [h]; rfl

theorem OnlyRead.answer {d e : Dev} (h : OnlyRead d e) (mid : Nat) (w : Word) : OnlyRead d (e.answer mid w) := by
  rw [OnlyRead] at h ⊢
  rw [h]; rfl

theorem OnlyRead.reg {d e : Dev} (h : OnlyRead d e) (a : Nat) : e.reg a = d.reg a := by rw [h]; rfl

theorem OnlyRead.refl (d : Dev) : OnlyRead d d := rfl

section
variable {d e : Dev} {mid : Nat} {l : List Nat}

theorem Dev.latchRegs_onlyRead (h : OnlyRead d e) (mid : Nat) (l : List Nat) : OnlyRead d (e.latchRegs mid l) := by
  induction l generalizing e with
  | nil => exact h
  | cons a l ih => exact ih (h.latchW mid a _)

/-- A register that is latched as it stands stays so while others are. -/
theorem Dev.latchRegs_keeps {a : Nat} (h : OnlyRead d e) (ha : e.latched mid a = some (d.reg a)) :
    (e.latchRegs mid l).latched mid a = some (d.reg a) := by
  induction l generalizing e with
  | nil => exact ha
  | cons b l ih =>
    refine ih (h.latchW mid b _) ?_
    by_cases hab : a = b
    · rw [hab, latched_latchW, h.reg]
    · rw [e.latched_latchW_ne mid _ hab, ha]

theorem Dev.latchRegs_latched {a : Nat} (h : OnlyRead d e) (ha : a ∈ l) : (e.latchRegs mid l).latched mid a = some (d.reg a) := by
  induction l generalizing e with
  | nil => cases ha
  | cons b l ih =>
    rcases List.mem_cons.1 ha with hab | hl
    · refine Dev.latchRegs_keeps (l := l) (h.latchW mid b _) ?_
      rw [hab, latched_latchW, h.reg]
    · exact ih (h.latchW mid b _) hl

theorem Dev.latchRegs_append (d : Dev) (mid : Nat) (l m : List Nat) : (d.latchRegs mid l).latchRegs mid m = d.latchRegs mid (l ++ m) :=
  (List.foldl_append ..).symm

theorem Dev.forN_latchRegs (d : Dev) (mid n : Nat) (f : Nat → Nat) :
    forN n (fun k e => e.latchW mid (f k) (e.reg (f k))) d = d.latchRegs mid ((List.range n).map f) := by
  rw [forN, Dev.latchRegs, List.foldl_map]

/-- What a read leaves that latches registers and answers one. -/
theorem Dev.latchRegs_answer (d : Dev) (mid : Nat) (l : List Nat) (w : Word) :
    OnlyRead d ((d.latchRegs mid l).answer mid w) ∧ ((d.latchRegs mid l).answer mid w).answered mid = w ∧
      ∀ a ∈ l, ((d.latchRegs mid l).answer mid w).latched mid a = some (d.reg a) :=
  ⟨(Dev.latchRegs_onlyRead (.refl d) mid l).answer mid w, Dev.answered_answer _ _ _, fun _ ha => Dev.latchRegs_latched (.refl d) ha⟩

end

/-! ### The reads of the blocks -/

section
variable (d : Dev) (mid : Nat)

theorem Dev.accRes0Read_eq (a : Nat) :
    d.accRes0Read mid a = (d.latchRegs mid [R.ACC_RES1 a, R.ACC_CNT a, R.ACC_STAT a]).answer mid (d.reg (R.ACC_RES0 a)) := rfl

theorem Dev.mmxMinRead_eq (t : Nat) :
    d.mmxMinRead mid t = (d.latchRegs mid [R.MMX_MAX t, R.MMX_STAT t]).answer mid (d.reg (R.MMX_MIN t)) := rfl

theorem Dev.posAngRead_eq (n : Nat) :
    d.posAngRead mid n false = (d.latchRegs mid [R.POS_SPD n, R.POS_STAT n, R.POS_TURNS n]).answer mid (d.reg (R.POS_ANG n)) := rfl

theorem Dev.shdAngRead_eq (n : Nat) :
    d.posAngRead mid n true = (d.latchRegs mid [R.SHD_SPD n, R.SHD_STAT n]).answer mid (d.reg (R.SHD_ANG n)) := rfl

theorem Dev.evtLastRead_eq : d.evtLastRead mid = (d.latchRegs mid [R.EVT_LAST_T]).answer mid (d.reg R.EVT_LAST) := rfl

theorem Dev.tmTqRead_eq {m : Nat} (h : m < 20) : d.tmTqRead mid m =
    (d.latchRegs mid [R.TM_DEM m, R.TM_SPD m, R.TM_ANG m, R.TM_STAT m, R.TM_CNT m]).answer mid (d.reg (R.TM_TQ m)) := by
  have hwords : [R.TM_DEM m, R.TM_SPD m, R.TM_ANG m, R.TM_STAT m, R.TM_CNT m] = (List.range' 1 5).map fun k => R.TM_TQ m + 4 * k := by
    simp only [R.TM_DEM, R.TM_SPD, R.TM_ANG, R.TM_STAT, R.TM_CNT, R.TM_TQ, List.range', List.map, List.cons.injEq, and_true]
    omega
  rw [Dev.tmTqRead, if_pos h, hwords]
  rfl

theorem Dev.sfxFrameRead_eq {n : Nat} (h : n < 16) :
    d.sfxFrameRead mid n = (d.latchRegs mid ((List.range 16).map (R.SFX_FRAME n))).answer mid (d.reg (R.SFX_FRAME n 0)) := by
  rw [Dev.sfxFrameRead, if_pos h, Dev.forN_latchRegs]

/-- The words that a read of CTX_OUT0 latches (R212). -/
def out0Latches (c : Nat) : List Nat :=
  (List.range 11).map (fun j => R.CTX_OUT c (j + 1)) ++ (List.range 6).map (R.CTX_OMAP c) ++ [R.CTX_SAT c, R.CTX_RUNS c, R.CTX_LAST c]

theorem mem_out0Latches {c a : Nat} (h : ctxLatched c a = true) : a ∈ out0Latches c := by
  simp only [ctxLatched, Bool.or_eq_true, List.any_eq_true, List.mem_range, beq_iff_eq] at h
  simp only [out0Latches, List.mem_append, List.mem_map, List.mem_range, List.mem_cons, List.not_mem_nil, or_false]
  rcases h with (((⟨j, hj, rfl⟩ | ⟨j, hj, rfl⟩) | h) | h) | h
  · exact .inl (.inl ⟨j, hj, rfl⟩)
  · exact .inl (.inr ⟨j, hj, rfl⟩)
  · exact .inr (.inl h)
  · exact .inr (.inr (.inl h))
  · exact .inr (.inr (.inr h))

theorem Dev.ctxOut0Read_eq (c : Nat) : d.ctxOut0Read mid c = (d.latchRegs mid (out0Latches c)).answer mid (d.reg (R.CTX_OUT c 0)) := by
  have hread := Dev.latchRegs_onlyRead (.refl d) mid ((List.range 11).map (fun j => R.CTX_OUT c (j + 1)) ++ (List.range 6).map (R.CTX_OMAP c))
  rw [out0Latches, ← Dev.latchRegs_append, Dev.ctxOut0Read, Dev.forN_latchRegs, Dev.forN_latchRegs, ← hread.reg]
  simp only [Dev.latchRegs_append]
  rfl

end

/-- A read of TRK_ANG answers the angle and latches speed and status (R69). -/
theorem Dev.trkAngRead_spec (d : Dev) (mid k : Nat) :
    OnlyRead d (d.trkAngRead mid k) ∧ (d.trkAngRead mid k).answered mid = d.trkAngWord k ∧
      (d.trkAngRead mid k).latched mid (R.TRK_SPD k) = some (wordOfInt (d.trkS k).spd) ∧
      (d.trkAngRead mid k).latched mid (R.TRK_STAT k) = some (d.trkStatWord k) := by
  have hspd : OnlyRead d (d.latchW mid (R.TRK_SPD k) (wordOfInt (d.trkS k).spd)) := (OnlyRead.refl d).latchW mid _ _
  have hne : R.TRK_SPD k ≠ R.TRK_STAT k := by simp only [R.TRK_SPD, R.TRK_STAT]; omega
  rw [Dev.trkAngRead]
  refine ⟨(hspd.latchW mid _ _).answer mid _, Dev.answered_answer _ _ _, ?_, ?_⟩
  · rw [Dev.latched_answer, Dev.latched_latchW_ne _ mid _ hne, Dev.latched_latchW]
  · rw [Dev.latched_answer]
    exact Dev.latched_latchW ..

theorem Dev.ctxFix_hard {d : Dev} {c w : Nat} (h : w ∉ (d.ctxS c).soft) : d.ctxFix c w = d := by
  simp [Dev.ctxFix, h]

/-- A read of CTX_OUT0 whose words hold no error. -/
theorem Dev.ctxWordRead_out0 {d : Dev} {c : Nat} (mid : Nat) (h : ∀ w ∈ (d.ctxS c).bad ++ (d.ctxS c).soft, w ≠ 40 ∧ out0Words w = false) :
    d.ctxWordRead mid c 40 id = d.ctxOut0Read mid c := by
  have hbad : 40 ∉ (d.ctxS c).bad := fun hm => (h 40 (List.mem_append_left _ hm)).1 rfl
  have hfix : d.ctxFix c 40 = d := Dev.ctxFix_hard fun hm => (h 40 (List.mem_append_right _ hm)).1 rfl
  have hfails : (d.ctxS c).bad.filter out0Words = [] :=
    List.filter_eq_nil_iff.2 fun w hw => Bool.eq_false_iff.1 (h w (List.mem_append_left _ hw)).2
  have hsoft : (d.ctxS c).soft.filter out0Words = [] :=
    List.filter_eq_nil_iff.2 fun w hw => Bool.eq_false_iff.1 (h w (List.mem_append_right _ hw)).2
  simp [Dev.ctxWordRead, hbad, hfix, hfails, Dev.ctxFixes, hsoft]

/-- A failing CTX_OUT0 reads as zero (R211). -/
theorem Dev.ctxWordRead_bad {d : Dev} {c : Nat} (mid : Nat) (h : (d.ctxS c).bad.contains 40 = true) :
    (d.ctxWordRead mid c 40 id).answered mid = 0 := by
  rw [Dev.ctxWordRead, if_pos h]
  exact Dev.answered_answer _ _ _

/-! ### Reads of the timebase at its addresses -/

theorem regHere_gtcLo (d : Dev) : RegHere d R.TL_GTC_LO .tlB 0 := ⟨rfl, rfl, rfl, by decide, by decide⟩
theorem regHere_gtcHi (d : Dev) : RegHere d R.TL_GTC_HI .tlB 0 := ⟨rfl, rfl, rfl, by decide, by decide⟩

theorem Dev.regRead_gtcLo (d : Dev) (mid : Nat) : d.regRead mid R.TL_GTC_LO =
    (d.latchW mid R.TL_GTC_HI (BitVec.ofNat 32 (d.now / 2 ^ 32))).answer mid (BitVec.ofNat 32 d.now) := by
  have hlo : d.view mid R.TL_GTC_LO = BitVec.ofNat 32 d.now := Dev.view_block mid (regHere_gtcLo d)
  have hhi : d.view mid R.TL_GTC_HI = BitVec.ofNat 32 (d.now / 2 ^ 32) := Dev.view_block mid (regHere_gtcHi d)
  rw [Dev.regRead_block mid (regHere_gtcLo d), ← hlo, ← hhi]
  rfl

theorem Dev.regRead_gtcHi {d : Dev} {mid : Nat} {w : Word} (h : d.latched mid R.TL_GTC_HI = some w) :
    d.regRead mid R.TL_GTC_HI = d.answer mid w := by
  have hread : d.regRead mid R.TL_GTC_HI = d.answer mid ((d.latched mid R.TL_GTC_HI).getD (d.view mid R.TL_GTC_HI)) :=
    Dev.regRead_block mid (regHere_gtcHi d)
  rw [hread, h, Option.getD_some]

/-- An access of another width or alignment answers zero (R22). -/
theorem exec_lowWordRead_bad {s : State} (hs : s.Up) (mid : Nat) {a n : Nat} (hr : inRegs a = true) (h : n ≠ 4 ∨ a % 4 ≠ 0) :
    exec (.lowWordRead mid ⟨a, n⟩) s = .next (s.withDev (s.dev.answer mid 0)) := by
  change execLowWordRead mid ⟨a, n⟩ s = _
  simp only [execLowWordRead, hr, Bool.true_or, if_true]
  rw [onState_up hs, State.onDevS, Dev.busRead, if_neg (by simp [inWins_of_inRegs hr]), if_neg (by omega)]
  rfl

/-- Settles O10, by the registers that each read latches. -/
theorem latchingReads : Obligations.LatchingReads := by
  refine ⟨fun s mid hup => ⟨?_, fun k hk => ?_, fun k hk => ?_, fun k hk => ?_, ?_, fun w hw => ?_, fun a n hr h => ?_⟩,
    fun s mid hup => ⟨fun c hc => ⟨fun hgood => ?_, fun hbad => ?_⟩, fun n hn => ⟨?_, ?_⟩, fun m hm => ?_, fun n hn => ?_⟩⟩
  · refine ⟨_, (exec_lowWordRead_reg hup mid rfl rfl).trans (congrArg _ (congrArg _ (s.dev.regRead_gtcLo mid))), ?_⟩
    exact ⟨((OnlyRead.refl _).latchW mid _ _).answer mid _, Dev.answered_answer _ _ _, Dev.latched_latchW ..⟩
  · refine ⟨_, onDev_eq hup (if_pos hk), s.dev.trkAngRead_spec mid k⟩
  · exact ⟨_, onDev_eq hup ((if_pos hk).trans (s.dev.accRes0Read_eq mid k)), Dev.latchRegs_answer _ _ _ _⟩
  · exact ⟨_, onDev_eq hup ((if_pos hk).trans (s.dev.mmxMinRead_eq mid k)), Dev.latchRegs_answer _ _ _ _⟩
  · obtain ⟨honly, hans, hlatch⟩ := s.dev.latchRegs_answer mid [R.EVT_LAST_T] (s.dev.reg R.EVT_LAST)
    exact ⟨_, onDev_eq hup (s.dev.evtLastRead_eq mid), honly, hans, hlatch _ List.mem_cons_self⟩
  · refine ⟨_, (exec_lowWordRead_reg hup mid rfl rfl).trans (congrArg _ (congrArg _ (Dev.regRead_gtcHi hw))), ?_⟩
    exact ⟨Dev.answer_onlyRead _ _ _, Dev.answered_answer _ _ _⟩
  · exact ⟨_, exec_lowWordRead_bad hup mid hr h, rfl⟩
  · obtain ⟨honly, hans, hlatch⟩ := s.dev.latchRegs_answer mid (out0Latches c) (s.dev.reg (R.CTX_OUT c 0))
    exact ⟨_, onDev_eq hup ((if_pos hc).trans ((Dev.ctxWordRead_out0 mid hgood).trans (s.dev.ctxOut0Read_eq mid c))), honly, hans,
      fun a ha => hlatch a (mem_out0Latches ha)⟩
  · exact ⟨_, onDev_eq hup (if_pos hc), Dev.ctxWordRead_bad mid hbad⟩
  · exact ⟨_, onDev_eq hup ((if_pos hn).trans (s.dev.posAngRead_eq mid n)), Dev.latchRegs_answer _ _ _ _⟩
  · exact ⟨_, onDev_eq hup ((if_pos hn).trans (s.dev.shdAngRead_eq mid n)), Dev.latchRegs_answer _ _ _ _⟩
  · exact ⟨_, onDev_eq hup (s.dev.tmTqRead_eq mid hm), Dev.latchRegs_answer _ _ _ _⟩
  · obtain ⟨honly, hans, hlatch⟩ := s.dev.latchRegs_answer mid ((List.range 16).map (R.SFX_FRAME n)) (s.dev.reg (R.SFX_FRAME n 0))
    exact ⟨_, onDev_eq hup (s.dev.sfxFrameRead_eq mid hn), honly, hans,
      fun k hk => hlatch _ (List.mem_map_of_mem (List.mem_range.2 hk))⟩

end Sys2Proof.Machine
end

section
/-! PROOFS. A write of one register by its own command, taken to its block: where the register stands, and what is left of the write. -/

namespace Sys2Proof.Machine

/-- Signed readings of a word agree. -/
theorem sext_toNat (w : Word) : sext 32 w.toNat = w.toInt := by
  have hw := w.isLt
  rw [BitVec.toInt_eq_toNat_cond]
  simp only [sext, Nat.mod_eq_of_lt hw]

/-- A word is the number of its integer. -/
theorem wordOfInt_toInt (w : Word) : wordOfInt w.toInt = w := by
  apply BitVec.eq_of_toNat_eq
  have hw := w.isLt
  rw [wordOfInt, wrapN, BitVec.toNat_ofNat, BitVec.toInt_eq_toNat_cond]
  split <;> omega

/-- A register of a present page: where it stands. -/
structure Placed (d : Dev) (a : Nat) (b : Block) (i off : Nat) : Prop where
  info : pageInfo (pageOf a) = some (b, i)
  offset : offOf a = off
  there : blockPresent d.member b i = true
  present : absentReg d.member b i off = false
  beyond : 0x40 ≤ off

section
variable {d : Dev} {a : Nat} {b : Block} {i off : Nat} (h : Placed d a b i off)
include h

theorem Dev.pWriteIn_placed (mid : Nat) (w : Word) : Quiet (d.routeWrite mid b i off a w) (d.pWriteIn mid a w) := by
  obtain ⟨hinfo, rfl, hthere, hpresent, hbeyond⟩ := h
  exact Dev.pWriteIn_quiet hinfo hthere hpresent hbeyond mid w

theorem Dev.pWrite_placed (hl : d.replaying = false) (mid : Nat) (w : Word) : Quiet (d.routeWrite mid b i off a w) (d.pWrite mid a w) := by
  rw [Dev.pWrite_live hl h.info]
  exact Dev.pWriteIn_placed h mid w

theorem Dev.pWrite_placed_eq (hl : d.replaying = false) (he : engineInput b off = false) (mid : Nat) (w : Word) :
    d.pWrite mid a w = d.routeWrite mid b i off a w := by
  rw [Dev.pWrite_live hl h.info]
  obtain ⟨hinfo, rfl, hthere, hpresent, hbeyond⟩ := h
  exact Dev.pWriteIn_block hinfo hthere hpresent hbeyond he mid w

/-- A plain write whose word names nothing absent. -/
theorem Dev.plainWrite_placed {rd : RegDef} {x y : Nat} (hr : regAt b off = some (rd, x, y)) (mid : Nat) {w : Word}
    (hw : w &&& absentBits d.member b i off = 0) :
    d.plainWrite mid a w = d.writeFields mid b i (pageOf a) off rd.flds w := by
  obtain ⟨hinfo, hoff, hthere, hpresent, hbeyond⟩ := h
  have hb : ¬off < 0x40 := by omega
  simp only [Dev.plainWrite, hinfo, hoff, hthere, hpresent, hb, hr, hw, Bool.not_true, Bool.or_self, Bool.false_eq_true, if_false, if_true,
    and_not_of_and_eq_zero hw]

end

/-- What a word becomes where every field of a register accepts a write. -/
def takeAll (l : List FieldDef) (w cur : Word) : Word := applyFields (fun _ => true) w l cur

theorem applyFields_congr {ok ok' : FieldDef → Bool} {l : List FieldDef} (h : ∀ fd ∈ l, ok fd = ok' fd) (w cur : Word) :
    applyFields ok w l cur = applyFields ok' w l cur := by
  induction l generalizing cur with
  | nil => rfl
  | cons fd l ih =>
    simp only [applyFields, h fd List.mem_cons_self]
    exact ih (fun g hg => h g (List.mem_cons_of_mem _ hg)) _

theorem writeRefused_all {ok : FieldDef → Bool} {l : List FieldDef} (h : ∀ fd ∈ l, ok fd = true) (hl : l ≠ []) (cur w : Word) :
    writeRefused ok cur w l = false := by
  obtain ⟨fd, r, rfl⟩ := List.exists_cons_of_ne_nil hl
  have hany : (fd :: r).any ok = true := List.any_eq_true.2 ⟨fd, List.mem_cons_self, h fd List.mem_cons_self⟩
  rw [writeRefused, hany, Bool.not_true, Bool.false_or, List.any_eq_false]
  intro g hg
  simp [h g hg]

/-- A write that every field accepts is the register's alone. -/
theorem Dev.writeFields_all {d : Dev} {mid : Nat} {b : Block} {i page off : Nat} {l : List FieldDef} (hl : l ≠ [])
    (h : ∀ fd ∈ l, d.fieldOk mid b i page off fd = true) (w : Word) :
    d.writeFields mid b i page off l w = d.setReg (pageBase page + off) (takeAll l w (d.reg (pageBase page + off))) := by
  simp only [Dev.writeFields, writeRefused_all h hl, Dev.denyIf, Bool.false_eq_true, if_false, takeAll]
  rw [applyFields_congr h]

/-- A field that only stores reads as the word's. -/
theorem getF_takeAll {l : List FieldDef} (hap : fieldsApart l = true) {fd : FieldDef} (hfd : fd ∈ l)
    (ha : fd.acc = .rw ∨ fd.acc = .rwc ∨ fd.acc = .rwm ∨ fd.acc = .rwk) (w cur : Word) : getF (takeAll l w cur) fd.f = getF w fd.f := by
  obtain ⟨hf, hf32⟩ := fieldsApart_mem hap hfd
  have hnext : fieldNext fd cur w = setF cur fd.f (getF w fd.f) := by
    rcases ha with ha | ha | ha | ha <;> simp [fieldNext, ha]
  have hcong : getF (takeAll l w cur) fd.f = getF (fieldNext fd cur w) fd.f :=
    getF_congr fun k hlo hhi => applyFields_in hap hfd hlo hhi
  rw [hcong, hnext, getF_setF_self _ _ _ (by simp only [fieldWidth]; omega)]
  exact Nat.mod_eq_of_lt (getF_lt _ _)

/-- A field that only reads stands. -/
theorem getF_takeAll_ro {l : List FieldDef} (hap : fieldsApart l = true) {fd : FieldDef} (hfd : fd ∈ l) (ha : fd.acc = .ro ∨ fd.acc = .wo)
    (w cur : Word) : getF (takeAll l w cur) fd.f = getF cur fd.f := by
  have hnext : fieldNext fd cur w = cur := by rcases ha with ha | ha <;> simp [fieldNext, ha]
  have hcong : getF (takeAll l w cur) fd.f = getF (fieldNext fd cur w) fd.f :=
    getF_congr fun k hlo hhi => applyFields_in hap hfd hlo hhi
  rw [hcong, hnext]

theorem Placed.address {d : Dev} {a : Nat} {b : Block} {i off : Nat} (h : Placed d a b i off) (hr : inRegs a = true) :
    pageBase (pageOf a) + off = a := by
  rw [← h.offset]; exact pageBase_pageOf hr

theorem Dev.unitWrite_in (d : Dev) {top n : Nat} (h : n < top) (mid a : Nat) (w : Word) : d.unitWrite top n mid a w = d.pWrite mid a w :=
  if_pos h

/-- The register that stands first in its block's map at an index of a plain array. -/
theorem regFind_index {r : RegDef} {l : List RegDef} {i : Nat} (h1 : 0 < r.s1) (h2 : r.s2 = 0) (hn : r.n2 = 1) (hi : i < r.n1) {off : Nat}
    (ho : off = r.base + r.s1 * i) : regFind off (r :: l) = some (r, i, 0) := by
  have hdiv : r.s1 * i / r.s1 = i := Nat.mul_div_cancel_left i h1
  have hindex : regIndex r off = some (i, 0) := by
    simp [regIndex, ho, h2, hn, hi, Nat.ne_of_gt h1, hdiv]
  rw [regFind, hindex]

end Sys2Proof.Machine
end

section
/-! PROOFS. The timebase's rate and offset, and its synchronisation (R56 to R58, R86). -/

namespace Sys2Proof.Machine

/-- A flag apart from the field written stands. -/
theorem Dev.flag_put_field (d : Dev) (a b : Nat) {f : RField} (v : Nat) {g : RField}
    (h : f.lo + fieldWidth f ≤ g.lo ∨ g.lo + fieldWidth g ≤ f.lo) : (d.put a f v).flag b g = d.flag b g :=
  congrArg (· != 0) (Dev.get_put_field d a b f g v h)

theorem Dev.flag_of_reg {d e : Dev} {a : Nat} (h : e.reg a = d.reg a) (f : RField) : e.flag a f = d.flag a f :=
  congrArg (· != 0) (Dev.get_of_reg h f)

/-! ### Writes of rate and offset -/

theorem placed_tlRate (d : Dev) : Placed d R.TL_RATE .tlB 0 0x4C := ⟨rfl, rfl, rfl, rfl, by decide⟩
theorem placed_vtOfsHi (d : Dev) : Placed d R.TL_VT_OFS_HI .tlB 0 0x54 := ⟨rfl, rfl, rfl, rfl, by decide⟩

theorem Dev.pWrite_tlRate {d : Dev} (hl : d.replaying = false) (mid : Nat) (w : Word) : d.pWrite mid R.TL_RATE w = d.tlRateWrite mid w :=
  Dev.pWrite_placed_eq (placed_tlRate d) hl rfl mid w

theorem Dev.pWrite_vtOfsHi {d : Dev} (hl : d.replaying = false) (mid : Nat) (w : Word) :
    d.pWrite mid R.TL_VT_OFS_HI w = d.vtOfsHiWrite mid w := Dev.pWrite_placed_eq (placed_vtOfsHi d) hl rfl mid w

theorem Dev.tlRateWrite_ok {d : Dev} {mid : Nat} (h : d.tlOk mid = true) (w : Word) :
    d.tlRateWrite mid w = d.setReg R.TL_RATE (wordOfInt (clampI (-200000) 200000 w.toInt)) := by
  rw [Dev.tlRateWrite, if_pos h, sext_toNat, clampRate]

/-! ### What a synchronisation may change -/

/-- The timebase's own record, and the free words that its rate steps take. -/
def syncPart (d e : Dev) : Dev := { d with sync := e.sync, free := e.free }

theorem syncPart_part : Part syncPart := ⟨fun _ => rfl, fun _ _ _ => rfl, fun _ _ => rfl, fun _ _ _ => rfl⟩

/-- The registers of a synchronisation. -/
def syncRegs : List Nat := [R.TL_SYNC_STAT, R.TL_VT_OFS_LO, R.TL_VT_OFS_HI, R.TL_RATE]

/-- Two devices that show one vehicle time: the same tick, the same offset. -/
structure SameTime (d e : Dev) : Prop where
  gtc : e.gtc = d.gtc
  lo : e.reg R.TL_VT_OFS_LO = d.reg R.TL_VT_OFS_LO
  hi : e.reg R.TL_VT_OFS_HI = d.reg R.TL_VT_OFS_HI
  written : e.sync.offWritten = d.sync.offWritten

theorem SameTime.vehicleTime {d e : Dev} (h : SameTime d e) : e.vehicleTime = d.vehicleTime := by
  rw [Dev.vehicleTime, h.gtc, h.lo, h.hi]; rfl

theorem SameTime.trans {d e f : Dev} (h : SameTime d e) (g : SameTime e f) : SameTime d f :=
  ⟨g.gtc.trans h.gtc, g.lo.trans h.lo, g.hi.trans h.hi, g.written.trans h.written⟩

theorem Quiet.sameTime {d e : Dev} (h : Quiet d e) : SameTime d e :=
  ⟨h.gtc, h.reg (by decide), h.reg (by decide), congrArg SyncSt.offWritten h.sync⟩

theorem SameTime.setReg (d : Dev) {a : Nat} (w : Word) (hlo : R.TL_VT_OFS_LO ≠ a) (hhi : R.TL_VT_OFS_HI ≠ a) : SameTime d (d.setReg a w) :=
  ⟨d.setReg_gtc a w, d.reg_setReg_ne w hlo, d.reg_setReg_ne w hhi, rfl⟩

section
variable (d : Dev)

/-! #### The loss of the lock -/

/-- The device before the event of a lost lock. -/
def Dev.lockLost : Dev :=
  let d := (d.putB R.TL_SYNC_STAT F.TL_SYNC_STAT_LOCKED false).putB R.TL_SYNC_STAT F.TL_SYNC_STAT_HOLDOVER true
  { d with sync := { d.sync with inRange := 0 } }

theorem Dev.syncLose_quiet : Quiet d.lockLost d.syncLose := Dev.raiseIf_quiet _ _ _ _

/-- The registers of a lost lock. -/
def Dev.lockLostRegs : Dev := (d.putB R.TL_SYNC_STAT F.TL_SYNC_STAT_LOCKED false).putB R.TL_SYNC_STAT F.TL_SYNC_STAT_HOLDOVER true

theorem Dev.reg_lockLost (a : Nat) : d.lockLost.reg a = d.lockLostRegs.reg a := rfl

theorem Dev.reg_lockLost_ne {a : Nat} (h : a ≠ R.TL_SYNC_STAT) : d.lockLost.reg a = d.reg a := by
  rw [Dev.reg_lockLost, Dev.lockLostRegs, Dev.putB, Dev.reg_put_ne _ _ _ h, Dev.putB, Dev.reg_put_ne _ _ _ h]

theorem Dev.lockLost_flags : d.lockLost.flag R.TL_SYNC_STAT F.TL_SYNC_STAT_HOLDOVER = true ∧
    d.lockLost.flag R.TL_SYNC_STAT F.TL_SYNC_STAT_LOCKED = false := by
  have hflag : ∀ f, d.lockLost.flag R.TL_SYNC_STAT f = d.lockLostRegs.flag R.TL_SYNC_STAT f := fun _ => rfl
  rw [hflag, hflag, Dev.lockLostRegs]
  refine ⟨Dev.flag_putB_self _ _ _ _ (by decide) (by decide), ?_⟩
  rw [Dev.putB, Dev.flag_put_field _ _ _ _ (by decide), Dev.flag_putB_self _ _ _ _ (by decide) (by decide)]

/-- A lost lock: HOLDOVER, not LOCKED, the rate as it stands, SYNC_LOST where HOLDOVER did not stand (R58). -/
theorem Dev.syncLose_spec : d.syncLose.flag R.TL_SYNC_STAT F.TL_SYNC_STAT_HOLDOVER = true ∧
    d.syncLose.flag R.TL_SYNC_STAT F.TL_SYNC_STAT_LOCKED = false ∧ d.syncLose.reg R.TL_RATE = d.reg R.TL_RATE ∧
    (d.flag R.TL_SYNC_STAT F.TL_SYNC_STAT_HOLDOVER = false → Raised d.syncLose Pg.TL Ev.SYNC_LOST) := by
  obtain ⟨hhold, hlock⟩ := d.lockLost_flags
  refine ⟨(d.syncLose_quiet.flag (by decide) _).trans hhold, (d.syncLose_quiet.flag (by decide) _).trans hlock,
    (d.syncLose_quiet.reg (by decide)).trans (d.reg_lockLost_ne (by decide)), fun h => ?_⟩
  have hraise : d.syncLose = d.lockLost.raise Pg.TL Ev.SYNC_LOST := by
    simp only [Dev.syncLose, h, Bool.not_false, Dev.raiseIf, if_true]; rfl
  rw [hraise]
  exact Dev.raise_raised _ rfl

theorem Dev.lockLost_sameTime : SameTime d d.lockLost := ⟨rfl, d.reg_lockLost_ne (by decide), d.reg_lockLost_ne (by decide), rfl⟩

theorem Dev.syncLose_sameTime : SameTime d d.syncLose := d.lockLost_sameTime.trans d.syncLose_quiet.sameTime

/-! #### The offset -/

theorem Dev.reg_setVtOfs_eq (lo hi : Word) (a : Nat) :
    (d.setVtOfs lo hi).reg a = ((d.setReg R.TL_VT_OFS_LO lo).setReg R.TL_VT_OFS_HI hi).reg a := rfl

theorem Dev.reg_setVtOfs_ne (lo hi : Word) {a : Nat} (hlo : a ≠ R.TL_VT_OFS_LO) (hhi : a ≠ R.TL_VT_OFS_HI) :
    (d.setVtOfs lo hi).reg a = d.reg a := by
  rw [Dev.reg_setVtOfs_eq, Dev.reg_setReg_ne _ _ hhi, Dev.reg_setReg_ne _ _ hlo]

theorem Dev.reg_setVtOfs (lo hi : Word) : (d.setVtOfs lo hi).reg R.TL_VT_OFS_LO = lo ∧ (d.setVtOfs lo hi).reg R.TL_VT_OFS_HI = hi := by
  rw [Dev.reg_setVtOfs_eq, Dev.reg_setVtOfs_eq, Dev.reg_setReg_ne _ _ (by decide), Dev.reg_setReg_self, Dev.reg_setReg_self]
  exact ⟨rfl, rfl⟩

/-- An offset in its two words is the offset. -/
theorem sext_words {x : Int} (hlo : -(2 ^ 63) ≤ x) (hhi : x < 2 ^ 63) :
    sext 64 ((BitVec.ofNat 32 (wrapN 64 x / 2 ^ 32) : Word).toNat * 2 ^ 32 + (BitVec.ofNat 32 (wrapN 64 x % 2 ^ 32) : Word).toNat) = x := by
  have hsum : (BitVec.ofNat 32 (wrapN 64 x / 2 ^ 32) : Word).toNat * 2 ^ 32 + (BitVec.ofNat 32 (wrapN 64 x % 2 ^ 32) : Word).toNat
      = wrapN 64 x := by
    have hlt : wrapN 64 x < 2 ^ 64 := by simp only [wrapN]; omega
    simp only [BitVec.toNat_ofNat]
    omega
  have hmod : wrapN 64 x % 2 ^ 64 = wrapN 64 x := Nat.mod_eq_of_lt (by simp only [wrapN]; omega)
  have hval : (wrapN 64 x : Int) = x % 2 ^ 64 := by simp only [wrapN]; omega
  rw [hsum, sext, hmod, hval]
  omega

/-- The offset written makes vehicle time the grandmaster's (R57). -/
theorem Dev.writeOffset_time {vt : Int} (hlo : -(2 ^ 63) ≤ vt - d.gtc) (hhi : vt - d.gtc < 2 ^ 63) : (d.writeOffset vt).vehicleTime = vt := by
  obtain ⟨hl, hh⟩ := d.reg_setVtOfs (BitVec.ofNat 32 (wrapN 64 (vt - d.gtc) % 2 ^ 32)) (BitVec.ofNat 32 (wrapN 64 (vt - d.gtc) / 2 ^ 32))
  have hg : (d.writeOffset vt).gtc = d.gtc := rfl
  rw [Dev.vehicleTime, hg]
  have hofs : sext 64 (((d.writeOffset vt).reg R.TL_VT_OFS_HI).toNat * 2 ^ 32 + ((d.writeOffset vt).reg R.TL_VT_OFS_LO).toNat) = vt - d.gtc := by
    rw [Dev.writeOffset, hl, hh]
    exact sext_words hlo hhi
  rw [hofs]
  omega

/-! #### The rate -/

theorem Dev.rateStep_eq : ∃ w, d.rateStep = d.fresh.2.setReg R.TL_RATE w := ⟨_, rfl⟩

theorem Dev.reg_rateStep_ne {a : Nat} (h : a ≠ R.TL_RATE) : d.rateStep.reg a = d.reg a := by
  obtain ⟨w, hw⟩ := d.rateStep_eq
  rw [hw, Dev.reg_setReg_ne _ _ h]
  rfl

theorem Dev.rateStep_sameTime : SameTime d d.rateStep := ⟨rfl, d.reg_rateStep_ne (by decide), d.reg_rateStep_ne (by decide), rfl⟩

end

/-! ### A message -/

section
variable {d : Dev} {vt : Int}

/-- The device once a message's error and the first offset stand. -/
def Dev.syncHeard (d : Dev) (err vt : Int) : Dev :=
  (d.putI R.TL_SYNC_STAT F.TL_SYNC_STAT_ERR (clampI (-32767) 32767 err)).firstOffset vt

/-- The device once a message's rate step and its count stand. -/
def Dev.syncCounted (d : Dev) (err vt : Int) : Dev :=
  let d := (d.syncHeard err vt).rateStep
  { d with sync := { d.sync with inRange := if err.natAbs ≤ 100 then min (d.sync.inRange + 1) 16 else 0 } }

/-- The device before SYNC_LOCK. -/
def Dev.syncLocked (d : Dev) (vt : Int) : Dev :=
  let d := if d.flag R.TL_SYNC_STAT F.TL_SYNC_STAT_HOLDOVER then d.writeOffset vt else d
  (d.putB R.TL_SYNC_STAT F.TL_SYNC_STAT_LOCKED true).putB R.TL_SYNC_STAT F.TL_SYNC_STAT_HOLDOVER false

theorem Dev.syncMessage_eq (h : d.flag R.TL_CTRL F.TL_CTRL_SYNC_EN = true) (err vt : Int) : d.syncMessage err vt =
    if err.natAbs > 1000 then (d.syncHeard err vt).syncLose
    else
      let e := d.syncCounted err vt
      if e.sync.inRange = 16 ∧ !e.flag R.TL_SYNC_STAT F.TL_SYNC_STAT_LOCKED then (e.syncLocked vt).raise Pg.TL Ev.SYNC_LOCK else e := by
  rw [Dev.syncMessage, h]
  rfl

/-- The parts of the status that a message's first stages leave. -/
theorem Dev.syncHeard_keeps (d : Dev) (err vt : Int) {f : RField} (hf : F.TL_SYNC_STAT_ERR.lo + fieldWidth F.TL_SYNC_STAT_ERR ≤ f.lo ∨
    f.lo + fieldWidth f ≤ F.TL_SYNC_STAT_ERR.lo) : (d.syncHeard err vt).flag R.TL_SYNC_STAT f = d.flag R.TL_SYNC_STAT f ∧
    (d.syncHeard err vt).sync.inRange = d.sync.inRange ∧ (d.syncHeard err vt).reg R.TL_RATE = d.reg R.TL_RATE := by
  have hput : (d.putI R.TL_SYNC_STAT F.TL_SYNC_STAT_ERR (clampI (-32767) 32767 err)).flag R.TL_SYNC_STAT f = d.flag R.TL_SYNC_STAT f :=
    Dev.flag_put_field _ _ _ _ hf
  have hrate : (d.putI R.TL_SYNC_STAT F.TL_SYNC_STAT_ERR (clampI (-32767) 32767 err)).reg R.TL_RATE = d.reg R.TL_RATE :=
    Dev.reg_put_ne _ _ _ (by decide)
  rw [Dev.syncHeard, Dev.firstOffset]
  split
  · exact ⟨hput, rfl, hrate⟩
  · refine ⟨?_, rfl, ?_⟩
    · rw [← hput]
      exact Dev.flag_of_reg (Dev.reg_setVtOfs_ne _ _ _ (by decide) (by decide)) f
    · exact (Dev.reg_setVtOfs_ne _ _ _ (by decide) (by decide)).trans hrate

section
variable (ho : d.sync.offWritten = false) (hlo : -(2 ^ 63) ≤ vt - d.gtc) (hhi : vt - d.gtc < 2 ^ 63)
include ho hlo hhi

/-- The first usable message writes the offset (R57). -/
theorem Dev.syncHeard_first (err : Int) : (d.syncHeard err vt).vehicleTime = vt ∧ (d.syncHeard err vt).sync.offWritten = true ∧
    (d.syncHeard err vt).gtc = d.gtc := by
  have hfirst : (d.putI R.TL_SYNC_STAT F.TL_SYNC_STAT_ERR (clampI (-32767) 32767 err)).sync.offWritten = false := ho
  rw [Dev.syncHeard, Dev.firstOffset, if_neg (by rw [hfirst]; decide)]
  exact ⟨Dev.writeOffset_time _ hlo hhi, rfl, rfl⟩

/-- What stands of the time after a message that was the first usable one. -/
theorem Dev.syncMessage_first (hen : d.flag R.TL_CTRL F.TL_CTRL_SYNC_EN = true) (err : Int) : (d.syncMessage err vt).vehicleTime = vt ∧
    (d.syncMessage err vt).sync.offWritten = true ∧ (d.syncMessage err vt).gtc = d.gtc := by
  obtain ⟨htime, hwr, hg⟩ := Dev.syncHeard_first ho hlo hhi err
  have hsame : ∀ {e f : Dev}, SameTime e f → e.vehicleTime = vt ∧ e.sync.offWritten = true ∧ e.gtc = d.gtc →
      f.vehicleTime = vt ∧ f.sync.offWritten = true ∧ f.gtc = d.gtc :=
    fun h ⟨ht, hw, hq⟩ => ⟨h.vehicleTime.trans ht, h.written.trans hw, h.gtc.trans hq⟩
  have hcounted := hsame (f := d.syncCounted err vt) ((d.syncHeard err vt).rateStep_sameTime.trans ⟨rfl, rfl, rfl, rfl⟩) ⟨htime, hwr, hg⟩
  rw [Dev.syncMessage_eq hen]
  split
  · exact hsame (Dev.syncLose_sameTime _) ⟨htime, hwr, hg⟩
  · dsimp only
    split
    · refine hsame (Dev.raise_quiet _ _ _).sameTime ?_
      refine hsame ((SameTime.setReg _ _ (by decide) (by decide)).trans (SameTime.setReg _ _ (by decide) (by decide))) ?_
      split
      · obtain ⟨-, hwc, hgc⟩ := hcounted
        exact ⟨Dev.writeOffset_time _ (by rw [hgc]; exact hlo) (by rw [hgc]; exact hhi), hwc, hgc⟩
      · exact hcounted
    · exact hcounted

end

theorem FrameOn.syncOffset {e : Dev} (h : FrameOn syncPart syncRegs d e) (vt : Int) : FrameOn syncPart syncRegs d (e.writeOffset vt) :=
  ((h.setReg syncPart_part _ (by decide)).setReg syncPart_part _ (by decide)).part syncPart_part rfl fun _ => rfl

/-- What a message may change. -/
theorem Dev.syncMessage_frame (d : Dev) (err vt : Int) : FrameOn syncPart syncRegs d (d.syncMessage err vt) := by
  have hp := syncPart_part
  have hrefl := FrameOn.refl hp syncRegs d
  unfold Dev.syncMessage
  refine FrameOn.ite (fun _ => hrefl) fun _ => ?_
  have hheard : FrameOn syncPart syncRegs d (d.syncHeard err vt) := by
    have hput := hrefl.put hp F.TL_SYNC_STAT_ERR (wrapN (fieldWidth F.TL_SYNC_STAT_ERR) (clampI (-32767) 32767 err))
      (show R.TL_SYNC_STAT ∈ syncRegs by decide)
    refine FrameOn.ite (fun _ => hput) fun _ => FrameOn.syncOffset ?_ vt
    exact hput.part hp rfl fun _ => rfl
  have hcounted : FrameOn syncPart syncRegs d (d.syncCounted err vt) := by
    refine FrameOn.part hp ?_ rfl fun _ => rfl
    exact (hheard.part hp (f := (d.syncHeard err vt).fresh.2) rfl fun _ => rfl).setReg hp _ (by decide)
  refine FrameOn.ite (fun _ => ?_) fun _ => ?_
  · refine FrameOn.quiet hp ?_ (Dev.syncLose_quiet _)
    exact ((hheard.putB hp _ _ (by decide)).putB hp _ _ (by decide)).part hp rfl fun _ => rfl
  · refine FrameOn.ite (fun _ => ?_) fun _ => hcounted
    refine FrameOn.quiet hp ?_ (Dev.raise_quiet _ _ _)
    refine ((FrameOn.ite (fun _ => hcounted.syncOffset vt) fun _ => hcounted).putB hp _ _ (by decide)).putB hp _ _ (by decide)

end

/-- The sixteenth message in a row within 100 ns sets LOCKED (R58). -/
theorem Dev.syncMessage_locks {d : Dev} (hen : d.flag R.TL_CTRL F.TL_CTRL_SYNC_EN = true) {err : Int} (he : err.natAbs ≤ 100)
    (hn : d.sync.inRange = 15) (hl : d.flag R.TL_SYNC_STAT F.TL_SYNC_STAT_LOCKED = false) (vt : Int) :
    (d.syncMessage err vt).flag R.TL_SYNC_STAT F.TL_SYNC_STAT_LOCKED = true ∧
      (d.syncMessage err vt).flag R.TL_SYNC_STAT F.TL_SYNC_STAT_HOLDOVER = false ∧ Raised (d.syncMessage err vt) Pg.TL Ev.SYNC_LOCK := by
  obtain ⟨hflag, hrange, -⟩ := d.syncHeard_keeps err vt (f := F.TL_SYNC_STAT_LOCKED) (by decide)
  have hcount : (d.syncCounted err vt).sync.inRange = 16 := by
    have hstep : (d.syncHeard err vt).rateStep.sync.inRange = 15 := hrange.trans hn
    simp only [Dev.syncCounted, if_pos he, hstep]
    rfl
  have hopen : (d.syncCounted err vt).flag R.TL_SYNC_STAT F.TL_SYNC_STAT_LOCKED = false := by
    have hreg : (d.syncCounted err vt).reg R.TL_SYNC_STAT = (d.syncHeard err vt).rateStep.reg R.TL_SYNC_STAT := rfl
    rw [← hl, ← hflag]
    exact Dev.flag_of_reg (hreg.trans (Dev.reg_rateStep_ne _ (by decide))) _
  have hmsg : d.syncMessage err vt = ((d.syncCounted err vt).syncLocked vt).raise Pg.TL Ev.SYNC_LOCK := by
    rw [Dev.syncMessage_eq hen, if_neg (by omega)]
    simp only [hcount, hopen, Bool.not_false, and_self, if_true]
  rw [hmsg]
  have hq := Dev.raise_quiet ((d.syncCounted err vt).syncLocked vt) Pg.TL Ev.SYNC_LOCK
  refine ⟨(hq.flag (by decide) _).trans ?_, (hq.flag (by decide) _).trans (Dev.flag_putB_self _ _ _ _ (by decide) (by decide)),
    Dev.raise_raised _ rfl⟩
  rw [Dev.syncLocked, Dev.putB, Dev.flag_put_field _ _ _ _ (by decide), Dev.flag_putB_self _ _ _ _ (by decide) (by decide)]

/-- An error above 1,000 ns loses the lock (R58). -/
theorem Dev.syncMessage_far {d : Dev} (hen : d.flag R.TL_CTRL F.TL_CTRL_SYNC_EN = true) {err : Int} (he : 1000 < err.natAbs) (vt : Int) :
    (d.syncMessage err vt).flag R.TL_SYNC_STAT F.TL_SYNC_STAT_HOLDOVER = true ∧
      (d.syncMessage err vt).flag R.TL_SYNC_STAT F.TL_SYNC_STAT_LOCKED = false ∧ (d.syncMessage err vt).reg R.TL_RATE = d.reg R.TL_RATE ∧
      (d.flag R.TL_SYNC_STAT F.TL_SYNC_STAT_HOLDOVER = false → Raised (d.syncMessage err vt) Pg.TL Ev.SYNC_LOST) := by
  obtain ⟨hflag, -, hrate⟩ := d.syncHeard_keeps err vt (f := F.TL_SYNC_STAT_HOLDOVER) (by decide)
  rw [Dev.syncMessage_eq hen, if_pos he]
  obtain ⟨hhold, hlock, hkeep, hraise⟩ := (d.syncHeard err vt).syncLose_spec
  exact ⟨hhold, hlock, hkeep.trans hrate, fun h => hraise (hflag.trans h)⟩

/-- Settles O11, stage by stage of a message: error and first offset, rate step and count, lock or loss. -/
theorem synchronisation : Obligations.Synchronisation := by
  refine ⟨fun s mid w hlive => ⟨fun hok => ⟨onDev_eq hlive.1 ?_, onDev_eq hlive.1 ?_⟩, fun hno => ⟨onDev_eq hlive.1 ?_, onDev_eq hlive.1 ?_⟩⟩,
    fun s err vt logInterval twoStep hup hfr hen hlo hhi => ?_⟩
  · rw [Dev.pWrite_tlRate hlive.2, Dev.tlRateWrite_ok hok]
  · rw [Dev.pWrite_vtOfsHi hlive.2, Dev.vtOfsHiWrite, if_pos hok]
  · rw [Dev.pWrite_tlRate hlive.2, Dev.tlRateWrite, if_neg (by rw [hno]; decide)]
  · rw [Dev.pWrite_vtOfsHi hlive.2, Dev.vtOfsHiWrite, if_neg (by rw [hno]; decide)]
  · have hclock : ∀ f, s.dev.clocked Pg.TL f = f s.dev := fun f => if_neg (by rw [hfr]; decide)
    intro sync
    have hmsg : s.dev.syncUsable twoStep logInterval = true → sync = .next (s.withDev (s.dev.syncMessage err vt)) := fun hu =>
      onDev_eq hup ((if_pos hu).trans (hclock _))
    refine ⟨fun hu => onDev_same hup (if_neg (by rw [hu]; decide)), fun hu ho => ⟨_, hmsg hu, ?_⟩, fun hu he hn hl => ⟨_, hmsg hu, ?_⟩,
      fun hu he => ⟨_, hmsg hu, ?_⟩, ⟨_, onDev_eq hup ((hclock _).trans (if_pos hen)), s.dev.syncLose_spec⟩⟩
    · obtain ⟨ht, hw, hg⟩ := Dev.syncMessage_first ho hlo hhi hen err
      exact ⟨ht, hw, hg, s.dev.syncMessage_frame err vt⟩
    · exact Dev.syncMessage_locks hen he hn hl vt
    · exact Dev.syncMessage_far hen he vt

end Sys2Proof.Machine
end

section
/-! PROOFS. Host writes of a track's angle, speed and configuration (R66, R67, R70). -/

namespace Sys2Proof.Machine

/-! ### Where a track's registers stand -/

section
variable (d : Dev) {k : Nat} (hk : k < nTracks)
include hk

theorem placed_trk {r : Nat} (hr : r < 0x40) : Placed d (0x40028040 + r + 0x40 * k) .trkB 0 (0x40 + r + 0x40 * k) := by
  simp only [nTracks] at hk
  have hpage : pageOf (0x40028040 + r + 0x40 * k) = 0x28 := by simp only [pageOf]; omega
  exact ⟨by rw [hpage]; rfl, by simp only [offOf]; omega, rfl, rfl, by omega⟩

theorem Dev.routeWrite_trk {r : Nat} (hr : r < 0x40) (mid a : Nat) (w : Word) : d.routeWrite mid .trkB 0 (0x40 + r + 0x40 * k) a w =
    if r = 0 then d.trkCfgWrite mid k w
    else if r = 0x14 then d.trkAngWrite mid k w
    else if r = 0x18 then d.trkSpdWrite mid k w
    else if r = 0x20 then d.unitClaim mid a (getF w F.CLAIM_OWNER)
    else d.plainWrite mid a w := by
  have hq : (0x40 + r + 0x40 * k - 0x40) / 0x40 = k := by omega
  have hm : (0x40 + r + 0x40 * k - 0x40) % 0x40 = r := by omega
  simp only [Dev.routeWrite, Dev.trkPageWrite, hq, hm, if_neg (Nat.not_le.2 hk)]

end

section
variable {d : Dev} (hl : d.replaying = false) {k : Nat} (hk : k < nTracks) (mid : Nat) (w : Word)
include hl hk

theorem Dev.unitWrite_trkAng : Quiet (d.trkAngWrite mid k w) (d.unitWrite 24 k mid (R.TRK_ANG k) w) := by
  have hq := Dev.pWrite_placed (placed_trk d hk (r := 0x14) (by decide)) hl mid w
  rw [Dev.routeWrite_trk d hk (by decide)] at hq
  rw [Dev.unitWrite_in d (show k < 24 from hk)]
  exact hq

theorem Dev.unitWrite_trkSpd : Quiet (d.trkSpdWrite mid k w) (d.unitWrite 24 k mid (R.TRK_SPD k) w) := by
  have hq := Dev.pWrite_placed (placed_trk d hk (r := 0x18) (by decide)) hl mid w
  rw [Dev.routeWrite_trk d hk (by decide)] at hq
  rw [Dev.unitWrite_in d (show k < 24 from hk)]
  exact hq

theorem Dev.unitWrite_trkCfg : Quiet (d.trkCfgWrite mid k w) (d.unitWrite 24 k mid (R.TRK_CFG k) w) := by
  have haddr : R.TRK_CFG k = 0x40028040 + 0 + 0x40 * k := by simp only [R.TRK_CFG, Nat.add_zero]
  have hq := Dev.pWrite_placed (placed_trk d hk (r := 0) (by decide)) hl mid w
  rw [Dev.routeWrite_trk d hk (by decide), if_pos rfl] at hq
  rw [Dev.unitWrite_in d (show k < 24 from hk), haddr]
  exact hq

end

/-! ### Angle and speed -/

section
variable {d : Dev} {mid k : Nat} (w : Word)

theorem Dev.trkAngWrite_denied (h : d.trkWriteOk mid k = false) : d.trkAngWrite mid k w = d.deny Pg.TRK := by simp [Dev.trkAngWrite, h]

theorem Dev.trkSpdWrite_denied (h : d.trkWriteOk mid k = false) : d.trkSpdWrite mid k w = d.deny Pg.TRK := by simp [Dev.trkSpdWrite, h]

variable (h : d.trkWriteOk mid k = true)
include h

theorem Dev.trkAngWrite_free (hs : d.trkSrc k = srcFREE) : d.trkAngWrite mid k w =
    d.setTrk k { d.trkS k with ang := angOfWord w, res := 0, jumpAt := d.gtc + 1,
                               jump := sext 40 (wrap40 ((angOfWord w : Int) - (d.trkS k).ang)) } := by
  have hne : srcFREE ≠ srcHOST := by decide
  simp [Dev.trkAngWrite, h, hs, hne]

theorem Dev.trkSpdWrite_free (hs : d.trkSrc k = srcFREE) :
    d.trkSpdWrite mid k w = d.setTrk k { d.trkS k with nextSpd := some w.toInt } := by
  have hne : srcFREE ≠ srcHOST := by decide
  simp [Dev.trkSpdWrite, h, hs, hne, sext_toNat]

theorem Dev.trkSpdWrite_host (hs : d.trkSrc k = srcHOST) :
    d.trkSpdWrite mid k w = d.setTrk k { d.trkS k with staged := some w.toInt } := by
  simp [Dev.trkSpdWrite, h, hs, sext_toNat]

/-- The update that a HOST write of an angle delivers. -/
def Dev.hostUpd (d : Dev) (k : Nat) (w : Word) : Upd :=
  { m := angOfWord w, v := (d.trkS k).staged, ts := d.gtc, ta := d.gtc, valid := true, logged := true }

theorem Dev.trkAngWrite_host (hs : d.trkSrc k = srcHOST) : d.trkAngWrite mid k w = d.applyUpd k (d.hostUpd k w) := by
  simp [Dev.trkAngWrite, h, hs, Dev.hostUpd]

end

theorem angOfWord_lt (w : Word) : angOfWord w < 2 ^ 40 := by
  have ha := getF_lt w F.TRK_ANG_ANG
  have hf := getF_lt w F.TRK_ANG_FRAC
  simp only [fieldWidth, F.TRK_ANG_ANG, F.TRK_ANG_FRAC] at ha hf
  simp only [angOfWord, F.TRK_ANG_ANG, F.TRK_ANG_FRAC]
  omega

/-- A HOST update stands at the present tick: its angle is the word's. -/
theorem Dev.updAng_host (d : Dev) (k : Nat) (w : Word) : d.updAng k (d.hostUpd k w) = angOfWord w := by
  have hlt := angOfWord_lt w
  simp only [Dev.updAng, Dev.hostUpd, Int.sub_self, Int.mul_zero, Int.add_zero, wrap40, wrapN]
  omega

/-! ### The configuration -/

/-- The fields of TRK_CFG. -/
def trkCfgFields : List FieldDef := [⟨F.TRK_CFG_SRC, .rwc, 0⟩, ⟨F.TRK_CFG_CTX, .rwc, 0⟩, ⟨F.TRK_CFG_PP, .rwc, 0⟩, ⟨F.TRK_CFG_INV, .rwc, 0⟩]

theorem regAt_trkCfg {k : Nat} (hk : k < nTracks) : regAt .trkB (0x40 + 0x40 * k) = some (⟨0x40, 0x40, 24, 0, 1, trkCfgFields⟩, k, 0) :=
  regFind_index (by decide) rfl rfl hk rfl

/-- Tracks. -/
def trkPart (d e : Dev) : Dev := { d with trk := e.trk }

theorem trkPart_part : Part trkPart := ⟨fun _ => rfl, fun _ _ _ => rfl, fun _ _ => rfl, fun _ _ _ => rfl⟩

section
variable {d : Dev} {mid k : Nat} (w : Word) (hk : k < nTracks) (hconf : d.inConfigure = true) (hs : d.asS0 mid .trkB = true)
  (ho : d.ownOk mid (.unit (R.TRK_CLAIM k) Pg.TRK) = true)
include hk hconf hs ho

omit hk in
theorem Dev.fieldOk_trkCfg : ∀ fd ∈ trkCfgFields, d.fieldOk mid .trkB 0 Pg.TRK (0x40 + 0x40 * k) fd = true := by
  intro fd hfd
  have hown : d.ownAt .trkB 0 Pg.TRK (0x40 + 0x40 * k) = .unit (R.TRK_CLAIM k) Pg.TRK := by
    simp [Dev.ownAt, ownOf]
  refine Dev.fieldOk_owner rfl ⟨hs, by rw [hown]; exact ho⟩ (.inr (.inr ⟨?_, hconf⟩))
  simp only [trkCfgFields, List.mem_cons, List.not_mem_nil, or_false] at hfd
  rcases hfd with rfl | rfl | rfl | rfl <;> rfl

/-- A taken write of TRK_CFG: the register, then its effects. -/
theorem Dev.trkCfgWrite_taken : d.trkCfgWrite mid k w =
    (d.setReg (R.TRK_CFG k) (takeAll trkCfgFields w (d.reg (R.TRK_CFG k)))).afterTrkCfg k := by
  have hok := Dev.fieldOk_trkCfg (k := k) hconf hs ho
  have haddr : R.TRK_CFG k = pageBase Pg.TRK + (0x40 + 0x40 * k) := by simp only [R.TRK_CFG, pageBase, Pg.TRK]; omega
  have hoff : R.TRK_CFG k - pageBase Pg.TRK = 0x40 + 0x40 * k := by omega
  have htaken : d.writeTaken mid .trkB 0 Pg.TRK (0x40 + 0x40 * k) = true := by
    rw [Dev.writeTaken, regAt_trkCfg hk]
    exact List.any_eq_true.2 ⟨_, List.mem_cons_self, hok _ List.mem_cons_self⟩
  have hpage : pageOf (R.TRK_CFG k) = Pg.TRK := by rw [haddr]; exact pageOf_base (by decide) (by simp only [nTracks] at hk; omega)
  have hplain := Dev.plainWrite_placed (placed_trk d hk (r := 0) (by decide)) (regAt_trkCfg hk) mid (w := w) BitVec.and_zero
  change d.plainWrite mid (R.TRK_CFG k) w = d.writeFields mid .trkB 0 (pageOf (R.TRK_CFG k)) (0x40 + 0x40 * k) trkCfgFields w at hplain
  rw [hpage, Dev.writeFields_all (by decide) hok, ← haddr] at hplain
  simp only [Dev.trkCfgWrite, hoff, htaken, hplain, if_true]

end

section
variable (d : Dev) (k : Nat)

/-- A track whose source starts afresh: no residual, nothing staged, nothing under way. -/
def TrkSt.restarted (s : TrkSt) (base : Nat) (b : Bool) : TrkSt :=
  { s with res := 0, staged := none, nextSpd := none, upds := [], base := base, hasSpd := b }

/-- The device before the direction of the speed that stands. -/
def Dev.trkRestart : Dev :=
  let base := if srcUpdates (d.trkSrc k) then d.gtc else (d.trkS k).base
  let e := (d.setTrk k ((d.trkS k).restarted base false)).putB (R.TRK_STAT k) F.TRK_STAT_DIR false
  if d.trkSrc k = srcFREE then (e.putB (R.TRK_STAT k) F.TRK_STAT_STALE false).putB (R.TRK_STAT k) F.TRK_STAT_VALID (d.trkS k).good else e

theorem Dev.afterTrkCfg_eq : d.afterTrkCfg k = (d.trkRestart k).trkDir k (d.trkS k).spd false := rfl

theorem Dev.trkDir_false (v : Int) : d.trkDir k v false =
    if v = 0 then d else (d.setTrk k { d.trkS k with hasSpd := true }).putB (R.TRK_STAT k) F.TRK_STAT_DIR (decide (v < 0)) := by
  simp only [Dev.trkDir, Bool.and_false, Dev.trkEventIf, Bool.false_eq_true, if_false]

section
variable {d k} {e : Dev} (h : FrameOn trkPart [R.TRK_STAT k] d e)
include h

theorem FrameOn.putTrkStat (f : RField) (c : Bool) : FrameOn trkPart [R.TRK_STAT k] d (e.putB (R.TRK_STAT k) f c) :=
  h.putB trkPart_part f c (by simp)

theorem FrameOn.setTrk (x : TrkSt) : FrameOn trkPart [R.TRK_STAT k] d (e.setTrk k x) :=
  h.part trkPart_part rfl fun _ => Dev.reg_setTrk _ _ _ _

end

/-- What the effects of a configuration may change. -/
theorem Dev.afterTrkCfg_frame : FrameOn trkPart [R.TRK_STAT k] d (d.afterTrkCfg k) := by
  have hbase := ((FrameOn.refl trkPart_part [R.TRK_STAT k] d).setTrk ((d.trkS k).restarted
    (if srcUpdates (d.trkSrc k) then d.gtc else (d.trkS k).base) false)).putTrkStat F.TRK_STAT_DIR false
  have hrestart : FrameOn trkPart [R.TRK_STAT k] d (d.trkRestart k) :=
    FrameOn.ite (fun _ => (hbase.putTrkStat _ _).putTrkStat _ _) fun _ => hbase
  rw [Dev.afterTrkCfg_eq, Dev.trkDir_false]
  exact FrameOn.ite (fun _ => hrestart) fun _ => (hrestart.setTrk _).putTrkStat _ _

theorem Dev.trkS_trkRestart (j : Nat) : (d.trkRestart k).trkS j =
    if j = k then (d.trkS k).restarted (if srcUpdates (d.trkSrc k) then d.gtc else (d.trkS k).base) false else d.trkS j := by
  rw [Dev.trkRestart]
  split
  · rw [Dev.putB, Dev.trkS_put, Dev.putB, Dev.trkS_put, Dev.putB, Dev.trkS_put, Dev.trkS_setTrk]
  · rw [Dev.putB, Dev.trkS_put, Dev.trkS_setTrk]

/-- A track's record after its configuration was written. -/
theorem Dev.trkS_afterTrkCfg : ∃ b, (d.afterTrkCfg k).trkS k =
    (d.trkS k).restarted (if srcUpdates (d.trkSrc k) then d.gtc else (d.trkS k).base) b := by
  obtain ⟨b, hb⟩ := (d.trkRestart k).trkS_trkDir k (d.trkS k).spd false
  rw [Dev.trkS_trkRestart, if_pos rfl] at hb
  exact ⟨b, hb⟩

theorem Dev.trkS_afterTrkCfg_ne {j : Nat} (h : j ≠ k) : (d.afterTrkCfg k).trkS j = d.trkS j := by
  rw [Dev.afterTrkCfg_eq, ((d.trkRestart k).trkDir_step k _ false).others j (by simpa using h), Dev.trkS_trkRestart, if_neg h]

end

theorem eventReg_trkCfg {k : Nat} (hk : k < nTracks) : eventReg (R.TRK_CFG k) = false := by
  simp only [nTracks] at hk
  rw [eventReg_eq_false]
  simp only [R.TRK_CFG]
  omega

/-- What a frame allows stays allowed in a larger list. -/
theorem FrameOn.mono {p : Dev → Dev → Dev} {l m : List Nat} {d e : Dev} (h : FrameOn p l d e) (hl : ∀ a ∈ l, a ∈ m) : FrameOn p m d e :=
  Frame.mono h hl

/-- Settles O13, by what each of the three registers does when its write is taken. -/
theorem trackWrites : Obligations.TrackWrites := by
  refine ⟨fun s mid k w hlive hk => ?_, fun s mid k w hlive hk hconf hs ho => ?_⟩
  · have hang := Dev.unitWrite_trkAng hlive.2 hk mid w
    have hspd := Dev.unitWrite_trkSpd hlive.2 hk mid w
    refine ⟨fun hno => ⟨DevNext.onDev hlive.1 ?_, DevNext.onDev hlive.1 ?_⟩, fun hok hsrc => ⟨DevNext.onDev hlive.1 ?_, DevNext.onDev hlive.1 ?_⟩,
      fun hok hsrc => ⟨DevNext.onDev hlive.1 ?_, DevNext.onDev hlive.1 ?_⟩⟩
    · rwa [Dev.trkAngWrite_denied w hno] at hang
    · rwa [Dev.trkSpdWrite_denied w hno] at hspd
    · rwa [Dev.trkAngWrite_free w hok hsrc] at hang
    · rwa [Dev.trkSpdWrite_free w hok hsrc] at hspd
    · rwa [Dev.trkSpdWrite_host w hok hsrc] at hspd
    · rw [Dev.trkAngWrite_host w hok hsrc] at hang
      have hstep := (s.dev.applyUpd_trkStep k (s.dev.hostUpd k w)).trans (hang.trkStep [k])
      have hflag := fun f => hang.flag (eventReg_trkStat hk) f
      obtain ⟨espd, -, ebase⟩ := s.dev.applyUpd_record k (s.dev.hostUpd k w)
      obtain ⟨hvalid, -, hstale, -, -⟩ := s.dev.applyUpd_flags hk (s.dev.hostUpd k w)
      have hangle := s.dev.applyUpd_angle k (s.dev.hostUpd k w)
      rw [← hang.trkS] at espd ebase
      rw [← hang.trkS, Dev.updErr, Dev.updAng_host, show cnt20 = 2 ^ 20 from rfl] at hangle
      refine ⟨hstep.frame, fun j hj => hstep.others j (by simpa using hj), espd, ebase, ?_, (hflag _).trans hvalid, (hflag _).trans hstale⟩
      split at hangle
      · next h => rw [if_pos h]; exact ⟨hangle.1, hangle.2.1⟩
      · next h => rw [if_neg h]; exact hangle
  · have hcfg := Dev.unitWrite_trkCfg hlive.2 hk mid w
    rw [Dev.trkCfgWrite_taken w hk hconf hs ho] at hcfg
    refine DevNext.onDev hlive.1 ?_
    have hap : fieldsApart trkCfgFields = true := rfl
    have hne : R.TRK_CFG k ∉ [R.TRK_STAT k] := by
      simp only [List.mem_cons, List.not_mem_nil, or_false, R.TRK_CFG, R.TRK_STAT]; omega
    have hev : eventReg (R.TRK_CFG k) = false := eventReg_trkCfg hk
    generalize hx : s.dev.setReg (R.TRK_CFG k) (takeAll trkCfgFields w (s.dev.reg (R.TRK_CFG k))) = x at hcfg
    have hframe : FrameOn trkPart [R.TRK_CFG k, R.TRK_STAT k] s.dev x :=
      hx ▸ (FrameOn.refl trkPart_part _ s.dev).setReg trkPart_part _ (by simp)
    have hafter : FrameOn trkPart [R.TRK_CFG k, R.TRK_STAT k] x (x.afterTrkCfg k) := (x.afterTrkCfg_frame k).mono (by simp)
    have hreg : x.reg (R.TRK_CFG k) = takeAll trkCfgFields w (s.dev.reg (R.TRK_CFG k)) := by rw [← hx, Dev.reg_setReg_self]
    have htrk : ∀ j, x.trkS j = s.dev.trkS j := fun j => by rw [← hx, Dev.trkS_setReg]
    have hgtc : x.gtc = s.dev.gtc := by rw [← hx, Dev.setReg_gtc]
    have hfields : ∀ f ∈ [F.TRK_CFG_SRC, F.TRK_CFG_CTX, F.TRK_CFG_PP, F.TRK_CFG_INV], x.get (R.TRK_CFG k) f = getF w f := by
      intro f hf
      rw [Dev.get, hreg]
      simp only [List.mem_cons, List.not_mem_nil, or_false] at hf
      obtain rfl | rfl | rfl | rfl := hf
      · exact getF_takeAll hap (fd := ⟨F.TRK_CFG_SRC, .rwc, 0⟩) (by decide) (by decide) w _
      · exact getF_takeAll hap (fd := ⟨F.TRK_CFG_CTX, .rwc, 0⟩) (by decide) (by decide) w _
      · exact getF_takeAll hap (fd := ⟨F.TRK_CFG_PP, .rwc, 0⟩) (by decide) (by decide) w _
      · exact getF_takeAll hap (fd := ⟨F.TRK_CFG_INV, .rwc, 0⟩) (by decide) (by decide) w _
    obtain ⟨b, hb⟩ := x.trkS_afterTrkCfg k
    have hsrc : x.trkSrc k = getF w F.TRK_CFG_SRC := hfields _ (by simp)
    rw [htrk, hsrc, hgtc] at hb
    have hrec := (hcfg.trkS k).trans hb
    refine ⟨(hframe.trans trkPart_part hafter).quiet trkPart_part hcfg, fun j hj => ?_, fun f hf => ?_, ?_⟩
    · rw [hcfg.trkS, Dev.trkS_afterTrkCfg_ne _ _ hj, htrk]
    · rw [hcfg.get hev, Dev.get_of_reg ((x.afterTrkCfg_frame k).reg trkPart_part hev hne)]
      exact hfields f hf
    · rw [hrec]
      exact ⟨rfl, rfl, rfl, rfl, rfl, rfl, rfl⟩

end Sys2Proof.Machine
end

section
/-! PROOFS. When slots fire (R72 to R78): what a firing does, and the decisions of the four types. -/

namespace Sys2Proof.Machine

/-! ### What a firing may change -/

/-- Slots, and the actions on their way. -/
def slotPart (d e : Dev) : Dev := { d with slot := e.slot, firings := e.firings }

theorem slotPart_part : Part slotPart := ⟨fun _ => rfl, fun _ _ _ => rfl, fun _ _ => rfl, fun _ _ _ => rfl⟩

theorem slotTrig_ne_act (n : Nat) : R.SLOT_ACT n ≠ R.SLOT_TRIG n := by simp only [R.SLOT_ACT, R.SLOT_TRIG]; omega

theorem slotTrig_ne_lastSkip (n : Nat) : R.SLOT_TRIG n ≠ R.TL_LAST_SKIP := by simp only [R.TL_LAST_SKIP, R.SLOT_TRIG]; omega

theorem eventReg_slotTrig {n : Nat} (hn : n < nSlots) : eventReg (R.SLOT_TRIG n) = false := by
  simp only [nSlots] at hn
  rw [eventReg_eq_false]
  simp only [R.SLOT_TRIG]
  omega

/-- No slot register is the one that says whether a replay runs. -/
theorem rplStat_ne_slotTrig {n : Nat} (hn : n < nSlots) : R.RPL_STAT ≠ R.SLOT_TRIG n := by
  simp only [nSlots] at hn
  simp only [R.RPL_STAT, R.SLOT_TRIG]
  omega

section
variable (d : Dev) (n : Nat) (skipped : Bool)

/-- Whether a slot that fires stays armed (R72). -/
def Dev.slotStays : Bool := d.flag (R.SLOT_TRIG n) F.SLOT_TRIG_REARM && d.get (R.SLOT_TRIG n) F.SLOT_TRIG_TYPE != 0

/-- A firing's first stage: FIRED, SKIPPED, the one-shot disarmed. -/
def Dev.fireTrig : Dev :=
  let e := (d.putB (R.SLOT_TRIG n) F.SLOT_TRIG_FIRED true).putB (R.SLOT_TRIG n) F.SLOT_TRIG_SKIPPED skipped
  if d.slotStays n then e else e.putB (R.SLOT_TRIG n) F.SLOT_TRIG_ARMED false

/-- The slot's record once it has fired. -/
def Dev.firedSlot : SlotSt :=
  { d.slotS n with decAt := d.gtc + 1, waitRearm := d.slotStays n && d.get (R.SLOT_TRIG n) F.SLOT_TRIG_TYPE == 3 }

/-- A firing before its record and its event. -/
def Dev.fireBase : Dev :=
  let e := (d.fireTrig n skipped).setSlot n (d.firedSlot n)
  { e with firings := if (d.firingOf n).action = 0 then d.firings else firingInsert d.firings (d.firingOf n) }

/-- The slot that was skipped last, before the event. -/
def Dev.lastSkip : Dev := (d.bump R.TL_LAST_SKIP F.TL_LAST_SKIP_COUNT).put R.TL_LAST_SKIP F.TL_LAST_SKIP_SLOT n

theorem Dev.reg_fireTrig (a : Nat) : (d.fireTrig n skipped).reg a = if a = R.SLOT_TRIG n then (d.fireTrig n skipped).reg a else d.reg a := by
  split
  · rfl
  · next h =>
    rw [Dev.fireTrig]
    split <;> simp only [Dev.putB, Dev.reg_put_ne _ _ _ h]

theorem Dev.fireTrig_rest : { d.fireTrig n skipped with regs := d.regs } = d := by
  rw [Dev.fireTrig]
  split <;> rfl

theorem Dev.fireTrig_flags : (d.fireTrig n skipped).flag (R.SLOT_TRIG n) F.SLOT_TRIG_FIRED = true ∧
    (d.fireTrig n skipped).flag (R.SLOT_TRIG n) F.SLOT_TRIG_SKIPPED = skipped ∧
    (d.fireTrig n skipped).flag (R.SLOT_TRIG n) F.SLOT_TRIG_ARMED = (d.flag (R.SLOT_TRIG n) F.SLOT_TRIG_ARMED && d.slotStays n) := by
  have hself : ∀ (e : Dev) {f : RField} (c : Bool), fieldWidth f = 1 → f.lo < 32 → (e.put (R.SLOT_TRIG n) f (b2n c)).flag (R.SLOT_TRIG n) f = c :=
    fun e f c => e.flag_putB_self _ f c
  rw [Dev.fireTrig]
  cases d.slotStays n with
  | true => simp (disch := decide) only [if_true, Dev.putB, Dev.flag_put_field, hself, Bool.and_true, and_self]
  | false => simp (disch := decide) only [Bool.false_eq_true, if_false, Dev.putB, Dev.flag_put_field, hself, Bool.and_false, and_self]

/-- The record of a firing, where its action word asks for one. -/
def Dev.recFire (x : Dev) (tick : Nat) : Dev :=
  if x.flag (R.SLOT_ACT n) F.SLOT_ACT_REC_FIRE then x.emit { ty := 0x06, res := n, tick := tick, data := [BitVec.ofNat 32 (b2n skipped)] }
  else x

/-- What follows a firing's register and record: its action on the way, the record, the note of a skip. -/
def Dev.fireTail (e : Dev) : Dev :=
  let code := e.get (R.SLOT_ACT n) F.SLOT_ACT_ACTION
  let r := e.slotFiring n (e.gtc + 8)
  let x := if code = 0 ∨ (e.replaying ∧ liveAction code) then e else { e with firings := firingInsert e.firings r }
  let x := x.recFire n skipped (e.gtc + 8)
  if skipped then (x.lastSkip n).raise Pg.TL Ev.SLOT_SKIPPED else x

theorem Dev.fireSlot_tail : d.fireSlot n skipped = Dev.fireTail n skipped ((d.fireTrig n skipped).setSlot n
    { (d.fireTrig n skipped).slotS n with
      decAt := (d.fireTrig n skipped).gtc + 1
      waitRearm := d.slotStays n && d.get (R.SLOT_TRIG n) F.SLOT_TRIG_TYPE == 3 }) := rfl

/-- A firing is its stages. -/
theorem Dev.fireSlot_eq (hl : d.replaying = false) (hn : n < nSlots) : ∃ e, Quiet (d.fireBase n skipped) e ∧
    d.fireSlot n skipped = if skipped then (e.lastSkip n).raise Pg.TL Ev.SLOT_SKIPPED else e := by
  have hgtc : (d.fireTrig n skipped).gtc = d.gtc := (congrArg Dev.gtc (d.fireTrig_rest n skipped) :)
  have hfirings : (d.fireTrig n skipped).firings = d.firings := (congrArg Dev.firings (d.fireTrig_rest n skipped) :)
  have hslot : (d.fireTrig n skipped).slotS n = d.slotS n := (congrArg (Dev.slotS · n) (d.fireTrig_rest n skipped) :)
  have hact : ∀ f, (d.fireTrig n skipped).get (R.SLOT_ACT n) f = d.get (R.SLOT_ACT n) f := fun f => by
    refine Dev.get_of_reg ?_ f
    rw [Dev.reg_fireTrig, if_neg (slotTrig_ne_act n)]
  have hrep : (d.fireTrig n skipped).replaying = false := by
    rw [← hl]
    refine Dev.flag_of_reg ?_ _
    rw [Dev.reg_fireTrig, if_neg (rplStat_ne_slotTrig hn)]
  have hbase : ∀ e : Dev, e = (d.fireTrig n skipped).setSlot n (d.firedSlot n) →
      (if e.get (R.SLOT_ACT n) F.SLOT_ACT_ACTION = 0 ∨ (e.replaying ∧ liveAction (e.get (R.SLOT_ACT n) F.SLOT_ACT_ACTION)) then e
        else { e with firings := firingInsert e.firings (e.slotFiring n (e.gtc + 8)) }) = d.fireBase n skipped := by
    rintro e rfl
    have hact' : ∀ f, ((d.fireTrig n skipped).setSlot n (d.firedSlot n)).get (R.SLOT_ACT n) f = d.get (R.SLOT_ACT n) f := hact
    have hrep' : ((d.fireTrig n skipped).setSlot n (d.firedSlot n)).replaying = false := hrep
    have hfire : ((d.fireTrig n skipped).setSlot n (d.firedSlot n)).slotFiring n
        (((d.fireTrig n skipped).setSlot n (d.firedSlot n)).gtc + 8) = d.firingOf n := by
      simp only [Dev.slotFiring, hact', Dev.setSlot_gtc, hgtc]
      rfl
    rw [hact', hrep', hfire, Dev.fireBase]
    by_cases hz : d.get (R.SLOT_ACT n) F.SLOT_ACT_ACTION = 0
    · rw [if_pos (.inl hz), if_pos (show (d.firingOf n).action = 0 from hz), ← hfirings]
      rfl
    · rw [if_neg (by simp [hz]), if_neg (show ¬(d.firingOf n).action = 0 from hz), ← hfirings]
      rfl
  refine ⟨(d.fireBase n skipped).recFire n skipped (d.gtc + 8), ?_, ?_⟩
  rotate_left
  · have htail : d.fireSlot n skipped = Dev.fireTail n skipped ((d.fireTrig n skipped).setSlot n (d.firedSlot n)) := by
      rw [Dev.fireSlot_tail, hslot, hgtc]
      rfl
    have hegtc : ((d.fireTrig n skipped).setSlot n (d.firedSlot n)).gtc = d.gtc := by rw [Dev.setSlot_gtc, hgtc]
    generalize he : (d.fireTrig n skipped).setSlot n (d.firedSlot n) = e at htail hegtc
    rw [htail, Dev.fireTail]
    simp only [hbase e he.symm]
    rw [hegtc]
  · exact Quiet.ite _ (fun _ => Dev.emit_quiet _ _) fun _ => Quiet.refl _

/-- Before its record and event a firing has changed its slot, the actions on their way, and its register. -/
theorem Dev.fireBase_frame : FrameOn slotPart [R.SLOT_TRIG n, R.TL_LAST_SKIP] d (d.fireBase n skipped) := by
  have hp := slotPart_part
  have hflags := ((FrameOn.refl hp [R.SLOT_TRIG n, R.TL_LAST_SKIP] d).putB hp F.SLOT_TRIG_FIRED true
    (show R.SLOT_TRIG n ∈ _ by simp)).putB hp F.SLOT_TRIG_SKIPPED skipped (show R.SLOT_TRIG n ∈ _ by simp)
  have htrig : FrameOn slotPart [R.SLOT_TRIG n, R.TL_LAST_SKIP] d (d.fireTrig n skipped) :=
    FrameOn.ite (fun _ => hflags) fun _ => hflags.putB hp _ _ (by simp)
  exact htrig.part hp rfl fun _ => rfl

/-- What a firing does. -/
theorem Dev.fireSlot_fires (hl : d.replaying = false) (hn : n < nSlots) :
    Fires d (d.fireSlot n skipped) n skipped ∧ (d.fireSlot n skipped).slotS n = d.firedSlot n := by
  have hp := slotPart_part
  obtain ⟨e, hq, heq⟩ := d.fireSlot_eq n skipped hl hn
  have hreg : ∀ f, e.flag (R.SLOT_TRIG n) f = (d.fireTrig n skipped).flag (R.SLOT_TRIG n) f := fun f => hq.flag (eventReg_slotTrig hn) f
  have hslot : ∀ j, e.slotS j = if j = n then d.firedSlot n else d.slotS j := fun j => by
    have hset : e.slotS j = ((d.fireTrig n skipped).setSlot n (d.firedSlot n)).slotS j := hq.slotS j
    have hold : (d.fireTrig n skipped).slotS j = d.slotS j := (congrArg (Dev.slotS · j) (d.fireTrig_rest n skipped) :)
    rw [hset, Dev.slotS_setSlot, hold]
  have hfir : e.firings = if (d.firingOf n).action = 0 then d.firings else firingInsert d.firings (d.firingOf n) := hq.firings
  have hlast : e.reg R.TL_LAST_SKIP = d.reg R.TL_LAST_SKIP := by
    have hbase : e.reg R.TL_LAST_SKIP = (d.fireTrig n skipped).reg R.TL_LAST_SKIP := hq.reg (by decide)
    rw [hbase, Dev.reg_fireTrig, if_neg (slotTrig_ne_lastSkip n).symm]
  have hframe := (d.fireBase_frame n skipped).quiet hp hq
  obtain ⟨hfired, hskip, harmed⟩ := d.fireTrig_flags n skipped
  have hdec : (d.firedSlot n).decAt = d.gtc + 1 := rfl
  rw [heq]
  cases skipped with
  | false =>
    refine ⟨⟨hframe, fun j hj => (hslot j).trans (if_neg hj), (hreg _).trans hfired, (hreg _).trans hskip, (hreg _).trans harmed,
      ?_, hfir, fun h => absurd h (by decide), fun _ => hlast⟩, (hslot n).trans (if_pos rfl)⟩
    rw [if_neg (by decide), hslot, if_pos rfl, hdec]
  | true =>
    rw [if_pos rfl]
    have hnote : Quiet (e.lastSkip n) ((e.lastSkip n).raise Pg.TL Ev.SLOT_SKIPPED) := Dev.raise_quiet _ _ _
    have hkeep : ∀ f, ((e.lastSkip n).raise Pg.TL Ev.SLOT_SKIPPED).flag (R.SLOT_TRIG n) f = e.flag (R.SLOT_TRIG n) f := fun f => by
      refine (hnote.flag (eventReg_slotTrig hn) f).trans (Dev.flag_of_reg ?_ f)
      rw [Dev.lastSkip, Dev.reg_put_ne _ _ _ (slotTrig_ne_lastSkip n), Dev.bump, Dev.addSat, Dev.reg_put_ne _ _ _ (slotTrig_ne_lastSkip n)]
    have hsl : ∀ j, ((e.lastSkip n).raise Pg.TL Ev.SLOT_SKIPPED).slotS j = e.slotS j := fun j => hnote.slotS j
    refine ⟨⟨?_, fun j hj => ?_, ?_, ?_, ?_, ?_, ?_, fun _ => ⟨?_, Dev.raise_raised _ rfl⟩, fun h => absurd h (by decide)⟩, ?_⟩
    · exact ((hframe.put hp _ _ (by simp)).put hp _ _ (by simp)).quiet hp hnote
    · rw [hsl, hslot, if_neg hj]
    · rw [hkeep, hreg, hfired]
    · rw [hkeep, hreg, hskip]
    · rw [hkeep, hreg, harmed]; rfl
    · rw [hsl, hslot, if_pos rfl, hdec]
    · exact hnote.firings.trans hfir
    · rw [hnote.get (by decide), Dev.lastSkip, Dev.get_put_self _ _ _ _ (by decide)]
      exact Nat.mod_eq_of_lt (Nat.lt_of_lt_of_le hn (by decide))
    · rw [hsl, hslot, if_pos rfl]

end

/-- A firing from a slot whose record has been renewed first. -/
theorem Dev.fireSlot_renewed {d : Dev} {n : Nat} (q : SlotSt) (skipped : Bool) (hl : d.replaying = false) (hn : n < nSlots) :
    Fires d ((d.setSlot n q).fireSlot n skipped) n skipped ∧
      ((d.setSlot n q).fireSlot n skipped).slotS n = { q with decAt := d.gtc + 1, waitRearm := ((d.setSlot n q).firedSlot n).waitRearm } := by
  obtain ⟨⟨hframe, hslot, hrest⟩, hself⟩ := (d.setSlot n q).fireSlot_fires n skipped hl hn
  refine ⟨⟨hframe, fun j hj => (hslot j hj).trans ?_, hrest⟩, hself.trans ?_⟩
  · rw [Dev.slotS_setSlot, if_neg hj]
  · rw [Dev.firedSlot, Dev.slotS_setSlot_self]
    rfl

/-! ### The decisions -/

section
variable {d : Dev} {n : Nat}

theorem lt_of_slotReady {ty : Nat} (h : d.slotReady n ty = true) : n < nSlots := by
  simp only [Dev.slotReady, Bool.and_eq_true, decide_eq_true_eq] at h
  exact h.1.1.1

/-- An ANGLE slot that re-arms waits until its angle is away (R77). -/
theorem firedSlot_rearms (h : d.slotReady n 3 = true) : (d.firedSlot n).waitRearm = d.flag (R.SLOT_TRIG n) F.SLOT_TRIG_REARM := by
  have hty : d.get (R.SLOT_TRIG n) F.SLOT_TRIG_TYPE = 3 := by
    simp only [Dev.slotReady, Bool.and_eq_true, beq_iff_eq] at h
    exact h.2
  simp [Dev.firedSlot, Dev.slotStays, hty]

/-- How far the argument of an ABSOLUTE slot is away (R73). -/
def Dev.absDist (d : Dev) (n : Nat) : Int := sext 32 (wrapN 32 ((d.reg (R.SLOT_ARG n)).toNat - (d.gtc % 2 ^ 32 : Nat) : Int))

theorem Dev.absoluteDecide_due (h : d.slotReady n 0 = true) (hx : d.absDist n ≤ 8) :
    d.absoluteDecide n = d.fireSlot n (decide (d.absDist n < 8)) :=
  if_pos (by rw [h]; exact decide_eq_true hx)

theorem Dev.absoluteDecide_early (hx : 8 < d.absDist n) : d.absoluteDecide n = d :=
  if_neg (by
    rw [Bool.and_eq_true, decide_eq_true_eq]
    exact fun hc => absurd hc.2 (Int.not_le.2 hx))

theorem Dev.periodicDecide_due (h : d.slotReady n 1 = true) (hx : (d.slotS n).nextF ≤ d.gtc + 8) : d.periodicDecide n =
    (d.setSlot n { d.slotS n with nextF := (d.slotS n).nextF + max (d.get (R.SLOT_ARG n) F.SLOT_ARG_ARG) 16 }).fireSlot n false :=
  if_pos (by rw [h]; exact decide_eq_true hx)

theorem Dev.periodicDecide_early (hx : d.gtc + 8 < (d.slotS n).nextF) : d.periodicDecide n = d :=
  if_neg (by
    rw [Bool.and_eq_true, decide_eq_true_eq]
    omega)

/-- A CARRIER slot takes an event that is due: it counts it, and fires where the count has passed CDIV (R75). -/
theorem Dev.carrierDecide_one (h : d.slotReady n 2 = true) {e : Nat} {late : Bool}
    (hdue : dueEvents d.gtc (d.get (R.SLOT_ARG n) F.SLOT_ARG_ARG % 2 ^ 20) (d.slotEvents n) = [(e, late)]) :
    d.carrierDecide n =
      if d.get (R.SLOT_TRIG n) F.SLOT_TRIG_CDIV ≤ (d.slotS n).cnt then
        (d.setSlot n { d.slotS n with cnt := 0, lastEv := e + 1 }).fireSlot n late
      else d.setSlot n { d.slotS n with cnt := (d.slotS n).cnt + 1, lastEv := e + 1 } := by
  simp only [Dev.carrierDecide, h, hdue, Bool.not_true, Bool.false_eq_true, if_false, List.getLast?_singleton, countEvents]
  by_cases hc : d.get (R.SLOT_TRIG n) F.SLOT_TRIG_CDIV ≤ (d.slotS n).cnt
  · rw [if_pos hc, if_pos (Nat.lt_succ_of_le hc)]
  · rw [if_neg hc, if_neg (by omega)]

theorem dueEvents_one {now off e : Nat} (h : e + off ≤ now + 8) : dueEvents now off [e] = [(e, false)] := by
  simp [dueEvents, h]

theorem dueEvents_late {now off e1 e2 : Nat} (h1 : now + 8 < e1 + off) (h2 : e2 ≤ now) (h3 : now + 8 < e2 + off) :
    dueEvents now off [e1, e2] = [(e1, true)] := by
  simp [dueEvents, h2, Nat.not_le.2 h1, Nat.not_le.2 h3]

/-- Whether a slot's directions take its track's crossing (R76). -/
def Dev.admitted (d : Dev) (n : Nat) : Prop :=
  (d.crossing n = 1 ∧ (d.get (R.SLOT_TRIG n) F.SLOT_TRIG_DIR = 0 ∨ d.get (R.SLOT_TRIG n) F.SLOT_TRIG_DIR = 1)) ∨
    (d.crossing n = -1 ∧ (d.get (R.SLOT_TRIG n) F.SLOT_TRIG_DIR = 0 ∨ d.get (R.SLOT_TRIG n) F.SLOT_TRIG_DIR = 2))

section
variable {k : Nat} (hk : d.get (R.SLOT_TRIG n) F.SLOT_TRIG_SRC = k) (h : d.slotReady n 3 = true)
include hk h

/-- An ANGLE slot whose angle is crossed in an admitted direction fires, but where a jump carried it across the wrong way (R76 to R78). -/
theorem Dev.angleDecide_crossed (hlt : k < nTracks) (hw : (d.slotS n).waitRearm = false) (ha : (d.slotS n).armTick < d.gtc)
    (hx : d.admitted n) : d.angleDecide n =
    if (d.trkS k).jumpAt = d.gtc + 1 ∧ ¬(0 < (d.trkS k).jump * (d.trkS k).spd ∧ 0 < (d.trkS k).jump * d.crossing n) then d
    else d.fireSlot n ((d.trkS k).jumpAt == d.gtc + 1) := by
  have hadmit : ((d.crossing n == 1 && (d.get (R.SLOT_TRIG n) F.SLOT_TRIG_DIR == 0 || d.get (R.SLOT_TRIG n) F.SLOT_TRIG_DIR == 1))
      || (d.crossing n == -1 && (d.get (R.SLOT_TRIG n) F.SLOT_TRIG_DIR == 0 || d.get (R.SLOT_TRIG n) F.SLOT_TRIG_DIR == 2))) = true := by
    simpa only [Dev.admitted, Bool.or_eq_true, Bool.and_eq_true, beq_iff_eq] using hx
  simp only [Dev.angleDecide, hk, h, hlt, hw, ha, hadmit, decide_true, Bool.not_false, Bool.and_self, Bool.true_and]
  by_cases hj : (d.trkS k).jumpAt = d.gtc + 1
  · by_cases hal : 0 < (d.trkS k).jump * (d.trkS k).spd ∧ 0 < (d.trkS k).jump * d.crossing n
    · rw [if_pos (by simp [hal]), if_neg (by tauto)]
    · rw [if_neg, if_pos ⟨hj, hal⟩]
      simp only [hj, BEq.rfl, Bool.not_true, Bool.false_or, Bool.and_eq_true, decide_eq_true_eq]
      exact hal
  · rw [if_pos (by simp [hj]), if_neg (by tauto)]

theorem Dev.angleRearm_eq : d.angleRearm n =
    if (d.slotS n).waitRearm = true ∧
        2 ^ 38 ≤ (sext 40 (wrap40 ((d.trkP k : Int) - (d.get (R.SLOT_ARG n) F.SLOT_ARG_ARG % 2 ^ 20 * 2 ^ 20 : Nat)))).natAbs then
      d.setSlot n { d.slotS n with waitRearm := false }
    else d := by
  have hcnt : 2 ^ 18 * cnt20 = 2 ^ 38 := rfl
  simp only [Dev.angleRearm, hk, h, hcnt, Bool.true_and, Bool.and_eq_true, decide_eq_true_eq, ge_iff_le]

end

end

/-- Settles O15, by the decision of each type and by what a firing does. -/
theorem slotsFire : Obligations.SlotsFire := by
  refine ⟨fun s n hlive => ⟨fun hr => ⟨fun hx => ?_, fun hx => ?_⟩, fun hr => ⟨fun hx => ?_, fun hx => ?_⟩⟩,
    fun s n e1 e2 hlive hr => ⟨fun hev hdue => ⟨fun hc => ?_, fun hc => ?_⟩, fun hev h1 h2 h3 hc => ?_⟩, fun s n hlive hr => ?_⟩
  · exact ⟨_, onPart_eq hlive (Dev.absoluteDecide_due hr hx), (s.dev.fireSlot_fires n _ hlive.2 (lt_of_slotReady hr)).1⟩
  · exact onPart_same hlive (Dev.absoluteDecide_early hx)
  · obtain ⟨hfires, hslot⟩ := Dev.fireSlot_renewed (d := s.dev) { s.dev.slotS n with
      nextF := (s.dev.slotS n).nextF + max (s.dev.get (R.SLOT_ARG n) F.SLOT_ARG_ARG) 16 } false hlive.2 (lt_of_slotReady hr)
    refine ⟨_, onPart_eq hlive (Dev.periodicDecide_due hr hx), hfires, ?_⟩
    rw [hslot]
  · exact onPart_same hlive (Dev.periodicDecide_early hx)
  · have hone := Dev.carrierDecide_one hr (by rw [hev]; exact dueEvents_one hdue)
    rw [if_neg (by omega)] at hone
    exact onPart_eq hlive hone
  · have hone := Dev.carrierDecide_one hr (by rw [hev]; exact dueEvents_one hdue)
    rw [if_pos hc] at hone
    obtain ⟨hfires, hslot⟩ := Dev.fireSlot_renewed (d := s.dev) { s.dev.slotS n with cnt := 0, lastEv := e1 + 1 } false hlive.2
      (lt_of_slotReady hr)
    refine ⟨_, onPart_eq hlive hone, hfires, ?_⟩
    rw [hslot]
    exact ⟨rfl, rfl⟩
  · have hone := Dev.carrierDecide_one hr (by rw [hev]; exact dueEvents_late h1 h2 h3)
    rw [if_pos hc] at hone
    obtain ⟨hfires, hslot⟩ := Dev.fireSlot_renewed (d := s.dev) { s.dev.slotS n with cnt := 0, lastEv := e1 + 1 } true hlive.2
      (lt_of_slotReady hr)
    refine ⟨_, onPart_eq hlive hone, hfires, ?_⟩
    rw [hslot]
    exact ⟨rfl, rfl⟩
  · intro d k dir far
    have hlt := lt_of_slotReady hr
    have hrearm := Dev.angleRearm_eq (k := k) rfl hr
    refine ⟨fun hk hw ha hx => ?_, fun hw hfar => ?_, fun hfar => ?_⟩
    · have hcross := Dev.angleDecide_crossed (k := k) rfl hr hk hw ha hx
      refine ⟨fun hj => ?_, fun hj h1 h2 => ?_, fun hj h1 => ?_⟩
      · rw [if_neg (by tauto), beq_eq_false_iff_ne.2 hj] at hcross
        obtain ⟨hfires, hslot⟩ := d.fireSlot_fires n false hlive.2 hlt
        refine ⟨_, onPart_eq hlive hcross, hfires, ?_⟩
        rw [hslot]
        exact firedSlot_rearms hr
      · rw [if_neg (by tauto), beq_iff_eq.2 hj] at hcross
        exact ⟨_, onPart_eq hlive hcross, (d.fireSlot_fires n true hlive.2 hlt).1⟩
      · rw [if_pos ⟨hj, fun hc => absurd hc.1 (Int.not_lt.2 h1)⟩] at hcross
        exact onPart_same hlive hcross
    · rw [if_pos ⟨hw, hfar⟩] at hrearm
      exact onPart_eq hlive hrearm
    · rw [if_neg (fun hc => absurd hc.2 (Nat.not_le.2 hfar))] at hrearm
      exact onPart_same hlive hrearm

end Sys2Proof.Machine
end

section
/-! PROOFS. Releases of legs and trips of comparators: what they may change (R146 to R152, R308 to R310). -/

namespace Sys2Proof.Machine

/-! ### A frame within a wider one -/

section
variable {p q : Dev → Dev → Dev} {l m : List Nat} {d e : Dev}

theorem FrameOn.of_quiet (hp : Part p) (l : List Nat) (h : Quiet d e) : FrameOn p l d e := (FrameOn.refl hp l d).quiet hp h

/-- A frame is one with more parts and more registers. -/
theorem FrameOn.widen (hp : Part p) (hq : Part q) (hpq : ∀ d e, q (p d e) e = q d e) (hl : ∀ a ∈ l, a ∈ m) (h : FrameOn p l d e) :
    FrameOn q m d e := by
  obtain ⟨hcalm, hreg, hraw⟩ := h
  refine ⟨?_, fun a ha hm => ?_, fun k i hm hx => ?_⟩
  · have hself : e.calm = q e.calm e := by rw [← hq.calm, hq.self]
    rw [hself, hcalm, hp.calm, hpq, hq.calm]
  · rw [hreg a ha fun hx => hm (hl _ hx), hp.reg, hq.reg]
  · refine hraw k i (fun hx => hm (hl _ hx)) ?_
    rw [hp.reg]
    rw [hq.reg] at hx
    exact hx

/-- One more operation, by what it does on any device. -/
theorem FrameOn.then (hp : Part p) (h : FrameOn p l d e) {f : Dev → Dev} (hf : ∀ d, FrameOn p l d (f d)) : FrameOn p l d (f e) :=
  h.trans hp (hf e)

theorem FrameOn.forN (hp : Part p) {f : Nat → Dev → Dev} (n : Nat) (hf : ∀ k, k < n → ∀ e, FrameOn p l e (f k e)) (d : Dev) :
    FrameOn p l d (forN n f d) :=
  forN_keeps n (fun k hk e he => he.trans hp (hf k hk e)) (FrameOn.refl hp l d)

end

/-! ### Releases of legs -/

/-- Groups and their legs. -/
def grpPart (d e : Dev) : Dev := { d with grp := e.grp }

theorem grpPart_part : Part grpPart := ⟨fun _ => rfl, fun _ _ _ => rfl, fun _ _ => rfl, fun _ _ _ => rfl⟩

/-- The groups that may be paired with a group (R278). -/
def pairIs (g h : Nat) : Prop := h = g + 1 ∨ h = g - 1

theorem Dev.pairIs_of_pairOf {d : Dev} {g h : Nat} (hp : d.pairOf g = some h) : g < 12 ∧ pairIs g h := by
  rw [Dev.pairOf, Dev.primOf] at hp
  split at hp
  · next hc => exact ⟨hc.1, .inr (Option.some.inj hp).symm⟩
  · rw [Option.orElse, Dev.secOf] at hp
    split at hp
    · next hc => exact ⟨hc.1, .inl (Option.some.inj hp).symm⟩
    · cases hp

/-- The flag register of a group's page. -/
def gdFlag (g : Nat) : Nat := if g < 12 then R.GDT_FLAG else R.GDA_FLAG

theorem gdFlag_or (g : Nat) : gdFlag g = R.GDT_FLAG ∨ gdFlag g = R.GDA_FLAG := by
  rw [gdFlag]
  split
  · exact .inl rfl
  · exact .inr rfl

/-- Registers of a group that a release of its legs writes. -/
def gdRegs (g : Nat) : List Nat := [gdFlag g, gdLstat g, (relCnt g).1]

theorem Dev.recAmend_quiet (d : Dev) (r : RecRec) : Quiet d (d.recAmend r) := Quiet.of_regs rfl fun _ => rfl

section
variable {l : List Nat} {d e : Dev} {g : Nat}

theorem FrameOn.gdEvent {p : Dev → Dev → Dev} (hp : Part p) (h : FrameOn p l d e) (hl : ∀ a ∈ gdRegs g, a ∈ l) (src : Nat) :
    FrameOn p l d (e.gdEvent g src) := by
  rw [Dev.gdEvent]
  refine FrameOn.quiet hp ?_ (Dev.raiseN_quiet _ _ _ _)
  have hflag : gdFlag g ∈ l := hl _ (List.mem_cons_self ..)
  rw [gdFlag] at hflag
  split
  · next hg => exact h.orReg hp _ (by rwa [if_pos hg] at hflag)
  · next hg => exact h.orReg hp _ (by rwa [if_neg hg] at hflag)

theorem FrameOn.unbump {p : Dev → Dev → Dev} (hp : Part p) (h : FrameOn p l d e) {a : Nat} (f : RField) (ha : a ∈ l) :
    FrameOn p l d (e.unbump a f) := by
  rw [Dev.unbump]
  exact FrameOn.ite (fun _ => h) fun _ => h.put hp _ _ ha

theorem FrameOn.bump {p : Dev → Dev → Dev} (hp : Part p) (h : FrameOn p l d e) {a : Nat} (f : RField) (ha : a ∈ l) :
    FrameOn p l d (e.bump a f) := h.put hp _ _ ha

theorem FrameOn.setGrp (h : FrameOn grpPart l d e) (k : Nat) (v : GrpSt) : FrameOn grpPart l d (e.setGrp k v) :=
  h.part grpPart_part rfl fun _ => rfl

theorem FrameOn.setLeg (h : FrameOn grpPart l d e) (k x : Nat) (q : LegSt) : FrameOn grpPart l d (e.setLeg k x q) := h.setGrp k _

variable (hl : ∀ a ∈ gdRegs g, a ∈ l)
include hl

theorem Dev.recause_frame (d : Dev) (x cause : Nat) : FrameOn grpPart l d (d.recause g x cause) := by
  have hp := grpPart_part
  have h0 := FrameOn.refl hp l d
  have hstat : gdLstat g ∈ l := hl _ (by simp [gdRegs])
  have hcnt : (relCnt g).1 ∈ l := hl _ (by simp [gdRegs])
  rw [Dev.recause]
  refine FrameOn.put hp (FrameOn.quiet hp ?_ (Dev.recAmend_quiet _ _)) _ _ hstat
  exact FrameOn.ite (fun _ => h0.unbump hp _ hcnt) fun _ => FrameOn.ite (fun _ => h0.bump hp _ hcnt) fun _ => h0

theorem Dev.relLeg_frame (d : Dev) (x cause : Nat) : FrameOn grpPart l d (d.relLeg g x cause) := by
  have hp := grpPart_part
  have hstat : gdLstat g ∈ l := hl _ (by simp [gdRegs])
  have hcnt : (relCnt g).1 ∈ l := hl _ (by simp [gdRegs])
  have hrel : (if g < 12 then R.GDT_CNT g else R.GDA_CNT (g - 12)) ∈ l := by
    have hc := hcnt
    rw [relCnt] at hc
    split at hc <;> rename_i hg <;> simpa only [hg, if_true, if_false] using hc
  have h0 := (FrameOn.refl hp l d).setLeg g x { d.legS g x with causeAt := d.gtc + 1 }
  rw [Dev.relLeg]
  refine FrameOn.ite (fun _ => FrameOn.ite (fun _ => h0.then hp fun e => e.recause_frame hl x cause) fun _ => h0) fun _ => ?_
  refine FrameOn.gdEvent hp (FrameOn.quiet hp ?_ (Dev.emitProt_quiet _ _)) hl _
  have h1 := ((h0.putB hp (F.GDT_LSTAT_REL x) true hstat).put hp (F.GDT_LSTAT_CAUSE x) cause hstat).setLeg g x
  refine FrameOn.ite (fun _ => FrameOn.bump hp ?_ _ hcnt) fun _ => ?_
  all_goals
    refine FrameOn.ite (fun hg => FrameOn.bump hp (h1 _) _ ?_) fun hg => FrameOn.bump hp (h1 _) _ ?_
    all_goals simpa only [hg, if_true, if_false] using hrel

theorem Dev.relMask_frame (d : Dev) (mask cause : Nat) : FrameOn grpPart l d (d.relMask g mask cause) :=
  FrameOn.forN grpPart_part 3 (fun x _ e => FrameOn.ite (fun _ => e.relLeg_frame hl x cause) fun _ => FrameOn.refl grpPart_part l e) d

theorem Dev.gact_frame (d : Dev) : FrameOn grpPart l d ((d.putB (gdLstat g) F.GDT_LSTAT_GACT true).gdEvent g Ev.GRP_ACT) :=
  FrameOn.gdEvent grpPart_part ((FrameOn.refl grpPart_part l d).putB grpPart_part _ _ (hl _ (by simp [gdRegs]))) hl _

omit hl in
theorem Dev.ascLeg_frame (d : Dev) (x : Nat) : FrameOn grpPart l d (d.ascLeg g x) :=
  FrameOn.ite (fun _ => FrameOn.refl grpPart_part l d) fun _ => (FrameOn.refl grpPart_part l d).setGrp _ _

theorem Dev.groupAction_frame (d : Dev) (act : Nat) (hpair : g < 12 → ∀ h, pairIs g h → ∀ a ∈ gdRegs h, a ∈ l) :
    FrameOn grpPart l d (d.groupAction g act) := by
  have hp := grpPart_part
  have hshow := d.gact_frame hl
  rw [Dev.groupAction]
  refine FrameOn.ite (fun _ => ?_) fun _ => FrameOn.ite (fun _ => ?_) fun _ => FrameOn.ite (fun _ => ?_) fun _ => FrameOn.refl hp l d
  · exact (hshow.setGrp g _).then hp fun e => FrameOn.forN hp 3 (fun x _ f => f.ascLeg_frame x) e
  · exact hshow.then hp fun e => e.relMask_frame hl 7 9
  · have hboth := hshow.then hp fun e => e.relMask_frame hl 7 9
    dsimp only
    split
    · next h hh =>
      obtain ⟨hg, hgh⟩ := Dev.pairIs_of_pairOf hh
      have hlh := hpair hg h hgh
      refine FrameOn.then hp ?_ fun e => e.relMask_frame hlh 7 9
      exact FrameOn.ite (fun _ => hboth) fun _ => hboth.then hp fun e => e.gact_frame hlh
    · exact hboth

theorem Dev.release_frame (d : Dev) (mask cause : Nat) (hpair : g < 12 → ∀ h, pairIs g h → ∀ a ∈ gdRegs h, a ∈ l) :
    FrameOn grpPart l d (d.release g mask cause) :=
  FrameOn.ite (fun _ => (d.relMask_frame hl mask cause).then grpPart_part fun e => e.groupAction_frame hl _ hpair) fun _ =>
    d.relMask_frame hl mask cause

end

/-! ### Trips of comparators -/

/-- Comparators, groups and their legs. -/
def cmpPart (d e : Dev) : Dev := { d with cmp := e.cmp, grp := e.grp }

theorem cmpPart_part : Part cmpPart := ⟨fun _ => rfl, fun _ _ _ => rfl, fun _ _ => rfl, fun _ _ _ => rfl⟩

/-- Registers that releases of legs write, of any group. -/
def gdAll : List Nat := (List.range 20).flatMap gdRegs

theorem mem_gdAll {g : Nat} (hg : g < 20) {a : Nat} (ha : a ∈ gdRegs g) : a ∈ gdAll := List.mem_flatMap.2 ⟨g, List.mem_range.2 hg, ha⟩

theorem mem_gdAll_pair {g : Nat} (hg : g < 12) {h : Nat} (hp : pairIs g h) {a : Nat} (ha : a ∈ gdRegs h) : a ∈ gdAll := by
  refine mem_gdAll ?_ ha
  rw [pairIs] at hp
  omega

/-- The flags and the status of a comparator. -/
def cmpOwn (c : Nat) : List Nat := [R.CMP_FLAG0 (c / 36), R.CMP_FLAG1 (c / 36), R.CMP_STAT c]

/-- A comparator's record once its blanking follows its sources. -/
def Dev.blankRec (d : Dev) (c : Nat) : CmpSt :=
  let q := d.cmpS c
  let q := if d.cmpBlankSrc c then { q with blankFrom := if q.capped then none else some (q.blankFrom.getD d.gtc) }
    else { q with blankFrom := none, capped := false }
  match q.edgeEnd with
  | some t => if t ≤ d.gtc then { q with edgeEnd := none } else q
  | none => q

/-- The comparator with that record, and BLANKED as it shows it. -/
def Dev.blankShown (d : Dev) (c : Nat) : Dev :=
  (d.setCmp c (d.blankRec c)).putB (R.CMP_STAT c) F.CMP_STAT_BLANKED ((d.setCmp c (d.blankRec c)).cmpBlanked c)

theorem Dev.cmpBlankSync_eq (d : Dev) (c : Nat) : d.cmpBlankSync c =
    if d.flag (R.CMP_STAT c) F.CMP_STAT_BLANKED && !(d.setCmp c (d.blankRec c)).cmpBlanked c then (d.blankShown c).cmpUnmask c
    else d.blankShown c := rfl

section
variable {l : List Nat} {d e : Dev} {c : Nat}

theorem FrameOn.setCmp (h : FrameOn cmpPart l d e) (k : Nat) (v : CmpSt) : FrameOn cmpPart l d (e.setCmp k v) :=
  h.part cmpPart_part rfl fun _ => rfl

theorem FrameOn.toCmp (h : FrameOn grpPart l d e) : FrameOn cmpPart l d e :=
  h.widen grpPart_part cmpPart_part (fun _ _ => rfl) fun _ ha => ha

theorem FrameOn.cmpEvent {p : Dev → Dev → Dev} (hp : Part p) (h : FrameOn p l d e) (hl : ∀ a ∈ cmpOwn c, a ∈ l) (src : Nat) :
    FrameOn p l d (e.cmpEvent c src) := by
  rw [Dev.cmpEvent]
  refine FrameOn.quiet hp ?_ (Dev.raiseN_quiet _ _ _ _)
  exact FrameOn.ite (fun _ => h.orReg hp _ (hl _ (by simp [cmpOwn]))) fun _ => h.orReg hp _ (hl _ (by simp [cmpOwn]))

theorem Dev.release_all {g : Nat} (hg : g < 20) (hgd : ∀ a ∈ gdAll, a ∈ l) (d : Dev) (mask cause : Nat) :
    FrameOn grpPart l d (d.release g mask cause) :=
  d.release_frame (fun _ ha => hgd _ (mem_gdAll hg ha)) mask cause fun hg _ hp _ ha => hgd _ (mem_gdAll_pair hg hp ha)

theorem Dev.protectRelease_frame (hgd : ∀ a ∈ gdAll, a ∈ l) (d : Dev) : FrameOn grpPart l d (d.protectRelease c) :=
  FrameOn.forN grpPart_part 20 (fun _ hg e => FrameOn.ite (fun _ => e.release_all hg hgd _ _) fun _ => FrameOn.refl grpPart_part l e) d

theorem Dev.cutStep_frame (d : Dev) (g x : Nat) (cH cL : Bool) : FrameOn grpPart l d (d.cutStep g x cH cL) :=
  FrameOn.ite (fun _ => FrameOn.refl grpPart_part l d) fun _ => (FrameOn.refl grpPart_part l d).setGrp g _

theorem Dev.limitLeg_frame (d : Dev) (g x : Nat) (offH offL : Bool) : FrameOn grpPart l d (d.limitLeg g x offH offL) :=
  ((FrameOn.refl grpPart_part l d).setLeg g x _).then grpPart_part fun e => e.cutStep_frame _ _ _ _

theorem Dev.limitForce_frame (d : Dev) (upper lower : Bool) : FrameOn grpPart l d (d.limitForce c upper lower) := by
  rw [Dev.limitForce]
  split
  · exact FrameOn.refl grpPart_part l d
  · exact FrameOn.forN grpPart_part 3 (fun x _ e => FrameOn.ite (fun _ => e.limitLeg_frame _ _ _ _) fun _ => FrameOn.refl grpPart_part l e) d

variable (hl : ∀ a ∈ cmpOwn c, a ∈ l)
include hl

theorem Dev.limitEvent_frame (d : Dev) : FrameOn cmpPart l d (d.limitEvent c) :=
  FrameOn.ite (fun _ => FrameOn.refl cmpPart_part l d) fun _ =>
    FrameOn.cmpEvent cmpPart_part ((FrameOn.refl cmpPart_part l d).setCmp c _) hl _

variable (hgd : ∀ a ∈ gdAll, a ∈ l)
include hgd

theorem Dev.cmpAct_frame (d : Dev) (hi lo : Bool) : FrameOn cmpPart l d (d.cmpAct c hi lo) := by
  have hp := cmpPart_part
  have hst : R.CMP_STAT c ∈ l := hl _ (by simp [cmpOwn])
  have h0 := (((FrameOn.refl hp l d).putB hp F.CMP_STAT_LATCHED true hst).bump hp F.CMP_STAT_TRIP_CNT hst).putB hp F.CMP_STAT_LAST_LO (!hi) hst
  rw [Dev.cmpAct]
  refine FrameOn.ite (fun _ => ?_) fun _ => ?_
  · refine FrameOn.cmpEvent hp (FrameOn.quiet hp ?_ (Dev.emitProt_quiet _ _)) hl _
    exact h0.trans hp (Dev.protectRelease_frame hgd _).toCmp
  · have h1 := h0.trans hp (Dev.limitForce_frame (c := c) _ hi lo).toCmp
    refine FrameOn.trans hp ?_ (Dev.limitEvent_frame hl _)
    exact FrameOn.ite (fun _ => h1.quiet hp (Dev.emitProt_quiet _ _)) fun _ => h1

theorem Dev.cmpUnmask_frame (d : Dev) : FrameOn cmpPart l d (d.cmpUnmask c) :=
  FrameOn.ite (fun _ => d.cmpAct_frame hl hgd _ _) fun _ => FrameOn.refl cmpPart_part l d

theorem Dev.cmpBlankSync_frame (d : Dev) : FrameOn cmpPart l d (d.cmpBlankSync c) := by
  have hp := cmpPart_part
  have h1 : FrameOn cmpPart l d (d.blankShown c) :=
    ((FrameOn.refl hp l d).setCmp c _).putB hp F.CMP_STAT_BLANKED _ (hl _ (by simp [cmpOwn]))
  rw [Dev.cmpBlankSync_eq]
  exact FrameOn.ite (fun _ => h1.trans hp (Dev.cmpUnmask_frame hl hgd _)) fun _ => h1

end
end Sys2Proof.Machine
end

section
/-! PROOFS. Open-wire windows (R102 to R105). -/

namespace Sys2Proof.Machine

/-! ### A due action with one target -/

section
variable {d e : Dev} {n code range : Nat} {r : Firing} {present : Nat → Bool} {f : Nat → Dev → Dev}

theorem firingTargets_one (hs : r.span = 0) (ht : r.target < range) : firingTargets r range = [r.target] := by
  simp [firingTargets, hs, ht]

/-- A due action whose one target is present does what it does to that target (R71, R81). -/
theorem Dev.runAction_one (h : d.takeFiring n code = some (r, e)) (hs : r.span = 0) (ht : r.target < range)
    (hp : present r.target = true) : d.runAction n code range present f = f r.target e := by
  simp only [Dev.runAction, h, firingTargets_one hs ht, List.foldl_cons, List.foldl_nil, hp, if_true]

/-- Taking a firing leaves everything but the firings. -/
theorem Dev.takeFiring_eq (h : d.takeFiring n code = some (r, e)) : e = { d with firings := d.firings.erase r } := by
  rw [Dev.takeFiring] at h
  split at h
  · cases h
  · split at h
    · obtain ⟨rfl, rfl⟩ := Prod.mk.inj (Option.some.inj h)
      rfl
    · cases h

theorem Dev.takeFiring_member (h : d.takeFiring n code = some (r, e)) : e.member = d.member := by
  rw [d.takeFiring_eq h]

end

/-! ### What the comparators may change -/

/-- Registers that the comparators write when they act, of any comparator. -/
def tripRegs : List Nat := (List.range 72).flatMap cmpOwn ++ gdAll

theorem nCmp_le (m : Member) : nCmp m ≤ 72 := by
  cases m <;> decide

theorem Dev.cmpBlankSync_trip (d : Dev) {c : Nat} (hc : c < 72) : FrameOn cmpPart tripRegs d (d.cmpBlankSync c) :=
  d.cmpBlankSync_frame (fun _ ha => List.mem_append_left _ (List.mem_flatMap.2 ⟨c, List.mem_range.2 hc, ha⟩))
    fun _ ha => List.mem_append_right _ ha

theorem Dev.owBlankSync_trip (d : Dev) (i : Nat) : FrameOn cmpPart tripRegs d (d.owBlankSync i) :=
  FrameOn.forN cmpPart_part _ (fun _ hc e => FrameOn.ite (fun _ => e.cmpBlankSync_trip (hc.trans_le (nCmp_le _)))
    fun _ => FrameOn.refl cmpPart_part _ e) d

theorem le_of_mem_tripRegs {a : Nat} (h : a ∈ tripRegs) : 0x40040040 ≤ a := by
  simp only [tripRegs, gdAll, List.mem_append, List.mem_flatMap, cmpOwn, gdRegs, gdFlag, gdLstat, relCnt, List.mem_cons, List.not_mem_nil,
    or_false] at h
  obtain ⟨c, -, h⟩ | ⟨g, -, h⟩ := h
  · simp only [R.CMP_FLAG0, R.CMP_FLAG1, R.CMP_STAT] at h
    omega
  · simp only [R.GDT_FLAG, R.GDA_FLAG, R.GDT_LSTAT, R.GDA_LSTAT, R.GDT_CNT, R.GDA_CNT] at h
    split at h <;> simp only at h <;> omega

/-! ### Opening and closing a window -/

section
variable {d e : Dev} {i : Nat}

theorem eventReg_owCfg (hi : i < 96) : eventReg (R.ADA_OW_CFG i) = false := by
  rw [eventReg_eq_false]
  simp only [R.ADA_OW_CFG]
  omega

/-- What the comparators do leaves windows and their configuration. -/
theorem Dev.owBlankSync_owS (d : Dev) (i j : Nat) : (d.owBlankSync i).owS j = d.owS j :=
  congrArg (fun l => spGet _ l j) (congrArg Dev.ow (d.owBlankSync_trip i).1 :)

theorem Dev.owBlankSync_owCurrent (d : Dev) (i : Nat) {j : Nat} (hj : j < 96) : (d.owBlankSync i).owCurrent j = d.owCurrent j := by
  have hreg : (d.owBlankSync i).reg (R.ADA_OW_CFG j) = d.reg (R.ADA_OW_CFG j) :=
    (d.owBlankSync_trip i).reg cmpPart_part (eventReg_owCfg hj) fun h => by
      have := le_of_mem_tripRegs h
      simp only [R.ADA_OW_CFG] at this
      omega
  simp only [Dev.owCurrent, Dev.flag_of_reg hreg, Dev.get_of_reg hreg, d.owBlankSync_owS]

/-- A window opens where none is open and the mode asks for one (R102, R105). -/
theorem Dev.owOn_opens (hm : d.get (R.ADA_OW_CFG i) F.ADA_OW_CFG_MODE = 1 ∨ d.get (R.ADA_OW_CFG i) F.ADA_OW_CFG_MODE = 2)
    (hen : d.flag R.ADA_CTRL F.ADA_CTRL_OW_EN = true) (hno : ∀ w ∈ d.owS i, w.off ≠ none) :
    ∃ kept, d.owOn i = d.setOw i (kept ++ [{ on := d.gtc }]) := by
  have hany : (d.owS i).any (fun w => w.off.isNone) = false := by
    rw [List.any_eq_false]
    exact fun w hw => by simpa using hno w hw
  refine ⟨_, if_pos ?_⟩
  simpa [hen, hany] using hm

theorem Dev.owCurrent_open (h : ∃ w ∈ d.owS i, w.off = none) (hm : d.get (R.ADA_OW_CFG i) F.ADA_OW_CFG_MODE = 1 ∨
    d.get (R.ADA_OW_CFG i) F.ADA_OW_CFG_MODE = 2) : d.owCurrent i =
    (if d.get (R.ADA_OW_CFG i) F.ADA_OW_CFG_MODE = 1 then 1 else -1) * (if d.flag (R.ADA_OW_CFG i) F.ADA_OW_CFG_CUR then 50 else 10) := by
  have hany : (d.owS i).any (fun w => w.off.isNone) = true := by
    rw [List.any_eq_true]
    obtain ⟨w, hw, ho⟩ := h
    exact ⟨w, hw, by rw [ho]; rfl⟩
  simp only [Dev.owCurrent, hany, Bool.not_true, Bool.false_eq_true, if_false]
  obtain h1 | h2 := hm
  · rw [if_pos h1, if_pos h1, one_mul]
  · have h1 : ¬d.get (R.ADA_OW_CFG i) F.ADA_OW_CFG_MODE = 1 := by rw [h2]; decide
    rw [if_neg h1, if_pos h2, if_neg h1, neg_one_mul]

theorem Dev.owCurrent_closed (h : ∀ w ∈ d.owS i, w.off ≠ none) : d.owCurrent i = 0 := by
  have hany : (d.owS i).any (fun w => w.off.isNone) = false := by
    rw [List.any_eq_false]
    exact fun w hw => by simpa using h w hw
  simp only [Dev.owCurrent, hany, Bool.not_false, if_true]

theorem Dev.owOff_owS (d : Dev) (i : Nat) : (d.owOff i).owS i =
    (d.owS i).map fun w => if w.off = none then { w with off := some d.gtc } else w := by
  rw [Dev.owOff, Dev.owS_setOw_self]
  refine List.map_congr_left fun w _ => ?_
  cases w.off <;> rfl

theorem Dev.owOff_closed (d : Dev) (i : Nat) : ∀ w ∈ (d.owOff i).owS i, w.off ≠ none := by
  rw [d.owOff_owS, List.forall_mem_map]
  intro w _
  split
  · exact Option.some_ne_none _
  · next h => exact h

theorem nInputs_le (m : Member) : nInputs m ≤ 96 := by
  cases m <;> decide

end

/-! ### The verdict -/

section
variable {d : Dev} {i : Nat} {w : OwSt}

/-- The window that an evaluation takes (R104). -/
theorem Dev.owEvaluation_eq (hf : d.frozen Pg.ADA = false)
    (h : (d.owS i).find? (fun v => !v.done && v.off.any fun f => decide (f + 40 ≤ d.gtc)) = some w) :
    d.owEvaluation i = (d.setOw i ((d.owS i).map fun v => if v = w then { v with done := true } else v)).owVerdict i w := by
  have hcongr : ∀ (l : List OwSt) (f g : OwSt → Bool), (∀ v, f v = g v) → l.find? f = l.find? g :=
    fun l f g hfg => congrArg (List.find? · l) (funext hfg)
  rw [Dev.owEvaluation, if_neg (by rw [hf]; exact Bool.false_ne_true)]
  split
  · next hnone => exact absurd (hnone.symm.trans ((hcongr _ _ _ fun v => by cases v.off <;> rfl).trans h)) (by simp)
  · next v hsome =>
    obtain rfl : v = w := Option.some.inj (hsome.symm.trans ((hcongr _ _ _ fun v => by cases v.off <;> rfl).trans h))
    simp only [beq_iff_eq]

theorem owOpen_iff (mode thr n sum : Nat) :
    owOpen mode thr n sum = true ↔ (mode = 1 ∧ thr * 64 * (4 * n) ≤ sum) ∨ (mode = 2 ∧ sum ≤ thr * 64 * (4 * n)) := by
  rw [owOpen]
  split
  · next h => simp [h]
  · next h => split <;> next h2 => simp [h, h2]

end

/-- Settles O19: windows are opened, closed and judged on the device; the comparators that a window blanks leave it alone. -/
theorem openWireWindows : Obligations.OpenWireWindows := by
  intro s hlive
  refine ⟨fun n r d ht hs hlt => ?_, fun n r d ht hs hlt => ?_, fun i w hi hf hfind => ?_⟩
  · intro mode hm hen hno
    have hi : r.target < 96 := hlt.trans_le (nInputs_le _)
    have hrun := Dev.runAction_one (f := fun i e => (e.owOn i).owBlankSync i) (present := fun i => decide (i < nInputs s.dev.member)) ht hs hi
      (by rw [← s.dev.takeFiring_member ht]; exact decide_eq_true hlt)
    obtain ⟨kept, hon⟩ := Dev.owOn_opens hm hen hno
    have hmem : ({ on := d.gtc } : OwSt) ∈ (d.owOn r.target).owS r.target := by
      rw [hon, Dev.owS_setOw_self]
      exact List.mem_append_right _ (List.mem_singleton.2 rfl)
    refine ⟨_, onLive_eq hlive hrun, ?_, fun j hj => ?_, ?_⟩
    · rw [Dev.owBlankSync_owS]
      exact hmem
    · rw [Dev.owBlankSync_owS, hon, Dev.owS_setOw, if_neg hj]
    · rw [Dev.owBlankSync_owCurrent _ _ hi, Dev.owCurrent_open ⟨_, hmem, rfl⟩ (by rw [hon]; exact hm), hon]
      rfl
  · have hi : r.target < 96 := hlt.trans_le (nInputs_le _)
    have hrun := Dev.runAction_one (f := fun i e => (e.owOff i).owBlankSync i) (present := fun i => decide (i < nInputs s.dev.member)) ht hs hi
      (by rw [← s.dev.takeFiring_member ht]; exact decide_eq_true hlt)
    refine ⟨_, onLive_eq hlive hrun, fun j hj => ?_, ?_, ?_⟩
    · rw [Dev.owBlankSync_owS, Dev.owOff, Dev.owS_setOw, if_neg hj]
    · rw [Dev.owBlankSync_owCurrent _ _ hi]
      exact Dev.owCurrent_closed (d.owOff_closed _)
    · rw [Dev.owBlankSync_owS]
      exact d.owOff_owS _
  · have hev := Dev.owEvaluation_eq hf hfind
    intro d mode lim
    refine ⟨fun hn => ?_, fun hn ho => ?_, fun hn ho => ?_⟩
    · rw [Dev.owVerdict, if_pos hn] at hev
      exact ⟨_, onLive_eq hlive hev, Dev.raiseN_quiet _ _ _ _, Dev.raiseN_raised _ _ rfl⟩
    · rw [Dev.owVerdict, if_neg (Nat.not_lt.2 hn), if_pos ((owOpen_iff _ _ _ _).2 ho)] at hev
      exact ⟨_, onLive_eq hlive hev, Dev.raiseN_quiet _ _ _ _, Dev.raiseN_raised _ _ rfl⟩
    · rw [Dev.owVerdict, if_neg (Nat.not_lt.2 hn), if_neg fun h => ho ((owOpen_iff _ _ _ _).1 h)] at hev
      exact onLive_eq hlive hev

end Sys2Proof.Machine
end

section
/-! PROOFS. The physical slices of Bank A: their states, their calibration (R94, R95, R101). -/

namespace Sys2Proof.Machine

/-! ### Signed fields -/

theorem sext_wrapN {k : Nat} {x : Int} (hlo : -(2 ^ k : Nat) ≤ x) (hhi : x < (2 ^ k : Nat)) : sext (k + 1) (wrapN (k + 1) x) = x := by
  have hpow : (2 : Nat) ^ (k + 1) = 2 ^ k + 2 ^ k := by rw [pow_succ]; omega
  rw [sext, wrapN, hpow]
  generalize 2 ^ k = m at hlo hhi ⊢
  by_cases hx : 0 ≤ x
  · have hmod : x % ((m + m : Nat) : Int) = x := Int.emod_eq_of_lt hx (by omega)
    have hlt : x.toNat % (m + m) = x.toNat := Nat.mod_eq_of_lt (by omega)
    simp only [hmod, hlt]
    rw [if_pos (by omega)]
    omega
  · have hmod : x % ((m + m : Nat) : Int) = x + (m + m : Nat) := by
      rw [← Int.add_emod_right]
      exact Int.emod_eq_of_lt (by omega) (by omega)
    have hlt : (x + (m + m : Nat)).toNat % (m + m) = (x + (m + m : Nat)).toNat := Nat.mod_eq_of_lt (by omega)
    simp only [hmod, hlt]
    rw [if_neg (by omega)]
    omega

theorem wrapN_lt (n : Nat) (x : Int) : wrapN n x < 2 ^ n := by
  have := Int.emod_lt_of_pos x (b := ((2 ^ n : Nat) : Int)) (by positivity)
  have := Int.emod_nonneg x (b := ((2 ^ n : Nat) : Int)) (by positivity)
  rw [wrapN]
  omega

/-- A signed field just written reads as the number, where it fits. -/
theorem Dev.getI_putI_self (d : Dev) (a : Nat) {f : RField} {k : Nat} (hw : fieldWidth f = k + 1) (h : f.lo + fieldWidth f ≤ 32) {x : Int}
    (hlo : -(2 ^ k : Nat) ≤ x) (hhi : x < (2 ^ k : Nat)) : (d.putI a f x).getI a f = x := by
  rw [Dev.getI, Dev.putI, d.get_put_self a f _ h, Nat.mod_eq_of_lt (wrapN_lt _ _), hw, sext_wrapN hlo hhi]

/-! ### Registers -/

theorem eventReg_psl {p : Nat} (hp : p < 52) : eventReg (R.ADA_PSL p) = false := by
  rw [eventReg_eq_false]
  simp only [R.ADA_PSL]
  omega

theorem eventReg_lstat {l : Nat} (hl : l < 48) : eventReg (R.ADA_LSTAT l) = false := by
  rw [eventReg_eq_false]
  simp only [R.ADA_LSTAT]
  omega

theorem psl_ne {p q : Nat} (h : p ≠ q) : R.ADA_PSL p ≠ R.ADA_PSL q := by simp only [R.ADA_PSL]; omega
theorem lstat_ne {l k : Nat} (h : l ≠ k) : R.ADA_LSTAT l ≠ R.ADA_LSTAT k := by simp only [R.ADA_LSTAT]; omega
theorem psl_ne_rotStat (p : Nat) : R.ADA_PSL p ≠ R.ADA_ROT_STAT := by simp only [R.ADA_PSL, R.ADA_ROT_STAT]; omega
theorem lstat_ne_rotStat (l : Nat) : R.ADA_LSTAT l ≠ R.ADA_ROT_STAT := by simp only [R.ADA_LSTAT, R.ADA_ROT_STAT]; omega
theorem psl_ne_lstat (p : Nat) {l : Nat} (h : l < 48) : R.ADA_PSL p ≠ R.ADA_LSTAT l := by simp only [R.ADA_PSL, R.ADA_LSTAT]; omega

theorem nSlices_le (m : Member) : nSlices m ≤ 48 := by cases m <;> decide
theorem nPhys_le (m : Member) : nPhys m ≤ 52 := by cases m <;> decide
theorem nSlices_le_nPhys (m : Member) : nSlices m ≤ nPhys m := by cases m <;> decide

/-! ### A change of slices' states -/

/-- The calibrations. -/
def calPart (d e : Dev) : Dev := { d with cal := e.cal }

theorem calPart_part : Part calPart := ⟨fun _ => rfl, fun _ _ _ => rfl, fun _ _ => rfl, fun _ _ _ => rfl⟩

section
variable {p : Dev → Dev → Dev} {l : List Nat} {d e : Dev}

theorem FrameOn.pslCounts (hp : Part p) (h : FrameOn p l d e) (hl : R.ADA_ROT_STAT ∈ l) : FrameOn p l d e.pslCounts :=
  (h.put hp _ _ hl).put hp _ _ hl

theorem FrameOn.pslChange (hp : Part p) {f : Dev → Dev} (h : FrameOn p l d (f e)) (hl : R.ADA_ROT_STAT ∈ l) :
    FrameOn p l d (e.pslChange f) := (h.pslCounts hp hl).quiet hp (Dev.raiseIf_quiet _ _ _ _)

/-- Beside SPARES and FAILED a change does to the registers what it was asked to. -/
theorem Dev.reg_pslChange (d : Dev) (f : Dev → Dev) {a : Nat} (ha : eventReg a = false) (hr : a ≠ R.ADA_ROT_STAT) :
    (d.pslChange f).reg a = (f d).reg a :=
  ((Dev.raiseIf_quiet _ _ _ _).reg ha).trans (by rw [Dev.pslCounts, Dev.reg_put_ne _ _ _ hr, Dev.reg_put_ne _ _ _ hr])

theorem Dev.pslChange_quiet (d : Dev) (f : Dev → Dev) : Quiet (f d).pslCounts (d.pslChange f) := Dev.raiseIf_quiet _ _ _ _

theorem Dev.pslCounts_calm (d : Dev) : d.pslCounts.calm = d.calm := rfl

theorem Dev.pslChange_calm (d : Dev) (f : Dev → Dev) : (d.pslChange f).calm = (f d).calm := (d.pslChange_quiet f).1

theorem Dev.pslChange_calS (d : Dev) (f : Dev → Dev) (j : Nat) : (d.pslChange f).calS j = (f d).calS j :=
  congrArg (fun l => spGet _ l j) (congrArg Dev.cal (d.pslChange_calm f) :)

theorem Dev.get_pslCounts (d : Dev) (a : Nat) {f : RField} (h : f.lo + fieldWidth f ≤ 8 ∨ 18 ≤ f.lo) : d.pslCounts.get a f = d.get a f := by
  rw [Dev.pslCounts, Dev.get_put_field _ _ _ _ _ _ ?_, Dev.get_put_field _ _ _ _ _ _ ?_]
  all_goals
    simp only [F.ADA_ROT_STAT_FAILED, F.ADA_ROT_STAT_SPARES, fieldWidth] at h ⊢
    omega

/-- PTR and LAST_L stand where slices change their states. -/
theorem Dev.get_pslChange (d : Dev) (f : Dev → Dev) {a : Nat} (ha : eventReg a = false) {g : RField}
    (h : g.lo + fieldWidth g ≤ 8 ∨ 18 ≤ g.lo) : (d.pslChange f).get a g = (f d).get a g :=
  ((d.pslChange_quiet f).get ha g).trans ((f d).get_pslCounts a h)

theorem Dev.pslChange_raised (d : Dev) (f : Dev → Dev) {page src : Nat} (h : Raised (f d) page src) : Raised (d.pslChange f) page src := by
  refine (d.pslChange_quiet f).raised ?_
  rw [Raised, Dev.pslCounts, Dev.reg_put_ne, Dev.reg_put_ne]
  · exact h
  all_goals
    simp only [R.PG_EVT_RAW, pageBase, R.ADA_ROT_STAT]
    omega

end

/-! ### One slice -/

section
variable (d : Dev) (p : Nat)

theorem Dev.setPsl_state {st : Nat} (h : st < 8) : (d.setPsl p st).pslState p = st := by
  rw [Dev.pslState, Dev.setPsl, d.get_put_self _ _ _ (by decide)]
  exact Nat.mod_eq_of_lt h

theorem Dev.setLsl_state (l q : Nat) : (d.setLsl p l).pslState q = d.pslState q :=
  Dev.get_put_field _ _ _ _ _ _ (by decide)

/-- A failed slice: its state and its cause. -/
def Dev.pslFailed (cause : Nat) : Dev := (d.setPsl p pslFAILED).put (R.ADA_PSL p) F.ADA_PSL_FAIL_CAUSE cause

theorem Dev.pslFail_quiet (cause : Nat) : Quiet (d.pslFailed p cause) (d.pslFail p cause) := Dev.raiseN_quiet _ _ _ _

theorem Dev.pslFail_raised (cause : Nat) : Raised (d.pslFail p cause) Pg.ADA Ev.SLICE_FAIL := Dev.raiseN_raised _ _ rfl

variable {p} in
theorem Dev.pslFail_shows (hp : p < 52) {cause : Nat} (hc : cause < 4) : (d.pslFail p cause).pslState p = pslFAILED ∧
    (d.pslFail p cause).get (R.ADA_PSL p) F.ADA_PSL_FAIL_CAUSE = cause := by
  have hq := d.pslFail_quiet p cause
  rw [Dev.pslState, hq.get (eventReg_psl hp), hq.get (eventReg_psl hp), Dev.pslFailed, Dev.get_put_self _ _ _ _ (by decide),
    Dev.get_put_field _ _ _ _ _ _ (by decide)]
  exact ⟨d.setPsl_state p (by decide), Nat.mod_eq_of_lt hc⟩

/-- The values a calibration derives, in their fields. -/
def Dev.calValues (ofs gain : Int) : Dev :=
  (d.putI (R.ADA_PSL p) F.ADA_PSL_OFS (clampI (-512) 511 ofs)).putI (R.ADA_PSL p) F.ADA_PSL_GAIN_ERR (clampI (-128) 127 gain)

theorem Dev.putCal_eq (ofs gain : Int) :
    d.putCal p ofs gain = (d.calValues p ofs gain).setCal p { d.calS p with done := d.gtc } := by
  simp only [Dev.putCal, Dev.calValues, Dev.putI, Dev.calS_put, Dev.put_gtc]

theorem Dev.get_putCal (ofs gain : Int) (a : Nat) (f : RField) : (d.putCal p ofs gain).get a f = (d.calValues p ofs gain).get a f := by
  rw [d.putCal_eq]
  exact Dev.get_of_reg (Dev.reg_setCal _ _ _ _) f

theorem Dev.getI_putCal (ofs gain : Int) (a : Nat) (f : RField) : (d.putCal p ofs gain).getI a f = (d.calValues p ofs gain).getI a f := by
  rw [Dev.getI, d.get_putCal]
  rfl

/-- The values of a calibration that does not fail are those it derives (R91, R95). -/
theorem Dev.putCal_values {ofs gain : Int} (h : calBad ofs gain = false) : (d.putCal p ofs gain).getI (R.ADA_PSL p) F.ADA_PSL_OFS = ofs ∧
    (d.putCal p ofs gain).getI (R.ADA_PSL p) F.ADA_PSL_GAIN_ERR = gain := by
  rw [calBad, Bool.or_eq_false_iff, decide_eq_false_iff_not, decide_eq_false_iff_not] at h
  have hofs : clampI (-512) 511 ofs = ofs := by rw [clampI]; split <;> [omega; split <;> omega]
  have hgain : clampI (-128) 127 gain = gain := by rw [clampI]; split <;> [omega; split <;> omega]
  rw [d.getI_putCal, d.getI_putCal, Dev.calValues, hofs, hgain]
  refine ⟨?_, Dev.getI_putI_self _ _ (k := 7) rfl (by decide) (by omega) (by omega)⟩
  rw [Dev.getI, Dev.putI, Dev.get_put_field _ _ _ _ _ _ (by decide)]
  exact Dev.getI_putI_self d _ (k := 9) rfl (by decide) (by omega) (by omega)

theorem Dev.putCal_state (ofs gain : Int) (q : Nat) : (d.putCal p ofs gain).pslState q = d.pslState q := by
  rw [Dev.pslState, d.get_putCal, Dev.calValues, Dev.putI, Dev.get_put_field _ _ _ _ _ _ (by decide), Dev.putI, Dev.get_put_field _ _ _ _ _ _ (by decide)]
  rfl

end

theorem FrameOn.setCal {l : List Nat} {d e : Dev} (h : FrameOn calPart l d e) (k : Nat) (v : CalSt) : FrameOn calPart l d (e.setCal k v) :=
  h.part calPart_part rfl fun _ => rfl

theorem FrameOn.putCal {l : List Nat} {d e : Dev} (h : FrameOn calPart l d e) {p : Nat} (ofs gain : Int) (hp : R.ADA_PSL p ∈ l) :
    FrameOn calPart l d (e.putCal p ofs gain) := by
  have hv : FrameOn calPart l d (e.calValues p ofs gain) := (h.put calPart_part _ _ hp).put calPart_part _ _ hp
  rw [e.putCal_eq]
  exact hv.setCal _ _

theorem FrameOn.pslFail {q : Dev → Dev → Dev} (hq : Part q) {l : List Nat} {d e : Dev} (h : FrameOn q l d e) {p : Nat} (cause : Nat)
    (hp : R.ADA_PSL p ∈ l) : FrameOn q l d (e.pslFail p cause) :=
  ((h.put hq _ _ hp).put hq _ _ hp).quiet hq (e.pslFail_quiet p cause)

/-! ### A calibration that is done -/

section
variable {d : Dev} {p : Nat} {ofs gain : Int}

/-- What a done calibration does to its slice (R95). -/
def Dev.calDone (d : Dev) (p : Nat) (ofs gain : Int) : Dev :=
  if calBad ofs gain then (d.putCal p ofs gain).pslFail p 1 else (d.putCal p ofs gain).setPsl p pslSPARE

theorem Dev.calDone_frame (d : Dev) (p : Nat) (ofs gain : Int) {l : List Nat} (hp : R.ADA_PSL p ∈ l) :
    FrameOn calPart l d (d.calDone p ofs gain) :=
  have h := (FrameOn.refl calPart_part l d).putCal ofs gain hp
  FrameOn.ite (fun _ => h.pslFail calPart_part 1 hp) fun _ => h.put calPart_part _ _ hp

theorem Dev.calDone_calS (d : Dev) (p : Nat) (ofs gain : Int) (j : Nat) : (d.calDone p ofs gain).calS j = (d.putCal p ofs gain).calS j := by
  rw [Dev.calDone]
  split
  · rw [(Dev.pslFail_quiet _ _ _).calS, Dev.pslFailed, Dev.calS_put, Dev.setPsl, Dev.calS_put]
  · rw [Dev.setPsl, Dev.calS_put]

theorem Dev.putCal_calS (d : Dev) (p : Nat) (ofs gain : Int) (j : Nat) : (d.putCal p ofs gain).calS j =
    if j = p then { d.calS p with done := d.gtc } else d.calS j := by
  rw [d.putCal_eq, Dev.calS_setCal, Dev.calValues, Dev.putI, Dev.calS_put, Dev.putI, Dev.calS_put]

theorem Dev.sliceCalDone_eq (hp : p < nPhys d.member) (hc : d.sys.calDone = true) (hf : d.frozen Pg.ADA = false) (hs : d.pslState p = pslCAL)
    (ht : (d.calS p).start + 800000 ≤ d.gtc) : d.sliceCalDone p ofs gain = d.pslChange fun e => e.calDone p ofs gain :=
  if_pos ⟨hp, hc, hf, hs, ht⟩

end

end Sys2Proof.Machine
end

section
/-! PROOFS. The boot calibration of Bank A, and the three statements of calibration (R94, R95, R101). -/

namespace Sys2Proof.Machine

/-- An operation repeated for every number below a bound gives each its own fact, where no step undoes the fact of another. -/
theorem forN_each {σ : Type} {I : σ → Prop} {Q : Nat → σ → Prop} {f : Nat → σ → σ} (n : Nat) (hI : ∀ k < n, ∀ s, I s → I (f k s))
    (hmake : ∀ k < n, ∀ s, I s → Q k (f k s)) (hstand : ∀ k < n, ∀ j < k, ∀ s, I s → Q j s → Q j (f k s)) {s : σ} (hs : I s) :
    I (forN n f s) ∧ ∀ k < n, Q k (forN n f s) := by
  induction n with
  | zero => exact ⟨hs, fun k hk => absurd hk (Nat.not_lt_zero k)⟩
  | succ n ih =>
    obtain ⟨hi, hq⟩ := ih (fun k hk => hI k (by omega)) (fun k hk => hmake k (by omega)) fun k hk => hstand k (by omega)
    rw [forN_succ]
    refine ⟨hI n (by omega) _ hi, fun k hk => ?_⟩
    obtain rfl | hlt := Nat.eq_or_lt_of_le (Nat.le_of_lt_succ hk)
    · exact hmake k (by omega) _ hi
    · exact hstand n (by omega) k hlt _ hi (hq k hlt)

theorem nthD_mem {α : Type} (x : α) {l : List α} {k : Nat} (h : k < l.length) : nthD x l k ∈ l := by
  induction l generalizing k with
  | nil => exact absurd h (Nat.not_lt_zero k)
  | cons y l ih =>
    cases k with
    | zero => exact List.mem_cons_self
    | succ k => exact List.mem_cons_of_mem _ (ih (Nat.lt_of_succ_lt_succ h))

/-! ### Slices bound in order -/

section
variable (d : Dev) (l p : Nat)

/-- A logical slice served by a physical one. -/
def Dev.bindOne : Dev := ((d.put (R.ADA_LSTAT l) F.ADA_LSTAT_PSL p).setPsl p pslACTIVE).setLsl p l

/-- A physical slice that is spare. -/
def Dev.spareOne : Dev := (d.setPsl p pslSPARE).setLsl p 0

theorem Dev.bindSlices_cons (ps : List Nat) (n : Nat) : d.bindSlices (p :: ps) l n =
    if l < n then (d.bindOne l p).bindSlices ps (l + 1) n else (d.spareOne p).bindSlices ps l n := rfl

theorem Dev.bindSlices_nil : d.bindSlices [] l l = d := by
  rw [Dev.bindSlices]
  refine forN_keeps (P := fun e => e = d) l (fun k hk e he => ?_) rfl
  rw [if_neg (by omega), he]

theorem Dev.bindOne_state : (d.bindOne l p).pslState p = pslACTIVE := by
  rw [Dev.bindOne, Dev.setLsl_state]
  exact Dev.setPsl_state _ _ (by decide)

theorem Dev.spareOne_state : (d.spareOne p).pslState p = pslSPARE := by
  rw [Dev.spareOne, Dev.setLsl_state]
  exact Dev.setPsl_state _ _ (by decide)

theorem Dev.reg_bindOne {a : Nat} (hl : a ≠ R.ADA_LSTAT l) (hp : a ≠ R.ADA_PSL p) : (d.bindOne l p).reg a = d.reg a := by
  rw [Dev.bindOne, Dev.setLsl, Dev.reg_put_ne _ _ _ hp, Dev.setPsl, Dev.reg_put_ne _ _ _ hp, Dev.reg_put_ne _ _ _ hl]

theorem Dev.reg_spareOne {a : Nat} (hp : a ≠ R.ADA_PSL p) : (d.spareOne p).reg a = d.reg a := by
  rw [Dev.spareOne, Dev.setLsl, Dev.reg_put_ne _ _ _ hp, Dev.setPsl, Dev.reg_put_ne _ _ _ hp]

/-- The values of the calibration stand where a slice is bound. -/
theorem Dev.getI_bindOne (a : Nat) {f : RField} (hf : 12 ≤ f.lo) : (d.bindOne l p).getI a f = d.getI a f := by
  rw [Dev.getI, Dev.bindOne, Dev.setLsl, Dev.get_put_field _ _ _ _ _ _ ?_, Dev.setPsl, Dev.get_put_field _ _ _ _ _ _ ?_,
    Dev.get_put_field _ _ _ _ _ _ ?_]
  · rfl
  all_goals
    simp only [F.ADA_PSL_STATE, F.ADA_PSL_LSL, F.ADA_LSTAT_PSL, fieldWidth]
    omega

theorem Dev.getI_spareOne (a : Nat) {f : RField} (hf : 12 ≤ f.lo) : (d.spareOne p).getI a f = d.getI a f := by
  rw [Dev.getI, Dev.spareOne, Dev.setLsl, Dev.get_put_field _ _ _ _ _ _ ?_, Dev.setPsl, Dev.get_put_field _ _ _ _ _ _ ?_]
  · rfl
  all_goals
    simp only [F.ADA_PSL_STATE, F.ADA_PSL_LSL, fieldWidth]
    omega

end

/-- What binding the physical slices from `k` on to `n` logical ones in order does. -/
structure BoundFrom (k m n : Nat) (d e : Dev) : Prop where
  served : ∀ j, k ≤ j → j < n → e.servedBy j = some j
  active : ∀ j, k ≤ j → j < n → e.pslState j = pslACTIVE
  spare : ∀ j, k ≤ j → n ≤ j → j < k + m → e.pslState j = pslSPARE
  before : ∀ j, j < k → e.reg (R.ADA_PSL j) = d.reg (R.ADA_PSL j)
  served0 : ∀ j, j < min k n → e.reg (R.ADA_LSTAT j) = d.reg (R.ADA_LSTAT j)
  values : ∀ a (f : RField), 12 ≤ f.lo → e.getI a f = d.getI a f

theorem Dev.bindSlices_bound {n : Nat} (hn : n ≤ 48) {l : List Nat} (hl : ∀ j < n, R.ADA_LSTAT j ∈ l) (m : Nat) : ∀ (k : Nat) (d : Dev),
    n ≤ k + m → k + m ≤ 52 → (∀ j, j < k + m → R.ADA_PSL j ∈ l) →
    BoundFrom k m n d (d.bindSlices (List.range' k m) (min k n) n) ∧ FrameOn noPart l d (d.bindSlices (List.range' k m) (min k n) n) := by
  induction m with
  | zero =>
    intro k d hk _ _
    have hmin : min k n = n := by omega
    rw [List.range'_zero, hmin, Dev.bindSlices_nil]
    exact ⟨⟨by omega, by omega, by omega, fun _ _ => rfl, fun _ _ => rfl, fun _ _ _ => rfl⟩, FrameOn.refl noPart_part l d⟩
  | succ m ih =>
    intro k d hk hlim hpsl
    rw [List.range'_succ, Dev.bindSlices_cons]
    by_cases hkn : k < n
    · have hmin : min k n = k := by omega
      have hmin' : min (k + 1) n = k + 1 := by omega
      have hih := ih (k + 1) (d.bindOne k k) (by omega) (by omega) fun j hj => hpsl j (by omega)
      rw [hmin'] at hih
      rw [hmin, if_pos hkn]
      generalize (d.bindOne k k).bindSlices (List.range' (k + 1) m) (k + 1) n = e at hih ⊢
      obtain ⟨⟨hserved, hactive, hspare, hbefore, hserved0, hvalues⟩, hframe⟩ := hih
      have hpslk : R.ADA_PSL k ∈ l := hpsl k (by omega)
      have hself : e.pslState k = pslACTIVE := (Dev.get_of_reg (hbefore k (by omega)) _).trans (d.bindOne_state k k)
      have hserve : e.servedBy k = some k := by
        have hget : e.get (R.ADA_LSTAT k) F.ADA_LSTAT_PSL = k := by
          rw [Dev.get_of_reg (hserved0 k (by omega)), Dev.bindOne, Dev.setLsl, Dev.get_put_ne _ _ _ _ (psl_ne_lstat k (by omega)).symm, Dev.setPsl,
            Dev.get_put_ne _ _ _ _ (psl_ne_lstat k (by omega)).symm, Dev.get_put_self _ _ _ _ (by decide)]
          exact Nat.mod_eq_of_lt (lt_of_lt_of_le hkn (by simp only [F.ADA_LSTAT_PSL, fieldWidth]; omega))
        rw [Dev.servedBy]
        simp only [hget]
        rw [if_neg (by omega)]
      refine ⟨⟨fun j hj hjn => ?_, fun j hj hjn => ?_, fun j hj hjn hjm => hspare j (by omega) hjn (by omega), fun j hj => ?_, fun j hj => ?_, fun a f hf => ?_⟩, ?_⟩
      · obtain rfl | hlt := Nat.eq_or_lt_of_le hj
        · exact hserve
        · exact hserved j hlt hjn
      · obtain rfl | hlt := Nat.eq_or_lt_of_le hj
        · exact hself
        · exact hactive j hlt hjn
      · rw [hbefore j (by omega)]
        exact d.reg_bindOne k k (psl_ne_lstat j (by omega)) (psl_ne (by omega))
      · rw [hserved0 j (by omega)]
        exact d.reg_bindOne k k (lstat_ne (by omega)) (psl_ne_lstat k (by omega)).symm
      · rw [hvalues a f hf, d.getI_bindOne k k a hf]
      · exact FrameOn.trans noPart_part ((((FrameOn.refl noPart_part l d).put noPart_part _ _ (hl k hkn)).put noPart_part _ _ hpslk).put
          noPart_part _ _ hpslk) hframe
    · have hmin : min k n = min (k + 1) n := by omega
      have hge : ¬min (k + 1) n < n := by omega
      have hih := ih (k + 1) (d.spareOne k) (by omega) (by omega) fun j hj => hpsl j (by omega)
      rw [hmin, if_neg hge]
      generalize (d.spareOne k).bindSlices (List.range' (k + 1) m) (min (k + 1) n) n = e at hih ⊢
      obtain ⟨⟨hserved, hactive, hspare, hbefore, hserved0, hvalues⟩, hframe⟩ := hih
      have hpslk : R.ADA_PSL k ∈ l := hpsl k (by omega)
      have hself : e.pslState k = pslSPARE := (Dev.get_of_reg (hbefore k (by omega)) _).trans (d.spareOne_state k)
      refine ⟨⟨by omega, by omega, fun j hj hjn hjm => ?_, fun j hj => ?_, fun j hj => ?_, fun a f hf => ?_⟩, ?_⟩
      · obtain rfl | hlt := Nat.eq_or_lt_of_le hj
        · exact hself
        · exact hspare j hlt hjn (by omega)
      · rw [hbefore j (by omega)]
        exact d.reg_spareOne k (psl_ne (by omega))
      · rw [hserved0 j (by omega)]
        exact d.reg_spareOne k (psl_ne_lstat k (by omega)).symm
      · rw [hvalues a f hf, d.getI_spareOne k a hf]
      · exact FrameOn.trans noPart_part (((FrameOn.refl noPart_part l d).put noPart_part _ _ hpslk).put noPart_part _ _ hpslk) hframe

/-! ### The boot calibration -/

/-- The boot calibration noted. -/
def Dev.sysCal (d : Dev) : Dev := { d with sys := { d.sys with calDone := true } }

theorem Dev.sysCal_calm (d : Dev) : d.sysCal.calm = d.calm.sysCal := rfl

/-- Registers of the boot calibration. -/
def bootCalRegs (m : Member) : List Nat :=
  R.ADA_ROT_STAT :: (List.range (nPhys m)).map R.ADA_PSL ++ (List.range (nSlices m)).map R.ADA_LSTAT

theorem psl_mem_bootCalRegs {m : Member} {p : Nat} (h : p < nPhys m) : R.ADA_PSL p ∈ bootCalRegs m :=
  List.mem_append_left _ (List.mem_cons_of_mem _ (List.mem_map_of_mem (List.mem_range.2 h)))

theorem lstat_mem_bootCalRegs {m : Member} {l : Nat} (h : l < nSlices m) : R.ADA_LSTAT l ∈ bootCalRegs m :=
  List.mem_append_right _ (List.mem_map_of_mem (List.mem_range.2 h))

theorem rotStat_mem_bootCalRegs (m : Member) : R.ADA_ROT_STAT ∈ bootCalRegs m := List.mem_append_left _ List.mem_cons_self

section
variable {d : Dev} {cal : List (Int × Int)}

/-- The values of one slice's calibration stand in its register. -/
def CalShown (cal : List (Int × Int)) (p : Nat) (e : Dev) : Prop :=
  e.getI (R.ADA_PSL p) F.ADA_PSL_OFS = (nthD (0, 0) cal p).1 ∧ e.getI (R.ADA_PSL p) F.ADA_PSL_GAIN_ERR = (nthD (0, 0) cal p).2

/-- Every physical slice calibrated, where none fails (R94). -/
theorem Dev.bootCals (d : Dev) (hlen : cal.length = nPhys d.member) (hgood : ∀ c ∈ cal, calBad c.1 c.2 = false) :
    let e := forN (nPhys d.member) (fun p e => e.bootCal p (nthD (0, 0) cal p)) d
    (FrameOn calPart (bootCalRegs d.member) d e ∧ ∀ q, e.pslState q = d.pslState q) ∧ ∀ p < nPhys d.member, CalShown cal p e := by
  have hboot : ∀ p < nPhys d.member, ∀ e : Dev, e.bootCal p (nthD (0, 0) cal p) = e.putCal p (nthD (0, 0) cal p).1 (nthD (0, 0) cal p).2 := by
    intro p hp e
    rw [Dev.bootCal, hgood _ (nthD_mem _ (hlen ▸ hp)), if_neg Bool.false_ne_true]
  refine forN_each (I := fun e => FrameOn calPart (bootCalRegs d.member) d e ∧ ∀ q, e.pslState q = d.pslState q) (Q := CalShown cal)
    (nPhys d.member) (fun p hp e he => ?_) (fun p hp e _ => ?_) (fun p hp j hj e _ hshown => ?_) ⟨FrameOn.refl calPart_part _ d, fun _ => rfl⟩
  · rw [hboot p hp]
    exact ⟨he.1.putCal _ _ (psl_mem_bootCalRegs hp), fun q => (e.putCal_state _ _ _ _).trans (he.2 q)⟩
  · rw [hboot p hp]
    exact e.putCal_values p (hgood _ (nthD_mem _ (hlen ▸ hp)))
  · rw [hboot p hp]
    have hother : ∀ f, (e.putCal p (nthD (0, 0) cal p).1 (nthD (0, 0) cal p).2).getI (R.ADA_PSL j) f = e.getI (R.ADA_PSL j) f := by
      intro f
      rw [e.getI_putCal, Dev.getI, Dev.calValues, Dev.putI, Dev.get_put_ne _ _ _ _ (psl_ne (Nat.ne_of_lt hj)), Dev.putI,
        Dev.get_put_ne _ _ _ _ (psl_ne (Nat.ne_of_lt hj))]
      rfl
    rw [CalShown, hother, hother]
    exact hshown

theorem Dev.bootCalDone_eq (d : Dev) (hb : d.devState = DS.BOOT) (ht : 800000 ≤ d.gtc) (hlen : cal.length = nPhys d.member)
    (hok : ∀ p < nPhys d.member, d.pslState p ≠ pslFAILED) {f : Dev} (hm : f.member = d.member) (hst : ∀ q, f.pslState q = d.pslState q)
    (hf : forN (nPhys d.member) (fun p e => e.bootCal p (nthD (0, 0) cal p)) d = f) :
    d.bootCalDone cal = (f.sysCal.bindSlices (List.range' 0 (nPhys d.member)) (min 0 (nSlices d.member)) (nSlices d.member)).pslCounts := by
  have hfilter : ((List.range (nPhys f.sysCal.member)).filter fun p => f.sysCal.pslState p != pslFAILED) = List.range' 0 (nPhys d.member) := by
    have hm' : f.sysCal.member = d.member := hm
    rw [hm', ← List.range_eq_range', List.filter_eq_self]
    intro p hp
    exact bne_iff_ne.2 fun hc => hok p (List.mem_range.1 hp) ((hst p).symm.trans hc)
  rw [Dev.bootCalDone, if_pos ⟨hb, ht, hlen⟩, hf, Nat.zero_min, ← hm]
  rw [← hm] at hfilter
  exact congrArg (fun l => (f.sysCal.bindSlices l 0 (nSlices f.member)).pslCounts) hfilter

end

/-! ### CAL_STALE -/

theorem Dev.calStale_due {d : Dev} {l p : Nat} (hl : l < nSlices d.member) (hs : d.servedBy l = some p)
    (hcm : d.get R.ADA_CAL_CFG F.ADA_CAL_CFG_CAL_MAX ≠ 0) (hst : d.flag (R.ADA_LSTAT l) F.ADA_LSTAT_CAL_STALE = false)
    (ht : (d.calS p).done + d.get R.ADA_CAL_CFG F.ADA_CAL_CFG_CAL_MAX * 400000 < d.gtc) (hf : d.frozen Pg.ADA = false) :
    d.calStale l = (d.putB (R.ADA_LSTAT l) F.ADA_LSTAT_CAL_STALE true).raiseN Pg.ADA Ev.CAL_STALE l := by
  rw [Dev.calStale, hs]
  exact if_pos ⟨hl, hf, hcm, by simp [hst], ht⟩

theorem Dev.calStale_off {d : Dev} {l p : Nat} (hs : d.servedBy l = some p) (hcm : d.get R.ADA_CAL_CFG F.ADA_CAL_CFG_CAL_MAX = 0) :
    d.calStale l = d := by
  rw [Dev.calStale, hs]
  exact if_neg fun h => h.2.2.1 hcm

/-- Settles O17: every slice's calibration, the slices bound in order, and what one done or stale calibration changes. -/
theorem sliceCalibration : Obligations.SliceCalibration := by
  intro s hlive d
  refine ⟨fun cal hboot ht hlen hgood hok => ?_, fun p ofs gain hp hc hf hst ht => ?_, fun l p hl hs => ?_⟩
  · obtain ⟨⟨hframe, hstate⟩, hshown⟩ := d.bootCals hlen hgood
    generalize hfold : forN (nPhys d.member) (fun p e => e.bootCal p (nthD (0, 0) cal p)) d = f at hframe hstate hshown
    have hm : f.member = d.member := (congrArg Dev.member hframe.1 :)
    obtain ⟨⟨hserved, hactive, hspare, -, -, hvalues⟩, hbound⟩ := Dev.bindSlices_bound (nSlices_le d.member)
      (fun _ h => lstat_mem_bootCalRegs h) (nPhys d.member) 0 f.sysCal (by have := nSlices_le_nPhys d.member; omega)
      (by have := nPhys_le d.member; omega) fun _ h => psl_mem_bootCalRegs (by omega)
    have heq := d.bootCalDone_eq hboot ht hlen hok hm hstate hfold
    generalize f.sysCal.bindSlices (List.range' 0 (nPhys d.member)) (min 0 (nSlices d.member)) (nSlices d.member) = b
      at heq hserved hactive hspare hvalues hbound
    have hcounts := hbound.pslCounts noPart_part (rotStat_mem_bootCalRegs d.member)
    have hcal : b.pslCounts.calm = f.calm.sysCal := hcounts.1
    have hcal1 : b.pslCounts.cal = f.cal := (congrArg Dev.cal hcal :)
    have hreg : ∀ a, a ≠ R.ADA_ROT_STAT → b.pslCounts.reg a = b.reg a := by
      intro a ha
      rw [Dev.pslCounts, Dev.reg_put_ne _ _ _ ha, Dev.reg_put_ne _ _ _ ha]
    refine ⟨_, onDev_eq hlive.1 heq, ⟨?_, fun a ha hl => ?_, fun q i hl hx => ?_⟩, fun l hl => ⟨?_, ?_⟩, fun p h1 h2 => ?_, fun p hp => ?_⟩
    · rw [hcal, hframe.1, hcal1]
      rfl
    · exact (hcounts.2.1 a ha hl).trans (hframe.2.1 a ha hl)
    · exact hcounts.2.2 q i hl (hframe.2.2 q i hl hx)
    · rw [Dev.servedBy, Dev.get_of_reg (hreg _ (lstat_ne_rotStat l))]
      exact hserved l (Nat.zero_le l) hl
    · exact (Dev.get_of_reg (hreg _ (psl_ne_rotStat l)) _).trans (hactive l (Nat.zero_le l) hl)
    · exact (Dev.get_of_reg (hreg _ (psl_ne_rotStat p)) _).trans (hspare p (Nat.zero_le p) h1 (by omega))
    · have hI : ∀ g : RField, 12 ≤ g.lo → b.pslCounts.getI (R.ADA_PSL p) g = f.getI (R.ADA_PSL p) g := by
        intro g hg
        rw [Dev.getI, Dev.get_of_reg (hreg _ (psl_ne_rotStat p))]
        exact hvalues _ g hg
      rw [hI _ (by decide), hI _ (by decide)]
      exact hshown p hp
  · have hp52 : p < 52 := hp.trans_le (nPhys_le _)
    have hreg := fun (g : RField) => Dev.get_of_reg (d.reg_pslChange (fun e => e.calDone p ofs gain) (eventReg_psl hp52) (psl_ne_rotStat p)) g
    refine ⟨_, onLive_eq hlive (Dev.sliceCalDone_eq hp hc hf hst ht), ?_, ?_, fun q hq => ?_, fun hgood => ?_, fun hbad => ?_⟩
    · exact FrameOn.pslChange (p := calPart) calPart_part (d.calDone_frame p ofs gain (by simp)) (by simp)
    · rw [Dev.pslChange_calS, Dev.calDone_calS, Dev.putCal_calS, if_pos rfl]
    · rw [Dev.pslChange_calS, Dev.calDone_calS, Dev.putCal_calS, if_neg hq]
    · rw [Dev.pslState, Dev.getI, Dev.getI, hreg, hreg, hreg, Dev.calDone, hgood, if_neg Bool.false_ne_true]
      obtain ⟨hofs, hgain⟩ := d.putCal_values p hgood
      refine ⟨Dev.setPsl_state _ p (by decide), ?_, ?_⟩
      · rw [Dev.setPsl, Dev.get_put_field _ _ _ _ _ _ (by decide)]
        exact hofs
      · rw [Dev.setPsl, Dev.get_put_field _ _ _ _ _ _ (by decide)]
        exact hgain
    · have hdone : d.calDone p ofs gain = (d.putCal p ofs gain).pslFail p 1 := if_pos hbad
      obtain ⟨hstate, hcause⟩ := (d.putCal p ofs gain).pslFail_shows hp52 (cause := 1) (by decide)
      rw [Dev.pslState, hreg, hreg, hdone]
      exact ⟨hstate, hcause, Dev.pslChange_raised _ _ (hdone ▸ Dev.pslFail_raised _ p 1)⟩
  · exact ⟨fun hcm hflag ht hf => ⟨_, onLive_eq hlive (Dev.calStale_due hl hs hcm hflag ht hf), Dev.raiseN_quiet _ _ _ _,
      Dev.raiseN_raised _ _ rfl⟩, fun hcm => onLive_same hlive (Dev.calStale_off hs hcm)⟩

end Sys2Proof.Machine
end

section
/-! PROOFS. Rotation and sequences of Bank A (R93, R96 to R100). -/

namespace Sys2Proof.Machine

/-! ### An operation on the working state after events -/

/-- What an operation that leaves the registers does, it does as well where events have been delivered before. -/
theorem Quiet.congr_op {d e : Dev} (h : Quiet d e) {op : Dev → Dev} (hreg : ∀ d a, (op d).reg a = d.reg a)
    (hcalm : ∀ d, (op d).calm = op d.calm) : Quiet (op d) (op e) := by
  obtain ⟨hc, hr, hraw⟩ := h
  refine ⟨by rw [hcalm, hcalm, hc], fun a ha => by rw [hreg, hreg, hr a ha], fun p i => ?_⟩
  rw [hreg, hreg]
  exact hraw p i

theorem Frame.congr_op {d e : Dev} {l : List Nat} (h : Frame d e l) {op : Dev → Dev} (hreg : ∀ d a, (op d).reg a = d.reg a)
    (hcalm : ∀ d, (op d).calm = op d.calm) : Frame (op d) (op e) l := by
  obtain ⟨hc, hr, hraw⟩ := h
  refine ⟨by rw [hcalm, hcalm, hc], fun a ha hl => by rw [hreg, hreg, hr a ha hl], fun p i hl => ?_⟩
  rw [hreg, hreg]
  exact hraw p i hl

/-- The rotation's state set. -/
def Dev.setRot (d : Dev) (r : RotSt) : Dev := { d with rot := r }

theorem Dev.reg_setRot (d : Dev) (r : RotSt) (a : Nat) : (d.setRot r).reg a = d.reg a := rfl

theorem Quiet.setRot {d e : Dev} (h : Quiet d e) (r : RotSt) : Quiet (d.setRot r) (e.setRot r) :=
  h.congr_op (op := fun d => d.setRot r) (fun _ _ => rfl) fun _ => rfl

theorem Quiet.setOvl {d e : Dev} (h : Quiet d e) (l : Nat) (o : OvlSt) : Quiet (d.setOvl l o) (e.setOvl l o) :=
  h.congr_op (op := fun d => d.setOvl l o) (fun _ _ => rfl) fun _ => rfl

/-! ### A rotation step -/

section
variable {d : Dev} {p l : Nat}

theorem Dev.rotNext_lt (h : d.rotNext = some l) : l < nSlices d.member := by
  rw [Dev.rotNext] at h
  obtain ⟨k, -, rfl⟩ := List.mem_map.1 (List.mem_of_find?_eq_some h)
  exact Nat.mod_lt _ (by cases d.member <;> decide)

/-- The device as a rotation step leaves it, but for its slice. -/
def Dev.rotBegun (d : Dev) (p l : Nat) : Dev :=
  ((d.setPtr l).put R.ADA_ROT_STAT F.ADA_ROT_STAT_LAST_L l).setRot { run := true, slice := l, inc := p, step := d.gtc }

/-- A slice that enters an overlap. -/
def Dev.overlapOne (d : Dev) (p l : Nat) : Dev := (d.setPsl p pslOVERLAP).setLsl p l

theorem Dev.rotationStep_eq (hen : d.flag R.ADA_CTRL F.ADA_CTRL_ROT_EN = true) (hpg : d.pageEn Pg.ADA = true) (hf : d.frozen Pg.ADA = false)
    (ht : d.gtc % (400 * max (d.get R.ADA_ROT_CFG F.ADA_ROT_CFG_INTV) 1) = 0) (hb : d.rotBusy = false)
    (hp : (List.range (nPhys d.member)).find? (fun q => d.pslState q == pslSPARE) = some p) (hl : d.rotNext = some l) :
    d.rotationStep = (d.rotBegun p l).pslChange fun e => e.overlapOne p l := by
  simp only [Dev.rotationStep, hen, hpg, hf, ht, hb, hp, hl, Bool.not_false, Bool.and_self, beq_self_eq_true, if_true]
  rfl

theorem Dev.rotationStep_frame (d : Dev) (p l : Nat) : FrameOn noPart [R.ADA_ROT_STAT, R.ADA_PSL p]
    (d.setRot { run := true, slice := l, inc := p, step := d.gtc }) ((d.rotBegun p l).pslChange fun e => e.overlapOne p l) := by
  have hp := noPart_part
  refine FrameOn.pslChange hp ?_ (by simp)
  have h0 : FrameOn noPart [R.ADA_ROT_STAT, R.ADA_PSL p] d ((d.setPtr l).put R.ADA_ROT_STAT F.ADA_ROT_STAT_LAST_L l) :=
    ((FrameOn.refl hp _ d).put hp F.ADA_ROT_STAT_PTR l (by simp)).put hp F.ADA_ROT_STAT_LAST_L l (by simp)
  have h1 : FrameOn noPart [R.ADA_ROT_STAT, R.ADA_PSL p] (d.setRot { run := true, slice := l, inc := p, step := d.gtc }) (d.rotBegun p l) :=
    Frame.congr_op (op := fun d => d.setRot _) h0 (fun _ _ => rfl) fun _ => rfl
  exact (h1.put hp (a := R.ADA_PSL p) F.ADA_PSL_STATE pslOVERLAP (by simp)).put hp (a := R.ADA_PSL p) F.ADA_PSL_LSL l (by simp)

theorem Dev.overlapOne_shows {p l : Nat} (hl : l < 64) (d : Dev) : (d.overlapOne p l).pslState p = pslOVERLAP ∧
    (d.overlapOne p l).get (R.ADA_PSL p) F.ADA_PSL_LSL = l := by
  refine ⟨?_, ?_⟩
  · rw [Dev.overlapOne, Dev.setLsl_state]
    exact d.setPsl_state p (by decide)
  · rw [Dev.overlapOne, Dev.setLsl, Dev.get_put_self _ _ _ _ (by decide)]
    exact Nat.mod_eq_of_lt hl

theorem Dev.rotBegun_shows {l : Nat} (hl : l < 64) (d : Dev) (p : Nat) : (d.rotBegun p l).rotPtr = l ∧
    (d.rotBegun p l).get R.ADA_ROT_STAT F.ADA_ROT_STAT_LAST_L = l := by
  have hget : ∀ f, (d.rotBegun p l).get R.ADA_ROT_STAT f = ((d.setPtr l).put R.ADA_ROT_STAT F.ADA_ROT_STAT_LAST_L l).get R.ADA_ROT_STAT f :=
    fun f => Dev.get_of_reg (Dev.reg_setRot _ _ _) f
  rw [Dev.rotPtr, hget, hget, Dev.get_put_self _ _ _ _ (by decide), Dev.get_put_field _ _ _ _ _ _ (by decide), Dev.setPtr,
    Dev.get_put_self _ _ _ _ (by decide)]
  exact ⟨Nat.mod_eq_of_lt hl, Nat.mod_eq_of_lt (hl.trans (by decide))⟩

theorem Dev.overlapOne_get_rotStat (d : Dev) (p l : Nat) (f : RField) :
    (d.overlapOne p l).get R.ADA_ROT_STAT f = d.get R.ADA_ROT_STAT f := by
  rw [Dev.overlapOne, Dev.setLsl, Dev.get_put_ne _ _ _ _ (psl_ne_rotStat p).symm, Dev.setPsl, Dev.get_put_ne _ _ _ _ (psl_ne_rotStat p).symm]

end

/-! ### A failed comparison -/

section
variable (d : Dev)

/-- A slice that enters CAL. -/
theorem Dev.pslCal_frame {l : List Nat} {p : Nat} (hp : R.ADA_PSL p ∈ l) : FrameOn calPart l d (d.pslCal p) :=
  ((FrameOn.refl calPart_part l d).put calPart_part _ _ hp).setCal _ _

theorem Dev.pslCal_shows (p : Nat) : (d.pslCal p).pslState p = pslCAL ∧ ((d.pslCal p).calS p).start = d.gtc := by
  rw [Dev.pslCal, Dev.calS_setCal_self, Dev.pslState, Dev.get_of_reg (Dev.reg_setCal _ _ _ _)]
  exact ⟨d.setPsl_state p (by decide), rfl⟩

theorem Dev.pslCal_get_rotStat (p : Nat) (f : RField) : (d.pslCal p).get R.ADA_ROT_STAT f = d.get R.ADA_ROT_STAT f := by
  rw [Dev.pslCal, Dev.get_of_reg (Dev.reg_setCal _ _ _ _), Dev.setPsl, Dev.get_put_ne _ _ _ _ (psl_ne_rotStat p).symm]

theorem Dev.pslFail_get_rotStat (p cause : Nat) (f : RField) : (d.pslFail p cause).get R.ADA_ROT_STAT f = d.get R.ADA_ROT_STAT f := by
  rw [(d.pslFail_quiet p cause).get (by decide), Dev.pslFailed, Dev.get_put_ne _ _ _ _ (psl_ne_rotStat p).symm, Dev.setPsl,
    Dev.get_put_ne _ _ _ _ (psl_ne_rotStat p).symm]

/-- The comparison's event. -/
def Dev.ovlFailed : Dev := d.raiseN Pg.ADA Ev.OVL_FAIL d.rot.slice

theorem Dev.ovlFailed_quiet : Quiet d d.ovlFailed := Dev.raiseN_quiet _ _ _ _

theorem Dev.ovlFailed_raised : Raised d.ovlFailed Pg.ADA Ev.OVL_FAIL := Dev.raiseN_raised _ _ rfl

theorem Dev.overlapFail_eq : d.overlapFail =
    if (d.ovlS d.rot.slice).fails = 0 then
      ((d.ovlFailed.setRot {}).setOvl d.rot.slice { fails := 1, inc := d.rot.inc }).pslChange fun e => e.pslCal d.rot.inc
    else if (d.ovlS d.rot.slice).inc = d.rot.inc then (d.ovlFailed.setRot {}).pslChange fun e => e.pslFail d.rot.inc 2
    else d.ovlFailed.setRot { d.ovlFailed.rot with run := false, hand := some (d.ovlFailed.gtc, true) } := rfl

end

/-- What a failed comparison brings (R99): its event, PTR as it stands; the slice to calibration, to FAILED, or its handover forced. -/
theorem Dev.overlapFail_spec (d : Dev) (hp : d.rot.inc < nPhys d.member) :
    Raised d.overlapFail Pg.ADA Ev.OVL_FAIL ∧ d.overlapFail.rotPtr = d.rotPtr ∧
    ((d.ovlS d.rot.slice).fails = 0 →
      FrameOn calPart [R.ADA_ROT_STAT, R.ADA_PSL d.rot.inc] ((d.setRot {}).setOvl d.rot.slice { fails := 1, inc := d.rot.inc }) d.overlapFail ∧
      d.overlapFail.pslState d.rot.inc = pslCAL ∧ (d.overlapFail.calS d.rot.inc).start = d.gtc) ∧
    ((d.ovlS d.rot.slice).fails ≠ 0 → (d.ovlS d.rot.slice).inc = d.rot.inc →
      FrameOn noPart [R.ADA_ROT_STAT, R.ADA_PSL d.rot.inc] (d.setRot {}) d.overlapFail ∧ d.overlapFail.pslState d.rot.inc = pslFAILED ∧
      d.overlapFail.get (R.ADA_PSL d.rot.inc) F.ADA_PSL_FAIL_CAUSE = 2 ∧ Raised d.overlapFail Pg.ADA Ev.SLICE_FAIL) ∧
    ((d.ovlS d.rot.slice).fails ≠ 0 → (d.ovlS d.rot.slice).inc ≠ d.rot.inc →
      Quiet (d.setRot { d.rot with run := false, hand := some (d.gtc, true) }) d.overlapFail) := by
  have hq := d.ovlFailed_quiet
  have hr := d.ovlFailed_raised
  have hp52 : d.rot.inc < 52 := hp.trans_le (nPhys_le _)
  have hptr : d.ovlFailed.get R.ADA_ROT_STAT F.ADA_ROT_STAT_PTR = d.rotPtr := hq.get (by decide) _
  have hgtc : d.ovlFailed.gtc = d.gtc := hq.gtc
  have hrot : d.ovlFailed.rot = d.rot := hq.rot
  rw [d.overlapFail_eq]
  by_cases h0 : (d.ovlS d.rot.slice).fails = 0
  · rw [if_pos h0]
    have hframe := FrameOn.of_quiet calPart_part [R.ADA_ROT_STAT, R.ADA_PSL d.rot.inc]
      ((hq.setRot {}).setOvl d.rot.slice { fails := 1, inc := d.rot.inc })
    have hraise : Raised ((d.ovlFailed.setRot {}).setOvl d.rot.slice { fails := 1, inc := d.rot.inc }) Pg.ADA Ev.OVL_FAIL := hr
    have hget : ((d.ovlFailed.setRot {}).setOvl d.rot.slice { fails := 1, inc := d.rot.inc }).get R.ADA_ROT_STAT F.ADA_ROT_STAT_PTR = d.rotPtr :=
      hptr
    have hnow : ((d.ovlFailed.setRot {}).setOvl d.rot.slice { fails := 1, inc := d.rot.inc }).gtc = d.gtc := hgtc
    generalize (d.ovlFailed.setRot {}).setOvl d.rot.slice { fails := 1, inc := d.rot.inc } = f at hframe hraise hget hnow ⊢
    obtain ⟨hstate, hstart⟩ := f.pslCal_shows d.rot.inc
    refine ⟨Dev.pslChange_raised _ _ ?_, ?_, fun _ => ⟨?_, ?_, ?_⟩, fun h => absurd h0 h, fun h => absurd h0 h⟩
    · exact (f.pslCal_frame (l := [R.ADA_PSL d.rot.inc]) (by simp)).raised calPart_part (by simp only [R.PG_EVT_RAW, pageBase, R.ADA_PSL, Pg.ADA, List.mem_singleton]; omega) hraise
    · rw [Dev.rotPtr, Dev.get_pslChange _ _ (by decide) (by decide), Dev.pslCal_get_rotStat, hget]
    · exact FrameOn.pslChange calPart_part (hframe.trans calPart_part (f.pslCal_frame (by simp))) (by simp)
    · exact (Dev.get_of_reg (Dev.reg_pslChange _ _ (eventReg_psl hp52) (psl_ne_rotStat _)) _).trans hstate
    · rw [Dev.pslChange_calS, hstart, hnow]
  · rw [if_neg h0]
    by_cases h1 : (d.ovlS d.rot.slice).inc = d.rot.inc
    · rw [if_pos h1]
      have hframe := FrameOn.of_quiet noPart_part [R.ADA_ROT_STAT, R.ADA_PSL d.rot.inc] (hq.setRot {})
      have hraise : Raised (d.ovlFailed.setRot {}) Pg.ADA Ev.OVL_FAIL := hr
      have hget : (d.ovlFailed.setRot {}).get R.ADA_ROT_STAT F.ADA_ROT_STAT_PTR = d.rotPtr := hptr
      generalize d.ovlFailed.setRot {} = f at hframe hraise hget ⊢
      obtain ⟨hstate, hcause⟩ := f.pslFail_shows hp52 (cause := 2) (by decide)
      have hfail := (FrameOn.refl noPart_part [R.ADA_PSL d.rot.inc] f).pslFail noPart_part (p := d.rot.inc) 2 (by simp)
      refine ⟨Dev.pslChange_raised _ _ ?_, ?_, fun h => absurd h h0, fun _ _ => ⟨?_, ?_, ?_, ?_⟩, fun _ h => absurd h1 h⟩
      · exact hfail.raised noPart_part (by simp only [R.PG_EVT_RAW, pageBase, R.ADA_PSL, Pg.ADA, List.mem_singleton]; omega) hraise
      · rw [Dev.rotPtr, Dev.get_pslChange _ _ (by decide) (by decide), Dev.pslFail_get_rotStat, hget]
      · exact FrameOn.pslChange noPart_part (hframe.pslFail noPart_part 2 (by simp)) (by simp)
      · exact (Dev.get_of_reg (Dev.reg_pslChange _ _ (eventReg_psl hp52) (psl_ne_rotStat _)) _).trans hstate
      · rw [Dev.get_of_reg (Dev.reg_pslChange _ _ (eventReg_psl hp52) (psl_ne_rotStat _))]
        exact hcause
      · exact Dev.pslChange_raised _ _ (f.pslFail_raised _ 2)
    · rw [if_neg h1, hrot, hgtc]
      exact ⟨hr, hptr, fun h => absurd h h0, fun _ h => absurd h h1, fun _ _ => hq.setRot _⟩

end Sys2Proof.Machine
end

section
/-! PROOFS. Sequences of Bank A's slices (R93, R100), and what a rotation does, whole (R96 to R99). -/

namespace Sys2Proof.Machine

/-! ### A write that a register takes -/

/-- Fields of one access type, with no right of Channel M's alone, accept a write all or none. -/
theorem Dev.fieldOk_alike {d : Dev} {mid : Nat} {b : Block} {i page off : Nat} {f g : FieldDef} (hacc : f.acc = g.acc)
    (hf : chanMOnly b off f.f = false) (hg : chanMOnly b off g.f = false) (h : d.fieldOk mid b i page off f = true) :
    d.fieldOk mid b i page off g = true := by
  simp only [Dev.fieldOk, hf, hg, Bool.false_eq_true, if_false, hacc] at h ⊢
  exact h

/-- A plain write of a register of alike fields that takes it: every field takes its part. -/
theorem Dev.plainWrite_takenAt {d : Dev} {mid a : Nat} {b : Block} {i off : Nat} (h : Placed d a b i off) (hin : inRegs a = true)
    {rd : RegDef} {x y : Nat} (hr : regAt b off = some (rd, x, y)) {acc : Access}
    (halike : ∀ fd ∈ rd.flds, fd.acc = acc ∧ chanMOnly b off fd.f = false) (ht : d.takenAt mid a = true) {w : Word}
    (hw : w &&& absentBits d.member b i off = 0) :
    d.plainWrite mid a w = d.setReg a (takeAll rd.flds w (d.reg a)) := by
  have htaken : d.writeTaken mid b i (pageOf a) off = true := by
    rw [Dev.takenAt, h.info, h.offset] at ht
    simp only [Bool.and_eq_true] at ht
    exact ht.2
  rw [Dev.writeTaken, hr] at htaken
  obtain ⟨fd, hfd, hok⟩ := List.any_eq_true.1 htaken
  have hall : ∀ g ∈ rd.flds, d.fieldOk mid b i (pageOf a) off g = true := fun g hg =>
    Dev.fieldOk_alike ((halike fd hfd).1.trans (halike g hg).1.symm) (halike fd hfd).2 (halike g hg).2 hok
  rw [d.plainWrite_placed h hr mid hw, d.writeFields_all (List.ne_nil_of_mem hfd) hall, h.address hin]

/-! ### ADA_SEQ -/

/-- The fields of ADA_SEQ. -/
def adaSeqFields : List FieldDef :=
  [⟨F.ADA_SEQ_LEN, .rwc, 1⟩, ⟨F.ADA_SEQ_IN3, .rwc, 127⟩, ⟨F.ADA_SEQ_IN2, .rwc, 127⟩, ⟨F.ADA_SEQ_IN1, .rwc, 0⟩, ⟨F.ADA_SEQ_IN0, .rwc, 0⟩]

theorem regAt_adaSeq : ∀ l < 48, regAt .adaB (0x100 + 0x10 * l) = some (⟨0x100, 0x10, 48, 0, 1, adaSeqFields⟩, l, 0) := by decide

section
variable {d : Dev} {l : Nat} (hl : l < nSlices d.member)
include hl

theorem placed_adaSeq : Placed d (R.ADA_SEQ l) .adaB 0 (0x100 + 0x10 * l) := by
  have h48 := hl.trans_le (nSlices_le _)
  have hpage : pageOf (R.ADA_SEQ l) = 0x30 := by simp only [R.ADA_SEQ, pageOf]; omega
  refine ⟨by rw [hpage]; rfl, by simp only [R.ADA_SEQ, offOf]; omega, rfl, ?_, by omega⟩
  simp only [absentReg, Bool.or_eq_false_iff, Bool.and_eq_false_iff, decide_eq_false_iff_not]
  omega

theorem Dev.unitWrite_adaSeq (hlive : d.replaying = false) (mid : Nat) (w : Word) :
    d.unitWrite 48 l mid (R.ADA_SEQ l) w = d.adaSeqWrite mid l w := by
  have h48 := hl.trans_le (nSlices_le _)
  rw [Dev.unitWrite_in d h48, Dev.pWrite_placed_eq (placed_adaSeq hl) hlive rfl]
  have hdiv : (0x100 + 0x10 * l - 0x100) / 0x10 = l := by omega
  have hmod : (0x100 + 0x10 * l - 0x100) % 0x10 = 0 := by omega
  have hroute : d.routeWrite mid .adaB 0 (0x100 + 0x10 * l) (R.ADA_SEQ l) w = d.adaPageWrite mid (0x100 + 0x10 * l) (R.ADA_SEQ l) w := rfl
  rw [hroute, Dev.adaPageWrite, if_pos (by omega), hdiv, hmod, if_pos rfl]

theorem Dev.plainWrite_adaSeq {mid : Nat} (ht : d.takenAt mid (R.ADA_SEQ l) = true) (w : Word) :
    d.plainWrite mid (R.ADA_SEQ l) w = d.setReg (R.ADA_SEQ l) (takeAll adaSeqFields w (d.reg (R.ADA_SEQ l))) := by
  have h48 := hl.trans_le (nSlices_le _)
  have hin : inRegs (R.ADA_SEQ l) = true := inRegs_iff.2 (by simp only [R.ADA_SEQ]; omega)
  refine Dev.plainWrite_takenAt (placed_adaSeq hl) hin (regAt_adaSeq l h48) (acc := .rwc) ?_ ht ?_
  · intro fd hfd
    exact ⟨by revert fd; decide, rfl⟩
  · simp only [absentBits]
    rw [if_neg (by omega), if_neg (by omega)]
    exact BitVec.and_zero

/-- The entries of a sequence word. -/
def seqWords (w : Word) : List Nat :=
  [getF w F.ADA_SEQ_IN0, getF w F.ADA_SEQ_IN1, getF w F.ADA_SEQ_IN2, getF w F.ADA_SEQ_IN3].take (getF w F.ADA_SEQ_LEN + 1)

omit hl in
/-- A sequence that another slice's input refuses leaves everything but its result (R93). -/
theorem Dev.adaSeqWrite_held {mid : Nat} (ht : d.takenAt mid (R.ADA_SEQ l) = true) (w : Word) {i h : Nat}
    (hc : d.seqConflict l (seqWords w) = some (i, some h)) : d.adaSeqWrite mid l w =
      ((d.put (R.ADA_LSTAT l) F.ADA_LSTAT_SEQ_RESULT 2).put (R.ADA_LSTAT l) F.ADA_LSTAT_CONF_IN i).put (R.ADA_LSTAT l) F.ADA_LSTAT_CONF_L h := by
  rw [seqWords] at hc
  simp only [Dev.adaSeqWrite, ht, hc, Bool.not_true, Bool.false_eq_true, if_false]

omit hl in
/-- A sequence that names an absent input leaves everything but its result (R93). -/
theorem Dev.adaSeqWrite_absent {mid : Nat} (ht : d.takenAt mid (R.ADA_SEQ l) = true) (w : Word) {i : Nat}
    (hc : d.seqConflict l (seqWords w) = some (i, none)) : d.adaSeqWrite mid l w = d.put (R.ADA_LSTAT l) F.ADA_LSTAT_SEQ_RESULT 3 := by
  rw [seqWords] at hc
  simp only [Dev.adaSeqWrite, ht, hc, Bool.not_true, Bool.false_eq_true, if_false]

/-- A taken sequence, while no overlap runs: its register and its result (R93). -/
theorem Dev.adaSeqWrite_taken {mid : Nat} (ht : d.takenAt mid (R.ADA_SEQ l) = true) {w : Word}
    (hc : d.seqConflict l (seqWords w) = none) (hrot : d.rot = {}) :
    d.adaSeqWrite mid l w =
      (d.setReg (R.ADA_SEQ l) (takeAll adaSeqFields w (d.reg (R.ADA_SEQ l)))).put (R.ADA_LSTAT l) F.ADA_LSTAT_SEQ_RESULT 1 := by
  have hplain := Dev.plainWrite_adaSeq hl ht w
  have hrun : ((d.setReg (R.ADA_SEQ l) (takeAll adaSeqFields w (d.reg (R.ADA_SEQ l)))).put (R.ADA_LSTAT l) F.ADA_LSTAT_SEQ_RESULT 1).rot.run = false := by
    rw [Dev.put_rot, Dev.setReg_rot, hrot]
  rw [seqWords] at hc
  simp only [Dev.adaSeqWrite, ht, hc, hplain, Bool.not_true, Bool.false_eq_true, if_false]
  generalize (d.setReg (R.ADA_SEQ l) (takeAll adaSeqFields w (d.reg (R.ADA_SEQ l)))).put (R.ADA_LSTAT l) F.ADA_LSTAT_SEQ_RESULT 1 = e at hrun ⊢
  simp only [Dev.overlapAbandon, hrun, Bool.false_eq_true, if_false, ite_self]

end

/-- Settles O18, by the steps of a rotation and the branches of a write of a sequence. -/
theorem sliceRotation : Obligations.SliceRotation := by
  refine ⟨fun s hlive => ⟨fun p l hen hpg hf ht hb hp hl => ?_, fun hrun hf hpairs hinc hslice => ⟨fun hpass => ?_, fun hfail => ?_⟩⟩,
    fun s mid l w hlive hl ht => ⟨fun i h hc => ?_, fun i hc => ?_, fun hc hrot => ?_⟩⟩
  · have hp52 : p < 52 := (List.mem_range.1 (List.mem_of_find?_eq_some hp)).trans_le (nPhys_le _)
    have hl64 : l < 64 := (Dev.rotNext_lt hl).trans_le ((nSlices_le _).trans (by decide))
    obtain ⟨hptr, hlast⟩ := Dev.rotBegun_shows hl64 s.dev p
    obtain ⟨hstate, hlsl⟩ := Dev.overlapOne_shows (p := p) hl64 (s.dev.rotBegun p l)
    have hreg := fun (f : RField) => Dev.get_of_reg (Dev.reg_pslChange (s.dev.rotBegun p l) (fun e => e.overlapOne p l) (eventReg_psl hp52)
      (psl_ne_rotStat p)) f
    refine ⟨_, onLive_eq hlive (Dev.rotationStep_eq hen hpg hf ht hb hp hl), s.dev.rotationStep_frame p l, ?_, ?_, ?_, ?_⟩
    · rw [Dev.rotPtr, Dev.get_pslChange _ _ (by decide) (by decide), Dev.overlapOne_get_rotStat]
      exact hptr
    · rw [Dev.get_pslChange _ _ (by decide) (by decide), Dev.overlapOne_get_rotStat]
      exact hlast
    · exact (hreg _).trans hstate
    · exact (hreg _).trans hlsl
  · have heq : s.dev.overlapDecision = { s.dev with rot := { s.dev.rot with run := false, hand := some (s.dev.gtc, false) } } := by
      rw [Dev.overlapDecision, if_pos ⟨hrun, hf, hpairs⟩, if_pos hpass]
    exact onLive_eq hlive heq
  · have heq : s.dev.overlapDecision = s.dev.overlapFail := by
      rw [Dev.overlapDecision, if_pos ⟨hrun, hf, hpairs⟩, if_neg (by rw [hfail]; exact Bool.false_ne_true)]
    exact ⟨_, onLive_eq hlive heq, s.dev.overlapFail_spec hinc⟩
  · have hwrite := Dev.unitWrite_adaSeq hl hlive.2 mid w
    rw [Dev.adaSeqWrite_held ht w hc] at hwrite
    exact onDev_eq hlive.1 hwrite
  · have hwrite := Dev.unitWrite_adaSeq hl hlive.2 mid w
    rw [Dev.adaSeqWrite_absent ht w hc] at hwrite
    exact onDev_eq hlive.1 hwrite
  · have hwrite := Dev.unitWrite_adaSeq hl hlive.2 mid w
    rw [Dev.adaSeqWrite_taken hl ht hc hrot] at hwrite
    have hne : R.ADA_SEQ l ≠ R.ADA_LSTAT l := by simp only [R.ADA_SEQ, R.ADA_LSTAT]; omega
    refine ⟨_, onDev_eq hlive.1 hwrite, ?_, Dev.get_put_self _ _ _ _ (by decide), fun f hf => ?_⟩
    · exact ((FrameOn.refl noPart_part [R.ADA_SEQ l, R.ADA_LSTAT l] s.dev).setReg noPart_part _ (by simp)).put noPart_part _ _ (by simp)
    · rw [Dev.get_put_ne _ _ _ _ hne, Dev.get, Dev.reg_setReg_self]
      have hmem : ∀ f ∈ [F.ADA_SEQ_LEN, F.ADA_SEQ_IN0, F.ADA_SEQ_IN1, F.ADA_SEQ_IN2, F.ADA_SEQ_IN3], ∃ fd ∈ adaSeqFields, fd.f = f ∧ fd.acc = .rwc := by
        decide
      obtain ⟨fd, hfd, rfl, hacc⟩ := hmem f hf
      exact getF_takeAll (by decide) hfd (.inr (.inl hacc)) _ _

end Sys2Proof.Machine
end

section
/-! PROOFS. Samples that reach accumulators and trackers (R117 to R119, R134). -/

namespace Sys2Proof.Machine

/-- Accumulators. -/
def accPart (d e : Dev) : Dev := { d with acc := e.acc }

theorem accPart_part : Part accPart := ⟨fun _ => rfl, fun _ _ _ => rfl, fun _ _ => rfl, fun _ _ _ => rfl⟩

section
variable (d : Dev) (a : Nat) (x : Int) (ts : Nat)

/-- An accumulator's record once it has taken a sample (R119). -/
def Dev.accTaken : AccSt :=
  match (d.accS a).pend with
  | some w =>
    if inClosed w ts then { d.accS a with pend := some (d.accAdd a w (d.accD a x).1 (d.accD a x).2 ts) }
    else match (d.accS a).cur with
      | some v => if v.fOpen ≤ ts then { d.accS a with cur := some (d.accAdd a v (d.accD a x).1 (d.accD a x).2 ts) } else d.accS a
      | none => d.accS a
  | none =>
    match (d.accS a).cur with
    | some v => if v.fOpen ≤ ts then { d.accS a with cur := some (d.accAdd a v (d.accD a x).1 (d.accD a x).2 ts) } else d.accS a
    | none => d.accS a

theorem Dev.accTake_cases : d.accTake a x ts = d.setAcc a (d.accTaken a x ts) ∨ (d.accTake a x ts = d ∧ d.accTaken a x ts = d.accS a) := by
  rw [Dev.accTake, Dev.accTaken]
  dsimp only
  generalize d.accS a = s
  obtain ⟨cur, pend, _, _, _, _⟩ := s
  cases pend with
  | some w =>
    dsimp only
    by_cases hw : inClosed w ts = true
    · rw [if_pos hw, if_pos hw]
      exact .inl rfl
    · rw [if_neg hw, if_neg hw]
      cases cur with
      | none => exact .inr ⟨rfl, rfl⟩
      | some v =>
        by_cases hv : v.fOpen ≤ ts
        · exact .inl (by simp only [hv, if_true])
        · exact .inr (by simp only [hv, if_false, and_self])
  | none =>
    cases cur with
    | none => exact .inr ⟨rfl, rfl⟩
    | some v =>
      by_cases hv : v.fOpen ≤ ts
      · exact .inl (by simp only [hv, if_true])
      · exact .inr (by simp only [hv, if_false, and_self])

theorem Dev.accTake_accS (j : Nat) : (d.accTake a x ts).accS j = if j = a then d.accTaken a x ts else d.accS j := by
  obtain h | ⟨h, hr⟩ := d.accTake_cases a x ts
  · rw [h]
    exact spGet_spPut _ _ _ _
  · rw [h, hr]
    split
    · next hj => rw [hj]
    · rfl

theorem Dev.accTake_only : accPart d (d.accTake a x ts) = d.accTake a x ts := by
  obtain h | ⟨h, -⟩ := d.accTake_cases a x ts
  · rw [h]; rfl
  · rw [h]; rfl

/-- A running accumulator whose one open window admits the timestamp gains a member (R119). -/
theorem Dev.accTaken_cur {w : WinSt} (hp : (d.accS a).pend = none) (hc : (d.accS a).cur = some w) (hw : w.fOpen ≤ ts) :
    d.accTaken a x ts = { d.accS a with cur := some (d.accAdd a w (d.accD a x).1 (d.accD a x).2 ts) } := by
  rw [Dev.accTaken, hp, hc]
  exact if_pos hw

end

/-- Whether an accumulator takes a sample of a source (R117, R118). -/
def Dev.accWants (d : Dev) (sdd : Bool) (src : Nat) (marked : Bool) (a : Nat) : Bool :=
  d.flag (R.ACC_CFG a) F.ACC_CFG_SRC_KIND == sdd && d.get (R.ACC_CFG a) F.ACC_CFG_SRC == src
    && (!marked || d.flag (R.ACC_CFG a) F.ACC_CFG_OW_ACC)

section
variable (d : Dev) (sdd : Bool) (src : Nat) (x : Int) (ts : Nat) (marked : Bool)

/-- The first half of a sample's arrival: the accumulators below `n`. -/
def Dev.accLoop (n : Nat) : Dev :=
  forN n (fun a e => if e.accWants sdd src marked a && e.accOn a then e.accTake a x ts else e) d

/-- The second half: the trackers' limits. -/
def Dev.mmxLoop (n : Nat) : Dev :=
  forN n (fun t e => match e.mmxLink t with
    | some a => if e.accWants sdd src marked a then e.mmxLimit t a x else e
    | none => e) d

theorem Dev.accSample_eq : d.accSample sdd src x ts marked =
    (d.accLoop sdd src x ts marked (nAcc d.member)).mmxLoop sdd src x marked (nMmx (d.accLoop sdd src x ts marked (nAcc d.member)).member) := rfl

/-- The accumulators below a bound have taken the sample, the others stand. -/
theorem Dev.accLoop_spec (n : Nat) : accPart d (d.accLoop sdd src x ts marked n) = d.accLoop sdd src x ts marked n ∧
    ∀ a, (d.accLoop sdd src x ts marked n).accS a =
      if a < n ∧ (d.accWants sdd src marked a && d.accOn a) = true then d.accTaken a x ts else d.accS a := by
  induction n with
  | zero => exact ⟨rfl, fun a => (if_neg fun h => Nat.not_lt_zero a h.1).symm⟩
  | succ n ih =>
    obtain ⟨hpart, hacc⟩ := ih
    have hstep : d.accLoop sdd src x ts marked (n + 1) =
        if d.accWants sdd src marked n && d.accOn n then (d.accLoop sdd src x ts marked n).accTake n x ts else d.accLoop sdd src x ts marked n := by
      have hsame : ∀ e : Dev, accPart d e = e → (e.accWants sdd src marked n && e.accOn n) = (d.accWants sdd src marked n && d.accOn n) := by
        intro e he
        rw [← he]
        rfl
      have hfold : d.accLoop sdd src x ts marked (n + 1) =
          if (d.accLoop sdd src x ts marked n).accWants sdd src marked n && (d.accLoop sdd src x ts marked n).accOn n then
            (d.accLoop sdd src x ts marked n).accTake n x ts else d.accLoop sdd src x ts marked n := by
        rw [Dev.accLoop, forN_succ]
        rfl
      rw [hfold, hsame _ hpart]
    have htaken : (d.accLoop sdd src x ts marked n).accTaken n x ts = d.accTaken n x ts := by
      have hn : (d.accLoop sdd src x ts marked n).accS n = d.accS n := by rw [hacc, if_neg fun h => Nat.lt_irrefl n h.1]
      rw [Dev.accTaken, Dev.accTaken, hn, ← hpart]
      rfl
    rw [hstep]
    by_cases hw : (d.accWants sdd src marked n && d.accOn n) = true
    · rw [if_pos hw]
      refine ⟨?_, fun a => ?_⟩
      · have honly := (d.accLoop sdd src x ts marked n).accTake_only n x ts
        rw [← hpart, accPart_part.again] at honly
        rw [hpart] at honly
        exact honly
      · rw [Dev.accTake_accS, htaken, hacc]
        by_cases ha : a = n
        · rw [if_pos ha, ha, if_pos ⟨Nat.lt_succ_self n, hw⟩]
        · rw [if_neg ha]
          have hlt : a < n + 1 ↔ a < n := by omega
          simp only [hlt]
    · rw [if_neg hw]
      refine ⟨hpart, fun a => ?_⟩
      rw [hacc]
      by_cases ha : a = n
      · rw [ha, if_neg fun h => hw h.2, if_neg fun h => hw h.2]
      · have hlt : a < n + 1 ↔ a < n := by omega
        simp only [hlt]

/-! #### The trackers -/

omit sdd src ts marked in
theorem Dev.mmxLimit_frame {t : Nat} (a : Nat) (ht : t < nMmx d.member) {m : Member} (hm : d.member = m) :
    FrameOn noPart (mmxRegs m) d (d.mmxLimit t a x) := by
  subst hm
  have hp := noPart_part
  have h128 : t < 128 := ht.trans_le (by cases d.member <;> decide)
  have hst : R.MMX_STAT t ∈ mmxRegs d.member := List.mem_append_left _ (List.mem_map_of_mem (List.mem_range.2 ht))
  have hfl : R.MMX_FLAG (t / 64) (t % 64 / 32) ∈ mmxRegs d.member := by
    refine List.mem_append_right _ (List.mem_flatMap.2 ⟨t / 64, List.mem_range.2 (by omega), ?_⟩)
    have h01 : t % 64 / 32 = 0 ∨ t % 64 / 32 = 1 := by omega
    obtain h | h := h01 <;> simp [h]
  have h0 := FrameOn.refl hp (mmxRegs d.member) d
  rw [Dev.mmxLimit]
  refine FrameOn.ite (fun _ => ?_) fun _ => h0
  have h1 : ∀ e : Dev, FrameOn noPart (mmxRegs d.member) d e → ∀ c : Bool, ∀ f, FrameOn noPart (mmxRegs d.member) d
      (if c then e.putB (R.MMX_STAT t) f true else e) :=
    fun e he c f => FrameOn.ite (fun _ => he.putB hp f true hst) fun _ => he
  have h2 := h1 _ (h1 _ h0 (decide ((d.accV a (d.accD a x).1).1 > mantW (d.reg (R.MMX_LIM_HI t)))) F.MMX_STAT_HI_HIT)
    (decide ((d.accV a (d.accD a x).1).1 < mantW (d.reg (R.MMX_LIM_LO t)))) F.MMX_STAT_LO_HIT
  exact FrameOn.ite (fun _ => (h2.orReg hp _ hfl).quiet hp (Dev.raiseN_quiet _ _ _ _)) fun _ => h2

theorem Dev.mmxLink_lt {d : Dev} {t a : Nat} (h : d.mmxLink t = some a) : t < nMmx d.member := by
  rw [Dev.mmxLink] at h
  split at h
  · next hc =>
    simp only [Bool.and_eq_true, decide_eq_true_eq] at hc
    exact hc.1.1.1.1
  · cases h

omit ts in
theorem Dev.mmxLoop_frame (n : Nat) {m : Member} (hm : d.member = m) : FrameOn noPart (mmxRegs m) d (d.mmxLoop sdd src x marked n) := by
  refine forN_keeps (P := fun e => FrameOn noPart (mmxRegs m) d e) n (fun t _ e he => ?_) (FrameOn.refl noPart_part _ d)
  have hem : e.member = m := (congrArg Dev.member he.1 :).trans hm
  split
  · next a ha =>
    exact FrameOn.ite (fun _ => he.trans noPart_part (e.mmxLimit_frame x a (Dev.mmxLink_lt ha) hem)) fun _ => he
  · exact he

/-! #### The arrival, whole -/

theorem Dev.accSample_frame : FrameOn accPart (mmxRegs d.member) d (d.accSample sdd src x ts marked) := by
  obtain ⟨hpart, -⟩ := d.accLoop_spec sdd src x ts marked (nAcc d.member)
  have hm : (d.accLoop sdd src x ts marked (nAcc d.member)).member = d.member := by rw [← hpart]; rfl
  have h1 : FrameOn accPart (mmxRegs d.member) d (d.accLoop sdd src x ts marked (nAcc d.member)) := by
    rw [FrameOn, hpart]
    exact Frame.of_quiet (Quiet.refl _) _
  rw [d.accSample_eq]
  exact h1.trans accPart_part ((Dev.mmxLoop_frame _ sdd src x marked _ hm).widen noPart_part accPart_part (fun _ _ => rfl) fun _ h => h)

theorem Dev.accSample_accS (a : Nat) : (d.accSample sdd src x ts marked).accS a =
    if (d.accWants sdd src marked a && d.accOn a) = true then d.accTaken a x ts else d.accS a := by
  obtain ⟨hpart, hacc⟩ := d.accLoop_spec sdd src x ts marked (nAcc d.member)
  have hm : (d.accLoop sdd src x ts marked (nAcc d.member)).member = d.member := by rw [← hpart]; rfl
  have hkeep := Dev.mmxLoop_frame (d.accLoop sdd src x ts marked (nAcc d.member)) sdd src x marked
    (nMmx (d.accLoop sdd src x ts marked (nAcc d.member)).member) hm
  have hsame : (d.accSample sdd src x ts marked).accS a = (d.accLoop sdd src x ts marked (nAcc d.member)).accS a := by
    rw [d.accSample_eq]
    exact congrArg (fun l => spGet _ l a) (congrArg Dev.acc hkeep.1 :)
  rw [hsame, hacc]
  by_cases ha : a < nAcc d.member
  · simp only [ha, true_and]
  · have hon : d.accOn a = false := by simp only [Dev.accOn, ha, decide_false, Bool.false_and]
    rw [if_neg fun h => ha h.1, hon, Bool.and_false, if_neg Bool.false_ne_true]

/-- A sample reaches every accumulator that takes its source (R117 to R119). -/
theorem Dev.accSample_taken : SampleTaken d (d.accSample sdd src x ts marked) sdd src x ts marked := by
  intro a takes
  have hwants : (d.accWants sdd src marked a && d.accOn a) = takes := by
    simp only [takes, Dev.accWants]
    cases d.accOn a <;> simp
  refine ⟨fun ht => ?_, fun w ht hp hc hw => ?_⟩
  · rw [d.accSample_accS, hwants, ht, if_neg Bool.false_ne_true]
  · rw [d.accSample_accS, hwants, ht, if_pos rfl]
    exact d.accTaken_cur a x ts hp hc hw

end

end Sys2Proof.Machine
end

section
/-! PROOFS. Samples and results of Bank A, copies of Bank B (R90, R91, R97, R98, R109). -/

namespace Sys2Proof.Machine

/-! ### The corrected code -/

theorem Dev.codeC_plain {d : Dev} {p : Nat} (raw : Nat) (ho : d.getI (R.ADA_PSL p) F.ADA_PSL_OFS = 0)
    (hg : d.getI (R.ADA_PSL p) F.ADA_PSL_GAIN_ERR = 0) : d.codeC p raw = 4 * min raw 16383 := by
  have hround : roundDiv ((4 * ((min raw 16383 : Nat) : Int) - 0) * 10000) (10000 + 0 : Int).toNat = 4 * ((min raw 16383 : Nat) : Int) := by
    have hden : (10000 + 0 : Int).toNat = 10000 := rfl
    rw [hden, roundDiv, if_neg (by decide)]
    dsimp only
    rw [if_neg (by omega)]
    omega
  rw [Dev.codeC]
  simp only [ho, hg]
  rw [hround, clampI]
  omega

/-! ### The handover -/

section
variable {d : Dev} {l p t : Nat}

theorem Dev.handover_none (h : d.rot.hand = none) : d.handover l = d := by
  rw [Dev.handover, h]

/-- A handover's device before the slices change their states. -/
def Dev.handBegun (d : Dev) (l : Nat) : Dev :=
  ((((((d.setRot {}).put (R.ADA_LSTAT l) F.ADA_LSTAT_PSL d.rot.inc).putB (R.ADA_LSTAT l) F.ADA_LSTAT_FORCED false).putB (R.ADA_LSTAT l)
    F.ADA_LSTAT_CAL_STALE false).setPtr ((l + 1) % nSlices d.member)).setOvl l {})

/-- The slices' part of a handover: the incoming one serves, the outgoing one is calibrated. -/
def Dev.handSlices (e : Dev) (l inc out : Nat) : Dev := ((e.setPsl inc pslACTIVE).setLsl inc l).pslCal out

theorem Dev.handover_eq (h : d.rot.hand = some (t, false)) (hs : d.servedBy l = some p) (hl : d.rot.slice = l) (ht : t < d.gtc) :
    d.handover l = (d.handBegun l).pslChange fun e => e.handSlices l d.rot.inc p := by
  rw [Dev.handover, h, hs]
  dsimp only
  rw [if_pos ⟨hl, ht⟩]
  simp only [Bool.false_eq_true, if_false]
  rfl

theorem Dev.handSlices_state (e : Dev) (l : Nat) {inc out : Nat} (h : out ≠ inc) :
    (e.handSlices l inc out).pslState inc = pslACTIVE ∧ (e.handSlices l inc out).pslState out = pslCAL := by
  refine ⟨?_, (Dev.pslCal_shows _ _).1⟩
  rw [Dev.handSlices, Dev.pslState, Dev.pslCal, Dev.get_of_reg (Dev.reg_setCal _ _ _ _), Dev.setPsl, Dev.get_put_ne _ _ _ _ (psl_ne h.symm)]
  exact (Dev.setLsl_state _ _ _ _).trans (e.setPsl_state inc (by decide))

theorem Dev.handSlices_frame (e : Dev) (l inc out : Nat) : FrameOn calPart [R.ADA_PSL inc, R.ADA_PSL out] e (e.handSlices l inc out) :=
  (((FrameOn.refl calPart_part _ e).put calPart_part _ _ (by simp)).put calPart_part _ _ (by simp)).trans calPart_part
    (Dev.pslCal_frame _ (by simp))

theorem Dev.reg_handSlices (e : Dev) (l inc out : Nat) {a : Nat} (hi : a ≠ R.ADA_PSL inc) (ho : a ≠ R.ADA_PSL out) :
    (e.handSlices l inc out).reg a = e.reg a := by
  rw [Dev.handSlices, Dev.pslCal, Dev.reg_setCal, Dev.setPsl, Dev.reg_put_ne _ _ _ ho, Dev.setLsl, Dev.reg_put_ne _ _ _ hi, Dev.setPsl,
    Dev.reg_put_ne _ _ _ hi]

/-- The logical slice's registers at its handover. -/
theorem Dev.handBegun_shows (d : Dev) {l : Nat} (hinc : d.rot.inc < 52) : (d.handBegun l).servedBy l = some d.rot.inc ∧
    (d.handBegun l).flag (R.ADA_LSTAT l) F.ADA_LSTAT_FORCED = false ∧ (d.handBegun l).flag (R.ADA_LSTAT l) F.ADA_LSTAT_CAL_STALE = false ∧
    (d.handBegun l).get R.ADA_ROT_STAT F.ADA_ROT_STAT_PTR = (l + 1) % nSlices d.member := by
  have hmod : (l + 1) % nSlices d.member < 2 ^ fieldWidth F.ADA_ROT_STAT_PTR :=
    (Nat.mod_lt _ (by cases d.member <;> decide)).trans_le ((nSlices_le _).trans (by decide))
  have hreg : ∀ a, (d.handBegun l).reg a = ((((((d.setRot {}).put (R.ADA_LSTAT l) F.ADA_LSTAT_PSL d.rot.inc).putB (R.ADA_LSTAT l)
      F.ADA_LSTAT_FORCED false).putB (R.ADA_LSTAT l) F.ADA_LSTAT_CAL_STALE false).setPtr ((l + 1) % nSlices d.member))).reg a :=
    fun a => Dev.reg_setOvl _ _ _ _
  rw [Dev.servedBy, Dev.get_of_reg (hreg _), Dev.flag_of_reg (hreg _), Dev.flag_of_reg (hreg _), Dev.get_of_reg (hreg _), Dev.setPtr,
    Dev.get_put_self _ _ _ _ (by decide), Dev.get_put_ne _ _ _ _ (lstat_ne_rotStat l), Nat.mod_eq_of_lt hmod]
  have hflag : ∀ (e : Dev) (f : RField) (v : Nat), (e.put R.ADA_ROT_STAT F.ADA_ROT_STAT_PTR v).flag (R.ADA_LSTAT l) f = e.flag (R.ADA_LSTAT l) f :=
    fun e f v => congrArg (· != 0) (Dev.get_put_ne _ _ _ _ (lstat_ne_rotStat l))
  rw [hflag, hflag, Dev.flag_putB_self _ _ _ _ (by decide) (by decide), Dev.putB, Dev.flag_put_field _ _ _ _ (by decide),
    Dev.flag_putB_self _ _ _ _ (by decide) (by decide), Dev.get_put_field _ _ _ _ _ _ (by decide), Dev.putB,
    Dev.get_put_field _ _ _ _ _ _ (by decide), Dev.get_put_self _ _ _ _ (by decide)]
  have hval : d.rot.inc % 2 ^ fieldWidth F.ADA_LSTAT_PSL = d.rot.inc := Nat.mod_eq_of_lt (hinc.trans (by decide))
  rw [hval, if_neg (by omega)]
  exact ⟨rfl, rfl, rfl, rfl⟩

/-- What a handover brings (R98): the incoming slice serves, the outgoing one is calibrated, PTR moves on. -/
structure HandedOver (d : Dev) (l p : Nat) (e : Dev) : Prop where
  rot : e.rot = {}
  served : e.servedBy l = some d.rot.inc
  active : e.pslState d.rot.inc = pslACTIVE
  cal : e.pslState p = pslCAL
  ptr : e.rotPtr = (l + 1) % nSlices d.member
  fails : (e.ovlS l).fails = 0
  forced : e.flag (R.ADA_LSTAT l) F.ADA_LSTAT_FORCED = false
  stale : e.flag (R.ADA_LSTAT l) F.ADA_LSTAT_CAL_STALE = false

theorem Dev.handover_handedOver (h : d.rot.hand = some (t, false)) (hs : d.servedBy l = some p) (hl : d.rot.slice = l) (ht : t < d.gtc)
    (hln : l < nSlices d.member) (hinc : d.rot.inc < nPhys d.member) (hp : p < nPhys d.member) (hne : p ≠ d.rot.inc) :
    HandedOver d l p (d.handover l) := by
  have hl48 := hln.trans_le (nSlices_le _)
  have hinc52 := hinc.trans_le (nPhys_le _)
  have hp52 := hp.trans_le (nPhys_le _)
  obtain ⟨hserved, hforced, hstale, hptr⟩ := d.handBegun_shows (l := l) hinc52
  obtain ⟨hact, hcal⟩ := (d.handBegun l).handSlices_state l hne
  have hcalm := (d.handBegun l).pslChange_calm fun e => e.handSlices l d.rot.inc p
  have hreg : ((d.handBegun l).pslChange fun e => e.handSlices l d.rot.inc p).reg (R.ADA_LSTAT l) = (d.handBegun l).reg (R.ADA_LSTAT l) := by
    rw [Dev.reg_pslChange _ _ (eventReg_lstat hl48) (lstat_ne_rotStat l),
      Dev.reg_handSlices _ _ _ _ (psl_ne_lstat _ hl48).symm (psl_ne_lstat _ hl48).symm]
  have hpsl : ∀ {q}, q < 52 → ((d.handBegun l).pslChange fun e => e.handSlices l d.rot.inc p).pslState q =
      ((d.handBegun l).handSlices l d.rot.inc p).pslState q :=
    fun hq => Dev.get_of_reg (Dev.reg_pslChange _ _ (eventReg_psl hq) (psl_ne_rotStat _)) _
  rw [Dev.handover_eq h hs hl ht]
  refine ⟨(congrArg Dev.rot hcalm :), ?_, (hpsl hinc52).trans hact, (hpsl hp52).trans hcal, ?_, ?_,
    (Dev.flag_of_reg hreg _).trans hforced, (Dev.flag_of_reg hreg _).trans hstale⟩
  · rw [Dev.servedBy, Dev.get_of_reg hreg]
    exact hserved
  · rw [Dev.rotPtr, Dev.get_pslChange _ _ (by decide) (by decide)]
    exact (Dev.get_of_reg (Dev.reg_handSlices _ _ _ _ (psl_ne_rotStat _).symm (psl_ne_rotStat _).symm) _).trans hptr
  · have hkeep : ((d.handBegun l).pslChange fun e => e.handSlices l d.rot.inc p).ovl = (d.handBegun l).ovl :=
      (congrArg Dev.ovl hcalm :).trans (congrArg Dev.ovl ((d.handBegun l).handSlices_frame l d.rot.inc p).1 :)
    have hnew : (d.handBegun l).ovlS l = {} := by rw [Dev.handBegun, Dev.ovlS_setOvl_self]
    rw [Dev.ovlS, hkeep]
    exact congrArg OvlSt.fails hnew

theorem HandedOver.withSamp {e : Dev} (h : HandedOver d l p e) (samp : List SampSt) : HandedOver d l p { e with samp := samp } :=
  ⟨h.rot, h.served, h.active, h.cal, h.ptr, h.fails, h.forced, h.stale⟩

end

/-! ### A sampling instant -/

section
variable {d : Dev} {l raw rawInc : Nat}

/-- A slice's sample after its handover (R90, R91, R97). -/
def Dev.sampled (d : Dev) (l raw rawInc : Nat) : Dev :=
  let i := nthD 0x7F (d.seqEntries l) (d.gtc / 40 % (d.seqEntries l).length)
  match d.servedBy l with
  | some p =>
    if i < nInputs d.member then
      { d with samp := d.samp ++ [{ slice := l, input := i, ts := d.gtc, code := d.codeC p raw,
                                    codeInc := if d.rot.run && d.rot.slice == l && decide (d.rot.step < d.gtc) then some (d.codeC d.rot.inc rawInc) else none }] }
    else d
  | none => d

theorem Dev.adaSample_eq (hl : l < nSlices d.member) (hpg : d.pageEn Pg.ADA = true) (hf : d.frozen Pg.ADA = false)
    (hen : d.flag (R.ADA_LCFG l) F.ADA_LCFG_EN = true) (hgrid : d.gtc % 40 = min (d.get (R.ADA_LCFG l) F.ADA_LCFG_PHASE) 39)
    (hno : ∀ r ∈ d.samp, ¬(r.slice = l ∧ r.ts = d.gtc)) : d.adaSample l raw rawInc = (d.handover l).sampled l raw rawInc := by
  have hany : d.samp.any (fun s => s.slice == l && s.ts == d.gtc) = false := by
    rw [List.any_eq_false]
    intro r hr
    simpa using hno r hr
  simp only [Dev.adaSample, hl, hpg, hf, hen, hgrid, hany, decide_true, BEq.rfl, Bool.not_false, Bool.and_self, if_true]
  rfl

theorem Dev.sampled_handedOver {p : Nat} {f : Dev} (h : HandedOver d l p f) : HandedOver d l p (f.sampled l raw rawInc) := by
  rw [Dev.sampled]
  split
  · split
    · exact h.withSamp _
    · exact h
  · exact h

end

/-! ### Arrivals -/

/-- What a result's arrival changes: accumulators, the overlap's sums, the open-wire windows. -/
def arrPart (d e : Dev) : Dev := { d with acc := e.acc, rot := e.rot, ow := e.ow }

theorem arrPart_part : Part arrPart := ⟨fun _ => rfl, fun _ _ _ => rfl, fun _ _ => rfl, fun _ _ _ => rfl⟩

theorem Dev.overlapPair_eq (d : Dev) (r : SampSt) : ∃ x, d.overlapPair r = { d with rot := x } := by
  rw [Dev.overlapPair]
  split
  · split
    · exact ⟨_, rfl⟩
    · exact ⟨d.rot, rfl⟩
  · exact ⟨d.rot, rfl⟩

theorem Dev.owTake_eq (d : Dev) (i ts code : Nat) : ∃ x, d.owTake i ts code = { d with ow := x } := ⟨_, rfl⟩

/-- A result that has arrived (R91): it is no longer on its way, and it reaches what takes its input. -/
theorem Dev.adaArrival_spec {d : Dev} {l : Nat} {r : SampSt} (hf : d.frozen Pg.ADA = false)
    (h : d.samp.find? (fun x => x.slice == l && decide (x.ts + 40 ≤ d.gtc)) = some r) :
    FrameOn arrPart (mmxRegs d.member) { d with samp := d.samp.erase r } (d.adaArrival l) ∧
      SampleTaken d (d.adaArrival l) false r.input r.code r.ts (d.owMarked r.input r.ts) := by
  obtain ⟨x, hx⟩ := Dev.overlapPair_eq { d with samp := d.samp.erase r } r
  obtain ⟨y, hy⟩ := Dev.owTake_eq { d with samp := d.samp.erase r, rot := x } r.input r.ts r.code
  have heq : d.adaArrival l = Dev.accSample { d with samp := d.samp.erase r, rot := x, ow := y } false r.input r.code r.ts
      (d.owMarked r.input r.ts) := by
    rw [Dev.adaArrival, hf, if_neg Bool.false_ne_true, h]
    dsimp only
    rw [hx, hy]
    rfl
  have hframe := Dev.accSample_frame { d with samp := d.samp.erase r, rot := x, ow := y } false r.input r.code r.ts (d.owMarked r.input r.ts)
  have htaken := Dev.accSample_taken { d with samp := d.samp.erase r, rot := x, ow := y } false r.input r.code r.ts (d.owMarked r.input r.ts)
  rw [heq]
  refine ⟨?_, htaken⟩
  have h0 : FrameOn arrPart (mmxRegs d.member) { d with samp := d.samp.erase r } { d with samp := d.samp.erase r, rot := x, ow := y } :=
    (FrameOn.refl arrPart_part _ _).part arrPart_part rfl fun _ => rfl
  exact h0.trans arrPart_part (hframe.widen accPart_part arrPart_part (fun _ _ => rfl) fun _ h => h)

/-- A copy that has arrived (R109). -/
theorem Dev.adbCopyArrival_eq {d : Dev} {c : Nat} {y : Int} {t : Nat} {q : List (Int × Nat)} (hf : d.frozen Pg.ADB = false)
    (h : (d.sddS c).copies = (y, t) :: q) (ht : t + 6 ≤ d.gtc) :
    d.adbCopyArrival c = (d.setSdd c { d.sddS c with copies := q }).accSample true c (y / 256) d.gtc false := by
  rw [Dev.adbCopyArrival]
  simp only [h]
  exact if_pos ⟨ht, hf⟩

/-- Settles O16: the sample of an instant, with or without its handover, and the arrival of what was sampled. -/
theorem sliceSampling : Obligations.SliceSampling := by
  refine ⟨fun s l raw rawInc p hlive => ?_, fun s hlive hada hadb => ⟨fun l r hr => ?_, fun c y t q hq ht => ?_⟩⟩
  · intro d es i hl hpg hf hen hgrid hno hserved
    have heq := Dev.adaSample_eq (raw := raw) (rawInc := rawInc) hl hpg hf hen hgrid hno
    refine ⟨fun hhand hi => ⟨?_, fun ho hg => Dev.codeC_plain raw ho hg⟩, fun t hhand hslice ht hinc hp hne => ?_⟩
    · rw [Dev.handover_none hhand, Dev.sampled, hserved] at heq
      dsimp only at heq
      rw [if_pos hi] at heq
      refine onLive_eq hlive (heq.trans ?_)
      simp only [Bool.and_eq_true, beq_iff_eq, decide_eq_true_eq, and_assoc]
      rfl
    · have hand := Dev.handover_handedOver hhand hserved hslice ht hl hinc hp hne
      obtain ⟨h1, h2, h3, h4, h5, h6, h7, h8⟩ := Dev.sampled_handedOver (raw := raw) (rawInc := rawInc) hand
      exact ⟨_, onLive_eq hlive heq, h1, h2, h3, h4, h5, h6, h7, h8⟩
  · exact ⟨_, onLive_eq hlive rfl, Dev.adaArrival_spec hada hr⟩
  · refine ⟨_, onLive_eq hlive (Dev.adbCopyArrival_eq hadb hq ht), ?_, ?_⟩
    · exact Dev.accSample_frame _ true c (y / 256) s.dev.gtc false
    · exact Dev.accSample_taken (s.dev.setSdd c { s.dev.sddS c with copies := q }) true c (y / 256) s.dev.gtc false

end Sys2Proof.Machine
end

section
/-! PROOFS. What decoders of position may change, and what a delivery brings (R162). -/

namespace Sys2Proof.Machine

/-- An operation repeated for every number below a bound, where each number has one state before and one after its turn. -/
theorem forN_stages {σ : Type} {I : σ → Prop} {B A : Nat → σ → Prop} {f : Nat → σ → σ} (n : Nat)
    (hstep : ∀ k < n, ∀ s, I s → B k s → I (f k s) ∧ A k (f k s))
    (hB : ∀ k < n, ∀ j < n, k < j → ∀ s, I s → B j s → B j (f k s)) (hA : ∀ k < n, ∀ j < k, ∀ s, I s → A j s → A j (f k s))
    {s : σ} (hI : I s) (hs : ∀ k < n, B k s) : I (forN n f s) ∧ ∀ k < n, A k (forN n f s) := by
  have main : ∀ m ≤ n, I (forN m f s) ∧ (∀ k < m, A k (forN m f s)) ∧ ∀ k < n, m ≤ k → B k (forN m f s) := by
    intro m
    induction m with
    | zero => exact fun _ => ⟨hI, fun k hk => absurd hk (Nat.not_lt_zero k), fun k hk _ => hs k hk⟩
    | succ m ih =>
      intro hm
      obtain ⟨hi, ha, hb⟩ := ih (by omega)
      obtain ⟨hi', ham⟩ := hstep m (by omega) _ hi (hb m (by omega) (Nat.le_refl m))
      rw [forN_succ]
      refine ⟨hi', fun k hk => ?_, fun k hk hmk => hB m (by omega) k hk (by omega) _ hi (hb k hk (by omega))⟩
      obtain rfl | hlt := Nat.eq_or_lt_of_le (Nat.le_of_lt_succ hk)
      · exact ham
      · exact hA m (by omega) k hlt _ hi (ha k hlt)
  obtain ⟨hi, ha, -⟩ := main n (Nat.le_refl n)
  exact ⟨hi, ha⟩

/-! ### Frames -/

theorem posPart_part : Part Dev.posPart := ⟨fun _ => rfl, fun _ _ _ => rfl, fun _ _ => rfl, fun _ _ _ => rfl⟩

/-- Registers that a decoder writes, an interface's or a shadow's. -/
def decRegs (x : Nat) : List Nat := if isShadow x then shdRegs (posIfc x) else posRegs (posIfc x) ++ trkRegs

theorem TrkStep.frameOn {k : Nat} {d e : Dev} (h : TrkStep [k] d e) (hk : k < nTracks) {l : List Nat} (hl : ∀ a ∈ trkRegs, a ∈ l) :
    FrameOn Dev.posPart l d e := by
  obtain ⟨⟨hc, hr, hraw⟩, -⟩ := h
  have hmem : ∀ a ∈ [k].map R.TRK_STAT ++ [R.TL_TRK_FLAG, R.TL_ZS_INFO], a ∈ l := by
    intro a ha
    refine hl a ?_
    rw [List.map_cons, List.map_nil, List.cons_append, List.nil_append, List.mem_cons] at ha
    obtain rfl | ha := ha
    · exact List.mem_append_left _ (List.mem_map_of_mem (List.mem_range.2 hk))
    · exact List.mem_append_right _ ha
  have hpos : e.pos = d.pos := (congrArg Dev.pos hc :)
  refine ⟨?_, fun a ha hm => (hr a ha fun hx => hm (hmem a hx)).trans rfl, fun p i hm hx => hraw p i (fun hy => hm (hmem _ hy)) hx⟩
  rw [hc, Dev.posPart, hpos]

section
variable {l : List Nat} {d e : Dev} {x : Nat}

theorem FrameOn.setPos (h : FrameOn Dev.posPart l d e) (k : Nat) (v : PosSt) : FrameOn Dev.posPart l d (e.setPos k v) :=
  h.part posPart_part rfl fun _ => rfl

variable (hl : ∀ a ∈ decRegs x, a ∈ l)
include hl

theorem posStat_mem : posStat x ∈ l := by
  refine hl _ ?_
  rw [posStat, decRegs]
  split <;> simp [shdRegs, posRegs]

theorem FrameOn.posValid {p : Dev → Dev → Dev} (hp : Part p) (h : FrameOn p l d e) (b : Bool) : FrameOn p l d (e.posValid x b) :=
  h.putB hp _ b (posStat_mem hl)

theorem FrameOn.posUncert {p : Dev → Dev → Dev} (hp : Part p) (h : FrameOn p l d e) (b : Bool) : FrameOn p l d (e.posUncert x b) :=
  h.putB hp _ b (posStat_mem hl)

theorem FrameOn.posErr {p : Dev → Dev → Dev} (hp : Part p) (h : FrameOn p l d e) (ev : Nat) : FrameOn p l d (e.posErr x ev) := by
  rw [Dev.posErr]
  by_cases hs : isShadow x = true
  · have hm : R.SHD_STAT (posIfc x) ∈ l := hl _ (by simp [decRegs, hs, shdRegs])
    rw [if_pos hs]
    exact (h.bump hp _ hm).quiet hp (Dev.raiseN_quiet _ _ _ _)
  · have hm : R.POS_ERRCNT (posIfc x) ∈ l := hl _ (by simp [decRegs, hs, posRegs])
    rw [if_neg hs]
    exact (h.bump hp _ hm).quiet hp (Dev.raiseN_quiet _ _ _ _)

end

/-! ### A delivery -/

theorem Dev.queueUpd_step (d : Dev) (k : Nat) (u : Upd) : TrkStep [k] d (d.queueUpd k u) := TrkStep.setTrk d k _

theorem Dev.giveUpd_step (d : Dev) (k : Nat) (u : Upd) : TrkStep [k] d (d.giveUpd k u) :=
  TrkStep.ite (d.applyUpd_trkStep k u) (d.queueUpd_step k u)

section
variable (d : Dev) (n m : Nat) (v : Option Int) (ts ta : Nat) (zero : Bool)

/-- The update that a delivery of an interface gives to a track (R162). -/
def Dev.deliveredUpd (e : Dev) (k : Nat) : Upd :=
  let f : Int := if e.flag (R.TRK_CFG k) F.TRK_CFG_INV then -1 else 1
  let t : Nat × Option Int := if d.posElec n then (wrapN 20 ((m : Int) * f) * cnt20, v.map fun y => fitSpd (y * f)) else e.trkTerms k m v
  { m := t.1, v := t.2, ts := ts, ta := ta, valid := d.flag (R.POS_STAT n) F.POS_STAT_VALID, unc := d.flag (R.POS_STAT n) F.POS_STAT_UNCERT,
    zero := zero, logged := true }

/-- An interface's registers once it has delivered. -/
def Dev.shownPos : Dev :=
  match v with
  | some s => (d.put (R.POS_ANG n) F.POS_ANG_ANG m).setReg (R.POS_SPD n) (wordOfInt s)
  | none => d.put (R.POS_ANG n) F.POS_ANG_ANG m

/-- A shadow's registers once it has delivered. -/
def Dev.shownShd : Dev :=
  match v with
  | some s => (d.put (R.SHD_ANG n) F.SHD_ANG_ANG m).setReg (R.SHD_SPD n) (wordOfInt s)
  | none => d.put (R.SHD_ANG n) F.SHD_ANG_ANG m

/-- An interface's delivery at the tracks. -/
def Dev.giveAll : Dev :=
  forN nTracks (fun k e => if e.trkSrc k = n + 1 then e.giveUpd k (d.deliveredUpd n m v ts ta zero e k) else e) d

theorem Dev.posDeliver_shadow {x : Nat} (h : isShadow x = true) : d.posDeliver x m v ts ta zero = d.shownShd (posIfc x) m (v.map fitSpd) := by
  rw [Dev.posDeliver]
  simp only [h, if_true]
  cases v <;> rfl

theorem Dev.posDeliver_interface (h : n < 16) : d.posDeliver n m v ts ta zero =
    (d.shownPos n m (v.map fitSpd)).giveAll n m (v.map fitSpd) ts ta zero := by
  have hs : isShadow n = false := decide_eq_false (by omega)
  have hn : posIfc n = n := Nat.mod_eq_of_lt h
  rw [Dev.posDeliver]
  simp only [hs, hn, Bool.false_eq_true, if_false]
  cases v <;> rfl

/-- A track's configuration and the tick stand where tracks are updated. -/
structure TrkConf (d e : Dev) : Prop where
  src : ∀ k < nTracks, e.trkSrc k = d.trkSrc k
  gtc : e.gtc = d.gtc
  frozen : e.frozen Pg.TRK = d.frozen Pg.TRK

end

section
variable {d e f : Dev} {k n m : Nat} {v : Option Int} {ts ta : Nat} {zero : Bool}

theorem trkCfg_not_stat {j k : Nat} (hj : j < nTracks) : R.TRK_CFG j ∉ [k].map R.TRK_STAT ++ [R.TL_TRK_FLAG, R.TL_ZS_INFO] := by
  simp only [nTracks] at hj
  simp only [List.map_cons, List.map_nil, List.cons_append, List.nil_append, List.mem_cons, List.not_mem_nil, or_false, R.TRK_CFG, R.TRK_STAT,
    R.TL_TRK_FLAG, R.TL_ZS_INFO]
  omega

theorem TrkStep.conf (h : TrkStep [k] d e) : TrkConf d e := by
  refine ⟨fun j hj => Dev.get_of_reg (h.frame.2.1 _ (eventReg_trkCfg hj) (trkCfg_not_stat hj)) _, (congrArg Dev.gtc h.frame.1 :), ?_⟩
  have hreg : ∀ a, eventReg a = false → a ∉ [k].map R.TRK_STAT ++ [R.TL_TRK_FLAG, R.TL_ZS_INFO] → e.reg a = d.reg a := h.frame.2.1
  have hctrl : e.reg R.DBG_CTRL = d.reg R.DBG_CTRL := hreg _ (by decide) (by
    simp only [List.map_cons, List.map_nil, List.cons_append, List.nil_append, List.mem_cons, List.not_mem_nil, or_false, R.DBG_CTRL,
      R.TRK_STAT, R.TL_TRK_FLAG, R.TL_ZS_INFO]
    omega)
  have hpage : e.reg (R.PG_CTRL Pg.TRK) = d.reg (R.PG_CTRL Pg.TRK) := hreg _ (by decide) (by
    simp only [List.map_cons, List.map_nil, List.cons_append, List.nil_append, List.mem_cons, List.not_mem_nil, or_false, R.PG_CTRL, pageBase,
      Pg.TRK, R.TRK_STAT, R.TL_TRK_FLAG, R.TL_ZS_INFO]
    omega)
  rw [Dev.frozen, Dev.frozen, Dev.flag_of_reg hctrl, Dev.flag_of_reg hpage]

theorem TrkConf.trans (h : TrkConf d e) (g : TrkConf e f) : TrkConf d f :=
  ⟨fun k hk => (g.src k hk).trans (h.src k hk), g.gtc.trans h.gtc, g.frozen.trans h.frozen⟩

theorem TrkConf.refl (d : Dev) : TrkConf d d := ⟨fun _ _ => rfl, rfl, rfl⟩

/-- What a delivery means for one track (R162). -/
def TrackGets (d e : Dev) (n ts ta k : Nat) : Prop :=
  (d.trkSrc k ≠ n + 1 → e.trkS k = d.trkS k) ∧
  (d.trkSrc k = n + 1 → d.gtc < ta → ∃ u : Upd, u.ts = ts ∧ u.ta = ta ∧ e.trkS k = { d.trkS k with upds := (d.trkS k).upds ++ [u] }) ∧
  (d.trkSrc k = n + 1 → ta ≤ d.gtc → d.frozen Pg.TRK = false → (e.trkS k).base = d.gtc ∧ e.flag (R.TRK_STAT k) F.TRK_STAT_STALE = false)

theorem TrkStep.reg_stat_ne (h : TrkStep [k] d e) {j : Nat} (hj : j < nTracks) (hjk : j ≠ k) : e.reg (R.TRK_STAT j) = d.reg (R.TRK_STAT j) := by
  refine h.frame.2.1 _ (eventReg_trkStat hj) ?_
  simp only [nTracks] at hj
  simp only [List.map_cons, List.map_nil, List.cons_append, List.nil_append, List.mem_cons, List.not_mem_nil, or_false, R.TRK_STAT,
    R.TL_TRK_FLAG, R.TL_ZS_INFO]
  omega

/-- A delivery at the tracks changes them alone, and each gets its part. -/
theorem Dev.giveAll_spec (d : Dev) (n m : Nat) (v : Option Int) (ts ta : Nat) (zero : Bool) {l : List Nat} (hl : ∀ a ∈ trkRegs, a ∈ l) :
    FrameOn Dev.posPart l d (d.giveAll n m v ts ta zero) ∧ (d.giveAll n m v ts ta zero).pos = d.pos ∧
      ∀ k < nTracks, TrackGets d (d.giveAll n m v ts ta zero) n ts ta k := by
  have hgoal := forN_stages (I := fun e => (FrameOn Dev.posPart l d e ∧ e.pos = d.pos) ∧ TrkConf d e)
    (B := fun k e => e.trkS k = d.trkS k) (A := fun k e => TrackGets d e n ts ta k)
    (f := fun k e => if e.trkSrc k = n + 1 then e.giveUpd k (d.deliveredUpd n m v ts ta zero e k) else e) nTracks
    (fun k hk e he hb => ?_) (fun k hk j hj hkj e he hb => ?_) (fun k hk j hj e he ha => ?_)
    ⟨⟨FrameOn.refl posPart_part l d, rfl⟩, TrkConf.refl d⟩ (fun k _ => rfl)
  · exact ⟨hgoal.1.1.1, hgoal.1.1.2, hgoal.2⟩
  · obtain ⟨⟨hframe, hpos⟩, hconf⟩ := he
    by_cases hs : d.trkSrc k = n + 1
    · have hse : e.trkSrc k = n + 1 := (hconf.src k hk).trans hs
      have hstep := e.giveUpd_step k (d.deliveredUpd n m v ts ta zero e k)
      refine ⟨?_, ?_⟩
      · rw [if_pos hse]
        exact ⟨⟨hframe.trans posPart_part (hstep.frameOn hk hl), (congrArg Dev.pos hstep.frame.1 :).trans hpos⟩, hconf.trans hstep.conf⟩
      · rw [if_pos hse]
        refine ⟨fun h => absurd hs h, fun _ ht => ?_, fun _ ht hf => ?_⟩
        · have hgive : e.giveUpd k (d.deliveredUpd n m v ts ta zero e k) = e.queueUpd k (d.deliveredUpd n m v ts ta zero e k) :=
            if_neg fun h => absurd h.1 (Nat.not_le.2 (hconf.gtc ▸ ht))
          refine ⟨d.deliveredUpd n m v ts ta zero e k, rfl, rfl, ?_⟩
          rw [hgive, Dev.queueUpd, Dev.trkS_setTrk_self, hb]
        · have hgive : e.giveUpd k (d.deliveredUpd n m v ts ta zero e k) = e.applyUpd k (d.deliveredUpd n m v ts ta zero e k) :=
            if_pos ⟨hconf.gtc ▸ ht, hconf.frozen.trans hf⟩
          obtain ⟨-, -, hbase⟩ := e.applyUpd_record k (d.deliveredUpd n m v ts ta zero e k)
          obtain ⟨-, -, hstale, -⟩ := e.applyUpd_flags hk (d.deliveredUpd n m v ts ta zero e k)
          rw [hgive]
          exact ⟨hbase.trans hconf.gtc, hstale⟩
    · have hse : ¬e.trkSrc k = n + 1 := fun h => hs ((hconf.src k hk).symm.trans h)
      refine ⟨?_, ?_⟩
      · rw [if_neg hse]
        exact ⟨⟨hframe, hpos⟩, hconf⟩
      · rw [if_neg hse]
        exact ⟨fun _ => hb, fun h => absurd h hs, fun h => absurd h hs⟩
  · split
    · exact ((e.giveUpd_step k _).others j (by simp; omega)).trans hb
    · exact hb
  · split
    · have hstep := e.giveUpd_step k (d.deliveredUpd n m v ts ta zero e k)
      have htrk := hstep.others j (by simp; omega)
      have hstat := hstep.reg_stat_ne (hj.trans hk) (Nat.ne_of_lt hj)
      obtain ⟨h1, h2, h3⟩ := ha
      rw [TrackGets, htrk, Dev.flag_of_reg hstat]
      exact ⟨h1, h2, h3⟩
    · exact ha

end

/-! ### A delivery, whole -/

/-- Two devices with the same tracks: a delivery to the one is one to the other. -/
structure SameTracks (d e : Dev) : Prop where
  conf : TrkConf d e
  trk : ∀ k, e.trkS k = d.trkS k

theorem SameTracks.refl (d : Dev) : SameTracks d d := ⟨TrkConf.refl d, fun _ => rfl⟩

theorem SameTracks.trans {d e f : Dev} (h : SameTracks d e) (g : SameTracks e f) : SameTracks d f :=
  ⟨h.conf.trans g.conf, fun k => (g.trk k).trans (h.trk k)⟩

/-- No register of a track's configuration, none that says whether its page stands still. -/
def offTracks (a : Nat) : Prop := (∀ k < nTracks, R.TRK_CFG k ≠ a) ∧ R.DBG_CTRL ≠ a ∧ R.PG_CTRL Pg.TRK ≠ a

theorem SameTracks.of_reg {d e : Dev} (hg : e.gtc = d.gtc) (ht : e.trk = d.trk) (hc : ∀ k < nTracks, e.reg (R.TRK_CFG k) = d.reg (R.TRK_CFG k))
    (hd : e.reg R.DBG_CTRL = d.reg R.DBG_CTRL) (hp : e.reg (R.PG_CTRL Pg.TRK) = d.reg (R.PG_CTRL Pg.TRK)) : SameTracks d e :=
  ⟨⟨fun k hk => Dev.get_of_reg (hc k hk) _, hg, by rw [Dev.frozen, Dev.frozen, Dev.flag_of_reg hd, Dev.flag_of_reg hp]⟩,
    fun k => congrArg (fun l => spGet _ l k) ht⟩

theorem SameTracks.of_quiet {d e : Dev} (h : Quiet d e) : SameTracks d e :=
  SameTracks.of_reg h.gtc h.trk (fun _ hk => h.reg (eventReg_trkCfg hk)) (h.reg (by decide)) (h.reg (by decide))

theorem SameTracks.setReg (d : Dev) {a : Nat} (w : Word) (ha : offTracks a) : SameTracks d (d.setReg a w) :=
  SameTracks.of_reg (d.setReg_gtc a w) (d.setReg_trk a w) (fun k hk => d.reg_setReg_ne w (ha.1 k hk)) (d.reg_setReg_ne w ha.2.1)
    (d.reg_setReg_ne w ha.2.2)

/-- The registers of the position pages lie behind those of the tracks. -/
theorem offTracks_of_le {a : Nat} (h : 0x40048000 ≤ a) (hlt : a < 0x40060000) : offTracks a := by
  refine ⟨fun k hk => ?_, ?_, ?_⟩
  · simp only [nTracks] at hk
    simp only [R.TRK_CFG]
    omega
  · simp only [R.DBG_CTRL]
    omega
  · simp only [R.PG_CTRL, pageBase, Pg.TRK]
    omega

section
variable {d e f : Dev} {n m : Nat} {v : Option Int} {ts ta : Nat} {zero : Bool}

theorem Delivered.of_same (h : Delivered d e n m v ts ta) (hs : SameTracks f d) : Delivered f e n m v ts ta := by
  obtain ⟨hang, hspd, htrk⟩ := h
  obtain ⟨⟨hsrc, hgtc, hfrozen⟩, hrec⟩ := hs
  refine ⟨hang, hspd, fun k hk => ?_⟩
  have hk' := htrk k hk
  rw [hsrc k hk, hgtc, hfrozen, hrec k] at hk'
  exact hk'

theorem eventReg_pos {r : Nat} (hr : 0x40 ≤ r) (hr2 : r < 0x100) (hn : n < 12) : eventReg (0x40048000 + r + 0x1000 * n) = false := by
  rw [eventReg_eq_false]
  omega

theorem eventReg_posAng (hn : n < 12) : eventReg (R.POS_ANG n) = false := eventReg_pos (r := 0x64) (by decide) (by decide) hn
theorem eventReg_posSpd (hn : n < 12) : eventReg (R.POS_SPD n) = false := eventReg_pos (r := 0x68) (by decide) (by decide) hn
theorem eventReg_posStat (hn : n < 12) : eventReg (R.POS_STAT n) = false := eventReg_pos (r := 0x6C) (by decide) (by decide) hn

theorem Delivered.of_quiet (hn : n < 12) (h : Delivered d e n m v ts ta) (hq : Quiet e f) : Delivered d f n m v ts ta := by
  obtain ⟨hang, hspd, htrk⟩ := h
  refine ⟨(hq.get (eventReg_posAng hn) _).trans hang, fun x hx => (hq.reg (eventReg_posSpd hn)).trans (hspd x hx), fun k hk => ?_⟩
  have hk' := htrk k hk
  rw [hq.trkS, hq.flag (eventReg_trkStat hk)]
  exact hk'

theorem lt_of_mem_trkRegs {a : Nat} (h : a ∈ trkRegs) : a < 0x40048000 := by
  simp only [trkRegs, List.mem_append, List.mem_map, List.mem_range, nTracks, List.mem_cons, List.not_mem_nil, or_false] at h
  obtain ⟨k, hk, rfl⟩ | rfl | rfl := h
  · simp only [R.TRK_STAT]
    omega
  · decide
  · decide

theorem not_mem_trkRegs {a : Nat} (h : 0x40048000 ≤ a) : a ∉ trkRegs := fun hm => absurd (lt_of_mem_trkRegs hm) (Nat.not_lt.2 h)

/-- An interface's registers show what it delivers. -/
theorem Dev.shownPos_spec (d : Dev) (n m : Nat) (v : Option Int) (hn : n < 12) : SameTracks d (d.shownPos n m v) ∧
    (d.shownPos n m v).get (R.POS_ANG n) F.POS_ANG_ANG = m % 2 ^ 20 ∧ (∀ x, v = some x → (d.shownPos n m v).reg (R.POS_SPD n) = wordOfInt x) := by
  have hang : (d.put (R.POS_ANG n) F.POS_ANG_ANG m).get (R.POS_ANG n) F.POS_ANG_ANG = m % 2 ^ 20 := d.get_put_self _ _ _ (by decide)
  have h1 : SameTracks d (d.put (R.POS_ANG n) F.POS_ANG_ANG m) :=
    SameTracks.setReg d _ (offTracks_of_le (by simp only [R.POS_ANG]; omega) (by simp only [R.POS_ANG]; omega))
  have hne : R.POS_ANG n ≠ R.POS_SPD n := by simp only [R.POS_ANG, R.POS_SPD]; omega
  cases v with
  | none => exact ⟨h1, hang, fun x hx => absurd hx (by simp)⟩
  | some s =>
    rw [Dev.shownPos]
    refine ⟨h1.trans (SameTracks.setReg _ _ (offTracks_of_le (by simp only [R.POS_SPD]; omega) (by simp only [R.POS_SPD]; omega))), ?_, ?_⟩
    · rw [Dev.get, Dev.reg_setReg_ne _ _ hne]
      exact hang
    · rintro x ⟨rfl⟩
      exact Dev.reg_setReg_self _ _ _

theorem Dev.shownPos_frame {l : List Nat} (d : Dev) (n m : Nat) (v : Option Int) (ha : R.POS_ANG n ∈ l) (hs : R.POS_SPD n ∈ l) {p : Dev → Dev → Dev}
    (hp : Part p) : FrameOn p l d (d.shownPos n m v) := by
  cases v with
  | none => exact (FrameOn.refl hp l d).put hp _ _ ha
  | some s => exact ((FrameOn.refl hp l d).put hp _ _ ha).setReg hp _ hs

theorem Dev.shownPos_pos (d : Dev) (n m : Nat) (v : Option Int) : (d.shownPos n m v).pos = d.pos := by
  cases v with
  | none => exact d.put_pos _ _ _
  | some s => exact (Dev.setReg_pos _ _ _).trans (d.put_pos _ _ _)

/-- What an interface's delivery is (R162): its registers and its tracks alone. -/
theorem Dev.posDeliver_spec (d : Dev) (hn : n < 12) (m : Nat) (v : Option Int) (ts ta : Nat) (zero : Bool) {l : List Nat}
    (ha : R.POS_ANG n ∈ l) (hs : R.POS_SPD n ∈ l) (hl : ∀ a ∈ trkRegs, a ∈ l) :
    FrameOn Dev.posPart l d (d.posDeliver n m v ts ta zero) ∧ (d.posDeliver n m v ts ta zero).pos = d.pos ∧
      Delivered d (d.posDeliver n m v ts ta zero) n m v ts ta := by
  rw [d.posDeliver_interface n m v ts ta zero (by omega)]
  obtain ⟨hsame, hang, hspd⟩ := d.shownPos_spec n m (v.map fitSpd) hn
  have hfr := d.shownPos_frame n m (v.map fitSpd) ha hs posPart_part
  have hpos := d.shownPos_pos n m (v.map fitSpd)
  generalize d.shownPos n m (v.map fitSpd) = e at hsame hang hspd hfr hpos ⊢
  obtain ⟨hframe, hkeep, hgets⟩ := e.giveAll_spec n m (v.map fitSpd) ts ta zero (l := l) hl
  obtain ⟨hbare, -, -⟩ := e.giveAll_spec n m (v.map fitSpd) ts ta zero (l := trkRegs) fun _ h => h
  refine ⟨hfr.trans posPart_part hframe, hkeep.trans hpos, Delivered.of_same ⟨?_, fun x hx => ?_, hgets⟩ hsame⟩
  · exact (Dev.get_of_reg (hbare.reg posPart_part (eventReg_posAng hn) (not_mem_trkRegs (by simp only [R.POS_ANG]; omega))) _).trans hang
  · refine (hbare.reg posPart_part (eventReg_posSpd hn) (not_mem_trkRegs (by simp only [R.POS_SPD]; omega))).trans (hspd _ ?_)
    rw [hx]
    rfl

end

/-- A decoder's delivery changes its own registers, and an interface's the tracks. -/
theorem Dev.posDeliver_frame {x : Nat} (hx : posIfc x = x ∧ x < 16 ∨ isShadow x = true) {l : List Nat} (hl : ∀ a ∈ decRegs x, a ∈ l) (d : Dev) (m : Nat)
    (v : Option Int) (ts ta : Nat) (zero : Bool) : FrameOn Dev.posPart l d (d.posDeliver x m v ts ta zero) := by
  obtain ⟨-, hlt⟩ | hs := hx
  · have hn : isShadow x = false := decide_eq_false (by omega)
    have hmem : ∀ a ∈ posRegs x ++ trkRegs, a ∈ l := fun a ha => hl a (by
      rw [decRegs, hn, if_neg Bool.false_ne_true, posIfc, Nat.mod_eq_of_lt hlt]; exact ha)
    rw [d.posDeliver_interface x m v ts ta zero hlt]
    exact (d.shownPos_frame x m _ (hmem _ (by simp [posRegs])) (hmem _ (by simp [posRegs])) posPart_part).trans posPart_part
      (Dev.giveAll_spec _ x m _ ts ta zero fun a ha => hmem a (List.mem_append_right _ ha)).1
  · have hmem : ∀ a ∈ shdRegs (posIfc x), a ∈ l := fun a ha => hl a (by rw [decRegs, hs, if_pos rfl]; exact ha)
    have h0 := (FrameOn.refl posPart_part l d).put posPart_part F.SHD_ANG_ANG m (hmem (R.SHD_ANG (posIfc x)) (by simp [shdRegs]))
    rw [d.posDeliver_shadow m v ts ta zero hs]
    cases v with
    | none => exact h0
    | some s => exact h0.setReg posPart_part _ (hmem (R.SHD_SPD (posIfc x)) (by simp [shdRegs]))

/-- A shadow's delivery leaves every decoder, and the tracks. -/
theorem Dev.posDeliver_pos {x : Nat} (hx : x < 12 ∨ isShadow x = true) (d : Dev) (m : Nat)
    (v : Option Int) (ts ta : Nat) (zero : Bool) : (d.posDeliver x m v ts ta zero).pos = d.pos := by
  obtain hn | hs := hx
  · exact (d.posDeliver_spec hn m v ts ta zero (l := R.POS_ANG x :: R.POS_SPD x :: trkRegs) (by simp) (by simp) (by simp +contextual)).2.1
  · rw [d.posDeliver_shadow m v ts ta zero hs]
    cases v with
    | none => exact d.put_pos _ _ _
    | some s => exact (Dev.setReg_pos _ _ _).trans (d.put_pos _ _ _)

/-! ### A good word -/

theorem Dev.goodWord_frame {x : Nat} (hx : posIfc x = x ∧ x < 16 ∨ isShadow x = true) {l : List Nat} (hl : ∀ a ∈ decRegs x, a ∈ l) (d : Dev) (m ts : Nat) :
    FrameOn Dev.posPart l d (d.goodWord x m ts) := by
  have h0 := ((FrameOn.refl posPart_part l d).setPos x { d.posS x with words := ((ts, m) :: (d.posS x).words).take 256 }).posValid hl posPart_part true
  rw [Dev.goodWord]
  refine FrameOn.trans posPart_part ?_ (Dev.posDeliver_frame hx hl _ _ _ _ _ _)
  split
  · exact FrameOn.ite (fun _ => h0) fun _ => h0.putB posPart_part _ _ (posStat_mem hl)
  · exact h0

end Sys2Proof.Machine
end

section
/-! PROOFS. Bank B's outputs, checks and clocks (R106 to R110). -/

namespace Sys2Proof.Machine

/-! ### Entries of Channel M that are not enabled take no part -/

theorem Dev.meEn_congr {d e : Dev} (h : e.safe = d.safe) (m : Nat) : e.meEn m = d.meEn m := by
  rw [Dev.meEn, Dev.meEn, Dev.me, Dev.me, Dev.spb, Dev.spb, h]

section
variable {d : Dev} (h : ∀ m, d.meEn m = false)
include h

theorem Dev.sddTrip_none (cause : Nat) (p : Nat → Bool) : d.sddTrip cause p = d := by
  refine forN_keeps (P := fun e => e = d) 20 (fun m _ e he => ?_) rfl
  rw [he, h m, Bool.false_and, if_neg Bool.false_ne_true]

theorem Dev.tmSample_none (c : Nat) (y : Int) : d.tmSample c y = d := by
  refine forN_keeps (P := fun e => e = d) 20 (fun m _ e he => ?_) rfl
  rw [he, h m]
  exact if_pos rfl

end

/-! ### The bits of a bitstream -/

theorem nthD_eq_headD {α : Type} (x : α) (l : List α) (k : Nat) : nthD x l k = (l.drop k).headD x := by
  induction l generalizing k with
  | nil => simp [nthD]
  | cons y l ih =>
    cases k with
    | zero => rfl
    | succ k => exact ih k

theorem everyNth_length (div n : Nat) (l : List Bool) : (everyNth div n l).length = n := by
  induction n generalizing l with
  | zero => rfl
  | succ n ih => exact congrArg (· + 1) (ih (l.drop div))

theorem nthD_everyNth (div : Nat) {n j : Nat} (h : j < n) (l : List Bool) : nthD false (everyNth div n l) j = nthD false l (j * div) := by
  induction n generalizing l j with
  | zero => exact absurd h (Nat.not_lt_zero j)
  | succ n ih =>
    cases j with
    | zero => rw [Nat.zero_mul, nthD_eq_headD false l, List.drop_zero]; rfl
    | succ j =>
      have hstep : nthD false (everyNth div (n + 1) l) (j + 1) = nthD false (everyNth div n (l.drop div)) j := rfl
      rw [hstep, ih (Nat.lt_of_succ_lt_succ h), nthD_eq_headD, nthD_eq_headD, List.drop_drop]
      congr 2
      ring

theorem eq_of_nthD {α : Type} (x : α) {l m : List α} (hlen : l.length = m.length) (h : ∀ j < l.length, nthD x l j = nthD x m j) : l = m := by
  induction l generalizing m with
  | nil => exact (List.length_eq_zero_iff.1 hlen.symm).symm
  | cons y l ih =>
    cases m with
    | nil => cases hlen
    | cons z m =>
      have h0 : y = z := h 0 (Nat.succ_pos _)
      rw [h0, ih (Nat.succ.inj hlen) fun j hj => h (j + 1) (Nat.succ_lt_succ hj)]

/-- The bits of a channel's periods are the levels of its sampling instants (R107). -/
theorem Dev.sddBits_of {d : Dev} {c n : Nat} {bits wave : List Bool} (hb : bits.length = n)
    (hw : wave.length = n * d.sdcDiv (d.sddClk c) + d.sddPhase c)
    (h : ∀ j, j < n → nthD false bits j = nthD false wave (j * d.sdcDiv (d.sddClk c) + d.sddPhase c)) : d.sddBits c n wave = some bits := by
  simp only [Dev.sddBits, hw, if_true]
  refine congrArg some (eq_of_nthD false ((everyNth_length _ _ _).trans hb.symm) fun j hj => ?_)
  rw [everyNth_length] at hj
  rw [nthD_everyNth _ hj, h j hj, nthD_eq_headD, nthD_eq_headD, List.drop_drop, Nat.add_comm]

/-! ### A stretch without a transition -/

section
variable {n : Nat} {s : SddSt}

theorem stuckBit_hit (b : Bool) (h : s.hit = true) : (stuckBit n s b).hit = true := by
  rw [stuckBit]
  split
  · simp only [h, Bool.true_or]
  · exact h

theorem stuckBits_hit (bits : List Bool) (h : s.hit = true) : (bits.foldl (stuckBit n) s).hit = true := by
  induction bits generalizing s with
  | nil => exact h
  | cons b bits ih => exact ih (stuckBit_hit b h)

theorem stuckBits_keep (bits : List Bool) : (bits.foldl (stuckBit n) s).main = s.main ∧ (bits.foldl (stuckBit n) s).fast = s.fast ∧
    (bits.foldl (stuckBit n) s).copies = s.copies := by
  induction bits generalizing s with
  | nil => exact ⟨rfl, rfl, rfl⟩
  | cons b bits ih =>
    obtain ⟨hm, hf, hc⟩ := ih (s := stuckBit n s b)
    have hkeep : (stuckBit n s b).main = s.main ∧ (stuckBit n s b).fast = s.fast ∧ (stuckBit n s b).copies = s.copies := by
      rw [stuckBit]
      split <;> exact ⟨rfl, rfl, rfl⟩
    exact ⟨hm.trans hkeep.1, hf.trans hkeep.2.1, hc.trans hkeep.2.2⟩

/-- STUCK_N clocks without a transition are found (R110). -/
theorem stuckBits_found (bits : List Bool) (hne : bits ≠ []) (hsame : ∀ b ∈ bits, s.last = some b) (hs : s.stuck = false)
    (hn : n ≤ s.still + bits.length) : (bits.foldl (stuckBit n) s).hit = true := by
  induction bits generalizing s with
  | nil => exact absurd rfl hne
  | cons b bits ih =>
    have hb : s.last = some b := hsame b List.mem_cons_self
    have hstep : stuckBit n s b = { s with still := s.still + 1, stuck := decide (n ≤ s.still + 1), hit := s.hit || decide (n ≤ s.still + 1) } := by
      simp only [stuckBit, hb, hs, if_true, Bool.false_or, Bool.not_false, Bool.and_true]
    rw [List.foldl_cons, hstep]
    by_cases h1 : n ≤ s.still + 1
    · exact stuckBits_hit bits (by simp only [h1, decide_true, Bool.or_true])
    · rw [List.length_cons] at hn
      refine ih (fun h => ?_) (fun b' hb' => hsame b' (List.mem_cons_of_mem _ hb')) (decide_eq_false h1) (by dsimp only; omega)
      rw [h] at hn
      exact h1 (by simpa using hn)

end

theorem sincBits_outs (bits : List Bool) (s : SincSt) : (bits.foldl sincBit s).outs = s.outs := by
  induction bits generalizing s with
  | nil => rfl
  | cons b bits ih => exact ih (sincBit s b)

/-! ### The shadows that hear a channel -/

/-- Decoders, tracks, ZERO_SLACK, and the words that the spec leaves free. -/
def shdPart (d e : Dev) : Dev := { d with pos := e.pos, trk := e.trk, sync := e.sync, free := e.free }

theorem shdPart_part : Part shdPart := ⟨fun _ => rfl, fun _ _ _ => rfl, fun _ _ => rfl, fun _ _ _ => rfl⟩

theorem isShadow_shadow (n : Nat) : isShadow (16 + n) = true := decide_eq_true (by omega)

section
variable {l : List Nat} {d e : Dev}

theorem FrameOn.toShd (h : FrameOn Dev.posPart l d e) : FrameOn shdPart l d e :=
  h.widen posPart_part shdPart_part (fun _ _ => rfl) fun _ ha => ha

theorem Dev.fresh_frame (d : Dev) : FrameOn shdPart l d d.fresh.2 := (FrameOn.refl shdPart_part l d).part shdPart_part rfl fun _ => rfl

theorem Dev.vecAngle_frame (d : Dev) (y x : Int) : FrameOn shdPart l d (d.vecAngle y x).2 := by
  rw [Dev.vecAngle]
  split
  · exact d.fresh_frame
  · exact FrameOn.refl shdPart_part l d

theorem FrameOn.setPosShd (h : FrameOn shdPart l d e) (k : Nat) (v : PosSt) : FrameOn shdPart l d (e.setPos k v) :=
  h.part shdPart_part rfl fun _ => rfl

variable {n : Nat} (hl : ∀ a ∈ decRegs (16 + n), a ∈ l)
include hl

theorem Dev.shdLoss_frame (d : Dev) : FrameOn shdPart l d (d.shdLoss n) :=
  ((FrameOn.refl shdPart_part l d).posErr hl shdPart_part _).posValid hl shdPart_part false

theorem Dev.shdResWord_frame (d : Dev) : FrameOn shdPart l d (d.shdResWord n) := by
  have h1 : FrameOn shdPart l d d.fresh.2 := d.fresh_frame
  rw [Dev.shdResWord]
  dsimp only
  refine FrameOn.ite (fun _ => h1.trans shdPart_part (Dev.shdLoss_frame hl _)) fun _ => ?_
  exact (h1.trans shdPart_part (Dev.vecAngle_frame _ _ _)).trans shdPart_part (Dev.goodWord_frame (.inr (isShadow_shadow n)) hl _ _ _).toShd

theorem Dev.shdResSample_frame (d : Dev) (c : Nat) (y : Int) : FrameOn shdPart l d (d.shdResSample n c y) := by
  have h0 := FrameOn.refl shdPart_part l d
  rw [Dev.shdResSample]
  refine FrameOn.ite (fun _ => h0) fun _ => ?_
  dsimp only
  refine FrameOn.ite (fun _ => FrameOn.ite (fun _ => FrameOn.setPosShd ?_ _ _) fun _ => (h0.setPosShd _ _).setPosShd _ _) fun _ => h0.setPosShd _ _
  exact FrameOn.ite (fun _ => h0.setPosShd _ _) fun _ => (h0.setPosShd _ _).trans shdPart_part (Dev.shdResWord_frame hl _)

end

/-- Registers of the shadows. -/
def shdAll : List Nat := (List.range 12).flatMap shdRegs

theorem nPos_le (m : Member) : nPos m ≤ 12 := by cases m <;> decide

theorem Dev.shdSample_frame (d : Dev) (c : Nat) (y : Int) : FrameOn shdPart shdAll d (d.shdSample c y) := by
  refine FrameOn.forN shdPart_part _ (fun n hn e => ?_) d
  have h12 : n < 12 := hn.trans_le (nPos_le _)
  have hifc : posIfc (16 + n) = n := by simp only [posIfc]; omega
  refine Dev.shdResSample_frame (n := n) (l := shdAll) (fun a ha => ?_) e c y
  rw [decRegs, isShadow_shadow, if_pos rfl, hifc] at ha
  exact List.mem_flatMap.2 ⟨n, List.mem_range.2 h12, ha⟩

theorem le_of_mem_shdAll {a : Nat} (h : a ∈ shdAll) : 0x400480C0 ≤ a := by
  obtain ⟨n, -, ha⟩ := List.mem_flatMap.1 h
  simp only [shdRegs, List.mem_cons, List.not_mem_nil, or_false, R.SHD_STAT, R.SHD_ANG, R.SHD_SPD] at ha
  omega

/-! ### Registers of Bank B -/

theorem eventReg_chStat {c : Nat} (hc : c < 48) : eventReg (R.ADB_CH_STAT c) = false := by
  rw [eventReg_eq_false]
  simp only [R.ADB_CH_STAT]
  omega

theorem eventReg_chCfg {c : Nat} (hc : c < 48) : eventReg (R.ADB_CH_CFG c) = false := by
  rw [eventReg_eq_false]
  simp only [R.ADB_CH_CFG]
  omega

theorem nSdd_le (m : Member) : nSdd m ≤ 48 := by cases m <;> decide

theorem Dev.sddOn_lt {d : Dev} {c : Nat} (h : d.sddOn c = true) : c < 48 := by
  simp only [Dev.sddOn, Bool.and_eq_true, decide_eq_true_eq] at h
  exact h.1.1.1.1.1.trans_le (nSdd_le _)

/-- Bank B's channels. -/
def sddPart (d e : Dev) : Dev := { d with sdd := e.sdd }

theorem sddPart_part : Part sddPart := ⟨fun _ => rfl, fun _ _ _ => rfl, fun _ _ => rfl, fun _ _ _ => rfl⟩

theorem FrameOn.setSdd {l : List Nat} {d e : Dev} (h : FrameOn sddPart l d e) (k : Nat) (v : SddSt) : FrameOn sddPart l d (e.setSdd k v) :=
  h.part sddPart_part rfl fun _ => rfl

/-! ### An output of a channel -/

section
variable {d : Dev} {c : Nat} {bits : List Bool}

/-- A channel's record after an output (R108, R109). -/
def Dev.sincRec (d : Dev) (c : Nat) (bits : List Bool) : SddSt :=
  let s := bits.foldl (stuckBit d.stuckN) (d.sddS c)
  let y := sincY (sincOut (bits.foldl sincBit s.main)).1 (d.sddOsr c)
  { s with main := (sincOut (bits.foldl sincBit s.main)).2, y := y,
           copies := if d.flag (R.ADB_CH_CFG c) F.ADB_CH_CFG_ACC_COPY then s.copies ++ [(y, d.gtc)] else s.copies }

/-- The device once the output is shown, but for CLIP. -/
def Dev.sincShown (d : Dev) (c : Nat) (bits : List Bool) : Dev :=
  (d.setSdd c (d.sincRec c bits)).putB (R.ADB_CH_STAT c) F.ADB_CH_STAT_RUN true

theorem Dev.sinc3Bits_eq (h : 3 ≤ (d.sddS c).main.outs) : d.sinc3Bits c bits =
    if 15 * 2 ^ 19 ≤ (d.sincRec c bits).y.natAbs then
      ((d.sincShown c bits).putB (R.ADB_CH_STAT c) F.ADB_CH_STAT_CLIP true).raiseN Pg.ADB Ev.SD_CLIP c
    else d.sincShown c bits := by
  have houts : ¬(sincOut (bits.foldl sincBit (bits.foldl (stuckBit d.stuckN) (d.sddS c)).main)).2.outs ≤ 3 := by
    have h1 : (sincOut (bits.foldl sincBit (bits.foldl (stuckBit d.stuckN) (d.sddS c)).main)).2.outs = (d.sddS c).main.outs + 1 := by
      rw [sincOut]
      dsimp only
      rw [sincBits_outs, (stuckBits_keep bits).1]
    omega
  rw [Dev.sinc3Bits]
  dsimp only
  rw [if_neg houts]
  rfl

theorem Dev.sincRec_spec (hlen : bits.length = d.sddOsr c) :
    let y := sincY (sincOut (bits.foldl sincBit (d.sddS c).main)).1 (d.sddOsr c)
    (d.sincRec c bits).y = y ∧
    (d.sincRec c bits).copies = (d.sddS c).copies ++ (if d.flag (R.ADB_CH_CFG c) F.ADB_CH_CFG_ACC_COPY then [(y, d.gtc)] else []) ∧
    ((∀ b ∈ bits, (d.sddS c).last = some b) → (d.sddS c).stuck = false → d.stuckN ≤ (d.sddS c).still + d.sddOsr c →
      (d.sincRec c bits).hit = true) := by
  obtain ⟨hmain, -, hcopies⟩ := stuckBits_keep (n := d.stuckN) (s := d.sddS c) bits
  refine ⟨?_, ?_, fun hsame hs hn => ?_⟩
  · rw [Dev.sincRec]
    dsimp only
    rw [hmain]
  · rw [Dev.sincRec]
    dsimp only
    rw [hmain, hcopies]
    split
    · rfl
    · exact (List.append_nil _).symm
  · have hne : bits ≠ [] := by
      rintro rfl
      rw [List.length_nil, Dev.sddOsr, clampN] at hlen
      split at hlen
      · omega
      · split at hlen <;> omega
    exact stuckBits_found bits hne hsame hs (hlen ▸ hn)

end

section
variable {d : Dev} {c : Nat} {bits : List Bool}

theorem Dev.setSdd_safe (d : Dev) (k : Nat) (v : SddSt) : (d.setSdd k v).safe = d.safe := rfl

theorem Dev.putB_safe (d : Dev) (a : Nat) (f : RField) (b : Bool) : (d.putB a f b).safe = d.safe := rfl

theorem Dev.sddS_putB (d : Dev) (a : Nat) (f : RField) (b : Bool) (k : Nat) : (d.putB a f b).sddS k = d.sddS k := Dev.sddS_put _ _ _ _ _

theorem Dev.setSdd_put (d : Dev) (a : Nat) (f : RField) (v k : Nat) (x : SddSt) : (d.put a f v).setSdd k x = (d.setSdd k x).put a f v := rfl

theorem Dev.sincShown_spec (d : Dev) (c : Nat) (bits : List Bool) :
    (d.sincShown c bits).sddS c = d.sincRec c bits ∧ (∀ k, k ≠ c → (d.sincShown c bits).sddS k = d.sddS k) ∧
      (d.sincShown c bits).flag (R.ADB_CH_STAT c) F.ADB_CH_STAT_RUN = true ∧ (d.sincShown c bits).safe = d.safe := by
  rw [Dev.sincShown]
  refine ⟨by rw [Dev.sddS_putB, Dev.sddS_setSdd_self], fun k hk => by rw [Dev.sddS_putB, Dev.sddS_setSdd, if_neg hk], ?_, ?_⟩
  · exact Dev.flag_putB_self _ _ _ true rfl (by decide)
  · rw [Dev.putB_safe, Dev.setSdd_safe]

theorem Dev.sinc3Bits_spec (hc : c < 48) (h : 3 ≤ (d.sddS c).main.outs) :
    (d.sinc3Bits c bits).sddS c = d.sincRec c bits ∧ (∀ k, k ≠ c → (d.sinc3Bits c bits).sddS k = d.sddS k) ∧
      (d.sinc3Bits c bits).flag (R.ADB_CH_STAT c) F.ADB_CH_STAT_RUN = true ∧ (d.sinc3Bits c bits).safe = d.safe ∧
      (15 * 2 ^ 19 ≤ (d.sincRec c bits).y.natAbs →
        (d.sinc3Bits c bits).flag (R.ADB_CH_STAT c) F.ADB_CH_STAT_CLIP = true ∧ Raised (d.sinc3Bits c bits) Pg.ADB Ev.SD_CLIP) := by
  obtain ⟨hown, hoth, hrun, hsafe⟩ := d.sincShown_spec c bits
  rw [Dev.sinc3Bits_eq h]
  generalize d.sincShown c bits = e at hown hoth hrun hsafe ⊢
  split
  · have hq := (e.putB (R.ADB_CH_STAT c) F.ADB_CH_STAT_CLIP true).raiseN_quiet Pg.ADB Ev.SD_CLIP c
    have hst := eventReg_chStat hc
    refine ⟨?_, fun k hk => ?_, ?_, ?_, fun _ => ⟨?_, Dev.raiseN_raised _ _ rfl⟩⟩
    · rw [hq.sddS, Dev.sddS_putB, hown]
    · rw [hq.sddS, Dev.sddS_putB, hoth k hk]
    · rw [hq.flag hst, Dev.putB, Dev.flag_put_field _ _ _ _ (by decide), hrun]
    · rw [hq.safe, Dev.putB_safe, hsafe]
    · rw [hq.flag hst]
      exact Dev.flag_putB_self _ _ _ true rfl (by decide)
  · next hy => exact ⟨hown, hoth, hrun, hsafe, fun hx => absurd hx hy⟩

/-- Readers of an output leave the channels and their status. -/
theorem Dev.shdSample_keeps (hc : c < 48) (e : Dev) (y : Int) : (∀ k, (e.shdSample c y).sddS k = e.sddS k) ∧
    (∀ f, (e.shdSample c y).flag (R.ADB_CH_STAT c) f = e.flag (R.ADB_CH_STAT c) f) ∧ (e.shdSample c y).safe = e.safe ∧
    (Raised e Pg.ADB Ev.SD_CLIP → Raised (e.shdSample c y) Pg.ADB Ev.SD_CLIP) := by
  have hf := e.shdSample_frame c y
  have hsdd : (e.shdSample c y).sdd = e.sdd := (congrArg Dev.sdd hf.1 :)
  refine ⟨fun k => congrArg (fun l => spGet _ l k) hsdd, fun f => ?_, (congrArg Dev.safe hf.1 :), fun hr => ?_⟩
  · refine Dev.flag_of_reg (hf.reg shdPart_part (eventReg_chStat hc) fun hm => ?_) f
    have hle := le_of_mem_shdAll hm
    simp only [R.ADB_CH_STAT] at hle
    omega
  · refine hf.raised shdPart_part (fun hm => ?_) hr
    have hle := le_of_mem_shdAll hm
    revert hle
    decide

theorem Dev.sincDeliver_eq (hme : ∀ m, d.meEn m = false) {wave : List Bool} (hon : d.sddOn c = true)
    (hb : d.sddBits c (d.sddOsr c) wave = some bits) (h : 3 ≤ (d.sddS c).main.outs) :
    d.sincDeliver c wave = (d.sinc3Bits c bits).shdSample c (d.sincRec c bits).y := by
  have hc := Dev.sddOn_lt hon
  have hout : d.sincEmits c wave = true := by
    simp only [Dev.sincEmits, hon, hb, h, Option.isSome_some, decide_true, Bool.and_self]
  have h3 : d.sinc3Output c wave = d.sinc3Bits c bits := by
    simp only [Dev.sinc3Output, hb, hon, if_true]
  obtain ⟨hown, -, -, hsafe, -⟩ := Dev.sinc3Bits_spec (bits := bits) hc h
  rw [Dev.sincDeliver, if_pos hout, h3, hown]
  refine Dev.tmSample_none (fun m => ?_) c _
  rw [Dev.meEn_congr ((Dev.shdSample_keeps hc _ _).2.2.1.trans hsafe), hme m]

/-! ### A stuck bitstream -/

/-- The channel with STUCK, its find taken. -/
def Dev.stuckShown (d : Dev) (c : Nat) : Dev := (d.setSdd c { d.sddS c with hit := false }).putB (R.ADB_CH_STAT c) F.ADB_CH_STAT_STUCK true

theorem Dev.stuckShown_safe (d : Dev) (c : Nat) : (d.stuckShown c).safe = d.safe := by rw [Dev.stuckShown, Dev.putB_safe, Dev.setSdd_safe]

theorem Dev.sdStuckTrip_eq (hme : ∀ m, d.meEn m = false) (hon : d.sddOn c = true) (hit : (d.sddS c).hit = true) :
    d.sdStuckTrip c = (d.stuckShown c).raiseN Pg.ADB Ev.SD_STUCK c := by
  have hdue : d.stuckDue c = true := by rw [Dev.stuckDue, hon, hit]; rfl
  have hstuck : d.sdStuck c = (d.stuckShown c).raiseN Pg.ADB Ev.SD_STUCK c := if_pos hdue
  rw [Dev.sdStuckTrip, if_pos hdue, hstuck]
  refine Dev.sddTrip_none (fun m => ?_) _ _
  rw [Dev.meEn_congr (((d.stuckShown c).raiseN_quiet Pg.ADB Ev.SD_STUCK c).safe.trans (d.stuckShown_safe c)), hme m]

/-! ### The fast detector -/

/-- A channel's second filter after an output. -/
def Dev.fastRec (d : Dev) (c : Nat) (bits : List Bool) : SddSt :=
  { d.sddS c with fast := (sincOut (bits.foldl sincBit (d.sddS c).fast)).2 }

theorem Dev.fastBits_eq (h : 3 ≤ (d.sddS c).fast.outs) : d.fastBits c bits =
    let x := min ((sincOut (bits.foldl sincBit (d.sddS c).fast)).1 * 2 ^ 15) (32767 * (d.sddFast c : Int) ^ 3)
    if d.getI (R.ADB_CH_OVR c) F.ADB_CH_OVR_HI * (d.sddFast c : Int) ^ 3 < x ∨ x < d.getI (R.ADB_CH_OVR c) F.ADB_CH_OVR_LO * (d.sddFast c : Int) ^ 3 then
      ((d.setSdd c (d.fastRec c bits)).putB (R.ADB_CH_STAT c) F.ADB_CH_STAT_OVR true).raiseN Pg.ADB Ev.SD_OVR c
    else d.setSdd c (d.fastRec c bits) := by
  have houts : ¬(sincOut (bits.foldl sincBit (d.sddS c).fast)).2.outs ≤ 3 := by
    have h1 : (sincOut (bits.foldl sincBit (d.sddS c).fast)).2.outs = (d.sddS c).fast.outs + 1 := by
      rw [sincOut]
      dsimp only
      rw [sincBits_outs]
    omega
  rw [Dev.fastBits]
  dsimp only
  rw [if_neg houts]
  simp only [Bool.or_eq_true, decide_eq_true_eq, gt_iff_lt, Nat.cast_pow]
  rfl

end

/-! ### What a channel's status leaves as it was -/

theorem Dev.sddClk_lt (d : Dev) (c : Nat) : d.sddClk c < 16 := getF_lt _ _

/-- Two devices with the same channels and configuration registers. -/
def SddAlike (d e : Dev) : Prop :=
  e.member = d.member ∧ e.sdd = d.sdd ∧ (∀ a, a < R.ADB_CH_CFG 0 → e.reg a = d.reg a) ∧ (∀ c, e.reg (R.ADB_CH_CFG c) = d.reg (R.ADB_CH_CFG c)) ∧
    e.reg R.DBG_CTRL = d.reg R.DBG_CTRL ∧ e.safe = d.safe

section
variable {d e : Dev} (h : SddAlike d e) (c : Nat)
include h

theorem SddAlike.sddS : e.sddS c = d.sddS c := congrArg (fun l => spGet _ l c) h.2.1

theorem SddAlike.get (f : RField) : e.get (R.ADB_CH_CFG c) f = d.get (R.ADB_CH_CFG c) f := Dev.get_of_reg (h.2.2.2.1 c) f

theorem SddAlike.flag (f : RField) : e.flag (R.ADB_CH_CFG c) f = d.flag (R.ADB_CH_CFG c) f := Dev.flag_of_reg (h.2.2.2.1 c) f

theorem SddAlike.sddClk : e.sddClk c = d.sddClk c := h.get c _

theorem SddAlike.clkReg : e.reg (R.ADB_CLK (d.sddClk c)) = d.reg (R.ADB_CLK (d.sddClk c)) := by
  have hk := d.sddClk_lt c
  refine h.2.2.1 _ ?_
  simp only [R.ADB_CLK, R.ADB_CH_CFG]
  omega

theorem SddAlike.sddOn : e.sddOn c = d.sddOn c := by
  have hclk := Dev.flag_of_reg (h.clkReg c) F.ADB_CLK_EN
  have hfrozen : e.frozen Pg.ADB = d.frozen Pg.ADB := by
    rw [Dev.frozen, Dev.frozen, Dev.flag_of_reg h.2.2.2.2.1, Dev.flag_of_reg (h.2.2.1 _ (by decide))]
  rw [Dev.sddClk] at hclk
  rw [Dev.sddOn, Dev.sddOn, h.1, h.flag, h.get, hfrozen, h.sddS, hclk]

theorem SddAlike.sdcDiv : e.sdcDiv (d.sddClk c) = d.sdcDiv (d.sddClk c) := by
  rw [Dev.sdcDiv, Dev.sdcDiv, Dev.get_of_reg (h.clkReg c)]

theorem SddAlike.sddPhase : e.sddPhase c = d.sddPhase c := by
  rw [Dev.sddPhase, Dev.sddPhase, h.sddClk, h.sdcDiv, h.flag, h.get]

theorem SddAlike.sddBits (n : Nat) (wave : List Bool) : e.sddBits c n wave = d.sddBits c n wave := by
  rw [Dev.sddBits, Dev.sddBits, h.sddClk, h.sdcDiv, h.sddPhase]

theorem SddAlike.sddFast : e.sddFast c = d.sddFast c := by
  rw [Dev.sddFast, Dev.sddFast, h.get]

end

theorem sddAlike_status (d : Dev) {c : Nat} (hc : c < 48) (f : RField) (v : Nat) : SddAlike d (d.put (R.ADB_CH_STAT c) f v) := by
  refine ⟨rfl, rfl, fun a ha => d.reg_put_ne _ _ ?_, fun k => d.reg_put_ne _ _ ?_, d.reg_put_ne _ _ ?_, rfl⟩ <;>
    simp only [R.ADB_CH_STAT, R.ADB_CH_CFG, R.DBG_CTRL] at * <;> omega

/-! ### The fast detector with Channel M's reaction -/

section
variable {d : Dev} {c : Nat} {bits wave : List Bool} (hme : ∀ m, d.meEn m = false) (hon : d.sddOn c = true)
  (hb : d.sddBits c (d.sddFast c) wave = some bits) (h : 3 ≤ (d.sddS c).fast.outs)
include hme hon hb h

theorem Dev.fastSincTrip_spec : Frame (d.setSdd c (d.fastRec c bits)) (d.fastSincTrip c wave) [R.ADB_CH_STAT c] ∧
    (let x := min ((sincOut (bits.foldl sincBit (d.sddS c).fast)).1 * 2 ^ 15) (32767 * (d.sddFast c : Int) ^ 3)
     d.getI (R.ADB_CH_OVR c) F.ADB_CH_OVR_HI * (d.sddFast c : Int) ^ 3 < x ∨ x < d.getI (R.ADB_CH_OVR c) F.ADB_CH_OVR_LO * (d.sddFast c : Int) ^ 3 →
      (d.fastSincTrip c wave).flag (R.ADB_CH_STAT c) F.ADB_CH_STAT_OVR = true ∧ Raised (d.fastSincTrip c wave) Pg.ADB Ev.SD_OVR) := by
  have hc := Dev.sddOn_lt hon
  have hst := eventReg_chStat hc
  have hmem : R.ADB_CH_STAT c ∈ [R.ADB_CH_STAT c] := List.mem_singleton_self _
  have hal : SddAlike d (d.putB (R.ADB_CH_STAT c) F.ADB_CH_STAT_OVR false) := sddAlike_status d hc _ _
  have hfast : (d.putB (R.ADB_CH_STAT c) F.ADB_CH_STAT_OVR false).fastSinc3Output c wave =
      (d.putB (R.ADB_CH_STAT c) F.ADB_CH_STAT_OVR false).fastBits c bits := by
    simp only [Dev.fastSinc3Output, hal.sddBits, hal.sddFast, hal.sddOn, hb, hon, if_true]
  have hovr : ∀ f, (d.putB (R.ADB_CH_STAT c) F.ADB_CH_STAT_OVR false).getI (R.ADB_CH_OVR c) f = d.getI (R.ADB_CH_OVR c) f := fun f => by
    have hne : R.ADB_CH_OVR c ≠ R.ADB_CH_STAT c := by simp only [R.ADB_CH_OVR, R.ADB_CH_STAT]; omega
    exact congrArg _ (Dev.get_put_ne d _ _ _ hne)
  have hrec : (d.putB (R.ADB_CH_STAT c) F.ADB_CH_STAT_OVR false).fastRec c bits = d.fastRec c bits := by
    rw [Dev.fastRec, Dev.fastRec, hal.sddS]
  have hsame : (d.putB (R.ADB_CH_STAT c) F.ADB_CH_STAT_OVR false).setSdd c (d.fastRec c bits) =
      (d.setSdd c (d.fastRec c bits)).putB (R.ADB_CH_STAT c) F.ADB_CH_STAT_OVR false := Dev.setSdd_put _ _ _ _ _ _
  have hsafe : (d.setSdd c (d.fastRec c bits)).safe = d.safe := Dev.setSdd_safe _ _ _
  rw [Dev.fastSincTrip, hfast, Dev.fastBits_eq (by rw [hal.sddS]; exact h), hal.sddFast, hal.sddS, hovr, hovr, hrec, hsame]
  generalize d.setSdd c (d.fastRec c bits) = e at hsafe ⊢
  have h0 : FrameOn noPart [R.ADB_CH_STAT c] e (e.putB (R.ADB_CH_STAT c) F.ADB_CH_STAT_OVR false) :=
    (FrameOn.refl noPart_part _ e).putB noPart_part _ _ hmem
  dsimp only
  split
  · have hq := ((e.putB (R.ADB_CH_STAT c) F.ADB_CH_STAT_OVR false).putB (R.ADB_CH_STAT c) F.ADB_CH_STAT_OVR true).raiseN_quiet Pg.ADB Ev.SD_OVR c
    have hflag : (((e.putB (R.ADB_CH_STAT c) F.ADB_CH_STAT_OVR false).putB (R.ADB_CH_STAT c) F.ADB_CH_STAT_OVR true).raiseN
        Pg.ADB Ev.SD_OVR c).flag (R.ADB_CH_STAT c) F.ADB_CH_STAT_OVR = true := by
      rw [hq.flag hst]
      exact Dev.flag_putB_self _ _ _ true rfl (by decide)
    rw [if_pos hflag, Dev.sddTrip_none fun m => ?_]
    · exact ⟨(h0.putB noPart_part _ _ hmem).quiet noPart_part hq, fun _ => ⟨hflag, Dev.raiseN_raised _ _ rfl⟩⟩
    · rw [Dev.meEn_congr (d := d) (by rw [hq.safe, Dev.putB_safe, Dev.putB_safe, hsafe]), hme m]
  · next hx =>
    have hflag : ¬(e.putB (R.ADB_CH_STAT c) F.ADB_CH_STAT_OVR false).flag (R.ADB_CH_STAT c) F.ADB_CH_STAT_OVR = true := by
      rw [Dev.flag_putB_self _ _ _ false rfl (by decide)]
      exact Bool.false_ne_true
    rw [if_neg hflag]
    exact ⟨h0.putB noPart_part _ _ hmem, fun hy => absurd hy hx⟩

end

/-! ### A failed clock -/

/-- Status registers of Bank B's channels. -/
def chStats : List Nat := (List.range 48).map R.ADB_CH_STAT

theorem chStat_mem {c : Nat} (hc : c < 48) : R.ADB_CH_STAT c ∈ chStats := List.mem_map.2 ⟨c, List.mem_range.2 hc, rfl⟩

theorem chCfg_not_mem (c : Nat) : R.ADB_CH_CFG c ∉ chStats := by
  intro hm
  obtain ⟨j, -, hj⟩ := List.mem_map.1 hm
  simp only [R.ADB_CH_STAT, R.ADB_CH_CFG] at hj
  omega

theorem FrameOn.sddHold {d e : Dev} (h : FrameOn sddPart chStats d e) {c : Nat} (hc : c < 48) : FrameOn sddPart chStats d (e.sddHold c) :=
  (((h.setSdd c _).putB sddPart_part F.ADB_CH_STAT_RUN false (chStat_mem hc)).setSdd c _).putB sddPart_part F.ADB_CH_STAT_STUCK true
    (chStat_mem hc)

/-- A channel that a failed clock has stopped. -/
def Dev.stopped (e : Dev) (j : Nat) : Prop :=
  e.flag (R.ADB_CH_STAT j) F.ADB_CH_STAT_STUCK = true ∧ e.flag (R.ADB_CH_STAT j) F.ADB_CH_STAT_RUN = false ∧ (e.sddS j).held = true

theorem Dev.sddHold_stopped (e : Dev) (c : Nat) : (e.sddHold c).stopped c := by
  rw [Dev.sddHold, Dev.stopped]
  refine ⟨Dev.flag_putB_self _ _ _ true rfl (by decide), ?_, ?_⟩
  · rw [Dev.putB, Dev.flag_put_field _ _ _ _ (by decide), Dev.flag, Dev.get, Dev.reg_setSdd]
    exact Dev.flag_putB_self _ _ _ false rfl (by decide)
  · rw [Dev.sddS_putB, Dev.sddS_setSdd_self]

theorem Dev.sddHold_stands (e : Dev) {c j : Nat} (hj : j ≠ c) (h : e.stopped j) : (e.sddHold c).stopped j := by
  have hreg : (e.sddHold c).reg (R.ADB_CH_STAT j) = e.reg (R.ADB_CH_STAT j) := by
    have hne : R.ADB_CH_STAT j ≠ R.ADB_CH_STAT c := by simp only [R.ADB_CH_STAT]; omega
    rw [Dev.sddHold, Dev.sddStop, Dev.putB, Dev.reg_put_ne _ _ _ hne, Dev.reg_setSdd, Dev.putB, Dev.reg_put_ne _ _ _ hne, Dev.reg_setSdd]
  obtain ⟨hs, hr, hh⟩ := h
  refine ⟨(Dev.flag_of_reg hreg _).trans hs, (Dev.flag_of_reg hreg _).trans hr, ?_⟩
  rw [Dev.sddHold, Dev.sddStop, Dev.sddS_putB, Dev.sddS_setSdd, if_neg hj, Dev.sddS_putB, Dev.sddS_setSdd, if_neg hj]
  exact hh

theorem Dev.stopped_quiet {d e : Dev} (hq : Quiet d e) {j : Nat} (hj : j < 48) (h : d.stopped j) : e.stopped j := by
  rw [Dev.stopped, hq.flag (eventReg_chStat hj), hq.flag (eventReg_chStat hj), hq.sddS]
  exact h

/-- The channels of a clock stopped. -/
def Dev.clkHeld (d : Dev) (k : Nat) : Dev :=
  forN (nSdd d.member) (fun c e =>
    if e.get (R.ADB_CH_CFG c) F.ADB_CH_CFG_CLK = k ∧ e.flag (R.ADB_CH_CFG c) F.ADB_CH_CFG_EN then e.sddHold c else e) d

theorem Dev.clkHeld_spec (d : Dev) (k : Nat) : FrameOn sddPart chStats d (d.clkHeld k) ∧ ∀ j < nSdd d.member,
    d.get (R.ADB_CH_CFG j) F.ADB_CH_CFG_CLK = k → d.flag (R.ADB_CH_CFG j) F.ADB_CH_CFG_EN = true → (d.clkHeld k).stopped j := by
  have hle := nSdd_le d.member
  have hcfg : ∀ {e}, FrameOn sddPart chStats d e → ∀ j < 48, e.reg (R.ADB_CH_CFG j) = d.reg (R.ADB_CH_CFG j) := fun he j hj =>
    he.reg sddPart_part (eventReg_chCfg hj) (chCfg_not_mem j)
  refine forN_each (nSdd d.member) (I := FrameOn sddPart chStats d)
    (Q := fun j e => d.get (R.ADB_CH_CFG j) F.ADB_CH_CFG_CLK = k → d.flag (R.ADB_CH_CFG j) F.ADB_CH_CFG_EN = true → e.stopped j) (fun j hj e he => ?_) (fun j hj e he hclk hen => ?_)
    (fun m hm j hj e he hq hclk hen => ?_) (FrameOn.refl sddPart_part _ d)
  · exact FrameOn.ite (fun _ => he.sddHold (by omega)) fun _ => he
  · have hr := hcfg he j (by omega)
    rw [if_pos ⟨(Dev.get_of_reg hr _).trans hclk, (Dev.flag_of_reg hr _).trans hen⟩]
    exact e.sddHold_stopped j
  · split
    · exact e.sddHold_stands (by omega) (hq hclk hen)
    · exact hq hclk hen

theorem Dev.sddOn_stopped {e : Dev} {j : Nat} (h : e.stopped j) : e.sddOn j = false := by
  simp only [Dev.sddOn, h.2.2, Bool.not_true, Bool.and_false]

theorem Dev.sdcFaultTrip_eq {d : Dev} {k : Nat} (hme : ∀ m, d.meEn m = false) (hk : k < nSdc d.member) (hf : d.frozen Pg.ADB = false)
    (hen : d.flag (R.ADB_CLK k) F.ADB_CLK_EN = true) : d.sdcFaultTrip k = (d.clkHeld k).raiseN Pg.ADB Ev.SDC_FAULT k := by
  have hfault : d.sdcFault k = (d.clkHeld k).raiseN Pg.ADB Ev.SDC_FAULT k := if_pos ⟨hk, hf, hen⟩
  rw [Dev.sdcFaultTrip, if_pos ⟨hk, hf, hen⟩, hfault]
  refine Dev.sddTrip_none (fun m => ?_) _ _
  have hsafe : (d.clkHeld k).safe = d.safe := (congrArg Dev.safe (d.clkHeld_spec k).1.1 :)
  rw [Dev.meEn_congr (((d.clkHeld k).raiseN_quiet Pg.ADB Ev.SDC_FAULT k).safe.trans hsafe), hme m]

/-- Settles O20: output, check and detector of a running channel, and the channels of a clock that fails. -/
theorem bankB : Obligations.BankB := by
  unfold Obligations.BankB
  intro s c hl hme
  refine ⟨fun hon => ⟨fun hit => ?_, fun hit => ?_, fun bits wave hb hw hlev h3 => ?_, fun bits wave hb h3 => ?_⟩, fun k hk hf hen => ?_⟩
  · exact ⟨_, onLive_eq hl (Dev.sdStuckTrip_eq hme hon hit), Dev.raiseN_quiet _ _ _ _, Dev.raiseN_raised _ _ rfl⟩
  · refine onLive_same hl (if_neg ?_)
    simp only [Dev.stuckDue, hit, Bool.and_false]
    exact Bool.false_ne_true
  · have hc := Dev.sddOn_lt hon
    obtain ⟨hy, hcop, hhit⟩ := Dev.sincRec_spec hb
    obtain ⟨hown, hoth, hrun, -, hclip⟩ := Dev.sinc3Bits_spec (bits := bits) hc h3
    obtain ⟨ksdd, kflag, -, kraised⟩ := Dev.shdSample_keeps hc (s.dev.sinc3Bits c bits) (s.dev.sincRec c bits).y
    refine ⟨_, onLive_eq hl (Dev.sincDeliver_eq hme hon (Dev.sddBits_of hb hw hlev) h3), ?_⟩
    dsimp only
    rw [ksdd, hown, kflag, kflag, hrun]
    refine ⟨hhit, hy, rfl, hcop, fun hbig => ?_, fun k hk => by rw [ksdd, hoth k hk]⟩
    obtain ⟨hf, hr⟩ := hclip (by rw [hy]; exact hbig)
    exact ⟨hf, kraised hr⟩
  · exact ⟨_, onLive_eq hl rfl, Dev.fastSincTrip_spec hme hon hb h3⟩
  · obtain ⟨-, hstop⟩ := s.dev.clkHeld_spec k
    refine ⟨_, onLive_eq hl (Dev.sdcFaultTrip_eq hme hk hf hen), Dev.raiseN_raised _ _ rfl, fun j hj hclk hj2 => ?_⟩
    have hj48 := hj.trans_le (nSdd_le _)
    have hs := Dev.stopped_quiet ((s.dev.clkHeld k).raiseN_quiet Pg.ADB Ev.SDC_FAULT k) hj48 (hstop j hj hclk hj2)
    exact ⟨hs.1, hs.2.1, Dev.sddOn_stopped hs⟩

end Sys2Proof.Machine
end

section
/-! PROOFS. What releases do to the legs they name and to the others: the cause that is kept (R309, R310). -/

namespace Sys2Proof.Machine

/-! ### Legs of groups -/

/-- The cause kept for a leg. -/
def Dev.legCause (d : Dev) (g x : Nat) : Nat := d.get (gdLstat g) (F.GDT_LSTAT_CAUSE x)

theorem gdLstat_inj {g h : Nat} (hg : g < 20) (hh : h < 20) (hne : h ≠ g) : gdLstat h ≠ gdLstat g := by
  simp only [gdLstat, R.GDT_LSTAT, R.GDA_LSTAT]
  split <;> split <;> omega

theorem eventReg_gdLstat {g : Nat} (hg : g < 20) : eventReg (gdLstat g) = false := by
  rw [eventReg_eq_false]
  simp only [gdLstat, R.GDT_LSTAT, R.GDA_LSTAT]
  split <;> omega

theorem relCnt_ne_lstat {g h : Nat} (hg : g < 20) (hh : h < 20) : gdLstat h ≠ (relCnt g).1 := by
  simp only [gdLstat, relCnt, R.GDT_LSTAT, R.GDA_LSTAT]
  split <;> split <;> simp only [R.GDT_CNT, R.GDA_CNT] <;> omega

theorem Dev.legS_setLeg (d : Dev) (g x : Nat) (q : LegSt) (h y : Nat) :
    (d.setLeg g x q).legS h y = if h = g ∧ y = x then q else d.legS h y := by
  rw [Dev.legS, Dev.setLeg, Dev.grpS_setGrp]
  by_cases hg : h = g
  · rw [if_pos hg, hg]
    dsimp only
    rw [spGet_spPut, Dev.legS]
    simp only [true_and]
  · rw [if_neg hg, if_neg (fun hx => hg hx.1), Dev.legS]

theorem Dev.reg_setLeg (d : Dev) (g x : Nat) (q : LegSt) (a : Nat) : (d.setLeg g x q).reg a = d.reg a := Dev.reg_setGrp _ _ _ _

/-! ### A leg as it stood -/

/-- A leg's release, its cause and its tick stand. -/
def LegAlike (d e : Dev) (g x : Nat) : Prop :=
  e.legReleased g x = d.legReleased g x ∧ e.legCause g x = d.legCause g x ∧ (e.legS g x).relAt = (d.legS g x).relAt

/-- Every leg and the time stand. -/
def LegsAlike (d e : Dev) : Prop := e.gtc = d.gtc ∧ ∀ h < 20, ∀ y < 3, LegAlike d e h y

section
variable {d e f : Dev} {g x : Nat}

theorem LegAlike.trans (h : LegAlike d e g x) (k : LegAlike e f g x) : LegAlike d f g x :=
  ⟨k.1.trans h.1, k.2.1.trans h.2.1, k.2.2.trans h.2.2⟩

theorem LegsAlike.refl (d : Dev) : LegsAlike d d := ⟨rfl, fun _ _ _ _ => ⟨rfl, rfl, rfl⟩⟩

theorem LegsAlike.trans (h : LegsAlike d e) (k : LegsAlike e f) : LegsAlike d f :=
  ⟨k.1.trans h.1, fun g hg x hx => (h.2 g hg x hx).trans (k.2 g hg x hx)⟩

theorem LegAlike.of_reg (hr : e.reg (gdLstat g) = d.reg (gdLstat g)) (hl : (e.legS g x).relAt = (d.legS g x).relAt) : LegAlike d e g x :=
  ⟨Dev.flag_of_reg hr _, Dev.get_of_reg hr _, hl⟩

theorem LegsAlike.of_regs (hg : e.gtc = d.gtc) (hgrp : e.grp = d.grp) (hr : ∀ h < 20, e.reg (gdLstat h) = d.reg (gdLstat h)) :
    LegsAlike d e :=
  ⟨hg, fun h hh y _ => LegAlike.of_reg (hr h hh) (by rw [Dev.legS, Dev.legS, Dev.grpS, Dev.grpS, hgrp])⟩

theorem LegsAlike.of_quiet (h : Quiet d e) : LegsAlike d e := .of_regs h.gtc h.grp fun _ hg => h.2.1 _ (eventReg_gdLstat hg)

theorem LegsAlike.setReg (d : Dev) {a : Nat} (w : Word) (ha : ∀ h < 20, gdLstat h ≠ a) : LegsAlike d (d.setReg a w) :=
  .of_regs rfl rfl fun h hh => d.reg_setReg_ne w (ha h hh)

theorem LegsAlike.setGrp (d : Dev) (g : Nat) (v : GrpSt) (hv : v.legs = (d.grpS g).legs) : LegsAlike d (d.setGrp g v) := by
  refine ⟨rfl, fun h _ y _ => LegAlike.of_reg (Dev.reg_setGrp _ _ _ _) ?_⟩
  rw [Dev.legS, Dev.grpS_setGrp, Dev.legS]
  split
  · next hh => rw [hh, hv]
  · rfl

theorem LegsAlike.setLeg (d : Dev) (g x : Nat) (q : LegSt) (hq : q.relAt = (d.legS g x).relAt) : LegsAlike d (d.setLeg g x q) := by
  refine ⟨rfl, fun h _ y _ => LegAlike.of_reg (d.reg_setLeg _ _ _ _) ?_⟩
  rw [Dev.legS_setLeg]
  split
  · next hh => rw [hq, hh.1, hh.2]
  · rfl

theorem LegsAlike.bump (d : Dev) {g : Nat} (hg : g < 20) (f : RField) : LegsAlike d (d.bump (relCnt g).1 f) :=
  .setReg d _ fun _ hh => relCnt_ne_lstat hg hh

theorem LegsAlike.unbump (d : Dev) {g : Nat} (hg : g < 20) (f : RField) : LegsAlike d (d.unbump (relCnt g).1 f) := by
  rw [Dev.unbump]
  split
  · exact .refl d
  · exact .setReg d _ fun _ hh => relCnt_ne_lstat hg hh

theorem LegsAlike.gdEvent (d : Dev) (g src : Nat) : LegsAlike d (d.gdEvent g src) := by
  have hflag : ∀ a, a = R.GDT_FLAG ∨ a = R.GDA_FLAG → ∀ h < 20, gdLstat h ≠ a := by
    intro a ha h hh
    simp only [gdLstat, R.GDT_LSTAT, R.GDA_LSTAT, R.GDT_FLAG, R.GDA_FLAG] at ha ⊢
    split <;> omega
  rw [Dev.gdEvent]
  refine LegsAlike.trans ?_ (.of_quiet (Dev.raiseN_quiet _ _ _ _))
  split
  · exact .setReg d _ (hflag _ (.inl rfl))
  · exact .setReg d _ (hflag _ (.inr rfl))

end

/-! ### One leg released -/

section
variable {g x : Nat} (hg : g < 20)
include hg

theorem Dev.putCause_alike (d : Dev) (v : Nat) {h y : Nat} (hh : h < 20) (hne : ¬(h = g ∧ y = x)) :
    LegAlike d (d.put (gdLstat g) (F.GDT_LSTAT_CAUSE x) v) h y := by
  by_cases hgh : h = g
  · refine ⟨Dev.flag_put_field _ _ _ _ ?_, Dev.get_put_field _ _ _ _ _ _ ?_, rfl⟩ <;>
      simp only [F.GDT_LSTAT_CAUSE, F.GDT_LSTAT_REL, fieldWidth] <;> omega
  · exact LegAlike.of_reg (Dev.reg_put_ne _ _ _ (gdLstat_inj hg hh hgh)) rfl

theorem Dev.putRel_alike (d : Dev) (b : Bool) {h y : Nat} (hh : h < 20) (hne : ¬(h = g ∧ y = x)) :
    LegAlike d (d.putB (gdLstat g) (F.GDT_LSTAT_REL x) b) h y := by
  by_cases hgh : h = g
  · refine ⟨Dev.flag_put_field _ _ _ _ ?_, Dev.get_put_field _ _ _ _ _ _ ?_, rfl⟩ <;>
      simp only [F.GDT_LSTAT_CAUSE, F.GDT_LSTAT_REL, fieldWidth] <;> omega
  · exact LegAlike.of_reg (Dev.reg_put_ne _ _ _ (gdLstat_inj hg hh hgh)) rfl

variable {d e : Dev} {cause : Nat}

/-- What a release for a cause makes of one leg; the others stand. -/
structure LegTaken (d e : Dev) (g x cause : Nat) : Prop where
  time : e.gtc = d.gtc
  else' : ∀ h < 20, ∀ y < 3, ¬(h = g ∧ y = x) → LegAlike d e h y
  rel : e.legReleased g x = true
  keep : d.legReleased g x = true → (e.legS g x).relAt = (d.legS g x).relAt
  kept : d.legReleased g x = true → d.retakes g x cause = false → e.legCause g x = d.legCause g x
  new : d.legReleased g x = false → (e.legS g x).relAt = d.gtc + 1
  cause : d.legReleased g x = false ∨ d.retakes g x cause = true → e.legCause g x = cause

omit hg in
theorem LegTaken.then (h : LegTaken d e g x cause) (hg : g < 20) (hx : x < 3) {f : Dev} (k : LegsAlike e f) : LegTaken d f g x cause := by
  obtain ⟨kr, kc, ka⟩ := k.2 g hg x hx
  exact ⟨k.1.trans h.time, fun a ha y hy hne => (h.else' a ha y hy hne).trans (k.2 a ha y hy), kr.trans h.rel, fun hr => ka.trans (h.keep hr),
    fun hr ht => kc.trans (h.kept hr ht), fun hr => ka.trans (h.new hr), fun hr => kc.trans (h.cause hr)⟩

omit hg in
theorem LegAlike.retakes (h : LegAlike d e g x) (ht : e.gtc = d.gtc) : e.retakes g x cause = d.retakes g x cause := by
  obtain ⟨hr, hc, ha⟩ := h
  simp only [Dev.legCause] at hc
  rw [Dev.retakes, Dev.retakes, hr, hc, ha, ht]

omit hg in
/-- A leg's release from a device alike. -/
theorem LegTaken.of_alike (h : LegsAlike d e) (hg : g < 20) (hx : x < 3) {f : Dev} (k : LegTaken e f g x cause) : LegTaken d f g x cause := by
  have hown := h.2 g hg x hx
  have hret : e.retakes g x cause = d.retakes g x cause := hown.retakes h.1
  obtain ⟨hr, hc, ha⟩ := hown
  refine ⟨k.time.trans h.1, fun a hga y hy hne => (h.2 a hga y hy).trans (k.else' a hga y hy hne), k.rel, fun hd => ?_, fun hd ht => ?_,
    fun hd => ?_, fun hd => k.cause (by rw [hr, hret]; exact hd)⟩
  · exact (k.keep (hr.trans hd)).trans ha
  · exact (k.kept (hr.trans hd) (hret.trans ht)).trans hc
  · rw [k.new (hr.trans hd), h.1]

theorem Dev.recause_taken (hx : x < 3) (hc : cause < 16) (hrel : d.legReleased g x = true) (hret : d.retakes g x cause = true) :
    LegTaken d (d.recause g x cause) g x cause := by
  have hpre : ∀ e, LegsAlike d e → LegTaken d (e.put (gdLstat g) (F.GDT_LSTAT_CAUSE x) cause) g x cause := by
    refine fun e he => LegTaken.of_alike he hg hx ⟨rfl, fun h hh y _ hne => Dev.putCause_alike hg e cause hh hne, ?_, fun _ => rfl,
      fun _ ht => ?_, fun hr => ?_, fun _ => ?_⟩
    · rw [Dev.legReleased, Dev.flag_put_field _ _ _ _ (by simp only [F.GDT_LSTAT_CAUSE, F.GDT_LSTAT_REL, fieldWidth]; omega)]
      exact (he.2 g hg x hx).1.trans hrel
    · rw [(he.2 g hg x hx).retakes he.1, hret] at ht
      cases ht
    · rw [(he.2 g hg x hx).1, hrel] at hr
      cases hr
    · rw [Dev.legCause, Dev.get_put_self _ _ _ _ (by simp only [F.GDT_LSTAT_CAUSE, fieldWidth]; omega)]
      have hw : fieldWidth (F.GDT_LSTAT_CAUSE x) = 4 := by simp only [F.GDT_LSTAT_CAUSE, fieldWidth]; omega
      rw [hw]
      exact Nat.mod_eq_of_lt hc
  rw [Dev.recause]
  refine hpre _ (LegsAlike.trans ?_ (.of_quiet (Dev.recAmend_quiet _ _)))
  split
  · exact .unbump d hg _
  · split
    · exact .bump d hg _
    · exact .refl d

end

/-- The release and the cause of a leg written, with their tick. -/
def Dev.legMarked (d : Dev) (g x cause : Nat) : Dev :=
  let e := (d.putB (gdLstat g) (F.GDT_LSTAT_REL x) true).put (gdLstat g) (F.GDT_LSTAT_CAUSE x) cause
  e.setLeg g x { e.legS g x with relAt := e.gtc + 1 }

/-- The release counted, recorded and raised. -/
def Dev.legTold (d : Dev) (g x cause : Nat) : Dev :=
  let d := if g < 12 then d.bump (R.GDT_CNT g) F.GDT_CNT_REL_CNT else d.bump (R.GDA_CNT (g - 12)) F.GDA_CNT_REL_CNT
  let d := if relCounts g cause then d.bump (relCnt g).1 (relCnt g).2 else d
  let d := d.emitProt { ty := 0x21, res := 4 * g + x, tick := d.gtc, data := [BitVec.ofNat 32 cause] }
  d.gdEvent g Ev.LEG_REL

/-- The leg's latest cause noted. -/
def Dev.legNoted (d : Dev) (g x : Nat) : Dev := d.setLeg g x { d.legS g x with causeAt := d.gtc + 1 }

section
variable {d e : Dev} {g x cause : Nat}

theorem Dev.relLeg_eq (d : Dev) (g x cause : Nat) : d.relLeg g x cause =
    if (d.legNoted g x).legReleased g x then
      (if (d.legNoted g x).retakes g x cause then (d.legNoted g x).recause g x cause else d.legNoted g x)
    else ((d.legNoted g x).legMarked g x cause).legTold g x cause := rfl

theorem Dev.legNoted_alike (d : Dev) (g x : Nat) : LegsAlike d (d.legNoted g x) := .setLeg d g x _ rfl

theorem Dev.legTold_alike (d : Dev) (hg : g < 20) (x cause : Nat) : LegsAlike d (d.legTold g x cause) := by
  have hrel : LegsAlike d (if g < 12 then d.bump (R.GDT_CNT g) F.GDT_CNT_REL_CNT else d.bump (R.GDA_CNT (g - 12)) F.GDA_CNT_REL_CNT) := by
    have hcnt := LegsAlike.bump d hg
    rw [relCnt] at hcnt
    split
    · next h => simpa only [h, if_true] using hcnt _
    · next h => simpa only [h, if_false] using hcnt _
  have hsup : ∀ e : Dev, LegsAlike e (if relCounts g cause then e.bump (relCnt g).1 (relCnt g).2 else e) := fun e => by
    split
    · exact .bump e hg _
    · exact .refl e
  exact LegsAlike.trans (LegsAlike.trans (hrel.trans (hsup _)) (.of_quiet (Dev.emitProt_quiet _ _))) (.gdEvent _ _ _)

theorem Dev.legMarked_taken (d : Dev) (hg : g < 20) (hx : x < 3) (hc : cause < 16) (hrel : d.legReleased g x = false) :
    LegTaken d (d.legMarked g x cause) g x cause := by
  have hw : fieldWidth (F.GDT_LSTAT_CAUSE x) = 4 := by simp only [F.GDT_LSTAT_CAUSE, fieldWidth]; omega
  refine ⟨rfl, fun h hh y _ hne => ?_, ?_, fun hr => ?_, fun hr => ?_, fun _ => ?_, fun _ => ?_⟩
  · refine (Dev.putRel_alike hg d true hh hne).trans ((Dev.putCause_alike hg _ cause hh hne).trans (LegAlike.of_reg ?_ ?_))
    · exact Dev.reg_setLeg _ _ _ _ _
    · rw [Dev.legMarked, Dev.legS_setLeg, if_neg hne]
  · rw [Dev.legReleased, Dev.legMarked, Dev.flag_of_reg (Dev.reg_setLeg _ _ _ _ _),
      Dev.flag_put_field _ _ _ _ (by simp only [F.GDT_LSTAT_CAUSE, F.GDT_LSTAT_REL, fieldWidth]; omega)]
    exact Dev.flag_putB_self _ _ _ true (by simp only [F.GDT_LSTAT_REL, fieldWidth]; omega) (by simp only [F.GDT_LSTAT_REL]; omega)
  · rw [hrel] at hr; cases hr
  · rw [hrel] at hr; cases hr
  · rw [Dev.legMarked, Dev.legS_setLeg, if_pos ⟨rfl, rfl⟩]; rfl
  · rw [Dev.legCause, Dev.legMarked, Dev.get_of_reg (Dev.reg_setLeg _ _ _ _ _),
      Dev.get_put_self _ _ _ _ (by simp only [F.GDT_LSTAT_CAUSE, fieldWidth]; omega), hw]
    exact Nat.mod_eq_of_lt hc

theorem Dev.relLeg_taken (d : Dev) (hg : g < 20) (hx : x < 3) (hc : cause < 16) : LegTaken d (d.relLeg g x cause) g x cause := by
  have hn := d.legNoted_alike g x
  rw [Dev.relLeg_eq]
  generalize d.legNoted g x = e at hn ⊢
  refine LegTaken.of_alike hn hg hx ?_
  split
  · next hrel =>
    split
    · next hret => exact Dev.recause_taken hg hx hc hrel hret
    · next hret =>
      exact ⟨rfl, fun _ _ _ _ _ => ⟨rfl, rfl, rfl⟩, hrel, fun _ => rfl, fun _ _ => rfl, fun h => absurd (h.symm.trans hrel) Bool.false_ne_true,
        fun h => h.elim (fun h => absurd (h.symm.trans hrel) Bool.false_ne_true) fun h => absurd h hret⟩
  · next hrel => exact (e.legMarked_taken hg hx hc (Bool.eq_false_iff.2 hrel)).then hg hx (Dev.legTold_alike _ hg x cause)

end

/-! ### A chain of releases in one tick -/

/-- After releases for causes from `lo` on, in one tick: a leg released on the way has a cause of this tick, and the legs of a set have
the cause `lo` where they were not released before. -/
structure Releasing (lo : Nat) (set : Nat → Nat → Prop) (d e : Dev) : Prop where
  time : e.gtc = d.gtc
  rel : ∀ g < 20, ∀ x < 3, d.legReleased g x = true → e.legReleased g x = true
  fresh : ∀ g < 20, ∀ x < 3, d.legReleased g x = false → e.legReleased g x = true → (e.legS g x).relAt = d.gtc + 1 ∧ lo ≤ e.legCause g x
  got : ∀ g < 20, ∀ x < 3, set g x → e.legReleased g x = true ∧ (d.legReleased g x = false → e.legCause g x = lo)

/-- No leg. -/
def noLeg (_ _ : Nat) : Prop := False

section
variable {lo : Nat} {set : Nat → Nat → Prop} {d e f : Dev} {g x cause : Nat}

theorem Releasing.refl (lo : Nat) (d : Dev) : Releasing lo noLeg d d :=
  ⟨rfl, fun _ _ _ _ h => h, fun _ _ _ _ h k => absurd (h.symm.trans k) Bool.false_ne_true, fun _ _ _ _ h => h.elim⟩

theorem Releasing.mono {set' : Nat → Nat → Prop} (h : Releasing lo set d e) (hs : ∀ g x, set' g x → set g x) : Releasing lo set' d e :=
  ⟨h.time, h.rel, h.fresh, fun g hg x hx hm => h.got g hg x hx (hs g x hm)⟩

theorem Releasing.alike (h : Releasing lo set d e) (k : LegsAlike e f) : Releasing lo set d f := by
  refine ⟨k.1.trans h.time, fun g hg x hx hd => ?_, fun g hg x hx hd hf => ?_, fun g hg x hx hm => ?_⟩ <;>
    obtain ⟨kr, kc, ka⟩ := k.2 g hg x hx
  · exact kr.trans (h.rel g hg x hx hd)
  · rw [ka, kc]
    exact h.fresh g hg x hx hd (kr.symm.trans hf)
  · rw [kr, kc]
    exact h.got g hg x hx hm

theorem Releasing.quiet (h : Releasing lo set d e) (k : Quiet e f) : Releasing lo set d f := h.alike (.of_quiet k)

/-- From a device alike. -/
theorem Releasing.of_alike (k : LegsAlike d e) (h : Releasing lo set e f) : Releasing lo set d f := by
  refine ⟨h.time.trans k.1, fun g hg x hx hd => ?_, fun g hg x hx hd hf => ?_, fun g hg x hx hm => ?_⟩ <;>
    have kr := (k.2 g hg x hx).1
  · exact h.rel g hg x hx (kr.trans hd)
  · rw [← k.1]
    exact h.fresh g hg x hx (kr.trans hd) hf
  · obtain ⟨h1, h2⟩ := h.got g hg x hx hm
    exact ⟨h1, fun hd => h2 (kr.trans hd)⟩

/-- A leg's release for a cause that is not lower keeps what the chain has given. -/
theorem Releasing.relLeg (h : Releasing lo set d e) (hg : g < 20) (hx : x < 3) (hlo : lo ≤ cause) (hc : cause < 16) :
    Releasing lo set d (e.relLeg g x cause) := by
  have ht := e.relLeg_taken hg hx hc
  refine ⟨ht.time.trans h.time, fun a ha y hy hd => ?_, fun a ha y hy hd hf => ?_, fun a ha y hy hm => ?_⟩ <;>
    by_cases hown : a = g ∧ y = x
  · rw [hown.1, hown.2]
    exact ht.rel
  · exact (ht.else' a ha y hy hown).1.trans (h.rel a ha y hy hd)
  · obtain ⟨rfl, rfl⟩ := hown
    cases hrel : e.legReleased a y with
    | false => exact ⟨by rw [ht.new hrel, h.time], by rw [ht.cause (.inl hrel)]; exact hlo⟩
    | true =>
      obtain ⟨hat, hle⟩ := h.fresh a ha y hy hd hrel
      refine ⟨(ht.keep hrel).trans hat, ?_⟩
      cases hret : e.retakes a y cause with
      | false => rw [ht.kept hrel hret]; exact hle
      | true => rw [ht.cause (.inr hret)]; exact hlo
  · obtain ⟨kr, kc, ka⟩ := ht.else' a ha y hy hown
    rw [ka, kc]
    exact h.fresh a ha y hy hd (kr.symm.trans hf)
  · obtain ⟨rfl, rfl⟩ := hown
    refine ⟨ht.rel, fun hd => ?_⟩
    obtain ⟨hrel, hcause⟩ := h.got a ha y hy hm
    have hret : e.retakes a y cause = false := by
      have hce := hcause hd
      rw [Dev.legCause] at hce
      rw [Dev.retakes, hce, decide_eq_false (by omega), Bool.and_false]
    rw [ht.kept hrel hret]
    exact hcause hd
  · obtain ⟨kr, kc, -⟩ := ht.else' a ha y hy hown
    rw [kr, kc]
    exact h.got a ha y hy hm

/-- A leg released for the lowest cause has it. -/
theorem Releasing.relLeg_got (h : Releasing lo set d e) (hg : g < 20) (hx : x < 3) (hc : lo < 16) :
    (e.relLeg g x lo).legReleased g x = true ∧ (d.legReleased g x = false → (e.relLeg g x lo).legCause g x = lo) := by
  have ht := e.relLeg_taken hg hx hc
  refine ⟨ht.rel, fun hd => ?_⟩
  cases hrel : e.legReleased g x with
  | false => exact ht.cause (.inl hrel)
  | true =>
    obtain ⟨hat, hle⟩ := h.fresh g hg x hx hd hrel
    cases hret : e.retakes g x lo with
    | true => exact ht.cause (.inr hret)
    | false =>
      rw [ht.kept hrel hret]
      rw [Dev.retakes, hrel, hat, h.time, beq_self_eq_true, Bool.and_self, Bool.true_and, decide_eq_false_iff_not, Nat.not_lt] at hret
      exact Nat.le_antisymm hret hle

theorem Releasing.relMask (h : Releasing lo set d e) (hg : g < 20) (mask : Nat) (hlo : lo ≤ cause) (hc : cause < 16) :
    Releasing lo set d (e.relMask g mask cause) := by
  refine forN_keeps (P := Releasing lo set d) 3 (fun x hx f hf => ?_) h
  split
  · exact hf.relLeg hg hx hlo hc
  · exact hf

/-- A set of legs with the legs of a mask. -/
def withMask (set : Nat → Nat → Prop) (g mask : Nat) (a y : Nat) : Prop := set a y ∨ (a = g ∧ mask / 2 ^ y % 2 = 1)

theorem Releasing.relMask_got (h : Releasing lo set d e) (hg : g < 20) (mask : Nat) (hc : lo < 16) :
    Releasing lo (withMask set g mask) d (e.relMask g mask lo) := by
  obtain ⟨hI, hQ⟩ := forN_each 3 (I := Releasing lo set d)
    (Q := fun x f => mask / 2 ^ x % 2 = 1 → f.legReleased g x = true ∧ (d.legReleased g x = false → f.legCause g x = lo))
    (f := fun x e => if mask / 2 ^ x % 2 = 1 then e.relLeg g x lo else e)
    (fun x hx f hf => by
      split
      · exact hf.relLeg hg hx le_rfl hc
      · exact hf)
    (fun x hx f hf hm => by
      rw [if_pos hm]
      exact hf.relLeg_got hg hx hc)
    (fun x hx y hy f hf hq hm => by
      split
      · obtain ⟨kr, kc, -⟩ := (f.relLeg_taken hg hx hc).else' g hg y (by omega) (by omega)
        rw [kr, kc]
        exact hq hm
      · exact hq hm)
    h
  refine ⟨hI.time, hI.rel, hI.fresh, fun a ha y hy hm => ?_⟩
  obtain hs | ⟨rfl, hm⟩ := hm
  · exact hI.got a ha y hy hs
  · exact hQ y hy hm

/-- A group's action shown. -/
def Dev.actShown (d : Dev) (h : Nat) : Dev := (d.putB (gdLstat h) F.GDT_LSTAT_GACT true).gdEvent h Ev.GRP_ACT

theorem Dev.actShown_alike (d : Dev) {h : Nat} (hh : h < 20) : LegsAlike d (d.actShown h) := by
  refine LegsAlike.trans (e := d.putB (gdLstat h) F.GDT_LSTAT_GACT true) ⟨rfl, fun a ha y hy => ?_⟩ (.gdEvent _ h Ev.GRP_ACT)
  by_cases hah : a = h
  · subst hah
    refine ⟨Dev.flag_put_field _ _ _ _ ?_, Dev.get_put_field _ _ _ _ _ _ ?_, rfl⟩ <;>
      simp only [F.GDT_LSTAT_CAUSE, F.GDT_LSTAT_REL, F.GDT_LSTAT_GACT, fieldWidth] <;> omega
  · exact LegAlike.of_reg (Dev.reg_put_ne _ _ _ (gdLstat_inj hh ha hah)) rfl

theorem Dev.ascLeg_alike (d : Dev) (g x : Nat) : LegsAlike d (d.ascLeg g x) := by
  rw [Dev.ascLeg]
  split
  · exact .refl d
  · exact .setGrp d g _ rfl

theorem Releasing.groupAction (h : Releasing lo set d e) (hg : g < 20) (act : Nat) (hlo : lo ≤ 9) :
    Releasing lo set d (e.groupAction g act) := by
  have hshown := h.alike (e.actShown_alike hg)
  have hall := hshown.relMask hg 7 hlo (by decide)
  rw [Dev.groupAction]
  split
  · refine forN_keeps (P := Releasing lo set d) 3 (fun x _ f hf => hf.alike (f.ascLeg_alike g x)) ?_
    exact hshown.alike (.setGrp _ g _ rfl)
  · split
    · exact hall
    · split
      · dsimp only
        split
        · next p hp =>
          have hp20 : p < 20 := by
            obtain ⟨hg12, hpair⟩ := Dev.pairIs_of_pairOf hp
            rw [pairIs] at hpair
            omega
          refine Releasing.relMask ?_ hp20 7 hlo (by decide)
          split
          · exact hall
          · exact hall.alike (Dev.actShown_alike _ hp20)
        · exact hall
      · exact h

theorem Releasing.release (h : Releasing lo set d e) (hg : g < 20) (mask : Nat) (hlo : lo < 16) :
    Releasing lo (withMask set g mask) d (e.release g mask lo) := by
  have hm := h.relMask_got hg mask hlo
  rw [Dev.release]
  split
  · next hc =>
    simp only [Bool.and_eq_true, decide_eq_true_eq] at hc
    exact hm.groupAction hg _ (by omega)
  · exact hm

theorem Releasing.released (h : Releasing lo set d e) (hg : g < 20) {mask : Nat} (hs : ∀ x < 3, mask / 2 ^ x % 2 = 1 → set g x) :
    Released d e g mask lo := fun x hx hm => h.got g hg x hx (hs x hx hm)

/-- A release of legs gives them their cause. -/
theorem Dev.release_released (d : Dev) (hg : g < 20) (mask : Nat) (hlo : lo < 16) : Released d (d.release g mask lo) g mask lo :=
  ((Releasing.refl lo d).release hg mask hlo).released hg fun _ _ hm => .inr ⟨rfl, hm⟩

end

end Sys2Proof.Machine
end

section
/-! PROOFS. A trip of a comparator that acts (R150 to R152, R155). -/

namespace Sys2Proof.Machine

theorem pagePresent_cmp {m : Member} {c : Nat} (h : c < nCmp m) : pagePresent m (Pg.CMP (c / 36)) = true := by
  obtain hc | ⟨hc, h36⟩ : c / 36 = 0 ∨ (c / 36 = 1 ∧ 36 < nCmp m) := by
    have := nCmp_le m
    omega
  · rw [hc]
    cases m <;> rfl
  · rw [hc]
    cases m
    · rfl
    · rfl
    · exact absurd h36 (by decide)
    · exact absurd h36 (by decide)

/-! ### Registers of comparators -/

theorem cmpStat_not_gdAll {c : Nat} (hc : c < 72) : R.CMP_STAT c ∉ gdAll ∧ R.CMP_ROUTE c ∉ gdAll ∧ R.CMP_CFG c ∉ gdAll := by
  have hle : ∀ a ∈ gdAll, 0x40098040 ≤ a := by
    intro a ha
    obtain ⟨g, -, ha⟩ := List.mem_flatMap.1 ha
    simp only [gdRegs, gdFlag, gdLstat, relCnt, List.mem_cons, List.not_mem_nil, or_false, R.GDT_FLAG, R.GDA_FLAG, R.GDT_LSTAT, R.GDA_LSTAT,
      R.GDT_CNT, R.GDA_CNT] at ha
    split at ha <;> simp only at ha <;> omega
  refine ⟨fun h => ?_, fun h => ?_, fun h => ?_⟩ <;> have := hle _ h <;> simp only [R.CMP_STAT, R.CMP_ROUTE, R.CMP_CFG] at this <;> omega

theorem eventReg_cmp {c : Nat} (hc : c < 72) :
    eventReg (R.CMP_STAT c) = false ∧ eventReg (R.CMP_ROUTE c) = false ∧ eventReg (R.CMP_CFG c) = false := by
  refine ⟨?_, ?_, ?_⟩ <;> rw [eventReg_eq_false] <;> simp only [R.CMP_STAT, R.CMP_ROUTE, R.CMP_CFG] <;> omega

/-- Registers that a comparator's flags and settings stand in are not its status. -/
theorem cmpFlag_ne_stat (c : Nat) : R.CMP_STAT c ≠ R.CMP_FLAG0 (c / 36) ∧ R.CMP_STAT c ≠ R.CMP_FLAG1 (c / 36) := by
  constructor <;> simp only [R.CMP_STAT, R.CMP_FLAG0, R.CMP_FLAG1] <;> omega

section
variable {d e : Dev} {c : Nat}

theorem Dev.cmpEvent_reg (d : Dev) (c src : Nat) {a : Nat} (he : eventReg a = false) (h0 : a ≠ R.CMP_FLAG0 (c / 36))
    (h1 : a ≠ R.CMP_FLAG1 (c / 36)) : (d.cmpEvent c src).reg a = d.reg a := by
  rw [Dev.cmpEvent]
  refine ((Dev.raiseN_quiet _ _ _ _).2.1 a he).trans ?_
  split
  · exact d.reg_setReg_ne _ h0
  · exact d.reg_setReg_ne _ h1

theorem Dev.cmpEvent_calm (d : Dev) (c src : Nat) : (d.cmpEvent c src).calm = d.calm := by
  rw [Dev.cmpEvent]
  refine (Dev.raiseN_quiet _ _ _ _).1.trans ?_
  split <;> rfl

theorem Dev.cmpEvent_cmp (d : Dev) (c src : Nat) : (d.cmpEvent c src).cmp = d.cmp := (congrArg Dev.cmp (d.cmpEvent_calm c src) :)
theorem Dev.cmpEvent_grp (d : Dev) (c src : Nat) : (d.cmpEvent c src).grp = d.grp := (congrArg Dev.grp (d.cmpEvent_calm c src) :)
theorem Dev.cmpEvent_gtc (d : Dev) (c src : Nat) : (d.cmpEvent c src).gtc = d.gtc := (congrArg Dev.gtc (d.cmpEvent_calm c src) :)
theorem Dev.cmpEvent_member (d : Dev) (c src : Nat) : (d.cmpEvent c src).member = d.member := (congrArg Dev.member (d.cmpEvent_calm c src) :)

theorem Dev.cmpEvent_cmpS (d : Dev) (c src j : Nat) : (d.cmpEvent c src).cmpS j = d.cmpS j := congrArg (fun l => spGet _ l j) (d.cmpEvent_cmp c src)

theorem Dev.cmpEvent_raised (d : Dev) {c : Nat} (src : Nat) (hc : c < nCmp d.member) : Raised (d.cmpEvent c src) (Pg.CMP (c / 36)) src := by
  rw [Dev.cmpEvent]
  refine Dev.raiseN_raised _ _ ?_
  split <;> exact pagePresent_cmp hc

theorem Dev.cmpEvent_stat (d : Dev) {c : Nat} (src : Nat) (hc : c < 72) : (d.cmpEvent c src).reg (R.CMP_STAT c) = d.reg (R.CMP_STAT c) :=
  d.cmpEvent_reg c src (eventReg_cmp hc).1 (cmpFlag_ne_stat c).1 (cmpFlag_ne_stat c).2

theorem LegsAlike.cmpEvent (d : Dev) (c src : Nat) : LegsAlike d (d.cmpEvent c src) := by
  refine .of_regs (d.cmpEvent_gtc c src) (d.cmpEvent_grp c src) fun h hh => d.cmpEvent_reg c src (eventReg_gdLstat hh) ?_ ?_ <;>
    simp only [gdLstat, R.GDT_LSTAT, R.GDA_LSTAT, R.CMP_FLAG0, R.CMP_FLAG1] <;> split <;> omega

/-! ### The trip shown -/

/-- The comparator's status after a trip that acts: latched, counted, its side noted. -/
def Dev.tripShown (d : Dev) (c : Nat) (hi : Bool) : Dev :=
  ((d.putB (R.CMP_STAT c) F.CMP_STAT_LATCHED true).bump (R.CMP_STAT c) F.CMP_STAT_TRIP_CNT).putB (R.CMP_STAT c) F.CMP_STAT_LAST_LO (!hi)

theorem Dev.cmpAct_eq (d : Dev) (c : Nat) (hi lo : Bool) : d.cmpAct c hi lo =
    if (d.tripShown c hi).cmpProtect c then (((d.tripShown c hi).protectRelease c).cmpRecord c (!hi)).cmpEvent c Ev.CMP_PROTECT
    else (if ((d.tripShown c hi).limitForce c hi lo).cmpFlag c F.CMP_CFG_REC_LIM then
      ((d.tripShown c hi).limitForce c hi lo).cmpRecord c (!hi) else (d.tripShown c hi).limitForce c hi lo).limitEvent c := rfl

theorem Dev.tripShown_reg (d : Dev) (c : Nat) (hi : Bool) {a : Nat} (ha : a ≠ R.CMP_STAT c) : (d.tripShown c hi).reg a = d.reg a := by
  rw [Dev.tripShown, Dev.putB, Dev.reg_put_ne _ _ _ ha, Dev.bump, Dev.addSat, Dev.reg_put_ne _ _ _ ha, Dev.putB, Dev.reg_put_ne _ _ _ ha]

theorem Dev.tripShown_stat (d : Dev) (c : Nat) (hi : Bool) :
    (d.tripShown c hi).flag (R.CMP_STAT c) F.CMP_STAT_LATCHED = true ∧ (d.tripShown c hi).flag (R.CMP_STAT c) F.CMP_STAT_LAST_LO = !hi ∧
      (d.tripShown c hi).get (R.CMP_STAT c) F.CMP_STAT_TRIP_CNT =
        min (d.get (R.CMP_STAT c) F.CMP_STAT_TRIP_CNT + 1) (2 ^ fieldWidth F.CMP_STAT_TRIP_CNT - 1) := by
  refine ⟨?_, Dev.flag_putB_self _ _ _ _ rfl (by decide), ?_⟩
  · rw [Dev.tripShown, Dev.putB, Dev.flag_put_field _ _ _ _ (by decide), Dev.bump, Dev.addSat, Dev.flag_put_field _ _ _ _ (by decide)]
    exact Dev.flag_putB_self _ _ _ true rfl (by decide)
  · rw [Dev.tripShown, Dev.putB, Dev.get_put_field _ _ _ _ _ _ (by decide), Dev.bump, Dev.addSat, Dev.get_put_self _ _ _ _ (by decide), Dev.putB,
      Dev.get_put_field _ _ _ _ _ _ (by decide)]
    exact Nat.mod_eq_of_lt (by have : 0 < 2 ^ fieldWidth F.CMP_STAT_TRIP_CNT := by decide
                               omega)

/-- A field of the status apart from the three that a trip writes. -/
abbrev besideTrip (f : RField) : Prop := ∀ g ∈ [F.CMP_STAT_LATCHED, F.CMP_STAT_TRIP_CNT, F.CMP_STAT_LAST_LO],
  g.lo + fieldWidth g ≤ f.lo ∨ f.lo + fieldWidth f ≤ g.lo

theorem Dev.tripShown_flag (d : Dev) (c : Nat) (hi : Bool) {f : RField} (hf : besideTrip f) :
    (d.tripShown c hi).flag (R.CMP_STAT c) f = d.flag (R.CMP_STAT c) f := by
  rw [Dev.tripShown, Dev.putB, Dev.flag_put_field _ _ _ _ (hf _ (by simp)), Dev.bump, Dev.addSat, Dev.flag_put_field _ _ _ _ (hf _ (by simp)), Dev.putB,
    Dev.flag_put_field _ _ _ _ (hf _ (by simp))]

theorem Dev.tripShown_alike (d : Dev) (c : Nat) (hi : Bool) : LegsAlike d (d.tripShown c hi) :=
  .of_regs rfl rfl fun h hh => d.tripShown_reg c hi (by simp only [gdLstat, R.GDT_LSTAT, R.GDA_LSTAT, R.CMP_STAT]; split <;> omega)

/-! ### A PROTECT comparator's releases -/

theorem Dev.protectRelease_released (d : Dev) {c g : Nat} (hg : g < 20) (hr : bitOf (d.reg (R.CMP_ROUTE c)) g = true) :
    Released d (d.protectRelease c) g ((d.reg (R.CMP_ROUTE c)).toNat / 2 ^ 24 % 8) 3 := by
  generalize hm : (d.reg (R.CMP_ROUTE c)).toNat / 2 ^ 24 % 8 = mask
  have hstep : ∀ k < 20, ∀ f, Releasing 3 noLeg d f →
      Releasing 3 noLeg d (if bitOf (d.reg (R.CMP_ROUTE c)) k && mask != 0 then f.release k mask 3 else f) := fun k hk f hf => by
    split
    · exact (hf.release hk mask (by decide)).mono fun _ _ h => .inl h
    · exact hf
  obtain ⟨-, hQ⟩ := forN_each 20 (I := Releasing 3 noLeg d)
    (Q := fun k f => bitOf (d.reg (R.CMP_ROUTE c)) k = true → Released d f k mask 3)
    (f := fun k f => if bitOf (d.reg (R.CMP_ROUTE c)) k && mask != 0 then f.release k mask 3 else f) hstep
    (fun k hk f hf hb x hx hmx => by
      have hne : (mask != 0) = true := by
        rw [bne_iff_ne]
        rintro rfl
        rw [Nat.zero_div] at hmx
        cases hmx
      rw [hb, hne, Bool.and_self, if_pos rfl]
      exact (hf.release hk mask (by decide)).got k hk x hx (.inr ⟨rfl, hmx⟩))
    (fun k hk j hj f hf hq hb x hx hmx => by
      have hset : Releasing 3 (withMask noLeg j mask) d f :=
        ⟨hf.time, hf.rel, hf.fresh, fun a ha y hy hs => hs.elim (fun h => h.elim) fun ⟨haj, hmy⟩ => haj ▸ hq hb y hy hmy⟩
      split
      · exact (hset.release hk mask (by decide)).got j (by omega) x hx (.inl (.inr ⟨rfl, hmx⟩))
      · exact hq hb x hx hmx)
    (Releasing.refl 3 d)
  rw [Dev.protectRelease, hm]
  exact hQ g hg hr

/-! ### A LIMIT comparator's switches -/

theorem Dev.legS_setEdges (d : Dev) (g : Nat) (es : List EdgeSt) (h y : Nat) : (d.setEdges g es).legS h y = d.legS h y := by
  rw [Dev.setEdges, Dev.legS, Dev.grpS_setGrp, Dev.legS]
  split
  · next hh => rw [hh]
  · rfl

theorem Dev.legS_cutStep (d : Dev) (g x : Nat) (cH cL : Bool) (h y : Nat) : (d.cutStep g x cH cL).legS h y = d.legS h y := by
  have hite : ∀ (p : Prop) [Decidable p] (es : List EdgeSt), (if p then d else d.setEdges g es).legS h y = d.legS h y := fun p _ es => by
    split
    · rfl
    · exact d.legS_setEdges g es h y
  exact hite _ _

theorem Dev.legS_limitLeg (d : Dev) (g x : Nat) (offH offL : Bool) (h y : Nat) : (d.limitLeg g x offH offL).legS h y =
    if h = g ∧ y = x then { d.legS g x with limH := (d.legS g x).limH || offH, limL := (d.legS g x).limL || offL } else d.legS h y := by
  rw [Dev.limitLeg, Dev.legS_cutStep, Dev.legS_setLeg]

theorem Dev.reg_limitLeg (d : Dev) (g x : Nat) (offH offL : Bool) (a : Nat) : (d.limitLeg g x offH offL).reg a = d.reg a := by
  have hite : ∀ (e : Dev) (p : Prop) [Decidable p] (es : List EdgeSt), (if p then e else e.setEdges g es).reg a = e.reg a :=
    fun e p _ es => by
      split
      · rfl
      · exact Dev.reg_setGrp _ _ _ _
  rw [Dev.limitLeg]
  exact (hite _ _ _).trans (Dev.reg_setLeg _ _ _ _ _)

/-- The switches that a LIMIT trip forces off (R151). -/
def Dev.limSw (d : Dev) (c : Nat) (upper lower : Bool) : Bool × Bool :=
  let sw := d.get (R.CMP_ROUTE c) F.CMP_ROUTE_SW_SEL
  (sw == 0 || sw == 2 || (sw == 3 && upper), sw == 1 || sw == 2 || (sw == 3 && lower))

theorem Dev.limitForce_eq (d : Dev) {c g : Nat} (hg : d.cmpLowest c = some g) (upper lower : Bool) : d.limitForce c upper lower =
    forN 3 (fun x e => if bitOf (e.reg (R.CMP_ROUTE c)) (24 + x) then
      e.limitLeg g x (d.limSw c upper lower).1 (d.limSw c upper lower).2 else e) d := by
  rw [Dev.limitForce, hg]
  rfl

theorem Dev.limitForce_lim (d : Dev) {c g x : Nat} (upper lower : Bool) (hg : d.cmpLowest c = some g) (hx : x < 3)
    (hb : bitOf (d.reg (R.CMP_ROUTE c)) (24 + x) = true) :
    ((d.limSw c upper lower).1 = true → ((d.limitForce c upper lower).legS g x).limH = true) ∧
      ((d.limSw c upper lower).2 = true → ((d.limitForce c upper lower).legS g x).limL = true) := by
  rw [Dev.limitForce_eq d hg]
  generalize d.limSw c upper lower = sw
  obtain ⟨-, hQ⟩ := forN_each 3 (I := fun f : Dev => f.reg (R.CMP_ROUTE c) = d.reg (R.CMP_ROUTE c))
    (Q := fun k f => bitOf (d.reg (R.CMP_ROUTE c)) (24 + k) = true →
      (sw.1 = true → (f.legS g k).limH = true) ∧ (sw.2 = true → (f.legS g k).limL = true))
    (f := fun k f => if bitOf (f.reg (R.CMP_ROUTE c)) (24 + k) then f.limitLeg g k sw.1 sw.2 else f)
    (fun k _ f hf => by
      split
      · rw [Dev.reg_limitLeg]
        exact hf
      · exact hf)
    (fun k _ f hf hbk => by
      rw [hf, if_pos hbk, Dev.legS_limitLeg, if_pos ⟨rfl, rfl⟩]
      exact ⟨fun h => by rw [h, Bool.or_true], fun h => by rw [h, Bool.or_true]⟩)
    (fun k _ j hj f hf hq hbj => by
      split
      · rw [Dev.legS_limitLeg, if_neg (fun h => by omega)]
        exact hq hbj
      · exact hq hbj)
    rfl
  exact hQ x hx hb

end

/-! ### A trip that acts -/

section
variable {d e : Dev} {c : Nat} {hi lo : Bool}

/-- A comparator's event told once in a period. -/
theorem Dev.limitEvent_spec (d : Dev) {c : Nat} (hc : c < nCmp d.member) : ((d.limitEvent c).cmpS c).limited = true ∧
    ((d.cmpS c).limited = false → Raised (d.limitEvent c) (Pg.CMP (c / 36)) Ev.CMP_LIMIT) ∧
    (∀ j, j ≠ c → (d.limitEvent c).cmpS j = d.cmpS j) ∧ (d.limitEvent c).cmpS c = { d.cmpS c with limited := true } ∧
    (d.limitEvent c).grp = d.grp ∧ (d.limitEvent c).reg (R.CMP_STAT c) = d.reg (R.CMP_STAT c) := by
  rw [Dev.limitEvent]
  dsimp only
  split
  · next h =>
    refine ⟨h, fun hn => absurd (hn.symm.trans h) Bool.false_ne_true, fun _ _ => rfl, ?_, rfl, rfl⟩
    rw [← h]
  · refine ⟨?_, fun _ => Dev.cmpEvent_raised _ _ hc, fun j hj => ?_, ?_, Dev.cmpEvent_grp _ _ _, ?_⟩
    · rw [Dev.cmpEvent_cmpS, Dev.cmpS_setCmp_self]
    · rw [Dev.cmpEvent_cmpS, Dev.cmpS_setCmp, if_neg hj]
    · rw [Dev.cmpEvent_cmpS, Dev.cmpS_setCmp_self]
    · rw [Dev.cmpEvent_stat _ _ (hc.trans_le (nCmp_le _)), Dev.reg_setCmp]

/-- What a comparator's trip leaves of the comparators: only that its limit has been told may change. -/
def CmpStands (d e : Dev) (c : Nat) : Prop :=
  (∀ j, j ≠ c → e.cmpS j = d.cmpS j) ∧ (∃ b, e.cmpS c = { d.cmpS c with limited := b }) ∧
    ∀ f, besideTrip f → e.flag (R.CMP_STAT c) f = d.flag (R.CMP_STAT c) f

theorem Dev.cmpAct_protect (hc : c < nCmp d.member) (hp : d.cmpProtect c = true) :
    CmpActed d (d.cmpAct c hi lo) c hi lo ∧ CmpStands d (d.cmpAct c hi lo) c := by
  have h72 := hc.trans_le (nCmp_le _)
  obtain ⟨hlat, hlast, hcnt⟩ := d.tripShown_stat c hi
  have hbeside := fun f (hf : besideTrip f) => d.tripShown_flag c hi hf
  have hsame : (d.tripShown c hi).cmp = d.cmp := rfl
  have hmem : (d.tripShown c hi).member = d.member := rfl
  have hal := d.tripShown_alike c hi
  have hroute : (d.tripShown c hi).reg (R.CMP_ROUTE c) = d.reg (R.CMP_ROUTE c) :=
    d.tripShown_reg c hi (by simp only [R.CMP_ROUTE, R.CMP_STAT]; omega)
  have hprot : (d.tripShown c hi).cmpProtect c = true :=
    (Dev.flag_of_reg (d.tripShown_reg c hi (by simp only [R.CMP_CFG, R.CMP_STAT]; omega)) _).trans hp
  rw [Dev.cmpAct_eq, if_pos hprot]
  generalize d.tripShown c hi = e at hlat hlast hcnt hbeside hsame hmem hal hroute
  have hfr := Dev.protectRelease_frame (c := c) (fun _ ha => ha) e
  have hrel := fun g (hg : g < 20) hb => Dev.protectRelease_released e (c := c) hg hb
  have hq := Dev.emitProt_quiet (e.protectRelease c) { ty := 0x20, res := c, tick := (e.protectRelease c).gtc, data := [BitVec.ofNat 32 (b2n (!hi))] }
  have hstat : (((e.protectRelease c).cmpRecord c (!hi)).cmpEvent c Ev.CMP_PROTECT).reg (R.CMP_STAT c) = e.reg (R.CMP_STAT c) := by
    rw [Dev.cmpEvent_stat _ _ h72]
    exact (hq.2.1 _ (eventReg_cmp h72).1).trans (hfr.reg grpPart_part (eventReg_cmp h72).1 (cmpStat_not_gdAll h72).1)
  have hcmp : ∀ j, (((e.protectRelease c).cmpRecord c (!hi)).cmpEvent c Ev.CMP_PROTECT).cmpS j = d.cmpS j := fun j => by
    have hfc : (e.protectRelease c).cmp = e.cmp := (congrArg Dev.cmp hfr.1 :)
    rw [Dev.cmpEvent_cmpS, Dev.cmpS, Dev.cmpS, ← hsame, ← hfc]
    exact congrArg (fun l => spGet _ l j) hq.cmp
  refine ⟨⟨(Dev.flag_of_reg hstat _).trans hlat, (Dev.flag_of_reg hstat _).trans hlast, (Dev.get_of_reg hstat _).trans hcnt, fun _ => ⟨?_, ?_⟩,
    fun h => absurd (h.symm.trans hp) Bool.false_ne_true⟩, fun j _ => hcmp j, ⟨(d.cmpS c).limited, hcmp c⟩, fun f hf =>
    (Dev.flag_of_reg hstat f).trans (hbeside f hf)⟩
  · refine Dev.cmpEvent_raised _ _ ?_
    have hm1 : ((e.protectRelease c).cmpRecord c (!hi)).member = (e.protectRelease c).member := hq.member
    have hm2 : (e.protectRelease c).member = e.member := (congrArg Dev.member hfr.1 :)
    rw [hm1, hm2, hmem]
    exact hc
  · intro g hg hb x hx hmx
    obtain ⟨h1, h2⟩ := hrel g hg (by rw [hroute]; exact hb) x hx (by rw [hroute]; exact hmx)
    obtain ⟨k1, k2, -⟩ := ((LegsAlike.of_quiet hq).trans (.cmpEvent _ c Ev.CMP_PROTECT)).2 g hg x hx
    refine ⟨k1.trans h1, fun hn => ?_⟩
    exact (k2.trans (h2 ((hal.2 g hg x hx).1.trans hn)) :)

theorem Dev.cmpAct_limit (hc : c < nCmp d.member) (hp : d.cmpProtect c = false) :
    CmpActed d (d.cmpAct c hi lo) c hi lo ∧ CmpStands d (d.cmpAct c hi lo) c := by
  have h72 := hc.trans_le (nCmp_le _)
  obtain ⟨hlat, hlast, hcnt⟩ := d.tripShown_stat c hi
  have hbeside := fun f (hf : besideTrip f) => d.tripShown_flag c hi hf
  have hsame : (d.tripShown c hi).cmp = d.cmp := rfl
  have hmem : (d.tripShown c hi).member = d.member := rfl
  have hroute : (d.tripShown c hi).reg (R.CMP_ROUTE c) = d.reg (R.CMP_ROUTE c) :=
    d.tripShown_reg c hi (by simp only [R.CMP_ROUTE, R.CMP_STAT]; omega)
  have hprot : ¬(d.tripShown c hi).cmpProtect c = true := by
    rw [Dev.cmpProtect, Dev.cmpFlag, Dev.flag_of_reg (d.tripShown_reg c hi (by simp only [R.CMP_CFG, R.CMP_STAT]; omega))]
    rw [Dev.cmpProtect, Dev.cmpFlag] at hp
    rw [hp]
    exact Bool.false_ne_true
  rw [Dev.cmpAct_eq, if_neg hprot]
  generalize d.tripShown c hi = e at hlat hlast hcnt hbeside hsame hmem hroute
  have hlim := fun g x (hg : e.cmpLowest c = some g) (hx : x < 3) hb => Dev.limitForce_lim e hi lo hg hx hb
  have hfr := Dev.limitForce_frame (l := []) (c := c) e hi lo
  generalize e.limitForce c hi lo = f at hlim hfr
  have hfs : f.reg (R.CMP_STAT c) = e.reg (R.CMP_STAT c) := hfr.reg grpPart_part (eventReg_cmp h72).1 List.not_mem_nil
  have hfc : f.cmp = e.cmp := (congrArg Dev.cmp hfr.1 :)
  have hfm : f.member = e.member := (congrArg Dev.member hfr.1 :)
  have hrec : Quiet f (if f.cmpFlag c F.CMP_CFG_REC_LIM then f.cmpRecord c (!hi) else f) := by
    split
    · exact Dev.emitProt_quiet _ _
    · exact Quiet.refl f
  generalize (if f.cmpFlag c F.CMP_CFG_REC_LIM then f.cmpRecord c (!hi) else f) = g at hrec
  obtain ⟨htold, hraise, hoth, hown, hgrp, hst⟩ := g.limitEvent_spec (c := c) (by rw [hrec.member, hfm, hmem]; exact hc)
  have hgc : ∀ j, g.cmpS j = d.cmpS j := fun j => by
    rw [hrec.cmpS, Dev.cmpS, hfc, hsame, Dev.cmpS]
  have hstat : (g.limitEvent c).reg (R.CMP_STAT c) = e.reg (R.CMP_STAT c) := by
    rw [hst, hrec.2.1 _ (eventReg_cmp h72).1, hfs]
  refine ⟨⟨(Dev.flag_of_reg hstat _).trans hlat, (Dev.flag_of_reg hstat _).trans hlast, (Dev.get_of_reg hstat _).trans hcnt,
    fun h => absurd (hp.symm.trans h) Bool.false_ne_true, fun _ => ⟨htold, fun hn => hraise ((congrArg CmpSt.limited (hgc c)).trans hn), ?_⟩⟩,
    fun j hj => (hoth j hj).trans (hgc j), ⟨true, by rw [hown, hgc]⟩, fun f' hf' => (Dev.flag_of_reg hstat _).trans (hbeside f' hf')⟩
  intro g0 x hg hx hb
  have hlow : e.cmpLowest c = d.cmpLowest c := by rw [Dev.cmpLowest, hroute, Dev.cmpLowest]
  have hsw : e.limSw c hi lo = d.limSw c hi lo := by rw [Dev.limSw, Dev.limSw, Dev.get_of_reg hroute]
  obtain ⟨h1, h2⟩ := hlim g0 x (hlow.trans hg) hx (by rw [hroute]; exact hb)
  have hleg : (g.limitEvent c).legS g0 x = f.legS g0 x := by
    rw [Dev.legS, Dev.legS, Dev.grpS, Dev.grpS, hgrp, hrec.grp]
  rw [hsw] at h1 h2
  rw [hleg]
  refine ⟨fun h => h1 ?_, fun h => h2 ?_⟩
  · simp only [Dev.limSw, Bool.or_eq_true, Bool.and_eq_true, beq_iff_eq]
    exact or_assoc.2 h
  · simp only [Dev.limSw, Bool.or_eq_true, Bool.and_eq_true, beq_iff_eq]
    exact or_assoc.2 h

/-- A trip that acts, by the class of its comparator (R151, R152, R155). -/
theorem Dev.cmpAct_spec (d : Dev) {c : Nat} (hc : c < nCmp d.member) (hi lo : Bool) :
    CmpActed d (d.cmpAct c hi lo) c hi lo ∧ CmpStands d (d.cmpAct c hi lo) c := by
  cases hp : d.cmpProtect c with
  | true => exact Dev.cmpAct_protect hc hp
  | false => exact Dev.cmpAct_limit hc hp

end

end Sys2Proof.Machine
end

section
/-! PROOFS. Commands written to a status word, and the blanking of comparators (R146 to R149, R153). -/

namespace Sys2Proof.Machine

/-! ### A word that commands but stores nothing -/

/-- A field that a word leaves as it stands: it only reads or commands, or the word carries no 1 for it. -/
def idleFor (w : Word) (fd : FieldDef) : Bool :=
  decide (fd.acc = .ro) || decide (fd.acc = .wo) || (decide (fd.acc = .w1c ∨ fd.acc = .w1s) && decide (w &&& fieldMask fd.f = 0))
    || (decide (fd.acc = .w1n) && !bitOf w fd.f.lo)

theorem fieldNext_idle {w : Word} {fd : FieldDef} (h : idleFor w fd = true) (cur : Word) : fieldNext fd cur w = cur := by
  simp only [idleFor, Bool.or_eq_true, Bool.and_eq_true, decide_eq_true_eq, Bool.not_eq_true'] at h
  obtain ((h | h) | ⟨h | h, hw⟩) | ⟨h, hw⟩ := h <;> simp only [fieldNext, h]
  · rw [hw]
    exact BitVec.and_allOnes
  · rw [hw]
    exact BitVec.or_zero
  · rw [hw]
    exact if_neg Bool.false_ne_true

theorem applyFields_idle (ok : FieldDef → Bool) {w : Word} {l : List FieldDef} (h : ∀ fd ∈ l, idleFor w fd = true) (cur : Word) :
    applyFields ok w l cur = cur := by
  induction l with
  | nil => rfl
  | cons fd l ih =>
    rw [applyFields, fieldNext_idle (h fd List.mem_cons_self), ite_self]
    exact ih fun g hg => h g (List.mem_cons_of_mem _ hg)

theorem idleFor_acc {w : Word} {fd : FieldDef} (h : idleFor w fd = true) (hro : fd.acc ≠ .ro) :
    fd.acc = .wo ∨ fd.acc = .w1c ∨ fd.acc = .w1s ∨ fd.acc = .w1n := by
  simp only [idleFor, Bool.or_eq_true, Bool.and_eq_true, decide_eq_true_eq] at h
  tauto

/-- Whether a master may write a field by its rights alone. -/
def Dev.statusOk (d : Dev) (mid : Nat) (b : Block) (i page off : Nat) : Bool :=
  (d.asS0 mid b && d.ownOk mid (d.ownAt b i page off)) || (mid == Mid.S1 && (d.holds mid (d.ownAt b i page off) || sharedPage b))

theorem Dev.fieldOk_rights {d : Dev} {mid : Nat} {b : Block} {i page off : Nat} {fd : FieldDef} (hm : chanMOnly b off fd.f = false)
    (ha : fd.acc = .wo ∨ fd.acc = .w1c ∨ fd.acc = .w1s ∨ fd.acc = .w1n) :
    d.fieldOk mid b i page off fd = d.statusOk mid b i page off := by
  rw [Dev.fieldOk, hm, if_neg Bool.false_ne_true]
  obtain h | h | h | h := ha <;> rw [h] <;> rfl

/-- A master that may write one field of a status word may write every field of it that is not read-only. -/
theorem Dev.fieldOk_status {d : Dev} {mid : Nat} {b : Block} {i page off : Nat} {w : Word} {l : List FieldDef}
    (hidle : ∀ fd ∈ l, idleFor w fd = true) (hm : ∀ fd ∈ l, chanMOnly b off fd.f = false) (hany : l.any (d.fieldOk mid b i page off) = true) :
    ∀ fd ∈ l, fd.acc ≠ .ro → d.fieldOk mid b i page off fd = true := by
  intro fd hfd hro
  obtain ⟨g, hg, hok⟩ := List.any_eq_true.1 hany
  have hgro : g.acc ≠ .ro := fun h => by
    rw [Dev.fieldOk, hm g hg, if_neg Bool.false_ne_true, h] at hok
    cases hok
  rw [Dev.fieldOk_rights (hm fd hfd) (idleFor_acc (hidle fd hfd) hro), ← Dev.fieldOk_rights (hm g hg) (idleFor_acc (hidle g hg) hgro), hok]

/-- A taken write of such a word leaves the register as it stands. -/
theorem Dev.plainWrite_idle {d : Dev} {mid a : Nat} {b : Block} {i off : Nat} (h : Placed d a b i off) (hin : inRegs a = true) {rd : RegDef}
    {x y : Nat} (hr : regAt b off = some (rd, x, y)) {w : Word} (hidle : ∀ fd ∈ rd.flds, idleFor w fd = true)
    (hm : ∀ fd ∈ rd.flds, chanMOnly b off fd.f = false) (ht : d.takenAt mid a = true) (hw : w &&& absentBits d.member b i off = 0) :
    d.plainWrite mid a w = d.setReg a (d.reg a) := by
  have htaken : d.writeTaken mid b i (pageOf a) off = true := by
    rw [Dev.takenAt, h.info, h.offset] at ht
    simp only [Bool.and_eq_true] at ht
    exact ht.2
  rw [Dev.writeTaken, hr] at htaken
  dsimp only at htaken
  have hall := Dev.fieldOk_status hidle hm htaken
  have hnone : writeRefused (d.fieldOk mid b i (pageOf a) off) (d.reg a) w rd.flds = false := by
    rw [writeRefused, htaken, Bool.not_true, Bool.false_or, List.any_eq_false]
    intro g hg
    by_cases hro : g.acc = .ro
    · rw [hro]
      exact Bool.false_ne_true
    · rw [hall g hg hro, Bool.not_true, Bool.and_false, Bool.false_and]
      exact Bool.false_ne_true
  rw [d.plainWrite_placed h hr mid hw, Dev.writeFields, h.address hin, hnone, applyFields_idle _ hidle]
  rfl

/-! ### CMP_STAT -/

/-- The fields of CMP_STAT. -/
def cmpStatFields : List FieldDef :=
  [⟨F.CMP_STAT_CLR, .wo, 0⟩, ⟨F.CMP_STAT_CLR_FAIL, .w1c, 0⟩, ⟨F.CMP_STAT_START_LATE, .w1c, 0⟩, ⟨F.CMP_STAT_TRIP_CNT, .w1n, 0⟩,
   ⟨F.CMP_STAT_LAST_LO, .ro, 0⟩, ⟨F.CMP_STAT_BLANKED, .ro, 0⟩, ⟨F.CMP_STAT_STARTING, .ro, 0⟩, ⟨F.CMP_STAT_BLANK_CAPPED, .w1c, 0⟩,
   ⟨F.CMP_STAT_LATCHED, .ro, 0⟩, ⟨F.CMP_STAT_OUT, .ro, 0⟩]

theorem regAt_cmpStat : ∀ j < 36, regAt .cmpB (0x118 + 0x20 * j) = some (⟨0x118, 0x20, 36, 0, 1, cmpStatFields⟩, j, 0) := by decide

section
variable {d : Dev} {c : Nat} (hc : c < nCmp d.member)
include hc

theorem placed_cmpStat : Placed d (R.CMP_STAT c) .cmpB (c / 36) (0x118 + 0x20 * (c % 36)) := by
  have h72 := hc.trans_le (nCmp_le _)
  have hpage : pageOf (R.CMP_STAT c) = 0x40 + c / 36 := by simp only [R.CMP_STAT, pageOf]; omega
  have hinfo : ∀ p < 2, pageInfo (0x40 + p) = some (.cmpB, p) := by decide
  refine ⟨by rw [hpage]; exact hinfo _ (by omega), by simp only [R.CMP_STAT, offOf]; omega, decide_eq_true (by omega), ?_, by omega⟩
  simp only [absentReg, Bool.and_eq_false_iff, decide_eq_false_iff_not]
  omega

theorem Dev.unitWrite_cmpStat (hlive : d.replaying = false) (mid : Nat) (w : Word) :
    d.unitWrite 72 c mid (R.CMP_STAT c) w = d.cmpStatWrite mid c w := by
  have h72 := hc.trans_le (nCmp_le _)
  rw [Dev.unitWrite_in d h72, Dev.pWrite_placed_eq (placed_cmpStat hc) hlive rfl]
  have hdiv : 36 * (c / 36) + (0x118 + 0x20 * (c % 36) - 0x100) / 0x20 = c := by omega
  have hmod : (0x118 + 0x20 * (c % 36) - 0x100) % 0x20 = 0x18 := by omega
  have hroute : d.routeWrite mid .cmpB (c / 36) (0x118 + 0x20 * (c % 36)) (R.CMP_STAT c) w =
    d.cmpPageWrite mid (c / 36) (0x118 + 0x20 * (c % 36)) (R.CMP_STAT c) w := rfl
  rw [hroute, Dev.cmpPageWrite, if_neg (by omega), hdiv, hmod, if_pos rfl]

/-- CLR in a taken write stores nothing. -/
theorem Dev.plainWrite_cmpClr {mid : Nat} (ht : d.takenAt mid (R.CMP_STAT c) = true) :
    d.plainWrite mid (R.CMP_STAT c) 0x80000000 = d.setReg (R.CMP_STAT c) (d.reg (R.CMP_STAT c)) := by
  have h72 := hc.trans_le (nCmp_le _)
  have hin : inRegs (R.CMP_STAT c) = true := inRegs_iff.2 (by simp only [R.CMP_STAT]; omega)
  refine Dev.plainWrite_idle (placed_cmpStat hc) hin (regAt_cmpStat _ (Nat.mod_lt _ (by decide))) ?_ (fun _ _ => rfl) ht ?_
  · decide
  · simp only [absentBits]
    rw [if_neg (by omega), if_neg (by omega)]
    exact BitVec.and_zero

/-- A clear of a comparator by a write that takes it (R153). -/
theorem Dev.cmpClear_eq {mid : Nat} (ht : d.takenAt mid (R.CMP_STAT c) = true) : d.cmpStatWrite mid c 0x80000000 =
    let e := d.setReg (R.CMP_STAT c) (d.reg (R.CMP_STAT c))
    if !d.flag (R.CMP_STAT c) F.CMP_STAT_OUT && !d.cmpStarting c then e.putB (R.CMP_STAT c) F.CMP_STAT_LATCHED false
    else (e.putB (R.CMP_STAT c) F.CMP_STAT_CLR_FAIL true).cmpEvent c Ev.CMP_CLR_FAIL := by
  have hsame : ∀ f, (d.setReg (R.CMP_STAT c) (d.reg (R.CMP_STAT c))).flag (R.CMP_STAT c) f = d.flag (R.CMP_STAT c) f := fun f =>
    Dev.flag_of_reg (Dev.reg_setReg_self _ _ _) f
  rw [Dev.cmpStatWrite]
  dsimp only
  rw [Dev.plainWrite_cmpClr hc ht, ht, if_pos (by decide), hsame, Dev.cmpStarting, hsame]
  rfl

end

/-! ### Devices that a trip treats alike -/

/-- What a trip of a comparator depends on is the same. -/
structure TripAlike (d e : Dev) (c : Nat) : Prop where
  route : e.reg (R.CMP_ROUTE c) = d.reg (R.CMP_ROUTE c)
  cfg : e.reg (R.CMP_CFG c) = d.reg (R.CMP_CFG c)
  count : e.get (R.CMP_STAT c) F.CMP_STAT_TRIP_CNT = d.get (R.CMP_STAT c) F.CMP_STAT_TRIP_CNT
  limited : (e.cmpS c).limited = (d.cmpS c).limited
  legs : LegsAlike d e

section
variable {d e f : Dev} {c : Nat} {hi lo : Bool}

theorem TripAlike.acted (h : TripAlike d e c) (ha : CmpActed e f c hi lo) : CmpActed d f c hi lo := by
  obtain ⟨hroute, hcfg, hcount, hlimited, hlegs⟩ := h
  have hprot : e.cmpProtect c = d.cmpProtect c := Dev.flag_of_reg hcfg _
  have hlow : e.cmpLowest c = d.cmpLowest c := by rw [Dev.cmpLowest, hroute, Dev.cmpLowest]
  have hsw : e.get (R.CMP_ROUTE c) F.CMP_ROUTE_SW_SEL = d.get (R.CMP_ROUTE c) F.CMP_ROUTE_SW_SEL := Dev.get_of_reg hroute _
  rw [CmpActed, hroute, hcount, hlimited, hprot, hlow, hsw] at ha
  obtain ⟨h1, h2, h3, h4, h5⟩ := ha
  refine ⟨h1, h2, h3, fun hp => ?_, h5⟩
  obtain ⟨hr, hrel⟩ := h4 hp
  refine ⟨hr, fun g hg hb x hx hm => ?_⟩
  obtain ⟨k1, k2⟩ := hrel g hg hb x hx hm
  exact ⟨k1, fun hn => k2 ((hlegs.2 g hg x hx).1.trans hn)⟩

theorem TripAlike.setCmp (d : Dev) (c : Nat) (v : CmpSt) (hv : v.limited = (d.cmpS c).limited) : TripAlike d (d.setCmp c v) c := by
  refine ⟨Dev.reg_setCmp _ _ _ _, Dev.reg_setCmp _ _ _ _, Dev.get_of_reg (Dev.reg_setCmp _ _ _ _) _, ?_,
    .of_regs rfl rfl fun _ _ => Dev.reg_setCmp _ _ _ _⟩
  rw [Dev.cmpS_setCmp_self, hv]

theorem TripAlike.put (d : Dev) (c : Nat) {f : RField} (v : Nat)
    (hf : f.lo + fieldWidth f ≤ F.CMP_STAT_TRIP_CNT.lo ∨ F.CMP_STAT_TRIP_CNT.lo + fieldWidth F.CMP_STAT_TRIP_CNT ≤ f.lo) :
    TripAlike d (d.put (R.CMP_STAT c) f v) c := by
  refine ⟨d.reg_put_ne _ _ ?_, d.reg_put_ne _ _ ?_, Dev.get_put_field _ _ _ _ _ _ hf, by rw [Dev.cmpS_put], .setReg d _ fun h hh => ?_⟩
  · simp only [R.CMP_ROUTE, R.CMP_STAT]; omega
  · simp only [R.CMP_CFG, R.CMP_STAT]; omega
  · simp only [gdLstat, R.GDT_LSTAT, R.GDA_LSTAT, R.CMP_STAT]
    split <;> omega

theorem TripAlike.cmpEvent (d : Dev) {c : Nat} (hc : c < 72) (src : Nat) : TripAlike d (d.cmpEvent c src) c := by
  have hne : ∀ {a}, a = R.CMP_ROUTE c ∨ a = R.CMP_CFG c → a ≠ R.CMP_FLAG0 (c / 36) ∧ a ≠ R.CMP_FLAG1 (c / 36) := fun ha => by
    simp only [R.CMP_ROUTE, R.CMP_CFG, R.CMP_FLAG0, R.CMP_FLAG1] at ha ⊢
    omega
  obtain ⟨-, her, hec⟩ := eventReg_cmp hc
  exact ⟨d.cmpEvent_reg c src her (hne (.inl rfl)).1 (hne (.inl rfl)).2, d.cmpEvent_reg c src hec (hne (.inr rfl)).1 (hne (.inr rfl)).2,
    Dev.get_of_reg (d.cmpEvent_stat src hc) _, by rw [Dev.cmpEvent_cmpS], .cmpEvent d c src⟩

theorem TripAlike.trans (h : TripAlike d e c) (k : TripAlike e f c) : TripAlike d f c :=
  ⟨k.route.trans h.route, k.cfg.trans h.cfg, k.count.trans h.count, k.limited.trans h.limited, h.legs.trans k.legs⟩

end

/-! ### Blanking that follows its sources -/

section
variable {d : Dev} {c : Nat}

theorem Dev.blankShown_cmpS (d : Dev) (c j : Nat) : (d.blankShown c).cmpS j = if j = c then d.blankRec c else d.cmpS j := by
  rw [Dev.blankShown, Dev.putB, Dev.cmpS_put, Dev.cmpS_setCmp]

theorem Dev.blankShown_blanked (d : Dev) (c : Nat) :
    (d.blankShown c).flag (R.CMP_STAT c) F.CMP_STAT_BLANKED = (d.setCmp c (d.blankRec c)).cmpBlanked c :=
  Dev.flag_putB_self _ _ _ _ rfl (by decide)

theorem Dev.blankShown_starting (d : Dev) (c : Nat) : (d.blankShown c).cmpStarting c = d.cmpStarting c := by
  rw [Dev.cmpStarting, Dev.blankShown, Dev.putB, Dev.flag_put_field _ _ _ _ (by decide), Dev.flag_of_reg (Dev.reg_setCmp _ _ _ _), Dev.cmpStarting]

theorem Dev.blankShown_frame (d : Dev) (c : Nat) : Frame { d with cmp := (d.blankShown c).cmp } (d.blankShown c) [R.CMP_STAT c] := by
  have h : FrameOn (fun d e => { d with cmp := e.cmp }) [R.CMP_STAT c] d (d.blankShown c) := by
    have hp : Part (fun d e : Dev => { d with cmp := e.cmp }) := ⟨fun _ => rfl, fun _ _ _ => rfl, fun _ _ => rfl, fun _ _ _ => rfl⟩
    exact ((FrameOn.refl hp _ d).part hp (f := d.setCmp c (d.blankRec c)) rfl fun _ => Dev.reg_setCmp _ _ _ _).putB hp _ _
      (List.mem_singleton_self _)
  exact h

theorem Dev.blankShown_member (d : Dev) (c : Nat) : (d.blankShown c).member = d.member := (congrArg Dev.member (d.blankShown_frame c).1 :)

theorem Dev.blankRec_limited (d : Dev) (c : Nat) : (d.blankRec c).limited = (d.cmpS c).limited ∧
    (d.blankRec c).hiTrip = (d.cmpS c).hiTrip ∧ (d.blankRec c).loTrip = (d.cmpS c).loTrip ∧
    (d.blankRec c).slotBlank = (d.cmpS c).slotBlank := by
  rw [Dev.blankRec]
  split
  · split <;> split <;> exact ⟨rfl, rfl, rfl, rfl⟩
  · split <;> exact ⟨rfl, rfl, rfl, rfl⟩

theorem Dev.blankRec_on (h : d.cmpBlankSrc c = true) : (d.blankRec c).capped = (d.cmpS c).capped ∧
    ((d.cmpS c).capped = false → (d.blankRec c).blankFrom = some ((d.cmpS c).blankFrom.getD d.gtc)) := by
  rw [Dev.blankRec]
  rw [h, if_pos rfl]
  split
  · split <;> exact ⟨rfl, fun hc => if_neg (by rw [hc]; exact Bool.false_ne_true)⟩
  · exact ⟨rfl, fun hc => if_neg (by rw [hc]; exact Bool.false_ne_true)⟩

/-- Edge blanking that has not ended is a source (R146). -/
theorem Dev.cmpBlankSrc_edge {t : Nat} (h : (d.cmpS c).edgeEnd = some t) :
    d.cmpBlankSrc c = ((d.cmpS c).slotBlank || d.cmpOwBlank c || decide (d.gtc < t)) := by
  rw [Dev.cmpBlankSrc]
  rw [h]

theorem Dev.cmpBlankSrc_noEdge (h : (d.cmpS c).edgeEnd = none) : d.cmpBlankSrc c = ((d.cmpS c).slotBlank || d.cmpOwBlank c) := by
  rw [Dev.cmpBlankSrc]
  rw [h, Bool.or_false]

theorem Dev.edgeEnded (h : d.cmpBlankSrc c = false) {t : Nat} (he : (d.cmpS c).edgeEnd = some t) : t ≤ d.gtc := by
  rw [Dev.cmpBlankSrc_edge he, Bool.or_eq_false_iff, decide_eq_false_iff_not, Nat.not_lt] at h
  exact h.2

theorem Dev.blankRec_off (h : d.cmpBlankSrc c = false) : (d.blankRec c).blankFrom = none ∧ (d.blankRec c).capped = false ∧
    (d.blankRec c).edgeEnd = none := by
  have hend := fun t => Dev.edgeEnded (t := t) h
  rw [Dev.blankRec]
  rw [h, if_neg Bool.false_ne_true]
  split
  · next t ht =>
    rw [if_pos (hend t ht)]
    exact ⟨rfl, rfl, rfl⟩
  · next hnone => exact ⟨rfl, rfl, hnone⟩

theorem Dev.blankRec_edge (d : Dev) (c : Nat) : (d.blankRec c).edgeEnd = (d.cmpS c).edgeEnd ∨
    ((d.blankRec c).edgeEnd = none ∧ ∃ t, (d.cmpS c).edgeEnd = some t ∧ t ≤ d.gtc) := by
  rw [Dev.blankRec]
  cases d.cmpBlankSrc c <;> simp only [if_true, Bool.false_eq_true, if_false] <;> split
  · next t ht =>
    split
    · next hle => exact .inr ⟨rfl, t, ht, hle⟩
    · exact .inl rfl
  · exact .inl rfl
  · next t ht =>
    split
    · next hle => exact .inr ⟨rfl, t, ht, hle⟩
    · exact .inl rfl
  · exact .inl rfl

/-- The sources stand when the record follows them. -/
theorem Dev.blankRec_src (d : Dev) (c : Nat) : (d.setCmp c (d.blankRec c)).cmpBlankSrc c = d.cmpBlankSrc c := by
  have hslot := (d.blankRec_limited c).2.2.2
  have how : (d.setCmp c (d.blankRec c)).cmpOwBlank c = d.cmpOwBlank c := rfl
  have hgtc : (d.setCmp c (d.blankRec c)).gtc = d.gtc := rfl
  have hself : (d.setCmp c (d.blankRec c)).cmpS c = d.blankRec c := Dev.cmpS_setCmp_self _ _ _
  obtain he | ⟨he, t, ht, hle⟩ := d.blankRec_edge c
  · cases hq : (d.cmpS c).edgeEnd with
    | none => rw [Dev.cmpBlankSrc_noEdge hq, Dev.cmpBlankSrc_noEdge (by rw [hself, he, hq]), hself, hslot, how]
    | some t => rw [Dev.cmpBlankSrc_edge hq, Dev.cmpBlankSrc_edge (t := t) (by rw [hself, he, hq]), hself, hslot, how, hgtc]
  · rw [Dev.cmpBlankSrc_edge ht, Dev.cmpBlankSrc_noEdge (by rw [hself, he]), hself, hslot, how, decide_eq_false (by omega), Bool.or_false]

theorem Dev.blankShown_alike (d : Dev) (c : Nat) : TripAlike d (d.blankShown c) c :=
  (TripAlike.setCmp d c _ (d.blankRec_limited c).1).trans (TripAlike.put _ c _ (by decide))

/-- Where a source masks the comparator, the record follows and nothing acts (R146 to R148). -/
theorem Dev.cmpBlankSync_on (h : d.cmpBlankSrc c = true) (hc : (d.cmpS c).capped = false) : d.cmpBlankSync c = d.blankShown c ∧
    (d.blankShown c).flag (R.CMP_STAT c) F.CMP_STAT_BLANKED = true := by
  have hnow : (d.setCmp c (d.blankRec c)).cmpBlanked c = true := by
    rw [Dev.cmpBlanked, d.blankRec_src, h, Dev.cmpS_setCmp_self, (Dev.blankRec_on h).1, hc]
    rfl
  refine ⟨?_, (d.blankShown_blanked c).trans hnow⟩
  rw [Dev.cmpBlankSync_eq, hnow, Bool.not_true, Bool.and_false, if_neg Bool.false_ne_true]

theorem CmpStands.cmpS_field {α : Type} {d e : Dev} {c : Nat} (h : CmpStands d e c) (f : CmpSt → α)
    (hf : ∀ (q : CmpSt) (b : Bool), f { q with limited := b } = f q) : f (e.cmpS c) = f (d.cmpS c) := by
  obtain ⟨-, ⟨b, hb⟩, -⟩ := h
  rw [hb, hf]

/-- The comparator with its blanking ended, and its record (R148). -/
theorem Dev.cmpBlankSync_off (h : d.cmpBlankSrc c = false) (hc : c < nCmp d.member) : Unblanked d (d.cmpBlankSync c) c ∧
    ((d.cmpBlankSync c).cmpS c).slotBlank = (d.cmpS c).slotBlank ∧ ((d.cmpBlankSync c).cmpS c).edgeEnd = none := by
  obtain ⟨hfrom, hcap, hedge⟩ := Dev.blankRec_off h
  obtain ⟨-, hhi, hlo, hslot⟩ := d.blankRec_limited c
  have hown : (d.blankShown c).cmpS c = d.blankRec c := by rw [d.blankShown_cmpS, if_pos rfl]
  have hnow : (d.setCmp c (d.blankRec c)).cmpBlanked c = false := by rw [Dev.cmpBlanked, d.blankRec_src, h, Bool.false_and]
  have hblank : (d.blankShown c).flag (R.CMP_STAT c) F.CMP_STAT_BLANKED = false := (d.blankShown_blanked c).trans hnow
  rw [Dev.cmpBlankSync_eq, hnow, Bool.not_false, Bool.and_true]
  split
  · next hwas =>
    have hact : (d.blankShown c).cmpUnmask c =
        if ((d.cmpS c).hiTrip || (d.cmpS c).loTrip) && !d.cmpStarting c then (d.blankShown c).cmpAct c (d.cmpS c).hiTrip (d.cmpS c).loTrip
        else d.blankShown c := by
      rw [Dev.cmpUnmask, hown, hhi, hlo, d.blankShown_starting]
    rw [hact]
    split
    · next ht =>
      rw [Bool.and_eq_true, Bool.not_eq_true'] at ht
      obtain ⟨hacted, hstands⟩ := (d.blankShown c).cmpAct_spec (c := c) (by rw [d.blankShown_member]; exact hc) (d.cmpS c).hiTrip (d.cmpS c).loTrip
      have hfield := fun {α : Type} (f : CmpSt → α) hf => (hstands.cmpS_field f hf).trans (congrArg f hown)
      refine ⟨⟨fun j hj => ?_, (hfield (·.blankFrom) fun _ _ => rfl).trans hfrom, (hfield (·.capped) fun _ _ => rfl).trans hcap, ?_, ?_⟩,
        (hfield (·.slotBlank) fun _ _ => rfl).trans hslot, (hfield (·.edgeEnd) fun _ _ => rfl).trans hedge⟩
      · rw [hstands.1 j hj, d.blankShown_cmpS, if_neg hj]
      · rw [hstands.2.2 _ (by decide)]
        exact hblank
      · rw [if_pos ⟨hwas, ht.1, ht.2⟩]
        exact (d.blankShown_alike c).acted hacted
    · next ht =>
      refine ⟨⟨fun j hj => by rw [d.blankShown_cmpS, if_neg hj], by rw [hown, hfrom], by rw [hown, hcap], hblank, ?_⟩, by rw [hown, hslot],
        by rw [hown, hedge]⟩
      rw [if_neg fun hn => ht (by rw [hn.2.1, hn.2.2]; rfl)]
      exact d.blankShown_frame c
  · next hwas =>
    refine ⟨⟨fun j hj => by rw [d.blankShown_cmpS, if_neg hj], by rw [hown, hfrom], by rw [hown, hcap], hblank, ?_⟩, by rw [hown, hslot],
      by rw [hown, hedge]⟩
    rw [if_neg fun hn => hwas hn.1]
    exact d.blankShown_frame c

end

end Sys2Proof.Machine
end

section
/-! PROOFS. Blanking and clearing of comparators (R146 to R149, R153). -/

namespace Sys2Proof.Machine

/-! ### Pins looked at -/

theorem Dev.edgeBlank_trip (d : Dev) (g : Nat) : FrameOn cmpPart tripRegs d (d.edgeBlank g) := by
  refine FrameOn.forN cmpPart_part _ (fun c hc e => ?_) d
  have h0 := FrameOn.refl cmpPart_part tripRegs e
  exact FrameOn.ite (fun _ => (h0.setCmp c _).trans cmpPart_part (Dev.cmpBlankSync_trip _ (hc.trans_le (nCmp_le _)))) fun _ => h0

theorem Dev.pinLook_trip (d : Dev) (g : Nat) : FrameOn cmpPart tripRegs d (d.pinLook g) := by
  have hp := cmpPart_part
  refine FrameOn.ite (fun _ => ?_) fun _ => FrameOn.refl hp _ d
  refine FrameOn.trans hp (FrameOn.forN hp 3 (fun x _ e => ?_) d) (Dev.edgeBlank_trip _ g)
  exact ((FrameOn.refl grpPart_part tripRegs e).setLeg g x _).toCmp

theorem Dev.pinLookAll_trip (d : Dev) : FrameOn cmpPart tripRegs d d.pinLookAll :=
  FrameOn.forN cmpPart_part 20 (fun g _ e => e.pinLook_trip g) d

theorem Dev.pinLookAll_gtc (d : Dev) : d.pinLookAll.gtc = d.gtc := (congrArg Dev.gtc d.pinLookAll_trip.1 :)
theorem Dev.pinLookAll_member (d : Dev) : d.pinLookAll.member = d.member := (congrArg Dev.member d.pinLookAll_trip.1 :)

/-! ### Slot blanking -/

section
variable {d : Dev} {c : Nat}

theorem Dev.blankOn_eq (h : (d.cmpS c).capped = false) : d.blankOn c = (d.setCmp c { d.cmpS c with slotBlank := true }).blankShown c ∧
    (d.blankOn c).flag (R.CMP_STAT c) F.CMP_STAT_BLANKED = true := by
  have hself : (d.setCmp c { d.cmpS c with slotBlank := true }).cmpS c = { d.cmpS c with slotBlank := true } := Dev.cmpS_setCmp_self _ _ _
  have hsrc : (d.setCmp c { d.cmpS c with slotBlank := true }).cmpBlankSrc c = true := by
    rw [Dev.cmpBlankSrc, hself]
    rfl
  obtain ⟨heq, hflag⟩ := Dev.cmpBlankSync_on hsrc (by rw [hself]; exact h)
  exact ⟨heq, (congrArg (fun e : Dev => e.flag _ _) heq).trans hflag⟩

theorem Dev.blankOn_cmpS (h : (d.cmpS c).capped = false) : (∀ j, j ≠ c → (d.blankOn c).cmpS j = d.cmpS j) ∧
    ((d.blankOn c).cmpS c).slotBlank = true ∧ ((d.blankOn c).cmpS c).blankFrom = some ((d.cmpS c).blankFrom.getD d.gtc) := by
  rw [(Dev.blankOn_eq h).1]
  have hself : (d.setCmp c { d.cmpS c with slotBlank := true }).cmpS c = { d.cmpS c with slotBlank := true } := Dev.cmpS_setCmp_self _ _ _
  have hsrc : (d.setCmp c { d.cmpS c with slotBlank := true }).cmpBlankSrc c = true := by
    rw [Dev.cmpBlankSrc, hself]
    rfl
  refine ⟨fun j hj => ?_, ?_, ?_⟩
  · rw [Dev.blankShown_cmpS, if_neg hj, Dev.cmpS_setCmp, if_neg hj]
  · rw [Dev.blankShown_cmpS, if_pos rfl, (Dev.blankRec_limited _ c).2.2.2, hself]
  · rw [Dev.blankShown_cmpS, if_pos rfl, (Dev.blankRec_on hsrc).2 (by rw [hself]; exact h), hself, Dev.setCmp_gtc]

theorem Dev.blankOn_frame (h : (d.cmpS c).capped = false) : Frame { d with cmp := (d.blankOn c).cmp } (d.blankOn c) [R.CMP_STAT c] := by
  rw [(Dev.blankOn_eq h).1]
  exact Dev.blankShown_frame _ c

/-- Unblanking reckoned from a device with another record of the comparator. -/
theorem Unblanked.of_setCmp {e : Dev} {q : CmpSt} (hh : q.hiTrip = (d.cmpS c).hiTrip) (hl : q.loTrip = (d.cmpS c).loTrip)
    (hlim : q.limited = (d.cmpS c).limited) (h : Unblanked (d.setCmp c q) e c) : Unblanked d e c := by
  obtain ⟨hoth, hfrom, hcap, hflag, hact⟩ := h
  refine ⟨fun j hj => (hoth j hj).trans (by rw [Dev.cmpS_setCmp, if_neg hj]), hfrom, hcap, hflag, ?_⟩
  have hstart : (d.setCmp c q).cmpStarting c = d.cmpStarting c := Dev.flag_of_reg (Dev.reg_setCmp _ _ _ _) _
  have hwas : (d.setCmp c q).flag (R.CMP_STAT c) F.CMP_STAT_BLANKED = d.flag (R.CMP_STAT c) F.CMP_STAT_BLANKED :=
    Dev.flag_of_reg (Dev.reg_setCmp _ _ _ _) _
  rw [hstart, hwas, Dev.cmpS_setCmp_self, hh, hl] at hact
  split
  · next hc =>
    rw [if_pos hc] at hact
    exact (TripAlike.setCmp d c q hlim).acted hact
  · next hc =>
    rw [if_neg hc] at hact
    exact hact

theorem Dev.blankOff_spec (hc : c < nCmp d.member) (hdue : d.blankOnDue c = false) (how : d.cmpOwBlank c = false)
    (hedge : ∀ t, (d.cmpS c).edgeEnd = some t → t ≤ d.gtc) :
    Unblanked d (d.blankOff c) c ∧ ((d.blankOff c).cmpS c).slotBlank = false := by
  have hself : (d.setCmp c { d.cmpS c with slotBlank := false }).cmpS c = { d.cmpS c with slotBlank := false } := Dev.cmpS_setCmp_self _ _ _
  have how' : (d.setCmp c { d.cmpS c with slotBlank := false }).cmpOwBlank c = false := how
  have hsrc : (d.setCmp c { d.cmpS c with slotBlank := false }).cmpBlankSrc c = false := by
    cases he : (d.cmpS c).edgeEnd with
    | none => rw [Dev.cmpBlankSrc_noEdge (by rw [hself, he]), hself, how']; rfl
    | some t =>
      rw [Dev.cmpBlankSrc_edge (t := t) (by rw [hself, he]), hself, how', decide_eq_false (by rw [Dev.setCmp_gtc]; have := hedge t he; omega)]
      rfl
  obtain ⟨hun, hslot, -⟩ := Dev.cmpBlankSync_off hsrc (by rw [Dev.setCmp_member]; exact hc)
  rw [Dev.blankOff, if_neg (by rw [hdue]; exact Bool.false_ne_true)]
  exact ⟨Unblanked.of_setCmp (q := { d.cmpS c with slotBlank := false }) rfl rfl rfl hun, hslot.trans (by rw [hself])⟩

/-! ### Blanking cut short -/

/-- A comparator whose blanking is cut, shown and told. -/
def Dev.capTold (d : Dev) (c : Nat) : Dev :=
  (((d.setCmp c { d.cmpS c with capped := true, blankFrom := none }).putB (R.CMP_STAT c) F.CMP_STAT_BLANKED false).putB (R.CMP_STAT c)
    F.CMP_STAT_BLANK_CAPPED true).cmpEvent c Ev.CMP_BLANK_CAP

theorem Dev.cmpBlankCap_eq {t : Nat} (hf : d.frozen (Pg.CMP (c / 36)) = false) (ht : (d.cmpS c).blankFrom = some t)
    (hp : d.cmpProtect c = true) (hb : d.cmpBlanked c = true) (h8 : t + 800 ≤ d.gtc) : d.cmpBlankCap c = (d.capTold c).cmpUnmask c := by
  simp only [Dev.cmpBlankCap, ht, hp, hb, hf, h8, decide_true, Bool.not_false, Bool.and_self, if_true]
  rfl

theorem Dev.capTold_spec (hc : c < nCmp d.member) : TripAlike d (d.capTold c) c ∧ (∀ j, j ≠ c → (d.capTold c).cmpS j = d.cmpS j) ∧
    (d.capTold c).cmpS c = { d.cmpS c with capped := true, blankFrom := none } ∧ (d.capTold c).member = d.member ∧
    (d.capTold c).flag (R.CMP_STAT c) F.CMP_STAT_BLANKED = false ∧ (d.capTold c).flag (R.CMP_STAT c) F.CMP_STAT_BLANK_CAPPED = true ∧
    (d.capTold c).cmpStarting c = d.cmpStarting c ∧ Raised (d.capTold c) (Pg.CMP (c / 36)) Ev.CMP_BLANK_CAP := by
  have h72 := hc.trans_le (nCmp_le _)
  have halike := (((TripAlike.setCmp d c { d.cmpS c with capped := true, blankFrom := none } rfl).trans
    (TripAlike.put _ c (f := F.CMP_STAT_BLANKED) (b2n false) (by decide))).trans
    (TripAlike.put _ c (f := F.CMP_STAT_BLANK_CAPPED) (b2n true) (by decide))).trans (TripAlike.cmpEvent _ h72 Ev.CMP_BLANK_CAP)
  refine ⟨halike, fun j hj => ?_, ?_, ?_, ?_, ?_, ?_, Dev.cmpEvent_raised _ _ hc⟩
  · rw [Dev.capTold, Dev.cmpEvent_cmpS, Dev.putB, Dev.cmpS_put, Dev.putB, Dev.cmpS_put, Dev.cmpS_setCmp, if_neg hj]
  · rw [Dev.capTold, Dev.cmpEvent_cmpS, Dev.putB, Dev.cmpS_put, Dev.putB, Dev.cmpS_put, Dev.cmpS_setCmp_self]
  · exact Dev.cmpEvent_member _ _ _
  · rw [Dev.capTold, Dev.flag_of_reg (Dev.cmpEvent_stat _ _ h72), Dev.putB, Dev.flag_put_field _ _ _ _ (by decide)]
    exact Dev.flag_putB_self _ _ _ false rfl (by decide)
  · rw [Dev.capTold, Dev.flag_of_reg (Dev.cmpEvent_stat _ _ h72)]
    exact Dev.flag_putB_self _ _ _ true rfl (by decide)
  · rw [Dev.cmpStarting, Dev.capTold, Dev.flag_of_reg (Dev.cmpEvent_stat _ _ h72), Dev.putB, Dev.flag_put_field _ _ _ _ (by decide), Dev.putB,
      Dev.flag_put_field _ _ _ _ (by decide), Dev.flag_of_reg (Dev.reg_setCmp _ _ _ _), Dev.cmpStarting]

end

theorem rawReg_not_tripRegs (p : Nat) : R.PG_EVT_RAW p ∉ tripRegs := by
  intro h
  simp only [tripRegs, gdAll, List.mem_append, List.mem_flatMap, List.mem_range, cmpOwn, gdRegs, gdFlag, gdLstat, relCnt, List.mem_cons,
    List.not_mem_nil, or_false, R.PG_EVT_RAW, pageBase] at h
  obtain ⟨c, hc, h⟩ | ⟨g, hg, h⟩ := h
  · simp only [R.CMP_FLAG0, R.CMP_FLAG1, R.CMP_STAT] at h
    omega
  · simp only [R.GDT_FLAG, R.GDA_FLAG, R.GDT_LSTAT, R.GDA_LSTAT, R.GDT_CNT, R.GDA_CNT] at h
    split at h <;> simp only at h <;> omega

theorem mem_tripRegs {c : Nat} (hc : c < 72) {a : Nat} (h : a ∈ cmpOwn c) : a ∈ tripRegs :=
  List.mem_append_left _ (List.mem_flatMap.2 ⟨c, List.mem_range.2 hc, h⟩)

section
variable {d : Dev} {c : Nat}

theorem Dev.cmpAct_raised {e : Dev} (hc : c < 72) (hi lo : Bool) {page src : Nat} (h : Raised e page src) : Raised (e.cmpAct c hi lo) page src :=
  (Dev.cmpAct_frame (c := c) (l := tripRegs) (fun _ ha => mem_tripRegs hc ha) (fun _ ha => List.mem_append_right _ ha) e hi lo).raised
    cmpPart_part (rawReg_not_tripRegs page) h

/-- Blanking cut short (R147). -/
theorem Dev.capTold_unmask (hc : c < nCmp d.member) : (∀ j, j ≠ c → ((d.capTold c).cmpUnmask c).cmpS j = d.cmpS j) ∧
    (((d.capTold c).cmpUnmask c).cmpS c).capped = true ∧ (((d.capTold c).cmpUnmask c).cmpS c).blankFrom = none ∧
    ((d.capTold c).cmpUnmask c).flag (R.CMP_STAT c) F.CMP_STAT_BLANKED = false ∧
    ((d.capTold c).cmpUnmask c).flag (R.CMP_STAT c) F.CMP_STAT_BLANK_CAPPED = true ∧
    Raised ((d.capTold c).cmpUnmask c) (Pg.CMP (c / 36)) Ev.CMP_BLANK_CAP ∧
    (((d.cmpS c).hiTrip || (d.cmpS c).loTrip) = true → d.cmpStarting c = false →
      CmpActed d ((d.capTold c).cmpUnmask c) c (d.cmpS c).hiTrip (d.cmpS c).loTrip) := by
  have h72 := hc.trans_le (nCmp_le _)
  obtain ⟨halike, hoth, hown, hmem, hblank, hcapped, hstart, hraised⟩ := Dev.capTold_spec hc
  have heq : (d.capTold c).cmpUnmask c = if ((d.cmpS c).hiTrip || (d.cmpS c).loTrip) && !d.cmpStarting c then
      (d.capTold c).cmpAct c (d.cmpS c).hiTrip (d.cmpS c).loTrip else d.capTold c := by
    rw [Dev.cmpUnmask, hown, hstart]
  rw [heq]
  split
  · obtain ⟨hacted, hstands⟩ := (d.capTold c).cmpAct_spec (c := c) (by rw [hmem]; exact hc) (d.cmpS c).hiTrip (d.cmpS c).loTrip
    have hfield := fun {α : Type} (f : CmpSt → α) hf => (hstands.cmpS_field f hf).trans (congrArg f hown)
    exact ⟨fun j hj => (hstands.1 j hj).trans (hoth j hj), hfield (·.capped) fun _ _ => rfl, hfield (·.blankFrom) fun _ _ => rfl,
      (hstands.2.2 _ (by decide)).trans hblank, (hstands.2.2 _ (by decide)).trans hcapped, Dev.cmpAct_raised h72 _ _ hraised,
      fun _ _ => halike.acted hacted⟩
  · next hn =>
    refine ⟨hoth, by rw [hown], by rw [hown], hblank, hcapped, hraised, fun ht hs => absurd ?_ hn⟩
    rw [ht, hs]
    rfl

/-! ### Clearing -/

/-- A clear while the output is untripped and no start is under way, else a refused one (R153). -/
theorem Dev.cmpClear_spec (hc : c < nCmp d.member) {mid : Nat} (ht : d.takenAt mid (R.CMP_STAT c) = true) :
    (d.flag (R.CMP_STAT c) F.CMP_STAT_OUT = false → d.cmpStarting c = false →
      Frame d (d.cmpStatWrite mid c 0x80000000) [R.CMP_STAT c] ∧
        (d.cmpStatWrite mid c 0x80000000).flag (R.CMP_STAT c) F.CMP_STAT_LATCHED = false) ∧
    (d.flag (R.CMP_STAT c) F.CMP_STAT_OUT = true ∨ d.cmpStarting c = true →
      Frame d (d.cmpStatWrite mid c 0x80000000) [R.CMP_STAT c, R.CMP_FLAG0 (c / 36), R.CMP_FLAG1 (c / 36)] ∧
        (d.cmpStatWrite mid c 0x80000000).flag (R.CMP_STAT c) F.CMP_STAT_LATCHED = d.flag (R.CMP_STAT c) F.CMP_STAT_LATCHED ∧
        (d.cmpStatWrite mid c 0x80000000).flag (R.CMP_STAT c) F.CMP_STAT_CLR_FAIL = true ∧
        Raised (d.cmpStatWrite mid c 0x80000000) (Pg.CMP (c / 36)) Ev.CMP_CLR_FAIL) := by
  have h72 := hc.trans_le (nCmp_le _)
  have hp := noPart_part
  rw [Dev.cmpClear_eq hc ht]
  dsimp only
  refine ⟨fun ho hs => ?_, fun hos => ?_⟩
  · rw [ho, hs, if_pos (by rfl)]
    exact ⟨((FrameOn.refl hp _ d).setReg hp _ (List.mem_singleton_self _)).putB hp _ _ (List.mem_singleton_self _),
      Dev.flag_putB_self _ _ _ false rfl (by decide)⟩
  · have hcond : ¬(!d.flag (R.CMP_STAT c) F.CMP_STAT_OUT && !d.cmpStarting c) = true := by
      obtain h | h := hos <;> rw [h] <;> simp
    rw [if_neg hcond]
    refine ⟨FrameOn.cmpEvent hp (((FrameOn.refl hp _ d).setReg hp _ ?_).putB hp _ _ ?_) ?_ _, ?_, ?_, Dev.cmpEvent_raised _ _ hc⟩
    · exact List.mem_cons_self
    · exact List.mem_cons_self
    · intro a ha
      simp only [cmpOwn, List.mem_cons, List.not_mem_nil, or_false] at ha ⊢
      tauto
    · rw [Dev.flag_of_reg (Dev.cmpEvent_stat _ _ h72), Dev.putB, Dev.flag_put_field _ _ _ _ (by decide),
        Dev.flag_of_reg (Dev.reg_setReg_self _ _ _)]
    · rw [Dev.flag_of_reg (Dev.cmpEvent_stat _ _ h72)]
      exact Dev.flag_putB_self _ _ _ true rfl (by decide)

end

/-- Settles O24: the record follows its sources, and what is no longer masked acts. -/
theorem comparatorBlanking : Obligations.ComparatorBlanking := by
  unfold Obligations.ComparatorBlanking
  refine ⟨fun s hl => ⟨fun n r d hspan htarget => ⟨fun ht hcap => ?_, fun ht hdue how hedge => ?_⟩, fun c hc hf => ⟨fun t he hle hslot how => ?_,
    fun t ht hp hb h8 => ?_⟩⟩, fun s mid c hl hc ht => ?_⟩
  · have hm := Dev.takeFiring_member ht
    have hrun := Dev.runAction_one (f := fun c e => e.blankOn c) (present := cmpPresent s.dev) ht hspan
      (htarget.trans_le (nCmp_le _)) (by rw [cmpPresent, ← hm]; exact decide_eq_true htarget)
    obtain ⟨hoth, hslot, hfrom⟩ := Dev.blankOn_cmpS hcap
    exact ⟨_, onLive_eq hl hrun, Dev.blankOn_frame hcap, hoth, hslot, hfrom, (Dev.blankOn_eq hcap).2⟩
  · have hm := Dev.takeFiring_member ht
    have hrun := Dev.runAction_one (f := fun c e => e.blankOff c) (present := cmpPresent s.dev) ht hspan
      (htarget.trans_le (nCmp_le _)) (by rw [cmpPresent, ← hm]; exact decide_eq_true htarget)
    exact ⟨_, onLive_eq hl hrun, Dev.blankOff_spec htarget hdue how hedge⟩
  · have hsrc : s.dev.pinLookAll.cmpBlankSrc c = false := by
      rw [Dev.cmpBlankSrc_edge he, hslot, how, s.dev.pinLookAll_gtc, decide_eq_false (by omega)]
      rfl
    have heq : s.dev.edgeBlankEnd c = s.dev.pinLookAll.cmpBlankSync c := by
      rw [Dev.edgeBlankEnd, hf, if_neg Bool.false_ne_true, Dev.cmpLook, if_pos hc]
    obtain ⟨hun, -, hedge⟩ := Dev.cmpBlankSync_off hsrc (by rw [s.dev.pinLookAll_member]; exact hc)
    exact ⟨_, onLive_eq hl heq, hun, hedge⟩
  · exact ⟨_, onLive_eq hl (Dev.cmpBlankCap_eq hf ht hp hb h8), Dev.capTold_unmask hc⟩
  · obtain ⟨hclear, hfail⟩ := Dev.cmpClear_spec hc ht
    have hexec := onDev_eq (g := fun d => d.unitWrite 72 c mid (R.CMP_STAT c) 0x80000000) hl.1 (Dev.unitWrite_cmpStat hc hl.2 mid 0x80000000)
    exact ⟨fun ho hs => ⟨_, hexec, hclear ho hs⟩, fun hos => ⟨_, hexec, hfail hos⟩⟩

end Sys2Proof.Machine
end

section
/-! PROOFS. Decisions, starts and settings of comparators (R139 to R145, R151, R152). -/

namespace Sys2Proof.Machine

/-- The comparators alone. -/
def cmpOnly (d e : Dev) : Dev := { d with cmp := e.cmp }

theorem cmpOnly_part : Part cmpOnly := ⟨fun _ => rfl, fun _ _ _ => rfl, fun _ _ => rfl, fun _ _ _ => rfl⟩

section
variable {d e : Dev} {c : Nat} {l : List Nat}

theorem FrameOn.setCmpOnly (h : FrameOn cmpOnly l d e) (k : Nat) (v : CmpSt) : FrameOn cmpOnly l d (e.setCmp k v) :=
  h.part cmpOnly_part rfl fun _ => Dev.reg_setCmp _ _ _ _

/-! ### A decision -/

/-- A comparator's sides taken and shown. -/
def Dev.sidesShown (d : Dev) (c : Nat) (hi lo : Bool) : Dev := (d.setCmp c { d.cmpS c with hiTrip := hi, loTrip := lo }).cmpShow c

theorem Dev.cmpDecide_eq (d : Dev) (c : Nat) (uv : Int) : d.cmpDecide c uv =
    if ((d.cmpSides c uv).1 && !(d.cmpS c).hiTrip || (d.cmpSides c uv).2 && !(d.cmpS c).loTrip) &&
        !(d.sidesShown c (d.cmpSides c uv).1 (d.cmpSides c uv).2).cmpBlanked c then
      (d.sidesShown c (d.cmpSides c uv).1 (d.cmpSides c uv).2).cmpAct c ((d.cmpSides c uv).1 && !(d.cmpS c).hiTrip)
        ((d.cmpSides c uv).2 && !(d.cmpS c).loTrip)
    else d.sidesShown c (d.cmpSides c uv).1 (d.cmpSides c uv).2 := rfl

theorem Dev.sidesShown_cmpS (d : Dev) (c : Nat) (hi lo : Bool) (j : Nat) :
    (d.sidesShown c hi lo).cmpS j = if j = c then { d.cmpS c with hiTrip := hi, loTrip := lo } else d.cmpS j := by
  rw [Dev.sidesShown, Dev.cmpShow, Dev.putB, Dev.cmpS_put, Dev.cmpS_setCmp]

theorem Dev.sidesShown_spec (d : Dev) (c : Nat) (hi lo : Bool) : TripAlike d (d.sidesShown c hi lo) c ∧
    (d.sidesShown c hi lo).member = d.member ∧ FrameOn cmpOnly [R.CMP_STAT c] d (d.sidesShown c hi lo) ∧
    (d.sidesShown c hi lo).flag (R.CMP_STAT c) F.CMP_STAT_OUT = (d.cmpStarting c || hi || lo) ∧
    (d.sidesShown c hi lo).flag (R.CMP_STAT c) F.CMP_STAT_LATCHED = d.flag (R.CMP_STAT c) F.CMP_STAT_LATCHED := by
  refine ⟨(TripAlike.setCmp d c { d.cmpS c with hiTrip := hi, loTrip := lo } rfl).trans (TripAlike.put _ c (f := F.CMP_STAT_OUT) _ (by decide)), rfl,
    ((FrameOn.refl cmpOnly_part _ d).setCmpOnly c _).putB cmpOnly_part _ _ (List.mem_singleton_self _), ?_, ?_⟩
  · have hstart : (d.setCmp c { d.cmpS c with hiTrip := hi, loTrip := lo }).cmpStarting c = d.cmpStarting c :=
      Dev.flag_of_reg (Dev.reg_setCmp _ _ _ _) _
    rw [Dev.sidesShown, Dev.cmpShow, Dev.cmpS_setCmp_self, hstart]
    exact Dev.flag_putB_self _ _ _ _ rfl (by decide)
  · rw [Dev.sidesShown, Dev.cmpShow, Dev.putB, Dev.flag_put_field _ _ _ _ (by decide), Dev.flag_of_reg (Dev.reg_setCmp _ _ _ _)]

theorem Dev.owMarked_congr {i : Nat} (how : e.ow = d.ow) (hr : e.reg (R.ADA_OW_CFG i) = d.reg (R.ADA_OW_CFG i)) (ts : Nat) :
    e.owMarked i ts = d.owMarked i ts := by
  have hs : e.owS i = d.owS i := congrArg (fun l => spGet _ l i) how
  have ht : ∀ f, e.owTicks i f = d.owTicks i f := fun f => by rw [Dev.owTicks, Dev.owTicks, Dev.get_of_reg hr]
  simp only [Dev.owMarked, hs, ht]

theorem Dev.sidesShown_blanked (d : Dev) (c : Nat) (hi lo : Bool) : (d.sidesShown c hi lo).cmpBlanked c = d.cmpBlanked c := by
  have hself : (d.sidesShown c hi lo).cmpS c = { d.cmpS c with hiTrip := hi, loTrip := lo } := by rw [d.sidesShown_cmpS, if_pos rfl]
  have hcfg := (d.sidesShown_spec c hi lo).1.cfg
  have how : (d.sidesShown c hi lo).cmpOwBlank c = d.cmpOwBlank c := by
    have hin : d.get (R.CMP_CFG c) F.CMP_CFG_INSEL < 128 := getF_lt _ _
    have hreg : (d.sidesShown c hi lo).reg (R.ADA_OW_CFG (d.get (R.CMP_CFG c) F.CMP_CFG_INSEL)) =
        d.reg (R.ADA_OW_CFG (d.get (R.CMP_CFG c) F.CMP_CFG_INSEL)) := by
      rw [Dev.sidesShown, Dev.cmpShow, Dev.putB, Dev.reg_put_ne _ _ _ (by simp only [R.ADA_OW_CFG, R.CMP_STAT]; omega), Dev.reg_setCmp]
    rw [Dev.cmpOwBlank, Dev.cmpOwBlank, Dev.cmpFlag, Dev.flag_of_reg hcfg, Dev.get_of_reg hcfg,
      Dev.owMarked_congr (show (d.sidesShown c hi lo).ow = d.ow from rfl) hreg]
    rfl
  have hsrc : (d.sidesShown c hi lo).cmpBlankSrc c = d.cmpBlankSrc c := by
    cases he : (d.cmpS c).edgeEnd with
    | none => rw [Dev.cmpBlankSrc_noEdge he, Dev.cmpBlankSrc_noEdge (by rw [hself, he]), hself, how]
    | some t =>
      rw [Dev.cmpBlankSrc_edge he, Dev.cmpBlankSrc_edge (t := t) (by rw [hself, he]), hself, how]
      rfl
  rw [Dev.cmpBlanked, Dev.cmpBlanked, hsrc, hself]

/-- A comparator takes its sides, and a new trip that nothing masks acts (R140, R148). -/
theorem Dev.cmpDecide_decided (d : Dev) {c : Nat} (hc : c < nCmp d.member) (uv : Int) : Decided d (d.cmpDecide c uv) c uv := by
  rw [Dev.cmpDecide_eq, Decided]
  generalize (d.cmpSides c uv).1 = hi
  generalize (d.cmpSides c uv).2 = lo
  obtain ⟨halike, hmem, hframe, hout, hlat⟩ := d.sidesShown_spec c hi lo
  have hown : (d.sidesShown c hi lo).cmpS c = { d.cmpS c with hiTrip := hi, loTrip := lo } := by rw [d.sidesShown_cmpS, if_pos rfl]
  have hoth : ∀ j, j ≠ c → (d.sidesShown c hi lo).cmpS j = d.cmpS j := fun j hj => by rw [d.sidesShown_cmpS, if_neg hj]
  rw [d.sidesShown_blanked]
  dsimp only
  generalize (hi && !(d.cmpS c).hiTrip) = nh
  generalize (lo && !(d.cmpS c).loTrip) = nl
  generalize d.sidesShown c hi lo = e at *
  split
  · next hact =>
    rw [Bool.and_eq_true, Bool.not_eq_true'] at hact
    obtain ⟨hacted, hstands⟩ := e.cmpAct_spec (c := c) (by rw [hmem]; exact hc) nh nl
    have hfield := fun {α : Type} (f : CmpSt → α) hf => (hstands.cmpS_field f hf).trans (congrArg f hown)
    refine ⟨fun j hj => (hstands.1 j hj).trans (hoth j hj), hfield (·.hiTrip) fun _ _ => rfl, hfield (·.loTrip) fun _ _ => rfl,
      (hstands.2.2 _ (by decide)).trans hout, ?_⟩
    rw [if_pos hact]
    exact halike.acted hacted
  · next hact =>
    refine ⟨hoth, by rw [hown], by rw [hown], hout, ?_⟩
    rw [if_neg fun h => hact (by rw [h.1, h.2]; rfl)]
    exact ⟨hframe, hlat⟩

theorem Dev.cmpTrip_eq (d : Dev) (c : Nat) (uv : Int) : d.cmpTrip c uv =
    if (d.cmpLook c).cmpLive c && !(d.cmpLook c).cmpSampled c && (((d.cmpLook c).cmpSides c uv).1 && !((d.cmpLook c).cmpS c).hiTrip ||
      ((d.cmpLook c).cmpSides c uv).2 && !((d.cmpLook c).cmpS c).loTrip) then (d.cmpLook c).cmpDecide c uv else d.cmpLook c := rfl

theorem Dev.cmpRelease_eq (d : Dev) (c : Nat) (uv : Int) : d.cmpRelease c uv =
    if (d.cmpLook c).cmpLive c && !(d.cmpLook c).cmpSampled c && (!((d.cmpLook c).cmpSides c uv).1 && ((d.cmpLook c).cmpS c).hiTrip ||
      !((d.cmpLook c).cmpSides c uv).2 && ((d.cmpLook c).cmpS c).loTrip) then (d.cmpLook c).cmpDecide c uv else d.cmpLook c := rfl

theorem Dev.cmpLook_member (d : Dev) (c : Nat) : (d.cmpLook c).member = d.member := by
  rw [Dev.cmpLook]
  split
  · next h =>
    have hsync := Dev.cmpBlankSync_trip d.pinLookAll (h.trans_le (nCmp_le _))
    exact (congrArg Dev.member hsync.1 : _).trans d.pinLookAll_member
  · rfl

/-! ### A start -/

theorem Dev.cmpStart_spec (d : Dev) (c : Nat) : FrameOn cmpOnly [R.CMP_STAT c] d (d.cmpStart c) ∧
    (∀ j, j ≠ c → (d.cmpStart c).cmpS j = d.cmpS j) ∧ Started d (d.cmpStart c) c := by
  have hown : (d.cmpStart c).cmpS c = { d.cmpS c with on := true, hiTrip := false, loTrip := false, startAt := d.gtc, relCnt := 0, late := false } := by
    rw [Dev.cmpStart, Dev.cmpShow, Dev.putB, Dev.cmpS_put, Dev.putB, Dev.cmpS_put, Dev.cmpS_setCmp_self]
  have hp := cmpOnly_part
  refine ⟨(((FrameOn.refl hp _ d).setCmpOnly c _).putB hp _ _ (List.mem_singleton_self _)).putB hp _ _ (List.mem_singleton_self _),
    fun j hj => ?_, by rw [hown], by rw [hown], by rw [hown], by rw [hown], by rw [hown], ?_, ?_⟩
  · rw [Dev.cmpStart, Dev.cmpShow, Dev.putB, Dev.cmpS_put, Dev.putB, Dev.cmpS_put, Dev.cmpS_setCmp, if_neg hj]
  · rw [Dev.cmpStarting, Dev.cmpStart, Dev.cmpShow, Dev.putB, Dev.flag_put_field _ _ _ _ (by decide)]
    exact Dev.flag_putB_self _ _ _ true rfl (by decide)
  · rw [Dev.cmpStart, Dev.cmpShow]
    refine (Dev.flag_putB_self _ _ _ _ rfl (by decide)).trans ?_
    rw [Dev.cmpStarting, Dev.flag_putB_self _ _ _ true rfl (by decide)]
    rfl

theorem Dev.cmpAble_of_frame (hl : ∀ a ∈ l, ∃ j < 72, a = R.CMP_STAT j) (h : FrameOn cmpOnly l d e) (k : Nat) : e.cmpAble k = d.cmpAble k := by
  have hm : e.member = d.member := (congrArg Dev.member h.1 :)
  rw [Dev.cmpAble, Dev.cmpAble, hm]
  by_cases hk : k < nCmp d.member
  · have hk72 := hk.trans_le (nCmp_le _)
    have hcfg : e.reg (R.CMP_CFG k) = d.reg (R.CMP_CFG k) := h.reg cmpOnly_part (eventReg_cmp hk72).2.2 fun hx => by
      obtain ⟨j, hj, he⟩ := hl _ hx
      simp only [R.CMP_CFG, R.CMP_STAT] at he
      omega
    have hctrl : e.reg (R.PG_CTRL (Pg.CMP (k / 36))) = d.reg (R.PG_CTRL (Pg.CMP (k / 36))) := by
      refine h.reg cmpOnly_part ?_ fun hx => ?_
      · rw [eventReg_eq_false]
        simp only [R.PG_CTRL, pageBase, Pg.CMP]
        omega
      · obtain ⟨j, hj, he⟩ := hl _ hx
        simp only [R.PG_CTRL, pageBase, Pg.CMP, R.CMP_STAT] at he
        omega
    rw [Dev.pageEn, Dev.pageEn, Dev.flag_of_reg hctrl, Dev.cmpFlag, Dev.cmpFlag, Dev.cmpFlag, Dev.cmpFlag, Dev.cmpFlag, Dev.cmpFlag,
      Dev.flag_of_reg hcfg, Dev.flag_of_reg hcfg, Dev.flag_of_reg hcfg, Dev.get_of_reg hcfg]
  · rw [decide_eq_false hk]
    rfl

/-! ### A recovered supply -/

/-- The status registers of the comparators of a member. -/
def cmpStats (m : Member) : List Nat := (List.range (nCmp m)).map R.CMP_STAT

theorem cmpStats_stat {m : Member} {a : Nat} (h : a ∈ cmpStats m) : ∃ j < 72, a = R.CMP_STAT j := by
  obtain ⟨j, hj, rfl⟩ := List.mem_map.1 h
  exact ⟨j, (List.mem_range.1 hj).trans_le (nCmp_le _), rfl⟩

theorem Started.of_cmpS {f : Dev} (h : Started d e c) (hs : f.cmpS c = e.cmpS c) (hr : f.reg (R.CMP_STAT c) = e.reg (R.CMP_STAT c)) :
    Started d f c := by
  rw [Started, hs, Dev.cmpStarting, Dev.flag_of_reg hr, Dev.flag_of_reg hr]
  exact h

theorem cmpStat_inj {j k : Nat} (hjk : j ≠ k) : R.CMP_STAT j ≠ R.CMP_STAT k := by
  simp only [R.CMP_STAT]
  omega

theorem Dev.cmpStart_stat (d : Dev) {c j : Nat} (hj : j < 72) (hne : j ≠ c) : (d.cmpStart c).reg (R.CMP_STAT j) = d.reg (R.CMP_STAT j) :=
  (d.cmpStart_spec c).1.reg cmpOnly_part (eventReg_cmp hj).1 fun h => cmpStat_inj hne (List.mem_singleton.1 h)

theorem Dev.aDieRecovery_spec (d : Dev) : FrameOn cmpOnly (cmpStats d.member) d d.aDieRecovery ∧ ∀ c < nCmp d.member,
    (d.cmpAble c = true → Started d d.aDieRecovery c) ∧ (d.cmpAble c = false → d.aDieRecovery.cmpS c = d.cmpS c) := by
  have hp := cmpOnly_part
  have hle := nCmp_le d.member
  have hstep : ∀ k < nCmp d.member, ∀ e, FrameOn cmpOnly (cmpStats d.member) d e →
      FrameOn cmpOnly (cmpStats d.member) d (if e.cmpAble k then e.cmpStart k else e) := fun k hk e he => by
    refine FrameOn.ite (fun _ => he.trans hp ?_) fun _ => he
    exact ((e.cmpStart_spec k).1.widen hp hp (fun _ _ => rfl) fun a ha => by
      rw [List.mem_singleton.1 ha]
      exact List.mem_map.2 ⟨k, List.mem_range.2 hk, rfl⟩)
  obtain ⟨⟨hframe, hoff⟩, hon⟩ := forN_each (nCmp d.member)
    (I := fun e : Dev => FrameOn cmpOnly (cmpStats d.member) d e ∧ ∀ c, d.cmpAble c = false → e.cmpS c = d.cmpS c)
    (Q := fun c e => d.cmpAble c = true → Started d e c) (f := fun c e => if e.cmpAble c then e.cmpStart c else e)
    (fun k hk e he => ⟨hstep k hk e he.1, fun c hoff => by
      rw [Dev.cmpAble_of_frame (fun a ha => cmpStats_stat ha) he.1 k]
      split
      · next hon =>
        have hne : c ≠ k := fun h => absurd ((h ▸ hoff).symm.trans hon) Bool.false_ne_true
        exact ((e.cmpStart_spec k).2.1 c hne).trans (he.2 c hoff)
      · exact he.2 c hoff⟩)
    (fun k hk e he hon => by
      have hgtc : e.gtc = d.gtc := (congrArg Dev.gtc he.1.1 :)
      rw [Dev.cmpAble_of_frame (fun a ha => cmpStats_stat ha) he.1 k, if_pos hon, Started, ← hgtc]
      exact (e.cmpStart_spec k).2.2)
    (fun k hk j hj e he hq hon => by
      split
      · exact (hq hon).of_cmpS ((e.cmpStart_spec k).2.1 j (by omega)) (e.cmpStart_stat (by omega) (by omega))
      · exact hq hon)
    ⟨FrameOn.refl hp _ d, fun _ _ => rfl⟩
  exact ⟨hframe, fun c hc => ⟨hon c hc, hoff c⟩⟩

/-! ### Strobes, settings and starts that end -/

theorem Dev.cmpStrobe_due {uv : Int} (hsam : d.cmpSampled c = true) (hon : (d.cmpS c).on = true) (h120 : 120 ≤ d.gtc)
    (hmod : (d.gtc - 120) % d.cmpDiv c = 0) : d.cmpStrobe c uv =
      if !d.cmpStarting c then (d.cmpLook c).cmpDecide c uv
      else if d.frozen (Pg.CMP (c / 36)) then d
      else d.setCmp c { d.cmpS c with relCnt := if d.cmpSafe c uv then (d.cmpS c).relCnt + 1 else 0 } := by
  refine if_pos ?_
  rw [hsam, hon, decide_eq_true h120, hmod]
  rfl

/-- A start that ends shows the sides alone (R144). -/
theorem Dev.startDone_spec (d : Dev) (c : Nat) :
    Frame d ((d.putB (R.CMP_STAT c) F.CMP_STAT_STARTING false).cmpShow c) [R.CMP_STAT c] ∧
      ((d.putB (R.CMP_STAT c) F.CMP_STAT_STARTING false).cmpShow c).cmpStarting c = false ∧
      ((d.putB (R.CMP_STAT c) F.CMP_STAT_STARTING false).cmpShow c).flag (R.CMP_STAT c) F.CMP_STAT_OUT =
        ((d.cmpS c).hiTrip || (d.cmpS c).loTrip) := by
  have hp := noPart_part
  have hstart : (d.putB (R.CMP_STAT c) F.CMP_STAT_STARTING false).cmpStarting c = false := Dev.flag_putB_self _ _ _ false rfl (by decide)
  have hown : (d.putB (R.CMP_STAT c) F.CMP_STAT_STARTING false).cmpS c = d.cmpS c := Dev.cmpS_put _ _ _ _ _
  refine ⟨((FrameOn.refl hp _ d).putB hp _ _ (List.mem_singleton_self _)).putB hp _ _ (List.mem_singleton_self _), ?_, ?_⟩
  · rw [Dev.cmpStarting, Dev.cmpShow, Dev.putB, Dev.flag_put_field _ _ _ _ (by decide)]
    exact hstart
  · rw [Dev.cmpShow, hstart, hown]
    exact Dev.flag_putB_self _ _ _ _ rfl (by decide)

/-- The comparator told that its start is late. -/
def Dev.lateTold (d : Dev) (c : Nat) : Dev :=
  ((d.setCmp c { d.cmpS c with late := true }).putB (R.CMP_STAT c) F.CMP_STAT_START_LATE true).cmpEvent c Ev.CMP_START_LATE

theorem Dev.lateTold_spec (hc : c < nCmp d.member) :
    Frame (d.setCmp c { d.cmpS c with late := true }) (d.lateTold c) [R.CMP_STAT c, R.CMP_FLAG0 (c / 36), R.CMP_FLAG1 (c / 36)] ∧
      (d.lateTold c).flag (R.CMP_STAT c) F.CMP_STAT_START_LATE = true ∧ Raised (d.lateTold c) (Pg.CMP (c / 36)) Ev.CMP_START_LATE := by
  have hp := noPart_part
  refine ⟨FrameOn.cmpEvent hp ((FrameOn.refl hp _ _).putB hp _ _ List.mem_cons_self) (fun a ha => ?_) _, ?_, Dev.cmpEvent_raised _ _ hc⟩
  · simp only [cmpOwn, List.mem_cons, List.not_mem_nil, or_false] at ha ⊢
    tauto
  · rw [Dev.lateTold, Dev.flag_of_reg (Dev.cmpEvent_stat _ _ (hc.trans_le (nCmp_le _)))]
    exact Dev.flag_putB_self _ _ _ true rfl (by decide)

theorem Dev.cmpApplied_spec (hold : (d.cmpS c).old ≠ none) (hlink : d.linkTick d.gtc = d.gtc) :
    FrameOn cmpOnly [R.CMP_STAT c] d (d.cmpApplied c) ∧ (∀ j, j ≠ c → (d.cmpApplied c).cmpS j = d.cmpS j) ∧
      ((d.cmpApplied c).cmpS c).old = none ∧ ((d.cmpApplied c).cmpS c).again = false ∧
      ((d.cmpS c).again = true → d.cmpAble c = true → Started d (d.cmpApplied c) c) ∧
      ((d.cmpS c).again = false → (d.cmpApplied c).cmpS c = { d.cmpS c with old := none, again := false }) := by
  have hset : FrameOn cmpOnly [R.CMP_STAT c] d (d.setCmp c { d.cmpS c with old := none, again := false }) :=
    (FrameOn.refl cmpOnly_part _ d).setCmpOnly c _
  have hown : (d.setCmp c { d.cmpS c with old := none, again := false }).cmpS c = { d.cmpS c with old := none, again := false } :=
    Dev.cmpS_setCmp_self _ _ _
  have hoth : ∀ j, j ≠ c → (d.setCmp c { d.cmpS c with old := none, again := false }).cmpS j = d.cmpS j := fun j hj => by
    rw [Dev.cmpS_setCmp, if_neg hj]
  have heq : d.cmpApplied c = if (d.cmpS c).again && (d.setCmp c { d.cmpS c with old := none, again := false }).cmpAble c then
      (d.setCmp c { d.cmpS c with old := none, again := false }).cmpStart c else d.setCmp c { d.cmpS c with old := none, again := false } := by
    rw [Dev.cmpApplied]
    dsimp only
    rw [if_neg (not_or.2 ⟨hold, fun h => h hlink⟩)]
  have hable : (d.setCmp c { d.cmpS c with old := none, again := false }).cmpAble c = d.cmpAble c := rfl
  rw [heq, hable]
  generalize d.setCmp c { d.cmpS c with old := none, again := false } = e at hset hown hoth
  have hgtc : e.gtc = d.gtc := (congrArg Dev.gtc hset.1 :)
  obtain ⟨hframe, hst, hstarted⟩ := e.cmpStart_spec c
  split
  · next hc =>
    rw [Bool.and_eq_true] at hc
    have hself : (e.cmpStart c).cmpS c = { e.cmpS c with on := true, hiTrip := false, loTrip := false, startAt := e.gtc, relCnt := 0, late := false } := by
      rw [Dev.cmpStart, Dev.cmpShow, Dev.putB, Dev.cmpS_put, Dev.putB, Dev.cmpS_put, Dev.cmpS_setCmp_self]
    refine ⟨hset.trans cmpOnly_part hframe, fun j hj => (hst j hj).trans (hoth j hj), by rw [hself, hown], by rw [hself, hown], fun _ _ => ?_,
      fun h => absurd (h.symm.trans hc.1) Bool.false_ne_true⟩
    rw [Started, ← hgtc]
    exact hstarted
  · next hc =>
    exact ⟨hset, hoth, by rw [hown], by rw [hown], fun h1 h2 => absurd (by rw [h1, h2]; rfl) hc, fun _ => hown⟩

end

/-- Settles O23: the sides a comparator takes, its starts, and the settings that reach the A-die. -/
theorem comparatorDecisions : Obligations.ComparatorDecisions := by
  unfold Obligations.ComparatorDecisions
  refine ⟨fun s c uv hl hc => ⟨fun hlive hsam => ⟨fun hcond => ?_, fun hcond => ?_⟩, fun hsam hon h120 hmod => ⟨fun hst => ?_, fun hst hf => ?_⟩⟩,
    fun s c hl hc => ⟨fun hable hoff => ?_, fun hst hon hf henough => ?_, fun hst hlate hf hlim => ?_, fun x y m hold => ⟨fun hlink => ?_, fun hlink => ?_⟩, ?_⟩⟩
  · have heq : s.dev.cmpTrip c uv = (s.dev.cmpLook c).cmpDecide c uv := by
      rw [Dev.cmpTrip_eq]
      refine if_pos ?_
      simp only [Bool.and_eq_true, Bool.or_eq_true, Bool.not_eq_true']
      exact ⟨⟨hlive, hsam⟩, hcond⟩
    exact ⟨_, onLive_eq hl heq, Dev.cmpDecide_decided _ (by rw [s.dev.cmpLook_member]; exact hc) uv⟩
  · have heq : s.dev.cmpRelease c uv = (s.dev.cmpLook c).cmpDecide c uv := by
      rw [Dev.cmpRelease_eq]
      refine if_pos ?_
      simp only [Bool.and_eq_true, Bool.or_eq_true, Bool.not_eq_true']
      exact ⟨⟨hlive, hsam⟩, hcond⟩
    exact ⟨_, onLive_eq hl heq, Dev.cmpDecide_decided _ (by rw [s.dev.cmpLook_member]; exact hc) uv⟩
  · have heq : s.dev.cmpStrobe c uv = (s.dev.cmpLook c).cmpDecide c uv := by
      rw [Dev.cmpStrobe_due hsam hon h120 hmod, hst]
      rfl
    exact ⟨_, onLive_eq hl heq, Dev.cmpDecide_decided _ (by rw [s.dev.cmpLook_member]; exact hc) uv⟩
  · refine onLive_eq hl ?_
    rw [Dev.cmpStrobe_due hsam hon h120 hmod, hst, hf]
    rfl
  · have heq : s.dev.cmpStartCmd c = s.dev.cmpStart c := if_pos (by rw [hable, hoff]; rfl)
    exact ⟨_, onLive_eq hl heq, s.dev.cmpStart_spec c⟩
  · have heq : s.dev.cmpStartDone c = (s.dev.putB (R.CMP_STAT c) F.CMP_STAT_STARTING false).cmpShow c := by
      refine if_pos ?_
      have hen : (if s.dev.cmpSampled c then decide (s.dev.cmpRelN c ≤ (s.dev.cmpS c).relCnt)
          else decide ((s.dev.cmpS c).startAt + s.dev.cmpRelN c ≤ s.dev.gtc)) = true := by
        split at henough
        · next h => rw [if_pos h]; exact decide_eq_true henough
        · next h => rw [if_neg h]; exact decide_eq_true henough
      rw [hst, hon, hen, hf]
      rfl
    exact ⟨_, onLive_eq hl heq, s.dev.startDone_spec c⟩
  · have heq : s.dev.cmpStartLate c = s.dev.lateTold c := by
      refine if_pos ?_
      rw [hst, hlate, decide_eq_true hlim, hf]
      rfl
    exact ⟨_, onLive_eq hl heq, Dev.lateTold_spec hc⟩
  · exact ⟨_, onLive_eq hl rfl, Dev.cmpApplied_spec (by rw [hold]; exact Option.some_ne_none _) hlink⟩
  · exact onLive_same hl (if_pos (.inr hlink))
  · obtain ⟨hframe, hall⟩ := s.dev.aDieRecovery_spec
    exact ⟨_, onLive_eq hl rfl, hframe, hall c hc⟩

end Sys2Proof.Machine
end

section
/-! PROOFS. Windows of accumulators (R119 to R122), their configuration, and the clear of a tracker (R122, R133). -/

namespace Sys2Proof.Machine

/-! ### Without a speculation nothing watches the windows -/

section
variable {d : Dev} (h : d.NoSpec)
include h

theorem Dev.mapWins_noSpec (c : Nat) (f : PredWin → PredWin) : d.mapWins c f = d := by
  rw [Dev.mapWins, h c]

theorem Dev.mapWinsAll_noSpec (f : PredWin → PredWin) : d.mapWinsAll f = d :=
  forN_keeps (P := fun e => e = d) (nCtx d.member) (fun c _ e he => by rw [he, Dev.mapWins_noSpec h]) rfl

theorem Dev.specTryAll_noSpec : d.specTryAll = d :=
  forN_keeps (P := fun e => e = d) (nCtx d.member) (fun c _ e he => by
    rw [he, h c]
    exact if_neg Bool.false_ne_true) rfl

theorem Dev.specSweep_noSpec : d.specSweep = d := by
  rw [Dev.specSweep, Dev.mapWinsAll_noSpec h, Dev.specTryAll_noSpec h]

end

theorem Dev.NoSpec.of_ctx {d e : Dev} (h : d.NoSpec) (hc : e.ctx = d.ctx) : e.NoSpec := fun c => by
  rw [Dev.ctxS, hc]
  exact h c

/-- What changes accumulators alone leaves the contexts without a speculation. -/
theorem FrameOn.noSpec {d e : Dev} {l : List Nat} (h : FrameOn accPart l d e) (hn : d.NoSpec) : e.NoSpec :=
  hn.of_ctx (congrArg Dev.ctx h.1 :)

/-! ### Windows shown -/

section
variable {d e : Dev} {a : Nat} {l : List Nat}

theorem FrameOn.setAcc (h : FrameOn accPart l d e) (k : Nat) (v : AccSt) : FrameOn accPart l d (e.setAcc k v) :=
  h.part accPart_part rfl fun _ => Dev.reg_setAcc _ _ _ _

theorem FrameOn.accShow (h : FrameOn accPart l d e) (hl : R.ACC_STAT a ∈ l) : FrameOn accPart l d (e.accShow a) :=
  (h.putB accPart_part _ _ hl).putB accPart_part _ _ hl

theorem Dev.accShow_accS (d : Dev) (a j : Nat) : (d.accShow a).accS j = d.accS j := by
  rw [Dev.accShow, Dev.putB, Dev.accS_put, Dev.putB, Dev.accS_put]

theorem Dev.accShow_flags (d : Dev) (a : Nat) : (d.accShow a).flag (R.ACC_STAT a) F.ACC_STAT_OPEN = (d.accS a).cur.isSome ∧
    (d.accShow a).flag (R.ACC_STAT a) F.ACC_STAT_PEND = (d.accS a).pend.isSome := by
  refine ⟨?_, Dev.flag_putB_self _ _ _ _ rfl (by decide)⟩
  rw [Dev.accShow, Dev.putB, Dev.flag_put_field _ _ _ _ (by decide)]
  exact Dev.flag_putB_self _ _ _ _ rfl (by decide)

/-- An accumulator's windows set and shown. -/
def Dev.accSet (d : Dev) (a : Nat) (v : AccSt) : Dev := (d.setAcc a v).accShow a

theorem Dev.accSet_spec (d : Dev) (a : Nat) (v : AccSt) : FrameOn accPart [R.ACC_STAT a] d (d.accSet a v) ∧
    (∀ j, j ≠ a → (d.accSet a v).accS j = d.accS j) ∧ (d.accSet a v).accS a = v ∧
    (d.accSet a v).flag (R.ACC_STAT a) F.ACC_STAT_OPEN = v.cur.isSome ∧ (d.accSet a v).flag (R.ACC_STAT a) F.ACC_STAT_PEND = v.pend.isSome := by
  obtain ⟨ho, hp⟩ := (d.setAcc a v).accShow_flags a
  rw [Dev.accS_setAcc_self] at ho hp
  exact ⟨((FrameOn.refl accPart_part _ d).setAcc a v).accShow (List.mem_singleton_self _),
    fun j hj => by rw [Dev.accSet, Dev.accShow_accS, Dev.accS_setAcc, if_neg hj], by rw [Dev.accSet, Dev.accShow_accS, Dev.accS_setAcc_self], ho, hp⟩

/-! ### The three window actions -/

theorem Dev.accOpen_new (hon : d.accOn a = true) (hc : (d.accS a).cur = none) :
    d.accOpen a = d.accSet a { d.accS a with cur := some { fOpen := d.gtc } } := by
  rw [Dev.accOpen, hon, hc, if_neg (by decide)]
  rfl

theorem Dev.accOpen_open (hc : (d.accS a).cur ≠ none) : d.accOpen a = d := by
  refine if_pos ?_
  rw [Option.isSome_iff_ne_none.2 hc, Bool.or_true]

theorem Dev.accClose_none (hc : (d.accS a).cur = none) : d.accClose a = d := by
  rw [Dev.accClose, hc]
  exact ite_self _

theorem Dev.accClose_waits {w : WinSt} (hon : d.accOn a = true) (hc : (d.accS a).cur = some w) (hp : (d.accS a).pend = none) :
    d.accClose a = d.accSet a { d.accS a with cur := none, pend := some { w with fClose := d.gtc } } := by
  rw [Dev.accClose, hon, hc, hp]
  rfl

theorem Dev.accClose_lost {w : WinSt} (hon : d.accOn a = true) (hc : (d.accS a).cur = some w) (hp : (d.accS a).pend ≠ none) :
    d.accClose a = ((d.accSet a { d.accS a with cur := none }).bump (R.ACC_STAT a) F.ACC_STAT_LOST).accEvent a Ev.ACC_WIN_LOST := by
  rw [Dev.accClose, hon, hc, Option.isSome_iff_ne_none.2 hp]
  rfl

theorem nAcc_le (m : Member) : nAcc m ≤ 384 := by
  cases m <;> decide

theorem eventReg_accStat (ha : a < 384) : eventReg (R.ACC_STAT a) = false := by
  rw [eventReg_eq_false]
  simp only [R.ACC_STAT]
  omega

theorem Dev.accEvent_quiet (d : Dev) (a src : Nat) :
    Quiet (d.orReg (R.ACC_FLAG (a / 64) (a % 64 / 32)) (bitWord (a % 32))) (d.accEvent a src) := Dev.raiseN_quiet _ _ _ _

theorem Dev.accEvent_stat (d : Dev) {a : Nat} (ha : a < 384) (src : Nat) : (d.accEvent a src).reg (R.ACC_STAT a) = d.reg (R.ACC_STAT a) := by
  rw [(d.accEvent_quiet a src).2.1 _ (eventReg_accStat ha)]
  refine d.reg_setReg_ne _ ?_
  simp only [R.ACC_STAT, R.ACC_FLAG]
  omega

theorem Dev.accEvent_accS (d : Dev) (a src j : Nat) : (d.accEvent a src).accS j = d.accS j :=
  ((d.accEvent_quiet a src).accS j).trans (Dev.accS_setReg _ _ _ _)

theorem pagePresent_acc {m : Member} (ha : a < nAcc m) : pagePresent m (Pg.ACC (a / 64)) = true := by
  have hinfo : ∀ p < 6, pageInfo (Pg.ACC p) = some (.accB, p) := by decide
  rw [pagePresent, hinfo _ (by have := nAcc_le m; omega)]
  exact decide_eq_true (by omega)

theorem Dev.accEvent_raised (d : Dev) {a : Nat} (ha : a < nAcc d.member) (src : Nat) : Raised (d.accEvent a src) (Pg.ACC (a / 64)) src :=
  Dev.raiseN_raised _ _ (pagePresent_acc ha)

theorem FrameOn.accEvent {p : Dev → Dev → Dev} (hp : Part p) (h : FrameOn p l d e) (hl : R.ACC_FLAG (a / 64) (a % 64 / 32) ∈ l) (src : Nat) :
    FrameOn p l d (e.accEvent a src) := (h.orReg hp _ hl).quiet hp (Dev.accEvent_quiet _ _ _)

/-- A close over a window that waits (R121). -/
theorem Dev.accClose_lostSpec {w : WinSt} (ha : a < nAcc d.member) (hon : d.accOn a = true) (hc : (d.accS a).cur = some w)
    (hp : (d.accS a).pend ≠ none) : FrameOn accPart [R.ACC_STAT a, R.ACC_FLAG (a / 64) (a % 64 / 32)] d (d.accClose a) ∧
      (∀ j, j ≠ a → (d.accClose a).accS j = d.accS j) ∧ (d.accClose a).flag (R.ACC_STAT a) F.ACC_STAT_OPEN = false ∧
      (d.accClose a).accS a = { d.accS a with cur := none } ∧ Raised (d.accClose a) (Pg.ACC (a / 64)) Ev.ACC_WIN_LOST := by
  have hset := d.accSet_spec a { d.accS a with cur := none }
  rw [Dev.accClose_lost hon hc hp]
  have hmem : (d.accSet a { d.accS a with cur := none }).member = d.member := rfl
  generalize d.accSet a { d.accS a with cur := none } = e at hset hmem
  obtain ⟨hframe, hoth, hown, hopen, -⟩ := hset
  have hap := accPart_part
  refine ⟨FrameOn.accEvent hap (FrameOn.bump hap ?_ _ List.mem_cons_self) (List.mem_cons_of_mem _ (List.mem_singleton_self _)) _,
    fun j hj => ?_, ?_, ?_, Dev.accEvent_raised _ (by rw [← hmem] at ha; exact ha) _⟩
  · exact hframe.widen hap hap (fun _ _ => rfl) fun x hx => by rw [List.mem_singleton.1 hx]; exact List.mem_cons_self
  · rw [Dev.accEvent_accS, Dev.bump, Dev.addSat, Dev.accS_put, hoth j hj]
  · rw [Dev.flag_of_reg (Dev.accEvent_stat _ (ha.trans_le (nAcc_le _)) _), Dev.bump, Dev.addSat, Dev.flag_put_field _ _ _ _ (by decide), hopen]
    rfl
  · rw [Dev.accEvent_accS, Dev.bump, Dev.addSat, Dev.accS_put, hown]

theorem Dev.accOn_of_frame (ha : a < 384) (h : FrameOn accPart [R.ACC_STAT a] d e) : e.accOn a = d.accOn a := by
  have hreg : ∀ {x}, eventReg x = false → x ≠ R.ACC_STAT a → e.reg x = d.reg x := fun hx hne =>
    h.reg accPart_part hx fun hm => hne (List.mem_singleton.1 hm)
  have hm : e.member = d.member := (congrArg Dev.member h.1 :)
  have hctrl : e.reg (R.PG_CTRL (Pg.ACC (a / 64))) = d.reg (R.PG_CTRL (Pg.ACC (a / 64))) := by
    refine hreg ?_ ?_
    · rw [eventReg_eq_false]
      simp only [R.PG_CTRL, pageBase, Pg.ACC]
      omega
    · simp only [R.PG_CTRL, pageBase, Pg.ACC, R.ACC_STAT]
      omega
  have hdbg : e.reg R.DBG_CTRL = d.reg R.DBG_CTRL := hreg (by decide) (by simp only [R.DBG_CTRL, R.ACC_STAT]; omega)
  have hcfg : e.reg (R.ACC_CFG a) = d.reg (R.ACC_CFG a) := by
    refine hreg ?_ ?_
    · rw [eventReg_eq_false]
      simp only [R.ACC_CFG]
      omega
    · simp only [R.ACC_CFG, R.ACC_STAT]
      omega
  rw [Dev.accOn, Dev.accOn, hm, Dev.pageEn, Dev.pageEn, Dev.frozen, Dev.frozen, Dev.flag_of_reg hctrl, Dev.flag_of_reg hctrl, Dev.flag_of_reg hdbg,
    Dev.accMode, Dev.accMode, Dev.get_of_reg hcfg]

/-- A window closed to wait for its commit, and the next opened (R119). -/
theorem Dev.accSwap_spec {w : WinSt} (ha : a < 384) (hon : d.accOn a = true) (hc : (d.accS a).cur = some w) (hp : (d.accS a).pend = none) :
    FrameOn accPart [R.ACC_STAT a] d (d.accSwap a) ∧ (∀ j, j ≠ a → (d.accSwap a).accS j = d.accS j) ∧
      (d.accSwap a).accS a = { d.accS a with cur := some { fOpen := d.gtc }, pend := some { w with fClose := d.gtc } } := by
  have hset := d.accSet_spec a { d.accS a with cur := none, pend := some { w with fClose := d.gtc } }
  rw [← Dev.accClose_waits hon hc hp] at hset
  rw [Dev.accSwap]
  generalize d.accClose a = e at hset
  obtain ⟨hframe, hoth, hown, -, -⟩ := hset
  have hgtc : e.gtc = d.gtc := (congrArg Dev.gtc hframe.1 :)
  rw [Dev.accOpen_new ((Dev.accOn_of_frame ha hframe).trans hon) (by rw [hown])]
  obtain ⟨kframe, koth, kown, -, -⟩ := e.accSet_spec a { e.accS a with cur := some { fOpen := e.gtc } }
  exact ⟨hframe.trans accPart_part kframe, fun j hj => (koth j hj).trans (hoth j hj), by rw [kown, hown, hgtc]⟩

end

/-! ### Configuration words -/

/-- The configuration registers of an accumulator store alone, in CONFIGURE. -/
theorem regAt_accCfg : ∀ j < 64, ∀ k < 4, (regAt .accB (0x100 + 0x20 * j + 4 * k)).any (fun x => x.1.flds.all fun f => decide (f.acc = .rwc)) = true := by
  decide

section
variable {d : Dev} {a k : Nat} (ha : a < nAcc d.member) (hk : k < 4)
include ha hk

theorem placed_accCfg : Placed d (R.ACC_CFG a + 4 * k) .accB (a / 64) (0x100 + 0x20 * (a % 64) + 4 * k) := by
  have h384 := ha.trans_le (nAcc_le _)
  have hpage : pageOf (R.ACC_CFG a + 4 * k) = Pg.ACC (a / 64) := by simp only [R.ACC_CFG, pageOf, Pg.ACC]; omega
  have hinfo : ∀ p < 6, pageInfo (Pg.ACC p) = some (.accB, p) := by decide
  exact ⟨by rw [hpage]; exact hinfo _ (by omega), by simp only [R.ACC_CFG, offOf]; omega, decide_eq_true (by omega), rfl, by omega⟩

theorem Dev.unitWrite_accCfg (hlive : d.replaying = false) (mid : Nat) (w : Word) :
    d.unitWrite 384 a mid (R.ACC_CFG a + 4 * k) w = (d.accConfigWrite mid a k w).specSweep := by
  have h384 := ha.trans_le (nAcc_le _)
  rw [Dev.unitWrite_in d h384, Dev.pWrite_placed_eq (placed_accCfg ha hk) hlive rfl]
  have hdiv : 64 * (a / 64) + (0x100 + 0x20 * (a % 64) + 4 * k - 0x100) / 0x20 = a := by omega
  have hmod : (0x100 + 0x20 * (a % 64) + 4 * k - 0x100) % 0x20 / 4 = k := by omega
  have hroute : d.routeWrite mid .accB (a / 64) (0x100 + 0x20 * (a % 64) + 4 * k) (R.ACC_CFG a + 4 * k) w =
    d.accPageWrite mid (a / 64) (0x100 + 0x20 * (a % 64) + 4 * k) (R.ACC_CFG a + 4 * k) w := rfl
  rw [hroute, Dev.accPageWrite, if_neg (by omega), if_pos (by omega), hdiv, hmod]

/-- A configuration word taken: its fields stored, the windows abandoned. -/
theorem Dev.accConfigWrite_taken {mid : Nat} (ht : d.takenAt mid (R.ACC_CFG a + 4 * k) = true) (w : Word) {rd : RegDef} {i x : Nat}
    (hr : regAt .accB (0x100 + 0x20 * (a % 64) + 4 * k) = some (rd, i, x)) (hall : ∀ fd ∈ rd.flds, fd.acc = .rwc) :
    d.accConfigWrite mid a k w = (d.setReg (R.ACC_CFG a + 4 * k)
      (takeAll rd.flds (if k = 1 then wordOfInt (sext 20 w.toNat) else w) (d.reg (R.ACC_CFG a + 4 * k)))).accAbandon a := by
  have h384 := ha.trans_le (nAcc_le _)
  have hin : inRegs (R.ACC_CFG a + 4 * k) = true := inRegs_iff.2 (by simp only [R.ACC_CFG]; omega)
  have hplain : ∀ v, d.plainWrite mid (R.ACC_CFG a + 4 * k) v =
      d.setReg (R.ACC_CFG a + 4 * k) (takeAll rd.flds v (d.reg (R.ACC_CFG a + 4 * k))) := fun v =>
    Dev.plainWrite_takenAt (placed_accCfg ha hk) hin hr (acc := .rwc) (fun fd hfd => ⟨hall fd hfd, rfl⟩) ht BitVec.and_zero
  rw [Dev.accConfigWrite, ht, if_pos rfl, Dev.mantWrite, ht, if_pos rfl, hplain, hplain]
  split <;> rfl

theorem Dev.accCfg_spec (hns : d.NoSpec) (hlive : d.replaying = false) {mid : Nat} (ht : d.takenAt mid (R.ACC_CFG a + 4 * k) = true) (w : Word) :
    d.unitWrite 384 a mid (R.ACC_CFG a + 4 * k) w = d.accConfigWrite mid a k w ∧
    FrameOn accPart [R.ACC_CFG a + 4 * k, R.ACC_STAT a] d (d.accConfigWrite mid a k w) ∧
    (∀ j, j ≠ a → (d.accConfigWrite mid a k w).accS j = d.accS j) ∧
    (d.accConfigWrite mid a k w).accS a = { d.accS a with cur := none, pend := none } ∧
    (d.accConfigWrite mid a k w).flag (R.ACC_STAT a) F.ACC_STAT_OPEN = false ∧
    (d.accConfigWrite mid a k w).flag (R.ACC_STAT a) F.ACC_STAT_PEND = false ∧
    ∀ rd i x, regAt .accB (offOf (R.ACC_CFG a + 4 * k)) = some (rd, i, x) → ∀ f ∈ rd.flds,
      (d.accConfigWrite mid a k w).get (R.ACC_CFG a + 4 * k) f.f = getF (if k = 1 then wordOfInt (sext 20 w.toNat) else w) f.f := by
  have h384 := ha.trans_le (nAcc_le _)
  have hat := regAt_accCfg (a % 64) (Nat.mod_lt _ (by decide)) k hk
  cases hr : regAt .accB (0x100 + 0x20 * (a % 64) + 4 * k) with
  | none =>
    rw [hr] at hat
    cases hat
  | some z =>
    obtain ⟨rd, i, x⟩ := z
    rw [hr] at hat
    have hall : ∀ fd ∈ rd.flds, fd.acc = .rwc := fun fd hfd => of_decide_eq_true (List.all_eq_true.1 hat fd hfd)
    have heq := Dev.accConfigWrite_taken ha hk ht w hr hall
    have hoff : offOf (R.ACC_CFG a + 4 * k) = 0x100 + 0x20 * (a % 64) + 4 * k := (placed_accCfg ha hk).offset
    rw [Dev.unitWrite_accCfg ha hk hlive, heq, hoff, hr]
    generalize hv : (if k = 1 then wordOfInt (sext 20 w.toNat) else w) = v
    have h0 : FrameOn accPart [R.ACC_CFG a + 4 * k, R.ACC_STAT a] d
        (d.setReg (R.ACC_CFG a + 4 * k) (takeAll rd.flds v (d.reg (R.ACC_CFG a + 4 * k)))) :=
      (FrameOn.refl accPart_part _ d).setReg accPart_part _ List.mem_cons_self
    have hself : (d.setReg (R.ACC_CFG a + 4 * k) (takeAll rd.flds v (d.reg (R.ACC_CFG a + 4 * k)))).reg (R.ACC_CFG a + 4 * k) =
      takeAll rd.flds v (d.reg (R.ACC_CFG a + 4 * k)) := Dev.reg_setReg_self _ _ _
    have hacc : ∀ j, (d.setReg (R.ACC_CFG a + 4 * k) (takeAll rd.flds v (d.reg (R.ACC_CFG a + 4 * k)))).accS j = d.accS j := fun j =>
      Dev.accS_setReg _ _ _ _
    generalize d.setReg (R.ACC_CFG a + 4 * k) (takeAll rd.flds v (d.reg (R.ACC_CFG a + 4 * k))) = e at h0 hself hacc
    obtain ⟨kframe, koth, kown, kopen, kpend⟩ := e.accSet_spec a { e.accS a with cur := none, pend := none }
    have hframe : FrameOn accPart [R.ACC_CFG a + 4 * k, R.ACC_STAT a] d (e.accAbandon a) :=
      h0.trans accPart_part (kframe.widen accPart_part accPart_part (fun _ _ => rfl) fun y hy => by
        rw [List.mem_singleton.1 hy]
        exact List.mem_cons_of_mem _ (List.mem_singleton_self _))
    refine ⟨Dev.specSweep_noSpec (hframe.noSpec hns), hframe, fun j hj => (koth j hj).trans (hacc j), ?_, kopen, kpend,
      fun rd' i' x' h f hf => ?_⟩
    · exact kown.trans (by rw [hacc])
    · obtain ⟨rfl, -⟩ := Prod.mk.inj (Option.some.inj h)
      have hne : R.ACC_CFG a + 4 * k ≠ R.ACC_STAT a := by
        simp only [R.ACC_CFG, R.ACC_STAT]
        omega
      have hreg : (e.accAbandon a).reg (R.ACC_CFG a + 4 * k) = e.reg (R.ACC_CFG a + 4 * k) :=
        kframe.reg accPart_part (by rw [eventReg_eq_false]; simp only [R.ACC_CFG]; omega) fun hm => hne (List.mem_singleton.1 hm)
      rw [Dev.get, hreg, hself]
      exact getF_takeAll (regAt_apart (by decide) hr) hf (.inr (.inl (hall f hf))) v _

end

/-! ### The clear of a tracker -/

/-- The fields of MMX_STAT. -/
def mmxStatFields : List FieldDef :=
  [⟨F.MMX_STAT_CLR, .wo, 0⟩, ⟨F.MMX_STAT_LO_HIT, .w1c, 0⟩, ⟨F.MMX_STAT_HI_HIT, .w1c, 0⟩, ⟨F.MMX_STAT_EMPTY, .ro, 1⟩, ⟨F.MMX_STAT_SAT, .ro, 0⟩]

theorem regAt_mmxStat : ∀ j < 64, regAt .mmxB (0x10C + 0x20 * j) = some (⟨0x10C, 0x20, 64, 0, 1, mmxStatFields⟩, j, 0) := by decide

theorem nMmx_le (m : Member) : nMmx m ≤ 128 := by
  cases m <;> decide

section
variable {d : Dev} {t : Nat} (ht : t < nMmx d.member)
include ht

theorem placed_mmxStat : Placed d (R.MMX_STAT t) .mmxB (t / 64) (0x10C + 0x20 * (t % 64)) := by
  have h128 := ht.trans_le (nMmx_le _)
  have hpage : pageOf (R.MMX_STAT t) = 0x38 + t / 64 := by simp only [R.MMX_STAT, pageOf]; omega
  have hinfo : ∀ p < 2, pageInfo (0x38 + p) = some (.mmxB, p) := by decide
  refine ⟨by rw [hpage]; exact hinfo _ (by omega), by simp only [R.MMX_STAT, offOf]; omega, decide_eq_true (by omega), ?_, by omega⟩
  simp only [absentReg, Bool.and_eq_false_iff, decide_eq_false_iff_not]
  omega

/-- CLR by a write that takes it: the values zero, EMPTY set, the rest of the status as it was (R133). -/
theorem Dev.unitWrite_mmxClear (hlive : d.replaying = false) {mid : Nat} (htake : d.takenAt mid (R.MMX_STAT t) = true) :
    d.unitWrite 128 t mid (R.MMX_STAT t) 0x80000000 = (d.setReg (R.MMX_STAT t) (d.reg (R.MMX_STAT t))).mmxClear t := by
  have h128 := ht.trans_le (nMmx_le _)
  have hin : inRegs (R.MMX_STAT t) = true := inRegs_iff.2 (by simp only [R.MMX_STAT]; omega)
  rw [Dev.unitWrite_in d h128, Dev.pWrite_placed_eq (placed_mmxStat ht) hlive rfl]
  have hdiv : 64 * (t / 64) + (0x10C + 0x20 * (t % 64) - 0x100) / 0x20 = t := by omega
  have hmod : (0x10C + 0x20 * (t % 64) - 0x100) % 0x20 = 0xC := by omega
  have hroute : d.routeWrite mid .mmxB (t / 64) (0x10C + 0x20 * (t % 64)) (R.MMX_STAT t) 0x80000000 =
    d.mmxPageWrite mid (t / 64) (0x10C + 0x20 * (t % 64)) (R.MMX_STAT t) 0x80000000 := rfl
  have hplain : d.plainWrite mid (R.MMX_STAT t) 0x80000000 = d.setReg (R.MMX_STAT t) (d.reg (R.MMX_STAT t)) := by
    refine Dev.plainWrite_idle (placed_mmxStat ht) hin (regAt_mmxStat _ (Nat.mod_lt _ (by decide))) (by decide) (fun _ _ => rfl) htake ?_
    simp only [absentBits]
    rw [if_neg (by omega)]
    exact BitVec.and_zero
  rw [hroute, Dev.mmxPageWrite, if_neg (by omega), hdiv, hmod, if_neg (by decide), if_pos rfl, Dev.mmxStatWrite, hplain, htake, if_pos (by decide)]

end

theorem Dev.mmxClear_spec (d : Dev) {t : Nat} : FrameOn noPart [R.MMX_MIN t, R.MMX_MAX t, R.MMX_STAT t] d (d.mmxClear t) ∧
    (d.mmxClear t).reg (R.MMX_MIN t) = 0 ∧ (d.mmxClear t).reg (R.MMX_MAX t) = 0 ∧
    (d.mmxClear t).flag (R.MMX_STAT t) F.MMX_STAT_EMPTY = true ∧
    ∀ f ∈ [F.MMX_STAT_HI_HIT, F.MMX_STAT_LO_HIT, F.MMX_STAT_SAT], (d.mmxClear t).get (R.MMX_STAT t) f = d.get (R.MMX_STAT t) f := by
  have hp := noPart_part
  have hmax : R.MMX_MAX t ≠ R.MMX_STAT t ∧ R.MMX_MIN t ≠ R.MMX_STAT t ∧ R.MMX_MIN t ≠ R.MMX_MAX t := by
    simp only [R.MMX_MAX, R.MMX_STAT, R.MMX_MIN]
    omega
  obtain ⟨hxs, hns, hnx⟩ := hmax
  refine ⟨(((FrameOn.refl hp _ d).setReg hp _ (by simp)).setReg hp _ (by simp)).putB hp _ _ (by simp), ?_, ?_,
    Dev.flag_putB_self _ _ _ true rfl (by decide), fun f hf => ?_⟩
  · rw [Dev.mmxClear, Dev.putB, Dev.reg_put_ne _ _ _ hns, Dev.reg_setReg_ne _ _ hnx, Dev.reg_setReg_self]
  · rw [Dev.mmxClear, Dev.putB, Dev.reg_put_ne _ _ _ hxs, Dev.reg_setReg_self]
  · have hap : F.MMX_STAT_EMPTY.lo + fieldWidth F.MMX_STAT_EMPTY ≤ f.lo ∨ f.lo + fieldWidth f ≤ F.MMX_STAT_EMPTY.lo := by
      revert f
      decide
    rw [Dev.mmxClear, Dev.putB, Dev.get_put_field _ _ _ _ _ _ hap]
    refine Dev.get_of_reg ?_ f
    rw [Dev.reg_setReg_ne _ _ hxs.symm, Dev.reg_setReg_ne _ _ hns.symm]

/-- Settles O21: the window actions, a configuration word, and the clear of a tracker. -/
theorem accumulatorWindows : Obligations.AccumulatorWindows := by
  unfold Obligations.AccumulatorWindows
  refine ⟨fun s n r d hl hns hspan htarget hon => ?_, fun s mid hl hns => ⟨fun a k w ha hk ht => ?_, fun t ht htake => ?_⟩⟩
  · have hrun : ∀ code f, s.dev.takeFiring n code = some (r, d) →
        s.dev.runAction n code 384 (fun a => decide (a < nAcc s.dev.member)) f = f r.target d := fun code f ht =>
      Dev.runAction_one ht hspan (htarget.trans_le (nAcc_le _)) (by rw [← s.dev.takeFiring_member ht]; exact decide_eq_true htarget)
    have hrpl : ∀ {code}, s.dev.takeFiring n code = some (r, d) → d.replaying = false := fun ht => by
      rw [Dev.takeFiring_eq ht]
      exact hl.2
    refine ⟨fun ht => ⟨fun hc => ?_, fun hc => ?_⟩, fun ht => ⟨fun hc => ?_, fun w hc => ?_⟩, fun ht w hc hp => ?_⟩
    · have heq : s.dev.runAction n 1 384 (fun a => decide (a < nAcc s.dev.member)) (fun a e => e.accOpenAct a) =
          d.accSet r.target { d.accS r.target with cur := some { fOpen := d.gtc } } := by
        rw [hrun 1 _ ht, Dev.accOpenAct, hrpl ht, if_neg Bool.false_ne_true, Dev.accOpen_new hon hc]
      obtain ⟨hframe, hoth, hown, hopen, -⟩ := d.accSet_spec r.target { d.accS r.target with cur := some { fOpen := d.gtc } }
      exact ⟨_, onPart_eq hl heq, hframe, hoth, hown, hopen⟩
    · refine onPart_eq hl ?_
      rw [hrun 1 _ ht, Dev.accOpenAct, hrpl ht, if_neg Bool.false_ne_true, Dev.accOpen_open hc]
    · refine ⟨d, onPart_eq hl ?_, Quiet.refl d⟩
      rw [hrun 2 _ ht, Dev.accCloseAct, hrpl ht, if_neg Bool.false_ne_true, Dev.accClose_none hc, Dev.specSweep_noSpec hns]
    · have heq : ∀ {l}, FrameOn accPart l d (d.accClose r.target) →
          (s.dev.runAction n 2 384 (fun a => decide (a < nAcc s.dev.member)) (fun a e => e.accCloseAct a)).specSweep = d.accClose r.target := by
        intro l hf
        rw [hrun 2 _ ht, Dev.accCloseAct, hrpl ht, if_neg Bool.false_ne_true,
          Dev.specSweep_noSpec (hf.noSpec hns)]
      cases hp : (d.accS r.target).pend with
      | none =>
        have hset := d.accSet_spec r.target { d.accS r.target with cur := none, pend := some { w with fClose := d.gtc } }
        rw [← Dev.accClose_waits hon hc hp] at hset
        obtain ⟨hframe, hoth, hown, hopen, hpend⟩ := hset
        refine ⟨_, onPart_eq hl (heq hframe), Frame.mono hframe (fun x hx => ?_), hoth, hopen, fun _ => ⟨hown, hpend⟩, fun h => absurd rfl h⟩
        rw [List.mem_singleton.1 hx]
        exact List.mem_cons_self
      | some v =>
        have hne : (d.accS r.target).pend ≠ none := by rw [hp]; exact Option.some_ne_none v
        obtain ⟨hframe, hoth, hopen, hown, hraised⟩ := Dev.accClose_lostSpec htarget hon hc hne
        exact ⟨_, onPart_eq hl (heq hframe), hframe, hoth, hopen, fun h => absurd h (Option.some_ne_none v),
          fun _ => ⟨hown.trans (by rw [← hp]), hraised⟩⟩
    · have hswap := Dev.accSwap_spec (htarget.trans_le (nAcc_le _)) hon hc hp
      obtain ⟨hframe, hoth, hown⟩ := hswap
      refine ⟨_, onPart_eq hl ?_, hframe, hoth, hown⟩
      rw [hrun 3 _ ht, Dev.accSwapAct, hrpl ht, if_neg Bool.false_ne_true]
      exact Dev.specSweep_noSpec (hframe.noSpec hns)
  · obtain ⟨heq, hframe, hoth, hown, hopen, hpend, hflds⟩ := Dev.accCfg_spec ha hk hns hl.2 ht w
    have hexec : (if k < 4 then s.dev.unitWrite 384 a mid (R.ACC_CFG a + 4 * k) w else s.dev) = (s.dev.accConfigWrite mid a k w) :=
      (if_pos hk).trans heq
    exact ⟨_, onDev_eq hl.1 hexec, hframe, hoth, hown, hopen, hpend, hflds⟩
  · have heq := Dev.unitWrite_mmxClear ht hl.2 htake
    have hsame : FrameOn noPart [R.MMX_MIN t, R.MMX_MAX t, R.MMX_STAT t] s.dev (s.dev.setReg (R.MMX_STAT t) (s.dev.reg (R.MMX_STAT t))) :=
      (FrameOn.refl noPart_part _ _).setReg noPart_part _ (by simp)
    obtain ⟨hframe, hmin, hmax, hempty, hrest⟩ := (s.dev.setReg (R.MMX_STAT t) (s.dev.reg (R.MMX_STAT t))).mmxClear_spec (t := t)
    exact ⟨_, onDev_eq hl.1 heq, hsame.trans noPart_part hframe, hmin, hmax, hempty, fun f hf =>
      (hrest f hf).trans (Dev.get_of_reg (Dev.reg_setReg_self _ _ _) f)⟩

end Sys2Proof.Machine
end

section
/-! PROOFS. The commit of an accumulator's window (R120, R123, R125 to R127, R132, R135). -/

namespace Sys2Proof.Machine

/-! ### The results written -/

/-- An accumulator's record at the commit of a window. -/
def Dev.accCommitted (d : Dev) (a : Nat) (w : WinSt) : AccSt :=
  { d.accS a with pend := none, cAt := d.gtc + 1, cOpen := w.fOpen, cClose := w.fClose, n := (d.accS a).n + 1 }

/-- The results and the count written. -/
def Dev.resWritten (d : Dev) (a : Nat) (r0 r1 : Int) (n : Nat) : Dev :=
  let d := (d.setReg (R.ACC_RES0 a) (wordMant r0)).setReg (R.ACC_RES1 a) (wordMant r1)
  let d := d.put (R.ACC_CNT a) F.ACC_CNT_SEQ ((d.get (R.ACC_CNT a) F.ACC_CNT_SEQ + 1) % 256)
  d.put (R.ACC_CNT a) F.ACC_CNT_N n

/-- The status bits of a commit written. -/
def Dev.bitsWritten (d : Dev) (a : Nat) (sat0 sat1 empty short ovf : Bool) : Dev :=
  let st := R.ACC_STAT a
  let d := (d.putB st F.ACC_STAT_SAT0 sat0).putB st F.ACC_STAT_SAT1 sat1
  ((d.putB st F.ACC_STAT_EMPTY empty).putB st F.ACC_STAT_SHORT short).putB st F.ACC_STAT_OVF ovf

/-- The events of a commit. -/
def Dev.commitTold (d : Dev) (a : Nat) (sat empty short ovf : Bool) : Dev :=
  (((d.accEventIf sat a Ev.ACC_SAT).accEventIf empty a Ev.ACC_EMPTY).accEventIf short a Ev.ACC_SHORT).accEventIf ovf a Ev.ACC_OVF

/-- Whether a window has fewer members than NMIN asks for. -/
def Dev.winShort (d : Dev) (a : Nat) (w : WinSt) : Bool := decide (0 < w.n) && decide (w.n < d.get (R.ACC_CFG a) F.ACC_CFG_NMIN)

theorem Dev.accCommit_eq (d : Dev) (a : Nat) (w : WinSt) : d.accCommit a w =
    ((((((d.accSet a (d.accCommitted a w)).resWritten a (d.accResults a w).1.1 (d.accResults a w).2.1 w.n).bitsWritten a
      (d.accResults a w).1.2 (d.accResults a w).2.2 (w.n == 0) (d.winShort a w) w.ovf)).mmxCommits a w).commitTold a
      ((d.accResults a w).1.2 || (d.accResults a w).2.2) (w.n == 0) (d.winShort a w) w.ovf) := rfl

/-- The registers of a commit's own. -/
def accOwn (a : Nat) : List Nat := [R.ACC_RES0 a, R.ACC_RES1 a, R.ACC_CNT a, R.ACC_STAT a]

section
variable {d : Dev} {a : Nat}

theorem accOwn_ne (a : Nat) : R.ACC_RES0 a ≠ R.ACC_RES1 a ∧ R.ACC_RES0 a ≠ R.ACC_CNT a ∧ R.ACC_RES1 a ≠ R.ACC_CNT a ∧
    R.ACC_RES0 a ≠ R.ACC_STAT a ∧ R.ACC_RES1 a ≠ R.ACC_STAT a ∧ R.ACC_CNT a ≠ R.ACC_STAT a := by
  simp only [R.ACC_RES0, R.ACC_RES1, R.ACC_CNT, R.ACC_STAT]
  omega

theorem Dev.resWritten_spec (d : Dev) (a : Nat) (r0 r1 : Int) (n : Nat) : FrameOn noPart (accOwn a) d (d.resWritten a r0 r1 n) ∧
    (d.resWritten a r0 r1 n).reg (R.ACC_RES0 a) = wordMant r0 ∧ (d.resWritten a r0 r1 n).reg (R.ACC_RES1 a) = wordMant r1 ∧
    (d.resWritten a r0 r1 n).get (R.ACC_CNT a) F.ACC_CNT_SEQ = (d.get (R.ACC_CNT a) F.ACC_CNT_SEQ + 1) % 256 ∧
    (n < 2 ^ 24 → (d.resWritten a r0 r1 n).get (R.ACC_CNT a) F.ACC_CNT_N = n) ∧
    (d.resWritten a r0 r1 n).reg (R.ACC_STAT a) = d.reg (R.ACC_STAT a) := by
  have hp := noPart_part
  obtain ⟨h01, h0c, h1c, h0s, h1s, hcs⟩ := accOwn_ne a
  refine ⟨((((FrameOn.refl hp _ d).setReg hp _ ?_).setReg hp _ ?_).put hp _ _ ?_).put hp _ _ ?_, ?_, ?_, ?_, fun hn => ?_, ?_⟩
  · simp [accOwn]
  · simp [accOwn]
  · simp [accOwn]
  · simp [accOwn]
  · rw [Dev.resWritten, Dev.reg_put_ne _ _ _ h0c, Dev.reg_put_ne _ _ _ h0c, Dev.reg_setReg_ne _ _ h01, Dev.reg_setReg_self]
  · rw [Dev.resWritten, Dev.reg_put_ne _ _ _ h1c, Dev.reg_put_ne _ _ _ h1c, Dev.reg_setReg_self]
  · have hsame : ((d.setReg (R.ACC_RES0 a) (wordMant r0)).setReg (R.ACC_RES1 a) (wordMant r1)).reg (R.ACC_CNT a) = d.reg (R.ACC_CNT a) := by
      rw [Dev.reg_setReg_ne _ _ h1c.symm, Dev.reg_setReg_ne _ _ h0c.symm]
    rw [Dev.resWritten, Dev.get_put_field _ _ _ _ _ _ (by decide), Dev.get_put_self _ _ _ _ (by decide), Dev.get_of_reg hsame]
    exact Nat.mod_eq_of_lt (by have hw : fieldWidth F.ACC_CNT_SEQ = 8 := rfl
                               rw [hw]
                               omega)
  · rw [Dev.resWritten, Dev.get_put_self _ _ _ _ (by decide)]
    exact Nat.mod_eq_of_lt hn
  · rw [Dev.resWritten, Dev.reg_put_ne _ _ _ hcs.symm, Dev.reg_put_ne _ _ _ hcs.symm, Dev.reg_setReg_ne _ _ h1s.symm, Dev.reg_setReg_ne _ _ h0s.symm]

theorem Dev.bitsWritten_spec (d : Dev) (a : Nat) (sat0 sat1 empty short ovf : Bool) :
    FrameOn noPart [R.ACC_STAT a] d (d.bitsWritten a sat0 sat1 empty short ovf) ∧
    (d.bitsWritten a sat0 sat1 empty short ovf).flag (R.ACC_STAT a) F.ACC_STAT_PEND = d.flag (R.ACC_STAT a) F.ACC_STAT_PEND ∧
    (d.bitsWritten a sat0 sat1 empty short ovf).flag (R.ACC_STAT a) F.ACC_STAT_EMPTY = empty ∧
    (d.bitsWritten a sat0 sat1 empty short ovf).flag (R.ACC_STAT a) F.ACC_STAT_SHORT = short ∧
    (d.bitsWritten a sat0 sat1 empty short ovf).flag (R.ACC_STAT a) F.ACC_STAT_OVF = ovf ∧
    (d.bitsWritten a sat0 sat1 empty short ovf).flag (R.ACC_STAT a) F.ACC_STAT_SAT0 = sat0 ∧
    (d.bitsWritten a sat0 sat1 empty short ovf).flag (R.ACC_STAT a) F.ACC_STAT_SAT1 = sat1 := by
  have hp := noPart_part
  have hm : R.ACC_STAT a ∈ [R.ACC_STAT a] := List.mem_singleton_self _
  have hset : ∀ (e : Dev) (f : RField) (b : Bool), fieldWidth f = 1 → f.lo < 32 → (e.put (R.ACC_STAT a) f (b2n b)).flag (R.ACC_STAT a) f = b :=
    fun e f b h1 h2 => e.flag_putB_self _ _ b h1 h2
  refine ⟨((((((FrameOn.refl hp _ d).putB hp _ _ hm).putB hp _ _ hm).putB hp _ _ hm).putB hp _ _ hm).putB hp _ _ hm), ?_, ?_, ?_, ?_, ?_, ?_⟩ <;>
    rw [Dev.bitsWritten] <;> simp (disch := decide) only [Dev.putB, Dev.flag_put_field, hset]

/-! ### Events and trackers -/

theorem Dev.accEventIf_frame (d : Dev) (c : Bool) (a src : Nat) :
    FrameOn noPart [R.ACC_FLAG (a / 64) (a % 64 / 32)] d (d.accEventIf c a src) := by
  have h0 := FrameOn.refl noPart_part [R.ACC_FLAG (a / 64) (a % 64 / 32)] d
  exact FrameOn.ite (fun _ => h0.accEvent noPart_part (List.mem_singleton_self _) src) fun _ => h0

theorem Dev.accEventIf_raised (d : Dev) (ha : a < nAcc d.member) (src : Nat) {c : Bool} (hc : c = true) :
    Raised (d.accEventIf c a src) (Pg.ACC (a / 64)) src := by
  rw [Dev.accEventIf, if_pos hc]
  exact d.accEvent_raised ha src

theorem accFlag_not_raw (a p : Nat) : R.PG_EVT_RAW p ∉ [R.ACC_FLAG (a / 64) (a % 64 / 32)] := by
  simp only [List.mem_singleton, R.PG_EVT_RAW, pageBase, R.ACC_FLAG]
  omega

theorem Dev.commitTold_spec (d : Dev) (ha : a < nAcc d.member) (sat empty short ovf : Bool) :
    FrameOn noPart [R.ACC_FLAG (a / 64) (a % 64 / 32)] d (d.commitTold a sat empty short ovf) ∧
    (empty = true → Raised (d.commitTold a sat empty short ovf) (Pg.ACC (a / 64)) Ev.ACC_EMPTY) ∧
    (short = true → Raised (d.commitTold a sat empty short ovf) (Pg.ACC (a / 64)) Ev.ACC_SHORT) ∧
    (ovf = true → Raised (d.commitTold a sat empty short ovf) (Pg.ACC (a / 64)) Ev.ACC_OVF) ∧
    (sat = true → Raised (d.commitTold a sat empty short ovf) (Pg.ACC (a / 64)) Ev.ACC_SAT) := by
  have hp := noPart_part
  have hraw := accFlag_not_raw a (Pg.ACC (a / 64))
  have hf1 := d.accEventIf_frame sat a Ev.ACC_SAT
  have hr1 := fun hc => d.accEventIf_raised ha Ev.ACC_SAT (c := sat) hc
  rw [Dev.commitTold]
  generalize d.accEventIf sat a Ev.ACC_SAT = d1 at hf1 hr1
  have hm1 : d1.member = d.member := (congrArg Dev.member hf1.1 :)
  have hf2 := d1.accEventIf_frame empty a Ev.ACC_EMPTY
  have hr2 := fun hc => d1.accEventIf_raised (hm1 ▸ ha) Ev.ACC_EMPTY (c := empty) hc
  generalize d1.accEventIf empty a Ev.ACC_EMPTY = d2 at hf2 hr2
  have hm2 : d2.member = d.member := (congrArg Dev.member hf2.1 :).trans hm1
  have hf3 := d2.accEventIf_frame short a Ev.ACC_SHORT
  have hr3 := fun hc => d2.accEventIf_raised (hm2 ▸ ha) Ev.ACC_SHORT (c := short) hc
  generalize d2.accEventIf short a Ev.ACC_SHORT = d3 at hf3 hr3
  have hm3 : d3.member = d.member := (congrArg Dev.member hf3.1 :).trans hm2
  have hf4 := d3.accEventIf_frame ovf a Ev.ACC_OVF
  exact ⟨((hf1.trans hp hf2).trans hp hf3).trans hp hf4, fun hc => hf4.raised hp hraw (hf3.raised hp hraw (hr2 hc)),
    fun hc => hf4.raised hp hraw (hr3 hc), fun hc => d3.accEventIf_raised (hm3 ▸ ha) Ev.ACC_OVF hc,
    fun hc => hf4.raised hp hraw (hf3.raised hp hraw (hf2.raised hp hraw (hr1 hc)))⟩

/-- Registers of the trackers that a commit writes. -/
def mmxWinRegs (m : Member) : List Nat := (List.range (nMmx m)).flatMap fun t => [R.MMX_MIN t, R.MMX_MAX t, R.MMX_STAT t]

/-- A tracker's values written. -/
def Dev.mmxPut (d : Dev) (t : Nat) (lo hi : Word) (empty sat : Bool) : Dev :=
  (((d.setReg (R.MMX_MIN t) lo).setReg (R.MMX_MAX t) hi).putB (R.MMX_STAT t) F.MMX_STAT_EMPTY empty).putB (R.MMX_STAT t) F.MMX_STAT_SAT sat

theorem Dev.mmxPut_spec (d : Dev) (t : Nat) (lo hi : Word) (empty sat : Bool) :
    FrameOn noPart [R.MMX_MIN t, R.MMX_MAX t, R.MMX_STAT t] d (d.mmxPut t lo hi empty sat) ∧
    (d.mmxPut t lo hi empty sat).reg (R.MMX_MIN t) = lo ∧ (d.mmxPut t lo hi empty sat).reg (R.MMX_MAX t) = hi ∧
    (d.mmxPut t lo hi empty sat).flag (R.MMX_STAT t) F.MMX_STAT_EMPTY = empty := by
  have hp := noPart_part
  have hne : R.MMX_MAX t ≠ R.MMX_STAT t ∧ R.MMX_MIN t ≠ R.MMX_STAT t ∧ R.MMX_MIN t ≠ R.MMX_MAX t := by
    simp only [R.MMX_MAX, R.MMX_STAT, R.MMX_MIN]
    omega
  obtain ⟨hxs, hns, hnx⟩ := hne
  refine ⟨((((FrameOn.refl hp _ d).setReg hp _ (by simp)).setReg hp _ (by simp)).putB hp _ _ (by simp)).putB hp _ _ (by simp), ?_, ?_, ?_⟩
  · rw [Dev.mmxPut, Dev.putB, Dev.reg_put_ne _ _ _ hns, Dev.putB, Dev.reg_put_ne _ _ _ hns, Dev.reg_setReg_ne _ _ hnx, Dev.reg_setReg_self]
  · rw [Dev.mmxPut, Dev.putB, Dev.reg_put_ne _ _ _ hxs, Dev.putB, Dev.reg_put_ne _ _ _ hxs, Dev.reg_setReg_self]
  · rw [Dev.mmxPut, Dev.putB, Dev.flag_put_field _ _ _ _ (by decide)]
    exact Dev.flag_putB_self _ _ _ _ rfl (by decide)

/-- What a tracker takes from a commit is written to its own registers. -/
theorem Dev.mmxCommit_frame (d : Dev) (t a : Nat) (w : WinSt) : FrameOn noPart [R.MMX_MIN t, R.MMX_MAX t, R.MMX_STAT t] d (d.mmxCommit t a w) := by
  have h0 := FrameOn.refl noPart_part [R.MMX_MIN t, R.MMX_MAX t, R.MMX_STAT t] d
  rw [Dev.mmxCommit]
  refine FrameOn.ite (fun _ => FrameOn.ite (fun _ => h0) fun _ => ?_) fun _ => FrameOn.ite (fun _ => ?_) fun _ => ?_
  · exact (d.mmxPut_spec t 0 0 true false).1
  · exact (d.mmxPut_spec t _ _ false _).1
  · exact (d.mmxPut_spec t _ _ false _).1

/-- A tracker without HOLD takes the extremes of a window with members (R132). -/
theorem Dev.mmxCommit_takes {t : Nat} {w : WinSt} (hhold : d.flag (R.MMX_CFG t) F.MMX_CFG_HOLD = false) (hn : w.n ≠ 0) :
    d.mmxCommit t a w = d.mmxPut t (wordMant (d.mmxWindow a w).1) (wordMant (d.mmxWindow a w).2.1) false (d.mmxWindow a w).2.2 := by
  rw [Dev.mmxCommit, if_neg hn, hhold]
  rfl

theorem mem_mmxWinRegs {m : Member} {t : Nat} (ht : t < nMmx m) {x : Nat} (hx : x ∈ [R.MMX_MIN t, R.MMX_MAX t, R.MMX_STAT t]) : x ∈ mmxWinRegs m :=
  List.mem_flatMap.2 ⟨t, List.mem_range.2 ht, hx⟩

/-- Where a register of a tracker's values stands. -/
theorem mmxWinRegs_at {m : Member} {x : Nat} (h : x ∈ mmxWinRegs m) : 0x40038104 ≤ x ∧ x < 0x4003A000 ∧ 0x100 ≤ x % 0x1000 ∧
    (x % 0x20 = 4 ∨ x % 0x20 = 8 ∨ x % 0x20 = 0xC) := by
  obtain ⟨t, ht, hx⟩ := List.mem_flatMap.1 h
  have hlt := (List.mem_range.1 ht).trans_le (nMmx_le m)
  simp only [List.mem_cons, List.not_mem_nil, or_false, R.MMX_MIN, R.MMX_MAX, R.MMX_STAT] at hx
  omega

/-- The registers that a tracker's part in a commit asks. -/
def mmxAsked (t a : Nat) : List Nat := [R.PG_CTRL (Pg.MMX (t / 64)), R.MMX_CFG t, R.ACC_GAIN a, R.ACC_EXP a, R.DBG_CTRL]

/-- Where those registers stand. -/
theorem mmxAsked_at {t : Nat} (ht : t < 128) (ha : a < 384) {x : Nat} (hx : x ∈ mmxAsked t a) : eventReg x = false ∧ x ∉ accOwn a ∧
    ∀ m, x ∉ mmxWinRegs m := by
  simp only [mmxAsked, List.mem_cons, List.not_mem_nil, or_false, R.PG_CTRL, pageBase, Pg.MMX, R.MMX_CFG, R.ACC_GAIN, R.ACC_EXP, R.DBG_CTRL] at hx
  refine ⟨?_, ?_, fun m hm => ?_⟩
  · rw [eventReg_eq_false]
    omega
  · simp only [accOwn, List.mem_cons, List.not_mem_nil, or_false, R.ACC_RES0, R.ACC_RES1, R.ACC_CNT, R.ACC_STAT]
    omega
  · have := mmxWinRegs_at hm
    omega

theorem Dev.mmxAsked_same {e : Dev} {t : Nat} (hm : e.member = d.member) (h : ∀ x ∈ mmxAsked t a, e.reg x = d.reg x) (w : WinSt) :
    e.mmxLink t = d.mmxLink t ∧ e.flag (R.MMX_CFG t) F.MMX_CFG_HOLD = d.flag (R.MMX_CFG t) F.MMX_CFG_HOLD ∧ e.mmxWindow a w = d.mmxWindow a w := by
  simp only [mmxAsked, List.forall_mem_cons] at h
  obtain ⟨hctrl, hcfg, hgain, hexp, hdbg, -⟩ := h
  have hexpI : ∀ f, e.getI (R.ACC_EXP a) f = d.getI (R.ACC_EXP a) f := fun f => congrArg _ (Dev.get_of_reg hexp f)
  have hv : ∀ x, e.accV a x = d.accV a x := fun x => by
    rw [Dev.accV, Dev.accV, Dev.accG, Dev.accG, hgain, Dev.accExp0, Dev.accExp0, hexpI, hexpI]
  refine ⟨?_, Dev.flag_of_reg hcfg _, ?_⟩
  · rw [Dev.mmxLink, Dev.mmxLink, hm, Dev.pageEn, Dev.pageEn, Dev.frozen, Dev.frozen, Dev.flag_of_reg hctrl, Dev.flag_of_reg hctrl,
      Dev.flag_of_reg hdbg, Dev.flag_of_reg hcfg, Dev.get_of_reg hcfg]
  · rw [Dev.mmxWindow, Dev.mmxWindow, hv, hv]

/-- What a commit asks of the trackers' configuration stands while the trackers take it. -/
theorem Dev.mmxKeeps {e : Dev} {m : Member} (h : FrameOn noPart (mmxWinRegs m) d e) {t : Nat} (ht : t < 128) (ha : a < 384) (w : WinSt) :
    e.mmxLink t = d.mmxLink t ∧ e.flag (R.MMX_CFG t) F.MMX_CFG_HOLD = d.flag (R.MMX_CFG t) F.MMX_CFG_HOLD ∧ e.mmxWindow a w = d.mmxWindow a w :=
  Dev.mmxAsked_same (d := d) (e := e) (congrArg Dev.member h.1 :) (fun _ hx => h.reg noPart_part (mmxAsked_at ht ha hx).1 ((mmxAsked_at ht ha hx).2.2 m)) w

theorem Dev.mmxCommits_spec (d : Dev) {a : Nat} (ha : a < 384) (w : WinSt) : FrameOn noPart (mmxWinRegs d.member) d (d.mmxCommits a w) ∧
    ∀ t, d.mmxLink t = some a → d.flag (R.MMX_CFG t) F.MMX_CFG_HOLD = false → w.n ≠ 0 →
      (d.mmxCommits a w).reg (R.MMX_MIN t) = wordMant (d.mmxWindow a w).1 ∧ (d.mmxCommits a w).reg (R.MMX_MAX t) = wordMant (d.mmxWindow a w).2.1 ∧
      (d.mmxCommits a w).flag (R.MMX_STAT t) F.MMX_STAT_EMPTY = false := by
  have hle := nMmx_le d.member
  have hstep : ∀ t < nMmx d.member, ∀ e : Dev, FrameOn noPart (mmxWinRegs d.member) e (e.mmxCommit t a w) := fun t ht e =>
    (e.mmxCommit_frame t a w).widen noPart_part noPart_part (fun _ _ => rfl) fun _ hx => mem_mmxWinRegs ht hx
  obtain ⟨hframe, hall⟩ := forN_each (nMmx d.member) (I := fun e : Dev => FrameOn noPart (mmxWinRegs d.member) d e)
    (Q := fun t e => d.mmxLink t = some a → d.flag (R.MMX_CFG t) F.MMX_CFG_HOLD = false → w.n ≠ 0 →
      e.reg (R.MMX_MIN t) = wordMant (d.mmxWindow a w).1 ∧ e.reg (R.MMX_MAX t) = wordMant (d.mmxWindow a w).2.1 ∧
      e.flag (R.MMX_STAT t) F.MMX_STAT_EMPTY = false)
    (f := fun t e => if e.mmxLink t = some a then e.mmxCommit t a w else e)
    (fun t ht e he => FrameOn.ite (fun _ => he.trans noPart_part (hstep t ht e)) fun _ => he)
    (fun t ht e he hlink hhold hn => by
      obtain ⟨klink, khold, kwin⟩ := Dev.mmxKeeps he (ht.trans_le hle) ha w
      rw [if_pos (klink.trans hlink), Dev.mmxCommit_takes (khold.trans hhold) hn, kwin]
      exact (e.mmxPut_spec t _ _ false _).2)
    (fun t ht j hj e he hq hlink hhold hn => by
      have hf := (e.mmxCommit_frame t a w)
      have hne : ∀ x ∈ [R.MMX_MIN j, R.MMX_MAX j, R.MMX_STAT j], x ∉ [R.MMX_MIN t, R.MMX_MAX t, R.MMX_STAT t] ∧ eventReg x = false := by
        intro x hx
        simp only [List.mem_cons, List.not_mem_nil, or_false, R.MMX_MIN, R.MMX_MAX, R.MMX_STAT] at hx ⊢
        rw [eventReg_eq_false]
        omega
      have hsame : ∀ x ∈ [R.MMX_MIN j, R.MMX_MAX j, R.MMX_STAT j], (if e.mmxLink t = some a then e.mmxCommit t a w else e).reg x = e.reg x := by
        intro x hx
        obtain ⟨hout, hev⟩ := hne x hx
        split
        · exact hf.reg noPart_part hev hout
        · rfl
      obtain ⟨h1, h2, h3⟩ := hq hlink hhold hn
      exact ⟨(hsame _ (by simp)).trans h1, (hsame _ (by simp)).trans h2, (Dev.flag_of_reg (hsame _ (by simp)) _).trans h3⟩)
    (FrameOn.refl noPart_part _ d)
  exact ⟨hframe, fun t hlink => hall t (Dev.mmxLink_lt hlink) hlink⟩

/-! ### The contexts that wait -/

/-- The tick of ZERO_SLACK. -/
def zsPart (d e : Dev) : Dev := { d with sync := e.sync }

theorem zsPart_part : Part zsPart := ⟨fun _ => rfl, fun _ _ _ => rfl, fun _ _ => rfl, fun _ _ _ => rfl⟩

/-- ZERO_SLACK shows itself alone (R84, R85). -/
theorem Dev.zeroSlack_frame (d : Dev) (kind res : Nat) : FrameOn zsPart [R.TL_ZS_INFO] d (d.zeroSlack kind res) := by
  have hp := zsPart_part
  have hl : R.TL_ZS_INFO ∈ [R.TL_ZS_INFO] := List.mem_singleton_self _
  have hb := (FrameOn.refl hp [R.TL_ZS_INFO] d).bump hp F.TL_ZS_INFO_COUNT hl
  have hset : ∀ f : Dev, FrameOn zsPart [R.TL_ZS_INFO] d f →
      FrameOn zsPart [R.TL_ZS_INFO] d { f with sync := { f.sync with zsTick := f.gtc + 1 } } := fun f hf => hf.part hp rfl fun _ => rfl
  exact (hset _ (FrameOn.ite (fun _ => hb) fun _ => (hb.put hp _ _ hl).put hp _ _ hl)).quiet hp (Dev.raise_quiet _ _ _)

/-- Contexts, and the tick of ZERO_SLACK. -/
def ctxPart (d e : Dev) : Dev := { d with ctx := e.ctx, sync := e.sync }

theorem ctxPart_part : Part ctxPart := ⟨fun _ => rfl, fun _ _ _ => rfl, fun _ _ => rfl, fun _ _ _ => rfl⟩

section
variable {e : Dev} {l : List Nat}

theorem FrameOn.zeroSlackCtx (h : FrameOn ctxPart l d e) (hl : R.TL_ZS_INFO ∈ l) (kind res : Nat) : FrameOn ctxPart l d (e.zeroSlack kind res) :=
  h.trans ctxPart_part ((e.zeroSlack_frame kind res).widen zsPart_part ctxPart_part (fun _ _ => rfl) fun x hx => by
    rw [List.mem_singleton.1 hx]
    exact hl)

theorem FrameOn.setCtx (h : FrameOn ctxPart l d e) (c : Nat) (v : CtxSt) : FrameOn ctxPart l d (e.setCtx c v) :=
  h.part ctxPart_part rfl fun _ => Dev.reg_setCtx _ _ _ _

theorem FrameOn.ctxReady (h : FrameOn ctxPart l d e) (c : Nat) : FrameOn ctxPart l d (e.ctxReady c) := by
  rw [Dev.ctxReady]
  dsimp only
  split
  · exact FrameOn.ite (fun _ => h.setCtx c _) fun _ => h
  · exact h

theorem Dev.ctxReady_spec (d : Dev) (c j : Nat) : ((d.ctxReady c).ctxS j).spec = (d.ctxS j).spec := by
  rw [Dev.ctxReady]
  dsimp only
  split
  · split
    · rw [Dev.ctxS_setCtx]
      split
      · next h => rw [h]
      · rfl
    · rfl
  · rfl

end

theorem Dev.ctxAccCommit_frame (d : Dev) (a : Nat) : FrameOn ctxPart [R.TL_ZS_INFO] d (d.ctxAccCommit a) := by
  have hmem : R.TL_ZS_INFO ∈ [R.TL_ZS_INFO] := List.mem_singleton_self _
  refine FrameOn.forN ctxPart_part _ (fun c _ e => ?_) d
  have h0 := FrameOn.refl ctxPart_part [R.TL_ZS_INFO] e
  dsimp only
  split
  · refine FrameOn.ite (fun _ => h0) fun _ => FrameOn.ctxReady ?_ c
    exact FrameOn.ite (fun _ => h0.zeroSlackCtx hmem _ _) fun _ => h0
  · exact h0

theorem Dev.zeroSlack_ctx (d : Dev) (kind res : Nat) : (d.zeroSlack kind res).ctx = d.ctx := (congrArg Dev.ctx (d.zeroSlack_frame kind res).1 :)

theorem Dev.ctxAccCommit_noSpec (h : d.NoSpec) (a : Nat) : (d.ctxAccCommit a).NoSpec := by
  refine forN_keeps (P := Dev.NoSpec) _ (fun c _ e he => ?_) h
  dsimp only
  split
  · split
    · exact he
    · intro j
      rw [Dev.ctxReady_spec]
      split
      · rw [Dev.ctxS, Dev.zeroSlack_ctx]
        exact he j
      · exact he j
  · exact he

/-! ### The commit whole -/

theorem Dev.accRecord_quiet (d : Dev) (a : Nat) : Quiet d (d.accRecord a) := by
  rw [Dev.accRecord]
  split
  · exact Dev.emit_quiet _ _
  · exact Quiet.refl d

theorem Dev.accDue_eq {w : WinSt} (h : d.accDue a = some w) : (d.accS a).pend = some w := by
  rw [Dev.accDue] at h
  split at h
  · next v hv =>
    split at h
    · rw [hv, Option.some.inj h]
    · cases h
  · cases h

theorem Dev.specSee_noSpec (h : d.NoSpec) (a f : Nat) : d.specSee a f = d := Dev.mapWinsAll_noSpec h _

theorem Dev.accCommitCmd_eq {w : WinSt} (h : d.accDue a = some w) (hn : (((d.accCommit a w).accRecord a).ctxAccCommit a).NoSpec) :
    d.accCommitCmd a = ((d.accCommit a w).accRecord a).ctxAccCommit a := by
  simp only [Dev.accCommitCmd, h]
  rw [Dev.specSee_noSpec hn, Dev.specTryAll_noSpec hn]

/-- Accumulators, contexts, and the tick of ZERO_SLACK. -/
def commitPart (d e : Dev) : Dev := { d with acc := e.acc, ctx := e.ctx, sync := e.sync }

theorem commitPart_part : Part commitPart := ⟨fun _ => rfl, fun _ _ _ => rfl, fun _ _ => rfl, fun _ _ _ => rfl⟩

end

end Sys2Proof.Machine
end

section
/-! PROOFS. A window's commit, and a member added to a window (R120, R123, R125 to R127, R132, R135). -/

namespace Sys2Proof.Machine

theorem clampI_of_mem {lo hi x : Int} (h1 : lo ≤ x) (h2 : x ≤ hi) : clampI lo hi x = x := by
  rw [clampI, if_neg (by omega), if_neg (by omega)]

section
variable {d : Dev} {a : Nat} {w : WinSt}

/-- The registers that a commit names stand where only the trackers, the contexts and events follow. -/
theorem accOwn_stays {x : Nat} (hx : x ∈ accOwn a) :
    eventReg x = false ∧ (∀ m, x ∉ mmxWinRegs m) ∧ x ∉ [R.ACC_FLAG (a / 64) (a % 64 / 32)] ∧ x ∉ [R.TL_ZS_INFO] := by
  simp only [accOwn, List.mem_cons, List.not_mem_nil, or_false, R.ACC_RES0, R.ACC_RES1, R.ACC_CNT, R.ACC_STAT] at hx
  refine ⟨?_, fun m hm => ?_, ?_, ?_⟩
  · rw [eventReg_eq_false]
    omega
  · have := mmxWinRegs_at hm
    omega
  · rw [List.mem_singleton, R.ACC_FLAG]
    omega
  · rw [List.mem_singleton, R.TL_ZS_INFO]
    omega

theorem mmxWin_stays {m : Member} {x : Nat} (hx : x ∈ mmxWinRegs m) :
    eventReg x = false ∧ x ∉ [R.ACC_FLAG (a / 64) (a % 64 / 32)] ∧ x ∉ [R.TL_ZS_INFO] := by
  have := mmxWinRegs_at hx
  refine ⟨?_, ?_, ?_⟩
  · rw [eventReg_eq_false]
    omega
  · rw [List.mem_singleton, R.ACC_FLAG]
    omega
  · rw [List.mem_singleton, R.TL_ZS_INFO]
    omega

/-- The commit up to the trackers: the record, the results, the status bits. -/
def Dev.commitWritten (d : Dev) (a : Nat) (w : WinSt) : Dev :=
  ((d.accSet a (d.accCommitted a w)).resWritten a (d.accResults a w).1.1 (d.accResults a w).2.1 w.n).bitsWritten a
    (d.accResults a w).1.2 (d.accResults a w).2.2 (w.n == 0) (d.winShort a w) w.ovf

theorem FrameOn.accS {l : List Nat} {e : Dev} (h : FrameOn noPart l d e) (j : Nat) : e.accS j = d.accS j :=
  congrArg (fun x => spGet _ x j) (congrArg Dev.acc h.1 :)

theorem Dev.commitWritten_spec (d : Dev) (a : Nat) (w : WinSt) : FrameOn accPart (accOwn a) d (d.commitWritten a w) ∧
    (∀ j, j ≠ a → (d.commitWritten a w).accS j = d.accS j) ∧ (d.commitWritten a w).accS a = d.accCommitted a w ∧
    (d.commitWritten a w).reg (R.ACC_RES0 a) = wordMant (d.accResults a w).1.1 ∧
    (d.commitWritten a w).reg (R.ACC_RES1 a) = wordMant (d.accResults a w).2.1 ∧
    (d.commitWritten a w).get (R.ACC_CNT a) F.ACC_CNT_SEQ = (d.get (R.ACC_CNT a) F.ACC_CNT_SEQ + 1) % 256 ∧
    (w.n < 2 ^ 24 → (d.commitWritten a w).get (R.ACC_CNT a) F.ACC_CNT_N = w.n) ∧
    (d.commitWritten a w).flag (R.ACC_STAT a) F.ACC_STAT_PEND = false ∧
    (d.commitWritten a w).flag (R.ACC_STAT a) F.ACC_STAT_EMPTY = (w.n == 0) ∧
    (d.commitWritten a w).flag (R.ACC_STAT a) F.ACC_STAT_SHORT = d.winShort a w ∧
    (d.commitWritten a w).flag (R.ACC_STAT a) F.ACC_STAT_OVF = w.ovf ∧
    (d.commitWritten a w).flag (R.ACC_STAT a) F.ACC_STAT_SAT0 = (d.accResults a w).1.2 ∧
    (d.commitWritten a w).flag (R.ACC_STAT a) F.ACC_STAT_SAT1 = (d.accResults a w).2.2 := by
  have hap := accPart_part
  have hnp := noPart_part
  obtain ⟨-, -, -, h0s, h1s, hcs⟩ := accOwn_ne a
  have hset := d.accSet_spec a (d.accCommitted a w)
  have hnone : (d.accCommitted a w).pend = none := rfl
  rw [Dev.commitWritten]
  generalize d.accCommitted a w = v at hset hnone
  generalize d.accResults a w = r
  generalize d.winShort a w = short
  generalize d.accSet a v = e1 at hset
  obtain ⟨f1, oth1, own1, -, pend1⟩ := hset
  have hres := e1.resWritten_spec a r.1.1 r.2.1 w.n
  generalize e1.resWritten a r.1.1 r.2.1 w.n = e2 at hres
  obtain ⟨f2, r0, r1, seq, cnt, st⟩ := hres
  have hbits := e2.bitsWritten_spec a r.1.2 r.2.2 (w.n == 0) short w.ovf
  generalize e2.bitsWritten a r.1.2 r.2.2 (w.n == 0) short w.ovf = e3 at hbits
  obtain ⟨f3, pend3, hempty, hshort, hovf, hs0, hs1⟩ := hbits
  have hcnt1 : e1.reg (R.ACC_CNT a) = d.reg (R.ACC_CNT a) :=
    f1.reg hap (accOwn_stays (a := a) (by simp [accOwn])).1 fun hm => hcs (List.mem_singleton.1 hm)
  have hkeep : ∀ x ∈ accOwn a, x ≠ R.ACC_STAT a → e3.reg x = e2.reg x := fun x hx hne =>
    f3.reg hnp (accOwn_stays hx).1 fun hm => hne (List.mem_singleton.1 hm)
  have hacc : ∀ j, e3.accS j = e1.accS j := fun j => (f3.accS j).trans (f2.accS j)
  have hstat : R.ACC_STAT a ∈ accOwn a := by simp [accOwn]
  refine ⟨?_, fun j hj => (hacc j).trans (oth1 j hj), (hacc a).trans own1, ?_, ?_, ?_, fun hn => ?_, ?_, hempty, hshort, hovf, hs0, hs1⟩
  · exact ((f1.widen hap hap (fun _ _ => rfl) fun x hx => List.mem_singleton.1 hx ▸ hstat).trans hap
      (f2.widen hnp hap (fun _ _ => rfl) fun _ hx => hx)).trans hap
      (f3.widen hnp hap (fun _ _ => rfl) fun x hx => List.mem_singleton.1 hx ▸ hstat)
  · exact (hkeep _ (by simp [accOwn]) h0s).trans r0
  · exact (hkeep _ (by simp [accOwn]) h1s).trans r1
  · rw [Dev.get_of_reg (hkeep _ (by simp [accOwn]) hcs), seq, Dev.get_of_reg hcnt1]
  · rw [Dev.get_of_reg (hkeep _ (by simp [accOwn]) hcs), cnt hn]
  · rw [pend3, Dev.flag_of_reg st, pend1, hnone]
    rfl


/-! ### The commit whole -/

theorem Dev.accResults_empty (d : Dev) (a : Nat) (hn : w.n = 0) : (d.accResults a w).1.1 = 0 ∧ (d.accResults a w).2.1 = 0 := by
  rw [Dev.accResults, if_pos hn]
  exact ⟨rfl, rfl⟩

/-- What follows the values of a commit: the trackers, the events, the record, the contexts that wait. -/
def Dev.commitFollowed (d : Dev) (a : Nat) (w : WinSt) (sat short : Bool) : Dev :=
  (((d.mmxCommits a w).commitTold a sat (w.n == 0) short w.ovf).accRecord a).ctxAccCommit a

theorem Dev.commit_eq (d : Dev) (a : Nat) (w : WinSt) : ((d.accCommit a w).accRecord a).ctxAccCommit a =
    (d.commitWritten a w).commitFollowed a w ((d.accResults a w).1.2 || (d.accResults a w).2.2) (d.winShort a w) := by
  rw [Dev.accCommit_eq]
  rfl

/-- The registers that what follows the values writes. -/
def followRegs (m : Member) (a : Nat) : List Nat := R.ACC_FLAG (a / 64) (a % 64 / 32) :: R.TL_ZS_INFO :: mmxWinRegs m

theorem FrameOn.ctxAcc {l : List Nat} {e : Dev} (h : FrameOn ctxPart l d e) : e.acc = d.acc := (congrArg Dev.acc h.1 :)

theorem Dev.commitFollowed_spec (d : Dev) (ha : a < nAcc d.member) (w : WinSt) (sat short : Bool) :
    FrameOn ctxPart (followRegs d.member a) d (d.commitFollowed a w sat short) ∧
    (w.n = 0 → Raised (d.commitFollowed a w sat short) (Pg.ACC (a / 64)) Ev.ACC_EMPTY) ∧
    (short = true → Raised (d.commitFollowed a w sat short) (Pg.ACC (a / 64)) Ev.ACC_SHORT) ∧
    (w.ovf = true → Raised (d.commitFollowed a w sat short) (Pg.ACC (a / 64)) Ev.ACC_OVF) ∧
    (sat = true → Raised (d.commitFollowed a w sat short) (Pg.ACC (a / 64)) Ev.ACC_SAT) ∧
    (d.NoSpec → (d.commitFollowed a w sat short).NoSpec) ∧
    ∀ t, d.mmxLink t = some a → d.flag (R.MMX_CFG t) F.MMX_CFG_HOLD = false → w.n ≠ 0 →
      (d.commitFollowed a w sat short).reg (R.MMX_MIN t) = wordMant (d.mmxWindow a w).1 ∧
      (d.commitFollowed a w sat short).reg (R.MMX_MAX t) = wordMant (d.mmxWindow a w).2.1 ∧
      (d.commitFollowed a w sat short).flag (R.MMX_STAT t) F.MMX_STAT_EMPTY = false := by
  have hnp := noPart_part
  have hcp := ctxPart_part
  obtain ⟨f1, hmmx⟩ := d.mmxCommits_spec (ha.trans_le (nAcc_le _)) w
  rw [Dev.commitFollowed]
  generalize d.mmxCommits a w = e1 at f1 hmmx
  have hm1 : e1.member = d.member := (congrArg Dev.member f1.1 :)
  have htold := e1.commitTold_spec (a := a) (hm1 ▸ ha) sat (w.n == 0) short w.ovf
  generalize e1.commitTold a sat (w.n == 0) short w.ovf = e2 at htold
  obtain ⟨f2, hempty, hshort, hovf, hsat⟩ := htold
  have f3 := FrameOn.quiet hnp (FrameOn.refl hnp [] e2) (e2.accRecord_quiet a)
  generalize e2.accRecord a = e3 at f3
  have f4 := e3.ctxAccCommit_frame a
  have hnospec := fun h => e3.ctxAccCommit_noSpec h a
  generalize e3.ctxAccCommit a = e4 at f4 hnospec
  have hraised : ∀ {src}, Raised e2 (Pg.ACC (a / 64)) src → Raised e4 (Pg.ACC (a / 64)) src := fun h =>
    f4.raised hcp (by simp only [List.mem_singleton, R.PG_EVT_RAW, pageBase, R.TL_ZS_INFO]; omega) (f3.raised hnp (List.not_mem_nil) h)
  have hctx : e3.ctx = d.ctx := ((congrArg Dev.ctx f3.1 :).trans (congrArg Dev.ctx f2.1 :)).trans (congrArg Dev.ctx f1.1 :)
  have hreg : ∀ t < nMmx d.member, ∀ x ∈ [R.MMX_MIN t, R.MMX_MAX t, R.MMX_STAT t], e4.reg x = e1.reg x := fun t ht x hx => by
    obtain ⟨h1, h2, h3⟩ := mmxWin_stays (a := a) (mem_mmxWinRegs ht hx)
    rw [f4.reg hcp h1 h3, f3.reg hnp h1 List.not_mem_nil, f2.reg hnp h1 h2]
  refine ⟨?_, fun hn => hraised (hempty (by rw [hn]; rfl)), fun h => hraised (hshort h), fun h => hraised (hovf h), fun h => hraised (hsat h),
    fun h => hnospec (h.of_ctx hctx), fun t hlink hhold hn => ?_⟩
  · refine (((f1.widen hnp hcp (fun _ _ => rfl) fun x hx => ?_).trans hcp (f2.widen hnp hcp (fun _ _ => rfl) fun x hx => ?_)).trans hcp
      (f3.widen hnp hcp (fun _ _ => rfl) fun x hx => ?_)).trans hcp (f4.widen hcp hcp (fun _ _ => rfl) fun x hx => ?_)
    · exact List.mem_cons_of_mem _ (List.mem_cons_of_mem _ hx)
    · rw [List.mem_singleton.1 hx]
      exact List.mem_cons_self
    · exact absurd hx List.not_mem_nil
    · rw [List.mem_singleton.1 hx]
      exact List.mem_cons_of_mem _ List.mem_cons_self
  · have ht := Dev.mmxLink_lt hlink
    obtain ⟨hmin, hmax, hflag⟩ := hmmx t hlink hhold hn
    exact ⟨(hreg t ht _ (by simp)).trans hmin, (hreg t ht _ (by simp)).trans hmax, (Dev.flag_of_reg (hreg t ht _ (by simp)) _).trans hflag⟩

/-- The values of a commit stand while the rest follows. -/
theorem accOwn_followRegs {m : Member} {x : Nat} (hx : x ∈ accOwn a) : eventReg x = false ∧ x ∉ followRegs m a := by
  obtain ⟨h1, h2, h3, h4⟩ := accOwn_stays hx
  simp only [followRegs, List.mem_cons, not_or]
  exact ⟨h1, fun h => h3 (List.mem_singleton.2 h), fun h => h4 (List.mem_singleton.2 h), h2 m⟩

/-! ### A member added to a window -/

theorem satSum_of_mem {s x : Int} (h1 : -(2 ^ 39) ≤ s + x) (h2 : s + x < 2 ^ 39) : satSum s x = (s + x, false) := by
  rw [satSum, clampI_of_mem h1 (by omega), decide_eq_false (by omega), decide_eq_false (by omega)]
  rfl

theorem satSum_fst (s x : Int) : (satSum s x).1 = clampI (-(2 ^ 39)) (2 ^ 39 - 1) (s + x) := rfl

theorem Dev.accTerms_sum (h : d.accMode a = 0) (x : Int) (ts : Nat) : d.accTerms a x ts = (x, 0) := by
  rw [Dev.accTerms, h]
  rfl

theorem Dev.accTerms_sumsq (h : d.accMode a = 1) (x : Int) (ts : Nat) : d.accTerms a x ts = (x, roundDiv x 4 * roundDiv x 4) := by
  rw [Dev.accTerms, h]
  rfl

theorem Dev.accAdd_of {x t1 t2 s1 s2 : Int} {c o1 o2 : Bool} {ts : Nat} (hn : w.n < 16777215) (ht : d.accTerms a x ts = (t1, t2))
    (h1 : satSum w.s1 t1 = (s1, o1)) (h2 : satSum w.s2 t2 = (s2, o2)) : d.accAdd a w x c ts =
      { w with n := w.n + 1, s1 := s1, s2 := s2, ovf := w.ovf || c || o1 || o2, last := ts,
               dMin := (if w.n = 0 then x else min w.dMin x), dMax := (if w.n = 0 then x else max w.dMax x) } := by
  have hon : decide (w.n ≥ 16777215) = false := decide_eq_false (by omega)
  simp only [Dev.accAdd, ht, h1, h2, hon, Bool.or_false, Bool.false_eq_true, if_false]

/-- The summands that a member adds in SUM (R123). -/
theorem Dev.accAdd_sum (h : d.accMode a = 0) {x : Int} (hn : w.n < 16777215) (h1 : -(2 ^ 39) ≤ w.s1 + x) (h2 : w.s1 + x < 2 ^ 39) (c : Bool) (ts : Nat) :
    (d.accAdd a w x c ts).s1 = w.s1 + x ∧ (-(2 ^ 39) ≤ w.s2 → w.s2 < 2 ^ 39 →
      (d.accAdd a w x c ts).s2 = w.s2 ∧ (d.accAdd a w x c ts).ovf = (w.ovf || c)) := by
  have ht := Dev.accTerms_sum h x ts
  refine ⟨congrArg WinSt.s1 (Dev.accAdd_of hn ht (satSum_of_mem h1 h2) rfl), fun h3 h4 => ?_⟩
  have hz : satSum w.s2 0 = (w.s2, false) := by
    have h0 := satSum_of_mem (s := w.s2) (x := 0) (by omega) (by omega)
    rwa [Int.add_zero] at h0
  rw [Dev.accAdd_of hn ht (satSum_of_mem h1 h2) hz]
  exact ⟨rfl, by rw [Bool.or_false, Bool.or_false]⟩

theorem Dev.accAdd_sumsq (h : d.accMode a = 1) {x : Int} (hn : w.n < 16777215) (c : Bool) (ts : Nat) :
    (d.accAdd a w x c ts).s2 = clampI (-(2 ^ 39)) (2 ^ 39 - 1) (w.s2 + roundDiv x 4 * roundDiv x 4) := by
  rw [Dev.accAdd_of hn (Dev.accTerms_sumsq h x ts) rfl rfl]

/-- Whatever the summands: the count, the extremes, the timestamps (R123). -/
theorem Dev.accAdd_counts {x : Int} (hn : w.n < 16777215) (c : Bool) (ts : Nat) :
    (d.accAdd a w x c ts).n = w.n + 1 ∧ (d.accAdd a w x c ts).last = ts ∧ (d.accAdd a w x c ts).fOpen = w.fOpen ∧
    (w.n = 0 → (d.accAdd a w x c ts).dMin = x ∧ (d.accAdd a w x c ts).dMax = x) ∧
    (w.n ≠ 0 → (d.accAdd a w x c ts).dMin = min w.dMin x ∧ (d.accAdd a w x c ts).dMax = max w.dMax x) := by
  rw [Dev.accAdd_of hn rfl rfl rfl]
  exact ⟨rfl, rfl, rfl, fun h => ⟨if_pos h, if_pos h⟩, fun h => ⟨if_neg h, if_neg h⟩⟩

/-! ### What the trackers find after the values are written -/

theorem FrameOn.accMember {l : List Nat} {e : Dev} (h : FrameOn accPart l d e) : e.member = d.member := (congrArg Dev.member h.1 :)

theorem FrameOn.mmxAsked {e : Dev} (h : FrameOn accPart (accOwn a) d e) (ha : a < 384) {t : Nat} (ht : t < 128) (w : WinSt) :
    e.mmxLink t = d.mmxLink t ∧ e.flag (R.MMX_CFG t) F.MMX_CFG_HOLD = d.flag (R.MMX_CFG t) F.MMX_CFG_HOLD ∧ e.mmxWindow a w = d.mmxWindow a w :=
  Dev.mmxAsked_same (d := d) (e := e) (congrArg Dev.member h.1 :)
    (fun _ hx => h.reg accPart_part (mmxAsked_at ht ha hx).1 (mmxAsked_at ht ha hx).2.1) w

/-- A commit writes the registers of `accRegs`. -/
theorem FrameOn.commitFrame {e f : Dev} (h : FrameOn accPart (accOwn a) d e) (hf : FrameOn ctxPart (followRegs e.member a) e f) :
    FrameOn commitPart (accRegs d.member a) d f := by
  have hm : e.member = d.member := (congrArg Dev.member h.1 :)
  rw [hm] at hf
  refine (h.widen accPart_part commitPart_part (fun _ _ => rfl) fun x hx => ?_).trans commitPart_part
    (hf.widen ctxPart_part commitPart_part (fun _ _ => rfl) fun x hx => ?_)
  · exact List.mem_append_left _ (List.mem_append_left (bs := [R.ACC_FLAG (a / 64) (a % 64 / 32), R.TL_ZS_INFO]) hx)
  · rw [followRegs, List.mem_cons, List.mem_cons] at hx
    obtain rfl | rfl | hx := hx
    · exact List.mem_append_left _ (by simp)
    · exact List.mem_append_left _ (by simp)
    · exact List.mem_append_right _ hx

end

/-- Settles O22. -/
theorem accumulatorCommits : Obligations.AccumulatorCommits := by
  refine ⟨fun s a w hl hns ha hdue => ?_, fun d a w x c ts hn h1 h2 => ?_⟩
  · have hw := s.dev.commitWritten_spec a w
    have hcmd := Dev.accCommitCmd_eq (d := s.dev) hdue
    rw [Dev.commit_eq] at hcmd
    generalize s.dev.commitWritten a w = e1 at hw hcmd
    obtain ⟨fw, woth, wown, r0, r1, seq, cnt, pend, empty, short, ovf, sat0, sat1⟩ := hw
    have hmem := fw.accMember
    have hfol := e1.commitFollowed_spec (a := a) (hmem ▸ ha) w
      ((s.dev.accResults a w).1.2 || (s.dev.accResults a w).2.2) (s.dev.winShort a w)
    generalize e1.commitFollowed a w ((s.dev.accResults a w).1.2 || (s.dev.accResults a w).2.2) (s.dev.winShort a w) = e at hcmd hfol
    obtain ⟨ff, hempty, hshort, hovf, hsat, hnospec, hmmx⟩ := hfol
    have hkeep : ∀ x ∈ accOwn a, e.reg x = e1.reg x := fun x hx => ff.reg ctxPart_part (accOwn_stays hx).1 (accOwn_followRegs hx).2
    have hstat : ∀ f, e.flag (R.ACC_STAT a) f = e1.flag (R.ACC_STAT a) f := fun f => Dev.flag_of_reg (hkeep _ (by simp [accOwn])) f
    have hcnt : ∀ f, e.get (R.ACC_CNT a) f = e1.get (R.ACC_CNT a) f := fun f => Dev.get_of_reg (hkeep _ (by simp [accOwn])) f
    have hacc : ∀ j, e.accS j = e1.accS j := fun j => congrArg (fun x => spGet _ x j) ff.ctxAcc
    have hown : e.accS a = s.dev.accCommitted a w := (hacc a).trans wown
    refine ⟨e, onLive_eq hl (hcmd (hnospec (fw.noSpec hns))), fw.commitFrame ff, fun j hj => (hacc j).trans (woth j hj),
      by rw [hown]; rfl, by rw [hown]; rfl, (hkeep _ (by simp [accOwn])).trans r0, (hkeep _ (by simp [accOwn])).trans r1,
      s.dev.accResults_empty a, (hcnt _).trans seq, fun hn => (hcnt _).trans (cnt hn), (hstat _).trans pend, (hstat _).trans empty,
      (hstat _).trans short, (hstat _).trans ovf, (hstat _).trans sat0, (hstat _).trans sat1, hempty, hshort, hovf, hsat,
      fun t hlink hhold hn => ?_⟩
    obtain ⟨klink, khold, kwin⟩ := fw.mmxAsked (ha.trans_le (nAcc_le _)) ((Dev.mmxLink_lt hlink).trans_le (nMmx_le _)) w
    rw [← kwin]
    exact hmmx t (klink.trans hlink) (khold.trans hhold) hn
  · obtain ⟨hcount, hlast, hopen, hfirst, hmore⟩ := Dev.accAdd_counts (d := d) (a := a) (x := x) hn c ts
    exact ⟨hcount, hlast, hopen, hfirst, hmore, fun h => Dev.accAdd_sum h hn h1 h2 c ts, fun h => Dev.accAdd_sumsq h hn c ts⟩

end Sys2Proof.Machine
end

section
/-! PROOFS. What a raising leaves of the mailboxes, of Garmal's channels and of the notes of the bus cycle, where its source is not one that
Garmal notifies (R411, R430, R477). -/

namespace Sys2Proof.Machine

/-- Mailboxes, Garmal's channels, the notes of the bus cycle and the queues' overflow bits stand. -/
structure MailStands (d e : Dev) : Prop where
  mbx : e.mbx = d.mbx
  gar : e.gar = d.gar
  cyc : e.sys.cyc = d.sys.cyc
  full : e.reg R.MBX_FULLF = d.reg R.MBX_FULLF

section
variable {d e f : Dev}

theorem MailStands.refl (d : Dev) : MailStands d d := ⟨rfl, rfl, rfl, rfl⟩

theorem MailStands.trans (h : MailStands d e) (k : MailStands e f) : MailStands d f :=
  ⟨k.mbx.trans h.mbx, k.gar.trans h.gar, k.cyc.trans h.cyc, k.full.trans h.full⟩

theorem MailStands.ite {c : Prop} [Decidable c] (h : c → MailStands d e) (k : ¬c → MailStands d f) : MailStands d (if c then e else f) := by
  split
  · next hc => exact h hc
  · next hc => exact k hc

theorem MailStands.mbxS (h : MailStands d e) (c : Nat) : e.mbxS c = d.mbxS c := congrArg (fun l => spGet _ l c) h.mbx
theorem MailStands.garS (h : MailStands d e) (c : Nat) : e.garS c = d.garS c := congrArg (fun l => spGet _ l c) h.gar

theorem MailStands.setReg (d : Dev) {a : Nat} (w : Word) (ha : a ≠ R.MBX_FULLF) : MailStands d (d.setReg a w) :=
  ⟨rfl, rfl, rfl, d.reg_setReg_ne w ha.symm⟩

theorem MailStands.orReg (d : Dev) {a : Nat} (w : Word) (ha : a ≠ R.MBX_FULLF) : MailStands d (d.orReg a w) := MailStands.setReg d _ ha

theorem MailStands.put (d : Dev) {a : Nat} (f : RField) (v : Nat) (ha : a ≠ R.MBX_FULLF) : MailStands d (d.put a f v) := MailStands.setReg d _ ha

theorem MailStands.putB (d : Dev) {a : Nat} (f : RField) (b : Bool) (ha : a ≠ R.MBX_FULLF) : MailStands d (d.putB a f b) := MailStands.setReg d _ ha

theorem MailStands.bump (d : Dev) {a : Nat} (f : RField) (ha : a ≠ R.MBX_FULLF) : MailStands d (d.bump a f) := MailStands.setReg d _ ha

theorem MailStands.hamper (d : Dev) (h : RecSt) : MailStands d { d with hamper := h } := ⟨rfl, rfl, rfl, rfl⟩

theorem pgEvtRaw_ne_fullf (page : Nat) : R.PG_EVT_RAW page ≠ R.MBX_FULLF := by
  simp only [R.PG_EVT_RAW, pageBase, R.MBX_FULLF]
  omega

variable (d)

theorem Dev.msiSend_mail (v : Nat) : MailStands d (d.msiSend v) := .ite (fun _ => .refl d) fun _ => ⟨rfl, rfl, rfl, rfl⟩

theorem Dev.msiRaise_mail (v : Nat) : MailStands d (d.msiRaise v) :=
  .ite (fun _ => .refl d) fun _ => (MailStands.orReg d _ (by decide)).trans (Dev.msiSend_mail _ v)

theorem Dev.vecS0_mail (a : Nat) : MailStands d (d.vecS0 a) := .ite (fun _ => ⟨rfl, rfl, rfl, rfl⟩) fun _ => .refl d
theorem Dev.vecS1_mail (a : Nat) : MailStands d (d.vecS1 a) := .ite (fun _ => ⟨rfl, rfl, rfl, rfl⟩) fun _ => .refl d
theorem Dev.toMsi_mail (a : Nat) : MailStands d (d.toMsi a) := .ite (fun _ => d.msiRaise_mail _) fun _ => .refl d
theorem Dev.toOut_mail (a : Nat) : MailStands d (d.toOut a) := .ite (fun _ => ⟨rfl, rfl, rfl, rfl⟩) fun _ => .refl d

theorem Dev.deliver_mail (page src : Nat) : MailStands d (d.deliver page src) := by
  have hvec : MailStands d ((d.vecS0 (R.EVT_RTE src)).vecS1 (R.EVT_RTE src)) := (d.vecS0_mail _).trans (Dev.vecS1_mail _ _)
  exact .ite (fun _ => (hvec.trans (Dev.toMsi_mail _ _)).trans (Dev.toOut_mail _ _)) fun _ => hvec

theorem Dev.noteLast_mail (src : Nat) : MailStands d (d.noteLast src) :=
  .ite (fun _ => .refl d) fun _ => (MailStands.put d _ _ (by decide)).trans (MailStands.setReg _ _ (by decide))

theorem Dev.raise0_mail (page src : Nat) : MailStands d (d.raise0 page src) :=
  .ite (fun _ => (((MailStands.orReg d _ (pgEvtRaw_ne_fullf page)).trans (Dev.noteLast_mail _ _)).trans
    (f := Dev.noteRaising _ page src) ⟨rfl, rfl, rfl, rfl⟩).trans (Dev.deliver_mail _ _ _)) fun _ => .refl d

theorem Dev.emit0_mail (r : RecRec) : MailStands d (d.emit0 r).1 := by
  rw [Dev.emit0]
  split
  · exact .refl d
  · split
    · exact ⟨rfl, rfl, rfl, rfl⟩
    · split
      · exact ⟨rfl, rfl, rfl, rfl⟩
      · exact MailStands.trans (e := d.recLossPut r) ⟨rfl, rfl, rfl, rfl⟩ (MailStands.bump _ (a := R.REC_STAT) F.REC_STAT_LOSS_CNT (by decide))

theorem Dev.trigLower_mail (src : Nat) : MailStands d (d.trigLower src) :=
  (MailStands.put d _ _ (by decide)).trans (e := d.put R.REC_TRIG_INFO F.REC_TRIG_INFO_SRC src) ⟨rfl, rfl, rfl, rfl⟩

theorem Dev.trigMore_mail (src : Nat) : MailStands d (d.trigMore src) := by
  refine .ite (fun _ => .ite (fun _ => d.trigLower_mail src) fun _ => .refl d) fun _ => .ite (fun _ => ?_) fun _ => .refl d
  exact MailStands.trans (f := Dev.bump _ R.REC_TRIG_INFO F.REC_TRIG_INFO_MISSED) (MailStands.hamper d _) (MailStands.bump _ (a := R.REC_TRIG_INFO) _ (by decide))

theorem Dev.raisePost_mail (src : Nat) : MailStands d (d.raisePost src) :=
  .ite (fun _ => (d.raise0_mail _ src).trans (Dev.trigMore_mail _ src)) fun _ => d.raise0_mail _ src

theorem Dev.lossIf_mail (lost : Bool) : MailStands d (d.lossIf lost) := .ite (fun _ => d.raisePost_mail _) fun _ => .refl d

theorem Dev.trigPost_mail (src : Nat) : MailStands d (d.trigPost src) := by
  refine MailStands.trans (e := { d with hamper := { d.hamper with trigTick := d.busCycle } }) ⟨rfl, rfl, rfl, rfl⟩ ?_
  exact (((MailStands.putB _ _ _ (by decide)).trans (MailStands.setReg _ _ (by decide))).trans (MailStands.putB _ _ _ (by decide))).trans
    (MailStands.put _ _ _ (by decide))

theorem Dev.trigger_mail (src : Nat) : MailStands d (d.trigger src) :=
  .ite (fun _ => (((d.emit0_mail _).trans (Dev.trigPost_mail _ _)).trans (Dev.raisePost_mail _ _)).trans (Dev.lossIf_mail _ _))
    fun _ => d.trigMore_mail src

theorem Dev.raiseR_mail (page src : Nat) : MailStands d (d.raiseR page src) :=
  .ite (fun _ => .ite (fun _ => (d.raise0_mail _ _).trans (Dev.trigger_mail _ _)) fun _ => d.raise0_mail _ _) fun _ => .refl d

theorem Dev.reproduce_mail (r : RecRec) : MailStands d (d.reproduce r) := .ite (fun _ => ⟨rfl, rfl, rfl, rfl⟩) fun _ => .refl d

theorem Dev.emit_mail (r : RecRec) : MailStands d (d.emit r) :=
  (MailStands.ite (fun _ => (d.emit0_mail r).trans (Dev.raiseR_mail _ _ _)) fun _ => d.emit0_mail r).trans (Dev.reproduce_mail _ r)

theorem Dev.mbxRecord_mail (c side : Nat) (w : Word) : MailStands d (d.mbxRecord c side w) :=
  .ite (fun _ => d.emit_mail _) fun _ => .refl d

/-- A raising that Garmal does not notify leaves the mailboxes. -/
theorem Dev.raiseN_mail {src : Nat} (page : Nat) (hs : notifyChannels src = []) (arg0 : Nat) : MailStands d (d.raiseN page src arg0) := by
  rw [Dev.raiseN, hs]
  exact .ite (fun _ => d.raiseR_mail page src) fun _ => .refl d

theorem Dev.raise_mail {src : Nat} (page : Nat) (hs : notifyChannels src = []) : MailStands d (d.raise page src) := d.raiseN_mail page hs _

theorem Dev.raiseIf_mail {src : Nat} (b : Bool) (page : Nat) (hs : notifyChannels src = []) : MailStands d (d.raiseIf b page src) :=
  .ite (fun _ => d.raise_mail page hs) fun _ => .refl d

end

/-! ### Sends -/

section
variable (d : Dev) (c side : Nat) (w : Word)

/-- A word that finds a full queue (R411). -/
def Dev.sendFull : Dev :=
  let e := d.mbxRecord c side w
  (((e.setCyc { e.cycS with full := (c, side) :: e.cycS.full }).setMbx c ((d.mbxS c).full side)).orReg R.MBX_FULLF (bitWord c)).raiseR
    Pg.MBX Ev.QUEUE_FULL

/-- A word appended to its queue (R411). -/
def Dev.sendPush : Dev :=
  let e := d.mbxRecord c side w
  (e.setCyc { e.cycS with sent := (c, side) :: e.cycS.sent }).setMbx c ((d.mbxS c).push side w)

theorem Dev.mbxSend_full (h : 8 ≤ ((d.mbxS c).out side).length) : d.mbxSend c side w = d.sendFull c side w := by
  rw [Dev.mbxSend]
  exact if_pos h

theorem Dev.mbxSend_push (h : ((d.mbxS c).out side).length < 8) : d.mbxSend c side w =
    if ((d.mbxS c).out side).isEmpty then (d.sendPush c side w).raiseR Pg.MBX Ev.MBX_RX else d.sendPush c side w := by
  rw [Dev.mbxSend]
  exact if_neg (by omega)

theorem Dev.sendPush_mbxS (j : Nat) : (d.sendPush c side w).mbxS j = if j = c then (d.mbxS c).push side w else d.mbxS j := by
  rw [Dev.sendPush, Dev.mbxS_setMbx]
  exact if_congr Iff.rfl rfl ((d.mbxRecord_mail c side w).mbxS j)

theorem Dev.sendFull_mbxS (j : Nat) : (d.sendFull c side w).mbxS j = if j = c then (d.mbxS c).full side else d.mbxS j := by
  rw [Dev.sendFull, (Dev.raiseR_mail _ _ _).mbxS, Dev.orReg, Dev.mbxS_setReg, Dev.mbxS_setMbx]
  exact if_congr Iff.rfl rfl ((d.mbxRecord_mail c side w).mbxS j)

theorem Dev.sendFull_fullf (hc : c < 32) : bitOf ((d.sendFull c side w).reg R.MBX_FULLF) c = true := by
  rw [Dev.sendFull, (Dev.raiseR_mail _ _ _).full, Dev.reg_orReg, if_pos rfl, bitOf_or, bitOf_bitWord c hc, Bool.or_true]

/-- A send in one line: appended where there is room, else marked (R411). -/
theorem Dev.mbxSend_mbxS (j : Nat) : (d.mbxSend c side w).mbxS j = if j = c then
    if ((d.mbxS c).out side).length < 8 then (d.mbxS c).push side w else (d.mbxS c).full side else d.mbxS j := by
  by_cases h : ((d.mbxS c).out side).length < 8
  · rw [if_pos h, Dev.mbxSend_push d c side w h, ← Dev.sendPush_mbxS d c side w j]
    split
    · exact (Dev.raiseR_mail _ _ _).mbxS j
    · rfl
  · rw [if_neg h, Dev.mbxSend_full d c side w (by omega), Dev.sendFull_mbxS]

theorem Dev.sendPush_gar : (d.sendPush c side w).gar = d.gar := (d.mbxRecord_mail c side w).gar

theorem Dev.sendFull_gar : (d.sendFull c side w).gar = d.gar := by
  rw [Dev.sendFull, (Dev.raiseR_mail _ _ _).gar]
  exact (d.mbxRecord_mail c side w).gar

theorem Dev.mbxSend_gar : (d.mbxSend c side w).gar = d.gar := by
  by_cases h : ((d.mbxS c).out side).length < 8
  · rw [Dev.mbxSend_push d c side w h]
    split
    · rw [(Dev.raiseR_mail _ _ _).gar, Dev.sendPush_gar]
    · exact Dev.sendPush_gar d c side w
  · rw [Dev.mbxSend_full d c side w (by omega), Dev.sendFull_gar]

end

theorem MbxElse.refl (d : Dev) (c : Nat) : MbxElse d d c := fun _ _ => rfl

theorem MbxElse.trans {d e f : Dev} {c : Nat} (h : MbxElse d e c) (k : MbxElse e f c) : MbxElse d f c :=
  fun j hj => (k j hj).trans (h j hj)

theorem MailStands.mbxElse {d e : Dev} (h : MailStands d e) (c : Nat) : MbxElse d e c := fun j _ => h.mbxS j

theorem Dev.setMbx_else (d : Dev) (c : Nat) (q : MbxSt) : MbxElse d (d.setMbx c q) c := fun j hj => by rw [Dev.mbxS_setMbx, if_neg hj]

theorem Dev.mbxSend_else (d : Dev) (c side : Nat) (w : Word) : MbxElse d (d.mbxSend c side w) c := fun j hj => by
  rw [Dev.mbxSend_mbxS, if_neg hj]

theorem Dev.mbxSendAll_else (ws : List Word) (d : Dev) (c side : Nat) : MbxElse d (d.mbxSendAll c side ws) c := by
  induction ws generalizing d with
  | nil => exact MbxElse.refl d c
  | cons w ws ih => exact (d.mbxSend_else c side w).trans (ih _)

theorem Dev.mbxSendAll_gar (ws : List Word) (d : Dev) (c side : Nat) : (d.mbxSendAll c side ws).gar = d.gar := by
  induction ws generalizing d with
  | nil => rfl
  | cons w ws ih => exact (ih _).trans (d.mbxSend_gar c side w)

theorem Dev.sendHeld_else (d : Dev) (c : Nat) : MbxElse d (d.sendHeld c) c := by
  rw [Dev.sendHeld]
  split
  · exact MbxElse.refl d c
  · split
    · exact MbxElse.trans (e := d.setGar c _) (fun _ _ => rfl) (Dev.mbxSendAll_else _ _ _ _)
    · exact MbxElse.refl d c

theorem Dev.sendHeld_quiet (d : Dev) (c : Nat) : Quiet d (d.sendHeld c) := by
  rw [Dev.sendHeld]
  split
  · exact Quiet.refl d
  · exact Quiet.ite _ (fun _ => (d.setGar_quiet c _).trans (Dev.mbxSendAll_quiet _ _ _ _)) fun _ => Quiet.refl d

theorem Dev.sendHeld_none {d : Dev} {c : Nat} (h : (d.garS c).held = []) : d.sendHeld c = d := by
  rw [Dev.sendHeld]
  exact if_pos h

end Sys2Proof.Machine
end

section
/-! PROOFS. Mailboxes, locks and windows: rights, bindings and words of channels (R409 to R413); releases of locks, and windows taken, given
and freed (R418, R420, R422). -/

namespace Sys2Proof.Machine

/-! ### Where the registers stand -/

/-- A write in a block that runs on the device's own time is the block's, in a replay too (R464). -/
theorem Dev.pWrite_own {d : Dev} {a : Nat} {b : Block} {i off : Nat} (h : Placed d a b i off) (hb : onRtBlock b = false)
    (he : engineInput b off = false) (mid : Nat) (w : Word) : d.pWrite mid a w = d.routeWrite mid b i off a w := by
  obtain ⟨hinfo, rfl, hthere, hpresent, hbeyond⟩ := h
  rw [← Dev.pWriteIn_block hinfo hthere hpresent hbeyond he mid w]
  simp only [Dev.pWrite, hinfo, hb, Bool.false_eq_true, if_false]

section
variable {d : Dev} {c k : Nat}

theorem placed_mbx (hc : c < 32) (hk : k < 8) : Placed d (R.MBX_BIND c + 4 * k) .mbxB 0 (0x100 + 0x20 * c + 4 * k) := by
  have hpage : pageOf (R.MBX_BIND c + 4 * k) = 0x10 := by
    simp only [R.MBX_BIND, pageOf]
    omega
  exact ⟨by rw [hpage]; rfl, by simp only [R.MBX_BIND, offOf]; omega, rfl, rfl, by omega⟩

/-- A write of a word of a channel. -/
theorem Dev.unitWrite_mbx (d : Dev) (hc : c < 32) (hk : k < 8) (mid : Nat) (w : Word) : d.unitWrite 32 c mid (R.MBX_BIND c + 4 * k) w =
    d.mbxPageWrite mid (0x100 + 0x20 * c + 4 * k) (R.MBX_BIND c + 4 * k) w :=
  (d.unitWrite_in hc _ _ _).trans (Dev.pWrite_own (placed_mbx hc hk) rfl rfl mid w)

/-- Channel and word of an offset in the MBX page. -/
theorem mbxWord_of (hk : k < 8) : (0x100 + 0x20 * c + 4 * k - 0x100) / 0x20 = c ∧ (0x100 + 0x20 * c + 4 * k - 0x100) % 0x20 = 4 * k := by
  omega

theorem Dev.unitWrite_mbxBind (d : Dev) (hc : c < 32) (mid : Nat) (w : Word) :
    d.unitWrite 32 c mid (R.MBX_BIND c) w = d.mbxBindWrite mid c w := by
  refine (d.unitWrite_mbx hc (k := 0) (by omega) mid w).trans ?_
  obtain ⟨hchan, hword⟩ := mbxWord_of (c := c) (k := 0) (by omega)
  rw [Dev.mbxPageWrite, hchan, hword, if_neg (by omega), if_neg (by omega), if_pos rfl]

theorem Dev.unitWrite_mbxData (d : Dev) (hc : c < 32) (mid : Nat) (w : Word) :
    d.unitWrite 32 c mid (R.MBX_DATA c) w = d.mbxSendCmd mid c w := by
  have ha : R.MBX_DATA c = R.MBX_BIND c + 4 * 1 := by
    simp only [R.MBX_DATA, R.MBX_BIND]
    omega
  obtain ⟨hchan, hword⟩ := mbxWord_of (c := c) (k := 1) (by omega)
  rw [ha, d.unitWrite_mbx hc (by omega), Dev.mbxPageWrite, hchan, hword, if_neg (by omega), if_neg (by omega), if_neg (by decide), if_pos rfl]

theorem Dev.unitWrite_mbxFlush (d : Dev) (hc : c < 32) (mid : Nat) : d.unitWrite 32 c mid (R.MBX_CTRL c) 1 = d.mbxFlush mid c := by
  have ha : R.MBX_CTRL c = R.MBX_BIND c + 4 * 4 := by
    simp only [R.MBX_CTRL, R.MBX_BIND]
    omega
  obtain ⟨hchan, hword⟩ := mbxWord_of (c := c) (k := 4) (by omega)
  rw [ha, d.unitWrite_mbx hc (by omega), Dev.mbxPageWrite, hchan, hword, if_neg (by omega), if_neg (by omega), if_neg (by decide),
    if_neg (by decide), if_neg (by decide), if_neg (by decide), if_pos (by decide)]

theorem Dev.pWrite_mbxRights (d : Dev) (mid : Nat) (w : Word) : d.pWrite mid R.MBX_RIGHTS w = d.mbxRightsWrite mid w := by
  have hplaced : Placed d R.MBX_RIGHTS .mbxB 0 0x40 := ⟨rfl, rfl, rfl, rfl, by omega⟩
  refine (Dev.pWrite_own hplaced rfl rfl mid w).trans ?_
  change d.mbxPageWrite mid 0x40 R.MBX_RIGHTS w = _
  rw [Dev.mbxPageWrite, if_pos rfl]

end

/-! ### Rights (R409) -/

theorem Dev.rightsOk_of {d e : Dev} (hs : e.devState = d.devState) (hr : e.rpl = d.rpl) (hn : e.nv = d.nv) (mid : Nat) (w : Word) :
    e.rightsOk mid w = d.rightsOk mid w := by
  rw [Dev.rightsOk, Dev.rightsOk, Dev.inConfigure, Dev.inConfigure, hs, hr, hn]

theorem Dev.absentWrite_reg (d : Dev) (mid page : Nat) {a : Nat} (ha : a ≠ R.SYS_ABSENT_CNT) : (d.absentWrite mid page).reg a = d.reg a := by
  rw [Dev.absentWrite]
  split
  · rw [Dev.reg_put_ne _ _ _ ha, Dev.putB, Dev.reg_put_ne _ _ _ ha, Dev.bump, Dev.addSat, Dev.reg_put_ne _ _ _ ha]
    rfl
  · rw [Dev.putB, Dev.reg_put_ne _ _ _ ha, Dev.bump, Dev.addSat, Dev.reg_put_ne _ _ _ ha]
    rfl

theorem Dev.rightsOk_noteHostRight (d : Dev) (mid : Nat) (w : Word) : (d.noteHostRight mid w).rightsOk mid w = d.rightsOk mid w := by
  rw [Dev.noteHostRight]
  split
  · refine Dev.rightsOk_of (Dev.get_of_reg (d.absentWrite_reg _ _ (by decide)) _) ?_ ?_ mid w
    · rw [Dev.absentWrite]
      split <;> rfl
    · rw [Dev.absentWrite]
      split <;> rfl
  · rfl

theorem Dev.mbxRightsWrite_eq (d : Dev) (mid : Nat) (w : Word) : d.mbxRightsWrite mid w =
    if d.rightsOk mid w then (d.noteHostRight mid w).setRights w else (d.noteHostRight mid w).deny Pg.MBX := by
  rw [← d.rightsOk_noteHostRight mid w]
  rfl

/-! ### Bindings (R410) -/

/-- The masters that R408 gives the shared pages. -/
theorem Dev.sharedOk_lt {d : Dev} {mid : Nat} (h : d.sharedOk mid = true) : mid < 15 := by
  rw [Dev.sharedOk, Bool.or_eq_true, beq_iff_eq, Dev.asS0] at h
  obtain h | rfl := h
  · split at h
    · next hm => exact hm ▸ by decide
    · split at h
      · next hm => exact hm ▸ by decide
      · split at h
        · next hm => exact hm ▸ by decide
        · split at h
          · next hm => exact hm ▸ by decide
          · cases h
  · decide

/-- A binding written: both masters, whether it is recorded, valid or not, its owner, the result. -/
def Dev.bindingPut (d : Dev) (c a b owner res : Nat) (rc v : Bool) : Dev :=
  let r := R.MBX_BIND c
  let d := (d.put r F.MBX_BIND_MID_A a).put r F.MBX_BIND_MID_B b
  let d := ((d.putB r F.MBX_BIND_REC rc).putB r F.MBX_BIND_VALID v).put r F.MBX_BIND_OWNER owner
  d.put r F.MBX_BIND_RESULT res

theorem Dev.bindingPut_spec (d : Dev) (c : Nat) {a b owner res : Nat} (rc v : Bool) (ha : a < 16) (hb : b < 16) (ho : owner < 16) (hr : res < 4) :
    FrameOn noPart [R.MBX_BIND c] d (d.bindingPut c a b owner res rc v) ∧
    (d.bindingPut c a b owner res rc v).get (R.MBX_BIND c) F.MBX_BIND_MID_A = a ∧
    (d.bindingPut c a b owner res rc v).get (R.MBX_BIND c) F.MBX_BIND_MID_B = b ∧
    (d.bindingPut c a b owner res rc v).get (R.MBX_BIND c) F.MBX_BIND_OWNER = owner ∧
    (d.bindingPut c a b owner res rc v).flag (R.MBX_BIND c) F.MBX_BIND_VALID = v ∧
    (d.bindingPut c a b owner res rc v).get (R.MBX_BIND c) F.MBX_BIND_RESULT = res ∧
    (d.bindingPut c a b owner res rc v).flag (R.MBX_BIND c) F.MBX_BIND_REC = rc ∧
    ∀ j, (d.bindingPut c a b owner res rc v).mbxS j = d.mbxS j := by
  have hp := noPart_part
  have hm : R.MBX_BIND c ∈ [R.MBX_BIND c] := List.mem_singleton_self _
  have hset : ∀ (e : Dev) (f : RField) (x : Bool), fieldWidth f = 1 → f.lo < 32 → (e.put (R.MBX_BIND c) f (b2n x)).flag (R.MBX_BIND c) f = x :=
    fun e f x h1 h2 => e.flag_putB_self _ _ x h1 h2
  have hA : a % 2 ^ fieldWidth F.MBX_BIND_MID_A = a := Nat.mod_eq_of_lt ha
  have hB : b % 2 ^ fieldWidth F.MBX_BIND_MID_B = b := Nat.mod_eq_of_lt hb
  have hO : owner % 2 ^ fieldWidth F.MBX_BIND_OWNER = owner := Nat.mod_eq_of_lt ho
  have hR : res % 2 ^ fieldWidth F.MBX_BIND_RESULT = res := Nat.mod_eq_of_lt hr
  refine ⟨((((((FrameOn.refl hp _ d).put hp _ _ hm).put hp _ _ hm).putB hp _ _ hm).putB hp _ _ hm).put hp _ _ hm).put hp _ _ hm,
    ?_, ?_, ?_, ?_, ?_, ?_, fun j => ?_⟩ <;> rw [Dev.bindingPut]
  · simp (disch := decide) only [Dev.putB, Dev.get_put_field, Dev.get_put_self, hA]
  · simp (disch := decide) only [Dev.putB, Dev.get_put_field, Dev.get_put_self, hB]
  · simp (disch := decide) only [Dev.putB, Dev.get_put_field, Dev.get_put_self, hO]
  · simp (disch := decide) only [Dev.putB, Dev.flag_put_field, hset]
  · simp (disch := decide) only [Dev.putB, Dev.get_put_self, hR]
  · simp (disch := decide) only [Dev.putB, Dev.flag_put_field, hset]
  · simp only [Dev.putB, Dev.mbxS_put]

section
variable {d : Dev} {mid c : Nat} {w : Word}

theorem bindable_15 : bindable 15 = false := rfl

/-- What R410 asks of a binding, with its outcome. -/
theorem Dev.mbxBindWrite_bind (hs : d.sharedOk mid = true) (hst : d.inConfigure = true ∨ (d.devState = DS.BOOT ∧ mid = Mid.S0))
    (hv : d.flag (R.MBX_BIND c) F.MBX_BIND_VALID = false) (hne : getF w F.MBX_BIND_MID_A ≠ getF w F.MBX_BIND_MID_B)
    (ha : bindable (getF w F.MBX_BIND_MID_A) = true) (hb : bindable (getF w F.MBX_BIND_MID_B) = true)
    (hma : mastAbsent d.member (getF w F.MBX_BIND_MID_A) = false) (hmb : mastAbsent d.member (getF w F.MBX_BIND_MID_B) = false) :
    d.mbxBindWrite mid c w = d.bindingPut c (getF w F.MBX_BIND_MID_A) (getF w F.MBX_BIND_MID_B) mid 1 (bitOf w 29) true := by
  have hstates : (d.inConfigure || (d.devState == DS.BOOT && mid == Mid.S0)) = true := by
    obtain h | ⟨h1, h2⟩ := hst
    · rw [h, Bool.true_or]
    · rw [h1, h2, Bool.or_eq_true]
      exact .inr rfl
  have h15 : ¬(getF w F.MBX_BIND_MID_A = 0xF ∧ getF w F.MBX_BIND_MID_B = 0xF) := fun h => hne (h.1.trans h.2.symm)
  rw [Dev.mbxBindWrite, hs, hstates, hv, ha, hb, hma, hmb, if_neg (by decide), if_neg h15, if_neg (by decide), if_neg (by simpa using hne),
    if_neg (by decide)]
  rfl

/-- The owner's unbinding of a channel (R410). -/
theorem Dev.mbxBindWrite_unbind (hs : d.sharedOk mid = true) (hst : d.inConfigure = true)
    (hv : d.flag (R.MBX_BIND c) F.MBX_BIND_VALID = true) (hlk : d.flag (R.MBX_BIND c) F.MBX_BIND_LOCKED = false)
    (ho : d.get (R.MBX_BIND c) F.MBX_BIND_OWNER = mid) : d.mbxBindWrite mid c 0xFF = d.unbindChannel c := by
  have h15 : getF (0xFF : Word) F.MBX_BIND_MID_A = 0xF ∧ getF (0xFF : Word) F.MBX_BIND_MID_B = 0xF := by decide
  rw [Dev.mbxBindWrite, hs, hst, hv, hlk, Bool.true_or, if_neg (by decide), if_pos h15, if_neg (by decide), if_neg (by decide), if_pos ⟨ho, rfl⟩]

/-- Both queues of a channel emptied, the one that was full shown so. -/
def Dev.queuesEmptied (d : Dev) (c : Nat) : Dev :=
  (d.setMbx c { d.mbxS c with ab := [], ba := [] }).raiseIf
    (decide ((d.mbxS c).ab.length = 8) || decide ((d.mbxS c).ba.length = 8)) Pg.MBX Ev.MBX_SPACE

theorem Dev.unbindChannel_eq (d : Dev) (c : Nat) : d.unbindChannel c = (d.queuesEmptied c).bindingPut c 0xF 0xF 0xF 0 false false := rfl

/-- Space shown where a queue was full (R411). -/
theorem Dev.spaceIf_spec (d : Dev) (c : Nat) (q : MbxSt) (full : Bool) :
    Quiet d ((d.setMbx c q).raiseIf full Pg.MBX Ev.MBX_SPACE) ∧ MbxElse d ((d.setMbx c q).raiseIf full Pg.MBX Ev.MBX_SPACE) c ∧
    ((d.setMbx c q).raiseIf full Pg.MBX Ev.MBX_SPACE).mbxS c = q ∧
    ((d.setMbx c q).raiseIf full Pg.MBX Ev.MBX_SPACE).gar = d.gar ∧
    (full = true → Raised ((d.setMbx c q).raiseIf full Pg.MBX Ev.MBX_SPACE) Pg.MBX Ev.MBX_SPACE) := by
  have hmail := (d.setMbx c q).raiseIf_mail full Pg.MBX (src := Ev.MBX_SPACE) rfl
  refine ⟨(d.setMbx_quiet c q).trans (Dev.raiseIf_quiet _ _ _ _), (d.setMbx_else c q).trans (hmail.mbxElse c), ?_, hmail.gar, fun h => ?_⟩
  · rw [hmail.mbxS, Dev.mbxS_setMbx_self]
  · rw [Dev.raiseIf, if_pos h]
    exact Dev.raise_raised _ rfl

theorem or_length_eq (q : MbxSt) : q.ab.length = 8 ∨ q.ba.length = 8 → (decide (q.ab.length = 8) || decide (q.ba.length = 8)) = true := by
  intro h
  rw [Bool.or_eq_true, decide_eq_true_iff, decide_eq_true_iff]
  exact h

/-! ### Words (R411, R412) -/

theorem Dev.mbxSendCmd_spec (hside : d.mbxSide c mid ≠ 0) (hs : d.sharedOk mid = true) :
    d.mbxSendCmd mid c w = d.mbxSend c (d.mbxSide c mid) w := by
  rw [Dev.mbxSendCmd, hs]
  exact if_neg (by simpa using hside)

theorem Dev.mbxSend_raised_rx {side : Nat} (hout : (d.mbxS c).out side = []) : Raised (d.mbxSend c side w) Pg.MBX Ev.MBX_RX := by
  have hlt : ((d.mbxS c).out side).length < 8 := by
    rw [hout]
    decide
  have hempty : ((d.mbxS c).out side).isEmpty = true := by
    rw [hout]
    rfl
  rw [Dev.mbxSend_push _ _ _ _ hlt, if_pos hempty]
  exact Dev.raiseR_raised _ rfl

theorem Dev.mbxReceive_empty (hside : d.mbxSide c mid ≠ 0) (hin : (d.mbxS c).inq (d.mbxSide c mid) = []) :
    d.mbxReceive mid c = (d.setMbx c ((d.mbxS c).markEmpty (d.mbxSide c mid))).answer mid 0 := by
  simp only [Dev.mbxReceive, if_neg hside, hin]

/-- A word taken from a queue, and what that shows. -/
def Dev.wordTaken (d : Dev) (mid c side : Nat) (x : Word) (n : Nat) : Dev :=
  ((d.setMbx c ((d.mbxS c).pop side)).answer mid x).raiseIf (decide (n = 7)) Pg.MBX Ev.MBX_SPACE

theorem Dev.mbxReceive_word {x : Word} {l : List Word} (hside : d.mbxSide c mid ≠ 0) (hin : (d.mbxS c).inq (d.mbxSide c mid) = x :: l) :
    d.mbxReceive mid c = if d.mbxSide c mid = 2 then (d.wordTaken mid c (d.mbxSide c mid) x l.length).sendHeld c
      else d.wordTaken mid c (d.mbxSide c mid) x l.length := by
  simp only [Dev.mbxReceive, if_neg hside, hin]
  rfl

/-- Answers aside. -/
def rdataPart (d e : Dev) : Dev := { d with rdata := e.rdata }

theorem rdataPart_part : Part rdataPart := ⟨fun _ => rfl, fun _ _ _ => rfl, fun _ _ => rfl, fun _ _ _ => rfl⟩

/-- What is left of a chain that answers and delivers events. -/
theorem Quiet.answered {d e f : Dev} (h : Quiet d e) {mid : Nat} {x : Word} (k : Quiet (e.answer mid x) f) :
    Quiet { d with rdata := f.rdata } f ∧ f.answered mid = x := by
  have hrd : f.rdata = (e.answer mid x).rdata := k.rdata
  refine ⟨⟨?_, fun a ha => (k.2.1 a ha).trans (h.2.1 a ha), fun p i hb => k.2.2 p i (h.2.2 p i hb)⟩, ?_⟩
  · rw [hrd]
    exact k.1.trans (congrArg (fun y : Dev => { y with rdata := (e.answer mid x).rdata }) h.1)
  · rw [Dev.answered, hrd]
    exact Dev.answered_answer e mid x

theorem Dev.wordTaken_spec (d : Dev) (mid c side : Nat) (x : Word) (n : Nat) :
    Quiet ((d.setMbx c ((d.mbxS c).pop side)).answer mid x) (d.wordTaken mid c side x n) ∧ MbxElse d (d.wordTaken mid c side x n) c ∧
    (d.wordTaken mid c side x n).mbxS c = (d.mbxS c).pop side ∧ (d.wordTaken mid c side x n).gar = d.gar ∧
    (n = 7 → Raised (d.wordTaken mid c side x n) Pg.MBX Ev.MBX_SPACE) := by
  have hmail := ((d.setMbx c ((d.mbxS c).pop side)).answer mid x).raiseIf_mail (decide (n = 7)) Pg.MBX (src := Ev.MBX_SPACE) rfl
  refine ⟨Dev.raiseIf_quiet _ _ _ _, fun j hj => ?_, ?_, hmail.gar, fun hn => ?_⟩
  · exact (hmail.mbxS j).trans (d.setMbx_else c _ j hj)
  · exact (hmail.mbxS c).trans (d.mbxS_setMbx_self c _)
  · rw [Dev.wordTaken, Dev.raiseIf, if_pos (decide_eq_true hn)]
    exact Dev.raise_raised _ rfl

theorem Dev.mbxFlush_owner (hv : d.flag (R.MBX_BIND c) F.MBX_BIND_VALID = true) (ho : d.get (R.MBX_BIND c) F.MBX_BIND_OWNER = mid)
    (hs : d.sharedOk mid = true) : d.mbxFlush mid c =
      ((d.setMbx c { d.mbxS c with ab := lastN (d.sentNow c 1) (d.mbxS c).ab, ba := lastN (d.sentNow c 2) (d.mbxS c).ba }).raiseIf
        (decide ((d.mbxS c).ab.length = 8) || decide ((d.mbxS c).ba.length = 8)) Pg.MBX Ev.MBX_SPACE).sendHeld c := by
  rw [Dev.mbxFlush, hv, ho, hs, beq_self_eq_true]
  rfl

end

/-- Settles O40. -/
theorem mailboxes : Obligations.Mailboxes := by
  intro s mid c w hup hc
  refine ⟨fun h => ?_, fun h => ?_, fun hs hst hv hne ha hb hma hmb => ?_, fun hs hst hv hlk ho => ?_, fun hside hs => ?_,
    fun hside hin => ?_, fun x l hside hin => ?_, fun hv ho hs => ?_⟩
  · exact onDev_eq hup (by rw [Dev.pWrite_mbxRights, Dev.mbxRightsWrite_eq, if_pos h])
  · exact onDev_eq hup (by rw [Dev.pWrite_mbxRights, Dev.mbxRightsWrite_eq, h, if_neg (by decide)])
  · have hlt := Dev.sharedOk_lt hs
    obtain ⟨hframe, hA, hB, hO, hV, hR, hrec, hmbx⟩ := s.dev.bindingPut_spec c (a := getF w F.MBX_BIND_MID_A)
      (b := getF w F.MBX_BIND_MID_B) (owner := mid) (res := 1) (bitOf w 29) true (getF_lt _ _) (getF_lt _ _) (by omega) (by omega)
    exact ⟨_, onDev_eq hup ((s.dev.unitWrite_mbxBind hc mid w).trans (Dev.mbxBindWrite_bind hs hst hv hne ha hb hma hmb)),
      hframe, ⟨hA, hB, hO, hV, hR⟩, hrec, hmbx⟩
  · obtain ⟨hq, helse, hown, -, hspace⟩ := s.dev.spaceIf_spec c { s.dev.mbxS c with ab := [], ba := [] }
      (decide ((s.dev.mbxS c).ab.length = 8) || decide ((s.dev.mbxS c).ba.length = 8))
    have hunbind := (s.dev.unitWrite_mbxBind hc mid 0xFF).trans (Dev.mbxBindWrite_unbind hs hst hv hlk ho)
    rw [Dev.unbindChannel_eq] at hunbind
    change Quiet _ (s.dev.queuesEmptied c) at hq
    change MbxElse _ (s.dev.queuesEmptied c) c at helse
    change (s.dev.queuesEmptied c).mbxS c = _ at hown
    change _ → Raised (s.dev.queuesEmptied c) _ _ at hspace
    generalize s.dev.queuesEmptied c = e at hunbind hq helse hown hspace
    obtain ⟨hframe, hA, hB, hO, hV, hR, -, hmbx⟩ := e.bindingPut_spec c (a := 0xF) (b := 0xF) (owner := 0xF) (res := 0) false false
      (by omega) (by omega) (by omega) (by omega)
    refine ⟨_, onDev_eq hup hunbind, ((FrameOn.refl noPart_part _ s.dev).quiet noPart_part hq).trans noPart_part hframe,
      ⟨hA, hB, hO, hV, hR⟩, fun j hj => (hmbx j).trans (helse j hj), (hmbx c).trans hown, fun h => ?_⟩
    refine hframe.raised noPart_part ?_ (hspace (or_length_eq _ h))
    simp only [List.mem_singleton, R.PG_EVT_RAW, pageBase, Pg.MBX, R.MBX_BIND]
    omega
  · refine ⟨_, onDev_eq hup ((s.dev.unitWrite_mbxData hc mid w).trans (Dev.mbxSendCmd_spec hside hs)), Dev.mbxSend_quiet _ _ _ _,
      Dev.mbxSend_else _ _ _ _, fun hlt => ⟨?_, Dev.mbxSend_raised_rx⟩, fun hge => ⟨?_, ?_, ?_⟩⟩
    · rw [Dev.mbxSend_mbxS, if_pos rfl, if_pos hlt]
    · rw [Dev.mbxSend_mbxS, if_pos rfl, if_neg (by omega)]
    · rw [Dev.mbxSend_full _ _ _ _ hge]
      exact Dev.sendFull_fullf _ _ _ _ hc
    · rw [Dev.mbxSend_full _ _ _ _ hge]
      exact Dev.raiseR_raised _ rfl
  · obtain ⟨hq, hans⟩ := (s.dev.setMbx_quiet c ((s.dev.mbxS c).markEmpty (s.dev.mbxSide c mid))).answered (mid := mid) (x := 0) (Quiet.refl _)
    exact ⟨_, onDev_eq hup ((if_pos hc).trans (Dev.mbxReceive_empty hside hin)), hq, s.dev.setMbx_else c _, hans, s.dev.mbxS_setMbx_self c _⟩
  · have hcmd := Dev.mbxReceive_word hside hin
    obtain ⟨hq, helse, hown, hgar, hspace⟩ := s.dev.wordTaken_spec mid c (s.dev.mbxSide c mid) x l.length
    generalize s.dev.wordTaken mid c (s.dev.mbxSide c mid) x l.length = e at hcmd hq helse hown hgar hspace
    have hset := s.dev.setMbx_quiet c ((s.dev.mbxS c).pop (s.dev.mbxSide c mid))
    by_cases h2 : s.dev.mbxSide c mid = 2
    · rw [if_pos h2] at hcmd
      obtain ⟨hquiet, hans⟩ := hset.answered (hq.trans (e.sendHeld_quiet c))
      refine ⟨_, onDev_eq hup ((if_pos hc).trans hcmd), hquiet, helse.trans (e.sendHeld_else c), hans, fun h => ?_,
        fun h => (e.sendHeld_quiet c).raised (hspace h)⟩
      obtain h | h := h
      · rw [h] at h2
        cases h2
      · rw [Dev.sendHeld_none (by rw [Dev.garS, hgar]; exact h), hown]
    · rw [if_neg h2] at hcmd
      obtain ⟨hquiet, hans⟩ := hset.answered hq
      exact ⟨_, onDev_eq hup ((if_pos hc).trans hcmd), hquiet, helse, hans, fun _ => hown, hspace⟩
  · have hcmd := (s.dev.unitWrite_mbxFlush hc mid).trans (Dev.mbxFlush_owner hv ho hs)
    obtain ⟨hq, helse, hown, hgar, hspace⟩ := s.dev.spaceIf_spec c
      { s.dev.mbxS c with ab := lastN (s.dev.sentNow c 1) (s.dev.mbxS c).ab, ba := lastN (s.dev.sentNow c 2) (s.dev.mbxS c).ba }
      (decide ((s.dev.mbxS c).ab.length = 8) || decide ((s.dev.mbxS c).ba.length = 8))
    refine ⟨_, onDev_eq hup hcmd, hq.trans (Dev.sendHeld_quiet _ c), helse.trans (Dev.sendHeld_else _ c), fun h => ?_,
      fun h => (Dev.sendHeld_quiet _ c).raised (hspace (or_length_eq _ h))⟩
    rw [Dev.sendHeld_none (by rw [Dev.garS, hgar]; exact h), hown]

end Sys2Proof.Machine
end

section
/-! PROOFS. Locks freed; windows taken, given and freed (R418, R420, R422). -/

namespace Sys2Proof.Machine

/-! ### Locks -/

/-- Locks aside. -/
def lckPart (d e : Dev) : Dev := { d with lck := e.lck }

theorem lckPart_part : Part lckPart := ⟨fun _ => rfl, fun _ _ _ => rfl, fun _ _ => rfl, fun _ _ _ => rfl⟩

section
variable {d : Dev} {mid n : Nat}

theorem placed_lckLock (hn : n < 64) : Placed d (R.LCK_LOCK n) .lckB 0 (0x100 + 4 * n) :=
  ⟨by rw [pageOf_lckLock hn]; rfl, offOf_lckLock hn, rfl, rfl, by omega⟩

theorem Dev.unitWrite_lckLock (d : Dev) (hn : n < 64) (mid : Nat) : d.unitWrite 64 n mid (R.LCK_LOCK n) 0 = d.lockRelease mid n := by
  have hidx : (0x100 + 4 * n - 0x100) / 4 = n := by omega
  rw [d.unitWrite_in hn, Dev.pWrite_own (placed_lckLock hn) rfl rfl]
  change d.lckPageWrite mid (0x100 + 4 * n) (R.LCK_LOCK n) 0 = _
  rw [Dev.lckPageWrite, if_neg (by omega), if_pos (by omega), if_pos rfl, hidx]

theorem Dev.unitWrite_lckForce (d : Dev) (hn : n < 64) (mid : Nat) :
    d.unitWrite 64 n mid R.LCK_FORCE (BitVec.ofNat 32 n) = d.lockForce mid n := by
  have hplaced : Placed d R.LCK_FORCE .lckB 0 0x40 := ⟨rfl, rfl, rfl, rfl, by omega⟩
  have hidx : (BitVec.ofNat 32 n).toNat % 64 = n := by
    rw [BitVec.toNat_ofNat]
    omega
  rw [d.unitWrite_in hn, Dev.pWrite_own hplaced rfl rfl]
  change d.lckPageWrite mid 0x40 R.LCK_FORCE (BitVec.ofNat 32 n) = _
  rw [Dev.lckPageWrite, if_pos rfl, hidx]

theorem Dev.lockFree_spec (d : Dev) (n h : Nat) : Quiet { d with lck := (d.lockFree n h).lck } (d.lockFree n h) ∧
    (d.lockFree n h).lckS n = none ∧ (∀ j, j ≠ n → (d.lockFree n h).lckS j = d.lckS j) ∧ (d.lockFree n h).lockNow n = some h := by
  have hlck : ∀ j, (d.lockFree n h).lckS j = (d.setLck n none).lckS j := fun _ => rfl
  have hcyc : (d.lockFree n h).cycS = { d.cycS with rel := (n, h) :: d.cycS.rel } := Dev.cycS_setCyc (d.setLck n none) d.cycS_at1
  refine ⟨Quiet.of_regs rfl fun a => d.reg_setLck a n none, ?_, fun j hj => ?_, ?_⟩
  · rw [hlck, Dev.lckS_setLck_self]
  · rw [hlck, Dev.lckS_setLck, if_neg hj]
  · rw [Dev.lockNow, hcyc, List.lookup_cons_self]
    rfl

theorem Dev.lockRelease_holder (hh : d.lckS n = some mid) (hs : d.sharedOk mid = true) : d.lockRelease mid n = d.lockFree n mid :=
  if_pos ⟨hh, hs⟩

theorem Dev.lockRelease_other (hh : d.lckS n ≠ some mid) : d.lockRelease mid n = d.deny Pg.LCK := if_neg fun h => hh h.1

/-- A lock forced free, counted and shown (R418). -/
def Dev.lockForced (d : Dev) (n h : Nat) : Dev :=
  (((d.lockFree n h).bump R.LCK_STAT F.LCK_STAT_FORCED_CNT).put R.LCK_STAT F.LCK_STAT_LAST_HOLDER h).put R.LCK_STAT F.LCK_STAT_LAST_LOCK n

theorem Dev.lockForce_held {h : Nat} (hk : d.keyOpenFor Pg.LCK Mid.S0 = true) (hh : d.lckS n = some h) :
    d.lockForce Mid.S0 n = (d.lockForced n h).raiseN Pg.LCK Ev.LOCK_FORCED n := by
  simp only [Dev.lockForce, hk, hh]
  exact if_pos ⟨trivial, trivial⟩

theorem Dev.lockForce_free (hk : d.keyOpenFor Pg.LCK Mid.S0 = true) (hh : d.lckS n = none) : d.lockForce Mid.S0 n = d := by
  simp only [Dev.lockForce, hk, hh]
  exact if_pos ⟨trivial, trivial⟩

theorem Dev.lockForced_spec (d : Dev) (hn : n < 64) (h : Nat) : FrameOn lckPart [R.LCK_STAT] d (d.lockForced n h) ∧
    (d.lockForced n h).lckS n = none ∧ (∀ j, j ≠ n → (d.lockForced n h).lckS j = d.lckS j) ∧
    Counted d (d.lockForced n h) R.LCK_STAT F.LCK_STAT_FORCED_CNT ∧ (d.lockForced n h).get R.LCK_STAT F.LCK_STAT_LAST_HOLDER = h % 16 ∧
    (d.lockForced n h).get R.LCK_STAT F.LCK_STAT_LAST_LOCK = n := by
  obtain ⟨hq, hown, hoth, -⟩ := d.lockFree_spec n h
  have hreg : (d.lockFree n h).reg R.LCK_STAT = d.reg R.LCK_STAT := d.reg_setLck _ n none
  have hframe : FrameOn lckPart [R.LCK_STAT] d (d.lockFree n h) := Frame.of_quiet hq _
  rw [Dev.lockForced, Counted]
  generalize d.lockFree n h = e at *
  have hm : R.LCK_STAT ∈ [R.LCK_STAT] := List.mem_singleton_self _
  have hp := lckPart_part
  have hlck : ∀ f : Dev, ∀ (a : Nat) (g : RField) (v j : Nat), (f.put a g v).lckS j = f.lckS j := fun f a g v j => f.lckS_put _ _ _ _
  refine ⟨((hframe.bump hp _ hm).put hp _ _ hm).put hp _ _ hm, ?_, fun j hj => ?_, ?_, ?_, ?_⟩
  · rw [hlck, hlck, Dev.bump, Dev.addSat, hlck, hown]
  · rw [hlck, hlck, Dev.bump, Dev.addSat, hlck, hoth j hj]
  · rw [Dev.get_put_field _ _ _ _ _ _ (by decide), Dev.get_put_field _ _ _ _ _ _ (by decide), Dev.bump, Dev.addSat,
      Dev.get_put_self _ _ _ _ (by decide), Dev.get_of_reg hreg]
    exact Nat.mod_eq_of_lt (by rw [show fieldWidth F.LCK_STAT_FORCED_CNT = 8 from rfl]; omega)
  · rw [Dev.get_put_field _ _ _ _ _ _ (by decide), Dev.get_put_self _ _ _ _ (by decide)]
    rfl
  · rw [Dev.get_put_self _ _ _ _ (by decide)]
    exact Nat.mod_eq_of_lt hn

/-! ### Windows -/

theorem winOwn_lt (d : Dev) (n : Nat) : d.winOwner n < 16 := getF_lt _ _

/-- OWNER, PREV and GEN of a window whose owner changes (R420). -/
def Dev.winPut (d : Dev) (n o old : Nat) : Dev :=
  let d := (d.put (R.WIN_OWN n) F.WIN_OWN_OWNER o).put (R.WIN_OWN n) F.WIN_OWN_PREV old
  d.put (R.WIN_OWN n) F.WIN_OWN_GEN ((d.get (R.WIN_OWN n) F.WIN_OWN_GEN + 1) % 65536)

theorem Dev.winPut_spec (d : Dev) (n : Nat) {o old : Nat} (ho : o < 16) (hold : old < 16) :
    FrameOn noPart [R.WIN_OWN n] d (d.winPut n o old) ∧ (d.winPut n o old).winOwner n = o ∧
    (d.winPut n o old).get (R.WIN_OWN n) F.WIN_OWN_PREV = old ∧
    (d.winPut n o old).get (R.WIN_OWN n) F.WIN_OWN_GEN = (d.get (R.WIN_OWN n) F.WIN_OWN_GEN + 1) % 65536 := by
  have hp := noPart_part
  have hm : R.WIN_OWN n ∈ [R.WIN_OWN n] := List.mem_singleton_self _
  refine ⟨((FrameOn.refl hp _ d).put hp _ _ hm).put hp _ _ hm |>.put hp _ _ hm, ?_, ?_, ?_⟩
  · rw [Dev.winOwner, Dev.winPut, Dev.get_put_field _ _ _ _ _ _ (by decide), Dev.get_put_field _ _ _ _ _ _ (by decide),
      Dev.get_put_self _ _ _ _ (by decide)]
    exact Nat.mod_eq_of_lt ho
  · rw [Dev.winPut, Dev.get_put_field _ _ _ _ _ _ (by decide), Dev.get_put_self _ _ _ _ (by decide)]
    exact Nat.mod_eq_of_lt hold
  · rw [Dev.winPut, Dev.get_put_self _ _ _ _ (by decide), Dev.get_put_field _ _ _ _ _ _ (by decide),
      Dev.get_put_field _ _ _ _ _ _ (by decide)]
    exact Nat.mod_eq_of_lt (Nat.mod_lt _ (by decide))

/-- The note of the bus cycle that a window's owner has changed (R422). -/
def Dev.winNoted (d : Dev) (n : Nat) : Dev :=
  d.setCyc { d.cycS with own := if (d.cycS.own.lookup n).isSome then d.cycS.own else (n, d.winOwner n) :: d.cycS.own }

theorem Dev.winSet_ne {o : Nat} (h : o ≠ d.winOwner n) : d.winSet n o = (d.winNoted n).winPut n o (d.winOwner n) := by
  have hne : ¬o = d.get (R.WIN_OWN n) F.WIN_OWN_OWNER := h
  rw [Dev.winSet, if_neg hne]
  rfl

theorem Dev.winSet_spec {o : Nat} (ho : o < 16) (h : o ≠ d.winOwner n) : FrameOn noPart [R.WIN_OWN n] d (d.winSet n o) ∧ WinNow d (d.winSet n o) n o := by
  rw [Dev.winSet_ne h]
  have hq : Quiet d (d.winNoted n) := Dev.setCyc_quiet _ _
  have hreg : ∀ a, (d.winNoted n).reg a = d.reg a := fun _ => rfl
  generalize d.winNoted n = e at hq hreg
  obtain ⟨hframe, hown, hprev, hgen⟩ := e.winPut_spec n ho (winOwn_lt d n)
  exact ⟨((FrameOn.refl noPart_part _ d).quiet noPart_part hq).trans noPart_part hframe, hown, hprev, hgen.trans (by rw [Dev.get_of_reg (hreg _)])⟩

theorem Dev.winTake_taken (hs : d.sharedOk mid = true) (ho : d.winOwner n = 0xF) (hh : d.winHeld n = 0xF) :
    d.winTake mid n mid = (d.winSet n mid).put (R.WIN_OWN n) F.WIN_OWN_RESULT 1 := by
  rw [Dev.winTake, hs, ho, hh, if_neg (by decide), if_neg (by decide), if_neg (not_not_intro rfl)]

theorem Dev.winTake_spec (hs : d.sharedOk mid = true) (ho : d.winOwner n = 0xF) (hh : d.winHeld n = 0xF) :
    FrameOn noPart [R.WIN_OWN n] d (d.winTake mid n mid) ∧ WinNow d (d.winTake mid n mid) n mid ∧
    (d.winTake mid n mid).get (R.WIN_OWN n) F.WIN_OWN_RESULT = 1 := by
  have hlt := Dev.sharedOk_lt hs
  obtain ⟨hframe, hown, hprev, hgen⟩ := Dev.winSet_spec (d := d) (n := n) (o := mid) (by omega) (by rw [ho]; omega)
  rw [Dev.winTake_taken hs ho hh]
  refine ⟨hframe.put noPart_part _ _ (List.mem_singleton_self _), ⟨?_, ?_, ?_⟩, ?_⟩
  · rw [Dev.winOwner, Dev.get_put_field _ _ _ _ _ _ (by decide)]
    exact hown
  · rw [Dev.get_put_field _ _ _ _ _ _ (by decide), hprev]
  · rw [Dev.get_put_field _ _ _ _ _ _ (by decide), hgen]
  · rw [Dev.get_put_self _ _ _ _ (by decide)]
    rfl

theorem Dev.winTake_busy {v : Nat} (hs : d.sharedOk mid = true) (h : d.winOwner n ≠ 0xF ∨ d.winHeld n ≠ 0xF) :
    d.winTake mid n v = d.put (R.WIN_OWN n) F.WIN_OWN_RESULT 2 := by
  rw [Dev.winTake, hs, if_neg (by decide), if_pos h]

theorem Dev.winTake_other {v : Nat} (hs : d.sharedOk mid = true) (ho : d.winOwner n = 0xF) (hh : d.winHeld n = 0xF) (hv : v ≠ mid) :
    d.winTake mid n v = d.deny Pg.WIN := by
  rw [Dev.winTake, hs, ho, hh, if_neg (by decide), if_neg (by decide), if_pos hv]

theorem Dev.winRelease_owner (ho : d.winOwner n = mid) (hs : d.sharedOk mid = true) : d.winRelease mid n = d.winSet n 0xF := if_pos ⟨ho, hs⟩

theorem Dev.winRelease_other (ho : d.winOwner n ≠ mid) : d.winRelease mid n = d.deny Pg.WIN := if_neg fun h => ho h.1

theorem Dev.winGive_other {v : Nat} (ho : d.winOwner n ≠ mid) : d.winGive mid n v = d.deny Pg.WIN := if_pos (.inl ho)

theorem Dev.winGive_back (ho : d.winOwner n = mid) (hs : d.sharedOk mid = true) : d.winGive mid n 0xF = d.winRelease mid n := by
  rw [Dev.winGive, hs, if_neg (by simp [ho]), if_pos rfl]

theorem Dev.winGive_to {v : Nat} (ho : d.winOwner n = mid) (hs : d.sharedOk mid = true) (hv : v ≤ 8) : d.winGive mid n v = d.winGiveTo n v := by
  rw [Dev.winGive, hs, if_neg (by simp [ho]), if_neg (by omega), if_pos hv]

theorem winOwn_ne_flag (n : Nat) (hn : n < 16) : R.WIN_OWN n ≠ R.WIN_FLAG ∧ eventReg (R.WIN_OWN n) = false := by
  rw [eventReg_eq_false]
  simp only [R.WIN_OWN, R.WIN_FLAG]
  omega

theorem WinNow.of_reg {e f : Dev} {o : Nat} (h : WinNow d e n o) (hr : f.reg (R.WIN_OWN n) = e.reg (R.WIN_OWN n)) : WinNow d f n o := by
  obtain ⟨hown, hprev, hgen⟩ := h
  exact ⟨(Dev.get_of_reg hr _).trans hown, (Dev.get_of_reg hr _).trans hprev, (Dev.get_of_reg hr _).trans hgen⟩

/-- A window given to a master (R420). -/
theorem Dev.winGiveTo_spec {v : Nat} (hn : n < 16) (hv : v ≤ 8) (ho : v ≠ d.winOwner n) :
    FrameOn noPart [R.WIN_OWN n, R.WIN_FLAG] d (d.winGiveTo n v) ∧ WinNow d (d.winGiveTo n v) n v ∧
    bitOf ((d.winGiveTo n v).reg R.WIN_FLAG) n = true ∧ Raised (d.winGiveTo n v) Pg.WIN Ev.WIN_GIVEN := by
  have hp := noPart_part
  obtain ⟨hne, hev⟩ := winOwn_ne_flag n hn
  obtain ⟨hframe, hnow⟩ := Dev.winSet_spec (d := d) (n := n) (by omega) ho
  rw [Dev.winGiveTo]
  generalize d.winSet n v = e at hframe hnow
  have hq := Dev.raiseN_quiet (e.orReg R.WIN_FLAG (bitWord n)) Pg.WIN Ev.WIN_GIVEN n
  refine ⟨((hframe.widen hp hp (fun _ _ => rfl) fun x hx => ?_).orReg hp _ (by simp)).quiet hp hq, hnow.of_reg ?_, ?_, Dev.raiseN_raised _ _ rfl⟩
  · rw [List.mem_singleton.1 hx]
    exact List.mem_cons_self
  · rw [hq.reg hev, Dev.reg_orReg, if_neg hne]
  · rw [hq.reg (by decide), Dev.reg_orReg, if_pos rfl, bitOf_or, bitOf_bitWord n (by omega), Bool.or_true]

theorem placed_winForce : Placed d R.WIN_FORCE .winB 0 0x40 := ⟨rfl, rfl, rfl, rfl, by omega⟩

theorem Dev.unitWrite_winForce (d : Dev) (hn : n < 16) (mid : Nat) :
    d.unitWrite 16 n mid R.WIN_FORCE (BitVec.ofNat 32 n) = d.winForce mid n := by
  have hidx : (BitVec.ofNat 32 n).toNat % 16 = n := by
    rw [BitVec.toNat_ofNat]
    omega
  rw [d.unitWrite_in hn, Dev.pWrite_own placed_winForce rfl rfl]
  change d.winPageWrite mid 0x40 R.WIN_FORCE (BitVec.ofNat 32 n) = _
  rw [Dev.winPageWrite, if_pos rfl, hidx]

theorem Dev.winForce_held (hk : d.keyOpenFor Pg.WIN Mid.S0 = true) (hh : d.winHeld n ≠ 0xF) :
    d.winForce Mid.S0 n = (d.winFree n).raiseN Pg.WIN Ev.WIN_FORCED n := by
  rw [Dev.winForce, if_pos ⟨rfl, hk⟩, if_neg hh]

theorem Dev.winForce_free (hk : d.keyOpenFor Pg.WIN Mid.S0 = true) (hh : d.winHeld n = 0xF) : d.winForce Mid.S0 n = d := by
  rw [Dev.winForce, if_pos ⟨rfl, hk⟩, if_pos hh]

/-- A window freed by force: PREV is who held it, GEN counts once in a cycle (R420, R422). -/
theorem Dev.winFree_spec (hh : d.winHeld n ≠ 0xF) : FrameOn noPart [R.WIN_OWN n] d (d.winFree n) ∧ (d.winFree n).winOwner n = 0xF ∧
    (d.winFree n).get (R.WIN_OWN n) F.WIN_OWN_PREV = d.winHeld n % 16 ∧ (d.winFree n).get (R.WIN_OWN n) F.WIN_OWN_GEN =
      (d.get (R.WIN_OWN n) F.WIN_OWN_GEN + if d.cycS.own.lookup n = none then 1 else 0) % 65536 := by
  have hp := noPart_part
  have hm : R.WIN_OWN n ∈ [R.WIN_OWN n] := List.mem_singleton_self _
  cases hl : d.cycS.own.lookup n with
  | none =>
    have hheld : d.winHeld n = d.winOwner n := by rw [Dev.winHeld, hl, Option.getD_none]
    have hfree : d.winFree n = d.winSet n 0xF := by simp only [Dev.winFree, hl]
    rw [hheld] at hh ⊢
    obtain ⟨hframe, hown, hprev, hgen⟩ := Dev.winSet_spec (d := d) (n := n) (o := 0xF) (by decide) (Ne.symm hh)
    rw [hfree, if_pos rfl]
    exact ⟨hframe, hown, hprev.trans (Nat.mod_eq_of_lt (winOwn_lt d n)).symm, hgen⟩
  | some old =>
    have hheld : d.winHeld n = old := by rw [Dev.winHeld, hl, Option.getD_some]
    have hfree : d.winFree n = (d.put (R.WIN_OWN n) F.WIN_OWN_OWNER 0xF).put (R.WIN_OWN n) F.WIN_OWN_PREV old := by simp only [Dev.winFree, hl]
    rw [hheld, hfree, if_neg (by simp)]
    refine ⟨((FrameOn.refl hp _ d).put hp _ _ hm).put hp _ _ hm, ?_, ?_, ?_⟩
    · rw [Dev.winOwner, Dev.get_put_field _ _ _ _ _ _ (by decide), Dev.get_put_self _ _ _ _ (by decide)]
      rfl
    · rw [Dev.get_put_self _ _ _ _ (by decide)]
      rfl
    · rw [Dev.get_put_field _ _ _ _ _ _ (by decide), Dev.get_put_field _ _ _ _ _ _ (by decide)]
      exact (Nat.mod_eq_of_lt (getF_lt _ F.WIN_OWN_GEN)).symm

end

/-- Settles O42. -/
theorem locksAndWindows : Obligations.LocksAndWindows := by
  intro s mid n hup
  have hnp := noPart_part
  refine ⟨fun hn => ⟨fun hh hs => ?_, fun hh => ?_, fun hk => ⟨fun h hh => ?_, fun hh => ?_⟩⟩,
    fun hn => ⟨fun hs => ⟨fun ho hh => ?_, fun v h => ?_, fun v ho hh hv => ?_⟩, fun ho hs => ⟨fun v hv hne => ?_, ?_, ?_⟩,
      fun ho => ⟨?_, ?_⟩, fun hk => ⟨fun hh => ?_, fun hh => ?_⟩⟩⟩
  · obtain ⟨hq, hown, hoth, hnow⟩ := s.dev.lockFree_spec n mid
    exact ⟨_, onDev_eq hup ((s.dev.unitWrite_lckLock hn mid).trans (Dev.lockRelease_holder hh hs)), hq, ⟨hown, hoth⟩, hnow⟩
  · exact onDev_eq hup ((s.dev.unitWrite_lckLock hn mid).trans (Dev.lockRelease_other hh))
  · obtain ⟨hframe, hown, hoth, hcnt, hholder, hlock⟩ := s.dev.lockForced_spec hn h
    have hcmd := (s.dev.unitWrite_lckForce hn Mid.S0).trans (Dev.lockForce_held hk hh)
    generalize s.dev.lockForced n h = e at hframe hown hoth hcnt hholder hlock hcmd
    have hq := e.raiseN_quiet Pg.LCK Ev.LOCK_FORCED n
    have hget : ∀ f, (e.raiseN Pg.LCK Ev.LOCK_FORCED n).get R.LCK_STAT f = e.get R.LCK_STAT f := fun f => hq.get (by decide) f
    exact ⟨_, onDev_eq hup hcmd, hframe.quiet lckPart_part hq, ⟨(hq.lckS n).trans hown, fun j hj => (hq.lckS j).trans (hoth j hj)⟩,
      (hget _).trans hcnt, (hget _).trans hholder, (hget _).trans hlock, e.raiseN_raised _ rfl⟩
  · exact onDev_same hup ((s.dev.unitWrite_lckForce hn Mid.S0).trans (Dev.lockForce_free hk hh))
  · exact ⟨_, onDev_eq hup (if_pos hn), Dev.winTake_spec hs ho hh⟩
  · exact onDev_eq hup ((if_pos hn).trans (Dev.winTake_busy hs h))
  · exact onDev_eq hup ((if_pos hn).trans (Dev.winTake_other hs ho hh hv))
  · obtain ⟨hframe, hnow, hflag, hraised⟩ := Dev.winGiveTo_spec (d := s.dev) hn hv (by rw [ho]; exact hne)
    exact ⟨_, onDev_eq hup ((if_pos hn).trans (Dev.winGive_to ho hs hv)), hframe, hnow, hflag, hraised⟩
  · have hlt := Dev.sharedOk_lt hs
    obtain ⟨hframe, hnow⟩ := Dev.winSet_spec (d := s.dev) (n := n) (o := 0xF) (by decide) (by rw [ho]; omega)
    exact ⟨_, onDev_eq hup ((if_pos hn).trans (Dev.winRelease_owner ho hs)), hframe, hnow⟩
  · have hgive : exec (.winGiven mid n 0xF) s = .next (s.withDev (s.dev.winRelease mid n)) :=
      onDev_eq hup ((if_pos hn).trans (Dev.winGive_back ho hs))
    have hrel : exec (.winRelease mid n) s = .next (s.withDev (s.dev.winRelease mid n)) := onDev_eq hup (if_pos hn)
    rw [hgive, hrel]
  · exact onDev_eq hup ((if_pos hn).trans (Dev.winGive_other ho))
  · exact onDev_eq hup ((if_pos hn).trans (Dev.winRelease_other ho))
  · obtain ⟨hframe, hown, hprev, hgen⟩ := Dev.winFree_spec hh
    have hcmd := (s.dev.unitWrite_winForce hn Mid.S0).trans (Dev.winForce_held hk hh)
    generalize s.dev.winFree n = e at hframe hown hprev hgen hcmd
    have hq := e.raiseN_quiet Pg.WIN Ev.WIN_FORCED n
    have hget : ∀ f, (e.raiseN Pg.WIN Ev.WIN_FORCED n).get (R.WIN_OWN n) f = e.get (R.WIN_OWN n) f :=
      fun f => hq.get (winOwn_ne_flag n hn).2 f
    exact ⟨_, onDev_eq hup hcmd, hframe.quiet hnp hq, (hget _).trans hown, (hget _).trans hprev, e.raiseN_raised _ rfl, (hget _).trans hgen⟩
  · exact onDev_same hup ((s.dev.unitWrite_winForce hn Mid.S0).trans (Dev.winForce_free hk hh))

end Sys2Proof.Machine
end

section
/-! PROOFS. Who writes and reads a window's data (R408, R419, R421). -/

namespace Sys2Proof.Machine

/-! ### Bytes and words -/

theorem nthD_take {α : Type} (dflt : α) (l : List α) {n i : Nat} (h : i < n) : nthD dflt (l.take n) i = nthD dflt l i := by
  induction l generalizing n i with
  | nil => simp
  | cons x l ih =>
    obtain ⟨n, rfl⟩ : ∃ m, n = m + 1 := ⟨n - 1, by omega⟩
    cases i with
    | zero => rfl
    | succ i => exact ih (by omega)

theorem nthD_append_default {α : Type} (dflt : α) (l : List α) (n k : Nat) : nthD dflt (l ++ List.replicate n dflt) k = nthD dflt l k := by
  induction l generalizing k with
  | nil =>
    rw [List.nil_append]
    induction n generalizing k with
    | zero => rfl
    | succ n ih =>
      cases k with
      | zero => rfl
      | succ k => exact ih k
  | cons x l ih =>
    cases k with
    | zero => rfl
    | succ k => exact ih k

theorem nthD_readBytes (m : Memory) (a n i : Nat) : nthD 0 (m.readBytes a n) i = if i < n then m.read (a + i) else 0 := by
  induction n generalizing a i with
  | zero => rfl
  | succ n ih =>
    cases i with
    | zero => rfl
    | succ i =>
      refine (ih (a + 1) i).trans (if_congr (by omega) ?_ rfl)
      rw [show a + 1 + i = a + (i + 1) by omega]

theorem length_readBytes (m : Memory) (a n : Nat) : (m.readBytes a n).length = n := by
  induction n generalizing a with
  | zero => rfl
  | succ n ih => exact congrArg (· + 1) (ih (a + 1))

theorem length_wordsOfBytes : ∀ bs : List Byte, (wordsOfBytes bs).length = (bs.length + 3) / 4
  | [] => rfl
  | [_] => by simp [wordsOfBytes]
  | [_, _] => by simp [wordsOfBytes]
  | [_, _, _] => by simp [wordsOfBytes]
  | a :: b :: c :: d :: r => by
    rw [wordsOfBytes, List.length_cons, length_wordsOfBytes r]
    simp only [List.length_cons]
    omega

theorem wordOfBytes_zeros : wordOfBytes [0, 0, 0, 0] = 0 := by decide

/-- A word of a stretch of bytes; what lies past its end counts as zero. -/
theorem nthD_wordsOfBytes : ∀ (bs : List Byte) (k : Nat),
    nthD 0 (wordsOfBytes bs) k = wordOfBytes ((List.range 4).map fun j => nthD 0 bs (4 * k + j))
  | [], k => wordOfBytes_zeros.symm
  | [a], 0 => by simp [wordsOfBytes, nthD, wordOfBytes, natOfBytes, List.range_succ]
  | [_], _ + 1 => wordOfBytes_zeros.symm
  | [a, b], 0 => by simp [wordsOfBytes, nthD, wordOfBytes, natOfBytes, List.range_succ]
  | [_, _], _ + 1 => wordOfBytes_zeros.symm
  | [a, b, c], 0 => by simp [wordsOfBytes, nthD, wordOfBytes, natOfBytes, List.range_succ]
  | [_, _, _], _ + 1 => wordOfBytes_zeros.symm
  | a :: b :: c :: d :: r, 0 => by rw [wordsOfBytes]; rfl
  | a :: b :: c :: d :: r, k + 1 => by
    rw [wordsOfBytes]
    refine (nthD_wordsOfBytes r k).trans (congrArg wordOfBytes (List.map_congr_left fun j _ => ?_))
    rw [show 4 * (k + 1) + j = 4 * k + j + 4 by omega]
    rfl

/-! ### Answers of several words -/

theorem Dev.answerWords_onlyRead (ws : List Word) (d : Dev) (mid k : Nat) : OnlyRead d (d.answerWords mid k ws) := by
  induction ws generalizing d k with
  | nil => rfl
  | cons w ws ih =>
    have h := ih ({ d with rdata := spPut 0 d.rdata (mid + 16 * k) w } : Dev) (k + 1)
    exact h

theorem Dev.answerWords_rdata (ws : List Word) (d : Dev) (mid k i : Nat) (h : i < ws.length) :
    spGet 0 (d.answerWords mid k ws).rdata (mid + 16 * (k + i)) = nthD 0 ws i := by
  suffices hall : ∀ (ws : List Word) (d : Dev) (k j : Nat), spGet 0 (d.answerWords mid k ws).rdata (mid + 16 * j) =
      if k ≤ j ∧ j < k + ws.length then nthD 0 ws (j - k) else spGet 0 d.rdata (mid + 16 * j) by
    rw [hall, if_pos (by omega), Nat.add_sub_cancel_left]
  intro ws
  induction ws with
  | nil => exact fun d k j => (if_neg (by simp)).symm
  | cons w ws ih =>
    intro d k j
    refine (ih _ (k + 1) j).trans ?_
    simp only [List.length_cons, spGet_spPut]
    by_cases hj : j = k
    · subst hj
      rw [if_neg (by omega), if_pos rfl, if_pos (by omega), Nat.sub_self]
      rfl
    · have hkey : ¬mid + 16 * j = mid + 16 * k := by omega
      rw [if_neg hkey]
      by_cases hin : k + 1 ≤ j ∧ j < k + 1 + ws.length
      · rw [if_pos hin, if_pos (by omega), show j - k = (j - (k + 1)) + 1 by omega]
        rfl
      · rw [if_neg hin, if_neg (by omega)]

/-! ### A window as a master reads and writes it -/

section
variable {s : State} {mid a : Nat}

theorem Dev.winWritable_iff (d : Dev) (mid w : Nat) :
    d.winWritable mid w = true ↔ d.winHeld w = mid ∧ (d.sharedOk mid = true ∨ mid = Mid.DMA) := by
  rw [Dev.winWritable, Bool.and_eq_true, Bool.or_eq_true, beq_iff_eq, beq_iff_eq]

theorem exec_winDataWrite (hup : s.Up) (hw : inWins a = true) (bs : List Byte) :
    exec (.winDataWrite mid a bs) s = .next (s.winWrite mid a bs) := by
  have hin : winBase ≤ a ∧ a < winBase + 2 ^ 20 := by
    simpa only [inWins, Bool.and_eq_true, decide_eq_true_eq] using hw
  change winDataWrite mid a bs s = _
  rw [winDataWrite, if_neg (by omega)]
  exact onState_up hup _

theorem exec_winRead (hup : s.Up) (hw : inWins a = true) (width : Nat) :
    exec (.lowWordRead mid ⟨a, width⟩) s = .next (s.withDev (s.dev.answerWords mid 0 (winRead s.dev s.mems.win mid a width))) := by
  change execLowWordRead mid ⟨a, width⟩ s = _
  rw [execLowWordRead, hw, Bool.or_true, if_pos rfl, onState_up hup]
  simp only [State.onDevS, State.withDev, Dev.busRead, hw, if_true]

/-- Whether a read of a window is answered with its data (R419, R421). -/
def Dev.winShows (d : Dev) (mid a width : Nat) : Bool :=
  d.winReadable mid (winOf a) && winAccessOk mid a width (if d.pcie.payload = 0 then 0 else pcieReadMax)

theorem winRead_eq (d : Dev) (win : Memory) (mid a width : Nat) : winRead d win mid a width =
    if d.winShows mid a width then wordsOfBytes (win.readBytes (winOfs a) (min width (0x10000 - a % 0x10000))) ++
      List.replicate ((width + 3) / 4 - (min width (0x10000 - a % 0x10000) + 3) / 4) 0
    else List.replicate ((width + 3) / 4) 0 := rfl

/-- A byte as a read of a window shows it. -/
def State.winByte (s : State) (mid a width i : Nat) : Byte :=
  if s.dev.winShows mid a width then
    nthD 0 (s.mems.win.readBytes (winOfs a) (min width (0x10000 - a % 0x10000))) i
  else 0

theorem length_winRead (d : Dev) (win : Memory) (mid a width : Nat) : (winRead d win mid a width).length = (width + 3) / 4 := by
  rw [winRead_eq]
  split
  · rw [List.length_append, length_wordsOfBytes, length_readBytes, List.length_replicate]
    omega
  · exact List.length_replicate

theorem nthD_winRead (s : State) (mid a width k : Nat) : nthD 0 (winRead s.dev s.mems.win mid a width) k =
    wordOfBytes ((List.range 4).map fun j => s.winByte mid a width (4 * k + j)) := by
  rw [winRead_eq]
  split
  · next h =>
    rw [nthD_append_default, nthD_wordsOfBytes]
    simp only [State.winByte, h, if_true]
  · next h =>
    have hz := nthD_append_default (0 : Word) [] ((width + 3) / 4) k
    rw [List.nil_append] at hz
    simp only [State.winByte, h, Bool.false_eq_true, if_false, hz]
    exact wordOfBytes_zeros.symm

theorem State.winByte_eq (s : State) (mid a width i : Nat) : s.winByte mid a width i =
    if ((s.dev.winHeld (winOf a) = mid ∨ s.dev.flag (R.WIN_CFG (winOf a)) F.WIN_CFG_RDSHARE = true) ∧
        winAccessOk mid a width (if s.dev.pcie.payload = 0 then 0 else 512) = true) ∧ i < width ∧ i < 0x10000 - a % 0x10000 then
      s.mems.win.read (winOfs a + i) else 0 := by
  have hiff : s.dev.winShows mid a width = true ↔
      ((s.dev.winHeld (winOf a) = mid ∨ s.dev.flag (R.WIN_CFG (winOf a)) F.WIN_CFG_RDSHARE = true) ∧
        winAccessOk mid a width (if s.dev.pcie.payload = 0 then 0 else 512) = true) := by
    rw [Dev.winShows, Bool.and_eq_true, Dev.winReadable, Bool.or_eq_true, beq_iff_eq, pcieReadMax]
  rw [State.winByte, nthD_readBytes]
  split
  · next h =>
    refine if_congr ?_ rfl rfl
    rw [← hiff, and_iff_right h, Nat.lt_min]
  · next h => exact (if_neg fun hc => h (hiff.2 hc.1)).symm

/-- A refused write of window data, counted and shown (R421). -/
def Dev.winDenied (d : Dev) (w : Nat) : Dev := (d.bump (R.WIN_STAT w) F.WIN_STAT_DENIED_CNT).putB (R.WIN_STAT w) F.WIN_STAT_DENIED true

theorem Dev.winDenied_spec (d : Dev) (w : Nat) : Frame d (d.winDenied w) [R.WIN_STAT w] ∧
    Counted d (d.winDenied w) (R.WIN_STAT w) F.WIN_STAT_DENIED_CNT ∧ (d.winDenied w).flag (R.WIN_STAT w) F.WIN_STAT_DENIED = true := by
  have hp := noPart_part
  have hm : R.WIN_STAT w ∈ [R.WIN_STAT w] := List.mem_singleton_self _
  refine ⟨((FrameOn.refl hp _ d).bump hp _ hm).putB hp _ _ hm, ?_, Dev.flag_putB_self _ _ _ _ rfl (by decide)⟩
  rw [Counted, Dev.winDenied, Dev.putB, Dev.get_put_field _ _ _ _ _ _ (by decide), Dev.bump, Dev.addSat, Dev.get_put_self _ _ _ _ (by decide)]
  exact Nat.mod_eq_of_lt (by rw [show fieldWidth F.WIN_STAT_DENIED_CNT = 16 from rfl]; omega)

theorem State.winWrite_owner {bs : List Byte} (hok : winAccessOk mid a bs.length s.dev.pcie.payload = true)
    (hw : s.dev.winWritable mid (winOf a) = true) : s.winWrite mid a bs =
      { s with mems := { s.mems with win := s.mems.win.writeBytes (winOfs a) (bs.take (0x10000 - a % 0x10000)) } } := by
  simp only [State.winWrite, hok, hw, Bool.not_true, Bool.false_eq_true, if_false, if_true]

theorem State.winWrite_other {bs : List Byte} (hok : winAccessOk mid a bs.length s.dev.pcie.payload = true)
    (hw : s.dev.winWritable mid (winOf a) = false) : s.winWrite mid a bs = s.withDev (s.dev.winDenied (winOf a)) := by
  simp only [State.winWrite, hok, hw, Bool.not_true, Bool.false_eq_true, if_false]
  rfl

theorem State.winWrite_not {bs : List Byte} (hok : winAccessOk mid a bs.length s.dev.pcie.payload = false) : s.winWrite mid a bs = s := by
  simp only [State.winWrite, hok, Bool.not_false, if_true]

end

/-- Settles O43. -/
theorem windowData : Obligations.WindowData := by
  intro s mid a bs hup hw
  have hwrite := exec_winDataWrite (mid := mid) hup hw bs
  refine ⟨fun hok => ⟨fun hmay => ?_, fun hmay => ?_⟩, fun hok => ?_, fun width => ?_⟩
  · rw [State.winWrite_owner hok ((Dev.winWritable_iff _ _ _).2 hmay)] at hwrite
    have hlen : (bs.take (0x10000 - a % 0x10000)).length = min bs.length (0x10000 - a % 0x10000) := by
      rw [List.length_take, Nat.min_comm]
    refine ⟨_, hwrite, rfl, fun i hi => ?_, fun x hx => Memory.read_writeBytes_out _ _ (by rw [hlen]; exact hx)⟩
    rw [Memory.read_writeBytes, if_pos (by rw [hlen]; omega), Nat.add_sub_cancel_left, nthD_take 0 bs (by omega)]
  · have hno : s.dev.winWritable mid (winOf a) = false := Bool.eq_false_iff.2 fun h => hmay ((Dev.winWritable_iff _ _ _).1 h)
    rw [State.winWrite_other hok hno] at hwrite
    exact ⟨_, hwrite, s.dev.winDenied_spec (winOf a)⟩
  · rw [State.winWrite_not hok] at hwrite
    exact hwrite
  · refine ⟨_, exec_winRead hup hw width, Dev.answerWords_onlyRead _ _ _ _, fun k hk => ?_⟩
    have hread := Dev.answerWords_rdata (winRead s.dev s.mems.win mid a width) s.dev mid 0 k (by rw [length_winRead]; omega)
    rw [Nat.zero_add, nthD_winRead] at hread
    exact hread.trans (congrArg wordOfBytes (List.map_congr_left fun j _ => s.winByte_eq mid a width (4 * k + j)))

end Sys2Proof.Machine
end

section
/-! PROOFS. CAN frames received and sent, and BUS_OFF (R435 to R437). -/

namespace Sys2Proof.Machine

/-! ### The buffer to send -/

/-- Of two buffers the one with the lower identifier, the first where they are alike. -/
def pickLow (key : Nat → Nat) : Option Nat → Nat → Option Nat
  | none, b => some b
  | some x, b => if key b < key x then some b else some x

theorem foldl_pickLow {key : Nat → Nat} {l : List Nat} {acc : Option Nat} {b : Nat} (h : l.foldl (pickLow key) acc = some b) :
    (b ∈ l ∨ acc = some b) ∧ (∀ x ∈ l, key b ≤ key x) ∧ ∀ y, acc = some y → key b ≤ key y := by
  induction l generalizing acc with
  | nil => exact ⟨.inr h, fun x hx => absurd hx List.not_mem_nil, fun y hy => (Option.some.inj (h.symm.trans hy)).symm ▸ le_rfl⟩
  | cons x l ih =>
    obtain ⟨hmem, hall, hacc⟩ := ih h
    cases acc with
    | none =>
      have hx := hacc x rfl
      refine ⟨.inl ?_, fun z hz => ?_, fun y hy => by cases hy⟩
      · obtain hm | hm := hmem
        · exact List.mem_cons_of_mem _ hm
        · exact Option.some.inj hm ▸ List.mem_cons_self
      · obtain rfl | hz := List.mem_cons.1 hz
        · exact hx
        · exact hall z hz
    | some y =>
      by_cases hlt : key x < key y
      · have hpick : pickLow key (some y) x = some x := if_pos hlt
        rw [hpick] at hmem hacc
        have hx := hacc x rfl
        refine ⟨.inl ?_, fun z hz => ?_, fun z hz => ?_⟩
        · obtain hm | hm := hmem
          · exact List.mem_cons_of_mem _ hm
          · exact Option.some.inj hm ▸ List.mem_cons_self
        · obtain rfl | hz := List.mem_cons.1 hz
          · exact hx
          · exact hall z hz
        · exact Option.some.inj hz ▸ hx.trans hlt.le
      · have hpick : pickLow key (some y) x = some y := if_neg hlt
        rw [hpick] at hmem hacc
        have hy := hacc y rfl
        refine ⟨hmem.imp_left (List.mem_cons_of_mem _), fun z hz => ?_, fun z hz => Option.some.inj hz ▸ hy⟩
        obtain rfl | hz := List.mem_cons.1 hz
        · omega
        · exact hall z hz

section
variable {d : Dev} {k b : Nat}

/-- The identifier of a buffer. -/
def Dev.canIdent (d : Dev) (k b : Nat) : Nat := (d.reg (canBuf k b 0)).toNat % 2 ^ 29

theorem Dev.canNext_eq (d : Dev) (k : Nat) : d.canNext k =
    ((List.range 16).filter fun b => (d.canS k).pend.contains b && d.canSends k (d.reg (canBuf k b 1))).foldl (pickLow (d.canIdent k)) none := by
  rw [Dev.canNext]
  refine congrArg (fun f => List.foldl f none _) (funext fun m => funext fun b => ?_)
  cases m <;> rfl

theorem Dev.canSends_iff (d : Dev) (k : Nat) (w : Word) :
    d.canSends k w = true ↔ d.flag (R.CAN_CTRL k) F.CAN_CTRL_FD_EN = true ∨ Config.canForm w = 0 := by
  rw [Dev.canSends, Bool.or_eq_true, beq_iff_eq]

/-- Whether the pending buffers that the controller sends hold a buffer. -/
theorem mem_canPending {x : Nat} : (x ∈ (List.range 16).filter fun b => (d.canS k).pend.contains b && d.canSends k (d.reg (canBuf k b 1))) ↔
    x < 16 ∧ x ∈ (d.canS k).pend ∧ d.canSends k (d.reg (canBuf k x 1)) = true := by
  rw [List.mem_filter, List.mem_range, Bool.and_eq_true, List.contains_iff_mem]

theorem Dev.canNext_spec (h : d.canNext k = some b) : b < 16 ∧ b ∈ (d.canS k).pend ∧ d.canSends k (d.reg (canBuf k b 1)) = true ∧
    ∀ x ∈ (d.canS k).pend, x < 16 → d.canSends k (d.reg (canBuf k x 1)) = true → d.canIdent k b ≤ d.canIdent k x := by
  rw [Dev.canNext_eq] at h
  obtain ⟨hmem, hall, -⟩ := foldl_pickLow h
  obtain hmem | hnone := hmem
  · obtain ⟨hb, hp, hs⟩ := mem_canPending.1 hmem
    exact ⟨hb, hp, hs, fun x hx hlt hsx => hall x (mem_canPending.2 ⟨hlt, hx, hsx⟩)⟩
  · cases hnone

end

/-! ### The state of a controller shown -/

/-- CAN controllers aside. -/
def canPart (d e : Dev) : Dev := { d with can := e.can }

theorem canPart_part : Part canPart := ⟨fun _ => rfl, fun _ _ _ => rfl, fun _ _ => rfl, fun _ _ _ => rfl⟩

/-- What is left open aside. -/
def freePart (d e : Dev) : Dev := { d with free := e.free }

theorem freePart_part : Part freePart := ⟨fun _ => rfl, fun _ _ _ => rfl, fun _ _ => rfl, fun _ _ _ => rfl⟩

section
variable {p : Dev → Dev → Dev} {l : List Nat} {d e : Dev} {k : Nat}

theorem FrameOn.canPassive (hp : Part p) (h : FrameOn p l d e) (hl : R.CAN_STAT k ∈ l) : FrameOn p l d (e.canPassive k) := h.putB hp _ _ hl

theorem Dev.canPassive_get (d : Dev) (k : Nat) (f : RField)
    (h : F.CAN_STAT_PASSIVE.lo + fieldWidth F.CAN_STAT_PASSIVE ≤ f.lo ∨ f.lo + fieldWidth f ≤ F.CAN_STAT_PASSIVE.lo) :
    (d.canPassive k).get (R.CAN_STAT k) f = d.get (R.CAN_STAT k) f := d.get_put_field _ _ _ _ _ h

theorem Dev.canPassive_flag (d : Dev) (k : Nat) (f : RField)
    (h : F.CAN_STAT_PASSIVE.lo + fieldWidth F.CAN_STAT_PASSIVE ≤ f.lo ∨ f.lo + fieldWidth f ≤ F.CAN_STAT_PASSIVE.lo) :
    (d.canPassive k).flag (R.CAN_STAT k) f = d.flag (R.CAN_STAT k) f := d.flag_put_field _ _ _ h

theorem Dev.canPassive_canS (d : Dev) (k j : Nat) : (d.canPassive k).canS j = d.canS j := d.canS_put _ _ _ _

theorem Dev.canPassive_reg (d : Dev) (k : Nat) {a : Nat} (h : a ≠ R.CAN_STAT k) : (d.canPassive k).reg a = d.reg a := d.reg_put_ne _ _ h

/-! ### Frames received -/

theorem Dev.fresh_free (d : Dev) (l : List Nat) : FrameOn freePart l d d.fresh.2 :=
  (FrameOn.refl freePart_part l d).part freePart_part rfl fun _ => rfl

theorem Dev.canRxError_spec (d : Dev) (k : Nat) : FrameOn freePart [R.CAN_STAT k] d (d.canRxError k) ∧ (∀ j, (d.canRxError k).canS j = d.canS j) ∧
    Counted d (d.canRxError k) (R.CAN_STAT k) F.CAN_STAT_REC := by
  have hp := freePart_part
  have hm : R.CAN_STAT k ∈ [R.CAN_STAT k] := List.mem_singleton_self _
  have hf := d.fresh_free [R.CAN_STAT k]
  have hreg : d.fresh.2.reg (R.CAN_STAT k) = d.reg (R.CAN_STAT k) := rfl
  have hcan : ∀ j, d.fresh.2.canS j = d.canS j := fun _ => rfl
  rw [Dev.canRxError, Counted]
  generalize d.fresh = w at hf hreg hcan
  obtain ⟨w, e⟩ := w
  refine ⟨((hf.put hp _ _ hm).put hp _ _ hm).canPassive hp hm, fun j => ?_, ?_⟩
  · rw [Dev.canPassive_canS, Dev.canS_put, Dev.addSat, Dev.canS_put, hcan]
  · rw [Dev.canPassive_get _ _ _ (by decide), Dev.get_put_field _ _ _ _ _ _ (by decide), Dev.addSat, Dev.get_put_self _ _ _ _ (by decide),
      Dev.get_of_reg hreg]
    exact Nat.mod_eq_of_lt (by rw [show fieldWidth F.CAN_STAT_REC = 8 from rfl]; omega)

/-- A frame taken: the error count falls (R437). -/
def Dev.canTaken (d : Dev) (k : Nat) : Dev :=
  (d.put (R.CAN_STAT k) F.CAN_STAT_REC (d.get (R.CAN_STAT k) F.CAN_STAT_REC - 1)).canPassive k

theorem Dev.canTaken_spec (d : Dev) (k : Nat) : FrameOn noPart [R.CAN_STAT k] d (d.canTaken k) ∧ (∀ j, (d.canTaken k).canS j = d.canS j) ∧
    (d.canTaken k).get (R.CAN_STAT k) F.CAN_STAT_REC = d.get (R.CAN_STAT k) F.CAN_STAT_REC - 1 := by
  have hp := noPart_part
  have hm : R.CAN_STAT k ∈ [R.CAN_STAT k] := List.mem_singleton_self _
  refine ⟨((FrameOn.refl hp _ d).put hp _ _ hm).canPassive hp hm, fun j => ?_, ?_⟩
  · rw [Dev.canTaken, Dev.canPassive_canS, Dev.canS_put]
  · rw [Dev.canTaken, Dev.canPassive_get _ _ _ (by decide), Dev.get_put_self _ _ _ _ (by decide)]
    exact Nat.mod_eq_of_lt ((Nat.sub_le _ _).trans_lt (getF_lt _ F.CAN_STAT_REC))

/-- The free receive buffer that a frame fills. -/
def Dev.canFree (d : Dev) (k : Nat) : Option Nat := ((List.range 24).map (· + 16)).find? fun b => !(d.canS k).full.contains b

/-- A frame put into a receive buffer. -/
def Dev.canStored (d : Dev) (k b : Nat) (q : CanSt) (ident ctrl : Word) (data : List Byte) : Dev :=
  (d.canFill k b 0 ([ident, ctrl, BitVec.ofNat 32 d.gtc] ++ wordsOfBytes (data.take 64))).setCan k { q with full := q.full ++ [b] }

theorem canBuf_ne {k b : Nat} {i j : Nat} (h : i ≠ j) : canBuf k b i ≠ canBuf k b j := by
  simp only [canBuf, R.CAN_RAM]
  omega

theorem Dev.canFill_reg (ws : List Word) (d : Dev) (k b w i : Nat) : (d.canFill k b w ws).reg (canBuf k b i) =
    if w ≤ i ∧ i < w + ws.length then nthD 0 ws (i - w) else d.reg (canBuf k b i) := by
  induction ws generalizing d w with
  | nil => exact (if_neg (by simp)).symm
  | cons x ws ih =>
    rw [Dev.canFill, ih, List.length_cons]
    by_cases hi : i = w
    · subst hi
      rw [if_neg (by omega), Dev.reg_setReg_self, if_pos (by omega), Nat.sub_self]
      rfl
    · rw [Dev.reg_setReg_ne _ _ (canBuf_ne hi)]
      by_cases hin : w + 1 ≤ i ∧ i < w + 1 + ws.length
      · rw [if_pos hin, if_pos (by omega), show i - w = (i - (w + 1)) + 1 by omega]
        rfl
      · rw [if_neg hin, if_neg (by omega)]

theorem FrameOn.canFill (hp : Part p) (ws : List Word) {b w : Nat} (h : FrameOn p l d e)
    (hl : ∀ i, w ≤ i → i < w + ws.length → canBuf k b i ∈ l) : FrameOn p l d (e.canFill k b w ws) := by
  induction ws generalizing e w with
  | nil => exact h
  | cons x ws ih =>
    simp only [List.length_cons] at hl
    exact ih (h.setReg hp _ (hl w (by omega) (by omega))) fun i h1 h2 => hl i (by omega) (by omega)

theorem Dev.canFill_canS (ws : List Word) (d : Dev) (k b w j : Nat) : (d.canFill k b w ws).canS j = d.canS j := by
  induction ws generalizing d w with
  | nil => rfl
  | cons x ws ih => exact (ih _ _).trans (d.canS_setReg _ _ _)

theorem length_frameWords {data : List Byte} : (wordsOfBytes (data.take 64)).length ≤ 16 := by
  rw [length_wordsOfBytes, List.length_take]
  omega

theorem Dev.canStored_spec (d : Dev) (k b : Nat) (q : CanSt) (ident ctrl : Word) (data : List Byte) :
    FrameOn canPart ((List.range 19).map (canBuf k b)) d (d.canStored k b q ident ctrl data) ∧
    (∀ j, j ≠ k → (d.canStored k b q ident ctrl data).canS j = d.canS j) ∧
    (d.canStored k b q ident ctrl data).canS k = { q with full := q.full ++ [b] } ∧
    (d.canStored k b q ident ctrl data).reg (canBuf k b 0) = ident ∧ (d.canStored k b q ident ctrl data).reg (canBuf k b 1) = ctrl ∧
    (d.canStored k b q ident ctrl data).reg (canBuf k b 2) = BitVec.ofNat 32 d.gtc ∧
    ∀ j, j < (wordsOfBytes (data.take 64)).length →
      (d.canStored k b q ident ctrl data).reg (canBuf k b (3 + j)) = nthD 0 (wordsOfBytes (data.take 64)) j := by
  have hp := canPart_part
  have hlen := length_frameWords (data := data)
  have hreg : ∀ i, (d.canStored k b q ident ctrl data).reg (canBuf k b i) =
      (d.canFill k b 0 ([ident, ctrl, BitVec.ofNat 32 d.gtc] ++ wordsOfBytes (data.take 64))).reg (canBuf k b i) :=
    fun i => Dev.reg_setCan _ _ _ _
  have hfill := fun i => Dev.canFill_reg ([ident, ctrl, BitVec.ofNat 32 d.gtc] ++ wordsOfBytes (data.take 64)) d k b 0 i
  simp only [List.length_append, List.length_cons, List.length_nil, Nat.zero_le, true_and] at hfill
  refine ⟨((FrameOn.refl hp _ d).canFill hp _ fun i _ hi => ?_).part hp rfl fun a => Dev.reg_setCan _ _ _ _, fun j hj => ?_, ?_, ?_, ?_, ?_,
    fun j hj => ?_⟩
  · simp only [List.length_append, List.length_cons, List.length_nil] at hi
    exact List.mem_map_of_mem (List.mem_range.2 (by omega))
  · rw [Dev.canStored, Dev.canS_setCan, if_neg hj, Dev.canFill_canS]
  · rw [Dev.canStored, Dev.canS_setCan_self]
  · rw [hreg, hfill, if_pos (by omega)]
    rfl
  · rw [hreg, hfill, if_pos (by omega)]
    rfl
  · rw [hreg, hfill, if_pos (by omega)]
    rfl
  · rw [hreg, hfill, if_pos (by omega), show 3 + j - 0 = j + 1 + 1 + 1 by omega]
    rfl

/-! ### CAN_FRAME_RX -/

section
variable {ident ctrl : Word} {data : List Byte}

/-- What a controller asks of a frame's format (R435). -/
theorem Dev.canTakes_iff (d : Dev) (k : Nat) (ctrl : Word) (data : List Byte) : d.canTakes k ctrl (decide (8 < data.length)) = true ↔
    (d.flag (R.CAN_CTRL k) F.CAN_CTRL_FD_EN = true ∨ (data.length ≤ 8 ∧ Config.canForm ctrl = 0)) ∧
    (d.flag (R.CAN_CTRL k) F.CAN_CTRL_BRS_EN = true ∨ Config.canForm ctrl < 2) := by
  simp only [Dev.canTakes, Bool.and_eq_true, Bool.or_eq_true, Bool.not_eq_true', Bool.or_eq_false_iff, decide_eq_false_iff_not,
    decide_eq_true_eq, bne_eq_false_iff_eq, Nat.not_lt]

theorem Dev.canFrameRx_error (hk : k < nCan) (hoff : d.flag (R.CAN_STAT k) F.CAN_STAT_BUS_OFF = false) :
    d.canFrameRx k ident ctrl data true = d.canRxError k := by
  have hno : ¬(nCan ≤ k ∨ d.flag (R.CAN_STAT k) F.CAN_STAT_BUS_OFF = true) := by
    rw [hoff]
    simpa using hk
  rw [Dev.canFrameRx, if_neg hno]
  rfl

theorem Dev.canFrameRx_passes (h : d.flag (R.CAN_STAT k) F.CAN_STAT_BUS_OFF = true ∨ d.canTakes k ctrl (decide (8 < data.length)) = false) :
    d.canFrameRx k ident ctrl data false = d := by
  rw [Dev.canFrameRx]
  split
  · rfl
  · next hno =>
    have htake := h.resolve_left fun hoff => hno (.inr hoff)
    rw [htake]
    rfl

theorem Dev.canAccepts_taken (d : Dev) (k : Nat) (ident : Word) : (d.canTaken k).canAccepts k ident = d.canAccepts k ident := by
  have hreg : ∀ n, (d.canTaken k).reg (R.CAN_FLT k n) = d.reg (R.CAN_FLT k n) := fun n => by
    have hne : R.CAN_FLT k n ≠ R.CAN_STAT k := by
      simp only [R.CAN_FLT, R.CAN_STAT]
      omega
    rw [Dev.canTaken, Dev.canPassive_reg _ _ hne, Dev.reg_put_ne _ _ _ hne]
  simp only [Dev.canAccepts, hreg]

theorem not_busOff (hk : k < nCan) (hoff : d.flag (R.CAN_STAT k) F.CAN_STAT_BUS_OFF = false) :
    ¬(nCan ≤ k ∨ d.flag (R.CAN_STAT k) F.CAN_STAT_BUS_OFF = true) := by
  rw [hoff]
  simpa using hk

section
variable (hk : k < nCan) (hoff : d.flag (R.CAN_STAT k) F.CAN_STAT_BUS_OFF = false)
  (ht : d.canTakes k ctrl (decide (8 < data.length)) = true)
include hk hoff ht

theorem Dev.canFrameRx_other (ha : d.canAccepts k ident = false) : d.canFrameRx k ident ctrl data false = d.canTaken k := by
  have hac : ((d.put (R.CAN_STAT k) F.CAN_STAT_REC (d.get (R.CAN_STAT k) F.CAN_STAT_REC - 1)).canPassive k).canAccepts k ident = false :=
    (d.canAccepts_taken k ident).trans ha
  simp only [Dev.canFrameRx, not_busOff hk hoff, ht, hac, if_false, Bool.not_true, Bool.not_false, Bool.false_eq_true, if_true]
  rfl

theorem Dev.canFrameRx_stored (ha : d.canAccepts k ident = true) {b : Nat} (hb : d.canFree k = some b) :
    d.canFrameRx k ident ctrl data false = (d.canTaken k).canStored k b (d.canS k) ident ctrl data := by
  have hac : ((d.put (R.CAN_STAT k) F.CAN_STAT_REC (d.get (R.CAN_STAT k) F.CAN_STAT_REC - 1)).canPassive k).canAccepts k ident = true :=
    (d.canAccepts_taken k ident).trans ha
  rw [Dev.canFree] at hb
  simp only [Dev.canFrameRx, not_busOff hk hoff, ht, hac, hb, if_false, Bool.not_true, Bool.false_eq_true]
  rfl

theorem Dev.canFrameRx_lost (ha : d.canAccepts k ident = true) (hb : d.canFree k = none) :
    d.canFrameRx k ident ctrl data false = (d.canTaken k).raiseN (Pg.CAN k) Ev.CAN_RX_OVF k := by
  have hac : ((d.put (R.CAN_STAT k) F.CAN_STAT_REC (d.get (R.CAN_STAT k) F.CAN_STAT_REC - 1)).canPassive k).canAccepts k ident = true :=
    (d.canAccepts_taken k ident).trans ha
  rw [Dev.canFree] at hb
  simp only [Dev.canFrameRx, not_busOff hk hoff, ht, hac, hb, if_false, Bool.not_true, Bool.false_eq_true]
  rfl

end

end

/-! ### CAN_FRAME_TX -/

/-- A pending frame sent: its buffer free, its time, the error count (R436, R437). -/
def Dev.canSent (d : Dev) (k b t : Nat) : Dev :=
  let e := (d.setCan k { d.canS k with pend := (d.canS k).pend.erase b }).setReg (canBuf k b 2) (BitVec.ofNat 32 d.gtc)
  ((e.put (R.CAN_STAT k) F.CAN_STAT_TEC (t - 1)).put (R.CAN_STAT k) F.CAN_STAT_LEC 0).canPassive k

/-- A frame that failed: the error count, BUS_OFF beyond 255 left out (R437). -/
def Dev.canFailed (d : Dev) (k t : Nat) : Dev :=
  ((d.fresh.2.put (R.CAN_STAT k) F.CAN_STAT_TEC (min 255 (t + 8))).put (R.CAN_STAT k) F.CAN_STAT_LEC d.fresh.1.toNat).canPassive k

theorem Dev.canFrameTx_none (h : d.canNext k = none) (ok : Bool) : d.canFrameTx k ok = d := by
  simp only [Dev.canFrameTx, h, ite_self]

section
variable {b : Nat} (hk : k < nCan) (hoff : d.flag (R.CAN_STAT k) F.CAN_STAT_BUS_OFF = false) (hn : d.canNext k = some b)
include hk hoff hn

theorem Dev.canFrameTx_sent : d.canFrameTx k true = d.canSent k b (d.get (R.CAN_STAT k) F.CAN_STAT_TEC) := by
  simp only [Dev.canFrameTx, hn, not_busOff hk hoff, if_false, if_true]
  rfl

theorem Dev.canFrameTx_failed : d.canFrameTx k false =
    if 255 < d.get (R.CAN_STAT k) F.CAN_STAT_TEC + 8 then
      ((d.canFailed k (d.get (R.CAN_STAT k) F.CAN_STAT_TEC)).putB (R.CAN_STAT k) F.CAN_STAT_BUS_OFF true).raiseN (Pg.CAN k) Ev.CAN_BUS_OFF k
    else d.canFailed k (d.get (R.CAN_STAT k) F.CAN_STAT_TEC) := by
  simp only [Dev.canFrameTx, hn, not_busOff hk hoff, if_false, Bool.false_eq_true]
  rfl

end

theorem canBuf_ne_stat {b w : Nat} (hk : k < 8) (hb : b < 40) (hw : w < 19) : canBuf k b w ≠ R.CAN_STAT k ∧ eventReg (canBuf k b w) = false := by
  rw [eventReg_eq_false]
  simp only [canBuf, R.CAN_RAM, R.CAN_STAT]
  omega

theorem canStat_quiet (hk : k < 8) : eventReg (R.CAN_STAT k) = false := by
  rw [eventReg_eq_false]
  simp only [R.CAN_STAT]
  omega

theorem Dev.canSent_spec (d : Dev) {b t : Nat} (hk : k < 8) (hb : b < 40) (ht : t < 256) :
    FrameOn canPart [R.CAN_STAT k, canBuf k b 2] d (d.canSent k b t) ∧ (∀ j, j ≠ k → (d.canSent k b t).canS j = d.canS j) ∧
    (d.canSent k b t).canS k = { d.canS k with pend := (d.canS k).pend.erase b } ∧
    (d.canSent k b t).reg (canBuf k b 2) = BitVec.ofNat 32 d.gtc ∧
    (d.canSent k b t).get (R.CAN_STAT k) F.CAN_STAT_TEC = t - 1 ∧ (d.canSent k b t).get (R.CAN_STAT k) F.CAN_STAT_LEC = 0 := by
  have hp := canPart_part
  have hm : R.CAN_STAT k ∈ [R.CAN_STAT k, canBuf k b 2] := List.mem_cons_self
  have hset : FrameOn canPart [R.CAN_STAT k, canBuf k b 2] d (d.setCan k { d.canS k with pend := (d.canS k).pend.erase b }) :=
    (FrameOn.refl hp _ d).part hp rfl fun a => Dev.reg_setCan _ _ _ _
  have hne := (canBuf_ne_stat hk hb (w := 2) (by omega)).1
  refine ⟨(((hset.setReg hp _ (by simp)).put hp _ _ hm).put hp _ _ hm).canPassive hp hm, fun j hj => ?_, ?_, ?_, ?_, ?_⟩
  · rw [Dev.canSent, Dev.canPassive_canS, Dev.canS_put, Dev.canS_put, Dev.canS_setReg, Dev.canS_setCan, if_neg hj]
  · rw [Dev.canSent, Dev.canPassive_canS, Dev.canS_put, Dev.canS_put, Dev.canS_setReg, Dev.canS_setCan_self]
  · rw [Dev.canSent, Dev.canPassive_reg _ _ hne, Dev.reg_put_ne _ _ _ hne, Dev.reg_put_ne _ _ _ hne, Dev.reg_setReg_self]
  · rw [Dev.canSent, Dev.canPassive_get _ _ _ (by decide), Dev.get_put_field _ _ _ _ _ _ (by decide), Dev.get_put_self _ _ _ _ (by decide)]
    exact Nat.mod_eq_of_lt (by rw [show fieldWidth F.CAN_STAT_TEC = 8 from rfl]; omega)
  · rw [Dev.canSent, Dev.canPassive_get _ _ _ (by decide), Dev.get_put_self _ _ _ _ (by decide)]
    rfl

theorem Dev.canFailed_spec (d : Dev) (k t : Nat) : FrameOn freePart [R.CAN_STAT k] d (d.canFailed k t) ∧
    (∀ j, (d.canFailed k t).canS j = d.canS j) ∧ (d.canFailed k t).get (R.CAN_STAT k) F.CAN_STAT_TEC = min 255 (t + 8) ∧
    (d.canFailed k t).flag (R.CAN_STAT k) F.CAN_STAT_BUS_OFF = d.flag (R.CAN_STAT k) F.CAN_STAT_BUS_OFF := by
  have hp := freePart_part
  have hm : R.CAN_STAT k ∈ [R.CAN_STAT k] := List.mem_singleton_self _
  have hf := d.fresh_free [R.CAN_STAT k]
  have hreg : d.fresh.2.reg (R.CAN_STAT k) = d.reg (R.CAN_STAT k) := rfl
  have hcan : ∀ j, d.fresh.2.canS j = d.canS j := fun _ => rfl
  rw [Dev.canFailed]
  generalize d.fresh = w at hf hreg hcan
  obtain ⟨w, e⟩ := w
  refine ⟨((hf.put hp _ _ hm).put hp _ _ hm).canPassive hp hm, fun j => ?_, ?_, ?_⟩
  · rw [Dev.canPassive_canS, Dev.canS_put, Dev.canS_put, hcan]
  · rw [Dev.canPassive_get _ _ _ (by decide), Dev.get_put_field _ _ _ _ _ _ (by decide), Dev.get_put_self _ _ _ _ (by decide)]
    exact Nat.mod_eq_of_lt (by rw [show fieldWidth F.CAN_STAT_TEC = 8 from rfl]; omega)
  · rw [Dev.canPassive_flag _ _ _ (by decide), Dev.flag_put_field _ _ _ _ (by decide), Dev.flag_put_field _ _ _ _ (by decide)]
    exact Dev.flag_of_reg hreg _

theorem pagePresent_can (m : Member) {k : Nat} (hk : k < 8) : pagePresent m (Pg.CAN k) = true := by
  have hinfo : ∀ i < 8, pageInfo (Pg.CAN i) = some (.canB, i) := by decide
  rw [pagePresent, hinfo k hk]
  rfl

/-- A frame that failed, whole (R437). -/
theorem Dev.canFailure_spec (d : Dev) (hk : k < 8) (hoff : d.flag (R.CAN_STAT k) F.CAN_STAT_BUS_OFF = false) :
    let t := d.get (R.CAN_STAT k) F.CAN_STAT_TEC
    let e := if 255 < t + 8 then
      ((d.canFailed k t).putB (R.CAN_STAT k) F.CAN_STAT_BUS_OFF true).raiseN (Pg.CAN k) Ev.CAN_BUS_OFF k else d.canFailed k t
    Frame { d with free := e.free } e [R.CAN_STAT k] ∧ e.canS k = d.canS k ∧ e.get (R.CAN_STAT k) F.CAN_STAT_TEC = min 255 (t + 8) ∧
      (255 < t + 8 → e.flag (R.CAN_STAT k) F.CAN_STAT_BUS_OFF = true ∧ Raised e (Pg.CAN k) Ev.CAN_BUS_OFF) ∧
      (t + 8 ≤ 255 → e.flag (R.CAN_STAT k) F.CAN_STAT_BUS_OFF = false) := by
  intro t
  have hm : R.CAN_STAT k ∈ [R.CAN_STAT k] := List.mem_singleton_self _
  have hst := canStat_quiet hk
  obtain ⟨hframe, hcan, htec, hbus⟩ := d.canFailed_spec k t
  generalize d.canFailed k t = f at hframe hcan htec hbus
  intro e
  by_cases h : 255 < t + 8
  · have he : e = (f.putB (R.CAN_STAT k) F.CAN_STAT_BUS_OFF true).raiseN (Pg.CAN k) Ev.CAN_BUS_OFF k := if_pos h
    have hput : ∀ j, (f.putB (R.CAN_STAT k) F.CAN_STAT_BUS_OFF true).canS j = f.canS j := fun j => f.canS_put _ _ _ _
    have hget : (f.putB (R.CAN_STAT k) F.CAN_STAT_BUS_OFF true).get (R.CAN_STAT k) F.CAN_STAT_TEC = f.get (R.CAN_STAT k) F.CAN_STAT_TEC :=
      Dev.get_put_field _ _ _ _ _ _ (by decide)
    have hset := f.flag_putB_self (R.CAN_STAT k) F.CAN_STAT_BUS_OFF true rfl (by decide)
    have hput2 := hframe.putB freePart_part F.CAN_STAT_BUS_OFF true hm
    have hq := Dev.raiseN_quiet (f.putB (R.CAN_STAT k) F.CAN_STAT_BUS_OFF true) (Pg.CAN k) Ev.CAN_BUS_OFF k
    have hr := Dev.raiseN_raised (f.putB (R.CAN_STAT k) F.CAN_STAT_BUS_OFF true) (src := Ev.CAN_BUS_OFF) k (pagePresent_can _ hk)
    rw [← he] at hq hr
    exact ⟨hput2.quiet freePart_part hq, (hq.canS k).trans ((hput k).trans (hcan k)), (hq.get hst _).trans (hget.trans htec),
      fun _ => ⟨(hq.flag hst _).trans hset, hr⟩, fun hn => by omega⟩
  · have he : e = f := if_neg h
    rw [he]
    exact ⟨hframe, hcan k, htec, fun hn => absurd hn h, fun _ => hbus.trans hoff⟩

/-- A frame taken and put into a buffer (R436). -/
def Dev.canReceived (d : Dev) (k b : Nat) (ident ctrl : Word) (data : List Byte) : Dev :=
  (d.canTaken k).canStored k b (d.canS k) ident ctrl data

theorem Dev.canReceived_frame (d : Dev) (k b : Nat) (ident ctrl : Word) (data : List Byte) :
    FrameOn canPart (R.CAN_STAT k :: (List.range 19).map (canBuf k b)) d (d.canReceived k b ident ctrl data) := by
  obtain ⟨tframe, -, -⟩ := d.canTaken_spec k
  rw [Dev.canReceived]
  generalize d.canTaken k = t at tframe
  obtain ⟨hframe, -⟩ := t.canStored_spec k b (d.canS k) ident ctrl data
  exact (tframe.widen noPart_part canPart_part (fun _ _ => rfl) fun x hx => by rw [List.mem_singleton.1 hx]; exact List.mem_cons_self).trans
    canPart_part (hframe.widen canPart_part canPart_part (fun _ _ => rfl) fun x hx => List.mem_cons_of_mem _ hx)

theorem FrameOn.gtc_eq {l : List Nat} {d e : Dev} (h : FrameOn noPart l d e) : e.gtc = d.gtc := (congrArg Dev.gtc h.1 :)

theorem Dev.canReceived_spec (d : Dev) (k b : Nat) (ident ctrl : Word) (data : List Byte) :
    (∀ j, j ≠ k → (d.canReceived k b ident ctrl data).canS j = d.canS j) ∧
    (d.canReceived k b ident ctrl data).canS k = { d.canS k with full := (d.canS k).full ++ [b] } ∧
    (d.canReceived k b ident ctrl data).reg (canBuf k b 0) = ident ∧ (d.canReceived k b ident ctrl data).reg (canBuf k b 1) = ctrl ∧
    (d.canReceived k b ident ctrl data).reg (canBuf k b 2) = BitVec.ofNat 32 d.gtc ∧
    ∀ j, j < (wordsOfBytes (data.take 64)).length →
      (d.canReceived k b ident ctrl data).reg (canBuf k b (3 + j)) = nthD 0 (wordsOfBytes (data.take 64)) j := by
  obtain ⟨tframe, tcan, -⟩ := d.canTaken_spec k
  rw [Dev.canReceived]
  generalize d.canTaken k = t at tframe tcan
  obtain ⟨-, hoth, hown, h0, h1, h2, hdata⟩ := t.canStored_spec k b (d.canS k) ident ctrl data
  exact ⟨fun j hj => (hoth j hj).trans (tcan j), hown, h0, h1, h2.trans (congrArg _ tframe.gtc_eq), hdata⟩

/-! ### Recovery -/

/-- The fields of CAN_CTRL. -/
def canCtrlFields : List FieldDef := [⟨F.CAN_CTRL_FD_EN, .rwc, 1⟩, ⟨F.CAN_CTRL_BRS_EN, .rwc, 1⟩, ⟨F.CAN_CTRL_RECOVER, .w1s, 0⟩]

theorem placed_canCtrl (hk : k < 8) : Placed d (R.CAN_CTRL k) .canB k 0x40 := by
  have hpage : pageOf (R.CAN_CTRL k) = 0xB0 + k := by
    simp only [R.CAN_CTRL, pageOf]
    omega
  have hinfo : ∀ i < 8, pageInfo (0xB0 + i) = some (.canB, i) := by decide
  exact ⟨by rw [hpage]; exact hinfo k hk, by simp only [R.CAN_CTRL, offOf]; omega, rfl, rfl, by omega⟩

/-- The word that asks for recovery carries the other fields as they stand. -/
theorem getF_recover (cur : Word) {f : RField} (h : f.lo ≤ f.hi ∧ f.hi < 32 ∧ 30 ≤ f.lo) :
    getF (cur ||| fieldMask F.CAN_CTRL_RECOVER) f = getF cur f := by
  refine getF_congr fun i hlo hhi => ?_
  rw [BitVec.getLsbD_or, fieldMask_bit _ _ (by omega), decide_eq_false (p := i - F.CAN_CTRL_RECOVER.lo < fieldWidth F.CAN_CTRL_RECOVER),
    Bool.and_false, Bool.or_false]
  have hlo29 : F.CAN_CTRL_RECOVER.lo = 29 := rfl
  have hw1 : fieldWidth F.CAN_CTRL_RECOVER = 1 := rfl
  omega

theorem getF_recover_set (cur : Word) : getF (cur ||| fieldMask F.CAN_CTRL_RECOVER) F.CAN_CTRL_RECOVER = 1 := by
  have hmask : getF (fieldMask F.CAN_CTRL_RECOVER) F.CAN_CTRL_RECOVER = 1 := by decide
  rw [← hmask]
  refine getF_congr fun i hlo hhi => ?_
  have hi : i = 29 := by
    have hlo29 : F.CAN_CTRL_RECOVER.lo = 29 := rfl
    have hhi29 : F.CAN_CTRL_RECOVER.hi = 29 := rfl
    omega
  rw [hi, BitVec.getLsbD_or, show (fieldMask F.CAN_CTRL_RECOVER).getLsbD 29 = true by decide, Bool.or_true]

theorem takeRecover (ok : FieldDef → Bool) (hok : ok ⟨F.CAN_CTRL_RECOVER, .w1s, 0⟩ = true) (cur : Word) :
    applyFields ok (cur ||| fieldMask F.CAN_CTRL_RECOVER) canCtrlFields cur = cur ||| fieldMask F.CAN_CTRL_RECOVER ∧
    writeRefused ok cur (cur ||| fieldMask F.CAN_CTRL_RECOVER) canCtrlFields = false := by
  have hfd : getF (cur ||| fieldMask F.CAN_CTRL_RECOVER) F.CAN_CTRL_FD_EN = getF cur F.CAN_CTRL_FD_EN := getF_recover cur (by decide)
  have hbrs : getF (cur ||| fieldMask F.CAN_CTRL_RECOVER) F.CAN_CTRL_BRS_EN = getF cur F.CAN_CTRL_BRS_EN := getF_recover cur (by decide)
  have hmask : (cur ||| fieldMask F.CAN_CTRL_RECOVER) &&& fieldMask F.CAN_CTRL_RECOVER = fieldMask F.CAN_CTRL_RECOVER := by
    refine BitVec.eq_of_getLsbD_eq fun i _ => ?_
    rw [BitVec.getLsbD_and, BitVec.getLsbD_or]
    cases cur.getLsbD i <;> cases (fieldMask F.CAN_CTRL_RECOVER).getLsbD i <;> rfl
  constructor
  · simp only [canCtrlFields, applyFields, fieldNext, hfd, hbrs, setF_getF, hmask, hok, ite_self, if_true]
  · simp only [canCtrlFields, writeRefused, List.any_cons, List.any_nil, fieldTries, hfd, hbrs, hok]
    simp

/-- A taken write that asks for recovery sets RECOVER alone. -/
theorem Dev.plainWrite_recover {mid : Nat} (hk : k < 8) (ht : d.takenAt mid (R.CAN_CTRL k) = true) :
    d.plainWrite mid (R.CAN_CTRL k) (d.reg (R.CAN_CTRL k) ||| fieldMask F.CAN_CTRL_RECOVER) =
      d.setReg (R.CAN_CTRL k) (d.reg (R.CAN_CTRL k) ||| fieldMask F.CAN_CTRL_RECOVER) := by
  have h := placed_canCtrl (d := d) hk
  have hr : regAt .canB 0x40 = some (⟨0x040, 0x0, 1, 0, 1, canCtrlFields⟩, 0, 0) := rfl
  have hin : inRegs (R.CAN_CTRL k) = true := by
    rw [inRegs_iff, R.CAN_CTRL]
    omega
  have htaken : d.writeTaken mid .canB k (pageOf (R.CAN_CTRL k)) 0x40 = true := by
    rw [Dev.takenAt, h.info, h.offset] at ht
    simp only [Bool.and_eq_true] at ht
    exact ht.2
  rw [Dev.writeTaken, hr] at htaken
  obtain ⟨fd, hfd, hok⟩ := List.any_eq_true.1 htaken
  have hrec : d.fieldOk mid .canB k (pageOf (R.CAN_CTRL k)) 0x40 ⟨F.CAN_CTRL_RECOVER, .w1s, 0⟩ = true := by
    simp only [canCtrlFields, List.mem_cons, List.not_mem_nil, or_false] at hfd
    obtain rfl | rfl | rfl := hfd
    · exact (Bool.and_eq_true_iff.1 hok).1
    · exact (Bool.and_eq_true_iff.1 hok).1
    · exact hok
  obtain ⟨happ, href⟩ := takeRecover _ hrec (d.reg (R.CAN_CTRL k))
  rw [d.plainWrite_placed h hr mid BitVec.and_zero, Dev.writeFields, h.address hin, happ, href]
  rfl

theorem Dev.canCtrlWrite_recover {mid : Nat} (hk : k < 8) (ht : d.takenAt mid (R.CAN_CTRL k) = true) :
    Frame d (d.canCtrlWrite mid k (d.reg (R.CAN_CTRL k) ||| fieldMask F.CAN_CTRL_RECOVER)) [R.CAN_CTRL k] ∧
    (d.canCtrlWrite mid k (d.reg (R.CAN_CTRL k) ||| fieldMask F.CAN_CTRL_RECOVER)).flag (R.CAN_CTRL k) F.CAN_CTRL_RECOVER =
      d.flag (R.CAN_STAT k) F.CAN_STAT_BUS_OFF := by
  have hm : R.CAN_CTRL k ∈ [R.CAN_CTRL k] := List.mem_singleton_self _
  have hframe := (FrameOn.refl noPart_part [R.CAN_CTRL k] d).setReg noPart_part (d.reg (R.CAN_CTRL k) ||| fieldMask F.CAN_CTRL_RECOVER) hm
  have hflag : (d.setReg (R.CAN_CTRL k) (d.reg (R.CAN_CTRL k) ||| fieldMask F.CAN_CTRL_RECOVER)).flag (R.CAN_CTRL k) F.CAN_CTRL_RECOVER = true := by
    rw [Dev.flag, Dev.get, Dev.reg_setReg_self, getF_recover_set]
    rfl
  have hne : R.CAN_STAT k ≠ R.CAN_CTRL k := by
    simp only [R.CAN_STAT, R.CAN_CTRL]
    omega
  have hoff := Dev.flag_of_reg (Dev.reg_setReg_ne d (d.reg (R.CAN_CTRL k) ||| fieldMask F.CAN_CTRL_RECOVER) hne) F.CAN_STAT_BUS_OFF
  rw [Dev.canCtrlWrite, Dev.plainWrite_recover hk ht]
  generalize d.setReg (R.CAN_CTRL k) (d.reg (R.CAN_CTRL k) ||| fieldMask F.CAN_CTRL_RECOVER) = e at hframe hflag hoff
  rw [hoff]
  split
  · next h => exact ⟨hframe, by rw [hflag, h]⟩
  · next h => exact ⟨hframe.putB noPart_part _ _ hm, by rw [Dev.flag_putB_self _ _ _ _ rfl (by decide), Bool.eq_false_iff.2 h]⟩

/-- BUS_OFF left (R437). -/
def Dev.canBack (d : Dev) (k : Nat) : Dev :=
  let d := ((d.putB (R.CAN_STAT k) F.CAN_STAT_BUS_OFF false).put (R.CAN_STAT k) F.CAN_STAT_TEC 0).put (R.CAN_STAT k) F.CAN_STAT_REC 0
  (d.putB (R.CAN_CTRL k) F.CAN_CTRL_RECOVER false).canPassive k

theorem Dev.canRecovered_eq (hk : k < nCan) (hoff : d.flag (R.CAN_STAT k) F.CAN_STAT_BUS_OFF = true)
    (hr : d.flag (R.CAN_CTRL k) F.CAN_CTRL_RECOVER = true) : d.canRecovered k = d.canBack k := by
  rw [Dev.canRecovered, hoff, hr, decide_eq_true hk]
  rfl

theorem Dev.canBack_spec (d : Dev) (k : Nat) : Frame d (d.canBack k) [R.CAN_STAT k, R.CAN_CTRL k] ∧
    (d.canBack k).flag (R.CAN_STAT k) F.CAN_STAT_BUS_OFF = false ∧ (d.canBack k).get (R.CAN_STAT k) F.CAN_STAT_TEC = 0 ∧
    (d.canBack k).get (R.CAN_STAT k) F.CAN_STAT_REC = 0 ∧ (d.canBack k).flag (R.CAN_STAT k) F.CAN_STAT_PASSIVE = false ∧
    (d.canBack k).flag (R.CAN_CTRL k) F.CAN_CTRL_RECOVER = false := by
  have hp := noPart_part
  have hm : R.CAN_STAT k ∈ [R.CAN_STAT k, R.CAN_CTRL k] := List.mem_cons_self
  have hne : R.CAN_STAT k ≠ R.CAN_CTRL k := by
    simp only [R.CAN_STAT, R.CAN_CTRL]
    omega
  -- the counters before PASSIVE follows them
  have hcnt : ∀ e : Dev, e.get (R.CAN_STAT k) F.CAN_STAT_TEC = 0 → e.get (R.CAN_STAT k) F.CAN_STAT_REC = 0 →
      (e.canPassive k).flag (R.CAN_STAT k) F.CAN_STAT_PASSIVE = false := fun e h1 h2 => by
    rw [Dev.canPassive, Dev.flag_putB_self _ _ _ _ rfl (by decide), h1, h2]
    rfl
  have hset : ∀ (e : Dev) (f : RField) (x : Bool), fieldWidth f = 1 → f.lo < 32 → (e.put (R.CAN_STAT k) f (b2n x)).flag (R.CAN_STAT k) f = x :=
    fun e f x h1 h2 => e.flag_putB_self _ _ x h1 h2
  have hmod : ∀ f : RField, 0 % 2 ^ fieldWidth f = 0 := fun _ => Nat.zero_mod _
  have hputB : ∀ (e : Dev) (f : RField) (x : Bool), (e.putB (R.CAN_CTRL k) f x).reg (R.CAN_STAT k) = e.reg (R.CAN_STAT k) :=
    fun e f x => e.reg_put_ne _ _ hne
  have htec : (((((d.putB (R.CAN_STAT k) F.CAN_STAT_BUS_OFF false).put (R.CAN_STAT k) F.CAN_STAT_TEC 0).put (R.CAN_STAT k)
      F.CAN_STAT_REC 0).putB (R.CAN_CTRL k) F.CAN_CTRL_RECOVER false)).get (R.CAN_STAT k) F.CAN_STAT_TEC = 0 := by
    rw [Dev.get_of_reg (hputB _ _ _), Dev.get_put_field _ _ _ _ _ _ (by decide), Dev.get_put_self _ _ _ _ (by decide), hmod]
  have hrec : (((((d.putB (R.CAN_STAT k) F.CAN_STAT_BUS_OFF false).put (R.CAN_STAT k) F.CAN_STAT_TEC 0).put (R.CAN_STAT k)
      F.CAN_STAT_REC 0).putB (R.CAN_CTRL k) F.CAN_CTRL_RECOVER false)).get (R.CAN_STAT k) F.CAN_STAT_REC = 0 := by
    rw [Dev.get_of_reg (hputB _ _ _), Dev.get_put_self _ _ _ _ (by decide), hmod]
  refine ⟨((((FrameOn.refl hp _ d).putB hp _ _ hm).put hp _ _ hm).put hp _ _ hm |>.putB hp _ _ (by simp)).canPassive hp hm, ?_, ?_, ?_, ?_, ?_⟩ <;>
    rw [Dev.canBack]
  · rw [Dev.canPassive_flag _ _ _ (by decide), Dev.flag_of_reg (hputB _ _ _), Dev.flag_put_field _ _ _ _ (by decide),
      Dev.flag_put_field _ _ _ _ (by decide), Dev.putB, hset _ _ _ rfl (by decide)]
  · rw [Dev.canPassive_get _ _ _ (by decide), htec]
  · rw [Dev.canPassive_get _ _ _ (by decide), hrec]
  · exact hcnt _ htec hrec
  · rw [Dev.flag_of_reg (Dev.canPassive_reg _ _ hne.symm), Dev.flag_putB_self _ _ _ _ rfl (by decide)]

end

theorem Dev.clocked_runs {d : Dev} {page : Nat} (h : d.frozen page = false) (f : Dev → Dev) : d.clocked page f = f d := by
  rw [Dev.clocked, h]
  rfl

theorem Dev.clocked_same {d : Dev} (page : Nat) {f : Dev → Dev} (h : f d = d) : d.clocked page f = d := by
  rw [Dev.clocked, h]
  exact ite_self _

/-- Settles O50. -/
theorem canBuses : Obligations.CanBuses := by
  intro s k hup hk
  have hk8 : k < 8 := hk
  have hst := canStat_quiet hk8
  have hpage := pagePresent_can s.dev.member hk8
  refine ⟨fun ident ctrl data => ⟨fun hr hoff => ?_, fun h => ?_, fun hr hfit hoff ha => ?_, fun b hr hfit hoff ha hb => ?_,
    fun hr hfit hoff ha hb => ?_⟩, fun hn ok => ?_, fun b hr hoff hn => ⟨?_, ?_, ?_⟩, fun mid ht => ?_, fun hr hoff hrec => ?_⟩
  · obtain ⟨hframe, hcan, hcnt⟩ := s.dev.canRxError_spec k
    exact ⟨_, onDev_eq hup ((Dev.clocked_runs hr _).trans (Dev.canFrameRx_error hk hoff)), hframe, hcan k, hcnt⟩
  · have hno := h.imp_right fun hn => Bool.eq_false_iff.2 fun ht => hn ((Dev.canTakes_iff _ _ _ data).1 ht)
    exact onDev_same hup (Dev.clocked_same _ (Dev.canFrameRx_passes hno))
  · obtain ⟨hframe, hcan, hcnt⟩ := s.dev.canTaken_spec k
    exact ⟨_, onDev_eq hup ((Dev.clocked_runs hr _).trans (Dev.canFrameRx_other hk hoff ((Dev.canTakes_iff _ _ _ _).2 hfit) ha)), hframe,
      hcan k, hcnt⟩
  · have hcmd := (Dev.clocked_runs hr fun d => d.canFrameRx k ident ctrl data false).trans (Dev.canFrameRx_stored hk hoff ((Dev.canTakes_iff _ _ _ _).2 hfit) ha hb)
    exact ⟨_, onDev_eq hup hcmd, s.dev.canReceived_frame k b ident ctrl data, s.dev.canReceived_spec k b ident ctrl data⟩
  · have hcmd := (Dev.clocked_runs hr fun d => d.canFrameRx k ident ctrl data false).trans (Dev.canFrameRx_lost hk hoff ((Dev.canTakes_iff _ _ _ _).2 hfit) ha hb)
    obtain ⟨hframe, hcan, -⟩ := s.dev.canTaken_spec k
    have hmem := hframe.1
    generalize s.dev.canTaken k = e at hcmd hframe hcan hmem
    have hq := e.raiseN_quiet (Pg.CAN k) Ev.CAN_RX_OVF k
    exact ⟨_, onDev_eq hup hcmd, hframe.quiet noPart_part hq, (hq.canS k).trans (hcan k), e.raiseN_raised k (pagePresent_can _ hk8)⟩
  · exact onDev_same hup (Dev.clocked_same _ (Dev.canFrameTx_none hn ok))
  · obtain ⟨-, hp, hs, hall⟩ := Dev.canNext_spec hn
    exact ⟨hp, (Dev.canSends_iff _ _ _).1 hs, fun x hx hlt hsx => hall x hx hlt ((Dev.canSends_iff _ _ _).2 hsx)⟩
  · obtain ⟨hb, -⟩ := Dev.canNext_spec hn
    exact ⟨_, onDev_eq hup ((Dev.clocked_runs hr _).trans (Dev.canFrameTx_sent hk hoff hn)),
      s.dev.canSent_spec hk8 (by omega) (getF_lt _ F.CAN_STAT_TEC)⟩
  · exact ⟨_, onDev_eq hup ((Dev.clocked_runs hr _).trans (Dev.canFrameTx_failed hk hoff hn)),
      Dev.canFailure_spec s.dev hk8 hoff⟩
  · exact ⟨_, onDev_eq hup (if_pos hk), Dev.canCtrlWrite_recover hk8 ht⟩
  · exact ⟨_, onDev_eq hup ((Dev.clocked_runs hr _).trans (Dev.canRecovered_eq hk hoff hrec)), s.dev.canBack_spec k⟩

end Sys2Proof.Machine
end

section
/-! PROOFS. Ethernet frames, delays and links (R438 to R440, R450). -/

namespace Sys2Proof.Machine

section
variable {d e : Dev} {k : Nat}

/-- A counter that goes one on has counted (it saturates). -/
theorem Dev.bump_counted (d : Dev) (a : Nat) (f : RField) (h : f.lo + fieldWidth f ≤ 32) : Counted d (d.bump a f) a f := by
  rw [Counted, Dev.bump, Dev.addSat, Dev.get_put_self _ _ _ _ h]
  have hpos := Nat.two_pow_pos (fieldWidth f)
  exact Nat.mod_eq_of_lt (by omega)

/-- Ethernet ports aside. -/
def ethPart (d e : Dev) : Dev := { d with eth := e.eth }

theorem ethPart_part : Part ethPart := ⟨fun _ => rfl, fun _ _ _ => rfl, fun _ _ => rfl, fun _ _ _ => rfl⟩

theorem ethStat_quiet (hk : k < nEth) : eventReg (R.ETH_STAT k) = false := by
  rw [eventReg_eq_false]
  simp only [R.ETH_STAT, nEth] at hk ⊢
  omega

theorem pagePresent_eth (m : Member) (hk : k < nEth) : pagePresent m (Pg.ETH k) = true := by
  have hinfo : ∀ i < 2, pageInfo (Pg.ETH i) = some (.ethB, i) := by decide
  rw [pagePresent, hinfo k hk]
  rfl

/-! ### Frames received -/

/-- What a port asks of any frame. -/
theorem ethFrame_reaches {bs : List Byte} (hk : k < nEth) :
    ¬(nEth ≤ k ∨ (!d.flag (R.ETH_STAT k) F.ETH_STAT_LINK) = true ∨ ethMax < bs.length ∨ bs.length < 14) ↔
      d.flag (R.ETH_STAT k) F.ETH_STAT_LINK = true ∧ 14 ≤ bs.length ∧ bs.length ≤ ethMax := by
  simp only [not_or, Bool.not_eq_true', Bool.not_eq_false, Nat.not_lt, Nat.not_le]
  exact ⟨fun ⟨_, hl, hmax, h14⟩ => ⟨hl, h14, hmax⟩, fun ⟨hl, h14, hmax⟩ => ⟨hk, hl, hmax, h14⟩⟩

theorem isPdelayReq_type {bs : List Byte} (h : isPdelayReq bs = true) : etherType bs = 0x88F7 := by
  simp only [isPdelayReq, Bool.and_eq_true, beq_iff_eq] at h
  exact h.1.1.1

section
variable {bs : List Byte} (hk : k < nEth)
  (hlen : d.flag (R.ETH_STAT k) F.ETH_STAT_LINK = true ∧ 14 ≤ bs.length ∧ bs.length ≤ ethMax)
include hk hlen

theorem Dev.ethFrameRx_queued (ht : etherType bs ≠ 0x88F7) (ha : d.ethAccepts k bs = true)
    (hfit : ((d.ethS k).rx.map frameSpace).sum + frameSpace bs ≤ ethFifo) :
    d.ethFrameRx k bs = d.setEth k { d.ethS k with rx := (d.ethS k).rx ++ [bs] } := by
  rw [Dev.ethFrameRx, if_neg ((ethFrame_reaches hk).2 hlen), if_neg ht, ha, if_neg (by simp), if_neg (Nat.not_lt.2 hfit)]

theorem Dev.ethFrameRx_dropped (ht : etherType bs ≠ 0x88F7) (ha : d.ethAccepts k bs = true)
    (hfit : ethFifo < ((d.ethS k).rx.map frameSpace).sum + frameSpace bs) :
    d.ethFrameRx k bs = d.bump (R.ETH_STAT k) F.ETH_STAT_RX_DROP := by
  rw [Dev.ethFrameRx, if_neg ((ethFrame_reaches hk).2 hlen), if_neg ht, ha, if_neg (by simp), if_pos hfit]

theorem Dev.ethFrameRx_pdelay (hq : isPdelayReq bs = true) : d.ethFrameRx k bs = d.pdelayAnswer k := by
  rw [Dev.ethFrameRx, if_neg ((ethFrame_reaches hk).2 hlen), if_pos (isPdelayReq_type hq), if_pos hq]

end

theorem Dev.pdelayAnswer_given (h0 : d.flag R.RST_DOM F.RST_DOM_S0_HELD = false) (hb : d.devState ≠ DS.BOOT) :
    d.pdelayAnswer k = d.setEth k { d.ethS k with pdAns := some d.gtc } := by
  rw [Dev.pdelayAnswer, h0, Bool.false_or, if_neg (by simpa using hb)]

theorem Dev.pdelayAnswer_none (h : ¬(d.flag R.RST_DOM F.RST_DOM_S0_HELD = false ∧ d.devState ≠ DS.BOOT)) : d.pdelayAnswer k = d := by
  refine if_pos ?_
  rw [Bool.or_eq_true, beq_iff_eq]
  by_cases h0 : d.flag R.RST_DOM F.RST_DOM_S0_HELD = true
  · exact .inl h0
  · exact .inr (by_contra fun hb => h ⟨Bool.eq_false_iff.2 h0, hb⟩)

/-- A frame that no port takes and that asks nothing of Garmal leaves the port. -/
theorem Dev.ethFrameRx_passes {bs : List Byte} (hk : k < nEth)
    (hok : ¬(d.flag (R.ETH_STAT k) F.ETH_STAT_LINK = true ∧ etherType bs ≠ 0x88F7 ∧ 14 ≤ bs.length ∧ bs.length ≤ ethMax ∧
      d.ethAccepts k bs = true))
    (hask : ¬(d.flag (R.ETH_STAT k) F.ETH_STAT_LINK = true ∧ 14 ≤ bs.length ∧ bs.length ≤ ethMax ∧ isPdelayReq bs = true ∧
      d.flag R.RST_DOM F.RST_DOM_S0_HELD = false ∧ d.devState ≠ DS.BOOT)) : d.ethFrameRx k bs = d := by
  by_cases hlen : d.flag (R.ETH_STAT k) F.ETH_STAT_LINK = true ∧ 14 ≤ bs.length ∧ bs.length ≤ ethMax
  · obtain ⟨hl, h14, hmax⟩ := hlen
    by_cases ht : etherType bs = 0x88F7
    · by_cases hq : isPdelayReq bs = true
      · rw [Dev.ethFrameRx_pdelay hk ⟨hl, h14, hmax⟩ hq]
        exact Dev.pdelayAnswer_none fun h => hask ⟨hl, h14, hmax, hq, h⟩
      · rw [Dev.ethFrameRx, if_neg ((ethFrame_reaches hk).2 ⟨hl, h14, hmax⟩), if_pos ht, if_neg hq]
    · have ha : d.ethAccepts k bs = false := Bool.eq_false_iff.2 fun ha => hok ⟨hl, ht, h14, hmax, ha⟩
      rw [Dev.ethFrameRx, if_neg ((ethFrame_reaches hk).2 ⟨hl, h14, hmax⟩), if_neg ht, ha]
      rfl
  · exact if_pos (not_not.1 fun h => hlen ((ethFrame_reaches hk).1 h))

/-! ### Frames sent -/

section
variable {mid : Nat} {w : Word}

theorem Dev.ethTxdWrite_refused (h : d.takenAt mid (R.ETH_TXD k) = false) : d.ethTxdWrite mid k w = d.deny (Pg.ETH k) := by
  rw [Dev.ethTxdWrite, h]
  rfl

theorem Dev.ethTxdWrite_full (h : d.takenAt mid (R.ETH_TXD k) = true) (hf : ethFifo ≤ 4 * (d.ethS k).tx.length) :
    d.ethTxdWrite mid k w = d.putB (R.ETH_STAT k) F.ETH_STAT_TX_OVF true := by
  rw [Dev.ethTxdWrite, h, if_neg (by simp), if_pos hf]

section
variable (h : d.takenAt mid (R.ETH_TXD k) = true) (hf : 4 * (d.ethS k).tx.length < ethFifo)
include h hf

theorem Dev.ethTxdWrite_last (hw : 0 < d.get (R.ETH_TXLEN k) F.ETH_TXLEN_LEN ∧ d.get (R.ETH_TXLEN k) F.ETH_TXLEN_LEN ≤ ethMax ∧
      d.get (R.ETH_TXLEN k) F.ETH_TXLEN_LEN ≤ 4 * ((d.ethS k).tx ++ [w]).length) :
    d.ethTxdWrite mid k w = d.setEth k { d.ethS k with
      tx := [], sent := (((d.ethS k).tx ++ [w]).flatMap bytesOfWord).take (d.get (R.ETH_TXLEN k) F.ETH_TXLEN_LEN) } := by
  rw [Dev.ethTxdWrite, h, if_neg (by simp), if_neg (Nat.not_le.2 hf), if_pos hw]

theorem Dev.ethTxdWrite_waits (hw : ¬(0 < d.get (R.ETH_TXLEN k) F.ETH_TXLEN_LEN ∧ d.get (R.ETH_TXLEN k) F.ETH_TXLEN_LEN ≤ ethMax ∧
      d.get (R.ETH_TXLEN k) F.ETH_TXLEN_LEN ≤ 4 * ((d.ethS k).tx ++ [w]).length)) :
    d.ethTxdWrite mid k w = d.setEth k { d.ethS k with tx := (d.ethS k).tx ++ [w] } := by
  rw [Dev.ethTxdWrite, h, if_neg (by simp), if_neg (Nat.not_le.2 hf), if_neg hw]

end

/-! ### Frames read -/

theorem Dev.ethRxdRead_none (h : (d.ethS k).rx = []) : d.ethRxdRead mid k = d.answer mid 0 := by
  simp only [Dev.ethRxdRead, Dev.ethRxdWord, h, List.headD_nil, List.drop_nil, List.take_nil]
  rfl

theorem Dev.ethRxdRead_word {f : List Byte} {r : List (List Byte)} (h : (d.ethS k).rx = f :: r) :
    d.ethRxdRead mid k = (d.answer mid (wordOfBytes ((f.drop (4 * (d.ethS k).pos)).take 4))).setEth k
      (if f.length ≤ 4 * ((d.ethS k).pos + 1) then { d.ethS k with rx := r, pos := 0 } else { d.ethS k with pos := (d.ethS k).pos + 1 }) := by
  simp only [Dev.ethRxdRead, Dev.ethRxdWord, h, List.headD_cons]
  split <;> rfl

/-- What a read and a new state of a port leave. -/
theorem Dev.answer_setEth (d : Dev) (mid k : Nat) (w : Word) (x : EthSt) :
    Quiet { d with rdata := ((d.answer mid w).setEth k x).rdata, eth := ((d.answer mid w).setEth k x).eth } ((d.answer mid w).setEth k x) ∧
    (∀ j, j ≠ k → ((d.answer mid w).setEth k x).ethS j = d.ethS j) ∧ ((d.answer mid w).setEth k x).answered mid = w ∧
    ((d.answer mid w).setEth k x).ethS k = x :=
  ⟨⟨rfl, fun _ _ => rfl, fun _ _ h => h⟩, fun j hj => ((d.answer mid w).ethS_setEth k j x).trans (if_neg hj), spGet_spPut_self _ _ _,
    Dev.ethS_setEth_self _ _ _⟩

end

/-! ### Delays and links -/

theorem Dev.pdelay_early {ns : Nat} (hs : d.get R.TL_CTRL F.TL_CTRL_SYNC_PORT = k) (h : d.gtc < (d.ethS k).pdNext) : d.pdelay ns = d := by
  subst hs
  exact if_pos (.inr h)

/-- A delay measured on a port (R439). -/
def Dev.pdelayTaken (d : Dev) (k ns : Nat) : Dev :=
  ((d.setEth k { d.ethS k with pdNext := d.gtc + 400000000 }).put (R.ETH_PDLY k) F.ETH_PDLY_DLY (min ns 65535)).ethAsCap k true

theorem Dev.pdelay_taken {ns : Nat} (hk : k < nEth) (hs : d.get R.TL_CTRL F.TL_CTRL_SYNC_PORT = k) (h : (d.ethS k).pdNext ≤ d.gtc) :
    d.pdelay ns = d.pdelayTaken k ns := by
  subst hs
  exact if_neg (not_or.2 ⟨Nat.not_le.2 hk, Nat.not_lt.2 h⟩)

theorem Dev.pdelayTaken_spec (d : Dev) (k ns : Nat) : FrameOn ethPart [R.ETH_PDLY k, R.ETH_STAT k] d (d.pdelayTaken k ns) ∧
    (∀ j, (d.pdelayTaken k ns).ethS j = if j = k then { d.ethS k with pdNext := d.gtc + 400000000 } else d.ethS j) ∧
    (d.pdelayTaken k ns).get (R.ETH_PDLY k) F.ETH_PDLY_DLY = min ns 65535 ∧
    (d.pdelayTaken k ns).flag (R.ETH_STAT k) F.ETH_STAT_AS_CAP = decide (min ns 65535 < d.get (R.ETH_PDLY k) F.ETH_PDLY_MAX) := by
  have hp := ethPart_part
  have hne : R.ETH_PDLY k ≠ R.ETH_STAT k := by
    simp only [R.ETH_PDLY, R.ETH_STAT]
    omega
  have hset := (FrameOn.refl hp [R.ETH_PDLY k, R.ETH_STAT k] d).part hp (f := d.setEth k { d.ethS k with pdNext := d.gtc + 400000000 }) rfl
    fun a => Dev.reg_setEth _ _ _ _
  have heth : ∀ j, (d.setEth k { d.ethS k with pdNext := d.gtc + 400000000 }).ethS j = _ := fun j => d.ethS_setEth k j _
  have hget := fun f => Dev.get_of_reg (Dev.reg_setEth d (R.ETH_PDLY k) k { d.ethS k with pdNext := d.gtc + 400000000 }) f
  rw [Dev.pdelayTaken]
  generalize d.setEth k { d.ethS k with pdNext := d.gtc + 400000000 } = e at hset heth hget
  have hdly : (e.put (R.ETH_PDLY k) F.ETH_PDLY_DLY (min ns 65535)).get (R.ETH_PDLY k) F.ETH_PDLY_DLY = min ns 65535 := by
    rw [Dev.get_put_self _ _ _ _ (by decide)]
    exact Nat.mod_eq_of_lt (by rw [show fieldWidth F.ETH_PDLY_DLY = 16 from rfl]; omega)
  have hmax : (e.put (R.ETH_PDLY k) F.ETH_PDLY_DLY (min ns 65535)).get (R.ETH_PDLY k) F.ETH_PDLY_MAX = d.get (R.ETH_PDLY k) F.ETH_PDLY_MAX := by
    rw [Dev.get_put_field _ _ _ _ _ _ (by decide), hget]
  refine ⟨(hset.put hp _ _ List.mem_cons_self).putB hp _ _ (by simp), fun j => ?_, ?_, ?_⟩
  · rw [Dev.ethAsCap, Dev.putB, Dev.ethS_put, Dev.ethS_put, heth]
  · rw [Dev.ethAsCap, Dev.putB, Dev.get_of_reg (Dev.reg_put_ne _ _ _ hne), hdly]
  · rw [Dev.ethAsCap, Dev.flag_putB_self _ _ _ _ rfl (by decide), Bool.true_and, hdly, hmax]

theorem Dev.ethLink_spec (d : Dev) (b : Bool) (v : Nat) (hk : k < nEth) : Frame d (d.ethLink k b v) [R.ETH_STAT k] ∧
    (d.ethLink k b v).flag (R.ETH_STAT k) F.ETH_STAT_LINK = b ∧
    (b = true → (d.ethLink k b v).get (R.ETH_STAT k) F.ETH_STAT_SPEED = v % 4) ∧
    (b ≠ d.flag (R.ETH_STAT k) F.ETH_STAT_LINK → Raised (d.ethLink k b v) (Pg.ETH k) Ev.ETH_LINK) := by
  have hp := noPart_part
  have hm : R.ETH_STAT k ∈ [R.ETH_STAT k] := List.mem_singleton_self _
  have hst := ethStat_quiet hk
  have hup := (FrameOn.refl hp _ d).putB hp F.ETH_STAT_LINK b hm
  have hlink := d.flag_putB_self (R.ETH_STAT k) F.ETH_STAT_LINK b rfl (by decide)
  have hmem : (d.putB (R.ETH_STAT k) F.ETH_STAT_LINK b).member = d.member := rfl
  rw [Dev.ethLink, if_neg (Nat.not_le.2 hk)]
  dsimp only
  generalize d.putB (R.ETH_STAT k) F.ETH_STAT_LINK b = u at hup hlink hmem
  have hshown : FrameOn noPart [R.ETH_STAT k] d (if b = true then u.put (R.ETH_STAT k) F.ETH_STAT_SPEED v else u) :=
    .ite (fun _ => hup.put hp _ _ hm) fun _ => hup
  have hlink2 : (if b = true then u.put (R.ETH_STAT k) F.ETH_STAT_SPEED v else u).flag (R.ETH_STAT k) F.ETH_STAT_LINK = b := by
    split
    · rw [Dev.flag_put_field _ _ _ _ (by decide), hlink]
    · exact hlink
  have hspeed : b = true →
      (if b = true then u.put (R.ETH_STAT k) F.ETH_STAT_SPEED v else u).get (R.ETH_STAT k) F.ETH_STAT_SPEED = v % 4 := fun hb => by
    rw [if_pos hb, Dev.get_put_self _ _ _ _ (by decide)]
    rfl
  generalize (if b = true then u.put (R.ETH_STAT k) F.ETH_STAT_SPEED v else u) = x at hshown hlink2 hspeed
  have hq := x.raiseNIf_quiet (b != d.flag (R.ETH_STAT k) F.ETH_STAT_LINK) (Pg.ETH k) Ev.ETH_LINK k
  refine ⟨hshown.quiet hp hq, (hq.flag hst _).trans hlink2, fun hb => (hq.get hst _).trans (hspeed hb), fun hne => ?_⟩
  rw [Dev.raiseNIf, if_pos (by simpa using hne)]
  exact x.raiseN_raised k (pagePresent_eth _ hk)

end

/-- Settles O51. -/
theorem ethernetPorts : Obligations.EthernetPorts := by
  intro s k hup hk
  refine ⟨fun bs => ⟨fun hr ⟨hl, ht, h14, hmax, ha⟩ hfit => ?_, fun hr ⟨hl, ht, h14, hmax, ha⟩ hfit => ?_,
    fun hr ⟨hl, h14, hmax, hq, h0, hb⟩ => ?_, fun hok hask => ?_⟩, fun mid w => ⟨fun ht hf => ⟨fun hw => ?_, fun hw => ?_⟩, fun ht hf => ?_,
    fun ht => ?_⟩, fun mid f r hrx => ?_, fun mid hrx => ?_, fun mid ht => ?_, fun ns hs => ⟨fun hr hn => ?_, fun hn => ?_⟩, fun b v hr => ?_⟩
  · exact onDev_eq hup ((Dev.clocked_runs hr fun d => d.ethFrameRx k bs).trans (Dev.ethFrameRx_queued hk ⟨hl, h14, hmax⟩ ht ha hfit))
  · exact ⟨_, onDev_eq hup ((Dev.clocked_runs hr fun d => d.ethFrameRx k bs).trans (Dev.ethFrameRx_dropped hk ⟨hl, h14, hmax⟩ ht ha hfit)),
      (FrameOn.refl noPart_part _ _).bump noPart_part _ (List.mem_singleton_self _), Dev.bump_counted _ _ _ (by decide)⟩
  · exact onDev_eq hup ((Dev.clocked_runs hr fun d => d.ethFrameRx k bs).trans
      ((Dev.ethFrameRx_pdelay hk ⟨hl, h14, hmax⟩ hq).trans (Dev.pdelayAnswer_given h0 hb)))
  · exact onDev_same hup (Dev.clocked_same _ (Dev.ethFrameRx_passes hk hok hask))
  · exact onDev_eq hup ((if_pos hk).trans (Dev.ethTxdWrite_last ht hf hw))
  · exact onDev_eq hup ((if_pos hk).trans (Dev.ethTxdWrite_waits ht hf hw))
  · exact ⟨_, onDev_eq hup ((if_pos hk).trans (Dev.ethTxdWrite_full ht hf)),
      (FrameOn.refl noPart_part _ _).putB noPart_part _ _ (List.mem_singleton_self _), Dev.flag_putB_self _ _ _ _ rfl (by decide),
      Dev.ethS_put _ _ _ _ _⟩
  · exact onDev_eq hup ((if_pos hk).trans (Dev.ethTxdWrite_refused ht))
  · exact ⟨_, onDev_eq hup ((if_pos hk).trans (Dev.ethRxdRead_word hrx)), s.dev.answer_setEth mid k _ _⟩
  · exact ⟨_, onDev_eq hup ((if_pos hk).trans (Dev.ethRxdRead_none hrx)), (OnlyRead.refl _).answer mid 0, Dev.answered_answer _ _ _⟩
  · have hcmd : s.dev.ethCtrlWrite mid k 1 = s.dev.setEth k { s.dev.ethS k with rx := (s.dev.ethS k).rx.drop 1, pos := 0 } := by
      rw [Dev.ethCtrlWrite, ht]
      rfl
    exact onDev_eq hup ((if_pos hk).trans hcmd)
  · have hrun : s.dev.frozen (Pg.ETH s.dev.syncPort) = false := by rw [Dev.syncPort, hs]; exact hr
    exact ⟨_, onDev_eq hup ((Dev.clocked_runs hrun fun d => d.pdelay ns).trans (Dev.pdelay_taken hk hs hn)), s.dev.pdelayTaken_spec k ns⟩
  · exact onDev_same hup (Dev.clocked_same _ (Dev.pdelay_early hs hn))
  · exact ⟨_, onDev_eq hup (Dev.clocked_runs hr fun d => d.ethLink k b v), s.dev.ethLink_spec b v hk⟩

end Sys2Proof.Machine
end

section
/-! PROOFS. PCIe link and function, LPDDR4X training and its patrol scrub (R415, R441, R442, R448 to R450). -/

namespace Sys2Proof.Machine

section
variable {d e : Dev}

/-! ### What the peers of a master see (R415) -/

theorem mbxBind_quiet (c : Nat) (hc : c < 32) : eventReg (R.MBX_BIND c) = false := by
  rw [eventReg_eq_false]
  simp only [R.MBX_BIND]
  omega

theorem Quiet.mbxSide (h : Quiet d e) {c : Nat} (hc : c < 32) (mid : Nat) : e.mbxSide c mid = d.mbxSide c mid := by
  simp only [Dev.mbxSide, h.flag (mbxBind_quiet c hc), h.get (mbxBind_quiet c hc)]

/-- What the side across a master sees of its reset. -/
def Dev.sideTold (d e : Dev) (mid c : Nat) : Prop :=
  (d.mbxSide c mid = 1 → (e.mbxS c).rstSeenB = true) ∧ (d.mbxSide c mid = 2 → (e.mbxS c).rstSeenA = true)

/-- One channel's part of a peer's reset. -/
def Dev.peerTold (mid c : Nat) (e : Dev) : Dev :=
  if e.mbxSide c mid = 0 then e
  else (e.setMbx c (if e.mbxSide c mid = 1 then { e.mbxS c with rstSeenB := true } else { e.mbxS c with rstSeenA := true })).raise
    Pg.MBX Ev.MBX_PEER_RST

theorem Dev.peerReset_eq (d : Dev) (mid : Nat) : d.peerReset mid = forN 32 (Dev.peerTold mid) d := rfl

theorem Dev.peerTold_quiet (mid c : Nat) (e : Dev) : Quiet e (e.peerTold mid c) :=
  Quiet.ite _ (fun _ => .refl e) fun _ => (e.setMbx_quiet c _).trans (Dev.raise_quiet _ _ _)

/-- The words of the other channels stand. -/
theorem Dev.peerTold_other (mid : Nat) {j c : Nat} (h : j ≠ c) (e : Dev) : (e.peerTold mid c).mbxS j = e.mbxS j := by
  rw [Dev.peerTold]
  split
  · rfl
  · rw [(Dev.raise_mail _ _ (by decide)).mbxS, Dev.mbxS_setMbx, if_neg h]

theorem Dev.peerTold_told (mid : Nat) {c : Nat} (e : Dev) : e.sideTold (e.peerTold mid c) mid c := by
  rw [Dev.sideTold, Dev.peerTold]
  split
  · next h0 => exact ⟨fun h => absurd (h0.symm.trans h) (by decide), fun h => absurd (h0.symm.trans h) (by decide)⟩
  · rw [(Dev.raise_mail _ _ (by decide)).mbxS, Dev.mbxS_setMbx_self]
    exact ⟨fun h => by rw [if_pos h], fun h => by rw [if_neg (by omega)]⟩

theorem Dev.peerReset_spec (d : Dev) (mid : Nat) : Quiet d (d.peerReset mid) ∧ ∀ c < 32, d.sideTold (d.peerReset mid) mid c := by
  rw [Dev.peerReset_eq]
  refine forN_each (I := Quiet d) (Q := fun c e => d.sideTold e mid c) 32 (fun c _ e he => he.trans (e.peerTold_quiet mid c))
    (fun c hc e he => ?_) (fun c _ j hj e _ ht => ?_) (.refl d)
  · have ht := e.peerTold_told mid (c := c)
    rw [Dev.sideTold, he.mbxSide hc] at ht
    exact ht
  · rw [Dev.sideTold, e.peerTold_other mid (Nat.ne_of_lt hj)]
    exact ht

/-! ### PCIe -/

/-- PCIe aside. -/
def pciePart (d e : Dev) : Dev := { d with pcie := e.pcie }

theorem pciePart_part : Part pciePart := ⟨fun _ => rfl, fun _ _ _ => rfl, fun _ _ => rfl, fun _ _ _ => rfl⟩

/-- The new state of PCIe, its reset shown. -/
def Dev.pciePut (d : Dev) (p : PcieSt) : Dev := Dev.putB { d with pcie := p } R.RST_DOM F.RST_DOM_PCIE_RST p.fnRst

theorem Dev.pcieChange_eq (d : Dev) (p : PcieSt) :
    d.pcieChange p = if (!d.peerRst Mid.PCIE && (d.pciePut p).peerRst Mid.PCIE) = true then (d.pciePut p).peerReset Mid.PCIE else d.pciePut p := rfl

theorem Dev.pcieChange_quiet (d : Dev) (p : PcieSt) : Quiet (d.pciePut p) (d.pcieChange p) := by
  rw [Dev.pcieChange_eq]
  split
  · exact (Dev.peerReset_spec _ _).1
  · exact .refl _

theorem Dev.peerRst_pcie (d : Dev) : d.peerRst Mid.PCIE = (!d.pcie.l0 || d.pcie.fnRst) := rfl

theorem Dev.pciePut_pcie (d : Dev) (p : PcieSt) : (d.pciePut p).pcie = p := rfl

theorem Dev.pciePut_reg (d : Dev) (p : PcieSt) {a : Nat} (h : a ≠ R.RST_DOM) : (d.pciePut p).reg a = d.reg a :=
  Dev.reg_put_ne { d with pcie := p } _ _ h

theorem FrameOn.pciePut {l : List Nat} (h : FrameOn pciePart l d e) (p : PcieSt) (hl : R.RST_DOM ∈ l) :
    FrameOn pciePart l d (e.pciePut p) :=
  FrameOn.putB pciePart_part (h.part (f := { e with pcie := p }) pciePart_part rfl fun _ => rfl) _ _ hl

/-- A frame that begins anew where a part is given whole. -/
theorem FrameOn.pcieFrame {l : List Nat} (h : FrameOn pciePart l d e) : Frame { d with pcie := e.pcie } e l := h

section
variable {l0 : Bool} {speed width payload : Nat} {d3 : Bool}

theorem pcieLinkOk_iff : pcieLinkOk l0 speed width payload = true ↔
    payload ≤ 256 ∧ ((l0 || speed != 0) = true → 1 ≤ speed ∧ speed ≤ 3 ∧ 1 ≤ width ∧ width ≤ 2) := by
  rw [pcieLinkOk, Bool.and_eq_true, decide_eq_true_eq]
  refine and_congr_right fun _ => ?_
  by_cases hup : (l0 || speed != 0) = true
  · rw [if_pos hup, Bool.and_eq_true, Bool.and_eq_true, Bool.and_eq_true, decide_eq_true_eq, decide_eq_true_eq, decide_eq_true_eq,
      decide_eq_true_eq, and_assoc, and_assoc]
    exact ⟨fun h _ => h, fun h => h hup⟩
  · rw [if_neg hup]
    exact ⟨fun _ h => absurd h hup, fun _ => rfl⟩

/-- A link as PCIE_STAT shows it. -/
def Dev.linkShown (d : Dev) (up : Bool) (speed width : Nat) (d3 : Bool) : Dev :=
  (((d.putB R.PCIE_STAT F.PCIE_STAT_LINK_UP up).put R.PCIE_STAT F.PCIE_STAT_SPEED speed).put R.PCIE_STAT F.PCIE_STAT_WIDTH width).putB
    R.PCIE_STAT F.PCIE_STAT_D3HOT d3

theorem Dev.linkShown_spec (d : Dev) (up : Bool) (d3 : Bool) (hs : speed < 4) (hw : width < 4) :
    FrameOn pciePart [R.PCIE_STAT, R.RST_DOM] d (d.linkShown up speed width d3) ∧
    (d.linkShown up speed width d3).flag R.PCIE_STAT F.PCIE_STAT_LINK_UP = up ∧
    (d.linkShown up speed width d3).get R.PCIE_STAT F.PCIE_STAT_SPEED = speed ∧
    (d.linkShown up speed width d3).get R.PCIE_STAT F.PCIE_STAT_WIDTH = width ∧
    (d.linkShown up speed width d3).flag R.PCIE_STAT F.PCIE_STAT_D3HOT = d3 := by
  have hp := pciePart_part
  have hm : R.PCIE_STAT ∈ [R.PCIE_STAT, R.RST_DOM] := List.mem_cons_self
  have hup := d.flag_putB_self R.PCIE_STAT F.PCIE_STAT_LINK_UP up rfl (by decide)
  refine ⟨((((FrameOn.refl hp _ d).putB hp _ _ hm).put hp _ _ hm).put hp _ _ hm).putB hp _ _ hm, ?_, ?_, ?_, ?_⟩
  · rw [Dev.linkShown, Dev.putB, Dev.flag_put_field _ _ _ _ (by decide), Dev.flag_put_field _ _ _ _ (by decide),
      Dev.flag_put_field _ _ _ _ (by decide), hup]
  · rw [Dev.linkShown, Dev.putB, Dev.get_put_field _ _ _ _ _ _ (by decide), Dev.get_put_field _ _ _ _ _ _ (by decide),
      Dev.get_put_self _ _ _ _ (by decide)]
    exact Nat.mod_eq_of_lt hs
  · rw [Dev.linkShown, Dev.putB, Dev.get_put_field _ _ _ _ _ _ (by decide), Dev.get_put_self _ _ _ _ (by decide)]
    exact Nat.mod_eq_of_lt hw
  · exact Dev.flag_putB_self _ _ _ d3 rfl (by decide)

/-- What PCIE_LINK makes of PCIe. -/
def linkState (l0 up d3 rst : Bool) (payload : Nat) : PcieSt :=
  { l0 := l0, l1 := up && !l0, d3 := d3, fnRst := rst && !l0, payload := if up then payload else 0 }

theorem Dev.pcieLink_eq (hm : hasPcie d.member = true) (hok : pcieLinkOk l0 speed width payload = true) :
    d.pcieLink l0 speed width d3 payload =
      ((d.linkShown (l0 || speed != 0) (if (l0 || speed != 0) = true then speed else 0) (if (l0 || speed != 0) = true then width else 0)
        d3).pcieChange (linkState l0 (l0 || speed != 0) d3 d.pcie.fnRst payload)).raiseIf (l0 != d.pcie.l0) Pg.PCIE Ev.PCIE_LINK := by
  rw [Dev.pcieLink, hm, hok]
  rfl

theorem Dev.pcieLink_passes (h : hasPcie d.member = false ∨ pcieLinkOk l0 speed width payload = false) :
    d.pcieLink l0 speed width d3 payload = d := by
  refine if_pos ?_
  obtain h | h := h
  · rw [h]; rfl
  · rw [h, Bool.not_false, Bool.or_true]

theorem pagePresent_pcie {m : Member} (hm : hasPcie m = true) : pagePresent m Pg.PCIE = true := hm

/-- A change of the link shown, and told. -/
theorem Dev.linkTold_spec (d : Dev) (p : PcieSt) (told up : Bool) (hm : hasPcie d.member = true) (hs : speed < 4) (hw : width < 4) :
    FrameOn pciePart [R.PCIE_STAT, R.RST_DOM] d
      (((d.linkShown up speed width d3).pcieChange p).raiseIf told Pg.PCIE Ev.PCIE_LINK) ∧
    (((d.linkShown up speed width d3).pcieChange p).raiseIf told Pg.PCIE Ev.PCIE_LINK).pcie = p ∧
    (((d.linkShown up speed width d3).pcieChange p).raiseIf told Pg.PCIE Ev.PCIE_LINK).flag R.PCIE_STAT F.PCIE_STAT_LINK_UP = up ∧
    (((d.linkShown up speed width d3).pcieChange p).raiseIf told Pg.PCIE Ev.PCIE_LINK).get R.PCIE_STAT F.PCIE_STAT_SPEED = speed ∧
    (((d.linkShown up speed width d3).pcieChange p).raiseIf told Pg.PCIE Ev.PCIE_LINK).get R.PCIE_STAT F.PCIE_STAT_WIDTH = width ∧
    (((d.linkShown up speed width d3).pcieChange p).raiseIf told Pg.PCIE Ev.PCIE_LINK).flag R.PCIE_STAT F.PCIE_STAT_D3HOT = d3 ∧
    (told = true → Raised (((d.linkShown up speed width d3).pcieChange p).raiseIf told Pg.PCIE Ev.PCIE_LINK) Pg.PCIE Ev.PCIE_LINK) := by
  obtain ⟨hframe, hup, hspeed, hwidth, hd3⟩ := d.linkShown_spec up d3 hs hw
  have hmem : (d.linkShown up speed width d3).member = d.member := rfl
  generalize d.linkShown up speed width d3 = u at hframe hup hspeed hwidth hd3 hmem
  have hput := hframe.pciePut p (by simp)
  have hq := u.pcieChange_quiet p
  have hreg : (u.pciePut p).reg R.PCIE_STAT = u.reg R.PCIE_STAT := u.pciePut_reg p (by decide)
  have hx := u.pciePut_pcie p
  have hmem2 : (u.pcieChange p).member = d.member := hq.member.trans hmem
  generalize u.pciePut p = v at hput hq hreg hx
  have hq2 := hq.trans ((u.pcieChange p).raiseIf_quiet told Pg.PCIE Ev.PCIE_LINK)
  have hst : eventReg R.PCIE_STAT = false := by decide
  refine ⟨hput.quiet pciePart_part hq2, hq2.pcie.trans hx, (hq2.flag hst _).trans ((Dev.flag_of_reg hreg _).trans hup),
    (hq2.get hst _).trans ((Dev.get_of_reg hreg _).trans hspeed), (hq2.get hst _).trans ((Dev.get_of_reg hreg _).trans hwidth),
    (hq2.flag hst _).trans ((Dev.flag_of_reg hreg _).trans hd3), fun ht => ?_⟩
  rw [Dev.raiseIf, if_pos ht]
  exact (u.pcieChange p).raise_raised (pagePresent_pcie (hmem2 ▸ hm))

end

/-! ### The reset of the function -/

theorem pcieMsix_inj {i j : Nat} (h : R.PCIE_MSIX i = R.PCIE_MSIX j) : i = j := by
  simp only [R.PCIE_MSIX] at h
  omega

/-- The table of vectors as it resets. -/
def Dev.msixReset (d : Dev) : Dev := forN 128 (fun i e => e.setReg (R.PCIE_MSIX i) (resetWord e.member (R.PCIE_MSIX i))) d

theorem Dev.msixReset_spec (d : Dev) : (FrameOn noPart ((List.range 128).map R.PCIE_MSIX) d d.msixReset ∧ d.msixReset.member = d.member) ∧
    ∀ i < 128, d.msixReset.reg (R.PCIE_MSIX i) = resetWord d.member (R.PCIE_MSIX i) := by
  refine forN_each (I := fun e => FrameOn noPart ((List.range 128).map R.PCIE_MSIX) d e ∧ e.member = d.member)
    (Q := fun i e => e.reg (R.PCIE_MSIX i) = resetWord d.member (R.PCIE_MSIX i)) 128 (fun i hi e he => ?_) (fun i _ e he => ?_)
    (fun i _ j hj e _ ht => ?_) ⟨FrameOn.refl noPart_part _ d, rfl⟩
  · exact ⟨he.1.setReg noPart_part _ (List.mem_map_of_mem (List.mem_range.2 hi)), he.2⟩
  · rw [Dev.reg_setReg_self, he.2]
  · rw [Dev.reg_setReg_ne _ _ fun h => Nat.ne_of_lt hj (pcieMsix_inj h)]
    exact ht

theorem pgEvtRaw_ne_pba (page : Nat) : R.PG_EVT_RAW page ≠ R.PCIE_PBA := by
  simp only [R.PG_EVT_RAW, pageBase, R.PCIE_PBA]
  omega

/-- The pending bits are the events' own. -/
theorem Dev.setPba_quiet (d : Dev) (w : Word) : Quiet d (d.setReg R.PCIE_PBA w) := by
  refine ⟨rfl, fun a ha => d.reg_setReg_ne w fun h => ?_, fun p i h => ?_⟩
  · rw [h] at ha
    exact absurd ha (by decide)
  · rw [d.reg_setReg_ne w (pgEvtRaw_ne_pba p)]
    exact h

/-- The device before its function is told reset. -/
def Dev.functionCleared (d : Dev) : Dev := (d.msixReset.setReg R.PCIE_PBA 0).putB R.PCIE_STAT F.PCIE_STAT_D3HOT false

theorem Dev.pcieFunctionReset_eq (hm : hasPcie d.member = true) :
    d.pcieFunctionReset = d.functionCleared.pcieChange { d.functionCleared.pcie with d3 := false, fnRst := true, payload := 0 } := by
  rw [Dev.pcieFunctionReset, hm]
  rfl

theorem Dev.pcieFunctionReset_passes (hm : hasPcie d.member = false) : d.pcieFunctionReset = d := by
  rw [Dev.pcieFunctionReset, hm]
  rfl

theorem pcieMsix_apart {i : Nat} (hi : i < 128) : R.PCIE_MSIX i ≠ R.PCIE_STAT ∧ R.PCIE_MSIX i ≠ R.PCIE_PBA ∧ R.PCIE_MSIX i ≠ R.RST_DOM ∧
    eventReg (R.PCIE_MSIX i) = false := by
  rw [eventReg_eq_false]
  simp only [R.PCIE_MSIX, R.PCIE_STAT, R.PCIE_PBA, R.RST_DOM]
  omega

theorem FrameOn.pcie_eq {l : List Nat} (h : FrameOn noPart l d e) : e.pcie = d.pcie := (congrArg Dev.pcie h.1 :)

theorem Dev.functionCleared_spec (d : Dev) :
    FrameOn noPart ([R.PCIE_STAT, R.RST_DOM] ++ (List.range 128).map R.PCIE_MSIX) d d.functionCleared ∧
    d.functionCleared.flag R.PCIE_STAT F.PCIE_STAT_D3HOT = false ∧
    ∀ i < 128, d.functionCleared.reg (R.PCIE_MSIX i) = resetWord d.member (R.PCIE_MSIX i) := by
  obtain ⟨⟨hframe, -⟩, hmsix⟩ := d.msixReset_spec
  rw [Dev.functionCleared]
  generalize d.msixReset = u at hframe hmsix
  have hp := noPart_part
  have hwide : FrameOn noPart ([R.PCIE_STAT, R.RST_DOM] ++ (List.range 128).map R.PCIE_MSIX) d u :=
    Frame.mono hframe fun a ha => List.mem_append_right _ ha
  refine ⟨(hwide.quiet hp (u.setPba_quiet 0)).putB hp _ _ (by simp), Dev.flag_putB_self _ _ _ _ rfl (by decide), fun i hi => ?_⟩
  obtain ⟨hst, hpba, -, -⟩ := pcieMsix_apart hi
  rw [Dev.putB, Dev.reg_put_ne _ _ _ hst, Dev.reg_setReg_ne _ _ hpba, hmsix i hi]

theorem mbxBind_ne (c : Nat) (hc : c < 32) : R.MBX_BIND c ∉ [R.PCIE_STAT, R.RST_DOM] ++ (List.range 128).map R.PCIE_MSIX := by
  simp only [List.mem_append, List.mem_cons, List.not_mem_nil, or_false, List.mem_map, List.mem_range, not_or, not_exists, not_and, R.MBX_BIND,
    R.PCIE_STAT, R.RST_DOM, R.PCIE_MSIX]
  exact ⟨⟨by omega, by omega⟩, fun i _ => by omega⟩

theorem mbxSide_of_reg {c : Nat} (h : e.reg (R.MBX_BIND c) = d.reg (R.MBX_BIND c)) (mid : Nat) : e.mbxSide c mid = d.mbxSide c mid := by
  simp only [Dev.mbxSide, Dev.flag_of_reg h, Dev.get_of_reg h]

theorem Dev.functionReset_spec (d : Dev) {u : Dev} (hframe : FrameOn noPart ([R.PCIE_STAT, R.RST_DOM] ++ (List.range 128).map R.PCIE_MSIX) d u)
    (hd3 : u.flag R.PCIE_STAT F.PCIE_STAT_D3HOT = false) (hmsix : ∀ i < 128, u.reg (R.PCIE_MSIX i) = resetWord d.member (R.PCIE_MSIX i)) :
    Frame { d with pcie := { d.pcie with d3 := false, fnRst := true, payload := 0 } }
      (u.pcieChange { u.pcie with d3 := false, fnRst := true, payload := 0 }) ([R.PCIE_STAT, R.RST_DOM] ++ (List.range 128).map R.PCIE_MSIX) ∧
    (u.pcieChange { u.pcie with d3 := false, fnRst := true, payload := 0 }).flag R.PCIE_STAT F.PCIE_STAT_D3HOT = false ∧
    (u.pcieChange { u.pcie with d3 := false, fnRst := true, payload := 0 }).flag R.RST_DOM F.RST_DOM_PCIE_RST = true ∧
    (∀ i, i < 128 → (u.pcieChange { u.pcie with d3 := false, fnRst := true, payload := 0 }).reg (R.PCIE_MSIX i) =
      resetWord d.member (R.PCIE_MSIX i)) ∧
    (d.peerRst Mid.PCIE = false → ∀ c, c < 32 → d.sideTold (u.pcieChange { u.pcie with d3 := false, fnRst := true, payload := 0 }) Mid.PCIE c) := by
  have hpcie : u.pcie = d.pcie := hframe.pcie_eq
  rw [hpcie]
  generalize hp : ({ d.pcie with d3 := false, fnRst := true, payload := 0 } : PcieSt) = p
  have hrst : p.fnRst = true := hp ▸ rfl
  have hq := u.pcieChange_quiet p
  have hput := (hframe.widen noPart_part pciePart_part (fun _ _ => rfl) fun _ h => h).pciePut p (by simp)
  have hreg : ∀ a, a ≠ R.RST_DOM → (u.pciePut p).reg a = u.reg a := fun a h => u.pciePut_reg p h
  have hflag : (u.pciePut p).flag R.RST_DOM F.RST_DOM_PCIE_RST = p.fnRst := Dev.flag_putB_self _ _ _ _ rfl (by decide)
  have hall := hput.quiet pciePart_part hq
  have hx : (u.pcieChange p).pcie = p := hq.pcie.trans (u.pciePut_pcie p)
  have hpcf := hall.pcieFrame
  rw [hx] at hpcf
  refine ⟨hpcf, ?_, ?_, fun i hi => ?_, fun hno c hc => ?_⟩
  · exact (hq.flag (a := R.PCIE_STAT) (by decide) _).trans ((Dev.flag_of_reg (hreg R.PCIE_STAT (by decide)) _).trans hd3)
  · exact (hq.flag (a := R.RST_DOM) (by decide) _).trans (hflag.trans hrst)
  · obtain ⟨-, -, hne, hev⟩ := pcieMsix_apart hi
    rw [hq.2.1 _ hev, hreg _ hne, hmsix i hi]
  · have hwas : u.peerRst Mid.PCIE = false := by rw [Dev.peerRst_pcie, hpcie, ← Dev.peerRst_pcie, hno]
    have hnow : (u.pciePut p).peerRst Mid.PCIE = true := by rw [Dev.peerRst_pcie, u.pciePut_pcie, hrst, Bool.or_true]
    have hside : (u.pciePut p).mbxSide c Mid.PCIE = d.mbxSide c Mid.PCIE :=
      mbxSide_of_reg (hput.reg pciePart_part (mbxBind_quiet c hc) (mbxBind_ne c hc)) _
    rw [Dev.pcieChange_eq, hwas, hnow, if_pos (show (!false && true) = true from rfl)]
    have ht := (u.pciePut p).peerReset_spec Mid.PCIE |>.2 c hc
    rw [Dev.sideTold, hside] at ht
    exact ht

/-! ### LPDDR4X training -/

/-- The memory fitted, as training leaves it. -/
def Dev.fittedNow (d : Dev) (ok : Bool) (n : Nat) : Dev := { d with sys := { d.sys with fitted := if ok then n else 0, scrub := 0 } }

/-- READY and TRAIN_FAIL after training. -/
def Dev.trained (d : Dev) (ok : Bool) (n : Nat) : Dev :=
  ((d.fittedNow ok n).putB R.DDR_STAT F.DDR_STAT_READY ok).putB R.DDR_STAT F.DDR_STAT_TRAIN_FAIL !ok

/-- USABLE after training. -/
def Dev.usableShown (d : Dev) (ok : Bool) : Dev := d.put R.DDR_STAT F.DDR_STAT_USABLE (if ok then d.ddrUsable else 0)

theorem Dev.ddrTraining_eq {ok : Bool} {n : Nat} (hm : hasDdr d.member = true) (hb : d.devState = DS.BOOT) : d.ddrTraining ok n =
    ((d.trained ok n).usableShown ok).putB R.REC_STAT F.REC_STAT_ONCHIP ((d.trained ok n).usableShown ok).recOnChip := by
  rw [Dev.ddrTraining, hm, hb]
  rfl

theorem Dev.trained_spec (d : Dev) (ok : Bool) (n : Nat) : FrameOn noPart [R.DDR_STAT, R.REC_STAT] (d.fittedNow ok n) (d.trained ok n) ∧
    (d.trained ok n).flag R.DDR_STAT F.DDR_STAT_READY = ok ∧ (d.trained ok n).flag R.DDR_STAT F.DDR_STAT_TRAIN_FAIL = !ok ∧
    (d.trained ok n).flag R.DDR_CFG F.DDR_CFG_ECC_EN = d.flag R.DDR_CFG F.DDR_CFG_ECC_EN ∧
    (d.trained ok n).sys.fitted = if ok then n else 0 := by
  have hp := noPart_part
  have hm : R.DDR_STAT ∈ [R.DDR_STAT, R.REC_STAT] := List.mem_cons_self
  have hready := (d.fittedNow ok n).flag_putB_self R.DDR_STAT F.DDR_STAT_READY ok rfl (by decide)
  have hcfg : ∀ (e : Dev) (f : RField) (b : Bool), (e.putB R.DDR_STAT f b).reg R.DDR_CFG = e.reg R.DDR_CFG :=
    fun e f b => e.reg_put_ne _ _ (by decide)
  refine ⟨((FrameOn.refl hp _ _).putB hp _ _ hm).putB hp _ _ hm, ?_, Dev.flag_putB_self _ _ _ _ rfl (by decide), ?_, rfl⟩
  · rw [Dev.trained, Dev.putB, Dev.flag_put_field _ _ _ _ (by decide), hready]
  · rw [Dev.trained, Dev.flag_of_reg (hcfg _ _ _), Dev.flag_of_reg (hcfg _ _ _)]
    rfl

theorem Dev.ddrTraining_spec (d : Dev) (ok : Bool) (n : Nat) (hm : hasDdr d.member = true) (hb : d.devState = DS.BOOT) :
    Frame (d.fittedNow ok n) (d.ddrTraining ok n) [R.DDR_STAT, R.REC_STAT] ∧
    (d.ddrTraining ok n).flag R.DDR_STAT F.DDR_STAT_READY = ok ∧ (d.ddrTraining ok n).flag R.DDR_STAT F.DDR_STAT_TRAIN_FAIL = !ok ∧
    (d.ddrTraining ok n).flag R.REC_STAT F.REC_STAT_ONCHIP = !ok ∧
    (d.ddrTraining ok n).get R.DDR_STAT F.DDR_STAT_USABLE =
      if ok then (if d.flag R.DDR_CFG F.DDR_CFG_ECC_EN then n * 7 / 8 else n) % 65536 else 0 := by
  have hp := noPart_part
  rw [Dev.ddrTraining_eq hm hb]
  obtain ⟨hframe, hready, hfail, hecc, hfit⟩ := d.trained_spec ok n
  have hmem : (d.trained ok n).member = d.member := rfl
  generalize d.trained ok n = t at hframe hready hfail hecc hfit hmem
  have hus : (t.usableShown ok).get R.DDR_STAT F.DDR_STAT_USABLE =
      if ok then (if d.flag R.DDR_CFG F.DDR_CFG_ECC_EN then n * 7 / 8 else n) % 65536 else 0 := by
    rw [Dev.usableShown, Dev.get_put_self _ _ _ _ (by decide), Dev.ddrUsable, hecc, hfit]
    cases ok <;> rfl
  have hready2 : (t.usableShown ok).flag R.DDR_STAT F.DDR_STAT_READY = ok := by
    rw [Dev.usableShown, Dev.flag_put_field _ _ _ _ (by decide), hready]
  have hfail2 : (t.usableShown ok).flag R.DDR_STAT F.DDR_STAT_TRAIN_FAIL = !ok := by
    rw [Dev.usableShown, Dev.flag_put_field _ _ _ _ (by decide), hfail]
  have hframe2 : FrameOn noPart [R.DDR_STAT, R.REC_STAT] (d.fittedNow ok n) (t.usableShown ok) := hframe.put hp _ _ List.mem_cons_self
  have hmem2 : (t.usableShown ok).member = d.member := hmem
  generalize t.usableShown ok = u at hus hready2 hfail2 hframe2 hmem2
  have honchip : u.recOnChip = !ok := by rw [Dev.recOnChip, hmem2, hm, hready2, Bool.true_and]
  have hst : (u.putB R.REC_STAT F.REC_STAT_ONCHIP u.recOnChip).reg R.DDR_STAT = u.reg R.DDR_STAT := u.reg_put_ne _ _ (by decide)
  exact ⟨hframe2.putB hp _ _ (by simp), (Dev.flag_of_reg hst _).trans hready2, (Dev.flag_of_reg hst _).trans hfail2,
    (Dev.flag_putB_self _ _ _ _ rfl (by decide)).trans honchip, (Dev.get_of_reg hst _).trans hus⟩

/-! ### The patrol scrub -/

/-- What is known of faulty blocks aside. -/
def ddrPart (d e : Dev) : Dev := { d with sys := { d.sys with bad := e.sys.bad, ddrSoft := e.sys.ddrSoft } }

theorem ddrPart_part : Part ddrPart := ⟨fun _ => rfl, fun _ _ _ => rfl, fun _ _ => rfl, fun _ _ _ => rfl⟩

theorem Quiet.bad (h : Quiet d e) : e.sys.bad = d.sys.bad := (congrArg (fun x : Dev => x.sys.bad) h.1 : e.calm.sys.bad = d.calm.sys.bad)
theorem Quiet.ddrSoft (h : Quiet d e) : e.sys.ddrSoft = d.sys.ddrSoft :=
  (congrArg (fun x : Dev => x.sys.ddrSoft) h.1 : e.calm.sys.ddrSoft = d.calm.sys.ddrSoft)

theorem pagePresent_ddr {m : Member} (hm : hasDdr m = true) : pagePresent m Pg.DDR = true := hm

/-- A corrected error counted and shown. -/
def Dev.ddrCorrected (d : Dev) : Dev := (d.bump R.DDR_ECC F.DDR_ECC_CORR).raise Pg.DDR Ev.DDR_ECC_CORR

theorem Dev.ddrCorrected_spec (d : Dev) : Frame d d.ddrCorrected [R.DDR_ECC] ∧ Counted d d.ddrCorrected R.DDR_ECC F.DDR_ECC_CORR ∧
    (hasDdr d.member = true → Raised d.ddrCorrected Pg.DDR Ev.DDR_ECC_CORR) ∧ d.ddrCorrected.sys.bad = d.sys.bad ∧
    d.ddrCorrected.sys.ddrSoft = d.sys.ddrSoft := by
  have hp := noPart_part
  have hq := (d.bump R.DDR_ECC F.DDR_ECC_CORR).raise_quiet Pg.DDR Ev.DDR_ECC_CORR
  have hc := d.bump_counted R.DDR_ECC F.DDR_ECC_CORR (by decide)
  refine ⟨((FrameOn.refl hp _ d).bump hp _ (List.mem_singleton_self _)).quiet hp hq, (hq.get (by decide) _).trans hc, fun hm => ?_,
    hq.bad, hq.ddrSoft⟩
  exact Dev.raise_raised _ (pagePresent_ddr hm)

/-- A block that cannot be corrected, noted before it is raised. -/
def Dev.ddrNoted (d : Dev) (b : Nat) : Dev :=
  let d := (d.bump R.DDR_ECC F.DDR_ECC_UNCORR).setReg R.DDR_ECC_ADDR (BitVec.ofNat 32 b)
  { d with sys := { d.sys with bad := b :: d.sys.bad.erase b } }

/-- A block that cannot be corrected, noted. -/
def Dev.ddrLost (d : Dev) (b : Nat) : Dev := (d.ddrNoted b).raise Pg.DDR Ev.DDR_ECC_UNCORR

theorem Dev.ddrNoted_spec (d : Dev) (b : Nat) : FrameOn ddrPart [R.DDR_ECC, R.DDR_ECC_ADDR] d (d.ddrNoted b) ∧
    Counted d (d.ddrNoted b) R.DDR_ECC F.DDR_ECC_UNCORR ∧ (d.ddrNoted b).reg R.DDR_ECC_ADDR = BitVec.ofNat 32 b ∧
    (d.ddrNoted b).sys.bad = b :: d.sys.bad.erase b ∧ (d.ddrNoted b).sys.ddrSoft = d.sys.ddrSoft := by
  have hp := ddrPart_part
  have hframe := ((FrameOn.refl hp [R.DDR_ECC, R.DDR_ECC_ADDR] d).bump hp F.DDR_ECC_UNCORR List.mem_cons_self).setReg hp (BitVec.ofNat 32 b)
    (a := R.DDR_ECC_ADDR) (by simp)
  have hc := d.bump_counted R.DDR_ECC F.DDR_ECC_UNCORR (by decide)
  have hbad : ((d.bump R.DDR_ECC F.DDR_ECC_UNCORR).setReg R.DDR_ECC_ADDR (BitVec.ofNat 32 b)).sys = d.sys := rfl
  have hreg := (d.bump R.DDR_ECC F.DDR_ECC_UNCORR).reg_setReg_ne (b := R.DDR_ECC) (a := R.DDR_ECC_ADDR) (BitVec.ofNat 32 b) (by decide)
  have haddr := (d.bump R.DDR_ECC F.DDR_ECC_UNCORR).reg_setReg_self R.DDR_ECC_ADDR (BitVec.ofNat 32 b)
  rw [Counted] at hc ⊢
  rw [← Dev.get_of_reg hreg] at hc
  rw [Dev.ddrNoted]
  generalize (d.bump R.DDR_ECC F.DDR_ECC_UNCORR).setReg R.DDR_ECC_ADDR (BitVec.ofNat 32 b) = u at hframe hbad hc haddr
  refine ⟨hframe.part hp rfl fun _ => rfl, hc, haddr, ?_, ?_⟩
  · exact (congrArg (fun q : SysSt => b :: q.bad.erase b) hbad :)
  · exact (congrArg SysSt.ddrSoft hbad :)

theorem Dev.ddrLost_spec (d : Dev) (b : Nat) : FrameOn ddrPart [R.DDR_ECC, R.DDR_ECC_ADDR] d (d.ddrLost b) ∧
    Counted d (d.ddrLost b) R.DDR_ECC F.DDR_ECC_UNCORR ∧ (d.ddrLost b).reg R.DDR_ECC_ADDR = BitVec.ofNat 32 b ∧
    (hasDdr d.member = true → Raised (d.ddrLost b) Pg.DDR Ev.DDR_ECC_UNCORR) ∧
    (d.ddrLost b).sys.bad = b :: d.sys.bad.erase b ∧ (d.ddrLost b).sys.ddrSoft = d.sys.ddrSoft := by
  obtain ⟨hframe, hc, haddr, hbad, hsoft⟩ := d.ddrNoted_spec b
  have hmem : (d.ddrNoted b).member = d.member := rfl
  rw [Dev.ddrLost]
  generalize d.ddrNoted b = u at hframe hc haddr hbad hsoft hmem
  have hq := u.raise_quiet Pg.DDR Ev.DDR_ECC_UNCORR
  exact ⟨hframe.quiet ddrPart_part hq, (hq.get (by decide) _).trans hc, (hq.2.1 _ (by decide)).trans haddr,
    fun hm => u.raise_raised (pagePresent_ddr (hmem ▸ hm)), hq.bad.trans hbad, hq.ddrSoft.trans hsoft⟩

theorem mem_noted {b c : Nat} {l : List Nat} : c ∈ b :: l.erase b ↔ c = b ∨ c ∈ l := by
  rw [List.mem_cons]
  by_cases h : c = b
  · simp [h]
  · rw [List.mem_erase_of_ne h]

/-- The blocks that a read of one block's bytes meets. -/
theorem block_hit (b c : Nat) : (decide (64 * b / 64 ≤ c) && decide (64 * c < 64 * b + 64)) = (c == b) := by
  rw [Bool.eq_iff_iff, Bool.and_eq_true, decide_eq_true_eq, decide_eq_true_eq, beq_iff_eq]
  omega

theorem block_other (b c : Nat) : (decide (c < 64 * b / 64) || decide (64 * b + 64 ≤ 64 * c)) = (c != b) := by
  rw [Bool.eq_iff_iff, Bool.or_eq_true, decide_eq_true_eq, decide_eq_true_eq, bne_iff_ne]
  omega

/-- The errors of one block taken from those that stand. -/
def Dev.softLeft (d : Dev) (b : Nat) : Dev := { d with sys := { d.sys with ddrSoft := d.sys.ddrSoft.filter fun u => u.1 != b } }

theorem Dev.softLeft_none {b : Nat} (h : ∀ u ∈ d.sys.ddrSoft, u.1 ≠ b) : d.softLeft b = d := by
  have hfil : d.sys.ddrSoft.filter (fun u => u.1 != b) = d.sys.ddrSoft := List.filter_eq_self.2 fun u hu => bne_iff_ne.2 (h u hu)
  rw [Dev.softLeft, hfil]

/-- The scrub is on (R449). -/
def Dev.eccOn (d : Dev) : Bool := d.flag R.DDR_STAT F.DDR_STAT_READY && d.flag R.DDR_CFG F.DDR_CFG_ECC_EN

theorem State.ddrRead_block {s : State} (b : Nat) (hon : s.dev.eccOn = true) : s.ddrRead (64 * b) 64 =
    ((s.dev.sys.bad.filter (· == b)).map (fun b => (b, true)) ++ s.dev.sys.ddrSoft.filter (fun u => u.1 == b)).foldl
      (fun t u => t.ddrError u.1 u.2) (s.withDev (s.dev.softLeft b)) := by
  rw [Dev.eccOn] at hon
  simp only [State.ddrRead, hon, Bool.not_true, Bool.false_eq_true, if_false, block_hit]
  rfl

theorem filter_beq_none {l : List Nat} {b : Nat} (h : b ∉ l) : l.filter (· == b) = [] :=
  List.filter_eq_nil_iff.2 fun c hc => by
    rw [beq_iff_eq]
    rintro rfl
    exact h hc

section
variable {s : State} {b : Nat} (hon : s.dev.eccOn = true) (hbad : b ∉ s.dev.sys.bad)
include hon hbad

theorem State.ddrRead_clean (hsoft : ∀ u ∈ s.dev.sys.ddrSoft, u.1 ≠ b) : s.ddrRead (64 * b) 64 = s := by
  have hnone : s.dev.sys.ddrSoft.filter (fun u => u.1 == b) = [] :=
    List.filter_eq_nil_iff.2 fun u hu => by simpa using hsoft u hu
  rw [State.ddrRead_block b hon, filter_beq_none hbad, hnone, Dev.softLeft_none hsoft]
  rfl

theorem State.ddrRead_soft {two : Bool} (hsoft : s.dev.sys.ddrSoft.filter (fun u => u.1 == b) = [(b, two)]) :
    s.ddrRead (64 * b) 64 = (s.withDev (s.dev.softLeft b)).ddrError b two := by
  rw [State.ddrRead_block b hon, filter_beq_none hbad, hsoft]
  rfl

end

theorem State.ddrError_corrected (s : State) (b : Nat) : s.ddrError b false = s.withDev s.dev.ddrCorrected := rfl

theorem State.ddrError_lost (s : State) (b : Nat) : s.ddrError b true =
    { s with dev := s.dev.ddrLost b, mems := { s.mems with ddr := s.mems.ddr.writeBytes (64 * b) (List.replicate 64 0) } } := rfl

theorem Memory.read_blockLost (m : Memory) (b a : Nat) :
    (m.writeBytes (64 * b) (List.replicate 64 0)).read a = if 64 * b ≤ a ∧ a < 64 * b + 64 then 0 else m.read a := by
  rw [Memory.read_writeBytes, List.length_replicate]
  split
  · next h => exact List.eq_of_mem_replicate (n := 64) (nthD_mem 0 (by rw [List.length_replicate]; omega))
  · rfl

end

/-- Upsets that have come about before the scrub. -/
def Dev.softened (d : Dev) (ups : List (Nat × Bool)) : Dev := { d with sys := { d.sys with ddrSoft := d.sys.ddrSoft ++ ups } }

/-- The block after the one that the scrub reads. -/
def Dev.scrubNext (d : Dev) : Nat :=
  if d.get R.DDR_STAT F.DDR_STAT_USABLE * 16384 ≤ d.sys.scrub + 1 then 0 else d.sys.scrub + 1

/-- The scrub at its next block. -/
def Dev.scrubbed (d : Dev) (ups : List (Nat × Bool)) : Dev :=
  { d with sys := { d.sys with ddrSoft := d.sys.ddrSoft ++ ups, scrub := d.scrubNext } }

section
variable {s : State} {ups : List (Nat × Bool)}

theorem State.ddrScrub_off (r : EccErr) (h : ¬(s.dev.flag R.DDR_STAT F.DDR_STAT_READY = true ∧ s.dev.flag R.DDR_CFG F.DDR_CFG_ECC_EN = true ∧
    s.dev.gtc % 1600 = 0)) : s.ddrScrub r ups = s.withDev (s.dev.softened ups) := by
  refine if_pos ?_
  have hc : (!(s.dev.flag R.DDR_STAT F.DDR_STAT_READY && s.dev.flag R.DDR_CFG F.DDR_CFG_ECC_EN) || s.dev.gtc % 1600 != 0) = true := by
    by_contra hn
    simp only [Bool.or_eq_true, Bool.not_eq_true', bne_iff_ne, not_or, Bool.not_eq_false, Bool.and_eq_true, not_not] at hn
    exact h ⟨hn.1.1, hn.1.2, hn.2⟩
  exact hc

section
variable (hr : s.dev.flag R.DDR_STAT F.DDR_STAT_READY = true) (he : s.dev.flag R.DDR_CFG F.DDR_CFG_ECC_EN = true)
  (ht : s.dev.gtc % 1600 = 0)
include hr he ht

theorem scrub_turn : ¬(!(s.dev.flag R.DDR_STAT F.DDR_STAT_READY && s.dev.flag R.DDR_CFG F.DDR_CFG_ECC_EN) || s.dev.gtc % 1600 != 0) = true := by
  rw [hr, he, ht]
  decide

theorem State.ddrScrub_ok : s.ddrScrub .ok ups = (s.withDev (s.dev.scrubbed ups)).ddrRead (64 * s.dev.sys.scrub) 64 :=
  (if_neg (scrub_turn hr he ht)).trans rfl

theorem State.ddrScrub_corrected : s.ddrScrub .corrected ups =
    ((s.withDev (s.dev.scrubbed ups)).ddrError s.dev.sys.scrub false).ddrRead (64 * s.dev.sys.scrub) 64 :=
  (if_neg (scrub_turn hr he ht)).trans rfl

theorem State.ddrScrub_lost : s.ddrScrub .uncorrectable ups =
    (s.withDev ((s.dev.scrubbed ups).ddrHeal (64 * s.dev.sys.scrub) 64)).ddrError s.dev.sys.scrub true :=
  (if_neg (scrub_turn hr he ht)).trans rfl

end

end

/-- A block lost: what is noted of it. -/
theorem Dev.ddrLost_noted {d x y : Dev} {b : Nat} {l : List Nat} {m : List (Nat × Bool)}
    (hx : FrameOn ddrPart [R.DDR_ECC, R.DDR_ECC_ADDR] x y) (hbad : ∀ c, c ≠ b → (c ∈ y.sys.bad ↔ c ∈ l))
    (hsoft : y.sys.ddrSoft = m.filter fun u => u.1 != b) (hget : y.get R.DDR_ECC F.DDR_ECC_UNCORR = d.get R.DDR_ECC F.DDR_ECC_UNCORR)
    (hmem : y.member = d.member) :
    FrameOn ddrPart [R.DDR_ECC, R.DDR_ECC_ADDR] x (y.ddrLost b) ∧ (∀ c, c ∈ (y.ddrLost b).sys.bad ↔ c = b ∨ c ∈ l) ∧
    (∀ u, u ∈ (y.ddrLost b).sys.ddrSoft ↔ u ∈ m ∧ u.1 ≠ b) ∧ Counted d (y.ddrLost b) R.DDR_ECC F.DDR_ECC_UNCORR ∧
    (y.ddrLost b).reg R.DDR_ECC_ADDR = BitVec.ofNat 32 b ∧ (hasDdr d.member = true → Raised (y.ddrLost b) Pg.DDR Ev.DDR_ECC_UNCORR) := by
  obtain ⟨hframe, hc, haddr, hraised, hb, hs⟩ := y.ddrLost_spec b
  generalize y.ddrLost b = z at hframe hc haddr hraised hb hs
  refine ⟨hx.trans ddrPart_part hframe, fun c => ?_, fun u => ?_, ?_, haddr, fun hd => hraised (hmem ▸ hd)⟩
  · rw [hb, mem_noted]
    by_cases hcb : c = b
    · exact ⟨fun _ => .inl hcb, fun _ => .inl hcb⟩
    · exact or_congr_right (hbad c hcb)
  · rw [hs, hsoft, List.mem_filter, bne_iff_ne]
  · rw [Counted] at hc ⊢
    rw [hc, hget]

/-- The same with the block's bytes, as a next state. -/
theorem State.blockLost_next {s : State} {o : Host.Outcome State Fault Refusal} {x y : Dev} {b : Nat} {l : List Nat} {m : List (Nat × Bool)}
    (ho : o = .next ((s.withDev y).ddrError b true)) (hx : FrameOn ddrPart [R.DDR_ECC, R.DDR_ECC_ADDR] x y)
    (hbad : ∀ c, c ≠ b → (c ∈ y.sys.bad ↔ c ∈ l)) (hsoft : y.sys.ddrSoft = m.filter fun u => u.1 != b)
    (hget : y.get R.DDR_ECC F.DDR_ECC_UNCORR = s.dev.get R.DDR_ECC F.DDR_ECC_UNCORR) (hmem : y.member = s.dev.member) :
    NextWith o fun t => t = { s with dev := t.dev, mems := { s.mems with ddr := t.mems.ddr } } ∧
      Frame { x with sys := { x.sys with bad := t.dev.sys.bad, ddrSoft := t.dev.sys.ddrSoft } } t.dev [R.DDR_ECC, R.DDR_ECC_ADDR] ∧
      (∀ c, c ∈ t.dev.sys.bad ↔ c = b ∨ c ∈ l) ∧ (∀ u, u ∈ t.dev.sys.ddrSoft ↔ u ∈ m ∧ u.1 ≠ b) ∧
      Counted s.dev t.dev R.DDR_ECC F.DDR_ECC_UNCORR ∧ t.dev.reg R.DDR_ECC_ADDR = BitVec.ofNat 32 b ∧
      (hasDdr s.dev.member = true → Raised t.dev Pg.DDR Ev.DDR_ECC_UNCORR) ∧
      ∀ a, t.mems.ddr.read a = if 64 * b ≤ a ∧ a < 64 * b + 64 then 0 else s.mems.ddr.read a := by
  obtain ⟨hframe, hb, hs, hc, haddr, hraised⟩ := Dev.ddrLost_noted hx hbad hsoft hget hmem
  have ho2 : o = .next { s with dev := y.ddrLost b, mems := { s.mems with ddr := s.mems.ddr.writeBytes (64 * b) (List.replicate 64 0) } } :=
    ho.trans (congrArg _ ((s.withDev y).ddrError_lost b))
  have hread := Memory.read_blockLost s.mems.ddr b
  generalize s.mems.ddr.writeBytes (64 * b) (List.replicate 64 0) = m at ho2 hread
  generalize y.ddrLost b = z at ho2 hframe hb hs hc haddr hraised
  refine ⟨_, ho2, rfl, hframe, hb, hs, hc, haddr, hraised, hread⟩

section
variable {d : Dev} {ups : List (Nat × Bool)}

theorem Dev.scrubbed_softLeft (d : Dev) (ups : List (Nat × Bool)) :
    FrameOn ddrPart [R.DDR_ECC, R.DDR_ECC_ADDR] (d.scrubbed ups) ((d.scrubbed ups).softLeft d.sys.scrub) :=
  (FrameOn.refl ddrPart_part _ _).part ddrPart_part rfl fun _ => rfl

theorem Dev.scrubbed_heal (d : Dev) (ups : List (Nat × Bool)) (b : Nat) :
    FrameOn ddrPart [R.DDR_ECC, R.DDR_ECC_ADDR] (d.scrubbed ups) ((d.scrubbed ups).ddrHeal (64 * b) 64) :=
  (FrameOn.refl ddrPart_part _ _).part ddrPart_part rfl fun _ => rfl

theorem Dev.ddrHeal_block (d : Dev) (b : Nat) : (d.ddrHeal (64 * b) 64).sys.bad = d.sys.bad.filter (· != b) ∧
    (d.ddrHeal (64 * b) 64).sys.ddrSoft = d.sys.ddrSoft.filter fun u => u.1 != b := by
  simp only [Dev.ddrHeal, block_other, and_self]

theorem Dev.scrubbed_ecc (hr : d.flag R.DDR_STAT F.DDR_STAT_READY = true) (he : d.flag R.DDR_CFG F.DDR_CFG_ECC_EN = true) :
    (d.scrubbed ups).eccOn = true := Bool.and_eq_true_iff.2 ⟨hr, he⟩

theorem Dev.softLeft_reg (d : Dev) (b a : Nat) : (d.softLeft b).reg a = d.reg a := rfl

theorem State.withDev_withDev (s : State) (x y : Dev) : (s.withDev x).withDev y = s.withDev y := rfl

end

/-- A corrected error of the present block, read again without another. -/
theorem State.ddrRead_corrected {s : State} {x : Dev} (b : Nat) (hon : x.eccOn = true) (hbad : b ∉ x.sys.bad)
    (hsoft : ∀ u ∈ x.sys.ddrSoft, u.1 ≠ b) : ((s.withDev x).ddrError b false).ddrRead (64 * b) 64 = s.withDev x.ddrCorrected := by
  obtain ⟨hframe, -, -, hb, hs⟩ := x.ddrCorrected_spec
  have herr : (s.withDev x).ddrError b false = s.withDev x.ddrCorrected := State.ddrError_corrected _ b
  rw [herr]
  have hflag : ∀ a, eventReg a = false → a ≠ R.DDR_ECC → x.ddrCorrected.reg a = x.reg a :=
    fun a ha hne => hframe.2.1 a ha fun h => hne (List.mem_singleton.1 h)
  have hon2 : x.ddrCorrected.eccOn = true := by
    rw [← hon, Dev.eccOn, Dev.eccOn, Dev.flag_of_reg (hflag R.DDR_STAT (by decide) (by decide)),
      Dev.flag_of_reg (hflag R.DDR_CFG (by decide) (by decide))]
  generalize x.ddrCorrected = y at hb hs hon2
  exact State.ddrRead_clean (s := s.withDev y) hon2 (hb ▸ hbad) (hs ▸ hsoft)

theorem execDdrPatrolScrub_runs {s : State} (hup : s.Up) (hr : s.dev.frozen Pg.DDR = false) (err : EccErr) (ups : List (Nat × Bool)) :
    exec (.ddrPatrolScrub ⟨err, ups⟩) s = .next (s.ddrScrub err ups) := by
  have hrun : s.clocked Pg.DDR (fun t => t.ddrScrub err ups) = s.ddrScrub err ups := by
    rw [State.clocked, hr]
    rfl
  exact (onState_up hup fun s => s.clocked Pg.DDR fun t => t.ddrScrub err ups).trans (congrArg _ hrun)

/-- Settles O52. -/
theorem pcieAndMemory : Obligations.PcieAndMemory := by
  intro s hup
  refine ⟨fun hm => ⟨fun l0 speed width d3 payload hr => ⟨fun hlegal => ?_, fun hno => ?_⟩, ?_⟩, fun hm => ⟨?_, fun l0 v w d3 n => ?_⟩,
    fun ok n hr hm hb => ?_, fun ups hr => ?_⟩
  · have hup1 := hlegal.2
    have hcmd := (Dev.clocked_runs hr fun d => d.pcieLink l0 speed width d3 payload).trans (Dev.pcieLink_eq hm (pcieLinkOk_iff.2 hlegal))
    have hs4 : (if (l0 || speed != 0) = true then speed else 0) < 4 := by
      split
      · next h => have := hup1 h; omega
      · omega
    have hw4 : (if (l0 || speed != 0) = true then width else 0) < 4 := by
      split
      · next h => have := hup1 h; omega
      · omega
    obtain ⟨hframe, hp, h1, h2, h3, h4, h5⟩ := s.dev.linkTold_spec (d3 := d3) (linkState l0 (l0 || speed != 0) d3 s.dev.pcie.fnRst payload)
      (l0 != s.dev.pcie.l0) (l0 || speed != 0) hm hs4 hw4
    exact ⟨_, onDev_eq hup hcmd, hframe, hp, h1, h2, h3, h4, fun hne => h5 (bne_iff_ne.2 hne)⟩
  · have hbad : pcieLinkOk l0 speed width payload = false := Bool.eq_false_iff.2 fun h => hno (pcieLinkOk_iff.1 h)
    exact onDev_same hup (Dev.clocked_same _ (Dev.pcieLink_passes (.inr hbad)))
  · obtain ⟨hframe, hd3, hmsix⟩ := s.dev.functionCleared_spec
    exact ⟨_, onDev_eq hup (Dev.pcieFunctionReset_eq hm), s.dev.functionReset_spec hframe hd3 hmsix⟩
  · exact onDev_same hup (Dev.pcieFunctionReset_passes hm)
  · exact onDev_same hup (Dev.clocked_same _ (Dev.pcieLink_passes (.inl hm)))
  · exact ⟨_, onDev_eq hup (Dev.clocked_runs hr fun d => d.ddrTraining ok n), s.dev.ddrTraining_spec ok n hm hb⟩
  · have hrun : ∀ err, exec (.ddrPatrolScrub ⟨err, ups⟩) s = .next (s.ddrScrub err ups) := fun err =>
      execDdrPatrolScrub_runs hup hr err ups
    refine ⟨fun hoff r => (hrun r).trans (congrArg _ (State.ddrScrub_off r hoff)), fun ⟨hready, hecc, hturn⟩ => ⟨fun hbad hsoft => ⟨?_, ?_⟩,
      fun hbad hsoft => ?_, fun hbad hsoft => ?_, ?_⟩⟩
    · have hclean := State.ddrRead_clean (s := s.withDev (s.dev.scrubbed ups)) (Dev.scrubbed_ecc hready hecc) hbad hsoft
      exact (hrun _).trans (congrArg _ ((State.ddrScrub_ok hready hecc hturn).trans hclean))
    · obtain ⟨hframe, hc, hraised, -⟩ := (s.dev.scrubbed ups).ddrCorrected_spec
      exact ⟨_, (hrun _).trans (congrArg _ ((State.ddrScrub_corrected hready hecc hturn).trans
        (State.ddrRead_corrected _ (Dev.scrubbed_ecc hready hecc) hbad hsoft))), hframe, hc, hraised⟩
    · obtain ⟨hframe, hc, hraised, -⟩ := ((s.dev.scrubbed ups).softLeft s.dev.sys.scrub).ddrCorrected_spec
      have hsoftly := State.ddrRead_soft (s := s.withDev (s.dev.scrubbed ups)) (Dev.scrubbed_ecc hready hecc) hbad hsoft
      exact ⟨_, (hrun _).trans (congrArg _ ((State.ddrScrub_ok hready hecc hturn).trans hsoftly)), hframe, hc, hraised⟩
    · have hsoftly := State.ddrRead_soft (s := s.withDev (s.dev.scrubbed ups)) (Dev.scrubbed_ecc hready hecc) hbad hsoft
      exact State.blockLost_next ((hrun _).trans (congrArg _ ((State.ddrScrub_ok hready hecc hturn).trans hsoftly)))
        (s.dev.scrubbed_softLeft ups) (fun _ _ => Iff.rfl) rfl rfl rfl
    · obtain ⟨hb, hs⟩ := (s.dev.scrubbed ups).ddrHeal_block s.dev.sys.scrub
      refine State.blockLost_next ((hrun _).trans (congrArg _ (State.ddrScrub_lost hready hecc hturn)))
        (s.dev.scrubbed_heal ups _) (fun c hc => ?_) hs rfl rfl
      rw [hb, List.mem_filter, bne_iff_ne]
      exact and_iff_left hc

end Sys2Proof.Machine
end

section
/-! PROOFS. The warm reset of a state whose pending cause is no cause of RST_CAUSE (R483, R484). -/

namespace Sys2Proof.Machine

/-- A device in BOOT that has a warm reset pending with the bit of WARM itself as its cause. -/
def warmAsCause : State :=
  State.reset.withDev { Dev.reset.put R.SYS_STATE F.SYS_STATE_STATE DS.BOOT with sys := { rst := some (0, 2 ^ 31) } }

/-- The bit carries out of the word where WARM is added to it. -/
theorem warmAsCause_reset : exec .warmReset warmAsCause = .next (warmAsCause.warmReset (2 ^ 31)) ∧
    (warmAsCause.warmReset (2 ^ 31)).dev.flag R.RST_CAUSE F.RST_CAUSE_WARM = false := by
  constructor
  · rfl
  · decide

/-- Refutes O59: the cause of a pending warm reset is any number in the statement; with 2^31 the flag WARM of RST_CAUSE comes out 0. -/
theorem not_resets : ¬ Obligations.Resets := by
  intro h
  obtain ⟨-, -, -, -, -, hdue⟩ := h warmAsCause
  have hup : warmAsCause.Up := by unfold State.Up; decide
  obtain ⟨hwarm, -⟩ := hdue 0 (2 ^ 31) hup rfl
  obtain ⟨t, ht, ⟨-, -, -, -, -, hflag, -⟩, -⟩ := hwarm (Nat.zero_le _) (by decide)
  obtain ⟨hnext, hzero⟩ := warmAsCause_reset
  have hsame : t = warmAsCause.warmReset (2 ^ 31) := Host.Outcome.next.inj (ht.symm.trans hnext)
  rw [hsame, hzero] at hflag
  exact absurd hflag (by decide)

end Sys2Proof.Machine
end

section
/-! PROOFS. A second image refused while a replay runs (R53, R464, R490). -/

namespace Sys2Proof.Machine

/-- A device in BOOT whose first slot has been refused, in a replay one tick ahead of GTC; a transition stands noted for the tick that follows
GTC itself. -/
def replayInBoot : State :=
  State.reset.withDev { (Dev.reset.put R.SYS_STATE F.SYS_STATE_STATE DS.BOOT).putB R.RPL_STAT F.RPL_STAT_RUN true with
    sys := { tried := [0] }, rpl := { shift := 1 }, trans := { at1 := 1, fromSt := 5 } }

/-- The second slot refused: FATAL. -/
def replayInBootFatal : Dev := replayInBoot.dev.imageVerified replayInBoot.mems.flash 1 .failed true

theorem execImageVerified_up {s : State} (hup : s.Up) (n : Nat) (read : FlashRead) (agree : Bool) :
    exec (.imageVerified n read agree) s = .next (s.withDev (s.dev.imageVerified s.mems.flash n read agree)) :=
  onState_up hup fun s => s.onDevS fun d => d.imageVerified s.mems.flash n read agree

theorem replayInBoot_verified : exec (.imageVerified 1 .failed true) replayInBoot = .next (replayInBoot.withDev replayInBootFatal) :=
  execImageVerified_up (by unfold State.Up; decide) 1 .failed true

/-- The replay ends with the entry, and with it the tick of the device's time: the two transitions now meet. -/
theorem replayInBootFatal_prev : replayInBootFatal.get R.SYS_STATE F.SYS_STATE_PREV = 5 := by decide +kernel

/-- Refutes O60: at the entry into FATAL from a replay the tick in which transitions meet is counted without the replay's shift, and PREV
takes the state before both though no other transition fell into the device's own tick. -/
theorem not_startUp : ¬ Obligations.StartUp := by
  intro h
  obtain ⟨-, -, -, -, himage, -⟩ := h replayInBoot
  obtain ⟨e, he, -, -, hcode⟩ := himage 1 .failed true (by decide) rfl (by decide)
  have hsame : replayInBoot.withDev e = replayInBoot.withDev replayInBootFatal := Host.Outcome.next.inj (he.symm.trans replayInBoot_verified)
  have hdev : e = replayInBootFatal := congrArg State.dev hsame
  rw [if_neg (by rw [if_pos (Or.inr (Or.inl rfl))]; decide)] at hcode
  obtain ⟨-, -, -, -, hfatal⟩ := hcode
  obtain ⟨-, hprev, -⟩ := hfatal rfl
  have hstate : e.get R.SYS_STATE F.SYS_STATE_PREV = replayInBoot.dev.devState := hprev (by decide)
  rw [hdev, replayInBootFatal_prev] at hstate
  exact absurd hstate (by decide)

end Sys2Proof.Machine
end

section
/-! PROOFS. Deliveries of a position interface between edges (R169, R171, R172). -/

namespace Sys2Proof.Machine

section
variable {d e : Dev} {n ts : Nat} {l : List Nat}

/-- Registers that a delivery of an interface writes, and its status. -/
def updRegs (n : Nat) : List Nat := [R.POS_ANG n, R.POS_SPD n, R.POS_STAT n] ++ trkRegs

theorem offTracks_posStat (hn : n < 12) : offTracks (R.POS_STAT n) :=
  offTracks_of_le (by simp only [R.POS_STAT]; omega) (by simp only [R.POS_STAT]; omega)

theorem pagePresent_pos {m : Member} (hn : n < nPos m) : pagePresent m (Pg.POS n) = true := by
  have hn12 := hn.trans_le (nPos_le m)
  have hinfo : ∀ i < 12, pageInfo (Pg.POS i) = some (.posB, i) := by decide
  rw [pagePresent, hinfo n hn12]
  exact decide_eq_true hn

/-- A delivery after the decoder's record has been written. -/
theorem Dev.deliver_setPos (d : Dev) (hn : n < 12) (q : PosSt) (m : Nat) (v : Option Int) (ts ta : Nat) (zero : Bool) :
    FrameOn Dev.posPart (updRegs n) d ((d.setPos n q).posDeliver n m v ts ta zero) ∧
    (∀ j, j ≠ n → ((d.setPos n q).posDeliver n m v ts ta zero).posS j = d.posS j) ∧
    ((d.setPos n q).posDeliver n m v ts ta zero).posS n = q ∧
    Delivered d ((d.setPos n q).posDeliver n m v ts ta zero) n m v ts ta := by
  have hset := (FrameOn.refl posPart_part (updRegs n) d).setPos n q
  have hsame : SameTracks d (d.setPos n q) := SameTracks.of_reg rfl rfl (fun _ _ => rfl) rfl rfl
  have hpos := fun j => d.posS_setPos n j q
  generalize d.setPos n q = e at hset hsame hpos
  obtain ⟨hframe, hkeep, hdel⟩ := e.posDeliver_spec hn m v ts ta zero (l := updRegs n) (by simp [updRegs]) (by simp [updRegs])
    fun a ha => List.mem_append_right _ ha
  have hs := fun j => congrArg (fun p => spGet {} p j) hkeep
  exact ⟨hset.trans posPart_part hframe, fun j hj => (hs j).trans ((hpos j).trans (if_neg hj)), (hs n).trans ((hpos n).trans (if_pos rfl)),
    hdel.of_same hsame⟩

/-- What the record of a decoder holds after an update (R169). -/
def Dev.updated (d : Dev) (n : Nat) : PosSt := { d.posS n with updAt := d.gtc + 1, edgePend := false }

theorem Dev.edgeUpdate_eq (h : (d.posS n).edges = ts :: l) (ta : Nat) :
    d.edgeUpdate n ta = (d.setPos n (d.updated n)).posDeliver n (d.posS n).ang (d.posS n).spd ts ta false := by
  simp only [Dev.edgeUpdate, h, Dev.updated]

theorem edgeMode (hm : d.posMode n = mdABZ ∨ d.posMode n = mdHALL) : (d.posMode n == mdABZ || d.posMode n == mdHALL) = true := by
  rw [Bool.or_eq_true, beq_iff_eq, beq_iff_eq]
  exact hm

section
variable (h : (d.posS n).edges = ts :: l) (hm : d.posMode n = mdABZ ∨ d.posMode n = mdHALL)
include h hm

theorem Dev.updMinExpiry_eq (hp : (d.posS n).edgePend = true) (hu : d.updMinPast n = true) :
    d.updMinExpiry n = d.edgeUpdate n (ts + d.posFilt n + 4) := by
  simp only [Dev.updMinExpiry, h, hp, hu, edgeMode hm, Bool.and_self, if_true]

theorem Dev.decayUpdate_eq {t0 : Nat} {r : List Nat} (hl : l = t0 :: r) (he : d.flag (R.POS_CFG n) F.POS_CFG_DECAY_EN = true)
    (hu : d.updMinPast n = true) (ht : 2 * (ts - t0) < d.gtc - (d.posS n).accAt) : d.decayUpdate n =
      (d.setPos n (d.updated n)).posDeliver n (d.posS n).ang
        (some (edgeSpd (if (d.posS n).back then -1 else 1) (d.gtc - ts) (d.edgeCpr n))) ts d.gtc false := by
  simp only [Dev.decayUpdate, h, hl, edgeMode hm, he, hu, decide_eq_true ht, Bool.and_self, if_true, Dev.updated]

theorem Dev.zeroSpd_eq (hx : isShadow n = false) (hz : d.posZs n ≠ 0) (hs : d.flag (posStat n) F.POS_STAT_STOPPED = false)
    (ht : (d.posS n).accAt + 400 * d.posZs n ≤ d.gtc) : d.zeroSpd n =
      (((d.setPos n (d.updated n)).putB (posStat n) F.POS_STAT_STOPPED true).posDeliver n (d.posS n).ang (some 0) ts d.gtc true).raiseN
        (Pg.POS n) Ev.ZERO_SPD n := by
  simp only [Dev.zeroSpd, h, edgeMode hm, hs, decide_eq_true ht, bne_iff_ne.2 hz, Bool.not_false, Bool.and_self, if_true, hx,
    Bool.false_eq_true, if_false, Dev.updated, Dev.putB, Dev.put_gtc, Dev.setPos_gtc]

end

theorem updRegs_stat : R.POS_STAT n ∈ updRegs n := by simp [updRegs]

/-- A report of zero speed (R172). -/
theorem Dev.zeroReport_spec (d : Dev) (hn : n < nPos d.member) (q : PosSt) (m : Nat) (ts ta : Nat) :
    let e := (((d.setPos n q).putB (R.POS_STAT n) F.POS_STAT_STOPPED true).posDeliver n m (some 0) ts ta true).raiseN (Pg.POS n) Ev.ZERO_SPD n
    FrameOn Dev.posPart (updRegs n) d e ∧ (∀ j, j ≠ n → e.posS j = d.posS j) ∧ e.posS n = q ∧ Delivered d e n m (some 0) ts ta ∧
    e.flag (R.POS_STAT n) F.POS_STAT_STOPPED = true ∧ Raised e (Pg.POS n) Ev.ZERO_SPD := by
  intro e
  have hn12 := hn.trans_le (nPos_le _)
  have hset := ((FrameOn.refl posPart_part (updRegs n) d).setPos n q).putB posPart_part F.POS_STAT_STOPPED true updRegs_stat
  have hsame : SameTracks d ((d.setPos n q).putB (R.POS_STAT n) F.POS_STAT_STOPPED true) :=
    (SameTracks.of_reg rfl rfl (fun _ _ => rfl) rfl rfl : SameTracks d (d.setPos n q)).trans (SameTracks.setReg _ _ (offTracks_posStat hn12))
  have hpos : ∀ j, ((d.setPos n q).putB (R.POS_STAT n) F.POS_STAT_STOPPED true).posS j = _ := fun j => d.posS_setPos n j q
  have hstop := (d.setPos n q).flag_putB_self (R.POS_STAT n) F.POS_STAT_STOPPED true rfl (by decide)
  have hmem : ((d.setPos n q).putB (R.POS_STAT n) F.POS_STAT_STOPPED true).member = d.member := rfl
  have hdef : e = (((d.setPos n q).putB (R.POS_STAT n) F.POS_STAT_STOPPED true).posDeliver n m (some 0) ts ta true).raiseN (Pg.POS n)
    Ev.ZERO_SPD n := rfl
  clear_value e
  generalize (d.setPos n q).putB (R.POS_STAT n) F.POS_STAT_STOPPED true = u at hset hsame hpos hstop hmem hdef
  obtain ⟨hframe, hkeep, hdel⟩ := u.posDeliver_spec hn12 m (some 0) ts ta true (l := updRegs n) (by simp [updRegs]) (by simp [updRegs])
    fun a ha => List.mem_append_right _ ha
  obtain ⟨hbare, -, -⟩ := u.posDeliver_spec hn12 m (some 0) ts ta true (l := R.POS_ANG n :: R.POS_SPD n :: trkRegs) (by simp) (by simp)
    (by simp +contextual)
  have hstat : (u.posDeliver n m (some 0) ts ta true).reg (R.POS_STAT n) = u.reg (R.POS_STAT n) := by
    refine hbare.reg posPart_part (eventReg_posStat hn12) ?_
    simp only [List.mem_cons, not_or]
    refine ⟨?_, ?_, not_mem_trkRegs (by simp only [R.POS_STAT]; omega)⟩ <;> simp only [R.POS_STAT, R.POS_ANG, R.POS_SPD] <;> omega
  have hmem2 : (u.posDeliver n m (some 0) ts ta true).member = d.member := ((congrArg Dev.member hframe.1 :)).trans hmem
  generalize u.posDeliver n m (some 0) ts ta true = w at hframe hkeep hdel hstat hmem2 hdef
  subst hdef
  have hq := w.raiseN_quiet (Pg.POS n) Ev.ZERO_SPD n
  have hs : ∀ j, (w.raiseN (Pg.POS n) Ev.ZERO_SPD n).posS j = u.posS j := fun j => (hq.posS j).trans (by rw [Dev.posS, Dev.posS, hkeep])
  refine ⟨(hset.trans posPart_part hframe).quiet posPart_part hq, fun j hj => (hs j).trans ((hpos j).trans (if_neg hj)),
    (hs n).trans ((hpos n).trans (if_pos rfl)), (hdel.of_same hsame).of_quiet hn12 hq, ?_, ?_⟩
  · exact (hq.flag (eventReg_posStat hn12) _).trans ((Dev.flag_of_reg hstat _).trans hstop)
  · exact w.raiseN_raised n (pagePresent_pos (hmem2 ▸ hn))

theorem isShadow_lt (hn : n < 12) : isShadow n = false := decide_eq_false (by omega)

theorem posIfc_lt (hn : n < 12) : posIfc n = n := Nat.mod_eq_of_lt (by omega)

theorem posStat_interface (hn : n < 12) : posStat n = R.POS_STAT n := by
  rw [posStat, isShadow_lt hn, posIfc_lt hn]
  rfl

end

/-- Settles O26. -/
theorem positionUpdates : Obligations.PositionUpdates := by
  intro s n ts l hlive hn hedges hmode
  have hn12 := hn.trans_le (nPos_le _)
  refine ⟨fun hp hu => ?_, fun t0 r hl he hu ht => ?_, fun hz hs ht => ?_⟩
  · obtain ⟨hframe, hoth, hown, hdel⟩ := s.dev.deliver_setPos hn12 (s.dev.updated n) (s.dev.posS n).ang (s.dev.posS n).spd ts
      (ts + s.dev.posFilt n + 4) false
    exact ⟨_, onLive_eq hlive ((if_pos hn).trans ((Dev.updMinExpiry_eq hedges hmode hp hu).trans (Dev.edgeUpdate_eq hedges _))),
      ⟨hframe, hoth, hown⟩, hdel⟩
  · obtain ⟨hframe, hoth, hown, hdel⟩ := s.dev.deliver_setPos hn12 (s.dev.updated n) (s.dev.posS n).ang
      (some (edgeSpd (if (s.dev.posS n).back then -1 else 1) (s.dev.gtc - ts) (s.dev.edgeCpr n))) ts s.dev.gtc false
    exact ⟨_, onLive_eq hlive ((if_pos hn).trans (Dev.decayUpdate_eq hedges hmode hl he hu ht)), ⟨hframe, hoth, hown⟩, hdel⟩
  · have hstat := posStat_interface hn12
    obtain ⟨hframe, hoth, hown, hdel, hstop, hraised⟩ := s.dev.zeroReport_spec hn (s.dev.updated n) (s.dev.posS n).ang ts s.dev.gtc
    have hcmd := Dev.zeroSpd_eq hedges hmode (isShadow_lt hn12) hz (by rw [hstat]; exact hs) ht
    rw [hstat] at hcmd
    exact ⟨_, onLive_eq hlive ((if_pos hn).trans hcmd), ⟨hframe, hoth, hown⟩, hdel, hstop, hraised⟩

end Sys2Proof.Machine
end

section
/-! PROOFS. Edges of position decoders (R164 to R168, R180): what an edge and what follows it leave of a decoder. -/

namespace Sys2Proof.Machine

/-- A number that names a decoder: an interface's, or its shadow's. -/
def Decoder (x : Nat) : Prop := x < 12 ∨ 16 ≤ x ∧ x < 28

/-- Two records of a decoder that differ in the times of updates alone. -/
def SameUpdate (q r : PosSt) : Prop := ∃ t b, r = { q with updAt := t, edgePend := b }

section
variable {d e : Dev} {x : Nat}

theorem Decoder.cases (h : Decoder x) : x < 12 ∨ isShadow x = true := h.imp_right fun hs => decide_eq_true hs.1

theorem Decoder.deliverable (h : Decoder x) : posIfc x = x ∧ x < 16 ∨ isShadow x = true :=
  h.imp (fun hx => ⟨posIfc_lt hx, by omega⟩) fun hs => decide_eq_true hs.1

theorem Decoder.ifc_lt (h : Decoder x) : posIfc x < 12 := by
  simp only [Decoder, posIfc] at h ⊢
  omega

/-- The status of a decoder is one of two registers. -/
theorem posStat_cases (x : Nat) : posStat x = R.POS_STAT (posIfc x) ∨ posStat x = R.SHD_STAT (posIfc x) := by
  rw [posStat]
  split
  · exact .inr rfl
  · exact .inl rfl

theorem eventReg_decStat (h : Decoder x) : eventReg (posStat x) = false := by
  have hi := h.ifc_lt
  obtain hs | hs := posStat_cases x
  · rw [hs]
    exact eventReg_posStat hi
  · rw [hs]
    exact eventReg_pos (r := 0xDC) (by decide) (by decide) hi

theorem stat_ne_pos {a : Nat} (ha : a ≠ R.POS_STAT (posIfc x)) (hs : a ≠ R.SHD_STAT (posIfc x)) : posStat x ≠ a := by
  obtain hx | hx := posStat_cases x
  · rw [hx]
    exact ha.symm
  · rw [hx]
    exact hs.symm

/-- A delivery leaves the decoder's status. -/
theorem Dev.posDeliver_stat (h : Decoder x) (d : Dev) (m : Nat) (v : Option Int) (ts ta : Nat) (zero : Bool) :
    (d.posDeliver x m v ts ta zero).reg (posStat x) = d.reg (posStat x) := by
  obtain hx | hs := h.cases
  · obtain ⟨hframe, -, -⟩ := d.posDeliver_spec hx m v ts ta zero (l := R.POS_ANG x :: R.POS_SPD x :: trkRegs) (by simp) (by simp)
      (by simp +contextual)
    refine hframe.reg posPart_part (eventReg_decStat h) ?_
    rw [List.mem_cons, List.mem_cons, not_or, not_or]
    rw [posStat_interface hx]
    refine ⟨?_, ?_, not_mem_trkRegs (by simp only [R.POS_STAT]; omega)⟩ <;> simp only [R.POS_STAT, R.POS_ANG, R.POS_SPD] <;> omega
  · have hang : posStat x ≠ R.SHD_ANG (posIfc x) :=
      stat_ne_pos (by simp only [R.SHD_ANG, R.POS_STAT]; omega) (by simp only [R.SHD_ANG, R.SHD_STAT]; omega)
    have hspd : posStat x ≠ R.SHD_SPD (posIfc x) :=
      stat_ne_pos (by simp only [R.SHD_SPD, R.POS_STAT]; omega) (by simp only [R.SHD_SPD, R.SHD_STAT]; omega)
    rw [d.posDeliver_shadow m v ts ta zero hs]
    cases v with
    | none => exact d.reg_put_ne _ _ hang
    | some y => exact (Dev.reg_setReg_ne _ _ hspd).trans (d.reg_put_ne _ _ hang)

theorem posS_of_pos (h : e.pos = d.pos) (j : Nat) : e.posS j = d.posS j := by rw [Dev.posS, Dev.posS, h]

/-- What follows an edge: updates and the times of updates. -/
structure Followed (x : Nat) (d e : Dev) : Prop where
  frame : FrameOn Dev.posPart (decRegs x) d e
  other : ∀ j, j ≠ x → e.posS j = d.posS j
  own : SameUpdate (d.posS x) (e.posS x)
  stat : e.reg (posStat x) = d.reg (posStat x)

theorem Followed.refl (x : Nat) (d : Dev) : Followed x d d := ⟨FrameOn.refl posPart_part _ d, fun _ _ => rfl, ⟨_, _, rfl⟩, rfl⟩

theorem Followed.setPos (d : Dev) (x t : Nat) (b : Bool) : Followed x d (d.setPos x { d.posS x with updAt := t, edgePend := b }) :=
  ⟨(FrameOn.refl posPart_part _ d).setPos x _, fun j hj => (d.posS_setPos x j _).trans (if_neg hj), ⟨t, b, d.posS_setPos_self x _⟩, rfl⟩

theorem Followed.deliver (h : Decoder x) (hf : Followed x d e) (m : Nat) (v : Option Int) (ts ta : Nat) (zero : Bool) :
    Followed x d (e.posDeliver x m v ts ta zero) := by
  have hpos := posS_of_pos (e.posDeliver_pos h.cases m v ts ta zero)
  exact ⟨hf.frame.trans posPart_part (e.posDeliver_frame h.deliverable (fun _ ha => ha) m v ts ta zero), fun j hj => (hpos j).trans (hf.other j hj),
    (hpos x).symm ▸ hf.own, (e.posDeliver_stat h m v ts ta zero).trans hf.stat⟩

theorem Dev.afterEdge_followed (h : Decoder x) (d : Dev) : Followed x d (d.afterEdge x) := by
  rw [Dev.afterEdge]
  split
  · exact (Followed.refl x d).deliver h _ _ _ _ _
  · split
    · rw [Dev.edgeUpdate]
      split
      · exact Followed.refl x d
      · exact (Followed.setPos d x _ _).deliver h _ _ _ _ _
    · exact Followed.setPos d x (d.posS x).updAt true

/-! ### An edge -/

theorem Dev.edge_eq (d : Dev) (x m cpr : Nat) (back : Bool) : ∃ l v, d.edge x m cpr back =
    ((d.setPos x { d.posS x with edges := l, accAt := d.gtc, ang := m, spd := v, back := back }).putB (posStat x) F.POS_STAT_STOPPED false).putB
      (posStat x) F.POS_STAT_DIR back := ⟨_, _, rfl⟩

/-- The record of a decoder after an accepted edge, up to its times and its speed. -/
structure EdgeTaken (q r : PosSt) (m : Nat) (back : Bool) : Prop where
  levels : (r.a, r.b, r.z, r.back) = (q.a, q.b, q.z, back)
  cnt : r.cnt = q.cnt
  hall : (r.sec, r.adj) = (q.sec, q.adj)
  ang : r.ang = m

/-- An accepted edge with what follows it. -/
theorem Dev.edgeFollowed_spec (h : Decoder x) (d : Dev) (m cpr : Nat) (back : Bool) :
    FrameOn Dev.posPart (decRegs x) d ((d.edge x m cpr back).afterEdge x) ∧
    (∀ j, j ≠ x → ((d.edge x m cpr back).afterEdge x).posS j = d.posS j) ∧
    EdgeTaken (d.posS x) (((d.edge x m cpr back).afterEdge x).posS x) m back ∧
    ((d.edge x m cpr back).afterEdge x).flag (posStat x) F.POS_STAT_VALID = d.flag (posStat x) F.POS_STAT_VALID ∧
    ((d.edge x m cpr back).afterEdge x).flag (posStat x) F.POS_STAT_STOPPED = false ∧
    ((d.edge x m cpr back).afterEdge x).flag (posStat x) F.POS_STAT_DIR = back := by
  obtain ⟨l, v, hedge⟩ := d.edge_eq x m cpr back
  have hm : posStat x ∈ decRegs x := posStat_mem fun _ ha => ha
  have hset := (FrameOn.refl posPart_part (decRegs x) d).setPos x { d.posS x with edges := l, accAt := d.gtc, ang := m, spd := v, back := back }
  have hpos := fun j => d.posS_setPos x j { d.posS x with edges := l, accAt := d.gtc, ang := m, spd := v, back := back }
  have hvalid : (d.setPos x { d.posS x with edges := l, accAt := d.gtc, ang := m, spd := v, back := back }).flag (posStat x) F.POS_STAT_VALID =
    d.flag (posStat x) F.POS_STAT_VALID := rfl
  have htaken : EdgeTaken (d.posS x) { d.posS x with edges := l, accAt := d.gtc, ang := m, spd := v, back := back } m back := ⟨rfl, rfl, rfl, rfl⟩
  rw [hedge]
  generalize ({ d.posS x with edges := l, accAt := d.gtc, ang := m, spd := v, back := back } : PosSt) = q at hset hpos hvalid htaken
  generalize d.setPos x q = u at hset hpos hvalid
  have hput := (hset.putB posPart_part F.POS_STAT_STOPPED false hm).putB posPart_part F.POS_STAT_DIR back hm
  have hv : ((u.putB (posStat x) F.POS_STAT_STOPPED false).putB (posStat x) F.POS_STAT_DIR back).flag (posStat x) F.POS_STAT_VALID =
      d.flag (posStat x) F.POS_STAT_VALID := by
    rw [Dev.putB, Dev.putB, Dev.flag_put_field _ _ _ _ (by decide), Dev.flag_put_field _ _ _ _ (by decide), hvalid]
  have hs : ((u.putB (posStat x) F.POS_STAT_STOPPED false).putB (posStat x) F.POS_STAT_DIR back).flag (posStat x) F.POS_STAT_STOPPED = false := by
    rw [Dev.putB, Dev.flag_put_field _ _ _ _ (by decide), Dev.flag_putB_self _ _ _ _ rfl (by decide)]
  have hd : ((u.putB (posStat x) F.POS_STAT_STOPPED false).putB (posStat x) F.POS_STAT_DIR back).flag (posStat x) F.POS_STAT_DIR = back :=
    Dev.flag_putB_self _ _ _ _ rfl (by decide)
  have hp : ∀ j, ((u.putB (posStat x) F.POS_STAT_STOPPED false).putB (posStat x) F.POS_STAT_DIR back).posS j = u.posS j := fun _ => rfl
  generalize (u.putB (posStat x) F.POS_STAT_STOPPED false).putB (posStat x) F.POS_STAT_DIR back = w at hput hv hs hd hp
  obtain ⟨hframe, hoth, ⟨t, b, hown⟩, hstat⟩ := w.afterEdge_followed h
  refine ⟨hput.trans posPart_part hframe, fun j hj => (hoth j hj).trans ((hp j).trans ((hpos j).trans (if_neg hj))), ?_,
    (Dev.flag_of_reg hstat _).trans hv, (Dev.flag_of_reg hstat _).trans hs, (Dev.flag_of_reg hstat _).trans hd⟩
  rw [hown, hp, hpos, if_pos rfl]
  exact ⟨htaken.levels, htaken.cnt, htaken.hall, htaken.ang⟩

end

end Sys2Proof.Machine
end

section
/-! PROOFS. Edges accepted in ABZ mode, and the first index (R164 to R167). -/

namespace Sys2Proof.Machine

section
variable {d e : Dev} {x : Nat}

/-- Decoders aside. -/
def posOnly (d e : Dev) : Dev := { d with pos := e.pos }

theorem posOnly_part : Part posOnly := ⟨fun _ => rfl, fun _ _ _ => rfl, fun _ _ => rfl, fun _ _ _ => rfl⟩

/-! ### The parts of an acceptance -/

/-- The step of a quadrature (R164). -/
def Dev.quadStep (d : Dev) (x : Nat) (a b : Bool) : Nat := (quadPos a b + 4 - quadPos (d.posS x).a (d.posS x).b) % 4

/-- The levels at the pins kept. -/
def Dev.quadHeard (d : Dev) (x : Nat) (a b z : Bool) : Dev := d.setPos x { d.posS x with a := a, b := b, z := z }

/-- The count after a step. -/
def Dev.quadMoved (d : Dev) (x : Nat) (counted back : Bool) (cnt : Int) : Dev :=
  if counted then d.setCount x (cnt + (if back then -1 else 1)) else d

/-- Two steps at once. -/
def Dev.quadErr (d : Dev) (x : Nat) (qerr : Bool) : Dev := if qerr then (d.posErr x Ev.QERR).posUncert x true else d

/-- An index awaited, and one that comes. -/
def Dev.quadIdx (d : Dev) (x : Nat) (wait a b qerr : Bool) : Dev :=
  let fits := d.idxFits x a b
  let d := d.setPos x { d.posS x with idxWait := wait && !fits }
  if wait && fits then d.posIndex x qerr else d

/-- VALID without an index. -/
def Dev.quadValid (d : Dev) (x : Nat) (counted off : Bool) : Dev := if counted && !d.posIdxEn x && !off then d.posValid x true else d

/-- The edge of a step. -/
def Dev.quadEdge (d : Dev) (x : Nat) (counted back : Bool) : Dev :=
  if counted then (d.edge x (d.quadAngle x) (d.posCpr x) back).afterEdge x else d

/-- The device before an index is looked for. -/
def Dev.quadBefore (d : Dev) (x : Nat) (a b z : Bool) : Dev :=
  let back := (d.quadStep x a b == 3) != (d.quadHeard x a b z).posInv x
  let counted := d.quadStep x a b == 1 || d.quadStep x a b == 3
  ((d.quadHeard x a b z).quadMoved x counted back (d.posS x).cnt).quadErr x (d.quadStep x a b == 2)

theorem Dev.quadAccept_eq (d : Dev) (x : Nat) (a b z : Bool) : d.quadAccept x a b z =
    (((d.quadBefore x a b z).quadIdx x ((d.quadBefore x a b z).posIdxEn x && z && ((z && !(d.posS x).z) ||
      ((d.posS x).idxWait && decide (4 ≤ (d.quadBefore x a b z).posQual x)))) a b (d.quadStep x a b == 2)).quadValid x
      (d.quadStep x a b == 1 || d.quadStep x a b == 3) (d.posS x).devOff).quadEdge x (d.quadStep x a b == 1 || d.quadStep x a b == 3)
      ((d.quadStep x a b == 3) != (d.quadHeard x a b z).posInv x) := rfl

/-! ### What stands -/

theorem posIdxEn_of_reg (hc : e.reg (R.POS_CFG (posIfc x)) = d.reg (R.POS_CFG (posIfc x)))
    (hs : e.reg (R.SHD_CFG (posIfc x)) = d.reg (R.SHD_CFG (posIfc x))) : e.posIdxEn x = d.posIdxEn x := by
  rw [Dev.posIdxEn, Dev.posIdxEn, Dev.posField, Dev.posField, Dev.get_of_reg hc, Dev.get_of_reg hs]

theorem not_mem_decRegs {a : Nat} (h1 : 0x40048000 ≤ a) (h2 : a % 0x1000 < 0x50 ∨ 0x84 ≤ a % 0x1000 ∧ a % 0x1000 < 0xD4) :
    a ∉ decRegs x := by
  have hoff : a % 0x1000 < 0x50 ∨ 0x84 ≤ a % 0x1000 ∧ a % 0x1000 < 0xD4 := h2
  rw [decRegs]
  split
  · simp only [shdRegs, List.mem_cons, List.not_mem_nil, or_false, not_or, R.SHD_STAT, R.SHD_ANG, R.SHD_SPD]
    omega
  · rw [List.mem_append, not_or]
    refine ⟨?_, not_mem_trkRegs h1⟩
    simp only [posRegs, List.mem_cons, List.not_mem_nil, or_false, not_or, R.POS_STAT, R.POS_ANG, R.POS_SPD, R.POS_TURNS, R.POS_COUNT,
      R.POS_ERRCNT, R.POS_IDX_LATCH, R.POS_IDX_DEV, R.POS_IDX_EXP, R.POS_IDX_CTRL]
    omega

theorem Decoder.posIdxEn (h : Decoder x) (hf : FrameOn Dev.posPart (decRegs x) d e) : e.posIdxEn x = d.posIdxEn x := by
  have hi := h.ifc_lt
  refine posIdxEn_of_reg ?_ ?_
  · exact hf.reg posPart_part (eventReg_pos (r := 0x40) (by decide) (by decide) hi)
      (not_mem_decRegs (by simp only [R.POS_CFG]; omega) (by simp only [R.POS_CFG]; omega))
  · exact hf.reg posPart_part (eventReg_pos (r := 0xC0) (by decide) (by decide) hi)
      (not_mem_decRegs (by simp only [R.SHD_CFG]; omega) (by simp only [R.SHD_CFG]; omega))

theorem Dev.setCount_spec (d : Dev) (hx : Decoder x) (c : Int) : FrameOn Dev.posPart (decRegs x) d (d.setCount x c) ∧
    (∀ j, j ≠ x → (d.setCount x c).posS j = d.posS j) ∧ (d.setCount x c).posS x = { d.posS x with cnt := c } ∧
    (d.setCount x c).reg (posStat x) = d.reg (posStat x) := by
  have hset := (FrameOn.refl posPart_part (decRegs x) d).setPos x { d.posS x with cnt := c }
  rw [Dev.setCount]
  by_cases hs : isShadow x = true
  · rw [if_pos hs]
    exact ⟨hset, fun j hj => (d.posS_setPos x j _).trans (if_neg hj), d.posS_setPos_self x _, rfl⟩
  · rw [if_neg hs]
    obtain hlt | hs' := hx.cases
    · have hmem : R.POS_COUNT x ∈ decRegs x := by
        rw [decRegs, isShadow_lt hlt, if_neg Bool.false_ne_true, posIfc_lt hlt]
        simp [posRegs]
      have hne : posStat x ≠ R.POS_COUNT x := by
        rw [posStat_interface hlt]
        simp only [R.POS_STAT, R.POS_COUNT]
        omega
      exact ⟨hset.setReg posPart_part _ hmem, fun j hj => (d.posS_setPos x j _).trans (if_neg hj), d.posS_setPos_self x _,
        Dev.reg_setReg_ne _ _ hne⟩
    · exact absurd hs' hs

theorem Dev.posErr_spec (d : Dev) (hn : posIfc x < nPos d.member) (ev : Nat) :
    FrameOn Dev.posPart (decRegs x) d (d.posErr x ev) ∧ (d.posErr x ev).pos = d.pos ∧
    Raised (d.posErr x ev) (Pg.POS (posIfc x)) (if isShadow x = true then Ev.SHD_ERR else ev) := by
  refine ⟨(FrameOn.refl posPart_part _ d).posErr (fun _ ha => ha) posPart_part ev, ?_, ?_⟩
  · rw [Dev.posErr]
    split
    · exact (Dev.raiseN_quiet _ _ _ _).pos
    · exact (Dev.raiseN_quiet _ _ _ _).pos
  · rw [Dev.posErr]
    split
    · exact Dev.raiseN_raised _ _ (pagePresent_pos hn)
    · exact Dev.raiseN_raised _ _ (pagePresent_pos hn)

/-! ### A step counted -/

section
variable {a b z : Bool}

/-- The device of a counted step before its edge, without an index. -/
def Dev.quadCounted (d : Dev) (x : Nat) (a b z back : Bool) : Dev :=
  let e := (d.quadHeard x a b z).setCount x ((d.posS x).cnt + (if back then -1 else 1))
  let e := e.setPos x { e.posS x with idxWait := false }
  if (d.posS x).devOff then e else e.posValid x true

theorem Dev.quadHeard_frame (d : Dev) (x : Nat) (a b z : Bool) : FrameOn Dev.posPart (decRegs x) d (d.quadHeard x a b z) :=
  (FrameOn.refl posPart_part _ d).setPos x _

theorem Dev.posInv_heard (d : Dev) (x : Nat) (a b z : Bool) : (d.quadHeard x a b z).posInv x = d.posInv x := rfl

theorem Dev.quadIdx_none (d : Dev) (x : Nat) (a b qerr : Bool) : d.quadIdx x false a b qerr = d.setPos x { d.posS x with idxWait := false } := rfl

theorem Dev.quadAccept_counted (hx : Decoder x) (hidx : d.posIdxEn x = false) (hstep : d.quadStep x a b = 1 ∨ d.quadStep x a b = 3) :
    d.quadAccept x a b z = ((d.quadCounted x a b z ((d.quadStep x a b == 3) != d.posInv x)).edge x
      ((d.quadCounted x a b z ((d.quadStep x a b == 3) != d.posInv x)).quadAngle x)
      ((d.quadCounted x a b z ((d.quadStep x a b == 3) != d.posInv x)).posCpr x) ((d.quadStep x a b == 3) != d.posInv x)).afterEdge x := by
  have hcounted : (d.quadStep x a b == 1 || d.quadStep x a b == 3) = true := by
    rw [Bool.or_eq_true, beq_iff_eq, beq_iff_eq]
    exact hstep
  have herr : (d.quadStep x a b == 2) = false := beq_eq_false_iff_ne.2 (by omega)
  have hinv := d.posInv_heard x a b z
  obtain ⟨hcnt, -⟩ := (d.quadHeard x a b z).setCount_spec hx ((d.posS x).cnt + (if ((d.quadStep x a b == 3) != d.posInv x) = true then -1 else 1))
  have hframe := (d.quadHeard_frame x a b z).trans posPart_part hcnt
  have hbefore : d.quadBefore x a b z = (d.quadHeard x a b z).setCount x
      ((d.posS x).cnt + (if ((d.quadStep x a b == 3) != d.posInv x) = true then -1 else 1)) := by
    rw [Dev.quadBefore, hcounted, herr, hinv]
    rfl
  rw [Dev.quadAccept_eq, hcounted, herr, hinv, hbefore, hx.posIdxEn hframe, hidx]
  have hset : ∀ e : Dev, (e.setPos x { e.posS x with idxWait := false }).posIdxEn x = e.posIdxEn x := fun _ => rfl
  rw [Bool.false_and, Bool.false_and, Dev.quadIdx_none, Dev.quadValid, hset, hx.posIdxEn hframe, hidx, Dev.quadEdge, if_pos rfl, Dev.quadCounted]
  cases (d.posS x).devOff <;> rfl

theorem Dev.quadCounted_spec (hx : Decoder x) (d : Dev) (a b z back : Bool) :
    FrameOn Dev.posPart (decRegs x) d (d.quadCounted x a b z back) ∧ (∀ j, j ≠ x → (d.quadCounted x a b z back).posS j = d.posS j) ∧
    (d.quadCounted x a b z back).posS x =
      { d.posS x with a := a, b := b, z := z, cnt := (d.posS x).cnt + (if back then -1 else 1), idxWait := false } ∧
    (d.quadCounted x a b z back).flag (posStat x) F.POS_STAT_VALID = (!(d.posS x).devOff || d.flag (posStat x) F.POS_STAT_VALID) := by
  have hm : posStat x ∈ decRegs x := posStat_mem fun _ ha => ha
  have hheard := d.quadHeard_frame x a b z
  have hhp : ∀ j, (d.quadHeard x a b z).posS j = if j = x then { d.posS x with a := a, b := b, z := z } else d.posS j :=
    fun j => d.posS_setPos x j _
  have hhr : (d.quadHeard x a b z).reg (posStat x) = d.reg (posStat x) := rfl
  rw [Dev.quadCounted]
  generalize d.quadHeard x a b z = u at hheard hhp hhr
  obtain ⟨hcnt, hoth, hown, hstat⟩ := u.setCount_spec hx ((d.posS x).cnt + (if back then -1 else 1))
  generalize u.setCount x ((d.posS x).cnt + (if back then -1 else 1)) = v at hcnt hoth hown hstat
  have hset := ((hheard.trans posPart_part hcnt).setPos x { v.posS x with idxWait := false })
  have hpos := fun j => v.posS_setPos x j { v.posS x with idxWait := false }
  have hreg : (v.setPos x { v.posS x with idxWait := false }).reg (posStat x) = d.reg (posStat x) := hstat.trans hhr
  dsimp only
  generalize hw : v.setPos x { v.posS x with idxWait := false } = w at hset hpos hreg
  have hothers : ∀ j, j ≠ x → w.posS j = d.posS j := fun j hj => by rw [hpos, if_neg hj, hoth j hj, hhp, if_neg hj]
  have hself : w.posS x = { d.posS x with a := a, b := b, z := z, cnt := (d.posS x).cnt + (if back then -1 else 1), idxWait := false } := by
    rw [hpos, if_pos rfl, hown, hhp, if_pos rfl]
  by_cases hoff : (d.posS x).devOff = true
  · rw [if_pos hoff]
    exact ⟨hset, hothers, hself, by rw [hoff, Dev.flag_of_reg hreg]; rfl⟩
  · rw [if_neg hoff]
    refine ⟨hset.posValid (fun _ ha => ha) posPart_part true, hothers, hself, ?_⟩
    rw [Bool.eq_false_iff.2 hoff]
    exact Dev.flag_putB_self _ _ _ _ rfl (by decide)

/-! ### Two steps at once, and none -/

/-- The device of two steps at once, without an index. -/
def Dev.quadFault (d : Dev) (x : Nat) (a b z : Bool) : Dev :=
  let e := ((d.quadHeard x a b z).posErr x Ev.QERR).posUncert x true
  e.setPos x { e.posS x with idxWait := false }

theorem Dev.quadAccept_fault (hx : Decoder x) (hidx : d.posIdxEn x = false) (hstep : d.quadStep x a b = 2) :
    d.quadAccept x a b z = d.quadFault x a b z := by
  have hcounted : (d.quadStep x a b == 1 || d.quadStep x a b == 3) = false := by rw [hstep]; rfl
  have herr : (d.quadStep x a b == 2) = true := beq_iff_eq.2 hstep
  have hbefore : d.quadBefore x a b z = ((d.quadHeard x a b z).posErr x Ev.QERR).posUncert x true := by
    rw [Dev.quadBefore, hcounted, herr]
    rfl
  have hframe := ((d.quadHeard_frame x a b z).posErr (fun _ ha => ha) posPart_part Ev.QERR).posUncert (fun _ ha => ha) posPart_part true
  rw [Dev.quadAccept_eq, hcounted, herr, hbefore, hx.posIdxEn hframe, hidx]
  rfl

theorem Dev.quadFault_spec (hx : Decoder x) (d : Dev) (hn : posIfc x < nPos d.member) (a b z : Bool) :
    FrameOn Dev.posPart (decRegs x) d (d.quadFault x a b z) ∧ (∀ j, j ≠ x → (d.quadFault x a b z).posS j = d.posS j) ∧
    (d.quadFault x a b z).posS x = { d.posS x with a := a, b := b, z := z, idxWait := false } ∧
    (d.quadFault x a b z).flag (posStat x) F.POS_STAT_UNCERT = true ∧
    Raised (d.quadFault x a b z) (Pg.POS (posIfc x)) (if isShadow x = true then Ev.SHD_ERR else Ev.QERR) := by
  have hheard := d.quadHeard_frame x a b z
  have hhp : ∀ j, (d.quadHeard x a b z).posS j = if j = x then { d.posS x with a := a, b := b, z := z } else d.posS j :=
    fun j => d.posS_setPos x j _
  have hmem : (d.quadHeard x a b z).member = d.member := rfl
  rw [Dev.quadFault]
  generalize d.quadHeard x a b z = u at hheard hhp hmem
  obtain ⟨herr, hpos, hraised⟩ := u.posErr_spec (hmem ▸ hn) Ev.QERR
  have hf := (hheard.trans posPart_part herr).posUncert (fun _ ha => ha) posPart_part true
  have hp : ∀ j, ((u.posErr x Ev.QERR).posUncert x true).posS j = u.posS j := fun j => (Dev.posS_put _ _ _ _ _).trans (posS_of_pos hpos j)
  have hunc : ((u.posErr x Ev.QERR).posUncert x true).flag (posStat x) F.POS_STAT_UNCERT = true := Dev.flag_putB_self _ _ _ _ rfl (by decide)
  have hr : Raised ((u.posErr x Ev.QERR).posUncert x true) (Pg.POS (posIfc x)) (if isShadow x = true then Ev.SHD_ERR else Ev.QERR) := by
    rw [Raised] at hraised ⊢
    have hne : R.PG_EVT_RAW (Pg.POS (posIfc x)) ≠ posStat x := by
      have hev := eventReg_decStat hx
      intro h
      rw [← h, eventReg_eq_false] at hev
      exact hev.1 (by simp only [R.PG_EVT_RAW, pageBase]; omega)
    exact (congrArg (fun w => bitOf w _) (Dev.reg_put_ne _ _ _ hne)).trans hraised
  generalize (u.posErr x Ev.QERR).posUncert x true = v at hf hp hunc hr
  refine ⟨hf.setPos x _, fun j hj => ?_, ?_, hunc, hr⟩
  · rw [Dev.posS_setPos, if_neg hj, hp, hhp, if_neg hj]
  · rw [Dev.posS_setPos_self, hp, hhp, if_pos rfl]

/-- The device that has heard no step. -/
def Dev.quadStill (d : Dev) (x : Nat) (a b z : Bool) : Dev :=
  (d.quadHeard x a b z).setPos x { (d.quadHeard x a b z).posS x with idxWait := false }

theorem Dev.quadAccept_still (hidx : d.posIdxEn x = false) (hstep : d.quadStep x a b = 0) : d.quadAccept x a b z = d.quadStill x a b z := by
  have hbefore : d.quadBefore x a b z = d.quadHeard x a b z := by
    rw [Dev.quadBefore, hstep]
    rfl
  have hen : (d.quadHeard x a b z).posIdxEn x = d.posIdxEn x := rfl
  rw [Dev.quadAccept_eq, hstep, hbefore, hen, hidx]
  rfl

theorem Dev.quadStill_spec (d : Dev) (x : Nat) (a b z : Bool) : FrameOn posOnly [] d (d.quadStill x a b z) ∧
    (∀ j, j ≠ x → (d.quadStill x a b z).posS j = d.posS j) ∧
    (d.quadStill x a b z).posS x = { d.posS x with a := a, b := b, z := z, idxWait := false } := by
  have hhp : ∀ j, (d.quadHeard x a b z).posS j = if j = x then { d.posS x with a := a, b := b, z := z } else d.posS j :=
    fun j => d.posS_setPos x j _
  refine ⟨(FrameOn.refl posOnly_part _ d).part posOnly_part rfl fun _ => rfl, fun j hj => ?_, ?_⟩
  · rw [Dev.quadStill, Dev.posS_setPos, if_neg hj, hhp, if_neg hj]
  · rw [Dev.quadStill, Dev.posS_setPos_self, hhp, if_pos rfl]

end

end

end Sys2Proof.Machine
end

section
/-! PROOFS. Hall codes and the first index of a position decoder (R166, R168). -/

namespace Sys2Proof.Machine

section
variable {d e : Dev} {x : Nat}

/-! ### Commutation by a Hall code -/

/-- Registers that show the commutation state of the auxiliary groups. -/
def commRegs : List Nat := (List.range 8).map R.GDA_COMM

theorem nAux_le8 (m : Member) : nAux m ≤ 8 := by cases m <;> decide

theorem Dev.commLeg_frame (d : Dev) (g y : Nat) (t : Int) : FrameOn grpPart commRegs d (d.commLeg g y t) := by
  rw [Dev.commLeg]
  split
  · exact (FrameOn.refl grpPart_part _ d).setGrp g _
  · exact FrameOn.refl grpPart_part _ d

theorem Dev.commSet_frame (d : Dev) {n : Nat} (hn : n < 8) (code : Nat) : FrameOn grpPart commRegs d (d.commSet n code) := by
  have hput := (FrameOn.refl grpPart_part commRegs d).put grpPart_part F.GDA_COMM_CODE code (List.mem_map_of_mem (List.mem_range.2 hn))
  rw [Dev.commSet]
  split
  · exact hput.trans grpPart_part (FrameOn.forN grpPart_part 3 (fun y _ e => e.commLeg_frame _ y _) _)
  · exact hput

theorem Dev.commHall_frame (d : Dev) (x code : Nat) : FrameOn grpPart commRegs d (d.commHall x code) := by
  refine FrameOn.forN grpPart_part _ (fun n hn e => ?_) d
  split
  · exact e.commSet_frame (hn.trans_le (nAux_le8 _)) code
  · exact FrameOn.refl grpPart_part _ e

theorem commRegs_ge {a : Nat} (h : a ∈ commRegs) : 0x40099000 ≤ a := by
  obtain ⟨n, -, rfl⟩ := List.mem_map.1 h
  simp only [R.GDA_COMM]
  omega

/-- The device on which a Hall code is decoded. -/
def Dev.hallHeard (d : Dev) (x code : Nat) : Dev := if isShadow x then d else d.commHall x code

theorem Dev.hallHeard_frame (d : Dev) (x code : Nat) : FrameOn grpPart commRegs d (d.hallHeard x code) := by
  rw [Dev.hallHeard]
  split
  · exact FrameOn.refl grpPart_part _ d
  · exact d.commHall_frame x code

theorem FrameOn.comm_pos {l : List Nat} (h : FrameOn grpPart l d e) : e.pos = d.pos := (congrArg Dev.pos h.1 :)
theorem FrameOn.comm_member {l : List Nat} (h : FrameOn grpPart l d e) : e.member = d.member := (congrArg Dev.member h.1 :)

theorem comm_reg_pos (h : FrameOn grpPart commRegs d e) {r n : Nat} (hr : 0x40 ≤ r) (hr2 : r < 0x100) (hn : n < 12) :
    e.reg (0x40048000 + r + 0x1000 * n) = d.reg (0x40048000 + r + 0x1000 * n) :=
  h.reg grpPart_part (eventReg_pos hr hr2 hn) fun hm => absurd (commRegs_ge hm) (by omega)

/-- A decoder's settings stand where a group commutates. -/
theorem comm_settings (hx : Decoder x) (h : FrameOn grpPart commRegs d e) :
    (∀ code, e.hallSector x code = d.hallSector x code) ∧ e.posOfs x = d.posOfs x := by
  have hi := hx.ifc_lt
  have hall : e.reg (R.POS_HALL (posIfc x)) = d.reg (R.POS_HALL (posIfc x)) := comm_reg_pos h (r := 0x8C) (by decide) (by decide) hi
  have hofs : e.reg (R.POS_OFS (posIfc x)) = d.reg (R.POS_OFS (posIfc x)) := comm_reg_pos h (r := 0x4C) (by decide) (by decide) hi
  have hshd : e.reg (R.SHD_OFS (posIfc x)) = d.reg (R.SHD_OFS (posIfc x)) := comm_reg_pos h (r := 0xCC) (by decide) (by decide) hi
  constructor
  · intro code
    rw [Dev.hallSector, Dev.hallSector, Dev.posMap, Dev.posMap, Dev.posField, Dev.posField, Dev.get_of_reg hall]
  · rw [Dev.posOfs, Dev.posOfs, Dev.posField, Dev.posField, Dev.get_of_reg hofs, Dev.get_of_reg hshd]

/-! ### Hall codes -/

section
variable {a b z : Bool} {k p : Nat}

/-- The code of three levels (R168). -/
def hallOf (a b z : Bool) : Nat := b2n a + 2 * b2n b + 4 * b2n z

/-- A code outside the map. -/
def Dev.hallBad (d : Dev) (x : Nat) (q : PosSt) : Dev := ((d.setPos x q).posErr x Ev.HALL_ERR).posValid x false

theorem Dev.hallAccept_bad (h : (d.hallHeard x (hallOf a b z)).hallSector x (hallOf a b z) = none) :
    d.hallAccept x a b z = (d.hallHeard x (hallOf a b z)).hallBad x { d.posS x with a := a, b := b, z := z, adj := 0 } := by
  rw [Dev.hallHeard, hallOf] at h
  simp only [Dev.hallAccept, h]
  rfl

theorem Dev.hallBad_spec (hx : Decoder x) (d : Dev) (hn : posIfc x < nPos d.member) (q : PosSt) :
    (∀ j, j ≠ x → (d.hallBad x q).posS j = d.posS j) ∧ (d.hallBad x q).posS x = q ∧
    (d.hallBad x q).flag (posStat x) F.POS_STAT_VALID = false ∧
    Raised (d.hallBad x q) (Pg.POS (posIfc x)) (if isShadow x = true then Ev.SHD_ERR else Ev.HALL_ERR) := by
  have hset := fun j => d.posS_setPos x j q
  have hmem : (d.setPos x q).member = d.member := rfl
  rw [Dev.hallBad]
  generalize d.setPos x q = u at hset hmem
  obtain ⟨-, hpos, hraised⟩ := u.posErr_spec (x := x) (hmem ▸ hn) Ev.HALL_ERR
  have hp : ∀ j, ((u.posErr x Ev.HALL_ERR).posValid x false).posS j = u.posS j := fun j => (Dev.posS_put _ _ _ _ _).trans (posS_of_pos hpos j)
  refine ⟨fun j hj => by rw [hp, hset, if_neg hj], by rw [hp, hset, if_pos rfl], Dev.flag_putB_self _ _ _ _ rfl (by decide), ?_⟩
  have hne : R.PG_EVT_RAW (Pg.POS (posIfc x)) ≠ posStat x := by
    have hev := eventReg_decStat hx
    intro h
    rw [← h, eventReg_eq_false] at hev
    exact hev.1 (by simp only [R.PG_EVT_RAW, pageBase]; omega)
  exact (congrArg (fun w => bitOf w _) (Dev.reg_put_ne _ _ _ hne)).trans hraised

/-- The angle of a sector (R168). -/
def Dev.hallAng (d : Dev) (x k : Nat) : Nat := (k % 6 * 2 ^ 20 / 6 + d.posOfs x) % 2 ^ 20

/-- The device of the next sector before its edge. -/
def Dev.hallNext (d : Dev) (x : Nat) (q : PosSt) (second : Prop) [Decidable second] : Dev :=
  if second then ((d.setPos x q).posValid x true).posUncert x false else (d.setPos x q).posValid x true

theorem Dev.hallAccept_next (h : (d.hallHeard x (hallOf a b z)).hallSector x (hallOf a b z) = some k) (hp : (d.posS x).sec = some p)
    (hk : k = (p + 1) % 6) : d.hallAccept x a b z =
      (((d.hallHeard x (hallOf a b z)).hallNext x { d.posS x with a := a, b := b, z := z, sec := some k, adj := (d.posS x).adj + 1 }
        ((d.posS x).adj + 1 = 2)).edge x ((d.hallHeard x (hallOf a b z)).hallAng x k) 6 false).afterEdge x := by
  rw [Dev.hallHeard, hallOf] at h
  simp only [Dev.hallAccept, h, hp, if_pos hk]
  rfl

theorem Dev.hallNext_spec (d : Dev) (x : Nat) (q : PosSt) (second : Prop) [Decidable second] :
    (∀ j, j ≠ x → (d.hallNext x q second).posS j = d.posS j) ∧ (d.hallNext x q second).posS x = q ∧
    (d.hallNext x q second).flag (posStat x) F.POS_STAT_VALID = true := by
  have hset := fun j => d.posS_setPos x j q
  rw [Dev.hallNext]
  generalize d.setPos x q = u at hset
  have hv : (u.posValid x true).flag (posStat x) F.POS_STAT_VALID = true := Dev.flag_putB_self _ _ _ _ rfl (by decide)
  have hp : ∀ j, (u.posValid x true).posS j = u.posS j := fun j => Dev.posS_put _ _ _ _ _
  generalize u.posValid x true = w at hv hp
  split
  · have hp2 : ∀ j, (w.posUncert x false).posS j = w.posS j := fun j => Dev.posS_put _ _ _ _ _
    have hv2 : (w.posUncert x false).flag (posStat x) F.POS_STAT_VALID = true := by
      rw [Dev.posUncert, Dev.putB, Dev.flag_put_field _ _ _ _ (by decide), hv]
    exact ⟨fun j hj => by rw [hp2, hp, hset, if_neg hj], by rw [hp2, hp, hset, if_pos rfl], hv2⟩
  · exact ⟨fun j hj => by rw [hp, hset, if_neg hj], by rw [hp, hset, if_pos rfl], hv⟩

/-! ### The first index -/

/-- The device that has learned its index (R166). -/
def Dev.firstIndex (d : Dev) (x : Nat) : Dev :=
  let lat := ((d.posS x).cnt % (d.posCpr x : Int)).toNat
  let e := d.setReg (R.POS_IDX_LATCH x) (wordOfInt (d.posS x).cnt)
  let e := (e.setPos x { e.posS x with exp := lat, seen := true }).posValid x true
  (e.put (R.POS_IDX_EXP x) F.POS_IDX_EXP_EXP lat).putB (R.POS_STAT x) F.POS_STAT_IDX_SEEN true

theorem Dev.posIndex_first (hx : x < 12) (hs : (d.posS x).seen = false) (hc : (d.firstIndex x).idxCorr x = false) :
    d.posIndex x false = d.firstIndex x := by
  have hsh := isShadow_lt hx
  have hi := posIfc_lt hx
  simp only [Dev.posIndex, hsh, hi, hs, Bool.not_false, if_true, Bool.false_eq_true, if_false]
  refine (if_neg fun h => ?_).trans rfl
  rw [Bool.true_and] at h
  exact Bool.false_ne_true (hc.symm.trans h)

theorem idxCorr_of (hr : e.reg (R.POS_IDX_CTRL x) = d.reg (R.POS_IDX_CTRL x)) (hc : (e.posS x).corr = (d.posS x).corr) (hg : e.gtc = d.gtc) :
    e.idxCorr x = d.idxCorr x := by
  rw [Dev.idxCorr, Dev.idxCorr, Dev.flag_of_reg hr, hc, hg]

theorem Dev.firstIndex_spec (d : Dev) (hx : x < 12) : FrameOn posOnly (posRegs x) d (d.firstIndex x) ∧
    (d.firstIndex x).posS x = { d.posS x with exp := ((d.posS x).cnt % (d.posCpr x : Int)).toNat, seen := true } ∧
    (d.firstIndex x).reg (R.POS_IDX_LATCH x) = wordOfInt (d.posS x).cnt ∧
    (d.firstIndex x).flag (R.POS_STAT x) F.POS_STAT_VALID = true ∧ (d.firstIndex x).flag (R.POS_STAT x) F.POS_STAT_IDX_SEEN = true ∧
    (d.firstIndex x).idxCorr x = d.idxCorr x := by
  have hp := posOnly_part
  have hst := posStat_interface hx
  have hmem : ∀ a ∈ [R.POS_IDX_LATCH x, R.POS_STAT x, R.POS_IDX_EXP x], a ∈ posRegs x := fun a ha => by
    simp only [List.mem_cons, List.not_mem_nil, or_false] at ha
    obtain rfl | rfl | rfl := ha <;> simp [posRegs]
  generalize hlat : ((d.posS x).cnt % (d.posCpr x : Int)).toNat = lat
  have h1 := (FrameOn.refl hp (posRegs x) d).setReg hp (wordOfInt (d.posS x).cnt) (hmem (R.POS_IDX_LATCH x) (by simp))
  have hl1 := d.reg_setReg_self (R.POS_IDX_LATCH x) (wordOfInt (d.posS x).cnt)
  have hc1 : (d.setReg (R.POS_IDX_LATCH x) (wordOfInt (d.posS x).cnt)).reg (R.POS_IDX_CTRL x) = d.reg (R.POS_IDX_CTRL x) :=
    d.reg_setReg_ne _ (by simp only [R.POS_IDX_CTRL, R.POS_IDX_LATCH]; omega)
  have hs1 : (d.setReg (R.POS_IDX_LATCH x) (wordOfInt (d.posS x).cnt)).posS x = d.posS x := d.posS_setReg _ _ _
  have hg1 := d.setReg_gtc (R.POS_IDX_LATCH x) (wordOfInt (d.posS x).cnt)
  rw [Dev.firstIndex, hlat]
  dsimp only
  generalize d.setReg (R.POS_IDX_LATCH x) (wordOfInt (d.posS x).cnt) = u at h1 hl1 hc1 hs1 hg1
  rw [hs1]
  have h2 : FrameOn posOnly (posRegs x) d (u.setPos x { d.posS x with exp := lat, seen := true }) := h1.part hp rfl fun _ => rfl
  have hs2 := u.posS_setPos_self x { d.posS x with exp := lat, seen := true }
  have hr2 : ∀ a, (u.setPos x { d.posS x with exp := lat, seen := true }).reg a = u.reg a := fun _ => rfl
  have hg2 := u.setPos_gtc x { d.posS x with exp := lat, seen := true }
  generalize u.setPos x { d.posS x with exp := lat, seen := true } = v at h2 hs2 hr2 hg2
  rw [Dev.posValid, hst]
  have ne1 : R.POS_IDX_LATCH x ≠ R.POS_STAT x := by simp only [R.POS_IDX_LATCH, R.POS_STAT]; omega
  have ne2 : R.POS_IDX_LATCH x ≠ R.POS_IDX_EXP x := by simp only [R.POS_IDX_LATCH, R.POS_IDX_EXP]; omega
  have ne3 : R.POS_STAT x ≠ R.POS_IDX_EXP x := by simp only [R.POS_STAT, R.POS_IDX_EXP]; omega
  have ne4 : R.POS_IDX_CTRL x ≠ R.POS_STAT x := by simp only [R.POS_IDX_CTRL, R.POS_STAT]; omega
  have ne5 : R.POS_IDX_CTRL x ≠ R.POS_IDX_EXP x := by simp only [R.POS_IDX_CTRL, R.POS_IDX_EXP]; omega
  have hreg : ∀ c, c ≠ R.POS_STAT x → c ≠ R.POS_IDX_EXP x → ((((v.putB (R.POS_STAT x) F.POS_STAT_VALID true).put (R.POS_IDX_EXP x)
      F.POS_IDX_EXP_EXP lat).putB (R.POS_STAT x) F.POS_STAT_IDX_SEEN true)).reg c = u.reg c := fun c hc he => by
    rw [Dev.putB, Dev.reg_put_ne _ _ _ hc, Dev.reg_put_ne _ _ _ he, Dev.putB, Dev.reg_put_ne _ _ _ hc, hr2]
  refine ⟨((h2.putB hp _ _ (hmem (R.POS_STAT x) (by simp))).put hp _ _ (hmem (R.POS_IDX_EXP x) (by simp))).putB hp _ _
    (hmem (R.POS_STAT x) (by simp)), ?_, (hreg _ ne1 ne2).trans hl1, ?_, Dev.flag_putB_self _ _ _ _ rfl (by decide), ?_⟩
  · rw [Dev.putB, Dev.posS_put, Dev.posS_put, Dev.putB, Dev.posS_put, hs2]
  · rw [Dev.putB, Dev.flag_put_field _ _ _ _ (by decide), Dev.flag_of_reg (Dev.reg_put_ne _ _ _ ne3), Dev.flag_putB_self _ _ _ _ rfl (by decide)]
  · refine idxCorr_of ((hreg _ ne4 ne5).trans hc1) ?_ ?_
    · rw [Dev.putB, Dev.posS_put, Dev.posS_put, Dev.putB, Dev.posS_put, hs2]
    · rw [Dev.putB, Dev.put_gtc, Dev.put_gtc, Dev.putB, Dev.put_gtc, hg2, hg1]

/-! ### Acceptances -/

/-- The data line's level kept (R173). -/
def Dev.dataHeard (d : Dev) (x : Nat) (b : Bool) : Dev := d.setPos x { d.posS x with dataLow := !b }

theorem Dev.posAccept_abz (hn : posIfc x < nPos d.member) (hm : d.posMode x = mdABZ) : d.posAccept x a b z = (d.dataHeard x b).quadAccept x a b z := by
  rw [Dev.posAccept, if_neg (Nat.not_le.2 hn), hm]
  rfl

theorem Dev.posAccept_hall (hn : posIfc x < nPos d.member) (hm : d.posMode x = mdHALL) : d.posAccept x a b z = (d.dataHeard x b).hallAccept x a b z := by
  rw [Dev.posAccept, if_neg (Nat.not_le.2 hn), hm]
  rfl

theorem Dev.posS_dataHeard (d : Dev) (x : Nat) (b : Bool) (j : Nat) :
    (d.dataHeard x b).posS j = if j = x then { d.posS x with dataLow := !b } else d.posS j := d.posS_setPos x j _

theorem Dev.dataHeard_frame (d : Dev) (x : Nat) (b : Bool) (l : List Nat) : FrameOn Dev.posPart l d (d.dataHeard x b) :=
  (FrameOn.refl posPart_part l d).setPos x _

theorem Dev.dataHeard_only (d : Dev) (x : Nat) (b : Bool) (l : List Nat) : FrameOn posOnly l d (d.dataHeard x b) :=
  (FrameOn.refl posOnly_part l d).part posOnly_part rfl fun _ => rfl

theorem Dev.reg_dataHeard (d : Dev) (x : Nat) (b : Bool) (c : Nat) : (d.dataHeard x b).reg c = d.reg c := rfl

theorem Dev.posIdxEn_dataHeard (d : Dev) (x : Nat) (b : Bool) : (d.dataHeard x b).posIdxEn x = d.posIdxEn x := rfl
theorem Dev.posInv_dataHeard (d : Dev) (x : Nat) (b : Bool) : (d.dataHeard x b).posInv x = d.posInv x := rfl
theorem Dev.posOfs_dataHeard (d : Dev) (x : Nat) (b : Bool) : (d.dataHeard x b).posOfs x = d.posOfs x := rfl
theorem Dev.hallSector_dataHeard (d : Dev) (x : Nat) (b : Bool) (code : Nat) : (d.dataHeard x b).hallSector x code = d.hallSector x code := rfl
theorem Dev.idxCorr_dataHeard (d : Dev) (x : Nat) (b : Bool) : (d.dataHeard x b).idxCorr x = d.idxCorr x :=
  idxCorr_of rfl (by rw [d.posS_dataHeard x b x, if_pos rfl]) rfl
theorem Dev.quadStep_dataHeard (d : Dev) (x : Nat) (a b : Bool) : (d.dataHeard x b).quadStep x a b = d.quadStep x a b := by
  rw [Dev.quadStep, Dev.quadStep, Dev.posS_dataHeard, if_pos rfl]

/-- A counted step at a decoder, whole. -/
theorem Dev.posAccept_counted (hx : Decoder x) (hn : posIfc x < nPos d.member) (hm : d.posMode x = mdABZ) (hidx : d.posIdxEn x = false)
    (hstep : d.quadStep x a b = 1 ∨ d.quadStep x a b = 3) :
    FrameOn Dev.posPart (decRegs x) d (d.posAccept x a b z) ∧ (∀ j, j ≠ x → (d.posAccept x a b z).posS j = d.posS j) ∧
    ((d.posAccept x a b z).posS x).cnt = (d.posS x).cnt + (if ((d.quadStep x a b == 3) != d.posInv x) = true then -1 else 1) ∧
    (((d.posAccept x a b z).posS x).a, ((d.posAccept x a b z).posS x).b, ((d.posAccept x a b z).posS x).z,
      ((d.posAccept x a b z).posS x).back) = (a, b, z, (d.quadStep x a b == 3) != d.posInv x) ∧
    (d.posAccept x a b z).flag (posStat x) F.POS_STAT_VALID = (!(d.posS x).devOff || d.flag (posStat x) F.POS_STAT_VALID) ∧
    (d.posAccept x a b z).flag (posStat x) F.POS_STAT_STOPPED = false ∧
    (d.posAccept x a b z).flag (posStat x) F.POS_STAT_DIR = ((d.quadStep x a b == 3) != d.posInv x) := by
  have hcmd := (Dev.posAccept_abz (a := a) (b := b) (z := z) hn hm).trans (Dev.quadAccept_counted hx ((d.posIdxEn_dataHeard x b).trans hidx)
    (by rw [d.quadStep_dataHeard x a b]; exact hstep))
  rw [d.quadStep_dataHeard x a b, d.posInv_dataHeard x b] at hcmd
  generalize hback : ((d.quadStep x a b == 3) != d.posInv x) = back at hcmd
  obtain ⟨cframe, coth, cown, cvalid⟩ := (d.dataHeard x b).quadCounted_spec hx a b z back
  have hheard := (d.dataHeard_frame x b (decRegs x)).trans posPart_part cframe
  rw [d.posS_dataHeard, if_pos rfl] at cown cvalid
  rw [Dev.flag_of_reg (d.reg_dataHeard x b (posStat x))] at cvalid
  have hoth : ∀ j, j ≠ x → ((d.dataHeard x b).quadCounted x a b z back).posS j = d.posS j :=
    fun j hj => (coth j hj).trans ((d.posS_dataHeard x b j).trans (if_neg hj))
  generalize (d.dataHeard x b).quadCounted x a b z back = u at hcmd cown cvalid hheard hoth
  obtain ⟨eframe, eoth, ⟨hlev, hcnt, -, -⟩, evalid, estop, edir⟩ := u.edgeFollowed_spec hx (u.quadAngle x) (u.posCpr x) back
  rw [← hcmd] at eframe eoth hlev hcnt evalid estop edir
  refine ⟨hheard.trans posPart_part eframe, fun j hj => (eoth j hj).trans (hoth j hj), ?_, ?_, evalid.trans cvalid, estop, edir⟩
  · rw [hcnt, cown]
  · rw [hlev, cown]

/-- The device that hears the first index. -/
def Dev.indexHeard (d : Dev) (x : Nat) (a b : Bool) : Dev :=
  ((d.dataHeard x b).quadHeard x a b true).setPos x { ((d.dataHeard x b).quadHeard x a b true).posS x with idxWait := false }

theorem posOnly_setPos {l : List Nat} (h : FrameOn posOnly l d e) (k : Nat) (q : PosSt) : FrameOn posOnly l d (e.setPos k q) :=
  h.part posOnly_part rfl fun _ => rfl

theorem Dev.idxCorr_setPos (d : Dev) (x : Nat) (q : PosSt) (h : q.corr = (d.posS x).corr) : (d.setPos x q).idxCorr x = d.idxCorr x :=
  idxCorr_of rfl ((congrArg PosSt.corr (d.posS_setPos_self x q)).trans h) rfl

theorem Dev.posCpr_setPos (d : Dev) (x : Nat) (q : PosSt) : (d.setPos x q).posCpr x = d.posCpr x := rfl

theorem Dev.indexHeard_spec (d : Dev) (x : Nat) (a b : Bool) (l : List Nat) : FrameOn posOnly l d (d.indexHeard x a b) ∧
    (d.indexHeard x a b).posS x = { d.posS x with dataLow := !b, a := a, b := b, z := true, idxWait := false } ∧
    (d.indexHeard x a b).idxCorr x = d.idxCorr x ∧ (d.indexHeard x a b).posCpr x = d.posCpr x := by
  have h1 := d.dataHeard_only x b l
  have s1 : (d.dataHeard x b).posS x = { d.posS x with dataLow := !b } := d.posS_setPos_self x _
  have c1 := d.idxCorr_dataHeard x b
  have p1 : (d.dataHeard x b).posCpr x = d.posCpr x := d.posCpr_setPos x _
  rw [Dev.indexHeard, Dev.quadHeard]
  generalize d.dataHeard x b = u at h1 s1 c1 p1
  have h2 := posOnly_setPos h1 x { u.posS x with a := a, b := b, z := true }
  have s2 := u.posS_setPos_self x { u.posS x with a := a, b := b, z := true }
  have c2 := (u.idxCorr_setPos x { u.posS x with a := a, b := b, z := true } rfl).trans c1
  have p2 := (u.posCpr_setPos x { u.posS x with a := a, b := b, z := true }).trans p1
  generalize u.setPos x { u.posS x with a := a, b := b, z := true } = v at h2 s2 c2 p2
  refine ⟨posOnly_setPos h2 x _, ?_, (v.idxCorr_setPos x { v.posS x with idxWait := false } rfl).trans c2, (v.posCpr_setPos x _).trans p2⟩
  rw [v.posS_setPos_self, s2, s1]

/-- An index that comes with levels its qualifier admits, without a step (R166). -/
theorem Dev.posAccept_index (hx : x < 12) (hn : posIfc x < nPos d.member) (hm : d.posMode x = mdABZ) (hidx : d.posIdxEn x = true)
    (hlev : ((d.posS x).a, (d.posS x).b, (d.posS x).z) = (a, b, false)) (hseen : (d.posS x).seen = false)
    (hfits : d.posQual x < 4 ∨ a = (d.posQual x / 2 % 2 == 1) ∧ b = (d.posQual x % 2 == 1)) (hcorr : d.idxCorr x = false) :
    d.posAccept x a b true = (d.indexHeard x a b).firstIndex x := by
  obtain ⟨ha, hb, hz⟩ : (d.posS x).a = a ∧ (d.posS x).b = b ∧ (d.posS x).z = false := by simpa using hlev
  have hstep : d.quadStep x a b = 0 := by
    rw [Dev.quadStep, ha, hb]
    omega
  have hbefore : (d.dataHeard x b).quadBefore x a b true = (d.dataHeard x b).quadHeard x a b true := by
    rw [Dev.quadBefore, d.quadStep_dataHeard x a b, hstep]
    rfl
  have hen : ((d.dataHeard x b).quadHeard x a b true).posIdxEn x = true := hidx
  have hz' : ((d.dataHeard x b).posS x).z = false := by rw [d.posS_dataHeard x b x, if_pos rfl]; exact hz
  have hfit : ((d.dataHeard x b).quadHeard x a b true).idxFits x a b = true := by
    have hq : ((d.dataHeard x b).quadHeard x a b true).idxFits x a b = d.idxFits x a b := rfl
    rw [hq, Dev.idxFits, Bool.or_eq_true, Bool.and_eq_true, decide_eq_true_eq, beq_iff_eq, beq_iff_eq]
    exact hfits
  obtain ⟨-, hown, hic, -⟩ := d.indexHeard_spec x a b []
  obtain ⟨-, -, -, -, -, hfic⟩ := (d.indexHeard x a b).firstIndex_spec hx
  have hfirst := Dev.posIndex_first hx ((congrArg PosSt.seen hown).trans hseen) (hfic.trans (hic.trans hcorr))
  rw [Dev.posAccept_abz hn hm, Dev.quadAccept_eq, d.quadStep_dataHeard x a b, hstep, hbefore, hen, hz', Dev.quadIdx, hfit]
  exact hfirst

/-- The next sector at a decoder, whole. -/
theorem Dev.posAccept_sector (hx : Decoder x) (hn : posIfc x < nPos d.member) (hm : d.posMode x = mdHALL)
    (h : d.hallSector x (hallOf a b z) = some k) (hp : (d.posS x).sec = some p) (hk : k = (p + 1) % 6) :
    (∀ j, j ≠ x → (d.posAccept x a b z).posS j = d.posS j) ∧ ((d.posAccept x a b z).posS x).sec = some k ∧
    ((d.posAccept x a b z).posS x).adj = (d.posS x).adj + 1 ∧ ((d.posAccept x a b z).posS x).ang = d.hallAng x k ∧
    (d.posAccept x a b z).flag (posStat x) F.POS_STAT_VALID = true ∧ (d.posAccept x a b z).flag (posStat x) F.POS_STAT_DIR = false := by
  have hframe := (d.dataHeard x b).hallHeard_frame x (hallOf a b z)
  obtain ⟨hsec, hofs⟩ := comm_settings hx hframe
  have hpos := posS_of_pos hframe.comm_pos
  have hdata := d.posS_dataHeard x b
  have hown : (d.dataHeard x b).posS x = { d.posS x with dataLow := !b } := (hdata x).trans (if_pos rfl)
  have hsec2 : ((d.dataHeard x b).hallHeard x (hallOf a b z)).hallSector x (hallOf a b z) = some k := (hsec _).trans h
  have hcmd := (Dev.posAccept_hall (a := a) (b := b) (z := z) hn hm).trans
    (Dev.hallAccept_next hsec2 ((congrArg PosSt.sec hown).trans hp) hk)
  have hang : ((d.dataHeard x b).hallHeard x (hallOf a b z)).hallAng x k = d.hallAng x k := by
    rw [Dev.hallAng, hofs, d.posOfs_dataHeard]
    rfl
  rw [hang, hown] at hcmd
  generalize (d.dataHeard x b).hallHeard x (hallOf a b z) = u at hcmd hpos
  obtain ⟨noth, nown, nvalid⟩ := u.hallNext_spec x
    { { d.posS x with dataLow := !b } with a := a, b := b, z := z, sec := some k, adj := (d.posS x).adj + 1 } ((d.posS x).adj + 1 = 2)
  have hoth : ∀ j, j ≠ x → (u.hallNext x
      { { d.posS x with dataLow := !b } with a := a, b := b, z := z, sec := some k, adj := (d.posS x).adj + 1 } ((d.posS x).adj + 1 = 2)).posS j =
      d.posS j := fun j hj => (noth j hj).trans ((hpos j).trans ((hdata j).trans (if_neg hj)))
  have hcmd2 : d.posAccept x a b z = ((u.hallNext x
      { { d.posS x with dataLow := !b } with a := a, b := b, z := z, sec := some k, adj := (d.posS x).adj + 1 } ((d.posS x).adj + 1 = 2)).edge x
      (d.hallAng x k) 6 false).afterEdge x := hcmd
  generalize u.hallNext x
      { { d.posS x with dataLow := !b } with a := a, b := b, z := z, sec := some k, adj := (d.posS x).adj + 1 } ((d.posS x).adj + 1 = 2) = w
      at hcmd2 hoth nown nvalid
  obtain ⟨-, eoth, ⟨-, -, hhall, hang2⟩, evalid, -, edir⟩ := w.edgeFollowed_spec hx (d.hallAng x k) 6 false
  rw [← hcmd2] at eoth hhall hang2 evalid edir
  rw [nown] at hhall
  obtain ⟨hsecs, hadj⟩ := Prod.mk.inj hhall
  exact ⟨fun j hj => (eoth j hj).trans (hoth j hj), hsecs, hadj, hang2, evalid.trans nvalid, edir⟩

end

end

/-- Settles O25. -/
theorem positionEdges : Obligations.PositionEdges := by
  refine ⟨fun s n sh a b z hlive hn => ?_, fun s n a b hlive hn hm hidx => ?_⟩
  · have hn12 := hn.trans_le (nPos_le _)
    have hdec : Decoder (if sh then 16 + n else n) := by
      cases sh
      · exact .inl hn12
      · exact .inr ⟨Nat.le_add_right _ _, by simp only [if_true]; omega⟩
    have hifc : posIfc (if sh then 16 + n else n) = n := by
      cases sh
      · exact posIfc_lt hn12
      · simp only [posIfc, if_true]
        omega
    have hsh : isShadow (if sh then 16 + n else n) = sh := by
      cases sh
      · exact isShadow_lt hn12
      · exact decide_eq_true (Nat.le_add_right _ _)
    have hrun : exec (if sh then .shadowEdgeAccept n a b z else .posEdgeAccept n a b z) s =
        .next (s.withDev (s.dev.posAccept (if sh then 16 + n else n) a b z)) := by
      cases sh
      · exact onLive_eq hlive (if_pos hn)
      · exact onLive_eq hlive (if_pos hn)
    generalize (if sh then 16 + n else n) = x at hdec hifc hsh hrun
    have hnx : posIfc x < nPos s.dev.member := hifc.symm ▸ hn
    have hregs : ∀ c ∈ decRegs x, c ∈ posRegs n ++ shdRegs n ++ trkRegs := fun c hc => by
      rw [decRegs, hifc] at hc
      split at hc
      · exact List.mem_append_left _ (List.mem_append_right _ hc)
      · obtain hc | hc := List.mem_append.1 hc
        · exact List.mem_append_left _ (List.mem_append_left _ hc)
        · exact List.mem_append_right _ hc
    have hdata := s.dev.posS_dataHeard x b
    refine ⟨fun hm hidx => ⟨fun hstep => ?_, fun hstep => ?_, fun hstep => ?_⟩, fun hm => ⟨fun hsec => ?_, fun k p hsec hp hk => ?_⟩⟩
    · obtain ⟨hframe, hspec⟩ := Dev.posAccept_counted (z := z) hdec hnx hm hidx hstep
      exact ⟨_, hrun, hframe.mono hregs, hspec⟩
    · have hcmd := (Dev.posAccept_abz (a := a) (b := b) (z := z) hnx hm).trans (Dev.quadAccept_fault hdec ((s.dev.posIdxEn_dataHeard x b).trans hidx)
        ((s.dev.quadStep_dataHeard x a b).trans hstep))
      obtain ⟨fframe, foth, fown, func, fraised⟩ := (s.dev.dataHeard x b).quadFault_spec hdec hnx a b z
      rw [← hcmd] at fframe foth fown func fraised
      rw [hifc, hsh] at fraised
      rw [hdata, if_pos rfl] at fown
      exact ⟨_, hrun, ((s.dev.dataHeard_frame x b _).trans posPart_part fframe).mono hregs,
        fun j hj => (foth j hj).trans ((hdata j).trans (if_neg hj)), by rw [fown], by rw [fown], func, fraised⟩
    · have hcmd := (Dev.posAccept_abz (a := a) (b := b) (z := z) hnx hm).trans (Dev.quadAccept_still ((s.dev.posIdxEn_dataHeard x b).trans hidx)
        ((s.dev.quadStep_dataHeard x a b).trans hstep))
      obtain ⟨qframe, qoth, qown⟩ := (s.dev.dataHeard x b).quadStill_spec x a b z
      rw [← hcmd] at qframe qoth qown
      rw [hdata, if_pos rfl] at qown
      exact ⟨_, hrun, (s.dev.dataHeard_only x b _).trans posOnly_part qframe, fun j hj => (qoth j hj).trans ((hdata j).trans (if_neg hj)), qown⟩
    · have hframe := (s.dev.dataHeard x b).hallHeard_frame x (hallOf a b z)
      obtain ⟨hsecs, -⟩ := comm_settings hdec hframe
      have hcmd := (Dev.posAccept_hall (a := a) (b := b) (z := z) hnx hm).trans (Dev.hallAccept_bad ((hsecs _).trans hsec))
      obtain ⟨both, bown, bvalid, braised⟩ := ((s.dev.dataHeard x b).hallHeard x (hallOf a b z)).hallBad_spec hdec
        (hframe.comm_member ▸ hnx) { (s.dev.dataHeard x b).posS x with a := a, b := b, z := z, adj := 0 }
      rw [← hcmd] at both bown bvalid braised
      rw [hifc, hsh] at braised
      rw [hdata, if_pos rfl] at bown
      exact ⟨_, hrun, fun j hj => (both j hj).trans ((posS_of_pos hframe.comm_pos j).trans ((hdata j).trans (if_neg hj))), bown, bvalid, braised⟩
    · exact ⟨_, hrun, Dev.posAccept_sector hdec hnx hm hsec hp hk⟩
  · intro d q hlev hseen hfits hcorr
    have hn12 := hn.trans_le (nPos_le _)
    have hifc := posIfc_lt hn12
    have hcmd := Dev.posAccept_index hn12 (hifc.symm ▸ hn) hm hidx hlev hseen hfits hcorr
    obtain ⟨hframe, hown, -, hcpr⟩ := d.indexHeard_spec n a b (posRegs n)
    have hrun : exec (.posEdgeAccept n a b true) s = .next (s.withDev ((d.indexHeard n a b).firstIndex n)) :=
      onLive_eq hlive ((if_pos hn).trans hcmd)
    generalize d.indexHeard n a b = u at hrun hframe hown hcpr
    obtain ⟨iframe, iown, hlatch, hvalid, hsee, -⟩ := u.firstIndex_spec hn12
    rw [hown, hcpr] at iown
    rw [hown] at hlatch
    exact ⟨_, hrun, hframe.trans posOnly_part iframe, by rw [iown], by rw [iown], by rw [iown], hlatch, hvalid, hsee⟩

end Sys2Proof.Machine
end

section
/-! PROOFS. Position requests and serial words (R162, R173 to R177). -/

namespace Sys2Proof.Machine

section
variable {d e : Dev} {n x : Nat}

/-! ### A good word at an interface -/

/-- A decoder with a word more, valid. -/
def Dev.wordBase (d : Dev) (x m ts : Nat) : Dev := (d.setPos x { d.posS x with words := ((ts, m) :: (d.posS x).words).take 256 }).posValid x true

/-- The device of a good word before it is delivered. -/
def Dev.wordKept (d : Dev) (x m ts : Nat) : Option Int → Dev
  | some y => if y = 0 then d.wordBase x m ts else (d.wordBase x m ts).putB (posStat x) F.POS_STAT_DIR (decide (y < 0))
  | none => d.wordBase x m ts

theorem Dev.goodWord_eq (d : Dev) (x m ts : Nat) : d.goodWord x m ts =
    (d.wordKept x m ts (wordSpd m ts (d.posSpdM x) (d.posS x).words)).posDeliver x m (wordSpd m ts (d.posSpdM x) (d.posS x).words) ts
      (d.wordKept x m ts (wordSpd m ts (d.posSpdM x) (d.posS x).words)).gtc false := by
  rw [Dev.goodWord]
  generalize wordSpd m ts (d.posSpdM x) (d.posS x).words = v
  cases v <;> rfl

/-- What a kept word changes: its decoder's record, VALID and DIR. -/
structure WordKept (p : Dev → Dev → Dev) (x m ts : Nat) (d e : Dev) : Prop where
  frame : FrameOn p [posStat x] d e
  other : ∀ j, j ≠ x → e.posS j = d.posS j
  own : e.posS x = { d.posS x with words := ((ts, m) :: (d.posS x).words).take 256 }
  valid : e.flag (posStat x) F.POS_STAT_VALID = true
  busy : e.flag (posStat x) F.POS_STAT_BUSY = d.flag (posStat x) F.POS_STAT_BUSY

theorem Dev.wordBase_kept {p : Dev → Dev → Dev} (hp : Part p) (hpos : ∀ (u : Dev) (q : PosSt), (u.setPos x q).calm = (p u (u.setPos x q)).calm)
    (d : Dev) (m ts : Nat) : WordKept p x m ts d (d.wordBase x m ts) := by
  have hm : posStat x ∈ [posStat x] := List.mem_singleton_self _
  have h1 := (FrameOn.refl hp [posStat x] d).part hp (hpos d { d.posS x with words := ((ts, m) :: (d.posS x).words).take 256 }) fun _ => rfl
  have s1 := fun j => d.posS_setPos x j { d.posS x with words := ((ts, m) :: (d.posS x).words).take 256 }
  have b1 : (d.setPos x { d.posS x with words := ((ts, m) :: (d.posS x).words).take 256 }).flag (posStat x) F.POS_STAT_BUSY =
    d.flag (posStat x) F.POS_STAT_BUSY := rfl
  rw [Dev.wordBase]
  generalize d.setPos x { d.posS x with words := ((ts, m) :: (d.posS x).words).take 256 } = u at h1 s1 b1
  have s2 : ∀ j, (u.posValid x true).posS j = u.posS j := fun j => Dev.posS_put _ _ _ _ _
  exact ⟨h1.putB hp _ _ hm, fun j hj => (s2 j).trans ((s1 j).trans (if_neg hj)), (s2 x).trans ((s1 x).trans (if_pos rfl)),
    Dev.flag_putB_self _ _ _ _ rfl (by decide), (Dev.flag_put_field _ _ _ _ (by decide)).trans b1⟩

theorem Dev.wordKept_spec {p : Dev → Dev → Dev} (hp : Part p) (hpos : ∀ (u : Dev) (q : PosSt), (u.setPos x q).calm = (p u (u.setPos x q)).calm)
    (d : Dev) (m ts : Nat) (v : Option Int) : WordKept p x m ts d (d.wordKept x m ts v) := by
  have h := Dev.wordBase_kept hp hpos d m ts
  cases v with
  | none => exact h
  | some y =>
    rw [Dev.wordKept]
    generalize d.wordBase x m ts = w at h
    split
    · exact h
    · exact ⟨h.frame.putB hp _ _ (List.mem_singleton_self _), fun j hj => (Dev.posS_put _ _ _ _ _).trans (h.other j hj),
        (Dev.posS_put _ _ _ _ _).trans h.own, (Dev.flag_put_field _ _ _ _ (by decide)).trans h.valid,
        (Dev.flag_put_field _ _ _ _ (by decide)).trans h.busy⟩

theorem offTracks_stat (hx : n < 12) : offTracks (posStat n) := by
  rw [posStat_interface hx]
  exact offTracks_posStat hx

theorem FrameOn.sameTracks {l : List Nat} (h : FrameOn posOnly l d e) (hl : ∀ a ∈ l, offTracks a) : SameTracks d e := by
  refine SameTracks.of_reg (congrArg Dev.gtc h.1 :) (congrArg Dev.trk h.1 :) (fun k hk => ?_) ?_ ?_
  · exact h.reg posOnly_part (eventReg_trkCfg hk) fun hm => (hl _ hm).1 k hk rfl
  · exact h.reg posOnly_part (by decide) fun hm => (hl _ hm).2.1 rfl
  · exact h.reg posOnly_part (by decide) fun hm => (hl _ hm).2.2 rfl

/-- A good word at an interface (R176, R177). -/
theorem Dev.goodWord_spec (d : Dev) (hn : n < 12) (m ts : Nat) : FrameOn Dev.posPart (updRegs n) d (d.goodWord n m ts) ∧
    (∀ j, j ≠ n → (d.goodWord n m ts).posS j = d.posS j) ∧
    (d.goodWord n m ts).posS n = { d.posS n with words := ((ts, m) :: (d.posS n).words).take 256 } ∧
    (d.goodWord n m ts).flag (R.POS_STAT n) F.POS_STAT_VALID = true ∧
    (d.goodWord n m ts).flag (R.POS_STAT n) F.POS_STAT_BUSY = d.flag (R.POS_STAT n) F.POS_STAT_BUSY ∧
    Delivered d (d.goodWord n m ts) n m (wordSpd m ts (d.posSpdM n) (d.posS n).words) ts d.gtc := by
  rw [Dev.goodWord_eq]
  generalize wordSpd m ts (d.posSpdM n) (d.posS n).words = v
  obtain ⟨hf, hoth, hown, hv, hb⟩ := Dev.wordKept_spec (x := n) posOnly_part (fun _ _ => rfl) d m ts v
  generalize d.wordKept n m ts v = u at hf hoth hown hv hb
  have hg : u.gtc = d.gtc := (congrArg Dev.gtc hf.1 :)
  have hsame := hf.sameTracks fun a ha => by rw [List.mem_singleton.1 ha]; exact offTracks_stat hn
  obtain ⟨hframe, hkeep, hdel⟩ := u.posDeliver_spec hn m v ts u.gtc false (l := updRegs n) (by simp [updRegs]) (by simp [updRegs])
    fun a ha => List.mem_append_right _ ha
  have hstat := u.posDeliver_stat (.inl hn) m v ts u.gtc false
  rw [posStat_interface hn] at hstat hv hb hf
  have hp := posS_of_pos hkeep
  rw [hg] at hframe hdel hstat hp ⊢
  refine ⟨(hf.widen posOnly_part posPart_part (fun _ _ => rfl) ?_).trans posPart_part hframe, fun j hj => (hp j).trans (hoth j hj),
    (hp n).trans hown, (Dev.flag_of_reg hstat _).trans hv, (Dev.flag_of_reg hstat _).trans hb, hdel.of_same hsame⟩
  rintro a ha
  rw [List.mem_singleton.1 ha]
  exact updRegs_stat

/-! ### A word at a shadow -/

theorem isShadow_add (k : Nat) : isShadow (16 + k) = true := decide_eq_true (Nat.le_add_right _ _)

theorem posIfc_add {k : Nat} (hk : k < 12) : posIfc (16 + k) = k := by
  rw [posIfc]
  omega

theorem decRegs_shadow {k : Nat} (hk : k < 12) : decRegs (16 + k) = shdRegs k := by
  rw [decRegs, isShadow_add, if_pos rfl, posIfc_add hk]

/-- What happens at a shadow leaves all but shadows and their registers. -/
structure ShadowOnly (k : Nat) (d e : Dev) : Prop where
  frame : FrameOn posOnly (shdRegs k) d e
  low : ∀ j, j < 16 → e.posS j = d.posS j

theorem ShadowOnly.refl (k : Nat) (d : Dev) : ShadowOnly k d d := ⟨FrameOn.refl posOnly_part _ d, fun _ _ => rfl⟩

theorem ShadowOnly.trans {k : Nat} {d e f : Dev} (h : ShadowOnly k d e) (g : ShadowOnly k e f) : ShadowOnly k d f :=
  ⟨h.frame.trans posOnly_part g.frame, fun j hj => (g.low j hj).trans (h.low j hj)⟩

theorem ShadowOnly.setPos {k : Nat} (h : ShadowOnly k d e) (q : PosSt) : ShadowOnly k d (e.setPos (16 + k) q) :=
  ⟨posOnly_setPos h.frame _ q, fun j hj => (e.posS_setPos _ j q).trans ((if_neg (by omega)).trans (h.low j hj))⟩

theorem Dev.goodWord_shadow {k : Nat} (hk : k < 12) (d : Dev) (m ts : Nat) : ShadowOnly k d (d.goodWord (16 + k) m ts) := by
  rw [Dev.goodWord_eq]
  generalize wordSpd m ts (d.posSpdM (16 + k)) (d.posS (16 + k)).words = v
  obtain ⟨hf, hoth, -, -, -⟩ := Dev.wordKept_spec (x := 16 + k) posOnly_part (fun _ _ => rfl) d m ts v
  generalize d.wordKept (16 + k) m ts v = u at hf hoth
  have hstat : posStat (16 + k) = R.SHD_STAT k := by rw [posStat, isShadow_add, if_pos rfl, posIfc_add hk]
  rw [hstat] at hf
  have hw : FrameOn posOnly (shdRegs k) d u := hf.mono fun a ha => by rw [List.mem_singleton.1 ha]; simp [shdRegs]
  have hpos := posS_of_pos (u.posDeliver_pos (.inr (isShadow_add k)) m v ts u.gtc false)
  refine ⟨hw.trans posOnly_part ?_, fun j hj => (hpos j).trans (hoth j (by omega))⟩
  rw [u.posDeliver_shadow m v ts u.gtc false (isShadow_add k), posIfc_add hk]
  have h0 := (FrameOn.refl posOnly_part (shdRegs k) u).put posOnly_part F.SHD_ANG_ANG m (a := R.SHD_ANG k) (by simp [shdRegs])
  cases v with
  | none => exact h0
  | some y => exact h0.setReg posOnly_part _ (by simp [shdRegs])

/-- A word that is bad at a decoder (R176). -/
def Dev.wordBad (d : Dev) (x word : Nat) (crcOk : Bool) : Bool := fmtBad (d.posFmt x) word || !crcOk

theorem Dev.serialWord_bad {word ts : Nat} {crcOk : Bool} (h : d.wordBad x word crcOk = true) :
    d.serialWord x word ts crcOk = (d.posErr x Ev.WORD_ERR).posValid x false := if_pos h

/-- The turns that a good word shows at an interface. -/
def Dev.turnsShown (d : Dev) (x t : Nat) : Dev := if isShadow x then d else d.setReg (R.POS_TURNS x) (BitVec.ofNat 32 t)

theorem Dev.serialWord_good {word ts : Nat} {crcOk : Bool} (h : d.wordBad x word crcOk = false) :
    d.serialWord x word ts crcOk = (d.turnsShown x (fmtFields (d.posFmt x) word).2).goodWord x
      (((fmtFields (d.posFmt x) word).1 + (d.turnsShown x (fmtFields (d.posFmt x) word).2).posOfs x) % 2 ^ 20) ts :=
  if_neg (Bool.eq_false_iff.1 h)

theorem Dev.serialWord_shadow {k : Nat} (hk : k < 12) (d : Dev) (word ts : Nat) (crcOk : Bool) :
    ShadowOnly k d (d.serialWord (16 + k) word ts crcOk) := by
  have hl : ∀ a ∈ decRegs (16 + k), a ∈ shdRegs k := fun a ha => decRegs_shadow hk ▸ ha
  by_cases h : d.wordBad (16 + k) word crcOk = true
  · rw [Dev.serialWord_bad h]
    refine ⟨((FrameOn.refl posOnly_part _ d).posErr hl posOnly_part _).posValid hl posOnly_part false, fun j _ => ?_⟩
    refine (Dev.posS_put _ _ _ _ _).trans (posS_of_pos ?_ j)
    rw [Dev.posErr, if_pos (isShadow_add k)]
    exact (Dev.raiseN_quiet _ _ _ _).pos
  · rw [Dev.serialWord_good (Bool.eq_false_iff.2 h), Dev.turnsShown, if_pos (isShadow_add k)]
    exact d.goodWord_shadow hk _ ts

theorem Dev.shadowApply_only {k : Nat} (hk : k < 12) (d : Dev) : ShadowOnly k d (d.shadowApply k) := by
  rw [Dev.shadowApply]
  split
  · split
    · exact ((ShadowOnly.refl k d).setPos _).trans (Dev.serialWord_shadow hk _ _ _ _)
    · exact ShadowOnly.refl k d
  · exact ShadowOnly.refl k d

/-- The registers of every shadow. -/
def shadowRegs : List Nat := (List.range 12).flatMap shdRegs

theorem ShadowOnly.all {k : Nat} (hk : k < 12) (h : ShadowOnly k d e) : FrameOn posOnly shadowRegs d e :=
  h.frame.mono fun _ ha => List.mem_flatMap.2 ⟨k, List.mem_range.2 hk, ha⟩

/-- The shadows that hear a frame (R180). -/
def Dev.shadowsHear (d : Dev) (n m bits word f : Nat) (bis : Option (Nat × Nat)) : Dev :=
  forN 12 (fun k e =>
    if e.posMode (16 + k) == m && e.shdSrc k == n && fmtOk (e.posFmt (16 + k)) then
      (e.setPos (16 + k) { e.posS (16 + k) with shw := e.shadowWord k n bits word f bis }).shadowApply k
    else e) d

theorem Dev.shadowsHear_spec (d : Dev) (n m bits word f : Nat) (bis : Option (Nat × Nat)) :
    FrameOn posOnly shadowRegs d (d.shadowsHear n m bits word f bis) ∧ ∀ j, j < 16 → (d.shadowsHear n m bits word f bis).posS j = d.posS j := by
  rw [Dev.shadowsHear]
  refine forN_keeps (P := fun e => FrameOn posOnly shadowRegs d e ∧ ∀ j, j < 16 → e.posS j = d.posS j) 12 (fun k hk e he => ?_)
    ⟨FrameOn.refl posOnly_part _ d, fun _ _ => rfl⟩
  obtain ⟨hf, hlow⟩ := he
  split
  · have h := ((ShadowOnly.refl k e).setPos { e.posS (16 + k) with shw := e.shadowWord k n bits word f bis }).trans (Dev.shadowApply_only hk _)
    exact ⟨hf.trans posOnly_part (h.all hk), fun j hj => (h.low j hj).trans (hlow j hj)⟩
  · exact ⟨hf, hlow⟩

end

end Sys2Proof.Machine
end

section
/-! PROOFS. Serial frames judged, and position requests (R162, R173 to R177). -/

namespace Sys2Proof.Machine

section
variable {d e : Dev} {n : Nat}

/-! ### A word at an interface -/

theorem posReg_not_upd {a : Nat} (h : 0x40048000 ≤ a) (h1 : a ≠ R.POS_ANG n) (h2 : a ≠ R.POS_SPD n) (h3 : a ≠ R.POS_STAT n) : a ∉ updRegs n := by
  rw [updRegs, List.mem_append, not_or]
  refine ⟨?_, not_mem_trkRegs h⟩
  simp only [List.mem_cons, List.not_mem_nil, or_false, not_or]
  exact ⟨h1, h2, h3⟩

theorem updRegs_sub : ∀ a ∈ updRegs n, a ∈ posRegs n ++ trkRegs := fun a ha => by
  rw [updRegs, List.mem_append] at ha
  obtain ha | ha := ha
  · refine List.mem_append_left _ ?_
    simp only [List.mem_cons, List.not_mem_nil, or_false] at ha
    obtain rfl | rfl | rfl := ha <;> simp [posRegs]
  · exact List.mem_append_right _ ha

theorem trkS_of_trk (h : e.trk = d.trk) (k : Nat) : e.trkS k = d.trkS k := by rw [Dev.trkS, Dev.trkS, h]

/-- A word at an interface (R176): its decoder's part. -/
structure WordTaken (d e : Dev) (n ts m turns : Nat) (good : Bool) : Prop where
  frame : FrameOn Dev.posPart (posRegs n ++ trkRegs) d e
  other : ∀ j, j ≠ n → e.posS j = d.posS j
  kept : (e.posS n).frame = (d.posS n).frame
  busy : e.flag (R.POS_STAT n) F.POS_STAT_BUSY = d.flag (R.POS_STAT n) F.POS_STAT_BUSY
  valid : e.flag (R.POS_STAT n) F.POS_STAT_VALID = good
  taken : good = true → (e.posS n).words = ((ts, m) :: (d.posS n).words).take 256 ∧ e.reg (R.POS_TURNS n) = BitVec.ofNat 32 turns ∧
    Delivered d e n m (wordSpd m ts (d.posSpdM n) (d.posS n).words) ts d.gtc
  refused : good = false → Raised e (Pg.POS n) Ev.WORD_ERR ∧ (e.posS n).words = (d.posS n).words ∧
    e.reg (R.POS_ANG n) = d.reg (R.POS_ANG n) ∧ ∀ k, e.trkS k = d.trkS k

theorem Dev.turnsShown_spec (d : Dev) (hn : n < 12) (t : Nat) : FrameOn posOnly [R.POS_TURNS n] d (d.turnsShown n t) ∧
    (d.turnsShown n t).reg (R.POS_TURNS n) = BitVec.ofNat 32 t ∧ (∀ j, (d.turnsShown n t).posS j = d.posS j) ∧
    (d.turnsShown n t).posOfs n = d.posOfs n ∧ (d.turnsShown n t).posSpdM n = d.posSpdM n := by
  have hi := posIfc_lt hn
  rw [Dev.turnsShown, isShadow_lt hn, if_neg Bool.false_ne_true]
  have hreg := fun a (h : a ≠ R.POS_TURNS n) => d.reg_setReg_ne (BitVec.ofNat 32 t) h
  refine ⟨(FrameOn.refl posOnly_part _ d).setReg posOnly_part _ (List.mem_singleton_self _), d.reg_setReg_self _ _, fun j => d.posS_setReg _ _ _,
    ?_, ?_⟩
  · rw [Dev.posOfs, Dev.posOfs, Dev.posField, Dev.posField, hi, Dev.get_of_reg (hreg (R.POS_OFS n) (by simp only [R.POS_OFS, R.POS_TURNS]; omega)),
      Dev.get_of_reg (hreg (R.SHD_OFS n) (by simp only [R.SHD_OFS, R.POS_TURNS]; omega))]
  · rw [Dev.posSpdM, Dev.posSpdM, Dev.posField, Dev.posField, hi,
      Dev.get_of_reg (hreg (R.POS_SPD_CFG n) (by simp only [R.POS_SPD_CFG, R.POS_TURNS]; omega)),
      Dev.get_of_reg (hreg (R.SHD_GEOM n) (by simp only [R.SHD_GEOM, R.POS_TURNS]; omega))]

/-- A good word at an interface. -/
theorem Dev.serialWord_taken (hn : n < 12) {word ts : Nat} {crcOk : Bool} (h : d.wordBad n word crcOk = false) :
    WordTaken d (d.serialWord n word ts crcOk) n ts (((fmtFields (d.posFmt n) word).1 + d.posOfs n) % 2 ^ 20) (fmtFields (d.posFmt n) word).2 true := by
  obtain ⟨tframe, tturns, tpos, tofs, tspd⟩ := d.turnsShown_spec hn (fmtFields (d.posFmt n) word).2
  rw [Dev.serialWord_good h, tofs]
  generalize d.turnsShown n (fmtFields (d.posFmt n) word).2 = u at tframe tturns tpos tspd
  generalize ((fmtFields (d.posFmt n) word).1 + d.posOfs n) % 2 ^ 20 = m
  obtain ⟨gframe, goth, gown, gvalid, gbusy, gdel⟩ := u.goodWord_spec hn m ts
  have hg : u.gtc = d.gtc := (congrArg Dev.gtc tframe.1 :)
  have hsame := tframe.sameTracks fun a ha => by
    rw [List.mem_singleton.1 ha]
    exact offTracks_of_le (by simp only [R.POS_TURNS]; omega) (by simp only [R.POS_TURNS]; omega)
  have hbusy : u.flag (R.POS_STAT n) F.POS_STAT_BUSY = d.flag (R.POS_STAT n) F.POS_STAT_BUSY :=
    Dev.flag_of_reg (tframe.reg posOnly_part (eventReg_posStat hn) (by
      simp only [List.mem_singleton, R.POS_STAT, R.POS_TURNS]
      omega)) _
  rw [tspd, tpos, hg] at gdel
  rw [tpos] at gown
  have ht : FrameOn Dev.posPart (posRegs n ++ trkRegs) d u := tframe.widen posOnly_part posPart_part (fun _ _ => rfl) fun a ha => by
    rw [List.mem_singleton.1 ha]
    exact List.mem_append_left _ (by simp [posRegs])
  have hturns : (u.goodWord n m ts).reg (R.POS_TURNS n) = u.reg (R.POS_TURNS n) :=
    gframe.reg posPart_part (eventReg_pos (r := 0x80) (by decide) (by decide) hn)
      (posReg_not_upd (by simp only [R.POS_TURNS]; omega) (by simp only [R.POS_TURNS, R.POS_ANG]; omega)
        (by simp only [R.POS_TURNS, R.POS_SPD]; omega) (by simp only [R.POS_TURNS, R.POS_STAT]; omega))
  exact ⟨ht.trans posPart_part (gframe.mono updRegs_sub), fun j hj => (goth j hj).trans (tpos j), by rw [gown], gbusy.trans hbusy, gvalid,
    fun _ => ⟨by rw [gown], hturns.trans tturns, gdel.of_same hsame⟩, fun h => absurd h (by decide)⟩

theorem pgEvtRaw_ne_posStat (page n : Nat) : R.PG_EVT_RAW page ≠ R.POS_STAT n := by
  simp only [R.PG_EVT_RAW, pageBase, R.POS_STAT]
  omega

/-- A bad word at an interface. -/
theorem Dev.serialWord_refused (hn : n < 12) (hp : n < nPos d.member) {word ts m t : Nat} {crcOk : Bool} (h : d.wordBad n word crcOk = true) :
    WordTaken d (d.serialWord n word ts crcOk) n ts m t false := by
  have hi := posIfc_lt hn
  have hst := posStat_interface hn
  have hsub : ∀ a ∈ decRegs n, a ∈ posRegs n ++ trkRegs := fun a ha => by
    rw [decRegs, isShadow_lt hn, if_neg Bool.false_ne_true, hi] at ha
    exact ha
  obtain ⟨-, hpos, hraised⟩ := d.posErr_spec (x := n) (by rw [hi]; exact hp) Ev.WORD_ERR
  have herr : FrameOn noPart [R.POS_ERRCNT n] d (d.posErr n Ev.WORD_ERR) := by
    rw [Dev.posErr, isShadow_lt hn, if_neg Bool.false_ne_true, hi]
    exact ((FrameOn.refl noPart_part _ d).bump noPart_part _ (List.mem_singleton_self _)).quiet noPart_part (Dev.raiseN_quiet _ _ _ _)
  have hframe := (FrameOn.refl posPart_part (posRegs n ++ trkRegs) d).posErr hsub posPart_part Ev.WORD_ERR
  rw [isShadow_lt hn, hi, if_neg Bool.false_ne_true] at hraised
  rw [Dev.serialWord_bad h, Dev.posValid, hst]
  generalize d.posErr n Ev.WORD_ERR = u at hpos hraised herr hframe
  have hpos2 : ∀ j, (u.putB (R.POS_STAT n) F.POS_STAT_VALID false).posS j = d.posS j := fun j => (Dev.posS_put _ _ _ _ _).trans (posS_of_pos hpos j)
  have hstat : u.reg (R.POS_STAT n) = d.reg (R.POS_STAT n) := herr.reg noPart_part (eventReg_posStat hn) (by
    simp only [List.mem_singleton, R.POS_STAT, R.POS_ERRCNT]
    omega)
  have hang : u.reg (R.POS_ANG n) = d.reg (R.POS_ANG n) := herr.reg noPart_part (eventReg_posAng hn) (by
    simp only [List.mem_singleton, R.POS_ANG, R.POS_ERRCNT]
    omega)
  have htrk : u.trk = d.trk := (congrArg Dev.trk herr.1 :)
  refine ⟨hframe.putB posPart_part _ _ (List.mem_append_left _ (by simp [posRegs])), fun j _ => hpos2 j, congrArg PosSt.frame (hpos2 n),
    (Dev.flag_put_field _ _ _ _ (by decide)).trans (Dev.flag_of_reg hstat _), Dev.flag_putB_self _ _ _ _ rfl (by decide),
    fun h => absurd h (by decide), fun _ => ⟨?_, congrArg PosSt.words (hpos2 n), ?_, fun k => ?_⟩⟩
  · rw [Raised] at hraised ⊢
    exact (congrArg (fun w => bitOf w _) (Dev.reg_put_ne _ _ _ (pgEvtRaw_ne_posStat _ _))).trans hraised
  · exact (Dev.reg_put_ne _ _ _ (by simp only [R.POS_ANG, R.POS_STAT]; omega)).trans hang
  · exact trkS_of_trk htrk k

/-! ### A frame's end -/

/-- The interface at the end of its frame. -/
def Dev.frameEnded (d : Dev) (n : Nat) : Dev := (d.setPos n { d.posS n with frame := none }).putB (R.POS_STAT n) F.POS_STAT_BUSY false

/-- Whether a frame's CRC holds; SSI has none. -/
def crcGood (bits word : Nat) : Option (Nat × Nat) → Bool
  | some (_, crc) => crcHolds bits word crc
  | none => true

theorem Dev.frameWord_eq (d : Dev) (n word f : Nat) (bis : Option (Nat × Nat)) : d.frameWord n word f bis =
    ((d.frameEnded n).serialWord n word (f + (d.frameEnded n).posLat n) (crcGood (fmtBits (d.posFmt n)) word bis)).shadowsHear n (d.posMode n)
      (fmtBits (d.posFmt n)) word f bis := by
  cases bis with
  | none => rfl
  | some b => rfl

/-- From a device to one whose frame has ended: what a word asks of it stands. -/
structure FrameEnded (d e : Dev) (n : Nat) : Prop where
  frame : FrameOn Dev.posPart [R.POS_STAT n, R.TL_ZS_INFO] d e
  other : ∀ j, j ≠ n → e.posS j = d.posS j
  own : e.posS n = { d.posS n with frame := none }
  busy : e.flag (R.POS_STAT n) F.POS_STAT_BUSY = false
  tracks : SameTracks d e

theorem FrameEnded.reg (h : FrameEnded d e n) (hn : n < 12) {r : Nat} (hr : 0x40 ≤ r) (hr2 : r < 0x100) (hne : r ≠ 0x6C) :
    e.reg (0x40048000 + r + 0x1000 * n) = d.reg (0x40048000 + r + 0x1000 * n) :=
  h.frame.reg posPart_part (eventReg_pos hr hr2 hn) (by
    simp only [List.mem_cons, List.not_mem_nil, or_false, not_or, R.POS_STAT, R.TL_ZS_INFO]
    omega)

theorem FrameEnded.settings (h : FrameEnded d e n) (hn : n < 12) : e.posFmt n = d.posFmt n ∧ e.posOfs n = d.posOfs n ∧ e.posSpdM n = d.posSpdM n ∧
    e.posLat n = d.posLat n := by
  have hi := posIfc_lt hn
  have hs := isShadow_lt hn
  have hreg := fun r hr hr2 hne => h.reg hn (r := r) hr hr2 hne
  have hfmt : e.reg (R.POS_SER_FMT n) = d.reg (R.POS_SER_FMT n) := hreg 0x78 (by decide) (by decide) (by decide)
  have hofs : e.reg (R.POS_OFS n) = d.reg (R.POS_OFS n) := hreg 0x4C (by decide) (by decide) (by decide)
  have hspd : e.reg (R.POS_SPD_CFG n) = d.reg (R.POS_SPD_CFG n) := hreg 0x48 (by decide) (by decide) (by decide)
  have hlat : e.reg (R.POS_SER_TIME n) = d.reg (R.POS_SER_TIME n) := hreg 0x7C (by decide) (by decide) (by decide)
  simp only [Dev.posFmt, Dev.posOfs, Dev.posSpdM, Dev.posLat, Dev.posField, hs, hi, Bool.false_eq_true, if_false, hfmt, Dev.get_of_reg hofs,
    Dev.get_of_reg hspd, Dev.get_of_reg hlat, and_self]

theorem Dev.frameEnded_spec (d : Dev) (hn : n < 12) : FrameEnded d (d.frameEnded n) n := by
  have hset := (FrameOn.refl posPart_part [R.POS_STAT n, R.TL_ZS_INFO] d).setPos n { d.posS n with frame := none }
  have hpos := fun j => d.posS_setPos n j { d.posS n with frame := none }
  have hsame : SameTracks d (d.setPos n { d.posS n with frame := none }) := SameTracks.of_reg rfl rfl (fun _ _ => rfl) rfl rfl
  rw [Dev.frameEnded]
  generalize d.setPos n { d.posS n with frame := none } = u at hset hpos hsame
  exact ⟨hset.putB posPart_part _ _ List.mem_cons_self, fun j hj => (Dev.posS_put _ _ _ _ _).trans ((hpos j).trans (if_neg hj)),
    (Dev.posS_put _ _ _ _ _).trans ((hpos n).trans (if_pos rfl)), Dev.flag_putB_self _ _ _ _ rfl (by decide),
    hsame.trans (SameTracks.setReg _ _ (offTracks_posStat hn))⟩

/-- The same after a ZERO_SLACK. -/
theorem FrameEnded.after_zeroSlack (h : FrameEnded (d.zeroSlack 2 n) e n) : FrameEnded d e n := by
  have hz := d.zeroSlack_frame 2 n
  generalize d.zeroSlack 2 n = z at h hz
  have hpos : z.pos = d.pos := (congrArg Dev.pos hz.1 :)
  have hs := posS_of_pos hpos
  have hsame : SameTracks d z := by
    have hoff : ∀ a, eventReg a = false → a ≠ R.TL_ZS_INFO → z.reg a = d.reg a :=
      fun a ha hne => hz.reg zsPart_part ha fun hm => hne (List.mem_singleton.1 hm)
    refine SameTracks.of_reg (congrArg Dev.gtc hz.1 :) (congrArg Dev.trk hz.1 :) (fun k hk => hoff _ (eventReg_trkCfg hk) ?_)
      (hoff _ (by decide) (by decide)) (hoff _ (by decide) (by decide))
    simp only [R.TRK_CFG, R.TL_ZS_INFO]
    omega
  refine ⟨(hz.widen zsPart_part posPart_part (fun _ _ => rfl) fun a ha => ?_).trans posPart_part h.frame, fun j hj => (h.other j hj).trans (hs j),
    h.own.trans (by rw [hs]), h.busy, hsame.trans h.tracks⟩
  rw [List.mem_singleton.1 ha]
  simp

/-! ### A word judged, whole -/

theorem shadowRegs_apart {a : Nat} (h : a ∈ shadowRegs) : 0x400480D4 ≤ a ∧ 0xD4 ≤ a % 0x1000 ∧ a % 0x1000 < 0xE0 := by
  obtain ⟨k, -, hk⟩ := List.mem_flatMap.1 h
  simp only [shdRegs, List.mem_cons, List.not_mem_nil, or_false, R.SHD_STAT, R.SHD_ANG, R.SHD_SPD] at hk
  omega

/-- What an interface has delivered stands where shadows alone change. -/
theorem Delivered.of_shadows {f : Dev} {m : Nat} {v : Option Int} {ts ta : Nat} (hn : n < 12) (h : Delivered d e n m v ts ta)
    (hf : FrameOn posOnly shadowRegs e f) : Delivered d f n m v ts ta := by
  obtain ⟨hang, hspd, htrk⟩ := h
  have hreg : ∀ a, eventReg a = false → (a < 0x400480D4 ∨ a % 0x1000 < 0xD4) → f.reg a = e.reg a := fun a ha hlt =>
    hf.reg posOnly_part ha fun hm => by
      have := shadowRegs_apart hm
      omega
  have htrkS : f.trk = e.trk := (congrArg Dev.trk hf.1 :)
  refine ⟨(Dev.get_of_reg (hreg _ (eventReg_posAng hn) (.inr (by simp only [R.POS_ANG]; omega))) _).trans hang,
    fun x hx => (hreg _ (eventReg_posSpd hn) (.inr (by simp only [R.POS_SPD]; omega))).trans (hspd x hx), fun k hk => ?_⟩
  have hlt : R.TRK_STAT k < 0x400480D4 := by
    simp only [R.TRK_STAT, nTracks] at hk ⊢
    omega
  have hk' := htrk k hk
  rw [trkS_of_trk htrkS k, Dev.flag_of_reg (hreg _ (eventReg_trkStat hk) (.inl hlt))]
  exact hk'

theorem wordJudged_of {u v w : Dev} {word ts : Nat} {good : Bool} (hn : n < 12) (hu : FrameEnded d u n)
    (hv : WordTaken u v n ts (((fmtFields (d.posFmt n) word).1 + d.posOfs n) % 2 ^ 20) (fmtFields (d.posFmt n) word).2 good)
    (hw : FrameOn posOnly shadowRegs v w) (hlow : ∀ j, j < 16 → w.posS j = v.posS j) : WordJudged d w n word ts good := by
  have hreg : ∀ a, eventReg a = false → a % 0x1000 < 0xD4 → w.reg a = v.reg a := fun a ha hlt =>
    hw.reg posOnly_part ha fun hm => by
      have := shadowRegs_apart hm
      omega
  obtain ⟨-, -, hspd, -⟩ := hu.settings hn
  have hstat := hreg _ (eventReg_posStat hn) (by simp only [R.POS_STAT]; omega)
  have hn16 := hlow n (by omega)
  have hwords : (u.posS n).words = (d.posS n).words := by rw [hu.own]
  have hgtc : u.gtc = d.gtc := (congrArg Dev.gtc hu.frame.1 :)
  have hang0 := hu.reg hn (r := 0x64) (by decide) (by decide) (by decide)
  refine ⟨?_, fun j hj hlt => (hlow j hlt).trans ((hv.other j hj).trans (hu.other j hj)), ?_, (Dev.flag_of_reg hstat _).trans (hv.busy.trans hu.busy),
    (Dev.flag_of_reg hstat _).trans hv.valid, ?_⟩
  · refine ((hu.frame.mono fun a ha => ?_).trans posPart_part (hv.frame.mono fun a ha => ?_)).trans posPart_part
      (hw.widen posOnly_part posPart_part (fun _ _ => rfl) fun a ha => List.mem_append_left _ (List.mem_append_right _ ha))
    · simp only [List.mem_cons, List.not_mem_nil, or_false] at ha
      obtain rfl | rfl := ha
      · exact List.mem_append_left _ (List.mem_append_left _ (by simp [posRegs]))
      · exact List.mem_append_right _ (by simp [trkRegs])
    · obtain ha | ha := List.mem_append.1 ha
      · exact List.mem_append_left _ (List.mem_append_left _ ha)
      · exact List.mem_append_right _ ha
  · rw [hn16, hv.kept, hu.own]
  · cases good with
    | true =>
      obtain ⟨h1, h2, h3⟩ := hv.taken rfl
      rw [if_pos rfl]
      rw [hspd, hwords, hgtc] at h3
      refine ⟨by rw [hn16, h1, hwords], (hreg (R.POS_TURNS n) (eventReg_pos (r := 0x80) (by decide) (by decide) hn) (by simp only [R.POS_TURNS]; omega)).trans h2, ?_⟩
      exact Delivered.of_same (Delivered.of_shadows hn h3 hw) hu.tracks
    | false =>
      obtain ⟨h1, h2, h3, h4⟩ := hv.refused rfl
      rw [if_neg Bool.false_ne_true]
      refine ⟨?_, by rw [hn16, h2, hwords], ?_, fun k => ?_⟩
      · exact hw.raised posOnly_part (fun hm => by
          have := shadowRegs_apart hm
          simp only [R.PG_EVT_RAW, pageBase, Pg.POS] at this
          omega) h1
      · exact (hreg _ (eventReg_posAng hn) (by simp only [R.POS_ANG]; omega)).trans (h3.trans hang0)
      · have htrkS : w.trk = v.trk := (congrArg Dev.trk hw.1 :)
        exact (trkS_of_trk htrkS k).trans ((h4 k).trans (hu.tracks.trk k))

/-- A frame's word judged (R176, R180), after what may have come before it. -/
theorem Dev.frameWord_judged {u : Dev} (hn : n < 12) (hp : n < nPos d.member) (hu : FrameEnded d (u.frameEnded n) n)
    (hfmt : u.posFmt n = d.posFmt n) (word f : Nat) (bis : Option (Nat × Nat)) :
    WordJudged d (u.frameWord n word f bis) n word (f + d.posLat n)
      !(fmtBad (d.posFmt n) word || !crcGood (fmtBits (d.posFmt n)) word bis) := by
  rw [Dev.frameWord_eq, hfmt]
  obtain ⟨sfmt, sofs, -, slat⟩ := hu.settings hn
  have hmem : (u.frameEnded n).member = d.member := (congrArg Dev.member hu.frame.1 :)
  generalize u.frameEnded n = w at hu sfmt sofs slat hmem
  generalize u.posMode n = mo
  rw [slat]
  have hbad : w.wordBad n word (crcGood (fmtBits (d.posFmt n)) word bis) =
      (fmtBad (d.posFmt n) word || !crcGood (fmtBits (d.posFmt n)) word bis) := by rw [Dev.wordBad, sfmt]
  obtain ⟨hw, hlow⟩ := (w.serialWord n word (f + d.posLat n) (crcGood (fmtBits (d.posFmt n)) word bis)).shadowsHear_spec n mo
    (fmtBits (d.posFmt n)) word f bis
  refine wordJudged_of hn hu ?_ hw hlow
  rw [← hbad]
  cases h : w.wordBad n word (crcGood (fmtBits (d.posFmt n)) word bis) with
  | false =>
    have ht := Dev.serialWord_taken hn (ts := f + d.posLat n) h
    rw [sfmt, sofs] at ht
    exact ht
  | true => exact Dev.serialWord_refused hn (hmem ▸ hp) h

end

end Sys2Proof.Machine
end

section
/-! PROOFS. The commands of position requests and serial frames (R162, R173 to R176). -/

namespace Sys2Proof.Machine

section
variable {d : Dev} {n f : Nat}

theorem Dev.posFmt_zeroSlack (d : Dev) (n : Nat) (hn : n < 12) : (d.zeroSlack 2 n).posFmt n = d.posFmt n := by
  rw [Dev.posFmt, Dev.posFmt, isShadow_lt hn, if_neg Bool.false_ne_true, posIfc_lt hn]
  refine (d.zeroSlack_frame 2 n).reg zsPart_part (eventReg_pos (r := 0x78) (by decide) (by decide) hn) ?_
  simp only [List.mem_singleton, R.POS_SER_FMT, R.TL_ZS_INFO]
  omega

theorem Dev.ssiWord_eq {word : Nat} (hf : (d.posS n).frame = some f) (hm : d.posMode n = mdSSI)
    (ht : f + (fmtBits (d.posFmt n) + 1) * d.serT n + d.posSdly n ≤ d.gtc) : d.ssiWord n word = d.frameWord n word f none := by
  simp only [Dev.ssiWord, hf, if_pos (And.intro hm ht)]

/-- The device on which a BiSS-C word is judged: with the ZERO_SLACK of a start bit in the tick of the timeout. -/
def Dev.startSlack (d : Dev) (n start : Nat) : Dev :=
  if start * d.serT n + d.posSdly n = d.get (R.POS_SER_TIME n) F.POS_SER_TIME_TOUT ∧ (d.posS n).start = none then d.zeroSlack 2 n else d

theorem Dev.bissWord_eq {start word crc : Nat} (hf : (d.posS n).frame = some f) (hm : d.posMode n = mdBISS)
    (hs : start * d.serT n + d.posSdly n ≤ d.get (R.POS_SER_TIME n) F.POS_SER_TIME_TOUT)
    (ht : f + (start + fmtBits (d.posFmt n) + 7) * d.serT n + d.posSdly n ≤ d.gtc) :
    d.bissWord n start word crc = (d.startSlack n start).frameWord n word f (some (start, crc)) := by
  simp only [Dev.bissWord, hf, if_pos (And.intro hm (And.intro hs ht))]
  rfl

theorem Dev.startSlack_ended (d : Dev) (hn : n < 12) (start : Nat) : FrameEnded d ((d.startSlack n start).frameEnded n) n ∧
    (d.startSlack n start).posFmt n = d.posFmt n := by
  rw [Dev.startSlack]
  split
  · exact ⟨((d.zeroSlack 2 n).frameEnded_spec hn).after_zeroSlack, d.posFmt_zeroSlack n hn⟩
  · exact ⟨d.frameEnded_spec hn, rfl⟩

/-- An error counted at an interface. -/
theorem Dev.posErr_interface (d : Dev) (hn : n < 12) (hp : n < nPos d.member) (ev : Nat) :
    FrameOn noPart [R.POS_ERRCNT n] d (d.posErr n ev) ∧ Raised (d.posErr n ev) (Pg.POS n) ev := by
  have hi := posIfc_lt hn
  obtain ⟨-, -, hraised⟩ := d.posErr_spec (x := n) (by rw [hi]; exact hp) ev
  rw [isShadow_lt hn, hi, if_neg Bool.false_ne_true] at hraised
  refine ⟨?_, hraised⟩
  rw [Dev.posErr, isShadow_lt hn, if_neg Bool.false_ne_true, hi]
  exact ((FrameOn.refl noPart_part _ d).bump noPart_part _ (List.mem_singleton_self _)).quiet noPart_part (Dev.raiseN_quiet _ _ _ _)

theorem Dev.posTimeout_eq (hf : (d.posS n).frame = some f) (hm : d.posMode n = mdBISS) (hs : (d.posS n).start = none)
    (ht : f + d.get (R.POS_SER_TIME n) F.POS_SER_TIME_TOUT ≤ d.gtc) : d.posTimeout n = (d.frameEnded n).posErr n Ev.POS_TIMEOUT := by
  simp only [Dev.posTimeout, hf, if_pos (And.intro hm (And.intro hs ht))]
  rfl

theorem posStat_ne_errcnt (n : Nat) : R.POS_STAT n ≠ R.POS_ERRCNT n := by
  simp only [R.POS_STAT, R.POS_ERRCNT]
  omega

theorem Dev.frameTimeout_spec (d : Dev) (hn : n < 12) (hp : n < nPos d.member) (ev : Nat) :
    Frame (d.setPos n { d.posS n with frame := none }) ((d.frameEnded n).posErr n ev) [R.POS_STAT n, R.POS_ERRCNT n] ∧
    ((d.frameEnded n).posErr n ev).flag (R.POS_STAT n) F.POS_STAT_BUSY = false ∧ Raised ((d.frameEnded n).posErr n ev) (Pg.POS n) ev := by
  have hput := (FrameOn.refl noPart_part [R.POS_STAT n, R.POS_ERRCNT n] (d.setPos n { d.posS n with frame := none })).putB noPart_part
    (a := R.POS_STAT n) F.POS_STAT_BUSY false (by simp)
  have hbusy : (d.frameEnded n).flag (R.POS_STAT n) F.POS_STAT_BUSY = false := Dev.flag_putB_self _ _ _ _ rfl (by decide)
  have hmem : (d.frameEnded n).member = d.member := rfl
  have hdef : (d.setPos n { d.posS n with frame := none }).putB (R.POS_STAT n) F.POS_STAT_BUSY false = d.frameEnded n := rfl
  rw [hdef] at hput
  generalize d.setPos n { d.posS n with frame := none } = u at hput
  generalize d.frameEnded n = w at hput hbusy hmem
  obtain ⟨herr, hraised⟩ := w.posErr_interface hn (hmem ▸ hp) ev
  have hreg := herr.reg noPart_part (eventReg_posStat hn) (by rw [List.mem_singleton]; exact posStat_ne_errcnt n)
  exact ⟨hput.trans noPart_part (herr.mono fun a ha => by rw [List.mem_singleton.1 ha]; simp), (Dev.flag_of_reg hreg _).trans hbusy, hraised⟩

/-! ### Requests -/

theorem Dev.posReq_edge (hm : d.posMode n = mdABZ ∨ d.posMode n = mdHALL) : d.posReq n = d.edgeUpdate n d.gtc := if_pos hm

theorem serial_not_edge (hm : d.posMode n = mdSSI ∨ d.posMode n = mdBISS) : ¬(d.posMode n = mdABZ ∨ d.posMode n = mdHALL) := by
  obtain hm | hm := hm <;> rw [hm] <;> decide

/-- The device that has judged the format of a requested frame. -/
def Dev.fmtJudged (d : Dev) (n : Nat) : Dev := d.putB (R.POS_STAT n) F.POS_STAT_CFG_ERR !fmtOk (d.posFmt n)

theorem Dev.posReq_serial (hm : d.posMode n = mdSSI ∨ d.posMode n = mdBISS) : d.posReq n =
    if ((d.posS n).frame.isSome || (d.posS n).dataLow) = true then (d.fmtJudged n).posErr n Ev.POS_OVERRUN
    else if (!fmtOk (d.posFmt n)) = true then d.fmtJudged n
    else ((d.fmtJudged n).setPos n { d.posS n with frame := some d.gtc, ack := false, start := none }).putB (R.POS_STAT n) F.POS_STAT_BUSY true := by
  rw [Dev.posReq, if_neg (serial_not_edge hm), if_pos hm]
  rfl

/-- The device with a frame begun. -/
def Dev.frameBegun (d : Dev) (n : Nat) : Dev :=
  ((d.fmtJudged n).setPos n { d.posS n with frame := some d.gtc, ack := false, start := none }).putB (R.POS_STAT n) F.POS_STAT_BUSY true

/-- Writing a decoder's record and a register's field are apart. -/
theorem Dev.setPos_putB (d : Dev) (n a : Nat) (g : RField) (b : Bool) (q : PosSt) : (d.putB a g b).setPos n q = (d.setPos n q).putB a g b := rfl

theorem Dev.frameBegun_spec (d : Dev) (n : Nat) (h : fmtOk (d.posFmt n) = true) :
    Frame (d.setPos n { d.posS n with frame := some d.gtc, ack := false, start := none }) (d.frameBegun n) [R.POS_STAT n] ∧
    (d.frameBegun n).flag (R.POS_STAT n) F.POS_STAT_BUSY = true ∧ (d.frameBegun n).flag (R.POS_STAT n) F.POS_STAT_CFG_ERR = false := by
  have hm : R.POS_STAT n ∈ [R.POS_STAT n] := List.mem_singleton_self _
  rw [Dev.frameBegun, Dev.fmtJudged, h, Bool.not_true, Dev.setPos_putB]
  generalize d.setPos n { d.posS n with frame := some d.gtc, ack := false, start := none } = u
  refine ⟨((FrameOn.refl noPart_part _ u).put noPart_part _ _ hm).putB noPart_part _ _ hm, Dev.flag_putB_self _ _ _ _ rfl (by decide), ?_⟩
  have hcfg : (u.putB (R.POS_STAT n) F.POS_STAT_CFG_ERR false).flag (R.POS_STAT n) F.POS_STAT_CFG_ERR = false :=
    Dev.flag_putB_self _ _ _ _ rfl (by decide)
  exact (Dev.flag_put_field _ _ _ _ (by decide)).trans hcfg

theorem Dev.overrun_spec (d : Dev) (hn : n < 12) (hp : n < nPos d.member) :
    Frame d ((d.fmtJudged n).posErr n Ev.POS_OVERRUN) [R.POS_STAT n, R.POS_ERRCNT n] ∧
    Raised ((d.fmtJudged n).posErr n Ev.POS_OVERRUN) (Pg.POS n) Ev.POS_OVERRUN := by
  have hput := (FrameOn.refl noPart_part [R.POS_STAT n, R.POS_ERRCNT n] d).putB noPart_part (a := R.POS_STAT n) F.POS_STAT_CFG_ERR
    (!fmtOk (d.posFmt n)) (by simp)
  have hmem : (d.fmtJudged n).member = d.member := rfl
  rw [← Dev.fmtJudged] at hput
  generalize d.fmtJudged n = u at hput hmem
  obtain ⟨herr, hraised⟩ := u.posErr_interface hn (hmem ▸ hp) Ev.POS_OVERRUN
  exact ⟨hput.trans noPart_part (herr.mono fun a ha => by rw [List.mem_singleton.1 ha]; simp), hraised⟩

end

theorem execPosReq_one {s : State} {k : Nat} {r : Firing} {d : Dev} (hlive : s.Live) (ht : s.dev.takeFiring k 6 = some (r, d)) (hs : r.span = 0)
    (hn : r.target < nPos d.member) : exec (.posReq k) s = .next (s.withDev (d.posReq r.target)) :=
  onLive_eq hlive (Dev.runAction_one ht hs (hn.trans_le (nPos_le _)) (by
    rw [← s.dev.takeFiring_member ht]
    exact decide_eq_true hn))

/-- Settles O27. -/
theorem positionRequests : Obligations.PositionRequests := by
  intro s hlive
  refine ⟨fun k r d ht hs hn => ?_, fun n f hn hf => ⟨fun word hm hdue => ?_, fun start word crc hm hst hdue => ?_, fun hm hst hdue => ?_⟩⟩
  · have hn12 := hn.trans_le (nPos_le _)
    have hrun := execPosReq_one hlive ht hs hn
    refine ⟨fun ts l hm hedges => ?_, fun hm => ⟨fun hnone hlow hok => ?_, fun hbusy => ?_⟩⟩
    · rw [Dev.posReq_edge hm, Dev.edgeUpdate_eq hedges] at hrun
      exact ⟨_, hrun, (d.deliver_setPos hn12 _ _ _ _ _ _).2.2.2⟩
    · rw [Dev.posReq_serial hm, if_neg (by rw [hnone, hlow]; decide), if_neg (by rw [hok]; decide)] at hrun
      exact ⟨_, hrun, d.frameBegun_spec r.target hok⟩
    · have hover : ((d.posS r.target).frame.isSome || (d.posS r.target).dataLow) = true := by
        rw [Bool.or_eq_true, Option.isSome_iff_ne_none]
        exact hbusy
      rw [Dev.posReq_serial hm, if_pos hover] at hrun
      exact ⟨_, hrun, d.overrun_spec hn12 hn⟩
  · have hn12 := hn.trans_le (nPos_le _)
    have hj := Dev.frameWord_judged hn12 hn (s.dev.frameEnded_spec hn12) rfl word f none
    rw [crcGood, Bool.not_true, Bool.or_false] at hj
    exact ⟨_, onLive_eq hlive ((if_pos hn).trans (Dev.ssiWord_eq hf hm hdue)), hj⟩
  · have hn12 := hn.trans_le (nPos_le _)
    obtain ⟨hended, hfmt⟩ := s.dev.startSlack_ended hn12 start
    have hj := Dev.frameWord_judged hn12 hn hended hfmt word f (some (start, crc))
    rw [crcGood, crcHolds, Bool.not_or, Bool.not_not] at hj
    exact ⟨_, onLive_eq hlive ((if_pos hn).trans (Dev.bissWord_eq hf hm hst hdue)), hj⟩
  · have hn12 := hn.trans_le (nPos_le _)
    exact ⟨_, onLive_eq hlive ((if_pos hn).trans (Dev.posTimeout_eq hf hm hst hdue)), s.dev.frameTimeout_spec hn12 hn Ev.POS_TIMEOUT⟩

end Sys2Proof.Machine
end

section
/-! PROOFS. Resolvers, the excitation, shadows and emulation outputs (R165, R178 to R184, R186). -/

namespace Sys2Proof.Machine

/-! ### Resolver words (R179) -/

/-- Decoders, tracks, the tick of ZERO_SLACK, and the count of what the spec leaves free. -/
def posFree (d e : Dev) : Dev := { d.posPart e with free := e.free }

theorem posFree_part : Part posFree := ⟨fun _ => rfl, fun _ _ _ => rfl, fun _ _ => rfl, fun _ _ _ => rfl⟩

section
variable {d : Dev} {n : Nat}

/-- The device whose interface counts its accumulators' commits as used and has judged its configuration. -/
def Dev.resJudged (d : Dev) (n : Nat) (bad : Bool) : Dev := (d.resSync n).putB (R.POS_STAT n) F.POS_STAT_CFG_ERR bad

/-- What counting the commits as used changes. -/
structure ResCounted (d e : Dev) (n : Nat) : Prop where
  frame : FrameOn posFree [R.POS_STAT n] d e
  only : FrameOn posOnly [R.POS_STAT n] d e
  other : ∀ k, k ≠ n → e.posS k = d.posS k
  own : e.posS n = { d.posS n with useS := (d.accS (d.get (R.POS_RES_CFG n) F.POS_RES_CFG_ACC_SIN)).cAt,
                                   useC := (d.accS (d.get (R.POS_RES_CFG n) F.POS_RES_CFG_ACC_COS)).cAt }
  valid : e.flag (R.POS_STAT n) F.POS_STAT_VALID = d.flag (R.POS_STAT n) F.POS_STAT_VALID

theorem Dev.resJudged_spec (d : Dev) (n : Nat) (bad : Bool) : ResCounted d (d.resJudged n bad) n := by
  rw [Dev.resJudged, Dev.resSync]
  generalize hq : ({ d.posS n with useS := (d.accS (d.get (R.POS_RES_CFG n) F.POS_RES_CFG_ACC_SIN)).cAt,
                                   useC := (d.accS (d.get (R.POS_RES_CFG n) F.POS_RES_CFG_ACC_COS)).cAt } : PosSt) = q
  have hm : R.POS_STAT n ∈ [R.POS_STAT n] := List.mem_singleton_self _
  have h1 := posOnly_setPos (FrameOn.refl posOnly_part [R.POS_STAT n] d) n q
  have h2 := (FrameOn.refl posFree_part [R.POS_STAT n] d).part posFree_part (f := d.setPos n q) rfl fun _ => rfl
  have s1 := fun j => d.posS_setPos n j q
  have v1 : (d.setPos n q).flag (R.POS_STAT n) F.POS_STAT_VALID = d.flag (R.POS_STAT n) F.POS_STAT_VALID := rfl
  generalize d.setPos n q = u at h1 h2 s1 v1
  exact ⟨h2.putB posFree_part _ _ hm, h1.putB posOnly_part _ _ hm, fun k hk => (Dev.posS_put _ _ _ _ _).trans ((s1 k).trans (if_neg hk)),
    (Dev.posS_put _ _ _ _ _).trans ((s1 n).trans ((if_pos rfl).trans hq.symm)), (Dev.flag_put_field _ _ _ _ (by decide)).trans v1⟩

/-- The accumulators of an interface's resolver. -/
def Dev.resSin (d : Dev) (n : Nat) : Nat := d.get (R.POS_RES_CFG n) F.POS_RES_CFG_ACC_SIN
def Dev.resCos (d : Dev) (n : Nat) : Nat := d.get (R.POS_RES_CFG n) F.POS_RES_CFG_ACC_COS

/-- Whether a resolver's amplitude lies outside its limits (R179). -/
def Dev.resOut (d : Dev) (n i j : Nat) : Prop :=
  let y := mantW (d.reg (R.ACC_RES0 i))
  let x := mantW (d.reg (R.ACC_RES0 j))
  let lo : Int := 8 * (d.get (R.POS_RES_AMP n) F.POS_RES_AMP_AMP_LO : Nat)
  let hi : Int := 8 * (d.get (R.POS_RES_AMP n) F.POS_RES_AMP_AMP_HI : Nat)
  y * y + x * x < lo * lo ∨ hi * hi < y * y + x * x

/-- A resolver's word within its limits, from the values of its accumulators. -/
def Dev.resGood (e : Dev) (n i j ts : Nat) : Dev :=
  let y := mantW (e.reg (R.ACC_RES0 i))
  let x := mantW (e.reg (R.ACC_RES0 j))
  (e.vecAngle y x).2.goodWord n (((e.vecAngle y x).1 + (e.vecAngle y x).2.posOfs n) % 2 ^ 20) ts

/-- The word of a resolver with a configuration in order, given on a device that has counted the commits. -/
def Dev.resWordOn (d e : Dev) (n : Nat) : Dev :=
  if (d.accS (d.resSin n)).cAt ≠ (d.accS (d.resCos n)).cAt ∨ (d.accS (d.resSin n)).cOpen ≠ (d.accS (d.resCos n)).cOpen then
    e.posErr n Ev.RES_MISMATCH
  else if (e.accLos (d.resSin n) || e.accLos (d.resCos n)) = true then e.resLos n
  else
    let y := mantW (e.reg (R.ACC_RES0 (d.resSin n)))
    let x := mantW (e.reg (R.ACC_RES0 (d.resCos n)))
    let lo : Int := 8 * (e.get (R.POS_RES_AMP n) F.POS_RES_AMP_AMP_LO : Nat)
    let hi : Int := 8 * (e.get (R.POS_RES_AMP n) F.POS_RES_AMP_AMP_HI : Nat)
    if y * y + x * x < lo * lo ∨ hi * hi < y * y + x * x then e.resLos n
    else e.resGood n (d.resSin n) (d.resCos n) (((d.accS (d.resSin n)).cOpen + (d.accS (d.resSin n)).cClose) / 2)

section
variable {e : Dev} (hat : (d.accS (d.resSin n)).cAt = (d.accS (d.resCos n)).cAt)
  (hopen : (d.accS (d.resSin n)).cOpen = (d.accS (d.resCos n)).cOpen)

theorem Dev.resWordOn_mismatch (h : (d.accS (d.resSin n)).cAt ≠ (d.accS (d.resCos n)).cAt ∨
    (d.accS (d.resSin n)).cOpen ≠ (d.accS (d.resCos n)).cOpen) : d.resWordOn e n = e.posErr n Ev.RES_MISMATCH := if_pos h

include hat hopen

theorem Dev.resWordOn_los (h : e.accLos (d.resSin n) = true ∨ e.accLos (d.resCos n) = true ∨ e.resOut n (d.resSin n) (d.resCos n)) :
    d.resWordOn e n = e.resLos n := by
  rw [Dev.resWordOn, if_neg (by simp [hat, hopen])]
  split
  · rfl
  · next hno =>
    rw [Bool.or_eq_true, not_or] at hno
    exact if_pos (h.resolve_left hno.1 |>.resolve_left hno.2)

theorem Dev.resWordOn_good (hi : e.accLos (d.resSin n) = false) (hj : e.accLos (d.resCos n) = false)
    (h : ¬e.resOut n (d.resSin n) (d.resCos n)) : d.resWordOn e n =
      e.resGood n (d.resSin n) (d.resCos n) (((d.accS (d.resSin n)).cOpen + (d.accS (d.resSin n)).cClose) / 2) := by
  rw [Dev.resWordOn, if_neg (by simp [hat, hopen]), if_neg (by simp [hi, hj])]
  exact if_neg h

end

/-- Whether a resolver names accumulators that do not serve it (R179). -/
def Dev.resBad (d : Dev) (n : Nat) : Bool :=
  decide (384 ≤ d.resSin n) || decide (384 ≤ d.resCos n) || d.accExp0 (d.resSin n) != d.accExp0 (d.resCos n)

theorem Dev.resolverWord_eq (d : Dev) (n : Nat) : d.resolverWord n =
    if d.posMode n ≠ mdRES then d
    else if (d.resFresh (d.posS n).useS (d.resSin n) && d.resFresh (d.posS n).useC (d.resCos n)) = true then
      if d.resBad n = true then d.resJudged n (d.resBad n) else d.resWordOn (d.resJudged n (d.resBad n)) n
    else d := rfl

theorem Dev.resolverWord_notDue (h : d.resFresh (d.posS n).useS (d.resSin n) = false ∨ d.resFresh (d.posS n).useC (d.resCos n) = false) :
    d.resolverWord n = d := by
  have hf : ¬(d.resFresh (d.posS n).useS (d.resSin n) && d.resFresh (d.posS n).useC (d.resCos n)) = true := by
    obtain h | h := h <;> simp [h]
  rw [Dev.resolverWord_eq, if_neg hf, ite_self]

theorem Dev.resolverWord_due (hm : d.posMode n = mdRES) (hs : d.resFresh (d.posS n).useS (d.resSin n) = true)
    (hc : d.resFresh (d.posS n).useC (d.resCos n) = true) :
    d.resolverWord n = if d.resBad n = true then d.resJudged n (d.resBad n) else d.resWordOn (d.resJudged n (d.resBad n)) n := by
  rw [Dev.resolverWord_eq, if_neg (not_not.2 hm), if_pos (by rw [hs, hc]; rfl)]

theorem Dev.resBad_iff : d.resBad n = true ↔ 384 ≤ d.resSin n ∨ 384 ≤ d.resCos n ∨ d.accExp0 (d.resSin n) ≠ d.accExp0 (d.resCos n) := by
  simp [Dev.resBad, or_assoc]

theorem Dev.resBad_false (hi : d.resSin n < 384) (hj : d.resCos n < 384) (he : d.accExp0 (d.resSin n) = d.accExp0 (d.resCos n)) :
    d.resBad n = false := by
  rw [← Bool.not_eq_true, Dev.resBad_iff]
  omega

theorem Dev.resFresh_of {used a : Nat} (h : used < (d.accS a).cAt) (hg : (d.accS a).cAt + 1 ≤ d.gtc) : d.resFresh used a = true := by
  rw [Dev.resFresh, decide_eq_true h, decide_eq_true hg]
  exact Bool.or_true _

/-! ### Outcomes -/


/-- What a resolver's word may change: the parts of decoders and tracks, its registers; the commits count as used. -/
def ResDone (d e : Dev) (n : Nat) : Prop :=
  Frame (posFree d e) e (posRegs n ++ trkRegs) ∧ (∀ k, k ≠ n → e.posS k = d.posS k) ∧
    (e.posS n).useS = (d.accS (d.resSin n)).cAt ∧ (e.posS n).useC = (d.accS (d.resCos n)).cAt

theorem posRegs_stat : R.POS_STAT n ∈ posRegs n ++ trkRegs := by simp [posRegs]
theorem posRegs_errcnt : R.POS_ERRCNT n ∈ posRegs n ++ trkRegs := by simp [posRegs]

/-- A step after the commits have been counted, which leaves the decoders' records. -/
theorem ResCounted.done {e f : Dev} (h : ResCounted d e n) (g : FrameOn posFree (posRegs n ++ trkRegs) e f) (hp : ∀ k, k ≠ n → f.posS k = e.posS k)
    (hs : (f.posS n).useS = (e.posS n).useS) (hc : (f.posS n).useC = (e.posS n).useC) : ResDone d f n :=
  ⟨(h.frame.mono fun a ha => by rw [List.mem_singleton.1 ha]; exact posRegs_stat).trans posFree_part g, fun k hk => (hp k hk).trans (h.other k hk),
    hs.trans (congrArg PosSt.useS h.own :), hc.trans (congrArg PosSt.useC h.own :)⟩

theorem ResCounted.reg {e : Dev} (h : ResCounted d e n) {a : Nat} (ha : eventReg a = false) (hne : a ≠ R.POS_STAT n) : e.reg a = d.reg a :=
  h.only.reg posOnly_part ha (by rwa [List.mem_singleton])

theorem ResCounted.member {e : Dev} (h : ResCounted d e n) : e.member = d.member := (congrArg Dev.member h.only.1 :)

theorem eventReg_accCfg (a : Nat) : eventReg (R.ACC_CFG a) = false := by
  rw [eventReg_eq_false]; simp only [R.ACC_CFG]; omega
theorem eventReg_accRes0 (a : Nat) : eventReg (R.ACC_RES0 a) = false := by
  rw [eventReg_eq_false]; simp only [R.ACC_RES0]; omega
theorem eventReg_excStat {k : Nat} (hk : k < 4) : eventReg (R.EXC_STAT k) = false := by
  rw [eventReg_eq_false]; simp only [R.EXC_STAT]; omega

/-- The accumulators' flags are those before the commits were counted. -/
theorem ResCounted.accLos {e : Dev} (h : ResCounted d e n) {a : Nat} (ha : a < 384) : e.accLos a = d.accLos a := by
  have hstat : e.reg (R.ACC_STAT a) = d.reg (R.ACC_STAT a) := h.reg (eventReg_accStat ha) (by simp only [R.ACC_STAT, R.POS_STAT]; omega)
  have hcfg : e.reg (R.ACC_CFG a) = d.reg (R.ACC_CFG a) := h.reg (eventReg_accCfg a) (by simp only [R.ACC_CFG, R.POS_STAT]; omega)
  have hk : d.get (R.ACC_CFG a) F.ACC_CFG_EXC < 4 := getF_lt _ _
  have hexc : e.reg (R.EXC_STAT (d.get (R.ACC_CFG a) F.ACC_CFG_EXC)) = d.reg (R.EXC_STAT (d.get (R.ACC_CFG a) F.ACC_CFG_EXC)) :=
    h.reg (eventReg_excStat hk) (by simp only [R.EXC_STAT, R.POS_STAT]; omega)
  rw [Dev.accLos, Dev.accLos, Dev.flag_of_reg hstat, Dev.flag_of_reg hstat, Dev.flag_of_reg hstat, Dev.get_of_reg hcfg, Dev.flag_of_reg hexc]

theorem ResCounted.res0 {e : Dev} (h : ResCounted d e n) (a : Nat) : e.reg (R.ACC_RES0 a) = d.reg (R.ACC_RES0 a) :=
  h.reg (eventReg_accRes0 a) (by simp only [R.ACC_RES0, R.POS_STAT]; omega)

theorem ResCounted.amp {e : Dev} (h : ResCounted d e n) (hn : n < 12) : e.reg (R.POS_RES_AMP n) = d.reg (R.POS_RES_AMP n) :=
  h.reg (eventReg_pos (r := 0x88) (by decide) (by decide) hn) (by simp only [R.POS_RES_AMP, R.POS_STAT]; omega)

/-- A mismatch of the windows. -/
theorem ResCounted.mismatch {e : Dev} (h : ResCounted d e n) (hn : n < 12) (hp : n < nPos d.member) :
    ResDone d (e.posErr n Ev.RES_MISMATCH) n ∧ Raised (e.posErr n Ev.RES_MISMATCH) (Pg.POS n) Ev.RES_MISMATCH ∧
      (e.posErr n Ev.RES_MISMATCH).flag (R.POS_STAT n) F.POS_STAT_VALID = d.flag (R.POS_STAT n) F.POS_STAT_VALID := by
  obtain ⟨hframe, hraised⟩ := e.posErr_interface hn (h.member ▸ hp) Ev.RES_MISMATCH
  have hrec : ∀ k, (e.posErr n Ev.RES_MISMATCH).posS k = e.posS k := posS_of_pos (congrArg Dev.pos hframe.1 :)
  have hreg := hframe.reg noPart_part (eventReg_posStat hn) (by rw [List.mem_singleton]; exact posStat_ne_errcnt n)
  refine ⟨h.done (hframe.widen noPart_part posFree_part (fun _ _ => rfl) fun a ha => ?_) (fun k _ => hrec k) (by rw [hrec]) (by rw [hrec]), hraised,
    (Dev.flag_of_reg hreg _).trans h.valid⟩
  rw [List.mem_singleton.1 ha]
  exact posRegs_errcnt

/-- A loss of the resolver's signal. -/
theorem ResCounted.los {e : Dev} (h : ResCounted d e n) (hn : n < 12) (hp : n < nPos d.member) :
    ResDone d (e.resLos n) n ∧ Raised (e.resLos n) (Pg.POS n) Ev.RES_LOS ∧ (e.resLos n).flag (R.POS_STAT n) F.POS_STAT_VALID = false := by
  obtain ⟨hframe, hraised⟩ := e.posErr_interface hn (h.member ▸ hp) Ev.RES_LOS
  rw [Dev.resLos]
  have hrec : ∀ k, (e.posErr n Ev.RES_LOS).posS k = e.posS k := posS_of_pos (congrArg Dev.pos hframe.1 :)
  have hw : FrameOn posFree (posRegs n ++ trkRegs) e (e.posErr n Ev.RES_LOS) :=
    hframe.widen noPart_part posFree_part (fun _ _ => rfl) fun a ha => by rw [List.mem_singleton.1 ha]; exact posRegs_errcnt
  generalize e.posErr n Ev.RES_LOS = f at hrec hw hraised
  rw [Dev.posValid, posStat_interface hn]
  have hrec2 : ∀ k, (f.putB (R.POS_STAT n) F.POS_STAT_VALID false).posS k = e.posS k := fun k => (Dev.posS_put _ _ _ _ _).trans (hrec k)
  refine ⟨h.done (hw.putB posFree_part _ _ posRegs_stat) (fun k _ => hrec2 k) (by rw [hrec2]) (by rw [hrec2]), ?_,
    Dev.flag_putB_self _ _ _ _ rfl (by decide)⟩
  exact ((FrameOn.refl noPart_part [R.POS_STAT n] f).putB noPart_part _ _ (List.mem_singleton_self _)).raised noPart_part
    (by rw [List.mem_singleton]; exact pgEvtRaw_ne_posStat _ _) hraised

theorem Dev.posOfs_interface {e : Dev} (hn : n < 12) : e.posOfs n = e.get (R.POS_OFS n) F.POS_OFS_OFS := by
  rw [Dev.posOfs, Dev.posField, isShadow_lt hn, if_neg Bool.false_ne_true, posIfc_lt hn]

theorem Dev.posSpdM_interface {e : Dev} (hn : n < 12) : e.posSpdM n = max 1 (e.get (R.POS_SPD_CFG n) F.POS_SPD_CFG_SPD_M) := by
  rw [Dev.posSpdM, Dev.posField, isShadow_lt hn, if_neg Bool.false_ne_true, posIfc_lt hn]

theorem ResCounted.ofs {e : Dev} (h : ResCounted d e n) (hn : n < 12) : e.posOfs n = d.posOfs n := by
  rw [Dev.posOfs_interface hn, Dev.posOfs_interface hn]
  exact Dev.get_of_reg (h.reg (a := R.POS_OFS n) (eventReg_pos (r := 0x4C) (by decide) (by decide) hn) (by simp only [R.POS_OFS, R.POS_STAT]; omega)) _

theorem ResCounted.spdM {e : Dev} (h : ResCounted d e n) (hn : n < 12) : e.posSpdM n = d.posSpdM n := by
  rw [Dev.posSpdM_interface hn, Dev.posSpdM_interface hn,
    Dev.get_of_reg (h.reg (a := R.POS_SPD_CFG n) (eventReg_pos (r := 0x48) (by decide) (by decide) hn) (by simp only [R.POS_SPD_CFG, R.POS_STAT]; omega)) _]

/-- The angle of a vector: the count of what is left free alone may change. -/
theorem Dev.vecAngle_spec (e : Dev) (y x : Int) : ∃ k, (e.vecAngle y x).2 = { e with free := k } ∧
    (¬(y = 0 ∧ x = 0) → (e.vecAngle y x).1 = atan2Ang20 y x) := by
  by_cases h : y = 0 ∧ x = 0
  · exact ⟨e.free + 1, by rw [Dev.vecAngle, if_pos h]; rfl, fun hn => absurd h hn⟩
  · exact ⟨e.free, by rw [Dev.vecAngle, if_neg h], fun _ => by rw [Dev.vecAngle, if_neg h]⟩

/-- The registers of an interface's update are among those of its decoder. -/
theorem updRegs_pos : ∀ a ∈ updRegs n, a ∈ posRegs n ++ trkRegs := by
  intro a ha
  obtain h | h := List.mem_append.1 ha
  · refine List.mem_append_left _ ?_
    simp only [List.mem_cons, List.not_mem_nil, or_false] at h
    obtain rfl | rfl | rfl := h <;> simp [posRegs]
  · exact List.mem_append_right _ h

theorem ResCounted.out {e : Dev} (h : ResCounted d e n) (hn : n < 12) (i j : Nat) : e.resOut n i j ↔ d.resOut n i j := by
  rw [Dev.resOut, Dev.resOut, h.res0 i, h.res0 j, Dev.get_of_reg (h.amp hn), Dev.get_of_reg (h.amp hn)]

/-- A good word of a resolver. -/
theorem ResCounted.good {e : Dev} (h : ResCounted d e n) (hn : n < 12) (i j ts : Nat) :
    let y := mantW (d.reg (R.ACC_RES0 i))
    let x := mantW (d.reg (R.ACC_RES0 j))
    let f := e.resGood n i j ts
    ResDone d f n ∧ f.flag (R.POS_STAT n) F.POS_STAT_VALID = true ∧ ∃ ang : Nat, (¬(y = 0 ∧ x = 0) → ang = atan2Ang20 y x) ∧
      (f.posS n).words = ((ts, (ang + d.posOfs n) % 2 ^ 20) :: (d.posS n).words).take 256 ∧
      Delivered d f n ((ang + d.posOfs n) % 2 ^ 20) (wordSpd ((ang + d.posOfs n) % 2 ^ 20) ts (d.posSpdM n) (d.posS n).words) ts d.gtc := by
  dsimp only
  rw [Dev.resGood, h.res0 i, h.res0 j]
  generalize mantW (d.reg (R.ACC_RES0 i)) = y
  generalize mantW (d.reg (R.ACC_RES0 j)) = x
  obtain ⟨k, heq, hang⟩ := e.vecAngle_spec y x
  rw [heq]
  generalize (e.vecAngle y x).1 = ang at hang
  have hwords : (e.posS n).words = (d.posS n).words := (congrArg PosSt.words h.own :)
  have hsame : SameTracks d e := h.only.sameTracks fun a ha => by rw [List.mem_singleton.1 ha]; exact offTracks_posStat hn
  have hgtc : e.gtc = d.gtc := (congrArg Dev.gtc h.only.1 :)
  have hfree : FrameOn posFree (posRegs n ++ trkRegs) e { e with free := k } := (FrameOn.refl posFree_part _ e).part posFree_part rfl fun _ => rfl
  have hst : SameTracks e { e with free := k } := SameTracks.of_reg rfl rfl (fun _ _ => rfl) rfl rfl
  have hrec : ∀ j, ({ e with free := k } : Dev).posS j = e.posS j := fun _ => rfl
  have hofs : ({ e with free := k } : Dev).posOfs n = d.posOfs n := h.ofs hn
  have hspd : ({ e with free := k } : Dev).posSpdM n = d.posSpdM n := h.spdM hn
  have hg : ({ e with free := k } : Dev).gtc = d.gtc := hgtc
  generalize ({ e with free := k } : Dev) = u at hfree hst hrec hofs hspd hg
  rw [hofs]
  obtain ⟨gframe, goth, gown, gvalid, -, gdel⟩ := u.goodWord_spec hn ((ang + d.posOfs n) % 2 ^ 20) ts
  rw [hspd, hrec, hg, hwords] at gdel
  rw [hrec, hwords] at gown
  refine ⟨h.done (hfree.trans posFree_part (gframe.widen posPart_part posFree_part (fun _ _ => rfl) updRegs_pos)) (fun j hj =>
    (goth j hj).trans (hrec j)) (congrArg PosSt.useS gown :) (congrArg PosSt.useC gown :), gvalid, ang, hang, (congrArg PosSt.words gown :),
    (gdel.of_same hst).of_same hsame⟩

end

/-! ### The excitation (R178) -/

section
variable {d : Dev} {k : Nat}

theorem Dev.excOff_iff (d : Dev) (k : Nat) (mv : Int) : d.excOff k mv = true ↔
    (40 * (min 125 (d.get (R.EXC_AMP k) F.EXC_AMP_AMP) : Nat) : Int) <
      4 * ((mv - 40 * (min 125 (d.get (R.EXC_AMP k) F.EXC_AMP_AMP) : Nat)).natAbs : Int) := decide_eq_true_iff

theorem Dev.excFault_spec {mvs : List Int} (hk : k < 4) (hrun : (d.excPhase k d.gtc).isSome = true) (hf : d.frozen Pg.EXC = false)
    (hl : 4 ≤ mvs.length) (hoff : ∀ mv ∈ mvs.take 4, d.excOff k mv = true) :
    Quiet (d.putB (R.EXC_STAT k) F.EXC_STAT_FAULT true) (d.excFault k mvs) ∧ Raised (d.excFault k mvs) Pg.EXC Ev.EXC_FAULT := by
  have hall : (mvs.take 4).all (d.excOff k) = true := List.all_eq_true.2 hoff
  rw [Dev.excFault, if_pos ⟨hk, hrun, hl, hall, hf⟩]
  exact ⟨Dev.raiseN_quiet _ _ _ _, Dev.raiseN_raised _ _ rfl⟩

theorem Dev.excFault_same {mvs : List Int} (h : mvs.length < 4 ∨ ∃ mv ∈ mvs.take 4, d.excOff k mv ≠ true) : d.excFault k mvs = d := by
  refine if_neg fun hc => ?_
  obtain ⟨-, -, hl, hall, -⟩ := hc
  obtain h | ⟨mv, hmv, hno⟩ := h
  · omega
  · exact hno (List.all_eq_true.1 hall mv hmv)

theorem Dev.excPhase_some {phi per : Nat} (h : d.excPhase k d.gtc = some (phi, per)) : 0 < per := by
  rw [Dev.excPhase] at h
  split at h
  · split at h
    · next hc =>
      obtain ⟨rfl, rfl⟩ := Prod.mk.inj (Option.some.inj h)
      exact of_decide_eq_true (Bool.and_eq_true _ _ ▸ hc).2
    · cases h
  · cases h

/-- The newest stretch of an output's history stays when it is trimmed. -/
theorem segAt_trimSegs {now t : Nat} (s : ExcSeg) (l : List ExcSeg) (h : s.t0 ≤ t) : segAt t (trimSegs now (s :: l)) = some s := by
  rw [trimSegs]
  split <;> exact if_pos h

theorem Dev.excZero_spec {phi per : Nat} (hf : d.frozen Pg.EXC = false) (h : d.excPhase k d.gtc = some (phi, per)) :
    Frame { d with exc := (d.excZero k).exc } (d.excZero k) [] ∧ (d.excZero k).excPhase k d.gtc = some (0, per) ∧
      ∀ j, j ≠ k → (d.excZero k).excS j = d.excS j := by
  have hz : d.excZero k = d.excPush k 0 per true := by
    rw [Dev.excZero, if_neg (by rw [hf]; exact Bool.false_ne_true), h]
  rw [hz, Dev.excPush]
  generalize (d.excS k).filter (fun t => decide (t.t0 < d.gtc)) = l
  have hrec := fun j => d.excS_setExc k j (trimSegs d.gtc ({ t0 := d.gtc, phi := 0, per := per, run := true } :: l))
  refine ⟨⟨rfl, fun _ _ _ => rfl, fun _ _ _ h => h⟩, ?_, fun j hj => (hrec j).trans (if_neg hj)⟩
  have hk : (d.setExc k (trimSegs d.gtc ({ t0 := d.gtc, phi := 0, per := per, run := true } :: l))).excS k =
    trimSegs d.gtc ({ t0 := d.gtc, phi := 0, per := per, run := true } :: l) := (hrec k).trans (if_pos rfl)
  have hper : (true && decide (0 < per)) = true := by
    rw [Bool.true_and]
    exact decide_eq_true (Dev.excPhase_some h)
  have hseg := segAt_trimSegs (now := d.gtc) { t0 := d.gtc, phi := 0, per := per, run := true } l (le_refl d.gtc)
  simp only [Dev.excPhase, hk, hseg, Nat.sub_self, Nat.add_zero, Nat.zero_mod, if_pos hper]

end

/-! ### A shadow without crossings (R181) -/

theorem Dev.shdExcLoss_spec (d : Dev) {n : Nat} (hn : n < 12) (hp : n < nPos d.member) (hm : d.posMode (16 + n) = mdRES)
    (hc : (d.posS (16 + n)).crossPer ≠ 0) (hl : (d.posS (16 + n)).lost = false)
    (ht : (d.posS (16 + n)).crossAt + 2 * (d.posS (16 + n)).crossPer ≤ d.gtc + 1) :
    Frame (d.setPos (16 + n) { d.posS (16 + n) with lost := true }) (d.shdExcLoss n) [R.SHD_STAT n] ∧
    (d.shdExcLoss n).flag (R.SHD_STAT n) F.POS_STAT_VALID = false ∧ Raised (d.shdExcLoss n) (Pg.POS n) Ev.SHD_ERR := by
  have hstat : posStat (16 + n) = R.SHD_STAT n := by rw [posStat, isShadow_add, if_pos rfl, posIfc_add hn]
  rw [Dev.shdExcLoss, if_pos ⟨hm, hc, hl, ht⟩, Dev.shdLoss, Dev.posErr, isShadow_add, if_pos rfl, posIfc_add hn, Dev.posValid, hstat]
  have hmem : nPos (d.setPos (16 + n) { d.posS (16 + n) with lost := true }).member = nPos d.member := rfl
  generalize d.setPos (16 + n) { d.posS (16 + n) with lost := true } = u at hmem
  have h1 := (FrameOn.refl noPart_part [R.SHD_STAT n] u).bump noPart_part F.SHD_STAT_ERR_CNT (List.mem_singleton_self _)
  have hmem2 : (u.bump (R.SHD_STAT n) F.SHD_STAT_ERR_CNT).member = u.member := rfl
  generalize u.bump (R.SHD_STAT n) F.SHD_STAT_ERR_CNT = w at h1 hmem2
  have hraised : Raised (w.raiseN (Pg.POS n) Ev.SHD_ERR n) (Pg.POS n) Ev.SHD_ERR :=
    Dev.raiseN_raised _ _ (by rw [hmem2]; exact pagePresent_pos (hmem ▸ hp))
  have h2 := h1.quiet noPart_part (w.raiseN_quiet (Pg.POS n) Ev.SHD_ERR n)
  generalize w.raiseN (Pg.POS n) Ev.SHD_ERR n = x at hraised h2
  have hm : R.SHD_STAT n ∈ [R.SHD_STAT n] := List.mem_singleton_self _
  refine ⟨h2.putB noPart_part _ _ hm, Dev.flag_putB_self _ _ _ _ rfl (by decide), ?_⟩
  exact ((FrameOn.refl noPart_part _ x).putB noPart_part _ _ hm).raised noPart_part
    (by rw [List.mem_singleton]; simp only [R.PG_EVT_RAW, pageBase, Pg.POS, R.SHD_STAT]; omega) hraised

/-! ### UNC_CLR (R165, R186) -/

/-- The fields of POS_STAT. -/
def posStatFields : List FieldDef :=
  [⟨F.POS_STAT_VALID, .ro, 0⟩, ⟨F.POS_STAT_UNCERT, .ro, 0⟩, ⟨F.POS_STAT_STOPPED, .ro, 1⟩, ⟨F.POS_STAT_DIR, .ro, 0⟩,
   ⟨F.POS_STAT_BUSY, .ro, 0⟩, ⟨F.POS_STAT_CFG_ERR, .ro, 0⟩, ⟨F.POS_STAT_CORRECTED, .w1c, 0⟩, ⟨F.POS_STAT_IDX_SEEN, .ro, 0⟩,
   ⟨F.POS_STAT_UNC_CLR, .wo, 0⟩]

section
variable {d : Dev} {n : Nat} (hn : n < nPos d.member)
include hn

theorem placed_posStat : Placed d (R.POS_STAT n) .posB n 0x6C := by
  have h12 := hn.trans_le (nPos_le _)
  have hpage : pageOf (R.POS_STAT n) = 0x48 + n := by simp only [R.POS_STAT, pageOf]; omega
  have hinfo : ∀ p < 12, pageInfo (0x48 + p) = some (.posB, p) := by decide
  exact ⟨by rw [hpage]; exact hinfo _ h12, by simp only [R.POS_STAT, offOf]; omega, decide_eq_true hn, rfl, by omega⟩

theorem Dev.unitWrite_posStat (hlive : d.replaying = false) (mid : Nat) (w : Word) :
    d.unitWrite 12 n mid (R.POS_STAT n) w = d.posStatWrite mid n w := by
  rw [Dev.unitWrite_in d (hn.trans_le (nPos_le _)), Dev.pWrite_placed_eq (placed_posStat hn) hlive rfl]
  rfl

/-- UNC_CLR in a taken write stores nothing. -/
theorem Dev.plainWrite_uncClr {mid : Nat} (ht : d.takenAt mid (R.POS_STAT n) = true) :
    d.plainWrite mid (R.POS_STAT n) 1 = d.setReg (R.POS_STAT n) (d.reg (R.POS_STAT n)) := by
  have hin : inRegs (R.POS_STAT n) = true := by
    have h12 := hn.trans_le (nPos_le _)
    exact inRegs_iff.2 (by simp only [R.POS_STAT]; omega)
  exact Dev.plainWrite_idle (placed_posStat hn) hin (rd := ⟨0x6C, 0, 1, 0, 1, posStatFields⟩) (x := 0) (y := 0) rfl (by decide) (by decide) ht BitVec.and_zero

theorem Dev.uncClr_spec {mid : Nat} (hlive : d.replaying = false) (ht : d.takenAt mid (R.POS_STAT n) = true) :
    (d.flag (R.POS_CFG n) F.POS_CFG_IDX_EN = false → Frame d (d.unitWrite 12 n mid (R.POS_STAT n) 1) [R.POS_STAT n] ∧
      (d.unitWrite 12 n mid (R.POS_STAT n) 1).flag (R.POS_STAT n) F.POS_STAT_UNCERT = false ∧
      (d.unitWrite 12 n mid (R.POS_STAT n) 1).flag (R.POS_STAT n) F.POS_STAT_VALID = d.flag (R.POS_STAT n) F.POS_STAT_VALID) ∧
    (d.flag (R.POS_CFG n) F.POS_CFG_IDX_EN = true → Quiet d (d.unitWrite 12 n mid (R.POS_STAT n) 1)) := by
  have h12 := hn.trans_le (nPos_le _)
  rw [Dev.unitWrite_posStat hn hlive, Dev.posStatWrite, ht, Dev.plainWrite_uncClr hn ht]
  have hq : Quiet d (d.setReg (R.POS_STAT n) (d.reg (R.POS_STAT n))) := Quiet.of_regs rfl fun a => by
    rw [Dev.reg_setReg]
    split
    · next h => rw [h]
    · rfl
  have hcfg : (d.setReg (R.POS_STAT n) (d.reg (R.POS_STAT n))).flag (R.POS_CFG n) F.POS_CFG_IDX_EN = d.flag (R.POS_CFG n) F.POS_CFG_IDX_EN :=
    Dev.flag_of_reg (Dev.reg_setReg_ne _ _ (by simp only [R.POS_CFG, R.POS_STAT]; omega)) _
  have hv : (d.setReg (R.POS_STAT n) (d.reg (R.POS_STAT n))).flag (R.POS_STAT n) F.POS_STAT_VALID = d.flag (R.POS_STAT n) F.POS_STAT_VALID :=
    Dev.flag_of_reg (Dev.reg_setReg_self _ _ _) _
  rw [hcfg]
  generalize d.setReg (R.POS_STAT n) (d.reg (R.POS_STAT n)) = u at hq hv
  refine ⟨fun h => ?_, fun h => ?_⟩
  · rw [h, if_pos (by decide), Dev.posUncert, posStat_interface h12]
    exact ⟨((FrameOn.refl noPart_part [R.POS_STAT n] d).quiet noPart_part hq).putB noPart_part _ _ (List.mem_singleton_self _),
      Dev.flag_putB_self _ _ _ _ rfl (by decide), (Dev.flag_put_field _ _ _ _ (by decide)).trans hv⟩
  · rw [h, if_neg (by decide)]
    exact hq

end

/-! ### Emulation outputs (R183, R184) -/

section
variable {d : Dev} {n : Nat}

theorem Dev.emuLag_spec (d : Dev) (n : Nat) : FrameOn noPart [R.EMU_STAT n] d (d.emuLag n) ∧ (n < 4 → (d.emuLag n).emuOut n = d.emuOut n) := by
  rw [Dev.emuLag]
  split
  · exact ⟨FrameOn.refl noPart_part _ d, fun _ => rfl⟩
  · dsimp only
    generalize decide (d.get (R.EMU_EDGE n) F.EMU_EDGE_LAG_MAX < (d.emuDist n).natAbs) = lag
    generalize (lag && !d.flag (R.EMU_STAT n) F.EMU_STAT_LAGGING) = c
    have hq := (d.putB (R.EMU_STAT n) F.EMU_STAT_LAGGING lag).raiseNIf_quiet c Pg.EMU Ev.EMU_LAG n
    refine ⟨((FrameOn.refl noPart_part [R.EMU_STAT n] d).putB noPart_part _ _ (List.mem_singleton_self _)).quiet noPart_part hq, fun hn => ?_⟩
    have he : eventReg (R.EMU_STAT n) = false := by
      rw [eventReg_eq_false]
      simp only [R.EMU_STAT]
      omega
    exact (hq.get he F.EMU_STAT_OUT).trans (Dev.get_put_field _ _ _ _ _ _ (by decide))

theorem emuCpr_bounds (d : Dev) (n : Nat) : 0 < d.emuCpr n ∧ d.emuCpr n ≤ 2 ^ 18 := by
  rw [Dev.emuCpr, clampN]
  split <;> [skip; split] <;> omega

/-- The count one on towards the track's angle. -/
def Dev.emuNext (d : Dev) (n : Nat) : Nat :=
  if 0 < d.emuDist n then (d.emuOut n + 1) % d.emuCpr n else (d.emuOut n + d.emuCpr n - 1) % d.emuCpr n

theorem Dev.emuNext_lt (d : Dev) (n : Nat) : d.emuNext n < 2 ^ 18 := by
  obtain ⟨hpos, hle⟩ := emuCpr_bounds d n
  rw [Dev.emuNext]
  split <;> exact (Nat.mod_lt _ hpos).trans_le hle

theorem Dev.emuStep_eq (hr : d.emuRuns n = true) (hx : d.emuDist n ≠ 0)
    (hh : d.flag (R.EMU_CFG n) F.EMU_CFG_HOLD = false ∨ d.trkValid (d.get (R.EMU_CFG n) F.EMU_CFG_TRK) = true)
    (ht : (d.emuS n).stepAt = 0 ∨ (d.emuS n).stepAt + max 20 (d.get (R.EMU_EDGE n) F.EMU_EDGE_MIN_EDGE) ≤ d.gtc + 1) :
    d.emuStep n = ((d.setEmu n { d.emuS n with stepAt := d.gtc + 1, prev := d.emuOut n }).put (R.EMU_STAT n) F.EMU_STAT_OUT (d.emuNext n)).emuLag n := by
  refine if_pos ?_
  rw [hr, bne_iff_ne.2 hx]
  obtain h | h := hh <;> rw [h] <;> simpa using ht

theorem Dev.emuStep_spec (hr : d.emuRuns n = true) (hx : d.emuDist n ≠ 0)
    (hh : d.flag (R.EMU_CFG n) F.EMU_CFG_HOLD = false ∨ d.trkValid (d.get (R.EMU_CFG n) F.EMU_CFG_TRK) = true)
    (ht : (d.emuS n).stepAt = 0 ∨ (d.emuS n).stepAt + max 20 (d.get (R.EMU_EDGE n) F.EMU_EDGE_MIN_EDGE) ≤ d.gtc + 1) :
    Frame (d.setEmu n { d.emuS n with stepAt := d.gtc + 1, prev := d.emuOut n }) (d.emuStep n) [R.EMU_STAT n] ∧
      (d.emuStep n).emuOut n = d.emuNext n := by
  have hn : n < 4 := by
    simp only [Dev.emuRuns, Bool.and_eq_true, decide_eq_true_eq] at hr
    exact hr.1.1.1
  rw [Dev.emuStep_eq hr hx hh ht]
  generalize d.setEmu n { d.emuS n with stepAt := d.gtc + 1, prev := d.emuOut n } = u
  have h1 := (FrameOn.refl noPart_part [R.EMU_STAT n] u).put noPart_part F.EMU_STAT_OUT (d.emuNext n) (List.mem_singleton_self _)
  have ho : (u.put (R.EMU_STAT n) F.EMU_STAT_OUT (d.emuNext n)).emuOut n = d.emuNext n :=
    (Dev.get_put_self _ _ _ _ (by decide)).trans (Nat.mod_eq_of_lt (d.emuNext_lt n))
  generalize u.put (R.EMU_STAT n) F.EMU_STAT_OUT (d.emuNext n) = w at h1 ho
  obtain ⟨hframe, hout⟩ := w.emuLag_spec n
  exact ⟨h1.trans noPart_part hframe, (hout hn).trans ho⟩

end

/-- Settles O28. -/
theorem resolvers : Obligations.Resolvers := by
  refine ⟨fun s hlive => ⟨fun n hn hm => ?_, fun k mvs hk hrun hf => ⟨fun hl hoff => ?_, fun h => ?_⟩, fun k r f phi per ht hs hr4 hf hph => ?_,
    fun n hn hm hc hl ht => ?_⟩, fun s hlive => ⟨fun mid n hn ht => ?_, fun n hr hx hh ht => ?_⟩⟩
  · have hn12 := hn.trans_le (nPos_le _)
    have hrun : exec (.resolverWord n) s = .next (s.withDev (s.dev.resolverWord n)) := onLive_eq hlive (if_pos hn)
    refine ⟨fun hbad hs hc => ?_, fun h => ?_, fun hi hj he hus huc hlate => ?_⟩
    · rw [hrun, Dev.resolverWord_due hm hs hc, Dev.resBad_iff.2 hbad, if_pos rfl]
      rfl
    · rw [hrun, Dev.resolverWord_notDue h]
      rfl
    · have hsin : s.dev.resFresh (s.dev.posS n).useS (s.dev.resSin n) = true :=
        Dev.resFresh_of hus ((Nat.add_le_add_right (Nat.le_max_left _ _) 1).trans hlate)
      have hcos : s.dev.resFresh (s.dev.posS n).useC (s.dev.resCos n) = true :=
        Dev.resFresh_of huc ((Nat.add_le_add_right (Nat.le_max_right _ _) 1).trans hlate)
      rw [Dev.resolverWord_due hm hsin hcos, Dev.resBad_false hi hj he, if_neg Bool.false_ne_true] at hrun
      have hcount := s.dev.resJudged_spec n false
      generalize s.dev.resJudged n false = e at hrun hcount
      refine ⟨fun hmis => ?_, fun hat hopen => ⟨fun hlos => ?_, fun hls hlc hin => ?_⟩⟩
      · rw [Dev.resWordOn_mismatch hmis] at hrun
        exact ⟨_, hrun, hcount.mismatch hn12 hn⟩
      · have hlos' : e.accLos (s.dev.resSin n) = true ∨ e.accLos (s.dev.resCos n) = true ∨ e.resOut n (s.dev.resSin n) (s.dev.resCos n) := by
          rw [hcount.accLos (a := s.dev.resSin n) hi, hcount.accLos (a := s.dev.resCos n) hj, hcount.out hn12]
          exact hlos
        rw [Dev.resWordOn_los hat hopen hlos'] at hrun
        exact ⟨_, hrun, hcount.los hn12 hn⟩
      · rw [Dev.resWordOn_good hat hopen ((hcount.accLos hi).trans hls) ((hcount.accLos hj).trans hlc) (by
          rw [hcount.out hn12]
          exact hin)] at hrun
        exact ⟨_, hrun, hcount.good hn12 _ _ _⟩
  · exact ⟨_, onLive_eq hlive rfl, Dev.excFault_spec hk hrun hf hl fun mv hmv => (s.dev.excOff_iff k mv).2 (hoff mv hmv)⟩
  · refine onLive_same hlive (Dev.excFault_same (h.imp_right fun h => ?_))
    obtain ⟨mv, hmv, hno⟩ := h
    exact ⟨mv, hmv, fun hy => hno ((s.dev.excOff_iff k mv).1 hy)⟩
  · exact ⟨_, onLive_eq hlive (Dev.runAction_one ht hs hr4 rfl), Dev.excZero_spec hf hph⟩
  · exact ⟨_, onLive_eq hlive (if_pos hn), s.dev.shdExcLoss_spec (hn.trans_le (nPos_le _)) hn hm hc hl ht⟩
  · obtain ⟨hclear, hstands⟩ := Dev.uncClr_spec hn hlive.2 ht
    exact ⟨fun h => ⟨_, onDev_eq hlive.1 rfl, hclear h⟩, fun h => ⟨_, onDev_eq hlive.1 rfl, hstands h⟩⟩
  · exact ⟨_, onLive_eq hlive rfl, Dev.emuStep_spec hr hx hh ht⟩

end Sys2Proof.Machine
end

section
/-! PROOFS. What releases of legs leave as it stands: groups, legs and status fields (R309, R310). -/

namespace Sys2Proof.Machine

/-! ### What a release touches -/

/-- A group's record but for its legs, its edges and the mark of an ASC. -/
def GrpSt.rest (r : GrpSt) : GrpSt := { r with legs := [], edges := [], asc := false }

/-- A leg's record but for the ticks of its release and of its latest cause. -/
def LegSt.rest (q : LegSt) : LegSt := { q with relAt := 0, causeAt := 0 }

/-- A field of a group's status word apart from releases, causes and the group action. -/
def offRel (f : RField) : Prop :=
  f.lo + fieldWidth f ≤ 31 ∧ ∀ x < 3, (F.GDT_LSTAT_REL x).lo + 1 ≤ f.lo ∨
    (f.lo + fieldWidth f ≤ (F.GDT_LSTAT_REL x).lo ∧ (f.lo + fieldWidth f ≤ 8 * x ∨ 8 * x + 4 ≤ f.lo))

/-- From one device to another the groups stand but for releases; legs outside a set stand whole. -/
structure RelKept (set : Nat → Nat → Prop) (d e : Dev) : Prop where
  grp : ∀ j, (e.grpS j).rest = (d.grpS j).rest
  leg : ∀ j y, (e.legS j y).rest = (d.legS j y).rest
  same : ∀ j y, ¬set j y → e.legS j y = d.legS j y
  field : ∀ j < 20, ∀ f, offRel f → e.get (gdLstat j) f = d.get (gdLstat j) f

section
variable {set : Nat → Nat → Prop} {d e f : Dev} {g x : Nat}

theorem RelKept.refl (set : Nat → Nat → Prop) (d : Dev) : RelKept set d d :=
  ⟨fun _ => rfl, fun _ _ => rfl, fun _ _ _ => rfl, fun _ _ _ _ => rfl⟩

theorem RelKept.trans (h : RelKept set d e) (k : RelKept set e f) : RelKept set d f :=
  ⟨fun j => (k.grp j).trans (h.grp j), fun j y => (k.leg j y).trans (h.leg j y), fun j y hn => (k.same j y hn).trans (h.same j y hn),
    fun j hj f hf => (k.field j hj f hf).trans (h.field j hj f hf)⟩

theorem RelKept.mono {set' : Nat → Nat → Prop} (h : RelKept set d e) (hs : ∀ j y, set j y → set' j y) : RelKept set' d e :=
  ⟨h.grp, h.leg, fun j y hn => h.same j y fun hm => hn (hs j y hm), h.field⟩

theorem RelKept.of_regs (hgrp : e.grp = d.grp) (hr : ∀ j < 20, ∀ f, offRel f → e.get (gdLstat j) f = d.get (gdLstat j) f) : RelKept set d e := by
  have hg : ∀ j, e.grpS j = d.grpS j := fun j => by rw [Dev.grpS, Dev.grpS, hgrp]
  have hl : ∀ j y, e.legS j y = d.legS j y := fun j y => by rw [Dev.legS, Dev.legS, hg]
  exact ⟨fun j => by rw [hg], fun j y => by rw [hl], fun j y _ => hl j y, hr⟩

theorem RelKept.of_quiet (h : Quiet d e) : RelKept set d e := .of_regs h.grp fun _ hj _ _ => h.get (eventReg_gdLstat hj) _

theorem RelKept.setReg (d : Dev) {a : Nat} (w : Word) (ha : ∀ j < 20, gdLstat j ≠ a) : RelKept set d (d.setReg a w) :=
  .of_regs rfl fun j hj _ _ => Dev.get_of_reg (d.reg_setReg_ne w (ha j hj)) _

/-- A field of a status word written that belongs to releases. -/
theorem RelKept.put (d : Dev) (g : Nat) (f : RField) (v : Nat)
    (hf : ∀ k, offRel k → f.lo + fieldWidth f ≤ k.lo ∨ k.lo + fieldWidth k ≤ f.lo) : RelKept set d (d.put (gdLstat g) f v) := by
  refine .of_regs rfl fun _ _ k hk => ?_
  exact Dev.get_put_field _ _ _ _ _ _ (hf k hk)

theorem offRel.rel {k : RField} (h : offRel k) (hx : x < 3) :
    (F.GDT_LSTAT_REL x).lo + fieldWidth (F.GDT_LSTAT_REL x) ≤ k.lo ∨ k.lo + fieldWidth k ≤ (F.GDT_LSTAT_REL x).lo := by
  have hk := h.2 x hx
  simp only [F.GDT_LSTAT_REL, fieldWidth] at hk ⊢
  omega

theorem offRel.cause {k : RField} (h : offRel k) (hx : x < 3) :
    (F.GDT_LSTAT_CAUSE x).lo + fieldWidth (F.GDT_LSTAT_CAUSE x) ≤ k.lo ∨ k.lo + fieldWidth k ≤ (F.GDT_LSTAT_CAUSE x).lo := by
  have hk := h.2 x hx
  simp only [F.GDT_LSTAT_REL, F.GDT_LSTAT_CAUSE, fieldWidth] at hk ⊢
  omega

theorem offRel.gact {k : RField} (h : offRel k) :
    F.GDT_LSTAT_GACT.lo + fieldWidth F.GDT_LSTAT_GACT ≤ k.lo ∨ k.lo + fieldWidth k ≤ F.GDT_LSTAT_GACT.lo := .inr h.1

theorem offRel_clrFail (hx : x < 3) : offRel (F.GDT_LSTAT_CLR_FAIL x) := by
  refine ⟨?_, fun y hy => ?_⟩ <;> simp only [F.GDT_LSTAT_CLR_FAIL, F.GDT_LSTAT_REL, fieldWidth] <;> omega

theorem offRel_uv (hx : x < 3) : offRel (F.GDA_LSTAT_UV x) := by
  refine ⟨?_, fun y hy => ?_⟩ <;> simp only [F.GDA_LSTAT_UV, F.GDT_LSTAT_REL, fieldWidth] <;> omega

theorem offRel_rfCnt (hx : x < 3) : offRel (F.rfCnt x) := by
  refine ⟨?_, fun y hy => ?_⟩ <;> simp only [F.rfCnt, F.GDT_LSTAT_REL, fieldWidth] <;> omega

theorem RelKept.setGrp (d : Dev) (g : Nat) (v : GrpSt) (hr : v.rest = (d.grpS g).rest) (hl : v.legs = (d.grpS g).legs) :
    RelKept set d (d.setGrp g v) := by
  have hg := fun j => d.grpS_setGrp g j v
  have hleg : ∀ j y, (d.setGrp g v).legS j y = d.legS j y := fun j y => by
    rw [Dev.legS, hg, Dev.legS]
    split
    · next h => rw [h, hl]
    · rfl
  refine ⟨fun j => ?_, fun j y => by rw [hleg], fun j y _ => hleg j y, fun _ _ _ _ => rfl⟩
  rw [hg]
  split
  · next h => rw [h, hr]
  · rfl

theorem RelKept.setEdges (d : Dev) (g : Nat) (es : List EdgeSt) : RelKept set d (d.setEdges g es) := .setGrp d g _ rfl rfl

/-- A leg's ticks written. -/
theorem RelKept.setLeg (d : Dev) (q : LegSt) (hq : q.rest = (d.legS g x).rest) (hs : set g x) : RelKept set d (d.setLeg g x q) := by
  refine ⟨fun j => ?_, fun j y => ?_, fun j y hn => ?_, fun _ _ _ _ => rfl⟩
  · rw [Dev.setLeg, Dev.grpS_setGrp]
    split
    · next h => rw [h]; rfl
    · rfl
  · rw [Dev.legS_setLeg]
    split
    · next h => rw [hq, h.1, h.2]
    · rfl
  · rw [Dev.legS_setLeg]
    split
    · next h => exact absurd (by rw [h.1, h.2]; exact hs) hn
    · rfl

theorem RelKept.bump (d : Dev) (hg : g < 20) (f : RField) : RelKept set d (d.bump (relCnt g).1 f) := .setReg d _ fun _ hj => relCnt_ne_lstat hg hj

theorem RelKept.unbump (d : Dev) (hg : g < 20) (f : RField) : RelKept set d (d.unbump (relCnt g).1 f) := by
  rw [Dev.unbump]
  split
  · exact .refl _ d
  · exact .setReg d _ fun _ hj => relCnt_ne_lstat hg hj

theorem gdFlag_ne_lstat {a : Nat} (ha : a = R.GDT_FLAG ∨ a = R.GDA_FLAG) : ∀ j < 20, gdLstat j ≠ a := by
  intro j hj
  simp only [gdLstat, R.GDT_LSTAT, R.GDA_LSTAT, R.GDT_FLAG, R.GDA_FLAG] at ha ⊢
  split <;> omega

theorem RelKept.gdEvent (d : Dev) (g src : Nat) : RelKept set d (d.gdEvent g src) := by
  rw [Dev.gdEvent]
  refine RelKept.trans ?_ (.of_quiet (Dev.raiseN_quiet _ _ _ _))
  split
  · exact .setReg d _ (gdFlag_ne_lstat (.inl rfl))
  · exact .setReg d _ (gdFlag_ne_lstat (.inr rfl))

/-! ### Releases -/

variable {cause : Nat}

theorem Dev.recause_kept (d : Dev) (hg : g < 20) (hx : x < 3) : RelKept set d (d.recause g x cause) := by
  rw [Dev.recause]
  refine RelKept.trans (RelKept.trans ?_ (.of_quiet (Dev.recAmend_quiet _ _))) (.put _ g _ _ fun _ hk => hk.cause hx)
  split
  · exact .unbump d hg _
  · split
    · exact .bump d hg _
    · exact .refl _ d

theorem Dev.legMarked_kept (d : Dev) (hx : x < 3) (hs : set g x) : RelKept set d (d.legMarked g x cause) :=
  ((RelKept.put d g _ _ fun _ hk => hk.rel hx).trans (.put _ g _ _ fun _ hk => hk.cause hx)).trans (.setLeg _ _ rfl hs)

theorem Dev.legTold_kept (d : Dev) (hg : g < 20) (x cause : Nat) : RelKept set d (d.legTold g x cause) := by
  have hrel : RelKept set d (if g < 12 then d.bump (R.GDT_CNT g) F.GDT_CNT_REL_CNT else d.bump (R.GDA_CNT (g - 12)) F.GDA_CNT_REL_CNT) := by
    have hcnt := fun f => RelKept.bump (set := set) d hg f
    rw [relCnt] at hcnt
    split
    · next h => simpa only [h, if_true] using hcnt _
    · next h => simpa only [h, if_false] using hcnt _
  have hsup : ∀ e : Dev, RelKept set e (if relCounts g cause then e.bump (relCnt g).1 (relCnt g).2 else e) := fun e => by
    split
    · exact .bump e hg _
    · exact .refl _ e
  exact RelKept.trans (RelKept.trans (hrel.trans (hsup _)) (.of_quiet (Dev.emitProt_quiet _ _))) (.gdEvent _ _ _)

theorem Dev.relLeg_kept (d : Dev) (hg : g < 20) (hx : x < 3) (hs : set g x) : RelKept set d (d.relLeg g x cause) := by
  have hn : RelKept set d (d.legNoted g x) := .setLeg d _ rfl hs
  rw [Dev.relLeg_eq]
  generalize d.legNoted g x = e at hn ⊢
  split
  · split
    · exact hn.trans (e.recause_kept hg hx)
    · exact hn
  · exact (hn.trans (e.legMarked_kept hx hs)).trans (Dev.legTold_kept _ hg x cause)

theorem Dev.relMask_kept (d : Dev) (hg : g < 20) (mask cause : Nat) (hs : ∀ x < 3, mask / 2 ^ x % 2 = 1 → set g x) :
    RelKept set d (d.relMask g mask cause) := by
  refine forN_keeps (P := RelKept set d) 3 (fun x hx e he => ?_) (.refl _ d)
  split
  · next hm => exact he.trans (e.relLeg_kept hg hx (hs x hx hm))
  · exact he

theorem Dev.actShown_kept (d : Dev) (h : Nat) : RelKept set d (d.actShown h) :=
  (RelKept.put d h _ _ fun _ hk => hk.gact).trans (.gdEvent _ _ _)

theorem Dev.ascLeg_kept (d : Dev) (g x : Nat) : RelKept set d (d.ascLeg g x) := by
  rw [Dev.ascLeg]
  split
  · exact .refl _ d
  · exact .setEdges d g _

/-- Any leg. -/
def anyLeg (_ _ : Nat) : Prop := True

theorem Dev.groupAction_kept (d : Dev) (hg : g < 20) (act : Nat) : RelKept anyLeg d (d.groupAction g act) := by
  have hshown : RelKept anyLeg d (d.actShown g) := d.actShown_kept g
  have hall : RelKept anyLeg d ((d.actShown g).relMask g 7 9) := hshown.trans (Dev.relMask_kept _ hg 7 9 fun _ _ _ => trivial)
  rw [Dev.groupAction]
  split
  · refine forN_keeps (P := RelKept anyLeg d) 3 (fun x _ f hf => hf.trans (f.ascLeg_kept g x)) ?_
    exact hshown.trans (.setGrp _ g _ rfl rfl)
  · split
    · exact hall
    · split
      · dsimp only
        split
        · next p hp =>
          have hp20 : p < 20 := by
            obtain ⟨hg12, hpair⟩ := Dev.pairIs_of_pairOf hp
            rw [pairIs] at hpair
            omega
          refine RelKept.trans ?_ (Dev.relMask_kept _ hp20 7 9 fun _ _ _ => trivial)
          split
          · exact hall
          · exact hall.trans (Dev.actShown_kept _ p)
        · exact hall
      · exact .refl _ d

/-- What a release leaves as it stands. -/
theorem Dev.release_kept (d : Dev) (hg : g < 20) (mask cause : Nat) : RelKept anyLeg d (d.release g mask cause) := by
  have hm : RelKept anyLeg d (d.relMask g mask cause) := d.relMask_kept hg mask cause fun _ _ _ => trivial
  rw [Dev.release]
  split
  · exact hm.trans (Dev.groupAction_kept _ hg _)
  · exact hm

end

/-! ### A release told as an event of its group -/

theorem gdPage_present {m : Member} {g : Nat} : pagePresent m (gdPage g) = true := by
  rw [gdPage]
  split <;> rfl

theorem Dev.gdEvent_raised (d : Dev) (g src : Nat) : Raised (d.gdEvent g src) (gdPage g) src := by
  rw [Dev.gdEvent]
  exact Dev.raiseN_raised _ _ gdPage_present

/-- The registers of a release are among those of the statement. -/
theorem gdRegs_rel {g : Nat} : ∀ a ∈ gdRegs g, a ∈ relRegs g := by
  intro a ha
  simp only [gdRegs, List.mem_cons, List.not_mem_nil, or_false] at ha
  simp only [relRegs, List.mem_append, List.flatMap_cons, List.mem_cons, List.not_mem_nil, or_false, relCnt] at ha ⊢
  obtain h | h | h := ha
  · obtain hf | hf := gdFlag_or g <;> rw [hf] at h <;> tauto
  · tauto
  · refine .inr (.inl (.inr ?_))
    rw [h]
    split <;> rfl

theorem gdRegs_relPair {g h : Nat} (hp : pairIs g h) : ∀ a ∈ gdRegs h, a ∈ relRegs g := by
  intro a ha
  have hr : a ∈ relRegs g ↔ a ∈ [R.GDT_FLAG, R.GDA_FLAG] ∨ ∃ k ∈ [g, g + 1, g - 1], a ∈ [gdLstat k, if k < 12 then R.GDT_CNT k else R.GDA_CNT (k - 12)] := by
    rw [relRegs, List.mem_append, List.mem_flatMap]
  rw [hr]
  have hk : h ∈ [g, g + 1, g - 1] := by
    obtain h | h := hp <;> simp [h]
  simp only [gdRegs, List.mem_cons, List.not_mem_nil, or_false, relCnt] at ha
  obtain h | h | h := ha
  · exact .inl (by simpa [h] using gdFlag_or _)
  · exact .inr ⟨_, hk, by simp [h]⟩
  · refine .inr ⟨_, hk, ?_⟩
    rw [h]
    split <;> simp

/-- A release within the registers of its statement. -/
theorem Dev.release_rel (d : Dev) (g mask cause : Nat) {l : List Nat} (hl : ∀ a ∈ relRegs g, a ∈ l) :
    FrameOn grpPart l d (d.release g mask cause) :=
  d.release_frame (fun a ha => hl a (gdRegs_rel a ha)) mask cause fun _ _ hp a ha => hl a (gdRegs_relPair hp a ha)

theorem mem_relRegs {g a : Nat} (h : a ∈ relRegs g) : a = R.GDT_FLAG ∨ a = R.GDA_FLAG ∨
    ∃ k ≤ g + 1, a = gdLstat k ∨ (k < 12 ∧ a = R.GDT_CNT k) ∨ (12 ≤ k ∧ a = R.GDA_CNT (k - 12)) := by
  rw [relRegs, List.mem_append, List.mem_flatMap] at h
  obtain h | ⟨k, hk, h⟩ := h
  · simp only [List.mem_cons, List.not_mem_nil, or_false] at h
    tauto
  · have hle : k ≤ g + 1 := by
      simp only [List.mem_cons, List.not_mem_nil, or_false] at hk
      omega
    refine .inr (.inr ⟨k, hle, ?_⟩)
    simp only [List.mem_cons, List.not_mem_nil, or_false] at h
    obtain h | h := h
    · exact .inl h
    · split at h
      · next hlt => exact .inr (.inl ⟨hlt, h⟩)
      · next hge => exact .inr (.inr ⟨Nat.not_lt.1 hge, h⟩)

/-- Where the registers of a release lie: the flags, and status words and counters of groups. -/
theorem relRegs_place {g a : Nat} (hg : g < 20) (h : a ∈ relRegs g) : a = 0x40098040 ∨ a = 0x40099040 ∨
    (0x40098108 ≤ a ∧ a ≤ 0x40099228 ∧ (a % 0x20 = 8 ∨ a % 0x20 = 0x14 ∨ 0x40099200 ≤ a)) := by
  obtain h | h | ⟨k, hk, h | ⟨hlt, h⟩ | ⟨hge, h⟩⟩ := mem_relRegs h
  · exact .inl h
  · exact .inr (.inl h)
  · rw [gdLstat] at h
    split at h <;> simp only [R.GDT_LSTAT, R.GDA_LSTAT] at h <;> omega
  · simp only [R.GDT_CNT] at h
    omega
  · simp only [R.GDA_CNT] at h
    omega

section
variable {g : Nat} (hg : g < 20)
include hg

theorem gdaStat_not_rel : R.GDA_STAT ∉ relRegs g := fun h => by
  have hp := relRegs_place hg h
  simp only [R.GDA_STAT] at hp
  omega

theorem gdtPins_not_rel {k : Nat} (hk : k < 12) : R.GDT_PINS k ∉ relRegs g := fun h => by
  have hp := relRegs_place hg h
  simp only [R.GDT_PINS] at hp
  omega

theorem pgEvtRaw_not_rel (page : Nat) : R.PG_EVT_RAW page ∉ relRegs g := fun h => by
  have hp := relRegs_place hg h
  simp only [R.PG_EVT_RAW, pageBase] at hp
  omega

end

end Sys2Proof.Machine
end

section
/-! PROOFS. Releases and clears of legs (R304, R306, R307, R309, R311, R315). -/

namespace Sys2Proof.Machine

section
variable {d e : Dev} {g x mask cause src : Nat}

/-! ### A release with its event -/

theorem Released.of_alike {f : Dev} (k : LegsAlike d e) (hg : g < 20) (h : Released e f g mask cause) : Released d f g mask cause := by
  intro y hy hm
  obtain ⟨hrel, hc⟩ := h y hy hm
  exact ⟨hrel, fun hd => hc ((k.2 g hg y hy).1.trans hd)⟩

theorem Released.alike {f : Dev} (h : Released d e g mask cause) (hg : g < 20) (k : LegsAlike e f) : Released d f g mask cause := by
  intro y hy hm
  obtain ⟨hrel, hc⟩ := h y hy hm
  obtain ⟨kr, kc, -⟩ := k.2 g hg y hy
  exact ⟨kr.trans hrel, fun hd => kc.trans (hc hd)⟩

/-- A release of legs, told as an event of the group. -/
theorem Dev.releaseEvent_spec (d : Dev) (hg : g < 20) (mask src : Nat) (hc : cause < 16) :
    FrameOn grpPart (relRegs g) d ((d.release g mask cause).gdEvent g src) ∧ Released d ((d.release g mask cause).gdEvent g src) g mask cause ∧
      RelKept anyLeg d ((d.release g mask cause).gdEvent g src) ∧ Raised ((d.release g mask cause).gdEvent g src) (gdPage g) src :=
  ⟨FrameOn.gdEvent grpPart_part (d.release_rel g mask cause fun _ ha => ha) gdRegs_rel src,
    (d.release_released hg mask hc).alike hg (.gdEvent _ g src), (d.release_kept hg mask cause).trans (.gdEvent _ g src),
    Dev.gdEvent_raised _ g src⟩

/-! ### Inputs of a group -/

theorem Dev.pins_alike (d : Dev) (g : Nat) (w : Word) : LegsAlike d (d.setReg (R.GDT_PINS g) w) := by
  refine .setReg d w fun k hk => ?_
  simp only [gdLstat, R.GDT_LSTAT, R.GDA_LSTAT, R.GDT_PINS]
  split <;> omega

theorem eventReg_gdtPins (h : g < 12) : eventReg (R.GDT_PINS g) = false := by
  rw [eventReg_eq_false]
  simp only [R.GDT_PINS]
  omega

theorem Dev.legFlt_active (hg : g < 12) (hp : groupPresent d.member g = true) (hx : x < 3) :
    FrameOn grpPart (R.GDT_PINS g :: relRegs g) d (d.legFlt g x true) ∧ bitOf ((d.legFlt g x true).reg (R.GDT_PINS g)) (24 + x) = true ∧
      Released d (d.legFlt g x true) g (2 ^ x) 2 ∧ Raised (d.legFlt g x true) Pg.GDT Ev.LEG_FLT := by
  have hg20 : g < 20 := hg.trans (by decide)
  have heq : d.legFlt g x true = ((d.setReg (R.GDT_PINS g) (setBit (d.reg (R.GDT_PINS g)) (24 + x) true)).release g (2 ^ x) 2).gdEvent g Ev.LEG_FLT := by
    rw [Dev.legFlt, if_neg (by simp [hg, hp, hx])]
    rfl
  have hset := (FrameOn.refl grpPart_part (R.GDT_PINS g :: relRegs g) d).setReg grpPart_part (a := R.GDT_PINS g)
    (setBit (d.reg (R.GDT_PINS g)) (24 + x) true) List.mem_cons_self
  have halike := d.pins_alike g (setBit (d.reg (R.GDT_PINS g)) (24 + x) true)
  have hbit : bitOf ((d.setReg (R.GDT_PINS g) (setBit (d.reg (R.GDT_PINS g)) (24 + x) true)).reg (R.GDT_PINS g)) (24 + x) = true := by
    rw [Dev.reg_setReg_self, setBit, if_pos rfl]
    rw [bitOf_or, bitOf_bitWord _ (by omega), Bool.or_true]
  rw [heq]
  generalize d.setReg (R.GDT_PINS g) (setBit (d.reg (R.GDT_PINS g)) (24 + x) true) = u at hset halike hbit
  obtain ⟨hframe, hrel, -, hraised⟩ := u.releaseEvent_spec hg20 (2 ^ x) Ev.LEG_FLT (cause := 2) (by decide)
  have hpins := hframe.reg grpPart_part (eventReg_gdtPins hg) (gdtPins_not_rel hg20 hg)
  rw [gdPage, if_pos hg] at hraised
  exact ⟨hset.trans grpPart_part (hframe.mono fun a ha => List.mem_cons_of_mem _ ha), by rw [hpins]; exact hbit, hrel.of_alike halike hg20, hraised⟩

theorem Dev.legFlt_inactive (hg : g < 12) (hp : groupPresent d.member g = true) (hx : x < 3) :
    d.legFlt g x false = d.setReg (R.GDT_PINS g) (d.reg (R.GDT_PINS g) &&& ~~~ bitWord (24 + x)) := by
  rw [Dev.legFlt, if_neg (by simp [hg, hp, hx])]
  rfl

end

/-! ### LCMD (R309, R311) -/

theorem traction_of_present {m : Member} {g : Nat} (h : groupPresent m g = true) (hg : g < 12) : g < nTraction m := by
  simp only [groupPresent, Bool.or_eq_true, Bool.and_eq_true, decide_eq_true_eq] at h
  omega

theorem aux_of_present {m : Member} {g : Nat} (h : groupPresent m g = true) (hg : 12 ≤ g) : g - 12 < nAux m := by
  have ht : nTraction m ≤ 12 := by cases m <;> decide
  simp only [groupPresent, Bool.or_eq_true, Bool.and_eq_true, decide_eq_true_eq] at h
  omega

/-- The fields of LCMD. -/
def lcmdFields : List FieldDef := [⟨F.GDT_LCMD_CLR, .wo, 0⟩, ⟨F.GDT_LCMD_REL, .wo, 0⟩]

theorem regAt_gdtLcmd : ∀ g < 12, regAt .gdtB (0x10C + 0x20 * g) = some (⟨0x10C, 0x20, 12, 0, 1, lcmdFields⟩, g, 0) := by decide
theorem regAt_gdaLcmd : ∀ n < 8, regAt .gdaB (0x10C + 0x20 * n) = some (⟨0x10C, 0x20, 8, 0, 1, lcmdFields⟩, n, 0) := by decide

section
variable {d : Dev} {g : Nat}

theorem placed_gdtLcmd (hg : g < nTraction d.member) : Placed d (R.GDT_LCMD g) .gdtB 0 (0x10C + 0x20 * g) := by
  have h12 : g < 12 := hg.trans_le (by cases d.member <;> decide)
  have hpage : pageOf (R.GDT_LCMD g) = 0x98 := by simp only [R.GDT_LCMD, pageOf]; omega
  refine ⟨by rw [hpage]; rfl, by simp only [R.GDT_LCMD, offOf]; omega, rfl, ?_, by omega⟩
  simp only [absentReg, Bool.and_eq_false_iff, decide_eq_false_iff_not]
  omega

theorem placed_gdaLcmd (hg : g < nAux d.member) : Placed d (R.GDA_LCMD g) .gdaB 0 (0x10C + 0x20 * g) := by
  have h8 : g < 8 := hg.trans_le (by cases d.member <;> decide)
  have hpage : pageOf (R.GDA_LCMD g) = 0x99 := by simp only [R.GDA_LCMD, pageOf]; omega
  refine ⟨by rw [hpage]; rfl, by simp only [R.GDA_LCMD, offOf]; omega, rfl, ?_, by omega⟩
  simp only [absentReg, Bool.or_eq_false_iff, Bool.and_eq_false_iff, decide_eq_false_iff_not]
  omega

variable (hp : groupPresent d.member g = true) (hg : g < 20)
include hp hg

theorem Dev.unitWrite_lcmd (hlive : d.replaying = false) (mid : Nat) (w : Word) :
    d.unitWrite 20 g mid (gdLcmd g) w = d.lcmdWrite mid g w := by
  rw [Dev.unitWrite_in d hg]
  by_cases h : g < 12
  · rw [gdLcmd, if_pos h, Dev.pWrite_placed_eq (placed_gdtLcmd (traction_of_present hp h)) hlive rfl]
    have hdiv : (0x10C + 0x20 * g - 0x100) / 0x20 = g := by omega
    have hmod : (0x10C + 0x20 * g - 0x100) % 0x20 = 0xC := by omega
    have hroute : d.routeWrite mid .gdtB 0 (0x10C + 0x20 * g) (R.GDT_LCMD g) w = d.gdtPageWrite mid (0x10C + 0x20 * g) (R.GDT_LCMD g) w := rfl
    rw [hroute, Dev.gdtPageWrite, if_neg (by omega), hdiv, hmod, if_neg (by decide), if_neg (by decide), if_pos rfl]
  · have hn := aux_of_present hp (Nat.not_lt.1 h)
    rw [gdLcmd, if_neg h, Dev.pWrite_placed_eq (placed_gdaLcmd hn) hlive rfl]
    have hdiv : (0x10C + 0x20 * (g - 12) - 0x100) / 0x20 = g - 12 := by omega
    have hmod : (0x10C + 0x20 * (g - 12) - 0x100) % 0x20 = 0xC := by omega
    have hroute : d.routeWrite mid .gdaB 0 (0x10C + 0x20 * (g - 12)) (R.GDA_LCMD (g - 12)) w =
      d.gdaPageWrite mid (0x10C + 0x20 * (g - 12)) (R.GDA_LCMD (g - 12)) w := rfl
    rw [hroute, Dev.gdaPageWrite, if_neg (by omega), hdiv, hmod, if_neg (by decide), if_neg (by decide), if_pos rfl, Nat.add_sub_cancel' (by omega)]

/-- Commands in a taken write store nothing. -/
theorem Dev.plainWrite_lcmd {mid : Nat} (ht : d.takenAt mid (gdLcmd g) = true) (w : Word) :
    d.plainWrite mid (gdLcmd g) w = d.setReg (gdLcmd g) (d.reg (gdLcmd g)) := by
  have hidle : ∀ fd ∈ lcmdFields, idleFor w fd = true := by
    intro fd hfd
    simp only [lcmdFields, List.mem_cons, List.not_mem_nil, or_false] at hfd
    obtain rfl | rfl := hfd <;> simp [idleFor]
  by_cases h : g < 12
  · have ht12 := traction_of_present hp h
    rw [gdLcmd, if_pos h] at ht ⊢
    refine Dev.plainWrite_idle (placed_gdtLcmd ht12) (inRegs_iff.2 (by simp only [R.GDT_LCMD]; omega)) (regAt_gdtLcmd g h) hidle (fun _ _ => rfl) ht ?_
    simp only [absentBits]
    rw [if_neg (by omega)]
    exact BitVec.and_zero
  · have hn := aux_of_present hp (Nat.not_lt.1 h)
    rw [gdLcmd, if_neg h] at ht ⊢
    refine Dev.plainWrite_idle (placed_gdaLcmd hn) (inRegs_iff.2 (by simp only [R.GDA_LCMD]; omega)) (regAt_gdaLcmd _ (by omega)) hidle
      (fun _ _ => rfl) ht ?_
    simp only [absentBits]
    rw [if_neg (by omega), if_neg (by omega)]
    exact BitVec.and_zero

/-- A taken write of LCMD: soft releases, then clears, on a device that stands as it was. -/
theorem Dev.unitWrite_lcmd_taken (hlive : d.replaying = false) {mid : Nat} (ht : d.takenAt mid (gdLcmd g) = true) (w : Word) :
    d.unitWrite 20 g mid (gdLcmd g) w =
      ((d.setReg (gdLcmd g) (d.reg (gdLcmd g))).relMask g (getF w F.GDT_LCMD_REL) 0xA).clearMask g (getF w F.GDT_LCMD_CLR) := by
  rw [Dev.unitWrite_lcmd hp hg hlive, Dev.lcmdWrite, Dev.plainWrite_lcmd hp hg ht]
  exact if_pos ht

omit hp hg in
/-- A register written with what it holds. -/
theorem Dev.setReg_own_quiet (d : Dev) (a : Nat) : Quiet d (d.setReg a (d.reg a)) := Quiet.of_regs rfl fun b => by
  rw [Dev.reg_setReg]
  split
  · next h => rw [h]
  · rfl

end

/-! ### One leg of a group while others are cleared -/

/-- A leg stands: its release and cause, the other fields of its byte of the status word, its record. -/
structure LegStands (d e : Dev) (g x : Nat) : Prop where
  rel : e.legReleased g x = d.legReleased g x
  cause : e.legCause g x = d.legCause g x
  fail : e.flag (gdLstat g) (F.GDT_LSTAT_CLR_FAIL x) = d.flag (gdLstat g) (F.GDT_LSTAT_CLR_FAIL x)
  low : e.flag (gdLstat g) (F.GDA_LSTAT_UV x) = d.flag (gdLstat g) (F.GDA_LSTAT_UV x)
  leg : e.legS g x = d.legS g x

section
variable {d e f : Dev} {g x y : Nat}

theorem LegStands.refl (d : Dev) (g x : Nat) : LegStands d d g x := ⟨rfl, rfl, rfl, rfl, rfl⟩

theorem LegStands.trans (h : LegStands d e g x) (k : LegStands e f g x) : LegStands d f g x :=
  ⟨k.rel.trans h.rel, k.cause.trans h.cause, k.fail.trans h.fail, k.low.trans h.low, k.leg.trans h.leg⟩

theorem LegStands.of_reg (hr : e.reg (gdLstat g) = d.reg (gdLstat g)) (hl : e.legS g x = d.legS g x) : LegStands d e g x :=
  ⟨Dev.flag_of_reg hr _, Dev.get_of_reg hr _, Dev.flag_of_reg hr _, Dev.flag_of_reg hr _, hl⟩

theorem LegStands.of_quiet (hg : g < 20) (h : Quiet d e) : LegStands d e g x :=
  .of_reg (h.reg (eventReg_gdLstat hg)) (by rw [Dev.legS, Dev.legS, Dev.grpS, Dev.grpS, h.grp])

theorem LegStands.setGrp (d : Dev) (v : GrpSt) (hv : v.legs = (d.grpS g).legs) : LegStands d (d.setGrp g v) g x := by
  refine .of_reg (Dev.reg_setGrp _ _ _ _) ?_
  rw [Dev.legS, Dev.grpS_setGrp, if_pos rfl, Dev.legS, hv]

theorem LegStands.setEdges (d : Dev) (es : List EdgeSt) : LegStands d (d.setEdges g es) g x := .setGrp d _ rfl

theorem LegStands.setLeg (d : Dev) (q : LegSt) (hne : x ≠ y) : LegStands d (d.setLeg g y q) g x := by
  refine .of_reg (Dev.reg_setLeg _ _ _ _ _) ?_
  rw [Dev.legS_setLeg, if_neg fun h => hne h.2]

/-- A field of the status word outside a leg's byte. -/
theorem LegStands.put (d : Dev) (k : RField) (v : Nat) (h : k.lo + fieldWidth k ≤ 8 * x ∨ 8 * x + 8 ≤ k.lo) :
    LegStands d (d.put (gdLstat g) k v) g x := by
  refine ⟨Dev.flag_put_field _ _ _ _ ?_, Dev.get_put_field _ _ _ _ _ _ ?_, Dev.flag_put_field _ _ _ _ ?_, Dev.flag_put_field _ _ _ _ ?_, rfl⟩ <;>
    simp only [F.GDT_LSTAT_CAUSE, F.GDT_LSTAT_REL, F.GDT_LSTAT_CLR_FAIL, F.GDA_LSTAT_UV, fieldWidth] at h ⊢ <;> omega

theorem LegStands.gdEvent (d : Dev) (hg : g < 20) (src : Nat) : LegStands d (d.gdEvent g src) g x := by
  have hset : ∀ a w, a = R.GDT_FLAG ∨ a = R.GDA_FLAG → LegStands d (d.setReg a w) g x := fun a w ha =>
    .of_reg (d.reg_setReg_ne w (gdFlag_ne_lstat ha g hg)) rfl
  rw [Dev.gdEvent]
  refine LegStands.trans ?_ (.of_quiet hg (Dev.raiseN_quiet _ _ _ _))
  split
  · exact hset _ _ (.inl rfl)
  · exact hset _ _ (.inr rfl)

/-! ### The end of an action -/

theorem Dev.takeBack_frame {l : List Nat} (d : Dev) (g : Nat) :
    FrameOn grpPart l d (forN 3 (fun x e => e.setEdges g (e.ownEdges g x (64 * (e.gtc : Int)) (e.grpS g).edges)) d) :=
  FrameOn.forN grpPart_part 3 (fun _ _ e => (FrameOn.refl grpPart_part l e).setGrp g _) d

theorem LegStands.takeBack (d : Dev) (g x : Nat) :
    LegStands d (forN 3 (fun x e => e.setEdges g (e.ownEdges g x (64 * (e.gtc : Int)) (e.grpS g).edges)) d) g x :=
  forN_keeps (P := fun e => LegStands d e g x) 3 (fun _ _ e he => he.trans (.setEdges e _)) (.refl d g x)

theorem gdLstat_rel : gdLstat g ∈ relRegs g := gdRegs_rel _ (by simp [gdRegs])

theorem Dev.endAction_frame (d : Dev) (g : Nat) : FrameOn grpPart (relRegs g) d (d.endAction g) := by
  rw [Dev.endAction]
  split
  · exact FrameOn.refl grpPart_part _ d
  · have h := ((FrameOn.refl grpPart_part (relRegs g) d).setGrp g { d.grpS g with asc := false }).putB grpPart_part F.GDT_LSTAT_GACT false gdLstat_rel
    exact FrameOn.ite (fun _ => h.then grpPart_part fun e => e.takeBack_frame g) fun _ => h

theorem LegStands.endAction (d : Dev) (hx : x < 3) : LegStands d (d.endAction g) g x := by
  rw [Dev.endAction]
  split
  · exact .refl d g x
  · have h : LegStands d ((d.setGrp g { d.grpS g with asc := false }).putB (gdLstat g) F.GDT_LSTAT_GACT false) g x :=
      (LegStands.setGrp d { d.grpS g with asc := false } rfl).trans (.put _ F.GDT_LSTAT_GACT _ (.inr (by change 8 * x + 8 ≤ 31; omega)))
    dsimp only
    split
    · exact h.trans (.takeBack _ g x)
    · exact h

theorem LegStands.ascLeg (d : Dev) (y : Nat) : LegStands d (d.ascLeg g y) g x := by
  rw [Dev.ascLeg]
  split
  · exact .refl d g x
  · exact .setGrp d _ rfl

/-! ### One clear (R311) -/

/-- The leg with its release and cause taken away, waiting for its next edge. -/
def Dev.legCleared (d : Dev) (g y : Nat) : Dev :=
  let e := (d.putB (gdLstat g) (F.GDT_LSTAT_REL y) false).put (gdLstat g) (F.GDT_LSTAT_CAUSE y) 0
  e.setLeg g y { e.legS g y with wait := true }

/-- The group after a clear: its action ends, or holds the leg. -/
def Dev.legRejoins (d : Dev) (g y : Nat) : Dev := if ((d.endAction g).grpS g).asc then (d.endAction g).ascLeg g y else d.endAction g

theorem Dev.clearLeg_eq (d : Dev) (g y : Nat) : d.clearLeg g y =
    if !d.legReleased g y then d
    else if d.clearOk g y then (d.legCleared g y).legRejoins g y
    else (d.putB (gdLstat g) (F.GDT_LSTAT_CLR_FAIL y) true).gdEvent g Ev.REL_CLR_FAIL := rfl

theorem Dev.legRejoins_frame (d : Dev) (g y : Nat) : FrameOn grpPart (relRegs g) d (d.legRejoins g y) :=
  FrameOn.ite (fun _ => (d.endAction_frame g).then grpPart_part fun e => e.ascLeg_frame y) fun _ => d.endAction_frame g

theorem LegStands.legRejoins (d : Dev) (hx : x < 3) (y : Nat) : LegStands d (d.legRejoins g y) g x := by
  rw [Dev.legRejoins]
  split
  · exact (LegStands.endAction d hx).trans (.ascLeg _ y)
  · exact .endAction d hx

theorem Dev.legCleared_frame (d : Dev) (g y : Nat) : FrameOn grpPart (relRegs g) d (d.legCleared g y) :=
  (((FrameOn.refl grpPart_part (relRegs g) d).putB grpPart_part _ _ gdLstat_rel).put grpPart_part _ _ gdLstat_rel).setLeg g y _

theorem Dev.clearLeg_frame (d : Dev) (g y : Nat) : FrameOn grpPart (relRegs g) d (d.clearLeg g y) := by
  rw [Dev.clearLeg_eq]
  refine FrameOn.ite (fun _ => FrameOn.refl grpPart_part _ d) fun _ => FrameOn.ite (fun _ => ?_) fun _ => ?_
  · exact (d.legCleared_frame g y).then grpPart_part fun e => e.legRejoins_frame g y
  · exact FrameOn.gdEvent grpPart_part ((FrameOn.refl grpPart_part _ d).putB grpPart_part _ _ gdLstat_rel) gdRegs_rel _

theorem LegStands.clearLeg (d : Dev) (hg : g < 20) (hx : x < 3) (hne : x ≠ y) : LegStands d (d.clearLeg g y) g x := by
  rw [Dev.clearLeg_eq]
  split
  · exact .refl d g x
  · split
    · have hc : LegStands d (d.legCleared g y) g x :=
        ((LegStands.put d _ _ (by simp only [F.GDT_LSTAT_REL, fieldWidth]; omega)).trans
          (.put _ _ _ (by simp only [F.GDT_LSTAT_CAUSE, fieldWidth]; omega))).trans (.setLeg _ _ hne)
      exact hc.trans (.legRejoins _ hx y)
    · exact (LegStands.put d _ _ (by simp only [F.GDT_LSTAT_CLR_FAIL, fieldWidth]; omega)).trans (.gdEvent _ hg _)

/-- A clear that is accepted. -/
theorem Dev.clearLeg_taken (hx : x < 3) (hrel : d.legReleased g x = true) (hok : d.clearOk g x = true) :
    (d.clearLeg g x).legReleased g x = false ∧ (d.clearLeg g x).legCause g x = 0 ∧ ((d.clearLeg g x).legS g x).wait = true := by
  rw [Dev.clearLeg_eq, hrel, hok]
  have hstands := LegStands.legRejoins (d.legCleared g x) (g := g) hx x
  refine ⟨hstands.rel.trans ?_, hstands.cause.trans ?_, (congrArg LegSt.wait hstands.leg).trans ?_⟩
  · refine (Dev.flag_put_field (d.putB (gdLstat g) (F.GDT_LSTAT_REL x) false) _ _ _ ?_).trans (Dev.flag_putB_self _ _ _ _ ?_ ?_)
    · simp only [F.GDT_LSTAT_CAUSE, F.GDT_LSTAT_REL, fieldWidth]
      omega
    · simp only [F.GDT_LSTAT_REL, fieldWidth]
      omega
    · simp only [F.GDT_LSTAT_REL]
      omega
  · refine (Dev.get_put_self (d.putB (gdLstat g) (F.GDT_LSTAT_REL x) false) _ _ _ ?_).trans (Nat.zero_mod _)
    simp only [F.GDT_LSTAT_CAUSE, fieldWidth]
    omega
  · rw [Dev.legCleared, Dev.legS_setLeg, if_pos ⟨rfl, rfl⟩]

/-- A clear that is refused. -/
theorem Dev.clearLeg_refused (hg : g < 20) (hx : x < 3) (hrel : d.legReleased g x = true) (hok : d.clearOk g x = false) :
    (d.clearLeg g x).legReleased g x = true ∧ (d.clearLeg g x).flag (gdLstat g) (F.GDT_LSTAT_CLR_FAIL x) = true ∧
      Raised (d.clearLeg g x) (gdPage g) Ev.REL_CLR_FAIL := by
  have heq : d.clearLeg g x = (d.putB (gdLstat g) (F.GDT_LSTAT_CLR_FAIL x) true).gdEvent g Ev.REL_CLR_FAIL := by
    rw [Dev.clearLeg_eq, hrel, hok]
    rfl
  have hstands := LegStands.gdEvent (d.putB (gdLstat g) (F.GDT_LSTAT_CLR_FAIL x) true) (x := x) hg Ev.REL_CLR_FAIL
  rw [heq]
  refine ⟨hstands.rel.trans ?_, hstands.fail.trans (Dev.flag_putB_self _ _ _ _ ?_ ?_), Dev.gdEvent_raised _ _ _⟩
  · refine (Dev.flag_put_field _ _ _ _ ?_).trans hrel
    simp only [F.GDT_LSTAT_CLR_FAIL, F.GDT_LSTAT_REL, fieldWidth]
    omega
  · simp only [F.GDT_LSTAT_CLR_FAIL, fieldWidth]
    omega
  · simp only [F.GDT_LSTAT_CLR_FAIL]
    omega

/-! ### Whether a clear is accepted -/

theorem eventReg_gdaStat : eventReg R.GDA_STAT = false := by decide

theorem Dev.genP_of_frame (hg : g < 20) (h : FrameOn grpPart (relRegs g) d e) : e.genP g = d.genP g := by
  rw [Dev.genP, Dev.genP]
  split
  · next hlt => exact Dev.flag_of_reg (h.reg grpPart_part (eventReg_gdtPins hlt) (gdtPins_not_rel hg hlt)) _
  · rw [h.reg grpPart_part eventReg_gdaStat (gdaStat_not_rel hg)]

theorem any_congr_mem {α : Type} {l : List α} {p q : α → Bool} (h : ∀ a ∈ l, p a = q a) : l.any p = l.any q := by
  rw [Bool.eq_iff_iff, List.any_eq_true, List.any_eq_true]
  exact exists_congr fun a => and_congr_right fun ha => by rw [h a ha]

theorem cmpBlocks_congr {c : Nat} (hc : ∀ a, a = R.CMP_ROUTE c ∨ a = R.CMP_CFG c ∨ a = R.CMP_STAT c → e.reg a = d.reg a) :
    (e.flag (R.CMP_CFG c) F.CMP_CFG_CLASS && e.cmpRoutes c g x && (e.flag (R.CMP_STAT c) F.CMP_STAT_LATCHED || e.flag (R.CMP_STAT c) F.CMP_STAT_STARTING)) =
    (d.flag (R.CMP_CFG c) F.CMP_CFG_CLASS && d.cmpRoutes c g x &&
      (d.flag (R.CMP_STAT c) F.CMP_STAT_LATCHED || d.flag (R.CMP_STAT c) F.CMP_STAT_STARTING)) := by
  have hroute := hc _ (.inl rfl)
  have hcfg := hc _ (.inr (.inl rfl))
  have hstat := hc _ (.inr (.inr rfl))
  rw [Dev.cmpRoutes, Dev.cmpRoutes, hroute, Dev.flag_of_reg hcfg, Dev.flag_of_reg hstat, Dev.flag_of_reg hstat]

/-- The comparators stand before the gate pages. -/
theorem cmpReg_off (hg : g < 20) {c a : Nat} (hc : c < 72) (ha : a = R.CMP_ROUTE c ∨ a = R.CMP_CFG c ∨ a = R.CMP_STAT c) :
    eventReg a = false ∧ a ∉ relRegs g := by
  refine ⟨?_, fun hm => ?_⟩
  · rw [eventReg_eq_false]
    simp only [R.CMP_ROUTE, R.CMP_CFG, R.CMP_STAT] at ha
    omega
  · have hp := relRegs_place hg hm
    simp only [R.CMP_ROUTE, R.CMP_CFG, R.CMP_STAT] at ha
    omega

theorem Dev.cmpBlocksClear_of_frame (hg : g < 20) (h : FrameOn grpPart (relRegs g) d e) : e.cmpBlocksClear g x = d.cmpBlocksClear g x := by
  have hmem : e.member = d.member := (congrArg Dev.member h.1 :)
  rw [Dev.cmpBlocksClear, Dev.cmpBlocksClear, hmem]
  refine any_congr_mem fun c hc => cmpBlocks_congr fun a ha => ?_
  obtain ⟨hev, hno⟩ := cmpReg_off hg ((List.mem_range.1 hc).trans_le (nCmp_le _)) ha
  exact h.reg grpPart_part hev hno

/-- A clear of a leg is accepted as before where the rest of the group has changed alone. -/
theorem Dev.clearOk_of_stands (hg : g < 20) (h : FrameOn grpPart (relRegs g) d e) (hs : LegStands d e g x) : e.clearOk g x = d.clearOk g x := by
  have hstate : e.devState = d.devState := Dev.get_of_reg (h.reg grpPart_part (by decide) fun hm => by
    have hp := relRegs_place hg hm
    simp only [R.SYS_STATE] at hp
    omega) _
  have hgtc : e.gtc = d.gtc := (congrArg Dev.gtc h.1 :)
  have hin : (if g < 12 then !bitOf (e.reg (R.GDT_PINS g)) (24 + x)
      else !e.flag (gdLstat g) (F.GDA_LSTAT_UV x) && e.flag R.GDA_STAT F.GDA_STAT_VGD_OK) =
      (if g < 12 then !bitOf (d.reg (R.GDT_PINS g)) (24 + x)
      else !d.flag (gdLstat g) (F.GDA_LSTAT_UV x) && d.flag R.GDA_STAT F.GDA_STAT_VGD_OK) := by
    split
    · next hlt => rw [h.reg grpPart_part (eventReg_gdtPins hlt) (gdtPins_not_rel hg hlt)]
    · rw [hs.low, Dev.flag_of_reg (h.reg grpPart_part eventReg_gdaStat (gdaStat_not_rel hg))]
  rw [Dev.clearOk, Dev.clearOk, hin, Dev.genP_of_frame hg h, Dev.cmpBlocksClear_of_frame hg h, hstate, hgtc, hs.leg]

/-! ### A mask of clears -/

/-- What clears of a mask make of one leg. -/
def LegTold (d e : Dev) (g mask x : Nat) : Prop :=
  (mask / 2 ^ x % 2 = 1 → d.legReleased g x = true →
    (d.clearOk g x = true → e.legReleased g x = false ∧ e.legCause g x = 0 ∧ (e.legS g x).wait = true) ∧
    (d.clearOk g x = false → e.legReleased g x = true ∧ e.flag (gdLstat g) (F.GDT_LSTAT_CLR_FAIL x) = true ∧
      Raised e (gdPage g) Ev.REL_CLR_FAIL)) ∧
  (mask / 2 ^ x % 2 = 0 → e.legReleased g x = d.legReleased g x ∧ e.legS g x = d.legS g x)

theorem LegTold.stands {mask : Nat} (h : LegTold d e g mask x) (k : LegStands e f g x) (hr : Raised e (gdPage g) Ev.REL_CLR_FAIL →
    Raised f (gdPage g) Ev.REL_CLR_FAIL) : LegTold d f g mask x := by
  refine ⟨fun hm hrel => ⟨fun hok => ?_, fun hok => ?_⟩, fun hm => ?_⟩
  · obtain ⟨h1, h2, h3⟩ := (h.1 hm hrel).1 hok
    exact ⟨k.rel.trans h1, k.cause.trans h2, (congrArg LegSt.wait k.leg).trans h3⟩
  · obtain ⟨h1, h2, h3⟩ := (h.1 hm hrel).2 hok
    exact ⟨k.rel.trans h1, k.fail.trans h2, hr h3⟩
  · obtain ⟨h1, h2⟩ := h.2 hm
    exact ⟨k.rel.trans h1, k.leg.trans h2⟩

/-- The clears of a device on which the leg stood as before. -/
theorem LegTold.of_stands {mask : Nat} (h : LegTold e f g mask x) (hok : e.clearOk g x = d.clearOk g x) (k : LegStands d e g x) :
    LegTold d f g mask x := by
  refine ⟨fun hm hrel => ?_, fun hm => ?_⟩
  · rw [← hok]
    exact h.1 hm (k.rel.trans hrel)
  · obtain ⟨h1, h2⟩ := h.2 hm
    exact ⟨h1.trans k.rel, h2.trans k.leg⟩

/-- The clears of a mask (R311). -/
theorem Dev.clearMask_spec (d : Dev) (hg : g < 20) (mask : Nat) : FrameOn grpPart (relRegs g) d (d.clearMask g mask) ∧
    ∀ x < 3, LegTold d (d.clearMask g mask) g mask x := by
  have hp := grpPart_part
  have hturn : ∀ k e, FrameOn grpPart (relRegs g) e (if mask / 2 ^ k % 2 = 1 then e.clearLeg g k else e) := fun k e =>
    FrameOn.ite (fun _ => e.clearLeg_frame g k) fun _ => FrameOn.refl hp _ e
  have hother : ∀ k, ∀ j < 3, j ≠ k → ∀ e, LegStands e (if mask / 2 ^ k % 2 = 1 then e.clearLeg g k else e) g j := by
    intro k j hj hne e
    split
    · exact .clearLeg e hg hj hne
    · exact .refl e g j
  refine forN_stages (I := FrameOn grpPart (relRegs g) d) (B := fun x e => LegStands d e g x) (A := fun x e => LegTold d e g mask x) 3
    (fun k hk e he hb => ⟨he.then hp (hturn k), ?_⟩) (fun k _ j hj hlt e _ hb => hb.trans (hother k j hj (Nat.ne_of_gt hlt) e))
    (fun k hk j hlt e _ ha => ha.stands (hother k j (by omega) (Nat.ne_of_lt hlt) e) fun hr => (hturn k e).raised hp (pgEvtRaw_not_rel hg _) hr)
    (FrameOn.refl hp _ d) fun x _ => .refl d g x
  have hokeq := Dev.clearOk_of_stands hg he hb
  split
  · next hm =>
    refine ⟨fun _ hrel => ⟨fun hok => ?_, fun hok => ?_⟩, fun h0 => absurd (hm.symm.trans h0) (by decide)⟩
    · exact Dev.clearLeg_taken hk (hb.rel.trans hrel) (hokeq.trans hok)
    · exact Dev.clearLeg_refused hg hk (hb.rel.trans hrel) (hokeq.trans hok)
  · next hm => exact ⟨fun h1 => absurd h1 hm, fun _ => ⟨hb.rel, hb.leg⟩⟩

/-- No clear. -/
theorem Dev.clearMask_zero (d : Dev) (g : Nat) : d.clearMask g 0 = d :=
  forN_keeps (P := fun e => e = d) 3 (fun x _ e he => by rw [he, Nat.zero_div]; rfl) rfl

theorem Dev.relMask_zero (d : Dev) (g cause : Nat) : d.relMask g 0 cause = d :=
  forN_keeps (P := fun e => e = d) 3 (fun x _ e he => by rw [he, Nat.zero_div]; rfl) rfl

/-- The releases of a mask leave the legs outside it. -/
theorem Dev.relMask_other (d : Dev) (hg : g < 20) (mask : Nat) {cause : Nat} (hc : cause < 16) (hx : x < 3) (hm : mask / 2 ^ x % 2 = 0) :
    (d.relMask g mask cause).legReleased g x = d.legReleased g x := by
  refine forN_keeps (P := fun e : Dev => e.legReleased g x = d.legReleased g x) 3 (fun y hy e he => ?_) rfl
  split
  · next h1 =>
    have hne : ¬(g = g ∧ x = y) := by
      rintro ⟨-, rfl⟩
      omega
    exact ((e.relLeg_taken hg hy hc).else' g hg x hx hne).1.trans he
  · exact he

/-- Soft releases of a mask (R309). -/
theorem Dev.softRelease_spec (d : Dev) (hg : g < 20) (mask : Nat) : FrameOn grpPart (relRegs g) d (d.relMask g mask 0xA) ∧
    Released d (d.relMask g mask 0xA) g mask 0xA ∧ ∀ x < 3, mask / 2 ^ x % 2 = 0 →
      (d.relMask g mask 0xA).legReleased g x = d.legReleased g x ∧ (d.relMask g mask 0xA).legS g x = d.legS g x := by
  refine ⟨d.relMask_frame gdRegs_rel mask _, ?_, fun x hx hm => ⟨d.relMask_other hg mask (by decide) hx hm, ?_⟩⟩
  · exact ((Releasing.refl 0xA d).relMask_got hg mask (by decide)).released hg fun x _ hx => .inr ⟨rfl, hx⟩
  · refine (d.relMask_kept (set := fun j y => j = g ∧ mask / 2 ^ y % 2 = 1) hg mask 0xA fun y _ h => ⟨rfl, h⟩).same g x ?_
    rintro ⟨-, h1⟩
    omega

end

/-! ### A register of alike fields beside read-only ones -/

theorem applyFields_taken {ok : FieldDef → Bool} {l : List FieldDef} (h : ∀ fd ∈ l, fd.acc = .ro ∨ ok fd = true) (w cur : Word) :
    applyFields ok w l cur = takeAll l w cur := by
  induction l generalizing cur with
  | nil => rfl
  | cons fd l ih =>
    have hnext : (if ok fd then fieldNext fd cur w else cur) = fieldNext fd cur w := by
      obtain hro | hok := h fd List.mem_cons_self
      · have hf : fieldNext fd cur w = cur := by simp only [fieldNext, hro]
        rw [hf, ite_self]
      · rw [if_pos hok]
    rw [applyFields, hnext, ih fun g hg => h g (List.mem_cons_of_mem _ hg)]
    rfl

theorem writeRefused_taken {ok : FieldDef → Bool} {l : List FieldDef} (h : ∀ fd ∈ l, fd.acc = .ro ∨ ok fd = true) (hany : l.any ok = true)
    (cur w : Word) : writeRefused ok cur w l = false := by
  rw [writeRefused, hany, Bool.not_true, Bool.false_or, List.any_eq_false]
  intro fd hfd
  obtain hro | hok := h fd hfd
  · simp [hro]
  · simp [hok]

/-- A taken write of a register whose fields are of one access type or read-only: every field that may be written takes its part. -/
theorem Dev.plainWrite_takenBeside {d : Dev} {mid a : Nat} {b : Block} {i off : Nat} (h : Placed d a b i off) (hin : inRegs a = true)
    {rd : RegDef} {x y : Nat} (hr : regAt b off = some (rd, x, y)) {acc : Access} (hm : ∀ fd ∈ rd.flds, chanMOnly b off fd.f = false)
    (halike : ∀ fd ∈ rd.flds, fd.acc = .ro ∨ fd.acc = acc) (ht : d.takenAt mid a = true) {w : Word}
    (hw : w &&& absentBits d.member b i off = 0) : d.plainWrite mid a w = d.setReg a (takeAll rd.flds w (d.reg a)) := by
  have htaken : d.writeTaken mid b i (pageOf a) off = true := by
    rw [Dev.takenAt, h.info, h.offset] at ht
    simp only [Bool.and_eq_true] at ht
    exact ht.2
  rw [Dev.writeTaken, hr] at htaken
  obtain ⟨fd, hfd, hok⟩ := List.any_eq_true.1 htaken
  have hacc : fd.acc = acc := by
    refine (halike fd hfd).resolve_left fun hro => ?_
    rw [Dev.fieldOk, hm fd hfd, if_neg Bool.false_ne_true, hro] at hok
    cases hok
  have hall : ∀ g ∈ rd.flds, g.acc = .ro ∨ d.fieldOk mid b i (pageOf a) off g = true := fun g hg =>
    (halike g hg).imp_right fun hga => Dev.fieldOk_alike (hacc.trans hga.symm) (hm fd hfd) (hm g hg) hok
  rw [d.plainWrite_placed h hr mid hw, Dev.writeFields, h.address hin, writeRefused_taken hall htaken, applyFields_taken hall]
  rfl

/-! ### GDA_COMM (R315) -/

/-- The legs of a group take the state in force: their edges alone change. -/
theorem Dev.commLegs_spec {l : List Nat} (d : Dev) (g : Nat) (t : Int) : FrameOn grpPart l d (forN 3 (fun x e => e.commLeg g x t) d) ∧
    (∀ j, j ≠ g → (forN 3 (fun x e => e.commLeg g x t) d).grpS j = d.grpS j) ∧ ∀ a, (forN 3 (fun x e => e.commLeg g x t) d).reg a = d.reg a := by
  refine forN_keeps (P := fun e => FrameOn grpPart l d e ∧ (∀ j, j ≠ g → e.grpS j = d.grpS j) ∧ ∀ a, e.reg a = d.reg a) 3 (fun x _ e he => ?_)
    ⟨FrameOn.refl grpPart_part l d, fun _ _ => rfl, fun _ => rfl⟩
  obtain ⟨hframe, hoth, hreg⟩ := he
  rw [Dev.commLeg]
  split
  · exact ⟨hframe.setGrp g _, fun j hj => (Dev.grpS_setGrp _ _ _ _).trans ((if_neg hj).trans (hoth j hj)),
      fun a => (Dev.reg_setGrp _ _ _ _).trans (hreg a)⟩
  · exact ⟨hframe, hoth, hreg⟩

/-- A commutation state in force. -/
theorem Dev.commSet_spec (d : Dev) (n code : Nat) : FrameOn grpPart [R.GDA_COMM n] d (d.commSet n code) ∧
    (∀ j, j ≠ n + 12 → (d.commSet n code).grpS j = d.grpS j) ∧ (d.commSet n code).get (R.GDA_COMM n) F.GDA_COMM_CODE = code % 8 ∧
    (d.commSet n code).get (R.GDA_COMM n) F.GDA_COMM_STATE = d.get (R.GDA_COMM n) F.GDA_COMM_STATE := by
  have hput := (FrameOn.refl grpPart_part [R.GDA_COMM n] d).put grpPart_part F.GDA_COMM_CODE code (List.mem_singleton_self _)
  have hgrp : ∀ j, (d.put (R.GDA_COMM n) F.GDA_COMM_CODE code).grpS j = d.grpS j := fun _ => rfl
  have hcode : (d.put (R.GDA_COMM n) F.GDA_COMM_CODE code).get (R.GDA_COMM n) F.GDA_COMM_CODE = code % 8 := d.get_put_self _ _ _ (by decide)
  have hstate : (d.put (R.GDA_COMM n) F.GDA_COMM_CODE code).get (R.GDA_COMM n) F.GDA_COMM_STATE = d.get (R.GDA_COMM n) F.GDA_COMM_STATE :=
    d.get_put_field _ _ _ _ _ (by decide)
  rw [Dev.commSet]
  generalize d.put (R.GDA_COMM n) F.GDA_COMM_CODE code = u at hput hgrp hcode hstate
  split
  · obtain ⟨hframe, hoth, hreg⟩ := u.commLegs_spec (l := [R.GDA_COMM n]) (n + 12) (64 * ((u.gtc + 7 : Nat) : Int))
    exact ⟨hput.trans grpPart_part hframe, fun j hj => (hoth j hj).trans (hgrp j), (Dev.get_of_reg (hreg _) _).trans hcode,
      (Dev.get_of_reg (hreg _) _).trans hstate⟩
  · exact ⟨hput, fun j _ => hgrp j, hcode, hstate⟩

/-- The fields of GDA_COMM. -/
def commFields : List FieldDef := [⟨F.GDA_COMM_CODE, .ro, 0⟩, ⟨F.GDA_COMM_STATE, .rw, 0⟩]

theorem regAt_gdaComm : ∀ n < 8, regAt .gdaB (0x110 + 0x20 * n) = some (⟨0x110, 0x20, 8, 0, 1, commFields⟩, n, 0) := by decide

section
variable {d : Dev} {n : Nat} (hn : n < nAux d.member)
include hn

theorem placed_gdaComm : Placed d (R.GDA_COMM n) .gdaB 0 (0x110 + 0x20 * n) := by
  have h8 := hn.trans_le (nAux_le8 _)
  have hpage : pageOf (R.GDA_COMM n) = 0x99 := by simp only [R.GDA_COMM, pageOf]; omega
  refine ⟨by rw [hpage]; rfl, by simp only [R.GDA_COMM, offOf]; omega, rfl, ?_, by omega⟩
  simp only [absentReg, Bool.or_eq_false_iff, Bool.and_eq_false_iff, decide_eq_false_iff_not]
  omega

theorem Dev.unitWrite_gdaComm (hlive : d.replaying = false) (mid : Nat) (w : Word) :
    d.unitWrite 8 n mid (R.GDA_COMM n) w = d.commStateWrite mid n w := by
  have h8 := hn.trans_le (nAux_le8 _)
  rw [Dev.unitWrite_in d h8, Dev.pWrite_placed_eq (placed_gdaComm hn) hlive rfl]
  have hdiv : (0x110 + 0x20 * n - 0x100) / 0x20 = n := by omega
  have hmod : (0x110 + 0x20 * n - 0x100) % 0x20 = 0x10 := by omega
  have hroute : d.routeWrite mid .gdaB 0 (0x110 + 0x20 * n) (R.GDA_COMM n) w = d.gdaPageWrite mid (0x110 + 0x20 * n) (R.GDA_COMM n) w := rfl
  rw [hroute, Dev.gdaPageWrite, if_neg (by omega), hdiv, hmod, if_neg (by decide), if_neg (by decide), if_neg (by decide), if_pos rfl]

theorem Dev.plainWrite_gdaComm {mid : Nat} (ht : d.takenAt mid (R.GDA_COMM n) = true) (w : Word) :
    d.plainWrite mid (R.GDA_COMM n) w = d.setReg (R.GDA_COMM n) (takeAll commFields w (d.reg (R.GDA_COMM n))) := by
  have h8 := hn.trans_le (nAux_le8 _)
  refine Dev.plainWrite_takenBeside (placed_gdaComm hn) (inRegs_iff.2 (by simp only [R.GDA_COMM]; omega)) (regAt_gdaComm n h8) (acc := .rw)
    (fun _ _ => rfl) (by decide) ht ?_
  simp only [absentBits]
  rw [if_neg (by omega), if_neg (by omega)]
  exact BitVec.and_zero

/-- The host's commutation state in force. -/
theorem Dev.commState_spec (hlive : d.replaying = false) {mid : Nat} (ht : d.takenAt mid (R.GDA_COMM n) = true) (hc : d.isComm (n + 12) = true)
    (hsrc : d.flag (R.GDA_GCFG n) F.GDA_GCFG_COMM_SRC = false) (w : Word) :
    let e := d.unitWrite 8 n mid (R.GDA_COMM n) w
    FrameOn grpPart [R.GDA_COMM n] d e ∧ (∀ j, j ≠ n + 12 → e.grpS j = d.grpS j) ∧
      e.get (R.GDA_COMM n) F.GDA_COMM_STATE = getF w F.GDA_COMM_STATE ∧ e.get (R.GDA_COMM n) F.GDA_COMM_CODE = getF w F.GDA_COMM_STATE := by
  have hm : R.GDA_COMM n ∈ [R.GDA_COMM n] := List.mem_singleton_self _
  dsimp only
  rw [Dev.unitWrite_gdaComm hn hlive, Dev.commStateWrite, ht, Dev.plainWrite_gdaComm hn ht]
  have hcfg : ∀ k v, (d.setReg (R.GDA_COMM n) v).flag (R.GDA_GCFG n) k = d.flag (R.GDA_GCFG n) k := fun k v =>
    Dev.flag_of_reg (Dev.reg_setReg_ne _ _ (by simp only [R.GDA_GCFG, R.GDA_COMM]; omega)) _
  have hcomm : ∀ v, (d.setReg (R.GDA_COMM n) v).isComm (n + 12) = true := fun v => by
    rw [← hc, Dev.isComm, Dev.isComm, Nat.add_sub_cancel, hcfg]
  have hstate : (d.setReg (R.GDA_COMM n) (takeAll commFields w (d.reg (R.GDA_COMM n)))).get (R.GDA_COMM n) F.GDA_COMM_STATE =
      getF w F.GDA_COMM_STATE := by
    rw [Dev.get, Dev.reg_setReg_self]
    exact getF_takeAll (fd := ⟨F.GDA_COMM_STATE, .rw, 0⟩) (by decide) (by decide) (.inl rfl) w _
  rw [hcomm, hcfg, hsrc]
  have hset := (FrameOn.refl grpPart_part [R.GDA_COMM n] d).setReg grpPart_part (takeAll commFields w (d.reg (R.GDA_COMM n))) hm
  have hgrp : ∀ j, (d.setReg (R.GDA_COMM n) (takeAll commFields w (d.reg (R.GDA_COMM n)))).grpS j = d.grpS j := fun _ => rfl
  generalize d.setReg (R.GDA_COMM n) (takeAll commFields w (d.reg (R.GDA_COMM n))) = u at hstate hset hgrp
  simp only [Bool.not_false, Bool.and_self, if_true]
  obtain ⟨kframe, koth, kcode, kstate⟩ := u.commSet_spec n (u.get (R.GDA_COMM n) F.GDA_COMM_STATE)
  rw [hstate] at kframe koth kcode kstate ⊢
  exact ⟨hset.trans grpPart_part kframe, fun j hj => (koth j hj).trans (hgrp j), kstate,
    kcode.trans (Nat.mod_eq_of_lt (getF_lt w F.GDA_COMM_STATE))⟩

end

/-- Settles O35. -/
theorem legReleases : Obligations.LegReleases := by
  intro s g x hlive hg hx hp
  refine ⟨fun hg12 => ⟨?_, ?_⟩, ?_, fun hrel => ?_, fun mid mask hmask ht => ⟨?_, ?_⟩, fun mid n w hn ht hc hsrc => ?_⟩
  · exact ⟨_, onLive_eq hlive rfl, Dev.legFlt_active hg12 hp hx⟩
  · exact onLive_eq hlive (Dev.legFlt_inactive hg12 hp hx)
  · obtain ⟨hframe, hreleased, -, hraised⟩ := s.dev.releaseEvent_spec hg (2 ^ x) Ev.LEG_SHOOT (cause := 1) (by decide)
    exact ⟨_, onLive_eq hlive (if_pos ⟨hp, hx⟩), hframe, hreleased, hraised⟩
  · obtain ⟨hframe, hreleased, -, hraised⟩ := s.dev.releaseEvent_spec hg (2 ^ x) Ev.LEG_OUT_RB (cause := 4) (by decide)
    exact ⟨_, onLive_eq hlive (if_pos ⟨hp, hx, by rw [hrel]; rfl⟩), hframe, hreleased, hraised⟩
  · have hw : getF (setF 0 F.GDT_LCMD_REL mask) F.GDT_LCMD_REL = mask := (getF_setF_self _ _ _ (by decide)).trans (Nat.mod_eq_of_lt hmask)
    have hc : getF (setF 0 F.GDT_LCMD_REL mask) F.GDT_LCMD_CLR = 0 := getF_setF_ne _ _ _ _ (by decide)
    have hrun := Dev.unitWrite_lcmd_taken hp hg hlive.2 ht (setF 0 F.GDT_LCMD_REL mask)
    rw [hw, hc, Dev.clearMask_zero] at hrun
    have hq := s.dev.setReg_own_quiet (gdLcmd g)
    generalize s.dev.setReg (gdLcmd g) (s.dev.reg (gdLcmd g)) = u at hrun hq
    obtain ⟨hframe, hreleased, hother⟩ := u.softRelease_spec hg mask
    have hstands : LegStands s.dev u g x := .of_quiet hg hq
    refine ⟨_, onDev_eq hlive.1 hrun, (FrameOn.of_quiet grpPart_part _ hq).trans grpPart_part hframe, hreleased.of_alike (.of_quiet hq) hg, fun hm => ?_⟩
    obtain ⟨h1, h2⟩ := hother x hx hm
    exact ⟨h1.trans hstands.rel, h2.trans hstands.leg⟩
  · have hw : getF (setF 0 F.GDT_LCMD_CLR mask) F.GDT_LCMD_CLR = mask := (getF_setF_self _ _ _ (by decide)).trans (Nat.mod_eq_of_lt hmask)
    have hc : getF (setF 0 F.GDT_LCMD_CLR mask) F.GDT_LCMD_REL = 0 := getF_setF_ne _ _ _ _ (by decide)
    have hrun := Dev.unitWrite_lcmd_taken hp hg hlive.2 ht (setF 0 F.GDT_LCMD_CLR mask)
    rw [hw, hc, Dev.relMask_zero] at hrun
    have hq := s.dev.setReg_own_quiet (gdLcmd g)
    generalize s.dev.setReg (gdLcmd g) (s.dev.reg (gdLcmd g)) = u at hrun hq
    obtain ⟨hframe, htold⟩ := u.clearMask_spec hg mask
    have hstands : LegStands s.dev u g x := .of_quiet hg hq
    have hquiet : FrameOn grpPart (relRegs g) s.dev u := FrameOn.of_quiet grpPart_part _ hq
    exact ⟨_, onDev_eq hlive.1 hrun, hquiet.trans grpPart_part hframe, (htold x hx).of_stands (Dev.clearOk_of_stands hg hquiet hstands) hstands⟩
  · exact ⟨_, onDev_eq hlive.1 rfl, Dev.commState_spec hn hlive.2 ht hc hsrc w⟩

end Sys2Proof.Machine
end

section
/-! PROOFS. Writes of a supervisor on behalf of a machine: what they may change (R324, R331, R336). -/

namespace Sys2Proof.Machine

/-! ### The parts that such a write may change -/

/-- Groups, contexts, the count of what the spec leaves free, the writes to absent units of a cycle. -/
def hostPart (d e : Dev) : Dev := { d with grp := e.grp, ctx := e.ctx, free := e.free, sys := { d.sys with abs := e.sys.abs } }

theorem hostPart_part : Part hostPart := ⟨fun _ => rfl, fun _ _ _ => rfl, fun _ _ => rfl, fun _ _ _ => rfl⟩

/-- A list folded keeps what every step keeps. -/
theorem foldl_keeps {σ α : Type} {P : σ → Prop} {f : σ → α → σ} {l : List α} (h : ∀ x ∈ l, ∀ s, P s → P (f s x)) {s : σ} (hs : P s) :
    P (l.foldl f s) := by
  induction l generalizing s with
  | nil => exact hs
  | cons x l ih => exact ih (fun y hy => h y (List.mem_cons_of_mem _ hy)) (h x List.mem_cons_self s hs)

section
variable {l : List Nat} {d e : Dev}

theorem FrameOn.toHost (h : FrameOn grpPart l d e) : FrameOn hostPart l d e :=
  h.widen grpPart_part hostPart_part (fun _ _ => rfl) fun _ ha => ha

theorem FrameOn.hostGrp (h : FrameOn hostPart l d e) (g : Nat) (v : GrpSt) : FrameOn hostPart l d (e.setGrp g v) :=
  h.part hostPart_part rfl fun _ => rfl

theorem FrameOn.hostCtx (h : FrameOn hostPart l d e) (c : Nat) (v : CtxSt) : FrameOn hostPart l d (e.setCtx c v) :=
  h.part hostPart_part rfl fun _ => rfl

/-- The count of writes to absent units that a cycle has seen. -/
def absPart (d e : Dev) : Dev := { d with sys := { d.sys with abs := e.sys.abs } }

theorem absPart_part : Part absPart := ⟨fun _ => rfl, fun _ _ _ => rfl, fun _ _ => rfl, fun _ _ _ => rfl⟩

theorem FrameOn.absCount (h : FrameOn absPart l d e) (ha : R.SYS_ABSENT_CNT ∈ l) (mid page : Nat) : FrameOn absPart l d (e.absentWrite mid page) := by
  have hp := absPart_part
  have hnote : FrameOn absPart l d (e.noteAbsent mid) := h.part hp rfl fun _ => rfl
  have hcount := (hnote.bump hp F.SYS_ABSENT_CNT_COUNT ha).putB hp F.SYS_ABSENT_CNT_ABSENT_WR true ha
  exact FrameOn.ite (fun _ => hcount.put hp _ _ ha) fun _ => hcount

theorem FrameOn.absHost (h : FrameOn absPart l d e) : FrameOn hostPart l d e :=
  h.widen absPart_part hostPart_part (fun _ _ => rfl) fun _ ha => ha

theorem FrameOn.absentWrite (h : FrameOn hostPart l d e) (ha : R.SYS_ABSENT_CNT ∈ l) (mid page : Nat) :
    FrameOn hostPart l d (e.absentWrite mid page) :=
  h.trans hostPart_part ((FrameOn.refl absPart_part l e).absCount ha mid page).absHost

theorem FrameOn.denyIf {p : Dev → Dev → Dev} (hp : Part p) (h : FrameOn p l d e) {page : Nat} (ha : R.PG_STAT page ∈ l) (c : Bool) :
    FrameOn p l d (e.denyIf c page) := FrameOn.ite (fun _ => h.putB hp _ _ ha) fun _ => h

/-- A register within a page's block. -/
structure InBlock (a : Nat) (b : Block) (i : Nat) : Prop where
  info : pageInfo (pageOf a) = some (b, i)
  beyond : 0x40 ≤ offOf a
  space : inRegs a = true

/-- The registers that a plain write of one may change. -/
def writeRegs (a : Nat) : List Nat := [a, R.PG_STAT (pageOf a), R.SYS_ABSENT_CNT]

theorem Dev.plainWrite_frame {a i : Nat} {b : Block} (e : Dev) (hb : InBlock a b i) (hl : ∀ x ∈ writeRegs a, x ∈ l) (mid : Nat) (w : Word) :
    FrameOn absPart l e (e.plainWrite mid a w) := by
  have habs : R.SYS_ABSENT_CNT ∈ l := hl _ (by simp [writeRegs])
  have hstat : R.PG_STAT (pageOf a) ∈ l := hl _ (by simp [writeRegs])
  have ha : a ∈ l := hl _ (by simp [writeRegs])
  have hoff : ¬offOf a < 0x40 := Nat.not_lt.2 hb.beyond
  have haddr : pageBase (pageOf a) + offOf a = a := pageBase_pageOf hb.space
  have h := FrameOn.refl absPart_part l e
  simp only [Dev.plainWrite, hb.info, hoff, if_false]
  refine FrameOn.ite (fun _ => h.absCount habs _ _) fun _ => ?_
  cases regAt b (offOf a) with
  | none => exact h
  | some x =>
    dsimp only
    rw [Dev.writeFields, haddr]
    have hone : ∀ u, FrameOn absPart l e u → FrameOn absPart l e
        ((u.setReg a (applyFields (u.fieldOk mid b i (pageOf a) (offOf a)) (w &&& ~~~absentBits e.member b i (offOf a)) x.1.flds (u.reg a))).denyIf
          (writeRefused (u.fieldOk mid b i (pageOf a) (offOf a)) (u.reg a) (w &&& ~~~absentBits e.member b i (offOf a)) x.1.flds) (pageOf a)) :=
      fun u hu => (hu.setReg absPart_part _ ha).denyIf absPart_part hstat _
    exact hone _ (FrameOn.ite (fun _ => h) fun _ => h.absCount habs _ _)

theorem FrameOn.plainWrite {a i : Nat} {b : Block} (h : FrameOn hostPart l d e) (hb : InBlock a b i) (hl : ∀ x ∈ writeRegs a, x ∈ l) (mid : Nat)
    (w : Word) : FrameOn hostPart l d (e.plainWrite mid a w) := h.trans hostPart_part (e.plainWrite_frame hb hl mid w).absHost

/-- What a write of a register keeps, by what its block makes of it. -/
theorem Dev.pWrite_keeps {P : Dev → Prop} {a i : Nat} {b : Block} (hlive : d.replaying = false) (hb : InBlock a b i) {mid : Nat} {w : Word}
    (habs : ∀ mid page, P (d.absentWrite mid page)) (hroute : P (d.routeWrite mid b i (offOf a) a w)) (hq : ∀ u v, Quiet u v → P u → P v) :
    P (d.pWrite mid a w) := by
  have hoff : ¬offOf a < 0x40 := Nat.not_lt.2 hb.beyond
  have h8 : ¬offOf a = 8 := by have := hb.beyond; omega
  rw [Dev.pWrite_live hlive hb.info]
  simp only [Dev.pWriteIn, hb.info, hoff, h8, if_false]
  split
  · exact habs _ _
  · split
    · exact hq _ _ (Dev.emit_quiet _ _) hroute
    · exact hroute

/-- A write of a register, out of a replay: what its block makes of it, or a write to an absent unit. -/
theorem FrameOn.pWrite {a i : Nat} {b : Block} (h : FrameOn hostPart l d e) (hlive : e.replaying = false) (hb : InBlock a b i)
    (habs : R.SYS_ABSENT_CNT ∈ l) {mid : Nat} {w : Word} (hroute : FrameOn hostPart l d (e.routeWrite mid b i (offOf a) a w)) :
    FrameOn hostPart l d (e.pWrite mid a w) := by
  exact Dev.pWrite_keeps hlive hb (fun _ _ => h.absentWrite habs _ _) hroute fun _ _ hq hu => hu.quiet hostPart_part hq

/-- No replay begins or ends by such a write. -/
theorem FrameOn.hostLive (h : FrameOn hostPart l d e) (hr : R.RPL_STAT ∉ l) : e.replaying = d.replaying :=
  Dev.flag_of_reg (h.reg hostPart_part (by decide) hr) _

end

/-! ### Forced states (R292) -/

/-- The registers that a write of a leg's forced state may change. -/
def forceRegs (g : Nat) : List Nat := (List.range 3).map (R.PWT_LEG g) ++ [R.PG_STAT (Pg.PWT g), R.SYS_ABSENT_CNT]

/-- Those of one leg. -/
def legForceRegs (g x : Nat) : List Nat := [R.PWT_LEG g x, R.PG_STAT (Pg.PWT g), R.SYS_ABSENT_CNT]

theorem legForceRegs_sub {g x : Nat} (hx : x < 3) : ∀ a ∈ legForceRegs g x, a ∈ forceRegs g := by
  intro a ha
  simp only [legForceRegs, List.mem_cons, List.not_mem_nil, or_false] at ha
  rw [forceRegs, List.mem_append]
  obtain rfl | rfl | rfl := ha
  · exact .inl (List.mem_map_of_mem (List.mem_range.2 hx))
  · simp
  · simp

theorem inBlock_pwtLeg : ∀ g < 20, ∀ x < 3, ∃ b i, InBlock (R.PWT_LEG g x) b i ∧ (b = .pwtB ∧ i = g ∨ b = .pwaB ∧ 12 + i = g) ∧
    pageOf (R.PWT_LEG g x) = Pg.PWT g ∧ offOf (R.PWT_LEG g x) = 0xA0 + 4 * x := by
  intro g hg x hx
  have hpage : pageOf (R.PWT_LEG g x) = Pg.PWT g := by simp only [R.PWT_LEG, pageOf, Pg.PWT]; omega
  have hoff : offOf (R.PWT_LEG g x) = 0xA0 + 4 * x := by simp only [R.PWT_LEG, offOf]; omega
  have hin : inRegs (R.PWT_LEG g x) = true := inRegs_iff.2 (by simp only [R.PWT_LEG]; omega)
  have ht : ∀ k < 12, pageInfo (Pg.PWT k) = some (.pwtB, k) := by decide
  have ha : ∀ k < 8, pageInfo (Pg.PWT (12 + k)) = some (.pwaB, k) := by decide
  by_cases h : g < 12
  · exact ⟨.pwtB, g, ⟨by rw [hpage]; exact ht g h, by omega, hin⟩, .inl ⟨rfl, rfl⟩, hpage, hoff⟩
  · have hk := ha (g - 12) (by omega)
    rw [Nat.add_sub_cancel' (by omega)] at hk
    exact ⟨.pwaB, g - 12, ⟨by rw [hpage]; exact hk, by omega, hin⟩, .inr ⟨rfl, by omega⟩, hpage, hoff⟩

section
variable {l : List Nat} {d e : Dev} {g : Nat}

theorem FrameOn.legForceWrite (h : FrameOn hostPart l d e) (hg : g < 20) {x : Nat} (hx : x < 3) (hl : ∀ a ∈ legForceRegs g x, a ∈ l) (mid : Nat) (w : Word) :
    FrameOn hostPart l d (e.legForceWrite mid g x w) := by
  obtain ⟨b, i, hb, -, hpage, -⟩ := inBlock_pwtLeg g hg x hx
  have hplain := h.plainWrite hb (fun a ha => hl a (by
    simp only [writeRegs, hpage] at ha
    exact ha)) mid w
  exact FrameOn.ite (fun _ => hplain) fun _ => FrameOn.ite (fun _ => hplain.hostGrp g _) fun _ => hplain.hostGrp g _

/-- FORCE of a leg written by the bus. -/
theorem FrameOn.forceWrite (h : FrameOn hostPart l d e) (hlive : e.replaying = false) (hg : g < 20) {x : Nat} (hx : x < 3) (hl : ∀ a ∈ legForceRegs g x, a ∈ l)
    (mid : Nat) (w : Word) : FrameOn hostPart l d (e.pWrite mid (R.PWT_LEG g x) w) := by
  obtain ⟨b, i, hb, hbi, -, hoff⟩ := inBlock_pwtLeg g hg x hx
  refine h.pWrite hlive hb (hl _ (by simp [legForceRegs])) ?_
  have hpage : FrameOn hostPart l d (e.pwmPageWrite mid g (offOf (R.PWT_LEG g x)) (R.PWT_LEG g x) w) := by
    rw [hoff, Dev.pwmPageWrite, if_neg (by omega), if_neg (by omega), if_neg (by omega), if_pos (by omega)]
    have hdiv : (0xA0 + 4 * x - 0xA0) / 4 = x := by omega
    rw [hdiv]
    exact h.legForceWrite hg hx hl mid w
  obtain ⟨rfl, rfl⟩ | ⟨rfl, rfl⟩ := hbi
  · exact hpage
  · exact hpage

/-- A step for every leg of a machine. -/
theorem FrameOn.mLegs (d : Dev) (hlive : d.replaying = false) (hr : R.RPL_STAT ∉ l) (m : Nat) {f : Nat → Nat → Dev → Dev}
    (hf : ∀ g ∈ d.mGroups m, ∀ x < 3, ∀ e, e.replaying = false → FrameOn hostPart l d e → FrameOn hostPart l d (f g x e)) :
    FrameOn hostPart l d (d.mLegs m f) := by
  refine foldl_keeps (P := FrameOn hostPart l d) (fun g hg e he => ?_) (FrameOn.refl hostPart_part l d)
  exact forN_keeps (P := FrameOn hostPart l d) 3 (fun x hx u hu => hf g hg x hx u ((hu.hostLive hr).trans hlive) hu) he

theorem mGroups_lt {m : Nat} (hm : m < 20) : ∀ g ∈ d.mGroups m, g < 20 := by
  intro g hg
  rw [Dev.mGroups] at hg
  split at hg
  · split at hg
    · next s hs =>
      rw [Dev.secOf] at hs
      split at hs
      · simp only [List.mem_cons, List.not_mem_nil, or_false] at hg
        have hsg := Option.some.inj hs
        omega
      · cases hs
    · simp only [List.mem_singleton] at hg
      omega
  · simp only [List.mem_singleton] at hg
    omega

/-- FORCE of every leg of a machine. -/
theorem Dev.mForce_frame (d : Dev) (hlive : d.replaying = false) (hr : R.RPL_STAT ∉ l) {m : Nat} (hm : m < 20)
    (hl : ∀ g ∈ d.mGroups m, ∀ a ∈ forceRegs g, a ∈ l) (code : Nat) (imm : Bool) : FrameOn hostPart l d (d.mForce m code imm) :=
  FrameOn.mLegs d hlive hr m fun g hg _ hx _ hel he => he.forceWrite hel (mGroups_lt hm g hg) hx (fun a ha => hl g hg a (legForceRegs_sub hx a ha)) _ _

/-! ### Enables -/

/-- The registers that show enables. -/
def enableRegs (g : Nat) : List Nat := [R.GDT_PINS g, R.GDA_STAT]

theorem FrameOn.beginCheck (h : FrameOn hostPart l d e) (g : Nat) : FrameOn hostPart l d (e.beginCheck g) :=
  FrameOn.ite (fun _ => h.hostGrp g _) fun _ => h

theorem FrameOn.setGenP (h : FrameOn hostPart l d e) (hl : ∀ a ∈ enableRegs g, a ∈ l) (b : Bool) : FrameOn hostPart l d (e.setGenP g b) := by
  have hp := hostPart_part
  have hpins : R.GDT_PINS g ∈ l := hl _ (by simp [enableRegs])
  have hstat : R.GDA_STAT ∈ l := hl _ (by simp [enableRegs])
  have hput := (h.putB hp F.GDT_PINS_GENP_CMD b hpins).putB hp F.GDT_PINS_GENP_PIN b hpins
  rw [Dev.setGenP]
  refine FrameOn.ite (fun _ => h) fun _ => FrameOn.ite (fun _ => h.setReg hp _ hstat) fun _ => ?_
  exact FrameOn.ite (fun _ => hput.hostGrp g _) fun _ => (hput.hostGrp g _).beginCheck g

theorem FrameOn.setGenM (h : FrameOn hostPart l d e) (hl : ∀ a ∈ enableRegs g, a ∈ l) (b : Bool) : FrameOn hostPart l d (e.setGenM g b) := by
  have hp := hostPart_part
  have hpins : R.GDT_PINS g ∈ l := hl _ (by simp [enableRegs])
  have hstat : R.GDA_STAT ∈ l := hl _ (by simp [enableRegs])
  have hput := h.putB hp F.GDT_PINS_GENM_PIN b hpins
  rw [Dev.setGenM]
  refine FrameOn.ite (fun _ => h) fun _ => FrameOn.ite (fun _ => h.setReg hp _ hstat) fun _ => ?_
  exact FrameOn.ite (fun _ => hput) fun _ => hput.beginCheck g

theorem Dev.mDrop_frame (d : Dev) {m : Nat} (hl : ∀ g ∈ d.mGroups m, ∀ a ∈ enableRegs g, a ∈ l) : FrameOn hostPart l d (d.mDrop m) :=
  foldl_keeps (P := FrameOn hostPart l d) (fun g hg _ he => he.setGenP (hl g hg) false) (FrameOn.refl hostPart_part l d)

theorem Dev.mGrant_frame (d : Dev) {m : Nat} (hl : ∀ g ∈ d.mGroups m, ∀ a ∈ enableRegs g, a ∈ l) : FrameOn hostPart l d (d.mGrant m) :=
  foldl_keeps (P := FrameOn hostPart l d) (fun g hg _ he => he.setGenP (hl g hg) true) (FrameOn.refl hostPart_part l d)

end

/-! ### Contexts (R208 to R210) -/

/-- The registers of a context that a supervisor's writes may change. -/
def ctxRegs (c : Nat) : List Nat :=
  (List.range 112).map (ctxA c) ++ [R.LEC_FLAG (c / 32), R.PG_STAT (Pg.CTX (c / 8)), R.SYS_ABSENT_CNT]

theorem ctxA_mem {c n : Nat} (hn : n < 112) : ctxA c n ∈ ctxRegs c := List.mem_append_left _ (List.mem_map_of_mem (List.mem_range.2 hn))

theorem ctxCtrl_mem {c : Nat} : R.CTX_CTRL c ∈ ctxRegs c := ctxA_mem (c := c) (n := 0) (by decide)

theorem ctxSpec_mem {c : Nat} : R.CTX_SPEC c ∈ ctxRegs c := by
  have h : ctxA c 10 = R.CTX_SPEC c := by simp only [ctxA, R.CTX_CTRL, R.CTX_SPEC]; omega
  exact h ▸ ctxA_mem (by decide)

theorem ctxStat_mem {c : Nat} : R.CTX_STAT c ∈ ctxRegs c := by
  have h : ctxA c 12 = R.CTX_STAT c := by simp only [ctxA, R.CTX_CTRL, R.CTX_STAT]; omega
  exact h ▸ ctxA_mem (by decide)

theorem inBlock_ctx {c n : Nat} (hc : c < 192) (hn : n < 112) : InBlock (ctxA c n) .ctxB (c / 8) ∧ pageOf (ctxA c n) = Pg.CTX (c / 8) ∧
    offOf (ctxA c n) = 0x40 + 0x1C0 * (c % 8) + 4 * n := by
  have hq : c / 8 < 24 := by omega
  have hr : c % 8 < 8 := by omega
  rw [ctxA, R.CTX_CTRL]
  generalize c / 8 = q at hq
  generalize c % 8 = r at hr
  have ht : 0x40 + 0x1C0 * r + 4 * n < 0x1000 := by omega
  have hsum : 0x40100040 + 0x1000 * q + 0x1C0 * r + 4 * n = 0x40100000 + 0x1000 * q + (0x40 + 0x1C0 * r + 4 * n) := by omega
  have hpage : pageOf (0x40100040 + 0x1000 * q + 0x1C0 * r + 4 * n) = Pg.CTX q := by
    rw [hsum]
    generalize 0x40 + 0x1C0 * r + 4 * n = t at ht
    simp only [pageOf, Pg.CTX]
    omega
  have hoff : offOf (0x40100040 + 0x1000 * q + 0x1C0 * r + 4 * n) = 0x40 + 0x1C0 * r + 4 * n := by simp only [offOf]; omega
  have hinfo : ∀ k < 24, pageInfo (Pg.CTX k) = some (.ctxB, k) := by decide
  exact ⟨⟨by rw [hpage]; exact hinfo q hq, by omega, inRegs_iff.2 (by omega)⟩, hpage, hoff⟩

section
variable {l : List Nat} {d e : Dev} {c : Nat}

theorem FrameOn.ctxPlain (h : FrameOn hostPart l d e) (hc : c < 192) (hl : ∀ a ∈ ctxRegs c, a ∈ l) {n : Nat} (hn : n < 112) (mid : Nat) (w : Word) :
    FrameOn hostPart l d (e.plainWrite mid (ctxA c n) w) := by
  obtain ⟨hb, hpage, -⟩ := inBlock_ctx hc hn
  refine h.plainWrite hb (fun a ha => hl a ?_) mid w
  simp only [writeRegs, hpage, List.mem_cons, List.not_mem_nil, or_false] at ha
  obtain rfl | rfl | rfl := ha
  · exact ctxA_mem hn
  · simp [ctxRegs]
  · simp [ctxRegs]

theorem FrameOn.ctxEvent {p : Dev → Dev → Dev} (hp : Part p) (h : FrameOn p l d e) (hl : R.LEC_FLAG (c / 32) ∈ l) (src : Nat) :
    FrameOn p l d (e.ctxEvent c src) := (h.orReg hp _ hl).quiet hp (Dev.raiseN_quiet _ _ _ _)

variable (hl : ∀ a ∈ ctxRegs c, a ∈ l)
include hl

theorem FrameOn.ctxDiscard (h : FrameOn hostPart l d e) : FrameOn hostPart l d (e.ctxDiscard c) := by
  have hset := h.hostCtx c { e.ctxS c with pend := none }
  have hspec : R.CTX_SPEC c ∈ l := hl _ ctxSpec_mem
  rw [Dev.ctxDiscard]
  cases (e.ctxS c).pend with
  | none => exact hset
  | some p => exact FrameOn.ite (fun _ => hset.put hostPart_part _ _ hspec) fun _ => hset

theorem FrameOn.ctxEnable (h : FrameOn hostPart l d e) (was : Bool) : FrameOn hostPart l d (e.ctxEnable c was) := by
  have hp := hostPart_part
  have hctrl : R.CTX_CTRL c ∈ l := hl _ ctxCtrl_mem
  have hspec : R.CTX_SPEC c ∈ l := hl _ ctxSpec_mem
  have hstat : R.CTX_STAT c ∈ l := hl _ ctxStat_mem
  have hflag : R.LEC_FLAG (c / 32) ∈ l := hl _ (by simp [ctxRegs])
  rw [Dev.ctxEnable]
  refine FrameOn.ite (fun _ => ?_) fun _ => ?_
  · have hfail := ((h.putB hp F.CTX_STAT_CFG_ERR true hstat).put hp F.CTX_STAT_CAUSE (e.ctxCause c) hstat).ctxEvent hp hflag Ev.CTX_CFG_ERR
    exact FrameOn.ite (fun _ => (hfail.putB hp _ _ hctrl).ctxDiscard hl) fun _ => hfail
  · refine FrameOn.hostCtx (FrameOn.putB hp (FrameOn.put hp (FrameOn.putB hp ?_ _ _ hctrl) _ _ hspec) _ _ hspec) c _
    exact (((h.putB hp _ _ hstat).put hp _ _ hstat).putB hp _ _ hstat).put hp _ _ hstat

theorem FrameOn.ctxCtrlWrite (h : FrameOn hostPart l d e) (hc : c < 192) (mid : Nat) (w : Word) : FrameOn hostPart l d (e.ctxCtrlWrite mid c w) := by
  have hp := hostPart_part
  have hpg : R.PG_STAT (Pg.CTX (c / 8)) ∈ l := hl _ (by simp [ctxRegs])
  have hplain := fun w' => h.ctxPlain hc hl (n := 0) (by decide) mid w'
  have hden := fun w' b => (hplain w').denyIf hp hpg b
  rw [Dev.ctxCtrlWrite]
  refine FrameOn.ite (fun _ => hden _ _) fun _ => FrameOn.ite (fun _ => ?_) fun _ => ?_
  · exact FrameOn.ite (fun _ => FrameOn.putB hp (hden _ _) _ _ hpg) fun _ => FrameOn.ctxEnable hl (hden _ _) _
  · exact FrameOn.ite (fun _ => FrameOn.ctxDiscard hl (hden _ _)) fun _ => hden _ _

omit hl in
theorem FrameOn.ctxMend (h : FrameOn hostPart l d e) (n : Nat) : FrameOn hostPart l d (e.ctxMend c n) :=
  FrameOn.ite (fun _ => h.hostCtx c _) fun _ => h

theorem FrameOn.ctxPoolWrite (h : FrameOn hostPart l d e) (hc : c < 192) {i : Nat} (hi : i < 60) (mid : Nat) (w : Word) :
    FrameOn hostPart l d (e.ctxPoolWrite mid c i w) := by
  have hpg : R.PG_STAT (Pg.CTX (c / 8)) ∈ l := hl _ (by simp [ctxRegs])
  have hplain := fun w' => h.ctxPlain hc hl (n := 52 + i) (by omega) mid w'
  have ha : R.CTX_POOL c i = ctxA c (52 + i) := by simp only [R.CTX_POOL, ctxA, R.CTX_CTRL]; omega
  rw [Dev.ctxPoolWrite, ha]
  exact FrameOn.ite (fun _ => h.putB hostPart_part _ _ hpg) fun _ => hplain _

/-- A write of a context's word by the bus: of CTRL, a CMD or a POOL word. -/
theorem FrameOn.ctxWrite (h : FrameOn hostPart l d e) (hlive : e.replaying = false) (hc : c < 192) {n : Nat}
    (hn : n = 0 ∨ (36 ≤ n ∧ n < 40) ∨ (52 ≤ n ∧ n < 112)) (mid : Nat) (w : Word) : FrameOn hostPart l d (e.pWrite mid (ctxA c n) w) := by
  have hn112 : n < 112 := by omega
  obtain ⟨hb, -, hoff⟩ := inBlock_ctx hc hn112
  have hctx : 8 * (c / 8) + (0x40 + 0x1C0 * (c % 8) + 4 * n - 0x40) / 0x1C0 = c := by omega
  have hword : (0x40 + 0x1C0 * (c % 8) + 4 * n - 0x40) % 0x1C0 / 4 = n := by omega
  refine h.pWrite hlive hb (hl _ (by simp [ctxRegs])) ?_
  have hroute : e.routeWrite mid .ctxB (c / 8) (offOf (ctxA c n)) (ctxA c n) w = e.ctxPageWrite mid (c / 8) (offOf (ctxA c n)) (ctxA c n) w := rfl
  rw [hroute, hoff, Dev.ctxPageWrite, hctx, hword]
  have hmend : FrameOn hostPart l d (if 0x40 + 0x1C0 * (c % 8) + 4 * n < 0xE40 ∧ e.ctxTaken mid c n (ctxA c n) = true then e.ctxMend c n else e) :=
    FrameOn.ite (fun _ => h.ctxMend n) fun _ => h
  rw [if_neg (show ¬0xE40 ≤ 0x40 + 0x1C0 * (c % 8) + 4 * n by omega)]
  generalize (if 0x40 + 0x1C0 * (c % 8) + 4 * n < 0xE40 ∧ e.ctxTaken mid c n (ctxA c n) = true then e.ctxMend c n else e) = u at hmend ⊢
  obtain rfl | hcmd | hpool := hn
  · exact hmend.ctxCtrlWrite hl hc mid w
  · rw [if_neg (by omega), if_neg (by omega), if_neg (by omega), if_pos hcmd]
    exact FrameOn.ite (fun _ => hmend.ctxPlain hc hl hn112 _ _) fun _ => hmend.ctxPlain hc hl hn112 _ _
  · rw [if_neg (by omega), if_neg (by omega), if_neg (by omega), if_neg (by omega), if_pos hpool.1]
    exact hmend.ctxPoolWrite hl hc (by omega) mid w

end

/-! ### A machine's contexts -/

section
variable {l : List Nat} {d e : Dev} {c : Nat} (hl : ∀ a ∈ ctxRegs c, a ∈ l)
include hl

omit hl in
theorem ctx_lt (h : e.ctxPresent c = true) : c < 192 := (of_decide_eq_true h).trans_le (by cases e.member <;> decide)

/-- A context enabled or disabled. -/
theorem FrameOn.mCtx (h : FrameOn hostPart l d e) (hlive : e.replaying = false) (on : Bool) : FrameOn hostPart l d (e.mCtx c on) := by
  refine FrameOn.ite (fun hc => ?_) fun _ => h
  rw [Bool.and_eq_true] at hc
  exact h.ctxWrite hl hlive (ctx_lt hc.1) (n := 0) (.inl rfl) _ _

/-- A demand written. -/
theorem FrameOn.mCmd (h : FrameOn hostPart l d e) (hlive : e.replaying = false) {k : Nat} (hk : k < 4) (x : Frac) :
    FrameOn hostPart l d (e.mCmd c k x) := by
  have ha : R.CTX_CMD c k = ctxA c (36 + k) := by simp only [R.CTX_CMD, ctxA, R.CTX_CTRL]; omega
  refine FrameOn.ite (fun hc => ?_) fun _ => h
  rw [ha]
  exact h.ctxWrite hl hlive (ctx_lt hc) (.inr (.inl ⟨by omega, by omega⟩)) _ _

/-- A pool word of a stage written. -/
theorem FrameOn.poolPut (h : FrameOn hostPart l d e) (hlive : e.replaying = false) (k n : Nat) (w : Word) :
    FrameOn hostPart l d (e.poolPut c k n w) := by
  rw [Dev.poolPut]
  generalize recPool (e.ctxWords c) k + n = i
  refine FrameOn.ite (fun hc => ?_) fun _ => h
  rw [Bool.and_eq_true, decide_eq_true_eq] at hc
  have ha : R.CTX_POOL c i = ctxA c (52 + i) := by simp only [R.CTX_POOL, ctxA, R.CTX_CTRL]; omega
  rw [ha]
  exact h.ctxWrite hl hlive (ctx_lt hc.1) (.inr (.inr ⟨by omega, by omega⟩)) _ _

end

end Sys2Proof.Machine
end

section
/-! PROOFS. A machine's own: pages that its operations write, what they change besides (R324, R331, R336). -/

namespace Sys2Proof.Machine

/-! ### Registers of a list of pages, but for the raw bits of their events -/

def pageRegs (P : List Nat) : List Nat := P.flatMap fun p => ((List.range 0x1000).filter (· != 0x10)).map (pageBase p + ·)

theorem mem_pageRegs {P : List Nat} {a : Nat} : a ∈ pageRegs P ↔ ∃ p ∈ P, ∃ o < 0x1000, o ≠ 0x10 ∧ pageBase p + o = a := by
  simp only [pageRegs, List.mem_flatMap, List.mem_map, List.mem_filter, List.mem_range, bne_iff_ne, ne_eq, and_assoc]

theorem pageRegs_of {P : List Nat} {p a : Nat} (hp : p ∈ P) (h : pageBase p ≤ a ∧ a < pageBase p + 0x1000 ∧ a ≠ pageBase p + 0x10) : a ∈ pageRegs P :=
  mem_pageRegs.2 ⟨p, hp, a - pageBase p, by omega, by omega, by omega⟩

theorem pgEvtRaw_not_page (P : List Nat) (q : Nat) : R.PG_EVT_RAW q ∉ pageRegs P := fun h => by
  obtain ⟨p, -, o, ho, hne, he⟩ := mem_pageRegs.1 h
  simp only [R.PG_EVT_RAW, pageBase] at he
  omega

theorem pageRegs_page {P : List Nat} {a : Nat} (h : a ∈ pageRegs P) (hP : ∀ p ∈ P, p < 0x200) : pageOf a ∈ P := by
  obtain ⟨p, hp, o, ho, -, rfl⟩ := mem_pageRegs.1 h
  rw [pageOf_base (hP p hp) ho]
  exact hp

/-! ### What a machine's operation may change -/

/-- The parts that a supervisor's write may change, the machines, and the continuations of SAFE_HOLD. -/
def machPart (d e : Dev) : Dev := { hostPart d e with mach := e.mach, safe := { d.safe with keep := e.safe.keep } }

theorem machPart_part : Part machPart := ⟨fun _ => rfl, fun _ _ _ => rfl, fun _ _ => rfl, fun _ _ _ => rfl⟩

theorem FrameOn.toMach {l : List Nat} {d e : Dev} (h : FrameOn hostPart l d e) : FrameOn machPart l d e :=
  h.widen hostPart_part machPart_part (fun _ _ => rfl) fun _ ha => ha

/-- Registers of a machine: its pages', but for those of the safety functions and of the system, of which it writes few. -/
def machRegs (d : Dev) (m : Nat) : List Nat :=
  [R.SYS_ABSENT_CNT, R.SAFE_FLAG, R.SAFE_OUT, R.SAFE_GRANT] ++ pageRegs ((machPages d m).filter fun p => p != Pg.SYS && p != Pg.SAFE)

theorem mem_machRegs {d : Dev} {m a : Nat} : a ∈ machRegs d m ↔ a = R.SYS_ABSENT_CNT ∨ a = R.SAFE_FLAG ∨ a = R.SAFE_OUT ∨ a = R.SAFE_GRANT ∨
    a ∈ pageRegs ((machPages d m).filter fun p => p != Pg.SYS && p != Pg.SAFE) := by
  simp only [machRegs, List.mem_append, List.mem_cons, List.not_mem_nil, or_false, or_assoc]

theorem pgEvtRaw_not_mach (d : Dev) (m q : Nat) : R.PG_EVT_RAW q ∉ machRegs d m := fun h => by
  obtain h | h | h | h | h := mem_machRegs.1 h
  · simp only [R.PG_EVT_RAW, pageBase, R.SYS_ABSENT_CNT] at h; omega
  · simp only [R.PG_EVT_RAW, pageBase, R.SAFE_FLAG] at h; omega
  · simp only [R.PG_EVT_RAW, pageBase, R.SAFE_OUT] at h; omega
  · simp only [R.PG_EVT_RAW, pageBase, R.SAFE_GRANT] at h; omega
  · exact pgEvtRaw_not_page _ _ h

/-- What a machine's operation keeps: the rest of the device, the other machines, its descriptor, the period of its last evaluation. -/
structure MachRun (m : Nat) (d e : Dev) : Prop where
  frame : FrameOn machPart (machRegs d m) d e
  others : ∀ j, j ≠ m → e.machS j = d.machS j
  md : (e.machS m).md = (d.machS m).md
  defd : (e.machS m).defd = (d.machS m).defd
  evalAt : (e.machS m).evalAt = (d.machS m).evalAt

theorem mdByte_lt (d : Dev) (m k : Nat) (f : RField) (hf : fieldWidth f = 8) : d.md m k f < 256 := by
  have h := getF_lt (d.mdWord m k) f
  rwa [hf] at h

theorem mMain_lt (d : Dev) (m : Nat) : d.mMain m < 256 := mdByte_lt d m 1 _ rfl
theorem mSpd_lt (d : Dev) (m : Nat) : d.mSpd m < 256 := mdByte_lt d m 1 _ rfl
theorem mCatch_lt (d : Dev) (m : Nat) : d.mCatch m < 256 := mdByte_lt d m 1 _ rfl

/-- The pages of a machine. -/
theorem mem_machPages {d : Dev} {m p : Nat} : p ∈ machPages d m ↔ p = Pg.PWT m ∨ p = Pg.PWT (m + 1) ∨ p = Pg.GDT ∨ p = Pg.GDA ∨ p = Pg.LEC ∨
    p = Pg.SAFE ∨ p = Pg.SYS ∨ p = Pg.CTX (d.mMain m / 8) ∨ p = Pg.CTX (d.mSpd m / 8) ∨ p = Pg.CTX (d.mCatch m / 8) := by
  simp only [machPages, List.mem_append, List.mem_cons, List.map_cons, List.map_nil, List.not_mem_nil, or_false, or_assoc]

theorem machPages_place {d : Dev} {m p : Nat} (hm : m < 20) (h : p ∈ machPages d m) : (0x80 ≤ p ∧ p ≤ 0x80 + m + 1) ∨ p = 0x98 ∨ p = 0x99 ∨ p = 0x60 ∨
    p = 0xA0 ∨ p = 0 ∨ (0x100 ≤ p ∧ p < 0x120) := by
  have h1 := mMain_lt d m
  have h2 := mSpd_lt d m
  have h3 := mCatch_lt d m
  rw [mem_machPages] at h
  simp only [Pg.PWT, Pg.GDT, Pg.GDA, Pg.LEC, Pg.SAFE, Pg.SYS, Pg.CTX] at h
  omega

theorem machPages_lt {d : Dev} {m p : Nat} (hm : m < 20) (h : p ∈ machPages d m) : p < 0x200 := by
  have := machPages_place hm h
  omega

/-- Where a machine's registers lie. -/
theorem machRegs_place {d : Dev} {m a : Nat} (hm : m < 20) (h : a ∈ machRegs d m) : (0x40080000 ≤ a ∧ a < 0x40082000 + 0x1000 * m) ∨
    (0x40098000 ≤ a ∧ a < 0x4009A000) ∨ (0x40060000 ≤ a ∧ a < 0x40061000) ∨ (0x40100000 ≤ a ∧ a < 0x40120000) ∨
    a = R.SYS_ABSENT_CNT ∨ a = R.SAFE_FLAG ∨ a = R.SAFE_OUT ∨ a = R.SAFE_GRANT := by
  obtain rfl | rfl | rfl | rfl | h := mem_machRegs.1 h
  · simp
  · simp
  · simp
  · simp
  · obtain ⟨p, hp, o, ho, -, rfl⟩ := mem_pageRegs.1 h
    obtain ⟨hp, hne⟩ := List.mem_filter.1 hp
    rw [Bool.and_eq_true, bne_iff_ne, bne_iff_ne] at hne
    have := machPages_place hm hp
    simp only [pageBase, Pg.SYS, Pg.SAFE] at hne ⊢
    omega

theorem rplStat_not_mach {d : Dev} {m : Nat} (hm : m < 20) : R.RPL_STAT ∉ machRegs d m := fun h => by
  have := machRegs_place hm h
  simp only [R.RPL_STAT, R.SYS_ABSENT_CNT, R.SAFE_FLAG, R.SAFE_OUT, R.SAFE_GRANT] at this
  omega

section
variable {m : Nat} {d e f : Dev}

theorem MachRun.refl (m : Nat) (d : Dev) : MachRun m d d := ⟨FrameOn.refl machPart_part _ d, fun _ _ => rfl, rfl, rfl, rfl⟩

theorem mdWord_of (h : (e.machS m).md = (d.machS m).md) (k : Nat) : e.mdWord m k = d.mdWord m k := by rw [Dev.mdWord, h]; rfl

theorem MachRun.mdWord (h : MachRun m d e) (k : Nat) : e.mdWord m k = d.mdWord m k := mdWord_of h.md k

theorem MachRun.mdF (h : MachRun m d e) (k : Nat) (f : RField) : e.md m k f = d.md m k f := congrArg (fun w => getF w f) (h.mdWord k)

theorem MachRun.mMain (h : MachRun m d e) : e.mMain m = d.mMain m := h.mdF 1 _
theorem MachRun.mSpd (h : MachRun m d e) : e.mSpd m = d.mSpd m := h.mdF 1 _
theorem MachRun.mCatch (h : MachRun m d e) : e.mCatch m = d.mCatch m := h.mdF 1 _

theorem MachRun.pages (h : MachRun m d e) : machPages e m = machPages d m := by rw [machPages, machPages, h.mMain, h.mSpd, h.mCatch]

theorem MachRun.regs (h : MachRun m d e) : machRegs e m = machRegs d m := by rw [machRegs, machRegs, h.pages]

theorem MachRun.trans (h : MachRun m d e) (k : MachRun m e f) : MachRun m d f :=
  ⟨h.frame.trans machPart_part (h.regs ▸ k.frame), fun j hj => (k.others j hj).trans (h.others j hj), k.md.trans h.md, k.defd.trans h.defd,
    k.evalAt.trans h.evalAt⟩

theorem MachRun.reg (h : MachRun m d e) {a : Nat} (ha : eventReg a = false) (hl : a ∉ machRegs d m) : e.reg a = d.reg a :=
  h.frame.reg machPart_part ha hl

theorem MachRun.raised (h : MachRun m d e) {page src : Nat} (hr : Raised d page src) : Raised e page src :=
  h.frame.raised machPart_part (pgEvtRaw_not_mach _ _ _) hr

theorem FrameOn.machGtc {l : List Nat} (h : FrameOn machPart l d e) : e.gtc = d.gtc := (congrArg Dev.gtc h.1 :)
theorem FrameOn.machMember {l : List Nat} (h : FrameOn machPart l d e) : e.member = d.member := (congrArg Dev.member h.1 :)
theorem FrameOn.machTrk {l : List Nat} (h : FrameOn machPart l d e) : e.trk = d.trk := (congrArg Dev.trk h.1 :)
theorem FrameOn.hostMach {l : List Nat} (h : FrameOn hostPart l d e) : e.mach = d.mach := (congrArg Dev.mach h.1 :)
theorem FrameOn.hostGtc {l : List Nat} (h : FrameOn hostPart l d e) : e.gtc = d.gtc := (congrArg Dev.gtc h.1 :)
theorem FrameOn.hostMember {l : List Nat} (h : FrameOn hostPart l d e) : e.member = d.member := (congrArg Dev.member h.1 :)
theorem FrameOn.hostSafe {l : List Nat} (h : FrameOn hostPart l d e) : e.safe = d.safe := (congrArg Dev.safe h.1 :)

theorem FrameOn.hostMachS {l : List Nat} (h : FrameOn hostPart l d e) (j : Nat) : e.machS j = d.machS j := congrArg (fun l => spGet _ l j) h.hostMach

theorem MachRun.gtc (h : MachRun m d e) : e.gtc = d.gtc := h.frame.machGtc
theorem MachRun.member (h : MachRun m d e) : e.member = d.member := h.frame.machMember
theorem MachRun.ctxPresent (h : MachRun m d e) (c : Nat) : e.ctxPresent c = d.ctxPresent c := by rw [Dev.ctxPresent, h.member]; rfl

theorem MachRun.live (h : MachRun m d e) (hm : m < 20) : e.replaying = d.replaying :=
  Dev.flag_of_reg (h.reg (by decide) (rplStat_not_mach hm)) _

theorem MachRun.secOf (h : MachRun m d e) (hm : m < 20) : e.secOf m = d.secOf m := by
  by_cases hlt : m < 12
  · have hpair : e.reg R.PWG_PAIR = d.reg R.PWG_PAIR := h.reg (by decide) fun hx => by
      have := machRegs_place hm hx
      simp only [R.PWG_PAIR, R.SYS_ABSENT_CNT, R.SAFE_FLAG, R.SAFE_OUT, R.SAFE_GRANT] at this
      omega
    rw [Dev.secOf, Dev.secOf, hpair]
  · rw [Dev.secOf, Dev.secOf, if_neg fun hx => hlt hx.1, if_neg fun hx => hlt hx.1]

theorem MachRun.groups (h : MachRun m d e) (hm : m < 20) : e.mGroups m = d.mGroups m := by
  rw [Dev.mGroups, Dev.mGroups, Dev.mSix, Dev.mSix, h.mdF, h.secOf hm]

theorem MachRun.mSix (h : MachRun m d e) : e.mSix m = d.mSix m := by rw [Dev.mSix, Dev.mSix, h.mdF]
theorem MachRun.mSensorless (h : MachRun m d e) : e.mSensorless m = d.mSensorless m := by rw [Dev.mSensorless, Dev.mSensorless, h.mdF]

/-- A supervisor's write on a machine's pages is a step of it. -/
theorem MachRun.host {l : List Nat} (k : FrameOn hostPart l d e) (hl : ∀ a ∈ l, a ∈ machRegs d m) : MachRun m d e :=
  ⟨(k.widen hostPart_part hostPart_part (fun _ _ => rfl) hl).toMach, fun j _ => k.hostMachS j, congrArg MachSt.md (k.hostMachS m),
    congrArg MachSt.defd (k.hostMachS m), congrArg MachSt.evalAt (k.hostMachS m)⟩

theorem MachRun.of_quiet (h : Quiet d e) : MachRun m d e :=
  ⟨FrameOn.of_quiet machPart_part _ h, fun j _ => h.machS j, congrArg MachSt.md (h.machS m), congrArg MachSt.defd (h.machS m),
    congrArg MachSt.evalAt (h.machS m)⟩

theorem MachRun.setReg (d : Dev) {a : Nat} (w : Word) (ha : a ∈ machRegs d m) : MachRun m d (d.setReg a w) :=
  ⟨(FrameOn.refl machPart_part _ d).setReg machPart_part w ha, fun _ _ => d.machS_setReg a _ w, congrArg MachSt.md (d.machS_setReg a m w),
    congrArg MachSt.defd (d.machS_setReg a m w), congrArg MachSt.evalAt (d.machS_setReg a m w)⟩

theorem MachRun.setMach (d : Dev) (v : MachSt) (hmd : v.md = (d.machS m).md) (hd : v.defd = (d.machS m).defd)
    (he : v.evalAt = (d.machS m).evalAt) : MachRun m d (d.setMach m v) := by
  refine ⟨(FrameOn.refl machPart_part _ d).part machPart_part rfl fun _ => rfl, fun j hj => ?_, ?_, ?_, ?_⟩
  · rw [Dev.machS_setMach, if_neg hj]
  · rw [Dev.machS_setMach_self, hmd]
  · rw [Dev.machS_setMach_self, hd]
  · rw [Dev.machS_setMach_self, he]

theorem MachRun.setMStat (d : Dev) (f : RField) (v : Nat) : MachRun m d (d.setMStat m f v) := .setMach d _ rfl rfl rfl

theorem MachRun.setCtx (d : Dev) (c : Nat) (v : CtxSt) : MachRun m d (d.setCtx c v) :=
  .host ((FrameOn.refl hostPart_part (machRegs d m) d).hostCtx c v) fun _ ha => ha

theorem MachRun.ite {c : Prop} [Decidable c] (h : c → MachRun m d e) (g : ¬c → MachRun m d f) : MachRun m d (if c then e else f) := by
  split
  · next hc => exact h hc
  · next hc => exact g hc

theorem machRegs_page {a : Nat} (hm : m < 20) (h : a ∈ machRegs d m) : pageOf a ∈ machPages d m := by
  obtain rfl | rfl | rfl | rfl | h := mem_machRegs.1 h
  · exact mem_machPages.2 (by simp [pageOf, R.SYS_ABSENT_CNT, Pg.SYS])
  · exact mem_machPages.2 (by simp [pageOf, R.SAFE_FLAG, Pg.SAFE])
  · exact mem_machPages.2 (by simp [pageOf, R.SAFE_OUT, Pg.SAFE])
  · exact mem_machPages.2 (by simp [pageOf, R.SAFE_GRANT, Pg.SAFE])
  · exact (List.mem_filter.1 (pageRegs_page h fun p hp => machPages_lt hm (List.mem_filter.1 hp).1)).1

/-- A machine's operations change what `MachOnly` lets them. -/
theorem MachRun.only (h : MachRun m d e) (hm : m < 20) : MachOnly d e m :=
  ⟨⟨h.frame.1, fun _ ha hp => h.reg ha fun hx => hp (machRegs_page hm hx)⟩, h.others⟩

end

/-! ### Registers on a machine's pages -/

section
variable {m : Nat} {d : Dev}

theorem machRegs_safe {a : Nat} (h : a = R.SAFE_FLAG ∨ a = R.SAFE_OUT ∨ a = R.SAFE_GRANT) : a ∈ machRegs d m := by
  rw [mem_machRegs]
  obtain rfl | rfl | rfl := h <;> simp

/-- A register on one of the machine's other pages. -/
theorem machRegs_of {p a : Nat} (hp : p ∈ machPages d m) (hne : p ≠ Pg.SYS ∧ p ≠ Pg.SAFE)
    (h : pageBase p ≤ a ∧ a < pageBase p + 0x1000 ∧ a ≠ pageBase p + 0x10) : a ∈ machRegs d m :=
  mem_machRegs.2 (.inr (.inr (.inr (.inr (pageRegs_of (List.mem_filter.2 ⟨hp, by simp [hne.1, hne.2]⟩) h)))))

theorem machRegs_gdt {a : Nat} (h : 0x40098000 ≤ a ∧ a < 0x40099000 ∧ a ≠ 0x40098010) : a ∈ machRegs d m :=
  machRegs_of (p := Pg.GDT) (mem_machPages.2 (by simp)) (by decide) (by simp only [pageBase, Pg.GDT]; omega)

theorem machRegs_gda {a : Nat} (h : 0x40099000 ≤ a ∧ a < 0x4009A000 ∧ a ≠ 0x40099010) : a ∈ machRegs d m :=
  machRegs_of (p := Pg.GDA) (mem_machPages.2 (by simp)) (by decide) (by simp only [pageBase, Pg.GDA]; omega)

theorem machRegs_lec {a : Nat} (h : 0x40060000 ≤ a ∧ a < 0x40061000 ∧ a ≠ 0x40060010) : a ∈ machRegs d m :=
  machRegs_of (p := Pg.LEC) (mem_machPages.2 (by simp)) (by decide) (by simp only [pageBase, Pg.LEC]; omega)

theorem machRegs_absent : R.SYS_ABSENT_CNT ∈ machRegs d m := mem_machRegs.2 (.inl rfl)

/-- The groups of a machine: itself, and the one after it. -/
theorem mem_mGroups {g : Nat} (h : g ∈ d.mGroups m) : g = m ∨ g = m + 1 := by
  rw [Dev.mGroups] at h
  split at h
  · split at h
    · next s hs =>
      rw [Dev.secOf] at hs
      split at hs
      · rw [List.mem_cons, List.mem_singleton] at h
        have := Option.some.inj hs
        omega
      · cases hs
    · exact .inl (List.mem_singleton.1 h)
  · exact .inl (List.mem_singleton.1 h)

theorem machRegs_pwt {g a : Nat} (hm : m < 20) (hg : g ∈ d.mGroups m) (h : 0x40080000 + 0x1000 * g ≤ a ∧ a < 0x40081000 + 0x1000 * g ∧ a ≠ 0x40080010 + 0x1000 * g) :
    a ∈ machRegs d m := by
  have hlt := mGroups_lt hm g hg
  refine machRegs_of (p := Pg.PWT g) (mem_machPages.2 ?_) (by simp only [Pg.PWT, Pg.SYS, Pg.SAFE]; omega) (by simp only [pageBase, Pg.PWT]; omega)
  obtain rfl | rfl := mem_mGroups hg <;> simp

theorem machRegs_force {g : Nat} (hm : m < 20) (hg : g ∈ d.mGroups m) : ∀ a ∈ forceRegs g, a ∈ machRegs d m := by
  intro a ha
  simp only [forceRegs, List.mem_append, List.mem_map, List.mem_range, List.mem_cons, List.not_mem_nil, or_false] at ha
  obtain ⟨x, hx, rfl⟩ | rfl | rfl := ha
  · exact machRegs_pwt hm hg (by simp only [R.PWT_LEG]; omega)
  · exact machRegs_pwt hm hg (by simp only [R.PG_STAT, pageBase, Pg.PWT]; omega)
  · exact machRegs_absent

theorem machRegs_enable {g : Nat} (hm : m < 20) (hg : g ∈ d.mGroups m) : ∀ a ∈ enableRegs g, a ∈ machRegs d m := by
  intro a ha
  have hlt := mGroups_lt hm g hg
  simp only [enableRegs, List.mem_cons, List.not_mem_nil, or_false] at ha
  obtain rfl | rfl := ha
  · exact machRegs_gdt (by simp only [R.GDT_PINS]; omega)
  · exact machRegs_gda (by decide)

theorem machRegs_rel {g : Nat} (hg : g < 20) : ∀ a ∈ relRegs g, a ∈ machRegs d m := by
  intro a ha
  obtain rfl | rfl | h := relRegs_place hg ha
  · exact machRegs_gdt (by decide)
  · exact machRegs_gda (by decide)
  · by_cases hlt : a < 0x40099000
    · exact machRegs_gdt (by omega)
    · exact machRegs_gda (by omega)

/-- A context of a machine. -/
def mUses (d : Dev) (m c : Nat) : Prop := c = d.mMain m ∨ c = d.mSpd m ∨ c = d.mCatch m

theorem machRegs_ctx {c : Nat} (h : mUses d m c) : ∀ a ∈ ctxRegs c, a ∈ machRegs d m := by
  have hpage : Pg.CTX (c / 8) ∈ machPages d m := by
    rw [mem_machPages]
    obtain rfl | rfl | rfl := h <;> simp
  have hctx : Pg.CTX (c / 8) ≠ Pg.SYS ∧ Pg.CTX (c / 8) ≠ Pg.SAFE := by
    simp only [Pg.CTX, Pg.SYS, Pg.SAFE]
    omega
  have hlt : c < 256 := by
    obtain rfl | rfl | rfl := h
    · exact mMain_lt d m
    · exact mSpd_lt d m
    · exact mCatch_lt d m
  intro a ha
  simp only [ctxRegs, List.mem_append, List.mem_map, List.mem_range, List.mem_cons, List.not_mem_nil, or_false] at ha
  obtain ⟨n, hn, rfl⟩ | rfl | rfl | rfl := ha
  · exact machRegs_of hpage hctx (by simp only [ctxA, R.CTX_CTRL, pageBase, Pg.CTX]; omega)
  · exact machRegs_lec (by simp only [R.LEC_FLAG]; omega)
  · exact machRegs_of hpage hctx (by simp only [R.PG_STAT, pageBase, Pg.CTX]; omega)
  · exact machRegs_absent

end

end Sys2Proof.Machine
end

section
/-! PROOFS. The operations that a machine's transitions are made of, as steps of the machine (R331 to R345). -/

namespace Sys2Proof.Machine

section
variable {m : Nat} {d e f : Dev}

/-! ### Forces, enables, contexts -/

theorem MachRun.mUses (h : MachRun m d e) {c : Nat} (hc : mUses d m c) : mUses e m c := by
  rw [Machine.mUses, h.mMain, h.mSpd, h.mCatch]
  exact hc

theorem mUses_main : mUses d m (d.mMain m) := .inl rfl
theorem mUses_spd : mUses d m (d.mSpd m) := .inr (.inl rfl)
theorem mUses_catch : mUses d m (d.mCatch m) := .inr (.inr rfl)

theorem MachRun.machEvent (h : MachRun m d e) (src : Nat) : MachRun m d (e.machEvent m src) :=
  h.trans (((MachRun.setReg e _ (machRegs_safe (by decide)))).trans (.of_quiet (Dev.raiseN_quiet _ _ _ _)))

theorem MachRun.disP (h : MachRun m d e) : MachRun m d e.disP := h.trans (.setReg e _ (machRegs_safe (by decide)))

theorem MachRun.mStat (h : MachRun m d e) (f : RField) (v : Nat) : MachRun m d (e.setMStat m f v) := h.trans (.setMStat e f v)

section
variable (hm : m < 20)
include hm

theorem MachRun.mDrop (h : MachRun m d e) : MachRun m d (e.mDrop m) :=
  h.trans (.host (e.mDrop_frame fun _ hg => machRegs_enable hm hg) fun _ ha => ha)

theorem MachRun.mGrant (h : MachRun m d e) : MachRun m d (e.mGrant m) :=
  h.trans (.host (e.mGrant_frame fun _ hg => machRegs_enable hm hg) fun _ ha => ha)

variable (hlive : d.replaying = false)
include hlive

theorem MachRun.mForce (h : MachRun m d e) (code : Nat) (imm : Bool) : MachRun m d (e.mForce m code imm) :=
  h.trans (.host (e.mForce_frame ((h.live hm).trans hlive) (rplStat_not_mach hm) hm (fun _ hg => machRegs_force hm hg) code imm) fun _ ha => ha)

/-! What a machine writes into its contexts, as supervisor's writes on its pages. -/

theorem MachRun.ctxFrame (h : MachRun m d e) {c : Nat} (hc : Machine.mUses d m c) (on : Bool) : FrameOn hostPart (machRegs e m) e (e.mCtx c on) :=
  (FrameOn.refl hostPart_part _ e).mCtx (machRegs_ctx (h.mUses hc)) ((h.live hm).trans hlive) on

theorem MachRun.cmdFrame (h : MachRun m d e) {c : Nat} (hc : Machine.mUses d m c) {k : Nat} (hk : k < 4) (x : Frac) :
    FrameOn hostPart (machRegs e m) e (e.mCmd c k x) :=
  (FrameOn.refl hostPart_part _ e).mCmd (machRegs_ctx (h.mUses hc)) ((h.live hm).trans hlive) hk x

theorem MachRun.poolFrame (h : MachRun m d e) {c : Nat} (hc : Machine.mUses d m c) (k n : Nat) (w : Word) :
    FrameOn hostPart (machRegs e m) e (e.poolPut c k n w) :=
  (FrameOn.refl hostPart_part _ e).poolPut (machRegs_ctx (h.mUses hc)) ((h.live hm).trans hlive) k n w

/-- A pool word written where it lies (R341). -/
theorem MachRun.wordFrame (h : MachRun m d e) {c i : Nat} (hc : Machine.mUses d m c) (hp : e.ctxPresent c = true) (hi : i < 60) (w : Word) :
    FrameOn hostPart (machRegs e m) e (e.pWrite Mid.S0 (R.CTX_POOL c i) w) := by
  have ha : R.CTX_POOL c i = ctxA c (52 + i) := by simp only [R.CTX_POOL, ctxA, R.CTX_CTRL]; omega
  rw [ha]
  exact (FrameOn.refl hostPart_part _ e).ctxWrite (machRegs_ctx (h.mUses hc)) ((h.live hm).trans hlive) (ctx_lt hp)
    (.inr (.inr ⟨by omega, by omega⟩)) _ _

theorem MachRun.mCtx (h : MachRun m d e) {c : Nat} (hc : Machine.mUses d m c) (on : Bool) : MachRun m d (e.mCtx c on) :=
  h.trans (.host (h.ctxFrame hm hlive hc on) fun _ ha => ha)

theorem MachRun.mCtxOff (h : MachRun m d e) : MachRun m d (e.mCtxOff m) := by
  have h1 : MachRun m d (e.mCtx (e.mMain m) false) := h.mCtx hm hlive (h.mMain ▸ mUses_main) false
  exact h1.mCtx hm hlive (h.mCatch ▸ mUses_catch) false

omit hm hlive in
/-- A fold of pool words. -/
theorem MachRun.foldl {α : Type} {l : List α} {f : Dev → α → Dev} (hf : ∀ x ∈ l, ∀ e, MachRun m d e → MachRun m d (f e x)) (h : MachRun m d e) :
    MachRun m d (l.foldl f e) := foldl_keeps (P := MachRun m d) hf h

end

/-! ### Transitions -/

theorem MachRun.setGenM (h : MachRun m d e) {g : Nat} (hl : ∀ a ∈ enableRegs g, a ∈ machRegs e m) (b : Bool) : MachRun m d (e.setGenM g b) :=
  h.trans (.host ((FrameOn.refl hostPart_part _ e).setGenM hl b) fun _ ha => ha)

theorem enableRegs_mach {g : Nat} (hg : g < 20) : ∀ a ∈ enableRegs g, a ∈ machRegs d m := by
  intro a ha
  simp only [enableRegs, List.mem_cons, List.not_mem_nil, or_false] at ha
  obtain rfl | rfl := ha
  · exact machRegs_gdt (by simp only [R.GDT_PINS]; omega)
  · exact machRegs_gda (by decide)

theorem secOf_lt {g s : Nat} (h : d.secOf g = some s) : s < 12 := by
  rw [Dev.secOf] at h
  split at h
  · have := Option.some.inj h
    omega
  · cases h

theorem MachRun.keep (d : Dev) (k : Nat) : MachRun m d { d with safe := { d.safe with keep := k } } :=
  ⟨(FrameOn.refl machPart_part _ d).part machPart_part rfl fun _ => rfl, fun _ _ => rfl, rfl, rfl, rfl⟩

theorem MachRun.keepEnds (h : MachRun m d e) (hm : m < 20) : MachRun m d (e.keepEnds m) := by
  refine MachRun.ite (fun _ => ?_) fun _ => h
  have h1 := (h.trans (.keep e (e.safe.keep - 2 ^ m)))
  have h2 := h1.trans (.setReg _ (setBit (e.reg R.SAFE_GRANT) m false) (machRegs_safe (by decide) : R.SAFE_GRANT ∈ machRegs _ m))
  refine foldl_keeps (P := MachRun m d) (fun g hg u hu => hu.setGenM (enableRegs_mach ?_) false) h2
  rw [List.mem_cons, Option.mem_toList] at hg
  obtain rfl | hs := hg
  · exact hm
  · have := secOf_lt hs
    omega

/-- The machine's record after a transition. -/
def Dev.goneTo (d : Dev) (m new cause : Nat) : MachSt :=
  let s := d.machS m
  let old := getF s.stat F.MD_STATE
  let w := setF (setF (setF s.stat F.MD_PREV old) F.MD_STATE new) F.MD_CAUSE cause
  let w := if cause = 1 then setF w F.MD_LEG_CAUSE (d.firstCause m) else w
  let low := new = MS.STO ∨ new = MS.FAULT ∨ new = MS.OFF ∨ new = MS.CATCH
  let w := if low then setF (setF w F.MD_DEGRADED 0) F.MD_SET 0 else w
  let w := if new = MS.DISCHARGE then setF w F.MD_DIS_LATE 0 else w
  let turn := (old == MS.START || old == MS.RUN) && (new == MS.START || new == MS.RUN)
  { s with
    stat := w
    since := d.gtc
    target := none
    armed := false
    ready := none
    winAt := if new = MS.START then some d.gtc else none
    rev := false
    retryAt := none
    emfAt := none
    again := false
    slowAt := none
    badN := if drives old && drives new then s.badN else 0
    spdPrev := if drives old && drives new then s.spdPrev else none
    lockFrom := if turn then s.lockFrom else none
    secAt := if turn then s.secAt else []
    sector := if turn then s.sector else none
    ramp := if new = MS.START then some (d.gtc, fzero) else none
    wind := false }

/-- The STATE record of a transition. -/
def Dev.goRec (d : Dev) (m new cause : Nat) : RecRec :=
  { ty := 0x23, res := m, tick := d.gtc, data := [BitVec.ofNat 32 (cause * 2 ^ 8 + getF (d.machS m).stat F.MD_STATE * 16 + new)] }

/-- A transition: the record, the continuation that ends, the event. -/
theorem Dev.machGo_eq (d : Dev) (m new cause : Nat) : d.machGo m new cause =
    ((((d.setMach m (d.goneTo m new cause)).emitProt (d.goRec m new cause)).keepEnds m).orReg R.SAFE_FLAG (bitWord m)).raiseN
      Pg.SAFE Ev.MACH_STATE (m + new * 2 ^ 8) := rfl

theorem MachRun.machGo (h : MachRun m d e) (hm : m < 20) (new cause : Nat) : MachRun m d (e.machGo m new cause) := by
  rw [Dev.machGo_eq]
  have h1 := (h.trans (.setMach e (e.goneTo m new cause) rfl rfl rfl)).trans (.of_quiet (Dev.emitProt_quiet _ (e.goRec m new cause)))
  exact ((h1.keepEnds hm).trans (.setReg _ _ (machRegs_safe (by decide)))).trans (.of_quiet (Dev.raiseN_quiet _ _ _ _))

section
variable (hm : m < 20) (hlive : d.replaying = false)
include hm hlive

theorem MachRun.toSto (h : MachRun m d e) (cause : Nat) : MachRun m d (e.toSto m cause) :=
  ((((h.mDrop hm).mForce hm hlive 1 true).mCtxOff hm hlive).machGo hm MS.STO cause).disP

theorem MachRun.toFault (h : MachRun m d e) (cause : Nat) : MachRun m d (e.toFault m cause) :=
  ((((h.mDrop hm).mForce hm hlive 1 true).mCtxOff hm hlive).machGo hm MS.FAULT cause).disP

theorem MachRun.toStoFault (h : MachRun m d e) (cause : Nat) : MachRun m d (e.toStoFault m cause) :=
  .ite (fun _ => h.toFault hm hlive cause) fun _ => h.toSto hm hlive cause

theorem MachRun.toCatch (h : MachRun m d e) (cause : Nat) : MachRun m d (e.toCatch m cause) := by
  have h1 := ((((h.mDrop hm).mForce hm hlive 1 true).mCtxOff hm hlive).machGo hm MS.CATCH cause).disP
  exact .ite (fun _ => h1.mCtx hm hlive (h1.mCatch ▸ mUses_catch) true) fun _ => h1

theorem MachRun.toAsc (h : MachRun m d e) (cause : Nat) : MachRun m d (e.toAsc m cause) := (h.mCtxOff hm hlive).machGo hm MS.ASC cause

/-! ### Arming -/

theorem MachRun.armBegin (h : MachRun m d e) (target : Nat) : MachRun m d (e.armBegin m target) :=
  ((h.mForce hm hlive 1 true).mGrant hm).trans (.setMach _ _ rfl rfl rfl)

theorem MachRun.armDone (h : MachRun m d e) : MachRun m d (e.armDone m) := (h.mForce hm hlive 0 false).trans (.setMach _ _ rfl rfl rfl)

theorem MachRun.armFail (h : MachRun m d e) : MachRun m d (e.armFail m) := by
  refine MachRun.machEvent (MachRun.ite (fun _ => ?_) fun _ => h.toSto hm hlive 5) _
  refine MachRun.trans (MachRun.trans ((h.mDrop hm).mCtxOff hm hlive) (.setMach _ _ (by rfl) (by rfl) (by rfl))) (.setMStat _ _ _)

theorem MachRun.armAbort (h : MachRun m d e) : MachRun m d (e.armAbort m) :=
  (((h.mDrop hm).mForce hm hlive 1 true).mCtxOff hm hlive).trans (.setMach _ _ rfl rfl rfl)

theorem MachRun.catchArm (h : MachRun m d e) : MachRun m d (e.catchArm m) := by
  rw [Dev.catchArm]
  split
  · exact .ite (fun _ => h.armBegin hm hlive _) fun _ => h
  · exact h

/-! ### Presets, ramps, modes (R328, R341 to R345) -/

/-- A machine's record but for what its ramp keeps. -/
def MachSt.offRamp (q : MachSt) : MachSt := { q with rampOld := [] }

/-- A step of a machine that leaves its record, but for what its ramp keeps. -/
structure MachPrep (m : Nat) (d e : Dev) : Prop where
  run : MachRun m d e
  kept : (e.machS m).offRamp = (d.machS m).offRamp

omit hm hlive in
theorem MachPrep.refl (m : Nat) (d : Dev) : MachPrep m d d := ⟨.refl m d, rfl⟩

omit hm hlive in
theorem MachPrep.host (h : MachPrep m d e) (k : FrameOn hostPart (machRegs e m) e f) : MachPrep m d f :=
  ⟨h.run.trans (.host k fun _ ha => ha), (congrArg MachSt.offRamp (k.hostMachS m)).trans h.kept⟩

omit hm hlive in
theorem MachPrep.ite {c : Prop} [Decidable c] (h : c → MachPrep m d e) (g : ¬c → MachPrep m d f) : MachPrep m d (if c then e else f) := by
  split
  · next hc => exact h hc
  · next hc => exact g hc

omit hm hlive in
/-- A fold of pool words. -/
theorem MachPrep.foldl {α : Type} {l : List α} {f : Dev → α → Dev} (hf : ∀ x ∈ l, ∀ e, MachPrep m d e → MachPrep m d (f e x)) (h : MachPrep m d e) :
    MachPrep m d (l.foldl f e) := foldl_keeps (P := MachPrep m d) hf h

omit hm hlive in
theorem MachPrep.setCtx (h : MachPrep m d e) (c : Nat) (v : CtxSt) : MachPrep m d (e.setCtx c v) :=
  h.host ((FrameOn.refl hostPart_part _ e).hostCtx c v)

omit hm hlive in
theorem MachPrep.rampOld (h : MachPrep m d e) (l : List (Nat × Word)) : MachPrep m d (e.setMach m { e.machS m with rampOld := l }) := by
  refine ⟨h.run.trans (.setMach e _ (by rfl) (by rfl) (by rfl)), ?_⟩
  rw [Dev.machS_setMach_self]
  exact h.kept

theorem MachPrep.mCtx (h : MachPrep m d e) {c : Nat} (hc : Machine.mUses d m c) (on : Bool) : MachPrep m d (e.mCtx c on) :=
  h.host (h.run.ctxFrame hm hlive hc on)

theorem MachPrep.mCmd (h : MachPrep m d e) {c : Nat} (hc : Machine.mUses d m c) {k : Nat} (hk : k < 4) (x : Frac) : MachPrep m d (e.mCmd c k x) :=
  h.host (h.run.cmdFrame hm hlive hc hk x)

theorem MachPrep.poolPut (h : MachPrep m d e) {c : Nat} (hc : Machine.mUses d m c) (k n : Nat) (w : Word) : MachPrep m d (e.poolPut c k n w) :=
  h.host (h.run.poolFrame hm hlive hc k n w)

theorem MachPrep.poolE (h : MachPrep m d e) {c : Nat} (hc : Machine.mUses d m c) (k n : Nat) (x : Frac) : MachPrep m d (e.poolE c k n x) :=
  h.poolPut hm hlive hc k n _

omit hm hlive in
theorem MachPrep.usesMain (h : MachPrep m d e) : Machine.mUses d m (e.mMain m) := .inl h.run.mMain
omit hm hlive in
theorem MachPrep.usesSpd (h : MachPrep m d e) : Machine.mUses d m (e.mSpd m) := .inr (.inl h.run.mSpd)
omit hm hlive in
theorem MachPrep.usesCatch (h : MachPrep m d e) : Machine.mUses d m (e.mCatch m) := .inr (.inr h.run.mCatch)

theorem MachPrep.zeroIntegrators (h : MachPrep m d e) {c : Nat} (hc : Machine.mUses d m c) : MachPrep m d (e.zeroIntegrators c) := by
  have hput : ∀ n, ∀ l : List Nat, ∀ u, MachPrep m d u → MachPrep m d (l.foldl (fun e k => e.poolPut c k n 0) u) := fun n l u hu =>
    MachPrep.foldl (fun k _ v hv => hv.poolPut hm hlive hc k n 0) hu
  exact hput 7 _ _ (hput 9 _ _ (hput 7 _ _ h))

theorem MachPrep.rampSet (h : MachPrep m d e) : MachPrep m d (e.rampSet m) :=
  .ite (fun _ => h) fun _ => MachPrep.foldl (fun k _ _ hu => hu.poolPut hm hlive h.usesMain k 3 _) (h.rampOld _)

theorem MachPrep.rampClear (h : MachPrep m d e) : MachPrep m d (e.rampClear m) :=
  .ite (fun _ => h) fun _ => MachPrep.foldl (fun x _ _ hu => hu.poolPut hm hlive hu.usesMain x.1 3 x.2) (h.rampOld [])

theorem MachPrep.rampRest (h : MachPrep m d e) : MachPrep m d (e.rampRest m) :=
  .ite (fun _ => h) fun _ => MachPrep.foldl (fun k _ _ hu => (hu.poolPut hm hlive h.usesMain k 5 0).poolPut hm hlive h.usesMain k 6 0) h

theorem MachPrep.mMode (h : MachPrep m d e) (mode : Nat) (x : Frac) : MachPrep m d (e.mMode m mode x) := by
  have h1 := (h.mCmd hm hlive h.usesMain (k := 2) (by decide) x).mCmd hm hlive h.usesMain (k := 3) (by decide) (frN mode)
  exact .ite (fun _ => h1.rampSet hm hlive) fun _ => h1.rampClear hm hlive

theorem MachPrep.putHover (h : MachPrep m d e) {c : Nat} (hc : Machine.mUses d m c) : MachPrep m d (e.putHover m c) :=
  .ite (fun _ => h) fun _ => MachPrep.foldl (fun k _ _ hu => hu.poolPut hm hlive hc k 2 _) h

/-- Preset words of a machine's main context. -/
theorem MachPrep.presetWords (h : MachPrep m d e) {c : Nat} (hc : Machine.mUses d m c) (hp : d.ctxPresent c = true) (l : List Word) (p : PresetSt) (t : Nat) :
    MachPrep m d ((presetWords l p t).foldl (fun (e : Dev) (x : Nat × Word) => e.pWrite Mid.S0 (R.CTX_POOL c x.1) x.2) e) := by
  refine MachPrep.foldl (fun x hx u hu => hu.host (hu.run.wordFrame hm hlive hc ((hu.run.ctxPresent c).trans hp) ?_ x.2)) h
  rw [Machine.presetWords, List.mem_filter] at hx
  exact of_decide_eq_true hx.2

/-- The stages of the preset, apart: the main context, the speed context. -/
def Dev.presetMain (d : Dev) (m : Nat) (w theta : Frac) : Dev :=
  let c := d.mMain m
  let l := d.ctxWords c
  if !d.ctxPresent c then d
    else if d.mSensorless m then
      let (ed, eq) := d.catchEmf m w theta
      let d := (axisPi l 0).foldl (fun e k => e.poolE c k 7 ed) d
      let d := (axisPi l 1).foldl (fun e k => e.poolE c k 7 (eq.sub (w.mul (recPsi l)))) d
      let p : PresetSt := { theta := theta, w := w, ts := d.catchTs m }
      let d := (Machine.presetWords l p d.gtc).foldl (fun (e : Dev) (x : Nat × Word) => e.pWrite Mid.S0 (R.CTX_POOL c x.1) x.2) d
      d.setCtx c { d.ctxS c with preset := some p }
    else (axisPi l 0 ++ axisPi l 1).foldl (fun e k => e.poolPut c k 7 0) d

def Dev.presetSpeed (d : Dev) (m : Nat) (w : Frac) : Dev :=
  let s := d.mSpd m
  if !d.ctxPresent s then d
  else
    let ls := d.ctxWords s
    let d := (stagesOf ls kPROFILE).foldl (fun e k =>
      (e.poolE s k 5 (w.div (frN (max 1 (e.mPp m))))).poolPut s k 6 0) d
    (stagesOf ls kPI).foldl (fun e k => e.poolPut s k 7 0) d

omit hm hlive in
theorem Dev.presetTurning_eq (e : Dev) (w theta : Frac) : e.presetTurning m w theta = (e.presetMain m w theta).presetSpeed m w := rfl

theorem MachPrep.presetMain (h : MachPrep m d e) (w theta : Frac) : MachPrep m d (e.presetMain m w theta) := by
  rw [Dev.presetMain]
  split
  · exact h
  · next hp =>
    rw [Bool.not_eq_true, Bool.not_eq_false', h.run.ctxPresent] at hp
    have hput : ∀ (l : List Nat) (x : Frac) u, MachPrep m d u → MachPrep m d (l.foldl (fun e' k => e'.poolE (e.mMain m) k 7 x) u) := fun l x u hu =>
      MachPrep.foldl (fun k _ v hv => hv.poolE hm hlive h.usesMain k 7 x) hu
    split
    · exact ((hput _ _ _ (hput _ _ _ h)).presetWords hm hlive h.usesMain hp _ _ _).setCtx _ _
    · exact MachPrep.foldl (fun k _ v hv => hv.poolPut hm hlive h.usesMain k 7 0) h

theorem MachPrep.presetSpeed (h : MachPrep m d e) (w : Frac) : MachPrep m d (e.presetSpeed m w) := by
  rw [Dev.presetSpeed]
  split
  · exact h
  · exact MachPrep.foldl (fun k _ v hv => hv.poolPut hm hlive h.usesSpd k 7 0)
      (MachPrep.foldl (fun k _ v hv => (hv.poolE hm hlive h.usesSpd k 5 _).poolPut hm hlive h.usesSpd k 6 0) h)

theorem MachPrep.presetTurning (h : MachPrep m d e) (w theta : Frac) : MachPrep m d (e.presetTurning m w theta) :=
  (h.presetMain hm hlive w theta).presetSpeed hm hlive w

/-- Contexts disabled, prepared, enabled again, around a preset of the machine. -/
theorem MachPrep.prepare (h : MachPrep m d e) (mode : Nat) (x : Frac) {f : Dev → Dev} (hf : ∀ u, MachPrep m d u → MachPrep m d (f u)) :
    MachPrep m d (e.prepare m mode x f) := by
  have h1 := ((h.mCtx hm hlive h.usesMain false).mCtx hm hlive h.usesSpd false).mCtx hm hlive h.usesCatch false
  rw [Dev.prepare]
  generalize ((e.mCtx (e.mMain m) false).mCtx (e.mSpd m) false).mCtx (e.mCatch m) false = u at h1 ⊢
  have h2 : MachPrep m d (u.setCtx (u.mMain m) { u.ctxS (u.mMain m) with preset := none }) := h1.setCtx _ _
  dsimp only
  generalize u.setCtx (u.mMain m) { u.ctxS (u.mMain m) with preset := none } = v at h2 ⊢
  have h3 := (hf _ (((h2.putHover hm hlive h2.usesMain).putHover hm hlive h2.usesSpd).putHover hm hlive h2.usesCatch)).mMode hm hlive mode x
  generalize (f (((v.putHover m (v.mMain m)).putHover m (v.mSpd m)).putHover m (v.mCatch m))).mMode m mode x = w at h3 ⊢
  exact (h3.mCtx hm hlive h3.usesSpd true).mCtx hm hlive h3.usesMain true

theorem MachRun.mMode (h : MachRun m d e) (mode : Nat) (x : Frac) : MachRun m d (e.mMode m mode x) :=
  h.trans ((MachPrep.refl m e).mMode hm ((h.live hm).trans hlive) mode x).run

/-! The presets of a machine that has been caught, before its contexts are enabled again. -/

theorem MachRun.prepareRest (h : MachRun m d e) (mode : Nat) (x : Frac) : MachPrep m e (e.prepare m mode x fun e => e.rampRest m) :=
  (MachPrep.refl m e).prepare hm ((h.live hm).trans hlive) mode x fun _ hu => hu.rampRest hm ((h.live hm).trans hlive)

theorem MachRun.prepareZero (h : MachRun m d e) (mode : Nat) (x : Frac) :
    MachPrep m e (e.prepare m mode x fun e => (e.zeroIntegrators (e.mMain m)).zeroIntegrators (e.mSpd m)) := by
  have hl := (h.live hm).trans hlive
  refine (MachPrep.refl m e).prepare hm hl mode x fun u hu => ?_
  exact (hu.zeroIntegrators hm hl hu.usesMain).zeroIntegrators hm hl hu.usesSpd

theorem MachRun.prepareTurning (h : MachRun m d e) (mode : Nat) (x w th : Frac) :
    MachPrep m e (e.prepare m mode x fun e => e.presetTurning m w th) :=
  (MachPrep.refl m e).prepare hm ((h.live hm).trans hlive) mode x fun _ hu => hu.presetTurning hm ((h.live hm).trans hlive) w th

end
end
end Sys2Proof.Machine
end

section
/-! PROOFS. The leg registers that a machine writes, and the steps of its evaluation (R334, R335, R340 to R351). -/

namespace Sys2Proof.Machine

/-! ### A group's ARM and LCMD written by the bus (R309 to R312) -/

/-- The registers that a write of a group's ARM or LCMD may change. -/
def legRegs (g : Nat) : List Nat := gdArm g :: gdLcmd g :: R.PG_STAT (gdPage g) :: R.SYS_ABSENT_CNT :: relRegs g

/-- Where a group's ARM and LCMD lie. -/
theorem inBlock_gd {g : Nat} (hg : g < 20) {k : Nat} (hk : k < 8) : ∃ b i,
    InBlock (if g < 12 then 0x40098100 + 0x20 * g + 4 * k else 0x40099100 + 0x20 * (g - 12) + 4 * k) b i ∧
    (g < 12 ∧ b = .gdtB ∨ 12 ≤ g ∧ b = .gdaB) ∧
    pageOf (if g < 12 then 0x40098100 + 0x20 * g + 4 * k else 0x40099100 + 0x20 * (g - 12) + 4 * k) = gdPage g ∧
    offOf (if g < 12 then 0x40098100 + 0x20 * g + 4 * k else 0x40099100 + 0x20 * (g - 12) + 4 * k) =
      (if g < 12 then 0x100 + 0x20 * g + 4 * k else 0x100 + 0x20 * (g - 12) + 4 * k) := by
  by_cases h : g < 12
  · simp only [if_pos h, gdPage]
    have hpage : pageOf (0x40098100 + 0x20 * g + 4 * k) = Pg.GDT := by simp only [pageOf, Pg.GDT]; omega
    have hoff : offOf (0x40098100 + 0x20 * g + 4 * k) = 0x100 + 0x20 * g + 4 * k := by simp only [offOf]; omega
    exact ⟨.gdtB, 0, ⟨by rw [hpage]; decide, by omega, inRegs_iff.2 (by omega)⟩, .inl ⟨h, rfl⟩, hpage, hoff⟩
  · simp only [if_neg h, gdPage]
    have hpage : pageOf (0x40099100 + 0x20 * (g - 12) + 4 * k) = Pg.GDA := by simp only [pageOf, Pg.GDA]; omega
    have hoff : offOf (0x40099100 + 0x20 * (g - 12) + 4 * k) = 0x100 + 0x20 * (g - 12) + 4 * k := by simp only [offOf]; omega
    exact ⟨.gdaB, 0, ⟨by rw [hpage]; decide, by omega, inRegs_iff.2 (by omega)⟩, .inr ⟨Nat.not_lt.1 h, rfl⟩, hpage, hoff⟩

theorem gdArm_at (g : Nat) : gdArm g = if g < 12 then 0x40098100 + 0x20 * g + 4 * 1 else 0x40099100 + 0x20 * (g - 12) + 4 * 1 := by
  rw [gdArm]
  split
  · simp only [R.GDT_ARM]; omega
  · simp only [R.GDA_ARM]; omega

theorem gdLcmd_at (g : Nat) : gdLcmd g = if g < 12 then 0x40098100 + 0x20 * g + 4 * 3 else 0x40099100 + 0x20 * (g - 12) + 4 * 3 := by
  rw [gdLcmd]
  split
  · simp only [R.GDT_LCMD]; omega
  · simp only [R.GDA_LCMD]; omega

/-- The registers that a write of ARM may change. -/
def armRegs (g : Nat) : List Nat := [gdArm g, R.PG_STAT (gdPage g), R.SYS_ABSENT_CNT]

theorem armRegs_sub (g : Nat) : ∀ a ∈ armRegs g, a ∈ legRegs g := by
  intro a ha
  simp only [armRegs, List.mem_cons, List.not_mem_nil, or_false] at ha
  obtain rfl | rfl | rfl := ha <;> simp [legRegs]

section
variable {l : List Nat} {d e : Dev} {g : Nat} (hg : g < 20)
include hg

theorem FrameOn.gdPlain (h : FrameOn hostPart l d e) (hstat : R.PG_STAT (gdPage g) ∈ l) (habs : R.SYS_ABSENT_CNT ∈ l) {k : Nat} (hk : k < 8)
    (ha : (if g < 12 then 0x40098100 + 0x20 * g + 4 * k else 0x40099100 + 0x20 * (g - 12) + 4 * k) ∈ l) (mid : Nat) (w : Word) :
    FrameOn hostPart l d (e.plainWrite mid (if g < 12 then 0x40098100 + 0x20 * g + 4 * k else 0x40099100 + 0x20 * (g - 12) + 4 * k) w) := by
  obtain ⟨b, i, hb, -, hpage, -⟩ := inBlock_gd hg hk
  refine h.plainWrite hb (fun a hx => ?_) mid w
  simp only [writeRegs, hpage, List.mem_cons, List.not_mem_nil, or_false] at hx
  obtain rfl | rfl | rfl := hx
  · exact ha
  · exact hstat
  · exact habs

theorem FrameOn.lcmdWrite (h : FrameOn hostPart l d e) (hl : ∀ a ∈ legRegs g, a ∈ l) (mid : Nat) (w : Word) :
    FrameOn hostPart l d (e.lcmdWrite mid g w) := by
  have hrel : ∀ a ∈ relRegs g, a ∈ l := fun a ha => hl a (by simp [legRegs, ha])
  have hplain : FrameOn hostPart l d (e.plainWrite mid (gdLcmd g) w) := by
    have hmem : gdLcmd g ∈ l := hl _ (by simp [legRegs])
    rw [gdLcmd_at] at hmem ⊢
    exact h.gdPlain hg (hl _ (by simp [legRegs])) (hl _ (by simp [legRegs])) (by decide) hmem mid w
  have hdo : ∀ u, FrameOn hostPart l d u → FrameOn hostPart l d ((u.relMask g (getF w F.GDT_LCMD_REL) 0xA).clearMask g (getF w F.GDT_LCMD_CLR)) := by
    intro u hu
    have h1 := (u.softRelease_spec hg (getF w F.GDT_LCMD_REL)).1
    have h2 := (Dev.clearMask_spec (u.relMask g (getF w F.GDT_LCMD_REL) 0xA) hg (getF w F.GDT_LCMD_CLR)).1
    have hboth : FrameOn hostPart l u _ := (h1.trans grpPart_part h2).widen grpPart_part hostPart_part (fun _ _ => rfl) hrel
    exact hu.trans hostPart_part hboth
  exact FrameOn.ite (fun _ => hdo _ hplain) fun _ => hplain

theorem FrameOn.armWrite (h : FrameOn hostPart l d e) (hl : ∀ a ∈ armRegs g, a ∈ l) (mid : Nat) (w : Word) : FrameOn hostPart l d (e.armWrite mid g w) := by
  have hplain : FrameOn hostPart l d (e.plainWrite mid (gdArm g) w) := by
    have hmem : gdArm g ∈ l := hl _ (by simp [armRegs])
    rw [gdArm_at] at hmem ⊢
    exact h.gdPlain hg (hl _ (by simp [armRegs])) (hl _ (by simp [armRegs])) (by decide) hmem mid w
  exact FrameOn.ite (fun _ => hplain.hostGrp g _) fun _ => hplain

/-- A write of ARM or LCMD by the bus keeps what the write of the register keeps. -/
theorem Dev.legWrite_keeps {P : Dev → Prop} (hlive : d.replaying = false) {a k mid : Nat} {w : Word} (habs : ∀ mid page, P (d.absentWrite mid page))
    (hq : ∀ u v, Quiet u v → P u → P v) (hk : k = 1 ∧ P (d.armWrite mid g w) ∨ k = 3 ∧ P (d.lcmdWrite mid g w))
    (ha : a = if g < 12 then 0x40098100 + 0x20 * g + 4 * k else 0x40099100 + 0x20 * (g - 12) + 4 * k) : P (d.pWrite mid a w) := by
  obtain ⟨b, i, hb, hgb, -, hoff⟩ := inBlock_gd hg (k := k) (by omega)
  rw [← ha] at hb hoff
  refine Dev.pWrite_keeps hlive hb habs ?_ hq
  obtain ⟨h12, rfl⟩ | ⟨h12, rfl⟩ := hgb
  · rw [if_pos h12] at hoff
    have hroute : d.routeWrite mid .gdtB i (offOf a) a w = d.gdtPageWrite mid (offOf a) a w := rfl
    have hdiv : (0x100 + 0x20 * g + 4 * k - 0x100) / 0x20 = g := by omega
    have hmod : (0x100 + 0x20 * g + 4 * k - 0x100) % 0x20 = 4 * k := by omega
    rw [hroute, hoff, Dev.gdtPageWrite, hdiv, hmod, if_neg (show ¬(0x100 + 0x20 * g + 4 * k < 0x100 ∨ 0x280 ≤ 0x100 + 0x20 * g + 4 * k) by omega)]
    obtain ⟨rfl, hdo⟩ | ⟨rfl, hdo⟩ := hk
    · rw [if_neg (by decide), if_pos rfl]
      exact hdo
    · rw [if_neg (by decide), if_neg (by decide), if_pos rfl]
      exact hdo
  · rw [if_neg (Nat.not_lt.2 h12)] at hoff
    have hroute : d.routeWrite mid .gdaB i (offOf a) a w = d.gdaPageWrite mid (offOf a) a w := rfl
    have hdiv : (0x100 + 0x20 * (g - 12) + 4 * k - 0x100) / 0x20 = g - 12 := by omega
    have hmod : (0x100 + 0x20 * (g - 12) + 4 * k - 0x100) % 0x20 = 4 * k := by omega
    rw [hroute, hoff, Dev.gdaPageWrite, hdiv, hmod, Nat.add_sub_cancel' h12,
      if_neg (show ¬(0x100 + 0x20 * (g - 12) + 4 * k < 0x100 ∨ 0x200 ≤ 0x100 + 0x20 * (g - 12) + 4 * k) by omega)]
    obtain ⟨rfl, hdo⟩ | ⟨rfl, hdo⟩ := hk
    · rw [if_neg (by decide), if_pos rfl]
      exact hdo
    · rw [if_neg (by decide), if_neg (by decide), if_pos rfl]
      exact hdo

theorem FrameOn.armBus (h : FrameOn hostPart l d e) (hlive : e.replaying = false) (hl : ∀ a ∈ armRegs g, a ∈ l) (mid : Nat) (w : Word) :
    FrameOn hostPart l d (e.pWrite mid (gdArm g) w) :=
  Dev.legWrite_keeps hg hlive (fun _ _ => h.absentWrite (hl _ (by simp [armRegs])) _ _) (fun _ _ hq hu => hu.quiet hostPart_part hq)
    (.inl ⟨rfl, h.armWrite hg hl mid w⟩) (gdArm_at g)

theorem FrameOn.lcmdBus (h : FrameOn hostPart l d e) (hlive : e.replaying = false) (hl : ∀ a ∈ legRegs g, a ∈ l) (mid : Nat) (w : Word) :
    FrameOn hostPart l d (e.pWrite mid (gdLcmd g) w) :=
  Dev.legWrite_keeps hg hlive (fun _ _ => h.absentWrite (hl _ (by simp [legRegs])) _ _) (fun _ _ hq hu => hu.quiet hostPart_part hq)
    (.inr ⟨rfl, h.lcmdWrite hg hl mid w⟩) (gdLcmd_at g)

end

section
variable {m : Nat} {d e f : Dev}

theorem machRegs_leg {g : Nat} (hg : g < 20) : ∀ a ∈ legRegs g, a ∈ machRegs d m := by
  intro a ha
  simp only [legRegs, List.mem_cons] at ha
  obtain rfl | rfl | rfl | rfl | ha := ha
  · rw [gdArm]
    split
    · exact machRegs_gdt (by simp only [R.GDT_ARM]; omega)
    · exact machRegs_gda (by simp only [R.GDA_ARM]; omega)
  · rw [gdLcmd]
    split
    · exact machRegs_gdt (by simp only [R.GDT_LCMD]; omega)
    · exact machRegs_gda (by simp only [R.GDA_LCMD]; omega)
  · rw [gdPage]
    split
    · exact machRegs_gdt (by decide)
    · exact machRegs_gda (by decide)
  · exact machRegs_absent
  · exact machRegs_rel hg a ha

variable (hm : m < 20) (hlive : d.replaying = false)
include hm hlive

theorem MachRun.armBus (h : MachRun m d e) {g : Nat} (hg : g < 20) (w : Word) : MachRun m d (e.pWrite Mid.S0 (gdArm g) w) :=
  h.trans (.host ((FrameOn.refl hostPart_part _ e).armBus hg ((h.live hm).trans hlive) (fun a ha => machRegs_leg hg a (armRegs_sub g a ha)) Mid.S0 w)
    fun _ ha => ha)

theorem MachRun.lcmdBus (h : MachRun m d e) {g : Nat} (hg : g < 20) (w : Word) : MachRun m d (e.pWrite Mid.S0 (gdLcmd g) w) :=
  h.trans (.host ((FrameOn.refl hostPart_part _ e).lcmdBus hg ((h.live hm).trans hlive) (machRegs_leg hg) Mid.S0 w) fun _ ha => ha)

omit hlive in
/-- A step for every group of a machine. -/
theorem MachRun.groupFold {f : Dev → Nat → Dev} (hf : ∀ g < 20, ∀ u, MachRun m d u → MachRun m d (f u g)) (h : MachRun m d e) :
    MachRun m d ((e.mGroups m).foldl f e) := MachRun.foldl (fun g hg u hu => hf g (mGroups_lt hm g hg) u hu) h

theorem MachRun.mRelease (h : MachRun m d e) : MachRun m d (e.mRelease m) :=
  MachRun.groupFold hm (fun _ hg _ hu => hu.lcmdBus hm hlive hg _) h

theorem MachRun.mClear (h : MachRun m d e) (p : Nat → Bool) : MachRun m d (e.mClear m p) :=
  MachRun.groupFold hm (fun _ hg _ hu => .ite (fun _ => hu) fun _ => hu.lcmdBus hm hlive hg _) h

theorem MachRun.legPolicy (h : MachRun m d e) : MachRun m d (e.legPolicy m) := by
  rw [Dev.legPolicy]
  split
  · exact h
  · exact MachRun.groupFold hm (fun _ hg _ hu => .ite (fun _ => hu) fun _ => hu.armBus hm hlive hg _) h

/-! ### The steps of an evaluation -/

theorem MachRun.runMode (h : MachRun m d e) : MachRun m d (e.runMode m) := h.mMode hm hlive _ _

theorem MachRun.lockedOn (h : MachRun m d e) : MachRun m d (e.lockedOn m) := by
  have h1 := h.runMode hm hlive
  exact .ite (fun _ => (h1.machGo hm _ _).mStat _ _) fun _ => h1.trans (.setMach _ _ (by rfl) (by rfl) (by rfl))

theorem MachRun.startFail (h : MachRun m d e) : MachRun m d (e.startFail m) := (h.toFault hm hlive 2).machEvent _

omit hm hlive in
theorem MachRun.noteSpeed (h : MachRun m d e) : MachRun m d (e.noteSpeed m) :=
  .ite (fun _ => h.trans (.setMach _ _ (by rfl) (by rfl) (by rfl))) fun _ => .ite (fun _ => h) fun _ => h.trans (.setMach _ _ (by rfl) (by rfl) (by rfl))

omit hm hlive in
theorem MachRun.noteLock (h : MachRun m d e) : MachRun m d (e.noteLock m) := h.trans (.setMach _ _ (by rfl) (by rfl) (by rfl))

theorem MachRun.reactRelease (h : MachRun m d e) : MachRun m d (e.reactRelease m) := by
  refine .ite (fun _ => .ite (fun _ => h.toFault hm hlive 1) fun _ => .ite (fun _ => h) fun _ => ?_) fun _ =>
    .ite (fun _ => h.toAsc hm hlive 1) fun _ => h.toFault hm hlive 1
  exact ((((h.mMode hm hlive _ _).mStat _ _).mStat _ _).mStat _ _).machEvent _

theorem MachRun.reactLost (h : MachRun m d e) : MachRun m d (e.reactLost m) := by
  refine .ite (fun _ => (h.mForce hm hlive 2 true).toAsc hm hlive 4) fun _ => ?_
  refine MachRun.toCatch hm hlive (MachRun.trans ((h.mForce hm hlive 1 true).mRelease hm hlive) (.setMach _ _ (by rfl) (by rfl) (by rfl))) 4

theorem MachRun.reactEcc (h : MachRun m d e) : MachRun m d (e.reactEcc m) := by
  refine .ite (fun _ => MachRun.trans ((h.mForce hm hlive 2 true).toAsc hm hlive 6) (.setMach _ _ (by rfl) (by rfl) (by rfl))) fun _ => (h.mRelease hm hlive).toFault hm hlive 6

theorem MachRun.react (h : MachRun m d e) (code : Nat) : MachRun m d (e.react m code) :=
  .ite (fun _ => h.reactRelease hm hlive) fun _ => .ite (fun _ => h.toStoFault hm hlive 7) fun _ => .ite (fun _ => h.toStoFault hm hlive 9) fun _ =>
    .ite (fun _ => h.reactEcc hm hlive) fun _ => .ite (fun _ => h.reactLost hm hlive) fun _ => h.toFault hm hlive 3

theorem MachRun.ascEnd (h : MachRun m d e) : MachRun m d (e.ascEnd m) := by
  have h1 := (h.mRelease hm hlive).mDrop hm
  refine .ite (fun _ => h) fun _ => .ite (fun _ => ?_) fun _ => .ite (fun _ => h1.toFault hm hlive 0xA) fun _ => .ite (fun _ => ?_) fun _ => ?_
  · exact MachRun.toFault hm hlive (h1.trans (.setMach _ _ (by rfl) (by rfl) (by rfl))) 6
  · exact MachRun.toSto hm hlive (h1.trans (.setMach _ _ (by rfl) (by rfl) (by rfl))) 0xA
  · exact MachRun.toCatch hm hlive (h1.trans (.setMach _ _ (by rfl) (by rfl) (by rfl))) 0xA

theorem MachRun.dischargeEnd (h : MachRun m d e) : MachRun m d (e.dischargeEnd m) := .ite (fun _ => h.toSto hm hlive 0xA) fun _ => h

omit hm hlive in
theorem MachRun.mDemCtx (h : MachRun m d e) : Machine.mUses d m (e.mDemCtx m) := by
  rw [Dev.mDemCtx]
  split
  · exact .inr (.inl h.mSpd)
  · exact .inl h.mMain

/-- A word of a context's commands written by the bus. -/
theorem MachRun.cmdWord (h : MachRun m d e) {c : Nat} (hc : Machine.mUses d m c) (hp : e.ctxPresent c = true) {k : Nat} (hk : k < 4) (w : Word) :
    MachRun m d (e.pWrite Mid.S0 (R.CTX_CMD c k) w) := by
  have ha : R.CTX_CMD c k = ctxA c (36 + k) := by simp only [R.CTX_CMD, ctxA, R.CTX_CTRL]; omega
  rw [ha]
  exact h.trans (.host ((FrameOn.refl hostPart_part _ e).ctxWrite (machRegs_ctx (h.mUses hc)) ((h.live hm).trans hlive) (ctx_lt hp)
    (.inr (.inl ⟨by omega, by omega⟩)) _ _) fun _ ha => ha)

theorem MachRun.stopDemand (h : MachRun m d e) : MachRun m d (e.stopDemand m) := by
  have hone : ∀ w, MachRun m d (if (!e.ctxPresent (e.mDemCtx m) || e.reg (R.CTX_CMD (e.mDemCtx m) 0) == w) = true then e
      else e.pWrite Mid.S0 (R.CTX_CMD (e.mDemCtx m) 0) w) := fun w => .ite (fun _ => h) fun hp => by
    rw [Bool.not_eq_true, Bool.or_eq_false_iff, Bool.not_eq_false'] at hp
    exact h.cmdWord hm hlive h.mDemCtx hp.1 (by decide) _
  exact hone _

theorem MachRun.throughZero (h : MachRun m d e) : MachRun m d (e.throughZero m) :=
  .ite (fun _ => h) fun _ => .ite (fun _ => MachRun.trans (h.mMode hm hlive _ _) (.setMach _ _ (by rfl) (by rfl) (by rfl))) fun _ =>
    .ite (fun _ => h.lockedOn hm hlive) fun _ => h

omit hm hlive in
theorem MachRun.noteSlow (h : MachRun m d e) : MachRun m d (e.noteSlow m) := h.trans (.setMach _ _ (by rfl) (by rfl) (by rfl))

theorem MachRun.clearSoft (h : MachRun m d e) : MachRun m d (e.clearSoft m) := (h.mClear hm hlive _).trans (.setMach _ _ (by rfl) (by rfl) (by rfl))

/-- The soft releases cleared and the catch measurement begun. -/
def Dev.catchCleared (d : Dev) (m : Nat) : Dev :=
  if (d.machS m).clr then
      let d := d.clearSoft m
      let d := d.setMach m { d.machS m with since := d.gtc }
      if d.mSensorless m then d.mCtx (d.mCatch m) true else d
    else d

theorem MachRun.catchCleared (h : MachRun m d e) : MachRun m d (e.catchCleared m) := by
  have h1 : MachRun m d ((e.clearSoft m).setMach m { (e.clearSoft m).machS m with since := (e.clearSoft m).gtc }) :=
    (h.clearSoft hm hlive).trans (.setMach _ _ (by rfl) (by rfl) (by rfl))
  exact .ite (fun _ => .ite (fun _ => h1.mCtx hm hlive (h1.mCatch ▸ mUses_catch) true) fun _ => h1) fun _ => h

/-- The back-EMF noted. -/
def Dev.emfNoted (d : Dev) (m : Nat) : Dev :=
  let s := d.machS m
  let ok := (d.mdTenth m 14 F.MD_LO).le (d.outOpd (d.mCatch m) 11).x && d.ctxEn (d.mCatch m)
  d.setMach m { s with emfAt := if ok then some (s.emfAt.getD d.gtc) else none }

omit hm hlive in
theorem Dev.noteCatch_eq (e : Dev) : e.noteCatch m = ((e.catchCleared m).emfNoted m).catchArm m := rfl

theorem MachRun.noteCatch (h : MachRun m d e) : MachRun m d (e.noteCatch m) :=
  ((h.catchCleared hm hlive).trans (.setMach _ _ (by rfl) (by rfl) (by rfl))).catchArm hm hlive

omit hm hlive in
theorem MachRun.lostExpiry (h : MachRun m d e) : MachRun m d (e.lostExpiry m) := by
  have h1 : MachRun m d (if e.startLate m && e.startLast m && !e.lockSeen m then e.machEvent m Ev.START_FAIL else e) :=
    .ite (fun _ => h.machEvent _) fun _ => h
  exact .ite (fun _ => h1.machEvent _) fun _ => h1

omit hm hlive in
theorem MachRun.reacted (h : MachRun m d e) : MachRun m d (e.reacted m) := h.trans (.setMach _ _ (by rfl) (by rfl) (by rfl))

theorem MachRun.evalCalm (h : MachRun m d e) : MachRun m d (e.evalCalm m) :=
  .ite (fun _ => h.noteCatch hm hlive) fun _ => .ite (fun _ => h) fun _ => .ite (fun _ => .ite (fun _ => h.lockedOn hm hlive) fun _ => h) fun _ =>
    .ite (fun _ => h.throughZero hm hlive) fun _ => .ite (fun _ => (h.stopDemand hm hlive).noteSlow) fun _ => .ite (fun _ => h.ascEnd hm hlive) fun _ =>
    .ite (fun _ => h.dischargeEnd hm hlive) fun _ => .ite (fun _ => h.clearSoft hm hlive) fun _ => h

/-! ### The timers -/

/-- A decided target, which waits for its arming. -/
def Dev.setReady (d : Dev) (m t : Nat) : Dev := d.setMach m { d.machS m with ready := some t }

theorem MachRun.catchDecide (h : MachRun m d e) (r : Option (Frac × Frac)) : MachRun m d (e.catchDecide m r) := by
  have go : ∀ u, MachRun m d u → ∀ t, MachRun m d (u.setReady m t) := fun u hu t => hu.trans (.setMach _ _ (by rfl) (by rfl) (by rfl))
  have h1 : ∀ b, MachRun m d (e.setMach m { e.machS m with back := b }) := fun b => h.trans (.setMach _ _ (by rfl) (by rfl) (by rfl))
  have hslow : ∀ b, MachRun m d (let d := e.setMach m { e.machS m with back := b }
      if !d.mSensorless m then
        (d.prepare m 0 fone fun e => (e.zeroIntegrators (e.mMain m)).zeroIntegrators (e.mSpd m)).setReady m MS.RUN
      else if d.md m 0 F.MD_ALIGN = 1 ∧ e.mStat m F.MD_ATTEMPT = 0 then (d.prepare m 2 (d.startCurrent m 0) fun e => e.rampRest m).setReady m MS.ALIGN
      else (d.prepare m 1 (d.startCurrent m (e.mStat m F.MD_ATTEMPT)) fun e => e.rampRest m).setReady m MS.START) := by
    intro b
    exact .ite (fun _ => go _ ((h1 b).trans ((h1 b).prepareZero hm hlive _ _).run) _) fun _ =>
      .ite (fun _ => go _ ((h1 b).trans ((h1 b).prepareRest hm hlive _ _).run) _) fun _ => go _ ((h1 b).trans ((h1 b).prepareRest hm hlive _ _).run) _
  obtain _ | ⟨w, th⟩ := r
  · exact hslow _
  · have h2 : ∀ b x, MachRun m d ((e.setMach m { e.machS m with back := b }).setMach m
        { (e.setMach m { e.machS m with back := b }).machS m with trust := x }) := fun b x => (h1 b).trans (.setMach _ _ (by rfl) (by rfl) (by rfl))
    refine .ite (fun _ => hslow _) fun _ => .ite (fun _ => go _ ((h2 _ _).trans ((h2 _ _).prepareTurning hm hlive _ _ _ _).run) _) fun _ =>
      .ite (fun _ => ?_) fun _ => ?_
    · exact ((h1 _).trans (.setMach _ _ (by rfl) (by rfl) (by rfl))).machEvent _
    · exact (h1 _).trans (.setMach _ _ (by rfl) (by rfl) (by rfl))

end
end Sys2Proof.Machine
end

section
/-! PROOFS. The enables of both channels: what commands them and what leaves them (R41, R302, R303, R331). -/

namespace Sys2Proof.Machine

/-! ### A bit set to a value -/

theorem bitOf_setBit (w : Word) {i : Nat} (hi : i < 32) (b : Bool) (j : Nat) : bitOf (setBit w i b) j = if j = i then b else bitOf w j := by
  rw [bitOf_eq, bitOf_eq]
  by_cases hj : j < 32
  · cases b
    · rw [setBit, if_neg (by decide), BitVec.getLsbD_and, BitVec.getLsbD_not, bitWord_bit i j hj]
      by_cases h : j = i
      · simp [h]
      · simp [h, hj, Ne.symm h]
    · rw [setBit, if_pos rfl, BitVec.getLsbD_or, bitWord_bit i j hj]
      by_cases h : j = i
      · simp [h]
      · simp [h, Ne.symm h]
  · have h32 := Nat.not_lt.1 hj
    rw [BitVec.getLsbD_of_ge _ _ h32, BitVec.getLsbD_of_ge _ _ h32, if_neg (by omega)]

section
variable {d e : Dev} {g h : Nat} {w : Word}

theorem Dev.reg_beginCheck (d : Dev) (g a : Nat) : (d.beginCheck g).reg a = d.reg a := by
  rw [Dev.beginCheck]
  split <;> rfl

/-- The registers of the enables stand. -/
theorem Dev.genP_congr (h1 : e.reg (R.GDT_PINS g) = d.reg (R.GDT_PINS g)) (h2 : e.reg R.GDA_STAT = d.reg R.GDA_STAT) : e.genP g = d.genP g := by
  rw [Dev.genP, Dev.genP, Dev.flag, Dev.flag, Dev.get, Dev.get, h1, h2]

theorem Dev.genM_congr (h1 : e.reg (R.GDT_PINS g) = d.reg (R.GDT_PINS g)) (h2 : e.reg R.GDA_STAT = d.reg R.GDA_STAT) : e.genM g = d.genM g := by
  rw [Dev.genM, Dev.genM, Dev.flag, Dev.flag, Dev.get, Dev.get, h1, h2]

theorem gdtPins_ne_gdaStat (g : Nat) (hg : g < 12) : R.GDT_PINS g ≠ R.GDA_STAT := by simp only [R.GDT_PINS, R.GDA_STAT]; omega

theorem gdtPins_ne (hne : g ≠ h) : R.GDT_PINS g ≠ R.GDT_PINS h := by simp only [R.GDT_PINS]; omega

/-! ### Registers after an enable is commanded -/

theorem Dev.reg_setGenP_lo (d : Dev) (hg : g < 12) (b : Bool) (hne : (!groupPresent d.member g || d.genP g == b) = false) (a : Nat) :
    (d.setGenP g b).reg a = ((d.putB (R.GDT_PINS g) F.GDT_PINS_GENP_CMD b).putB (R.GDT_PINS g) F.GDT_PINS_GENP_PIN b).reg a := by
  rw [Dev.setGenP, if_neg (by rw [hne]; decide), if_neg (Nat.not_le.2 hg)]
  cases b
  · exact Dev.reg_beginCheck _ _ _
  · rfl

theorem Dev.reg_setGenP_hi (d : Dev) (hg : 12 ≤ g) (b : Bool) (hne : (!groupPresent d.member g || d.genP g == b) = false) (a : Nat) :
    (d.setGenP g b).reg a = (d.setReg R.GDA_STAT (setBit (d.reg R.GDA_STAT) (g - 12) b)).reg a := by
  rw [Dev.setGenP, if_neg (by rw [hne]; decide), if_pos hg]

theorem Dev.reg_setGenM_lo (d : Dev) (hg : g < 12) (b : Bool) (hne : (!groupPresent d.member g || d.genM g == b) = false) (a : Nat) :
    (d.setGenM g b).reg a = (d.putB (R.GDT_PINS g) F.GDT_PINS_GENM_PIN b).reg a := by
  rw [Dev.setGenM, if_neg (by rw [hne]; decide), if_neg (Nat.not_le.2 hg)]
  cases b
  · exact Dev.reg_beginCheck _ _ _
  · rfl

theorem Dev.reg_setGenM_hi (d : Dev) (hg : 12 ≤ g) (b : Bool) (hne : (!groupPresent d.member g || d.genM g == b) = false) (a : Nat) :
    (d.setGenM g b).reg a = (d.setReg R.GDA_STAT (setBit (d.reg R.GDA_STAT) (g - 12 + 8) b)).reg a := by
  rw [Dev.setGenM, if_neg (by rw [hne]; decide), if_pos hg]

theorem Dev.setGenP_same (d : Dev) {b : Bool} (hs : (!groupPresent d.member g || d.genP g == b) = true) : d.setGenP g b = d := by
  rw [Dev.setGenP, if_pos hs]

theorem Dev.setGenM_same (d : Dev) {b : Bool} (hs : (!groupPresent d.member g || d.genM g == b) = true) : d.setGenM g b = d := by
  rw [Dev.setGenM, if_pos hs]

/-! ### What the enables read -/

/-- An enable commanded is as commanded. -/
theorem Dev.genP_setGenP (d : Dev) (hg : g < 20) (hp : groupPresent d.member g = true) (b : Bool) : (d.setGenP g b).genP g = b := by
  by_cases hne : (!groupPresent d.member g || d.genP g == b) = true
  · rw [d.setGenP_same hne]
    rw [hp, Bool.not_true, Bool.false_or] at hne
    exact eq_of_beq hne
  · have hn := Bool.eq_false_iff.2 hne
    by_cases h12 : g < 12
    · rw [Dev.genP, if_pos h12, Dev.flag_of_reg (d.reg_setGenP_lo h12 b hn _), Dev.putB, Dev.flag_put_field _ _ _ _ (by decide)]
      exact d.flag_putB_self _ _ b rfl (by decide)
    · have h12 := Nat.not_lt.1 h12
      rw [Dev.genP, if_neg (Nat.not_lt.2 h12), d.reg_setGenP_hi h12 b hn, Dev.reg_setReg_self, bitOf_setBit _ (by omega), if_pos rfl]

theorem Dev.genM_setGenM (d : Dev) (hg : g < 20) (hp : groupPresent d.member g = true) (b : Bool) : (d.setGenM g b).genM g = b := by
  by_cases hne : (!groupPresent d.member g || d.genM g == b) = true
  · rw [d.setGenM_same hne]
    rw [hp, Bool.not_true, Bool.false_or] at hne
    exact eq_of_beq hne
  · have hn := Bool.eq_false_iff.2 hne
    by_cases h12 : g < 12
    · rw [Dev.genM, if_pos h12, Dev.flag_of_reg (d.reg_setGenM_lo h12 b hn _)]
      exact d.flag_putB_self _ _ b rfl (by decide)
    · have h12 := Nat.not_lt.1 h12
      rw [Dev.genM, if_neg (Nat.not_lt.2 h12), d.reg_setGenM_hi h12 b hn, Dev.reg_setReg_self, bitOf_setBit _ (by omega), if_pos rfl]

theorem Dev.genP_lo (d : Dev) (h12 : h < 12) : d.genP h = d.flag (R.GDT_PINS h) F.GDT_PINS_GENP_CMD := if_pos h12
theorem Dev.genP_hi (d : Dev) (h12 : 12 ≤ h) : d.genP h = bitOf (d.reg R.GDA_STAT) (h - 12) := if_neg (Nat.not_lt.2 h12)
theorem Dev.genM_lo (d : Dev) (h12 : h < 12) : d.genM h = d.flag (R.GDT_PINS h) F.GDT_PINS_GENM_PIN := if_pos h12
theorem Dev.genM_hi (d : Dev) (h12 : 12 ≤ h) : d.genM h = bitOf (d.reg R.GDA_STAT) (h - 12 + 8) := if_neg (Nat.not_lt.2 h12)

/-- One bit of GDA_STAT is set: the other bits and the traction groups' pins stand. -/
theorem Dev.genP_bit (hr : ∀ a, e.reg a = (d.setReg R.GDA_STAT w).reg a) (hw : 12 ≤ h → bitOf w (h - 12) = bitOf (d.reg R.GDA_STAT) (h - 12)) :
    e.genP h = d.genP h := by
  by_cases h12 : h < 12
  · rw [e.genP_lo h12, d.genP_lo h12]
    exact Dev.flag_of_reg ((hr _).trans (d.reg_setReg_ne _ (gdtPins_ne_gdaStat h h12))) _
  · have h12 := Nat.not_lt.1 h12
    rw [e.genP_hi h12, d.genP_hi h12, hr, Dev.reg_setReg_self, hw h12]

theorem Dev.genM_bit (hr : ∀ a, e.reg a = (d.setReg R.GDA_STAT w).reg a) (hw : 12 ≤ h → bitOf w (h - 12 + 8) = bitOf (d.reg R.GDA_STAT) (h - 12 + 8)) :
    e.genM h = d.genM h := by
  by_cases h12 : h < 12
  · rw [e.genM_lo h12, d.genM_lo h12]
    exact Dev.flag_of_reg ((hr _).trans (d.reg_setReg_ne _ (gdtPins_ne_gdaStat h h12))) _
  · have h12 := Nat.not_lt.1 h12
    rw [e.genM_hi h12, d.genM_hi h12, hr, Dev.reg_setReg_self, hw h12]

/-- A traction group's pins change: the other groups stand. -/
theorem Dev.gen_pins (hg : g < 12) (hr : ∀ a, a ≠ R.GDT_PINS g → e.reg a = d.reg a) (hne : h ≠ g) : e.genP h = d.genP h ∧ e.genM h = d.genM h :=
  have h1 := hr _ (gdtPins_ne hne)
  have h2 := hr _ (gdtPins_ne_gdaStat g hg).symm
  ⟨Dev.genP_congr h1 h2, Dev.genM_congr h1 h2⟩

theorem Dev.pins_setGenP (d : Dev) (hg : g < 12) (b : Bool) (hn : (!groupPresent d.member g || d.genP g == b) = false) :
    ∀ a, a ≠ R.GDT_PINS g → (d.setGenP g b).reg a = d.reg a := fun a ha => by
  rw [d.reg_setGenP_lo hg b hn, Dev.putB, Dev.putB, Dev.reg_put_ne _ _ _ ha, Dev.reg_put_ne _ _ _ ha]

theorem Dev.pins_setGenM (d : Dev) (hg : g < 12) (b : Bool) (hn : (!groupPresent d.member g || d.genM g == b) = false) :
    ∀ a, a ≠ R.GDT_PINS g → (d.setGenM g b).reg a = d.reg a := fun a ha => by
  rw [d.reg_setGenM_lo hg b hn, Dev.putB, Dev.reg_put_ne _ _ _ ha]

/-- The other groups' enables stand. -/
theorem Dev.genP_setGenP_ne (d : Dev) (hg : g < 20) (hne : h ≠ g) (b : Bool) : (d.setGenP g b).genP h = d.genP h := by
  by_cases hs : (!groupPresent d.member g || d.genP g == b) = true
  · rw [d.setGenP_same hs]
  · have hn := Bool.eq_false_iff.2 hs
    by_cases h12 : g < 12
    · exact (Dev.gen_pins h12 (d.pins_setGenP h12 b hn) hne).1
    · have h12 := Nat.not_lt.1 h12
      exact Dev.genP_bit (d.reg_setGenP_hi h12 b hn) fun hh => by rw [bitOf_setBit _ (by omega), if_neg (by omega)]

theorem Dev.genM_setGenM_ne (d : Dev) (hg : g < 20) (hne : h ≠ g) (b : Bool) : (d.setGenM g b).genM h = d.genM h := by
  by_cases hs : (!groupPresent d.member g || d.genM g == b) = true
  · rw [d.setGenM_same hs]
  · have hn := Bool.eq_false_iff.2 hs
    by_cases h12 : g < 12
    · exact (Dev.gen_pins h12 (d.pins_setGenM h12 b hn) hne).2
    · have h12 := Nat.not_lt.1 h12
      exact Dev.genM_bit (d.reg_setGenM_hi h12 b hn) fun hh => by rw [bitOf_setBit _ (by omega), if_neg (by omega)]

/-- One channel's commands leave the other channel's enables. -/
theorem Dev.genM_setGenP (d : Dev) (hg : g < 20) (h : Nat) (b : Bool) : (d.setGenP g b).genM h = d.genM h := by
  by_cases hs : (!groupPresent d.member g || d.genP g == b) = true
  · rw [d.setGenP_same hs]
  · have hn := Bool.eq_false_iff.2 hs
    by_cases h12 : g < 12
    · by_cases hne : h = g
      · subst hne
        rw [Dev.genM_lo _ h12, Dev.genM_lo _ h12, Dev.flag_of_reg (d.reg_setGenP_lo h12 b hn _), Dev.putB, Dev.flag_put_field _ _ _ _ (by decide),
          Dev.putB, Dev.flag_put_field _ _ _ _ (by decide)]
      · exact (Dev.gen_pins h12 (d.pins_setGenP h12 b hn) hne).2
    · have h12 := Nat.not_lt.1 h12
      exact Dev.genM_bit (d.reg_setGenP_hi h12 b hn) fun hh => by rw [bitOf_setBit _ (by omega), if_neg (by omega)]

theorem Dev.genP_setGenM (d : Dev) (hg : g < 20) (hh : h < 20) (b : Bool) : (d.setGenM g b).genP h = d.genP h := by
  by_cases hs : (!groupPresent d.member g || d.genM g == b) = true
  · rw [d.setGenM_same hs]
  · have hn := Bool.eq_false_iff.2 hs
    by_cases h12 : g < 12
    · by_cases hne : h = g
      · subst hne
        rw [Dev.genP_lo _ h12, Dev.genP_lo _ h12, Dev.flag_of_reg (d.reg_setGenM_lo h12 b hn _), Dev.putB, Dev.flag_put_field _ _ _ _ (by decide)]
      · exact (Dev.gen_pins h12 (d.pins_setGenM h12 b hn) hne).1
    · have h12 := Nat.not_lt.1 h12
      exact Dev.genP_bit (d.reg_setGenM_hi h12 b hn) fun hh => by rw [bitOf_setBit _ (by omega), if_neg (by omega)]

/-- The enables' commands leave what the driver reports. -/
theorem Dev.drdy_setGenP (d : Dev) (hh : h < 12) (g : Nat) (b : Bool) : (d.setGenP g b).drdy h = d.drdy h := by
  by_cases hs : (!groupPresent d.member g || d.genP g == b) = true
  · rw [d.setGenP_same hs]
  · have hn := Bool.eq_false_iff.2 hs
    by_cases h12 : g < 12
    · rw [Dev.drdy, Dev.flag_of_reg (d.reg_setGenP_lo h12 b hn _), Dev.putB, Dev.flag_put_field _ _ _ _ (by decide), Dev.putB,
        Dev.flag_put_field _ _ _ _ (by decide)]
      rfl
    · rw [Dev.drdy, Dev.flag_of_reg (d.reg_setGenP_hi (Nat.not_lt.1 h12) b hn _),
        Dev.flag_of_reg (d.reg_setReg_ne _ (gdtPins_ne_gdaStat h hh))]
      rfl

theorem Dev.drdy_setGenM (d : Dev) (hh : h < 12) (g : Nat) (b : Bool) : (d.setGenM g b).drdy h = d.drdy h := by
  by_cases hs : (!groupPresent d.member g || d.genM g == b) = true
  · rw [d.setGenM_same hs]
  · have hn := Bool.eq_false_iff.2 hs
    by_cases h12 : g < 12
    · rw [Dev.drdy, Dev.flag_of_reg (d.reg_setGenM_lo h12 b hn _), Dev.putB, Dev.flag_put_field _ _ _ _ (by decide)]
      rfl
    · rw [Dev.drdy, Dev.flag_of_reg (d.reg_setGenM_hi (Nat.not_lt.1 h12) b hn _),
        Dev.flag_of_reg (d.reg_setReg_ne _ (gdtPins_ne_gdaStat h hh))]
      rfl

theorem Dev.setGenP_member (d : Dev) (g : Nat) (b : Bool) : (d.setGenP g b).member = d.member :=
  ((FrameOn.refl hostPart_part (enableRegs g) d).setGenP (fun _ ha => ha) b).hostMember

theorem Dev.setGenM_member (d : Dev) (g : Nat) (b : Bool) : (d.setGenM g b).member = d.member :=
  ((FrameOn.refl hostPart_part (enableRegs g) d).setGenM (fun _ ha => ha) b).hostMember

end

/-! ### Where only other registers change -/

section
variable {d e f : Dev}

/-- The enables and the readiness of every group stand. -/
structure GatesKept (d e : Dev) : Prop where
  genP : ∀ g < 20, e.genP g = d.genP g
  drdy : ∀ g < 12, e.drdy g = d.drdy g

theorem GatesKept.refl (d : Dev) : GatesKept d d := ⟨fun _ _ => rfl, fun _ _ => rfl⟩

theorem GatesKept.trans (h : GatesKept d e) (k : GatesKept e f) : GatesKept d f :=
  ⟨fun g hg => (k.genP g hg).trans (h.genP g hg), fun g hg => (k.drdy g hg).trans (h.drdy g hg)⟩

/-- Registers off the pages of the gate drive. -/
def offGates (l : List Nat) : Prop := ∀ a ∈ l, a < 0x40098000 ∨ 0x4009A000 ≤ a

theorem GatesKept.of_regs (h1 : ∀ g < 20, e.reg (R.GDT_PINS g) = d.reg (R.GDT_PINS g)) (h2 : e.reg R.GDA_STAT = d.reg R.GDA_STAT) : GatesKept d e :=
  ⟨fun g hg => Dev.genP_congr (h1 g hg) h2, fun g hg => Dev.flag_of_reg (h1 g (by omega)) _⟩

theorem GatesKept.of_frame {p : Dev → Dev → Dev} (hp : Part p) {l : List Nat} (h : FrameOn p l d e) (hl : offGates l) : GatesKept d e := by
  refine .of_regs (fun g hg => h.reg hp ?_ fun hx => ?_) (h.reg hp (by decide) fun hx => ?_)
  · rw [eventReg_eq_false]
    simp only [R.GDT_PINS]
    omega
  · have := hl _ hx
    simp only [R.GDT_PINS] at this
    omega
  · have := hl _ hx
    simp only [R.GDA_STAT] at this
    omega

theorem GatesKept.of_quiet (h : Quiet d e) : GatesKept d e :=
  .of_frame noPart_part (FrameOn.of_quiet noPart_part [] h) fun _ ha => nomatch ha

theorem GatesKept.setReg (d : Dev) {a : Nat} (w : Word) (h : a < 0x40098000 ∨ 0x4009A000 ≤ a) : GatesKept d (d.setReg a w) :=
  .of_regs (fun g hg => d.reg_setReg_ne w (by simp only [R.GDT_PINS]; omega)) (d.reg_setReg_ne w (by simp only [R.GDA_STAT]; omega))

theorem GatesKept.setGenM (d : Dev) {g : Nat} (hg : g < 20) (b : Bool) : GatesKept d (d.setGenM g b) :=
  ⟨fun _ hh => d.genP_setGenM hg hh b, fun _ hh => d.drdy_setGenM hh g b⟩

theorem offGates_ctx {c : Nat} (hc : c < 256) : offGates (ctxRegs c) := by
  intro a ha
  simp only [ctxRegs, List.mem_append, List.mem_map, List.mem_range, List.mem_cons, List.not_mem_nil, or_false] at ha
  obtain ⟨n, hn, rfl⟩ | rfl | rfl | rfl := ha
  · simp only [ctxA, R.CTX_CTRL]
    omega
  · simp only [R.LEC_FLAG]
    omega
  · simp only [R.PG_STAT, pageBase, Pg.CTX]
    omega
  · simp only [R.SYS_ABSENT_CNT]
    omega

/-- The registers of the forces of a machine's groups. -/
def mForceRegs (d : Dev) (m : Nat) : List Nat := (d.mGroups m).flatMap forceRegs

theorem offGates_force {m : Nat} (hm : m < 20) : offGates (mForceRegs d m) := by
  intro a ha
  obtain ⟨g, hg, ha⟩ := List.mem_flatMap.1 ha
  have := mGroups_lt hm g hg
  simp only [forceRegs, List.mem_append, List.mem_map, List.mem_range, List.mem_cons, List.not_mem_nil, or_false] at ha
  obtain ⟨x, hx, rfl⟩ | rfl | rfl := ha
  · simp only [R.PWT_LEG]
    omega
  · simp only [R.PG_STAT, pageBase, Pg.PWT]
    omega
  · simp only [R.SYS_ABSENT_CNT]
    omega

theorem mForceRegs_live {m : Nat} (hm : m < 20) : R.RPL_STAT ∉ mForceRegs d m := by
  intro ha
  obtain ⟨g, hg, ha⟩ := List.mem_flatMap.1 ha
  have := mGroups_lt hm g hg
  simp only [forceRegs, List.mem_append, List.mem_map, List.mem_range, List.mem_cons, List.not_mem_nil, or_false, R.PWT_LEG, R.RPL_STAT, R.PG_STAT,
    pageBase, Pg.PWT, R.SYS_ABSENT_CNT] at ha
  omega

theorem Dev.mForce_on (d : Dev) (hlive : d.replaying = false) {m : Nat} (hm : m < 20) (code : Nat) (imm : Bool) :
    FrameOn hostPart (mForceRegs d m) d (d.mForce m code imm) :=
  d.mForce_frame hlive (mForceRegs_live hm) hm (fun g hg _ ha => List.mem_flatMap.2 ⟨g, hg, ha⟩) code imm

theorem GatesKept.mForce (d : Dev) (hlive : d.replaying = false) {m : Nat} (hm : m < 20) (code : Nat) (imm : Bool) : GatesKept d (d.mForce m code imm) :=
  .of_frame hostPart_part (d.mForce_on hlive hm code imm) (offGates_force hm)

theorem Dev.mCtx_on (d : Dev) (hlive : d.replaying = false) (c : Nat) (on : Bool) : FrameOn hostPart (ctxRegs c) d (d.mCtx c on) :=
  (FrameOn.refl hostPart_part _ d).mCtx (fun _ ha => ha) hlive on

theorem GatesKept.mCtx (d : Dev) (hlive : d.replaying = false) {c : Nat} (hc : c < 256) (on : Bool) : GatesKept d (d.mCtx c on) :=
  .of_frame hostPart_part (d.mCtx_on hlive c on) (offGates_ctx hc)

theorem GatesKept.keepEnds (d : Dev) {m : Nat} (hm : m < 20) : GatesKept d (d.keepEnds m) := by
  rw [Dev.keepEnds]
  split
  · have h0 : ∀ k, GatesKept d { d with safe := { d.safe with keep := k } } := fun _ => .of_regs (fun _ _ => rfl) rfl
    have h1 := (h0 (d.safe.keep - 2 ^ m)).trans (.setReg (a := R.SAFE_GRANT) _ (setBit (d.reg R.SAFE_GRANT) m false) (by decide))
    refine foldl_keeps (P := GatesKept d) (fun g hg u hu => hu.trans (.setGenM u ?_ false)) h1
    rw [List.mem_cons, Option.mem_toList] at hg
    obtain rfl | hs := hg
    · exact hm
    · have := secOf_lt hs
      omega
  · exact .refl d

theorem GatesKept.machGo (d : Dev) {m : Nat} (hm : m < 20) (new cause : Nat) : GatesKept d (d.machGo m new cause) := by
  rw [Dev.machGo_eq]
  have h1 : GatesKept d (d.setMach m (d.goneTo m new cause)) := .of_regs (fun _ _ => rfl) rfl
  have h2 := h1.trans (.of_quiet (Dev.emitProt_quiet _ (d.goRec m new cause)))
  exact ((h2.trans (.keepEnds _ hm)).trans (.setReg _ _ (by decide))).trans (.of_quiet (Dev.raiseN_quiet _ _ _ _))

theorem GatesKept.disP (d : Dev) : GatesKept d d.disP := .setReg d _ (by decide)

theorem GatesKept.machEvent (d : Dev) (m src : Nat) : GatesKept d (d.machEvent m src) :=
  .trans (.setReg d _ (by decide)) (.of_quiet (Dev.raiseN_quiet _ _ _ _))

theorem GatesKept.setMach (d : Dev) (m : Nat) (v : MachSt) : GatesKept d (d.setMach m v) := .of_regs (fun _ _ => rfl) rfl

theorem GatesKept.mCtxOff (d : Dev) (hlive : d.replaying = false) {m : Nat} (hm : m < 20) : GatesKept d (d.mCtxOff m) := by
  have h1 := (MachRun.refl m d).mCtx hm hlive (mUses_main (d := d)) false
  exact (GatesKept.mCtx d hlive (mMain_lt d m) false).trans (.mCtx _ ((h1.live hm).trans hlive) (mCatch_lt d m) false)

/-! ### The enables that a machine drops -/

theorem Dev.setGenP_low (d : Dev) {g h : Nat} (hg : g < 20) (hh : d.genP h = false) : (d.setGenP g false).genP h = false := by
  by_cases hne : h = g
  · subst hne
    by_cases hp : groupPresent d.member h = true
    · exact d.genP_setGenP hg hp false
    · rw [d.setGenP_same (by simp [hp]), hh]
  · rw [d.genP_setGenP_ne hg hne, hh]

/-- Enables dropped in turn are low. -/
theorem Dev.dropP_low {l : List Nat} (hl : ∀ g ∈ l, g < 20) (d : Dev) {g : Nat} (hg : g ∈ l) (hp : groupPresent d.member g = true) :
    (l.foldl (fun e g => e.setGenP g false) d).genP g = false := by
  induction l generalizing d with
  | nil => cases hg
  | cons x l ih =>
    have hx := hl x List.mem_cons_self
    have hrest : ∀ y ∈ l, y < 20 := fun y hy => hl y (List.mem_cons_of_mem _ hy)
    rw [List.foldl_cons]
    rcases List.mem_cons.1 hg with rfl | hg
    · have hlow := d.genP_setGenP hx hp false
      exact foldl_keeps (P := fun e : Dev => e.genP g = false) (fun y hy e he => e.setGenP_low (hrest y hy) he) hlow
    · exact ih hrest _ hg ((congrArg (fun k => groupPresent k g) (d.setGenP_member x false)).trans hp)

theorem Dev.mDrop_low (d : Dev) {m : Nat} (hm : m < 20) : EnablesLow d (d.mDrop m) m := fun _ hg hp => Dev.dropP_low (mGroups_lt hm) d hg hp

theorem EnablesLow.kept {m : Nat} (h : EnablesLow d e m) (hm : m < 20) (k : GatesKept e f) : EnablesLow d f m := fun g hg hp =>
  (k.genP g (mGroups_lt hm g hg)).trans (h g hg hp)

theorem EnablesLow.base {m : Nat} (h : EnablesLow e f m) (hg : e.mGroups m = d.mGroups m) (hm : e.member = d.member) : EnablesLow d f m := fun g hx hp =>
  h g (hg ▸ hx) (hm ▸ hp)

end
end Sys2Proof.Machine
end

section
/-! PROOFS. A machine's record after a transition, and the states that transitions enter (R331, R332). -/

namespace Sys2Proof.Machine

section
variable {m : Nat} {d e f : Dev}

/-! ### The record -/

theorem getF_ite_setF (c : Prop) [Decidable c] (w : Word) {k f : RField} (v : Nat) (h : k.lo + fieldWidth k ≤ f.lo ∨ f.lo + fieldWidth f ≤ k.lo) :
    getF (if c then setF w k v else w) f = getF w f := by
  split
  · exact getF_setF_ne _ _ _ _ h
  · rfl

/-- Fields of MD_STAT that a transition leaves once it has set its state and its cause. -/
structure StatField (f : RField) : Prop where
  leg : F.MD_LEG_CAUSE.lo + fieldWidth F.MD_LEG_CAUSE ≤ f.lo ∨ f.lo + fieldWidth f ≤ F.MD_LEG_CAUSE.lo
  deg : F.MD_DEGRADED.lo + fieldWidth F.MD_DEGRADED ≤ f.lo ∨ f.lo + fieldWidth f ≤ F.MD_DEGRADED.lo
  late : F.MD_DIS_LATE.lo + fieldWidth F.MD_DIS_LATE ≤ f.lo ∨ f.lo + fieldWidth f ≤ F.MD_DIS_LATE.lo
  set : F.MD_SET.lo + fieldWidth F.MD_SET ≤ f.lo ∨ f.lo + fieldWidth f ≤ F.MD_SET.lo

theorem Dev.goneTo_stat (d : Dev) (m new cause : Nat) {f : RField} (hf : StatField f) : getF (d.goneTo m new cause).stat f =
    getF (setF (setF (setF (d.machS m).stat F.MD_PREV (getF (d.machS m).stat F.MD_STATE)) F.MD_STATE new) F.MD_CAUSE cause) f := by
  have hlow : ∀ (c : Prop) [Decidable c] (w : Word), getF (if c then setF (setF w F.MD_DEGRADED 0) F.MD_SET 0 else w) f = getF w f := fun c _ w => by
    split
    · rw [getF_setF_ne _ _ _ _ hf.set, getF_setF_ne _ _ _ _ hf.deg]
    · rfl
  rw [Dev.goneTo, getF_ite_setF _ _ _ hf.late, hlow, getF_ite_setF _ _ _ hf.leg]

theorem Dev.goneTo_state (d : Dev) (m : Nat) {new : Nat} (cause : Nat) (h : new < 16) : getF (d.goneTo m new cause).stat F.MD_STATE = new := by
  rw [d.goneTo_stat m new cause ⟨by decide, by decide, by decide, by decide⟩, getF_setF_ne _ _ _ _ (by decide), getF_setF_self _ _ _ (by decide)]
  exact Nat.mod_eq_of_lt h

theorem Dev.goneTo_cause (d : Dev) (m new : Nat) {cause : Nat} (h : cause < 256) : getF (d.goneTo m new cause).stat F.MD_CAUSE = cause := by
  rw [d.goneTo_stat m new cause ⟨by decide, by decide, by decide, by decide⟩, getF_setF_self _ _ _ (by decide)]
  exact Nat.mod_eq_of_lt h

theorem Dev.goneTo_attempt (d : Dev) (m new cause : Nat) : getF (d.goneTo m new cause).stat F.MD_ATTEMPT = d.mStat m F.MD_ATTEMPT := by
  rw [d.goneTo_stat m new cause ⟨by decide, by decide, by decide, by decide⟩, getF_setF_ne _ _ _ _ (by decide), getF_setF_ne _ _ _ _ (by decide),
    getF_setF_ne _ _ _ _ (by decide)]
  rfl

theorem Dev.setGenM_mach (d : Dev) (g : Nat) (b : Bool) : (d.setGenM g b).mach = d.mach :=
  ((FrameOn.refl hostPart_part (enableRegs g) d).setGenM (fun _ ha => ha) b).hostMach

theorem Dev.keepEnds_mach (d : Dev) (m : Nat) : (d.keepEnds m).mach = d.mach := by
  rw [Dev.keepEnds]
  split
  · exact foldl_keeps (P := fun e : Dev => e.mach = d.mach) (fun g _ u hu => (u.setGenM_mach g false).trans hu) rfl
  · rfl

/-- The machines after a transition. -/
theorem Dev.machGo_machS (d : Dev) (m new cause j : Nat) : (d.machGo m new cause).machS j = if j = m then d.goneTo m new cause else d.machS j := by
  rw [Dev.machGo_eq, (Dev.raiseN_quiet _ _ _ _).machS, Dev.orReg, Dev.machS_setReg, Dev.machS, Dev.keepEnds_mach]
  exact ((Dev.emitProt_quiet _ _).machS j).trans (d.machS_setMach m j _)

theorem Dev.machGo_same (d : Dev) (m new cause : Nat) : (d.machGo m new cause).machS m = d.goneTo m new cause := by
  rw [Dev.machGo_machS, if_pos rfl]

theorem Dev.machGo_raised (d : Dev) (m new cause : Nat) : Raised (d.machGo m new cause) Pg.SAFE Ev.MACH_STATE := by
  rw [Dev.machGo_eq]
  exact Dev.raiseN_raised _ _ rfl

/-! ### A state entered -/

/-- What an entered state rests on. -/
theorem Entered.kept {st cause : Nat} (h : Entered d e m st cause) (hs : f.machS m = e.machS m)
    (hr : Raised e Pg.SAFE Ev.MACH_STATE → Raised f Pg.SAFE Ev.MACH_STATE) : Entered d f m st cause := by
  obtain ⟨h1, h2, h3, h4, h5⟩ := h
  refine ⟨?_, ?_, ?_, ?_, hr h5⟩
  · rw [Dev.mState, hs]; exact h1
  · rw [Dev.mStat, hs]; exact h2
  · rw [hs]; exact h3
  · rw [hs]; exact h4

theorem Entered.quiet {st cause : Nat} (h : Entered d e m st cause) (k : Quiet e f) : Entered d f m st cause := h.kept (k.machS m) k.raised

theorem Entered.base {st cause : Nat} (h : Entered e f m st cause) (hg : e.gtc = d.gtc) : Entered d f m st cause := by
  obtain ⟨h1, h2, h3, h4, h5⟩ := h
  exact ⟨h1, h2, h3, h4.trans hg, h5⟩

theorem Entered.setReg {st cause : Nat} (h : Entered d e m st cause) {a : Nat} (w : Word) (ha : a ≠ R.PG_EVT_RAW Pg.SAFE) :
    Entered d (e.setReg a w) m st cause := h.kept (e.machS_setReg a m w) fun hr => by
  rw [Raised, Dev.reg_setReg_ne _ _ (Ne.symm ha)]
  exact hr

theorem Entered.disP {st cause : Nat} (h : Entered d e m st cause) : Entered d e.disP m st cause := h.setReg _ (by decide)

theorem Entered.machEvent {st cause : Nat} (h : Entered d e m st cause) (src : Nat) : Entered d (e.machEvent m src) m st cause :=
  (h.setReg _ (by decide : R.SAFE_FLAG ≠ R.PG_EVT_RAW Pg.SAFE)).quiet (Dev.raiseN_quiet _ _ _ _)

/-- The machine's record with another part changed. -/
theorem Entered.setMach {st cause : Nat} (h : Entered d e m st cause) (v : MachSt) (hst : getF v.stat F.MD_STATE = getF (e.machS m).stat F.MD_STATE)
    (hc : getF v.stat F.MD_CAUSE = getF (e.machS m).stat F.MD_CAUSE) (ht : v.target = (e.machS m).target) (hs : v.since = (e.machS m).since) :
    Entered d (e.setMach m v) m st cause := by
  obtain ⟨h1, h2, h3, h4, h5⟩ := h
  refine ⟨?_, ?_, ?_, ?_, h5⟩
  · rw [Dev.mState, Dev.machS_setMach_self, hst]; exact h1
  · rw [Dev.mStat, Dev.machS_setMach_self, hc]; exact h2
  · rw [Dev.machS_setMach_self, ht]; exact h3
  · rw [Dev.machS_setMach_self, hs]; exact h4

theorem Entered.reacted {st cause : Nat} (h : Entered d e m st cause) : Entered d (e.reacted m) m st cause := h.setMach _ rfl rfl rfl rfl

theorem Entered.attempt {st cause : Nat} (h : Entered d e m st cause) (v : Nat) : Entered d (e.setMStat m F.MD_ATTEMPT v) m st cause :=
  h.setMach _ (getF_setF_ne _ _ _ _ (by decide)) (getF_setF_ne _ _ _ _ (by decide)) rfl rfl

theorem Entered.host {st cause : Nat} {l : List Nat} (h : Entered d e m st cause) (k : FrameOn hostPart l e f) (hl : R.PG_EVT_RAW Pg.SAFE ∉ l) :
    Entered d f m st cause := h.kept (k.hostMachS m) (k.raised hostPart_part hl)

theorem Dev.machGo_entered (d : Dev) (m : Nat) {new cause : Nat} (hn : new < 16) (hc : cause < 256) : Entered d (d.machGo m new cause) m new cause := by
  have hs := d.machGo_same m new cause
  refine ⟨?_, ?_, ?_, ?_, d.machGo_raised m new cause⟩
  · rw [Dev.mState, hs]; exact d.goneTo_state m cause hn
  · rw [Dev.mStat, hs]; exact d.goneTo_cause m new hc
  · rw [hs]; rfl
  · rw [hs]; rfl

section
variable (hm : m < 20) (hlive : d.replaying = false) {cause : Nat} (hc : cause < 256)
include hm hlive

/-- What precedes the entry into a safe state: enables dropped, legs forced off, contexts disabled. -/
theorem MachRun.safeOff : MachRun m d (((d.mDrop m).mForce m 1 true).mCtxOff m) :=
  (((MachRun.refl m d).mDrop hm).mForce hm hlive 1 true).mCtxOff hm hlive

theorem Dev.safeOff_low : EnablesLow d (((d.mDrop m).mForce m 1 true).mCtxOff m) m := by
  have h1 := (MachRun.refl m d).mDrop hm
  have h2 := h1.mForce hm hlive 1 true
  have l1 := (h1.live hm).trans hlive
  have l2 := (h2.live hm).trans hlive
  exact ((d.mDrop_low hm).kept hm (.mForce _ l1 hm 1 true)).kept hm (.mCtxOff _ l2 hm)

include hc in
theorem Dev.toSto_entered : Entered d (d.toSto m cause) m MS.STO cause :=
  ((Dev.machGo_entered _ m (by decide) hc).disP).base (MachRun.safeOff hm hlive).gtc

include hc in
theorem Dev.toFault_entered : Entered d (d.toFault m cause) m MS.FAULT cause :=
  ((Dev.machGo_entered _ m (by decide) hc).disP).base (MachRun.safeOff hm hlive).gtc

theorem Dev.toSto_low : EnablesLow d (d.toSto m cause) m := ((d.safeOff_low hm hlive).kept hm (.machGo _ hm _ _)).kept hm (.disP _)

theorem Dev.toFault_low : EnablesLow d (d.toFault m cause) m := ((d.safeOff_low hm hlive).kept hm (.machGo _ hm _ _)).kept hm (.disP _)

include hc in
theorem Dev.toAsc_entered : Entered d (d.toAsc m cause) m MS.ASC cause :=
  (Dev.machGo_entered _ m (by decide) hc).base ((MachRun.refl m d).mCtxOff hm hlive).gtc

/-- CATCH entered, before its context measures. -/
def Dev.catchEntry (d : Dev) (m cause : Nat) : Dev := ((((d.mDrop m).mForce m 1 true).mCtxOff m).machGo m MS.CATCH cause).disP

omit hm hlive in
theorem Dev.toCatch_eq (d : Dev) (m cause : Nat) : d.toCatch m cause =
    if (d.catchEntry m cause).mSensorless m && !((d.catchEntry m cause).machS m).clr then
      (d.catchEntry m cause).mCtx ((d.catchEntry m cause).mCatch m) true else d.catchEntry m cause := rfl

theorem MachRun.catchEntry (cause : Nat) : MachRun m d (d.catchEntry m cause) := ((MachRun.safeOff hm hlive).machGo hm MS.CATCH cause).disP

/-- What CATCH gives when it is entered stands whether or not its context measures. -/
theorem Dev.toCatch_machS (cause : Nat) : (d.toCatch m cause).machS m = (d.catchEntry m cause).machS m := by
  have hrun := MachRun.catchEntry (d := d) hm hlive cause
  rw [Dev.toCatch_eq]
  split
  · exact (Dev.mCtx_on _ ((hrun.live hm).trans hlive) _ true).hostMachS m
  · rfl

include hc in
theorem Dev.toCatch_entered : Entered d (d.toCatch m cause) m MS.CATCH cause := by
  have hrun := MachRun.catchEntry (d := d) hm hlive cause
  have hent : Entered d (d.catchEntry m cause) m MS.CATCH cause :=
    ((Dev.machGo_entered _ m (by decide) hc).disP).base (MachRun.safeOff hm hlive).gtc
  refine hent.kept (Dev.toCatch_machS hm hlive cause) fun hr => ?_
  rw [Dev.toCatch_eq]
  split
  · refine (Dev.mCtx_on _ ((hrun.live hm).trans hlive) _ true).raised hostPart_part ?_ hr
    intro ha
    have := mCatch_lt (d.catchEntry m cause) m
    simp only [ctxRegs, List.mem_append, List.mem_map, List.mem_range, List.mem_cons, List.not_mem_nil, or_false, ctxA, R.CTX_CTRL, R.LEC_FLAG, R.PG_STAT,
      R.PG_EVT_RAW, pageBase, Pg.CTX, Pg.SAFE, R.SYS_ABSENT_CNT] at ha
    omega
  · exact hr

theorem Dev.toCatch_low : EnablesLow d (d.toCatch m cause) m := by
  have hrun := MachRun.catchEntry (d := d) hm hlive cause
  have hlow : EnablesLow d (d.catchEntry m cause) m := ((d.safeOff_low hm hlive).kept hm (.machGo _ hm _ _)).kept hm (.disP _)
  rw [Dev.toCatch_eq]
  split
  · exact hlow.kept hm (.mCtx _ ((hrun.live hm).trans hlive) (mCatch_lt _ m) true)
  · exact hlow

end

end
end Sys2Proof.Machine
end

section
/-! PROOFS. The registers of forced states: what a taken write leaves in them, whoever writes the others (R292). -/

namespace Sys2Proof.Machine

/-- The fields of PWT_LEG. -/
def legFields : List FieldDef := [⟨F.PWT_LEG_FORCE, .rw, 0⟩, ⟨F.PWT_LEG_IMM, .rw, 0⟩, ⟨F.PWT_LEG_SWAP, .rwc, 0⟩, ⟨F.PWT_LEG_INV, .rwc, 0⟩]

theorem regAt_pwtLeg : ∀ x < 3, regAt .pwtB (0xA0 + 4 * x) = some (⟨0x0A0, 0x4, 3, 0, 1, legFields⟩, x, 0) := by decide
theorem regAt_pwaLeg : ∀ x < 3, regAt .pwaB (0xA0 + 4 * x) = some (⟨0x0A0, 0x4, 3, 0, 1, legFields⟩, x, 0) := by decide

/-- Where a leg's register lies, and what belongs to it. -/
structure LegAt (d : Dev) (g x : Nat) (b : Block) (i : Nat) : Prop where
  block : InBlock (R.PWT_LEG g x) b i
  page : pageOf (R.PWT_LEG g x) = Pg.PWT g
  offset : offOf (R.PWT_LEG g x) = 0xA0 + 4 * x
  fields : regAt b (0xA0 + 4 * x) = some (⟨0x0A0, 0x4, 3, 0, 1, legFields⟩, x, 0)
  alone : ∀ f, chanMOnly b (0xA0 + 4 * x) f = false
  bits : absentBits d.member b i (0xA0 + 4 * x) = 0
  own : d.ownAt b i (Pg.PWT g) (0xA0 + 4 * x) = .page (Pg.PWT g)

theorem legAt {g x : Nat} (hg : g < 20) (hx : x < 3) : ∃ b i, (∀ d, LegAt d g x b i) ∧ (b = .pwtB ∧ i = g ∨ b = .pwaB ∧ 12 + i = g) := by
  obtain ⟨b, i, hb, hbi, hpage, hoff⟩ := inBlock_pwtLeg g hg x hx
  refine ⟨b, i, fun d => ?_, hbi⟩
  have hno : ¬(b = .adaB ∧ 0x400 ≤ 0xA0 + 4 * x ∧ 0xA0 + 4 * x < 0x580) := by omega
  have hown : ownOf b i (Pg.PWT g) (0xA0 + 4 * x) = .page (Pg.PWT g) → d.ownAt b i (Pg.PWT g) (0xA0 + 4 * x) = .page (Pg.PWT g) := fun h => by
    rw [Dev.ownAt, if_neg hno, h]
  obtain ⟨rfl, -⟩ | ⟨rfl, -⟩ := hbi
  · exact ⟨hb, hpage, hoff, regAt_pwtLeg x hx, fun _ => rfl, rfl, hown rfl⟩
  · exact ⟨hb, hpage, hoff, regAt_pwaLeg x hx, fun _ => rfl, rfl, hown rfl⟩

theorem eventReg_pwtLeg (g x : Nat) (hx : x < 3) : eventReg (R.PWT_LEG g x) = false := by
  rw [eventReg_eq_false]
  simp only [R.PWT_LEG]
  omega

section
variable {d e : Dev} {g x mid : Nat} {b : Block} {i : Nat}

theorem LegAt.placed (h : LegAt d g x b i) (ht : d.takenAt mid (R.PWT_LEG g x) = true) : Placed d (R.PWT_LEG g x) b i (0xA0 + 4 * x) := by
  rw [Dev.takenAt, h.block.info] at ht
  dsimp only at ht
  rw [h.offset] at ht
  simp only [Bool.and_eq_true, Bool.not_eq_true'] at ht
  obtain ⟨⟨⟨hthere, hpresent⟩, -⟩, -⟩ := ht
  exact ⟨h.block.info, h.offset, hthere, hpresent, by omega⟩

/-- A field that a write may change in CONFIGURE alone takes it only where one that it may change always does. -/
theorem Dev.fieldOk_rw_of {page off : Nat} {fd fd' : FieldDef} (ha : fd.acc = .rw ∨ fd.acc = .rwc) (ha' : fd'.acc = .rw)
    (hm : chanMOnly b off fd.f = false) (hm' : chanMOnly b off fd'.f = false) (hok : d.fieldOk mid b i page off fd = true) :
    d.fieldOk mid b i page off fd' = true := by
  rw [Dev.fieldOk, hm] at hok
  rw [Dev.fieldOk, hm', ha']
  obtain ha | ha := ha
  · rw [ha] at hok
    exact hok
  · rw [ha] at hok
    exact (Bool.and_eq_true _ _ ▸ hok).1

/-- A taken write of PWT_LEG changes FORCE and IMM. -/
theorem LegAt.rw_ok (h : LegAt d g x b i) (ht : d.takenAt mid (R.PWT_LEG g x) = true) {fd : FieldDef} (hfd : fd.acc = .rw) :
    d.fieldOk mid b i (Pg.PWT g) (0xA0 + 4 * x) fd = true := by
  rw [Dev.takenAt, h.block.info] at ht
  dsimp only at ht
  rw [h.offset, h.page, Dev.writeTaken, h.fields] at ht
  simp only [Bool.and_eq_true] at ht
  obtain ⟨fd', hmem, hok⟩ := List.any_eq_true.1 ht.2
  refine Dev.fieldOk_rw_of ?_ hfd (h.alone _) (h.alone _) hok
  simp only [legFields, List.mem_cons, List.not_mem_nil, or_false] at hmem
  obtain rfl | rfl | rfl | rfl := hmem
  · exact .inl rfl
  · exact .inl rfl
  · exact .inr rfl
  · exact .inr rfl

theorem LegAt.plainWrite_reg (h : LegAt d g x b i) (ht : d.takenAt mid (R.PWT_LEG g x) = true) (w : Word) :
    (d.plainWrite mid (R.PWT_LEG g x) w).reg (R.PWT_LEG g x) =
      applyFields (d.fieldOk mid b i (Pg.PWT g) (0xA0 + 4 * x)) w legFields (d.reg (R.PWT_LEG g x)) := by
  have hbase : pageBase (Pg.PWT g) + (0xA0 + 4 * x) = R.PWT_LEG g x := by
    rw [← h.page, ← h.offset]
    exact pageBase_pageOf h.block.space
  rw [Dev.plainWrite_placed (h.placed ht) h.fields mid (by rw [h.bits]; exact BitVec.and_zero), h.page, Dev.writeFields, Dev.reg_denyIf, hbase,
    Dev.reg_setReg_self]
  rw [if_neg]
  rintro ⟨-, hx⟩
  have hne := ne_header (p := Pg.PWT g) (k := 0xC) (show 0x40 ≤ offOf (R.PWT_LEG g x) from h.block.beyond) (by decide)
  exact hne hx

/-- What a taken write leaves in FORCE and IMM. -/
theorem LegAt.plainWrite_force (h : LegAt d g x b i) (ht : d.takenAt mid (R.PWT_LEG g x) = true) (w : Word) :
    (d.plainWrite mid (R.PWT_LEG g x) w).get (R.PWT_LEG g x) F.PWT_LEG_FORCE = getF w F.PWT_LEG_FORCE ∧
    (d.plainWrite mid (R.PWT_LEG g x) w).get (R.PWT_LEG g x) F.PWT_LEG_IMM = getF w F.PWT_LEG_IMM := by
  have hreg := h.plainWrite_reg ht w
  have hfd : ∀ fd ∈ legFields, fd.acc = .rw → (d.plainWrite mid (R.PWT_LEG g x) w).get (R.PWT_LEG g x) fd.f = getF w fd.f := fun fd hfd hacc =>
    (fieldTaken_applyFields (by decide) hfd hreg).get_eq (h.rw_ok ht hacc) (.inl hacc)
  exact ⟨hfd ⟨F.PWT_LEG_FORCE, .rw, 0⟩ (by simp [legFields]) rfl, hfd ⟨F.PWT_LEG_IMM, .rw, 0⟩ (by simp [legFields]) rfl⟩

/-- A write of PWT_LEG by the bus goes to the leg; it is recorded. -/
theorem Dev.pWrite_leg (hg : g < 20) (hx : x < 3) (hlive : d.replaying = false) (ht : d.takenAt mid (R.PWT_LEG g x) = true) (w : Word) :
    Quiet (d.legForceWrite mid g x w) (d.pWrite mid (R.PWT_LEG g x) w) := by
  obtain ⟨b, i, hat, hbi⟩ := legAt hg hx
  have h := hat d
  have hplaced := Dev.pWrite_placed (h.placed ht) hlive mid w
  have hpage : d.pwmPageWrite mid g (0xA0 + 4 * x) (R.PWT_LEG g x) w = d.legForceWrite mid g x w := by
    rw [Dev.pwmPageWrite, if_neg (by omega), if_neg (by omega), if_neg (by omega), if_pos (by omega)]
    have hdiv : (0xA0 + 4 * x - 0xA0) / 4 = x := by omega
    rw [hdiv]
  rw [← hpage]
  obtain ⟨rfl, rfl⟩ | ⟨rfl, rfl⟩ := hbi
  · exact hplaced
  · exact hplaced

/-- What keeps a leg's write taken: the page's owner. -/
theorem Dev.takenAt_leg (hg : g < 20) (hx : x < 3) (hm : e.member = d.member) (ho : e.reg (R.PG_CTRL (Pg.PWT g)) = d.reg (R.PG_CTRL (Pg.PWT g))) :
    e.takenAt Mid.S0 (R.PWT_LEG g x) = d.takenAt Mid.S0 (R.PWT_LEG g x) := by
  obtain ⟨b, i, hat, -⟩ := legAt hg hx
  have hown : e.ownOk Mid.S0 (.page (Pg.PWT g)) = d.ownOk Mid.S0 (.page (Pg.PWT g)) := by
    rw [Dev.ownOk, Dev.ownOk, Dev.pageOwner, Dev.pageOwner, Dev.get, Dev.get, ho]
  have hone : ∀ (u : Dev) (fd : FieldDef), fd.acc = .rw → LegAt u g x b i →
      u.fieldOk Mid.S0 b i (Pg.PWT g) (0xA0 + 4 * x) fd = u.ownOk Mid.S0 (.page (Pg.PWT g)) := by
    intro u fd ha hu
    have hs1 : (Mid.S0 == Mid.S1) = false := rfl
    rw [Dev.fieldOk, hu.alone, hu.own, ha, hs1]
    simp [Dev.asS0]
  have htwo : ∀ (u : Dev) (fd : FieldDef), fd.acc = .rwc → LegAt u g x b i → u.ownOk Mid.S0 (.page (Pg.PWT g)) = false →
      u.fieldOk Mid.S0 b i (Pg.PWT g) (0xA0 + 4 * x) fd = false := by
    intro u fd ha hu ho
    have hs1 : (Mid.S0 == Mid.S1) = false := rfl
    rw [Dev.fieldOk, hu.alone, hu.own, ha, hs1]
    simp [ho]
  have hany : ∀ u, LegAt u g x b i → u.writeTaken Mid.S0 b i (Pg.PWT g) (0xA0 + 4 * x) = u.ownOk Mid.S0 (.page (Pg.PWT g)) := by
    intro u hu
    rw [Dev.writeTaken, hu.fields]
    simp only [legFields, List.any_cons, List.any_nil, Bool.or_false]
    rw [hone u ⟨F.PWT_LEG_FORCE, .rw, 0⟩ rfl hu, hone u ⟨F.PWT_LEG_IMM, .rw, 0⟩ rfl hu]
    cases ho : u.ownOk Mid.S0 (.page (Pg.PWT g))
    · rw [htwo u ⟨F.PWT_LEG_SWAP, .rwc, 0⟩ rfl hu ho, htwo u ⟨F.PWT_LEG_INV, .rwc, 0⟩ rfl hu ho]
      rfl
    · rfl
  have htaken : ∀ u, LegAt u g x b i → u.takenAt Mid.S0 (R.PWT_LEG g x) =
      (blockPresent u.member b i && !absentReg u.member b i (0xA0 + 4 * x) && decide (0x40 ≤ 0xA0 + 4 * x) && u.ownOk Mid.S0 (.page (Pg.PWT g))) := by
    intro u hu
    rw [Dev.takenAt, hu.block.info]
    dsimp only
    rw [hu.offset, hu.page, hany u hu]
  rw [htaken e (hat e), htaken d (hat d), hown, hm]


/-- The forced state of a leg after a taken write by the bus. -/
theorem Dev.pWrite_force (hg : g < 20) (hx : x < 3) (hlive : d.replaying = false) (ht : d.takenAt mid (R.PWT_LEG g x) = true) (w : Word) :
    (d.pWrite mid (R.PWT_LEG g x) w).get (R.PWT_LEG g x) F.PWT_LEG_FORCE = getF w F.PWT_LEG_FORCE := by
  obtain ⟨b, i, hat, -⟩ := legAt hg hx
  have heq : (d.legForceWrite mid g x w).get (R.PWT_LEG g x) F.PWT_LEG_FORCE = (d.plainWrite mid (R.PWT_LEG g x) w).get (R.PWT_LEG g x) F.PWT_LEG_FORCE := by
    rw [Dev.legForceWrite]
    split
    · rfl
    · dsimp only
      split <;> rfl
  rw [(Dev.pWrite_leg hg hx hlive ht w).get (eventReg_pwtLeg g x hx), heq]
  exact ((hat d).plainWrite_force ht w).1

end
end Sys2Proof.Machine
end

section
/-! PROOFS. The timers of a machine (R336, R340, R342, R344, R351). -/

namespace Sys2Proof.Machine

/-! ### A state reached in a fold -/

/-- What one step of a fold brings about, and every step keeps, the fold brings about. -/
theorem foldl_gets {σ α : Type} {I Q : σ → Prop} {f : σ → α → σ} {l : List α} (hI : ∀ x ∈ l, ∀ s, I s → I (f s x))
    (hkeep : ∀ x ∈ l, ∀ s, I s → Q s → Q (f s x)) {y : α} (hy : y ∈ l) (hget : ∀ s, I s → Q (f s y)) {s : σ} (hs : I s) : Q (l.foldl f s) := by
  induction l generalizing s with
  | nil => cases hy
  | cons x l ih =>
    have hI' : ∀ z ∈ l, ∀ s, I s → I (f s z) := fun z hz => hI z (List.mem_cons_of_mem _ hz)
    have hkeep' : ∀ z ∈ l, ∀ s, I s → Q s → Q (f s z) := fun z hz => hkeep z (List.mem_cons_of_mem _ hz)
    have hx : I (f s x) := hI x List.mem_cons_self s hs
    rw [List.foldl_cons]
    rcases List.mem_cons.1 hy with rfl | hy
    · have hboth : I (l.foldl f (f s y)) ∧ Q (l.foldl f (f s y)) :=
        foldl_keeps (P := fun t => I t ∧ Q t) (fun z hz t ht => ⟨hI' z hz t ht.1, hkeep' z hz t ht.1 ht.2⟩) ⟨hx, hget s hs⟩
      exact hboth.2
    · exact ih hI' hkeep' hy hx

theorem forN_gets {σ : Type} {I Q : σ → Prop} {f : Nat → σ → σ} (n : Nat) (hI : ∀ k < n, ∀ s, I s → I (f k s))
    (hkeep : ∀ k < n, ∀ s, I s → Q s → Q (f k s)) {j : Nat} (hj : j < n) (hget : ∀ s, I s → Q (f j s)) {s : σ} (hs : I s) : Q (forN n f s) :=
  foldl_gets (fun k hk => hI k (List.mem_range.1 hk)) (fun k hk => hkeep k (List.mem_range.1 hk)) (List.mem_range.2 hj) hget hs

/-! ### Forces of a machine -/

section
variable {d e : Dev} {m g x : Nat}

/-- A machine's write of one leg's force. -/
def Dev.forceOne (d : Dev) (code : Nat) (imm : Bool) (g x : Nat) : Dev :=
  d.pWrite Mid.S0 (R.PWT_LEG g x) (setF (setF (d.reg (R.PWT_LEG g x)) F.PWT_LEG_FORCE code) F.PWT_LEG_IMM (b2n imm))

theorem Dev.mForce_eq (d : Dev) (m code : Nat) (imm : Bool) :
    d.mForce m code imm = (d.mGroups m).foldl (fun e g => forN 3 (fun x e => e.forceOne code imm g x) e) d := rfl

theorem Dev.forceOne_frame (hlive : d.replaying = false) (hg : g < 20) (hx : x < 3) (code : Nat) (imm : Bool) :
    FrameOn hostPart (legForceRegs g x) d (d.forceOne code imm g x) :=
  (FrameOn.refl hostPart_part _ d).forceWrite hlive hg hx (fun _ ha => ha) _ _

theorem Dev.forceOne_self (hlive : d.replaying = false) (hg : g < 20) (hx : x < 3) (ht : d.takenAt Mid.S0 (R.PWT_LEG g x) = true) (code : Nat)
    (imm : Bool) : (d.forceOne code imm g x).get (R.PWT_LEG g x) F.PWT_LEG_FORCE = code % 4 := by
  rw [Dev.forceOne, Dev.pWrite_force hg hx hlive ht, getF_setF_ne _ _ _ _ (by decide), getF_setF_self _ _ _ (by decide)]
  rfl

/-- A taken force of one of a machine's legs stands in its register. -/
theorem Dev.mForce_force (hlive : d.replaying = false) (hm : m < 20) (hg : g ∈ d.mGroups m) (hx : x < 3) (ht : d.takenAt Mid.S0 (R.PWT_LEG g x) = true)
    (code : Nat) (imm : Bool) : (d.mForce m code imm).get (R.PWT_LEG g x) F.PWT_LEG_FORCE = code % 4 := by
  have hp := hostPart_part
  have hlt := mGroups_lt (d := d) hm
  have hctrl : R.PG_CTRL (Pg.PWT g) ∉ mForceRegs d m := by
    intro ha
    obtain ⟨h, hh, ha⟩ := List.mem_flatMap.1 ha
    have h1 := hlt g hg
    have h2 := hlt h hh
    simp only [forceRegs, List.mem_append, List.mem_map, List.mem_range, List.mem_cons, List.not_mem_nil, or_false, R.PWT_LEG, R.PG_STAT, R.PG_CTRL,
      pageBase, Pg.PWT, R.SYS_ABSENT_CNT] at ha
    omega
  have hsub : ∀ h ∈ d.mGroups m, ∀ y < 3, ∀ a ∈ legForceRegs h y, a ∈ mForceRegs d m := fun h hh y hy a ha =>
    List.mem_flatMap.2 ⟨h, hh, legForceRegs_sub hy a ha⟩
  have hI : ∀ h ∈ d.mGroups m, ∀ y < 3, ∀ e, FrameOn hostPart (mForceRegs d m) d e → FrameOn hostPart (mForceRegs d m) d (e.forceOne code imm h y) :=
    fun h hh y hy e he => he.forceWrite ((he.hostLive (mForceRegs_live hm)).trans hlive) (hlt h hh) hy (hsub h hh y hy) _ _
  have hown : ∀ e, FrameOn hostPart (mForceRegs d m) d e → (e.forceOne code imm g x).get (R.PWT_LEG g x) F.PWT_LEG_FORCE = code % 4 := by
    intro e he
    have htaken := Dev.takenAt_leg (hlt g hg) hx he.hostMember (he.reg hp (by
      rw [eventReg_eq_false]
      have := hlt g hg
      simp only [R.PG_CTRL, pageBase, Pg.PWT]
      omega) hctrl)
    exact Dev.forceOne_self ((he.hostLive (mForceRegs_live hm)).trans hlive) (hlt g hg) hx (htaken.trans ht) code imm
  have hkeep : ∀ h ∈ d.mGroups m, ∀ y < 3, ∀ e, FrameOn hostPart (mForceRegs d m) d e → e.get (R.PWT_LEG g x) F.PWT_LEG_FORCE = code % 4 →
      (e.forceOne code imm h y).get (R.PWT_LEG g x) F.PWT_LEG_FORCE = code % 4 := by
    intro h hh y hy e he hq
    by_cases hsame : h = g ∧ y = x
    · obtain ⟨rfl, rfl⟩ := hsame
      exact hown e he
    · refine (Dev.get_of_reg ((Dev.forceOne_frame ((he.hostLive (mForceRegs_live hm)).trans hlive) (hlt h hh) hy code imm).reg hp
        (eventReg_pwtLeg g x hx) fun ha => ?_) _).trans hq
      have h1 := hlt g hg
      have h2 := hlt h hh
      simp only [legForceRegs, List.mem_cons, List.not_mem_nil, or_false, R.PWT_LEG, R.PG_STAT, pageBase, Pg.PWT, R.SYS_ABSENT_CNT] at ha
      omega
  rw [Dev.mForce_eq]
  refine foldl_gets (I := FrameOn hostPart (mForceRegs d m) d) (Q := fun e : Dev => e.get (R.PWT_LEG g x) F.PWT_LEG_FORCE = code % 4)
    (fun h hh e he => forN_keeps (P := FrameOn hostPart (mForceRegs d m) d) 3 (hI h hh) he) (fun h hh e he hq => ?_) hg
    (fun e he => forN_gets 3 (hI g hg) (hkeep g hg) hx hown he) (FrameOn.refl hp _ d)
  have hboth : FrameOn hostPart (mForceRegs d m) d (forN 3 (fun x e => e.forceOne code imm h x) e) ∧ _ :=
    forN_keeps (P := fun u : Dev => FrameOn hostPart (mForceRegs d m) d u ∧ u.get (R.PWT_LEG g x) F.PWT_LEG_FORCE = code % 4) 3
      (fun y hy u hu => ⟨hI h hh y hy u hu.1, hkeep h hh y hy u hu.1 hu.2⟩) ⟨he, hq⟩
  exact hboth.2

end

end Sys2Proof.Machine
end

section
/-! PROOFS. What the timers of a machine bring about, and the obligation (R336, R340, R342, R344, R351). -/

namespace Sys2Proof.Machine

section
variable {d e f : Dev} {m : Nat}

theorem mDefined_lt (h : d.mDefined m = true) : m < 20 := by
  rw [Dev.mDefined, Bool.and_eq_true, decide_eq_true_eq] at h
  exact h.1

theorem Dev.machEvent_raised (d : Dev) (m src : Nat) : Raised (d.machEvent m src) Pg.SAFE src := Dev.raiseN_raised _ _ rfl

theorem Dev.machEvent_machS (d : Dev) (m src j : Nat) : (d.machEvent m src).machS j = d.machS j :=
  ((Dev.raiseN_quiet _ _ _ _).machS j).trans (d.machS_setReg _ _ _)

theorem Dev.disP_machS (d : Dev) (j : Nat) : d.disP.machS j = d.machS j := d.machS_setReg _ _ _

theorem Dev.setMach_raised (d : Dev) (m : Nat) (v : MachSt) {page src : Nat} (h : Raised d page src) : Raised (d.setMach m v) page src := h

theorem Dev.mDrop_machS (d : Dev) (hm : m < 20) (j : Nat) : (d.mDrop m).machS j = d.machS j :=
  (d.mDrop_frame fun _ hg => machRegs_enable hm hg).hostMachS j

theorem Dev.mForce_machS (d : Dev) (hlive : d.replaying = false) (hm : m < 20) (code : Nat) (imm : Bool) (j : Nat) :
    (d.mForce m code imm).machS j = d.machS j := (d.mForce_on hlive hm code imm).hostMachS j

theorem Dev.mCtxOff_machS (d : Dev) (hlive : d.replaying = false) (hm : m < 20) (j : Nat) : (d.mCtxOff m).machS j = d.machS j := by
  have h1 := (MachRun.refl m d).mCtx hm hlive (mUses_main (d := d)) false
  exact ((Dev.mCtx_on _ ((h1.live hm).trans hlive) _ false).hostMachS j).trans ((d.mCtx_on hlive _ false).hostMachS j)

section
variable (hm : m < 20) (hlive : d.replaying = false)
include hm hlive

/-- Arming is complete (R336): no leg is forced, the machine waits for its load point. -/
theorem Dev.armDone_spec : MachOnly d (d.armDone m) m ∧ (d.armDone m).machS m = { d.machS m with armed := true } ∧
    ∀ g ∈ d.mGroups m, ∀ x < 3, d.takenAt Mid.S0 (R.PWT_LEG g x) = true → (d.armDone m).get (R.PWT_LEG g x) F.PWT_LEG_FORCE = 0 := by
  refine ⟨((MachRun.refl m d).armDone hm hlive).only hm, ?_, fun g hg x hx ht => Dev.mForce_force hlive hm hg hx ht 0 false⟩
  rw [Dev.armDone, Dev.machS_setMach_self, d.mForce_machS hlive hm]

/-- An arming that has failed (R336). -/
structure ArmFailed (d e : Dev) (m : Nat) : Prop where
  state : e.mState m = MS.STO
  cause : e.mStat m F.MD_CAUSE = 5
  target : (e.machS m).target = none
  low : EnablesLow d e m
  told : Raised e Pg.SAFE Ev.MACH_ARM_FAIL

/-- What an arming that fails leaves, before its event. -/
def Dev.armBack (d : Dev) (m : Nat) : Dev :=
  if d.mState m = MS.STO then
      let d := (d.mDrop m).mCtxOff m
      (d.setMach m { d.machS m with target := none, armed := false, wind := false }).setMStat m F.MD_CAUSE 5
    else d.toSto m 5

omit hm hlive in
theorem Dev.armFail_eq (d : Dev) (m : Nat) : d.armFail m = (d.armBack m).machEvent m Ev.MACH_ARM_FAIL := rfl

theorem Dev.armBack_spec : (d.armBack m).mState m = MS.STO ∧ (d.armBack m).mStat m F.MD_CAUSE = 5 ∧ ((d.armBack m).machS m).target = none ∧
    EnablesLow d (d.armBack m) m := by
  have hdrop := (MachRun.refl m d).mDrop hm
  have hl := (hdrop.live hm).trans hlive
  rw [Dev.armBack]
  split
  · next hst =>
    dsimp only
    have hs : ((d.mDrop m).mCtxOff m).machS m = d.machS m := (Dev.mCtxOff_machS _ hl hm m).trans (d.mDrop_machS hm m)
    have hlow : EnablesLow d ((d.mDrop m).mCtxOff m) m := (d.mDrop_low hm).kept hm (.mCtxOff _ hl hm)
    generalize (d.mDrop m).mCtxOff m = u at hs hlow ⊢
    refine ⟨?_, ?_, ?_, (hlow.kept hm (.setMach _ _ _)).kept hm (.setMach _ _ _)⟩
    · rw [Dev.mState, Dev.setMStat, Dev.machS_setMach_self, Dev.machS_setMach_self, getF_setF_ne _ _ _ _ (by decide), hs]
      exact hst
    · rw [Dev.mStat, Dev.setMStat, Dev.machS_setMach_self, getF_setF_self _ _ _ (by decide)]
      rfl
    · rw [Dev.setMStat, Dev.machS_setMach_self, Dev.machS_setMach_self]
  · obtain ⟨h1, h2, h3, -, -⟩ := Dev.toSto_entered hm hlive (cause := 5) (by decide)
    exact ⟨h1, h2, h3, Dev.toSto_low hm hlive⟩

theorem Dev.armFail_spec : ArmFailed d (d.armFail m) m := by
  obtain ⟨h1, h2, h3, h4⟩ := Dev.armBack_spec hm hlive
  rw [Dev.armFail_eq]
  have hs := Dev.machEvent_machS (d.armBack m) m Ev.MACH_ARM_FAIL m
  refine ⟨?_, ?_, ?_, h4.kept hm (.machEvent _ _ _), Dev.machEvent_raised _ _ _⟩
  · rw [Dev.mState, hs]; exact h1
  · rw [Dev.mStat, hs]; exact h2
  · rw [hs]; exact h3

omit hlive in
/-- A failed arming noted as a reaction. -/
theorem ArmFailed.reacted (h : ArmFailed d e m) : ArmFailed d (e.reacted m) m := by
  obtain ⟨h1, h2, h3, h4, h5⟩ := h
  refine ⟨?_, ?_, ?_, h4.kept hm (.setMach _ _ _), h5⟩
  · rw [Dev.mState, Dev.reacted, Dev.machS_setMach_self]; exact h1
  · rw [Dev.mStat, Dev.reacted, Dev.machS_setMach_self]; exact h2
  · rw [Dev.reacted, Dev.machS_setMach_self]; exact h3

end

/-! ### The decision of CATCH (R340) -/

/-- What a preset leaves of a machine's record. -/
theorem MachPrep.fields (h : MachPrep m d e) : (e.machS m).stat = (d.machS m).stat ∧ (e.machS m).target = (d.machS m).target := by
  have hk := h.kept
  generalize e.machS m = a at hk
  generalize d.machS m = b at hk
  exact ⟨(congrArg MachSt.stat hk :), (congrArg MachSt.target hk :)⟩

/-- A machine that goes to a decided state: it waits for its arming, or is on its way. -/
def GoesTo (e : Dev) (m t : Nat) : Prop := (e.machS m).ready = some t ∨ (e.machS m).target = some t

theorem Dev.armBegin_machS (hlive : d.replaying = false) (hm : m < 20) (t : Nat) : (d.armBegin m t).machS m =
    { d.machS m with target := some t, armAt := d.gtc, armed := false, ready := none } := by
  have h1 := (MachRun.refl m d).mForce hm hlive 1 true
  have h2 := h1.mGrant hm
  have hs : ((d.mForce m 1 true).mGrant m).machS m = d.machS m :=
    ((Dev.mGrant_frame _ fun _ hg => machRegs_enable hm hg).hostMachS m).trans (d.mForce_machS hlive hm 1 true m)
  rw [Dev.armBegin, Dev.machS_setMach_self, hs, h2.gtc]

/-- A decided target is armed at once, or waits. -/
theorem Dev.catchArm_goes (hlive : d.replaying = false) (hm : m < 20) {t : Nat} (hr : (d.machS m).ready = some t) :
    (d.catchArm m).mState m = d.mState m ∧ GoesTo (d.catchArm m) m t := by
  have heq : d.catchArm m = if ((d.machS m).target.isNone && d.armOk m t) = true then d.armBegin m t else d := by
    rw [Dev.catchArm, hr]
  rw [heq]
  split
  · have hs := Dev.armBegin_machS hlive hm t
    refine ⟨?_, .inr ?_⟩
    · rw [Dev.mState, hs]; rfl
    · rw [hs]
  · exact ⟨rfl, .inl hr⟩

theorem Dev.catchArm_none (h : (d.machS m).ready = none) : d.catchArm m = d := by rw [Dev.catchArm, h]

section
variable (hm : m < 20) (hlive : d.replaying = false)
include hm hlive

/-- A preset that ends with a decided target, then the arming. -/
theorem MachPrep.goes (h : MachPrep m d e) (t : Nat) :
    ((e.setReady m t).catchArm m).mState m = d.mState m ∧ GoesTo ((e.setReady m t).catchArm m) m t := by
  have hs : (e.setReady m t).machS m = { e.machS m with ready := some t } := Dev.machS_setMach_self _ _ _
  have hl : (e.setReady m t).replaying = false := (h.run.live hm).trans hlive
  obtain ⟨h1, h2⟩ := Dev.catchArm_goes hl hm (t := t) (by rw [hs])
  refine ⟨h1.trans ?_, h2⟩
  rw [Dev.mState, hs]
  exact congrArg (fun w => getF w F.MD_STATE) h.fields.1

/-- How the rotor turned, noted. -/
def Dev.turnNoted (d : Dev) (m : Nat) (b : Bool) : Dev := d.setMach m { d.machS m with back := b }

/-- What a standstill brings. -/
def Dev.slowGo (d u : Dev) (m : Nat) : Dev :=
  if !u.mSensorless m then
    (u.prepare m 0 fone fun e => (e.zeroIntegrators (e.mMain m)).zeroIntegrators (e.mSpd m)).setReady m MS.RUN
  else if u.md m 0 F.MD_ALIGN = 1 ∧ d.mStat m F.MD_ATTEMPT = 0 then (u.prepare m 2 (u.startCurrent m 0) fun e => e.rampRest m).setReady m MS.ALIGN
  else (u.prepare m 1 (u.startCurrent m (d.mStat m F.MD_ATTEMPT)) fun e => e.rampRest m).setReady m MS.START

omit hm hlive in
theorem Dev.catchDecide_none (d : Dev) (m : Nat) : d.catchDecide m none = d.slowGo (d.turnNoted m false) m := rfl

omit hm hlive in
theorem Dev.catchDecide_slow (d : Dev) (m : Nat) {w : Frac} (th : Frac) (h : w.abs.lt (d.mdSpeed m 4 F.MD_LO) = true) :
    d.catchDecide m (some (w, th)) = d.slowGo (d.turnNoted m false) m := by
  have hback : (!w.abs.lt (d.mdSpeed m 4 F.MD_LO) && (decide (w.num < 0) != (d.machS m).neg)) = false := by rw [h]; rfl
  calc d.catchDecide m (some (w, th))
      = d.slowGo (d.turnNoted m (!w.abs.lt (d.mdSpeed m 4 F.MD_LO) && (decide (w.num < 0) != (d.machS m).neg))) m := if_pos h
    _ = d.slowGo (d.turnNoted m false) m := by rw [hback]

/-- What a turning rotor brings, slow enough for the currents to be preset, or too fast. -/
def Dev.turnGo (d : Dev) (m : Nat) (w th : Frac) : Dev :=
  let d := d.setMach m { d.machS m with trust := if d.mSensorless m then w else (d.machS m).trust }
  (d.prepare m 0 fone fun e => e.presetTurning m w th).setReady m MS.RUN

def Dev.turnWait (d : Dev) (m : Nat) : Dev :=
  let first := !(d.machS m).again
  let d := d.setMach m { d.machS m with since := d.gtc, emfAt := none, again := true }
  if first then d.machEvent m Ev.MACH_CATCH_WAIT else d

omit hm hlive in
theorem Dev.catchDecide_turns (d : Dev) (m : Nat) {w : Frac} (th : Frac) (h : w.abs.lt (d.mdSpeed m 4 F.MD_LO) = false) :
    d.catchDecide m (some (w, th)) =
      if w.abs.le ((d.turnNoted m (decide (w.num < 0) != (d.machS m).neg)).mdSpeed m 5 F.MD_HI) then
        (d.turnNoted m (decide (w.num < 0) != (d.machS m).neg)).turnGo m w th
      else (d.turnNoted m (decide (w.num < 0) != (d.machS m).neg)).turnWait m := by
  have hback : (!w.abs.lt (d.mdSpeed m 4 F.MD_LO) && (decide (w.num < 0) != (d.machS m).neg)) = (decide (w.num < 0) != (d.machS m).neg) := by
    rw [h]; rfl
  have hno : ¬w.abs.lt (d.mdSpeed m 4 F.MD_LO) = true := by rw [h]; decide
  rw [← hback]
  exact if_neg hno

omit hm hlive in
theorem MachRun.turnNoted (d : Dev) (m : Nat) (b : Bool) : MachRun m d (d.turnNoted m b) := .setMach _ _ rfl rfl rfl

/-- A machine at standstill goes to RUN, or by ALIGN or START (R340). -/
theorem Dev.slowGo_goes (b : Bool) :
    (((d.slowGo (d.turnNoted m b) m).catchArm m).mState m = d.mState m) ∧
    (d.mSensorless m = false → GoesTo ((d.slowGo (d.turnNoted m b) m).catchArm m) m MS.RUN) ∧
    (d.mSensorless m = true → GoesTo ((d.slowGo (d.turnNoted m b) m).catchArm m) m
      (if d.md m 0 F.MD_ALIGN = 1 ∧ d.mStat m F.MD_ATTEMPT = 0 then MS.ALIGN else MS.START)) := by
  have hrun := MachRun.turnNoted d m b
  have hl : (d.turnNoted m b).replaying = false := (hrun.live hm).trans hlive
  have hst : (d.turnNoted m b).mState m = d.mState m := by rw [Dev.mState, Dev.turnNoted, Dev.machS_setMach_self]; rfl
  have hsens := hrun.mSensorless
  have halign := hrun.mdF 0 F.MD_ALIGN
  generalize d.turnNoted m b = u at hrun hl hst hsens halign ⊢
  rw [← hst, ← hsens, ← halign, Dev.slowGo]
  have hself := MachRun.refl m u
  cases hs : u.mSensorless m
  · obtain ⟨h1, h2⟩ := MachPrep.goes hm hl (hself.prepareZero hm hl 0 fone) MS.RUN
    exact ⟨h1, fun _ => h2, fun h => nomatch h⟩
  · rw [if_neg (by decide)]
    split
    · next hal =>
      obtain ⟨h1, h2⟩ := MachPrep.goes hm hl (hself.prepareRest hm hl 2 (u.startCurrent m 0)) MS.ALIGN
      exact ⟨h1, fun h => Bool.noConfusion h, fun _ => h2⟩
    · next hal =>
      obtain ⟨h1, h2⟩ := MachPrep.goes hm hl (hself.prepareRest hm hl 1 (u.startCurrent m (d.mStat m F.MD_ATTEMPT))) MS.START
      exact ⟨h1, fun h => Bool.noConfusion h, fun _ => h2⟩

/-- A machine that turns slowly enough goes to RUN (R340, R341). -/
theorem Dev.turnGo_goes (w th : Frac) : ((d.turnGo m w th).catchArm m).mState m = d.mState m ∧ GoesTo ((d.turnGo m w th).catchArm m) m MS.RUN := by
  have hrun : MachRun m d (d.setMach m { d.machS m with trust := if d.mSensorless m then w else (d.machS m).trust }) := .setMach _ _ rfl rfl rfl
  have hst : (d.setMach m { d.machS m with trust := if d.mSensorless m then w else (d.machS m).trust }).mState m = d.mState m := by
    rw [Dev.mState, Dev.machS_setMach_self]; rfl
  rw [Dev.turnGo]
  generalize d.setMach m { d.machS m with trust := if d.mSensorless m then w else (d.machS m).trust } = u at hrun hst ⊢
  have hl : u.replaying = false := (hrun.live hm).trans hlive
  rw [← hst]
  exact MachPrep.goes hm hl ((MachRun.refl m u).prepareTurning hm hl 0 fone w th) MS.RUN

omit hm hlive in
/-- One that turns too fast waits for another measurement (R340). -/
theorem Dev.turnWait_spec (d : Dev) (m : Nat) : (d.turnWait m).machS m = { d.machS m with since := d.gtc, emfAt := none, again := true } ∧
    ((d.machS m).again = false → Raised (d.turnWait m) Pg.SAFE Ev.MACH_CATCH_WAIT) := by
  rw [Dev.turnWait]
  cases h : (d.machS m).again
  · exact ⟨(Dev.machEvent_machS _ _ _ _).trans (Dev.machS_setMach_self _ _ _), fun _ => Dev.machEvent_raised _ _ _⟩
  · exact ⟨Dev.machS_setMach_self _ _ _, fun h => nomatch h⟩

end
end
end Sys2Proof.Machine
end

section
/-! PROOFS. The timers of a machine, one by one, and their obligation (R336, R340, R342, R344, R351). -/

namespace Sys2Proof.Machine

section
variable {d e f : Dev} {m : Nat}

/-- A mode request leaves the machine's record but for what its ramp keeps. -/
theorem Dev.mMode_prep (hm : m < 20) (hlive : d.replaying = false) (mode : Nat) (x : Frac) : MachPrep m d (d.mMode m mode x) :=
  (MachPrep.refl m d).mMode hm hlive mode x

theorem MachPrep.mState (h : MachPrep m d e) : e.mState m = d.mState m := congrArg (fun w => getF w F.MD_STATE) h.fields.1

theorem MachPrep.mStat (h : MachPrep m d e) (f : RField) : e.mStat m f = d.mStat m f := congrArg (fun w => getF w f) h.fields.1

section
variable (hm : m < 20) (hlive : d.replaying = false)
include hm hlive

/-- LOCKED_ON in START (R342). -/
theorem Dev.lockedOn_start (hst : d.mState m = MS.START) : Entered d (d.lockedOn m) m MS.RUN 0xA ∧ (d.lockedOn m).mStat m F.MD_ATTEMPT = 0 := by
  have hprep : MachPrep m d (d.runMode m) := Dev.mMode_prep hm hlive _ _
  have heq : d.lockedOn m = ((d.runMode m).machGo m MS.RUN 0xA).setMStat m F.MD_ATTEMPT 0 := if_pos (hprep.mState.trans hst)
  rw [heq]
  refine ⟨((Dev.machGo_entered _ m (by decide) (by decide)).base hprep.run.gtc).attempt 0, ?_⟩
  rw [Dev.mStat, Dev.setMStat, Dev.machS_setMach_self, getF_setF_self _ _ _ (by decide)]
  rfl

/-- The end of ALIGN (R342). -/
theorem Dev.align_spec (x : Frac) : Entered d ((d.mMode m 1 x).machGo m MS.START 0xA) m MS.START 0xA ∧
    (((d.mMode m 1 x).machGo m MS.START 0xA).machS m).winAt = some d.gtc := by
  have hprep : MachPrep m d (d.mMode m 1 x) := Dev.mMode_prep hm hlive _ _
  refine ⟨(Dev.machGo_entered _ m (by decide) (by decide)).base hprep.run.gtc, ?_⟩
  rw [Dev.machGo_same, ← hprep.run.gtc]
  rfl

/-- A start that has failed for good (R342). -/
theorem Dev.startFail_spec : Entered d ((d.startFail m).reacted m) m MS.FAULT 2 ∧ EnablesLow d ((d.startFail m).reacted m) m ∧
    Raised ((d.startFail m).reacted m) Pg.SAFE Ev.START_FAIL :=
  ⟨((Dev.toFault_entered hm hlive (by decide)).machEvent _).reacted,
    ((Dev.toFault_low hm hlive).kept hm (.machEvent _ _ _)).kept hm (.setMach _ _ _), Dev.machEvent_raised _ _ _⟩

omit hlive in
/-- A start that waits for its next attempt (R342). -/
theorem Dev.startRetry_spec : EnablesLow d (((d.mDrop m).setMach m { (d.mDrop m).machS m with retryAt := some d.gtc, winAt := none }).reacted m) m ∧
    (((d.mDrop m).setMach m { (d.mDrop m).machS m with retryAt := some d.gtc, winAt := none }).reacted m).machS m =
      { d.machS m with retryAt := some d.gtc, winAt := none, reactAt := d.gtc + 1 } := by
  refine ⟨((d.mDrop_low hm).kept hm (.setMach _ _ _)).kept hm (.setMach _ _ _), ?_⟩
  have hg : ((d.mDrop m).setMach m { (d.mDrop m).machS m with retryAt := some d.gtc, winAt := none }).gtc = d.gtc := ((MachRun.refl m d).mDrop hm).gtc
  rw [Dev.reacted, Dev.machS_setMach_self, Dev.machS_setMach_self, hg, d.mDrop_machS hm]

/-- The next attempt of a start (R342). -/
theorem Dev.retry_spec (k : Nat) : Entered d ((d.toCatch m 0xA).setMStat m F.MD_ATTEMPT k) m MS.CATCH 0xA ∧
    EnablesLow d ((d.toCatch m 0xA).setMStat m F.MD_ATTEMPT k) m ∧ ((d.toCatch m 0xA).setMStat m F.MD_ATTEMPT k).mStat m F.MD_ATTEMPT = k % 16 := by
  refine ⟨(Dev.toCatch_entered hm hlive (by decide)).attempt k, (Dev.toCatch_low hm hlive).kept hm (.setMach _ _ _), ?_⟩
  rw [Dev.mStat, Dev.setMStat, Dev.machS_setMach_self, getF_setF_self _ _ _ (by decide)]
  rfl

end

/-- A discharge that is late (R351). -/
theorem Dev.late_spec (d : Dev) (m : Nat) :
    Frame { d with mach := ((d.setMStat m F.MD_DIS_LATE 1).machEvent m Ev.DISCHARGE_LATE).mach }
      ((d.setMStat m F.MD_DIS_LATE 1).machEvent m Ev.DISCHARGE_LATE) [R.SAFE_FLAG] ∧
    (∀ j, j ≠ m → ((d.setMStat m F.MD_DIS_LATE 1).machEvent m Ev.DISCHARGE_LATE).machS j = d.machS j) ∧
    ((d.setMStat m F.MD_DIS_LATE 1).machEvent m Ev.DISCHARGE_LATE).machS m = { d.machS m with stat := setF (d.machS m).stat F.MD_DIS_LATE 1 } ∧
    Raised ((d.setMStat m F.MD_DIS_LATE 1).machEvent m Ev.DISCHARGE_LATE) Pg.SAFE Ev.DISCHARGE_LATE := by
  refine ⟨?_, fun j hj => ?_, ?_, Dev.machEvent_raised _ _ _⟩
  · have hq := Dev.raiseN_quiet ((d.setMStat m F.MD_DIS_LATE 1).orReg R.SAFE_FLAG (bitWord m)) Pg.SAFE Ev.DISCHARGE_LATE m
    have hmach : ((d.setMStat m F.MD_DIS_LATE 1).machEvent m Ev.DISCHARGE_LATE).mach = (d.setMStat m F.MD_DIS_LATE 1).mach := hq.mach
    rw [hmach]
    exact ((FrameOn.refl noPart_part [R.SAFE_FLAG] (d.setMStat m F.MD_DIS_LATE 1)).orReg noPart_part _ (List.mem_singleton.2 rfl)).quiet noPart_part hq
  · rw [Dev.machEvent_machS, Dev.setMStat, Dev.machS_setMach, if_neg hj]
  · rw [Dev.machEvent_machS, Dev.setMStat, Dev.machS_setMach_self]

end

/-- R340: what a complete measurement decides. -/
theorem Dev.catchComplete_spec {d : Dev} {m : Nat} (hdef : d.mDefined m = true) (hlive : d.replaying = false) {r : Option (Frac × Frac)}
    (hst : d.mState m = MS.CATCH) (hr : (d.machS m).ready = none) (ht : (d.machS m).target = none) (hc : (d.machS m).clr = false)
    (hres : d.catchResult m = some r) :
    d.catchComplete m = (d.catchDecide m r).catchArm m ∧ MachOnly d ((d.catchDecide m r).catchArm m) m := by
  have hm := mDefined_lt hdef
  refine ⟨?_, (((MachRun.refl m d).catchDecide hm hlive r).catchArm hm hlive).only hm⟩
  have hcond : (d.mDefined m && d.mState m == MS.CATCH && (d.machS m).ready.isNone && (d.machS m).target.isNone && !(d.machS m).clr) = true := by
    rw [hdef, hst, hr, ht, hc]
    rfl
  rw [Dev.catchComplete, if_pos hcond, hres]

section
variable {d : Dev} {m : Nat} (hm : m < 20) (hlive : d.replaying = false)
include hm hlive

/-- A machine that is caught at standstill (R340). -/
theorem Dev.catch_slow {e : Dev} (he : e = (d.slowGo (d.turnNoted m false) m).catchArm m) (hst : d.mState m = MS.CATCH) : e.mState m = MS.CATCH ∧
    (d.mSensorless m = false → GoesTo e m MS.RUN) ∧
    (d.mSensorless m = true → GoesTo e m (if d.md m 0 F.MD_ALIGN = 1 ∧ d.mStat m F.MD_ATTEMPT = 0 then MS.ALIGN else MS.START)) := by
  obtain ⟨h1, h2⟩ := Dev.slowGo_goes hm hlive false
  rw [he]
  exact ⟨h1.trans hst, h2⟩

/-- A machine that is caught turning (R340). -/
theorem Dev.catch_turns {w th : Frac} (hslow : w.abs.lt (d.mdSpeed m 4 F.MD_LO) = false) (hst : d.mState m = MS.CATCH) (hr : (d.machS m).ready = none) :
    let e := (d.catchDecide m (some (w, th))).catchArm m
    e.mState m = MS.CATCH ∧ (w.abs.le (d.mdSpeed m 5 F.MD_HI) = true → GoesTo e m MS.RUN) ∧
      (w.abs.le (d.mdSpeed m 5 F.MD_HI) = false →
        e.machS m = { d.machS m with since := d.gtc, emfAt := none, again := true, back := decide (w.num < 0) != (d.machS m).neg } ∧
        ((d.machS m).again = false → Raised e Pg.SAFE Ev.MACH_CATCH_WAIT)) := by
  intro e
  have hdec := d.catchDecide_turns m th hslow
  have hrun := MachRun.turnNoted d m (decide (w.num < 0) != (d.machS m).neg)
  have hs : (d.turnNoted m (decide (w.num < 0) != (d.machS m).neg)).machS m =
    { d.machS m with back := decide (w.num < 0) != (d.machS m).neg } := Dev.machS_setMach_self _ _ _
  have hsp : (d.turnNoted m (decide (w.num < 0) != (d.machS m).neg)).mdSpeed m 5 F.MD_HI = d.mdSpeed m 5 F.MD_HI := by
    rw [Dev.mdSpeed, Dev.mdSpeed, hrun.mdF]
  have he : e = (d.catchDecide m (some (w, th))).catchArm m := rfl
  rw [hdec, hsp] at he
  generalize d.turnNoted m (decide (w.num < 0) != (d.machS m).neg) = u at hrun hs he
  have hu : u.replaying = false := (hrun.live hm).trans hlive
  have hust : u.mState m = d.mState m := by rw [Dev.mState, hs]; rfl
  cases hle : w.abs.le (d.mdSpeed m 5 F.MD_HI)
  · rw [hle, if_neg (by decide)] at he
    obtain ⟨h1, h2⟩ := u.turnWait_spec m
    have hready : ((u.turnWait m).machS m).ready = none := by rw [h1, hs]; exact hr
    rw [Dev.catchArm_none hready] at he
    have hem : e.machS m = { d.machS m with since := d.gtc, emfAt := none, again := true, back := decide (w.num < 0) != (d.machS m).neg } := by
      rw [he, h1, hs, hrun.gtc]
    refine ⟨?_, fun h => Bool.noConfusion h, fun _ => ⟨hem, fun ha => ?_⟩⟩
    · rw [Dev.mState, hem]; exact hst
    · rw [he]
      exact h2 (by rw [hs]; exact ha)
  · rw [hle, if_pos rfl] at he
    obtain ⟨h1, h2⟩ := Dev.turnGo_goes hm hu w th
    rw [he]
    exact ⟨(h1.trans hust).trans hst, fun _ => h2, fun h => Bool.noConfusion h⟩

end

section
variable {d : Dev} {m : Nat}

/-! ### The guards of the timers -/

theorem Dev.armLate_of (hdef : d.mDefined m = true) (ht : (d.machS m).target ≠ none) (ha : (d.machS m).armed = false)
    (h : (d.machS m).armAt + msTicks (max 1 (d.md m 15 F.MD_ARM_TOUT)) ≤ d.gtc) : d.armLate m = true := by
  rw [Dev.armLate, hdef, ha, Option.isSome_iff_ne_none.2 ht, decide_eq_true h]
  rfl

theorem Dev.machArmFail_runs (hl : d.armLate m = true) (hh : d.armHigh m = false) (hc : d.reactCode m = 0) :
    d.machArmFail m = (d.armFail m).reacted m := by
  rw [Dev.machArmFail, hl, if_neg (by decide), if_neg (not_not.2 hc), hh, if_neg (by decide)]

theorem Dev.startLate_of (hdef : d.mDefined m = true) {t : Nat} (hst : d.mState m = MS.START) (hw : (d.machS m).winAt = some t)
    (h : t + msTicks (d.md m 8 F.MD_LO) ≤ d.gtc) (hr : (d.machS m).retryAt = none) (ht : (d.machS m).target = none) : d.startLate m = true := by
  rw [Dev.startLate, hdef, hst, hw, hr, ht]
  simp [h]

theorem Dev.startLast_of (hrev : (d.machS m).rev = false) : d.startLast m = decide (d.md m 8 F.MD_RETRY ≤ d.mStat m F.MD_ATTEMPT) := by
  rw [Dev.startLast, hrev, Bool.false_or]

theorem Dev.lockSeen_of (hrev : (d.machS m).rev = false) : d.lockSeen m = decide (d.mOut8 m = 8) := by
  rw [Dev.lockSeen, hrev, Bool.false_and, Bool.not_false, Bool.and_true]
  rfl

end

/-- Settles O36: each timer's operation, once its guard has been read off the hypotheses; what it leaves alone by `MachRun`. -/
theorem machineTimers : Obligations.MachineTimers := by
  intro s m hs hdef d q st
  have hm := mDefined_lt hdef
  have hl : d.replaying = false := hs.2
  have hrefl := MachRun.refl m d
  refine ⟨fun hheld c hc => ?_, fun hheld => ⟨?_, ?_, ?_, ?_, ?_, ?_, ?_, ?_⟩⟩
  · simp only [List.mem_cons, List.not_mem_nil, or_false] at hc
    rcases hc with rfl | rfl | rfl | rfl | rfl | rfl | rfl | rfl <;> exact onLive_same hs (Dev.byS0_held hheld _)
  · intro ht ha hh
    have hrun : d.armEnablesHigh m = d.armDone m := if_pos (by
      rw [hdef, Option.isSome_iff_ne_none.2 ht, ha, hh]
      rfl)
    exact ⟨_, onLive_eq hs ((Dev.byS0_runs hheld _).trans hrun), Dev.armDone_spec hm hl⟩
  · intro ht ha hh hcode hlate
    have hrun := Dev.machArmFail_runs (Dev.armLate_of hdef ht ha hlate) hh hcode
    have hfail := (Dev.armFail_spec hm hl).reacted hm
    exact ⟨_, onLive_eq hs ((Dev.byS0_runs hheld _).trans hrun), ((hrefl.armFail hm hl).reacted).only hm, hfail.state, hfail.cause, hfail.target,
      hfail.low, hfail.told⟩
  · intro r hst hr ht hc hres slow goes
    obtain ⟨hrun, honly⟩ := Dev.catchComplete_spec hdef hl hst hr ht hc hres
    refine ⟨_, onLive_eq hs ((Dev.byS0_runs hheld _).trans hrun), honly, ?_⟩
    obtain _ | ⟨w, th⟩ := r
    · obtain ⟨h1, h2, h3⟩ := Dev.catch_slow hm hl (congrArg (fun u : Dev => u.catchArm m) (d.catchDecide_none m)) hst
      exact ⟨h1, fun _ => h2, fun _ => h3, fun w th hno => Bool.noConfusion hno⟩
    · cases hslow : w.abs.lt (d.mdSpeed m 4 F.MD_LO)
      · obtain ⟨h1, h2, h3⟩ := Dev.catch_turns hm hl (th := th) hslow hst hr
        refine ⟨h1, fun hyes => ?_, fun hyes => ?_, fun w' th' _ heq => ?_⟩
        · exact Bool.noConfusion (hslow.symm.trans hyes)
        · exact Bool.noConfusion (hslow.symm.trans hyes)
        · cases heq
          exact ⟨h2, h3⟩
      · obtain ⟨h1, h2, h3⟩ := Dev.catch_slow hm hl (congrArg (fun u : Dev => u.catchArm m) (d.catchDecide_slow m th hslow)) hst
        exact ⟨h1, fun _ => h2, fun _ => h3, fun w' th' hno _ => Bool.noConfusion (hno.symm.trans hslow)⟩
  · intro hst ht hdue
    have hrun : d.alignTimeout m = (d.mMode m 1 (d.startCurrent m 0)).machGo m MS.START 0xA := if_pos (by
      rw [hdef, show d.mState m = MS.ALIGN from hst, show (d.machS m).target = none from ht, decide_eq_true hdue]
      rfl)
    exact ⟨_, onLive_eq hs ((Dev.byS0_runs hheld _).trans hrun), ((hrefl.mMode hm hl _ _).machGo hm _ _).only hm, Dev.align_spec hm hl _⟩
  · intro t hst hw hdue hr hrev hcode ht
    have hlate := Dev.startLate_of hdef hst hw hdue hr ht
    have hbase : d.startWindowExpiry m = if d.lockSeen m then d.lockedOn m else if d.startLast m then (d.startFail m).reacted m
        else ((d.mDrop m).setMach m { (d.mDrop m).machS m with retryAt := some d.gtc, winAt := none }).reacted m := by
      rw [Dev.startWindowExpiry, hlate, if_neg (by decide), if_neg (not_not.2 hcode)]
    rw [Dev.lockSeen_of hrev, Dev.startLast_of hrev] at hbase
    by_cases h8 : d.mOut8 m = 8
    · rw [if_pos (decide_eq_true h8)] at hbase
      exact ⟨_, onLive_eq hs ((Dev.byS0_runs hheld _).trans hbase), (hrefl.lockedOn hm hl).only hm, fun _ => Dev.lockedOn_start hm hl hst,
        fun hne => absurd h8 hne⟩
    · rw [if_neg (by simpa using h8)] at hbase
      by_cases hlast : d.md m 8 F.MD_RETRY ≤ d.mStat m F.MD_ATTEMPT
      · rw [if_pos (decide_eq_true hlast)] at hbase
        obtain ⟨h1, h2, h3⟩ := Dev.startFail_spec hm hl
        exact ⟨_, onLive_eq hs ((Dev.byS0_runs hheld _).trans hbase), ((hrefl.startFail hm hl).reacted).only hm, fun h => absurd h h8,
          fun _ => ⟨h2, fun _ => ⟨h1, h3⟩, fun hlt => absurd hlast (Nat.not_le.2 hlt)⟩⟩
      · rw [if_neg (by simpa using hlast)] at hbase
        obtain ⟨h1, h2⟩ := Dev.startRetry_spec (d := d) hm
        exact ⟨_, onLive_eq hs ((Dev.byS0_runs hheld _).trans hbase),
          (((hrefl.mDrop hm).trans (.setMach _ _ (by rfl) (by rfl) (by rfl))).reacted).only hm, fun h => absurd h h8,
          fun _ => ⟨h1, fun hle => absurd hle hlast, fun _ => h2⟩⟩
  · intro t hst hr hdue
    have hrun : d.retryWaitExpiry m = (d.toCatch m 0xA).setMStat m F.MD_ATTEMPT (d.mStat m F.MD_ATTEMPT + 1) := by
      rw [Dev.retryWaitExpiry, show (d.machS m).retryAt = some t from hr]
      dsimp only
      rw [hdef, show d.mState m = MS.START from hst, decide_eq_true hdue]
      rfl
    exact ⟨_, onLive_eq hs ((Dev.byS0_runs hheld _).trans hrun), ((hrefl.toCatch hm hl _).mStat _ _).only hm, Dev.retry_spec hm hl _⟩
  · intro t hst ht hslow hdue
    have hrun : d.stopSpeedTimer m = d.toSto m 0xA := by
      rw [Dev.stopSpeedTimer, show (d.machS m).slowAt = some t from hslow]
      dsimp only
      rw [hdef, show d.mState m = MS.STOP from hst, show (d.machS m).target = none from ht, decide_eq_true hdue]
      rfl
    exact ⟨_, onLive_eq hs ((Dev.byS0_runs hheld _).trans hrun), (hrefl.toSto hm hl _).only hm, Dev.toSto_entered hm hl (by decide),
      Dev.toSto_low hm hl⟩
  · intro hst hno hdue
    have hrun : d.dischargeLate m = (d.setMStat m F.MD_DIS_LATE 1).machEvent m Ev.DISCHARGE_LATE := if_pos (by
      rw [hdef, show d.mState m = MS.DISCHARGE from hst, show d.mStat m F.MD_DIS_LATE = 0 from hno, decide_eq_true hdue]
      rfl)
    exact ⟨_, onLive_eq hs ((Dev.byS0_runs hheld _).trans hrun), Dev.late_spec d m⟩

end Sys2Proof.Machine
end

section
/-! PROOFS. What the evaluation of a machine reads, and what its own notes leave of that (R334, R335, R346). -/

namespace Sys2Proof.Machine

/-- A register of a context's page that holds no program, input, status or output of it: its commands, its pool, the page's own. -/
def cmdReg (a : Nat) : Prop :=
  0x40100000 ≤ a ∧ a < 0x40120000 ∧ (a % 0x1000 < 0x40 ∨ (36 ≤ (a % 0x1000 - 0x40) % 0x1C0 / 4 ∧ (a % 0x1000 - 0x40) % 0x1C0 / 4 < 40) ∨
    52 ≤ (a % 0x1000 - 0x40) % 0x1C0 / 4)

/-- A register that the evaluation of a machine may read: the leg policy, the events, the notes of an evaluation and the commands of another
machine leave it. -/
def evalReg (a : Nat) : Prop :=
  eventReg a = false ∧ a ≠ R.SAFE_FLAG ∧ a ≠ R.SYS_ABSENT_CNT ∧ a ≠ R.PG_STAT Pg.GDT ∧ a ≠ R.PG_STAT Pg.GDA ∧ (∀ g < 20, a ≠ gdArm g) ∧ ¬cmdReg a

/-- What of a machine's record stands while an evaluation takes its notes. -/
structure RecAlike (a b : MachSt) : Prop where
  stat : b.stat = a.stat
  md : b.md = a.md
  defd : b.defd = a.defd
  target : b.target = a.target
  armed : b.armed = a.armed
  retryAt : b.retryAt = a.retryAt

theorem RecAlike.of_eq {a b : MachSt} (h : b = a) : RecAlike a b := h ▸ ⟨rfl, rfl, rfl, rfl, rfl, rfl⟩

theorem RecAlike.trans {a b c : MachSt} (h : RecAlike a b) (k : RecAlike b c) : RecAlike a c :=
  ⟨k.stat.trans h.stat, k.md.trans h.md, k.defd.trans h.defd, k.target.trans h.target, k.armed.trans h.armed, k.retryAt.trans h.retryAt⟩

/-- Two devices that an evaluation of a machine reads alike, but for its notes. -/
structure EvalAlike (m : Nat) (d e : Dev) : Prop where
  kept : RecAlike (d.machS m) (e.machS m)
  member : e.member = d.member
  gtc : e.gtc = d.gtc
  trk : e.trk = d.trk
  low : e.sys.vddioLow = d.sys.vddioLow
  asc : ∀ g, (e.grpS g).asc = (d.grpS g).asc
  reg : ∀ a, evalReg a → e.reg a = d.reg a

section
variable {m : Nat} {d e f : Dev}

theorem EvalAlike.refl (m : Nat) (d : Dev) : EvalAlike m d d := ⟨.of_eq rfl, rfl, rfl, rfl, rfl, fun _ => rfl, fun _ _ => rfl⟩

theorem EvalAlike.trans (h : EvalAlike m d e) (k : EvalAlike m e f) : EvalAlike m d f :=
  ⟨h.kept.trans k.kept, k.member.trans h.member, k.gtc.trans h.gtc, k.trk.trans h.trk, k.low.trans h.low, fun g => (k.asc g).trans (h.asc g),
    fun a ha => (k.reg a ha).trans (h.reg a ha)⟩

theorem EvalAlike.of_quiet (h : Quiet d e) : EvalAlike m d e :=
  ⟨.of_eq (h.machS m), (congrArg Dev.member h.1 :), h.gtc, (congrArg Dev.trk h.1 :), (congrArg (fun u : Dev => u.sys.vddioLow) h.1 :),
    fun g => congrArg GrpSt.asc (h.grpS g), fun _ ha => h.2.1 _ ha.1⟩

theorem EvalAlike.setReg (d : Dev) {a : Nat} (w : Word) (ha : ¬evalReg a) : EvalAlike m d (d.setReg a w) :=
  ⟨.of_eq (d.machS_setReg a m w), rfl, rfl, rfl, rfl, fun _ => rfl, fun _ hb => d.reg_setReg_ne w fun he => ha (he ▸ hb)⟩

theorem EvalAlike.setMach (d : Dev) {v : MachSt} (h : RecAlike (d.machS m) v) : EvalAlike m d (d.setMach m v) := by
  refine ⟨?_, rfl, rfl, rfl, rfl, fun _ => rfl, fun _ _ => rfl⟩
  rw [Dev.machS_setMach_self]
  exact h

theorem EvalAlike.machEvent (d : Dev) (src : Nat) : EvalAlike m d (d.machEvent m src) :=
  .trans (.setReg d _ fun h => h.2.1 rfl) (.of_quiet (Dev.raiseN_quiet _ _ _ _))

theorem EvalAlike.ite {c : Prop} [Decidable c] (h : c → EvalAlike m d e) (g : ¬c → EvalAlike m d f) : EvalAlike m d (if c then e else f) := by
  split
  · next hc => exact h hc
  · next hc => exact g hc

/-! ### The leg policy -/

theorem FrameOn.absGrp {l : List Nat} (h : FrameOn absPart l d e) : e.grp = d.grp := (congrArg Dev.grp h.1 :)

theorem Dev.armWrite_asc (d : Dev) {g : Nat} (hg : g < 20) (mid : Nat) (w : Word) (j : Nat) : ((d.armWrite mid g w).grpS j).asc = (d.grpS j).asc := by
  have hgrp : ∀ k, (d.plainWrite mid (gdArm g) w).grpS k = d.grpS k := fun k => by
    obtain ⟨b, i, hb, -⟩ := inBlock_gd hg (k := 1) (by decide)
    rw [← gdArm_at] at hb
    exact congrArg (fun l => spGet _ l k) (d.plainWrite_frame hb (fun _ ha => ha) mid w).absGrp
  rw [Dev.armWrite]
  split
  · rw [Dev.grpS_setGrp]
    split
    · next h => rw [h, ← hgrp g]
    · rw [hgrp]
  · rw [hgrp]

theorem EvalAlike.armBus (d : Dev) (hlive : d.replaying = false) {g : Nat} (hg : g < 20) (w : Word) : EvalAlike m d (d.pWrite Mid.S0 (gdArm g) w) := by
  have h : FrameOn hostPart (armRegs g) d (d.pWrite Mid.S0 (gdArm g) w) :=
    (FrameOn.refl hostPart_part _ d).armBus hg hlive (fun _ ha => ha) Mid.S0 w
  refine ⟨.of_eq (h.hostMachS m), h.hostMember, h.hostGtc, (congrArg Dev.trk h.1 :), (congrArg (fun u : Dev => u.sys.vddioLow) h.1 :), fun j => ?_,
    fun a ha => h.reg hostPart_part ha.1 fun hx => ?_⟩
  · exact Dev.legWrite_keeps (P := fun e : Dev => (e.grpS j).asc = (d.grpS j).asc) hg hlive
      (fun mid page => congrArg (fun l => (spGet _ l j : GrpSt).asc)
        (((FrameOn.refl absPart_part [R.SYS_ABSENT_CNT] d).absCount (List.mem_singleton.2 rfl) mid page).absGrp))
      (fun u v hq hu => (congrArg GrpSt.asc (hq.grpS j)).trans hu) (.inl ⟨rfl, d.armWrite_asc hg Mid.S0 w j⟩) (gdArm_at g)
  · obtain ⟨-, -, habs, h1, h2, h3, -⟩ := ha
    simp only [armRegs, List.mem_cons, List.not_mem_nil, or_false] at hx
    obtain hx | hx | hx := hx
    · exact h3 g hg hx
    · rw [gdPage] at hx
      split at hx
      · exact h1 hx
      · exact h2 hx
    · exact habs hx

theorem evalReg_rplStat : evalReg R.RPL_STAT := by
  refine ⟨by decide, by decide, by decide, by decide, by decide, fun g hg => ?_, by unfold cmdReg; decide⟩
  rw [gdArm]
  split
  · simp only [R.RPL_STAT, R.GDT_ARM]; omega
  · simp only [R.RPL_STAT, R.GDA_ARM]; omega

theorem EvalAlike.live (h : EvalAlike m d e) : e.replaying = d.replaying := Dev.flag_of_reg (h.reg _ evalReg_rplStat) _

theorem EvalAlike.legPolicy (d : Dev) (hm : m < 20) (hlive : d.replaying = false) : EvalAlike m d (d.legPolicy m) := by
  rw [Dev.legPolicy]
  split
  · exact .refl m d
  · refine foldl_keeps (P := EvalAlike m d) (fun g hg e he => ?_) (.refl m d)
    exact .ite (fun _ => he) fun _ => he.trans (.armBus e (he.live.trans hlive) (mGroups_lt hm g hg) _)

theorem Dev.legPolicy_machS (d : Dev) (hm : m < 20) (hlive : d.replaying = false) : (d.legPolicy m).machS m = d.machS m := by
  rw [Dev.legPolicy]
  split
  · rfl
  · refine (foldl_keeps (P := fun e : Dev => e.replaying = false ∧ e.machS m = d.machS m) (fun g hg e he => ?_) ⟨hlive, rfl⟩).2
    have hbus : ∀ w, FrameOn hostPart (armRegs g) e (e.pWrite Mid.S0 (gdArm g) w) := fun w =>
      (FrameOn.refl hostPart_part _ e).armBus (mGroups_lt hm g hg) he.1 (fun _ ha => ha) Mid.S0 w
    split
    · exact he
    · exact ⟨(EvalAlike.armBus (m := m) e he.1 (mGroups_lt hm g hg) _).live.trans he.1, ((hbus _).hostMachS m).trans he.2⟩

/-- The events of what an evaluation finds. -/
theorem EvalAlike.lostExpiry (d : Dev) : EvalAlike m d (d.lostExpiry m) := by
  have h1 : EvalAlike m d (if d.startLate m && d.startLast m && !d.lockSeen m then d.machEvent m Ev.START_FAIL else d) :=
    .ite (fun _ => .machEvent d _) fun _ => .refl m d
  exact .ite (fun _ => h1.trans (.machEvent _ _)) fun _ => h1

end
end Sys2Proof.Machine
end

section
/-! PROOFS. The evaluation's readings on devices that it reads alike (R334, R335, R346 to R350). -/

namespace Sys2Proof.Machine

/-! ### Registers that an evaluation reads -/

theorem gdArm_range {g : Nat} (hg : g < 20) : (0x40098104 ≤ gdArm g ∧ gdArm g < 0x40098284 ∨ 0x40099104 ≤ gdArm g ∧ gdArm g < 0x40099204) ∧
    gdArm g % 0x20 = 4 := by
  rw [gdArm]
  split
  · simp only [R.GDT_ARM]; omega
  · simp only [R.GDA_ARM]; omega

theorem evalReg_of {a : Nat} (h1 : a % 0x1000 ≠ 0x10) (h2 : 0x40020000 ≤ a ∧ a < 0x40098000 ∨ 0x40100000 ≤ a)
    (h3 : ¬cmdReg a) : evalReg a := by
  refine ⟨?_, ?_, ?_, ?_, ?_, fun g hg => ?_, h3⟩
  · rw [eventReg_eq_false]; omega
  · simp only [R.SAFE_FLAG]; omega
  · simp only [R.SYS_ABSENT_CNT]; omega
  · simp only [R.PG_STAT, pageBase, Pg.GDT]; omega
  · simp only [R.PG_STAT, pageBase, Pg.GDA]; omega
  · have := gdArm_range hg
    omega

theorem cmdReg_not_low {a : Nat} (h : a < 0x40100000) : ¬cmdReg a := fun hc => by
  unfold cmdReg at hc
  omega

theorem evalReg_below {a : Nat} (h1 : a % 0x1000 ≠ 0x10) (h2 : 0x40020000 ≤ a ∧ a < 0x40098000) : evalReg a :=
  evalReg_of h1 (.inl h2) (cmdReg_not_low (by omega))

theorem evalReg_gd {a : Nat} (h : 0x40098100 ≤ a ∧ a < 0x40099220 ∧ (a % 0x20 = 8 ∨ a % 0x20 = 0x10)) (hne : a % 0x1000 ≠ 0x10) : evalReg a := by
  refine ⟨?_, ?_, ?_, ?_, ?_, fun g hg => ?_, cmdReg_not_low (by omega)⟩
  · rw [eventReg_eq_false]; omega
  · simp only [R.SAFE_FLAG]; omega
  · simp only [R.SYS_ABSENT_CNT]; omega
  · simp only [R.PG_STAT, pageBase, Pg.GDT]; omega
  · simp only [R.PG_STAT, pageBase, Pg.GDA]; omega
  · have := gdArm_range hg
    omega

theorem evalReg_lone {a : Nat} (h : a = R.SYS_STATE ∨ a = R.SAFE_STAT ∨ a = R.GDA_STAT) : evalReg a := by
  refine ⟨?_, ?_, ?_, ?_, ?_, fun g hg => ?_, cmdReg_not_low ?_⟩
  · obtain rfl | rfl | rfl := h <;> decide
  · obtain rfl | rfl | rfl := h <;> decide
  · obtain rfl | rfl | rfl := h <;> decide
  · obtain rfl | rfl | rfl := h <;> decide
  · obtain rfl | rfl | rfl := h <;> decide
  · have := gdArm_range hg
    simp only [R.SYS_STATE, R.SAFE_STAT, R.GDA_STAT] at h
    omega
  · simp only [R.SYS_STATE, R.SAFE_STAT, R.GDA_STAT] at h
    omega

/-- Where a context's word stands on its page. -/
theorem ctxA_offset {c n : Nat} (hn : n < 112) : ctxA c n % 0x1000 = 0x40 + 0x1C0 * (c % 8) + 4 * n ∧ 0x40100000 ≤ ctxA c n := by
  have hr : c % 8 < 8 := by omega
  rw [ctxA, R.CTX_CTRL]
  generalize c / 8 = q
  generalize c % 8 = r at hr
  have ht : 0x40 + 0x1C0 * r + 4 * n < 0x1000 := by omega
  omega

theorem ctxA_word {c n : Nat} (hn : n < 112) : (ctxA c n % 0x1000 - 0x40) % 0x1C0 / 4 = n := by
  rw [(ctxA_offset hn).1]
  omega

/-- A word of a context that an evaluation reads. -/
def ctxRead (n : Nat) : Prop := n < 36 ∨ (40 ≤ n ∧ n < 52)

theorem evalReg_ctx {c n : Nat} (hn : ctxRead n) : evalReg (ctxA c n) := by
  unfold ctxRead at hn
  have hlt : n < 112 := by omega
  obtain ⟨ho, hlo⟩ := ctxA_offset (c := c) hlt
  have hw := ctxA_word (c := c) hlt
  refine evalReg_of (by omega) (.inr hlo) fun hc => ?_
  unfold cmdReg at hc
  omega

theorem recW_rawWords (d : Dev) (c : Nat) {n : Nat} (hn : n < 112) : recW (d.rawWords c) n = d.reg (ctxA c n) := by
  rw [recW, nthD_eq_headD, Dev.rawWords, List.headD_eq_head?_getD, List.head?_drop, List.getElem?_map, List.getElem?_range hn]
  rfl

section
variable {m : Nat} {d e : Dev}

/-- Whether a selector is an angle's rests on the records' programs and inputs. -/
theorem Dev.selAngle_congr (hr : ∀ c, ∀ n < 36, e.reg (ctxA c n) = d.reg (ctxA c n)) (hm : e.member = d.member) (fuel : Nat) :
    ∀ c s, e.selAngle fuel c s = d.selAngle fuel c s := by
  have hraw : ∀ c, ∀ n < 36, recW (e.rawWords c) n = recW (d.rawWords c) n := fun c n hn => by
    rw [recW_rawWords _ _ (by omega), recW_rawWords _ _ (by omega), hr c n hn]
  have hmap : ∀ c, ∀ j < 12, recOmap (e.rawWords c) j = recOmap (d.rawWords c) j := fun c j hj => by
    rw [recOmap, recOmap, hraw c _ (by omega)]
  have hkind : ∀ c, ∀ k < 12, recKind (e.rawWords c) k = recKind (d.rawWords c) k := fun c k hk => by
    rw [recKind, recKind, recSd, recSd, hraw c _ (by omega)]
  have hpres : ∀ c, e.ctxPresent c = d.ctxPresent c := fun c => by rw [Dev.ctxPresent, Dev.ctxPresent, hm]
  have hin : ∀ c, ∀ k < 8, e.reg (R.CTX_IN c k) = d.reg (R.CTX_IN c k) := fun c k hk => by
    have ha : R.CTX_IN c k = ctxA c (16 + k) := by simp only [R.CTX_IN, ctxA, R.CTX_CTRL]; omega
    rw [ha]
    exact hr c _ (by omega)
  induction fuel with
  | zero => exact fun _ _ => rfl
  | succ n ih =>
    intro c s
    have hchain : ∀ c' j, (if e.ctxPresent c' = true ∧ j < 12 then e.selAngle n c' (recOmap (e.rawWords c') j) else false) =
        if d.ctxPresent c' = true ∧ j < 12 then d.selAngle n c' (recOmap (d.rawWords c') j) else false := fun c' j => by
      rw [hpres]
      by_cases hj : d.ctxPresent c' = true ∧ j < 12
      · rw [if_pos hj, if_pos hj, hmap c' j hj.2, ih]
      · rw [if_neg hj, if_neg hj]
    rw [Dev.selAngle, Dev.selAngle]
    by_cases h1 : 0x10 ≤ s ∧ s < 0x20
    · rw [if_pos h1, if_pos h1, hin c _ (by omega)]
      simp only [hchain]
    · rw [if_neg h1, if_neg h1]
      by_cases h2 : 0x20 ≤ s ∧ s < 0x50
      · rw [if_pos h2, if_pos h2, hkind c _ (by omega)]
      · rw [if_neg h2, if_neg h2]
        by_cases h3 : 0x60 ≤ s ∧ s < 0x6C
        · rw [if_pos h3, if_pos h3, hmap c _ (by omega), ih]
        · rw [if_neg h3, if_neg h3]

variable (h : EvalAlike m d e)
include h

theorem EvalAlike.flag {a : Nat} (ha : evalReg a) (f : RField) : e.flag a f = d.flag a f := Dev.flag_of_reg (h.reg a ha) f

theorem EvalAlike.get {a : Nat} (ha : evalReg a) (f : RField) : e.get a f = d.get a f := Dev.get_of_reg (h.reg a ha) f

theorem EvalAlike.devState : e.devState = d.devState := h.get (evalReg_lone (.inl rfl)) _

theorem EvalAlike.mdWord (k : Nat) : e.mdWord m k = d.mdWord m k := by rw [Dev.mdWord, Dev.mdWord, h.kept.md]

theorem EvalAlike.md (k : Nat) (f : RField) : e.md m k f = d.md m k f := congrArg (fun w => getF w f) (h.mdWord k)

theorem EvalAlike.mState : e.mState m = d.mState m := by rw [Dev.mState, Dev.mState, h.kept.stat]
theorem EvalAlike.mStat (f : RField) : e.mStat m f = d.mStat m f := by rw [Dev.mStat, Dev.mStat, h.kept.stat]
theorem EvalAlike.mSix : e.mSix m = d.mSix m := by rw [Dev.mSix, Dev.mSix, h.md]
theorem EvalAlike.mSensorless : e.mSensorless m = d.mSensorless m := by rw [Dev.mSensorless, Dev.mSensorless, h.md]
theorem EvalAlike.mMain : e.mMain m = d.mMain m := h.md 1 _
theorem EvalAlike.mSpd : e.mSpd m = d.mSpd m := h.md 1 _
theorem EvalAlike.mCatch : e.mCatch m = d.mCatch m := h.md 1 _
theorem EvalAlike.mTrk : e.mTrk m = d.mTrk m := h.md 0 _

theorem EvalAlike.mdSpeed (k : Nat) (f : RField) : e.mdSpeed m k f = d.mdSpeed m k f := by rw [Dev.mdSpeed, Dev.mdSpeed, h.md]
theorem EvalAlike.mdTenth (k : Nat) (f : RField) : e.mdTenth m k f = d.mdTenth m k f := by rw [Dev.mdTenth, Dev.mdTenth, h.md]

theorem EvalAlike.secOf : e.secOf m = d.secOf m := by
  rw [Dev.secOf, Dev.secOf, h.reg R.PWG_PAIR (evalReg_below (by decide) (by decide))]

theorem EvalAlike.groups : e.mGroups m = d.mGroups m := by rw [Dev.mGroups, Dev.mGroups, h.mSix, h.secOf]

/-! ### Legs and enables -/

theorem EvalAlike.legReleased {g : Nat} (hg : g < 20) (x : Nat) : e.legReleased g x = d.legReleased g x := by
  refine h.flag ?_ _
  rw [gdLstat]
  split
  · exact evalReg_gd (by simp only [R.GDT_LSTAT]; omega) (by simp only [R.GDT_LSTAT]; omega)
  · exact evalReg_gd (by simp only [R.GDA_LSTAT]; omega) (by simp only [R.GDA_LSTAT]; omega)

theorem EvalAlike.pins {g : Nat} (hg : g < 20) : e.pinP g = d.pinP g ∧ e.pinM g = d.pinM g := by
  have hpins : e.reg (R.GDT_PINS g) = d.reg (R.GDT_PINS g) :=
    h.reg _ (evalReg_gd (by simp only [R.GDT_PINS]; omega) (by simp only [R.GDT_PINS]; omega))
  have hgda : e.reg R.GDA_STAT = d.reg R.GDA_STAT := h.reg _ (evalReg_lone (.inr (.inr rfl)))
  have hstat : evalReg (R.PWT_STAT g) := evalReg_below (by simp only [R.PWT_STAT]; omega) (by simp only [R.PWT_STAT]; omega)
  have hopen : e.enOpen g = d.enOpen g := by
    rw [Dev.enOpen, Dev.enOpen, h.devState, h.low, Dev.pwmRun, Dev.pwmRun, h.flag hstat, h.flag hstat]
  rw [Dev.pinP, Dev.pinP, Dev.pinM, Dev.pinM, hopen, Dev.genP_congr hpins hgda, Dev.genM_congr hpins hgda]
  exact ⟨rfl, rfl⟩

section
variable (hm : m < 20)
include hm

theorem EvalAlike.mReleased : e.mReleased m = d.mReleased m := by
  rw [Dev.mReleased, Dev.mReleased, h.groups]
  exact any_congr_mem fun g hg => any_congr_mem fun x _ => h.legReleased (mGroups_lt hm g hg) x

theorem EvalAlike.setsReleased : e.setsReleased m = d.setsReleased m := by
  have hany : ∀ g < 20, (List.range 3).any (fun x => e.legReleased g x) = (List.range 3).any fun x => d.legReleased g x := fun g hg =>
    any_congr_mem fun x _ => h.legReleased hg x
  rw [Dev.setsReleased, Dev.setsReleased, h.secOf]
  cases hs : d.secOf m with
  | none => simp only [hany m hm]
  | some s =>
    have := secOf_lt hs
    simp only [hany m hm, hany s (by omega)]

theorem EvalAlike.releaseNew : e.releaseNew m = d.releaseNew m := by
  rw [Dev.releaseNew, Dev.releaseNew, h.mReleased hm, h.setsReleased hm, h.mStat, h.mStat]

theorem EvalAlike.genmGone : e.genmGone m = d.genmGone m := by
  rw [Dev.genmGone, Dev.genmGone, h.kept.target, h.kept.armed, h.groups]
  congr 1
  exact any_congr_mem fun g hg => by rw [(h.pins (mGroups_lt hm g hg)).1, (h.pins (mGroups_lt hm g hg)).2]

end

/-! ### Contexts, tracks, accumulators -/

theorem EvalAlike.ctxPresent (c : Nat) : e.ctxPresent c = d.ctxPresent c := by rw [Dev.ctxPresent, Dev.ctxPresent, h.member]

theorem EvalAlike.ctxEcc (c : Nat) : e.ctxEcc c = d.ctxEcc c := by
  have ha : R.CTX_STAT c = ctxA c 12 := by simp only [R.CTX_STAT, ctxA, R.CTX_CTRL]; omega
  rw [Dev.ctxEcc, Dev.ctxEcc, h.ctxPresent, ha, h.flag (evalReg_ctx (.inl (by decide)))]

theorem EvalAlike.outOpd (c j : Nat) : e.outOpd c j = d.outOpd c j := by
  have hread : ∀ c, ∀ n < 36, e.reg (ctxA c n) = d.reg (ctxA c n) := fun c n hn => h.reg _ (evalReg_ctx (.inl hn))
  rw [Dev.outOpd, Dev.outOpd, h.ctxPresent]
  split
  · rfl
  · next hno =>
    have hj : j < 12 := by
      rw [Bool.or_eq_true, not_or, decide_eq_true_eq] at hno
      omega
    have hang : e.outAngle c j = d.outAngle c j := by
      rw [Dev.outAngle, Dev.outAngle, recOmap, recOmap, recW_rawWords _ _ (by omega), recW_rawWords _ _ (by omega), hread c _ (by omega)]
      exact Dev.selAngle_congr hread h.member _ _ _
    have ho : R.CTX_OUT c j = ctxA c (40 + j) := by simp only [R.CTX_OUT, ctxA, R.CTX_CTRL]; omega
    have hm : R.CTX_OMAP c (j / 2) = ctxA c (3 + j / 2) := by simp only [R.CTX_OMAP, ctxA, R.CTX_CTRL]; omega
    rw [hang, ho, hm, h.reg _ (evalReg_ctx (.inr (by omega))), h.get (evalReg_ctx (.inl (by omega)))]

theorem EvalAlike.mOut (j : Nat) : e.mOut m j = d.mOut m j := by rw [Dev.mOut, Dev.mOut, h.mMain, h.outOpd]

theorem EvalAlike.mOut8 : e.mOut8 m = d.mOut8 m := by rw [Dev.mOut8, Dev.mOut8, h.mOut]

omit h in
theorem trk_lt (d : Dev) (m : Nat) : d.mTrk m < 32 := getF_lt (d.mdWord m 0) F.MD_TRK

theorem EvalAlike.obsLost (hs : e.machS m = d.machS m) : e.obsLost m = d.obsLost m := by
  have ha : evalReg (R.TRK_STAT (d.mTrk m)) := by
    have := trk_lt d m
    exact evalReg_below (by simp only [R.TRK_STAT]; omega) (by simp only [R.TRK_STAT]; omega)
  rw [Dev.obsLost, Dev.obsLost, h.mSensorless, h.mTrk, h.md, h.mOut8, hs, h.flag ha]

theorem EvalAlike.locked (hs : e.machS m = d.machS m) : e.locked m = d.locked m := by
  rw [Dev.locked, Dev.locked, hs, h.md, h.md, h.gtc]

omit h in
/-- The first cause that stands, by whether an observer is lost and a rotor locked. -/
def Dev.codeWith (d : Dev) (m : Nat) (lost lock : Bool) : Nat :=
  let st := d.mState m
  let stop := st != MS.STO && st != MS.FAULT || (d.machS m).target.isSome
  if !d.mDefined m || st == MS.OFF then 0
  else if drives st && d.releaseNew m then 1
  else if (stop || (st == MS.FAULT && !d.mReleased m)) && d.flag R.SAFE_STAT F.SAFE_STAT_STO_P_IN then 2
  else if stop && d.genmGone m then 3
  else if drives st && (d.ctxEcc (d.mMain m) || d.ctxEcc (d.mSpd m) || d.ctxEcc (d.mCatch m)) then 4
  else if lost then 5
  else if lock then 6
  else 0

omit h in
theorem Dev.reactCode_eq (d : Dev) (m : Nat) : d.reactCode m = d.codeWith m (d.seesLost m) (d.seesLock m) := rfl

theorem EvalAlike.codeWith (hm : m < 20) (lost lock : Bool) : e.codeWith m lost lock = d.codeWith m lost lock := by
  have hsto : e.flag R.SAFE_STAT F.SAFE_STAT_STO_P_IN = d.flag R.SAFE_STAT F.SAFE_STAT_STO_P_IN := h.flag (evalReg_lone (.inr (.inl rfl))) _
  have hdef : e.mDefined m = d.mDefined m := by rw [Dev.mDefined, Dev.mDefined, h.kept.defd]
  rw [Dev.codeWith, Dev.codeWith, h.mState, h.kept.target, hdef, h.releaseNew hm, h.mReleased hm, hsto, h.genmGone hm, h.mMain, h.mSpd, h.mCatch,
    h.ctxEcc, h.ctxEcc, h.ctxEcc]

theorem EvalAlike.seesLost (hs : e.machS m = d.machS m) : e.seesLost m = d.seesLost m := by
  rw [Dev.seesLost, Dev.seesLost, h.mState, hs, h.obsLost hs]

theorem EvalAlike.seesLock (hs : e.machS m = d.machS m) : e.seesLock m = d.seesLock m := by
  rw [Dev.seesLock, Dev.seesLock, h.mState, hs, h.locked hs]

theorem EvalAlike.reactCode (hm : m < 20) (hs : e.machS m = d.machS m) : e.reactCode m = d.reactCode m := by
  rw [Dev.reactCode_eq, Dev.reactCode_eq, h.seesLost hs, h.seesLock hs, h.codeWith hm]

theorem EvalAlike.lockSeen (hs : e.machS m = d.machS m) : e.lockSeen m = d.lockSeen m := by
  have hramp : e.rampSpeed m = d.rampSpeed m := by rw [Dev.rampSpeed, Dev.rampSpeed, hs, h.md, h.gtc]
  rw [Dev.lockSeen, Dev.lockSeen, h.mOut8, hs, hramp, h.mdSpeed]

theorem EvalAlike.accValue {a : Nat} (ha : a < 512) : e.accValue a = d.accValue a := by
  have h1 : evalReg (R.ACC_RES0 a) := evalReg_below (by simp only [R.ACC_RES0]; omega) (by simp only [R.ACC_RES0]; omega)
  have h2 : evalReg (R.ACC_EXP a) := evalReg_below (by simp only [R.ACC_EXP]; omega) (by simp only [R.ACC_EXP]; omega)
  rw [Dev.accValue, Dev.accValue, Dev.accExp0, Dev.accExp0, Dev.getI, Dev.getI, h.reg _ h1, h.get h2]

end
end Sys2Proof.Machine
end

section
/-! PROOFS. The evaluation of a machine, cause by cause, and its obligation (R334, R335, R346 to R351). -/

namespace Sys2Proof.Machine

section
variable {d e f w : Dev} {m : Nat}

/-! ### The grant and the end of an overcast leave the machines -/

/-- What the grant's computation and the end of an overcast leave of a machine. -/
structure GrantKept (d e : Dev) : Prop where
  mach : e.mach = d.mach
  gates : GatesKept d e
  raised : ∀ page src, Raised d page src → Raised e page src

theorem GrantKept.refl (d : Dev) : GrantKept d d := ⟨rfl, .refl d, fun _ _ h => h⟩

theorem GrantKept.trans (h : GrantKept d e) (k : GrantKept e f) : GrantKept d f :=
  ⟨k.mach.trans h.mach, h.gates.trans k.gates, fun p s hr => k.raised p s (h.raised p s hr)⟩

theorem GrantKept.of_quiet (h : Quiet d e) : GrantKept d e := ⟨(congrArg Dev.mach h.1 :), .of_quiet h, fun _ _ hr => h.raised hr⟩

theorem GrantKept.setReg (d : Dev) {a : Nat} (x : Word) (h : a < 0x40098000 ∨ 0x4009A000 ≤ a) (hne : ∀ q, a ≠ R.PG_EVT_RAW q) : GrantKept d (d.setReg a x) :=
  ⟨d.setReg_mach a x, .setReg d x h, fun p _ hr => by
    rw [Raised, d.reg_setReg_ne x fun hx => hne p hx.symm]
    exact hr⟩

theorem GrantKept.setGenM (d : Dev) {g : Nat} (hg : g < 20) (b : Bool) : GrantKept d (d.setGenM g b) := by
  have h : FrameOn hostPart (enableRegs g) d (d.setGenM g b) := (FrameOn.refl hostPart_part _ d).setGenM (fun _ ha => ha) b
  refine ⟨h.hostMach, .setGenM d hg b, fun p _ hr => h.raised hostPart_part (fun hp => ?_) hr⟩
  simp only [enableRegs, List.mem_cons, List.not_mem_nil, or_false, R.PG_EVT_RAW, pageBase, R.GDT_PINS, R.GDA_STAT] at hp
  omega

theorem Dev.grantAll_kept (d : Dev) : GrantKept d d.grantAll := by
  rw [Dev.grantAll]
  exact forN_keeps (P := GrantKept d) _ (fun g hg e he => he.trans (.setGenM e hg _))
    (.setReg (a := R.SAFE_GRANT) d _ (by decide) fun q => by simp only [R.SAFE_GRANT, R.PG_EVT_RAW, pageBase]; omega)

theorem Dev.overcastDone_kept (d : Dev) : GrantKept d d.overcastDone := by
  rw [Dev.overcastDone]
  split
  · have hne : ∀ q, R.SAFE_OUT ≠ R.PG_EVT_RAW q := fun q => by simp only [R.SAFE_OUT, R.PG_EVT_RAW, pageBase]; omega
    have h0 : GrantKept d { d with safe := { d.safe with ovcDone := true } } := ⟨rfl, .of_regs (fun _ _ => rfl) rfl, fun _ _ h => h⟩
    exact (((h0.trans (.setReg _ _ (by decide) hne)).trans (.setReg _ _ (by decide) hne)).trans (Dev.grantAll_kept _)).trans
      (.of_quiet (Dev.raise_quiet _ _ _))
  · exact .refl d

theorem Dev.overcastDone_else (h : d.devState ≠ DS.OVERCAST) : d.overcastDone = d := if_neg fun hc => h hc.1

theorem GrantKept.machS (h : GrantKept d e) (j : Nat) : e.machS j = d.machS j := congrArg (fun l => spGet _ l j) h.mach

theorem GrantKept.entered (h : GrantKept e f) {st cause : Nat} (he : Entered d e m st cause) : Entered d f m st cause :=
  he.kept (h.machS m) (h.raised _ _)

theorem GrantKept.low (h : GrantKept e f) (hm : m < 20) (he : EnablesLow d e m) : EnablesLow d f m := he.kept hm h.gates

/-! ### The stages of an evaluation -/

/-- The evaluation of a machine begun: the update period noted. -/
def Dev.evalBegun (d : Dev) (m : Nat) : Dev := d.setMach m { d.machS m with evalAt := d.updKey m }

/-- What it notes of the observer and the rotor, and the leg policy. -/
def Dev.evalNoted (d : Dev) (m : Nat) : Dev :=
  (if drives (d.mState m) then ((d.evalBegun m).noteSpeed m).noteLock m else d.evalBegun m).legPolicy m

/-- The events of what it finds. -/
def Dev.lostTold (d : Dev) (m : Nat) : Dev := if d.seesLost m then d.machEvent m Ev.OBS_LOST else d
def Dev.lockTold (d : Dev) (m : Nat) : Dev := if d.seesLock m then d.machEvent m Ev.LOCKED else d
def Dev.evalTold (d : Dev) (m : Nat) : Dev := ((d.evalNoted m).lostTold m).lockTold m

/-- What it does of it. -/
def Dev.evalDone (d : Dev) (m : Nat) : Dev :=
  if d.reactCode m = 0 then d.evalCalm m else ((d.lostExpiry m).react m (d.reactCode m)).reacted m

theorem Dev.evalBegun_state (d : Dev) (m : Nat) : (d.evalBegun m).mState m = d.mState m := by
  rw [Dev.mState, Dev.evalBegun, Dev.machS_setMach_self]; rfl

theorem Dev.machEvaluate_eq (hdef : d.mDefined m = true) (hoff : d.mState m ≠ MS.OFF) (hdue : d.evalDue m = true) :
    d.machEvaluate m = (d.evalTold m).evalDone m := by
  rw [Dev.machEvaluate, hdef, hdue, beq_false_of_ne hoff, if_neg (by decide)]
  change Dev.evalDone (Dev.lockTold (Dev.lostTold (Dev.legPolicy (if drives ((d.evalBegun m).mState m) then
    ((d.evalBegun m).noteSpeed m).noteLock m else d.evalBegun m) m) m) m) m = _
  rw [Dev.evalBegun_state]
  rfl

theorem Dev.machEvaluate_not (h : d.evalDue m = false) : d.machEvaluate m = d := if_pos (by rw [h, Bool.not_false, Bool.or_true])

section
variable (hm : m < 20) (hlive : d.replaying = false)
include hm hlive

/-- What an evaluation has noted: the readings stand. -/
theorem Dev.evalNoted_alike : EvalAlike m d (d.evalNoted m) := by
  have h1 : EvalAlike m d (d.evalBegun m) := .setMach d ⟨rfl, rfl, rfl, rfl, rfl, rfl⟩
  have hspeed : ∀ u : Dev, EvalAlike m u (u.noteSpeed m) := fun u => by
    rw [Dev.noteSpeed]
    exact .ite (fun _ => .setMach u ⟨rfl, rfl, rfl, rfl, rfl, rfl⟩) fun _ => .ite (fun _ => .refl m u) fun _ => .setMach u ⟨rfl, rfl, rfl, rfl, rfl, rfl⟩
  have hlock : ∀ u : Dev, EvalAlike m u (u.noteLock m) := fun u => .setMach u ⟨rfl, rfl, rfl, rfl, rfl, rfl⟩
  have h2 : EvalAlike m d (if drives (d.mState m) then ((d.evalBegun m).noteSpeed m).noteLock m else d.evalBegun m) :=
    .ite (fun _ => (h1.trans (hspeed _)).trans (hlock _)) fun _ => h1
  exact h2.trans (.legPolicy _ hm (h2.live.trans hlive))

theorem Dev.evalNoted_run : MachRun m (d.evalBegun m) (d.evalNoted m) := by
  have h0 := MachRun.refl m (d.evalBegun m)
  have hl : (d.evalBegun m).replaying = false := hlive
  exact MachRun.legPolicy hm hl (.ite (fun _ => h0.noteSpeed.noteLock) fun _ => h0)

end

/-- The events of what an evaluation finds leave every reading. -/
theorem Dev.evalTold_alike (d : Dev) (m : Nat) : EvalAlike m (d.evalNoted m) (d.evalTold m) :=
  .trans (.ite (fun _ => .machEvent _ _) fun _ => .refl _ _) (.ite (fun _ => .machEvent _ _) fun _ => .refl _ _)

theorem Dev.lostTold_machS (d : Dev) (m : Nat) : (d.lostTold m).machS m = d.machS m := by
  rw [Dev.lostTold]
  split
  · exact d.machEvent_machS m _ m
  · rfl

theorem Dev.lockTold_machS (d : Dev) (m : Nat) : (d.lockTold m).machS m = d.machS m := by
  rw [Dev.lockTold]
  split
  · exact d.machEvent_machS m _ m
  · rfl

theorem Dev.evalTold_machS (d : Dev) (m : Nat) : (d.evalTold m).machS m = (d.evalNoted m).machS m :=
  (Dev.lockTold_machS _ m).trans (Dev.lostTold_machS _ m)

theorem MachRun.lostTold (h : MachRun m d e) : MachRun m d (e.lostTold m) := .ite (fun _ => h.machEvent _) fun _ => h
theorem MachRun.lockTold (h : MachRun m d e) : MachRun m d (e.lockTold m) := .ite (fun _ => h.machEvent _) fun _ => h

end
end Sys2Proof.Machine
end

section
/-! PROOFS. The reactions to the causes of an evaluation, and its obligation (R334, R335, R346 to R351). -/

namespace Sys2Proof.Machine

section
variable {d e w : Dev} {m : Nat}

/-! ### The first cause -/

/-- Whether a machine is one that a stop takes (R332): it drives or is on its way to another state. -/
def Dev.stops (d : Dev) (m : Nat) : Bool := d.mState m != MS.STO && d.mState m != MS.FAULT || (d.machS m).target.isSome

theorem Dev.stops_iff : d.stops m = true ↔ d.mState m ≠ MS.STO ∧ d.mState m ≠ MS.FAULT ∨ (d.machS m).target ≠ none := by
  simp only [Dev.stops, Bool.or_eq_true, Bool.and_eq_true, bne_iff_ne, Option.isSome_iff_ne_none]

/-- Whether a context of a machine has an uncorrectable error while it drives (R350). -/
def Dev.seesEcc (d : Dev) (m : Nat) : Bool := drives (d.mState m) && (d.ctxEcc (d.mMain m) || d.ctxEcc (d.mSpd m) || d.ctxEcc (d.mCatch m))

theorem Dev.codeWith_of (hdef : d.mDefined m = true) (hoff : d.mState m ≠ MS.OFF) (lost lock : Bool) : d.codeWith m lost lock =
    if drives (d.mState m) && d.releaseNew m then 1
    else if (d.stops m || (d.mState m == MS.FAULT && !d.mReleased m)) && d.flag R.SAFE_STAT F.SAFE_STAT_STO_P_IN then 2
    else if d.stops m && d.genmGone m then 3
    else if d.seesEcc m then 4
    else if lost then 5 else if lock then 6 else 0 := by
  rw [Dev.codeWith, hdef, beq_false_of_ne hoff, if_neg (by decide)]
  rfl

section
variable (hm : m < 20) (hlive : d.replaying = false)
include hm hlive

/-- What an evaluation has found, before it acts: the readings and the machine's words are those of the start. -/
theorem Dev.evalTold_reads : EvalAlike m d (d.evalTold m) := (Dev.evalNoted_alike hm hlive).trans (d.evalTold_alike m)

theorem Dev.evalTold_run : MachRun m (d.evalBegun m) (d.evalTold m) := (Dev.evalNoted_run hm hlive).lostTold.lockTold

theorem Dev.evalTold_live : (d.evalTold m).replaying = false := (Dev.evalTold_reads hm hlive).live.trans hlive

theorem Dev.evalTold_code : (d.evalTold m).reactCode m =
    d.codeWith m (drives (d.mState m) && (d.machS m).retryAt.isNone && (d.evalNoted m).obsLost m)
      ((d.mState m == MS.START || d.mState m == MS.RUN) && (d.machS m).retryAt.isNone && (d.evalNoted m).locked m) := by
  have h := Dev.evalNoted_alike (m := m) hm hlive
  rw [(d.evalTold_alike m).reactCode hm (d.evalTold_machS m), Dev.reactCode_eq, h.codeWith hm, Dev.seesLost, Dev.seesLock, h.mState, h.kept.retryAt]

theorem Dev.evalDone_run (he : MachRun m d e) : MachRun m d (e.evalDone m) :=
  .ite (fun _ => he.evalCalm hm hlive) fun _ => (he.lostExpiry.react hm hlive _).reacted

end

/-! ### The reactions -/

theorem Dev.evalDone_code {k : Nat} (hk : d.reactCode m = k) (h0 : k ≠ 0) : d.evalDone m = ((d.lostExpiry m).react m k).reacted m := by
  rw [Dev.evalDone, hk, if_neg h0]

theorem Dev.evalDone_calm (hk : d.reactCode m = 0) : d.evalDone m = d.evalCalm m := if_pos hk

/-- A device that stands alike for a machine: what is entered from it is entered from the first. -/
theorem EvalAlike.entered (h : EvalAlike m d w) {st cause : Nat} (he : Entered w e m st cause) : Entered d e m st cause := he.base h.gtc

theorem EvalAlike.lowOf (h : EvalAlike m d w) (he : EnablesLow w e m) : EnablesLow d e m := he.base h.groups h.member

section
variable (hm : m < 20) (hlive : d.replaying = false)
include hm hlive

theorem Dev.toStoFault_spec {cause : Nat} (hc : cause < 256) : Entered d (d.toStoFault m cause) m (if d.mReleased m then MS.FAULT else MS.STO) cause ∧
    EnablesLow d (d.toStoFault m cause) m := by
  rw [Dev.toStoFault]
  cases d.mReleased m
  · exact ⟨Dev.toSto_entered hm hlive hc, Dev.toSto_low hm hlive⟩
  · exact ⟨Dev.toFault_entered hm hlive hc, Dev.toFault_low hm hlive⟩

theorem Dev.reactEcc_six (h6 : d.mSix m = true) : Entered d (d.reactEcc m) m MS.FAULT 6 ∧ EnablesLow d (d.reactEcc m) m := by
  have hr := (MachRun.refl m d).mRelease hm hlive
  have hl : (d.mRelease m).replaying = false := (hr.live hm).trans hlive
  have heq : d.reactEcc m = (d.mRelease m).toFault m 6 := if_neg (by rw [h6]; exact Bool.false_ne_true)
  rw [heq]
  exact ⟨(Dev.toFault_entered hm hl (by decide)).base hr.gtc, (Dev.toFault_low hm hl).base (hr.groups hm) hr.member⟩

theorem Dev.reactLost_spec : if (d.mdSpeed m 4 F.MD_HI).le (d.machS m).trust.abs then Entered d (d.reactLost m) m MS.ASC 4
    else Entered d (d.reactLost m) m MS.CATCH 4 := by
  have h0 := MachRun.refl m d
  rw [Dev.reactLost]
  split
  · have hr := h0.mForce hm hlive 2 true
    exact (Dev.toAsc_entered hm ((hr.live hm).trans hlive) (by decide)).base hr.gtc
  · have hr := (h0.mForce hm hlive 1 true).mRelease hm hlive
    have hs : MachRun m d (((d.mForce m 1 true).mRelease m).setMach m { ((d.mForce m 1 true).mRelease m).machS m with clr := true }) :=
      hr.trans (.setMach _ _ (by rfl) (by rfl) (by rfl))
    exact (Dev.toCatch_entered hm ((hs.live hm).trans hlive) (by decide)).base hs.gtc

omit hm hlive in
theorem Dev.reactRelease_fault (h : d.mSix m = false ∧ (d.grpS m).asc = false ∨
    d.mSix m = true ∧ (d.setsReleased m = 3 ∨ d.mState m ≠ MS.RUN ∧ d.mState m ≠ MS.STOP)) : d.reactRelease m = d.toFault m 1 := by
  rw [Dev.reactRelease]
  obtain ⟨h6, ha⟩ | ⟨h6, hs⟩ := h
  · rw [h6, ha]; rfl
  · rw [h6, if_pos rfl]; exact if_pos hs

omit hm hlive in
theorem Dev.reactRelease_asc (h6 : d.mSix m = false) (ha : (d.grpS m).asc = true) : d.reactRelease m = d.toAsc m 1 := by
  rw [Dev.reactRelease, h6, ha]; rfl

omit hm hlive in
theorem setsReleased_lt (d : Dev) (m : Nat) : d.setsReleased m < 4 := by
  have hb : ∀ b : Bool, b2n b ≤ 1 := fun b => by cases b <;> decide
  rw [Dev.setsReleased]
  split
  · have h1 := hb ((List.range 3).any fun x => d.legReleased m x)
    rename_i s _
    have h2 := hb ((List.range 3).any fun x => d.legReleased s x)
    dsimp only
    omega
  · have h1 := hb ((List.range 3).any fun x => d.legReleased m x)
    dsimp only
    omega

/-- A six-phase machine goes on with one set (R346). -/
theorem Dev.reactRelease_degraded (h6 : d.mSix m = true) (hs : d.setsReleased m ≠ 3) (hst : d.mState m = MS.RUN ∨ d.mState m = MS.STOP)
    (hd : d.mStat m F.MD_DEGRADED = 0) : (d.reactRelease m).mState m = d.mState m ∧ (d.reactRelease m).mStat m F.MD_DEGRADED = 1 ∧
      (d.reactRelease m).mStat m F.MD_SET = d.setsReleased m ∧ Raised (d.reactRelease m) Pg.SAFE Ev.MACH_DEGRADED := by
  have hno : ¬(d.setsReleased m = 3 ∨ d.mState m ≠ MS.RUN ∧ d.mState m ≠ MS.STOP) := by
    rintro (h | ⟨h1, h2⟩)
    · exact hs h
    · exact hst.elim h1 h2
  have hp : MachPrep m d (d.mMode m (if d.setsReleased m = 1 then 4 else 5) (frN (d.md m 0 F.MD_DEG_TQ) 100)) := Dev.mMode_prep hm hlive _ _
  rw [Dev.reactRelease, h6, if_pos rfl, if_neg hno, hd, if_neg (by decide)]
  have hstat := hp.fields.1
  generalize d.mMode m (if d.setsReleased m = 1 then 4 else 5) (frN (d.md m 0 F.MD_DEG_TQ) 100) = u at hstat
  have hlt := setsReleased_lt d m
  refine ⟨?_, ?_, ?_, Dev.machEvent_raised _ _ _⟩
  · rw [Dev.mState, Dev.machEvent_machS, Dev.setMStat, Dev.setMStat, Dev.setMStat]
    simp only [Dev.machS_setMach_self]
    rw [getF_setF_ne _ _ _ _ (by decide), getF_setF_ne _ _ _ _ (by decide), getF_setF_ne _ _ _ _ (by decide), hstat]
    rfl
  · rw [Dev.mStat, Dev.machEvent_machS, Dev.setMStat, Dev.setMStat, Dev.setMStat]
    simp only [Dev.machS_setMach_self]
    rw [getF_setF_ne _ _ _ _ (by decide), getF_setF_ne _ _ _ _ (by decide), getF_setF_self _ _ _ (by decide)]
    rfl
  · rw [Dev.mStat, Dev.machEvent_machS, Dev.setMStat, Dev.setMStat, Dev.setMStat]
    simp only [Dev.machS_setMach_self]
    rw [getF_setF_ne _ _ _ _ (by decide), getF_setF_self _ _ _ (by decide)]
    exact Nat.mod_eq_of_lt hlt

end

/-! ### The evaluation -/

/-- MachOnly from a device whose machine differs from the first in its evaluation mark alone. -/
theorem MachRun.onlyBegun (h : MachRun m (d.evalBegun m) e) (hm : m < 20) : MachOnly d e m := by
  obtain ⟨hframe, hothers⟩ := h.only hm
  have hmd : ((d.evalBegun m).machS m).md = (d.machS m).md := by rw [Dev.evalBegun, Dev.machS_setMach_self]
  have hpages : machPages (d.evalBegun m) m = machPages d m := by
    simp only [machPages, Dev.mMain, Dev.mSpd, Dev.mCatch, Dev.md, mdWord_of hmd]
  rw [hpages] at hframe
  exact ⟨hframe, fun j hj => (hothers j hj).trans (by rw [Dev.evalBegun, Dev.machS_setMach, if_neg hj])⟩

/-- What an evaluation leads to, before the end of an overcast is looked for. -/
structure Evaluated (d : Dev) (m k : Nat) : Prop where
  hm : m < 20
  hlive : d.replaying = false
  done : d.machEvaluate m = (d.evalTold m).evalDone m
  code : (d.evalTold m).reactCode m = k

theorem Dev.lostExpiry_machS (d : Dev) (m : Nat) : (d.lostExpiry m).machS m = d.machS m := by
  have hite : ∀ (c : Bool) (src : Nat) (u : Dev), (if c then u.machEvent m src else u).machS m = u.machS m := fun c src u => by
    cases c
    · rfl
    · exact u.machEvent_machS m src m
  exact (hite _ _ _).trans (hite _ _ d)

theorem Dev.react_release (d : Dev) (m : Nat) : d.react m 1 = d.reactRelease m := if_pos rfl
theorem Dev.react_sto (d : Dev) (m : Nat) : d.react m 2 = d.toStoFault m 7 := by rw [Dev.react, if_neg (by decide), if_pos rfl]
theorem Dev.react_genm (d : Dev) (m : Nat) : d.react m 3 = d.toStoFault m 9 := by
  rw [Dev.react, if_neg (by decide), if_neg (by decide), if_pos rfl]
theorem Dev.react_ecc (d : Dev) (m : Nat) : d.react m 4 = d.reactEcc m := by
  rw [Dev.react, if_neg (by decide), if_neg (by decide), if_neg (by decide), if_pos rfl]
theorem Dev.react_lost (d : Dev) (m : Nat) : d.react m 5 = d.reactLost m := by
  rw [Dev.react, if_neg (by decide), if_neg (by decide), if_neg (by decide), if_neg (by decide), if_pos rfl]
theorem Dev.react_lock (d : Dev) (m : Nat) : d.react m 6 = d.toFault m 3 := by
  rw [Dev.react, if_neg (by decide), if_neg (by decide), if_neg (by decide), if_neg (by decide), if_neg (by decide)]

variable {k : Nat}

/-- What holds of a reaction to the first cause, from any device that an evaluation reads alike, holds of the evaluation. -/
theorem Evaluated.react (h : Evaluated d m k) (h0 : k ≠ 0) {P : Dev → Prop} (hP : ∀ w, EvalAlike m d w → w.replaying = false →
    w.machS m = (d.evalNoted m).machS m → MachRun m (d.evalTold m) w → P ((w.react m k).reacted m)) : P (d.machEvaluate m) := by
  have ha := (Dev.evalTold_reads h.hm h.hlive).trans (EvalAlike.lostExpiry (m := m) (d.evalTold m))
  rw [h.done, Dev.evalDone_code h.code h0]
  exact hP _ ha (ha.live.trans h.hlive) ((Dev.lostExpiry_machS _ m).trans (d.evalTold_machS m)) (MachRun.refl m _).lostExpiry

theorem Entered.lowReacted {st cause : Nat} (hm : m < 20) (h : Entered d e m st cause ∧ EnablesLow d e m) :
    Entered d (e.reacted m) m st cause ∧ EnablesLow d (e.reacted m) m := ⟨h.1.reacted, h.2.kept hm (.setMach _ _ _)⟩

/-- A reaction that enters a state with the enables low. -/
theorem Evaluated.enters (h : Evaluated d m k) (h0 : k ≠ 0) {st cause : Nat}
    (hP : ∀ w, EvalAlike m d w → w.replaying = false → Entered w (w.react m k) m st cause ∧ EnablesLow w (w.react m k) m) :
    Entered d (d.machEvaluate m) m st cause ∧ EnablesLow d (d.machEvaluate m) m :=
  h.react (P := fun u => Entered d u m st cause ∧ EnablesLow d u m) h0 fun w ha hl _ _ =>
    Entered.lowReacted h.hm ⟨ha.entered (hP w ha hl).1, ha.lowOf (hP w ha hl).2⟩

theorem Evaluated.raised (h : Evaluated d m k) {page src : Nat} (hr : Raised (d.evalTold m) page src) : Raised (d.machEvaluate m) page src := by
  rw [h.done]
  exact (Dev.evalDone_run h.hm ((Dev.evalTold_reads h.hm h.hlive).live.trans h.hlive) (.refl m _)).raised hr

theorem sysState_not_mach (hm : m < 20) : R.SYS_STATE ∉ machRegs d m := fun h => by
  have := machRegs_place hm h
  simp only [R.SYS_STATE, R.SYS_ABSENT_CNT, R.SAFE_FLAG, R.SAFE_OUT, R.SAFE_GRANT] at this
  omega

theorem MachRun.devState (h : MachRun m d e) (hm : m < 20) : e.devState = d.devState := Dev.get_of_reg (h.reg (by decide) (sysState_not_mach hm)) _

theorem Evaluated.only (h : Evaluated d m k) : MachOnly d (d.machEvaluate m) m ∧ ((d.machEvaluate m).machS m).evalAt = d.updKey m ∧
    (d.machEvaluate m).devState = d.devState := by
  have hrun : MachRun m (d.evalBegun m) (d.machEvaluate m) := by
    rw [h.done]
    exact Dev.evalDone_run h.hm (show (d.evalBegun m).replaying = false from h.hlive) (Dev.evalTold_run h.hm h.hlive)
  refine ⟨hrun.onlyBegun h.hm, hrun.evalAt.trans ?_, hrun.devState h.hm⟩
  rw [Dev.evalBegun, Dev.machS_setMach_self]

/-! ### Cause by cause -/

theorem Evaluated.release_one (h : Evaluated d m 1) (hs : d.mSix m = false ∧ (d.grpS m).asc = false ∨
    d.mSix m = true ∧ (d.setsReleased m = 3 ∨ d.mState m ≠ MS.RUN ∧ d.mState m ≠ MS.STOP)) :
    Entered d (d.machEvaluate m) m MS.FAULT 1 ∧ EnablesLow d (d.machEvaluate m) m := by
  refine h.enters (by decide) fun w ha hl => ?_
  have heq : w.react m 1 = w.toFault m 1 := (w.react_release m).trans (Dev.reactRelease_fault (by rw [ha.mSix, ha.asc, ha.setsReleased h.hm, ha.mState]; exact hs))
  rw [heq]
  exact ⟨Dev.toFault_entered h.hm hl (by decide), Dev.toFault_low h.hm hl⟩

theorem Evaluated.release_asc (h : Evaluated d m 1) (h6 : d.mSix m = false) (hasc : (d.grpS m).asc = true) :
    Entered d (d.machEvaluate m) m MS.ASC 1 := by
  refine h.react (P := fun u => Entered d u m MS.ASC 1) (by decide) fun w ha hl _ _ => ?_
  have heq : w.react m 1 = w.toAsc m 1 := (w.react_release m).trans (Dev.reactRelease_asc (ha.mSix.trans h6) ((ha.asc m).trans hasc))
  rw [heq]
  exact (ha.entered (Dev.toAsc_entered h.hm hl (by decide))).reacted

theorem Evaluated.release_degraded (h : Evaluated d m 1) (h6 : d.mSix m = true) (hs : d.setsReleased m ≠ 3)
    (hst : d.mState m = MS.RUN ∨ d.mState m = MS.STOP) (hd : d.mStat m F.MD_DEGRADED = 0) :
    (d.machEvaluate m).mState m = d.mState m ∧ (d.machEvaluate m).mStat m F.MD_DEGRADED = 1 ∧
      (d.machEvaluate m).mStat m F.MD_SET = d.setsReleased m ∧ Raised (d.machEvaluate m) Pg.SAFE Ev.MACH_DEGRADED := by
  refine h.react (P := fun u => u.mState m = d.mState m ∧ u.mStat m F.MD_DEGRADED = 1 ∧ u.mStat m F.MD_SET = d.setsReleased m ∧
    Raised u Pg.SAFE Ev.MACH_DEGRADED) (by decide) fun w ha hl _ _ => ?_
  obtain ⟨h1, h2, h3, h4⟩ := Dev.reactRelease_degraded h.hm hl (ha.mSix.trans h6) (by rw [ha.setsReleased h.hm]; exact hs)
    (by rw [ha.mState]; exact hst) ((ha.mStat _).trans hd)
  rw [Dev.react_release]
  have hreact : ∀ u : Dev, (u.reacted m).mState m = u.mState m ∧ ∀ f, (u.reacted m).mStat m f = u.mStat m f := fun u => by
    simp only [Dev.mState, Dev.mStat, Dev.reacted, Dev.machS_setMach_self, implies_true, and_self]
  refine ⟨((hreact _).1.trans h1).trans ha.mState, ((hreact _).2 _).trans h2, ((hreact _).2 _).trans (h3.trans (ha.setsReleased h.hm)), h4⟩

theorem Evaluated.stop (h : Evaluated d m k) {cause : Nat} (hk : k = 2 ∧ cause = 7 ∨ k = 3 ∧ cause = 9) :
    Entered d (d.machEvaluate m) m (if d.mReleased m then MS.FAULT else MS.STO) cause ∧ EnablesLow d (d.machEvaluate m) m := by
  have hc : cause < 256 ∧ k ≠ 0 := by omega
  refine h.enters hc.2 fun w ha hl => ?_
  have heq : w.react m k = w.toStoFault m cause := by 
    obtain ⟨rfl, rfl⟩ | ⟨rfl, rfl⟩ := hk
    · exact w.react_sto m
    · exact w.react_genm m
  rw [heq, ← ha.mReleased h.hm]
  exact Dev.toStoFault_spec h.hm hl hc.1

theorem Evaluated.ecc (h : Evaluated d m 4) (h6 : d.mSix m = true) : Entered d (d.machEvaluate m) m MS.FAULT 6 ∧ EnablesLow d (d.machEvaluate m) m :=
  h.enters (by decide) fun w ha hl => by
    rw [Dev.react_ecc]
    exact Dev.reactEcc_six h.hm hl (ha.mSix.trans h6)

theorem Evaluated.lost (h : Evaluated d m 5) : if (d.mdSpeed m 4 F.MD_HI).le ((d.evalNoted m).machS m).trust.abs then
    Entered d (d.machEvaluate m) m MS.ASC 4 else Entered d (d.machEvaluate m) m MS.CATCH 4 := by
  refine h.react (P := fun u => if (d.mdSpeed m 4 F.MD_HI).le ((d.evalNoted m).machS m).trust.abs then Entered d u m MS.ASC 4 else Entered d u m MS.CATCH 4)
    (by decide) fun w ha hl hs _ => ?_
  have hspec := Dev.reactLost_spec h.hm hl
  rw [ha.mdSpeed, hs] at hspec
  rw [Dev.react_lost]
  split at hspec
  · next hle => exact (if_pos hle).symm ▸ (ha.entered hspec).reacted
  · next hle => exact (if_neg hle).symm ▸ (ha.entered hspec).reacted

theorem Evaluated.lock (h : Evaluated d m 6) : Entered d (d.machEvaluate m) m MS.FAULT 3 ∧ EnablesLow d (d.machEvaluate m) m :=
  h.enters (by decide) fun w _ hl => by
    rw [Dev.react_lock]
    exact ⟨Dev.toFault_entered h.hm hl (by decide), Dev.toFault_low h.hm hl⟩

theorem Evaluated.calm (h : Evaluated d m 0) : d.machEvaluate m = (d.evalTold m).evalCalm m := h.done.trans (Dev.evalDone_calm h.code)

theorem Evaluated.start (h : Evaluated d m 0) (hst : d.mState m = MS.START) (hls : (d.evalNoted m).lockSeen m = true)
    (hr : (d.machS m).retryAt = none) (ht : (d.machS m).target = none) : Entered d (d.machEvaluate m) m MS.RUN 0xA := by
  have ha := Dev.evalTold_reads (m := m) h.hm h.hlive
  have hst' := ha.mState.trans hst
  have heq : (d.evalTold m).evalCalm m = (d.evalTold m).lockedOn m := by
    rw [Dev.evalCalm, hst', ha.kept.target, ht, ha.kept.retryAt, hr, (d.evalTold_alike m).lockSeen (d.evalTold_machS m), hls]
    rfl
  rw [h.calm, heq]
  exact ha.entered (Dev.lockedOn_start h.hm (ha.live.trans h.hlive) hst').1

theorem Evaluated.discharge (h : Evaluated d m 0) (hst : d.mState m = MS.DISCHARGE) (hacc : d.md m 2 F.MD_ACC_VDC < nAcc d.member)
    (hle : (d.accValue (d.md m 2 F.MD_ACC_VDC)).le (d.mdTenth m 14 F.MD_HI) = true) :
    Entered d (d.machEvaluate m) m MS.STO 0xA ∧ EnablesLow d (d.machEvaluate m) m := by
  have ha := Dev.evalTold_reads (m := m) h.hm h.hlive
  have hl := ha.live.trans h.hlive
  have h512 : d.md m 2 F.MD_ACC_VDC < 512 := by
    have hn : nAcc d.member ≤ 384 := by cases d.member <;> decide
    omega
  have heq : (d.evalTold m).evalCalm m = (d.evalTold m).toSto m 0xA := by
    have h1 : (d.evalTold m).evalCalm m = (d.evalTold m).dischargeEnd m := by
      rw [Dev.evalCalm, ha.mState.trans hst]
      rfl
    rw [h1, Dev.dischargeEnd, ha.md, ha.member, ha.accValue h512, ha.mdTenth]
    exact if_pos ⟨hacc, hle⟩
  rw [h.calm, heq]
  exact ⟨ha.entered (Dev.toSto_entered h.hm hl (by decide)), ha.lowOf (Dev.toSto_low h.hm hl)⟩

/-- An evaluation that is due, with its first cause. -/
theorem Evaluated.of (hdef : d.mDefined m = true) (hlive : d.replaying = false) (hoff : d.mState m ≠ MS.OFF) (hdue : d.evalDue m = true)
    (hk : d.codeWith m (drives (d.mState m) && (d.machS m).retryAt.isNone && (d.evalNoted m).obsLost m)
      ((d.mState m == MS.START || d.mState m == MS.RUN) && (d.machS m).retryAt.isNone && (d.evalNoted m).locked m) = k) : Evaluated d m k :=
  ⟨mDefined_lt hdef, hlive, d.machEvaluate_eq hdef hoff hdue, (Dev.evalTold_code (mDefined_lt hdef) hlive).trans hk⟩

theorem Dev.evalTold_lost (hm : m < 20) (hlive : d.replaying = false)
    (h : (drives (d.mState m) && (d.machS m).retryAt.isNone && (d.evalNoted m).obsLost m) = true) : Raised (d.evalTold m) Pg.SAFE Ev.OBS_LOST := by
  have ha := Dev.evalNoted_alike (m := m) hm hlive
  have hsees : (d.evalNoted m).seesLost m = true := by rw [Dev.seesLost, ha.mState, ha.kept.retryAt]; exact h
  have hr : Raised ((d.evalNoted m).lostTold m) Pg.SAFE Ev.OBS_LOST := by
    rw [Dev.lostTold, hsees]
    exact Dev.machEvent_raised _ _ _
  exact ((MachRun.refl m _).lockTold).raised hr

theorem Dev.evalTold_lock (hm : m < 20) (hlive : d.replaying = false)
    (h : ((d.mState m == MS.START || d.mState m == MS.RUN) && (d.machS m).retryAt.isNone && (d.evalNoted m).locked m) = true) :
    Raised (d.evalTold m) Pg.SAFE Ev.LOCKED := by
  have ha := (Dev.evalNoted_alike (m := m) hm hlive)
  have hb : EvalAlike m (d.evalNoted m) ((d.evalNoted m).lostTold m) := .ite (fun _ => .machEvent _ _) fun _ => .refl _ _
  have hsees : ((d.evalNoted m).lostTold m).seesLock m = true := by
    rw [hb.seesLock (Dev.lostTold_machS _ m), Dev.seesLock, ha.mState, ha.kept.retryAt]
    exact h
  rw [Dev.evalTold, Dev.lockTold, hsees]
  exact Dev.machEvent_raised _ _ _

end

/-- Settles O37: the first cause decides the reaction; the end of an overcast leaves what the reaction brought the machine. -/
theorem machineEvaluation : Obligations.MachineEvaluation := by
  intro s m hs hdef d st f x o stop low lost lock released held hoff
  have hm := mDefined_lt hdef
  have hl : d.replaying = false := hs.2
  refine ⟨fun hno hov => ?_, fun hdue hheld => ?_⟩
  · refine onLive_same hs ?_
    have hsame : d.byS0 (fun u => u.machEvaluate m) = d := by
      obtain hno | hno := hno
      · cases hh : d.flag R.RST_DOM F.RST_DOM_S0_HELD
        · exact (Dev.byS0_runs hh _).trans (Dev.machEvaluate_not hno)
        · exact Dev.byS0_held hh _
      · exact Dev.byS0_held hno _
    exact (congrArg Dev.overcastDone hsame).trans (Dev.overcastDone_else hov)
  · have hnext : o = .next (s.withDev (d.machEvaluate m).overcastDone) := onLive_eq hs (congrArg Dev.overcastDone (Dev.byS0_runs hheld _))
    have hkept := (d.machEvaluate m).overcastDone_kept
    have hcode := Dev.codeWith_of hdef hoff lost lock
    have heval : ∀ {k : Nat}, d.codeWith m lost lock = k → Evaluated d m k := fun hk => Evaluated.of hdef hl hoff hdue hk
    have hboth : ∀ {st' cause : Nat}, Entered d (d.machEvaluate m) m st' cause ∧ EnablesLow d (d.machEvaluate m) m →
        DevNext o s fun e => Entered d e m st' cause ∧ EnablesLow d e m := fun h => ⟨_, hnext, hkept.entered h.1, hkept.low hm h.2⟩
    have hstops : stop ↔ d.stops m = true := Dev.stops_iff.symm
    refine ⟨?_, fun hrel h6 => ?_, fun hrel h6 => ?_, fun hrel hwho hsto => ?_, fun hrel hsto => ⟨fun hstop hgone => ?_, fun hgone => ?_⟩⟩
    · obtain ⟨honly, hat, hds⟩ := (heval rfl).only
      refine ⟨_, hnext, fun hov => ?_, by rw [hkept.machS]; exact hat⟩
      rw [Dev.overcastDone_else (by rw [hds]; exact hov)]
      exact honly
    · have h1 := heval (hcode.trans (if_pos hrel))
      exact ⟨fun ha => hboth (h1.release_one (.inl ⟨h6, ha⟩)), fun ha => ⟨_, hnext, hkept.entered (h1.release_asc h6 ha)⟩⟩
    · have h1 := heval (hcode.trans (if_pos hrel))
      refine ⟨fun hs3 => hboth (h1.release_one (.inr ⟨h6, hs3⟩)), fun hs3 hrun hdeg => ?_⟩
      obtain ⟨g1, g2, g3, g4⟩ := h1.release_degraded h6 hs3 hrun hdeg
      refine ⟨_, hnext, ?_, ?_, ?_, hkept.raised _ _ g4⟩
      · rw [Dev.mState, hkept.machS]; exact g1
      · rw [Dev.mStat, hkept.machS]; exact g2
      · rw [Dev.mStat, hkept.machS]; exact g3
    · refine hboth ((heval (k := 2) ?_).stop (.inl ⟨rfl, rfl⟩))
      rw [hcode, if_neg (by rw [show (drives (d.mState m) && d.releaseNew m) = false from hrel]; decide), hsto, Bool.and_true, if_pos]
      rw [Bool.or_eq_true]
      obtain hwho | ⟨hf, hr⟩ := hwho
      · exact .inl (hstops.1 hwho)
      · exact .inr (by rw [show d.mState m = MS.FAULT from hf, hr]; rfl)
    · refine hboth ((heval (k := 3) ?_).stop (.inr ⟨rfl, rfl⟩))
      rw [hcode, if_neg (by rw [show (drives (d.mState m) && d.releaseNew m) = false from hrel]; decide), hsto, Bool.and_false,
        if_neg (by decide), hstops.1 hstop, hgone]
      rfl
    · intro ecc
      have hcode' : d.codeWith m lost lock = if d.seesEcc m then 4 else if lost then 5 else if lock then 6 else 0 := by
        have hno : (d.stops m && d.genmGone m) = false := by
          obtain hg | hg := hgone
          · rw [hg, Bool.and_false]
          · rw [Bool.eq_false_iff.2 fun h => hg (hstops.2 h), Bool.false_and]
        rw [hcode, if_neg (by rw [show (drives (d.mState m) && d.releaseNew m) = false from hrel]; decide), hsto, Bool.and_false,
          if_neg (by decide), hno, if_neg (by decide)]
      refine ⟨fun hecc h6 => ?_, fun hecc hlost hlock => ?_, fun hecc hlost => ?_, fun hecc hlost hlock => ⟨fun hst hls hr ht => ?_, fun hst hacc hle => ?_⟩⟩
      · exact hboth ((heval (hcode'.trans (if_pos hecc))).ecc h6)
      · have h6 : Evaluated d m 6 := heval (by rw [hcode', show d.seesEcc m = false from hecc, hlost, hlock]; rfl)
        obtain ⟨g1, g2⟩ := h6.lock
        exact ⟨_, hnext, hkept.entered g1, hkept.low hm g2, hkept.raised _ _ (h6.raised (Dev.evalTold_lock hm hl hlock))⟩
      · have h5 : Evaluated d m 5 := heval (by rw [hcode', show d.seesEcc m = false from hecc, hlost]; rfl)
        refine ⟨_, hnext, hkept.raised _ _ (h5.raised (Dev.evalTold_lost hm hl hlost)), ?_⟩
        have hspec := h5.lost
        have htrust : x.machS m = (d.evalNoted m).machS m := rfl
        rw [htrust]
        split at hspec
        · next hle => rw [if_pos hle]; exact hkept.entered hspec
        · next hle => rw [if_neg hle]; exact hkept.entered hspec
      · have h0 : Evaluated d m 0 := heval (by rw [hcode', show d.seesEcc m = false from hecc, hlost, hlock]; rfl)
        exact ⟨_, hnext, hkept.entered (h0.start hst hls hr ht)⟩
      · have h0 : Evaluated d m 0 := heval (by rw [hcode', show d.seesEcc m = false from hecc, hlost, hlock]; rfl)
        exact hboth (h0.discharge hst hacc hle)

end Sys2Proof.Machine
end

section
/-! PROOFS. Contexts and their passes: what a step of the cluster leaves (R192, R193, R195, R220), and the requests of passes. -/

namespace Sys2Proof.Machine

/-- A part of the device that the contexts' records belong to. -/
def HoldsCtx (p : Dev → Dev → Dev) : Prop := ∀ e c v, (p e (e.setCtx c v)).calm = (e.setCtx c v).calm

/-- The contexts alone. -/
def loopPart (d e : Dev) : Dev := { d with ctx := e.ctx }

theorem loopPart_part : Part loopPart := ⟨fun _ => rfl, fun _ _ _ => rfl, fun _ _ => rfl, fun _ _ _ => rfl⟩

theorem loopPart_ctx : HoldsCtx loopPart := fun _ _ _ => rfl

theorem FrameOn.noCtx {l : List Nat} {d e : Dev} (h : FrameOn noPart l d e) : FrameOn loopPart l d e :=
  h.widen noPart_part loopPart_part (fun _ _ => rfl) fun _ ha => ha

section
variable {p : Dev → Dev → Dev} (hp : Part p) (hc : HoldsCtx p) {l : List Nat} {d e : Dev}
include hp

/-! ### Frames -/

theorem FrameOn.lecEvent (h : FrameOn p l d e) {c : Nat} (hl : R.LEC_FLAG (c / 32) ∈ l) (src : Nat) : FrameOn p l d (e.ctxEvent c src) :=
  (h.orReg hp _ hl).quiet hp (Dev.raiseN_quiet _ _ _ _)

theorem FrameOn.passRecordAt (h : FrameOn p l d e) (c outcome tr : Nat) (stale : Bool) : FrameOn p l d (e.passRecordAt c outcome tr stale) :=
  h.quiet hp (Dev.emit_quiet _ _)

include hc

theorem FrameOn.ctxSet (h : FrameOn p l d e) (c : Nat) (v : CtxSt) : FrameOn p l d (e.setCtx c v) :=
  h.part hp (hc e c v).symm fun _ => Dev.reg_setCtx _ _ _ _

theorem FrameOn.passReady (h : FrameOn p l d e) (c : Nat) : FrameOn p l d (e.ctxReady c) := by
  rw [Dev.ctxReady]
  dsimp only
  split
  · exact FrameOn.ite (fun _ => h.ctxSet hp hc c _) fun _ => h
  · exact h

theorem FrameOn.passDiscard (h : FrameOn p l d e) {c : Nat} (hl : R.CTX_SPEC c ∈ l) : FrameOn p l d (e.ctxDiscard c) := by
  rw [Dev.ctxDiscard]
  split
  · exact FrameOn.ite (fun _ => (h.ctxSet hp hc c _).put hp _ _ hl) fun _ => h.ctxSet hp hc c _
  · exact h.ctxSet hp hc c _

end

section
variable {d : Dev} {c : Nat}

/-! ### The contexts' records -/

/-- A pass that is looked at becomes ready in the present tick where nothing holds it back. -/
theorem Dev.ctxReady_pend {p : PendSt} (h : (d.ctxS c).pend = some p) (hr : p.ready = none) : (d.ctxReady c).ctxS c =
    { d.ctxS c with pend := some { p with ready :=
        if (d.ctxS c).spec = none ∧ (p.spec || p.stale != [] || d.allFresh c) = true then some d.gtc else none } } := by
  have heq : d.ctxReady c = if (d.ctxS c).spec.isNone && (p.spec || p.stale != [] || d.allFresh c) then
      d.setCtx c { d.ctxS c with pend := some { p with ready := some d.gtc } } else d := by
    rw [Dev.ctxReady]
    simp only [h, hr, Option.isNone_none, Bool.true_and]
  have hid : d.ctxS c = { d.ctxS c with pend := some { p with ready := none } } := by rw [← hr, ← h]
  rw [heq]
  by_cases hok : (d.ctxS c).spec = none ∧ (p.spec || p.stale != [] || d.allFresh c) = true
  · rw [if_pos hok, if_pos (by rw [hok.1, hok.2]; rfl), Dev.ctxS_setCtx_self]
  · rw [if_neg hok, if_neg (by rw [Bool.and_eq_true, Option.isNone_iff_eq_none]; exact hok)]
    exact hid

theorem Dev.ctxReady_idle (h : (d.ctxS c).pend = none) : d.ctxReady c = d := by
  rw [Dev.ctxReady]
  simp only [h]

theorem Dev.ctxReady_ne {j : Nat} (hj : j ≠ c) : (d.ctxReady c).ctxS j = d.ctxS j := by
  rw [Dev.ctxReady]
  dsimp only
  split
  · split
    · rw [Dev.ctxS_setCtx, if_neg hj]
    · rfl
  · rfl

theorem Dev.ctxReady_reg (a : Nat) : (d.ctxReady c).reg a = d.reg a := by
  rw [Dev.ctxReady]
  dsimp only
  split
  · split
    · exact Dev.reg_setCtx _ _ _ _
    · rfl
  · rfl

theorem Dev.ctxDiscard_ctxS (j : Nat) : (d.ctxDiscard c).ctxS j = if j = c then { d.ctxS c with pend := none } else d.ctxS j := by
  rw [Dev.ctxDiscard]
  dsimp only
  split
  · split
    · rw [Dev.ctxS_put, Dev.ctxS_setCtx]
    · rw [Dev.ctxS_setCtx]
  · rw [Dev.ctxS_setCtx]

theorem Dev.ctxEvent_ctxS (src j : Nat) : (d.ctxEvent c src).ctxS j = d.ctxS j := ((Dev.raiseN_quiet _ _ _ _).ctxS j).trans (d.ctxS_setReg _ _ _)

theorem Dev.ctxEvent_raised (src : Nat) : Raised (d.ctxEvent c src) Pg.LEC src := Dev.raiseN_raised _ _ rfl

theorem Dev.ctxEvent_get {a : Nat} (src : Nat) (hf : a ≠ R.LEC_FLAG (c / 32)) (ha : eventReg a = false) (f : RField) :
    (d.ctxEvent c src).get a f = d.get a f :=
  ((Dev.raiseN_quiet _ _ _ _).get ha f).trans (Dev.get_of_reg (d.reg_setReg_ne _ hf) f)

/-- A count shows through a frame that leaves its register. -/
theorem Counted.kept {d e f : Dev} {a : Nat} {x : RField} (h : Counted d e a x) (hr : f.reg a = e.reg a) : Counted d f a x := by
  rw [Counted, Dev.get_of_reg hr]
  exact h

theorem Counted.base {d e f : Dev} {a : Nat} {x : RField} (h : Counted e f a x) (hr : e.reg a = d.reg a) : Counted d f a x := by
  rw [Counted, ← Dev.get_of_reg hr]
  exact h

/-! ### The registers of a context and of its engine -/

theorem ctxRuns_event (c : Nat) : eventReg (R.CTX_RUNS c) = false := by
  rw [eventReg_eq_false]
  simp only [R.CTX_RUNS]
  have hr : c % 8 < 8 := by omega
  generalize c / 8 = q
  generalize c % 8 = r at hr
  omega

theorem leDrop_event {n : Nat} (hn : n < 8) : eventReg (R.LE_DROP n) = false := by
  rw [eventReg_eq_false]
  simp only [R.LE_DROP]
  omega

theorem eng_lt (d : Dev) (c : Nat) : d.ctxEng c < 8 := getF_lt (d.reg (R.CTX_CTRL c)) F.CTX_CTRL_ENGINE

theorem ctxRuns_apart {n : Nat} (_hn : n < 8) (c : Nat) (hc : c / 32 < 8) : R.CTX_RUNS c ≠ R.LE_DROP n ∧ R.CTX_RUNS c ≠ R.LEC_FLAG (c / 32) ∧
    R.LE_DROP n ≠ R.LEC_FLAG (c / 32) ∧ R.CTX_CTRL c ≠ R.CTX_RUNS c ∧ R.CTX_SPEC c ≠ R.CTX_RUNS c ∧ R.CTX_SPEC c ≠ R.LE_DROP n ∧
    R.CTX_CTRL c ≠ R.CTX_SPEC c := by
  rw [R.CTX_RUNS, R.LE_DROP, R.LEC_FLAG, R.CTX_CTRL, R.CTX_SPEC]
  refine ⟨?_, ?_, ?_, ?_, ?_, ?_, ?_⟩ <;> omega

end

/-! ### A trigger -/

section
variable {d : Dev} {c : Nat}

theorem nCtx_le (m : Member) : nCtx m ≤ 192 := by cases m <;> decide

/-- A request that finds a pass pending is counted. -/
theorem Dev.ctxTrigger_over {p : PendSt} (hp : (d.ctxS c).pend = some p) (hc : c < 192) (spec : Bool) :
    FrameOn noPart [R.CTX_RUNS c, R.LE_DROP (d.ctxEng c), R.LEC_FLAG (c / 32)] d (d.ctxTrigger c spec) ∧
      Counted d (d.ctxTrigger c spec) (R.CTX_RUNS c) F.CTX_RUNS_OVERRUN ∧ Raised (d.ctxTrigger c spec) Pg.LEC Ev.CTX_OVERRUN := by
  have hq : Quiet d (d.emit { ty := 0x10, spec := spec, res := c, tick := d.gtc }) := Dev.emit_quiet _ _
  rw [Dev.ctxTrigger]
  dsimp only
  generalize d.emit { ty := 0x10, spec := spec, res := c, tick := d.gtc } = u at hq
  rw [hq.ctxS, hp, Option.isSome_some, if_pos rfl]
  have hrun : u.reg (R.CTX_RUNS c) = d.reg (R.CTX_RUNS c) := hq.2.1 _ (ctxRuns_event c)
  obtain ⟨h1, h2, h3, h4, -⟩ := ctxRuns_apart (eng_lt d c) c (by omega)
  have heng : u.ctxEng c = d.ctxEng c := by
    refine hq.get ?_ _
    rw [eventReg_eq_false]
    simp only [R.CTX_CTRL]
    have hr : c % 8 < 8 := by omega
    generalize c / 8 = q
    generalize c % 8 = r at hr
    omega
  rw [heng]
  have hn := noPart_part
  have hb : FrameOn noPart [R.CTX_RUNS c, R.LE_DROP (d.ctxEng c), R.LEC_FLAG (c / 32)] d
      ((u.bump (R.CTX_RUNS c) F.CTX_RUNS_OVERRUN).bump (R.LE_DROP (d.ctxEng c)) F.LE_DROP_OVERRUN) :=
    (((FrameOn.refl hn _ d).quiet hn hq).bump hn _ (by simp)).bump hn _ (by simp)
  refine ⟨(hb.passRecordAt hn c 4 0 false).lecEvent hn (by simp) _, ?_, Dev.ctxEvent_raised _⟩
  have hcnt : Counted d (u.bump (R.CTX_RUNS c) F.CTX_RUNS_OVERRUN) (R.CTX_RUNS c) F.CTX_RUNS_OVERRUN := (u.bump_counted _ _ (by decide)).base hrun
  refine hcnt.kept ?_
  rw [Dev.ctxEvent, (Dev.raiseN_quiet _ _ _ _).2.1 _ (ctxRuns_event c), Dev.orReg, Dev.reg_setReg_ne _ _ h2, Dev.passRecord, Dev.passRecordAt,
    (Dev.emit_quiet _ _).2.1 _ (ctxRuns_event c), Dev.bump, Dev.addSat, Dev.reg_put_ne _ _ _ h1]

theorem Dev.waitSlots_congr {e : Dev} (hr : ∀ i < 8, e.reg (R.CTX_IN c i) = d.reg (R.CTX_IN c i)) : e.waitSlots c = d.waitSlots c :=
  List.filter_congr fun i hi => by rw [hr i (List.mem_range.1 hi)]

theorem Dev.slotCount_congr {e : Dev} {i : Nat} (hr : e.reg (R.CTX_IN c i) = d.reg (R.CTX_IN c i)) (ha : e.acc = d.acc) : e.slotCount c i = d.slotCount c i := by
  rw [Dev.slotCount, Dev.slotCount, hr, Dev.accS, ha]
  rfl

theorem Dev.slotFresh_congr {e : Dev} {i : Nat} (hr : e.reg (R.CTX_IN c i) = d.reg (R.CTX_IN c i)) (ha : e.acc = d.acc)
    (hs : (e.ctxS c).seen = (d.ctxS c).seen) : e.slotFresh c i = d.slotFresh c i := by
  rw [Dev.slotFresh, Dev.slotFresh, hs, Dev.slotCount_congr hr ha]

/-- Whether every awaited slot is fresh rests on the slots, the accumulators' counts and what the context has read. -/
theorem Dev.allFresh_congr {e : Dev} (hr : ∀ i < 8, e.reg (R.CTX_IN c i) = d.reg (R.CTX_IN c i)) (ha : e.acc = d.acc)
    (hs : (e.ctxS c).seen = (d.ctxS c).seen) : e.allFresh c = d.allFresh c := by
  rw [Dev.allFresh, Dev.allFresh, Dev.waitSlots_congr hr]
  rw [List.all_eq_not_any_not, List.all_eq_not_any_not]
  congr 1
  exact any_congr_mem fun i hi => by rw [Dev.slotFresh_congr (hr i (List.mem_range.1 (List.mem_filter.1 hi).1)) ha hs]

theorem ctxIn_event {i : Nat} (hi : i < 8) (c : Nat) : eventReg (R.CTX_IN c i) = false := by
  rw [eventReg_eq_false]
  simp only [R.CTX_IN]
  have hr : c % 8 < 8 := by omega
  generalize c / 8 = q
  generalize c % 8 = r at hr
  omega

/-- The pass that a request notes. -/
def Dev.pendPut (d : Dev) (c : Nat) (spec : Bool) : Dev := d.setCtx c { d.ctxS c with pend := some { f := d.gtc, spec := spec } }

/-- The speculation that a request notes shows. -/
def Dev.pendShown (d : Dev) (c : Nat) (spec : Bool) : Dev :=
  if spec && (d.ctxS c).spec.isNone then d.put (R.CTX_SPEC c) F.CTX_SPEC_STATE 1 else d

theorem Dev.ctxTrigger_new (hp : (d.ctxS c).pend = none) (spec : Bool) : ∃ u, Quiet d u ∧
    d.ctxTrigger c spec = ((u.pendPut c spec).pendShown c spec).ctxReady c := by
  have hq : Quiet d (d.emit { ty := 0x10, spec := spec, res := c, tick := d.gtc }) := Dev.emit_quiet _ _
  refine ⟨_, hq, ?_⟩
  have hs : ((d.emit { ty := 0x10, spec := spec, res := c, tick := d.gtc }).pendPut c spec).ctxS c =
    { d.ctxS c with pend := some { f := d.gtc, spec := spec } } := by rw [Dev.pendPut, Dev.ctxS_setCtx_self, hq.ctxS, hq.gtc]
  rw [Dev.ctxTrigger]
  dsimp only
  rw [hq.ctxS, hp, Option.isSome_none, if_neg Bool.false_ne_true, Dev.pendShown, hs, Dev.pendPut, hq.ctxS]

/-- A request that finds none pending is noted. -/
theorem Dev.ctxTrigger_noted (hp : (d.ctxS c).pend = none) (spec : Bool) :
    FrameOn loopPart [R.CTX_SPEC c] d (d.ctxTrigger c spec) ∧ (spec = false → FrameOn loopPart [] d (d.ctxTrigger c spec)) ∧
    (∀ j, j ≠ c → (d.ctxTrigger c spec).ctxS j = d.ctxS j) ∧
    (spec = true → (d.ctxS c).spec = none → (d.ctxTrigger c spec).get (R.CTX_SPEC c) F.CTX_SPEC_STATE = 1) ∧
    (d.ctxTrigger c spec).ctxS c = { d.ctxS c with pend := some { f := d.gtc, spec := spec, ready :=
      if (d.ctxS c).spec = none ∧ (spec || d.allFresh c) = true then some d.gtc else none } } := by
  obtain ⟨u, hq, heq⟩ := Dev.ctxTrigger_new hp spec
  have hself : (u.pendPut c spec).ctxS c = { d.ctxS c with pend := some { f := d.gtc, spec := spec } } := by
    rw [Dev.pendPut, Dev.ctxS_setCtx_self, hq.ctxS, hq.gtc]
  have hshown : ∀ j, ((u.pendPut c spec).pendShown c spec).ctxS j = (u.pendPut c spec).ctxS j := fun j => by
    rw [Dev.pendShown]
    split
    · exact Dev.ctxS_put _ _ _ _ _
    · rfl
  have hgtc : ((u.pendPut c spec).pendShown c spec).gtc = d.gtc := by
    rw [Dev.pendShown]
    split
    · exact hq.gtc
    · exact hq.gtc
  have hput : ∀ l, FrameOn loopPart l d (u.pendPut c spec) := fun l =>
    ((FrameOn.refl loopPart_part l d).quiet loopPart_part hq).ctxSet loopPart_part loopPart_ctx c _
  have hwide : FrameOn loopPart [R.CTX_SPEC c] d ((u.pendPut c spec).pendShown c spec) :=
    FrameOn.ite (fun _ => (hput _).put loopPart_part _ _ (by simp)) fun _ => hput _
  have hfresh : ((u.pendPut c spec).pendShown c spec).allFresh c = d.allFresh c := by
    refine Dev.allFresh_congr (fun i hi => hwide.reg loopPart_part (ctxIn_event hi c) ?_) (congrArg Dev.acc hwide.1 :) ?_
    · simp only [List.mem_singleton, R.CTX_IN, R.CTX_SPEC]
      omega
    · rw [hshown, hself]
  rw [heq]
  refine ⟨hwide.passReady loopPart_part loopPart_ctx c, fun hs => ?_, fun j hj => ?_, fun hs hn => ?_, ?_⟩
  · have hno : (u.pendPut c spec).pendShown c spec = u.pendPut c spec := if_neg (by rw [hs, Bool.false_and]; exact Bool.false_ne_true)
    rw [hno]
    exact (hput []).passReady loopPart_part loopPart_ctx c
  · rw [Dev.ctxReady_ne hj, hshown, Dev.pendPut, Dev.ctxS_setCtx, if_neg hj, hq.ctxS]
  · have hyes : (u.pendPut c spec).pendShown c spec = (u.pendPut c spec).put (R.CTX_SPEC c) F.CTX_SPEC_STATE 1 := if_pos (by rw [hself, hs, hn]; rfl)
    rw [Dev.get_of_reg (Dev.ctxReady_reg _), hyes]
    exact Dev.get_put_self _ _ _ _ (by decide)
  · rw [Dev.ctxReady_pend (by rw [hshown, hself]) rfl, hshown, hself, hfresh, hgtc]
    simp only [bne_self_eq_false, Bool.or_false]

/-! ### A wait that ends -/

/-- What the end of a wait brings a pass: it goes on with what there is, or is dropped (R193). -/
def Dev.waitEnd (d : Dev) (c : Nat) (p : PendSt) (late : List Bool) : Dev :=
  if d.flag (R.CTX_CTRL c) F.CTX_CTRL_TO_ACT then (d.setCtx c { d.ctxS c with pend := some { p with stale := late } }).ctxReady c
  else (d.setCtx c { d.ctxS c with pend := none }).passRecord c 2

/-- Whether each slot is one that the pass still waits for. -/
def Dev.lateSlots (d : Dev) (c : Nat) : List Bool := (List.range 8).map fun i => (d.waitSlots c).contains i && !d.slotFresh c i

/-- A pass after its wait. -/
def Dev.waitedPend (d : Dev) (c : Nat) (p : PendSt) : Option PendSt :=
  let next : PendSt := { p with stale := d.lateSlots c, ready := if (d.ctxS c).spec = none then some d.gtc else none }
  if d.flag (R.CTX_CTRL c) F.CTX_CTRL_TO_ACT then some next else none

theorem Dev.ctxWaitTimeout_eq {p : PendSt} (hp : (d.ctxS c).pend = some p) (h : (p.spec || p.stale != [] || p.ready.isSome ||
    decide (d.gtc < p.f + ctxTout d c) || d.freshBy c (p.f + ctxTout d c)) = false) :
    d.ctxWaitTimeout c = ((d.bump (R.CTX_RUNS c) F.CTX_RUNS_TIMEOUT).waitEnd c p (d.lateSlots c)).ctxEvent c Ev.CTX_TIMEOUT := by
  have hs : (d.bump (R.CTX_RUNS c) F.CTX_RUNS_TIMEOUT).ctxS c = d.ctxS c := Dev.ctxS_put _ _ _ _ _
  rw [Dev.ctxWaitTimeout]
  simp only [hp]
  rw [h, if_neg Bool.false_ne_true, Dev.waitEnd, hs]
  rfl

/-- A wait past its limit (R193). -/
theorem Dev.ctxWaitTimeout_spec {p : PendSt} (hc : c < 192) (hp : (d.ctxS c).pend = some p) (hspec : p.spec = false) (hst : p.stale = [])
    (hr : p.ready = none) (ht : p.f + ctxTout d c ≤ d.gtc) (hf : d.freshBy c (p.f + ctxTout d c) = false) :
    FrameOn loopPart [R.CTX_RUNS c, R.LEC_FLAG (c / 32)] d (d.ctxWaitTimeout c) ∧ (∀ j, j ≠ c → (d.ctxWaitTimeout c).ctxS j = d.ctxS j) ∧
      Counted d (d.ctxWaitTimeout c) (R.CTX_RUNS c) F.CTX_RUNS_TIMEOUT ∧ Raised (d.ctxWaitTimeout c) Pg.LEC Ev.CTX_TIMEOUT ∧
      (d.ctxWaitTimeout c).ctxS c = { d.ctxS c with pend := d.waitedPend c p } := by
  have hq := loopPart_part
  rw [Dev.ctxWaitTimeout_eq hp (by rw [hspec, hst, hr, hf, decide_eq_false (Nat.not_lt.2 ht)]; rfl)]
  have hcnt := d.bump_counted (R.CTX_RUNS c) F.CTX_RUNS_TIMEOUT (by decide)
  obtain ⟨-, h2, -, h4, -⟩ := ctxRuns_apart (eng_lt d c) c (by omega)
  have hflag : (d.bump (R.CTX_RUNS c) F.CTX_RUNS_TIMEOUT).flag (R.CTX_CTRL c) F.CTX_CTRL_TO_ACT = d.flag (R.CTX_CTRL c) F.CTX_CTRL_TO_ACT :=
    Dev.flag_of_reg (Dev.reg_put_ne _ _ _ h4) _
  have hs : ∀ j, (d.bump (R.CTX_RUNS c) F.CTX_RUNS_TIMEOUT).ctxS j = d.ctxS j := fun j => Dev.ctxS_put _ _ _ _ _
  have hb := (FrameOn.refl hq [R.CTX_RUNS c, R.LEC_FLAG (c / 32)] d).bump hq (a := R.CTX_RUNS c) F.CTX_RUNS_TIMEOUT (by simp)
  have hg : (d.bump (R.CTX_RUNS c) F.CTX_RUNS_TIMEOUT).gtc = d.gtc := rfl
  generalize d.bump (R.CTX_RUNS c) F.CTX_RUNS_TIMEOUT = u at hcnt hflag hs hb hg
  have hend : FrameOn loopPart [R.CTX_RUNS c, R.LEC_FLAG (c / 32)] d (u.waitEnd c p (d.lateSlots c)) :=
    FrameOn.ite (fun _ => (hb.ctxSet hq loopPart_ctx c _).passReady hq loopPart_ctx c) fun _ => (hb.ctxSet hq loopPart_ctx c _).passRecordAt hq c 2 0 false
  have hreg : (u.waitEnd c p (d.lateSlots c)).reg (R.CTX_RUNS c) = u.reg (R.CTX_RUNS c) := by
    rw [Dev.waitEnd]
    split
    · rw [Dev.ctxReady_reg, Dev.reg_setCtx]
    · rw [Dev.passRecord, Dev.passRecordAt, (Dev.emit_quiet _ _).2.1 _ (ctxRuns_event c), Dev.reg_setCtx]
  refine ⟨hend.lecEvent hq (by simp) _, fun j hj => ?_, ?_, Dev.ctxEvent_raised _, ?_⟩
  · rw [Dev.ctxEvent_ctxS, Dev.waitEnd]
    split
    · rw [Dev.ctxReady_ne hj, Dev.ctxS_setCtx, if_neg hj, hs]
    · rw [Dev.passRecord, Dev.passRecordAt, (Dev.emit_quiet _ _).ctxS, Dev.ctxS_setCtx, if_neg hj, hs]
  · refine hcnt.kept ?_
    rw [Dev.ctxEvent, (Dev.raiseN_quiet _ _ _ _).2.1 _ (ctxRuns_event c), Dev.orReg, Dev.reg_setReg_ne _ _ h2, hreg]
  · rw [Dev.ctxEvent_ctxS, Dev.waitEnd, hflag, Dev.waitedPend]
    cases d.flag (R.CTX_CTRL c) F.CTX_CTRL_TO_ACT
    · rw [if_neg Bool.false_ne_true, if_neg Bool.false_ne_true, Dev.passRecord, Dev.passRecordAt, (Dev.emit_quiet _ _).ctxS, Dev.ctxS_setCtx_self, hs]
    · have hlate : (d.lateSlots c != []) = true := rfl
      rw [if_pos rfl, if_pos rfl, Dev.ctxReady_pend (p := { p with stale := d.lateSlots c }) (by rw [Dev.ctxS_setCtx_self]) hr, Dev.ctxS_setCtx_self, hs]
      dsimp only
      rw [hlate, hspec]
      simp only [Bool.or_true, Bool.true_or, and_true]
      rw [← hg]
      rfl

/-! ### A drop -/

theorem Dev.ctxDrop_eq {p : PendSt} (hp : (d.ctxS c).pend = some p) (h0 : ctxLate d c ≠ 0) (h8 : d.gtc % 8 = 0) (hl : p.f + ctxLate d c < d.gtc) :
    d.ctxDrop c = (((((d.ctxDiscard c).bump (R.CTX_RUNS c) F.CTX_RUNS_DROP).bump
      (R.LE_DROP (((d.ctxDiscard c).bump (R.CTX_RUNS c) F.CTX_RUNS_DROP).ctxEng c)) F.LE_DROP_DROP).passRecord c 3).ctxEvent c Ev.CTX_DROP) := by
  rw [Dev.ctxDrop]
  simp only [hp]
  rw [if_pos ⟨h0, h8, hl⟩]

/-- A pass that has not begun in time (R195). -/
theorem Dev.ctxDrop_spec {p : PendSt} (hc : c < 192) (hp : (d.ctxS c).pend = some p) (h0 : ctxLate d c ≠ 0) (h8 : d.gtc % 8 = 0)
    (hl : p.f + ctxLate d c < d.gtc) :
    FrameOn loopPart [R.CTX_RUNS c, R.LE_DROP (d.ctxEng c), R.CTX_SPEC c, R.LEC_FLAG (c / 32)] d (d.ctxDrop c) ∧
      (∀ j, j ≠ c → (d.ctxDrop c).ctxS j = d.ctxS j) ∧ (d.ctxDrop c).ctxS c = { d.ctxS c with pend := none } ∧
      Counted d (d.ctxDrop c) (R.CTX_RUNS c) F.CTX_RUNS_DROP ∧ Counted d (d.ctxDrop c) (R.LE_DROP (d.ctxEng c)) F.LE_DROP_DROP ∧
      Raised (d.ctxDrop c) Pg.LEC Ev.CTX_DROP := by
  have hq := loopPart_part
  obtain ⟨h1, h2, h3, h4, h5, h6, h7⟩ := ctxRuns_apart (eng_lt d c) c (by omega)
  have hd : FrameOn loopPart [R.CTX_SPEC c] d (d.ctxDiscard c) := (FrameOn.refl hq _ d).passDiscard hq loopPart_ctx (List.mem_singleton_self _)
  have hs := fun j => d.ctxDiscard_ctxS (c := c) j
  have hreg : ∀ a, eventReg a = false → a ≠ R.CTX_SPEC c → (d.ctxDiscard c).reg a = d.reg a := fun a ha hne =>
    hd.reg hq ha fun hx => hne (List.mem_singleton.1 hx)
  have hctrl : eventReg (R.CTX_CTRL c) = false := by
    rw [eventReg_eq_false]
    simp only [R.CTX_CTRL]
    have hr : c % 8 < 8 := by omega
    generalize c / 8 = q
    generalize c % 8 = r at hr
    omega
  rw [Dev.ctxDrop_eq hp h0 h8 hl]
  generalize d.ctxDiscard c = u at hd hs hreg
  have heng : (u.bump (R.CTX_RUNS c) F.CTX_RUNS_DROP).ctxEng c = d.ctxEng c :=
    Dev.get_of_reg ((Dev.reg_put_ne _ _ _ h4).trans (hreg _ hctrl h7)) _
  rw [heng]
  have hb : FrameOn loopPart [R.CTX_RUNS c, R.LE_DROP (d.ctxEng c), R.CTX_SPEC c, R.LEC_FLAG (c / 32)] d
      ((u.bump (R.CTX_RUNS c) F.CTX_RUNS_DROP).bump (R.LE_DROP (d.ctxEng c)) F.LE_DROP_DROP) :=
    ((hd.widen hq hq (fun _ _ => rfl) fun a ha => by rw [List.mem_singleton.1 ha]; simp).bump hq _ (by simp)).bump hq _ (by simp)
  have hrun : Counted d (u.bump (R.CTX_RUNS c) F.CTX_RUNS_DROP) (R.CTX_RUNS c) F.CTX_RUNS_DROP :=
    (u.bump_counted _ _ (by decide)).base (hreg _ (ctxRuns_event c) h5.symm)
  have hdrop : Counted d ((u.bump (R.CTX_RUNS c) F.CTX_RUNS_DROP).bump (R.LE_DROP (d.ctxEng c)) F.LE_DROP_DROP) (R.LE_DROP (d.ctxEng c)) F.LE_DROP_DROP :=
    (Dev.bump_counted _ _ _ (by decide)).base ((Dev.reg_put_ne _ _ _ h1.symm).trans (hreg _ (leDrop_event (eng_lt d c)) h6.symm))
  have hkept : ∀ v : Dev, ∀ a, eventReg a = false → a ≠ R.LEC_FLAG (c / 32) → ((v.passRecord c 3).ctxEvent c Ev.CTX_DROP).reg a = v.reg a := fun v a ha hne => by
    rw [Dev.ctxEvent, (Dev.raiseN_quiet _ _ _ _).2.1 _ ha, Dev.orReg, Dev.reg_setReg_ne _ _ hne, Dev.passRecord, Dev.passRecordAt,
      (Dev.emit_quiet _ _).2.1 _ ha]
  have hctx : ∀ j, ((((u.bump (R.CTX_RUNS c) F.CTX_RUNS_DROP).bump (R.LE_DROP (d.ctxEng c)) F.LE_DROP_DROP).passRecord c 3).ctxEvent c Ev.CTX_DROP).ctxS j =
      u.ctxS j := fun j => by
    rw [Dev.ctxEvent_ctxS, Dev.passRecord, Dev.passRecordAt, (Dev.emit_quiet _ _).ctxS, Dev.bump, Dev.addSat, Dev.ctxS_put, Dev.bump, Dev.addSat, Dev.ctxS_put]
  refine ⟨(hb.passRecordAt hq c 3 0 false).lecEvent hq (by simp) _, fun j hj => ?_, ?_, hrun.kept ?_, hdrop.kept ?_, Dev.ctxEvent_raised _⟩
  · rw [hctx, hs, if_neg hj]
  · rw [hctx, hs, if_pos rfl]
  · rw [hkept _ _ (ctxRuns_event c) h2]
    exact Dev.reg_put_ne _ _ _ h1
  · exact hkept _ _ (leDrop_event (eng_lt d c)) h3

end

/-- Settles O29: each request, wait and drop by what its operation notes of the pass. -/
theorem passRequests : Obligations.PassRequests := by
  intro s hs
  refine ⟨?_, ?_⟩
  · intro n r d hspan htgt hlec hen c q others missed
    have h192 := htgt.trans_le (nCtx_le d.member)
    have hpres : d.ctxPresent c = true := decide_eq_true htgt
    have hon : (d.lecOn && d.ctxEn c) = true := by rw [hlec, hen]; rfl
    have hmissed : ∀ spec x, q.pend ≠ none → onPart x s = .next (s.withDev (d.ctxTrigger c spec)) → DevNext (onPart x s) s missed := fun spec x hp hx => by
      obtain ⟨p, hp⟩ := Option.ne_none_iff_exists'.1 hp
      exact ⟨_, hx, Dev.ctxTrigger_over hp h192 spec⟩
    refine ⟨fun htake => ?_, fun htake => ?_⟩
    · have hmem : s.dev.member = d.member := (Dev.takeFiring_member htake).symm
      have hrun : s.dev.runAction n 4 192 s.dev.ctxPresent (fun c e => e.ctxRun c) = d.ctxTrigger c false := by
        rw [Dev.runAction_one htake hspan h192 (by rw [Dev.ctxPresent, hmem]; exact hpres), Dev.ctxRun]
        exact if_pos hon
      refine ⟨fun hp => ?_, fun hp => hmissed false _ hp (onPart_eq hs hrun)⟩
      obtain ⟨-, h1, h2, -, h4⟩ := Dev.ctxTrigger_noted hp false
      rw [Bool.false_or] at h4
      exact ⟨_, onPart_eq hs hrun, h1 rfl, h2, h4⟩
    · have hmem : s.dev.member = d.member := (Dev.takeFiring_member htake).symm
      have hrun : s.dev.runAction n 5 192 s.dev.ctxPresent (fun c e => e.ctxSpec c) = d.ctxSpec c :=
        Dev.runAction_one htake hspan h192 (by rw [Dev.ctxPresent, hmem]; exact hpres)
      refine ⟨fun hen => onPart_eq hs (hrun.trans ?_), fun hen hgrp hpage hpw => ?_⟩
      · rw [Dev.ctxSpec, hon, if_neg (by decide), show d.flag (R.CTX_CTRL c) F.CTX_CTRL_SPEC_EN = false from hen]
        exact if_pos rfl
      · intro susp at1
        have htrig : d.ctxSpec c = d.ctxTrigger c (!susp) := by
          rw [Dev.ctxSpec, hon, if_neg (by decide), show d.flag (R.CTX_CTRL c) F.CTX_CTRL_SPEC_EN = true from hen, hpage,
            show d.flag (R.CTX_SPEC c) F.CTX_SPEC_PW_ERR = false from hpw, decide_eq_false (Nat.not_le.2 hgrp)]
          exact if_neg (by decide)
        refine ⟨fun hp => ?_, fun hp => hmissed (!susp) _ hp (onPart_eq hs (hrun.trans htrig))⟩
        obtain ⟨h0, -, h2, h3, h4⟩ := Dev.ctxTrigger_noted hp (!susp)
        simp only [Bool.or_eq_true, Bool.not_eq_true'] at h4
        exact ⟨_, onPart_eq hs (hrun.trans htrig), h0, h2, fun hno => h3 (by rw [hno]; rfl), h4⟩
  · intro c p hc hp d q late next hheld
    have h192 := hc.trans_le (nCtx_le s.dev.member)
    have hctx : ∀ f : Dev → Dev, d.onCtx c f = f d := fun f => by
      rw [Dev.onCtx, Dev.ctxPresent, show decide (c < nCtx d.member) = true from decide_eq_true hc, hheld]
      rfl
    refine ⟨fun hspec hst hr ht hf => ?_, fun h0 h8 hl => ?_⟩
    · exact ⟨_, onPart_eq hs (hctx _), Dev.ctxWaitTimeout_spec h192 hp hspec hst hr ht hf⟩
    · exact ⟨_, onPart_eq hs (hctx _), Dev.ctxDrop_spec h192 hp h0 h8 hl⟩

end Sys2Proof.Machine
end

section
/-! PROOFS. The rings' ports: insertion, links, the own frame, the epoch protocol's update, and their obligation (R390 to R394, R403, R405). -/

namespace Sys2Proof.Machine

/-- The rings' state alone. -/
def ringPart (d e : Dev) : Dev := { d with ring := e.ring }

theorem ringPart_part : Part ringPart := ⟨fun _ => rfl, fun _ _ _ => rfl, fun _ _ => rfl, fun _ _ _ => rfl⟩

/-- The rings' state but for what the epoch protocol's steps 2 to 4 write. -/
def RingSt.offEp (q : RingSt) : RingSt := { q with okP := false, okM := false, commitAt := none }

section
variable {d e : Dev} {l : List Nat}

/-! ### The protocol's update (R403) -/

/-- A property that every write of the protocol's update keeps. -/
structure EpKeeps (P : Dev → Prop) : Prop where
  ack : ∀ u v, P u → P (u.put R.SFX_EP F.SFX_EP_EP_ACK v)
  ok : ∀ u : Dev, P u → P { u with ring := { u.ring with okP := true, okM := true } }
  ph : ∀ u, P u → P (u.put R.SFX_STAT F.SFX_STAT_EP_PH 2)
  commit : ∀ (u : Dev) c, P u → P { u with ring := { u.ring with commitAt := c } }

theorem EpKeeps.update {P : Dev → Prop} (hk : EpKeeps P) (h : P d) : P d.epUpdate := by
  rw [Dev.epUpdate]
  split
  · exact h
  · dsimp only
    have h1 := hk.ack d (List.foldl (fun n s => n + 2 ^ s) (2 ^ d.rsNode) (d.peers.filter d.proposes)) h
    generalize d.put R.SFX_EP F.SFX_EP_EP_ACK (List.foldl (fun n s => n + 2 ^ s) (2 ^ d.rsNode) (d.peers.filter d.proposes)) = u at h1
    split
    · have h2 := hk.ph _ (hk.ok _ h1)
      split
      · exact hk.commit _ _ h2
      · exact h2
    · split
      · exact hk.commit _ _ h1
      · exact h1

theorem FrameOn.epUpdate (h : FrameOn ringPart l d e) (h1 : R.SFX_EP ∈ l) (h2 : R.SFX_STAT ∈ l) : FrameOn ringPart l d e.epUpdate :=
  EpKeeps.update (P := FrameOn ringPart l d) ⟨fun _ _ hu => hu.put ringPart_part _ _ h1, fun _ hu => hu.part ringPart_part rfl fun _ => rfl,
    fun _ hu => hu.put ringPart_part _ _ h2, fun _ _ hu => hu.part ringPart_part rfl fun _ => rfl⟩ h

theorem Dev.epUpdate_ring (d : Dev) : d.epUpdate.ring.offEp = d.ring.offEp :=
  EpKeeps.update (P := fun u => u.ring.offEp = d.ring.offEp)
    ⟨fun u v hu => (congrArg RingSt.offEp (u.put_ring R.SFX_EP F.SFX_EP_EP_ACK v)).trans hu, fun _ hu => hu,
      fun u hu => (congrArg RingSt.offEp (u.put_ring R.SFX_STAT F.SFX_STAT_EP_PH 2)).trans hu, fun _ _ hu => hu⟩ rfl

/-- The update leaves the fields of SFX_STAT but for its phase. -/
theorem Dev.epUpdate_stat (d : Dev) {f : RField} (h : F.SFX_STAT_EP_PH.lo + fieldWidth F.SFX_STAT_EP_PH ≤ f.lo ∨ f.lo + fieldWidth f ≤ F.SFX_STAT_EP_PH.lo) :
    d.epUpdate.get R.SFX_STAT f = d.get R.SFX_STAT f :=
  EpKeeps.update (P := fun u => u.get R.SFX_STAT f = d.get R.SFX_STAT f)
    ⟨fun u v hu => (Dev.get_of_reg (Dev.reg_put_ne _ _ _ (by decide)) f).trans hu, fun _ hu => hu,
      fun u hu => (Dev.get_put_field _ _ _ _ _ _ h).trans hu, fun _ _ hu => hu⟩ rfl

/-! ### The own frame (R394) -/

theorem wordOfInt_eq (x : Int) : wordOfInt x = BitVec.ofNat 32 (wrapN 32 x) := rfl

theorem rsNode_lt (d : Dev) : d.rsNode < 16 := getF_lt (d.spb 0xBC0) F.RS_LOCAL_NODE

theorem epoch_lt (d : Dev) : d.epoch < 65536 := getF_lt (d.reg R.SFX_STAT) F.SFX_STAT_EPOCH

/-- The word that begins every frame of a node. -/
theorem firstWord_toNat (d : Dev) : (BitVec.ofNat 32 (0xC5 * 2 ^ 24 + 2 ^ 20 + d.rsNode * 2 ^ 16 + d.epoch)).toNat =
    0xC5 * 2 ^ 24 + 2 ^ 20 + d.rsNode * 2 ^ 16 + d.epoch := by
  have h1 := rsNode_lt d
  have h2 := epoch_lt d
  rw [BitVec.toNat_ofNat]
  exact Nat.mod_eq_of_lt (by omega)

/-- What the own frame holds (R394). -/
structure OwnFrame (d : Dev) (x : List Word) : Prop where
  len : x.length = 16
  src : fwSrc x = d.rsNode
  epoch : fwEpoch x = d.epoch
  seq : fw x 1 = BitVec.ofNat 32 d.ring.seq
  cyc : fw x 2 = wordOfInt d.cycNow
  req : fw x 6 = d.reg R.SFX_TX_REQ
  cfg : fw x 12 = d.rcfg
  crcP : fw x 14 = frameCrc 0x50 x
  crcM : fw x 15 = frameCrc 0x4D x

theorem Dev.frame_own (d : Dev) : OwnFrame d d.frame := by
  have h1 := rsNode_lt d
  have h2 := epoch_lt d
  have hw : fw d.frame 0 = BitVec.ofNat 32 (0xC5 * 2 ^ 24 + 2 ^ 20 + d.rsNode * 2 ^ 16 + d.epoch) := rfl
  refine ⟨rfl, ?_, ?_, rfl, rfl, rfl, rfl, rfl, rfl⟩
  · rw [fwSrc, hw, firstWord_toNat]
    omega
  · rw [fwEpoch, hw, firstWord_toNat]
    omega

theorem ringPage_present {b : Bool} (h : d.ringPresent b = true) : pagePresent d.member (ringPage b) = true := by
  cases b with
  | false => rfl
  | true => exact h

/-! ### Bypass and links (R390, R405) -/

/-- What a node needs before it is inserted on a ring, the spacing of the two rings apart (R390). -/
def Dev.ringReady (d : Dev) (b : Bool) : Prop :=
  d.flag (R.RG_CTRL (ringIx b)) F.RG_CTRL_INSERT = true ∧ d.flag R.SAFE_STAT F.SAFE_STAT_SPB_LOADED = true ∧
    d.get R.SAFE_STAT F.SAFE_STAT_SPB_ERR = 0 ∧ d.ringUsed b = true ∧ d.flag (R.RG_STAT (ringIx b)) F.RG_STAT_LOCK = true ∧
    d.devState ≠ DS.BOOT ∧ d.devState ≠ DS.FATAL ∧ d.inserted b = false

/-- Ring B waits two cycles after Ring A (R390). -/
def Dev.ringSpaced (d : Dev) (b : Bool) : Prop :=
  b = true → (∀ t, d.ring.insA = some t → t + 2 * d.cycTicks ≤ d.gtc) ∧ (d.ring.insA = none → d.ringUsed false = false)

/-- The insertion itself. -/
def Dev.ringIn (d : Dev) (b : Bool) : Dev :=
  let d := d.putB (R.RG_STAT (ringIx b)) F.RG_STAT_INSERTED true
  if b then d else { d with ring := { d.ring with insA := some d.gtc } }

theorem Dev.ringInsert_in {b : Bool} (hup : d.devState ≠ DS.RESET) (hr : d.ringReady b) (hs : d.ringSpaced b) :
    d.ringInsert b = d.ringIn b := by
  obtain ⟨h1, h2, h3, h4, h5, h6, h7, h8⟩ := hr
  have hsp : ((!b || (match d.ring.insA with | some t => decide (t + 2 * d.cycTicks ≤ d.gtc) | none => !d.ringUsed false)) : Bool) = true := by
    cases b with
    | false => rfl
    | true =>
      obtain ⟨ha, hn⟩ := hs rfl
      cases hi : d.ring.insA with
      | none => simp [hn hi]
      | some t => simp [ha t hi]
  rw [Dev.ringInsert]
  dsimp only
  refine if_pos ?_
  simp only [h1, h2, h3, h4, h5, h8, bne_iff_ne.2 h6, bne_iff_ne.2 h7, bne_iff_ne.2 hup, Bool.and_self, Bool.not_false, Bool.true_and, beq_self_eq_true]
  exact hsp

theorem Dev.ringInsert_not {b : Bool} (hn : ¬(d.ringReady b ∧ d.ringSpaced b)) : d.ringInsert b = d := by
  rw [Dev.ringInsert]
  dsimp only
  refine if_neg fun h => hn ?_
  simp only [Bool.and_eq_true, beq_iff_eq, bne_iff_ne, Bool.not_eq_true', Bool.or_eq_true] at h
  obtain ⟨⟨⟨⟨⟨⟨⟨⟨⟨h1, h2⟩, h3⟩, h4⟩, h5⟩, -⟩, h6⟩, h7⟩, h8⟩, hs⟩ := h
  refine ⟨⟨h1, h2, h3, h4, h5, h6, h7, h8⟩, fun hb => ?_⟩
  have hs := hs.resolve_left fun hf => Bool.false_ne_true (hf.symm.trans hb)
  refine ⟨fun t ht => ?_, fun hnone => ?_⟩
  · rw [ht] at hs
    exact of_decide_eq_true hs
  · rw [hnone] at hs
    simpa using hs

theorem Dev.ringIn_spec (d : Dev) (b : Bool) :
    Frame { d with ring := { d.ring with insA := if b then d.ring.insA else some d.gtc } } (d.ringIn b) [R.RG_STAT (ringIx b)] ∧
      (d.ringIn b).inserted b = true ∧ (d.ringIn b).flag (R.RG_STAT (ringIx b)) F.RG_STAT_LOCK = d.flag (R.RG_STAT (ringIx b)) F.RG_STAT_LOCK := by
  cases b with
  | false =>
    refine ⟨(FrameOn.refl noPart_part [R.RG_STAT 0] _).putB noPart_part _ _ (List.mem_singleton_self _), ?_, ?_⟩
    · exact Dev.flag_putB_self d (R.RG_STAT 0) F.RG_STAT_INSERTED true (by decide) (by decide)
    · exact Dev.flag_put_field d _ _ _ (by decide)
  | true =>
    refine ⟨(FrameOn.refl noPart_part [R.RG_STAT 1] _).putB noPart_part _ _ (List.mem_singleton_self _), ?_, ?_⟩
    · exact Dev.flag_putB_self d (R.RG_STAT 1) F.RG_STAT_INSERTED true (by decide) (by decide)
    · exact Dev.flag_put_field d _ _ _ (by decide)

theorem Dev.bypassFault_spec {b : Bool} (h : d.ringPresent b = true) :
    Quiet (d.putB (R.RG_STAT (ringIx b)) F.RG_STAT_BYP_ERR true) (d.bypassFault b) ∧ Raised (d.bypassFault b) (ringPage b) Ev.BYPASS_FAULT := by
  rw [Dev.bypassFault, if_pos h]
  exact ⟨Dev.raise_quiet _ _ _, Dev.raise_raised _ (ringPage_present h)⟩

theorem Dev.ringLink_spec {b up : Bool} (h : d.ringPresent b = true) (hne : d.flag (R.RG_STAT (ringIx b)) F.RG_STAT_LOCK ≠ up) :
    Quiet (d.putB (R.RG_STAT (ringIx b)) F.RG_STAT_LOCK up) (d.ringLink b up) ∧ Raised (d.ringLink b up) (ringPage b) Ev.RING_LINK := by
  rw [Dev.ringLink, if_pos (by rw [h, bne_iff_ne.2 hne]; rfl)]
  exact ⟨Dev.raise_quiet _ _ _, Dev.raise_raised _ (ringPage_present h)⟩

theorem Dev.ringLink_same {b up : Bool} (h : d.flag (R.RG_STAT (ringIx b)) F.RG_STAT_LOCK = up) : d.ringLink b up = d := by
  rw [Dev.ringLink, h, bne_self_eq_false, Bool.and_false]
  rfl

/-! ### The own frame's sending (R393) -/

/-- The node's first frame begins its sequence. -/
def Dev.ringBegun (d : Dev) : Dev := if d.ring.began then d else { d with ring := { d.ring with seq := 1, began := true } }

/-- The frame of the present cycle is out. -/
def Dev.frameOut (d : Dev) (c : Int) : Dev := { d with ring := { d.ring with sentCyc := c, txTick := d.gtc, tx := d.frame } }

theorem Dev.ringBegun_eq (d : Dev) : d.ringBegun = { d with ring := { d.ring with seq := if d.ring.began then d.ring.seq else 1, began := true } } := by
  obtain hb | hb := Bool.eq_false_or_eq_true d.ring.began
  · rw [Dev.ringBegun, if_pos hb, hb, if_pos rfl, ← hb]
  · rw [Dev.ringBegun, hb, if_neg Bool.false_ne_true]
    rfl

theorem Dev.frameSend_eq (hi : d.inserted false = true ∨ d.inserted true = true)
    (h : (800 * (d.rsNode + 1) : Nat) ≤ d.vehicleTime - d.cycNow * (d.cycTicks : Int)) (hs : d.ring.sentCyc ≠ d.cycNow + 1) :
    d.frameSend = (d.ringBegun.frameOut (d.cycNow + 1)).epUpdate := by
  rw [Dev.frameSend]
  exact if_pos (by rw [Bool.or_eq_true_iff.2 hi, decide_eq_true h, bne_iff_ne.2 hs]; rfl)

theorem inserted_or {b : Bool} (h : d.inserted b = true) : d.inserted false = true ∨ d.inserted true = true := by
  cases b with
  | false => exact .inl h
  | true => exact .inr h

theorem Dev.frameSend_done (h : d.ring.sentCyc = d.cycNow + 1) : d.frameSend = d := by
  rw [Dev.frameSend, h, bne_self_eq_false, Bool.and_false]
  rfl

theorem Dev.frameOut_spec (d : Dev) (c : Int) : FrameOn ringPart [R.SFX_EP, R.SFX_STAT] d (d.frameOut c).epUpdate :=
  ((FrameOn.refl ringPart_part _ d).part ringPart_part (f := d.frameOut c) rfl fun _ => rfl).epUpdate (by decide) (by decide)

theorem Dev.ringBegun_reg (d : Dev) (a : Nat) : d.ringBegun.reg a = d.reg a := by rw [Dev.ringBegun_eq]; rfl

theorem Dev.ringBegun_calm (d : Dev) : d.ringBegun.calm = (ringPart d d.ringBegun).calm := by rw [Dev.ringBegun_eq]; rfl

theorem Dev.ringBegun_gtc (d : Dev) : d.ringBegun.gtc = d.gtc := by rw [Dev.ringBegun_eq]

theorem Dev.ringBegun_began (d : Dev) : d.ringBegun.ring.began = true ∧ d.ringBegun.ring.seq = (if d.ring.began then d.ring.seq else 1) ∧
    d.ringBegun.ring.srcs = d.ring.srcs := by
  rw [Dev.ringBegun_eq]
  exact ⟨rfl, rfl, rfl⟩

/-- The frame that a node sends first is its own as it is (R394). -/
theorem Dev.ringBegun_own (d : Dev) : fwSrc d.ringBegun.frame = d.rsNode ∧ fwEpoch d.ringBegun.frame = d.epoch ∧
    fw d.ringBegun.frame 2 = wordOfInt d.cycNow ∧ fw d.ringBegun.frame 6 = d.reg R.SFX_TX_REQ ∧ fw d.ringBegun.frame 12 = d.rcfg := by
  obtain ⟨-, h1, h2, -, h4, h5, h6, -, -⟩ := d.ringBegun.frame_own
  rw [h1, h2, h4, h5, h6, Dev.ringBegun_eq]
  exact ⟨rfl, rfl, rfl, rfl, rfl⟩

theorem Dev.frameSent (d : Dev) (c : Int) {e : Dev} (he : (d.ringBegun.frameOut c).epUpdate = e) :
    Frame { d with ring := e.ring } e [R.SFX_EP, R.SFX_STAT] ∧ e.ring.sentCyc = c ∧ e.ring.txTick = d.gtc ∧ e.ring.began = true ∧
      e.ring.seq = (if d.ring.began then d.ring.seq else 1) ∧ OwnFrame d.ringBegun e.ring.tx ∧ e.ring.tx = d.ringBegun.frame ∧
      e.ring.srcs = d.ring.srcs := by
  have hr : e.ring.offEp = (d.ringBegun.frameOut c).ring.offEp := by rw [← he, Dev.epUpdate_ring]
  have hq : FrameOn ringPart [R.SFX_EP, R.SFX_STAT] d d.ringBegun :=
    (FrameOn.refl ringPart_part _ d).part ringPart_part d.ringBegun_calm d.ringBegun_reg
  obtain ⟨hb, hs, hsrc⟩ := d.ringBegun_began
  have htx : e.ring.tx = d.ringBegun.frame := (congrArg RingSt.tx hr :)
  refine ⟨hq.trans ringPart_part (he ▸ d.ringBegun.frameOut_spec c), (congrArg RingSt.sentCyc hr :), ?_, ?_, ?_, ?_, htx, ?_⟩
  · exact (congrArg RingSt.txTick hr :).trans d.ringBegun_gtc
  · exact (congrArg RingSt.began hr :).trans hb
  · exact (congrArg RingSt.seq hr :).trans hs
  · exact htx ▸ d.ringBegun.frame_own
  · exact (congrArg RingSt.srcs hr :).trans hsrc

/-! ### The protocol's end (R403) -/

theorem Dev.epochFail_eq (h0 : d.epPh ≠ 0) (h : d.ring.epStart + (max 1 (d.rsRing F.RS_RING_EP_TOUT) : Nat) ≤ d.cycNow) :
    d.epochFail = d.epNormal.raise Pg.SFX Ev.EPOCH_FAIL := if_pos ⟨h0, h⟩

/-- The registers of the protocol's end. -/
def Dev.epRegs (d : Dev) : Dev := (d.setReg R.SFX_EP 0).put R.SFX_STAT F.SFX_STAT_EP_PH 0

theorem Dev.epNormal_eq (d : Dev) : d.epNormal =
    { d.epRegs with ring := { d.epRegs.ring with okP := false, okM := false, commitAt := none } } := rfl

theorem Dev.epNormal_reg (d : Dev) (a : Nat) : d.epNormal.reg a = d.epRegs.reg a := rfl

theorem Dev.epRegs_frame (d : Dev) : FrameOn noPart [R.SFX_EP, R.SFX_STAT] d d.epRegs :=
  ((FrameOn.refl noPart_part _ d).setReg noPart_part 0 (by decide)).put noPart_part _ 0 (by decide)

theorem Dev.epRegs_get (d : Dev) (f : RField) (h : F.SFX_STAT_EP_PH.lo + fieldWidth F.SFX_STAT_EP_PH ≤ f.lo ∨ f.lo + fieldWidth f ≤ F.SFX_STAT_EP_PH.lo) :
    d.epRegs.get R.SFX_STAT f = d.get R.SFX_STAT f :=
  (Dev.get_put_field _ _ _ _ _ _ h).trans (Dev.get_of_reg (d.reg_setReg_ne 0 (by decide)) f)

theorem Dev.epNormal_spec (d : Dev) : Frame { d with ring := { d.ring with okP := false, okM := false, commitAt := none } } d.epNormal
    [R.SFX_EP, R.SFX_STAT] ∧ d.epNormal.reg R.SFX_EP = 0 ∧ d.epNormal.epPh = 0 ∧ d.epNormal.epoch = d.epoch := by
  obtain ⟨hc, hr, hraw⟩ := d.epRegs_frame
  refine ⟨⟨congrArg (fun u : Dev => { u with ring := { u.ring with okP := false, okM := false, commitAt := none } }) hc, hr, hraw⟩, ?_, ?_, ?_⟩
  · exact (d.epNormal_reg _).trans ((Dev.reg_put_ne (d.setReg R.SFX_EP 0) F.SFX_STAT_EP_PH 0 (by decide)).trans (d.reg_setReg_self _ _))
  · exact (Dev.get_of_reg (d.epNormal_reg _) _).trans (Dev.get_put_self (d.setReg R.SFX_EP 0) R.SFX_STAT F.SFX_STAT_EP_PH 0 (by decide))
  · exact (Dev.get_of_reg (d.epNormal_reg _) _).trans (d.epRegs_get _ (by decide))

end

/-- Settles O44. -/
theorem ringPorts : Obligations.RingPorts := by
  intro s r hup
  refine ⟨fun hr h hs => ?_, fun hn => ?_, fun hp => ⟨?_, fun up => ⟨fun hr hne => ?_, fun he => ?_⟩⟩, fun hr hi ht hs => ?_, fun hs => ?_,
    fun hr h0 ht => ?_⟩
  · obtain ⟨hf, hin, hl⟩ := s.dev.ringIn_spec (r == .b)
    exact ⟨_, onDev_eq hup ((Dev.clocked_runs hr fun d => d.ringInsert (r == .b)).trans (Dev.ringInsert_in hup h hs)), hf, hin,
      hl.trans h.2.2.2.2.1⟩
  · exact onDev_same hup (Dev.clocked_same _ (Dev.ringInsert_not hn))
  · exact ⟨_, onDev_eq hup rfl, Dev.bypassFault_spec hp⟩
  · exact ⟨_, onDev_eq hup (Dev.clocked_runs hr fun d => d.ringLink (r == .b) up), Dev.ringLink_spec hp hne⟩
  · exact onDev_same hup (Dev.clocked_same _ (Dev.ringLink_same he))
  · generalize he : (s.dev.ringBegun.frameOut (s.dev.cycNow + 1)).epUpdate = e
    obtain ⟨hf, hsent, htick, hb, hseq, hown, htx, hsrc⟩ := s.dev.frameSent _ he
    obtain ⟨h1, h2, h3, h4, h5⟩ := s.dev.ringBegun_own
    rw [← htx] at h1 h2 h3 h4 h5
    have hq : fw e.ring.tx 1 = BitVec.ofNat 32 e.ring.seq := by rw [hown.seq, hseq, s.dev.ringBegun_began.2.1]
    exact ⟨e, onDev_eq hup ((Dev.clocked_runs hr Dev.frameSend).trans ((Dev.frameSend_eq (inserted_or hi) ht hs).trans he)), hf, hsent, htick, hb,
      hseq, hown.len, h1, h2, hq, h3, h4, h5, hown.crcP, hown.crcM, fun j => congrArg (fun l => spGet _ l j) hsrc⟩
  · exact onDev_same hup (Dev.clocked_same _ (Dev.frameSend_done hs))
  · obtain ⟨hf, he, hp, hep⟩ := s.dev.epNormal_spec
    have hq := s.dev.epNormal.raise_quiet Pg.SFX Ev.EPOCH_FAIL
    exact ⟨_, onDev_eq hup ((Dev.clocked_runs hr Dev.epochFail).trans (Dev.epochFail_eq h0 ht)), FrameOn.quiet noPart_part hf hq,
      (hq.reg (by decide)).trans he, (hq.get (by decide) _).trans hp, (hq.get (by decide) _).trans hep, Dev.raise_raised _ rfl⟩

end Sys2Proof.Machine
end

section
/-! PROOFS. Transitions of the device state: what they leave as it stands, and the enables while they run (R53, R333, R355, R374). -/

namespace Sys2Proof.Machine

/-! ### What a transition may change -/

/-- The pages of the machines' operations, but for SYS and SAFE. -/
def transPages : List Nat := (List.range 0x200).filter fun p => (0x80 ≤ p ∧ p ≤ 0x94) ∨ p = 0x98 ∨ p = 0x99 ∨ p = 0x60 ∨ 0x100 ≤ p ∧ p < 0x120

/-- The locks that a transition sets. -/
def lockRegs : List Nat := R.MBX_RIGHTS :: ((List.range 32).map R.MBX_BIND ++ (List.range 0x200).map R.PG_LOCK)

/-- The registers that transitions of the device state write, by themselves or through the machines. -/
def transRegs : List Nat :=
  [R.SYS_ABSENT_CNT, R.SAFE_FLAG, R.SAFE_OUT, R.SAFE_GRANT, R.SYS_STATE] ++ (lockRegs ++ pageRegs transPages)

/-- A machine's parts, the key windows, the note of the latest transition. -/
def transPart (d e : Dev) : Dev := { machPart d e with keys := e.keys, trans := e.trans }

theorem transPart_part : Part transPart := ⟨fun _ => rfl, fun _ _ _ => rfl, fun _ _ => rfl, fun _ _ _ => rfl⟩

theorem mem_lockRegs {a : Nat} : a ∈ lockRegs ↔ a = R.MBX_RIGHTS ∨ (∃ k < 32, R.MBX_BIND k = a) ∨ ∃ p < 0x200, R.PG_LOCK p = a := by
  simp only [lockRegs, List.mem_append, List.mem_cons, List.mem_map, List.mem_range]

theorem mem_transRegs {a : Nat} : a ∈ transRegs ↔ (a = R.SYS_ABSENT_CNT ∨ a = R.SAFE_FLAG ∨ a = R.SAFE_OUT ∨ a = R.SAFE_GRANT ∨ a = R.SYS_STATE) ∨
    a ∈ lockRegs ∨ a ∈ pageRegs transPages := by
  simp only [transRegs, List.mem_append, List.mem_cons, List.not_mem_nil, or_false]

/-- Where the locks lie. -/
theorem lockRegs_place {a : Nat} (h : a ∈ lockRegs) : (0x40010000 ≤ a ∧ a < 0x40011000 ∧ a % 0x1000 ≠ 0x10) ∨ a % 0x1000 = 0x20 := by
  obtain rfl | ⟨k, hk, rfl⟩ | ⟨p, hp, rfl⟩ := mem_lockRegs.1 h
  · simp [R.MBX_RIGHTS]
  · simp only [R.MBX_BIND]
    omega
  · simp only [R.PG_LOCK, pageBase]
    omega

theorem mem_transPages {p : Nat} : p ∈ transPages ↔ p < 0x200 ∧ ((0x80 ≤ p ∧ p ≤ 0x94) ∨ p = 0x98 ∨ p = 0x99 ∨ p = 0x60 ∨ 0x100 ≤ p ∧ p < 0x120) := by
  simp only [transPages, List.mem_filter, List.mem_range, decide_eq_true_eq]

/-- Where the registers of transitions lie. -/
theorem transRegs_place {a : Nat} (h : a ∈ transRegs) : a = R.SYS_ABSENT_CNT ∨ a = R.SAFE_FLAG ∨ a = R.SAFE_OUT ∨ a = R.SAFE_GRANT ∨
    a = R.SYS_STATE ∨ (0x40010000 ≤ a ∧ a < 0x40011000) ∨ (0x40080000 ≤ a ∧ a < 0x40095000) ∨ (0x40098000 ≤ a ∧ a < 0x4009A000) ∨
    (0x40060000 ≤ a ∧ a < 0x40061000) ∨ (0x40100000 ≤ a ∧ a < 0x40120000) ∨ a % 0x1000 = 0x20 := by
  obtain (rfl | rfl | rfl | rfl | rfl) | h | h := mem_transRegs.1 h
  · simp
  · simp
  · simp
  · simp
  · simp
  · have := lockRegs_place h
    omega
  · obtain ⟨p, hp, o, ho, -, rfl⟩ := mem_pageRegs.1 h
    have := mem_transPages.1 hp
    simp only [pageBase]
    omega

/-- A register that no transition touches. -/
def offTrans (a : Nat) : Prop :=
  a ≠ R.SYS_ABSENT_CNT ∧ a ≠ R.SAFE_FLAG ∧ a ≠ R.SAFE_OUT ∧ a ≠ R.SAFE_GRANT ∧ a ≠ R.SYS_STATE ∧ ¬(0x40010000 ≤ a ∧ a < 0x40011000) ∧
    ¬(0x40080000 ≤ a ∧ a < 0x40095000) ∧ ¬(0x40098000 ≤ a ∧ a < 0x4009A000) ∧ ¬(0x40060000 ≤ a ∧ a < 0x40061000) ∧
    ¬(0x40100000 ≤ a ∧ a < 0x40120000) ∧ a % 0x1000 ≠ 0x20

theorem offTrans.not_mem {a : Nat} (h : offTrans a) : a ∉ transRegs := fun hm => by
  have := transRegs_place hm
  rw [offTrans] at h
  omega

theorem pgEvtRaw_not_lock (q : Nat) : R.PG_EVT_RAW q ∉ lockRegs := fun h => by
  have := lockRegs_place h
  simp only [R.PG_EVT_RAW, pageBase] at this
  omega

theorem pgEvtRaw_not_trans (q : Nat) : R.PG_EVT_RAW q ∉ transRegs := fun h => by
  obtain (h | h | h | h | h) | h | h := mem_transRegs.1 h
  · simp only [R.PG_EVT_RAW, pageBase, R.SYS_ABSENT_CNT] at h; omega
  · simp only [R.PG_EVT_RAW, pageBase, R.SAFE_FLAG] at h; omega
  · simp only [R.PG_EVT_RAW, pageBase, R.SAFE_OUT] at h; omega
  · simp only [R.PG_EVT_RAW, pageBase, R.SAFE_GRANT] at h; omega
  · simp only [R.PG_EVT_RAW, pageBase, R.SYS_STATE] at h; omega
  · exact pgEvtRaw_not_lock _ h
  · exact pgEvtRaw_not_page _ _ h

theorem machRegs_trans {d : Dev} {m a : Nat} (hm : m < 20) (h : a ∈ machRegs d m) : a ∈ transRegs := by
  refine mem_transRegs.2 ?_
  obtain h | h | h | h | h := mem_machRegs.1 h
  · exact .inl (.inl h)
  · exact .inl (.inr (.inl h))
  · exact .inl (.inr (.inr (.inl h)))
  · exact .inl (.inr (.inr (.inr (.inl h))))
  · obtain ⟨p, hp, o, ho, hne, rfl⟩ := mem_pageRegs.1 h
    obtain ⟨hp, hns⟩ := List.mem_filter.1 hp
    rw [Bool.and_eq_true, bne_iff_ne, bne_iff_ne] at hns
    have h1 := machPages_place hm hp
    have h2 := machPages_lt hm hp
    have h3 : p ∈ transPages := by
      rw [mem_transPages]
      simp only [Pg.SYS, Pg.SAFE] at hns
      omega
    exact .inr (.inr (mem_pageRegs.2 ⟨p, h3, o, ho, hne, rfl⟩))

/-- What a transition of the device state has left: its parts and its registers apart, nothing has changed but by events. -/
abbrev TransRun (d e : Dev) : Prop := FrameOn transPart transRegs d e

section
variable {d e f : Dev}

theorem TransRun.mach {m : Nat} (hm : m < 20) (h : MachRun m d e) : TransRun d e :=
  h.frame.widen machPart_part transPart_part (fun _ _ => rfl) fun _ ha => machRegs_trans hm ha

theorem TransRun.host {l : List Nat} (h : FrameOn hostPart l d e) (hl : ∀ a ∈ l, a ∈ transRegs) : TransRun d e :=
  h.widen hostPart_part transPart_part (fun _ _ => rfl) hl

theorem TransRun.of_quiet (h : Quiet d e) : TransRun d e := FrameOn.of_quiet transPart_part _ h

theorem TransRun.read (h : TransRun d e) {a : Nat} (ha : eventReg a = false) (ho : offTrans a) : e.reg a = d.reg a :=
  h.reg transPart_part ha ho.not_mem

theorem TransRun.told (h : TransRun d e) {page src : Nat} (hr : Raised d page src) : Raised e page src :=
  h.raised transPart_part (pgEvtRaw_not_trans _) hr

theorem TransRun.live (h : TransRun d e) : e.replaying = d.replaying :=
  Dev.flag_of_reg (h.read (a := R.RPL_STAT) (by decide) (by unfold offTrans; decide)) _

theorem TransRun.member (h : TransRun d e) : e.member = d.member := (congrArg Dev.member h.1 :)
theorem TransRun.gtc (h : TransRun d e) : e.gtc = d.gtc := (congrArg Dev.gtc h.1 :)

theorem enableRegs_trans {g : Nat} (hg : g < 20) : ∀ a ∈ enableRegs g, a ∈ transRegs := fun a ha =>
  machRegs_trans (d := Dev.reset) (m := 0) (by decide) (enableRegs_mach hg a ha)

theorem TransRun.setGenP (h : TransRun d e) {g : Nat} (hg : g < 20) (b : Bool) : TransRun d (e.setGenP g b) :=
  FrameOn.trans transPart_part h (TransRun.host ((FrameOn.refl hostPart_part _ e).setGenP (fun _ ha => ha) b) (enableRegs_trans hg))

theorem TransRun.setGenM (h : TransRun d e) {g : Nat} (hg : g < 20) (b : Bool) : TransRun d (e.setGenM g b) :=
  FrameOn.trans transPart_part h (TransRun.host ((FrameOn.refl hostPart_part _ e).setGenM (fun _ ha => ha) b) (enableRegs_trans hg))

theorem TransRun.grantAll (h : TransRun d e) : TransRun d e.grantAll := by
  rw [Dev.grantAll]
  exact forN_keeps (P := TransRun d) 20 (fun g hg _ hu => hu.setGenM hg _) (FrameOn.put transPart_part h _ _ (mem_transRegs.2 (.inl (by simp))))

theorem TransRun.dropAllP (h : TransRun d e) : TransRun d e.dropAllP := forN_keeps (P := TransRun d) 20 (fun _ hg _ hu => hu.setGenP hg false) h
theorem TransRun.dropAllM (h : TransRun d e) : TransRun d e.dropAllM := forN_keeps (P := TransRun d) 20 (fun _ hg _ hu => hu.setGenM hg false) h

/-! ### The device state itself (R52, R53) -/

/-- The key windows alone. -/
def keysPart (d e : Dev) : Dev := { d with keys := e.keys }

theorem keysPart_part : Part keysPart := ⟨fun _ => rfl, fun _ _ _ => rfl, fun _ _ => rfl, fun _ _ _ => rfl⟩

/-- The locks of a transition that leaves CONFIGURE, and of one that leaves COMMISSION for READY. -/
def Dev.bindLocked (d : Dev) : Dev :=
  forN 32 (fun c e => e.putB (R.MBX_BIND c) F.MBX_BIND_LOCKED true) (d.putB R.MBX_RIGHTS F.MBX_RIGHTS_LOCKED true)
def Dev.pagesLocked (d : Dev) : Dev :=
  forN 0x200 (fun p e => if pagePresent e.member p then e.putB (R.PG_LOCK p) F.PG_LOCK_CLOCKED true else e) d

def Dev.stateLocks (d : Dev) (old new : Nat) : Dev :=
  let d := { d with keys := dropWindows d.keys }
  let d := if old = DS.CONFIGURE ∧ new ≠ DS.CONFIGURE then d.bindLocked else d
  if old = DS.COMMISSION ∧ new = DS.READY then d.pagesLocked else d

theorem Dev.afterState_eq (d : Dev) (old new cause : Nat) : d.afterState old new cause =
    ((d.stateLocks old new).emitProt
      { ty := 0x23, res := 0xFFFF, tick := (d.stateLocks old new).now, data := [BitVec.ofNat 32 (cause * 2 ^ 8 + old * 16 + new)] }).raiseN Pg.SYS Ev.STATE_CHANGE (0xFF + new * 2 ^ 8) := rfl

theorem Dev.stateLocks_frame (d : Dev) (old new : Nat) : FrameOn keysPart lockRegs d (d.stateLocks old new) := by
  have hp := keysPart_part
  have h0 : FrameOn keysPart lockRegs d { d with keys := dropWindows d.keys } := FrameOn.part hp (FrameOn.refl hp lockRegs d) rfl fun _ => rfl
  have hbind : ∀ u, FrameOn keysPart lockRegs d u → FrameOn keysPart lockRegs d u.bindLocked := fun u hu =>
    forN_keeps (P := FrameOn keysPart lockRegs d) 32 (fun c hc _ hv => hv.putB hp _ _ (mem_lockRegs.2 (.inr (.inl ⟨c, hc, rfl⟩))))
      (hu.putB hp _ _ (mem_lockRegs.2 (.inl rfl)))
  have hlock : ∀ u, FrameOn keysPart lockRegs d u → FrameOn keysPart lockRegs d u.pagesLocked := fun u hu =>
    forN_keeps (P := FrameOn keysPart lockRegs d) 0x200 (fun p hpp _ hv => FrameOn.ite
      (fun _ => hv.putB hp _ _ (mem_lockRegs.2 (.inr (.inr ⟨p, hpp, rfl⟩)))) fun _ => hv) hu
  rw [Dev.stateLocks]
  have h1 := FrameOn.ite (c := old = DS.CONFIGURE ∧ new ≠ DS.CONFIGURE) (fun _ => hbind _ h0) fun _ => h0
  exact FrameOn.ite (fun _ => hlock _ h1) fun _ => h1

theorem Dev.afterState_frame (d : Dev) (old new cause : Nat) : FrameOn keysPart lockRegs d (d.afterState old new cause) := by
  rw [Dev.afterState_eq]
  exact FrameOn.quiet keysPart_part (FrameOn.quiet keysPart_part (d.stateLocks_frame old new) (Dev.emitProt_quiet _ _)) (Dev.raiseN_quiet _ _ _ _)

theorem lockRegs_trans {a : Nat} (h : a ∈ lockRegs) : a ∈ transRegs := mem_transRegs.2 (.inr (.inl h))

/-- The key windows and the note of the latest transition. -/
def statePart (d e : Dev) : Dev := { d with keys := e.keys, trans := e.trans }

theorem statePart_part : Part statePart := ⟨fun _ => rfl, fun _ _ _ => rfl, fun _ _ => rfl, fun _ _ _ => rfl⟩

/-- What a transition writes by itself. -/
def stateRegs : List Nat := R.SYS_STATE :: lockRegs

theorem Dev.setState_frame (d : Dev) (new cause : Nat) (valid : Bool) : FrameOn statePart stateRegs d (d.setState new cause valid) := by
  have hp := statePart_part
  have h0 := FrameOn.refl hp stateRegs d
  have hnote : ∀ x y, FrameOn statePart stateRegs d ({ d with trans := { at1 := x, fromSt := y } }) := fun _ _ => FrameOn.part hp h0 rfl fun _ => rfl
  have hgo : ∀ u, FrameOn statePart stateRegs d u → ∀ old, FrameOn statePart stateRegs d ((u.writeState new old cause valid).afterState old new cause) :=
    fun u hu old => FrameOn.trans hp (FrameOn.setReg hp hu _ List.mem_cons_self)
      ((Dev.afterState_frame _ old new cause).widen keysPart_part hp (fun _ _ => rfl) fun _ => List.mem_cons_of_mem _)
  rw [Dev.setState]
  refine FrameOn.ite (fun _ => FrameOn.ite (fun _ => hgo d h0 _) fun _ => FrameOn.ite (fun _ => FrameOn.ite (fun _ => ?_) fun _ => h0) fun _ =>
    FrameOn.ite (fun _ => hgo _ (hnote _ _) _) fun _ => h0) fun _ => hgo _ (hnote _ _) _
  exact FrameOn.put hp h0 _ _ List.mem_cons_self

theorem stateRegs_trans {a : Nat} (h : a ∈ stateRegs) : a ∈ transRegs := by
  obtain rfl | h := List.mem_cons.1 h
  · exact mem_transRegs.2 (.inl (by simp))
  · exact lockRegs_trans h

theorem Dev.setState_run (d : Dev) (new cause : Nat) (valid : Bool) : TransRun d (d.setState new cause valid) :=
  (d.setState_frame new cause valid).widen statePart_part transPart_part (fun _ _ => rfl) fun _ => stateRegs_trans

/-- SYS_STATE after it has been written (R52, R53). -/
structure StateIs (e : Dev) (new old cause : Nat) (valid : Bool) (w : Word) : Prop where
  state : e.devState = new
  prev : e.get R.SYS_STATE F.SYS_STATE_PREV = old % 16
  cause : e.get R.SYS_STATE F.SYS_STATE_CAUSE = cause
  link : e.flag R.SYS_STATE F.SYS_STATE_LINK_OK = (getF w F.SYS_STATE_LINK_OK != 0)

theorem StateIs.of_reg {new old cause : Nat} {valid : Bool} {w : Word} (h : StateIs e new old cause valid w) (hr : f.reg R.SYS_STATE = e.reg R.SYS_STATE) :
    StateIs f new old cause valid w :=
  ⟨(Dev.get_of_reg hr _).trans h.state, (Dev.get_of_reg hr _).trans h.prev, (Dev.get_of_reg hr _).trans h.cause, (Dev.flag_of_reg hr _).trans h.link⟩

theorem Dev.writeState_is (d : Dev) {new : Nat} (old : Nat) {cause : Nat} (hn : new < 16) (hc : cause < 256) (valid : Bool) :
    StateIs (d.writeState new old cause valid) new old cause valid (d.reg R.SYS_STATE) := by
  have hr : (d.writeState new old cause valid).reg R.SYS_STATE = setF (setF (setF (setF (d.reg R.SYS_STATE) F.SYS_STATE_STATE new) F.SYS_STATE_PREV old)
      F.SYS_STATE_CAUSE cause) F.SYS_STATE_CAUSE_VALID (b2n valid) := d.reg_setReg_self _ _
  refine ⟨?_, ?_, ?_, ?_⟩
  · rw [Dev.devState, Dev.get, hr, getF_setF_ne _ _ _ _ (by decide), getF_setF_ne _ _ _ _ (by decide), getF_setF_ne _ _ _ _ (by decide),
      getF_setF_self _ _ _ (by decide)]
    exact Nat.mod_eq_of_lt hn
  · rw [Dev.get, hr, getF_setF_ne _ _ _ _ (by decide), getF_setF_ne _ _ _ _ (by decide), getF_setF_self _ _ _ (by decide)]
    rfl
  · rw [Dev.get, hr, getF_setF_ne _ _ _ _ (by decide), getF_setF_self _ _ _ (by decide)]
    exact Nat.mod_eq_of_lt hc
  · rw [Dev.flag, Dev.get, hr, getF_setF_ne _ _ _ _ (by decide), getF_setF_ne _ _ _ _ (by decide), getF_setF_ne _ _ _ _ (by decide),
      getF_setF_ne _ _ _ _ (by decide)]

theorem sysState_not_lock : R.SYS_STATE ∉ lockRegs := fun h => by
  have := lockRegs_place h
  simp only [R.SYS_STATE] at this
  omega

theorem Dev.afterState_state (d : Dev) (old new cause : Nat) : (d.afterState old new cause).reg R.SYS_STATE = d.reg R.SYS_STATE :=
  (d.afterState_frame old new cause).reg keysPart_part (by decide) sysState_not_lock

/-- A transition of higher rank, or the only one of its tick, comes about (R53). -/
theorem Dev.setState_taken (d : Dev) {new cause : Nat} (hn : new < 16) (hc : cause < 256) (valid : Bool)
    (h : d.trans.at1 ≠ d.now + 1 ∨ stateRank d.devState < stateRank new) :
    StateIs (d.setState new cause valid) new (if d.trans.at1 = d.now + 1 then d.trans.fromSt else d.devState) cause valid (d.reg R.SYS_STATE) := by
  rw [Dev.setState]
  split
  · next ht =>
    rw [if_pos (h.resolve_left (not_not.2 ht))]
    exact (d.writeState_is _ hn hc valid).of_reg (Dev.afterState_state _ _ _ _)
  · exact (Dev.writeState_is _ _ hn hc valid).of_reg (Dev.afterState_state _ _ _ _)

end
end Sys2Proof.Machine
end

section
/-! PROOFS. The enables while the device goes into SAFE_HOLD: none rises but by a grant (R333, R355, R374). -/

namespace Sys2Proof.Machine

/-- No enable has risen, and SAFE_HOLD goes on with no more than before. -/
structure EnaKept (d e : Dev) : Prop where
  genP : ∀ g < 20, d.genP g = false → e.genP g = false
  genM : ∀ g < 20, d.genM g = false → e.genM g = false
  keep : d.safe.keep = 0 → e.safe.keep = 0

section
variable {d e f : Dev} {m : Nat}

theorem EnaKept.refl (d : Dev) : EnaKept d d := ⟨fun _ _ h => h, fun _ _ h => h, fun h => h⟩

theorem EnaKept.trans (h : EnaKept d e) (k : EnaKept e f) : EnaKept d f :=
  ⟨fun g hg hl => k.genP g hg (h.genP g hg hl), fun g hg hl => k.genM g hg (h.genM g hg hl), fun h0 => k.keep (h.keep h0)⟩

theorem EnaKept.of_regs (h1 : ∀ g < 12, e.reg (R.GDT_PINS g) = d.reg (R.GDT_PINS g)) (h2 : e.reg R.GDA_STAT = d.reg R.GDA_STAT)
    (hk : e.safe.keep = d.safe.keep) : EnaKept d e := by
  have hP : ∀ g < 20, e.genP g = d.genP g := fun g hg => by
    by_cases h12 : g < 12
    · exact Dev.genP_congr (h1 g h12) h2
    · rw [e.genP_hi (Nat.not_lt.1 h12), d.genP_hi (Nat.not_lt.1 h12), h2]
  have hM : ∀ g < 20, e.genM g = d.genM g := fun g hg => by
    by_cases h12 : g < 12
    · exact Dev.genM_congr (h1 g h12) h2
    · rw [e.genM_hi (Nat.not_lt.1 h12), d.genM_hi (Nat.not_lt.1 h12), h2]
  exact ⟨fun g hg h => (hP g hg).trans h, fun g hg h => (hM g hg).trans h, fun h => hk.trans h⟩

theorem eventReg_pins {g : Nat} (hg : g < 12) : eventReg (R.GDT_PINS g) = false := by
  rw [eventReg_eq_false]
  simp only [R.GDT_PINS]
  omega

theorem EnaKept.of_frame {p : Dev → Dev → Dev} (hp : Part p) {l : List Nat} (h : FrameOn p l d e) (h1 : ∀ g < 12, R.GDT_PINS g ∉ l)
    (h2 : R.GDA_STAT ∉ l) (hk : e.safe.keep = d.safe.keep) : EnaKept d e :=
  .of_regs (fun g hg => h.reg hp (eventReg_pins hg) (h1 g hg)) (h.reg hp (by decide) h2) hk

theorem EnaKept.of_host {l : List Nat} (h : FrameOn hostPart l d e) (hl : offGates l) : EnaKept d e := by
  refine .of_frame hostPart_part h (fun g hg hx => ?_) (fun hx => ?_) (congrArg (fun u : Dev => u.safe.keep) h.1 :)
  · have := hl _ hx
    simp only [R.GDT_PINS] at this
    omega
  · have := hl _ hx
    simp only [R.GDA_STAT] at this
    omega

theorem EnaKept.of_quiet (h : Quiet d e) : EnaKept d e :=
  .of_regs (fun _ hg => h.reg (eventReg_pins hg)) (h.reg (by decide)) (congrArg (fun u : Dev => u.safe.keep) h.1 :)

theorem EnaKept.setReg (d : Dev) {a : Nat} (w : Word) (h : a < 0x40098000 ∨ 0x4009A000 ≤ a) : EnaKept d (d.setReg a w) :=
  .of_regs (fun g hg => d.reg_setReg_ne w (by simp only [R.GDT_PINS]; omega)) (d.reg_setReg_ne w (by simp only [R.GDA_STAT]; omega)) rfl

theorem EnaKept.setMach (d : Dev) (m : Nat) (v : MachSt) : EnaKept d (d.setMach m v) := .of_regs (fun _ _ => rfl) rfl rfl

theorem Dev.setGenM_low (d : Dev) {g h : Nat} (hg : g < 20) (hh : d.genM h = false) : (d.setGenM g false).genM h = false := by
  by_cases hne : h = g
  · subst hne
    by_cases hp : groupPresent d.member h = true
    · exact d.genM_setGenM hg hp false
    · rw [d.setGenM_same (by simp [hp]), hh]
  · rw [d.genM_setGenM_ne hg hne, hh]

theorem Dev.setGenP_keep (d : Dev) (g : Nat) (b : Bool) : (d.setGenP g b).safe.keep = d.safe.keep :=
  (congrArg (fun u : Dev => u.safe.keep) ((FrameOn.refl hostPart_part (enableRegs g) d).setGenP (fun _ ha => ha) b).1 :)

theorem Dev.setGenM_keep (d : Dev) (g : Nat) (b : Bool) : (d.setGenM g b).safe.keep = d.safe.keep :=
  (congrArg (fun u : Dev => u.safe.keep) ((FrameOn.refl hostPart_part (enableRegs g) d).setGenM (fun _ ha => ha) b).1 :)

theorem EnaKept.setGenP (d : Dev) {g : Nat} (hg : g < 20) : EnaKept d (d.setGenP g false) :=
  ⟨fun _ _ h => d.setGenP_low hg h, fun h _ hl => (d.genM_setGenP hg h false).trans hl, fun h => (d.setGenP_keep g false).trans h⟩

theorem EnaKept.setGenM (d : Dev) {g : Nat} (hg : g < 20) : EnaKept d (d.setGenM g false) :=
  ⟨fun _ hh hl => (d.genP_setGenM hg hh false).trans hl, fun _ _ h => d.setGenM_low hg h, fun h => (d.setGenM_keep g false).trans h⟩

theorem EnaKept.dropAllP (d : Dev) : EnaKept d d.dropAllP := forN_keeps (P := EnaKept d) 20 (fun _ hg u hu => hu.trans (.setGenP u hg)) (.refl d)
theorem EnaKept.dropAllM (d : Dev) : EnaKept d d.dropAllM := forN_keeps (P := EnaKept d) 20 (fun _ hg u hu => hu.trans (.setGenM u hg)) (.refl d)

/-! ### A machine's way into STO -/

section
variable (hm : m < 20)
include hm

theorem EnaKept.mDrop (d : Dev) : EnaKept d (d.mDrop m) :=
  foldl_keeps (P := EnaKept d) (fun g hg u hu => hu.trans (.setGenP u (mGroups_lt hm g hg))) (.refl d)

theorem EnaKept.keepEnds (d : Dev) : EnaKept d (d.keepEnds m) := by
  rw [Dev.keepEnds]
  split
  · have h0 : EnaKept d { d with safe := { d.safe with keep := d.safe.keep - 2 ^ m } } :=
      ⟨fun _ _ h => h, fun _ _ h => h, fun h => (congrArg (· - 2 ^ m) h).trans (Nat.zero_sub _)⟩
    have h1 := h0.trans (.setReg (a := R.SAFE_GRANT) _ (setBit (d.reg R.SAFE_GRANT) m false) (by decide))
    refine foldl_keeps (P := EnaKept d) (fun g hg u hu => hu.trans (.setGenM u ?_)) h1
    rw [List.mem_cons, Option.mem_toList] at hg
    obtain rfl | hs := hg
    · exact hm
    · have := secOf_lt hs
      omega
  · exact .refl d

theorem EnaKept.machGo (d : Dev) (new cause : Nat) : EnaKept d (d.machGo m new cause) := by
  rw [Dev.machGo_eq]
  have h1 := (EnaKept.setMach d m (d.goneTo m new cause)).trans (.of_quiet (Dev.emitProt_quiet _ (d.goRec m new cause)))
  exact ((h1.trans (.keepEnds hm _)).trans (.setReg _ _ (by decide))).trans (.of_quiet (Dev.raiseN_quiet _ _ _ _))

variable (hlive : d.replaying = false)
include hlive

theorem EnaKept.mCtxOff : EnaKept d (d.mCtxOff m) := by
  have h1 := (MachRun.refl m d).mCtx hm hlive (mUses_main (d := d)) false
  exact (EnaKept.of_host (d.mCtx_on hlive (d.mMain m) false) (offGates_ctx (mMain_lt d m))).trans
    (.of_host (Dev.mCtx_on _ ((h1.live hm).trans hlive) _ false) (offGates_ctx (mCatch_lt d m)))

theorem EnaKept.mOff : EnaKept d (((d.mDrop m).mForce m 1 true).mCtxOff m) := by
  have h1 := (MachRun.refl m d).mDrop hm
  have h2 := h1.mForce hm hlive 1 true
  have l1 := (h1.live hm).trans hlive
  exact ((EnaKept.mDrop hm d).trans (.of_host (Dev.mForce_on _ l1 hm 1 true) (offGates_force hm))).trans (.mCtxOff hm ((h2.live hm).trans hlive))

theorem EnaKept.toSto (cause : Nat) : EnaKept d (d.toSto m cause) :=
  ((EnaKept.mOff hm hlive).trans (.machGo hm _ MS.STO cause)).trans (.setReg _ _ (by decide))

theorem EnaKept.toFault (cause : Nat) : EnaKept d (d.toFault m cause) :=
  ((EnaKept.mOff hm hlive).trans (.machGo hm _ MS.FAULT cause)).trans (.setReg _ _ (by decide))

theorem EnaKept.armAbort : EnaKept d (d.armAbort m) := (EnaKept.mOff hm hlive).trans (.setMach _ _ _)

/-- What SAFE_HOLD makes of a machine (R333). -/
theorem Dev.machDevState_hold : MachRun m d (d.machDevState m DS.SAFE_HOLD) ∧ EnaKept d (d.machDevState m DS.SAFE_HOLD) := by
  rw [Dev.machDevState]
  split
  · exact ⟨.refl m d, .refl d⟩
  · rw [if_neg (by decide), if_neg (by decide), if_pos rfl]
    split
    · exact ⟨.refl m d, .refl d⟩
    · split
      · exact ⟨(MachRun.refl m d).armAbort hm hlive, .armAbort hm hlive⟩
      · exact ⟨(MachRun.refl m d).toSto hm hlive 8, .toSto hm hlive 8⟩

end

/-- FATAL leaves the machines (R333). -/
theorem Dev.machDevState_fatal (d : Dev) (m : Nat) : d.machDevState m DS.FATAL = d := by
  rw [Dev.machDevState]
  split
  · rfl
  · rw [if_neg (by decide), if_neg (by decide), if_neg (by decide)]

/-- The machines in SAFE_HOLD. -/
def Dev.machsHold (d : Dev) : Dev := d.byS0 fun d => forN 20 (fun m e => e.machDevState m DS.SAFE_HOLD) d

theorem Dev.machsHold_run (hlive : d.replaying = false) : TransRun d d.machsHold ∧ EnaKept d d.machsHold ∧ d.machsHold.devState = d.devState := by
  rw [Dev.machsHold, Dev.byS0]
  split
  · exact ⟨FrameOn.refl transPart_part _ d, .refl d, rfl⟩
  · refine forN_keeps (P := fun e => TransRun d e ∧ EnaKept d e ∧ e.devState = d.devState) 20 (fun m hm e he => ?_)
      ⟨FrameOn.refl transPart_part _ d, .refl d, rfl⟩
    obtain ⟨hr, hk⟩ := e.machDevState_hold hm (he.1.live.trans hlive)
    exact ⟨FrameOn.trans transPart_part he.1 (TransRun.mach hm hr), he.2.1.trans hk, (hr.devState hm).trans he.2.2⟩

end
end Sys2Proof.Machine
end

section
/-! PROOFS. SAFE_HOLD entered, and the grant that it leaves (R355, R374, R375). -/

namespace Sys2Proof.Machine

section
variable {d e f : Dev}

/-! ### The grant (R355) -/

theorem entriesThat_none {p : Nat → Bool} (h : ∀ m < 20, p m = false) : entriesThat p = [] :=
  List.filter_eq_nil_iff.2 fun m hm => by rw [h m (List.mem_range.1 hm)]; decide

theorem Dev.dropAllP_low (d : Dev) : ∀ g < 20, groupPresent d.member g = true → d.dropAllP.genP g = false :=
  (forN_each 20 (I := fun e => e.member = d.member) (Q := fun g e => groupPresent d.member g = true → e.genP g = false)
    (f := fun g e => e.setGenP g false) (fun g _ e he => (e.setGenP_member g false).trans he)
    (fun _ hg e he hp => e.genP_setGenP hg (he ▸ hp) false) (fun _ hg _ _ e _ hj hp => e.setGenP_low hg (hj hp)) (s := d) rfl).2

theorem Dev.dropAllM_low (d : Dev) : ∀ g < 20, groupPresent d.member g = true → d.dropAllM.genM g = false :=
  (forN_each 20 (I := fun e => e.member = d.member) (Q := fun g e => groupPresent d.member g = true → e.genM g = false)
    (f := fun g e => e.setGenM g false) (fun g _ e he => (e.setGenM_member g false).trans he)
    (fun _ hg e he hp => e.genM_setGenM hg (he ▸ hp) false) (fun _ hg _ _ e _ hj hp => e.setGenM_low hg (hj hp)) (s := d) rfl).2

/-- Where nothing is granted, the grant drops every enable of Channel M. -/
theorem Dev.grantAll_none (h : ∀ m < 20, d.grantOk m = false) : d.grantAll = (d.put R.SAFE_GRANT F.SAFE_GRANT_GENM 0).dropAllM := by
  rw [Dev.grantAll, entriesThat_none h]
  rfl

theorem Dev.reg_setGenM (d : Dev) {g a : Nat} (b : Bool) (h1 : a ≠ R.GDT_PINS g) (h2 : a ≠ R.GDA_STAT) : (d.setGenM g b).reg a = d.reg a := by
  by_cases hs : (!groupPresent d.member g || d.genM g == b) = true
  · rw [d.setGenM_same hs]
  · have hn := Bool.eq_false_iff.2 hs
    by_cases h12 : g < 12
    · exact d.pins_setGenM h12 b hn a h1
    · rw [d.reg_setGenM_hi (Nat.not_lt.1 h12) b hn, Dev.reg_setReg_ne _ _ h2]

theorem Dev.reg_setGenP (d : Dev) {g a : Nat} (b : Bool) (h1 : a ≠ R.GDT_PINS g) (h2 : a ≠ R.GDA_STAT) : (d.setGenP g b).reg a = d.reg a := by
  by_cases hs : (!groupPresent d.member g || d.genP g == b) = true
  · rw [d.setGenP_same hs]
  · have hn := Bool.eq_false_iff.2 hs
    by_cases h12 : g < 12
    · exact d.pins_setGenP h12 b hn a h1
    · rw [d.reg_setGenP_hi (Nat.not_lt.1 h12) b hn, Dev.reg_setReg_ne _ _ h2]

theorem Dev.reg_dropAllM (d : Dev) {a : Nat} (h : a < 0x40098000 ∨ 0x4009A000 ≤ a) : d.dropAllM.reg a = d.reg a :=
  forN_keeps (P := fun e : Dev => e.reg a = d.reg a) 20 (fun g _ e he => (e.reg_setGenM false (by simp only [R.GDT_PINS]; omega)
    (by simp only [R.GDA_STAT]; omega)).trans he) rfl

theorem Dev.reg_dropAllP (d : Dev) {a : Nat} (h : a < 0x40098000 ∨ 0x4009A000 ≤ a) : d.dropAllP.reg a = d.reg a :=
  forN_keeps (P := fun e : Dev => e.reg a = d.reg a) 20 (fun g _ e he => (e.reg_setGenP false (by simp only [R.GDT_PINS]; omega)
    (by simp only [R.GDA_STAT]; omega)).trans he) rfl

theorem Dev.grantAll_low (h : ∀ m < 20, d.grantOk m = false) : ChanLow d d.grantAll .m ∧ d.grantAll.get R.SAFE_GRANT F.SAFE_GRANT_GENM = 0 := by
  rw [Dev.grantAll_none h]
  refine ⟨(d.put R.SAFE_GRANT F.SAFE_GRANT_GENM 0).dropAllM_low, ?_⟩
  exact (Dev.get_of_reg (Dev.reg_dropAllM (a := R.SAFE_GRANT) _ (by decide)) _).trans (Dev.get_put_self d R.SAFE_GRANT F.SAFE_GRANT_GENM 0 (by decide))

theorem Dev.grantAll_genP (d : Dev) {g : Nat} (hg : g < 20) : d.grantAll.genP g = d.genP g := d.grantAll_kept.gates.genP g hg

theorem Dev.setGenM_safe (d : Dev) (g : Nat) (b : Bool) : (d.setGenM g b).safe = d.safe :=
  (congrArg Dev.safe ((FrameOn.refl hostPart_part (enableRegs g) d).setGenM (fun _ ha => ha) b).1 :)

theorem Dev.setGenP_safe (d : Dev) (g : Nat) (b : Bool) : (d.setGenP g b).safe = d.safe :=
  (congrArg Dev.safe ((FrameOn.refl hostPart_part (enableRegs g) d).setGenP (fun _ ha => ha) b).1 :)

theorem Dev.grantAll_safe (d : Dev) : d.grantAll.safe = d.safe :=
  forN_keeps (P := fun e : Dev => e.safe = d.safe) 20 (fun g _ e he => (e.setGenM_safe g _).trans he) (d.put_safe _ _ _)

theorem Dev.dropAllP_safe (d : Dev) : d.dropAllP.safe = d.safe :=
  forN_keeps (P := fun e : Dev => e.safe = d.safe) 20 (fun g _ e he => (e.setGenP_safe g _).trans he) rfl

theorem Dev.dropAllM_safe (d : Dev) : d.dropAllM.safe = d.safe :=
  forN_keeps (P := fun e : Dev => e.safe = d.safe) 20 (fun g _ e he => (e.setGenM_safe g _).trans he) rfl

theorem Dev.reg_grantAll (d : Dev) {a : Nat} (h : a < 0x40098000 ∨ 0x4009A000 ≤ a) (hg : a ≠ R.SAFE_GRANT) : d.grantAll.reg a = d.reg a :=
  forN_keeps (P := fun e : Dev => e.reg a = d.reg a) 20 (fun g _ e he => (e.reg_setGenM _ (by simp only [R.GDT_PINS]; omega)
    (by simp only [R.GDA_STAT]; omega)).trans he) (d.reg_put_ne _ _ hg)

theorem Dev.grantAll_state (d : Dev) : d.grantAll.devState = d.devState := Dev.get_of_reg (d.reg_grantAll (a := R.SYS_STATE) (by decide) (by decide)) _

theorem Dev.grantOk_dead (h : d.safe.deadM = true) (m : Nat) : d.grantOk m = false := by
  rw [Dev.grantOk, h]
  simp only [Bool.not_true, Bool.and_false, Bool.false_and]

theorem Dev.grantOk_fatal (h : d.devState = DS.FATAL) (m : Nat) : d.grantOk m = false := by
  rw [Dev.grantOk, h]
  simp [DS.SAFE_HOLD, DS.RUN, DS.OVERCAST, DS.FATAL]

/-- In SAFE_HOLD only what continues is granted (R374). -/
theorem Dev.grantOk_hold (h : d.devState = DS.SAFE_HOLD) (hk : d.safe.keep = 0) (m : Nat) : d.grantOk m = false := by
  rw [Dev.grantOk, h, hk, Nat.zero_div]
  simp [DS.SAFE_HOLD, DS.RUN, DS.OVERCAST]

end
end Sys2Proof.Machine
end

section
/-! PROOFS. The entry into SAFE_HOLD: what it shows, what it leaves, and which enables stay low (R374, R375). -/

namespace Sys2Proof.Machine

section
variable {d e f : Dev}

/-! ### A state entered -/

/-- A transition into the state that holds leaves the state. -/
theorem Dev.setState_same (d : Dev) {new cause : Nat} (hn : new < 16) (hc : cause < 256) (valid : Bool) (h : d.devState = new) :
    (d.setState new cause valid).devState = new := by
  by_cases ht : d.trans.at1 = d.now + 1
  · rw [Dev.setState, if_pos ht, if_neg (by rw [h]; exact lt_irrefl _), if_pos h.symm]
    split
    · exact (Dev.get_put_field d _ _ _ _ _ (by decide)).trans h
    · exact h
  · exact (d.setState_taken hn hc valid (.inl ht)).state

theorem FrameOn.stateKeep {l : List Nat} (h : FrameOn statePart l d e) : e.safe = d.safe := (congrArg Dev.safe h.1 :)

theorem gates_not_state : (∀ g < 12, R.GDT_PINS g ∉ stateRegs) ∧ R.GDA_STAT ∉ stateRegs := by
  refine ⟨fun g hg h => ?_, fun h => ?_⟩
  · obtain h | h := List.mem_cons.1 h
    · simp only [R.GDT_PINS, R.SYS_STATE] at h
      omega
    · have := lockRegs_place h
      simp only [R.GDT_PINS] at this
      omega
  · obtain h | h := List.mem_cons.1 h
    · simp only [R.GDA_STAT, R.SYS_STATE] at h
      omega
    · have := lockRegs_place h
      simp only [R.GDA_STAT] at this
      omega

theorem EnaKept.setState (d : Dev) (new cause : Nat) (valid : Bool) : EnaKept d (d.setState new cause valid) :=
  have h := d.setState_frame new cause valid
  .of_frame statePart_part h gates_not_state.1 gates_not_state.2 (congrArg SafeSt.keep h.stateKeep)

/-! ### SAFE_HOLD -/

/-- A transition's parts, and what SAFE_HOLD keeps. -/
def holdPart (d e : Dev) : Dev :=
  { d with grp := e.grp, ctx := e.ctx, free := e.free, sys := { d.sys with abs := e.sys.abs }, mach := e.mach, safe := e.safe, keys := e.keys, trans := e.trans }

theorem holdPart_part : Part holdPart := ⟨fun _ => rfl, fun _ _ _ => rfl, fun _ _ => rfl, fun _ _ _ => rfl⟩

def holdRegs : List Nat := R.SAFE_HOLD_INFO :: transRegs

abbrev HoldRun (d e : Dev) : Prop := FrameOn holdPart holdRegs d e

theorem HoldRun.of_trans (h : TransRun d e) : HoldRun d e :=
  h.widen transPart_part holdPart_part (fun _ _ => rfl) fun _ => List.mem_cons_of_mem _

theorem HoldRun.safe (d : Dev) (v : SafeSt) : HoldRun d { d with safe := v } :=
  (FrameOn.refl holdPart_part _ d).part holdPart_part rfl fun _ => rfl

theorem HoldRun.read (h : HoldRun d e) {a : Nat} (ha : eventReg a = false) (ho : offTrans a) (hi : a ≠ R.SAFE_HOLD_INFO) : e.reg a = d.reg a :=
  h.reg holdPart_part ha fun hm => (List.mem_cons.1 hm).elim hi ho.not_mem

theorem HoldRun.told (h : HoldRun d e) {page src : Nat} (hr : Raised d page src) : Raised e page src := by
  refine h.raised holdPart_part (fun hm => ?_) hr
  obtain hm | hm := List.mem_cons.1 hm
  · simp only [R.PG_EVT_RAW, pageBase, R.SAFE_HOLD_INFO] at hm
    omega
  · exact pgEvtRaw_not_trans _ hm

theorem HoldRun.vddioLow (h : HoldRun d e) : e.sys.vddioLow = d.sys.vddioLow := (congrArg (fun u : Dev => u.sys.vddioLow) h.1 :)

/-- A discharge begun keeps everything but Channel M's discharges. -/
theorem Dev.holdAll_eq (d : Dev) : ∃ v : SafeSt, d.holdAll = { d with safe := v } ∧ v.keep = 0 ∧ v.deadM = d.safe.deadM := by
  rw [Dev.holdAll]
  refine foldl_keeps (P := fun e : Dev => ∃ v : SafeSt, e = { d with safe := v } ∧ v.keep = 0 ∧ v.deadM = d.safe.deadM) (fun x _ e he => ?_)
    ⟨_, rfl, rfl, rfl⟩
  obtain ⟨v, rfl, h1, h2⟩ := he
  rw [Dev.startDis]
  split
  · exact ⟨v, rfl, h1, h2⟩
  · exact ⟨_, rfl, h1, h2⟩

/-- The causes that may leave machines going (R374). -/
def goesOn (cause : Nat) : Prop := cause = 4 ∨ cause = 6 ∨ cause = 7

/-- What is kept of the machines that continue (R374). -/
def Dev.holdKept (d : Dev) (cause : Nat) : Dev :=
  let l := d.continuing cause
  let d := { d with safe := { d.safe with uncAt := d.gtc + msTicks 1 } }
  if l.isEmpty then d.holdAll else { d with safe := { d.safe with keep := (l.map fun m => 2 ^ m).sum, held := false } }

/-- SAFE_HOLD_INFO at an entry. -/
def Dev.holdShown (d : Dev) (cause : Nat) : Dev :=
  (d.putB R.SAFE_HOLD_INFO F.SAFE_HOLD_INFO_HOLD true).put R.SAFE_HOLD_INFO F.SAFE_HOLD_INFO_CAUSE cause

/-- A second cause in the cycle of the entry, without continuation (R375). -/
def Dev.holdEnds (d : Dev) : Dev := d.holdAll.machsHold.grantAll

def Dev.holdMin (d : Dev) (cause src : Nat) : Dev :=
  (d.setState DS.SAFE_HOLD src true).put R.SAFE_HOLD_INFO F.SAFE_HOLD_INFO_CAUSE
    (min cause (d.get R.SAFE_HOLD_INFO F.SAFE_HOLD_INFO_CAUSE))

theorem Dev.holdKept_eq (d : Dev) (cause : Nat) : ∃ v : SafeSt, d.holdKept cause = { d with safe := v } ∧ v.deadM = d.safe.deadM ∧
    (¬goesOn cause → v.keep = 0) := by
  have hc : ¬goesOn cause → d.continuing cause = [] := fun h => if_neg fun hx => h hx.1
  rw [Dev.holdKept]
  split
  · obtain ⟨v, hv, hk, hd⟩ := Dev.holdAll_eq { d with safe := { d.safe with uncAt := d.gtc + msTicks 1 } }
    exact ⟨v, hv, hd, fun _ => hk⟩
  · next hn => exact ⟨_, rfl, rfl, fun h => absurd (by rw [hc h]; rfl) hn⟩

theorem Dev.goState_hold (d : Dev) (cause : Nat) (valid : Bool) : d.goState DS.SAFE_HOLD cause valid = d.setState DS.SAFE_HOLD cause valid ∨
    d.goState DS.SAFE_HOLD cause valid = (d.setState DS.SAFE_HOLD cause valid).machsHold := by
  rw [Dev.goState]
  split
  · exact .inr rfl
  · exact .inl rfl

/-- SAFE_HOLD with what it brings the machines. -/
theorem Dev.goState_hold_run (hlive : d.replaying = false) (cause : Nat) (valid : Bool) : TransRun d (d.goState DS.SAFE_HOLD cause valid) ∧
    EnaKept d (d.goState DS.SAFE_HOLD cause valid) := by
  have hr := d.setState_run DS.SAFE_HOLD cause valid
  have hk := EnaKept.setState d DS.SAFE_HOLD cause valid
  obtain h | h := d.goState_hold cause valid
  · rw [h]
    exact ⟨hr, hk⟩
  · rw [h]
    obtain ⟨hr', hk', -⟩ := (d.setState DS.SAFE_HOLD cause valid).machsHold_run (hr.live.trans hlive)
    exact ⟨FrameOn.trans transPart_part hr hr', hk.trans hk'⟩

theorem Dev.enterHold_eq (h : d.holds1) (cause src : Nat) : d.enterHold cause src =
    (((d.holdKept cause).holdShown cause).goSafe DS.SAFE_HOLD src true).raise Pg.SAFE Ev.SAFE_HOLD := by
  obtain ⟨h1, h2, h3, h4⟩ := h
  rw [Dev.enterHold, if_neg h4, if_neg (by simp only [h1, h2, h3, or_self, not_false_eq_true])]
  rfl

theorem Dev.enterHold_inHold (h : d.devState = DS.SAFE_HOLD) (cause src : Nat) : d.enterHold cause src = if d.trans.at1 = d.gtc + 1 then
    (if cause = 4 ∨ cause = 6 ∨ cause = 7 then d.holdMin cause src else (d.holdMin cause src).holdEnds) else d := by
  rw [Dev.enterHold, if_pos h]
  rfl

theorem Dev.enterHold_again (h : d.devState = DS.SAFE_HOLD) (cause src : Nat) : d.enterHold cause src = d ∨
    d.enterHold cause src = d.holdMin cause src ∧ goesOn cause ∨ d.enterHold cause src = (d.holdMin cause src).holdEnds := by
  rw [d.enterHold_inHold h]
  by_cases ht : d.trans.at1 = d.gtc + 1
  · rw [if_pos ht]
    by_cases hc : cause = 4 ∨ cause = 6 ∨ cause = 7
    · exact .inr (.inl ⟨if_pos hc, hc⟩)
    · exact .inr (.inr (if_neg hc))
  · exact .inl (if_neg ht)

theorem Dev.enterHold_else (h : d.devState = DS.RESET ∨ d.devState = DS.BOOT ∨ d.devState = DS.FATAL) (cause src : Nat) : d.enterHold cause src = d := by
  rw [Dev.enterHold, if_neg (by obtain h | h | h := h <;> rw [h] <;> decide), if_pos h]

theorem holdInfo_mem : R.SAFE_HOLD_INFO ∈ holdRegs := List.mem_cons_self

theorem HoldRun.trans (h : HoldRun d e) (k : HoldRun e f) : HoldRun d f := FrameOn.trans holdPart_part h k

theorem Dev.holdMin_run (d : Dev) (cause src : Nat) : HoldRun d (d.holdMin cause src) ∧ EnaKept d (d.holdMin cause src) := by
  have h := HoldRun.of_trans (d.setState_run DS.SAFE_HOLD src true)
  have hk := EnaKept.setState d DS.SAFE_HOLD src true
  rw [Dev.holdMin]
  generalize d.setState DS.SAFE_HOLD src true = u at h hk ⊢
  exact ⟨FrameOn.put (a := R.SAFE_HOLD_INFO) holdPart_part h _ _ holdInfo_mem, hk.trans (.setReg (a := R.SAFE_HOLD_INFO) u _ (by decide))⟩

theorem Dev.holdMin_state (h : d.devState = DS.SAFE_HOLD) (cause : Nat) {src : Nat} (hs : src < 256) : (d.holdMin cause src).devState = DS.SAFE_HOLD := by
  have hd := d.setState_same (new := DS.SAFE_HOLD) (by decide) hs true h
  rw [Dev.holdMin]
  generalize d.setState DS.SAFE_HOLD src true = u at hd ⊢
  exact (Dev.get_of_reg (u.reg_put_ne (a := R.SAFE_HOLD_INFO) (b := R.SYS_STATE) _ _ (by decide)) _).trans hd

theorem HoldRun.live (h : HoldRun d e) : e.replaying = d.replaying :=
  Dev.flag_of_reg (h.read (a := R.RPL_STAT) (by decide) (by unfold offTrans; decide) (by decide)) _

theorem EnaKept.safe (d : Dev) (v : SafeSt) (hk : d.safe.keep = 0 → v.keep = 0) : EnaKept d { d with safe := v } :=
  ⟨fun _ _ h => h, fun _ _ h => h, hk⟩

/-- What goes on no more (R374): nothing is granted any longer. -/
theorem Dev.holdEnds_run (hlive : d.replaying = false) (h : d.devState = DS.SAFE_HOLD) : HoldRun d d.holdEnds ∧
    (∀ g < 20, d.genP g = false → d.holdEnds.genP g = false) ∧ ChanLow d d.holdEnds .m ∧ d.holdEnds.safe.keep = 0 := by
  obtain ⟨v, hv, hk, -⟩ := d.holdAll_eq
  have h1 : HoldRun d d.holdAll := hv ▸ HoldRun.safe d v
  have h2 : EnaKept d d.holdAll := hv ▸ EnaKept.safe d v fun _ => hk
  obtain ⟨hr, hl, hst⟩ := d.holdAll.machsHold_run ((h1.live).trans hlive)
  have hs : d.holdAll.machsHold.devState = DS.SAFE_HOLD := hst.trans (by rw [hv]; exact h)
  have hk0 : d.holdAll.machsHold.safe.keep = 0 := hl.keep (hv ▸ hk)
  have hm : d.holdAll.machsHold.member = d.member := hr.member.trans (by rw [hv])
  have hg : TransRun d.holdAll.machsHold d.holdEnds := TransRun.grantAll (FrameOn.refl transPart_part _ _)
  refine ⟨(h1.trans (.of_trans hr)).trans (.of_trans hg), fun g hg hl0 => ?_, ?_, ?_⟩
  · exact (Dev.grantAll_genP _ hg).trans ((h2.trans hl).genP g hg hl0)
  · have := (Dev.grantAll_low (d := d.holdAll.machsHold) fun m _ => Dev.grantOk_hold hs hk0 m).1
    exact fun g hg hp => this g hg (hm ▸ hp)
  · rw [Dev.holdEnds, Dev.grantAll_safe]
    exact hk0

/-! ### The entry as a whole -/

/-- The entry's own part: what it keeps and shows, before the state. -/
theorem Dev.holdReady (d : Dev) (cause : Nat) : ∃ v : SafeSt, (d.holdKept cause).holdShown cause = ({ d with safe := v } : Dev).holdShown cause ∧
    v.deadM = d.safe.deadM ∧ (¬goesOn cause → v.keep = 0) := by
  obtain ⟨v, hv, h⟩ := d.holdKept_eq cause
  exact ⟨v, by rw [hv], h⟩

theorem Dev.goState_hold_state (hlive : d.replaying = false) {src : Nat} (hs : src < 256) (h : stateRank d.devState < 2) :
    (d.goState DS.SAFE_HOLD src true).devState = DS.SAFE_HOLD := by
  have hd := (d.setState_taken (new := DS.SAFE_HOLD) (by decide) hs true (.inr h)).state
  obtain hg | hg := d.goState_hold src true
  · rw [hg]
    exact hd
  · rw [hg]
    exact (Dev.machsHold_run ((d.setState_run DS.SAFE_HOLD src true).live.trans hlive)).2.2.trans hd

theorem Dev.holds1_rank (h : d.holds1) : stateRank d.devState < 2 := by
  obtain ⟨-, -, h3, h4⟩ := h
  rw [stateRank, if_neg h3, if_neg h4]
  split <;> decide

/-- SAFE_HOLD_INFO as an entry shows it, and what that leaves. -/
theorem Dev.holdShown_spec (d : Dev) {cause : Nat} (hc : cause < 256) : HoldRun d (d.holdShown cause) ∧ EnaKept d (d.holdShown cause) ∧
    (d.holdShown cause).safe = d.safe ∧ (d.holdShown cause).devState = d.devState ∧
    (d.holdShown cause).flag R.SAFE_HOLD_INFO F.SAFE_HOLD_INFO_HOLD = true ∧ (d.holdShown cause).get R.SAFE_HOLD_INFO F.SAFE_HOLD_INFO_CAUSE = cause := by
  have h0 := FrameOn.refl holdPart_part holdRegs d
  have h1 := FrameOn.putB holdPart_part h0 F.SAFE_HOLD_INFO_HOLD true holdInfo_mem
  have hf := Dev.flag_putB_self d R.SAFE_HOLD_INFO F.SAFE_HOLD_INFO_HOLD true (by decide) (by decide)
  have hk : EnaKept d (d.putB R.SAFE_HOLD_INFO F.SAFE_HOLD_INFO_HOLD true) := .setReg (a := R.SAFE_HOLD_INFO) d _ (by decide)
  have hst : (d.putB R.SAFE_HOLD_INFO F.SAFE_HOLD_INFO_HOLD true).devState = d.devState :=
    Dev.get_of_reg (d.reg_put_ne (a := R.SAFE_HOLD_INFO) (b := R.SYS_STATE) _ _ (by decide)) _
  have hsafe : (d.putB R.SAFE_HOLD_INFO F.SAFE_HOLD_INFO_HOLD true).safe = d.safe := d.put_safe _ _ _
  rw [Dev.holdShown]
  generalize d.putB R.SAFE_HOLD_INFO F.SAFE_HOLD_INFO_HOLD true = u at h1 hf hk hst hsafe ⊢
  refine ⟨FrameOn.put holdPart_part h1 _ _ holdInfo_mem, hk.trans (.setReg (a := R.SAFE_HOLD_INFO) u _ (by decide)), (u.put_safe _ _ _).trans hsafe,
    (Dev.get_of_reg (u.reg_put_ne (a := R.SAFE_HOLD_INFO) (b := R.SYS_STATE) _ _ (by decide)) _).trans hst, ?_, ?_⟩
  · exact (Dev.flag_put_field u _ _ _ (by decide)).trans hf
  · exact (Dev.get_put_self u R.SAFE_HOLD_INFO F.SAFE_HOLD_INFO_CAUSE cause (by decide)).trans (Nat.mod_eq_of_lt hc)

/-- What an entry from another state leaves, and shows. -/
structure HoldIn (d e : Dev) (cause : Nat) : Prop where
  run : HoldRun d e
  genP : ∀ g < 20, d.genP g = false → e.genP g = false
  held : Held e cause
  genM : ¬goesOn cause ∨ d.safe.deadM = true → ChanLow d e .m
  keep : ¬goesOn cause → e.safe.keep = 0

theorem held_of_quiet {cause : Nat} (hq : Quiet e f) (hr : Raised f Pg.SAFE Ev.SAFE_HOLD) (hs : e.devState = DS.SAFE_HOLD)
    (h1 : e.flag R.SAFE_HOLD_INFO F.SAFE_HOLD_INFO_HOLD = true) (h2 : e.get R.SAFE_HOLD_INFO F.SAFE_HOLD_INFO_CAUSE = cause) : Held f cause :=
  ⟨(hq.get (by decide) _).trans hs, (hq.flag (by decide) _).trans h1, (hq.get (by decide) _).trans h2, hr⟩

theorem Dev.enterHold_in (hlive : d.replaying = false) (h : d.holds1) {cause src : Nat} (hc : cause < 256) (hs : src < 256) :
    HoldIn d (d.enterHold cause src) cause := by
  obtain ⟨v, hv, hdead, hkeep⟩ := d.holdReady cause
  have hr0 := HoldRun.safe d v
  rw [d.enterHold_eq h, hv]
  obtain ⟨hr1, hk1, hsafe1, hst1, hflag, hget⟩ := Dev.holdShown_spec { d with safe := v } hc
  have hrank : stateRank (({ d with safe := v } : Dev).holdShown cause).devState < 2 := hst1 ▸ d.holds1_rank h
  have hP1 : ∀ g < 20, d.genP g = false → (({ d with safe := v } : Dev).holdShown cause).genP g = false := hk1.genP
  have hr1 := hr0.trans hr1
  generalize (({ d with safe := v } : Dev).holdShown cause) = u at hr1 hsafe1 hrank hflag hget hP1 ⊢
  obtain ⟨hr2, hk2⟩ := Dev.goState_hold_run (d := u) (hr1.live.trans hlive) src true
  have hst2 := Dev.goState_hold_state (d := u) (hr1.live.trans hlive) hs hrank
  have hinfo : (u.goState DS.SAFE_HOLD src true).reg R.SAFE_HOLD_INFO = u.reg R.SAFE_HOLD_INFO := hr2.read (by decide) (by unfold offTrans; decide)
  have hsafe2 : (u.goState DS.SAFE_HOLD src true).safe.deadM = d.safe.deadM :=
    (congrArg (fun u : Dev => u.safe.deadM) hr2.1 :).trans ((congrArg SafeSt.deadM hsafe1).trans hdead)
  have hkeep2 : ¬goesOn cause → (u.goState DS.SAFE_HOLD src true).safe.keep = 0 := fun hn => hk2.keep ((congrArg SafeSt.keep hsafe1).trans (hkeep hn))
  have hmem : (u.goState DS.SAFE_HOLD src true).member = d.member := hr2.member.trans (congrArg Dev.member hr1.1 :)
  have hr2' := hr1.trans (.of_trans hr2)
  have hP2 := fun g hg hl => hk2.genP g hg (hP1 g hg hl)
  rw [Dev.goSafe]
  generalize u.goState DS.SAFE_HOLD src true = w at hr2' hst2 hinfo hsafe2 hkeep2 hmem hP2 ⊢
  have hg : TransRun w w.grantAll := TransRun.grantAll (FrameOn.refl transPart_part _ w)
  have hq := w.grantAll.raise_quiet Pg.SAFE Ev.SAFE_HOLD
  have hi : w.grantAll.reg R.SAFE_HOLD_INFO = u.reg R.SAFE_HOLD_INFO := (w.reg_grantAll (by decide) (by decide)).trans hinfo
  have hkq := EnaKept.of_quiet hq
  refine ⟨FrameOn.quiet holdPart_part (hr2'.trans (.of_trans hg)) hq, fun g hg hl => hkq.genP g hg ((w.grantAll_genP hg).trans (hP2 g hg hl)),
    held_of_quiet hq (w.grantAll.raise_raised rfl) (w.grantAll_state.trans hst2) ((Dev.flag_of_reg hi _).trans hflag) ((Dev.get_of_reg hi _).trans hget),
    fun hor g hg hp => hkq.genM g hg ?_, fun hn => ?_⟩
  · have hno : ∀ m, w.grantOk m = false := by
      obtain hn | hd := hor
      · exact Dev.grantOk_hold hst2 (hkeep2 hn)
      · exact Dev.grantOk_dead (hsafe2.trans hd)
    exact (Dev.grantAll_low fun m _ => hno m).1 g hg (hmem ▸ hp)
  · exact hkq.keep (by rw [w.grantAll_safe]; exact hkeep2 hn)

/-- What every entry leaves, from whatever state. -/
theorem Dev.enterHold_run (hlive : d.replaying = false) {cause src : Nat} (hc : cause < 256) (hs : src < 256) :
    HoldRun d (d.enterHold cause src) ∧ (∀ g < 20, d.genP g = false → (d.enterHold cause src).genP g = false) ∧
      (¬goesOn cause ∨ d.safe.deadM = true → ChanLow d d .m → ChanLow d (d.enterHold cause src) .m) ∧
      (¬goesOn cause → d.safe.keep = 0 → (d.enterHold cause src).safe.keep = 0) := by
  by_cases h9 : d.devState = DS.SAFE_HOLD
  · obtain h | ⟨h, hg⟩ | h := d.enterHold_again h9 cause src
    · rw [h]
      exact ⟨FrameOn.refl holdPart_part _ d, fun _ _ h => h, fun _ h => h, fun _ h => h⟩
    · rw [h]
      obtain ⟨hr, hk⟩ := d.holdMin_run cause src
      exact ⟨hr, hk.genP, fun _ hl g hg hp => hk.genM g hg (hl g hg hp), fun hn => absurd hg hn⟩
    · rw [h]
      obtain ⟨hr, hk⟩ := d.holdMin_run cause src
      obtain ⟨hr', hP, hM, hk0⟩ := Dev.holdEnds_run (hr.live.trans hlive) (d.holdMin_state h9 cause hs)
      have hm : (d.holdMin cause src).member = d.member := (congrArg Dev.member hr.1 :)
      exact ⟨hr.trans hr', fun g hg hl => hP g hg (hk.genP g hg hl), fun _ _ g hg hp => hM g hg (hm ▸ hp), fun _ _ => hk0⟩
  · by_cases h0 : d.devState = DS.RESET ∨ d.devState = DS.BOOT ∨ d.devState = DS.FATAL
    · rw [d.enterHold_else h0]
      exact ⟨FrameOn.refl holdPart_part _ d, fun _ _ h => h, fun _ h => h, fun _ h => h⟩
    · obtain ⟨h1, h0⟩ := not_or.1 h0
      obtain ⟨h2, h3⟩ := not_or.1 h0
      have h := Dev.enterHold_in hlive ⟨h1, h2, h3, h9⟩ hc hs
      exact ⟨h.run, h.genP, fun hor _ => h.genM hor, fun hn _ => h.keep hn⟩

end
end Sys2Proof.Machine
end

section
/-! PROOFS. The causes of SAFE_HOLD, an enable read back wrong, late rails, and their obligation (R39, R43, R373, R374, R485, R496 to R501). -/

namespace Sys2Proof.Machine

section
variable {d e f : Dev}

/-! ### Both channels' enables dropped -/

theorem Dev.dropAll_spec (d : Dev) : TransRun d d.dropAllP.dropAllM ∧ EnaKept d d.dropAllP.dropAllM ∧ ChanLow d d.dropAllP.dropAllM .p ∧
    ChanLow d d.dropAllP.dropAllM .m ∧ d.dropAllP.dropAllM.devState = d.devState ∧ d.dropAllP.dropAllM.safe = d.safe := by
  have hr : TransRun d d.dropAllP := TransRun.dropAllP (FrameOn.refl transPart_part _ d)
  have hk := EnaKept.dropAllM d.dropAllP
  refine ⟨TransRun.dropAllM hr, (EnaKept.dropAllP d).trans hk, fun g hg hp => hk.genP g hg (d.dropAllP_low g hg hp),
    fun g hg hp => d.dropAllP.dropAllM_low g hg (by rw [TransRun.member hr]; exact hp), ?_, ?_⟩
  · have h1 := Dev.reg_dropAllM (a := R.SYS_STATE) d.dropAllP (by decide)
    have h2 := Dev.reg_dropAllP (a := R.SYS_STATE) d (by decide)
    exact Dev.get_of_reg (h1.trans h2) _
  · rw [Dev.dropAllM_safe, Dev.dropAllP_safe]

theorem holds1_congr (h : e.devState = d.devState) : e.holds1 ↔ d.holds1 := by rw [Dev.holds1, h, Dev.holds1]

/-! ### Clocks against each other (R39) -/

/-- The deviation beyond 2 % shown. -/
def Dev.xchkShown (d : Dev) : Dev := (d.putB R.CLK_STAT F.CLK_STAT_XCHK true).raise Pg.CLK Ev.CLK_XCHK

/-- What continues in SAFE_HOLD ends. -/
def Dev.xchkEnds (d : Dev) : Dev := if d.devState = DS.SAFE_HOLD ∧ d.safe.keep ≠ 0 then d.holdAll.grantAll else d

theorem Dev.clkXchk_beyond {x : Int} (h : 200 < x.natAbs) : d.clkXchk x =
    (((d.putI R.CLK_STAT F.CLK_STAT_DEV (clampI (-32768) 32767 x)).xchkShown).xchkEnds.dropAllP.dropAllM).enterHold 1 Ev.CLK_XCHK := if_pos h

theorem Dev.clkXchk_within {x : Int} (h : x.natAbs ≤ 200) : d.clkXchk x = d.putI R.CLK_STAT F.CLK_STAT_DEV (clampI (-32768) 32767 x) :=
  if_neg (Nat.not_lt.2 h)

theorem Dev.xchkEnds_spec (d : Dev) : HoldRun d d.xchkEnds ∧ d.xchkEnds.devState = d.devState ∧ (d.devState = DS.SAFE_HOLD → d.xchkEnds.safe.keep = 0) := by
  rw [Dev.xchkEnds]
  split
  · obtain ⟨v, hv, hk, -⟩ := d.holdAll_eq
    rw [hv]
    refine ⟨(HoldRun.safe d v).trans (.of_trans (TransRun.grantAll (FrameOn.refl transPart_part _ _))), Dev.grantAll_state _, fun _ => ?_⟩
    rw [Dev.grantAll_safe]
    exact hk
  · next hn => exact ⟨FrameOn.refl holdPart_part _ d, rfl, fun h => by_contra fun hk => hn ⟨h, hk⟩⟩

/-- The reaction to clocks that deviate. -/
theorem Dev.xchkReacts (hlive : d.replaying = false) {e : Dev} (he : (d.xchkEnds.dropAllP.dropAllM).enterHold 1 Ev.CLK_XCHK = e) :
    HoldRun d e ∧ ((d.holds1 ∨ d.devState = DS.BOOT ∨ d.devState = DS.SAFE_HOLD) → ChanLow d e .p ∧ ChanLow d e .m) ∧ (d.holds1 → Held e 1) ∧
      (d.devState = DS.SAFE_HOLD → e.safe.keep = 0) := by
  obtain ⟨hr1, hs1, hk1⟩ := d.xchkEnds_spec
  obtain ⟨hr2, -, hp2, hm2, hs2, hsafe2⟩ := d.xchkEnds.dropAll_spec
  have hrun := hr1.trans (.of_trans hr2)
  have hmem : d.xchkEnds.member = d.member := (congrArg Dev.member hr1.1 :)
  generalize d.xchkEnds.dropAllP.dropAllM = u at hr2 hp2 hm2 hs2 hsafe2 hrun he
  have hlu := hrun.live.trans hlive
  obtain ⟨hr3, hP, hM, hk3⟩ := Dev.enterHold_run hlu (cause := 1) (src := Ev.CLK_XCHK) (by decide) (by decide)
  have hn : ¬goesOn 1 := by unfold goesOn; decide
  rw [he] at hr3 hP hM hk3
  have hum : u.member = d.member := hr2.member.trans hmem
  refine ⟨hrun.trans hr3, fun _ => ⟨fun g hg hp => hP g hg (hp2 g hg (hmem ▸ hp)), fun g hg hp => ?_⟩, fun h => ?_, fun h => ?_⟩
  · exact hM (.inl hn) (fun g hg hp => hm2 g hg (hmem ▸ hum ▸ hp)) g hg (hum ▸ hp)
  · have hh : u.holds1 := (holds1_congr (hs2.trans hs1)).2 h
    exact he ▸ (Dev.enterHold_in hlu hh (by decide) (by decide)).held
  · exact hk3 hn (by rw [hsafe2]; exact hk1 h)

theorem Dev.xchkShown_spec (d : Dev) : FrameOn noPart [R.CLK_STAT] d d.xchkShown ∧ Raised d.xchkShown Pg.CLK Ev.CLK_XCHK ∧
    d.xchkShown.flag R.CLK_STAT F.CLK_STAT_XCHK = true ∧ d.xchkShown.getI R.CLK_STAT F.CLK_STAT_DEV = d.getI R.CLK_STAT F.CLK_STAT_DEV := by
  have h1 : FrameOn noPart [R.CLK_STAT] d (d.putB R.CLK_STAT F.CLK_STAT_XCHK true) :=
    (FrameOn.refl noPart_part _ d).putB noPart_part _ _ (List.mem_singleton_self _)
  have hq := (d.putB R.CLK_STAT F.CLK_STAT_XCHK true).raise_quiet Pg.CLK Ev.CLK_XCHK
  refine ⟨h1.quiet noPart_part hq, Dev.raise_raised _ rfl, ?_, ?_⟩
  · exact (hq.flag (by decide) _).trans (Dev.flag_putB_self d R.CLK_STAT F.CLK_STAT_XCHK true (by decide) (by decide))
  · have h2 := Dev.get_put_field d R.CLK_STAT R.CLK_STAT F.CLK_STAT_XCHK F.CLK_STAT_DEV (b2n true) (by decide)
    exact congrArg (sext (fieldWidth F.CLK_STAT_DEV)) ((hq.get (a := R.CLK_STAT) (by decide) _).trans h2)

theorem clampI_range (x : Int) : -(2 ^ 15 : Nat) ≤ clampI (-32768) 32767 x ∧ clampI (-32768) 32767 x < (2 ^ 15 : Nat) := by
  rw [clampI]
  split
  · decide
  · split
    · decide
    · omega

/-- What a deviation of the clocks brings. -/
theorem Dev.clkXchk_spec (hlive : d.replaying = false) (x : Int) {e : Dev} (he : d.clkXchk x = e) :
    e.getI R.CLK_STAT F.CLK_STAT_DEV = clampI (-32768) 32767 x ∧ (x.natAbs ≤ 200 → Frame d e [R.CLK_STAT]) ∧
      (200 < x.natAbs → e.flag R.CLK_STAT F.CLK_STAT_XCHK = true ∧ Raised e Pg.CLK Ev.CLK_XCHK ∧
        ((d.holds1 ∨ d.devState = DS.BOOT) → ChanLow d e .p ∧ ChanLow d e .m) ∧ (d.holds1 → Held e 1) ∧
        (d.devState = DS.SAFE_HOLD → ChanLow d e .p ∧ ChanLow d e .m ∧ e.safe.keep = 0)) := by
  obtain ⟨hlo, hhi⟩ := clampI_range x
  have hdev := Dev.getI_putI_self d R.CLK_STAT (f := F.CLK_STAT_DEV) (k := 15) rfl (by decide) hlo hhi
  have hf : FrameOn noPart [R.CLK_STAT] d (d.putI R.CLK_STAT F.CLK_STAT_DEV (clampI (-32768) 32767 x)) :=
    (FrameOn.refl noPart_part _ d).put noPart_part _ _ (List.mem_singleton_self _)
  obtain hle | hgt := Nat.lt_or_ge 200 x.natAbs
  · rw [Dev.clkXchk_beyond hle] at he
    generalize d.putI R.CLK_STAT F.CLK_STAT_DEV (clampI (-32768) 32767 x) = u at hdev hf he
    obtain ⟨h1, hraised, hflag, hget⟩ := u.xchkShown_spec
    have h2 := hf.trans noPart_part h1
    generalize u.xchkShown = w at h2 hraised hflag hget he
    have hst : w.devState = d.devState := Dev.get_of_reg (h2.reg (a := R.SYS_STATE) noPart_part (by decide) (by decide)) _
    have hlw : w.replaying = false := (Dev.flag_of_reg (h2.reg (a := R.RPL_STAT) noPart_part (by decide) (by decide)) _).trans hlive
    have hmem : w.member = d.member := (congrArg Dev.member h2.1 :)
    obtain ⟨hrun, hlow, hheld, hkeep⟩ := Dev.xchkReacts hlw he
    have hclk := hrun.read (a := R.CLK_STAT) (by decide) (by unfold offTrans; decide) (by decide)
    have hlow' : ChanLow w e .p ∧ ChanLow w e .m → ChanLow d e .p ∧ ChanLow d e .m := fun ⟨h1, h2⟩ =>
      ⟨fun g hg hp => h1 g hg (hmem ▸ hp), fun g hg hp => h2 g hg (hmem ▸ hp)⟩
    refine ⟨?_, fun h => absurd h (Nat.not_le.2 hle), fun _ => ⟨(Dev.flag_of_reg hclk _).trans hflag, hrun.told hraised, fun h => hlow' (hlow ?_),
      fun h => hheld ((holds1_congr hst).2 h), fun h => ?_⟩⟩
    · exact (congrArg (sext (fieldWidth F.CLK_STAT_DEV)) (Dev.get_of_reg hclk _)).trans (hget.trans hdev)
    · obtain h | h := h
      · exact .inl ((holds1_congr hst).2 h)
      · exact .inr (.inl (hst.trans h))
    · obtain ⟨hp, hm⟩ := hlow' (hlow (.inr (.inr (hst.trans h))))
      exact ⟨hp, hm, hkeep (hst.trans h)⟩
  · rw [Dev.clkXchk_within hgt] at he
    rw [← he]
    exact ⟨hdev, fun _ => hf, fun h => absurd h (Nat.not_lt.2 hgt)⟩

/-! ### A hot die, a supply out of range (R373, R501) -/

/-- A cause of SAFE_HOLD raised, and the state entered for it. -/
theorem Dev.raisedHold (hlive : d.replaying = false) {page src cause : Nat} (hpg : pagePresent d.member page = true) (hc : cause < 256) (hs : src < 256)
    {e : Dev} (he : (d.raise page src).enterHold cause src = e) : HoldRun d e ∧ Raised e page src ∧ (d.holds1 → Held e cause) := by
  have hq := d.raise_quiet page src
  have hr := d.raise_raised (src := src) hpg
  generalize d.raise page src = u at hq hr he
  have hl : u.replaying = false := (hq.flag (by decide) _).trans hlive
  have hst : u.devState = d.devState := hq.get (by decide) _
  obtain ⟨hrun, -⟩ := Dev.enterHold_run hl (d := u) hc hs
  rw [he] at hrun
  refine ⟨FrameOn.trans holdPart_part (FrameOn.of_quiet holdPart_part _ hq) hrun, hrun.told hr, fun h => ?_⟩
  exact he ▸ (Dev.enterHold_in hl ((holds1_congr hst).2 h) hc hs).held

theorem tempField_width (k : Nat) : fieldWidth (tempField k) = 8 ∧ (tempField k).lo + fieldWidth (tempField k) ≤ 32 := by
  rw [tempField]
  split
  · decide
  · split
    · decide
    · split <;> decide

theorem Dev.tempHigh_spec (hlive : d.replaying = false) {k : Nat} (hk : k < 4) (t : Int) {e : Dev} (he : d.tempHigh k t = e) :
    (e.get R.PWR_TEMP (tempField k) : Int) = clampI 0 255 (t + 64) ∧ (t ≤ 160 → Frame d e [R.PWR_TEMP]) ∧
      (160 < t → Raised e Pg.PWR Ev.TEMP_HIGH ∧ (d.holds1 → Held e 6)) := by
  obtain ⟨hw, h32⟩ := tempField_width k
  have hval : 0 ≤ clampI 0 255 (t + 64) ∧ clampI 0 255 (t + 64) < 256 := by
    rw [clampI]
    split
    · decide
    · split
      · decide
      · omega
  have hget : ((d.put R.PWR_TEMP (tempField k) (clampI 0 255 (t + 64)).toNat).get R.PWR_TEMP (tempField k) : Int) = clampI 0 255 (t + 64) := by
    rw [d.get_put_self _ _ _ h32, hw]
    omega
  have hf : FrameOn noPart [R.PWR_TEMP] d (d.put R.PWR_TEMP (tempField k) (clampI 0 255 (t + 64)).toNat) :=
    (FrameOn.refl noPart_part _ d).put noPart_part _ _ (List.mem_singleton_self _)
  rw [Dev.tempHigh, if_neg (Nat.not_le.2 hk)] at he
  dsimp only at he
  generalize d.put R.PWR_TEMP (tempField k) (clampI 0 255 (t + 64)).toNat = u at hget hf he
  by_cases ht : 160 < t
  · rw [if_pos ht] at he
    have hst : u.devState = d.devState := Dev.get_of_reg (hf.reg (a := R.SYS_STATE) noPart_part (by decide) (by decide)) _
    have hl : u.replaying = false := (Dev.flag_of_reg (hf.reg (a := R.RPL_STAT) noPart_part (by decide) (by decide)) _).trans hlive
    obtain ⟨hrun, hr, hheld⟩ := Dev.raisedHold hl (page := Pg.PWR) rfl (by decide) (by decide) he
    have htemp := hrun.read (a := R.PWR_TEMP) (by decide) (by unfold offTrans; decide) (by decide)
    exact ⟨by rw [Dev.get_of_reg htemp]; exact hget, fun h => absurd ht (not_lt.2 h), fun _ => ⟨hr, fun h => hheld ((holds1_congr hst).2 h)⟩⟩
  · rw [if_neg ht] at he
    rw [← he]
    exact ⟨hget, fun _ => hf, fun h => absurd h ht⟩

/-- The flags of a supply's warning. -/
def Dev.warnShown (d : Dev) (ch : Channel) (v : Bool) : Dev :=
  ((d.putVddio v).putB R.PWR_STAT (chanField ch F.PWR_STAT_WARN_P F.PWR_STAT_WARN_M) true).putB R.PWR_STAT (chanField ch F.PWR_STAT_P_OK F.PWR_STAT_M_OK) false

theorem Dev.supplyWarn_eq (d : Dev) (ch : Channel) (v : Bool) : d.supplyWarn ch v = ((d.warnShown ch v).raise Pg.PWR Ev.SUPPLY_WARN).enterHold 7 Ev.SUPPLY_WARN := rfl

theorem Dev.putVddio_ok (d : Dev) (v : Bool) : (d.putVddio v).flag R.PWR_STAT F.PWR_STAT_VDDIO_OK = v :=
  Dev.flag_putB_self { d with sys := { d.sys with vddioLow := !v } } R.PWR_STAT F.PWR_STAT_VDDIO_OK v (by decide) (by decide)

theorem Dev.putVddio_reg (d : Dev) (v : Bool) {a : Nat} (h : a ≠ R.PWR_STAT) : (d.putVddio v).reg a = d.reg a :=
  Dev.reg_put_ne { d with sys := { d.sys with vddioLow := !v } } F.PWR_STAT_VDDIO_OK (b2n v) h

theorem Dev.putVddio_low (d : Dev) (v : Bool) : (d.putVddio v).sys.vddioLow = !v := rfl

theorem Dev.warnShown_spec (d : Dev) (ch : Channel) (v : Bool) : (d.warnShown ch v).flag R.PWR_STAT (chanField ch F.PWR_STAT_WARN_P F.PWR_STAT_WARN_M) = true ∧
    (d.warnShown ch v).flag R.PWR_STAT F.PWR_STAT_VDDIO_OK = v ∧ (d.warnShown ch v).flag R.PWR_STAT (chanField ch F.PWR_STAT_P_OK F.PWR_STAT_M_OK) = false ∧
    (d.warnShown ch v).sys.vddioLow = !v ∧ ∀ a, a ≠ R.PWR_STAT → (d.warnShown ch v).reg a = d.reg a := by
  have hok := d.putVddio_ok v
  have hlow := d.putVddio_low v
  have hreg := fun a h => d.putVddio_reg v (a := a) h
  rw [Dev.warnShown]
  generalize d.putVddio v = u at hok hlow hreg ⊢
  have hw := Dev.flag_putB_self u R.PWR_STAT (chanField ch F.PWR_STAT_WARN_P F.PWR_STAT_WARN_M) true (by cases ch <;> decide) (by cases ch <;> decide)
  have hv : (u.putB R.PWR_STAT (chanField ch F.PWR_STAT_WARN_P F.PWR_STAT_WARN_M) true).flag R.PWR_STAT F.PWR_STAT_VDDIO_OK = v :=
    (Dev.flag_put_field u _ _ _ (by cases ch <;> decide)).trans hok
  have hs : (u.putB R.PWR_STAT (chanField ch F.PWR_STAT_WARN_P F.PWR_STAT_WARN_M) true).sys = u.sys := u.put_sys _ _ _
  have hr : ∀ a, a ≠ R.PWR_STAT → (u.putB R.PWR_STAT (chanField ch F.PWR_STAT_WARN_P F.PWR_STAT_WARN_M) true).reg a = d.reg a := fun a ha =>
    (u.reg_put_ne _ _ ha).trans (hreg a ha)
  generalize u.putB R.PWR_STAT (chanField ch F.PWR_STAT_WARN_P F.PWR_STAT_WARN_M) true = w at hw hv hs hr ⊢
  refine ⟨?_, ?_, ?_, ?_, fun a ha => (w.reg_put_ne _ _ ha).trans (hr a ha)⟩
  · exact (Dev.flag_put_field w _ _ _ (by cases ch <;> decide)).trans hw
  · exact (Dev.flag_put_field w _ _ _ (by cases ch <;> decide)).trans hv
  · exact Dev.flag_putB_self w R.PWR_STAT _ false (by cases ch <;> decide) (by cases ch <;> decide)
  · rw [Dev.putB, w.put_sys, hs, hlow]

theorem Dev.supplyWarn_spec (hlive : d.replaying = false) (ch : Channel) (v : Bool) {e : Dev} (he : d.supplyWarn ch v = e) :
    e.flag R.PWR_STAT (chanField ch F.PWR_STAT_WARN_P F.PWR_STAT_WARN_M) = true ∧ e.flag R.PWR_STAT F.PWR_STAT_VDDIO_OK = v ∧
      (v = false → ∀ p, e.pinRest p = some (restUnpowered p)) ∧ e.flag R.PWR_STAT (chanField ch F.PWR_STAT_P_OK F.PWR_STAT_M_OK) = false ∧
      Raised e Pg.PWR Ev.SUPPLY_WARN ∧ (d.holds1 → Held e 7) := by
  obtain ⟨h1, h2, h3, h4, hreg⟩ := d.warnShown_spec ch v
  rw [Dev.supplyWarn_eq] at he
  generalize d.warnShown ch v = u at h1 h2 h3 h4 hreg he
  have hl : u.replaying = false := (Dev.flag_of_reg (hreg R.RPL_STAT (by decide)) _).trans hlive
  have hst : u.devState = d.devState := Dev.get_of_reg (hreg R.SYS_STATE (by decide)) _
  obtain ⟨hrun, hr, hheld⟩ := Dev.raisedHold hl (page := Pg.PWR) rfl (by decide) (by decide) he
  have hp := hrun.read (a := R.PWR_STAT) (by decide) (by unfold offTrans; decide) (by decide)
  refine ⟨(Dev.flag_of_reg hp _).trans h1, (Dev.flag_of_reg hp _).trans h2, fun hv p => ?_, (Dev.flag_of_reg hp _).trans h3, hr,
    fun h => hheld ((holds1_congr hst).2 h)⟩
  rw [Dev.pinRest, hrun.vddioLow, h4, hv, Bool.not_false, if_pos rfl]

/-! ### A channel's enables fall (R38) -/

/-- Groups, and the channels' own states. -/
def gatePart (d e : Dev) : Dev := { d with safe := e.safe, grp := e.grp }

theorem gatePart_part : Part gatePart := ⟨fun _ => rfl, fun _ _ _ => rfl, fun _ _ => rfl, fun _ _ _ => rfl⟩

/-- The registers that show enables and the grant. -/
def gateRegs : List Nat := [R.GDA_STAT, R.SAFE_GRANT] ++ (List.range 12).map R.GDT_PINS

theorem mem_gateRegs {a : Nat} : a ∈ gateRegs ↔ a = R.GDA_STAT ∨ a = R.SAFE_GRANT ∨ ∃ g < 12, R.GDT_PINS g = a := by
  simp only [gateRegs, List.mem_append, List.mem_cons, List.not_mem_nil, or_false, List.mem_map, List.mem_range, or_assoc]

section
variable {l : List Nat} (hl : ∀ a ∈ gateRegs, a ∈ l)

theorem FrameOn.gateGrp (h : FrameOn gatePart l d e) (k : Nat) (v : GrpSt) : FrameOn gatePart l d (e.setGrp k v) :=
  h.part gatePart_part rfl fun _ => rfl

theorem FrameOn.gateCheck (h : FrameOn gatePart l d e) (g : Nat) : FrameOn gatePart l d (e.beginCheck g) :=
  FrameOn.ite (fun _ => h.gateGrp g _) fun _ => h

include hl in
theorem FrameOn.gateP (h : FrameOn gatePart l d e) (g : Nat) (b : Bool) : FrameOn gatePart l d (e.setGenP g b) := by
  have hp := gatePart_part
  rw [Dev.setGenP]
  refine FrameOn.ite (fun _ => h) fun _ => FrameOn.ite (fun _ => h.setReg hp _ (hl _ (mem_gateRegs.2 (.inl rfl)))) fun hg => ?_
  have hpins := hl _ (mem_gateRegs.2 (.inr (.inr ⟨g, Nat.not_le.1 hg, rfl⟩)))
  have hput := (h.putB hp F.GDT_PINS_GENP_CMD b hpins).putB hp F.GDT_PINS_GENP_PIN b hpins
  exact FrameOn.ite (fun _ => hput.gateGrp g _) fun _ => (hput.gateGrp g _).gateCheck g

include hl in
theorem FrameOn.gateM (h : FrameOn gatePart l d e) (g : Nat) (b : Bool) : FrameOn gatePart l d (e.setGenM g b) := by
  have hp := gatePart_part
  rw [Dev.setGenM]
  refine FrameOn.ite (fun _ => h) fun _ => FrameOn.ite (fun _ => h.setReg hp _ (hl _ (mem_gateRegs.2 (.inl rfl)))) fun hg => ?_
  have hput := h.putB hp F.GDT_PINS_GENM_PIN b (hl _ (mem_gateRegs.2 (.inr (.inr ⟨g, Nat.not_le.1 hg, rfl⟩))))
  exact FrameOn.ite (fun _ => hput) fun _ => hput.gateCheck g

include hl in
theorem FrameOn.gateGrant (h : FrameOn gatePart l d e) : FrameOn gatePart l d e.grantAll := by
  rw [Dev.grantAll]
  exact forN_keeps (P := FrameOn gatePart l d) 20 (fun g _ _ hu => hu.gateM hl g _) (h.put gatePart_part _ _ (hl _ (mem_gateRegs.2 (.inr (.inl rfl)))))

include hl in
theorem FrameOn.gateDropP (h : FrameOn gatePart l d e) : FrameOn gatePart l d e.dropAllP :=
  forN_keeps (P := FrameOn gatePart l d) 20 (fun g _ _ hu => hu.gateP hl g false) h

include hl in
theorem FrameOn.gateDropM (h : FrameOn gatePart l d e) : FrameOn gatePart l d e.dropAllM :=
  forN_keeps (P := FrameOn gatePart l d) 20 (fun g _ _ hu => hu.gateM hl g false) h

/-- A channel is dead for its grants (R38). -/
def Dev.chanDead (d : Dev) (ch : Channel) : Dev :=
  match ch with
  | .p => { d with safe := { d.safe with deadP := true } }
  | .m => { d with safe := { d.safe with deadM := true } }

include hl in
theorem FrameOn.keeperFalls (h : FrameOn gatePart l d e) (ch : Channel) : FrameOn gatePart l d (e.keeperFalls ch) := by
  have h0 : FrameOn gatePart l d (e.chanDead ch) := by
    cases ch with
    | p => exact h.part gatePart_part rfl fun _ => rfl
    | m => exact h.part gatePart_part rfl fun _ => rfl
  cases ch with
  | p => exact h0.gateDropP hl
  | m => exact (h0.gateGrant hl).gateDropM hl

end

/-- What has become of a channel whose enables have fallen. -/
structure ChanFell (d e : Dev) (ch : Channel) : Prop where
  low : ChanLow d e ch
  p : ch = .p → e.safe.deadP = true ∧ e.safe.deadM = d.safe.deadM
  m : ch = .m → e.safe.deadM = true ∧ e.safe.deadP = d.safe.deadP ∧ e.get R.SAFE_GRANT F.SAFE_GRANT_GENM = 0

theorem Dev.grantAll_member (d : Dev) : d.grantAll.member = d.member :=
  forN_keeps (P := fun e : Dev => e.member = d.member) 20 (fun g _ e he => (e.setGenM_member g _).trans he) (d.put_member _ _ _)

theorem Dev.keeperFalls_p (d : Dev) : d.keeperFalls .p = (d.chanDead .p).dropAllP := rfl
theorem Dev.keeperFalls_m (d : Dev) : d.keeperFalls .m = (d.chanDead .m).grantAll.dropAllM := rfl

theorem Dev.keeperFalls_fell (d : Dev) (ch : Channel) : ChanFell d (d.keeperFalls ch) ch := by
  cases ch with
  | p =>
    rw [d.keeperFalls_p]
    refine ⟨(d.chanDead .p).dropAllP_low, fun _ => ?_, fun h => nomatch h⟩
    rw [Dev.dropAllP_safe]
    exact ⟨rfl, rfl⟩
  | m =>
    rw [d.keeperFalls_m]
    have hm := (d.chanDead .m).grantAll_member
    have hs := (d.chanDead .m).grantAll_safe
    obtain ⟨-, hg⟩ := Dev.grantAll_low (d := d.chanDead .m) fun m _ => Dev.grantOk_dead rfl m
    generalize (d.chanDead .m).grantAll = u at hm hs hg ⊢
    refine ⟨fun g hg hp => u.dropAllM_low g hg (hm ▸ hp), fun h => (nomatch h), fun _ => ?_⟩
    rw [u.dropAllM_safe, hs]
    exact ⟨rfl, rfl, (Dev.get_of_reg (u.reg_dropAllM (a := R.SAFE_GRANT) (by decide)) _).trans hg⟩

/-! ### A lockstep mismatch (R485) -/

/-- The register of the pair held, and its mailboxes' peers told. -/
def Dev.pairHeld (d : Dev) (ch : Channel) (mid : Nat) : Dev :=
  ((d.raise Pg.SYS Ev.LOCKSTEP).putB R.RST_DOM (chanField ch F.RST_DOM_S0_HELD F.RST_DOM_S1_HELD) true).peerReset mid

/-- The cause of SAFE_HOLD that a channel's mismatch is. -/
def lockCause (ch : Channel) : Nat := match ch with
  | .p => 2
  | .m => 3

theorem Dev.lockstep_eq {ch : Channel} (h : d.flag R.RST_DOM (chanField ch F.RST_DOM_S0_HELD F.RST_DOM_S1_HELD) = false) :
    ∃ mid, d.lockstep ch = ((d.pairHeld ch mid).keeperFalls ch).enterHold (lockCause ch) Ev.LOCKSTEP := by
  have hn := Bool.eq_false_iff.1 h
  cases ch with
  | p => exact ⟨Mid.S0, if_neg hn⟩
  | m => exact ⟨Mid.S1, if_neg hn⟩

theorem Dev.pairHeld_spec (d : Dev) (ch : Channel) (mid : Nat) : FrameOn noPart [R.RST_DOM] d (d.pairHeld ch mid) ∧
    (d.pairHeld ch mid).flag R.RST_DOM (chanField ch F.RST_DOM_S0_HELD F.RST_DOM_S1_HELD) = true ∧ Raised (d.pairHeld ch mid) Pg.SYS Ev.LOCKSTEP := by
  have hq := d.raise_quiet Pg.SYS Ev.LOCKSTEP
  have hr := d.raise_raised (page := Pg.SYS) (src := Ev.LOCKSTEP) rfl
  rw [Dev.pairHeld]
  generalize d.raise Pg.SYS Ev.LOCKSTEP = u at hq hr ⊢
  have hf : FrameOn noPart [R.RST_DOM] u (u.putB R.RST_DOM (chanField ch F.RST_DOM_S0_HELD F.RST_DOM_S1_HELD) true) :=
    (FrameOn.refl noPart_part _ u).putB noPart_part _ _ (List.mem_singleton_self _)
  have hflag := Dev.flag_putB_self u R.RST_DOM (chanField ch F.RST_DOM_S0_HELD F.RST_DOM_S1_HELD) true (by cases ch <;> decide) (by cases ch <;> decide)
  have hraised := hf.raised noPart_part (by decide) hr
  generalize u.putB R.RST_DOM (chanField ch F.RST_DOM_S0_HELD F.RST_DOM_S1_HELD) true = w at hf hflag hraised ⊢
  have hp := (w.peerReset_spec mid).1
  exact ⟨((FrameOn.of_quiet noPart_part _ hq).trans noPart_part hf).quiet noPart_part hp, (hp.flag (by decide) _).trans hflag, hp.raised hraised⟩

theorem gateRegs_trans {a : Nat} (h : a ∈ gateRegs) : a ∈ transRegs := by
  obtain rfl | rfl | ⟨g, hg, rfl⟩ := mem_gateRegs.1 h
  · exact enableRegs_trans (g := 12) (by decide) _ (by simp [enableRegs])
  · exact mem_transRegs.2 (.inl (by simp))
  · exact enableRegs_trans (g := g) (by omega) _ (by simp [enableRegs])

theorem HoldRun.fell (d : Dev) (ch : Channel) : HoldRun d (d.keeperFalls ch) :=
  ((FrameOn.refl gatePart_part gateRegs d).keeperFalls (fun _ h => h) ch).widen gatePart_part holdPart_part (fun _ _ => rfl)
    fun _ h => List.mem_cons_of_mem _ (gateRegs_trans h)

theorem Dev.keeperFalls_state (d : Dev) (ch : Channel) : (d.keeperFalls ch).devState = d.devState := by
  have h := (FrameOn.refl gatePart_part gateRegs d).keeperFalls (fun _ h => h) ch
  exact Dev.get_of_reg (h.reg (a := R.SYS_STATE) gatePart_part (by decide) (by decide)) _

theorem ChanLow.hold {ch : Channel} (hP : ∀ g < 20, d.genP g = false → e.genP g = false)
    (hM : ch = .m → ChanLow d e .m) (hl : ChanLow d d ch) : ChanLow d e ch := by
  cases ch with
  | p => exact fun g hg hp => hP g hg (hl g hg hp)
  | m => exact hM rfl

theorem ChanLow.congr {ch : Channel} (hm : f.member = d.member) (h : ChanLow f e ch) : ChanLow d e ch := fun g hg hp => h g hg (hm ▸ hp)

theorem Dev.lockstep_spec (hlive : d.replaying = false) {ch : Channel} (h0 : d.flag R.RST_DOM (chanField ch F.RST_DOM_S0_HELD F.RST_DOM_S1_HELD) = false)
    {e : Dev} (he : d.lockstep ch = e) : e.flag R.RST_DOM (chanField ch F.RST_DOM_S0_HELD F.RST_DOM_S1_HELD) = true ∧ Raised e Pg.SYS Ev.LOCKSTEP ∧
      ChanLow d e ch ∧ (d.holds1 → Held e (lockCause ch)) := by
  obtain ⟨mid, heq⟩ := Dev.lockstep_eq h0
  rw [heq] at he
  obtain ⟨hf, hflag, hr⟩ := d.pairHeld_spec ch mid
  generalize d.pairHeld ch mid = u at hf hflag hr he
  have hl : u.replaying = false := (Dev.flag_of_reg (hf.reg (a := R.RPL_STAT) noPart_part (by decide) (by decide)) _).trans hlive
  have hst : u.devState = d.devState := Dev.get_of_reg (hf.reg (a := R.SYS_STATE) noPart_part (by decide) (by decide)) _
  have hmem : u.member = d.member := (congrArg Dev.member hf.1 :)
  have hfell := HoldRun.fell u ch
  have hlow := u.keeperFalls_fell ch
  have hst2 := u.keeperFalls_state ch
  generalize u.keeperFalls ch = w at hfell hlow hst2 he
  have hlw := hfell.live.trans hl
  have hwm : w.member = d.member := (congrArg Dev.member hfell.1 :).trans hmem
  have hc : lockCause ch < 256 := by cases ch <;> decide
  obtain ⟨hrun, hP, hM, -⟩ := Dev.enterHold_run hlw (cause := lockCause ch) (src := Ev.LOCKSTEP) hc (by decide)
  rw [he] at hrun hP hM
  have hall := hfell.trans hrun
  refine ⟨?_, hall.told hr, ?_, fun h => ?_⟩
  · exact (Dev.flag_of_reg (hall.read (a := R.RST_DOM) (by decide) (by unfold offTrans; decide) (by decide)) _).trans hflag
  · refine ChanLow.congr hwm (ChanLow.hold hP (fun hm => ?_) (.congr (hmem.trans hwm.symm) hlow.low))
    subst hm
    exact hM (.inr (hlow.m rfl).1) (.congr (hmem.trans hwm.symm) hlow.low)
  · exact he ▸ (Dev.enterHold_in hlw ((holds1_congr (hst2.trans hst)).2 h) hc (by decide)).held

/-! ### An enable read back wrong (R43) -/

/-- Both channels drop a group's enables, and tell it. -/
def Dev.readbackDrops (d : Dev) (g : Nat) : Dev :=
  ((d.raiseN Pg.SAFE Ev.ENA_READBACK ((d.machOf g).getD g)).setGenP g false).setGenM g false

/-- What becomes of the group's machine. -/
def Dev.readbackFault (d : Dev) (m : Nat) : Dev := if d.mState m = MS.OFF ∨ d.mState m = MS.FAULT then d else d.toFault m 9

theorem Dev.enaReadback_none {g : Nat} (hp : groupPresent d.member g = true) (h : d.machOf g = none) : d.enaReadback g = d.readbackDrops g := by
  rw [Dev.enaReadback, hp, if_neg (by decide), h, Dev.readbackDrops, h]

theorem Dev.enaReadback_some {g m : Nat} (hp : groupPresent d.member g = true) (h : d.machOf g = some m) :
    d.enaReadback g = (d.readbackDrops g).readbackFault m := by
  rw [Dev.enaReadback, hp, if_neg (by decide), h, Dev.readbackDrops, h]
  rfl

theorem Dev.readbackDrops_spec (d : Dev) {g : Nat} (hg : g < 20) (hp : groupPresent d.member g = true) : TransRun d (d.readbackDrops g) ∧
    (d.readbackDrops g).mach = d.mach ∧ (d.readbackDrops g).genP g = false ∧ (d.readbackDrops g).genM g = false ∧
    Raised (d.readbackDrops g) Pg.SAFE Ev.ENA_READBACK := by
  rw [Dev.readbackDrops]
  have hq := d.raiseN_quiet Pg.SAFE Ev.ENA_READBACK ((d.machOf g).getD g)
  have hr := d.raiseN_raised (page := Pg.SAFE) (src := Ev.ENA_READBACK) ((d.machOf g).getD g) rfl
  generalize d.raiseN Pg.SAFE Ev.ENA_READBACK ((d.machOf g).getD g) = u at hq hr ⊢
  have h1 : TransRun u (u.setGenP g false) := TransRun.setGenP (FrameOn.refl transPart_part _ u) hg false
  have hpu : groupPresent u.member g = true := by rw [show u.member = d.member from (congrArg Dev.member hq.1 :)]; exact hp
  have hP := u.genP_setGenP hg hpu false
  have hm : (u.setGenP g false).mach = u.mach := ((FrameOn.refl hostPart_part (enableRegs g) u).setGenP (fun _ ha => ha) false).hostMach
  have hpm : groupPresent (u.setGenP g false).member g = true := by rw [u.setGenP_member]; exact hpu
  generalize u.setGenP g false = w at h1 hP hm hpm ⊢
  have h2 := TransRun.setGenM h1 hg false
  refine ⟨FrameOn.trans transPart_part (TransRun.of_quiet hq) h2, ((w.setGenM_mach g false).trans hm).trans hq.mach, (w.genP_setGenM hg hg false).trans hP,
    w.genM_setGenM hg hpm false, TransRun.told h2 hr⟩

theorem machOf_lt {g m : Nat} (h : d.machOf g = some m) : m < 20 := by
  rw [Dev.machOf] at h
  split at h
  · next hd => exact Option.some.inj h ▸ mDefined_lt hd
  · split at h
    · split at h
      · next hd =>
        rw [Bool.and_eq_true] at hd
        exact Option.some.inj h ▸ mDefined_lt hd.1
      · cases h
    · cases h

theorem Dev.enaReadback_spec (hlive : d.replaying = false) {g : Nat} (hg : g < 20) (hp : groupPresent d.member g = true) {e : Dev}
    (he : d.enaReadback g = e) : e.genP g = false ∧ e.genM g = false ∧ Raised e Pg.SAFE Ev.ENA_READBACK ∧
      ∀ m, d.machOf g = some m → d.mState m ≠ MS.OFF → d.mState m ≠ MS.FAULT → Entered d e m MS.FAULT 9 := by
  obtain ⟨hrun, hmach, hP, hM, hr⟩ := d.readbackDrops_spec hg hp
  cases hmo : d.machOf g with
  | none =>
    rw [Dev.enaReadback_none hp hmo] at he
    exact he ▸ ⟨hP, hM, hr, fun m hm => nomatch hm⟩
  | some n =>
    rw [Dev.enaReadback_some hp hmo] at he
    generalize d.readbackDrops g = u at hrun hmach hP hM hr he
    have hn := machOf_lt hmo
    have hl := hrun.live.trans hlive
    have hst : u.mState n = d.mState n := by rw [Dev.mState, Dev.machS, hmach]; rfl
    rw [Dev.readbackFault, hst] at he
    split at he
    · next ho =>
      refine he ▸ ⟨hP, hM, hr, fun m hm h1 h2 => ?_⟩
      obtain rfl := Option.some.inj hm
      exact absurd ho (not_or.2 ⟨h1, h2⟩)
    · have hk := EnaKept.toFault hn hl 9
      refine he ▸ ⟨hk.genP g hg hP, hk.genM g hg hM, ((MachRun.refl n u).toFault hn hl 9).raised hr, fun m hm _ _ => ?_⟩
      obtain rfl := Option.some.inj hm
      exact (Dev.toFault_entered hn hl (by decide)).base hrun.gtc

end

/-- Settles O58. -/
theorem holdCauses : Obligations.HoldCauses := by
  intro s ⟨hup, hlive⟩
  refine ⟨fun x => ⟨_, onDev_eq hup rfl, Dev.clkXchk_spec hlive x rfl⟩, fun k t hk => ⟨_, onDev_eq hup rfl, Dev.tempHigh_spec hlive hk t rfl⟩,
    fun ch => ⟨fun v => ⟨_, onDev_eq hup rfl, Dev.supplyWarn_spec hlive ch v rfl⟩, ?_⟩, fun g ch hg hp => ⟨_, onDev_eq hup rfl, Dev.enaReadback_spec hlive hg hp rfl⟩, ?_, ?_, ?_⟩
  · intro f
    refine ⟨fun h => ?_, fun h => onDev_same hup ?_⟩
    · obtain ⟨h1, h2, h3, h4⟩ := Dev.lockstep_spec hlive h rfl
      refine ⟨_, onDev_eq hup rfl, h1, h2, h3, fun hh => ?_⟩
      cases ch with
      | p => exact h4 hh
      | m => exact h4 hh
    · exact if_pos h
  · exact ⟨_, rfl, (FrameOn.refl noPart_part _ _).putB noPart_part _ _ (List.mem_singleton_self _),
      Dev.flag_putB_self s.dev R.GDA_STAT F.GDA_STAT_VGD_OK true (by decide) (by decide)⟩
  · exact ⟨_, rfl, (FrameOn.refl noPart_part _ _).putB noPart_part _ _ (List.mem_singleton_self _), s.dev.putVddio_ok true⟩
  · intro r h1 h2
    cases r with
    | vgd => exact absurd rfl h1
    | vddio => exact absurd rfl h2
    | _ => rfl

end Sys2Proof.Machine
end

section
/-! PROOFS. The entry into FATAL, the link, the channels' clocks and supplies, and their obligation (R35, R36, R38, R53, R467, R480). -/

namespace Sys2Proof.Machine

section
variable {d e f : Dev}

/-! ### What the steps of the entry leave -/

/-- What the entry into FATAL keeps once the state has been entered. -/
structure FatalKept (d e : Dev) : Prop where
  member : e.member = d.member
  dead : e.sys.linkDead = d.sys.linkDead
  state : e.reg R.SYS_STATE = d.reg R.SYS_STATE
  told : ∀ page src, Raised d page src → Raised e page src
  genP : ∀ g < 20, d.genP g = false → e.genP g = false
  genM : ∀ g < 20, d.genM g = false → e.genM g = false
  rel : ∀ g < 20, ∀ x < 3, d.legReleased g x = true → e.legReleased g x = true

theorem FatalKept.refl (d : Dev) : FatalKept d d :=
  ⟨rfl, rfl, rfl, fun _ _ h => h, fun _ _ h => h, fun _ _ h => h, fun _ _ _ _ h => h⟩

theorem FatalKept.trans (h : FatalKept d e) (k : FatalKept e f) : FatalKept d f :=
  ⟨k.member.trans h.member, k.dead.trans h.dead, k.state.trans h.state, fun p s hr => k.told p s (h.told p s hr), fun g hg hl => k.genP g hg (h.genP g hg hl),
    fun g hg hl => k.genM g hg (h.genM g hg hl), fun g hg x hx hr => k.rel g hg x hx (h.rel g hg x hx hr)⟩

/-- A register off the gate drive's pages that is neither SYS_STATE nor raw bits. -/
def offFatal (a : Nat) : Prop := a ≠ R.SYS_STATE ∧ (a < 0x40098000 ∨ 0x4009A000 ≤ a) ∧ a % 0x1000 ≠ 0x10

theorem FatalKept.of_regs (hm : e.member = d.member) (hd : e.sys.linkDead = d.sys.linkDead) (ht : ∀ page src, Raised d page src → Raised e page src)
    (hr : ∀ a, eventReg a = false → a = R.SYS_STATE ∨ (0x40098000 ≤ a ∧ a < 0x4009A000) → e.reg a = d.reg a) : FatalKept d e := by
  have hpins : ∀ g < 12, e.reg (R.GDT_PINS g) = d.reg (R.GDT_PINS g) := fun g hg => hr _ (eventReg_pins hg) (.inr (by simp only [R.GDT_PINS]; omega))
  have hstat : e.reg R.GDA_STAT = d.reg R.GDA_STAT := hr _ (by decide) (.inr (by decide))
  have hP : ∀ g < 20, e.genP g = d.genP g := fun g hg => by
    by_cases h12 : g < 12
    · exact Dev.genP_congr (hpins g h12) hstat
    · rw [e.genP_hi (Nat.not_lt.1 h12), d.genP_hi (Nat.not_lt.1 h12), hstat]
  have hM : ∀ g < 20, e.genM g = d.genM g := fun g hg => by
    by_cases h12 : g < 12
    · exact Dev.genM_congr (hpins g h12) hstat
    · rw [e.genM_hi (Nat.not_lt.1 h12), d.genM_hi (Nat.not_lt.1 h12), hstat]
  refine ⟨hm, hd, hr _ (by decide) (.inl rfl), ht, fun g hg h => (hP g hg).trans h, fun g hg h => (hM g hg).trans h, fun g hg x _ h => ?_⟩
  refine (Dev.flag_of_reg (hr _ (eventReg_gdLstat hg) (.inr ?_)) _).trans h
  simp only [gdLstat, R.GDT_LSTAT, R.GDA_LSTAT]
  split <;> omega

theorem FatalKept.of_quiet (h : Quiet d e) : FatalKept d e :=
  .of_regs (congrArg Dev.member h.1 :) (congrArg (fun u : Dev => u.sys.linkDead) h.1 :) (fun _ _ hr => h.raised hr) fun _ ha _ => h.reg ha

theorem FatalKept.setReg (d : Dev) {a : Nat} (w : Word) (ho : offFatal a) : FatalKept d (d.setReg a w) := by
  obtain ⟨h1, h2, h3⟩ := ho
  refine .of_regs (d.setReg_member a w) (congrArg SysSt.linkDead (d.setReg_sys a w)) (fun p s hr => ?_) fun b _ hb => d.reg_setReg_ne w ?_
  · rw [Raised, d.reg_setReg_ne w (by simp only [R.PG_EVT_RAW, pageBase]; omega)]
    exact hr
  · rintro rfl
    omega

/-! ### Every leg released (R36, R309) -/

theorem mask_seven {x : Nat} (hx : x < 3) : 7 / 2 ^ x % 2 = 1 := by
  obtain rfl | rfl | rfl : x = 0 ∨ x = 1 ∨ x = 2 := by omega
  · rfl
  · rfl
  · rfl

theorem gdRegs_place {g a : Nat} (hg : g < 20) (h : a ∈ gdRegs g) : a ≠ R.SYS_STATE ∧ a % 0x1000 ≠ 0x10 ∧ (∀ k < 12, R.GDT_PINS k ≠ a) ∧ R.GDA_STAT ≠ a := by
  simp only [gdRegs, gdFlag, List.mem_cons, List.not_mem_nil, or_false, gdLstat, relCnt] at h
  simp only [R.GDT_FLAG, R.GDA_FLAG, R.GDT_LSTAT, R.GDA_LSTAT, R.GDT_CNT, R.GDA_CNT, R.GDT_PINS, R.GDA_STAT, R.SYS_STATE] at h ⊢
  by_cases h12 : g < 12
  · simp only [if_pos h12] at h
    refine ⟨?_, ?_, fun k hk => ?_, ?_⟩ <;> omega
  · simp only [if_neg h12] at h
    refine ⟨?_, ?_, fun k hk => ?_, ?_⟩ <;> omega

theorem FatalKept.relMask (d : Dev) {g : Nat} (hg : g < 20) (mask : Nat) {cause : Nat} (hc : cause < 16) : FatalKept d (d.relMask g mask cause) := by
  have h : FrameOn grpPart (gdRegs g) d (d.relMask g mask cause) := d.relMask_frame (fun _ ha => ha) mask cause
  have hr := (Releasing.refl cause d).relMask hg mask le_rfl hc
  have hk : EnaKept d (d.relMask g mask cause) := .of_frame grpPart_part h (fun k hk hm => (gdRegs_place hg hm).2.2.1 k hk rfl)
    (fun hm => (gdRegs_place hg hm).2.2.2 rfl) (congrArg (fun u : Dev => u.safe.keep) h.1 :)
  refine ⟨(congrArg Dev.member h.1 :), (congrArg (fun u : Dev => u.sys.linkDead) h.1 :), h.reg grpPart_part (by decide) fun hm => (gdRegs_place hg hm).1 rfl,
    fun p s hraised => h.raised grpPart_part (fun hm => (gdRegs_place hg hm).2.1 ?_) hraised, hk.genP, hk.genM, hr.rel⟩
  simp only [R.PG_EVT_RAW, pageBase]
  omega

theorem Dev.releaseAll_spec (d : Dev) : FatalKept d d.releaseAll ∧ ∀ g < 20, groupPresent d.member g = true → ∀ x < 3, d.releaseAll.legReleased g x = true := by
  have hstep : ∀ g < 20, ∀ u : Dev, FatalKept u (if groupPresent u.member g then u.relMask g 7 0xB else u) := fun g hg u => by
    split
    · exact .relMask u hg 7 (by decide)
    · exact .refl u
  refine forN_each 20 (I := FatalKept d) (Q := fun g e => groupPresent d.member g = true → ∀ x < 3, e.legReleased g x = true)
    (f := fun g e => if groupPresent e.member g then e.relMask g 7 0xB else e) (fun g hg e he => he.trans (hstep g hg e))
    (fun g hg e he hp x hx => ?_) (fun k hk g hgk e _ hq hp x hx => (hstep k hk e).rel g (hgk.trans hk) x hx (hq hp x hx)) (.refl d)
  rw [if_pos (by rw [he.member]; exact hp)]
  exact (((Releasing.refl 0xB e).relMask_got hg 7 (by decide)).got g hg x hx (.inr ⟨rfl, mask_seven hx⟩)).1

/-! ### The entry, stage by stage -/

def Dev.fatalGone (d : Dev) (src : Nat) : Dev := (d.goSafe DS.FATAL src true).putB R.SAFE_HOLD_INFO F.SAFE_HOLD_INFO_HOLD false
def Dev.fatalDrops (d : Dev) : Dev := d.dropAllP.dropAllM.releaseAll
def Dev.fatalCause (d : Dev) (src : Nat) : Dev :=
  (d.fatalRecorder.put R.DMP_STAT F.DMP_STAT_CAUSE src).put R.DMP_STAT F.DMP_STAT_NCAUSE 1
def Dev.fatalDump (d : Dev) (src : Nat) (ran : Bool) : Dev :=
  { d.fatalCause src with sys := { (d.fatalCause src).sys with dump := 1, head := d.fatalHead src (d.reg R.SYS_STATE) ran } }

theorem Dev.enterFatal_eq (hup : d.devState ≠ DS.RESET) (hf : d.devState ≠ DS.FATAL) (page src : Nat) : d.enterFatal page src =
    (((d.raise page src).fatalReplay.fatalGone src).fatalDrops.ringClose).fatalDump src (d.flag R.REC_STAT F.REC_STAT_RUN) := by
  rw [Dev.enterFatal, if_neg hup, if_neg hf]
  rfl

theorem Dev.fatalReplay_live (h : d.replaying = false) : d.fatalReplay = d := by rw [Dev.fatalReplay, h, if_neg Bool.false_ne_true]

theorem Dev.goState_fatal (d : Dev) (src : Nat) : d.goState DS.FATAL src true = d.setState DS.FATAL src true := by
  rw [Dev.goState]
  split
  · rw [Dev.byS0]
    split
    · rfl
    · exact forN_keeps (P := fun e => e = d.setState DS.FATAL src true) 20 (fun m _ e he => (e.machDevState_fatal m).trans he) rfl
  · rfl

/-- SYS_STATE as the entry leaves it. -/
abbrev FatalIs (d e : Dev) (src : Nat) : Prop :=
  StateIs e DS.FATAL (if d.trans.at1 = d.now + 1 then d.trans.fromSt else d.devState) src true (d.reg R.SYS_STATE)

theorem fatal_rank (hf : d.devState ≠ DS.FATAL) : stateRank d.devState < stateRank DS.FATAL := by
  rw [stateRank, if_neg hf]
  split
  · decide
  · split <;> decide

theorem Dev.fatalGone_spec (hf : d.devState ≠ DS.FATAL) {src : Nat} (hs : src < 256) : HoldRun d (d.fatalGone src) ∧ FatalIs d (d.fatalGone src) src := by
  have hr := d.setState_run DS.FATAL src true
  have hi := d.setState_taken (new := DS.FATAL) (by decide) hs true (.inr (fatal_rank hf))
  rw [Dev.fatalGone, Dev.goSafe, d.goState_fatal]
  generalize d.setState DS.FATAL src true = u at hr hi ⊢
  have hr2 : TransRun d u.grantAll := TransRun.grantAll hr
  have hi2 := hi.of_reg (u.reg_grantAll (a := R.SYS_STATE) (by decide) (by decide))
  generalize u.grantAll = w at hr2 hi2 ⊢
  exact ⟨(HoldRun.of_trans hr2).putB holdPart_part _ _ holdInfo_mem, hi2.of_reg (w.reg_put_ne (a := R.SAFE_HOLD_INFO) (b := R.SYS_STATE) _ _ (by decide))⟩

theorem FatalKept.gates (h : FrameOn gatePart gateRegs d e) (hk : EnaKept d e) : FatalKept d e := by
  refine ⟨(congrArg Dev.member h.1 :), (congrArg (fun u : Dev => u.sys.linkDead) h.1 :), h.reg gatePart_part (by decide) (by decide),
    fun p s hr => h.raised gatePart_part (fun hm => ?_) hr, hk.genP, hk.genM, fun g hg x _ hr =>
    (Dev.flag_of_reg (h.reg gatePart_part (eventReg_gdLstat hg) fun hm => ?_) _).trans hr⟩
  · exact pgEvtRaw_not_trans _ (gateRegs_trans hm)
  · obtain hm | hm | ⟨k, hk, hm⟩ := mem_gateRegs.1 hm <;> simp only [gdLstat, R.GDT_LSTAT, R.GDA_LSTAT, R.GDA_STAT, R.SAFE_GRANT, R.GDT_PINS] at hm <;>
      split at hm <;> omega

theorem FatalKept.dropAllP (d : Dev) : FatalKept d d.dropAllP :=
  .gates ((FrameOn.refl gatePart_part gateRegs d).gateDropP fun _ h => h) (.dropAllP d)

theorem FatalKept.dropAllM (d : Dev) : FatalKept d d.dropAllM :=
  .gates ((FrameOn.refl gatePart_part gateRegs d).gateDropM fun _ h => h) (.dropAllM d)

/-- Every output of the present groups released. -/
structure AllOff (d e : Dev) : Prop where
  genP : ∀ g < 20, groupPresent d.member g = true → e.genP g = false
  genM : ∀ g < 20, groupPresent d.member g = true → e.genM g = false
  rel : ∀ g < 20, groupPresent d.member g = true → ∀ x < 3, e.legReleased g x = true

theorem AllOff.kept (h : AllOff d e) (k : FatalKept e f) : AllOff d f :=
  ⟨fun g hg hp => k.genP g hg (h.genP g hg hp), fun g hg hp => k.genM g hg (h.genM g hg hp), fun g hg hp x hx => k.rel g hg x hx (h.rel g hg hp x hx)⟩

theorem Dev.fatalDrops_spec (d : Dev) : FatalKept d d.fatalDrops ∧ AllOff d d.fatalDrops := by
  have hP := d.dropAllP_low
  have kP := FatalKept.dropAllP d
  rw [Dev.fatalDrops]
  generalize d.dropAllP = u at hP kP ⊢
  have hM := u.dropAllM_low
  have kM := FatalKept.dropAllM u
  generalize u.dropAllM = w at hM kM ⊢
  obtain ⟨kR, hR⟩ := w.releaseAll_spec
  have hmem : w.member = d.member := kM.member.trans kP.member
  exact ⟨(kP.trans kM).trans kR, fun g hg hp => kR.genP g hg (kM.genP g hg (hP g hg hp)), fun g hg hp => kR.genM g hg (hM g hg (kP.member ▸ hp)),
    fun g hg hp => hR g hg (hmem ▸ hp)⟩

theorem Dev.ringClose_spec (d : Dev) : FatalKept d d.ringClose ∧ d.ringClose.inserted false = false ∧ d.ringClose.inserted true = false := by
  have h1 : FatalKept d (d.putB (R.RG_STAT 0) F.RG_STAT_INSERTED false) := .setReg (a := R.RG_STAT 0) d _ (by unfold offFatal; decide)
  have i1 := Dev.flag_putB_self d (R.RG_STAT 0) F.RG_STAT_INSERTED false (by decide) (by decide)
  have hreg : ∀ a, d.ringClose.reg a = ((d.putB (R.RG_STAT 0) F.RG_STAT_INSERTED false).putB (R.RG_STAT 1) F.RG_STAT_INSERTED false).reg a := fun _ => rfl
  have hsame : FatalKept ((d.putB (R.RG_STAT 0) F.RG_STAT_INSERTED false).putB (R.RG_STAT 1) F.RG_STAT_INSERTED false) d.ringClose :=
    .of_regs rfl rfl (fun _ _ h => h) fun _ _ _ => rfl
  generalize d.ringClose = e at hreg hsame ⊢
  generalize d.putB (R.RG_STAT 0) F.RG_STAT_INSERTED false = u at h1 i1 hreg hsame
  have h2 : FatalKept u (u.putB (R.RG_STAT 1) F.RG_STAT_INSERTED false) := .setReg (a := R.RG_STAT 1) u _ (by unfold offFatal; decide)
  have i2 := Dev.flag_putB_self u (R.RG_STAT 1) F.RG_STAT_INSERTED false (by decide) (by decide)
  refine ⟨(h1.trans h2).trans hsame, ?_, (Dev.flag_of_reg (hreg _) _).trans i2⟩
  exact (Dev.flag_of_reg ((hreg _).trans (u.reg_put_ne (a := R.RG_STAT 1) (b := R.RG_STAT 0) _ _ (by decide))) _).trans i1

/-- The recorder's freezing is nothing but an event. -/
theorem Dev.fatalRecorder_quiet (d : Dev) : Quiet d d.fatalRecorder := by
  rw [Dev.fatalRecorder]
  split
  · rw [Dev.frozenNow]
    have h0 : Quiet d { d with hamper := { d.hamper with freeze := false } } := Quiet.of_regs rfl fun _ => rfl
    have hput : ∀ (u : Dev) f v, Quiet u (u.putB R.REC_STAT f v) := fun u f v => Quiet.put u f _ (by decide) (by decide)
    exact ((h0.trans (hput _ _ _)).trans (hput _ _ _)).trans ((hput _ _ _).trans (Dev.raise_quiet _ _ _))
  · exact .refl d

theorem Dev.fatalDump_spec (d : Dev) {src : Nat} (hs : src < 256) (ran : Bool) {e : Dev} (he : d.fatalDump src ran = e) : FatalKept d e ∧ e.sys.dump = 1 ∧
    e.get R.DMP_STAT F.DMP_STAT_CAUSE = src ∧ e.get R.DMP_STAT F.DMP_STAT_NCAUSE = 1 ∧ ∀ b, e.inserted b = d.inserted b := by
  have hq := d.fatalRecorder_quiet
  have hreg : ∀ a, e.reg a = (d.fatalCause src).reg a := fun a => he ▸ rfl
  have hsame : FatalKept (d.fatalCause src) e := he ▸ .of_regs rfl rfl (fun _ _ h => h) fun _ _ _ => rfl
  have hdump : e.sys.dump = 1 := he ▸ rfl
  clear he
  rw [Dev.fatalCause] at hreg hsame
  generalize d.fatalRecorder = u at hq hreg hsame
  have h1 : FatalKept u (u.put R.DMP_STAT F.DMP_STAT_CAUSE src) := .setReg (a := R.DMP_STAT) u _ (by unfold offFatal; decide)
  have c1 := (u.get_put_self R.DMP_STAT F.DMP_STAT_CAUSE src (by decide)).trans (Nat.mod_eq_of_lt hs)
  have r1 : ∀ a, a ≠ R.DMP_STAT → (u.put R.DMP_STAT F.DMP_STAT_CAUSE src).reg a = u.reg a := fun a ha => u.reg_put_ne _ _ ha
  generalize u.put R.DMP_STAT F.DMP_STAT_CAUSE src = w at h1 c1 r1 hreg hsame
  have h2 : FatalKept w (w.put R.DMP_STAT F.DMP_STAT_NCAUSE 1) := .setReg (a := R.DMP_STAT) w _ (by unfold offFatal; decide)
  refine ⟨(((FatalKept.of_quiet hq).trans h1).trans h2).trans hsame, hdump, ?_, ?_, fun b => ?_⟩
  · exact (Dev.get_of_reg (hreg _) _).trans ((Dev.get_put_field w _ _ _ _ _ (by decide)).trans c1)
  · exact (Dev.get_of_reg (hreg _) _).trans (w.get_put_self R.DMP_STAT F.DMP_STAT_NCAUSE 1 (by decide))
  · have hne : R.RG_STAT (ringIx b) ≠ R.DMP_STAT := by cases b <;> decide
    have hev : eventReg (R.RG_STAT (ringIx b)) = false := by cases b <;> decide
    exact Dev.flag_of_reg ((hreg _).trans ((w.reg_put_ne _ _ hne).trans ((r1 _ hne).trans (hq.reg hev)))) _

theorem HoldRun.member (h : HoldRun d e) : e.member = d.member := (congrArg Dev.member h.1 :)
theorem HoldRun.linkDead (h : HoldRun d e) : e.sys.linkDead = d.sys.linkDead := (congrArg (fun u : Dev => u.sys.linkDead) h.1 :)

/-- The entry into FATAL. -/
theorem Dev.enterFatal_spec (hup : d.devState ≠ DS.RESET) (hf : d.devState ≠ DS.FATAL) (hlive : d.replaying = false) {page src : Nat} (hs : src < 256)
    (hpg : pagePresent d.member page = true) {e : Dev} (he : d.enterFatal page src = e) : Fatal d e page src ∧
    e.sys.linkDead = d.sys.linkDead ∧ e.flag R.SYS_STATE F.SYS_STATE_LINK_OK = d.flag R.SYS_STATE F.SYS_STATE_LINK_OK := by
  rw [Dev.enterFatal_eq hup hf] at he
  have hq := d.raise_quiet page src
  have hr := d.raise_raised (src := src) hpg
  generalize d.raise page src = u at hq hr he
  have hlu : u.replaying = false := (hq.flag (by decide) _).trans hlive
  have hst : u.devState = d.devState := hq.get (by decide) _
  have hnow : u.now = d.now := hq.now
  have htr : u.trans = d.trans := hq.transSt
  rw [u.fatalReplay_live hlu] at he
  obtain ⟨hrun, his⟩ := u.fatalGone_spec (hst ▸ hf) hs
  have hr2 := hrun.told hr
  have hmem : (u.fatalGone src).member = d.member := (HoldRun.member hrun).trans (congrArg Dev.member hq.1 :)
  have hdead : (u.fatalGone src).sys.linkDead = d.sys.linkDead :=
    (HoldRun.linkDead hrun).trans (congrArg (fun u : Dev => u.sys.linkDead) hq.1 :)
  generalize u.fatalGone src = w at his hr2 hmem hdead he
  obtain ⟨k1, hoff⟩ := w.fatalDrops_spec
  generalize w.fatalDrops = x at k1 hoff he
  obtain ⟨k2, hA, hB⟩ := x.ringClose_spec
  generalize x.ringClose = y at k2 hA hB he
  obtain ⟨k3, hdump, hcause, hn, hins⟩ := y.fatalDump_spec hs _ he
  have k := (k1.trans k2).trans k3
  have hie := his.of_reg k.state
  have hoff := hoff.kept (k2.trans k3)
  refine ⟨⟨hie.state, fun ht => ?_, k.told _ _ hr2, fun g hg hp => ?_, (hins false).trans hA, (hins true).trans hB, hdump, hcause, hn⟩, k.dead.trans hdead, ?_⟩
  · rw [hie.prev, htr, hnow, if_neg ht, hst]
    exact Nat.mod_eq_of_lt (getF_lt (d.reg R.SYS_STATE) F.SYS_STATE_STATE)
  · have hp := hmem ▸ hp
    exact ⟨hoff.genP g hg hp, hoff.genM g hg hp, hoff.rel g hg hp⟩
  · rw [hie.link, hq.reg (by decide)]
    rfl

end
end Sys2Proof.Machine
end

section
/-! PROOFS. Further causes in FATAL, the link's frames and failure, and the obligation about the faults of link and channels (R35 to R38, R53, R480). -/

namespace Sys2Proof.Machine

section
variable {d e f : Dev}

/-! ### A further cause in FATAL (R53, R467) -/

/-- The number of causes counted while the dump runs. -/
def Dev.fatalCounted (d : Dev) : Dev := if d.sys.dump = 1 ∨ d.sys.dump = 2 then d.bump R.DMP_STAT F.DMP_STAT_NCAUSE else d

/-- A lower cause of the tick of the entry. -/
def Dev.fatalSame (d : Dev) (src : Nat) : Dev := if src < d.get R.SYS_STATE F.SYS_STATE_CAUSE then d.put R.SYS_STATE F.SYS_STATE_CAUSE src else d

theorem Dev.setState_fatal (ht : d.trans.at1 = d.now + 1) (hf : d.devState = DS.FATAL) (src : Nat) : d.setState DS.FATAL src true = d.fatalSame src := by
  rw [Dev.setState, if_pos ht, if_neg (by rw [hf]; exact lt_irrefl _), if_pos hf.symm, Dev.fatalSame]
  simp only [Bool.true_and, decide_eq_true_eq]

theorem Dev.fatalAgain_late (ht : d.trans.at1 ≠ d.now + 1) (page src : Nat) : d.fatalAgain page src = (d.raise page src).fatalCounted := by
  have hq := d.raise_quiet page src
  rw [Dev.fatalAgain]
  generalize d.raise page src = u at hq ⊢
  have ht' : ¬u.trans.at1 = u.now + 1 := by rw [hq.transSt, hq.now]; exact ht
  rw [if_neg ht']
  rfl

theorem Dev.fatalAgain_first (ht : d.trans.at1 = d.now + 1) (hf : d.devState = DS.FATAL) (page src : Nat) :
    d.fatalAgain page src = (((d.raise page src).fatalSame src).fatalFirst).fatalCounted := by
  have hq := d.raise_quiet page src
  rw [Dev.fatalAgain]
  generalize d.raise page src = u at hq ⊢
  have ht' : u.trans.at1 = u.now + 1 := by rw [hq.transSt, hq.now]; exact ht
  rw [if_pos ht', Dev.setState_fatal ht' ((hq.get (by decide) _).trans hf)]
  rfl

/-- The state of the system parts, but for the writes of the present cycle. -/
def sysPart (d e : Dev) : Dev := { d with sys := { e.sys with cyc := d.sys.cyc } }

theorem sysPart_part : Part sysPart := ⟨fun _ => rfl, fun _ _ _ => rfl, fun _ _ => rfl, fun _ _ _ => rfl⟩

theorem Dev.fatalCounted_frame (d : Dev) : FrameOn noPart [R.DMP_STAT] d d.fatalCounted :=
  FrameOn.ite (fun _ => (FrameOn.refl noPart_part _ d).bump noPart_part _ (List.mem_singleton_self _)) fun _ => FrameOn.refl noPart_part _ d

theorem Dev.fatalCounted_counted (h : d.sys.dump = 1 ∨ d.sys.dump = 2) : Counted d d.fatalCounted R.DMP_STAT F.DMP_STAT_NCAUSE ∧
    d.fatalCounted.get R.DMP_STAT F.DMP_STAT_CAUSE = d.get R.DMP_STAT F.DMP_STAT_CAUSE := by
  rw [Dev.fatalCounted, if_pos h]
  exact ⟨d.bump_counted _ _ (by decide), Dev.get_put_field d _ _ _ _ _ (by decide)⟩

theorem Dev.fatalSame_spec (d : Dev) {src : Nat} (hs : src < 256) : FrameOn noPart [R.SYS_STATE] d (d.fatalSame src) ∧
    (d.fatalSame src).get R.SYS_STATE F.SYS_STATE_CAUSE = min (d.get R.SYS_STATE F.SYS_STATE_CAUSE) src ∧
    ∀ f : RField, F.SYS_STATE_CAUSE.lo + fieldWidth F.SYS_STATE_CAUSE ≤ f.lo ∨ f.lo + fieldWidth f ≤ F.SYS_STATE_CAUSE.lo →
      (d.fatalSame src).get R.SYS_STATE f = d.get R.SYS_STATE f := by
  rw [Dev.fatalSame]
  split
  · next h =>
    refine ⟨(FrameOn.refl noPart_part _ d).put noPart_part _ _ (List.mem_singleton_self _), ?_, fun f hf => Dev.get_put_field d _ _ _ _ _ hf⟩
    rw [d.get_put_self _ _ _ (by decide), Nat.min_eq_right h.le]
    exact Nat.mod_eq_of_lt hs
  · next h => exact ⟨FrameOn.refl noPart_part _ d, (Nat.min_eq_left (Nat.not_lt.1 h)).symm, fun _ _ => rfl⟩

theorem Dev.fatalFirst_spec (d : Dev) : FrameOn sysPart [R.DMP_STAT] d d.fatalFirst ∧ d.fatalFirst.sys.dump = d.sys.dump ∧
    d.fatalFirst.sys.linkDead = d.sys.linkDead ∧ d.fatalFirst.get R.DMP_STAT F.DMP_STAT_CAUSE = d.get R.SYS_STATE F.SYS_STATE_CAUSE ∧
    d.fatalFirst.get R.DMP_STAT F.DMP_STAT_NCAUSE = d.get R.DMP_STAT F.DMP_STAT_NCAUSE := by
  have hc : d.get R.SYS_STATE F.SYS_STATE_CAUSE < 256 := getF_lt (d.reg R.SYS_STATE) F.SYS_STATE_CAUSE
  have hf := FrameOn.put sysPart_part (FrameOn.refl sysPart_part [R.DMP_STAT] d) F.DMP_STAT_CAUSE (d.get R.SYS_STATE F.SYS_STATE_CAUSE) (List.mem_singleton_self _)
  have hs : (d.put R.DMP_STAT F.DMP_STAT_CAUSE (d.get R.SYS_STATE F.SYS_STATE_CAUSE)).sys = d.sys := d.put_sys _ _ _
  have h1 := (d.get_put_self R.DMP_STAT F.DMP_STAT_CAUSE _ (by decide)).trans (Nat.mod_eq_of_lt hc)
  have h2 := Dev.get_put_field d R.DMP_STAT R.DMP_STAT F.DMP_STAT_CAUSE F.DMP_STAT_NCAUSE (d.get R.SYS_STATE F.SYS_STATE_CAUSE) (by decide)
  rw [Dev.fatalFirst]
  dsimp only
  generalize d.put R.DMP_STAT F.DMP_STAT_CAUSE (d.get R.SYS_STATE F.SYS_STATE_CAUSE) = u at hf hs h1 h2 ⊢
  exact ⟨hf.part sysPart_part rfl fun _ => rfl, congrArg SysSt.dump hs, congrArg SysSt.linkDead hs, h1, h2⟩

/-- What a further cause brings in the tick of the entry. -/
theorem Dev.fatalAgain_firstSpec (ht : d.trans.at1 = d.now + 1) (hf : d.devState = DS.FATAL) (page : Nat) {src : Nat} (hs : src < 256)
    (hpg : pagePresent d.member page = true) {e : Dev} (he : d.fatalAgain page src = e) :
    FrameOn sysPart [R.DMP_STAT, R.SYS_STATE] d e ∧ e.sys.linkDead = d.sys.linkDead ∧ Raised e page src ∧
      e.get R.SYS_STATE F.SYS_STATE_CAUSE = min (d.get R.SYS_STATE F.SYS_STATE_CAUSE) src ∧ e.devState = d.devState ∧
      e.flag R.SYS_STATE F.SYS_STATE_LINK_OK = d.flag R.SYS_STATE F.SYS_STATE_LINK_OK ∧
      (d.sys.dump = 1 ∨ d.sys.dump = 2 → Counted d e R.DMP_STAT F.DMP_STAT_NCAUSE ∧
        e.get R.DMP_STAT F.DMP_STAT_CAUSE = e.get R.SYS_STATE F.SYS_STATE_CAUSE) := by
  rw [Dev.fatalAgain_first ht hf] at he
  have hq := d.raise_quiet page src
  have hr := d.raise_raised (src := src) hpg
  generalize d.raise page src = u at hq hr he
  obtain ⟨f1, c1, k1⟩ := u.fatalSame_spec hs
  generalize u.fatalSame src = v at f1 c1 k1 he
  obtain ⟨f2, hdump, hdead, c2, n2⟩ := v.fatalFirst_spec
  generalize v.fatalFirst = w at f2 hdump hdead c2 n2 he
  have f3 := w.fatalCounted_frame
  have h3 := w.fatalCounted_counted
  rw [he] at f3 h3
  have hm1 : R.SYS_STATE ∈ [R.DMP_STAT, R.SYS_STATE] := by decide
  have hm2 : ∀ a ∈ [R.DMP_STAT], a ∈ [R.DMP_STAT, R.SYS_STATE] := by decide
  have hw : FrameOn sysPart [R.DMP_STAT, R.SYS_STATE] u w := FrameOn.trans sysPart_part
    (f1.widen noPart_part sysPart_part (fun _ _ => rfl) (fun a ha => List.mem_singleton.1 ha ▸ hm1)) (f2.widen sysPart_part sysPart_part (fun _ _ => rfl) hm2)
  have hall := FrameOn.trans sysPart_part (FrameOn.trans sysPart_part (FrameOn.of_quiet sysPart_part _ hq) hw) (f3.widen noPart_part sysPart_part (fun _ _ => rfl) hm2)
  have hstate : e.reg R.SYS_STATE = v.reg R.SYS_STATE := (f3.reg noPart_part (by decide) (by decide)).trans (f2.reg sysPart_part (by decide) (by decide))
  have hu : u.reg R.SYS_STATE = d.reg R.SYS_STATE := hq.reg (by decide)
  have hdmp : v.reg R.DMP_STAT = d.reg R.DMP_STAT := (f1.reg noPart_part (by decide) (by decide)).trans (hq.reg (by decide))
  have hsys : w.sys.dump = d.sys.dump ∧ w.sys.linkDead = d.sys.linkDead := by
    have h1 : v.sys.dump = u.sys.dump := (congrArg (fun u : Dev => u.sys.dump) f1.1 :)
    have h2 : v.sys.linkDead = u.sys.linkDead := (congrArg (fun u : Dev => u.sys.linkDead) f1.1 :)
    exact ⟨hdump.trans (h1.trans (congrArg (fun u : Dev => u.sys.dump) hq.1 :)), hdead.trans (h2.trans (congrArg (fun u : Dev => u.sys.linkDead) hq.1 :))⟩
  refine ⟨hall, ((congrArg (fun u : Dev => u.sys.linkDead) f3.1 :).trans hsys.2), ?_, ?_, ?_, ?_, fun hd => ?_⟩
  · exact (f3.raised noPart_part (by simp [R.PG_EVT_RAW, pageBase, R.DMP_STAT]; omega) (hw.raised sysPart_part (by simp [R.PG_EVT_RAW, pageBase, R.DMP_STAT, R.SYS_STATE]; omega) hr))
  · rw [Dev.get_of_reg hstate, c1, Dev.get_of_reg hu]
  · rw [Dev.devState, Dev.get_of_reg hstate, k1 _ (by decide), Dev.get_of_reg hu]
    rfl
  · rw [Dev.flag, Dev.get_of_reg hstate, k1 _ (by decide), Dev.get_of_reg hu]
    rfl
  · obtain ⟨hc, hk⟩ := h3 (hsys.1 ▸ hd)
    refine ⟨?_, ?_⟩
    · rw [Counted] at hc ⊢
      rw [hc, n2, Dev.get_of_reg hdmp]
    · rw [hk, c2, Dev.get_of_reg hstate]

/-! ### The link's failure (R36) -/

/-- Another device before an entry, alike in what the entry looks at. -/
theorem Fatal.base {page src : Nat} (h : Fatal f e page src) (hst : f.devState = d.devState) (ht : f.trans = d.trans) (hn : f.now = d.now)
    (hm : f.member = d.member) : Fatal d e page src := by
  obtain ⟨h1, h2, h3, h4, h5, h6, h7, h8, h9⟩ := h
  refine ⟨h1, fun hx => (h2 (by rw [ht, hn]; exact hx)).trans hst, h3, fun g hg hp => h4 g hg (hm ▸ hp), h5, h6, h7, h8, h9⟩

/-- The link shown as failed. -/
def Dev.linkDown (d : Dev) : Dev := ({ d with sys := { d.sys with linkDead := true } } : Dev).putB R.SYS_STATE F.SYS_STATE_LINK_OK false

theorem Dev.linkFail_eq (h : d.sys.linkDead = false) : d.linkFail = d.linkDown.enterFatal Pg.SYS Ev.LINK_FAIL := by
  rw [Dev.linkFail, h, if_neg Bool.false_ne_true]
  rfl

/-- What a failed link brings (R36). -/
structure LinkFailed (d e : Dev) : Prop where
  fatal : d.devState ≠ DS.FATAL → Fatal d e Pg.SYS Ev.LINK_FAIL
  ok : e.flag R.SYS_STATE F.SYS_STATE_LINK_OK = false
  dead : e.sys.linkDead = true
  state : e.devState = DS.FATAL
  raised : Raised e Pg.SYS Ev.LINK_FAIL

theorem LinkFailed.base (h : LinkFailed f e) (hst : f.devState = d.devState) (ht : f.trans = d.trans) (hn : f.now = d.now) (hm : f.member = d.member) :
    LinkFailed d e := ⟨fun hf => (h.fatal (hst ▸ hf)).base hst ht hn hm, h.ok, h.dead, h.state, h.raised⟩

/-- A failure in FATAL. -/
theorem Dev.fatalAgain_failed (hf : d.devState = DS.FATAL) (hok : d.flag R.SYS_STATE F.SYS_STATE_LINK_OK = false) (hd : d.sys.linkDead = true)
    {e : Dev} (he : d.fatalAgain Pg.SYS Ev.LINK_FAIL = e) : LinkFailed d e := by
  by_cases ht : d.trans.at1 = d.now + 1
  · obtain ⟨-, hdead, hr, -, hst, hl, -⟩ := Dev.fatalAgain_firstSpec ht hf Pg.SYS (src := Ev.LINK_FAIL) (by decide) rfl he
    exact ⟨fun h => absurd hf h, hl.trans hok, hdead.trans hd, hst.trans hf, hr⟩
  · rw [Dev.fatalAgain_late ht] at he
    have hq := d.raise_quiet Pg.SYS Ev.LINK_FAIL
    have hr := d.raise_raised (page := Pg.SYS) (src := Ev.LINK_FAIL) rfl
    generalize d.raise Pg.SYS Ev.LINK_FAIL = u at hq hr he
    have hc := u.fatalCounted_frame
    rw [he] at hc
    have hreg : e.reg R.SYS_STATE = d.reg R.SYS_STATE := (hc.reg noPart_part (by decide) (by decide)).trans (hq.reg (by decide))
    have hdead : e.sys.linkDead = u.sys.linkDead := (congrArg (fun u : Dev => u.sys.linkDead) hc.1 :)
    exact ⟨fun h => absurd hf h, (Dev.flag_of_reg hreg _).trans hok, hdead.trans ((congrArg (fun u : Dev => u.sys.linkDead) hq.1 :).trans hd),
      (Dev.get_of_reg hreg _).trans hf, hc.raised noPart_part (by decide) hr⟩

theorem Dev.linkFail_failed (hup : d.devState ≠ DS.RESET) (hlive : d.replaying = false) (h0 : d.sys.linkDead = false) {e : Dev} (he : d.linkFail = e) :
    LinkFailed d e := by
  rw [Dev.linkFail_eq h0] at he
  have hdead : d.linkDown.sys.linkDead = true := congrArg SysSt.linkDead (Dev.put_sys { d with sys := { d.sys with linkDead := true } } _ _ _)
  have hok : d.linkDown.flag R.SYS_STATE F.SYS_STATE_LINK_OK = false := Dev.flag_putB_self { d with sys := { d.sys with linkDead := true } } _ _ _ rfl (by decide)
  have hst : d.linkDown.devState = d.devState :=
    Dev.get_put_field { d with sys := { d.sys with linkDead := true } } R.SYS_STATE R.SYS_STATE F.SYS_STATE_LINK_OK F.SYS_STATE_STATE _ (by decide)
  have hl : d.linkDown.replaying = d.replaying :=
    Dev.flag_of_reg (Dev.reg_put_ne { d with sys := { d.sys with linkDead := true } } (a := R.SYS_STATE) (b := R.RPL_STAT) F.SYS_STATE_LINK_OK _ (by decide)) _
  have ht : d.linkDown.trans = d.trans := Dev.put_trans { d with sys := { d.sys with linkDead := true } } _ _ _
  have hm : d.linkDown.member = d.member := Dev.put_member { d with sys := { d.sys with linkDead := true } } _ _ _
  have hn : d.linkDown.now = d.now := rfl
  generalize d.linkDown = u at hdead hok hst hl ht hm hn he
  refine LinkFailed.base ?_ hst ht hn hm
  by_cases hf : u.devState = DS.FATAL
  · rw [Dev.enterFatal, if_neg (by rw [hst]; exact hup), if_pos hf] at he
    exact Dev.fatalAgain_failed hf hok hdead he
  · obtain ⟨hF, hd, hk⟩ := Dev.enterFatal_spec (hst ▸ hup) hf (hl.trans hlive) (page := Pg.SYS) (src := Ev.LINK_FAIL) (by decide) rfl he
    exact ⟨fun _ => hF, hk.trans hok, hd.trans hdead, hF.1, hF.2.2.1⟩

/-! ### Frames of the link (R35) -/

theorem Dev.linkFrame_bad (h : d.sys.linkDead = false) : d.linkFrame .uncorrectable =
    if 3 ≤ (d.dropFrame.raise Pg.SYS Ev.LINK_ERR).sys.drops then (d.dropFrame.raise Pg.SYS Ev.LINK_ERR).linkFail else d.dropFrame.raise Pg.SYS Ev.LINK_ERR := by
  rw [Dev.linkFrame, h, if_neg Bool.false_ne_true]

theorem Dev.linkFrame_good (h : d.sys.linkDead = false) {r : EccErr} (hr : r ≠ .uncorrectable) : d.linkFrame r =
    ({ d with sys := { d.sys with drops := 0 } } : Dev).putB R.SYS_STATE F.SYS_STATE_LINK_OK true := by
  have hn := Bool.eq_false_iff.1 h
  cases r with
  | uncorrectable => exact absurd rfl hr
  | ok => exact if_neg hn
  | corrected => exact if_neg hn

theorem Dev.linkFrame_dead (h : d.sys.linkDead = true) (r : EccErr) : d.linkFrame r = d := if_pos h
theorem Dev.linkFail_dead (h : d.sys.linkDead = true) : d.linkFail = d := if_pos h

theorem Dev.linkFrame_third (hup : d.devState ≠ DS.RESET) (hlive : d.replaying = false) (h0 : d.sys.linkDead = false) (h2 : 2 ≤ d.sys.drops) {e : Dev}
    (he : d.linkFrame .uncorrectable = e) : LinkFailed d e := by
  rw [Dev.linkFrame_bad h0] at he
  have hq := d.dropFrame.raise_quiet Pg.SYS Ev.LINK_ERR
  generalize d.dropFrame.raise Pg.SYS Ev.LINK_ERR = u at hq he
  have hst : u.devState = d.devState := hq.get (by decide) _
  have hdrops : u.sys.drops = d.sys.drops + 1 := (congrArg (fun u : Dev => u.sys.drops) hq.1 :)
  rw [if_pos (by omega)] at he
  exact (Dev.linkFail_failed (hst ▸ hup) ((hq.flag (a := R.RPL_STAT) (by decide) _).trans hlive) ((congrArg (fun u : Dev => u.sys.linkDead) hq.1 :).trans h0) he).base
    hst hq.transSt hq.now (congrArg Dev.member hq.1 :)

/-! ### A channel's clock or supply (R38) -/

theorem ChanFell.base {ch : Channel} (h : ChanFell f e ch) (hm : f.member = d.member) (hs : f.safe = d.safe) : ChanFell d e ch := by
  obtain ⟨hl, hp, hmm⟩ := h
  refine ⟨.congr hm hl, fun hc => ?_, fun hc => ?_⟩
  · rw [← hs]
    exact hp hc
  · rw [← hs]
    exact hmm hc

/-- Shown in a register or not, a channel's enables fall. -/
theorem Dev.shownFalls {l : List Nat} {u : Dev} (h : FrameOn noPart l d u) (ch : Channel) :
    FrameOn gatePart (l ++ gateRegs) d (u.keeperFalls ch) ∧ ChanFell d (u.keeperFalls ch) ch :=
  ⟨(h.widen noPart_part gatePart_part (fun _ _ => rfl) fun _ ha => List.mem_append_left _ ha).keeperFalls (fun _ ha => List.mem_append_right _ ha) ch,
    (u.keeperFalls_fell ch).base (congrArg Dev.member h.1 :) (congrArg Dev.safe h.1 :)⟩

theorem Dev.keeperFalls_reg (d : Dev) (ch : Channel) {a : Nat} (he : eventReg a = false) (ha : a ∉ gateRegs) : (d.keeperFalls ch).reg a = d.reg a :=
  ((FrameOn.refl gatePart_part gateRegs d).keeperFalls (fun _ h => h) ch).reg gatePart_part he ha

theorem Dev.supplyFault_spec (d : Dev) (ch : Channel) : FrameOn gatePart ([R.PWR_STAT] ++ gateRegs) d (d.supplyFault ch) ∧ ChanFell d (d.supplyFault ch) ch ∧
    (d.supplyFault ch).flag R.PWR_STAT (chanField ch F.PWR_STAT_P_OK F.PWR_STAT_M_OK) = false := by
  have hf : FrameOn noPart [R.PWR_STAT] d (d.putB R.PWR_STAT (chanField ch F.PWR_STAT_P_OK F.PWR_STAT_M_OK) false) :=
    (FrameOn.refl noPart_part _ d).putB noPart_part _ _ (List.mem_singleton_self _)
  have hflag := Dev.flag_putB_self d R.PWR_STAT (chanField ch F.PWR_STAT_P_OK F.PWR_STAT_M_OK) false (by cases ch <;> decide) (by cases ch <;> decide)
  rw [Dev.supplyFault]
  generalize d.putB R.PWR_STAT (chanField ch F.PWR_STAT_P_OK F.PWR_STAT_M_OK) false = u at hf hflag ⊢
  obtain ⟨h1, h2⟩ := Dev.shownFalls hf ch
  exact ⟨h1, h2, (Dev.flag_of_reg (u.keeperFalls_reg ch (by decide) (by decide)) _).trans hflag⟩

theorem Dev.pllUnlock_spec (d : Dev) (ch : Channel) : FrameOn gatePart ([R.CLK_STAT] ++ gateRegs) d (d.pllUnlock ch) ∧ ChanFell d (d.pllUnlock ch) ch ∧
    (d.pllUnlock ch).flag R.CLK_STAT (chanField ch F.CLK_STAT_PLL_P F.CLK_STAT_PLL_M) = false ∧ Raised (d.pllUnlock ch) Pg.CLK Ev.PLL_UNLOCK := by
  have hf : FrameOn noPart [R.CLK_STAT] d (d.putB R.CLK_STAT (chanField ch F.CLK_STAT_PLL_P F.CLK_STAT_PLL_M) false) :=
    (FrameOn.refl noPart_part _ d).putB noPart_part _ _ (List.mem_singleton_self _)
  have hflag := Dev.flag_putB_self d R.CLK_STAT (chanField ch F.CLK_STAT_PLL_P F.CLK_STAT_PLL_M) false (by cases ch <;> decide) (by cases ch <;> decide)
  rw [Dev.pllUnlock]
  generalize d.putB R.CLK_STAT (chanField ch F.CLK_STAT_PLL_P F.CLK_STAT_PLL_M) false = v at hf hflag ⊢
  have hq := v.raise_quiet Pg.CLK Ev.PLL_UNLOCK
  have hr := v.raise_raised (page := Pg.CLK) (src := Ev.PLL_UNLOCK) rfl
  generalize v.raise Pg.CLK Ev.PLL_UNLOCK = u at hq hr ⊢
  obtain ⟨h1, h2⟩ := Dev.shownFalls (hf.quiet noPart_part hq) ch
  exact ⟨h1, h2, (Dev.flag_of_reg (u.keeperFalls_reg ch (by decide) (by decide)) _).trans ((hq.flag (by decide) _).trans hflag), (HoldRun.fell u ch).told hr⟩

/-- A further cause after the tick of the entry. -/
theorem Dev.fatalAgain_lateSpec (ht : d.trans.at1 ≠ d.now + 1) (page src : Nat) (hd : d.sys.dump = 1 ∨ d.sys.dump = 2) :
    Frame d (d.fatalAgain page src) [R.DMP_STAT] ∧ Counted d (d.fatalAgain page src) R.DMP_STAT F.DMP_STAT_NCAUSE := by
  have hq := d.raise_quiet page src
  rw [Dev.fatalAgain_late ht]
  generalize d.raise page src = u at hq ⊢
  have hdump : u.sys.dump = d.sys.dump := (congrArg (fun u : Dev => u.sys.dump) hq.1 :)
  exact ⟨(FrameOn.of_quiet noPart_part _ hq).trans noPart_part u.fatalCounted_frame, (Dev.fatalCounted_counted (hdump ▸ hd)).1.base (hq.reg (by decide))⟩

theorem Dev.enterFatal_again (hup : d.devState ≠ DS.RESET) (hf : d.devState = DS.FATAL) (page src : Nat) : d.enterFatal page src = d.fatalAgain page src := by
  rw [Dev.enterFatal, if_neg hup, if_pos hf]

end

/-- Settles O57. -/
theorem linkAndChannelFaults : Obligations.LinkAndChannelFaults := by
  intro s ⟨hup, hlive⟩
  have hparts : ∀ (e : Dev) (l : List Nat), FrameOn gatePart (l ++ gateRegs) s.dev e → Frame { s.dev with safe := e.safe, grp := e.grp } e
      (l ++ [R.GDA_STAT, R.SAFE_GRANT] ++ (List.range 12).map R.GDT_PINS) := fun e l h => by
    rw [List.append_assoc]
    exact h
  have hfails : ∀ e, LinkFailed s.dev e → (s.dev.devState ≠ DS.FATAL → Fatal s.dev e Pg.SYS Ev.LINK_FAIL) ∧
      e.flag R.SYS_STATE F.SYS_STATE_LINK_OK = false ∧ e.sys.linkDead = true ∧ e.devState = DS.FATAL ∧ Raised e Pg.SYS Ev.LINK_FAIL :=
    fun e ⟨h1, h2, h3, h4, h5⟩ => ⟨h1, h2, h3, h4, h5⟩
  have hlow : ∀ ch e, ChanFell s.dev e ch → ChanLow s.dev e ch ∧ (match ch with
      | .p => e.safe.deadP = true ∧ e.safe.deadM = s.dev.safe.deadM
      | .m => e.safe.deadM = true ∧ e.safe.deadP = s.dev.safe.deadP ∧ e.get R.SAFE_GRANT F.SAFE_GRANT_GENM = 0) := fun ch e h => by
    cases ch with
    | p => exact ⟨h.low, h.p rfl⟩
    | m => exact ⟨h.low, h.m rfl⟩
  refine ⟨fun h0 => ⟨fun r hr => ?_, fun h2 => ?_, fun h2 => ?_, ?_⟩, fun hd => ⟨fun r => onDev_same hup (Dev.linkFrame_dead hd r),
    onDev_same hup (Dev.linkFail_dead hd)⟩, fun hf ch => ?_, fun hf ch hdump => ⟨fun ht => ?_, fun ht => ?_⟩, fun ch => ⟨?_, ?_, ?_, ?_⟩⟩
  · refine ⟨_, onDev_eq hup (Dev.linkFrame_good h0 hr), (FrameOn.refl noPart_part _ _).putB noPart_part _ _ (List.mem_singleton_self _),
      Dev.flag_putB_self { s.dev with sys := { s.dev.sys with drops := 0 } } _ _ _ rfl (by decide), ?_⟩
    exact Dev.get_put_field { s.dev with sys := { s.dev.sys with drops := 0 } } R.SYS_STATE R.SYS_STATE F.SYS_STATE_LINK_OK F.SYS_STATE_STATE _ (by decide)
  · have hq := s.dev.dropFrame.raise_quiet Pg.SYS Ev.LINK_ERR
    have hdrops : (s.dev.dropFrame.raise Pg.SYS Ev.LINK_ERR).sys.drops = s.dev.sys.drops + 1 := (congrArg (fun u : Dev => u.sys.drops) hq.1 :)
    exact ⟨_, onDev_eq hup ((Dev.linkFrame_bad h0).trans (if_neg (by omega))), hq, Dev.raise_raised _ rfl⟩
  · exact ⟨_, onDev_eq hup rfl, hfails _ (Dev.linkFrame_third hup hlive h0 h2 rfl)⟩
  · exact ⟨_, onDev_eq hup rfl, hfails _ (Dev.linkFail_failed hup hlive h0 rfl)⟩
  · exact ⟨_, onDev_eq hup rfl, (Dev.enterFatal_spec hup hf hlive (by decide) rfl rfl).1⟩
  · exact ⟨_, onDev_eq hup (Dev.enterFatal_again hup hf _ _), Dev.fatalAgain_lateSpec ht _ _ hdump⟩
  · obtain ⟨h1, -, -, h4, -, -, h7⟩ := Dev.fatalAgain_firstSpec ht hf Pg.SYS (src := Ev.SRAM_UNCORR) (by decide) rfl rfl
    exact ⟨_, onDev_eq hup (Dev.enterFatal_again hup hf _ _), h1, (h7 hdump).1, h4, (h7 hdump).2⟩
  · exact ⟨_, onDev_eq hup rfl, s.dev.raise_quiet _ _, s.dev.raise_raised rfl⟩
  · obtain ⟨h1, h2⟩ := Dev.shownFalls (FrameOn.refl noPart_part [] s.dev) ch
    exact ⟨_, onDev_eq hup rfl, hparts _ [] h1, hlow ch _ h2⟩
  · obtain ⟨h1, h2, h3⟩ := s.dev.supplyFault_spec ch
    exact ⟨_, onDev_eq hup rfl, hparts _ _ h1, hlow ch _ h2, h3⟩
  · obtain ⟨h1, h2, h3, h4⟩ := s.dev.pllUnlock_spec ch
    exact ⟨_, onDev_eq hup rfl, hparts _ _ h1, hlow ch _ h2, h3, h4⟩

end Sys2Proof.Machine
end

section
/-! PROOFS. Channel M's entries: the grant, and how an entry's STO is latched (R355, R362, R364, R386). -/

namespace Sys2Proof.Machine

/-! ### The grant of an entry and of a group (R355) -/

theorem foldl_bitWord (l : List Nat) (w : Word) {m : Nat} (hm : m < 32) :
    bitOf (l.foldl (fun (w : Word) m => w ||| bitWord m) w) m = (bitOf w m || l.contains m) := by
  induction l generalizing w with
  | nil => simp
  | cons x l ih =>
    rw [List.foldl_cons, ih, bitOf_or, bitOf_eq (bitWord x), bitWord_bit x m hm, List.contains_cons, Bool.or_assoc]
    congr 2
    by_cases h : x = m
    · simp [h]
    · simp [h, Ne.symm h]

theorem bitOf_setF_low (w : Word) {f : RField} (hlo : f.lo = 0) (v : Word) {m : Nat} (hm : m < fieldWidth f) (h32 : m < 32) :
    bitOf (setF w f v.toNat) m = bitOf v m := by
  rw [bitOf_eq, bitOf_eq, setF_bit _ _ _ _ h32, hlo]
  simp [hm, BitVec.getLsbD]

theorem mem_entriesThat {p : Nat → Bool} {m : Nat} : m ∈ entriesThat p ↔ m < 20 ∧ p m = true := by
  rw [entriesThat, List.mem_filter, List.mem_range]

section
variable {d e f : Dev} {m : Nat}

/-- An entry's grant as the grant's computation leaves it. -/
theorem Dev.grantAll_granted (d : Dev) (hm : m < 20) : d.grantAll.granted m = d.grantOk m := by
  have h1 : d.grantAll.reg R.SAFE_GRANT = (d.put R.SAFE_GRANT F.SAFE_GRANT_GENM ((entriesThat d.grantOk).foldl (fun (w : Word) m => w ||| bitWord m) 0).toNat).reg R.SAFE_GRANT :=
    forN_keeps (P := fun e : Dev => e.reg R.SAFE_GRANT = _) 20 (fun g hg e he => (e.reg_setGenM _ (by simp only [R.GDT_PINS, R.SAFE_GRANT]; omega) (by decide)).trans he) rfl
  have h2 := d.reg_setReg_self R.SAFE_GRANT (setF (d.reg R.SAFE_GRANT) F.SAFE_GRANT_GENM ((entriesThat d.grantOk).foldl (fun (w : Word) m => w ||| bitWord m) 0).toNat)
  rw [Dev.granted, h1, Dev.put, h2, bitOf_setF_low _ rfl _ (by simp only [F.SAFE_GRANT_GENM, fieldWidth]; omega) (by omega), foldl_bitWord _ _ (by omega)]
  have h0 : bitOf (0 : Word) m = false := by rw [bitOf_eq]; exact BitVec.getLsbD_zero
  rw [h0, Bool.false_or, Bool.eq_iff_iff, List.contains_iff_mem, mem_entriesThat]
  exact ⟨fun h => h.2, fun h => ⟨hm, h⟩⟩

/-- A group's enable of Channel M as the grant's computation leaves it. -/
theorem Dev.grantAll_genM (d : Dev) {g : Nat} (hg : g < 20) (hp : groupPresent d.member g = true) :
    d.grantAll.genM g = ((entriesThat d.grantOk).flatMap d.meGroups).contains g := by
  refine (forN_each (σ := Dev) 20 (I := fun e => e.member = d.member)
    (Q := fun g e => groupPresent d.member g = true → e.genM g = ((entriesThat d.grantOk).flatMap d.meGroups).contains g)
    (f := fun g e => e.setGenM g (((entriesThat d.grantOk).flatMap d.meGroups).contains g)) (fun g _ e he => (e.setGenM_member g _).trans he)
    (fun g hg e he hp => e.genM_setGenM hg (he ▸ hp) _) (fun k hk j hj e _ hq hp => ?_) (d.put_member _ _ _)).2 g hg hp
  rw [e.genM_setGenM_ne hk (Nat.ne_of_lt hj)]
  exact hq hp

/-! ### What Channel M's functions leave -/

theorem safePart_part : Part Dev.safePart := ⟨fun _ => rfl, fun _ _ _ => rfl, fun _ _ => rfl, fun _ _ _ => rfl⟩

theorem mem_safeRegs {a : Nat} : a ∈ safeRegs ↔ (a = R.SAFE_STAT ∨ a = R.SAFE_TRIP ∨ a = R.SAFE_GRANT ∨ a = R.SAFE_REQ_STO ∨ a = R.SAFE_REQ_SS1 ∨
    a = R.SAFE_ACK ∨ a = R.SAFE_OUT ∨ a = R.SAFE_FLAG ∨ a = R.PG_STAT Pg.SAFE ∨ a = R.GDA_STAT) ∨ (∃ m < 20, a = R.TM_STAT m ∨ a = R.TM_CNT m) ∨
    ∃ g < 12, R.GDT_PINS g = a := by
  simp only [safeRegs, List.mem_append, List.mem_cons, List.not_mem_nil, or_false, List.mem_flatMap, List.mem_map, List.mem_range, or_assoc]

theorem gateRegs_safe {a : Nat} (h : a ∈ gateRegs) : a ∈ safeRegs := by
  rw [mem_safeRegs]
  obtain rfl | rfl | h := mem_gateRegs.1 h
  · exact .inl (by simp)
  · exact .inl (by simp)
  · exact .inr (.inr h)

theorem FrameOn.gateSafe (h : FrameOn gatePart gateRegs d e) : FrameOn Dev.safePart safeRegs d e :=
  h.widen gatePart_part safePart_part (fun _ _ => rfl) fun _ => gateRegs_safe

/-- One entry's registers. -/
def tmReg (m a : Nat) : Prop := 0x400A1100 + 0x20 * m ≤ a ∧ a < 0x400A1120 + 0x20 * m

/-- The registers that an operation on one entry may write. -/
def entryRegs (m : Nat) : List Nat := [R.SAFE_TRIP, R.TM_STAT m]

theorem entryRegs_safe (hm : m < 20) {a : Nat} (h : a ∈ entryRegs m) : a ∈ safeRegs := by
  simp only [entryRegs, List.mem_cons, List.not_mem_nil, or_false] at h
  obtain rfl | rfl := h
  · exact mem_safeRegs.2 (.inl (by simp))
  · exact mem_safeRegs.2 (.inr (.inl ⟨m, hm, .inl rfl⟩))

theorem tmReg_not_entry {j a : Nat} (h : j ≠ m) (ha : tmReg j a) : a ∉ entryRegs m := by
  simp only [entryRegs, List.mem_cons, List.not_mem_nil, or_false, R.SAFE_TRIP, R.TM_STAT]
  unfold tmReg at ha
  omega

theorem tmReg_quiet {j a : Nat} (hj : j < 20) (ha : tmReg j a) : eventReg a = false := by
  rw [eventReg_eq_false]
  unfold tmReg at ha
  omega

/-- Channel M's safety state stands, but for its discharges. -/
def SafeStands (d e : Dev) : Prop := e.safe = { d.safe with disM := e.safe.disM }

theorem SafeStands.refl (d : Dev) : SafeStands d d := rfl
theorem SafeStands.trans (h : SafeStands d e) (k : SafeStands e f) : SafeStands d f := by
  unfold SafeStands at h k ⊢
  rw [k, h]
theorem SafeStands.spbM (h : SafeStands d e) : e.safe.spbM = d.safe.spbM := by rw [h]
theorem SafeStands.keep (h : SafeStands d e) : e.safe.keep = d.safe.keep := by rw [h]
theorem SafeStands.of_safe (h : e.safe = d.safe) : SafeStands d e := by rw [SafeStands, h]

/-- What an operation on one entry leaves: the other entries, their trips and registers, and the block. -/
structure EntryRun (m : Nat) (d e : Dev) : Prop where
  frame : FrameOn Dev.safePart (entryRegs m) d e
  tm : ∀ j, j ≠ m → e.tmS j = d.tmS j
  trip : ∀ j, j ≠ m → e.tripped j = d.tripped j
  block : SafeStands d e

theorem EntryRun.refl (m : Nat) (d : Dev) : EntryRun m d d := ⟨FrameOn.refl safePart_part _ d, fun _ _ => rfl, fun _ _ => rfl, rfl⟩

theorem EntryRun.trans (h : EntryRun m d e) (k : EntryRun m e f) : EntryRun m d f :=
  ⟨h.frame.trans safePart_part k.frame, fun j hj => (k.tm j hj).trans (h.tm j hj), fun j hj => (k.trip j hj).trans (h.trip j hj), h.block.trans k.block⟩

theorem spb_of (h : e.safe.spbM = d.safe.spbM) (o : Nat) : e.spb o = d.spb o := by rw [Dev.spb, h]; rfl
theorem me_of (h : e.safe.spbM = d.safe.spbM) (m k : Nat) (f : RField) : e.me m k f = d.me m k f := congrArg (fun w => getF w f) (spb_of h _)
theorem meEn_of (h : e.safe.spbM = d.safe.spbM) (m : Nat) : e.meEn m = d.meEn m := by rw [Dev.meEn, me_of h]; rfl
theorem sdDev_of (h : e.safe.spbM = d.safe.spbM) (f : RField) : e.sdDev f = d.sdDev f := congrArg (fun w => getF w f) (spb_of h _)

theorem EntryRun.reg (h : EntryRun m d e) {a : Nat} (ha : eventReg a = false) (hl : a ∉ entryRegs m) : e.reg a = d.reg a :=
  h.frame.reg safePart_part ha hl

/-- Another entry's registers stand. -/
theorem EntryRun.stat (h : EntryRun m d e) {j a : Nat} (hj : j < 20) (hne : j ≠ m) (ha : tmReg j a) : e.reg a = d.reg a :=
  h.reg (tmReg_quiet hj ha) (tmReg_not_entry hne ha)

theorem EntryRun.safeFrame (h : EntryRun m d e) (hm : m < 20) : FrameOn Dev.safePart safeRegs d e :=
  h.frame.widen safePart_part safePart_part (fun _ _ => rfl) fun _ => entryRegs_safe hm

theorem safeRegs_offset : ∀ a ∈ safeRegs, a % 0x1000 ≠ 0x10 := by decide

theorem pgEvtRaw_not_safe (q : Nat) : R.PG_EVT_RAW q ∉ safeRegs := fun h => by
  have := safeRegs_offset _ h
  simp only [R.PG_EVT_RAW, pageBase] at this
  omega

theorem EntryRun.told (h : EntryRun m d e) (hm : m < 20) {page src : Nat} (hr : Raised d page src) : Raised e page src :=
  h.frame.raised safePart_part (fun ha => pgEvtRaw_not_safe _ (entryRegs_safe hm ha)) hr

theorem EntryRun.of_quiet (h : Quiet d e) : EntryRun m d e :=
  ⟨FrameOn.of_quiet safePart_part _ h, fun j _ => h.tmS j, fun j _ => congrArg (bitOf · j) (h.reg (by decide)), .of_safe h.safe⟩

/-! ### The parts of a latch -/

/-- A register written that is no entry's and not the trips. -/
theorem EntryRun.setReg (d : Dev) {a : Nat} (w : Word) (hl : a ∈ entryRegs m) (ht : a ≠ R.SAFE_TRIP) : EntryRun m d (d.setReg a w) :=
  ⟨(FrameOn.refl safePart_part _ d).setReg safePart_part w hl, fun _ _ => d.tmS_setReg a _ w, fun j _ => congrArg (bitOf · j) (d.reg_setReg_ne w (Ne.symm ht)),
    .of_safe (d.setReg_safe a w)⟩

theorem tmStat_ne : R.TM_STAT m ≠ R.SAFE_TRIP := by simp only [R.TM_STAT, R.SAFE_TRIP]; omega
theorem tmCnt_stat : R.TM_CNT m ≠ R.TM_STAT m := by simp only [R.TM_CNT, R.TM_STAT]; omega
theorem tmStat_cnt : R.TM_STAT m ≠ R.TM_CNT m := tmCnt_stat.symm

theorem EntryRun.putStat (d : Dev) (f : RField) (v : Nat) : EntryRun m d (d.put (R.TM_STAT m) f v) :=
  .setReg d _ (by simp [entryRegs]) tmStat_ne

theorem EntryRun.setTm (d : Dev) (m : Nat) (v : TmSt) : EntryRun m d (d.setTm m v) :=
  ⟨(FrameOn.refl safePart_part _ d).part safePart_part rfl fun _ => rfl, fun j hj => (d.tmS_setTm m j v).trans (if_neg hj), fun _ _ => rfl, rfl⟩

theorem EntryRun.safe (d : Dev) (v : SafeSt) (h : v = { d.safe with disM := v.disM }) : EntryRun m d { d with safe := v } :=
  ⟨(FrameOn.refl safePart_part _ d).part safePart_part rfl fun _ => rfl, fun _ _ => rfl, fun _ _ => rfl, h⟩

/-- SAFE_TRIP with one entry's bit written. -/
theorem EntryRun.setTrip (d : Dev) (hm : m < 20) (b : Bool) : EntryRun m d (d.setReg R.SAFE_TRIP (setBit (d.reg R.SAFE_TRIP) m b)) := by
  refine ⟨(FrameOn.refl safePart_part _ d).setReg safePart_part _ (by simp [entryRegs]), fun j _ => d.tmS_setReg _ _ _, fun j hj => ?_,
    .of_safe (d.setReg_safe _ _)⟩
  rw [Dev.tripped, d.reg_setReg_self, bitOf_setBit _ (by omega), if_neg hj]
  rfl

theorem Dev.setTrip_tripped (d : Dev) (hm : m < 20) (b : Bool) : (d.setReg R.SAFE_TRIP (setBit (d.reg R.SAFE_TRIP) m b)).tripped m = b := by
  rw [Dev.tripped, d.reg_setReg_self, bitOf_setBit _ (by omega), if_pos rfl]

/-- Whether anything has latched an entry. -/
def TmSt.latches (q : TmSt) : Bool := q.byIn || q.byTrip || q.byDone

theorem EntryRun.showLatch (d : Dev) (hm : m < 20) : EntryRun m d (d.showLatch m) := .setTrip d hm _
theorem Dev.showLatch_tripped (d : Dev) (hm : m < 20) : (d.showLatch m).tripped m = (d.tmS m).latches := d.setTrip_tripped hm _
theorem Dev.showLatch_tmS (d : Dev) (m j : Nat) : (d.showLatch m).tmS j = d.tmS j := d.tmS_setReg _ _ _
theorem Dev.showLatch_reg (d : Dev) (m : Nat) {a : Nat} (h : a ≠ R.SAFE_TRIP) : (d.showLatch m).reg a = d.reg a := d.reg_setReg_ne _ h

theorem EntryRun.noteCause (d : Dev) (c : Nat) : EntryRun m d (d.noteCause m c) := by
  rw [Dev.noteCause]
  split
  · exact .putStat d _ c
  · exact .refl m d

theorem Dev.noteCause_get (d : Dev) (m : Nat) {c : Nat} (hc : c < 16) : (d.noteCause m c).get (R.TM_STAT m) F.TM_STAT_CAUSE =
    if d.get (R.TM_STAT m) F.TM_STAT_CAUSE = 0 then c else d.get (R.TM_STAT m) F.TM_STAT_CAUSE := by
  rw [Dev.noteCause]
  split
  · exact (d.get_put_self _ _ _ (by decide)).trans (Nat.mod_eq_of_lt hc)
  · rfl

theorem EntryRun.startDis (d : Dev) (was : Bool) (k : Nat) : EntryRun m d (d.startDis was k) := by
  rw [Dev.startDis]
  split
  · exact .refl m d
  · exact .safe d _ rfl

theorem EntryRun.disOnSto (d : Dev) (was : Bool) : EntryRun m d (d.disOnSto was m) := by
  rw [Dev.disOnSto]
  split
  · exact .startDis d was m
  · exact .refl m d

theorem EntryRun.ss1Off (d : Dev) : EntryRun m d (d.ss1Off m) := (EntryRun.setTm d m _).trans (.putStat _ _ _)

/-- A discharge on STO leaves everything but Channel M's discharges. -/
theorem Dev.disOnSto_eq (d : Dev) (was : Bool) (m : Nat) : ∃ v, d.disOnSto was m = { d with safe := v } := by
  rw [Dev.disOnSto, Dev.startDis]
  split
  · split
    · exact ⟨d.safe, rfl⟩
    · exact ⟨_, rfl⟩
  · exact ⟨d.safe, rfl⟩

/-! ### An STO latched (R362, R364) -/

/-- An entry's record when its STO is latched by the input, or by a trip or a request. -/
def TmSt.latched (q : TmSt) (input : Bool) : TmSt := if input then { q with byIn := true } else { q with byTrip := true, ok := false }

theorem TmSt.latched_latches (q : TmSt) (input : Bool) : (q.latched input).latches = true := by
  cases input <;> simp [TmSt.latched, TmSt.latches]

theorem Dev.latchSto_eq (d : Dev) (m cause : Nat) (input : Bool) : d.latchSto m cause input =
    (((d.setTm m ((d.tmS m).latched input)).noteCause m cause).showLatch m).disOnSto (d.disStands m) m := rfl

/-- What latching an entry's STO leaves and makes. -/
structure LatchRun (m cause : Nat) (d e : Dev) (q : TmSt) : Prop where
  run : EntryRun m d e
  entry : e.tmS m = q
  trip : e.tripped m = true
  why : e.get (R.TM_STAT m) F.TM_STAT_CAUSE = if d.get (R.TM_STAT m) F.TM_STAT_CAUSE = 0 then cause else d.get (R.TM_STAT m) F.TM_STAT_CAUSE
  valid : e.flag (R.TM_STAT m) F.TM_STAT_VALID = d.flag (R.TM_STAT m) F.TM_STAT_VALID

theorem Dev.noteCause_tmS (d : Dev) (m c j : Nat) : (d.noteCause m c).tmS j = d.tmS j := by
  rw [Dev.noteCause]
  split
  · exact d.tmS_put _ _ _ _
  · rfl

theorem Dev.noteCause_valid (d : Dev) (m c : Nat) : (d.noteCause m c).flag (R.TM_STAT m) F.TM_STAT_VALID = d.flag (R.TM_STAT m) F.TM_STAT_VALID := by
  rw [Dev.noteCause]
  split
  · exact d.flag_put_field _ _ _ (by decide)
  · rfl

theorem Dev.latchSto_run (d : Dev) (hm : m < 20) {cause : Nat} (hc : cause < 16) (input : Bool) :
    LatchRun m cause d (d.latchSto m cause input) ((d.tmS m).latched input) := by
  rw [Dev.latchSto_eq]
  have h1 := EntryRun.setTm d m ((d.tmS m).latched input)
  have t1 := d.tmS_setTm_self m ((d.tmS m).latched input)
  have r1 : ∀ a, (d.setTm m ((d.tmS m).latched input)).reg a = d.reg a := fun _ => rfl
  generalize d.setTm m ((d.tmS m).latched input) = u at h1 t1 r1 ⊢
  have h2 := EntryRun.noteCause (m := m) u cause
  have t2 := u.noteCause_tmS m cause m
  have v2 := u.noteCause_valid m cause
  have w2 := u.noteCause_get m hc
  generalize u.noteCause m cause = v at h2 t2 v2 w2 ⊢
  have h3 := EntryRun.showLatch v hm
  have t3 := v.showLatch_tmS m m
  have p3 := v.showLatch_tripped hm
  have r3 := v.showLatch_reg m (a := R.TM_STAT m) tmStat_ne
  generalize v.showLatch m = w at h3 t3 p3 r3 ⊢
  have h4 := EntryRun.disOnSto (m := m) w (d.disStands m)
  obtain ⟨x, hx⟩ := w.disOnSto_eq (d.disStands m) m
  refine ⟨((h1.trans h2).trans h3).trans h4, ?_, ?_, ?_, ?_⟩
  · rw [hx]
    exact t3.trans (t2.trans t1)
  · rw [hx]
    exact p3.trans (by rw [t2, t1, TmSt.latched_latches])
  · rw [hx]
    refine (Dev.get_of_reg r3 _).trans (w2.trans ?_)
    rw [Dev.get_of_reg (r1 _)]
  · rw [hx]
    exact (Dev.flag_of_reg r3 _).trans (v2.trans (Dev.flag_of_reg (r1 _) _))

end
end Sys2Proof.Machine
end

section
/-! PROOFS. STO and SS1 of Channel M's entries: inputs, requests, acknowledgement (R364, R365, R386). -/

namespace Sys2Proof.Machine

section
variable {d e f : Dev} {m : Nat}

/-! ### One entry and the others -/

/-- The registers that operations on entries may write. -/
def entriesRegs : List Nat := R.SAFE_TRIP :: (List.range 20).flatMap fun m => [R.TM_STAT m]

theorem entryRegs_entries (hm : m < 20) {a : Nat} (h : a ∈ entryRegs m) : a ∈ entriesRegs := by
  simp only [entryRegs, List.mem_cons, List.not_mem_nil, or_false] at h
  simp only [entriesRegs, List.mem_cons, List.mem_flatMap, List.mem_range, List.not_mem_nil, or_false]
  exact h.imp_right fun h => ⟨m, hm, h⟩

theorem entriesRegs_safe {a : Nat} (h : a ∈ entriesRegs) : a ∈ safeRegs := by
  simp only [entriesRegs, List.mem_cons, List.mem_flatMap, List.mem_range, List.not_mem_nil, or_false] at h
  exact mem_safeRegs.2 (h.imp (fun h => by simp [h]) fun ⟨m, hm, h⟩ => .inl ⟨m, hm, .inl h⟩)

/-- One entry stands: its record, its latch, its registers. -/
structure EntryStands (m : Nat) (d e : Dev) : Prop where
  tm : e.tmS m = d.tmS m
  trip : e.tripped m = d.tripped m
  stat : ∀ a, tmReg m a → e.reg a = d.reg a

theorem EntryStands.refl (m : Nat) (d : Dev) : EntryStands m d d := ⟨rfl, rfl, fun _ _ => rfl⟩

theorem EntryStands.trans (h : EntryStands m d e) (k : EntryStands m e f) : EntryStands m d f :=
  ⟨k.tm.trans h.tm, k.trip.trans h.trip, fun a ha => (k.stat a ha).trans (h.stat a ha)⟩

theorem EntryRun.stands (h : EntryRun m d e) {j : Nat} (hj : j < 20) (hne : j ≠ m) : EntryStands j d e :=
  ⟨h.tm j hne, h.trip j hne, fun _ ha => h.stat hj hne ha⟩

theorem tmStat_tmReg : tmReg m (R.TM_STAT m) := by simp only [tmReg, R.TM_STAT]; omega
theorem tmCnt_tmReg : tmReg m (R.TM_CNT m) := by simp only [tmReg, R.TM_CNT]; omega

theorem EntryStands.cause (h : EntryStands m d e) : e.get (R.TM_STAT m) F.TM_STAT_CAUSE = d.get (R.TM_STAT m) F.TM_STAT_CAUSE :=
  Dev.get_of_reg (h.stat _ tmStat_tmReg) _

theorem EntryStands.valid (h : EntryStands m d e) : e.flag (R.TM_STAT m) F.TM_STAT_VALID = d.flag (R.TM_STAT m) F.TM_STAT_VALID :=
  Dev.flag_of_reg (h.stat _ tmStat_tmReg) _

/-- A device reached by operations on entries. -/
structure EntriesRun (d e : Dev) : Prop where
  frame : FrameOn Dev.safePart entriesRegs d e
  block : SafeStands d e

theorem EntriesRun.refl (d : Dev) : EntriesRun d d := ⟨FrameOn.refl safePart_part _ d, rfl⟩

theorem EntriesRun.spbM (h : EntriesRun d e) : e.safe.spbM = d.safe.spbM := h.block.spbM

theorem EntriesRun.trans (h : EntriesRun d e) (k : EntriesRun e f) : EntriesRun d f := ⟨h.frame.trans safePart_part k.frame, h.block.trans k.block⟩

theorem EntryRun.entries (h : EntryRun m d e) (hm : m < 20) : EntriesRun d e :=
  ⟨h.frame.widen safePart_part safePart_part (fun _ _ => rfl) fun _ => entryRegs_entries hm, h.block⟩

theorem EntriesRun.reg (h : EntriesRun d e) {a : Nat} (ha : eventReg a = false) (hl : a ∉ entriesRegs) : e.reg a = d.reg a :=
  h.frame.reg safePart_part ha hl

theorem EntriesRun.safeFrame (h : EntriesRun d e) : FrameOn Dev.safePart safeRegs d e :=
  h.frame.widen safePart_part safePart_part (fun _ _ => rfl) fun _ => entriesRegs_safe

/-- Every entry has its turn: what it finds of itself is what stood at the beginning, and what it makes stands at the end. -/
theorem entries_turns {g : Nat → Dev → Dev} (hg : ∀ m < 20, ∀ u, EntryRun m u (g m u)) (d : Dev) : EntriesRun d (forN 20 g d) ∧
    ∀ m < 20, ∃ u, EntriesRun d u ∧ EntryStands m d u ∧ EntryStands m (g m u) (forN 20 g d) := by
  refine forN_stages (I := EntriesRun d) (B := fun m e => EntryStands m d e)
    (A := fun m e => ∃ u, EntriesRun d u ∧ EntryStands m d u ∧ EntryStands m (g m u) e) 20 (fun m hm u hu hb => ?_)
    (fun m hm j hj hlt u _ hb => ?_) (fun m hm j hlt u _ ha => ?_) (.refl d) fun m _ => .refl m d
  · exact ⟨hu.trans ((hg m hm u).entries hm), u, hu, hb, .refl m _⟩
  · exact hb.trans ((hg m hm u).stands hj (by omega))
  · obtain ⟨v, hv, hb, hs⟩ := ha
    exact ⟨v, hv, hb, hs.trans ((hg m hm u).stands (by omega) (by omega))⟩

theorem EntryRun.ite {c : Bool} (h : c = true → EntryRun m d e) : EntryRun m d (if c then e else d) := by
  split
  · next hc => exact h hc
  · exact .refl m d

theorem foldl_entriesThat (p : Nat → Bool) (g : Dev → Nat → Dev) (d : Dev) :
    (entriesThat p).foldl g d = forN 20 (fun m e => if p m then g e m else e) d := by rw [entriesThat, List.foldl_filter]; rfl

/-! ### The grant and the entries -/

theorem tripReg_gate : R.SAFE_TRIP ∉ gateRegs := by decide

theorem tmReg_not_gate {a : Nat} (hm : m < 20) (ha : tmReg m a) : a ∉ gateRegs := by
  rw [mem_gateRegs]
  simp only [R.GDA_STAT, R.SAFE_GRANT, R.GDT_PINS]
  unfold tmReg at ha
  omega

/-- Gates and the grant leave every entry. -/
theorem FrameOn.gateStands (h : FrameOn gatePart gateRegs d e) (hm : m < 20) : EntryStands m d e :=
  ⟨(congrArg (fun u : Dev => u.tmS m) h.1 :), congrArg (bitOf · m) (h.reg gatePart_part (by decide) tripReg_gate),
    fun _ ha => h.reg gatePart_part (tmReg_quiet hm ha) (tmReg_not_gate hm ha)⟩

theorem Dev.grantAll_frame (d : Dev) : FrameOn gatePart gateRegs d d.grantAll := (FrameOn.refl gatePart_part gateRegs d).gateGrant fun _ h => h

theorem Dev.grantAll_stands (d : Dev) (hm : m < 20) : EntryStands m d d.grantAll := d.grantAll_frame.gateStands hm

theorem FrameOn.grantedAll (h : FrameOn Dev.safePart safeRegs d e) : FrameOn Dev.safePart safeRegs d e.grantAll :=
  h.trans safePart_part e.grantAll_frame.gateSafe

theorem Dev.grantOk_tripped (h : d.tripped m = true) : d.grantOk m = false := by
  rw [Dev.grantOk, h]
  simp only [Bool.not_true, Bool.and_false, Bool.false_and]

theorem Dev.grantOk_unproved (h : (d.tmS m).ok = false) : d.grantOk m = false := by
  rw [Dev.grantOk, h, Bool.and_false]

/-! ### STO latched, and an SS1 that it ends -/

/-- An entry's record after its STO is latched: no stop runs. -/
def TmSt.stopped (q : TmSt) (input : Bool) : TmSt := { q.latched input with ss1 := none, still := 0 }

/-- An entry's STO has been latched and its stop ended. -/
structure EntryOff (m cause : Nat) (input : Bool) (d e : Dev) : Prop where
  entry : e.tmS m = (d.tmS m).stopped input
  trip : e.tripped m = true
  why : e.get (R.TM_STAT m) F.TM_STAT_CAUSE = if d.get (R.TM_STAT m) F.TM_STAT_CAUSE = 0 then cause else d.get (R.TM_STAT m) F.TM_STAT_CAUSE
  valid : e.flag (R.TM_STAT m) F.TM_STAT_VALID = d.flag (R.TM_STAT m) F.TM_STAT_VALID

theorem Dev.latchOff_spec (d : Dev) (hm : m < 20) {cause : Nat} (hc : cause < 16) (input : Bool) :
    EntryRun m d ((d.latchSto m cause input).ss1Off m) ∧ EntryOff m cause input d ((d.latchSto m cause input).ss1Off m) := by
  obtain ⟨run, entry, trip, why, valid⟩ := d.latchSto_run hm hc input
  generalize d.latchSto m cause input = u at run entry trip why valid
  refine ⟨run.trans (.ss1Off u), ?_, ?_, ?_, ?_⟩
  · rw [Dev.ss1Off, Dev.putB, Dev.tmS_put, Dev.tmS_setTm_self, entry]
    rfl
  · rw [Dev.tripped, Dev.ss1Off, Dev.putB, Dev.reg_put_ne _ _ _ tmStat_ne.symm]
    exact trip
  · rw [Dev.ss1Off, Dev.putB, Dev.get_put_field _ _ _ _ _ _ (by decide)]
    exact why
  · rw [Dev.ss1Off, Dev.putB, Dev.flag_put_field _ _ _ _ (by decide)]
    exact valid

theorem EntryOff.of_stands {cause : Nat} {input : Bool} {u v : Dev} (h : EntryOff m cause input u v) (hb : EntryStands m d u)
    (ha : EntryStands m v e) : EntryOff m cause input d e :=
  ⟨by rw [ha.tm, h.entry, hb.tm], ha.trip.trans h.trip, by rw [ha.cause, h.why, hb.cause], by rw [ha.valid, h.valid, hb.valid]⟩

/-- With the grant computed anew an entry whose STO is latched has none. -/
theorem EntryOff.latched {cause : Nat} {input : Bool} (hm : m < 20) (h : EntryOff m cause input d e) : Latched d e.grantAll m cause := by
  have hs := e.grantAll_stands hm
  refine ⟨hs.trip.trans h.trip, ?_, ?_, hs.cause.trans h.why⟩
  · rw [e.grantAll_granted hm, Dev.grantOk_tripped h.trip]
  · rw [hs.tm, h.entry]
    rfl

end
end Sys2Proof.Machine
end

section
/-! PROOFS. The STO inputs and Channel M's request and acknowledgement registers (R44, R364, R365, R386). -/

namespace Sys2Proof.Machine

section
variable {d e f : Dev} {m : Nat}

theorem genP_gates (h : ∀ g < 12, e.reg (R.GDT_PINS g) = d.reg (R.GDT_PINS g)) (ha : e.reg R.GDA_STAT = d.reg R.GDA_STAT) {g : Nat} :
    e.genP g = d.genP g := by
  rw [Dev.genP, Dev.genP, ha]
  split
  · next hg => exact Dev.flag_of_reg (h g hg) _
  · rfl

theorem genM_gates (h : ∀ g < 12, e.reg (R.GDT_PINS g) = d.reg (R.GDT_PINS g)) (ha : e.reg R.GDA_STAT = d.reg R.GDA_STAT) {g : Nat} :
    e.genM g = d.genM g := by
  rw [Dev.genM, Dev.genM, ha]
  split
  · next hg => exact Dev.flag_of_reg (h g hg) _
  · rfl

theorem pins_not_entries {g : Nat} (hg : g < 12) : R.GDT_PINS g ∉ entriesRegs := by
  revert g
  decide

theorem EntriesRun.genP (h : EntriesRun d e) (g : Nat) : e.genP g = d.genP g :=
  genP_gates (fun _ hg => h.reg (eventReg_pins hg) (pins_not_entries hg)) (h.reg (by decide) (by decide))

theorem EntriesRun.told (h : EntriesRun d e) {page src : Nat} (hr : Raised d page src) : Raised e page src :=
  h.frame.raised safePart_part (fun ha => pgEvtRaw_not_safe _ (entriesRegs_safe ha)) hr

/-! ### The inputs (R44, R364) -/

/-- An STO input accepted active, before its reaction. -/
def Dev.stoSeen (d : Dev) (x : RField) : Dev := (d.putB R.SAFE_STAT x true).raise Pg.SAFE Ev.STO_IN

/-- What the input's acceptance alone leaves. -/
structure StoSeen (x : RField) (d e : Dev) : Prop where
  frame : FrameOn Dev.safePart [R.SAFE_STAT] d e
  seen : e.flag R.SAFE_STAT x = true
  told : Raised e Pg.SAFE Ev.STO_IN
  safe : e.safe = d.safe
  tm : e.tm = d.tm

theorem Dev.stoSeen_spec (d : Dev) {x : RField} (hw : fieldWidth x = 1) (hx : x.lo < 32) : StoSeen x d (d.stoSeen x) := by
  have hq := (d.putB R.SAFE_STAT x true).raise_quiet Pg.SAFE Ev.STO_IN
  refine ⟨((FrameOn.refl safePart_part _ d).putB safePart_part x true (by simp)).quiet safePart_part hq, ?_, Dev.raise_raised _ rfl, ?_, ?_⟩
  · exact (Dev.flag_of_reg (hq.reg (by decide)) x).trans (d.flag_putB_self _ _ _ hw hx)
  · exact (congrArg Dev.safe hq.1 :)
  · exact (congrArg Dev.tm hq.1 :)

theorem StoSeen.reg {x : RField} (h : StoSeen x d e) {a : Nat} (ha : eventReg a = false) (hl : a ≠ R.SAFE_STAT) : e.reg a = d.reg a :=
  h.frame.reg safePart_part ha (by simpa using hl)

theorem StoSeen.pins {x : RField} (h : StoSeen x d e) : ∀ g < 12, e.reg (R.GDT_PINS g) = d.reg (R.GDT_PINS g) :=
  fun _ hg => h.reg (eventReg_pins hg) (by simp only [R.GDT_PINS, R.SAFE_STAT]; omega)

theorem StoSeen.member {x : RField} (h : StoSeen x d e) : e.member = d.member := (congrArg Dev.member h.frame.1 :)

theorem StoSeen.stands {x : RField} (h : StoSeen x d e) (hm : m < 20) : EntryStands m d e :=
  ⟨congrArg (spGet _ · m) h.tm, congrArg (bitOf · m) (h.reg (by decide) (by decide)), fun a ha => h.reg (tmReg_quiet hm ha) (by
    unfold tmReg at ha
    simp only [R.SAFE_STAT]
    omega)⟩

theorem StoSeen.safeFrame {x : RField} (h : StoSeen x d e) : FrameOn Dev.safePart safeRegs d e :=
  h.frame.widen safePart_part safePart_part (fun _ _ => rfl) (by decide)

theorem Dev.stoActive_p (h : d.flag R.SAFE_STAT F.SAFE_STAT_STO_P_IN = false) : d.stoActive true = (d.stoSeen F.SAFE_STAT_STO_P_IN).dropAllP := by
  rw [Dev.stoActive]
  simp only [if_true]
  rw [h]
  rfl

/-- An entry latched by the input. -/
def Dev.inputLatch (d : Dev) (m : Nat) : Dev := (d.latchSto m 0xB true).ss1Off m

theorem Dev.inputLatch_run (d : Dev) (hm : m < 20) : EntryRun m d (d.inputLatch m) := (d.latchOff_spec hm (by decide) true).1
theorem Dev.inputLatch_off (d : Dev) (hm : m < 20) : EntryOff m 0xB true d (d.inputLatch m) := (d.latchOff_spec hm (by decide) true).2

theorem Dev.stoActive_m (h : d.flag R.SAFE_STAT F.SAFE_STAT_STO_M_IN = false) : d.stoActive false =
    (forN 20 (fun m e => if (d.stoSeen F.SAFE_STAT_STO_M_IN).meEn m then e.inputLatch m else e) (d.stoSeen F.SAFE_STAT_STO_M_IN)).grantAll := by
  rw [← foldl_entriesThat]
  rw [Dev.stoActive]
  simp only [Bool.false_eq_true, if_false]
  rw [h]
  rfl

theorem Dev.dropAllP_frame (d : Dev) : FrameOn gatePart gateRegs d d.dropAllP := (FrameOn.refl gatePart_part gateRegs d).gateDropP fun _ h => h

theorem Dev.dropAllP_genM (d : Dev) (g : Nat) : d.dropAllP.genM g = d.genM g :=
  forN_keeps (P := fun e : Dev => e.genM g = d.genM g) 20 (fun _ hk e he => (e.genM_setGenP hk g false).trans he) rfl

theorem gateRegs_not_raw (q : Nat) : R.PG_EVT_RAW q ∉ gateRegs := fun h => pgEvtRaw_not_safe q (gateRegs_safe h)

/-- The grant's part of an operation keeps what is shown elsewhere. -/
theorem Dev.grantAll_told (d : Dev) {page src : Nat} (h : Raised d page src) : Raised d.grantAll page src :=
  d.grantAll_frame.raised gatePart_part (gateRegs_not_raw _) h

theorem meEn_lt (h : d.meEn m = true) : m < 20 := by
  simp only [Dev.meEn, Bool.and_eq_true, decide_eq_true_eq] at h
  exact h.1

theorem Dev.stoActive_p_spec (h : d.flag R.SAFE_STAT F.SAFE_STAT_STO_P_IN = false) :
    FrameOn Dev.safePart safeRegs d (d.stoActive true) ∧ (d.stoActive true).flag R.SAFE_STAT F.SAFE_STAT_STO_P_IN = true ∧
    Raised (d.stoActive true) Pg.SAFE Ev.STO_IN ∧ (d.stoActive true).reg R.SAFE_TRIP = d.reg R.SAFE_TRIP ∧
    ∀ g < 20, groupPresent d.member g = true → (d.stoActive true).genP g = false ∧ (d.stoActive true).genM g = d.genM g := by
  rw [Dev.stoActive_p h]
  have hs := d.stoSeen_spec (x := F.SAFE_STAT_STO_P_IN) rfl (by decide)
  generalize d.stoSeen F.SAFE_STAT_STO_P_IN = u at hs
  have hf := u.dropAllP_frame
  refine ⟨hs.safeFrame.trans safePart_part hf.gateSafe, ?_, hf.raised gatePart_part (gateRegs_not_raw _) hs.told, ?_, fun g hg hp => ?_⟩
  · exact (Dev.flag_of_reg (hf.reg gatePart_part (by decide) (by decide)) _).trans hs.seen
  · exact (hf.reg gatePart_part (by decide) (by decide)).trans (hs.reg (by decide) (by decide))
  · exact ⟨u.dropAllP_low g hg (hs.member ▸ hp), (u.dropAllP_genM g).trans (genM_gates hs.pins (hs.reg (by decide) (by decide)))⟩

theorem Dev.grantOk_input (h : d.flag R.SAFE_STAT F.SAFE_STAT_STO_M_IN = true) (m : Nat) : d.grantOk m = false := by
  rw [Dev.grantOk, h]
  simp only [Bool.not_true, Bool.and_false, Bool.false_and]

theorem Dev.stoActive_m_spec (h : d.flag R.SAFE_STAT F.SAFE_STAT_STO_M_IN = false) :
    FrameOn Dev.safePart safeRegs d (d.stoActive false) ∧ (d.stoActive false).flag R.SAFE_STAT F.SAFE_STAT_STO_M_IN = true ∧
    Raised (d.stoActive false) Pg.SAFE Ev.STO_IN ∧
    (∀ g < 20, groupPresent d.member g = true → (d.stoActive false).genM g = false ∧ (d.stoActive false).genP g = d.genP g) ∧
    ∀ m, d.meEn m = true → Latched d (d.stoActive false) m 0xB ∧ ((d.stoActive false).tmS m).byIn = true := by
  rw [Dev.stoActive_m h]
  have hs := d.stoSeen_spec (x := F.SAFE_STAT_STO_M_IN) rfl (by decide)
  generalize d.stoSeen F.SAFE_STAT_STO_M_IN = u at hs
  obtain ⟨hrun, hturn⟩ := entries_turns (g := fun m e => if u.meEn m then e.inputLatch m else e) (fun m hm v => EntryRun.ite fun _ => v.inputLatch_run hm) u
  generalize forN 20 (fun m e => if u.meEn m then e.inputLatch m else e) u = v at hrun hturn
  have hseen : v.flag R.SAFE_STAT F.SAFE_STAT_STO_M_IN = true := (Dev.flag_of_reg (hrun.reg (by decide) (by decide)) _).trans hs.seen
  have hmem : v.member = d.member := by
    have hv : v.member = u.member := (congrArg Dev.member hrun.frame.1 :)
    exact hv.trans hs.member
  refine ⟨(hs.safeFrame.trans safePart_part hrun.safeFrame).grantedAll, ?_, v.grantAll_told (hrun.told hs.told), fun g hg hp => ⟨?_, ?_⟩, fun m hm => ?_⟩
  · exact (Dev.flag_of_reg (v.grantAll_frame.reg gatePart_part (by decide) (by decide)) _).trans hseen
  · exact (Dev.grantAll_low fun m _ => Dev.grantOk_input hseen m).1 g hg (hmem ▸ hp)
  · exact (v.grantAll_genP hg).trans ((hrun.genP g).trans (genP_gates hs.pins (hs.reg (by decide) (by decide))))
  · have h20 := meEn_lt hm
    obtain ⟨w, -, hb, ha⟩ := hturn m h20
    have hen : u.meEn m = true := (meEn_of (congrArg SafeSt.spbM hs.safe) m).trans hm
    rw [if_pos hen] at ha
    have hoff := (w.inputLatch_off h20).of_stands ((hs.stands h20).trans hb) ha
    refine ⟨hoff.latched h20, ?_⟩
    rw [(v.grantAll_stands h20).tm, hoff.entry]
    rfl

end
end Sys2Proof.Machine
end

section
/-! PROOFS. The STO input's release, and Channel M's request and acknowledgement registers written (R364, R365, R386). -/

namespace Sys2Proof.Machine

section
variable {d e f : Dev} {m : Nat}

/-! ### The input's release with STO_AUTO (R364) -/

/-- The input's latch of an entry ends. -/
def Dev.inputEnds (d : Dev) (m : Nat) : Dev :=
  let e := (d.setTm m { d.tmS m with byIn := false }).showLatch m
  if !e.tripped m && e.get (R.TM_STAT m) F.TM_STAT_CAUSE == 0xB then e.put (R.TM_STAT m) F.TM_STAT_CAUSE 0 else e

theorem Dev.inputEnds_spec (d : Dev) (hm : m < 20) : EntryRun m d (d.inputEnds m) ∧ (d.inputEnds m).tmS m = { d.tmS m with byIn := false } ∧
    (d.inputEnds m).tripped m = ((d.tmS m).byTrip || (d.tmS m).byDone) := by
  rw [Dev.inputEnds]
  have h1 := (EntryRun.setTm d m { d.tmS m with byIn := false }).trans (.showLatch _ hm)
  have t1 := ((d.setTm m { d.tmS m with byIn := false }).showLatch_tmS m m).trans (d.tmS_setTm_self m _)
  have p1 := (d.setTm m { d.tmS m with byIn := false }).showLatch_tripped hm
  rw [d.tmS_setTm_self] at p1
  generalize (d.setTm m { d.tmS m with byIn := false }).showLatch m = u at h1 t1 p1 ⊢
  have p2 : u.tripped m = ((d.tmS m).byTrip || (d.tmS m).byDone) := by simpa [TmSt.latches] using p1
  dsimp only
  split
  · exact ⟨h1.trans (.putStat u _ _), (u.tmS_put _ _ _ _).trans t1, (congrArg (bitOf · m) (u.reg_put_ne _ _ tmStat_ne.symm)).trans p2⟩
  · exact ⟨h1, t1, p2⟩

theorem Dev.stoRelease_m (h : d.flag R.SAFE_STAT F.SAFE_STAT_STO_M_IN = true) (ha : d.sdDev F.SD_DEV_STO_AUTO ≠ 0) : d.stoRelease false =
    (forN 20 (fun m e => if (e.tmS m).byIn then e.inputEnds m else e) (d.putB R.SAFE_STAT F.SAFE_STAT_STO_M_IN false)).grantAll := by
  have hauto : ((d.putB R.SAFE_STAT F.SAFE_STAT_STO_M_IN false).sdDev F.SD_DEV_STO_AUTO == 0) = false := by
    have h0 := sdDev_of (d := d) (e := d.putB R.SAFE_STAT F.SAFE_STAT_STO_M_IN false) (congrArg SafeSt.spbM (d.put_safe _ _ _)) F.SD_DEV_STO_AUTO
    rw [h0]
    exact beq_false_of_ne ha
  rw [Dev.stoRelease]
  simp only [Bool.false_eq_true, if_false, h, Bool.not_true, Bool.false_or, hauto]
  rfl

theorem Dev.stoRelease_m_spec (h : d.flag R.SAFE_STAT F.SAFE_STAT_STO_M_IN = true) (ha : d.sdDev F.SD_DEV_STO_AUTO ≠ 0) :
    FrameOn Dev.safePart safeRegs d (d.stoRelease false) ∧ (d.stoRelease false).flag R.SAFE_STAT F.SAFE_STAT_STO_M_IN = false ∧
    ∀ m < 20, (d.stoRelease false).tmS m = { d.tmS m with byIn := false } ∧
      ((d.tmS m).byIn = true → (d.stoRelease false).tripped m = ((d.tmS m).byTrip || (d.tmS m).byDone)) := by
  rw [Dev.stoRelease_m h ha]
  have hf : FrameOn Dev.safePart safeRegs d (d.putB R.SAFE_STAT F.SAFE_STAT_STO_M_IN false) :=
    (FrameOn.refl safePart_part _ d).putB safePart_part _ _ (by decide)
  have hoff := d.flag_putB_self R.SAFE_STAT F.SAFE_STAT_STO_M_IN false rfl (by decide)
  have hst : ∀ m < 20, EntryStands m d (d.putB R.SAFE_STAT F.SAFE_STAT_STO_M_IN false) := fun m hm =>
    ⟨d.tmS_put _ _ _ _, congrArg (bitOf · m) (d.reg_put_ne _ _ (by decide)), fun a ha => d.reg_put_ne _ _ (by
      unfold tmReg at ha
      simp only [R.SAFE_STAT]
      omega)⟩
  generalize d.putB R.SAFE_STAT F.SAFE_STAT_STO_M_IN false = u at hf hoff hst
  obtain ⟨hrun, hturn⟩ := entries_turns (g := fun m e => if (e.tmS m).byIn then e.inputEnds m else e)
    (fun m hm v => EntryRun.ite fun _ => (v.inputEnds_spec hm).1) u
  generalize forN 20 (fun m e => if (e.tmS m).byIn then e.inputEnds m else e) u = v at hrun hturn
  refine ⟨(hf.trans safePart_part hrun.safeFrame).grantedAll, ?_, fun m hm => ?_⟩
  · exact (Dev.flag_of_reg (v.grantAll_frame.reg gatePart_part (by decide) (by decide)) _).trans
      ((Dev.flag_of_reg (hrun.reg (by decide) (by decide)) _).trans hoff)
  · obtain ⟨w, -, hb, he⟩ := hturn m hm
    have hbeg := (hst m hm).trans hb
    have hend := he.trans (v.grantAll_stands hm)
    have hw := w.inputEnds_spec hm
    cases hin : (d.tmS m).byIn with
    | true =>
      rw [if_pos (by rw [hbeg.tm, hin])] at hend
      obtain ⟨-, ht, hp⟩ := hw
      rw [hbeg.tm] at ht hp
      exact ⟨hend.tm.trans ht, fun _ => hend.trip.trans hp⟩
    | false =>
      rw [if_neg (by rw [hbeg.tm, hin]; exact Bool.false_ne_true)] at hend
      refine ⟨(hend.tm.trans hbeg.tm).trans ?_, fun hc => absurd hc (by simp)⟩
      rw [← hin]

/-! ### Registers of one field for every entry -/

/-- A register of SAFE with a bit for each entry, which S1 writes. -/
def entryBits : RField := ⟨19, 0⟩

theorem bitOf_takeBits (w cur : Word) (hm : m < 20) : bitOf (takeAll [⟨entryBits, .rwm, 0⟩] w cur) m = bitOf w m := by
  have h : takeAll [⟨entryBits, .rwm, 0⟩] w cur = setF cur entryBits (getF w entryBits) := rfl
  rw [h, bitOf_eq, bitOf_eq, setF_bit _ _ _ _ (by omega)]
  simp only [entryBits, fieldWidth, getF, Nat.zero_le, Nat.sub_zero, Nat.pow_zero, Nat.div_one, Nat.testBit_mod_two_pow]
  have h2 : decide (m < 0 + (19 + 1)) = true := by simpa using hm
  simp only [BitVec.getLsbD]
  simp_all

/-- A write of a request or acknowledgement register that it takes. -/
theorem Dev.plainWrite_bits {a mid : Nat} (ha : a = R.SAFE_REQ_STO ∨ a = R.SAFE_REQ_SS1 ∨ a = R.SAFE_ACK) (ht : d.takenAt mid a = true) (w : Word) :
    d.plainWrite mid a w = d.setReg a (takeAll [⟨entryBits, .rwm, 0⟩] w (d.reg a)) := by
  have hpl : Placed d a .safeB 0 (offOf a) := by
    obtain rfl | rfl | rfl := ha
    · exact ⟨rfl, rfl, rfl, rfl, by decide⟩
    · exact ⟨rfl, rfl, rfl, rfl, by decide⟩
    · exact ⟨rfl, rfl, rfl, rfl, by decide⟩
  have hr : ∃ k, regAt .safeB (offOf a) = some (⟨k, 0, 1, 0, 1, [⟨entryBits, .rwm, 0⟩]⟩, 0, 0) := by
    obtain rfl | rfl | rfl := ha
    · exact ⟨0x5C, rfl⟩
    · exact ⟨0x60, rfl⟩
    · exact ⟨0x64, rfl⟩
  obtain ⟨k, hr⟩ := hr
  refine Dev.plainWrite_takenAt (acc := .rwm) hpl ?_ hr ?_ ht BitVec.and_zero
  · obtain rfl | rfl | rfl := ha
    · decide
    · decide
    · decide
  · intro fd hfd
    obtain rfl := List.mem_singleton.1 hfd
    obtain rfl | rfl | rfl := ha
    · exact ⟨rfl, rfl⟩
    · exact ⟨rfl, rfl⟩
    · exact ⟨rfl, rfl⟩

/-! ### Requests (R364, R365, R386) -/

theorem entryBits_reg {a : Nat} (ha : a = R.SAFE_REQ_STO ∨ a = R.SAFE_REQ_SS1 ∨ a = R.SAFE_ACK) :
    a ∈ safeRegs ∧ a ∉ entriesRegs ∧ a ∉ gateRegs ∧ a ≠ R.SAFE_TRIP ∧ eventReg a = false ∧ ∀ m < 20, ¬tmReg m a := by
  refine ⟨by obtain rfl | rfl | rfl := ha <;> decide, by obtain rfl | rfl | rfl := ha <;> decide, by obtain rfl | rfl | rfl := ha <;> decide,
    by obtain rfl | rfl | rfl := ha <;> decide, by obtain rfl | rfl | rfl := ha <;> decide, fun m _ => ?_⟩
  simp only [R.SAFE_REQ_STO, R.SAFE_REQ_SS1, R.SAFE_ACK] at ha
  unfold tmReg
  omega

/-- Such a register written leaves every entry. -/
theorem stands_entryBits {a : Nat} (ha : a = R.SAFE_REQ_STO ∨ a = R.SAFE_REQ_SS1 ∨ a = R.SAFE_ACK) (d : Dev) (w : Word) (hm : m < 20) :
    EntryStands m d (d.setReg a w) := by
  obtain ⟨-, -, -, htrip, -, hreg⟩ := entryBits_reg ha
  exact ⟨d.tmS_setReg _ _ _, congrArg (bitOf · m) (d.reg_setReg_ne w htrip.symm), fun b hb => d.reg_setReg_ne w fun h => hreg m hm (h ▸ hb)⟩

/-- The register as a taken write leaves it. -/
def Dev.bitsTaken (d : Dev) (a : Nat) (w : Word) : Dev := d.setReg a (takeAll [⟨entryBits, .rwm, 0⟩] w (d.reg a))

theorem Dev.safeReqWrite_spec {a mid : Nat} (ha : a = R.SAFE_REQ_STO ∨ a = R.SAFE_REQ_SS1 ∨ a = R.SAFE_ACK) (ht : d.takenAt mid a = true) (w : Word)
    {g : Nat → Dev → Dev} (hg : ∀ m < 20, ∀ u, EntryRun m u (g m u)) : FrameOn Dev.safePart safeRegs d (d.safeReqWrite mid a w g) ∧
    ∃ v, d.safeReqWrite mid a w g = v.grantAll ∧ ∀ m < 20, bitOf (d.safeReqWrite mid a w g |>.reg a) m = bitOf w m ∧
      ∃ u, EntriesRun (d.bitsTaken a w) u ∧ EntryStands m d u ∧
        EntryStands m (if bitOf w m && !bitOf (d.reg a) m then g m u else u) v := by
  obtain ⟨hsafe, hent, hgate, -, hquiet, -⟩ := entryBits_reg ha
  have heq : d.safeReqWrite mid a w g = (forN 20 (fun m e => if bitOf ((d.bitsTaken a w).reg a) m && !bitOf (d.reg a) m then g m e else e)
      (d.bitsTaken a w)).grantAll := by rw [Dev.safeReqWrite, Dev.plainWrite_bits ha ht]; rfl
  have hf : FrameOn Dev.safePart safeRegs d (d.bitsTaken a w) := (FrameOn.refl safePart_part _ d).setReg safePart_part _ hsafe
  have hbit : ∀ m < 20, bitOf ((d.bitsTaken a w).reg a) m = bitOf w m := fun m hm => by
    rw [Dev.bitsTaken, d.reg_setReg_self, bitOf_takeBits _ _ hm]
  have hst : ∀ m < 20, EntryStands m d (d.bitsTaken a w) := fun m hm => stands_entryBits ha d _ hm
  rw [heq]
  generalize d.bitsTaken a w = u at hf hbit hst
  obtain ⟨hrun, hturn⟩ := entries_turns (g := fun m e => if bitOf (u.reg a) m && !bitOf (d.reg a) m then g m e else e)
    (fun m hm v => EntryRun.ite fun _ => hg m hm v) u
  generalize forN 20 (fun m e => if bitOf (u.reg a) m && !bitOf (d.reg a) m then g m e else e) u = v at hrun hturn
  refine ⟨(hf.trans safePart_part hrun.safeFrame).grantedAll, v, rfl, fun m hm => ⟨?_, ?_⟩⟩
  · rw [v.grantAll_frame.reg gatePart_part hquiet hgate, hrun.reg hquiet hent, hbit m hm]
  · obtain ⟨x, hx, hb, he⟩ := hturn m hm
    rw [hbit m hm] at he
    exact ⟨x, hx, (hst m hm).trans hb, he⟩

end
end Sys2Proof.Machine
end

section
/-! PROOFS. Trips of Channel M's entries, acknowledgement, the ends of what continues (R362, R364, R365, R374). -/

namespace Sys2Proof.Machine

section
variable {d e f : Dev} {m : Nat}

/-! ### Requests made -/

theorem TmSt.stopped_byTrip (q : TmSt) : (q.stopped false).byTrip = true := rfl

theorem EntriesRun.gtc (h : EntriesRun d e) : e.gtc = d.gtc := (congrArg Dev.gtc h.frame.1 :)

theorem tmSpd_tmReg : tmReg m (R.TM_SPD m) := by simp only [tmReg, R.TM_SPD]; omega

/-- The stop that an entry's own words describe, read from a device in which the entry stands. -/
theorem ss1Of_congr (hg : e.gtc = d.gtc) (hs : e.safe.spbM = d.safe.spbM) (h : EntryStands m d e) : e.ss1Of m = d.ss1Of m := by
  rw [Dev.ss1Of, Dev.ss1Of, hg, h.stat _ tmSpd_tmReg]
  simp only [me_of hs]

theorem Dev.stoRequest_run (d : Dev) (hm : m < 20) : EntryRun m d (d.stoRequest m) := by
  rw [Dev.stoRequest]
  exact EntryRun.ite fun _ => (d.latchOff_spec hm (by decide) false).1

theorem Dev.stoRequest_off (hen : d.meEn m = true) : EntryOff m 0xC false d (d.stoRequest m) := by
  rw [Dev.stoRequest, if_pos hen]
  exact (d.latchOff_spec (meEn_lt hen) (by decide) false).2

theorem Dev.ss1Request_run (d : Dev) : EntryRun m d (d.ss1Request m) := by
  rw [Dev.ss1Request, Dev.ss1Begin]
  split
  · exact .refl m d
  · exact (EntryRun.setTm d m _).trans (.putStat _ _ _)

theorem Dev.ss1Request_begun (hen : d.meEn m = true) (hn : (d.tmS m).ss1 = none) :
    (d.ss1Request m).tmS m = { d.tmS m with ss1 := some (d.ss1Of m), still := 0 } ∧ (d.ss1Request m).flag (R.TM_STAT m) F.TM_STAT_SS1_ACT = true := by
  have heq : d.ss1Request m = (d.setTm m { d.tmS m with ss1 := some (d.ss1Of m), still := 0 }).putB (R.TM_STAT m) F.TM_STAT_SS1_ACT true := by
    rw [Dev.ss1Request, Dev.ss1Begin]
    simp only [hen, hn, Bool.not_true, Option.isSome_none, Bool.or_self, Bool.false_eq_true, if_false]
  rw [heq]
  exact ⟨(Dev.tmS_put _ _ _ _ _).trans (d.tmS_setTm_self m _), Dev.flag_putB_self _ _ _ true rfl (by decide)⟩

theorem Dev.safeReqSto_spec {mid : Nat} (ht : d.takenAt mid R.SAFE_REQ_STO = true) (w : Word) :
    FrameOn Dev.safePart safeRegs d (d.safeReqSto mid w) ∧ ∀ m < 20, bitOf ((d.safeReqSto mid w).reg R.SAFE_REQ_STO) m = bitOf w m ∧
      (bitOf w m = true → bitOf (d.reg R.SAFE_REQ_STO) m = false → d.meEn m = true →
        Latched d (d.safeReqSto mid w) m 0xC ∧ ((d.safeReqSto mid w).tmS m).byTrip = true) ∧
      (bitOf w m = false → (d.safeReqSto mid w).tripped m = d.tripped m ∧ (d.safeReqSto mid w).tmS m = d.tmS m) := by
  obtain ⟨hf, v, heq, hall⟩ := Dev.safeReqWrite_spec (.inl rfl) ht w (g := fun m e => e.stoRequest m) fun m hm u => u.stoRequest_run hm
  rw [heq] at hf hall
  rw [Dev.safeReqSto, heq]
  refine ⟨hf, fun m hm => ?_⟩
  obtain ⟨hbit, u, hu, hb, he⟩ := hall m hm
  refine ⟨hbit, fun hw h0 hen => ?_, fun hw => ?_⟩
  · rw [hw, h0, if_pos (by rfl)] at he
    have henu : u.meEn m = true := (meEn_of (hu.spbM.trans (congrArg SafeSt.spbM (d.setReg_safe _ _))) m).trans hen
    have hoff := (Dev.stoRequest_off henu).of_stands hb he
    exact ⟨hoff.latched hm, by rw [(v.grantAll_stands hm).tm, hoff.entry]; rfl⟩
  · rw [hw, Bool.false_and, if_neg Bool.false_ne_true] at he
    have hs := (hb.trans he).trans (v.grantAll_stands hm)
    exact ⟨hs.trip, hs.tm⟩

theorem Dev.safeReqSs1_spec {mid : Nat} (ht : d.takenAt mid R.SAFE_REQ_SS1 = true) (w : Word) :
    FrameOn Dev.safePart safeRegs d (d.safeReqSs1 mid w) ∧ ∀ m < 20, bitOf ((d.safeReqSs1 mid w).reg R.SAFE_REQ_SS1) m = bitOf w m ∧
      (bitOf w m = true → bitOf (d.reg R.SAFE_REQ_SS1) m = false → d.meEn m = true → (d.tmS m).ss1 = none →
        (d.safeReqSs1 mid w).tmS m = { d.tmS m with ss1 := some (d.ss1Of m), still := 0 } ∧
        (d.safeReqSs1 mid w).flag (R.TM_STAT m) F.TM_STAT_SS1_ACT = true) := by
  obtain ⟨hf, v, heq, hall⟩ := Dev.safeReqWrite_spec (.inr (.inl rfl)) ht w (g := fun m e => e.ss1Request m) fun m _ u => u.ss1Request_run
  rw [heq] at hf hall
  rw [Dev.safeReqSs1, heq]
  refine ⟨hf, fun m hm => ?_⟩
  obtain ⟨hbit, u, hu, hb, he⟩ := hall m hm
  refine ⟨hbit, fun hw h0 hen hn => ?_⟩
  rw [hw, h0, if_pos (by rfl)] at he
  have hspb : u.safe.spbM = d.safe.spbM := hu.spbM.trans (congrArg SafeSt.spbM (d.setReg_safe _ _))
  have hgtc : u.gtc = d.gtc := hu.gtc.trans (d.setReg_gtc _ _)
  obtain ⟨ht, hact⟩ := Dev.ss1Request_begun ((meEn_of hspb m).trans hen) ((congrArg TmSt.ss1 hb.tm).trans hn)
  rw [ss1Of_congr hgtc hspb hb, hb.tm] at ht
  have hend := he.trans (v.grantAll_stands hm)
  exact ⟨hend.tm.trans ht, (Dev.flag_of_reg (hend.stat _ tmStat_tmReg) _).trans hact⟩

/-! ### Acknowledgement (R364) -/

theorem meSdd_lt {k : Nat} (h : k ∈ d.meSdd m) : k < 64 := by
  have h' := (List.mem_filter.1 h).1
  simp only [List.mem_cons, List.not_mem_nil, or_false] at h'
  rcases h' with rfl | rfl | rfl | rfl | rfl | rfl | rfl
  all_goals exact getF_lt _ _

theorem chanStat_apart : ∀ {k : Nat}, k < 64 →
    eventReg (R.ADB_CH_STAT k) = false ∧ R.ADB_CH_STAT k ∉ entriesRegs ∧ R.ADB_CH_STAT k ≠ R.SAFE_ACK := by decide

/-- What an acknowledgement asks of an entry, read from a device in which the entry and what it depends on stand. -/
theorem ackBlocked_congr (hr : ∀ a, eventReg a = false → a ∉ entriesRegs → a ≠ R.SAFE_ACK → e.reg a = d.reg a) (hs : e.safe.spbM = d.safe.spbM)
    (h : EntryStands m d e) : e.ackBlocked m = d.ackBlocked m := by
  have hcnt : ∀ x, e.get (R.TM_CNT m) x = d.get (R.TM_CNT m) x := Dev.get_of_reg (h.stat _ tmCnt_tmReg)
  have hstat := hr R.SAFE_STAT (by decide) (by decide) (by decide)
  have hsto := hr R.SAFE_REQ_STO (by decide) (by decide) (by decide)
  have hss1 := hr R.SAFE_REQ_SS1 (by decide) (by decide) (by decide)
  have hrx := hr R.SFX_RX_REQ (by decide) (by decide) (by decide)
  have hlost := hr R.SFX_LOST (by decide) (by decide) (by decide)
  have hst : e.devState = d.devState := Dev.get_of_reg (hr R.SYS_STATE (by decide) (by decide) (by decide)) _
  have hsdd : e.meSdd m = d.meSdd m := by simp only [Dev.meSdd, me_of hs]
  have hchan : ∀ x : RField, ((d.meSdd m).any fun k => e.flag (R.ADB_CH_STAT k) x) = (d.meSdd m).any fun k => d.flag (R.ADB_CH_STAT k) x := fun x => by
    rw [Bool.eq_iff_iff, List.any_eq_true, List.any_eq_true]
    refine exists_congr fun k => and_congr_right fun hk => ?_
    obtain ⟨hq, hn, ha⟩ := chanStat_apart (meSdd_lt hk)
    rw [Dev.flag_of_reg (hr _ hq hn ha)]
  have hl : e.lactSto = d.lactSto := by simp only [Dev.lactSto, hlost, spb_of hs]
  simp only [Dev.ackBlocked, h.tm, hcnt, hsto, hss1, hl, hst, hsdd, hchan, Dev.flag_of_reg hstat, Dev.get_of_reg hrx]

theorem Dev.ackEntry_run (d : Dev) (hm : m < 20) : EntryRun m d (d.ackEntry m) := by
  rw [Dev.ackEntry]
  split
  · exact .refl m d
  · exact ((EntryRun.setTm d m _).trans (.putStat _ _ _)).trans (.showLatch _ hm)

/-- An entry's record once it is acknowledged. -/
def TmSt.acked (q : TmSt) : TmSt := { q with byIn := false, byTrip := false, byDone := false, trips := [], ok := false }

theorem Dev.ackEntry_not (h : d.ackBlocked m = true) : d.ackEntry m = d := by rw [Dev.ackEntry, h, Bool.or_true, if_pos rfl]

theorem Dev.ackEntry_taken (hm : m < 20) (hb : d.ackBlocked m = false) (ht : d.tripped m = true) : (d.ackEntry m).tripped m = false ∧
    (d.ackEntry m).get (R.TM_STAT m) F.TM_STAT_CAUSE = 0 ∧ (d.ackEntry m).tmS m = (d.tmS m).acked := by
  have heq : d.ackEntry m = ((d.setTm m (d.tmS m).acked).put (R.TM_STAT m) F.TM_STAT_CAUSE 0).showLatch m := by
    rw [Dev.ackEntry, hb, ht]
    rfl
  rw [heq]
  have t1 := (Dev.tmS_put (d.setTm m (d.tmS m).acked) _ _ _ _ : ((d.setTm m (d.tmS m).acked).put (R.TM_STAT m) F.TM_STAT_CAUSE 0).tmS m = _).trans (d.tmS_setTm_self m (d.tmS m).acked)
  have c1 := (d.setTm m (d.tmS m).acked).get_put_self (R.TM_STAT m) F.TM_STAT_CAUSE 0 (by decide)
  generalize (d.setTm m (d.tmS m).acked).put (R.TM_STAT m) F.TM_STAT_CAUSE 0 = u at t1 c1 ⊢
  refine ⟨?_, (Dev.get_of_reg (u.showLatch_reg m tmStat_ne) _).trans c1, (u.showLatch_tmS m m).trans t1⟩
  rw [u.showLatch_tripped hm, t1]
  rfl

theorem Dev.safeAck_spec {mid : Nat} (ht : d.takenAt mid R.SAFE_ACK = true) (w : Word) :
    FrameOn Dev.safePart safeRegs d (d.safeAck mid w) ∧ ∀ m < 20,
      (bitOf w m = false ∨ d.ackBlocked m = true → (d.safeAck mid w).tripped m = d.tripped m ∧ (d.safeAck mid w).tmS m = d.tmS m) ∧
      (bitOf w m = true → d.ackBlocked m = false → d.tripped m = true → (d.safeAck mid w).tripped m = false ∧ (d.safeAck mid w).granted m = false ∧
        (d.safeAck mid w).get (R.TM_STAT m) F.TM_STAT_CAUSE = 0 ∧ (d.safeAck mid w).tmS m = (d.tmS m).acked) := by
  obtain ⟨hsafe, -, -, -, -, -⟩ := entryBits_reg (.inr (.inr rfl))
  have heq : d.safeAck mid w = (forN 20 (fun m e => if bitOf w m then e.ackEntry m else e) ((d.bitsTaken R.SAFE_ACK w).setReg R.SAFE_ACK 0)).grantAll := by
    rw [Dev.safeAck, Dev.plainWrite_bits (.inr (.inr rfl)) ht, ht]
    rfl
  have hf : FrameOn Dev.safePart [R.SAFE_ACK] d ((d.bitsTaken R.SAFE_ACK w).setReg R.SAFE_ACK 0) :=
    ((FrameOn.refl safePart_part _ d).setReg safePart_part _ (by simp)).setReg safePart_part _ (by simp)
  have hspb : ((d.bitsTaken R.SAFE_ACK w).setReg R.SAFE_ACK 0).safe = d.safe := (Dev.setReg_safe _ _ _).trans (d.setReg_safe _ _)
  have hst : ∀ m < 20, EntryStands m d ((d.bitsTaken R.SAFE_ACK w).setReg R.SAFE_ACK 0) := fun m hm =>
    (stands_entryBits (.inr (.inr rfl)) d _ hm).trans (stands_entryBits (.inr (.inr rfl)) _ _ hm)
  rw [heq]
  generalize (d.bitsTaken R.SAFE_ACK w).setReg R.SAFE_ACK 0 = u at hf hspb hst
  obtain ⟨hrun, hturn⟩ := entries_turns (g := fun m e => if bitOf w m then e.ackEntry m else e)
    (fun m hm v => EntryRun.ite fun _ => v.ackEntry_run hm) u
  generalize forN 20 (fun m e => if bitOf w m then e.ackEntry m else e) u = v at hrun hturn
  refine ⟨((hf.widen safePart_part safePart_part (fun _ _ => rfl) (by simpa using hsafe)).trans safePart_part hrun.safeFrame).grantedAll, fun m hm => ?_⟩
  obtain ⟨x, hx, hb, he⟩ := hturn m hm
  have hbeg := (hst m hm).trans hb
  have hblk : x.ackBlocked m = d.ackBlocked m := ackBlocked_congr (fun a hq hn ha => (hx.reg hq hn).trans (hf.reg safePart_part hq (by simpa using ha)))
    (hx.spbM.trans (congrArg SafeSt.spbM hspb)) hbeg
  have hend := he.trans (v.grantAll_stands hm)
  refine ⟨fun hor => ?_, fun hw hnb htr => ?_⟩
  · have hsame : (if bitOf w m = true then x.ackEntry m else x) = x := by
      obtain hw | hbl := hor
      · rw [hw, if_neg Bool.false_ne_true]
      · rw [Dev.ackEntry_not (hblk.trans hbl), ite_self]
    rw [hsame] at hend
    have hs := hbeg.trans hend
    exact ⟨hs.trip, hs.tm⟩
  · rw [hw, if_pos rfl] at he hend
    obtain ⟨htrip, hcause, htm⟩ := Dev.ackEntry_taken hm (hblk.trans hnb) (hbeg.trip.trans htr)
    rw [hbeg.tm] at htm
    refine ⟨hend.trip.trans htrip, ?_, hend.cause.trans hcause, hend.tm.trans htm⟩
    rw [v.grantAll_granted hm, Dev.grantOk_unproved]
    rw [he.tm, htm]
    rfl

end
end Sys2Proof.Machine
end

section
/-! PROOFS. Trips of Channel M's entries, and what ends as its timers say (R362, R365, R367, R368, R374). -/

namespace Sys2Proof.Machine

/-! ### Bits of what continues -/

theorem keepBit_cleared {k m : Nat} (h : k / 2 ^ m % 2 = 1) : (k - 2 ^ m) / 2 ^ m % 2 = 0 := by
  have h1 : (k - 2 ^ m) / 2 ^ m = k / 2 ^ m - 1 := by
    have := Nat.sub_mul_div k (2 ^ m) 1
    rwa [Nat.mul_one] at this
  omega

theorem keepBit_other {k m j : Nat} (h : k / 2 ^ m % 2 = 1) (hj : j ≠ m) : (k - 2 ^ m) / 2 ^ j % 2 = k / 2 ^ j % 2 := by
  obtain hlt | hgt := Nat.lt_or_gt_of_ne hj
  · obtain ⟨c, rfl⟩ : ∃ c, m = j + 1 + c := ⟨m - (j + 1), by omega⟩
    have hp : 2 ^ (j + 1 + c) = 2 ^ j * (2 * 2 ^ c) := by rw [Nat.pow_add, Nat.pow_succ, Nat.mul_assoc]
    have hle : 2 * 2 ^ c ≤ k / 2 ^ j := by
      rw [Nat.le_div_iff_mul_le (Nat.two_pow_pos j), Nat.mul_comm, ← hp]
      have hne : k / 2 ^ (j + 1 + c) ≠ 0 := by omega
      exact (Nat.div_ne_zero_iff.1 hne).2
    rw [hp, Nat.sub_mul_div]
    omega
  · obtain ⟨c, rfl⟩ : ∃ c, j = m + 1 + c := ⟨j - (m + 1), by omega⟩
    have hp : 2 ^ (m + 1 + c) = 2 ^ m * 2 * 2 ^ c := by rw [Nat.pow_add, Nat.pow_succ]
    have h1 : (k - 2 ^ m) / 2 ^ m = k / 2 ^ m - 1 := by
      have := Nat.sub_mul_div k (2 ^ m) 1
      rwa [Nat.mul_one] at this
    rw [hp, ← Nat.div_div_eq_div_mul, ← Nat.div_div_eq_div_mul, ← Nat.div_div_eq_div_mul, ← Nat.div_div_eq_div_mul, h1]
    have h2 : (k / 2 ^ m - 1) / 2 = k / 2 ^ m / 2 := by
      clear h1 hp
      generalize k / 2 ^ m = q at h
      omega
    rw [h2]

section
variable {d e f : Dev} {m : Nat}

/-! ### What continues ends (R374) -/

theorem Dev.keepEnds_frame (d : Dev) (m : Nat) : FrameOn gatePart gateRegs d (d.keepEnds m) := by
  rw [Dev.keepEnds]
  refine FrameOn.ite (fun _ => ?_) fun _ => FrameOn.refl gatePart_part _ d
  have h1 : FrameOn gatePart gateRegs d { d with safe := { d.safe with keep := d.safe.keep - 2 ^ m } } :=
    (FrameOn.refl gatePart_part _ d).part gatePart_part rfl fun _ => rfl
  exact foldl_keeps (P := FrameOn gatePart gateRegs d) (fun g _ u hu => hu.gateM (fun _ h => h) g false)
    (h1.setReg (a := R.SAFE_GRANT) gatePart_part (setBit (d.reg R.SAFE_GRANT) m false) (by decide))

/-- What continues, without one entry. -/
def keepLess (k m : Nat) : Nat := if k / 2 ^ m % 2 = 1 then k - 2 ^ m else k

theorem Dev.keepEnds_safe (d : Dev) (m : Nat) : (d.keepEnds m).safe = { d.safe with keep := keepLess d.safe.keep m } := by
  rw [Dev.keepEnds, keepLess]
  split
  · exact foldl_keeps (P := fun e : Dev => e.safe = { d.safe with keep := d.safe.keep - 2 ^ m }) (fun g _ u hu => (u.setGenM_safe g false).trans hu)
      (Dev.setReg_safe _ _ _)
  · rfl

theorem keepLess_own (k m : Nat) : keepLess k m / 2 ^ m % 2 = 0 := by
  rw [keepLess]
  split
  · next h => exact keepBit_cleared h
  · omega

theorem keepLess_other (k : Nat) {m j : Nat} (hj : j ≠ m) : keepLess k m / 2 ^ j % 2 = k / 2 ^ j % 2 := by
  rw [keepLess]
  split
  · next h => exact keepBit_other h hj
  · rfl

theorem tmS_of (h : e.tm = d.tm) (j : Nat) : e.tmS j = d.tmS j := congrArg (fun l => spGet _ l j) h

theorem FrameOn.gateTm (h : FrameOn gatePart gateRegs d e) : e.tm = d.tm := (congrArg Dev.tm h.1 :)

/-! ### A trip (R362) -/

/-- An entry's record after a trip. -/
def TmSt.tripped (q : TmSt) (cause : Nat) : TmSt := { q.stopped false with trips := cause :: q.trips.filter (· != cause) }

/-- An entry has tripped. -/
structure TripRun (m cause : Nat) (d e : Dev) : Prop where
  frame : FrameOn Dev.safePart safeRegs d e
  entry : e.tmS m = (d.tmS m).tripped cause
  tm : ∀ j, j ≠ m → e.tmS j = d.tmS j
  others : ∀ j < 20, j ≠ m → EntryStands j d e
  trip : e.tripped m = true
  grant : e.granted m = false
  why : e.get (R.TM_STAT m) F.TM_STAT_CAUSE = if d.get (R.TM_STAT m) F.TM_STAT_CAUSE = 0 then cause else d.get (R.TM_STAT m) F.TM_STAT_CAUSE
  told : Raised e Pg.SAFE Ev.TM_TRIP
  own : ∀ a, tmReg m a → a ≠ R.TM_STAT m → e.reg a = d.reg a
  valid : e.flag (R.TM_STAT m) F.TM_STAT_VALID = d.flag (R.TM_STAT m) F.TM_STAT_VALID
  block : e.safe = { d.safe with disM := e.safe.disM, keep := keepLess d.safe.keep m }

theorem TripRun.latched {cause : Nat} (h : TripRun m cause d e) : Latched d e m cause := ⟨h.trip, h.grant, by rw [h.entry]; rfl, h.why⟩

/-- The record of a trip, before the grant. -/
def Dev.tripNoted (d : Dev) (m cause : Nat) : Dev :=
  let e := d.setTm m { d.tmS m with trips := cause :: (d.tmS m).trips.filter (· != cause) }
  (e.emitProt { ty := 0x22, res := m, tick := e.gtc, data := [BitVec.ofNat 32 cause] }).keepEnds m

theorem Dev.tmTrip_eq (d : Dev) (m cause : Nat) :
    d.tmTrip m cause = ((((d.latchSto m cause false).ss1Off m).tripNoted m cause).machEvent m Ev.TM_TRIP).grantAll := rfl

theorem stands_quiet (h : Quiet d e) (hm : m < 20) : EntryStands m d e :=
  ⟨h.tmS m, congrArg (bitOf · m) (h.reg (by decide)), fun _ ha => h.reg (tmReg_quiet hm ha)⟩

/-- A machine's event on its page. -/
structure MachTold (m src : Nat) (d e : Dev) : Prop where
  frame : FrameOn Dev.safePart safeRegs d e
  tm : e.tm = d.tm
  stands : ∀ j < 20, EntryStands j d e
  reg : ∀ a, eventReg a = false → a ≠ R.SAFE_FLAG → e.reg a = d.reg a
  safe : e.safe = d.safe
  told : Raised e Pg.SAFE src
  kept : ∀ page s, Raised d page s → Raised e page s

theorem Dev.machEvent_told (d : Dev) (m src : Nat) : MachTold m src d (d.machEvent m src) := by
  rw [Dev.machEvent]
  have hf : FrameOn Dev.safePart safeRegs d (d.orReg R.SAFE_FLAG (bitWord m)) := (FrameOn.refl safePart_part _ d).orReg safePart_part _ (by decide)
  have hst : ∀ j < 20, EntryStands j d (d.orReg R.SAFE_FLAG (bitWord m)) := fun j _ =>
    ⟨d.tmS_setReg _ _ _, congrArg (bitOf · j) (d.reg_setReg_ne _ (by decide)), fun a ha => d.reg_setReg_ne _ (by
      unfold tmReg at ha
      simp only [R.SAFE_FLAG]
      omega)⟩
  have hq := (d.orReg R.SAFE_FLAG (bitWord m)).raiseN_quiet Pg.SAFE src m
  refine ⟨hf.quiet safePart_part hq, hq.tm.trans (d.setReg_tm _ _), fun j hj => (hst j hj).trans (stands_quiet hq hj), fun a ha hne => (hq.reg ha).trans (d.reg_setReg_ne _ hne), ?_,
    Dev.raiseN_raised _ m rfl, fun page s hr => hq.raised (hf.raised safePart_part (pgEvtRaw_not_safe page) hr)⟩
  have hs : ((d.orReg R.SAFE_FLAG (bitWord m)).raiseN Pg.SAFE src m).safe = (d.orReg R.SAFE_FLAG (bitWord m)).safe := (congrArg Dev.safe hq.1 :)
  exact hs.trans (d.setReg_safe _ _)

/-- What the record of a trip leaves and makes. -/
structure TripNoted (m cause : Nat) (d e : Dev) : Prop where
  frame : FrameOn Dev.safePart safeRegs d e
  entry : e.tmS m = { d.tmS m with trips := cause :: (d.tmS m).trips.filter (· != cause) }
  tm : ∀ j, j ≠ m → e.tmS j = d.tmS j
  others : ∀ j < 20, j ≠ m → EntryStands j d e
  trip : e.tripped m = d.tripped m
  own : ∀ a, tmReg m a → e.reg a = d.reg a
  safe : e.safe = { d.safe with keep := keepLess d.safe.keep m }

theorem Dev.tripNoted_spec (d : Dev) (hm : m < 20) (cause : Nat) : TripNoted m cause d (d.tripNoted m cause) := by
  rw [Dev.tripNoted]
  have h1 := EntryRun.setTm d m { d.tmS m with trips := cause :: (d.tmS m).trips.filter (· != cause) }
  have t1 := d.tmS_setTm_self m { d.tmS m with trips := cause :: (d.tmS m).trips.filter (· != cause) }
  have r1 : ∀ a, (d.setTm m { d.tmS m with trips := cause :: (d.tmS m).trips.filter (· != cause) }).reg a = d.reg a := fun _ => rfl
  have s1 : (d.setTm m { d.tmS m with trips := cause :: (d.tmS m).trips.filter (· != cause) }).safe = d.safe := rfl
  generalize d.setTm m { d.tmS m with trips := cause :: (d.tmS m).trips.filter (· != cause) } = u at h1 t1 r1 s1 ⊢
  have hq := u.emitProt_quiet { ty := 0x22, res := m, tick := u.gtc, data := [BitVec.ofNat 32 cause] }
  generalize u.emitProt { ty := 0x22, res := m, tick := u.gtc, data := [BitVec.ofNat 32 cause] } = v at hq
  have hk := v.keepEnds_frame m
  have hst : ∀ j < 20, EntryStands j u (v.keepEnds m) := fun j hj => (stands_quiet hq hj).trans (hk.gateStands hj)
  have hsafe : v.safe = d.safe := (congrArg Dev.safe hq.1 : _).trans s1
  refine ⟨?_, (hst m hm).tm.trans t1, fun j hne => ?_, fun j hj hne => (h1.stands hj hne).trans (hst j hj), (hst m hm).trip.trans (congrArg (bitOf · m) (r1 _)),
    fun a ha => ((hst m hm).stat a ha).trans (r1 a), ?_⟩
  · exact ((h1.safeFrame hm).quiet safePart_part hq).trans safePart_part hk.gateSafe
  · exact (tmS_of (hk.gateTm.trans hq.tm) j).trans (h1.tm j hne)
  · rw [v.keepEnds_safe, hsafe]

theorem tmReg_not_own {a : Nat} (ha : tmReg m a) (hne : a ≠ R.TM_STAT m) : a ∉ entryRegs m := by
  simp only [entryRegs, List.mem_cons, List.not_mem_nil, or_false, R.SAFE_TRIP]
  unfold tmReg at ha
  omega

theorem Dev.tmTrip_run (d : Dev) (hm : m < 20) {cause : Nat} (hc : cause < 16) : TripRun m cause d (d.tmTrip m cause) := by
  rw [Dev.tmTrip_eq]
  obtain ⟨hrun, hoff⟩ := d.latchOff_spec hm hc false
  generalize (d.latchSto m cause false).ss1Off m = u at hrun hoff
  have hn := u.tripNoted_spec hm cause
  generalize u.tripNoted m cause = v at hn
  have he := v.machEvent_told m Ev.TM_TRIP
  generalize v.machEvent m Ev.TM_TRIP = w at he
  have hend := (he.stands m hm).trans (w.grantAll_stands hm)
  have htrip : w.tripped m = true := (he.stands m hm).trip.trans (hn.trip.trans hoff.trip)
  have hsafe : w.grantAll.safe = { u.safe with keep := keepLess u.safe.keep m } := w.grantAll_safe.trans (he.safe.trans hn.safe)
  refine ⟨(((hrun.safeFrame hm).trans safePart_part hn.frame).trans safePart_part he.frame).grantedAll, ?_, fun j hne => ?_, fun j hj hne => ?_,
    (w.grantAll_stands hm).trip.trans htrip, ?_, ?_, w.grantAll_told he.told, fun a ha hne => ?_, ?_, ?_⟩
  · rw [hend.tm, hn.entry, hoff.entry]
    rfl
  · exact (tmS_of (w.grantAll_frame.gateTm.trans he.tm) j).trans ((hn.tm j hne).trans (hrun.tm j hne))
  · exact (((hrun.stands hj hne).trans (hn.others j hj hne)).trans (he.stands j hj)).trans (w.grantAll_stands hj)
  · rw [w.grantAll_granted hm, Dev.grantOk_tripped htrip]
  · rw [hend.cause, Dev.get_of_reg (hn.own _ tmStat_tmReg), hoff.why]
  · rw [hend.stat a ha, hn.own a ha]
    exact hrun.reg (tmReg_quiet hm ha) (tmReg_not_own ha hne)
  · rw [hend.valid, Dev.flag_of_reg (hn.own _ tmStat_tmReg), hoff.valid]
  · have hb := hrun.block
    unfold SafeStands at hb
    rw [hsafe, hb]

/-! ### OVERCAST's end (R402) -/

/-- What the end of OVERCAST leaves of the entries. -/
structure OvcRun (d e : Dev) : Prop where
  frame : FrameOn Dev.safePart safeRegs d e
  tm : e.tm = d.tm
  stands : ∀ j < 20, EntryStands j d e
  denied : ∀ j < 20, d.granted j = false → d.tripped j = true → e.granted j = false
  keep : e.safe.keep = d.safe.keep
  kept : ∀ page s, Raised d page s → Raised e page s

theorem OvcRun.refl (d : Dev) : OvcRun d d := ⟨FrameOn.refl safePart_part _ d, rfl, fun j _ => .refl j d, fun _ _ h _ => h, rfl, fun _ _ h => h⟩

/-- Channel M's outputs as OVERCAST's end leaves them. -/
def Dev.ovcEnded (d : Dev) : Dev :=
  ({ d with safe := { d.safe with ovcDone := true } }.putB R.SAFE_OUT F.SAFE_OUT_PBRK_M_REL false).putB R.SAFE_OUT F.SAFE_OUT_PBRK_P_REL false

theorem Dev.overcastDone_eq (d : Dev) : d.overcastDone = d ∨ d.overcastDone = d.ovcEnded.grantAll.raise Pg.SFX Ev.OVERCAST_DONE := by
  rw [Dev.overcastDone]
  split
  · exact .inr rfl
  · exact .inl rfl

theorem Dev.overcastDone_run (d : Dev) : OvcRun d d.overcastDone := by
  obtain h | h := d.overcastDone_eq
  · rw [h]
    exact .refl d
  rw [h]
  have hf : FrameOn Dev.safePart safeRegs d d.ovcEnded :=
    (((FrameOn.refl safePart_part _ d).part (f := { d with safe := { d.safe with ovcDone := true } }) safePart_part rfl fun _ => rfl).putB safePart_part
      _ _ (by decide)).putB safePart_part _ _ (by decide)
  have hreg : ∀ a, a ≠ R.SAFE_OUT → d.ovcEnded.reg a = d.reg a := fun a ha => (Dev.reg_put_ne _ _ _ ha).trans (Dev.reg_put_ne _ _ _ ha)
  have hsafe : d.ovcEnded.safe = { d.safe with ovcDone := true } := (Dev.put_safe _ _ _ _).trans (Dev.put_safe _ _ _ _)
  have htm : d.ovcEnded.tm = d.tm := (Dev.put_tm _ _ _ _).trans (Dev.put_tm _ _ _ _)
  generalize d.ovcEnded = u at hf hreg hsafe htm
  have hq := u.grantAll.raise_quiet Pg.SFX Ev.OVERCAST_DONE
  have hst : ∀ j < 20, EntryStands j d u := fun j _ => ⟨tmS_of htm j, congrArg (bitOf · j) (hreg _ (by decide)), fun a ha => hreg a (by
    unfold tmReg at ha
    simp only [R.SAFE_OUT]
    omega)⟩
  refine ⟨hf.grantedAll.quiet safePart_part hq, (hq.tm.trans u.grantAll_frame.gateTm).trans htm, fun j hj => ((hst j hj).trans (u.grantAll_stands hj)).trans (stands_quiet hq hj), fun j hj _ ht => ?_, ?_,
    fun page s hr => hq.raised (u.grantAll_told (hf.raised safePart_part (pgEvtRaw_not_safe page) hr))⟩
  · rw [Dev.granted, hq.reg (by decide)]
    exact (u.grantAll_granted hj).trans (Dev.grantOk_tripped ((hst j hj).trip.trans ht))
  · rw [hq.safe, u.grantAll_safe, hsafe]

end
end Sys2Proof.Machine
end

section
/-! PROOFS. The timers of Channel M's entries, and STO, SS1, acknowledgement and ASC release whole (R44, R364, R365, R367, R368). -/

namespace Sys2Proof.Machine

section
variable {d e f : Dev} {m : Nat}

/-! ### Releases that leave the entries (R364) -/

theorem Dev.stoRelease_p (h : d.flag R.SAFE_STAT F.SAFE_STAT_STO_P_IN = true) :
    d.stoRelease true = d.putB R.SAFE_STAT F.SAFE_STAT_STO_P_IN false := by
  rw [Dev.stoRelease]
  simp only [if_true, h, Bool.not_true, Bool.false_eq_true, if_false, Bool.true_or]

theorem Dev.stoRelease_stays (h : d.flag R.SAFE_STAT F.SAFE_STAT_STO_M_IN = true) (ha : d.sdDev F.SD_DEV_STO_AUTO = 0) :
    d.stoRelease false = d.putB R.SAFE_STAT F.SAFE_STAT_STO_M_IN false := by
  have h0 := sdDev_of (d := d) (e := d.putB R.SAFE_STAT F.SAFE_STAT_STO_M_IN false) (congrArg SafeSt.spbM (d.put_safe _ _ _)) F.SD_DEV_STO_AUTO
  have hauto : ((d.putB R.SAFE_STAT F.SAFE_STAT_STO_M_IN false).sdDev F.SD_DEV_STO_AUTO == 0) = true := beq_iff_eq.2 (h0.trans ha)
  rw [Dev.stoRelease]
  simp only [Bool.false_eq_true, if_false, h, Bool.not_true, Bool.false_or, hauto, if_true]

/-! ### SS1's time limit (R365) -/

theorem Dev.ss1Fail_eq (hen : d.meEn m = true) {x : Ss1St} (hx : (d.tmS m).ss1 = some x) (hdue : x.t0 + x.tmax ≤ d.gtc) :
    d.ss1Fail m = ((d.tmTrip m 5).machEvent m Ev.SS1_FAIL).overcastDone := by
  rw [Dev.ss1Fail, hx]
  simp only [hen, Bool.true_and, decide_eq_true_eq]
  exact if_pos hdue

theorem Dev.ss1Fail_spec (hen : d.meEn m = true) {x : Ss1St} (hx : (d.tmS m).ss1 = some x) (hdue : x.t0 + x.tmax ≤ d.gtc) :
    FrameOn Dev.safePart safeRegs d (d.ss1Fail m) ∧ Latched d (d.ss1Fail m) m 5 ∧ ((d.ss1Fail m).tmS m).byTrip = true ∧
    Raised (d.ss1Fail m) Pg.SAFE Ev.SS1_FAIL ∧ Raised (d.ss1Fail m) Pg.SAFE Ev.TM_TRIP := by
  have hm := meEn_lt hen
  rw [Dev.ss1Fail_eq hen hx hdue]
  have ht := d.tmTrip_run hm (cause := 5) (by decide)
  generalize d.tmTrip m 5 = u at ht
  have he := u.machEvent_told m Ev.SS1_FAIL
  generalize u.machEvent m Ev.SS1_FAIL = v at he
  have ho := v.overcastDone_run
  generalize v.overcastDone = w at ho
  have hs := (he.stands m hm).trans (ho.stands m hm)
  have hgrant : v.granted m = false := (congrArg (bitOf · m) (he.reg _ (by decide) (by decide))).trans ht.grant
  have htm : w.tmS m = (d.tmS m).tripped 5 := hs.tm.trans ht.entry
  refine ⟨(ht.frame.trans safePart_part he.frame).trans safePart_part ho.frame, ⟨hs.trip.trans ht.trip, ?_, ?_, hs.cause.trans ht.why⟩, ?_,
    ho.kept _ _ he.told, ho.kept _ _ (he.kept _ _ ht.told)⟩
  · exact ho.denied m hm hgrant ((he.stands m hm).trip.trans ht.trip)
  · rw [htm]
    rfl
  · rw [htm]
    rfl

/-! ### The ASC of SAFE_HOLD (R367) -/

theorem Dev.ascRelease_eq (hen : d.meEn m = true) {t : Nat} (hs : (d.tmS m).slow = some t) (hdue : t + msTicks 20 ≤ d.gtc)
    (hst : d.devState = DS.SAFE_HOLD) (ha : d.me m 0 F.ME_CFG_ASC_HOLD = 1) (hm : d.mState m = MS.ASC) (hk : d.safe.keep / 2 ^ m % 2 = 1) :
    d.ascRelease m = (d.keepEnds m).grantAll := by
  rw [Dev.ascRelease, hs]
  simp only [hen, hst, ha, hm, hk, decide_eq_true hdue, beq_self_eq_true, Bool.and_self, if_true]

theorem meGroups_lt {g : Nat} (hm : m < 20) (h : g ∈ d.meGroups m) : g < 20 := by
  rw [Dev.meGroups] at h
  split at h
  · next s hs =>
    have := secOf_lt hs
    simp only [List.mem_cons, List.not_mem_nil, or_false] at h
    omega
  · have := List.mem_singleton.1 h
    omega

theorem meGroups_of_reg (h : e.reg R.PWG_PAIR = d.reg R.PWG_PAIR) (m : Nat) : e.meGroups m = d.meGroups m := by
  simp only [Dev.meGroups, Dev.secOf, h]

theorem Dev.ascRelease_spec (hen : d.meEn m = true) (hst : d.devState = DS.SAFE_HOLD) (hk : d.safe.keep / 2 ^ m % 2 = 1)
    (heq : d.ascRelease m = (d.keepEnds m).grantAll) : FrameOn Dev.safePart safeRegs d (d.ascRelease m) ∧
    (d.ascRelease m).safe = { d.safe with keep := d.safe.keep - 2 ^ m } ∧ (d.ascRelease m).granted m = false ∧
    ∀ g ∈ d.meGroups m, groupPresent d.member g = true → (∀ j, j ≠ m → d.meEn j = true → g ∉ d.meGroups j) → (d.ascRelease m).genM g = false := by
  have hm := meEn_lt hen
  rw [heq]
  have hf := d.keepEnds_frame m
  have hsafe := d.keepEnds_safe m
  rw [keepLess, if_pos hk] at hsafe
  generalize d.keepEnds m = u at hf hsafe
  have hstu : u.devState = DS.SAFE_HOLD := (Dev.get_of_reg (hf.reg gatePart_part (by decide) (by decide)) _).trans hst
  have hno : u.grantOk m = false := by
    rw [Dev.grantOk, hstu, hsafe, keepBit_cleared hk]
    simp [DS.SAFE_HOLD, DS.RUN, DS.OVERCAST]
  refine ⟨hf.gateSafe.grantedAll, u.grantAll_safe.trans hsafe, (u.grantAll_granted hm).trans hno, fun g hg hp hother => ?_⟩
  have hmem : u.member = d.member := (congrArg Dev.member hf.1 :)
  rw [u.grantAll_genM (meGroups_lt hm hg) (hmem ▸ hp), Bool.eq_false_iff]
  intro hc
  obtain ⟨j, hj, hgj⟩ := List.mem_flatMap.1 (List.contains_iff_mem.1 hc)
  obtain ⟨-, hok⟩ := mem_entriesThat.1 hj
  have hne : j ≠ m := fun h => by rw [h, hno] at hok; exact Bool.false_ne_true hok
  have hena : u.meEn j = true := by
    simp only [Dev.grantOk, Bool.and_eq_true] at hok
    exact hok.1.1.1.1.1.1.1.1
  have hspb : u.safe.spbM = d.safe.spbM := by rw [hsafe]
  rw [meGroups_of_reg (hf.reg gatePart_part (by decide) (by decide))] at hgj
  exact hother j hne ((meEn_of hspb j).symm.trans hena) hgj

/-! ### A late discharge (R368) -/

/-- Channel M's safety state alone. -/
def safeOnly (d e : Dev) : Dev := { d with safe := e.safe }

theorem safeOnly_part : Part safeOnly := ⟨fun _ => rfl, fun _ _ _ => rfl, fun _ _ => rfl, fun _ _ _ => rfl⟩

/-- A discharge written down as late. -/
def Dev.disLate (d : Dev) (m : Nat) (q : DisSt) : Dev :=
  { d with safe := { d.safe with disM := spPut {} d.safe.disM m { q with late := true } } }

theorem Dev.disMLate_spec (hen : d.meEn m = true) {q : DisSt} (hq : spGet {} d.safe.disM m = q) (h1 : q.at1 ≠ 0) (h2 : q.low = false)
    (h3 : q.late = false) (h4 : q.at1 + msTicks (d.me m 13 F.ME_ASC_DIS_DL_M) ≤ d.gtc + 1) :
    FrameOn safeOnly [R.SAFE_OUT] d (d.disMLate m) ∧ spGet {} (d.disMLate m).safe.disM m = { q with late := true } ∧
    (d.disMLate m).flag R.SAFE_OUT F.SAFE_OUT_DIS_M_LATE = true ∧ Raised (d.disMLate m) Pg.SAFE Ev.DIS_M_LATE := by
  have heq : d.disMLate m = ((d.disLate m q).putB R.SAFE_OUT F.SAFE_OUT_DIS_M_LATE true).raiseN Pg.SAFE Ev.DIS_M_LATE m := by
    have hc : (d.meEn m && q.at1 != 0 && !q.low && !q.late && decide (q.at1 + msTicks (d.me m 13 F.ME_ASC_DIS_DL_M) ≤ d.gtc + 1)) = true := by
      simp only [hen, h2, h3, bne_iff_ne.2 h1, decide_eq_true h4, Bool.not_false, Bool.and_self]
    unfold Dev.disMLate Dev.disLate
    rw [hq]
    exact if_pos hc
  rw [heq]
  have hsafe : ((d.disLate m q).putB R.SAFE_OUT F.SAFE_OUT_DIS_M_LATE true).safe = (d.disLate m q).safe := Dev.put_safe _ _ _ _
  have hdis : spGet {} (d.disLate m q).safe.disM m = { q with late := true } := spGet_spPut_self _ _ _
  have hf := ((FrameOn.refl safeOnly_part [R.SAFE_OUT] d).part (f := d.disLate m q) safeOnly_part rfl fun _ => rfl).putB safeOnly_part
    F.SAFE_OUT_DIS_M_LATE true (List.mem_singleton.2 rfl)
  have hflag := (d.disLate m q).flag_putB_self R.SAFE_OUT F.SAFE_OUT_DIS_M_LATE true rfl (by decide)
  generalize (d.disLate m q).putB R.SAFE_OUT F.SAFE_OUT_DIS_M_LATE true = u at hsafe hf hflag
  have hr := u.raiseN_quiet Pg.SAFE Ev.DIS_M_LATE m
  exact ⟨hf.quiet safeOnly_part hr, by rw [hr.safe, hsafe, hdis], (Dev.flag_of_reg (hr.reg (by decide)) _).trans hflag, Dev.raiseN_raised _ m rfl⟩

end

/-- Settles O38: an input latches each entry in turn and the grant then denies it; a request and an acknowledgement act on each entry by
itself, from what stood of it before. -/
theorem safeTorqueOff : Obligations.SafeTorqueOff := by
  unfold Obligations.SafeTorqueOff
  intro s hs d part
  refine ⟨fun h => DevNext.onDev hs (Dev.stoActive_p_spec h), fun h => DevNext.onDev hs (Dev.stoActive_m_spec h), fun h => onDev_eq hs ?_,
    fun h => ⟨fun ha => onDev_eq hs ?_, fun ha => DevNext.onDev hs (Dev.stoRelease_m_spec h ha)⟩,
    fun mid w ht => DevNext.onDev hs (Dev.safeReqSto_spec ht w), fun mid w ht => DevNext.onDev hs (Dev.safeReqSs1_spec ht w),
    fun mid w ht => DevNext.onDev hs (Dev.safeAck_spec ht w), fun m hen => ⟨fun x hx hz hdue => ?_, fun t ht hz hdue hst ha hm hk => ?_,
    fun q hq hz h1 h2 h3 h4 => ?_⟩⟩
  · exact Dev.stoRelease_p h
  · exact Dev.stoRelease_stays h ha
  · exact DevNext.onDev hs (by rw [Dev.clocked_runs hz]; exact Dev.ss1Fail_spec hen hx hdue)
  · exact DevNext.onDev hs (by rw [Dev.clocked_runs hz]; exact Dev.ascRelease_spec hen hst hk (Dev.ascRelease_eq hen ht hdue hst ha hm hk))
  · exact DevNext.onDev hs (by rw [Dev.clocked_runs hz]; exact Dev.disMLate_spec hen hq h1 h2 h3 h4)

end Sys2Proof.Machine
end

section
/-! PROOFS. What the checks of a torque monitor keep of the values it shows (R357, R360 to R363). -/

namespace Sys2Proof.Machine

section
variable {d e f : Dev} {m : Nat}

/-- What the checks of an entry leave of its evaluation: the other entries, its values, its latch once it is set. -/
structure EvalKept (m : Nat) (d e : Dev) : Prop where
  tm : ∀ j, j ≠ m → e.tmS j = d.tmS j
  next : (e.tmS m).next = (d.tmS m).next
  old : (e.tmS m).old = (d.tmS m).old
  smp : (e.tmS m).smp = (d.tmS m).smp
  own : ∀ a, tmReg m a → a ≠ R.TM_STAT m → a ≠ R.TM_CNT m → e.reg a = d.reg a
  valid : e.flag (R.TM_STAT m) F.TM_STAT_VALID = d.flag (R.TM_STAT m) F.TM_STAT_VALID
  trip : d.tripped m = true → e.tripped m = true
  told : ∀ page src, Raised d page src → Raised e page src
  live : e.replaying = d.replaying

theorem EvalKept.refl (m : Nat) (d : Dev) : EvalKept m d d := ⟨fun _ _ => rfl, rfl, rfl, rfl, fun _ _ _ _ => rfl, rfl, id, fun _ _ => id, rfl⟩

theorem EvalKept.trans (h : EvalKept m d e) (k : EvalKept m e f) : EvalKept m d f :=
  ⟨fun j hj => (k.tm j hj).trans (h.tm j hj), k.next.trans h.next, k.old.trans h.old, k.smp.trans h.smp,
    fun a ha h1 h2 => (k.own a ha h1 h2).trans (h.own a ha h1 h2), k.valid.trans h.valid, fun ht => k.trip (h.trip ht),
    fun p s hr => k.told p s (h.told p s hr), k.live.trans h.live⟩

/-- Nothing of the entry's changes. -/
theorem EvalKept.of_stands (ht : e.tm = d.tm) (hs : EntryStands m d e) (hr : ∀ page src, Raised d page src → Raised e page src)
    (hl : e.reg R.RPL_STAT = d.reg R.RPL_STAT) : EvalKept m d e :=
  have hm := hs.tm
  ⟨fun j _ => tmS_of ht j, congrArg TmSt.next hm, congrArg TmSt.old hm, congrArg TmSt.smp hm, fun a ha _ _ => hs.stat a ha, hs.valid,
    fun h => hs.trip.trans h, hr, Dev.flag_of_reg hl _⟩

theorem EvalKept.of_quiet (h : Quiet d e) (hm : m < 20) : EvalKept m d e :=
  .of_stands h.tm (stands_quiet h hm) (fun _ _ => h.raised) (h.reg (by decide))

theorem EvalKept.gate (h : FrameOn gatePart gateRegs d e) (hm : m < 20) : EvalKept m d e :=
  .of_stands h.gateTm (h.gateStands hm) (fun _ _ => h.raised gatePart_part (gateRegs_not_raw _)) (h.reg gatePart_part (by decide) (by decide))

theorem EvalKept.ovc (h : OvcRun d e) (hm : m < 20) : EvalKept m d e :=
  .of_stands h.tm (h.stands m hm) h.kept (h.frame.reg safePart_part (by decide) (by decide))

theorem EvalKept.safe (d : Dev) (v : SafeSt) : EvalKept m d { d with safe := v } := .of_stands rfl ⟨rfl, rfl, fun _ _ => rfl⟩ (fun _ _ => id) rfl

/-- A SAFE_HOLD entered by a recomputation leaves the entries. -/
theorem EvalKept.hold (h : HoldRun d e) (hm : m < 20) : EvalKept m d e := by
  refine .of_stands (congrArg Dev.tm h.1 :) ⟨(congrArg (fun u : Dev => u.tmS m) h.1 :), congrArg (bitOf · m) (h.read (by decide) (by unfold offTrans; decide) (by decide)),
    fun a ha => h.read (tmReg_quiet hm ha) ?_ ?_⟩ (fun _ _ => h.told) (h.read (by decide) (by unfold offTrans; decide) (by decide))
  · unfold tmReg at ha
    simp only [offTrans, R.SYS_ABSENT_CNT, R.SAFE_FLAG, R.SAFE_OUT, R.SAFE_GRANT, R.SYS_STATE]
    omega
  · unfold tmReg at ha
    simp only [R.SAFE_HOLD_INFO]
    omega

theorem EvalKept.tripped {cause : Nat} (h : TripRun m cause d e) : EvalKept m d e :=
  have ht := h.entry
  ⟨h.tm, by rw [ht]; rfl, by rw [ht]; rfl, by rw [ht]; rfl, fun a ha h1 _ => h.own a ha h1, h.valid, fun _ => h.trip,
    fun _ _ => h.frame.raised safePart_part (pgEvtRaw_not_safe _), Dev.flag_of_reg (h.frame.reg safePart_part (by decide) (by decide)) _⟩

/-- An entry's record written, its values kept. -/
theorem EvalKept.setTm (d : Dev) {v : TmSt} (h1 : v.next = (d.tmS m).next) (h2 : v.old = (d.tmS m).old) (h3 : v.smp = (d.tmS m).smp) :
    EvalKept m d (d.setTm m v) :=
  have ht := d.tmS_setTm_self m v
  ⟨fun j hj => (d.tmS_setTm m j v).trans (if_neg hj), (congrArg TmSt.next ht).trans h1, (congrArg TmSt.old ht).trans h2, (congrArg TmSt.smp ht).trans h3,
    fun _ _ _ _ => rfl, rfl, id, fun _ _ => id, rfl⟩

/-- A register of the entry written that shows none of its values. -/
theorem EvalKept.put (d : Dev) (hm : m < 20) {a : Nat} (x : RField) (v : Nat)
    (h : a = R.TM_CNT m ∨ a = R.TM_STAT m ∧ (x.lo + fieldWidth x ≤ 31)) : EvalKept m d (d.put a x v) := by
  have ha : tmReg m a ∧ (a = R.TM_STAT m ∨ a = R.TM_CNT m) := by
    obtain rfl | ⟨rfl, -⟩ := h
    · exact ⟨tmCnt_tmReg, .inr rfl⟩
    · exact ⟨tmStat_tmReg, .inl rfl⟩
  have hq := tmReg_quiet hm ha.1
  have hne : ∀ q, R.PG_EVT_RAW q ≠ a := fun q hc => by
    have := ha.1
    rw [← hc] at this
    unfold tmReg at this
    simp only [R.PG_EVT_RAW, pageBase] at this
    omega
  refine ⟨fun j _ => d.tmS_put _ _ _ _, congrArg TmSt.next (d.tmS_put _ _ _ _), congrArg TmSt.old (d.tmS_put _ _ _ _),
    congrArg TmSt.smp (d.tmS_put _ _ _ _), fun b _ h1 h2 => d.reg_put_ne x v ?_, ?_, fun ht => ?_, fun p s hr => ?_, ?_⟩
  · obtain h3 | h3 := ha.2
    · exact fun hb => h1 (hb.trans h3)
    · exact fun hb => h2 (hb.trans h3)
  · obtain rfl | ⟨rfl, hx⟩ := h
    · exact Dev.flag_of_reg (d.reg_put_ne x v (by simp only [R.TM_STAT, R.TM_CNT]; omega)) _
    · exact d.flag_put_field _ _ v (.inl (by simpa [F.TM_STAT_VALID] using hx))
  · have hr : (d.put a x v).reg R.SAFE_TRIP = d.reg R.SAFE_TRIP := d.reg_put_ne x v fun hc => by
      have := ha.1
      rw [← hc] at this
      unfold tmReg at this
      simp only [R.SAFE_TRIP] at this
      omega
    exact (congrArg (bitOf · m) hr).trans ht
  · unfold Raised at hr ⊢
    rw [d.reg_put_ne x v (hne p)]
    exact hr
  · refine Dev.flag_of_reg (d.reg_put_ne x v fun hc => ?_) _
    have := ha.1
    rw [← hc] at this
    unfold tmReg at this
    simp only [R.RPL_STAT] at this
    omega

/-! ### The checks (R360) -/

/-- What the check of an interval's validity needs to stand until it is made: the block, and its counter. -/
structure FiveKept (m : Nat) (d e : Dev) : Prop where
  spbM : e.safe.spbM = d.safe.spbM
  five : e.get (R.TM_CNT m) (tmCntF 5) = d.get (R.TM_CNT m) (tmCntF 5)

theorem FiveKept.refl (m : Nat) (d : Dev) : FiveKept m d d := ⟨rfl, rfl⟩
theorem FiveKept.trans (h : FiveKept m d e) (k : FiveKept m e f) : FiveKept m d f := ⟨k.spbM.trans h.spbM, k.five.trans h.five⟩

theorem TripRun.five {cause : Nat} (h : TripRun m cause d e) : FiveKept m d e :=
  ⟨by rw [h.block], Dev.get_of_reg (h.own _ tmCnt_tmReg (by simp only [R.TM_CNT, R.TM_STAT]; omega)) _⟩

theorem FiveKept.put (d : Dev) {i : Nat} (hi : i ≠ 5) (v : Nat) : FiveKept m d (d.put (R.TM_CNT m) (tmCntF i) v) := by
  refine ⟨congrArg SafeSt.spbM (d.put_safe _ _ _), d.get_put_field _ _ _ _ _ ?_⟩
  simp only [tmCntF, fieldWidth]
  omega

theorem FiveKept.setTm (d : Dev) (v : TmSt) : FiveKept m d (d.setTm m v) := ⟨rfl, rfl⟩

theorem Dev.tmCheck_kept (d : Dev) (hm : m < 20) (i : Nat) {cause : Nat} (hc : cause < 16) (fails : Bool) : EvalKept m d (d.tmCheck m i cause fails) ∧
    (i ≠ 5 → FiveKept m d (d.tmCheck m i cause fails)) := by
  rw [Dev.tmCheck]
  split
  · exact ⟨.put d hm _ _ (.inl rfl), fun hi => .put d hi _⟩
  · dsimp only
    have hp := EvalKept.put d hm (a := R.TM_CNT m) (tmCntF i) (min 15 (d.get (R.TM_CNT m) (tmCntF i) + 1)) (.inl rfl)
    have h5 := fun hi => FiveKept.put (m := m) d (i := i) hi (min 15 (d.get (R.TM_CNT m) (tmCntF i) + 1))
    generalize d.put (R.TM_CNT m) (tmCntF i) (min 15 (d.get (R.TM_CNT m) (tmCntF i) + 1)) = u at hp h5 ⊢
    split
    · have ht := u.tmTrip_run hm hc
      exact ⟨hp.trans (.tripped ht), fun hi => (h5 hi).trans ht.five⟩
    · exact ⟨hp, h5⟩

/-- A check that fails for the last time that the filter allows trips. -/
theorem Dev.tmCheck_trips (d : Dev) (hm : m < 20) {i cause : Nat} (h1 : d.get (R.TM_CNT m) (tmCntF i) < d.sdDev F.SD_DEV_FILT_N)
    (h2 : d.sdDev F.SD_DEV_FILT_N ≤ d.get (R.TM_CNT m) (tmCntF i) + 1) : ∃ u, EvalKept m d u ∧ u.safe = d.safe ∧
      d.tmCheck m i cause true = u.tmTrip m cause := by
  have h15 : d.sdDev F.SD_DEV_FILT_N < 2 ^ 4 := getF_lt _ _
  refine ⟨_, EvalKept.put d hm (a := R.TM_CNT m) (tmCntF i) (min 15 (d.get (R.TM_CNT m) (tmCntF i) + 1)) (.inl rfl), d.put_safe _ _ _, ?_⟩
  have hn : (d.put (R.TM_CNT m) (tmCntF i) (min 15 (d.get (R.TM_CNT m) (tmCntF i) + 1))).sdDev F.SD_DEV_FILT_N = d.sdDev F.SD_DEV_FILT_N :=
    sdDev_of (congrArg SafeSt.spbM (d.put_safe _ _ _)) _
  rw [Dev.tmCheck, if_neg (by simp)]
  exact if_pos ⟨by rw [hn]; exact h1, by rw [hn]; omega⟩

theorem Dev.tmAtOnce_kept (d : Dev) (hm : m < 20) {cause : Nat} (hc : cause < 16) (fails : Bool) : EvalKept m d (d.tmAtOnce m cause fails) := by
  rw [Dev.tmAtOnce]
  split
  · exact .tripped (d.tmTrip_run hm hc)
  · exact .refl m d

end
end Sys2Proof.Machine
end

section
/-! PROOFS. The rest of a torque monitor's evaluation, after the torque (R357, R360 to R367). -/

namespace Sys2Proof.Machine

section
variable {d e f : Dev} {m : Nat}

/-! ### The checks of torque and of speed -/

/-- An operation on an entry's checks keeps its values, and what the check of validity needs. -/
structure ChecksKept (m : Nat) (d e : Dev) : Prop where
  kept : EvalKept m d e
  five : FiveKept m d e

theorem ChecksKept.refl (m : Nat) (d : Dev) : ChecksKept m d d := ⟨.refl m d, .refl m d⟩
theorem ChecksKept.trans (h : ChecksKept m d e) (k : ChecksKept m e f) : ChecksKept m d f := ⟨h.kept.trans k.kept, h.five.trans k.five⟩

theorem ChecksKept.check (h : ChecksKept m d e) (hm : m < 20) {i cause : Nat} (hi : i ≠ 5) (hc : cause < 16) (fails : Bool) :
    ChecksKept m d (e.tmCheck m i cause fails) :=
  h.trans ⟨(e.tmCheck_kept hm i hc fails).1, (e.tmCheck_kept hm i hc fails).2 hi⟩

theorem ChecksKept.count (h : ChecksKept m d e) (hm : m < 20) {i : Nat} (hi : i ≠ 5) (v : Nat) : ChecksKept m d (e.put (R.TM_CNT m) (tmCntF i) v) :=
  h.trans ⟨.put e hm _ v (.inl rfl), .put e hi v⟩

theorem Dev.tmChecks_kept (d : Dev) (hm : m < 20) (t w old : Int) (i : Int × Int) (stale low : Bool) : ChecksKept m d (d.tmChecks m t w old i stale low) := by
  have h := ChecksKept.refl m d
  rw [Dev.tmChecks]
  dsimp only
  refine ChecksKept.check ?_ hm (by decide) (by decide) _
  split
  · exact (h.check hm (by decide) (by decide) _).count hm (by decide) _
  · have h0 := h.count hm (i := 6) (by decide) 0
    split
    · exact h0.check hm (by decide) (by decide) _
    · exact h0.check hm (by decide) (by decide) _

theorem Dev.tmSs1_kept (d : Dev) (hm : m < 20) (t : Nat) (w : Int) : ChecksKept m d (d.tmSs1 m t w) := by
  have h := ChecksKept.refl m d
  rw [Dev.tmSs1]
  split
  · exact h.count hm (by decide) _
  · exact h.check hm (by decide) (by decide) _

theorem Dev.tmSpeedChecks_kept (d : Dev) (hm : m < 20) (w : Int) (low : Bool) (tick : Nat) : ChecksKept m d (d.tmSpeedChecks m w low tick) := by
  rw [Dev.tmSpeedChecks]
  dsimp only
  exact (((ChecksKept.refl m d).check hm (by decide) (by decide) _).check hm (by decide) (by decide) _).trans (Dev.tmSs1_kept _ hm _ _)

/-! ### Standing faults, UNC_MAX, standstill -/

theorem Dev.tmStanding_kept (d : Dev) (hm : m < 20) : EvalKept m d (d.tmStanding m) := by
  rw [Dev.tmStanding]
  exact (d.tmAtOnce_kept hm (by decide) _).trans (Dev.tmAtOnce_kept _ hm (by decide) _)

theorem Dev.tmUnc_kept (d : Dev) (hm : m < 20) : EvalKept m d (d.tmUnc m) := by
  rw [Dev.tmUnc]
  split
  · exact d.tmAtOnce_kept hm (by decide) _
  · exact .refl m d

theorem EvalKept.noteCause (d : Dev) (hm : m < 20) (c : Nat) : EvalKept m d (d.noteCause m c) := by
  rw [Dev.noteCause]
  split
  · exact .put d hm _ c (.inr ⟨rfl, by decide⟩)
  · exact .refl m d

/-- An entry that is latched shown so. -/
theorem EvalKept.showLatch (d : Dev) (hm : m < 20) (h : (d.tmS m).latches = true) : EvalKept m d (d.showLatch m) := by
  have hr : ∀ a, a ≠ R.SAFE_TRIP → (d.showLatch m).reg a = d.reg a := fun a ha => d.showLatch_reg m ha
  have ht := fun j => d.showLatch_tmS m j
  refine ⟨fun j _ => ht j, congrArg TmSt.next (ht m), congrArg TmSt.old (ht m), congrArg TmSt.smp (ht m), fun a ha _ _ => hr a ?_,
    Dev.flag_of_reg (hr _ tmStat_ne) _, fun _ => (d.showLatch_tripped hm).trans h, fun p s hs => ?_, Dev.flag_of_reg (hr _ (by decide)) _⟩
  · unfold tmReg at ha
    simp only [R.SAFE_TRIP]
    omega
  · unfold Raised at hs ⊢
    rw [hr _ (by simp only [R.PG_EVT_RAW, pageBase, R.SAFE_TRIP]; omega)]
    exact hs

theorem EvalKept.grantAll (d : Dev) (hm : m < 20) : EvalKept m d d.grantAll := .gate d.grantAll_frame hm

theorem Dev.ss1Off_kept (d : Dev) (hm : m < 20) : EvalKept m d (d.ss1Off m) := by
  rw [Dev.ss1Off]
  exact (EvalKept.setTm d (v := { d.tmS m with ss1 := none, still := 0 }) rfl rfl rfl).trans (.put _ hm _ _ (.inr ⟨rfl, by decide⟩))

theorem Dev.ss1Done_kept (d : Dev) (hm : m < 20) : EvalKept m d (d.ss1Done m) := by
  rw [Dev.ss1Done]
  have h1 := d.ss1Off_kept hm
  generalize d.ss1Off m = u at h1 ⊢
  dsimp only
  have h2 := EvalKept.setTm (m := m) u (v := { u.tmS m with byDone := true, ok := false }) rfl rfl rfl
  have t2 := u.tmS_setTm_self m { u.tmS m with byDone := true, ok := false }
  generalize u.setTm m { u.tmS m with byDone := true, ok := false } = v at h2 t2 ⊢
  have h3 := EvalKept.noteCause v hm 0xC
  have t3 := v.noteCause_tmS m 0xC m
  generalize v.noteCause m 0xC = w at h3 t3 ⊢
  have hl : (w.tmS m).latches = true := by
    rw [t3, t2]
    simp [TmSt.latches]
  exact (((h1.trans h2).trans h3).trans (.showLatch w hm hl)).trans (.grantAll _ hm)

theorem Dev.tmStill_kept (d : Dev) (hm : m < 20) (w : Int) : EvalKept m d (d.tmStill m w) := by
  rw [Dev.tmStill]
  split
  · exact .refl m d
  · dsimp only
    generalize (if (w.natAbs : Int) ≤ d.tmTol m then (d.tmS m).still + 1 else 0) = n
    have h1 : EvalKept m d (d.setTm m { d.tmS m with still := n }) := .setTm d rfl rfl rfl
    generalize d.setTm m { d.tmS m with still := n } = u at h1 ⊢
    split
    · exact h1.trans (u.ss1Done_kept hm)
    · exact h1

/-! ### The mutual recomputation (R363) -/

theorem EvalKept.bump (d : Dev) (hm : m < 20) : EvalKept m d ((d.bump R.TMON_STAT F.TMON_STAT_XCHK_CNT).raise Pg.SAFE Ev.TMON_XCHK) := by
  have h1 : FrameOn noPart [R.TMON_STAT] d (d.bump R.TMON_STAT F.TMON_STAT_XCHK_CNT) := (FrameOn.refl noPart_part _ d).bump noPart_part _ (by simp)
  have hq := (d.bump R.TMON_STAT F.TMON_STAT_XCHK_CNT).raise_quiet Pg.SAFE Ev.TMON_XCHK
  generalize d.bump R.TMON_STAT F.TMON_STAT_XCHK_CNT = u at h1 hq
  have hr : ∀ a, eventReg a = false → a ≠ R.TMON_STAT → u.reg a = d.reg a := fun a ha hne => h1.reg noPart_part ha (by simpa using hne)
  have htm : u.tm = d.tm := (congrArg Dev.tm h1.1 :)
  refine (EvalKept.of_stands htm ⟨tmS_of htm m, congrArg (bitOf · m) (hr _ (by decide) (by decide)),
    fun a ha => hr a (tmReg_quiet hm ha) ?_⟩ (fun _ _ => h1.raised noPart_part ?_) (hr _ (by decide) (by decide))).trans (.of_quiet hq hm)
  · unfold tmReg at ha
    simp only [R.TMON_STAT]
    omega
  · simp only [List.mem_cons, List.not_mem_nil, or_false, R.PG_EVT_RAW, pageBase, R.TMON_STAT]
    omega

/-- The next entry of the other engine chosen. -/
def Dev.crossFrom (d : Dev) (eng k : Nat) : Dev :=
  { d with safe := if eng = 0 then { d.safe with xNext0 := k + 1 } else { d.safe with xNext1 := k + 1 } }

/-- A difference between the engines reported, and its SAFE_HOLD. -/
def Dev.crossDiffers (d : Dev) : Dev := ((d.bump R.TMON_STAT F.TMON_STAT_XCHK_CNT).raise Pg.SAFE Ev.TMON_XCHK).enterHold 4 Ev.TMON_XCHK

/-- An entry's recomputation held against its torque. -/
def Dev.crossChecked (d : Dev) (k : Nat) : Dev :=
  match d.tmEstimate k (d.tmS k).old with
  | some (t, _) => if 16 < (t - (d.tmS k).t).natAbs then d.crossDiffers else d
  | none => d

theorem Dev.crossChecked_eq (d : Dev) (k : Nat) : d.crossChecked k = d ∨ d.crossChecked k = d.crossDiffers := by
  rw [Dev.crossChecked]
  split
  · split
    · exact .inr rfl
    · exact .inl rfl
  · exact .inl rfl

theorem Dev.tmCross_eq (d : Dev) (eng : Nat) : d.tmCross eng = d ∨ ∃ k, d.tmCross eng = (d.crossFrom eng k).crossChecked k := by
  rw [Dev.tmCross]
  split
  · exact .inl rfl
  · next k _ => exact .inr ⟨k, rfl⟩

theorem Dev.tmCross_kept (d : Dev) (hm : m < 20) (hlive : d.replaying = false) (eng : Nat) : EvalKept m d (d.tmCross eng) := by
  obtain h | ⟨k, h⟩ := d.tmCross_eq eng
  · rw [h]
    exact .refl m d
  · rw [h]
    have h1 : EvalKept m d (d.crossFrom eng k) := .safe d _
    generalize d.crossFrom eng k = u at h1
    obtain hc | hc := u.crossChecked_eq k
    · rw [hc]
      exact h1
    rw [hc]
    have h2 := h1.trans (.bump u hm)
    exact h2.trans (.hold (Dev.enterHold_run (h2.live.trans hlive) (by decide) (by decide)).1 hm)

theorem Dev.overcastDone_evalKept (d : Dev) (hm : m < 20) : EvalKept m d d.overcastDone := .ovc d.overcastDone_run hm

end
end Sys2Proof.Machine
end

section
/-! PROOFS. The stages of a torque monitor's evaluation (R357, R358). -/

namespace Sys2Proof.Machine

section
variable {d e f : Dev} {m : Nat}

/-! ### The stages -/

/-- The interval that has ended taken from an entry's record. -/
def Dev.evalTaken (d : Dev) (m : Nat) : Dev :=
  let s := d.tmS m
  d.setTm m { s with smp := s.smp.filter fun (x : TmSmp) => !decide (x.tick < s.next), next := s.next + 400 * d.sdDev F.SD_DEV_EVAL }

/-- The demands of the interval, and the end of a continued winding discharge. -/
def Dev.evalDem (d : Dev) (m : Nat) : Dev :=
  let s := d.tmS m
  ((d.evalTaken m).tmDemand m (s.next - 400 * d.sdDev F.SD_DEV_EVAL) s.next).wdisEnd m

/-- Whether the demand is stale. -/
def Dev.evalStale (d : Dev) (m : Nat) : Bool := decide (max 1 (d.me m 14 F.ME_MISC_DEM_AGE) ≤ (d.tmS m).age)

/-- The count of evaluations and the demand shown. -/
def Dev.evalOpened (d : Dev) (m n : Nat) (stale : Bool) : Dev :=
  let d := (d.put R.TMON_STAT F.TMON_STAT_EVAL_CNT n).putB (R.TM_STAT m) F.TM_STAT_STALE_DEM stale
  d.setReg (R.TM_DEM m) (wordOfInt (d.tmS m).dem)

def Dev.evalOld (d : Dev) (m : Nat) (l : List TmSmp) : Dev := d.setTm m { d.tmS m with old := l }

/-- The speed and the angle shown. -/
def Dev.evalSpeed (d : Dev) (m : Nat) (w : Int) (a : Nat) : Dev :=
  let p := d.fit32 w
  (p.2.setReg (R.TM_SPD m) (wordOfInt p.1)).put (R.TM_ANG m) F.TM_ANG_ANG (a / 2 ^ 20)

/-- The inputs of an interval shown. -/
def Dev.evalShown (d : Dev) (m : Nat) (x : TmObs) : Dev :=
  (((d.evalOld m x.l).evalSpeed m x.w x.a).putB (R.TM_STAT m) F.TM_STAT_LOWFLUX x.low).tmTimers m ((d.evalOld m x.l).fit32 x.w).1

/-- The torque shown. -/
def Dev.evalTorque (d : Dev) (m : Nat) (t : Int) : Dev :=
  let p := (d.setTm m { d.tmS m with t := t }).fit32 t
  p.2.setReg (R.TM_TQ m) (wordOfInt p.1)

/-- The torque shown and checked, where there is one. -/
def Dev.evalEst (d : Dev) (m : Nat) (est : Option (Int × (Int × Int))) (shadow : Bool) (w old : Int) (x : TmObs) (stale : Bool) : Dev :=
  match est with
  | some (t, _) =>
    if shadow then (((d.evalTorque m t).setTm m { (d.evalTorque m t).tmS m with ok := true }).tmChecks m ((d.setTm m { d.tmS m with t := t }).fit32 t).1 w old
      x.i stale x.low) else d.evalTorque m t
  | none => d

/-- The checks that follow. -/
def Dev.evalTail (d : Dev) (m : Nat) (w : Int) (low : Bool) (tick : Nat) (fails : Bool) : Dev :=
  let d := d.tmSpeedChecks m w low tick
  let d := (((d.tmCheck m 5 6 fails).tmStanding m).tmUnc m).tmStill m w
  (d.grantAll.tmCross (d.me m 0 F.ME_CFG_TMON)).overcastDone

/-- An evaluation from the inputs of its interval on. -/
def Dev.evalRest (m : Nat) (l : List TmSmp) (old : Int) (stale : Bool) (tick : Nat) (obs : Bool) (p : TmObs × Dev) : Dev :=
  let w := ((p.2.evalOld m p.1.l).fit32 p.1.w).1
  let d := p.2.evalShown m p.1
  let est := d.tmEstimate m p.1.l
  let shadow := if obs then est.isSome else d.flag (R.SHD_STAT (d.meShd m)) F.SHD_STAT_VALID
  let d := d.putB (R.TM_STAT m) F.TM_STAT_VALID (shadow && est.isSome)
  (d.evalEst m est shadow w old p.1 stale).evalTail m w p.1.low tick (!(shadow && est.isSome) || tmClip l)

/-- The interval that has ended. -/
def Dev.evalSmp (d : Dev) (m : Nat) : List TmSmp := (d.tmS m).smp.filter fun (x : TmSmp) => decide (x.tick < (d.tmS m).next)

/-- The evaluation of an entry up to its inputs. -/
def Dev.evalBegin (d : Dev) (m : Nat) : Dev :=
  (d.evalDem m).evalOpened m (((d.tmS m).next - d.safe.base.getD 0) / max 1 (400 * d.sdDev F.SD_DEV_EVAL)) ((d.evalDem m).evalStale m)

theorem Dev.tmEvaluate_eq (hen : d.meEn m = true) (hbase : d.safe.base ≠ none) (hdue : (d.tmS m).next ≤ d.gtc)
    (hok : ¬(d.devState = DS.SAFE_HOLD ∧ d.get R.SAFE_HOLD_INFO F.SAFE_HOLD_INFO_CAUSE = 4)) : d.tmEvaluate m =
      Dev.evalRest m (d.evalSmp m) (d.tmS m).dem ((d.evalDem m).evalStale m) (d.tmS m).next (d.me m 0 F.ME_CFG_ANG_SRC == 1)
        ((d.evalBegin m).tmInputs m (d.evalSmp m) ((d.tmS m).next - 400 * d.sdDev F.SD_DEV_EVAL) (400 * d.sdDev F.SD_DEV_EVAL)) := by
  have h1 : d.safe.base.isNone = false := by
    cases h : d.safe.base with
    | none => exact absurd h hbase
    | some x => rfl
  have h2 : (d.devState == DS.SAFE_HOLD && d.get R.SAFE_HOLD_INFO F.SAFE_HOLD_INFO_CAUSE == 4) = false := by
    rw [Bool.eq_false_iff]
    intro hc
    rw [Bool.and_eq_true, beq_iff_eq, beq_iff_eq] at hc
    exact hok hc
  have h3 : decide (d.gtc < (d.tmS m).next) = false := decide_eq_false (Nat.not_lt.2 hdue)
  rw [Dev.tmEvaluate]
  refine (if_neg ?_).trans rfl
  rw [hen, h1, h2, h3]
  decide

end
end Sys2Proof.Machine
end

section
/-! PROOFS. What the stages of a torque monitor's evaluation show (R357, R358). -/

namespace Sys2Proof.Machine

section
variable {d e f : Dev} {m : Nat} {l : List Nat}

/-- What an evaluation may change beside registers, until its checks. -/
def evalPart (d e : Dev) : Dev := { d with grp := e.grp, tm := e.tm, safe := e.safe, free := e.free }

theorem evalPart_part : Part evalPart := ⟨fun _ => rfl, fun _ _ _ => rfl, fun _ _ => rfl, fun _ _ _ => rfl⟩

/-- A stage of an evaluation: registers of a list, the entry's record but for its interval, the free words. -/
structure Front (m : Nat) (l : List Nat) (d e : Dev) : Prop where
  frame : FrameOn evalPart l d e
  spbM : e.safe.spbM = d.safe.spbM
  tm : ∀ j, j ≠ m → e.tmS j = d.tmS j
  next : (e.tmS m).next = (d.tmS m).next
  old : (e.tmS m).old = (d.tmS m).old
  smp : (e.tmS m).smp = (d.tmS m).smp

theorem Front.refl (m : Nat) (l : List Nat) (d : Dev) : Front m l d d := ⟨FrameOn.refl evalPart_part l d, rfl, fun _ _ => rfl, rfl, rfl, rfl⟩

theorem Front.trans (h : Front m l d e) (k : Front m l e f) : Front m l d f :=
  ⟨h.frame.trans evalPart_part k.frame, k.spbM.trans h.spbM, fun j hj => (k.tm j hj).trans (h.tm j hj), k.next.trans h.next, k.old.trans h.old,
    k.smp.trans h.smp⟩

theorem Front.widen (h : Front m l d e) {k : List Nat} (hk : ∀ a ∈ l, a ∈ k) : Front m k d e :=
  ⟨h.frame.widen evalPart_part evalPart_part (fun _ _ => rfl) hk, h.spbM, h.tm, h.next, h.old, h.smp⟩

theorem Front.reg (h : Front m l d e) {a : Nat} (ha : eventReg a = false) (hl : a ∉ l) : e.reg a = d.reg a := h.frame.reg evalPart_part ha hl

theorem Front.gtc (h : Front m l d e) : e.gtc = d.gtc := (congrArg Dev.gtc h.frame.1 :)

theorem Front.setReg (h : Front m l d e) {a : Nat} (w : Word) (ha : a ∈ l) : Front m l d (e.setReg a w) :=
  h.trans ⟨(FrameOn.refl evalPart_part l e).setReg evalPart_part w ha, congrArg SafeSt.spbM (e.setReg_safe a w), fun _ _ => e.tmS_setReg _ _ _,
    congrArg TmSt.next (e.tmS_setReg _ _ _), congrArg TmSt.old (e.tmS_setReg _ _ _), congrArg TmSt.smp (e.tmS_setReg _ _ _)⟩

theorem Front.put (h : Front m l d e) {a : Nat} (x : RField) (v : Nat) (ha : a ∈ l) : Front m l d (e.put a x v) := h.setReg _ ha

theorem Front.setTm (h : Front m l d e) {v : TmSt} (h1 : v.next = (e.tmS m).next) (h2 : v.old = (e.tmS m).old) (h3 : v.smp = (e.tmS m).smp) :
    Front m l d (e.setTm m v) := by
  have ht := e.tmS_setTm_self m v
  exact h.trans ⟨(FrameOn.refl evalPart_part l e).part evalPart_part rfl fun _ => rfl, rfl, fun j hj => (e.tmS_setTm m j v).trans (if_neg hj),
    (congrArg TmSt.next ht).trans h1, (congrArg TmSt.old ht).trans h2, (congrArg TmSt.smp ht).trans h3⟩

theorem Front.free (h : Front m l d e) (n : Nat) : Front m l d { e with free := n } :=
  h.trans ⟨(FrameOn.refl evalPart_part l e).part evalPart_part rfl fun _ => rfl, rfl, fun _ _ => rfl, rfl, rfl, rfl⟩

theorem Dev.fit32_snd (d : Dev) (x : Int) : ∃ n, (d.fit32 x).2 = { d with free := n } := by
  rw [Dev.fit32]
  split
  · exact ⟨d.free, rfl⟩
  · exact ⟨d.free + 1, rfl⟩

theorem Front.fit32 (h : Front m l d e) (x : Int) : Front m l d (e.fit32 x).2 := by
  obtain ⟨n, hn⟩ := e.fit32_snd x
  rw [hn]
  exact h.free n

theorem Dev.fit32_fits (d : Dev) {x : Int} (h : -(2 ^ 31) ≤ x ∧ x < 2 ^ 31) : (d.fit32 x).1 = x := by rw [Dev.fit32, if_pos h]

theorem fit32_setTm (d : Dev) (v : TmSt) (x : Int) : ((d.setTm m v).fit32 x).1 = (d.fit32 x).1 := by
  rw [Dev.fit32, Dev.fit32]
  split
  · rfl
  · rfl

theorem Front.gate (h : FrameOn gatePart gateRegs d e) (hs : e.safe.spbM = d.safe.spbM) : Front m gateRegs d e :=
  ⟨h.widen gatePart_part evalPart_part (fun _ _ => rfl) (fun _ ha => ha), hs, fun j _ => tmS_of h.gateTm j, congrArg TmSt.next (tmS_of h.gateTm m),
    congrArg TmSt.old (tmS_of h.gateTm m), congrArg TmSt.smp (tmS_of h.gateTm m)⟩

theorem Dev.wdisEnd_front (d : Dev) (m : Nat) : FrameOn gatePart gateRegs d (d.wdisEnd m) ∧ (d.wdisEnd m).safe.spbM = d.safe.spbM := by
  rw [Dev.wdisEnd]
  split
  · exact ⟨(d.keepEnds_frame m).trans gatePart_part (d.keepEnds m).grantAll_frame, by rw [Dev.grantAll_safe, Dev.keepEnds_safe]⟩
  · exact ⟨FrameOn.refl gatePart_part _ d, rfl⟩

/-! ### The demand -/

/-- The demand that an entry's record gives an interval. -/
def Dev.demandAt (d : Dev) (q : TmSt) (next : Nat) : Int :=
  (((q.dems.filter fun (x : DemSt) => decide (x.tick < next)).filter (·.pub)).getLast?).elim q.dem fun x => (d.fit32 (torque8 x.o6)).1

theorem Dev.tmDemand_dem (d : Dev) (m start next : Nat) : ((d.tmDemand m start next).tmS m).dem = d.demandAt (d.tmS m) next := by
  rw [Dev.tmDemand, Dev.demandAt]
  dsimp only
  split
  · next x hx => rw [Dev.tmS_setTm_self, hx, Option.elim_some]
  · next hx => rw [Dev.tmS_setTm_self, hx, Option.elim_none]

theorem demandAt_setTm (d : Dev) {v q : TmSt} (hv : v.dems = q.dems) (hd : v.dem = q.dem) (next : Nat) : (d.setTm m v).demandAt v next = d.demandAt q next := by
  rw [Dev.demandAt, Dev.demandAt, hv, hd]
  exact congrArg (Option.elim _ q.dem) (funext fun x => fit32_setTm d v _)

theorem Front.demand (h : Front m l d e) (start next : Nat) : Front m l d (e.tmDemand m start next) := by
  rw [Dev.tmDemand]
  dsimp only
  split
  · next x _ =>
    have h1 := h.fit32 (torque8 x.o6)
    have ht : (e.fit32 (torque8 x.o6)).2.tmS m = e.tmS m := by
      obtain ⟨n, hn⟩ := e.fit32_snd (torque8 x.o6)
      rw [hn]
      rfl
    exact h1.setTm (congrArg TmSt.next ht).symm (congrArg TmSt.old ht).symm (congrArg TmSt.smp ht).symm
  · exact h.setTm rfl rfl rfl

end
end Sys2Proof.Machine
end

section
/-! PROOFS. What a torque monitor's evaluation has shown before its checks (R357, R358). -/

namespace Sys2Proof.Machine

section
variable {d e f : Dev} {m : Nat} {l : List Nat}

/-! ### The shadow's words -/

/-- Registers away from the gate drive's and Channel M's stand. -/
def AwayStands (d e : Dev) : Prop := e.member = d.member ∧ ∀ a, a < 0x40090000 ∨ 0x400A2000 ≤ a → eventReg a = false → e.reg a = d.reg a

theorem posMode_congr (h : AwayStands d e) {x : Nat} : e.posMode x = d.posMode x := by
  obtain ⟨hm, hr⟩ := h
  have hn : posIfc x < 16 := Nat.mod_lt _ (by decide)
  have h1 : e.reg (R.SHD_CFG (posIfc x)) = d.reg (R.SHD_CFG (posIfc x)) := hr _ (by simp only [R.SHD_CFG]; omega) (by
    rw [eventReg_eq_false]
    simp only [R.SHD_CFG]
    omega)
  have h2 : e.reg (R.POS_CFG (posIfc x)) = d.reg (R.POS_CFG (posIfc x)) := hr _ (by simp only [R.POS_CFG]; omega) (by
    rw [eventReg_eq_false]
    simp only [R.POS_CFG]
    omega)
  have h3 : e.frozen (Pg.POS (posIfc x)) = d.frozen (Pg.POS (posIfc x)) := by
    rw [Dev.frozen, Dev.frozen, Dev.flag_of_reg (hr R.DBG_CTRL (by decide) (by decide)), Dev.flag_of_reg (hr (R.PG_CTRL (Pg.POS (posIfc x))) ?_ ?_)]
    · simp only [R.PG_CTRL, pageBase, Pg.POS]
      omega
    · rw [eventReg_eq_false]
      simp only [R.PG_CTRL, pageBase, Pg.POS]
      omega
  simp only [Dev.posMode, hm, h3, Dev.flag_of_reg h1, Dev.get_of_reg h1, Dev.get_of_reg h2]

theorem meShd_lt (d : Dev) (m : Nat) : d.meShd m < 64 := getF_lt _ _

theorem shdReg_low {n k : Nat} (hn : n < 64) (hk : 0xC0 ≤ k) (hk2 : k < 0x100) : 0x40048000 + k + 0x1000 * n < 0x40090000 ∧
    eventReg (0x40048000 + k + 0x1000 * n) = false := by
  rw [eventReg_eq_false]
  omega

theorem tmSpeed_congr (h : AwayStands d e) (hs : e.safe.spbM = d.safe.spbM) : e.tmSpeed m = d.tmSpeed m := by
  have hshd : e.meShd m = d.meShd m := me_of hs _ _ _
  obtain ⟨hlow, hq⟩ := shdReg_low (meShd_lt d m) (k := 0xD8) (by decide) (by decide)
  have hr : e.reg (R.SHD_SPD (d.meShd m)) = d.reg (R.SHD_SPD (d.meShd m)) := h.2 _ (.inl hlow) hq
  rw [Dev.tmSpeed, Dev.tmSpeed, Dev.mePp, Dev.mePp, hshd, hr, posMode_congr h, me_of hs]

theorem shdValid_congr (h : AwayStands d e) (hs : e.safe.spbM = d.safe.spbM) :
    e.flag (R.SHD_STAT (e.meShd m)) F.SHD_STAT_VALID = d.flag (R.SHD_STAT (d.meShd m)) F.SHD_STAT_VALID := by
  have hshd : e.meShd m = d.meShd m := me_of hs _ _ _
  obtain ⟨hlow, hq⟩ := shdReg_low (meShd_lt d m) (k := 0xDC) (by decide) (by decide)
  rw [hshd]
  exact Dev.flag_of_reg (h.2 _ (.inl hlow) hq) _

theorem tmEstimate_congr (hs : e.safe.spbM = d.safe.spbM) (l : List TmSmp) : e.tmEstimate m l = d.tmEstimate m l := by
  have hm : e.me m = d.me m := funext fun k => funext fun x => me_of hs m k x
  rw [Dev.tmEstimate, Dev.tmEstimate, Dev.tmHas, Dev.tmHas, hm]

theorem Front.low (h : Front m l d e) (hl : ∀ a ∈ l, 0x40090000 ≤ a ∧ a < 0x400A2000) : AwayStands d e :=
  ⟨(congrArg Dev.member h.frame.1 :), fun a ha hq => h.reg hq fun hm => by
    have := hl a hm
    omega⟩

theorem AwayStands.trans (h : AwayStands d e) (k : AwayStands e f) : AwayStands d f :=
  ⟨k.1.trans h.1, fun a ha hq => (k.2 a ha hq).trans (h.2 a ha hq)⟩

/-! ### The first stages -/

/-- The registers that the first stages write. -/
def frontRegs (m : Nat) : List Nat := gateRegs ++ [R.TMON_STAT, R.TM_STAT m, R.TM_DEM m]

theorem frontRegs_low (hm : m < 20) : ∀ a ∈ frontRegs m, 0x40090000 ≤ a ∧ a < 0x400A2000 := by
  intro a ha
  simp only [frontRegs, List.mem_append, List.mem_cons, List.not_mem_nil, or_false, mem_gateRegs] at ha
  simp only [R.GDA_STAT, R.SAFE_GRANT, R.GDT_PINS, R.TMON_STAT, R.TM_STAT, R.TM_DEM] at ha
  obtain (rfl | rfl | ⟨g, hg, rfl⟩) | rfl | rfl | rfl := ha
  all_goals omega

/-- What the evaluation has shown up to its inputs. -/
structure Begun (m : Nat) (d e : Dev) : Prop where
  low : AwayStands d e
  spbM : e.safe.spbM = d.safe.spbM
  tm : ∀ j, j ≠ m → e.tmS j = d.tmS j
  next : (e.tmS m).next = (d.tmS m).next + 400 * d.sdDev F.SD_DEV_EVAL
  smp : (e.tmS m).smp = (d.tmS m).smp.filter fun (x : TmSmp) => !decide (x.tick < (d.tmS m).next)
  dem : e.reg (R.TM_DEM m) = wordOfInt (d.demandAt (d.tmS m) (d.tmS m).next)
  five : e.get (R.TM_CNT m) (tmCntF 5) = d.get (R.TM_CNT m) (tmCntF 5)
  live : e.replaying = d.replaying

theorem Dev.evalTaken_front (d : Dev) (m : Nat) : Front m gateRegs (d.evalTaken m) (d.evalDem m) := by
  have h1 := (Front.refl m gateRegs (d.evalTaken m)).demand ((d.tmS m).next - 400 * d.sdDev F.SD_DEV_EVAL) (d.tmS m).next
  obtain ⟨h2, h3⟩ := Dev.wdisEnd_front ((d.evalTaken m).tmDemand m ((d.tmS m).next - 400 * d.sdDev F.SD_DEV_EVAL) (d.tmS m).next) m
  exact h1.trans (.gate h2 h3)

theorem Dev.evalDem_dem (d : Dev) (m : Nat) : ((d.evalDem m).tmS m).dem = d.demandAt (d.tmS m) (d.tmS m).next := by
  obtain ⟨h2, -⟩ := Dev.wdisEnd_front ((d.evalTaken m).tmDemand m ((d.tmS m).next - 400 * d.sdDev F.SD_DEV_EVAL) (d.tmS m).next) m
  rw [Dev.evalDem, tmS_of h2.gateTm, Dev.tmDemand_dem, Dev.evalTaken, Dev.tmS_setTm_self]
  exact demandAt_setTm d rfl rfl _

theorem Dev.evalOpened_front (d : Dev) (m n : Nat) (stale : Bool) : Front m [R.TMON_STAT, R.TM_STAT m, R.TM_DEM m] d (d.evalOpened m n stale) :=
  (((Front.refl m _ d).put _ _ (by simp)).put _ _ (by simp)).setReg _ (by simp)

theorem Dev.evalOpened_dem (d : Dev) (m n : Nat) (stale : Bool) : (d.evalOpened m n stale).reg (R.TM_DEM m) = wordOfInt (d.tmS m).dem := by
  rw [Dev.evalOpened, Dev.reg_setReg_self, Dev.putB, Dev.tmS_put, Dev.tmS_put]

theorem Dev.evalBegin_spec (d : Dev) (hm : m < 20) : Begun m d (d.evalBegin m) := by
  have h1 : Front m (frontRegs m) (d.evalTaken m) (d.evalBegin m) := by
    refine ((d.evalTaken_front m).widen fun a ha => ?_).trans ((Dev.evalOpened_front _ m _ _).widen fun a ha => ?_)
    · exact List.mem_append_left _ ha
    · exact List.mem_append_right _ ha
  have ht := d.tmS_setTm_self m { d.tmS m with smp := (d.tmS m).smp.filter fun (x : TmSmp) => !decide (x.tick < (d.tmS m).next), next := (d.tmS m).next + 400 * d.sdDev F.SD_DEV_EVAL }
  have hreg : ∀ a, (d.evalTaken m).reg a = d.reg a := fun _ => rfl
  have hlow : AwayStands d (d.evalTaken m) := ⟨rfl, fun a _ _ => hreg a⟩
  refine ⟨hlow.trans (h1.low (frontRegs_low hm)), h1.spbM, fun j hj => (h1.tm j hj).trans ((d.tmS_setTm m j _).trans (if_neg hj)), ?_, ?_, ?_, ?_, ?_⟩
  · exact h1.next.trans (congrArg TmSt.next ht)
  · exact h1.smp.trans (congrArg TmSt.smp ht)
  · rw [Dev.evalBegin, Dev.evalOpened_dem, Dev.evalDem_dem]
  · refine (Dev.get_of_reg (h1.reg (tmReg_quiet hm tmCnt_tmReg) ?_) _).trans (Dev.get_of_reg (hreg _) _)
    simp only [frontRegs, List.mem_append, List.mem_cons, List.not_mem_nil, or_false, mem_gateRegs]
    simp only [R.GDA_STAT, R.SAFE_GRANT, R.GDT_PINS, R.TMON_STAT, R.TM_STAT, R.TM_DEM, R.TM_CNT]
    omega
  · exact (Dev.flag_of_reg ((hlow.trans (h1.low (frontRegs_low hm))).2 R.RPL_STAT (by decide) (by decide)) _)

end
end Sys2Proof.Machine
end

section
/-! PROOFS. The evaluation of a torque monitor whole (R357, R358, R360). -/

namespace Sys2Proof.Machine

section
variable {d e f : Dev} {m : Nat}

/-! ### The inputs shown -/

/-- The registers that show an interval's inputs. -/
def inputRegs (m : Nat) : List Nat := [R.TM_SPD m, R.TM_ANG m, R.TM_STAT m]

theorem inputRegs_low (hm : m < 20) : ∀ a ∈ inputRegs m, 0x40090000 ≤ a ∧ a < 0x400A2000 := by
  intro a ha
  simp only [inputRegs, List.mem_cons, List.not_mem_nil, or_false, R.TM_SPD, R.TM_ANG, R.TM_STAT] at ha
  omega

theorem Front.timers (h : Front m (inputRegs m) d e) (w : Int) : Front m (inputRegs m) d (e.tmTimers m w) := by
  rw [Dev.tmTimers]
  refine Front.put (Front.setTm h ?_ ?_ ?_) _ _ (by simp [inputRegs])
  · rfl
  · rfl
  · rfl

theorem Dev.evalSpeed_front (d : Dev) (m : Nat) (w : Int) (a : Nat) : Front m (inputRegs m) d (d.evalSpeed m w a) :=
  (((Front.refl m _ d).fit32 w).setReg _ (by simp [inputRegs])).put _ _ (by simp [inputRegs])

theorem Dev.evalSpeed_spd (d : Dev) (m : Nat) (w : Int) (a : Nat) : (d.evalSpeed m w a).reg (R.TM_SPD m) = wordOfInt (d.fit32 w).1 := by
  rw [Dev.evalSpeed, Dev.reg_put_ne _ _ _ (by simp only [R.TM_SPD, R.TM_ANG]; omega), Dev.reg_setReg_self]

/-- A stage that writes neither of an entry's words but STAT keeps the speed shown. -/
theorem Dev.tmTimers_reg (d : Dev) (m : Nat) (w : Int) {a : Nat} (h : a ≠ R.TM_STAT m) : (d.tmTimers m w).reg a = d.reg a := by
  rw [Dev.tmTimers]
  exact Dev.reg_put_ne _ _ _ h

/-- What has been shown of an interval's inputs. -/
structure InputsShown (m : Nat) (x : TmObs) (d e : Dev) : Prop where
  front : Front m (inputRegs m) (d.evalOld m x.l) e
  spd : -(2 ^ 31) ≤ x.w ∧ x.w < 2 ^ 31 → e.reg (R.TM_SPD m) = wordOfInt x.w

theorem Dev.evalShown_spec (d : Dev) (m : Nat) (x : TmObs) : InputsShown m x d (d.evalShown m x) := by
  refine ⟨(((d.evalOld m x.l).evalSpeed_front m x.w x.a).put _ _ (by simp [inputRegs])).timers _, fun hfit => ?_⟩
  rw [Dev.evalShown, Dev.tmTimers_reg _ _ _ (by simp only [R.TM_SPD, R.TM_STAT]; omega), Dev.putB,
    Dev.reg_put_ne _ _ _ (by simp only [R.TM_SPD, R.TM_STAT]; omega), Dev.evalSpeed_spd, Dev.fit32_fits _ hfit]

/-! ### The torque -/

theorem Dev.evalTorque_front (d : Dev) (m : Nat) (t : Int) : Front m [R.TM_TQ m] d (d.evalTorque m t) := by
  have h : Front m [R.TM_TQ m] d (d.setTm m { d.tmS m with t := t }) := (Front.refl m _ d).setTm rfl rfl rfl
  exact (h.fit32 t).setReg _ (by simp)

theorem Dev.evalTorque_tq (d : Dev) (m : Nat) {t : Int} (h : -(2 ^ 31) ≤ t ∧ t < 2 ^ 31) : (d.evalTorque m t).reg (R.TM_TQ m) = wordOfInt t := by
  rw [Dev.evalTorque, Dev.reg_setReg_self, Dev.fit32_fits _ h]

/-- What the torque's stage leaves and shows. -/
structure TorqueShown (m : Nat) (est : Option (Int × (Int × Int))) (d e : Dev) : Prop where
  five : FiveKept m d e
  tm : ∀ j, j ≠ m → e.tmS j = d.tmS j
  next : (e.tmS m).next = (d.tmS m).next
  old : (e.tmS m).old = (d.tmS m).old
  smp : (e.tmS m).smp = (d.tmS m).smp
  dem : e.reg (R.TM_DEM m) = d.reg (R.TM_DEM m)
  spd : e.reg (R.TM_SPD m) = d.reg (R.TM_SPD m)
  tq : ∀ t i, est = some (t, i) → -(2 ^ 31) ≤ t ∧ t < 2 ^ 31 → e.reg (R.TM_TQ m) = wordOfInt t
  valid : e.flag (R.TM_STAT m) F.TM_STAT_VALID = d.flag (R.TM_STAT m) F.TM_STAT_VALID
  live : e.replaying = d.replaying

theorem tmDem_tmReg : tmReg m (R.TM_DEM m) := by simp only [tmReg, R.TM_DEM]; omega
theorem tmTq_tmReg : tmReg m (R.TM_TQ m) := by simp only [tmReg, R.TM_TQ]; omega

/-- A register of an entry that its checks leave. -/
theorem EvalKept.shows (h : EvalKept m d e) {a : Nat} (ha : a = R.TM_DEM m ∨ a = R.TM_SPD m ∨ a = R.TM_TQ m) : e.reg a = d.reg a := by
  obtain rfl | rfl | rfl := ha
  · exact h.own _ tmDem_tmReg (by simp only [R.TM_DEM, R.TM_STAT]; omega) (by simp only [R.TM_DEM, R.TM_CNT]; omega)
  · exact h.own _ tmSpd_tmReg (by simp only [R.TM_SPD, R.TM_STAT]; omega) (by simp only [R.TM_SPD, R.TM_CNT]; omega)
  · exact h.own _ tmTq_tmReg (by simp only [R.TM_TQ, R.TM_STAT]; omega) (by simp only [R.TM_TQ, R.TM_CNT]; omega)

theorem TorqueShown.checks {est : Option (Int × (Int × Int))} (h : TorqueShown m est d e) (k : ChecksKept m e f) : TorqueShown m est d f :=
  have hk := k.kept
  ⟨h.five.trans k.five, fun j hj => (hk.tm j hj).trans (h.tm j hj), hk.next.trans h.next, hk.old.trans h.old, hk.smp.trans h.smp,
    (hk.shows (.inl rfl)).trans h.dem, (hk.shows (.inr (.inl rfl))).trans h.spd, fun t i he hf => (hk.shows (.inr (.inr rfl))).trans (h.tq t i he hf),
    hk.valid.trans h.valid, hk.live.trans h.live⟩

theorem Dev.evalTorque_shown (d : Dev) (hm : m < 20) (t : Int) (i : Int × Int) : TorqueShown m (some (t, i)) d (d.evalTorque m t) := by
  have h := d.evalTorque_front m t
  have hr : ∀ {a}, tmReg m a → a ≠ R.TM_TQ m → (d.evalTorque m t).reg a = d.reg a := fun ha hne => h.reg (tmReg_quiet hm ha) (by simpa using hne)
  refine ⟨⟨h.spbM, Dev.get_of_reg (hr tmCnt_tmReg (by simp only [R.TM_CNT, R.TM_TQ]; omega)) _⟩, h.tm, h.next, h.old, h.smp, ?_, ?_, fun u j he hf => ?_, ?_, ?_⟩
  · exact hr tmDem_tmReg (by simp only [R.TM_DEM, R.TM_TQ]; omega)
  · exact hr tmSpd_tmReg (by simp only [R.TM_SPD, R.TM_TQ]; omega)
  · obtain ⟨rfl, rfl⟩ := Prod.mk.inj (Option.some.inj he)
    exact d.evalTorque_tq m hf
  · exact Dev.flag_of_reg (hr tmStat_tmReg (by simp only [R.TM_STAT, R.TM_TQ]; omega)) _
  · exact Dev.flag_of_reg (h.reg (by decide) (by simp only [List.mem_singleton, R.RPL_STAT, R.TM_TQ]; omega)) _

theorem Dev.evalEst_spec (d : Dev) (hm : m < 20) (est : Option (Int × (Int × Int))) (shadow : Bool) (w old : Int) (x : TmObs) (stale : Bool) :
    TorqueShown m est d (d.evalEst m est shadow w old x stale) := by
  cases est with
  | none => exact ⟨.refl m d, fun _ _ => rfl, rfl, rfl, rfl, rfl, rfl, fun _ _ h => (Option.some_ne_none _ h.symm).elim, rfl, rfl⟩
  | some p =>
    have h := d.evalTorque_shown hm p.1 p.2
    cases shadow with
    | false => exact h
    | true =>
      have hok : ChecksKept m (d.evalTorque m p.1) ((d.evalTorque m p.1).setTm m { (d.evalTorque m p.1).tmS m with ok := true }) :=
        ⟨.setTm _ rfl rfl rfl, .setTm _ _⟩
      exact h.checks (hok.trans (Dev.tmChecks_kept _ hm _ _ _ _ _ _))

/-! ### The rest -/

/-- The checks that follow keep what is shown, and trip where the interval's validity has failed for the last time. -/
theorem Dev.evalTail_spec (d : Dev) (hm : m < 20) (hlive : d.replaying = false) (w : Int) (low : Bool) (tick : Nat) (fails : Bool) :
    EvalKept m d (d.evalTail m w low tick fails) ∧ (fails = true → d.get (R.TM_CNT m) (tmCntF 5) < d.sdDev F.SD_DEV_FILT_N →
      d.sdDev F.SD_DEV_FILT_N ≤ d.get (R.TM_CNT m) (tmCntF 5) + 1 →
      (d.evalTail m w low tick fails).tripped m = true ∧ Raised (d.evalTail m w low tick fails) Pg.SAFE Ev.TM_TRIP) := by
  rw [Dev.evalTail]
  have h1 := d.tmSpeedChecks_kept hm w low tick
  generalize d.tmSpeedChecks m w low tick = u at h1 ⊢
  have hc := u.tmCheck_kept hm 5 (cause := 6) (by decide) fails
  have hrest : ∀ v, v.replaying = false → EvalKept m v (((((v.tmStanding m).tmUnc m).tmStill m w).grantAll.tmCross
      ((((v.tmStanding m).tmUnc m).tmStill m w).me m 0 F.ME_CFG_TMON)).overcastDone) := fun v hv => by
    have h2 := (((v.tmStanding_kept hm).trans (Dev.tmUnc_kept _ hm)).trans (Dev.tmStill_kept _ hm w)).trans (.grantAll _ hm)
    exact (h2.trans (Dev.tmCross_kept _ hm (h2.live.trans hv) _)).trans (Dev.overcastDone_evalKept _ hm)
  have hall := h1.kept.trans hc.1
  refine ⟨hall.trans (hrest _ (hall.live.trans hlive)), fun hf hlt hle => ?_⟩
  subst hf
  have hn : u.sdDev F.SD_DEV_FILT_N = d.sdDev F.SD_DEV_FILT_N := sdDev_of h1.five.spbM _
  obtain ⟨v, -, -, heq⟩ := u.tmCheck_trips hm (i := 5) (cause := 6) (by rw [h1.five.five, hn]; exact hlt) (by rw [h1.five.five, hn]; exact hle)
  have ht := v.tmTrip_run hm (cause := 6) (by decide)
  rw [← heq] at ht
  have hk := hrest _ (hall.live.trans hlive)
  exact ⟨hk.trip ht.trip, hk.told _ _ ht.told⟩

end
end Sys2Proof.Machine
end

section
/-! PROOFS. The evaluation of a torque monitor assembled (R357, R358, R360). -/

namespace Sys2Proof.Machine

section
variable {d e f : Dev} {m : Nat}

/-- Whether an interval's inputs are valid. -/
def Dev.evalOk (d : Dev) (m : Nat) (l : List TmSmp) : Bool := d.flag (R.SHD_STAT (d.meShd m)) F.SHD_STAT_VALID && (d.tmEstimate m l).isSome

/-- What an evaluation shows: the entry's interval taken, its demand, speed, validity and torque, and the trip of a validity that has failed
for the last time. -/
structure EvalShows (m : Nat) (d e : Dev) : Prop where
  tm : ∀ j, j ≠ m → e.tmS j = d.tmS j
  next : (e.tmS m).next = (d.tmS m).next + 400 * d.sdDev F.SD_DEV_EVAL
  old : (e.tmS m).old = d.evalSmp m
  smp : (e.tmS m).smp = (d.tmS m).smp.filter fun (y : TmSmp) => !decide (y.tick < (d.tmS m).next)
  dem : e.reg (R.TM_DEM m) = wordOfInt (d.demandAt (d.tmS m) (d.tmS m).next)
  spd : -(2 ^ 31) ≤ d.tmSpeed m ∧ d.tmSpeed m < 2 ^ 31 → e.reg (R.TM_SPD m) = wordOfInt (d.tmSpeed m)
  valid : e.flag (R.TM_STAT m) F.TM_STAT_VALID = d.evalOk m (d.evalSmp m)
  tq : ∀ t i, d.tmEstimate m (d.evalSmp m) = some (t, i) → -(2 ^ 31) ≤ t ∧ t < 2 ^ 31 → e.reg (R.TM_TQ m) = wordOfInt t
  trips : d.evalOk m (d.evalSmp m) = false → d.get (R.TM_CNT m) (tmCntF 5) < d.sdDev F.SD_DEV_FILT_N →
    d.sdDev F.SD_DEV_FILT_N ≤ d.get (R.TM_CNT m) (tmCntF 5) + 1 → e.tripped m = true ∧ Raised e Pg.SAFE Ev.TM_TRIP

/-- The inputs of an interval of an entry with a shadow decoder. -/
def Dev.shadowInputs (d : Dev) (m : Nat) (l : List TmSmp) (start e : Nat) : TmObs :=
  { w := d.tmSpeed m, a := d.tmAngle m ((e : Int) + 2 * ((d.gtc : Int) - start - e)), low := false, i := (0, 0), l := l }

theorem Dev.tmInputs_shadow (h : d.me m 0 F.ME_CFG_ANG_SRC = 0) (l : List TmSmp) (start e : Nat) :
    d.tmInputs m l start e = (d.shadowInputs m l start e, d) := by
  rw [Dev.tmInputs, if_neg (by rw [h]; decide)]
  rfl

/-- The rest of an evaluation, from the inputs on. -/
theorem Dev.evalRest_shows (hb : Begun m d e) (hm : m < 20) (hlive : d.replaying = false) (old : Int) (stale : Bool) (tick start len : Nat) :
    EvalShows m d (Dev.evalRest m (d.evalSmp m) old stale tick false (e.shadowInputs m (d.evalSmp m) start len, e)) := by
  rw [Dev.evalRest]
  dsimp only
  have hs := e.evalShown_spec m (e.shadowInputs m (d.evalSmp m) start len)
  have hw : (e.shadowInputs m (d.evalSmp m) start len).w = d.tmSpeed m := tmSpeed_congr hb.low hb.spbM
  have hl : (e.shadowInputs m (d.evalSmp m) start len).l = d.evalSmp m := rfl
  generalize e.shadowInputs m (d.evalSmp m) start len = x at hs hw hl
  obtain ⟨hfront, hspd⟩ := hs
  rw [hw] at hspd
  rw [hl] at hfront ⊢
  generalize e.evalShown m x = v at hfront hspd ⊢
  have ht := e.tmS_setTm_self m { e.tmS m with old := d.evalSmp m }
  have hspb : v.safe.spbM = d.safe.spbM := hfront.spbM.trans hb.spbM
  have haway : AwayStands d v := hb.low.trans (AwayStands.trans (e := e.evalOld m (d.evalSmp m)) ⟨rfl, fun _ _ _ => rfl⟩ (hfront.low (inputRegs_low hm)))
  rw [tmEstimate_congr hspb, shdValid_congr haway hspb]
  simp only [Bool.false_eq_true, if_false]
  rw [← Dev.evalOk]
  have hp := v.flag_putB_self (R.TM_STAT m) F.TM_STAT_VALID (d.evalOk m (d.evalSmp m)) rfl (by decide)
  have hreg : ∀ a, a ≠ R.TM_STAT m → (v.putB (R.TM_STAT m) F.TM_STAT_VALID (d.evalOk m (d.evalSmp m))).reg a = v.reg a := fun a ha => v.reg_put_ne _ _ ha
  have htm : ∀ j, (v.putB (R.TM_STAT m) F.TM_STAT_VALID (d.evalOk m (d.evalSmp m))).tmS j = v.tmS j := fun j => v.tmS_put _ _ _ _
  have hspb2 : (v.putB (R.TM_STAT m) F.TM_STAT_VALID (d.evalOk m (d.evalSmp m))).safe.spbM = d.safe.spbM := (congrArg SafeSt.spbM (v.put_safe _ _ _)).trans hspb
  generalize v.putB (R.TM_STAT m) F.TM_STAT_VALID (d.evalOk m (d.evalSmp m)) = y at hp hreg htm hspb2 ⊢
  have hz := y.evalEst_spec hm (d.tmEstimate m (d.evalSmp m)) (d.flag (R.SHD_STAT (d.meShd m)) F.SHD_STAT_VALID) ((e.evalOld m (d.evalSmp m)).fit32 x.w).1 old x stale
  generalize y.evalEst m (d.tmEstimate m (d.evalSmp m)) (d.flag (R.SHD_STAT (d.meShd m)) F.SHD_STAT_VALID) ((e.evalOld m (d.evalSmp m)).fit32 x.w).1 old x stale = z at hz ⊢
  have hylive : y.replaying = false := by
    refine (Dev.flag_of_reg ((hreg R.RPL_STAT ?_).trans (haway.2 R.RPL_STAT (by decide) (by decide))) _ : y.replaying = d.replaying).trans hlive
    simp only [R.RPL_STAT, R.TM_STAT]
    omega
  obtain ⟨hk, htrip⟩ := z.evalTail_spec hm (hz.live.trans hylive) ((e.evalOld m (d.evalSmp m)).fit32 x.w).1 x.low tick
    (!d.evalOk m (d.evalSmp m) || tmClip (d.evalSmp m))
  generalize z.evalTail m ((e.evalOld m (d.evalSmp m)).fit32 x.w).1 x.low tick (!d.evalOk m (d.evalSmp m) || tmClip (d.evalSmp m)) = w at hk htrip
  have hfive : z.get (R.TM_CNT m) (tmCntF 5) = d.get (R.TM_CNT m) (tmCntF 5) := by
    rw [hz.five.five, Dev.get_of_reg (hreg _ (by simp only [R.TM_CNT, R.TM_STAT]; omega)), Dev.get_of_reg (hfront.reg (tmReg_quiet hm tmCnt_tmReg) ?_)]
    · exact hb.five
    · simp only [inputRegs, List.mem_cons, List.not_mem_nil, or_false, R.TM_SPD, R.TM_ANG, R.TM_STAT, R.TM_CNT]
      omega
  have hfilt : z.sdDev F.SD_DEV_FILT_N = d.sdDev F.SD_DEV_FILT_N := sdDev_of (hz.five.spbM.trans hspb2) _
  rw [hfive, hfilt] at htrip
  refine ⟨fun j hj => ?_, ?_, ?_, ?_, ?_, fun hfit => ?_, ?_, fun t i he hf => ?_, fun hbad => htrip (by rw [hbad]; rfl)⟩
  · rw [hk.tm j hj, hz.tm j hj, htm, hfront.tm j hj]
    exact ((e.tmS_setTm m j _).trans (if_neg hj)).trans (hb.tm j hj)
  · rw [hk.next, hz.next, htm, hfront.next]
    exact (congrArg TmSt.next ht).trans hb.next
  · rw [hk.old, hz.old, htm, hfront.old]
    exact congrArg TmSt.old ht
  · rw [hk.smp, hz.smp, htm, hfront.smp]
    exact (congrArg TmSt.smp ht).trans hb.smp
  · rw [hk.shows (.inl rfl), hz.dem, hreg _ (by simp only [R.TM_DEM, R.TM_STAT]; omega), hfront.reg (tmReg_quiet hm tmDem_tmReg) ?_]
    · exact hb.dem
    · simp only [inputRegs, List.mem_cons, List.not_mem_nil, or_false, R.TM_SPD, R.TM_ANG, R.TM_STAT, R.TM_DEM]
      omega
  · rw [hk.shows (.inr (.inl rfl)), hz.spd, hreg _ (by simp only [R.TM_SPD, R.TM_STAT]; omega)]
    exact hspd hfit
  · rw [hk.valid, hz.valid]
    exact hp
  · rw [hk.shows (.inr (.inr rfl))]
    exact hz.tq t i he hf

theorem Dev.tmEvaluate_shows (hen : d.meEn m = true) (hlive : d.replaying = false) (hbase : d.safe.base ≠ none) (hdue : (d.tmS m).next ≤ d.gtc)
    (hok : ¬(d.devState = DS.SAFE_HOLD ∧ d.get R.SAFE_HOLD_INFO F.SAFE_HOLD_INFO_CAUSE = 4)) (hang : d.me m 0 F.ME_CFG_ANG_SRC = 0) :
    EvalShows m d (d.tmEvaluate m) := by
  have hm := meEn_lt hen
  have hb := d.evalBegin_spec hm
  rw [Dev.tmEvaluate_eq hen hbase hdue hok, Dev.tmInputs_shadow ((me_of hb.spbM _ _ _).trans hang), hang]
  exact Dev.evalRest_shows hb hm hlive _ _ _ _ _

end
end Sys2Proof.Machine
end

section
/-! PROOFS. S1's check of what continues in SAFE_HOLD (R374). -/

namespace Sys2Proof.Machine

section
variable {d e f : Dev} {m : Nat}

theorem safeRegs_near : ∀ a ∈ safeRegs, 0x40090000 ≤ a ∧ a < 0x400A2000 := by decide

theorem gateRegs_near : ∀ a ∈ gateRegs, 0x40090000 ≤ a ∧ a < 0x400A2000 := by decide

theorem FrameOn.away {p : Dev → Dev → Dev} (hp : Part p) {l : List Nat} (h : FrameOn p l d e) (hm : e.member = d.member)
    (hl : ∀ a ∈ l, 0x40090000 ≤ a ∧ a < 0x400A2000) : AwayStands d e :=
  ⟨hm, fun a ha hq => h.reg hp hq fun hc => by
    have := hl a hc
    omega⟩

/-- Whether an entry's machine continues. -/
def Dev.keeps (d : Dev) (m : Nat) : Nat := d.safe.keep / 2 ^ m % 2

/-- What S1's check of one entry leaves of the device and of the other entries. -/
structure UncRun (m : Nat) (d e : Dev) : Prop where
  away : AwayStands d e
  gtc : e.gtc = d.gtc
  spbM : e.safe.spbM = d.safe.spbM
  uncAt : e.safe.uncAt = d.safe.uncAt
  others : ∀ k < 20, k ≠ m → EntryStands k d e
  keeps : ∀ k, k ≠ m → e.keeps k = d.keeps k
  ends : d.keeps m = 0 → e.keeps m = 0
  trip : d.tripped m = true → e.tripped m = true
  told : ∀ page src, Raised d page src → Raised e page src

theorem AwayStands.refl (d : Dev) : AwayStands d d := ⟨rfl, fun _ _ _ => rfl⟩

theorem UncRun.refl (m : Nat) (d : Dev) : UncRun m d d :=
  ⟨.refl d, rfl, rfl, rfl, fun k _ _ => .refl k d, fun _ _ => rfl, id, id, fun _ _ => id⟩

theorem UncRun.trans (h : UncRun m d e) (k : UncRun m e f) : UncRun m d f :=
  ⟨h.away.trans k.away, k.gtc.trans h.gtc, k.spbM.trans h.spbM, k.uncAt.trans h.uncAt, fun j hj hn => (h.others j hj hn).trans (k.others j hj hn),
    fun j hn => (k.keeps j hn).trans (h.keeps j hn), fun h0 => k.ends (h.ends h0), fun ht => k.trip (h.trip ht), fun p s hr => k.told p s (h.told p s hr)⟩

/-- Only the entry's record, and free words. -/
theorem UncRun.setTm (d : Dev) (m : Nat) (v : TmSt) : UncRun m d (d.setTm m v) :=
  ⟨⟨rfl, fun _ _ _ => rfl⟩, rfl, rfl, rfl, fun k _ hn => ⟨(d.tmS_setTm m k v).trans (if_neg hn), rfl, fun _ _ => rfl⟩, fun _ _ => rfl, id, id, fun _ _ => id⟩

theorem UncRun.free (m : Nat) (d : Dev) (n : Nat) : UncRun m d { d with free := n } :=
  ⟨⟨rfl, fun _ _ _ => rfl⟩, rfl, rfl, rfl, fun _ _ _ => ⟨rfl, rfl, fun _ _ => rfl⟩, fun _ _ => rfl, id, id, fun _ _ => id⟩

/-- A register of the entry written. -/
theorem UncRun.setReg (d : Dev) (hm : m < 20) {a : Nat} (ha : tmReg m a) (w : Word) : UncRun m d (d.setReg a w) := by
  have hs := d.setReg_safe a w
  have hplace : 0x400A1100 ≤ a ∧ a < 0x400A1400 ∧ 0x20 * m ≤ a - 0x400A1100 ∧ a - 0x400A1100 < 0x20 * m + 0x20 := by
    unfold tmReg at ha
    omega
  have htrip : ∀ k, (d.setReg a w).tripped k = d.tripped k := fun k => congrArg (bitOf · k) (d.reg_setReg_ne w (by simp only [R.SAFE_TRIP]; omega))
  refine ⟨⟨d.setReg_member a w, fun b hb _ => d.reg_setReg_ne w (by omega)⟩, d.setReg_gtc a w, congrArg SafeSt.spbM hs, congrArg SafeSt.uncAt hs,
    fun k _ hn => ⟨d.tmS_setReg _ _ _, htrip k, fun b hb => d.reg_setReg_ne w ?_⟩, fun k _ => ?_, fun h => ?_, fun h => (htrip m).trans h, fun p s hr => ?_⟩
  · unfold tmReg at hb
    omega
  · rw [Dev.keeps, hs, Dev.keeps]
  · rw [Dev.keeps, hs]
    exact h
  · unfold Raised at hr ⊢
    rw [d.reg_setReg_ne w (by simp only [R.PG_EVT_RAW, pageBase]; omega)]
    exact hr

theorem UncRun.put (d : Dev) (hm : m < 20) {a : Nat} (ha : tmReg m a) (x : RField) (v : Nat) : UncRun m d (d.put a x v) := .setReg d hm ha _

theorem TripRun.unc {cause : Nat} (h : TripRun m cause d e) : UncRun m d e := by
  have hb := h.block
  refine ⟨h.frame.away safePart_part (congrArg Dev.member h.frame.1 :) safeRegs_near, (congrArg Dev.gtc h.frame.1 :), by rw [hb], by rw [hb], h.others,
    fun k hk => ?_, fun _ => ?_, fun _ => h.trip, fun _ _ => h.frame.raised safePart_part (pgEvtRaw_not_safe _)⟩
  · rw [Dev.keeps, hb]
    exact keepLess_other _ hk
  · rw [Dev.keeps, hb]
    exact keepLess_own _ _

/-- A trip ends the entry's continuation. -/
theorem TripRun.keeps {cause : Nat} (h : TripRun m cause d e) : e.keeps m = 0 := by
  rw [Dev.keeps, h.block]
  exact keepLess_own _ _

theorem UncRun.wdisEnd (d : Dev) (hm : m < 20) : UncRun m d (d.wdisEnd m) := by
  rw [Dev.wdisEnd]
  split
  · have hf := (d.keepEnds_frame m).trans gatePart_part (d.keepEnds m).grantAll_frame
    have hs : (d.keepEnds m).grantAll.safe = { d.safe with keep := keepLess d.safe.keep m } := (d.keepEnds m).grantAll_safe.trans (d.keepEnds_safe m)
    generalize (d.keepEnds m).grantAll = u at hf hs
    refine ⟨hf.away gatePart_part (congrArg Dev.member hf.1 :) gateRegs_near, (congrArg Dev.gtc hf.1 :), by rw [hs], by rw [hs],
      fun k hk _ => hf.gateStands hk, fun k hk => ?_, fun _ => ?_, fun h => (hf.gateStands hm).trip.trans h, fun _ _ => hf.raised gatePart_part (gateRegs_not_raw _)⟩
    · rw [Dev.keeps, hs]
      exact keepLess_other _ hk
    · rw [Dev.keeps, hs]
      exact keepLess_own _ _
  · exact .refl m d

theorem UncRun.fit32 (m : Nat) (d : Dev) (x : Int) : UncRun m d (d.fit32 x).2 := by
  obtain ⟨n, hn⟩ := d.fit32_snd x
  rw [hn]
  exact .free m d n

theorem UncRun.demand (d : Dev) (m start next : Nat) : UncRun m d (d.tmDemand m start next) := by
  rw [Dev.tmDemand]
  dsimp only
  split
  · exact (UncRun.fit32 m d _).trans (.setTm _ m _)
  · exact .setTm d m _

theorem UncRun.timers (d : Dev) (hm : m < 20) (w : Int) : UncRun m d (d.tmTimers m w) := by
  rw [Dev.tmTimers]
  exact (UncRun.setTm d m _).trans (.put _ hm tmStat_tmReg _ _)

theorem UncRun.atOnce (d : Dev) (hm : m < 20) {cause : Nat} (hc : cause < 16) (fails : Bool) : UncRun m d (d.tmAtOnce m cause fails) := by
  rw [Dev.tmAtOnce]
  split
  · exact (d.tmTrip_run hm hc).unc
  · exact .refl m d

theorem UncRun.unc (d : Dev) (hm : m < 20) : UncRun m d (d.tmUnc m) := by
  rw [Dev.tmUnc]
  split
  · exact .atOnce d hm (by decide) _
  · exact .refl m d

theorem UncRun.check (d : Dev) (hm : m < 20) (i : Nat) {cause : Nat} (hc : cause < 16) (fails : Bool) : UncRun m d (d.tmCheck m i cause fails) := by
  rw [Dev.tmCheck]
  split
  · exact .put d hm tmCnt_tmReg _ _
  · dsimp only
    have h := UncRun.put d hm (tmCnt_tmReg (m := m)) (tmCntF i) (min 15 (d.get (R.TM_CNT m) (tmCntF i) + 1))
    generalize d.put (R.TM_CNT m) (tmCntF i) (min 15 (d.get (R.TM_CNT m) (tmCntF i) + 1)) = u at h ⊢
    split
    · exact h.trans (u.tmTrip_run hm hc).unc
    · exact h

end
end Sys2Proof.Machine
end

section
/-! PROOFS. S1's check of the machines that continue in SAFE_HOLD, entry by entry (R374). -/

namespace Sys2Proof.Machine

section
variable {d e f : Dev} {m : Nat}

/-! ### One entry's check -/

/-- The interval of 1 ms taken, with its demands. -/
def Dev.uncTaken (d : Dev) (m : Nat) : Dev := ((d.setTm m { d.tmS m with smp := [] }).tmDemand m (d.gtc - msTicks 1) d.gtc).wdisEnd m

/-- The inputs kept, with the times that run on them. -/
def Dev.uncTimed (d : Dev) (m : Nat) (x : TmObs) : Dev := ((d.setTm m { d.tmS m with old := x.l }).tmTimers m x.w).tmUnc m

/-- The check of the torque. -/
def Dev.uncRest (m : Nat) (p : TmObs × Dev) : Dev :=
  let w := p.1.w
  let e := p.2.uncTimed m p.1
  match e.tmEstimate m p.1.l with
  | some (t, _) =>
    let sign : Int := if w < 0 then -1 else if w = 0 then 0 else 1
    e.tmCheck m 0 9 (decide (q8 (e.me m 9 F.ME_TQ_TQ_ABS) 10 < t * sign))
  | none => e

/-- S1's check of one entry. -/
def Dev.uncTurn (d : Dev) (m : Nat) : Dev :=
  Dev.uncRest m ((d.uncTaken m).tmInputs m (d.tmS m).smp ((d.uncTaken m).gtc - msTicks 1) (msTicks 1))

/-- The next check's tick set. -/
def Dev.uncBegun (d : Dev) : Dev := { d with safe := { d.safe with uncAt := d.gtc + msTicks 1 } }

theorem Dev.unsupervised_eq (h1 : d.devState = DS.SAFE_HOLD) (h2 : d.get R.SAFE_HOLD_INFO F.SAFE_HOLD_INFO_CAUSE = 4) (h3 : d.safe.uncAt ≤ d.gtc) :
    d.unsupervised = forN 20 (fun m e => if e.safe.keep / 2 ^ m % 2 = 0 then e else e.uncTurn m) d.uncBegun := by
  rw [Dev.unsupervised, if_pos ⟨h1, h2, h3⟩]
  rfl

theorem UncRun.taken (d : Dev) (hm : m < 20) : UncRun m d (d.uncTaken m) :=
  ((UncRun.setTm d m _).trans (.demand _ m _ _)).trans (.wdisEnd _ hm)

theorem Dev.vecAngle_snd (d : Dev) (s c : Int) : ∃ n, (d.vecAngle s c).2 = { d with free := n } := by
  rw [Dev.vecAngle]
  split
  · exact ⟨d.free + 1, rfl⟩
  · exact ⟨d.free, rfl⟩

theorem Dev.tmObserve_snd (d : Dev) (m : Nat) (l : List TmSmp) (start e : Nat) : ∃ n q, (d.tmObserve m l start e).2 = { d with free := n }.setTm m q ∧
    q.smp = (d.tmS m).smp := by
  simp only [Dev.tmObserve, Dev.fresh]
  generalize hp : Dev.vecAngle _ _ _ = p
  obtain ⟨n, hn⟩ := Dev.vecAngle_snd _ _ _
  rw [hp] at hn
  refine ⟨n, ?_⟩
  rw [hn]
  exact ⟨_, rfl, rfl⟩

/-- What an observer's or a shadow's inputs leave: everything but the observer's own state. -/
theorem Dev.tmInputs_run (d : Dev) (m : Nat) (l : List TmSmp) (start e : Nat) : UncRun m d (d.tmInputs m l start e).2 ∧
    ((d.tmInputs m l start e).2.tmS m).smp = (d.tmS m).smp := by
  rw [Dev.tmInputs]
  split
  · obtain ⟨n, q, hq, hsmp⟩ := d.tmObserve_snd m l start e
    rw [hq]
    exact ⟨(UncRun.free m d n).trans (.setTm _ m q), (congrArg TmSt.smp (Dev.tmS_setTm_self _ m q)).trans hsmp⟩
  · exact ⟨.refl m d, rfl⟩

theorem UncRun.timed (d : Dev) (hm : m < 20) (x : TmObs) : UncRun m d (d.uncTimed m x) :=
  ((UncRun.setTm d m _).trans (.timers _ hm _)).trans (.unc _ hm)

theorem UncRun.rest (hm : m < 20) (p : TmObs × Dev) : UncRun m p.2 (Dev.uncRest m p) := by
  have h := UncRun.timed p.2 hm p.1
  rw [Dev.uncRest]
  dsimp only
  generalize p.2.uncTimed m p.1 = u at h ⊢
  split
  · exact h.trans (.check u hm 0 (by decide) _)
  · exact h

theorem UncRun.turn (d : Dev) (hm : m < 20) : UncRun m d (d.uncTurn m) :=
  ((UncRun.taken d hm).trans (Dev.tmInputs_run _ m _ _ _).1).trans (.rest hm _)

/-! ### What it makes of its own entry -/

theorem Dev.tmTimers_kept (d : Dev) (hm : m < 20) (w : Int) : EvalKept m d (d.tmTimers m w) := by
  rw [Dev.tmTimers]
  refine (EvalKept.setTm d ?_ ?_ ?_).trans (.put _ hm _ _ (.inr ⟨rfl, by decide⟩))
  · rfl
  · rfl
  · rfl

theorem Dev.tmUnc_cnt (d : Dev) (hm : m < 20) : (d.tmUnc m).reg (R.TM_CNT m) = d.reg (R.TM_CNT m) := by
  rw [Dev.tmUnc]
  split
  · rw [Dev.tmAtOnce]
    split
    · exact (d.tmTrip_run hm (by decide)).own _ tmCnt_tmReg (by simp only [R.TM_CNT, R.TM_STAT]; omega)
    · rfl
  · rfl

theorem Dev.uncTimed_old (d : Dev) (hm : m < 20) (x : TmObs) : ((d.uncTimed m x).tmS m).smp = (d.tmS m).smp ∧ ((d.uncTimed m x).tmS m).old = x.l ∧
    (d.uncTimed m x).reg (R.TM_CNT m) = d.reg (R.TM_CNT m) := by
  have h := (Dev.tmTimers_kept (d.setTm m { d.tmS m with old := x.l }) hm x.w).trans (Dev.tmUnc_kept _ hm)
  have ht := d.tmS_setTm_self m { d.tmS m with old := x.l }
  refine ⟨h.smp.trans (by rw [ht]), h.old.trans (by rw [ht]), (Dev.tmUnc_cnt _ hm).trans ?_⟩
  exact Dev.tmTimers_reg _ m x.w (by simp only [R.TM_CNT, R.TM_STAT]; omega)

theorem Dev.uncRest_kept (hm : m < 20) (p : TmObs × Dev) : EvalKept m (p.2.uncTimed m p.1) (Dev.uncRest m p) := by
  rw [Dev.uncRest]
  dsimp only
  generalize p.2.uncTimed m p.1 = u
  split
  · exact (u.tmCheck_kept hm 0 (by decide) _).1
  · exact .refl m u

theorem Dev.uncTaken_front (d : Dev) (m : Nat) : Front m gateRegs (d.setTm m { d.tmS m with smp := [] }) (d.uncTaken m) := by
  have h1 := (Front.refl m gateRegs (d.setTm m { d.tmS m with smp := [] })).demand (d.gtc - msTicks 1) d.gtc
  obtain ⟨h2, h3⟩ := Dev.wdisEnd_front ((d.setTm m { d.tmS m with smp := [] }).tmDemand m (d.gtc - msTicks 1) d.gtc) m
  exact h1.trans (.gate h2 h3)

theorem Dev.uncTurn_smp (d : Dev) (hm : m < 20) : ((d.uncTurn m).tmS m).smp = [] := by
  have h1 := d.uncTaken_front m
  have ht := d.tmS_setTm_self m { d.tmS m with smp := [] }
  have h2 := (Dev.tmInputs_run (d.uncTaken m) m (d.tmS m).smp ((d.uncTaken m).gtc - msTicks 1) (msTicks 1)).2
  rw [Dev.uncTurn]
  generalize (d.uncTaken m).tmInputs m (d.tmS m).smp ((d.uncTaken m).gtc - msTicks 1) (msTicks 1) = p at h2 ⊢
  rw [(Dev.uncRest_kept hm p).smp, (Dev.uncTimed_old p.2 hm p.1).1, h2, h1.smp]
  exact congrArg TmSt.smp ht

/-- The sign of a speed. -/
def speedSign (w : Int) : Int := if w < 0 then -1 else if w = 0 then 0 else 1

/-- What the check of an entry with a shadow decoder makes of it. -/
structure UncShows (m : Nat) (d e : Dev) : Prop where
  old : (e.tmS m).old = (d.tmS m).smp
  trips : ∀ t i, d.tmEstimate m (d.tmS m).smp = some (t, i) → q8 (d.me m 9 F.ME_TQ_TQ_ABS) 10 < t * speedSign (d.tmSpeed m) →
    d.get (R.TM_CNT m) (tmCntF 0) < d.sdDev F.SD_DEV_FILT_N → d.sdDev F.SD_DEV_FILT_N ≤ d.get (R.TM_CNT m) (tmCntF 0) + 1 →
    e.tripped m = true ∧ e.keeps m = 0 ∧ Raised e Pg.SAFE Ev.TM_TRIP

theorem Dev.uncTurn_shows (d : Dev) (hm : m < 20) (hang : d.me m 0 F.ME_CFG_ANG_SRC = 0) : UncShows m d (d.uncTurn m) := by
  have hf := d.uncTaken_front m
  have hr := UncRun.taken d hm
  rw [Dev.uncTurn, Dev.tmInputs_shadow ((me_of hr.spbM _ _ _).trans hang)]
  generalize d.uncTaken m = u at hf hr ⊢
  have hw : (u.shadowInputs m (d.tmS m).smp (u.gtc - msTicks 1) (msTicks 1)).w = d.tmSpeed m := tmSpeed_congr hr.away hr.spbM
  have hl : (u.shadowInputs m (d.tmS m).smp (u.gtc - msTicks 1) (msTicks 1)).l = (d.tmS m).smp := rfl
  generalize u.shadowInputs m (d.tmS m).smp (u.gtc - msTicks 1) (msTicks 1) = x at hw hl
  obtain ⟨-, hold, hcnt⟩ := u.uncTimed_old hm x
  have hk := Dev.uncRest_kept hm (x, u)
  have hspb : (u.uncTimed m x).safe.spbM = d.safe.spbM := (UncRun.timed u hm x).spbM.trans hr.spbM
  refine ⟨(hk.old.trans hold).trans hl, fun t i he hq hlt hle => ?_⟩
  have hcnt0 : (u.uncTimed m x).get (R.TM_CNT m) (tmCntF 0) = d.get (R.TM_CNT m) (tmCntF 0) := by
    refine Dev.get_of_reg (hcnt.trans (hf.reg (tmReg_quiet hm tmCnt_tmReg) ?_)) _
    exact tmReg_not_gate hm tmCnt_tmReg
  have hn : (u.uncTimed m x).sdDev F.SD_DEV_FILT_N = d.sdDev F.SD_DEV_FILT_N := sdDev_of hspb _
  have heq : Dev.uncRest m (x, u) = (u.uncTimed m x).tmCheck m 0 9 true := by
    have hest : (u.uncTimed m x).tmEstimate m x.l = some (t, i) := by rw [hl, tmEstimate_congr hspb, he]
    have hdec : decide (q8 ((u.uncTimed m x).me m 9 F.ME_TQ_TQ_ABS) 10 < t * speedSign x.w) = true := by
      rw [me_of hspb, hw]
      exact decide_eq_true hq
    rw [Dev.uncRest]
    simp only [hest]
    exact congrArg _ hdec
  obtain ⟨v, -, -, htrip⟩ := (u.uncTimed m x).tmCheck_trips hm (i := 0) (cause := 9) (by rw [hcnt0, hn]; exact hlt) (by rw [hcnt0, hn]; exact hle)
  have ht := v.tmTrip_run hm (cause := 9) (by decide)
  rw [heq, htrip]
  exact ⟨ht.trip, ht.keeps, ht.told⟩

end
end Sys2Proof.Machine
end

section
/-! PROOFS. READY reached from COMMISSION: Garmal enables its machines' groups (R332, R337, R384). -/

namespace Sys2Proof.Machine

section
variable {d e f : Dev} {m g : Nat} {l : List Nat}

/-! ### PG_CTRL of a group's page written -/

theorem FrameOn.pageClaim {p : Dev → Dev → Dev} (hp : Part p) (h : FrameOn p l d e) {page : Nat} (hc : R.PG_CTRL page ∈ l) (hs : R.PG_STAT page ∈ l)
    (mid v : Nat) : FrameOn p l d (e.pageClaim mid page v) := by
  have hden : FrameOn p l d (e.deny page) := h.putB hp _ _ hs
  rw [Dev.pageClaim]
  split
  · exact h
  · exact FrameOn.ite (fun _ => hden) fun _ => FrameOn.ite (fun _ => h) fun _ => FrameOn.ite (fun _ => hden) fun _ => FrameOn.ite
      (fun _ => h.put hp _ _ hc) fun _ => FrameOn.ite (fun _ => hden) fun _ => h.put hp _ _ hc

theorem FrameOn.ctrlWrite {p : Dev → Dev → Dev} (hp : Part p) (h : FrameOn p l d e) {page : Nat} (hc : R.PG_CTRL page ∈ l) (hs : R.PG_STAT page ∈ l)
    (mid : Nat) (b : Block) (w : Word) : FrameOn p l d (e.ctrlWrite mid b page w) := by
  rw [Dev.ctrlWrite]
  refine FrameOn.pageClaim hp ?_ hc hs _ _
  refine FrameOn.ite (fun _ => FrameOn.put hp ?_ _ _ hc) fun _ => ?_
  all_goals exact FrameOn.ite (fun _ => (h.denyIf hp hs _).put hp _ _ hc) fun _ => h.denyIf hp hs _

/-- The registers that a group's enabling writes. -/
def startRegs (g : Nat) : List Nat := [R.PG_CTRL (Pg.PWT g), R.PG_STAT (Pg.PWT g), R.PWT_STAT g, R.SYS_ABSENT_CNT]

theorem FrameOn.groupStartRec (h : FrameOn hostPart l d e) (g : Nat) : FrameOn hostPart l d (e.groupStartRec g) := by
  rw [Dev.groupStartRec]
  dsimp only
  split
  · exact (h.hostGrp g _).hostGrp g _
  · exact (h.hostGrp g _).hostGrp g _

theorem FrameOn.groupEnable (h : FrameOn hostPart l d e) (hl : ∀ a ∈ startRegs g, a ∈ l) : FrameOn hostPart l d (e.groupEnable g) := by
  have hp := hostPart_part
  have hs : R.PWT_STAT g ∈ l := hl _ (by simp [startRegs])
  have hc : R.PG_CTRL (Pg.PWT g) ∈ l := hl _ (by simp [startRegs])
  rw [Dev.groupEnable]
  refine FrameOn.ite (fun _ => ((h.putB hp _ _ hs).put hp _ _ hs).quiet hp (Dev.raiseN_quiet _ _ _ _)) fun _ => ?_
  exact ((((h.putB hp _ _ hs).put hp _ _ hs).putB hp _ _ hs).putB hp _ _ hc).groupStartRec g

/-- PG_CTRL of a group's page written with EN = 1. -/
theorem FrameOn.pwmCtrlOn (h : FrameOn hostPart l d e) (hl : ∀ a ∈ startRegs g, a ∈ l) (mid : Nat) (b : Block) {w : Word}
    (hw : getF w F.PG_CTRL_EN ≠ 0) : FrameOn hostPart l d (e.pwmCtrlWrite mid b (Pg.PWT g) w) := by
  have hp := hostPart_part
  have hc : R.PG_CTRL (Pg.PWT g) ∈ l := hl _ (by simp [startRegs])
  have hs : R.PG_STAT (Pg.PWT g) ∈ l := hl _ (by simp [startRegs])
  have hg : Pg.PWT g - Pg.PWT 0 = g := by simp only [Pg.PWT]; omega
  rw [Dev.pwmCtrlWrite, hg]
  have h1 := (h.ctrlWrite hp hc hs mid b (setF w F.PG_CTRL_EN (b2n (e.pageEn (Pg.PWT g))))).denyIf hp hs
    (!e.pageFieldOk mid b (Pg.PWT g) && (getF w F.PG_CTRL_EN != 0) != e.pageEn (Pg.PWT g))
  rw [bne_iff_ne.2 hw] at h1 ⊢
  exact FrameOn.ite (fun _ => h1) fun _ => (h1.groupEnable hl)

theorem pageInfo_pwt {g : Nat} (hg : g < 20) : ∃ b i, pageInfo (Pg.PWT g) = some (b, i) ∧ (b = .pwtB ∨ b = .pwaB) := by
  have ht : ∀ k < 12, pageInfo (Pg.PWT k) = some (.pwtB, k) := by decide
  have ha : ∀ k < 8, pageInfo (Pg.PWT (12 + k)) = some (.pwaB, k) := by decide
  by_cases h : g < 12
  · exact ⟨_, _, ht g h, .inl rfl⟩
  · have hk := ha (g - 12) (by omega)
    rw [Nat.add_sub_cancel' (by omega)] at hk
    exact ⟨_, _, hk, .inr rfl⟩

/-- A supervisor's write that enables a group. -/
theorem FrameOn.enableWrite (h : FrameOn hostPart l d e) (hlive : e.replaying = false) (hg : g < 20) (hl : ∀ a ∈ startRegs g, a ∈ l) (mid : Nat) {w : Word}
    (hw : getF w F.PG_CTRL_EN ≠ 0) : FrameOn hostPart l d (e.pWrite mid (R.PG_CTRL (Pg.PWT g)) w) := by
  have hpage : pageOf (R.PG_CTRL (Pg.PWT g)) = Pg.PWT g := pageOf_base (by simp only [Pg.PWT]; omega) (by decide)
  have hoff : offOf (R.PG_CTRL (Pg.PWT g)) = 8 := by simp only [R.PG_CTRL, pageBase, Pg.PWT, offOf]; omega
  obtain ⟨b, i, hinfo, hb⟩ := pageInfo_pwt hg
  have habs : R.SYS_ABSENT_CNT ∈ l := hl _ (by simp [startRegs])
  have hctrl : FrameOn hostPart l d (e.pgCtrlWrite mid b i (Pg.PWT g) w) := by
    obtain rfl | rfl := hb
    · exact h.pwmCtrlOn hl mid _ hw
    · exact h.pwmCtrlOn hl mid _ hw
  rw [Dev.pWrite_live hlive (hpage ▸ hinfo), Dev.pWriteIn, hpage, hinfo]
  simp only [hoff, if_true]
  refine FrameOn.ite (fun _ => h.absentWrite habs _ _) fun _ => FrameOn.ite (fun _ => ?_) fun _ => hctrl
  exact hctrl.quiet hostPart_part (Dev.emit_quiet _ _)

/-! ### The machines in READY (R332, R384) -/

theorem machRegs_start (hm : m < 20) (hg : g ∈ d.mGroups m) : ∀ a ∈ startRegs g, a ∈ machRegs d m := by
  intro a ha
  have hlt := mGroups_lt hm g hg
  simp only [startRegs, List.mem_cons, List.not_mem_nil, or_false] at ha
  obtain rfl | rfl | rfl | rfl := ha
  · exact machRegs_pwt hm hg (by simp only [R.PG_CTRL, pageBase, Pg.PWT]; omega)
  · exact machRegs_pwt hm hg (by simp only [R.PG_STAT, pageBase, Pg.PWT]; omega)
  · exact machRegs_pwt hm hg (by simp only [R.PWT_STAT]; omega)
  · exact machRegs_absent

theorem Dev.offToSto_run (hm : m < 20) (hlive : d.replaying = false) : MachRun m d (d.offToSto m) := by
  rw [Dev.offToSto]
  refine MachRun.toSto hm hlive ?_ 8
  refine MachRun.foldl (fun g hg e he => MachRun.ite (fun _ => he) fun _ => ?_) (.refl m d)
  have hg' : g ∈ e.mGroups m := (he.groups hm).symm ▸ hg
  refine he.trans (.host (l := startRegs g) ?_ (machRegs_start hm hg'))
  refine (FrameOn.refl hostPart_part _ e).enableWrite ((he.live hm).trans hlive) (mGroups_lt hm g hg) (fun _ h => h) _ ?_
  rw [getF_setF_self _ _ _ (by decide)]
  decide

theorem Dev.machDevState_ready (hm : m < 20) (hlive : d.replaying = false) : MachRun m d (d.machDevState m DS.READY) := by
  have h := MachRun.refl m d
  rw [Dev.machDevState]
  refine MachRun.ite (fun _ => h) fun _ => ?_
  rw [if_neg (by decide), if_pos rfl]
  refine MachRun.ite (fun _ => Dev.offToSto_run hm hlive) fun _ => MachRun.ite (fun _ => h.armAbort hm hlive) fun _ => MachRun.ite (fun _ => h) fun _ =>
    h.toStoFault hm hlive 8

end
end Sys2Proof.Machine
end

section
/-! PROOFS. The torque monitors and the safety parameter block's confirmation whole (R357, R358, R360, R374, R382 to R384). -/

namespace Sys2Proof.Machine

section
variable {d e f : Dev} {m : Nat}

/-! ### S1's check in turn (R374) -/

/-- What the check of one entry leaves for the others. -/
structure UncFrame (d e : Dev) : Prop where
  away : AwayStands d e
  gtc : e.gtc = d.gtc
  spbM : e.safe.spbM = d.safe.spbM
  uncAt : e.safe.uncAt = d.safe.uncAt

theorem UncRun.base (h : UncRun m d e) : UncFrame d e := ⟨h.away, h.gtc, h.spbM, h.uncAt⟩
theorem UncFrame.refl (d : Dev) : UncFrame d d := ⟨.refl d, rfl, rfl, rfl⟩
theorem UncFrame.trans (h : UncFrame d e) (k : UncFrame e f) : UncFrame d f :=
  ⟨h.away.trans k.away, k.gtc.trans h.gtc, k.spbM.trans h.spbM, k.uncAt.trans h.uncAt⟩

/-- One entry stands, with its continuation and what has been shown. -/
structure UncStands (m : Nat) (d e : Dev) : Prop where
  entry : EntryStands m d e
  keeps : e.keeps m = d.keeps m
  told : ∀ page src, Raised d page src → Raised e page src

theorem UncStands.refl (m : Nat) (d : Dev) : UncStands m d d := ⟨.refl m d, rfl, fun _ _ => id⟩
theorem UncStands.trans (h : UncStands m d e) (k : UncStands m e f) : UncStands m d f :=
  ⟨h.entry.trans k.entry, k.keeps.trans h.keeps, fun p s hr => k.told p s (h.told p s hr)⟩
theorem UncRun.stands (h : UncRun m d e) {j : Nat} (hj : j < 20) (hne : j ≠ m) : UncStands j d e := ⟨h.others j hj hne, h.keeps j hne, h.told⟩

/-- One step of S1's check. -/
def Dev.uncStep (m : Nat) (e : Dev) : Dev := if e.safe.keep / 2 ^ m % 2 = 0 then e else e.uncTurn m

theorem Dev.uncStep_run (d : Dev) (hm : m < 20) : UncRun m d (Dev.uncStep m d) := by
  rw [Dev.uncStep]
  split
  · exact .refl m d
  · exact .turn d hm

theorem Dev.uncLoop_spec (d : Dev) : UncFrame d (forN 20 Dev.uncStep d) ∧ ∀ m < 20, ∃ u, UncFrame d u ∧ UncStands m d u ∧
    UncStands m (Dev.uncStep m u) (forN 20 Dev.uncStep d) := by
  refine forN_stages (I := UncFrame d) (B := fun m e => UncStands m d e)
    (A := fun m e => ∃ u, UncFrame d u ∧ UncStands m d u ∧ UncStands m (Dev.uncStep m u) e) 20 (fun m hm u hu hb => ?_)
    (fun m hm j hj hlt u _ hb => ?_) (fun m hm j hlt u _ ha => ?_) (.refl d) fun m _ => .refl m d
  · exact ⟨hu.trans (Dev.uncStep_run u hm).base, u, hu, hb, .refl m _⟩
  · exact hb.trans ((Dev.uncStep_run u hm).stands hj (by omega))
  · obtain ⟨v, hv, hb, hs⟩ := ha
    exact ⟨v, hv, hb, hs.trans ((Dev.uncStep_run u hm).stands (by omega) (by omega))⟩

/-- What S1's check shows of an entry whose machine continues. -/
structure UncDone (m : Nat) (d e : Dev) : Prop where
  uncAt : e.safe.uncAt = d.gtc + msTicks 1
  smp : (e.tmS m).smp = []
  shadow : d.me m 0 F.ME_CFG_ANG_SRC = 0 → UncShows m d e

theorem Dev.unsupervised_done (hen : d.meEn m = true) (h1 : d.devState = DS.SAFE_HOLD) (h2 : d.get R.SAFE_HOLD_INFO F.SAFE_HOLD_INFO_CAUSE = 4)
    (hk : d.safe.keep / 2 ^ m % 2 = 1) (h3 : d.safe.uncAt ≤ d.gtc) : UncDone m d d.unsupervised := by
  have hm := meEn_lt hen
  have heq : d.unsupervised = forN 20 Dev.uncStep d.uncBegun := Dev.unsupervised_eq h1 h2 h3
  have hs0 : EntryStands m d d.uncBegun := ⟨rfl, rfl, fun _ _ => rfl⟩
  have hk0 : d.uncBegun.keeps m = 1 := hk
  have haway : AwayStands d d.uncBegun := ⟨rfl, fun _ _ _ => rfl⟩
  have hspb0 : d.uncBegun.safe.spbM = d.safe.spbM := rfl
  have hat0 : d.uncBegun.safe.uncAt = d.gtc + msTicks 1 := rfl
  rw [heq]
  generalize d.uncBegun = b at hs0 hk0 haway hspb0 hat0
  obtain ⟨hf, hturn⟩ := b.uncLoop_spec
  obtain ⟨u, hu, hb, he⟩ := hturn m hm
  generalize forN 20 Dev.uncStep b = w at hf he
  have hstep : Dev.uncStep m u = u.uncTurn m := if_neg (by
    have h1 : u.safe.keep / 2 ^ m % 2 = 1 := hb.keeps.trans hk0
    omega)
  rw [hstep] at he
  have hbeg := hs0.trans hb.entry
  have hspb : u.safe.spbM = d.safe.spbM := hu.spbM.trans hspb0
  refine ⟨hf.uncAt.trans hat0, (congrArg TmSt.smp he.entry.tm).trans (u.uncTurn_smp hm), fun hang => ?_⟩
  obtain ⟨hold, htrips⟩ := u.uncTurn_shows hm ((me_of hspb _ _ _).trans hang)
  rw [hbeg.tm] at hold htrips
  refine ⟨(congrArg TmSt.old he.entry.tm).trans hold, fun t i hest hq hlt hle => ?_⟩
  have hcnt : u.get (R.TM_CNT m) (tmCntF 0) = d.get (R.TM_CNT m) (tmCntF 0) := Dev.get_of_reg (hbeg.stat _ tmCnt_tmReg) _
  have hn : u.sdDev F.SD_DEV_FILT_N = d.sdDev F.SD_DEV_FILT_N := sdDev_of hspb _
  rw [tmEstimate_congr hspb, me_of hspb, tmSpeed_congr (haway.trans hu.away) hspb, hcnt, hn] at htrips
  obtain ⟨ht, hz, hr⟩ := htrips t i hest hq hlt hle
  exact ⟨he.entry.trip.trans ht, he.keeps.trans hz, he.told _ _ hr⟩

/-! ### READY by a confirmation (R383, R384) -/

theorem Dev.setState_level (d : Dev) {new cause : Nat} (hn : new < 16) (hc : cause < 256) (valid : Bool) (h1 : stateRank new = 0)
    (h2 : stateRank d.devState = 0) (hne : new ≠ d.devState) : (d.setState new cause valid).devState = new := by
  by_cases ht : d.trans.at1 = d.now + 1
  · rw [Dev.setState, if_pos ht, if_neg (by omega), if_neg hne, if_pos ⟨h1, h2⟩]
    exact ((Dev.writeState_is _ _ hn hc valid).of_reg (Dev.afterState_state _ _ _ _)).state
  · exact (d.setState_taken hn hc valid (.inl ht)).state

/-- READY with what it brings the machines. -/
theorem Dev.goReady_spec (hlive : d.replaying = false) (h : d.devState = DS.COMMISSION) :
    (d.goState DS.READY 0 false).devState = DS.READY ∧ TransRun d (d.goState DS.READY 0 false) := by
  have hst := d.setState_level (new := DS.READY) (cause := 0) (by decide) (by decide) false (by decide) (by rw [h]; decide) (by rw [h]; decide)
  have hr := d.setState_run DS.READY 0 false
  rw [Dev.goState]
  generalize d.setState DS.READY 0 false = u at hst hr ⊢
  rw [if_pos ⟨hst, by rw [h]; decide⟩, Dev.byS0]
  split
  · exact ⟨hst, hr⟩
  · refine forN_keeps (P := fun e => e.devState = DS.READY ∧ TransRun d e) 20 (fun m hm e he => ?_) ⟨hst, hr⟩
    have hm' := e.machDevState_ready hm ((TransRun.live he.2).trans hlive)
    exact ⟨(hm'.devState hm).trans he.1, FrameOn.trans transPart_part he.2 (TransRun.mach hm hm')⟩

theorem Dev.spbPass_spec (hlive : d.replaying = false) (h : d.devState = DS.COMMISSION) :
    d.spbPass.devState = DS.READY ∧ d.spbPass.flag R.SAFE_STAT F.SAFE_STAT_CONFIRMED = true := by
  rw [Dev.spbPass, Dev.goSafe]
  have hl : (d.putB R.SAFE_STAT F.SAFE_STAT_CONFIRMED true).replaying = false := (Dev.flag_of_reg (d.reg_put_ne _ _ (by decide)) _).trans hlive
  have hs : (d.putB R.SAFE_STAT F.SAFE_STAT_CONFIRMED true).devState = DS.COMMISSION := (Dev.get_of_reg (d.reg_put_ne _ _ (by decide)) _).trans h
  have hc := d.flag_putB_self R.SAFE_STAT F.SAFE_STAT_CONFIRMED true rfl (by decide)
  generalize d.putB R.SAFE_STAT F.SAFE_STAT_CONFIRMED true = u at hl hs hc
  obtain ⟨hst, hr⟩ := Dev.goReady_spec hl hs
  generalize u.goState DS.READY 0 false = v at hst hr
  refine ⟨v.grantAll_state.trans hst, (Dev.flag_of_reg (v.grantAll_frame.reg gatePart_part (by decide) (by decide)) _).trans ?_⟩
  exact (Dev.flag_of_reg (TransRun.read hr (a := R.SAFE_STAT) (by decide) (by unfold offTrans; decide)) _).trans hc

/-! ### A confirmation that fails (R383, R384) -/

theorem Dev.confirmFail_spec (d : Dev) : Frame d d.confirmFail [R.SAFE_STAT] ∧
    d.confirmFail.get R.SAFE_STAT F.SAFE_STAT_CONF_FAILS = min 3 (d.get R.SAFE_STAT F.SAFE_STAT_CONF_FAILS + 1) ∧
    (2 ≤ d.get R.SAFE_STAT F.SAFE_STAT_CONF_FAILS → d.confirmFail.flag R.SAFE_STAT F.SAFE_STAT_CONF_LOCK = true) ∧
    Raised d.confirmFail Pg.SAFE Ev.CONFIRM_FAIL := by
  rw [Dev.confirmFail]
  generalize hn : min 3 (d.get R.SAFE_STAT F.SAFE_STAT_CONF_FAILS + 1) = n
  have h4 : n < 4 := by omega
  have hf : FrameOn noPart [R.SAFE_STAT] d (d.put R.SAFE_STAT F.SAFE_STAT_CONF_FAILS n) := (FrameOn.refl noPart_part _ d).put noPart_part _ _ (by simp)
  have hg := (d.get_put_self R.SAFE_STAT F.SAFE_STAT_CONF_FAILS n (by decide)).trans (Nat.mod_eq_of_lt h4)
  have hlk : (d.put R.SAFE_STAT F.SAFE_STAT_CONF_FAILS n).flag R.SAFE_STAT F.SAFE_STAT_CONF_LOCK = d.flag R.SAFE_STAT F.SAFE_STAT_CONF_LOCK :=
    d.flag_put_field _ _ _ (by decide)
  generalize d.put R.SAFE_STAT F.SAFE_STAT_CONF_FAILS n = u at hf hg hlk ⊢
  have hf2 := hf.putB noPart_part F.SAFE_STAT_CONF_LOCK (u.flag R.SAFE_STAT F.SAFE_STAT_CONF_LOCK || n == 3) (List.mem_singleton.2 rfl)
  have hlock := u.flag_putB_self R.SAFE_STAT F.SAFE_STAT_CONF_LOCK (u.flag R.SAFE_STAT F.SAFE_STAT_CONF_LOCK || n == 3) rfl (by decide)
  have hfails : (u.putB R.SAFE_STAT F.SAFE_STAT_CONF_LOCK (u.flag R.SAFE_STAT F.SAFE_STAT_CONF_LOCK || n == 3)).get R.SAFE_STAT F.SAFE_STAT_CONF_FAILS =
    u.get R.SAFE_STAT F.SAFE_STAT_CONF_FAILS := u.get_put_field _ _ _ _ _ (by decide)
  rw [hlk] at hf2 hlock hfails
  generalize u.putB R.SAFE_STAT F.SAFE_STAT_CONF_LOCK (d.flag R.SAFE_STAT F.SAFE_STAT_CONF_LOCK || n == 3) = v at hf2 hlock hfails
  have hq := v.raise_quiet Pg.SAFE Ev.CONFIRM_FAIL
  refine ⟨hf2.quiet noPart_part hq, (hq.get (by decide) _).trans (hfails.trans hg), fun h2 => (hq.flag (by decide) _).trans (hlock.trans ?_),
    Dev.raise_raised _ rfl⟩
  have h3 : n = 3 := by omega
  rw [h3]
  exact Bool.or_true _

theorem safeConfirm_denied {mid : Nat} (h : d.confirmOk mid = false) (flash : Memory) (w : Word) : safeConfirm d flash mid w = (d.deny Pg.SAFE, flash) := by
  rw [safeConfirm, h]
  rfl

theorem safeConfirm_fails {mid : Nat} {w : Word} (h : d.confirmOk mid = true) (hbad : ¬(w = d.reg R.SAFE_CRC_P ∧ w = d.reg R.SAFE_CRC_M ∧
    d.devState = DS.COMMISSION ∧ d.flag R.SAFE_STAT F.SAFE_STAT_SPB_LOADED = true ∧ d.get R.SAFE_STAT F.SAFE_STAT_SPB_ERR = 0)) (flash : Memory) :
    safeConfirm d flash mid w = (d.confirmFail, flash) := by
  rw [safeConfirm, h, if_neg (by decide), if_neg hbad]

/-- The device with both channels' copies confirmed. -/
def Dev.confirmed (d : Dev) (w : Word) : Dev :=
  { d with safe := { d.safe with spbP := spbConfirm d.safe.spbP w, spbM := spbConfirm d.safe.spbM w } }

theorem safeConfirm_good {mid : Nat} {w : Word} (h : d.confirmOk mid = true) (hgood : w = d.reg R.SAFE_CRC_P ∧ w = d.reg R.SAFE_CRC_M ∧
    d.devState = DS.COMMISSION ∧ d.flag R.SAFE_STAT F.SAFE_STAT_SPB_LOADED = true ∧ d.get R.SAFE_STAT F.SAFE_STAT_SPB_ERR = 0) (flash : Memory) :
    safeConfirm d flash mid w = ((d.confirmed w).spbPass, flashSpb flash (spbConfirm d.safe.spbM w)) := by
  rw [safeConfirm, h, if_neg (by decide), if_pos hgood]
  rfl

theorem Dev.spbRecheck_eq (h : d.devState = DS.READY ∨ d.devState = DS.RUN)
    (hc : spbCrc d.safe.spbP ≠ d.reg R.SAFE_CRC_P ∨ spbCrc d.safe.spbM ≠ d.reg R.SAFE_CRC_M) : d.spbRecheck = d.enterHold 5 Ev.SAFE_HOLD := by
  rw [Dev.spbRecheck, if_pos ⟨h, hc⟩]

theorem Dev.spbRecheck_held (hlive : d.replaying = false) (h : d.devState = DS.READY ∨ d.devState = DS.RUN)
    (hc : spbCrc d.safe.spbP ≠ d.reg R.SAFE_CRC_P ∨ spbCrc d.safe.spbM ≠ d.reg R.SAFE_CRC_M) : Held d.spbRecheck 5 := by
  rw [Dev.spbRecheck_eq h hc]
  refine (Dev.enterHold_in hlive ?_ (by decide) (by decide)).held
  obtain h | h := h
  · unfold Dev.holds1
    rw [h]
    decide
  · unfold Dev.holds1
    rw [h]
    decide

end

theorem execUnsupervised_same {s : State} (hs : s.Live) (h : s.dev.safe.uncAt > s.dev.gtc ∨ s.dev.flag R.RST_DOM F.RST_DOM_S1_HELD = true) :
    exec .unsupervisedCheck s = .next s := by
  refine onLive_same hs ?_
  cases hr : s.dev.flag R.RST_DOM F.RST_DOM_S1_HELD with
  | true => rw [Dev.byS1, hr, if_pos rfl]
  | false =>
    rw [Dev.byS1, hr, if_neg Bool.false_ne_true, Dev.unsupervised]
    refine if_neg fun hc => ?_
    obtain h | h := h
    · omega
    · exact Bool.false_ne_true (hr.symm.trans h)

theorem exec_safeConfirmWrite {s : State} (h : s.Up) (mid : Nat) (w : Word) : exec (.safeConfirmWrite mid w) s = .next
    { s with dev := (safeConfirm s.dev s.mems.flash mid w).1, mems := { s.mems with flash := (safeConfirm s.dev s.mems.flash mid w).2 } }  := by
  change execSafeConfirmWrite mid w s = _
  rw [execSafeConfirmWrite, onState_up h]

/-- Settles O39: the values that an evaluation shows stand while its checks follow one another, and a check that fails for the last time
that the filter allows trips; S1's check acts on each entry by itself. -/
theorem torqueMonitor : Obligations.TorqueMonitor := by
  unfold Obligations.TorqueMonitor
  refine ⟨fun s m hs hen => ⟨fun hz hb hdue hok hang => ?_, execUnsupervised_same hs, fun h1 h2 hk h3 hr => ?_⟩, fun s hs => ⟨fun hz h hc => ?_, fun mid w => ⟨fun h hgood => ?_, fun h hbad => ?_, fun h => ?_⟩⟩⟩
  · refine DevNext.onLive hs ?_
    rw [Dev.clocked_runs hz]
    obtain ⟨htm, hnext, hold, hsmp, hdem, hspd, hvalid, htq, htrips⟩ := Dev.tmEvaluate_shows hen hs.2 hb hdue hok hang
    exact ⟨htm, hnext, hold, hsmp, hdem.trans (by rw [Dev.tmDemand_dem]), hspd, hvalid, htq, htrips⟩
  · refine DevNext.onLive hs ?_
    rw [Dev.byS1, hr, if_neg Bool.false_ne_true]
    obtain ⟨hat, hsmp, hshadow⟩ := Dev.unsupervised_done hen h1 h2 hk h3
    exact ⟨hat, hsmp, fun hang => ⟨(hshadow hang).old, (hshadow hang).trips⟩⟩
  · refine DevNext.onDev hs.1 ?_
    rw [Dev.clocked_runs hz]
    exact Dev.spbRecheck_held hs.2 h hc
  · obtain ⟨hst, hc⟩ := Dev.spbPass_spec (d := s.dev.confirmed w) hs.2 hgood.2.2.1
    refine ⟨(s.dev.confirmed w).spbPass, ?_, hst, hc⟩
    rw [exec_safeConfirmWrite hs.1, safeConfirm_good h hgood]
  · refine ⟨s.dev.confirmFail, ?_, s.dev.confirmFail_spec⟩
    rw [exec_safeConfirmWrite hs.1, safeConfirm_fails h hbad]
    rfl
  · rw [exec_safeConfirmWrite hs.1, safeConfirm_denied h]
    rfl

end Sys2Proof.Machine
end

section
/-! PROOFS. A frame accepted from a ring: its source, its words and its requests (R396, R397, R400, R407). -/

namespace Sys2Proof.Machine

/-- What an accepted frame may change beside registers: the rings, Channel M with the enables, and the timeline's zero-slack mark. -/
def acceptPart (d e : Dev) : Dev := { d with grp := e.grp, tm := e.tm, safe := e.safe, ring := e.ring, sync := e.sync }

theorem acceptPart_part : Part acceptPart := ⟨fun _ => rfl, fun _ _ _ => rfl, fun _ _ => rfl, fun _ _ _ => rfl⟩

/-- The registers of an accepted frame. -/
def acceptRegs : List Nat :=
  R.TL_ZS_INFO :: R.SFX_RX_REQ :: ((List.range 256).map fun k => R.SFX_FRAME 0 k) ++ safeRegs

theorem safeRegs_accept {a : Nat} (h : a ∈ safeRegs) : a ∈ acceptRegs := List.mem_append_right _ h

theorem sfxFrame_accept {s k : Nat} (hs : s < 16) (hk : k < 16) : R.SFX_FRAME s k ∈ acceptRegs := by
  refine List.mem_append_left _ (.tail _ (.tail _ (List.mem_map.2 ⟨16 * s + k, List.mem_range.2 (by omega), ?_⟩)))
  simp only [R.SFX_FRAME]
  omega

theorem sfxFrame_quiet {s k : Nat} (hs : s < 16) (hk : k < 16) : eventReg (R.SFX_FRAME s k) = false := by
  rw [eventReg_eq_false]
  simp only [R.SFX_FRAME]
  omega

theorem pgEvtRaw_not_accept (q : Nat) : R.PG_EVT_RAW q ∉ acceptRegs := fun h => by
  obtain h | h := List.mem_append.1 h
  · simp only [List.mem_cons, List.mem_map, List.mem_range, R.TL_ZS_INFO, R.SFX_RX_REQ, R.SFX_FRAME, R.PG_EVT_RAW, pageBase] at h
    omega
  · exact pgEvtRaw_not_safe q h

theorem fwSrc_lt (ws : List Word) : fwSrc ws < 16 := Nat.mod_lt _ (by decide)

section
variable {d e : Dev} {s : Nat} {ws : List Word}

theorem FrameOn.safeAccept (h : FrameOn Dev.safePart safeRegs d e) : FrameOn acceptPart acceptRegs d e :=
  h.widen safePart_part acceptPart_part (fun _ _ => rfl) fun _ => safeRegs_accept

/-! ### Sources -/

theorem Dev.srcS_setSrc_self (d : Dev) (s : Nat) (v : SrcSt) : (d.setSrc s v).srcS s = v := spGet_spPut_self _ _ _

theorem Dev.srcS_setSrc_ne (d : Dev) {s j : Nat} (v : SrcSt) (h : j ≠ s) : (d.setSrc s v).srcS j = d.srcS j := spGet_spPut_ne _ _ h

theorem srcS_of (h : e.ring = d.ring) (j : Nat) : e.srcS j = d.srcS j := by rw [Dev.srcS, h]; rfl

theorem FrameOn.setSrc (h : FrameOn acceptPart acceptRegs d e) (s : Nat) (v : SrcSt) : FrameOn acceptPart acceptRegs d (e.setSrc s v) :=
  h.part acceptPart_part rfl fun _ => rfl

/-! ### The requests of a frame (R400) -/

/-- SFX_RX_REQ as a frame of a source sets its two bits. -/
def reqWord (w : Word) (s : Nat) (sto ss1 : Bool) : Word := setBit (setBit w s sto) (16 + s) ss1

theorem reqWord_bits (w : Word) (hs : s < 16) (sto ss1 : Bool) :
    bitOf (reqWord w s sto ss1) s = sto ∧ bitOf (reqWord w s sto ss1) (16 + s) = ss1 := by
  refine ⟨?_, ?_⟩
  · rw [reqWord, bitOf_setBit _ (by omega), if_neg (by omega), bitOf_setBit _ (by omega), if_pos rfl]
  · rw [reqWord, bitOf_setBit _ (by omega), if_pos rfl]

/-- The entries' requests that a frame brings. -/
def Dev.reqEntries (d : Dev) (sto ss1 : Bool) : Dev :=
  let d := if sto then (entriesThat d.meEn).foldl (fun e m => e.stoRequest m) d else d
  let d := if ss1 then (entriesThat d.meEn).foldl (fun e m => e.ss1Request m) d else d
  if sto || ss1 then d.grantAll else d

theorem Dev.frameReqs_eq (d : Dev) (s : Nat) (ws : List Word) :
    d.frameReqs s ws =
      let sto := bitOf (fw ws 6) d.rsNode
      let ss1 := bitOf (fw ws 6) (16 + d.rsNode)
      let newSto := sto && !bitOf (d.reg R.SFX_RX_REQ) s
      let newSs1 := ss1 && !bitOf (d.reg R.SFX_RX_REQ) (16 + s)
      ((d.setReg R.SFX_RX_REQ (reqWord (d.reg R.SFX_RX_REQ) s sto ss1)).reqEntries newSto newSs1).raiseNIf (newSto || newSs1) Pg.SFX Ev.RING_REQ s := rfl

theorem foldl_entries (p : Nat → Bool) {g : Nat → Dev → Dev} (hg : ∀ m < 20, ∀ u, EntryRun m u (g m u)) (d : Dev) :
    EntriesRun d ((entriesThat p).foldl (fun e m => g m e) d) := by
  rw [foldl_entriesThat]
  exact (entries_turns (fun m hm u => EntryRun.ite fun _ => hg m hm u) d).1

/-- What the entries' requests leave: the ring's requests as they were taken, the ring's own state, and every register of no entry. -/
structure ReqRun (d e : Dev) : Prop where
  frame : FrameOn Dev.safePart safeRegs d e
  ring : e.ring = d.ring

theorem EntriesRun.req (h : EntriesRun d e) : ReqRun d e := ⟨h.safeFrame, (congrArg Dev.ring h.frame.1 :)⟩

theorem ReqRun.trans {f : Dev} (h : ReqRun d e) (k : ReqRun e f) : ReqRun d f := ⟨h.frame.trans safePart_part k.frame, k.ring.trans h.ring⟩

theorem ReqRun.ite {c : Bool} (h : ReqRun d e) : ReqRun d (if c then e else d) := by
  split
  · exact h
  · exact ⟨FrameOn.refl safePart_part _ d, rfl⟩

theorem Dev.reqEntries_run (d : Dev) (sto ss1 : Bool) : ReqRun d (d.reqEntries sto ss1) := by
  rw [Dev.reqEntries]
  have h1 : ReqRun d (if sto then (entriesThat d.meEn).foldl (fun e m => e.stoRequest m) d else d) :=
    .ite (foldl_entries d.meEn (g := fun m e => e.stoRequest m) (fun m hm u => u.stoRequest_run hm) d).req
  generalize (if sto then (entriesThat d.meEn).foldl (fun e m => e.stoRequest m) d else d) = u at h1
  have h2 : ReqRun u (if ss1 then (entriesThat u.meEn).foldl (fun e m => e.ss1Request m) u else u) :=
    .ite (foldl_entries u.meEn (g := fun m e => e.ss1Request m) (fun m _ v => v.ss1Request_run) u).req
  generalize (if ss1 then (entriesThat u.meEn).foldl (fun e m => e.ss1Request m) u else u) = v at h2
  have h3 : ReqRun v v.grantAll := by
    have hg := v.grantAll_frame
    generalize v.grantAll = w at hg
    exact ⟨hg.gateSafe, (congrArg Dev.ring hg.1 :)⟩
  exact (h1.trans h2).trans (.ite h3)

/-- The requests of an accepted frame as they stand afterwards. -/
structure ReqsTaken (d e : Dev) (s : Nat) (ws : List Word) : Prop where
  frame : FrameOn acceptPart acceptRegs d e
  ring : e.ring = d.ring
  apart : ∀ a, eventReg a = false → a ∉ safeRegs → a ≠ R.SFX_RX_REQ → e.reg a = d.reg a
  sto : bitOf (e.reg R.SFX_RX_REQ) s = bitOf (fw ws 6) d.rsNode
  ss1 : bitOf (e.reg R.SFX_RX_REQ) (16 + s) = bitOf (fw ws 6) (16 + d.rsNode)

theorem rxReq_apart : eventReg R.SFX_RX_REQ = false ∧ R.SFX_RX_REQ ∉ safeRegs := by decide

theorem Dev.frameReqs_taken (d : Dev) (hs : s < 16) (ws : List Word) : ReqsTaken d (d.frameReqs s ws) s ws := by
  rw [Dev.frameReqs_eq]
  dsimp only
  have hb := reqWord_bits (d.reg R.SFX_RX_REQ) hs (bitOf (fw ws 6) d.rsNode) (bitOf (fw ws 6) (16 + d.rsNode))
  generalize reqWord (d.reg R.SFX_RX_REQ) s (bitOf (fw ws 6) d.rsNode) (bitOf (fw ws 6) (16 + d.rsNode)) = w at hb
  generalize (bitOf (fw ws 6) d.rsNode && !bitOf (d.reg R.SFX_RX_REQ) s) = a
  generalize (bitOf (fw ws 6) (16 + d.rsNode) && !bitOf (d.reg R.SFX_RX_REQ) (16 + s)) = b
  have h1 : FrameOn acceptPart acceptRegs d (d.setReg R.SFX_RX_REQ w) :=
    (FrameOn.refl acceptPart_part _ d).setReg acceptPart_part w (.tail _ (.head _))
  have h2 := (d.setReg R.SFX_RX_REQ w).reqEntries_run a b
  generalize (d.setReg R.SFX_RX_REQ w).reqEntries a b = v at h2
  have hq := v.raiseNIf_quiet (a || b) Pg.SFX Ev.RING_REQ s
  have hw : (v.raiseNIf (a || b) Pg.SFX Ev.RING_REQ s).reg R.SFX_RX_REQ = w :=
    (hq.reg rxReq_apart.1).trans ((h2.frame.reg safePart_part rxReq_apart.1 rxReq_apart.2).trans (d.reg_setReg_self _ _))
  refine ⟨(h1.trans acceptPart_part h2.frame.safeAccept).quiet acceptPart_part hq, hq.ring.trans (h2.ring.trans (d.setReg_ring _ _)),
    fun c hc hl hne => ?_, ?_, ?_⟩
  · exact (hq.reg hc).trans ((h2.frame.reg safePart_part hc hl).trans (d.reg_setReg_ne _ hne))
  · rw [hw, hb.1]
  · rw [hw, hb.2]

/-! ### Acceptance (R396 to R398) -/

/-- A source's record once a frame of it has been accepted in a tick. -/
def SrcSt.accepted (x : SrcSt) (q t : Nat) (cur : Bool) : SrcSt :=
  { x with last := some q, accAt := t + 1, inEpoch := x.inEpoch || cur, epAt := if cur then t + 1 else x.epAt }

/-- Whether a frame is of the current epoch. -/
def Dev.ofEpoch (d : Dev) (ws : List Word) : Bool := d.epoch != 0 && fwEpoch ws == d.epoch

/-- The frame's words as they are shown. -/
def Dev.showFrame (d : Dev) (s : Nat) (ws : List Word) : Dev := forN 16 (fun k e => e.setReg (R.SFX_FRAME s k) (fw ws k)) d

/-- The source's record and the frame's words. -/
def Dev.frameKept (d : Dev) (ws : List Word) (slack : Bool) : Dev :=
  let u := d.setSrc (fwSrc ws) ((d.srcS (fwSrc ws)).accepted (fw ws 1).toNat d.gtc (d.ofEpoch ws))
  (if slack then u.zeroSlack 1 (fwSrc ws) else u).showFrame (fwSrc ws) ws

theorem Dev.frameAccept_eq (h : d.seqNewer ws = true) : d.frameAccept ws =
    let u := d.frameKept ws (!d.lost (fwSrc ws) && d.deadline (fwSrc ws) == some d.gtc)
    if d.ofEpoch ws && !u.lost (fwSrc ws) then u.frameReqs (fwSrc ws) ws else u := by
  rw [Dev.frameAccept, h]
  rfl

theorem Dev.frameAccept_old (h : d.seqNewer ws = false) : d.frameAccept ws = d := by
  rw [Dev.frameAccept, h]
  rfl

theorem seqNewer_iff (d : Dev) (ws : List Word) : d.seqNewer ws = true ↔ d.newer ws := by
  rw [Dev.seqNewer, Dev.newer]
  cases (d.srcS (fwSrc ws)).last with
  | none => simp
  | some p => simp

theorem Dev.showFrame_spec (d : Dev) (hs : s < 16) (ws : List Word) : FrameOn acceptPart acceptRegs d (d.showFrame s ws) ∧
    (∀ k < 16, (d.showFrame s ws).reg (R.SFX_FRAME s k) = fw ws k) ∧ (d.showFrame s ws).ring = d.ring ∧
    ∀ a, a < 0x400AA400 → (d.showFrame s ws).reg a = d.reg a := by
  obtain ⟨⟨h1, h2, h3⟩, h4⟩ := forN_each (σ := Dev) 16
    (I := fun e => FrameOn acceptPart acceptRegs d e ∧ e.ring = d.ring ∧ ∀ a, a < 0x400AA400 → e.reg a = d.reg a)
    (Q := fun k e => e.reg (R.SFX_FRAME s k) = fw ws k) (f := fun k e => e.setReg (R.SFX_FRAME s k) (fw ws k))
    (fun k hk e ⟨hf, hr, ha⟩ => ⟨hf.setReg acceptPart_part _ (sfxFrame_accept hs hk), (e.setReg_ring _ _).trans hr, fun a hlt =>
      (e.reg_setReg_ne _ (by simp only [R.SFX_FRAME]; omega)).trans (ha a hlt)⟩)
    (fun k _ e _ => e.reg_setReg_self _ _)
    (fun k _ j hj e _ hq => (e.reg_setReg_ne _ (by simp only [R.SFX_FRAME]; omega)).trans hq) (s := d)
    ⟨FrameOn.refl acceptPart_part _ d, rfl, fun _ _ => rfl⟩
  exact ⟨h1, h4, h2, h3⟩

theorem Dev.zeroSlack_accept (d : Dev) (kind res : Nat) : FrameOn acceptPart acceptRegs d (d.zeroSlack kind res) :=
  (d.zeroSlack_frame kind res).widen zsPart_part acceptPart_part (fun _ _ => rfl) fun a ha => by
    rw [List.mem_singleton.1 ha]
    exact .head _

/-- A device in which a frame's source and words have been noted. -/
structure FrameKept (d e : Dev) (ws : List Word) : Prop where
  frame : FrameOn acceptPart acceptRegs d e
  src : e.srcS (fwSrc ws) = (d.srcS (fwSrc ws)).accepted (fw ws 1).toNat d.gtc (d.ofEpoch ws)
  words : ∀ k < 16, e.reg (R.SFX_FRAME (fwSrc ws) k) = fw ws k
  low : ∀ a, eventReg a = false → a ≠ R.TL_ZS_INFO → a < 0x400AA400 → e.reg a = d.reg a
  spbM : e.safe.spbM = d.safe.spbM

theorem Dev.frameKept_spec (d : Dev) (ws : List Word) (slack : Bool) : FrameKept d (d.frameKept ws slack) ws := by
  rw [Dev.frameKept]
  have h1 : FrameOn acceptPart acceptRegs d (d.setSrc (fwSrc ws) ((d.srcS (fwSrc ws)).accepted (fw ws 1).toNat d.gtc (d.ofEpoch ws))) :=
    (FrameOn.refl acceptPart_part _ d).setSrc _ _
  have s1 := d.srcS_setSrc_self (fwSrc ws) ((d.srcS (fwSrc ws)).accepted (fw ws 1).toNat d.gtc (d.ofEpoch ws))
  have r1 : ∀ a, (d.setSrc (fwSrc ws) ((d.srcS (fwSrc ws)).accepted (fw ws 1).toNat d.gtc (d.ofEpoch ws))).reg a = d.reg a := fun _ => rfl
  have b1 : (d.setSrc (fwSrc ws) ((d.srcS (fwSrc ws)).accepted (fw ws 1).toNat d.gtc (d.ofEpoch ws))).safe = d.safe := rfl
  generalize d.setSrc (fwSrc ws) ((d.srcS (fwSrc ws)).accepted (fw ws 1).toNat d.gtc (d.ofEpoch ws)) = u at h1 s1 r1 b1
  have hz := u.zeroSlack_frame 1 (fwSrc ws)
  have hza := u.zeroSlack_accept 1 (fwSrc ws)
  have h2 : FrameOn acceptPart acceptRegs u (if slack then u.zeroSlack 1 (fwSrc ws) else u) ∧
      (if slack then u.zeroSlack 1 (fwSrc ws) else u).ring = u.ring ∧ (if slack then u.zeroSlack 1 (fwSrc ws) else u).safe = u.safe ∧
      ∀ a, eventReg a = false → a ≠ R.TL_ZS_INFO → (if slack then u.zeroSlack 1 (fwSrc ws) else u).reg a = u.reg a := by
    split
    · exact ⟨hza, (congrArg Dev.ring hz.1 :), (congrArg Dev.safe hz.1 :), fun a ha hne => hz.reg zsPart_part ha fun h => hne (List.mem_singleton.1 h)⟩
    · exact ⟨FrameOn.refl acceptPart_part _ u, rfl, rfl, fun _ _ _ => rfl⟩
  generalize (if slack then u.zeroSlack 1 (fwSrc ws) else u) = v at h2
  obtain ⟨hf, hr, hb, ha⟩ := h2
  obtain ⟨gf, gw, gr, ga⟩ := v.showFrame_spec (fwSrc_lt ws) ws
  have gs : (v.showFrame (fwSrc ws) ws).safe = v.safe := forN_keeps (P := fun e : Dev => e.safe = v.safe) 16
    (fun k _ e he => (e.setReg_safe _ _).trans he) rfl
  refine ⟨(h1.trans acceptPart_part hf).trans acceptPart_part gf, (srcS_of (gr.trans hr) _).trans s1, gw, fun a h hne hlt => ?_, ?_⟩
  · exact (ga a hlt).trans ((ha a h hne).trans (r1 a))
  · rw [gs, hb, b1]

/-- A frame has been accepted. -/
structure Accepted (d e : Dev) (ws : List Word) : Prop where
  frame : FrameOn acceptPart acceptRegs d e
  src : e.srcS (fwSrc ws) = (d.srcS (fwSrc ws)).accepted (fw ws 1).toNat d.gtc (d.ofEpoch ws)
  taken : FrameTaken d e ws

theorem frameReg_not_safe {a : Nat} (h : 0x400AA400 ≤ a) (hlt : a < 0x400AA800) : a ∉ safeRegs := by
  rw [mem_safeRegs]
  simp only [R.SAFE_STAT, R.SAFE_TRIP, R.SAFE_GRANT, R.SAFE_REQ_STO, R.SAFE_REQ_SS1, R.SAFE_ACK, R.SAFE_OUT, R.SAFE_FLAG, R.PG_STAT, Pg.SAFE, R.GDA_STAT,
    R.TM_STAT, R.TM_CNT, R.GDT_PINS, pageBase]
  omega

theorem ofEpoch_true (h0 : d.epoch ≠ 0) (he : fwEpoch ws = d.epoch) : d.ofEpoch ws = true := by
  rw [Dev.ofEpoch, bne_iff_ne.2 h0, he, beq_self_eq_true]
  rfl

theorem Dev.frameAccept_new (h : d.seqNewer ws = true) : Accepted d (d.frameAccept ws) ws := by
  rw [Dev.frameAccept_eq h]
  have hk := d.frameKept_spec ws (!d.lost (fwSrc ws) && d.deadline (fwSrc ws) == some d.gtc)
  generalize d.frameKept ws (!d.lost (fwSrc ws) && d.deadline (fwSrc ws) == some d.gtc) = u at hk
  have hl : u.lost (fwSrc ws) = d.lost (fwSrc ws) := congrArg (bitOf · (fwSrc ws)) (hk.low R.SFX_LOST (by decide) (by decide) (by decide))
  have hn : u.rsNode = d.rsNode := congrArg (getF · F.RS_LOCAL_NODE) (spb_of hk.spbM _)
  dsimp only
  rw [hl]
  split
  · obtain ⟨hf, hr, hreg, hsto, hss1⟩ := u.frameReqs_taken (fwSrc_lt ws) ws
    have hsrc := (srcS_of hr (fwSrc ws)).trans hk.src
    refine ⟨hk.frame.trans acceptPart_part hf, hsrc, ?_, ?_, fun k hk16 => ?_, fun h0 he _ => ⟨?_, ?_, ?_⟩⟩
    · rw [hsrc]; rfl
    · rw [hsrc]; rfl
    · have hlt := fwSrc_lt ws
      exact (hreg _ (sfxFrame_quiet hlt hk16) (frameReg_not_safe (by simp only [R.SFX_FRAME]; omega) (by simp only [R.SFX_FRAME]; omega))
        (by simp only [R.SFX_FRAME, R.SFX_RX_REQ]; omega)).trans (hk.words k hk16)
    · rw [hsrc, SrcSt.accepted, ofEpoch_true h0 he, Bool.or_true]
    · rw [hsto, hn]
    · rw [hss1, hn]
  · next hc =>
    refine ⟨hk.frame, hk.src, ?_, ?_, hk.words, fun h0 he hno => absurd ?_ hc⟩
    · rw [hk.src]; rfl
    · rw [hk.src]; rfl
    · rw [ofEpoch_true h0 he, hno]
      rfl

/-- Whatever a frame brings, its acceptance leaves what is elsewhere. -/
theorem Dev.frameAccept_frame (d : Dev) (ws : List Word) : FrameOn acceptPart acceptRegs d (d.frameAccept ws) := by
  obtain h | h := Bool.eq_false_or_eq_true (d.seqNewer ws)
  · exact (Dev.frameAccept_new h).frame
  · rw [Dev.frameAccept_old h]
    exact FrameOn.refl acceptPart_part _ d

end
end Sys2Proof.Machine
end

section
/-! PROOFS. Copies received from a ring: the protocol's view of one, its pair, and their obligation (R393, R395 to R397, R406). -/

namespace Sys2Proof.Machine

section
variable {d e : Dev} {b : Bool} {ws : List Word}

/-! ### A copy at the protocol (R403) -/

/-- A source's record once a copy of it has been seen on a ring. -/
def SrcSt.copied (x : SrcSt) (b : Bool) (p : List (Bool × Nat × Nat)) (t : Nat) (l : List Word) : SrcSt :=
  if b then { x with props := p, seenB := t + 1, epB := l } else { x with props := p, seenA := t + 1, epA := l }

theorem SrcSt.copied_wait (x : SrcSt) (p : List (Bool × Nat × Nat)) (t : Nat) (l : List Word) :
    (x.copied b p t l).wait = x.wait ∧ (x.copied b p t l).last = x.last := by
  cases b <;> exact ⟨rfl, rfl⟩

/-- What a copy shows of its source is kept. -/
def SeenOn (b : Bool) (t : Nat) (l : List Word) (x : SrcSt) : Prop :=
  if b then x.seenB = t + 1 ∧ x.epB = l else x.seenA = t + 1 ∧ x.epA = l

theorem SrcSt.copied_seen (x : SrcSt) (p : List (Bool × Nat × Nat)) (t : Nat) (l : List Word) : SeenOn b t l (x.copied b p t l) := by
  cases b <;> exact ⟨rfl, rfl⟩

theorem SrcSt.copied_eq (x : SrcSt) (p : List (Bool × Nat × Nat)) (t : Nat) (l : List Word) :
    (if b then { ({ x with props := p } : SrcSt) with seenB := t + 1, epB := l } else { ({ x with props := p } : SrcSt) with seenA := t + 1, epA := l }) =
      x.copied b p t l := by
  cases b <;> rfl

/-- The greatest epochs seen, with a frame's added. -/
def Dev.epGreats (d : Dev) (ws : List Word) : Dev :=
  { d with ring := { d.ring with greats := (d.gtc + 1, fwEpoch ws) :: d.ring.greats.filter fun (p : Nat × Nat) => d.recent p.1 } }

/-- A greater EP_NEW taken. -/
def Dev.epGreater (d : Dev) (new : Nat) : Dev :=
  let u := (d.put R.SFX_EP F.SFX_EP_EP_NEW new).put R.SFX_STAT F.SFX_STAT_EP_PH 1
  if d.epPh ≠ 0 ∧ d.epNew < new then { u with ring := { u.ring with okP := false, okM := false, commitAt := none } } else d

/-- The proposals of a source with what a copy shows (R403). -/
def Dev.copyProps (d : Dev) (b : Bool) (ws : List Word) : List (Bool × Nat × Nat) :=
  if fwPh (fw ws 3) = 1 ∨ fwPh (fw ws 3) = 2 then
    (b, (fw ws 7).toNat / 2 ^ 16, d.gtc + 1) :: (d.recentProps (fwSrc ws)).filter fun (p : Bool × Nat × Nat) =>
      !(p.1 == b && p.2.1 == (fw ws 7).toNat / 2 ^ 16)
  else (d.srcS (fwSrc ws)).props

theorem Dev.epCopy_eq (d : Dev) (b : Bool) (ws : List Word) : ∃ p, d.epCopy b ws =
    (((d.setSrc (fwSrc ws) ((d.srcS (fwSrc ws)).copied b p d.gtc (ws.take 4 ++ [fw ws 7]))).epGreats ws).epGreater
      ((fw ws 7).toNat / 2 ^ 16)).epUpdate := by
  refine ⟨d.copyProps b ws, ?_⟩
  rw [← SrcSt.copied_eq]
  rfl

/-- A copy has been seen by the protocol. -/
structure EpCopied (d e : Dev) (b : Bool) (ws : List Word) : Prop where
  frame : FrameOn ringPart [R.SFX_EP, R.SFX_STAT] d e
  own : ∃ p, e.srcS (fwSrc ws) = (d.srcS (fwSrc ws)).copied b p d.gtc (ws.take 4 ++ [fw ws 7])
  others : SrcElse d e (fwSrc ws)
  epoch : e.epoch = d.epoch

theorem Dev.epGreater_spec (d : Dev) (new : Nat) : FrameOn ringPart [R.SFX_EP, R.SFX_STAT] d (d.epGreater new) ∧
    (d.epGreater new).ring.srcs = d.ring.srcs ∧ (d.epGreater new).epoch = d.epoch := by
  have h1 := (FrameOn.refl ringPart_part [R.SFX_EP, R.SFX_STAT] d).put (a := R.SFX_EP) ringPart_part F.SFX_EP_EP_NEW new (by decide)
  have h2 := h1.put (a := R.SFX_STAT) ringPart_part F.SFX_STAT_EP_PH 1 (by decide)
  have hr : ((d.put R.SFX_EP F.SFX_EP_EP_NEW new).put R.SFX_STAT F.SFX_STAT_EP_PH 1).ring = d.ring := (Dev.put_ring _ _ _ _).trans (d.put_ring _ _ _)
  have he : ((d.put R.SFX_EP F.SFX_EP_EP_NEW new).put R.SFX_STAT F.SFX_STAT_EP_PH 1).epoch = d.epoch :=
    (Dev.get_put_field _ _ _ _ _ _ (by decide)).trans (Dev.get_of_reg (d.reg_put_ne _ _ (by decide)) _)
  rw [Dev.epGreater]
  generalize (d.put R.SFX_EP F.SFX_EP_EP_NEW new).put R.SFX_STAT F.SFX_STAT_EP_PH 1 = u at h2 hr he
  dsimp only
  split
  · exact ⟨h2.part ringPart_part rfl fun _ => rfl, (congrArg RingSt.srcs hr :), he⟩
  · exact ⟨FrameOn.refl ringPart_part _ d, rfl, rfl⟩

theorem srcS_of_srcs (h : e.ring.srcs = d.ring.srcs) (j : Nat) : e.srcS j = d.srcS j := congrArg (fun l => spGet _ l j) h

theorem Dev.epUpdate_srcs (d : Dev) : d.epUpdate.ring.srcs = d.ring.srcs := (congrArg RingSt.srcs d.epUpdate_ring :)

theorem Dev.epCopy_spec (d : Dev) (b : Bool) (ws : List Word) : EpCopied d (d.epCopy b ws) b ws := by
  obtain ⟨p, heq⟩ := d.epCopy_eq b ws
  rw [heq]
  have h1 : FrameOn ringPart [R.SFX_EP, R.SFX_STAT] d
      ((d.setSrc (fwSrc ws) ((d.srcS (fwSrc ws)).copied b p d.gtc (ws.take 4 ++ [fw ws 7]))).epGreats ws) :=
    ((FrameOn.refl ringPart_part _ d).part ringPart_part (f := d.setSrc (fwSrc ws) ((d.srcS (fwSrc ws)).copied b p d.gtc (ws.take 4 ++ [fw ws 7])))
      rfl fun _ => rfl).part ringPart_part rfl fun _ => rfl
  have s1 := d.srcS_setSrc_self (fwSrc ws) ((d.srcS (fwSrc ws)).copied b p d.gtc (ws.take 4 ++ [fw ws 7]))
  have o1 := fun j hj => d.srcS_setSrc_ne (s := fwSrc ws) (j := j) ((d.srcS (fwSrc ws)).copied b p d.gtc (ws.take 4 ++ [fw ws 7])) hj
  have s2 := fun j => srcS_of_srcs (d := d.setSrc (fwSrc ws) ((d.srcS (fwSrc ws)).copied b p d.gtc (ws.take 4 ++ [fw ws 7])))
    (e := (d.setSrc (fwSrc ws) ((d.srcS (fwSrc ws)).copied b p d.gtc (ws.take 4 ++ [fw ws 7]))).epGreats ws) rfl j
  have e1 : ((d.setSrc (fwSrc ws) ((d.srcS (fwSrc ws)).copied b p d.gtc (ws.take 4 ++ [fw ws 7]))).epGreats ws).epoch = d.epoch := rfl
  generalize (d.setSrc (fwSrc ws) ((d.srcS (fwSrc ws)).copied b p d.gtc (ws.take 4 ++ [fw ws 7]))).epGreats ws = u at h1 s2 e1 ⊢
  obtain ⟨h3, s3, e3⟩ := u.epGreater_spec ((fw ws 7).toNat / 2 ^ 16)
  generalize u.epGreater ((fw ws 7).toNat / 2 ^ 16) = v at h3 s3 e3 ⊢
  have hs := fun j => (srcS_of_srcs (v.epUpdate_srcs.trans s3) j).trans (s2 j)
  exact ⟨(h1.trans ringPart_part h3).epUpdate (by decide) (by decide), ⟨p, (hs _).trans s1⟩, fun j hj => (hs j).trans (o1 j hj),
    (v.epUpdate_stat (by decide)).trans (e3.trans e1)⟩

/-! ### Single copies and pairs (R396) -/

/-- The registers of a received copy. -/
def copyRegs : List Nat := R.SFX_EP :: R.SFX_STAT :: R.SFX_ERR :: R.SFX_DEG :: acceptRegs

theorem FrameOn.acceptCopy (h : FrameOn acceptPart acceptRegs d e) : FrameOn acceptPart copyRegs d e :=
  h.widen acceptPart_part acceptPart_part (fun _ _ => rfl) fun _ h => .tail _ (.tail _ (.tail _ (.tail _ h)))

theorem FrameOn.ringCopy (h : FrameOn ringPart [R.SFX_EP, R.SFX_STAT] d e) : FrameOn acceptPart copyRegs d e :=
  h.widen ringPart_part acceptPart_part (fun _ _ => rfl) fun a h => by
    simp only [List.mem_cons, List.not_mem_nil, or_false] at h
    obtain rfl | rfl := h
    · exact .head _
    · exact .tail _ (.head _)

theorem FrameOn.setSrcCopy {l : List Nat} (h : FrameOn acceptPart l d e) (s : Nat) (v : SrcSt) : FrameOn acceptPart l d (e.setSrc s v) :=
  h.part acceptPart_part rfl fun _ => rfl

/-- A missing copy's ring is shown. -/
def Dev.degShown (d : Dev) (c : CopySt) : Dev :=
  if c.b then (if d.ringUsed false then (d.bump R.SFX_DEG F.SFX_DEG_DEG_A).raiseN Pg.SFX Ev.DEGRADED_A (fwSrc c.words) else d)
  else if d.ringUsed true then (d.bump R.SFX_DEG F.SFX_DEG_DEG_B).raiseN Pg.SFX Ev.DEGRADED_B (fwSrc c.words) else d

theorem Dev.singleAccept_new {c : CopySt} (h : d.seqNewer c.words = true) : d.singleAccept c = (d.degShown c).frameAccept c.words := by
  rw [Dev.singleAccept, h]
  rfl

theorem Dev.singleAccept_old {c : CopySt} (h : d.seqNewer c.words = false) : d.singleAccept c = d := by
  rw [Dev.singleAccept, h]
  exact Dev.frameAccept_old h

theorem Dev.degBump_frame (d : Dev) (f : RField) (p s a : Nat) : FrameOn noPart [R.SFX_DEG] d ((d.bump R.SFX_DEG f).raiseN p s a) :=
  ((FrameOn.refl noPart_part _ d).bump noPart_part f (List.mem_singleton_self _)).quiet noPart_part (Dev.raiseN_quiet _ _ _ _)

theorem Dev.degShown_frame (d : Dev) (c : CopySt) : FrameOn noPart [R.SFX_DEG] d (d.degShown c) :=
  FrameOn.ite (fun _ => FrameOn.ite (fun _ => d.degBump_frame _ _ _ _) fun _ => FrameOn.refl noPart_part _ d)
    fun _ => FrameOn.ite (fun _ => d.degBump_frame _ _ _ _) fun _ => FrameOn.refl noPart_part _ d

theorem FrameOn.degCopy (h : FrameOn noPart [R.SFX_DEG] d e) : FrameOn acceptPart copyRegs d e :=
  h.widen noPart_part acceptPart_part (fun _ _ => rfl) fun a h => by
    rw [List.mem_singleton.1 h]
    exact .tail _ (.tail _ (.tail _ (.head _)))

theorem Dev.singleAccept_frame (d : Dev) (c : CopySt) : FrameOn acceptPart copyRegs d (d.singleAccept c) := by
  obtain h | h := Bool.eq_false_or_eq_true (d.seqNewer c.words)
  · rw [Dev.singleAccept_new h]
    exact (d.degShown_frame c).degCopy.trans acceptPart_part ((d.degShown c).frameAccept_frame c.words).acceptCopy
  · rw [Dev.singleAccept_old h]
    exact FrameOn.refl acceptPart_part _ d

theorem Dev.mismatch_frame (d : Dev) (f : RField) (p s a : Nat) {l : List Nat} {q : Dev → Dev → Dev} (hq : Part q) (hl : R.SFX_ERR ∈ l) :
    FrameOn q l d ((d.bump R.SFX_ERR f).raiseN p s a) :=
  ((FrameOn.refl hq _ d).bump hq f hl).quiet hq (Dev.raiseN_quiet _ _ _ _)

/-- Whether a waiting copy is of a frame's number. -/
def sameSeq (ws : List Word) (c : CopySt) : Bool := fw c.words 1 == fw ws 1

/-- A copy in its place among those that wait. -/
def Dev.waits (d : Dev) (b : Bool) (ws : List Word) : Dev :=
  d.setSrc (fwSrc ws) { d.srcS (fwSrc ws) with wait := (d.srcS (fwSrc ws)).wait ++ [{ b := b, words := ws, tick := d.gtc }] }

/-- A waiting copy taken out. -/
def Dev.unwait (d : Dev) (s : Nat) (c : CopySt) : Dev := d.setSrc s { d.srcS s with wait := (d.srcS s).wait.erase c }

theorem Dev.pairCopy_none (h : (d.srcS (fwSrc ws)).wait.find? (sameSeq ws) = none) : d.pairCopy b ws = d.waits b ws := by
  have h' : (d.srcS (fwSrc ws)).wait.find? (fun (c : CopySt) => fw c.words 1 == fw ws 1) = none := h
  rw [Dev.pairCopy, h']
  rfl

/-- A copy's pair decided. -/
def Dev.pairFound (d : Dev) (b : Bool) (ws : List Word) (c : CopySt) : Dev :=
  if c.tick + pairTicks < d.gtc then (((d.unwait (fwSrc ws) c).singleAccept c).waits b ws)
  else if c.b = b then d
  else
    let d := if c.tick + pairTicks = d.gtc then (d.unwait (fwSrc ws) c).zeroSlack 1 (fwSrc ws) else d.unwait (fwSrc ws) c
    if c.words = ws then d.frameAccept ws else (d.bump R.SFX_ERR F.SFX_ERR_MM_CNT).raiseN Pg.SFX Ev.FRAME_MISMATCH (fwSrc ws)

theorem Dev.pairCopy_some {c : CopySt} (h : (d.srcS (fwSrc ws)).wait.find? (sameSeq ws) = some c) :
    d.pairCopy b ws = d.pairFound b ws c := by
  have h' : (d.srcS (fwSrc ws)).wait.find? (fun (c : CopySt) => fw c.words 1 == fw ws 1) = some c := h
  rw [Dev.pairCopy, h']
  rfl

end
end Sys2Proof.Machine
end

section
/-! PROOFS. Pairs of copies decided, and the obligation about the frames of the rings (R393, R395 to R397, R406). -/

namespace Sys2Proof.Machine

section
variable {d e f : Dev} {b : Bool} {ws : List Word} {c : CopySt}

/-! ### What an acceptance looks at -/

/-- What an acceptance looks at stands. -/
structure AcceptSame (d e : Dev) : Prop where
  gtc : e.gtc = d.gtc
  epoch : e.epoch = d.epoch
  lost : e.reg R.SFX_LOST = d.reg R.SFX_LOST
  node : e.rsNode = d.rsNode

theorem AcceptSame.refl (d : Dev) : AcceptSame d d := ⟨rfl, rfl, rfl, rfl⟩

theorem AcceptSame.trans (h : AcceptSame d e) (k : AcceptSame e f) : AcceptSame d f :=
  ⟨k.gtc.trans h.gtc, k.epoch.trans h.epoch, k.lost.trans h.lost, k.node.trans h.node⟩

theorem rsNode_of (h : e.safe = d.safe) : e.rsNode = d.rsNode := congrArg (getF · F.RS_LOCAL_NODE) (spb_of (congrArg SafeSt.spbM h) _)

theorem AcceptSame.of_frame {p : Dev → Dev → Dev} {l : List Nat} (hp : Part p) (h : FrameOn p l d e) (hl : R.SFX_STAT ∉ l ∧ R.SFX_LOST ∉ l)
    (hg : e.gtc = d.gtc) (hs : e.safe = d.safe) : AcceptSame d e :=
  ⟨hg, Dev.get_of_reg (h.reg hp (by decide) hl.1) _, h.reg hp (by decide) hl.2, rsNode_of hs⟩

theorem AcceptSame.setSrc (d : Dev) (s : Nat) (v : SrcSt) : AcceptSame d (d.setSrc s v) := ⟨rfl, rfl, rfl, rfl⟩

theorem AcceptSame.copied (h : EpCopied d e b ws) : AcceptSame d e :=
  ⟨(congrArg Dev.gtc h.frame.1 :), h.epoch, h.frame.reg ringPart_part (by decide) (by decide), rsNode_of (congrArg Dev.safe h.frame.1 :)⟩

theorem FrameTaken.of_same {d' e' : Dev} (h : FrameTaken d' e' ws) (hd : AcceptSame d d') (hr : ∀ a, e.reg a = e'.reg a)
    (hs : (e.srcS (fwSrc ws)).last = (e'.srcS (fwSrc ws)).last ∧ (e.srcS (fwSrc ws)).accAt = (e'.srcS (fwSrc ws)).accAt ∧
      (e.srcS (fwSrc ws)).inEpoch = (e'.srcS (fwSrc ws)).inEpoch) : FrameTaken d e ws := by
  obtain ⟨hlast, hacc, hw, hreq⟩ := h
  obtain ⟨s1, s2, s3⟩ := hs
  refine ⟨s1.trans hlast, ?_, fun k hk => (hr _).trans (hw k hk), fun h0 he hno => ?_⟩
  · rw [s2, hacc, hd.gtc]
  · have hno' : d'.lost (fwSrc ws) = false := (congrArg (bitOf · (fwSrc ws)) hd.lost).trans hno
    obtain ⟨r1, r2, r3⟩ := hreq (hd.epoch ▸ h0) (he.trans hd.epoch.symm) hno'
    rw [hr, s3, ← hd.node]
    exact ⟨r1, r2, r3⟩

theorem seqNewer_of (h : (e.srcS (fwSrc ws)).last = (d.srcS (fwSrc ws)).last) : e.seqNewer ws = d.seqNewer ws := by
  rw [Dev.seqNewer, Dev.seqNewer, h]

/-! ### A single copy (R396) -/

theorem Dev.unwait_src (d : Dev) (s : Nat) (c : CopySt) : (d.unwait s c).srcS s = { d.srcS s with wait := (d.srcS s).wait.erase c } :=
  d.srcS_setSrc_self s _

theorem Dev.waits_src (d : Dev) (b : Bool) (ws : List Word) : (d.waits b ws).srcS (fwSrc ws) =
    { d.srcS (fwSrc ws) with wait := (d.srcS (fwSrc ws)).wait ++ [{ b := b, words := ws, tick := d.gtc }] } := d.srcS_setSrc_self _ _

theorem Dev.degShown_same (d : Dev) (c : CopySt) : AcceptSame d (d.degShown c) ∧ (d.degShown c).ring = d.ring := by
  have h := d.degShown_frame c
  exact ⟨.of_frame noPart_part h (by decide) (congrArg Dev.gtc h.1 :) (congrArg Dev.safe h.1 :), (congrArg Dev.ring h.1 :)⟩

/-- The source's record after a copy has been accepted alone or with its pair. -/
def SrcSt.paired (x : SrcSt) (q t : Nat) (cur : Bool) (l : List CopySt) : SrcSt := { x.accepted q t cur with wait := l }

theorem Dev.singleAccept_taken (h : d.seqNewer c.words = true) :
    FrameTaken d ((d.unwait (fwSrc c.words) c).singleAccept c) c.words ∧ ∃ cur, ((d.unwait (fwSrc c.words) c).singleAccept c).srcS (fwSrc c.words) =
      (d.srcS (fwSrc c.words)).paired (fw c.words 1).toNat d.gtc cur ((d.srcS (fwSrc c.words)).wait.erase c) := by
  have s1 := d.unwait_src (fwSrc c.words) c
  have a1 : AcceptSame d (d.unwait (fwSrc c.words) c) := .setSrc d _ _
  generalize d.unwait (fwSrc c.words) c = u at s1 a1
  have hnew : u.seqNewer c.words = true := (seqNewer_of (by rw [s1])).trans h
  rw [Dev.singleAccept_new hnew]
  obtain ⟨a2, r2⟩ := u.degShown_same c
  generalize u.degShown c = v at a2 r2
  have hv : v.seqNewer c.words = true := (seqNewer_of (congrArg SrcSt.last (srcS_of r2 _))).trans hnew
  have ha := Dev.frameAccept_new hv
  refine ⟨ha.taken.of_same (a1.trans a2) (fun _ => rfl) ⟨rfl, rfl, rfl⟩, v.ofEpoch c.words, ha.src.trans ?_⟩
  rw [srcS_of r2, s1, (a1.trans a2).gtc]
  rfl

theorem Dev.degShown_counted (d : Dev) (c : CopySt) : (c.b = true → d.ringUsed false = true →
      Counted d (d.degShown c) R.SFX_DEG F.SFX_DEG_DEG_A ∧ Raised (d.degShown c) Pg.SFX Ev.DEGRADED_A) ∧
    (c.b = false → d.ringUsed true = true → Counted d (d.degShown c) R.SFX_DEG F.SFX_DEG_DEG_B ∧ Raised (d.degShown c) Pg.SFX Ev.DEGRADED_B) := by
  have hd (f : RField) (hf : f.lo + fieldWidth f ≤ 32) (src : Nat) :
      Counted d ((d.bump R.SFX_DEG f).raiseN Pg.SFX src (fwSrc c.words)) R.SFX_DEG f ∧ Raised ((d.bump R.SFX_DEG f).raiseN Pg.SFX src (fwSrc c.words)) Pg.SFX src :=
    ⟨((Dev.raiseN_quiet _ _ _ _).get (by decide) f).trans (d.bump_counted R.SFX_DEG f hf), Dev.raiseN_raised _ _ rfl⟩
  refine ⟨fun hb hu => ?_, fun hb hu => ?_⟩
  · rw [Dev.degShown, hb, if_pos rfl, if_pos hu]
    exact hd _ (by decide) _
  · rw [Dev.degShown, hb, if_neg Bool.false_ne_true, if_pos hu]
    exact hd _ (by decide) _

theorem sfxDeg_apart : eventReg R.SFX_DEG = false ∧ R.SFX_DEG ∉ acceptRegs := by decide

theorem Dev.singleAccept_deg (h : d.seqNewer c.words = true) :
    (c.b = true → d.ringUsed false = true → Counted d ((d.unwait (fwSrc c.words) c).singleAccept c) R.SFX_DEG F.SFX_DEG_DEG_A ∧
      Raised ((d.unwait (fwSrc c.words) c).singleAccept c) Pg.SFX Ev.DEGRADED_A) ∧
    (c.b = false → d.ringUsed true = true → Counted d ((d.unwait (fwSrc c.words) c).singleAccept c) R.SFX_DEG F.SFX_DEG_DEG_B ∧
      Raised ((d.unwait (fwSrc c.words) c).singleAccept c) Pg.SFX Ev.DEGRADED_B) := by
  have s1 := d.unwait_src (fwSrc c.words) c
  have r1 : ∀ a, (d.unwait (fwSrc c.words) c).reg a = d.reg a := fun _ => rfl
  have u1 : ∀ b, (d.unwait (fwSrc c.words) c).ringUsed b = d.ringUsed b := fun _ => rfl
  generalize d.unwait (fwSrc c.words) c = u at s1 r1 u1
  rw [Dev.singleAccept_new ((seqNewer_of (by rw [s1])).trans h)]
  obtain ⟨ha, hb⟩ := u.degShown_counted c
  have hf := (u.degShown c).frameAccept_frame c.words
  have hc (f : RField) : Counted u (u.degShown c) R.SFX_DEG f → Counted d ((u.degShown c).frameAccept c.words) R.SFX_DEG f := fun hx =>
    (Dev.get_of_reg (hf.reg acceptPart_part sfxDeg_apart.1 sfxDeg_apart.2) f).trans (hx.trans (by rw [Dev.get_of_reg (r1 _)]))
  have ht (src : Nat) : Raised (u.degShown c) Pg.SFX src → Raised ((u.degShown c).frameAccept c.words) Pg.SFX src :=
    hf.raised acceptPart_part (pgEvtRaw_not_accept _)
  exact ⟨fun x y => (ha x ((u1 _).trans y)).imp (hc _) (ht _), fun x y => (hb x ((u1 _).trans y)).imp (hc _) (ht _)⟩

/-! ### A pair (R396) -/

theorem Dev.zeroSlack_same (d : Dev) (k r : Nat) : AcceptSame d (d.zeroSlack k r) ∧ (d.zeroSlack k r).ring = d.ring := by
  have h := d.zeroSlack_frame k r
  exact ⟨.of_frame zsPart_part h (by decide) (congrArg Dev.gtc h.1 :) (congrArg Dev.safe h.1 :), (congrArg Dev.ring h.1 :)⟩

/-- The waiting copies once a pair is decided: a copy that comes after its pair's time waits anew. -/
def pairLeft (l : List CopySt) (b : Bool) (ws : List Word) (c : CopySt) (t : Nat) : List CopySt :=
  l.erase c ++ if c.tick + pairTicks < t then [{ b := b, words := ws, tick := t }] else []

theorem Dev.frameAccept_src (h : d.seqNewer ws = true) {u : Dev} (a : AcceptSame u d) {x : SrcSt} (hs : d.srcS (fwSrc ws) = x) :
    FrameTaken u (d.frameAccept ws) ws ∧ ∃ cur, (d.frameAccept ws).srcS (fwSrc ws) = x.accepted (fw ws 1).toNat u.gtc cur := by
  have ha := Dev.frameAccept_new h
  refine ⟨ha.taken.of_same a (fun _ => rfl) ⟨rfl, rfl, rfl⟩, d.ofEpoch ws, ?_⟩
  rw [ha.src, hs, a.gtc]

theorem Dev.pairFound_taken (hb : c.b ≠ b) (hw : c.words = ws) (h : d.seqNewer ws = true) : FrameTaken d (d.pairFound b ws c) ws ∧
    ∃ cur, (d.pairFound b ws c).srcS (fwSrc ws) = (d.srcS (fwSrc ws)).paired (fw ws 1).toNat d.gtc cur
      (pairLeft (d.srcS (fwSrc ws)).wait b ws c d.gtc) := by
  by_cases hlate : c.tick + pairTicks < d.gtc
  · rw [Dev.pairFound, pairLeft, if_pos hlate, if_pos hlate]
    subst hw
    obtain ⟨ht, cur, hs⟩ := Dev.singleAccept_taken h
    have hg : ((d.unwait (fwSrc c.words) c).singleAccept c).gtc = d.gtc := (congrArg Dev.gtc ((d.unwait (fwSrc c.words) c).singleAccept_frame c).1 :)
    generalize (d.unwait (fwSrc c.words) c).singleAccept c = u at ht hs hg
    have hx := u.waits_src b c.words
    refine ⟨ht.of_same (.refl d) (fun _ => rfl) ?_, cur, ?_⟩
    · rw [hx]
      exact ⟨rfl, rfl, rfl⟩
    · rw [hx, hs, hg]
      rfl
  · rw [Dev.pairFound, pairLeft, if_neg hlate, if_neg hlate, if_neg hb, List.append_nil]
    have s1 := d.unwait_src (fwSrc ws) c
    have a1 : AcceptSame d (d.unwait (fwSrc ws) c) := .setSrc d _ _
    generalize d.unwait (fwSrc ws) c = u at s1 a1
    have hnew : u.seqNewer ws = true := (seqNewer_of (by rw [s1])).trans h
    obtain ⟨az, rz⟩ := u.zeroSlack_same 1 (fwSrc ws)
    dsimp only
    rw [if_pos hw]
    split
    · exact Dev.frameAccept_src ((seqNewer_of (congrArg SrcSt.last (srcS_of rz _))).trans hnew) (a1.trans az) ((srcS_of rz _).trans s1)
    · exact Dev.frameAccept_src hnew a1 s1

/-- The rings' state and the timeline's zero-slack mark. -/
def mmPart (d e : Dev) : Dev := { d with ring := e.ring, sync := e.sync }

theorem mmPart_part : Part mmPart := ⟨fun _ => rfl, fun _ _ _ => rfl, fun _ _ => rfl, fun _ _ _ => rfl⟩

/-- A pair whose copies differ. -/
structure Mismatched (d e : Dev) (ws : List Word) (c : CopySt) : Prop where
  frame : FrameOn mmPart [R.SFX_ERR, R.TL_ZS_INFO] d e
  own : e.srcS (fwSrc ws) = { d.srcS (fwSrc ws) with wait := (d.srcS (fwSrc ws)).wait.erase c }
  others : SrcElse d e (fwSrc ws)
  counted : Counted d e R.SFX_ERR F.SFX_ERR_MM_CNT
  told : Raised e Pg.SFX Ev.FRAME_MISMATCH

theorem Dev.mismatch_spec {u : Dev} (hf : FrameOn mmPart [R.SFX_ERR, R.TL_ZS_INFO] d u) (he : u.reg R.SFX_ERR = d.reg R.SFX_ERR)
    (hs : ∀ j, u.srcS j = (d.unwait (fwSrc ws) c).srcS j) :
    Mismatched d ((u.bump R.SFX_ERR F.SFX_ERR_MM_CNT).raiseN Pg.SFX Ev.FRAME_MISMATCH (fwSrc ws)) ws c := by
  have hb := hf.bump mmPart_part F.SFX_ERR_MM_CNT (List.mem_cons_self (a := R.SFX_ERR))
  have hc := u.bump_counted R.SFX_ERR F.SFX_ERR_MM_CNT (by decide)
  have hr : (u.bump R.SFX_ERR F.SFX_ERR_MM_CNT).ring = u.ring := u.put_ring _ _ _
  generalize u.bump R.SFX_ERR F.SFX_ERR_MM_CNT = v at hb hc hr
  have hq := v.raiseN_quiet Pg.SFX Ev.FRAME_MISMATCH (fwSrc ws)
  have hsrc := fun j => (srcS_of (hq.ring.trans hr) j).trans (hs j)
  refine ⟨hb.quiet mmPart_part hq, (hsrc _).trans (d.unwait_src _ c), fun j hj => (hsrc j).trans (d.srcS_setSrc_ne _ hj), ?_, v.raiseN_raised _ rfl⟩
  exact (hq.get (by decide) _).trans (hc.trans (by rw [Dev.get_of_reg he]))

theorem Dev.pairFound_mismatch (hb : c.b ≠ b) (hw : c.words ≠ ws) (ht : d.gtc ≤ c.tick + pairTicks) : Mismatched d (d.pairFound b ws c) ws c := by
  rw [Dev.pairFound, if_neg (by omega), if_neg hb]
  dsimp only
  rw [if_neg hw]
  have f1 : FrameOn mmPart [R.SFX_ERR, R.TL_ZS_INFO] d (d.unwait (fwSrc ws) c) := (FrameOn.refl mmPart_part _ d).part mmPart_part rfl fun _ => rfl
  split
  · have hz := (d.unwait (fwSrc ws) c).zeroSlack_frame 1 (fwSrc ws)
    have hm : FrameOn mmPart [R.SFX_ERR, R.TL_ZS_INFO] (d.unwait (fwSrc ws) c) ((d.unwait (fwSrc ws) c).zeroSlack 1 (fwSrc ws)) :=
      hz.widen zsPart_part mmPart_part (fun _ _ => rfl) fun _ h => .tail _ h
    exact Dev.mismatch_spec (f1.trans mmPart_part hm) (hz.reg zsPart_part (by decide) (by decide))
      (srcS_of ((d.unwait (fwSrc ws) c).zeroSlack_same 1 (fwSrc ws)).2)
  · exact Dev.mismatch_spec f1 rfl fun _ => rfl

theorem Dev.pairFound_frame (d : Dev) (b : Bool) (ws : List Word) (c : CopySt) : FrameOn acceptPart copyRegs d (d.pairFound b ws c) := by
  have h1 : FrameOn acceptPart copyRegs d (d.unwait (fwSrc ws) c) := (FrameOn.refl acceptPart_part _ d).setSrcCopy _ _
  rw [Dev.pairFound]
  refine FrameOn.ite (fun _ => (h1.trans acceptPart_part (Dev.singleAccept_frame _ c)).setSrcCopy _ _) fun _ =>
    FrameOn.ite (fun _ => FrameOn.refl acceptPart_part _ d) fun _ => ?_
  have h2 : FrameOn acceptPart copyRegs d (if c.tick + pairTicks = d.gtc then (d.unwait (fwSrc ws) c).zeroSlack 1 (fwSrc ws) else d.unwait (fwSrc ws) c) :=
    FrameOn.ite (fun _ => h1.trans acceptPart_part (Dev.zeroSlack_accept _ _ _).acceptCopy) fun _ => h1
  generalize (if c.tick + pairTicks = d.gtc then (d.unwait (fwSrc ws) c).zeroSlack 1 (fwSrc ws) else d.unwait (fwSrc ws) c) = u at h2
  exact FrameOn.ite (fun _ => h2.trans acceptPart_part (u.frameAccept_frame ws).acceptCopy)
    fun _ => h2.trans acceptPart_part (u.mismatch_frame _ _ _ _ acceptPart_part (.tail _ (.tail _ (.head _))))

theorem Dev.pairCopy_frame (d : Dev) (b : Bool) (ws : List Word) : FrameOn acceptPart copyRegs d (d.pairCopy b ws) := by
  cases h : (d.srcS (fwSrc ws)).wait.find? (sameSeq ws) with
  | none =>
    rw [Dev.pairCopy_none h]
    exact (FrameOn.refl acceptPart_part _ d).setSrcCopy _ _
  | some c =>
    rw [Dev.pairCopy_some h]
    exact d.pairFound_frame b ws c

end
end Sys2Proof.Machine
end

section
/-! PROOFS. Copies received from the rings: their checks, and the obligation about them (R393, R395 to R397, R406). -/

namespace Sys2Proof.Machine

section
variable {d e u : Dev} {b : Bool} {ws : List Word}

/-! ### Code errors (R406) -/

/-- A ring's counters of copies. -/
def cntReg (b : Bool) : Nat := R.RG_CNT (ringIx b)

theorem cntReg_apart (b : Bool) : eventReg (cntReg b) = false ∧ cntReg b ∉ copyRegs ∧ cntReg b ≠ R.RG_RTT (ringIx b) ∧ cntReg b ≠ R.SFX_ERR := by
  cases b <;> decide

/-- What a copy's reception looks at stands. -/
structure CopySame (b : Bool) (d u : Dev) : Prop where
  frame : FrameOn noPart [cntReg b] d u
  crc : u.get (cntReg b) F.RG_CNT_CRC_CNT = d.get (cntReg b) F.RG_CNT_CRC_CNT
  ring : u.ring = d.ring
  look : AcceptSame d u
  inserted : u.inserted b = d.inserted b
  expects : ∀ n, u.rsExpect n = d.rsExpect n
  rcfg : u.rcfg = d.rcfg
  cycNow : u.cycNow = d.cycNow

theorem safe_rcfg (h : u.safe = d.safe) : u.rcfg = d.rcfg ∧ u.cycTicks = d.cycTicks ∧ ∀ n, u.rsExpect n = d.rsExpect n := by
  have hs := spb_of (congrArg SafeSt.spbM h)
  refine ⟨congrArg crc32cWords (List.map_congr_left fun k _ => hs _), ?_, fun n => ?_⟩
  · rw [Dev.cycTicks, Dev.cycTicks, Dev.rsRing, Dev.rsRing, hs]
  · rw [Dev.rsExpect, Dev.rsExpect, hs]

theorem Dev.codeErrs_spec (h : d.ringPresent b = true) (n : Nat) : CopySame b d (d.codeErrs b n) ∧
    (d.codeErrs b n).get (cntReg b) F.RG_CNT_CODE_CNT = min (d.get (cntReg b) F.RG_CNT_CODE_CNT + n) (2 ^ fieldWidth F.RG_CNT_CODE_CNT - 1) := by
  rw [Dev.codeErrs, if_pos h, Dev.addSat]
  have hf : FrameOn noPart [cntReg b] d
      (d.put (cntReg b) F.RG_CNT_CODE_CNT (min (d.get (cntReg b) F.RG_CNT_CODE_CNT + n) (2 ^ fieldWidth F.RG_CNT_CODE_CNT - 1))) :=
    (FrameOn.refl noPart_part _ d).put noPart_part _ _ (List.mem_singleton_self _)
  have hcode := d.get_put_self (cntReg b) F.RG_CNT_CODE_CNT (min (d.get (cntReg b) F.RG_CNT_CODE_CNT + n) (2 ^ fieldWidth F.RG_CNT_CODE_CNT - 1)) (by decide)
  have hcrc := d.get_put_field (cntReg b) (cntReg b) F.RG_CNT_CODE_CNT F.RG_CNT_CRC_CNT
    (min (d.get (cntReg b) F.RG_CNT_CODE_CNT + n) (2 ^ fieldWidth F.RG_CNT_CODE_CNT - 1)) (by decide)
  rw [Nat.mod_eq_of_lt (by have := Nat.two_pow_pos (fieldWidth F.RG_CNT_CODE_CNT); omega)] at hcode
  rw [← cntReg]
  generalize d.put (cntReg b) F.RG_CNT_CODE_CNT (min (d.get (cntReg b) F.RG_CNT_CODE_CNT + n) (2 ^ fieldWidth F.RG_CNT_CODE_CNT - 1)) = u
    at hf hcode hcrc
  have hs : u.safe = d.safe := (congrArg Dev.safe hf.1 :)
  have hg : u.gtc = d.gtc := (congrArg Dev.gtc hf.1 :)
  have hreg {a : Nat} (ha : eventReg a = false) (hne : a ≠ cntReg b) : u.reg a = d.reg a := hf.reg noPart_part ha fun h => hne (List.mem_singleton.1 h)
  obtain ⟨hcfg, htick, hexp⟩ := safe_rcfg hs
  refine ⟨⟨hf, hcrc, (congrArg Dev.ring hf.1 :), ⟨hg, Dev.get_of_reg (hreg (by decide) ?_) _, hreg (by decide) ?_, rsNode_of hs⟩,
    Dev.flag_of_reg (hreg ?_ ?_) _, hexp, hcfg, ?_⟩, hcode⟩
  · cases b <;> decide
  · cases b <;> decide
  · cases b <;> decide
  · cases b <;> decide
  · have h1 := hreg (a := R.TL_VT_OFS_HI) (by decide) (by cases b <;> decide)
    have h2 := hreg (a := R.TL_VT_OFS_LO) (by decide) (by cases b <;> decide)
    rw [Dev.cycNow, Dev.cycNow, htick, Dev.vehicleTime, Dev.vehicleTime, h1, h2, hg]

/-! ### The checks of a copy (R393, R395) -/

/-- A copy's two checks hold. -/
def copyGood (ws : List Word) : Prop := fw ws 14 = frameCrc 0x50 ws ∧ fw ws 15 = frameCrc 0x4D ws

/-- How far a copy's cycle is from the present one. -/
def Dev.copyOff (d : Dev) (ws : List Word) : Int := sext 32 (wrapN 32 ((fw ws 2).toNat - d.cycNow))

/-- A copy is counted as late, with an event that says why. -/
def Dev.lateCount (d : Dev) (ev : Nat) (ws : List Word) : Dev := (d.bump R.SFX_ERR F.SFX_ERR_LATE_CNT).raiseN Pg.SFX ev (fwSrc ws)

theorem Dev.copyReceive_out (h : d.inserted b = false) : d.copyReceive b ws = d := by rw [Dev.copyReceive, if_pos (.inr h)]

theorem Dev.copyReceive_bad (hi : d.inserted b = true) (hl : ws.length = 16) (h : ¬copyGood ws) :
    d.copyReceive b ws = (d.bump (cntReg b) F.RG_CNT_CRC_CNT).raise (ringPage b) Ev.RING_CRC_ERR := by
  rw [Dev.copyReceive, if_neg (by simp [hl, hi]), if_pos (Decidable.not_and_iff_or_not.1 h)]
  rfl

/-- A copy that passes its checks. -/
structure CopyOk (d : Dev) (b : Bool) (ws : List Word) : Prop where
  inserted : d.inserted b = true
  len : ws.length = 16
  good : copyGood ws
  tag : (fw ws 0).toNat / 2 ^ 20 = 0xC51

theorem Dev.copyReceive_own (h : CopyOk d b ws) (hn : fwSrc ws = d.rsNode) :
    d.copyReceive b ws = d.put (R.RG_RTT (ringIx b)) F.RG_RTT_RTT (min 65535 (d.gtc - d.ring.txTick)) := by
  rw [Dev.copyReceive, if_neg (by simp [h.len, h.inserted]), if_neg fun hx => hx.elim (fun hx => hx h.good.1) fun hx => hx h.good.2,
    if_neg (not_not.2 h.tag), if_pos hn]

/-- A copy of another node that is of the configuration's. -/
structure CopyPeer (d : Dev) (b : Bool) (ws : List Word) : Prop where
  ok : CopyOk d b ws
  peer : fwSrc ws ≠ d.rsNode
  expects : d.rsExpect (fwSrc ws) = true

theorem Dev.copyReceive_peer (h : CopyPeer d b ws) : d.copyReceive b ws =
    let bad := fw ws 12 != d.rcfg
    let late := decide (d.copyOff ws < -1) || decide (1 < d.copyOff ws)
    let u := if bad then d.lateCount Ev.RING_CFG_MISMATCH ws else d
    let v := if late then u.lateCount Ev.FRAME_LATE ws else u
    if bad || late then v else (v.epCopy b ws).pairCopy b ws := by
  rw [Dev.copyReceive, if_neg (by simp [h.ok.len, h.ok.inserted]), if_neg fun hx => hx.elim (fun hx => hx h.ok.good.1) fun hx => hx h.ok.good.2,
    if_neg (not_not.2 h.ok.tag), if_neg h.peer, if_neg (by simp [h.expects])]
  rfl

/-- A copy far from the present cycle. -/
def Dev.copyLate (d : Dev) (ws : List Word) : Prop := d.copyOff ws < -1 ∨ 1 < d.copyOff ws

theorem copyLate_iff : (decide (d.copyOff ws < -1) || decide (1 < d.copyOff ws)) = true ↔ d.copyLate ws := by
  rw [Bool.or_eq_true, decide_eq_true_eq, decide_eq_true_eq]
  rfl

theorem Dev.lateCount_spec (d : Dev) (ev : Nat) (ws : List Word) : FrameOn noPart [R.SFX_ERR] d (d.lateCount ev ws) ∧
    Counted d (d.lateCount ev ws) R.SFX_ERR F.SFX_ERR_LATE_CNT ∧ Raised (d.lateCount ev ws) Pg.SFX ev :=
  ⟨d.mismatch_frame _ _ _ _ noPart_part (List.mem_singleton_self _), ((Dev.raiseN_quiet _ _ _ _).get (by decide) _).trans (d.bump_counted _ _ (by decide)),
    Dev.raiseN_raised _ _ rfl⟩

/-- A copy of another configuration or far from the present cycle has been counted. -/
structure CopyLate (d e : Dev) (bad late : Prop) : Prop where
  frame : FrameOn noPart [R.SFX_ERR] d e
  cfg : bad → Raised e Pg.SFX Ev.RING_CFG_MISMATCH
  far : late → Raised e Pg.SFX Ev.FRAME_LATE
  counted : ¬(bad ∧ late) → Counted d e R.SFX_ERR F.SFX_ERR_LATE_CNT

theorem Dev.copyReceive_late (h : CopyPeer d b ws) (hl : fw ws 12 ≠ d.rcfg ∨ d.copyLate ws) :
    CopyLate d (d.copyReceive b ws) (fw ws 12 ≠ d.rcfg) (d.copyLate ws) := by
  rw [Dev.copyReceive_peer h]
  obtain ⟨f1, c1, r1⟩ := d.lateCount_spec Ev.RING_CFG_MISMATCH ws
  by_cases hb : fw ws 12 ≠ d.rcfg
  · have hb' : (fw ws 12 != d.rcfg) = true := bne_iff_ne.2 hb
    by_cases hf : d.copyLate ws
    · have hf' := copyLate_iff.2 hf
      simp only [hb', hf', Bool.or_self, if_true]
      generalize d.lateCount Ev.RING_CFG_MISMATCH ws = u at f1 c1 r1
      obtain ⟨f2, -, r2⟩ := u.lateCount_spec Ev.FRAME_LATE ws
      exact ⟨f1.trans noPart_part f2, fun _ => f2.raised noPart_part (by decide) r1, fun _ => r2, fun hn => absurd ⟨hb, hf⟩ hn⟩
    · have hf' := Bool.eq_false_iff.2 (mt copyLate_iff.1 hf)
      simp only [hb', hf', Bool.or_false, if_true, Bool.false_eq_true, if_false]
      exact ⟨f1, fun _ => r1, fun hx => absurd hx hf, fun _ => c1⟩
  · have hf := hl.resolve_left hb
    have hb' : (fw ws 12 != d.rcfg) = false := bne_eq_false_iff_eq.2 (not_not.1 hb)
    have hf' := copyLate_iff.2 hf
    simp only [hb', hf', Bool.or_true, if_true, Bool.false_eq_true, if_false]
    obtain ⟨f2, c2, r2⟩ := d.lateCount_spec Ev.FRAME_LATE ws
    exact ⟨f2, fun hx => absurd hx hb, fun _ => r2, fun _ => c2⟩

theorem Dev.copyReceive_pair (h : CopyPeer d b ws) (hc : fw ws 12 = d.rcfg) (hl : ¬d.copyLate ws) :
    d.copyReceive b ws = (d.epCopy b ws).pairCopy b ws := by
  have hb : (fw ws 12 != d.rcfg) = false := bne_eq_false_iff_eq.2 hc
  have hf := Bool.eq_false_iff.2 (mt copyLate_iff.1 hl)
  rw [Dev.copyReceive_peer h]
  simp only [hb, hf, Bool.or_self, Bool.false_eq_true, if_false]

/-- A copy that passes its checks leaves its ring's counters. -/
theorem Dev.copyReceive_count (d : Dev) (b : Bool) {ws : List Word} (hl : ws.length = 16) :
    (d.copyReceive b ws).get (cntReg b) F.RG_CNT_CODE_CNT = d.get (cntReg b) F.RG_CNT_CODE_CNT := by
  obtain ⟨ha, hn, hr, hx⟩ := cntReg_apart b
  by_cases hi : d.inserted b = true
  · by_cases hg : copyGood ws
    · by_cases ht : (fw ws 0).toNat / 2 ^ 20 = 0xC51
      · by_cases hs : fwSrc ws = d.rsNode
        · rw [Dev.copyReceive_own ⟨hi, hl, hg, ht⟩ hs]
          exact Dev.get_of_reg (Dev.reg_put_ne _ _ _ hr) _
        · by_cases he : d.rsExpect (fwSrc ws) = true
          · have hp : CopyPeer d b ws := ⟨⟨hi, hl, hg, ht⟩, hs, he⟩
            by_cases hc : fw ws 12 = d.rcfg ∧ ¬d.copyLate ws
            · rw [Dev.copyReceive_pair hp hc.1 hc.2]
              have hf := (d.epCopy_spec b ws).frame.ringCopy.trans acceptPart_part ((d.epCopy b ws).pairCopy_frame b ws)
              exact Dev.get_of_reg (hf.reg acceptPart_part ha hn) _
            · have hf := (Dev.copyReceive_late hp ((not_and_or.1 hc).imp id not_not.1)).frame
              exact Dev.get_of_reg (hf.reg noPart_part ha fun h => hx (List.mem_singleton.1 h)) _
          · rw [Dev.copyReceive, if_neg (by simp [hl, hi]), if_neg fun hx => hx.elim (fun hx => hx hg.1) fun hx => hx hg.2,
              if_neg (not_not.2 ht), if_neg hs, if_pos (Bool.eq_false_iff.2 he)]
      · rw [Dev.copyReceive, if_neg (by simp [hl, hi]), if_neg fun hx => hx.elim (fun hx => hx hg.1) fun hx => hx hg.2, if_pos ht]
    · rw [Dev.copyReceive_bad hi hl hg]
      exact ((Dev.raise_quiet _ _ _).get ha _).trans (Dev.get_put_field _ _ _ _ _ _ (by decide))
  · rw [Dev.copyReceive_out (Bool.eq_false_iff.2 hi)]

end
end Sys2Proof.Machine
end

section
/-! PROOFS. The obligation about the frames of the rings (R393, R395 to R397, R406). -/

namespace Sys2Proof.Machine

section
variable {d e u : Dev} {b : Bool} {ws : List Word} {c : CopySt}

theorem Counted.of_get {a : Nat} {f : RField} (h : Counted u e a f) (hg : u.get a f = d.get a f) : Counted d e a f := by
  rw [Counted, ← hg]
  exact h

theorem CopySame.reg (h : CopySame b d u) {a : Nat} (ha : eventReg a = false) (hne : a ≠ cntReg b) : u.reg a = d.reg a :=
  h.frame.reg noPart_part ha fun hm => hne (List.mem_singleton.1 hm)

/-- What follows the count of code errors, seen from before it. -/
theorem CopySame.frameOn {p : Dev → Dev → Dev} {l m : List Nat} (hp : Part p) (hn : ∀ d e : Dev, p (noPart d e) e = p d e) (h : CopySame b d u)
    (k : FrameOn p l u e) (hm : cntReg b ∈ m) (hl : ∀ a ∈ l, a ∈ m) : FrameOn p m d e :=
  (h.frame.widen noPart_part hp hn fun _ ha => List.mem_singleton.1 ha ▸ hm).trans hp (k.widen hp hp (fun d e => hp.again d e e) hl)

/-- A copy's conditions before its code errors are counted are those after. -/
theorem CopySame.ok (h : CopySame b d u) (k : CopyOk d b ws) : CopyOk u b ws := ⟨h.inserted.trans k.inserted, k.len, k.good, k.tag⟩

theorem CopySame.peer (h : CopySame b d u) (k : CopyPeer d b ws) : CopyPeer u b ws :=
  ⟨h.ok k.ok, fun hn => k.peer (hn.trans h.look.node), (h.expects _).trans k.expects⟩

theorem CopySame.late (h : CopySame b d u) : u.copyLate ws ↔ d.copyLate ws := by
  rw [Dev.copyLate, Dev.copyLate, Dev.copyOff, Dev.copyOff, h.cycNow]

theorem CopySame.srcS (h : CopySame b d u) (j : Nat) : u.srcS j = d.srcS j := srcS_of h.ring j

/-- A copy with a wrong check (R395). -/
theorem CopySame.bad (h : CopySame b d u) (hp : d.ringPresent b = true) (hi : d.inserted b = true) (hl : ws.length = 16) (hg : ¬copyGood ws) :
    Frame d (u.copyReceive b ws) [cntReg b] ∧ Counted d (u.copyReceive b ws) (cntReg b) F.RG_CNT_CRC_CNT ∧
      Raised (u.copyReceive b ws) (ringPage b) Ev.RING_CRC_ERR := by
  rw [Dev.copyReceive_bad (h.inserted.trans hi) hl hg]
  have hm : u.member = d.member := (congrArg Dev.member h.frame.1 :)
  have hf := h.frame.bump noPart_part F.RG_CNT_CRC_CNT (List.mem_singleton_self _)
  have hc := u.bump_counted (cntReg b) F.RG_CNT_CRC_CNT (by decide)
  have hm' : (u.bump (cntReg b) F.RG_CNT_CRC_CNT).member = d.member := (u.put_member _ _ _).trans hm
  generalize u.bump (cntReg b) F.RG_CNT_CRC_CNT = v at hf hc hm'
  have hq := v.raise_quiet (ringPage b) Ev.RING_CRC_ERR
  refine ⟨hf.quiet noPart_part hq, ?_, Dev.raise_raised _ (by rw [hm']; exact ringPage_present hp)⟩
  exact Counted.of_get ((hq.get (cntReg_apart b).1 _).trans hc) h.crc

/-- The own copy gives the round trip (R393). -/
theorem CopySame.own (h : CopySame b d u) (k : CopyOk d b ws) (hn : fwSrc ws = d.rsNode) :
    Frame d (u.copyReceive b ws) [R.RG_RTT (ringIx b), cntReg b] ∧
      (u.copyReceive b ws).get (R.RG_RTT (ringIx b)) F.RG_RTT_RTT = min 65535 (d.gtc - d.ring.txTick) := by
  rw [Dev.copyReceive_own (h.ok k) (hn.trans h.look.node.symm), h.look.gtc, h.ring]
  refine ⟨?_, ?_⟩
  · exact h.frameOn noPart_part (fun _ _ => rfl) ((FrameOn.refl noPart_part [R.RG_RTT (ringIx b)] u).put noPart_part _ _ (.head _))
      (.tail _ (.head _)) fun a ha => List.mem_singleton.1 ha ▸ .head _
  · rw [Dev.get_put_self _ _ _ _ (by decide)]
    exact Nat.mod_eq_of_lt (Nat.lt_of_le_of_lt (Nat.min_le_left _ _) (by decide))

/-- A copy of another configuration, or far from the cycle, is counted (R395). -/
theorem CopySame.counts (h : CopySame b d u) (k : CopyPeer d b ws) (hl : fw ws 12 ≠ d.rcfg ∨ d.copyLate ws) :
    Frame d (u.copyReceive b ws) [R.SFX_ERR, cntReg b] ∧
      (fw ws 12 ≠ d.rcfg → Raised (u.copyReceive b ws) Pg.SFX Ev.RING_CFG_MISMATCH) ∧
      (d.copyLate ws → Raised (u.copyReceive b ws) Pg.SFX Ev.FRAME_LATE) ∧
      (¬(fw ws 12 ≠ d.rcfg ∧ d.copyLate ws) → Counted d (u.copyReceive b ws) R.SFX_ERR F.SFX_ERR_LATE_CNT) := by
  rw [← h.rcfg, ← h.late (ws := ws)] at hl ⊢
  obtain ⟨hf, hcfg, hfar, hc⟩ := Dev.copyReceive_late (h.peer k) hl
  refine ⟨h.frameOn noPart_part (fun _ _ => rfl) hf (.tail _ (.head _)) fun a ha => List.mem_singleton.1 ha ▸ .head _, hcfg, hfar, fun hn => ?_⟩
  exact (hc hn).of_get (Dev.get_of_reg (h.reg (by decide) (cntReg_apart b).2.2.2.symm) _)

/-- The first copy waits (R396). -/
theorem CopySame.first (h : CopySame b d u) (k : CopyPeer d b ws) (hc : fw ws 12 = d.rcfg) (hl : ¬d.copyLate ws)
    (hw : (d.srcS (fwSrc ws)).wait.find? (sameSeq ws) = none) (he : u.copyReceive b ws = e) :
    Frame { d with ring := e.ring } e [R.SFX_EP, R.SFX_STAT, cntReg b] ∧ SrcElse d e (fwSrc ws) ∧
      SeenOn b d.gtc (ws.take 4 ++ [fw ws 7]) (e.srcS (fwSrc ws)) ∧
      (e.srcS (fwSrc ws)).wait = (d.srcS (fwSrc ws)).wait ++ [{ b := b, words := ws, tick := d.gtc }] ∧
      (e.srcS (fwSrc ws)).last = (d.srcS (fwSrc ws)).last := by
  rw [Dev.copyReceive_pair (h.peer k) (hc.trans h.rcfg.symm) (mt h.late.1 hl)] at he
  obtain ⟨hf, ⟨p, hown⟩, hothers, -⟩ := u.epCopy_spec b ws
  generalize u.epCopy b ws = v at hf hown hothers he
  have hg : v.gtc = d.gtc := (congrArg Dev.gtc hf.1 :).trans h.look.gtc
  obtain ⟨cw, cl⟩ := (u.srcS (fwSrc ws)).copied_wait (b := b) p u.gtc (ws.take 4 ++ [fw ws 7])
  have hseen := (u.srcS (fwSrc ws)).copied_seen (b := b) p u.gtc (ws.take 4 ++ [fw ws 7])
  rw [← hown] at cw cl hseen
  rw [h.srcS] at cw cl
  rw [Dev.pairCopy_none (by rw [cw]; exact hw)] at he
  have hx := v.waits_src b ws
  have hframe : FrameOn ringPart [R.SFX_EP, R.SFX_STAT] u (v.waits b ws) := hf.part ringPart_part rfl fun _ => rfl
  have ho : SrcElse v (v.waits b ws) (fwSrc ws) := fun j hj => v.srcS_setSrc_ne _ hj
  rw [he] at hx hframe ho
  refine ⟨h.frameOn ringPart_part (fun _ _ => rfl) hframe (.tail _ (.tail _ (.head _))) fun _ ha => by simp at ha ⊢; tauto,
    fun j hj => (ho j hj).trans ((hothers j hj).trans (h.srcS j)), ?_, ?_, ?_⟩
  · rw [hx, ← h.look.gtc]
    exact hseen
  · rw [hx, ← hg, ← cw]
  · rw [hx]
    exact cl

/-- A second copy meets the first one of the other ring (R396). -/
theorem CopySame.second (h : CopySame b d u) (k : CopyPeer d b ws) (hc : fw ws 12 = d.rcfg) (hl : ¬d.copyLate ws)
    (hw : (d.srcS (fwSrc ws)).wait.find? (sameSeq ws) = some c) (hb : c.b ≠ b) :
    (c.words = ws → d.newer ws → FrameTaken d (u.copyReceive b ws) ws ∧
      SeenOn b d.gtc (ws.take 4 ++ [fw ws 7]) ((u.copyReceive b ws).srcS (fwSrc ws)) ∧
      ((u.copyReceive b ws).srcS (fwSrc ws)).wait = pairLeft (d.srcS (fwSrc ws)).wait b ws c d.gtc) ∧
    (c.words ≠ ws → d.gtc ≤ c.tick + pairTicks →
      FrameOn mmPart [R.SFX_EP, R.SFX_STAT, R.SFX_ERR, R.TL_ZS_INFO, cntReg b] d (u.copyReceive b ws) ∧ SrcElse d (u.copyReceive b ws) (fwSrc ws) ∧
      ((u.copyReceive b ws).srcS (fwSrc ws)).wait = (d.srcS (fwSrc ws)).wait.erase c ∧
      ((u.copyReceive b ws).srcS (fwSrc ws)).last = (d.srcS (fwSrc ws)).last ∧ Counted d (u.copyReceive b ws) R.SFX_ERR F.SFX_ERR_MM_CNT ∧
      Raised (u.copyReceive b ws) Pg.SFX Ev.FRAME_MISMATCH) := by
  rw [Dev.copyReceive_pair (h.peer k) (hc.trans h.rcfg.symm) (mt h.late.1 hl)]
  have hcop := u.epCopy_spec b ws
  have hsame := h.look.trans (.copied hcop)
  obtain ⟨hf, ⟨p, hown⟩, hothers, -⟩ := hcop
  generalize u.epCopy b ws = v at hf hown hothers hsame
  obtain ⟨cw, cl⟩ := (u.srcS (fwSrc ws)).copied_wait (b := b) p u.gtc (ws.take 4 ++ [fw ws 7])
  have hseen := (u.srcS (fwSrc ws)).copied_seen (b := b) p u.gtc (ws.take 4 ++ [fw ws 7])
  rw [← hown] at cw cl hseen
  rw [h.srcS] at cw cl
  rw [Dev.pairCopy_some (by rw [cw]; exact hw)]
  refine ⟨fun hws hnew => ?_, fun hws ht => ?_⟩
  · have hn : v.seqNewer ws = true := (seqNewer_of cl).trans ((seqNewer_iff d ws).2 hnew)
    obtain ⟨ht, cur, hs⟩ := Dev.pairFound_taken hb hws hn
    refine ⟨ht.of_same hsame (fun _ => rfl) ⟨rfl, rfl, rfl⟩, ?_, ?_⟩
    · rw [hs, ← h.look.gtc]
      exact hseen
    · rw [hs, ← cw, ← hsame.gtc]
      rfl
  · obtain ⟨mf, mo, me, mc, mt⟩ := Dev.pairFound_mismatch hb hws (le_of_eq_of_le hsame.gtc ht)
    have h1 : FrameOn mmPart [R.SFX_EP, R.SFX_STAT, R.SFX_ERR, R.TL_ZS_INFO] u v :=
      hf.widen ringPart_part mmPart_part (fun _ _ => rfl) fun a ha => by simp at ha ⊢; tauto
    have h2 := h1.trans mmPart_part (mf.widen mmPart_part mmPart_part (fun _ _ => rfl) fun a ha => by simp at ha ⊢; tauto)
    refine ⟨h.frameOn mmPart_part (fun _ _ => rfl) h2 (by simp) fun a ha => by simp at ha ⊢; tauto,
      fun j hj => (me j hj).trans ((hothers j hj).trans (h.srcS j)), ?_, ?_, mc.of_get ?_, mt⟩
    · rw [mo, ← cw]
    · rw [mo, ← cl]
    · exact (Dev.get_of_reg (hf.reg ringPart_part (by decide) (by decide)) _).trans
        (Dev.get_of_reg (h.reg (by decide) (cntReg_apart b).2.2.2.symm) _)

/-- A pair's time has passed (R396). -/
theorem Dev.pairTimeout_some {n : Nat} (h : (d.srcS n).wait.find? (fun c => decide (c.tick + pairTicks ≤ d.gtc)) = some c) :
    d.pairTimeout n = (d.unwait n c).singleAccept c := by
  rw [Dev.pairTimeout, h]
  rfl

theorem Dev.unwait_old (h : d.seqNewer c.words = false) : (d.unwait (fwSrc c.words) c).singleAccept c = d.unwait (fwSrc c.words) c :=
  Dev.singleAccept_old ((seqNewer_of (by rw [d.unwait_src])).trans h)

end

/-- Settles O45. -/
theorem ringFrames : Obligations.RingFrames := by
  intro s r ws codes hup hl
  refine ⟨fun hr hp => ?_, fun hr hi hp => ?_, fun c hr hw hc => ?_⟩
  · obtain ⟨hs, hcode⟩ := Dev.codeErrs_spec hp codes
    have ho : exec (.copyReceive r ⟨ws, codes⟩) s = .next (s.withDev ((s.dev.codeErrs (r == .b) codes).copyReceive (r == .b) ws)) :=
      onDev_eq hup (Dev.clocked_runs hr _)
    refine ⟨⟨_, ho, (Dev.copyReceive_count _ _ hl).trans hcode⟩, fun hn => ⟨_, ho, ?_⟩⟩
    rw [Dev.copyReceive_out (hs.inserted.trans hn)]
    exact hs.frame
  · obtain ⟨hs, -⟩ := Dev.codeErrs_spec hp codes
    have ho : exec (.copyReceive r ⟨ws, codes⟩) s = .next (s.withDev ((s.dev.codeErrs (r == .b) codes).copyReceive (r == .b) ws)) :=
      onDev_eq hup (Dev.clocked_runs hr _)
    generalize s.dev.codeErrs (r == .b) codes = u at hs ho
    refine ⟨fun hg => ⟨_, ho, hs.bad hp hi hl hg⟩, fun hg ht => ⟨fun hn => ⟨_, ho, hs.own ⟨hi, hl, hg, ht⟩ hn⟩, fun hn hx => ?_⟩⟩
    have hk : CopyPeer s.dev (r == .b) ws := ⟨⟨hi, hl, hg, ht⟩, hn, hx⟩
    refine ⟨fun hlate => ⟨_, ho, hs.counts hk hlate⟩, fun hcfg hlate => ⟨fun hw => ⟨_, ho, hs.first hk hcfg hlate hw rfl⟩, fun c hw hb => ?_⟩⟩
    obtain ⟨h1, h2⟩ := hs.second hk hcfg hlate hw hb
    exact ⟨fun hws hnew => ⟨_, ho, h1 hws hnew⟩, fun hws ht => ⟨_, ho, h2 hws ht⟩⟩
  · subst hc
    have ho : exec (.pairTimeout (fwSrc c.words)) s = .next (s.withDev ((s.dev.unwait (fwSrc c.words) c).singleAccept c)) :=
      onDev_eq hup ((Dev.clocked_runs hr _).trans (Dev.pairTimeout_some hw))
    obtain hn | hn := Bool.eq_false_or_eq_true (s.dev.seqNewer c.words)
    · obtain ⟨ht, cur, hs⟩ := Dev.singleAccept_taken hn
      obtain ⟨ha, hb⟩ := Dev.singleAccept_deg hn
      refine ⟨_, ho, ?_, fun _ => ht, fun hno => absurd ((seqNewer_iff _ _).1 hn) hno, fun _ => ha, fun _ => hb⟩
      rw [hs]
      rfl
    · have hno : ¬s.dev.newer c.words := fun h => Bool.false_ne_true (hn.symm.trans ((seqNewer_iff _ _).2 h))
      rw [Dev.unwait_old hn] at ho
      refine ⟨_, ho, ?_, fun h => absurd h hno, fun _ => ?_, fun h => absurd h hno, fun h => absurd h hno⟩
      · rw [Dev.unwait_src]
      · exact (FrameOn.refl ringPart_part [] s.dev).part ringPart_part (f := s.dev.unwait (fwSrc c.words) c) rfl fun _ => rfl

end Sys2Proof.Machine
end

section
/-! PROOFS. What the commands of one machine leave of the readings of another: the words of a context that Garmal writes (R327, R328, R335, R344). -/

namespace Sys2Proof.Machine

/-- A context's record, its errors and the count of writes to absent units. -/
def cmdPart (d e : Dev) : Dev := { d with ctx := e.ctx, sys := { d.sys with abs := e.sys.abs } }

theorem cmdPart_part : Part cmdPart := ⟨fun _ => rfl, fun _ _ _ => rfl, fun _ _ => rfl, fun _ _ _ => rfl⟩

/-- A word of a context that the commands and the pool take. -/
def cmdWord (n : Nat) : Prop := (36 ≤ n ∧ n < 40) ∨ (52 ≤ n ∧ n < 112)

section
variable {d e f : Dev} {c n : Nat}

/-! ### A word of a context written by the bus -/

theorem Dev.ctxPlain_frame (d : Dev) (hc : c < 192) (hn : n < 112) (mid : Nat) (w : Word) :
    FrameOn cmdPart (writeRegs (ctxA c n)) d (d.plainWrite mid (ctxA c n) w) :=
  (d.plainWrite_frame (inBlock_ctx hc hn).1 (fun _ h => h) mid w).widen absPart_part cmdPart_part (fun _ _ => rfl) fun _ h => h

theorem FrameOn.cmdMend {l : List Nat} (h : FrameOn cmdPart l d e) (n : Nat) : FrameOn cmdPart l d (e.ctxMend c n) :=
  FrameOn.ite (fun _ => h.part cmdPart_part rfl fun _ => rfl) fun _ => h

theorem Dev.cmdWrite_frame (d : Dev) (hlive : d.replaying = false) (hc : c < 192) (hn : cmdWord n) (mid : Nat) (w : Word) :
    FrameOn cmdPart (writeRegs (ctxA c n)) d (d.pWrite mid (ctxA c n) w) := by
  unfold cmdWord at hn
  have hn112 : n < 112 := by omega
  obtain ⟨hb, hpage, hoff⟩ := inBlock_ctx hc hn112
  have hctx : 8 * (c / 8) + (0x40 + 0x1C0 * (c % 8) + 4 * n - 0x40) / 0x1C0 = c := by omega
  have hword : (0x40 + 0x1C0 * (c % 8) + 4 * n - 0x40) % 0x1C0 / 4 = n := by omega
  have h0 := FrameOn.refl cmdPart_part (writeRegs (ctxA c n)) d
  have habs : ∀ mid page, FrameOn cmdPart (writeRegs (ctxA c n)) d (d.absentWrite mid page) := fun mid page =>
    ((FrameOn.refl absPart_part (writeRegs (ctxA c n)) d).absCount (by simp [writeRegs]) mid page).widen absPart_part cmdPart_part
      (fun _ _ => rfl) fun _ h => h
  refine Dev.pWrite_keeps hlive hb habs ?_ fun _ _ hq hu => hu.quiet cmdPart_part hq
  have hroute : d.routeWrite mid .ctxB (c / 8) (offOf (ctxA c n)) (ctxA c n) w = d.ctxPageWrite mid (c / 8) (offOf (ctxA c n)) (ctxA c n) w := rfl
  rw [hroute, hoff, Dev.ctxPageWrite, hctx, hword]
  have hmend : FrameOn cmdPart (writeRegs (ctxA c n)) d
      (if 0x40 + 0x1C0 * (c % 8) + 4 * n < 0xE40 ∧ d.ctxTaken mid c n (ctxA c n) = true then d.ctxMend c n else d) :=
    FrameOn.ite (fun _ => h0.cmdMend n) fun _ => h0
  rw [if_neg (show ¬0xE40 ≤ 0x40 + 0x1C0 * (c % 8) + 4 * n by omega)]
  generalize (if 0x40 + 0x1C0 * (c % 8) + 4 * n < 0xE40 ∧ d.ctxTaken mid c n (ctxA c n) = true then d.ctxMend c n else d) = u at hmend ⊢
  have hplain : ∀ w', FrameOn cmdPart (writeRegs (ctxA c n)) d (u.plainWrite mid (ctxA c n) w') := fun w' =>
    hmend.trans cmdPart_part (u.ctxPlain_frame hc hn112 mid w')
  obtain hcmd | hpool := hn
  · rw [if_neg (by omega), if_neg (by omega), if_neg (by omega), if_pos hcmd]
    exact FrameOn.ite (fun _ => hplain _) fun _ => hplain _
  · have ha : R.CTX_POOL c (n - 52) = ctxA c n := by simp only [R.CTX_POOL, ctxA, R.CTX_CTRL]; omega
    rw [if_neg (by omega), if_neg (by omega), if_neg (by omega), if_neg (by omega), if_pos hpool.1, Dev.ctxPoolWrite, ha]
    refine FrameOn.ite (fun _ => hmend.putB cmdPart_part _ _ ?_) fun _ => hplain _
    simp [writeRegs, hpage]

/-! ### Devices that the evaluations read alike -/

/-- Two devices that the evaluations of the machines read alike, but for the machines' own records. -/
structure ReadsAlike (d e : Dev) : Prop where
  member : e.member = d.member
  gtc : e.gtc = d.gtc
  trk : e.trk = d.trk
  low : e.sys.vddioLow = d.sys.vddioLow
  asc : ∀ g, (e.grpS g).asc = (d.grpS g).asc
  reg : ∀ a, evalReg a → e.reg a = d.reg a
  keep : d.safe.keep = 0 → e.safe.keep = 0

theorem ReadsAlike.refl (d : Dev) : ReadsAlike d d := ⟨rfl, rfl, rfl, rfl, fun _ => rfl, fun _ _ => rfl, id⟩

theorem ReadsAlike.trans (h : ReadsAlike d e) (k : ReadsAlike e f) : ReadsAlike d f :=
  ⟨k.member.trans h.member, k.gtc.trans h.gtc, k.trk.trans h.trk, k.low.trans h.low, fun g => (k.asc g).trans (h.asc g),
    fun a ha => (k.reg a ha).trans (h.reg a ha), fun hk => k.keep (h.keep hk)⟩

theorem ReadsAlike.live (h : ReadsAlike d e) : e.replaying = d.replaying := Dev.flag_of_reg (h.reg _ evalReg_rplStat) _

theorem ReadsAlike.for (h : ReadsAlike d e) {m : Nat} (hs : e.machS m = d.machS m) : EvalAlike m d e :=
  ⟨.of_eq hs, h.member, h.gtc, h.trk, h.low, h.asc, h.reg⟩

theorem ReadsAlike.of_quiet (h : Quiet d e) : ReadsAlike d e :=
  ⟨(congrArg Dev.member h.1 :), h.gtc, (congrArg Dev.trk h.1 :), (congrArg (fun u : Dev => u.sys.vddioLow) h.1 :),
    fun g => congrArg GrpSt.asc (h.grpS g), fun _ ha => h.2.1 _ ha.1, fun hk => (congrArg SafeSt.keep h.safe).trans hk⟩

theorem ReadsAlike.setReg (d : Dev) {a : Nat} (w : Word) (ha : ¬evalReg a) : ReadsAlike d (d.setReg a w) :=
  ⟨rfl, rfl, rfl, rfl, fun _ => rfl, fun _ hb => d.reg_setReg_ne w fun he => ha (he ▸ hb), id⟩

theorem ReadsAlike.setMach (d : Dev) (m : Nat) (v : MachSt) : ReadsAlike d (d.setMach m v) :=
  ⟨rfl, rfl, rfl, rfl, fun _ => rfl, fun _ _ => rfl, id⟩

theorem ReadsAlike.gates (h : ReadsAlike d e) : GatesKept d e :=
  .of_regs (fun g hg => h.reg _ (evalReg_gd (by simp only [R.GDT_PINS]; omega) (by simp only [R.GDT_PINS]; omega)))
    (h.reg _ (evalReg_lone (.inr (.inr rfl))))

theorem cmdReg_page (c : Nat) (hc : c < 192) : cmdReg (R.PG_STAT (Pg.CTX (c / 8))) := by
  unfold cmdReg
  simp only [R.PG_STAT, pageBase, Pg.CTX]
  omega

theorem cmdReg_word (hc : c < 192) (hn : cmdWord n) : cmdReg (ctxA c n) := by
  unfold cmdWord at hn
  have hlt : n < 112 := by omega
  have hw := ctxA_word (c := c) hlt
  have hlo := (ctxA_offset (c := c) hlt).2
  have hhi : ctxA c n < 0x40120000 := by simp only [ctxA, R.CTX_CTRL]; omega
  unfold cmdReg
  omega

theorem ReadsAlike.cmdWrite (d : Dev) (hlive : d.replaying = false) (hc : c < 192) (hn : cmdWord n) (mid : Nat) (w : Word) :
    ReadsAlike d (d.pWrite mid (ctxA c n) w) := by
  have h := d.cmdWrite_frame hlive hc hn mid w
  have hpage := (inBlock_ctx (c := c) (n := n) hc (by unfold cmdWord at hn; omega)).2.1
  refine ⟨(congrArg Dev.member h.1 :), (congrArg Dev.gtc h.1 :), (congrArg Dev.trk h.1 :), (congrArg (fun u : Dev => u.sys.vddioLow) h.1 :),
    fun g => congrArg (fun l => (spGet _ l g : GrpSt).asc) (congrArg Dev.grp h.1 :), fun a ha => h.reg cmdPart_part ha.1 fun hm => ?_,
    fun hk => (congrArg SafeSt.keep (congrArg Dev.safe h.1 :)).trans hk⟩
  obtain ⟨-, -, habs, -, -, -, hno⟩ := ha
  simp only [writeRegs, List.mem_cons, List.not_mem_nil, or_false, hpage] at hm
  obtain rfl | rfl | rfl := hm
  · exact hno (cmdReg_word hc hn)
  · exact hno (cmdReg_page c hc)
  · exact habs rfl

theorem ReadsAlike.mCmd (h : ReadsAlike d e) (hlive : d.replaying = false) (c : Nat) {k : Nat} (hk : k < 4) (x : Frac) :
    ReadsAlike d (e.mCmd c k x) := by
  have ha : R.CTX_CMD c k = ctxA c (36 + k) := by simp only [R.CTX_CMD, ctxA, R.CTX_CTRL]; omega
  rw [Dev.mCmd, ha]
  split
  · next hp => exact h.trans (.cmdWrite e (h.live.trans hlive) (ctx_lt hp) (.inl (by omega)) _ _)
  · exact h

theorem ReadsAlike.poolPut (h : ReadsAlike d e) (hlive : d.replaying = false) (c k n : Nat) (w : Word) : ReadsAlike d (e.poolPut c k n w) := by
  rw [Dev.poolPut]
  generalize recPool (e.ctxWords c) k + n = i
  have ha : R.CTX_POOL c i = ctxA c (52 + i) := by simp only [R.CTX_POOL, ctxA, R.CTX_CTRL]; omega
  split
  · next hp =>
    rw [Bool.and_eq_true, decide_eq_true_eq] at hp
    rw [ha]
    exact h.trans (.cmdWrite e (h.live.trans hlive) (ctx_lt hp.1) (.inr (by omega)) _ _)
  · exact h

theorem ReadsAlike.foldl {α : Type} {l : List α} {g : Dev → α → Dev} (hg : ∀ x ∈ l, ∀ u, ReadsAlike d u → ReadsAlike d (g u x)) (h : ReadsAlike d e) :
    ReadsAlike d (l.foldl g e) := foldl_keeps (P := ReadsAlike d) hg h

theorem ReadsAlike.rampSet (h : ReadsAlike d e) (hlive : d.replaying = false) (m : Nat) : ReadsAlike d (e.rampSet m) := by
  rw [Dev.rampSet]
  split
  · exact h
  · exact ReadsAlike.foldl (fun k _ u hu => hu.poolPut hlive _ k 3 _) (h.trans (.setMach e m _))

theorem ReadsAlike.rampClear (h : ReadsAlike d e) (hlive : d.replaying = false) (m : Nat) : ReadsAlike d (e.rampClear m) := by
  rw [Dev.rampClear]
  split
  · exact h
  · exact ReadsAlike.foldl (fun x _ u hu => hu.poolPut hlive _ x.1 3 x.2) (h.trans (.setMach e m _))

theorem ReadsAlike.runMode (h : ReadsAlike d e) (hlive : d.replaying = false) (m : Nat) : ReadsAlike d (e.runMode m) := by
  have hmode : ∀ (c mode : Nat) (x : Frac), ReadsAlike d (if mode = 1 ∨ mode = 2 then ((e.mCmd c 2 x).mCmd c 3 (frN mode)).rampSet m
      else ((e.mCmd c 2 x).mCmd c 3 (frN mode)).rampClear m) := fun c mode x => by
    have h1 := (h.mCmd hlive c (k := 2) (by decide) x).mCmd hlive c (k := 3) (by decide) (frN mode)
    split
    · exact h1.rampSet hlive m
    · exact h1.rampClear hlive m
  exact hmode _ _ _

theorem ReadsAlike.stopDemand (h : ReadsAlike d e) (hlive : d.replaying = false) (m : Nat) : ReadsAlike d (e.stopDemand m) := by
  have ha : R.CTX_CMD (e.mDemCtx m) 0 = ctxA (e.mDemCtx m) 36 := by simp only [R.CTX_CMD, ctxA, R.CTX_CTRL]; omega
  have hone : ∀ w, ReadsAlike d (if (!e.ctxPresent (e.mDemCtx m) || e.reg (R.CTX_CMD (e.mDemCtx m) 0) == w) = true then e
      else e.pWrite Mid.S0 (R.CTX_CMD (e.mDemCtx m) 0) w) := fun w => by
    split
    · exact h
    · next hp =>
      rw [Bool.not_eq_true, Bool.or_eq_false_iff, Bool.not_eq_false'] at hp
      rw [ha]
      exact h.trans (.cmdWrite e (h.live.trans hlive) (ctx_lt hp.1) (.inl (by decide)) _ _)
  exact hone _

/-- A transition while nothing continues in SAFE_HOLD. -/
theorem ReadsAlike.machGo (h : ReadsAlike d e) (hk : d.safe.keep = 0) (m new cause : Nat) : ReadsAlike d (e.machGo m new cause) := by
  have h1 : ReadsAlike d ((e.setMach m (e.goneTo m new cause)).emitProt (e.goRec m new cause)) :=
    (h.trans (.setMach e m _)).trans (.of_quiet (Dev.emitProt_quiet _ _))
  have hk1 : ((e.setMach m (e.goneTo m new cause)).emitProt (e.goRec m new cause)).safe.keep = 0 :=
    (congrArg SafeSt.keep (Dev.emitProt_quiet _ (e.goRec m new cause)).safe).trans (h.keep hk)
  rw [Dev.machGo_eq]
  generalize (e.setMach m (e.goneTo m new cause)).emitProt (e.goRec m new cause) = u at h1 hk1
  have hno : u.keepEnds m = u := by rw [Dev.keepEnds, hk1, Nat.zero_div, if_neg (by decide)]
  rw [hno]
  exact (h1.trans (.setReg u _ fun ha => ha.2.1 rfl)).trans (.of_quiet (Dev.raiseN_quiet _ _ _ _))

/-! ### Whether a command loses (R335) -/

theorem all_congr_mem {α : Type} {l : List α} {p q : α → Bool} (h : ∀ a ∈ l, p a = q a) : l.all p = l.all q := by
  rw [Bool.eq_iff_iff, List.all_eq_true, List.all_eq_true]
  exact forall₂_congr fun a ha => by rw [h a ha]

theorem EvalAlike.cmdLoses {m : Nat} (h : EvalAlike m d e) (hm : m < 20) (hs : e.machS m = d.machS m) : e.cmdLoses m = d.cmdLoses m := by
  have hdef : e.mDefined m = d.mDefined m := by rw [Dev.mDefined, Dev.mDefined, h.kept.defd]
  have hlate : e.startLate m = d.startLate m := by rw [Dev.startLate, Dev.startLate, hs, h.md, h.gtc, hdef, h.mState]
  have harm : e.armLate m = d.armLate m := by rw [Dev.armLate, Dev.armLate, hs, h.md, h.gtc, hdef]
  have hhigh : e.armHigh m = d.armHigh m := by
    rw [Dev.armHigh, Dev.armHigh, h.groups]
    refine all_congr_mem fun g hg => ?_
    have hg20 := mGroups_lt hm g hg
    have hd : e.drdy g = d.drdy g := Dev.flag_of_reg (h.reg _ (evalReg_gd (by simp only [R.GDT_PINS]; omega) (by simp only [R.GDT_PINS]; omega))) _
    rw [(h.pins hg20).1, (h.pins hg20).2, hd]
  rw [Dev.cmdLoses, Dev.cmdLoses, h.reactCode hm hs, Dev.expired, Dev.expired, hlate, harm, hhigh, h.lockSeen hs, hs, h.gtc]

end
end Sys2Proof.Machine
end

section
/-! PROOFS. Garmal's poll of the rings: the stops that a loss has named, and the clamps of OVERCAST (R399, R402, R335). -/

namespace Sys2Proof.Machine

section
variable {d e f : Dev} {m j : Nat}

/-! ### What another machine's stop leaves -/

/-- The pairing and the enables stand. -/
structure StopKept (d e : Dev) : Prop where
  pair : e.reg R.PWG_PAIR = d.reg R.PWG_PAIR
  gates : GatesKept d e

theorem StopKept.refl (d : Dev) : StopKept d d := ⟨rfl, .refl d⟩

theorem StopKept.trans (h : StopKept d e) (k : StopKept e f) : StopKept d f := ⟨k.pair.trans h.pair, h.gates.trans k.gates⟩

theorem StopKept.of_reads (h : ReadsAlike d e) : StopKept d e := ⟨h.reg _ (evalReg_below (by decide) (by decide)), h.gates⟩

theorem StopKept.ite {c : Prop} [Decidable c] (h : c → StopKept d e) (g : ¬c → StopKept d f) : StopKept d (if c then e else f) := by
  split
  · next hc => exact h hc
  · next hc => exact g hc

theorem StopKept.host {l : List Nat} (h : FrameOn hostPart l d e) (hl : offGates l) (hp : R.PWG_PAIR ∉ l) : StopKept d e :=
  ⟨h.reg hostPart_part (by decide) hp, .of_frame hostPart_part h hl⟩

theorem pair_not_force (hj : j < 20) : R.PWG_PAIR ∉ mForceRegs d j := fun h => by
  obtain ⟨g, hg, h⟩ := List.mem_flatMap.1 h
  have := mGroups_lt hj g hg
  simp only [forceRegs, List.mem_append, List.mem_map, List.mem_range, List.mem_cons, List.not_mem_nil, or_false, R.PWT_LEG, R.PG_STAT, pageBase, Pg.PWT,
    R.SYS_ABSENT_CNT, R.PWG_PAIR] at h
  omega

theorem pair_not_ctx {c : Nat} (hc : c < 256) : R.PWG_PAIR ∉ ctxRegs c := fun h => by
  simp only [ctxRegs, List.mem_append, List.mem_map, List.mem_range, List.mem_cons, List.not_mem_nil, or_false, ctxA, R.CTX_CTRL, R.LEC_FLAG, R.PG_STAT,
    pageBase, Pg.CTX, R.SYS_ABSENT_CNT, R.PWG_PAIR] at h
  omega

theorem StopKept.mCtxOff (d : Dev) (hlive : d.replaying = false) (hm : m < 20) : StopKept d (d.mCtxOff m) := by
  have h1 := (MachRun.refl m d).mCtx hm hlive (mUses_main (d := d)) false
  exact (StopKept.host (d.mCtx_on hlive _ false) (offGates_ctx (mMain_lt d m)) (pair_not_ctx (mMain_lt d m))).trans
    (.host (Dev.mCtx_on _ ((h1.live hm).trans hlive) _ false) (offGates_ctx (mCatch_lt _ m)) (pair_not_ctx (mCatch_lt _ m)))

theorem StopKept.machGo (d : Dev) (hm : m < 20) (new cause : Nat) : StopKept d (d.machGo m new cause) := by
  refine ⟨?_, .machGo d hm new cause⟩
  have hemit := Dev.emitProt_quiet (d.setMach m (d.goneTo m new cause)) (d.goRec m new cause)
  rw [Dev.machGo_eq, (Dev.raiseN_quiet _ _ _ _).reg (by decide), Dev.orReg, Dev.reg_setReg_ne _ _ (by decide),
    (Dev.keepEnds_frame _ m).reg gatePart_part (by decide) (by decide), hemit.reg (by decide)]
  rfl

/-- A machine's stop, as far as it is one. -/
theorem Dev.machStop_eq (d : Dev) (m cause : Nat) : d.machStop m cause = d ∨ (d.mDefined m = true ∧
    d.machStop m cause = ((if (d.machS m).rev then d.runMode m else d).machGo m MS.STOP cause).stopDemand m) := by
  rw [Dev.machStop]
  split
  · next h =>
    rw [Bool.and_eq_true, Bool.and_eq_true] at h
    exact .inr ⟨h.1.1, rfl⟩
  · exact .inl rfl

section
variable (hlive : d.replaying = false)
include hlive

theorem ReadsAlike.revRun (c : Bool) (m : Nat) : ReadsAlike d (if c then d.runMode m else d) := by
  split
  · exact (ReadsAlike.refl d).runMode hlive m
  · exact .refl d

theorem MachRun.revRun (hm : m < 20) (c : Bool) : MachRun m d (if c then d.runMode m else d) := by
  split
  · exact (MachRun.refl m d).runMode hm hlive
  · exact .refl m d

theorem MachRun.machStop (hm : m < 20) (cause : Nat) : MachRun m d (d.machStop m cause) := by
  obtain h | ⟨-, h⟩ := d.machStop_eq m cause
  · rw [h]
    exact .refl m d
  · rw [h]
    exact ((MachRun.revRun hlive hm _).machGo hm _ _).stopDemand hm hlive

theorem StopKept.machStop (hm : m < 20) (cause : Nat) : StopKept d (d.machStop m cause) := by
  obtain h | ⟨-, h⟩ := d.machStop_eq m cause
  · rw [h]
    exact .refl d
  · rw [h]
    have h1 := ReadsAlike.revRun hlive (d.machS m).rev m
    have hrun := (MachRun.revRun hlive hm (d.machS m).rev).machGo hm MS.STOP cause
    have hgo := (StopKept.of_reads h1).trans (.machGo _ hm MS.STOP cause)
    exact hgo.trans (.of_reads ((ReadsAlike.refl _).stopDemand ((hrun.live hm).trans hlive) m))

/-- While nothing continues in SAFE_HOLD, the evaluations read the other machines alike. -/
theorem ReadsAlike.machStop (hk : d.safe.keep = 0) (cause : Nat) : ReadsAlike d (d.machStop m cause) := by
  obtain h | ⟨-, h⟩ := d.machStop_eq m cause
  · rw [h]
    exact .refl d
  · rw [h]
    have hrev := ReadsAlike.revRun hlive (d.machS m).rev m
    exact (hrev.machGo hk m MS.STOP cause).stopDemand hlive m

end

/-! ### The clamps of OVERCAST (R402) -/

/-- A machine's clamps set, before what it enters. -/
def Dev.ovcClamped (d : Dev) (m t0 : Nat) : Dev :=
  let st := d.mState m
  let u := if st == MS.ALIGN || st == MS.START || (d.machS m).rev then d.runMode m else d
  let ovc := spGet 0 u.safe.spbP ((0xC14 + 4 * m) / 4)
  let tmax := u.md m 9 F.MD_HI
  let v := u.mCmd (u.mMain m) 2 (if tmax = 0 then fone else (frN (ovc.toNat / 2 ^ 16) tmax).min fone)
  let c := v.mDemCtx m
  let lim := frN (ovc.toNat % 2 ^ 16) (4 * max 1 (v.mPp m))
  let dem := if c = v.mSpd m then fclamp (bfVal (mantW (v.reg (R.CTX_CMD c 0))) (v.cmdExp c 0)) lim.neg lim else fzero
  v.setMach m { v.machS m with ovcDem := some ((mantOf dem (v.cmdExp c 0)).1, t0) }

/-- What a machine enters with its clamps. -/
def Dev.ovcEnter (d : Dev) (m st : Nat) : Dev :=
  if st = MS.CATCH ∨ (d.mGroups m).any (fun g => !d.genP g) = true then d.toSto m 8
  else (if st = MS.STOP then d else d.machGo m MS.STOP 8).stopDemand m

theorem Dev.machOvercast_eq (d : Dev) (m t0 : Nat) : d.machOvercast m t0 =
    if !d.mDefined m || !(drives (d.mState m) || d.mState m == MS.CATCH) then d else (d.ovcClamped m t0).ovcEnter m (d.mState m) := rfl

section
variable (hlive : d.replaying = false) (hm : m < 20)
include hlive

/-- The clamps themselves: the machine's record but for what it ramps and demands, and what the evaluations read, stand. -/
theorem Dev.ovcClamped_reads (t0 : Nat) : ReadsAlike d (d.ovcClamped m t0) := by
  rw [Dev.ovcClamped]
  have h1 := ReadsAlike.revRun hlive (d.mState m == MS.ALIGN || d.mState m == MS.START || (d.machS m).rev) m
  generalize (if d.mState m == MS.ALIGN || d.mState m == MS.START || (d.machS m).rev then d.runMode m else d) = u at h1
  exact (h1.mCmd hlive _ (k := 2) (by decide) _).trans (.setMach _ m _)

include hm in
theorem Dev.ovcClamped_run (t0 : Nat) : MachRun m d (d.ovcClamped m t0) ∧ (d.ovcClamped m t0).mState m = d.mState m ∧
    ∀ f, (d.ovcClamped m t0).mStat m f = d.mStat m f := by
  rw [Dev.ovcClamped]
  have h1 : MachPrep m d (if d.mState m == MS.ALIGN || d.mState m == MS.START || (d.machS m).rev then d.runMode m else d) :=
    .ite (fun _ => Dev.mMode_prep hm hlive _ _) fun _ => .refl m d
  generalize (if d.mState m == MS.ALIGN || d.mState m == MS.START || (d.machS m).rev then d.runMode m else d) = u at h1
  have h2 := h1.mCmd hm hlive h1.usesMain (k := 2) (by decide)
    (if u.md m 9 F.MD_HI = 0 then fone else (frN ((spGet 0 u.safe.spbP ((0xC14 + 4 * m) / 4)).toNat / 2 ^ 16) (u.md m 9 F.MD_HI)).min fone)
  generalize u.mCmd (u.mMain m) 2
    (if u.md m 9 F.MD_HI = 0 then fone else (frN ((spGet 0 u.safe.spbP ((0xC14 + 4 * m) / 4)).toNat / 2 ^ 16) (u.md m 9 F.MD_HI)).min fone) = v at h2
  refine ⟨h2.run.trans (.setMach v _ rfl rfl rfl), ?_, fun f => ?_⟩
  · rw [Dev.mState, Dev.machS_setMach_self]
    exact h2.mState
  · rw [Dev.mStat, Dev.machS_setMach_self]
    exact h2.mStat f

theorem StopKept.toSto (hj : j < 20) (cause : Nat) : (d.toSto j cause).reg R.PWG_PAIR = d.reg R.PWG_PAIR ∧
    ∀ g < 20, g ∉ d.mGroups j → (d.toSto j cause).genP g = d.genP g := by
  have hdrop : FrameOn hostPart ((d.mGroups j).flatMap enableRegs) d (d.mDrop j) :=
    d.mDrop_frame fun g hg a ha => List.mem_flatMap.2 ⟨g, hg, ha⟩
  have hlive1 : (d.mDrop j).replaying = false := (((MachRun.refl j d).mDrop hj).live hj).trans hlive
  have hgen : ∀ g < 20, g ∉ d.mGroups j → (d.mDrop j).genP g = d.genP g := fun g _ hg =>
    foldl_keeps (P := fun u : Dev => u.genP g = d.genP g) (fun k hk u hu =>
      (u.genP_setGenP_ne (mGroups_lt hj k hk) (h := g) (fun he => hg (he.symm ▸ hk)) false).trans hu) rfl
  have hpair1 : (d.mDrop j).reg R.PWG_PAIR = d.reg R.PWG_PAIR := hdrop.reg hostPart_part (by decide) fun hx => by
    obtain ⟨g, hg, hx⟩ := List.mem_flatMap.1 hx
    have := mGroups_lt hj g hg
    simp only [enableRegs, List.mem_cons, List.not_mem_nil, or_false, R.PWG_PAIR, R.GDT_PINS, R.GDA_STAT] at hx
    omega
  have hforce := (Dev.mForce_on (d.mDrop j) hlive1 hj 1 true)
  have hlive2 : ((d.mDrop j).mForce j 1 true).replaying = false := (hforce.hostLive (mForceRegs_live hj)).trans hlive1
  have h2 : StopKept (d.mDrop j) ((d.mDrop j).mForce j 1 true) := .host hforce (offGates_force hj) (pair_not_force hj)
  have h3 := ((h2.trans (.mCtxOff _ hlive2 hj)).trans (.machGo _ hj MS.STO cause)).trans
    (f := d.toSto j cause) ⟨Dev.reg_setReg_ne _ _ (by decide), .disP _⟩
  exact ⟨h3.pair.trans hpair1, fun g hg hn => (h3.gates.genP g hg).trans (hgen g hg hn)⟩

end
end
end Sys2Proof.Machine
end

section
/-! PROOFS. Garmal's poll of the rings, machine by machine (R399, R402, R335). -/

namespace Sys2Proof.Machine

section
variable {d e f : Dev} {m j : Nat}

/-- Every one of a range has its turn: what comes before it and after it is the turns of the others. -/
theorem forN_own {σ : Type} {I : σ → Prop} {R : σ → σ → Prop} {g : Nat → σ → σ} (hrefl : ∀ s, R s s) (htrans : ∀ {s t u}, R s t → R t u → R s u)
    {n : Nat} (hI : ∀ k < n, ∀ s, I s → I (g k s)) (hR : ∀ k < n, k ≠ m → ∀ s, I s → R s (g k s)) (hm : m < n) {s : σ} (hs : I s) :
    I (forN n g s) ∧ ∃ u, I u ∧ R s u ∧ R (g m u) (forN n g s) := by
  have main : ∀ k ≤ n, I (forN k g s) ∧ (k ≤ m → R s (forN k g s)) ∧ (m < k → ∃ u, I u ∧ R s u ∧ R (g m u) (forN k g s)) := by
    intro k
    induction k with
    | zero => exact fun _ => ⟨hs, fun _ => hrefl s, fun h => absurd h (Nat.not_lt_zero m)⟩
    | succ k ih =>
      intro hk
      obtain ⟨hi, hbefore, hafter⟩ := ih (by omega)
      rw [forN_succ]
      refine ⟨hI k (by omega) _ hi, fun h => htrans (hbefore (by omega)) (hR k (by omega) (by omega) _ hi), fun h => ?_⟩
      by_cases hkm : k = m
      · subst hkm
        exact ⟨_, hi, hbefore (Nat.le_refl k), hrefl _⟩
      · obtain ⟨u, hu, h1, h2⟩ := hafter (by omega)
        exact ⟨u, hu, h1, htrans h2 (hR k (by omega) hkm _ hi)⟩
  obtain ⟨h1, -, h2⟩ := main n (Nat.le_refl n)
  exact ⟨h1, h2 hm⟩

/-! ### What the poll leaves -/

/-- A device reached by the commands of a poll. -/
structure PollRun (d e : Dev) : Prop where
  md : ∀ j, (e.machS j).md = (d.machS j).md
  defd : ∀ j, (e.machS j).defd = (d.machS j).defd
  pair : e.reg R.PWG_PAIR = d.reg R.PWG_PAIR
  gtc : e.gtc = d.gtc
  member : e.member = d.member
  live : e.replaying = d.replaying
  state : e.devState = d.devState
  told : ∀ page src, Raised d page src → Raised e page src

theorem PollRun.refl (d : Dev) : PollRun d d := ⟨fun _ => rfl, fun _ => rfl, rfl, rfl, rfl, rfl, rfl, fun _ _ h => h⟩

theorem PollRun.trans (h : PollRun d e) (k : PollRun e f) : PollRun d f :=
  ⟨fun j => (k.md j).trans (h.md j), fun j => (k.defd j).trans (h.defd j), k.pair.trans h.pair, k.gtc.trans h.gtc, k.member.trans h.member, k.live.trans h.live, k.state.trans h.state,
    fun p s hr => k.told p s (h.told p s hr)⟩

theorem PollRun.groups (h : PollRun d e) (j : Nat) : e.mGroups j = d.mGroups j := by
  have hmd : ∀ k f, e.md j k f = d.md j k f := fun k f => congrArg (fun w => getF w f) (mdWord_of (h.md j) k)
  rw [Dev.mGroups, Dev.mGroups, Dev.mSix, Dev.mSix, hmd, Dev.secOf, Dev.secOf, h.pair]

theorem PollRun.of_run (h : MachRun j d e) (hj : j < 20) (hp : e.reg R.PWG_PAIR = d.reg R.PWG_PAIR) : PollRun d e := by
  refine ⟨fun k => ?_, fun k => ?_, hp, h.gtc, h.member, h.live hj, h.devState hj, fun _ _ hr => h.raised hr⟩ <;> by_cases hk : k = j
  · subst hk
    exact h.md
  · rw [h.others k hk]
  · subst hk
    exact h.defd
  · rw [h.others k hk]

/-- A machine's record and the enables of its groups stand besides. -/
structure PollKept (m : Nat) (d e : Dev) : Prop where
  run : PollRun d e
  own : e.machS m = d.machS m
  gen : ∀ g ∈ d.mGroups m, e.genP g = d.genP g

theorem PollKept.refl (m : Nat) (d : Dev) : PollKept m d d := ⟨.refl d, rfl, fun _ _ => rfl⟩

theorem PollKept.trans (h : PollKept m d e) (k : PollKept m e f) : PollKept m d f :=
  ⟨h.run.trans k.run, k.own.trans h.own, fun g hg => (k.gen g ((h.run.groups m).symm ▸ hg)).trans (h.gen g hg)⟩

theorem PollKept.mState (h : PollKept m d e) : e.mState m = d.mState m := by rw [Dev.mState, Dev.mState, h.own]
theorem PollKept.mStat (h : PollKept m d e) (f : RField) : e.mStat m f = d.mStat m f := by rw [Dev.mStat, Dev.mStat, h.own]

theorem PollKept.entered {st cause : Nat} (h : PollKept m e f) (k : Entered d e m st cause) : Entered d f m st cause := k.kept h.own (h.run.told _ _)

theorem PollKept.low (h : PollKept m e f) (hg : e.mGroups m = d.mGroups m) (k : EnablesLow d e m) : EnablesLow d f m := fun g hx hp =>
  (h.gen g (hg.symm ▸ hx)).trans (k g hx hp)

/-- Whether an enable of a machine's groups is low. -/
def Dev.someLow (d : Dev) (m : Nat) : Prop := ∃ g ∈ d.mGroups m, d.genP g = false

theorem PollKept.someLow (h : PollKept m d e) : e.someLow m ↔ d.someLow m := by
  have hg := h.run.groups m
  refine ⟨fun ⟨g, hx, hl⟩ => ?_, fun ⟨g, hx, hl⟩ => ⟨g, hg.symm ▸ hx, (h.gen g hx).trans hl⟩⟩
  rw [hg] at hx
  exact ⟨g, hx, (h.gen g hx).symm.trans hl⟩

/-- Another machine's step leaves a machine whose groups are not its own. -/
theorem PollKept.of_run (h : MachRun j d e) (hj : j < 20) (hne : j ≠ m) (hm : m < 20) (hp : e.reg R.PWG_PAIR = d.reg R.PWG_PAIR)
    (hg : ∀ g < 20, g ∉ d.mGroups j → e.genP g = d.genP g) (hdis : ∀ g ∈ d.mGroups m, g ∉ d.mGroups j) : PollKept m d e :=
  ⟨.of_run h hj hp, h.others m hne.symm, fun g hx => hg g (mGroups_lt hm g hx) (hdis g hx)⟩

/-! ### A stop that a loss has named -/

theorem Dev.stopDemand_machS (d : Dev) (hlive : d.replaying = false) (m k : Nat) : (d.stopDemand m).machS k = d.machS k := by
  have ha : R.CTX_CMD (d.mDemCtx m) 0 = ctxA (d.mDemCtx m) 36 := by simp only [R.CTX_CMD, ctxA, R.CTX_CTRL]; omega
  have hone : ∀ w, (if (!d.ctxPresent (d.mDemCtx m) || d.reg (R.CTX_CMD (d.mDemCtx m) 0) == w) = true then d
      else d.pWrite Mid.S0 (R.CTX_CMD (d.mDemCtx m) 0) w).machS k = d.machS k := fun w => by
    split
    · rfl
    · next hp =>
      rw [Bool.not_eq_true, Bool.or_eq_false_iff, Bool.not_eq_false'] at hp
      rw [ha]
      exact congrArg (fun l => spGet _ l k) (congrArg Dev.mach (d.cmdWrite_frame hlive (ctx_lt hp.1) (n := 36) (.inl (by decide)) _ _).1 :)
  exact hone _

/-- One stop of a poll. -/
def Dev.pollStop (d : Dev) (j : Nat) : Dev := if d.cmdLoses j then d else d.machStop j 0

theorem Dev.machStop_undefined (h : d.mDefined j = false) (cause : Nat) : d.machStop j cause = d := by
  rw [Dev.machStop, h]
  rfl

/-- What one stop of a poll is: none, or the machine's. -/
theorem Dev.pollStop_keeps {P : Dev → Prop} (d : Dev) (j : Nat) (h0 : P d) (h1 : j < 20 → P (d.machStop j 0)) : P (d.pollStop j) := by
  rw [Dev.pollStop]
  split
  · exact h0
  · obtain hn | hd := Bool.eq_false_or_eq_true (d.mDefined j)
    · exact h1 (mDefined_lt hn)
    · rw [Dev.machStop_undefined hd]
      exact h0

section
variable (hlive : d.replaying = false)
include hlive

theorem PollRun.pollStop (j : Nat) : PollRun d (d.pollStop j) :=
  d.pollStop_keeps (P := PollRun d) j (.refl d) fun hj => .of_run (.machStop hlive hj 0) hj (StopKept.machStop hlive hj 0).pair

theorem PollKept.pollStop (hm : m < 20) (hne : j ≠ m) : PollKept m d (d.pollStop j) :=
  d.pollStop_keeps (P := PollKept m d) j (.refl m d) fun hj =>
    have h := StopKept.machStop hlive hj 0
    ⟨.of_run (.machStop hlive hj 0) hj h.pair, (MachRun.machStop hlive hj 0).others m hne.symm, fun g hg => h.gates.genP g (mGroups_lt hm g hg)⟩

theorem ReadsAlike.pollStop (hk : d.safe.keep = 0) (j : Nat) : ReadsAlike d (d.pollStop j) :=
  d.pollStop_keeps (P := ReadsAlike d) j (.refl d) fun _ => .machStop hlive hk 0

end

/-- The stops of a poll. -/
def Dev.pollStops (d : Dev) (l : List Nat) : Dev := l.foldl (fun e j => e.pollStop j) d

theorem PollRun.pollStops (hlive : d.replaying = false) (l : List Nat) : PollRun d (d.pollStops l) :=
  foldl_keeps (P := PollRun d) (fun j _ _ hu => hu.trans (.pollStop (hu.live.trans hlive) j)) (.refl d)

theorem PollKept.pollStops (hlive : d.replaying = false) (hm : m < 20) {l : List Nat} (hl : m ∉ l) : PollKept m d (d.pollStops l) :=
  foldl_keeps (P := PollKept m d) (fun _ hj _ hu => hu.trans (.pollStop (hu.run.live.trans hlive) hm fun he => hl (he ▸ hj))) (.refl m d)

theorem Dev.machStop_ring (hlive : d.replaying = false) (hj : j < 20) (cause : Nat) : (d.machStop j cause).ring = d.ring :=
  (congrArg Dev.ring (MachRun.machStop hlive hj cause).frame.1 :)

theorem Dev.pollStops_ring (hlive : d.replaying = false) (l : List Nat) : (d.pollStops l).ring = d.ring :=
  (foldl_keeps (P := fun u : Dev => u.replaying = false ∧ u.ring = d.ring) (fun _ _ u hu =>
    u.pollStop_keeps (P := fun u : Dev => u.replaying = false ∧ u.ring = d.ring) _ hu fun hj =>
      ⟨((MachRun.machStop hu.1 hj 0).live hj).trans hu.1, (Dev.machStop_ring hu.1 hj 0).trans hu.2⟩) ⟨hlive, rfl⟩).2

/-- A machine has been stopped by a poll. -/
structure PollStopped (m : Nat) (d e : Dev) : Prop where
  run : PollRun d e
  state : e.mState m = MS.STOP
  cause : e.mStat m F.MD_CAUSE = 0
  told : Raised e Pg.SAFE Ev.MACH_STATE
  gen : ∀ g ∈ d.mGroups m, e.genP g = d.genP g

theorem PollStopped.kept (h : PollStopped m d e) (k : PollKept m e f) : PollStopped m d f :=
  ⟨h.run.trans k.run, k.mState.trans h.state, (k.mStat _).trans h.cause, k.run.told _ _ h.told,
    fun g hg => (k.gen g ((h.run.groups m).symm ▸ hg)).trans (h.gen g hg)⟩

theorem PollStopped.base (h : PollStopped m e f) (k : PollKept m d e) : PollStopped m d f :=
  ⟨k.run.trans h.run, h.state, h.cause, h.told, fun g hg => (h.gen g ((k.run.groups m).symm ▸ hg)).trans (k.gen g hg)⟩

section
variable (hlive : d.replaying = false) (hdef : d.mDefined m = true)

include hlive hdef in
theorem Dev.machStop_stopped (hst : d.mState m = MS.RUN) (ht : (d.machS m).target = none) : PollStopped m d (d.machStop m 0) := by
  have hm := mDefined_lt hdef
  have hrun := MachRun.machStop hlive hm 0
  have hkept := StopKept.machStop hlive hm 0
  have heq : d.machStop m 0 = ((if (d.machS m).rev then d.runMode m else d).machGo m MS.STOP 0).stopDemand m := by
    rw [Dev.machStop, hdef, hst, ht]
    rfl
  have h1 := MachRun.revRun hlive hm (d.machS m).rev
  have hent : Entered d (d.machStop m 0) m MS.STOP 0 := by
    rw [heq]
    generalize (if (d.machS m).rev then d.runMode m else d) = u at h1
    have hgo := (Dev.machGo_entered u m (new := MS.STOP) (cause := 0) (by decide) (by decide)).base h1.gtc
    have hl : (u.machGo m MS.STOP 0).replaying = false := ((h1.machGo hm MS.STOP 0).live hm).trans hlive
    generalize u.machGo m MS.STOP 0 = v at hgo hl
    exact hgo.kept (v.stopDemand_machS hl m m) ((MachRun.refl m v).stopDemand hm hl).raised
  exact ⟨.of_run hrun hm hkept.pair, hent.1, hent.2.1, hent.2.2.2.2, fun g hg => hkept.gates.genP g (mGroups_lt hm g hg)⟩

end

end
end Sys2Proof.Machine
end

section
/-! PROOFS. Garmal's poll of the rings: what it makes of a machine (R399, R402). -/

namespace Sys2Proof.Machine

section
variable {d e f : Dev} {m j : Nat}

/-! ### The stops -/

theorem PollStopped.pollStop (h : PollStopped m d e) (hlive : d.replaying = false) (hm : m < 20) (j : Nat) : PollStopped m d (e.pollStop j) := by
  have hl := h.run.live.trans hlive
  by_cases hj : j = m
  · subst hj
    have hno : e.pollStop j = e := by
      rw [Dev.pollStop, Dev.machStop, h.state]
      split
      · rfl
      · simp [MS.STOP, MS.RUN]
    rw [hno]
    exact h
  · exact h.kept (.pollStop hl hm hj)

theorem PollStopped.pollStops (h : PollStopped m d e) (hlive : d.replaying = false) (hm : m < 20) (l : List Nat) : PollStopped m d (e.pollStops l) :=
  foldl_keeps (P := PollStopped m d) (fun j _ _ hu => hu.pollStop hlive hm j) h

/-- A machine in RUN that a loss has named is stopped, unless a reaction wins. -/
theorem Dev.pollStops_stopped {l : List Nat} (hl : m ∈ l) (hlive : d.replaying = false) (hdef : d.mDefined m = true) (hst : d.mState m = MS.RUN)
    (hc : d.cmdLoses m = false) (ht : (d.machS m).target = none) (hk : d.safe.keep = 0) : PollStopped m d (d.pollStops l) := by
  have hm := mDefined_lt hdef
  induction l generalizing d with
  | nil => cases hl
  | cons j l ih =>
    by_cases hj : j = m
    · subst hj
      have heq : d.pollStop j = d.machStop j 0 := by rw [Dev.pollStop, hc]; rfl
      have h1 := Dev.machStop_stopped hlive hdef hst ht
      rw [← heq] at h1
      exact PollStopped.pollStops h1 hlive hm l
    · have h1 := PollKept.pollStop hlive hm hj
      have hr := ReadsAlike.pollStop hlive hk j
      have hdef' : (d.pollStop j).mDefined m = true := by rw [Dev.mDefined, h1.own]; exact hdef
      have h2 := ih (d := d.pollStop j) ((List.mem_cons.1 hl).resolve_left (Ne.symm hj)) (h1.run.live.trans hlive) hdef' (h1.mState.trans hst)
        (((hr.for h1.own).cmdLoses hm h1.own).trans hc) ((congrArg MachSt.target h1.own).trans ht) (hr.keep hk)
      exact h2.base h1

/-! ### The clamps -/

/-- The clamp of one machine in a poll. -/
def Dev.pollClamp (d : Dev) (t j : Nat) : Dev := if ((d.machS j).ovcDem.map (·.2)) == some t then d else d.machOvercast j t

theorem Dev.machOvercast_keeps {P : Dev → Prop} (d : Dev) (t j : Nat) (h0 : P d)
    (h1 : j < 20 → P ((d.ovcClamped j t).toSto j 8) ∧ P ((d.ovcClamped j t).stopDemand j) ∧
      P (((d.ovcClamped j t).machGo j MS.STOP 8).stopDemand j)) : P (d.pollClamp t j) := by
  rw [Dev.pollClamp]
  split
  · exact h0
  · rw [Dev.machOvercast_eq]
    split
    · exact h0
    · next hn =>
      rw [Bool.not_eq_true, Bool.or_eq_false_iff, Bool.not_eq_false'] at hn
      obtain ⟨hs, h2, h3⟩ := h1 (mDefined_lt hn.1)
      rw [Dev.ovcEnter]
      split
      · exact hs
      · split
        · exact h2
        · exact h3

/-- The steps that a clamp may take, each as one of its machine. -/
structure ClampStep (j : Nat) (d e : Dev) : Prop where
  run : MachRun j d e
  pair : e.reg R.PWG_PAIR = d.reg R.PWG_PAIR
  gen : ∀ g < 20, g ∉ d.mGroups j → e.genP g = d.genP g

theorem ClampStep.refl (j : Nat) (d : Dev) : ClampStep j d d := ⟨.refl j d, rfl, fun _ _ _ => rfl⟩

theorem ClampStep.of_kept (h : MachRun j d e) (k : StopKept d e) : ClampStep j d e := ⟨h, k.pair, fun g hg _ => k.gates.genP g hg⟩

section
variable (hlive : d.replaying = false)
include hlive

theorem ClampStep.pollClamp (t j : Nat) : j < 20 → ClampStep j d (d.pollClamp t j) := by
  intro hj20
  refine d.machOvercast_keeps (P := ClampStep j d) t j (.refl j d) fun hj => ?_
  obtain ⟨hrun, -, -⟩ := Dev.ovcClamped_run (d := d) hlive hj t
  have hkept := StopKept.of_reads (Dev.ovcClamped_reads (m := j) (d := d) hlive t)
  have hl : (d.ovcClamped j t).replaying = false := (hrun.live hj).trans hlive
  have hgroups := hrun.groups hj
  generalize d.ovcClamped j t = u at hrun hkept hl hgroups
  have hgo := hrun.machGo hj MS.STOP 8
  refine ⟨⟨hrun.toSto hj hlive 8, ?_, fun g hg hn => ?_⟩, .of_kept (hrun.stopDemand hj hlive) (hkept.trans (.of_reads ((ReadsAlike.refl u).stopDemand hl j))),
    .of_kept (hgo.stopDemand hj hlive) ((hkept.trans (.machGo u hj MS.STOP 8)).trans
      (.of_reads ((ReadsAlike.refl _).stopDemand ((hgo.live hj).trans hlive) j)))⟩
  · exact (StopKept.toSto hl hj 8).1.trans hkept.pair
  · exact ((StopKept.toSto hl hj 8).2 g hg (hgroups ▸ hn)).trans (hkept.gates.genP g hg)

end

/-- What a clamp makes of a machine. -/
structure Clamped (m : Nat) (d e : Dev) : Prop where
  sto : d.mState m = MS.CATCH ∨ (drives (d.mState m) = true ∧ d.someLow m) → Entered d e m MS.STO 8 ∧ EnablesLow d e m
  stop : drives (d.mState m) = true → ¬d.someLow m → d.mState m ≠ MS.STOP → Entered d e m MS.STOP 8
  stays : d.mState m = MS.STOP → ¬d.someLow m → e.mState m = MS.STOP ∧ e.mStat m F.MD_CAUSE = d.mStat m F.MD_CAUSE

theorem someLow_iff : (d.mGroups m).any (fun g => !d.genP g) = true ↔ d.someLow m := by
  rw [List.any_eq_true]
  exact exists_congr fun g => and_congr_right fun _ => by rw [Bool.not_eq_true']

theorem drives_not_catch {st : Nat} (h : drives st = true) : st ≠ MS.CATCH := fun he => by
  rw [he] at h
  exact absurd h (by decide)

theorem Dev.ovcClamped_low (hlive : d.replaying = false) (hm : m < 20) (t : Nat) : (d.ovcClamped m t).someLow m ↔ d.someLow m := by
  have hgroups := (Dev.ovcClamped_run hlive hm t).1.groups hm
  have hg := (Dev.ovcClamped_reads (m := m) (d := d) hlive t).gates
  rw [Dev.someLow, hgroups]
  exact exists_congr fun g => and_congr_right fun hx => by rw [hg.genP g (mGroups_lt hm g hx)]

theorem Dev.machOvercast_clamped (hlive : d.replaying = false) (hdef : d.mDefined m = true) (t : Nat) : Clamped m d (d.machOvercast m t) := by
  have hm := mDefined_lt hdef
  have hcase : ∀ P : Dev → Prop, (drives (d.mState m) = true ∨ d.mState m = MS.CATCH) → P ((d.ovcClamped m t).ovcEnter m (d.mState m)) →
      P (d.machOvercast m t) := fun P hst hp => by
    rw [Dev.machOvercast_eq, if_neg]
    · exact hp
    · obtain h | h := hst <;> simp [hdef, h]
  obtain ⟨hrun, hstate, hstat⟩ := Dev.ovcClamped_run (d := d) hlive hm t
  have hlow := Dev.ovcClamped_low (d := d) hlive hm t
  have hl : (d.ovcClamped m t).replaying = false := (hrun.live hm).trans hlive
  have hgroups := hrun.groups hm
  generalize d.ovcClamped m t = u at hrun hstate hstat hlow hl hgroups hcase
  have hnot : ¬d.someLow m → ¬(u.mGroups m).any (fun g => !u.genP g) = true := fun hn hx => hn (hlow.1 (someLow_iff.1 hx))
  refine ⟨fun h => hcase (fun x => Entered d x m MS.STO 8 ∧ EnablesLow d x m) (h.symm.imp And.left id) ?_, fun hd hn hs =>
    hcase (fun x => Entered d x m MS.STOP 8) (.inl hd) ?_, fun hs hn =>
    hcase (fun x => x.mState m = MS.STOP ∧ x.mStat m F.MD_CAUSE = d.mStat m F.MD_CAUSE) (.inl (by rw [hs]; decide)) ?_⟩
  · have hsel : d.mState m = MS.CATCH ∨ (u.mGroups m).any (fun g => !u.genP g) = true := h.imp id fun h => someLow_iff.2 (hlow.2 h.2)
    rw [Dev.ovcEnter, if_pos hsel]
    exact ⟨(Dev.toSto_entered hm hl (by decide)).base hrun.gtc, (Dev.toSto_low hm hl).base hgroups hrun.member⟩
  · rw [Dev.ovcEnter, if_neg (fun hx => hx.elim (drives_not_catch hd) (hnot hn)), if_neg hs]
    have hgo := (Dev.machGo_entered u m (new := MS.STOP) (cause := 8) (by decide) (by decide)).base hrun.gtc
    have hlg : (u.machGo m MS.STOP 8).replaying = false := ((hrun.machGo hm MS.STOP 8).live hm).trans hlive
    generalize u.machGo m MS.STOP 8 = v at hgo hlg
    exact hgo.kept (v.stopDemand_machS hlg m m) ((MachRun.refl m v).stopDemand hm hlg).raised
  · have hnc : d.mState m ≠ MS.CATCH := by rw [hs]; decide
    rw [Dev.ovcEnter, if_neg (fun hx => hx.elim hnc (hnot hn)), if_pos hs, Dev.mState, Dev.mStat, u.stopDemand_machS hl]
    exact ⟨hstate.trans hs, hstat _⟩

theorem Clamped.base (h : Clamped m e f) (k : PollKept m d e) : Clamped m d f := by
  obtain ⟨h1, h2, h3⟩ := h
  rw [k.mState, k.someLow] at h1
  rw [k.mState, k.someLow] at h2
  rw [k.mState, k.someLow, k.mStat] at h3
  exact ⟨fun hx => ⟨(h1 hx).1.base k.run.gtc, (h1 hx).2.base (k.run.groups m) k.run.member⟩, fun a b c => (h2 a b c).base k.run.gtc, h3⟩

theorem Clamped.kept (h : Clamped m d e) (hg : e.mGroups m = d.mGroups m) (k : PollKept m e f) : Clamped m d f :=
  ⟨fun hx => ⟨k.entered (h.sto hx).1, k.low hg (h.sto hx).2⟩, fun a b c => k.entered (h.stop a b c), fun a b =>
    ⟨k.mState.trans (h.stays a b).1, (k.mStat _).trans (h.stays a b).2⟩⟩

/-- All clamps of a poll. -/
def Dev.pollClamps (d : Dev) (t : Nat) : Dev := forN 20 (fun j e => e.pollClamp t j) d

theorem Dev.pollClamps_run (hlive : d.replaying = false) (t : Nat) : PollRun d (d.pollClamps t) ∧ (d.pollClamps t).ring = d.ring :=
  forN_keeps (P := fun u : Dev => PollRun d u ∧ u.ring = d.ring) 20 (fun j hj u ⟨hu, hr⟩ => by
    have h := ClampStep.pollClamp (hu.live.trans hlive) t j hj
    exact ⟨hu.trans (.of_run h.run hj h.pair), (congrArg Dev.ring h.run.frame.1 :).trans hr⟩) ⟨.refl d, rfl⟩

/-- One machine's clamp among those of a poll. -/
theorem Dev.pollClamps_own (hlive : d.replaying = false) (hm : m < 20) (hdis : ∀ j g, j ≠ m → g ∈ d.mGroups m → g ∉ d.mGroups j) (t : Nat) :
    ∃ u, u.replaying = false ∧ PollKept m d u ∧ PollKept m (u.pollClamp t m) (d.pollClamps t) := by
  have hstep : ∀ j < 20, ∀ u, PollRun d u → ClampStep j u (u.pollClamp t j) := fun j hj u hu => .pollClamp (hu.live.trans hlive) t j hj
  have hother : ∀ j < 20, j ≠ m → ∀ u, PollRun d u → PollKept m u (u.pollClamp t j) := fun j hj hne u hu => by
    have h := hstep j hj u hu
    refine .of_run h.run hj hne hm h.pair h.gen fun g hg => ?_
    rw [hu.groups] at hg ⊢
    exact hdis j g hne hg
  obtain ⟨-, u, hu, h1, h2⟩ := forN_own (R := PollKept m) (PollKept.refl m) (fun h k => h.trans k)
    (fun j hj u hu => hu.trans (.of_run (hstep j hj u hu).run hj (hstep j hj u hu).pair)) hother hm (PollRun.refl d)
  exact ⟨u, hu.live.trans hlive, h1, h2⟩

theorem Dev.pollClamps_clamped (hlive : d.replaying = false) (hdef : d.mDefined m = true)
    (hdis : ∀ j g, j ≠ m → g ∈ d.mGroups m → g ∉ d.mGroups j) {t : Nat} (ht : (d.machS m).ovcDem.map (·.2) ≠ some t) :
    Clamped m d (d.pollClamps t) := by
  have hm := mDefined_lt hdef
  obtain ⟨u, hlu, h1, h2⟩ := Dev.pollClamps_own hlive hm hdis t
  have heq : u.pollClamp t m = u.machOvercast m t := by
    rw [Dev.pollClamp, h1.own, if_neg (by simpa using ht)]
  have hstep := ClampStep.pollClamp hlu t m hm
  rw [heq] at h2 hstep
  have hd : u.mDefined m = true := by rw [Dev.mDefined, h1.own]; exact hdef
  exact ((Dev.machOvercast_clamped hlu hd t).base h1).kept ((hstep.run.groups hm).trans (h1.run.groups m)) h2

/-- A machine that has been stopped stays stopped under its clamp, where its enables are high. -/
theorem PollStopped.pollClamps (h : PollStopped m d e) (hlive : d.replaying = false) (hdef : e.mDefined m = true)
    (hdis : ∀ j g, j ≠ m → g ∈ d.mGroups m → g ∉ d.mGroups j) (hlow : ¬d.someLow m) (t : Nat) :
    (e.pollClamps t).mState m = MS.STOP ∧ (e.pollClamps t).mStat m F.MD_CAUSE = 0 ∧ Raised (e.pollClamps t) Pg.SAFE Ev.MACH_STATE := by
  have hm := mDefined_lt hdef
  have hl := h.run.live.trans hlive
  have hlow' : ¬e.someLow m := fun ⟨g, hg, hx⟩ => by
    rw [h.run.groups] at hg
    exact hlow ⟨g, hg, (h.gen g hg).symm.trans hx⟩
  have htold := (Dev.pollClamps_run hl t).1.told _ _ h.told
  by_cases ht : (e.machS m).ovcDem.map (·.2) = some t
  · obtain ⟨u, hlu, h1, h2⟩ := Dev.pollClamps_own hl hm (fun j g hne hg => by
      rw [h.run.groups] at hg ⊢
      exact hdis j g hne hg) t
    have heq : u.pollClamp t m = u := by rw [Dev.pollClamp, h1.own, if_pos (by simpa using ht)]
    rw [heq] at h2
    exact ⟨h2.mState.trans (h1.mState.trans h.state), (h2.mStat _).trans ((h1.mStat _).trans h.cause), htold⟩
  · have hc := Dev.pollClamps_clamped hl hdef (fun j g hne hg => by
      rw [h.run.groups] at hg ⊢
      exact hdis j g hne hg) ht
    obtain ⟨h1, h2⟩ := hc.stays h.state hlow'
    exact ⟨h1, h2.trans h.cause, htold⟩

/-! ### The poll -/

/-- The poll's stops carried out. -/
def Dev.stopsDone (d : Dev) : Dev :=
  let u := d.pollStops d.ring.stops
  { u with ring := { u.ring with stops := [] } }

theorem Dev.ringPoll_none (h : d.ring.clamp = none) (hr : (d.pollStops d.ring.stops).ring = d.ring) : d.ringPoll = d.stopsDone := by
  have hc : d.stopsDone.ring.clamp = none := by rw [Dev.stopsDone, hr]; exact h
  have heq : d.ringPoll = match d.stopsDone.ring.clamp with
    | some t => if d.stopsDone.devState = DS.OVERCAST then d.stopsDone.pollClamps t
      else { d.stopsDone with ring := { d.stopsDone.ring with clamp := none } }
    | none => d.stopsDone := rfl
  rw [heq, hc]

theorem Dev.ringPoll_some {t : Nat} (h : d.ring.clamp = some t) (hr : (d.pollStops d.ring.stops).ring = d.ring) : d.ringPoll =
    if d.stopsDone.devState = DS.OVERCAST then d.stopsDone.pollClamps t
      else { d.stopsDone with ring := { d.stopsDone.ring with clamp := none } } := by
  have hc : d.stopsDone.ring.clamp = some t := by rw [Dev.stopsDone, hr]; exact h
  have heq : d.ringPoll = match d.stopsDone.ring.clamp with
    | some t => if d.stopsDone.devState = DS.OVERCAST then d.stopsDone.pollClamps t
      else { d.stopsDone with ring := { d.stopsDone.ring with clamp := none } }
    | none => d.stopsDone := rfl
  rw [heq, hc]

/-- Only the rings' state differs. -/
theorem PollKept.ring (d : Dev) (m : Nat) (q : RingSt) : PollKept m d { d with ring := q } :=
  ⟨⟨fun _ => rfl, fun _ => rfl, rfl, rfl, rfl, rfl, rfl, fun _ _ h => h⟩, rfl, fun _ _ => rfl⟩

theorem Dev.ringPoll_ring (hlive : d.replaying = false) :
    d.ringPoll.ring = { d.ring with stops := [], clamp := if d.devState = DS.OVERCAST then d.ring.clamp else none } := by
  have hr := Dev.pollStops_ring hlive d.ring.stops
  have hrun := PollRun.pollStops hlive d.ring.stops
  have hring : d.stopsDone.ring = { d.ring with stops := [] } := by rw [Dev.stopsDone, hr]
  have hl : d.stopsDone.replaying = false := hrun.live.trans hlive
  have hst : d.stopsDone.devState = d.devState := hrun.state
  cases hc : d.ring.clamp with
  | none => rw [Dev.ringPoll_none hc hr, hring, ite_self, ← hc]
  | some t =>
    rw [Dev.ringPoll_some hc hr, hst]
    by_cases ho : d.devState = DS.OVERCAST
    · rw [if_pos ho, if_pos ho, (Dev.pollClamps_run hl t).2, hring, ← hc]
    · rw [if_neg ho, if_neg ho, hring]

end
end Sys2Proof.Machine
end

section
/-! PROOFS. The loss of a source, and the state OVERCAST (R398 to R402). -/

namespace Sys2Proof.Machine

/-- What a loss may change beside registers: Channel M with the enables, and the rings. -/
def lostPart (d e : Dev) : Dev := { d with grp := e.grp, tm := e.tm, safe := e.safe, ring := e.ring }

theorem lostPart_part : Part lostPart := ⟨fun _ => rfl, fun _ _ _ => rfl, fun _ _ => rfl, fun _ _ _ => rfl⟩

/-- The registers of a loss. -/
def lostRegs : List Nat := R.SFX_LOST :: R.SFX_STAT :: safeRegs

theorem pgEvtRaw_not_lost (q : Nat) : R.PG_EVT_RAW q ∉ lostRegs := fun h => by
  obtain h | h | h := by simpa only [lostRegs, List.mem_cons] using h
  · simp only [R.PG_EVT_RAW, pageBase, R.SFX_LOST] at h; omega
  · simp only [R.PG_EVT_RAW, pageBase, R.SFX_STAT] at h; omega
  · exact pgEvtRaw_not_safe q h

section
variable {d e f : Dev} {m n : Nat}

theorem FrameOn.safeLost (h : FrameOn Dev.safePart safeRegs d e) : FrameOn lostPart lostRegs d e :=
  h.widen safePart_part lostPart_part (fun _ _ => rfl) fun _ ha => .tail _ (.tail _ ha)

/-! ### The reactions of the entries (R399) -/

theorem Dev.tmTrip_denied (d : Dev) (m : Nat) {cause j : Nat} (hj : j < 20) (h : (d.tmTrip m cause).tripped j = true) :
    (d.tmTrip m cause).granted j = false := by
  rw [Dev.tmTrip_eq] at h ⊢
  generalize (((d.latchSto m cause false).ss1Off m).tripNoted m cause).machEvent m Ev.TM_TRIP = u at h ⊢
  rw [(u.grantAll_stands hj).trip] at h
  rw [u.grantAll_granted hj, Dev.grantOk_tripped h]

theorem TripRun.spbM {cause : Nat} (h : TripRun m cause d e) : e.safe.spbM = d.safe.spbM := by rw [h.block]

/-- The trips of all enabled entries. -/
def Dev.tripAll (d : Dev) (cause : Nat) : Dev := (entriesThat d.meEn).foldl (fun e m => e.tmTrip m cause) d

theorem Dev.tripAll_spec (d : Dev) {cause : Nat} (hc : cause < 16) : FrameOn Dev.safePart safeRegs d (d.tripAll cause) ∧
    (d.tripAll cause).safe.spbM = d.safe.spbM ∧ ∀ m < 20, d.meEn m = true → Latched d (d.tripAll cause) m cause := by
  rw [Dev.tripAll, foldl_entriesThat, ← and_assoc]
  refine forN_stages (I := fun e => FrameOn Dev.safePart safeRegs d e ∧ e.safe.spbM = d.safe.spbM) (B := fun m e => EntryStands m d e)
    (A := fun m e => d.meEn m = true → Latched d e m cause) 20 (fun m hm u hu hb => ?_) (fun m hm j hj hlt u _ hb => ?_)
    (fun m hm j hlt u _ ha => ?_) ⟨FrameOn.refl safePart_part _ d, rfl⟩ fun m _ => .refl m d
  · split
    · have ht := u.tmTrip_run hm hc
      refine ⟨⟨hu.1.trans safePart_part ht.frame, ht.spbM.trans hu.2⟩, fun _ => ?_⟩
      obtain ⟨h1, h2, h3, h4⟩ := ht.latched
      exact ⟨h1, h2, h3, by rw [h4, hb.cause]⟩
    · next hn => exact ⟨hu, fun h => absurd h hn⟩
  · split
    · exact hb.trans ((u.tmTrip_run hm hc).others j hj (by omega))
    · exact hb
  · split
    · intro hen
      have hj : j < 20 := by omega
      obtain ⟨h1, -, h3, h4⟩ := ha hen
      have hs := (u.tmTrip_run hm hc).others j hj (by omega)
      have htrip := hs.trip.trans h1
      exact ⟨htrip, u.tmTrip_denied m hj htrip, (congrArg TmSt.ss1 hs.tm).trans h3, hs.cause.trans h4⟩
    · exact ha

/-- The stops of all enabled entries. -/
def Dev.ss1All (d : Dev) : Dev := (entriesThat d.meEn).foldl (fun e m => e.ss1Request m) d

theorem Dev.ss1All_spec (d : Dev) : EntriesRun d d.ss1All ∧
    ∀ m, d.meEn m = true → (d.tmS m).ss1 = none → (d.ss1All.tmS m).ss1 = some (d.ss1Of m) := by
  rw [Dev.ss1All, foldl_entriesThat]
  obtain ⟨hrun, hturn⟩ := entries_turns (g := fun m e => if d.meEn m then e.ss1Request m else e)
    (fun m _ u => EntryRun.ite fun _ => u.ss1Request_run) d
  refine ⟨hrun, fun m hen hn => ?_⟩
  obtain ⟨u, hu, hb, he⟩ := hturn m (meEn_lt hen)
  rw [if_pos hen] at he
  have hen' : u.meEn m = true := (meEn_of hu.spbM m).trans hen
  have hs := (Dev.ss1Request_begun hen' ((congrArg TmSt.ss1 hb.tm).trans hn)).1
  rw [he.tm, hs, ss1Of_congr hu.gtc hu.spbM hb]

/-! ### A source lost (R398, R399) -/

theorem peers_of (h : e.safe.spbM = d.safe.spbM) : e.peers = d.peers := by
  have hn : e.rsNode = d.rsNode := congrArg (getF · F.RS_LOCAL_NODE) (spb_of h _)
  rw [Dev.peers, Dev.peers, hn]
  exact List.filter_congr fun n _ => by rw [Dev.rsExpect, Dev.rsExpect, spb_of h]

theorem peers_lt (h : n ∈ d.peers) : n < 16 := List.mem_range.1 (List.mem_filter.1 h).1

/-- The loss itself, without the reaction. -/
def Dev.lossShown (d : Dev) (n : Nat) : Dev :=
  (((d.setSrc n { d.srcS n with last := none }).setReg R.SFX_LOST (setBit (d.reg R.SFX_LOST) n true)).ringOk).raiseN Pg.SFX Ev.RING_SRC_LOST n

/-- The reaction of a lost source. -/
def Dev.lossActs (d : Dev) (act : Nat) : Dev :=
  if act = 0 then d else if act = 1 then { d.ss1All with ring := { d.ss1All.ring with stops := entriesThat d.meEn } } else d.tripAll 0xC

theorem Dev.srcLost_eq (d : Dev) (n : Nat) :
    d.srcLost n = (d.lossShown n).lossActs (getF ((d.lossShown n).spb 0xC08) (F.RS_LACT_LACT n)) := rfl

/-- What a loss shows. -/
structure LossShown (n : Nat) (d e : Dev) : Prop where
  frame : FrameOn ringPart [R.SFX_LOST, R.SFX_STAT] d e
  lost : e.lost n = true
  others : ∀ j, j ≠ n → e.lost j = d.lost j
  src : e.srcS n = { d.srcS n with last := none }
  srcs : SrcElse d e n
  ring : e.ring = { d.ring with srcs := e.ring.srcs }
  stat : ∀ f : RField, F.SFX_STAT_RING_OK.lo + fieldWidth F.SFX_STAT_RING_OK ≤ f.lo ∨ f.lo + fieldWidth f ≤ F.SFX_STAT_RING_OK.lo →
    e.get R.SFX_STAT f = d.get R.SFX_STAT f
  ok : n ∈ d.peers → e.flag R.SFX_STAT F.SFX_STAT_RING_OK = false
  told : Raised e Pg.SFX Ev.RING_SRC_LOST

theorem Dev.ringOk_frame {p : Dev → Dev → Dev} {l : List Nat} (hp : Part p) (h : FrameOn p l d e) (hl : R.SFX_STAT ∈ l) : FrameOn p l d e.ringOk :=
  h.putB hp _ _ hl

theorem Dev.lossShown_spec (d : Dev) (hn : n < 16) : LossShown n d (d.lossShown n) := by
  rw [Dev.lossShown]
  have h1 : FrameOn ringPart [R.SFX_LOST, R.SFX_STAT] d (d.setSrc n { d.srcS n with last := none }) :=
    (FrameOn.refl ringPart_part _ d).part ringPart_part rfl fun _ => rfl
  have h2 := h1.setReg (a := R.SFX_LOST) ringPart_part (setBit (d.reg R.SFX_LOST) n true) (.head _)
  have s1 := d.srcS_setSrc_self n { d.srcS n with last := none }
  have o1 := fun j hj => d.srcS_setSrc_ne (s := n) (j := j) { d.srcS n with last := none } hj
  have r1 : (d.setSrc n { d.srcS n with last := none }).ring = { d.ring with srcs := (d.setSrc n { d.srcS n with last := none }).ring.srcs } := rfl
  have hr2 := Dev.setReg_ring (d.setSrc n { d.srcS n with last := none }) R.SFX_LOST (setBit (d.reg R.SFX_LOST) n true)
  have hw := Dev.reg_setReg_self (d.setSrc n { d.srcS n with last := none }) R.SFX_LOST (setBit (d.reg R.SFX_LOST) n true)
  have hst : ((d.setSrc n { d.srcS n with last := none }).setReg R.SFX_LOST (setBit (d.reg R.SFX_LOST) n true)).reg R.SFX_STAT = d.reg R.SFX_STAT :=
    Dev.reg_setReg_ne _ _ (by decide)
  have hsafe : ((d.setSrc n { d.srcS n with last := none }).setReg R.SFX_LOST (setBit (d.reg R.SFX_LOST) n true)).safe = d.safe := Dev.setReg_safe _ _ _
  generalize (d.setSrc n { d.srcS n with last := none }).setReg R.SFX_LOST (setBit (d.reg R.SFX_LOST) n true) = u at h2 hr2 hw hst hsafe
  generalize d.setSrc n { d.srcS n with last := none } = v at s1 o1 r1 hr2
  have hlost : ∀ j < 32, u.lost j = if j = n then true else d.lost j := fun j _ => by
    rw [Dev.lost, hw, bitOf_setBit _ (by omega)]
    rfl
  have hf := Dev.ringOk_frame ringPart_part h2 (.tail _ (.head _))
  have hr3 : u.ringOk.ring = u.ring := u.put_ring _ _ _
  have hl3 : u.ringOk.reg R.SFX_LOST = u.reg R.SFX_LOST := u.reg_put_ne _ _ (by decide)
  have hq := u.ringOk.raiseN_quiet Pg.SFX Ev.RING_SRC_LOST n
  have hstat : eventReg R.SFX_STAT = false := by decide
  have hring : (u.ringOk.raiseN Pg.SFX Ev.RING_SRC_LOST n).ring = v.ring := hq.ring.trans (hr3.trans hr2)
  have hreg : (u.ringOk.raiseN Pg.SFX Ev.RING_SRC_LOST n).reg R.SFX_LOST = u.reg R.SFX_LOST := (hq.reg (by decide)).trans hl3
  refine ⟨hf.quiet ringPart_part hq, ?_, fun j hj => ?_, (srcS_of hring n).trans s1, fun j hj => (srcS_of hring j).trans (o1 j hj), ?_, fun f hf => ?_,
    fun hp => ?_, u.ringOk.raiseN_raised n rfl⟩
  · exact (congrArg (bitOf · n) hreg).trans ((hlost n (by omega)).trans (if_pos rfl))
  · rw [Dev.lost, hreg, hw, bitOf_setBit _ (by omega), if_neg hj]
    rfl
  · rw [hring, r1]
  · exact (hq.get hstat f).trans ((Dev.get_put_field u _ _ _ _ _ hf).trans (Dev.get_of_reg hst f))
  · refine (hq.flag hstat _).trans ((u.flag_putB_self _ _ _ rfl (by decide)).trans ?_)
    have hany : u.peers.any u.lost = true := by
      rw [peers_of (congrArg SafeSt.spbM hsafe), List.any_eq_true]
      exact ⟨n, hp, (hlost n (by omega)).trans (if_pos rfl)⟩
    rw [hany, Bool.not_true, Bool.and_false]

/-- What the reaction of a lost source leaves. -/
structure LossRun (d e : Dev) : Prop where
  frame : FrameOn lostPart lostRegs d e
  ring : e.ring = { d.ring with stops := e.ring.stops }
  stat : e.reg R.SFX_STAT = d.reg R.SFX_STAT
  lost : e.reg R.SFX_LOST = d.reg R.SFX_LOST
  spbM : e.safe.spbM = d.safe.spbM

theorem LossRun.refl (d : Dev) : LossRun d d := ⟨FrameOn.refl lostPart_part _ d, rfl, rfl, rfl, rfl⟩

theorem LossRun.of_safe (h : FrameOn Dev.safePart safeRegs d e) (hb : e.safe.spbM = d.safe.spbM) : LossRun d e :=
  have hr : e.ring = d.ring := (congrArg Dev.ring h.1 :)
  ⟨h.safeLost, by rw [hr], h.reg safePart_part (by decide) (by decide), h.reg safePart_part (by decide) (by decide), hb⟩

theorem LossRun.stops (h : LossRun d e) (l : List Nat) : LossRun d { e with ring := { e.ring with stops := l } } :=
  ⟨h.frame.part lostPart_part rfl fun _ => rfl, by
    dsimp only
    rw [h.ring], h.stat, h.lost, h.spbM⟩

theorem Dev.lossActs_run (d : Dev) (act : Nat) : LossRun d (d.lossActs act) := by
  rw [Dev.lossActs]
  split
  · exact .refl d
  · split
    · exact (LossRun.of_safe d.ss1All_spec.1.safeFrame d.ss1All_spec.1.spbM).stops _
    · exact .of_safe (d.tripAll_spec (by decide)).1 (d.tripAll_spec (by decide)).2.1

/-- A source has been lost. -/
structure SrcGone (n : Nat) (d e : Dev) : Prop where
  frame : FrameOn lostPart lostRegs d e
  lost : e.lost n = true
  others : ∀ j, j ≠ n → e.lost j = d.lost j
  src : e.srcS n = { d.srcS n with last := none }
  srcs : SrcElse d e n
  ring : e.ring = { d.ring with srcs := e.ring.srcs, stops := e.ring.stops }
  stat : ∀ f : RField, F.SFX_STAT_RING_OK.lo + fieldWidth F.SFX_STAT_RING_OK ≤ f.lo ∨ f.lo + fieldWidth f ≤ F.SFX_STAT_RING_OK.lo →
    e.get R.SFX_STAT f = d.get R.SFX_STAT f
  ok : n ∈ d.peers → e.flag R.SFX_STAT F.SFX_STAT_RING_OK = false
  told : Raised e Pg.SFX Ev.RING_SRC_LOST
  spbM : e.safe.spbM = d.safe.spbM

theorem Dev.srcLost_gone (d : Dev) (hn : n < 16) : SrcGone n d (d.srcLost n) := by
  rw [Dev.srcLost_eq]
  have h := d.lossShown_spec hn
  generalize d.lossShown n = u at h
  generalize getF (u.spb 0xC08) (F.RS_LACT_LACT n) = act
  have k := u.lossActs_run act
  generalize u.lossActs act = e at k
  have hf : FrameOn lostPart lostRegs d u := h.frame.widen ringPart_part lostPart_part (fun _ _ => rfl) fun a ha => by
    simp only [List.mem_cons, List.not_mem_nil, or_false] at ha
    obtain rfl | rfl := ha
    · exact .head _
    · exact .tail _ (.head _)
  have hs : e.ring.srcs = u.ring.srcs := by rw [k.ring]
  have hlost : ∀ j, e.lost j = u.lost j := fun j => congrArg (bitOf · j) k.lost
  refine ⟨hf.trans lostPart_part k.frame, (hlost n).trans h.lost, fun j hj => (hlost j).trans (h.others j hj), (srcS_of_srcs hs n).trans h.src,
    fun j hj => (srcS_of_srcs hs j).trans (h.srcs j hj), ?_, fun f hf => (Dev.get_of_reg k.stat f).trans (h.stat f hf),
    fun hp => (Dev.flag_of_reg k.stat _).trans (h.ok hp), k.frame.raised lostPart_part (pgEvtRaw_not_lost _) h.told,
    k.spbM.trans (congrArg (fun u : Dev => u.safe.spbM) h.frame.1 :)⟩
  have h1 := k.ring
  have h2 := h.ring
  rw [h2] at h1
  rw [h1]

/-- A lost source's reaction (R399). -/
theorem Dev.srcLost_acts (d : Dev) (hn : n < 16) :
    (getF (d.spb 0xC08) (F.RS_LACT_LACT n) = 0 → Frame { d with ring := (d.srcLost n).ring } (d.srcLost n) [R.SFX_LOST, R.SFX_STAT]) ∧
    (getF (d.spb 0xC08) (F.RS_LACT_LACT n) = 1 → (d.srcLost n).ring.stops = entriesThat d.meEn ∧
      ∀ m, d.meEn m = true → (d.tmS m).ss1 = none → ((d.srcLost n).tmS m).ss1 = some (d.ss1Of m)) ∧
    (2 ≤ getF (d.spb 0xC08) (F.RS_LACT_LACT n) → ∀ m, d.meEn m = true → Latched d (d.srcLost n) m 0xC) := by
  rw [Dev.srcLost_eq]
  have h := d.lossShown_spec hn
  generalize d.lossShown n = u at h
  have hsafe : u.safe = d.safe := (congrArg Dev.safe h.frame.1 :)
  have hspb := congrArg SafeSt.spbM hsafe
  have hen : u.meEn = d.meEn := funext fun m => meEn_of hspb m
  have hst : ∀ m < 20, EntryStands m d u := fun m hm => ⟨tmS_of (congrArg Dev.tm h.frame.1 :) m,
    congrArg (bitOf · m) (h.frame.reg ringPart_part (by decide) (by decide)), fun a ha => h.frame.reg ringPart_part (tmReg_quiet hm ha) (by
      unfold tmReg at ha
      simp only [List.mem_cons, List.not_mem_nil, or_false, R.SFX_LOST, R.SFX_STAT]
      omega)⟩
  have hg : u.gtc = d.gtc := (congrArg Dev.gtc h.frame.1 :)
  rw [spb_of hspb]
  refine ⟨fun h0 => ?_, fun h1 => ?_, fun h2 m hm => ?_⟩
  · rw [h0]
    exact h.frame
  · rw [h1, Dev.lossActs, if_neg (by decide), if_pos rfl]
    refine ⟨by rw [hen], fun m hm hs => ?_⟩
    have hone := u.ss1All_spec.2 m (by rw [hen]; exact hm) ((congrArg TmSt.ss1 (hst m (meEn_lt hm)).tm).trans hs)
    rw [ss1Of_congr hg hspb (hst m (meEn_lt hm))] at hone
    exact hone
  · rw [Dev.lossActs, if_neg (by omega), if_neg (by omega)]
    obtain ⟨l1, l2, l3, l4⟩ := (u.tripAll_spec (cause := 0xC) (by decide)).2.2 m (meEn_lt hm) (by rw [hen]; exact hm)
    exact ⟨l1, l2, l3, by rw [l4, (hst m (meEn_lt hm)).cause]⟩

end
end Sys2Proof.Machine
end

section
/-! PROOFS. Cycles and epochs of the rings, and the obligation about them (R398 to R403). -/

namespace Sys2Proof.Machine

section
variable {d e f : Dev} {m n : Nat}

/-! ### What stands of the rings -/

/-- The rings' state and status stand. -/
structure SfxKept (d e : Dev) : Prop where
  ring : e.ring = d.ring
  lost : e.reg R.SFX_LOST = d.reg R.SFX_LOST
  stat : e.reg R.SFX_STAT = d.reg R.SFX_STAT
  ep : e.reg R.SFX_EP = d.reg R.SFX_EP
  told : ∀ page src, Raised d page src → Raised e page src

theorem SfxKept.refl (d : Dev) : SfxKept d d := ⟨rfl, rfl, rfl, rfl, fun _ _ h => h⟩

theorem SfxKept.trans (h : SfxKept d e) (k : SfxKept e f) : SfxKept d f :=
  ⟨k.ring.trans h.ring, k.lost.trans h.lost, k.stat.trans h.stat, k.ep.trans h.ep, fun p s hr => k.told p s (h.told p s hr)⟩

theorem SfxKept.of_safe (h : FrameOn Dev.safePart safeRegs d e) : SfxKept d e :=
  ⟨(congrArg Dev.ring h.1 :), h.reg safePart_part (by decide) (by decide), h.reg safePart_part (by decide) (by decide),
    h.reg safePart_part (by decide) (by decide), fun _ _ hr => h.raised safePart_part (pgEvtRaw_not_safe _) hr⟩

theorem SfxKept.of_trans (h : TransRun d e) : SfxKept d e :=
  ⟨(congrArg Dev.ring h.1 :), h.read (by decide) (by unfold offTrans; decide), h.read (by decide) (by unfold offTrans; decide),
    h.read (by decide) (by unfold offTrans; decide), fun _ _ hr => h.told hr⟩

theorem SfxKept.of_quiet (h : Quiet d e) : SfxKept d e := ⟨h.ring, h.reg (by decide), h.reg (by decide), h.reg (by decide), fun _ _ hr => h.raised hr⟩

theorem SfxKept.lostOf (h : SfxKept d e) (n : Nat) : e.lost n = d.lost n := congrArg (bitOf · n) h.lost

/-! ### Transitions of the device state (R53, R333) -/

/-- A transition that each machine takes as a step of its own. -/
theorem Dev.goState_run (hlive : d.replaying = false) {new : Nat} (hnew : ∀ m < 20, ∀ u : Dev, u.replaying = false → MachRun m u (u.machDevState m new))
    (cause : Nat) (valid : Bool) : TransRun d (d.goState new cause valid) ∧
      (d.goState new cause valid).devState = (d.setState new cause valid).devState := by
  have hr := d.setState_run new cause valid
  rw [Dev.goState]
  generalize d.setState new cause valid = u at hr ⊢
  have hall : TransRun d (forN 20 (fun m e => e.machDevState m new) u) ∧ (forN 20 (fun m e => e.machDevState m new) u).devState = u.devState := by
    refine forN_keeps (P := fun e => TransRun d e ∧ e.devState = u.devState) 20 (fun m hm e he => ?_) ⟨hr, rfl⟩
    have h := hnew m hm e ((TransRun.live he.1).trans hlive)
    exact ⟨FrameOn.trans transPart_part he.1 (TransRun.mach hm h), (h.devState hm).trans he.2⟩
  have hs0 : TransRun d (u.byS0 fun d => forN 20 (fun m e => e.machDevState m new) d) ∧
      (u.byS0 fun d => forN 20 (fun m e => e.machDevState m new) d).devState = u.devState := by
    rw [Dev.byS0]
    split
    · exact ⟨hr, rfl⟩
    · exact hall
  split
  · exact hs0
  · exact ⟨hr, rfl⟩

/-- A transition with Channel M's grants. -/
theorem Dev.goSafe_run (hlive : d.replaying = false) {new : Nat} (hnew : ∀ m < 20, ∀ u : Dev, u.replaying = false → MachRun m u (u.machDevState m new))
    (cause : Nat) (valid : Bool) : TransRun d (d.goSafe new cause valid) ∧
      (d.goSafe new cause valid).devState = (d.setState new cause valid).devState := by
  obtain ⟨h1, h2⟩ := Dev.goState_run hlive hnew cause valid
  exact ⟨h1.grantAll, (Dev.grantAll_state _).trans h2⟩

theorem Dev.machDevState_overcast (d : Dev) (m : Nat) : d.machDevState m DS.OVERCAST = d := by
  rw [Dev.machDevState]
  split
  · rfl
  · rw [if_neg (by decide), if_neg (by decide), if_neg (by decide)]

theorem Dev.goOvercast_run (hlive : d.replaying = false) (cause : Nat) (valid : Bool) : TransRun d (d.goSafe DS.OVERCAST cause valid) ∧
    (d.goSafe DS.OVERCAST cause valid).devState = (d.setState DS.OVERCAST cause valid).devState :=
  Dev.goSafe_run hlive (fun m _ u _ => by rw [u.machDevState_overcast]; exact .refl m u) cause valid

theorem Dev.goReadySafe_run (hlive : d.replaying = false) (cause : Nat) (valid : Bool) : TransRun d (d.goSafe DS.READY cause valid) ∧
    (d.goSafe DS.READY cause valid).devState = (d.setState DS.READY cause valid).devState :=
  Dev.goSafe_run hlive (fun _ hm u hu => u.machDevState_ready hm hu) cause valid

/-! ### Entry into OVERCAST (R401, R402) -/

theorem Dev.overcastStop_run (d : Dev) (m : Nat) : EntryRun m d (d.overcastStop m) := by
  rw [Dev.overcastStop]
  split
  · exact .setTm d m _
  · rw [Dev.ss1Begin]
    split
    · exact .refl m d
    · exact (EntryRun.setTm d m _).trans (.putStat _ _ _)

/-- The stops of an entry into OVERCAST, noted. -/
def Dev.ovcNoted (d : Dev) : Dev :=
  let u : Dev := { d with safe := { d.safe with ovcMach := (d.overcastSet.map fun m => 2 ^ m).sum, ovcDone := false } }
  { u with ring := { u.ring with clamp := some u.gtc } }

/-- The stops themselves. -/
def Dev.ovcStops (d : Dev) (l : List Nat) : Dev := ((l.foldl (fun e m => e.overcastStop m) d).raise Pg.SFX Ev.OVERCAST_ENTER).overcastDone

theorem Dev.enterOvercast_eq (d : Dev) : d.enterOvercast =
    if (d.ovcNoted.goSafe DS.OVERCAST Ev.OVERCAST_ENTER true).devState = DS.OVERCAST then
      (d.ovcNoted.goSafe DS.OVERCAST Ev.OVERCAST_ENTER true).ovcStops d.overcastSet
    else d.ovcNoted.goSafe DS.OVERCAST Ev.OVERCAST_ENTER true := rfl

theorem Dev.ovcStops_spec (d : Dev) (p : Nat → Bool) : SfxKept d (d.ovcStops (entriesThat p)) ∧
    (d.ovcStops (entriesThat p)).devState = d.devState ∧ Raised (d.ovcStops (entriesThat p)) Pg.SFX Ev.OVERCAST_ENTER := by
  rw [Dev.ovcStops]
  have h1 := (foldl_entries p (g := fun m e => e.overcastStop m) (fun m _ u => u.overcastStop_run m) d).safeFrame
  generalize (entriesThat p).foldl (fun e m => e.overcastStop m) d = u at h1
  have hq := u.raise_quiet Pg.SFX Ev.OVERCAST_ENTER
  have ht := u.raise_raised (page := Pg.SFX) (src := Ev.OVERCAST_ENTER) rfl
  have h2 : FrameOn Dev.safePart safeRegs d (u.raise Pg.SFX Ev.OVERCAST_ENTER) := h1.quiet safePart_part hq
  generalize u.raise Pg.SFX Ev.OVERCAST_ENTER = v at h2 ht
  have h3 := v.overcastDone_run
  have hall := h2.trans safePart_part h3.frame
  exact ⟨.of_safe hall, Dev.get_of_reg (hall.reg safePart_part (by decide) (by decide)) _, h3.kept _ _ ht⟩

theorem Dev.enterOvercast_spec (hlive : d.replaying = false) :
    SfxKept { d with ring := { d.ring with clamp := some d.gtc } } d.enterOvercast ∧
      (d.trans.at1 ≠ d.now + 1 → d.enterOvercast.devState = DS.OVERCAST ∧ Raised d.enterOvercast Pg.SFX Ev.OVERCAST_ENTER) := by
  rw [Dev.enterOvercast_eq]
  have h0 : SfxKept { d with ring := { d.ring with clamp := some d.gtc } } d.ovcNoted := ⟨rfl, rfl, rfl, rfl, fun _ _ h => h⟩
  have hl : d.ovcNoted.replaying = false := hlive
  have ht : d.ovcNoted.trans.at1 = d.trans.at1 ∧ d.ovcNoted.now = d.now := ⟨rfl, rfl⟩
  generalize d.ovcNoted = u at h0 hl ht
  obtain ⟨hr, hs⟩ := Dev.goOvercast_run hl Ev.OVERCAST_ENTER true
  have hst : d.trans.at1 ≠ d.now + 1 → (u.goSafe DS.OVERCAST Ev.OVERCAST_ENTER true).devState = DS.OVERCAST := fun ha =>
    hs.trans (u.setState_taken (new := DS.OVERCAST) (by decide) (by decide) true (.inl (by rw [ht.1, ht.2]; exact ha))).state
  generalize u.goSafe DS.OVERCAST Ev.OVERCAST_ENTER true = v at hr hst
  have h1 := h0.trans (.of_trans hr)
  obtain ⟨k1, k2, k3⟩ := v.ovcStops_spec fun m => d.granted m && !d.tripped m && (drives (d.mState m) || d.mState m == MS.CATCH)
  split
  · next ho => exact ⟨h1.trans k1, fun _ => ⟨k2.trans ho, k3⟩⟩
  · next ho => exact ⟨h1, fun ha => absurd (hst ha) ho⟩

/-! ### A new cycle (R397, R398, R401) -/

/-- A new cycle's number. -/
def Dev.newCycle (d : Dev) : Dev :=
  { d with ring := { d.ring with cyc := some d.cycNow, seq := if d.ring.began then (d.ring.seq + 1) % 2 ^ 32 else d.ring.seq } }

/-- A source that the cycle finds missing. -/
def Dev.cycleLoss (d : Dev) (c : Int) (s : Nat) : Dev :=
  if d.epoch != 0 && d.ring.epCyc != some c && !(d.srcS s).inEpoch && !d.lost s then d.srcLost s else d

/-- The losses of a cycle with the protocol's update. -/
def Dev.cycleLosses (d : Dev) : Dev := (d.newCycle.peers.foldl (fun e s => e.cycleLoss d.cycNow s) d.newCycle).epUpdate

/-- What a split brings. -/
def Dev.cycleSplit (d : Dev) : Dev :=
  if d.isSplit && !d.flag R.SFX_STAT F.SFX_STAT_SPLIT then
    if d.devState = DS.RUN then (d.putB R.SFX_STAT F.SFX_STAT_SPLIT true).enterOvercast
    else if d.devState = DS.READY then d.putB R.SFX_STAT F.SFX_STAT_SPLIT true else d
  else d.overcastDone

theorem Dev.cycleBoundary_eq (h : d.flag R.SAFE_STAT F.SAFE_STAT_SPB_LOADED = true) (hc : d.ring.cyc ≠ some d.cycNow) :
    d.cycleBoundary = d.cycleLosses.cycleSplit := by
  rw [Dev.cycleBoundary]
  exact if_pos (by rw [h, bne_iff_ne.2 hc]; rfl)

theorem Dev.cycleBoundary_same (h : d.ring.cyc = some d.cycNow) : d.cycleBoundary = d := by
  rw [Dev.cycleBoundary]
  exact if_neg (by rw [h, bne_self_eq_false, Bool.and_false]; exact Bool.false_ne_true)

/-- A device reached by the losses of a cycle. -/
structure CycleRun (d e : Dev) : Prop where
  frame : FrameOn lostPart lostRegs d e
  ring : e.ring = { d.ring with srcs := e.ring.srcs, stops := e.ring.stops }
  stat : ∀ f : RField, F.SFX_STAT_RING_OK.lo + fieldWidth F.SFX_STAT_RING_OK ≤ f.lo ∨ f.lo + fieldWidth f ≤ F.SFX_STAT_RING_OK.lo →
    e.get R.SFX_STAT f = d.get R.SFX_STAT f
  inEpoch : ∀ j, (e.srcS j).inEpoch = (d.srcS j).inEpoch
  lost : ∀ j, d.lost j = true → e.lost j = true
  spbM : e.safe.spbM = d.safe.spbM

theorem CycleRun.refl (d : Dev) : CycleRun d d := ⟨FrameOn.refl lostPart_part _ d, rfl, fun _ _ => rfl, fun _ => rfl, fun _ h => h, rfl⟩

theorem CycleRun.gone (h : CycleRun d e) (k : SrcGone n e f) : CycleRun d f := by
  refine ⟨h.frame.trans lostPart_part k.frame, ?_, fun f hf => (k.stat f hf).trans (h.stat f hf), fun j => ?_, fun j hj => ?_, k.spbM.trans h.spbM⟩
  · have h1 := k.ring
    have h2 := h.ring
    rw [h2] at h1
    rw [h1]
  · by_cases hj : j = n
    · subst hj
      rw [k.src]
      exact h.inEpoch _
    · rw [k.srcs j hj]
      exact h.inEpoch j
  · by_cases hn : j = n
    · subst hn
      exact k.lost
    · exact (k.others j hn).trans (h.lost j hj)

/-- Why a cycle finds a source lost. -/
def Dev.misses (d : Dev) (c : Int) (n : Nat) : Prop := d.lost n = true ∨ (d.epoch ≠ 0 ∧ d.ring.epCyc ≠ some c ∧ (d.srcS n).inEpoch = false)

theorem CycleRun.loss (h : CycleRun d e) (hn : n < 16) (c : Int) : CycleRun d (e.cycleLoss c n) ∧ (d.misses c n → (e.cycleLoss c n).lost n = true) := by
  rw [Dev.cycleLoss]
  split
  · have hg := e.srcLost_gone hn
    exact ⟨h.gone hg, fun _ => hg.lost⟩
  · next hno =>
    refine ⟨h, fun hm => ?_⟩
    obtain hl | ⟨h0, hc, hi⟩ := hm
    · exact h.lost n hl
    · have he : e.epoch = d.epoch := h.stat F.SFX_STAT_EPOCH (by decide)
      have hcy : e.ring.epCyc = d.ring.epCyc := by rw [h.ring]
      rw [he, hcy, h.inEpoch, hi, bne_iff_ne.2 h0, bne_iff_ne.2 hc] at hno
      simpa using hno

theorem CycleRun.losses (h : CycleRun d e) (c : Int) {l : List Nat} (hl : ∀ n ∈ l, n < 16) :
    CycleRun d (l.foldl (fun e s => e.cycleLoss c s) e) ∧ ∀ n ∈ l, d.misses c n → (l.foldl (fun e s => e.cycleLoss c s) e).lost n = true := by
  induction l generalizing e with
  | nil => exact ⟨h, fun n hn => nomatch hn⟩
  | cons x l ih =>
    obtain ⟨h1, h2⟩ := h.loss (hl x (List.mem_cons_self ..)) c
    obtain ⟨h3, h4⟩ := ih h1 fun n hn => hl n (List.mem_cons_of_mem _ hn)
    refine ⟨h3, fun n hn hm => ?_⟩
    obtain rfl | hn := List.mem_cons.1 hn
    · have hkeep : ∀ (l : List Nat) (u : Dev), (∀ k ∈ l, k < 16) → u.lost n = true → (l.foldl (fun e s => e.cycleLoss c s) u).lost n = true := fun l u hlt hu =>
        foldl_keeps (P := fun v : Dev => v.lost n = true) (fun k hk v hv => ((CycleRun.refl v).loss (hlt k hk) c).1.lost n hv) hu
      exact hkeep l _ (fun k hk => hl k (List.mem_cons_of_mem _ hk)) (h2 hm)
    · exact h4 n hn hm

/-- The losses of a cycle with the protocol's update. -/
structure CycleDone (d e : Dev) : Prop where
  cyc : e.ring.cyc = some d.cycNow
  seq : e.ring.seq = if d.ring.began then (d.ring.seq + 1) % 2 ^ 32 else d.ring.seq
  lost : ∀ n ∈ d.peers, d.misses d.cycNow n → e.lost n = true
  split : e.flag R.SFX_STAT F.SFX_STAT_SPLIT = d.flag R.SFX_STAT F.SFX_STAT_SPLIT
  spbM : e.safe.spbM = d.safe.spbM
  state : e.devState = d.devState
  live : e.replaying = d.replaying
  trans : e.trans = d.trans
  now : e.now = d.now
  gtc : e.gtc = d.gtc

theorem Dev.cycleLosses_done (d : Dev) : CycleDone d d.cycleLosses := by
  rw [Dev.cycleLosses]
  have hpeers : d.newCycle.peers = d.peers := peers_of rfl
  rw [hpeers]
  obtain ⟨h1, h2⟩ := (CycleRun.refl d.newCycle).losses d.cycNow (l := d.peers) fun n hn => peers_lt hn
  generalize d.peers.foldl (fun e s => e.cycleLoss d.cycNow s) d.newCycle = u at h1 h2
  have hf : FrameOn ringPart [R.SFX_EP, R.SFX_STAT] u u.epUpdate := (FrameOn.refl ringPart_part _ u).epUpdate (by decide) (by decide)
  have hring := u.epUpdate_ring
  have hstat := fun f => u.epUpdate_stat (f := f)
  generalize u.epUpdate = e at hf hring hstat
  have hreg {a : Nat} (ha : eventReg a = false) (hl : a ∉ lostRegs) (hl2 : a ∉ [R.SFX_EP, R.SFX_STAT]) : e.reg a = d.newCycle.reg a :=
    (hf.reg ringPart_part ha hl2).trans (h1.frame.reg lostPart_part ha hl)
  have hcyc : u.ring.cyc = some d.cycNow := by rw [h1.ring]; rfl
  have hseq : u.ring.seq = if d.ring.began then (d.ring.seq + 1) % 2 ^ 32 else d.ring.seq := by rw [h1.ring]; rfl
  refine ⟨(congrArg RingSt.cyc hring :).trans hcyc, (congrArg RingSt.seq hring :).trans hseq, fun n hn hm => ?_, ?_, ?_, ?_, ?_, ?_, ?_, ?_⟩
  · exact (congrArg (bitOf · n) (hf.reg ringPart_part (by decide) (by decide) : e.reg R.SFX_LOST = u.reg R.SFX_LOST)).trans (h2 n hn hm)
  · exact congrArg (· != 0) ((hstat F.SFX_STAT_SPLIT (by decide)).trans (h1.stat F.SFX_STAT_SPLIT (by decide)))
  · exact (congrArg (fun v : Dev => v.safe.spbM) hf.1 :).trans h1.spbM
  · exact Dev.get_of_reg (hreg (a := R.SYS_STATE) (by decide) (by decide) (by decide)) _
  · exact Dev.flag_of_reg (hreg (a := R.RPL_STAT) (by decide) (by decide) (by decide)) _
  · exact (congrArg Dev.trans hf.1 :).trans (congrArg Dev.trans h1.frame.1 :)
  · have hg : e.gtc = d.gtc := (congrArg Dev.gtc hf.1 :).trans (congrArg Dev.gtc h1.frame.1 :)
    have hs : e.rpl.shift = d.rpl.shift := (congrArg (fun v : Dev => v.rpl.shift) hf.1 :).trans (congrArg (fun v : Dev => v.rpl.shift) h1.frame.1 :)
    rw [Dev.now, Dev.now, hg, hs]
  · exact (congrArg Dev.gtc hf.1 :).trans (congrArg Dev.gtc h1.frame.1 :)

end
end Sys2Proof.Machine
end

section
/-! PROOFS. The obligation about the rings' cycles and epochs (R398 to R403). -/

namespace Sys2Proof.Machine

section
variable {d e f : Dev} {m n : Nat}

/-! ### A split (R401) -/

theorem isSplit_of (hp : e.peers = d.peers) (hb : e.safe.spbM = d.safe.spbM)
    (hne : (d.peers.filter fun n => d.rsPart n != d.rsPart d.rsNode) ≠ [])
    (hl : ∀ n ∈ d.peers.filter fun n => d.rsPart n != d.rsPart d.rsNode, e.lost n = true) : e.isSplit = true := by
  have hnode : e.rsNode = d.rsNode := congrArg (getF · F.RS_LOCAL_NODE) (spb_of hb _)
  have hother : (e.peers.filter fun n => e.rsPart n != e.rsPart e.rsNode) = d.peers.filter fun n => d.rsPart n != d.rsPart d.rsNode := by
    rw [hp, hnode]
    exact List.filter_congr fun n _ => by rw [Dev.rsPart, Dev.rsPart, spb_of hb, spb_of hb]; rfl
  rw [Dev.isSplit, hother, List.all_eq_true.2 hl, Bool.and_true, Bool.not_eq_true', List.isEmpty_eq_false_iff]
  exact hne

/-- What stands after a split: the cycle, the sequence number and the lost sources. -/
structure SplitKept (d e : Dev) : Prop where
  cyc : e.ring.cyc = d.ring.cyc
  seq : e.ring.seq = d.ring.seq
  lost : e.reg R.SFX_LOST = d.reg R.SFX_LOST

theorem SplitKept.of_sfx (h : SfxKept d e) : SplitKept d e := ⟨congrArg RingSt.cyc h.ring, congrArg RingSt.seq h.ring, h.lost⟩

theorem SplitKept.trans (h : SplitKept d e) (k : SplitKept e f) : SplitKept d f :=
  ⟨k.cyc.trans h.cyc, k.seq.trans h.seq, k.lost.trans h.lost⟩

/-- The split is shown. -/
def Dev.splitShown (d : Dev) : Dev := d.putB R.SFX_STAT F.SFX_STAT_SPLIT true

theorem Dev.splitShown_kept (d : Dev) : SplitKept d d.splitShown := ⟨rfl, rfl, Dev.reg_put_ne d _ _ (by decide)⟩

theorem Dev.splitShown_flag (d : Dev) : d.splitShown.flag R.SFX_STAT F.SFX_STAT_SPLIT = true := Dev.flag_putB_self _ _ _ _ (by decide) (by decide)

theorem Dev.cycleSplit_kept (hlive : d.replaying = false) : SplitKept d d.cycleSplit := by
  rw [Dev.cycleSplit]
  split
  · split
    · have hl : d.splitShown.replaying = false := (Dev.flag_of_reg (Dev.reg_put_ne d _ _ (by decide)) _).trans hlive
      obtain ⟨h, -⟩ := Dev.enterOvercast_spec hl
      exact d.splitShown_kept.trans ⟨(congrArg RingSt.cyc h.ring :), (congrArg RingSt.seq h.ring :), h.lost⟩
    · split
      · exact d.splitShown_kept
      · exact ⟨rfl, rfl, rfl⟩
  · exact .of_sfx (.of_safe d.overcastDone_run.frame)

theorem Dev.cycleSplit_run (hlive : d.replaying = false) (hs : d.isSplit = true) (hf : d.flag R.SFX_STAT F.SFX_STAT_SPLIT = false)
    (hst : d.devState = DS.RUN) (ha : d.trans.at1 ≠ d.now + 1) :
    d.cycleSplit.flag R.SFX_STAT F.SFX_STAT_SPLIT = true ∧ d.cycleSplit.devState = DS.OVERCAST ∧ d.cycleSplit.ring.clamp = some d.gtc ∧
      Raised d.cycleSplit Pg.SFX Ev.OVERCAST_ENTER := by
  rw [Dev.cycleSplit, hs, hf, if_pos (by decide), if_pos hst]
  have hl : d.splitShown.replaying = false := (Dev.flag_of_reg (Dev.reg_put_ne d _ _ (by decide)) _).trans hlive
  obtain ⟨h, k⟩ := Dev.enterOvercast_spec hl
  obtain ⟨k1, k2⟩ := k ha
  exact ⟨(Dev.flag_of_reg h.stat _).trans d.splitShown_flag, k1, congrArg RingSt.clamp h.ring, k2⟩

theorem Dev.cycleSplit_ready (hs : d.isSplit = true) (hf : d.flag R.SFX_STAT F.SFX_STAT_SPLIT = false) (hst : d.devState = DS.READY) :
    d.cycleSplit.flag R.SFX_STAT F.SFX_STAT_SPLIT = true ∧ d.cycleSplit.devState = DS.READY := by
  rw [Dev.cycleSplit, hs, hf, if_pos (by decide), if_neg (by rw [hst]; decide), if_pos hst]
  exact ⟨d.splitShown_flag, (Dev.get_of_reg (Dev.reg_put_ne d _ _ (by decide)) _).trans hst⟩

/-! ### The commit of an epoch (R400, R402) -/

/-- The registers that a commit writes first. -/
def Dev.epochRegs (d : Dev) : Dev := ((d.put R.SFX_STAT F.SFX_STAT_EPOCH d.epNew).putB R.SFX_STAT F.SFX_STAT_SPLIT false).setReg R.SFX_LOST 0

/-- A source in a new epoch. -/
def SrcSt.fresh (v : SrcSt) (t : Nat) : SrcSt := { v with last := none, accAt := t, inEpoch := false }

/-- All sources in a new epoch. -/
def Dev.epochSources (d : Dev) : Dev := d.peers.foldl (fun e n => e.setSrc n ((e.srcS n).fresh (e.gtc + 1))) d

/-- The commit cycle, noted. -/
def Dev.epochCycle (d : Dev) : Dev := { d with ring := { d.ring with epCyc := some d.cycNow } }

/-- A commit, without the return from OVERCAST. -/
def Dev.epochBegun (d : Dev) : Dev := d.epochRegs.epNormal.epochSources.epochCycle.ringOk.raise Pg.SFX Ev.EPOCH_COMMIT

theorem Dev.epochCommit_eq {c : Int} (hc : d.ring.commitAt = some c) (hp : d.epPh = 2) (hn : c ≤ d.cycNow) : d.epochCommit =
    if d.epochBegun.devState = DS.OVERCAST then d.epochBegun.goSafe DS.READY Ev.EPOCH_COMMIT true else d.epochBegun := by
  rw [Dev.epochCommit, hc]
  exact if_pos ⟨hp, hn⟩

/-- Sources in a new epoch, one after the other. -/
structure SrcRun (t : Nat) (l : List Nat) (d e : Dev) : Prop where
  frame : Frame { d with ring := e.ring } e []
  ring : e.ring = { d.ring with srcs := e.ring.srcs }
  fresh : ∀ n ∈ l, (e.srcS n).last = none ∧ (e.srcS n).inEpoch = false ∧ (e.srcS n).accAt = t

theorem Dev.epochSources_run (d : Dev) : SrcRun (d.gtc + 1) d.peers d d.epochSources := by
  have hrun : ∀ (l done : List Nat) (u : Dev), SrcRun (d.gtc + 1) done d u →
      SrcRun (d.gtc + 1) (l ++ done) d (l.foldl (fun e n => e.setSrc n ((e.srcS n).fresh (e.gtc + 1))) u) := by
    intro l
    induction l with
    | nil => exact fun _ _ h => h
    | cons x l ih =>
      intro done u h
      have hg : u.gtc = d.gtc := (congrArg Dev.gtc h.frame.1 :)
      have hstep : SrcRun (d.gtc + 1) (x :: done) d (u.setSrc x ((u.srcS x).fresh (u.gtc + 1))) := by
        refine ⟨FrameOn.part (p := ringPart) ringPart_part h.frame rfl fun _ => rfl, by rw [Dev.setSrc, h.ring], fun n hn => ?_⟩
        by_cases hx : n = x
        · subst hx
          rw [u.srcS_setSrc_self, hg]
          exact ⟨rfl, rfl, rfl⟩
        · rw [u.srcS_setSrc_ne _ hx]
          exact h.fresh n ((List.mem_cons.1 hn).resolve_left hx)
      have hall := ih (x :: done) _ hstep
      exact ⟨hall.frame, hall.ring, fun n hn => hall.fresh n (by simpa [or_comm, or_left_comm, or_assoc] using hn)⟩
  simpa [Dev.epochSources] using hrun d.peers [] d ⟨FrameOn.refl ringPart_part _ d, rfl, fun _ h => nomatch h⟩

/-- What a commit brings. -/
structure EpochOn (d e : Dev) : Prop where
  epoch : e.epoch = d.epNew
  ph : e.epPh = 0
  lost : e.reg R.SFX_LOST = 0
  ep : e.reg R.SFX_EP = 0
  split : e.flag R.SFX_STAT F.SFX_STAT_SPLIT = false
  ok : e.flag R.SFX_STAT F.SFX_STAT_RING_OK = (d.epNew != 0)
  commitAt : e.ring.commitAt = none
  told : Raised e Pg.SFX Ev.EPOCH_COMMIT
  fresh : ∀ n ∈ d.peers, (e.srcS n).last = none ∧ (e.srcS n).inEpoch = false ∧ (e.srcS n).accAt = d.gtc + 1

theorem EpochOn.kept (h : EpochOn d e) (k : SfxKept e f) : EpochOn d f :=
  ⟨(Dev.get_of_reg k.stat _).trans h.epoch, (Dev.get_of_reg k.stat _).trans h.ph, k.lost.trans h.lost, k.ep.trans h.ep,
    (Dev.flag_of_reg k.stat _).trans h.split, (Dev.flag_of_reg k.stat _).trans h.ok, (congrArg RingSt.commitAt k.ring).trans h.commitAt,
    k.told _ _ h.told, fun n hn => by rw [srcS_of k.ring]; exact h.fresh n hn⟩

theorem Dev.epNew_lt (d : Dev) : d.epNew < 2 ^ 16 := getF_lt _ _

theorem lost_zero (h : d.reg R.SFX_LOST = 0) (n : Nat) : d.lost n = false := by
  rw [Dev.lost, h]
  simp [bitOf]

theorem Dev.epochRegs_frame (d : Dev) : FrameOn ringPart [R.SFX_STAT, R.SFX_LOST, R.SFX_EP] d d.epochRegs :=
  (((FrameOn.refl ringPart_part _ d).put ringPart_part _ _ (by decide)).putB ringPart_part _ _ (by decide)).setReg ringPart_part _ (by decide)

theorem Dev.epochRegs_epoch (d : Dev) : d.epochRegs.epoch = d.epNew :=
  (Dev.get_of_reg (Dev.reg_setReg_ne _ 0 (by decide)) _).trans
    ((Dev.get_put_field _ _ _ _ _ _ (by decide)).trans ((d.get_put_self R.SFX_STAT F.SFX_STAT_EPOCH _ (by decide)).trans (Nat.mod_eq_of_lt d.epNew_lt)))

theorem Dev.epochRegs_split (d : Dev) : d.epochRegs.flag R.SFX_STAT F.SFX_STAT_SPLIT = false :=
  (Dev.flag_of_reg (Dev.reg_setReg_ne _ 0 (by decide)) _).trans (Dev.flag_putB_self _ _ _ _ (by decide) (by decide))

theorem Dev.epochRegs_lost (d : Dev) : d.epochRegs.reg R.SFX_LOST = 0 := Dev.reg_setReg_self _ _ _

/-- A frame with the rings' state given, as one that takes it from the result. -/
theorem FrameOn.of_ring {r : RingSt} {l : List Nat} (h : Frame { d with ring := r } e l) (hr : e.ring = r) : FrameOn ringPart l d e := by
  subst hr
  exact h

/-- The registers of a commit with the protocol at rest. -/
structure EpochRegs (d e : Dev) : Prop where
  frame : FrameOn ringPart [R.SFX_STAT, R.SFX_LOST, R.SFX_EP] d e
  epoch : e.epoch = d.epNew
  ph : e.epPh = 0
  lost : e.reg R.SFX_LOST = 0
  ep : e.reg R.SFX_EP = 0
  split : e.flag R.SFX_STAT F.SFX_STAT_SPLIT = false
  commitAt : e.ring.commitAt = none

theorem Dev.epNormal_ring (d : Dev) : d.epNormal.ring = { d.ring with okP := false, okM := false, commitAt := none } := rfl

theorem Dev.epNormal_on (d : Dev) : FrameOn ringPart [R.SFX_EP, R.SFX_STAT] d d.epNormal := FrameOn.of_ring d.epNormal_spec.1 d.epNormal_ring

theorem Dev.epNormal_split (d : Dev) : d.epNormal.flag R.SFX_STAT F.SFX_STAT_SPLIT = d.flag R.SFX_STAT F.SFX_STAT_SPLIT := by
  rw [Dev.flag_of_reg (d.epNormal_reg _), Dev.flag, d.epRegs_get _ (by decide)]
  rfl

theorem Dev.epNormal_commitAt (d : Dev) : d.epNormal.ring.commitAt = none := congrArg RingSt.commitAt d.epNormal_ring

theorem Dev.epochNormal_spec (d : Dev) : EpochRegs d d.epochRegs.epNormal := by
  have h0 := d.epochRegs_frame
  have h1 := d.epochRegs_epoch
  have h2 := d.epochRegs_split
  have h3 := d.epochRegs_lost
  generalize d.epochRegs = u at h0 h1 h2 h3
  obtain ⟨-, hep, hph, hepoch⟩ := u.epNormal_spec
  have hf := u.epNormal_on
  have hs := u.epNormal_split
  have hc := u.epNormal_commitAt
  generalize u.epNormal = v at hep hph hepoch hf hs hc
  have hf' : FrameOn ringPart [R.SFX_STAT, R.SFX_LOST, R.SFX_EP] u v := hf.mono (by decide)
  exact ⟨h0.trans ringPart_part hf', hepoch.trans h1, hph, (hf.reg ringPart_part (by decide) (by decide)).trans h3, hep, hs.trans h2, hc⟩

theorem SrcRun.on {t : Nat} {l : List Nat} (h : SrcRun t l d e) (k : List Nat) : FrameOn ringPart k d e :=
  ⟨h.frame.1, fun a ha _ => h.frame.2.1 a ha List.not_mem_nil, fun q i _ => h.frame.2.2 q i List.not_mem_nil⟩

theorem EpochRegs.of_reg (h : EpochRegs d e) (hf : FrameOn ringPart [R.SFX_STAT, R.SFX_LOST, R.SFX_EP] d f)
    (hreg : ∀ a, eventReg a = false → f.reg a = e.reg a) (hat : f.ring.commitAt = e.ring.commitAt) : EpochRegs d f :=
  ⟨hf, (Dev.get_of_reg (hreg _ (by decide)) _).trans h.epoch, (Dev.get_of_reg (hreg _ (by decide)) _).trans h.ph,
    (hreg _ (by decide)).trans h.lost, (hreg _ (by decide)).trans h.ep, (Dev.flag_of_reg (hreg _ (by decide)) _).trans h.split, hat.trans h.commitAt⟩

theorem Dev.epochCycle_on (h : FrameOn ringPart [R.SFX_STAT, R.SFX_LOST, R.SFX_EP] d e) :
    FrameOn ringPart [R.SFX_STAT, R.SFX_LOST, R.SFX_EP] d e.epochCycle := h.part ringPart_part rfl fun _ => rfl

theorem EpochRegs.sources (h : EpochRegs d e) : EpochRegs d e.epochSources.epochCycle ∧
    ∀ n ∈ d.peers, (e.epochSources.epochCycle.srcS n).last = none ∧ (e.epochSources.epochCycle.srcS n).inEpoch = false ∧
      (e.epochSources.epochCycle.srcS n).accAt = d.gtc + 1 := by
  have hpeers : e.peers = d.peers := peers_of (congrArg (fun v : Dev => v.safe.spbM) h.frame.1 :)
  have hgtc : e.gtc = d.gtc := (congrArg Dev.gtc h.frame.1 :)
  have hs := e.epochSources_run
  rw [hpeers, hgtc] at hs
  generalize e.epochSources = v at hs
  have hat : v.ring.commitAt = e.ring.commitAt := (congrArg RingSt.commitAt hs.ring :)
  refine ⟨h.of_reg (Dev.epochCycle_on (h.frame.trans ringPart_part (hs.on _))) (fun a ha => hs.frame.2.1 a ha List.not_mem_nil) hat, fun n hn => ?_⟩
  exact hs.fresh n hn

theorem EpochRegs.allThere (h : EpochRegs d e) : (e.epoch != 0 && !e.peers.any e.lost) = (d.epNew != 0) := by
  have hany : e.peers.any e.lost = false := List.any_eq_false.2 fun n _ => by rw [lost_zero h.lost]; exact Bool.false_ne_true
  rw [h.epoch, hany, Bool.not_false, Bool.and_true]

theorem EpochRegs.ringOk (h : EpochRegs d e) : EpochRegs d e.ringOk ∧ e.ringOk.flag R.SFX_STAT F.SFX_STAT_RING_OK = (d.epNew != 0) := by
  rw [Dev.ringOk, h.allThere]
  have hset := fun (g : RField) (hg : F.SFX_STAT_RING_OK.lo + fieldWidth F.SFX_STAT_RING_OK ≤ g.lo ∨ g.lo + fieldWidth g ≤ F.SFX_STAT_RING_OK.lo) =>
    Dev.get_put_field e R.SFX_STAT R.SFX_STAT F.SFX_STAT_RING_OK g (b2n (d.epNew != 0)) hg
  refine ⟨⟨h.frame.putB ringPart_part _ _ (by decide), (hset _ (by decide)).trans h.epoch, (hset _ (by decide)).trans h.ph,
    (Dev.reg_put_ne e _ _ (by decide)).trans h.lost, (Dev.reg_put_ne e _ _ (by decide)).trans h.ep, ?_, h.commitAt⟩,
    Dev.flag_putB_self _ _ _ _ (by decide) (by decide)⟩
  exact (congrArg (· != 0) (hset F.SFX_STAT_SPLIT (by decide)) :).trans h.split

theorem EpochRegs.on (h : EpochRegs d e) (hok : e.flag R.SFX_STAT F.SFX_STAT_RING_OK = (d.epNew != 0))
    (hsrc : ∀ n ∈ d.peers, (e.srcS n).last = none ∧ (e.srcS n).inEpoch = false ∧ (e.srcS n).accAt = d.gtc + 1) (hq : Quiet e f)
    (hr : Raised f Pg.SFX Ev.EPOCH_COMMIT) : EpochOn d f :=
  ⟨(hq.get (by decide) _).trans h.epoch, (hq.get (by decide) _).trans h.ph, (hq.reg (by decide)).trans h.lost, (hq.reg (by decide)).trans h.ep,
    (hq.flag (by decide) _).trans h.split, (hq.flag (by decide) _).trans hok, (congrArg RingSt.commitAt hq.ring).trans h.commitAt, hr,
    fun n hn => by rw [srcS_of hq.ring]; exact hsrc n hn⟩

theorem Dev.epochBegun_spec (d : Dev) : FrameOn ringPart [R.SFX_STAT, R.SFX_LOST, R.SFX_EP] d d.epochBegun ∧ EpochOn d d.epochBegun := by
  rw [Dev.epochBegun]
  have h := d.epochNormal_spec
  generalize d.epochRegs.epNormal = u at h
  obtain ⟨h1, hsrc⟩ := h.sources
  generalize u.epochSources.epochCycle = w at h1 hsrc
  obtain ⟨h2, hok⟩ := h1.ringOk
  have hsrc' : ∀ n, w.ringOk.srcS n = w.srcS n := fun n => srcS_of_srcs rfl n
  generalize w.ringOk = x at h2 hok hsrc'
  have hq := x.raise_quiet Pg.SFX Ev.EPOCH_COMMIT
  exact ⟨h2.frame.quiet ringPart_part hq, h2.on hok (fun n hn => by rw [hsrc' n]; exact hsrc n hn) hq (x.raise_raised rfl)⟩

theorem Dev.epochCommit_on (hlive : d.replaying = false) {c : Int} (hc : d.ring.commitAt = some c) (hp : d.epPh = 2) (hn : c ≤ d.cycNow) :
    EpochOn d d.epochCommit ∧ (d.devState ≠ DS.OVERCAST → Frame { d with ring := d.epochCommit.ring } d.epochCommit [R.SFX_STAT, R.SFX_LOST, R.SFX_EP]) ∧
      (d.devState = DS.OVERCAST → d.trans.at1 ≠ d.now + 1 → d.epochCommit.devState = DS.READY) := by
  rw [Dev.epochCommit_eq hc hp hn]
  obtain ⟨hf, he⟩ := d.epochBegun_spec
  generalize d.epochBegun = u at hf he
  have hst : u.devState = d.devState := Dev.get_of_reg (hf.reg ringPart_part (by decide) (by decide)) _
  have hl : u.replaying = false := (Dev.flag_of_reg (hf.reg ringPart_part (by decide) (by decide)) _).trans hlive
  rw [hst]
  split
  · next ho =>
    obtain ⟨hr, hs⟩ := Dev.goReadySafe_run hl Ev.EPOCH_COMMIT true
    refine ⟨he.kept (.of_trans hr), fun hne => absurd ho hne, fun _ ha => ?_⟩
    have ht : u.trans = d.trans := (congrArg Dev.trans hf.1 :)
    have hg : u.gtc = d.gtc := (congrArg Dev.gtc hf.1 :)
    have hsh : u.rpl.shift = d.rpl.shift := (congrArg (fun v : Dev => v.rpl.shift) hf.1 :)
    have hnow : u.now = d.now := by rw [Dev.now, Dev.now, hg, hsh]
    exact hs.trans (u.setState_taken (new := DS.READY) (by decide) (by decide) true (.inl (by rw [ht, hnow]; exact ha))).state
  · next ho => exact ⟨he, fun _ => hf, fun h => absurd h ho⟩

/-! ### The poll (R403) -/

theorem PollRun.defined (h : PollRun d e) (j : Nat) : e.mDefined j = d.mDefined j := by
  rw [Dev.mDefined, Dev.mDefined, h.defd]

theorem Dev.ringPoll_stopped (hlive : d.replaying = false) (hm : m ∈ d.ring.stops) (hdef : d.mDefined m = true)
    (hdis : ∀ j g, j ≠ m → g ∈ d.mGroups m → g ∉ d.mGroups j) (hst : d.mState m = MS.RUN) (hc : d.cmdLoses m = false)
    (ht : (d.machS m).target = none) (hk : d.safe.keep = 0) (hcl : d.ring.clamp = none ∨ ¬d.someLow m) :
    d.ringPoll.mState m = MS.STOP ∧ d.ringPoll.mStat m F.MD_CAUSE = 0 ∧ Raised d.ringPoll Pg.SAFE Ev.MACH_STATE := by
  have hr := Dev.pollStops_ring hlive d.ring.stops
  have h : PollStopped m d d.stopsDone := (Dev.pollStops_stopped hm hlive hdef hst hc ht hk).kept (.ring _ m _)
  cases hcc : d.ring.clamp with
  | none =>
    rw [Dev.ringPoll_none hcc hr]
    exact ⟨h.state, h.cause, h.told⟩
  | some t =>
    rw [Dev.ringPoll_some hcc hr]
    split
    · exact h.pollClamps hlive ((h.run.defined m).trans hdef) hdis (hcl.resolve_left (by rw [hcc]; exact Option.some_ne_none t)) t
    · exact ⟨h.state, h.cause, h.told⟩

theorem Dev.ringPoll_clamped (hlive : d.replaying = false) (hm : m ∉ d.ring.stops) (hdef : d.mDefined m = true)
    (hdis : ∀ j g, j ≠ m → g ∈ d.mGroups m → g ∉ d.mGroups j) {t : Nat} (hc : d.ring.clamp = some t)
    (ht : (d.machS m).ovcDem.map (·.2) ≠ some t) (ho : d.devState = DS.OVERCAST) : Clamped m d d.ringPoll := by
  have hr := Dev.pollStops_ring hlive d.ring.stops
  have hk : PollKept m d d.stopsDone := (PollKept.pollStops hlive (mDefined_lt hdef) hm).trans (.ring _ m _)
  rw [Dev.ringPoll_some hc hr, if_pos (hk.run.state.trans ho)]
  refine Clamped.base (Dev.pollClamps_clamped (hk.run.live.trans hlive) ((hk.run.defined m).trans hdef) (fun j g hj hg => ?_) ?_) hk
  · rw [hk.run.groups] at hg ⊢
    exact hdis j g hj hg
  · rw [hk.own]
    exact ht

end

/-- Settles O46. -/
theorem ringEpochs : Obligations.RingEpochs := by
  intro s ⟨hup, hlive⟩ d alone runs
  refine ⟨fun n t hr hd ht hn hl => ?_, fun hr hld hc => ?_, fun hc => ?_, fun c hr hc hp hn => ?_, fun hh => ?_, fun hh => ?_⟩
  · have hlt := peers_lt hn
    have heq : d.ringSrcLost n = d.srcLost n := by
      rw [Dev.ringSrcLost, hd]
      exact if_pos (by rw [List.contains_iff_mem.2 hn, hl, decide_eq_true ht]; rfl)
    obtain ⟨h1, h2, h3⟩ := d.srcLost_acts hlt
    have h := d.srcLost_gone hlt
    exact ⟨_, onDev_eq hup ((Dev.clocked_runs hr fun d => d.ringSrcLost n).trans heq), h.lost, h.others, h.srcs, congrArg SrcSt.last h.src,
      h.ok hn, h.told, h1, h2, h3⟩
  · have h := d.cycleLosses_done
    have heq := Dev.cycleBoundary_eq hld hc
    generalize d.cycleLosses = u at h heq
    have hl : u.replaying = false := h.live.trans hlive
    have hk := Dev.cycleSplit_kept hl
    refine ⟨_, onDev_eq hup ((Dev.clocked_runs hr Dev.cycleBoundary).trans heq), hk.cyc.trans h.cyc, hk.seq.trans h.seq, fun n hn hx => ?_,
      fun hne hall hs => ?_⟩
    · exact (congrArg (bitOf · n) hk.lost :).trans (h.lost n hn hx)
    · have hsplit : u.isSplit = true := isSplit_of (peers_of h.spbM) h.spbM hne fun n hn => h.lost n (List.mem_filter.1 hn).1 (hall n hn)
      refine ⟨fun hst ha => ?_, fun hst => Dev.cycleSplit_ready hsplit (h.split.trans hs) (h.state.trans hst)⟩
      obtain ⟨k1, k2, k3, k4⟩ := Dev.cycleSplit_run hl hsplit (h.split.trans hs) (h.state.trans hst) (by rw [h.trans, h.now]; exact ha)
      exact ⟨k1, k2, k3.trans (congrArg some h.gtc), k4⟩
  · exact onDev_same hup (Dev.clocked_same _ (Dev.cycleBoundary_same hc))
  · obtain ⟨h, h1, h2⟩ := Dev.epochCommit_on hlive hc hp hn
    exact ⟨_, onDev_eq hup (Dev.clocked_runs hr Dev.epochCommit), h.epoch, h.ph, h.lost, h.ep, h.split, h.ok, h.commitAt, h.told, h.fresh, h1, h2⟩
  · exact onDev_same hup (Dev.byS0_held hh _)
  · refine ⟨_, onDev_eq hup (Dev.byS0_runs hh Dev.ringPoll), Dev.ringPoll_ring hlive, fun m hdef hdis => ⟨fun hm hst hc ht hk hcl => ?_,
      fun t hm hc ht ho => ?_⟩⟩
    · exact Dev.ringPoll_stopped hlive hm hdef hdis hst hc ht hk hcl
    · have h := Dev.ringPoll_clamped hlive hm hdef hdis hc ht ho
      exact ⟨h.sto, h.stop, fun a b => (h.stays a b).1⟩

end Sys2Proof.Machine
end

section
/-! PROOFS. Gate drivers that become ready or do not (R302, R303). -/

namespace Sys2Proof.Machine

section
variable {d e f : Dev} {g m c : Nat}

/-- A property of both branches. -/
theorem ite_both {P : Dev → Prop} {b : Prop} [Decidable b] (h1 : b → P e) (h2 : ¬b → P f) : P (if b then e else f) := by
  split
  · next h => exact h1 h
  · next h => exact h2 h

/-! ### Writes of a context leave the groups -/

theorem Dev.ctxDiscard_grp (d : Dev) (c : Nat) : (d.ctxDiscard c).grp = d.grp := by
  rw [Dev.ctxDiscard]
  cases (d.ctxS c).pend with
  | none => rfl
  | some p =>
    dsimp only
    split <;> rfl

theorem Dev.ctxEnable_grp (d : Dev) (c : Nat) (was : Bool) : (d.ctxEnable c was).grp = d.grp := by
  rw [Dev.ctxEnable]
  split
  · have hevent : ((((d.putB (R.CTX_STAT c) F.CTX_STAT_CFG_ERR true).put (R.CTX_STAT c) F.CTX_STAT_CAUSE (d.ctxCause c)).ctxEvent c Ev.CTX_CFG_ERR)).grp =
        d.grp := (Dev.raiseN_quiet _ _ _ _).grp
    split
    · exact (Dev.ctxDiscard_grp _ c).trans hevent
    · exact hevent
  · rfl

theorem Dev.ctxPlain_grp (d : Dev) (hc : c < 192) (mid : Nat) (w : Word) : (d.plainWrite mid (R.CTX_CTRL c) w).grp = d.grp :=
  (d.plainWrite_frame (inBlock_ctx hc (n := 0) (by decide)).1 (fun _ h => h) mid w).absGrp

theorem Dev.denyIf_grp (d : Dev) (b : Bool) (page : Nat) : (d.denyIf b page).grp = d.grp := by
  rw [Dev.denyIf]
  split <;> rfl

theorem Dev.ctxCtrlWrite_grp (d : Dev) (hc : c < 192) (mid : Nat) (w : Word) : (d.ctxCtrlWrite mid c w).grp = d.grp := by
  have hden := fun w' b => (Dev.denyIf_grp (d.plainWrite mid (R.CTX_CTRL c) w') b (Pg.CTX (c / 8))).trans (d.ctxPlain_grp hc mid w')
  rw [Dev.ctxCtrlWrite]
  refine ite_both (P := fun u : Dev => u.grp = d.grp) (fun _ => hden _ _) fun _ => ite_both (P := fun u : Dev => u.grp = d.grp) (fun _ => ?_) fun _ => ?_
  · exact ite_both (P := fun u : Dev => u.grp = d.grp) (fun _ => hden _ _) fun _ => (Dev.ctxEnable_grp _ c _).trans (hden _ _)
  · exact ite_both (P := fun u : Dev => u.grp = d.grp) (fun _ => (Dev.ctxDiscard_grp _ c).trans (hden _ _)) fun _ => hden _ _

theorem Dev.absentWrite_grp (d : Dev) (mid page : Nat) : (d.absentWrite mid page).grp = d.grp :=
  ((FrameOn.refl absPart_part [R.SYS_ABSENT_CNT] d).absCount (List.mem_singleton_self _) mid page).absGrp

theorem Dev.mCtx_grp (d : Dev) (hlive : d.replaying = false) (c : Nat) (on : Bool) : (d.mCtx c on).grp = d.grp := by
  rw [Dev.mCtx]
  split
  · next hc =>
    rw [Bool.and_eq_true] at hc
    have hlt := ctx_lt hc.1
    obtain ⟨hb, -, hoff⟩ := inBlock_ctx hlt (n := 0) (by decide)
    rw [show ctxA c 0 = R.CTX_CTRL c by simp [ctxA]] at hb hoff
    refine Dev.pWrite_keeps (P := fun u : Dev => u.grp = d.grp) (a := R.CTX_CTRL c) hlive hb (fun _ _ => d.absentWrite_grp _ _) ?_
      fun _ _ hq hu => hq.grp.trans hu
    generalize setF (d.reg (R.CTX_CTRL c)) F.CTX_CTRL_EN (b2n on) = w
    have hroute : d.routeWrite Mid.S0 .ctxB (c / 8) (offOf (R.CTX_CTRL c)) (R.CTX_CTRL c) w =
      d.ctxPageWrite Mid.S0 (c / 8) (offOf (R.CTX_CTRL c)) (R.CTX_CTRL c) w := rfl
    have hctx : 8 * (c / 8) + (0x40 + 0x1C0 * (c % 8) + 4 * 0 - 0x40) / 0x1C0 = c := by omega
    have hword : (0x40 + 0x1C0 * (c % 8) + 4 * 0 - 0x40) % 0x1C0 / 4 = 0 := by omega
    rw [hroute, hoff, Dev.ctxPageWrite, hctx, hword,
      if_neg (show ¬0xE40 ≤ 0x40 + 0x1C0 * (c % 8) + 4 * 0 by omega), if_pos rfl]
    refine (Dev.ctxCtrlWrite_grp _ hlt _ _).trans ?_
    split
    · rw [Dev.ctxMend]
      split <;> rfl
    · rfl
  · rfl

/-! ### A group's ready wait while its machine falls back -/

/-- No ready wait begins, and DRDYgg stands. -/
structure IdleKept (g : Nat) (d e : Dev) : Prop where
  wait : (d.grpS g).waitAt = none → (e.grpS g).waitAt = none
  drdy : e.drdy g = d.drdy g

theorem IdleKept.refl (g : Nat) (d : Dev) : IdleKept g d d := ⟨id, rfl⟩

theorem IdleKept.trans (h : IdleKept g d e) (k : IdleKept g e f) : IdleKept g d f := ⟨fun hw => k.wait (h.wait hw), k.drdy.trans h.drdy⟩

theorem IdleKept.of_gates (h : GatesKept d e) (hg : g < 12) (hgrp : e.grp = d.grp) : IdleKept g d e :=
  ⟨fun hw => by rwa [Dev.grpS, hgrp], h.drdy g hg⟩

theorem Dev.beginCheck_wait (d : Dev) (g k : Nat) : ((d.beginCheck g).grpS k).waitAt = (d.grpS k).waitAt := by
  rw [Dev.beginCheck]
  split
  · rw [Dev.grpS_setGrp]
    split
    · next h => rw [h]
    · rfl
  · rfl

theorem Dev.setGenP_wait (d : Dev) (k : Nat) (hw : (d.grpS g).waitAt = none) : ((d.setGenP k false).grpS g).waitAt = none := by
  rw [Dev.setGenP]
  split
  · exact hw
  · split
    · exact hw
    · rw [if_neg Bool.false_ne_true, Dev.beginCheck_wait, Dev.grpS_setGrp]
      split
      · rfl
      · exact hw

theorem IdleKept.setGenP (d : Dev) (hg : g < 12) (k : Nat) : IdleKept g d (d.setGenP k false) := ⟨d.setGenP_wait k, d.drdy_setGenP hg k false⟩

theorem Dev.setGenM_wait (d : Dev) (k g : Nat) (b : Bool) : ((d.setGenM k b).grpS g).waitAt = (d.grpS g).waitAt := by
  rw [Dev.setGenM]
  refine ite_both (P := fun u : Dev => (u.grpS g).waitAt = (d.grpS g).waitAt) (fun _ => rfl) fun _ =>
    ite_both (P := fun u : Dev => (u.grpS g).waitAt = (d.grpS g).waitAt) (fun _ => rfl) fun _ => ?_
  exact ite_both (P := fun u : Dev => (u.grpS g).waitAt = (d.grpS g).waitAt) (fun _ => rfl) fun _ => Dev.beginCheck_wait _ _ _

theorem IdleKept.setGenM (d : Dev) (hg : g < 12) (k : Nat) (b : Bool) : IdleKept g d (d.setGenM k b) :=
  ⟨fun hw => (d.setGenM_wait k g b).trans hw, d.drdy_setGenM hg k b⟩

theorem IdleKept.mDrop (d : Dev) (hg : g < 12) (m : Nat) : IdleKept g d (d.mDrop m) :=
  foldl_keeps (P := IdleKept g d) (fun k _ u hu => hu.trans (.setGenP u hg k)) (.refl g d)

theorem Dev.legForceWrite_wait (d : Dev) {k x : Nat} (hk : k < 20) (hx : x < 3) (mid : Nat) (w : Word) :
    ((d.legForceWrite mid k x w).grpS g).waitAt = (d.grpS g).waitAt := by
  obtain ⟨b, i, hb, -⟩ := inBlock_pwtLeg k hk x hx
  have hplain : (d.plainWrite mid (R.PWT_LEG k x) w).grp = d.grp := (d.plainWrite_frame hb (fun _ h => h) mid w).absGrp
  have hgrp : (d.plainWrite mid (R.PWT_LEG k x) w).grpS g = d.grpS g := by rw [Dev.grpS, hplain]; rfl
  have hleg : ∀ q, (((d.plainWrite mid (R.PWT_LEG k x) w).setLeg k x q).grpS g).waitAt = (d.grpS g).waitAt := fun q => by
    rw [Dev.setLeg, Dev.grpS_setGrp, ← hgrp]
    split
    · next h => rw [h]
    · rfl
  rw [Dev.legForceWrite]
  refine ite_both (P := fun u : Dev => (u.grpS g).waitAt = (d.grpS g).waitAt) (fun _ => by rw [hgrp]) fun _ => ?_
  exact ite_both (P := fun u : Dev => (u.grpS g).waitAt = (d.grpS g).waitAt) (fun _ => hleg _) fun _ => hleg _

theorem Dev.forceWrite_wait (d : Dev) (hlive : d.replaying = false) {k x : Nat} (hk : k < 20) (hx : x < 3) (mid : Nat) (w : Word) :
    ((d.pWrite mid (R.PWT_LEG k x) w).grpS g).waitAt = (d.grpS g).waitAt := by
  obtain ⟨b, i, hb, hbi, -, hoff⟩ := inBlock_pwtLeg k hk x hx
  refine Dev.pWrite_keeps (P := fun u : Dev => (u.grpS g).waitAt = (d.grpS g).waitAt) hlive hb (fun _ _ => ?_) ?_ fun _ _ hq hu => ?_
  · rw [Dev.grpS, d.absentWrite_grp]
    rfl
  · have hpage : ((d.pwmPageWrite mid k (offOf (R.PWT_LEG k x)) (R.PWT_LEG k x) w).grpS g).waitAt = (d.grpS g).waitAt := by
      have hdiv : (0xA0 + 4 * x - 0xA0) / 4 = x := by omega
      rw [hoff, Dev.pwmPageWrite, if_neg (by omega), if_neg (by omega), if_neg (by omega), if_pos (by omega), hdiv]
      exact d.legForceWrite_wait hk hx mid w
    obtain ⟨rfl, rfl⟩ | ⟨rfl, rfl⟩ := hbi
    · exact hpage
    · exact hpage
  · rw [Dev.grpS, hq.grp]
    exact hu

theorem Dev.mForce_wait (d : Dev) (hlive : d.replaying = false) (hm : m < 20) (code : Nat) (imm : Bool) :
    ((d.mForce m code imm).grpS g).waitAt = (d.grpS g).waitAt := by
  have hr := mForceRegs_live (d := d) hm
  have hstep : FrameOn hostPart (mForceRegs d m) d (d.mForce m code imm) ∧ ((d.mForce m code imm).grpS g).waitAt = (d.grpS g).waitAt := by
    refine foldl_keeps (P := fun u : Dev => FrameOn hostPart (mForceRegs d m) d u ∧ (u.grpS g).waitAt = (d.grpS g).waitAt) (fun k hk e he => ?_)
      ⟨FrameOn.refl hostPart_part _ d, rfl⟩
    refine forN_keeps (P := fun u : Dev => FrameOn hostPart (mForceRegs d m) d u ∧ (u.grpS g).waitAt = (d.grpS g).waitAt) 3 (fun x hx u hu => ?_) he
    have hl := (hu.1.hostLive hr).trans hlive
    have hk20 := mGroups_lt hm k hk
    exact ⟨hu.1.forceWrite hl hk20 hx (fun a ha => List.mem_flatMap.2 ⟨k, hk, legForceRegs_sub hx a ha⟩) _ _,
      (u.forceWrite_wait hl hk20 hx _ _).trans hu.2⟩
  exact hstep.2

theorem IdleKept.mForce (d : Dev) (hg : g < 12) (hlive : d.replaying = false) (hm : m < 20) (code : Nat) (imm : Bool) :
    IdleKept g d (d.mForce m code imm) :=
  ⟨fun hw => (d.mForce_wait hlive hm code imm).trans hw, (GatesKept.mForce d hlive hm code imm).drdy g hg⟩

theorem IdleKept.mCtxOff (d : Dev) (hg : g < 12) (hlive : d.replaying = false) (hm : m < 20) : IdleKept g d (d.mCtxOff m) := by
  have h1 := (MachRun.refl m d).mCtx hm hlive (mUses_main (d := d)) false
  exact .of_gates (.mCtxOff d hlive hm) hg ((Dev.mCtx_grp _ ((h1.live hm).trans hlive) _ false).trans (d.mCtx_grp hlive _ false))

theorem IdleKept.of_quiet (hg : g < 12) (h : Quiet d e) : IdleKept g d e := .of_gates (.of_quiet h) hg h.grp

theorem IdleKept.setReg (d : Dev) (hg : g < 12) {a : Nat} (w : Word) (ha : a < 0x40098000 ∨ 0x4009A000 ≤ a) : IdleKept g d (d.setReg a w) :=
  .of_gates (.setReg d w ha) hg rfl

theorem IdleKept.machEvent (d : Dev) (hg : g < 12) (m src : Nat) : IdleKept g d (d.machEvent m src) :=
  (IdleKept.setReg d hg _ (by decide)).trans (.of_quiet hg (Dev.raiseN_quiet _ _ _ _))

theorem IdleKept.keepEnds (d : Dev) (hg : g < 12) (m : Nat) : IdleKept g d (d.keepEnds m) := by
  rw [Dev.keepEnds]
  split
  · refine foldl_keeps (P := IdleKept g d) (fun k _ u hu => hu.trans (.setGenM u hg k false)) ?_
    have hkeep : IdleKept g d { d with safe := { d.safe with keep := d.safe.keep - 2 ^ m } } := ⟨id, rfl⟩
    exact hkeep.trans (.setReg _ hg (a := R.SAFE_GRANT) _ (by decide))
  · exact .refl g d

theorem IdleKept.machGo (d : Dev) (hg : g < 12) (m new cause : Nat) : IdleKept g d (d.machGo m new cause) := by
  rw [Dev.machGo_eq]
  have h1 : IdleKept g d (d.setMach m (d.goneTo m new cause)) := .of_gates (.of_regs (fun _ _ => rfl) rfl) hg rfl
  have h2 := h1.trans (.of_quiet hg (Dev.emitProt_quiet _ (d.goRec m new cause)))
  exact ((h2.trans (.keepEnds _ hg m)).trans (.setReg _ hg _ (by decide))).trans (.of_quiet hg (Dev.raiseN_quiet _ _ _ _))

theorem IdleKept.disP (d : Dev) (hg : g < 12) : IdleKept g d d.disP := .of_gates (.disP d) hg rfl

theorem IdleKept.toSto (d : Dev) (hg : g < 12) (hlive : d.replaying = false) (hm : m < 20) (cause : Nat) : IdleKept g d (d.toSto m cause) := by
  have r1 := (MachRun.refl m d).mDrop hm
  have h1 := IdleKept.mDrop d hg m
  rw [Dev.toSto]
  generalize d.mDrop m = u1 at r1 h1
  have r2 := r1.mForce hm hlive 1 true
  have h2 := h1.trans (.mForce u1 hg ((r1.live hm).trans hlive) hm 1 true)
  generalize u1.mForce m 1 true = u2 at r2 h2
  have h3 := h2.trans (.mCtxOff u2 hg ((r2.live hm).trans hlive) hm)
  generalize u2.mCtxOff m = u3 at h3
  exact (h3.trans (.machGo u3 hg m MS.STO cause)).trans (.disP _ hg)

theorem IdleKept.setMach (d : Dev) (hg : g < 12) (m : Nat) (v : MachSt) : IdleKept g d (d.setMach m v) := .of_gates (.setMach d m v) hg rfl

theorem IdleKept.armFail (d : Dev) (hg : g < 12) (hlive : d.replaying = false) (hm : m < 20) : IdleKept g d (d.armFail m) := by
  rw [Dev.armFail_eq]
  refine IdleKept.trans ?_ (.machEvent _ hg m _)
  rw [Dev.armBack]
  split
  · have r1 := (MachRun.refl m d).mDrop hm
    have h1 := IdleKept.mDrop d hg m
    generalize d.mDrop m = u1 at r1 h1
    have h2 := h1.trans (.mCtxOff u1 hg ((r1.live hm).trans hlive) hm)
    generalize u1.mCtxOff m = u2 at h2
    exact (h2.trans (.setMach u2 hg m _)).trans (.setMach _ hg m _)
  · exact .toSto d hg hlive hm 5

end

end Sys2Proof.Machine
end

section
/-! PROOFS. Readiness of gate drivers, bootstrap and gate supply, and the obligation about them (R302, R303, R317 to R320, R501). -/

namespace Sys2Proof.Machine

section
variable {d e f : Dev} {g x n m : Nat}

/-! ### DRDYgg as accepted (R302, R303) -/

/-- An accepted level of DRDYgg. -/
def Dev.drdyShown (d : Dev) (g : Nat) (b : Bool) : Dev := d.putB (R.GDT_PINS g) F.GDT_PINS_DRDY b

/-- An accepted level shown, and the group's record with it. -/
structure DrdySet (g : Nat) (b : Bool) (r : GrpSt) (d e : Dev) : Prop where
  frame : FrameOn grpPart [R.GDT_PINS g] d e
  drdy : e.drdy g = b
  own : e.grpS g = r
  alone : ∀ j, j ≠ g → e.grpS j = d.grpS j
  alike : r.legs = (d.grpS g).legs → LegsAlike d e

theorem Dev.drdyShown_genP (d : Dev) (hg : g < 12) (b : Bool) : (d.drdyShown g b).genP g = d.genP g := by
  rw [Dev.genP_lo _ hg, Dev.genP_lo _ hg]
  exact Dev.flag_put_field _ _ _ _ (by decide)

theorem Dev.drdyShown_grpS (d : Dev) (g : Nat) (b : Bool) (j : Nat) : (d.drdyShown g b).grpS j = d.grpS j := by
  rw [Dev.drdyShown, Dev.putB, Dev.grpS_put]

theorem Dev.drdySet_spec (d : Dev) (g : Nat) (b : Bool) (r : GrpSt) : DrdySet g b r d ((d.drdyShown g b).setGrp g r) := by
  have hput : FrameOn grpPart [R.GDT_PINS g] d (d.drdyShown g b) := (FrameOn.refl grpPart_part _ d).putB grpPart_part _ _ (List.mem_singleton_self _)
  have hd : (d.drdyShown g b).drdy g = b := Dev.flag_putB_self _ _ _ _ (by decide) (by decide)
  have hgrp := d.drdyShown_grpS g b
  have hal : LegsAlike d (d.drdyShown g b) := by
    rw [Dev.drdyShown, Dev.putB, Dev.put]
    exact d.pins_alike g _
  generalize d.drdyShown g b = u at hput hd hgrp hal
  refine ⟨hput.setGrp g r, (Dev.flag_of_reg (Dev.reg_setGrp _ _ _ _) _).trans hd, Dev.grpS_setGrp_self _ _ _, fun j hj => ?_, fun hr => ?_⟩
  · rw [Dev.grpS_setGrp, if_neg hj, hgrp]
  · exact hal.trans (.setGrp u g r (by rw [hgrp]; exact hr))

/-- An accepted high level taken by a group with its ready wait, where one runs. -/
def Dev.drdyTaken (d : Dev) (g lim : Nat) (wait : Option Nat) : Dev :=
  match wait with
  | some t =>
    if t + lim < d.gtc then d
    else
      let d := d.setGrp g { d.grpS g with waitAt := none, rdyAcc := true, shut := false }
      if t + lim = d.gtc then d.zeroSlack 4 g else d
  | none => d.setGrp g { d.grpS g with rdyAcc := d.genP g && !(d.grpS g).shut }

theorem Dev.drdyTaken_none (d : Dev) (g lim : Nat) :
    d.drdyTaken g lim none = d.setGrp g { d.grpS g with rdyAcc := d.genP g && !(d.grpS g).shut } := rfl

theorem Dev.drdyTaken_some (d : Dev) (g lim t : Nat) : d.drdyTaken g lim (some t) =
    if t + lim < d.gtc then d
    else if t + lim = d.gtc then (d.setGrp g { d.grpS g with waitAt := none, rdyAcc := true, shut := false }).zeroSlack 4 g
    else d.setGrp g { d.grpS g with waitAt := none, rdyAcc := true, shut := false } := rfl

section
variable (hg : g < 12) (hp : groupPresent d.member g = true)
include hg hp

theorem Dev.drdyReady_eq : d.drdyReady g =
    (d.drdyShown g true).drdyTaken g (4000 * max (d.get (R.GDT_GCFG g) F.GDT_GCFG_DRDY_TOUT) 1) (d.grpS g).waitAt := by
  rw [Dev.drdyReady, if_neg (by simp [hg, hp])]
  rfl

theorem Dev.drdyReady_none (hw : (d.grpS g).waitAt = none) :
    d.drdyReady g = (d.drdyShown g true).setGrp g { d.grpS g with rdyAcc := d.genP g && !(d.grpS g).shut } := by
  rw [Dev.drdyReady_eq hg hp, hw, Dev.drdyTaken_none, d.drdyShown_genP hg, Dev.drdyShown_grpS]

theorem Dev.drdyReady_late {t : Nat} (hw : (d.grpS g).waitAt = some t)
    (hl : t + 4000 * max (d.get (R.GDT_GCFG g) F.GDT_GCFG_DRDY_TOUT) 1 < d.gtc) : d.drdyReady g = d.drdyShown g true := by
  rw [Dev.drdyReady_eq hg hp, hw, Dev.drdyTaken_some]
  exact if_pos hl

theorem Dev.drdyReady_wait {t : Nat} (hw : (d.grpS g).waitAt = some t)
    (hl : d.gtc ≤ t + 4000 * max (d.get (R.GDT_GCFG g) F.GDT_GCFG_DRDY_TOUT) 1) : d.drdyReady g =
      if t + 4000 * max (d.get (R.GDT_GCFG g) F.GDT_GCFG_DRDY_TOUT) 1 = d.gtc then
        ((d.drdyShown g true).setGrp g { d.grpS g with waitAt := none, rdyAcc := true, shut := false }).zeroSlack 4 g
      else (d.drdyShown g true).setGrp g { d.grpS g with waitAt := none, rdyAcc := true, shut := false } := by
  rw [Dev.drdyReady_eq hg hp, hw, Dev.drdyTaken_some, Dev.drdyShown_grpS]
  exact if_neg (Nat.not_lt.2 hl)

/-- The groups and the timebase's record. -/
def rdyPart (d e : Dev) : Dev := { d with grp := e.grp, sync := e.sync }

omit hg hp in
theorem rdyPart_part : Part rdyPart := ⟨fun _ => rfl, fun _ _ _ => rfl, fun _ _ => rfl, fun _ _ _ => rfl⟩

theorem Dev.drdyReady_spec {t : Nat} (hw : (d.grpS g).waitAt = some t)
    (hl : d.gtc ≤ t + 4000 * max (d.get (R.GDT_GCFG g) F.GDT_GCFG_DRDY_TOUT) 1) :
    FrameOn rdyPart [R.GDT_PINS g, R.TL_ZS_INFO] d (d.drdyReady g) ∧ (∀ j, j ≠ g → (d.drdyReady g).grpS j = d.grpS j) ∧
      (d.drdyReady g).drdy g = true ∧ (d.drdyReady g).grpS g = { d.grpS g with waitAt := none, rdyAcc := true, shut := false } := by
  rw [Dev.drdyReady_wait hg hp hw hl]
  have h := d.drdySet_spec g true { d.grpS g with waitAt := none, rdyAcc := true, shut := false }
  generalize (d.drdyShown g true).setGrp g { d.grpS g with waitAt := none, rdyAcc := true, shut := false } = u at h
  have hu : FrameOn rdyPart [R.GDT_PINS g, R.TL_ZS_INFO] d u :=
    h.frame.widen grpPart_part rdyPart_part (fun _ _ => rfl) fun a ha => by simp only [List.mem_singleton] at ha; simp [ha]
  split
  · have hz := u.zeroSlack_frame 4 g
    generalize u.zeroSlack 4 g = v at hz
    have hgrp : v.grp = u.grp := (congrArg Dev.grp hz.1 :)
    have hpins : v.reg (R.GDT_PINS g) = u.reg (R.GDT_PINS g) := hz.reg zsPart_part (eventReg_gdtPins hg) (by
      simp only [List.mem_singleton, R.GDT_PINS, R.TL_ZS_INFO]; omega)
    have hz' : FrameOn rdyPart [R.GDT_PINS g, R.TL_ZS_INFO] u v :=
      hz.widen zsPart_part rdyPart_part (fun _ _ => rfl) fun a ha => by simp only [List.mem_singleton] at ha; simp [ha]
    exact ⟨hu.trans rdyPart_part hz', fun j hj => by rw [Dev.grpS, hgrp]; exact h.alone j hj, (Dev.flag_of_reg hpins _).trans h.drdy,
      by rw [Dev.grpS, hgrp]; exact h.own⟩
  · exact ⟨hu, h.alone, h.drdy, h.own⟩

/-- DRDYgg gone, without a release. -/
def Dev.drdyGone (d : Dev) (g : Nat) : Dev := (d.drdyShown g false).setGrp g { d.grpS g with rdyAcc := false, chkAt := none }

theorem Dev.drdyFall_eq : d.drdyFall g =
    if ((d.grpS g).rdyAcc && d.genP g && d.flag (R.GDT_GCFG g) F.GDT_GCFG_DRDY_EN) = true then
      ((d.drdyGone g).release g 7 5).gdEvent g Ev.DRDY_LOST
    else d.drdyGone g := by
  rw [Dev.drdyFall, if_neg (by simp [hg, hp])]
  rfl

theorem Dev.drdyFall_lost (h : ((d.grpS g).rdyAcc && d.genP g && d.flag (R.GDT_GCFG g) F.GDT_GCFG_DRDY_EN) = true) :
    FrameOn grpPart (R.GDT_PINS g :: relRegs g) d (d.drdyFall g) ∧ (d.drdyFall g).drdy g = false ∧ Released d (d.drdyFall g) g 7 5 ∧
      Raised (d.drdyFall g) Pg.GDT Ev.DRDY_LOST := by
  rw [Dev.drdyFall_eq hg hp, if_pos h]
  have hs : DrdySet g false _ d (d.drdyGone g) := d.drdySet_spec g false _
  have hal := hs.alike rfl
  generalize d.drdyGone g = u at hs hal
  obtain ⟨hframe, hrel, -, hraised⟩ := u.releaseEvent_spec (hg.trans (by decide)) 7 Ev.DRDY_LOST (cause := 5) (by decide)
  rw [gdPage, if_pos hg] at hraised
  have hpins := hframe.reg grpPart_part (eventReg_gdtPins hg) (gdtPins_not_rel (hg.trans (by decide)) hg)
  exact ⟨(hs.frame.mono fun a ha => by simp only [List.mem_singleton] at ha; simp [ha]).trans grpPart_part (hframe.mono fun a ha => List.mem_cons_of_mem _ ha),
    (Dev.flag_of_reg hpins _).trans hs.drdy, hrel.of_alike hal (hg.trans (by decide)), hraised⟩

end

/-! ### The removal check (R303) -/

theorem Dev.enaChkFail_eq {t : Nat} (hc : (d.grpS g).chkAt = some t)
    (ht : t + 400 * max (d.get (R.GDT_GCFG g) F.GDT_GCFG_ENA_OFF) 1 ≤ d.gtc) (hd : d.drdy g = true) :
    d.enaChkFail g = ((d.setGrp g { d.grpS g with chkAt := none }).release g 7 6).gdEvent g Ev.ENA_CHK_FAIL := by
  rw [Dev.enaChkFail, hc]
  exact if_pos ⟨ht, hd⟩

theorem Dev.enaChkFail_spec (hg : g < 12) {t : Nat} (hc : (d.grpS g).chkAt = some t)
    (ht : t + 400 * max (d.get (R.GDT_GCFG g) F.GDT_GCFG_ENA_OFF) 1 ≤ d.gtc) (hd : d.drdy g = true) :
    FrameOn grpPart (relRegs g) d (d.enaChkFail g) ∧ ((d.enaChkFail g).grpS g).chkAt = none ∧ Released d (d.enaChkFail g) g 7 6 ∧
      Raised (d.enaChkFail g) Pg.GDT Ev.ENA_CHK_FAIL := by
  rw [Dev.enaChkFail_eq hc ht hd]
  have hset : FrameOn grpPart (relRegs g) d (d.setGrp g { d.grpS g with chkAt := none }) := (FrameOn.refl grpPart_part _ d).setGrp g _
  have hal : LegsAlike d (d.setGrp g { d.grpS g with chkAt := none }) := .setGrp d g _ rfl
  have hown : ((d.setGrp g { d.grpS g with chkAt := none }).grpS g).chkAt = none := by rw [Dev.grpS_setGrp_self]
  generalize d.setGrp g { d.grpS g with chkAt := none } = u at hset hal hown
  obtain ⟨hframe, hrel, hkept, hraised⟩ := u.releaseEvent_spec (hg.trans (by decide)) 7 Ev.ENA_CHK_FAIL (cause := 6) (by decide)
  rw [gdPage, if_pos hg] at hraised
  exact ⟨hset.trans grpPart_part hframe, (congrArg GrpSt.chkAt (hkept.grp g) :).trans hown, hrel.of_alike hal (hg.trans (by decide)), hraised⟩

/-! ### A ready wait that has lasted too long (R302) -/

/-- A ready wait given up. -/
def Dev.waitOver (d : Dev) (g : Nat) : Dev := (d.setGrp g { d.grpS g with waitAt := none }).gdEvent g Ev.DRDY_TOUT

/-- What it leaves. -/
structure WaitOver (g : Nat) (d e : Dev) : Prop where
  frame : FrameOn grpPart [R.GDT_FLAG] d e
  alone : ∀ j, j ≠ g → e.grpS j = d.grpS j
  own : e.grpS g = { d.grpS g with waitAt := none }
  told : Raised e Pg.GDT Ev.DRDY_TOUT

theorem Dev.waitOver_spec (d : Dev) (hg : g < 12) : WaitOver g d (d.waitOver g) := by
  have heq : d.waitOver g = ((d.setGrp g { d.grpS g with waitAt := none }).orReg R.GDT_FLAG (bitWord g)).raiseN Pg.GDT Ev.DRDY_TOUT g := by
    rw [Dev.waitOver, Dev.gdEvent, if_pos hg, gdPage, if_pos hg]
  rw [heq]
  have hset : FrameOn grpPart [R.GDT_FLAG] d ((d.setGrp g { d.grpS g with waitAt := none }).orReg R.GDT_FLAG (bitWord g)) :=
    ((FrameOn.refl grpPart_part _ d).setGrp g _).orReg grpPart_part _ (List.mem_singleton_self _)
  have hown : ∀ j, ((d.setGrp g { d.grpS g with waitAt := none }).orReg R.GDT_FLAG (bitWord g)).grpS j =
      if j = g then { d.grpS g with waitAt := none } else d.grpS j := fun j => (Dev.grpS_setReg (d.setGrp g _) R.GDT_FLAG j _).trans (Dev.grpS_setGrp _ _ _ _)
  generalize (d.setGrp g { d.grpS g with waitAt := none }).orReg R.GDT_FLAG (bitWord g) = u at hset hown
  have hq := u.raiseN_quiet Pg.GDT Ev.DRDY_TOUT g
  have hr := u.raiseN_raised (page := Pg.GDT) (src := Ev.DRDY_TOUT) g rfl
  generalize u.raiseN Pg.GDT Ev.DRDY_TOUT g = v at hq hr
  have hgrp : ∀ j, v.grpS j = u.grpS j := fun j => by rw [Dev.grpS, hq.grp]; rfl
  exact ⟨hset.quiet grpPart_part hq, fun j hj => by rw [hgrp, hown, if_neg hj], by rw [hgrp, hown, if_pos rfl], hr⟩

theorem Dev.drdyTout_due {t : Nat} (hw : (d.grpS g).waitAt = some t)
    (hl : t + 4000 * max (d.get (R.GDT_GCFG g) F.GDT_GCFG_DRDY_TOUT) 1 ≤ d.gtc) : d.drdyTout g = some (d.waitOver g) := by
  rw [Dev.drdyTout, hw]
  exact if_pos hl

/-- What becomes of the machine of a group whose driver is not ready. -/
def Dev.waitFails (d : Dev) (m : Nat) : Dev := if (d.machS m).target.isSome && !(d.machS m).armed then d.armFail m else d

theorem Dev.drdyToutCmd_none (h : d.drdyTout g = some e) (hm : e.machOf g = none) : d.drdyToutCmd g = e := by
  rw [Dev.drdyToutCmd, h]
  dsimp only
  rw [hm]

theorem Dev.drdyToutCmd_some (h : d.drdyTout g = some e) (hm : e.machOf g = some m) : d.drdyToutCmd g = e.waitFails m := by
  rw [Dev.drdyToutCmd, h]
  dsimp only
  rw [hm]
  rfl

theorem machOf_of (h : FrameOn grpPart [R.GDT_FLAG] d e) : e.machOf g = d.machOf g := by
  have hrec : e.mach = d.mach := (congrArg Dev.mach h.1 :)
  have hmach : ∀ j, e.machS j = d.machS j := fun j => by rw [Dev.machS, hrec]; rfl
  have hdef : ∀ j, e.mDefined j = d.mDefined j := fun j => by rw [Dev.mDefined, Dev.mDefined, hmach]
  have hsix : ∀ j, e.mSix j = d.mSix j := fun j => by
    have hw : e.mdWord j 0 = d.mdWord j 0 := mdWord_of (by rw [hmach]) 0
    rw [Dev.mSix, Dev.mSix, Dev.md, Dev.md, hw]
  have hprim : e.primOf g = d.primOf g := by
    rw [Dev.primOf, Dev.primOf, h.reg grpPart_part (a := R.PWG_PAIR) (by decide) (by decide)]
  rw [Dev.machOf, Dev.machOf, hprim, hdef]
  cases d.primOf g with
  | none => rfl
  | some p =>
    dsimp only
    rw [hdef, hsix]

end

end Sys2Proof.Machine
end

section
/-! PROOFS. Bootstrap and gate supply, and the obligation about the readiness of gate drivers (R302, R303, R317 to R320, R501). -/

namespace Sys2Proof.Machine

section
variable {d e f : Dev} {g x n m : Nat}

/-! ### Fields of a status word apart from releases -/

theorem gdLstat_aux (n : Nat) : gdLstat (n + 12) = R.GDA_LSTAT n := by
  rw [gdLstat, if_neg (by omega), Nat.add_sub_cancel]

theorem LegsAlike.put (d : Dev) (g : Nat) {k : RField} (v : Nat) (hk : offRel k) : LegsAlike d (d.put (gdLstat g) k v) := by
  refine ⟨rfl, fun h _ y hy => ⟨?_, ?_, rfl⟩⟩
  · exact Dev.flag_put_field _ _ _ _ (hk.rel hy).symm
  · exact Dev.get_put_field _ _ _ _ _ _ (hk.cause hy).symm

theorem gdFlag_rel : gdFlag g ∈ relRegs g := gdRegs_rel _ (List.mem_cons_self ..)

theorem RelKept.flag {set : Nat → Nat → Prop} (h : RelKept set d e) (hg : g < 20) {k : RField} (hk : offRel k) :
    e.flag (gdLstat g) k = d.flag (gdLstat g) k := congrArg (· != 0) (h.field g hg k hk)

/-! ### A bootstrap too low (R317, R318) -/

/-- A low bootstrap shown. -/
def Dev.uvShown (d : Dev) (n x : Nat) : Dev := (d.putB (gdLstat (n + 12)) (F.GDA_LSTAT_UV x) true).gdEvent (n + 12) Ev.BST_UV

/-- What it shows. -/
structure UvShown (n x : Nat) (d e : Dev) : Prop where
  frame : FrameOn noPart [R.GDA_LSTAT n, R.GDA_FLAG] d e
  flag : e.flag (R.GDA_LSTAT n) (F.GDA_LSTAT_UV x) = true
  told : Raised e Pg.GDA Ev.BST_UV
  alike : LegsAlike d e

theorem gdPage_aux (n : Nat) : gdPage (n + 12) = Pg.GDA := if_neg (by omega)

theorem gdEvent_aux (d : Dev) (n src : Nat) : d.gdEvent (n + 12) src = (d.orReg R.GDA_FLAG (bitWord n)).raiseN Pg.GDA src (n + 12) := by
  rw [Dev.gdEvent, if_neg (by omega), gdPage_aux, Nat.add_sub_cancel]

theorem Dev.uvShown_spec (d : Dev) (hn : n < 8) (hx : x < 3) : UvShown n x d (d.uvShown n x) := by
  rw [Dev.uvShown]
  have hal : LegsAlike d (d.putB (gdLstat (n + 12)) (F.GDA_LSTAT_UV x) true) := .put d _ _ (offRel_uv hx)
  have hput : FrameOn noPart [R.GDA_LSTAT n, R.GDA_FLAG] d (d.putB (gdLstat (n + 12)) (F.GDA_LSTAT_UV x) true) :=
    (FrameOn.refl noPart_part _ d).putB noPart_part _ _ (by rw [gdLstat_aux]; exact List.mem_cons_self ..)
  have hflag : (d.putB (gdLstat (n + 12)) (F.GDA_LSTAT_UV x) true).flag (gdLstat (n + 12)) (F.GDA_LSTAT_UV x) = true :=
    Dev.flag_putB_self _ _ _ _ (by simp only [F.GDA_LSTAT_UV, fieldWidth]; omega) (by simp only [F.GDA_LSTAT_UV]; omega)
  generalize d.putB (gdLstat (n + 12)) (F.GDA_LSTAT_UV x) true = u at hal hput hflag
  have htold := u.gdEvent_raised (n + 12) Ev.BST_UV
  have hkept : RelKept anyLeg u (u.gdEvent (n + 12) Ev.BST_UV) := .gdEvent u (n + 12) Ev.BST_UV
  have hal2 : LegsAlike u (u.gdEvent (n + 12) Ev.BST_UV) := .gdEvent u (n + 12) Ev.BST_UV
  have hf : FrameOn noPart [R.GDA_LSTAT n, R.GDA_FLAG] u (u.gdEvent (n + 12) Ev.BST_UV) := by
    rw [gdEvent_aux]
    exact ((FrameOn.refl noPart_part _ u).orReg noPart_part _ (by simp)).quiet noPart_part (Dev.raiseN_quiet _ _ _ _)
  rw [gdPage_aux] at htold
  generalize u.gdEvent (n + 12) Ev.BST_UV = v at htold hkept hal2 hf
  refine ⟨hput.trans noPart_part hf, ?_, htold, hal.trans hal2⟩
  rw [← gdLstat_aux]
  exact (hkept.flag (by omega) (offRel_uv hx)).trans hflag

theorem Dev.bstUv_eq (hn : n < nAux d.member) (hx : x < 3) : d.bstUv n x =
    if (d.uvShown n x).flag (R.GDA_GCFG n) F.GDA_GCFG_BST_POL then (d.uvShown n x).release (n + 12) (2 ^ x) 7 else d.uvShown n x := by
  rw [Dev.bstUv, if_neg (by simp [hn, hx])]
  rfl

theorem noPart_grp {l : List Nat} (h : FrameOn noPart l d e) : FrameOn grpPart l d e :=
  h.widen noPart_part grpPart_part (fun _ _ => rfl) fun _ ha => ha

theorem Dev.bstUv_spec (hn : n < nAux d.member) (hx : x < 3) :
    FrameOn grpPart (relRegs (n + 12)) d (d.bstUv n x) ∧ (d.bstUv n x).flag (R.GDA_LSTAT n) (F.GDA_LSTAT_UV x) = true ∧
      Raised (d.bstUv n x) Pg.GDA Ev.BST_UV ∧
      (d.flag (R.GDA_GCFG n) F.GDA_GCFG_BST_POL = true → Released d (d.bstUv n x) (n + 12) (2 ^ x) 7) ∧
      (d.flag (R.GDA_GCFG n) F.GDA_GCFG_BST_POL = false → Frame d (d.bstUv n x) [R.GDA_LSTAT n, R.GDA_FLAG]) := by
  have h8 := hn.trans_le (nAux_le8 _)
  rw [Dev.bstUv_eq hn hx]
  obtain ⟨hf, hflag, htold, hal⟩ := d.uvShown_spec h8 hx
  generalize d.uvShown n x = u at hf hflag htold hal
  have hpol : u.flag (R.GDA_GCFG n) F.GDA_GCFG_BST_POL = d.flag (R.GDA_GCFG n) F.GDA_GCFG_BST_POL := by
    refine Dev.flag_of_reg (hf.reg noPart_part ?_ ?_) _
    · rw [eventReg_eq_false]; simp only [R.GDA_GCFG]; omega
    · simp only [List.mem_cons, List.not_mem_nil, or_false, R.GDA_GCFG, R.GDA_LSTAT, R.GDA_FLAG]; omega
  have hrel : FrameOn grpPart (relRegs (n + 12)) d u := (noPart_grp hf).mono fun a ha => by
    simp only [List.mem_cons, List.not_mem_nil, or_false] at ha
    obtain rfl | rfl := ha
    · rw [← gdLstat_aux]; exact gdLstat_rel
    · have h := gdFlag_rel (g := n + 12)
      rwa [gdFlag, if_neg (by omega)] at h
  rw [hpol]
  split
  · next hp =>
    have hg : n + 12 < 20 := by omega
    have hframe := u.release_rel (n + 12) (2 ^ x) 7 fun _ ha => ha
    have hkept := u.release_kept hg (2 ^ x) 7
    refine ⟨hrel.trans grpPart_part hframe, ?_, hframe.raised grpPart_part (pgEvtRaw_not_rel hg _) htold,
      fun _ => (u.release_released hg (2 ^ x) (by decide)).of_alike hal hg, fun h => absurd (hp.symm.trans h) (by decide)⟩
    rw [← gdLstat_aux] at hflag ⊢
    exact (hkept.flag hg (offRel_uv hx)).trans hflag
  · next hp => exact ⟨hrel, hflag, htold, fun h => absurd h hp, fun _ => hf⟩

/-! ### A refresh judged (R319) -/

/-- A leg's sample taken. -/
def Dev.rfTaken (d : Dev) (g x : Nat) : Dev := d.setLeg g x { d.legS g x with rfSample := none }

theorem Dev.bstSample_eq {t : Nat} {mv : Int} (hq : (d.legS (n + 12) x).rfSample = some t) (ht : t ≤ d.gtc) : d.bstSample n x mv =
    if d.uvLevel n + 500 ≤ mv then ((d.rfTaken (n + 12) x).putB (gdLstat (n + 12)) (F.GDA_LSTAT_UV x) false).put (gdLstat (n + 12)) (F.rfCnt x) 0
    else (d.rfTaken (n + 12) x).refreshFail n x := by
  rw [Dev.bstSample, hq]
  exact if_pos ht

/-- A leg's sample taken: its record alone changes. -/
structure Sampled (n x : Nat) (d e : Dev) : Prop where
  frame : FrameOn grpPart [] d e
  leg : e.legS (n + 12) x = { d.legS (n + 12) x with rfSample := none }
  reg : ∀ a, e.reg a = d.reg a
  alike : LegsAlike d e

theorem Dev.rfTaken_spec (d : Dev) (n x : Nat) : Sampled n x d (d.rfTaken (n + 12) x) :=
  ⟨(FrameOn.refl grpPart_part _ d).setLeg _ _ _, by rw [Dev.rfTaken, Dev.legS_setLeg, if_pos ⟨rfl, rfl⟩], fun a => d.reg_setLeg _ _ _ a,
    .setLeg d _ _ _ rfl⟩

theorem rfCnt_width (x : Nat) : fieldWidth (F.rfCnt x) = 2 := by simp only [F.rfCnt, fieldWidth]; omega

theorem Dev.refreshed_spec (h : Sampled n x d e) (hx : x < 3) :
    let f := (e.putB (gdLstat (n + 12)) (F.GDA_LSTAT_UV x) false).put (gdLstat (n + 12)) (F.rfCnt x) 0
    FrameOn grpPart [R.GDA_LSTAT n] d f ∧ f.legS (n + 12) x = { d.legS (n + 12) x with rfSample := none } ∧
      f.flag (R.GDA_LSTAT n) (F.GDA_LSTAT_UV x) = false ∧ f.get (R.GDA_LSTAT n) (F.rfCnt x) = 0 := by
  dsimp only
  rw [gdLstat_aux]
  have hm : R.GDA_LSTAT n ∈ [R.GDA_LSTAT n] := List.mem_singleton_self _
  refine ⟨((h.frame.mono fun _ ha => nomatch ha).putB grpPart_part _ _ hm).put grpPart_part _ _ hm, h.leg, ?_, ?_⟩
  · refine (Dev.flag_put_field _ _ _ _ ?_).trans (Dev.flag_putB_self _ _ _ _ ?_ ?_) <;> simp only [F.GDA_LSTAT_UV, F.rfCnt, fieldWidth] <;> omega
  · rw [Dev.get_put_self _ _ _ _ (by simp only [F.rfCnt, fieldWidth]; omega), Nat.zero_mod]

/-- A failed refresh counted. -/
def Dev.failCounted (d : Dev) (n x : Nat) : Dev := d.bump (gdLstat (n + 12)) (F.rfCnt x)

theorem Dev.refreshFail_eq (d : Dev) (n x : Nat) : d.refreshFail n x =
    if (d.failCounted n x).get (gdLstat (n + 12)) (F.rfCnt x) = 3 ∧ !(d.failCounted n x).legReleased (n + 12) x then
      ((d.failCounted n x).release (n + 12) (2 ^ x) 7).gdEvent (n + 12) Ev.BST_FAIL
    else d.failCounted n x := rfl

/-- What the count leaves. -/
structure FailCounted (n x : Nat) (d e : Dev) : Prop where
  frame : FrameOn grpPart (relRegs (n + 12)) d e
  leg : (e.legS (n + 12) x).rfSample = none
  low : e.flag (R.GDA_LSTAT n) (F.GDA_LSTAT_UV x) = d.flag (R.GDA_LSTAT n) (F.GDA_LSTAT_UV x)
  count : Counted d e (R.GDA_LSTAT n) (F.rfCnt x)
  alike : LegsAlike d e

theorem Dev.failCounted_spec (h : Sampled n x d e) (hx : x < 3) : FailCounted n x d (e.failCounted n x) := by
  have hm : R.GDA_LSTAT n ∈ relRegs (n + 12) := by rw [← gdLstat_aux]; exact gdLstat_rel
  have hget : ∀ k, e.get (R.GDA_LSTAT n) k = d.get (R.GDA_LSTAT n) k := Dev.get_of_reg (h.reg _)
  have hc := e.bump_counted (R.GDA_LSTAT n) (F.rfCnt x) (by simp only [F.rfCnt, fieldWidth]; omega)
  rw [Counted, hget] at hc
  have hal : LegsAlike e (e.failCounted n x) := .put e _ _ (offRel_rfCnt hx)
  rw [Dev.failCounted, gdLstat_aux] at hal ⊢
  refine ⟨(h.frame.mono fun _ ha => nomatch ha).bump grpPart_part _ hm, ?_, ?_, hc, h.alike.trans hal⟩
  · exact congrArg LegSt.rfSample h.leg
  · refine (congrArg (· != 0) ((Dev.get_put_field _ _ _ _ _ _ ?_).trans (hget _)) :)
    simp only [F.GDA_LSTAT_UV, F.rfCnt, fieldWidth]
    omega

/-- A mask of one leg names that leg. -/
theorem oneLeg_bit : ∀ x < 3, ∀ y < 3, 2 ^ x / 2 ^ y % 2 = 1 → y = x := by decide

/-- A mask of all three names each. -/
theorem allLegs_bit : ∀ y < 3, 7 / 2 ^ y % 2 = 1 := by decide

/-- A refresh that has failed. -/
theorem FailCounted.judged (h : FailCounted n x d e) (hn : n < 8) (hx : x < 3) :
    let f := if e.get (gdLstat (n + 12)) (F.rfCnt x) = 3 ∧ !e.legReleased (n + 12) x then
      (e.release (n + 12) (2 ^ x) 7).gdEvent (n + 12) Ev.BST_FAIL else e
    FrameOn grpPart (relRegs (n + 12)) d f ∧ (f.legS (n + 12) x).rfSample = none ∧
      f.flag (R.GDA_LSTAT n) (F.GDA_LSTAT_UV x) = d.flag (R.GDA_LSTAT n) (F.GDA_LSTAT_UV x) ∧ Counted d f (R.GDA_LSTAT n) (F.rfCnt x) ∧
      (2 ≤ d.get (R.GDA_LSTAT n) (F.rfCnt x) →
        Released d f (n + 12) (2 ^ x) 7 ∧ (d.legReleased (n + 12) x = false → Raised f Pg.GDA Ev.BST_FAIL)) := by
  have hg : n + 12 < 20 := by omega
  have hcount : e.get (R.GDA_LSTAT n) (F.rfCnt x) = min (d.get (R.GDA_LSTAT n) (F.rfCnt x) + 1) 3 := by
    have hc := h.count
    rw [Counted, rfCnt_width] at hc
    exact hc
  have hsame : e.legReleased (n + 12) x = d.legReleased (n + 12) x := (h.alike.2 _ hg x hx).1
  dsimp only
  split
  · obtain ⟨hframe, hrel, hkept, hraised⟩ := e.releaseEvent_spec hg (2 ^ x) Ev.BST_FAIL (cause := 7) (by decide)
    rw [gdPage_aux] at hraised
    generalize (e.release (n + 12) (2 ^ x) 7).gdEvent (n + 12) Ev.BST_FAIL = v at hframe hrel hkept hraised
    have hleg : (v.legS (n + 12) x).rfSample = (e.legS (n + 12) x).rfSample := (congrArg LegSt.rfSample (hkept.leg (n + 12) x) :)
    have huv := hkept.flag hg (offRel_uv hx)
    have hrf := hkept.field _ hg _ (offRel_rfCnt hx)
    rw [gdLstat_aux] at huv hrf
    exact ⟨h.frame.trans grpPart_part hframe, hleg.trans h.leg, huv.trans h.low, hrf.trans h.count,
      fun _ => ⟨hrel.of_alike h.alike hg, fun _ => hraised⟩⟩
  · next hno =>
    refine ⟨h.frame, h.leg, h.low, h.count, fun h2 => ?_⟩
    have hreleased : d.legReleased (n + 12) x = true := by
      rw [gdLstat_aux, hcount, hsame] at hno
      cases hr : d.legReleased (n + 12) x with
      | true => rfl
      | false => exact absurd ⟨by omega, by rw [hr]; rfl⟩ hno
    refine ⟨fun y hy hm => ?_, fun hr => absurd (hreleased.symm.trans hr) (by decide)⟩
    obtain rfl := oneLeg_bit x hx y hy hm
    exact ⟨hsame.trans hreleased, fun hr => absurd (hreleased.symm.trans hr) (by decide)⟩

/-! ### The gate supply (R320) -/

/-- The legs of the first auxiliary groups. -/
def auxBelow (k g y : Nat) : Prop := 12 ≤ g ∧ g < k + 12 ∧ y < 3

/-- Every auxiliary leg released. -/
def Dev.releaseAux (d : Dev) (k : Nat) : Dev := forN k (fun n e => e.release (n + 12) 7 8) d

theorem Dev.releaseAux_succ (d : Dev) (k : Nat) : d.releaseAux (k + 1) = (d.releaseAux k).release (k + 12) 7 8 := forN_succ _ _ _

theorem Dev.releaseAux_got (d : Dev) {k : Nat} (hk : k ≤ 8) : Releasing 8 (auxBelow k) d (d.releaseAux k) := by
  induction k with
  | zero => exact (Releasing.refl 8 d).mono fun g _ h => by simp only [auxBelow] at h; omega
  | succ k ih =>
    rw [d.releaseAux_succ]
    refine ((ih (by omega)).release (g := k + 12) (by omega) 7 (by decide)).mono fun g y h => ?_
    by_cases hg : g = k + 12
    · exact .inr ⟨hg, allLegs_bit y h.2.2⟩
    · exact .inl ⟨h.1, by have := h.2.1; omega, h.2.2⟩

/-- The registers that releases of auxiliary legs write. -/
def auxRegs : List Nat := (List.range 8).flatMap fun n => gdRegs (n + 12)

theorem auxRegs_page {a : Nat} (h : a ∈ auxRegs) : pageOf a = Pg.GDA ∧ R.GDA_STAT ≠ a := by
  obtain ⟨n, hn, h⟩ := List.mem_flatMap.1 h
  rw [List.mem_range] at hn
  refine ⟨?_, (gdRegs_place (by omega) h).2.2.2⟩
  simp only [gdRegs, gdFlag, gdLstat, relCnt, if_neg (show ¬n + 12 < 12 by omega), Nat.add_sub_cancel, List.mem_cons, List.not_mem_nil, or_false] at h
  obtain rfl | rfl | rfl := h <;> simp only [pageOf, R.GDA_FLAG, R.GDA_LSTAT, R.GDA_CNT, Pg.GDA] <;> omega

theorem Dev.releaseAux_frame (d : Dev) {k : Nat} (hk : k ≤ 8) : FrameOn grpPart auxRegs d (d.releaseAux k) :=
  FrameOn.forN grpPart_part k (fun n hn e => e.release_frame (g := n + 12) (l := auxRegs) (fun _ ha =>
    List.mem_flatMap.2 ⟨n, List.mem_range.2 (hn.trans_le hk), ha⟩) 7 8 fun h => absurd h (by omega)) d

theorem Dev.vgdUv_eq (d : Dev) : d.vgdUv = ((d.putB R.GDA_STAT F.GDA_STAT_VGD_OK false).releaseAux (nAux d.member)).raise Pg.GDA Ev.VGD_UV := rfl

theorem Dev.vgdUv_spec (d : Dev) : FrameP { d with grp := d.vgdUv.grp } d.vgdUv [Pg.GDA] ∧ d.vgdUv.flag R.GDA_STAT F.GDA_STAT_VGD_OK = false ∧
    Raised d.vgdUv Pg.GDA Ev.VGD_UV ∧ ∀ n, n < nAux d.member → Released d d.vgdUv (n + 12) 7 8 := by
  rw [Dev.vgdUv_eq]
  have h8 := nAux_le8 d.member
  generalize nAux d.member = k at h8
  have hput : FrameOn grpPart (R.GDA_STAT :: auxRegs) d (d.putB R.GDA_STAT F.GDA_STAT_VGD_OK false) :=
    (FrameOn.refl grpPart_part _ d).putB grpPart_part _ _ (List.mem_cons_self ..)
  have hal : LegsAlike d (d.putB R.GDA_STAT F.GDA_STAT_VGD_OK false) := .setReg d _ fun g hg => by
    rw [gdLstat]; split <;> simp only [R.GDT_LSTAT, R.GDA_LSTAT, R.GDA_STAT] <;> omega
  have hflag : (d.putB R.GDA_STAT F.GDA_STAT_VGD_OK false).flag R.GDA_STAT F.GDA_STAT_VGD_OK = false :=
    Dev.flag_putB_self _ _ _ _ (by decide) (by decide)
  generalize d.putB R.GDA_STAT F.GDA_STAT_VGD_OK false = u at hput hal hflag
  have hf := u.releaseAux_frame h8
  have hgot := Releasing.of_alike hal (u.releaseAux_got h8)
  have hstat := hf.reg grpPart_part (a := R.GDA_STAT) (by decide) fun hm => (auxRegs_page hm).2 rfl
  generalize u.releaseAux k = v at hf hgot hstat
  have hq := v.raise_quiet Pg.GDA Ev.VGD_UV
  have hr := v.raise_raised (page := Pg.GDA) (src := Ev.VGD_UV) rfl
  generalize v.raise Pg.GDA Ev.VGD_UV = w at hq hr
  have hall := (hput.trans grpPart_part (hf.mono fun _ ha => List.mem_cons_of_mem _ ha)).quiet grpPart_part hq
  refine ⟨⟨hall.1, fun a ha hp => hall.2.1 a ha fun hm => hp ?_⟩, ?_, hr, fun n hn => ?_⟩
  · obtain rfl | hm := List.mem_cons.1 hm
    · decide
    · rw [(auxRegs_page hm).1]
      exact List.mem_singleton_self _
  · exact (hq.flag (by decide) _).trans ((Dev.flag_of_reg hstat _).trans hflag)
  · exact (hgot.quiet hq).released (by omega) fun _ hx _ => ⟨by omega, by omega, hx⟩

end

/-- Settles O34. -/
theorem gateReadiness : Obligations.GateReadiness := by
  refine ⟨fun s g hlive hg hp => ?_, fun s hlive => ?_⟩
  · refine ⟨fun hr => ⟨fun hw => ?_, fun t hw hl => ?_, fun t hw hl => ?_⟩, fun hlost => ?_, fun hno => ?_, fun t hc ht hd hr => ?_,
      fun t hw hl hr => ?_⟩
    · have h := s.dev.drdySet_spec g true { s.dev.grpS g with rdyAcc := s.dev.genP g && !(s.dev.grpS g).shut }
      exact ⟨_, onLive_eq hlive ((Dev.clocked_runs hr fun d => d.drdyReady g).trans (Dev.drdyReady_none hg hp hw)), h.frame, h.alone, h.drdy, h.own⟩
    · exact ⟨_, onLive_eq hlive (Dev.clocked_runs hr fun d => d.drdyReady g), Dev.drdyReady_spec hg hp hw hl⟩
    · exact onLive_eq hlive ((Dev.clocked_runs hr fun d => d.drdyReady g).trans (Dev.drdyReady_late hg hp hw hl))
    · exact ⟨_, onLive_eq hlive rfl, Dev.drdyFall_lost hg hp hlost⟩
    · have h := s.dev.drdySet_spec g false { s.dev.grpS g with rdyAcc := false, chkAt := none }
      have heq : s.dev.drdyFall g = s.dev.drdyGone g := by
        rw [Dev.drdyFall_eq hg hp]
        exact if_neg fun hx => absurd (hx.symm.trans hno) (by decide)
      exact ⟨_, onLive_eq hlive heq, h.frame, h.alone, h.drdy, h.own⟩
    · exact ⟨_, onLive_eq hlive (Dev.clocked_runs hr fun d => d.enaChkFail g), Dev.enaChkFail_spec hg hc ht hd⟩
    · have h := s.dev.waitOver_spec hg
      have hrun : s.dev.clocked Pg.GDT (fun d => if g < 12 then d.drdyToutCmd g else d) = s.dev.drdyToutCmd g :=
        (Dev.clocked_runs hr _).trans (if_pos hg)
      have hdue := Dev.drdyTout_due hw hl
      have hm := machOf_of (g := g) h.frame
      have hdr : (s.dev.waitOver g).drdy g = s.dev.drdy g := Dev.flag_of_reg (h.frame.reg grpPart_part (eventReg_gdtPins hg) (by
        simp only [List.mem_singleton, R.GDT_PINS, R.GDT_FLAG]; omega)) _
      have hl2 : (s.dev.waitOver g).replaying = false := (Dev.flag_of_reg (h.frame.reg grpPart_part (by decide) (by decide)) _).trans hlive.2
      have hmach : (s.dev.waitOver g).mach = s.dev.mach := (congrArg Dev.mach h.frame.1 :)
      generalize s.dev.waitOver g = u at h hdue hm hdr hl2 hmach
      have hw : (u.grpS g).waitAt = none := congrArg GrpSt.waitAt h.own
      cases hmo : s.dev.machOf g with
      | none =>
        refine ⟨u, onLive_eq hlive (hrun.trans (Dev.drdyToutCmd_none hdue (hm.trans hmo))), h.told, hw, hdr,
          fun _ => ⟨h.frame, h.alone, (congrArg GrpSt.shut h.own :)⟩, fun m hx => absurd hx.symm (Option.some_ne_none m)⟩
      | some m =>
        have heq := hrun.trans (Dev.drdyToutCmd_some hdue (hm.trans hmo))
        have hlt := machOf_lt hmo
        have hms : u.machS m = s.dev.machS m := by rw [Dev.machS, hmach]; rfl
        refine ⟨_, onLive_eq hlive heq, ?_⟩
        rw [Dev.waitFails, hms]
        split
        · have hi := IdleKept.armFail (m := m) u hg hl2 hlt
          have ha := Dev.armFail_spec hlt hl2
          have hr := ((MachRun.refl m u).armFail hlt hl2).raised h.told
          generalize u.armFail m = v at hi ha hr
          refine ⟨hr, hi.wait hw, hi.drdy.trans hdr, fun hx => absurd hx (Option.some_ne_none m), fun k hk _ _ => ?_⟩
          obtain rfl := Option.some.inj hk
          exact ⟨ha.target, ha.state, ha.told⟩
        · next hno =>
          refine ⟨h.told, hw, hdr, fun hx => absurd hx (Option.some_ne_none m), fun k hk ht hna => ?_⟩
          obtain rfl := Option.some.inj hk
          rw [hna, Bool.not_false, Bool.and_true] at hno
          exact absurd (Option.isSome_iff_ne_none.2 ht) hno
  · refine ⟨fun n x mv hn hx hr => ⟨?_, fun hmv => ?_, fun t hq ht => ⟨fun hmv => ?_, fun hmv => ?_⟩⟩, ?_, fun mv => ⟨fun h1 h2 hr => ?_, fun h1 => ?_⟩⟩
    · exact ⟨_, onLive_eq hlive (Dev.clocked_runs hr fun d => d.bstUv n x), Dev.bstUv_spec hn hx⟩
    · refine onLive_eq hlive ((Dev.clocked_runs hr fun d => d.bstUvClear n x mv).trans ?_)
      rw [Dev.bstUvClear, if_pos ⟨hn, hx, hmv⟩, gdLstat_aux]
    · have hrun := (Dev.clocked_runs hr fun d => d.bstSample n x mv).trans ((Dev.bstSample_eq hq ht).trans (if_pos hmv))
      exact ⟨_, onLive_eq hlive hrun, Dev.refreshed_spec (s.dev.rfTaken_spec n x) hx⟩
    · have hrun := (Dev.clocked_runs hr fun d => d.bstSample n x mv).trans ((Dev.bstSample_eq hq ht).trans (if_neg (not_le.2 hmv)))
      rw [Dev.refreshFail_eq] at hrun
      exact ⟨_, onLive_eq hlive hrun, (Dev.failCounted_spec (s.dev.rfTaken_spec n x) hx).judged (hn.trans_le (nAux_le8 _)) hx⟩
    · exact ⟨_, onLive_eq hlive rfl, s.dev.vgdUv_spec⟩
    · refine onLive_eq hlive ((Dev.clocked_runs hr fun d => d.vgdRecover mv).trans ?_)
      exact if_pos ⟨by omega, by omega⟩
    · exact onLive_eq hlive (if_pos (by omega))

end Sys2Proof.Machine
end

section
/-! PROOFS. Forced states of a leg and due edges of its switches (R286, R288, R292). -/

namespace Sys2Proof.Machine

section
variable {d e f : Dev} {g x c : Nat} {w : Word}

/-! ### One leg alone changes -/

/-- The groups and the other legs of a group stand. -/
structure OneLeg (g x : Nat) (d e : Dev) : Prop where
  groups : ∀ j, j ≠ g → e.grpS j = d.grpS j
  legs : ∀ y, y ≠ x → e.legS g y = d.legS g y

theorem OneLeg.of_grp (h : e.grp = d.grp) : OneLeg g x d e := by
  have hg : ∀ j, e.grpS j = d.grpS j := fun j => by rw [Dev.grpS, h]; rfl
  exact ⟨fun j _ => hg j, fun y _ => by rw [Dev.legS, hg]; rfl⟩

theorem OneLeg.trans (h : OneLeg g x d e) (k : OneLeg g x e f) : OneLeg g x d f :=
  ⟨fun j hj => (k.groups j hj).trans (h.groups j hj), fun y hy => (k.legs y hy).trans (h.legs y hy)⟩

theorem OneLeg.setGrp (d : Dev) (g x : Nat) (v : GrpSt) (hv : v.legs = (d.grpS g).legs) : OneLeg g x d (d.setGrp g v) := by
  refine ⟨fun j hj => by rw [Dev.grpS_setGrp, if_neg hj], fun y _ => ?_⟩
  rw [Dev.legS, Dev.grpS_setGrp_self, hv]
  rfl

theorem OneLeg.setLeg (d : Dev) (g x : Nat) (q : LegSt) : OneLeg g x d (d.setLeg g x q) :=
  ⟨fun j hj => by rw [Dev.setLeg, Dev.grpS_setGrp, if_neg hj], fun y hy => by rw [Dev.legS_setLeg, if_neg fun h => hy h.2]⟩

theorem Dev.legS_setLeg_self (d : Dev) (g x : Nat) (q : LegSt) : (d.setLeg g x q).legS g x = q := by rw [Dev.legS_setLeg, if_pos ⟨rfl, rfl⟩]

theorem legS_of_grp (h : e.grp = d.grp) (g x : Nat) : e.legS g x = d.legS g x := by rw [Dev.legS, Dev.grpS, h]; rfl

/-! ### A write of a forced state (R292) -/

/-- What a leg's record takes from a written force. -/
def LegSt.forced (q : LegSt) (now : Bool) (code t : Nat) : LegSt :=
  if now then { q with imm := some (code, t + 4), fPend := none } else { q with fPend := some (code, t), imm := none }

theorem Dev.legForceWrite_eq {mid : Nat} (ht : d.takenAt mid (R.PWT_LEG g x) = true)
    (hp : groupPresent (d.plainWrite mid (R.PWT_LEG g x) w).member g = true) : d.legForceWrite mid g x w =
      (d.plainWrite mid (R.PWT_LEG g x) w).setLeg g x (((d.plainWrite mid (R.PWT_LEG g x) w).legS g x).forced
        ((d.plainWrite mid (R.PWT_LEG g x) w).pwmEn g && (d.plainWrite mid (R.PWT_LEG g x) w).flag (R.PWT_LEG g x) F.PWT_LEG_IMM &&
          (d.plainWrite mid (R.PWT_LEG g x) w).get (R.PWT_LEG g x) F.PWT_LEG_FORCE != 0)
        ((d.plainWrite mid (R.PWT_LEG g x) w).get (R.PWT_LEG g x) F.PWT_LEG_FORCE) (d.plainWrite mid (R.PWT_LEG g x) w).gtc) := by
  rw [Dev.legForceWrite, ht, if_neg (by rw [hp]; decide), LegSt.forced]
  split
  · next h => rw [if_pos h]
  · next h => rw [if_neg h]

/-- What a taken write of PWT_LEG leaves, before the leg's record follows. -/
structure LegWritten (g x : Nat) (w : Word) (d e : Dev) : Prop where
  frame : FrameOn noPart [R.PWT_LEG g x, R.PG_STAT (Pg.PWT g)] d e
  force : e.get (R.PWT_LEG g x) F.PWT_LEG_FORCE = getF w F.PWT_LEG_FORCE
  imm : e.get (R.PWT_LEG g x) F.PWT_LEG_IMM = getF w F.PWT_LEG_IMM

theorem Dev.legPlain_spec {mid : Nat} (hg : g < 20) (hx : x < 3) (ht : d.takenAt mid (R.PWT_LEG g x) = true) (w : Word) :
    LegWritten g x w d (d.plainWrite mid (R.PWT_LEG g x) w) := by
  obtain ⟨b, i, hat, -⟩ := legAt hg hx
  have h := hat d
  obtain ⟨hf, hi⟩ := h.plainWrite_force ht w
  refine ⟨?_, hf, hi⟩
  have hbase : pageBase (Pg.PWT g) + (0xA0 + 4 * x) = R.PWT_LEG g x := by
    rw [← h.page, ← h.offset]
    exact pageBase_pageOf h.block.space
  rw [Dev.plainWrite_placed (h.placed ht) h.fields mid (by rw [h.bits]; exact BitVec.and_zero), h.page, Dev.writeFields, hbase]
  exact ((FrameOn.refl noPart_part _ d).setReg noPart_part _ (List.mem_cons_self ..)).denyIf noPart_part (by simp) _

theorem immBit (w : Word) : (getF w F.PWT_LEG_IMM != 0) = bitOf w 29 := by
  have hk : w.toNat / 2 ^ 29 % 2 < 2 := Nat.mod_lt _ (by decide)
  change (w.toNat / 2 ^ 29 % 2 != 0) = (w.toNat / 2 ^ 29 % 2 == 1)
  generalize w.toNat / 2 ^ 29 % 2 = k at hk
  interval_cases k <;> rfl

theorem eventReg_pgCtrl (p : Nat) : eventReg (R.PG_CTRL p) = false := by
  rw [eventReg_eq_false]
  simp only [R.PG_CTRL, pageBase]
  omega

theorem LegWritten.pwmEn (h : LegWritten g x w d e) (hx : x < 3) : e.pwmEn g = d.pwmEn g := by
  have hm : e.member = d.member := (congrArg Dev.member h.frame.1 :)
  have hc : e.reg (R.PG_CTRL (Pg.PWT g)) = d.reg (R.PG_CTRL (Pg.PWT g)) := h.frame.reg noPart_part (eventReg_pgCtrl _) (by
    simp only [List.mem_cons, List.not_mem_nil, or_false, R.PG_CTRL, R.PWT_LEG, R.PG_STAT, pageBase, Pg.PWT]
    omega)
  rw [Dev.pwmEn, Dev.pwmEn, hm, Dev.pageEn, Dev.pageEn, Dev.flag_of_reg hc]

theorem Dev.legForce_spec {mid : Nat} (hlive : d.replaying = false) (hg : g < 20) (hx : x < 3) (ht : d.takenAt mid (R.PWT_LEG g x) = true)
    (hp : groupPresent d.member g = true) (w : Word) :
    let f := d.unitWrite 20 g mid (R.PWT_LEG g x) w
    FrameOn grpPart [R.PWT_LEG g x, R.PG_STAT (Pg.PWT g)] d f ∧ OneLeg g x d f ∧
      f.get (R.PWT_LEG g x) F.PWT_LEG_FORCE = getF w F.PWT_LEG_FORCE ∧
      f.legS g x = (d.legS g x).forced (d.pwmEn g && bitOf w 29 && getF w F.PWT_LEG_FORCE != 0) (getF w F.PWT_LEG_FORCE) d.gtc := by
  dsimp only
  rw [Dev.unitWrite_in d hg]
  have hq := Dev.pWrite_leg hg hx hlive ht w
  have h := Dev.legPlain_spec hg hx ht w
  have hm : (d.plainWrite mid (R.PWT_LEG g x) w).member = d.member := (congrArg Dev.member h.frame.1 :)
  have heq := Dev.legForceWrite_eq ht (w := w) (by rw [hm]; exact hp)
  rw [heq] at hq
  generalize d.plainWrite mid (R.PWT_LEG g x) w = u at h hq
  generalize d.pWrite mid (R.PWT_LEG g x) w = v at hq
  have hgrp : u.grp = d.grp := (congrArg Dev.grp h.frame.1 :)
  have hgtc : u.gtc = d.gtc := (congrArg Dev.gtc h.frame.1 :)
  have hflag : u.flag (R.PWT_LEG g x) F.PWT_LEG_IMM = bitOf w 29 := by
    rw [← immBit, ← h.imm]
    rfl
  rw [h.pwmEn hx, hflag, h.force, hgtc, legS_of_grp hgrp] at hq
  generalize (d.legS g x).forced (d.pwmEn g && bitOf w 29 && getF w F.PWT_LEG_FORCE != 0) (getF w F.PWT_LEG_FORCE) d.gtc = q at hq
  refine ⟨((noPart_grp h.frame).setLeg g x q).quiet grpPart_part hq, ((OneLeg.of_grp hgrp).trans (.setLeg u g x q)).trans (.of_grp hq.grp), ?_, ?_⟩
  · exact (hq.get (eventReg_pwtLeg g x hx) _).trans ((Dev.get_of_reg (Dev.reg_setLeg _ _ _ _ _) _).trans h.force)
  · rw [legS_of_grp hq.grp, Dev.legS_setLeg_self]

/-! ### A forced state that takes effect (R292) -/

theorem upAfter_append (es : List EdgeSt) (lv : Bool) (x : Nat) (hi : Bool) (y : EdgeSt) :
    upAfter (es ++ [y]) lv x hi = if y.leg = x ∧ y.hi = hi then y.on else upAfter es lv x hi := by
  rw [upAfter, List.filter_append]
  by_cases h : y.leg = x ∧ y.hi = hi
  · have hf : [y].filter (fun e => e.leg == x && e.hi == hi) = [y] := by simpa using h
    rw [hf, List.getLast?_append, if_pos h]
    rfl
  · have hf : [y].filter (fun e => e.leg == x && e.hi == hi) = [] := by
      rw [List.filter_cons, if_neg]
      · rfl
      · simpa using h
    rw [hf, List.append_nil, if_neg h]
    rfl

theorem upAfter_appendIf (b : Bool) (es : List EdgeSt) (lv : Bool) (x : Nat) (hi : Bool) (y : EdgeSt) :
    upAfter (if b then es ++ [y] else es) lv x hi = if b = true ∧ y.leg = x ∧ y.hi = hi then y.on else upAfter es lv x hi := by
  cases b with
  | false => rw [if_neg Bool.false_ne_true, if_neg fun h => Bool.false_ne_true h.1]
  | true => rw [if_pos rfl, upAfter_append]; simp

/-- A leg's edges held in a state leave it there. -/
theorem holdEdges_upAfter (d : Dev) (g : Nat) (q : LegSt) {x code : Nat} (h0 : code ≠ 0) (h4 : code < 4) (t a b : Int) (es : List EdgeSt) (hi : Bool) :
    upAfter (holdEdges (d.mkEdge g x) q x code t a b es) (q.lv hi) x hi = (code == if hi then 3 else 2) := by
  have hleg : ∀ h o u, (d.mkEdge g x h o u).leg = x := fun _ _ _ => rfl
  have hhi : ∀ h o u, (d.mkEdge g x h o u).hi = h := fun _ _ _ => rfl
  have hon : ∀ h o u, (d.mkEdge g x h o u).on = o := fun _ _ _ => rfl
  rw [holdEdges]
  generalize d.mkEdge g x = mk at hleg hhi hon
  generalize es.filter (fun e => e.leg != x || decide (e.t < t)) = es0
  have hcode : code = 1 ∨ code = 2 ∨ code = 3 := by omega
  cases hi with
  | true =>
    have hlv : q.lv true = q.lvH := rfl
    rw [hlv]
    simp only [upAfter_appendIf, hleg, hhi, hon]
    obtain rfl | rfl | rfl := hcode <;> cases upAfter es0 q.lvH x true <;> simp
  | false =>
    have hlv : q.lv false = q.lvL := rfl
    rw [hlv]
    simp only [upAfter_appendIf, hleg, hhi, hon]
    obtain rfl | rfl | rfl := hcode <;> cases upAfter es0 q.lvL x false <;> simp

theorem FrameOn.showForced {l : List Nat} (h : FrameOn grpPart l d e) (hl : R.PWT_STAT g ∈ l) : FrameOn grpPart l d (e.showForced g) :=
  h.put grpPart_part _ _ hl

theorem Dev.showForced_grp (d : Dev) (g : Nat) : (d.showForced g).grp = d.grp := by
  rw [Dev.showForced, Dev.put]
  rfl

/-- A leg's record with a force in effect. -/
def LegSt.inForce (q : LegSt) (c : Nat) : LegSt := { q with force := c, fNext := c }

/-- A leg forced, before the group's status shows it. -/
def Dev.legHeldIn (d : Dev) (g x c : Nat) (t : Int) : Dev :=
  let e := (d.setLeg g x ((d.legS g x).inForce c)).setCarry g x 0
  e.setEdges g (e.ownEdges g x t (e.grpS g).edges)

theorem Dev.applyForce_none (d : Dev) (g x : Nat) (t : Int) : d.applyForce g x 0 t = (d.setLeg g x ((d.legS g x).inForce 0)).showForced g := rfl

theorem Dev.applyForce_hold (d : Dev) (g x : Nat) {c : Nat} (h : c ≠ 0) (t : Int) : d.applyForce g x c t = (d.legHeldIn g x c t).showForced g := by
  rw [Dev.applyForce, if_neg h]
  rfl

/-- A force in effect. -/
structure Forced (g x c : Nat) (d e : Dev) : Prop where
  frame : FrameOn grpPart [R.PWT_CARRY g x, R.PWT_STAT g] d e
  one : OneLeg g x d e
  leg : e.legS g x = (d.legS g x).inForce c
  rest : (e.grpS g).rest = (d.grpS g).rest
  held : c ≠ 0 → e.carry g x = 0 ∧ ((d.grpS g).asc = false → c < 4 →
    ∀ hi, upAfter (e.grpS g).edges ((d.legS g x).lv hi) x hi = (c == if hi then 3 else 2))

theorem Dev.carry_setCarry (d : Dev) (g x : Nat) : (d.setCarry g x 0).carry g x = 0 := by
  rw [Dev.carry, Dev.setCarry, Dev.reg_setReg_self]
  decide

/-- The edges of a leg that is forced, where no group action holds it. -/
theorem ownEdges_forced {t : Int} {es : List EdgeSt} (ha : (d.grpS g).asc = false) (hf : (d.legS g x).force = c) (hc : c ≠ 0) :
    d.ownEdges g x t es = holdEdges (d.mkEdge g x) (d.legS g x) x c t (d.dtH g) (d.dtL g) es := by
  rw [Dev.ownEdges, ha, if_neg Bool.false_ne_true, hf, if_pos hc]

theorem Dev.legHeldIn_spec (d : Dev) (g x : Nat) {c : Nat} (hc : c ≠ 0) (t : Int) : Forced g x c d (d.legHeldIn g x c t) := by
  rw [Dev.legHeldIn]
  have hset : FrameOn grpPart [R.PWT_CARRY g x, R.PWT_STAT g] d ((d.setLeg g x ((d.legS g x).inForce c)).setCarry g x 0) :=
    ((FrameOn.refl grpPart_part _ d).setLeg g x _).setReg grpPart_part _ (List.mem_cons_self ..)
  have hgrp : ((d.setLeg g x ((d.legS g x).inForce c)).setCarry g x 0).grp = (d.setLeg g x ((d.legS g x).inForce c)).grp := rfl
  have hleg : ((d.setLeg g x ((d.legS g x).inForce c)).setCarry g x 0).legS g x = (d.legS g x).inForce c :=
    (legS_of_grp hgrp g x).trans (d.legS_setLeg_self g x _)
  have hasc : (((d.setLeg g x ((d.legS g x).inForce c)).setCarry g x 0).grpS g).asc = (d.grpS g).asc := by
    rw [Dev.grpS, hgrp]
    change ((d.setLeg g x ((d.legS g x).inForce c)).grpS g).asc = _
    rw [Dev.setLeg, Dev.grpS_setGrp_self]
  have hone : OneLeg g x d ((d.setLeg g x ((d.legS g x).inForce c)).setCarry g x 0) := (OneLeg.setLeg d g x _).trans (.of_grp hgrp)
  have hcarry := (d.setLeg g x ((d.legS g x).inForce c)).carry_setCarry g x
  have hrest : (((d.setLeg g x ((d.legS g x).inForce c)).setCarry g x 0).grpS g).rest = (d.grpS g).rest := by
    rw [Dev.grpS, hgrp]
    change ((d.setLeg g x ((d.legS g x).inForce c)).grpS g).rest = _
    rw [Dev.setLeg, Dev.grpS_setGrp_self]
    rfl
  generalize (d.setLeg g x ((d.legS g x).inForce c)).setCarry g x 0 = u at hset hleg hasc hone hcarry hrest
  refine ⟨hset.setGrp g _, hone.trans (.setGrp u g x _ rfl), (u.legS_setEdges g _ g x).trans hleg, ?_, fun _ => ⟨?_, fun ha h4 hi => ?_⟩⟩
  · rw [Dev.setEdges, Dev.grpS_setGrp_self]
    exact hrest
  · rw [Dev.carry, Dev.setEdges, Dev.reg_setGrp]
    exact hcarry
  · rw [Dev.setEdges, Dev.grpS_setGrp_self, ownEdges_forced (c := c) (hasc.trans ha) (by rw [hleg]; rfl) hc, hleg]
    exact holdEdges_upAfter u g ((d.legS g x).inForce c) hc h4 t _ _ _ hi

theorem Forced.shown (h : Forced g x c d e) (hx : x < 3) : Forced g x c d (e.showForced g) := by
  have hgrp := e.showForced_grp g
  have hg : (e.showForced g).grpS g = e.grpS g := by rw [Dev.grpS, hgrp]; rfl
  refine ⟨h.frame.showForced (by simp), h.one.trans (.of_grp hgrp), (legS_of_grp hgrp g x).trans h.leg, by rw [hg]; exact h.rest, fun hc => ?_⟩
  obtain ⟨h1, h2⟩ := h.held hc
  refine ⟨?_, fun ha h4 hi => by rw [hg]; exact h2 ha h4 hi⟩
  rw [Dev.carry, Dev.showForced, Dev.reg_put_ne _ _ _ (by simp only [R.PWT_CARRY, R.PWT_STAT]; omega)]
  exact h1

theorem Dev.applyForce_spec (d : Dev) (g : Nat) (hx : x < 3) (c : Nat) (t : Int) : Forced g x c d (d.applyForce g x c t) := by
  by_cases hc : c = 0
  · subst hc
    rw [Dev.applyForce_none]
    exact Forced.shown ⟨(FrameOn.refl grpPart_part _ d).setLeg g x _, .setLeg d g x _, d.legS_setLeg_self g x _,
      by rw [Dev.setLeg, Dev.grpS_setGrp_self]; rfl, fun h => absurd rfl h⟩ hx
  · rw [d.applyForce_hold g x hc]
    exact (d.legHeldIn_spec g x hc t).shown hx

theorem Dev.forceImmediate_eq {t : Nat} (hi : (d.legS g x).imm = some (c, t)) (ht : t ≤ d.gtc) :
    d.forceImmediate g x = (d.setLeg g x { d.legS g x with imm := none }).applyForce g x c (64 * (d.gtc : Int)) := by
  rw [Dev.forceImmediate, hi]
  exact if_pos ht

theorem Dev.forceImmediate_spec (hx : x < 3) {t : Nat} (hi : (d.legS g x).imm = some (c, t)) (ht : t ≤ d.gtc) (h4 : c < 4) :
    FrameOn grpPart [R.PWT_CARRY g x, R.PWT_STAT g] d (d.forceImmediate g x) ∧ OneLeg g x d (d.forceImmediate g x) ∧
      ((d.forceImmediate g x).legS g x).force = c ∧ ((d.forceImmediate g x).legS g x).imm = none ∧
      (c ≠ 0 → (d.forceImmediate g x).carry g x = 0 ∧ ((d.grpS g).asc = false →
        ∀ hi, upAfter ((d.forceImmediate g x).grpS g).edges ((d.legS g x).lv hi) x hi = (c == if hi then 3 else 2))) := by
  rw [Dev.forceImmediate_eq hi ht]
  have h0 : FrameOn grpPart [R.PWT_CARRY g x, R.PWT_STAT g] d (d.setLeg g x { d.legS g x with imm := none }) :=
    (FrameOn.refl grpPart_part _ d).setLeg g x _
  have hl := d.legS_setLeg_self g x { d.legS g x with imm := none }
  have ho := OneLeg.setLeg d g x { d.legS g x with imm := none }
  have ha : ((d.setLeg g x { d.legS g x with imm := none }).grpS g).asc = (d.grpS g).asc := by rw [Dev.setLeg, Dev.grpS_setGrp_self]
  generalize d.setLeg g x { d.legS g x with imm := none } = u at h0 hl ho ha
  have h := u.applyForce_spec g hx c (64 * (d.gtc : Int))
  generalize u.applyForce g x c (64 * (d.gtc : Int)) = v at h
  have hleg := h.leg
  have hheld := h.held
  rw [hl] at hleg hheld
  rw [ha] at hheld
  exact ⟨h0.trans grpPart_part h.frame, ho.trans h.one, by rw [hleg]; rfl, by rw [hleg]; rfl, fun hc => ⟨(hheld hc).1, fun ha => (hheld hc).2 ha h4⟩⟩

/-! ### A due edge (R286, R288) -/

/-- Groups and delay lines. -/
def edgePart (d e : Dev) : Dev := { d with grp := e.grp, dl := e.dl }

theorem edgePart_part : Part edgePart := ⟨fun _ => rfl, fun _ _ _ => rfl, fun _ _ => rfl, fun _ _ _ => rfl⟩

/-- A leg's record with an edge of one switch taken. -/
def LegSt.took (q : LegSt) (hi low : Bool) (y : EdgeSt) : LegSt :=
  if hi then { q with lvH := y.on && !low, offH := if y.on then q.offH else some y.t }
  else { q with lvL := y.on && !low, offL := if y.on then q.offL else some y.t }

/-- Whether a low bootstrap keeps a switch from turning on (R319). -/
def Dev.bootLow (d : Dev) (g x : Nat) (hi on : Bool) : Bool := decide (12 ≤ g) && d.pinSw g x hi && on && d.flag (gdLstat g) (F.GDA_LSTAT_UV x)

theorem Dev.takeEdge_eq {hi : Bool} {y : EdgeSt} (hf : d.frozen (Pg.PWT g) = false)
    (hy : (d.grpS g).edges.find? (fun z => z.leg == x && z.hi == hi && decide (d.edgeDue g z ≤ d.gtc)) = some y) : d.takeEdge g x hi =
      some (((d.setGrp g { d.grpS g with edges := (d.grpS g).edges.erase y }).setLeg g x ((d.legS g x).took hi (d.bootLow g x hi y.on) y)).placeTap
        g x hi y.t) := by
  have hy' : (d.grpS g).edges.find? (fun z => z.leg == x && z.hi == hi && decide (d.edgeDue g z ≤ d.gtc) && !d.frozen (Pg.PWT g)) = some y := by
    rw [← hy, hf]
    simp only [Bool.not_false, Bool.and_true]
  rw [Dev.takeEdge]
  dsimp only
  rw [hy']
  rfl

theorem LegSt.took_lv (q : LegSt) (hi low : Bool) (y : EdgeSt) : (q.took hi low y).lv hi = (y.on && !low) ∧
    (q.took hi low y).lv (!hi) = q.lv (!hi) ∧ (y.on = false → (q.took hi low y).off hi = some y.t) := by
  cases hi <;> refine ⟨rfl, rfl, fun h => ?_⟩ <;> simp [LegSt.took, LegSt.off, h]

/-- An edge taken. -/
structure EdgeDone (g x : Nat) (hi : Bool) (y : EdgeSt) (d f : Dev) : Prop where
  frame : FrameOn edgePart [] d f
  one : OneLeg g x d f
  edges : (f.grpS g).edges = (d.grpS g).edges.erase y
  leg : f.legS g x = (d.legS g x).took hi (d.bootLow g x hi y.on) y

theorem Dev.placeTap_same (d : Dev) (g x : Nat) (hi : Bool) (t : Int) : FrameOn edgePart [] d (d.placeTap g x hi t) ∧ (d.placeTap g x hi t).grp = d.grp := by
  rw [Dev.placeTap]
  dsimp only
  split
  · exact ⟨FrameOn.refl edgePart_part _ d, rfl⟩
  · exact ⟨(FrameOn.refl edgePart_part _ d).part edgePart_part rfl fun _ => rfl, rfl⟩

theorem Dev.takeEdge_spec {hi : Bool} {y : EdgeSt} (hf : d.frozen (Pg.PWT g) = false)
    (hy : (d.grpS g).edges.find? (fun z => z.leg == x && z.hi == hi && decide (d.edgeDue g z ≤ d.gtc)) = some y)
    (he : d.takeEdge g x hi = some f) : EdgeDone g x hi y d f := by
  rw [Dev.takeEdge_eq hf hy] at he
  have hset : FrameOn grpPart [] d (d.setGrp g { d.grpS g with edges := (d.grpS g).edges.erase y }) := (FrameOn.refl grpPart_part _ d).setGrp g _
  have hone := OneLeg.setGrp d g x { d.grpS g with edges := (d.grpS g).edges.erase y } rfl
  have hed : ((d.setGrp g { d.grpS g with edges := (d.grpS g).edges.erase y }).grpS g).edges = (d.grpS g).edges.erase y := by rw [Dev.grpS_setGrp_self]
  generalize d.setGrp g { d.grpS g with edges := (d.grpS g).edges.erase y } = u at he hset hone hed
  generalize hq : (d.legS g x).took hi (d.bootLow g x hi y.on) y = q at he
  have hset2 := hset.setLeg g x q
  have hone2 := hone.trans (.setLeg u g x q)
  have hleg := u.legS_setLeg_self g x q
  have hed2 : ((u.setLeg g x q).grpS g).edges = (d.grpS g).edges.erase y := by rw [Dev.setLeg, Dev.grpS_setGrp_self]; exact hed
  generalize u.setLeg g x q = v at he hset2 hone2 hleg hed2
  obtain ⟨hp, hg⟩ := v.placeTap_same g x hi y.t
  rw [Option.some.inj he] at hp hg
  have hgs : f.grpS g = v.grpS g := by rw [Dev.grpS, hg]; rfl
  refine ⟨(hset2.widen grpPart_part edgePart_part (fun _ _ => rfl) fun _ ha => ha).trans edgePart_part hp, hone2.trans (.of_grp hg), by rw [hgs]; exact hed2,
    (legS_of_grp hg g x).trans (hleg.trans hq.symm)⟩

end

end Sys2Proof.Machine
end

section
/-! PROOFS. Edge blanking, calibration of delay lines, and the obligation about forced states and edges (R146, R286, R288, R289, R292). -/

namespace Sys2Proof.Machine

section
variable {d e f : Dev} {g x c o line : Nat}

/-! ### The levels of switches stand -/

/-- Every switch stands as it was. -/
def LvKept (d e : Dev) : Prop := ∀ g x hi, (e.legS g x).lv hi = (d.legS g x).lv hi

theorem LvKept.refl (d : Dev) : LvKept d d := fun _ _ _ => rfl

theorem LvKept.trans (h : LvKept d e) (k : LvKept e f) : LvKept d f := fun g x hi => (k g x hi).trans (h g x hi)

theorem LvKept.of_grp (h : e.grp = d.grp) : LvKept d e := fun g x hi => by rw [legS_of_grp h]

theorem LvKept.of_rel (h : RelKept anyLeg d e) : LvKept d e := fun g x hi => by
  have hr := h.leg g x
  have h1 : (e.legS g x).lvH = (d.legS g x).lvH := (congrArg LegSt.lvH hr :)
  have h2 : (e.legS g x).lvL = (d.legS g x).lvL := (congrArg LegSt.lvL hr :)
  rw [LegSt.lv, LegSt.lv, h1, h2]

theorem LvKept.setLeg (d : Dev) (g x : Nat) {q : LegSt} (hq : ∀ hi, q.lv hi = (d.legS g x).lv hi) : LvKept d (d.setLeg g x q) := fun h y hi => by
  rw [Dev.legS_setLeg]
  split
  · next hh => rw [hq, hh.1, hh.2]
  · rfl

theorem LvKept.limitForce (d : Dev) (c : Nat) (upper lower : Bool) : LvKept d (d.limitForce c upper lower) := by
  rw [Dev.limitForce]
  split
  · exact .refl d
  · refine forN_keeps (P := LvKept d) 3 (fun x _ e he => ?_) (.refl d)
    split
    · refine he.trans fun h y hi => ?_
      rw [Dev.legS_limitLeg]
      split
      · next hh => rw [hh.1, hh.2]; rfl
      · rfl
    · exact he

theorem Dev.protectRelease_kept (d : Dev) (c : Nat) : RelKept anyLeg d (d.protectRelease c) := by
  refine forN_keeps (P := RelKept anyLeg d) 20 (fun g hg e he => ?_) (.refl _ d)
  split
  · exact he.trans (e.release_kept hg _ _)
  · exact he

theorem Dev.limitEvent_grp (d : Dev) (c : Nat) : (d.limitEvent c).grp = d.grp := by
  rw [Dev.limitEvent]
  split
  · rfl
  · exact Dev.cmpEvent_grp _ _ _

theorem LvKept.cmpAct (d : Dev) (c : Nat) (hi lo : Bool) : LvKept d (d.cmpAct c hi lo) := by
  have h0 : LvKept d (d.tripShown c hi) := .of_grp rfl
  rw [Dev.cmpAct_eq]
  generalize d.tripShown c hi = u at h0 ⊢
  split
  · have h1 := h0.trans (.of_rel (u.protectRelease_kept c))
    exact (h1.trans (.of_grp (Dev.emitProt_quiet _ _).grp)).trans (.of_grp (Dev.cmpEvent_grp _ _ _))
  · have h1 := h0.trans (.limitForce u c hi lo)
    generalize u.limitForce c hi lo = v at h1 ⊢
    refine LvKept.trans ?_ (.of_grp (Dev.limitEvent_grp _ c))
    split
    · exact h1.trans (.of_grp (Dev.emitProt_quiet _ _).grp)
    · exact h1

theorem LvKept.cmpUnmask (d : Dev) (c : Nat) : LvKept d (d.cmpUnmask c) := by
  rw [Dev.cmpUnmask]
  split
  · exact .cmpAct d c _ _
  · exact .refl d

theorem LvKept.cmpBlankSync (d : Dev) (c : Nat) : LvKept d (d.cmpBlankSync c) := by
  have h : LvKept d (d.blankShown c) := .of_grp rfl
  rw [Dev.cmpBlankSync_eq]
  split
  · exact h.trans (.cmpUnmask _ c)
  · exact h

/-! ### One comparator blanked by an edge (R146) -/

theorem Dev.cmpUnmask_stands (d : Dev) (hc : c < nCmp d.member) : CmpStands d (d.cmpUnmask c) c := by
  rw [Dev.cmpUnmask]
  split
  · exact (d.cmpAct_spec hc _ _).2
  · exact ⟨fun _ _ => rfl, ⟨(d.cmpS c).limited, rfl⟩, fun _ _ => rfl⟩

/-- A comparator's edge blanking begins. -/
def Dev.edgeSeen (d : Dev) (c len : Nat) : Dev := d.setCmp c { d.cmpS c with edgeEnd := some (d.gtc + len) }

/-- A comparator blanked by an edge. -/
structure EdgeBlanked (c len : Nat) (d e : Dev) : Prop where
  frame : FrameOn cmpPart (cmpOwn c ++ gdAll) d e
  lv : LvKept d e
  others : ∀ j, j ≠ c → e.cmpS j = d.cmpS j
  until' : (e.cmpS c).edgeEnd = some (d.gtc + len)
  shown : (d.cmpS c).capped = false → e.flag (R.CMP_STAT c) F.CMP_STAT_BLANKED = true

theorem Dev.edgeBlanked_spec (d : Dev) (hc : c < nCmp d.member) {len : Nat} (hl : len ≠ 0) : EdgeBlanked c len d ((d.edgeSeen c len).cmpBlankSync c) := by
  have hset : FrameOn cmpPart (cmpOwn c ++ gdAll) d (d.edgeSeen c len) := (FrameOn.refl cmpPart_part _ d).setCmp c _
  have hrec : (d.edgeSeen c len).cmpS c = { d.cmpS c with edgeEnd := some (d.gtc + len) } := Dev.cmpS_setCmp_self _ _ _
  have hoth : ∀ j, j ≠ c → (d.edgeSeen c len).cmpS j = d.cmpS j := fun j hj => by rw [Dev.edgeSeen, Dev.cmpS_setCmp, if_neg hj]
  have hgtc : (d.edgeSeen c len).gtc = d.gtc := rfl
  have hmem : (d.edgeSeen c len).member = d.member := rfl
  have hlv : LvKept d (d.edgeSeen c len) := .of_grp rfl
  generalize d.edgeSeen c len = u at hset hrec hoth hgtc hmem hlv
  have hend : (u.cmpS c).edgeEnd = some (d.gtc + len) := by rw [hrec]
  have hsrc : u.cmpBlankSrc c = true := by
    rw [Dev.cmpBlankSrc_edge hend, hgtc, decide_eq_true (show d.gtc < d.gtc + len by omega), Bool.or_true]
  have hblank : (u.blankRec c).edgeEnd = some (d.gtc + len) := by
    obtain h | ⟨-, t, ht, hle⟩ := u.blankRec_edge c
    · exact h.trans hend
    · rw [hend, Option.some.injEq] at ht
      omega
  have hsh : ∀ j, (u.blankShown c).cmpS j = if j = c then u.blankRec c else u.cmpS j := u.blankShown_cmpS c
  have hframe := Dev.cmpBlankSync_frame (c := c) (l := cmpOwn c ++ gdAll) (fun _ ha => List.mem_append_left _ ha)
    (fun _ ha => List.mem_append_right _ ha) u
  have hstands : ∀ j, j ≠ c → (u.cmpBlankSync c).cmpS j = u.cmpS j := by
    intro j hj
    rw [Dev.cmpBlankSync_eq]
    split
    · rw [((u.blankShown c).cmpUnmask_stands (by rw [u.blankShown_member, hmem]; exact hc)).1 j hj, hsh, if_neg hj]
    · rw [hsh, if_neg hj]
  have hown : ((u.cmpBlankSync c).cmpS c).edgeEnd = some (d.gtc + len) := by
    rw [Dev.cmpBlankSync_eq]
    split
    · rw [((u.blankShown c).cmpUnmask_stands (by rw [u.blankShown_member, hmem]; exact hc)).cmpS_field (·.edgeEnd) fun _ _ => rfl, hsh, if_pos rfl]
      exact hblank
    · rw [hsh, if_pos rfl]
      exact hblank
  refine ⟨hset.trans cmpPart_part hframe, hlv.trans (.cmpBlankSync u c), fun j hj => (hstands j hj).trans (hoth j hj), hown, fun hcap => ?_⟩
  obtain ⟨heq, hflag⟩ := Dev.cmpBlankSync_on hsrc (by rw [hrec]; exact hcap)
  rw [heq]
  exact hflag

/-- One step of edge blanking. -/
def Dev.edgeStep (g c : Nat) (d : Dev) : Dev :=
  if d.flag (R.CMP_BLANK c) F.CMP_BLANK_AUTO_EN && !d.frozen (Pg.CMP (c / 36)) && d.get (R.CMP_BLANK c) F.CMP_BLANK_AUTO_GRP == g &&
    d.get (R.CMP_BLANK c) F.CMP_BLANK_AUTO_LEN != 0 then (d.edgeSeen c (d.get (R.CMP_BLANK c) F.CMP_BLANK_AUTO_LEN)).cmpBlankSync c
  else d

theorem Dev.edgeBlank_eq (d : Dev) (g : Nat) : d.edgeBlank g = forN (nCmp d.member) (fun c e => e.edgeStep g c) d := rfl

/-- What a step leaves of the others. -/
theorem Dev.edgeStep_frame (d : Dev) (g : Nat) (hc : c < nCmp d.member) :
    FrameOn cmpPart (cmpOwn c ++ gdAll) d (d.edgeStep g c) ∧ LvKept d (d.edgeStep g c) ∧ ∀ j, j ≠ c → (d.edgeStep g c).cmpS j = d.cmpS j := by
  rw [Dev.edgeStep]
  split
  · next h =>
    simp only [Bool.and_eq_true, bne_iff_ne] at h
    have hb := d.edgeBlanked_spec hc h.2
    exact ⟨hb.frame, hb.lv, hb.others⟩
  · exact ⟨FrameOn.refl cmpPart_part _ d, .refl d, fun _ _ => rfl⟩

theorem cmpStat_not_own {j : Nat} (hj : j < 72) (hne : j ≠ c) : R.CMP_STAT j ∉ cmpOwn c ++ gdAll := fun h => by
  obtain h | h := List.mem_append.1 h
  · simp only [cmpOwn, List.mem_cons, List.not_mem_nil, or_false, R.CMP_STAT, R.CMP_FLAG0, R.CMP_FLAG1] at h
    omega
  · exact (cmpStat_not_gdAll hj).1 h

theorem tripRegs_place {a : Nat} (h : a ∈ tripRegs) : pageOf a ∈ [Pg.CMP 0, Pg.CMP 1, Pg.GDT, Pg.GDA] := by
  simp only [tripRegs, gdAll, List.mem_append, List.mem_flatMap, List.mem_range, cmpOwn, gdRegs, gdFlag, gdLstat, relCnt, List.mem_cons,
    List.not_mem_nil, or_false] at h
  simp only [List.mem_cons, List.not_mem_nil, or_false, pageOf, Pg.CMP, Pg.GDT, Pg.GDA]
  obtain ⟨c, hc, h⟩ | ⟨g, hg, h⟩ := h
  · have hc2 : c / 36 < 2 := Nat.div_lt_of_lt_mul hc
    simp only [R.CMP_FLAG0, R.CMP_FLAG1, R.CMP_STAT] at h
    have hr : c % 36 < 36 := Nat.mod_lt _ (by decide)
    generalize c / 36 = q at h hc2
    generalize c % 36 = r at h hr
    omega
  · simp only [R.GDT_FLAG, R.GDA_FLAG, R.GDT_LSTAT, R.GDA_LSTAT, R.GDT_CNT, R.GDA_CNT] at h
    split at h <;> simp only at h <;> omega

/-- A register off those pages stands while comparators trip. -/
theorem FrameOn.offTrip (h : FrameOn cmpPart tripRegs d e) {a : Nat} (he : eventReg a = false)
    (hp : pageOf a ∉ [Pg.CMP 0, Pg.CMP 1, Pg.GDT, Pg.GDA]) : e.reg a = d.reg a :=
  h.reg cmpPart_part he fun ha => hp (tripRegs_place ha)

/-- The setting of a comparator's edge blanking stands. -/
theorem FrameOn.blankCfg (h : FrameOn cmpPart tripRegs d e) (hc : c < 72) : e.reg (R.CMP_BLANK c) = d.reg (R.CMP_BLANK c) ∧
    e.frozen (Pg.CMP (c / 36)) = d.frozen (Pg.CMP (c / 36)) := by
  have hdbg : e.reg R.DBG_CTRL = d.reg R.DBG_CTRL := h.offTrip (by decide) (by decide)
  refine ⟨h.reg cmpPart_part ?_ fun ha => ?_, ?_⟩
  · rw [eventReg_eq_false]
    simp only [R.CMP_BLANK]
    omega
  · simp only [tripRegs, gdAll, List.mem_append, List.mem_flatMap, List.mem_range, cmpOwn, gdRegs, gdFlag, gdLstat, relCnt, List.mem_cons,
      List.not_mem_nil, or_false, R.CMP_BLANK] at ha
    obtain ⟨k, hk, ha⟩ | ⟨g, hg, ha⟩ := ha
    · simp only [R.CMP_FLAG0, R.CMP_FLAG1, R.CMP_STAT] at ha
      omega
    · simp only [R.GDT_FLAG, R.GDA_FLAG, R.GDT_LSTAT, R.GDA_LSTAT, R.GDT_CNT, R.GDA_CNT] at ha
      split at ha <;> simp only at ha <;> omega
  · have hctrl : e.reg (R.PG_CTRL (Pg.CMP (c / 36))) = d.reg (R.PG_CTRL (Pg.CMP (c / 36))) := by
      refine h.reg cmpPart_part (eventReg_pgCtrl _) fun ha => ?_
      simp only [tripRegs, gdAll, List.mem_append, List.mem_flatMap, List.mem_range, cmpOwn, gdRegs, gdFlag, gdLstat, relCnt, List.mem_cons,
        List.not_mem_nil, or_false, R.PG_CTRL, pageBase, Pg.CMP] at ha
      obtain ⟨k, hk, ha⟩ | ⟨g, hg, ha⟩ := ha
      · simp only [R.CMP_FLAG0, R.CMP_FLAG1, R.CMP_STAT] at ha
        omega
      · simp only [R.GDT_FLAG, R.GDA_FLAG, R.GDT_LSTAT, R.GDA_LSTAT, R.GDT_CNT, R.GDA_CNT] at ha
        split at ha <;> simp only at ha <;> omega
    rw [Dev.frozen, Dev.frozen, Dev.flag_of_reg hdbg, Dev.flag_of_reg hctrl]

/-- What edge blanking leaves. -/
theorem Dev.edgeBlank_spec (d : Dev) (g : Nat) : FrameOn cmpPart tripRegs d (d.edgeBlank g) ∧ LvKept d (d.edgeBlank g) ∧
    ∀ c, c < nCmp d.member → d.flag (R.CMP_BLANK c) F.CMP_BLANK_AUTO_EN = true → d.get (R.CMP_BLANK c) F.CMP_BLANK_AUTO_GRP = g →
      d.get (R.CMP_BLANK c) F.CMP_BLANK_AUTO_LEN ≠ 0 → d.frozen (Pg.CMP (c / 36)) = false →
      ((d.edgeBlank g).cmpS c).edgeEnd = some (d.gtc + d.get (R.CMP_BLANK c) F.CMP_BLANK_AUTO_LEN) ∧
      ((d.cmpS c).capped = false → (d.edgeBlank g).flag (R.CMP_STAT c) F.CMP_STAT_BLANKED = true) := by
  rw [Dev.edgeBlank_eq, ← and_assoc]
  refine forN_stages (I := fun e => FrameOn cmpPart tripRegs d e ∧ LvKept d e) (B := fun c e => e.cmpS c = d.cmpS c)
    (A := fun c e => d.flag (R.CMP_BLANK c) F.CMP_BLANK_AUTO_EN = true → d.get (R.CMP_BLANK c) F.CMP_BLANK_AUTO_GRP = g →
      d.get (R.CMP_BLANK c) F.CMP_BLANK_AUTO_LEN ≠ 0 → d.frozen (Pg.CMP (c / 36)) = false →
      (e.cmpS c).edgeEnd = some (d.gtc + d.get (R.CMP_BLANK c) F.CMP_BLANK_AUTO_LEN) ∧
      ((d.cmpS c).capped = false → e.flag (R.CMP_STAT c) F.CMP_STAT_BLANKED = true)) (nCmp d.member)
    (fun c hc u hu hb => ?_) (fun c hc j _ hlt u hu hb => ?_) (fun c hc j hlt u hu ha h1 h2 h3 h4 => ?_)
    ⟨FrameOn.refl cmpPart_part _ d, .refl d⟩ fun _ _ => rfl
  · have hm : u.member = d.member := (congrArg Dev.member hu.1.1 :)
    have h72 := hc.trans_le (nCmp_le _)
    obtain ⟨hf, hlv, -⟩ := u.edgeStep_frame g (c := c) (by rw [hm]; exact hc)
    refine ⟨⟨hu.1.trans cmpPart_part (hf.mono fun a ha => ?_), hu.2.trans hlv⟩, fun h1 h2 h3 h4 => ?_⟩
    · obtain h | h := List.mem_append.1 ha
      · exact mem_tripRegs h72 h
      · exact List.mem_append_right _ h
    · obtain ⟨hreg, hfr⟩ := hu.1.blankCfg h72
      have hlen : u.get (R.CMP_BLANK c) F.CMP_BLANK_AUTO_LEN = d.get (R.CMP_BLANK c) F.CMP_BLANK_AUTO_LEN := Dev.get_of_reg hreg _
      have hgtc : u.gtc = d.gtc := (congrArg Dev.gtc hu.1.1 :)
      have hcond : (u.flag (R.CMP_BLANK c) F.CMP_BLANK_AUTO_EN && !u.frozen (Pg.CMP (c / 36)) && u.get (R.CMP_BLANK c) F.CMP_BLANK_AUTO_GRP == g &&
          u.get (R.CMP_BLANK c) F.CMP_BLANK_AUTO_LEN != 0) = true := by
        rw [Dev.flag_of_reg hreg, hfr, Dev.get_of_reg hreg, hlen, h1, h2, h4, bne_iff_ne.2 h3, beq_self_eq_true]
        rfl
      rw [Dev.edgeStep, if_pos hcond, hlen]
      have hb2 := u.edgeBlanked_spec (c := c) (by rw [hm]; exact hc) h3
      exact ⟨by rw [hb2.until', hgtc], fun hcap => hb2.shown (by rw [hb]; exact hcap)⟩
  · have hm : u.member = d.member := (congrArg Dev.member hu.1.1 :)
    exact ((u.edgeStep_frame g (c := c) (by rw [hm]; exact hc)).2.2 j (by omega)).trans hb
  · have hm : u.member = d.member := (congrArg Dev.member hu.1.1 :)
    have h72 := hc.trans_le (nCmp_le _)
    obtain ⟨hf, -, hoth⟩ := u.edgeStep_frame g (c := c) (by rw [hm]; exact hc)
    obtain ⟨k1, k2⟩ := ha h1 h2 h3 h4
    have hstat := hf.reg cmpPart_part (a := R.CMP_STAT j) (eventReg_cmp (by omega)).1 (cmpStat_not_own (by omega) (by omega))
    exact ⟨by rw [hoth j (by omega)]; exact k1, fun hcap => (Dev.flag_of_reg hstat _).trans (k2 hcap)⟩

/-! ### The pins of a group looked at -/

/-- The pins as edge blanking last saw them. -/
def Dev.pinsSeen (d : Dev) (g : Nat) : Dev :=
  forN 3 (fun x e => e.setLeg g x { e.legS g x with pinH := d.pinOut g x true, pinL := d.pinOut g x false }) d

theorem Dev.pinLook_moved (h : d.pinsMoved g = true) : d.pinLook g = (d.pinsSeen g).edgeBlank g := if_pos h

theorem Dev.pinsSeen_spec (d : Dev) (g : Nat) : FrameOn grpPart [] d (d.pinsSeen g) ∧ LvKept d (d.pinsSeen g) ∧ ∀ a, (d.pinsSeen g).reg a = d.reg a := by
  refine forN_keeps (P := fun e : Dev => FrameOn grpPart [] d e ∧ LvKept d e ∧ ∀ a, e.reg a = d.reg a) 3 (fun x _ e he => ?_)
    ⟨FrameOn.refl grpPart_part _ d, .refl d, fun _ => rfl⟩
  obtain ⟨h1, h2, h3⟩ := he
  exact ⟨h1.setLeg g x _, h2.trans (.setLeg e g x fun _ => rfl), fun a => (Dev.reg_setLeg _ _ _ _ _).trans (h3 a)⟩

theorem Dev.pinLook_spec (h : d.pinsMoved g = true) : FrameOn cmpPart tripRegs d (d.pinLook g) ∧ LvKept d (d.pinLook g) ∧
    ∀ c, c < nCmp d.member → d.flag (R.CMP_BLANK c) F.CMP_BLANK_AUTO_EN = true → d.get (R.CMP_BLANK c) F.CMP_BLANK_AUTO_GRP = g →
      d.get (R.CMP_BLANK c) F.CMP_BLANK_AUTO_LEN ≠ 0 → d.frozen (Pg.CMP (c / 36)) = false →
      ((d.pinLook g).cmpS c).edgeEnd = some (d.gtc + d.get (R.CMP_BLANK c) F.CMP_BLANK_AUTO_LEN) ∧
      ((d.cmpS c).capped = false → (d.pinLook g).flag (R.CMP_STAT c) F.CMP_STAT_BLANKED = true) := by
  rw [Dev.pinLook_moved h]
  obtain ⟨h1, h2, h3⟩ := d.pinsSeen_spec g
  generalize d.pinsSeen g = u at h1 h2 h3
  obtain ⟨k1, k2, k3⟩ := u.edgeBlank_spec g
  have hm : u.member = d.member := (congrArg Dev.member h1.1 :)
  have hgtc : u.gtc = d.gtc := (congrArg Dev.gtc h1.1 :)
  have hcmp : u.cmp = d.cmp := (congrArg Dev.cmp h1.1 :)
  refine ⟨(h1.toCmp.mono fun _ ha => nomatch ha).trans cmpPart_part k1, h2.trans k2, fun c hc e1 e2 e3 e4 => ?_⟩
  have hk := k3 c (by rw [hm]; exact hc)
  have hcs : u.cmpS c = d.cmpS c := by rw [Dev.cmpS, hcmp]; rfl
  have hfr : u.frozen (Pg.CMP (c / 36)) = d.frozen (Pg.CMP (c / 36)) := by rw [Dev.frozen, Dev.frozen, Dev.flag_of_reg (h3 _), Dev.flag_of_reg (h3 _)]
  rw [Dev.flag_of_reg (h3 _), Dev.get_of_reg (h3 _), Dev.get_of_reg (h3 _), hfr, hgtc, hcs] at hk
  exact hk e1 e2 e3 e4

/-! ### Delay lines (R288, R289) -/

/-- Only a delay line's record changes besides registers. -/
def dlPart (d e : Dev) : Dev := { d with dl := e.dl }

theorem dlPart_part : Part dlPart := ⟨fun _ => rfl, fun _ _ _ => rfl, fun _ _ => rfl, fun _ _ _ => rfl⟩

theorem Dev.dlBootDone_spec (d : Dev) : FrameOn dlPart [R.PWG_DL_STAT] d d.dlBootDone ∧ d.dlBootDone.dl = d.dl ∧
    ∀ i < 12, bitOf (d.dlBootDone.reg R.PWG_DL_STAT) i = bitOf (d.reg R.PWG_DL_STAT) i := by
  rw [Dev.dlBootDone]
  split
  · refine ⟨(FrameOn.refl dlPart_part _ d).putB dlPart_part _ _ (List.mem_singleton_self _), rfl, fun i hi => ?_⟩
    rw [Dev.putB, Dev.put, Dev.reg_setReg_self, bitOf_eq, bitOf_eq, setF_bit _ _ _ _ (by omega), if_neg]
    simp only [F.PWG_DL_STAT_BOOT_DONE, fieldWidth]
    omega
  · exact ⟨FrameOn.refl dlPart_part _ d, rfl, fun _ _ => rfl⟩

/-- A line that has failed, before the boot's calibration is judged. -/
structure LineFailed (o line : Nat) (d e : Dev) : Prop where
  frame : FrameOn dlPart [R.PWG_DL_FAIL0 + 4 * (o / 32), R.PWG_DL_STAT] d e
  others : ∀ j, j ≠ o → e.dlS j = d.dlS j
  own : e.dlS o = if line = 0 then { d.dlS o with bad0 := true } else { d.dlS o with bad1 := true }
  out : bitOf (e.reg (R.PWG_DL_FAIL0 + 4 * (o / 32))) (o % 32) = true
  grp : bitOf (e.reg R.PWG_DL_STAT) (o / 6) = true
  told : Raised e Pg.PWG Ev.PWM_DL_FAIL

theorem bitOf_orBit (w : Word) {i : Nat} (hi : i < 32) : bitOf (w ||| bitWord i) i = true := by rw [bitOf_or, bitOf_bitWord i hi, Bool.or_true]

theorem eventReg_dlFail (ho : o < 72) : eventReg (R.PWG_DL_FAIL0 + 4 * (o / 32)) = false := by
  rw [eventReg_eq_false]
  simp only [R.PWG_DL_FAIL0]
  omega

theorem Dev.dlFail_spec (d : Dev) (ho : o < 72) (line : Nat) : LineFailed o line d (d.dlFail o line) := by
  rw [Dev.dlFail]
  generalize hq : (if line = 0 then { d.dlS o with bad0 := true } else { d.dlS o with bad1 := true } : DlSt) = q
  have hne : R.PWG_DL_FAIL0 + 4 * (o / 32) ≠ R.PWG_DL_STAT := by simp only [R.PWG_DL_FAIL0, R.PWG_DL_STAT]; omega
  have hset : FrameOn dlPart [R.PWG_DL_FAIL0 + 4 * (o / 32), R.PWG_DL_STAT] d (d.setDl o q) :=
    (FrameOn.refl dlPart_part _ d).part dlPart_part rfl fun _ => rfl
  have hdl : ∀ j, (d.setDl o q).dlS j = if j = o then q else d.dlS j := fun j => Dev.dlS_setDl _ _ _ _
  generalize d.setDl o q = u at hset hdl
  have h1 := hset.orReg (a := R.PWG_DL_FAIL0 + 4 * (o / 32)) dlPart_part (bitWord (o % 32)) (List.mem_cons_self ..)
  have b1 : bitOf ((u.orReg (R.PWG_DL_FAIL0 + 4 * (o / 32)) (bitWord (o % 32))).reg (R.PWG_DL_FAIL0 + 4 * (o / 32))) (o % 32) = true := by
    rw [Dev.orReg, Dev.reg_setReg_self]
    exact bitOf_orBit _ (by omega)
  have d1 : (u.orReg (R.PWG_DL_FAIL0 + 4 * (o / 32)) (bitWord (o % 32))).dl = u.dl := rfl
  generalize u.orReg (R.PWG_DL_FAIL0 + 4 * (o / 32)) (bitWord (o % 32)) = v at h1 b1 d1
  have h2 := h1.orReg (a := R.PWG_DL_STAT) dlPart_part (bitWord (o / 6)) (by simp)
  have b2 : bitOf ((v.orReg R.PWG_DL_STAT (bitWord (o / 6))).reg R.PWG_DL_STAT) (o / 6) = true := by
    rw [Dev.orReg, Dev.reg_setReg_self]
    exact bitOf_orBit _ (by omega)
  have r2 : (v.orReg R.PWG_DL_STAT (bitWord (o / 6))).reg (R.PWG_DL_FAIL0 + 4 * (o / 32)) = v.reg (R.PWG_DL_FAIL0 + 4 * (o / 32)) :=
    Dev.reg_setReg_ne _ _ hne
  have d2 : (v.orReg R.PWG_DL_STAT (bitWord (o / 6))).dl = u.dl := d1
  generalize v.orReg R.PWG_DL_STAT (bitWord (o / 6)) = w at h2 b2 r2 d2
  have hqq := w.raiseN_quiet Pg.PWG Ev.PWM_DL_FAIL o
  have hr := w.raiseN_raised (page := Pg.PWG) (src := Ev.PWM_DL_FAIL) o rfl
  generalize w.raiseN Pg.PWG Ev.PWM_DL_FAIL o = z at hqq hr
  have hz : ∀ j, z.dlS j = if j = o then q else d.dlS j := fun j => by
    rw [← hdl j, Dev.dlS, hqq.dl, d2]
    rfl
  refine ⟨h2.quiet dlPart_part hqq, fun j hj => by rw [hz, if_neg hj], by rw [hz, if_pos rfl, ← hq], ?_, ?_, hr⟩
  · rw [hqq.reg (eventReg_dlFail ho), r2]
    exact b1
  · rw [hqq.reg (by decide)]
    exact b2

theorem pgEvtRaw_ne_dlStat (q : Nat) : R.PG_EVT_RAW q ∉ [R.PWG_DL_STAT] := by
  simp only [List.mem_singleton, R.PG_EVT_RAW, pageBase, R.PWG_DL_STAT]
  omega

theorem LineFailed.booted (h : LineFailed o line d e) (ho : o < 72) : LineFailed o line d e.dlBootDone := by
  obtain ⟨hf, hdl, hb⟩ := e.dlBootDone_spec
  generalize e.dlBootDone = v at hf hdl hb
  have hs : ∀ j, v.dlS j = e.dlS j := fun j => by rw [Dev.dlS, hdl]; rfl
  have hreg : v.reg (R.PWG_DL_FAIL0 + 4 * (o / 32)) = e.reg (R.PWG_DL_FAIL0 + 4 * (o / 32)) := hf.reg dlPart_part (eventReg_dlFail ho) (by
    simp only [List.mem_singleton, R.PWG_DL_FAIL0, R.PWG_DL_STAT]; omega)
  exact ⟨h.frame.trans dlPart_part (hf.mono fun _ ha => List.mem_cons_of_mem _ ha), fun j hj => (hs j).trans (h.others j hj), (hs o).trans h.own,
    by rw [hreg]; exact h.out, (hb _ (by omega)).trans h.grp, hf.raised dlPart_part (pgEvtRaw_ne_dlStat _) h.told⟩

theorem dlCalOk_lt (h : d.dlCalOk o line = true) : o < 72 := by
  have hn : nTraction d.member ≤ 12 := by cases d.member <;> decide
  simp only [Dev.dlCalOk, Bool.and_eq_true, decide_eq_true_eq] at h
  obtain ⟨⟨⟨h1, -⟩, -⟩, -⟩ := h
  omega

/-- A line calibrated. -/
theorem Dev.dlTabled_spec (d : Dev) (o : Nat) (q : DlSt) : FrameOn dlPart [R.PWG_DL_STAT] d (d.setDl o q).dlBootDone ∧
    (∀ j, j ≠ o → (d.setDl o q).dlBootDone.dlS j = d.dlS j) ∧ (d.setDl o q).dlBootDone.dlS o = q := by
  have hset : FrameOn dlPart [R.PWG_DL_STAT] d (d.setDl o q) := (FrameOn.refl dlPart_part _ d).part dlPart_part rfl fun _ => rfl
  have hdl : ∀ j, (d.setDl o q).dlS j = if j = o then q else d.dlS j := fun j => Dev.dlS_setDl _ _ _ _
  generalize d.setDl o q = u at hset hdl
  obtain ⟨hf, hd, -⟩ := u.dlBootDone_spec
  have hs : ∀ j, u.dlBootDone.dlS j = u.dlS j := fun j => by rw [Dev.dlS, hd]; rfl
  exact ⟨hset.trans dlPart_part hf, fun j hj => by rw [hs, hdl, if_neg hj], by rw [hs, hdl, if_pos rfl]⟩

end

/-- Settles O33. -/
theorem pwmEdges : Obligations.PwmEdges := by
  intro s hlive d
  refine ⟨fun g x hg hx => ⟨fun mid w ht hp => ?_, fun c t hi ht h4 hr => ?_, fun hi y f hr hy hf => ?_⟩, fun o line hok hr => ⟨fun l hb => ?_, ?_,
    fun l hb => ?_⟩⟩
  · obtain ⟨h1, h2, h3, h4⟩ := Dev.legForce_spec hlive.2 hg hx ht hp w
    refine ⟨_, onDev_eq hlive.1 (if_pos hx), h1, ⟨h2.groups, h2.legs⟩, h3, h4.trans ?_⟩
    simp only [LegSt.forced, Bool.and_eq_true, bne_iff_ne, and_assoc]
    rfl
  · obtain ⟨h1, h2, h3, h4, h5⟩ := Dev.forceImmediate_spec hx hi ht h4
    exact ⟨_, onPart_eq hlive (Dev.clocked_runs hr fun d => d.forceImmediate g x), h1, ⟨h2.groups, h2.legs⟩, h3, h4, h5⟩
  · have h := Dev.takeEdge_spec hr hy hf
    obtain ⟨l1, l2, l3⟩ := (d.legS g x).took_lv hi (d.bootLow g x hi y.on) y
    rw [← h.leg] at l1 l2 l3
    refine ⟨h.frame, ⟨h.one.groups, h.one.legs⟩, h.edges, l1.trans ?_, l2, l3, fun hm => ?_, fun hm => ?_⟩
    · rw [Dev.bootLow]
      cases y.on <;> simp
    · refine onPart_eq hlive ?_
      rw [Dev.switchEdge, hf]
      exact if_neg (by rw [hm]; decide)
    · obtain ⟨k1, k2, k3⟩ := Dev.pinLook_spec hm
      have hrun : s.dev.switchEdge g x hi = f.pinLook g := by rw [Dev.switchEdge, hf]
      have hreg : ∀ a, eventReg a = false → f.reg a = d.reg a := fun a ha => h.frame.2.1 a ha List.not_mem_nil
      have hm2 : f.member = d.member := (congrArg Dev.member h.frame.1 :)
      have hgtc : f.gtc = d.gtc := (congrArg Dev.gtc h.frame.1 :)
      have hcmp : f.cmp = d.cmp := (congrArg Dev.cmp h.frame.1 :)
      refine ⟨_, onPart_eq hlive hrun, ⟨k1.1, fun a ha hp => k1.offTrip ha hp⟩, fun z => k2 g x z, fun c hc h1 h2 h3 h4 => ?_⟩
      have hk := k3 c (by rw [hm2]; exact hc)
      have hcs : f.cmpS c = d.cmpS c := by rw [Dev.cmpS, hcmp]; rfl
      have hb : f.reg (R.CMP_BLANK c) = d.reg (R.CMP_BLANK c) := hreg _ (by
        rw [eventReg_eq_false]
        have := hc.trans_le (nCmp_le _)
        simp only [R.CMP_BLANK]
        omega)
      have hfr : f.frozen (Pg.CMP (c / 36)) = d.frozen (Pg.CMP (c / 36)) := by
        rw [Dev.frozen, Dev.frozen, Dev.flag_of_reg (hreg _ (by decide)), Dev.flag_of_reg (hreg _ (eventReg_pgCtrl _))]
      rw [Dev.flag_of_reg hb, Dev.get_of_reg hb, Dev.get_of_reg hb, hfr, hgtc, hcs] at hk
      exact hk h1 h2 h3 h4
  · have ho := dlCalOk_lt hok
    have h := (d.dlFail_spec ho line).booted ho
    have hrun : d.dlCalDone o line l = (d.dlFail o line).dlBootDone := by rw [Dev.dlCalDone, hok, if_neg (by decide), if_pos hb]
    exact ⟨_, onDev_eq hlive.1 ((Dev.clocked_runs hr fun d => d.dlCalDone o line l).trans hrun), h.frame, h.others, h.own, h.out, h.grp, h.told⟩
  · have ho := dlCalOk_lt hok
    have h := (d.dlFail_spec ho line).booted ho
    have hrun : d.dlTimeout o line = (d.dlFail o line).dlBootDone := by rw [Dev.dlTimeout, if_pos hok]
    exact ⟨_, onDev_eq hlive.1 ((Dev.clocked_runs hr fun d => d.dlTimeout o line).trans hrun), h.frame, h.others, h.own, h.out, h.grp, h.told⟩
  · have hrun : d.dlCalDone o line l =
        (d.setDl o (if line = 0 then { d.dlS o with tab0 := dlTable l, cal0 := true } else { d.dlS o with tab1 := dlTable l, cal1 := true })).dlBootDone := by
      rw [Dev.dlCalDone, hok, if_neg (by decide), hb]
      rfl
    exact ⟨_, onDev_eq hlive.1 ((Dev.clocked_runs hr fun d => d.dlCalDone o line l).trans hrun), d.dlTabled_spec o _⟩

end Sys2Proof.Machine
end

section
/-! PROOFS. A group's enable written in PG_CTRL, and what an accepted enable leaves (R273, R278, R296, R301). -/

namespace Sys2Proof.Machine

section
variable {d e f : Dev} {g mid : Nat}

/-! ### EN of a group's page written alone (R26, R296) -/

theorem setF_setF_getF (w : Word) (f : RField) (v : Nat) : setF (setF w f v) f (getF w f) = w := by
  apply BitVec.eq_of_getLsbD_eq
  intro k hk
  rw [setF_bit _ _ _ _ hk, setF_bit _ _ _ _ hk]
  have h := setF_bit w f (getF w f) k hk
  rw [setF_getF] at h
  by_cases hf : f.lo ≤ k ∧ k - f.lo < fieldWidth f
  · rw [if_pos hf] at h ⊢
    exact h.symm
  · rw [if_neg hf, if_neg hf]

/-- The block of a group that the device has. -/
theorem group_block (hp : groupPresent d.member g = true) : ∃ b i, pageInfo (Pg.PWT g) = some (b, i) ∧ blockPresent d.member b i = true ∧
    b = (if g < 12 then Block.pwtB else Block.pwaB) := by
  have ht : ∀ k < 12, pageInfo (Pg.PWT k) = some (.pwtB, k) := by decide
  have ha : ∀ k < 8, pageInfo (Pg.PWT (12 + k)) = some (.pwaB, k) := by decide
  have hn : nTraction d.member ≤ 12 ∧ nAux d.member ≤ 8 := by cases d.member <;> decide
  simp only [groupPresent, Bool.or_eq_true, Bool.and_eq_true, decide_eq_true_eq] at hp
  by_cases h : g < 12
  · refine ⟨_, _, ht g h, ?_, by rw [if_pos h]⟩
    simp only [blockPresent, decide_eq_true_eq]
    omega
  · have hk := ha (g - 12) (by omega)
    rw [Nat.add_sub_cancel' (by omega)] at hk
    refine ⟨_, _, hk, ?_, by rw [if_neg h]⟩
    simp only [blockPresent, decide_eq_true_eq]
    omega

theorem group_page (hp : groupPresent d.member g = true) : pagePresent d.member (Pg.PWT g) = true := by
  obtain ⟨b, i, hinfo, hb, -⟩ := group_block hp
  rw [pagePresent, hinfo]
  exact hb

theorem SameRegs.refl (d : Dev) : SameRegs d d := ⟨rfl, fun _ => rfl⟩

/-- PG_CTRL written as it stands by a master with the right. -/
theorem Dev.ctrlWrite_same {b : Block} {i page : Nat} (hinfo : pageInfo page = some (b, i)) (has : d.asS0 mid b = true)
    (hown : d.ownOk mid (.page page) = true) : SameRegs d (d.ctrlWrite mid b page (d.reg (R.PG_CTRL page))) := by
  have hlt : d.pageOwner page < 16 := getF_lt (d.reg (R.PG_CTRL page)) F.PG_CTRL_OWNER_MID
  obtain ⟨e, he, hw⟩ := d.ctrlWrite_owner mid b page hlt
  have hword : d.ownerWord page (d.pageOwner page) = d.reg (R.PG_CTRL page) := setF_getF _ _
  have hmay : e.mayClaim mid b = true := by rw [he.mayClaim, Dev.mayClaim, has]; rfl
  have ho : e.pageOwner page = d.pageOwner page := he.get _ _
  have howner : (d.pageOwner page != mid && d.pageOwner page != 0xF) = false := by
    simp only [Dev.ownOk, Bool.or_eq_true, beq_iff_eq] at hown
    obtain h | h := hown <;> simp [h]
  rw [hword] at hw
  rw [hw, Dev.pageClaim, hinfo]
  dsimp only
  rw [hmay, howner, if_neg (by decide), ho, if_pos rfl]
  exact he

/-- EN of a group's page turned by a master with the right. -/
theorem Dev.enWrite_quiet (hlive : d.replaying = false) (hg : g < 20) (hp : groupPresent d.member g = true)
    (has : d.asS0 mid (if g < 12 then Block.pwtB else Block.pwaB) = true) (hown : d.ownOk mid (.page (Pg.PWT g)) = true) (en : Bool)
    (hen : d.pageEn (Pg.PWT g) = !en) : ∃ e, SameRegs d e ∧ Quiet (if en then e.groupEnable g else e.groupOff g)
      (d.unitWrite 20 g mid (R.PG_CTRL (Pg.PWT g)) (setF (d.reg (R.PG_CTRL (Pg.PWT g))) F.PG_CTRL_EN (b2n en))) := by
  obtain ⟨b, i, hinfo, hb, hbk⟩ := group_block hp
  rw [← hbk] at has
  have hpage : pageOf (R.PG_CTRL (Pg.PWT g)) = Pg.PWT g := pageOf_base (pageInfo_lt hinfo) (by decide)
  have hoff : offOf (R.PG_CTRL (Pg.PWT g)) = 8 := offOf_base (by decide)
  refine ⟨_, Dev.ctrlWrite_same hinfo has hown, ?_⟩
  rw [Dev.unitWrite_in d hg, Dev.pWrite_live hlive (hpage.symm ▸ hinfo)]
  have hq := Dev.pWriteIn_ctrl (a := R.PG_CTRL (Pg.PWT g)) (hpage.symm ▸ hinfo) hb hoff mid
    (setF (d.reg (R.PG_CTRL (Pg.PWT g))) F.PG_CTRL_EN (b2n en))
  rw [hpage] at hq
  have hbit : b2n (d.pageEn (Pg.PWT g)) = getF (d.reg (R.PG_CTRL (Pg.PWT g))) F.PG_CTRL_EN := by
    have hw := setF_b2n (w := d.reg (R.PG_CTRL (Pg.PWT g))) (f := F.PG_CTRL_EN) (by decide)
    have hk : getF (d.reg (R.PG_CTRL (Pg.PWT g))) F.PG_CTRL_EN < 2 := getF_lt _ _
    change b2n (getF (d.reg (R.PG_CTRL (Pg.PWT g))) F.PG_CTRL_EN != 0) = _
    generalize getF (d.reg (R.PG_CTRL (Pg.PWT g))) F.PG_CTRL_EN = k at hk
    interval_cases k <;> rfl
  have hfield : d.pageFieldOk mid b (Pg.PWT g) = true := by rw [Dev.pageFieldOk, has, hown]; rfl
  have hnew : (getF (setF (d.reg (R.PG_CTRL (Pg.PWT g))) F.PG_CTRL_EN (b2n en)) F.PG_CTRL_EN != 0) = en := by
    rw [getF_setF_self _ _ _ (by decide)]
    cases en <;> rfl
  have hidx : Pg.PWT g - Pg.PWT 0 = g := by simp only [Pg.PWT]; omega
  have hpwm : d.pwmCtrlWrite mid b (Pg.PWT g) (setF (d.reg (R.PG_CTRL (Pg.PWT g))) F.PG_CTRL_EN (b2n en)) =
      if en then (d.ctrlWrite mid b (Pg.PWT g) (d.reg (R.PG_CTRL (Pg.PWT g)))).groupEnable g
      else (d.ctrlWrite mid b (Pg.PWT g) (d.reg (R.PG_CTRL (Pg.PWT g)))).groupOff g := by
    rw [Dev.pwmCtrlWrite, hnew, hbit, setF_setF_getF, hfield, hen, hidx]
    cases en <;> rfl
  rw [← hpwm]
  obtain h | h : b = .pwtB ∨ b = .pwaB := by
    rw [hbk]
    split
    · exact .inl rfl
    · exact .inr rfl
  · subst h
    exact hq
  · subst h
    exact hq

/-! ### Enabling (R273, R278, R296, R301) -/

theorem Dev.enableCause_lt (d : Dev) (g : Nat) : d.enableCause g < 8 := by
  rw [Dev.enableCause]
  repeat' split
  all_goals decide

theorem SameRegs.enableCause (h : SameRegs d e) (g : Nat) : e.enableCause g = d.enableCause g := by
  have hm := h.member
  have hprim : e.primOf g = d.primOf g := by simp only [Dev.primOf, h.2]
  cases hp : d.primOf g
  all_goals
    simp only [Dev.enableCause, Dev.pwmMode, Dev.pwmPer, Dev.pwmMin, Dev.pwmMax, Dev.cfgG, hprim, hp, Dev.trkSrc, Dev.pwmEn, Dev.pageEn, Dev.flag, h.get, hm]
    congr!

/-- An enable refused. -/
theorem Dev.groupEnable_refused (hp : groupPresent d.member g = true) (hc : d.enableCause g ≠ 0) :
    FrameOn noPart [R.PWT_STAT g] d (d.groupEnable g) ∧ (d.groupEnable g).flag (R.PWT_STAT g) F.PWT_STAT_CFG_ERR = true ∧
      (d.groupEnable g).get (R.PWT_STAT g) F.PWT_STAT_CAUSE = d.enableCause g ∧ Raised (d.groupEnable g) (Pg.PWT g) Ev.PWM_CFG_ERR := by
  have heq : d.groupEnable g = (((d.putB (R.PWT_STAT g) F.PWT_STAT_CFG_ERR true).put (R.PWT_STAT g) F.PWT_STAT_CAUSE (d.enableCause g)).raiseN
      (Pg.PWT g) Ev.PWM_CFG_ERR g) := by
    rw [Dev.groupEnable, if_pos hc]
  have hlt := d.enableCause_lt g
  rw [heq]
  generalize d.enableCause g = c at hlt
  have hev : eventReg (R.PWT_STAT g) = false := by
    rw [eventReg_eq_false]
    simp only [R.PWT_STAT]
    omega
  have hq := ((d.putB (R.PWT_STAT g) F.PWT_STAT_CFG_ERR true).put (R.PWT_STAT g) F.PWT_STAT_CAUSE c).raiseN_quiet (Pg.PWT g) Ev.PWM_CFG_ERR g
  refine ⟨(((FrameOn.refl noPart_part _ d).putB noPart_part _ _ (by simp)).put noPart_part _ _ (by simp)).quiet noPart_part hq, ?_, ?_,
    Dev.raiseN_raised _ _ (group_page hp)⟩
  · rw [hq.flag hev, Dev.flag_put_field _ _ _ _ (by decide), Dev.flag_putB_self _ _ _ _ (by decide) (by decide)]
  · rw [hq.get hev, Dev.get_put_self _ _ _ _ (by decide)]
    exact Nat.mod_eq_of_lt hlt

/-- The first load point of a group that is enabled (R273, R278). -/
def Dev.firstLoad (d : Dev) (g : Nat) : Option (Nat × Bool) :=
  (d.primOf g).elim (some (firstValley d.gtc (d.pwmPer g) (d.get (R.PWT_PHASE g) F.PWT_PHASE_PHASE), false)) fun _ =>
    ((d.grpS g).vq.find? fun x => decide (d.gtc + 16 ≤ x.1)).map fun x => (x.1, false)

/-- The group's record as its enabling leaves it. -/
structure StartRec (g : Nat) (d e : Dev) : Prop where
  others : ∀ j, j ≠ g → e.grpS j = d.grpS j
  enAt : (e.grpS g).enAt = d.gtc
  vec : (e.grpS g).vec = none
  nextVec : (e.grpS g).nextVec = none
  capd : (e.grpS g).capd = false
  load : (e.grpS g).load = d.firstLoad g

theorem Dev.grpS_announce (d : Dev) (g : Nat) (l : List (Nat × Nat)) (j : Nat) : (d.announce g l).grpS j =
    if j = g then { d.grpS g with evs := ((d.grpS g).evs.filter fun e => decide (d.gtc ≤ e.2 + 2 ^ 20 + 16)) ++ l } else d.grpS j :=
  d.grpS_setGrp g j _

theorem Dev.groupStartRec_none (h : d.primOf g = none) : ∃ (r : GrpSt) (l : List (Nat × Nat)), d.groupStartRec g = (d.setGrp g r).announce g l ∧
    r.enAt = d.gtc ∧ r.vec = none ∧ r.nextVec = none ∧ r.capd = false ∧ r.load = d.firstLoad g := by
  rw [Dev.groupStartRec, Dev.firstLoad, h]
  exact ⟨_, _, rfl, rfl, rfl, rfl, rfl, rfl⟩

theorem Dev.groupStartRec_some {p : Nat} (h : d.primOf g = some p) : ∃ (r : GrpSt) (l : List (Nat × Nat)),
    d.groupStartRec g = (d.setGrp g r).announce g l ∧ r.enAt = d.gtc ∧ r.vec = none ∧ r.nextVec = none ∧ r.capd = false ∧ r.load = d.firstLoad g := by
  rw [Dev.groupStartRec, Dev.firstLoad, h]
  refine ⟨_, _, rfl, rfl, rfl, rfl, rfl, ?_⟩
  dsimp only
  rw [List.head?_filter]
  rfl

theorem Dev.groupStartRec_eq (d : Dev) (g : Nat) : ∃ (r : GrpSt) (l : List (Nat × Nat)), d.groupStartRec g = (d.setGrp g r).announce g l ∧
    r.enAt = d.gtc ∧ r.vec = none ∧ r.nextVec = none ∧ r.capd = false ∧ r.load = d.firstLoad g := by
  cases hp : d.primOf g with
  | none => exact Dev.groupStartRec_none hp
  | some p => exact Dev.groupStartRec_some hp

theorem Dev.groupStartRec_spec (d : Dev) (g : Nat) : StartRec g d (d.groupStartRec g) := by
  obtain ⟨r, l, heq, h1, h2, h3, h4, h5⟩ := d.groupStartRec_eq g
  have hself : ∃ evs, ((d.groupStartRec g).grpS g) = { r with evs := evs } := by
    rw [heq, Dev.grpS_announce, if_pos rfl, Dev.grpS_setGrp_self]
    exact ⟨_, rfl⟩
  obtain ⟨evs, hs⟩ := hself
  refine ⟨fun j hj => ?_, by rw [hs]; exact h1, by rw [hs]; exact h2, by rw [hs]; exact h3, by rw [hs]; exact h4, by rw [hs]; exact h5⟩
  rw [heq, Dev.grpS_announce, if_neg hj, Dev.grpS_setGrp, if_neg hj]

theorem Dev.groupStartRec_frame {l : List Nat} (d : Dev) (g : Nat) : FrameOn grpPart l d (d.groupStartRec g) := by
  obtain ⟨r, k, heq, -⟩ := d.groupStartRec_eq g
  rw [heq]
  exact ((FrameOn.refl grpPart_part _ d).setGrp g r).setGrp g _

theorem Dev.groupStartRec_reg (d : Dev) (g a : Nat) : (d.groupStartRec g).reg a = d.reg a := by
  obtain ⟨r, k, heq, -⟩ := d.groupStartRec_eq g
  rw [heq, Dev.announce, Dev.reg_setGrp, Dev.reg_setGrp]

/-- What an enable's load point comes from stands. -/
theorem Dev.firstLoad_of (hgrp : e.grp = d.grp) (ht : e.gtc = d.gtc) (hr : ∀ a, a ≠ R.PWT_STAT g → a ≠ R.PG_CTRL (Pg.PWT g) → e.reg a = d.reg a) :
    e.firstLoad g = d.firstLoad g := by
  have hpair : e.reg R.PWG_PAIR = d.reg R.PWG_PAIR := hr _ (by simp only [R.PWG_PAIR, R.PWT_STAT]; omega)
    (by simp only [R.PWG_PAIR, R.PG_CTRL, pageBase, Pg.PWT]; omega)
  have hphase : e.reg (R.PWT_PHASE g) = d.reg (R.PWT_PHASE g) := hr _ (by simp only [R.PWT_PHASE, R.PWT_STAT]; omega)
    (by simp only [R.PWT_PHASE, R.PG_CTRL, pageBase, Pg.PWT]; omega)
  have hper : ∀ k, e.reg (R.PWT_PER k) = d.reg (R.PWT_PER k) := fun k => hr _ (by simp only [R.PWT_PER, R.PWT_STAT]; omega)
    (by simp only [R.PWT_PER, R.PG_CTRL, pageBase, Pg.PWT]; omega)
  have hprim : e.primOf g = d.primOf g := by rw [Dev.primOf, Dev.primOf, hpair]
  have hs : e.grpS g = d.grpS g := by rw [Dev.grpS, hgrp]; rfl
  have hpp : e.pwmPer g = d.pwmPer g := by rw [Dev.pwmPer, Dev.pwmPer, Dev.cfgG, Dev.cfgG, hprim, Dev.get_of_reg (hper _)]
  rw [Dev.firstLoad, Dev.firstLoad, hprim, hs, ht, hpp, Dev.get_of_reg hphase]

/-- The registers that an accepted enable writes, as it leaves them. -/
structure Enabled (g : Nat) (d e : Dev) : Prop where
  frame : FrameOn grpPart [R.PWT_STAT g, R.PG_CTRL (Pg.PWT g)] d e
  start : StartRec g d e
  on : e.pageEn (Pg.PWT g) = true
  ok : e.flag (R.PWT_STAT g) F.PWT_STAT_CFG_ERR = false ∧ e.get (R.PWT_STAT g) F.PWT_STAT_CAUSE = 0
  empty : e.flag (R.PWT_STAT g) F.PWT_STAT_VALID = false

theorem Dev.groupEnable_accepted (hc : d.enableCause g = 0) : Enabled g d (d.groupEnable g) := by
  have heq : d.groupEnable g = (((((d.putB (R.PWT_STAT g) F.PWT_STAT_CFG_ERR false).put (R.PWT_STAT g) F.PWT_STAT_CAUSE 0).putB (R.PWT_STAT g)
      F.PWT_STAT_VALID false).putB (R.PG_CTRL (Pg.PWT g)) F.PG_CTRL_EN true).groupStartRec g) := by
    rw [Dev.groupEnable, if_neg (by rw [hc]; decide)]
  rw [heq]
  have hne : R.PWT_STAT g ≠ R.PG_CTRL (Pg.PWT g) := by simp only [R.PWT_STAT, R.PG_CTRL, pageBase, Pg.PWT]; omega
  have hfr : FrameOn noPart [R.PWT_STAT g, R.PG_CTRL (Pg.PWT g)] d ((((d.putB (R.PWT_STAT g) F.PWT_STAT_CFG_ERR false).put (R.PWT_STAT g)
      F.PWT_STAT_CAUSE 0).putB (R.PWT_STAT g) F.PWT_STAT_VALID false).putB (R.PG_CTRL (Pg.PWT g)) F.PG_CTRL_EN true) :=
    ((((FrameOn.refl noPart_part _ d).putB noPart_part _ _ (by simp)).put noPart_part _ _ (by simp)).putB noPart_part _ _ (by simp)).putB
      noPart_part _ _ (by simp)
  have h1 : ((((d.putB (R.PWT_STAT g) F.PWT_STAT_CFG_ERR false).put (R.PWT_STAT g) F.PWT_STAT_CAUSE 0).putB (R.PWT_STAT g)
      F.PWT_STAT_VALID false).putB (R.PG_CTRL (Pg.PWT g)) F.PG_CTRL_EN true).reg (R.PWT_STAT g) = (((d.putB (R.PWT_STAT g) F.PWT_STAT_CFG_ERR
      false).put (R.PWT_STAT g) F.PWT_STAT_CAUSE 0).putB (R.PWT_STAT g) F.PWT_STAT_VALID false).reg (R.PWT_STAT g) := Dev.reg_put_ne _ _ _ hne
  have hoff : ∀ a, a ≠ R.PWT_STAT g → a ≠ R.PG_CTRL (Pg.PWT g) → ((((d.putB (R.PWT_STAT g) F.PWT_STAT_CFG_ERR false).put (R.PWT_STAT g)
      F.PWT_STAT_CAUSE 0).putB (R.PWT_STAT g) F.PWT_STAT_VALID false).putB (R.PG_CTRL (Pg.PWT g)) F.PG_CTRL_EN true).reg a = d.reg a :=
    fun a h1 h2 => (Dev.reg_put_ne _ _ _ h2).trans ((Dev.reg_put_ne _ _ _ h1).trans ((Dev.reg_put_ne _ _ _ h1).trans (Dev.reg_put_ne _ _ _ h1)))
  have hcfg : (((d.putB (R.PWT_STAT g) F.PWT_STAT_CFG_ERR false).put (R.PWT_STAT g) F.PWT_STAT_CAUSE 0).putB (R.PWT_STAT g)
      F.PWT_STAT_VALID false).flag (R.PWT_STAT g) F.PWT_STAT_CFG_ERR = false := by
    rw [Dev.putB, Dev.flag_put_field _ _ _ _ (by decide), Dev.flag_put_field _ _ _ _ (by decide), Dev.flag_putB_self _ _ _ _ (by decide) (by decide)]
  have hcause : (((d.putB (R.PWT_STAT g) F.PWT_STAT_CFG_ERR false).put (R.PWT_STAT g) F.PWT_STAT_CAUSE 0).putB (R.PWT_STAT g)
      F.PWT_STAT_VALID false).get (R.PWT_STAT g) F.PWT_STAT_CAUSE = 0 := by
    rw [Dev.putB, Dev.get_put_field _ _ _ _ _ _ (by decide), Dev.get_put_self _ _ _ _ (by decide)]
    rfl
  have hvalid : (((d.putB (R.PWT_STAT g) F.PWT_STAT_CFG_ERR false).put (R.PWT_STAT g) F.PWT_STAT_CAUSE 0).putB (R.PWT_STAT g)
      F.PWT_STAT_VALID false).flag (R.PWT_STAT g) F.PWT_STAT_VALID = false := Dev.flag_putB_self _ _ _ _ (by decide) (by decide)
  have hon : ((((d.putB (R.PWT_STAT g) F.PWT_STAT_CFG_ERR false).put (R.PWT_STAT g) F.PWT_STAT_CAUSE 0).putB (R.PWT_STAT g)
      F.PWT_STAT_VALID false).putB (R.PG_CTRL (Pg.PWT g)) F.PG_CTRL_EN true).pageEn (Pg.PWT g) = true :=
    Dev.flag_putB_self _ _ _ _ (by decide) (by decide)
  rw [← Dev.flag_of_reg h1] at hcfg hvalid
  rw [← Dev.get_of_reg h1] at hcause
  generalize (((d.putB (R.PWT_STAT g) F.PWT_STAT_CFG_ERR false).put (R.PWT_STAT g) F.PWT_STAT_CAUSE 0).putB (R.PWT_STAT g)
      F.PWT_STAT_VALID false).putB (R.PG_CTRL (Pg.PWT g)) F.PG_CTRL_EN true = u at hfr hcfg hvalid hcause hon hoff
  have hgrp : u.grp = d.grp := (congrArg Dev.grp hfr.1 :)
  have hgtc : u.gtc = d.gtc := (congrArg Dev.gtc hfr.1 :)
  have hload : u.firstLoad g = d.firstLoad g := Dev.firstLoad_of hgrp hgtc hoff
  have hg : ∀ j, u.grpS j = d.grpS j := fun j => by rw [Dev.grpS, hgrp]; rfl
  obtain ⟨k1, k2, k3, k4, k5, k6⟩ := u.groupStartRec_spec g
  have hreg := u.groupStartRec_reg g
  refine ⟨(noPart_grp hfr).trans grpPart_part (u.groupStartRec_frame g), ⟨fun j hj => (k1 j hj).trans (hg j), k2.trans hgtc, k3, k4, k5, k6.trans hload⟩,
    (Dev.flag_of_reg (hreg _) _).trans hon, ⟨(Dev.flag_of_reg (hreg _) _).trans hcfg, (Dev.get_of_reg (hreg _) _).trans hcause⟩,
    (Dev.flag_of_reg (hreg _) _).trans hvalid⟩

end

end Sys2Proof.Machine
end

section
/-! PROOFS. A group stops, and its secondary with it (R273, R278). -/

namespace Sys2Proof.Machine

section
variable {d e f : Dev} {g h x : Nat}

/-! ### Edges of a leg held off -/

/-- The edges that hold a leg in a state leave those of the other legs. -/
theorem holdEdges_other (d : Dev) (g : Nat) (q : LegSt) {x y : Nat} (hne : y ≠ x) (code : Nat) (t a b : Int) (es : List EdgeSt) :
    (holdEdges (d.mkEdge g x) q x code t a b es).filter (fun e => e.leg == y) = es.filter fun e => e.leg == y := by
  have hleg : ∀ h o u, ((d.mkEdge g x h o u).leg == y) = false := fun _ _ _ => beq_eq_false_iff_ne.2 hne.symm
  have hadd : ∀ (c : Bool) (l : List EdgeSt) (h o : Bool) (u : Int), (if c then l ++ [d.mkEdge g x h o u] else l).filter (fun e => e.leg == y) =
      l.filter fun e => e.leg == y := fun c l h o u => by
    cases c with
    | false => rfl
    | true => rw [if_pos rfl, List.filter_append, List.filter_cons, hleg]; simp
  have hkept : (es.filter fun e => e.leg != x || decide (e.t < t)).filter (fun e => e.leg == y) = es.filter fun e => e.leg == y := by
    rw [List.filter_filter]
    refine List.filter_congr fun e _ => ?_
    by_cases hy : e.leg = y
    · simp [hy, hne]
    · simp [hy]
  rw [holdEdges]
  rw [hadd, hadd, hadd, hadd, hkept]

theorem upAfter_of_filter {es fs : List EdgeSt} {y : Nat} (h : fs.filter (fun e => e.leg == y) = es.filter fun e => e.leg == y) (lv hi : Bool) :
    upAfter fs lv y hi = upAfter es lv y hi := by
  have hf : ∀ l : List EdgeSt, l.filter (fun e => e.leg == y && e.hi == hi) = (l.filter fun e => e.leg == y).filter fun e => e.hi == hi := fun l => by
    rw [List.filter_filter]
    refine List.filter_congr fun e _ => Bool.and_comm _ _
  rw [upAfter, upAfter, hf, hf, h]

/-- A leg held off has no edge beyond the time from which it is held. -/
theorem holdEdges_off_le (d : Dev) (g : Nat) (q : LegSt) (x : Nat) (t a b : Int) (es : List EdgeSt) :
    ∀ y ∈ holdEdges (d.mkEdge g x) q x 1 t a b es, y.leg = x → y.t ≤ t := by
  have hkept : ∀ y ∈ es.filter (fun e => e.leg != x || decide (e.t < t)), y.leg = x → y.t ≤ t := fun y hy hx => by
    simpa [hx] using le_of_lt (by simpa [hx] using (List.mem_filter.1 hy).2 : y.t < t)
  have hadd : ∀ (c : Bool) (l : List EdgeSt) (h : Bool), (∀ y ∈ l, y.leg = x → y.t ≤ t) →
      ∀ y ∈ (if c then l ++ [d.mkEdge g x h false t] else l), y.leg = x → y.t ≤ t := fun c l h hl y hy hx => by
    cases c with
    | false => exact hl y hy hx
    | true =>
      rw [if_pos rfl, List.mem_append, List.mem_singleton] at hy
      obtain hy | rfl := hy
      · exact hl y hy hx
      · exact le_refl _
  rw [holdEdges]
  rw [if_neg (by simp), if_neg (by simp)]
  exact hadd _ _ _ (hadd _ _ _ hkept)

/-! ### One leg stops -/

/-- A leg has been stopped: no carry, no forced state, its switches off from 4 ticks on. -/
structure LegOff (d e : Dev) (g x : Nat) : Prop where
  carry : e.carry g x = 0
  force : (e.legS g x).force = 0
  off : ∀ hi, upAfter (e.grpS g).edges ((d.legS g x).lv hi) x hi = false
  soon : ∀ y ∈ (e.grpS g).edges, y.leg = x → y.t ≤ 64 * ((d.gtc + 4 : Nat) : Int)

theorem LegOff.of (k : LegOff d e g x) (hc : f.reg (R.PWT_CARRY g x) = e.reg (R.PWT_CARRY g x)) (hl : (f.legS g x).force = (e.legS g x).force)
    (hes : (f.grpS g).edges.filter (fun y => y.leg == x) = (e.grpS g).edges.filter fun y => y.leg == x) : LegOff d f g x := by
  refine ⟨?_, hl.trans k.force, fun hi => (upAfter_of_filter hes _ _).trans (k.off hi), fun y hy hx => k.soon y ?_ hx⟩
  · rw [Dev.carry, hc]
    exact k.carry
  · have hm : y ∈ (f.grpS g).edges.filter fun y => y.leg == x := List.mem_filter.2 ⟨hy, by simp [hx]⟩
    rw [hes] at hm
    exact (List.mem_filter.1 hm).1

/-- A leg's record once it has stopped: what its pins show, and a forced state to come again. -/
def LegSt.stopped (q : LegSt) (t : Nat) : LegSt :=
  { lvH := q.lvH, lvL := q.lvL, offH := q.offH, offL := q.offL, wait := q.wait, relAt := q.relAt, causeAt := q.causeAt, limH := q.limH, limL := q.limL,
    pinH := q.pinH, pinL := q.pinL, fPend := if q.force ≠ 0 ∧ q.fPend = none ∧ q.imm = none then some (q.force, t) else none }

/-- A leg's part of a group's stop. -/
def Dev.stopLeg (d : Dev) (g : Nat) (t : Int) (x : Nat) : Dev :=
  ((d.setEdges g (holdEdges (d.mkEdge g x) (d.legS g x) x 1 t (d.dtH g) (d.dtL g) (d.grpS g).edges)).setLeg g x ((d.legS g x).stopped d.gtc)).setCarry
    g x 0

/-- The carries of a group. -/
def carryRegs (g : Nat) : List Nat := [R.PWT_CARRY g 0, R.PWT_CARRY g 1, R.PWT_CARRY g 2]

theorem mem_carryRegs (hx : x < 3) : R.PWT_CARRY g x ∈ carryRegs g := by
  interval_cases x <;> simp [carryRegs]

theorem Dev.edges_setLeg (d : Dev) (g x : Nat) (q : LegSt) : ((d.setLeg g x q).grpS g).edges = (d.grpS g).edges := by
  rw [Dev.setLeg, Dev.grpS_setGrp_self]

theorem Dev.stopLeg_edges (d : Dev) (g : Nat) (t : Int) (x : Nat) : ((d.stopLeg g t x).grpS g).edges =
    holdEdges (d.mkEdge g x) (d.legS g x) x 1 t (d.dtH g) (d.dtL g) (d.grpS g).edges := by
  rw [Dev.stopLeg, Dev.setCarry, Dev.grpS_setReg, Dev.edges_setLeg, Dev.setEdges, Dev.grpS_setGrp_self]

theorem Dev.stopLeg_leg (d : Dev) (g : Nat) (t : Int) (x y : Nat) : (d.stopLeg g t x).legS g y =
    if y = x then (d.legS g x).stopped d.gtc else d.legS g y := by
  have h : (d.stopLeg g t x).legS g y = ((d.setEdges g (holdEdges (d.mkEdge g x) (d.legS g x) x 1 t (d.dtH g) (d.dtL g) (d.grpS g).edges)).setLeg g x
      ((d.legS g x).stopped d.gtc)).legS g y := legS_of_grp rfl g y
  rw [h, Dev.legS_setLeg]
  by_cases hy : y = x
  · rw [if_pos ⟨rfl, hy⟩, if_pos hy]
  · rw [if_neg fun k => hy k.2, if_neg hy, Dev.legS_setEdges]

theorem Dev.stopLeg_frame (d : Dev) (g : Nat) (t : Int) (hx : x < 3) : FrameOn grpPart (carryRegs g) d (d.stopLeg g t x) :=
  (((FrameOn.refl grpPart_part _ d).setGrp g _).setLeg g x _).setReg grpPart_part _ (mem_carryRegs hx)

theorem Dev.stopLeg_groups (d : Dev) (g : Nat) (t : Int) (x j : Nat) (hj : j ≠ g) : (d.stopLeg g t x).grpS j = d.grpS j := by
  rw [Dev.stopLeg, Dev.setCarry, Dev.grpS_setReg, Dev.setLeg, Dev.grpS_setGrp, if_neg hj, Dev.setEdges, Dev.grpS_setGrp, if_neg hj]

theorem Dev.stopLeg_off (hd : d.legS g x = e.legS g x) : LegOff e (d.stopLeg g (64 * ((e.gtc + 4 : Nat) : Int)) x) g x := by
  refine ⟨?_, ?_, fun hi => ?_, ?_⟩
  · exact Dev.carry_setCarry _ g x
  · rw [Dev.stopLeg_leg, if_pos rfl]
    rfl
  · rw [Dev.stopLeg_edges, ← hd, holdEdges_upAfter d g (d.legS g x) (by decide) (by decide)]
    cases hi <;> rfl
  · rw [Dev.stopLeg_edges]
    exact holdEdges_off_le d g (d.legS g x) x _ _ _ _

/-- Every leg of a group stops. -/
def Dev.stopLegs (d : Dev) (g : Nat) : Dev := forN 3 (fun x e => e.stopLeg g (64 * ((d.gtc + 4 : Nat) : Int)) x) d

theorem carry_ne {y : Nat} (hy : y ≠ x) : R.PWT_CARRY g y ≠ R.PWT_CARRY g x := by simp only [R.PWT_CARRY]; omega

theorem Dev.stopLegs_spec (d : Dev) (g : Nat) : (FrameOn grpPart (carryRegs g) d (d.stopLegs g) ∧ ∀ j, j ≠ g → (d.stopLegs g).grpS j = d.grpS j) ∧
    ∀ x < 3, LegOff d (d.stopLegs g) g x := by
  refine forN_stages (I := fun e => FrameOn grpPart (carryRegs g) d e ∧ ∀ j, j ≠ g → e.grpS j = d.grpS j) (B := fun x e => e.legS g x = d.legS g x)
    (A := fun x e => LegOff d e g x) 3 (fun x hx e hI hB => ?_) (fun x _ y _ hlt e _ hB => ?_) (fun x _ y hlt e _ hA => ?_)
    ⟨FrameOn.refl grpPart_part _ d, fun _ _ => rfl⟩ fun _ _ => rfl
  · exact ⟨⟨hI.1.trans grpPart_part (e.stopLeg_frame g _ hx), fun j hj => (e.stopLeg_groups g _ x j hj).trans (hI.2 j hj)⟩, Dev.stopLeg_off hB⟩
  · rw [Dev.stopLeg_leg, if_neg hlt.ne']
    exact hB
  · refine hA.of ?_ ?_ ?_
    · have hr : (e.stopLeg g (64 * ((d.gtc + 4 : Nat) : Int)) x).reg (R.PWT_CARRY g y) = _ := Dev.reg_setReg_ne _ _ (carry_ne hlt.ne)
      rw [hr, Dev.reg_setLeg, Dev.setEdges, Dev.reg_setGrp]
    · rw [Dev.stopLeg_leg, if_neg hlt.ne]
    · rw [Dev.stopLeg_edges]
      exact holdEdges_other e g _ hlt.ne _ _ _ _ _

/-! ### A group stops -/

/-- A group's record once it has stopped. -/
def GrpSt.stopped (r : GrpSt) (t : Nat) : GrpSt :=
  { legs := r.legs, edges := r.edges, vq := r.vq, offAt := some (t + 4), waitAt := r.waitAt, rdyAcc := r.rdyAcc, shut := r.shut, chkAt := r.chkAt,
    armOld := r.armOld, failD := r.failD }

/-- The registers of a group that stops. -/
def Dev.stopShown (d : Dev) (g : Nat) : Dev :=
  (((d.putB (R.PG_CTRL (Pg.PWT g)) F.PG_CTRL_EN false).putB (R.PWT_STAT g) F.PWT_STAT_RUN false).putB (R.PWT_STAT g) F.PWT_STAT_VALID false).putB
    (R.PWT_STAT g) F.PWT_STAT_ALOCKED false

/-- The group action shown as ended. -/
def Dev.actEnded (d : Dev) (g : Nat) : Dev :=
  if g < 12 then d.putB (R.GDT_LSTAT g) F.GDT_LSTAT_GACT false else d.putB (R.GDA_LSTAT (g - 12)) F.GDA_LSTAT_GACT false

theorem Dev.groupStop_eq (d : Dev) (g : Nat) : d.groupStop g =
    ((((d.stopShown g).stopLegs g).setGrp g ((((d.stopShown g).stopLegs g).grpS g).stopped ((d.stopShown g).stopLegs g).gtc)).actEnded g).showForced g := by
  rfl

theorem Dev.stopShown_spec (d : Dev) (g : Nat) : FrameOn noPart [R.PG_CTRL (Pg.PWT g), R.PWT_STAT g] d (d.stopShown g) ∧
    (d.stopShown g).pageEn (Pg.PWT g) = false ∧ (d.stopShown g).pwmRun g = false := by
  have hne : R.PG_CTRL (Pg.PWT g) ≠ R.PWT_STAT g := by simp only [R.PWT_STAT, R.PG_CTRL, pageBase, Pg.PWT]; omega
  refine ⟨((((FrameOn.refl noPart_part _ d).putB noPart_part _ _ (by simp)).putB noPart_part _ _ (by simp)).putB noPart_part _ _ (by simp)).putB
    noPart_part _ _ (by simp), ?_, ?_⟩
  · have hr : (d.stopShown g).reg (R.PG_CTRL (Pg.PWT g)) = (d.putB (R.PG_CTRL (Pg.PWT g)) F.PG_CTRL_EN false).reg (R.PG_CTRL (Pg.PWT g)) :=
      (Dev.reg_put_ne _ _ _ hne).trans ((Dev.reg_put_ne _ _ _ hne).trans (Dev.reg_put_ne _ _ _ hne))
    rw [Dev.pageEn, Dev.flag_of_reg hr]
    exact Dev.flag_putB_self _ _ _ _ (by decide) (by decide)
  · rw [Dev.pwmRun, Dev.stopShown, Dev.putB, Dev.flag_put_field _ _ _ _ (by decide), Dev.putB, Dev.flag_put_field _ _ _ _ (by decide)]
    exact Dev.flag_putB_self _ _ _ _ (by decide) (by decide)

theorem Dev.actEnded_eq (d : Dev) (g : Nat) : ∃ f, d.actEnded g = d.putB (gdLstat g) f false := by
  rw [Dev.actEnded, gdLstat]
  split
  · exact ⟨_, rfl⟩
  · exact ⟨_, rfl⟩

/-- What a stop leaves of a group. -/
structure Stopped (g : Nat) (d e : Dev) : Prop where
  frame : FrameOn grpPart (stopRegs g) d e
  others : ∀ j, j ≠ g → e.grpS j = d.grpS j
  off : e.pageEn (Pg.PWT g) = false
  idle : e.pwmRun g = false
  shadow : (e.grpS g).load = none ∧ (e.grpS g).vec = none ∧ (e.grpS g).nextVec = none ∧ (e.grpS g).offAt = some (d.gtc + 4)
  legs : ∀ x, x < 3 → LegOff d e g x

theorem Stopped.groupStopped (k : Stopped g d e) : GroupStopped d e g := by
  obtain ⟨h1, h2, h3, h4⟩ := k.shadow
  exact ⟨k.off, k.idle, h1, h2, h3, h4, fun x hx => ⟨(k.legs x hx).carry, (k.legs x hx).force, (k.legs x hx).off, (k.legs x hx).soon⟩⟩

theorem gdLstat_off (g : Nat) {a : Nat} (h : pageOf a ≠ Pg.GDT) (h' : pageOf a ≠ Pg.GDA) (hg : g < 20) : a ≠ gdLstat g := by
  rintro rfl
  rw [gdLstat] at h h'
  split at h
  · simp only [pageOf, R.GDT_LSTAT, Pg.GDT] at h
    omega
  · next hn =>
    rw [if_neg hn] at h'
    simp only [pageOf, R.GDA_LSTAT, Pg.GDA] at h'
    omega

/-- The last steps of a stop. -/
def Dev.stopEnd (d : Dev) (g : Nat) : Dev := ((d.setGrp g ((d.grpS g).stopped d.gtc)).actEnded g).showForced g

theorem Dev.stopEnd_eq (d : Dev) (g : Nat) :
    ∃ f, d.stopEnd g = ((d.setGrp g ((d.grpS g).stopped d.gtc)).putB (gdLstat g) f false).showForced g := by
  obtain ⟨f, hf⟩ := (d.setGrp g ((d.grpS g).stopped d.gtc)).actEnded_eq g
  exact ⟨f, congrArg (fun u : Dev => u.showForced g) hf⟩

theorem Dev.stopEnd_frame (d : Dev) (g : Nat) : FrameOn grpPart (stopRegs g) d (d.stopEnd g) := by
  obtain ⟨f, hf⟩ := d.stopEnd_eq g
  rw [hf]
  exact (((FrameOn.refl grpPart_part _ d).setGrp g _).putB grpPart_part _ _ (by simp [stopRegs])).showForced (by simp [stopRegs])

theorem Dev.stopEnd_grpS (d : Dev) (g j : Nat) : (d.stopEnd g).grpS j = if j = g then (d.grpS g).stopped d.gtc else d.grpS j := by
  obtain ⟨f, hf⟩ := d.stopEnd_eq g
  rw [hf, Dev.showForced, Dev.grpS_put, Dev.putB, Dev.grpS_put, Dev.grpS_setGrp]

theorem Dev.stopEnd_reg (d : Dev) (hg : g < 20) {a : Nat} (h1 : a ≠ R.PWT_STAT g) (h2 : pageOf a ≠ Pg.GDT) (h3 : pageOf a ≠ Pg.GDA) :
    (d.stopEnd g).reg a = d.reg a := by
  obtain ⟨f, hf⟩ := d.stopEnd_eq g
  rw [hf, Dev.showForced, Dev.reg_put_ne _ _ _ h1, Dev.putB, Dev.reg_put_ne _ _ _ (gdLstat_off g h2 h3 hg), Dev.reg_setGrp]

theorem Dev.stopEnd_run (d : Dev) (hg : g < 20) : (d.stopEnd g).pwmRun g = d.pwmRun g := by
  obtain ⟨f, hf⟩ := d.stopEnd_eq g
  have hne : R.PWT_STAT g ≠ gdLstat g := gdLstat_off g (by simp only [pageOf, R.PWT_STAT, Pg.GDT]; omega) (by
    simp only [pageOf, R.PWT_STAT, Pg.GDA]; omega) hg
  have hr : ((d.setGrp g ((d.grpS g).stopped d.gtc)).putB (gdLstat g) f false).reg (R.PWT_STAT g) = d.reg (R.PWT_STAT g) := by
    rw [Dev.putB, Dev.reg_put_ne _ _ _ hne, Dev.reg_setGrp]
  rw [hf, Dev.pwmRun, Dev.showForced, Dev.flag_put_field _ _ _ _ (by decide), Dev.flag_of_reg hr]
  rfl

theorem Dev.groupStop_last (d : Dev) (g : Nat) : d.groupStop g = ((d.stopShown g).stopLegs g).stopEnd g := d.groupStop_eq g

/-- A stop on a device that shows the group stopped, whose legs have stopped. -/
theorem Stopped.ended {u v : Dev} (hg : g < 20) (hu : FrameOn noPart [R.PG_CTRL (Pg.PWT g), R.PWT_STAT g] d u)
    (hoff : u.pageEn (Pg.PWT g) = false) (hidle : u.pwmRun g = false) (hv : FrameOn grpPart (carryRegs g) u v)
    (hlo : ∀ j, j ≠ g → v.grpS j = u.grpS j) (hlegs : ∀ x < 3, LegOff u v g x) : Stopped g d (v.stopEnd g) := by
  have hgrp : u.grp = d.grp := (congrArg Dev.grp hu.1 :)
  have hgtc : u.gtc = d.gtc := (congrArg Dev.gtc hu.1 :)
  have hvt : v.gtc = u.gtc := (congrArg Dev.gtc hv.1 :)
  have hframe := v.stopEnd_frame g
  have hgS := v.stopEnd_grpS g
  have hrun := v.stopEnd_run hg
  have hreg : ∀ a, a ≠ R.PWT_STAT g → pageOf a ≠ Pg.GDT → pageOf a ≠ Pg.GDA → (v.stopEnd g).reg a = v.reg a := fun a => v.stopEnd_reg hg
  generalize v.stopEnd g = w at hframe hgS hrun hreg
  have hvoff : ∀ a, eventReg a = false → a ∉ carryRegs g → v.reg a = u.reg a := fun a ha hn => hv.reg grpPart_part ha hn
  have hstat : v.reg (R.PWT_STAT g) = u.reg (R.PWT_STAT g) := hvoff _ (by rw [eventReg_eq_false]; simp only [R.PWT_STAT]; omega) (by
    simp only [carryRegs, List.mem_cons, List.not_mem_nil, or_false, R.PWT_STAT, R.PWT_CARRY]; omega)
  have hctrl : w.reg (R.PG_CTRL (Pg.PWT g)) = u.reg (R.PG_CTRL (Pg.PWT g)) := (hreg _ (by
      simp only [R.PG_CTRL, R.PWT_STAT, pageBase, Pg.PWT]; omega) (by simp only [R.PG_CTRL, pageOf, pageBase, Pg.PWT, Pg.GDT]; omega) (by
      simp only [R.PG_CTRL, pageOf, pageBase, Pg.PWT, Pg.GDA]; omega)).trans (hvoff _ (eventReg_pgCtrl _) (by
    simp only [carryRegs, List.mem_cons, List.not_mem_nil, or_false, R.PG_CTRL, pageBase, Pg.PWT, R.PWT_CARRY]; omega))
  have hself : w.grpS g = (v.grpS g).stopped v.gtc := (hgS g).trans (if_pos rfl)
  have hall : FrameOn grpPart (stopRegs g) d w := by
    have h1 : FrameOn grpPart (stopRegs g) d u := (noPart_grp hu).mono fun a ha => by
      simp only [List.mem_cons, List.not_mem_nil, or_false] at ha
      obtain rfl | rfl := ha <;> simp [stopRegs]
    have h2 := h1.trans grpPart_part (hv.mono fun a ha => by
      simp only [carryRegs, List.mem_cons, List.not_mem_nil, or_false] at ha
      obtain rfl | rfl | rfl := ha <;> simp [stopRegs])
    exact h2.trans grpPart_part hframe
  refine ⟨hall, fun j hj => ?_, (Dev.flag_of_reg hctrl _).trans hoff, hrun.trans ((Dev.flag_of_reg hstat _).trans hidle), ?_, fun x hx => ?_⟩
  · rw [hgS, if_neg hj, hlo j hj, Dev.grpS, hgrp]
    rfl
  · rw [hself, ← hgtc, ← hvt]
    exact ⟨rfl, rfl, rfl, rfl⟩
  · have k2 : LegOff u w g x := (hlegs x hx).of (hreg _ (by simp only [R.PWT_CARRY, R.PWT_STAT]; omega) (by
      simp only [R.PWT_CARRY, pageOf, Pg.GDT]; omega) (by simp only [R.PWT_CARRY, pageOf, Pg.GDA]; omega)) (by rw [Dev.legS, hself]; rfl) (by
      rw [hself]; rfl)
    have hlv := legS_of_grp hgrp g x
    exact ⟨k2.carry, k2.force, fun hi => by rw [← hlv]; exact k2.off hi, fun y hy hx => by rw [← hgtc]; exact k2.soon y hy hx⟩

theorem Dev.groupStop_spec (d : Dev) (hg : g < 20) : Stopped g d (d.groupStop g) := by
  rw [Dev.groupStop_last]
  obtain ⟨hfr, hoff, hidle⟩ := d.stopShown_spec g
  obtain ⟨⟨hlf, hlo⟩, hlegs⟩ := (d.stopShown g).stopLegs_spec g
  exact Stopped.ended hg hfr hoff hidle hlf hlo hlegs

end

end Sys2Proof.Machine
end

section
/-! PROOFS. Groups disabled by a write, groups that start, vectors that a commit enters (R273, R278, R280, R281). -/

namespace Sys2Proof.Machine

section
variable {d e f : Dev} {g h x mid : Nat}

/-! ### A group that has stopped stays so -/

/-- What a stop says of a group's record is the same in two records. -/
structure GrpSt.Rest (r s : GrpSt) : Prop where
  load : s.load = r.load
  vec : s.vec = r.vec
  nextVec : s.nextVec = r.nextVec
  offAt : s.offAt = r.offAt
  legs : s.legs = r.legs
  edges : s.edges = r.edges

theorem GrpSt.Rest.refl (r : GrpSt) : GrpSt.Rest r r := ⟨rfl, rfl, rfl, rfl, rfl, rfl⟩

theorem GrpSt.Rest.trans {r s t : GrpSt} (h : GrpSt.Rest r s) (k : GrpSt.Rest s t) : GrpSt.Rest r t :=
  ⟨k.load.trans h.load, k.vec.trans h.vec, k.nextVec.trans h.nextVec, k.offAt.trans h.offAt, k.legs.trans h.legs, k.edges.trans h.edges⟩

/-- Registers that say that a group has stopped. -/
def restRegs (g : Nat) : List Nat := [R.PG_CTRL (Pg.PWT g), R.PWT_STAT g, R.PWT_CARRY g 0, R.PWT_CARRY g 1, R.PWT_CARRY g 2]

theorem GroupStopped.of (k : GroupStopped d e g) (hr : ∀ a ∈ restRegs g, f.reg a = e.reg a) (hs : (e.grpS g).Rest (f.grpS g)) : GroupStopped d f g := by
  obtain ⟨h1, h2, h3, h4, h5, h6, h7⟩ := k
  refine ⟨(Dev.flag_of_reg (hr _ (by simp [restRegs])) _).trans h1, (Dev.flag_of_reg (hr _ (by simp [restRegs])) _).trans h2, hs.load.trans h3,
    hs.vec.trans h4, hs.nextVec.trans h5, hs.offAt.trans h6, fun x hx => ?_⟩
  obtain ⟨k1, k2, k3, k4⟩ := h7 x hx
  refine ⟨?_, ?_, by rw [hs.edges]; exact k3, by rw [hs.edges]; exact k4⟩
  · have hc : f.reg (R.PWT_CARRY g x) = e.reg (R.PWT_CARRY g x) := hr _ (by interval_cases x <;> simp [restRegs])
    rw [Dev.carry, hc]
    exact k1
  · rw [Dev.legS, hs.legs]
    exact k2

theorem GroupStopped.from (k : GroupStopped e f g) (ht : e.gtc = d.gtc) (hs : e.grpS g = d.grpS g) : GroupStopped d f g := by
  obtain ⟨h1, h2, h3, h4, h5, h6, h7⟩ := k
  have hl : ∀ x, e.legS g x = d.legS g x := fun x => by rw [Dev.legS, hs]; rfl
  rw [ht] at h6
  refine ⟨h1, h2, h3, h4, h5, h6, fun x hx => ?_⟩
  obtain ⟨k1, k2, k3, k4⟩ := h7 x hx
  rw [hl] at k3
  rw [ht] at k4
  exact ⟨k1, k2, k3, k4⟩

theorem restRegs_event {a : Nat} (ha : a ∈ restRegs g) : eventReg a = false := by
  simp only [restRegs, List.mem_cons, List.not_mem_nil, or_false] at ha
  obtain rfl | rfl | rfl | rfl | rfl := ha
  · exact eventReg_pgCtrl _
  all_goals
    rw [eventReg_eq_false]
    simp only [R.PWT_STAT, R.PWT_CARRY]
    omega

/-- The registers of one group's stop are none of another's. -/
theorem restRegs_apart (hne : h ≠ g) (hg : g < 20) (hh : h < 20) {a : Nat} (ha : a ∈ restRegs h) : a ∉ stopRegs g := by
  have hgd : pageOf a = Pg.PWT h := by
    simp only [restRegs, List.mem_cons, List.not_mem_nil, or_false] at ha
    obtain rfl | rfl | rfl | rfl | rfl := ha <;> simp only [pageOf, R.PG_CTRL, pageBase, Pg.PWT, R.PWT_STAT, R.PWT_CARRY] <;> omega
  have hld : a ≠ gdLstat g := gdLstat_off g (by rw [hgd]; simp only [Pg.PWT, Pg.GDT]; omega) (by rw [hgd]; simp only [Pg.PWT, Pg.GDA]; omega) hg
  intro hs
  simp only [stopRegs, List.mem_cons, List.not_mem_nil, or_false] at hs
  have hpg : pageOf a = Pg.PWT g := by
    obtain rfl | rfl | rfl | rfl | rfl | hx := hs
    · simp only [pageOf, R.PG_CTRL, pageBase, Pg.PWT]; omega
    · simp only [pageOf, R.PWT_STAT, Pg.PWT]; omega
    · simp only [pageOf, R.PWT_CARRY, Pg.PWT]; omega
    · simp only [pageOf, R.PWT_CARRY, Pg.PWT]; omega
    · simp only [pageOf, R.PWT_CARRY, Pg.PWT]; omega
    · exact absurd hx hld
  rw [hgd] at hpg
  simp only [Pg.PWT] at hpg
  omega

/-! ### A group and its secondary disabled -/

/-- A group has been disabled. -/
structure Disabled (g : Nat) (d e : Dev) : Prop where
  frame : FrameOn grpPart (stopRegs g ++ ((d.secOf g).map stopRegs).getD []) d e
  others : ∀ j, j ≠ g → d.secOf g ≠ some j → e.grpS j = d.grpS j
  self : GroupStopped d e g
  sec : ∀ h, d.secOf g = some h → d.pwmEn h = true → GroupStopped d e h

/-- A secondary's stop, with its coming valleys. -/
def Dev.secDisable (d : Dev) (h : Nat) : Dev :=
  (if d.pwmEn h then d.groupStop h else d).setGrp h { (if d.pwmEn h then d.groupStop h else d).grpS h with vq := [] }

theorem Dev.groupDisable_none (hs : d.secOf g = none) : d.groupDisable g = d.groupStop g := by rw [Dev.groupDisable, hs]
theorem Dev.groupDisable_some (hs : d.secOf g = some h) : d.groupDisable g = (d.groupStop g).secDisable h := by rw [Dev.groupDisable, hs]; rfl

theorem Dev.secOf_eq (hs : d.secOf g = some h) : h = g + 1 ∧ g < 12 ∧ g % 2 = 0 := by
  rw [Dev.secOf] at hs
  split at hs
  · next hc => exact ⟨(Option.some.inj hs).symm, hc.1, hc.2.1⟩
  · exact absurd hs.symm (Option.some_ne_none _)

/-- What the secondary's part of a disable does. -/
theorem Dev.secDisable_spec (d : Dev) (hh : h < 20) : FrameOn grpPart (stopRegs h) d (d.secDisable h) ∧
    (∀ j, j ≠ h → (d.secDisable h).grpS j = d.grpS j) ∧ (d.pwmEn h = true → GroupStopped d (d.secDisable h) h) := by
  have hset : ∀ u : Dev, FrameOn grpPart (stopRegs h) d u → (∀ j, j ≠ h → u.grpS j = d.grpS j) →
      FrameOn grpPart (stopRegs h) d (u.setGrp h { u.grpS h with vq := [] }) ∧
      (∀ j, j ≠ h → (u.setGrp h { u.grpS h with vq := [] }).grpS j = d.grpS j) := fun u h1 h2 =>
    ⟨h1.setGrp h _, fun j hj => by rw [Dev.grpS_setGrp, if_neg hj]; exact h2 j hj⟩
  rw [Dev.secDisable]
  by_cases hen : d.pwmEn h = true
  · rw [if_pos hen]
    have hst := d.groupStop_spec hh
    obtain ⟨h1, h2⟩ := hset _ hst.frame hst.others
    refine ⟨h1, h2, fun _ => hst.groupStopped.of (fun a _ => Dev.reg_setGrp _ _ _ _) ?_⟩
    rw [Dev.grpS_setGrp_self]
    exact ⟨rfl, rfl, rfl, rfl, rfl, rfl⟩
  · rw [if_neg hen]
    obtain ⟨h1, h2⟩ := hset d (FrameOn.refl grpPart_part _ d) fun _ _ => rfl
    exact ⟨h1, h2, fun k => absurd k hen⟩

theorem FrameOn.pwmEn_stop (hf : FrameOn grpPart (stopRegs g) d e) (hne : h ≠ g) (hg : g < 20) (hh : h < 20) : e.pwmEn h = d.pwmEn h := by
  have hm : e.member = d.member := (congrArg Dev.member hf.1 :)
  have hr : e.reg (R.PG_CTRL (Pg.PWT h)) = d.reg (R.PG_CTRL (Pg.PWT h)) :=
    hf.reg grpPart_part (eventReg_pgCtrl _) (restRegs_apart hne hg hh (by simp [restRegs]))
  rw [Dev.pwmEn, Dev.pwmEn, hm, Dev.pageEn, Dev.pageEn, Dev.flag_of_reg hr]

theorem Dev.groupDisable_spec (d : Dev) (hg : g < 20) : Disabled g d (d.groupDisable g) := by
  have hst := d.groupStop_spec hg
  cases hs : d.secOf g with
  | none =>
    rw [Dev.groupDisable_none hs]
    refine ⟨?_, fun j hj _ => hst.others j hj, hst.groupStopped, fun h hh => absurd (hs.symm.trans hh).symm (Option.some_ne_none _)⟩
    exact hst.frame.mono fun a ha => List.mem_append_left _ ha
  | some h =>
    obtain ⟨hh, hg12, -⟩ := Dev.secOf_eq hs
    have hne : h ≠ g := by omega
    have hlt : h < 20 := by omega
    rw [Dev.groupDisable_some hs]
    have hen := hst.frame.pwmEn_stop hne hg hlt
    have hself := hst.others h hne
    have hgtc : (d.groupStop g).gtc = d.gtc := (congrArg Dev.gtc hst.frame.1 :)
    have hoth := hst.others
    have hfr := hst.frame
    have hstop := hst.groupStopped
    generalize d.groupStop g = u at hen hself hgtc hoth hfr hstop
    obtain ⟨k1, k2, k3⟩ := u.secDisable_spec hlt
    refine ⟨?_, fun j hj hsj => ?_, hstop.of (fun a ha => ?_) ?_, fun h' hh' hen' => ?_⟩
    · rw [hs]
      exact (hfr.mono fun a ha => List.mem_append_left _ ha).trans grpPart_part (k1.mono fun a ha => List.mem_append_right _ ha)
    · have hjh : j ≠ h := fun hjh => hsj (by rw [hs, hjh])
      exact (k2 j hjh).trans (hoth j hj)
    · exact k1.reg grpPart_part (restRegs_event ha) (restRegs_apart hne.symm hlt hg ha)
    · rw [k2 g hne.symm]
      exact .refl _
    · obtain rfl := Option.some.inj (hs.symm.trans hh')
      exact (k3 (hen.trans hen')).from hgtc hself

/-! ### The enables fall (R298, R303) -/

theorem Dev.beginCheck_eq (d : Dev) (j : Nat) : ∃ c, d.beginCheck j = d ∨ d.beginCheck j = d.setGrp j { d.grpS j with chkAt := c } := by
  rw [Dev.beginCheck]
  split
  · exact ⟨_, .inr rfl⟩
  · exact ⟨none, .inl rfl⟩

/-- Removal checks have begun in some groups. -/
structure ChecksOnly (l : List Nat) (d e : Dev) : Prop where
  frame : FrameOn grpPart [] d e
  reg : ∀ a, e.reg a = d.reg a
  rest : ∀ j, (d.grpS j).Rest (e.grpS j)
  others : ∀ j, j ∉ l → e.grpS j = d.grpS j

theorem ChecksOnly.beginCheck {l : List Nat} (k : ChecksOnly l d e) {j : Nat} (hj : j ∈ l) : ChecksOnly l d (e.beginCheck j) := by
  obtain ⟨c, h | h⟩ := e.beginCheck_eq j
  · rw [h]
    exact k
  · rw [h]
    refine ⟨k.frame.setGrp j _, fun a => (Dev.reg_setGrp _ _ _ _).trans (k.reg a), fun i => ?_, fun i hi => ?_⟩
    · rw [Dev.grpS_setGrp]
      split
      · next hi =>
        subst hi
        exact (k.rest i).trans ⟨rfl, rfl, rfl, rfl, rfl, rfl⟩
      · exact k.rest i
    · rw [Dev.grpS_setGrp, if_neg (by rintro rfl; exact hi hj)]
      exact k.others i hi

theorem ChecksOnly.foldl (l : List Nat) (d : Dev) : ChecksOnly l d (l.foldl (fun e j => e.beginCheck j) d) :=
  foldl_keeps (P := ChecksOnly l d) (fun _ hj _ hk => hk.beginCheck hj) ⟨FrameOn.refl grpPart_part _ d, fun _ => rfl, fun _ => .refl _, fun _ _ => rfl⟩

theorem Dev.groupOff_spec (d : Dev) (hg : g < 20) : Disabled g d (d.groupOff g) := by
  have k := d.groupDisable_spec hg
  rw [Dev.groupOff]
  have hmem : ∀ j ∈ ((g :: (d.secOf g).toList).filter fun h => decide (h < 12) && (d.pinP h || d.pinM h)), j = g ∨ d.secOf g = some j := fun j hj => by
    have hj := (List.mem_filter.1 hj).1
    rw [List.mem_cons, Option.mem_toList] at hj
    exact hj
  generalize ((g :: (d.secOf g).toList).filter fun h => decide (h < 12) && (d.pinP h || d.pinM h)) = l at hmem
  generalize d.groupDisable g = u at k
  have hc := ChecksOnly.foldl l u
  refine ⟨k.frame.trans grpPart_part (hc.frame.mono fun _ ha => absurd ha List.not_mem_nil), fun j hj hs => ?_, k.self.of (fun a _ => hc.reg a) (hc.rest g),
    fun h hh hen => (k.sec h hh hen).of (fun a _ => hc.reg a) (hc.rest h)⟩
  rw [hc.others j fun hl => (hmem j hl).elim hj hs]
  exact k.others j hj hs

/-- A disable as it stands for a device with the same registers, and after events. -/
theorem Disabled.of_same {u v : Dev} (k : Disabled g u v) (hs : SameRegs d u) (hq : Quiet v e) : Disabled g d e := by
  have hg : ∀ j, u.grpS j = d.grpS j := fun j => by rw [hs.1]; rfl
  have hgtc : u.gtc = d.gtc := by rw [hs.1]
  have hsec : u.secOf g = d.secOf g := by rw [Dev.secOf, Dev.secOf, hs.2]
  have hen : ∀ h, u.pwmEn h = d.pwmEn h := fun h => by rw [Dev.pwmEn, Dev.pwmEn, hs.member, Dev.pageEn, Dev.pageEn, Dev.flag_of_reg (hs.2 _)]
  have hfr := k.frame
  rw [hsec] at hfr
  have hof : ∀ h, GroupStopped u v h → GroupStopped d e h := fun h kh =>
    (kh.of (fun a ha => hq.reg (restRegs_event ha)) (by rw [hq.grpS]; exact .refl _)).from hgtc (hg h)
  refine ⟨((FrameOn.refl grpPart_part _ d).quiet grpPart_part hs.quiet).trans grpPart_part (hfr.quiet grpPart_part hq), fun j hj hsj => ?_, hof g k.self,
    fun h hh hen' => hof h (k.sec h (hsec.trans hh) ((hen h).trans hen'))⟩
  rw [hq.grpS, ← hg]
  exact k.others j hj (by rw [hsec]; exact hsj)

/-! ### A vector enters the shadow (R280, R281) -/

/-- The field of PWT_COMMIT. -/
def commitFields : List FieldDef := [⟨F.PWT_COMMIT_GO, .wo, 0⟩]

theorem regAt_pwtCommit : regAt .pwtB 0x8C = some (⟨0x08C, 0, 1, 0, 1, commitFields⟩, 0, 0) := by decide
theorem regAt_pwaCommit : regAt .pwaB 0x8C = some (⟨0x08C, 0, 1, 0, 1, commitFields⟩, 0, 0) := by decide

/-- What an entered vector leaves. -/
structure Entered280 (g : Nat) (v : List (Int × Int)) (d e : Dev) : Prop where
  frame : FrameOn grpPart [R.PWT_STAT g] d e
  others : ∀ j, j ≠ g → e.grpS j = d.grpS j
  self : e.grpS g = { d.grpS g with nextVec := some (v, d.gtc), comm := some v, commIdx := 0 }
  valid : e.flag (R.PWT_STAT g) F.PWT_STAT_VALID = true
  clamp : ∀ y ∈ v, dutyClamped y = true → e.flag (R.PWT_STAT g) F.PWT_STAT_DCLAMP = true

/-- DCLAMP shown for a vector. -/
def Dev.clampShown (d : Dev) (g : Nat) (v : List (Int × Int)) : Dev :=
  if v.any dutyClamped then (d.putB (R.PWT_STAT g) F.PWT_STAT_DCLAMP true).raiseN (Pg.PWT g) Ev.PWM_DCLAMP g else d

theorem Dev.enterVec_eq (hen : d.pwmEn g = true) (v : List (Int × Int)) : d.enterVec g v =
    ((d.clampShown g v).putB (R.PWT_STAT g) F.PWT_STAT_VALID true).setGrp g
      { ((d.clampShown g v).putB (R.PWT_STAT g) F.PWT_STAT_VALID true).grpS g with
        nextVec := some (v, ((d.clampShown g v).putB (R.PWT_STAT g) F.PWT_STAT_VALID true).gtc), comm := some v, commIdx := 0 } := by
  rw [Dev.enterVec, hen]
  rfl

theorem eventReg_pwtStat (g : Nat) : eventReg (R.PWT_STAT g) = false := by
  rw [eventReg_eq_false]
  simp only [R.PWT_STAT]
  omega

theorem Dev.clampShown_spec (d : Dev) (g : Nat) (v : List (Int × Int)) : FrameOn noPart [R.PWT_STAT g] d (d.clampShown g v) ∧
    ∀ y ∈ v, dutyClamped y = true → (d.clampShown g v).flag (R.PWT_STAT g) F.PWT_STAT_DCLAMP = true := by
  rw [Dev.clampShown]
  by_cases hc : v.any dutyClamped = true
  · rw [if_pos hc]
    have hq := (d.putB (R.PWT_STAT g) F.PWT_STAT_DCLAMP true).raiseN_quiet (Pg.PWT g) Ev.PWM_DCLAMP g
    refine ⟨((FrameOn.refl noPart_part _ d).putB noPart_part _ _ (by simp)).quiet noPart_part hq, fun _ _ _ => ?_⟩
    rw [hq.flag (eventReg_pwtStat g)]
    exact Dev.flag_putB_self _ _ _ _ (by decide) (by decide)
  · rw [if_neg hc]
    exact ⟨FrameOn.refl noPart_part _ d, fun y hy hd => absurd (List.any_eq_true.2 ⟨y, hy, hd⟩) hc⟩

theorem Dev.enterVec_spec (hen : d.pwmEn g = true) (v : List (Int × Int)) : Entered280 g v d (d.enterVec g v) := by
  rw [Dev.enterVec_eq hen]
  obtain ⟨hfr, hcl⟩ := d.clampShown_spec g v
  generalize d.clampShown g v = u at hfr hcl
  have hgrp : u.grp = d.grp := (congrArg Dev.grp hfr.1 :)
  have hgtc : u.gtc = d.gtc := (congrArg Dev.gtc hfr.1 :)
  have hg : ∀ j, u.grpS j = d.grpS j := fun j => by rw [Dev.grpS, hgrp]; rfl
  have hfv := hfr.putB noPart_part (a := R.PWT_STAT g) F.PWT_STAT_VALID true (by simp)
  have hv := Dev.flag_putB_self u (R.PWT_STAT g) F.PWT_STAT_VALID true (by decide) (by decide)
  have hc : ∀ y ∈ v, dutyClamped y = true → (u.putB (R.PWT_STAT g) F.PWT_STAT_VALID true).flag (R.PWT_STAT g) F.PWT_STAT_DCLAMP = true :=
    fun y hy hd => (Dev.flag_put_field _ _ _ _ (by decide)).trans (hcl y hy hd)
  have hgv : ∀ j, (u.putB (R.PWT_STAT g) F.PWT_STAT_VALID true).grpS j = d.grpS j := fun j => (Dev.grpS_put _ _ _ _ _).trans (hg j)
  have htv : (u.putB (R.PWT_STAT g) F.PWT_STAT_VALID true).gtc = d.gtc := hgtc
  generalize u.putB (R.PWT_STAT g) F.PWT_STAT_VALID true = w at hfv hv hc hgv htv
  refine ⟨(noPart_grp hfv).setGrp g _, fun j hj => by rw [Dev.grpS_setGrp, if_neg hj]; exact hgv j, by rw [Dev.grpS_setGrp_self, hgv, htv],
    (Dev.flag_of_reg (Dev.reg_setGrp _ _ _ _) _).trans hv, fun y hy hd => (Dev.flag_of_reg (Dev.reg_setGrp _ _ _ _) _).trans (hc y hy hd)⟩

/-- Where PWT_COMMIT lies. -/
theorem placed_pwtCommit (hp : groupPresent d.member g = true) : ∃ b i, Placed d (R.PWT_COMMIT g) b i 0x8C ∧ inRegs (R.PWT_COMMIT g) = true ∧
    (b = .pwtB ∧ i = g ∨ b = .pwaB ∧ 12 + i = g) := by
  have hn : nTraction d.member ≤ 12 ∧ nAux d.member ≤ 8 := by cases d.member <;> decide
  have ht : ∀ k < 12, pageInfo (Pg.PWT k) = some (.pwtB, k) := by decide
  have ha : ∀ k < 8, pageInfo (Pg.PWT (12 + k)) = some (.pwaB, k) := by decide
  simp only [groupPresent, Bool.or_eq_true, Bool.and_eq_true, decide_eq_true_eq] at hp
  have hpage : pageOf (R.PWT_COMMIT g) = Pg.PWT g := by simp only [R.PWT_COMMIT, pageOf, Pg.PWT]; omega
  have hoff : offOf (R.PWT_COMMIT g) = 0x8C := by simp only [R.PWT_COMMIT, offOf]; omega
  have hin : inRegs (R.PWT_COMMIT g) = true := inRegs_iff.2 (by simp only [R.PWT_COMMIT]; omega)
  by_cases h : g < 12
  · exact ⟨.pwtB, g, ⟨by rw [hpage]; exact ht g h, hoff, decide_eq_true (by omega), rfl, by decide⟩, hin, .inl ⟨rfl, rfl⟩⟩
  · have hk := ha (g - 12) (by omega)
    rw [Nat.add_sub_cancel' (by omega)] at hk
    exact ⟨.pwaB, g - 12, ⟨by rw [hpage]; exact hk, hoff, decide_eq_true (by omega), rfl, by decide⟩, hin, .inr ⟨rfl, by omega⟩⟩

/-- GO alone is written: the registers stand. -/
theorem Dev.commitPlain_same (hp : groupPresent d.member g = true) (ht : d.takenAt mid (R.PWT_COMMIT g) = true) :
    SameRegs d (d.plainWrite mid (R.PWT_COMMIT g) 1) := by
  obtain ⟨b, i, hpl, hin, hb⟩ := placed_pwtCommit hp
  have h : d.plainWrite mid (R.PWT_COMMIT g) 1 = d.setReg (R.PWT_COMMIT g) (d.reg (R.PWT_COMMIT g)) := by
    obtain ⟨rfl, -⟩ | ⟨rfl, -⟩ := hb
    · exact Dev.plainWrite_idle hpl hin regAt_pwtCommit (by decide) (fun _ _ => rfl) ht BitVec.and_zero
    · exact Dev.plainWrite_idle hpl hin regAt_pwaCommit (by decide) (fun _ _ => rfl) ht BitVec.and_zero
  rw [h]
  refine ⟨rfl, fun a => ?_⟩
  by_cases ha : a = R.PWT_COMMIT g
  · rw [ha, Dev.reg_setReg_self]
  · exact Dev.reg_setReg_ne _ _ ha

theorem Dev.commitWrite_spec (hp : groupPresent d.member g = true) (ht : d.takenAt mid (R.PWT_COMMIT g) = true) (hsrc : d.pwmDsrc g = false)
    (hen : d.pageEn (Pg.PWT g) = true) : Entered280 g (d.staged g) d (d.commitWrite mid g 1) := by
  have hsame := Dev.commitPlain_same hp ht
  have hbit : bitOf (1 : Word) 0 = true := by decide
  have heq : ∃ c : Bool, d.commitWrite mid g 1 = (if c then (d.plainWrite mid (R.PWT_COMMIT g) 1).putB (R.PWT_STAT g) F.PWT_STAT_LATE true
      else d.plainWrite mid (R.PWT_COMMIT g) 1).enterVec g ((d.plainWrite mid (R.PWT_COMMIT g) 1).staged g) := by
    rw [Dev.commitWrite, hsrc, ht, hbit]
    exact ⟨_, rfl⟩
  obtain ⟨c, heq⟩ := heq
  rw [heq]
  generalize d.plainWrite mid (R.PWT_COMMIT g) 1 = u at hsame
  have hstaged : u.staged g = d.staged g := by rw [Dev.staged, Dev.staged]; simp only [hsame.2]
  rw [hstaged]
  have h1 : FrameOn noPart [R.PWT_STAT g] d (if c then u.putB (R.PWT_STAT g) F.PWT_STAT_LATE true else u) := by
    have h0 := (FrameOn.refl noPart_part [R.PWT_STAT g] d).quiet noPart_part hsame.quiet
    exact FrameOn.ite (fun _ => h0.putB noPart_part _ _ (by simp)) fun _ => h0
  generalize (if c then u.putB (R.PWT_STAT g) F.PWT_STAT_LATE true else u) = w at h1
  have hm : w.member = d.member := (congrArg Dev.member h1.1 :)
  have hgrp : w.grp = d.grp := (congrArg Dev.grp h1.1 :)
  have hgtc : w.gtc = d.gtc := (congrArg Dev.gtc h1.1 :)
  have hg : ∀ j, w.grpS j = d.grpS j := fun j => by rw [Dev.grpS, hgrp]; rfl
  have hctrl : w.reg (R.PG_CTRL (Pg.PWT g)) = d.reg (R.PG_CTRL (Pg.PWT g)) := h1.reg noPart_part (eventReg_pgCtrl _) (by
    simp only [List.mem_cons, List.not_mem_nil, or_false, R.PG_CTRL, R.PWT_STAT, pageBase, Pg.PWT]; omega)
  have hwen : w.pwmEn g = true := by rw [Dev.pwmEn, hm, hp, Dev.pageEn, Dev.flag_of_reg hctrl]; exact hen
  have k := Dev.enterVec_spec hwen (d.staged g)
  exact ⟨(noPart_grp h1).trans grpPart_part k.frame, fun j hj => (k.others j hj).trans (hg j), by rw [k.self, hg, hgtc], k.valid, k.clamp⟩

/-- A write of PWT_COMMIT by the bus. -/
theorem Dev.pWrite_commit (hlive : d.replaying = false) (hg : g < 20) (hp : groupPresent d.member g = true) :
    Quiet (d.commitWrite mid g 1) (d.unitWrite 20 g mid (R.PWT_COMMIT g) 1) := by
  obtain ⟨b, i, hpl, -, hb⟩ := placed_pwtCommit hp
  rw [Dev.unitWrite_in d hg]
  have hq := Dev.pWrite_placed hpl hlive mid 1
  have hpage : d.pwmPageWrite mid g 0x8C (R.PWT_COMMIT g) 1 = d.commitWrite mid g 1 := by
    rw [Dev.pwmPageWrite, if_neg (by decide), if_neg (by decide), if_pos rfl]
  rw [← hpage]
  obtain ⟨rfl, rfl⟩ | ⟨rfl, rfl⟩ := hb
  · exact hq
  · exact hq

end

end Sys2Proof.Machine
end

section
/-! PROOFS. The capture of a load point (R270, R274, R280, R283). -/

namespace Sys2Proof.Machine

section
variable {d e f : Dev} {g h x l : Nat}

/-! ### What a capture may change -/

/-- Groups and contexts. -/
def capPart (d e : Dev) : Dev := { d with grp := e.grp, ctx := e.ctx }

theorem capPart_part : Part capPart := ⟨fun _ => rfl, fun _ _ _ => rfl, fun _ _ => rfl, fun _ _ _ => rfl⟩

/-- Registers that a capture writes. -/
def capRegs (g : Nat) : List Nat := [R.PWT_STAT g, R.PWT_CNT g, R.PWT_STAT (g + 1)] ++ carryRegs g

/-- A capture has begun: its group and the secondary, the targets of contexts, registers of the group. -/
structure CapRun (g : Nat) (d e : Dev) : Prop where
  frame : FrameOn capPart (capRegs g) d e
  others : ∀ j, j ≠ g → d.secOf g ≠ some j → e.grpS j = d.grpS j
  spec : ∀ c, (e.ctxS c).spec = (d.ctxS c).spec

/-- Two records of a group with the same vectors, load point and period. -/
structure GrpSt.Core (r s : GrpSt) : Prop where
  capd : s.capd = r.capd
  load : s.load = r.load
  idx : s.idx = r.idx
  vec : s.vec = r.vec
  nextVec : s.nextVec = r.nextVec
  v : s.v = r.v
  p : s.p = r.p

theorem GrpSt.Core.refl (r : GrpSt) : GrpSt.Core r r := ⟨rfl, rfl, rfl, rfl, rfl, rfl, rfl⟩

theorem GrpSt.Core.trans {r s t : GrpSt} (h : GrpSt.Core r s) (k : GrpSt.Core s t) : GrpSt.Core r t :=
  ⟨k.capd.trans h.capd, k.load.trans h.load, k.idx.trans h.idx, k.vec.trans h.vec, k.nextVec.trans h.nextVec, k.v.trans h.v, k.p.trans h.p⟩

/-- A step of a capture that leaves the group's vectors, load point and period. -/
structure CapKept (g : Nat) (d e : Dev) : Prop extends CapRun g d e where
  core : (d.grpS g).Core (e.grpS g)

theorem capRegs_own {a : Nat} (ha : a ∈ capRegs g) : eventReg a = false ∧ 0x40080000 ≤ a ∧ a ≠ R.PWG_PAIR ∧ a % 0x1000 < 0x200 := by
  simp only [capRegs, carryRegs, List.cons_append, List.nil_append, List.mem_cons, List.not_mem_nil, or_false] at ha
  rw [eventReg_eq_false]
  obtain rfl | rfl | rfl | rfl | rfl | rfl := ha <;> simp only [R.PWT_STAT, R.PWT_CNT, R.PWT_CARRY, R.PWG_PAIR] <;> omega

theorem CapRun.refl (g : Nat) (d : Dev) : CapRun g d d := ⟨FrameOn.refl capPart_part _ d, fun _ _ _ => rfl, fun _ => rfl⟩

theorem CapRun.secOf (k : CapRun g d e) : e.secOf g = d.secOf g := by
  have hr : e.reg R.PWG_PAIR = d.reg R.PWG_PAIR := k.frame.reg capPart_part (by decide) fun ha => (capRegs_own ha).2.2.1 rfl
  rw [Dev.secOf, Dev.secOf, hr]

theorem CapRun.trans (h : CapRun g d e) (k : CapRun g e f) : CapRun g d f :=
  ⟨h.frame.trans capPart_part k.frame, fun j hj hs => (k.others j hj (by rw [h.secOf]; exact hs)).trans (h.others j hj hs), fun c =>
    (k.spec c).trans (h.spec c)⟩

theorem CapKept.refl (g : Nat) (d : Dev) : CapKept g d d := ⟨.refl g d, .refl _⟩
theorem CapKept.trans (h : CapKept g d e) (k : CapKept g e f) : CapKept g d f := ⟨h.toCapRun.trans k.toCapRun, h.core.trans k.core⟩

theorem CapRun.setGrp (d : Dev) (g : Nat) (r : GrpSt) : CapRun g d (d.setGrp g r) :=
  ⟨(FrameOn.refl capPart_part _ d).part capPart_part rfl fun _ => rfl, fun j hj _ => by rw [Dev.grpS_setGrp, if_neg hj], fun _ => rfl⟩

theorem CapKept.setGrp (d : Dev) (g : Nat) {r : GrpSt} (hr : (d.grpS g).Core r) : CapKept g d (d.setGrp g r) :=
  ⟨.setGrp d g r, by rw [Dev.grpS_setGrp_self]; exact hr⟩

theorem CapKept.setSec (hs : d.secOf g = some h) (r : GrpSt) : CapKept g d (d.setGrp h r) := by
  have hne : g ≠ h := by have := (Dev.secOf_eq hs).1; omega
  refine ⟨⟨(FrameOn.refl capPart_part _ d).part capPart_part rfl fun _ => rfl, fun j _ hj => ?_, fun _ => rfl⟩, ?_⟩
  · rw [Dev.grpS_setGrp, if_neg fun hjh => hj (by rw [hs, hjh])]
  · rw [Dev.grpS_setGrp, if_neg hne]
    exact .refl _

theorem CapKept.setLeg (d : Dev) (g x : Nat) (q : LegSt) : CapKept g d (d.setLeg g x q) := .setGrp d g ⟨rfl, rfl, rfl, rfl, rfl, rfl, rfl⟩
theorem CapKept.setEdges (d : Dev) (g : Nat) (es : List EdgeSt) : CapKept g d (d.setEdges g es) := .setGrp d g ⟨rfl, rfl, rfl, rfl, rfl, rfl, rfl⟩

theorem CapKept.same (hf : FrameOn capPart (capRegs g) d e) (hg : e.grp = d.grp) (hc : e.ctx = d.ctx) : CapKept g d e := by
  have hs : ∀ j, e.grpS j = d.grpS j := fun j => by rw [Dev.grpS, hg]; rfl
  exact ⟨⟨hf, fun j _ _ => hs j, fun c => by rw [Dev.ctxS, hc]; rfl⟩, by rw [hs]; exact .refl _⟩

theorem CapKept.setReg (d : Dev) {g a : Nat} (ha : a ∈ capRegs g) (w : Word) : CapKept g d (d.setReg a w) :=
  .same ((FrameOn.refl capPart_part _ d).setReg capPart_part w ha) rfl rfl

theorem CapKept.put (d : Dev) {g a : Nat} (ha : a ∈ capRegs g) (fl : RField) (v : Nat) : CapKept g d (d.put a fl v) := .setReg d ha _
theorem CapKept.putB (d : Dev) {g a : Nat} (ha : a ∈ capRegs g) (fl : RField) (b : Bool) : CapKept g d (d.putB a fl b) := .setReg d ha _

theorem CapKept.quiet (h : Quiet d e) : CapKept g d e := .same ((FrameOn.refl capPart_part _ d).quiet capPart_part h) h.grp h.ctx

theorem CapKept.setCtx (d : Dev) (g : Nat) {c : Nat} {q : CtxSt} (hq : q.spec = (d.ctxS c).spec) : CapKept g d (d.setCtx c q) := by
  refine ⟨⟨(FrameOn.refl capPart_part _ d).part capPart_part rfl fun _ => rfl, fun _ _ _ => rfl, fun k => ?_⟩, .refl _⟩
  rw [Dev.ctxS_setCtx]
  split
  · next hk => rw [hk]; exact hq
  · rfl

theorem CapKept.forN (n : Nat) {u : Nat → Dev → Dev} (hu : ∀ k < n, ∀ e, CapKept g e (u k e)) : CapKept g d (forN n u d) :=
  forN_keeps (P := fun e => CapKept g d e) n (fun k hk e he => he.trans (hu k hk e)) (.refl g d)

theorem CapKept.ite {c : Prop} [Decidable c] (h1 : c → CapKept g d e) (h2 : ¬c → CapKept g d f) : CapKept g d (if c then e else f) := by
  split
  · next hc => exact h1 hc
  · next hc => exact h2 hc

/-- Of two results the one that holds, with the device that comes with it. -/
theorem snd_ite {P : Dev → Prop} {c : Prop} [Decidable c] {a b : Nat × Dev} (h1 : c → P a.2) (h2 : ¬c → P b.2) : P (if c then a else b).2 := by
  split
  · next hc => exact h1 hc
  · next hc => exact h2 hc

theorem statMem (g : Nat) : R.PWT_STAT g ∈ capRegs g := by simp [capRegs]
theorem cntMem (g : Nat) : R.PWT_CNT g ∈ capRegs g := by simp [capRegs]
theorem carryMem (hx : x < 3) : R.PWT_CARRY g x ∈ capRegs g := List.mem_append_right _ (mem_carryRegs hx)

/-! ### Steps that leave the vectors (R274 to R276, R283) -/

theorem Dev.minpCount_kept (d : Dev) (g : Nat) (was : List Bool) : CapKept g d (d.minpCount g was) := by
  rw [Dev.minpCount]
  refine CapKept.trans (.ite (fun _ => .put d (cntMem g) _ _) fun _ => .refl g d) (.quiet (Dev.raiseNIf_quiet _ _ _ _ _))

theorem Dev.minpFlush_none (h : (d.grpS g).minpDue = none) : d.minpFlush g = d := by rw [Dev.minpFlush, h]
theorem Dev.minpFlush_some {l : List Bool} (h : (d.grpS g).minpDue = some l) :
    d.minpFlush g = (d.setGrp g { d.grpS g with minpDue := none }).minpCount g l := by rw [Dev.minpFlush, h]

theorem Dev.minpFlush_kept (d : Dev) (g : Nat) : CapKept g d (d.minpFlush g) := by
  cases h : (d.grpS g).minpDue with
  | none => rw [Dev.minpFlush_none h]; exact .refl g d
  | some l => rw [Dev.minpFlush_some h]; exact CapKept.trans (CapKept.setGrp d g (r := { d.grpS g with minpDue := none }) ⟨rfl, rfl, rfl, rfl, rfl, rfl, rfl⟩) (Dev.minpCount_kept _ g l)

theorem Dev.captureForce_kept (d : Dev) (g : Nat) : CapKept g d (d.captureForce g) := by
  rw [Dev.captureForce]
  refine .forN 3 fun x _ e => ?_
  dsimp only
  split
  · exact .ite (fun _ => .setLeg e g x _) fun _ => .refl g e
  · exact .refl g e

theorem Dev.setLock_kept (d : Dev) (g : Nat) (on : Bool) : CapKept g d (d.setLock g on) := by
  have h1 := CapKept.putB d (statMem g) F.PWT_STAT_ALOCKED on
  have hsec : ∀ u : Dev, CapKept g d u → CapKept g d (u.raiseN (Pg.PWT g) (if on then Ev.PWM_ALK_ON else Ev.PWM_ALK_OFF) g) := fun u hu =>
    hu.trans (.quiet (Dev.raiseN_quiet _ _ _ _))
  rw [Dev.setLock]
  split
  · next s hs =>
    refine hsec _ (h1.trans (.putB _ ?_ _ _))
    rw [(Dev.secOf_eq hs).1]
    simp [capRegs]
  · exact hsec _ h1

theorem Dev.lockedPeriod_kept (d : Dev) (g k : Nat) : CapKept g d (d.lockedPeriod g k).2 := by
  rw [Dev.lockedPeriod]
  dsimp only
  generalize angleSearch _ _ _ _ _ _ _ _ = t
  obtain ⟨dj, j, n⟩ := t
  dsimp only
  have hraise : ∀ (u : Dev) (ev : Nat), CapKept g u (u.raiseN (Pg.PWT g) ev g) := fun u ev => .quiet (Dev.raiseN_quiet _ _ _ _)
  have h1 : CapKept g d ((d.setGrp g { d.grpS g with lockJ := j }).addSat (R.PWT_CNT g) F.PWT_CNT_SKIP_CNT n) :=
    CapKept.trans (CapKept.setGrp d g (r := { d.grpS g with lockJ := j }) ⟨rfl, rfl, rfl, rfl, rfl, rfl, rfl⟩) (.put _ (cntMem g) _ _)
  have h2 := h1.trans (.forN n (u := fun _ e => e.raiseN (Pg.PWT g) Ev.PWM_ALK_SKIP g) fun _ _ e => hraise e _)
  exact snd_ite (P := CapKept g d) (fun _ => (h2.trans (.putB _ (statMem g) _ _)).trans (hraise _ _)) fun _ => h2

theorem Dev.anglePeriod_kept (d : Dev) (g : Nat) : CapKept g d (d.anglePeriod g).2 := by
  have hset : ∀ (u : Dev) (a b : Int), CapKept g u (u.setGrp g { u.grpS g with lockDir := a, lockJ := b }) := fun u a b =>
    .setGrp u g ⟨rfl, rfl, rfl, rfl, rfl, rfl, rfl⟩
  rw [Dev.anglePeriod]
  refine snd_ite (P := CapKept g d) (fun _ => snd_ite (P := CapKept g d) (fun _ => ?_) fun _ => .refl g d) fun _ =>
    snd_ite (P := CapKept g d) (fun _ => d.setLock_kept g false) fun _ => d.lockedPeriod_kept g _
  exact ((d.setLock_kept g true).trans (hset _ _ _)).trans (Dev.lockedPeriod_kept _ g _)

/-- The lock given up in a mode without one. -/
def Dev.unlocked (d : Dev) (g : Nat) : Dev := if d.flag (R.PWT_STAT g) F.PWT_STAT_ALOCKED then d.setLock g false else d

theorem Dev.unlocked_kept (d : Dev) (g : Nat) : CapKept g d (d.unlocked g) := .ite (fun _ => d.setLock_kept g false) fun _ => .refl g d

theorem Dev.fixPeriod_angle (h : d.pwmMode g = 1) : d.fixPeriod g = d.anglePeriod g := by rw [Dev.fixPeriod, if_pos h]

theorem Dev.fixPeriod_fixed (h : d.pwmMode g = 0) : d.fixPeriod g = ((d.unlocked g).pwmPer g, d.unlocked g) := by
  rw [Dev.fixPeriod, if_neg (by rw [h]; decide), if_pos h]
  rfl

theorem Dev.fixPeriod_duty (h1 : d.pwmMode g ≠ 1) (h0 : d.pwmMode g ≠ 0) : (d.fixPeriod g).2 = d.unlocked g := by
  rw [Dev.fixPeriod, if_neg h1, if_neg h0]
  dsimp only
  split
  · rfl
  · exact snd_ite (P := fun u => u = d.unlocked g) (fun _ => rfl) fun _ => rfl

theorem Dev.fixPeriod_kept (d : Dev) (g : Nat) : CapKept g d (d.fixPeriod g).2 := by
  by_cases h1 : d.pwmMode g = 1
  · rw [Dev.fixPeriod_angle h1]
    exact d.anglePeriod_kept g
  by_cases h0 : d.pwmMode g = 0
  · rw [Dev.fixPeriod_fixed h0]
    exact d.unlocked_kept g
  · rw [Dev.fixPeriod_duty h1 h0]
    exact d.unlocked_kept g

theorem Dev.periodAt_kept (d : Dev) (g l : Nat) : CapKept g d (d.periodAt g l).2 := by
  rw [Dev.periodAt]
  exact snd_ite (P := CapKept g d) (fun _ => .refl g d) fun _ => d.fixPeriod_kept g

/-- A register that is none of a capture's stands. -/
theorem CapRun.reg (k : CapRun g d e) {a : Nat} (ha : eventReg a = false) (hl : a ∉ capRegs g) : e.reg a = d.reg a := k.frame.reg capPart_part ha hl

theorem CapRun.pwmPer (k : CapRun g d e) : e.pwmPer g = d.pwmPer g := by
  have hpair : e.reg R.PWG_PAIR = d.reg R.PWG_PAIR := k.reg (by decide) fun ha => (capRegs_own ha).2.2.1 rfl
  have hprim : e.primOf g = d.primOf g := by rw [Dev.primOf, Dev.primOf, hpair]
  have hper : ∀ j, e.reg (R.PWT_PER j) = d.reg (R.PWT_PER j) := fun j => k.reg (by
      rw [eventReg_eq_false]; simp only [R.PWT_PER]; omega) fun ha => by
    simp only [capRegs, carryRegs, List.cons_append, List.nil_append, List.mem_cons, List.not_mem_nil, or_false, R.PWT_PER, R.PWT_STAT, R.PWT_CNT,
      R.PWT_CARRY] at ha
    omega
  rw [Dev.pwmPer, Dev.pwmPer, Dev.cfgG, Dev.cfgG, hprim, Dev.get_of_reg (hper _)]

theorem Dev.periodAt_fixed (hp : d.primOf g = none) (hm : d.pwmMode g = 0) : (d.periodAt g l).1 = d.pwmPer g := by
  rw [Dev.periodAt, hp, if_neg (by decide), Dev.fixPeriod_fixed hm]
  exact (d.unlocked_kept g).pwmPer

theorem Dev.announce_kept (d : Dev) (g : Nat) (l : List (Nat × Nat)) : CapKept g d (d.announce g l) := .setGrp d g ⟨rfl, rfl, rfl, rfl, rfl, rfl, rfl⟩

theorem Dev.fixTarget_kept (d : Dev) (g s l : Nat) : CapKept g d (d.fixTarget s l) := by
  rw [Dev.fixTarget]
  exact .forN _ fun c _ e => .ite (fun _ => .setCtx e g rfl) fun _ => .refl g e

theorem Dev.secValley_kept (d : Dev) (g v p : Nat) : CapKept g d (d.secValley g v p) := by
  rw [Dev.secValley]
  split
  · exact .refl g d
  · next s hs =>
    have hput : ∀ (u : Dev) (r : GrpSt), CapKept g d u → CapKept g d (u.setGrp s r) := fun u r hu => hu.trans (.setSec (hu.secOf.trans hs) r)
    dsimp only
    refine .ite (fun _ => hput _ _ (.refl g d)) fun _ => ?_
    exact CapKept.trans (hput _ _ (.ite (fun _ => hput _ _ (hput _ _ (.refl g d))) fun _ => hput _ _ (.refl g d))) (Dev.fixTarget_kept _ g s _)

theorem Dev.boundCarry_kept (d : Dev) (g : Nat) (hx : x < 3) (c pf : Int) : CapKept g d (d.boundCarry g x c pf) := by
  have h := CapKept.setReg d (carryMem (g := g) hx) (wordOfInt (clampI (-pf) pf c))
  rw [Dev.boundCarry]
  exact .ite (fun _ => (h.trans (.putB _ (statMem g) _ _)).trans (.quiet (Dev.raiseN_quiet _ _ _ _))) fun _ => h

theorem Dev.stepLeg_kept (d : Dev) (g : Nat) (hx : x < 3) (peak : Bool) (dx : Frac) : CapKept g d (d.stepLeg g x peak dx) := by
  rw [Dev.stepLeg]
  dsimp only
  exact .ite (fun _ => CapKept.trans (.setLeg d g x _) (Dev.boundCarry_kept _ g hx _ _)) fun _ =>
    CapKept.trans (.setLeg d g x _) (Dev.boundCarry_kept _ g hx _ _)

theorem Dev.stepGroup_none {peak : Bool} {lo : Int} (h : (d.grpS g).vec = none) : d.stepGroup g peak lo = forN 3 (fun x e => e.unforce g x lo) d := by
  rw [Dev.stepGroup, h]

theorem Dev.stepGroup_some {peak : Bool} {lo : Int} {v : List (Int × Int)} (h : (d.grpS g).vec = some v) :
    d.stepGroup g peak lo = forN 3 (fun x e => e.placeLeg g x peak lo) (d.stepLegs g peak v) := by
  rw [Dev.stepGroup, h]

theorem Dev.stepGroup_kept (d : Dev) (g : Nat) (peak : Bool) (lo : Int) : CapKept g d (d.stepGroup g peak lo) := by
  cases h : (d.grpS g).vec with
  | none =>
    rw [Dev.stepGroup_none h]
    refine .forN 3 fun x _ e => ?_
    rw [Dev.unforce]
    exact .ite (fun _ => .setEdges e g _) fun _ => .refl g e
  | some v =>
    rw [Dev.stepGroup_some h]
    refine CapKept.trans (e := d.stepLegs g peak v) ?_ (.forN 3 fun x _ e => ?_)
    · rw [Dev.stepLegs]
      exact .forN 3 fun x hx e => .ite (fun _ => e.stepLeg_kept g hx peak _) fun _ => .refl g e
    · rw [Dev.placeLeg]
      exact .ite (fun _ => .refl g e) fun _ => .setEdges e g _

theorem Dev.planRefresh_kept (d : Dev) (g : Nat) : CapKept g d (d.planRefresh g) := by
  rw [Dev.planRefresh]
  exact .ite (fun _ => .refl g d) fun _ => .forN 3 fun x _ e => .setLeg e g x _

/-! ### The horizon where no context speculates (R228) -/

theorem Dev.recompCancel_none {c : Nat} (h : (d.ctxS c).spec = none) : d.recompCancel c = d := by rw [Dev.recompCancel, h]
theorem Dev.specTry_none {c : Nat} (h : (d.ctxS c).spec = none) : d.specTry c = d := by rw [Dev.specTry, h]

theorem Dev.fixH_kept (hns : d.NoSpec) (g l : Nat) : CapKept g d (d.fixH g l) := by
  have h : CapKept g d (d.fixH g l) ∧ (d.fixH g l).NoSpec := by
    rw [Dev.fixH]
    refine forN_keeps (P := fun e => CapKept g d e ∧ e.NoSpec) _ (fun c _ e he => ?_) ⟨.refl g d, hns⟩
    refine ite_both (P := fun e => CapKept g d e ∧ e.NoSpec) (fun _ => ?_) fun _ => he
    have hset : ∀ q : CtxSt, q.spec = (e.ctxS c).spec → CapKept g d (((e.setCtx c q).recompCancel c).specTry c) ∧
        (((e.setCtx c q).recompCancel c).specTry c).NoSpec := fun q hq => by
      have hk : CapKept g e (e.setCtx c q) := .setCtx e g hq
      have hn : (e.setCtx c q).NoSpec := fun j => (hk.spec j).trans (he.2 j)
      rw [Dev.recompCancel_none (hn c), Dev.specTry_none (hn c)]
      exact ⟨he.1.trans hk, hn⟩
    exact hset _ rfl
  exact h.1

end

end Sys2Proof.Machine
end

section
/-! PROOFS. What a captured load point leaves of its group (R270, R274, R280). -/

namespace Sys2Proof.Machine

section
variable {d e : Dev} {g l : Nat} {prov : Option (List (Int × Int))}

/-! ### The stages of a capture -/

/-- The vector that governs, and the update period counted. -/
def Dev.capBegin (d : Dev) (g l : Nat) (prov : Option (List (Int × Int))) : Dev :=
  (((d.minpFlush g).captureForce g).takeVec g l prov).setGrp g
    { (((d.minpFlush g).captureForce g).takeVec g l prov).grpS g with
      idx := ((((d.minpFlush g).captureForce g).takeVec g l prov).grpS g).idx + 1, capd := true }

/-- A valley and its period in the record of a group. -/
def Dev.setPeriod (d : Dev) (g v p : Nat) : Dev := d.setGrp g { d.grpS g with v := v, p := p }

/-- The period that begins at a captured valley. -/
def Dev.capPeriod (d : Dev) (g l : Nat) (peak : Bool) : Dev :=
  if peak then d
  else (((d.periodAt g l).2.setPeriod g l (d.periodAt g l).1).announceValley g l (d.periodAt g l).1).secValley g l (d.periodAt g l).1

/-- The steps and the edges of the update period. -/
def Dev.capPlace (d : Dev) (g l : Nat) (peak open1 : Bool) : Dev :=
  let before := (d.grpS g).edges
  let acted := (List.range 3).map fun x => (d.legS g x).acted
  let lim := d.flag (R.PWT_STAT g) F.PWT_STAT_CARRY_LIM
  let d := d.setGrp g { d.grpS g with legs0 := (d.grpS g).legs, minpOld := acted }
  let d := forN 3 (fun x e => e.setLeg g x { e.legS g x with acted := false }) d
  let d := d.stepGroup g peak (64 * (l : Int))
  let d := d.setGrp g { d.grpS g with limNew := d.flag (R.PWT_STAT g) F.PWT_STAT_CARRY_LIM && !lim }
  let d := if open1 then d.setGrp g { d.grpS g with minpDue := some acted } else d.minpCount g acted
  d.setGrp g { d.grpS g with eMin := firstEdge before (d.grpS g).edges (d.periodEnd g peak) }

theorem Dev.capture_eq (d : Dev) (g l : Nat) (peak : Bool) (prov : Option (List (Int × Int))) (open1 : Bool) :
    d.capture g l peak prov open1 = ((d.capBegin g l prov).capPeriod g l peak).capPlace g l peak open1 := rfl

theorem Dev.capPlace_kept (d : Dev) (g l : Nat) (peak open1 : Bool) : CapKept g d (d.capPlace g l peak open1) := by
  have hset : ∀ (u : Dev) (r : GrpSt), CapKept g d u → (u.grpS g).Core r → CapKept g d (u.setGrp g r) := fun u r hu hr => hu.trans (.setGrp u g hr)
  have hcore : ∀ r : GrpSt, r.Core r := .refl
  rw [Dev.capPlace]
  refine hset _ _ ?_ ⟨rfl, rfl, rfl, rfl, rfl, rfl, rfl⟩
  have h1 : CapKept g d (d.setGrp g { d.grpS g with legs0 := (d.grpS g).legs, minpOld := (List.range 3).map fun x => (d.legS g x).acted }) :=
    .setGrp d g ⟨rfl, rfl, rfl, rfl, rfl, rfl, rfl⟩
  generalize d.setGrp g { d.grpS g with legs0 := (d.grpS g).legs, minpOld := (List.range 3).map fun x => (d.legS g x).acted } = u at h1
  have h2 := h1.trans (.forN 3 (u := fun x e => e.setLeg g x { e.legS g x with acted := false }) fun x _ e => .setLeg e g x _)
  generalize forN 3 (fun x e => e.setLeg g x { e.legS g x with acted := false }) u = v at h2
  have h3 := h2.trans (v.stepGroup_kept g peak (64 * (l : Int)))
  generalize v.stepGroup g peak (64 * (l : Int)) = w at h3
  have h4 := hset w { w.grpS g with limNew := w.flag (R.PWT_STAT g) F.PWT_STAT_CARRY_LIM && !d.flag (R.PWT_STAT g) F.PWT_STAT_CARRY_LIM } h3
    ⟨rfl, rfl, rfl, rfl, rfl, rfl, rfl⟩
  generalize w.setGrp g { w.grpS g with limNew := w.flag (R.PWT_STAT g) F.PWT_STAT_CARRY_LIM && !d.flag (R.PWT_STAT g) F.PWT_STAT_CARRY_LIM } = y at h4
  exact .ite (fun _ => hset y _ h4 ⟨rfl, rfl, rfl, rfl, rfl, rfl, rfl⟩) fun _ => h4.trans (y.minpCount_kept g _)

/-! ### The vector that governs (R280) -/

/-- A record of a group but for its vectors is another's. -/
structure GrpSt.Vecs (r s : GrpSt) (v : Option (List (Int × Int))) (n : Option (List (Int × Int) × Nat)) : Prop where
  capd : s.capd = r.capd
  load : s.load = r.load
  idx : s.idx = r.idx
  vec : s.vec = v
  nextVec : s.nextVec = n
  v : s.v = r.v
  p : s.p = r.p

/-- A capture has taken a vector. -/
structure TookVec (g l : Nat) (prov : Option (List (Int × Int))) (d e : Dev) : Prop where
  run : CapRun g d e
  rest : (d.grpS g).Vecs (e.grpS g) (e.grpS g).vec (e.grpS g).nextVec
  entered : ∀ v t, (d.grpS g).nextVec = some (v, t) → t + 9 ≤ l → (e.grpS g).vec = some v ∧ (e.grpS g).nextVec = none
  stays : (∀ v t, (d.grpS g).nextVec = some (v, t) → l < t + 9) → prov = none → (e.grpS g).vec = (d.grpS g).vec ∧
    (e.grpS g).nextVec = (d.grpS g).nextVec

theorem Dev.takeVec_in {v : List (Int × Int)} {t : Nat} (hn : (d.grpS g).nextVec = some (v, t)) (ht : t + 9 ≤ l) : d.takeVec g l prov =
    d.setGrp g { d.grpS g with vec := some v, nextVec := none, commIdx := if (d.grpS g).commIdx = 0 then (d.grpS g).idx + 1 else (d.grpS g).commIdx } := by
  unfold Dev.takeVec
  dsimp only
  split
  · next v' t' h =>
    obtain ⟨rfl, rfl⟩ := Prod.mk.inj (Option.some.inj (hn.symm.trans h))
    exact if_pos ht
  · next h => exact absurd (h ▸ hn).symm (Option.some_ne_none _)

theorem Dev.takeVec_out (hn : ∀ v t, (d.grpS g).nextVec = some (v, t) → ¬t + 9 ≤ l) :
    d.takeVec g l prov = prov.elim d fun p => d.setGrp g { d.grpS g with vec := some p } := by
  unfold Dev.takeVec
  dsimp only
  split
  · next v t hv =>
    rw [if_neg (hn v t hv)]
    cases prov <;> rfl
  · cases prov <;> rfl

theorem Dev.takeVec_spec (d : Dev) (g l : Nat) (prov : Option (List (Int × Int))) : TookVec g l prov d (d.takeVec g l prov) := by
  by_cases hin : ∃ v t, (d.grpS g).nextVec = some (v, t) ∧ t + 9 ≤ l
  · obtain ⟨v, t, hn, ht⟩ := hin
    rw [Dev.takeVec_in hn ht]
    refine ⟨.setGrp d g _, ?_, fun v' t' hn' _ => ?_, fun hlt => absurd (hlt v t hn) (by omega)⟩
    · rw [Dev.grpS_setGrp_self]
      exact ⟨rfl, rfl, rfl, rfl, rfl, rfl, rfl⟩
    · rw [Dev.grpS_setGrp_self]
      obtain ⟨rfl, -⟩ := Prod.mk.inj (Option.some.inj (hn.symm.trans hn'))
      exact ⟨rfl, rfl⟩
  · have hout : ∀ v t, (d.grpS g).nextVec = some (v, t) → ¬t + 9 ≤ l := fun v t hn ht => hin ⟨v, t, hn, ht⟩
    rw [Dev.takeVec_out hout]
    cases prov with
    | none =>
      exact ⟨.refl g d, ⟨rfl, rfl, rfl, rfl, rfl, rfl, rfl⟩, fun v t hn ht => absurd ht (hout v t hn), fun _ _ => ⟨rfl, rfl⟩⟩
    | some p =>
      refine ⟨.setGrp d g _, ?_, fun v t hn ht => absurd ht (hout v t hn), fun _ h => absurd h (Option.some_ne_none p)⟩
      rw [Option.elim_some, Dev.grpS_setGrp_self]
      exact ⟨rfl, rfl, rfl, rfl, rfl, rfl, rfl⟩

/-- A capture has begun. -/
structure CapBegun (g l : Nat) (prov : Option (List (Int × Int))) (d e : Dev) : Prop where
  run : CapRun g d e
  capd : (e.grpS g).capd = true
  load : (e.grpS g).load = (d.grpS g).load
  idx : (e.grpS g).idx = (d.grpS g).idx + 1
  v : (e.grpS g).v = (d.grpS g).v
  p : (e.grpS g).p = (d.grpS g).p
  entered : ∀ v t, (d.grpS g).nextVec = some (v, t) → t + 9 ≤ l → (e.grpS g).vec = some v ∧ (e.grpS g).nextVec = none
  stays : (∀ v t, (d.grpS g).nextVec = some (v, t) → l < t + 9) → prov = none → (e.grpS g).vec = (d.grpS g).vec ∧
    (e.grpS g).nextVec = (d.grpS g).nextVec

theorem Dev.capBegin_spec (d : Dev) (g l : Nat) (prov : Option (List (Int × Int))) : CapBegun g l prov d (d.capBegin g l prov) := by
  rw [Dev.capBegin]
  have h1 := (d.minpFlush_kept g).trans (Dev.captureForce_kept _ g)
  generalize (d.minpFlush g).captureForce g = u at h1
  have h2 := u.takeVec_spec g l prov
  generalize u.takeVec g l prov = w at h2
  obtain ⟨hc, hl, hi, hv, hn, hvv, hp⟩ := h1.core
  obtain ⟨kc, kl, ki, -, -, kv, kp⟩ := h2.rest
  have hs := w.grpS_setGrp_self g { w.grpS g with idx := (w.grpS g).idx + 1, capd := true }
  refine ⟨(h1.toCapRun.trans h2.run).trans (.setGrp w g _), by rw [hs], by rw [hs]; exact kl.trans hl, by rw [hs]; exact congrArg (· + 1) (ki.trans hi),
    by rw [hs]; exact kv.trans hvv, by rw [hs]; exact kp.trans hp, fun v t hnv ht => ?_, fun hlt hpr => ?_⟩
  · rw [hs]
    exact h2.entered v t (hn.trans hnv) ht
  · rw [hs]
    obtain ⟨k1, k2⟩ := h2.stays (fun v t hnv => hlt v t (hn.symm.trans hnv)) hpr
    exact ⟨k1.trans hv, k2.trans hn⟩

/-! ### The period (R274) -/

/-- A capture has fixed the valley and the period. -/
structure Timed (g l : Nat) (pk : Bool) (d e : Dev) : Prop where
  run : CapRun g d e
  rest : (d.grpS g).Core { (e.grpS g) with v := (d.grpS g).v, p := (d.grpS g).p }
  peak : pk = true → (e.grpS g).v = (d.grpS g).v ∧ (e.grpS g).p = (d.grpS g).p
  valley : pk = false → (e.grpS g).v = l ∧ (e.grpS g).p = (d.periodAt g l).1

theorem Dev.announceValley_kept (d : Dev) (g v p : Nat) : CapKept g d (d.announceValley g v p) := d.announce_kept g _

theorem Dev.capPeriod_spec (d : Dev) (g l : Nat) (peak : Bool) : Timed g l peak d (d.capPeriod g l peak) := by
  cases peak with
  | true => exact ⟨.refl g d, ⟨rfl, rfl, rfl, rfl, rfl, rfl, rfl⟩, fun _ => ⟨rfl, rfl⟩, fun h => absurd h (by decide)⟩
  | false =>
    rw [Dev.capPeriod, if_neg (by decide)]
    have h1 := d.periodAt_kept g l
    generalize hpd : (d.periodAt g l).1 = p
    generalize (d.periodAt g l).2 = u at h1
    have h2 : CapRun g u (u.setPeriod g l p) := .setGrp u g _
    have hs : (u.setPeriod g l p).grpS g = { u.grpS g with v := l, p := p } := u.grpS_setGrp_self g _
    generalize u.setPeriod g l p = w at h2 hs
    have h3 := (w.announceValley_kept g l p).trans (Dev.secValley_kept _ g l p)
    generalize (w.announceValley g l p).secValley g l p = y at h3
    obtain ⟨hc, hl, hi, hv, hn, -, -⟩ := h1.core
    obtain ⟨kc, kl, ki, kv, kn, kvv, kp⟩ := h3.core
    rw [hs] at kc kl ki kv kn kvv kp
    exact ⟨(h1.toCapRun.trans h2).trans h3.toCapRun, ⟨kc.trans hc, kl.trans hl, ki.trans hi, kv.trans hv, kn.trans hn, rfl, rfl⟩,
      fun h => absurd h (by decide), fun _ => ⟨kvv, kp.trans hpd.symm⟩⟩

theorem CapRun.primOf (k : CapRun g d e) : e.primOf g = d.primOf g := by
  have hr : e.reg R.PWG_PAIR = d.reg R.PWG_PAIR := k.reg (by decide) fun ha => (capRegs_own ha).2.2.1 rfl
  rw [Dev.primOf, Dev.primOf, hr]

theorem CapRun.pwmMode (k : CapRun g d e) : e.pwmMode g = d.pwmMode g := by
  have hr : ∀ j, e.reg (R.PWT_CTRL j) = d.reg (R.PWT_CTRL j) := fun j => k.reg (by
      rw [eventReg_eq_false]; simp only [R.PWT_CTRL]; omega) fun ha => by
    simp only [capRegs, carryRegs, List.cons_append, List.nil_append, List.mem_cons, List.not_mem_nil, or_false, R.PWT_CTRL, R.PWT_STAT, R.PWT_CNT,
      R.PWT_CARRY] at ha
    omega
  rw [Dev.pwmMode, Dev.pwmMode, Dev.cfgG, Dev.cfgG, k.primOf, Dev.get_of_reg (hr _)]

/-! ### CAPTURE_TICK -/

/-- The capture's own device changes, with the refreshes planned and the horizon fixed. -/
def Dev.capturedAt (d : Dev) (g l : Nat) (pk : Bool) : Dev :=
  let u := d.capture g l pk (if d.isTarget g l then d.fallbackVec g else none) (d.specOpen g l)
  (if pk then u else u.planRefresh g).fixH g l

theorem Dev.captureTick_due {pk : Bool} (h : d.captureDue g = some (l, pk)) : d.captureTick g = d.capturedAt g l pk := by rw [Dev.captureTick, h]; rfl

theorem Dev.captureDue_load {pk : Bool} (h : d.captureDue g = some (l, pk)) : (d.grpS g).load = some (l, pk) := by
  rw [Dev.captureDue] at h
  split at h
  · next l' pk' hl =>
    split at h
    · rw [hl, Option.some.inj h]
    · exact absurd h.symm (Option.some_ne_none _)
  · exact absurd h.symm (Option.some_ne_none _)

theorem Dev.capturedAt_kept {pk : Bool} (hns : d.NoSpec) : ∃ prov o, (d.isTarget g l = false → prov = none) ∧
    CapKept g (((d.capBegin g l prov).capPeriod g l pk).capPlace g l pk o) (d.capturedAt g l pk) := by
  refine ⟨if d.isTarget g l then d.fallbackVec g else none, d.specOpen g l, fun ht => ?_, ?_⟩
  rotate_left
  · rw [Dev.capturedAt, Dev.capture_eq]
    have hb := d.capBegin_spec g l (if d.isTarget g l then d.fallbackVec g else none)
    generalize d.capBegin g l (if d.isTarget g l then d.fallbackVec g else none) = u at hb
    have ht := u.capPeriod_spec g l pk
    generalize u.capPeriod g l pk = v at ht
    have hp := v.capPlace_kept g l pk (d.specOpen g l)
    generalize hw : v.capPlace g l pk (d.specOpen g l) = w at hp
    have hpl : CapKept g w (if pk then w else w.planRefresh g) := .ite (fun _ => .refl g w) fun _ => w.planRefresh_kept g
    have hns' : (if pk then w else w.planRefresh g).NoSpec := fun c =>
      (hpl.spec c).trans ((hp.spec c).trans ((ht.run.spec c).trans ((hb.run.spec c).trans (hns c))))
    exact hpl.trans (Dev.fixH_kept hns' g l)
  · rw [ht]
    rfl

/-- What a capture leaves. -/
structure Captured (g l : Nat) (pk : Bool) (d e : Dev) : Prop where
  run : CapRun g d e
  capd : (e.grpS g).capd = true
  load : (e.grpS g).load = some (l, pk)
  idx : (e.grpS g).idx = (d.grpS g).idx + 1
  entered : ∀ v t, (d.grpS g).nextVec = some (v, t) → t + 9 ≤ l → (e.grpS g).vec = some v ∧ (e.grpS g).nextVec = none
  stays : (∀ v t, (d.grpS g).nextVec = some (v, t) → l < t + 9) → d.isTarget g l = false → (e.grpS g).vec = (d.grpS g).vec ∧
    (e.grpS g).nextVec = (d.grpS g).nextVec
  peak : pk = true → (e.grpS g).v = (d.grpS g).v ∧ (e.grpS g).p = (d.grpS g).p
  valley : pk = false → (e.grpS g).v = l
  fixed : pk = false → d.primOf g = none → d.pwmMode g = 0 → (e.grpS g).p = d.pwmPer g

theorem Dev.captureTick_spec {pk : Bool} (hns : d.NoSpec) (h : d.captureDue g = some (l, pk)) : Captured g l pk d (d.captureTick g) := by
  rw [Dev.captureTick_due h]
  obtain ⟨prov, o, hprov, hk⟩ := Dev.capturedAt_kept (g := g) (l := l) (pk := pk) hns
  generalize d.capturedAt g l pk = e at hk
  have hb := d.capBegin_spec g l prov
  generalize d.capBegin g l prov = u at hk hb
  have ht := u.capPeriod_spec g l pk
  generalize u.capPeriod g l pk = v at hk ht
  have hp := (v.capPlace_kept g l pk o).trans hk
  obtain ⟨kc, kl, ki, kv, kn, kvv, kp⟩ := hp.core
  obtain ⟨tc, tl, ti, tv, tn, -, -⟩ := ht.rest
  have hvec : (e.grpS g).vec = (u.grpS g).vec := kv.trans tv
  have hnext : (e.grpS g).nextVec = (u.grpS g).nextVec := kn.trans tn
  refine ⟨(hb.run.trans ht.run).trans hp.toCapRun, kc.trans (tc.trans hb.capd), (kl.trans (tl.trans hb.load)).trans (Dev.captureDue_load h),
    ki.trans (ti.trans hb.idx), fun v' t hn h9 => ?_, fun hlt htg => ?_, fun hpk => ?_, fun hpk => kvv.trans (ht.valley hpk).1, fun hpk hprim hm => ?_⟩
  · rw [hvec, hnext]
    exact hb.entered v' t hn h9
  · rw [hvec, hnext]
    exact hb.stays hlt (hprov htg)
  · obtain ⟨h1, h2⟩ := ht.peak hpk
    exact ⟨kvv.trans (h1.trans hb.v), kp.trans (h2.trans hb.p)⟩
  · rw [kp, (ht.valley hpk).2, Dev.periodAt_fixed (hb.run.primOf.trans hprim) (hb.run.pwmMode.trans hm)]
    exact hb.run.pwmPer

end

end Sys2Proof.Machine
end

section
/-! PROOFS. What a load point brings besides its own registers: LIMIT latches, refreshes, a machine's entry (R151, R319, R336). -/

namespace Sys2Proof.Machine

section
variable {d e f : Dev} {g h x c l : Nat}

/-- What a load point may change: groups, comparators, delay lines, machines, the continuation in SAFE_HOLD. -/
def loadPart (d e : Dev) : Dev := { d with grp := e.grp, cmp := e.cmp, dl := e.dl, mach := e.mach, safe := { d.safe with keep := e.safe.keep } }

theorem loadPart_part : Part loadPart := ⟨fun _ => rfl, fun _ _ _ => rfl, fun _ _ => rfl, fun _ _ _ => rfl⟩

/-- Registers that the other blocks write at a load point: comparators, gate drives, the machine's. -/
def sideRegs : List Nat := tripRegs ++ (R.SAFE_FLAG :: R.SAFE_OUT :: R.SAFE_GRANT :: (List.range 20).flatMap fun g => [R.GDT_PINS g, R.GDA_STAT])

theorem sideRegs_trip {a : Nat} (h : a ∈ tripRegs) : a ∈ sideRegs := List.mem_append_left _ h
theorem sideRegs_gd {a : Nat} (h : a ∈ gdAll) : a ∈ sideRegs := sideRegs_trip (List.mem_append_right _ h)
theorem sideRegs_cmp (hc : c < 72) {a : Nat} (h : a ∈ cmpOwn c) : a ∈ sideRegs :=
  sideRegs_trip (List.mem_append_left _ (List.mem_flatMap.2 ⟨c, List.mem_range.2 hc, h⟩))
theorem sideRegs_safe {a : Nat} (h : a = R.SAFE_FLAG ∨ a = R.SAFE_OUT ∨ a = R.SAFE_GRANT) : a ∈ sideRegs := by
  refine List.mem_append_right _ ?_
  obtain rfl | rfl | rfl := h <;> simp
theorem sideRegs_pins (hg : g < 20) {a : Nat} (h : a = R.GDT_PINS g ∨ a = R.GDA_STAT) : a ∈ sideRegs := by
  refine List.mem_append_right _ (List.mem_cons_of_mem _ (List.mem_cons_of_mem _ (List.mem_cons_of_mem _ (List.mem_flatMap.2 ⟨g, List.mem_range.2 hg, ?_⟩))))
  simpa using h

/-- Those registers lie on the pages of their blocks. -/
theorem sideRegs_place {a : Nat} (h : a ∈ sideRegs) : pageOf a ∈ [Pg.GDT, Pg.GDA, Pg.CMP 0, Pg.CMP 1, Pg.SAFE] := by
  rw [sideRegs, List.mem_append] at h
  obtain h | h := h
  · have hp := tripRegs_place h
    simp only [List.mem_cons, List.not_mem_nil, or_false] at hp ⊢
    obtain hp | hp | hp | hp := hp <;> simp [hp]
  · simp only [List.mem_cons, List.mem_flatMap, List.mem_range, List.not_mem_nil, or_false] at h
    obtain rfl | rfl | rfl | ⟨g, hg, rfl | rfl⟩ := h
    · decide
    · decide
    · decide
    · simp only [List.mem_cons, List.not_mem_nil, or_false, pageOf, R.GDT_PINS, Pg.GDT]
      exact .inl (by omega)
    · decide

/-- What a load point reads of a group's record. -/
structure GrpSt.Point (r s : GrpSt) : Prop where
  load : s.load = r.load
  capd : s.capd = r.capd
  v : s.v = r.v
  p : s.p = r.p
  vq : s.vq = r.vq

theorem GrpSt.Point.refl (r : GrpSt) : GrpSt.Point r r := ⟨rfl, rfl, rfl, rfl, rfl⟩
theorem GrpSt.Point.trans {r s t : GrpSt} (h : GrpSt.Point r s) (k : GrpSt.Point s t) : GrpSt.Point r t :=
  ⟨k.load.trans h.load, k.capd.trans h.capd, k.v.trans h.v, k.p.trans h.p, k.vq.trans h.vq⟩

theorem GrpSt.Point.of_rest {r s : GrpSt} (h : s.rest = r.rest) : GrpSt.Point r s :=
  ⟨(congrArg GrpSt.load h :), (congrArg GrpSt.capd h :), (congrArg GrpSt.v h :), (congrArg GrpSt.p h :), (congrArg GrpSt.vq h :)⟩

/-- The forced states of a leg, in effect and to come. -/
def LegSt.SameForce (q p : LegSt) : Prop := p.force = q.force ∧ p.fNext = q.fNext ∧ p.wait = q.wait

theorem LegSt.SameForce.refl (q : LegSt) : q.SameForce q := ⟨rfl, rfl, rfl⟩
theorem LegSt.SameForce.trans {q p r : LegSt} (h : q.SameForce p) (k : p.SameForce r) : q.SameForce r :=
  ⟨k.1.trans h.1, k.2.1.trans h.2.1, k.2.2.trans h.2.2⟩

/-- Load points, periods and forced states stand. -/
structure SideKept (d e : Dev) : Prop where
  frame : FrameOn loadPart sideRegs d e
  point : ∀ j, (d.grpS j).Point (e.grpS j)
  legs : ∀ j y, (d.legS j y).SameForce (e.legS j y)

theorem SideKept.refl (d : Dev) : SideKept d d := ⟨FrameOn.refl loadPart_part _ d, fun _ => .refl _, fun _ _ => .refl _⟩
theorem SideKept.trans (h : SideKept d e) (k : SideKept e f) : SideKept d f :=
  ⟨h.frame.trans loadPart_part k.frame, fun j => (h.point j).trans (k.point j), fun j y => (h.legs j y).trans (k.legs j y)⟩

theorem SideKept.of_grp (hf : FrameOn loadPart sideRegs d e) (hg : e.grp = d.grp) : SideKept d e := by
  have hs : ∀ j, e.grpS j = d.grpS j := fun j => by rw [Dev.grpS, hg]; rfl
  exact ⟨hf, fun j => by rw [hs]; exact .refl _, fun j y => by rw [legS_of_grp hg]; exact .refl _⟩

theorem SideKept.quiet (h : Quiet d e) : SideKept d e := .of_grp ((FrameOn.refl loadPart_part _ d).quiet loadPart_part h) h.grp

theorem SideKept.setReg (d : Dev) {a : Nat} (w : Word) (ha : a ∈ sideRegs) : SideKept d (d.setReg a w) :=
  .of_grp ((FrameOn.refl loadPart_part _ d).setReg loadPart_part w ha) rfl

theorem SideKept.put (d : Dev) {a : Nat} (fl : RField) (v : Nat) (ha : a ∈ sideRegs) : SideKept d (d.put a fl v) := .setReg d _ ha
theorem SideKept.putB (d : Dev) {a : Nat} (fl : RField) (b : Bool) (ha : a ∈ sideRegs) : SideKept d (d.putB a fl b) := .setReg d _ ha

theorem SideKept.setCmp (d : Dev) (c : Nat) (q : CmpSt) : SideKept d (d.setCmp c q) :=
  .of_grp ((FrameOn.refl loadPart_part _ d).part loadPart_part rfl fun _ => rfl) rfl

theorem SideKept.setMach (d : Dev) (m : Nat) (q : MachSt) : SideKept d (d.setMach m q) :=
  .of_grp ((FrameOn.refl loadPart_part _ d).part loadPart_part rfl fun _ => rfl) rfl

theorem SideKept.setGrp (d : Dev) (g : Nat) {r : GrpSt} (hp : (d.grpS g).Point r) (hl : r.legs = (d.grpS g).legs) : SideKept d (d.setGrp g r) := by
  refine ⟨(FrameOn.refl loadPart_part _ d).part loadPart_part rfl fun _ => rfl, fun j => ?_, fun j y => ?_⟩
  · rw [Dev.grpS_setGrp]
    split
    · next hj => rw [hj]; exact hp
    · exact .refl _
  · rw [Dev.legS, Dev.legS, Dev.grpS_setGrp]
    split
    · next hj => rw [hj, hl]; exact .refl _
    · exact .refl _

theorem SideKept.setEdges (d : Dev) (g : Nat) (es : List EdgeSt) : SideKept d (d.setEdges g es) := .setGrp d g ⟨rfl, rfl, rfl, rfl, rfl⟩ rfl

theorem SideKept.setLeg (d : Dev) (g x : Nat) {q : LegSt} (hq : (d.legS g x).SameForce q) : SideKept d (d.setLeg g x q) := by
  refine ⟨(FrameOn.refl loadPart_part _ d).part loadPart_part rfl fun _ => rfl, fun j => ?_, fun j y => ?_⟩
  · rw [Dev.setLeg, Dev.grpS_setGrp]
    split
    · next hj => rw [hj]; exact ⟨rfl, rfl, rfl, rfl, rfl⟩
    · exact .refl _
  · rw [Dev.legS_setLeg]
    split
    · next hj => rw [hj.1, hj.2]; exact hq
    · exact .refl _

theorem SideKept.ite {b : Prop} [Decidable b] (h1 : b → SideKept d e) (h2 : ¬b → SideKept d f) : SideKept d (if b then e else f) := by
  split
  · next hc => exact h1 hc
  · next hc => exact h2 hc

theorem SideKept.forN (n : Nat) {u : Nat → Dev → Dev} (hu : ∀ k < n, ∀ e, SideKept e (u k e)) : SideKept d (forN n u d) :=
  forN_keeps (P := fun e => SideKept d e) n (fun k hk e he => he.trans (hu k hk e)) (.refl d)

/-! ### Releases and refreshes (R309, R319) -/

theorem SideKept.of_release (hf : FrameOn grpPart gdAll d e) (h : RelKept anyLeg d e) : SideKept d e := by
  refine ⟨(hf.widen grpPart_part loadPart_part (fun _ _ => rfl) fun _ ha => ha).mono fun a ha => sideRegs_gd ha, fun j => .of_rest (h.grp j), fun j y => ?_⟩
  have hl := h.leg j y
  exact ⟨(congrArg LegSt.force hl :), (congrArg LegSt.fNext hl :), (congrArg LegSt.wait hl :)⟩

theorem SideKept.release (d : Dev) (hg : g < 20) (mask cause : Nat) : SideKept d (d.release g mask cause) :=
  .of_release (d.release_all hg (fun _ ha => ha) mask cause) (d.release_kept hg mask cause)

theorem gdLstat_side (hg : g < 20) : gdLstat g ∈ sideRegs := sideRegs_gd (mem_gdAll hg (by simp [gdRegs]))

theorem SideKept.gdEvent (d : Dev) (hg : g < 20) (src : Nat) : SideKept d (d.gdEvent g src) := by
  have hfl : ∀ a, a = gdFlag g → a ∈ sideRegs := fun a ha => sideRegs_gd (mem_gdAll hg (by rw [ha]; simp [gdRegs]))
  rw [Dev.gdEvent]
  refine SideKept.trans (.ite (fun h => .setReg d _ (hfl _ ?_)) fun h => .setReg d _ (hfl _ ?_)) (.quiet (Dev.raiseN_quiet _ _ _ _))
  · rw [gdFlag, if_pos h]
  · rw [gdFlag, if_neg h]

theorem SideKept.refreshFail (d : Dev) (hg : g < 20) (h12 : 12 ≤ g) (x : Nat) : SideKept d (d.refreshFail (g - 12) x) := by
  have hk : g - 12 + 12 = g := by omega
  rw [Dev.refreshFail, hk]
  have h1 : SideKept d (d.bump (gdLstat g) (F.rfCnt x)) := .put d _ _ (gdLstat_side hg)
  exact .ite (fun _ => (h1.trans (.release _ hg _ _)).trans (.gdEvent _ hg _)) fun _ => h1

theorem SideKept.refreshLeg (d : Dev) (hg : g < 20) (h12 : 12 ≤ g) (x : Nat) : SideKept d (d.refreshLeg g x) := by
  have h1 : SideKept d (d.setLeg g x { d.legS g x with rfPlan := false }) := .setLeg d g x ⟨rfl, rfl, rfl⟩
  have hs : ∀ (u : Dev) (t : Option Nat), SideKept u (u.setLeg g x { u.legS g x with rfSample := t }) := fun u t => .setLeg u g x ⟨rfl, rfl, rfl⟩
  have he : ∀ (u : Dev) (es : List EdgeSt) (t : Option Nat), SideKept u ((u.setEdges g es).setLeg g x { u.legS g x with rfSample := t }) := fun u es t =>
    (SideKept.setEdges u g es).trans (.setLeg _ g x (by rw [Dev.legS_setEdges]; exact ⟨rfl, rfl, rfl⟩))
  rw [Dev.refreshLeg]
  refine .ite (fun _ => h1) fun _ => .ite (fun _ => h1.trans (hs _ _)) fun _ => .ite (fun _ => .ite (fun _ => h1.trans (.refreshFail _ hg h12 x)) fun _ => h1) fun _ =>
    h1.trans (he _ _ _)

theorem SideKept.refreshAll (d : Dev) (hg : g < 20) : SideKept d (d.refreshAll g) := by
  rw [Dev.refreshAll]
  exact .ite (fun _ => .refl d) fun h => .forN 3 fun x _ e => .refreshLeg e hg (by omega) x

/-! ### LIMIT latches (R151, R154) -/

theorem SideKept.cutStep (d : Dev) (g x : Nat) (cH cL : Bool) : SideKept d (d.cutStep g x cH cL) := by
  rw [Dev.cutStep]
  exact .ite (fun _ => .refl d) fun _ => .setEdges d g _

theorem SideKept.limitLeg (d : Dev) (g x : Nat) (offH offL : Bool) : SideKept d (d.limitLeg g x offH offL) := by
  have h1 : SideKept d (d.setLeg g x { d.legS g x with limH := (d.legS g x).limH || offH, limL := (d.legS g x).limL || offL }) := .setLeg d g x ⟨rfl, rfl, rfl⟩
  rw [Dev.limitLeg]
  exact h1.trans (.cutStep _ g x _ _)

theorem SideKept.limitForce (d : Dev) (c : Nat) (upper lower : Bool) : SideKept d (d.limitForce c upper lower) := by
  rw [Dev.limitForce]
  split
  · exact .refl d
  · exact .forN 3 fun x _ e => .ite (fun _ => .limitLeg e _ _ _ _) fun _ => .refl e

theorem SideKept.limitEvent (d : Dev) (hc : c < 72) : SideKept d (d.limitEvent c) :=
  .of_grp ((Dev.limitEvent_frame (l := sideRegs) (fun _ ha => sideRegs_cmp hc ha) d).widen cmpPart_part loadPart_part (fun _ _ => rfl) fun _ ha => ha)
    (d.limitEvent_grp c)

theorem SideKept.limitPeriod (d : Dev) (g : Nat) : SideKept d (d.limitPeriod g) := by
  have h1 : SideKept d (Machine.forN 3 (fun x e => e.setLeg g x { e.legS g x with limH := false, limL := false }) d) :=
    .forN 3 fun x _ e => .setLeg e g x ⟨rfl, rfl, rfl⟩
  rw [Dev.limitPeriod]
  generalize Machine.forN 3 (fun x e => e.setLeg g x { e.legS g x with limH := false, limL := false }) d = u at h1
  refine h1.trans (.forN _ fun c hc e => .ite (fun _ => ?_) fun _ => .refl e)
  have h72 := hc.trans_le (nCmp_le _)
  have hst : R.CMP_STAT c ∈ sideRegs := sideRegs_cmp h72 (by simp [cmpOwn])
  have h2 : SideKept e ((e.setCmp c { e.cmpS c with limited := false }).putB (R.CMP_STAT c) F.CMP_STAT_LATCHED false) :=
    (SideKept.setCmp e c _).trans (.putB _ _ _ hst)
  exact .ite (fun _ => ((h2.trans (.putB _ _ _ hst)).trans (.limitForce _ c _ _)).trans (.limitEvent _ h72)) fun _ => h2

/-! ### A machine's entry into its target state (R336) -/

theorem SideKept.setGenM (d : Dev) (hg : g < 20) (b : Bool) : SideKept d (d.setGenM g b) := by
  rw [Dev.setGenM]
  refine .ite (fun _ => .refl d) fun _ => .ite (fun _ => .setReg d _ (sideRegs_pins hg (.inr rfl))) fun _ => ?_
  have h1 : SideKept d (d.putB (R.GDT_PINS g) F.GDT_PINS_GENM_PIN b) := .putB d _ _ (sideRegs_pins hg (.inl rfl))
  refine .ite (fun _ => h1) fun _ => ?_
  obtain ⟨k, h | h⟩ := (d.putB (R.GDT_PINS g) F.GDT_PINS_GENM_PIN b).beginCheck_eq g
  · rw [h]
    exact h1
  · rw [h]
    exact h1.trans (.setGrp _ g ⟨rfl, rfl, rfl, rfl, rfl⟩ rfl)

theorem SideKept.keep (d : Dev) (k : Nat) : SideKept d { d with safe := { d.safe with keep := k } } :=
  .of_grp ((FrameOn.refl loadPart_part _ d).part loadPart_part rfl fun _ => rfl) rfl

theorem SideKept.keepEnds (d : Dev) (hg : g < 20) : SideKept d (d.keepEnds g) := by
  rw [Dev.keepEnds]
  refine .ite (fun _ => ?_) fun _ => .refl d
  have h1 := (SideKept.keep d (d.safe.keep - 2 ^ g)).trans (.setReg _ (setBit (d.reg R.SAFE_GRANT) g false) (sideRegs_safe (.inr (.inr rfl))))
  refine foldl_keeps (P := SideKept d) (fun j hj u hu => hu.trans (.setGenM u ?_ false)) h1
  rw [List.mem_cons, Option.mem_toList] at hj
  obtain rfl | hs := hj
  · exact hg
  · have := secOf_lt hs
    omega

theorem SideKept.machGo (d : Dev) (hg : g < 20) (new cause : Nat) : SideKept d (d.machGo g new cause) := by
  rw [Dev.machGo_eq]
  have h1 := ((SideKept.setMach d g (d.goneTo g new cause)).trans (.quiet (Dev.emitProt_quiet _ (d.goRec g new cause)))).trans (.keepEnds _ hg)
  exact (h1.trans (.setReg _ _ (sideRegs_safe (.inl rfl)))).trans (.quiet (Dev.raiseN_quiet _ _ _ _))

theorem SideKept.machLoad (d : Dev) (hg : g < 20) : SideKept d (d.machLoad g) := by
  rw [Dev.machLoad]
  refine .ite (fun _ => ?_) fun _ => .refl d
  split
  · exact ((SideKept.machGo d hg _ _).trans (.setMach _ g _)).trans (.putB _ _ _ (sideRegs_safe (.inr (.inl rfl))))
  · exact .refl d

end

end Sys2Proof.Machine
end

section
/-! PROOFS. The generator's part of a load point (R270, R280, R282, R288, R292). -/

namespace Sys2Proof.Machine

section
variable {d e f : Dev} {g x l : Nat} {peak : Bool}

/-- Registers that a load point writes for its group. -/
def pointRegs (g : Nat) : List Nat :=
  [R.PWT_ACT g 0, R.PWT_ACT g 1, R.PWT_ACT g 2, R.PWT_PERIOD g, R.PWT_VALLEY g, R.PWT_STAT g, R.PWG_DITH] ++ carryRegs g

theorem pointRegs_place (hg : g < 20) {a : Nat} (ha : a ∈ pointRegs g) : pageOf a ∈ [Pg.PWT g, Pg.PWG] := by
  by_cases hd : a = R.PWG_DITH
  · rw [hd]
    exact List.mem_cons_of_mem _ (List.mem_singleton.2 (by decide))
  · have hp : pageOf a = Pg.PWT g := by
      simp only [pointRegs, carryRegs, List.cons_append, List.nil_append, List.mem_cons, List.not_mem_nil, or_false, hd, false_or] at ha
      obtain rfl | rfl | rfl | rfl | rfl | rfl | rfl | rfl | rfl := ha <;>
        simp only [pageOf, R.PWT_ACT, R.PWT_PERIOD, R.PWT_VALLEY, R.PWT_STAT, R.PWT_CARRY, Pg.PWT] <;> omega
    rw [hp]
    exact List.mem_cons_self

theorem pointRegs_off {a : Nat} (ha : a ∈ pointRegs g) : a % 0x1000 ∈ [0x54, 0x90, 0x94, 0x98, 0xB0, 0xB4, 0xB8, 0xC8, 0xCC] ∨ a = R.PWT_STAT g := by
  simp only [pointRegs, carryRegs, List.cons_append, List.nil_append, List.mem_cons, List.not_mem_nil, or_false] at ha ⊢
  by_cases hd : a = R.PWG_DITH
  · rw [hd]
    exact .inl (.inl (by decide))
  by_cases hs : a = R.PWT_STAT g
  · exact .inr hs
  · simp only [hd, hs, false_or] at ha
    refine .inl ?_
    obtain rfl | rfl | rfl | rfl | rfl | rfl | rfl | rfl := ha <;> simp only [R.PWT_ACT, R.PWT_PERIOD, R.PWT_VALLEY, R.PWT_CARRY] <;> omega

/-- Registers that forced states and dithering write. -/
def statRegs (g : Nat) : List Nat := [R.PWT_STAT g, R.PWG_DITH] ++ carryRegs g

theorem statRegs_point {a : Nat} (ha : a ∈ statRegs g) : a ∈ pointRegs g := by
  simp only [statRegs, pointRegs, List.cons_append, List.nil_append, List.mem_cons] at ha ⊢
  obtain rfl | rfl | ha := ha
  · simp
  · simp
  · simp [ha]

theorem statRegs_off {a : Nat} (ha : a = R.PWT_PERIOD g ∨ a = R.PWT_VALLEY g) : eventReg a = false ∧ a ∉ statRegs g := by
  rw [eventReg_eq_false]
  simp only [statRegs, carryRegs, List.cons_append, List.nil_append, List.mem_cons, List.not_mem_nil, or_false]
  obtain rfl | rfl := ha <;> simp only [R.PWT_PERIOD, R.PWT_VALLEY, R.PWT_STAT, R.PWG_DITH, R.PWT_CARRY] <;> omega

/-! ### What the registers show -/

theorem Dev.showAct_frame (d : Dev) (g : Nat) : FrameOn noPart (pointRegs g) d (d.showAct g) := by
  rw [Dev.showAct]
  split
  · exact FrameOn.refl noPart_part _ d
  · refine FrameOn.forN noPart_part 3 (fun x hx e => (FrameOn.refl noPart_part _ e).setReg noPart_part _ ?_) d
    interval_cases x <;> simp [pointRegs]

/-- PWT_ACT, and at a valley the period and the valley's tick. -/
def Dev.pointShown (d : Dev) (g : Nat) (peak : Bool) : Dev :=
  if peak then d.showAct g
  else ((d.showAct g).put (R.PWT_PERIOD g) F.PWT_PERIOD_P (d.grpS g).p).setReg (R.PWT_VALLEY g) (BitVec.ofNat 32 (d.grpS g).v)

theorem Dev.pointShown_frame (d : Dev) (g : Nat) (peak : Bool) : FrameOn noPart (pointRegs g) d (d.pointShown g peak) :=
  FrameOn.ite (fun _ => d.showAct_frame g) fun _ => ((d.showAct_frame g).put noPart_part _ _ (by simp [pointRegs])).setReg noPart_part _ (by simp [pointRegs])

/-- The period and the valley of a group, as its registers show them. -/
def PeriodShown (d e : Dev) (g : Nat) : Prop :=
  e.get (R.PWT_PERIOD g) F.PWT_PERIOD_P = (d.grpS g).p ∧ e.reg (R.PWT_VALLEY g) = BitVec.ofNat 32 (d.grpS g).v

theorem PeriodShown.of (h : PeriodShown d e g) (h1 : f.reg (R.PWT_PERIOD g) = e.reg (R.PWT_PERIOD g)) (h2 : f.reg (R.PWT_VALLEY g) = e.reg (R.PWT_VALLEY g)) :
    PeriodShown d f g := ⟨(Dev.get_of_reg h1 _).trans h.1, h2.trans h.2⟩

theorem Dev.pointShown_period (d : Dev) (hp : (d.grpS g).p < 2 ^ 20) : PeriodShown d (d.pointShown g false) g := by
  rw [Dev.pointShown, if_neg (by decide)]
  refine ⟨?_, Dev.reg_setReg_self _ _ _⟩
  rw [Dev.get_of_reg (Dev.reg_setReg_ne _ _ (by simp only [R.PWT_PERIOD, R.PWT_VALLEY]; omega)), Dev.get_put_self _ _ _ _ (by decide)]
  exact Nat.mod_eq_of_lt hp

/-! ### Forced states at a load point (R292) -/

/-- One leg at a load point. -/
def Dev.pointLeg (d : Dev) (g x : Nat) : Dev :=
  if (d.legS g x).fNext = (d.legS g x).force then d.setLeg g x { d.legS g x with wait := false }
  else (d.setLeg g x { d.legS g x with wait := false }).applyForce g x (d.legS g x).fNext (64 * (d.gtc : Int))

/-- A leg's forced state is the one that was to come. -/
structure LegPointed (g x : Nat) (d e : Dev) : Prop where
  frame : FrameOn grpPart (statRegs g) d e
  one : OneLeg g x d e
  rest : (e.grpS g).rest = (d.grpS g).rest
  force : (e.legS g x).force = (d.legS g x).fNext
  wait : (e.legS g x).wait = false

theorem Dev.pointLeg_spec (d : Dev) (g : Nat) (hx : x < 3) : LegPointed g x d (d.pointLeg g x) := by
  have hf : FrameOn grpPart (statRegs g) d (d.setLeg g x { d.legS g x with wait := false }) := (FrameOn.refl grpPart_part _ d).setLeg g x _
  have ho := OneLeg.setLeg d g x { d.legS g x with wait := false }
  have hr : ((d.setLeg g x { d.legS g x with wait := false }).grpS g).rest = (d.grpS g).rest := by
    rw [Dev.setLeg, Dev.grpS_setGrp_self]
    rfl
  have hl := d.legS_setLeg_self g x { d.legS g x with wait := false }
  rw [Dev.pointLeg]
  generalize d.setLeg g x { d.legS g x with wait := false } = u at hf ho hr hl
  by_cases hc : (d.legS g x).fNext = (d.legS g x).force
  · rw [if_pos hc]
    exact ⟨hf, ho, hr, by rw [hl]; exact hc.symm, by rw [hl]⟩
  · rw [if_neg hc]
    have k := u.applyForce_spec g hx (d.legS g x).fNext (64 * (d.gtc : Int))
    generalize u.applyForce g x (d.legS g x).fNext (64 * (d.gtc : Int)) = v at k
    refine ⟨hf.trans grpPart_part (k.frame.mono fun a ha => ?_), ho.trans k.one, k.rest.trans hr, by rw [k.leg]; rfl, by rw [k.leg, hl]; rfl⟩
    simp only [List.mem_cons, List.not_mem_nil, or_false] at ha
    obtain rfl | rfl := ha
    · exact List.mem_append_right _ (mem_carryRegs hx)
    · simp [statRegs]

/-- Every leg at a load point. -/
def Dev.pointLegs (d : Dev) (g : Nat) : Dev := forN 3 (fun x e => e.pointLeg g x) d

theorem Dev.pointLegs_spec (d : Dev) (g : Nat) : (FrameOn grpPart (statRegs g) d (d.pointLegs g) ∧ ((d.pointLegs g).grpS g).rest = (d.grpS g).rest) ∧
    ∀ x < 3, ((d.pointLegs g).legS g x).force = (d.legS g x).fNext ∧ ((d.pointLegs g).legS g x).wait = false := by
  refine forN_stages (I := fun e => FrameOn grpPart (statRegs g) d e ∧ (e.grpS g).rest = (d.grpS g).rest) (B := fun x e => e.legS g x = d.legS g x)
    (A := fun x e => (e.legS g x).force = (d.legS g x).fNext ∧ (e.legS g x).wait = false) 3 (fun x hx e hI hB => ?_) (fun x hx y _ hlt e _ hB => ?_)
    (fun x hx y hlt e _ hA => ?_) ⟨FrameOn.refl grpPart_part _ d, rfl⟩ fun _ _ => rfl
  · have k := e.pointLeg_spec g hx
    exact ⟨⟨hI.1.trans grpPart_part k.frame, k.rest.trans hI.2⟩, by rw [k.force, hB], k.wait⟩
  · rw [(e.pointLeg_spec g hx).one.legs y hlt.ne']
    exact hB
  · rw [(e.pointLeg_spec g hx).one.legs y hlt.ne]
    exact hA

/-! ### Dithering and delay lines (R288, R289) -/

/-- A failed line takes effect, lines are exchanged: what a load point reads stands. -/
structure LinesKept (g : Nat) (d e : Dev) : Prop where
  frame : FrameOn edgePart (statRegs g) d e
  point : (d.grpS g).Point (e.grpS g)
  legs : (e.grpS g).legs = (d.grpS g).legs

theorem Dev.showDither_kept (d : Dev) (g : Nat) : LinesKept g d (d.showDither g) := by
  have hd : ∀ u : Dev, FrameOn edgePart (statRegs g) d u → FrameOn edgePart (statRegs g) d (u.putDither g true) := fun u hu =>
    (hu.putB edgePart_part _ _ (by simp [statRegs])).setReg edgePart_part _ (by simp [statRegs])
  have hset : ∀ r : GrpSt, (d.grpS g).Point r → r.legs = (d.grpS g).legs → LinesKept g d (((d.setGrp g r).putDither g true).raiseN (Pg.PWT g) Ev.PWM_DITHER g) :=
    fun r hr hl => by
    have hq := ((d.setGrp g r).putDither g true).raiseN_quiet (Pg.PWT g) Ev.PWM_DITHER g
    have hs : (((d.setGrp g r).putDither g true).raiseN (Pg.PWT g) Ev.PWM_DITHER g).grpS g = r := by
      rw [hq.grpS, Dev.putDither, Dev.grpS_setReg, Dev.putB, Dev.grpS_put, Dev.grpS_setGrp_self]
    have hf : FrameOn edgePart (statRegs g) d (d.setGrp g r) := (FrameOn.refl edgePart_part _ d).part edgePart_part rfl fun _ => rfl
    exact ⟨(hd _ hf).quiet edgePart_part hq, by rw [hs]; exact hr, by rw [hs]; exact hl⟩
  rw [Dev.showDither]
  dsimp only
  split
  · exact ⟨FrameOn.refl edgePart_part _ d, .refl _, rfl⟩
  · exact hset _ ⟨rfl, rfl, rfl, rfl, rfl⟩ rfl

theorem Dev.dlExchangeAll_kept (d : Dev) (g : Nat) : FrameOn edgePart (statRegs g) d (d.dlExchangeAll g) ∧ (d.dlExchangeAll g).grp = d.grp := by
  have h1 : ∀ (e : Dev) (x s : Nat), FrameOn edgePart (statRegs g) e (e.dlExchange g x s) ∧ (e.dlExchange g x s).grp = e.grp := fun e x s => by
    rw [Dev.dlExchange]
    exact ite_both (P := fun u => FrameOn edgePart (statRegs g) e u ∧ u.grp = e.grp)
      (fun _ => ⟨(FrameOn.refl edgePart_part _ e).part edgePart_part rfl fun _ => rfl, rfl⟩) fun _ => ⟨FrameOn.refl edgePart_part _ e, rfl⟩
  rw [Dev.dlExchangeAll]
  refine ite_both (P := fun u => FrameOn edgePart (statRegs g) d u ∧ u.grp = d.grp) (fun _ => ⟨FrameOn.refl edgePart_part _ d, rfl⟩) fun _ => ?_
  exact forN_keeps (P := fun u => FrameOn edgePart (statRegs g) d u ∧ u.grp = d.grp) 6 (fun i _ e he =>
    ⟨he.1.trans edgePart_part (h1 e _ _).1, (h1 e _ _).2.trans he.2⟩) ⟨FrameOn.refl edgePart_part _ d, rfl⟩

/-! ### The load point -/

theorem Dev.loadPoint_eq (d : Dev) (g : Nat) (peak : Bool) : d.loadPoint g peak =
    ((((d.pointShown g peak).pointLegs g).showDither g).dlExchangeAll g).setGrp g
      { ((((d.pointShown g peak).pointLegs g).showDither g).dlExchangeAll g).grpS g with
        load := ((((d.pointShown g peak).pointLegs g).showDither g).dlExchangeAll g).nextLoad g peak, capd := false } := rfl

/-- A register that a load point reads stands. -/
theorem nextLoad_of (h : (d.grpS g).Point (e.grpS g)) (hc : e.reg (R.PWT_CTRL (d.cfgG g)) = d.reg (R.PWT_CTRL (d.cfgG g))) (hp : e.reg R.PWG_PAIR = d.reg R.PWG_PAIR)
    (peak : Bool) : e.nextLoad g peak = d.nextLoad g peak := by
  have hprim : e.primOf g = d.primOf g := by rw [Dev.primOf, Dev.primOf, hp]
  have hcfg : e.cfgG g = d.cfgG g := by rw [Dev.cfgG, Dev.cfgG, hprim]
  have hdbl : e.pwmDbl g = d.pwmDbl g := by rw [Dev.pwmDbl, Dev.pwmDbl, Dev.pwmMode, Dev.pwmMode, hcfg, Dev.flag_of_reg hc, Dev.get_of_reg hc]
  cases hm : d.primOf g <;> rw [Dev.nextLoad, Dev.nextLoad, hdbl, hprim, hm, h.v, h.p, h.vq]

/-- What a load point leaves. -/
structure Pointed (g : Nat) (peak : Bool) (d e : Dev) : Prop where
  frame : FrameOn edgePart (pointRegs g) d e
  capd : (e.grpS g).capd = false
  load : (e.grpS g).load = d.nextLoad g peak
  shown : peak = false → (d.grpS g).p < 2 ^ 20 → PeriodShown d e g
  legs : ∀ x, x < 3 → (e.legS g x).force = (d.legS g x).fNext ∧ (e.legS g x).wait = false

theorem Dev.loadPoint_spec (d : Dev) (g : Nat) (peak : Bool) : Pointed g peak d (d.loadPoint g peak) := by
  rw [Dev.loadPoint_eq]
  have hshow := d.pointShown_frame g peak
  have hper : peak = false → (d.grpS g).p < 2 ^ 20 → PeriodShown d (d.pointShown g peak) g := fun hp hlt => by
    rw [hp]
    exact d.pointShown_period hlt
  generalize d.pointShown g peak = u at hshow hper
  have hgu : u.grp = d.grp := (congrArg Dev.grp hshow.1 :)
  obtain ⟨⟨hlf, hrest⟩, hlegs⟩ := u.pointLegs_spec g
  generalize u.pointLegs g = v at hlf hrest hlegs
  have k := v.showDither_kept g
  generalize v.showDither g = w at k
  obtain ⟨hxf, hxg⟩ := w.dlExchangeAll_kept g
  generalize w.dlExchangeAll g = y at hxf hxg
  have hall : FrameOn edgePart (statRegs g) u y := ((hlf.widen grpPart_part edgePart_part (fun _ _ => rfl) fun _ ha => ha).trans edgePart_part k.frame).trans
    edgePart_part hxf
  have hdy : FrameOn edgePart (pointRegs g) d y := (hshow.widen noPart_part edgePart_part (fun _ _ => rfl) fun _ ha => ha).trans edgePart_part
    (hall.mono fun _ ha => statRegs_point ha)
  have hgu' : ∀ j, u.grpS j = d.grpS j := fun j => by rw [Dev.grpS, hgu]; rfl
  have hgy : ∀ j, y.grpS j = w.grpS j := fun j => by rw [Dev.grpS, hxg]; rfl
  have hpt : (d.grpS g).Point (y.grpS g) := by
    rw [hgy, ← hgu']
    exact (GrpSt.Point.of_rest hrest).trans k.point
  have hly : ∀ x, y.legS g x = v.legS g x := fun x => by rw [Dev.legS, hgy, k.legs]; rfl
  have hkeep : ∀ a, eventReg a = false → a % 0x1000 ∉ [0x54, 0x90, 0x94, 0x98, 0xB0, 0xB4, 0xB8, 0xC8, 0xCC] → a ≠ R.PWT_STAT g → y.reg a = d.reg a :=
    fun a he h1 h2 => hdy.reg edgePart_part he fun ha => (pointRegs_off ha).elim h1 h2
  have hload : y.nextLoad g peak = d.nextLoad g peak := by
    refine nextLoad_of hpt (hkeep _ ?_ ?_ ?_) (hkeep _ (by decide) (by decide) (by simp only [R.PWG_PAIR, R.PWT_STAT]; omega)) peak
    · rw [eventReg_eq_false]
      simp only [R.PWT_CTRL]
      omega
    · simp only [R.PWT_CTRL, List.mem_cons, List.not_mem_nil, or_false]
      omega
    · simp only [R.PWT_CTRL, R.PWT_STAT]
      omega
  have hs := y.grpS_setGrp_self g { y.grpS g with load := y.nextLoad g peak, capd := false }
  refine ⟨hdy.part edgePart_part rfl fun _ => rfl, by rw [hs], by rw [hs]; exact hload, fun hp hlt => ?_, fun x hx => ?_⟩
  · have hr : ∀ a, a = R.PWT_PERIOD g ∨ a = R.PWT_VALLEY g → y.reg a = u.reg a := fun a ha =>
      hall.reg edgePart_part (statRegs_off ha).1 (statRegs_off ha).2
    exact (hper hp hlt).of ((Dev.reg_setGrp _ _ _ _).trans (hr _ (.inl rfl))) ((Dev.reg_setGrp _ _ _ _).trans (hr _ (.inr rfl)))
  · rw [Dev.legS, hs]
    obtain ⟨h1, h2⟩ := hlegs x hx
    have hd : u.legS g x = d.legS g x := legS_of_grp hgu g x
    rw [hd] at h1
    exact ⟨(congrArg LegSt.force (hly x)).trans h1, (congrArg LegSt.wait (hly x)).trans h2⟩

end

end Sys2Proof.Machine
end

section
/-! PROOFS. The obligation about PWM groups (R270, R273, R274, R278, R280, R281, R292, R296, R301). -/

namespace Sys2Proof.Machine

section
variable {d e f : Dev} {g x : Nat} {pk : Bool}

/-! ### LOAD_POINT -/

/-- Registers of a load point and of what it brings. -/
def loadRegs (g : Nat) : List Nat := pointRegs g ++ sideRegs

/-- A load point with all it brings. -/
structure Loaded (g : Nat) (pk : Bool) (d e : Dev) : Prop where
  frame : FrameOn loadPart (loadRegs g) d e
  capd : (e.grpS g).capd = false
  load : (e.grpS g).load = d.nextLoad g pk
  shown : pk = false → (d.grpS g).p < 2 ^ 20 → PeriodShown d e g
  legs : ∀ x, x < 3 → (e.legS g x).force = (d.legS g x).fNext ∧ (e.legS g x).wait = false

/-- A register of the group that no side brings changes of. -/
theorem sideRegs_off {a : Nat} (h : pageOf a ∉ [Pg.GDT, Pg.GDA, Pg.CMP 0, Pg.CMP 1, Pg.SAFE]) : a ∉ sideRegs := fun ha => h (sideRegs_place ha)

theorem SideKept.reg (h : SideKept d e) {a : Nat} (he : eventReg a = false) (hp : pageOf a ∉ [Pg.GDT, Pg.GDA, Pg.CMP 0, Pg.CMP 1, Pg.SAFE]) :
    e.reg a = d.reg a := h.frame.reg loadPart_part he (sideRegs_off hp)

theorem offSide (hg : g < 20) {a : Nat} (h : pageOf a = Pg.PWT g ∨ pageOf a = Pg.PWG) : pageOf a ∉ [Pg.GDT, Pg.GDA, Pg.CMP 0, Pg.CMP 1, Pg.SAFE] := by
  simp only [Pg.PWT, Pg.PWG] at h
  simp only [List.mem_cons, List.not_mem_nil, or_false, Pg.GDT, Pg.GDA, Pg.CMP, Pg.SAFE]
  omega

theorem cfgG_lt (hg : g < 20) : d.cfgG g < 20 := by
  rw [Dev.cfgG, Dev.primOf]
  split
  · simp only [Option.getD_some]
    omega
  · exact hg

theorem SideKept.nextLoad (h : SideKept d e) (hg : g < 20) (pk : Bool) : e.nextLoad g pk = d.nextLoad g pk := by
  refine nextLoad_of (h.point g) (h.reg ?_ (offSide (g := d.cfgG g) (cfgG_lt hg) (.inl ?_))) (h.reg (by decide) (by decide)) pk
  · rw [eventReg_eq_false]
    simp only [R.PWT_CTRL]
    omega
  · have := cfgG_lt (d := d) hg
    simp only [R.PWT_CTRL, pageOf, Pg.PWT]
    omega

/-- What a step before the load point leaves to it. -/
theorem Loaded.after (hk : SideKept d e) (hg : g < 20) (h : Pointed g pk e f) : Loaded g pk d f := by
  obtain ⟨-, -, hv, hp, -⟩ := hk.point g
  refine ⟨(hk.frame.mono fun a ha => List.mem_append_right _ ha).trans loadPart_part ((h.frame.widen edgePart_part loadPart_part (fun _ _ => rfl) fun _ ha => ha).mono
    fun a ha => List.mem_append_left _ ha), h.capd, h.load.trans (hk.nextLoad hg pk), fun h1 h2 => ?_, fun x hx => ?_⟩
  · have k := h.shown h1 (by rw [hp]; exact h2)
    rw [PeriodShown, hv, hp] at k
    exact k
  · obtain ⟨h1, h2⟩ := h.legs x hx
    exact ⟨h1.trans (hk.legs g x).2.1, h2⟩

/-- What a step after the load point leaves of it. -/
theorem Loaded.then (h : Loaded g pk d e) (hg : g < 20) (hk : SideKept e f) : Loaded g pk d f := by
  have hreg : ∀ a, a = R.PWT_PERIOD g ∨ a = R.PWT_VALLEY g → f.reg a = e.reg a := fun a ha => by
    refine hk.reg (statRegs_off ha).1 (offSide hg (.inl ?_))
    obtain rfl | rfl := ha <;> simp only [R.PWT_PERIOD, R.PWT_VALLEY, pageOf, Pg.PWT] <;> omega
  refine ⟨h.frame.trans loadPart_part (hk.frame.mono fun a ha => List.mem_append_right _ ha), (hk.point g).capd.trans h.capd, (hk.point g).load.trans h.load,
    fun h1 h2 => (h.shown h1 h2).of (hreg _ (.inl rfl)) (hreg _ (.inr rfl)), fun x hx => ?_⟩
  obtain ⟨h1, h2⟩ := h.legs x hx
  obtain ⟨k1, -, k3⟩ := hk.legs g x
  exact ⟨k1.trans h1, k3.trans h2⟩

/-- A load point of a group whose machine may enter its target state. -/
def Dev.entersTarget (d : Dev) (g : Nat) : Dev := if d.mDefined g then d.machLoad g else d

theorem Dev.loadPointCmd_peak (h : d.loadDue g = some true) : d.loadPointCmd g = d.loadPoint g true := by rw [Dev.loadPointCmd, h]; rfl
theorem Dev.loadPointCmd_valley (h : d.loadDue g = some false) : d.loadPointCmd g = ((d.limitPeriod g).loadPoint g false).refreshAll g := by
  rw [Dev.loadPointCmd, h]; rfl

theorem Dev.loadPointCmd_spec (hg : g < 20) (h : d.loadDue g = some pk) : Loaded g pk d (d.loadPointCmd g) := by
  cases pk with
  | true =>
    rw [Dev.loadPointCmd_peak h]
    exact .after (.refl d) hg (d.loadPoint_spec g true)
  | false =>
    rw [Dev.loadPointCmd_valley h]
    exact (Loaded.after (.limitPeriod d g) hg ((d.limitPeriod g).loadPoint_spec g false)).then hg (.refreshAll _ hg)

theorem Dev.loadPointMach_spec (hg : g < 20) (h : d.loadDue g = some pk) : Loaded g pk d (d.loadPointMach g) := by
  have heq : d.loadPointMach g = (d.loadPointCmd g).entersTarget g := rfl
  rw [heq]
  refine (Dev.loadPointCmd_spec hg h).then hg ?_
  rw [Dev.entersTarget]
  exact .ite (fun _ => .machLoad _ hg) fun _ => .refl _

theorem loadRegs_place (hg : g < 20) {a : Nat} (ha : a ∈ loadRegs g) : pageOf a ∈ [Pg.PWT g, Pg.PWG, Pg.GDT, Pg.GDA, Pg.CMP 0, Pg.CMP 1, Pg.SAFE] := by
  rw [loadRegs, List.mem_append] at ha
  obtain ha | ha := ha
  · have h := pointRegs_place hg ha
    simp only [List.mem_cons, List.not_mem_nil, or_false] at h ⊢
    obtain h | h := h <;> simp [h]
  · have h := sideRegs_place ha
    simp only [List.mem_cons, List.not_mem_nil, or_false] at h ⊢
    obtain h | h | h | h | h := h <;> simp [h]

theorem capRegs_place (hg : g < 20) {a : Nat} (ha : a ∈ capRegs g) : pageOf a ∈ [g, g + 1].map Pg.PWT := by
  simp only [capRegs, carryRegs, List.cons_append, List.nil_append, List.mem_cons, List.not_mem_nil, or_false, List.map_cons, List.map_nil] at ha ⊢
  obtain rfl | rfl | rfl | rfl | rfl | rfl := ha <;> simp only [pageOf, R.PWT_STAT, R.PWT_CNT, R.PWT_CARRY, Pg.PWT] <;> omega

/-- A frame by registers is a frame by the pages they lie on. -/
theorem FrameOn.pages {p : Dev → Dev → Dev} (hp : Part p) {l pages : List Nat} (h : FrameOn p l d e) (hl : ∀ a ∈ l, pageOf a ∈ pages) : FrameP (p d e) e pages :=
  ⟨h.1, fun a ha hn => (h.reg hp ha fun hm => hn (hl a hm)).trans (hp.reg d e a).symm⟩

/-! ### RUN at the first valley (R273) -/

theorem Dev.pwmStart_due {l : Nat} (hl : (d.grpS g).load = some (l, false)) (hen : d.pwmEn g = true) (ht : l ≤ d.gtc) :
    d.pwmStart g = d.putB (R.PWT_STAT g) F.PWT_STAT_RUN true := by
  rw [Dev.pwmStart, hl]
  exact if_pos (by rw [hen, decide_eq_true ht]; rfl)

/-- An accepted enable as it stands for a device with the same registers, and after events. -/
theorem Enabled.of_same {u v : Dev} (k : Enabled g u v) (hs : SameRegs d u) (hq : Quiet v e) : Enabled g d e := by
  obtain ⟨hfr, ⟨k1, k2, k3, k4, k5, k6⟩, hon, ⟨hok, hcause⟩, hval⟩ := k
  have hgrp : u.grp = d.grp := by rw [hs.1]
  have hgtc : u.gtc = d.gtc := by rw [hs.1]
  have hg : ∀ j, u.grpS j = d.grpS j := fun j => by rw [Dev.grpS, hgrp]; rfl
  have hload : u.firstLoad g = d.firstLoad g := Dev.firstLoad_of hgrp hgtc fun a _ _ => hs.2 a
  refine ⟨((FrameOn.refl grpPart_part _ d).quiet grpPart_part hs.quiet).trans grpPart_part (hfr.quiet grpPart_part hq), ?_, (hq.flag (eventReg_pgCtrl _) _).trans hon,
    ⟨(hq.flag (eventReg_pwtStat g) _).trans hok, (hq.get (eventReg_pwtStat g) _).trans hcause⟩, (hq.flag (eventReg_pwtStat g) _).trans hval⟩
  have hself := hq.grpS g
  exact ⟨fun j hj => ((hq.grpS j).trans (k1 j hj)).trans (hg j), by rw [hself, k2, hgtc], by rw [hself, k3], by rw [hself, k4], by rw [hself, k5],
    by rw [hself, k6, hload]⟩

theorem Entered280.quiet {v : List (Int × Int)} (k : Entered280 g v d e) (hq : Quiet e f) : Entered280 g v d f :=
  ⟨k.frame.quiet grpPart_part hq, fun j hj => (hq.grpS j).trans (k.others j hj), (hq.grpS g).trans k.self, (hq.flag (eventReg_pwtStat g) _).trans k.valid,
    fun y hy hd => (hq.flag (eventReg_pwtStat g) _).trans (k.clamp y hy hd)⟩

end

/-- Settles O32: a group's enable and disable by the write of EN, the stages of a capture and of a load point. -/
theorem pwmGroups : Obligations.PwmGroups := by
  refine ⟨fun s mid g hlive hg hp => ⟨fun has hown => ⟨fun hen => ⟨fun hc => ?_, fun hc => ?_⟩, fun hen => ?_⟩, fun l hl hen hfr hlt => ?_,
    fun ht hsrc hen => ?_⟩, fun s g hlive hg => ⟨fun l pk hns hdue => ?_, fun pk hdue hfr => ?_⟩⟩
  · obtain ⟨u, hu, hq⟩ := Dev.enWrite_quiet hlive.2 hg hp has hown true hen
    have hm : groupPresent u.member g = true := by rw [hu.member]; exact hp
    obtain ⟨h1, h2, h3, h4⟩ := u.groupEnable_refused hm (by rw [hu.enableCause]; exact hc)
    rw [hu.enableCause] at h3
    have hfr := (((FrameOn.refl noPart_part _ s.dev).quiet noPart_part hu.quiet).trans noPart_part h1).quiet noPart_part hq
    exact ⟨_, onDev_eq hlive.1 rfl, hfr, (hq.flag (eventReg_pwtStat g) _).trans h2, (hq.get (eventReg_pwtStat g) _).trans h3, hq.raised h4⟩
  · obtain ⟨u, hu, hq⟩ := Dev.enWrite_quiet hlive.2 hg hp has hown true hen
    have k := (Dev.groupEnable_accepted (g := g) (d := u) (by rw [hu.enableCause]; exact hc)).of_same hu hq
    refine ⟨_, onDev_eq hlive.1 rfl, k.frame, k.start.others, k.on, k.ok.1, k.ok.2, k.empty, k.start.enAt, k.start.vec, k.start.nextVec, k.start.capd,
      k.start.load.trans ?_⟩
    rw [Dev.firstLoad]
    cases s.dev.primOf g <;> rfl
  · obtain ⟨u, hu, hq⟩ := Dev.enWrite_quiet hlive.2 hg hp has hown false hen
    have k := (u.groupOff_spec hg).of_same hu hq
    exact ⟨_, onDev_eq hlive.1 rfl, k.frame, k.others, k.self, k.sec⟩
  · refine onPart_eq hlive ((Dev.clocked_runs hfr fun d => d.pwmStart g).trans (Dev.pwmStart_due hl ?_ hlt))
    rw [Dev.pwmEn, hp, hen]
    rfl
  · have k := (Dev.commitWrite_spec hp ht hsrc hen).quiet (Dev.pWrite_commit hlive.2 hg hp)
    exact ⟨_, onDev_eq hlive.1 rfl, k.frame, k.others, k.self, k.valid, k.clamp⟩
  · have k := Dev.captureTick_spec hns hdue
    exact ⟨_, onPart_eq hlive rfl, k.run.frame.pages capPart_part fun a ha => capRegs_place hg ha, k.run.others, k.capd, k.load, k.idx, k.entered, k.stays, k.peak,
      k.valley, k.fixed⟩
  · have k := Dev.loadPointMach_spec hg hdue
    exact ⟨_, onPart_eq hlive (Dev.clocked_runs hfr fun d => d.loadPointMach g), k.frame.pages loadPart_part fun a ha => loadRegs_place hg ha, k.capd, k.load, k.shown,
      k.legs⟩

end Sys2Proof.Machine
end

section
/-! PROOFS. What the commit of a result brings its targets: groups, demands, tracks (R206, R229, R230, R357). -/

namespace Sys2Proof.Machine

section
variable {d e f : Dev} {g x c : Nat}

/-! ### A late vector (R229, R230) -/

/-- Registers of a group that a vector handed over writes. -/
def lateRegs (g : Nat) : List Nat :=
  [R.PWT_STAT g, R.PWT_CNT g, R.PWT_CARRY g 0, R.PWT_CARRY g 1, R.PWT_CARRY g 2, R.PWT_ACT g 0, R.PWT_ACT g 1, R.PWT_ACT g 2]

theorem carry_late (hx : x < 3) : R.PWT_CARRY g x ∈ lateRegs g := by interval_cases x <;> simp [lateRegs]
theorem act_late (hx : x < 3) : R.PWT_ACT g x ∈ lateRegs g := by interval_cases x <;> simp [lateRegs]
theorem stat_late : R.PWT_STAT g ∈ lateRegs g := by simp [lateRegs]
theorem cnt_late : R.PWT_CNT g ∈ lateRegs g := by simp [lateRegs]

/-- A group and its registers alone. -/
abbrev LateOn (g : Nat) : Dev → Dev → Prop := FrameOn grpPart (lateRegs g)

theorem LateOn.refl (g : Nat) (d : Dev) : LateOn g d d := FrameOn.refl grpPart_part _ d

theorem LateOn.boundCarry (h : LateOn g d e) (hx : x < 3) (v pf : Int) : LateOn g d (e.boundCarry g x v pf) := by
  have hset := FrameOn.setReg grpPart_part h (wordOfInt (clampI (-pf) pf v)) (carry_late hx)
  rw [Dev.boundCarry]
  exact FrameOn.ite (fun _ => (hset.putB grpPart_part _ _ stat_late).quiet grpPart_part (Dev.raiseN_quiet _ _ _ _)) fun _ => hset

theorem LateOn.stepLeg (h : LateOn g d e) (hx : x < 3) (peak : Bool) (dx : Frac) : LateOn g d (e.stepLeg g x peak dx) := by
  rw [Dev.stepLeg]
  dsimp only
  exact FrameOn.ite (fun _ => LateOn.boundCarry (FrameOn.setLeg h _ _ _) hx _ _) fun _ => LateOn.boundCarry (FrameOn.setLeg h _ _ _) hx _ _

theorem LateOn.stepLegs (h : LateOn g d e) (peak : Bool) (v : List (Int × Int)) : LateOn g d (e.stepLegs g peak v) := by
  rw [Dev.stepLegs]
  exact forN_keeps (P := LateOn g d) 3 (fun x hx u hu => FrameOn.ite (fun _ => LateOn.stepLeg hu hx peak _) fun _ => hu) h

theorem LateOn.unstep (h : LateOn g d e) (hx : x < 3) : LateOn g d (e.unstep g x) :=
  FrameOn.setReg grpPart_part (FrameOn.setLeg h g x _) _ (carry_late hx)

theorem LateOn.minpCount {l : List Nat} (h : FrameOn grpPart l d e) (hl : R.PWT_CNT g ∈ l) (was : List Bool) : FrameOn grpPart l d (e.minpCount g was) := by
  rw [Dev.minpCount]
  exact (FrameOn.ite (fun _ => h.bump grpPart_part _ hl) fun _ => h).quiet grpPart_part (Dev.raiseNIf_quiet _ _ _ _ _)

/-- The assessment that awaited a speculation's end. -/
theorem FrameOn.minpFlush {l : List Nat} (h : FrameOn grpPart l d e) (hl : R.PWT_CNT g ∈ l) : FrameOn grpPart l d (e.minpFlush g) := by
  cases hm : (e.grpS g).minpDue with
  | none =>
    rw [Dev.minpFlush_none hm]
    exact h
  | some was =>
    rw [Dev.minpFlush_some hm]
    exact LateOn.minpCount (h.setGrp g _) hl was

theorem LateOn.minpRedo (h : LateOn g d e) (was : List Bool) : LateOn g d (e.minpRedo g was) := by
  rw [Dev.minpRedo]
  exact LateOn.minpCount (FrameOn.ite (fun _ => FrameOn.unbump grpPart_part h _ cnt_late) fun _ => h) cnt_late _

theorem LateOn.showAct (h : LateOn g d e) : LateOn g d (e.showAct g) := by
  rw [Dev.showAct]
  split
  · exact h
  · exact forN_keeps (P := LateOn g d) 3 (fun x hx u hu => FrameOn.setReg grpPart_part hu _ (act_late hx)) h

theorem LateOn.setEdges (h : LateOn g d e) (es : List EdgeSt) : LateOn g d (e.setEdges g es) := FrameOn.setGrp h g _

theorem LateOn.clampShown (h : LateOn g d e) (v : List (Int × Int)) : LateOn g d (e.clampShown g v) :=
  FrameOn.ite (fun _ => (h.putB grpPart_part _ _ stat_late).quiet grpPart_part (Dev.raiseN_quiet _ _ _ _)) fun _ => h

/-- A late vector touches its group alone. -/
theorem Dev.lateLoad_frame (d : Dev) (g : Nat) (v : List (Int × Int)) (peak : Bool) : LateOn g d (d.lateLoad g v peak) := by
  have hp := grpPart_part
  unfold Dev.lateLoad
  refine ite_both (P := LateOn g d) (fun _ => .refl g d) fun _ => ?_
  have h1 : LateOn g d (((d.clampShown g v).putB (R.PWT_STAT g) F.PWT_STAT_VALID true).setGrp g
      { ((d.clampShown g v).putB (R.PWT_STAT g) F.PWT_STAT_VALID true).grpS g with vec := some v, nextVec := none, comm := some v, commIdx := (d.grpS g).idx }) :=
    FrameOn.setGrp (FrameOn.putB hp (LateOn.clampShown (.refl g d) v) _ _ stat_late) g _
  have h2 := FrameOn.ite (c := (d.grpS g).limNew = true) (fun _ => h1.putB hp F.PWT_STAT_CARRY_LIM false stat_late) fun _ => h1
  have h3 := LateOn.stepLegs (forN_keeps (P := LateOn g d) (f := fun x e => if e.stepsLeg g x then e.unstep g x else e) 3
    (fun x hx u hu => FrameOn.ite (fun _ => LateOn.unstep hu hx) fun _ => hu) h2) peak v
  have h4 := FrameOn.ite (c := (d.grpS g).minpDue.isSome = true) (fun _ => FrameOn.minpFlush h3 cnt_late)
    fun _ => LateOn.minpRedo h3 ((List.range 3).map fun x => (d.legS g x).acted)
  have h5 := FrameOn.ite (c := (d.grpS g).capd = true) (fun _ => h4) fun _ => LateOn.showAct h4
  refine FrameOn.quiet hp (FrameOn.ite (fun _ => ?_) fun _ => ?_) (Dev.raiseNIf_quiet _ _ _ _ _)
  · refine forN_keeps (P := LateOn g d) 3 (fun x hx u hu => FrameOn.ite (fun _ => hu) fun _ => LateOn.boundCarry hu hx _ _) ?_
    exact forN_keeps (P := LateOn g d) 3 (fun x _ u hu => FrameOn.ite (fun _ => LateOn.setEdges hu _) fun _ => hu) h5
  · exact forN_keeps (P := LateOn g d) 3 (fun x _ u hu => FrameOn.ite (fun _ => LateOn.setEdges hu _) fun _ => hu) h5

end

end Sys2Proof.Machine
end

section
/-! PROOFS. What the commit of a result hands over, target by target (R206, R229, R357). -/

namespace Sys2Proof.Machine

section
variable {d e f : Dev} {g x c : Nat}

/-- Registers of the targets of a commit. -/
def targetRegs : List Nat := (List.range 20).flatMap lateRegs ++ trkRegs

/-- Parts of the device that a commit changes. -/
def passPart (d e : Dev) : Dev := { d with ctx := e.ctx, grp := e.grp, trk := e.trk, sync := e.sync, tm := e.tm }

theorem passPart_part : Part passPart := ⟨fun _ => rfl, fun _ _ _ => rfl, fun _ _ => rfl, fun _ _ _ => rfl⟩

theorem passPart_ctx : HoldsCtx passPart := fun _ _ _ => rfl

theorem FrameOn.grpPass {l m : List Nat} (h : FrameOn grpPart l d e) (hl : ∀ a ∈ l, a ∈ m) : FrameOn passPart m d e :=
  h.widen grpPart_part passPart_part (fun _ _ => rfl) hl

theorem FrameOn.grp_ctx {l : List Nat} (h : FrameOn grpPart l d e) : e.ctx = d.ctx := (congrArg Dev.ctx h.1 :)
theorem FrameOn.grp_gtc {l : List Nat} (h : FrameOn grpPart l d e) : e.gtc = d.gtc := (congrArg Dev.gtc h.1 :)

theorem late_target (hg : g < 20) {a : Nat} (ha : a ∈ lateRegs g) : a ∈ targetRegs :=
  List.mem_append_left _ (List.mem_flatMap.2 ⟨g, List.mem_range.2 hg, ha⟩)

/-- What a commit hands over leaves the contexts. -/
structure TargetRun (d e : Dev) : Prop where
  frame : FrameOn passPart targetRegs d e
  ctx : e.ctx = d.ctx

theorem TargetRun.refl (d : Dev) : TargetRun d d := ⟨FrameOn.refl passPart_part _ d, rfl⟩
theorem TargetRun.trans (h : TargetRun d e) (k : TargetRun e f) : TargetRun d f := ⟨h.frame.trans passPart_part k.frame, k.ctx.trans h.ctx⟩

theorem TargetRun.ctxS (h : TargetRun d e) (j : Nat) : e.ctxS j = d.ctxS j := by rw [Dev.ctxS, h.ctx]; rfl

theorem TargetRun.late (hg : g < 20) (h : FrameOn grpPart (lateRegs g) d e) : TargetRun d e :=
  ⟨h.grpPass fun _ ha => late_target hg ha, h.grp_ctx⟩

/-! ### Duties -/

theorem Dev.enterVec_frame (d : Dev) (g : Nat) (v : List (Int × Int)) : FrameOn grpPart [R.PWT_STAT g] d (d.enterVec g v) := by
  by_cases hen : d.pwmEn g = true
  · exact (d.enterVec_spec hen v).frame
  · rw [Dev.enterVec, if_pos (by simpa using hen)]
    exact FrameOn.refl grpPart_part _ d

theorem Dev.enterVec_late (d : Dev) (g : Nat) (v : List (Int × Int)) : LateOn g d (d.enterVec g v) :=
  (d.enterVec_frame g v).mono fun a ha => by rw [List.mem_singleton.1 ha]; exact stat_late

/-- The duties of one group handed over. -/
def Dev.handOne (d : Dev) (c : Nat) (res : PassSt) (late : Bool) (p : Nat × Nat) : Dev :=
  if !d.pwmDsrc p.1 then d
  else ((d.ctxS c).tgt.find? fun t => t.grp == p.1).elim (d.enterVec p.1 (passDuties res p.2)) fun t =>
    if late && d.captured t then d.lateLoad p.1 (passDuties res p.2) t.peak else d.enterVec p.1 (passDuties res p.2)

theorem Dev.handOver_eq (d : Dev) (c : Nat) (res : PassSt) (late : Bool) : d.handOver c res late = (d.dutyGroups c).foldl (fun e p => e.handOne c res late p) d := by
  rw [Dev.handOver]
  congr 1
  funext e p
  rw [Dev.handOne]
  split
  · rfl
  · generalize List.find? _ _ = o
    cases o <;> rfl

theorem Dev.handOne_late (d : Dev) (c : Nat) (res : PassSt) (late : Bool) (p : Nat × Nat) : LateOn p.1 d (d.handOne c res late p) := by
  rw [Dev.handOne]
  refine FrameOn.ite (fun _ => LateOn.refl _ d) fun _ => ?_
  cases (d.ctxS c).tgt.find? fun t => t.grp == p.1 with
  | none => exact d.enterVec_late _ _
  | some t => exact FrameOn.ite (fun _ => d.lateLoad_frame _ _ _) fun _ => d.enterVec_late _ _

theorem Dev.handOne_ordinary (hs : d.pwmDsrc g = true) (c n : Nat) (res : PassSt) : d.handOne c res false (g, n) = d.enterVec g (passDuties res n) := by
  rw [Dev.handOne, hs, if_neg (by decide)]
  cases (d.ctxS c).tgt.find? fun t => t.grp == g with
  | none => rfl
  | some t => rw [Option.elim_some, Bool.false_and, if_neg Bool.false_ne_true]

theorem Dev.pairOf_lt (hp : d.pairOf g = some x) : x < 20 ∧ x ≠ g := by
  rw [Dev.pairOf, Dev.primOf] at hp
  split at hp
  · next hc =>
    have := Option.some.inj hp
    omega
  · rw [Option.orElse] at hp
    have := (Dev.secOf_eq hp).1
    have := (Dev.secOf_eq hp).2
    omega

/-- Of the groups that take duties the first is DUTY_GRP, another the one paired with it. -/
theorem Dev.dutyGroups_cases (d : Dev) (c : Nat) : (20 ≤ d.dutyGrp c ∧ d.dutyGroups c = []) ∨
    d.dutyGrp c < 20 ∧ (d.dutyGroups c = [(d.dutyGrp c, 0)] ∨ ∃ x, x < 20 ∧ x ≠ d.dutyGrp c ∧ d.dutyGroups c = [(d.dutyGrp c, 0), (x, 3)]) := by
  rw [Dev.dutyGroups]
  by_cases hg : 20 ≤ d.dutyGrp c
  · exact .inl ⟨hg, if_pos hg⟩
  · refine .inr ⟨by omega, ?_⟩
    rw [if_neg hg]
    cases hp : d.pairOf (d.dutyGrp c) with
    | none => exact .inl rfl
    | some x =>
      obtain ⟨h1, h2⟩ := Dev.pairOf_lt hp
      exact .inr ⟨x, h1, h2, rfl⟩

theorem Dev.handOver_run (d : Dev) (c : Nat) (res : PassSt) (late : Bool) : TargetRun d (d.handOver c res late) := by
  rw [Dev.handOver_eq]
  refine foldl_keeps (P := TargetRun d) (fun p hp e he => he.trans (.late ?_ (e.handOne_late c res late p))) (.refl d)
  obtain ⟨-, h⟩ | ⟨hg, h | ⟨x, hx, -, h⟩⟩ := d.dutyGroups_cases c
  · rw [h] at hp
    exact absurd hp List.not_mem_nil
  · rw [h] at hp
    rw [List.mem_singleton.1 hp]
    exact hg
  · rw [h, List.mem_cons, List.mem_singleton] at hp
    obtain rfl | rfl := hp
    · exact hg
    · exact hx

/-- An ordinary commit enters its duties in the shadow of its group. -/
theorem Dev.handOver_ordinary (hg : d.dutyGrp c < 20) (hen : d.pwmEn (d.dutyGrp c) = true) (hs : d.pwmDsrc (d.dutyGrp c) = true) (res : PassSt) :
    ((d.handOver c res false).grpS (d.dutyGrp c)).nextVec = some (passDuties res 0, d.gtc) := by
  have hfirst : ((d.handOne c res false (d.dutyGrp c, 0)).grpS (d.dutyGrp c)).nextVec = some (passDuties res 0, d.gtc) := by
    rw [Dev.handOne_ordinary hs, (Dev.enterVec_spec hen _).self]
  rw [Dev.handOver_eq]
  obtain ⟨h, -⟩ | ⟨-, h | ⟨x, -, hne, h⟩⟩ := d.dutyGroups_cases c
  · omega
  · rw [h]
    exact hfirst
  · rw [h, List.foldl_cons, List.foldl_cons, List.foldl_nil]
    generalize d.handOne c res false (d.dutyGrp c, 0) = u at hfirst ⊢
    have hoth : (u.handOne c res false (x, 3)).grpS (d.dutyGrp c) = u.grpS (d.dutyGrp c) := by
      by_cases hsx : u.pwmDsrc x = true
      · rw [Dev.handOne_ordinary hsx]
        by_cases henx : u.pwmEn x = true
        · exact (Dev.enterVec_spec henx _).others _ hne.symm
        · rw [Dev.enterVec, if_pos (by simpa using henx)]
      · rw [Dev.handOne, if_pos (by simpa using hsx)]
    rw [hoth]
    exact hfirst

/-! ### Demands and tracks -/

theorem Dev.demNote_run (d : Dev) (c : Nat) : TargetRun d (d.demNote c) := by
  rw [Dev.demNote]
  refine forN_keeps (P := TargetRun d) 20 (fun m _ e he => ?_) (.refl d)
  refine ite_both (P := TargetRun d) (fun _ => he.trans ⟨?_, rfl⟩) fun _ => he
  exact (FrameOn.refl passPart_part _ e).part passPart_part rfl fun _ => rfl

theorem Dev.demNote_grp (d : Dev) (c : Nat) : (d.demNote c).grp = d.grp := by
  rw [Dev.demNote]
  refine forN_keeps (P := fun e : Dev => e.grp = d.grp) 20 (fun m _ e he => ?_) rfl
  exact ite_both (P := fun u : Dev => u.grp = d.grp) (fun _ => he) fun _ => he

theorem TrkStep.target {k : Nat} (h : TrkStep [k] d e) (hk : k < nTracks) : TargetRun d e ∧ e.grp = d.grp := by
  obtain ⟨⟨hc, hr, hraw⟩, -⟩ := h
  have hmem : ∀ a ∈ [k].map R.TRK_STAT ++ [R.TL_TRK_FLAG, R.TL_ZS_INFO], a ∈ targetRegs := by
    intro a ha
    refine List.mem_append_right _ ?_
    rw [List.map_cons, List.map_nil, List.cons_append, List.nil_append, List.mem_cons] at ha
    obtain rfl | ha := ha
    · exact List.mem_append_left _ (List.mem_map_of_mem (List.mem_range.2 hk))
    · exact List.mem_append_right _ ha
  have h1 : e.ctx = d.ctx := (congrArg Dev.ctx hc :)
  have h2 : e.grp = d.grp := (congrArg Dev.grp hc :)
  have h3 : e.tm = d.tm := (congrArg Dev.tm hc :)
  refine ⟨⟨⟨?_, fun a ha hm => (hr a ha fun hx => hm (hmem a hx)).trans rfl, fun p i hm hx => hraw p i (fun hy => hm (hmem _ hy)) hx⟩, h1⟩, h2⟩
  rw [hc, passPart, h1, h2, h3]

theorem Dev.ctxTracks_run (d : Dev) (c tr : Nat) : TargetRun d (d.ctxTracks c tr) ∧ (d.ctxTracks c tr).grp = d.grp := by
  rw [Dev.ctxTracks]
  refine forN_keeps (P := fun e : Dev => TargetRun d e ∧ e.grp = d.grp) nTracks (fun k hk e he => ?_) ⟨.refl d, rfl⟩
  refine ite_both (P := fun e : Dev => TargetRun d e ∧ e.grp = d.grp) (fun _ => ?_) fun _ => he
  obtain ⟨h1, h2⟩ := (e.giveUpd_step k _).target hk
  exact ⟨he.1.trans h1, h2.trans he.2⟩

/-- Everything that a commit hands over. -/
def Dev.passHanded (d : Dev) (c tr : Nat) (res : PassSt) (late : Bool) : Dev := ((d.handOver c res late).demNote c).ctxTracks c tr

theorem Dev.passHanded_run (d : Dev) (c tr : Nat) (res : PassSt) (late : Bool) : TargetRun d (d.passHanded c tr res late) :=
  ((d.handOver_run c res late).trans (Dev.demNote_run _ c)).trans (Dev.ctxTracks_run _ c tr).1

theorem Dev.passHanded_vec (hg : d.dutyGrp c < 20) (hen : d.pwmEn (d.dutyGrp c) = true) (hs : d.pwmDsrc (d.dutyGrp c) = true) (tr : Nat) (res : PassSt) :
    ((d.passHanded c tr res false).grpS (d.dutyGrp c)).nextVec = some (passDuties res 0, d.gtc) := by
  have hgrp : (d.passHanded c tr res false).grp = (d.handOver c res false).grp := (Dev.ctxTracks_run _ c tr).2.trans (Dev.demNote_grp _ c)
  rw [Dev.grpS, hgrp]
  exact Dev.handOver_ordinary hg hen hs res

end

end Sys2Proof.Machine
end

section
/-! PROOFS. What the commit of a result writes in its context (R203, R205, R213). -/

namespace Sys2Proof.Machine

section
variable {d e f : Dev} {c a : Nat}

/-! ### Registers of a context -/

/-- Registers of a context that show a commit. -/
def showRegs (c : Nat) : List Nat :=
  (List.range 12).map (R.CTX_OUT c) ++ (List.range 6).map (R.CTX_OMAP c) ++ [R.CTX_SAT c, R.CTX_STAT c, R.CTX_LAST c, R.CTX_RUNS c]

/-- Registers of a context that a commit writes. -/
def commitRegs (c : Nat) : List Nat := showRegs c ++ (List.range 60).map (R.CTX_POOL c) ++ [R.LEC_FLAG (c / 32)]

/-- A register of a context lies in its record. -/
def InCtx (c a : Nat) : Prop := ∃ k, k < 0x1C0 ∧ a = R.CTX_CTRL c + k

theorem InCtx.event (h : InCtx c a) : eventReg a = false := by
  obtain ⟨k, hk, rfl⟩ := h
  rw [eventReg_eq_false]
  simp only [R.CTX_CTRL]
  have hr : c % 8 < 8 := by omega
  generalize c / 8 = q
  generalize c % 8 = r at hr
  have hoff : (0x40100040 + 0x1000 * q + 0x1C0 * r + k) % 0x1000 = 0x40 + 0x1C0 * r + k := by
    rw [show 0x40100040 + 0x1000 * q + 0x1C0 * r + k = 0x40 + 0x1C0 * r + k + 0x1000 * (0x40100 + q) by omega, Nat.add_mul_mod_self_left]
    exact Nat.mod_eq_of_lt (by omega)
  rw [hoff]
  omega

theorem InCtx.le (h : InCtx c a) : 0x40100040 ≤ a := by
  obtain ⟨k, -, rfl⟩ := h
  simp only [R.CTX_CTRL]
  omega

theorem showRegs_in (h : a ∈ showRegs c) : InCtx c a ∧ a ≠ R.CTX_SPEC c ∧ a ≠ R.CTX_CTRL c ∧ ∀ i, a ≠ R.CTX_POOL c i := by
  simp only [showRegs, List.mem_append, List.mem_map, List.mem_range, List.mem_cons, List.not_mem_nil, or_false] at h
  simp only [InCtx, R.CTX_CTRL, R.CTX_SPEC, R.CTX_POOL]
  obtain (⟨j, hj, rfl⟩ | ⟨j, hj, rfl⟩) | rfl | rfl | rfl | rfl := h
  · rw [R.CTX_OUT]; exact ⟨⟨0xA0 + 4 * j, by omega, by omega⟩, by omega, by omega, fun i => by omega⟩
  · rw [R.CTX_OMAP]; exact ⟨⟨0xC + 4 * j, by omega, by omega⟩, by omega, by omega, fun i => by omega⟩
  · rw [R.CTX_SAT]; exact ⟨⟨0x34, by omega, by omega⟩, by omega, by omega, fun i => by omega⟩
  · rw [R.CTX_STAT]; exact ⟨⟨0x30, by omega, by omega⟩, by omega, by omega, fun i => by omega⟩
  · rw [R.CTX_LAST]; exact ⟨⟨0x3C, by omega, by omega⟩, by omega, by omega, fun i => by omega⟩
  · rw [R.CTX_RUNS]; exact ⟨⟨0x38, by omega, by omega⟩, by omega, by omega, fun i => by omega⟩

theorem out_show {j : Nat} (hj : j < 12) : R.CTX_OUT c j ∈ showRegs c :=
  List.mem_append_left _ (List.mem_append_left _ (List.mem_map_of_mem (List.mem_range.2 hj)))
theorem omap_show {j : Nat} (hj : j < 6) : R.CTX_OMAP c j ∈ showRegs c :=
  List.mem_append_left _ (List.mem_append_right _ (List.mem_map_of_mem (List.mem_range.2 hj)))
theorem sat_show : R.CTX_SAT c ∈ showRegs c := List.mem_append_right _ (by simp)
theorem stat_show : R.CTX_STAT c ∈ showRegs c := List.mem_append_right _ (by simp)
theorem last_show : R.CTX_LAST c ∈ showRegs c := List.mem_append_right _ (by simp)
theorem runs_show : R.CTX_RUNS c ∈ showRegs c := List.mem_append_right _ (by simp)
theorem show_commit (h : a ∈ showRegs c) : a ∈ commitRegs c := List.mem_append_left _ (List.mem_append_left _ h)
theorem pool_commit {i : Nat} (hi : i < 60) : R.CTX_POOL c i ∈ commitRegs c :=
  List.mem_append_left _ (List.mem_append_right _ (List.mem_map_of_mem (List.mem_range.2 hi)))
theorem flag_commit : R.LEC_FLAG (c / 32) ∈ commitRegs c := List.mem_append_right _ (List.mem_singleton_self _)

/-! ### What a commit shows -/

/-- The exponent field of an OUT word. -/
def expField (j : Nat) : RField := if j % 2 = 1 then F.CTX_OMAP_EXP_H else F.CTX_OMAP_EXP_L

/-- An OUT word and its exponent are shown. -/
def OutShown (e : Dev) (c : Nat) (r : PassSt) (j : Nat) : Prop :=
  e.reg (R.CTX_OUT c j) = (nthD (0, 0) r.outs j).1 ∧ e.get (R.CTX_OMAP c (j / 2)) (expField j) = (nthD (0, 0) r.outs j).2 % 64

/-- A context shows a result. -/
structure Shown205 (d e : Dev) (c tr : Nat) (stale : Bool) (r : PassSt) : Prop where
  outs : ∀ j, j < 12 → OutShown e c r j
  sat : e.get (R.CTX_SAT c) F.CTX_SAT_LAST = r.sat
  stale : e.flag (R.CTX_STAT c) F.CTX_STAT_STALE_IN = stale
  last : e.reg (R.CTX_LAST c) = BitVec.ofNat 32 tr
  seq : e.get (R.CTX_RUNS c) F.CTX_RUNS_SEQ = (d.get (R.CTX_RUNS c) F.CTX_RUNS_SEQ + 1) % 65536

theorem Shown205.kept {tr : Nat} {stale : Bool} {r : PassSt} (h : Shown205 d e c tr stale r) (hr : ∀ a ∈ showRegs c, f.reg a = e.reg a) :
    Shown205 d f c tr stale r := by
  obtain ⟨h1, h2, h3, h4, h5⟩ := h
  refine ⟨fun j hj => ⟨(hr _ (out_show hj)).trans (h1 j hj).1, (Dev.get_of_reg (hr _ (omap_show (by omega))) _).trans (h1 j hj).2⟩,
    (Dev.get_of_reg (hr _ sat_show) _).trans h2, (Dev.flag_of_reg (hr _ stat_show) _).trans h3, (hr _ last_show).trans h4,
    (Dev.get_of_reg (hr _ runs_show) _).trans h5⟩

theorem Shown205.committed {tr : Nat} {stale : Bool} {r : PassSt} (h : Shown205 d e c tr stale r) (hr : r.sat ≠ 0 → Raised e Pg.LEC Ev.CTX_SAT) :
    Committed d e c tr stale r := ⟨h.outs, h.sat, h.stale, h.last, h.seq, hr⟩

/-! ### The stages -/

/-- One OUT word. -/
def Dev.outStep (d : Dev) (c : Nat) (r : PassSt) (j : Nat) : Dev :=
  (d.setReg (R.CTX_OUT c j) (nthD (0, 0) r.outs j).1).put (R.CTX_OMAP c (j / 2)) (expField j) (nthD (0, 0) r.outs j).2

theorem Dev.outStep_other {j : Nat} (d : Dev) (r : PassSt) (h1 : a ≠ R.CTX_OUT c j) (h2 : a ≠ R.CTX_OMAP c (j / 2)) : (d.outStep c r j).reg a = d.reg a := by
  rw [Dev.outStep, Dev.reg_put_ne _ _ _ h2, Dev.reg_setReg_ne _ _ h1]

theorem Dev.outStep_makes {j : Nat} (hj : j < 12) (d : Dev) (r : PassSt) : OutShown (d.outStep c r j) c r j := by
  refine ⟨?_, ?_⟩
  · rw [Dev.outStep, Dev.reg_put_ne _ _ _ (by simp only [R.CTX_OUT, R.CTX_OMAP]; omega), Dev.reg_setReg_self]
  · have hw : (expField j).lo + fieldWidth (expField j) ≤ 32 ∧ fieldWidth (expField j) = 6 := by
      rw [expField]
      split <;> decide
    rw [Dev.outStep, Dev.get_put_self _ _ _ _ hw.1, hw.2]
    rfl

theorem Dev.outStep_keeps {i j : Nat} (hi : i < 12) (hj : j < 12) (hne : i ≠ j) {r : PassSt} (h : OutShown d c r j) : OutShown (d.outStep c r i) c r j := by
  refine ⟨(Dev.outStep_other _ _ (by simp only [R.CTX_OUT]; omega) (by simp only [R.CTX_OUT, R.CTX_OMAP]; omega)).trans h.1, ?_⟩
  have hset : (d.setReg (R.CTX_OUT c i) (nthD (0, 0) r.outs i).1).get (R.CTX_OMAP c (j / 2)) (expField j) = d.get (R.CTX_OMAP c (j / 2)) (expField j) :=
    Dev.get_of_reg (Dev.reg_setReg_ne _ _ (by simp only [R.CTX_OUT, R.CTX_OMAP]; omega)) _
  refine Eq.trans ?_ (hset.trans h.2)
  rw [Dev.outStep]
  by_cases hsame : i / 2 = j / 2
  · refine Dev.get_put_field _ _ _ _ _ _ ?_
    rw [expField, expField]
    by_cases h1 : i % 2 = 1
    · rw [if_pos h1, if_neg (by omega)]
      decide
    · rw [if_neg h1, if_pos (by omega)]
      decide
  · exact Dev.get_put_ne _ _ _ _ (by simp only [R.CTX_OMAP]; omega)

/-- The OUT words of a result. -/
def Dev.outsPut (d : Dev) (c : Nat) (r : PassSt) : Dev := forN 12 (fun j e => e.outStep c r j) d

/-- Registers of a context's record have been written, nothing else. -/
abbrev OwnOn (c : Nat) : Dev → Dev → Prop := FrameOn noPart (commitRegs c)

theorem OwnOn.refl (c : Nat) (d : Dev) : OwnOn c d d := FrameOn.refl noPart_part _ d

theorem Dev.outsPut_spec (d : Dev) (c : Nat) (r : PassSt) : OwnOn c d (d.outsPut c r) ∧
    (∀ a ∈ [R.CTX_SAT c, R.CTX_STAT c, R.CTX_LAST c, R.CTX_RUNS c], (d.outsPut c r).reg a = d.reg a) ∧ ∀ j, j < 12 → OutShown (d.outsPut c r) c r j := by
  have hn := noPart_part
  have hkeep : ∀ j < 12, ∀ e : Dev, (OwnOn c d e ∧ ∀ a ∈ [R.CTX_SAT c, R.CTX_STAT c, R.CTX_LAST c, R.CTX_RUNS c], e.reg a = d.reg a) →
      OwnOn c d (e.outStep c r j) ∧ ∀ a ∈ [R.CTX_SAT c, R.CTX_STAT c, R.CTX_LAST c, R.CTX_RUNS c], (e.outStep c r j).reg a = d.reg a := by
    intro j hj e he
    obtain ⟨he, hr⟩ := he
    refine ⟨(FrameOn.setReg hn he _ (show_commit (out_show hj))).put hn _ _ (show_commit (omap_show (by omega))), fun a ha => ?_⟩
    refine (Dev.outStep_other _ _ ?_ ?_).trans (hr a ha)
    all_goals
      simp only [List.mem_cons, List.not_mem_nil, or_false, R.CTX_SAT, R.CTX_STAT, R.CTX_LAST, R.CTX_RUNS] at ha
      simp only [R.CTX_OUT, R.CTX_OMAP]
      omega
  obtain ⟨⟨h1, h2⟩, h3⟩ := forN_each (Q := fun j e => OutShown e c r j) 12 hkeep (fun j hj e _ => e.outStep_makes hj r)
    (fun i hi j hj e _ h => Dev.outStep_keeps hi (by omega) (by omega) h) ⟨.refl c d, fun _ _ => rfl⟩
  exact ⟨h1, h2, h3⟩

/-- The state words of a result. -/
def Dev.stateOut (d : Dev) (c : Nat) (r : PassSt) : Dev := r.state.foldl (fun e w => e.setReg (R.CTX_POOL c w.1) w.2) d

theorem Dev.stateOut_spec (d : Dev) {r : PassSt} (hr : ∀ w ∈ r.state, w.1 < 60) : OwnOn c d (d.stateOut c r) ∧ ∀ a ∈ showRegs c, (d.stateOut c r).reg a = d.reg a := by
  rw [Dev.stateOut]
  refine foldl_keeps (P := fun e => OwnOn c d e ∧ ∀ a ∈ showRegs c, e.reg a = d.reg a) (fun w hw e he => ?_) ⟨.refl c d, fun _ _ => rfl⟩
  exact ⟨FrameOn.setReg noPart_part he.1 _ (pool_commit (hr w hw)), fun a ha => (Dev.reg_setReg_ne _ _ ((showRegs_in ha).2.2.2 _)).trans (he.2 a ha)⟩

/-- Status of a result but for its number. -/
def Dev.statBase (d : Dev) (c tr : Nat) (stale : Bool) (sat : Nat) : Dev :=
  (((d.put (R.CTX_SAT c) F.CTX_SAT_LAST sat).orReg (R.CTX_SAT c) (BitVec.ofNat 32 sat)).putB (R.CTX_STAT c) F.CTX_STAT_STALE_IN stale).setReg
    (R.CTX_LAST c) (BitVec.ofNat 32 tr)

/-- Status of a result. -/
def Dev.statPut (d : Dev) (c tr : Nat) (stale : Bool) (sat : Nat) : Dev :=
  (d.statBase c tr stale sat).put (R.CTX_RUNS c) F.CTX_RUNS_SEQ (((d.statBase c tr stale sat).get (R.CTX_RUNS c) F.CTX_RUNS_SEQ + 1) % 65536)

theorem getF_satLast_or (w : Word) {n : Nat} (hn : n < 2 ^ 12) : getF (w ||| BitVec.ofNat 32 n) F.CTX_SAT_LAST = getF w F.CTX_SAT_LAST := by
  refine getF_congr fun i hlo _ => ?_
  have h16 : F.CTX_SAT_LAST.lo = 16 := rfl
  have hbit : Nat.testBit n i = false := Nat.testBit_lt_two_pow (hn.trans_le (Nat.pow_le_pow_right (by decide) (by omega)))
  rw [BitVec.getLsbD_or, BitVec.getLsbD_ofNat, hbit, Bool.and_false, Bool.or_false]

theorem Dev.statPut_frame (d : Dev) (c tr : Nat) (stale : Bool) (sat : Nat) : OwnOn c d (d.statPut c tr stale sat) := by
  have hn := noPart_part
  exact ((((FrameOn.put hn (OwnOn.refl c d) _ _ (show_commit sat_show)).orReg hn _ (show_commit sat_show)).putB hn _ _ (show_commit stat_show)).setReg hn _
    (show_commit last_show)).put hn _ _ (show_commit runs_show)

theorem Dev.statPut_shown {r : PassSt} (hsat : r.sat < 2 ^ 12) {tr : Nat} {stale : Bool} (ho : ∀ j, j < 12 → OutShown d c r j) :
    Shown205 d (d.statPut c tr stale r.sat) c tr stale r := by
  have h1 : R.CTX_SAT c ≠ R.CTX_RUNS c ∧ R.CTX_SAT c ≠ R.CTX_LAST c ∧ R.CTX_SAT c ≠ R.CTX_STAT c ∧ R.CTX_STAT c ≠ R.CTX_RUNS c ∧
      R.CTX_STAT c ≠ R.CTX_LAST c ∧ R.CTX_LAST c ≠ R.CTX_RUNS c := by
    simp only [R.CTX_SAT, R.CTX_RUNS, R.CTX_LAST, R.CTX_STAT]
    omega
  obtain ⟨h1, h2, h3, h4, h5, h6⟩ := h1
  have hoth : ∀ a, a ∉ [R.CTX_SAT c, R.CTX_STAT c, R.CTX_LAST c, R.CTX_RUNS c] → (d.statPut c tr stale r.sat).reg a = d.reg a := fun a ha => by
    simp only [List.mem_cons, List.not_mem_nil, or_false, not_or] at ha
    obtain ⟨k1, k2, k3, k4⟩ := ha
    rw [Dev.statPut, Dev.reg_put_ne _ _ _ k4, Dev.statBase, Dev.reg_setReg_ne _ _ k3, Dev.putB, Dev.reg_put_ne _ _ _ k2, Dev.orReg, Dev.reg_setReg_ne _ _ k1,
      Dev.reg_put_ne _ _ _ k1]
  refine ⟨fun j hj => ⟨(hoth _ ?_).trans (ho j hj).1, (Dev.get_of_reg (hoth _ ?_) _).trans (ho j hj).2⟩, ?_, ?_, ?_, ?_⟩
  · simp only [List.mem_cons, List.not_mem_nil, or_false, R.CTX_SAT, R.CTX_STAT, R.CTX_LAST, R.CTX_RUNS, R.CTX_OUT]
    omega
  · simp only [List.mem_cons, List.not_mem_nil, or_false, R.CTX_SAT, R.CTX_STAT, R.CTX_LAST, R.CTX_RUNS, R.CTX_OMAP]
    omega
  · have hreg : (d.statPut c tr stale r.sat).reg (R.CTX_SAT c) = (d.put (R.CTX_SAT c) F.CTX_SAT_LAST r.sat).reg (R.CTX_SAT c) ||| BitVec.ofNat 32 r.sat := by
      rw [Dev.statPut, Dev.reg_put_ne _ _ _ h1, Dev.statBase, Dev.reg_setReg_ne _ _ h2, Dev.putB, Dev.reg_put_ne _ _ _ h3, Dev.orReg, Dev.reg_setReg_self]
    rw [Dev.get, hreg, getF_satLast_or _ hsat]
    exact (Dev.get_put_self _ _ _ _ (by decide)).trans (Nat.mod_eq_of_lt hsat)
  · rw [Dev.statPut, Dev.flag_of_reg (Dev.reg_put_ne _ _ _ h4), Dev.statBase, Dev.flag_of_reg (Dev.reg_setReg_ne _ _ h5)]
    exact Dev.flag_putB_self _ _ _ _ (by decide) (by decide)
  · rw [Dev.statPut, Dev.reg_put_ne _ _ _ h6, Dev.statBase, Dev.reg_setReg_self]
  · have hruns : (d.statBase c tr stale r.sat).reg (R.CTX_RUNS c) = d.reg (R.CTX_RUNS c) := by
      rw [Dev.statBase, Dev.reg_setReg_ne _ _ h6.symm, Dev.putB, Dev.reg_put_ne _ _ _ h4.symm, Dev.orReg, Dev.reg_setReg_ne _ _ h1.symm,
        Dev.reg_put_ne _ _ _ h1.symm]
    rw [Dev.statPut, Dev.get_put_self _ _ _ _ (by decide), Dev.get_of_reg hruns]
    exact Nat.mod_eq_of_lt (Nat.mod_lt _ (by decide))

end

end Sys2Proof.Machine
end

section
/-! PROOFS. The commit of a result (R203 to R206), and of an ordinary pass. -/

namespace Sys2Proof.Machine

section
variable {d e f : Dev} {c a : Nat} {snap : SnapSt} {res : PassSt} {late : Bool}

/-! ### Registers of targets -/

theorem targetRegs_place (h : a ∈ targetRegs) : a < 0x40060000 ∨ 0x40080000 ≤ a ∧ a < 0x40100000 := by
  simp only [targetRegs, trkRegs, lateRegs, List.mem_append, List.mem_flatMap, List.mem_map, List.mem_range, List.mem_cons, List.not_mem_nil, or_false] at h
  have hn : nTracks = 24 := rfl
  obtain ⟨g, hg, h⟩ | ⟨k, hk, rfl⟩ | rfl | rfl := h
  · obtain rfl | rfl | rfl | rfl | rfl | rfl | rfl | rfl := h <;> simp only [R.PWT_STAT, R.PWT_CNT, R.PWT_CARRY, R.PWT_ACT] <;> omega
  · simp only [R.TRK_STAT]
    omega
  · exact .inl (by decide)
  · exact .inl (by decide)

theorem InCtx.target (h : InCtx c a) : a ∉ targetRegs := fun hm => by
  have := h.le
  have := targetRegs_place hm
  omega

theorem lecRaw_target : R.PG_EVT_RAW Pg.LEC ∉ targetRegs := fun hm => by
  have h := targetRegs_place hm
  revert h
  decide

theorem dutyRegs_kept {k : Nat} (hk : k < 0x1C0) : R.CTX_CTRL c + k ∉ targetRegs := InCtx.target ⟨k, hk, rfl⟩

/-! ### The stages together -/

/-- The words that a commit writes. -/
def writtenWord (res : PassSt) (w : Nat) : Bool :=
  (decide (12 ≤ w) && decide (w < 16)) || (decide (40 ≤ w) && decide (w < 52)) || res.state.any fun x => 52 + x.1 == w

theorem writtenWord_iff (res : PassSt) (w : Nat) : writtenWord res w = true ↔ res.writes w := by
  simp only [writtenWord, PassSt.writes, Bool.or_eq_true, Bool.and_eq_true, decide_eq_true_eq, List.any_eq_true, beq_iff_eq, or_assoc]

/-- A context's words written anew hold no error. -/
theorem CtxSt.mend_mended (q : CtxSt) (p : Nat → Bool) : Mended q (q.mend p) fun w => p w = true := by
  refine ⟨fun w => ?_, fun w => ?_⟩ <;> simp only [CtxSt.mend, List.mem_filter, Bool.not_eq_true', Bool.not_eq_true]

/-- What a commit writes in its context's registers. -/
def Dev.passWords (d : Dev) (c tr : Nat) (stale : Bool) (res : PassSt) : Dev := ((d.outsPut c res).stateOut c res).statPut c tr stale res.sat

/-- The record of a commit, and its event. -/
def Dev.passNoted (d : Dev) (c seq : Nat) (snap : SnapSt) (res : PassSt) (late : Bool) : Dev :=
  let w := seq * 2 ^ 16 + d.get (R.CTX_STAT c) F.CTX_STAT_D * 2 ^ 8 + b2n snap.stale * 16 + 1
  let u := d.emit { ty := 0x11, spec := late, res := c, tick := d.gtc, data := [BitVec.ofNat 32 snap.tr, BitVec.ofNat 32 w, d.passDigest c res] }
  if res.sat = 0 then u else u.ctxEvent c Ev.CTX_SAT

/-- The context of a commit is mended. -/
def Dev.passMend (d : Dev) (c : Nat) (res : PassSt) : Dev := d.setCtx c { (d.ctxS c).mend (writtenWord res) with cAt := d.gtc + 1 }

theorem Dev.ctxCommit_eq (d : Dev) (c : Nat) (snap : SnapSt) (res : PassSt) (late : Bool) : ∃ seq, d.ctxCommit c snap res late =
    (((d.passWords c snap.tr snap.stale res).passMend c res).passNoted c seq snap res late).passHanded c snap.tr res late := ⟨_, rfl⟩

theorem Dev.passNoted_spec (d : Dev) (c seq : Nat) (snap : SnapSt) (res : PassSt) (late : Bool) :
    FrameOn noPart [R.LEC_FLAG (c / 32)] d (d.passNoted c seq snap res late) ∧ (res.sat ≠ 0 → Raised (d.passNoted c seq snap res late) Pg.LEC Ev.CTX_SAT) := by
  have hq := fun r => d.emit_quiet r
  rw [Dev.passNoted]
  refine ⟨FrameOn.ite (fun _ => ?_) fun _ => ?_, fun hs => ?_⟩
  · exact (FrameOn.refl noPart_part _ d).quiet noPart_part (hq _)
  · exact ((FrameOn.refl noPart_part _ d).quiet noPart_part (hq _)).lecEvent noPart_part (List.mem_singleton_self _) _
  · rw [if_neg hs]
    exact Dev.ctxEvent_raised _

theorem FrameOn.no_ctx {l : List Nat} (h : FrameOn noPart l d e) : e.ctx = d.ctx := (congrArg Dev.ctx h.1 :)
theorem FrameOn.no_gtc {l : List Nat} (h : FrameOn noPart l d e) : e.gtc = d.gtc := (congrArg Dev.gtc h.1 :)
theorem FrameOn.no_member {l : List Nat} (h : FrameOn noPart l d e) : e.member = d.member := (congrArg Dev.member h.1 :)

theorem Dev.passWords_spec (d : Dev) (c tr : Nat) (stale : Bool) (hwf : res.wf) : OwnOn c d (d.passWords c tr stale res) ∧
    Shown205 d (d.passWords c tr stale res) c tr stale res := by
  obtain ⟨h1, h2, h3⟩ := d.outsPut_spec c res
  rw [Dev.passWords]
  generalize d.outsPut c res = u at h1 h2 h3
  obtain ⟨k1, k2⟩ := u.stateOut_spec (c := c) hwf.1
  generalize u.stateOut c res = v at k1 k2
  have hruns : v.reg (R.CTX_RUNS c) = d.reg (R.CTX_RUNS c) := (k2 _ runs_show).trans (h2 _ (by simp))
  have hs := v.statPut_shown hwf.2 (tr := tr) (stale := stale) fun j hj =>
    ⟨(k2 _ (out_show hj)).trans (h3 j hj).1, (Dev.get_of_reg (k2 _ (omap_show (by omega))) _).trans (h3 j hj).2⟩
  refine ⟨(h1.trans noPart_part k1).trans noPart_part (v.statPut_frame c tr stale res.sat), ⟨hs.outs, hs.sat, hs.stale, hs.last, ?_⟩⟩
  rw [hs.seq, Dev.get_of_reg hruns]

/-- A result has been committed. -/
structure Done205 (d e : Dev) (c : Nat) (snap : SnapSt) (res : PassSt) (late : Bool) : Prop where
  frame : FrameOn passPart (commitRegs c ++ targetRegs) d e
  shown : Shown205 d e c snap.tr snap.stale res
  sat : res.sat ≠ 0 → Raised e Pg.LEC Ev.CTX_SAT
  others : ∀ j, j ≠ c → e.ctxS j = d.ctxS j
  self : e.ctxS c = { (d.ctxS c).mend (writtenWord res) with cAt := d.gtc + 1 }
  vec : late = false → d.dutyGrp c < 20 → d.pwmEn (d.dutyGrp c) = true → d.pwmDsrc (d.dutyGrp c) = true →
    (e.grpS (d.dutyGrp c)).nextVec = some (passDuties res 0, d.gtc)

/-- Whether a group is enabled and takes duties, which a commit's own words leave. -/
theorem FrameOn.dutySame (h : FrameOn passPart (commitRegs c) d e) (hc : c < 192) : e.dutyGrp c = d.dutyGrp c ∧
    (∀ g, g < 20 → e.pwmEn g = d.pwmEn g ∧ e.pwmDsrc g = d.pwmDsrc g) := by
  have hp := passPart_part
  have hm : e.member = d.member := (congrArg Dev.member h.1 :)
  have hlow : ∀ a ∈ commitRegs c, a = R.LEC_FLAG (c / 32) ∨ 0x40100040 ≤ a ∧ a ≠ R.CTX_TARGET c := fun a ha => by
    rw [commitRegs, List.mem_append, List.mem_append, List.mem_singleton, List.mem_map] at ha
    obtain (ha | ⟨i, hi, rfl⟩) | rfl := ha
    · obtain ⟨h1, -⟩ := showRegs_in ha
      refine .inr ⟨h1.le, ?_⟩
      rintro rfl
      simp only [showRegs, List.mem_append, List.mem_map, List.mem_range, List.mem_cons, List.not_mem_nil, or_false] at ha
      simp only [R.CTX_OUT, R.CTX_OMAP, R.CTX_SAT, R.CTX_STAT, R.CTX_LAST, R.CTX_RUNS, R.CTX_TARGET] at ha
      omega
    · refine .inr ?_
      rw [List.mem_range] at hi
      simp only [R.CTX_POOL, R.CTX_TARGET]
      omega
    · exact .inl rfl
  have hkeep : ∀ a, eventReg a = false → 0x40080000 ≤ a → a < 0x40100000 → e.reg a = d.reg a := fun a ha h1 h2 => h.reg hp ha fun hm => by
    have := hlow a hm
    simp only [R.LEC_FLAG] at this
    omega
  refine ⟨Dev.get_of_reg (h.reg hp (InCtx.event (c := c) ⟨8, by omega, by simp only [R.CTX_TARGET, R.CTX_CTRL]; omega⟩) ?_) _, fun g hg => ?_⟩
  · intro hm
    have := hlow _ hm
    simp only [R.LEC_FLAG, R.CTX_TARGET] at this
    omega
  · have hpair : e.reg R.PWG_PAIR = d.reg R.PWG_PAIR := hkeep _ (by decide) (by decide) (by decide)
    have hprim : e.primOf g = d.primOf g := by rw [Dev.primOf, Dev.primOf, hpair]
    have hcfg : d.cfgG g < 20 := by
      rw [Dev.cfgG, Dev.primOf]
      split
      · exact (Nat.sub_le g 1).trans_lt hg
      · exact hg
    refine ⟨?_, ?_⟩
    · rw [Dev.pwmEn, Dev.pwmEn, hm, Dev.pageEn, Dev.pageEn, Dev.flag_of_reg (hkeep _ (eventReg_pgCtrl _) ?_ ?_)]
      all_goals
        simp only [R.PG_CTRL, pageBase, Pg.PWT]
        omega
    · rw [Dev.pwmDsrc, Dev.pwmDsrc, Dev.cfgG, Dev.cfgG, hprim, ← Dev.cfgG]
      refine Dev.flag_of_reg (hkeep _ ?_ ?_ ?_) _
      · rw [eventReg_eq_false]
        simp only [R.PWT_CTRL]
        omega
      all_goals
        simp only [R.PWT_CTRL]
        omega

theorem Dev.ctxCommit_spec (d : Dev) (hc : c < 192) (snap : SnapSt) (hwf : res.wf) (late : Bool) : Done205 d (d.ctxCommit c snap res late) c snap res late := by
  have hp := passPart_part
  obtain ⟨seq, heq⟩ := d.ctxCommit_eq c snap res late
  obtain ⟨h1, h2⟩ := d.passWords_spec c snap.tr snap.stale hwf
  rw [heq]
  clear heq
  generalize d.passWords c snap.tr snap.stale res = u at h1 h2
  have hu : FrameOn passPart (commitRegs c) d (u.passMend c res) :=
    (FrameOn.widen noPart_part hp (fun _ _ => rfl) (fun _ ha => ha) h1).ctxSet hp passPart_ctx c _
  have hus : ∀ j, u.ctxS j = d.ctxS j := fun j => by rw [Dev.ctxS, FrameOn.no_ctx h1]; rfl
  have hself : (u.passMend c res).ctxS c = { (d.ctxS c).mend (writtenWord res) with cAt := d.gtc + 1 } := by
    rw [Dev.passMend, Dev.ctxS_setCtx_self, hus, FrameOn.no_gtc h1]
  have hoth : ∀ j, j ≠ c → (u.passMend c res).ctxS j = d.ctxS j := fun j hj => by rw [Dev.passMend, Dev.ctxS_setCtx, if_neg hj, hus]
  have hsh : Shown205 d (u.passMend c res) c snap.tr snap.stale res := h2.kept fun a _ => Dev.reg_setCtx _ _ _ _
  generalize u.passMend c res = v at hu hself hoth hsh
  obtain ⟨k1, k2⟩ := v.passNoted_spec c seq snap res late
  have hv : FrameOn passPart (commitRegs c) d (v.passNoted c seq snap res late) :=
    hu.trans hp (FrameOn.widen noPart_part hp (fun _ _ => rfl) (fun a ha => by rw [List.mem_singleton.1 ha]; exact flag_commit) k1)
  have hvs : ∀ j, (v.passNoted c seq snap res late).ctxS j = v.ctxS j := fun j => by rw [Dev.ctxS, FrameOn.no_ctx k1]; rfl
  have hshow : ∀ a ∈ showRegs c, (v.passNoted c seq snap res late).reg a = v.reg a := fun a ha => by
    have hin := (showRegs_in ha).1
    refine k1.reg noPart_part hin.event fun hm => ?_
    have := hin.le
    rw [List.mem_singleton.1 hm, R.LEC_FLAG] at this
    omega
  generalize v.passNoted c seq snap res late = w at k1 k2 hv hvs hshow
  have hrun := w.passHanded_run c snap.tr res late
  obtain ⟨hgrp, hen⟩ := hv.dutySame hc
  have hgtc : w.gtc = d.gtc := (congrArg Dev.gtc hv.1 :)
  refine ⟨(hv.mono fun a ha => List.mem_append_left _ ha).trans hp (hrun.frame.mono fun a ha => List.mem_append_right _ ha),
    (hsh.kept hshow).kept fun a ha => hrun.frame.reg hp (showRegs_in ha).1.event (showRegs_in ha).1.target, fun hs => ?_, fun j hj => ?_, ?_, ?_⟩
  · exact hrun.frame.raised hp lecRaw_target (k2 hs)
  · rw [hrun.ctxS, hvs, hoth j hj]
  · rw [hrun.ctxS, hvs, hself]
  · intro hl hg h3 h4
    subst hl
    obtain ⟨e1, e2⟩ := hen _ hg
    have := w.passHanded_vec (c := c) (by rw [hgrp]; exact hg) (by rw [hgrp, e1]; exact h3) (by rw [hgrp, e2]; exact h4) snap.tr res
    rw [hgrp, hgtc] at this
    exact this

end

end Sys2Proof.Machine
end

section
/-! PROOFS. An ordinary pass commits (R205, R206). -/

namespace Sys2Proof.Machine

section
variable {d e f : Dev} {c a n : Nat}

theorem Dev.ctxAnchor_quiet (d : Dev) (c : Nat) : Quiet d (d.ctxAnchor c) := by
  rw [Dev.ctxAnchor]
  refine ite_both (P := Quiet d) (fun _ => ?_) fun _ => Quiet.refl d
  exact (Quiet.of_regs rfl fun _ => rfl : Quiet d { d with hamper := { d.hamper with ancLeft := d.hamper.ancLeft.erase c } }).trans (Dev.emit_quiet _ _)

/-! ### Registers -/

theorem leStat_event (hn : n < 8) : eventReg (R.LE_STAT n) = false := by
  rw [eventReg_eq_false]
  simp only [R.LE_STAT]
  omega

theorem leStat_commit (hn : n < 8) (hc : c < 192) : R.LE_STAT n ∉ commitRegs c ++ targetRegs := fun hm => by
  have hle : R.LE_STAT n = 0x40061040 + 0x1000 * n := rfl
  rw [List.mem_append] at hm
  obtain hm | hm := hm
  · rw [commitRegs, List.mem_append, List.mem_append, List.mem_singleton, List.mem_map] at hm
    obtain (hm | ⟨i, -, hi⟩) | hm := hm
    · have := (showRegs_in hm).1.le
      omega
    · rw [R.CTX_POOL] at hi
      omega
    · rw [R.LEC_FLAG] at hm
      omega
  · have := targetRegs_place hm
    omega

theorem commit_pass (ha : a ∈ commitRegs c ++ targetRegs) : a ∈ passRegs c n := by
  have htarget : ∀ x, x ∈ targetRegs → x ∈ passRegs c n := fun x hx => by
    obtain hx | hx := List.mem_append.1 hx
    · exact List.mem_append_left _ (List.mem_append_right _ hx)
    · exact List.mem_append_right _ hx
  have hown : ∀ x, x ∈ [R.CTX_SAT c, R.CTX_STAT c, R.CTX_LAST c, R.CTX_RUNS c, R.CTX_SPEC c, R.LE_STAT n, R.LEC_FLAG (c / 32)] → x ∈ passRegs c n :=
    fun x hx => List.mem_append_left _ (List.mem_append_left _ (List.mem_append_right _ hx))
  have hlist : ∀ x, x ∈ (List.range 12).map (R.CTX_OUT c) ++ (List.range 6).map (R.CTX_OMAP c) ++ (List.range 60).map (R.CTX_POOL c) → x ∈ passRegs c n :=
    fun x hx => List.mem_append_left _ (List.mem_append_left _ (List.mem_append_left _ hx))
  obtain ha | ha := List.mem_append.1 ha
  · obtain ha | ha := List.mem_append.1 ha
    · obtain ha | ha := List.mem_append.1 ha
      · obtain ha | ha := List.mem_append.1 ha
        · exact hlist a (List.mem_append_left _ ha)
        · simp only [List.mem_cons, List.not_mem_nil, or_false] at ha
          exact hown a (by obtain rfl | rfl | rfl | rfl := ha <;> simp)
      · exact hlist a (List.mem_append_right _ ha)
    · rw [List.mem_singleton.1 ha]
      exact hown _ (by simp)
  · exact htarget a ha

theorem leStat_pass : R.LE_STAT n ∈ passRegs c n := List.mem_append_left _ (List.mem_append_left _ (List.mem_append_right _ (by simp)))
theorem spec_pass : R.CTX_SPEC c ∈ passRegs c n := List.mem_append_left _ (List.mem_append_left _ (List.mem_append_right _ (by simp)))

/-! ### The commit -/

theorem Dev.passCommit_eq {r : RunSt} (hr : (d.ctxS c).run = some r) (hspec : r.spec = false) (ht : r.tc ≤ d.gtc) (hf : d.devState ≠ DS.FATAL) :
    d.passCommit c = (((d.setCtx c { d.ctxS c with run := none }).put (R.LE_STAT r.eng) F.LE_STAT_RUN_CTX 0xFF).ctxCommit c r.snap r.res false).ctxAnchor c := by
  rw [Dev.passCommit]
  simp only [hr]
  rw [hspec, decide_eq_false (Nat.not_lt.2 ht), beq_eq_false_iff_ne.2 hf]
  rfl

/-- What the commit of an ordinary pass leaves. -/
structure PassDone (d e : Dev) (c : Nat) (r : RunSt) : Prop where
  frame : FrameOn passPart (passRegs c r.eng) d e
  others : ∀ j, j ≠ c → e.ctxS j = d.ctxS j
  self : e.ctxS c = { (d.ctxS c).mend (writtenWord r.res) with run := none, cAt := d.gtc + 1 }
  free : e.get (R.LE_STAT r.eng) F.LE_STAT_RUN_CTX = 0xFF
  shown : Committed d e c r.snap.tr r.snap.stale r.res
  vec : d.dutyGrp c < 20 → d.pwmEn (d.dutyGrp c) = true → d.pwmDsrc (d.dutyGrp c) = true →
    (e.grpS (d.dutyGrp c)).nextVec = some (passDuties r.res 0, d.gtc)

theorem Dev.passCommit_spec {r : RunSt} (hc : c < 192) (hr : (d.ctxS c).run = some r) (hspec : r.spec = false) (ht : r.tc ≤ d.gtc)
    (hf : d.devState ≠ DS.FATAL) (hwf : r.res.wf) : PassDone d (d.passCommit c) c r := by
  have hp := passPart_part
  have h8 := r.eng.isLt
  have hne : ∀ a, 0x40100040 ≤ a ∨ a < 0x40060000 ∨ 0x40080000 ≤ a → a ≠ R.LE_STAT r.eng := fun a ha hx => by
    rw [R.LE_STAT] at hx
    omega
  rw [Dev.passCommit_eq hr hspec ht hf]
  have hu : FrameOn passPart (passRegs c r.eng) d ((d.setCtx c { d.ctxS c with run := none }).put (R.LE_STAT r.eng) F.LE_STAT_RUN_CTX 0xFF) :=
    ((FrameOn.refl hp _ d).ctxSet hp passPart_ctx c _).put hp _ _ leStat_pass
  have hfree := (d.setCtx c { d.ctxS c with run := none }).get_put_self (R.LE_STAT r.eng) F.LE_STAT_RUN_CTX 0xFF (by decide)
  have hself : ((d.setCtx c { d.ctxS c with run := none }).put (R.LE_STAT r.eng) F.LE_STAT_RUN_CTX 0xFF).ctxS c = { d.ctxS c with run := none } := by
    rw [Dev.ctxS_put, Dev.ctxS_setCtx_self]
  have hoth : ∀ j, j ≠ c → ((d.setCtx c { d.ctxS c with run := none }).put (R.LE_STAT r.eng) F.LE_STAT_RUN_CTX 0xFF).ctxS j = d.ctxS j := fun j hj => by
    rw [Dev.ctxS_put, Dev.ctxS_setCtx, if_neg hj]
  have hreg : ∀ a, a ≠ R.LE_STAT r.eng → ((d.setCtx c { d.ctxS c with run := none }).put (R.LE_STAT r.eng) F.LE_STAT_RUN_CTX 0xFF).reg a = d.reg a :=
    fun a ha => (Dev.reg_put_ne _ _ _ ha).trans (Dev.reg_setCtx _ _ _ _)
  have hmem : ((d.setCtx c { d.ctxS c with run := none }).put (R.LE_STAT r.eng) F.LE_STAT_RUN_CTX 0xFF).member = d.member := rfl
  have hgtc : ((d.setCtx c { d.ctxS c with run := none }).put (R.LE_STAT r.eng) F.LE_STAT_RUN_CTX 0xFF).gtc = d.gtc := rfl
  generalize (d.setCtx c { d.ctxS c with run := none }).put (R.LE_STAT r.eng) F.LE_STAT_RUN_CTX 0xFF = u at hu hfree hself hoth hreg hmem hgtc
  have k := u.ctxCommit_spec hc r.snap hwf false
  have hq := (u.ctxCommit c r.snap r.res false).ctxAnchor_quiet c
  generalize u.ctxCommit c r.snap r.res false = v at k hq
  generalize v.ctxAnchor c = w at hq
  have hruns : u.get (R.CTX_RUNS c) F.CTX_RUNS_SEQ = d.get (R.CTX_RUNS c) F.CTX_RUNS_SEQ :=
    Dev.get_of_reg (hreg _ (hne _ (.inl (by rw [R.CTX_RUNS]; omega)))) _
  have hshow := k.shown.kept (f := w) fun a ha => hq.reg (showRegs_in ha).1.event
  refine ⟨(hu.trans hp (k.frame.mono fun a ha => commit_pass ha)).quiet hp hq, fun j hj => ?_, ?_, ?_, ?_, fun h1 h2 h3 => ?_⟩
  · rw [hq.ctxS, k.others j hj, hoth j hj]
  · rw [hq.ctxS, k.self, hself, hgtc]
    rfl
  · rw [hq.get (leStat_event h8), Dev.get_of_reg (k.frame.reg hp (leStat_event h8) (leStat_commit h8 hc))]
    exact hfree
  · obtain ⟨s1, s2, s3, s4, s5⟩ := hshow
    exact Shown205.committed ⟨s1, s2, s3, s4, by rw [s5, hruns]⟩ fun hs => hq.raised (k.sat hs)
  · have htgt : u.dutyGrp c = d.dutyGrp c := Dev.get_of_reg (hreg _ (hne _ (.inl (by rw [R.CTX_TARGET]; omega)))) _
    have hpair : u.reg R.PWG_PAIR = d.reg R.PWG_PAIR := hreg _ (hne _ (.inr (.inr (by decide))))
    have hprim : u.primOf (d.dutyGrp c) = d.primOf (d.dutyGrp c) := by rw [Dev.primOf, Dev.primOf, hpair]
    have hen : u.pwmEn (d.dutyGrp c) = d.pwmEn (d.dutyGrp c) := by
      rw [Dev.pwmEn, Dev.pwmEn, hmem, Dev.pageEn, Dev.pageEn, Dev.flag_of_reg (hreg _ (hne _ (.inr (.inr (by simp only [R.PG_CTRL, pageBase, Pg.PWT]; omega)))))]
    have hsrc : u.pwmDsrc (d.dutyGrp c) = d.pwmDsrc (d.dutyGrp c) := by
      rw [Dev.pwmDsrc, Dev.pwmDsrc, Dev.cfgG, Dev.cfgG, hprim, Dev.flag_of_reg (hreg _ (hne _ (.inr (.inr (by simp only [R.PWT_CTRL]; omega)))))]
    have := k.vec rfl (by rw [htgt]; exact h1) (by rw [htgt, hen]; exact h2) (by rw [htgt, hsrc]; exact h3)
    rw [hq.grpS, ← htgt, this, hgtc]

end

end Sys2Proof.Machine
end

section
/-! PROOFS. How a speculation ends (R221, R235, R239 to R242). -/

namespace Sys2Proof.Machine

section
variable {d e f : Dev} {c a : Nat}

/-! ### Registers -/

/-- Registers that the end of a speculation writes. -/
def specRegs (c : Nat) : List Nat := R.CTX_SPEC c :: (List.range 20).map R.PWT_CNT

theorem spec_mem : R.CTX_SPEC c ∈ specRegs c := List.mem_cons_self
theorem cnt_spec {g : Nat} (hg : g < 20) : R.PWT_CNT g ∈ specRegs c := List.mem_cons_of_mem _ (List.mem_map_of_mem (List.mem_range.2 hg))

theorem specRegs_place (h : a ∈ specRegs c) : a = R.CTX_SPEC c ∨ 0x40080000 ≤ a ∧ a < 0x40100000 := by
  rw [specRegs, List.mem_cons, List.mem_map] at h
  obtain h | ⟨g, hg, rfl⟩ := h
  · exact .inl h
  · rw [List.mem_range] at hg
    rw [R.PWT_CNT]
    exact .inr (by omega)

theorem ctxSpec_in (c : Nat) : InCtx c (R.CTX_SPEC c) := ⟨0x28, by omega, by simp only [R.CTX_SPEC, R.CTX_CTRL]; omega⟩

theorem specRegs_apart (h : a < 0x40080000) : a ∉ specRegs c := fun hm => by
  obtain rfl | hm := specRegs_place hm
  · have := (ctxSpec_in c).le
    omega
  · omega

theorem showRegs_spec (h : a ∈ showRegs c) : a ∉ specRegs c := fun hm => by
  obtain ⟨h1, h2, -⟩ := showRegs_in h
  obtain rfl | hm := specRegs_place hm
  · exact h2 rfl
  · have := h1.le
    omega

theorem lecRaw_spec : R.PG_EVT_RAW Pg.LEC ∉ specRegs c := specRegs_apart (by decide)

theorem capPart_ctx : HoldsCtx capPart := fun _ _ _ => rfl

/-! ### The end -/

/-- A speculation has ended. -/
structure SpecOver (d e : Dev) (c : Nat) : Prop where
  frame : FrameOn capPart (specRegs c) d e
  others : ∀ j, j ≠ c → e.ctxS j = d.ctxS j
  self : ∃ p, e.ctxS c = { (d.ctxS c).mend (112 ≤ ·) with spec := none, pend := p } ∧ ((d.ctxS c).pend = none → p = none)

/-- The assessments that awaited the end. -/
def Dev.flushAll (d : Dev) (l : List TgtSt) : Dev := l.foldl (fun e t => if t.grp < 20 then e.minpFlush t.grp else e) d

theorem Dev.flushAll_frame (d : Dev) (l : List TgtSt) : FrameOn grpPart ((List.range 20).map R.PWT_CNT) d (d.flushAll l) := by
  rw [Dev.flushAll]
  refine foldl_keeps (P := FrameOn grpPart ((List.range 20).map R.PWT_CNT) d) (fun t _ e he => ?_) (FrameOn.refl grpPart_part _ d)
  exact FrameOn.ite (fun hg => FrameOn.minpFlush he (List.mem_map_of_mem (List.mem_range.2 hg))) fun _ => he

/-- STATE after the end: the pending pass that may follow. -/
def nextState (s : CtxSt) : Nat := s.pend.elim 0 fun p => b2n p.spec

/-- The record of a decision. -/
def Dev.specNoted (d : Dev) (c outcome cause td h commit : Nat) : Dev :=
  let data := [BitVec.ofNat 32 (outcome * 16 + cause), BitVec.ofNat 32 td, BitVec.ofNat 32 h, BitVec.ofNat 32 commit]
  d.emit { ty := 0x18, spec := true, res := c, tick := d.gtc, data := data }

/-- The outcome shown. -/
def Dev.outcomePut (d : Dev) (c outcome cause : Nat) : Dev :=
  (d.put (R.CTX_SPEC c) F.CTX_SPEC_OUTCOME outcome).put (R.CTX_SPEC c) F.CTX_SPEC_CAUSE cause

/-- The speculation taken from its context. -/
def Dev.specClear (d : Dev) (c : Nat) (s : CtxSt) : Dev :=
  (d.setCtx c { s.mend (112 ≤ ·) with spec := none }).put (R.CTX_SPEC c) F.CTX_SPEC_STATE (nextState s)

theorem Dev.specEnd_eq (d : Dev) (c outcome cause td commit : Nat) : ∃ h, d.specEnd c outcome cause td commit =
    ((((d.outcomePut c outcome cause).flushAll (d.ctxS c).tgt).specClear c (d.ctxS c)).specNoted c outcome cause td h commit).ctxReady c := by
  refine ⟨(d.ctxH c).getD 0, ?_⟩
  have hn : nextState (d.ctxS c) = match (d.ctxS c).pend with
    | some p => b2n p.spec
    | none => 0 := by
    rw [nextState]
    cases (d.ctxS c).pend <;> rfl
  rw [Dev.specEnd, Dev.specClear, hn]
  rfl

theorem Dev.ctxReady_pended (d : Dev) (c : Nat) : ∃ p, (d.ctxReady c).ctxS c = { d.ctxS c with pend := p } ∧ ((d.ctxS c).pend = none → p = none) := by
  cases hp : (d.ctxS c).pend with
  | none => exact ⟨none, by rw [Dev.ctxReady_idle hp, ← hp], fun _ => rfl⟩
  | some p =>
    rw [Dev.ctxReady]
    simp only [hp]
    split
    · exact ⟨_, by rw [Dev.ctxS_setCtx_self], fun h => absurd h (Option.some_ne_none p)⟩
    · exact ⟨some p, by rw [← hp], fun h => absurd h (Option.some_ne_none p)⟩

theorem Dev.outcomePut_get (d : Dev) (c outcome cause : Nat) : (d.outcomePut c outcome cause).get (R.CTX_SPEC c) F.CTX_SPEC_OUTCOME = outcome % 8 ∧
    (d.outcomePut c outcome cause).get (R.CTX_SPEC c) F.CTX_SPEC_CAUSE = cause % 16 ∧
    (d.outcomePut c outcome cause).get (R.CTX_SPEC c) F.CTX_SPEC_FB_RUN = d.get (R.CTX_SPEC c) F.CTX_SPEC_FB_RUN := by
  refine ⟨?_, ?_, ?_⟩
  · exact (Dev.get_put_field _ _ _ _ _ _ (by decide)).trans (Dev.get_put_self _ _ _ _ (by decide))
  · exact Dev.get_put_self _ _ _ _ (by decide)
  · exact (Dev.get_put_field _ _ _ _ _ _ (by decide)).trans (Dev.get_put_field _ _ _ _ _ _ (by decide))

/-- What the end of a speculation leaves, and what CTX_SPEC shows of it. -/
theorem Dev.specEnd_spec (d : Dev) (c outcome cause td commit : Nat) : SpecOver d (d.specEnd c outcome cause td commit) c ∧
    (d.specEnd c outcome cause td commit).get (R.CTX_SPEC c) F.CTX_SPEC_OUTCOME = outcome % 8 ∧
    (d.specEnd c outcome cause td commit).get (R.CTX_SPEC c) F.CTX_SPEC_CAUSE = cause % 16 ∧
    (d.specEnd c outcome cause td commit).get (R.CTX_SPEC c) F.CTX_SPEC_FB_RUN = d.get (R.CTX_SPEC c) F.CTX_SPEC_FB_RUN := by
  have hp := capPart_part
  obtain ⟨h, heq⟩ := d.specEnd_eq c outcome cause td commit
  rw [heq]
  clear heq
  have h1 : FrameOn capPart (specRegs c) d (d.outcomePut c outcome cause) := ((FrameOn.refl hp _ d).put hp _ _ spec_mem).put hp _ _ spec_mem
  have hc1 : ∀ j, (d.outcomePut c outcome cause).ctxS j = d.ctxS j := fun j => (Dev.ctxS_put _ _ _ _ _).trans (Dev.ctxS_put _ _ _ _ _)
  obtain ⟨g1, g2, g3⟩ := d.outcomePut_get c outcome cause
  generalize d.outcomePut c outcome cause = u at h1 hc1 g1 g2 g3
  have k := u.flushAll_frame (d.ctxS c).tgt
  have h2 := h1.trans hp (FrameOn.widen grpPart_part hp (fun _ _ => rfl) (fun a ha => List.mem_cons_of_mem _ ha) k)
  have hc2 : ∀ j, (u.flushAll (d.ctxS c).tgt).ctxS j = d.ctxS j := fun j => by rw [Dev.ctxS, k.grp_ctx]; exact hc1 j
  have hr2 : (u.flushAll (d.ctxS c).tgt).reg (R.CTX_SPEC c) = u.reg (R.CTX_SPEC c) := k.reg grpPart_part (ctxSpec_in c).event fun hm => by
    obtain ⟨g, hg, hgc⟩ := List.mem_map.1 hm
    rw [List.mem_range] at hg
    rw [R.PWT_CNT, R.CTX_SPEC] at hgc
    omega
  generalize u.flushAll (d.ctxS c).tgt = v at h2 hc2 hr2
  have h3 : FrameOn capPart (specRegs c) d (v.specClear c (d.ctxS c)) := (h2.ctxSet hp capPart_ctx c _).put hp _ _ spec_mem
  have hs3 : (v.specClear c (d.ctxS c)).ctxS c = { (d.ctxS c).mend (112 ≤ ·) with spec := none } := by
    rw [Dev.specClear, Dev.ctxS_put, Dev.ctxS_setCtx_self]
  have ho3 : ∀ j, j ≠ c → (v.specClear c (d.ctxS c)).ctxS j = d.ctxS j := fun j hj => by
    rw [Dev.specClear, Dev.ctxS_put, Dev.ctxS_setCtx, if_neg hj, hc2]
  have hg3 : ∀ x : RField, x.lo + fieldWidth x ≤ 30 → (v.specClear c (d.ctxS c)).get (R.CTX_SPEC c) x = u.get (R.CTX_SPEC c) x := fun x hx => by
    have hlo : F.CTX_SPEC_STATE.lo = 30 := rfl
    rw [Dev.specClear, Dev.get_put_field _ _ _ _ _ _ (.inr (by omega)), Dev.get_of_reg ((Dev.reg_setCtx _ _ _ _).trans hr2)]
  generalize v.specClear c (d.ctxS c) = w at h3 hs3 ho3 hg3
  have hq : Quiet w (w.specNoted c outcome cause td h commit) := Dev.emit_quiet _ _
  generalize w.specNoted c outcome cause td h commit = x at hq
  obtain ⟨p, hpend, hnone⟩ := x.ctxReady_pended c
  have hget : ∀ y : RField, y.lo + fieldWidth y ≤ 30 → (x.ctxReady c).get (R.CTX_SPEC c) y = u.get (R.CTX_SPEC c) y := fun y hy => by
    rw [Dev.get_of_reg (Dev.ctxReady_reg _), hq.get (ctxSpec_in c).event, hg3 y hy]
  refine ⟨⟨(h3.quiet hp hq).passReady hp capPart_ctx c, fun j hj => ?_, p, ?_, fun hn => hnone ?_⟩, (hget _ (by decide)).trans g1, (hget _ (by decide)).trans g2,
    (hget _ (by decide)).trans g3⟩
  · rw [Dev.ctxReady_ne hj, hq.ctxS, ho3 j hj]
  · rw [hpend, hq.ctxS, hs3]
  · rw [hq.ctxS, hs3]
    exact hn

/-! ### A fallback (R235) -/

/-- A speculation has fallen back with a cause. -/
structure Fell (d e : Dev) (c cause : Nat) : Prop extends SpecOver d e c where
  outcome : e.get (R.CTX_SPEC c) F.CTX_SPEC_OUTCOME = 3
  cause : e.get (R.CTX_SPEC c) F.CTX_SPEC_CAUSE = cause % 16
  raised : Raised e Pg.LEC Ev.SPEC_FALLBACK

/-- The counts of a fallback. -/
def Dev.fallCount (d : Dev) (c : Nat) : Dev := (d.bump (R.CTX_SPEC c) F.CTX_SPEC_FB_RUN).bump (R.CTX_SPEC c) F.CTX_SPEC_FB_CNT

/-- The suspension that a fallback may bring, with the events. -/
def Dev.fallEvents (d : Dev) (c : Nat) (reached : Bool) : Dev :=
  let u := (if reached then d.putB (R.CTX_SPEC c) F.CTX_SPEC_SUSP true else d).specEvent c Ev.SPEC_FALLBACK
  if reached then u.specEvent c Ev.SPEC_FB_LIMIT else u

theorem Dev.specFall_eq (d : Dev) (c cause : Nat) : ∃ reached td, d.specFall c cause = ((d.fallCount c).fallEvents c reached).specEnd c 3 cause td 0 := ⟨_, _, rfl⟩

theorem Dev.fallEvents_spec (d : Dev) (c : Nat) (reached : Bool) : FrameOn noPart [R.CTX_SPEC c] d (d.fallEvents c reached) ∧
    Raised (d.fallEvents c reached) Pg.LEC Ev.SPEC_FALLBACK := by
  have hn := noPart_part
  have h1 : FrameOn noPart [R.CTX_SPEC c] d (if reached then d.putB (R.CTX_SPEC c) F.CTX_SPEC_SUSP true else d) :=
    FrameOn.ite (fun _ => (FrameOn.refl hn _ d).putB hn _ _ (List.mem_singleton_self _)) fun _ => FrameOn.refl hn _ d
  rw [Dev.fallEvents]
  generalize (if reached then d.putB (R.CTX_SPEC c) F.CTX_SPEC_SUSP true else d) = u at h1
  have h2 := u.raiseN_quiet Pg.LEC Ev.SPEC_FALLBACK c
  have h3 : Raised (u.raiseN Pg.LEC Ev.SPEC_FALLBACK c) Pg.LEC Ev.SPEC_FALLBACK := Dev.raiseN_raised _ _ rfl
  dsimp only [Dev.specEvent]
  generalize u.raiseN Pg.LEC Ev.SPEC_FALLBACK c = v at h2 h3
  have h4 := v.raiseN_quiet Pg.LEC Ev.SPEC_FB_LIMIT c
  exact ⟨FrameOn.ite (fun _ => (h1.quiet hn h2).quiet hn h4) fun _ => h1.quiet hn h2,
    ite_both (P := fun x => Raised x Pg.LEC Ev.SPEC_FALLBACK) (fun _ => h4.raised h3) fun _ => h3⟩

theorem Dev.specFall_spec (d : Dev) (c cause : Nat) : Fell d (d.specFall c cause) c cause := by
  have hp := capPart_part
  obtain ⟨reached, td, heq⟩ := d.specFall_eq c cause
  obtain ⟨h1, h2⟩ := (d.fallCount c).fallEvents_spec c reached
  have h0 : FrameOn noPart [R.CTX_SPEC c] d (d.fallCount c) :=
    ((FrameOn.refl noPart_part _ d).bump noPart_part _ (List.mem_singleton_self _)).bump noPart_part _ (List.mem_singleton_self _)
  rw [heq]
  clear heq
  have h3 := h0.trans noPart_part h1
  generalize (d.fallCount c).fallEvents c reached = u at h2 h3
  have hc : ∀ j, u.ctxS j = d.ctxS j := fun j => by rw [Dev.ctxS, h3.no_ctx]; rfl
  obtain ⟨⟨k1, k2, p, k3, k4⟩, ho, hcause, -⟩ := u.specEnd_spec c 3 cause td 0
  refine ⟨⟨FrameOn.trans hp (FrameOn.widen noPart_part hp (fun _ _ => rfl) (fun a ha => ?_) h3) k1, fun j hj => (k2 j hj).trans (hc j), p, ?_, fun hn =>
    k4 (by rw [hc]; exact hn)⟩, ho, hcause, k1.raised hp lecRaw_spec h2⟩
  · rw [List.mem_singleton.1 ha]
    exact spec_mem
  · rw [k3, hc]

end

end Sys2Proof.Machine
end

section
/-! PROOFS. A speculative pass is staged (R224, R231, R235). -/

namespace Sys2Proof.Machine

section
variable {d e f : Dev} {c a : Nat}

/-! ### The decision looked at -/

/-- What lets a staged speculation be looked at: it waits for no recompute, nothing stands still, no predicted window is lost. -/
structure Watched (d : Dev) (c : Nat) (s : SpecSt) (t : Nat) : Prop where
  spec : (d.ctxS c).spec = some s
  staged : s.tst = some t
  norq : s.rq = none
  live : d.devState ≠ DS.FATAL
  held : d.engHeld (d.ctxEng c) = false
  stands : ∀ w ∈ s.wins, w.lost = false ∧ w.fOpen ≠ none

/-- Nothing holds back the look at a watched speculation. -/
theorem Watched.none_lost {s : SpecSt} {t : Nat} (h : Watched d c s t) : s.wins.any (fun w => w.lost || w.fOpen.isNone) = false := by
  rw [List.any_eq_false]
  intro w hw
  obtain ⟨k1, k2⟩ := h.stands w hw
  rw [k1, Bool.false_or, Option.isNone_iff_eq_none]
  exact k2

/-- One staged after its horizon falls back. -/
theorem Watched.late {s : SpecSt} {t x : Nat} (h : Watched d c s t) (hH : d.ctxH c = some x) (hx : x < t) : d.specTry c = d.specFall c 4 := by
  rw [Dev.specTry]
  simp only [h.spec, h.staged, hH]
  rw [h.norq, beq_eq_false_iff_ne.2 h.live, h.held, h.none_lost, if_neg (by decide), if_neg (by decide)]
  exact if_pos (decide_eq_true hx)

/-- A speculation staged in time that still awaits a window stands. -/
theorem Watched.waits {s : SpecSt} {t : Nat} (h : Watched d c s t) (hin : ∀ x, d.ctxH c = some x → t ≤ x ∧ ∀ w ∈ s.wins, ∀ y, w.done = some y → y ≤ x)
    (hopen : ∃ w ∈ s.wins, w.done = none) : d.specTry c = d := by
  obtain ⟨o, ho, hd⟩ := hopen
  have hopen : (s.wins.any fun w => w.done.isNone) = true := List.any_eq_true.2 ⟨o, ho, by rw [hd]; rfl⟩
  rw [Dev.specTry]
  simp only [h.spec, h.staged]
  rw [h.norq, beq_eq_false_iff_ne.2 h.live, h.held, h.none_lost, if_neg (by decide), if_neg (by decide)]
  cases hH : d.ctxH c with
  | none =>
    refine (if_neg Bool.false_ne_true).trans ((if_neg ?_).trans (if_pos hopen))
    rw [Bool.not_eq_true, List.any_eq_false]
    intro w _
    cases w.done <;> exact Bool.false_ne_true
  | some x =>
    obtain ⟨h1, h2⟩ := hin x hH
    refine (if_neg fun hlt => absurd (of_decide_eq_true hlt) (Nat.not_lt.2 h1)).trans ((if_neg ?_).trans (if_pos hopen))
    rw [Bool.not_eq_true, List.any_eq_false]
    intro w hw
    cases hy : w.done with
    | none => exact Bool.false_ne_true
    | some y => exact fun hlt => absurd (of_decide_eq_true hlt) (Nat.not_lt.2 (h2 w hw y hy))

/-! ### Staging -/

/-- The device with a speculation staged. -/
def Dev.stagedPut (d : Dev) (c : Nat) (r : RunSt) (q : SpecSt) : Dev :=
  ((d.setCtx c { (d.ctxS c).mend (112 ≤ ·) with run := none, spec := some { q with tst := some d.gtc } }).put (R.LE_STAT r.eng) F.LE_STAT_RUN_CTX 0xFF).put
    (R.CTX_SPEC c) F.CTX_SPEC_STATE 2

theorem Dev.specStage_eq {r : RunSt} {q : SpecSt} (hr : (d.ctxS c).run = some r) (hq : (d.ctxS c).spec = some q) (hs : r.spec = true) (ht : r.tc ≤ d.gtc)
    (hf : d.devState ≠ DS.FATAL) : ∃ u, Quiet (d.stagedPut c r q) u ∧ d.specStage c = u.specTry c := by
  rw [Dev.specStage]
  simp only [hr, hq]
  rw [hs, decide_eq_false (Nat.not_lt.2 ht), beq_eq_false_iff_ne.2 hf]
  exact ⟨_, Dev.emit_quiet _ _, rfl⟩

/-- A speculation has been staged. -/
structure Staged (d e : Dev) (c : Nat) (r : RunSt) (q : SpecSt) : Prop where
  frame : FrameOn loopPart [R.LE_STAT r.eng, R.CTX_SPEC c] d e
  others : ∀ j, j ≠ c → e.ctxS j = d.ctxS j
  self : e.ctxS c = { (d.ctxS c).mend (112 ≤ ·) with run := none, spec := some { q with tst := some d.gtc } }
  state : e.get (R.CTX_SPEC c) F.CTX_SPEC_STATE = 2
  free : e.get (R.LE_STAT r.eng) F.LE_STAT_RUN_CTX = 0xFF

theorem Staged.of {r : RunSt} {q : SpecSt} (hq : Quiet (d.stagedPut c r q) e) : Staged d e c r q := by
  have hp := loopPart_part
  have h8 := r.eng.isLt
  have hne : R.CTX_SPEC c ≠ R.LE_STAT r.eng := by
    rw [R.CTX_SPEC, R.LE_STAT]
    omega
  refine ⟨FrameOn.quiet hp ((((FrameOn.refl hp _ d).ctxSet hp loopPart_ctx c _).put hp _ _ (by simp)).put hp _ _ (by simp)) hq, fun j hj => ?_, ?_, ?_, ?_⟩
  · rw [hq.ctxS, Dev.stagedPut, Dev.ctxS_put, Dev.ctxS_put, Dev.ctxS_setCtx, if_neg hj]
  · rw [hq.ctxS, Dev.stagedPut, Dev.ctxS_put, Dev.ctxS_put, Dev.ctxS_setCtx_self]
  · rw [hq.get (ctxSpec_in c).event]
    exact Dev.get_put_self _ _ _ _ (by decide)
  · rw [hq.get (leStat_event h8)]
    exact (Dev.get_put_ne _ _ _ _ hne.symm).trans (Dev.get_put_self _ _ _ _ (by decide))

/-- Registers below the engines', those of a page's control and CTX_CTRL stand. -/
theorem Staged.regs {r : RunSt} {q : SpecSt} (k : Staged d e c r q) (ha : eventReg a = false) (hx : (a < 0x40061000 ∨ 0x40070000 ≤ a ∧ a < 0x40100000) ∨ a % 0x1000 < 0x40 ∨ a = R.CTX_CTRL c) :
    e.reg a = d.reg a := by
  have h8 := r.eng.isLt
  refine k.frame.reg loopPart_part ha fun hm => ?_
  rw [List.mem_cons, List.mem_singleton, R.LE_STAT, R.CTX_SPEC] at hm
  rw [R.CTX_CTRL] at hx
  obtain rfl | rfl := hm
  · omega
  · have hr : c % 8 < 8 := Nat.mod_lt _ (by decide)
    generalize c % 8 = y at hx hr
    interval_cases y <;> omega

/-- What decides whether a speculation is looked at rests on registers that a staging leaves. -/
theorem Staged.watched {r : RunSt} {q : SpecSt} (k : Staged d e c r q) (hrq : q.rq = none) (hf : d.devState ≠ DS.FATAL)
    (hh : d.engHeld (d.ctxEng c) = false) (hw : ∀ w ∈ q.wins, w.lost = false ∧ w.fOpen ≠ none) :
    Watched e c { q with tst := some d.gtc } d.gtc ∧ e.ctxH c = d.ctxH c := by
  have heng : e.ctxEng c = d.ctxEng c := Dev.get_of_reg (k.regs (InCtx.event ⟨0, by omega, rfl⟩) (.inr (.inr rfl))) _
  have hfr : ∀ p, e.frozen p = d.frozen p := fun p => by
    have h2 : R.PG_CTRL p % 0x1000 < 0x40 := by
      rw [R.PG_CTRL, pageBase]
      omega
    rw [Dev.frozen, Dev.frozen, Dev.flag_of_reg (k.regs (by decide) (.inl (by decide))), Dev.flag_of_reg (k.regs (eventReg_pgCtrl _) (.inr (.inl h2)))]
  refine ⟨⟨by rw [k.self], rfl, hrq, ?_, ?_, hw⟩, ?_⟩
  · rw [Dev.devState, Dev.get_of_reg (k.regs (by decide) (.inl (by decide)))]
    exact hf
  · rw [heng, Dev.engHeld, hfr, hfr]
    exact hh
  · rw [Dev.ctxH, k.self]
    rfl

end

end Sys2Proof.Machine
end

section
/-! PROOFS. Recomputes start (R234). -/

namespace Sys2Proof.Machine

section
variable {d e f : Dev} {c n x t : Nat}

theorem earliest_mem {l : List (Nat × Nat)} {p : Nat × Nat} (h : earliest l = some p) : p ∈ l := by
  induction l generalizing p with
  | nil => cases h
  | cons y r ih =>
    rw [earliest] at h
    cases hr : earliest r with
    | none =>
      rw [hr] at h
      rw [← Option.some.inj h]
      exact List.mem_cons_self
    | some z =>
      rw [hr] at h
      dsimp only at h
      split at h
      · rw [← Option.some.inj h]
        exact List.mem_cons_of_mem _ (ih hr)
      · rw [← Option.some.inj h]
        exact List.mem_cons_self

/-- A context whose recompute waits speculates. -/
theorem Dev.recompQueue_mem (h : (t, c) ∈ d.recompQueue n) : c < nCtx d.member ∧ ∃ q, (d.ctxS c).spec = some q := by
  rw [Dev.recompQueue, List.mem_filterMap] at h
  obtain ⟨x, hx, hm⟩ := h
  rw [List.mem_range] at hx
  cases hs : (d.ctxS x).spec with
  | none =>
    rw [hs] at hm
    cases hm
  | some q =>
    rw [hs] at hm
    dsimp only at hm
    cases hq : q.rq with
    | none =>
      rw [hq] at hm
      cases hm
    | some y =>
      rw [hq] at hm
      dsimp only at hm
      split at hm
      · obtain ⟨-, rfl⟩ := Prod.mk.inj (Option.some.inj hm)
        exact ⟨hx, q, hs⟩
      · cases hm

/-! ### One recompute -/

/-- The device with a recompute under way. -/
def Dev.recompPut (d : Dev) (n c : Nat) (q : SpecSt) : Dev :=
  ((d.setCtx c { d.ctxS c with spec := some { q with rend := some (d.gtc + 8 * q.recompFrames), reng := Fin.ofNat 8 n } }).put (R.LE_STAT n) F.LE_STAT_RCP_CTX
    c).specEvent c Ev.SPEC_RECOMPUTE

theorem Dev.recompTry_fits {q : SpecSt} (hq : (d.ctxS c).spec = some q) (hh : ∀ h, d.ctxH c = some h → d.gtc + 8 * q.recompFrames ≤ h) :
    d.recompTry n c = (d.recompPut n c q, true) := by
  rw [Dev.recompTry]
  simp only [hq]
  cases hH : d.ctxH c with
  | none => exact if_pos rfl
  | some h => exact if_pos (decide_eq_true (hh h hH))

theorem Dev.recompTry_late {q : SpecSt} {h : Nat} (hq : (d.ctxS c).spec = some q) (hH : d.ctxH c = some h) (hh : h < d.gtc + 8 * q.recompFrames) :
    d.recompTry n c = (d.specFall c 6, false) := by
  rw [Dev.recompTry]
  simp only [hq, hH]
  exact if_neg (by rw [decide_eq_false (Nat.not_le.2 hh)]; decide)

theorem Dev.recompTry_cases {q : SpecSt} (hq : (d.ctxS c).spec = some q) : d.recompTry n c = (d.recompPut n c q, true) ∨ d.recompTry n c = (d.specFall c 6, false) := by
  by_cases hh : ∀ h, d.ctxH c = some h → d.gtc + 8 * q.recompFrames ≤ h
  · exact .inl (Dev.recompTry_fits hq hh)
  · obtain ⟨h, hh⟩ := not_forall.1 hh
    obtain ⟨hH, hh⟩ := Classical.not_imp.1 hh
    exact .inr (Dev.recompTry_late hq hH (Nat.not_le.1 hh))

/-- A recompute is under way. -/
theorem Dev.recompPut_spec (d : Dev) (hn : n < 8) (hc : c < 192) (q : SpecSt) : FrameOn loopPart [R.LE_STAT n] d (d.recompPut n c q) ∧
    (∀ j, j ≠ c → (d.recompPut n c q).ctxS j = d.ctxS j) ∧
    (d.recompPut n c q).ctxS c = { d.ctxS c with spec := some { q with rend := some (d.gtc + 8 * q.recompFrames), reng := Fin.ofNat 8 n } } ∧
    (d.recompPut n c q).get (R.LE_STAT n) F.LE_STAT_RCP_CTX = c ∧ Raised (d.recompPut n c q) Pg.LEC Ev.SPEC_RECOMPUTE := by
  have hp := loopPart_part
  have hframe : FrameOn loopPart [R.LE_STAT n] d
      ((d.setCtx c { d.ctxS c with spec := some { q with rend := some (d.gtc + 8 * q.recompFrames), reng := Fin.ofNat 8 n } }).put (R.LE_STAT n)
        F.LE_STAT_RCP_CTX c) := ((FrameOn.refl hp _ d).ctxSet hp loopPart_ctx c _).put hp _ _ (List.mem_singleton_self _)
  have hself := Dev.ctxS_setCtx_self d c { d.ctxS c with spec := some { q with rend := some (d.gtc + 8 * q.recompFrames), reng := Fin.ofNat 8 n } }
  have hoth : ∀ j, j ≠ c → (d.setCtx c { d.ctxS c with spec := some { q with rend := some (d.gtc + 8 * q.recompFrames), reng := Fin.ofNat 8 n } }).ctxS j =
      d.ctxS j := fun j hj => by rw [Dev.ctxS_setCtx, if_neg hj]
  rw [Dev.recompPut]
  generalize d.setCtx c { d.ctxS c with spec := some { q with rend := some (d.gtc + 8 * q.recompFrames), reng := Fin.ofNat 8 n } } = u at hframe hself hoth
  have hgot : (u.put (R.LE_STAT n) F.LE_STAT_RCP_CTX c).get (R.LE_STAT n) F.LE_STAT_RCP_CTX = c :=
    (Dev.get_put_self _ _ _ _ (by decide)).trans (Nat.mod_eq_of_lt (hc.trans (by decide)))
  have hctx : ∀ j, (u.put (R.LE_STAT n) F.LE_STAT_RCP_CTX c).ctxS j = u.ctxS j := fun j => Dev.ctxS_put _ _ _ _ _
  generalize u.put (R.LE_STAT n) F.LE_STAT_RCP_CTX c = v at hframe hgot hctx
  have hq := v.raiseN_quiet Pg.LEC Ev.SPEC_RECOMPUTE c
  have hr : Raised (v.raiseN Pg.LEC Ev.SPEC_RECOMPUTE c) Pg.LEC Ev.SPEC_RECOMPUTE := Dev.raiseN_raised _ _ rfl
  rw [Dev.specEvent]
  refine ⟨hframe.quiet hp hq, fun j hj => ?_, ?_, ?_, hr⟩
  · rw [hq.ctxS, hctx, hoth j hj]
  · rw [hq.ctxS, hctx, hself]
  · rw [hq.get (leStat_event hn), hgot]

/-! ### The queue served -/

/-- A context has fallen back for want of time. -/
def FellFor (c cause : Nat) (e : Dev) : Prop :=
  (e.ctxS c).spec = none ∧ e.get (R.CTX_SPEC c) F.CTX_SPEC_OUTCOME = 3 ∧ e.get (R.CTX_SPEC c) F.CTX_SPEC_CAUSE = cause ∧ Raised e Pg.LEC Ev.SPEC_FALLBACK

theorem Fell.fellFor {cause : Nat} (k : Fell d e c cause) (hc : cause < 16) : FellFor c cause e := by
  obtain ⟨p, hp, -⟩ := k.self
  exact ⟨by rw [hp], k.outcome, k.cause.trans (Nat.mod_eq_of_lt hc), k.raised⟩

theorem FellFor.kept {cause : Nat} (h : FellFor c cause d) (hs : e.ctxS c = d.ctxS c) (hr : e.reg (R.CTX_SPEC c) = d.reg (R.CTX_SPEC c))
    (hraised : Raised d Pg.LEC Ev.SPEC_FALLBACK → Raised e Pg.LEC Ev.SPEC_FALLBACK) : FellFor c cause e := by
  obtain ⟨h1, h2, h3, h4⟩ := h
  exact ⟨by rw [hs]; exact h1, (Dev.get_of_reg hr _).trans h2, (Dev.get_of_reg hr _).trans h3, hraised h4⟩

theorem ctxSpec_ne (h : c ≠ x) : R.CTX_SPEC c ≠ R.CTX_SPEC x := by
  rw [R.CTX_SPEC, R.CTX_SPEC]
  omega

/-- What another context's turn leaves. -/
theorem FellFor.recompTry {cause : Nat} (h : FellFor c cause d) (hn : n < 8) (hx : x < 192) {q : SpecSt} (hq : (d.ctxS x).spec = some q) (hne : x ≠ c) :
    FellFor c cause (d.recompTry n x).1 := by
  have hev := (ctxSpec_in c).event
  obtain ht | ht := Dev.recompTry_cases (n := n) hq
  · obtain ⟨h1, h2, -⟩ := d.recompPut_spec hn hx q
    rw [ht]
    refine h.kept (h2 c hne.symm) (h1.reg loopPart_part hev fun hm => ?_) fun hr => h1.raised loopPart_part (fun hm => ?_) hr
    · have := List.mem_singleton.1 hm
      rw [R.CTX_SPEC, R.LE_STAT] at this
      omega
    · have := List.mem_singleton.1 hm
      rw [R.LE_STAT] at this
      simp only [R.PG_EVT_RAW, pageBase, Pg.LEC] at this
      omega
  · have k := d.specFall_spec x 6
    rw [ht]
    refine h.kept (k.others c hne.symm) (k.frame.reg capPart_part hev fun hm => ?_) fun hr => k.frame.raised capPart_part lecRaw_spec hr
    obtain hm | hm := specRegs_place hm
    · exact ctxSpec_ne hne.symm hm
    · have := (ctxSpec_in c).le
      omega

theorem Dev.recompServe_some {m : Nat} {p : Nat × Nat} (h : earliest (d.recompQueue n) = some p) :
    d.recompServe n (m + 1) = if (d.recompTry n p.2).2 then (d.recompTry n p.2).1 else (d.recompTry n p.2).1.recompServe n m := by
  rw [Dev.recompServe]
  simp only [h]

theorem Dev.recompServe_none {m : Nat} (h : earliest (d.recompQueue n) = none) : d.recompServe n (m + 1) = d := by
  rw [Dev.recompServe]
  simp only [h]

theorem FellFor.recompServe {cause : Nat} (hn : n < 8) (m : Nat) (h : FellFor c cause d) : FellFor c cause (d.recompServe n m) := by
  induction m generalizing d with
  | zero => exact h
  | succ m ih =>
    cases he : earliest (d.recompQueue n) with
    | none =>
      rw [Dev.recompServe_none he]
      exact h
    | some p =>
      obtain ⟨hx, q, hq⟩ := Dev.recompQueue_mem (earliest_mem he)
      have hne : p.2 ≠ c := fun hpc => by
        rw [hpc, h.1] at hq
        cases hq
      have hk := h.recompTry hn (hx.trans_le (nCtx_le _)) hq hne
      rw [Dev.recompServe_some he]
      exact ite_both (P := FellFor c cause) (fun _ => hk) fun _ => ih hk

theorem Dev.recompStart_eq (hn : n < nEngines d.member) (hon : d.engOn n = true) (h8 : d.gtc % 8 = 0) (hfree : d.get (R.LE_STAT n) F.LE_STAT_RCP_CTX = 0xFF) :
    d.recompStart n = d.recompServe n (nCtx d.member) := by
  rw [Dev.recompStart, decide_eq_true hn, hon, h8, hfree]
  rfl

/-- The earliest that waits is served first. -/
theorem Dev.recompServe_first (h : earliest (d.recompQueue n) = some (t, c)) : ∃ m, d.recompServe n (nCtx d.member) =
    if (d.recompTry n c).2 then (d.recompTry n c).1 else (d.recompTry n c).1.recompServe n m := by
  obtain ⟨m, hm⟩ := Nat.exists_eq_succ_of_ne_zero (Nat.ne_of_gt (Nat.zero_lt_of_lt (Dev.recompQueue_mem (earliest_mem h)).1))
  exact ⟨m, by rw [hm, Dev.recompServe_some h]⟩

end

end Sys2Proof.Machine
end

section
/-! PROOFS. Recomputes commit (R233, R234), and what speculation does in all. -/

namespace Sys2Proof.Machine

section
variable {d e f : Dev} {c a t : Nat}

/-! ### Reads of a commit -/

/-- Only what contexts have read has changed, of one context. -/
structure ReadOnly (c : Nat) (d e : Dev) : Prop where
  frame : FrameOn loopPart [] d e
  reg : ∀ a, e.reg a = d.reg a
  others : ∀ j, j ≠ c → e.ctxS j = d.ctxS j

theorem ReadOnly.refl (c : Nat) (d : Dev) : ReadOnly c d d := ⟨FrameOn.refl loopPart_part _ d, fun _ => rfl, fun _ _ => rfl⟩

theorem ReadOnly.setCtx (h : ReadOnly c d e) (q : CtxSt) : ReadOnly c d (e.setCtx c q) :=
  ⟨h.frame.ctxSet loopPart_part loopPart_ctx c q, fun a => (Dev.reg_setCtx _ _ _ _).trans (h.reg a), fun j hj => by
    rw [Dev.ctxS_setCtx, if_neg hj]
    exact h.others j hj⟩

theorem Dev.specReads_only (d : Dev) (c : Nat) (s : SpecSt) : ReadOnly c d (d.specReads c s) := by
  rw [Dev.specReads]
  exact foldl_keeps (P := ReadOnly c d) (fun w _ e he => he.setCtx _) ((ReadOnly.refl c d).setCtx _)

/-! ### The commit of a speculation -/

/-- What precedes the commit of a speculation. -/
def Dev.slackAt (d : Dev) (c : Nat) : Dev := if d.ctxH c = some d.gtc then d.zeroSlack 5 (d.dutyGrp c) else d

theorem Dev.slackAt_run (d : Dev) (c : Nat) : TargetRun d (d.slackAt c) := by
  rw [Dev.slackAt]
  exact ite_both (P := TargetRun d) (fun _ => ((d.zeroSlack_step (ks := [0]) 5 _).target (by decide)).1) fun _ => .refl d

theorem Dev.specCommit_eq (d : Dev) (c outcome cause td : Nat) (s : SpecSt) (res : PassSt) : ∃ commit, d.specCommit c outcome cause td s res =
    (((((d.slackAt c).ctxCommit c s.snap res true).specReads c s).put (R.CTX_SPEC c) F.CTX_SPEC_FB_RUN 0).specEnd c outcome cause td commit).ctxAnchor c :=
  ⟨_, rfl⟩

/-- A speculation has committed a result. -/
structure SpecDone (d e : Dev) (c outcome : Nat) (s : SpecSt) (res : PassSt) : Prop where
  frame : FrameOn passPart (commitRegs c ++ targetRegs ++ specRegs c) d e
  others : ∀ j, j ≠ c → e.ctxS j = d.ctxS j
  spec : (e.ctxS c).spec = none
  outcome : e.get (R.CTX_SPEC c) F.CTX_SPEC_OUTCOME = outcome % 8
  fbRun : e.get (R.CTX_SPEC c) F.CTX_SPEC_FB_RUN = 0
  shown : Committed d e c s.snap.tr s.snap.stale res

theorem Dev.specCommit_spec (d : Dev) (hc : c < 192) (outcome cause td : Nat) (s : SpecSt) {res : PassSt} (hwf : res.wf) :
    SpecDone d (d.specCommit c outcome cause td s res) c outcome s res := by
  have hp := passPart_part
  obtain ⟨commit, heq⟩ := d.specCommit_eq c outcome cause td s res
  rw [heq]
  clear heq
  have hz := d.slackAt_run c
  generalize d.slackAt c = u at hz
  have hruns : u.get (R.CTX_RUNS c) F.CTX_RUNS_SEQ = d.get (R.CTX_RUNS c) F.CTX_RUNS_SEQ :=
    Dev.get_of_reg (hz.frame.reg hp (showRegs_in runs_show).1.event (showRegs_in runs_show).1.target) _
  have k := u.ctxCommit_spec hc s.snap hwf true
  generalize u.ctxCommit c s.snap res true = v at k
  have hr := v.specReads_only c s
  generalize v.specReads c s = w at hr
  have hput : ∀ a, a ≠ R.CTX_SPEC c → (w.put (R.CTX_SPEC c) F.CTX_SPEC_FB_RUN 0).reg a = v.reg a := fun a ha => (Dev.reg_put_ne _ _ _ ha).trans (hr.reg a)
  have hfb : (w.put (R.CTX_SPEC c) F.CTX_SPEC_FB_RUN 0).get (R.CTX_SPEC c) F.CTX_SPEC_FB_RUN = 0 := Dev.get_put_self _ _ _ _ (by decide)
  have hctx : ∀ j, j ≠ c → (w.put (R.CTX_SPEC c) F.CTX_SPEC_FB_RUN 0).ctxS j = v.ctxS j := fun j hj => (Dev.ctxS_put _ _ _ _ _).trans (hr.others j hj)
  have hfw : FrameOn loopPart [R.CTX_SPEC c] v (w.put (R.CTX_SPEC c) F.CTX_SPEC_FB_RUN 0) :=
    FrameOn.put loopPart_part (hr.frame.mono fun _ ha => absurd ha List.not_mem_nil) _ _ (List.mem_singleton_self _)
  generalize w.put (R.CTX_SPEC c) F.CTX_SPEC_FB_RUN 0 = x at hput hfb hctx hfw
  obtain ⟨⟨e1, e2, p, e3, -⟩, ho, -, hf⟩ := x.specEnd_spec c outcome cause td commit
  generalize x.specEnd c outcome cause td commit = y at e1 e2 e3 ho hf
  have hq := y.ctxAnchor_quiet c
  generalize y.ctxAnchor c = z at hq
  have hfx : FrameOn passPart (commitRegs c ++ targetRegs ++ specRegs c) d x :=
    ((hz.frame.mono fun a ha => List.mem_append_left _ (List.mem_append_right _ ha)).trans hp (k.frame.mono fun a ha => List.mem_append_left _ ha)).trans hp
      (FrameOn.widen loopPart_part hp (fun _ _ => rfl) (fun a ha => by
        rw [List.mem_singleton.1 ha]; exact List.mem_append_right _ spec_mem) hfw)
  have hshow : ∀ a ∈ showRegs c, z.reg a = v.reg a := fun a ha => by
    rw [hq.reg (showRegs_in ha).1.event, e1.reg capPart_part (showRegs_in ha).1.event (showRegs_spec ha), hput a (showRegs_in ha).2.1]
  refine ⟨(hfx.trans hp (FrameOn.widen capPart_part hp (fun _ _ => rfl) (fun a ha => List.mem_append_right _ ha) e1)).quiet hp hq, fun j hj => ?_, ?_, ?_, ?_, ?_⟩
  · rw [hq.ctxS, e2 j hj, hctx j hj, k.others j hj, hz.ctxS]
  · rw [hq.ctxS, e3]
  · rw [hq.get (ctxSpec_in c).event, ho]
  · rw [hq.get (ctxSpec_in c).event, hf, hfb]
  · obtain ⟨s1, s2, s3, s4, s5⟩ := k.shown.kept hshow
    refine Shown205.committed ⟨s1, s2, s3, s4, by rw [s5, hruns]⟩ fun hs => hq.raised (e1.raised capPart_part lecRaw_spec ?_)
    refine hfw.raised loopPart_part (fun hm => ?_) (k.sat hs)
    have := List.mem_singleton.1 hm
    simp only [R.CTX_SPEC, R.PG_EVT_RAW, pageBase, Pg.LEC] at this
    omega

/-! ### A recompute ends -/

theorem Dev.recompCommit_eq {q : SpecSt} (hq : (d.ctxS c).spec = some q) (hr : q.rend = some t) (ht : t ≤ d.gtc) (hf : d.devState ≠ DS.FATAL) :
    ∃ cause td, d.recompCommit c = (d.put (R.LE_STAT q.reng) F.LE_STAT_RCP_CTX 0xFF).specCommit c 2 cause td q (d.recompResult q) := by
  rw [Dev.recompCommit]
  simp only [hq, hr]
  exact ⟨_, _, if_neg (not_or.2 ⟨Nat.not_lt.2 ht, hf⟩)⟩

/-- What the end of a recompute leaves. -/
structure RecompDone (d e : Dev) (c : Nat) (q : SpecSt) : Prop where
  frame : FrameOn passPart (passRegs c q.reng) d e
  others : ∀ j, j ≠ c → e.ctxS j = d.ctxS j
  spec : (e.ctxS c).spec = none
  free : e.get (R.LE_STAT q.reng) F.LE_STAT_RCP_CTX = 0xFF
  outcome : e.get (R.CTX_SPEC c) F.CTX_SPEC_OUTCOME = 2
  fbRun : e.get (R.CTX_SPEC c) F.CTX_SPEC_FB_RUN = 0
  shown : Committed d e c q.snap.tr q.snap.stale (d.recompResult q)

theorem spec_passRegs {n : Nat} (h : a ∈ specRegs c) : a ∈ passRegs c n := by
  obtain rfl | ha := List.mem_cons.1 h
  · exact spec_pass
  · obtain ⟨g, hg, rfl⟩ := List.mem_map.1 ha
    exact commit_pass (List.mem_append_right _ (late_target (List.mem_range.1 hg) cnt_late))

theorem Dev.recompCommit_spec {q : SpecSt} (hc : c < 192) (hq : (d.ctxS c).spec = some q) (hr : q.rend = some t) (ht : t ≤ d.gtc)
    (hf : d.devState ≠ DS.FATAL) (hwf : (d.recompResult q).wf) : RecompDone d (d.recompCommit c) c q := by
  have hp := passPart_part
  have h8 := q.reng.isLt
  obtain ⟨cause, td, heq⟩ := Dev.recompCommit_eq hq hr ht hf
  rw [heq]
  clear heq
  have hu : FrameOn passPart (passRegs c q.reng) d (d.put (R.LE_STAT q.reng) F.LE_STAT_RCP_CTX 0xFF) := (FrameOn.refl hp _ d).put hp _ _ leStat_pass
  have hfree := d.get_put_self (R.LE_STAT q.reng) F.LE_STAT_RCP_CTX 0xFF (by decide)
  have hctx : ∀ j, (d.put (R.LE_STAT q.reng) F.LE_STAT_RCP_CTX 0xFF).ctxS j = d.ctxS j := fun j => Dev.ctxS_put _ _ _ _ _
  have hruns : (d.put (R.LE_STAT q.reng) F.LE_STAT_RCP_CTX 0xFF).get (R.CTX_RUNS c) F.CTX_RUNS_SEQ = d.get (R.CTX_RUNS c) F.CTX_RUNS_SEQ :=
    Dev.get_put_ne _ _ _ _ (by rw [R.CTX_RUNS, R.LE_STAT]; omega)
  generalize d.put (R.LE_STAT q.reng) F.LE_STAT_RCP_CTX 0xFF = u at hu hfree hctx hruns
  have k := u.specCommit_spec hc 2 cause td q hwf
  refine ⟨hu.trans hp (k.frame.mono fun a ha => ?_), fun j hj => (k.others j hj).trans (hctx j), k.spec, ?_, k.outcome, k.fbRun, ?_⟩
  · obtain ha | ha := List.mem_append.1 ha
    · exact commit_pass ha
    · exact spec_passRegs ha
  · rw [Dev.get_of_reg (k.frame.reg hp (leStat_event h8) fun hm => ?_)]
    · exact hfree
    · obtain hm | hm := List.mem_append.1 hm
      · exact leStat_commit h8 hc hm
      · exact specRegs_apart (by rw [R.LE_STAT]; omega) hm
  · obtain ⟨s1, s2, s3, s4, s5, s6⟩ := k.shown
    exact ⟨s1, s2, s3, s4, by rw [s5, hruns], s6⟩

end

/-- What the engine of a present context does for it, where nothing stands still. -/
theorem Dev.onCtx_runs {d : Dev} {c : Nat} (hc : c < nCtx d.member) (hh : d.engHeld (d.ctxEng c) = false) (f : Dev → Dev) : d.onCtx c f = f d := by
  rw [Dev.onCtx, Dev.ctxPresent, decide_eq_true hc, hh]
  rfl

/-- Settles O31: a staging by what lets the decision be looked at, a start by the queue served, an end by the commit of its result. -/
theorem speculation : Obligations.Speculation := by
  intro s hs
  refine ⟨fun c r q hc hr hq hspec ht hf hh hrq hw => ?_, fun n c t q hn hon h8 hfree he hq => ?_, fun c t q hc hq hr ht hf hh hwf => ?_⟩
  · obtain ⟨u, hu, heq⟩ := Dev.specStage_eq hr hq hspec ht hf
    have k := Staged.of hu
    obtain ⟨hwatch, hH⟩ := k.watched hrq hf hh hw
    refine ⟨fun hin hopen => ?_, fun h hh' hlt => ?_⟩
    · have hstay : u.specTry c = u := hwatch.waits (by rw [hH]; exact hin) hopen
      exact ⟨_, onPart_eq hs ((Dev.onCtx_runs hc hh _).trans (heq.trans hstay)), k.frame, k.others, k.self, k.state, k.free⟩
    · have hfall := hwatch.late (hH.trans hh') hlt
      have l := u.specFall_spec c 4
      refine ⟨_, onPart_eq hs ((Dev.onCtx_runs hc hh _).trans (heq.trans hfall)), ?_, fun j hj => (l.others j hj).trans (k.others j hj), ?_, l.fellFor (by decide)⟩
      · refine FrameOn.trans capPart_part (FrameOn.widen loopPart_part capPart_part (fun _ _ => rfl) (fun a ha => ?_) k.frame) (l.frame.mono fun a ha => ?_)
        · exact List.mem_append_left _ ha
        · rw [specRegs, List.mem_cons] at ha
          obtain rfl | ha := ha
          · exact List.mem_append_left _ (by simp)
          · exact List.mem_append_right _ ha
      · obtain ⟨p, hp, -⟩ := l.self
        rw [hp, k.self]
        rfl
  · have hn8 : n < 8 := hn.trans_le (by cases s.dev.member <;> decide)
    have hc := (Dev.recompQueue_mem (earliest_mem he)).1
    obtain ⟨m, hserve⟩ := Dev.recompServe_first he
    have heq := (Dev.recompStart_eq hn hon h8 hfree).trans hserve
    refine ⟨fun hfits => ?_, fun h hh hlt => ?_⟩
    · rw [Dev.recompTry_fits hq hfits, if_pos rfl] at heq
      exact ⟨_, onPart_eq hs heq, s.dev.recompPut_spec hn8 (hc.trans_le (nCtx_le _)) q⟩
    · rw [Dev.recompTry_late hq hh hlt, if_neg Bool.false_ne_true] at heq
      exact ⟨_, onPart_eq hs heq, ((s.dev.specFall_spec c 6).fellFor (by decide)).recompServe hn8 m⟩
  · have k := Dev.recompCommit_spec (hc.trans_le (nCtx_le _)) hq hr ht hf hwf
    exact ⟨_, onPart_eq hs (Dev.onCtx_runs hc hh _), k.frame, k.others, k.spec, k.free, k.outcome, k.fbRun, k.shown⟩

end Sys2Proof.Machine
end

section
/-! PROOFS. Words of the store that fail: corrected, or a context abandoned (R211, R237). -/

namespace Sys2Proof.Machine

section
variable {d e f : Dev} {c a n : Nat}

/-! ### Registers -/

/-- The engines' status that a context abandoned leaves free. -/
def engRegs (s : CtxSt) : List Nat := (s.run.toList.map fun r => R.LE_STAT r.eng) ++ s.spec.toList.map fun q => R.LE_STAT q.reng

/-- Registers that a context abandoned writes. -/
def uncorrRegs (c : Nat) (s : CtxSt) : List Nat :=
  [R.CTX_CTRL c, R.CTX_STAT c, R.CTX_SPEC c, R.LEC_ECC, R.LEC_FLAG (c / 32)] ++ engRegs s ++ (List.range 20).map R.PWT_CNT

/-- Of them those of the pass and of the speculation. -/
def haltRegs (c : Nat) (s : CtxSt) : List Nat := specRegs c ++ engRegs s

theorem engRegs_le {s : CtxSt} (h : a ∈ engRegs s) : ∃ n, n < 8 ∧ a = R.LE_STAT n := by
  obtain h | h := List.mem_append.1 h
  · obtain ⟨r, -, rfl⟩ := List.mem_map.1 h
    exact ⟨_, r.eng.isLt, rfl⟩
  · obtain ⟨q, -, rfl⟩ := List.mem_map.1 h
    exact ⟨_, q.reng.isLt, rfl⟩

theorem head_uncorr {s : CtxSt} (h : a ∈ [R.CTX_CTRL c, R.CTX_STAT c, R.CTX_SPEC c, R.LEC_ECC, R.LEC_FLAG (c / 32)]) : a ∈ uncorrRegs c s :=
  List.mem_append_left _ (List.mem_append_left _ h)
theorem halt_uncorr {s : CtxSt} (h : a ∈ haltRegs c s) : a ∈ uncorrRegs c s := by
  obtain h | h := List.mem_append.1 h
  · obtain rfl | h := List.mem_cons.1 h
    · exact head_uncorr (by simp)
    · exact List.mem_append_right _ h
  · exact List.mem_append_left _ (List.mem_append_right _ h)

theorem uncorrRegs_place {s : CtxSt} (h : a ∈ uncorrRegs c s) : a ∈ [R.CTX_CTRL c, R.CTX_STAT c, R.CTX_SPEC c, R.LEC_ECC, R.LEC_FLAG (c / 32)] ∨
    (∃ n, n < 8 ∧ a = R.LE_STAT n) ∨ 0x40080000 ≤ a ∧ a < 0x40100000 := by
  obtain h | h := List.mem_append.1 h
  · obtain h | h := List.mem_append.1 h
    · exact .inl h
    · exact .inr (.inl (engRegs_le h))
  · obtain ⟨g, hg, rfl⟩ := List.mem_map.1 h
    rw [List.mem_range] at hg
    rw [R.PWT_CNT]
    exact .inr (.inr (by omega))

theorem lecRaw_uncorr {s : CtxSt} : R.PG_EVT_RAW Pg.LEC ∉ uncorrRegs c s := fun hm => by
  have hraw : R.PG_EVT_RAW Pg.LEC = 0x40060010 := by decide
  rw [hraw] at hm
  obtain h | ⟨n, -, h⟩ | h := uncorrRegs_place hm
  · simp only [List.mem_cons, List.not_mem_nil, or_false, R.CTX_CTRL, R.CTX_STAT, R.CTX_SPEC, R.LEC_ECC, R.LEC_FLAG] at h
    omega
  · rw [R.LE_STAT] at h
    omega
  · omega

/-! ### A context abandoned -/

/-- The running pass ended. -/
def Dev.runEnd (d : Dev) (s : CtxSt) (c : Nat) : Dev :=
  s.run.elim d fun r => (d.put (R.LE_STAT r.eng) F.LE_STAT_RUN_CTX 0xFF).passRecordAt c 5 r.snap.tr r.snap.stale

/-- The engine that a recompute leaves. -/
def Dev.rcpEnd (d : Dev) (p : SpecSt) : Dev := if p.rend.isSome then d.put (R.LE_STAT p.reng) F.LE_STAT_RCP_CTX 0xFF else d

/-- A speculation aborted. -/
def Dev.specAbort (d : Dev) (s : CtxSt) (c : Nat) (p : SpecSt) : Dev :=
  let u := (d.rcpEnd p).setCtx c { s with pend := none, run := none }
  (u.specEnd c 4 7 u.gtc 0).specEvent c Ev.SPEC_ABORT

/-- The speculation aborted, or the pending pass discarded. -/
def Dev.specStop (d : Dev) (s : CtxSt) (c : Nat) : Dev :=
  s.spec.elim ((d.ctxDiscard c).setCtx c { (d.ctxDiscard c).ctxS c with run := none }) (d.specAbort s c)

/-- The error shown. -/
def Dev.eccShown (d : Dev) (c : Nat) : Dev :=
  ((((d.putB (R.CTX_CTRL c) F.CTX_CTRL_EN false).putB (R.CTX_STAT c) F.CTX_STAT_ECC_ERR true).bump R.LEC_ECC F.LEC_ECC_UNCORR).put R.LEC_ECC
    F.LEC_ECC_LAST_CTX c).ctxEvent c Ev.CTX_ECC

theorem Dev.ctxUncorr_eq (d : Dev) (c : Nat) : d.ctxUncorr c = ((d.runEnd (d.ctxS c) c).specStop (d.ctxS c) c).eccShown c := by
  rw [Dev.ctxUncorr]
  generalize d.ctxS c = s
  obtain ⟨seen, pend, run, spec, tgt, cAt, prog, bad, soft, preset⟩ := s
  cases run with
  | none => cases spec <;> rfl
  | some r => cases spec <;> rfl

/-- A context abandoned keeps which of its words fail, but for the staged ones. -/
structure Left211 (s r : CtxSt) : Prop where
  rest : r = { s with pend := none, run := none, spec := none, bad := r.bad, soft := r.soft }
  old : ∀ w ∈ r.bad, w ∈ s.bad
  kept : ∀ w ∈ s.bad, s.spec = none ∨ w < 112 → w ∈ r.bad

theorem Dev.runEnd_frame (d : Dev) (s : CtxSt) (c : Nat) : FrameOn capPart (haltRegs c s) d (d.runEnd s c) ∧ (∀ j, (d.runEnd s c).ctxS j = d.ctxS j) ∧
    (∀ n, n < 8 → d.get (R.LE_STAT n) F.LE_STAT_RUN_CTX = 0xFF → (d.runEnd s c).get (R.LE_STAT n) F.LE_STAT_RUN_CTX = 0xFF) := by
  have hp := capPart_part
  rw [Dev.runEnd]
  cases hr : s.run with
  | none => exact ⟨FrameOn.refl hp _ d, fun _ => rfl, fun _ _ h => h⟩
  | some r =>
    have hmem : R.LE_STAT r.eng ∈ haltRegs c s := List.mem_append_right _ (List.mem_append_left _ (by rw [hr]; simp))
    have hq : ∀ u : Dev, Quiet u (u.passRecordAt c 5 r.snap.tr r.snap.stale) := fun u => u.emit_quiet _
    refine ⟨((FrameOn.refl hp _ d).put hp _ _ hmem).quiet hp (hq _), fun j => ((hq _).ctxS j).trans (Dev.ctxS_put _ _ _ _ _), fun n hn h => ?_⟩
    refine ((hq _).get (leStat_event hn) _).trans ?_
    by_cases hne : R.LE_STAT n = R.LE_STAT r.eng
    · rw [hne]
      exact Dev.get_put_self _ _ _ _ (by decide)
    · exact (Dev.get_put_ne _ _ _ _ hne).trans h

theorem Dev.rcpEnd_frame (d : Dev) {s : CtxSt} {p : SpecSt} (hp : s.spec = some p) (c : Nat) : FrameOn capPart (haltRegs c s) d (d.rcpEnd p) ∧
    (∀ n, (d.rcpEnd p).get (R.LE_STAT n) F.LE_STAT_RUN_CTX = d.get (R.LE_STAT n) F.LE_STAT_RUN_CTX) ∧ ∀ j, (d.rcpEnd p).ctxS j = d.ctxS j := by
  have hmem : R.LE_STAT p.reng ∈ haltRegs c s := List.mem_append_right _ (List.mem_append_right _ (by rw [hp]; simp))
  rw [Dev.rcpEnd]
  refine ⟨FrameOn.ite (fun _ => (FrameOn.refl capPart_part _ d).put capPart_part _ _ hmem) fun _ => FrameOn.refl capPart_part _ d, fun n => ?_, fun j => ?_⟩
  · exact ite_both (P := fun u : Dev => u.get (R.LE_STAT n) F.LE_STAT_RUN_CTX = d.get (R.LE_STAT n) F.LE_STAT_RUN_CTX)
      (fun _ => Dev.get_put_field _ _ _ _ _ _ (by decide)) fun _ => rfl
  · exact ite_both (P := fun u : Dev => u.ctxS j = d.ctxS j) (fun _ => Dev.ctxS_put _ _ _ _ _) fun _ => rfl

theorem leStat_spec (n : Nat) (hn : n < 8) : R.LE_STAT n ∉ specRegs c := specRegs_apart (by rw [R.LE_STAT]; omega)

theorem Dev.specStop_none {s : CtxSt} (hs : s.spec = none) : d.specStop s c = (d.ctxDiscard c).setCtx c { (d.ctxDiscard c).ctxS c with run := none } := by
  rw [Dev.specStop, hs]
  rfl

theorem Dev.specStop_some {s : CtxSt} {p : SpecSt} (hs : s.spec = some p) : d.specStop s c = d.specAbort s c p := by
  rw [Dev.specStop, hs]
  rfl

theorem Dev.specAbort_frame {s : CtxSt} {p : SpecSt} (hs : s.spec = some p) : FrameOn capPart (haltRegs c s) d (d.specAbort s c p) ∧
    (∀ j, j ≠ c → (d.specAbort s c p).ctxS j = d.ctxS j) ∧ Left211 s ((d.specAbort s c p).ctxS c) ∧
    ∀ n, n < 8 → (d.specAbort s c p).get (R.LE_STAT n) F.LE_STAT_RUN_CTX = d.get (R.LE_STAT n) F.LE_STAT_RUN_CTX := by
  have hp := capPart_part
  obtain ⟨h1, h2, h3⟩ := d.rcpEnd_frame hs c
  rw [Dev.specAbort]
  generalize d.rcpEnd p = u at h1 h2 h3
  have h4 := h1.ctxSet hp capPart_ctx c { s with pend := none, run := none }
  have h5 := u.ctxS_setCtx_self c { s with pend := none, run := none }
  have h6 : ∀ j, j ≠ c → (u.setCtx c { s with pend := none, run := none }).ctxS j = d.ctxS j := fun j hj => by rw [Dev.ctxS_setCtx, if_neg hj, h3]
  have h7 : ∀ a, (u.setCtx c { s with pend := none, run := none }).reg a = u.reg a := fun a => Dev.reg_setCtx _ _ _ _
  generalize u.setCtx c { s with pend := none, run := none } = v at h4 h5 h6 h7
  obtain ⟨⟨k1, k2, q, k3, k4⟩, -⟩ := v.specEnd_spec c 4 7 v.gtc 0
  rw [h5] at k3 k4
  generalize v.specEnd c 4 7 v.gtc 0 = w at k1 k2 k3
  have hq : Quiet w (w.specEvent c Ev.SPEC_ABORT) := w.raiseN_quiet _ _ _
  generalize w.specEvent c Ev.SPEC_ABORT = x at hq
  refine ⟨(h4.trans hp (k1.mono fun a ha => List.mem_append_left _ ha)).quiet hp hq, fun j hj => by rw [hq.ctxS, k2 j hj, h6 j hj], ?_, fun n hn => ?_⟩
  · rw [hq.ctxS, k3, k4 rfl]
    refine ⟨rfl, fun w hw => (List.mem_filter.1 hw).1, fun w hw hlt => List.mem_filter.2 ⟨hw, ?_⟩⟩
    obtain hno | hlt := hlt
    · exact absurd (hs.symm.trans hno) (Option.some_ne_none p)
    · exact congrArg Bool.not (decide_eq_false (Nat.not_le.2 hlt))
  · rw [hq.get (leStat_event hn), Dev.get_of_reg (k1.reg hp (leStat_event hn) (leStat_spec n hn)), Dev.get_of_reg (h7 _), h2]

theorem Dev.specStop_frame {s : CtxSt} (hc : d.ctxS c = s) : FrameOn capPart (haltRegs c s) d (d.specStop s c) ∧
    (∀ j, j ≠ c → (d.specStop s c).ctxS j = d.ctxS j) ∧ Left211 s ((d.specStop s c).ctxS c) ∧
    ∀ n, n < 8 → (d.specStop s c).get (R.LE_STAT n) F.LE_STAT_RUN_CTX = d.get (R.LE_STAT n) F.LE_STAT_RUN_CTX := by
  have hp := capPart_part
  obtain hs | ⟨p, hs⟩ := Option.eq_none_or_eq_some s.spec
  · have hd : FrameOn capPart (haltRegs c s) d (d.ctxDiscard c) := (FrameOn.refl hp _ d).passDiscard hp capPart_ctx (List.mem_append_left _ spec_mem)
    have hr : ∀ n, n < 8 → (d.ctxDiscard c).reg (R.LE_STAT n) = d.reg (R.LE_STAT n) := fun n hn =>
      FrameOn.reg loopPart_part ((FrameOn.refl loopPart_part [R.CTX_SPEC c] d).passDiscard loopPart_part loopPart_ctx (List.mem_singleton_self _)) (leStat_event hn)
        fun hm => by
          have := List.mem_singleton.1 hm
          rw [R.LE_STAT, R.CTX_SPEC] at this
          omega
    have hx := fun j => d.ctxDiscard_ctxS (c := c) j
    rw [Dev.specStop_none hs]
    generalize d.ctxDiscard c = u at hd hr hx
    refine ⟨hd.ctxSet hp capPart_ctx c _, fun j hj => ?_, ?_, fun n hn => Dev.get_of_reg ((Dev.reg_setCtx _ _ _ _).trans (hr n hn)) _⟩
    · rw [Dev.ctxS_setCtx, if_neg hj, hx, if_neg hj]
    · rw [Dev.ctxS_setCtx_self, hx, if_pos rfl, hc]
      exact ⟨by rw [← hs], fun _ h => h, fun _ h _ => h⟩
  · rw [Dev.specStop_some hs]
    exact Dev.specAbort_frame hs

/-- The error of a context is shown. -/
structure EccShown (d e : Dev) (c : Nat) : Prop where
  off : e.flag (R.CTX_CTRL c) F.CTX_CTRL_EN = false
  ecc : e.flag (R.CTX_STAT c) F.CTX_STAT_ECC_ERR = true
  counted : Counted d e R.LEC_ECC F.LEC_ECC_UNCORR
  last : e.get R.LEC_ECC F.LEC_ECC_LAST_CTX = c
  raised : Raised e Pg.LEC Ev.CTX_ECC

theorem lecEcc_apart (_hc : c < 192) : R.LEC_ECC ≠ R.LEC_FLAG (c / 32) ∧ R.CTX_CTRL c ≠ R.LEC_ECC ∧ R.CTX_STAT c ≠ R.LEC_ECC ∧ R.CTX_CTRL c ≠ R.LEC_FLAG (c / 32) ∧
    R.CTX_STAT c ≠ R.LEC_FLAG (c / 32) ∧ R.CTX_CTRL c ≠ R.CTX_STAT c := by
  rw [R.LEC_ECC, R.LEC_FLAG, R.CTX_CTRL, R.CTX_STAT]
  omega

theorem ctxCtrl_in (c : Nat) : InCtx c (R.CTX_CTRL c) := ⟨0, by omega, rfl⟩

theorem Dev.eccShown_spec (d : Dev) (hc : c < 192) : FrameOn noPart [R.CTX_CTRL c, R.CTX_STAT c, R.LEC_ECC, R.LEC_FLAG (c / 32)] d (d.eccShown c) ∧
    EccShown d (d.eccShown c) c := by
  have hn := noPart_part
  obtain ⟨n1, n2, n3, n4, n5, n6⟩ := lecEcc_apart hc
  rw [Dev.eccShown]
  have hev : eventReg R.LEC_ECC = false := by decide
  have h0 : FrameOn noPart [R.CTX_CTRL c, R.CTX_STAT c, R.LEC_ECC, R.LEC_FLAG (c / 32)] d
      ((d.putB (R.CTX_CTRL c) F.CTX_CTRL_EN false).putB (R.CTX_STAT c) F.CTX_STAT_ECC_ERR true) :=
    ((FrameOn.refl hn _ d).putB hn _ _ (by simp)).putB hn _ _ (by simp)
  have h1 : ((d.putB (R.CTX_CTRL c) F.CTX_CTRL_EN false).putB (R.CTX_STAT c) F.CTX_STAT_ECC_ERR true).flag (R.CTX_CTRL c) F.CTX_CTRL_EN = false :=
    (Dev.flag_of_reg (Dev.reg_put_ne _ _ _ n6) _).trans (Dev.flag_putB_self _ _ _ _ (by decide) (by decide))
  have h2 := (d.putB (R.CTX_CTRL c) F.CTX_CTRL_EN false).flag_putB_self (R.CTX_STAT c) F.CTX_STAT_ECC_ERR true (by decide) (by decide)
  have h3 : ((d.putB (R.CTX_CTRL c) F.CTX_CTRL_EN false).putB (R.CTX_STAT c) F.CTX_STAT_ECC_ERR true).reg R.LEC_ECC = d.reg R.LEC_ECC :=
    (Dev.reg_put_ne _ _ _ n3.symm).trans (Dev.reg_put_ne _ _ _ n2.symm)
  generalize (d.putB (R.CTX_CTRL c) F.CTX_CTRL_EN false).putB (R.CTX_STAT c) F.CTX_STAT_ECC_ERR true = u at h0 h1 h2 h3
  have h4 := (u.bump_counted R.LEC_ECC F.LEC_ECC_UNCORR (by decide)).base h3
  have h5 : ∀ a, a ≠ R.LEC_ECC → (u.bump R.LEC_ECC F.LEC_ECC_UNCORR).reg a = u.reg a := fun a ha => Dev.reg_put_ne _ _ _ ha
  have h6 := h0.bump hn F.LEC_ECC_UNCORR (a := R.LEC_ECC) (by simp)
  generalize u.bump R.LEC_ECC F.LEC_ECC_UNCORR = v at h4 h5 h6
  have h7 : (v.put R.LEC_ECC F.LEC_ECC_LAST_CTX c).get R.LEC_ECC F.LEC_ECC_LAST_CTX = c :=
    (Dev.get_put_self _ _ _ _ (by decide)).trans (Nat.mod_eq_of_lt (hc.trans (by decide)))
  have h8 : Counted d (v.put R.LEC_ECC F.LEC_ECC_LAST_CTX c) R.LEC_ECC F.LEC_ECC_UNCORR :=
    (Dev.get_put_field _ _ _ _ _ _ (by decide)).trans h4
  have h9 : ∀ a, a ≠ R.LEC_ECC → (v.put R.LEC_ECC F.LEC_ECC_LAST_CTX c).reg a = u.reg a := fun a ha => (Dev.reg_put_ne _ _ _ ha).trans (h5 a ha)
  have h10 := h6.put hn (a := R.LEC_ECC) F.LEC_ECC_LAST_CTX c (by simp)
  generalize v.put R.LEC_ECC F.LEC_ECC_LAST_CTX c = w at h7 h8 h9 h10
  have hreg : ∀ a, eventReg a = false → a ≠ R.LEC_FLAG (c / 32) → (w.ctxEvent c Ev.CTX_ECC).reg a = w.reg a := fun a ha hne => by
    rw [Dev.ctxEvent, (Dev.raiseN_quiet _ _ _ _).2.1 _ ha, Dev.orReg, Dev.reg_setReg_ne _ _ hne]
  have hstat : eventReg (R.CTX_STAT c) = false := (showRegs_in stat_show).1.event
  refine ⟨h10.lecEvent hn (by simp) _, ⟨?_, ?_, h8.kept (hreg _ hev n1), ?_, Dev.ctxEvent_raised _⟩⟩
  · rw [Dev.flag_of_reg (hreg _ (ctxCtrl_in c).event n4), Dev.flag_of_reg (h9 _ n2)]
    exact h1
  · rw [Dev.flag_of_reg (hreg _ hstat n5), Dev.flag_of_reg (h9 _ n3)]
    exact h2
  · rw [Dev.get_of_reg (hreg _ hev n1)]
    exact h7

/-- A context has been abandoned for an error that cannot be corrected. -/
structure Uncorr (d e : Dev) (c : Nat) : Prop extends EccShown d e c where
  frame : FrameOn capPart (uncorrRegs c (d.ctxS c)) d e
  others : ∀ j, j ≠ c → e.ctxS j = d.ctxS j
  self : Left211 (d.ctxS c) (e.ctxS c)
  free : ∀ n, n < 8 → d.get (R.LE_STAT n) F.LE_STAT_RUN_CTX = 0xFF → e.get (R.LE_STAT n) F.LE_STAT_RUN_CTX = 0xFF

theorem lecEcc_halt (s : CtxSt) : R.LEC_ECC ∉ haltRegs c s := fun hm => by
  obtain hm | hm := List.mem_append.1 hm
  · exact specRegs_apart (by decide) hm
  · obtain ⟨n, -, hn⟩ := engRegs_le hm
    rw [R.LEC_ECC, R.LE_STAT] at hn
    omega

theorem Dev.ctxUncorr_spec (d : Dev) (hc : c < 192) : Uncorr d (d.ctxUncorr c) c := by
  have hp := capPart_part
  rw [Dev.ctxUncorr_eq]
  obtain ⟨h1, h2, h3⟩ := d.runEnd_frame (d.ctxS c) c
  generalize d.runEnd (d.ctxS c) c = u at h1 h2 h3
  obtain ⟨k1, k2, k3, k4⟩ := Dev.specStop_frame (h2 c)
  have h4 := h1.trans hp k1
  generalize u.specStop (d.ctxS c) c = v at h4 k2 k3 k4
  have hecc : v.reg R.LEC_ECC = d.reg R.LEC_ECC := h4.reg hp (by decide) (lecEcc_halt _)
  obtain ⟨m1, m2⟩ := v.eccShown_spec hc
  have hctx : ∀ j, (v.eccShown c).ctxS j = v.ctxS j := fun j => by rw [Dev.ctxS, m1.no_ctx]; rfl
  generalize v.eccShown c = w at m1 m2 hctx
  refine ⟨⟨m2.off, m2.ecc, m2.counted.base hecc, m2.last, m2.raised⟩, ?_, fun j hj => ?_, ?_, fun n hn hx => ?_⟩
  · refine (h4.mono fun a ha => halt_uncorr ha).trans hp (FrameOn.widen noPart_part hp (fun _ _ => rfl) (fun a ha => head_uncorr ?_) m1)
    simp only [List.mem_cons, List.not_mem_nil, or_false] at ha ⊢
    omega
  · rw [hctx, k2 j hj, h2]
  · rw [hctx]
    exact k3
  · rw [Dev.get_of_reg (m1.reg noPart_part (leStat_event hn) fun hm => ?_), k4 n hn]
    · exact h3 n hn hx
    · simp only [List.mem_cons, List.not_mem_nil, or_false, R.CTX_CTRL, R.CTX_STAT, R.LEC_ECC, R.LEC_FLAG, R.LE_STAT] at hm
      omega

end

end Sys2Proof.Machine
end

section
/-! PROOFS. Words of the store corrected where a pass reads them (R197, R211). -/

namespace Sys2Proof.Machine

section
variable {d e f : Dev} {c a n x w : Nat}

/-! ### One word -/

theorem filter_bne_self {l : List Nat} (h : l.contains w = false) : l.filter (· != w) = l := by
  rw [List.filter_eq_self]
  intro v hv
  rw [bne_iff_ne]
  rintro rfl
  rw [List.contains_iff_mem.2 hv] at h
  cases h

/-- What a correction leaves of the contexts' records. -/
theorem Dev.ctxFix_ctxS (d : Dev) (c w j : Nat) : (d.ctxFix c w).ctxS j = if j = c then { d.ctxS c with soft := (d.ctxS c).soft.filter (· != w) } else d.ctxS j := by
  rw [Dev.ctxFix]
  by_cases h : (d.ctxS c).soft.contains w = true
  · rw [if_pos h, (Dev.raiseN_quiet _ _ _ _).ctxS, Dev.bump, Dev.addSat, Dev.ctxS_put, Dev.ctxS_setCtx]
  · rw [if_neg h, filter_bne_self (by rwa [Bool.not_eq_true] at h)]
    split
    · next hj => rw [hj]
    · rfl

theorem Dev.ctxFix_frame (d : Dev) (c w : Nat) : FrameOn loopPart [R.LEC_ECC] d (d.ctxFix c w) := by
  have hp := loopPart_part
  rw [Dev.ctxFix]
  refine FrameOn.ite (fun _ => ?_) fun _ => FrameOn.refl hp _ d
  exact (((FrameOn.refl hp _ d).ctxSet hp loopPart_ctx c _).bump hp _ (List.mem_singleton_self _)).quiet hp (Dev.raiseN_quiet _ _ _ _)

theorem Dev.ctxFix_raised (h : w ∈ (d.ctxS c).soft) : Raised (d.ctxFix c w) Pg.LEC Ev.LE_ECC_CORR := by
  rw [Dev.ctxFix]
  rw [if_pos (List.contains_iff_mem.2 h)]
  exact Dev.raiseN_raised _ _ rfl

theorem Dev.ctxFix_counted (h : w ∈ (d.ctxS c).soft) : Counted d (d.ctxFix c w) R.LEC_ECC F.LEC_ECC_CORR := by
  rw [Dev.ctxFix]
  rw [if_pos (List.contains_iff_mem.2 h)]
  exact ((Dev.bump_counted _ _ _ (by decide)).base (Dev.reg_setCtx _ _ _ _)).kept ((Dev.raiseN_quiet _ _ _ _).reg (by decide))

/-! ### What a read corrects -/

/-- A word's error is corrected, and the correction shown. -/
structure Gone (x w : Nat) (e : Dev) : Prop where
  soft : w ∉ (e.ctxS x).soft
  raised : Raised e Pg.LEC Ev.LE_ECC_CORR

/-- Words have been corrected. -/
structure FixRun (d e : Dev) : Prop where
  frame : FrameOn loopPart [R.LEC_ECC] d e
  soft : ∀ x, ∀ w ∈ (e.ctxS x).soft, w ∈ (d.ctxS x).soft
  rest : ∀ x, e.ctxS x = { d.ctxS x with soft := (e.ctxS x).soft }

theorem FixRun.refl (d : Dev) : FixRun d d := ⟨FrameOn.refl loopPart_part _ d, fun _ _ h => h, fun _ => rfl⟩

theorem FixRun.trans (h : FixRun d e) (k : FixRun e f) : FixRun d f :=
  ⟨h.frame.trans loopPart_part k.frame, fun x w hw => h.soft x w (k.soft x w hw), fun x => by rw [k.rest x, h.rest x]⟩

theorem FixRun.ctxFix (d : Dev) (c w : Nat) : FixRun d (d.ctxFix c w) := by
  refine ⟨d.ctxFix_frame c w, fun x v hv => ?_, fun x => ?_⟩
  · rw [Dev.ctxFix_ctxS] at hv
    split at hv
    · next hx =>
      rw [hx]
      exact (List.mem_filter.1 hv).1
    · exact hv
  · rw [Dev.ctxFix_ctxS]
    split
    · next hx => rw [hx]
    · rfl

theorem Gone.kept (h : Gone x w d) (k : FixRun d e) : Gone x w e :=
  ⟨fun hm => h.soft (k.soft x w hm), k.frame.raised loopPart_part (by decide) h.raised⟩

/-- A word is in error still, or corrected. -/
def Met (x w : Nat) (e : Dev) : Prop := w ∈ (e.ctxS x).soft ∨ Gone x w e

theorem Met.gone (h : Met x w d) : Gone x w (d.ctxFix x w) := by
  obtain h | h := h
  · refine ⟨fun hm => ?_, Dev.ctxFix_raised h⟩
    rw [Dev.ctxFix_ctxS, if_pos rfl] at hm
    have := (List.mem_filter.1 hm).2
    rw [bne_self_eq_false] at this
    cases this
  · exact h.kept (.ctxFix d x w)

theorem Met.ctxFix (h : Met x w d) (y v : Nat) : Met x w (d.ctxFix y v) := by
  by_cases hsame : x = y ∧ w = v
  · obtain ⟨rfl, rfl⟩ := hsame
    exact .inr h.gone
  obtain h | h := h
  · refine .inl ?_
    rw [Dev.ctxFix_ctxS]
    split
    · next hx =>
      subst hx
      refine List.mem_filter.2 ⟨h, ?_⟩
      rw [bne_iff_ne]
      exact fun hv => hsame ⟨rfl, hv⟩
    · exact h
  · exact .inr (h.kept (.ctxFix d y v))

theorem Dev.ctxFixes_run (d : Dev) (c : Nat) (p : Nat → Bool) : FixRun d (d.ctxFixes c p) :=
  foldl_keeps (P := FixRun d) (fun _ _ _ he => he.trans (.ctxFix _ _ _)) (.refl d)

theorem Dev.ctxFixes_none {p : Nat → Bool} (h : (d.ctxS c).soft.any p = false) : d.ctxFixes c p = d := by
  rw [Dev.ctxFixes, List.filter_eq_nil_iff.2 fun v hv hpv => by rw [List.any_eq_true.2 ⟨v, hv, hpv⟩] at h; cases h]
  rfl

theorem Met.ctxFixes (h : Met x w d) (y : Nat) (p : Nat → Bool) : Met x w (d.ctxFixes y p) :=
  foldl_keeps (P := Met x w) (fun _ _ _ he => he.ctxFix _ _) h

/-- The words that a read takes are corrected. -/
theorem Met.readGone {p : Nat → Bool} (h : Met x w d) (hp : p w = true) : Gone x w (d.ctxFixes x p) := by
  obtain hm | hg := h
  · exact foldl_gets (I := Met x w) (Q := Gone x w) (f := fun e v => e.ctxFix x v) (fun _ _ _ he => he.ctxFix _ _) (fun _ _ _ _ he => he.kept (.ctxFix _ _ _))
      (List.mem_filter.2 ⟨hm, hp⟩) (fun _ he => he.gone) (.inl hm)
  · exact hg.kept (d.ctxFixes_run x p)

theorem Dev.passFix_run (d : Dev) (c : Nat) : FixRun d (d.passFix c) :=
  forN_keeps (P := FixRun d) _ (fun _ _ _ he => he.trans (Dev.ctxFixes_run _ _ _)) (.refl d)

/-- A pass corrects every word that it reads. -/
theorem Dev.passFix_gone (hx : x < nCtx d.member) (hw : w ∈ (d.ctxS x).soft) (hr : d.passReads c x w = true) : Gone x w (d.passFix c) := by
  rw [Dev.passFix]
  exact forN_gets (I := Met x w) (Q := Gone x w) (f := fun y e => e.ctxFixes y (d.passReads c y)) _ (fun y _ e he => he.ctxFixes y _) (fun y _ e _ he => he.kept (e.ctxFixes_run y _)) hx
    (fun e he => he.readGone hr) (.inl hw)

theorem Dev.passFix_none (h : ∀ x, x < nCtx d.member → (d.ctxS x).soft.any (d.passReads c x) = false) : d.passFix c = d := by
  rw [Dev.passFix]
  exact forN_keeps (P := fun e => e = d) _ (fun x hx e he => by rw [he]; exact Dev.ctxFixes_none (h x hx)) rfl

end

end Sys2Proof.Machine
end

section
/-! PROOFS. Passes start (R191, R194, R197, R211). -/

namespace Sys2Proof.Machine

section
variable {d e f : Dev} {c a n x w : Nat} {p : PendSt}

/-! ### The beginning of a pass -/

/-- An input speed that was bounded shows. -/
def Dev.satShown (d : Dev) (c : Nat) (insat : Bool) : Dev := if insat then (d.putB (R.CTX_STAT c) F.CTX_STAT_IN_SAT true).ctxEvent c Ev.CTX_SAT else d

/-- What precedes the engine's turn to a pass: the records of partial views, what the inputs show. -/
def Dev.beginShown (d : Dev) (c : Nat) (p : PendSt) : Dev := (d.partRecords (d.snapshot c p.stale).1).satShown c (d.snapshot c p.stale).2

/-- The engine turns to a pass. -/
def Dev.beginEng (d : Dev) (n c : Nat) (p : PendSt) : Dev := (d.maxWait n c (d.gtc - p.ready.getD d.gtc)).put (R.LE_STAT n) F.LE_STAT_RUN_CTX c

/-- The pass that begins: what it runs on and when it ends; `d` shows its inputs. -/
def Dev.beginRun (d : Dev) (n c : Nat) (p : PendSt) (snap : SnapSt) : RunSt :=
  { eng := Fin.ofNat 8 n, f := p.f, spec := p.spec, tc := d.gtc + 8 * d.get (R.CTX_STAT c) F.CTX_STAT_D, snap := snap, res := (snap.eval p.spec []).1 }

/-- The pass is the context's. -/
def Dev.beginSet (d : Dev) (c : Nat) (p : PendSt) (snap : SnapSt) (run : RunSt) : Dev :=
  if p.spec then
    let wins := d.predWins snap.words
    let sp : SpecSt := { f := p.f, snap := snap, res := (snap.eval p.spec []).1, preds := d.predWords wins (snap.eval p.spec []).2, wins := wins }
    let tgt := (d.dutyGroups c).flatMap fun (g : Nat × Nat) => d.targetOf g.1
    d.setCtx c { d.ctxS c with pend := none, run := some run, spec := some sp, tgt := tgt }
  else (d.setCtx c { d.ctxS c with pend := none, run := some run }).markRead c snap.counts

theorem Dev.passBegin_eq (d : Dev) (n c : Nat) (p : PendSt) : d.passBegin n c p =
    (((d.presetDone c).beginShown c p).beginEng n c p).beginSet c p ((d.presetDone c).snapshot c p.stale).1
      (((d.presetDone c).beginShown c p).beginRun n c p ((d.presetDone c).snapshot c p.stale).1) := rfl

theorem Dev.partRecords_quiet (hlive : d.replaying = false) (snap : SnapSt) : Quiet d (d.partRecords snap) := by
  rw [Dev.partRecords]
  refine (forN_keeps (P := fun e => Quiet d e ∧ e.replaying = false) 8 (fun i _ e he => ?_) ⟨Quiet.refl d, hlive⟩).1
  have hquiet : ∀ u, Quiet e u → Quiet d u ∧ u.replaying = false := fun u hu => ⟨he.1.trans hu, (hu.flag (by decide) _).trans he.2⟩
  refine ite_both (P := fun u => Quiet d u ∧ u.replaying = false) (fun h => absurd h.2 (by rw [he.2]; exact Bool.false_ne_true)) fun _ => ?_
  exact ite_both (P := fun u => Quiet d u ∧ u.replaying = false) (fun _ => hquiet _ (Dev.emit_quiet _ _)) fun _ => he

/-- What a pass that begins writes of its context and its engine. -/
def beginRegs (n c : Nat) : List Nat := [R.LE_STAT n, R.LE_MAXWAIT n, R.CTX_STAT c, R.LEC_FLAG (c / 32)]

/-- What the inputs show leaves the contexts' records. -/
theorem Dev.beginShown_spec (hlive : d.replaying = false) (n c : Nat) (p : PendSt) : FrameOn noPart (beginRegs n c) d (d.beginShown c p) ∧
    (d.beginShown c p).get (R.CTX_STAT c) F.CTX_STAT_D = d.get (R.CTX_STAT c) F.CTX_STAT_D := by
  have hn := noPart_part
  have hstat : eventReg (R.CTX_STAT c) = false := (showRegs_in stat_show).1.event
  rw [Dev.beginShown]
  have hq := Dev.partRecords_quiet hlive (d.snapshot c p.stale).1
  generalize d.partRecords (d.snapshot c p.stale).1 = u at hq
  have hu : FrameOn noPart (beginRegs n c) d u := (FrameOn.refl hn _ d).quiet hn hq
  rw [Dev.satShown]
  refine ⟨FrameOn.ite (fun _ => (hu.putB hn _ _ (by simp [beginRegs])).lecEvent hn (by simp [beginRegs]) _) fun _ => hu, ?_⟩
  refine ite_both (P := fun v : Dev => v.get (R.CTX_STAT c) F.CTX_STAT_D = d.get (R.CTX_STAT c) F.CTX_STAT_D) (fun _ => ?_) fun _ => hq.get hstat _
  rw [Dev.ctxEvent_get _ (by rw [R.CTX_STAT, R.LEC_FLAG]; omega) hstat]
  exact (Dev.get_put_field _ _ _ _ _ _ (by decide)).trans (hq.get hstat _)

theorem Dev.beginEng_spec (d : Dev) (n : Nat) (hc : c < 192) (p : PendSt) : FrameOn noPart (beginRegs n c) d (d.beginEng n c p) ∧
    (d.beginEng n c p).get (R.LE_STAT n) F.LE_STAT_RUN_CTX = c := by
  have hn := noPart_part
  have hwait : FrameOn noPart (beginRegs n c) d (d.maxWait n c (d.gtc - p.ready.getD d.gtc)) := by
    rw [Dev.maxWait]
    exact FrameOn.ite (fun _ => ((FrameOn.refl hn _ d).put hn _ _ (by simp [beginRegs])).put hn _ _ (by simp [beginRegs])) fun _ => FrameOn.refl hn _ d
  exact ⟨hwait.put hn _ _ (by simp [beginRegs]), (Dev.get_put_self _ _ _ _ (by decide)).trans (Nat.mod_eq_of_lt (hc.trans (by decide)))⟩

/-- A pass has become a context's. -/
structure PassBegun (d e : Dev) (c : Nat) (run : RunSt) : Prop where
  frame : FrameOn loopPart [] d e
  reg : ∀ a, e.reg a = d.reg a
  others : ∀ j, j ≠ c → e.ctxS j = d.ctxS j
  pend : (e.ctxS c).pend = none
  run : (e.ctxS c).run = some run
  soft : (e.ctxS c).soft = (d.ctxS c).soft

theorem PassBegun.setCtx (d : Dev) (c : Nat) {run : RunSt} {q : CtxSt} (h1 : q.pend = none) (h2 : q.run = some run) (h3 : q.soft = (d.ctxS c).soft) :
    PassBegun d (d.setCtx c q) c run :=
  ⟨(FrameOn.refl loopPart_part _ d).ctxSet loopPart_part loopPart_ctx c q, fun a => Dev.reg_setCtx _ _ _ _, fun j hj => by rw [Dev.ctxS_setCtx, if_neg hj],
    by rw [Dev.ctxS_setCtx_self]; exact h1, by rw [Dev.ctxS_setCtx_self]; exact h2, by rw [Dev.ctxS_setCtx_self]; exact h3⟩

theorem PassBegun.again {run : RunSt} (h : PassBegun d e c run) {q : CtxSt} (h1 : q.pend = none) (h2 : q.run = some run) (h3 : q.soft = (e.ctxS c).soft) :
    PassBegun d (e.setCtx c q) c run := by
  have k := PassBegun.setCtx e c h1 h2 h3
  exact ⟨h.frame.trans loopPart_part k.frame, fun a => (k.reg a).trans (h.reg a), fun j hj => (k.others j hj).trans (h.others j hj), k.pend, k.run,
    k.soft.trans h.soft⟩

theorem Dev.beginSet_spec (d : Dev) (c : Nat) (p : PendSt) (snap : SnapSt) (run : RunSt) : PassBegun d (d.beginSet c p snap run) c run := by
  rw [Dev.beginSet]
  refine ite_both (P := fun e => PassBegun d e c run) (fun _ => .setCtx d c rfl rfl rfl) fun _ => ?_
  have h : PassBegun d (d.setCtx c { d.ctxS c with pend := none, run := some run }) c run := .setCtx d c rfl rfl rfl
  rw [Dev.markRead]
  exact h.again h.pend h.run rfl

/-- The preset of a context completed. -/
theorem Dev.presetDone_none (h : (d.ctxS c).preset = none) : d.presetDone c = d := by
  rw [Dev.presetDone]
  simp only [h]

theorem presetWords_lt {l : List Word} {q : PresetSt} {t : Nat} {y : Nat × Word} (h : y ∈ presetWords l q t) : y.1 < 60 :=
  of_decide_eq_true (List.mem_filter.1 h).2

theorem Dev.presetDone_frame (d : Dev) (c : Nat) : FrameOn loopPart ((List.range 60).map (R.CTX_POOL c)) d (d.presetDone c) ∧
    ∀ j, ((d.presetDone c).ctxS j).soft = (d.ctxS j).soft := by
  have hp := loopPart_part
  cases hq : (d.ctxS c).preset with
  | none =>
    rw [Dev.presetDone_none hq]
    exact ⟨FrameOn.refl hp _ d, fun _ => rfl⟩
  | some q =>
    rw [Dev.presetDone]
    simp only [hq]
    have hstep : ∀ y ∈ presetWords (d.progWords c) q d.gtc, ∀ e : Dev, FrameOn loopPart ((List.range 60).map (R.CTX_POOL c)) d e →
        FrameOn loopPart ((List.range 60).map (R.CTX_POOL c)) d ((e.setReg (R.CTX_POOL c y.1) y.2).emit
          { ty := 0x15, res := Mid.S0, tick := e.gtc, data := [BitVec.ofNat 32 (R.CTX_POOL c y.1), y.2] }) := fun y hy e he =>
      (he.setReg hp _ (List.mem_map_of_mem (List.mem_range.2 (presetWords_lt hy)))).quiet hp (Dev.emit_quiet _ _)
    have hctx : ∀ y ∈ presetWords (d.progWords c) q d.gtc, ∀ e : Dev, (∀ j, e.ctxS j = d.ctxS j) → ∀ j, ((e.setReg (R.CTX_POOL c y.1) y.2).emit
          { ty := 0x15, res := Mid.S0, tick := e.gtc, data := [BitVec.ofNat 32 (R.CTX_POOL c y.1), y.2] }).ctxS j = d.ctxS j := fun y hy e he j =>
      ((Dev.emit_quiet _ _).ctxS j).trans ((Dev.ctxS_setReg _ _ _ _).trans (he j))
    have h1 := foldl_keeps hstep (FrameOn.refl hp _ d)
    have h2 := foldl_keeps hctx fun _ => rfl
    refine ⟨h1.ctxSet hp loopPart_ctx c _, fun j => ?_⟩
    rw [Dev.ctxS_setCtx]
    split
    · next hj => rw [hj]
    · rw [h2 j]

/-- A pass begins where no preset waits. -/
structure Begins (d e : Dev) (n c : Nat) (p : PendSt) : Prop where
  frame : FrameOn loopPart (beginRegs n c) d e
  others : ∀ j, j ≠ c → e.ctxS j = d.ctxS j
  pend : (e.ctxS c).pend = none
  engine : e.get (R.LE_STAT n) F.LE_STAT_RUN_CTX = c
  run : (e.ctxS c).run = some (d.beginRun n c p (d.snapshot c p.stale).1)
  soft : ∀ x, (e.ctxS x).soft = (d.ctxS x).soft

theorem Dev.passBegin_spec (hlive : d.replaying = false) (n : Nat) (hc : c < 192) (hq : (d.ctxS c).preset = none) (p : PendSt) :
    Begins d (d.passBegin n c p) n c p := by
  have hp := loopPart_part
  rw [Dev.passBegin_eq, Dev.presetDone_none hq]
  obtain ⟨h1, h2⟩ := Dev.beginShown_spec hlive n c p
  have hrun : (d.beginShown c p).beginRun n c p (d.snapshot c p.stale).1 = d.beginRun n c p (d.snapshot c p.stale).1 := by
    rw [Dev.beginRun, Dev.beginRun, h2, h1.no_gtc]
  rw [hrun]
  generalize d.beginShown c p = u at h1
  obtain ⟨k1, k2⟩ := u.beginEng_spec n hc p
  have h3 := h1.trans noPart_part k1
  have hctx : ∀ j, (u.beginEng n c p).ctxS j = d.ctxS j := fun j => by rw [Dev.ctxS, h3.no_ctx]; rfl
  generalize u.beginEng n c p = v at k2 h3 hctx
  have m := v.beginSet_spec c p (d.snapshot c p.stale).1 (d.beginRun n c p (d.snapshot c p.stale).1)
  refine ⟨h3.noCtx.trans hp (m.frame.mono fun _ ha => absurd ha List.not_mem_nil), fun j hj => (m.others j hj).trans (hctx j), m.pend,
    (Dev.get_of_reg (m.reg _) _).trans k2, m.run, fun x => ?_⟩
  by_cases hx : x = c
  · rw [hx, m.soft, hctx]
  · rw [m.others x hx, hctx]

/-- What every pass that begins leaves: the errors of the words, what has been raised; its engine shows it. -/
theorem Dev.passBegin_kept (hlive : d.replaying = false) (n : Nat) (hc : c < 192) (p : PendSt) :
    (d.passBegin n c p).get (R.LE_STAT n) F.LE_STAT_RUN_CTX = c ∧ (∀ x, ((d.passBegin n c p).ctxS x).soft = (d.ctxS x).soft) ∧
      ∀ src, Raised d Pg.LEC src → Raised (d.passBegin n c p) Pg.LEC src := by
  obtain ⟨h1, h2⟩ := d.presetDone_frame c
  have hpre : (d.presetDone c).replaying = d.replaying := Dev.flag_of_reg (h1.reg loopPart_part (by decide) fun hm => by
    obtain ⟨i, -, hi⟩ := List.mem_map.1 hm
    rw [R.CTX_POOL, R.RPL_STAT] at hi
    omega) _
  have hnone : ((d.presetDone c).ctxS c).preset = none := by
    cases hq : (d.ctxS c).preset with
    | none => rw [Dev.presetDone_none hq, hq]
    | some q =>
      rw [Dev.presetDone]
      simp only [hq]
      rw [Dev.ctxS_setCtx_self]
  have heq : d.passBegin n c p = (d.presetDone c).passBegin n c p := by
    rw [Dev.passBegin_eq, Dev.passBegin_eq, Dev.presetDone_none hnone]
  have k := Dev.passBegin_spec (hpre.trans hlive) n hc hnone p
  rw [heq]
  refine ⟨k.engine, fun x => (k.soft x).trans (h2 x), fun src hr => k.frame.raised loopPart_part (fun hm => ?_) (h1.raised loopPart_part (fun hm => ?_) hr)⟩
  · have hraw : R.PG_EVT_RAW Pg.LEC = 0x40060010 := by decide
    rw [hraw] at hm
    simp only [beginRegs, List.mem_cons, List.not_mem_nil, or_false, R.LE_STAT, R.LE_MAXWAIT, R.CTX_STAT, R.LEC_FLAG] at hm
    omega
  · have hraw : R.PG_EVT_RAW Pg.LEC = 0x40060010 := by decide
    rw [hraw] at hm
    obtain ⟨i, -, hi⟩ := List.mem_map.1 hm
    rw [R.CTX_POOL] at hi
    omega

/-! ### The start -/

/-- The context and the pass that an engine takes. -/
structure Taken (d : Dev) (n c : Nat) (p : PendSt) : Prop where
  eng : n < nEngines d.member
  on : d.engOn n = true
  frame8 : d.gtc % 8 = 0
  free : d.get (R.LE_STAT n) F.LE_STAT_RUN_CTX = 0xFF
  busy : d.rplBusy n = false
  first : ∃ t, earliest (d.startable n) = some (t, c)
  pend : (d.ctxS c).pend = some p

theorem Taken.passStart (h : Taken d n c p) : d.passStart n = if (d.passBad c).isEmpty then (d.passFix c).passBegin n c p
    else (d.passBad c).foldl (fun e x => e.ctxUncorr x) ((d.passRecordAt c 5 d.gtc (p.stale.any id)).ctxDiscard c) := by
  obtain ⟨t, ht⟩ := h.first
  rw [Dev.passStart, decide_eq_true h.eng, h.on, h.frame8, h.free, h.busy]
  simp only [ht, h.pend]
  rfl

theorem Taken.clean (h : Taken d n c p) (hb : d.passBad c = []) : d.passStart n = (d.passFix c).passBegin n c p := by
  rw [h.passStart, hb]
  rfl

/-- A context has been abandoned for an error of its words. -/
structure Abandoned (x : Nat) (e : Dev) : Prop where
  off : e.flag (R.CTX_CTRL x) F.CTX_CTRL_EN = false
  ecc : e.flag (R.CTX_STAT x) F.CTX_STAT_ECC_ERR = true
  raised : Raised e Pg.LEC Ev.CTX_ECC

theorem Uncorr.abandoned (k : Uncorr d e x) : Abandoned x e := ⟨k.off, k.ecc, k.raised⟩

theorem uncorrRegs_other {s : CtxSt} {y : Nat} (hy : y < 192) (hne : x ≠ y) (ha : a = R.CTX_CTRL x ∨ a = R.CTX_STAT x) : a ∉ uncorrRegs y s := fun hm => by
  have hin : 0x40100040 ≤ a := by
    rw [R.CTX_CTRL, R.CTX_STAT] at ha
    omega
  obtain h | ⟨n, hn, h⟩ | h := uncorrRegs_place hm
  · simp only [List.mem_cons, List.not_mem_nil, or_false, R.CTX_CTRL, R.CTX_STAT, R.CTX_SPEC, R.LEC_ECC, R.LEC_FLAG] at h ha
    omega
  · rw [R.LE_STAT] at h
    omega
  · omega

theorem Abandoned.kept {y : Nat} (hy : y < 192) (h : Abandoned x d) (k : Uncorr d e y) : Abandoned x e := by
  by_cases hxy : x = y
  · exact hxy ▸ k.abandoned
  · have h1 : e.reg (R.CTX_CTRL x) = d.reg (R.CTX_CTRL x) := k.frame.reg capPart_part (ctxCtrl_in x).event (uncorrRegs_other hy hxy (.inl rfl))
    have h2 : e.reg (R.CTX_STAT x) = d.reg (R.CTX_STAT x) := k.frame.reg capPart_part (showRegs_in stat_show).1.event (uncorrRegs_other hy hxy (.inr rfl))
    exact ⟨(Dev.flag_of_reg h1 _).trans h.off, (Dev.flag_of_reg h2 _).trans h.ecc, k.raised⟩

theorem Dev.passBad_lt (hx : x ∈ d.passBad c) : x < 192 := (List.mem_range.1 (List.mem_filter.1 hx).1).trans_le (nCtx_le _)

/-- A pass that meets words that fail is abandoned. -/
theorem Taken.fails (h : Taken d n c p) (hn : n < 8) (hb : d.passBad c ≠ []) : ((d.passStart n).ctxS c).pend = none ∧
    (d.passStart n).get (R.LE_STAT n) F.LE_STAT_RUN_CTX = 0xFF ∧ ∀ x ∈ d.passBad c, Abandoned x (d.passStart n) := by
  rw [h.passStart, if_neg (by rwa [List.isEmpty_iff])]
  have hq : Quiet d (d.passRecordAt c 5 d.gtc (p.stale.any id)) := d.emit_quiet _
  generalize d.passRecordAt c 5 d.gtc (p.stale.any id) = u at hq
  have hpend : ((u.ctxDiscard c).ctxS c).pend = none := by rw [Dev.ctxDiscard_ctxS, if_pos rfl]
  have hfree : (u.ctxDiscard c).get (R.LE_STAT n) F.LE_STAT_RUN_CTX = 0xFF := by
    rw [Dev.get_of_reg (FrameOn.reg loopPart_part ((FrameOn.refl loopPart_part [R.CTX_SPEC c] u).passDiscard loopPart_part loopPart_ctx
      (List.mem_singleton_self _)) (leStat_event hn) fun hm => ?_), hq.get (leStat_event hn)]
    · exact h.free
    · have := List.mem_singleton.1 hm
      rw [R.LE_STAT, R.CTX_SPEC] at this
      omega
  generalize u.ctxDiscard c = v at hpend hfree
  have hlt : ∀ x ∈ d.passBad c, x < 192 := fun x hx => Dev.passBad_lt hx
  generalize d.passBad c = l at hlt
  have hstay : ∀ y ∈ l, ∀ e : Dev, ((e.ctxS c).pend = none ∧ e.get (R.LE_STAT n) F.LE_STAT_RUN_CTX = 0xFF) →
      ((e.ctxUncorr y).ctxS c).pend = none ∧ (e.ctxUncorr y).get (R.LE_STAT n) F.LE_STAT_RUN_CTX = 0xFF := fun y hy e he => by
    have k := e.ctxUncorr_spec (hlt y hy)
    refine ⟨?_, k.free n hn he.2⟩
    by_cases hyc : c = y
    · subst hyc
      rw [k.self.rest]
    · rw [k.others c hyc]
      exact he.1
  obtain ⟨h1, h2⟩ := foldl_keeps hstay ⟨hpend, hfree⟩
  refine ⟨h1, h2, fun x hx => ?_⟩
  exact foldl_gets (I := fun _ => True) (Q := Abandoned x) (f := fun e y => e.ctxUncorr y) (fun _ _ _ _ => trivial)
    (fun y hy e _ he => he.kept (hlt y hy) (e.ctxUncorr_spec (hlt y hy))) hx (fun e _ => (e.ctxUncorr_spec (hlt x hx)).abandoned) trivial

/-- A pass that meets a single-bit error corrects it. -/
theorem Taken.corrects (h : Taken d n c p) (hlive : d.replaying = false) (hc : c < 192) (hb : d.passBad c = []) (hx : x < nCtx d.member)
    (hw : w ∈ (d.ctxS x).soft) (hr : d.passReads c x w = true) : Raised (d.passStart n) Pg.LEC Ev.LE_ECC_CORR ∧ w ∉ ((d.passStart n).ctxS x).soft ∧
      (d.passStart n).get (R.LE_STAT n) F.LE_STAT_RUN_CTX = c := by
  have k := Dev.passFix_gone hx hw hr
  have hrun := d.passFix_run c
  rw [h.clean hb]
  have hl : (d.passFix c).replaying = false := (Dev.flag_of_reg (hrun.frame.reg loopPart_part (by decide) (by decide)) _).trans hlive
  obtain ⟨h1, h2, h3⟩ := Dev.passBegin_kept hl n hc p
  exact ⟨h3 _ k.raised, by rw [h2]; exact k.soft, h1⟩

end

end Sys2Proof.Machine
end

section
/-! PROOFS. The scrub of the store (R211). -/

namespace Sys2Proof.Machine

section
variable {d e f : Dev} {c w : Nat}

/-! ### Upsets -/

/-- An upset that leaves one bit wrong. -/
theorem Dev.ctxUpset_one (hc : d.ctxPresent c = true) (hb : w ∉ (d.ctxS c).bad) (hs : w ∉ (d.ctxS c).soft) :
    d.ctxUpset ⟨c, w, false⟩ = d.setCtx c { d.ctxS c with soft := w :: (d.ctxS c).soft } := by
  have h1 : (d.ctxS c).bad.contains w = false := by rwa [← Bool.not_eq_true, List.contains_iff_mem]
  have h2 : (d.ctxS c).soft.contains w = false := by rwa [← Bool.not_eq_true, List.contains_iff_mem]
  rw [Dev.ctxUpset]
  simp only [hc, h1, h2]
  rfl

/-- An upset that cannot be corrected. -/
theorem Dev.ctxUpset_two (hc : d.ctxPresent c = true) (hb : w ∉ (d.ctxS c).bad) :
    d.ctxUpset ⟨c, w, true⟩ = d.setCtx c { d.ctxS c with bad := w :: (d.ctxS c).bad, soft := (d.ctxS c).soft.filter (· != w) } := by
  have h1 : (d.ctxS c).bad.contains w = false := by rwa [← Bool.not_eq_true, List.contains_iff_mem]
  rw [Dev.ctxUpset]
  simp only [hc, h1]
  rfl

/-- What upsets leave. -/
structure Upsets (d e : Dev) : Prop where
  member : e.member = d.member
  bad : ∀ x, ∀ w ∈ (d.ctxS x).bad, w ∈ (e.ctxS x).bad

theorem Upsets.refl (d : Dev) : Upsets d d := ⟨rfl, fun _ _ h => h⟩
theorem Upsets.trans (h : Upsets d e) (k : Upsets e f) : Upsets d f := ⟨k.member.trans h.member, fun x w hw => k.bad x w (h.bad x w hw)⟩

theorem Upsets.setCtx (d : Dev) (c : Nat) {q : CtxSt} (hq : ∀ w ∈ (d.ctxS c).bad, w ∈ q.bad) : Upsets d (d.setCtx c q) := by
  refine ⟨rfl, fun x w hw => ?_⟩
  rw [Dev.ctxS_setCtx]
  split
  · next hx => exact hq w (hx ▸ hw)
  · exact hw

theorem Dev.ctxUpset_upsets (d : Dev) (u : Upset) : Upsets d (d.ctxUpset u) := by
  rw [Dev.ctxUpset]
  refine ite_both (P := Upsets d) (fun _ => .refl d) fun _ => ite_both (P := Upsets d) (fun _ => .setCtx d _ fun w hw => List.mem_cons_of_mem _ hw) fun _ => ?_
  exact ite_both (P := Upsets d) (fun _ => .refl d) fun _ => .setCtx d _ fun _ hw => hw

theorem Dev.ctxUpset_bad {u : Upset} (hc : d.ctxPresent u.ctx = true) (ht : u.two = true) : u.word ∈ ((d.ctxUpset u).ctxS u.ctx).bad := by
  rw [Dev.ctxUpset]
  by_cases hb : (d.ctxS u.ctx).bad.contains u.word = true
  · rw [if_pos (by rw [hb, Bool.or_true])]
    exact List.contains_iff_mem.1 hb
  · rw [if_neg (by rw [hc]; simpa using hb), if_pos ht, Dev.ctxS_setCtx_self]
    exact List.mem_cons_self

/-- Upsets that cannot be corrected stand. -/
theorem Dev.ctxUpsets_bad {l : List Upset} {u : Upset} (hu : u ∈ l) (hc : d.ctxPresent u.ctx = true) (ht : u.two = true) :
    u.word ∈ ((l.foldl Dev.ctxUpset d).ctxS u.ctx).bad := by
  refine foldl_gets (I := Upsets d) (Q := fun e => u.word ∈ (e.ctxS u.ctx).bad) (fun v _ e he => he.trans (e.ctxUpset_upsets v))
    (fun v _ e _ he => (e.ctxUpset_upsets v).bad _ _ he) hu (fun e he => Dev.ctxUpset_bad ?_ ht) (.refl d)
  rw [Dev.ctxPresent, he.member]
  exact hc

/-! ### The scrub -/

/-- The device of a scrub that reads a word. -/
def Dev.scrubTick (d : Dev) : Dev := { d with sys := { d.sys with scrubbed := d.gtc + 8 } }

/-- The upset that a read finds. -/
def Dev.scrubUpset (d : Dev) (err : EccErr) (c w : Nat) : Dev :=
  match err with
  | .ok => d
  | .corrected => d.ctxUpset ⟨c, w, false⟩
  | .uncorrectable => d.ctxUpset ⟨c, w, true⟩

/-- The word read. -/
def Dev.scrubRead (d : Dev) (c w : Nat) : Dev :=
  if !d.ctxPresent c then d else if (d.ctxS c).bad.contains w then d.ctxUncorr c else d.ctxFix c w

theorem Dev.ctxScrub_due (h : d.scrubDue = true) (err : EccErr) (ups : List Upset) :
    d.ctxScrub err ups = ((ups.foldl Dev.ctxUpset d.scrubTick).scrubUpset err d.scrubCtx d.scrubWord).scrubRead d.scrubCtx d.scrubWord := by
  rw [Dev.ctxScrub, h]
  rfl

theorem Dev.ctxScrub_idle (h : d.scrubDue = false) (err : EccErr) (ups : List Upset) : d.ctxScrub err ups = d := by
  rw [Dev.ctxScrub, h]
  rfl

theorem Dev.scrubUpset_upsets (d : Dev) (err : EccErr) (c w : Nat) : Upsets d (d.scrubUpset err c w) := by
  cases err with
  | ok => exact .refl d
  | corrected => exact d.ctxUpset_upsets _
  | uncorrectable => exact d.ctxUpset_upsets _

/-- A word of a record that fails does so after the read of another, and of itself. -/
theorem Dev.scrubRead_bad {x v : Nat} (hv : v < 112) (hb : v ∈ (d.ctxS x).bad) : v ∈ ((d.scrubRead c w).ctxS x).bad := by
  rw [Dev.scrubRead]
  refine ite_both (P := fun e : Dev => v ∈ (e.ctxS x).bad) (fun _ => hb) fun hp => ite_both (P := fun e : Dev => v ∈ (e.ctxS x).bad) (fun _ => ?_) fun _ => ?_
  · have hc : c < 192 := ctx_lt (by simpa using hp)
    have k := d.ctxUncorr_spec hc
    by_cases hx : x = c
    · subst hx
      exact k.self.kept v hb (.inr hv)
    · rw [k.others x hx]
      exact hb
  · rw [Dev.ctxFix_ctxS]
    split
    · next hx => exact hx ▸ hb
    · exact hb

theorem Dev.ctxScrub_bad (h : d.scrubDue = true) (err : EccErr) {ups : List Upset} {u : Upset} (hu : u ∈ ups) (hc : d.ctxPresent u.ctx = true)
    (ht : u.two = true) (hw : u.word < 112) : u.word ∈ ((d.ctxScrub err ups).ctxS u.ctx).bad := by
  rw [Dev.ctxScrub_due h]
  exact Dev.scrubRead_bad hw ((Dev.scrubUpset_upsets _ err _ _).bad _ _ (Dev.ctxUpsets_bad hu hc ht))

/-- A read that meets no other upset. -/
theorem Dev.ctxScrub_alone (h : d.scrubDue = true) (err : EccErr) :
    d.ctxScrub err [] = (d.scrubTick.scrubUpset err d.scrubCtx d.scrubWord).scrubRead d.scrubCtx d.scrubWord := Dev.ctxScrub_due h err []

section
variable (hc : d.ctxPresent c = true) (hb : w ∉ (d.ctxS c).bad)
include hc hb

theorem Dev.scrubRead_good : d.scrubRead c w = d.ctxFix c w := by
  rw [Dev.scrubRead, hc, if_neg (by decide), if_neg (by rwa [List.contains_iff_mem])]

/-- A word without an error. -/
theorem Dev.scrub_ok (hs : w ∉ (d.ctxS c).soft) : (d.scrubUpset .ok c w).scrubRead c w = d := by
  refine (Dev.scrubRead_good hc hb).trans ?_
  rw [Dev.ctxFix]
  exact if_neg (by rwa [List.contains_iff_mem])

/-- A single-bit error. -/
theorem Dev.scrub_corrected (hs : w ∉ (d.ctxS c).soft) : FrameOn loopPart [R.LEC_ECC] d ((d.scrubUpset .corrected c w).scrubRead c w) ∧
    (∀ j, ((d.scrubUpset .corrected c w).scrubRead c w).ctxS j = d.ctxS j) ∧
    Counted d ((d.scrubUpset .corrected c w).scrubRead c w) R.LEC_ECC F.LEC_ECC_CORR ∧
    Raised ((d.scrubUpset .corrected c w).scrubRead c w) Pg.LEC Ev.LE_ECC_CORR := by
  rw [Dev.scrubUpset, Dev.ctxUpset_one hc hb hs]
  have hf := (FrameOn.refl loopPart_part [R.LEC_ECC] d).ctxSet loopPart_part loopPart_ctx c { d.ctxS c with soft := w :: (d.ctxS c).soft }
  have hself := d.ctxS_setCtx_self c { d.ctxS c with soft := w :: (d.ctxS c).soft }
  have hoth : ∀ j, j ≠ c → (d.setCtx c { d.ctxS c with soft := w :: (d.ctxS c).soft }).ctxS j = d.ctxS j := fun j hj => by rw [Dev.ctxS_setCtx, if_neg hj]
  have hregs : ∀ a, (d.setCtx c { d.ctxS c with soft := w :: (d.ctxS c).soft }).reg a = d.reg a := fun a => Dev.reg_setCtx _ _ _ _
  have hpres : (d.setCtx c { d.ctxS c with soft := w :: (d.ctxS c).soft }).ctxPresent c = true := hc
  generalize d.setCtx c { d.ctxS c with soft := w :: (d.ctxS c).soft } = u at hf hself hoth hregs hpres
  have hmem : w ∈ (u.ctxS c).soft := by rw [hself]; exact List.mem_cons_self
  rw [Dev.scrubRead_good hpres (by rw [hself]; exact hb)]
  refine ⟨hf.trans loopPart_part (u.ctxFix_frame _ _), fun j => ?_, (Dev.ctxFix_counted hmem).base (hregs _), Dev.ctxFix_raised hmem⟩
  rw [Dev.ctxFix_ctxS]
  split
  · next hj =>
    have hfil : (w :: (d.ctxS c).soft).filter (· != w) = (d.ctxS c).soft := by
      rw [List.filter_cons, if_neg (by rw [bne_self_eq_false]; exact Bool.false_ne_true)]
      exact filter_bne_self (by rwa [← Bool.not_eq_true, List.contains_iff_mem])
    rw [hself, hj, hfil]
  · next hj => exact hoth j hj

/-- An error that cannot be corrected: the context is abandoned. -/
theorem Dev.scrub_uncorr : ∃ u, FrameOn loopPart [] d u ∧ (∀ a, u.reg a = d.reg a) ∧ (∀ j, j ≠ c → u.ctxS j = d.ctxS j) ∧
    u.ctxS c = { d.ctxS c with bad := w :: (d.ctxS c).bad, soft := (d.ctxS c).soft.filter (· != w) } ∧
    (d.scrubUpset .uncorrectable c w).scrubRead c w = u.ctxUncorr c := by
  refine ⟨d.setCtx c { d.ctxS c with bad := w :: (d.ctxS c).bad, soft := (d.ctxS c).soft.filter (· != w) },
    (FrameOn.refl loopPart_part [] d).ctxSet loopPart_part loopPart_ctx c _, fun a => Dev.reg_setCtx _ _ _ _, fun j hj => by rw [Dev.ctxS_setCtx, if_neg hj],
    by rw [Dev.ctxS_setCtx_self], ?_⟩
  rw [Dev.scrubUpset, Dev.ctxUpset_two hc hb]
  have hself := d.ctxS_setCtx_self c { d.ctxS c with bad := w :: (d.ctxS c).bad, soft := (d.ctxS c).soft.filter (· != w) }
  have hpres : (d.setCtx c { d.ctxS c with bad := w :: (d.ctxS c).bad, soft := (d.ctxS c).soft.filter (· != w) }).ctxPresent c = true := hc
  generalize d.setCtx c { d.ctxS c with bad := w :: (d.ctxS c).bad, soft := (d.ctxS c).soft.filter (· != w) } = u at hself hpres
  rw [Dev.scrubRead, hpres, if_neg (by decide), if_pos (by rw [hself, List.contains_iff_mem]; exact List.mem_cons_self)]

end

end

end Sys2Proof.Machine
end

section
/-! PROOFS. The check of an enable rests on registers (R208, R246, R264, R265). -/

namespace Sys2Proof.Machine

section
variable (d : Dev) (k : Nat) (q : CtxSt)

theorem Dev.fieldOk_setCtx (mid : Nat) (b : Block) (i page off : Nat) :
    (d.setCtx k q).fieldOk mid b i page off = d.fieldOk mid b i page off := by
  rw [Dev.setCtx]
  rfl

theorem Dev.ctxWords_setCtx (c : Nat) : (d.setCtx k q).ctxWords c = d.ctxWords c := rfl

theorem Dev.ctxUnits_setCtx (c : Nat) (l : List Word) : (d.setCtx k q).ctxUnits c l = d.ctxUnits c l := by
  rw [Dev.setCtx]
  rfl

theorem Dev.dutyTaken_setCtx (c : Nat) : (d.setCtx k q).dutyTaken c = d.dutyTaken c := by
  rw [Dev.setCtx]
  rfl

theorem Dev.trkTakes_setCtx (t c : Nat) : (d.setCtx k q).trkTakes t c = d.trkTakes t c := rfl

theorem Dev.ctxEng_setCtx (c : Nat) : (d.setCtx k q).ctxEng c = d.ctxEng c := rfl

theorem Dev.selAngle_setCtx (fuel c s : Nat) : (d.setCtx k q).selAngle fuel c s = d.selAngle fuel c s :=
  Dev.selAngle_congr (fun _ _ _ => Dev.reg_setCtx _ _ _ _) rfl fuel c s

theorem Dev.operandCause_setCtx (c : Nat) (l : List Word) (j i : Nat) (r : Role) :
    (d.setCtx k q).operandCause c l j i r = d.operandCause c l j i r := by
  rw [Dev.operandCause, Dev.operandCause, Dev.selAngle_setCtx]

theorem Dev.stageCauses_setCtx (c : Nat) (l : List Word) (j : Nat) : (d.setCtx k q).stageCauses c l j = d.stageCauses c l j := by
  rw [Dev.stageCauses, Dev.stageCauses]
  cases kindOf (recKind l j) with
  | none => rfl
  | some x => simp only [Dev.operandCause_setCtx]

theorem Dev.ctxCause_setCtx (c : Nat) : (d.setCtx k q).ctxCause c = d.ctxCause c := by
  rw [Dev.ctxCause, Dev.ctxCause]
  simp only [Dev.ctxWords_setCtx, Dev.ctxUnits_setCtx, Dev.dutyTaken_setCtx, Dev.trkTakes_setCtx, Dev.ctxEng_setCtx, Dev.selAngle_setCtx,
    Dev.stageCauses_setCtx, Dev.reg_setCtx]
  congr!

end

/-! ### A plain write apart from the contexts' records -/

theorem Dev.writeFields_setCtx (d : Dev) (k : Nat) (q : CtxSt) (mid : Nat) (b : Block) (i page off : Nat) (l : List FieldDef) (w : Word) :
    (d.setCtx k q).writeFields mid b i page off l w = (d.writeFields mid b i page off l w).setCtx k q := by
  have hok := d.fieldOk_setCtx k q mid b i page off
  have hset : ∀ a v, (d.setCtx k q).setReg a v = (d.setReg a v).setCtx k q := fun _ _ => rfl
  rw [Dev.writeFields, Dev.writeFields, hok, Dev.reg_setCtx, hset]
  rw [Dev.denyIf, Dev.denyIf]
  split <;> rfl

end Sys2Proof.Machine
end

section
/-! PROOFS. Writes of CTX_CTRL and CTX_SPEC (R208 to R211, R241). -/

namespace Sys2Proof.Machine

section
variable {d e f : Dev} {c n a mid : Nat}

/-! ### A word of a record written by the bus -/

/-- The fields of CTX_CTRL. -/
def ctrlFields : List FieldDef :=
  [⟨F.CTX_CTRL_EN, .rw, 0⟩, ⟨F.CTX_CTRL_SPEC_EN, .rwc, 0⟩, ⟨F.CTX_CTRL_TO_ACT, .rwc, 0⟩, ⟨F.CTX_CTRL_NSTAGE, .rwc, 0⟩, ⟨F.CTX_CTRL_ENGINE, .rwc, 0⟩]

theorem regAt_ctxCtrl : ∀ r < 8, regAt .ctxB (0x40 + 0x1C0 * r + 4 * 0) = some (⟨0x040, 0x1C0, 8, 0, 1, ctrlFields⟩, r, 0) := by decide

theorem placed_ctx (hc : c < 192) (hn : n < 112) (ht : d.takenAt mid (ctxA c n) = true) :
    Placed d (ctxA c n) .ctxB (c / 8) (0x40 + 0x1C0 * (c % 8) + 4 * n) := by
  obtain ⟨hb, -, hoff⟩ := inBlock_ctx hc hn
  rw [Dev.takenAt, hb.info] at ht
  simp only [Bool.and_eq_true, Bool.not_eq_true', decide_eq_true_eq] at ht
  obtain ⟨⟨⟨h1, h2⟩, -⟩, -⟩ := ht
  rw [hoff] at h2
  exact ⟨hb.info, hoff, h1, h2, by omega⟩

/-- What a taken write of a record's word comes to. -/
theorem Dev.ctxWrite_route (hc : c < 192) (hn : n < 112) (hlive : d.replaying = false) (ht : d.takenAt mid (ctxA c n) = true) (w : Word) :
    Quiet (d.ctxPageWrite mid (c / 8) (0x40 + 0x1C0 * (c % 8) + 4 * n) (ctxA c n) w) (d.unitWrite 192 c mid (ctxA c n) w) := by
  rw [Dev.unitWrite_in d hc]
  exact Dev.pWrite_placed (placed_ctx hc hn ht) hlive mid w

/-- An accepted write of a record's word ends its error. -/
theorem Dev.ctxPageWrite_mend (hn : n < 52) (ht : d.takenAt mid (ctxA c n) = true) (w : Word) :
    d.ctxPageWrite mid (c / 8) (0x40 + 0x1C0 * (c % 8) + 4 * n) (ctxA c n) w =
      if n = 0 then (d.ctxMend c n).ctxCtrlWrite mid c w
      else if n = 10 then (d.ctxMend c n).ctxSpecWrite mid c w
      else if 16 ≤ n ∧ n < 24 then (d.ctxMend c n).ctxInWrite mid c (n - 16) w
      else if 36 ≤ n ∧ n < 40 then (d.ctxMend c n).mantWrite mid (ctxA c n) w
      else (d.ctxMend c n).plainWrite mid (ctxA c n) w := by
  have hctx : 8 * (c / 8) + (0x40 + 0x1C0 * (c % 8) + 4 * n - 0x40) / 0x1C0 = c := by omega
  have hword : (0x40 + 0x1C0 * (c % 8) + 4 * n - 0x40) % 0x1C0 / 4 = n := by omega
  have htaken : d.ctxTaken mid c n (ctxA c n) = true := by
    rw [Dev.ctxTaken, ht, decide_eq_false (p := 52 ≤ n) (by omega)]
    rfl
  rw [Dev.ctxPageWrite, hctx, hword, if_pos (⟨by omega, htaken⟩ : 0x40 + 0x1C0 * (c % 8) + 4 * n < 0xE40 ∧ _),
    if_neg (show ¬0xE40 ≤ 0x40 + 0x1C0 * (c % 8) + 4 * n by omega), if_neg (show ¬52 ≤ n by omega)]

/-- The word mended: the context's record, and nothing else. -/
theorem Dev.ctxMend_set (d : Dev) (c n : Nat) : d.ctxMend c n = d ∧ (d.ctxS c).mend (· == n) = d.ctxS c ∨
    d.ctxMend c n = d.setCtx c ((d.ctxS c).mend (· == n)) := by
  rw [Dev.ctxMend]
  by_cases h : ((d.ctxS c).bad.contains n || (d.ctxS c).soft.contains n) = true
  · exact .inr (if_pos h)
  · rw [Bool.or_eq_true, not_or, Bool.not_eq_true, Bool.not_eq_true] at h
    refine .inl ⟨if_neg (by rw [h.1, h.2]; exact Bool.false_ne_true), ?_⟩
    rw [CtxSt.mend]
    have hid : ∀ l : List Nat, l.contains n = false → l.filter (fun x => !(x == n)) = l := fun l hl => filter_bne_self hl
    rw [hid _ h.1, hid _ h.2]

/-! ### CTX_CTRL -/

theorem ctxA_zero (c : Nat) : ctxA c 0 = R.CTX_CTRL c := rfl

theorem Dev.plainCtrl_eq (hc : c < 192) (ht : d.takenAt mid (R.CTX_CTRL c) = true) (w : Word) : d.plainWrite mid (R.CTX_CTRL c) w =
    d.writeFields mid .ctxB (c / 8) (pageOf (R.CTX_CTRL c)) (0x40 + 0x1C0 * (c % 8) + 4 * 0) ctrlFields w := by
  rw [← ctxA_zero] at ht ⊢
  refine d.plainWrite_placed (placed_ctx hc (by decide) ht) (regAt_ctxCtrl (c % 8) (Nat.mod_lt _ (by decide))) mid ?_
  exact BitVec.and_zero

theorem ctrl_address (hc : c < 192) : pageBase (pageOf (R.CTX_CTRL c)) + (0x40 + 0x1C0 * (c % 8) + 4 * 0) = R.CTX_CTRL c := by
  obtain ⟨hb, -, hoff⟩ := inBlock_ctx (n := 0) hc (by decide)
  rw [← hoff]
  exact pageBase_pageOf hb.space

/-- EN accepts every write that the register takes. -/
theorem Dev.ctrlEn_ok (hc : c < 192) (ht : d.takenAt mid (R.CTX_CTRL c) = true) :
    d.fieldOk mid .ctxB (c / 8) (pageOf (R.CTX_CTRL c)) (0x40 + 0x1C0 * (c % 8) + 4 * 0) ⟨F.CTX_CTRL_EN, .rw, 0⟩ = true := by
  rw [← ctxA_zero] at ht
  have hp := placed_ctx hc (n := 0) (by decide) ht
  rw [Dev.takenAt, hp.info, hp.offset] at ht
  simp only [Bool.and_eq_true] at ht
  have htaken := ht.2
  rw [Dev.writeTaken, regAt_ctxCtrl (c % 8) (Nat.mod_lt _ (by decide))] at htaken
  obtain ⟨fd, hfd, hok⟩ := List.any_eq_true.1 htaken
  have hacc : fd.acc = .rw ∨ fd.acc = .rwc := by
    simp only [ctrlFields, List.mem_cons, List.not_mem_nil, or_false] at hfd
    obtain rfl | rfl | rfl | rfl | rfl := hfd <;> simp
  obtain ⟨ff, facc, fr⟩ := fd
  dsimp only at hacc
  obtain rfl | rfl := hacc
  · exact hok
  · rw [Dev.fieldOk] at hok ⊢
    exact (Bool.and_eq_true _ _ ▸ hok : _ ∧ _).1

/-- A write of CTX_CTRL that is taken. -/
theorem Dev.plainCtrl_spec (hc : c < 192) (ht : d.takenAt mid (R.CTX_CTRL c) = true) (w : Word) :
    FrameOn noPart [R.CTX_CTRL c, R.PG_STAT (Pg.CTX (c / 8))] d (d.plainWrite mid (R.CTX_CTRL c) w) ∧
      (d.plainWrite mid (R.CTX_CTRL c) w).get (R.CTX_CTRL c) F.CTX_CTRL_EN = getF w F.CTX_CTRL_EN := by
  have hn := noPart_part
  have hok := Dev.ctrlEn_ok hc ht
  rw [Dev.plainCtrl_eq hc ht, Dev.writeFields, ctrl_address hc]
  generalize d.fieldOk mid .ctxB (c / 8) (pageOf (R.CTX_CTRL c)) (0x40 + 0x1C0 * (c % 8) + 4 * 0) = ok at hok
  have hpage : pageOf (R.CTX_CTRL c) = Pg.CTX (c / 8) := (inBlock_ctx (n := 0) hc (by decide)).2.1
  have hset := (FrameOn.refl hn [R.CTX_CTRL c, R.PG_STAT (Pg.CTX (c / 8))] d).setReg hn (a := R.CTX_CTRL c)
    (applyFields ok w ctrlFields (d.reg (R.CTX_CTRL c))) (by simp)
  have hget : (d.setReg (R.CTX_CTRL c) (applyFields ok w ctrlFields (d.reg (R.CTX_CTRL c)))).get (R.CTX_CTRL c) F.CTX_CTRL_EN = getF w F.CTX_CTRL_EN := by
    rw [Dev.get, Dev.reg_setReg_self]
    have hcong : getF (applyFields ok w ctrlFields (d.reg (R.CTX_CTRL c))) F.CTX_CTRL_EN = getF (setF (d.reg (R.CTX_CTRL c)) F.CTX_CTRL_EN (getF w F.CTX_CTRL_EN))
        F.CTX_CTRL_EN := getF_congr fun k hlo hhi => by
      have hin := applyFields_in (ok := ok) (w := w) (cur := d.reg (R.CTX_CTRL c)) (k := k) (l := ctrlFields) (by decide)
        (fd := ⟨F.CTX_CTRL_EN, .rw, 0⟩) List.mem_cons_self hlo hhi
      rw [hin, hok]
      rfl
    rw [hcong, getF_setF_self _ _ _ (by decide)]
    exact Nat.mod_eq_of_lt (getF_lt _ _)
  rw [hpage]
  refine ⟨hset.denyIf hn (by simp) _, ?_⟩
  rw [Dev.denyIf]
  refine ite_both (P := fun u : Dev => u.get (R.CTX_CTRL c) F.CTX_CTRL_EN = getF w F.CTX_CTRL_EN) (fun _ => ?_) fun _ => hget
  refine (Dev.get_put_ne _ _ _ _ ?_).trans hget
  simp only [R.CTX_CTRL, R.PG_STAT, pageBase, Pg.CTX]
  omega

/-- CTX_CTRL has been written, and its error ended. -/
structure CtrlWritten (d y : Dev) (mid c : Nat) (w : Word) : Prop where
  frame : FrameOn loopPart [R.CTX_CTRL c, R.PG_STAT (Pg.CTX (c / 8))] d y
  others : ∀ j, j ≠ c → y.ctxS j = d.ctxS j
  self : y.ctxS c = (d.ctxS c).mend (· == 0)
  en : y.get (R.CTX_CTRL c) F.CTX_CTRL_EN = getF w F.CTX_CTRL_EN
  cause : y.ctxCause c = (d.plainWrite mid (R.CTX_CTRL c) w).ctxCause c
  words : y.ctxWords c = (d.plainWrite mid (R.CTX_CTRL c) w).ctxWords c

theorem Dev.takenAt_setCtx (d : Dev) (c : Nat) (q : CtxSt) (mid a : Nat) : (d.setCtx c q).takenAt mid a = d.takenAt mid a := by
  rw [Dev.setCtx]
  rfl

theorem CtrlWritten.intro (hc : c < 192) (ht : d.takenAt mid (R.CTX_CTRL c) = true) (w : Word) :
    CtrlWritten d ((d.ctxMend c 0).plainWrite mid (R.CTX_CTRL c) w) mid c w := by
  obtain ⟨h1, h2⟩ := Dev.plainCtrl_spec hc ht w
  have hctx : ∀ j, (d.plainWrite mid (R.CTX_CTRL c) w).ctxS j = d.ctxS j := fun j => by rw [Dev.ctxS, h1.no_ctx]; rfl
  obtain ⟨heq, hid⟩ | heq := d.ctxMend_set c 0
  · rw [heq]
    exact ⟨h1.noCtx, fun j _ => hctx j, (hctx c).trans hid.symm, h2, rfl, rfl⟩
  · have hcomm : (d.setCtx c ((d.ctxS c).mend (· == 0))).plainWrite mid (R.CTX_CTRL c) w = (d.plainWrite mid (R.CTX_CTRL c) w).setCtx c ((d.ctxS c).mend (· == 0)) := by
      rw [Dev.plainCtrl_eq hc ((Dev.takenAt_setCtx _ _ _ _ _).trans ht), Dev.plainCtrl_eq hc ht, Dev.writeFields_setCtx]
    rw [heq, hcomm]
    exact ⟨h1.noCtx.ctxSet loopPart_part loopPart_ctx c _, fun j hj => by rw [Dev.ctxS_setCtx, if_neg hj, hctx], Dev.ctxS_setCtx_self _ _ _,
      (Dev.get_of_reg (Dev.reg_setCtx _ _ _ _) _).trans h2, Dev.ctxCause_setCtx _ _ _ _, Dev.ctxWords_setCtx _ _ _ _⟩

/-- A write of CTX_CTRL that is taken and asks for EN. -/
theorem Dev.ctrlWrite_on (ht : d.takenAt mid (R.CTX_CTRL c) = true) {w : Word} (hw : getF w F.CTX_CTRL_EN = 1) :
    d.ctxCtrlWrite mid c w =
      let y := d.plainWrite mid (R.CTX_CTRL c) (setF w F.CTX_CTRL_EN (b2n (d.flag (R.CTX_CTRL c) F.CTX_CTRL_EN)))
      if y.flag R.RPL_STAT F.RPL_STAT_DIRTY && !y.replaying then y.deny (Pg.CTX (c / 8)) else y.ctxEnable c (d.flag (R.CTX_CTRL c) F.CTX_CTRL_EN) := by
  have hen : (if d.flag (R.CTX_CTRL c) F.CTX_CTRL_EN = true then 1 else 0) = b2n (d.flag (R.CTX_CTRL c) F.CTX_CTRL_EN) := by
    cases d.flag (R.CTX_CTRL c) F.CTX_CTRL_EN <;> rfl
  rw [Dev.ctxCtrlWrite, ht, hw, hen]
  rfl

/-- One that asks for no EN of an enabled context. -/
theorem Dev.ctrlWrite_off (ht : d.takenAt mid (R.CTX_CTRL c) = true) {w : Word} (hw : getF w F.CTX_CTRL_EN = 0) (hen : d.flag (R.CTX_CTRL c) F.CTX_CTRL_EN = true) :
    d.ctxCtrlWrite mid c w = (d.plainWrite mid (R.CTX_CTRL c) (setF w F.CTX_CTRL_EN 0)).ctxDiscard c := by
  rw [Dev.ctxCtrlWrite, ht, hw, hen]
  rfl

end

end Sys2Proof.Machine
end

section
/-! PROOFS. Contexts enabled and disabled (R191, R208, R209). -/

namespace Sys2Proof.Machine

section
variable {d e f : Dev} {c n a mid : Nat}

/-! ### Registers -/

theorem ctxRegs_apart (c : Nat) : R.CTX_CTRL c ≠ R.CTX_STAT c ∧ R.CTX_CTRL c ≠ R.CTX_SPEC c ∧ R.CTX_STAT c ≠ R.CTX_SPEC c := by
  rw [R.CTX_CTRL, R.CTX_STAT, R.CTX_SPEC]
  omega

theorem lecFlag_apart (_hc : c < 192) : R.CTX_CTRL c ≠ R.LEC_FLAG (c / 32) ∧ R.CTX_STAT c ≠ R.LEC_FLAG (c / 32) := by
  rw [R.CTX_CTRL, R.CTX_STAT, R.LEC_FLAG]
  omega

theorem ctxStat_event (c : Nat) : eventReg (R.CTX_STAT c) = false := (showRegs_in stat_show).1.event

theorem Dev.ctxDiscard_reg (d : Dev) (ha : eventReg a = false) (hne : a ≠ R.CTX_SPEC c) : (d.ctxDiscard c).reg a = d.reg a :=
  ((FrameOn.refl loopPart_part [R.CTX_SPEC c] d).passDiscard loopPart_part loopPart_ctx (List.mem_singleton_self _)).reg loopPart_part ha fun hm =>
    hne (List.mem_singleton.1 hm)

/-! ### A refused enable -/

theorem ite_below {b : Prop} [Decidable b] {x y m : Nat} (hx : x < m) (hy : y < m) : (if b then x else y) < m := by
  split
  · exact hx
  · exact hy

theorem Dev.ctxCause_lt (d : Dev) (c : Nat) : d.ctxCause c < 32 := by
  rw [Dev.ctxCause]
  iterate 11 refine ite_below (by decide) ?_
  decide

/-- A cause shown. -/
def Dev.causeShown (d : Dev) (c : Nat) : Dev :=
  ((d.putB (R.CTX_STAT c) F.CTX_STAT_CFG_ERR true).put (R.CTX_STAT c) F.CTX_STAT_CAUSE (d.ctxCause c)).ctxEvent c Ev.CTX_CFG_ERR

theorem Dev.ctxEnable_refused (hcause : d.ctxCause c ≠ 0) (was : Bool) : d.ctxEnable c was =
    if was then ((d.causeShown c).putB (R.CTX_CTRL c) F.CTX_CTRL_EN false).ctxDiscard c else d.causeShown c := by
  rw [Dev.ctxEnable]
  exact if_pos hcause

theorem Dev.causeShown_spec (d : Dev) (hc : c < 192) : FrameOn noPart [R.CTX_STAT c, R.LEC_FLAG (c / 32)] d (d.causeShown c) ∧
    (d.causeShown c).flag (R.CTX_STAT c) F.CTX_STAT_CFG_ERR = true ∧ (d.causeShown c).get (R.CTX_STAT c) F.CTX_STAT_CAUSE = d.ctxCause c ∧
    Raised (d.causeShown c) Pg.LEC Ev.CTX_CFG_ERR := by
  have hn := noPart_part
  rw [Dev.causeShown]
  have h1 := ((FrameOn.refl hn [R.CTX_STAT c, R.LEC_FLAG (c / 32)] d).putB hn (a := R.CTX_STAT c) F.CTX_STAT_CFG_ERR true (by simp)).put hn
    (a := R.CTX_STAT c) F.CTX_STAT_CAUSE (d.ctxCause c) (by simp)
  have h2 : ((d.putB (R.CTX_STAT c) F.CTX_STAT_CFG_ERR true).put (R.CTX_STAT c) F.CTX_STAT_CAUSE (d.ctxCause c)).flag (R.CTX_STAT c) F.CTX_STAT_CFG_ERR = true :=
    (Dev.flag_put_field _ _ _ _ (by decide)).trans (Dev.flag_putB_self _ _ _ _ (by decide) (by decide))
  have h3 : ((d.putB (R.CTX_STAT c) F.CTX_STAT_CFG_ERR true).put (R.CTX_STAT c) F.CTX_STAT_CAUSE (d.ctxCause c)).get (R.CTX_STAT c) F.CTX_STAT_CAUSE = d.ctxCause c :=
    (Dev.get_put_self _ _ _ _ (by decide)).trans (Nat.mod_eq_of_lt (d.ctxCause_lt c))
  generalize (d.putB (R.CTX_STAT c) F.CTX_STAT_CFG_ERR true).put (R.CTX_STAT c) F.CTX_STAT_CAUSE (d.ctxCause c) = u at h1 h2 h3
  have hreg : (u.ctxEvent c Ev.CTX_CFG_ERR).reg (R.CTX_STAT c) = u.reg (R.CTX_STAT c) := by
    rw [Dev.ctxEvent, (Dev.raiseN_quiet _ _ _ _).reg (ctxStat_event c), Dev.orReg, Dev.reg_setReg_ne _ _ (lecFlag_apart hc).2]
  exact ⟨h1.lecEvent hn (by simp) _, (Dev.flag_of_reg hreg _).trans h2, (Dev.get_of_reg hreg _).trans h3, Dev.ctxEvent_raised _⟩

/-- An enable has been refused. -/
structure Refused208 (d e : Dev) (c : Nat) (was : Bool) : Prop where
  frame : FrameOn loopPart [R.CTX_CTRL c, R.CTX_STAT c, R.CTX_SPEC c, R.LEC_FLAG (c / 32)] d e
  others : ∀ j, j ≠ c → e.ctxS j = d.ctxS j
  off : e.flag (R.CTX_CTRL c) F.CTX_CTRL_EN = false
  self : e.ctxS c = if was then { d.ctxS c with pend := none } else d.ctxS c
  err : e.flag (R.CTX_STAT c) F.CTX_STAT_CFG_ERR = true
  cause : e.get (R.CTX_STAT c) F.CTX_STAT_CAUSE = d.ctxCause c
  raised : Raised e Pg.LEC Ev.CTX_CFG_ERR

theorem Dev.ctxEnable_refused_spec (hc : c < 192) (hcause : d.ctxCause c ≠ 0) : Refused208 d (d.ctxEnable c (d.flag (R.CTX_CTRL c) F.CTX_CTRL_EN)) c
    (d.flag (R.CTX_CTRL c) F.CTX_CTRL_EN) := by
  have hp := loopPart_part
  obtain ⟨n1, n2, n3⟩ := ctxRegs_apart c
  obtain ⟨h1, h2, h3, h4⟩ := d.causeShown_spec hc
  have hctx : ∀ j, (d.causeShown c).ctxS j = d.ctxS j := fun j => by rw [Dev.ctxS, h1.no_ctx]; rfl
  have hctrl : (d.causeShown c).reg (R.CTX_CTRL c) = d.reg (R.CTX_CTRL c) := h1.reg noPart_part (ctxCtrl_in c).event fun hm => by
    rw [List.mem_cons, List.mem_singleton] at hm
    exact hm.elim n1 (lecFlag_apart hc).1
  have h5 : FrameOn loopPart [R.CTX_CTRL c, R.CTX_STAT c, R.CTX_SPEC c, R.LEC_FLAG (c / 32)] d (d.causeShown c) :=
    h1.noCtx.mono fun a ha => by simp only [List.mem_cons, List.not_mem_nil, or_false] at ha ⊢; omega
  rw [Dev.ctxEnable_refused hcause]
  generalize d.causeShown c = u at h2 h3 h4 h5 hctx hctrl
  by_cases hw : d.flag (R.CTX_CTRL c) F.CTX_CTRL_EN = true
  · rw [hw, if_pos rfl]
    have h6 := h5.putB hp (a := R.CTX_CTRL c) F.CTX_CTRL_EN false (by simp)
    have h7 := u.flag_putB_self (R.CTX_CTRL c) F.CTX_CTRL_EN false (by decide) (by decide)
    have h8 : (u.putB (R.CTX_CTRL c) F.CTX_CTRL_EN false).reg (R.CTX_STAT c) = u.reg (R.CTX_STAT c) := Dev.reg_put_ne _ _ _ n1.symm
    have h9 : ∀ j, (u.putB (R.CTX_CTRL c) F.CTX_CTRL_EN false).ctxS j = u.ctxS j := fun j => Dev.ctxS_put _ _ _ _ _
    have h10 : Raised (u.putB (R.CTX_CTRL c) F.CTX_CTRL_EN false) Pg.LEC Ev.CTX_CFG_ERR := by
      have hne : R.PG_EVT_RAW Pg.LEC ≠ R.CTX_CTRL c := by
        rw [show R.PG_EVT_RAW Pg.LEC = 0x40060010 by decide, R.CTX_CTRL]
        omega
      rw [Raised, Dev.putB, Dev.reg_put_ne _ _ _ hne]
      exact h4
    generalize u.putB (R.CTX_CTRL c) F.CTX_CTRL_EN false = v at h6 h7 h8 h9 h10
    have hd := (FrameOn.refl hp [R.CTX_SPEC c] v).passDiscard hp loopPart_ctx (c := c) (List.mem_singleton_self _)
    refine ⟨h6.passDiscard hp loopPart_ctx (by simp), fun j hj => ?_, ?_, ?_, ?_, ?_, hd.raised hp (fun hm => ?_) h10⟩
    · rw [Dev.ctxDiscard_ctxS, if_neg hj, h9, hctx]
    · rw [Dev.flag_of_reg (v.ctxDiscard_reg (ctxCtrl_in c).event n2)]
      exact h7
    · rw [Dev.ctxDiscard_ctxS, if_pos rfl, h9, hctx, if_pos rfl]
    · rw [Dev.flag_of_reg ((v.ctxDiscard_reg (ctxStat_event c) n3).trans h8)]
      exact h2
    · rw [Dev.get_of_reg ((v.ctxDiscard_reg (ctxStat_event c) n3).trans h8)]
      exact h3
    · have := List.mem_singleton.1 hm
      rw [show R.PG_EVT_RAW Pg.LEC = 0x40060010 by decide, R.CTX_SPEC] at this
      omega
  · rw [Bool.not_eq_true] at hw
    rw [hw, if_neg Bool.false_ne_true]
    exact ⟨h5, fun j _ => hctx j, (Dev.flag_of_reg hctrl _).trans hw, by rw [hctx, if_neg Bool.false_ne_true], h2, h3, h4⟩

/-! ### An accepted enable -/

/-- The stages of a pass rest on the stages and their kinds. -/
theorem passFrames_congr {l m : List Word} (h0 : recW l 0 = recW m 0) (hk : ∀ k < 12, recSd l k = recSd m k) : passFrames l = passFrames m := by
  have hst : recStages l = recStages m := by rw [recStages, recStages, h0]
  rw [passFrames, passFrames, hst]
  congr 2
  refine List.map_congr_left fun k hmem => ?_
  have h12 : k < 12 := (List.mem_range.1 hmem).trans_le (Nat.min_le_right _ _)
  rw [recKind, recKind, hk k h12]

theorem recW_ctxWords (d : Dev) (c : Nat) (hn : n < 52) : recW (d.ctxWords c) n = d.reg (ctxA c n) := by
  rw [recW, nthD_eq_headD, Dev.ctxWords, recShape, List.headD_eq_head?_getD, List.head?_drop, List.getElem?_map, List.getElem?_range (by omega)]
  rw [Option.map_some, Option.getD_some, if_pos hn, recW_rawWords d c (by omega)]

theorem passFrames_ctxWords (hr : ∀ n, n < 52 → n ≠ 12 → e.reg (ctxA c n) = d.reg (ctxA c n)) : passFrames (e.ctxWords c) = passFrames (d.ctxWords c) := by
  refine passFrames_congr ?_ fun k hk => ?_
  · rw [recW_ctxWords _ _ (by decide), recW_ctxWords _ _ (by decide), hr 0 (by decide) (by decide)]
  · rw [recSd, recSd, recW_ctxWords _ _ (by omega), recW_ctxWords _ _ (by omega), hr (24 + k) (by omega) (by omega)]

/-- The cause of an accepted enable. -/
def Dev.causeClear (d : Dev) (c : Nat) : Dev := (d.putB (R.CTX_STAT c) F.CTX_STAT_CFG_ERR false).put (R.CTX_STAT c) F.CTX_STAT_CAUSE 0

/-- The status of an accepted enable. -/
def Dev.statClear (d : Dev) (c : Nat) : Dev :=
  ((d.causeClear c).putB (R.CTX_STAT c) F.CTX_STAT_ECC_ERR false).put (R.CTX_STAT c) F.CTX_STAT_D (passFrames ((d.causeClear c).ctxWords c))

/-- The registers of an accepted enable. -/
def Dev.enableRegsPut (d : Dev) (c : Nat) : Dev := ((d.statClear c).putB (R.CTX_CTRL c) F.CTX_CTRL_EN true).setNpred c

/-- What every ACC slot of a context has read. -/
def Dev.seenNow (d : Dev) (c : Nat) : Sparse Nat := forN 8 (fun i l => spPut 0 l i (d.slotCount c i)) []

/-- The record of an enabled context. -/
def Dev.progSet (d : Dev) (c : Nat) (was : Bool) : Dev :=
  d.setCtx c { d.ctxS c with prog := d.rawWords c, seen := if was then (d.ctxS c).seen else d.seenNow c }

theorem Dev.ctxEnable_accepted (hcause : d.ctxCause c = 0) (was : Bool) : d.ctxEnable c was = (d.enableRegsPut c).progSet c was := by
  rw [Dev.ctxEnable]
  exact if_neg (not_not.2 hcause)

theorem Dev.seenNow_get (d : Dev) (c : Nat) {i : Nat} (hi : i < 8) : spGet 0 (d.seenNow c) i = d.slotCount c i := by
  have h := forN_each (I := fun _ : Sparse Nat => True) (Q := fun i l => spGet 0 l i = d.slotCount c i) (f := fun i l => spPut 0 l i (d.slotCount c i)) 8
    (fun _ _ _ _ => trivial) (fun k _ l _ => spGet_spPut_self _ _ _) (fun k _ j hj l _ hl => by
      rw [spGet_spPut, if_neg (by omega)]
      exact hl) (s := []) trivial
  exact h.2 i hi

/-- What an accepted enable shows. -/
structure EnableShown (d e : Dev) (c : Nat) : Prop where
  frame : FrameOn noPart [R.CTX_CTRL c, R.CTX_STAT c, R.CTX_SPEC c] d e
  on : e.flag (R.CTX_CTRL c) F.CTX_CTRL_EN = true
  err : e.flag (R.CTX_STAT c) F.CTX_STAT_CFG_ERR = false
  cause : e.get (R.CTX_STAT c) F.CTX_STAT_CAUSE = 0
  frames : e.get (R.CTX_STAT c) F.CTX_STAT_D = passFrames (d.ctxWords c) % 256

theorem Dev.causeClear_spec (d : Dev) (c : Nat) : FrameOn noPart [R.CTX_STAT c] d (d.causeClear c) ∧ (d.causeClear c).flag (R.CTX_STAT c) F.CTX_STAT_CFG_ERR = false ∧
    (d.causeClear c).get (R.CTX_STAT c) F.CTX_STAT_CAUSE = 0 := by
  have hn := noPart_part
  have hm : R.CTX_STAT c ∈ [R.CTX_STAT c] := List.mem_singleton_self _
  refine ⟨((FrameOn.refl hn _ d).putB hn _ _ hm).put hn _ _ hm, ?_, ?_⟩
  · exact (Dev.flag_put_field _ _ _ _ (by decide)).trans (Dev.flag_putB_self _ _ _ _ (by decide) (by decide))
  · exact Dev.get_put_self _ _ _ _ (by decide)

theorem ctxA_inCtx (hn : n < 112) : InCtx c (ctxA c n) := ⟨4 * n, by omega, rfl⟩

theorem Dev.statClear_spec (d : Dev) (c : Nat) : FrameOn noPart [R.CTX_STAT c] d (d.statClear c) ∧ (d.statClear c).flag (R.CTX_STAT c) F.CTX_STAT_CFG_ERR = false ∧
    (d.statClear c).get (R.CTX_STAT c) F.CTX_STAT_CAUSE = 0 ∧ (d.statClear c).get (R.CTX_STAT c) F.CTX_STAT_D = passFrames (d.ctxWords c) % 256 := by
  have hn := noPart_part
  have hm : R.CTX_STAT c ∈ [R.CTX_STAT c] := List.mem_singleton_self _
  obtain ⟨h1, h2, h3⟩ := d.causeClear_spec c
  have hwords : passFrames ((d.causeClear c).ctxWords c) = passFrames (d.ctxWords c) := passFrames_ctxWords fun n hlt hne =>
    h1.reg hn (ctxA_inCtx (by omega)).event fun hm => by
      have := List.mem_singleton.1 hm
      rw [ctxA, R.CTX_CTRL, R.CTX_STAT] at this
      omega
  rw [Dev.statClear, hwords]
  generalize d.causeClear c = u at h1 h2 h3
  refine ⟨(h1.putB hn _ _ hm).put hn _ _ hm, ?_, ?_, Dev.get_put_self _ _ _ _ (by decide)⟩
  · exact (Dev.flag_put_field _ _ _ _ (by decide)).trans ((Dev.flag_put_field _ _ _ _ (by decide)).trans h2)
  · exact (Dev.get_put_field _ _ _ _ _ _ (by decide)).trans ((Dev.get_put_field _ _ _ _ _ _ (by decide)).trans h3)

theorem Dev.enableRegsPut_spec (d : Dev) (c : Nat) : EnableShown d (d.enableRegsPut c) c := by
  have hn := noPart_part
  obtain ⟨n1, n2, n3⟩ := ctxRegs_apart c
  obtain ⟨h4, h5, h6, h7⟩ := d.statClear_spec c
  rw [Dev.enableRegsPut]
  generalize d.statClear c = v at h4 h5 h6 h7
  have h8 := (h4.mono (m := [R.CTX_CTRL c, R.CTX_STAT c, R.CTX_SPEC c]) fun a ha => by rw [List.mem_singleton.1 ha]; simp).putB hn (a := R.CTX_CTRL c) F.CTX_CTRL_EN true
    (by simp)
  have h9 := v.flag_putB_self (R.CTX_CTRL c) F.CTX_CTRL_EN true (by decide) (by decide)
  have h10 : (v.putB (R.CTX_CTRL c) F.CTX_CTRL_EN true).reg (R.CTX_STAT c) = v.reg (R.CTX_STAT c) := Dev.reg_put_ne _ _ _ n1.symm
  generalize v.putB (R.CTX_CTRL c) F.CTX_CTRL_EN true = w at h8 h9 h10
  have h11 : ∀ a, a ≠ R.CTX_SPEC c → (w.setNpred c).reg a = w.reg a := fun a ha => by
    rw [Dev.setNpred, Dev.putB, Dev.reg_put_ne _ _ _ ha, Dev.reg_put_ne _ _ _ ha]
  have h12 : FrameOn noPart [R.CTX_CTRL c, R.CTX_STAT c, R.CTX_SPEC c] d (w.setNpred c) := (h8.put hn _ _ (by simp)).putB hn _ _ (by simp)
  exact ⟨h12, (Dev.flag_of_reg (h11 _ n2) _).trans h9, (Dev.flag_of_reg ((h11 _ n3).trans h10) _).trans h5,
    (Dev.get_of_reg ((h11 _ n3).trans h10) _).trans h6, (Dev.get_of_reg ((h11 _ n3).trans h10) _).trans h7⟩

/-- An enable has been accepted. -/
structure Accepted208 (d e : Dev) (c : Nat) (was : Bool) : Prop where
  frame : FrameOn loopPart [R.CTX_CTRL c, R.CTX_STAT c, R.CTX_SPEC c] d e
  others : ∀ j, j ≠ c → e.ctxS j = d.ctxS j
  on : e.flag (R.CTX_CTRL c) F.CTX_CTRL_EN = true
  err : e.flag (R.CTX_STAT c) F.CTX_STAT_CFG_ERR = false
  cause : e.get (R.CTX_STAT c) F.CTX_STAT_CAUSE = 0
  frames : e.get (R.CTX_STAT c) F.CTX_STAT_D = passFrames (d.ctxWords c) % 256
  self : e.ctxS c = { d.ctxS c with prog := e.rawWords c, seen := (e.ctxS c).seen }
  seen : if was then (e.ctxS c).seen = (d.ctxS c).seen else ∀ i, i < 8 → spGet 0 (e.ctxS c).seen i = d.slotCount c i

theorem Dev.progSet_self (d : Dev) (c : Nat) (was : Bool) : (d.progSet c was).ctxS c =
    { d.ctxS c with prog := d.rawWords c, seen := if was then (d.ctxS c).seen else d.seenNow c } := Dev.ctxS_setCtx_self _ _ _

theorem Dev.progSet_prog (d : Dev) (c : Nat) (was : Bool) : (d.progSet c was).ctxS c =
    { d.ctxS c with prog := (d.progSet c was).rawWords c, seen := ((d.progSet c was).ctxS c).seen } := by
  rw [Dev.progSet_self]
  rfl

theorem Dev.progSet_seen (d : Dev) (c : Nat) (was : Bool) :
    if was then ((d.progSet c was).ctxS c).seen = (d.ctxS c).seen else ∀ i, i < 8 → spGet 0 ((d.progSet c was).ctxS c).seen i = d.slotCount c i := by
  rw [Dev.progSet_self]
  cases was with
  | true => exact rfl
  | false => exact fun i hi => d.seenNow_get c hi

theorem Dev.progSet_frame {l : List Nat} (h : FrameOn loopPart l d e) (c : Nat) (was : Bool) : FrameOn loopPart l d (e.progSet c was) := by
  rw [Dev.progSet]
  exact h.ctxSet loopPart_part loopPart_ctx c _

theorem Dev.progSet_other (d : Dev) (was : Bool) {j : Nat} (hj : j ≠ c) : (d.progSet c was).ctxS j = d.ctxS j := by
  rw [Dev.progSet, Dev.ctxS_setCtx, if_neg hj]

theorem Dev.progSet_reg (d : Dev) (c : Nat) (was : Bool) (a : Nat) : (d.progSet c was).reg a = d.reg a := Dev.reg_setCtx _ _ _ _

theorem Dev.enableRegsPut_ctx (d : Dev) (c j : Nat) : (d.enableRegsPut c).ctxS j = d.ctxS j := by
  rw [Dev.ctxS, (d.enableRegsPut_spec c).frame.no_ctx]
  rfl

theorem ctxIn_apart {i : Nat} (hi : i < 8) (c : Nat) : R.CTX_IN c i ∉ [R.CTX_CTRL c, R.CTX_STAT c, R.CTX_SPEC c] := by
  simp only [List.mem_cons, List.not_mem_nil, or_false, R.CTX_IN, R.CTX_CTRL, R.CTX_STAT, R.CTX_SPEC]
  omega

theorem FrameOn.no_acc {l : List Nat} (h : FrameOn noPart l d e) : e.acc = d.acc := (congrArg Dev.acc h.1 :)

theorem Dev.enableRegsPut_count (d : Dev) (c : Nat) {i : Nat} (hi : i < 8) : (d.enableRegsPut c).slotCount c i = d.slotCount c i :=
  Dev.slotCount_congr ((d.enableRegsPut_spec c).frame.reg noPart_part (ctxIn_event hi c) (ctxIn_apart hi c)) (d.enableRegsPut_spec c).frame.no_acc

theorem Dev.ctxEnable_accepted_spec (hcause : d.ctxCause c = 0) (was : Bool) : Accepted208 d (d.ctxEnable c was) c was := by
  rw [Dev.ctxEnable_accepted hcause]
  obtain ⟨h1, h2, h3, h4, h5⟩ := d.enableRegsPut_spec c
  have hctx := d.enableRegsPut_ctx c
  have hcount : ∀ i, i < 8 → _ := fun i hi => d.enableRegsPut_count c (i := i) hi
  generalize d.enableRegsPut c = u at h1 h2 h3 h4 h5 hctx hcount
  have hreg := u.progSet_reg c was
  have hprog := u.progSet_prog c was
  have hseen := u.progSet_seen c was
  have hframe := Dev.progSet_frame h1.noCtx c was
  have hother : ∀ j, j ≠ c → _ := fun j hj => u.progSet_other (c := c) was (j := j) hj
  generalize u.progSet c was = v at hreg hprog hseen hframe hother
  rw [hctx] at hprog hseen
  refine ⟨hframe, fun j hj => (hother j hj).trans (hctx j), (Dev.flag_of_reg (hreg _) _).trans h2,
    (Dev.flag_of_reg (hreg _) _).trans h3, (Dev.get_of_reg (hreg _) _).trans h4, (Dev.get_of_reg (hreg _) _).trans h5, hprog, ?_⟩
  cases was with
  | true => exact hseen
  | false => exact fun i hi => (hseen i hi).trans (hcount i hi)

end

end Sys2Proof.Machine
end

section
/-! PROOFS. What a write of EN does to a context (R191, R208, R209). -/

namespace Sys2Proof.Machine

section
variable {d e y : Dev} {c mid : Nat}

/-- Of two writes of a field the second stands. -/
theorem setF_again (w : Word) (f : RField) (u v : Nat) : setF (setF w f u) f v = setF w f v := by
  apply BitVec.eq_of_getLsbD_eq
  intro k hk
  rw [setF_bit _ _ _ _ hk, setF_bit _ _ _ _ hk, setF_bit _ _ _ _ hk]
  split
  · rfl
  · rfl

theorem CtrlWritten.reg {w : Word} (k : CtrlWritten d y mid c w) {a : Nat} (ha : eventReg a = false) (h1 : a ≠ R.CTX_CTRL c)
    (h2 : a ≠ R.PG_STAT (Pg.CTX (c / 8))) : y.reg a = d.reg a := k.frame.reg loopPart_part ha fun hm => by
  rw [List.mem_cons, List.mem_singleton] at hm
  exact hm.elim h1 h2

theorem CtrlWritten.count {w : Word} (k : CtrlWritten d y mid c w) {i : Nat} (hi : i < 8) : y.slotCount c i = d.slotCount c i := by
  have hacc : y.acc = d.acc := (congrArg Dev.acc k.frame.1 :)
  refine Dev.slotCount_congr (k.reg (ctxIn_event hi c) ?_ ?_) hacc
  all_goals
    simp only [R.CTX_IN, R.CTX_CTRL, R.PG_STAT, pageBase, Pg.CTX]
    omega

/-- A context is disabled. -/
structure Off209 (d e : Dev) (c : Nat) : Prop where
  frame : FrameOn loopPart [R.CTX_CTRL c, R.CTX_SPEC c, R.PG_STAT (Pg.CTX (c / 8))] d e
  others : ∀ j, j ≠ c → e.ctxS j = d.ctxS j
  off : e.flag (R.CTX_CTRL c) F.CTX_CTRL_EN = false
  self : e.ctxS c = { (d.ctxS c).mend (· == 0) with pend := none }

theorem CtrlWritten.disabled {w : Word} (k : CtrlWritten d y mid c w) (hw : getF w F.CTX_CTRL_EN = 0) : Off209 d (y.ctxDiscard c) c := by
  have hp := loopPart_part
  refine ⟨(k.frame.mono fun a ha => ?_).passDiscard hp loopPart_ctx (by simp), fun j hj => ?_, ?_, ?_⟩
  · simp only [List.mem_cons, List.not_mem_nil, or_false] at ha ⊢
    exact ha.imp_right .inr
  · rw [Dev.ctxDiscard_ctxS, if_neg hj, k.others j hj]
  · rw [Dev.flag_of_reg (y.ctxDiscard_reg (ctxCtrl_in c).event (ctxRegs_apart c).2.1), Dev.flag, k.en, hw]
    rfl
  · rw [Dev.ctxDiscard_ctxS, if_pos rfl, k.self]

theorem Off209.quiet {f : Dev} (h : Off209 d e c) (hq : Quiet e f) : Off209 d f c :=
  ⟨h.frame.quiet loopPart_part hq, fun j hj => (hq.ctxS j).trans (h.others j hj), (hq.flag (ctxCtrl_in c).event _).trans h.off, (hq.ctxS c).trans h.self⟩

/-- The end of a word's error leaves the registers. -/
theorem Dev.ctxMend_reg (d : Dev) (c n a : Nat) : (d.ctxMend c n).reg a = d.reg a := by
  obtain ⟨h, -⟩ | h := d.ctxMend_set c n
  · rw [h]
  · rw [h, Dev.reg_setCtx]

theorem Dev.ctxMend_takenAt (d : Dev) (c n mid a : Nat) : (d.ctxMend c n).takenAt mid a = d.takenAt mid a := by
  obtain ⟨h, -⟩ | h := d.ctxMend_set c n
  · rw [h]
  · rw [h, Dev.takenAt_setCtx]

/-- A write of CTX_CTRL ends the error of its word first. -/
theorem Dev.ctrlWrite_route (hc : c < 192) (hlive : d.replaying = false) (ht : d.takenAt mid (R.CTX_CTRL c) = true) (w : Word) :
    Quiet ((d.ctxMend c 0).ctxCtrlWrite mid c w) (d.unitWrite 192 c mid (R.CTX_CTRL c) w) := by
  have hq := Dev.ctxWrite_route hc (n := 0) (by decide) hlive ht w
  rwa [Dev.ctxPageWrite_mend (by decide) ht, if_pos rfl] at hq

/-- A write of EN = 0 to an enabled context. -/
theorem Dev.disable_spec (hc : c < 192) (hlive : d.replaying = false) (ht : d.takenAt mid (R.CTX_CTRL c) = true)
    (hen : d.flag (R.CTX_CTRL c) F.CTX_CTRL_EN = true) (w : Word) : Off209 d (d.unitWrite 192 c mid (R.CTX_CTRL c) (setF w F.CTX_CTRL_EN 0)) c := by
  have hq := Dev.ctrlWrite_route hc hlive ht (setF w F.CTX_CTRL_EN 0)
  rw [Dev.ctrlWrite_off ((d.ctxMend_takenAt c 0 mid _).trans ht) (getF_setF_self _ _ _ (by decide))
    ((Dev.flag_of_reg (d.ctxMend_reg c 0 _) _).trans hen), setF_again] at hq
  exact ((CtrlWritten.intro hc ht (setF w F.CTX_CTRL_EN 0)).disabled (getF_setF_self _ _ _ (by decide))).quiet hq

/-! ### EN = 1 -/

/-- What precedes the check of an enable: the other fields, and EN as it stood. -/
def Dev.enWritten (d : Dev) (mid c : Nat) (w : Word) : Dev :=
  (d.ctxMend c 0).plainWrite mid (R.CTX_CTRL c) (setF w F.CTX_CTRL_EN (b2n (d.flag (R.CTX_CTRL c) F.CTX_CTRL_EN)))

theorem Dev.enWritten_spec (hc : c < 192) (ht : d.takenAt mid (R.CTX_CTRL c) = true) (w : Word) :
    CtrlWritten d (d.enWritten mid c w) mid c (setF w F.CTX_CTRL_EN (b2n (d.flag (R.CTX_CTRL c) F.CTX_CTRL_EN))) := CtrlWritten.intro hc ht _

theorem CtrlWritten.was {w : Word} (k : CtrlWritten d y mid c (setF w F.CTX_CTRL_EN (b2n (d.flag (R.CTX_CTRL c) F.CTX_CTRL_EN)))) :
    y.flag (R.CTX_CTRL c) F.CTX_CTRL_EN = d.flag (R.CTX_CTRL c) F.CTX_CTRL_EN := by
  rw [Dev.flag, k.en, getF_setF_self _ _ _ (by decide)]
  cases d.flag (R.CTX_CTRL c) F.CTX_CTRL_EN <;> decide

/-- A write of EN = 1 that is taken, outside a replay's remains. -/
theorem Dev.enable_route (hc : c < 192) (hlive : d.replaying = false) (ht : d.takenAt mid (R.CTX_CTRL c) = true)
    (hdirty : d.flag R.RPL_STAT F.RPL_STAT_DIRTY = false) (w : Word) :
    Quiet ((d.enWritten mid c w).ctxEnable c (d.flag (R.CTX_CTRL c) F.CTX_CTRL_EN)) (d.unitWrite 192 c mid (R.CTX_CTRL c) (setF w F.CTX_CTRL_EN 1)) := by
  have hq := Dev.ctrlWrite_route hc hlive ht (setF w F.CTX_CTRL_EN 1)
  have k := Dev.enWritten_spec hc ht w
  have hd : (d.enWritten mid c w).flag R.RPL_STAT F.RPL_STAT_DIRTY = false := by
    refine (Dev.flag_of_reg (k.reg (by decide) ?_ ?_) _).trans hdirty
    all_goals
      simp only [R.RPL_STAT, R.CTX_CTRL, R.PG_STAT, pageBase, Pg.CTX]
      omega
  rw [Dev.ctrlWrite_on ((d.ctxMend_takenAt c 0 mid _).trans ht) (getF_setF_self _ _ _ (by decide)), setF_again, Dev.flag_of_reg (d.ctxMend_reg c 0 _)] at hq
  dsimp only at hq
  rw [Dev.enWritten] at hd ⊢
  rwa [hd, Bool.false_and, if_neg Bool.false_ne_true] at hq

/-- What a refused enable leaves. -/
structure EnRefused (d e x : Dev) (c : Nat) : Prop where
  frame : FrameOn loopPart [R.CTX_CTRL c, R.CTX_STAT c, R.CTX_SPEC c, R.LEC_FLAG (c / 32), R.PG_STAT (Pg.CTX (c / 8))] d e
  others : ∀ j, j ≠ c → e.ctxS j = d.ctxS j
  off : e.flag (R.CTX_CTRL c) F.CTX_CTRL_EN = false
  self : e.ctxS c = if d.flag (R.CTX_CTRL c) F.CTX_CTRL_EN then { (d.ctxS c).mend (· == 0) with pend := none } else (d.ctxS c).mend (· == 0)
  err : e.flag (R.CTX_STAT c) F.CTX_STAT_CFG_ERR = true
  cause : e.get (R.CTX_STAT c) F.CTX_STAT_CAUSE = x.ctxCause c
  raised : Raised e Pg.LEC Ev.CTX_CFG_ERR

/-- What an accepted enable leaves. -/
structure EnAccepted (d e x : Dev) (c : Nat) : Prop where
  frame : FrameOn loopPart [R.CTX_CTRL c, R.CTX_STAT c, R.CTX_SPEC c, R.PG_STAT (Pg.CTX (c / 8))] d e
  others : ∀ j, j ≠ c → e.ctxS j = d.ctxS j
  on : e.flag (R.CTX_CTRL c) F.CTX_CTRL_EN = true
  err : e.flag (R.CTX_STAT c) F.CTX_STAT_CFG_ERR = false
  cause : e.get (R.CTX_STAT c) F.CTX_STAT_CAUSE = 0
  frames : e.get (R.CTX_STAT c) F.CTX_STAT_D = passFrames (x.ctxWords c) % 256
  self : e.ctxS c = { (d.ctxS c).mend (· == 0) with prog := e.rawWords c, seen := (e.ctxS c).seen }
  seen : if d.flag (R.CTX_CTRL c) F.CTX_CTRL_EN then (e.ctxS c).seen = ((d.ctxS c).mend (· == 0)).seen else ∀ i, i < 8 → spGet 0 (e.ctxS c).seen i = d.slotCount c i

theorem EnRefused.quiet {f x : Dev} (h : EnRefused d e x c) (hq : Quiet e f) : EnRefused d f x c :=
  ⟨h.frame.quiet loopPart_part hq, fun j hj => (hq.ctxS j).trans (h.others j hj), (hq.flag (ctxCtrl_in c).event _).trans h.off, (hq.ctxS c).trans h.self,
    (hq.flag (ctxStat_event c) _).trans h.err, (hq.get (ctxStat_event c) _).trans h.cause, hq.raised h.raised⟩

theorem Quiet.rawWords {f : Dev} (hq : Quiet e f) (c : Nat) : f.rawWords c = e.rawWords c := by
  rw [Dev.rawWords, Dev.rawWords]
  exact List.map_congr_left fun n hn => hq.reg (ctxA_inCtx (List.mem_range.1 hn)).event

theorem EnAccepted.quiet {f x : Dev} (h : EnAccepted d e x c) (hq : Quiet e f) : EnAccepted d f x c :=
  ⟨h.frame.quiet loopPart_part hq, fun j hj => (hq.ctxS j).trans (h.others j hj), (hq.flag (ctxCtrl_in c).event _).trans h.on,
    (hq.flag (ctxStat_event c) _).trans h.err, (hq.get (ctxStat_event c) _).trans h.cause, (hq.get (ctxStat_event c) _).trans h.frames,
    by rw [hq.ctxS, hq.rawWords]; exact h.self, by rw [hq.ctxS]; exact h.seen⟩

/-- An enable that is refused. -/
theorem Dev.enable_refused (hc : c < 192) (hlive : d.replaying = false) (ht : d.takenAt mid (R.CTX_CTRL c) = true)
    (hdirty : d.flag R.RPL_STAT F.RPL_STAT_DIRTY = false) (w : Word) {x : Dev}
    (hx : d.plainWrite mid (R.CTX_CTRL c) (setF w F.CTX_CTRL_EN (b2n (d.flag (R.CTX_CTRL c) F.CTX_CTRL_EN))) = x) (hcause : x.ctxCause c ≠ 0) :
    EnRefused d (d.unitWrite 192 c mid (R.CTX_CTRL c) (setF w F.CTX_CTRL_EN 1)) x c := by
  have hq := Dev.enable_route hc hlive ht hdirty w
  have k := Dev.enWritten_spec hc ht w
  have hwas := k.was
  generalize d.enWritten mid c w = y at hq k hwas
  have kc := k.cause
  rw [hx] at kc
  have m := Dev.ctxEnable_refused_spec hc (kc.trans_ne hcause)
  rw [hwas] at m
  refine EnRefused.quiet ?_ hq
  refine ⟨(k.frame.mono fun a ha => ?_).trans loopPart_part (m.frame.mono fun a ha => ?_), fun j hj => (m.others j hj).trans (k.others j hj), m.off, ?_, m.err,
    m.cause.trans kc, m.raised⟩
  · simp only [List.mem_cons, List.not_mem_nil, or_false] at ha ⊢
    exact ha.imp_right fun h => .inr (.inr (.inr h))
  · simp only [List.mem_cons, List.not_mem_nil, or_false] at ha ⊢
    tauto
  · rw [m.self, k.self]

/-- An enable that is accepted. -/
theorem Dev.enable_accepted (hc : c < 192) (hlive : d.replaying = false) (ht : d.takenAt mid (R.CTX_CTRL c) = true)
    (hdirty : d.flag R.RPL_STAT F.RPL_STAT_DIRTY = false) (w : Word) {x : Dev}
    (hx : d.plainWrite mid (R.CTX_CTRL c) (setF w F.CTX_CTRL_EN (b2n (d.flag (R.CTX_CTRL c) F.CTX_CTRL_EN))) = x) (hcause : x.ctxCause c = 0) :
    EnAccepted d (d.unitWrite 192 c mid (R.CTX_CTRL c) (setF w F.CTX_CTRL_EN 1)) x c := by
  have hq := Dev.enable_route hc hlive ht hdirty w
  have k := Dev.enWritten_spec hc ht w
  generalize d.enWritten mid c w = y at hq k
  have kc := k.cause
  have kw := k.words
  rw [hx] at kc kw
  have m := Dev.ctxEnable_accepted_spec (kc.trans hcause) (d.flag (R.CTX_CTRL c) F.CTX_CTRL_EN)
  refine EnAccepted.quiet ?_ hq
  refine ⟨(k.frame.mono fun a ha => ?_).trans loopPart_part (m.frame.mono fun a ha => ?_), fun j hj => (m.others j hj).trans (k.others j hj), m.on, m.err, m.cause,
    by rw [m.frames, kw], ?_, ?_⟩
  · simp only [List.mem_cons, List.not_mem_nil, or_false] at ha ⊢
    exact ha.imp_right fun h => .inr (.inr h)
  · simp only [List.mem_cons, List.not_mem_nil, or_false] at ha ⊢
    tauto
  · exact m.self.trans (by rw [k.self])
  · have hseen := m.seen
    by_cases hwas : d.flag (R.CTX_CTRL c) F.CTX_CTRL_EN = true
    · rw [if_pos hwas] at hseen ⊢
      exact hseen.trans (by rw [k.self])
    · rw [if_neg hwas] at hseen ⊢
      exact fun i hi => (hseen i hi).trans (k.count hi)

end

end Sys2Proof.Machine
end

section
/-! PROOFS. A suspension of speculation cleared (R241). -/

namespace Sys2Proof.Machine

section
variable {d e y : Dev} {c mid : Nat} {w cur : Word} {fd : FieldDef}

/-- The fields of CTX_SPEC. -/
def specFields : List FieldDef :=
  [⟨F.CTX_SPEC_STATE, .ro, 0⟩, ⟨F.CTX_SPEC_SUSP, .w1c, 0⟩, ⟨F.CTX_SPEC_CMP1, .rwc, 0⟩, ⟨F.CTX_SPEC_PW_ERR, .ro, 0⟩, ⟨F.CTX_SPEC_OUTCOME, .ro, 0⟩,
   ⟨F.CTX_SPEC_FB_MAX, .rwc, 4⟩, ⟨F.CTX_SPEC_FB_RUN, .ro, 0⟩, ⟨F.CTX_SPEC_CAUSE, .ro, 0⟩, ⟨F.CTX_SPEC_NPRED, .ro, 0⟩, ⟨F.CTX_SPEC_FB_CNT, .w1n, 0⟩]

theorem regAt_ctxSpec : ∀ r < 8, regAt .ctxB (0x40 + 0x1C0 * r + 4 * 10) = some (⟨0x068, 0x1C0, 8, 0, 1, specFields⟩, r, 0) := by decide

theorem ctxA_ten (c : Nat) : ctxA c 10 = R.CTX_SPEC c := by
  rw [ctxA, R.CTX_CTRL, R.CTX_SPEC]
  omega

/-- The word that clears SUSP: the settings as they stand. -/
def suspWord (cur : Word) : Word := setF (setF 0x20000000 F.CTX_SPEC_CMP1 (getF cur F.CTX_SPEC_CMP1)) F.CTX_SPEC_FB_MAX (getF cur F.CTX_SPEC_FB_MAX)

theorem suspWord_max (cur : Word) : getF (suspWord cur) F.CTX_SPEC_FB_MAX = getF cur F.CTX_SPEC_FB_MAX := by
  rw [suspWord, getF_setF_self _ _ _ (by decide)]
  exact Nat.mod_eq_of_lt (getF_lt _ _)

theorem suspWord_cmp (cur : Word) : getF (suspWord cur) F.CTX_SPEC_CMP1 = getF cur F.CTX_SPEC_CMP1 := by
  rw [suspWord, getF_setF_ne _ _ _ _ (by decide), getF_setF_self _ _ _ (by decide)]
  exact Nat.mod_eq_of_lt (getF_lt _ _)

theorem suspWord_bit (cur : Word) {k : Nat} (hk : k < 20 ∨ k = 29) : bitOf (suspWord cur) k = decide (k = 29) := by
  have h1 : k < 32 := by omega
  rw [bitOf_eq, suspWord, setF_bit _ _ _ _ h1, setF_bit _ _ _ _ h1, if_neg, if_neg]
  · obtain hk | rfl := hk
    · interval_cases k <;> rfl
    · rfl
  · simp only [F.CTX_SPEC_CMP1, fieldWidth]
    omega
  · simp only [F.CTX_SPEC_FB_MAX, fieldWidth]
    omega

/-- What the word leaves of every field but SUSP. -/
theorem suspWord_keeps (hfd : fd ∈ specFields) (hne : fd.f ≠ F.CTX_SPEC_SUSP) (cur : Word) :
    fieldNext fd cur (suspWord cur) = cur ∧ (fd.acc ≠ .ro → fieldTries fd cur (suspWord cur) = false) := by
  have hset : ∀ f : RField, getF (suspWord cur) f = getF cur f → setF cur f (getF (suspWord cur) f) = cur ∧ (getF (suspWord cur) f != getF cur f) = false := fun f hf => by
    rw [hf, setF_getF, bne_self_eq_false]
    exact ⟨rfl, rfl⟩
  have hmax := hset _ (suspWord_max cur)
  have hcmp := hset _ (suspWord_cmp cur)
  have hcnt := suspWord_bit cur (k := 0) (.inl (by decide))
  simp only [specFields, List.mem_cons, List.not_mem_nil, or_false] at hfd
  obtain rfl | rfl | rfl | rfl | rfl | rfl | rfl | rfl | rfl | rfl := hfd
  · exact ⟨rfl, fun h => absurd rfl h⟩
  · exact absurd rfl hne
  · exact ⟨hcmp.1, fun _ => hcmp.2⟩
  · exact ⟨rfl, fun h => absurd rfl h⟩
  · exact ⟨rfl, fun h => absurd rfl h⟩
  · exact ⟨hmax.1, fun _ => hmax.2⟩
  · exact ⟨rfl, fun h => absurd rfl h⟩
  · exact ⟨rfl, fun h => absurd rfl h⟩
  · exact ⟨rfl, fun h => absurd rfl h⟩
  · exact ⟨if_neg (by rw [show (⟨F.CTX_SPEC_FB_CNT, .w1n, 0⟩ : FieldDef).f.lo = 0 from rfl, hcnt]; decide), fun _ => hcnt⟩

/-- A field that the word leaves. -/
theorem getF_applyFields_kept {ok : FieldDef → Bool} {l : List FieldDef} (h : fieldsApart l = true) (hfd : fd ∈ l) (hk : fieldNext fd cur w = cur) :
    getF (applyFields ok w l cur) fd.f = getF cur fd.f := getF_congr fun k hlo hhi => by
  rw [applyFields_in h hfd hlo hhi, hk, ite_self]

theorem suspWord_susp {ok : FieldDef → Bool} (hok : ok ⟨F.CTX_SPEC_SUSP, .w1c, 0⟩ = true) (cur : Word) :
    getF (applyFields ok (suspWord cur) specFields cur) F.CTX_SPEC_SUSP = 0 := by
  have hzero : getF (0 : Word) F.CTX_SPEC_SUSP = 0 := rfl
  rw [← hzero]
  refine getF_congr fun k hlo hhi => ?_
  have hk : k = 29 := Nat.le_antisymm hhi hlo
  subst hk
  have hbit : (suspWord cur).getLsbD 29 = true := by rw [← bitOf_eq, suspWord_bit cur (.inr rfl)]; rfl
  rw [applyFields_in (fd := ⟨F.CTX_SPEC_SUSP, .w1c, 0⟩) (by decide) (by simp [specFields]) hlo hhi, hok, if_pos rfl]
  rw [show fieldNext ⟨F.CTX_SPEC_SUSP, .w1c, 0⟩ cur (suspWord cur) = cur &&& ~~~(suspWord cur &&& fieldMask F.CTX_SPEC_SUSP) from rfl,
    BitVec.getLsbD_and, BitVec.getLsbD_not, BitVec.getLsbD_and, hbit, fieldMask_bit _ _ (by decide)]
  simp [F.CTX_SPEC_SUSP, fieldWidth]

theorem suspWord_accepted {ok : FieldDef → Bool} (hok : ok ⟨F.CTX_SPEC_SUSP, .w1c, 0⟩ = true) (cur : Word) :
    writeRefused ok cur (suspWord cur) specFields = false := by
  have hany : specFields.any ok = true := List.any_eq_true.2 ⟨_, by simp [specFields], hok⟩
  rw [writeRefused, hany, Bool.not_true, Bool.false_or, List.any_eq_false]
  intro fd hfd
  by_cases hs : fd.f = F.CTX_SPEC_SUSP
  · have heq : fd = ⟨F.CTX_SPEC_SUSP, .w1c, 0⟩ := by
      simp only [specFields, List.mem_cons, List.not_mem_nil, or_false] at hfd
      obtain rfl | rfl | rfl | rfl | rfl | rfl | rfl | rfl | rfl | rfl := hfd
      case inr.inl => rfl
      all_goals exact absurd hs (by decide)
    rw [heq, hok, Bool.not_true, Bool.and_false, Bool.false_and]
    exact Bool.false_ne_true
  · by_cases hro : fd.acc = .ro
    · rw [hro, bne_self_eq_false, Bool.false_and, Bool.false_and]
      exact Bool.false_ne_true
    · rw [(suspWord_keeps hfd hs cur).2 hro, Bool.and_false]
      exact Bool.false_ne_true

/-- SUSP accepts every write that the register takes. -/
theorem Dev.specSusp_ok (hc : c < 192) (ht : d.takenAt mid (R.CTX_SPEC c) = true) :
    d.fieldOk mid .ctxB (c / 8) (pageOf (R.CTX_SPEC c)) (0x40 + 0x1C0 * (c % 8) + 4 * 10) ⟨F.CTX_SPEC_SUSP, .w1c, 0⟩ = true := by
  rw [← ctxA_ten] at ht ⊢
  have hp := placed_ctx hc (n := 10) (by decide) ht
  rw [Dev.takenAt, hp.info, hp.offset] at ht
  simp only [Bool.and_eq_true] at ht
  have htaken := ht.2
  rw [Dev.writeTaken, regAt_ctxSpec (c % 8) (Nat.mod_lt _ (by decide))] at htaken
  obtain ⟨fd, hfd, hok⟩ := List.any_eq_true.1 htaken
  have hacc : fd.acc = .ro ∨ fd.acc = .rwc ∨ fd.acc = .w1c ∨ fd.acc = .w1n := by
    simp only [specFields, List.mem_cons, List.not_mem_nil, or_false] at hfd
    obtain rfl | rfl | rfl | rfl | rfl | rfl | rfl | rfl | rfl | rfl := hfd <;> simp
  obtain ⟨ff, facc, fr⟩ := fd
  dsimp only at hacc
  obtain rfl | rfl | rfl | rfl := hacc
  · exact absurd hok Bool.false_ne_true
  · rw [Dev.fieldOk] at hok ⊢
    exact (Bool.and_eq_true _ _ ▸ hok : _ ∧ _).1
  · exact hok
  · exact hok

theorem spec_address (hc : c < 192) : pageBase (pageOf (R.CTX_SPEC c)) + (0x40 + 0x1C0 * (c % 8) + 4 * 10) = R.CTX_SPEC c := by
  obtain ⟨hb, -, hoff⟩ := inBlock_ctx (n := 10) hc (by decide)
  rw [← hoff, ← ctxA_ten]
  exact pageBase_pageOf hb.space

/-- The registers after a clear. -/
structure SuspClear (d e : Dev) (c : Nat) : Prop where
  frame : FrameOn loopPart [R.CTX_SPEC c] d e
  others : ∀ j, j ≠ c → e.ctxS j = d.ctxS j
  self : e.ctxS c = (d.ctxS c).mend (· == 10)
  susp : e.flag (R.CTX_SPEC c) F.CTX_SPEC_SUSP = false
  run : e.get (R.CTX_SPEC c) F.CTX_SPEC_FB_RUN = 0
  kept : ∀ f ∈ [F.CTX_SPEC_STATE, F.CTX_SPEC_OUTCOME, F.CTX_SPEC_FB_MAX, F.CTX_SPEC_FB_CNT, F.CTX_SPEC_NPRED],
    e.get (R.CTX_SPEC c) f = d.get (R.CTX_SPEC c) f

/-- The write stores its word and nothing else. -/
theorem Dev.suspWrite_eq (hc : c < 192) (ht : d.takenAt mid (R.CTX_SPEC c) = true) : ∃ ok : FieldDef → Bool, ok ⟨F.CTX_SPEC_SUSP, .w1c, 0⟩ = true ∧
    d.ctxSpecWrite mid c (suspWord (d.reg (R.CTX_SPEC c))) =
      (d.setReg (R.CTX_SPEC c) (applyFields ok (suspWord (d.reg (R.CTX_SPEC c))) specFields (d.reg (R.CTX_SPEC c)))).put (R.CTX_SPEC c) F.CTX_SPEC_FB_RUN 0 := by
  have hok := Dev.specSusp_ok hc ht
  refine ⟨_, hok, ?_⟩
  have hplain : d.plainWrite mid (R.CTX_SPEC c) (suspWord (d.reg (R.CTX_SPEC c))) = d.writeFields mid .ctxB (c / 8) (pageOf (R.CTX_SPEC c))
      (0x40 + 0x1C0 * (c % 8) + 4 * 10) specFields (suspWord (d.reg (R.CTX_SPEC c))) := by
    rw [← ctxA_ten] at ht ⊢
    exact d.plainWrite_placed (placed_ctx hc (by decide) ht) (regAt_ctxSpec (c % 8) (Nat.mod_lt _ (by decide))) mid BitVec.and_zero
  rw [Dev.ctxSpecWrite, hplain, ht, suspWord_bit _ (.inr rfl), Dev.writeFields, spec_address hc, suspWord_accepted hok]
  rfl

theorem Dev.suspWrite_kept {ok : FieldDef → Bool} (hok : ok ⟨F.CTX_SPEC_SUSP, .w1c, 0⟩ = true) (d : Dev) (c : Nat) {u : Dev}
    (hu : u = (d.setReg (R.CTX_SPEC c) (applyFields ok (suspWord (d.reg (R.CTX_SPEC c))) specFields (d.reg (R.CTX_SPEC c)))).put (R.CTX_SPEC c) F.CTX_SPEC_FB_RUN 0) :
    FrameOn noPart [R.CTX_SPEC c] d u ∧ u.flag (R.CTX_SPEC c) F.CTX_SPEC_SUSP = false ∧ u.get (R.CTX_SPEC c) F.CTX_SPEC_FB_RUN = 0 ∧
      ∀ f ∈ [F.CTX_SPEC_STATE, F.CTX_SPEC_OUTCOME, F.CTX_SPEC_FB_MAX, F.CTX_SPEC_FB_CNT, F.CTX_SPEC_NPRED], u.get (R.CTX_SPEC c) f = d.get (R.CTX_SPEC c) f := by
  have hn := noPart_part
  have hm : R.CTX_SPEC c ∈ [R.CTX_SPEC c] := List.mem_singleton_self _
  have hself : ∀ f, (d.setReg (R.CTX_SPEC c) (applyFields ok (suspWord (d.reg (R.CTX_SPEC c))) specFields (d.reg (R.CTX_SPEC c)))).get (R.CTX_SPEC c) f =
      getF (applyFields ok (suspWord (d.reg (R.CTX_SPEC c))) specFields (d.reg (R.CTX_SPEC c))) f := fun f => by rw [Dev.get, Dev.reg_setReg_self]
  rw [hu]
  refine ⟨((FrameOn.refl hn _ d).setReg hn _ hm).put hn _ _ hm, ?_, Dev.get_put_self _ _ _ _ (by decide), fun f hf => ?_⟩
  · refine (Dev.flag_put_field _ _ _ _ (by decide)).trans ?_
    rw [Dev.flag, hself, suspWord_susp hok]
    rfl
  · have hfd : ∃ fd ∈ specFields, fd.f = f ∧ fd.f ≠ F.CTX_SPEC_SUSP ∧ (fd.f.lo + fieldWidth fd.f ≤ 16 ∨ 20 ≤ fd.f.lo) := by
      revert f
      decide
    obtain ⟨fd, hin, rfl, hne, hapart⟩ := hfd
    refine (Dev.get_put_field _ _ _ _ _ _ ?_).trans ?_
    · simp only [F.CTX_SPEC_FB_RUN, fieldWidth] at hapart ⊢
      omega
    · rw [hself, getF_applyFields_kept (by decide) hin (suspWord_keeps hin hne _).1]
      rfl

/-- A clear of SUSP. -/
theorem Dev.suspClear_spec (hc : c < 192) (hlive : d.replaying = false) (ht : d.takenAt mid (R.CTX_SPEC c) = true) :
    SuspClear d (d.unitWrite 192 c mid (R.CTX_SPEC c) (suspWord (d.reg (R.CTX_SPEC c)))) c := by
  have hp := loopPart_part
  have hta := ht
  rw [← ctxA_ten] at hta
  have hq := Dev.ctxWrite_route hc (n := 10) (by decide) hlive hta (suspWord (d.reg (R.CTX_SPEC c)))
  rw [Dev.ctxPageWrite_mend (by decide) hta, if_neg (by decide), if_pos rfl, ctxA_ten] at hq
  obtain ⟨ok, hok, heq⟩ := Dev.suspWrite_eq hc ((d.ctxMend_takenAt c 10 mid _).trans ht)
  rw [d.ctxMend_reg] at heq
  rw [heq] at hq
  have hreg := d.ctxMend_reg c 10
  have hmend : FrameOn loopPart [R.CTX_SPEC c] d (d.ctxMend c 10) ∧ (∀ j, j ≠ c → (d.ctxMend c 10).ctxS j = d.ctxS j) ∧
      (d.ctxMend c 10).ctxS c = (d.ctxS c).mend (· == 10) := by
    obtain ⟨h, hid⟩ | h := d.ctxMend_set c 10
    · rw [h]
      exact ⟨FrameOn.refl hp _ d, fun _ _ => rfl, hid.symm⟩
    · rw [h]
      exact ⟨(FrameOn.refl hp _ d).ctxSet hp loopPart_ctx c _, fun j hj => by rw [Dev.ctxS_setCtx, if_neg hj], Dev.ctxS_setCtx_self _ _ _⟩
  generalize d.ctxMend c 10 = v at heq hq hreg hmend
  obtain ⟨h1, h2, h3⟩ := hmend
  rw [← hreg (R.CTX_SPEC c)] at hq
  obtain ⟨k1, k2, k3, k4⟩ := v.suspWrite_kept hok c rfl
  generalize (v.setReg (R.CTX_SPEC c) (applyFields ok (suspWord (v.reg (R.CTX_SPEC c))) specFields (v.reg (R.CTX_SPEC c)))).put (R.CTX_SPEC c) F.CTX_SPEC_FB_RUN 0 = u
    at hq k1 k2 k3 k4
  have hev : eventReg (R.CTX_SPEC c) = false := (ctxSpec_in c).event
  have hctx : ∀ j, u.ctxS j = v.ctxS j := fun j => by rw [Dev.ctxS, k1.no_ctx]; rfl
  rw [← hreg]
  exact ⟨(h1.trans hp k1.noCtx).quiet hp hq, fun j hj => (hq.ctxS j).trans ((hctx j).trans (h2 j hj)), (hq.ctxS c).trans ((hctx c).trans h3),
    (hq.flag hev _).trans k2, (hq.get hev _).trans k3, fun f hf => (hq.get hev _).trans ((k4 f hf).trans (Dev.get_of_reg (hreg _) _))⟩

end

end Sys2Proof.Machine
end

section
/-! PROOFS. Passes, contexts enabled and disabled, the scrub: together (R191 to R211, R241). -/

namespace Sys2Proof.Machine

section
variable {s : State} {c n w : Nat}

theorem Dev.startable_lt {d : Dev} {t : Nat} (h : (t, c) ∈ d.startable n) : c < nCtx d.member := by
  rw [Dev.startable, List.mem_filterMap] at h
  obtain ⟨x, hx, hm⟩ := h
  rw [List.mem_range] at hx
  cases hs : (d.ctxS x).pend with
  | none =>
    rw [hs] at hm
    cases hm
  | some q =>
    rw [hs] at hm
    dsimp only at hm
    split at hm
    · cases hm
      exact hx
    · cases hm

theorem Taken.ctx_lt {d : Dev} {p : PendSt} (h : Taken d n c p) : c < 192 := by
  obtain ⟨t, ht⟩ := h.first
  exact (Dev.startable_lt (earliest_mem ht)).trans_le (nCtx_le _)

/-- A pass that starts cleanly. -/
theorem Taken.begins {d : Dev} {p : PendSt} (h : Taken d n c p) (hlive : d.replaying = false) (hc : c < 192) (hq : (d.ctxS c).preset = none)
    (hb : d.passBad c = []) (hsoft : ∀ x, x < nCtx d.member → (d.ctxS x).soft.any (d.passReads c x) = false) : Begins d (d.passStart n) n c p := by
  rw [h.clean hb, Dev.passFix_none hsoft]
  exact Dev.passBegin_spec hlive n hc hq p

theorem PassDone.mended {d e : Dev} {r : RunSt} (h : PassDone d e c r) : Mended (d.ctxS c) (e.ctxS c) r.res.writes := by
  have k := (d.ctxS c).mend_mended (writtenWord r.res)
  simp only [writtenWord_iff] at k
  rw [h.self]
  exact k

theorem PassDone.rest {d e : Dev} {r : RunSt} (h : PassDone d e c r) :
    e.ctxS c = { d.ctxS c with run := none, cAt := d.gtc + 1, bad := (e.ctxS c).bad, soft := (e.ctxS c).soft } := by
  rw [h.self]
  rfl

/-- The scrub's read where its page's clock runs. -/
theorem State.scrub_runs (hs : s.Live) (hf : s.dev.frozen Pg.LEC = false) (err : EccErr) (ups : List Upset) :
    exec (.ctxScrub ⟨err, ups⟩) s = .next (s.withDev (s.dev.ctxScrub err ups)) :=
  onPart_eq hs (Dev.clocked_runs hf _)

/-- A word of the scrub that cannot be corrected. -/
structure ScrubBad (d e : Dev) (c w : Nat) : Prop where
  frame : FrameOn capPart (uncorrRegs c (d.ctxS c)) d e
  others : ∀ j, j ≠ c → e.ctxS j = d.ctxS j
  self : e.ctxS c = { d.ctxS c with pend := none, run := none, spec := none, bad := (e.ctxS c).bad, soft := (e.ctxS c).soft }
  old : ∀ v ∈ (e.ctxS c).bad, v = w ∨ v ∈ (d.ctxS c).bad
  new : (d.ctxS c).spec = none ∨ w < 112 → w ∈ (e.ctxS c).bad
  shown : EccShown d e c

theorem Dev.scrub_bad {d : Dev} (hc : d.ctxPresent c = true) (hb : w ∉ (d.ctxS c).bad) : ScrubBad d ((d.scrubUpset .uncorrectable c w).scrubRead c w) c w := by
  obtain ⟨u, h1, h2, h3, h4, heq⟩ := Dev.scrub_uncorr hc hb
  rw [heq]
  have k := u.ctxUncorr_spec (ctx_lt hc)
  generalize u.ctxUncorr c = e at k
  obtain ⟨k1, k2, k3⟩ := k.self
  have hregs : uncorrRegs c (u.ctxS c) = uncorrRegs c (d.ctxS c) := by rw [h4]; rfl
  refine ⟨?_, fun j hj => (k.others j hj).trans (h3 j hj), ?_, fun v hv => ?_, fun h => ?_, ?_⟩
  · refine (FrameOn.widen loopPart_part capPart_part (fun _ _ => rfl) (fun _ ha => absurd ha List.not_mem_nil) h1).trans capPart_part ?_
    rw [← hregs]
    exact k.frame
  · rw [h4] at k1
    exact k1
  · have := k2 v hv
    rw [h4] at this
    exact List.mem_cons.1 this
  · rw [h4] at k3
    exact k3 w List.mem_cons_self h
  · exact ⟨k.off, k.ecc, k.counted.base (h2 _), k.last, k.raised⟩

end

/-- Settles O30: a start by what the engine takes, a commit by what the result writes, an enable by its check, the scrub by the word it reads. -/
theorem passes : Obligations.Passes := by
  refine ⟨fun s hs => ⟨fun n c f p hn hon h8 hfree hbusy he hp => ?_, fun c r hc hr hspec ht hf hh hwf => ?_⟩, fun s hs =>
    ⟨fun mid c w hc ht => ⟨fun hdirty => ⟨fun hx => ?_, fun hx => ?_⟩, fun hwas => ?_⟩, fun mid c hc ht => ?_, fun err ups hdue => ?_,
      fun err ups hdue hf => ?_, fun hdue hf hc hb hsoft => ⟨?_, ?_, ?_⟩⟩⟩
  · have k : Taken s.dev n c p := ⟨hn, hon, h8, hfree, hbusy, ⟨f, he⟩, hp⟩
    have hn8 : n < 8 := hn.trans_le (by cases s.dev.member <;> decide)
    refine ⟨fun hb => ?_, fun hb x w hx hw hrd => ?_, fun hq hb hsoft => ?_⟩
    · obtain ⟨k1, k2, k3⟩ := k.fails hn8 hb
      exact ⟨_, onPart_eq hs rfl, k1, k2, fun x hx => ⟨(k3 x hx).off, (k3 x hx).ecc, (k3 x hx).raised⟩⟩
    · exact ⟨_, onPart_eq hs rfl, k.corrects hs.2 k.ctx_lt hb hx hw hrd⟩
    · have m := k.begins hs.2 k.ctx_lt hq hb hsoft
      exact ⟨_, onPart_eq hs rfl, m.frame, m.others, m.pend, m.engine, m.run⟩
  · have k := Dev.passCommit_spec (hc.trans_le (nCtx_le _)) hr hspec ht hf hwf
    exact ⟨_, onPart_eq hs (Dev.onCtx_runs hc hh _), k.frame, k.others, k.mended, k.rest, k.free, k.shown, k.vec⟩
  · have k := Dev.enable_refused (hc.trans_le (nCtx_le _)) hs.2 ht hdirty w rfl hx
    exact ⟨_, onDev_eq hs.1 rfl, k.frame, k.others, k.off, k.self, k.err, k.cause, k.raised⟩
  · have k := Dev.enable_accepted (hc.trans_le (nCtx_le _)) hs.2 ht hdirty w rfl hx
    exact ⟨_, onDev_eq hs.1 rfl, k.frame, k.others, k.on, k.err, k.cause, k.frames, k.self, k.seen⟩
  · have k := Dev.disable_spec (hc.trans_le (nCtx_le _)) hs.2 ht hwas w
    exact ⟨_, onDev_eq hs.1 rfl, k.frame, k.others, k.off, k.self⟩
  · have k := Dev.suspClear_spec (hc.trans_le (nCtx_le _)) hs.2 ht
    exact ⟨_, onDev_eq hs.1 rfl, k.frame, k.others, k.self, k.susp, k.run, k.kept⟩
  · exact onPart_same hs (Dev.clocked_same _ (Dev.ctxScrub_idle hdue err ups))
  · exact ⟨_, State.scrub_runs hs hf err ups, fun u hu hc ht hw => Dev.ctxScrub_bad hdue err hu hc ht hw⟩
  · rw [State.scrub_runs hs hf, Dev.ctxScrub_alone hdue, Dev.scrub_ok (d := s.dev.scrubTick) (decide_eq_true hc) hb hsoft]
    rfl
  · have k := Dev.scrub_corrected (d := s.dev.scrubTick) (decide_eq_true hc) hb hsoft
    rw [← Dev.ctxScrub_alone hdue] at k
    obtain ⟨k1, k2, k3, k4⟩ := k
    exact ⟨_, State.scrub_runs hs hf _ _, k1, k2, k3, k4⟩
  · have k := Dev.scrub_bad (d := s.dev.scrubTick) (decide_eq_true hc) hb
    rw [← Dev.ctxScrub_alone hdue] at k
    exact ⟨_, State.scrub_runs hs hf _ _, k.frame, k.others, ⟨k.self, k.old, k.new⟩, k.shown.off, k.shown.ecc, k.shown.counted, k.shown.last, k.shown.raised⟩

end Sys2Proof.Machine
end

section
/-! PROOFS. A rearm outside a replay whose shift is left over (R12, R460, R464). -/

namespace Sys2Proof.Machine

/-- A step on an empty queue out of RESET. -/
theorem step_idle {s : State} (hp : s.pending = []) (hup : s.Up) : step s = .next (s.withDev s.dev.idle) := by
  rw [step, hp]
  exact onDev_up hup

/-- An outcome known: its device has the property. -/
theorem DevNext.known {o : Host.Outcome State Fault Refusal} {s : State} {P : Dev → Prop} {x : Dev} (h : DevNext o s P) (ho : o = .next (s.withDev x)) : P x := by
  obtain ⟨e, he, hp⟩ := h
  have hsame : s.withDev e = s.withDev x := Host.Outcome.next.inj (he.symm.trans ho)
  have hdev : e = x := congrArg State.dev hsame
  exact hdev ▸ hp

/-- A device in CONFIGURE with a recorder that waits for a rearm of the fifth bus cycle; no replay runs, the shift of one stands. -/
def rearmShifted : State :=
  State.reset.withDev { (Dev.reset.put R.SYS_STATE F.SYS_STATE_STATE DS.CONFIGURE).putB R.REC_CTRL F.REC_CTRL_EN true with
    hamper := { rearm := some 5 }, rpl := { shift := 100 } }

theorem rearmShifted_live : rearmShifted.Live := ⟨by unfold State.Up; decide, by decide⟩

/-- The shift puts the device's bus cycle beyond the fifth: the run starts in the next tick. -/
theorem rearmShifted_runs : rearmShifted.dev.idle.hamper.rearm = none := by decide +kernel

/-- Refutes O54: the bus cycle is counted with the shift of a replay also where none runs, so that the run of a REARM starts before GTC has
reached its cycle. -/
theorem not_recorder : ¬ Obligations.Recorder := by
  intro h
  obtain ⟨-, -, -, hrearm, -⟩ := h rearmShifted 0 rearmShifted_live.1
  have hstays := (hrearm 5 rfl rearmShifted_live (by decide) rfl (by decide) (by decide)).2 (by decide)
  have hrun := hstays.known (step_idle rfl rearmShifted_live.1)
  rw [rearmShifted_runs] at hrun
  exact absurd hrun (by decide)

end Sys2Proof.Machine
end

section
/-! PROOFS. A recorded write in a replay whose mark of such a write stands (R464). -/

namespace Sys2Proof.Machine

/-- The write of a plain register that the stream holds. -/
def replayedWrite : RefSt := ⟨{ ty := 0x15, tick := 500, data := [BitVec.ofNat 32 (R.PG_ID (Pg.PWT 0) + 0x44), 5] }, 1, 16⟩

/-- A device that replays, its RT 500 ticks behind GTC: the recorded write is due, and the mark of one being applied stands already. -/
def replayApplying : State :=
  State.reset.withDev { (Dev.reset.put R.SYS_STATE F.SYS_STATE_STATE DS.READY).putB R.RPL_STAT F.RPL_STAT_RUN true with
    gtc := 1000, rpl := { back := -500, ref := [replayedWrite], last := { tick := 500 }, applying := true } }

theorem replayApplying_up : replayApplying.Up := by
  unfold State.Up
  decide

/-- The write applied takes the mark away. -/
theorem replayApplying_ends : (replayApplying.dev.clocked Pg.RPL Dev.replayStep).rpl.applying = false := by decide +kernel

/-- Refutes O56: a recorded write that is applied leaves the mark of one being applied clear, and so not as it stood where it had been set. -/
theorem not_replay : ¬ Obligations.Replay := by
  intro h
  obtain ⟨-, -, hrec⟩ := h replayApplying 0 replayApplying_up
  obtain ⟨-, happly⟩ := hrec (by decide) (by decide) rfl (by decide) (by decide)
  obtain ⟨-, -, hgoes, -⟩ := happly replayedWrite [] rfl rfl
  obtain ⟨-, -, -, -, -, hplain⟩ := hgoes (by decide) rfl (.inr (by decide))
  have hnext := hplain rfl .pwtB 0 0 0 _ (by decide) (by decide) (by decide) (by decide) (by decide) (by decide) (by decide) rfl (by decide)
  obtain ⟨hframe, -⟩ := hnext.known (onDev_up replayApplying_up)
  have hmark := congrArg (fun e : Dev => e.rpl.applying) hframe.1
  exact absurd (replayApplying_ends.symm.trans hmark) (by decide)

end Sys2Proof.Machine
end

section
/-! PROOFS. A command word that holds an error (R211, R424 to R427). -/

namespace Sys2Proof.Machine

/-- A response is delivered, and nothing else changes. -/
theorem Dev.respond_quiet (d : Dev) (ch : Nat) (h : Word) (st : Nat) (args : List Word) : Quiet d (d.respond ch h st args) := by
  rw [Dev.respond]
  exact (d.setGar_quiet _ _).trans (Dev.sendHeld_quiet _ _)

/-- A device in READY: MACH_CMD waits on channel 0 with a value for CMD0 of machine 0's main context, whose word holds a single-bit error. -/
def demandOnError : State :=
  State.reset.withDev { ((Dev.reset.put R.SYS_STATE F.SYS_STATE_STATE DS.READY).put (R.MBX_BIND 0) F.MBX_BIND_VALID 1).put (R.LEC_CTX_CLAIM 0) F.CLAIM_OWNER 0 with
    mbx := [(0, { ba := [msgHeader 0x21 1 0 2 0, 0x1000, 5] })],
    mach := [(0, { defd := true, stat := BitVec.ofNat 32 (MS.STO * 2 ^ 28), md := [(1, 0x00FFFF00)] })],
    ctx := [(0, { soft := [36] })] }

/-- Errors of context 0 that an outcome leaves. -/
def softLeft (o : Host.Outcome State Fault Refusal) : List Nat :=
  match o with
  | .next t => (t.dev.ctxS 0).soft
  | _ => []

/-- The demand written ends the error of its word. -/
theorem demandOnError_mends : softLeft (exec (.machCmd 0) demandOnError) = [] := by decide +kernel

/-- Refutes O48: the demand of MACH_CMD is a bus write of a word of the context's record, and ends an error that the word holds: it changes
more than the registers of the context's page. -/
theorem not_garmalMachines : ¬ Obligations.GarmalMachines := by
  intro h
  have hlive : demandOnError.Live := ⟨by unfold State.Up; decide, by decide⟩
  have hasks : demandOnError.dev.asks 0 0x21 (msgHeader 0x21 1 0 2 0) := ⟨by decide, by decide, by decide⟩
  obtain ⟨-, -, -, hcmds⟩ := h demandOnError 0 (msgHeader 0x21 1 0 2 0) 0x1000 [5] hlive (by decide) (by decide)
  obtain ⟨-, hcmd, -⟩ := hcmds ⟨by decide, by decide, by decide⟩ (by decide)
  obtain ⟨hdoes, -⟩ := hcmd hasks (by decide) (by decide)
  obtain ⟨e, he, hframe, -⟩ := hdoes (by decide) (by decide) (by decide) (.inr (by decide)) (by decide)
  have hleft : softLeft (exec (.machCmd 0) demandOnError) = (e.ctxS 0).soft := by
    rw [he]
    exact congrArg CtxSt.soft ((e.respond_quiet 0 (msgHeader 0x21 1 0 2 0) ST.OK []).ctxS 0)
  have hkept : e.ctx = (demandOnError.dev.asked 0 (msgHeader 0x21 1 0 2 0)).ctx := (congrArg Dev.ctx hframe.1 :)
  have hsoft : (e.ctxS 0).soft = [36] := by
    rw [Dev.ctxS, hkept]
    decide
  exact absurd (demandOnError_mends.symm.trans (hleft.trans hsoft)) (by decide)

end Sys2Proof.Machine
end

section
/-! PROOFS. SPI request frames (R443 to R445). -/

namespace Sys2Proof.Machine

section
variable {s t : State} {d : Dev} {f : List Byte} {c a n : Nat} {w : Word}

/-! ### Checks -/

theorem frCheck_crc (h : frCrcOk f = false) : frCheck f = 1 := by
  rw [frCheck, h]
  rfl

theorem frCheck_unknown (h : frCrcOk f = true) (hk : cmdKnown (frCmd f) = false) : frCheck f = 2 := by
  rw [frCheck, h, hk]
  rfl

theorem frCheck_good (h : frCrcOk f = true) (hk : cmdKnown (frCmd f) = true) (hn : frCmd f = cmdKEY ∨ (0 < frCount f ∧ frCount f ≤ 16))
    (hr : frRange (frAddr f) (frSpan f) = true) : frCheck f = 0 := by
  have hcount : ¬(frCmd f ≠ cmdKEY ∧ (frCount f = 0 ∨ 16 < frCount f)) := by omega
  rw [frCheck, h, hk, if_neg (by decide), if_neg (by decide), if_neg hcount, hr]
  rfl

/-! ### Frames discarded and refused -/

/-- A frame that counts as an error. -/
structure SpiCounted (d e : Dev) (x : RField) : Prop where
  frame : Frame d e [R.SPIT_STAT]
  counted : Counted d e R.SPIT_STAT x
  raised : Raised e Pg.SPIT Ev.SPI_FRAME_ERR

theorem Dev.spiCounted_spec (d : Dev) (x : RField) (hx : x.lo + fieldWidth x ≤ 32) :
    SpiCounted d ((d.bump R.SPIT_STAT x).raise Pg.SPIT Ev.SPI_FRAME_ERR) x := by
  have hn := noPart_part
  have hq := (d.bump R.SPIT_STAT x).raise_quiet Pg.SPIT Ev.SPI_FRAME_ERR
  refine ⟨((FrameOn.refl hn _ d).bump hn x (List.mem_singleton_self _)).quiet hn hq, ?_, Dev.raise_raised _ rfl⟩
  rw [Counted, hq.get (by decide)]
  exact d.bump_counted _ x hx

/-- A refused frame: it is counted, and its answer is the code. -/
theorem State.spiRefused_spec (s : State) (l : List Byte) : DevNext (.next (s.withDev { s.dev.spiRefused with spiResp := l })) s fun e =>
    Frame { s.dev with spiResp := l } e [R.SPIT_STAT] ∧ Counted s.dev e R.SPIT_STAT F.SPIT_STAT_ERR_CNT ∧ Raised e Pg.SPIT Ev.SPI_FRAME_ERR := by
  obtain ⟨⟨h1, h2⟩, h3, h4⟩ := s.dev.spiCounted_spec F.SPIT_STAT_ERR_CNT (by decide)
  refine ⟨_, rfl, ⟨?_, h2⟩, h3, h4⟩
  exact congrArg (fun e : Dev => { e with spiResp := l }) h1

theorem State.spiFrame_short (h : frShort f = true) : s.spiFrame f = s.withDev s.dev.spiAbort := by
  rw [State.spiFrame, h]
  rfl

theorem State.spiFrame_refused (h : frShort f = false) (hc : frCheck f ≠ 0) : s.spiFrame f = s.withDev { s.dev.spiRefused with
    spiResp := (frAnswer (frCheck f) []).take (frClocked f) } := by
  rw [State.spiFrame, h, if_neg Bool.false_ne_true]
  exact if_neg hc

theorem State.spiFrame_performed (h : frShort f = false) (hc : frCheck f = 0) : s.spiFrame f = s.spiPerform f := by
  rw [State.spiFrame, h, if_neg Bool.false_ne_true]
  exact if_pos hc

/-! ### Reads -/

theorem State.spiReads_snoc (l : List Nat) (a : Nat) (s : State) : State.spiReads (l ++ [a]) s =
    let y := State.spiReads l s
    let t := y.1.onDevS fun d => d.busRead y.1.mems.win Mid.SPI a 4
    (t, y.2 ++ [spGet 0 t.dev.rdata Mid.SPI]) := by
  induction l generalizing s with
  | nil => rfl
  | cons x l ih =>
    rw [List.cons_append, State.spiReads, State.spiReads, ih]
    rfl

/-- The device after the reads of the first words of a frame. -/
def State.spiSeen (s : State) (g : Nat → Nat) (i : Nat) : Dev := (List.range i).foldl (fun (x : Dev) k => x.busRead s.mems.win Mid.SPI (g k) 4) s.dev

theorem State.spiReads_range (s : State) (g : Nat → Nat) (n : Nat) : State.spiReads ((List.range n).map g) s =
    (s.withDev (s.spiSeen g n), (List.range n).map fun i => (s.spiSeen g (i + 1)).answered Mid.SPI) := by
  induction n with
  | zero => rfl
  | succ n ih =>
    have hseen : (s.spiSeen g n).busRead s.mems.win Mid.SPI (g n) 4 = s.spiSeen g (n + 1) := by
      rw [State.spiSeen, State.spiSeen, List.range_succ, List.foldl_concat]
    rw [List.range_succ, List.map_append, List.map_append, List.map_singleton, List.map_singleton, State.spiReads_snoc, ih]
    dsimp only
    rw [← hseen]
    rfl

theorem State.spiPerform_reads (hc : cmdReads (frCmd f) = true) (g : Nat → Nat) (hg : frAddrs f = (List.range (frCount f)).map g) : s.spiPerform f =
    s.withDev { s.spiSeen g (frCount f) with
      spiResp := (frAnswer 0 ((List.range (frCount f)).map fun i => (s.spiSeen g (i + 1)).answered Mid.SPI)).take (frClocked f) } := by
  rw [State.spiPerform, if_pos hc, hg, State.spiReads_range]
  rfl

/-! ### Writes -/

theorem State.spiWords_state (l : List (Nat × Word)) (s : State) : (State.spiWords l s).1 = l.foldl (fun t p => (t.spiWord p.1 p.2).1) s := by
  induction l generalizing s with
  | nil => rfl
  | cons p l ih => exact ih _

theorem State.spiPerform_writes (hc : cmdReads (frCmd f) = false) {l : List (Nat × Word)} (hl : frWrites f = l) : s.spiPerform f =
    (State.spiWords l s).1.withDev { (State.spiWords l s).1.dev with
      spiResp := (frAnswer (if (State.spiWords l s).2 then 4 else 0) []).take (frClocked f) } := by
  rw [State.spiPerform, hc, if_neg Bool.false_ne_true, hl]
  rfl

/-- One word is a bus write of the SPI host. -/
theorem exec_spiWrite (hup : t.Up) (h : inRegs a = true ∨ inWins a = true) (w : Word) :
    exec (.registerWrite Mid.SPI a 4 w) t = .next (t.spiWord a w).1 := by
  rw [show exec (.registerWrite Mid.SPI a 4 w) t = busWrite Mid.SPI a 4 w t from rfl, busWrite, State.spiWord]
  by_cases hw : inWins a = true
  · have hin : ¬(a < winBase ∨ winBase + 2 ^ 20 ≤ a) := by
      rw [inWins, Bool.and_eq_true, decide_eq_true_eq, decide_eq_true_eq] at hw
      omega
    rw [if_pos hw, if_pos hw, winDataWrite, if_neg hin, onState_up hup]
    rfl
  · have hr : inRegs a = true := h.resolve_right hw
    rw [if_neg hw, if_neg hw, hr, if_neg (by decide), onState_up hup]
    by_cases ha : a % 4 = 0
    · rw [if_pos ⟨rfl, ha⟩, if_neg (not_not.2 ha)]
      rfl
    · rw [if_neg fun h => ha h.2, if_pos ha]

/-! ### The rows -/

/-- The command of a row is the frame's. -/
theorem State.spiRow_own {row : Nat → Bool} (h : row (frCmd f) = true) : s.spiRow row f = s.spiFrame f := by
  rw [State.spiRow, h]
  rfl

theorem State.spiRow_other {row : Nat → Bool} (h : row (frCmd f) = false) : s.spiRow row f = s := by
  rw [State.spiRow, h]
  rfl

end

/-- Settles O53: a frame by its checks in order, its reads and writes word after word. -/
theorem spiFrames : Obligations.SpiFrames := by
  intro s f hup
  have hrow : ∀ row : Nat → Bool, row (frCmd f) = true → onState (fun s => s.spiRow row f) s = .next (s.spiFrame f) := fun row h => by
    rw [onState_up hup, State.spiRow_own h]
  have hother : ∀ row : Nat → Bool, row (frCmd f) = false → onState (fun s => s.spiRow row f) s = .next s := fun row h => by
    rw [onState_up hup, State.spiRow_other h]
  have hdone : ∀ row : Nat → Bool, row (frCmd f) = true → frShort f = false → frCheck f = 0 → onState (fun s => s.spiRow row f) s = .next (s.spiPerform f) :=
    fun row h hs hc => by rw [hrow row h, State.spiFrame_performed hs hc]
  have habort := s.dev.spiCounted_spec F.SPIT_STAT_ABORT_CNT (by decide)
  refine ⟨⟨_, onDev_eq hup rfl, habort.frame, habort.counted, habort.raised⟩, fun i hi => ?_, fun hs hcrc hk => ?_, frCheck_good, frCheck_crc, fun hs hc =>
    ⟨fun h => ?_, fun h => ?_, fun h => ?_, fun h => ?_, fun h => ?_⟩, fun t a w ht ha => exec_spiWrite ht ha w, fun h => ?_, fun h => ?_, fun h => ?_,
    fun h => ?_, fun h => ?_, fun h => ?_⟩
  · have hexec : exec i s = .next (s.spiFrame f) := by
      obtain ⟨rfl, h⟩ | ⟨rfl, h⟩ | ⟨rfl, h⟩ | ⟨rfl, h⟩ | ⟨rfl, h⟩ | ⟨rfl, h⟩ := hi
      · exact hrow (· == cmdRD) (beq_iff_eq.2 h)
      · exact hrow (· == cmdWR) (beq_iff_eq.2 h)
      · exact hrow (· == cmdRDFIX) (beq_iff_eq.2 h)
      · exact hrow (· == cmdWRFIX) (beq_iff_eq.2 h)
      · exact hrow (· == cmdKEY) (beq_iff_eq.2 h)
      · exact hrow (fun c => !cmdKnown c) (by rw [h]; rfl)
    rw [hexec]
    refine ⟨fun h => ?_, fun h hc => ?_⟩
    · rw [State.spiFrame_short h]
      exact ⟨_, rfl, habort.frame, habort.counted, habort.raised⟩
    · rw [State.spiFrame_refused h hc]
      exact s.spiRefused_spec _
  · have hc := frCheck_unknown hcrc hk
    refine ⟨?_, hc⟩
    have hexec : exec (.spiUnknownCmd f) s = .next (s.spiFrame f) := hrow (fun c => !cmdKnown c) (by rw [hk]; rfl)
    rw [hexec, State.spiFrame_refused hs (by rw [hc]; decide)]
    exact s.spiRefused_spec _
  · refine (hdone (· == cmdRD) (beq_iff_eq.2 h) hs hc).trans (congrArg _ (State.spiPerform_reads ?_ (fun i => frAddr f + 4 * i) ?_))
    · rw [h]
      rfl
    · exact List.map_congr_left fun i _ => if_pos h
  · refine (hdone (· == cmdRDFIX) (beq_iff_eq.2 h) hs hc).trans (congrArg _ (State.spiPerform_reads ?_ (fun i => frAddr f + 0 * i) ?_))
    · rw [h]
      rfl
    · refine List.map_congr_left fun i _ => ?_
      rw [if_neg (by rw [h]; decide), Nat.zero_mul, Nat.add_zero]
  · refine ⟨State.spiWords_state _ _, (hdone (· == cmdWR) (beq_iff_eq.2 h) hs hc).trans (congrArg _ (State.spiPerform_writes ?_ ?_))⟩
    · rw [h]
      rfl
    · rw [frWrites, if_neg (by rw [h]; decide), if_pos (by rw [h]; rfl)]
      exact List.map_congr_left fun i _ => by rw [if_pos h]
  · refine ⟨State.spiWords_state _ _, (hdone (· == cmdWRFIX) (beq_iff_eq.2 h) hs hc).trans (congrArg _ (State.spiPerform_writes ?_ ?_))⟩
    · rw [h]
      rfl
    · rw [frWrites, if_neg (by rw [h]; decide), if_pos (by rw [h]; rfl)]
      exact List.map_congr_left fun i _ => by rw [if_neg (by rw [h]; decide)]
  · refine ⟨State.spiWords_state _ _, (hdone (· == cmdKEY) (beq_iff_eq.2 h) hs hc).trans (congrArg _ (State.spiPerform_writes ?_ ?_))⟩
    · rw [h]
      rfl
    · rw [frWrites, if_pos h]
  · exact hother (· == cmdRD) (beq_eq_false_iff_ne.2 h)
  · exact hother (· == cmdWR) (beq_eq_false_iff_ne.2 h)
  · exact hother (· == cmdRDFIX) (beq_eq_false_iff_ne.2 h)
  · exact hother (· == cmdWRFIX) (beq_eq_false_iff_ne.2 h)
  · exact hother (· == cmdKEY) (beq_eq_false_iff_ne.2 h)
  · exact hother (fun c => !cmdKnown c) (by rw [h]; rfl)

end Sys2Proof.Machine
end

section
/-! PROOFS. Garmal's protocol: messages taken, checked and answered (R424 to R427). -/

namespace Sys2Proof.Machine

section
variable {d e : Dev} {ch code n st : Nat} {h w : Word} {s : State} {l ws : List Word}

/-! ### Messages taken -/

/-- A complete message waits. -/
theorem Dev.garHead_ready (hh : d.garHead ch = some h) : d.garReady ch = some h := by
  rw [Dev.garHead] at hh
  split at hh
  · split at hh
    · exact hh
    · cases hh
  · cases hh

/-- The message in the queue: its header and as many words as LEN says. -/
theorem Dev.garReady_queue (hh : d.garReady ch = some h) : ∃ q, (d.mbxS ch).ba = h :: q ∧ h.toNat / 2 ^ 8 % 8 ≤ q.length := by
  rw [Dev.garReady] at hh
  split at hh
  · cases hh
  · next x q hq =>
    split at hh
    · next hc =>
      cases hh
      rw [Bool.and_eq_true, decide_eq_true_eq] at hc
      exact ⟨q, hq, by have := hc.2; rw [hq, List.length_cons] at this; omega⟩
    · cases hh

theorem Dev.garArgs_length (hh : d.garHead ch = some h) : (d.garArgs ch h).length = h.toNat / 2 ^ 8 % 8 := by
  obtain ⟨q, hq, hn⟩ := Dev.garReady_queue (Dev.garHead_ready hh)
  rw [Dev.garArgs, hq, List.drop_one, List.tail_cons, List.length_take, Nat.min_eq_left hn]

/-- Words taken from a queue. -/
theorem popAll_spec (n : Nat) (q : MbxSt) : ((List.range n).foldl (fun (s : MbxSt) _ => s.pop 1) q).ba = q.ba.drop n ∧
    ((List.range n).foldl (fun (s : MbxSt) _ => s.pop 1) q).ab = q.ab := by
  induction n with
  | zero => exact ⟨rfl, rfl⟩
  | succ n ih =>
    rw [List.range_succ, List.foldl_concat]
    obtain ⟨h1, h2⟩ := ih
    exact ⟨by rw [MbxSt.pop, if_pos rfl, ← List.drop_drop, ← h1], by rw [MbxSt.pop, if_pos rfl, ← h2]⟩

/-- The channels have had their turn. -/
def Dev.garTurned (d : Dev) (ch : Nat) : Dev := forN 4 (fun c e => e.setGar c { e.garS c with last := c == ch }) d

theorem Dev.garTurned_spec (d : Dev) (ch : Nat) : Quiet d (d.garTurned ch) ∧ (d.garTurned ch).mbx = d.mbx ∧ ∀ c, ((d.garTurned ch).garS c).held = (d.garS c).held := by
  refine forN_keeps (P := fun e : Dev => Quiet d e ∧ e.mbx = d.mbx ∧ ∀ c, (e.garS c).held = (d.garS c).held) 4 (fun k _ e he => ?_) ⟨.refl d, rfl, fun _ => rfl⟩
  obtain ⟨h1, h2, h3⟩ := he
  refine ⟨h1.trans (e.setGar_quiet _ _), h2, fun c => ?_⟩
  rw [Dev.garS_setGar]
  split
  · next hc => rw [← hc]; exact h3 c
  · exact h3 c

/-- A message has been taken. -/
structure GarTaken (d e : Dev) (ch n : Nat) : Prop where
  quiet : Quiet d e
  others : MbxElse d e ch
  ba : (e.mbxS ch).ba = (d.mbxS ch).ba.drop n
  ab : (e.mbxS ch).ab = (d.mbxS ch).ab
  held : ∀ c, (e.garS c).held = (d.garS c).held

theorem Dev.garTake_spec (d : Dev) (ch n : Nat) : GarTaken d (d.garTake ch n) ch n := by
  obtain ⟨h1, h2, h3⟩ := d.garTurned_spec ch
  have hmbx : ∀ c, (d.garTurned ch).mbxS c = d.mbxS c := fun c => congrArg (fun l => spGet _ l c) h2
  rw [show d.garTake ch n = ((d.garTurned ch).setMbx ch ((List.range n).foldl (fun (s : MbxSt) _ => s.pop 1) ((d.garTurned ch).mbxS ch))).raiseIf
    (decide (((d.garTurned ch).mbxS ch).ba.length = 8)) Pg.MBX Ev.MBX_SPACE from rfl]
  obtain ⟨hba, hab⟩ := popAll_spec n ((d.garTurned ch).mbxS ch)
  generalize (List.range n).foldl (fun (s : MbxSt) _ => s.pop 1) ((d.garTurned ch).mbxS ch) = q at hba hab
  rw [hmbx] at hba hab
  generalize d.garTurned ch = u at h1 h2 h3 hmbx
  have hmail : MailStands (u.setMbx ch q) ((u.setMbx ch q).raiseIf (decide ((u.mbxS ch).ba.length = 8)) Pg.MBX Ev.MBX_SPACE) := Dev.raiseIf_mail _ _ _ (by decide)
  refine ⟨h1.trans ((u.setMbx_quiet ch q).trans (Dev.raiseIf_quiet _ _ _ _)), fun j hj => ?_, ?_, ?_, fun c => ?_⟩
  · rw [hmail.mbxS, Dev.mbxS_setMbx, if_neg hj, hmbx]
  · rw [hmail.mbxS, Dev.mbxS_setMbx_self, hba]
  · rw [hmail.mbxS, Dev.mbxS_setMbx_self, hab]
  · rw [hmail.garS]
    exact h3 c

theorem Dev.asked_spec (d : Dev) (ch : Nat) (h : Word) : GarTaken d (d.asked ch h) ch ((d.garArgs ch h).length + 1) := d.garTake_spec ch _

/-! ### Responses -/

/-- Words sent that all fit. -/
theorem Dev.mbxSendAll_ab (ws : List Word) (d : Dev) (c : Nat) (hfit : (d.mbxS c).ab.length + ws.length ≤ 8) :
    ((d.mbxSendAll c 1 ws).mbxS c).ab = (d.mbxS c).ab ++ ws := by
  induction ws generalizing d with
  | nil => exact (List.append_nil _).symm
  | cons w ws ih =>
    have hone : ((d.mbxSend c 1 w).mbxS c).ab = (d.mbxS c).ab ++ [w] := by
      have hlt : ((d.mbxS c).out 1).length < 8 := by
        rw [List.length_cons] at hfit
        rw [MbxSt.out, if_pos rfl]
        omega
      rw [Dev.mbxSend_mbxS, if_pos rfl, if_pos hlt, MbxSt.push, if_pos rfl]
    have hrest : ((d.mbxSend c 1 w).mbxS c).ab.length + ws.length ≤ 8 := by
      rw [hone, List.length_append, List.length_singleton]
      rw [List.length_cons] at hfit
      omega
    rw [show d.mbxSendAll c 1 (w :: ws) = (d.mbxSend c 1 w).mbxSendAll c 1 ws from rfl, ih _ hrest, hone, List.append_assoc]
    rfl

theorem Dev.garS_mbxSendAll (ws : List Word) (d : Dev) (c side j : Nat) : (d.mbxSendAll c side ws).garS j = d.garS j :=
  congrArg (fun l => spGet _ l j) (Dev.mbxSendAll_gar ws d c side)

/-- A response kept on its channel. -/
def Dev.heldNow (d : Dev) (c : Nat) (r : List Word) : Dev := d.setGar c { d.garS c with held := r }

theorem Dev.heldNow_held (d : Dev) (c : Nat) (r : List Word) : ((d.heldNow c r).garS c).held = r := by rw [Dev.heldNow, Dev.garS_setGar_self]

theorem Dev.sendHeld_some (hr : (d.garS ch).held ≠ []) : d.sendHeld ch =
    if (d.mbxS ch).ab.length + (d.garS ch).held.length ≤ 8 then (d.heldNow ch []).mbxSendAll ch 1 (d.garS ch).held else d := by
  rw [Dev.sendHeld]
  exact if_neg hr

theorem Dev.sendHeld_now (d : Dev) (c : Nat) {r : List Word} (hr : r ≠ []) : (d.heldNow c r).sendHeld c =
    if (d.mbxS c).ab.length + r.length ≤ 8 then ((d.heldNow c r).heldNow c []).mbxSendAll c 1 r else d.heldNow c r := by
  have hheld := d.heldNow_held c r
  have hmbx : (d.heldNow c r).mbxS c = d.mbxS c := rfl
  rw [Dev.sendHeld_some (by rw [hheld]; exact hr), hheld, hmbx]

theorem Dev.respond_spec (d : Dev) (ch : Nat) (h : Word) (st : Nat) (l : List Word) :
    let r := msgHeader (h.toNat / 2 ^ 24) (h.toNat / 2 ^ 16) 1 l.length st :: l
    let e := d.respond ch h st l
    Quiet d e ∧ MbxElse d e ch ∧
      if (d.mbxS ch).ab.length + r.length ≤ 8 then (e.mbxS ch).ab = (d.mbxS ch).ab ++ r ∧ (e.garS ch).held = []
      else e.mbxS ch = d.mbxS ch ∧ (e.garS ch).held = r := by
  intro r e
  have heq : e = (d.heldNow ch r).sendHeld ch := rfl
  refine ⟨d.respond_quiet ch h st l, MbxElse.trans (e := d.heldNow ch r) (fun _ _ => rfl) (Dev.sendHeld_else _ ch), ?_⟩
  have hr : r ≠ [] := List.cons_ne_nil _ _
  rw [heq, Dev.sendHeld_now d ch hr]
  by_cases hfit : (d.mbxS ch).ab.length + r.length ≤ 8
  · rw [if_pos hfit, if_pos hfit]
    refine ⟨Dev.mbxSendAll_ab r ((d.heldNow ch r).heldNow ch []) ch hfit, ?_⟩
    rw [Dev.garS_mbxSendAll, Dev.heldNow_held]
  · rw [if_neg hfit, if_neg hfit]
    exact ⟨rfl, d.heldNow_held ch r⟩

/-! ### Commands -/

section
variable (len : List Word → Bool) (states : Nat → Bool) (f : Dev → Mems → List Word → Ans × Mems)

theorem garCmd_other (hh : s.dev.garHead ch = some h) (ha : ¬s.dev.asks ch code h) : garCmd ch code len states f s = .next s := by
  rw [garCmd]
  simp only [hh]
  refine if_neg fun hc => ha ⟨hh, ?_⟩
  rw [Bool.and_eq_true, beq_iff_eq] at hc
  exact hc

theorem garCmd_asked (ha : s.dev.asks ch code h) : garCmd ch code len states f s =
    if !len (s.dev.garArgs ch h) then .next (s.withDev ((s.dev.asked ch h).respond ch h ST.BAD_LEN []))
    else if !states (s.dev.asked ch h).devState then .next (s.withDev ((s.dev.asked ch h).respond ch h ST.BAD_STATE []))
    else
      let r := f (s.dev.asked ch h) s.mems (s.dev.garArgs ch h)
      .next { s with dev := r.1.dev.respond ch h r.1.st r.1.args, mems := r.2 } := by
  obtain ⟨hh, hs, hc⟩ := ha
  rw [garCmd]
  simp only [hh, hs, hc]
  exact if_pos (by rw [beq_self_eq_true, Bool.and_self])

theorem garCmd_badLen (ha : s.dev.asks ch code h) (hl : len (s.dev.garArgs ch h) = false) :
    garCmd ch code len states f s = .next (s.withDev ((s.dev.asked ch h).respond ch h ST.BAD_LEN [])) := by
  rw [garCmd_asked len states f ha, hl]
  rfl

theorem garCmd_badState (ha : s.dev.asks ch code h) (hl : len (s.dev.garArgs ch h) = true) (hst : states (s.dev.asked ch h).devState = false) :
    garCmd ch code len states f s = .next (s.withDev ((s.dev.asked ch h).respond ch h ST.BAD_STATE [])) := by
  rw [garCmd_asked len states f ha, hl, hst]
  rfl

end

/-- A command that is served. -/
theorem garDev_served {len : List Word → Bool} {states : Nat → Bool} (ha : s.dev.asks ch code h) (hargs : s.dev.garArgs ch h = l) (hl : len l = true)
    (hst : states (s.dev.asked ch h).devState = true) {f : Dev → List Word → Ans} {r : Ans} (hr : f (s.dev.asked ch h) l = r) :
    garDev ch code len states f s = .next (s.withDev (r.dev.respond ch h r.st r.args)) := by
  rw [garDev, garCmd_asked _ _ _ ha, hargs, hl, hst, ← hr]
  rfl

/-- One that changes the memories too. -/
theorem garCmd_served {len : List Word → Bool} {states : Nat → Bool} (ha : s.dev.asks ch code h) (hargs : s.dev.garArgs ch h = l) (hl : len l = true)
    (hst : states (s.dev.asked ch h).devState = true) {f : Dev → Mems → List Word → Ans × Mems} {r : Ans} {m : Mems}
    (hr : f (s.dev.asked ch h) s.mems l = (r, m)) :
    garCmd ch code len states f s = .next { s with dev := r.dev.respond ch h r.st r.args, mems := m } := by
  rw [garCmd_asked _ _ _ ha, hargs, hl, hst, hr]
  rfl

/-- A machine that a command may name. -/
theorem Dev.withMach_usable {m : Nat} (hm : (nthD 0 l 0).toNat % 32 = m) (hu : d.machUsable m) (f : Nat → Ans) : d.withMach l f = f m := by
  obtain ⟨h1, h2, h3⟩ := hu
  have h20 : ¬20 ≤ m := fun hge => by
    rw [groupPresent] at h2
    have hn : nTraction d.member ≤ 12 ∧ nAux d.member ≤ 8 := by cases d.member <;> decide
    simp only [Bool.or_eq_true, Bool.and_eq_true, decide_eq_true_eq] at h2
    omega
  have harg : d.machArg (nthD 0 l 0) = (m, none) := by
    rw [Dev.machArg, hm, if_neg h20, h2, if_neg (by decide), h3]
    rfl
  rw [Dev.withMach, harg]
  dsimp only
  rw [h1, if_pos rfl]

theorem Dev.withMach_absent (hm : 20 ≤ (nthD 0 l 0).toNat % 32) (f : Nat → Ans) : d.withMach l f = { dev := d, st := ST.BAD_ARG } := by
  have harg : d.machArg (nthD 0 l 0) = ((nthD 0 l 0).toNat % 32, some { dev := d, st := ST.BAD_ARG }) := by
    rw [Dev.machArg]
    exact if_pos hm
  rw [Dev.withMach, harg]

end

end Sys2Proof.Machine
end

section
/-! PROOFS. Garmal's tables (R427, R429). -/

namespace Sys2Proof.Machine

section
variable {d e : Dev} {ch code n st : Nat} {h w : Word} {s : State} {l : List Word}

/-- What a row of the tables says of its command. -/
structure RowServed (row : GarRow) (len : List Word → Bool) (states : Nat → Bool) (f : Nat → Dev → Mems → List Word → Ans × Mems) : Prop where
  exec : ∀ ch s, exec (row.cmd ch) s = garCmd ch row.code len states (f ch) s
  len : ∀ l, row.len l ↔ len l = true
  states : ∀ x, row.states x ↔ states x = true

theorem RowServed.of {L : List Word → Prop} {S : Nat → Prop} {cmd : Nat → Instr} {ex : Nat → State → Host.Outcome State Fault Refusal} {len : List Word → Bool}
    {states : Nat → Bool} {f : Nat → Dev → Mems → List Word → Ans × Mems} (hx : ∀ ch s, Machine.exec (cmd ch) s = ex ch s)
    (hg : ∀ ch s, ex ch s = garCmd ch code len states (f ch) s) (hl : ∀ l, L l ↔ len l = true) (hs : ∀ x, S x ↔ states x = true) :
    ∃ len states f, RowServed ⟨code, cmd, L, S⟩ len states f := ⟨len, states, f, fun ch s => (hx ch s).trans (hg ch s), hl, hs⟩

theorem lenIs_iff (n : Nat) (l : List Word) : l.length = n ↔ lenIs n l = true := by rw [lenIs, beq_iff_eq]

theorem lenIs_zero (l : List Word) : l = [] ↔ lenIs 0 l = true := by rw [lenIs, beq_iff_eq, List.length_eq_zero_iff]

theorem lenCount_iff (l : List Word) : (∃ a r, l = a :: r ∧ (a.toNat / 2 ^ 12 % 8 = 0 ∨ a.toNat / 2 ^ 12 % 8 = 7 ∨ r.length = a.toNat / 2 ^ 12 % 8)) ↔
    lenCount l = true := by
  cases l with
  | nil => exact ⟨fun ⟨_, _, h, _⟩ => (nomatch h), fun h => (nomatch h)⟩
  | cons a r =>
    have hiff : lenCount (a :: r) = true ↔ a.toNat / 2 ^ 12 % 8 = 0 ∨ a.toNat / 2 ^ 12 % 8 = 7 ∨ r.length = a.toNat / 2 ^ 12 % 8 := by
      simp only [lenCount, nthD_eq_headD, List.drop_zero, List.headD_cons, List.isEmpty_cons, Bool.not_false, Bool.true_and, Bool.or_eq_true, beq_iff_eq,
        List.length_cons, Nat.add_right_cancel_iff, or_assoc]
    rw [hiff]
    exact ⟨fun ⟨_, _, h, hx⟩ => by cases h; exact hx, fun h => ⟨a, r, rfl, h⟩⟩

theorem maskBits_bits (a : Word) : maskBits (a.toNat / 2 ^ 12) = (List.range 4).filter fun k => bitOf a (12 + k) := by
  rw [maskBits]
  refine List.filter_congr fun k _ => ?_
  rw [bitOf, Nat.div_div_eq_div_mul, ← Nat.pow_add]

theorem lenMask_iff (l : List Word) : (∃ a r, l = a :: r ∧ r.length = ((List.range 4).filter fun k => bitOf a (12 + k)).length) ↔ lenMask l = true := by
  cases l with
  | nil => exact ⟨fun ⟨_, _, h, _⟩ => (nomatch h), fun h => (nomatch h)⟩
  | cons a r =>
    have hiff : lenMask (a :: r) = true ↔ r.length = ((List.range 4).filter fun k => bitOf a (12 + k)).length := by
      simp only [lenMask, nthD_eq_headD, List.drop_zero, List.headD_cons, List.isEmpty_cons, Bool.not_false, Bool.true_and, beq_iff_eq,
        List.length_cons, maskBits_bits]
      omega
    rw [hiff]
    exact ⟨fun ⟨_, _, h, hx⟩ => by cases h; exact hx, fun h => ⟨a, r, rfl, h⟩⟩

theorem lenPairs_iff (l : List Word) : (l ≠ [] ∧ l.length % 2 = 0) ↔ (l.length % 2 == 0 && decide (2 ≤ l.length)) = true := by
  rw [Bool.and_eq_true, beq_iff_eq, decide_eq_true_eq, ← List.length_pos_iff]
  omega

theorem readyRun_iff (x : Nat) : (x = DS.READY ∨ x = DS.RUN) ↔ readyRun x = true := by
  rw [readyRun, Bool.or_eq_true, beq_iff_eq, beq_iff_eq]

theorem any_iff (x : Nat) : True ↔ anyState x = true := ⟨fun _ => rfl, fun _ => trivial⟩

theorem beq_row (n x : Nat) : x = n ↔ (x == n) = true := beq_iff_eq.symm

theorem fromReady_iff (x : Nat) : DS.READY ≤ x ↔ fromReady x = true := decide_eq_true_iff.symm

theorem fromConfigure_iff (x : Nat) : DS.CONFIGURE ≤ x ↔ fromConfigure x = true := decide_eq_true_iff.symm

theorem fromCommission_iff (x : Nat) : DS.COMMISSION ≤ x ↔ fromCommission x = true := decide_eq_true_iff.symm

/-- Every row of the tables is what its command does first. -/
theorem garTable_served : ∀ row ∈ garTable, ∃ len states f, RowServed row len states f := by
  intro row hrow
  simp only [garTable, List.mem_cons, List.not_mem_nil, or_false] at hrow
  obtain rfl | rfl | rfl | rfl | rfl | rfl | rfl | rfl | rfl | rfl | rfl | rfl | rfl | rfl | rfl | rfl | rfl | rfl | rfl | rfl | rfl | rfl := hrow
  · exact RowServed.of (ex := execNop) (fun _ _ => rfl) (fun _ _ => by rw [execNop, garDev]) (fun _ => ⟨fun _ => rfl, fun _ => trivial⟩) any_iff
  · exact RowServed.of (ex := execVersion) (fun _ _ => rfl) (fun _ _ => by rw [execVersion, garDev]) lenIs_zero any_iff
  · exact RowServed.of (ex := execDevState) (fun _ _ => rfl) (fun _ _ => by rw [execDevState]) (lenIs_iff 1) any_iff
  · exact RowServed.of (ex := execNotify) (fun _ _ => rfl) (fun _ _ => by rw [execNotify, garDev]) (lenIs_iff 1) any_iff
  · exact RowServed.of (ex := execMachDefine) (fun _ _ => rfl) (fun _ _ => by rw [execMachDefine, garDev]) lenCount_iff (beq_row _)
  · exact RowServed.of (ex := execMachClaim) (fun _ _ => rfl) (fun _ _ => by rw [execMachClaim, garDev]) lenCount_iff (beq_row _)
  · exact RowServed.of (ex := execCfgWrite) (fun _ _ => rfl) (fun _ _ => by rw [execCfgWrite, garDev]) lenPairs_iff (fun x => by rw [Bool.and_eq_true, decide_eq_true_eq, decide_eq_true_eq])
  · exact RowServed.of (ex := execMachStart) (fun _ _ => rfl) (fun _ _ => by rw [execMachStart, garDev]) (lenIs_iff 1) (beq_row _)
  · exact RowServed.of (ex := execMachCmd) (fun _ _ => rfl) (fun _ _ => by rw [execMachCmd, garDev]) lenMask_iff readyRun_iff
  · exact RowServed.of (ex := execMachStop) (fun _ _ => rfl) (fun _ _ => by rw [execMachStop, garDev]) (lenIs_iff 1) (beq_row _)
  · exact RowServed.of (ex := execMachSto) (fun _ _ => rfl) (fun _ _ => by rw [execMachSto, garDev]) (lenIs_iff 1) fromReady_iff
  · exact RowServed.of (ex := execMachDischarge) (fun _ _ => rfl) (fun _ _ => by rw [execMachDischarge, garDev]) (lenIs_iff 1) readyRun_iff
  · exact RowServed.of (ex := execMachClear) (fun _ _ => rfl) (fun _ _ => by rw [execMachClear, garDev]) (lenIs_iff 1) readyRun_iff
  · exact RowServed.of (ex := execMachStatus) (fun _ _ => rfl) (fun _ _ => by rw [execMachStatus, garDev]) (lenIs_iff 1) fromConfigure_iff
  · exact RowServed.of (ex := execSpbWrite) (fun _ _ => rfl) (fun _ _ => by rw [execSpbWrite]) (lenIs_iff 2) (fun x => by rw [Bool.or_eq_true, Bool.or_eq_true, beq_iff_eq, beq_iff_eq, beq_iff_eq, or_assoc])
  · exact RowServed.of (ex := execRingRejoin) (fun _ _ => rfl) (fun _ _ => by rw [execRingRejoin, garDev]) lenIs_zero any_iff
  · exact RowServed.of (ex := execBrakeP) (fun _ _ => rfl) (fun _ _ => by rw [execBrakeP, garDev]) (lenIs_iff 1) fromReady_iff
  · exact RowServed.of (ex := execSafeAck) (fun _ _ => rfl) (fun _ _ => by rw [execSafeAck, garDev]) (lenIs_iff 1) (fun x => by rw [Bool.or_eq_true, ← readyRun_iff, beq_iff_eq, or_assoc])
  · exact RowServed.of (ex := execSafeSto) (fun _ _ => rfl) (fun _ _ => by rw [execSafeSto, garDev]) (lenIs_iff 2) fromCommission_iff
  · exact RowServed.of (ex := execSafeSs1) (fun _ _ => rfl) (fun _ _ => by rw [execSafeSs1, garDev]) (lenIs_iff 2) (fun x => by rw [Bool.or_eq_true, beq_iff_eq, beq_iff_eq])
  · exact RowServed.of (ex := execOutM) (fun _ _ => rfl) (fun _ _ => by rw [execOutM, garDev]) (lenIs_iff 1) fromReady_iff
  · exact RowServed.of (ex := execRingReq) (fun _ _ => rfl) (fun _ _ => by rw [execRingReq, garDev]) (lenIs_iff 2) fromReady_iff

/-- The codes of the tables. -/
theorem garTable_codes : garTable.map GarRow.code =
    [0x01, 0x02, 0x03, 0x04, 0x10, 0x11, 0x12, 0x20, 0x21, 0x22, 0x23, 0x24, 0x25, 0x26, 0x30, 0x31, 0x32, 0x40, 0x41, 0x42, 0x43, 0x44] := rfl

theorem servedCodes_iff (ch k : Nat) : (servedCodes ch).contains k = true ↔
    k ∈ garTable.map GarRow.code ∧ (if ch < 2 then k < 0x40 else k ∈ [0x01, 0x02, 0x04] ∨ 0x40 ≤ k) := by
  rw [List.contains_iff_mem, garTable_codes, servedCodes]
  by_cases hc : ch < 2
  · rw [if_pos hc, if_pos hc]
    simp only [List.mem_cons, List.not_mem_nil, or_false]
    omega
  · rw [if_neg hc, if_neg hc]
    simp only [List.mem_cons, List.not_mem_nil, or_false]
    omega

theorem servedMsg_iff (ch : Nat) (h : Word) : servedMsg ch h = true ↔ h.toNat / 2 ^ 14 % 4 = 0 ∧ ∃ row ∈ garTable, row.code = h.toNat / 2 ^ 24 ∧
    (if ch < 2 then row.code < 0x40 else row.code ∈ [0x01, 0x02, 0x04] ∨ 0x40 ≤ row.code) := by
  rw [servedMsg, Bool.and_eq_true, beq_iff_eq, servedCodes_iff, List.mem_map]
  refine and_congr_right fun _ => ⟨fun ⟨⟨row, hr, hk⟩, hx⟩ => ⟨row, hr, hk, ?_⟩, fun ⟨row, hr, hk, hx⟩ => ⟨⟨row, hr, hk⟩, ?_⟩⟩
  · rw [hk]
    exact hx
  · rw [hk] at hx
    exact hx

/-- A message that no table serves. -/
theorem badCode_unserved (hh : s.dev.garHead ch = some h) (hs : servedMsg ch h = false) :
    s.dev.garBadCode ch = (s.dev.asked ch h).respond ch h ST.BAD_CODE [] := by
  rw [Dev.garBadCode]
  simp only [hh, hs]
  rw [if_neg Bool.false_ne_true, Dev.asked, Dev.garArgs_length hh]

theorem badCode_served (hh : s.dev.garHead ch = some h) (hs : servedMsg ch h = true) : s.dev.garBadCode ch = s.dev := by
  rw [Dev.garBadCode]
  simp only [hh, hs, if_true]

/-- A supervisor that serves a channel runs: the device is out of RESET. -/
theorem Dev.garHead_up (hh : s.dev.garHead ch = some h) : s.Up := by
  have hr := Dev.garHead_ready hh
  rw [Dev.garReady] at hr
  split at hr
  · cases hr
  · split at hr
    · next hc =>
      rw [Bool.and_eq_true, Bool.and_eq_true, Dev.garAlive] at hc
      simp only [Bool.and_eq_true, bne_iff_ne] at hc
      exact hc.1.1.1.1.1.2
    · cases hr

end

end Sys2Proof.Machine
end

section
/-! PROOFS. SAFE_OUT written for BRAKE_P and OUT_M, the requests of the safety rings (R386, R428, R429). -/

namespace Sys2Proof.Machine

/-- The fields of SAFE_OUT. -/
def outFields : List FieldDef :=
  [⟨F.SAFE_OUT_DIS_M_LATE, .w1c, 0⟩, ⟨F.SAFE_OUT_PINS, .ro, 0⟩, ⟨F.SAFE_OUT_PBRK_P_REL, .rw, 0⟩,
    ⟨F.SAFE_OUT_DIS_P_REQ, .rw, 0⟩, ⟨F.SAFE_OUT_PBRK_M_REL, .rwm, 0⟩, ⟨F.SAFE_OUT_DIS_M_REQ, .rwm, 0⟩]

section
variable {d e : Dev} {mid a : Nat} {b : Block} {i off : Nat} {w : Word} {fd : FieldDef} {x y : Nat}

/-- A plain write that refuses nothing it carries. -/
theorem Dev.plainWrite_unrefused (h : Placed d a b i off) (hin : inRegs a = true) {rd : RegDef} (hr : regAt b off = some (rd, x, y))
    (hw : w &&& absentBits d.member b i off = 0) (hall : writeRefused (d.fieldOk mid b i (pageOf a) off) (d.reg a) w rd.flds = false) :
    d.plainWrite mid a w = d.setReg a (applyFields (d.fieldOk mid b i (pageOf a) off) w rd.flds (d.reg a)) := by
  rw [d.plainWrite_placed h hr mid hw, Dev.writeFields, h.address hin, hall]
  rfl

/-- A writable field that a word carries as it stands. -/
theorem fieldNext_stands {cur : Word} (hacc : fd.acc = .rw ∨ fd.acc = .rwm) (h : getF w fd.f = getF cur fd.f) : fieldNext fd cur w = cur := by
  obtain hacc | hacc := hacc <;> rw [fieldNext, hacc] <;> exact (congrArg (setF cur fd.f) h).trans (setF_getF cur fd.f)

/-- A writable field that accepts its write. -/
theorem getF_applyFields_taken {ok : FieldDef → Bool} {l : List FieldDef} {cur : Word} (h : fieldsApart l = true) (hfd : fd ∈ l)
    (hacc : fd.acc = .rw ∨ fd.acc = .rwm) (hok : ok fd = true) (hf : fd.f.lo + fieldWidth fd.f ≤ 32) :
    getF (applyFields ok w l cur) fd.f = getF w fd.f := by
  have hnext : fieldNext fd cur w = setF cur fd.f (getF w fd.f) := by
    obtain hacc | hacc := hacc <;> rw [fieldNext, hacc]
  calc getF (applyFields ok w l cur) fd.f = getF (setF cur fd.f (getF w fd.f)) fd.f := getF_congr fun k hlo hhi => by
        rw [applyFields_in h hfd hlo hhi, hok, if_pos rfl, hnext]
    _ = getF w fd.f % 2 ^ fieldWidth fd.f := getF_setF_self _ _ _ hf
    _ = getF w fd.f := Nat.mod_eq_of_lt (getF_lt _ _)

/-! ### SAFE_OUT -/

theorem placed_out (d : Dev) : Placed d R.SAFE_OUT .safeB 0 0x68 := ⟨rfl, rfl, rfl, rfl, by decide⟩

theorem regAt_out : regAt .safeB 0x68 = some (⟨0x68, 0, 1, 0, 1, outFields⟩, 0, 0) := rfl

/-- What S0 and S1 may write of SAFE_OUT. -/
theorem Dev.outOk_late (d : Dev) (mid : Nat) : d.fieldOk mid .safeB 0 Pg.SAFE 0x68 ⟨F.SAFE_OUT_DIS_M_LATE, .w1c, 0⟩ = (mid == Mid.S1) := rfl

theorem Dev.outOk_rwm (d : Dev) (mid : Nat) (hm : chanMOnly .safeB 0x68 fd.f = false) (ha : fd.acc = .rwm) :
    d.fieldOk mid .safeB 0 Pg.SAFE 0x68 fd = (mid == Mid.S1) := by
  rw [Dev.fieldOk, hm, ha]
  rfl

theorem Dev.outOk_rw (d : Dev) (hm : chanMOnly .safeB 0x68 fd.f = false) (ha : fd.acc = .rw) :
    d.fieldOk Mid.S0 .safeB 0 Pg.SAFE 0x68 fd = d.ownOk Mid.S0 (.page Pg.SAFE) := by
  rw [Dev.fieldOk, hm, ha, show (Mid.S0 == Mid.S1) = false from rfl]
  simp [Dev.asS0, Dev.ownAt, ownOf]

theorem Dev.outOk_ro (d : Dev) (mid : Nat) (hm : chanMOnly .safeB 0x68 fd.f = false) (ha : fd.acc = .ro) :
    d.fieldOk mid .safeB 0 Pg.SAFE 0x68 fd = false := by
  rw [Dev.fieldOk, hm, ha]
  rfl

theorem Dev.takenAt_out (d : Dev) : d.takenAt Mid.S0 R.SAFE_OUT = d.ownOk Mid.S0 (.page Pg.SAFE) := by
  have hwt : d.writeTaken Mid.S0 .safeB 0 Pg.SAFE 0x68 = d.ownOk Mid.S0 (.page Pg.SAFE) := by
    rw [Dev.writeTaken, regAt_out]
    simp only [outFields, List.any_cons, List.any_nil, Bool.or_false]
    rw [d.outOk_late, d.outOk_ro _ rfl rfl, d.outOk_rw rfl rfl, d.outOk_rw rfl rfl, d.outOk_rwm _ rfl rfl, d.outOk_rwm _ rfl rfl,
      show (Mid.S0 == Mid.S1) = false from rfl]
    simp
  rw [← hwt]
  rfl

/-- A word for SAFE_OUT that carries nothing a field refuses. -/
theorem outUnrefused {ok : FieldDef → Bool} {cur : Word} {fd : FieldDef} (hfd : fd ∈ outFields) (hok : ok fd = true)
    (h : ∀ g ∈ outFields, g.acc = .ro ∨ ok g = true ∨ fieldTries g cur w = false) : writeRefused ok cur w outFields = false := by
  rw [writeRefused, List.any_eq_true.2 ⟨fd, hfd, hok⟩, Bool.not_true, Bool.false_or, List.any_eq_false]
  intro g hg
  obtain hro | hk | ht := h g hg
  · simp [hro]
  · simp [hk]
  · simp [ht]

theorem bne_self_getF {v v' : Nat} (h : v = v') : (v != v') = false := by rw [h, bne_self_eq_false]

/-! ### BRAKE_P -/

/-- The word that BRAKE_P writes. -/
def brakeWord (cur : Word) (p : Bool) : Word := setF (setF cur F.SAFE_OUT_DIS_M_LATE 0) F.SAFE_OUT_PBRK_P_REL (b2n p)

theorem brakeWord_late (cur : Word) (p : Bool) : getF (brakeWord cur p) F.SAFE_OUT_DIS_M_LATE = 0 := by
  rw [brakeWord, getF_setF_ne _ _ _ _ (by decide), getF_setF_self _ _ _ (by decide), Nat.zero_mod]

theorem brakeWord_ne (cur : Word) (p : Bool) {f : RField} (h1 : F.SAFE_OUT_DIS_M_LATE.lo + fieldWidth F.SAFE_OUT_DIS_M_LATE ≤ f.lo ∨ f.lo + fieldWidth f ≤ F.SAFE_OUT_DIS_M_LATE.lo)
    (h2 : F.SAFE_OUT_PBRK_P_REL.lo + fieldWidth F.SAFE_OUT_PBRK_P_REL ≤ f.lo ∨ f.lo + fieldWidth f ≤ F.SAFE_OUT_PBRK_P_REL.lo) :
    getF (brakeWord cur p) f = getF cur f := by
  rw [brakeWord, getF_setF_ne _ _ _ _ h2, getF_setF_ne _ _ _ _ h1]

/-- A bit of one that is 0 idles. -/
theorem mask_zero {f : RField} (h : getF w f = 0) : w &&& fieldMask f = 0 := by
  refine BitVec.eq_of_getLsbD_eq fun k hk => ?_
  rw [BitVec.getLsbD_and, fieldMask_bit f k hk, show (0 : Word).getLsbD k = false from BitVec.getLsbD_zero]
  by_cases hin : f.lo ≤ k ∧ k - f.lo < fieldWidth f
  · have hbit : (getF w f).testBit (k - f.lo) = w.getLsbD k := by
      rw [getF_bit, decide_eq_true hin.2, Bool.true_and, Nat.sub_add_cancel hin.1]
    rw [← hbit, h, Nat.zero_testBit, Bool.false_and]
  · rw [← Bool.decide_and, decide_eq_false hin, Bool.and_false]

/-- The error bit of SAFE_OUT, written 0, stands. -/
theorem late_stands (h : getF w F.SAFE_OUT_DIS_M_LATE = 0) (cur : Word) : fieldNext ⟨F.SAFE_OUT_DIS_M_LATE, .w1c, 0⟩ cur w = cur := by
  rw [show fieldNext ⟨F.SAFE_OUT_DIS_M_LATE, .w1c, 0⟩ cur w = cur &&& ~~~(w &&& fieldMask F.SAFE_OUT_DIS_M_LATE) from rfl, mask_zero h]
  exact BitVec.and_allOnes

theorem outFields_apart : fieldsApart outFields = true := by decide

/-- What BRAKE_P's write makes of SAFE_OUT. -/
theorem Dev.outWrite_brake (hown : d.ownOk Mid.S0 (.page Pg.SAFE) = true) (p : Bool) :
    ∃ v, d.plainWrite Mid.S0 R.SAFE_OUT (brakeWord (d.reg R.SAFE_OUT) p) = d.setReg R.SAFE_OUT v ∧ (getF v F.SAFE_OUT_PBRK_P_REL != 0) = p ∧
    ∀ f ∈ [F.SAFE_OUT_DIS_M_LATE, F.SAFE_OUT_DIS_P_REQ, F.SAFE_OUT_PBRK_M_REL, F.SAFE_OUT_DIS_M_REQ], getF v f = getF (d.reg R.SAFE_OUT) f := by
  have hlate := brakeWord_late (d.reg R.SAFE_OUT) p
  have hdis : getF (brakeWord (d.reg R.SAFE_OUT) p) F.SAFE_OUT_DIS_P_REQ = getF (d.reg R.SAFE_OUT) F.SAFE_OUT_DIS_P_REQ :=
    brakeWord_ne _ p (by decide) (by decide)
  have hbrk : getF (brakeWord (d.reg R.SAFE_OUT) p) F.SAFE_OUT_PBRK_M_REL = getF (d.reg R.SAFE_OUT) F.SAFE_OUT_PBRK_M_REL :=
    brakeWord_ne _ p (by decide) (by decide)
  have hreq : getF (brakeWord (d.reg R.SAFE_OUT) p) F.SAFE_OUT_DIS_M_REQ = getF (d.reg R.SAFE_OUT) F.SAFE_OUT_DIS_M_REQ :=
    brakeWord_ne _ p (by decide) (by decide)
  have hrel : getF (brakeWord (d.reg R.SAFE_OUT) p) F.SAFE_OUT_PBRK_P_REL = b2n p := by
    rw [brakeWord, getF_setF_self _ _ _ (by decide)]
    cases p <;> rfl
  have hok : d.fieldOk Mid.S0 .safeB 0 Pg.SAFE 0x68 ⟨F.SAFE_OUT_PBRK_P_REL, .rw, 0⟩ = true := (d.outOk_rw rfl rfl).trans hown
  generalize brakeWord (d.reg R.SAFE_OUT) p = w at hlate hdis hbrk hreq hrel
  have hall : writeRefused (d.fieldOk Mid.S0 .safeB 0 (pageOf R.SAFE_OUT) 0x68) (d.reg R.SAFE_OUT) w outFields = false := by
    refine outUnrefused (fd := ⟨F.SAFE_OUT_PBRK_P_REL, .rw, 0⟩) (by simp [outFields]) hok fun g hg => ?_
    simp only [outFields, List.mem_cons, List.not_mem_nil, or_false] at hg
    obtain rfl | rfl | rfl | rfl | rfl | rfl := hg
    · exact .inr (.inr (bne_self_getF hlate))
    · exact .inl rfl
    · exact .inr (.inl hok)
    · exact .inr (.inr (bne_self_getF hdis))
    · exact .inr (.inr (bne_self_getF hbrk))
    · exact .inr (.inr (bne_self_getF hreq))
  refine ⟨_, Dev.plainWrite_unrefused (placed_out d) rfl regAt_out BitVec.and_zero hall, ?_, fun f hf => ?_⟩
  · have htake := (getF_applyFields_taken (cur := d.reg R.SAFE_OUT) outFields_apart (List.mem_of_getElem? (i := 2) rfl) (.inl rfl) hok (by decide)).trans hrel
    exact (congrArg (· != 0) htake).trans (by cases p <;> rfl)
  · simp only [List.mem_cons, List.not_mem_nil, or_false] at hf
    obtain rfl | rfl | rfl | rfl := hf
    · exact getF_applyFields_kept (fd := ⟨F.SAFE_OUT_DIS_M_LATE, .w1c, 0⟩) outFields_apart (by simp [outFields]) (late_stands hlate _)
    · exact getF_applyFields_kept (fd := ⟨F.SAFE_OUT_DIS_P_REQ, .rw, 0⟩) outFields_apart (by simp [outFields]) (fieldNext_stands (.inl rfl) hdis)
    · exact getF_applyFields_kept (fd := ⟨F.SAFE_OUT_PBRK_M_REL, .rwm, 0⟩) outFields_apart (by simp [outFields]) (fieldNext_stands (.inr rfl) hbrk)
    · exact getF_applyFields_kept (fd := ⟨F.SAFE_OUT_DIS_M_REQ, .rwm, 0⟩) outFields_apart (by simp [outFields]) (fieldNext_stands (.inr rfl) hreq)

/-- BRAKE_P by S0: the register alone takes the bit. -/
theorem Dev.safeOutWrite_brake (hown : d.ownOk Mid.S0 (.page Pg.SAFE) = true) (p : Bool) :
    ∃ v, d.safeOutWrite Mid.S0 (brakeWord (d.reg R.SAFE_OUT) p) = d.setReg R.SAFE_OUT v ∧ (getF v F.SAFE_OUT_PBRK_P_REL != 0) = p ∧
    ∀ f ∈ [F.SAFE_OUT_DIS_M_LATE, F.SAFE_OUT_DIS_P_REQ, F.SAFE_OUT_PBRK_M_REL, F.SAFE_OUT_DIS_M_REQ], getF v f = getF (d.reg R.SAFE_OUT) f := by
  obtain ⟨v, heq, hp, hkept⟩ := Dev.outWrite_brake hown p
  refine ⟨v, ?_, hp, hkept⟩
  have hreq : (d.setReg R.SAFE_OUT v).flag R.SAFE_OUT F.SAFE_OUT_DIS_M_REQ = d.flag R.SAFE_OUT F.SAFE_OUT_DIS_M_REQ := by
    rw [Dev.flag, Dev.get, Dev.reg_setReg_self, hkept _ (by simp)]
    rfl
  rw [Dev.safeOutWrite, heq, hreq, Bool.and_not_self]
  exact if_neg Bool.false_ne_true

theorem Dev.tryWrite_taken {f : Dev → Dev} (page : Nat) (h : f d = e) (hf : (f (d.putB (R.PG_STAT page) F.PG_STAT_WR_DENIED false)).flag (R.PG_STAT page) F.PG_STAT_WR_DENIED = false) :
    d.tryWrite page f = (e, false) := by
  rw [Dev.tryWrite, h, hf]

/-- SAFE_OUT written after WR_DENIED has been cleared shows no refusal. -/
theorem Dev.brake_notDenied (hown : d.ownOk Mid.S0 (.page Pg.SAFE) = true) (p : Bool) :
    ((d.putB (R.PG_STAT Pg.SAFE) F.PG_STAT_WR_DENIED false).safeOutWrite Mid.S0 (brakeWord (d.reg R.SAFE_OUT) p)).flag (R.PG_STAT Pg.SAFE) F.PG_STAT_WR_DENIED = false := by
  have hreg : ∀ a, a ≠ R.PG_STAT Pg.SAFE → (d.putB (R.PG_STAT Pg.SAFE) F.PG_STAT_WR_DENIED false).reg a = d.reg a := fun a ha => by
    rw [Dev.putB, Dev.reg_put_ne _ _ _ ha]
  have hflag : (d.putB (R.PG_STAT Pg.SAFE) F.PG_STAT_WR_DENIED false).flag (R.PG_STAT Pg.SAFE) F.PG_STAT_WR_DENIED = false :=
    d.flag_putB_self _ _ _ (by decide) (by decide)
  generalize d.putB (R.PG_STAT Pg.SAFE) F.PG_STAT_WR_DENIED false = u at hreg hflag
  have hown' : u.ownOk Mid.S0 (.page Pg.SAFE) = true := by
    rw [← hown, Dev.ownOk, Dev.ownOk, Dev.pageOwner, Dev.pageOwner, Dev.get, Dev.get, hreg _ (by decide)]
  obtain ⟨v, heq, -⟩ := Dev.safeOutWrite_brake hown' p
  rw [← hreg R.SAFE_OUT (by decide), heq, Dev.flag, Dev.get, Dev.reg_setReg_ne _ _ (by decide)]
  exact hflag

theorem Dev.garBrakeP_spec (hown : d.ownOk Mid.S0 (.page Pg.SAFE) = true) (l : List Word) :
    ∃ v, d.garBrakeP l = { dev := d.setReg R.SAFE_OUT v } ∧ (getF v F.SAFE_OUT_PBRK_P_REL != 0) = bitOf (nthD 0 l 0) 0 ∧
    ∀ f ∈ [F.SAFE_OUT_DIS_M_LATE, F.SAFE_OUT_DIS_P_REQ, F.SAFE_OUT_PBRK_M_REL, F.SAFE_OUT_DIS_M_REQ], getF v f = getF (d.reg R.SAFE_OUT) f := by
  obtain ⟨v, heq, hp, hkept⟩ := Dev.safeOutWrite_brake hown (bitOf (nthD 0 l 0) 0)
  have htry := Dev.tryWrite_taken (f := fun e => e.safeOutWrite Mid.S0 (brakeWord (d.reg R.SAFE_OUT) (bitOf (nthD 0 l 0) 0))) Pg.SAFE heq
    (Dev.brake_notDenied hown _)
  refine ⟨v, ?_, hp, hkept⟩
  rw [Dev.garBrakeP]
  exact congrArg (fun y : Dev × Bool => ({ dev := y.1, st := if y.2 then ST.DENIED else ST.OK } : Ans)) htry

/-! ### OUT_M -/

/-- The word that OUT_M writes. -/
def relWord (cur : Word) (p q : Bool) : Word :=
  setF (setF (setF cur F.SAFE_OUT_DIS_M_LATE 0) F.SAFE_OUT_PBRK_M_REL (b2n p)) F.SAFE_OUT_DIS_M_REQ (b2n q)

/-- What OUT_M's write makes of SAFE_OUT. -/
theorem Dev.outWrite_m (d : Dev) (p q : Bool) :
    ∃ v, d.plainWrite Mid.S1 R.SAFE_OUT (relWord (d.reg R.SAFE_OUT) p q) = d.setReg R.SAFE_OUT v ∧ (getF v F.SAFE_OUT_PBRK_M_REL != 0) = p ∧
      (getF v F.SAFE_OUT_DIS_M_REQ != 0) = q ∧ getF v F.SAFE_OUT_PBRK_P_REL = getF (d.reg R.SAFE_OUT) F.SAFE_OUT_PBRK_P_REL := by
  have hbrk : getF (relWord (d.reg R.SAFE_OUT) p q) F.SAFE_OUT_PBRK_M_REL = b2n p := by
    rw [relWord, getF_setF_ne _ _ _ _ (by decide), getF_setF_self _ _ _ (by decide)]
    cases p <;> rfl
  have hreq : getF (relWord (d.reg R.SAFE_OUT) p q) F.SAFE_OUT_DIS_M_REQ = b2n q := by
    rw [relWord, getF_setF_self _ _ _ (by decide)]
    cases q <;> rfl
  have hdis : getF (relWord (d.reg R.SAFE_OUT) p q) F.SAFE_OUT_DIS_P_REQ = getF (d.reg R.SAFE_OUT) F.SAFE_OUT_DIS_P_REQ := by
    rw [relWord, getF_setF_ne _ _ _ _ (by decide), getF_setF_ne _ _ _ _ (by decide), getF_setF_ne _ _ _ _ (by decide)]
  have hrel : getF (relWord (d.reg R.SAFE_OUT) p q) F.SAFE_OUT_PBRK_P_REL = getF (d.reg R.SAFE_OUT) F.SAFE_OUT_PBRK_P_REL := by
    rw [relWord, getF_setF_ne _ _ _ _ (by decide), getF_setF_ne _ _ _ _ (by decide), getF_setF_ne _ _ _ _ (by decide)]
  have hok1 : d.fieldOk Mid.S1 .safeB 0 Pg.SAFE 0x68 ⟨F.SAFE_OUT_PBRK_M_REL, .rwm, 0⟩ = true := d.outOk_rwm _ rfl rfl
  have hok2 : d.fieldOk Mid.S1 .safeB 0 Pg.SAFE 0x68 ⟨F.SAFE_OUT_DIS_M_REQ, .rwm, 0⟩ = true := d.outOk_rwm _ rfl rfl
  generalize relWord (d.reg R.SAFE_OUT) p q = w at hbrk hreq hdis hrel
  have hall : writeRefused (d.fieldOk Mid.S1 .safeB 0 (pageOf R.SAFE_OUT) 0x68) (d.reg R.SAFE_OUT) w outFields = false := by
    refine outUnrefused (fd := ⟨F.SAFE_OUT_PBRK_M_REL, .rwm, 0⟩) (by simp [outFields]) hok1 fun g hg => ?_
    simp only [outFields, List.mem_cons, List.not_mem_nil, or_false] at hg
    obtain rfl | rfl | rfl | rfl | rfl | rfl := hg
    · exact .inr (.inl (d.outOk_late Mid.S1))
    · exact .inl rfl
    · exact .inr (.inr (bne_self_getF hrel))
    · exact .inr (.inr (bne_self_getF hdis))
    · exact .inr (.inl hok1)
    · exact .inr (.inl hok2)
  have heq := Dev.plainWrite_unrefused (placed_out d) rfl regAt_out BitVec.and_zero hall
  have htake1 := (getF_applyFields_taken (w := w) (cur := d.reg R.SAFE_OUT) outFields_apart (List.mem_of_getElem? (i := 4) rfl) (.inr rfl) hok1 (by decide)).trans hbrk
  have htake2 := (getF_applyFields_taken (w := w) (cur := d.reg R.SAFE_OUT) outFields_apart (List.mem_of_getElem? (i := 5) rfl) (.inr rfl) hok2 (by decide)).trans hreq
  refine ⟨_, heq, (congrArg (· != 0) htake1).trans (by cases p <;> rfl), (congrArg (· != 0) htake2).trans (by cases q <;> rfl), ?_⟩
  exact getF_applyFields_kept (fd := ⟨F.SAFE_OUT_PBRK_P_REL, .rw, 0⟩) outFields_apart (by simp [outFields]) (fieldNext_stands (.inl rfl) hrel)

/-- Discharges started change the safety block's own state alone. -/
theorem Dev.startDisAll_safe (l : List (Nat × Bool)) (d : Dev) : ∃ x, l.foldl (fun e (p : Nat × Bool) => e.startDis p.2 p.1) d = { d with safe := x } := by
  induction l generalizing d with
  | nil => exact ⟨d.safe, rfl⟩
  | cons p l ih =>
    have hone : ∃ y, d.startDis p.2 p.1 = { d with safe := y } := by
      rw [Dev.startDis]
      split
      · exact ⟨d.safe, rfl⟩
      · exact ⟨_, rfl⟩
    obtain ⟨y, hy⟩ := hone
    obtain ⟨x, hx⟩ := ih { d with safe := y }
    exact ⟨x, by rw [List.foldl_cons, hy, hx]⟩

theorem Dev.garOutM_spec (d : Dev) (l : List Word) : ∃ v x, (d.garOutM l).dev = { d.setReg R.SAFE_OUT v with safe := x } ∧
    (d.garOutM l).args = [(d.garOutM l).dev.safeOutWord] ∧ (d.garOutM l).st = ST.OK ∧
    (getF v F.SAFE_OUT_PBRK_M_REL != 0) = bitOf (nthD 0 l 0) 0 ∧ (getF v F.SAFE_OUT_DIS_M_REQ != 0) = bitOf (nthD 0 l 0) 1 ∧
    getF v F.SAFE_OUT_PBRK_P_REL = getF (d.reg R.SAFE_OUT) F.SAFE_OUT_PBRK_P_REL := by
  obtain ⟨v, heq, hbrk, hreq, hrel⟩ := d.outWrite_m (bitOf (nthD 0 l 0) 0) (bitOf (nthD 0 l 0) 1)
  have hdev : ∃ x, d.safeOutWrite Mid.S1 (relWord (d.reg R.SAFE_OUT) (bitOf (nthD 0 l 0) 0) (bitOf (nthD 0 l 0) 1)) = { d.setReg R.SAFE_OUT v with safe := x } := by
    rw [Dev.safeOutWrite, heq]
    split
    · exact Dev.startDisAll_safe _ _
    · exact ⟨d.safe, rfl⟩
  obtain ⟨x, hx⟩ := hdev
  exact ⟨v, x, hx, rfl, rfl, hbrk, hreq, hrel⟩

/-! ### RING_REQ -/

theorem Dev.plainWrite_txReq (d : Dev) (w : Word) : d.plainWrite Mid.S1 R.SFX_TX_REQ w =
    d.setReg R.SFX_TX_REQ (takeAll [⟨F.SFX_TX_REQ_SS1_REQ, .rwm, 0⟩, ⟨F.SFX_TX_REQ_STO_REQ, .rwm, 0⟩] w (d.reg R.SFX_TX_REQ)) := by
  have hpl : Placed d R.SFX_TX_REQ .sfxB 0 0x54 := ⟨rfl, rfl, rfl, rfl, by decide⟩
  have hr : regAt .sfxB 0x54 = some (⟨0x54, 0, 1, 0, 1, [⟨F.SFX_TX_REQ_SS1_REQ, .rwm, 0⟩, ⟨F.SFX_TX_REQ_STO_REQ, .rwm, 0⟩]⟩, 0, 0) := rfl
  refine Dev.plainWrite_takenAt (acc := .rwm) hpl rfl hr (fun fd hfd => ?_) rfl BitVec.and_zero
  simp only [List.mem_cons, List.not_mem_nil, or_false] at hfd
  obtain rfl | rfl := hfd
  · exact ⟨rfl, rfl⟩
  · exact ⟨rfl, rfl⟩

theorem Dev.garRingReq_spec (d : Dev) (x y : Word) : ∃ v, d.garRingReq [x, y] = { dev := d.setReg R.SFX_TX_REQ v } ∧
    getF v F.SFX_TX_REQ_STO_REQ = x.toNat % 65536 ∧ getF v F.SFX_TX_REQ_SS1_REQ = y.toNat % 65536 := by
  have hw : (BitVec.ofNat 32 (y.toNat % 2 ^ 16 * 2 ^ 16 + x.toNat % 2 ^ 16)).toNat = y.toNat % 2 ^ 16 * 2 ^ 16 + x.toNat % 2 ^ 16 := by
    rw [BitVec.toNat_ofNat]
    exact Nat.mod_eq_of_lt (by omega)
  refine ⟨_, congrArg (fun e : Dev => ({ dev := e } : Ans)) (d.plainWrite_txReq _), ?_, ?_⟩
  · rw [takeAll, getF_applyFields_taken (fd := ⟨F.SFX_TX_REQ_STO_REQ, .rwm, 0⟩) (by decide) (by simp) (.inr rfl) rfl (by decide)]
    change getF (BitVec.ofNat 32 (y.toNat % 2 ^ 16 * 2 ^ 16 + x.toNat % 2 ^ 16)) F.SFX_TX_REQ_STO_REQ = _
    rw [getF, hw]
    simp only [F.SFX_TX_REQ_STO_REQ, fieldWidth]
    omega
  · rw [takeAll, getF_applyFields_taken (fd := ⟨F.SFX_TX_REQ_SS1_REQ, .rwm, 0⟩) (by decide) (by simp) (.inr rfl) rfl (by decide)]
    change getF (BitVec.ofNat 32 (y.toNat % 2 ^ 16 * 2 ^ 16 + x.toNat % 2 ^ 16)) F.SFX_TX_REQ_SS1_REQ = _
    rw [getF, hw]
    simp only [F.SFX_TX_REQ_SS1_REQ, fieldWidth]
    omega

end

end Sys2Proof.Machine
end

section
/-! PROOFS. RING_REJOIN: the new epoch proposed and the command passed to S1 (R403, R428). -/

namespace Sys2Proof.Machine

section
variable {d e u : Dev} {l : List Nat}

/-- The ring's own state and the free words. -/
def rejoinPart (d e : Dev) : Dev := { d with ring := e.ring, free := e.free }

theorem rejoinPart_part : Part rejoinPart := ⟨fun _ => rfl, fun _ _ _ => rfl, fun _ _ => rfl, fun _ _ _ => rfl⟩

/-! ### The new epoch -/

theorem le_foldl_max (l : List Nat) (a : Nat) : a ≤ l.foldl max a := by
  induction l generalizing a with
  | nil => exact Nat.le_refl a
  | cons b l ih => exact (Nat.le_max_left a b).trans (ih _)

theorem foldl_max_lt {n : Nat} {l : List Nat} {a : Nat} (ha : a < n) (h : ∀ b ∈ l, b < n) : l.foldl max a < n := by
  induction l generalizing a with
  | nil => exact ha
  | cons b l ih => exact ih (Nat.max_lt.2 ⟨ha, h b List.mem_cons_self⟩) fun c hc => h c (List.mem_cons_of_mem _ hc)

/-- The greatest epoch known, the node's own among them. -/
def Dev.topEpoch (d : Dev) : Nat :=
  ((d.ring.greats.filter fun (p : Nat × Nat) => d.recent p.1).map fun (p : Nat × Nat) => p.2).foldl max (max d.epoch d.epNew)

/-- The greatest epoch that frames show. -/
def Dev.shownEpoch (d : Dev) : Nat := ((List.range 16).flatMap fun s => (d.recentProps s).map fun p => p.2.1).foldl max 0

theorem Dev.firstNew_eq (d : Dev) : d.firstNew = if d.topEpoch < d.shownEpoch then d.shownEpoch else if 65535 ≤ d.topEpoch then 1 else d.topEpoch + 1 := rfl

theorem Dev.epoch_le_top (d : Dev) : d.epoch ≤ d.topEpoch := (Nat.le_max_left _ _).trans (le_foldl_max _ _)

theorem Dev.firstNew_greater (d : Dev) : d.epoch < d.firstNew ∨ d.firstNew = 1 := by
  have h := d.epoch_le_top
  rw [d.firstNew_eq]
  split
  · omega
  · split
    · exact .inr rfl
    · omega

theorem Dev.firstNew_lt (h : ∀ n < 16, ∀ p ∈ (d.srcS n).props, p.2.1 < 2 ^ 16) : d.firstNew < 2 ^ 16 := by
  have hshown : d.shownEpoch < 2 ^ 16 := by
    refine foldl_max_lt (by decide) fun b hb => ?_
    obtain ⟨n, hn, hb⟩ := List.mem_flatMap.1 hb
    obtain ⟨p, hp, rfl⟩ := List.mem_map.1 hb
    exact h n (List.mem_range.1 hn) p (List.mem_filter.1 hp).1
  rw [d.firstNew_eq]
  split
  · exact hshown
  · split
    · decide
    · omega

/-! ### The protocol's first step -/

/-- The protocol begun. -/
def Dev.epBegun (u : Dev) (c : Int) : Dev := { u with ring := { u.ring with epStart := c, okP := false, okM := false, commitAt := none } }

/-- A new epoch proposed. -/
def Dev.proposed (d : Dev) (n : Nat) : Dev :=
  let u := (d.put R.SFX_EP F.SFX_EP_EP_NEW n).put R.SFX_STAT F.SFX_STAT_EP_PH 1
  u.epBegun u.cycNow

theorem Dev.cycNow_put (d : Dev) {a : Nat} (f : RField) (v : Nat) (ha : a ≠ R.TL_VT_OFS_LO ∧ a ≠ R.TL_VT_OFS_HI) : (d.put a f v).cycNow = d.cycNow := by
  have h : SameTime d (d.put a f v) := ⟨rfl, Dev.reg_put_ne _ _ _ ha.1.symm, Dev.reg_put_ne _ _ _ ha.2.symm, rfl⟩
  exact congrArg (fun t : Int => t / (d.cycTicks : Int)) h.vehicleTime

/-- When a node may rejoin. -/
def Dev.mayRejoin (d : Dev) : Prop := (d.devState = DS.READY ∧ (d.epoch = 0 ∨ d.flag R.SFX_STAT F.SFX_STAT_SPLIT = true)) ∨
  (d.devState = DS.OVERCAST ∧ d.safe.ovcDone = true)

theorem Dev.rejoin_may (h : d.mayRejoin) : d.rejoin = some (d.proposed d.firstNew).epUpdate := if_pos h

theorem Dev.rejoin_not (h : ¬d.mayRejoin) : d.rejoin = none := if_neg h

/-- What is known of a device that has proposed an epoch. -/
structure Proposed (d : Dev) (n : Nat) (e : Dev) : Prop where
  frame : FrameOn ringPart [R.SFX_EP, R.SFX_STAT] d e
  phase : e.epPh ≠ 0
  epoch : e.epoch = d.epoch
  start : e.ring.epStart = d.cycNow
  new : e.epNew = n % 2 ^ 16

theorem Proposed.begun {n : Nat} (hf : FrameOn ringPart [R.SFX_EP, R.SFX_STAT] d u) (hph : u.epPh = 1) (hep : u.epoch = d.epoch) {c : Int} (hc : c = d.cycNow)
    (hn : u.epNew = n % 2 ^ 16) : Proposed d n (u.epBegun c) where
  frame := hf.part ringPart_part rfl fun _ => rfl
  phase := by
    rw [show (u.epBegun c).epPh = u.epPh from rfl, hph]
    decide
  epoch := hep
  start := hc
  new := hn

theorem Dev.epNew_put (d : Dev) (n v : Nat) : ((d.put R.SFX_EP F.SFX_EP_EP_NEW n).put R.SFX_STAT F.SFX_STAT_EP_PH v).epNew = n % 2 ^ 16 := by
  rw [Dev.epNew, Dev.get_of_reg (Dev.reg_put_ne _ _ _ (by decide)) F.SFX_EP_EP_NEW, Dev.get_put_self _ _ _ _ (by decide)]
  rfl

theorem Dev.epoch_put (d : Dev) (n v : Nat) : ((d.put R.SFX_EP F.SFX_EP_EP_NEW n).put R.SFX_STAT F.SFX_STAT_EP_PH v).epoch = d.epoch := by
  rw [Dev.epoch, Dev.get_put_field _ _ _ _ _ _ (by decide), Dev.get_of_reg (Dev.reg_put_ne _ _ _ (by decide)) F.SFX_STAT_EPOCH]
  rfl

theorem Dev.epPh_put (u : Dev) : (u.put R.SFX_STAT F.SFX_STAT_EP_PH 1).epPh = 1 := Dev.get_put_self _ _ _ _ (by decide)

theorem Dev.proposed_spec (d : Dev) (n : Nat) : Proposed d n (d.proposed n) := by
  have hframe : FrameOn ringPart [R.SFX_EP, R.SFX_STAT] d ((d.put R.SFX_EP F.SFX_EP_EP_NEW n).put R.SFX_STAT F.SFX_STAT_EP_PH 1) :=
    ((FrameOn.refl ringPart_part _ d).put ringPart_part F.SFX_EP_EP_NEW n (by decide)).put ringPart_part F.SFX_STAT_EP_PH 1 (by decide)
  have hcyc : ((d.put R.SFX_EP F.SFX_EP_EP_NEW n).put R.SFX_STAT F.SFX_STAT_EP_PH 1).cycNow = d.cycNow := by
    rw [Dev.cycNow_put _ _ _ (by decide), Dev.cycNow_put _ _ _ (by decide)]
  exact .begun hframe (Dev.epPh_put _) (d.epoch_put n 1) hcyc (d.epNew_put n 1)

/-- The protocol's update keeps it. -/
theorem Proposed.update {n : Nat} (h : Proposed d n e) : Proposed d n e.epUpdate :=
  EpKeeps.update (P := Proposed d n) {
    ack := fun u v hu => ⟨hu.frame.put ringPart_part _ _ (by decide),
      fun h => hu.phase ((Dev.get_of_reg (Dev.reg_put_ne _ _ _ (by decide)) _).symm.trans h),
      (Dev.get_of_reg (Dev.reg_put_ne _ _ _ (by decide)) _).trans hu.epoch, hu.start,
      (Dev.get_put_field _ _ _ _ _ _ (by decide)).trans hu.new⟩
    ok := fun u hu => ⟨hu.frame.part ringPart_part rfl fun _ => rfl, hu.phase, hu.epoch, hu.start, hu.new⟩
    ph := fun u hu => ⟨hu.frame.put ringPart_part _ _ (by decide),
      fun h => absurd ((Dev.get_put_self _ _ _ _ (by decide)).symm.trans h) (by decide),
      (Dev.get_put_field _ _ _ _ _ _ (by decide)).trans hu.epoch, hu.start,
      (Dev.get_of_reg (Dev.reg_put_ne _ _ _ (by decide)) _).trans hu.new⟩
    commit := fun u c hu => ⟨hu.frame.part ringPart_part rfl fun _ => rfl, hu.phase, hu.epoch, hu.start, hu.new⟩ } h

/-! ### The command passed to S1 -/

theorem Dev.passToS1_spec (e : Dev) : Quiet { e with free := e.free + 1 } e.passToS1 := by
  rw [show e.passToS1 = (({ e with free := e.free + 1 } : Dev).mbxSend 4 1 (msgHeader 0x31 (Config.freeWord e.free).toNat 0 0 0)).setMbx 4
    (((({ e with free := e.free + 1 } : Dev).mbxSend 4 1 (msgHeader 0x31 (Config.freeWord e.free).toNat 0 0 0)).mbxS 4).pop 2) from rfl]
  exact (Dev.mbxSend_quiet _ _ _ _).trans (Dev.setMbx_quiet _ _ _)

/-- RING_REJOIN where it is accepted. -/
theorem Dev.garRejoin_may (h : d.mayRejoin) : ∃ e, d.garRejoin = { dev := e } ∧ FrameOn rejoinPart [R.SFX_EP, R.SFX_STAT] d e ∧ e.epPh ≠ 0 ∧
    e.epoch = d.epoch ∧ e.ring.epStart = d.cycNow ∧ e.epNew = d.firstNew % 2 ^ 16 := by
  have hp := (d.proposed_spec d.firstNew).update
  refine ⟨((d.proposed d.firstNew).epUpdate).passToS1, by rw [Dev.garRejoin, Dev.rejoin_may h], ?_⟩
  generalize (d.proposed d.firstNew).epUpdate = u at hp
  obtain ⟨hframe, hphase, hepoch, hstart, hnew⟩ := hp
  have hq := u.passToS1_spec
  generalize u.passToS1 = e at hq
  have hfree : FrameOn rejoinPart [R.SFX_EP, R.SFX_STAT] d { u with free := u.free + 1 } :=
    (hframe.widen ringPart_part rejoinPart_part (fun _ _ => rfl) fun _ hm => hm).part rejoinPart_part rfl fun _ => rfl
  have hget : ∀ a f, eventReg a = false → e.get a f = u.get a f := fun a f ha => hq.get ha f
  exact ⟨hfree.quiet rejoinPart_part hq, fun h => hphase ((hget _ _ (by decide)).symm.trans h), (hget _ _ (by decide)).trans hepoch,
    (congrArg RingSt.epStart hq.ring).trans hstart, (hget _ _ (by decide)).trans hnew⟩

theorem Dev.garRejoin_not (h : ¬d.mayRejoin) : d.garRejoin = { dev := d, st := ST.MACH_BUSY } := by
  rw [Dev.garRejoin, Dev.rejoin_not h]

end

end Sys2Proof.Machine
end

section
/-! PROOFS. O47: Garmal's messages and their responses (R424 to R429). -/

namespace Sys2Proof.Machine

section
variable {d : Dev} {ch : Nat} {h x y : Word} {s : State} {l : List Word}

/-- The commands of the tables, by row. -/
theorem garTable_answers (hh : s.dev.garHead ch = some h) : ∀ row ∈ garTable,
    (s.dev.asks ch row.code h → ¬row.len (s.dev.garArgs ch h) →
      exec (row.cmd ch) s = .next (s.withDev ((s.dev.asked ch h).respond ch h ST.BAD_LEN []))) ∧
    (s.dev.asks ch row.code h → row.len (s.dev.garArgs ch h) → ¬row.states (s.dev.asked ch h).devState →
      exec (row.cmd ch) s = .next (s.withDev ((s.dev.asked ch h).respond ch h ST.BAD_STATE []))) ∧
    (¬s.dev.asks ch row.code h → exec (row.cmd ch) s = .next s) := by
  intro row hrow
  obtain ⟨len, states, f, hrun⟩ := garTable_served row hrow
  rw [hrun.exec, hrun.len, hrun.states, Bool.not_eq_true, Bool.not_eq_true]
  exact ⟨fun ha hl => garCmd_badLen _ _ _ ha hl, fun ha hl hst => garCmd_badState _ _ _ ha hl hst, fun ha => garCmd_other _ _ _ hh ha⟩

/-- A command that is served, by its answer. -/
theorem garDev_done {code : Nat} {len : List Word → Bool} {states : Nat → Bool} {f : Dev → List Word → Ans} {e : Dev} {st : Nat} {m : List Word}
    (ha : s.dev.asks ch code h) (hargs : s.dev.garArgs ch h = l) (hl : len l = true) (hst : states (s.dev.asked ch h).devState = true)
    (hr : f (s.dev.asked ch h) l = ⟨e, st, m⟩) : garDev ch code len states f s = .next (s.withDev (e.respond ch h st m)) :=
  garDev_served ha hargs hl hst hr

theorem Frame.setReg_one (d : Dev) {a : Nat} (v : Word) : Frame d (d.setReg a v) [a] :=
  (FrameOn.refl noPart_part [a] d).setReg noPart_part v (List.mem_singleton_self a)

theorem Dev.reg_withSafe (d : Dev) (q : SafeSt) (a : Nat) : ({ d with safe := q } : Dev).reg a = d.reg a := rfl

theorem Dev.garVersion_quiet {d e : Dev} (hq : Quiet d e) : e.garVersion = ⟨e, ST.OK, [d.reg (R.PG_ID Pg.SYS),
    BitVec.ofNat 32 (d.get R.SEC_BOOT F.SEC_BOOT_VERSION)] ++ (List.range 4).map fun k => d.reg (R.SEC_HASH k)⟩ := by
  have hhash : ∀ k ∈ List.range 4, e.reg (R.SEC_HASH k) = d.reg (R.SEC_HASH k) := fun k hk => by
    refine hq.reg ?_
    have hk4 := List.mem_range.1 hk
    revert k
    decide
  rw [Dev.garVersion, hq.reg (by decide), hq.get (by decide), List.map_congr_left hhash]
  rfl

theorem Dev.garNotify_spec (d : Dev) (ch : Nat) (l : List Word) : ∃ e, d.garNotify ch l = { dev := e } ∧ Quiet d e ∧
    (e.garS ch).notify = bitOf (nthD 0 l 0) 0 :=
  ⟨_, rfl, d.setGar_quiet _ _, by rw [Dev.garS_setGar_self]⟩

/-- NOTIFY. -/
theorem notify_served (ha : s.dev.asks ch 0x04 h) (hargs : s.dev.garArgs ch h = [x]) :
    Responds (exec (.notify ch) s) s ch h ST.OK (fun _ => []) fun e => Quiet (s.dev.asked ch h) e ∧ (e.garS ch).notify = bitOf x 0 := by
  rw [show exec (.notify ch) s = execNotify ch s from rfl, execNotify]
  obtain ⟨e, heq, hq, hn⟩ := (s.dev.asked ch h).garNotify_spec ch [x]
  exact ⟨e, garDev_done ha hargs rfl rfl heq, hq, hn⟩

/-- The word of a machine, as MACH_STATUS answers it. -/
def Dev.statusOf (d : Dev) (l : List Word) : Ans := d.withMach l fun m => { dev := d, args := [(d.machS m).stat] }

/-- MACH_STATUS. -/
theorem machStatus_served (ha : s.dev.asks ch 0x26 h) (hargs : s.dev.garArgs ch h = [x]) (hst : fromConfigure (s.dev.asked ch h).devState = true) :
    ((s.dev.asked ch h).machUsable (x.toNat % 32) →
      exec (.machStatus ch) s = .next (s.withDev ((s.dev.asked ch h).respond ch h ST.OK [((s.dev.asked ch h).machS (x.toNat % 32)).stat]))) ∧
    (20 ≤ x.toNat % 32 → exec (.machStatus ch) s = .next (s.withDev ((s.dev.asked ch h).respond ch h ST.BAD_ARG []))) := by
  rw [show exec (.machStatus ch) s = execMachStatus ch s from rfl, show execMachStatus ch s = garDev ch 0x26 (lenIs 1) fromConfigure Dev.statusOf s from rfl]
  refine ⟨fun hu => ?_, fun hm => ?_⟩
  · have heq : (s.dev.asked ch h).statusOf [x] = { dev := s.dev.asked ch h, args := [((s.dev.asked ch h).machS (x.toNat % 32)).stat] } :=
      Dev.withMach_usable (l := [x]) rfl hu _
    exact garDev_done ha hargs rfl hst heq
  · have heq : (s.dev.asked ch h).statusOf [x] = { dev := s.dev.asked ch h, st := ST.BAD_ARG } := Dev.withMach_absent (l := [x]) hm _
    exact garDev_done ha hargs rfl hst heq

/-- BRAKE_P. -/
theorem brakeP_served (ha : s.dev.asks ch 0x32 h) (hargs : s.dev.garArgs ch h = [x]) (hst : fromReady (s.dev.asked ch h).devState = true)
    (ht : (s.dev.asked ch h).takenAt Mid.S0 R.SAFE_OUT = true) :
    Responds (exec (.brakeP ch) s) s ch h ST.OK (fun _ => []) fun e => Frame (s.dev.asked ch h) e [R.SAFE_OUT] ∧
      e.flag R.SAFE_OUT F.SAFE_OUT_PBRK_P_REL = bitOf x 0 ∧
      ∀ f ∈ [F.SAFE_OUT_DIS_M_LATE, F.SAFE_OUT_DIS_P_REQ, F.SAFE_OUT_PBRK_M_REL, F.SAFE_OUT_DIS_M_REQ],
        e.get R.SAFE_OUT f = (s.dev.asked ch h).get R.SAFE_OUT f := by
  rw [show exec (.brakeP ch) s = execBrakeP ch s from rfl, execBrakeP]
  rw [Dev.takenAt_out] at ht
  obtain ⟨v, heq, hp, hkept⟩ := Dev.garBrakeP_spec ht [x]
  refine ⟨_, garDev_done ha hargs rfl hst heq, ?_, ?_, fun f hf => ?_⟩
  · exact Frame.setReg_one _ v
  · rw [Dev.flag, Dev.get, Dev.reg_setReg_self]
    exact hp
  · rw [Dev.get, Dev.reg_setReg_self, hkept f hf]
    rfl

/-- The safety block's own state. -/
def blockPart (d e : Dev) : Dev := { d with safe := e.safe }

theorem blockPart_part : Part blockPart := ⟨fun _ => rfl, fun _ _ _ => rfl, fun _ _ => rfl, fun _ _ _ => rfl⟩

/-- OUT_M. -/
theorem outM_served (ha : s.dev.asks ch 0x43 h) (hargs : s.dev.garArgs ch h = [x]) (hst : fromReady (s.dev.asked ch h).devState = true) :
    Responds (exec (.outM ch) s) s ch h ST.OK (fun e => [e.safeOutWord]) fun e => Frame { s.dev.asked ch h with safe := e.safe } e [R.SAFE_OUT] ∧
      e.flag R.SAFE_OUT F.SAFE_OUT_PBRK_M_REL = bitOf x 0 ∧ e.flag R.SAFE_OUT F.SAFE_OUT_DIS_M_REQ = bitOf x 1 ∧
      e.get R.SAFE_OUT F.SAFE_OUT_PBRK_P_REL = (s.dev.asked ch h).get R.SAFE_OUT F.SAFE_OUT_PBRK_P_REL := by
  rw [show exec (.outM ch) s = execOutM ch s from rfl, execOutM]
  obtain ⟨v, q, hdev, hout, hst', hbrk, hreq, hrel⟩ := (s.dev.asked ch h).garOutM_spec [x]
  cases hr : (s.dev.asked ch h).garOutM [x] with
  | mk e st args =>
  rw [hr] at hdev hout hst'
  dsimp only at hdev hout hst'
  rw [hst', hout] at hr
  have hserved := garDev_done (f := fun d args => d.garOutM args) ha hargs (rfl : lenIs 1 [x] = true) hst hr
  have hreg : e.reg R.SAFE_OUT = v := by
    rw [hdev, Dev.reg_withSafe, Dev.reg_setReg_self]
  have hframe : FrameOn blockPart [R.SAFE_OUT] (s.dev.asked ch h) e := by
    rw [hdev]
    exact ((FrameOn.refl blockPart_part [R.SAFE_OUT] _).setReg blockPart_part v (by decide)).part blockPart_part rfl fun _ => rfl
  refine ⟨e, hserved, hframe, ?_, ?_, ?_⟩
  · rw [Dev.flag, Dev.get, hreg]
    exact hbrk
  · rw [Dev.flag, Dev.get, hreg]
    exact hreq
  · rw [Dev.get, hreg, hrel]
    rfl

/-- RING_REQ. -/
theorem ringReq_served (ha : s.dev.asks ch 0x44 h) (hargs : s.dev.garArgs ch h = [x, y]) (hst : fromReady (s.dev.asked ch h).devState = true) :
    Responds (exec (.ringReq ch) s) s ch h ST.OK (fun _ => []) fun e => Frame (s.dev.asked ch h) e [R.SFX_TX_REQ] ∧
      e.get R.SFX_TX_REQ F.SFX_TX_REQ_STO_REQ = x.toNat % 65536 ∧ e.get R.SFX_TX_REQ F.SFX_TX_REQ_SS1_REQ = y.toNat % 65536 := by
  rw [show exec (.ringReq ch) s = execRingReq ch s from rfl, execRingReq]
  obtain ⟨v, heq, hsto, hss1⟩ := (s.dev.asked ch h).garRingReq_spec x y
  refine ⟨_, garDev_done ha hargs rfl hst heq, Frame.setReg_one _ v, ?_, ?_⟩
  · rw [Dev.get, Dev.reg_setReg_self]
    exact hsto
  · rw [Dev.get, Dev.reg_setReg_self]
    exact hss1

/-- RING_REJOIN. -/
theorem ringRejoin_served (ha : s.dev.asks ch 0x31 h) (hargs : s.dev.garArgs ch h = []) :
    ((s.dev.asked ch h).mayRejoin → Responds (exec (.ringRejoin ch) s) s ch h ST.OK (fun _ => []) fun e =>
      Frame { s.dev.asked ch h with ring := e.ring, free := e.free } e [R.SFX_EP, R.SFX_STAT] ∧ e.epPh ≠ 0 ∧ e.epoch = (s.dev.asked ch h).epoch ∧
      e.ring.epStart = (s.dev.asked ch h).cycNow ∧ ((∀ n < 16, ∀ p ∈ ((s.dev.asked ch h).srcS n).props, p.2.1 < 2 ^ 16) →
        e.epNew = (s.dev.asked ch h).firstNew ∧ ((s.dev.asked ch h).epoch < e.epNew ∨ e.epNew = 1))) ∧
    (¬(s.dev.asked ch h).mayRejoin → exec (.ringRejoin ch) s = .next (s.withDev ((s.dev.asked ch h).respond ch h ST.MACH_BUSY []))) := by
  rw [show exec (.ringRejoin ch) s = execRingRejoin ch s from rfl, execRingRejoin]
  refine ⟨fun hmay => ?_, fun hnot => garDev_done ha hargs rfl rfl (Dev.garRejoin_not hnot)⟩
  obtain ⟨e, heq, hframe, hph, hep, hstart, hnew⟩ := Dev.garRejoin_may hmay
  refine ⟨e, garDev_done ha hargs rfl rfl heq, hframe, hph, hep, hstart, fun hprops => ?_⟩
  have hn : e.epNew = (s.dev.asked ch h).firstNew := hnew.trans (Nat.mod_eq_of_lt (Dev.firstNew_lt hprops))
  exact ⟨hn, hn ▸ (s.dev.asked ch h).firstNew_greater⟩

/-- NOP and VERSION. -/
theorem nop_served (ha : s.dev.asks ch 0x01 h) : exec (.nop ch) s = .next (s.withDev ((s.dev.asked ch h).respond ch h ST.OK (s.dev.garArgs ch h))) := by
  rw [show exec (.nop ch) s = execNop ch s from rfl, execNop]
  exact garDev_done ha rfl rfl rfl rfl

theorem version_served (ha : s.dev.asks ch 0x02 h) (hargs : s.dev.garArgs ch h = []) :
    exec (.version ch) s = .next (s.withDev ((s.dev.asked ch h).respond ch h ST.OK
      ([s.dev.reg (R.PG_ID Pg.SYS), BitVec.ofNat 32 (s.dev.get R.SEC_BOOT F.SEC_BOOT_VERSION)] ++
        (List.range 4).map fun k => s.dev.reg (R.SEC_HASH k)))) := by
  have hq := (s.dev.asked_spec ch h).quiet
  have heq := Dev.garVersion_quiet hq
  rw [show exec (.version ch) s = execVersion ch s from rfl, execVersion]
  exact garDev_done ha hargs rfl rfl heq

/-- BAD_CODE. -/
theorem badCode_spec (hh : s.dev.garHead ch = some h) :
    (servedMsg ch h = false → exec (.badCode ch) s = .next (s.withDev ((s.dev.asked ch h).respond ch h ST.BAD_CODE []))) ∧
    (servedMsg ch h = true → exec (.badCode ch) s = .next s) := by
  rw [show exec (.badCode ch) s = onDev (fun d => d.garBadCode ch) s from rfl]
  exact ⟨fun hs => onDev_eq (Dev.garHead_up hh) (badCode_unserved hh hs), fun hs => onDev_same (Dev.garHead_up hh) (badCode_served hh hs)⟩

/-- Settles O47: each command from what its table's row checks, the message taken whole, and what the served command does. -/
theorem garmalMessages : Obligations.GarmalMessages := by
  intro s ch h hh
  have htaken := s.dev.asked_spec ch h
  refine ⟨garTable_answers hh, servedMsg_iff ch h, ⟨htaken.quiet, htaken.others, htaken.ba, htaken.ab⟩, fun st l _ => Dev.respond_spec _ ch h st l,
    nop_served, version_served, fun x hargs => ⟨fun ha => notify_served ha hargs, fun ha hst => machStatus_served ha hargs hst,
      fun ha hst ht => brakeP_served ha hargs hst ht, fun ha hst => outM_served ha hargs hst⟩,
    fun x y hargs ha hst => ringReq_served ha hargs hst, fun ha hargs => ringRejoin_served ha hargs, badCode_spec hh⟩

end

end Sys2Proof.Machine
end

section
/-! PROOFS. The machines in COMMISSION: Garmal disables their groups (R332, R333, R381). -/

namespace Sys2Proof.Machine

section
variable {d e f : Dev} {m g : Nat} {l : List Nat}

/-- Registers of the groups' pages and of the gate-drive blocks are a transition's. -/
theorem trans_page {a : Nat} (h : (0x40080000 ≤ a ∧ a < 0x40094000) ∨ (0x40098000 ≤ a ∧ a < 0x4009A000)) (hne : a % 0x1000 ≠ 0x10) : a ∈ transRegs := by
  refine mem_transRegs.2 (.inr (.inr (pageRegs_of (p := (a - 0x40000000) / 0x1000) (mem_transPages.2 ?_) ?_)))
  · omega
  · simp only [pageBase]
    omega

theorem startRegs_trans (hg : g < 20) : ∀ a ∈ startRegs g, a ∈ transRegs := by
  intro a ha
  simp only [startRegs, List.mem_cons, List.not_mem_nil, or_false] at ha
  obtain rfl | rfl | rfl | rfl := ha
  · exact trans_page (by simp only [R.PG_CTRL, pageBase, Pg.PWT]; omega) (by simp only [R.PG_CTRL, pageBase, Pg.PWT]; omega)
  · exact trans_page (by simp only [R.PG_STAT, pageBase, Pg.PWT]; omega) (by simp only [R.PG_STAT, pageBase, Pg.PWT]; omega)
  · exact trans_page (by simp only [R.PWT_STAT]; omega) (by simp only [R.PWT_STAT]; omega)
  · exact mem_transRegs.2 (.inl (.inl rfl))

theorem stopRegs_trans (hg : g < 20) : ∀ a ∈ stopRegs g, a ∈ transRegs ∧ a ≠ R.SYS_STATE := by
  intro a ha
  have hplace : ((0x40080000 ≤ a ∧ a < 0x40094000) ∨ (0x40098000 ≤ a ∧ a < 0x4009A000)) ∧ a % 0x1000 ≠ 0x10 := by
    simp only [stopRegs, List.mem_cons, List.not_mem_nil, or_false] at ha
    obtain rfl | rfl | rfl | rfl | rfl | rfl := ha
    · simp only [R.PG_CTRL, pageBase, Pg.PWT]; omega
    · simp only [R.PWT_STAT]; omega
    · simp only [R.PWT_CARRY]; omega
    · simp only [R.PWT_CARRY]; omega
    · simp only [R.PWT_CARRY]; omega
    · rw [gdLstat]
      split
      · simp only [R.GDT_LSTAT]; omega
      · simp only [R.GDA_LSTAT]; omega
  refine ⟨trans_page hplace.1 hplace.2, fun h => ?_⟩
  simp only [R.SYS_STATE] at h
  omega

/-- A transition's operations that leave the device state. -/
structure StateKept (d e : Dev) : Prop where
  run : TransRun d e
  sys : e.reg R.SYS_STATE = d.reg R.SYS_STATE

theorem StateKept.state (h : StateKept d e) : e.devState = d.devState := Dev.get_of_reg h.sys _

theorem StateKept.refl (d : Dev) : StateKept d d := ⟨FrameOn.refl transPart_part _ d, rfl⟩

theorem StateKept.trans (h : StateKept d e) (k : StateKept e f) : StateKept d f := ⟨FrameOn.trans transPart_part h.run k.run, k.sys.trans h.sys⟩

theorem StateKept.mach (hm : m < 20) (h : MachRun m d e) : StateKept d e := ⟨TransRun.mach hm h, h.reg (by decide) (sysState_not_mach hm)⟩

theorem StateKept.of_quiet (h : Quiet d e) : StateKept d e := ⟨.of_quiet h, h.reg (by decide)⟩

theorem StateKept.host (h : FrameOn hostPart l d e) (hl : ∀ a ∈ l, a ∈ transRegs ∧ a ≠ R.SYS_STATE) : StateKept d e :=
  ⟨.host h fun a ha => (hl a ha).1, h.reg hostPart_part (by decide) fun hm => (hl _ hm).2 rfl⟩

theorem StateKept.live (h : StateKept d e) (hlive : d.replaying = false) : e.replaying = false := (TransRun.live h.run).trans hlive

theorem Dev.groupOff_kept (d : Dev) (hg : g < 20) : StateKept d (d.groupOff g) := by
  have hf := (d.groupOff_spec hg).frame
  refine .host (hf.widen grpPart_part hostPart_part (fun _ _ => rfl) fun _ h => h) fun a ha => ?_
  obtain ha | ha := List.mem_append.1 ha
  · exact stopRegs_trans hg a ha
  · cases hs : d.secOf g with
    | none =>
      rw [hs] at ha
      cases ha
    | some h =>
      rw [hs] at ha
      obtain ⟨hh, h12, -⟩ := Dev.secOf_eq hs
      exact stopRegs_trans (by omega) a ha

theorem startRegs_state (hg : g < 20) : ∀ a ∈ startRegs g, a ∈ transRegs ∧ a ≠ R.SYS_STATE := fun a ha => ⟨startRegs_trans hg a ha, fun h => by
  subst h
  simp only [startRegs, List.mem_cons, List.not_mem_nil, or_false, R.SYS_STATE, R.PG_CTRL, R.PG_STAT, pageBase, Pg.PWT, R.PWT_STAT, R.SYS_ABSENT_CNT] at ha
  omega⟩

/-- A supervisor's write that disables a group. -/
theorem Dev.disableWrite_kept (hlive : d.replaying = false) (hg : g < 20) (mid : Nat) {w : Word} (hw : getF w F.PG_CTRL_EN = 0) :
    StateKept d (d.pWrite mid (R.PG_CTRL (Pg.PWT g)) w) := by
  have hpage : pageOf (R.PG_CTRL (Pg.PWT g)) = Pg.PWT g := pageOf_base (by simp only [Pg.PWT]; omega) (by decide)
  have hoff : offOf (R.PG_CTRL (Pg.PWT g)) = 8 := by simp only [R.PG_CTRL, pageBase, Pg.PWT, offOf]; omega
  obtain ⟨b, i, hinfo, hb⟩ := pageInfo_pwt hg
  have hp := hostPart_part
  have h := FrameOn.refl hp (startRegs g) d
  have hnum : Pg.PWT g - Pg.PWT 0 = g := by simp only [Pg.PWT]; omega
  have hpwm : ∀ b, StateKept d (d.pwmCtrlWrite mid b (Pg.PWT g) w) := by
    intro b
    have hc : R.PG_CTRL (Pg.PWT g) ∈ startRegs g := by simp [startRegs]
    have hs : R.PG_STAT (Pg.PWT g) ∈ startRegs g := by simp [startRegs]
    rw [Dev.pwmCtrlWrite, hnum, hw]
    have h1 := (h.ctrlWrite hp hc hs mid b (setF w F.PG_CTRL_EN (b2n (d.pageEn (Pg.PWT g))))).denyIf hp hs
      (!d.pageFieldOk mid b (Pg.PWT g) && (0 != 0) != d.pageEn (Pg.PWT g))
    have h2 := StateKept.host h1 (startRegs_state hg)
    generalize ((d.ctrlWrite mid b (Pg.PWT g) (setF w F.PG_CTRL_EN (b2n (d.pageEn (Pg.PWT g))))).denyIf
      (!d.pageFieldOk mid b (Pg.PWT g) && (0 != 0) != d.pageEn (Pg.PWT g)) (Pg.PWT g)) = u at h2
    exact ite_both (P := StateKept d) (fun _ => h2) fun _ => h2.trans (u.groupOff_kept hg)
  have hctrl : StateKept d (d.pgCtrlWrite mid b i (Pg.PWT g) w) := by
    obtain rfl | rfl := hb
    · exact hpwm _
    · exact hpwm _
  rw [Dev.pWrite_live hlive (hpage ▸ hinfo), Dev.pWriteIn, hpage, hinfo]
  simp only [hoff, if_true]
  refine ite_both (P := StateKept d) (fun _ => .host (h.absentWrite (by simp [startRegs]) _ _) (startRegs_state hg)) fun _ =>
    ite_both (P := StateKept d) (fun _ => ?_) fun _ => hctrl
  exact hctrl.trans (.of_quiet (Dev.emit_quiet _ _))

/-- OFF, with every group of the machine disabled. -/
theorem Dev.toOff_kept (hm : m < 20) (hlive : d.replaying = false) : StateKept d (d.toOff m) := by
  have h1 : StateKept d ((d.mDrop m).mCtxOff m) := .mach hm (((MachRun.refl m d).mDrop hm).mCtxOff hm hlive)
  rw [Dev.toOff]
  generalize (d.mDrop m).mCtxOff m = u at h1
  have h2 : StateKept d ((u.mGroups m).foldl (fun e g =>
      if e.pwmEn g then e.pWrite Mid.S0 (R.PG_CTRL (Pg.PWT g)) (setF (e.reg (R.PG_CTRL (Pg.PWT g))) F.PG_CTRL_EN 0) else e) u) := by
    refine foldl_keeps (P := StateKept d) (fun g hg e he => ite_both (P := StateKept d) (fun _ => ?_) fun _ => he) h1
    exact he.trans (Dev.disableWrite_kept (he.live hlive) (mGroups_lt hm g hg) _ (by rw [getF_setF_self _ _ _ (by decide)]; rfl))
  generalize (u.mGroups m).foldl _ u = v at h2
  exact h2.trans (.mach hm ((MachRun.refl m v).machGo hm MS.OFF 8).disP)

theorem Dev.machDevState_commission (hm : m < 20) (hlive : d.replaying = false) : StateKept d (d.machDevState m DS.COMMISSION) := by
  rw [Dev.machDevState]
  refine ite_both (P := StateKept d) (fun _ => .refl d) fun _ => ?_
  rw [if_pos (.inr rfl)]
  exact ite_both (P := StateKept d) (fun _ => .refl d) fun _ => Dev.toOff_kept hm hlive

theorem StateKept.grantAll (h : StateKept d e) : StateKept d e.grantAll :=
  ⟨TransRun.grantAll h.run, (e.grantAll_frame.reg gatePart_part (by decide) (by decide)).trans h.sys⟩

/-- A device state entered, with what it brings the machines and the grants. -/
theorem Dev.goSafe_kept (hlive : d.replaying = false) {new : Nat} (hnew : ∀ m < 20, ∀ u : Dev, u.replaying = false → StateKept u (u.machDevState m new))
    (cause : Nat) (valid : Bool) : StateKept (d.setState new cause valid) (d.goSafe new cause valid) := by
  have hr := d.setState_run new cause valid
  rw [Dev.goSafe, Dev.goState]
  generalize d.setState new cause valid = u at hr ⊢
  have hl : u.replaying = false := (TransRun.live hr).trans hlive
  have hall : StateKept u (forN 20 (fun m e => e.machDevState m new) u) :=
    forN_keeps (P := StateKept u) 20 (fun m hm e he => he.trans (hnew m hm e (he.live hl))) (.refl u)
  refine StateKept.grantAll (ite_both (P := StateKept u) (fun _ => ?_) fun _ => .refl u)
  rw [Dev.byS0]
  exact ite_both (P := StateKept u) (fun _ => .refl u) fun _ => hall

theorem Dev.goSafe_commission (hlive : d.replaying = false) (cause : Nat) (valid : Bool) :
    StateKept (d.setState DS.COMMISSION cause valid) (d.goSafe DS.COMMISSION cause valid) :=
  Dev.goSafe_kept hlive (fun _ hm _ hu => Dev.machDevState_commission hm hu) cause valid

theorem Dev.goSafe_ready (hlive : d.replaying = false) (cause : Nat) (valid : Bool) :
    StateKept (d.setState DS.READY cause valid) (d.goSafe DS.READY cause valid) :=
  Dev.goSafe_kept hlive (fun _ hm u hu => .mach hm (u.machDevState_ready hm hu)) cause valid

theorem Dev.machDevState_run (d : Dev) (m : Nat) : d.machDevState m DS.RUN = d := by
  rw [Dev.machDevState]
  split
  · rfl
  · rw [if_neg (by decide), if_neg (by decide), if_neg (by decide)]

theorem Dev.goSafe_running (hlive : d.replaying = false) (cause : Nat) (valid : Bool) :
    StateKept (d.setState DS.RUN cause valid) (d.goSafe DS.RUN cause valid) :=
  Dev.goSafe_kept hlive (fun m _ u _ => by rw [u.machDevState_run]; exact .refl u) cause valid

/-- The only transition of its tick is told. -/
theorem Dev.setState_told (d : Dev) (new cause : Nat) (valid : Bool) (h : d.trans.at1 ≠ d.now + 1) :
    Raised (d.setState new cause valid) Pg.SYS Ev.STATE_CHANGE := by
  rw [Dev.setState, if_neg h]
  exact Dev.raiseN_raised _ _ rfl

/-- A device state entered alone in its tick. -/
structure WentTo (d e : Dev) (new : Nat) : Prop where
  state : e.devState = new
  prev : e.get R.SYS_STATE F.SYS_STATE_PREV = d.devState % 16
  told : Raised e Pg.SYS Ev.STATE_CHANGE

theorem Dev.wentTo {new : Nat} (hn : new < 16) (halone : d.trans.at1 ≠ d.now + 1) (h : StateKept (d.setState new 0 false) e) : WentTo d e new := by
  have hs := d.setState_taken hn (cause := 0) (by decide) false (.inl halone)
  rw [if_neg halone] at hs
  exact ⟨h.state.trans hs.state, (Dev.get_of_reg h.sys _).trans hs.prev, TransRun.told h.run (d.setState_told new 0 false halone)⟩

end

end Sys2Proof.Machine
end

section
/-! PROOFS. The safety parameter block loaded and checked (R381, R382). -/

namespace Sys2Proof.Machine

section
variable {d e f u : Dev} {m n c a i mid : Nat} {b : Block} {w : Word}

/-- The registers that tell of the device state, of the block and of a replay. -/
def spareRegs : List Nat := [R.RPL_STAT, R.SYS_STATE, R.SAFE_STAT, R.SAFE_CRC_P]

/-- Operations that leave those registers, the loaded block and the member. -/
structure Spared (d e : Dev) : Prop where
  reg : ∀ a ∈ spareRegs, e.reg a = d.reg a
  spbM : e.safe.spbM = d.safe.spbM
  member : e.member = d.member

theorem Spared.refl (d : Dev) : Spared d d := ⟨fun _ _ => rfl, rfl, rfl⟩

theorem Spared.trans (h : Spared d e) (k : Spared e f) : Spared d f :=
  ⟨fun a ha => (k.reg a ha).trans (h.reg a ha), k.spbM.trans h.spbM, k.member.trans h.member⟩

theorem spareRegs_event {a : Nat} (h : a ∈ spareRegs) : eventReg a = false := by
  simp only [spareRegs, List.mem_cons, List.not_mem_nil, or_false] at h
  obtain rfl | rfl | rfl | rfl := h <;> decide

theorem Spared.of_quiet (h : Quiet d e) : Spared d e :=
  ⟨fun _ ha => h.reg (spareRegs_event ha), congrArg SafeSt.spbM h.safe, (congrArg Dev.member h.1 :)⟩

theorem Spared.setReg (d : Dev) (w : Word) (ha : a ∉ spareRegs) : Spared d (d.setReg a w) :=
  ⟨fun _ hx => d.reg_setReg_ne w fun h => ha (h ▸ hx), congrArg SafeSt.spbM (d.setReg_safe a w), rfl⟩

theorem Spared.put (d : Dev) (f : RField) (v : Nat) (ha : a ∉ spareRegs) : Spared d (d.put a f v) := .setReg d _ ha

theorem Spared.putB (d : Dev) (f : RField) (v : Bool) (ha : a ∉ spareRegs) : Spared d (d.putB a f v) := .setReg d _ ha

theorem Spared.replaying (h : Spared d e) : e.replaying = d.replaying := Dev.flag_of_reg (h.reg _ (by simp [spareRegs])) _

theorem Spared.devState (h : Spared d e) : e.devState = d.devState := Dev.get_of_reg (h.reg _ (by simp [spareRegs])) _

/-- Pages of registers other than those. -/
theorem notSpare (h : 0x40031000 ≤ a ∧ a < 0x40060000) : a ∉ spareRegs := fun hm => by
  simp only [spareRegs, List.mem_cons, List.not_mem_nil, or_false, R.RPL_STAT, R.SYS_STATE, R.SAFE_STAT, R.SAFE_CRC_P] at hm
  omega

theorem sysAbs_notSpare : R.SYS_ABSENT_CNT ∉ spareRegs := by decide

/-! ### S1's writes (R381) -/

theorem Spared.of_host {l : List Nat} (h : FrameOn hostPart l d e) (hl : ∀ a ∈ l, a ∉ spareRegs) : Spared d e :=
  ⟨fun _ ha => h.reg hostPart_part (spareRegs_event ha) fun hm => hl _ hm ha, (congrArg (fun x : Dev => x.safe.spbM) h.1 :), (congrArg Dev.member h.1 :)⟩

/-- The registers of a page of Bank B or of the positions. -/
theorem writeRegs_notSpare (h : 0x40031000 ≤ a ∧ a < 0x40060000) : ∀ x ∈ writeRegs a, x ∉ spareRegs := by
  intro x hx
  simp only [writeRegs, List.mem_cons, List.not_mem_nil, or_false] at hx
  obtain rfl | rfl | rfl := hx
  · exact notSpare h
  · refine notSpare ?_
    simp only [R.PG_STAT, pageBase, pageOf]
    omega
  · exact sysAbs_notSpare

theorem Spared.plainWrite (d : Dev) (hb : InBlock a b i) (h : 0x40031000 ≤ a ∧ a < 0x40060000) (mid : Nat) (w : Word) : Spared d (d.plainWrite mid a w) :=
  .of_host ((FrameOn.refl hostPart_part (writeRegs a) d).plainWrite hb (fun _ hx => hx) mid w) (writeRegs_notSpare h)

theorem Spared.absentWrite (d : Dev) (mid page : Nat) : Spared d (d.absentWrite mid page) :=
  .of_host (l := [R.SYS_ABSENT_CNT]) ((FrameOn.refl hostPart_part _ d).absentWrite (by simp) mid page) fun x hx => by
    rw [List.mem_singleton.1 hx]
    exact sysAbs_notSpare

/-- A write of a register of such a page, by what its block makes of it. -/
theorem Spared.pWrite (hlive : d.replaying = false) (hb : InBlock a b i) (mid : Nat) (w : Word)
    (hroute : Spared d (d.routeWrite mid b i (offOf a) a w)) : Spared d (d.pWrite mid a w) :=
  Dev.pWrite_keeps (P := Spared d) hlive hb (fun mid page => .absentWrite d mid page) hroute fun _ _ hq hu => hu.trans (.of_quiet hq)

theorem inBlock_adb (h : 0x40031040 ≤ a ∧ a < 0x40032000) : InBlock a .adbB 0 := by
  have hpage : pageOf a = 0x31 := by simp only [pageOf]; omega
  exact ⟨by rw [hpage]; rfl, by simp only [offOf]; omega, inRegs_iff.2 (by omega)⟩

theorem Spared.sddStop (d : Dev) (hc : c < 64) : Spared d (d.sddStop c) := by
  have h1 : Spared d (d.setSdd c { copies := (d.sddS c).copies }) := ⟨fun _ _ => rfl, rfl, rfl⟩
  exact h1.trans (.putB _ _ _ (notSpare (by simp only [R.ADB_CH_STAT]; omega)))

/-- A register of a Bank B channel. -/
theorem Spared.adbBus (hlive : d.replaying = false) (hc : c < 48) (mid : Nat) (w : Word) :
    Spared d (d.pWrite mid (R.ADB_CH_CFG c) w) ∧ Spared d (d.pWrite mid (R.ADB_CH_OVR c) w) := by
  have hcfg : 0x40031100 ≤ R.ADB_CH_CFG c ∧ R.ADB_CH_CFG c < 0x40032000 := by simp only [R.ADB_CH_CFG]; omega
  have hovr : 0x40031100 ≤ R.ADB_CH_OVR c ∧ R.ADB_CH_OVR c < 0x40032000 := by simp only [R.ADB_CH_OVR]; omega
  have bcfg := inBlock_adb (a := R.ADB_CH_CFG c) (by omega)
  have bovr := inBlock_adb (a := R.ADB_CH_OVR c) (by omega)
  have ocfg : offOf (R.ADB_CH_CFG c) = 0x100 + 0x10 * c := by simp only [R.ADB_CH_CFG, offOf]; omega
  have oovr : offOf (R.ADB_CH_OVR c) = 0x104 + 0x10 * c := by simp only [R.ADB_CH_OVR, offOf]; omega
  refine ⟨.pWrite hlive bcfg mid w ?_, .pWrite hlive bovr mid w ?_⟩
  · have hroute : d.routeWrite mid .adbB 0 (offOf (R.ADB_CH_CFG c)) (R.ADB_CH_CFG c) w = d.adbChWrite mid c w := by
      rw [ocfg, show d.routeWrite mid .adbB 0 (0x100 + 0x10 * c) (R.ADB_CH_CFG c) w = d.adbPageWrite mid (0x100 + 0x10 * c) (R.ADB_CH_CFG c) w from rfl,
        Dev.adbPageWrite, if_neg (by omega), if_pos (by omega), Nat.add_sub_cancel_left, Nat.mul_div_cancel_left _ (by decide)]
    rw [hroute, Dev.adbChWrite]
    have hplain := fun v : Word => Spared.plainWrite d bcfg (by omega) mid v
    have hdeny : ∀ v x, Spared d ((d.plainWrite mid (R.ADB_CH_CFG c) v).denyIf x Pg.ADB) := fun v x => by
      refine (hplain v).trans ?_
      rw [Dev.denyIf]
      exact ite_both (P := Spared _) (fun _ => .putB _ _ _ (by decide)) fun _ => .refl _
    exact ite_both (P := Spared d) (fun _ => (hdeny _ _).trans (.sddStop _ (by omega))) fun _ => hdeny _ _
  · have hroute : d.routeWrite mid .adbB 0 (offOf (R.ADB_CH_OVR c)) (R.ADB_CH_OVR c) w = d.plainWrite mid (R.ADB_CH_OVR c) w := by
      rw [oovr, show d.routeWrite mid .adbB 0 (0x104 + 0x10 * c) (R.ADB_CH_OVR c) w = d.adbPageWrite mid (0x104 + 0x10 * c) (R.ADB_CH_OVR c) w from rfl,
        Dev.adbPageWrite, if_neg (by omega), if_neg (by omega)]
    rw [hroute]
    exact .plainWrite d bovr (by omega) mid w

/-- The registers of a shadow's configuration. -/
def shdAddr (n k : Nat) : Nat := R.SHD_CFG n + 4 * k

theorem inBlock_shd (hn : n < 12) {k : Nat} (hk : k < 5) : InBlock (shdAddr n k) .posB n ∧ offOf (shdAddr n k) = 0xC0 + 4 * k ∧
    0x40031000 ≤ shdAddr n k ∧ shdAddr n k < 0x40060000 := by
  have hpage : pageOf (shdAddr n k) = Pg.POS n := by simp only [shdAddr, R.SHD_CFG, pageOf, Pg.POS]; omega
  have hoff : offOf (shdAddr n k) = 0xC0 + 4 * k := by simp only [shdAddr, R.SHD_CFG, offOf]; omega
  have hinfo : ∀ j < 12, pageInfo (Pg.POS j) = some (.posB, j) := by decide
  have hplace : 0x40031000 ≤ shdAddr n k ∧ shdAddr n k < 0x40060000 := by simp only [shdAddr, R.SHD_CFG]; omega
  exact ⟨⟨by rw [hpage]; exact hinfo n hn, by omega, inRegs_iff.2 (by omega)⟩, hoff, hplace⟩

theorem Spared.posValid (d : Dev) (x : Nat) (v : Bool) : Spared d (d.posValid x v) := by
  refine .putB _ _ _ (notSpare ?_)
  have hx : x % 16 < 16 := Nat.mod_lt _ (by decide)
  rw [posStat, posIfc]
  split
  · simp only [R.SHD_STAT]; omega
  · simp only [R.POS_STAT]; omega

/-- A shadow afresh. -/
theorem Spared.shadowRestart (d : Dev) (hn : n < 12) : Spared d (d.posRestart (16 + n)) := by
  have hsh : isShadow (16 + n) = true := decide_eq_true (by omega)
  have hset : ∀ u : Dev, ∀ v, Spared u (u.setPos (16 + n) v) := fun u v => ⟨fun _ _ => rfl, rfl, rfl⟩
  have hstop : ∀ u : Dev, Spared u ((u.posValid (16 + n) false).putB (posStat (16 + n)) F.POS_STAT_STOPPED true) := fun u => by
    refine (Spared.posValid u _ _).trans (.putB _ _ _ (notSpare ?_))
    have hx : (16 + n) % 16 < 16 := Nat.mod_lt _ (by decide)
    rw [posStat, posIfc, if_pos hsh]
    simp only [R.SHD_STAT]
    omega
  rw [Dev.posRestart]
  dsimp only
  rw [hsh, if_pos rfl]
  refine Spared.trans ?_ (hstop _)
  exact ite_both (P := Spared d) (fun _ => (hset d _).trans (hset _ _)) fun _ => hset d _

/-- A shadow's register written leaves the interface's own mode. -/
theorem posMode_shdFrame {k : Nat} (h : FrameOn hostPart (writeRegs (shdAddr n k)) d e) (hn : n < 12) (hk : k < 5) : e.posMode n = d.posMode n := by
  obtain ⟨-, hoff, hplace⟩ := inBlock_shd hn hk
  have hpage : pageOf (shdAddr n k) = 0x48 + n := by simp only [shdAddr, R.SHD_CFG, pageOf]; omega
  have hreg : ∀ a, eventReg a = false → a ≠ shdAddr n k ∧ a ≠ R.PG_STAT (0x48 + n) ∧ a ≠ R.SYS_ABSENT_CNT → e.reg a = d.reg a := fun a ha hne =>
    h.reg hostPart_part ha (by rw [writeRegs, hpage]; simpa using hne)
  have hcfg := hreg (R.POS_CFG n) (by rw [eventReg_eq_false]; simp only [R.POS_CFG]; omega)
    (by simp only [R.POS_CFG, shdAddr, R.SHD_CFG, R.PG_STAT, pageBase, R.SYS_ABSENT_CNT]; omega)
  have hdbg := hreg R.DBG_CTRL (by decide) (by simp only [R.DBG_CTRL, shdAddr, R.SHD_CFG, R.PG_STAT, pageBase, R.SYS_ABSENT_CNT]; omega)
  have hctrl := hreg (R.PG_CTRL (Pg.POS n)) (eventReg_pgCtrl _)
    (by simp only [R.PG_CTRL, Pg.POS, shdAddr, R.SHD_CFG, R.PG_STAT, pageBase, R.SYS_ABSENT_CNT]; omega)
  have hsh : isShadow n = false := decide_eq_false (by omega)
  have hifc : posIfc n = n := Nat.mod_eq_of_lt (by omega)
  have hmem : e.member = d.member := (congrArg Dev.member h.1 :)
  have hfrozen : e.frozen (Pg.POS n) = d.frozen (Pg.POS n) := by
    rw [Dev.frozen, Dev.frozen, Dev.flag_of_reg hdbg, Dev.flag_of_reg hctrl]
  rw [Dev.posMode, Dev.posMode, hifc, hsh, hmem, hfrozen, Dev.get_of_reg hcfg]
  rfl

theorem Spared.shdBus (hlive : d.replaying = false) (hn : n < 12) {k : Nat} (hk : k < 5) (mid : Nat) (w : Word) : Spared d (d.pWrite mid (shdAddr n k) w) := by
  obtain ⟨hb, hoff, hplace⟩ := inBlock_shd hn hk
  refine .pWrite hlive hb mid w ?_
  have hplain := Spared.plainWrite d hb hplace mid w
  by_cases hk0 : k = 0
  · subst hk0
    rw [hoff, show d.routeWrite mid .posB n (0xC0 + 4 * 0) (shdAddr n 0) w = d.posCfgWrite mid (16 + n) (shdAddr n 0) w from rfl, Dev.posCfgWrite]
    refine ite_both (P := Spared d) (fun _ => hplain.trans (.shadowRestart _ hn)) fun _ => ?_
    exact ite_both (P := Spared d) (fun _ => hplain.trans (.posValid _ _ _)) fun _ => hplain
  · have hroute : d.routeWrite mid .posB n (offOf (shdAddr n k)) (shdAddr n k) w = d.posCfgWrite mid n (shdAddr n k) w := by
      rw [hoff, show d.routeWrite mid .posB n (0xC0 + 4 * k) (shdAddr n k) w = d.posPageWrite mid n (0xC0 + 4 * k) (shdAddr n k) w from rfl,
        Dev.posPageWrite, if_neg (by omega), if_neg (by omega), if_neg (by omega), if_neg (by omega)]
    have hfr := (FrameOn.refl hostPart_part (writeRegs (shdAddr n k)) d).plainWrite hb (fun _ hx => hx) mid w
    have hmode : (d.plainWrite mid (shdAddr n k) w).posMode n = d.posMode n := posMode_shdFrame hfr hn hk
    rw [hroute, Dev.posCfgWrite, hmode, if_neg (fun h => h rfl)]
    exact ite_both (P := Spared d) (fun _ => hplain.trans (.posValid _ _ _)) fun _ => hplain

/-- S1's registers of an entry lie where the member has them. -/
structure EntryPlaced (d : Dev) (m : Nat) : Prop where
  sdd : ∀ c ∈ d.meSdd m, c < nSdd d.member
  shd : d.meShd m ≠ 0x3F → d.meShd m < nPos d.member

/-- The checks have passed: every entry's registers are there. -/
theorem Dev.entryPlaced_checked (h : d.spbFailing = []) (hm : d.meEn m = true) : EntryPlaced d m := by
  have hfive : d.spbFails 5 = false := by
    by_contra hx
    have hmem : 5 ∈ d.spbFailing := List.mem_filter.2 ⟨by decide, by simpa using hx⟩
    rw [h] at hmem
    cases hmem
  have hen : m ∈ entriesThat d.meEn := List.mem_filter.2 ⟨List.mem_range.2 (meEn_lt hm), hm⟩
  simp only [Dev.spbFails, Bool.or_eq_false_iff, List.any_eq_false, Bool.not_eq_true] at hfive
  obtain ⟨h1, h2⟩ := hfive.1 m hen
  refine ⟨fun c hc => ?_, fun hne => ?_⟩
  · have := h1 c hc
    rw [decide_eq_false_iff_not] at this
    omega
  · rw [Bool.and_eq_false_iff, bne_eq_false_iff_eq, decide_eq_false_iff_not] at h2
    obtain h2 | h2 := h2
    · exact absurd h2 hne
    · omega

/-- The registers that S1 writes for an entry. -/
def Dev.entryWrites (d : Dev) (m : Nat) : List Nat :=
  ((d.meSdd m).flatMap fun c => [R.ADB_CH_CFG c, R.ADB_CH_OVR c])
    ++ (if d.meShd m = 0x3F then [] else
      [R.SHD_CFG (d.meShd m), R.SHD_FMT (d.meShd m), R.SHD_GEOM (d.meShd m), R.SHD_OFS (d.meShd m), R.SHD_RES (d.meShd m)])

/-- Each of them is one of a channel or of a shadow. -/
theorem entryWrites_cases (h : EntryPlaced d m) (ha : a ∈ d.entryWrites m) :
    (∃ c < 48, a = R.ADB_CH_CFG c ∨ a = R.ADB_CH_OVR c) ∨ ∃ n < 12, ∃ k < 5, a = shdAddr n k := by
  obtain ha | ha := List.mem_append.1 ha
  · obtain ⟨c, hc, ha⟩ := List.mem_flatMap.1 ha
    simp only [List.mem_cons, List.not_mem_nil, or_false] at ha
    exact .inl ⟨c, (h.sdd c hc).trans_le (nSdd_le _), ha⟩
  · split at ha
    · cases ha
    · next hne =>
      have hn := (h.shd hne).trans_le (nPos_le _)
      simp only [List.mem_cons, List.not_mem_nil, or_false] at ha
      generalize d.meShd m = n at ha hn
      refine .inr ⟨n, hn, ?_⟩
      obtain rfl | rfl | rfl | rfl | rfl := ha
      · exact ⟨0, by decide, rfl⟩
      · exact ⟨1, by decide, by simp only [shdAddr, R.SHD_FMT, R.SHD_CFG]; omega⟩
      · exact ⟨2, by decide, by simp only [shdAddr, R.SHD_GEOM, R.SHD_CFG]; omega⟩
      · exact ⟨3, by decide, by simp only [shdAddr, R.SHD_OFS, R.SHD_CFG]; omega⟩
      · exact ⟨4, by decide, by simp only [shdAddr, R.SHD_RES, R.SHD_CFG]; omega⟩

theorem Dev.s1Writes_eq (d : Dev) : d.s1Writes = ((entriesThat d.meEn).flatMap d.entryWrites).foldl (fun e a =>
    ({ e with free := e.free + 1 } : Dev).pWrite Mid.S1 a (Config.freeWord e.free)) d := rfl

/-- S1's writes leave what tells of the device state and of the block. -/
theorem Spared.s1Writes (hlive : d.replaying = false) (h : ∀ m, d.meEn m = true → EntryPlaced d m) : Spared d d.s1Writes := by
  rw [d.s1Writes_eq]
  refine foldl_keeps (P := Spared d) (fun a ha e he => ?_) (.refl d)
  obtain ⟨m, hm, ha⟩ := List.mem_flatMap.1 ha
  have hfree : Spared e { e with free := e.free + 1 } := ⟨fun _ _ => rfl, rfl, rfl⟩
  have hl : ({ e with free := e.free + 1 } : Dev).replaying = false := hfree.replaying.trans (he.replaying.trans hlive)
  generalize ({ e with free := e.free + 1 } : Dev) = u at hfree hl
  refine (he.trans hfree).trans ?_
  obtain ⟨c, hc, rfl | rfl⟩ | ⟨n, hn, k, hk, rfl⟩ := entryWrites_cases (h m (List.mem_filter.1 hm).2) ha
  · exact (Spared.adbBus hl hc _ _).1
  · exact (Spared.adbBus hl hc _ _).2
  · exact .shdBus hl hn hk _ _

end

end Sys2Proof.Machine
end

section
/-! PROOFS. What the loading of the safety parameter block shows, and the entry into COMMISSION (R381, R382, R428). -/

namespace Sys2Proof.Machine

section
variable {d e f u : Dev} {m : Nat} {bad : List Nat} {l : Sparse Word}

/-! ### The stages of the loading -/

/-- Both channels have their copy. -/
def Dev.spbTaken (d : Dev) (l : Sparse Word) : Dev :=
  let u : Dev := { d with safe := { d.safe with spbP := l, spbM := l, base := some d.gtc, xNext0 := 0, xNext1 := 0 } }
  (u.setReg R.SAFE_CRC_P (spbCrc l)).setReg R.SAFE_CRC_M (spbCrc l)

/-- Every entry begins anew, and the block is loaded. -/
def Dev.spbBegun (d : Dev) : Dev := (forN 20 (fun m e => (e.tmRestart m).tmRelatch m) d).putB R.SAFE_STAT F.SAFE_STAT_SPB_LOADED true

/-- The checks' results. -/
def Dev.spbVerdict (d : Dev) (bad : List Nat) : Dev := (d.putB R.SAFE_STAT F.SAFE_STAT_PAGE_OK (!bad.contains 0x0A)).put R.SAFE_STAT F.SAFE_STAT_SPB_ERR (bad.headD 0)

/-- The monitors that run, the rings and the events. -/
def Dev.spbTold (d : Dev) (bad : List Nat) : Dev :=
  let u := (d.putB R.TMON_STAT F.TMON_STAT_RUN0 ((entriesThat d.meEn).any fun m => d.me m 0 F.ME_CFG_TMON == 0)).putB
    R.TMON_STAT F.TMON_STAT_RUN1 ((entriesThat d.meEn).any fun m => d.me m 0 F.ME_CFG_TMON == 1)
  (bad.foldl (fun x _ => x.raise Pg.SAFE Ev.SPB_ERR) (u.ringReload bad.isEmpty)).raiseIf (bad.contains 0x0A) Pg.SAFE Ev.PAGE_CRC_ERR

/-- S1's writes and the grants. -/
def Dev.spbOpened (d : Dev) (bad : List Nat) : Dev := (if bad.isEmpty then d.s1Writes else d).grantAll

/-- A confirmed block leads to READY. -/
def Dev.spbEnd (d : Dev) (bad : List Nat) (l : Sparse Word) : Dev :=
  if bad.isEmpty && d.spb 0xFF8 == 1 && d.spb 0xFFC == spbCrc l then d.spbPass else d

/-- What follows the checks. -/
def Dev.spbChecked (d : Dev) (bad : List Nat) (l : Sparse Word) : Dev := (((d.spbVerdict bad).spbTold bad).spbOpened bad).spbEnd bad l

theorem Dev.spbLoad_eq (d : Dev) (flash : Memory) : d.spbLoad flash =
    (d.spbTaken (spbPick flash)).spbBegun.spbChecked (d.spbTaken (spbPick flash)).spbBegun.spbFailing (spbPick flash) := rfl

/-! ### What they leave -/

theorem Spared.entry (hm : m < 20) (h : EntryRun m d e) : Spared d e := by
  refine ⟨fun a ha => h.reg (spareRegs_event ha) ?_, h.block.spbM, (congrArg Dev.member h.frame.1 :)⟩
  simp only [spareRegs, List.mem_cons, List.not_mem_nil, or_false] at ha
  simp only [entryRegs, List.mem_cons, List.not_mem_nil, or_false, R.SAFE_TRIP, R.TM_STAT]
  obtain rfl | rfl | rfl | rfl := ha
  · simp only [R.RPL_STAT]; omega
  · simp only [R.SYS_STATE]; omega
  · simp only [R.SAFE_STAT]; omega
  · simp only [R.SAFE_CRC_P]; omega

theorem tm_notSpare (hm : m < 20) : R.TM_STAT m ∉ spareRegs ∧ R.TM_CNT m ∉ spareRegs := by
  simp only [spareRegs, List.mem_cons, List.not_mem_nil, or_false, R.TM_STAT, R.TM_CNT, R.RPL_STAT, R.SYS_STATE, R.SAFE_STAT, R.SAFE_CRC_P]
  omega

theorem Spared.tmRestart (d : Dev) (hm : m < 20) : Spared d (d.tmRestart m) := by
  obtain ⟨hstat, hcnt⟩ := tm_notSpare hm
  have hset : ∀ v, Spared d (d.setTm m v) := fun v => ⟨fun _ _ => rfl, rfl, rfl⟩
  rw [Dev.tmRestart]
  refine Spared.trans ?_ (.entry hm (.showLatch _ hm))
  exact (((((hset _).trans (.setReg _ _ hstat)).trans (.setReg _ _ hcnt)).trans (.put _ _ _ hstat)).trans (.putB _ _ _ hstat))

theorem Spared.tmRelatch (d : Dev) (hm : m < 20) : Spared d (d.tmRelatch m) := by
  have hlatch : ∀ (u : Dev) {cause : Nat} (hc : cause < 16) input, Spared u (u.latchSto m cause input) := fun u _ hc input =>
    .entry hm (u.latchSto_run hm hc input).run
  rw [Dev.tmRelatch]
  refine ite_both (P := Spared d) (fun _ => .refl d) fun _ => ?_
  have h1 : Spared d (if d.flag R.SAFE_STAT F.SAFE_STAT_STO_M_IN && !(d.tmS m).byIn then d.latchSto m 0xB true else d) :=
    ite_both (P := Spared d) (fun _ => hlatch d (by decide) true) fun _ => .refl d
  exact ite_both (P := Spared d) (fun _ => h1.trans (hlatch _ (by decide) false)) fun _ => h1

theorem Spared.tmAnew (d : Dev) : Spared d (forN 20 (fun m e => (e.tmRestart m).tmRelatch m) d) :=
  forN_keeps (P := Spared d) 20 (fun _ hm e he => he.trans ((Spared.tmRestart e hm).trans (.tmRelatch _ hm))) (.refl d)

theorem sfxStat_notSpare : R.SFX_STAT ∉ spareRegs := by decide

/-- A ring's switch closed where the block does not use it. -/
def Dev.switchClosed (d : Dev) (ok b : Bool) : Dev := if ok && d.ringUsed b then d else d.putB (R.RG_STAT (b2n b)) F.RG_STAT_INSERTED false

/-- A node that is no longer inserted. -/
def Dev.ringOut (d : Dev) : Dev := if d.flag (R.RG_STAT 0) F.RG_STAT_INSERTED then d else { d with ring := { d.ring with insA := none } }

/-- RING_OK after a loading. -/
def Dev.ringFollow (d : Dev) (used : Bool) : Dev := if used then d.ringOk else d.putB R.SFX_STAT F.SFX_STAT_RING_OK false

theorem Dev.ringReload_eq (d : Dev) (ok : Bool) : d.ringReload ok =
    ((d.switchClosed ok false).switchClosed ok true).ringOut.ringFollow (((d.switchClosed ok false).switchClosed ok true).ringUsed false ||
      ((d.switchClosed ok false).switchClosed ok true).ringUsed true) := rfl

theorem Spared.switchClosed (d : Dev) (ok b : Bool) : Spared d (d.switchClosed ok b) :=
  ite_both (P := Spared d) (fun _ => .refl d) fun _ => .putB _ _ _ (by cases b <;> decide)

theorem Spared.ringOut (d : Dev) : Spared d d.ringOut :=
  ite_both (P := Spared d) (fun _ => .refl d) fun _ => ⟨fun _ _ => rfl, rfl, rfl⟩

theorem Spared.ringFollow (d : Dev) (used : Bool) : Spared d (d.ringFollow used) :=
  ite_both (P := Spared d) (fun _ => .putB _ _ _ sfxStat_notSpare) fun _ => .putB _ _ _ sfxStat_notSpare

theorem Spared.ringReload (d : Dev) (ok : Bool) : Spared d (d.ringReload ok) := by
  rw [d.ringReload_eq]
  exact (((Spared.switchClosed d ok false).trans (.switchClosed _ ok true)).trans (.ringOut _)).trans (.ringFollow _ _)

theorem tmonStat_notSpare : R.TMON_STAT ∉ spareRegs := by decide

theorem Spared.spbTold (d : Dev) (bad : List Nat) : Spared d (d.spbTold bad) := by
  rw [Dev.spbTold]
  refine Spared.trans ?_ (.of_quiet (Dev.raiseIf_quiet _ _ _ _))
  refine foldl_keeps (P := Spared d) (fun _ _ u hu => hu.trans (.of_quiet (u.raise_quiet _ _))) ?_
  exact ((Spared.putB d _ _ tmonStat_notSpare).trans (.putB _ _ _ tmonStat_notSpare)).trans (.ringReload _ _)

theorem spareRegs_gate {a : Nat} (h : a ∈ spareRegs) : a ∉ gateRegs := by
  simp only [spareRegs, List.mem_cons, List.not_mem_nil, or_false] at h
  obtain rfl | rfl | rfl | rfl := h
  · decide
  · decide
  · decide
  · decide

theorem Spared.grantAll (d : Dev) : Spared d d.grantAll := by
  have hf := d.grantAll_frame
  have hs := d.grantAll_safe
  generalize d.grantAll = e at hf hs
  exact ⟨fun a ha => hf.reg gatePart_part (spareRegs_event ha) (spareRegs_gate ha), congrArg SafeSt.spbM hs, (congrArg Dev.member hf.1 :)⟩

theorem Spared.spbOpened (hlive : d.replaying = false) (h : bad = [] → ∀ m, d.meEn m = true → EntryPlaced d m) : Spared d (d.spbOpened bad) := by
  rw [Dev.spbOpened]
  refine Spared.trans ?_ (.grantAll _)
  exact ite_both (P := Spared d) (fun hb => .s1Writes hlive (h (List.isEmpty_iff.1 hb))) fun _ => .refl d

/-! ### What the loading shows -/

/-- A loaded block, its checksum and its first failing check. -/
structure BlockShown (c : Word) (n : Nat) (e : Dev) : Prop where
  loaded : e.flag R.SAFE_STAT F.SAFE_STAT_SPB_LOADED = true
  err : e.get R.SAFE_STAT F.SAFE_STAT_SPB_ERR = n
  crc : e.reg R.SAFE_CRC_P = c

theorem BlockShown.of_regs {c : Word} {n : Nat} (h : BlockShown c n d) (hs : e.reg R.SAFE_STAT = d.reg R.SAFE_STAT) (hc : e.reg R.SAFE_CRC_P = d.reg R.SAFE_CRC_P) :
    BlockShown c n e := ⟨(Dev.flag_of_reg hs _).trans h.loaded, (Dev.get_of_reg hs _).trans h.err, hc.trans h.crc⟩

theorem BlockShown.spared {c : Word} {n : Nat} (h : BlockShown c n d) (hs : Spared d e) : BlockShown c n e :=
  h.of_regs (hs.reg _ (by simp [spareRegs])) (hs.reg _ (by simp [spareRegs]))

theorem Dev.spbPass_shown {c : Word} {n : Nat} (hlive : d.replaying = false) (h : d.devState = DS.COMMISSION) (hb : BlockShown c n d) :
    BlockShown c n d.spbPass := by
  rw [Dev.spbPass, Dev.goSafe]
  have hl : (d.putB R.SAFE_STAT F.SAFE_STAT_CONFIRMED true).replaying = false := (Dev.flag_of_reg (d.reg_put_ne _ _ (by decide)) _).trans hlive
  have hs : (d.putB R.SAFE_STAT F.SAFE_STAT_CONFIRMED true).devState = DS.COMMISSION := (Dev.get_of_reg (d.reg_put_ne _ _ (by decide)) _).trans h
  have hc : BlockShown c n (d.putB R.SAFE_STAT F.SAFE_STAT_CONFIRMED true) :=
    ⟨(d.flag_put_field _ _ _ (by decide)).trans hb.loaded, (d.get_put_field _ _ _ _ _ (by decide)).trans hb.err, (d.reg_put_ne _ _ (by decide)).trans hb.crc⟩
  generalize d.putB R.SAFE_STAT F.SAFE_STAT_CONFIRMED true = u at hl hs hc
  obtain ⟨-, hr⟩ := Dev.goReady_spec hl hs
  have hv := hc.of_regs (TransRun.read hr (by decide) (by unfold offTrans; decide)) (TransRun.read hr (by decide) (by unfold offTrans; decide))
  exact hv.spared (.grantAll _)

/-- What a loading leads to. -/
structure LoadedAs (c : Word) (e : Dev) : Prop where
  state : e.devState = DS.COMMISSION ∨ e.devState = DS.READY
  loaded : e.flag R.SAFE_STAT F.SAFE_STAT_SPB_LOADED = true
  failing : e.get R.SAFE_STAT F.SAFE_STAT_SPB_ERR ≠ 0 → e.devState = DS.COMMISSION
  crc : e.reg R.SAFE_CRC_P = c

theorem Dev.spbEnd_spec {c : Word} (hlive : d.replaying = false) (h : d.devState = DS.COMMISSION) {n : Nat} (hb : BlockShown c n d) (hn : bad = [] → n = 0)
    (l : Sparse Word) : LoadedAs c (d.spbEnd bad l) := by
  rw [Dev.spbEnd]
  split
  · next hc =>
    rw [Bool.and_eq_true, Bool.and_eq_true] at hc
    have h0 := hn (List.isEmpty_iff.1 hc.1.1)
    have hs := Dev.spbPass_shown hlive h hb
    exact ⟨.inr (Dev.spbPass_spec hlive h).1, hs.loaded, fun he => absurd (hs.err.trans h0) he, hs.crc⟩
  · exact ⟨.inl h, hb.loaded, fun _ => h, hb.crc⟩

theorem Dev.spbVerdict_spec {c : Word} (hl : d.flag R.SAFE_STAT F.SAFE_STAT_SPB_LOADED = true) (hc : d.reg R.SAFE_CRC_P = c) (bad : List Nat) :
    BlockShown c (bad.headD 0 % 2 ^ fieldWidth F.SAFE_STAT_SPB_ERR) (d.spbVerdict bad) := by
  rw [Dev.spbVerdict]
  have h1 : (d.putB R.SAFE_STAT F.SAFE_STAT_PAGE_OK (!bad.contains 0x0A)).flag R.SAFE_STAT F.SAFE_STAT_SPB_LOADED = true :=
    (d.flag_put_field _ _ _ (by decide)).trans hl
  have h2 : (d.putB R.SAFE_STAT F.SAFE_STAT_PAGE_OK (!bad.contains 0x0A)).reg R.SAFE_CRC_P = c := (d.reg_put_ne _ _ (by decide)).trans hc
  generalize d.putB R.SAFE_STAT F.SAFE_STAT_PAGE_OK (!bad.contains 0x0A) = u at h1 h2
  exact ⟨(u.flag_put_field _ _ _ (by decide)).trans h1, u.get_put_self _ _ _ (by decide), (u.reg_put_ne _ _ (by decide)).trans h2⟩

/-- The verdict leaves the device state, a replay and the block itself. -/
theorem Dev.spbVerdict_kept (d : Dev) (bad : List Nat) : (d.spbVerdict bad).replaying = d.replaying ∧ (d.spbVerdict bad).devState = d.devState ∧
    (d.spbVerdict bad).safe.spbM = d.safe.spbM ∧ (d.spbVerdict bad).member = d.member := by
  have hreg : ∀ a, a ≠ R.SAFE_STAT → (d.spbVerdict bad).reg a = d.reg a := fun a ha => by
    rw [Dev.spbVerdict, Dev.reg_put_ne _ _ _ ha, Dev.putB, Dev.reg_put_ne _ _ _ ha]
  refine ⟨Dev.flag_of_reg (hreg _ (by decide)) _, Dev.get_of_reg (hreg _ (by decide)) _, ?_, ?_⟩
  · rw [Dev.spbVerdict, Dev.put_safe, Dev.putB, Dev.put_safe]
  · rfl

theorem EntryPlaced.congr (hs : e.safe.spbM = d.safe.spbM) (hm : e.member = d.member) (h : EntryPlaced d m) : EntryPlaced e m := by
  have hshd : e.meShd m = d.meShd m := me_of hs _ _ _
  have hsdd : e.meSdd m = d.meSdd m := by simp only [Dev.meSdd, me_of hs]
  exact ⟨by rw [hsdd, hm]; exact h.sdd, by rw [hshd, hm]; exact h.shd⟩

theorem Dev.spbChecked_spec {c : Word} (hlive : d.replaying = false) (h : d.devState = DS.COMMISSION)
    (hl : d.flag R.SAFE_STAT F.SAFE_STAT_SPB_LOADED = true) (hc : d.reg R.SAFE_CRC_P = c) (l : Sparse Word) : LoadedAs c (d.spbChecked d.spbFailing l) := by
  have hplaced : d.spbFailing = [] → ∀ m, d.meEn m = true → EntryPlaced d m := fun hb _ hm => Dev.entryPlaced_checked hb hm
  rw [Dev.spbChecked]
  generalize d.spbFailing = bad at hplaced
  have hshown := Dev.spbVerdict_spec hl hc bad
  obtain ⟨hl1, hs1, hspb1, hmem1⟩ := d.spbVerdict_kept bad
  generalize d.spbVerdict bad = u at hshown hl1 hs1 hspb1 hmem1
  have htold := Spared.spbTold u bad
  generalize u.spbTold bad = v at htold
  have hspb : v.safe.spbM = d.safe.spbM := htold.spbM.trans hspb1
  have hmem : v.member = d.member := htold.member.trans hmem1
  have hopen : Spared v (v.spbOpened bad) := .spbOpened (htold.replaying.trans (hl1.trans hlive)) fun hb m hm =>
    (hplaced hb m ((meEn_of hspb m).symm.trans hm)).congr hspb hmem
  have hall := htold.trans hopen
  exact Dev.spbEnd_spec (hall.replaying.trans (hl1.trans hlive)) (hall.devState.trans (hs1.trans h)) (hshown.spared hall) (fun hb => by rw [hb]; rfl) l

/-- The block loaded in COMMISSION. -/
theorem Dev.spbLoad_spec (hlive : d.replaying = false) (h : d.devState = DS.COMMISSION) (flash : Memory) : LoadedAs (spbCrc (spbPick flash)) (d.spbLoad flash) := by
  rw [Dev.spbLoad_eq]
  generalize spbPick flash = l
  have hreg : ∀ a, a ≠ R.SAFE_CRC_P → a ≠ R.SAFE_CRC_M → (d.spbTaken l).reg a = d.reg a := fun a h1 h2 => by
    rw [Dev.spbTaken, Dev.reg_setReg_ne _ _ h2, Dev.reg_setReg_ne _ _ h1]
    rfl
  have hcrc : (d.spbTaken l).reg R.SAFE_CRC_P = spbCrc l := by
    rw [Dev.spbTaken, Dev.reg_setReg_ne _ _ (by decide), Dev.reg_setReg_self]
  have hl0 : (d.spbTaken l).replaying = false := (Dev.flag_of_reg (hreg _ (by decide) (by decide)) _).trans hlive
  have hs0 : (d.spbTaken l).devState = DS.COMMISSION := (Dev.get_of_reg (hreg _ (by decide) (by decide)) _).trans h
  generalize spbCrc l = c at hcrc
  generalize d.spbTaken l = u at hcrc hl0 hs0
  have hnew := Spared.tmAnew u
  have hflag : u.spbBegun.flag R.SAFE_STAT F.SAFE_STAT_SPB_LOADED = true := Dev.flag_putB_self _ _ _ true rfl (by decide)
  have hkept : ∀ a ∈ spareRegs, a ≠ R.SAFE_STAT → u.spbBegun.reg a = u.reg a := fun a ha hne => by
    rw [Dev.spbBegun, Dev.putB, Dev.reg_put_ne _ _ _ hne]
    exact hnew.reg a ha
  have hl1 : u.spbBegun.replaying = false := (Dev.flag_of_reg (hkept _ (by simp [spareRegs]) (by decide)) _).trans hl0
  have hs1 : u.spbBegun.devState = DS.COMMISSION := (Dev.get_of_reg (hkept _ (by simp [spareRegs]) (by decide)) _).trans hs0
  have hc1 : u.spbBegun.reg R.SAFE_CRC_P = c := (hkept _ (by simp [spareRegs]) (by decide)).trans hcrc
  exact Dev.spbChecked_spec hl1 hs1 hflag hc1 l

/-- COMMISSION from CONFIGURE, with the loading. -/
theorem Dev.toCommission_spec (hlive : d.replaying = false) (halone : d.trans.at1 ≠ d.now + 1) (flash : Memory) :
    LoadedAs (spbCrc (spbPick flash)) (d.toCommission flash) := by
  rw [Dev.toCommission]
  have hl : (d.putB R.SAFE_STAT F.SAFE_STAT_CONFIRMED false).replaying = false := (Dev.flag_of_reg (d.reg_put_ne _ _ (by decide)) _).trans hlive
  have ha : (d.putB R.SAFE_STAT F.SAFE_STAT_CONFIRMED false).trans.at1 ≠ (d.putB R.SAFE_STAT F.SAFE_STAT_CONFIRMED false).now + 1 := halone
  generalize d.putB R.SAFE_STAT F.SAFE_STAT_CONFIRMED false = u at hl ha
  have hst := (u.setState_taken (new := DS.COMMISSION) (cause := 0) (by decide) (by decide) false (.inl ha)).state
  have hgo := Dev.goSafe_commission hl 0 false
  have hlv := (TransRun.live (u.setState_run DS.COMMISSION 0 false)).trans hl
  generalize u.setState DS.COMMISSION 0 false = v at hst hgo hlv
  exact Dev.spbLoad_spec (hgo.live hlv) (hgo.state.trans hst) flash

end

end Sys2Proof.Machine
end

section
/-! PROOFS. O49: Garmal's device and safety commands (R364, R365, R381 to R384, R428, R429). -/

namespace Sys2Proof.Machine

section
variable {d e : Dev} {ch n v : Nat} {h a b : Word} {s : State} {l : List Word} {m : Mems}

/-! ### DEV_STATE -/

/-- The answer of a DEV_STATE that is carried out. -/
def stateAnswer (e : Dev) : Ans := ⟨e, ST.OK, [e.reg R.SYS_STATE]⟩

theorem garDevState_commission (h1 : d.devState = DS.CONFIGURE) (h2 : a.toNat = DS.COMMISSION) :
    garDevState d m [a] = (stateAnswer (d.toCommission m.flash), m) := if_pos ⟨h1, h2⟩

theorem garDevState_run (h1 : d.devState = DS.READY) (h2 : a.toNat = DS.RUN) (hok : d.runOk = true) :
    garDevState d m [a] = (stateAnswer (d.goSafe DS.RUN 0 false), m) := by
  have hno : ¬(d.devState = DS.CONFIGURE ∧ (nthD 0 [a] 0).toNat = DS.COMMISSION) := fun hx => absurd (h1.symm.trans hx.1) (by decide)
  rw [garDevState]
  exact (if_neg hno).trans (if_pos ⟨h1, h2, hok⟩)

theorem garDevState_ready (h1 : d.devState = DS.RUN) (h2 : a.toNat = DS.READY) :
    garDevState d m [a] = (stateAnswer (d.goSafe DS.READY 0 false), m) := by
  have hno : ¬(d.devState = DS.CONFIGURE ∧ (nthD 0 [a] 0).toNat = DS.COMMISSION) := fun hx => absurd (h1.symm.trans hx.1) (by decide)
  have hno2 : ¬(d.devState = DS.READY ∧ (nthD 0 [a] 0).toNat = DS.RUN ∧ d.runOk = true) := fun hx => absurd (h1.symm.trans hx.1) (by decide)
  rw [garDevState]
  exact (if_neg hno).trans ((if_neg hno2).trans (if_pos ⟨h1, h2⟩))

theorem garDevState_not (h1 : d.devState ≠ DS.CONFIGURE ∨ a.toNat ≠ DS.COMMISSION) (h2 : d.devState ≠ DS.READY ∨ a.toNat ≠ DS.RUN ∨ d.runOk = false)
    (h3 : d.devState ≠ DS.RUN ∨ a.toNat ≠ DS.READY) : garDevState d m [a] = (⟨d, ST.BAD_STATE, []⟩, m) := by
  have hno : ¬(d.devState = DS.CONFIGURE ∧ (nthD 0 [a] 0).toNat = DS.COMMISSION) := fun hx => h1.elim (· hx.1) (· hx.2)
  have hno2 : ¬(d.devState = DS.READY ∧ (nthD 0 [a] 0).toNat = DS.RUN ∧ d.runOk = true) := fun hx =>
    h2.elim (· hx.1) fun h => h.elim (· hx.2.1) fun h => Bool.false_ne_true (h.symm.trans hx.2.2)
  have hno3 : ¬(d.devState = DS.RUN ∧ (nthD 0 [a] 0).toNat = DS.READY) := fun hx => h3.elim (· hx.1) (· hx.2)
  rw [garDevState]
  exact (if_neg hno).trans ((if_neg hno2).trans (if_neg hno3))

theorem devState_served (ha : s.dev.asks ch 0x03 h) (hargs : s.dev.garArgs ch h = [a]) (hr : garDevState (s.dev.asked ch h) s.mems [a] = (stateAnswer e, s.mems)) :
    exec (.devState ch) s = .next (s.withDev (e.respond ch h ST.OK [e.reg R.SYS_STATE])) := by
  rw [show exec (.devState ch) s = execDevState ch s from rfl, execDevState]
  exact garCmd_served ha hargs rfl rfl hr

/-! ### SPB_WRITE -/

/-- A window given, whoever has held it. -/
theorem Dev.winGiveTo_any (d : Dev) (hn : n < 16) (hv : v ≤ 8) : (d.winGiveTo n v).winOwner n = v ∧ Raised (d.winGiveTo n v) Pg.WIN Ev.WIN_GIVEN ∧
    FrameOn noPart [R.WIN_OWN n, R.WIN_FLAG] d (d.winGiveTo n v) := by
  by_cases ho : v = d.winOwner n
  · have hset : d.winSet n v = d := by
      rw [Dev.winSet]
      exact if_pos ho
    have hq := Dev.raiseN_quiet (d.orReg R.WIN_FLAG (bitWord n)) Pg.WIN Ev.WIN_GIVEN n
    have hf : FrameOn noPart [R.WIN_OWN n, R.WIN_FLAG] d (d.orReg R.WIN_FLAG (bitWord n)) := (FrameOn.refl noPart_part _ d).orReg noPart_part _ (by simp)
    obtain ⟨hne, hev⟩ := winOwn_ne_flag n hn
    rw [Dev.winGiveTo, hset]
    refine ⟨(hq.get hev _).trans ?_, Dev.raiseN_raised _ _ rfl, hf.quiet noPart_part hq⟩
    rw [ho, Dev.get, Dev.reg_orReg, if_neg hne]
    rfl
  · obtain ⟨hf, hnow, -, ht⟩ := Dev.winGiveTo_spec hn hv ho
    exact ⟨hnow.1, ht, hf⟩

/-- What SPB_WRITE makes of the device before it gives the window back. -/
def Dev.spbWritten (d : Dev) (flash : Memory) : Dev :=
  let u := d.putB R.SAFE_STAT F.SAFE_STAT_CONFIRMED false
  let v := if u.devState = DS.READY then u.goSafe DS.COMMISSION 0 false else u.grantAll
  if v.devState = DS.COMMISSION then v.spbLoad flash else v

/-- The block that a window holds. -/
def spbWords (m : Mems) (a b : Word) : List Word := (List.range 1024).map fun k => m.win.readWord (a.toNat * 0x10000 + b.toNat + 4 * k)

theorem garSpbWrite_taken (h1 : a.toNat ≤ 15) (h2 : b.toNat ≤ 0xF000) (h3 : b.toNat % 4 = 0) (ho : d.winOwner a.toNat = Mid.S0) :
    garSpbWrite ch d m [a, b] = (⟨(d.spbWritten (flashCopies m.flash (spbWords m a b))).winGiveTo a.toNat (chanHost ch), ST.OK,
      [crc32cWords ((spbWords m a b).take 1022)]⟩, { m with flash := flashCopies m.flash (spbWords m a b) }) := by
  have hno : ¬(15 < (nthD 0 [a, b] 0).toNat ∨ 0xF000 < (nthD 0 [a, b] 1).toNat ∨ (nthD 0 [a, b] 1).toNat % 4 ≠ 0) := fun hx => by
    change 15 < a.toNat ∨ 0xF000 < b.toNat ∨ b.toNat % 4 ≠ 0 at hx
    omega
  rw [garSpbWrite]
  exact (if_neg hno).trans (if_neg (not_not.2 ho))

theorem garSpbWrite_not (h1 : a.toNat ≤ 15) (h2 : b.toNat ≤ 0xF000) (h3 : b.toNat % 4 = 0) (ho : d.winOwner a.toNat ≠ Mid.S0) :
    garSpbWrite ch d m [a, b] = (⟨d, ST.WIN_ERR, [BitVec.ofNat 32 a.toNat]⟩, m) := by
  have hno : ¬(15 < (nthD 0 [a, b] 0).toNat ∨ 0xF000 < (nthD 0 [a, b] 1).toNat ∨ (nthD 0 [a, b] 1).toNat % 4 ≠ 0) := fun hx => by
    change 15 < a.toNat ∨ 0xF000 < b.toNat ∨ b.toNat % 4 ≠ 0 at hx
    omega
  have hown : d.winOwner (nthD 0 [a, b] 0).toNat ≠ Mid.S0 := ho
  rw [garSpbWrite, if_neg hno, if_pos hown]
  rfl

theorem chanHost_le (ch : Nat) : chanHost ch ≤ 8 := by
  rw [chanHost]
  split <;> decide

/-- In CONFIGURE the block is not loaded: the confirmation alone is gone. -/
theorem Dev.spbWritten_configure (h : d.devState = DS.CONFIGURE) (flash : Memory) : (d.spbWritten flash).devState = DS.CONFIGURE ∧
    (d.spbWritten flash).flag R.SAFE_STAT F.SAFE_STAT_CONFIRMED = false := by
  have hs : (d.putB R.SAFE_STAT F.SAFE_STAT_CONFIRMED false).devState = DS.CONFIGURE := (Dev.get_of_reg (d.reg_put_ne _ _ (by decide)) _).trans h
  have hc := d.flag_putB_self R.SAFE_STAT F.SAFE_STAT_CONFIRMED false rfl (by decide)
  rw [Dev.spbWritten]
  generalize d.putB R.SAFE_STAT F.SAFE_STAT_CONFIRMED false = u at hs hc
  have hk := Spared.grantAll u
  have hst := hk.devState.trans hs
  have hcf := (Dev.flag_of_reg (hk.reg R.SAFE_STAT (by simp [spareRegs])) F.SAFE_STAT_CONFIRMED).trans hc
  have h1 : ¬u.devState = DS.READY := by
    rw [hs]
    decide
  have h2 : ¬u.grantAll.devState = DS.COMMISSION := by
    rw [hst]
    decide
  rw [if_neg h1, if_neg h2]
  exact ⟨hst, hcf⟩

theorem spbWrite_served (ha : s.dev.asks ch 0x30 h) (hargs : s.dev.garArgs ch h = [a, b])
    (hst : (s.dev.asked ch h).devState = DS.CONFIGURE ∨ (s.dev.asked ch h).devState = DS.COMMISSION ∨ (s.dev.asked ch h).devState = DS.READY)
    {r : Ans} (hr : garSpbWrite ch (s.dev.asked ch h) s.mems [a, b] = (r, m)) :
    exec (.spbWrite ch) s = .next { s with dev := r.dev.respond ch h r.st r.args, mems := m } := by
  rw [show exec (.spbWrite ch) s = execSpbWrite ch s from rfl, execSpbWrite]
  refine garCmd_served ha hargs rfl ?_ hr
  rw [Bool.or_eq_true, Bool.or_eq_true, beq_iff_eq, beq_iff_eq, beq_iff_eq, or_assoc]
  exact hst

/-- Both copies are written, the order as the checks of the copies say. -/
theorem flashCopies_both (f : Memory) (ws : List Word) : flashCopies f ws = (f.writeWords spbFlash0 ws).writeWords spbFlash1 ws ∨
    flashCopies f ws = (f.writeWords spbFlash1 ws).writeWords spbFlash0 ws := by
  rw [flashCopies]
  split
  · exact .inr rfl
  · exact .inl rfl

/-! ### S1's commands (R429) -/

theorem takenAt_s1 (d : Dev) : d.takenAt Mid.S1 R.SAFE_ACK = true ∧ d.takenAt Mid.S1 R.SAFE_REQ_STO = true ∧ d.takenAt Mid.S1 R.SAFE_REQ_SS1 = true :=
  ⟨rfl, rfl, rfl⟩

theorem bitOf_and (w x : Word) (i : Nat) : bitOf (w &&& x) i = (bitOf w i && bitOf x i) := by simp [bitOf_eq]

theorem bitOf_not (w : Word) {i : Nat} (hi : i < 32) : bitOf (~~~w) i = !bitOf w i := by simp [bitOf_eq, hi]

/-- A mask of the entries. -/
theorem bitOf_entries (w : Word) {k : Nat} (hk : k < 20) : bitOf (w &&& 0xFFFFF) k = bitOf w k := by
  have hmask : ∀ j < 20, bitOf (0xFFFFF : Word) j = true := by decide
  rw [bitOf_and, hmask k hk, Bool.and_true]

/-- A request register after a command, bit by bit. -/
theorem bitOf_maskedReq (cur a : Word) (l : List Word) {k : Nat} (hk : k < 20) :
    bitOf (maskedReq cur (a :: l)) k = (bitOf a k || (bitOf cur k && !bitOf (nthD 0 l 0) k)) := by
  rw [maskedReq, bitOf_or, bitOf_and, bitOf_not _ (by omega), show nthD 0 (a :: l) 0 &&& (0xFFFFF : Word) = a &&& 0xFFFFF from rfl, bitOf_entries a hk, Bool.or_comm]
  rfl

/-- SAFE_ACK. -/
theorem safeAck_served (ha : s.dev.asks ch 0x40 h) (hargs : s.dev.garArgs ch h = [a])
    (hst : readyRun (s.dev.asked ch h).devState = true ∨ (s.dev.asked ch h).devState = DS.OVERCAST) :
    Responds (exec (.safeAck ch) s) s ch h ST.OK (fun e => [(s.dev.asked ch h).reg R.SAFE_TRIP &&& ~~~ e.reg R.SAFE_TRIP]) fun e =>
      Frame ((s.dev.asked ch h).safePart e) e safeRegs ∧ ∀ m, m < 20 →
        (bitOf a m = false ∨ (s.dev.asked ch h).ackBlocked m = true → e.tripped m = (s.dev.asked ch h).tripped m ∧ e.tmS m = (s.dev.asked ch h).tmS m) ∧
        (bitOf a m = true → (s.dev.asked ch h).ackBlocked m = false → (s.dev.asked ch h).tripped m = true → e.tripped m = false ∧ e.granted m = false ∧
          e.get (R.TM_STAT m) F.TM_STAT_CAUSE = 0) := by
  rw [show exec (.safeAck ch) s = execSafeAck ch s from rfl, execSafeAck]
  obtain ⟨hf, hall⟩ := Dev.safeAck_spec (takenAt_s1 (s.dev.asked ch h)).1 (a &&& 0xFFFFF)
  refine ⟨_, garDev_done ha hargs rfl ?_ rfl, hf, fun m hm => ?_⟩
  · rw [Bool.or_eq_true, beq_iff_eq]
    exact hst
  · obtain ⟨h1, h2⟩ := hall m hm
    rw [bitOf_entries a hm] at h1 h2
    refine ⟨h1, fun hw hb ht => ?_⟩
    obtain ⟨k1, k2, k3, -⟩ := h2 hw hb ht
    exact ⟨k1, k2, k3⟩

/-- SAFE_STO. -/
theorem safeSto_served (ha : s.dev.asks ch 0x41 h) (hargs : s.dev.garArgs ch h = a :: l) (hl : l.length = 1)
    (hst : fromCommission (s.dev.asked ch h).devState = true) :
    Responds (exec (.safeSto ch) s) s ch h ST.OK (fun e => [e.reg R.SAFE_REQ_STO]) fun e => Frame ((s.dev.asked ch h).safePart e) e safeRegs ∧
      ∀ m, m < 20 → bitOf (e.reg R.SAFE_REQ_STO) m = (bitOf a m || (bitOf ((s.dev.asked ch h).reg R.SAFE_REQ_STO) m && !bitOf (nthD 0 l 0) m)) ∧
        (bitOf a m = true → bitOf ((s.dev.asked ch h).reg R.SAFE_REQ_STO) m = false → (s.dev.asked ch h).meEn m = true → Latched (s.dev.asked ch h) e m 0xC) := by
  rw [show exec (.safeSto ch) s = execSafeSto ch s from rfl, execSafeSto]
  obtain ⟨hf, hall⟩ := Dev.safeReqSto_spec (takenAt_s1 (s.dev.asked ch h)).2.1 (maskedReq ((s.dev.asked ch h).reg R.SAFE_REQ_STO) (a :: l))
  refine ⟨_, garDev_done ha hargs (by rw [lenIs, List.length_cons, hl]; rfl) hst rfl, hf, fun m hm => ?_⟩
  obtain ⟨h1, h2, -⟩ := hall m hm
  rw [bitOf_maskedReq _ _ _ hm] at h1 h2
  exact ⟨h1, fun hw h0 hen => (h2 (by rw [hw, Bool.true_or]) h0 hen).1⟩

/-- SAFE_SS1. -/
theorem safeSs1_served (ha : s.dev.asks ch 0x42 h) (hargs : s.dev.garArgs ch h = a :: l) (hl : l.length = 1)
    (hst : (s.dev.asked ch h).devState = DS.RUN ∨ (s.dev.asked ch h).devState = DS.OVERCAST) :
    Responds (exec (.safeSs1 ch) s) s ch h ST.OK (fun e => [e.reg R.SAFE_REQ_SS1]) fun e => Frame ((s.dev.asked ch h).safePart e) e safeRegs ∧
      ∀ m, m < 20 → bitOf (e.reg R.SAFE_REQ_SS1) m = (bitOf a m || (bitOf ((s.dev.asked ch h).reg R.SAFE_REQ_SS1) m && !bitOf (nthD 0 l 0) m)) ∧
        (bitOf a m = true → bitOf ((s.dev.asked ch h).reg R.SAFE_REQ_SS1) m = false → (s.dev.asked ch h).meEn m = true →
          ((s.dev.asked ch h).tmS m).ss1 = none → e.tmS m = { (s.dev.asked ch h).tmS m with ss1 := some ((s.dev.asked ch h).ss1Of m), still := 0 }) := by
  rw [show exec (.safeSs1 ch) s = execSafeSs1 ch s from rfl, execSafeSs1]
  obtain ⟨hf, hall⟩ := Dev.safeReqSs1_spec (takenAt_s1 (s.dev.asked ch h)).2.2 (maskedReq ((s.dev.asked ch h).reg R.SAFE_REQ_SS1) (a :: l))
  refine ⟨_, garDev_done ha hargs (by rw [lenIs, List.length_cons, hl]; rfl) ?_ rfl, hf, fun m hm => ?_⟩
  · rw [Bool.or_eq_true, beq_iff_eq, beq_iff_eq]
    exact hst
  · obtain ⟨h1, h2⟩ := hall m hm
    rw [bitOf_maskedReq _ _ _ hm] at h1 h2
    exact ⟨h1, fun hw h0 hen hn => (h2 (by rw [hw, Bool.true_or]) h0 hen hn).1⟩

/-! ### The whole -/

theorem devState_spec (hlive : s.dev.replaying = false) (hargs : s.dev.garArgs ch h = [a]) (ha : s.dev.asks ch 0x03 h)
    (halone : (s.dev.asked ch h).trans.at1 ≠ (s.dev.asked ch h).now + 1) :
    ((s.dev.asked ch h).devState = DS.CONFIGURE → a.toNat = DS.COMMISSION → Responds (exec (.devState ch) s) s ch h ST.OK (fun e => [e.reg R.SYS_STATE]) fun e =>
      (e.devState = DS.COMMISSION ∨ e.devState = DS.READY) ∧ e.flag R.SAFE_STAT F.SAFE_STAT_SPB_LOADED = true ∧
      (e.get R.SAFE_STAT F.SAFE_STAT_SPB_ERR ≠ 0 → e.devState = DS.COMMISSION) ∧ e.reg R.SAFE_CRC_P = spbCrc (spbPick s.mems.flash)) ∧
    ((s.dev.asked ch h).devState = DS.READY → a.toNat = DS.RUN → (s.dev.asked ch h).runOk = true →
      Responds (exec (.devState ch) s) s ch h ST.OK (fun e => [e.reg R.SYS_STATE]) fun e =>
        e.devState = DS.RUN ∧ e.get R.SYS_STATE F.SYS_STATE_PREV = DS.READY ∧ Raised e Pg.SYS Ev.STATE_CHANGE) ∧
    ((s.dev.asked ch h).devState = DS.RUN → a.toNat = DS.READY → Responds (exec (.devState ch) s) s ch h ST.OK (fun e => [e.reg R.SYS_STATE]) fun e =>
      e.devState = DS.READY ∧ e.get R.SYS_STATE F.SYS_STATE_PREV = DS.RUN ∧ Raised e Pg.SYS Ev.STATE_CHANGE) ∧
    ((s.dev.asked ch h).devState ≠ DS.CONFIGURE ∨ a.toNat ≠ DS.COMMISSION →
      (s.dev.asked ch h).devState ≠ DS.READY ∨ a.toNat ≠ DS.RUN ∨ (s.dev.asked ch h).runOk = false →
      (s.dev.asked ch h).devState ≠ DS.RUN ∨ a.toNat ≠ DS.READY → exec (.devState ch) s = .next (s.withDev ((s.dev.asked ch h).respond ch h ST.BAD_STATE []))) := by
  have hl : (s.dev.asked ch h).replaying = false := ((s.dev.asked_spec ch h).quiet.flag (by decide) _).trans hlive
  refine ⟨fun h1 h2 => ?_, fun h1 h2 hok => ?_, fun h1 h2 => ?_, fun h1 h2 h3 => ?_⟩
  · have hs := Dev.toCommission_spec hl halone s.mems.flash
    exact ⟨_, devState_served ha hargs (garDevState_commission h1 h2), hs.state, hs.loaded, hs.failing, hs.crc⟩
  · have hw := Dev.wentTo (by decide) halone (Dev.goSafe_running hl 0 false)
    exact ⟨_, devState_served ha hargs (garDevState_run h1 h2 hok), hw.state, hw.prev.trans (by rw [h1]; rfl), hw.told⟩
  · have hw := Dev.wentTo (by decide) halone (Dev.goSafe_ready hl 0 false)
    exact ⟨_, devState_served ha hargs (garDevState_ready h1 h2), hw.state, hw.prev.trans (by rw [h1]; rfl), hw.told⟩
  · rw [show exec (.devState ch) s = execDevState ch s from rfl, execDevState]
    exact garCmd_served ha hargs rfl rfl (garDevState_not h1 h2 h3)

theorem spbWrite_spec (hargs : s.dev.garArgs ch h = [a, b]) (ha : s.dev.asks ch 0x30 h)
    (hst : (s.dev.asked ch h).devState = DS.CONFIGURE ∨ (s.dev.asked ch h).devState = DS.COMMISSION ∨ (s.dev.asked ch h).devState = DS.READY)
    (h1 : a.toNat ≤ 15) (h2 : b.toNat ≤ 0xF000) (h3 : b.toNat % 4 = 0) :
    ((s.dev.asked ch h).winOwner a.toNat = Mid.S0 → ∃ e, exec (.spbWrite ch) s = .next { s with
        dev := e.respond ch h ST.OK [crc32cWords ((spbWords s.mems a b).take 1022)]
        mems := { s.mems with flash := flashCopies s.mems.flash (spbWords s.mems a b) } } ∧
      e.winOwner a.toNat = chanHost ch ∧ Raised e Pg.WIN Ev.WIN_GIVEN ∧
      ((s.dev.asked ch h).devState = DS.CONFIGURE → e.devState = (s.dev.asked ch h).devState ∧ e.flag R.SAFE_STAT F.SAFE_STAT_CONFIRMED = false)) ∧
    ((s.dev.asked ch h).winOwner a.toNat ≠ Mid.S0 →
      exec (.spbWrite ch) s = .next (s.withDev ((s.dev.asked ch h).respond ch h ST.WIN_ERR [BitVec.ofNat 32 a.toNat]))) := by
  refine ⟨fun ho => ?_, fun ho => spbWrite_served ha hargs hst (garSpbWrite_not h1 h2 h3 ho)⟩
  have hserved := spbWrite_served ha hargs hst (garSpbWrite_taken h1 h2 h3 ho)
  obtain ⟨hown, htold, hframe⟩ := Dev.winGiveTo_any ((s.dev.asked ch h).spbWritten (flashCopies s.mems.flash (spbWords s.mems a b)))
    (n := a.toNat) (by omega) (chanHost_le ch)
  refine ⟨_, hserved, hown, htold, fun hc => ?_⟩
  obtain ⟨k1, k2⟩ := Dev.spbWritten_configure hc (flashCopies s.mems.flash (spbWords s.mems a b))
  have hreg : ∀ r, eventReg r = false → r < 0x40012000 ∨ 0x40013000 ≤ r → (Dev.winGiveTo ((s.dev.asked ch h).spbWritten (flashCopies s.mems.flash (spbWords s.mems a b)))
      a.toNat (chanHost ch)).reg r = ((s.dev.asked ch h).spbWritten (flashCopies s.mems.flash (spbWords s.mems a b))).reg r := fun r hr hp =>
    hframe.reg noPart_part hr (by simp only [List.mem_cons, List.not_mem_nil, or_false, R.WIN_OWN, R.WIN_FLAG]; omega)
  exact ⟨(Dev.get_of_reg (hreg _ (by decide) (by decide)) _).trans (k1.trans hc.symm), (Dev.flag_of_reg (hreg _ (by decide) (by decide)) _).trans k2⟩

/-- Settles O49: each command by what its table's row checks and by what the served command does. -/
theorem garmalDevice : Obligations.GarmalDevice := by
  intro s ch h a l hlive hh hargs
  refine ⟨fun ha hl halone => ?_, fun b ha hl hst h1 h2 h3 => ?_, fun ha hl hst => ?_, fun ha hl hst => ?_, fun ha hl hst => ?_⟩
  · subst hl
    exact devState_spec hlive.2 hargs ha halone
  · subst hl
    intro ws
    rw [show ws = spbWords s.mems a b from rfl]
    exact ⟨fun f => flashCopies_both f _, spbWrite_spec hargs ha hst h1 h2 h3⟩
  · subst hl
    exact safeAck_served ha hargs hst
  · exact safeSto_served ha hargs hl hst
  · exact safeSs1_served ha hargs hl hst

end

end Sys2Proof.Machine
end

section
/-! PROOFS. What a memory reads after bytes have been laid over it, or after words written by their bytes (R462, R468, R470). -/

namespace Sys2Proof.Machine

section
variable {α : Type} {dflt : α} {l r : Sparse α} {k a : Nat}

/-! ### Stretches put together -/

theorem spGet_append_right (h : ∀ p ∈ l, p.1 ≠ k) : spGet dflt (l ++ r) k = spGet dflt r k := by
  induction l with
  | nil => rfl
  | cons p l ih =>
    rw [List.cons_append, spGet, if_neg (h p List.mem_cons_self)]
    exact ih fun q hq => h q (List.mem_cons_of_mem _ hq)

theorem spGet_absent (h : ∀ p ∈ l, p.1 ≠ k) : spGet dflt l k = dflt := by
  have happ := spGet_append_right (dflt := dflt) (r := []) h
  rwa [List.append_nil] at happ

theorem spGet_append_left (h : ∀ p ∈ r, p.1 ≠ k) : spGet dflt (l ++ r) k = spGet dflt l k := by
  induction l with
  | nil => exact spGet_absent h
  | cons p l ih => rw [List.cons_append, spGet, spGet, ih]

theorem spGet_filter (P : Nat → Bool) (hk : P k = true) : spGet dflt (l.filter fun p => P p.1) k = spGet dflt l k := by
  induction l with
  | nil => rfl
  | cons p l ih =>
    by_cases hp : P p.1 = true
    · rw [List.filter_cons_of_pos (by exact hp), spGet, spGet, ih]
    · have hne : ¬p.1 = k := fun h => hp (h ▸ hk)
      rw [List.filter_cons_of_neg (by exact hp), ih, spGet, if_neg hne]

/-- Every byte of a memory from bytes lies from its start on. -/
theorem memOf_ge (bs : List Byte) (a : Nat) : ∀ p ∈ memOf a bs, a ≤ p.1 := by
  induction bs generalizing a with
  | nil => exact fun p hp => absurd hp List.not_mem_nil
  | cons b bs ih =>
    intro p hp
    rw [memOf] at hp
    split at hp
    · exact (Nat.le_succ a).trans (ih (a + 1) p hp)
    · obtain rfl | hp := List.mem_cons.1 hp
      · exact Nat.le_refl a
      · exact (Nat.le_succ a).trans (ih (a + 1) p hp)

/-- What a memory from bytes reads. -/
theorem read_memOf (bs : List Byte) (a k : Nat) : Memory.read (memOf a bs) k = if a ≤ k ∧ k < a + bs.length then nthD 0 bs (k - a) else 0 := by
  induction bs generalizing a with
  | nil => rw [if_neg (by rw [List.length_nil]; omega)]; rfl
  | cons b bs ih =>
    have hrest : ∀ j, a + 1 ≤ j → nthD 0 (b :: bs) (j - a) = nthD 0 bs (j - (a + 1)) := fun j hj => by
      rw [show j - a = j - (a + 1) + 1 by omega, nthD]
    rw [List.length_cons]
    by_cases hka : k = a
    · subst hka
      rw [if_pos (by omega), Nat.sub_self, nthD, memOf]
      split
      · next hb =>
        rw [hb]
        exact spGet_absent fun p hp => by have := memOf_ge bs (k + 1) p hp; omega
      · exact if_pos rfl
    · have hread : Memory.read (memOf a (b :: bs)) k = Memory.read (memOf (a + 1) bs) k := by
        rw [memOf]
        split
        · rfl
        · exact if_neg (Ne.symm hka)
      rw [hread, ih]
      by_cases hin : a + 1 ≤ k ∧ k < a + 1 + bs.length
      · rw [if_pos hin, if_pos (by omega), hrest k hin.1]
      · rw [if_neg hin, if_neg (by omega)]

/-- What a memory reads after bytes have been laid over a stretch of it. -/
theorem read_blit (m : Memory) (a : Nat) (bs : List Byte) (k : Nat) :
    Memory.read (blit m a bs) k = if a ≤ k ∧ k < a + bs.length then nthD 0 bs (k - a) else m.read k := by
  have hlow : ∀ p ∈ m.filter (fun (c : Nat × Byte) => decide (c.1 < a)), p.1 < a := fun p hp => of_decide_eq_true (List.mem_filter.1 hp).2
  have hhigh : ∀ p ∈ m.filter (fun (c : Nat × Byte) => decide (a + bs.length ≤ c.1)), a + bs.length ≤ p.1 := fun p hp =>
    of_decide_eq_true (List.mem_filter.1 hp).2
  rw [Memory.read, blit]
  by_cases h1 : k < a
  · rw [if_neg (by omega), List.append_assoc, spGet_append_left fun p hp => ?_]
    · exact spGet_filter (fun x => decide (x < a)) (decide_eq_true h1)
    · obtain hp | hp := List.mem_append.1 hp
      · have := memOf_ge bs a p hp; omega
      · have := hhigh p hp; omega
  · rw [List.append_assoc, spGet_append_right fun p hp => by have := hlow p hp; omega]
    by_cases h2 : k < a + bs.length
    · rw [if_pos (by omega), spGet_append_left fun p hp => by have := hhigh p hp; omega]
      exact (read_memOf bs a k).trans (if_pos ⟨by omega, h2⟩)
    · rw [if_neg (by omega), spGet_append_right fun p hp => by have := memOf_keys bs a p hp; omega]
      exact spGet_filter (fun x => decide (a + bs.length ≤ x)) (decide_eq_true (by omega))

end

/-! ### Words by their bytes -/

section
variable {m : Memory} {ws : List Word} {a k n : Nat}

theorem Memory.writeBytes_append (bs cs : List Byte) (m : Memory) (a : Nat) : m.writeBytes a (bs ++ cs) = (m.writeBytes a bs).writeBytes (a + bs.length) cs := by
  induction bs generalizing m a with
  | nil => rfl
  | cons b bs ih =>
    rw [List.cons_append, Memory.writeBytes, Memory.writeBytes, ih, List.length_cons]
    congr 1
    omega

/-- Words written are their bytes written. -/
theorem Memory.writeBytes_words (ws : List Word) (m : Memory) (a : Nat) : m.writeBytes a (ws.flatMap bytesOfWord) = m.writeWords a ws := by
  induction ws generalizing m a with
  | nil => rfl
  | cons w ws ih =>
    rw [List.flatMap_cons, Memory.writeBytes_append, ih]
    rfl

theorem nthD_append_left {α : Type} (x : α) {l m : List α} {k : Nat} (h : k < l.length) : nthD x (l ++ m) k = nthD x l k := by
  induction l generalizing k with
  | nil => exact absurd h (Nat.not_lt_zero k)
  | cons y l ih =>
    cases k with
    | zero => rfl
    | succ k => exact ih (Nat.lt_of_succ_lt_succ h)

theorem nthD_append_right {α : Type} (x : α) (l m : List α) (k : Nat) : nthD x (l ++ m) (l.length + k) = nthD x m k := by
  induction l with
  | nil => rw [List.nil_append, List.length_nil, Nat.zero_add]
  | cons y l ih =>
    rw [List.length_cons, Nat.add_right_comm]
    exact ih

/-- A word among blocks of one length. -/
theorem nthD_blocks {α : Type} (x : α) (f : Nat → List α) {len : Nat} (hlen : ∀ i, (f i).length = len) {n i k : Nat} (hi : i < n) (hk : k < len) :
    nthD x ((List.range n).flatMap f) (len * i + k) = nthD x (f i) k := by
  have hall : ∀ n, ((List.range n).flatMap f).length = len * n := fun n => by
    induction n with
    | zero => rfl
    | succ n ih => rw [List.range_succ, List.flatMap_append, List.length_append, ih, List.flatMap_singleton, hlen, Nat.mul_succ]
  induction n with
  | zero => exact absurd hi (Nat.not_lt_zero i)
  | succ n ih =>
    rw [List.range_succ, List.flatMap_append, List.flatMap_singleton]
    by_cases hin : i < n
    · have hle : len * (i + 1) ≤ len * n := Nat.mul_le_mul_left len hin
      rw [Nat.mul_succ] at hle
      rw [nthD_append_left x (by rw [hall]; omega), ih hin]
    · have hie : i = n := by omega
      rw [hie, ← hall n, nthD_append_right]

/-- Bytes read back one by one. -/
theorem Memory.read_writeBytes_in (bs : List Byte) (m : Memory) (a : Nat) {x : Nat} (hx : x < bs.length) : (m.writeBytes a bs).read (a + x) = nthD 0 bs x := by
  rw [Memory.read_writeBytes, if_pos (by omega), Nat.add_sub_cancel_left]

end

end Sys2Proof.Machine
end

section
/-! PROOFS. Raisings and records leave the copies under way (R462, R476). -/

namespace Sys2Proof.Machine

/-- The copies under way stand. -/
def SameJobs (d e : Dev) : Prop := e.hamper.jobs = d.hamper.jobs

section
variable {d e f : Dev}

theorem SameJobs.refl (d : Dev) : SameJobs d d := rfl

theorem SameJobs.trans (h : SameJobs d e) (k : SameJobs e f) : SameJobs d f := Eq.trans k h

theorem SameJobs.ite (c : Prop) [Decidable c] (h : c → SameJobs d e) (k : ¬c → SameJobs d f) : SameJobs d (if c then e else f) := by
  by_cases hc : c
  · rw [if_pos hc]
    exact h hc
  · rw [if_neg hc]
    exact k hc

theorem sameJobs_foldl {α : Type} (l : List α) (g : Dev → α → Dev) (h : ∀ d x, SameJobs d (g d x)) (d : Dev) : SameJobs d (l.foldl g d) := by
  induction l generalizing d with
  | nil => exact .refl d
  | cons x l ih => exact (h d x).trans (ih _)

end

/-! ### The raising of a raw bit -/

theorem Dev.msiRaise_jobs (d : Dev) (v : Nat) : SameJobs d (d.msiRaise v) :=
  .ite _ (fun _ => .refl d) fun _ => .ite _ (fun _ => rfl) fun _ => rfl

theorem Dev.vecS0_jobs (d : Dev) (a : Nat) : SameJobs d (d.vecS0 a) := .ite _ (fun _ => rfl) fun _ => .refl d

theorem Dev.vecS1_jobs (d : Dev) (a : Nat) : SameJobs d (d.vecS1 a) := .ite _ (fun _ => rfl) fun _ => .refl d

theorem Dev.toMsi_jobs (d : Dev) (a : Nat) : SameJobs d (d.toMsi a) := .ite _ (fun _ => d.msiRaise_jobs _) fun _ => .refl d

theorem Dev.toOut_jobs (d : Dev) (a : Nat) : SameJobs d (d.toOut a) := .ite _ (fun _ => rfl) fun _ => .refl d

theorem Dev.deliver_jobs (d : Dev) (page src : Nat) : SameJobs d (d.deliver page src) := by
  have h := (d.vecS0_jobs (R.EVT_RTE src)).trans (Dev.vecS1_jobs _ (R.EVT_RTE src))
  exact .ite _ (fun _ => h.trans ((Dev.toMsi_jobs _ _).trans (Dev.toOut_jobs _ _))) fun _ => h

theorem Dev.noteLast_jobs (d : Dev) (src : Nat) : SameJobs d (d.noteLast src) := .ite _ (fun _ => .refl d) fun _ => rfl

theorem Dev.raise0_jobs (d : Dev) (page src : Nat) : SameJobs d (d.raise0 page src) := by
  refine .ite _ (fun _ => ?_) fun _ => .refl d
  exact (show SameJobs d (d.orReg _ _) from rfl).trans ((Dev.noteLast_jobs _ src).trans
    (SameJobs.trans (e := Dev.noteRaising _ page src) rfl (Dev.deliver_jobs _ page src)))

/-! ### Records and triggers -/

theorem Dev.emit0_jobs (d : Dev) (r : RecRec) : SameJobs d (d.emit0 r).1 := by
  rw [Dev.emit0]
  split
  · exact .refl d
  · split
    · rfl
    · split <;> rfl

theorem Dev.trigLower_jobs (d : Dev) (src : Nat) : SameJobs d (d.trigLower src) := rfl

theorem Dev.trigMore_jobs (d : Dev) (src : Nat) : SameJobs d (d.trigMore src) :=
  .ite _ (fun _ => .ite _ (fun _ => d.trigLower_jobs src) fun _ => .refl d) fun _ => .ite _ (fun _ => rfl) fun _ => .refl d

theorem Dev.raisePost_jobs (d : Dev) (src : Nat) : SameJobs d (d.raisePost src) :=
  .ite _ (fun _ => (d.raise0_jobs _ _).trans (Dev.trigMore_jobs _ _)) fun _ => d.raise0_jobs _ _

theorem Dev.lossIf_jobs (d : Dev) (lost : Bool) : SameJobs d (d.lossIf lost) := .ite _ (fun _ => d.raisePost_jobs _) fun _ => .refl d

theorem Dev.trigPost_jobs (d : Dev) (src : Nat) : SameJobs d (d.trigPost src) := rfl

theorem Dev.trigger_jobs (d : Dev) (src : Nat) : SameJobs d (d.trigger src) := by
  rw [Dev.trigger]
  refine .ite _ (fun _ => ?_) fun _ => d.trigMore_jobs src
  exact (Dev.emit0_jobs d _).trans ((Dev.trigPost_jobs _ _).trans ((Dev.raisePost_jobs _ _).trans (Dev.lossIf_jobs _ _)))

theorem Dev.raiseR_jobs (d : Dev) (page src : Nat) : SameJobs d (d.raiseR page src) :=
  .ite _ (fun _ => .ite _ (fun _ => (d.raise0_jobs page src).trans (Dev.trigger_jobs _ _)) fun _ => d.raise0_jobs page src) fun _ => .refl d

theorem Dev.reproduce_jobs (d : Dev) (r : RecRec) : SameJobs d (d.reproduce r) := .ite _ (fun _ => rfl) fun _ => .refl d

theorem Dev.emit_jobs (d : Dev) (r : RecRec) : SameJobs d (d.emit r) :=
  SameJobs.trans (.ite _ (fun _ => (d.emit0_jobs r).trans (Dev.raiseR_jobs _ _ _)) fun _ => d.emit0_jobs r) (Dev.reproduce_jobs _ r)

/-! ### Messages and notifications -/

theorem Dev.mbxRecord_jobs (d : Dev) (c side : Nat) (w : Word) : SameJobs d (d.mbxRecord c side w) :=
  .ite _ (fun _ => Dev.emit_jobs d _) fun _ => .refl d

theorem Dev.setMbx_jobs (d : Dev) (c : Nat) (q : MbxSt) : SameJobs d (d.setMbx c q) := rfl

theorem Dev.setCyc_jobs (d : Dev) (v : CycSt) : SameJobs d (d.setCyc v) := rfl

theorem Dev.orReg_jobs (d : Dev) (a : Nat) (w : Word) : SameJobs d (d.orReg a w) := rfl

theorem Dev.mbxSend_jobs (d : Dev) (c side : Nat) (w : Word) : SameJobs d (d.mbxSend c side w) := by
  unfold Dev.mbxSend
  have r := d.mbxRecord_jobs c side w
  generalize d.mbxRecord c side w = e at r ⊢
  have h := fun v => r.trans (e.setCyc_jobs v)
  dsimp only
  split
  · exact (h _).trans ((Dev.setMbx_jobs (e.setCyc _) _ _).trans ((Dev.orReg_jobs _ _ _).trans (Dev.raiseR_jobs _ _ _)))
  · split
    · exact (h _).trans ((Dev.setMbx_jobs (e.setCyc _) _ _).trans (Dev.raiseR_jobs _ _ _))
    · exact (h _).trans (Dev.setMbx_jobs (e.setCyc _) _ _)

theorem Dev.mbxSendAll_jobs (ws : List Word) (d : Dev) (c side : Nat) : SameJobs d (d.mbxSendAll c side ws) := by
  induction ws generalizing d with
  | nil => exact .refl d
  | cons w ws ih => exact (Dev.mbxSend_jobs d c side w).trans (ih _)

theorem Dev.notifyOn_jobs (d : Dev) (src arg0 c : Nat) : SameJobs d (d.notifyOn src arg0 c) := by
  unfold Dev.notifyOn
  refine .ite _ (fun _ => .refl d) fun _ => .ite _ (fun _ => ?_) fun _ => ?_
  · exact SameJobs.trans (e := d.setGar c _) rfl (Dev.raiseR_jobs _ _ _)
  · exact SameJobs.trans (e := d.setGar c _) rfl (Dev.mbxSendAll_jobs _ _ _ _)

theorem Dev.raiseN_jobs (d : Dev) (page src arg0 : Nat) : SameJobs d (d.raiseN page src arg0) :=
  .ite _ (fun _ => (Dev.raiseR_jobs d page src).trans (sameJobs_foldl _ _ (fun e c => Dev.notifyOn_jobs e src arg0 c) _)) fun _ => .refl d

theorem Dev.raise_jobs (d : Dev) (page src : Nat) : SameJobs d (d.raise page src) := d.raiseN_jobs page src 0xFF

end Sys2Proof.Machine
end

section
/-! PROOFS. Copies asked for, and the dump released (R462, R471). -/

namespace Sys2Proof.Machine

section
variable {d e : Dev} {mid a : Nat} {b : Block} {i off : Nat} {w : Word} {cnt : RField} {x y : Nat}

/-! ### The registers of the copies -/

/-- The fields of a copy's register. -/
def jobFields (cnt : RField) : List FieldDef :=
  [⟨F.REC_EXP_GO, .wo, 0⟩, ⟨F.REC_EXP_BUSY, .ro, 0⟩, ⟨F.REC_EXP_RESULT, .ro, 0⟩, ⟨cnt, .rw, 0⟩, ⟨F.REC_EXP_WIN, .rw, 0⟩]

/-- A bit of command that is 1 leaves the other fields of a word. -/
theorem getF_or_mask (v : Word) {f g : RField} (h : f.lo + fieldWidth f ≤ g.lo ∨ g.lo + fieldWidth g ≤ f.lo) :
    getF (v ||| fieldMask g) f = getF v f := getF_congr fun k hlo hhi => by
  by_cases hk : k < 32
  · rw [BitVec.getLsbD_or, fieldMask_bit g k hk]
    have hout : ¬(g.lo ≤ k ∧ k - g.lo < fieldWidth g) := by
      unfold fieldWidth at h ⊢
      omega
    rw [← Bool.decide_and, decide_eq_false hout, Bool.or_false]
  · rw [BitVec.getLsbD_of_ge _ _ (by omega), BitVec.getLsbD_of_ge _ _ (by omega)]

/-- Command bits and writable fields are accepted alike. -/
theorem Dev.fieldOk_host {page : Nat} {fd gd : FieldDef} (hf : chanMOnly b off fd.f = false) (hg : chanMOnly b off gd.f = false)
    (hfa : fd.acc = .wo ∨ fd.acc = .rw) (hga : gd.acc = .wo ∨ gd.acc = .rw) (hok : d.fieldOk mid b i page off fd = true) :
    d.fieldOk mid b i page off gd = true := by
  have heq : d.fieldOk mid b i page off gd = d.fieldOk mid b i page off fd := by
    rw [Dev.fieldOk, Dev.fieldOk, hf, hg]
    obtain hfa | hfa := hfa <;> obtain hga | hga := hga <;> rw [hfa, hga]
  exact heq.trans hok

/-- What a taken write makes of a copy's register: WIN and the number as written, BUSY as it stands. -/
theorem Dev.jobWrite_plain (h : Placed d a b i off) (hin : inRegs a = true) (hcnt : cnt.lo + fieldWidth cnt ≤ 32) (hapart : fieldsApart (jobFields cnt) = true)
    {rd : RegDef} (hr : regAt b off = some (rd, x, y)) (hl : rd.flds = jobFields cnt) (hm : ∀ f : RField, chanMOnly b off f = false)
    (ht : d.takenAt mid a = true) (hw : w &&& absentBits d.member b i off = 0) : ∃ v, d.plainWrite mid a w = d.setReg a v ∧
      getF v F.REC_EXP_WIN = getF w F.REC_EXP_WIN ∧ getF v cnt = getF w cnt ∧ getF v F.REC_EXP_BUSY = getF (d.reg a) F.REC_EXP_BUSY := by
  have htaken : d.writeTaken mid b i (pageOf a) off = true := by
    rw [Dev.takenAt, h.info, h.offset] at ht
    simp only [Bool.and_eq_true] at ht
    exact ht.2
  rw [Dev.writeTaken, hr] at htaken
  obtain ⟨fd, hfd, hok⟩ := List.any_eq_true.1 htaken
  have hkind : ∀ g ∈ rd.flds, g.acc = .ro ∨ g.acc = .wo ∨ g.acc = .rw := by
    rw [hl]
    simp [jobFields]
  have hacc : fd.acc = .wo ∨ fd.acc = .rw := by
    refine (hkind fd hfd).resolve_left fun hro => ?_
    rw [Dev.fieldOk, hm, if_neg Bool.false_ne_true, hro] at hok
    cases hok
  have hall : ∀ g ∈ rd.flds, g.acc = .ro ∨ d.fieldOk mid b i (pageOf a) off g = true := fun g hg =>
    (hkind g hg).imp_right fun hga => Dev.fieldOk_host (hm _) (hm _) hacc hga hok
  have happly : d.plainWrite mid a w = d.setReg a (takeAll rd.flds w (d.reg a)) := by
    rw [d.plainWrite_placed h hr mid hw, Dev.writeFields, h.address hin, writeRefused_taken hall htaken, applyFields_taken hall]
    rfl
  refine ⟨_, happly, ?_, ?_, ?_⟩ <;> rw [hl, takeAll]
  · exact getF_applyFields_taken (fd := ⟨F.REC_EXP_WIN, .rw, 0⟩) hapart (by simp [jobFields]) (.inl rfl) rfl (by decide)
  · exact getF_applyFields_taken (fd := ⟨cnt, .rw, 0⟩) hapart (by simp [jobFields]) (.inl rfl) rfl hcnt
  · exact getF_applyFields_kept (fd := ⟨F.REC_EXP_BUSY, .ro, 0⟩) hapart (by simp [jobFields]) rfl

end

section
variable {s : State} {d u : Dev} {mid : Nat} {v : Word}

/-- The register of a copy, written: WIN and the number are there, BUSY stands. -/
def JobWritten (d : Dev) (mid a : Nat) (cnt : RField) (v : Word) : Prop :=
  ∃ x, d.plainWrite mid a (v ||| fieldMask F.REC_EXP_GO) = d.setReg a x ∧ getF x F.REC_EXP_WIN = getF v F.REC_EXP_WIN ∧
    getF x cnt = getF v cnt ∧ getF x F.REC_EXP_BUSY = getF (d.reg a) F.REC_EXP_BUSY

theorem JobWritten.of_taken {a : Nat} {b : Block} {off : Nat} {cnt : RField} (h : Placed d a b 0 off) (hin : inRegs a = true)
    (hcnt : cnt.lo + fieldWidth cnt ≤ 31) (hapart : fieldsApart (jobFields cnt) = true) {rd : RegDef} {x y : Nat}
    (hr : regAt b off = some (rd, x, y)) (hl : rd.flds = jobFields cnt) (hm : ∀ f : RField, chanMOnly b off f = false)
    (habs : absentBits d.member b 0 off = 0) (ht : d.takenAt mid a = true) : JobWritten d mid a cnt v := by
  obtain ⟨z, heq, hwin, hn, hbusy⟩ := Dev.jobWrite_plain h hin (by omega) hapart hr hl hm ht (w := v ||| fieldMask F.REC_EXP_GO)
    (by rw [habs]; exact BitVec.and_zero)
  exact ⟨z, heq, hwin.trans (getF_or_mask v (by decide)), hn.trans (getF_or_mask v (.inl hcnt)), hbusy⟩

theorem recExp_written (ht : d.takenAt mid R.REC_EXP = true) (v : Word) : JobWritten d mid R.REC_EXP F.REC_EXP_CNT v :=
  JobWritten.of_taken (b := .recB) (off := 0x64) ⟨rfl, rfl, rfl, rfl, by decide⟩ rfl (by decide) (by decide) (rd := ⟨0x64, 0, 1, 0, 1, jobFields F.REC_EXP_CNT⟩)
    (x := 0) (y := 0) rfl rfl (fun _ => rfl) rfl ht

theorem rplLoad_written (ht : d.takenAt mid R.RPL_LOAD = true) (v : Word) : JobWritten d mid R.RPL_LOAD F.RPL_LOAD_CNT v :=
  JobWritten.of_taken (b := .rplB) (off := 0x6C) ⟨rfl, rfl, rfl, rfl, by decide⟩ rfl (by decide) (by decide) (rd := ⟨0x6C, 0, 1, 0, 1, jobFields F.RPL_LOAD_CNT⟩)
    (x := 0) (y := 0) rfl rfl (fun _ => rfl) rfl ht

theorem dmpExp_written (ht : d.takenAt mid R.DMP_EXP = true) (v : Word) : JobWritten d mid R.DMP_EXP F.DMP_EXP_CHUNK v :=
  JobWritten.of_taken (b := .dmpB) (off := 0x48) ⟨rfl, rfl, rfl, rfl, by decide⟩ rfl (by decide) (by decide) (rd := ⟨0x48, 0, 1, 0, 1, jobFields F.DMP_EXP_CHUNK⟩)
    (x := 0) (y := 0) rfl rfl (fun _ => rfl) rfl ht

/-! ### Begun or refused -/

theorem jobReg_plain (k : Nat) : eventReg (jobReg k) = false := by
  rw [jobReg]
  split
  · decide
  · split <;> decide

/-- A copy begun: its register is busy, and it waits behind the others. -/
def JobBegun (d e : Dev) (j : JobSt) : Prop :=
  Frame d e [jobReg j.kind] ∧ e.flag (jobReg j.kind) F.REC_EXP_BUSY = true ∧ e.get (jobReg j.kind) F.REC_EXP_RESULT = 0 ∧
    e.hamper.jobs = d.hamper.jobs ++ [j]

/-- A copy refused with a reason. -/
def JobRefused (d e : Dev) (k res : Nat) : Prop :=
  Frame d e [jobReg k] ∧ e.flag (jobReg k) F.REC_EXP_BUSY = false ∧ e.get (jobReg k) F.REC_EXP_RESULT = res ∧ e.hamper.jobs = d.hamper.jobs ∧
    Raised e Pg.REC Ev.REC_EXP_ERR

theorem Dev.jobStart_spec (h : Frame d u [jobReg j.kind]) (hj : SameJobs d u) : JobBegun d (u.jobStart j) j := by
  refine ⟨?_, ?_, Dev.get_put_self (u.putB (jobReg j.kind) F.REC_EXP_BUSY true) (jobReg j.kind) F.REC_EXP_RESULT 0 (by decide), congrArg (· ++ [j]) hj⟩
  · have hput := (FrameOn.putB noPart_part h F.REC_EXP_BUSY true (List.mem_singleton_self _)).put noPart_part F.REC_EXP_RESULT 0 (List.mem_singleton_self _)
    exact hput.part noPart_part rfl fun _ => rfl
  · exact (Dev.flag_put_field (u.putB (jobReg j.kind) F.REC_EXP_BUSY true) (jobReg j.kind) (jobReg j.kind) (f := F.REC_EXP_RESULT) 0 (by decide)).trans
      (Dev.flag_putB_self u (jobReg j.kind) _ true rfl (by decide))

theorem Dev.jobResult_spec (d : Dev) (k : Nat) {res : Nat} (hres : res < 4) :
    (d.jobResult k res).flag (jobReg k) F.REC_EXP_BUSY = false ∧ (d.jobResult k res).get (jobReg k) F.REC_EXP_RESULT = res :=
  ⟨(Dev.flag_put_field _ _ _ _ (by decide)).trans (Dev.flag_putB_self _ _ _ false rfl (by decide)),
    (Dev.get_put_self _ _ _ _ (by decide)).trans (Nat.mod_eq_of_lt hres)⟩

theorem Dev.jobRefuse_spec {k res : Nat} (h : Frame d u [jobReg k]) (hj : SameJobs d u) (hres : res < 4) : JobRefused d (u.jobRefuse k res) k res := by
  obtain ⟨hbusy, hr⟩ := u.jobResult_spec k hres
  have hput : Frame d (u.jobResult k res) [jobReg k] :=
    (FrameOn.putB noPart_part h F.REC_EXP_BUSY false (List.mem_singleton_self _)).put noPart_part F.REC_EXP_RESULT res (List.mem_singleton_self _)
  have hjobs : SameJobs d (u.jobResult k res) := hj
  rw [Dev.jobRefuse]
  generalize u.jobResult k res = q at hbusy hr hput hjobs
  have hq := q.raise_quiet Pg.REC Ev.REC_EXP_ERR
  exact ⟨FrameOn.quiet noPart_part hput hq, (hq.flag (jobReg_plain k) _).trans hbusy, (hq.get (jobReg_plain k) _).trans hr,
    hjobs.trans (q.raise_jobs _ _), q.raise_raised rfl⟩

/-- What a copy asked for comes to. -/
theorem Dev.jobAsk_spec {j : JobSt} {held : Bool} (h : Frame d u [jobReg j.kind]) (hj : SameJobs d u) (hown : u.winOwner j.win = d.winOwner j.win) :
    (d.winOwner j.win = Mid.DMA → held = true → JobBegun d (u.jobAsk j held) j) ∧
    (d.winOwner j.win = Mid.DMA → held = false → JobRefused d (u.jobAsk j held) j.kind 2) ∧
    (d.winOwner j.win ≠ Mid.DMA → JobRefused d (u.jobAsk j held) j.kind 3) := by
  rw [Dev.jobAsk, hown]
  refine ⟨fun hw hh => ?_, fun hw hh => ?_, fun hw => ?_⟩
  · rw [if_neg (not_not.2 hw), hh]
    exact Dev.jobStart_spec h hj
  · rw [if_neg (not_not.2 hw), hh]
    exact Dev.jobRefuse_spec h hj (by decide)
  · rw [if_pos hw]
    exact Dev.jobRefuse_spec h hj (by decide)

/-! ### The three requests -/

theorem bitOf_go (v : Word) : bitOf (v ||| fieldMask F.REC_EXP_GO) 31 = true := by
  rw [bitOf_or, show bitOf (fieldMask F.REC_EXP_GO) 31 = true by decide, Bool.or_true]

/-- A copy's register as the write leaves it. -/
theorem Dev.setReg_job {a : Nat} {cnt : RField} {x : Word} (hwin : getF x F.REC_EXP_WIN = getF v F.REC_EXP_WIN) (hn : getF x cnt = getF v cnt)
    (hbusy : getF x F.REC_EXP_BUSY = getF (d.reg a) F.REC_EXP_BUSY) : (d.setReg a x).get a F.REC_EXP_WIN = getF v F.REC_EXP_WIN ∧
    (d.setReg a x).get a cnt = getF v cnt ∧ (d.setReg a x).flag a F.REC_EXP_BUSY = d.flag a F.REC_EXP_BUSY := by
  simp only [Dev.flag, Dev.get, Dev.reg_setReg_self]
  exact ⟨hwin, hn, congrArg (· != 0) hbusy⟩

theorem Dev.recHeld_setReg (d : Dev) (x : Word) (n : Nat) : (d.setReg R.REC_EXP x).recHeld n = d.recHeld n := by
  rw [Dev.recHeld, Dev.recHeld, Dev.recOld, Dev.recOld, Dev.recWseq, Dev.recWseq, Dev.reg_setReg_ne _ _ (by decide), Dev.reg_setReg_ne _ _ (by decide)]

theorem Dev.recExpWrite_eq (ht : d.takenAt mid R.REC_EXP = true) (hb : d.flag R.REC_EXP F.REC_EXP_BUSY = false) (v : Word) :
    ∃ x, d.recExpWrite mid (v ||| fieldMask F.REC_EXP_GO) = (d.setReg R.REC_EXP x).jobAsk
      { kind := 0, win := getF v F.REC_EXP_WIN, at0 := (d.reg R.REC_EXP_SEQ).toNat, n := getF v F.REC_EXP_CNT + 1 }
      ((List.range (getF v F.REC_EXP_CNT + 1)).all fun i => d.recHeld ((d.reg R.REC_EXP_SEQ).toNat + i)) := by
  obtain ⟨x, heq, hwin, hn, hbusy⟩ := recExp_written ht v
  obtain ⟨gwin, gn, gbusy⟩ := Dev.setReg_job (d := d) hwin hn hbusy
  refine ⟨x, ?_⟩
  rw [Dev.recExpWrite, ht, heq, bitOf_go, gbusy, hb]
  refine (if_pos rfl).trans ?_
  rw [gwin, gn, Dev.reg_setReg_ne _ _ (by decide)]
  simp only [Dev.recHeld_setReg]

theorem Dev.rplLoadWrite_eq (ht : d.takenAt mid R.RPL_LOAD = true) (hen : d.flag R.REC_CTRL F.REC_CTRL_EN = false)
    (hheld : d.flag R.REC_STAT F.REC_STAT_HELD = false) (hb : d.flag R.RPL_LOAD F.RPL_LOAD_BUSY = false) (v : Word) :
    ∃ x, d.rplLoadWrite mid (v ||| fieldMask F.RPL_LOAD_GO) = (d.setReg R.RPL_LOAD x).jobAsk
      { kind := 1, win := getF v F.REC_EXP_WIN, n := getF v F.REC_EXP_CNT + 1 } true := by
  obtain ⟨x, heq, hwin, hn, hbusy⟩ := rplLoad_written ht v
  obtain ⟨gwin, gn, gbusy⟩ := Dev.setReg_job (d := d) hwin hn hbusy
  refine ⟨x, ?_⟩
  change d.rplLoadWrite mid (v ||| fieldMask F.REC_EXP_GO) = _
  change d.flag R.RPL_LOAD F.REC_EXP_BUSY = false at hb
  rw [Dev.rplLoadWrite, ht, heq, bitOf_go, hen, hheld]
  refine (if_neg Bool.false_ne_true).trans ?_
  change (if true && true && !(d.setReg R.RPL_LOAD x).flag R.RPL_LOAD F.REC_EXP_BUSY then
    (d.setReg R.RPL_LOAD x).jobAsk { kind := 1, win := (d.setReg R.RPL_LOAD x).get R.RPL_LOAD F.REC_EXP_WIN, n := (d.setReg R.RPL_LOAD x).get R.RPL_LOAD F.REC_EXP_CNT + 1 } true
    else d.setReg R.RPL_LOAD x) = _
  rw [gbusy, hb, gwin]
  refine (if_pos rfl).trans ?_
  rw [show (d.setReg R.RPL_LOAD x).get R.RPL_LOAD F.REC_EXP_CNT = getF v F.REC_EXP_CNT from gn]

theorem Dev.rplLoadWrite_denied (ht : d.takenAt mid R.RPL_LOAD = true) (h : d.flag R.REC_CTRL F.REC_CTRL_EN = true ∨ d.flag R.REC_STAT F.REC_STAT_HELD = true)
    (w : Word) : d.rplLoadWrite mid w = d.deny Pg.RPL := by
  rw [Dev.rplLoadWrite, ht]
  exact if_pos (by obtain h | h := h <;> simp [h])

theorem Dev.dmpExpWrite_eq (ht : d.takenAt mid R.DMP_EXP = true) (hb : d.flag R.DMP_EXP F.DMP_EXP_BUSY = false) (v : Word) :
    ∃ x, d.dmpExpWrite mid (v ||| fieldMask F.DMP_EXP_GO) = (d.setReg R.DMP_EXP x).jobAsk
      { kind := 2, win := getF v F.REC_EXP_WIN, at0 := getF v F.DMP_EXP_CHUNK, n := 1 } (d.chunkValid (getF v F.DMP_EXP_CHUNK)) := by
  obtain ⟨x, heq, hwin, hn, hbusy⟩ := dmpExp_written ht v
  obtain ⟨gwin, gn, gbusy⟩ := Dev.setReg_job (d := d) hwin hn hbusy
  refine ⟨x, ?_⟩
  have hvalid : ∀ k, (d.setReg R.DMP_EXP x).chunkValid k = d.chunkValid k := fun k => by
    simp only [Dev.chunkValid, Dev.flag, Dev.get, Dev.reg_setReg_ne d x (show R.DMP_STAT ≠ R.DMP_EXP by decide)]
  change d.dmpExpWrite mid (v ||| fieldMask F.REC_EXP_GO) = _
  change d.flag R.DMP_EXP F.REC_EXP_BUSY = false at hb
  rw [Dev.dmpExpWrite, ht, heq, bitOf_go]
  change (if true && true && !(d.setReg R.DMP_EXP x).flag R.DMP_EXP F.REC_EXP_BUSY then
    (d.setReg R.DMP_EXP x).jobAsk { kind := 2, win := (d.setReg R.DMP_EXP x).get R.DMP_EXP F.REC_EXP_WIN, at0 := (d.setReg R.DMP_EXP x).get R.DMP_EXP F.DMP_EXP_CHUNK, n := 1 }
      ((d.setReg R.DMP_EXP x).chunkValid ((d.setReg R.DMP_EXP x).get R.DMP_EXP F.DMP_EXP_CHUNK)) else d.setReg R.DMP_EXP x) = _
  rw [gbusy, hb, gwin, gn, hvalid]
  exact if_pos rfl

/-- The DMP_CLR of a master that may. -/
theorem Dev.dmpCtrlWrite_clr (h : mid = Mid.S0 ∨ d.pageOwner Pg.DMP = mid) : Frame d (d.dmpCtrlWrite mid (fieldMask F.DMP_CTRL_CLR)) [R.DMP_STAT, R.REC_STAT] ∧
    (d.dmpCtrlWrite mid (fieldMask F.DMP_CTRL_CLR)).flag R.DMP_STAT F.DMP_STAT_VALID = false ∧
    (d.dmpCtrlWrite mid (fieldMask F.DMP_CTRL_CLR)).flag R.DMP_STAT F.DMP_STAT_EXT_VALID = false ∧
    (d.dmpCtrlWrite mid (fieldMask F.DMP_CTRL_CLR)).flag R.REC_STAT F.REC_STAT_HELD = false := by
  rw [Dev.dmpCtrlWrite, if_pos h, if_pos (show bitOf (fieldMask F.DMP_CTRL_CLR) 31 = true by decide)]
  have hne : ∀ (e : Dev) (f : RField), (e.putB R.REC_STAT F.REC_STAT_HELD false).flag R.DMP_STAT f = e.flag R.DMP_STAT f := fun e f => by
    rw [Dev.flag, Dev.get, Dev.putB, Dev.reg_put_ne _ _ _ (by decide)]
    rfl
  refine ⟨?_, ?_, ?_, Dev.flag_putB_self _ _ _ false rfl (by decide)⟩
  · exact (((FrameOn.refl noPart_part _ d).putB noPart_part _ _ (by simp)).putB noPart_part _ _ (by simp)).putB noPart_part _ _ (by simp)
  · rw [hne]
    exact (Dev.flag_put_field _ _ _ _ (by decide)).trans (Dev.flag_putB_self _ _ _ false rfl (by decide))
  · rw [hne]
    exact Dev.flag_putB_self _ _ _ false rfl (by decide)

end

end Sys2Proof.Machine
end

section
/-! PROOFS. The requests of copies, as commands (R462, R471). -/

namespace Sys2Proof.Machine

/-- The registers of window owners are none of a copy's. -/
theorem winOwn_ne_job {w : Nat} (k : Nat) (hw : w < 16) : R.WIN_OWN w ≠ jobReg k := by
  rw [jobReg]
  simp only [R.WIN_OWN, R.REC_EXP, R.RPL_LOAD, R.DMP_EXP]
  split
  · omega
  · split <;> omega

/-- The number of a window is one of a register's field. -/
theorem getF_win_lt (v : Word) : getF v F.REC_EXP_WIN < 16 := getF_lt v _

section
variable {s : State} {mid : Nat} (hup : s.Up)
include hup

/-- A request of a copy that is taken: begun, refused for what it copies, or refused for its window. -/
theorem jobAsked {g : Dev → Dev} {j : JobSt} {held : Bool} {x : Word} (hg : g s.dev = (s.dev.setReg (jobReg j.kind) x).jobAsk j held)
    (hwin : R.WIN_OWN j.win ≠ jobReg j.kind) :
    (s.dev.winOwner j.win = Mid.DMA → held = true → DevNext (onDev g s) s fun e => JobBegun s.dev e j) ∧
    (s.dev.winOwner j.win = Mid.DMA → held = false → DevNext (onDev g s) s fun e => JobRefused s.dev e j.kind 2) ∧
    (s.dev.winOwner j.win ≠ Mid.DMA → DevNext (onDev g s) s fun e => JobRefused s.dev e j.kind 3) := by
  have hown : (s.dev.setReg (jobReg j.kind) x).winOwner j.win = s.dev.winOwner j.win := by
    rw [Dev.winOwner, Dev.winOwner, Dev.get, Dev.get, Dev.reg_setReg_ne _ _ hwin]
  obtain ⟨hbegun, hheld, hdma⟩ := Dev.jobAsk_spec (held := held) (Frame.setReg_one s.dev x) (SameJobs.refl s.dev) hown
  exact ⟨fun hw hh => ⟨_, onDev_eq hup hg, hbegun hw hh⟩, fun hw hh => ⟨_, onDev_eq hup hg, hheld hw hh⟩, fun hw => ⟨_, onDev_eq hup hg, hdma hw⟩⟩

theorem exec_recExport (v : Word) (ht : s.dev.takenAt mid R.REC_EXP = true) (hb : s.dev.flag R.REC_EXP F.REC_EXP_BUSY = false) :
    (s.dev.winOwner (getF v F.REC_EXP_WIN) = Mid.DMA →
      (∀ i, i < getF v F.REC_EXP_CNT + 1 → s.dev.recHeld ((s.dev.reg R.REC_EXP_SEQ).toNat + i) = true) →
      DevNext (exec (.recExport mid v) s) s fun e => JobBegun s.dev e
        { kind := 0, win := getF v F.REC_EXP_WIN, at0 := (s.dev.reg R.REC_EXP_SEQ).toNat, n := getF v F.REC_EXP_CNT + 1 }) ∧
    (s.dev.winOwner (getF v F.REC_EXP_WIN) = Mid.DMA →
      ¬(∀ i, i < getF v F.REC_EXP_CNT + 1 → s.dev.recHeld ((s.dev.reg R.REC_EXP_SEQ).toNat + i) = true) →
      DevNext (exec (.recExport mid v) s) s fun e => JobRefused s.dev e 0 2) ∧
    (s.dev.winOwner (getF v F.REC_EXP_WIN) ≠ Mid.DMA → DevNext (exec (.recExport mid v) s) s fun e => JobRefused s.dev e 0 3) := by
  obtain ⟨x, hx⟩ := Dev.recExpWrite_eq ht hb v
  obtain ⟨hbegun, hheld, hdma⟩ := jobAsked hup (g := fun d => d.recExpWrite mid (v ||| fieldMask F.REC_EXP_GO)) hx (winOwn_ne_job 0 (getF_win_lt v))
  refine ⟨fun hw hall => hbegun hw ?_, fun hw hall => hheld hw ?_, hdma⟩
  · exact List.all_eq_true.2 fun i hi => hall i (List.mem_range.1 hi)
  · refine Bool.eq_false_iff.2 fun htrue => hall fun i hi => ?_
    exact List.all_eq_true.1 htrue i (List.mem_range.2 hi)

theorem exec_rplLoad (v : Word) (ht : s.dev.takenAt mid R.RPL_LOAD = true) (hen : s.dev.flag R.REC_CTRL F.REC_CTRL_EN = false)
    (hheld : s.dev.flag R.REC_STAT F.REC_STAT_HELD = false) (hb : s.dev.flag R.RPL_LOAD F.RPL_LOAD_BUSY = false) :
    (s.dev.winOwner (getF v F.REC_EXP_WIN) = Mid.DMA → DevNext (exec (.rplLoad mid v) s) s fun e => JobBegun s.dev e
        { kind := 1, win := getF v F.REC_EXP_WIN, n := getF v F.REC_EXP_CNT + 1 }) ∧
    (s.dev.winOwner (getF v F.REC_EXP_WIN) ≠ Mid.DMA → DevNext (exec (.rplLoad mid v) s) s fun e => JobRefused s.dev e 1 3) := by
  obtain ⟨x, hx⟩ := Dev.rplLoadWrite_eq ht hen hheld hb v
  obtain ⟨hbegun, -, hdma⟩ := jobAsked hup (g := fun d => d.rplLoadWrite mid (v ||| fieldMask F.RPL_LOAD_GO)) hx (winOwn_ne_job 1 (getF_win_lt v))
  exact ⟨fun hw => hbegun hw rfl, hdma⟩

theorem exec_rplLoad_denied (v : Word) (ht : s.dev.takenAt mid R.RPL_LOAD = true)
    (h : s.dev.flag R.REC_CTRL F.REC_CTRL_EN = true ∨ s.dev.flag R.REC_STAT F.REC_STAT_HELD = true) :
    exec (.rplLoad mid v) s = .next (s.withDev (s.dev.deny Pg.RPL)) :=
  onDev_eq (g := fun d => d.rplLoadWrite mid (v ||| fieldMask F.RPL_LOAD_GO)) hup (Dev.rplLoadWrite_denied ht h _)

theorem exec_dmpExport (v : Word) (ht : s.dev.takenAt mid R.DMP_EXP = true) (hb : s.dev.flag R.DMP_EXP F.DMP_EXP_BUSY = false) :
    (s.dev.winOwner (getF v F.REC_EXP_WIN) = Mid.DMA → s.dev.chunkValid (getF v F.DMP_EXP_CHUNK) = true →
      DevNext (exec (.dmpExport mid v) s) s fun e => JobBegun s.dev e
        { kind := 2, win := getF v F.REC_EXP_WIN, at0 := getF v F.DMP_EXP_CHUNK, n := 1 }) ∧
    (s.dev.winOwner (getF v F.REC_EXP_WIN) = Mid.DMA → s.dev.chunkValid (getF v F.DMP_EXP_CHUNK) = false →
      DevNext (exec (.dmpExport mid v) s) s fun e => JobRefused s.dev e 2 2) ∧
    (s.dev.winOwner (getF v F.REC_EXP_WIN) ≠ Mid.DMA → DevNext (exec (.dmpExport mid v) s) s fun e => JobRefused s.dev e 2 3) := by
  obtain ⟨x, hx⟩ := Dev.dmpExpWrite_eq ht hb v
  obtain ⟨hbegun, hheld, hdma⟩ := jobAsked hup (g := fun d => d.dmpExpWrite mid (v ||| fieldMask F.DMP_EXP_GO)) hx (winOwn_ne_job 2 (getF_win_lt v))
  exact ⟨hbegun, hheld, hdma⟩

theorem exec_dmpClear (h : mid = Mid.S0 ∨ s.dev.pageOwner Pg.DMP = mid) : DevNext (exec (.dmpClear mid) s) s fun e =>
    Frame s.dev e [R.DMP_STAT, R.REC_STAT] ∧ e.flag R.DMP_STAT F.DMP_STAT_VALID = false ∧ e.flag R.DMP_STAT F.DMP_STAT_EXT_VALID = false ∧
      e.flag R.REC_STAT F.REC_STAT_HELD = false :=
  ⟨_, onDev_eq (g := fun d => d.dmpCtrlWrite mid (fieldMask F.DMP_CTRL_CLR)) hup rfl, Dev.dmpCtrlWrite_clr h⟩

end

end Sys2Proof.Machine
end

section
/-! PROOFS. The end of a copy: the register of the copy, and the window on its way back (R420, R462, R471). -/

namespace Sys2Proof.Machine

section
variable {d u : Dev} {n v : Nat}

/-- A window set to an owner, whether or not that owner has it. -/
theorem Dev.winSet_owner (d : Dev) (hv : v < 16) : FrameOn noPart [R.WIN_OWN n] d (d.winSet n v) ∧ (d.winSet n v).winOwner n = v := by
  by_cases ho : v = d.winOwner n
  · have hset : d.winSet n v = d := by
      rw [Dev.winSet]
      exact if_pos ho
    rw [hset]
    exact ⟨FrameOn.refl noPart_part _ d, ho.symm⟩
  · obtain ⟨hf, hnow⟩ := Dev.winSet_spec hv ho
    exact ⟨hf, hnow.1⟩

theorem Dev.winSet_jobs (d : Dev) (n v : Nat) : SameJobs d (d.winSet n v) := by
  rw [Dev.winSet]
  exact .ite _ (fun _ => .refl d) fun _ => rfl

/-- A window given to a master, whichever one and whoever has held it. -/
theorem Dev.winGiveTo_owner (d : Dev) (hn : n < 16) (hv : v < 16) : (d.winGiveTo n v).winOwner n = v ∧
    Raised (d.winGiveTo n v) Pg.WIN Ev.WIN_GIVEN ∧ SameJobs d (d.winGiveTo n v) := by
  obtain ⟨-, hown⟩ := d.winSet_owner (n := n) hv
  have hjobs := d.winSet_jobs n v
  obtain ⟨hne, hev⟩ := winOwn_ne_flag n hn
  rw [Dev.winGiveTo]
  generalize d.winSet n v = e at hown hjobs
  have hq := Dev.raiseN_quiet (e.orReg R.WIN_FLAG (bitWord n)) Pg.WIN Ev.WIN_GIVEN n
  refine ⟨(hq.get hev _).trans ?_, Dev.raiseN_raised _ _ rfl, hjobs.trans ((Dev.orReg_jobs _ _ _).trans (Dev.raiseN_jobs _ _ _ _))⟩
  rw [Dev.get, Dev.reg_orReg, if_neg hne]
  exact hown

/-! ### The copy's register -/

/-- A copy that has come to its end. -/
def JobEnded (e : Dev) (r : List JobSt) (k res ev : Nat) : Prop :=
  e.hamper.jobs = r ∧ e.flag (jobReg k) F.REC_EXP_BUSY = false ∧ e.get (jobReg k) F.REC_EXP_RESULT = res ∧ Raised e Pg.REC ev

/-- What a copy that has ended writes into its register, and raises, leaves every other register but those of events. -/
theorem Dev.jobEnd_spec {r : List JobSt} (h : u.hamper.jobs = r) (k ev : Nat) {res : Nat} (hres : res < 4) :
    JobEnded ((u.jobResult k res).raise Pg.REC ev) r k res ev ∧ ∀ page src, R.PG_EVT_RAW page ≠ jobReg k → Raised u page src →
      Raised ((u.jobResult k res).raise Pg.REC ev) page src := by
  obtain ⟨hbusy, hr⟩ := u.jobResult_spec k hres
  have hjobs : (u.jobResult k res).hamper.jobs = r := h
  have hreg : ∀ a, a ≠ jobReg k → (u.jobResult k res).reg a = u.reg a := fun a ha => by
    rw [Dev.jobResult, Dev.putB, Dev.reg_put_ne _ _ _ ha, Dev.reg_put_ne _ _ _ ha]
  generalize u.jobResult k res = q at hbusy hr hjobs hreg
  have hq := q.raise_quiet Pg.REC ev
  refine ⟨⟨Eq.trans (q.raise_jobs _ _) hjobs, (hq.flag (jobReg_plain k) _).trans hbusy, (hq.get (jobReg_plain k) _).trans hr, q.raise_raised rfl⟩,
    fun page src hne hraised => hq.raised ?_⟩
  rw [Raised, hreg _ hne]
  exact hraised

theorem Dev.jobEnd_owner (u : Dev) (k res ev : Nat) (hn : n < 16) : ((u.jobResult k res).raise Pg.REC ev).winOwner n = u.winOwner n := by
  obtain ⟨-, hev⟩ := winOwn_ne_flag n hn
  rw [Dev.winOwner, Dev.winOwner, (Dev.raise_quiet _ _ _).get hev, Dev.jobResult, Dev.putB, Dev.get, Dev.get,
    Dev.reg_put_ne _ _ _ (winOwn_ne_job k hn), Dev.reg_put_ne _ _ _ (winOwn_ne_job k hn)]

/-- The end of a copy that has run: its window goes back to the master that gave it. -/
def Dev.jobEnd (d : Dev) (j : JobSt) (good : Bool) : Dev :=
  let d := d.winGiveTo j.win (d.get (R.WIN_OWN j.win) F.WIN_OWN_PREV)
  if good then (d.jobResult j.kind 1).raise Pg.REC Ev.REC_EXP_DONE else d.jobRefuse j.kind 2

theorem winRaw_ne_job (k : Nat) : R.PG_EVT_RAW Pg.WIN ≠ jobReg k := by
  rw [jobReg]
  split
  · decide
  · split <;> decide

/-- The window of a copy that has ended, on its way back. -/
def JobBack (d e : Dev) (w : Nat) : Prop := e.winOwner w = d.get (R.WIN_OWN w) F.WIN_OWN_PREV ∧ Raised e Pg.WIN Ev.WIN_GIVEN

theorem Dev.jobEnd_ended {j : JobSt} {r : List JobSt} (hj : d.hamper.jobs = r) (hw : j.win < 16) (good : Bool) :
    JobEnded (d.jobEnd j good) r j.kind (if good then 1 else 2) (if good then Ev.REC_EXP_DONE else Ev.REC_EXP_ERR) ∧ JobBack d (d.jobEnd j good) j.win := by
  obtain ⟨hown, hgiven, hjobs⟩ := d.winGiveTo_owner (v := d.get (R.WIN_OWN j.win) F.WIN_OWN_PREV) hw (getF_lt _ _)
  have hr := Eq.trans hjobs hj
  rw [JobBack, Dev.jobEnd]
  generalize d.winGiveTo j.win (d.get (R.WIN_OWN j.win) F.WIN_OWN_PREV) = u at hown hgiven hr
  generalize d.get (R.WIN_OWN j.win) F.WIN_OWN_PREV = v at hown
  clear hjobs hj
  have hback := fun ev res => (u.jobEnd_owner j.kind res ev hw).trans hown
  cases good with
  | true =>
    obtain ⟨hended, hkeeps⟩ := Dev.jobEnd_spec hr j.kind Ev.REC_EXP_DONE (res := 1) (by decide)
    simp only [if_true]
    exact ⟨hended, hback _ _, hkeeps _ _ (winRaw_ne_job _) hgiven⟩
  | false =>
    obtain ⟨hended, hkeeps⟩ := Dev.jobEnd_spec hr j.kind Ev.REC_EXP_ERR (res := 2) (by decide)
    simp only [Bool.false_eq_true, if_false, Dev.jobRefuse]
    exact ⟨hended, hback _ _, hkeeps _ _ (winRaw_ne_job _) hgiven⟩

end

/-! ### The state with the copy taken off -/

section
variable {s : State} {j : JobSt} {r : List JobSt}

/-- The state with what remains of the copies under way. -/
def State.jobsLeft (s : State) (r : List JobSt) : State := s.onDevS fun d => { d with hamper := { d.hamper with jobs := r } }

theorem State.jobDone_foreign (h : s.dev.hamper.jobs = j :: r) (hw : s.dev.winOwner j.win ≠ Mid.DMA) :
    s.jobDone = (s.jobsLeft r).onDevS fun d => d.jobRefuse j.kind 3 := by
  simp only [State.jobDone, h]
  exact if_pos hw

theorem State.jobDone_runs (h : s.dev.hamper.jobs = j :: r) (hw : s.dev.winOwner j.win = Mid.DMA) :
    s.jobDone = ((s.jobsLeft r).jobRun j).1.onDevS fun d => d.jobEnd j ((s.jobsLeft r).jobRun j).2 := by
  simp only [State.jobDone, h]
  exact if_neg (not_not.2 hw)

variable (hup : s.Up) (hf : s.dev.frozen Pg.REC = false)
include hup hf

theorem exec_recExpDone : exec .recExpDone s = .next s.jobDone := by
  refine (onState_up hup fun s => s.clocked Pg.REC State.jobDone).trans ?_
  rw [State.clocked, hf]
  rfl

/-- A copy whose window is not the DMA's ends with that reason. -/
theorem exec_recExpDone_foreign (h : s.dev.hamper.jobs = j :: r) (hw : s.dev.winOwner j.win ≠ Mid.DMA) :
    NextWith (exec .recExpDone s) fun t => t.mems = s.mems ∧ JobEnded t.dev r j.kind 3 Ev.REC_EXP_ERR :=
  ⟨_, (exec_recExpDone hup hf).trans (congrArg _ (State.jobDone_foreign h hw)), rfl, (Dev.jobEnd_spec rfl j.kind Ev.REC_EXP_ERR (by decide)).1⟩

/-- A copy that has run: what it moved stands, and its window goes back. -/
theorem exec_recExpDone_runs (h : s.dev.hamper.jobs = j :: r) (hw : s.dev.winOwner j.win = Mid.DMA) (hn : j.win < 16) {t : State} {good : Bool}
    (hrun : (s.jobsLeft r).jobRun j = (t, good)) (hjobs : t.dev.hamper.jobs = r)
    (hprev : t.dev.get (R.WIN_OWN j.win) F.WIN_OWN_PREV = s.dev.get (R.WIN_OWN j.win) F.WIN_OWN_PREV) :
    NextWith (exec .recExpDone s) fun q => q = t.withDev (t.dev.jobEnd j good) ∧
      JobEnded q.dev r j.kind (if good then 1 else 2) (if good then Ev.REC_EXP_DONE else Ev.REC_EXP_ERR) ∧ JobBack s.dev q.dev j.win := by
  obtain ⟨hended, hown, hgiven⟩ := Dev.jobEnd_ended hjobs hn good
  have heq : s.jobDone = t.withDev (t.dev.jobEnd j good) := by
    rw [State.jobDone_runs h hw, hrun]
    rfl
  exact ⟨_, (exec_recExpDone hup hf).trans (congrArg _ heq), rfl, hended, hown.trans hprev, hgiven⟩

end

end Sys2Proof.Machine
end

section
/-! PROOFS. What a copy moves: blocks out, blocks in and chunk of the dump (R456, R462, R471). -/

namespace Sys2Proof.Machine

section
variable {s t : State} {j : JobSt} {r : List JobSt}

/-! ### The ring as another state sees it -/

/-- The place of a block depends on the member and on three registers. -/
theorem Dev.recPlace_congr {d e : Dev} (hm : e.member = d.member) (hddr : e.reg R.DDR_STAT = d.reg R.DDR_STAT) (hcap : e.reg R.CAP_REC = d.reg R.CAP_REC)
    (hcfg : e.reg R.REC_CFG = d.reg R.REC_CFG) : e.recOnChip = d.recOnChip ∧ ∀ n, e.recOffset n = d.recOffset n := by
  have hchip : e.recOnChip = d.recOnChip := by
    rw [Dev.recOnChip, Dev.recOnChip, hm, Dev.flag_of_reg hddr]
  refine ⟨hchip, fun n => ?_⟩
  rw [Dev.recOffset, Dev.recOffset, Dev.recNblk, Dev.recNblk, hchip, Dev.recSizeMiB, Dev.recSizeMiB, hcap, Dev.get_of_reg hddr, Dev.get_of_reg hcfg]

theorem State.ringBlock_congr (hchip : t.dev.recOnChip = s.dev.recOnChip) (hplace : ∀ n, t.dev.recOffset n = s.dev.recOffset n) (hm : t.mems = s.mems) (n : Nat) :
    t.ringBlock n = s.ringBlock n := by
  simp only [State.ringBlock, State.ringWord, hchip, hplace, hm]

theorem length_ringBlock (s : State) (n : Nat) : (s.ringBlock n).length = 1024 := by rw [State.ringBlock, List.length_map, List.length_range]

/-! ### Blocks copied out -/

theorem noErrors_self (q : SysSt) (hb : q.bad = []) (hs : q.ddrSoft = []) : ({ q with bad := [], ddrSoft := [] } : SysSt) = q := by
  cases q
  simp only at hb hs
  rw [hb, hs]

/-- A read of a block that finds no error leaves the state. -/
theorem State.ringFix_same (h : s.dev.recOnChip = true ∨ s.dev.sys.bad = [] ∧ s.dev.sys.ddrSoft = []) (n : Nat) : s.ringFix n = s := by
  rw [State.ringFix]
  split
  · rfl
  · next hchip =>
    obtain ⟨hbad, hsoft⟩ := h.resolve_left hchip
    rw [State.ddrRead]
    split
    · rfl
    · obtain ⟨dev, mems, cmds⟩ := s
      simp only at hbad hsoft
      simp only [hbad, hsoft, List.filter_nil, List.map_nil, List.nil_append, List.foldl_nil]
      exact congrArg (fun q : SysSt => (⟨{ dev with sys := q }, mems, cmds⟩ : State)) (noErrors_self dev.sys hbad hsoft)

theorem State.ringFixes_same (h : s.dev.recOnChip = true ∨ s.dev.sys.bad = [] ∧ s.dev.sys.ddrSoft = []) (n first : Nat) :
    forN n (fun i t => t.ringFix (first + i)) s = s :=
  forN_keeps (P := fun t => t = s) n (fun i _ t ht => by rw [ht]; exact State.ringFix_same h _) rfl

/-- The blocks that are copied out, word by word. -/
def State.exportWords (s : State) (first n : Nat) : List Word := (List.range n).flatMap fun i => s.ringBlock (first + i)

theorem State.jobRun_export (hk : j.kind = 0) (h : s.dev.recOnChip = true ∨ s.dev.sys.bad = [] ∧ s.dev.sys.ddrSoft = []) :
    s.jobRun j = ({ s with mems := { s.mems with win := s.mems.win.writeWords (j.win * 0x10000) (s.exportWords j.at0 j.n) } }, true) := by
  rw [State.jobRun, if_pos hk]
  simp only [State.ringFixes_same h]
  rw [← Memory.writeBytes_words, State.exportWords, List.flatMap_assoc]
  rfl

theorem State.exportWords_read (s : State) (m : Memory) (a first : Nat) {n i k : Nat} (hi : i < n) (hk : k < 1024) :
    (m.writeWords a (s.exportWords first n)).readWord (a + 4096 * i + 4 * k) = nthD 0 (s.ringBlock (first + i)) k := by
  have hlen : (s.exportWords first n).length = 1024 * n := by
    rw [State.exportWords, List.length_flatMap]
    simp only [length_ringBlock, List.map_const', List.sum_replicate, List.length_range]
    exact Nat.mul_comm _ _
  have hlt : 1024 * i + k < 1024 * n := by omega
  rw [show a + 4096 * i + 4 * k = a + 4 * (1024 * i + k) by omega, Memory.readWord_writeWords _ _ _ _ (by omega), State.exportWords,
    nthD_blocks 0 (fun i => s.ringBlock (first + i)) (fun i => length_ringBlock s _) hi hk]

/-! ### A load -/

/-- The words of the first block of a window. -/
def State.winBlock (s : State) (w : Nat) : List Word := (List.range 1024).map fun k => s.mems.win.readWord (w * 0x10000 + 4 * k)

theorem State.loadBlocks_succ (w n : Nat) (s : State) : State.loadBlocks w (n + 1) 0 s =
    if blockGood (s.winBlock w) then State.loadBlocks w n 1 (s.ringPlace (blockSeq (s.winBlock w)) (s.winBlock w)) else (s, false) := by
  rw [State.loadBlocks, Nat.zero_mul, Nat.add_zero]
  rfl

theorem State.jobRun_load (hk : j.kind = 1) : s.jobRun j = State.loadBlocks j.win j.n 0 s := by
  rw [State.jobRun, hk]
  rfl

theorem State.jobRun_bad (hk : j.kind = 1) (hn : 0 < j.n) (hbad : blockGood (s.winBlock j.win) = false) : s.jobRun j = (s, false) := by
  obtain ⟨n, hn⟩ := Nat.exists_eq_succ_of_ne_zero hn.ne'
  rw [State.jobRun_load hk, hn, State.loadBlocks_succ, hbad]
  rfl

theorem State.jobRun_good (hk : j.kind = 1) (hn : j.n = 1) (hgood : blockGood (s.winBlock j.win) = true) :
    s.jobRun j = (s.ringPlace (blockSeq (s.winBlock j.win)) (s.winBlock j.win), true) := by
  rw [State.jobRun_load hk, hn, State.loadBlocks_succ, hgood]
  rfl

/-- A block placed in the ring reads back; the windows, the registers and the copies under way stand. -/
theorem State.ringPlace_spec (s : State) (n : Nat) {ws : List Word} (hws : ws.length = 1024) : (s.ringPlace n ws).ringBlock n = ws ∧
    (s.ringPlace n ws).mems.win = s.mems.win ∧ (∀ a, (s.ringPlace n ws).dev.reg a = s.dev.reg a) ∧ (s.ringPlace n ws).dev.member = s.dev.member ∧
    (s.ringPlace n ws).dev.hamper = s.dev.hamper := by
  have hwords : ∀ m : Memory, ((List.range 1024).map fun k => (m.writeWords (s.dev.recOffset n) ws).readWord (s.dev.recOffset n + 4 * k)) = ws := fun m => by
    have h := Memory.words_writeWords ws m (s.dev.recOffset n)
    rwa [hws] at h
  rw [State.ringPlace]
  by_cases hc : s.dev.recOnChip = true
  · rw [if_pos hc]
    refine ⟨(Eq.trans ?_ (hwords s.mems.chip)), rfl, fun _ => rfl, rfl, rfl⟩
    simp only [State.ringBlock, State.ringWord, if_pos hc]
  · rw [if_neg hc]
    obtain ⟨hchip, hplace⟩ := Dev.recPlace_congr (d := s.dev) (e := s.dev.ddrHeal (s.dev.recOffset n) 4096) rfl rfl rfl rfl
    refine ⟨(Eq.trans ?_ (hwords s.mems.ddr)), rfl, fun _ => rfl, rfl, rfl⟩
    simp only [State.ringBlock, State.ringWord, hchip, hplace, if_neg hc]

/-! ### A chunk of the dump -/

theorem State.jobRun_dump (hk : j.kind = 2) (hat : j.at0 < 4) :
    s.jobRun j = ({ s with mems := { s.mems with win := s.mems.win.writeBytes (j.win * 0x10000) (s.mems.ret.readBytes (j.at0 * 0x10000) 0x10000) } }, true) := by
  rw [State.jobRun, hk]
  exact if_pos hat

end

end Sys2Proof.Machine
end

section
/-! PROOFS. REC_EXP_DONE: each kind of copy at its end (R462, R471). -/

namespace Sys2Proof.Machine

section
variable {d : Dev} {s : State} {j : JobSt} {r : List JobSt}

/-- The end of a copy writes its register, the window's and those of events. -/
theorem Dev.jobEnd_frame (d : Dev) (j : JobSt) (good : Bool) : FrameOn noPart [R.WIN_OWN j.win, R.WIN_FLAG, jobReg j.kind] d (d.jobEnd j good) := by
  have hp := noPart_part
  obtain ⟨hset, -⟩ := d.winSet_owner (n := j.win) (v := d.get (R.WIN_OWN j.win) F.WIN_OWN_PREV) (getF_lt _ _)
  have hgive : FrameOn noPart [R.WIN_OWN j.win, R.WIN_FLAG, jobReg j.kind] d (d.winGiveTo j.win (d.get (R.WIN_OWN j.win) F.WIN_OWN_PREV)) := by
    rw [Dev.winGiveTo]
    refine ((hset.widen hp hp (fun _ _ => rfl) fun x hx => ?_).orReg hp _ (by simp)).quiet hp (Dev.raiseN_quiet _ _ _ _)
    rw [List.mem_singleton.1 hx]
    exact List.mem_cons_self
  rw [Dev.jobEnd]
  generalize d.winGiveTo j.win (d.get (R.WIN_OWN j.win) F.WIN_OWN_PREV) = u at hgive
  have hres : ∀ res, FrameOn noPart [R.WIN_OWN j.win, R.WIN_FLAG, jobReg j.kind] d (u.jobResult j.kind res) := fun res =>
    (hgive.putB hp _ false (by simp)).put hp _ res (by simp)
  exact .ite (fun _ => (hres 1).quiet hp (Dev.raise_quiet _ _ _)) fun _ => (hres 2).quiet hp (Dev.raise_quiet _ _ _)

theorem recRegs_ne_job (k : Nat) {a : Nat} (ha : a = R.DDR_STAT ∨ a = R.CAP_REC ∨ a = R.REC_CFG) : a ≠ jobReg k := by
  rw [jobReg]
  obtain rfl | rfl | rfl := ha
  · split
    · decide
    · split <;> decide
  · split
    · decide
    · split <;> decide
  · split
    · decide
    · split <;> decide

theorem Dev.jobEnd_place (d : Dev) (hn : j.win < 16) (good : Bool) :
    (d.jobEnd j good).recOnChip = d.recOnChip ∧ ∀ n, (d.jobEnd j good).recOffset n = d.recOffset n := by
  have hf := d.jobEnd_frame j good
  have hreg : ∀ a, eventReg a = false → (a = R.DDR_STAT ∨ a = R.CAP_REC ∨ a = R.REC_CFG) → (d.jobEnd j good).reg a = d.reg a := fun a hev ha => by
    refine hf.reg noPart_part hev ?_
    have hjob := recRegs_ne_job j.kind ha
    simp only [List.mem_cons, List.not_mem_nil, or_false, not_or]
    refine ⟨?_, ?_, hjob⟩ <;> obtain rfl | rfl | rfl := ha <;> simp only [R.DDR_STAT, R.CAP_REC, R.REC_CFG, R.WIN_OWN, R.WIN_FLAG] <;> omega
  exact Dev.recPlace_congr hf.no_member (hreg _ (by decide) (.inl rfl)) (hreg _ (by decide) (.inr (.inl rfl))) (hreg _ (by decide) (.inr (.inr rfl)))

/-- A stretch of one memory copied into another. -/
theorem Memory.read_copied (m q : Memory) (a b : Nat) {n x : Nat} (hx : x < n) : (m.writeBytes a (q.readBytes b n)).read (a + x) = q.read (b + x) := by
  rw [Memory.read_writeBytes_in _ _ _ (by rw [length_readBytes]; exact hx), nthD_readBytes, if_pos hx]

theorem State.ringBlock_withDev {e : Dev} (hchip : e.recOnChip = s.dev.recOnChip) (hplace : ∀ n, e.recOffset n = s.dev.recOffset n) (n : Nat) :
    (s.withDev e).ringBlock n = s.ringBlock n := by
  have hd : (s.withDev e).dev = e := rfl
  have hm : (s.withDev e).mems = s.mems := rfl
  simp only [State.ringBlock, State.ringWord, hd, hm, hchip, hplace]

theorem State.winBlock_jobsLeft (s : State) (r : List JobSt) (w : Nat) : (s.jobsLeft r).winBlock w = s.winBlock w := rfl

/-! ### The kinds of copy -/

section
variable (hup : s.Up) (hf : s.dev.frozen Pg.REC = false) (h : s.dev.hamper.jobs = j :: r) (hw : s.dev.winOwner j.win = Mid.DMA) (hn : j.win < 16)
include hup hf h hw hn

theorem exec_exportDone (hk : j.kind = 0) (hc : s.dev.recOnChip = true ∨ s.dev.sys.bad = [] ∧ s.dev.sys.ddrSoft = []) :
    NextWith (exec .recExpDone s) fun t => JobEnded t.dev r j.kind 1 Ev.REC_EXP_DONE ∧ JobBack s.dev t.dev j.win ∧
      t.mems = { s.mems with win := t.mems.win } ∧ ∀ i k, i < j.n → k < 1024 →
        t.mems.win.readWord (j.win * 0x10000 + 4096 * i + 4 * k) = nthD 0 (s.ringBlock (j.at0 + i)) k := by
  obtain ⟨t, ht, rfl, hended, hback⟩ := exec_recExpDone_runs hup hf h hw hn (State.jobRun_export (s := s.jobsLeft r) hk hc) rfl rfl
  refine ⟨_, ht, hended, hback, rfl, fun i k hi hkk => ?_⟩
  have hread := (s.jobsLeft r).exportWords_read s.mems.win (j.win * 0x10000) j.at0 hi hkk
  rw [State.ringBlock_congr (s := s) (t := s.jobsLeft r) rfl (fun _ => rfl) rfl] at hread
  exact hread

theorem exec_loadDone_bad (hk : j.kind = 1) (hj : 0 < j.n) (hbad : blockGood (s.winBlock j.win) = false) :
    NextWith (exec .recExpDone s) fun t => JobEnded t.dev r j.kind 2 Ev.REC_EXP_ERR ∧ JobBack s.dev t.dev j.win ∧ t.mems = s.mems := by
  obtain ⟨t, ht, rfl, hended, hback⟩ := exec_recExpDone_runs hup hf h hw hn (State.jobRun_bad (s := s.jobsLeft r) hk hj hbad) rfl rfl
  exact ⟨_, ht, hended, hback, rfl⟩

theorem exec_loadDone_placed {t : State} {n : Nat} {ws : List Word} (hrun : (s.jobsLeft r).jobRun j = (t, true)) (hblock : t.ringBlock n = ws)
    (hwin : t.mems.win = s.mems.win) (hreg : ∀ a, t.dev.reg a = s.dev.reg a) (hjobs : t.dev.hamper.jobs = r) :
    NextWith (exec .recExpDone s) fun t => JobEnded t.dev r j.kind 1 Ev.REC_EXP_DONE ∧ JobBack s.dev t.dev j.win ∧
      t.ringBlock n = ws ∧ t.mems.win = s.mems.win := by
  obtain ⟨q, hq, rfl, hended, hback⟩ := exec_recExpDone_runs hup hf h hw hn hrun hjobs (Dev.get_of_reg (hreg _) _)
  obtain ⟨hchip, hplace⟩ := t.dev.jobEnd_place (j := j) hn true
  have hsame : (t.withDev (t.dev.jobEnd j true)).ringBlock n = t.ringBlock n := State.ringBlock_withDev hchip hplace n
  exact ⟨_, hq, hended, hback, hsame.trans hblock, hwin⟩

theorem exec_loadDone_good (hk : j.kind = 1) (hj : j.n = 1) (hgood : blockGood (s.winBlock j.win) = true) :
    NextWith (exec .recExpDone s) fun t => JobEnded t.dev r j.kind 1 Ev.REC_EXP_DONE ∧ JobBack s.dev t.dev j.win ∧
      t.ringBlock (blockSeq (s.winBlock j.win)) = s.winBlock j.win ∧ t.mems.win = s.mems.win := by
  have hleft := s.winBlock_jobsLeft r j.win
  have hlen : (s.winBlock j.win).length = 1024 := by rw [State.winBlock, List.length_map, List.length_range]
  have hrun := State.jobRun_good (s := s.jobsLeft r) hk hj (hleft.symm ▸ hgood)
  rw [hleft] at hrun
  obtain ⟨hblock, hwin, hreg, -, hjobs⟩ := (s.jobsLeft r).ringPlace_spec (blockSeq (s.winBlock j.win)) hlen
  exact exec_loadDone_placed hup hf h hw hn hrun hblock hwin hreg (congrArg RecSt.jobs hjobs)

theorem exec_dumpChunkDone (hk : j.kind = 2) (hat : j.at0 < 4) :
    NextWith (exec .recExpDone s) fun t => JobEnded t.dev r j.kind 1 Ev.REC_EXP_DONE ∧ JobBack s.dev t.dev j.win ∧
      t.mems = { s.mems with win := t.mems.win } ∧ ∀ x, x < 0x10000 → t.mems.win.read (j.win * 0x10000 + x) = s.mems.ret.read (j.at0 * 0x10000 + x) := by
  have hrun := State.jobRun_dump (s := s.jobsLeft r) hk hat
  have hread : ∀ x, x < 0x10000 → (s.mems.win.writeBytes (j.win * 0x10000) ((s.jobsLeft r).mems.ret.readBytes (j.at0 * 0x10000) 0x10000)).read
      (j.win * 0x10000 + x) = s.mems.ret.read (j.at0 * 0x10000 + x) := fun x hx => Memory.read_copied _ _ _ _ hx
  generalize (s.jobsLeft r).mems.ret.readBytes (j.at0 * 0x10000) 0x10000 = bs at hrun hread
  obtain ⟨t, ht, rfl, hended, hback⟩ := exec_recExpDone_runs hup hf h hw hn hrun rfl rfl
  exact ⟨_, ht, hended, hback, rfl, hread⟩

end

end

end Sys2Proof.Machine
end

section
/-! PROOFS. The fatal dump: retention SRAM and region of LPDDR4X (R467 to R471). -/

namespace Sys2Proof.Machine

/-! ### Memories that agree -/

section
variable {m q : Memory} {bs : List Byte}

theorem Memory.readBytes_congr {a n : Nat} (h : ∀ k, a ≤ k → k < a + n → m.read k = q.read k) : m.readBytes a n = q.readBytes a n := by
  induction n generalizing a with
  | zero => rfl
  | succ n ih => rw [Memory.readBytes, Memory.readBytes, h a (Nat.le_refl a) (by omega), ih fun k h1 h2 => h k (by omega) (by omega)]

theorem Memory.readWord_congr {a : Nat} (h : ∀ k, a ≤ k → k < a + 4 → m.read k = q.read k) : m.readWord a = q.readWord a := by
  rw [Memory.readWord, Memory.readWord, Memory.readBytes_congr h]

/-- A memory made from words reads as these. -/
theorem readWord_memOf (ws : List Word) {k : Nat} (hk : k < ws.length) : Memory.readWord (memOf 0 (ws.flatMap bytesOfWord)) (4 * k) = nthD 0 ws k := by
  have hsame : ∀ x, Memory.read (memOf 0 (ws.flatMap bytesOfWord)) x = (Memory.writeBytes ([] : Memory) 0 (ws.flatMap bytesOfWord)).read x := fun x => by
    rw [read_memOf, Memory.read_writeBytes]
    rfl
  rw [Memory.readWord_congr fun x _ _ => hsame x, Memory.writeBytes_words, ← Memory.readWord_writeWords ws ([] : Memory) 0 k hk, Nat.zero_add]

/-- HCRC does not cover itself. -/
theorem dumpCrc_congr (h : ∀ k, k < 0xFC ∨ 0x100 ≤ k → m.read k = q.read k) : dumpCrc m = dumpCrc q := by
  rw [dumpCrc, dumpCrc, Memory.readBytes_congr fun k _ hk => h k (.inl (by omega)), Memory.readBytes_congr fun k _ hk => h k (.inl (by omega)),
    Memory.readBytes_congr fun k hk _ => h k (.inr hk)]

theorem read_blit_below (m : Memory) (bs : List Byte) {a k : Nat} (h : k < a) : Memory.read (blit m a bs) k = m.read k := by
  rw [read_blit, if_neg (by omega)]

/-- A stretch of a memory put over another. -/
theorem read_blit_copied (m q : Memory) (a : Nat) {n x : Nat} (hx : x < n) : Memory.read (blit m a (q.readBytes 0 n)) (a + x) = q.read x := by
  rw [read_blit, length_readBytes, if_pos (by omega), Nat.add_sub_cancel_left, nthD_readBytes, if_pos hx, Nat.zero_add]

end

/-! ### What the dump takes from the device -/

section
variable {s : State} {d : Dev}

/-- Free words change the supply of free values alone. -/
theorem freeWords_free (n : Nat) (d : Dev) : ∃ x, (freeWords n d).2 = { d with free := x } := by
  induction n generalizing d with
  | zero => exact ⟨d.free, rfl⟩
  | succ n ih =>
    obtain ⟨x, hx⟩ := ih d.fresh.2
    exact ⟨x, hx⟩

theorem Dev.dumpHeader_front (d : Dev) : ∃ l, d.dumpHeader = 0x44554D50 :: 1 :: nthD 0 d.sys.head 0 :: l := ⟨_, rfl⟩

theorem Dev.retWords_spec (d : Dev) : ∃ l x, d.retWords = (0x44554D50 :: 1 :: nthD 0 d.sys.head 0 :: l, { d with free := x }) := by
  obtain ⟨h, hh⟩ := d.dumpHeader_front
  obtain ⟨x, hx⟩ := freeWords_free 512 d
  rw [Dev.retWords, hh]
  generalize freeWords 512 d = p at hx
  obtain ⟨core, e⟩ := p
  obtain ⟨y, hy⟩ := freeWords_free 36844 e
  dsimp only at hx ⊢
  generalize freeWords 36844 e = p at hy
  obtain ⟨rest, f⟩ := p
  refine ⟨_, y, Prod.ext rfl ?_⟩
  rw [show f = { e with free := y } from hy, hx]

/-- The retention SRAM with its HCRC. -/
def retFilled (ws : List Word) : Memory :=
  (memOf 0 (ws.flatMap bytesOfWord)).writeBytes 0xFC (bytesOfWord (dumpCrc (memOf 0 (ws.flatMap bytesOfWord))))

theorem retFilled_read (ws : List Word) {k : Nat} (hk : k < 0xFC ∨ 0x100 ≤ k) : (retFilled ws).read k = Memory.read (memOf 0 (ws.flatMap bytesOfWord)) k :=
  Memory.read_writeBytes_out _ _ (hk.imp_right fun h => by simpa [bytesOfWord] using h)

theorem retFilled_word (ws : List Word) {k : Nat} (hk : k < ws.length) (h : k < 63) : (retFilled ws).readWord (4 * k) = nthD 0 ws k :=
  (Memory.readWord_congr fun x _ _ => retFilled_read ws (.inl (by omega))).trans (readWord_memOf ws hk)

theorem retFilled_crc (ws : List Word) : (retFilled ws).readWord 0xFC = dumpCrc (retFilled ws) := by
  rw [dumpCrc_congr fun k hk => retFilled_read ws hk]
  exact Memory.readWord_writeBytes_self _ _ _

/-- What a part of the dump leaves of the device. -/
def DumpKeeps (d e : Dev) : Prop := Quiet { d with sys := e.sys, free := e.free } e

variable (hup : s.Up)
include hup

theorem exec_dumpRetention (h : s.dev.sys.dump = 1) : NextWith (exec .dumpRetentionDone s) fun t =>
    t.mems = { s.mems with ret := t.mems.ret } ∧ DumpKeeps s.dev t.dev ∧
    t.dev.sys = { s.dev.sys with dump := if s.dev.flag R.DDR_STAT F.DDR_STAT_READY then 2 else 3 } ∧
    t.mems.ret.readWord 0 = 0x44554D50 ∧ t.mems.ret.readWord 8 = nthD 0 s.dev.sys.head 0 ∧ t.mems.ret.readWord 0xFC = dumpCrc t.mems.ret := by
  obtain ⟨l, x, hws⟩ := s.dev.retWords_spec
  have hlen : 2 < (0x44554D50 :: 1 :: nthD 0 s.dev.sys.head 0 :: l : List Word).length := by simp
  have h0 := retFilled_word _ (k := 0) (by omega : 0 < (0x44554D50 :: 1 :: nthD 0 s.dev.sys.head 0 :: l : List Word).length) (by decide)
  have h2 := retFilled_word _ (k := 2) hlen (by decide)
  have hcrc := retFilled_crc (0x44554D50 :: 1 :: nthD 0 s.dev.sys.head 0 :: l)
  have hrun : s.dumpRetention = { s with
      dev := { s.dev with free := x, sys := { s.dev.sys with dump := if s.dev.flag R.DDR_STAT F.DDR_STAT_READY then 2 else 3 } },
      mems := { s.mems with ret := retFilled (0x44554D50 :: 1 :: nthD 0 s.dev.sys.head 0 :: l) } } := by
    rw [State.dumpRetention, if_neg (not_not.2 h), hws]
    rfl
  generalize retFilled (0x44554D50 :: 1 :: nthD 0 s.dev.sys.head 0 :: l) = ret at h0 h2 hcrc hrun
  exact ⟨_, (onState_up hup State.dumpRetention).trans (congrArg _ hrun), rfl, Quiet.refl _, rfl, h0, h2, hcrc⟩

theorem exec_dumpRetention_not (h : s.dev.sys.dump ≠ 1) : exec .dumpRetentionDone s = .next s :=
  (onState_up hup State.dumpRetention).trans (congrArg _ (if_pos h))

theorem exec_dumpExt (h : s.dev.sys.dump = 2) : NextWith (exec .dumpExtDone s) fun t =>
    t.mems = { s.mems with ddr := t.mems.ddr, ret := t.mems.ret } ∧ DumpKeeps s.dev t.dev ∧
    t.dev.sys = { s.dev.sys with dump := 3, bad := t.dev.sys.bad, ddrSoft := t.dev.sys.ddrSoft } ∧ (∀ b ∈ t.dev.sys.bad, b ∈ s.dev.sys.bad) ∧
    (∀ a, t.mems.ret.read a = if a = 0x50 then 1 else s.mems.ret.read a) ∧
    ∀ x, x < 2 ^ 20 → t.mems.ddr.read (s.dev.dumpBase + 0x500000 + x) = s.mems.win.read x := by
  obtain ⟨y, hy⟩ := freeWords_free (2 ^ 20) s.dev
  have hret : ∀ a, (s.mems.ret.writeBytes 0x50 [1]).read a = if a = 0x50 then 1 else s.mems.ret.read a := fun a => by
    rw [Memory.read_writeBytes]
    by_cases ha : a = 0x50
    · rw [if_pos ha, ha]
      rfl
    · rw [if_neg ha, if_neg (by simp only [List.length_cons, List.length_nil]; omega)]
  have hddr : ∀ (m : Memory) (bs : List Byte) x, x < 2 ^ 20 →
      Memory.read (blit (blit m (s.dev.dumpBase + 0x500000) (s.mems.win.readBytes 0 (2 ^ 20))) (s.dev.dumpBase + 0x600000) bs)
        (s.dev.dumpBase + 0x500000 + x) = s.mems.win.read x := fun m bs x hx => by
    rw [read_blit_below _ _ (by omega), read_blit_copied _ _ _ hx]
  have hrun : ∃ ddr : Memory, s.dumpExt = { s with
      dev := ({ s.dev with free := y, sys := { s.dev.sys with dump := 3 } } : Dev).ddrHeal s.dev.dumpBase (16 * 2 ^ 20),
      mems := { s.mems with ddr := ddr, ret := s.mems.ret.writeBytes 0x50 [1] } } ∧
      ∀ x, x < 2 ^ 20 → ddr.read (s.dev.dumpBase + 0x500000 + x) = s.mems.win.read x := by
    rw [State.dumpExt, if_neg (not_not.2 h)]
    generalize freeWords (2 ^ 20) s.dev = p at hy
    obtain ⟨sram, e⟩ := p
    dsimp only at hy
    subst hy
    exact ⟨_, rfl, hddr _ _⟩
  obtain ⟨ddr, hrun, hread⟩ := hrun
  exact ⟨_, (onState_up hup State.dumpExt).trans (congrArg _ hrun), rfl, Quiet.refl _, rfl, fun b hb => (List.mem_filter.1 hb).1, hret, hread⟩

theorem exec_dumpExt_not (h : s.dev.sys.dump ≠ 2) : exec .dumpExtDone s = .next s :=
  (onState_up hup State.dumpExt).trans (congrArg _ (if_pos h))

end

end Sys2Proof.Machine
end

section
/-! PROOFS. O55 (R462, R467 to R471): requests, ends and dump put together. -/

namespace Sys2Proof.Machine

/-- Settles O55: the request by its register's write, the end by the kind of copy, the two parts of a dump by what they fill. -/
theorem recorderCopies : Obligations.RecorderCopies := by
  refine ⟨fun s hup => ⟨fun mid v => ⟨fun ht hb => ?_, fun ht hor => ?_, fun ht hen hheld hb => ?_, fun ht hb => ?_, fun ho => ?_⟩, fun j r hf hj => ⟨fun hw => ?_, fun hw hn => ?_⟩⟩,
    fun s hup => ⟨fun h => ?_, fun h => ?_, fun h => ?_, fun h => ?_⟩⟩
  · exact exec_recExport hup v ht hb
  · exact exec_rplLoad_denied hup v ht hor
  · exact exec_rplLoad hup v ht hen hheld hb
  · exact exec_dmpExport hup v ht hb
  · exact exec_dmpClear hup ho
  · exact exec_recExpDone_foreign hup hf hj hw
  · refine ⟨fun hk hc => ?_, fun hk h0 hbad => ?_, fun hk h1 hgood => ?_, fun hk hat => ?_⟩
    · exact exec_exportDone hup hf hj hw hn hk hc
    · exact exec_loadDone_bad hup hf hj hw hn hk h0 hbad
    · exact exec_loadDone_good hup hf hj hw hn hk h1 hgood
    · exact exec_dumpChunkDone hup hf hj hw hn hk hat
  · exact exec_dumpRetention hup h
  · exact exec_dumpRetention_not hup h
  · exact exec_dumpExt hup h
  · exact exec_dumpExt_not hup h

end Sys2Proof.Machine
end

section
/-! PROOFS. What leaves GTC and the member: the resolution of speculations (R55, R225, R231 to R236). -/

namespace Sys2Proof.Machine

/-- GTC and the member stand. -/
def SameClock (d e : Dev) : Prop := e.gtc = d.gtc ∧ e.member = d.member

section
variable {d e f : Dev} {c : Nat}

theorem SameClock.refl (d : Dev) : SameClock d d := ⟨rfl, rfl⟩

theorem SameClock.trans (h : SameClock d e) (k : SameClock e f) : SameClock d f := ⟨k.1.trans h.1, k.2.trans h.2⟩

theorem SameClock.of_quiet (h : Quiet d e) : SameClock d e := ⟨h.gtc, h.member⟩

theorem SameClock.ite {p : Prop} [Decidable p] (h : p → SameClock d e) (k : ¬p → SameClock d f) : SameClock d (if p then e else f) :=
  ite_both (P := SameClock d) h k

/-- A frame whose part does not hold GTC or the member. -/
theorem FrameOn.clock {p : Dev → Dev → Dev} {l : List Nat} (h : FrameOn p l d e) (hp : SameClock d (p d e)) : SameClock d e :=
  ⟨(congrArg Dev.gtc h.1).trans hp.1, (congrArg Dev.member h.1).trans hp.2⟩

theorem noPart_clock (d e : Dev) : SameClock d (noPart d e) := .refl d
theorem capPart_clock (d e : Dev) : SameClock d (capPart d e) := ⟨rfl, rfl⟩
theorem loopPart_clock (d e : Dev) : SameClock d (loopPart d e) := ⟨rfl, rfl⟩
theorem passPart_clock (d e : Dev) : SameClock d (passPart d e) := ⟨rfl, rfl⟩

theorem Dev.setCtx_clock (d : Dev) (c : Nat) (q : CtxSt) : SameClock d (d.setCtx c q) := ⟨rfl, rfl⟩

theorem sameClock_foldl {α : Type} (l : List α) {g : Dev → α → Dev} (h : ∀ d x, SameClock d (g d x)) (d : Dev) : SameClock d (l.foldl g d) :=
  foldl_keeps (P := SameClock d) (fun x _ _ he => he.trans (h _ x)) (.refl d)

theorem sameClock_forN (n : Nat) {g : Nat → Dev → Dev} (h : ∀ k d, SameClock d (g k d)) (d : Dev) : SameClock d (forN n g d) :=
  forN_keeps (P := SameClock d) n (fun k _ _ he => he.trans (h k _)) (.refl d)

/-! ### Fallbacks and commits of speculations -/

theorem Dev.specFall_clock (d : Dev) (c cause : Nat) : SameClock d (d.specFall c cause) := (d.specFall_spec c cause).frame.clock (capPart_clock _ _)

theorem Dev.specEnd_clock (d : Dev) (c outcome cause td commit : Nat) : SameClock d (d.specEnd c outcome cause td commit) :=
  (d.specEnd_spec c outcome cause td commit).1.frame.clock (capPart_clock _ _)

theorem Dev.ctxDiscard_clock (d : Dev) (c : Nat) : SameClock d (d.ctxDiscard c) := by
  rw [Dev.ctxDiscard]
  split
  · exact .ite (fun _ => ⟨rfl, rfl⟩) fun _ => ⟨rfl, rfl⟩
  · exact ⟨rfl, rfl⟩

theorem Dev.ctxEvent_clock (d : Dev) (c src : Nat) : SameClock d (d.ctxEvent c src) := by
  rw [Dev.ctxEvent]
  have h : SameClock d (d.orReg (R.LEC_FLAG (c / 32)) (bitWord (c % 32))) := ⟨rfl, rfl⟩
  generalize d.orReg (R.LEC_FLAG (c / 32)) (bitWord (c % 32)) = u at h
  exact h.trans (.of_quiet (u.raiseN_quiet _ _ _))

theorem Dev.specAbort_clock (d : Dev) (s : CtxSt) (c : Nat) (p : SpecSt) : SameClock d (d.specAbort s c p) := by
  have h : SameClock d (d.rcpEnd p) := .ite (fun _ => ⟨rfl, rfl⟩) fun _ => .refl d
  rw [Dev.specAbort]
  generalize d.rcpEnd p = u at h
  have hset : SameClock d (u.setCtx c { s with pend := none, run := none }) := h.trans ⟨rfl, rfl⟩
  generalize u.setCtx c { s with pend := none, run := none } = v at hset
  have hend := v.specEnd_clock c 4 7 v.gtc 0
  generalize v.specEnd c 4 7 v.gtc 0 = w at hend
  exact hset.trans (hend.trans (.of_quiet (w.raiseN_quiet _ _ _)))

theorem Dev.eccShown_clock (d : Dev) (c : Nat) : SameClock d (d.eccShown c) := by
  rw [Dev.eccShown]
  have h : SameClock d ((((d.putB (R.CTX_CTRL c) F.CTX_CTRL_EN false).putB (R.CTX_STAT c) F.CTX_STAT_ECC_ERR true).bump R.LEC_ECC F.LEC_ECC_UNCORR).put R.LEC_ECC
    F.LEC_ECC_LAST_CTX c) := ⟨rfl, rfl⟩
  generalize (((d.putB (R.CTX_CTRL c) F.CTX_CTRL_EN false).putB (R.CTX_STAT c) F.CTX_STAT_ECC_ERR true).bump R.LEC_ECC F.LEC_ECC_UNCORR).put R.LEC_ECC
    F.LEC_ECC_LAST_CTX c = u at h
  exact h.trans (u.ctxEvent_clock c _)

theorem Dev.ctxUncorr_clock (d : Dev) (c : Nat) : SameClock d (d.ctxUncorr c) := by
  rw [Dev.ctxUncorr_eq]
  have hrun := (d.runEnd_frame (d.ctxS c) c).1.clock (capPart_clock _ _)
  generalize d.ctxS c = s at hrun
  generalize d.runEnd s c = u at hrun
  have hstop : SameClock u (u.specStop s c) := by
    cases hs : s.spec with
    | none =>
      rw [Dev.specStop_none hs]
      exact (u.ctxDiscard_clock c).trans ⟨rfl, rfl⟩
    | some p =>
      rw [Dev.specStop_some hs]
      exact u.specAbort_clock s c p
  exact hrun.trans (hstop.trans (Dev.eccShown_clock _ c))

theorem Dev.ctxFixes_clock (d : Dev) (c : Nat) (p : Nat → Bool) : SameClock d (d.ctxFixes c p) := (d.ctxFixes_run c p).frame.clock (loopPart_clock _ _)

theorem Dev.passWords_clock (d : Dev) (c tr : Nat) (stale : Bool) (res : PassSt) : SameClock d (d.passWords c tr stale res) := by
  have hstep : ∀ j (e : Dev), SameClock e (e.outStep c res j) := fun _ _ => ⟨rfl, rfl⟩
  have houts : SameClock d (d.outsPut c res) := by
    rw [Dev.outsPut]
    exact sameClock_forN 12 hstep d
  have hword : ∀ (e : Dev) (w : Nat × Word), SameClock e (e.setReg (R.CTX_POOL c w.1) w.2) := fun _ _ => ⟨rfl, rfl⟩
  have hstate : ∀ u : Dev, SameClock u (u.stateOut c res) := fun u => by
    rw [Dev.stateOut]
    exact sameClock_foldl _ hword u
  rw [Dev.passWords]
  generalize d.outsPut c res = u at houts
  have hu := hstate u
  generalize u.stateOut c res = v at hu
  exact houts.trans (hu.trans ((v.statPut_frame c tr stale res.sat).clock (noPart_clock _ _)))

theorem Dev.ctxCommit_clock (d : Dev) (c : Nat) (snap : SnapSt) (res : PassSt) (late : Bool) : SameClock d (d.ctxCommit c snap res late) := by
  obtain ⟨seq, heq⟩ := d.ctxCommit_eq c snap res late
  rw [heq]
  have hwords := d.passWords_clock c snap.tr snap.stale res
  generalize d.passWords c snap.tr snap.stale res = u at hwords
  have hmend : SameClock u (u.passMend c res) := u.setCtx_clock c _
  generalize u.passMend c res = v at hmend
  have hnoted := (v.passNoted_spec c seq snap res late).1.clock (noPart_clock _ _)
  generalize v.passNoted c seq snap res late = w at hnoted
  exact hwords.trans (hmend.trans (hnoted.trans ((w.passHanded_run c snap.tr res late).frame.clock (passPart_clock _ _))))

theorem Dev.specCommit_clock (d : Dev) (c outcome cause td : Nat) (s : SpecSt) (res : PassSt) : SameClock d (d.specCommit c outcome cause td s res) := by
  obtain ⟨commit, heq⟩ := d.specCommit_eq c outcome cause td s res
  rw [heq]
  have hslack := (d.slackAt_run c).frame.clock (passPart_clock _ _)
  generalize d.slackAt c = u at hslack
  have hcommit := u.ctxCommit_clock c s.snap res true
  generalize u.ctxCommit c s.snap res true = v at hcommit
  have hreads := (v.specReads_only c s).frame.clock (loopPart_clock _ _)
  generalize v.specReads c s = w at hreads
  have hend : SameClock w ((w.put (R.CTX_SPEC c) F.CTX_SPEC_FB_RUN 0).specEnd c outcome cause td commit) :=
    SameClock.trans (e := w.put (R.CTX_SPEC c) F.CTX_SPEC_FB_RUN 0) ⟨rfl, rfl⟩ (Dev.specEnd_clock _ c outcome cause td commit)
  exact hslack.trans (hcommit.trans (hreads.trans (hend.trans (.of_quiet (Dev.ctxAnchor_quiet _ c)))))

/-! ### The resolution -/

theorem Dev.specTry_clock (d : Dev) (c : Nat) : SameClock d (d.specTry c) := by
  rw [Dev.specTry]
  split
  · exact .refl d
  · next s _ =>
    split
    · exact .refl d
    · have hfixes := d.ctxFixes_clock c predArea
      refine .ite (fun _ => .refl d) fun _ => .ite (fun _ => d.specFall_clock c 3) fun _ => .ite (fun _ => d.specFall_clock c 4) fun _ =>
        .ite (fun _ => d.specFall_clock c 5) fun _ => .ite (fun _ => .refl d) fun _ => .ite (fun _ => d.ctxUncorr_clock c) fun _ => ?_
      generalize d.ctxFixes c predArea = u at hfixes
      refine hfixes.trans (.ite (fun _ => .ite (fun _ => u.ctxUncorr_clock c) fun _ => ?_) fun _ => .ite (fun _ => u.specFall_clock c 6) fun _ => ⟨rfl, rfl⟩)
      have hstaged := u.ctxFixes_clock c (stagedArea s)
      generalize u.ctxFixes c (stagedArea s) = v at hstaged
      exact hstaged.trans (v.specCommit_clock c 1 0 u.gtc s s.res)

theorem Dev.specTryHeld_clock (d : Dev) : SameClock d d.specTryHeld :=
  sameClock_foldl _ (fun e p => .ite (fun _ => e.specTry_clock p.1) fun _ => .refl e) d

end

end Sys2Proof.Machine
end

section
/-! PROOFS. What a tick brings, stage by stage: each but the tick itself leaves GTC and the member (R55). -/

namespace Sys2Proof.Machine

section
variable {d e : Dev}

theorem cmpPart_clock (d e : Dev) : SameClock d (cmpPart d e) := ⟨rfl, rfl⟩
theorem posOnly_clock (d e : Dev) : SameClock d (posOnly d e) := ⟨rfl, rfl⟩
theorem trkPart_clock (d e : Dev) : SameClock d { d with trk := e.trk, sync := e.sync } := ⟨rfl, rfl⟩

/-- Tracks that have been updated. -/
theorem TrkStep.clock {ks : List Nat} (h : TrkStep ks d e) : SameClock d e :=
  ⟨(congrArg Dev.gtc h.frame.1).trans (trkPart_clock d e).1, (congrArg Dev.member h.frame.1).trans (trkPart_clock d e).2⟩

/-! ### Writes of a device -/

theorem Dev.put_clock (d : Dev) (a : Nat) (f : RField) (v : Nat) : SameClock d (d.put a f v) := ⟨rfl, rfl⟩
theorem Dev.putB_clock (d : Dev) (a : Nat) (f : RField) (c : Bool) : SameClock d (d.putB a f c) := ⟨rfl, rfl⟩
theorem Dev.setReg_clock (d : Dev) (a : Nat) (w : Word) : SameClock d (d.setReg a w) := ⟨rfl, rfl⟩
theorem Dev.setGrp_clock (d : Dev) (g : Nat) (q : GrpSt) : SameClock d (d.setGrp g q) := ⟨rfl, rfl⟩
theorem Dev.setPos_clock (d : Dev) (x : Nat) (q : PosSt) : SameClock d (d.setPos x q) := ⟨rfl, rfl⟩
theorem Dev.setTm_clock (d : Dev) (m : Nat) (q : TmSt) : SameClock d (d.setTm m q) := ⟨rfl, rfl⟩
theorem Dev.setCmp_clock (d : Dev) (c : Nat) (q : CmpSt) : SameClock d (d.setCmp c q) := ⟨rfl, rfl⟩
theorem Dev.setEng_clock (d : Dev) (n : Nat) (q : EngSt) : SameClock d (d.setEng n q) := ⟨rfl, rfl⟩
theorem Dev.setLeg_clock (d : Dev) (g x : Nat) (q : LegSt) : SameClock d (d.setLeg g x q) := d.setGrp_clock g _
theorem Dev.setCal_clock (d : Dev) (p : Nat) (q : CalSt) : SameClock d (d.setCal p q) := ⟨rfl, rfl⟩
theorem Dev.setEmu_clock (d : Dev) (k : Nat) (q : EmuSt) : SameClock d (d.setEmu k q) := ⟨rfl, rfl⟩
theorem Dev.setEth_clock (d : Dev) (p : Nat) (q : EthSt) : SameClock d (d.setEth p q) := ⟨rfl, rfl⟩
theorem Dev.setTrk_clock (d : Dev) (k : Nat) (q : TrkSt) : SameClock d (d.setTrk k q) := ⟨rfl, rfl⟩

/-! ### Edge blanking, engines, tracks -/

theorem Dev.pinLookAll_clock (d : Dev) : SameClock d d.pinLookAll := d.pinLookAll_trip.clock (cmpPart_clock _ _)

/-- An operation on RT leaves what it leaves on GTC. -/
theorem Dev.onRt_clock {f : Dev → Dev} (hf : ∀ d, SameClock d (f d)) (d : Dev) : SameClock d (d.onRt f) := by
  rw [Dev.onRt]
  exact .ite (fun _ => ⟨rfl, (hf _).2⟩) fun _ => hf d

theorem Dev.engFrame_clock (d : Dev) (n : Nat) : SameClock d (d.engFrame n) :=
  .ite (fun _ => .refl d) fun _ => .ite (fun _ => d.setEng_clock n _) fun _ =>
    .ite (fun _ => (d.setEng_clock n _).trans ((Dev.put_clock _ _ _ _).trans (Dev.put_clock _ _ _ _))) fun _ => .refl d

theorem Dev.engTick_clock (d : Dev) : SameClock d d.engTick := sameClock_forN _ (fun n u => u.engFrame_clock n) d

theorem Dev.trkTick_clock (d : Dev) (k : Nat) : SameClock d (d.trkTick k) := by
  rw [Dev.trkTick]
  dsimp only
  split
  · exact (d.setTrk_clock k _).trans (Dev.trkDir_step ..).clock
  · exact d.setTrk_clock k _

theorem Dev.trksTick_clock (d : Dev) : SameClock d d.trksTick :=
  Dev.onRt_clock (fun e => sameClock_forN nTracks (fun k x => .ite (fun _ => x.setTrk_clock k _) fun _ => x.trkTick_clock k) e) d

theorem Dev.tick_next (d : Dev) : d.tick.gtc = d.gtc + 1 ∧ d.tick.member = d.member := Dev.trksTick_clock { d with gtc := d.gtc + 1 }

/-! ### What stands still -/

theorem Dev.onStill_clock {f : Dev → Dev} (hf : ∀ d, SameClock d (f d)) (d : Dev) (page : Nat) : SameClock d (d.onStill page f) :=
  .ite (fun _ => hf d) fun _ => .refl d

theorem Dev.standAda_clock (d : Dev) : SameClock d d.standAda := sameClock_forN _ (fun p u => u.setCal_clock p _) d

theorem Dev.standCmp_clock (d : Dev) (p : Nat) : SameClock d (d.standCmp p) :=
  sameClock_forN 36 (fun _ u => .ite (fun _ => .refl u) fun _ => u.setCmp_clock _ _) d

theorem Dev.standPos_clock (d : Dev) (x : Nat) : SameClock d (d.standPos x) := .ite (fun _ => .refl d) fun _ => d.setPos_clock x _

theorem Dev.standExc_clock (d : Dev) (k : Nat) : SameClock d (d.standExc k) := by
  rw [Dev.standExc]
  split <;> exact ⟨rfl, rfl⟩

theorem Dev.standGrp_clock (d : Dev) (g : Nat) : SameClock d (d.standGrp g) := .ite (fun _ => .refl d) fun _ => d.setGrp_clock g _

theorem Dev.standGate_clock (d : Dev) (g : Nat) : SameClock d (d.standGate g) := .ite (fun _ => .refl d) fun _ => d.setGrp_clock g _

theorem Dev.standBst_clock (d : Dev) (g : Nat) : SameClock d (d.standBst g) := by
  refine sameClock_forN 3 (fun x u => ?_) d
  split
  · exact u.setLeg_clock g x _
  · exact .refl u

theorem Dev.standCtx_clock (d : Dev) (c : Nat) : SameClock d (d.standCtx c) := .ite (fun _ => .refl d) fun _ => d.setCtx_clock c _

theorem Dev.standTm_clock (d : Dev) (m : Nat) : SameClock d (d.standTm m) := .ite (fun _ => .refl d) fun _ => d.setTm_clock m _

theorem Dev.standSafe_clock (d : Dev) (m : Nat) : SameClock d (d.standSafe m) := by
  rw [Dev.standSafe]
  split <;> exact ⟨rfl, rfl⟩

theorem Dev.standTls_clock (d : Dev) (p : Nat) : SameClock d (d.standTls p) := ⟨rfl, rfl⟩

/-! ### A tick of what stands still, in three parts -/

/-- Emulation outputs. -/
def Dev.standEmu (d : Dev) : Dev := forN 4 (fun k e => let q := e.emuS k; e.setEmu k { q with stepAt := later q.stepAt }) d

theorem Dev.standEmu_clock (d : Dev) : SameClock d d.standEmu := sameClock_forN 4 (fun k u => u.setEmu_clock k _) d

/-- The scrub, the sources of the rings, the delay lines, the anchors. -/
def Dev.standScrub (d : Dev) : Dev := { d with sys := { d.sys with scrubbed := d.sys.scrubbed + 1 } }
def Dev.standSrcs (d : Dev) : Dev := { d with ring := { d.ring with srcs := d.ring.srcs.map fun p => (p.1, standSrc p.2) } }
def Dev.standLines (d : Dev) : Dev := { d with dl := d.dl.map fun p => (p.1, { p.2 with last := p.2.last + 1 }) }
def Dev.standAnchors (d : Dev) : Dev := { d with hamper := { d.hamper with ancAt := d.hamper.ancAt + 1 } }

theorem Dev.standScrub_clock (d : Dev) : SameClock d d.standScrub := ⟨rfl, rfl⟩
theorem Dev.standSrcs_clock (d : Dev) : SameClock d d.standSrcs := ⟨rfl, rfl⟩
theorem Dev.standLines_clock (d : Dev) : SameClock d d.standLines := ⟨rfl, rfl⟩
theorem Dev.standAnchors_clock (d : Dev) : SameClock d d.standAnchors := ⟨rfl, rfl⟩

/-- The delay measurement of the port that synchronises. -/
def Dev.standSync (d : Dev) : Dev := let q := d.ethS d.syncPort; d.setEth d.syncPort { q with pdNext := q.pdNext + 1 }

theorem Dev.standSync_clock (d : Dev) : SameClock d d.standSync := d.setEth_clock d.syncPort _

/-- Converters, comparators, decoders, excitation and emulation. -/
def Dev.standInputs (d : Dev) : Dev :=
  let d := d.onStill Pg.ADA Dev.standAda
  let d := forN 2 (fun p e => e.onStill (Pg.CMP p) fun e => e.standCmp p) d
  let d := forN 12 (fun n e => e.onStill (Pg.POS n) fun e => (e.standPos n).standPos (16 + n)) d
  let d := d.onStill Pg.EXC fun e => forN 4 (fun k e => e.standExc k) e
  d.onStill Pg.EMU Dev.standEmu

/-- Groups, gates, contexts and the scrub of their store. -/
def Dev.standDrives (d : Dev) : Dev :=
  let d := forN 20 (fun g e => e.onStill (Pg.PWT g) fun e => e.standGrp g) d
  let d := d.onStill Pg.GDT fun e => forN 12 (fun g e => e.standGate g) e
  let d := d.onStill Pg.GDA fun e => forN 8 (fun n e => (e.standGate (12 + n)).standBst (12 + n)) e
  let d := forN (nCtx d.member) (fun c e => if e.engHeld (e.ctxEng c) then e.standCtx c else e) d
  d.onStill Pg.LEC Dev.standScrub

/-- Monitors, safety, rings, delay lines, recorder, port and slots. -/
def Dev.standRest (d : Dev) : Dev :=
  let d := d.onStill Pg.TMON fun e => forN 20 (fun m e => e.standTm m) e
  let d := d.onStill Pg.SAFE fun e => forN 20 (fun m e => e.standSafe m) e
  let d := d.onStill Pg.SFX Dev.standSrcs
  let d := d.onStill Pg.PWG Dev.standLines
  let d := d.onStill Pg.REC Dev.standAnchors
  let d := d.onStill (Pg.ETH d.syncPort) Dev.standSync
  forN 4 (fun p e => e.onStill (Pg.TLS p) fun e => e.standTls p) d

theorem Dev.standTick_eq (d : Dev) :
    d.standTick = if !d.flag R.DBG_CTRL F.DBG_CTRL_HALTED then d.specTryHeld else d.standInputs.standDrives.standRest := rfl

theorem Dev.standInputs_clock (d : Dev) : SameClock d d.standInputs := by
  have hcmp : ∀ p (e : Dev), SameClock e (e.onStill (Pg.CMP p) fun e => e.standCmp p) := fun p e => Dev.onStill_clock (fun e => e.standCmp_clock p) e _
  have hpos : ∀ n (e : Dev), SameClock e (e.onStill (Pg.POS n) fun e => (e.standPos n).standPos (16 + n)) := fun n e =>
    Dev.onStill_clock (fun e => (e.standPos_clock n).trans (Dev.standPos_clock _ (16 + n))) e _
  have hexc : ∀ e : Dev, SameClock e (e.onStill Pg.EXC fun e => forN 4 (fun k e => e.standExc k) e) := fun e =>
    Dev.onStill_clock (fun e => sameClock_forN 4 (fun k e => e.standExc_clock k) e) e _
  exact (Dev.onStill_clock Dev.standAda_clock d _).trans ((sameClock_forN 2 hcmp _).trans ((sameClock_forN 12 hpos _).trans ((hexc _).trans
    (Dev.onStill_clock Dev.standEmu_clock _ _))))

theorem Dev.standDrives_clock (d : Dev) : SameClock d d.standDrives := by
  have hgrp : ∀ g (e : Dev), SameClock e (e.onStill (Pg.PWT g) fun e => e.standGrp g) := fun g e => Dev.onStill_clock (fun e => e.standGrp_clock g) e _
  have hgdt : ∀ e : Dev, SameClock e (e.onStill Pg.GDT fun e => forN 12 (fun g e => e.standGate g) e) := fun e =>
    Dev.onStill_clock (fun e => sameClock_forN 12 (fun g e => e.standGate_clock g) e) e _
  have hgda : ∀ e : Dev, SameClock e (e.onStill Pg.GDA fun e => forN 8 (fun n e => (e.standGate (12 + n)).standBst (12 + n)) e) := fun e =>
    Dev.onStill_clock (fun e => sameClock_forN 8 (fun n e => (e.standGate_clock (12 + n)).trans (Dev.standBst_clock _ (12 + n))) e) e _
  have hctx : ∀ c (e : Dev), SameClock e (if e.engHeld (e.ctxEng c) then e.standCtx c else e) := fun c e =>
    .ite (fun _ => e.standCtx_clock c) fun _ => .refl e
  exact (sameClock_forN 20 hgrp d).trans ((hgdt _).trans ((hgda _).trans ((sameClock_forN _ hctx _).trans (Dev.onStill_clock Dev.standScrub_clock _ _))))

theorem Dev.standRest_clock (d : Dev) : SameClock d d.standRest := by
  have htm : ∀ e : Dev, SameClock e (e.onStill Pg.TMON fun e => forN 20 (fun m e => e.standTm m) e) := fun e =>
    Dev.onStill_clock (fun e => sameClock_forN 20 (fun m e => e.standTm_clock m) e) e _
  have hsafe : ∀ e : Dev, SameClock e (e.onStill Pg.SAFE fun e => forN 20 (fun m e => e.standSafe m) e) := fun e =>
    Dev.onStill_clock (fun e => sameClock_forN 20 (fun m e => e.standSafe_clock m) e) e _
  have htls : ∀ p (e : Dev), SameClock e (e.onStill (Pg.TLS p) fun e => e.standTls p) := fun p e => Dev.onStill_clock (fun e => e.standTls_clock p) e _
  exact (htm d).trans ((hsafe _).trans ((Dev.onStill_clock Dev.standSrcs_clock _ _).trans ((Dev.onStill_clock Dev.standLines_clock _ _).trans
    ((Dev.onStill_clock Dev.standAnchors_clock _ _).trans ((Dev.onStill_clock Dev.standSync_clock _ _).trans (sameClock_forN 4 htls _))))))

theorem Dev.standTick_clock (d : Dev) : SameClock d d.standTick := by
  rw [Dev.standTick_eq]
  exact .ite (fun _ => d.specTryHeld_clock) fun _ =>
    d.standInputs_clock.trans ((Dev.standDrives_clock _).trans (Dev.standRest_clock _))

end

end Sys2Proof.Machine
end

section
/-! PROOFS. O2: a step on an empty queue (R55). -/

namespace Sys2Proof.Machine

section
variable {d e : Dev}

/-! ### Decoders and emulation at the new tick -/

theorem Dev.bissSample_clock (d : Dev) (n : Nat) : SameClock d (d.bissSample n) := by
  rw [Dev.bissSample]
  dsimp only
  split
  · refine .ite (fun _ => .refl d) fun _ => .ite (fun _ => d.setPos_clock n _) fun _ => .ite (fun _ => ?_) fun _ => .refl d
    have hset := fun q => d.setPos_clock n q
    exact .ite (fun _ => (hset _).trans (Dev.zeroSlack_step (ks := []) _ 2 n).clock) fun _ => hset _
  · exact .refl d

theorem Dev.posDeliver_shadowClock (d : Dev) (k m : Nat) (v : Option Int) (ts ta : Nat) (zero : Bool) : SameClock d (d.posDeliver (16 + k) m v ts ta zero) := by
  rw [Dev.posDeliver, if_pos (isShadow_add k)]
  dsimp only
  split
  · exact (d.put_clock _ _ _).trans (Dev.setReg_clock _ _ _)
  · exact d.put_clock _ _ _

theorem Dev.zeroSpd_shadow (d : Dev) (k : Nat) : SameClock d (d.zeroSpd (16 + k)) := by
  rw [Dev.zeroSpd]
  dsimp only
  split
  · exact .refl d
  · refine .ite (fun _ => ?_) fun _ => .refl d
    rw [if_pos (isShadow_add k)]
    exact (d.setPos_clock (16 + k) _).trans ((Dev.putB_clock _ _ _ _).trans (Dev.posDeliver_shadowClock _ k _ _ _ _ _))

theorem Dev.emuLag_clock (d : Dev) (n : Nat) : SameClock d (d.emuLag n) :=
  .ite (fun _ => .refl d) fun _ => (d.putB_clock _ _ _).trans (.of_quiet (Dev.raiseNIf_quiet _ _ _ _ _))

theorem Dev.posTick_clock (d : Dev) : SameClock d d.posTick := by
  have hone : ∀ n < nPos d.member, ∀ u : Dev, SameClock d u →
      SameClock d (if (u.bissSample n).posMode (16 + n) = 0 then u.bissSample n else ((u.bissSample n).zeroSpd (16 + n)).shadowApply n) := fun n hn u hu => by
    have hb := hu.trans (u.bissSample_clock n)
    generalize u.bissSample n = v at hb
    refine .ite (fun _ => hb) fun _ => ?_
    have hz := v.zeroSpd_shadow n
    generalize v.zeroSpd (16 + n) = w at hz
    exact hb.trans (hz.trans ((Dev.shadowApply_only (hn.trans_le (nPos_le _)) w).frame.clock (posOnly_clock _ _)))
  rw [Dev.posTick]
  exact (forN_keeps (P := SameClock d) _ hone (.refl d)).trans (sameClock_forN 4 (fun n u => u.emuLag_clock n) _)

/-! ### The run of a REARM -/

theorem Dev.emit_clock (d : Dev) (r : RecRec) : SameClock d (d.emit r) := .of_quiet (d.emit_quiet r)

/-- The anchors of tracks, of groups, of idle contexts, and of the contexts that remain. -/
def Dev.anchorTrks (d : Dev) : Dev :=
  forN nTracks (fun k e => if e.trkSrc k = 0 then e else e.emit { ty := 0x31, res := k, tick := e.gtc, data := e.ancTrkWords k }) d
def Dev.anchorGrps (d : Dev) : Dev :=
  forN 20 (fun g e => if groupPresent e.member g && e.pwmRun g then e.emit { ty := 0x32, res := g, tick := e.gtc, data := e.ancPwmWords g } else e) d
def Dev.anchorCtxs (d : Dev) (l : List Nat) : Dev :=
  l.foldl (fun (e : Dev) c => if e.ctxIdle c then e.emit { ty := 0x30, res := c, tick := e.gtc, data := e.ctxWords c } else e) d
def Dev.anchorLeft (d : Dev) (l : List Nat) : Dev := { d with hamper := { d.hamper with ancLeft := l } }

/-- The anchors of the enabled contexts: the idle ones at once, the others left. -/
def Dev.anchorAll (d : Dev) : Dev :=
  let en := (List.range (nCtx d.member)).filter d.ctxEn
  let d := d.anchorCtxs en
  d.anchorLeft (en.filter fun c => !d.ctxIdle c)

theorem Dev.anchorSet_eq (d : Dev) : d.anchorSet = d.anchorTrks.anchorGrps.anchorAll := by
  unfold Dev.anchorSet Dev.anchorAll Dev.anchorLeft Dev.anchorCtxs Dev.anchorGrps Dev.anchorTrks
  rfl

theorem Dev.anchorTrks_clock (d : Dev) : SameClock d d.anchorTrks :=
  sameClock_forN nTracks (fun _ u => .ite (fun _ => .refl u) fun _ => u.emit_clock _) d

theorem Dev.anchorGrps_clock (d : Dev) : SameClock d d.anchorGrps :=
  sameClock_forN 20 (fun _ u => .ite (fun _ => u.emit_clock _) fun _ => .refl u) d

theorem Dev.anchorCtxs_clock (d : Dev) (l : List Nat) : SameClock d (d.anchorCtxs l) :=
  sameClock_foldl l (fun u _ => .ite (fun _ => u.emit_clock _) fun _ => .refl u) d

theorem Dev.anchorLeft_clock (d : Dev) (l : List Nat) : SameClock d (d.anchorLeft l) := ⟨rfl, rfl⟩

theorem Dev.anchorSet_clock (d : Dev) : SameClock d d.anchorSet := by
  have h := d.anchorTrks_clock.trans (Dev.anchorGrps_clock _)
  rw [Dev.anchorSet_eq]
  generalize d.anchorTrks.anchorGrps = u at h
  exact h.trans ((u.anchorCtxs_clock _).trans (Dev.anchorLeft_clock _ _))

/-- The recorder and its registers as a run begins. -/
def Dev.runBegun (d : Dev) : Dev :=
  let d := { d with hamper := { jobs := d.hamper.jobs, ancAt := d.gtc } }
  let d := ((d.putB R.REC_STAT F.REC_STAT_FROZEN false).putB R.REC_STAT F.REC_STAT_POST false).putB R.REC_STAT F.REC_STAT_RUN true
  (d.putB R.REC_STAT F.REC_STAT_ONCHIP d.recOnChip).setReg R.REC_TRIG_INFO 0

theorem Dev.runStart_eq (d : Dev) : d.runStart = (d.runBegun.emit { ty := 0x03, tick := d.runBegun.gtc, data := d.runBegun.startWords }).anchorSet := rfl

theorem Dev.runStart_clock (d : Dev) : SameClock d d.runStart := by
  have hbegun : SameClock d d.runBegun := ⟨rfl, rfl⟩
  rw [Dev.runStart_eq]
  generalize d.runBegun = u at hbegun
  exact hbegun.trans ((u.emit_clock _).trans (Dev.anchorSet_clock _))

theorem Dev.rearmTick_clock (d : Dev) : SameClock d d.rearmTick := by
  rw [Dev.rearmTick]
  split
  · refine .ite (fun _ => ?_) fun _ => .refl d
    have hgone : SameClock d { d with hamper := { d.hamper with rearm := none } } := ⟨rfl, rfl⟩
    generalize ({ d with hamper := { d.hamper with rearm := none } } : Dev) = u at hgone
    refine .ite (fun _ => hgone) fun _ => .ite (fun _ => ?_) fun _ => hgone.trans u.runStart_clock
    exact hgone.trans (u.runStart_clock.trans (.of_quiet (Dev.trigger_quiet _ _)))
  · exact .refl d

/-! ### The tick -/

theorem Dev.liveTick_clock (d : Dev) : SameClock d d.liveTick := .ite (fun _ => .refl d) fun _ => d.posTick_clock

/-- One tick advances GTC by one. -/
theorem Dev.idle_next (d : Dev) : d.idle.gtc = d.gtc + 1 ∧ d.idle.member = d.member := by
  have hbefore : SameClock d (d.pinLookAll.onRt Dev.engTick) := d.pinLookAll_clock.trans (Dev.onRt_clock Dev.engTick_clock _)
  rw [Dev.idle]
  generalize d.pinLookAll.onRt Dev.engTick = u at hbefore
  obtain ⟨hgtc, hmember⟩ := u.tick_next
  generalize u.tick = v at hgtc hmember
  have hstand := Dev.onRt_clock Dev.standTick_clock v
  generalize v.onRt Dev.standTick = w at hstand
  have hlive := w.liveTick_clock
  generalize w.liveTick = x at hlive
  have hrearm : SameClock x (x.clocked Pg.REC Dev.rearmTick) := .ite (fun _ => .refl x) fun _ => x.rearmTick_clock
  obtain ⟨hg, hm⟩ := hstand.trans (hlive.trans hrearm)
  exact ⟨hg.trans (hgtc.trans (congrArg (· + 1) hbefore.1)), hm.trans (hmember.trans hbefore.2)⟩

/-- Settles O2: every stage of the tick but GTC's own leaves GTC; in RESET the step is none. -/
theorem emptyQueueTicks : Obligations.EmptyQueueTicks := by
  refine ⟨fun s hp hlive => ⟨s.dev.idle, step_idle hp hlive.1, s.dev.idle_next⟩, fun s hp hup => ?_⟩
  rw [step, hp]
  exact onDev_reset hup

end

end Sys2Proof.Machine
end
